-- ==== Sys2Proof/Word.lean ====
section
/-!
DEFINITION. The word types of the QV6416 and the plainest arithmetic on them: 32-bit register words (R18), bytes,
40-bit internal addresses as natural numbers, and lists of bytes in little-endian order (R9).
-/

namespace Sys2Proof

/-- A register word (R18). -/
abbrev Word := BitVec 32

/-- One byte of memory, of a descriptor, of a frame. -/
abbrev Byte := BitVec 8

/-- A run of bytes, first byte at the lowest address. -/
abbrev Bytes := List Byte

/-- The low `n` bits of `v` from bit `lo`, as a number. -/
def bitsOf (v lo n : Nat) : Nat := v / 2 ^ lo % 2 ^ n

/-- Bit `i` of the number `v`. -/
def bitOf (v i : Nat) : Bool := v / 2 ^ i % 2 == 1

/-- 0 or 1. -/
def Bool.nat (b : Bool) : Nat := if b then 1 else 0

/-- The `n` bytes of `v`, least significant first (R9). -/
def leBytes : Nat → Nat → Bytes
  | 0, _ => []
  | n + 1, v => BitVec.ofNat 8 v :: leBytes n (v / 256)

/-- The number whose little-endian bytes are given (R9). -/
def leNat : Bytes → Nat
  | [] => 0
  | b :: bs => b.toNat + 256 * leNat bs

/-- The number whose big-endian bytes are given (network headers and coded bitstreams, R9). -/
def beNat (bs : Bytes) : Nat := bs.foldl (fun a b => a * 256 + b.toNat) 0

/-- The `n` bytes of `v`, most significant first. -/
def beBytes (n v : Nat) : Bytes := (leBytes n v).reverse

/-- `n` read as a signed number of `w` bits (two's complement). -/
def signed (w n : Nat) : Int :=
  let m := n % 2 ^ w
  if m < 2 ^ (w - 1) then (m : Int) else (m : Int) - (2 ^ w : Nat)

/-- The two's complement form of `i` in `w` bits. -/
def unsigned (w : Nat) (i : Int) : Nat := (i % (2 ^ w : Nat)).toNat

/-- The least multiple of `m` at or above `n`. -/
def ceilTo (m n : Nat) : Nat := (n + m - 1) / m * m

/-- `n / m` rounded up. -/
def ceilDiv (n m : Nat) : Nat := (n + m - 1) / m

/-- `x` held within `lo` and `hi`. -/
def clampI (x lo hi : Int) : Int := if x < lo then lo else if x > hi then hi else x

/-- `n` held at `m`. -/
def capAt (m n : Nat) : Nat := if n > m then m else n

/-- The numbers `a, a+1, …, a+n-1`. -/
def upFrom (a n : Nat) : List Nat := (List.range n).map (a + ·)

/-- Whether the half-open ranges `[a, a+n)` and `[b, b+m)` meet. -/
def overlaps (a n b m : Nat) : Bool := decide (a < b + m) && decide (b < a + n) && decide (0 < n) && decide (0 < m)

/-- Bytes `off … off+n-1` of a list, zero past its end. -/
def sliceB (bs : Bytes) (off n : Nat) : Bytes := (List.range n).map fun i => bs.getD (off + i) 0

end Sys2Proof
end

