-- ==== Sys2Proof/Syntax.lean ====
section
/-!
DEFINITION. The commands of the block: one constructor per row of the spec's table of operations and events, with the
operands the row takes. A Soile command carries its descriptor's own bytes (Table 10.3 and its family's body table); a
register operation carries the access and the word written; an event carries what happened outside the block.
-/

namespace Sys2Proof

/-- The privilege level an access carries (R296). -/
inductive Level where
  | p0 | p1 | p2 | p3 | debug
  deriving DecidableEq, Repr

/-- The R296 code of a level. -/
def Level.code : Level → Nat
  | .p0 => 0 | .p1 => 1 | .p2 => 2 | .p3 => 3 | .debug => 4

/-- What an access carries: source code (Table 11.1), partition ID (R19) and level (R296). -/
structure Access where
  src   : BitVec 8
  part  : BitVec 5
  level : Level
  deriving DecidableEq, Repr

/-- What the reads of host memory that a command makes return: the bytes, or a failure on PCIe (R279, R287). -/
inductive HostRead where
  | bytes (bs : List (BitVec 8))
  | error
  deriving DecidableEq, Repr

/-- A fetched Soile descriptor (R276): where it came from, its common fields and its body (bytes 16–63). -/
structure Req where
  part    : Fin 16
  ring    : Fin 8
  index   : BitVec 64
  cring   : Fin 8
  barrier : Bool
  tag     : BitVec 32
  body    : BitVec 384
  host    : HostRead
  deriving DecidableEq, Repr

/-- An entry of the access gates: a peripheral slot or a region of a memory gate (R300, R303). -/
inductive GateEntry where
  | slot   (s : Fin 70)
  | region (m : Fin 8) (r : Fin 32)
  deriving DecidableEq, Repr

/-- How a memory read came out of the ECC (R47). -/
inductive Ecc where
  | ok | corrected | bad
  deriving DecidableEq, Repr

/-- The settings and outcome of a DisplayPort training procedure (R226, R235). -/
structure Training where
  stage    : Fin 6
  lttprs   : BitVec 8
  settings : BitVec 32
  crcSupp  : Bool
  deriving DecidableEq, Repr

/-- The sink's answer to one AUX transaction (R230). -/
inductive AuxReply where
  | ack (bs : List (BitVec 8))
  | nack
  | defer
  | timeout
  deriving DecidableEq, Repr

/-- What the sink CRC read of DPCD 0x00240–0x00246 brings (R236), with the triple of the frame just sent. -/
structure SinkRead where
  ok    : Bool
  r     : BitVec 16
  g     : BitVec 16
  b     : BitVec 16
  count : BitVec 4
  deriving DecidableEq, Repr

/-- A tile record on its way to the ledger (R28, R35). -/
structure TileRec where
  surface : BitVec 12
  tile    : BitVec 16
  crc     : BitVec 32
  content : BitVec 32
  basis   : BitVec 2
  taint   : Bool
  seq     : BitVec 32
  deriving DecidableEq, Repr

/-- What a sequence parameter set says (R116, R123, R125): values of the syntax elements of H.264 or H.265. -/
structure SeqInfo where
  profile     : Nat             -- profile_idc, or general_profile_idc
  constraint1 : Bool            -- constraint_set1_flag of H.264
  constraint3 : Bool            -- constraint_set3_flag of H.264
  level       : Nat             -- level_idc, or general_level_idc
  fields      : Bool            -- frame_mbs_only_flag is 0, or field_seq_flag is 1
  chroma      : Nat             -- chroma_format_idc
  depthY      : Nat
  depthC      : Nat
  extension   : Bool            -- sps_extension_present_flag of H.265
  width       : Nat             -- coded, in luma samples
  height      : Nat
  ctb         : Nat             -- CtbSizeY, or 16
  dpb         : Option Nat      -- sps_max_dec_pic_buffering_minus1 + 1, or max_dec_frame_buffering where the VUI gives it
  reorder     : Nat             -- sps_max_num_reorder_pics
  latency     : Nat             -- sps_max_latency_increase_plus1
  crop        : Nat × Nat × Nat × Nat   -- conformance crop: left, right, top, bottom
  maxFrameNum : Nat             -- H.264: MaxFrameNum
  gapsAllowed : Bool            -- H.264: gaps_in_frame_num_value_allowed_flag
  refFrames   : Nat             -- H.264: max_num_ref_frames
  deriving DecidableEq, Repr

/-- A parameter set: its ID, the ID it names, what the part reads of it (R116, R120, R126). -/
inductive ParamSet where
  | vps (id : Nat)
  | sps (id vps : Nat) (info : SeqInfo)
  | pps (id sps : Nat) (tiles wpp : Bool) (groups : Nat)   -- tiles_enabled_flag, entropy_coding_sync_enabled_flag, num_slice_groups_minus1
  deriving DecidableEq, Repr

/-- What kind of picture a bitstream brings (R125, R135). -/
inductive PicKind where
  | idr | bla | cra | rasl | other
  deriving DecidableEq, Repr

/-- A slice segment (R133): the picture parameter set its header names, whether it is dependent, the slice it belongs to by the
address of its first CTU (SliceAddrRs), the addresses of its CTUs or macroblocks, and at which of them the first error shows. -/
structure Seg where
  pps       : Nat
  dependent : Bool
  slice     : Nat
  ctus      : List Nat
  bad       : Option Nat
  deriving DecidableEq, Repr

/-- What the parsing of an access unit shows (R116, R120, R123, R126, R133–R135): syntax, and nothing that the spec decides. -/
structure AuInfo where
  sets     : List ParamSet      -- the parameter sets it brings
  segs     : List Seg           -- its slice segments in bitstream order
  kind     : PicKind
  afterEos : Bool               -- the first picture after an end of sequence
  mmco5    : Bool               -- memory_management_control_operation 5
  noPrior  : Bool               -- no_output_of_prior_pics_flag
  raster   : Bool               -- slices in raster order
  poc      : BitVec 32          -- picture order count
  rps      : List Int           -- H.265: the picture order counts of its reference picture set
  frameNum : Nat                -- H.264: frame_num
  empty    : List (BitVec 24)   -- H.264: what each reference list entry that list construction left empty should have named
  deriving DecidableEq, Repr

/-- The picture a block predicts from: that of a picture order count, or the one a gap or an empty list entry names (R134). -/
inductive RefPic where
  | poc (n : Int)
  | gap
  deriving DecidableEq, Repr

/-- The prediction of one block (R130). -/
inductive BlockKind where
  | concealed
  | inter (refs : List (RefPic × Int × Int)) (col : Option (RefPic × Nat × Nat))
  | intra (nbrs : List (Nat × Nat))
  deriving DecidableEq, Repr

/-- One block of a decoded picture, in luma samples (R130). -/
structure Block where
  x : Nat
  y : Nat
  w : Nat
  h : Nat
  kind : BlockKind
  deriving DecidableEq, Repr

/-- What the decoding of a picture's bitstream brings (R125, R130). -/
structure PicResult where
  blocks     : List Block                     -- those of the areas not concealed
  rows       : List (Nat × List (BitVec 8))   -- bytes stored at offsets of the surface
  outputFlag : Bool
  refs       : List Int                       -- H.264: picture order counts of the frames marked for reference afterwards
  ghosts     : List Nat                       -- H.264: FrameNums of the non-existing frames still so marked
  deriving DecidableEq, Repr

/-- How one CTU row codes (R174): its bits at the row's QP and as skip, the 16×16 blocks the coder makes intra of itself, and the
lines it reconstructs to. -/
structure CodedRow where
  bits  : List Bool
  skip  : List Bool
  intra : List Nat
  recon : List (List (BitVec 8))
  deriving DecidableEq, Repr

/-- What an encode core's syntax coding brings of a picture (R163, R164, R174): parameter sets as NAL units before emulation
prevention, slice headers with their NAL unit headers, rows. -/
structure CodedPic where
  sets  : List (List (BitVec 8))
  heads : List (List Bool)
  rows  : List CodedRow
  deriving DecidableEq, Repr

/-- A message of the chain (Tables 13.4 and 13.5); `hdr` are bytes 8–27. -/
structure Msg where
  kind   : BitVec 8
  dst    : BitVec 3
  bcast  : Bool
  epoch  : BitVec 4
  origin : BitVec 3
  hops   : BitVec 3
  seq    : BitVec 16
  hdr    : BitVec 160
  body   : List (BitVec 8)
  deriving DecidableEq, Repr

/-- The kind of a received flit that is not accepted as it stands (R344–R346, R349): an LCTRL or IDLE flit whose check fails; a HEAD or
BODY flit that fails its check, by its CRC or by a block whose sync header is 0b00 or 0b11; one of a class that carries the poisoned
check value. `onward` is the code and bytes 0–27 of the flit where this unit was sending it on already. -/
inductive BadFlit where
  | control
  | failed (onward : Option (BitVec 4 × List (BitVec 8)))
  | poisoned (cls : Fin 4) (onward : Option (BitVec 4 × List (BitVec 8)))
  deriving DecidableEq, Repr

/-- What the memory access of an initiator asks for (R296). -/
inductive AccType where
  | r | w | x
  deriving DecidableEq, Repr

/-- The read-modify-write operations of a desk core's AMO instructions (R320: the A extension). -/
inductive AmoOp where
  | swap | add | xor | and | or | min | max | minu | maxu
  deriving DecidableEq, Repr

/-- What a desk core asks for beside a plain load, store or fetch (R320–R322): an AMO, LR or SC with its acquire and release bits,
or a FENCE with its predecessor and successor sets, bits w, r, o, i from bit 0. -/
inductive CoreOp where
  | plain
  | amo (op : AmoOp) (aq rl : Bool)
  | lr (aq rl : Bool)
  | sc (aq rl : Bool)
  | fence (pred succ : BitVec 4)
  deriving DecidableEq, Repr

/-- The form of an access: whether its address is an offset of BAR2 (R22), what a desk core asks for, the type. -/
structure AccForm where
  bar2 : Bool
  core : CoreOp
  typ  : AccType
  deriving DecidableEq, Repr

/-- What boot finds of a memory channel (R17, R429, R450): its capacity, the devices that stand on it, whether training from the
cached data passes its verification, whether cold training succeeds, and the results of that. -/
structure Channel where
  size    : BitVec 16                  -- installed MiB; 0: unpopulated
  ident   : BitVec 64
  warm    : Bool
  cold    : Bool
  results : BitVec 64
  deriving DecidableEq, Repr

/-- What boot reads of an image slot (R447, Table 16.8): whether magic and signature hold, the key that signed it (0–3 a field key,
0x80 the development key), its security version. -/
structure Image where
  signed : Bool
  key    : BitVec 8
  sv     : BitVec 16
  deriving DecidableEq, Repr

/-- What boot finds in the PRIME sequence (R447, R449, R450): the channels 0–5, the images, the
applied gate section, the started cores, and what the vault restore read. -/
structure Boot where
  channels : List Channel
  imageA   : Image
  imageB   : Image
  gates    : List (GateEntry × List (BitVec 32) × Bool)   -- entry, staged words (with the on bit last), lock
  cores    : List (BitVec 40 × BitVec 5 × Bool)           -- start address, partition, run flag
  ckptEcc  : List Ecc                  -- what the vault's ECC finds in slot A, slot B
  deriving DecidableEq, Repr

/-- The commands and events of the block: one constructor per row of the table. -/
inductive Instr where
  | partCreate (q : Req) | partGrant (q : Req) | partQuota (q : Req) | partStop (q : Req) | partDestroy (q : Req)
  | flowAdd (q : Req) | flowCfg (q : Req) | flowStop (q : Req) | flowDel (q : Req) | flowSend (q : Req)
  | flowEgress (q : Req) | streamOpen (q : Req) | streamParams (q : Req) | streamClose (q : Req)
  | decBind (q : Req) | decUnbind (q : Req) | decFlush (q : Req)
  | ippRun (q : Req) | ippFollow (q : Req) | ippUnfollow (q : Req)
  | encOpen (q : Req) | encPic (q : Req) | encRefresh (q : Req) | encClose (q : Req)
  | surfCreate (q : Req) | surfRelease (q : Req) | surfUpload (q : Req)
  | layerCreate (q : Req) | layerUpdate (q : Req) | layerDestroy (q : Req)
  | sealGroup (q : Req) | sealCmd (q : Req) | fenceSignal (q : Req) | fenceWait (q : Req)
  | fenceWaitPoll (part : Fin 16) (ring : Fin 8) (read : Option (BitVec 64))
  | headSet (q : Req) | headEnable (q : Req) | headWb (q : Req) | headLink (q : Req)
  | linkTrainingDone (head : Fin 16) (t : Training)
  | headAux (q : Req) | auxReply (head : Fin 16) (r : AuxReply)
  | tchCfg (q : Req) | tchMap (q : Req) | tchBaseline (q : Req) | tchRebase (q : Req) | tchRaw (q : Req)
  | tchSelftest (q : Req) | tchRing (q : Req)
  | dceComp (q : Req) | dceDecomp (q : Req) | dceStart (e : Fin 2) | dceItemComplete (e : Fin 2) (host : HostRead)
  | crcRun (q : Req) | crcJobEnd (u : Fin 8) (host : HostRead)
  | timeAdj (q : Req) | timeStep (q : Req) | timeRead (q : Req) | timePtpTx (q : Req)
  | chnTxStream (q : Req) | chnRxStream (q : Req) | chnTxSurf (q : Req) | chnRxSurf (q : Req)
  | chnSend (q : Req) | chnRxring (q : Req)
  | rdnCkpt (q : Req) | rdnShadow (q : Req) | rdnSwap (q : Req) | rdnTakeover (q : Req)
  | abort (q : Req)
  | tbSnapGo (a : Access) (v : BitVec 32) | tbAdjAdj (a : Access) (v : BitVec 32) | tbAdjStep (a : Access) (v : BitVec 32)
  | adjustmentEffect
  | vrdCommit (a : Access) (v : BitVec 32) | commitDecided
  | tgCtrlWrite (a : Access) (g : Fin 8) (v : BitVec 32) | tgRephase (a : Access) (g : Fin 8) (v : BitVec 32)
  | prtMgrWrite (a : Access) (v : BitVec 32)
  | prtSwStart (a : Access) (p : Fin 16) (v : BitVec 32) | prtSwStop (a : Access) (p : Fin 16) (v : BitVec 32)
  | gateHold (a : Access) (e : GateEntry) (v : BitVec 32) | gateApply (a : Access) (e : GateEntry) (v : BitVec 32)
  | gateLock (a : Access) (e : GateEntry) (v : BitVec 32)
  | gateStagingWrite (a : Access) (e : GateEntry) (i : Fin 3) (v : BitVec 32)
  | evcSetpend (a : Access) (v : BitVec 32) | evcClrpend (a : Access) (v : BitVec 32)
  | evcClaim (a : Access) (k : Fin 4) (v : BitVec 32) | evcEoi (a : Access) (k : Fin 4) (v : BitVec 32)
  | evcSourceInput (id : Fin 512) (level : Bool)
  | dskRunWrite (a : Access) (v : BitVec 32) | wfiSleep (k : Fin 4) | wakeLatch (k : Fin 4)
  | chnEnum (a : Access) (v : BitVec 32) | enumTimeout
  | chnTrain (a : Access) (p : Fin 2) (v : BitVec 32) | chnDown (a : Access) (p : Fin 2) (v : BitVec 32)
  | chnSlip (a : Access) (p : Fin 2) (v : BitVec 32)
  | wordLock (p : Fin 2) (lane : Fin 4) | laneDeskew (p : Fin 2) (sameSide : Bool) (skew : BitVec 4)
  | readyBitReceived (p : Fin 2) | lockLost (p : Fin 2) (lane : Fin 4)
  | chnVaultWrite (a : Access) (v : BitVec 32) | chnLogicalWrite (a : Access) (v : BitVec 32)
  | rdnCmdTakeover (a : Access) (v : BitVec 32) | rdnCmdShadow (a : Access) (v : BitVec 32)
  | rdnCmdKeep (a : Access) (v : BitVec 32) | rdnCmdCkpt (a : Access) (v : BitVec 32)
  | hwkClear (a : Access) (v : BitVec 32)
  | modeRequest (a : Access) (v : BitVec 32) | primeSequenceComplete (b : Boot)
  | aoHoldSet (a : Access) (v : BitVec 32) | aoTrainInvalidate (a : Access) (v : BitVec 32)
  | mgtSetPointer (ptr : BitVec 40) (pecOk : Bool) | mgtWriteWords (ws : List (BitVec 32)) (pecOk : Bool)
  | mgtReadWord | mgtModeRequest (code : BitVec 8) (pecOk : Bool) | mgtReadMode
  | mboxIn7Write (a : Access) (v : BitVec 32) | mboxOut7Write (a : Access) (v : BitVec 32)
  | dbgTokenSubmit (a : Access) (v : BitVec 32) (verifies : Bool) | dbgFuseSubmit (a : Access) (v : BitVec 32) (verifies : Bool)
  | qd15UseWrite (a : Access) (v : BitVec 32) | qdTestWrite (a : Access) (n : Fin 16) (v : BitVec 32)
  | laneSlip (a : Access) (n : Fin 16) (l : Fin 4) (v : BitVec 32)
  | injectSingle (a : Access) (n : Fin 16) (l : Fin 4) (v : BitVec 32)
  | injectBurst (a : Access) (n : Fin 16) (l : Fin 4) (v : BitVec 32)
  | registerWrite (a : Access) (addr : BitVec 40) (be : BitVec 4) (v : BitVec 32)
  | porstNLow | porstNRise (straps : BitVec 4) | corePgFall
  | wakeNEdge (ns : Nat) | genlockEdge (pin : Fin 2) | tsyncEdge (pin : Fin 2)
  | hpdTransition (head : Fin 16) (level : Bool) | hpdDisconnect (head : Fin 16) | irqHpd (head : Fin 16) (dpcd : BitVec 64)
  | hostLinkDown (p : Fin 4)
  | ethFrameRx (p : Fin 8) (frame : List (BitVec 8))
  | srTimeout (f : Fin 1024) | auRelease (f : Fin 1024) | egressPacket (e : Fin 8)
  | tileRecordApply (e : Ecc) | sweeperVisit (entry : Fin 262144) (e : Ecc)
  | decodeStart (core : Fin 16) (i : AuInfo) | decodeComplete (core : Fin 16) (r : PicResult) | pictureOutput (ctx : Fin 256)
  | ippStart (i : Fin 16) | ippComplete (i : Fin 16)
  | encPictureStart (sess : Fin 32) | encPictureComplete (sess : Fin 32) (sets : List (List (BitVec 8))) (heads : List (List Bool)) (rows : List CodedRow)
  | tgFrameBoundary (g : Fin 8) | commitPoint (head : Fin 16)
  | fenceReadReturn (head : Fin 16) (host : Bool) (addr : BitVec 64) (read : Option (BitVec 64)) | fenceDeadline (head : Fin 16)
  | sealInstantS (g : Fin 16) | sealInstantD (g : Fin 16) | sealInstantC (g : Fin 16)
  | bandEvaluation (head : Fin 16) (band : Fin 68) (bad : List Nat) (fixed : Nat) | bandLate (head : Fin 16) (band : Fin 68)
  | vrdWatchdog (head : Fin 16) | gateIsoLate (head : Fin 16) (band : Fin 68) (layer : Fin 256) (lo hi : Fin 64)
  | witnessBandCompare (head : Fin 16) (band : Fin 68) (unpainted : Nat)
  | bandCrcCompare (head : Fin 16) (band : Fin 68) (fault : BitVec 32)
  | wbReadback (head : Fin 16) (band : Fin 68) (fault : BitVec 32) | writebackComplete (head : Fin 16)
  | sinkCrcRead (head : Fin 16) (r : SinkRead)
  | mirrorWrite (p : Fin 16) | doorbellRead (p : Fin 16) (page : HostRead) (descs : List HostRead) (plogCons : HostRead)
  | descriptorAccept (p : Fin 16) (ring : Fin 8) (host : HostRead) | jobCompletion | backlogWrite (p : Fin 16)
  | enumRx (p : Fin 2) (m : Msg) | timeRx (p : Fin 2) (m : Msg) (ingress : BitVec 128) | timeSend | readyRx (p : Fin 2) (m : Msg)
  | commitRx (p : Fin 2) (m : Msg) | helloSend | helloRx (p : Fin 2) (m : Msg) | helloTimeout (addr : Fin 8)
  | yieldRx (p : Fin 2) (m : Msg) | ctrlRx (p : Fin 2) (m : Msg) | streamRx (p : Fin 2) (m : Msg)
  | surfaceRx (p : Fin 2) (m : Msg) | ckptRx (p : Fin 2) (m : Msg)
  | messageForward (p : Fin 2) (m : Msg) (residence : BitVec 64)
  | nakRx (p : Fin 2) (n : BitVec 32) | nakResend (p : Fin 2) | replayTimeout (p : Fin 2) | cutRx (p : Fin 2) (cls : Fin 4)
  | pdlyReqSend (p : Fin 2) | pdlyReqRx (p : Fin 2) (turnaround : BitVec 32) | pdlyRespRx (p : Fin 2) (turnaround : BitVec 32) (elapsed : BitVec 32)
  | checkpoint | shadowApply
  | ringTakeover (origin : Fin 8) (m : Msg) | ringShadow (origin : Fin 8) (m : Msg) | ringKeep (origin : Fin 8) (m : Msg)
  | swapPrep (origin : Fin 8) (m : Msg) | swapAck (origin : Fin 8) (m : Msg) | swapGo (origin : Fin 8) (m : Msg)
  | swapArmed (origin : Fin 8) (m : Msg) | swapCancel (origin : Fin 8) (m : Msg)
  | swapInstantD | swapInstantC | swapDue
  | touchSlot (p : Fin 2) (samples : List Int) | touchScanEnd (p : Fin 2) | touchSyncLost (p : Fin 2)
  | touchStuck (p : Fin 2) (contact : Fin 16) (node : Nat)
  | arbiterTick | powerDeferred (cls : Fin 6) | tokenRelease (item : Nat)
  | thermalSample (tj : BitVec 11) | thermalShutdown | pllIdleStop (p : Fin 16) | corePgRise | primeTimeout (limit : BitVec 8) | trstNLow
  | machineTimerExpiry (k : Fin 4) | tchPump (p : Fin 2)
  | hostLinkUp (p : Fin 4) (speed : BitVec 3) (width : BitVec 3)
  | ethLinkChange (p : Fin 8) (up : Bool) (fec : Bool)
  | flitCheckFail (p : Fin 2) (bad : BadFlit) | ackCreditRx (p : Fin 2) (ack : BitVec 32) (credits : BitVec 64) | ackDue (p : Fin 2)
  | uploadTileRowDone (job : Nat) (host : HostRead)
  | mgtUnsupportedTransaction
  | initiatorMemoryAccess (a : Access) (f : AccForm) (addr : BitVec 40) (len : Nat) (data : List (BitVec 8))
  | prbsCheckerLock (n : Fin 16) (l : Fin 4) | prbsLockLost (n : Fin 16) (l : Fin 4)
  | adaptationConverged (n : Fin 16) (l : Fin 4) (ctle : BitVec 4) (dfe : BitVec 64) | loopRecentre (n : Fin 16) (l : Fin 4)
  | vaultZeroed | fuseProgramDone (readback : BitVec 64)
  deriving DecidableEq, Repr

end Sys2Proof
end

