-- ==== Sys2Proof/Decode.lean ====
section
/-!
DEFINITION. The commands that a word spells. The table of operations and events gives no row any bits: its commands reach
the block as descriptors in rings, as register accesses and as events, so no word spells one.
-/

namespace Sys2Proof

/-- The command that `w`, of `nbits` bits, spells by the bits of the table: the table has none, so no word spells one. -/
def decodeTableWord (_nbits _w : Nat) : Option Instr := none

end Sys2Proof
end

