-- ==== Sys2Proof/Config.lean ====
section
/-!
DEFINITION. What the spec leaves to the implementation or does not state, as constants without a body: nothing can
evaluate them, so a claim holds whatever they are. A constant over a counter is applied to `State.free`.
-/

namespace Sys2Proof

/-- Whether an edge of the timebase rounds its increment up (R62 gives the fractional bits, not the rounding). -/
opaque Config.edgeRoundsUp : Nat → Bool

/-- How long, in ns, the accesses checked before a hold take to drain (R309, R310 place no limit). -/
opaque Config.drainNs : Nat → Nat

/-- The compressed form of an input at a level, raw DEFLATE (R403: the same bytes for one die revision), used where it is a stream
that R401 and R402 allow. -/
opaque Config.deflate : Nat → Bytes → Bytes

/-- Bytes of the boot ROM and of the xSPI flash (Table 1.4 gives the windows, not the contents). -/
opaque Config.romByte : Nat → BitVec 8
opaque Config.flashByte : Nat → BitVec 8

/-- The fresh nonce of a power-up or of a submitted fuse command (R448, R457). -/
opaque Config.freshNonce : Nat → BitVec 128

/-- Bytes that the spec leaves undefined: of a destination range after a failed DCE job (R411, R412, R413), of the motion storage of
a picture (R122). -/
opaque Config.voidByte : Nat → BitVec 8

/-- The stored bits of a ledger entry or vault byte read with an uncorrectable error (R47). -/
opaque Config.badBits : Nat → BitVec 32

/-- Whether a store-conditional whose reservation stands succeeds (R320: the RISC-V specification lets one fail at any time). -/
opaque Config.scSucceeds : Nat → Bool

/-- Whether a trap of a desk core out of user mode enters machine mode, rather than supervisor mode (R320). -/
opaque Config.trapToMachine : Nat → Bool

/-- The interrupts that mie of a desk core enables when it executes WFI: its own execution sets the register (R325). -/
opaque Config.mieBits : Nat → Nat

/-- A strap level that changes inside its window is captured as 0 or 1 (R501). -/
opaque Config.strapLevel : Nat → Bool

/-- The frequency trim that follows a reference's measured period (R83 bounds it and does not give the loop). -/
opaque Config.trimStep : Nat → Int

/-- The taps a protocol settles on for a lane (R468). -/
opaque Config.protocolTaps : Nat → BitVec 32

/-- The pixel of a badge glyph: character code, column 0–7, row 0–15 (R52 gives the cells, not the shapes). -/
opaque Config.glyph : Nat → Nat → Nat → Bool

/-- How a 10-bit component is stored with fewer bits in a writeback surface (R211 does not say): bits, value. -/
opaque Config.wbNarrow : Nat → Nat → Nat

/-- The sink test CRC of one component of a frame, which the DisplayPort standard defines (R235). -/
opaque Config.sinkCrc : List Nat → BitVec 16

/-- The code that a TAKEOVER record gives for its trigger (R389 gives no codes). -/
opaque Config.takeoverTrigger : Nat → Nat

/-- Parts of a value whose spec gives no result for the operands at hand. -/
opaque Config.unstated : Nat → Nat

/-- The mask on the bytes of a checkpoint section, and the version of a section: the spec lists what a section holds, not how it is laid
out (R382). FREE VALUES (log 42). -/
opaque Config.sectionMask : Nat → Nat → BitVec 8
opaque Config.sectionVersion : Nat → BitVec 16

/-- What the vault's ECC finds as SHADOW_APPLY reads a slot (R383, R400): 0 nothing, 1 an error that it corrects, else one that it cannot.
FREE VALUE (log 163). -/
opaque Config.vaultEcc : Nat → Nat

/-- Whether the PCIe link of a quad is in L1 at an instant of the island clock: its partner and the link's own rules bring it there. FREE
VALUE (log 62). -/
opaque Config.pcieL1 : Nat → Nat → Bool

/-- Bytes 0–27 of a link-control flit (R350) of a kind, with its numbers: the spec gives them no layout. FREE VALUE (log 21). -/
opaque Config.lctrlByte : Nat → Nat → Nat → BitVec 8

/-- Whether a CHN_SEND whose message was dropped, or will never be acknowledged, ends COMPLETE (else NO_LINK): R372 and Table 13.10
give it no status. FREE VALUE (log 161). -/
opaque Config.sendLostDone : Bool

end Sys2Proof
end

