-- ==== Sys2Proof/Machine/State.lean ====
section
/-!
DEFINITION. The state of the QV6416: plain data, every piece of it named by a rule of the spec. Registers stand in one
table by internal address (`regs`); what the spec gives more structure than a word (flows, contexts, surfaces, layers,
heads, partitions, ledger entries, jobs, the ring's ports) stands in tables of records. A table lists only the entries
that differ from the table's default, keys rising, so equal tables are equal data.
-/

namespace Sys2Proof.Machine

/-- A sparse table: keys strictly rising, no entry equal to the default of its key. -/
abbrev Tbl (α : Type) := List (Nat × α)

/-- Device modes (Table 16.5). -/
inductive Mode where
  | off | keep | prime | shadow | run | handover | yield | test
  deriving DecidableEq, Repr

/-- Soile statuses (Table 10.6, Table 18.4) are 16-bit values. -/
abbrev Status := BitVec 16

/-- The timebase (R61, R62): a count in units of 2⁻⁶⁴ ns, so 64 integer bits, the 16 fractional bits that registers
present and 48 more below them. -/
structure Timebase where
  val      : BitVec 128 := 0          -- 128; 03 R61; 0 (R63: from the holdover clock at core power-up)
  adj      : Option (BitVec 64 × BitVec 32 × BitVec 32) := none  -- 64+32+32; 03 R68; none: accepted adjustment waiting for its edge
  marginNs : BitVec 32 := 0           -- 32; 03 R69; 0: margin_ns of the adjustment in force
  growth   : BitVec 32 := 0           -- 32; 03 R69; 0: growth_ppb of the adjustment in force
  effAt    : BitVec 64 := 0           -- 64; 03 R69; 0: timebase at which it took effect
  due      : BitVec 64 := 0           -- 64; 03 R68: whole microsecond at which the waiting adjustment takes effect; 0
  measAt   : Option (BitVec 64) := none  -- 64; 03 R78; none: timebase of the last chain measurement (age_ms)
  deriving DecidableEq, Repr

/-- The holdover clock of the AO domain (R428): TAI in ticks of 1/32,768 s. -/
structure Holdover where
  sec   : BitVec 48 := 0              -- 48; 16 R428; 0
  ticks : BitVec 15 := 0              -- 15; 16 R428; 0
  sub   : Nat := 0                    -- part of a tick, in 1/1953125 of it times 64 ns (model: exact tick of R428); 0
  isSet : Bool := false               -- 1; 16 R428 (AO_HOLD_SUB.set); 0
  newLo : Option (BitVec 32) := none  -- 32; 16 R452: AO_HOLD_SEC as written and not yet taken; none
  newHi : Option (BitVec 16) := none  -- 16; 16 R452: AO_HOLD_SEC_HI as written and not yet taken; none
  deriving DecidableEq, Repr

/-- A timing group (R80–R86) beside its registers. -/
structure TGroup where
  running   : Bool := false           -- 1; 03 R84; 0: enabled
  khz       : Nat := 0                -- pixel clock of the last HEAD_SET naming it; 03 R80; 0: none
  hTotal    : Nat := 0                -- 03 R80; 0
  vTotal    : Nat := 0                -- 03 R80; 0
  vFront    : Nat := 0                -- vertical front porch; 03 R83; 0
  source    : Nat := 0                -- 2; 03 R82: TG_CTRL.source in force; 0
  offset    : Int := 0                -- 32 signed; 03 R82: TG_OFFSET in force; 0
  window    : Nat := 64               -- 11; 03 R82: TG_WIN in force; 64
  num       : Nat := 60000            -- 16; 03 R82: TG_RATE.num in force; 60000
  den       : Nat := 1000             -- 16; 03 R82: TG_RATE.den in force; 1000
  boundary  : Nat := 0                -- timebase ns of the last frame boundary; 03 R81; 0
  period    : Nat := 0                -- ns to the next boundary as steered; 03 R83; 0
  first     : Bool := true            -- no boundary yet since enabled; 03 R84; 1
  refAt     : Option Nat := none      -- last accepted reference point, ns; 03 R85; none
  cand      : Option (Nat × Nat) := none  -- candidate edge and confirmations of a restored reference; 03 R85; none
  missed    : Nat := 0                -- consecutive boundaries without an edge in the window; 03 R85; 0
  outside   : Nat := 0                -- consecutive frames with only edges outside the window; 03 R85; 0
  lost      : Bool := false           -- GENLOCK reference lost; 03 R85; 0
  edgeSeen  : Option Nat := none      -- edge seen since the last boundary; 03 R85; none
  edgeOut   : Bool := false           -- edge outside the window since the last boundary; 03 R85; 0
  periods   : List Nat := []          -- last reference periods (at most 8); 03 R85; []
  rephase   : Nat := 0                -- re-phase commands that wait for the boundary; 03 R86; 0
  dueAt     : Nat := 0                -- island clock ns from which the next boundary falls; 03 R80, R83, R84; 0
  deriving DecidableEq, Repr

/-- A stored RTP packet (R95, R96). -/
structure Pkt where
  seq    : BitVec 16
  ts     : BitVec 32
  marker : Bool
  ingress : Nat
  path   : Nat
  both   : Bool
  spans  : List (Nat × Nat)           -- where its payload lies in the packet area: addresses and lengths; 01 R13
  deriving DecidableEq, Repr

/-- Marker packets that were received and are not stored (R96): sequence number, RTP timestamp, ingress time. -/
abbrev MarkerSeen := List (BitVec 16 × BitVec 32 × Nat)

/-- What a stream still holds of a numbering that a jump or an SSRC change ended (R95, R105): when it ended, its packets,
its markers not stored, the last number released of it. -/
structure OldRun where
  endedAt : Nat
  pkts    : List Pkt
  ends    : MarkerSeen
  lastSeq : Option (BitVec 16)
  deriving DecidableEq, Repr

/-- A picture that a RAW context receives (R109, R110): its buffer, the spans of bytes each line holds, the lines with a
rejected row. -/
structure RawPic where
  ts    : BitVec 32
  buf   : Option Nat
  rows  : List (Nat × List (Nat × Nat)) := []
  bad   : List Nat := []
  deriving DecidableEq, Repr

/-- Flow states (R92). -/
inductive FlowState where
  | free | stopped | running
  deriving DecidableEq, Repr

/-- One flow of the flow table (R92–R105, Table 4.7, Table 4.11). -/
structure Flow where
  state    : FlowState := .free       -- 2; 04 R94; FREE
  portMask : BitVec 8 := 0            -- 8; 04 R93; 0
  keys     : BitVec 5 := 0            -- 5; 04 R93: IPv6, VLAN, source, SSRC keys, rtcp_mux; 0
  vlan     : BitVec 12 := 0           -- 12; 04 R93; 0
  dport    : BitVec 16 := 0           -- 16; 04 R93; 0
  daddr    : BitVec 128 := 0          -- 128; 04 R93; 0
  saddr    : BitVec 128 := 0          -- 128; 04 R93; 0
  ssrc     : BitVec 32 := 0           -- 32; 04 R93; 0
  rtcp     : BitVec 16 := 0           -- 16; 04 R93; 0
  payload  : Nat := 0                 -- 8; 04 Table 4.7; 0
  mode     : Nat := 0                 -- 2; 04 R101; 0
  rate     : Nat := 0                 -- 32; 04 Table 4.7; 0
  base     : Nat := 0                 -- 40; 04 Table 4.7; 0
  psize    : Nat := 0                 -- 32; 04 Table 4.7; 0
  hold     : Nat := 0                 -- 20; 04 R96; 0
  reorder  : Nat := 0                 -- 10; 04 R95; 0
  transit  : Nat := 0                 -- 16; 04 R104; 0
  srLimit  : Nat := 0                 -- 16; 04 R102; 0
  srTai    : Bool := false            -- 1; 04 R102; 0
  pt       : Nat := 128               -- 8; 04 Table 4.7; 0x80
  partner  : Option Nat := none       -- 10; 04 R100; none (0x3FF)
  ctx      : Option Nat := none       -- 8; 04 R107; none
  ausize   : Nat := 0                 -- 32; 04 Table 4.7; 0
  synced   : Bool := false            -- 1; 04 R95; 0
  h        : BitVec 16 := 0           -- 16; 04 R95; 0
  disc     : Bool := false            -- 1; 04 R95: next access unit carries DISCONTINUITY; 0
  seqJump  : Bool := false            -- 1; 04 R95; 0
  probe    : Option (BitVec 16) := none  -- 16; 04 R95; none
  curSsrc  : Option (BitVec 32) := none  -- 32; 04 R105; none
  pkts     : List Pkt := []           -- jitter buffer content; 04 R95; []
  ends     : MarkerSeen := []         -- markers received and not stored; 04 R96; []
  old      : List OldRun := []        -- numberings that a jump or an SSRC change ended, oldest first; 04 R95, R105; []
  lastSeq  : Option (BitVec 16) := none  -- last sequence number released; 04 R96; none
  lastTs   : Option (BitVec 32) := none  -- RTP timestamp of the last access unit released; 04 R96; none
  mapValid : Bool := false            -- 1; 04 R102; 0
  srNs     : Int := 0                 -- 64 signed; 04 R102; 0
  srRtp    : BitVec 32 := 0           -- 32; 04 R102; 0
  srAt     : Nat := 0                 -- arrival of the last sender report, ns; 04 R102; 0
  implRun  : Nat := 0                 -- consecutive implausible access units; 04 R102; 0
  nPkts    : BitVec 32 := 0           -- 32; 04 R115 FLW_SEL_PKTS; 0
  nLost    : BitVec 32 := 0           -- 32; 04 R115; 0
  nLate    : BitVec 32 := 0           -- 32; 04 R115; 0
  nDup     : BitVec 32 := 0           -- 32; 04 R115; 0
  nDrop    : BitVec 32 := 0           -- 32; 04 R115; 0
  nUnsup   : BitVec 32 := 0           -- 32; 04 R115; 0
  nAus     : BitVec 32 := 0           -- 32; 04 R115; 0
  nAuLoss  : BitVec 32 := 0           -- 32; 04 R115; 0
  nAuDrop  : BitVec 32 := 0           -- 32; 04 R115; 0
  nRecov   : BitVec 32 := 0           -- 32; 04 R115; 0
  nImpl    : BitVec 16 := 0           -- 16; 04 R115 FLW_SEL_MAP.implausible; 0
  deriving DecidableEq, Repr

/-- An access-unit record (Table 4.6). -/
structure AuRec where
  capture : Nat
  arrival : Nat
  addr    : Nat
  flags   : BitVec 16
  length  : Nat
  rtpTs   : BitVec 32
  deriving DecidableEq, Repr

/-- Stream context states (Table 5.4). -/
inductive CtxState where
  | closed | opened | seeking | decoding | halted | draining
  deriving DecidableEq, Repr

/-- A picture of a context's decoded picture buffer (R124–R129). -/
structure DPic where
  buf     : Nat
  epoch   : Nat
  poc     : Int
  decSeq  : BitVec 32
  au      : AuRec
  isRef   : Bool
  waiting : Bool
  width   : Nat
  height  : Nat
  depth   : Nat
  crop    : Nat × Nat × Nat × Nat
  cells   : List (Nat × Nat)
  tiles   : List Nat
  conceal : Bool
  subst   : Bool
  late    : Nat := 0                  -- pictures since that follow it in output order
  ghost   : Option Nat := none        -- FrameNum of a non-existing frame of an allowed gap: no picture, no buffer
  deriving DecidableEq, Repr

/-- A picture in decode (R119, R139, R140). -/
structure InDecode where
  cores  : List Nat
  au     : AuRec
  info   : AuInfo
  buf    : Nat
  works  : List Nat                   -- the cores that decode it: all, or the lead core alone
  seq    : SeqInfo
  dpb    : List DPic                  -- the decoded picture buffer as it began
  gap    : List Nat                   -- the FrameNums missing before it in a gap that is not allowed
  deriving DecidableEq, Repr

/-- A stream context and its decode binding (R106–R110, R118–R141, Table 4.11, Table 5.11). -/
structure Ctx where
  state    : CtxState := .closed      -- 3; 05 R126; CLOSED
  codec    : Nat := 0                 -- 2; 04 R107; 0
  rawW     : Nat := 0                 -- 16; 04 R109; 0
  rawH     : Nat := 0                 -- 16; 04 R109; 0
  rawFmt   : Nat := 0                 -- 8; 04 R109; 0
  rawN     : Nat := 0                 -- 4; 04 R109; 0
  rawBase  : Nat := 0                 -- 40; 04 R109; 0
  rawNext  : Nat := 0                 -- ring position where the next picture looks for a buffer; 04 R109; 0
  rawPics  : List RawPic := []        -- pictures being received; 04 R109, R110; []
  rawBusy  : List Nat := []           -- RAW buffers that IPP jobs still read; 04 R110; []
  queue    : List AuRec := []         -- at most 16 records; 04 R106; []
  params   : Bytes := []              -- parameter sets of STREAM_PARAMS; 04 R108; []
  paramNew : Bool := false            -- 1; 04 R108; 0
  disc     : Bool := false            -- 1; 04 R98: next access unit carries DISCONTINUITY; 0
  queuedAt : Nat := 0                 -- timebase ns at which the last record was queued; 06 R147; 0
  nAus     : BitVec 32 := 0           -- 32; 04 R115 STR_SEL_AUS; 0
  nOvf     : BitVec 32 := 0           -- 32; 04 R115; 0
  lastCap  : BitVec 64 := 0           -- 64; 04 R115 STR_SEL_CAP; 0
  rx       : Option (Nat × Nat × Nat × Nat) := none  -- receive binding: origin logical ID, slot, area base, size; 13 R365; none
  rxPart   : Nat := 0                 -- partition of the receive binding; 13 R372; 0
  rxDisc   : Bool := false            -- 1; 13 R365; 0
  rxBuf    : Option (Nat × Bytes) := none  -- item being received: total length, bytes so far; 13 R365; none
  div      : Nat := 0                 -- 2; 05 R120; 0
  cores    : BitVec 16 := 0           -- 16; 05 R118; 0
  charge   : Nat := 0                 -- 29; 05 R118; 0: per core
  rateR    : Nat := 0                 -- 32; 05 R118; 0
  poolN    : Nat := 0                 -- 5; 05 R121; 0
  poolBase : Nat := 0                 -- 12; 05 R121; 0
  seiOn    : Bool := false            -- 1; 05 R139; 0
  fenceOn  : Bool := false            -- 1; 05 R125; 0
  fenceHost : Bool := false           -- 1; 05 R125; 0
  sideBase : Nat := 0                 -- 40; 05 R122; 0
  outBase  : Nat := 0                 -- 40; 05 R125; 0
  expId    : BitVec 32 := 0           -- 32; 05 R139; 0
  fenceAt  : BitVec 64 := 0           -- 64; 05 R125; 0
  outSeq   : BitVec 32 := 0           -- 32; 05 R125; 0
  decSeq   : BitVec 32 := 0           -- 32; 05 Table 5.3; 0
  halt     : Nat := 0                 -- 4; 05 R144; 0
  needed   : Nat := 0                 -- 5; 05 R144; 0
  dpb      : List DPic := []          -- decoded picture buffer; 05 R125; []
  lastOut  : Option Nat := none       -- buffer of the most recently output picture; 05 R124; none
  dec      : Option InDecode := none  -- picture in decode; 05 R119; none
  epoch    : Nat := 0                 -- coded video sequences begun; 05 R125: orders output across them; 0
  waited   : Bool := false            -- 1; 05 R124: this picture's wait was counted; 0
  sets     : List ParamSet := []      -- parameter sets held; 05 R126; []
  active   : Option SeqInfo := none   -- the active sequence parameter set; 05 R123; none
  started  : Bool := false            -- 1; 05 R135: a picture began since the context was bound or flushed; 0
  noRasl   : Bool := false            -- 1; 05 R135: RASL pictures of the last IRAP picture are discarded; 0
  prevFn   : Option Nat := none       -- H.264: PrevRefFrameNum; 05 R134; none: no picture yet
  leaving  : List Nat := []           -- buffers of pictures that the bumping process has put out, in order; 05 R125; []
  flush    : List Nat := []           -- DEC_FLUSH jobs waiting for the picture in decode; 05 R127; []
  flushing : Bool := false            -- a flush waits for the picture in decode; 05 R127; 0
  unbind   : List Nat := []           -- DEC_UNBIND jobs waiting, then what came while DRAINING; 05 R127, R143; []
  chosen   : Option Nat := none       -- its head access unit was chosen, with the order of the choice, and waits for its cores and the arbiter; 05 R119; none
  outAt    : Nat := 0                 -- timebase ns at which the last picture record was written; 06 R147; 0
  nDecoded : BitVec 32 := 0           -- 32; 05 R144; 0
  nConceal : BitVec 32 := 0           -- 32; 05 R144; 0
  nRefMiss : BitVec 32 := 0           -- 32; 05 R144; 0
  nBsErr   : BitVec 32 := 0           -- 32; 05 R144; 0
  nPicLost : BitVec 32 := 0           -- 32; 05 R144; 0
  nSkipped : BitVec 32 := 0           -- 32; 05 R144; 0
  nTainted : BitVec 32 := 0           -- 32; 05 R144; 0
  nWait    : BitVec 32 := 0           -- 32; 05 R144; 0
  nSeiOk   : BitVec 32 := 0           -- 32; 05 R144; 0
  nForeign : BitVec 16 := 0           -- 16; 05 R144; 0
  nBad     : BitVec 16 := 0           -- 16; 05 R144; 0
  lastPoc  : BitVec 32 := 0           -- 32; 05 R144; 0
  lastTiles : Nat := 0                -- 15; 05 R144; 0
  deriving DecidableEq, Repr

/-- The source rectangle, filter and fence of IPP work (Table 6.3). -/
structure IppParams where
  inst     : Nat
  pair     : Bool
  nearest  : Bool
  rot      : Nat
  crop     : Nat × Nat × Nat × Nat
  fenceOn  : Bool
  fenceHost : Bool
  fenceAt  : BitVec 64
  fenceVal : BitVec 64
  deriving DecidableEq, Repr

/-- A follow slot (R146, R159, R160, Table 6.11). -/
structure Follow where
  bound   : Bool := false             -- 1; 06 R146; 0
  prm     : IppParams := ⟨0, false, false, 0, (0, 0, 0, 0), false, false, 0, 0⟩  -- as IPP_FOLLOW; 06 R161; 0
  ctx     : Nat := 0                  -- 8; 06 R159; 0
  m       : Nat := 0                  -- 3; 06 R159; 0
  first   : Nat := 0                  -- 12; 06 R159; 0
  charge  : Nat := 0                  -- 31; 06 R146; 0: per instance
  rate    : Nat := 0                  -- 32; 06 R146; 0: declared rate
  count   : BitVec 32 := 0            -- 32; 06 R159; 0: output count c
  seen    : BitVec 32 := 0            -- out_seq of the last picture processed or passed; 06 R159; 0
  newest  : Option Nat := none        -- surface of the newest complete output; 07 R192; none
  closing : List Nat := []            -- IPP_UNFOLLOW jobs waiting for the picture in progress; 06 R160; []
  nPassed : BitVec 32 := 0            -- 32; 06 R181; 0
  nBusy   : BitVec 32 := 0            -- 32; 06 R181; 0
  nTaint  : BitVec 32 := 0            -- 32; 06 R181; 0
  last    : Nat := 0                  -- 15; 06 R181; 0
  deriving DecidableEq, Repr

/-- Where IPP work reads from (R155). -/
inductive IppSource where
  | picture (record : Bytes)
  | surface (n : Nat)
  | raw (ctx : Nat) (au : AuRec)
  deriving DecidableEq, Repr

/-- The picture an IPP instance works on (R145, R156). -/
structure IppWork where
  prm    : IppParams
  src    : IppSource
  follow : Option Nat
  job    : Option Nat
  target : Nat
  seq    : BitVec 32
  begun  : Bool                       -- begun; else chosen, waiting for its pair and the arbiter (R147)
  deriving DecidableEq, Repr

/-- The picture an encode session codes (R165, R169, R177): the ENC_PIC job or none for a followed frame, the source
surface, whether it is IDR, capture_ns and the rows not fresh. -/
structure EncWork where
  job     : Option Nat
  surface : Nat
  idr     : Bool
  capture : Nat
  stale   : List Nat
  k       : Nat := 0                  -- its index in the refresh sweep
  gv      : Option (Int × Int) := none -- the global vector that ENC_PIC supplies, in full samples
  deriving DecidableEq, Repr

/-- An encode session (R164–R177, Tables 6.9 and 6.12). -/
structure Enc where
  opened  : Bool := false             -- 1; 06 R164; 0
  h265    : Bool := false             -- 1; 06 R163; 0
  follow  : Bool := false             -- 1; 06 R165; 0
  rowSweep : Bool := false            -- 1; 06 R169; 0
  gvHost  : Bool := false             -- 1; 06 R167; 0
  cores   : BitVec 8 := 0             -- 8; 06 R164; 0
  w       : Nat := 0                  -- 16; 06 R163; 0
  h       : Nat := 0                  -- 16; 06 R163; 0
  num     : Nat := 1                  -- 16; 06 R164; 1
  den     : Nat := 1                  -- 16; 06 R164; 1
  rc      : Nat := 0                  -- 2; 06 R172; 0
  qpMin   : Nat := 0                  -- 6; 06 R172; 0
  qpMax   : Nat := 0                  -- 6; 06 R172; 0
  qpInit  : Nat := 0                  -- 6; 06 R172; 0
  rate    : Nat := 0                  -- 20 kbit/s; 06 R172; 0
  peak    : Nat := 0                  -- 32 kbit/s; 06 R172; 0
  bufMs   : Nat := 0                  -- 11; 06 R172; 0
  refresh : Nat := 2                  -- 8; 06 R169; 2
  slice   : Nat := 0                  -- 8; 06 R164; 0
  head    : Nat := 0                  -- 4; 06 R165; 0
  div     : Nat := 1                  -- 4; 06 R165; 1
  slots   : Nat := 2                  -- 7; 06 R166; 2
  base    : Nat := 0                  -- 40; 06 R166; 0
  slotSize : Nat := 0                 -- 25; 06 R166; 0
  ident   : BitVec 32 := 0            -- 32; 06 R176; 0
  charge  : Nat := 0                  -- 29; 06 R164; 0: per core
  picSeq  : BitVec 32 := 0            -- 32; 06 R166; 0
  poc     : Int := 0                  -- 32 signed; 06 Table 6.6; 0
  idrNext : Bool := true              -- 1; 06 R169; 1: the next picture is IDR
  sweepK  : Nat := 0                  -- 8; 06 R169: index of the last picture in its sweep; 0
  restart : Bool := false             -- 1; 06 R169: restart the sweep at the next picture; 0
  carry   : List Nat := []            -- intra CTUs carried to the next picture; 06 R170; []
  mvs     : List (Option (Int × Int)) := []  -- final vectors of the last picture's 16×16 blocks, quarter samples; 06 R167; []
  whole   : List Bool := []           -- H.265: which of its 32×32 units are one prediction unit; 06 R168; []
  recon   : List Bytes := []          -- luma lines of the last picture as reconstructed, the reference of the next; 06 R163; []
  full    : Nat := 0                  -- 32; 06 R172; 0
  err     : Int := 0                  -- 64 signed; 06 R172; 0
  qpPic   : Nat := 0                  -- 6; 06 R172; 0
  qpAvg   : Nat := 0                  -- 6; 06 R182; 0
  weights : List Nat := []            -- bits per row of the previous picture; 06 R173; []
  due     : Option (Nat × List Nat × Bool × Option (BitVec 32) × Nat) := none  -- newest due frame: writeback buffer (0: A, 1: B), rows not fresh, live-class tiles?, oldest LIVE content time, boundary ns; 06 R165, R177; none
  dueAge  : Nat := 0                  -- frames since the last due one; 06 R165; 0
  work    : Option EncWork := none    -- picture in progress; 06 R165; none
  closing : List Nat := []            -- ENC_CLOSE jobs waiting; 06 R178; []
  nBudget : BitVec 32 := 0            -- 32; 06 R182; 0
  nSkip   : BitVec 32 := 0            -- 32; 06 R182; 0
  nDropped : BitVec 32 := 0           -- 32; 06 R182; 0
  nPassed : BitVec 32 := 0            -- 32; 06 R182; 0
  deriving DecidableEq, Repr

/-- An ST 2110-20 egress slot (R111). -/
structure Egress where
  enabled : Bool := false             -- 1; 04 R111; 0
  port    : Nat := 0                  -- 3; 04 R111; 0
  head    : Nat := 0                  -- 4; 04 R111; 0
  cfg     : BitVec 384 := 0           -- descriptor body; 04 Table 4.7; 0
  frame   : Option (Nat × Nat) := none  -- writeback buffer being sent and the boundary that began it; 04 R111; none
  line    : Nat := 0                  -- next line to send; 04 R111; 0
  off     : Nat := 0                  -- byte offset in the line; 04 R111; 0
  seq     : BitVec 32 := 0            -- extended sequence number; 04 R111; 0
  deriving DecidableEq, Repr

/-- A surface descriptor and its ledger registration (R30–R33, R38, R183, R184). -/
structure Surface where
  created : Bool := false             -- 1; 07 R183; 0
  base    : Nat := 0                  -- 40; 07 R183; 0
  pitch   : Nat := 0                  -- 32; 07 R183; 0
  w       : Nat := 0                  -- 16; 07 R183; 0
  h       : Nat := 0                  -- 16; 07 R183; 0
  fmt     : Nat := 0                  -- 4; 07 R183; 0
  bt2020  : Bool := false             -- 1; 07 R183; 0
  full    : Bool := false             -- 1; 07 R183; 0
  reg     : Bool := false             -- 1; 02 R30: registered with the ledger; 0
  frzFrames : Nat := 0                -- 16; 02 R30; 0
  frzPct  : Nat := 0                  -- 7; 02 R30; 0
  watchMs : Nat := 0                  -- 16; 02 R30; 0
  watch   : List Nat := []            -- watch tiles in use; 02 R30; []
  lbase   : Nat := 0                  -- 18; 02 R31: ledger_base; 0
  curSeq  : BitVec 32 := 0            -- 32; 02 R35; 0
  frozen  : Nat := 0                  -- 16; 02 R38: frozen_tiles; 0
  frozenA : Bool := false             -- 1; 02 R38: mode A flag; 0
  uploads : BitVec 32 := 0            -- 32; 07 R184: upload count; 0
  written : Bool := true              -- 1; 14 R384: written since restore; 1
  deriving DecidableEq, Repr

/-- A ledger entry (Table 2.3). -/
structure LEntry where
  content : BitVec 32 := 0            -- 32; 02 R34; 0
  change  : BitVec 32 := 0            -- 32; 02 R34; 0
  crc     : BitVec 32 := 0            -- 32; 02 R34; 0
  seq     : BitVec 32 := 0            -- 32; 02 R34; 0
  run     : Nat := 0                  -- 16; 02 R34: freeze_run; 0
  basis   : BitVec 2 := 0             -- 2; 02 R34; 0
  taint   : Bool := false             -- 1; 02 R34; 0
  never   : Bool := false             -- 1; 02 R34: never_filled; 0 outside every run, 1 at registration
  expLong : Bool := false             -- 1; 02 R34: expired_long; 0
  watch   : Bool := false             -- 1; 02 R34; 0
  watchExp : Bool := false            -- 1; 02 R34: watch_expired; 0
  surface : BitVec 12 := 0            -- 12; 02 R34; 0
  tile    : BitVec 16 := 0            -- 16; 02 R34; 0
  updates : BitVec 16 := 0            -- 16; 02 R34; 0
  deriving DecidableEq, Repr

/-- Where a layer takes its buffer from (R192). -/
inductive LSource where
  | surface (n : Option Nat)
  | followIpp (slot : Nat)
  | followDec (ctx : Nat)
  deriving DecidableEq, Repr

/-- The field groups of a layer (Table 7.3). -/
structure LState where
  cropX   : Nat := 0
  cropY   : Nat := 0
  cropW   : Nat := 0
  cropH   : Nat := 0
  dstX    : Int := 0
  dstY    : Int := 0
  visible : Bool := false
  alpha   : Nat := 0
  blend   : Nat := 0
  live    : Bool := false
  profile : Nat := 0
  source  : LSource := .surface none
  z       : Nat := 0
  deriving DecidableEq, Repr

/-- A pending update of a layer (R199–R203, R205): groups, the values they take, the fence, whether its buffer counts
as current, the job that asked, the boundaries missed. -/
structure Pending where
  groups  : BitVec 5
  vals    : LState
  fence   : Option (Bool × BitVec 64 × BitVec 64)
  counts  : Bool
  job     : Nat
  missed  : Nat
  armed   : Bool
  sealN   : Option (BitVec 32)
  deriving DecidableEq, Repr

/-- A layer descriptor (R190–R193, Table 7.11). -/
structure Layer where
  created : Bool := false             -- 1; 07 R190; 0
  head    : Nat := 0                  -- 4; 07 R190; 0
  cursor  : Bool := false             -- 1; 07 R190; 0
  cur     : LState := {}              -- field groups in force; 07 R191; 0
  buf     : Option Nat := none        -- 12; 07 R192: current buffer; none (0xFFF)
  armedBuf : Option Nat := none       -- follow flip armed for the boundary; 07 R199; none
  missNext : Bool := false            -- a follow flip was held off by a writer; 02 R37; 0
  pend    : List Pending := []        -- pending updates: at most one FENCE-mode update or one per skim set, and one after an armed one; 07 R199, R202, R205; []
  destroy : List Nat := []            -- LAYER_DESTROY jobs; 07 R203; []
  destroyArmed : Bool := false        -- 1; 07 R203; 0
  missed  : BitVec 32 := 0            -- 32; 07 R216 CMP_LSEL_MISSED; 0
  commits : BitVec 32 := 0            -- 32; 07 R216 CMP_LSEL_COMMITS; 0
  deriving DecidableEq, Repr

/-- The verdict codes (Table 2.4). -/
inductive Verdict where
  | live | aged | stale | tainted | frozen | never
  deriving DecidableEq, Repr

/-- One tile evaluation of a band (R42, R44): layer, tile, verdict, age (absent where the badge reads ???). -/
structure Eval where
  layer   : Nat
  tile    : Nat
  verdict : Verdict
  age     : Option Int
  raw     : Int
  content : BitVec 32
  deriving DecidableEq, Repr

/-- The evaluations of one band of a head (R43, R44). -/
structure BandEval where
  band  : Nat
  frame : BitVec 64
  evals : List Eval
  done  : Bool := true                -- the evaluation is complete; false from T_b on where it is late (R46)
  deriving DecidableEq, Repr

/-- Transmitter states (Table 8.4). -/
inductive TxState where
  | dark | training | linkIdle | video
  deriving DecidableEq, Repr

/-- A band whose evaluation an earlier frame still owes (R46): its number and frame, its T_b, the tiles to evaluate and the ledger
entries to read for them, each as surface and tile. -/
structure Owed where
  band  : Nat
  frame : BitVec 64
  due   : Nat
  tiles : List (Nat × Nat)
  reads : List (Nat × Nat)
  deriving DecidableEq, Repr

/-- A head slot with its transmitter (R186–R189, R211–R241). -/
structure Head where
  isSet   : Bool := false             -- HEAD_SET done; 07 R187; 0
  enabled : Bool := false             -- 1; 07 R188; 0
  start   : List Nat := []            -- HEAD_ENABLE jobs that start it at the boundary; 07 R188; []
  stop    : List Nat := []            -- HEAD_ENABLE jobs that stop it; 07 R188; []
  gang    : Bool := false             -- 1; 07 R186: slot leads a gang; 0
  tg      : Nat := 0                  -- 3; 07 R187; 0
  hpol    : Bool := false             -- 1; 07 R187; 0
  vpol    : Bool := false             -- 1; 07 R187; 0
  khz     : Nat := 0                  -- 21; 07 R187; 0
  hAct    : Nat := 0                  -- 14; 07 R187; 0
  hFront  : Nat := 0                  -- 10; 07 R187; 0
  hSync   : Nat := 0                  -- 10; 07 R187; 0
  hBack   : Nat := 0                  -- 16; 07 R187; 0
  vAct    : Nat := 0                  -- 13; 07 R187; 0
  vFront  : Nat := 0                  -- 8; 07 R187; 0
  vSync   : Nat := 0                  -- 5; 07 R187; 0
  vBack   : Nat := 0                  -- 9; 07 R187; 0
  lining  : BitVec 30 := 0            -- 30; 07 R189; 0
  liningSurf : Option Nat := none     -- 12; 07 R189; none
  pulse   : Nat := 0                  -- 2; 07 R198; 0
  px      : Nat := 0                  -- 13; 07 R198; 0
  py      : Nat := 0                  -- 13; 07 R198; 0
  frame   : BitVec 64 := 0            -- 64; 07 R188 HDn_FRAME; 0
  boundary : Nat := 0                 -- timebase ns of the head's last frame boundary; 02 R43; 0
  flipSets : List (Bool × BitVec 64 × BitVec 64) := []  -- fence reads outstanding at the commit point; 07 R200; []
  oldProf : Tbl (List Word) := []     -- profiles whose earlier values still hold until its boundary; 02 R55, R56; none
  newest  : List (LSource × Nat) := []  -- newest outputs of follow sources that were complete before the commit point; 07 R192, R199; []
  judged  : Bool := false             -- past its commit point, before the boundary; 07 R199; 0
  wbOn    : Bool := false             -- 1; 07 R211; 0
  wbFmt   : Nat := 0                  -- 4; 07 R211; 0
  wb2020  : Bool := false             -- 1; 07 R211; 0
  wbFull  : Bool := false             -- 1; 07 R211; 0
  wbA     : Nat := 0                  -- 12; 07 R211; 0
  wbB     : Nat := 0                  -- 12; 07 R211; 0
  wbRec   : Nat := 0                  -- 40; 07 R211; 0
  wbLast  : Bool := false             -- 1; 07 R217: buffer of the latest complete frame; 0
  wbDone  : Bool := false             -- 1; 07 R212: some frame is complete; 0
  wbHeldA : Bool := false             -- 1; 07 R212; 0
  wbHeldB : Bool := false             -- 1; 07 R212; 0
  wbCur   : Option (Bool × BitVec 64 × Nat) := none  -- frame being written back: buffer B?, frame, boundary ns; 07 R212; none
  wbDue   : Option (Bool × BitVec 64 × Nat) := none  -- frame ended, completion due within 2 lines; 07 R212; none
  evals   : List BandEval := []       -- evaluations of the frame being scanned; 02 R44; []
  prev    : List BandEval := []       -- evaluations of the last frame that ended; 10 Table 10.11; []
  owed    : List Owed := []           -- bands of earlier frames whose evaluation is not complete; 02 R46; []
  hot     : List BandEval := []       -- latest evaluation of each band, for the hit-test; 09 R259; []
  held    : List (Nat × Nat) := []    -- (layer, band) whose scanout was held or refused in this frame; 11 R312; []
  black   : List (Nat × Nat × Nat × Nat) := []  -- (layer, active line, first column, end) that refused or late bursts would have supplied; 11 R312; []
  witBad  : Bool := false             -- a witness difference in the frame being scanned; 08 R234; 0
  witRan  : Bool := false             -- a witness compare in the frame being scanned; 08 R240; 0
  tx      : TxState := .dark          -- 2; 08 R223; DARK
  trained : Bool := false             -- 1; 08 R224; 0
  rate    : Nat := 0                  -- 3; 08 R219; 0
  lanes   : Nat := 0                  -- 3; 08 R220; 0
  src     : Nat := 0                  -- 2; 08 R220; 0
  bpc10   : Bool := false             -- 1; 08 R222; 0
  limited : Bool := false             -- 1; 08 R222; 0
  sinkCrc : Bool := false             -- 1; 08 R235; 0
  wbVerify : Bool := false            -- 1; 08 R237; 0
  linkJob : Option Nat := none        -- HEAD_LINK in training; 08 R226; none
  relink  : Bool := false             -- restored link to train when HEAD_LINK is permitted; 14 R384; 0
  auxJobs : List Nat := []            -- HEAD_AUX jobs in order; 08 R230; []
  hpd     : Bool := false             -- 1; 08 R228; 0 (DESIGN CHOICE: pin low)
  sinkOn  : Bool := false             -- 1; 08 R235: TEST_SINK_START written; 0
  lttpr   : Nat := 0                  -- 3; 08 R241; 0
  crcs    : List (BitVec 16 × BitVec 16 × BitVec 16) := []  -- sink test CRCs of the last four frames sent; 08 R235; []
  sinkRec : Bool := false             -- SINK_CRC_PERSIST recorded in the run of mismatches; 08 R236; 0
  sinkCnt : Option (BitVec 4) := none -- TEST_CRC_COUNT at the last completed read; 08 R236; none
  deriving DecidableEq, Repr

/-- A unit's side of a seal group (R204–R210). -/
structure SealGrp where
  reports : List (Nat × BitVec 32 × BitVec 3) := []  -- READY of members for the boundary coming: member, k, cause; 07 R207; []
  commitM : Option (BitVec 32) := none  -- COMMIT received for the boundary coming; 07 R207; none
  armedM  : Option (BitVec 32) := none  -- sets armed up to this seal; 07 R207; none
  seals   : List (BitVec 32 × Nat) := []  -- SEAL jobs waiting: number, job; 07 R208; []
  reached : List (Bool × BitVec 64 × BitVec 64) := []  -- fences of the skim sets found reached; 07 R206; []
  pastC   : Bool := false             -- past instant C of the boundary coming; 07 R210; 0
  pastD   : Bool := false             -- past instant D; 07 R207; 0
  holds   : Bool := false             -- no COMMIT had come by instant C; 07 R209; 0
  heldAt  : Bool := false             -- the boundary that passed last was counted as held; 07 R209, R210; 0
  lateM   : Option (BitVec 32) := none  -- COMMIT received after C, armed for the next boundary; 07 R210; none
  deriving DecidableEq, Repr

/-- A contact of a touch port (R256). -/
structure Contact where
  id     : Nat
  peak   : Nat × Nat
  px     : Int
  py     : Int
  down   : Int × Int
  nearAt : Nat
  glove  : Bool
  area   : Nat
  part   : Nat
  layer  : Nat
  liveL  : Nat
  verdict : Nat
  age    : Nat
  x      : Int
  y      : Int
  miss   : Nat
  stuck  : Bool
  still  : Bool
  deriving DecidableEq, Repr

/-- A candidate contact (R256). -/
structure Cand where
  peak   : Nat × Nat
  seen   : Nat
  part   : Nat
  layer  : Nat
  liveL  : Nat
  verdict : Nat
  age    : Nat
  deriving DecidableEq, Repr

/-- The geometry and thresholds of TCH_CFG (Table 9.9). -/
structure TchCfg where
  enable  : Bool := false
  acq     : Nat := 0
  glove   : Bool := false
  drives  : Nat := 0
  senses  : Nat := 0
  syncHead : Nat := 0
  drive   : Nat := 0
  gain    : Nat := 0
  trackDiv : Nat := 16
  delay   : Nat := 0
  window  : Nat := 0
  touchThr : Nat := 400
  gloveThr : Nat := 120
  relThr  : Nat := 80
  preThr  : Nat := 200
  wetNodes : Nat := 12
  wetRatio : Nat := 24
  bridge  : Nat := 6
  maxMove : Nat := 3
  stuckS  : Nat := 600
  bandLo  : Int := 0
  bandHi  : Int := 0
  noise   : Nat := 512
  deriving DecidableEq, Repr

/-- A touch panel port (R242–R267). -/
structure Touch where
  cfgd    : Bool := false             -- TCH_CFG has configured it; 09 R266; 0
  cfg     : TchCfg := {}              -- as TCH_CFG; 09 R265; Table 9.9 defaults
  mapHead : Nat := 0                  -- 4; 09 R259; 0
  coefs   : List Int := [0, 0, 0, 0, 0, 0]  -- 6 × 32 signed; 09 R259; 0
  mapNext : Option (Nat × List Int) := none  -- TCH_MAP waiting for the next scan start; 09 R265; none
  baseNext : List (Nat × List Int) := []  -- TCH_BASELINE waiting for the next scan start: kind, data; 09 R265; []
  ref     : Option (List Int) := none -- 16 per node; 09 R251; none: reference
  band    : Option (List (Int × Int)) := none -- 2 × 16 per node; 09 R251; none: factory band
  base    : List Int := []            -- 16 per node; 09 R251: baselines; []
  pre     : List Nat := []            -- pre-touched nodes; 09 R251; []
  preOk   : List Nat := []            -- nodes in the release range at the last scan; 09 R252; []
  preStuck : List Nat := []           -- pre-touched nodes already reported STUCK; 09 R252; []
  raw     : List Int := []            -- raw counts of the last scan; 09 R246; []
  listen  : List Int := []            -- listen level per column of the last frame or scan; 09 R246; []
  slots   : List (List Int) := []     -- drive-slot samples of the scan in progress, oldest first; 09 R245; []
  lslots  : List (List Int) := []     -- listen-slot samples of the frame or scan; 09 R246; []
  line    : Nat := 0                  -- slot number in the frame or cycle; 09 R247; 0
  acqUsed : Nat := 0                  -- acquisition mode of the last slot; 09 R247, R250; 0
  scanning : Bool := false            -- a granted scan is in progress; 09 R250; 0
  starting : Bool := true             -- the next scan is the first after a start; 09 R251; 1
  startAt : Nat := 0                  -- timebase ns of the last start; 09 R252; 0
  slotAt  : Nat := 0                  -- timebase ns of the last slot; 09 R249; 0
  rebase  : Bool := false             -- TCH_REBASE waiting for the next scan start; 09 R254; 0
  learn   : Bool := false             -- the scan in progress sets every baseline; 09 R254; 0
  scanNo  : Nat := 0                  -- scans since the last baseline step; 09 R253; 0
  contacts : List Contact := []       -- at most 10; 09 R256; []
  cands   : List Cand := []           -- candidates; 09 R256; []
  wet     : List (List Nat × Int × Int × Nat) := []  -- WET blobs of the last scan: nodes, centroid on the head, N; 09 R257; []
  noiseRun : Nat := 0                 -- consecutive frames or scans above noise_limit; 09 R264; 0
  lost    : Bool := false             -- sync lost; 09 R249; 0
  tsyncAt : Option Nat := none        -- last accepted TSYNC edge, ns; 09 R248; none
  slotSeen : Bool := false            -- a slot has come since the last start; 09 R267 sync_ok; 0
  driven  : Bool := false             -- electrode pins driven, else high-impedance; 09 R244; 0
  pumpBad : Bool := false             -- charge pump out of regulation; 09 R264; 0
  edge    : Bool := false             -- an accepted TSYNC edge whose slot is to come; 09 R247; 0
  rings   : List (Nat × Bool × Nat × BitVec 64 × BitVec 32) := []  -- report rings: partition, host, m, base, seq; 09 R261; []
  test    : Option (Nat × List (List Int) × List Nat) := none  -- self-test: job, raw counts of the passes done, saturated slots per column in pass F; 09 R263; none
  deriving DecidableEq, Repr

/-- A descriptor fetched and not yet accepted (R280). -/
structure Fetched where
  ring  : Nat
  index : BitVec 64
  raw   : Bytes
  order : Nat
  deriving DecidableEq, Repr

/-- A command ring of a partition (R276–R280). -/
structure CRing where
  fetch : BitVec 64 := 0              -- 64; 10 R275: fetch index; 0
  fault : Bool := false               -- 1; 10 R279; 0
  wait  : Option (Nat × Bool × BitVec 64 × BitVec 64) := none  -- FENCE_WAIT holding the ring: job, host, address, target; 10 R214; none
  deriving DecidableEq, Repr

/-- A completion ring of a partition (R282–R284). -/
structure KRing where
  written : BitVec 64 := 0            -- 64; 10 R282: completions written; 0
  cons    : BitVec 64 := 0            -- 64; 10 R284: consumer index of the last doorbell read; 0
  deriving DecidableEq, Repr

/-- A completion (Table 10.5) on its way to its ring. -/
structure Cpl where
  part   : Nat
  cring  : Nat
  tag    : BitVec 32
  opcode : BitVec 16
  ring   : Nat
  index  : BitVec 64
  status : Status
  body   : BitVec 128
  order  : Nat
  deriving DecidableEq, Repr

/-- Partition states (Table 10.1). -/
inductive PartState where
  | free | bound | active | stopping | faulted
  deriving DecidableEq, Repr

/-- A grant of base and count (R272). -/
structure Range where
  base  : Nat := 0
  count : Nat := 0
  deriving DecidableEq, Repr

/-- A partition (R270–R285). -/
structure Part where
  port    : Nat := 0                  -- 3; 10 R270; 0
  state   : PartState := .free        -- 3; 10 R270; FREE
  cause   : Nat := 0                  -- 4; 10 R295; 0
  starts  : BitVec 16 := 0            -- 16; 10 R295; 0
  heads   : BitVec 16 := 0            -- 16; 10 R272; 0
  touch   : BitVec 2 := 0             -- 2; 10 R272; 0
  surf    : Range := {}               -- 16+16; 10 R272; 0
  layer   : Range := {}               -- 16+16; 10 R272; 0
  ctx     : Range := {}               -- 16+16; 10 R272; 0
  flow    : Range := {}               -- 16+16; 10 R272; 0
  follow  : Range := {}               -- 16+16; 10 R272; 0
  sess    : Range := {}               -- 16+16; 10 R272; 0
  egr     : Range := {}               -- 16+16; 10 R272; 0
  qLdg    : Nat := 0                  -- 19; 10 R274; 0
  qDec    : Nat := 0                  -- 32; 10 R274; 0
  qIpp    : Nat := 0                  -- 32; 10 R274; 0
  qEnc    : Nat := 0                  -- 32; 10 R274; 0
  gen     : BitVec 16 := 0            -- 16; 10 R274; 0
  rings   : Tbl CRing := []           -- 8 command rings; 10 R276; default
  krings  : Tbl KRing := []           -- 8 completion rings; 10 R282; default
  backlog : List Cpl := []            -- at most 64; 10 R284; []
  fetched : List Fetched := []        -- fetched, not accepted; 10 R280; []
  mirSeq  : BitVec 32 := 0            -- 32; 10 R292; 0
  logCons : BitVec 64 := 0            -- 64; 18 R482: consumer count last read; 0
  logFull : Bool := false             -- ERRLOG_FULL raised since the last written record; 18 R482; 0
  ctrlRing : Option (Bool × Nat × BitVec 64 × BitVec 32) := none  -- CTRL ring: host, m, base, seq; 13 R372; none
  deriving DecidableEq, Repr

/-- An accepted job without a completion yet (R280, R289). -/
structure Job where
  id      : Nat
  req     : Req
  opcode  : BitVec 16
  running : Bool
  n       : Nat
  m       : Nat
  v       : BitVec 64
  abortBy : List Nat
  snap    : Bytes
  order   : Nat
  yielded : Bool := false             -- the part entered YIELD while the job was accepted and not completed; 10 R288
  ended   : Option (BitVec 128) := none  -- body of the completion of a yielded job that has ended and waits for its turn; 10 R288
  deriving DecidableEq, Repr

/-- Event concentrator source (R328, R329). -/
structure Src where
  pending : Bool := false             -- 1; 12 R329; 0
  serv    : Bool := false             -- 1; 12 R329: in service; 0
  core    : Nat := 0                  -- 2; 12 R339; 0
  input   : Bool := false             -- 1; 12 R329; 0
  deriving DecidableEq, Repr

/-- A desk core and its side of the concentrator (R323–R338). -/
structure Desk where
  wfi     : Bool := false             -- 1; 12 R340; 0
  asleep  : Bool := false             -- 1; 12 R325; 0
  halted  : Bool := false             -- 1; 12 R325; 0
  mode    : Nat := 3                  -- 2; 12 R340; 0b11
  stack   : List (Nat × Nat) := []    -- claimed sources and priorities, top first, at most 16; 12 R331; []
  line    : Bool := false             -- 1; 12 R331; 0
  signalled : Bool := false           -- 1; 12 R335; 0
  wake    : Bool := false             -- 1; 12 R338; 0
  eoiErr  : Bool := false             -- 1; 12 R336; 0
  resv    : Option (Nat × Nat) := none  -- reservation of an LR: address, length; 12 R320, R322; none
  mie     : Nat := 0                  -- interrupts that its mie enables, as its last WFI found them; 12 R325; 0
  deriving DecidableEq, Repr

/-- Chain port states (Table 13.3). -/
inductive PortState where
  | down | train | align | ready | up
  deriving DecidableEq, Repr

/-- How a message came to a port's transmitter (R350, R352): made by this unit; in transit, its receive buffer free; in transit, still in
the receive buffer of the other port. -/
inductive Way where
  | own | passed | held
  deriving DecidableEq, Repr

/-- A message of which flits are left to send (R352): its class, how it came, for a transfer of this unit its surface slot (R366), the
codes and bytes 0–27 of those flits. -/
structure Sending where
  cls     : Nat
  way     : Way
  slot    : Option Nat
  flits   : List (BitVec 4 × Bytes)
  deriving DecidableEq, Repr

/-- A chain port (R345–R362). -/
structure ChnPort where
  state   : PortState := .down        -- 3; 13 R347; DOWN
  cause   : Nat := 0                  -- 3; 13 R351; 0
  locked  : BitVec 4 := 0             -- 4; 13 R348; 0
  skew    : BitVec 4 := 0             -- 4; 13 R375; 0
  txSeq   : BitVec 32 := 0            -- hop sequence number of the next flit sent; 13 R345; 0
  rxSeq   : BitVec 32 := 0            -- hop sequence number expected; 13 R349; 0
  outst   : List (BitVec 32 × BitVec 4 × Bytes) := []  -- unacknowledged flits: sequence, code, bytes (at most 128); 13 R349; []
  nakWait : Bool := false             -- a NAK is outstanding; 13 R349; 0
  tries   : Nat := 0                  -- replays of the oldest flit; 13 R351; 0
  credit  : List Nat := [0, 0, 0, 0]  -- credits granted by the partner, per class; 13 R350; 0
  used    : List Nat := [0, 0, 0, 0]  -- flits sent per class; 13 R353; 0
  delay   : Int := 0                  -- link delay, 1/256 ns; 13 R362; 0
  delayAt : Option Nat := none        -- island clock ns at which that delay was measured; 13 R362; none
  reqAt   : Option (BitVec 128) := none -- egress of the outstanding PDLY_REQ; 13 R362; none
  queue   : List (Way × Msg) := []    -- messages waiting to leave, and how each came; 13 R352; []
  turn    : List Nat := [0, 0, 0]     -- weighted turns spent of C1–C3; 13 R352; 0
  streak  : List Nat := [0, 0, 0, 0]  -- transit messages since a local one, per class; 13 R352; 0
  cur     : List Sending := []        -- message being sent per class; 13 R352; []
  recv    : List Nat := [0, 0, 0, 0]  -- flits received and freed per class; 13 R350; 0
  acked   : BitVec 32 := 0            -- 32; 13 R349: last number acknowledged to the partner; 0
  pdlyOut : Nat := 0                  -- PDLY_REQ flits sent; 13 R362; 0
  strm    : BitVec 16 := 0            -- sequence of the local C1 message started last; 13 R364; 0
  ackAt   : Nat := 0                  -- island clock ns since which flits wait for an acknowledgement that advances; 13 R349; 0
  nakAt   : Nat := 0                  -- island clock ns of the last NAK sent; 13 R349; 0
  sentAt  : Nat := 0                  -- island clock ns of the last acknowledgement sent; 13 R349; 0
  pdlyAt  : Option Nat := none        -- island clock ns of the last PDLY_REQ; 13 R362; none
  deriving DecidableEq, Repr

/-- A transmit slot, stream or surface, of the chain (R364, R366). -/
structure TxSlot where
  enabled : Bool := false             -- 1; 13 R372; 0
  part    : Nat := 0                  -- 4; 13 R372; 0
  alt     : Bool := false             -- 1; 13 R372: source is an encode session or a follow slot; 0
  source  : Nat := 0                  -- 12; 13 R372; 0
  dst     : Nat := 0                  -- 3; 13 R372: destination logical ID; 0
  target  : Nat := 0                  -- 8; 13 R372: destination context or receive slot; 0
  level   : Nat := 0                  -- 4; 13 R366: DEFLATE level, 0: uncompressed; 0
  count   : BitVec 32 := 0            -- transfer count; 13 R367; 0
  surf    : Nat := 0                  -- surface of the latest transfer; 13 R366; 0
  again   : Bool := false             -- a newer trigger waits; 13 R366; 0
  nMsgs   : BitVec 32 := 0            -- 32; 13 R375 CHN_SEL_MSGS; 0
  nPassed : BitVec 32 := 0            -- 32; 13 R375; 0
  deriving DecidableEq, Repr

/-- A receive surface slot (R367). -/
structure RxSlot where
  enabled : Bool := false             -- 1; 13 R372; 0
  part    : Nat := 0                  -- 4; 13 R372; 0
  m       : Nat := 0                  -- 3; 13 R367; 0
  origin  : Nat := 0                  -- 3; 13 R367; 0
  slot    : Nat := 0                  -- 4; 13 R367; 0
  first   : Nat := 0                  -- 12; 13 R367; 0
  fenceOn : Bool := false             -- 1; 13 R367; 0
  fenceHost : Bool := false           -- 1; 13 R367; 0
  fenceAt : BitVec 64 := 0            -- 64; 13 R367; 0
  cur     : Option (BitVec 32) := none  -- 32; 13 R367: count of the transfer being received; none
  target  : Option Nat := none        -- surface being written; 13 R367, 02 R37; none
  band    : Option Nat := none        -- band being received; 13 R367; none
  packed  : Bool := false             -- 1; 13 Table 13.5: its pixels are compressed; 0
  parts   : List (Nat × Bytes) := []  -- its messages so far, by offset; 13 R367; []
  last    : Nat := 0                  -- offset expected next; 13 R367; 0
  lostMsg : Bool := false             -- a message of the band was lost; 13 R367; 0
  shape   : Bool := false             -- a message did not fit the target; 13 R368; 0
  nMsgs   : BitVec 32 := 0            -- 32; 13 R375; 0
  deriving DecidableEq, Repr

/-- What a unit knows of the other units of the ring (R357, R359, R369). -/
structure Peer where
  logical : Nat := 0                  -- 3; 13 R357; 0
  holder  : Bool := false             -- 1; 13 R357; 0
  mode    : Nat := 0                  -- 3; 13 Table 13.5; 0
  heard   : Option Nat := none        -- island clock ns of its last HELLO; 13 R369; none
  epoch   : Nat := 0                  -- epoch of that HELLO; 13 R354, R356; 0
  last    : List (Nat × BitVec 16) := []  -- last message sequence delivered, per class; 13 R359; []
  ports   : BitVec 2 := 0             -- 2; 13 R358: ports its HELLOs arrived on since this unit took its address; 0
  deriving DecidableEq, Repr

/-- The chain as a whole (R354–R375). -/
structure Chain where
  ports   : Tbl ChnPort := []         -- ports west 0 and east 1; 13 R341; default
  peers   : Tbl Peer := []            -- by physical address; 13 R357; default
  txS     : Tbl TxSlot := []          -- 32 transmit stream slots; 13 R364; default
  txF     : Tbl TxSlot := []          -- 16 transmit surface slots; 13 R366; default
  rxF     : Tbl RxSlot := []          -- 16 receive surface slots; 13 R367; default
  seqs    : List (BitVec 16) := [0, 0, 0, 0]  -- own message sequence per class; 13 R360; 0
  hello   : BitVec 32 := 0            -- HELLO count; 13 Table 13.5; 0
  helloAt : Option Nat := none        -- island clock ns of the last HELLO sent; 13 R369; none
  timeMs  : Option Nat := none        -- whole millisecond of the timebase at which TIME was last sent; 13 R361; none
  enumOn  : Bool := false             -- an enumeration is in progress; 13 R354; 0
  west    : Bool := false             -- the westbound ENUM of an open ring was sent; 13 R355; 0
  eastN   : Nat := 0                  -- east count of the enumeration; 13 R355; 0
  hold    : Option (BitVec 128 × Nat) := none  -- chain time hold: root time and island clock ns; 14 R385; none
  conflict : BitVec 8 := 0            -- logical IDs held twice; 13 R357; 0
  sends   : List (Nat × Nat × BitVec 16 × Option (BitVec 32)) := []  -- CHN_SEND messages: job, port, message sequence, hop sequence of the last flit once it starts; 13 R372; []
  enumAt  : Nat := 0                  -- island clock ns at which the enumeration's last ENUM was sent or the address taken; 13 R354, R355; 0
  toRoute : Bool := false             -- CHN_ROUTE is to be loaded for the address taken; 13 R358; 0
  copies  : List (Nat × Nat × BitVec 16 × Nat) := []  -- access units being copied out: address, length, first message sequence, messages; 13 R364; []
  deriving DecidableEq, Repr

/-- The state of a role swap (R393, R394). -/
structure Swap where
  job     : Option Nat := none        -- RDN_SWAP job; 14 R393; none
  bNs     : Nat := 0                  -- handover boundary; 14 R393; 0
  gen     : BitVec 32 := 0            -- generation; 14 R393; 0
  sent    : Bool := false             -- its checkpoint was sent; 14 R393; 0
  prep    : Bool := false             -- SWAP_PREP was sent; 14 R393; 0
  acked   : Bool := false             -- SWAP_ACK OK received; 14 R393; 0
  armedRx : Bool := false             -- ARMED received; 14 R394; 0
  armed   : Bool := false             -- this unit is armed; 14 R394; 0
  asPart  : Bool := false             -- this unit is the partner of a swap; 14 R393; 0
  pastC   : Bool := false             -- past instant C of swap_tg; 14 R394; 0
  deriving DecidableEq, Repr

/-- Redundancy control and the hawk vault (R376–R400). -/
structure Rdn where
  swap    : Swap := {}                -- role swap; 14 R393; none
  gen     : BitVec 32 := 0            -- latest generation taken, restored or applied since core power-up; 14 R378; 0
  taken   : Option Nat := none        -- island clock ns of the last checkpoint; 14 R378; none
  due     : Bool := false             -- a checkpoint event waits for the 100 ms point; 14 R378; 0
  image   : Option (BitVec 32 × Nat × Bytes) := none  -- captured checkpoint: generation, time, image; 14 R379; none
  jobs    : List Nat := []            -- RDN_CKPT jobs waiting; 14 R378; []
  ckptJobs : List Nat := []           -- RDN_CKPT jobs that the captured checkpoint serves; 14 R378; []
  waiting : List (Nat × Nat × Nat) := []  -- requests sent to other units: job, operation, address; 14 R398; []
  asked   : Option Nat := none        -- accepted request whose result record is open: its operation; 14 R399; none
  took    : Bool := false             -- this unit took its logical ID in its last swap; 14 R394; 0
  why     : Nat := 0                  -- what the takeover in progress was triggered by: 0 YIELD, 1 RDN_CMD, 2 ring request, 3 own RDN_TAKEOVER; 14 R389; 0
  trigger : Nat := 0                  -- why the PRIME sequence runs: 0 request, 2 takeover, 6 shadow; 14 R389, R390; 0
  zeroing : Bool := false             -- the vault is being zeroed; 14 R380; 0
  deferred : Bool := false            -- a takeover waits for a transition to end; 16 R445; 0
  swapAt  : Nat := 0                  -- island clock ns from which RDN_SWAP_AGE counts; 14 R396; 0
  dueSaid : Bool := false             -- SWAP_DUE recorded; 14 R396; 0
  deriving DecidableEq, Repr

/-- A surface band that waits for a DEFLATE engine (R366, R367, R414): on its way out, or received. -/
structure BandItem where
  rx     : Bool
  slot   : Nat
  band   : Nat
  count  : BitVec 32
  target : Nat
  last   : Bool
  lost   : Bool
  data   : Bytes
  deriving DecidableEq, Repr

/-- What a DEFLATE engine works on (R408). -/
inductive DceWork where
  | job (id : Nat)
  | checkpoint
  | band (b : BandItem)
  deriving DecidableEq, Repr

/-- A request that waits for the power arbiter, or an item it granted (R436–R439). -/
structure PwrItem where
  id      : Nat
  cls     : Nat
  tokens  : Nat
  at_     : Nat
  granted : Bool
  deferred : Bool
  ended   : Bool
  due     : Nat := 0                  -- island clock ns from which its engine's clock runs, or once it ended has stopped; 16 R434, R438; 0
  paid    : Nat := 0                  -- tokens it took in earlier ticks, of more than 60; 16 R438; 0
  deriving DecidableEq, Repr

/-- The power arbiter (R436–R441). -/
structure Pwr where
  items   : List PwrItem := []        -- waiting, granted and ending items; 16 R437, R438; []
  heads   : Tbl Nat := []             -- reservations of heads in tokens; 16 R436; 0
  owed    : List (Nat × Nat) := []    -- reservations that wait for a tick of their own: head and tokens, oldest first; 16 R438, R440; []
  hotNs   : Option Nat := none        -- since when tj is at or above 135 °C; 16 R441; none
  trip    : Bool := false             -- THERMTRIP_N driven low; 16 R441; 0
  halted  : Bool := false             -- engine clocks and PLLs stopped for THERMAL_SHUTDOWN; 16 R441; 0
  spent   : Nat := 0                  -- tokens granted or reserved in this tick; 16 R438; 0
  used    : Tbl Nat := []             -- per PLL, island clock ns at which it last served work; 16 R435; 0
  lock    : Tbl Nat := []             -- per PLL, island clock ns from which it is locked; 16 R434; 0
  evcUp   : Nat := 0                  -- island clock ns at which the arbiter of the EVC samples again after a stop; 12 R325, R338; 0
  deriving DecidableEq, Repr

/-- What follows a write that belongs to no job once its gate lets it through or refuses it (R283, R517): a refusal moves a
partition to FAULTED; the last piece of an HP4 completion raises the partition's completion source, that of a report or of an
entry of another ring its own source (Table 12.2). -/
inductive After where
  | nothing
  | fault (p : Nat)
  | cpl (p : Nat)
  | pulse (i : Nat)
  deriving DecidableEq, Repr

/-- An access held at a gate, or waiting behind one of its initiator (R12, R309, R322). -/
structure HeldAcc where
  acc   : Access
  typ   : AccType
  addr  : Nat
  len   : Nat
  data  : Bytes := []                 -- of a write; of a read what its parts brought so far (R298)
  reg   : Bool := false
  core  : CoreOp := .plain
  todo  : List (Nat × Nat) := []      -- parts of a read that wait: address and length (R298)
  ok    : Bool := true                -- no part was refused so far
  after : After := .nothing
  deriving DecidableEq, Repr

/-- Suppression of repeated records (R485): event, key, when last recorded, occurrences since. -/
structure Quiet where
  ev    : Nat
  key   : Nat
  at_   : Nat
  count : Nat
  deriving DecidableEq, Repr

/-- An event record (Table 18.2) as the global log holds it. -/
structure LogRec where
  seq    : BitVec 32
  ev     : BitVec 8
  cls    : BitVec 2
  yielded : Bool
  slot   : BitVec 8
  part   : BitVec 5
  time   : BitVec 64
  supp   : BitVec 16
  detail : BitVec 64
  deriving DecidableEq, Repr

/-- What leaves the block toward the outside (the model's own record of outputs). -/
inductive Out where
  | hostWrite (port : Nat) (addr : BitVec 64) (data : Bytes)
  | frame (port : Nat) (data : Bytes)
  | lctrl (port : Nat) (kind : Nat) (v : BitVec 128) (lanes : List (BitVec 2 × Bytes))
  | flit (port : Nat) (seq : BitVec 32) (code : BitVec 4) (data : Bytes) (lanes : List (BitVec 2 × Bytes))
  | training (port : Nat) (plain marker : List (BitVec 2 × Bytes))
  | aux (head : Nat) (i2c write mot : Bool) (addr : BitVec 32) (data : Bytes) (len : Nat)
  | train (head : Nat) (rate lanes src : Nat)
  | touchPins (port : Nat) (drive : Option (Nat × List Int))
  | coreEn (level : Bool)
  | thermtrip
  | mgtNack
  | mgtData (data : Bytes)
  | fuse (cmd : BitVec 8) (arg : BitVec 16)
  | tapReset
  deriving DecidableEq, Repr

/-- The fuses (R446–R448, R457, R515) and what a die is made as (R2). -/
structure Fuses where
  is6408  : Bool := false             -- orderable part; 00 R2; QV6416 (DESIGN CHOICE)
  vendor  : BitVec 16 := 0            -- 16; 10 R268; 0 (DESIGN CHOICE)
  uid     : BitVec 64 := 0            -- 64; 16 R448; 0 (DESIGN CHOICE)
  cycle   : BitVec 2 := 1             -- 2; 16 R446 lifecycle; DEV (19 R513)
  keys    : BitVec 4 := 0             -- 4; 16 R456 programmed; 0 (19 R513)
  revoked : BitVec 4 := 0             -- 4; 16 R456; 0 (DESIGN CHOICE)
  devKey  : Bool := true              -- 1; 16 R456; 1 (DESIGN CHOICE)
  hashes  : List (Nat × BitVec 384) := []  -- hash of the field key programmed in each slot; 16 R447, Table 16.16; []
  minSv   : BitVec 16 := 0            -- 16; 16 R456; 0 (DESIGN CHOICE)
  cycleNow : BitVec 2 := 1            -- lifecycle in force since the last core power-up; 16 R446; DEV
  unlocked : Bool := false            -- 1; 16 R448 DBG_STATUS.unlocked; 0
  unlockNow : Bool := false           -- unlock taken before the last core power-up; 16 R448; 0
  deriving DecidableEq, Repr

/-- The mode controller (R442–R451). -/
structure Ctl where
  mode    : Mode := .keep             -- 3; 16 R442; KEEP
  prev    : Mode := .off              -- 3; 16 R452 AO_MODE.prev; OFF
  cause   : Nat := 5                  -- 4; 16 R452; 5 power-on
  target  : Option (Nat × Bool) := none  -- transition in progress: mode code, decided by a request?; 16 R443; none
  ring    : Bool := false             -- 1; 01 R14: ring island and vault powered; 0
  core    : Bool := false             -- 1; 01 R14: core domain powered; 0
  coreEn  : Bool := false             -- 1; 16 R425 CORE_EN; 0
  corePg  : Bool := false             -- 1; 16 R425 CORE_PG; 0
  primeOk : Bool := false             -- PRIME sequence completed; 16 R449; 0
  bootBad : Bool := false             -- no image accepted; 16 R447; 0
  resets  : BitVec 3 := 1             -- por, core, ring since the last core power-up; 16 R451; 1
  porst   : Bool := true              -- PORST_N; 16 R451; 1
  gatesUp : Bool := false             -- boot has applied and locked the image's gate entries since the last core power-up; 11 R317; 0
  cache   : Tbl (Option (BitVec 64 × BitVec 64)) := []  -- per memory channel, the devices and the results of the last successful cold training; 16 R429; none
  late    : Bool := false             -- a rail timed out while no core domain was there to record it; 16 R450; 0
  latent  : Option (Nat × Nat × Nat × Nat) := none  -- yield-worthy event raised while KEEP goes into PRIME: event, class, partition, detail; 16 R445; none
  deriving DecidableEq, Repr

/-- How an access fails for an initiator that sees it: an exception of a desk core (R321, Table 11.3, Table 12.1), a bus
error of the debug module. -/
inductive Exc where
  | fetchFault | loadMisaligned | loadFault | storeMisaligned | storeFault | busError
  deriving DecidableEq, Repr

/-- What the bus gives back to the initiator of a register or memory access (the model's own output). -/
structure Bus where
  data : Bytes := []
  ok   : Bool := true
  exc  : Option Exc := none
  deriving DecidableEq, Repr

/-- The state of the QV6416. -/
structure State where
  pending  : List Instr := []         -- the model's queue of waiting commands
  free     : Nat := 0                 -- the model's counter of free values; 0 (DESIGN CHOICE)
  island   : Nat := 0                 -- ns counted by the ring island's and the AO domain's own clocks; 14 R385; 0
  ctl      : Ctl := {}                -- 16 R442
  fuses    : Fuses := {}              -- 16 R446
  straps   : BitVec 4 := 0            -- 4; 01 R24, 19 R501; 0 (DESIGN CHOICE until captured)
  tbase    : Timebase := {}           -- 03 R61
  hold     : Holdover := {}           -- 16 R428
  regs     : Tbl Word := []           -- registers by internal address; 20 R514–R516
  mem      : List Host.Cell := []     -- device memory, desk SRAM, hawk vault; 01 R16; unlisted byte reads 0
  tgs      : Tbl TGroup := []         -- 03 R80
  flows    : Tbl Flow := []           -- 04 R92
  ctxs     : Tbl Ctx := []            -- 04 R106, 05 R126
  egress   : Tbl Egress := []         -- 04 R111
  follows  : Tbl Follow := []         -- 06 R146
  ipp      : Tbl (Option IppWork) := []  -- 06 R145
  encs     : Tbl Enc := []            -- 06 R164
  surfs    : Tbl Surface := []        -- 07 R183
  ledger   : Tbl LEntry := []         -- 02 R34
  records  : List TileRec := []       -- tile records on the ledger network, oldest first; 02 R35
  layers   : Tbl Layer := []          -- 07 R190
  heads    : Tbl Head := []           -- 07 R186
  seals    : Tbl SealGrp := []        -- 07 R204
  commits  : List Nat := []           -- VRD_COMMIT requests waiting: profile + 64 × reserved bits set?; 02 R56
  sweepMs  : Nat := 50000             -- pass length in force; 02 R41; 50,000
  sweepAt  : Nat := 0                 -- island clock ns at which the sweeper's pass began; 02 R41; 0
  sweepNext : Nat := 0                -- the least entry it has not visited in this pass; 02 R41; 0
  snaps    : List (List Word) := []   -- staging values of each waiting commit; 02 R56
  touch    : Tbl Touch := []          -- 09 R242
  parts    : Tbl Part := []           -- 10 R270
  jobs     : List Job := []           -- accepted jobs without completion; 10 R289
  nextJob  : Nat := 0                 -- acceptance order; 10 R280; 0
  nextFetch : Nat := 0                -- fetch order; 10 R280; 0
  cpls     : List Cpl := []           -- completions on their way; 10 R282
  srcs     : Tbl Src := []            -- 12 R329
  desks    : Tbl Desk := []           -- 12 R323
  evcStop  : Bool := false            -- 1; 12 R325: arbiter stopped, desk PLL gated; 0
  chain    : Chain := {}              -- 13 R341
  rdn      : Rdn := {}                -- 14 R376
  dce      : Tbl (Option DceWork) := []  -- 15 R408
  bands    : List BandItem := []      -- surface bands waiting for a DCE, oldest first; 15 R408
  ckptWait : Bool := false            -- a captured checkpoint waits for a DCE; 15 R408
  crcu     : Tbl (Option Nat) := []   -- job in progress per CRC unit; 15 R417
  pwr      : Pwr := {}                -- 16 R436
  drains   : Tbl Nat := []            -- per gate entry in HOLD: ns at which it is quiet; 11 R309
  heldAcc  : List HeldAcc := []       -- accesses held at a gate; 11 R309
  quiets   : List Quiet := []         -- 18 R485
  glog     : Tbl LogRec := []         -- global log by entry; 18 R481
  lanesQd  : Tbl Nat := []            -- bits each lane's generator has inverted; 17 R474
  lockAt   : Tbl Nat := []            -- per lane with a locked checker: 1 + island clock ns from which bits count; 17 R473
  nonce    : BitVec 128 := 0          -- 128; 16 R448; 0 until boot (DESIGN CHOICE)
  token    : Tbl Word := []           -- DBG_TOKEN and DBG_FUSE_CMD as written; 16 R448, R457
  fuseOps  : List (Nat × Nat × Nat × BitVec 384) := []  -- fuse commands being programmed, in order: command, key slot, minimum version, key hash; 16 R457
  outbox   : List Out := []           -- the model's record of outputs, oldest first
  bus      : Bus := {}                -- the model's record of what the last access returned
  deriving DecidableEq, Repr

/-- Why a command stops the block: nothing in the spec does, so no command of this model faults. -/
inductive Fault where
  /-- No command raises it; the block keeps running through every command of the table. Safe. -/
  | none
  deriving DecidableEq, Repr

/-- Why a command is refused. -/
inductive Refusal where
  /-- Raised by the dispatch for a command that has no meaning yet. Safe: the run stops. -/
  | notModelled (mnemonic : String)
  deriving DecidableEq, Repr

/-- The block just after the rising edge of PORST_N: the AO domain powered, mode KEEP with cause power-on (AO_MODE
0x0000_0501), everything else unpowered, the automatic request for PRIME outstanding (R427, R443, R451, R452). -/
def State.reset : State := { ctl := { target := some (2, false), coreEn := true } }

end Sys2Proof.Machine
end

