-- ==== Sys2Proof/Machine/Flags.lean ====
section
/-!
DEFINITION. The computations of check values and of verdicts: CRC (R415, R416), Adler-32, signed comparison of times
(R79), the effective margin (R69), the verdict of a tile (R42), treatments and their validation (R49–R55), the side
size of a pool buffer (R122), the reference region of a block (R131).
-/

namespace Sys2Proof.Machine

/-- The low `w` bits of `n` in reverse order. -/
def revBits : Nat → Nat → Nat
  | 0, _ => 0
  | w + 1, n => n % 2 * 2 ^ w + revBits w (n / 2)

/-- One bit of the CRC procedure of R415. -/
def crcBit (w poly r : Nat) (b : Bool) : Nat :=
  let fb := xor (bitOf r (w - 1)) b
  let r' := r * 2 % 2 ^ w
  if fb then r' ^^^ poly else r'

/-- One byte of the CRC procedure, most significant bit first after the optional reflection (R415). -/
def crcByte (w poly : Nat) (refin : Bool) (r : Nat) (m : Byte) : Nat :=
  let b := if refin then revBits 8 m.toNat else m.toNat
  [7, 6, 5, 4, 3, 2, 1, 0].foldl (fun r k => crcBit w poly r (bitOf b k)) r

/-- `crc_ref` of R415. -/
def crcRef (w poly init xorout : Nat) (refin refout : Bool) (m : Bytes) : Nat :=
  let r := m.foldl (crcByte w poly refin) (init % 2 ^ w)
  ((if refout then revBits w r else r) ^^^ xorout) % 2 ^ w

/-- CRC-32C of Table 15.6 with the context word `c` folded in (R416). -/
def crc32c (c : Nat) (m : Bytes) : Nat := crcRef 32 0x1EDC6F41 0xFFFFFFFF 0xFFFFFFFF true true (leBytes 8 c ++ m)

/-- CRC-32 of Table 15.6, without a context word. -/
def crc32 (m : Bytes) : Nat := crcRef 32 0x04C11DB7 0xFFFFFFFF 0xFFFFFFFF true true m

/-- CRC-64 of R381 with the context word `c` folded in. -/
def crc64 (c : Nat) (m : Bytes) : Nat :=
  crcRef 64 0x42F0E1EBA9EA3693 0xFFFFFFFFFFFFFFFF 0xFFFFFFFFFFFFFFFF true true (leBytes 8 c ++ m)

/-- Adler-32 (RFC 1950). -/
def adler32 (m : Bytes) : Nat :=
  let ab := m.foldl (fun (p : Nat × Nat) b => let a := (p.1 + b.toNat) % 65521; (a, (p.2 + a) % 65521)) (1, 0)
  ab.2 * 65536 + ab.1

/-- The context word of a tile checker (R421). -/
def tileContext (surface tile : Nat) : Nat := surface * 2 ^ 48 + tile * 2 ^ 32

/-- `tick_diff` of R79. -/
def tickDiff (a b : BitVec 32) : Int := (a - b).toInt

/-- `time_diff` of R79. -/
def timeDiff (a b : BitVec 64) : Int := (a - b).toInt

/-- The ledger tick of a device time in ns (R27). -/
def tickOf (ns : Nat) : BitVec 32 := BitVec.ofNat 32 (ns / 1000)

/-- `effective_margin_us` of R69. -/
def effectiveMargin (marginNs growth elapsed : Nat) (valid : Bool) : BitVec 32 :=
  if !valid then 0xFFFFFFFF
  else
    let add := elapsed / 1000000000 * growth + elapsed % 1000000000 * growth / 1000000000
    let us := (marginNs + add + 999) / 1000
    BitVec.ofNat 32 (capAt 0xFFFFFFFF us)

/-- The code of a verdict (Table 2.4). -/
def Verdict.code : Verdict → Nat
  | .live => 0 | .aged => 1 | .stale => 2 | .tainted => 3 | .frozen => 4 | .never => 5

/-- The order of precedence of a verdict (Table 2.4). -/
def Verdict.order : Verdict → Nat
  | .never => 1 | .stale => 2 | .tainted => 3 | .frozen => 4 | .aged => 5 | .live => 6

/-- The raw age of a content time at a tick, signed (R42, R79). -/
def rawAge (now content : BitVec 32) : Int := tickDiff now content

/-- The age: the raw age, with the margin for CAPTURE basis (R40, R42). -/
def ageOf (now : BitVec 32) (margin : Nat) (e : LEntry) : Int :=
  rawAge now e.content + (if e.basis == 1 then (margin : Int) else 0)

/-- `tile_verdict` of R42. -/
def tileVerdict (e : LEntry) (eccBad frozen : Bool) (liveMax agedMax : Nat) (now : BitVec 32) (margin : Nat) : Verdict :=
  if e.never then .never
  else if eccBad || e.expLong || e.basis == 0 then .stale
  else if rawAge now e.content < -1000 then .stale
  else if ageOf now margin e > (agedMax : Int) then .stale
  else if e.taint then .tainted
  else if frozen then .frozen
  else if ageOf now margin e > (liveMax : Int) then .aged
  else .live

/-- Whether an evaluation has an age to show: the STALE cases of the badge ` ???` have none (R52). -/
def ageShown (e : LEntry) (eccBad : Bool) (now : BitVec 32) : Bool :=
  !(e.never || eccBad || e.expLong || e.basis == 0) && decide (¬ rawAge now e.content < -1000)

/-- Whether a watch entry is overdue (R39). -/
def watchOverdue (e : LEntry) (eccBad : Bool) (periodMs : Nat) (now : BitVec 32) (margin : Nat) : Bool :=
  eccBad || (!e.never && (e.watchExp
    || decide (rawAge now e.change < -1000)
    || decide (rawAge now e.change + (if e.basis == 1 then (margin : Int) else 0) > ((periodMs * 1000 : Nat) : Int))))

/-- The fields of a treatment (Table 2.5). -/
def ttPattern (t : Nat) : Nat := bitsOf t 0 3
def ttColour (t : Nat) : Nat := bitsOf t 3 3
def ttBadge (t : Nat) : Bool := bitOf t 6
def ttSubst (t : Nat) : Bool := bitOf t 7
def ttSub (t : Nat) : Nat := bitsOf t 8 3
def ttReserved (t : Nat) : Bool := bitsOf t 11 5 != 0

/-- The scrim palette (Table 2.6). -/
def palette (i : Nat) : Nat × Nat × Nat :=
  [(0, 0, 0), (1023, 1023, 1023), (1023, 767, 0), (1023, 0, 0), (1023, 0, 1023), (0, 1023, 1023), (512, 512, 512),
    (1023, 1023, 0)].getD i (0, 0, 0)

/-- Whether (x, y) is a hatch pixel of a pattern (Table 2.7, R51). -/
def hatch (pattern : Nat) (x y : Nat) : Bool :=
  let fwd := decide ((x + y) % 16 < 4)
  let back := decide (((x : Int) - (y : Int)) % 16 < 4)
  match pattern with
  | 1 => fwd
  | 2 => back
  | 3 => fwd || back
  | 4 => decide ((x + y) % 16 < 8)
  | _ => false

/-- The validation of a liveness profile (Table 2.9): the first failing rule in table order. `tts` are the AGED,
STALE, TAINTED, FROZEN and NEVER treatments; `resv` says that a reserved bit of the request was 1. -/
def profileResult (liveMax agedMax : Nat) (tts : List Nat) (resv : Bool) : Nat :=
  if liveMax < 1000 || liveMax > 10000000 || agedMax < liveMax || agedMax > 1200000000 then 1
  else if tts.any (fun t => ttPattern t == 0 || decide (ttPattern t > 4)) then 2
  else if !(ttBadge (tts.getD 0 0)) || !(ttBadge (tts.getD 1 0)) then 3
  else if tts.any (fun t => ttSubst t && ttColour t == ttSub t) then 4
  else if tts.any ttReserved || resv then 5
  else 0

/-- `side_size` of R122. -/
def sideSize (w h : Nat) : Nat := ceilTo 0x1000 (0x8800 + 16 * ((w + 15) / 16) * ((h + 15) / 16))

/-- `ref_region` of R131: x_lo, x_hi, y_lo, y_hi. -/
def refRegion (x0 y0 w h : Nat) (mvx mvy : Int) (rw rh : Nat) : Int × Int × Int × Int :=
  let fx : Int := if mvx % 8 = 0 then 0 else 1
  let fy : Int := if mvy % 8 = 0 then 0 else 1
  let sx := mvx / 4
  let sy := mvy / 4
  let mx : Int := (rw : Int) - 1
  let my : Int := (rh : Int) - 1
  (clampI (x0 + sx - 3 * fx) 0 mx, clampI (x0 + sx + w - 1 + 4 * fx) 0 mx,
   clampI (y0 + sy - 3 * fy) 0 my, clampI (y0 + sy + h - 1 + 4 * fy) 0 my)

/-- `step_fx` of R149. -/
def stepFx (crop d out : Nat) : Nat := crop * 65536 / (d * out)

/-- `src_pos_fx` of R149. -/
def srcPosFx (x : Nat) (sfx : Nat) : Int := (((2 * x + 1) * sfx : Nat) - 65536 : Int) / 2

/-- The pre-decimation of an axis (R148): 1 for s ≤ 2, 2 for s ≤ 4, else 4. -/
def decimation (crop out : Nat) : Nat := if crop ≤ 2 * out then 1 else if crop ≤ 4 * out then 2 else 4

/-- `span` of R154. -/
def ippSpan (a b sfx taps d origin len : Nat) : Nat × Nat :=
  let last : Int := ((len / d : Nat) : Int) - 1
  let l := clampI (srcPosFx a sfx / 65536 - ((taps / 2 : Nat) - 1 : Int)) 0 last
  let h := clampI (srcPosFx b sfx / 65536 + ((taps / 2 : Nat) : Int)) 0 last
  let o : Int := (origin : Int)
  let lim : Int := o + (len : Int) - 1
  ((clampI (o + l * d - 2) o lim).toNat, (clampI (o + h * d + d - 1 + 2) o lim).toNat)

/-- `sr_to_tai_ns` of R102. -/
def srToTai (sec frac : Nat) (utc : Bool) (taiUtc : Nat) : Int :=
  ((sec : Int) - 2208988800 + (if utc then (taiUtc : Int) else 0)) * 1000000000 + ((frac * 1000000000 / 2 ^ 32 : Nat) : Int)

/-- `sr_capture_ns` of R102: the quotient truncates toward zero. -/
def srCapture (srNs : Int) (srRtp rtp : BitVec 32) (rate : Nat) : Int :=
  srNs + Int.tdiv ((rtp - srRtp).toInt * 1000000000) (rate : Int)

/-- `direct_capture_ns` of R103. -/
def directCapture (arr : Nat) (rtp : BitVec 32) (rate : Nat) : Int :=
  let nowT := arr * rate / 1000000000
  let back := (BitVec.ofNat 32 nowT - rtp).toInt
  ((nowT : Int) - back) * 1000000000 / (rate : Int)

end Sys2Proof.Machine
end

