-- ==== Sys2Proof/Machine/Regs.lean ====
section
/-!
DEFINITION. The register index (chapter 20): the internal address of every register by name, and per block its rows
with the writable bits, the write-1-to-clear bits (R6) and the reset word (R515). A register of an array takes its
index as an argument; `HD`, `TCH`, `DCE`, `CRCU` and `QD` registers take the block number first.
-/

namespace Sys2Proof.Machine

/-- One row of the index: first offset, stride, instances, RW bits, W1C bits, reset word. -/
structure RegRow where
  off    : Nat
  stride : Nat
  count  : Nat
  rw     : Nat
  w1c    : Nat
  reset  : Nat
  deriving DecidableEq, Repr

/-- A register that software cannot set. -/
def ro (off : Nat) (reset : Nat := 0) : RegRow := ⟨off, 4, 1, 0, 0, reset⟩

/-- A register with writable bits. -/
def rw (off bits : Nat) (reset : Nat := 0) : RegRow := ⟨off, 4, 1, bits, 0, reset⟩

/-- A register with write-1-to-clear bits. -/
def w1c (off bits : Nat) (reset : Nat := 0) : RegRow := ⟨off, 4, 1, 0, bits, reset⟩

/-- The row repeated `count` times at a stride. -/
def RegRow.arr (r : RegRow) (stride count : Nat) : RegRow := { r with stride := stride, count := count }

/-- The base of partition set-up window `p` (Table 1.4). -/
def windowBase (p : Nat) : Nat := 0xF00000 + 0x10000 * p

/-! ### SYS: Tables 1.7-1.11, R24 -/

def SYS_ID : Nat := 0x0
def SYS_CAPS : Nat := 0x4
def SYS_STRAP : Nat := 0x8
def SYS_MEM_SIZE (i : Nat) : Nat := 0x10 + 0x4 * i
def SYS_DOMAIN : Nat := 0x30

/-- The rows of SYS. -/
def rowsSYS : List RegRow := [
  ro 0x0, ro 0x4, ro 0x8, (ro 0x10).arr 0x4 6, ro 0x30 0x1]

/-! ### AO: Tables 16.11, R452 -/

def AO_MODE : Nat := 0x10000
def AO_MODE_REQ : Nat := 0x10004
def AO_MODE_STATUS : Nat := 0x10008
def AO_KEEP : Nat := 0x1000C
def AO_WAKE : Nat := 0x10010
def AO_HOLD_SEC : Nat := 0x10014
def AO_HOLD_SEC_HI : Nat := 0x10018
def AO_HOLD_SUB : Nat := 0x1001C
def AO_TRAIN : Nat := 0x10020
def AO_RESET_CAUSE : Nat := 0x10024

/-- The rows of AO. -/
def rowsAO : List RegRow := [
  ro 0x0 0x501, ro 0x4, ro 0x8, rw 0xC 0x1, ⟨0x10, 4, 1, 0x1, 0x2, 0x0⟩, rw 0x14 0xFFFFFFFF, rw 0x18 0xFFFF,
  rw 0x1C 0x7FFF, ro 0x20, ro 0x24 0x1]

/-! ### MGT: Tables 16.12, R453 -/

def MGT_ADDR : Nat := 0x20000
def MGT_CFG : Nat := 0x20004
def MGT_PTR_LO : Nat := 0x20008
def MGT_PTR_HI : Nat := 0x2000C
def MGT_MBOX_IN (i : Nat) : Nat := 0x20010 + 0x4 * i
def MGT_MBOX_OUT (i : Nat) : Nat := 0x20030 + 0x4 * i
def MGT_MBOX_SEQ : Nat := 0x20050
def MGT_ERR : Nat := 0x20054

/-- The rows of MGT. -/
def rowsMGT : List RegRow := [
  ro 0x0 0x58, rw 0x4 0x1, ro 0x8, ro 0xC, (ro 0x10).arr 0x4 8, (rw 0x30 0xFFFFFFFF).arr 0x4 8, ro 0x50,
  rw 0x54 0xFFFFFFFF]

/-! ### CLK: Tables 16.13, R454 -/

def CLK_PLL_CTRL (i : Nat) : Nat := 0x30000 + 0x10 * i
def CLK_PLL_STATUS (i : Nat) : Nat := 0x30004 + 0x10 * i
def CLK_PLL_STAT (i : Nat) : Nat := 0x30008 + 0x10 * i

/-- The rows of CLK. -/
def rowsCLK : List RegRow := [
  (rw 0x0 0xFF01 0xA00).arr 0x10 5, (ro 0x4).arr 0x10 5, (rw 0x8 0xFFFFFFFF).arr 0x10 5,
  (rw 0x80 0xFF01 0xA00).arr 0x10 8, (ro 0x84).arr 0x10 8, (rw 0x88 0xFFFFFFFF).arr 0x10 8]

/-! ### PWR: Tables 16.14, R455 -/

def PWR_BUDGET : Nat := 0x40000
def PWR_USE : Nat := 0x40004
def PWR_WAITING : Nat := 0x40008
def PWR_DEFER_THR : Nat := 0x4000C
def PWR_DEFER (i : Nat) : Nat := 0x40010 + 0x4 * i
def PWR_THERM : Nat := 0x40030
def PWR_TMAX : Nat := 0x40034

/-- The rows of PWR. -/
def rowsPWR : List RegRow := [
  rw 0x0 0x7FF 0x7FF, ro 0x4, ro 0x8, rw 0xC 0xFFFF 0x64, (rw 0x10 0xFFFFFFFF).arr 0x4 6,
  rw 0x30 0xFF0000 0x730000, rw 0x34 0x7FF]

/-! ### TB: Tables 3.8-3.17, R87,R88 -/

def TB_STATUS : Nat := 0x50000
def TB_SERVO : Nat := 0x50004
def TB_SNAP : Nat := 0x50008
def TB_SNAP_STATUS : Nat := 0x5000C
def TB_SNAP_SEC_LO : Nat := 0x50010
def TB_SNAP_SEC_HI : Nat := 0x50014
def TB_SNAP_NS : Nat := 0x50018
def TB_RATE_LO : Nat := 0x50020
def TB_RATE_HI : Nat := 0x50024
def TB_MARGIN_NS : Nat := 0x50028
def TB_GROWTH : Nat := 0x5002C
def TB_STEP_LO : Nat := 0x50030
def TB_STEP_HI : Nat := 0x50034
def TB_STEP_FRAC : Nat := 0x50038
def TB_ADJ : Nat := 0x50040
def TB_ADJ_STATUS : Nat := 0x50044
def TB_RATE_ACT_LO : Nat := 0x50048
def TB_RATE_ACT_HI : Nat := 0x5004C
def TB_MARGIN_EFF : Nat := 0x50050
def TB_PTP_RX_BASE_LO : Nat := 0x50060
def TB_PTP_RX_BASE_HI : Nat := 0x50064
def TB_PTP_RX_CTRL : Nat := 0x50068
def TB_PTP_RX_PROD : Nat := 0x5006C
def TB_PTP_DROP : Nat := 0x50070
def TB_CHN_CTRL : Nat := 0x50080
def TB_CHN_MEAS_STATUS : Nat := 0x50084
def TB_CHN_OFFSET_LO : Nat := 0x50088
def TB_CHN_DELAY : Nat := 0x5008C
def TB_CHN_OFFSET_HI : Nat := 0x50090
def TB_PORT_TXLAT (i : Nat) : Nat := 0x50100 + 0x10 * i
def TB_PORT_RXLAT (i : Nat) : Nat := 0x50104 + 0x10 * i
def TB_PORT_ASYM (i : Nat) : Nat := 0x50108 + 0x10 * i
def TG_CTRL (i : Nat) : Nat := 0x50400 + 0x40 * i
def TG_OFFSET (i : Nat) : Nat := 0x50404 + 0x40 * i
def TG_WIN (i : Nat) : Nat := 0x50408 + 0x40 * i
def TG_RATE (i : Nat) : Nat := 0x5040C + 0x40 * i
def TG_CMD (i : Nat) : Nat := 0x50410 + 0x40 * i
def TG_STATUS (i : Nat) : Nat := 0x50414 + 0x40 * i
def TG_PHASE (i : Nat) : Nat := 0x50418 + 0x40 * i
def TG_TRIM (i : Nat) : Nat := 0x5041C + 0x40 * i
def TG_REPHASE_STATUS (i : Nat) : Nat := 0x50420 + 0x40 * i
def TG_REF_LO (i : Nat) : Nat := 0x50424 + 0x40 * i
def TG_REF_HI (i : Nat) : Nat := 0x50428 + 0x40 * i
def TG_COUNT (i : Nat) : Nat := 0x5042C + 0x40 * i

/-- The rows of TB. -/
def rowsTB : List RegRow := [
  ro 0x0 0x1, rw 0x4 0x1F 0x1F, ro 0x8, ro 0xC, ro 0x10, ro 0x14, ro 0x18, rw 0x20 0xFFFFFFFF, rw 0x24 0xFFFFFFFF,
  rw 0x28 0xFFFFFFFF, rw 0x2C 0xFFFFFFFF, rw 0x30 0xFFFFFFFF, rw 0x34 0xFFFFFFFF, rw 0x38 0xFFFF, ro 0x40, ro 0x44,
  ro 0x48, ro 0x4C, ro 0x50 0xFFFFFFFF, rw 0x60 0xFFFF8000, rw 0x64 0xFF, rw 0x68 0x1, ro 0x6C, rw 0x70 0xFFFFFFFF,
  rw 0x80 0x7, ro 0x84, ro 0x88, ro 0x8C, ro 0x90, (rw 0x100 0xFFFFFF).arr 0x10 10,
  (rw 0x104 0xFFFFFF).arr 0x10 10, (rw 0x108 0xFFFFFFFF).arr 0x10 10, (rw 0x400 0x7).arr 0x40 8,
  (rw 0x404 0xFFFFFFFF).arr 0x40 8, (rw 0x408 0x7FF 0x40).arr 0x40 8, (rw 0x40C 0xFFFFFFFF 0x3E8EA60).arr 0x40 8,
  (ro 0x410).arr 0x40 8, (ro 0x414).arr 0x40 8, (ro 0x418).arr 0x40 8, (ro 0x41C).arr 0x40 8,
  (ro 0x420).arr 0x40 8, (ro 0x424).arr 0x40 8, (ro 0x428).arr 0x40 8, (rw 0x42C 0xFFFFFFFF).arr 0x40 8]

/-! ### ETH: Tables 4.9,4.10, R114 -/

def ETH_CFG : Nat := 0x60000
def ETH_LINK : Nat := 0x60004
def ETH_NETCTL : Nat := 0x60008
def ETH_EXC_BASE_LO : Nat := 0x60010
def ETH_EXC_BASE_HI : Nat := 0x60014
def ETH_EXC_CTRL : Nat := 0x60018
def ETH_EXC_PROD : Nat := 0x6001C
def ETH_PORT_MAC_LO (i : Nat) : Nat := 0x60100 + 0x40 * i
def ETH_PORT_MAC_HI (i : Nat) : Nat := 0x60104 + 0x40 * i
def ETH_PORT_IP4 (i : Nat) : Nat := 0x60108 + 0x40 * i
def ETH_PORT_IP6_0 (i : Nat) : Nat := 0x6010C + 0x40 * i
def ETH_PORT_IP6_1 (i : Nat) : Nat := 0x60110 + 0x40 * i
def ETH_PORT_IP6_2 (i : Nat) : Nat := 0x60114 + 0x40 * i
def ETH_PORT_IP6_3 (i : Nat) : Nat := 0x60118 + 0x40 * i
def ETH_PORT_PTP_TPL (i : Nat) : Nat := 0x6011C + 0x40 * i
def ETH_PORT_PTP_DST4 (i : Nat) : Nat := 0x60120 + 0x40 * i
def ETH_PORT_PTP_DMAC_LO (i : Nat) : Nat := 0x60124 + 0x40 * i
def ETH_PORT_PTP_DMAC_HI (i : Nat) : Nat := 0x60128 + 0x40 * i
def ETH_PORT_RX_FRAMES (i : Nat) : Nat := 0x6012C + 0x40 * i
def ETH_PORT_RX_HDR_ERR (i : Nat) : Nat := 0x60130 + 0x40 * i
def ETH_PORT_RX_UNSUP (i : Nat) : Nat := 0x60134 + 0x40 * i
def ETH_PORT_RX_UNKNOWN (i : Nat) : Nat := 0x60138 + 0x40 * i
def ETH_PORT_RX_NOFLOW (i : Nat) : Nat := 0x6013C + 0x40 * i
def ETH_EGR_STATUS (i : Nat) : Nat := 0x60400 + 0x10 * i
def ETH_EGR_FRAMES (i : Nat) : Nat := 0x60404 + 0x10 * i
def ETH_EGR_SKIP (i : Nat) : Nat := 0x60408 + 0x10 * i

/-- The rows of ETH. -/
def rowsETH : List RegRow := [
  rw 0x0 0x77, ro 0x4, rw 0x8 0x1F 0x1F, rw 0x10 0xFFFF0000, rw 0x14 0xFF, rw 0x18 0x1, ro 0x1C,
  (rw 0x100 0xFFFFFFFF).arr 0x40 8, (rw 0x104 0xFFFF).arr 0x40 8, (rw 0x108 0xFFFFFFFF).arr 0x40 8,
  (rw 0x10C 0xFFFFFFFF).arr 0x40 8, (rw 0x110 0xFFFFFFFF).arr 0x40 8, (rw 0x114 0xFFFFFFFF).arr 0x40 8,
  (rw 0x118 0xFFFFFFFF).arr 0x40 8, (rw 0x11C 0x7FFFFFFF 0x400000).arr 0x40 8, (rw 0x120 0xFFFFFFFF).arr 0x40 8,
  (rw 0x124 0xFFFFFFFF).arr 0x40 8, (rw 0x128 0xFFFF).arr 0x40 8, (rw 0x12C 0xFFFFFFFF).arr 0x40 8,
  (rw 0x130 0xFFFFFFFF).arr 0x40 8, (rw 0x134 0xFFFFFFFF).arr 0x40 8, (rw 0x138 0xFFFFFFFF).arr 0x40 8,
  (rw 0x13C 0xFFFFFFFF).arr 0x40 8, (ro 0x400).arr 0x10 8, (rw 0x404 0xFFFFFFFF).arr 0x10 8,
  (rw 0x408 0xFFFFFFFF).arr 0x10 8]

/-! ### FLW: Tables 4.11, R115 -/

def FLW_TAI_UTC : Nat := 0x70000
def FLW_STATUS : Nat := 0x70004
def FLW_SEL : Nat := 0x70010
def FLW_SEL_STATE : Nat := 0x70014
def FLW_SEL_PKTS : Nat := 0x70018
def FLW_SEL_LOST : Nat := 0x7001C
def FLW_SEL_LATE : Nat := 0x70020
def FLW_SEL_DUP : Nat := 0x70024
def FLW_SEL_DROP : Nat := 0x70028
def FLW_SEL_UNSUP : Nat := 0x7002C
def FLW_SEL_AUS : Nat := 0x70030
def FLW_SEL_AU_LOSS : Nat := 0x70034
def FLW_SEL_AU_DROP : Nat := 0x70038
def FLW_SEL_RECOV : Nat := 0x7003C
def FLW_SEL_MAP : Nat := 0x70040

/-- The rows of FLW. -/
def rowsFLW : List RegRow := [
  rw 0x0 0xFF 0x25, ro 0x4, rw 0x10 0x3FF, ro 0x14 0x3FF0000, rw 0x18 0xFFFFFFFF, rw 0x1C 0xFFFFFFFF,
  rw 0x20 0xFFFFFFFF, rw 0x24 0xFFFFFFFF, rw 0x28 0xFFFFFFFF, rw 0x2C 0xFFFFFFFF, rw 0x30 0xFFFFFFFF,
  rw 0x34 0xFFFFFFFF, rw 0x38 0xFFFFFFFF, rw 0x3C 0xFFFFFFFF, rw 0x40 0xFFFF0000]

/-! ### STR: Tables 4.11, R115 -/

def STR_STATUS : Nat := 0x80000
def STR_SEL : Nat := 0x80010
def STR_SEL_STATE : Nat := 0x80014
def STR_SEL_AUS : Nat := 0x80018
def STR_SEL_OVF : Nat := 0x8001C
def STR_SEL_CAP_LO : Nat := 0x80020
def STR_SEL_CAP_HI : Nat := 0x80024

/-- The rows of STR. -/
def rowsSTR : List RegRow := [
  ro 0x0, rw 0x10 0xFF, ro 0x14 0x3FF0000, rw 0x18 0xFFFFFFFF, rw 0x1C 0xFFFFFFFF, ro 0x20, ro 0x24]

/-! ### DEC: Tables 5.11, R144 -/

def DEC_STATUS : Nat := 0x90000
def DEC_CORE_LOAD (i : Nat) : Nat := 0x90010 + 0x4 * i
def DEC_CORE_INFO (i : Nat) : Nat := 0x90050 + 0x4 * i
def DEC_SEL : Nat := 0x90100
def DEC_SEL_STATE : Nat := 0x90104
def DEC_SEL_POOL : Nat := 0x90108
def DEC_SEL_DECODED : Nat := 0x9010C
def DEC_SEL_OUT_SEQ : Nat := 0x90110
def DEC_SEL_CONCEALED : Nat := 0x90114
def DEC_SEL_REFMISS : Nat := 0x90118
def DEC_SEL_BSERR : Nat := 0x9011C
def DEC_SEL_PICLOST : Nat := 0x90120
def DEC_SEL_SKIPPED : Nat := 0x90124
def DEC_SEL_TAINTED : Nat := 0x90128
def DEC_SEL_WAIT : Nat := 0x9012C
def DEC_SEL_SEI_OK : Nat := 0x90130
def DEC_SEL_SEI_REJ : Nat := 0x90134
def DEC_SEL_POC : Nat := 0x90138
def DEC_SEL_TAINT_TILES : Nat := 0x9013C

/-- The rows of DEC. -/
def rowsDEC : List RegRow := [
  ro 0x0 0xFFFF, (ro 0x10).arr 0x4 16, (ro 0x50).arr 0x4 16, rw 0x100 0xFF, ro 0x104, ro 0x108,
  rw 0x10C 0xFFFFFFFF, ro 0x110, rw 0x114 0xFFFFFFFF, rw 0x118 0xFFFFFFFF, rw 0x11C 0xFFFFFFFF,
  rw 0x120 0xFFFFFFFF, rw 0x124 0xFFFFFFFF, rw 0x128 0xFFFFFFFF, rw 0x12C 0xFFFFFFFF, rw 0x130 0xFFFFFFFF,
  rw 0x134 0xFFFFFFFF, ro 0x138, ro 0x13C]

/-! ### IPP: Tables 6.11, R181 -/

def IPP_STATUS : Nat := 0xA0000
def IPP_LBSHORT : Nat := 0xA0004
def IPP_INST_LOAD (i : Nat) : Nat := 0xA0010 + 0x4 * i
def IPP_INST_JOBS (i : Nat) : Nat := 0xA0050 + 0x4 * i
def IPP_INST_INFO (i : Nat) : Nat := 0xA0090 + 0x4 * i
def IPP_SEL : Nat := 0xA0100
def IPP_SEL_STATE : Nat := 0xA0104
def IPP_SEL_OUT : Nat := 0xA0108
def IPP_SEL_PASSED : Nat := 0xA010C
def IPP_SEL_BUSY : Nat := 0xA0110
def IPP_SEL_TAINT : Nat := 0xA0114
def IPP_SEL_LAST : Nat := 0xA0118

/-- The rows of IPP. -/
def rowsIPP : List RegRow := [
  ro 0x0, rw 0x4 0xFFFFFFFF, (ro 0x10).arr 0x4 16, (ro 0x50).arr 0x4 16, (ro 0x90).arr 0x4 16, rw 0x100 0x3F,
  ro 0x104, ro 0x108, rw 0x10C 0xFFFFFFFF, rw 0x110 0xFFFFFFFF, rw 0x114 0xFFFFFFFF, ro 0x118]

/-! ### ENC: Tables 6.12, R182 -/

def ENC_STATUS : Nat := 0xB0000
def ENC_CORE_LOAD (i : Nat) : Nat := 0xB0010 + 0x4 * i
def ENC_SEL : Nat := 0xB0100
def ENC_SEL_STATE : Nat := 0xB0104
def ENC_SEL_SEQ : Nat := 0xB0108
def ENC_SEL_BUDGET : Nat := 0xB010C
def ENC_SEL_SKIPROWS : Nat := 0xB0110
def ENC_SEL_DROPPED : Nat := 0xB0114
def ENC_SEL_PASSED : Nat := 0xB0118
def ENC_SEL_FULL : Nat := 0xB011C
def ENC_SEL_QP : Nat := 0xB0120

/-- The rows of ENC. -/
def rowsENC : List RegRow := [
  ro 0x0 0xFF, (ro 0x10).arr 0x4 8, rw 0x100 0x1F, ro 0x104, ro 0x108, rw 0x10C 0xFFFFFFFF, rw 0x110 0xFFFFFFFF,
  rw 0x114 0xFFFFFFFF, rw 0x118 0xFFFFFFFF, ro 0x11C, ro 0x120]

/-! ### LDG: Tables 2.12-2.20, R59 -/

def LDG_STATUS : Nat := 0xC0000
def LDG_FREE : Nat := 0xC0004
def LDG_SWEEP : Nat := 0xC0008
def LDG_SWEEP_STAT : Nat := 0xC000C
def LDG_DROP : Nat := 0xC0010
def LDG_EXPIRED : Nat := 0xC0014
def LDG_ECC : Nat := 0xC0018
def LDG_ECC_CAP : Nat := 0xC001C
def LDG_SURF_SEL : Nat := 0xC0020
def LDG_SURF_STATE : Nat := 0xC0024
def LDG_SURF_MAP : Nat := 0xC0028
def LDG_SURF_DIM : Nat := 0xC002C

/-- The rows of LDG. -/
def rowsLDG : List RegRow := [
  ro 0x0, ro 0x4 0x40000, rw 0x8 0xFFFF 0xC350, ro 0xC, rw 0x10 0xFFFFFFFF, rw 0x14 0xFFFFFFFF, rw 0x18 0xFFFFFFFF,
  w1c 0x1C 0x80000000, rw 0x20 0xFFF, ro 0x24, ro 0x28, ro 0x2C]

/-! ### VRD: Tables 2.21-2.28, R60 -/

def VRD_STATUS : Nat := 0xD0000
def VRD_MARGIN : Nat := 0xD0004
def VRD_LATE : Nat := 0xD0008
def VRD_FUTURE : Nat := 0xD000C
def VRD_WDOG : Nat := 0xD0010
def VRD_COMMIT : Nat := 0xD0020
def VRD_COMMIT_STATUS : Nat := 0xD0024
def VRD_HEAD_BAND (i : Nat) : Nat := 0xD0040 + 0x4 * i
def VRD_STG_LIVE (i : Nat) : Nat := 0xD1000 + 0x20 * i
def VRD_STG_AGED (i : Nat) : Nat := 0xD1004 + 0x20 * i
def VRD_STG_TT0 (i : Nat) : Nat := 0xD1008 + 0x20 * i
def VRD_STG_TT1 (i : Nat) : Nat := 0xD100C + 0x20 * i
def VRD_STG_TT2 (i : Nat) : Nat := 0xD1010 + 0x20 * i
def VRD_ACT_LIVE (i : Nat) : Nat := 0xD1800 + 0x20 * i
def VRD_ACT_AGED (i : Nat) : Nat := 0xD1804 + 0x20 * i
def VRD_ACT_TT0 (i : Nat) : Nat := 0xD1808 + 0x20 * i
def VRD_ACT_TT1 (i : Nat) : Nat := 0xD180C + 0x20 * i
def VRD_ACT_TT2 (i : Nat) : Nat := 0xD1810 + 0x20 * i

/-- The rows of VRD. -/
def rowsVRD : List RegRow := [
  ro 0x0, ro 0x4, rw 0x8 0xFFFFFFFF, rw 0xC 0xFFFFFFFF, w1c 0x10 0x80000000, ro 0x20, ro 0x24,
  (ro 0x40).arr 0x4 16, (rw 0x1000 0xFFFFFFFF 0x186A0).arr 0x20 64, (rw 0x1004 0xFFFFFFFF 0xF4240).arr 0x20 64,
  (rw 0x1008 0xFFFFFFFF 0x5B0051).arr 0x20 64, (rw 0x100C 0xFFFFFFFF 0x6B0062).arr 0x20 64,
  (rw 0x1010 0xFFFF 0xF1).arr 0x20 64, (ro 0x1800 0x186A0).arr 0x20 64, (ro 0x1804 0xF4240).arr 0x20 64,
  (ro 0x1808 0x5B0051).arr 0x20 64, (ro 0x180C 0x6B0062).arr 0x20 64, (ro 0x1810 0xF1).arr 0x20 64]

/-! ### CMP: Tables 7.11, R216 -/

def CMP_STATUS : Nat := 0xE0000
def CMP_SLICE_LOAD (i : Nat) : Nat := 0xE0010 + 0x4 * i
def CMP_LAYERS : Nat := 0xE0020
def CMP_LSEL : Nat := 0xE0100
def CMP_LSEL_STATE : Nat := 0xE0104
def CMP_LSEL_SURF : Nat := 0xE0108
def CMP_LSEL_MISSED : Nat := 0xE010C
def CMP_LSEL_COMMITS : Nat := 0xE0110
def CMP_SEAL_CFG (i : Nat) : Nat := 0xE0200 + 0x20 * i
def CMP_SEAL_PART (i : Nat) : Nat := 0xE0204 + 0x20 * i
def CMP_SEAL_DONE (i : Nat) : Nat := 0xE0208 + 0x20 * i
def CMP_SEAL_CLOSED (i : Nat) : Nat := 0xE020C + 0x20 * i
def CMP_SEAL_HELD (i : Nat) : Nat := 0xE0210 + 0x20 * i
def CMP_SEAL_SPLIT (i : Nat) : Nat := 0xE0214 + 0x20 * i
def CMP_SEAL_FRAME (i : Nat) : Nat := 0xE0218 + 0x20 * i

/-- The rows of CMP. -/
def rowsCMP : List RegRow := [
  ro 0x0, (ro 0x10).arr 0x4 4, ro 0x20, rw 0x100 0xFF, ro 0x104, ro 0x108 0xFFF0FFF, rw 0x10C 0xFFFFFFFF,
  rw 0x110 0xFFFFFFFF, (ro 0x200).arr 0x20 16, (ro 0x204 0x1F).arr 0x20 16, (ro 0x208).arr 0x20 16,
  (ro 0x20C).arr 0x20 16, (rw 0x210 0xFFFF).arr 0x20 16, (rw 0x214 0xFFFFFFFF).arr 0x20 16, (ro 0x218).arr 0x20 16]

/-! ### VFY: Tables 8.10, R240 -/

def VFY_CFG : Nat := 0xF0000
def VFY_BAND_MIS : Nat := 0xF0004
def VFY_SCRIM_MIS : Nat := 0xF0008
def VFY_WB_MIS : Nat := 0xF000C
def VFY_BCAP_STATUS : Nat := 0xF0010
def VFY_BCAP_FRAME : Nat := 0xF0014
def VFY_BCAP_TAP : Nat := 0xF0018
def VFY_BCAP_TX : Nat := 0xF001C
def VFY_SCAP_STATUS : Nat := 0xF0020
def VFY_SCAP_FRAME : Nat := 0xF0024
def VFY_SCAP_COUNT : Nat := 0xF0028
def VFY_SCAP_EXP : Nat := 0xF002C
def VFY_WCAP_STATUS : Nat := 0xF0030
def VFY_WCAP_FRAME : Nat := 0xF0034
def VFY_WCAP_WR : Nat := 0xF0038
def VFY_WCAP_RD : Nat := 0xF003C
def VFY_HEAD_STATE (i : Nat) : Nat := 0xF0100 + 0x4 * i

/-- The rows of VFY. -/
def rowsVFY : List RegRow := [
  rw 0x0 0xF 0x3, rw 0x4 0xFFFFFFFF, rw 0x8 0xFFFFFFFF, rw 0xC 0xFFFFFFFF, w1c 0x10 0x80000000, ro 0x14, ro 0x18,
  ro 0x1C, w1c 0x20 0x80000000, ro 0x24, ro 0x28, ro 0x2C, w1c 0x30 0x80000000, ro 0x34, ro 0x38, ro 0x3C,
  (ro 0x100).arr 0x4 16]

/-! ### HD: Tables 7.12,8.11, R217,R241 -/

def HD_CTRL (n : Nat) : Nat := (16 + n) * 0x10000 + 0x0
def HD_CLK (n : Nat) : Nat := (16 + n) * 0x10000 + 0x4
def HD_H (n : Nat) : Nat := (16 + n) * 0x10000 + 0x8
def HD_HSYNC (n : Nat) : Nat := (16 + n) * 0x10000 + 0xC
def HD_V (n : Nat) : Nat := (16 + n) * 0x10000 + 0x10
def HD_VSYNC (n : Nat) : Nat := (16 + n) * 0x10000 + 0x14
def HD_FRAME_LO (n : Nat) : Nat := (16 + n) * 0x10000 + 0x18
def HD_FRAME_HI (n : Nat) : Nat := (16 + n) * 0x10000 + 0x1C
def HD_LINE (n : Nat) : Nat := (16 + n) * 0x10000 + 0x20
def HD_LINING (n : Nat) : Nat := (16 + n) * 0x10000 + 0x24
def HD_LINING_SURF (n : Nat) : Nat := (16 + n) * 0x10000 + 0x28
def HD_PULSE (n : Nat) : Nat := (16 + n) * 0x10000 + 0x2C
def HD_LAYERS (n : Nat) : Nat := (16 + n) * 0x10000 + 0x30
def HD_FLIP_MISSED (n : Nat) : Nat := (16 + n) * 0x10000 + 0x34
def HD_FENCE_LATE (n : Nat) : Nat := (16 + n) * 0x10000 + 0x38
def HD_WB_CFG (n : Nat) : Nat := (16 + n) * 0x10000 + 0x40
def HD_WB_BUF (n : Nat) : Nat := (16 + n) * 0x10000 + 0x44
def HD_WB_STATUS (n : Nat) : Nat := (16 + n) * 0x10000 + 0x48
def HD_WB_FRAMES (n : Nat) : Nat := (16 + n) * 0x10000 + 0x4C
def HD_WB_SKIP (n : Nat) : Nat := (16 + n) * 0x10000 + 0x50
def HD_TX_CFG (n : Nat) : Nat := (16 + n) * 0x10000 + 0x100
def HD_TX_STATE (n : Nat) : Nat := (16 + n) * 0x10000 + 0x104
def HD_TX_SETTINGS (n : Nat) : Nat := (16 + n) * 0x10000 + 0x108
def HD_TX_LINKST_LO (n : Nat) : Nat := (16 + n) * 0x10000 + 0x10C
def HD_TX_LINKST_HI (n : Nat) : Nat := (16 + n) * 0x10000 + 0x110
def HD_TX_HPD (n : Nat) : Nat := (16 + n) * 0x10000 + 0x114
def HD_TX_SKIP (n : Nat) : Nat := (16 + n) * 0x10000 + 0x118
def HD_TX_CRC_RG (n : Nat) : Nat := (16 + n) * 0x10000 + 0x11C
def HD_TX_CRC_B (n : Nat) : Nat := (16 + n) * 0x10000 + 0x120
def HD_TX_SINK_RG (n : Nat) : Nat := (16 + n) * 0x10000 + 0x124
def HD_TX_SINK_B (n : Nat) : Nat := (16 + n) * 0x10000 + 0x128
def HD_TX_SINK_MIS (n : Nat) : Nat := (16 + n) * 0x10000 + 0x12C
def HD_TX_SINK_STALE (n : Nat) : Nat := (16 + n) * 0x10000 + 0x130
def HD_TX_SINK_SKIP (n : Nat) : Nat := (16 + n) * 0x10000 + 0x134

/-- The rows of HD. -/
def rowsHD : List RegRow := [
  ro 0x0, ro 0x4, ro 0x8, ro 0xC, ro 0x10, ro 0x14, ro 0x18, ro 0x1C, ro 0x20, ro 0x24, ro 0x28, ro 0x2C, ro 0x30,
  rw 0x34 0xFFFFFFFF, rw 0x38 0xFFFFFFFF, ro 0x40, ro 0x44, ro 0x48, rw 0x4C 0xFFFFFFFF, rw 0x50 0xFFFFFFFF,
  ro 0x100, w1c 0x104 0x18, ro 0x108, ro 0x10C, ro 0x110, rw 0x114 0xFFFFFFFF, rw 0x118 0xFFFFFFFF, ro 0x11C,
  ro 0x120, ro 0x124, ro 0x128, rw 0x12C 0xFFFFFFFF, rw 0x130 0xFFFFFFFF, rw 0x134 0xFFFFFFFF]

/-! ### TCH: Tables 9.11, R267 -/

def TCH_STATUS (n : Nat) : Nat := (32 + n) * 0x10000 + 0x0
def TCH_PART (n : Nat) : Nat := (32 + n) * 0x10000 + 0x4
def TCH_GEOM (n : Nat) : Nat := (32 + n) * 0x10000 + 0x8
def TCH_SCANS (n : Nat) : Nat := (32 + n) * 0x10000 + 0xC
def TCH_NOISE (n : Nat) : Nat := (32 + n) * 0x10000 + 0x10
def TCH_REPORTS (n : Nat) : Nat := (32 + n) * 0x10000 + 0x14
def TCH_NORING (n : Nat) : Nat := (32 + n) * 0x10000 + 0x18
def TCH_OVER (n : Nat) : Nat := (32 + n) * 0x10000 + 0x1C
def TCH_WET (n : Nat) : Nat := (32 + n) * 0x10000 + 0x20
def TCH_STUCK (n : Nat) : Nat := (32 + n) * 0x10000 + 0x24
def TCH_SYNC_MISS (n : Nat) : Nat := (32 + n) * 0x10000 + 0x28
def TCH_TSYNC_FAST (n : Nat) : Nat := (32 + n) * 0x10000 + 0x2C
def TCH_PUMP (n : Nat) : Nat := (32 + n) * 0x10000 + 0x30
def TCH_CAL (n i : Nat) : Nat := (32 + n) * 0x10000 + 0x40 + 0x4 * i
def TCH_THR0 (n : Nat) : Nat := (32 + n) * 0x10000 + 0x60
def TCH_THR1 (n : Nat) : Nat := (32 + n) * 0x10000 + 0x64
def TCH_RING (n i : Nat) : Nat := (32 + n) * 0x10000 + 0x100 + 0x4 * i
def TCH_RING_SEQ (n i : Nat) : Nat := (32 + n) * 0x10000 + 0x180 + 0x4 * i

/-- The rows of TCH. -/
def rowsTCH : List RegRow := [
  ro 0x0, ro 0x4 0x1F, ro 0x8, ro 0xC, rw 0x10 0xFFFF0000, rw 0x14 0xFFFFFFFF, rw 0x18 0xFFFFFFFF,
  rw 0x1C 0xFFFFFFFF, rw 0x20 0xFFFFFFFF, rw 0x24 0xFFFFFFFF, rw 0x28 0xFFFFFFFF, rw 0x2C 0xFFFFFFFF,
  rw 0x30 0xFFFF0000, (ro 0x40).arr 0x4 6, ro 0x60 0x780190, ro 0x64 0xC80050, (ro 0x100).arr 0x4 16,
  (ro 0x180).arr 0x4 16]

/-! ### HIF: Tables 10.14, R294 -/

def HIF_PCI_ID : Nat := 0x220000
def HIF_HP_STATUS (i : Nat) : Nat := 0x220100 + 0x40 * i
def HIF_HP_PRIM (i : Nat) : Nat := 0x220104 + 0x40 * i
def HIF_HP_BAR2_BASE (i : Nat) : Nat := 0x220108 + 0x40 * i
def HIF_HP_DEBUG (i : Nat) : Nat := 0x22010C + 0x40 * i
def HIF_HP_DMA_ERR (i : Nat) : Nat := 0x220110 + 0x40 * i
def HIF_HP_DROPPED (i : Nat) : Nat := 0x220114 + 0x40 * i
def HIF_HP_DOWN (i : Nat) : Nat := 0x220118 + 0x40 * i

/-- The rows of HIF. -/
def rowsHIF : List RegRow := [
  ro 0x0, (ro 0x100).arr 0x40 4, (rw 0x104 0x1F 0x1F).arr 0x40 4, (rw 0x108 0xFFFFF).arr 0x40 4,
  (rw 0x10C 0x1).arr 0x40 4, (rw 0x110 0xFFFFFFFF).arr 0x40 4, (rw 0x114 0xFFFFFFFF).arr 0x40 4,
  (rw 0x118 0xFFFFFFFF).arr 0x40 4]

/-! ### PRT: Tables 10.15, R295 -/

def PRT_MGR : Nat := 0x230000
def PRT_STATUS : Nat := 0x230004
def PRT_BIND (i : Nat) : Nat := 0x230100 + 0x40 * i
def PRT_HEADS (i : Nat) : Nat := 0x230104 + 0x40 * i
def PRT_SURF (i : Nat) : Nat := 0x230108 + 0x40 * i
def PRT_LAYER (i : Nat) : Nat := 0x23010C + 0x40 * i
def PRT_CTX (i : Nat) : Nat := 0x230110 + 0x40 * i
def PRT_FLOW (i : Nat) : Nat := 0x230114 + 0x40 * i
def PRT_FOLLOW (i : Nat) : Nat := 0x230118 + 0x40 * i
def PRT_SESS (i : Nat) : Nat := 0x23011C + 0x40 * i
def PRT_EGR (i : Nat) : Nat := 0x230120 + 0x40 * i
def PRT_Q_LDG (i : Nat) : Nat := 0x230124 + 0x40 * i
def PRT_Q_DEC (i : Nat) : Nat := 0x230128 + 0x40 * i
def PRT_Q_IPP (i : Nat) : Nat := 0x23012C + 0x40 * i
def PRT_Q_ENC (i : Nat) : Nat := 0x230130 + 0x40 * i
def PRT_USE_LDG (i : Nat) : Nat := 0x230134 + 0x40 * i
def PRT_GEN (i : Nat) : Nat := 0x230138 + 0x40 * i

/-- The rows of PRT. -/
def rowsPRT : List RegRow := [
  rw 0x0 0x71F 0x1F, ro 0x4, (ro 0x100).arr 0x40 16, (ro 0x104).arr 0x40 16, (ro 0x108).arr 0x40 16,
  (ro 0x10C).arr 0x40 16, (ro 0x110).arr 0x40 16, (ro 0x114).arr 0x40 16, (ro 0x118).arr 0x40 16,
  (ro 0x11C).arr 0x40 16, (ro 0x120).arr 0x40 16, (ro 0x124).arr 0x40 16, (ro 0x128).arr 0x40 16,
  (ro 0x12C).arr 0x40 16, (ro 0x130).arr 0x40 16, (ro 0x134).arr 0x40 16, (ro 0x138).arr 0x40 16]

/-! ### SW: Tables 10.7, R275 -/

def PRT_SW_STATE (p : Nat) : Nat := windowBase p + 0x0
def PRT_SW_RUN (p : Nat) : Nat := windowBase p + 0x4
def PRT_SW_POLL (p : Nat) : Nat := windowBase p + 0x8
def PRT_SW_MIRROR (p : Nat) : Nat := windowBase p + 0xC
def PRT_SW_DB_LO (p : Nat) : Nat := windowBase p + 0x10
def PRT_SW_DB_HI (p : Nat) : Nat := windowBase p + 0x14
def PRT_SW_MIR_LO (p : Nat) : Nat := windowBase p + 0x18
def PRT_SW_MIR_HI (p : Nat) : Nat := windowBase p + 0x1C
def PRT_SW_RFAULT (p : Nat) : Nat := windowBase p + 0x20
def PRT_SW_CR_LO (p i : Nat) : Nat := windowBase p + 0x100 + 0x10 * i
def PRT_SW_CR_HI (p i : Nat) : Nat := windowBase p + 0x104 + 0x10 * i
def PRT_SW_CR_CFG (p i : Nat) : Nat := windowBase p + 0x108 + 0x10 * i
def PRT_SW_CP_LO (p i : Nat) : Nat := windowBase p + 0x200 + 0x10 * i
def PRT_SW_CP_HI (p i : Nat) : Nat := windowBase p + 0x204 + 0x10 * i
def PRT_SW_CP_CFG (p i : Nat) : Nat := windowBase p + 0x208 + 0x10 * i

/-- The rows of SW. -/
def rowsSW : List RegRow := [
  ro 0x0, ro 0x4, rw 0x8 0x1F03FF 0x1F0064, rw 0xC 0x10F, rw 0x10 0xFFFFFFFF, rw 0x14 0xFFFFFFFF,
  rw 0x18 0xFFFFFFFF, rw 0x1C 0xFFFFFFFF, ro 0x20, (rw 0x100 0xFFFFFFFF).arr 0x10 8,
  (rw 0x104 0xFFFFFFFF).arr 0x10 8, (rw 0x108 0x10F 0x4).arr 0x10 8, (rw 0x200 0xFFFFFFFF).arr 0x10 8,
  (rw 0x204 0xFFFFFFFF).arr 0x10 8, (rw 0x208 0x10F 0x4).arr 0x10 8]

/-! ### GATE: Tables 11.6-11.8, R315-R317 -/

def GATE_STATUS : Nat := 0x240000
def GATE_ISO_LATE : Nat := 0x240004
def GATE_FIX_CAP_INFO : Nat := 0x240010
def GATE_FIX_CAP_LO : Nat := 0x240014
def GATE_FIX_CAP_HI : Nat := 0x240018
def GATE_FIX_COUNT : Nat := 0x24001C
def GATE_PS_ATTR (i : Nat) : Nat := 0x240100 + 0x20 * i
def GATE_PS_ATTR_ACT (i : Nat) : Nat := 0x240104 + 0x20 * i
def GATE_PS_CTRL (i : Nat) : Nat := 0x240108 + 0x20 * i
def GATE_PS_CAP_INFO (i : Nat) : Nat := 0x24010C + 0x20 * i
def GATE_PS_CAP_OFF (i : Nat) : Nat := 0x240110 + 0x20 * i
def GATE_PS_COUNT (i : Nat) : Nat := 0x240114 + 0x20 * i
def GATE_MG_STATUS (i : Nat) : Nat := 0x241000 + 0x800 * i
def GATE_MG_CAP_INFO (i : Nat) : Nat := 0x241010 + 0x800 * i
def GATE_MG_CAP_LO (i : Nat) : Nat := 0x241014 + 0x800 * i
def GATE_MG_CAP_HI (i : Nat) : Nat := 0x241018 + 0x800 * i
def GATE_MG_COUNT (i : Nat) : Nat := 0x24101C + 0x800 * i

/-- The rows of GATE. -/
def rowsGATE : List RegRow := [
  ro 0x0 0x1, rw 0x4 0xFFFFFFFF, w1c 0x10 0x80000000, ro 0x14, ro 0x18, rw 0x1C 0xFFFFFFFF,
  (rw 0x100 0x1F1F 0x1C1F).arr 0x20 70, (ro 0x104 0x1C1F).arr 0x20 70, (ro 0x108 0x15).arr 0x20 70,
  (w1c 0x10C 0x80000000).arr 0x20 70, (ro 0x110).arr 0x20 70, (rw 0x114 0xFFFFFFFF).arr 0x20 70,
  (ro 0x1000 0x1).arr 0x800 8, (w1c 0x1010 0x80000000).arr 0x800 8, (ro 0x1014).arr 0x800 8,
  (ro 0x1018).arr 0x800 8, (rw 0x101C 0xFFFFFFFF).arr 0x800 8]

/-! ### EVC: Tables 12.4, R339 -/

def EVC_STATUS : Nat := 0x250000
def EVC_SETPEND : Nat := 0x250004
def EVC_CLRPEND : Nat := 0x250008
def EVC_MERGED : Nat := 0x25000C
def EVC_SPURIOUS : Nat := 0x250010
def EVC_EOI_ERR : Nat := 0x250014
def EVC_PEND (i : Nat) : Nat := 0x250040 + 0x4 * i
def EVC_CORE_CLAIM (i : Nat) : Nat := 0x250100 + 0x80 * i
def EVC_CORE_CLAIMED (i : Nat) : Nat := 0x250104 + 0x80 * i
def EVC_CORE_EOI (i : Nat) : Nat := 0x250108 + 0x80 * i
def EVC_CORE_THRESH (i : Nat) : Nat := 0x25010C + 0x80 * i
def EVC_CORE_STATUS (i : Nat) : Nat := 0x250110 + 0x80 * i
def EVC_SRC_CFG (i : Nat) : Nat := 0x251000 + 0x4 * i

/-- The rows of EVC. -/
def rowsEVC : List RegRow := [
  ro 0x0, ro 0x4, ro 0x8, rw 0xC 0xFFFFFFFF, rw 0x10 0xFFFFFFFF, rw 0x14 0xFFFFFFFF, (ro 0x40).arr 0x4 16,
  (ro 0x100).arr 0x80 4, (ro 0x104).arr 0x80 4, (ro 0x108).arr 0x80 4, (rw 0x10C 0x1F).arr 0x80 4,
  (ro 0x110).arr 0x80 4, (rw 0x1004 0xF7F).arr 0x4 511]

/-! ### DSK: Tables 12.5, R340 -/

def DSK_CTRL : Nat := 0x260000
def DSK_STATUS : Nat := 0x260004
def DSK_MTIME_LO : Nat := 0x260008
def DSK_MTIME_HI : Nat := 0x26000C
def DSK_CORE_PART (i : Nat) : Nat := 0x260100 + 0x40 * i
def DSK_CORE_VEC_LO (i : Nat) : Nat := 0x260104 + 0x40 * i
def DSK_CORE_VEC_HI (i : Nat) : Nat := 0x260108 + 0x40 * i
def DSK_CORE_CFG (i : Nat) : Nat := 0x26010C + 0x40 * i
def DSK_CORE_MSIP (i : Nat) : Nat := 0x260110 + 0x40 * i
def DSK_CORE_MTIMECMP_LO (i : Nat) : Nat := 0x260114 + 0x40 * i
def DSK_CORE_MTIMECMP_HI (i : Nat) : Nat := 0x260118 + 0x40 * i
def DSK_CORE_STATUS (i : Nat) : Nat := 0x26011C + 0x40 * i

/-- The rows of DSK. -/
def rowsDSK : List RegRow := [
  rw 0x0 0x10F, ro 0x4, ro 0x8, ro 0xC, (rw 0x100 0x1F 0x1F).arr 0x40 4,
  (rw 0x104 0xFFFFFFFC 0x1000000).arr 0x40 4, (rw 0x108 0xFF).arr 0x40 4, (rw 0x10C 0x3).arr 0x40 4,
  (rw 0x110 0x1).arr 0x40 4, (rw 0x114 0xFFFFFFFF 0xFFFFFFFF).arr 0x40 4,
  (rw 0x118 0xFFFFFFFF 0x7FFFFFFF).arr 0x40 4, (ro 0x11C 0x30).arr 0x40 4]

/-! ### CHN: Tables 13.12, R375 -/

def CHN_ADDR : Nat := 0x270000
def CHN_CMD : Nat := 0x270004
def CHN_ENUM_STATUS : Nat := 0x270008
def CHN_LOGICAL : Nat := 0x27000C
def CHN_MAP : Nat := 0x270010
def CHN_ROUTE : Nat := 0x270014
def CHN_HELLO_TO : Nat := 0x270018
def CHN_HELLO_WATCH : Nat := 0x27001C
def CHN_HELLO_LOST : Nat := 0x270020
def CHN_VAULT : Nat := 0x270024
def CHN_STALE : Nat := 0x270030
def CHN_RET : Nat := 0x270034
def CHN_NODEST : Nat := 0x270038
def CHN_CKPT_DROP : Nat := 0x27003C
def CHN_SEL : Nat := 0x270040
def CHN_SEL_MSGS : Nat := 0x270044
def CHN_SEL_PASSED : Nat := 0x270048
def CHN_P_CTRL (i : Nat) : Nat := 0x270100 + 0x40 * i
def CHN_P_STATE (i : Nat) : Nat := 0x270104 + 0x40 * i
def CHN_P_LANE (i : Nat) : Nat := 0x270108 + 0x40 * i
def CHN_P_SLIP (i : Nat) : Nat := 0x27010C + 0x40 * i
def CHN_P_WEIGHT (i : Nat) : Nat := 0x270110 + 0x40 * i
def CHN_P_TX_FLITS (i : Nat) : Nat := 0x270114 + 0x40 * i
def CHN_P_RX_FLITS (i : Nat) : Nat := 0x270118 + 0x40 * i
def CHN_P_CRC_ERR (i : Nat) : Nat := 0x27011C + 0x40 * i
def CHN_P_POISON (i : Nat) : Nat := 0x270120 + 0x40 * i
def CHN_P_REPLAY (i : Nat) : Nat := 0x270124 + 0x40 * i
def CHN_P_DEADEND (i : Nat) : Nat := 0x270128 + 0x40 * i
def CHN_P_CUT (i : Nat) : Nat := 0x27012C + 0x40 * i

/-- The rows of CHN. -/
def rowsCHN : List RegRow := [
  ro 0x0, ro 0x4, ro 0x8, rw 0xC 0xF, ro 0x10, rw 0x14 0xFF, rw 0x18 0x3FF 0xA, rw 0x1C 0xFF, w1c 0x20 0xFF,
  rw 0x24 0xF, rw 0x30 0xFFFFFFFF, rw 0x34 0xFFFFFFFF, rw 0x38 0xFFFFFFFF, rw 0x3C 0xFFFFFFFF, rw 0x40 0x3F,
  rw 0x44 0xFFFFFFFF, rw 0x48 0xFFFFFFFF, (rw 0x100 0x3).arr 0x40 2, (ro 0x104).arr 0x40 2, (ro 0x108).arr 0x40 2,
  (ro 0x10C).arr 0x40 2, (rw 0x110 0xFFF 0x144).arr 0x40 2, (rw 0x114 0xFFFFFFFF).arr 0x40 2,
  (rw 0x118 0xFFFFFFFF).arr 0x40 2, (rw 0x11C 0xFFFFFFFF).arr 0x40 2, (rw 0x120 0xFFFFFFFF).arr 0x40 2,
  (rw 0x124 0xFFFFFFFF).arr 0x40 2, (rw 0x128 0xFFFFFFFF).arr 0x40 2, (rw 0x12C 0xFFFFFFFF).arr 0x40 2]

/-! ### RDN: Tables 14.8, R399 -/

def RDN_ROLE : Nat := 0x280000
def RDN_CKPT_PERIOD : Nat := 0x280004
def RDN_CMD : Nat := 0x280008
def RDN_STATUS : Nat := 0x28000C
def RDN_CKPT_GEN : Nat := 0x280010
def RDN_CKPT_LEN : Nat := 0x280014
def RDN_SCRATCH_LO : Nat := 0x280018
def RDN_SCRATCH_HI : Nat := 0x28001C
def RDN_TOMARGIN : Nat := 0x280020
def RDN_TOGROWTH : Nat := 0x280024
def RDN_SWAP_PERIOD : Nat := 0x280028
def RDN_SWAP_AGE : Nat := 0x28002C
def RDN_COUNT : Nat := 0x280030
def RDN_CKPT_FAIL : Nat := 0x280034

/-- The rows of RDN. -/
def rowsRDN : List RegRow := [
  rw 0x0 0xFF077F, rw 0x4 0x1FFFF 0x107D0, ro 0x8, ro 0xC, ro 0x10, ro 0x14, rw 0x18 0xFFFFF000, rw 0x1C 0xFF,
  rw 0x20 0xFFFFFF 0xF4240, rw 0x24 0xFFFFFFFF 0x3E8, rw 0x28 0xFFFFFFFF 0x93A80, ro 0x2C, rw 0x30 0xFFFFFFFF,
  rw 0x34 0xFFFFFFFF]

/-! ### HWK: Tables 14.9, R400 -/

def HWK_STATUS : Nat := 0x290000
def HWK_SLOTA_GEN : Nat := 0x290004
def HWK_SLOTB_GEN : Nat := 0x290008
def HWK_ECC : Nat := 0x29000C
def HWK_CLEAR : Nat := 0x290010

/-- The rows of HWK. -/
def rowsHWK : List RegRow := [
  ro 0x0, ro 0x4, ro 0x8, rw 0xC 0xFFFFFFFF, ro 0x10]

/-! ### DCE: Tables 15.7, R423 -/

def DCE_STATUS (n : Nat) : Nat := (42 + n) * 0x10000 + 0x0
def DCE_JOBS (n : Nat) : Nat := (42 + n) * 0x10000 + 0x4
def DCE_FAILED (n : Nat) : Nat := (42 + n) * 0x10000 + 0x8
def DCE_OUT_FULL (n : Nat) : Nat := (42 + n) * 0x10000 + 0xC
def DCE_CHECK_FAIL (n : Nat) : Nat := (42 + n) * 0x10000 + 0x10
def DCE_IN_LO (n : Nat) : Nat := (42 + n) * 0x10000 + 0x14
def DCE_IN_HI (n : Nat) : Nat := (42 + n) * 0x10000 + 0x18
def DCE_OUT_LO (n : Nat) : Nat := (42 + n) * 0x10000 + 0x1C
def DCE_OUT_HI (n : Nat) : Nat := (42 + n) * 0x10000 + 0x20

/-- The rows of DCE. -/
def rowsDCE : List RegRow := [
  ro 0x0, rw 0x4 0xFFFFFFFF, rw 0x8 0xFFFFFFFF, rw 0xC 0xFFFFFFFF, rw 0x10 0xFFFFFFFF, ro 0x14, ro 0x18, ro 0x1C,
  ro 0x20]

/-! ### CRCU: Tables 15.8, R424 -/

def CRCU_STATUS (n : Nat) : Nat := (44 + n) * 0x10000 + 0x0
def CRCU_RES_STATUS (n : Nat) : Nat := (44 + n) * 0x10000 + 0x4
def CRCU_RES_LO (n : Nat) : Nat := (44 + n) * 0x10000 + 0x8
def CRCU_RES_HI (n : Nat) : Nat := (44 + n) * 0x10000 + 0xC
def CRCU_RES_BYTES (n : Nat) : Nat := (44 + n) * 0x10000 + 0x10
def CRCU_JOBS (n : Nat) : Nat := (44 + n) * 0x10000 + 0x14

/-- The rows of CRCU. -/
def rowsCRCU : List RegRow := [
  ro 0x0, ro 0x4, ro 0x8, ro 0xC, ro 0x10, rw 0x14 0xFFFFFFFF]

/-! ### QD: Tables 17.6,17.7, R476,R477 -/

def QD_CFG (n : Nat) : Nat := (52 + n) * 0x10000 + 0x0
def QD_STATUS (n : Nat) : Nat := (52 + n) * 0x10000 + 0x4
def QD_TEST_RATE (n : Nat) : Nat := (52 + n) * 0x10000 + 0x8
def QD_ETH_TX (n i : Nat) : Nat := (52 + n) * 0x10000 + 0x10 + 0x4 * i
def QD_ETH_TXERR (n i : Nat) : Nat := (52 + n) * 0x10000 + 0x20 + 0x4 * i
def QD_LANE_CTRL (n i : Nat) : Nat := (52 + n) * 0x10000 + 0x100 + 0x40 * i
def QD_LANE_STATE (n i : Nat) : Nat := (52 + n) * 0x10000 + 0x104 + 0x40 * i
def QD_LANE_TXEQ (n i : Nat) : Nat := (52 + n) * 0x10000 + 0x108 + 0x40 * i
def QD_LANE_TXEQ_ACT (n i : Nat) : Nat := (52 + n) * 0x10000 + 0x10C + 0x40 * i
def QD_LANE_RXEQ (n i : Nat) : Nat := (52 + n) * 0x10000 + 0x110 + 0x40 * i
def QD_LANE_DFE_LO (n i : Nat) : Nat := (52 + n) * 0x10000 + 0x114 + 0x40 * i
def QD_LANE_DFE_HI (n i : Nat) : Nat := (52 + n) * 0x10000 + 0x118 + 0x40 * i
def QD_LANE_SLIP (n i : Nat) : Nat := (52 + n) * 0x10000 + 0x11C + 0x40 * i
def QD_LANE_PRBS (n i : Nat) : Nat := (52 + n) * 0x10000 + 0x120 + 0x40 * i
def QD_LANE_PRBS_STAT (n i : Nat) : Nat := (52 + n) * 0x10000 + 0x124 + 0x40 * i
def QD_LANE_ERR (n i : Nat) : Nat := (52 + n) * 0x10000 + 0x128 + 0x40 * i
def QD_LANE_BITS_LO (n i : Nat) : Nat := (52 + n) * 0x10000 + 0x12C + 0x40 * i
def QD_LANE_BITS_HI (n i : Nat) : Nat := (52 + n) * 0x10000 + 0x130 + 0x40 * i
def QD_LANE_LOOP (n i : Nat) : Nat := (52 + n) * 0x10000 + 0x134 + 0x40 * i
def QD_LANE_LOOPSLIP (n i : Nat) : Nat := (52 + n) * 0x10000 + 0x138 + 0x40 * i

/-- The rows of QD. -/
def rowsQD : List RegRow := [
  rw 0x0 0x8, ro 0x4, rw 0x8 0x1FFFFFF 0x1896402, (rw 0x10 0xFFFFFFFF).arr 0x4 4, (rw 0x20 0xFFFFFFFF).arr 0x4 4,
  (rw 0x100 0xC3).arr 0x40 4, (ro 0x104 0xA).arr 0x40 4, (rw 0x108 0x3F3F3F 0x83000).arr 0x40 4,
  (ro 0x10C 0x83000).arr 0x40 4, (ro 0x110).arr 0x40 4, (ro 0x114).arr 0x40 4, (ro 0x118).arr 0x40 4,
  (ro 0x11C).arr 0x40 4, (rw 0x120 0x3F0077 0x10000).arr 0x40 4, (w1c 0x124 0x2).arr 0x40 4,
  (rw 0x128 0xFFFFFFFF).arr 0x40 4, (rw 0x12C 0xFFFFFFFF).arr 0x40 4, (rw 0x130 0xFFFF).arr 0x40 4,
  (rw 0x134 0x3).arr 0x40 4, (rw 0x138 0xFFFFFFFF).arr 0x40 4]

/-! ### ERR: Tables 18.6, R492 -/

def ERR_GLOG_PROD : Nat := 0x440000
def ERR_GLOG_CONS : Nat := 0x440004
def ERR_GLOG_CFG : Nat := 0x440008
def ERR_GLOG_OVF0 : Nat := 0x44000C
def ERR_GLOG_OVF1 : Nat := 0x440010
def ERR_YIELD (i : Nat) : Nat := 0x440020 + 0x4 * i
def ERR_YCAP_INFO : Nat := 0x440040
def ERR_YCAP_TIME_LO : Nat := 0x440044
def ERR_YCAP_TIME_HI : Nat := 0x440048
def ERR_YCAP_DET_LO : Nat := 0x44004C
def ERR_YCAP_DET_HI : Nat := 0x440050
def ERR_P_OVF0 (i : Nat) : Nat := 0x440100 + 0x10 * i
def ERR_P_OVF1 (i : Nat) : Nat := 0x440104 + 0x10 * i
def ERR_P_PROD (i : Nat) : Nat := 0x440108 + 0x10 * i
def ERR_P_PLOG_LO (i : Nat) : Nat := 0x440200 + 0x10 * i
def ERR_P_PLOG_HI (i : Nat) : Nat := 0x440204 + 0x10 * i
def ERR_P_PLOG_CFG (i : Nat) : Nat := 0x440208 + 0x10 * i

/-- The rows of ERR. -/
def rowsERR : List RegRow := [
  ro 0x0, rw 0x4 0xFFFFFFFF, rw 0x8 0x3, rw 0xC 0xFFFFFFFF, rw 0x10 0xFFFFFFFF, (ro 0x20).arr 0x4 8,
  w1c 0x40 0x80000000, ro 0x44, ro 0x48, ro 0x4C, ro 0x50, (rw 0x100 0xFFFFFFFF).arr 0x10 16,
  (rw 0x104 0xFFFFFFFF).arr 0x10 16, (ro 0x108).arr 0x10 16, (rw 0x200 0xFFFFFFFF).arr 0x10 16,
  (rw 0x204 0xFFFFFFFF).arr 0x10 16, (rw 0x208 0x10F 0x4).arr 0x10 16]

/-! ### DBG: Tables 16.15, R457 -/

def DBG_STATUS : Nat := 0x450000
def DBG_UID0 : Nat := 0x450008
def DBG_UID1 : Nat := 0x45000C
def DBG_NONCE (i : Nat) : Nat := 0x450010 + 0x4 * i
def DBG_CTRL : Nat := 0x450020
def DBG_FUSE_CTRL : Nat := 0x450024
def DBG_FUSE_STATUS : Nat := 0x450028
def DBG_KEYS : Nat := 0x45002C
def DBG_MIN_SV : Nat := 0x450030
def DBG_TOKEN (i : Nat) : Nat := 0x450100 + 0x4 * i
def DBG_FUSE_CMD (i : Nat) : Nat := 0x450200 + 0x4 * i

/-- The rows of DBG. -/
def rowsDBG : List RegRow := [
  ro 0x0, ro 0x8, ro 0xC, (ro 0x10).arr 0x4 4, ro 0x20, ro 0x24, ro 0x28, ro 0x2C, ro 0x30, (ro 0x100).arr 0x4 64,
  (ro 0x200).arr 0x4 128]

/-! ### Regions of a memory gate (R303, Table 11.8) -/

def MG_BASE (m r : Nat) : Nat := 0x241100 + 0x800 * m + 0x10 * r
def MG_ATTR (m r : Nat) : Nat := 0x241104 + 0x800 * m + 0x10 * r
def MG_PART (m r : Nat) : Nat := 0x241108 + 0x800 * m + 0x10 * r
def MG_CTRL (m r : Nat) : Nat := 0x24110C + 0x800 * m + 0x10 * r
def MG_BASE_ACT (m r : Nat) : Nat := 0x241400 + 0x800 * m + 0x10 * r
def MG_ATTR_ACT (m r : Nat) : Nat := 0x241404 + 0x800 * m + 0x10 * r
def MG_PART_ACT (m r : Nat) : Nat := 0x241408 + 0x800 * m + 0x10 * r

/-- The rows of one memory gate's regions, at offsets from the gate's own 0x800 bytes. -/
def rowsMG : List RegRow := [
  (rw 0x100 0x3F07FFFF).arr 0x10 32, (rw 0x104 0xFF1F1F1F).arr 0x10 32, (rw 0x108 0x8000FFFF).arr 0x10 32,
  (ro 0x10C 0x4).arr 0x10 32, (ro 0x400).arr 0x10 32, (ro 0x404).arr 0x10 32, (ro 0x408).arr 0x10 32]

/-- The row of a list that holds an offset. -/
def findRow (rows : List RegRow) (off : Nat) : Option RegRow :=
  rows.find? fun r => decide (r.off ≤ off) && (off - r.off) % r.stride == 0 && decide ((off - r.off) / r.stride < r.count)

/-- The rows of a block by slot (Table 1.6). -/
def blockRows (slot : Nat) : List RegRow :=
  if 16 ≤ slot ∧ slot ≤ 31 then rowsHD
  else if slot = 32 ∨ slot = 33 then rowsTCH
  else if slot = 42 ∨ slot = 43 then rowsDCE
  else if 44 ≤ slot ∧ slot ≤ 51 then rowsCRCU
  else if 52 ≤ slot ∧ slot ≤ 67 then rowsQD
  else match slot with
    | 0 => rowsSYS | 1 => rowsAO | 2 => rowsMGT | 3 => rowsCLK | 4 => rowsPWR | 5 => rowsTB | 6 => rowsETH
    | 7 => rowsFLW | 8 => rowsSTR | 9 => rowsDEC | 10 => rowsIPP | 11 => rowsENC | 12 => rowsLDG | 13 => rowsVRD
    | 14 => rowsCMP | 15 => rowsVFY | 34 => rowsHIF | 35 => rowsPRT | 36 => rowsGATE | 37 => rowsEVC | 38 => rowsDSK
    | 39 => rowsCHN | 40 => rowsRDN | 41 => rowsHWK | 68 => rowsERR | 69 => rowsDBG
    | _ => []

/-- The row of an internal address (R514), none for a reserved one (R8). -/
def rowAt (addr : Nat) : Option RegRow :=
  if addr < 0x460000 then
    let slot := addr / 0x10000
    let off := addr % 0x10000
    if slot = 36 ∧ 0x1000 ≤ off ∧ off < 0x5000 ∧ 0x100 ≤ (off - 0x1000) % 0x800 then findRow rowsMG ((off - 0x1000) % 0x800)
    else findRow (blockRows slot) off
  else if 0xF00000 ≤ addr ∧ addr < 0x1000000 then findRow rowsSW (addr % 0x10000)
  else none

/-- The ceiling and reset masks of a peripheral slot (Table 11.2, R301): read mask in bits 4:0, write mask in 12:8. -/
def psReset (s : Nat) : Nat :=
  if [7, 8, 9, 10, 11, 13, 14, 32, 33, 35].contains s then 0x1F1F else if s = 69 then 0x181C else 0x1C1F

/-- The use code of a quad at reset (Table 17.1, Table 20.2). -/
def quadUseReset (n : Nat) : Nat :=
  if n < 4 then 0 else if n = 4 then 1 else if n < 7 then 2 else if n < 15 then 3 else 4

/-- The bits of ERR_YIELDw that are fixed at 1 (R487, Table 20.2). -/
def yieldFixed (w : Nat) : Nat := if w = 1 then 0xB0000 else if w = 4 then 4 else if w = 5 then 1 else 0

/-- The reset word of a register (R515). Fused, strapped and part-dependent words are composed where they are read. -/
def regReset (addr : Nat) : Word :=
  let slot := addr / 0x10000
  let off := addr % 0x10000
  if slot = 36 ∧ 0x100 ≤ off ∧ off < 0x9C0 ∧ (off % 0x20 = 0 ∨ off % 0x20 = 4) then
    BitVec.ofNat 32 (psReset ((off - 0x100) / 0x20))
  else if addr = GATE_PS_CTRL 36 then 0x1D
  else if 52 ≤ slot ∧ slot ≤ 67 ∧ off = 0 then BitVec.ofNat 32 (quadUseReset (slot - 52))
  else if slot = 68 ∧ 0x20 ≤ off ∧ off < 0x40 then BitVec.ofNat 32 (yieldFixed ((off - 0x20) / 4))
  else match rowAt addr with
    | some r => BitVec.ofNat 32 r.reset
    | none => 0

end Sys2Proof.Machine
end

