-- ==== Sys2Proof/Machine/Ops.lean ====
section
/-!
DEFINITION. The named operations over the state: sparse tables in canonical form, one reader and one writer per table,
registers and their fields (R6, R18), saturating counters, device memory in little-endian order (R9), device time
(R61), the model's counter of free values, the powered domains (R14).
-/

namespace Sys2Proof.Machine

/-! ### Sparse tables -/

/-- The entry of key `k`, the default of `k` where none is listed. -/
def tget {α : Type} (d : Nat → α) : Tbl α → Nat → α
  | [], k => d k
  | (j, u) :: t, k => if j = k then u else tget d t k

/-- Puts an entry at its place. -/
def tput {α : Type} : Tbl α → Nat → α → Tbl α
  | [], k, v => [(k, v)]
  | (j, u) :: t, k, v =>
    if j < k then (j, u) :: tput t k v
    else if j = k then (k, v) :: t
    else (k, v) :: (j, u) :: t

/-- Sets the entry of `k`; writing the default removes it. Keys stay strictly rising. -/
def tset {α : Type} [DecidableEq α] (d : Nat → α) (t : Tbl α) (k : Nat) (v : α) : Tbl α :=
  if v = d k then t.filter (fun x => x.1 != k) else tput t k v

/-- Keys strictly rising above `lo`, no entry equal to the default of its key. -/
def twfFrom {α : Type} [DecidableEq α] (d : Nat → α) : Option Nat → Tbl α → Bool
  | _, [] => true
  | lo, (j, u) :: t =>
    (match lo with | none => true | some l => decide (l < j)) && !decide (u = d j) && twfFrom d (some j) t

/-- The canonical form of a table. -/
def twf {α : Type} [DecidableEq α] (d : Nat → α) (t : Tbl α) : Bool := twfFrom d none t

/-! ### Registers -/

/-- The stored word of a register. -/
def State.reg (s : State) (a : Nat) : Word := tget regReset s.regs a

/-- Sets the stored word of a register. -/
def State.setReg (s : State) (a : Nat) (v : Word) : State := { s with regs := tset regReset s.regs a v }

/-- Field `[lo+n-1:lo]` of a register. -/
def State.fld (s : State) (a lo n : Nat) : Nat := bitsOf (s.reg a).toNat lo n

/-- Bit `i` of a register. -/
def State.bit (s : State) (a i : Nat) : Bool := bitOf (s.reg a).toNat i

/-- A word with field `[lo+n-1:lo]` replaced. -/
def putBits (w : Word) (lo n v : Nat) : Word :=
  let o := w.toNat
  BitVec.ofNat 32 (o - bitsOf o lo n * 2 ^ lo + v % 2 ^ n * 2 ^ lo)

/-- Sets a field of a register. -/
def State.setFld (s : State) (a lo n v : Nat) : State := s.setReg a (putBits (s.reg a) lo n v)

/-- Sets bit `i` of a register. -/
def State.setBit (s : State) (a i : Nat) (b : Bool) : State := s.setFld a i 1 (Bool.nat b)

/-- Adds `k` to a counter field of `n` bits, saturating. -/
def State.add (s : State) (a lo n k : Nat) : State := s.setFld a lo n (capAt (2 ^ n - 1) (s.fld a lo n + k))

/-- Counts one in a 32-bit saturating counter. -/
def State.inc (s : State) (a : Nat) : State := s.add a 0 32 1

/-- Counts one in a field that wraps. -/
def State.wrapInc (s : State) (a lo n : Nat) : State := s.setFld a lo n (s.fld a lo n + 1)

/-- A 32-bit saturating count. -/
def satInc (c : BitVec 32) (k : Nat := 1) : BitVec 32 := BitVec.ofNat 32 (capAt 0xFFFFFFFF (c.toNat + k))

/-- A 16-bit saturating count. -/
def satInc16 (c : BitVec 16) (k : Nat := 1) : BitVec 16 := BitVec.ofNat 16 (capAt 0xFFFF (c.toNat + k))

/-- The 64-bit value of a LO and HI pair. -/
def State.pair (s : State) (lo hi : Nat) : Nat := (s.reg lo).toNat + 2 ^ 32 * (s.reg hi).toNat

/-- Sets a LO and HI pair. -/
def State.setPair (s : State) (lo hi v : Nat) : State :=
  (s.setReg lo (BitVec.ofNat 32 v)).setReg hi (BitVec.ofNat 32 (v / 2 ^ 32))

/-- Opens a result record (R291): valid 0, the generation of `[31:16]` as before. -/
def State.resultOpen (s : State) (a : Nat) : State := s.setBit a 0 false

/-- Decides a result record (R291): valid 1, the generation advanced, the result bits `[15:1]` as given. -/
def State.resultDone (s : State) (a bits : Nat) : State :=
  s.setReg a (BitVec.ofNat 32 (1 + bits % 2 ^ 15 * 2 + (s.fld a 16 16 + 1) % 2 ^ 16 * 2 ^ 16))

/-! ### Memory -/

/-- What a byte that nothing has written reads as. DESIGN CHOICE (log 4): the spec gives no content after power-up. -/
def memUnlisted (_ : Nat) : Byte := 0

/-- One byte of memory. -/
def State.load8 (s : State) (a : Nat) : Byte := tget memUnlisted s.mem a

/-- The canonical form of memory. -/
def Memory.wf (m : List Host.Cell) : Bool := twf memUnlisted m

/-- `n` bytes of memory from `a`. -/
def State.load (s : State) (a n : Nat) : Bytes := (List.range n).map fun i => s.load8 (a + i)

/-- The little-endian number of `n` bytes at `a`. -/
def State.loadN (s : State) (a n : Nat) : Nat := leNat (s.load a n)

/-- Stores bytes from `a` upward. -/
def storeBytes : List Host.Cell → Nat → Bytes → List Host.Cell
  | m, _, [] => m
  | m, a, b :: bs => storeBytes (tset memUnlisted m a b) (a + 1) bs

/-- Stores bytes in memory. -/
def State.store (s : State) (a : Nat) (bs : Bytes) : State := { s with mem := storeBytes s.mem a bs }

/-- Stores `n` bytes of a number, little-endian. -/
def State.storeN (s : State) (a n v : Nat) : State := s.store a (leBytes n v)

/-- Drops the bytes of a range: it reads as nothing written. -/
def State.forget (s : State) (a n : Nat) : State :=
  { s with mem := s.mem.filter fun c => decide (c.1 < a) || decide (a + n ≤ c.1) }

/-! ### Records of the tables -/

def State.tg (s : State) (g : Nat) : TGroup := tget (fun _ => {}) s.tgs g
def State.setTg (s : State) (g : Nat) (v : TGroup) : State := { s with tgs := tset (fun _ => {}) s.tgs g v }
def State.flow (s : State) (f : Nat) : Flow := tget (fun _ => {}) s.flows f
def State.setFlow (s : State) (f : Nat) (v : Flow) : State := { s with flows := tset (fun _ => {}) s.flows f v }
def State.ctx (s : State) (c : Nat) : Ctx := tget (fun _ => {}) s.ctxs c
def State.setCtx (s : State) (c : Nat) (v : Ctx) : State := { s with ctxs := tset (fun _ => {}) s.ctxs c v }
def State.egr (s : State) (e : Nat) : Egress := tget (fun _ => {}) s.egress e
def State.setEgr (s : State) (e : Nat) (v : Egress) : State := { s with egress := tset (fun _ => {}) s.egress e v }
def State.follow (s : State) (f : Nat) : Follow := tget (fun _ => {}) s.follows f
def State.setFollow (s : State) (f : Nat) (v : Follow) : State := { s with follows := tset (fun _ => {}) s.follows f v }
def State.ippW (s : State) (i : Nat) : Option IppWork := tget (fun _ => none) s.ipp i
def State.setIppW (s : State) (i : Nat) (v : Option IppWork) : State := { s with ipp := tset (fun _ => none) s.ipp i v }
def State.enc (s : State) (e : Nat) : Enc := tget (fun _ => {}) s.encs e
def State.setEnc (s : State) (e : Nat) (v : Enc) : State := { s with encs := tset (fun _ => {}) s.encs e v }
def State.surf (s : State) (n : Nat) : Surface := tget (fun _ => {}) s.surfs n
def State.setSurf (s : State) (n : Nat) (v : Surface) : State := { s with surfs := tset (fun _ => {}) s.surfs n v }
def State.led (s : State) (e : Nat) : LEntry := tget (fun _ => {}) s.ledger e
def State.setLed (s : State) (e : Nat) (v : LEntry) : State := { s with ledger := tset (fun _ => {}) s.ledger e v }
def State.layer (s : State) (l : Nat) : Layer := tget (fun _ => {}) s.layers l
def State.setLayer (s : State) (l : Nat) (v : Layer) : State := { s with layers := tset (fun _ => {}) s.layers l v }
def State.head (s : State) (n : Nat) : Head := tget (fun _ => {}) s.heads n
def State.setHead (s : State) (n : Nat) (v : Head) : State := { s with heads := tset (fun _ => {}) s.heads n v }
def State.grp (s : State) (g : Nat) : SealGrp := tget (fun _ => {}) s.seals g
def State.setGrp (s : State) (g : Nat) (v : SealGrp) : State := { s with seals := tset (fun _ => {}) s.seals g v }
def State.tch (s : State) (p : Nat) : Touch := tget (fun _ => {}) s.touch p
def State.setTch (s : State) (p : Nat) (v : Touch) : State := { s with touch := tset (fun _ => {}) s.touch p v }
def State.part (s : State) (p : Nat) : Part := tget (fun _ => {}) s.parts p
def State.setPart (s : State) (p : Nat) (v : Part) : State := { s with parts := tset (fun _ => {}) s.parts p v }
def State.src (s : State) (i : Nat) : Src := tget (fun _ => {}) s.srcs i
def State.setSrc (s : State) (i : Nat) (v : Src) : State := { s with srcs := tset (fun _ => {}) s.srcs i v }
def State.desk (s : State) (k : Nat) : Desk := tget (fun _ => {}) s.desks k
def State.setDesk (s : State) (k : Nat) (v : Desk) : State := { s with desks := tset (fun _ => {}) s.desks k v }
def State.port (s : State) (p : Nat) : ChnPort := tget (fun _ => {}) s.chain.ports p
def State.setPort (s : State) (p : Nat) (v : ChnPort) : State :=
  { s with chain := { s.chain with ports := tset (fun _ => {}) s.chain.ports p v } }
def State.peer (s : State) (a : Nat) : Peer := tget (fun _ => {}) s.chain.peers a
def State.setPeer (s : State) (a : Nat) (v : Peer) : State :=
  { s with chain := { s.chain with peers := tset (fun _ => {}) s.chain.peers a v } }
def State.txStream (s : State) (i : Nat) : TxSlot := tget (fun _ => {}) s.chain.txS i
def State.setTxStream (s : State) (i : Nat) (v : TxSlot) : State :=
  { s with chain := { s.chain with txS := tset (fun _ => {}) s.chain.txS i v } }
def State.txSurf (s : State) (i : Nat) : TxSlot := tget (fun _ => {}) s.chain.txF i
def State.setTxSurf (s : State) (i : Nat) (v : TxSlot) : State :=
  { s with chain := { s.chain with txF := tset (fun _ => {}) s.chain.txF i v } }
def State.rxSurf (s : State) (i : Nat) : RxSlot := tget (fun _ => {}) s.chain.rxF i
def State.setRxSurf (s : State) (i : Nat) (v : RxSlot) : State :=
  { s with chain := { s.chain with rxF := tset (fun _ => {}) s.chain.rxF i v } }
def State.dceW (s : State) (e : Nat) : Option DceWork := tget (fun _ => none) s.dce e
def State.setDceW (s : State) (e : Nat) (v : Option DceWork) : State := { s with dce := tset (fun _ => none) s.dce e v }
def State.crcW (s : State) (u : Nat) : Option Nat := tget (fun _ => none) s.crcu u
def State.setCrcW (s : State) (u : Nat) (v : Option Nat) : State := { s with crcu := tset (fun _ => none) s.crcu u v }
def cring (p : Part) (r : Nat) : CRing := tget (fun _ => {}) p.rings r
def setCring (p : Part) (r : Nat) (v : CRing) : Part := { p with rings := tset (fun _ => {}) p.rings r v }
def kring (p : Part) (r : Nat) : KRing := tget (fun _ => {}) p.krings r
def setKring (p : Part) (r : Nat) (v : KRing) : Part := { p with krings := tset (fun _ => {}) p.krings r v }

/-! ### Time, free values, outputs -/

/-- Device time in ns (R61). -/
def State.now (s : State) : Nat := s.tbase.val.toNat / 2 ^ 64

/-- The device time that has passed since `t` ns, as the signed difference that R79 makes of two times. -/
def State.since (s : State) (t : Nat) : Int := timeDiff (BitVec.ofNat 64 s.now) (BitVec.ofNat 64 t)

/-- Device time in units of 2⁻¹⁶ ns, as registers and descriptors present it. -/
def State.now16 (s : State) : Nat := s.tbase.val.toNat / 2 ^ 48

/-- The ledger tick now (R27). -/
def State.tick (s : State) : BitVec 32 := tickOf s.now

/-- Takes one free value's number. -/
def State.draw (s : State) : State := { s with free := s.free + 1 }

/-- Takes the numbers of `n` free values. -/
def State.draws (s : State) (n : Nat) : State := { s with free := s.free + n }

/-- Records an output. -/
def State.emit (s : State) (o : Out) : State := { s with outbox := s.outbox ++ [o] }

/-- What the last access returned, with how it failed for an initiator that sees it. -/
def State.answer (s : State) (bs : Bytes) (exc : Option Exc := none) : State := { s with bus := ⟨bs, exc.isNone, exc⟩ }

/-- The taps that a protocol's own procedure settled on for a lane (R468): not stated, so a free value. -/
def State.settleTaps (s : State) (n l : Nat) : State :=
  (s.setReg (QD_LANE_TXEQ_ACT n l) (Config.protocolTaps s.free &&& 0x3F3F3F)).draw

/-- A PLL served work until now (R435). -/
def State.pllUsed (s : State) (p : Nat) : State := { s with pwr := { s.pwr with used := tset (fun _ => 0) s.pwr.used p s.island } }

/-- Whether a PLL is locked, 56 µs after its start: an engine's clock runs 4 µs later (R434). -/
def State.pllLocked (s : State) (p : Nat) : Bool := s.bit (CLK_PLL_STATUS p) 0 && decide (tget (fun _ => 0) s.pwr.lock p ≤ s.island)

/-- Starts a PLL that stands (R434, R435); in the stop of THERMAL_SHUTDOWN only FAB and TB run (R441). -/
def pllStart (s : State) (p : Nat) : State :=
  if s.bit (CLK_PLL_STATUS p) 0 || (s.pwr.halted && p != 0 && p != 4) then s
  else
    let s := ((s.setReg (CLK_PLL_STATUS p) 1).inc (CLK_PLL_STAT p)).pllUsed p
    { s with pwr := { s.pwr with lock := tset (fun _ => 0) s.pwr.lock p (s.island + 56000) } }

/-- Stops a PLL. -/
def pllStop (s : State) (p : Nat) : State := s.setReg (CLK_PLL_STATUS p) 0

/-- Every PLL but FAB and TB stops, and every engine clock with them (R441). -/
def thermalHalt (s : State) : State :=
  [1, 2, 3, 8, 9, 10, 11, 12, 13, 14, 15].foldl pllStop { s with pwr := { s.pwr with halted := true } }

/-- An item ends: its clock is slowed over a microsecond for each 60 tokens begun, and then stops (R438). -/
def PwrItem.stopping (i : PwrItem) (now : Nat) : PwrItem :=
  if i.ended then i else { i with ended := true, due := now + 1000 * ceilDiv i.tokens 60 }

/-! ### Lanes -/

/-- The number of a lane in the tables of lanes. -/
def laneNo (n l : Nat) : Nat := 4 * n + l

/-- Bits that a locked checker has counted since the registers were last settled, at the test rate (R473). -/
def bitsSince (s : State) (n l : Nat) : Nat :=
  match tget (fun _ => 0) s.lockAt (laneNo n l) with
  | 0 => 0
  | t + 1 => (s.island - t) * s.fld (QD_TEST_RATE n) 0 25 / 1000000

/-- QDn_LANEl_BITS: 48 bits, saturating. -/
def laneBits (s : State) (n l : Nat) : Nat :=
  capAt (2 ^ 48 - 1) (s.pair (QD_LANE_BITS_LO n l) (QD_LANE_BITS_HI n l) + bitsSince s n l)

/-- Puts the count into the registers; counting goes on from here while the checker is locked. -/
def settleBits (s : State) (n l : Nat) : State :=
  let t := tget (fun _ => 0) s.lockAt (laneNo n l)
  let s := s.setPair (QD_LANE_BITS_LO n l) (QD_LANE_BITS_HI n l) (laneBits s n l)
  { s with lockAt := tset (fun _ => 0) s.lockAt (laneNo n l) (if t = 0 then 0 else s.island + 1) }

/-- Whether the protocol of a lane is without signal: its quad is detached, or a direction is forced out of P0 (R464,
R471). -/
def laneDeaf (s : State) (n l : Nat) : Bool :=
  s.bit (QD_CFG n) 3 || decide (2 ≤ s.fld (QD_LANE_CTRL n l) 2 2) || decide (2 ≤ s.fld (QD_LANE_CTRL n l) 4 2)

/-! ### The part and its domains -/

/-- The number of head slots, decode cores, encode cores and touch ports present (R2). -/
def State.nHeads (s : State) : Nat := if s.fuses.is6408 then 8 else 16
def State.nDec (s : State) : Nat := if s.fuses.is6408 then 8 else 16
def State.nEnc (s : State) : Nat := if s.fuses.is6408 then 4 else 8
def State.nTch (s : State) : Nat := if s.fuses.is6408 then 1 else 2

/-- Whether a block is absent on the part (R3). -/
def State.absent (s : State) (slot : Nat) : Bool :=
  s.fuses.is6408 && ((decide (24 ≤ slot) && decide (slot ≤ 31)) || slot == 33)

/-- Whether the domain of a block is powered (R14, Table 1.6). -/
def State.powered (s : State) (slot : Nat) : Bool :=
  if slot ≤ 2 then s.ctl.mode != .off
  else if [39, 40, 41, 57, 58].contains slot then s.ctl.ring
  else s.ctl.core

/-- The mode codes of Table 16.5. -/
def Mode.code : Mode → Nat
  | .off => 0 | .keep => 1 | .prime => 2 | .shadow => 3 | .run => 4 | .handover => 5 | .yield => 6 | .test => 7

/-- The mode of a code of Table 16.5. -/
def modeOf : Nat → Mode
  | 1 => .keep | 2 => .prime | 3 => .shadow | 4 => .run | 5 => .handover | 6 => .yield | 7 => .test | _ => .off

/-- Whether Soile descriptors are fetched and executed in the mode (R288). -/
def Mode.soile : Mode → Bool
  | .prime | .shadow | .run | .handover | .test => true
  | _ => false

/-- The logical ID and holder bit of this unit (R357), and its physical address (R354). -/
def State.logicalId (s : State) : Nat := s.fld CHN_LOGICAL 0 3
def State.holder (s : State) : Bool := s.bit CHN_LOGICAL 3
def State.physAddr (s : State) : Nat := s.fld CHN_ADDR 0 3

/-- Inserts one item after all that a test keeps in front of it. -/
def insertAfter {α : Type} (before : α → Bool) (x : α) : List α → List α
  | [] => [x]
  | y :: ys => if before y then y :: insertAfter before x ys else x :: y :: ys

/-- Folds a state over numbers `0 … n-1`. -/
def State.each (s : State) (n : Nat) (f : State → Nat → State) : State := (List.range n).foldl f s

end Sys2Proof.Machine
end

