-- ==== Sys2Proof/Machine/Evc.lean ====
section
/-!
DEFINITION. The event concentrator (R327–R338): pending and in-service bits, what is offered to a core, arbitration
with its lines and wake latches, hardware inputs as levels and pulses.
-/

namespace Sys2Proof.Machine

/-- The fields of EVC_SRCi_CFG (Table 12.4). -/
def srcPrio (s : State) (i : Nat) : Nat := s.fld (EVC_SRC_CFG i) 0 5
def srcLevel (s : State) (i : Nat) : Bool := s.bit (EVC_SRC_CFG i) 5
def srcLowest (s : State) (i : Nat) : Bool := s.bit (EVC_SRC_CFG i) 6
def srcMask (s : State) (i : Nat) : Nat := s.fld (EVC_SRC_CFG i) 8 4

/-- Whether a source ID names one of the 511 sources (R327). -/
def srcId (i : Nat) : Bool := decide (0 < i) && decide (i < 512)

/-- A core held in reset (R323), its running priority (R331). -/
def coreReset (s : State) (k : Nat) : Bool := !s.bit DSK_CTRL k
def coreRunning (s : State) (k : Nat) : Nat := match (s.desk k).stack with | [] => 0 | e :: _ => e.2

/-- Whether core `k` can take a source of priority `p` (R331). -/
def canTake (s : State) (k p : Nat) : Bool :=
  !coreReset s k && decide (s.fld (EVC_CORE_THRESH k) 0 5 < p) && decide (coreRunning s k < p)
    && decide ((s.desk k).stack.length < 16)

/-- `lp_target` of R333. -/
def lpTarget (s : State) (i : Nat) : Option Nat :=
  let p := srcPrio s i
  let ks := [0, 1, 2, 3].filter fun k => bitOf (srcMask s i) k && !coreReset s k
  let awake := ks.filter fun k => !(s.desk k).asleep && !(s.desk k).halted && canTake s k p
  match awake with
  | k :: rest => some (rest.foldl (fun b j => if coreRunning s j < coreRunning s b then j else b) k)
  | [] => if ks.all fun k => (s.desk k).asleep then ks.find? fun k => canTake s k p else none

/-- Whether source `i` is offered to core `k` (R331–R333). -/
def offered (s : State) (k i : Nat) : Bool :=
  let e := s.src i
  e.pending && !e.serv && decide (0 < srcPrio s i)
    && (if srcLowest s i then lpTarget s i == some k else bitOf (srcMask s i) k && canTake s k (srcPrio s i))

/-- The sources offered to core `k`, lowest ID first. -/
def offeredTo (s : State) (k : Nat) : List Nat := (s.srcs.map (·.1)).filter fun i => offered s k i

/-- The source a claim of core `k` takes: highest priority, lowest ID (R335). -/
def claimOf (s : State) (k : Nat) : Option Nat :=
  match offeredTo s k with
  | [] => none
  | i :: rest => some (rest.foldl (fun b j => if srcPrio s b < srcPrio s j then j else b) i)

/-! ### Interrupts of a core -/

/-- DSK_MTIME (R324). -/
def mtime (s : State) : BitVec 64 := BitVec.ofNat 64 (s.now / 1000)

/-- Whether the timer of core `k` has expired (R324). -/
def timerDue (s : State) (k : Nat) : Bool :=
  decide ((mtime s - BitVec.ofNat 64 (s.pair (DSK_CORE_MTIMECMP_LO k) (DSK_CORE_MTIMECMP_HI k))).toInt ≥ 0)

/-- mip of core `k` as the block drives it (R324, R331): MSIP bit 3, MTIP bit 7, SEIP bit 9, MEIP bit 11. MTIP is 1 exactly
while the timer is due. -/
def mip (s : State) (k : Nat) : Nat :=
  let ext := Bool.nat (s.desk k).line
  Bool.nat (s.bit (DSK_CORE_MSIP k) 0) * 2 ^ 3 + Bool.nat (timerDue s k) * 2 ^ 7
    + (if s.bit (DSK_CORE_CFG k) 1 then ext * 2 ^ 9 else ext * 2 ^ 11)

/-- Whether mip & mie of core `k` is non-zero, so that it leaves its WFI (R325). -/
def wfiOver (s : State) (k : Nat) : Bool := decide (mip s k &&& (s.desk k).mie ≠ 0)

/-- A core in WFI whose clock runs goes on once mip & mie is non-zero; its wake latch clears (R325, R338). -/
def wfiResume (s : State) (k : Nat) : State :=
  let d := s.desk k
  if d.wfi && !d.asleep && wfiOver s k then s.setDesk k { d with wfi := false, wake := false } else s

/-! ### Arbitration -/

/-- One arbitration (R334): each core's line, its record of signalling (R335) and its wake latch (R338). -/
def arbitrate (s : State) : State :=
  s.each 4 fun s k =>
    let d := s.desk k
    let l := !(offeredTo s k).isEmpty
    wfiResume (s.setDesk k { d with line := l, signalled := d.signalled || l, wake := d.wake || (l && d.asleep) }) k

/-- Whether the concentrator runs: core domain powered and not stopped for THERMAL_SHUTDOWN (R326). -/
def evcRuns (s : State) : Bool := s.ctl.core && !s.pwr.halted

/-- Whether every core is asleep (R325). -/
def allAsleep (s : State) : Bool := ([0, 1, 2, 3] : List Nat).all fun k => (s.desk k).asleep

/-- Whether the desk PLL is gated and the arbiter stops (R325): all cores asleep, DSK_CTRL.deep, no wake latch set, and no enabled
LEVEL source whose input is high, which would restart it (R338). -/
def evcGated (s : State) : Bool :=
  s.bit DSK_CTRL 8 && allAsleep s && !(([0, 1, 2, 3] : List Nat).any fun k => (s.desk k).wake)
    && !(s.srcs.any fun x => x.2.input && srcLevel s x.1 && decide (0 < srcPrio s x.1))

/-- Whether the arbiter samples nothing now: it is stopped, or within the 4 µs of its restart (R325). -/
def evcDeaf (s : State) : Bool := s.evcStop || decide (s.island < s.pwr.evcUp)

/-- After any activity of a source or write of a register the arbiter arbitrates (R334). A stopped one is restarted for it, the desk
PLL with it; it stops again, or stops now, where R325 says so. DESIGN CHOICE (log 153): a restart takes the whole 4 µs. -/
def evcSettle (s : State) : State :=
  if !evcRuns s then s
  else
    let t := arbitrate s
    let g := evcGated t
    if s.evcStop then
      let t := (pllStart t 3).pllUsed 3
      if g then t else { t with evcStop := false, pwr := { t.pwr with evcUp := t.island + 4000 } }
    else if g then { t.pllUsed 3 with evcStop := true }
    else t

/-- Sets pending of a LEVEL source whose input is high (R329). -/
def sampleLevel (s : State) (i : Nat) : State :=
  let e := s.src i
  if srcLevel s i && decide (0 < srcPrio s i) && e.input && !e.pending && !e.serv then
    s.setSrc i { e with pending := true }
  else s

/-- An edge or a software request sets pending; `merge` counts one that finds it set (R329, R330, R338). -/
def setPend (s : State) (i : Nat) (merge : Bool) : State :=
  let e := s.src i
  if e.pending then (if merge && !evcDeaf s then s.inc EVC_MERGED else s) else s.setSrc i { e with pending := true }

/-- The hardware input of a source takes a level (R328, R329). -/
def evcInput (s : State) (i : Nat) (level : Bool) : State :=
  if !srcId i || !s.ctl.core then s
  else
    let e := s.src i
    let rising := level && !e.input
    let s := s.setSrc i { e with input := level }
    if srcPrio s i = 0 || !evcRuns s then s
    else if srcLevel s i then evcSettle (sampleLevel s i)
    else if rising then evcSettle (setPend s i true)
    else s

/-- A pulse on the hardware input of a source. -/
def evcPulse (s : State) (i : Nat) : State := evcInput (evcInput s i true) i false

/-- Completes a source at end-of-interrupt (R329). -/
def srcComplete (s : State) (i : Nat) : State :=
  sampleLevel (s.setSrc i { s.src i with serv := false, core := 0 }) i

/-- What core `k` is after a reset: the core and its stack (Table 16.10); the EVC's record of signalling and eoi_err stay. -/
def deskFresh (s : State) (k : Nat) : State :=
  s.setDesk k { signalled := (s.desk k).signalled, eoiErr := (s.desk k).eoiErr }

/-- Resets core `k`: its stack is emptied and its sources completed from the top down (R323, R337). -/
def deskReset (s : State) (k : Nat) : State :=
  let s := (s.desk k).stack.foldl (fun s e => srcComplete s e.1) s
  evcSettle (deskFresh s k)

end Sys2Proof.Machine
end

