-- ==== Sys2Proof/Machine/Operands.lean ====
section
/-!
DEFINITION. The operand forms: the bytes of a Soile descriptor's body (Table 10.3), the bits of it that a command
defines (R8, R287), status values (Tables 10.6 and 18.4), event codes (Table 18.5), opcodes (Table 10.4), ownership of
the resources an operand names (R21, R272).
-/

namespace Sys2Proof

/-- Byte `i` of a descriptor, 16–63. -/
def Req.u8 (q : Req) (i : Nat) : Nat := bitsOf q.body.toNat ((i - 16) * 8) 8

/-- The little-endian number in `n` bytes from byte `i`. -/
def Req.uN (q : Req) (i n : Nat) : Nat := bitsOf q.body.toNat ((i - 16) * 8) (8 * n)

def Req.u16 (q : Req) (i : Nat) : Nat := q.uN i 2
def Req.u32 (q : Req) (i : Nat) : Nat := q.uN i 4
def Req.u64 (q : Req) (i : Nat) : Nat := q.uN i 8

/-- A 40-bit internal address. -/
def Req.u40 (q : Req) (i : Nat) : Nat := q.uN i 5

/-- Field `[lo+n-1:lo]` of byte `i`. -/
def Req.fld (q : Req) (i lo n : Nat) : Nat := bitsOf (q.u8 i) lo n

/-- Bit `b` of byte `i`. -/
def Req.bit (q : Req) (i b : Nat) : Bool := bitOf (q.u8 i) b

/-- A signed number in `n` bytes. -/
def Req.sN (q : Req) (i n : Nat) : Int := signed (8 * n) (q.uN i n)

/-- The 64 bytes of the descriptor whose opcode is given (Table 10.3). -/
def Req.bytes (q : Req) (op : Nat) : Bytes :=
  leBytes 2 op ++ [BitVec.ofNat 8 (Bool.nat q.barrier), BitVec.ofNat 8 q.cring.val] ++ leBytes 4 q.tag.toNat
    ++ leBytes 8 0 ++ leBytes 48 q.body.toNat

/-- The defined bits of a body: a list of (first byte, first bit, bits). -/
def bodyMask : List (Nat × Nat × Nat) → Nat
  | [] => 0
  | (i, lo, n) :: r => ((2 ^ n - 1) * 2 ^ ((i - 16) * 8 + lo)) ||| bodyMask r

/-- Whether a reserved bit of the body is 1 (R8, R287). -/
def Req.reservedSet (q : Req) (mask : Nat) : Bool := (q.body.toNat ||| mask) != mask

end Sys2Proof

namespace Sys2Proof.Machine

/-! ### Statuses -/

def stComplete : Nat := 0x0
def stAborted : Nat := 0x1
def stAbortLate : Nat := 0x2
def stNotAbortable : Nat := 0x3
def stYielded : Nat := 0x4
def stBadOpcode : Nat := 0x10
def stReserved : Nat := 0x11
def stBadRange : Nat := 0x12
def stNotOwner : Nat := 0x13
def stNoResource : Nat := 0x14
def stModeDenied : Nat := 0x15
def stBadCring : Nat := 0x16
def stUnmapped : Nat := 0x17
def stGateDenied : Nat := 0x18
def stHostDma : Nat := 0x19
def stNotManager : Nat := 0x1A
def stNotTracked : Nat := 0x100
def stBadBinding : Nat := 0x101
def stLedgerFull : Nat := 0x102
def stLedgerQuota : Nat := 0x103
def stInUse : Nat := 0x104
def stOnScreen : Nat := 0x105
def stRange : Nat := 0x108
def stStepDenied : Nat := 0x109
def stLedgerBusy : Nat := 0x10A
def stNoLink : Nat := 0x10B
def stTgMismatch : Nat := 0x10C
def stFlowExists : Nat := 0x110
def stFlowFull : Nat := 0x111
def stFlowRunning : Nat := 0x112
def stBadPair : Nat := 0x113
def stBadMode : Nat := 0x114
def stCtxBusy : Nat := 0x115
def stEgressSource : Nat := 0x116
def stCoreFull : Nat := 0x118
def stDecQuota : Nat := 0x119
def stCtxBound : Nat := 0x11A
def stPoolShape : Nat := 0x11B
def stPoolBusy : Nat := 0x11C
def stNotBound : Nat := 0x11D
def stIppFull : Nat := 0x120
def stIppQuota : Nat := 0x121
def stBadFormat : Nat := 0x122
def stScaleRange : Nat := 0x123
def stLinebufShort : Nat := 0x124
def stSlotBusy : Nat := 0x125
def stEncFull : Nat := 0x126
def stEncQuota : Nat := 0x127
def stSessionBusy : Nat := 0x128
def stNotOpen : Nat := 0x129
def stBudgetExhausted : Nat := 0x12A
def stFrameDropped : Nat := 0x12B
def stZTaken : Nat := 0x130
def stLayersFull : Nat := 0x131
def stHeadRunning : Nat := 0x132
def stPulseOverlap : Nat := 0x133
def stSealClosed : Nat := 0x134
def stWrongMode : Nat := 0x135
def stGroupMismatch : Nat := 0x136
def stWbShape : Nat := 0x137
def stWbTracked : Nat := 0x138
def stSuperseded : Nat := 0x139
def stLinkBw : Nat := 0x140
def stLanesTaken : Nat := 0x141
def stNoLanes : Nat := 0x142
def stNoSink : Nat := 0x143
def stLinkFail : Nat := 0x144
def stAuxTimeout : Nat := 0x145
def stBadSync : Nat := 0x148
def stPortRunning : Nat := 0x149
def stNotConfigured : Nat := 0x14A
def stPartExists : Nat := 0x150
def stGrantConflict : Nat := 0x151
def stPartActive : Nat := 0x152
def stNoUnit : Nat := 0x158
def stNotPaired : Nat := 0x160
def stPartnerState : Nat := 0x161
def stPartnerAlive : Nat := 0x162
def stSwapBusy : Nat := 0x163
def stSwapPending : Nat := 0x164
def stSwapRefused : Nat := 0x165
def stSwapCancelled : Nat := 0x166
def stCkptTooBig : Nat := 0x167
def stOutFull : Nat := 0x170
def stFormatError : Nat := 0x171
def stTruncated : Nat := 0x172
def stCheckFail : Nat := 0x173
def stPowerBudget : Nat := 0x178

/-! ### Event codes -/

def evAccessSize : Nat := 0x1
def evAccessRange : Nat := 0x2
def evAccessState : Nat := 0x3
def evUnmapped : Nat := 0x4
def evGateViolation : Nat := 0x5
def evGateIsoLate : Nat := 0x6
def evEoiMismatch : Nat := 0x7
def evErrlogFull : Nat := 0x8
def evTimeStepRefused : Nat := 0x10
def evTgHold : Nat := 0x11
def evTgLocked : Nat := 0x12
def evMapInvalid : Nat := 0x20
def evSsrcChange : Nat := 0x21
def evLedgerEcc : Nat := 0x30
def evVrdWatchdog : Nat := 0x31
def evTtRefused : Nat := 0x32
def evSkimEcc : Nat := 0x33
def evBudgetExhausted : Nat := 0x40
def evFrameDropped : Nat := 0x41
def evSealHeld : Nat := 0x50
def evSealSplit : Nat := 0x51
def evHostLinkDown : Nat := 0x60
def evRingFault : Nat := 0x61
def evCringFull : Nat := 0x62
def evCkptTooBig : Nat := 0x70
def evRestoreOlder : Nat := 0x71
def evRestoreFail : Nat := 0x72
def evTakeover : Nat := 0x73
def evSwapSplit : Nat := 0x74
def evSwapDue : Nat := 0x75
def evPowerDeferred : Nat := 0x80
def evThermalWarn : Nat := 0x81
def evThermalShutdown : Nat := 0x82
def evBootFallback : Nat := 0x83
def evBootFail : Nat := 0x84
def evDebugUnlockFail : Nat := 0x85
def evMemTrainFail : Nat := 0x86
def evPrimeTimeout : Nat := 0x87
def evRefMissing : Nat := 0x90
def evAreaConcealed : Nat := 0x91
def evBitstreamError : Nat := 0x92
def evPicLost : Nat := 0x93
def evSeiAbsent : Nat := 0x94
def evParamsMissing : Nat := 0x95
def evDivFallback : Nat := 0x96
def evSeiForeign : Nat := 0x97
def evSeiBad : Nat := 0x98
def evUnsupported : Nat := 0x99
def evDpbShort : Nat := 0x9A
def evPicShape : Nat := 0x9B
def evScrimWitness : Nat := 0xA0
def evScrimMismatch : Nat := 0xA1
def evBandCrc : Nat := 0xA2
def evWbCrc : Nat := 0xA3
def evSinkCrcPersist : Nat := 0xA4
def evSinkCrcMismatch : Nat := 0xA5
def evLinkLost : Nat := 0xA6
def evHpdChange : Nat := 0xA7
def evLinkStatus : Nat := 0xA8
def evSinkCrcUnsupp : Nat := 0xA9
def evTchSyncLost : Nat := 0xB0
def evTchNoise : Nat := 0xB1
def evTchPump : Nat := 0xB2
def evTchSelftestFault : Nat := 0xB3
def evTouchStuck : Nat := 0xB4
def evTchWet : Nat := 0xB5
def evTchNoring : Nat := 0xB6
def evChnLinkDown : Nat := 0xC0
def evHelloTimeout : Nat := 0xC1
def evLogicalConflict : Nat := 0xC2
def evEnumOverflow : Nat := 0xC3
def evChnCut : Nat := 0xC4
def evSurfShape : Nat := 0xC5
def evChnLinkUp : Nat := 0xC6
def evHelloResumed : Nat := 0xC7
def evEnumDone : Nat := 0xC8
def evCkptRefused : Nat := 0xC9

/-- The bits of ERR_YIELDw that a host may set: the events Table 18.5 and the tables it names call configurable. -/
def yieldConfig (w : Nat) : Nat := ([0x20070, 0x1, 0x30003, 0x170003, 0xE1F00FA, 0xF007E, 0x3F, 0x0] : List Nat).getD w 0

/-! ### Ownership -/

/-- Whether a range holds a number. -/
def Range.has (r : Range) (n : Nat) : Bool := decide (r.base ≤ n) && decide (n < r.base + r.count)

/-- Whether partition `p` owns a resource of each kind (R21, R272). -/
def ownsHead (s : State) (p n : Nat) : Bool := bitOf (s.part p).heads.toNat n
def ownsTouch (s : State) (p n : Nat) : Bool := bitOf (s.part p).touch.toNat n
def ownsSurf (s : State) (p n : Nat) : Bool := (s.part p).surf.has n
def ownsLayer (s : State) (p n : Nat) : Bool := (s.part p).layer.has n
def ownsCtx (s : State) (p n : Nat) : Bool := (s.part p).ctx.has n
def ownsFlow (s : State) (p n : Nat) : Bool := (s.part p).flow.has n
def ownsFollow (s : State) (p n : Nat) : Bool := (s.part p).follow.has n
def ownsSess (s : State) (p n : Nat) : Bool := (s.part p).sess.has n
def ownsEgr (s : State) (p n : Nat) : Bool := (s.part p).egr.has n

/-- The partition that owns, by a test over partitions; 31 where none does. -/
def ownerBy (own : Nat → Bool) : Nat := match (List.range 16).find? own with | some p => p | none => 31

def headOwner (s : State) (n : Nat) : Nat := ownerBy fun p => ownsHead s p n
def touchOwner (s : State) (n : Nat) : Nat := ownerBy fun p => ownsTouch s p n
def layerOwner (s : State) (n : Nat) : Nat := ownerBy fun p => ownsLayer s p n
def ctxOwner (s : State) (n : Nat) : Nat := ownerBy fun p => ownsCtx s p n
def flowOwner (s : State) (n : Nat) : Nat := ownerBy fun p => ownsFlow s p n
def followOwner (s : State) (n : Nat) : Nat := ownerBy fun p => ownsFollow s p n
def sessOwner (s : State) (n : Nat) : Nat := ownerBy fun p => ownsSess s p n
def egrOwner (s : State) (n : Nat) : Nat := ownerBy fun p => ownsEgr s p n

/-- The first failing check of a list, in order (R287). -/
def firstFail : List (Bool × Nat) → Option Nat
  | [] => none
  | (b, st) :: r => if b then some st else firstFail r

/-- What a read transaction of the management port returns: with MGT_CFG.pec its PEC after the data, the SMBus CRC-8 over the bytes of the
transaction: address for writing, command code, address for reading, `count` before the data where the protocol has one (R431, Table
15.6). That the PEC is SMBus's is its own standard's. DEDUCED (log 157). -/
def mgtReply (s : State) (cmd : Byte) (count bs : Bytes) : Bytes :=
  let at_ := (0x58 + s.straps.toNat % 8) * 2
  if s.bit MGT_CFG 0 then
    bs ++ [BitVec.ofNat 8 (crcRef 8 0x07 0 0 false false ([BitVec.ofNat 8 at_, cmd, BitVec.ofNat 8 (at_ + 1)] ++ count ++ bs))]
  else bs

/-- A completion body of little-endian fields: byte offset 16–31, length, value. -/
def cplBody : List (Nat × Nat × Nat) → BitVec 128
  | [] => 0
  | (i, n, v) :: r => BitVec.ofNat 128 (v % 2 ^ (8 * n) * 2 ^ ((i - 16) * 8)) ||| cplBody r

/-- The fields of a DCE descriptor (Table 15.3). -/
def dceFmt (q : Req) : Nat := q.fld 17 0 2
def dceSrcHost (q : Req) : Bool := q.bit 17 2
def dceDstHost (q : Req) : Bool := q.bit 17 3
def dceVerify (q : Req) : Bool := q.bit 17 4
def dceLen (q : Req) : Nat := q.u32 20
def dceCap (q : Req) : Nat := q.u32 40
def dceSrc (q : Req) : Nat := if dceSrcHost q then q.u64 24 else q.u40 24
def dceDst (q : Req) : Nat := if dceDstHost q then q.u64 32 else q.u40 32

/-- The source of a CRC job (Table 15.5). -/
def crcSrcHost (q : Req) : Bool := q.bit 17 3
def crcSrc (q : Req) : Nat := if crcSrcHost q then q.u64 24 else q.u40 24

end Sys2Proof.Machine
end

