-- ==== Sys2Proof/Machine/Inflate.lean ====
section
/-!
DEFINITION. The DEFLATE streams of the compression engines (R401–R404, R409–R412): the decompressor of RFC 1951 with the
headers and trailers of RFC 1950 and RFC 1952, and what the compressor writes around its DEFLATE data.
-/

namespace Sys2Proof.Machine

/-- How a decompression stands. -/
inductive InfSt where
  | going | done | format | truncated | full
  deriving DecidableEq, Repr

/-- A decompression in progress: bit position, output with its last byte first, output length. -/
structure Inf where
  st  : InfSt
  pos : Nat
  rev : Bytes
  len : Nat

/-- The input: its bits as a number, the number of bits, the room for output. -/
structure InfIn where
  bits : Nat
  size : Nat
  cap  : Nat

/-- Takes `k` bits, least significant first; none past the end. -/
def infBits (i : InfIn) (pos k : Nat) : Option Nat := if pos + k ≤ i.size then some (bitsOf i.bits pos k) else none

/-- A code set: the code length of each symbol. Codes of one length are consecutive in symbol order (RFC 1951). -/
abbrev Codes := List Nat

/-- The symbols of a code length, in order. -/
def symsOf (c : Codes) (n : Nat) : List Nat := (List.range c.length).filter fun k => c.getD k 0 == n

/-- How decoding a symbol ends: the symbol and the position after it, an undefined code, or the input's end. -/
inductive SymRes where
  | sym (s pos : Nat)
  | undefined (pos : Nat)
  | ended

/-- Decodes one symbol, length by length: `code` bits read so far, `first` the first code of the length. A code is undefined as soon
as the set has none of that length or longer (R412). -/
def decodeSym (i : InfIn) (c : Codes) : (fuel n code first pos : Nat) → SymRes
  | 0, _, _, _, pos => .undefined pos
  | fuel + 1, n, code, first, pos =>
    if !c.any fun l => decide (n ≤ l) then .undefined pos
    else match infBits i pos 1 with
    | none => .ended
    | some b =>
      let code := code * 2 + b
      let ss := symsOf c n
      if first ≤ code ∧ code < first + ss.length then .sym (ss.getD (code - first) 0) (pos + 1)
      else decodeSym i c fuel (n + 1) code ((first + ss.length) * 2) (pos + 1)

/-- One symbol of a code set at a position. -/
def nextSym (i : InfIn) (c : Codes) (pos : Nat) : SymRes := decodeSym i c 15 1 0 0 pos

/-- The codes left over of a code set in units of 2⁻¹⁵: 0 where it is complete, negative where over-subscribed. -/
def codesLeft (c : Codes) : Int := (2 ^ 15 : Nat) - ((c.filter (· != 0)).foldl (fun n l => n + 2 ^ (15 - l)) 0 : Nat)

/-- Whether a code set is invalid: over-subscribed, or incomplete with other than one code of one bit (log 41). -/
def codesBad (c : Codes) : Bool :=
  let used := c.filter (· != 0)
  decide (codesLeft c < 0) || (decide (0 < codesLeft c) && !(used == [1]))

/-- Base length and extra bits of length symbols 257–285 (RFC 1951). -/
def lenBase : List (Nat × Nat) :=
  [(3, 0), (4, 0), (5, 0), (6, 0), (7, 0), (8, 0), (9, 0), (10, 0), (11, 1), (13, 1), (15, 1), (17, 1), (19, 2), (23, 2), (27, 2),
   (31, 2), (35, 3), (43, 3), (51, 3), (59, 3), (67, 4), (83, 4), (99, 4), (115, 4), (131, 5), (163, 5), (195, 5), (227, 5), (258, 0)]

/-- Base distance and extra bits of distance symbols 0–29. -/
def distBase : List (Nat × Nat) :=
  [(1, 0), (2, 0), (3, 0), (4, 0), (5, 1), (7, 1), (9, 2), (13, 2), (17, 3), (25, 3), (33, 4), (49, 4), (65, 5), (97, 5), (129, 6),
   (193, 6), (257, 7), (385, 7), (513, 8), (769, 8), (1025, 9), (1537, 9), (2049, 10), (3073, 10), (4097, 11), (6145, 11),
   (8193, 12), (12289, 12), (16385, 13), (24577, 13)]

/-- Puts one byte out, where there is room. -/
def infPut (i : InfIn) (x : Inf) (b : Byte) : Inf :=
  if x.len < i.cap then { x with rev := b :: x.rev, len := x.len + 1 } else { x with st := .full }

/-- Copies `n` bytes from distance `d`. -/
def infCopy (i : InfIn) (d : Nat) : Nat → Inf → Inf
  | 0, x => x
  | n + 1, x => if x.st = .going then infCopy i d n (infPut i x (x.rev.getD (d - 1) 0)) else x

/-- A match with length symbol `257 + k`. -/
def infMatch (i : InfIn) (dist : Codes) (k : Nat) (x : Inf) : Inf :=
  match lenBase[k]? with
  | none => { x with st := .format }
  | some l =>
    match infBits i x.pos l.2 with
    | none => { x with st := .truncated, pos := i.size }
    | some e =>
      match nextSym i dist (x.pos + l.2) with
      | .ended => { x with st := .truncated, pos := i.size }
      | .undefined p => { x with st := .format, pos := p }
      | .sym ds p =>
        match distBase[ds]? with
        | none => { x with st := .format, pos := p }
        | some d =>
          match infBits i p d.2 with
          | none => { x with st := .truncated, pos := i.size }
          | some de =>
            if x.len < d.1 + de then { x with st := .format, pos := p + d.2 }
            else infCopy i (d.1 + de) (l.1 + e) { x with pos := p + d.2 }

/-- The symbols of a block up to its end-of-block. -/
def infSyms (i : InfIn) (lit dist : Codes) : Nat → Inf → Inf
  | 0, x => x
  | fuel + 1, x =>
    match nextSym i lit x.pos with
    | .ended => { x with st := .truncated, pos := i.size }
    | .undefined p => { x with st := .format, pos := p }
    | .sym v p =>
      let x := { x with pos := p }
      if v = 256 then x
      else
        let x := if v < 256 then infPut i x (BitVec.ofNat 8 v) else infMatch i dist (v - 257) x
        if x.st = .going then infSyms i lit dist fuel x else x

/-- The bytes of a stored block. -/
def infStored (i : InfIn) : Nat → Inf → Inf
  | 0, x => x
  | n + 1, x =>
    match infBits i x.pos 8 with
    | none => { x with st := .truncated, pos := i.size }
    | some b =>
      let y := infPut i x (BitVec.ofNat 8 b)
      if y.st = .going then infStored i n { y with pos := x.pos + 8 } else y

/-- The fixed code sets of RFC 1951. -/
def fixedLit : Codes := List.replicate 144 8 ++ List.replicate 112 9 ++ List.replicate 24 7 ++ List.replicate 8 8
def fixedDist : Codes := List.replicate 32 5

/-- The order in which the lengths of the code length code stand. -/
def lenOrder : List Nat := [16, 17, 18, 0, 8, 7, 9, 6, 10, 5, 11, 4, 12, 3, 13, 2, 14, 1, 15]

/-- Reads the code lengths of a dynamic block until `n` stand; a repeat without a length before it, or past `n`, is
invalid. -/
def readLens (i : InfIn) (cl : Codes) (n : Nat) : (fuel : Nat) → Codes → Nat → InfSt × Codes × Nat
  | 0, acc, pos => (.format, acc, pos)
  | fuel + 1, acc, pos =>
    if acc.length = n then (.going, acc, pos)
    else
      match nextSym i cl pos with
      | .ended => (.truncated, acc, i.size)
      | .undefined p => (.format, acc, p)
      | .sym v p =>
        if v < 16 then readLens i cl n fuel (acc ++ [v]) p
        else
          let k := if v = 16 then (2, 3) else if v = 17 then (3, 3) else (7, 11)
          match infBits i p k.1 with
          | none => (.truncated, acc, i.size)
          | some e =>
            let r := k.2 + e
            if (v = 16 ∧ acc = []) ∨ n < acc.length + r then (.format, acc, p + k.1)
            else readLens i cl n fuel (acc ++ List.replicate r (if v = 16 then acc.getLastD 0 else 0)) (p + k.1)

/-- A dynamic block: its code sets, then its symbols. -/
def infDynamic (i : InfIn) (x : Inf) : Inf :=
  match infBits i x.pos 14 with
  | none => { x with st := .truncated, pos := i.size }
  | some h =>
    let hlit := h % 32 + 257
    let hdist := h / 32 % 32 + 1
    let hc := h / 1024 + 4
    if 286 < hlit then { x with st := .format, pos := x.pos + 14 }
    else if i.size < x.pos + 14 + 3 * hc then { x with st := .truncated, pos := i.size }
    else
      let cl := (List.range hc).foldl (fun (c : Codes) k => c.set (lenOrder.getD k 0) (bitsOf i.bits (x.pos + 14 + 3 * k) 3)) (List.replicate 19 0)
      let pos := x.pos + 14 + 3 * hc
      if codesBad cl || decide (codesLeft cl ≠ 0) then { x with st := .format, pos := pos }
      else
        let r := readLens i cl (hlit + hdist) (hlit + hdist + 1) [] pos
        if r.1 != .going then { x with st := r.1, pos := r.2.2 }
        else
          let lit := r.2.1.take hlit
          let dist := r.2.1.drop hlit
          let noDist : Bool := dist.all (· == 0)
          if codesBad lit || lit.getD 256 0 == 0 || (!noDist && codesBad dist) then { x with st := .format, pos := r.2.2 }
          else infSyms i lit dist (i.size + 1) { x with pos := r.2.2 }

/-- One block after its header of 3 bits. -/
def infBlock (i : InfIn) (kind : Nat) (x : Inf) : Inf :=
  match kind with
  | 0 =>
    let p := ceilTo 8 x.pos
    match infBits i p 32 with
    | none => { x with st := .truncated, pos := i.size }
    | some v =>
      if v % 2 ^ 16 + v / 2 ^ 16 ≠ 0xFFFF then { x with st := .format, pos := p + 32 }
      else infStored i (v % 2 ^ 16) { x with pos := p + 32 }
  | 1 => infSyms i fixedLit fixedDist (i.size + 1) x
  | 2 => infDynamic i x
  | _ => { x with st := .format }

/-- The blocks of a stream up to the final one (R404). -/
def infBlocks (i : InfIn) : Nat → Inf → Inf
  | 0, x => x
  | fuel + 1, x =>
    match infBits i x.pos 3 with
    | none => { x with st := .truncated, pos := i.size }
    | some h =>
      let y := infBlock i (h / 2) { x with pos := x.pos + 3 }
      if y.st != .going then y
      else if h % 2 = 1 then { y with st := .done }
      else infBlocks i fuel y

/-- Decompresses raw DEFLATE from byte `from_` of `bs`, into at most `cap` bytes. -/
def inflate (bs : Bytes) (from_ cap : Nat) : Inf :=
  infBlocks ⟨leNat bs, 8 * bs.length, cap⟩ (8 * bs.length + 1) ⟨.going, 8 * from_, [], 0⟩

/-- What a decompression brings: its status, input bytes consumed, output, the check value the stream carried. -/
structure Unpacked where
  st       : Nat
  consumed : Nat
  out      : Bytes
  carried  : Nat

/-- How a header reads: its length, the position of what breaks it, or the input's end. -/
inductive HeadRes where
  | ok (n : Nat)
  | bad (at_ : Nat)
  | short

/-- The zlib header (R404), each byte judged as it is read. -/
def zlibHead (bs : Bytes) : HeadRes :=
  match bs with
  | [] => .short
  | a :: r =>
    if a.toNat % 16 ≠ 8 ∨ 7 < a.toNat / 16 then .bad 1
    else match r with
      | [] => .short
      | b :: _ => if bitOf b.toNat 5 = true ∨ (a.toNat * 256 + b.toNat) % 31 ≠ 0 then .bad 2 else .ok 2

/-- The position after a zero byte, from byte `n`. -/
def afterZero (bs : Bytes) (n : Nat) : Option Nat :=
  match (bs.drop n).findIdx? (· == 0) with
  | some k => some (n + k + 1)
  | none => none

/-- The position after the first byte of a gzip header that no header has there: two of magic, CM 8, FLG below 32 (R404). -/
def gzipBad (bs : Bytes) : Option Nat :=
  (((bs.zip ([(0x1F, 0x1F), (0x8B, 0x8B), (8, 8), (0, 31)] : List (Nat × Nat))).findIdx? fun x =>
    decide (x.1.toNat < x.2.1) || decide (x.2.2 < x.1.toNat))).map (· + 1)

/-- The gzip header (R404): each byte judged as it is read, FEXTRA, FNAME and FCOMMENT skipped, FHCRC checked. -/
def gzipHead (bs : Bytes) : HeadRes :=
  match gzipBad bs with
  | some n => .bad n
  | none =>
    if bs.length < 10 then .short
    else
      let fl := leNat (sliceB bs 3 1)
      let a : Option Nat := if bitOf fl 2 then (if 12 ≤ bs.length ∧ 12 + leNat (sliceB bs 10 2) ≤ bs.length then some (12 + leNat (sliceB bs 10 2)) else none)
                            else some 10
      let b := if bitOf fl 3 then a.bind (afterZero bs) else a
      let c := if bitOf fl 4 then b.bind (afterZero bs) else b
      match c with
      | none => .short
      | some n =>
        if bitOf fl 1 then
          if bs.length < n + 2 then .short
          else if leNat (sliceB bs n 2) = crc32 (bs.take n) % 2 ^ 16 then .ok (n + 2) else .bad (n + 2)
        else .ok n

/-- The header of a format. -/
def headOfFmt (fmt : Nat) (bs : Bytes) : HeadRes :=
  match fmt with
  | 0 => .ok 0
  | 1 => zlibHead bs
  | _ => gzipHead bs

/-- The statuses of a decompression that did not reach its stream's end. -/
def InfSt.status : InfSt → Nat
  | .format => stFormatError
  | .truncated => stTruncated
  | .full => stOutFull
  | _ => stComplete

/-- Decompresses a stream of a format (R404, R410–R412); `verify` is the CRC-32 a raw stream is to have. -/
def unpack (fmt : Nat) (verify : Option Nat) (bs : Bytes) (cap : Nat) : Unpacked :=
  match headOfFmt fmt bs with
  | .short => ⟨stTruncated, bs.length, [], 0⟩
  | .bad n => ⟨stFormatError, n, [], 0⟩
  | .ok n =>
    let r := inflate bs n cap
    let out := r.rev.reverse
    let at_ := ceilDiv r.pos 8
    if r.st != .done then ⟨r.st.status, at_, out, 0⟩
    else if fmt = 0 then
      match verify with
      | none => ⟨stComplete, at_, out, 0⟩
      | some v => ⟨if v = crc32 out then stComplete else stCheckFail, at_, out, v⟩
    else
      let t := if fmt = 1 then 4 else 8
      if bs.length < at_ + t then ⟨stTruncated, bs.length, out, 0⟩
      else if fmt = 1 then
        let v := beNat (sliceB bs at_ 4)
        ⟨if v = adler32 out then stComplete else stCheckFail, at_ + 4, out, v⟩
      else
        let v := leNat (sliceB bs at_ 4)
        ⟨if v = crc32 out ∧ leNat (sliceB bs (at_ + 4) 4) = out.length % 2 ^ 32 then stComplete else stCheckFail, at_ + 8, out, v⟩

/-- An input in stored blocks of at most 32,768 bytes (R402): one stream that the compressor may write. -/
def storedForm : (fuel : Nat) → Bytes → Bytes
  | 0, _ => []
  | fuel + 1, bs =>
    let n := Nat.min 32768 bs.length
    let last := decide (bs.length ≤ 32768)
    [if last then 1 else 0] ++ leBytes 2 n ++ leBytes 2 (65535 - n) ++ bs.take n ++ (if last then [] else storedForm fuel (bs.drop n))

/-- Whether every block of a stream is one that the compressor writes (R402): stored, or dynamic and shorter than its bytes stored,
of 1 to 32,768 input bytes. -/
def blocksFit (i : InfIn) : Nat → Inf → Bool
  | 0, _ => false
  | fuel + 1, x =>
    match infBits i x.pos 3 with
    | none => false
    | some h =>
      let y := infBlock i (h / 2) { x with pos := x.pos + 3 }
      let n := y.len - x.len
      y.st == .going && decide (1 ≤ n) && decide (n ≤ 32768)
        && (h / 2 == 0 || (h / 2 == 2 && decide (y.pos < ceilTo 8 (x.pos + 3) + 32 + 8 * n)))
        && (h % 2 == 1 || blocksFit i fuel y)

/-- Whether a stream is one that the compressor may write for an input: it decompresses to it and ends there (R401), in blocks that
R402 allows, so that with a byte or more in each there are at most 7 for every byte of the input. -/
def deflateFits (bs z : Bytes) : Bool :=
  let r := inflate z 0 bs.length
  r.st == .done && r.rev.reverse == bs && ceilDiv r.pos 8 == z.length && decide (z.length ≤ 7 * bs.length)
    && blocksFit ⟨leNat z, 8 * z.length, bs.length⟩ bs.length ⟨.going, 0, [], 0⟩

/-- The DEFLATE data of an input at a level (R402, R403): which of the streams that may stand for it is not given (log 15). Where the
constant is none of them, stored blocks stand for it, a stream that R402 gives an input that no dynamic block shortens. -/
def deflated (level : Nat) (bs : Bytes) : Bytes :=
  if bs = [] then [3, 0]
  else
    let z := Config.deflate level bs
    if deflateFits bs z then z else storedForm (bs.length / 32768 + 1) bs

/-- The stream the compressor writes (R402, Table 15.2). -/
def pack (fmt level : Nat) (bs : Bytes) : Bytes :=
  match fmt with
  | 0 => deflated level bs
  | 1 => [0x78, (if level = 1 then 0x01 else if level < 6 then 0x5E else if level = 6 then 0x9C else 0xDA)] ++ deflated level bs
           ++ beBytes 4 (adler32 bs)
  | _ => [0x1F, 0x8B, 8, 0, 0, 0, 0, 0, (if level = 1 then 4 else if level = 9 then 2 else 0), 0xFF] ++ deflated level bs
           ++ leBytes 4 (crc32 bs) ++ leBytes 4 (bs.length % 2 ^ 32)

end Sys2Proof.Machine
end

