-- ==== Sys2Proof/Machine/Link.lean ====
section
/-!
DEFINITION. The chain's transmit side: messages cut into flits (R345, R360), the choice of the next flit (R352), credit
and outstanding limits (R349, R350, R353), unicast and broadcast sending (R356–R359), a port going DOWN (R351).
-/

namespace Sys2Proof

/-- The class of a message type (Table 13.5). -/
def Msg.cls (m : Msg) : Nat :=
  match m.kind.toNat with
  | 8 => 1 | 9 => 2 | 10 => 3 | _ => 0

/-- The BODY flits of a message (R360). -/
def Msg.bodyFlits (m : Msg) : Nat := ceilDiv m.body.length 28

/-- All its flits. -/
def Msg.flits (m : Msg) : Nat := 1 + m.bodyFlits

/-- Bytes 0–27 of the HEAD flit (Table 13.4). -/
def Msg.headBytes (m : Msg) : Bytes :=
  [m.kind, BitVec.ofNat 8 (m.dst.toNat + (Bool.nat m.bcast) * 8 + m.epoch.toNat * 16),
    BitVec.ofNat 8 (m.origin.toNat + m.hops.toNat * 8), 0]
    ++ leBytes 2 m.bodyFlits ++ leBytes 2 m.seq.toNat ++ leBytes 20 m.hdr.toNat

/-- Byte `i` of a message's type-specific header, numbered as Table 13.5 does from 8. -/
def Msg.h8 (m : Msg) (i : Nat) : Nat := bitsOf m.hdr.toNat ((i - 8) * 8) 8

/-- The `n` header bytes from `i`, little-endian. -/
def Msg.hN (m : Msg) (i n : Nat) : Nat := bitsOf m.hdr.toNat ((i - 8) * 8) (n * 8)

/-- A header field of `n` bytes at byte `i`. -/
def hput (i n v : Nat) : Nat := v % 2 ^ (8 * n) * 2 ^ ((i - 8) * 8)

/-- The flit codes and 28 payload bytes of a message: kind in bits 1:0, class in bits 3:2 (Table 13.2). A short last
BODY flit is filled with zeros (log 21). -/
def Msg.toFlits (m : Msg) : List (BitVec 4 × Bytes) :=
  let c := m.cls * 4
  (BitVec.ofNat 4 (2 + c), m.headBytes)
    :: (List.range m.bodyFlits).map fun i => (BitVec.ofNat 4 (3 + c), sliceB m.body (28 * i) 28)

end Sys2Proof

namespace Sys2Proof.Machine

/-- The CRC of a flit (R345): sequence number, code and sending side folded in as the context word. -/
def flitCrc (p : Nat) (seq : BitVec 32) (code : BitVec 4) (bs : Bytes) : Nat :=
  crc32c (seq.toNat + code.toNat * 2 ^ 32 + (if p = 0 then 2 ^ 36 else 0)) bs

/-- The blocks of a flit on lanes 0–3 (R344): on lane l the sync header, 0b01 for a 0 and 0b10 for a 1 of bit l of its code, and the flit
bytes 8l to 8l + 7. -/
def laneBlocks (code : BitVec 4) (bs : Bytes) : List (BitVec 2 × Bytes) :=
  (List.range 4).map fun l => (if bitOf code.toNat l then 2 else 1, sliceB bs (8 * l) 8)

/-- Blocks as they leave the lanes of port `p`: those of a lane with tx_inv inverted (R466). -/
def wireBlocks (s : State) (p : Nat) (bs : List (BitVec 2 × Bytes)) : List (BitVec 2 × Bytes) :=
  bs.mapIdx fun l b => if s.bit (QD_LANE_CTRL (5 + p) l) 0 then (~~~ b.1, b.2.map (~~~ ·)) else b

/-- A HEAD or BODY flit of 32 bytes on the wire of a port. -/
def flitOut (s : State) (p : Nat) (seq : BitVec 32) (code : BitVec 4) (full : Bytes) : Out :=
  .flit p seq code full (wireBlocks s p (laneBlocks code full))

/-- The code of a link-control flit: class 0, but for a CUT (kind 4) the class it ends (Table 13.2, R351). -/
def lctrlCode (kind v : Nat) : BitVec 4 := BitVec.ofNat 4 (1 + (if kind = 4 then 4 * v else 0))

/-- A link-control flit on the wire of a port: sequence 0 in its check (R345), its bytes 0–27 laid out as the part does (log 21). -/
def lctrlOut (s : State) (p kind v : Nat) : Out :=
  let code := lctrlCode kind v
  let bs := (List.range 28).map (Config.lctrlByte kind v)
  .lctrl p kind (BitVec.ofNat 128 v) (wireBlocks s p (laneBlocks code (bs ++ leBytes 4 (flitCrc p 0 code bs))))

/-- What a port in training sends (R348): on each lane a block, and the marker block that every 256th is. -/
def trainingOut (s : State) (p : Nat) (ready : Bool) : Out :=
  let block := fun (l m : Nat) => ([0x3C, 0xA5, 0x5A, 0xC3, 0x0F, 0xF0, BitVec.ofNat 8 (l + 16 * p + 32 * Bool.nat ready), BitVec.ofNat 8 m] : Bytes)
  let all := fun (m : Nat) => wireBlocks s p ((List.range 4).map fun l => (2, block l m))
  .training p (all 0) (all 1)

/-- An LCTRL flit, sent at once (R350). -/
def lctrl (s : State) (p kind v : Nat) : State := s.emit (lctrlOut s p kind v)

/-- The receive buffers of the four classes in flits (R350). -/
def rxBuffer : List Nat := [64, 1024, 1024, 1024]

/-- The cumulative credits of a port: its buffers and what it freed, 16 bits per class (log 21). -/
def creditWord (q : ChnPort) : Nat :=
  (List.range 4).foldl (fun (v c : Nat) => v + (rxBuffer.getD c 0 + q.recv.getD c 0) % 2 ^ 16 * 2 ^ (16 * c)) 0

/-- The LCTRL flit with the cumulative acknowledgement and the credits (R349, R350). -/
def sendAck (s : State) (p : Nat) : State :=
  let q := s.port p
  lctrl (s.setPort p { q with acked := q.rxSeq, sentAt := s.island }) p 0 (q.rxSeq.toNat + creditWord q * 2 ^ 32)

/-- `n` flits of class `c` leave the receive buffer of port `p` (R350); with `tell` its partner hears of the credits at once. -/
def freeFlits (s : State) (p c n : Nat) (tell : Bool) : State :=
  let q := s.port p
  if q.state != .up then s
  else
    let s := s.setPort p { q with recv := q.recv.set c (q.recv.getD c 0 + n) }
    if tell then sendAck s p else s

/-- Puts one HEAD or BODY flit on the wire of port `p` and keeps it until it is acknowledged. A poisoned one has its check value
inverted (R346). -/
def sendFlit (s : State) (p : Nat) (code : BitVec 4) (bs : Bytes) (poison : Bool := false) : State :=
  let q := s.port p
  let cls := code.toNat / 4
  let full := bs ++ leBytes 4 (flitCrc p q.txSeq code bs ^^^ (if poison then 0xFFFFFFFF else 0))
  let q' := { q with
    txSeq := q.txSeq + 1
    outst := q.outst ++ [(q.txSeq, code, full)]
    ackAt := if q.outst.isEmpty then s.island else q.ackAt
    used := q.used.set cls (q.used.getD cls 0 + 1) }
  ((s.setPort p q').inc (CHN_P_TX_FLITS p)).emit (flitOut s p q.txSeq code full)

/-- Table 3.4: the latencies of a chain rate code in 1/256 ns, transmit and receive. -/
def chainLat : Nat → Nat × Nat
  | 1 => (6656, 9344) | 2 => (4352, 6016) | _ => (3584, 4992)

/-- The latencies of chain port `p` (R76, R77): its timestamp port's registers, or the loaded values of its rate while
the core domain that holds them is off. -/
def txLat (s : State) (p : Nat) : Nat :=
  if s.ctl.core then (s.reg (TB_PORT_TXLAT (8 + p))).toNat else (chainLat (s.fld (CHN_P_CTRL p) 0 2)).1
def rxLat (s : State) (p : Nat) : Nat :=
  if s.ctl.core then (s.reg (TB_PORT_RXLAT (8 + p))).toNat else (chainLat (s.fld (CHN_P_CTRL p) 0 2)).2

/-- Whether a message was in transit when it came to a transmitter. -/
def Way.transit (w : Way) : Bool := w != .own

/-- The way of a message whose receive buffer is no more. -/
def Way.freed (w : Way) : Way := if w = .held then .passed else w

/-- A TIME message takes its origin time as it leaves its origin (R361). -/
def stampTime (s : State) (p : Nat) (way : Way) (m : Msg) : Msg :=
  if m.kind == 2 && way == .own then
    let t := s.now16 + txLat s p * 256
    { m with hdr := BitVec.ofNat 160 (hput 8 8 (t / 2 ^ 16) + hput 16 2 (t % 2 ^ 16)) }
  else m

/-- Whether a message may start: credits for all its flits, and for a local one the free space of R353 beyond. -/
def mayStart (q : ChnPort) (transit : Bool) (m : Msg) : Bool :=
  let c := m.cls
  let room := q.credit.getD c 0 - q.used.getD c 0
  decide (m.flits + (if transit then 0 else if c = 0 then 16 else 512) ≤ room)

/-- The next waiting message of a class: transit before local, but a local one after 4 transit messages (R352). -/
def nextOf (q : ChnPort) (c : Nat) : Option (Way × Msg) :=
  let ms := q.queue.filter fun x => x.2.cls == c
  let local_ := ms.find? fun x => !x.1.transit
  let transit := ms.find? fun x => x.1.transit
  match transit, local_ with
  | none, l => l
  | some t, none => some t
  | some t, some l => if q.streak.getD c 0 ≥ 4 then some l else some t

/-- A CTRL message of a CHN_SEND starts: its flits follow one another, so the number of its last one is known (R352,
R372). -/
def markSend (s : State) (p : Nat) (way : Way) (m : Msg) (seq : BitVec 32) : State :=
  if way.transit || m.kind != 7 then s
  else { s with chain := { s.chain with sends := s.chain.sends.map fun x =>
    if x.2.1 == p && x.2.2.1 == m.seq then (x.1, x.2.1, x.2.2.1, some (seq + BitVec.ofNat 32 (m.flits - 1))) else x } }

/-- Starts the next message of a class when one may start. -/
def startCls (s : State) (p c : Nat) : State :=
  let q := s.port p
  if q.cur.any fun x => x.cls == c then s
  else match nextOf q c with
    | none => s
    | some x =>
      if mayStart q x.1.transit x.2 then
        let m := stampTime s p x.1 x.2
        let s := markSend s p x.1 m q.txSeq
        s.setPort p { q with
          queue := q.queue.erase x
          cur := q.cur ++ [⟨c, x.1, if m.kind == 9 && x.1 == .own then some (m.h8 8) else none, m.toFlits⟩]
          streak := q.streak.set c (if x.1.transit then q.streak.getD c 0 + 1 else 0)
          strm := if c = 1 && x.1 == .own then m.seq else q.strm }
      else s

/-- The class whose flit goes next: C0, then C1–C3 in weighted turn (R352). -/
def nextClass (s : State) (p : Nat) : Option Nat :=
  let q := s.port p
  let has := fun c => q.cur.any fun x => x.cls == c
  if has 0 then some 0
  else
    let able := [1, 2, 3].filter has
    let w := fun c => s.fld (CHN_P_WEIGHT p) (4 * (c - 1)) 4
    match able.find? fun c => decide (q.turn.getD (c - 1) 0 < w c) with
    | some c => some c
    | none => able.head?

/-- Sends one flit of a class and counts it in the turn of its class; a spent turn starts all anew. A flit of a message in transit leaves
the receive buffer it stood in, and with the message's last one its partner hears of the credits (R350). -/
def sendOne (s : State) (p c : Nat) : State :=
  let q := s.port p
  match q.cur.find? fun x => x.cls == c with
  | some ⟨_, way, slot, f :: fs⟩ =>
    let cur' := (q.cur.filter fun x => x.cls != c) ++ (if fs.isEmpty then [] else [⟨c, way, slot, fs⟩])
    let spent := q.turn.getD (c - 1) 0
    let done := decide (spent ≥ s.fld (CHN_P_WEIGHT p) (4 * (c - 1)) 4)
    let turn' := if c = 0 then q.turn else if done then ([0, 0, 0] : List Nat).set (c - 1) 1 else q.turn.set (c - 1) (spent + 1)
    let s := sendFlit (s.setPort p { q with cur := cur', turn := turn' }) p f.1 f.2
    if way = .held then freeFlits s (1 - p) c 1 fs.isEmpty else s
  | _ => s

/-- Sends what may leave port `p` now: at most 128 flits are outstanding (R349). -/
def pump : Nat → State → Nat → State
  | 0, s, _ => s
  | fuel + 1, s, p =>
    if (s.port p).state != .up || decide ((s.port p).outst.length ≥ 128) then s
    else
      let s := [0, 1, 2, 3].foldl (fun s c => startCls s p c) s
      match nextClass s p with
      | some c => pump fuel (sendOne s p c) p
      | none => s

/-- Queues a message at a port and sends what may leave; a port not UP drops it (R358), and with it the receive buffer it held. -/
def portSend (s : State) (p : Nat) (way : Way) (m : Msg) : State :=
  let q := s.port p
  if q.state != .up then (if way = .held then freeFlits s (1 - p) m.cls m.flits true else s).inc (CHN_P_DEADEND p)
  else pump 129 (s.setPort p { q with queue := q.queue ++ [(way, m)] }) p

/-- A message of this unit: epoch, origin and the next sequence of its class (Table 13.4). -/
def newMsg (s : State) (kind dst : Nat) (bcast : Bool) (hdr : Nat) (body : Bytes) : State × Msg :=
  let m : Msg := { kind := BitVec.ofNat 8 kind, dst := BitVec.ofNat 3 dst, bcast := bcast,
                   epoch := BitVec.ofNat 4 (s.fld CHN_ADDR 4 4), origin := BitVec.ofNat 3 s.physAddr, hops := 0,
                   seq := 0, hdr := BitVec.ofNat 160 hdr, body := body }
  let n := s.chain.seqs.getD m.cls 0
  ({ s with chain := { s.chain with seqs := s.chain.seqs.set m.cls (n + 1) } }, { m with seq := n })

/-- Sends a message to a physical address by the port of its route bit (R358). -/
def sendTo (s : State) (a kind hdr : Nat) (body : Bytes) : State :=
  let (s, m) := newMsg s kind a false hdr body
  portSend s (if s.bit CHN_ROUTE a then 0 else 1) .own m

/-- The physical address of the holder of a logical ID, none when no unit or two units hold it (R357). -/
def unitOf (s : State) (id : Nat) : Option Nat :=
  if s.bit CHN_MAP (4 * id + 3) && !bitOf s.chain.conflict.toNat id then some (s.fld CHN_MAP (4 * id) 3) else none

/-- Sends a message to the unit that holds a logical ID; without one it is counted in CHN_NODEST (R357). -/
def sendLogical (s : State) (id kind hdr : Nat) (body : Bytes) : State :=
  match unitOf s id with
  | some a => sendTo s a kind hdr body
  | none => s.inc CHN_NODEST

/-- Sends a broadcast out of both ports (R359). -/
def broadcast (s : State) (kind hdr : Nat) (body : Bytes) : State :=
  let (s, m) := newMsg s kind 0 true hdr body
  portSend (portSend s 0 .own m) 1 .own m

/-- Ends downstream the messages of the given class that were arriving on port `p` (R351); what is left of them is discarded. -/
def cutClass (s : State) (p c : Nat) : State :=
  let o := 1 - p
  let q := s.port o
  let cut := q.cur.filter fun x => x.cls == c && x.way.transit
  if cut.isEmpty then s
  else
    let s := lctrl (s.setPort o { q with cur := q.cur.filter fun x => !(x.cls == c && x.way.transit) }) o 4 c
    (cut.filter fun x => x.way == .held).foldl (fun s x => freeFlits s p c x.flits.length true) s

/-- What waited at a port that went DOWN, `q` as it stood, gives back the receive buffers it held; what had come by that port holds none
any more (R350, R351). -/
def dropHeld (s : State) (p : Nat) (q : ChnPort) : State :=
  let o := 1 - p
  let s := (q.queue.filter fun x => x.1 == .held).foldl (fun s x => freeFlits s o x.2.cls x.2.flits true) s
  let s := (q.cur.filter fun x => x.way == .held).foldl (fun s x => freeFlits s o x.cls x.flits.length true) s
  let r := s.port o
  s.setPort o { r with queue := r.queue.map fun x => (x.1.freed, x.2), cur := r.cur.map fun x => { x with way := x.way.freed } }

end Sys2Proof.Machine
end

