-- ==== Sys2Proof/Machine/Events.lean ====
section
/-!
DEFINITION. Accesses and events: the address map (R16, Table 1.4), the decision of a memory gate (R304), violations
(R313, R314), engine reads and writes of memory (R306), the logs (R480–R487), yield marks (R488, R489) and the entry
into YIELD (R386, R387), which is this block's one shared response to a FATAL condition.
-/

namespace Sys2Proof.Machine

/-- What raises an event: event code, class, slot, partition, detail, suppressed occurrences. -/
abbrev Raiser := State → (ev cls slot part det supp : Nat) → State

/-- Detail items packed from bit 0 upward, each a value and its width (R486). -/
def packDet : List (Nat × Nat) → Nat
  | [] => 0
  | (v, w) :: r => v % 2 ^ w + 2 ^ w * packDet r

/-! ### The address map -/

/-- Where an internal address leads (Table 1.4). -/
inductive Place where
  | reg (slot off : Nat)
  | reserved
  | window (p off : Nat)
  | rom | ledger | glog | flash
  | gated (m off : Nat)        -- memory gate m and the offset in its window
  | unmapped
  deriving DecidableEq, Repr

/-- The base of a device memory channel (Table 1.4). -/
def chanBase (c : Nat) : Nat := 0x100000000 + c * 0x400000000

/-- The place of an internal address (R16, R17). -/
def place (s : State) (a : Nat) : Place :=
  if a < 0x460000 then .reg (a / 0x10000) (a % 0x10000)
  else if a < 0xF00000 then .reserved
  else if a < 0x1000000 then .window ((a - 0xF00000) / 0x10000) (a % 0x10000)
  else if a < 0x1020000 then .rom
  else if 0x2000000 ≤ a ∧ a < 0x2200000 then .gated 6 (a - 0x2000000)
  else if 0x3000000 ≤ a ∧ a < 0x3800000 then .gated 7 (a - 0x3000000)
  else if 0x4000000 ≤ a ∧ a < 0x4800000 then .ledger
  else if 0x5000000 ≤ a ∧ a < 0x5004000 then .glog
  else if 0x8000000 ≤ a ∧ a < 0x10000000 then .flash
  else if 0x100000000 ≤ a ∧ a < chanBase 6 then
    let c := (a - 0x100000000) / 0x400000000
    let off := (a - 0x100000000) % 0x400000000
    if s.bit (SYS_MEM_SIZE c) 31 && decide (off < s.fld (SYS_MEM_SIZE c) 0 16 * 0x100000) then .gated c off else .unmapped
  else .unmapped

/-! ### Memory gates -/

/-- The span of a region word (base and size): first offset and length, empty where the size is outside 15–34. -/
def spanOf (w : Word) : Nat × Nat :=
  let n := bitsOf w.toNat 24 6
  if 15 ≤ n ∧ n ≤ 34 then (bitsOf w.toNat 0 19 * 0x8000, 2 ^ n) else (0, 0)

/-- Whether an offset lies in a span. -/
def inSpan (sp : Nat × Nat) (off : Nat) : Bool := decide (sp.1 ≤ off) && decide (off < sp.1 + sp.2)

/-- The state field of an entry's CTRL: 0 OFF, 1 ON, 2 HOLD (Table 11.7). -/
def ctrlState (w : Word) : Nat := bitsOf w.toNat 0 2

/-- `held` of R309: an offset in the active or the staged span of a region in HOLD. -/
def mgHeld (s : State) (m off : Nat) : Bool :=
  (List.range 32).any fun r =>
    ctrlState (s.reg (MG_CTRL m r)) == 2
      && (inSpan (spanOf (s.reg (MG_BASE_ACT m r))) off || inSpan (spanOf (s.reg (MG_BASE m r))) off)

/-- The verdict of a memory gate: the capture bits [24:18] of Table 11.8 where it refuses. -/
inductive Dec where
  | pass
  | refuse (extra : Nat)
  | hold
  deriving DecidableEq, Repr

/-- The region that decides an access under the masks: the highest ON region whose span holds the offset and whose
sub-region is not disabled (R304). -/
def mgDecider (s : State) (m off : Nat) : Option Nat :=
  (List.range 32).reverse.find? fun r =>
    let sp := spanOf (s.reg (MG_BASE_ACT m r))
    ctrlState (s.reg (MG_CTRL m r)) == 1 && inSpan sp off
      && !bitOf (s.fld (MG_ATTR_ACT m r) 24 8) ((off - sp.1) / (sp.2 / 8))

/-- `mg_check` of R304. -/
def mgCheck (s : State) (m off level part : Nat) (t : AccType) : Dec :=
  if mgHeld s m off then .hold
  else
    let lockedBy := (List.range 32).find? fun r =>
      ctrlState (s.reg (MG_CTRL m r)) != 0 && s.bit (MG_CTRL m r) 3 && inSpan (spanOf (s.reg (MG_BASE_ACT m r))) off
    match (if level = 4 then lockedBy else none) with
    | some r => .refuse (r * 2 ^ 18 + 2 ^ 24)
    | none =>
      match mgDecider s m off with
      | some r =>
        if !s.bit (MG_PART_ACT m r) part then .refuse (r * 2 ^ 18)
        else if bitOf (s.fld (MG_ATTR_ACT m r) (match t with | .r => 0 | .w => 8 | .x => 16) 5) level then .pass
        else .refuse (r * 2 ^ 18)
      | none => if level = 3 && t != .x then .pass else .refuse (2 ^ 23)

/-! ### Violations -/

/-- The code of an access type in captures (R296, Table 11.6). -/
def typeCode : AccType → Nat
  | .r => 0 | .w => 1 | .x => 2

/-- Bits [17:0] of a capture word (Table 11.6). -/
def capWord (a : Access) (t : AccType) : Nat :=
  a.part.toNat + a.level.code * 2 ^ 5 + a.src.toNat * 2 ^ 8 + typeCode t * 2 ^ 16

/-- The capture registers of a gate: slots 0–69, memory gates 70–77, the fixed guards 78 (R314). -/
def capInfoReg (g : Nat) : Nat := if g < 70 then GATE_PS_CAP_INFO g else if g < 78 then GATE_MG_CAP_INFO (g - 70) else GATE_FIX_CAP_INFO
def capCountReg (g : Nat) : Nat := if g < 70 then GATE_PS_COUNT g else if g < 78 then GATE_MG_COUNT (g - 70) else GATE_FIX_COUNT

/-- Fills the capture of a gate when it is free, and counts the violation (R314). -/
def capture (s : State) (g : Nat) (a : Access) (t : AccType) (addr extra : Nat) : State :=
  let s := s.inc (capCountReg g)
  if s.bit (capInfoReg g) 31 then s
  else
    let s := s.setReg (capInfoReg g) (BitVec.ofNat 32 (capWord a t + extra + 2 ^ 31))
    if g < 70 then s.setReg (GATE_PS_CAP_OFF g) (BitVec.ofNat 32 (addr % 0x10000))
    else if g < 78 then s.setPair (GATE_MG_CAP_LO (g - 70)) (GATE_MG_CAP_HI (g - 70)) addr
    else s.setPair GATE_FIX_CAP_LO GATE_FIX_CAP_HI addr

/-- Whether any gate capture holds valid = 1: EVC source 47 (Table 12.2). -/
def anyCapture (s : State) : Bool := (List.range 79).any fun g => s.bit (capInfoReg g) 31

/-- Whether a mark of R488 makes an event yield-worthy. -/
def marked (s : State) (ev : Nat) : Bool := s.bit (ERR_YIELD (ev / 32)) (ev % 32)

/-- Raises an event at most once per 1,000 ms and key; an occurrence inside the limit is counted (R485). -/
def limited (rz : Raiser) (s : State) (key ev cls slot part det : Nat) : State :=
  match s.quiets.find? fun q => q.ev == ev && q.key == key with
  | some q =>
    if s.island < q.at_ + 1000000000 then
      { s with quiets := s.quiets.map fun x =>
          if x.ev == ev && x.key == key then { x with count := capAt 0xFFFF (x.count + 1) } else x }
    else
      rz { s with quiets := s.quiets.map fun x =>
          if x.ev == ev && x.key == key then { x with at_ := s.island, count := 0 } else x } ev cls slot part det q.count
  | none => rz { s with quiets := s.quiets ++ [⟨ev, key, s.island, 0⟩] } ev cls slot part det 0

/-- A violation at gate `g` (R313, R314). -/
def violate (rz : Raiser) (s : State) (g : Nat) (a : Access) (t : AccType) (addr extra : Nat) : State :=
  let s := evcInput (capture s g a t addr extra) 47 true
  limited rz s g 0x05 1 36 (if a.part.toNat < 16 then a.part.toNat else 31)
    (packDet [(a.src.toNat, 8), (a.level.code, 3), (typeCode t, 2), (a.part.toNat, 5), (addr, 32)])

/-- The slot of the block an initiator belongs to: hosts and the debug module reach the part through HIF and DBG (log 22). -/
def srcSlot (src : Nat) : Nat :=
  if src < 8 then 34 else if src < 0x10 then 38 else if src < 0x60 then src - 0x10
  else if src = 0x60 then 2 else if src = 0x61 then 1 else if src = 0x62 then 69 else 39

/-- An access outside the map is recorded as UNMAPPED in the initiator's log (R16). -/
def unmappedEv (rz : Raiser) (s : State) (a : Access) (addr : Nat) : State :=
  rz s 0x04 2 (srcSlot a.src.toNat) (if a.part.toNat < 16 then a.part.toNat else 31) (packDet [(addr, 40), (a.src.toNat, 8)]) 0

/-! ### Engine accesses -/

/-- How a memory access ended. -/
inductive AccRes where
  | ok | unmapped | denied | held
  deriving DecidableEq, Repr

/-- Whether a range of memory lies in one device memory channel below its limit (R17, R183). -/
def inChannel (s : State) (a n : Nat) : Bool :=
  decide (0 < n) && (match place s a, place s (a + n - 1) with
    | .gated m _, .gated k _ => decide (m < 6) && m == k
    | _, _ => false)

/-- The identity of the engine in block `slot` working for partition `p` (R19, Table 11.1). -/
def engine (slot p : Nat) : Access := ⟨BitVec.ofNat 8 (0x10 + slot), BitVec.ofNat 5 p, .p0⟩

/-- The decision for one byte of memory, gate number with it. Register space is not reached by the stream network
(log 22): it is outside the map of an engine. -/
def memDec (s : State) (a : Access) (t : AccType) (addr : Nat) : AccRes × Nat × Nat :=
  match place s addr with
  | .gated m off =>
    match mgCheck s m off a.level.code (if a.part.toNat = 31 then 31 else a.part.toNat) t with
    | .pass => (.ok, 0, 0)
    | .refuse x => (.denied, 70 + m, x)
    | .hold => (.held, 0, 0)
  | .rom => if [2, 3].contains a.level.code && t != .w then (.ok, 0, 0) else (.denied, 78, 0)
  | .ledger => if [3, 4].contains a.level.code && t == .r then (.ok, 0, 0) else (.denied, 78, 2 ^ 18)
  | .glog => if [2, 3, 4].contains a.level.code && t == .r then (.ok, 0, 0) else (.denied, 78, 2 * 2 ^ 18)
  | .flash => if [2, 3].contains a.level.code && t != .w then (.ok, 0, 0) else (.denied, 78, 3 * 2 ^ 18)
  | _ => (.unmapped, 0, 0)

/-- The parts of a range, cut at multiples of 4 KiB (R298, R299): address and length of each. -/
def pages (a n : Nat) : List (Nat × Nat) :=
  if n = 0 then []
  else
    let k := (a + n - 1) / 0x1000 - a / 0x1000 + 1
    (List.range k).map fun i =>
      let lo := Nat.max a ((a / 0x1000 + i) * 0x1000)
      (lo, Nat.min (a + n) ((a / 0x1000 + i + 1) * 0x1000) - lo)

/-- What tells the parts of an access apart (R298, R309): the window, the sub-regions of all regions that an address lies in, and the
staged spans of the regions in HOLD. -/
def partKey (s : State) (addr : Nat) : List Nat :=
  match place s addr with
  | .gated m off => m :: ((List.range 32).filterMap fun r =>
      let sp := spanOf (s.reg (MG_BASE_ACT m r))
      if ctrlState (s.reg (MG_CTRL m r)) != 0 && inSpan sp off then some (8 * r + (off - sp.1) / (sp.2 / 8)) else none)
    ++ (List.range 32).filterMap fun r =>
      if ctrlState (s.reg (MG_CTRL m r)) = 2 ∧ inSpan (spanOf (s.reg (MG_BASE m r))) off then some (300 + r) else none
  | .reg slot _ => [1000 + slot]
  | .window p _ => [1100 + p]
  | .reserved => [1200] | .rom => [1201] | .ledger => [1202] | .glog => [1203] | .flash => [1204]
  | .unmapped => [1300 + (addr - 0x100000000) / 0x400000000]

/-- Joins pages next to each other that lie in one part. -/
def joinPages (s : State) : List (Nat × Nat) → List (Nat × Nat)
  | [] => []
  | (a, n) :: rest =>
    match joinPages s rest with
    | (b, m) :: more => if partKey s a = partKey s b then (a, n + m) :: more else (a, n) :: (b, m) :: more
    | [] => [(a, n)]

/-- The parts of a range that are checked separately: those that span no region, sub-region or window boundary (R298; by
R299 these all lie on multiples of 4 KiB). -/
def partsOf (s : State) (addr n : Nat) : List (Nat × Nat) := joinPages s (pages addr n)

/-- Records the refused and unmapped parts of an access, each on its own (R298, R314). -/
def noteParts (rz : Raiser) (a : Access) (t : AccType) (s : State) (ps : List (Nat × Nat)) : State :=
  ps.foldl (fun s p =>
    let d := memDec s a t p.1
    match d.1 with
    | .denied => violate rz s d.2.1 a t p.1 d.2.2
    | .unmapped => unmappedEv rz s a p.1
    | _ => s) s

/-! ### Order -/

/-- Whether an access comes from a desk core. -/
def fromDesk (a : Access) : Bool := decide (8 ≤ a.src.toNat) && decide (a.src.toNat < 12)

/-- The target of an access (R12): a memory gate, a register block, a fixed window, or none. -/
def targetOf (s : State) (addr : Nat) : Nat :=
  match place s addr with
  | .gated m _ => m
  | .reg slot _ => 100 + slot
  | .window _ _ => 135
  | .rom => 200 | .ledger => 201 | .glog => 202 | .flash => 203 | .reserved | .unmapped => 204

/-- The bits of a FENCE set that name an access of a desk core (R322): w, r in desk SRAM, o, i elsewhere; an AMO reads and writes;
none for a fetch. -/
def fenceBits (s : State) (h : HeldAcc) : List Nat :=
  match h.core, h.typ, targetOf s h.addr with
  | .amo _ _ _, _, _ => [0, 1]
  | _, .x, _ => []
  | _, .w, 6 => [0] | _, .r, 6 => [1] | _, .w, _ => [2] | _, .r, _ => [3]

/-- Whether a FENCE set names an access. -/
def fenceNames (s : State) (set : BitVec 4) (h : HeldAcc) : Bool := (fenceBits s h).any fun i => set.getLsbD i

/-- The acquire and release bits of an AMO, LR or SC. -/
def acquires (h : HeldAcc) : Bool := match h.core with | .amo _ q _ | .lr q _ | .sc q _ => q | _ => false
def releases (h : HeldAcc) : Bool := match h.core with | .amo _ _ l | .lr _ l | .sc _ l => l | _ => false

/-- Whether `h` must follow `g`, which its initiator issued before and which waits: writes to one target in order, a read
after a write it overlaps and a write after a read it overlaps (R12), I/O accesses of a desk core to one target in program
order, an AMO, LR or SC that acquires or releases, and what a FENCE orders (R322). -/
def follows (s : State) (g h : HeldAcc) : Bool :=
  g.acc.src == h.acc.src && (match g.core, h.core with
    | .fence _ _, .fence _ _ => true
    | .fence _ succ, _ => fenceNames s succ h
    | _, .fence pred _ => fenceNames s pred g
    | _, _ =>
      targetOf s g.addr == targetOf s h.addr
        && ((fromDesk h.acc && (targetOf s h.addr != 6 || acquires g || releases h)) || (g.typ == .w && h.typ == .w)
          || ((g.typ == .w || h.typ == .w) && decide (g.addr < h.addr + h.len) && decide (h.addr < g.addr + g.len))))

/-- Whether an access has to wait behind one that its initiator issued before. -/
def mustWait (s : State) (h : HeldAcc) : Bool := s.heldAcc.any fun g => follows s g h

/-- Whether one part of an access waits: its gate holds it (R309), or its order does. -/
def partWaits (s : State) (h : HeldAcc) (p : Nat × Nat) : Bool :=
  (memDec s h.acc h.typ p.1).1 == .held || mustWait s { h with addr := p.1, len := p.2 }

/-- How a range of an engine's access comes out: held where any part of it waits, else its first failure. -/
def rangeRes (s : State) (a : Access) (t : AccType) (ps : List (Nat × Nat)) : AccRes :=
  let rs := ps.map fun p => (memDec s a t p.1).1
  if rs.contains .held || ps.any (fun p => mustWait s { acc := a, typ := t, addr := p.1, len := p.2 }) then .held
  else match rs.find? fun r => r != .ok with
    | some r => r
    | none => .ok

/-- A store breaks the reservations of the desk cores but its own that it overlaps: their caches see it (R322). -/
def snoop (a : Access) (addr n : Nat) (s : State) : State :=
  s.each 4 fun s k =>
    match (s.desk k).resv with
    | some r => if a.src.toNat ≠ 8 + k ∧ r.1 < addr + n ∧ addr < r.1 + r.2 then s.setDesk k { s.desk k with resv := none } else s
    | none => s

/-- The part of a write that passes is stored, each part on its own (R298). -/
def storeParts (a : Access) (addr : Nat) (bs : Bytes) (s : State) (ps : List (Nat × Nat)) : State :=
  ps.foldl (fun s p =>
    if (memDec s a .w p.1).1 = .ok then (snoop a p.1 p.2 s).store p.1 ((bs.drop (p.1 - addr)).take p.2) else s) s

/-- Undefined bytes in the parts of a range that pass, one free value each. -/
def voidParts (a : Access) (addr n : Nat) (s : State) (ps : List (Nat × Nat)) : State :=
  storeParts a addr ((List.range n).map fun i => Config.voidByte (s.free + i)) (s.draws n) ps

/-- A memory write of an engine's work, which goes on when all of it can (R309): parts that pass are performed, refused
and unmapped parts recorded; where a part is held nothing is done yet. -/
def memWrite (rz : Raiser) (s : State) (a : Access) (addr : Nat) (bs : Bytes) : State × AccRes :=
  let ps := partsOf s addr bs.length
  let res := rangeRes s a .w ps
  if res = .held then (s, .held) else (noteParts rz a .w (storeParts a addr bs s ps) ps, res)

/-- A write on its own: each part that passes is performed, each refused or unmapped one recorded, each part that waits is
held by itself and checked when its entry leaves HOLD (R298, R309). -/
def queueWrite (rz : Raiser) (s : State) (a : Access) (addr : Nat) (bs : Bytes) (after : After := .nothing) : State × AccRes :=
  let h : HeldAcc := { acc := a, typ := .w, addr := addr, len := bs.length, after := after }
  let ps := partsOf s addr bs.length
  let wait := ps.filter (partWaits s h)
  let now := ps.filter fun p => !partWaits s h p
  let res := match (now.map fun p => (memDec s a .w p.1).1).find? fun r => r != .ok with
    | some r => r
    | none => if wait.isEmpty then .ok else .held
  let s := noteParts rz a .w (storeParts a addr bs s now) now
  ({ s with heldAcc := s.heldAcc ++ wait.map fun p => { h with addr := p.1, len := p.2, data := sliceB bs (p.1 - addr) p.2 } }, res)

/-- The 32 bytes of an event record (Table 18.2). -/
def LogRec.bytes (r : LogRec) : Bytes :=
  leBytes 4 r.seq.toNat ++ [r.ev, BitVec.ofNat 8 (r.cls.toNat + (Bool.nat r.yielded) * 4), r.slot, BitVec.ofNat 8 r.part.toNat]
    ++ leBytes 8 r.time.toNat ++ leBytes 2 r.supp.toNat ++ [0, 0] ++ leBytes 8 r.detail.toNat ++ leBytes 4 r.seq.toNat

/-- An empty global log entry. -/
def noRec : LogRec := ⟨0, 0, 0, false, 0, 0, 0, 0, 0⟩

/-- The 32 bytes of a ledger entry (R34, Table 2.3). -/
def LEntry.bytes (e : LEntry) : Bytes :=
  leBytes 4 e.content.toNat ++ leBytes 4 e.change.toNat ++ leBytes 4 e.crc.toNat ++ leBytes 4 e.seq.toNat
    ++ leBytes 4 (capAt 0xFFFF e.run + e.basis.toNat * 2 ^ 16 + (Bool.nat e.taint) * 2 ^ 18 + (Bool.nat e.never) * 2 ^ 19
        + (Bool.nat e.expLong) * 2 ^ 20 + (Bool.nat e.watch) * 2 ^ 21 + (Bool.nat e.watchExp) * 2 ^ 22)
    ++ leBytes 4 (e.surface.toNat + e.tile.toNat * 2 ^ 16) ++ leBytes 4 e.updates.toNat ++ leBytes 4 0

/-- What a byte reads as through the map: memory, or the ROM, flash, ledger and global log contents (Table 1.4). -/
def mapByte (s : State) (a : Nat) : Byte :=
  match place s a with
  | .gated _ _ => s.load8 a
  | .rom => Config.romByte (a - 0x1000000)
  | .flash => Config.flashByte (a - 0x8000000)
  | .ledger => (s.led ((a - 0x4000000) / 32)).bytes.getD (a % 32) 0
  | .glog => (tget (fun _ => noRec) s.glog ((a - 0x5000000) / 32)).bytes.getD (a % 32) 0
  | _ => 0

/-- The bytes of one part: zeros where it is refused or unmapped (R298, R306). -/
def partBytes (s : State) (a : Access) (t : AccType) (p : Nat × Nat) : Bytes :=
  (List.range p.2).map fun i => if (memDec s a t p.1).1 = .ok then mapByte s (p.1 + i) else 0

/-- A memory read or fetch of an engine's work: bytes of parts that pass, zeros of parts refused or unmapped (R298, R306);
where a part is held nothing is read yet. -/
def memRead (rz : Raiser) (s : State) (a : Access) (addr n : Nat) (t : AccType := .r) : State × AccRes × Bytes :=
  let ps := partsOf s addr n
  let res := rangeRes s a t ps
  if res = .held then (s, .held, []) else (noteParts rz a t s ps, res, ps.flatMap (partBytes s a t))

/-! ### Writes toward a partition's host -/

/-- Whether the PCIe link of a port is up. -/
def linkUp (s : State) (port : Nat) : Bool := s.bit (HIF_HP_STATUS port) 0

/-- The writes of one record toward a partition's memory, in order: on HP0–HP3 posted on PCIe and dropped while the
link is down (`count`: with HIF_HPn_DROPPED), on HP4 made in internal memory through the gates. Answers whether the record was written, waits, was
dropped, or was refused; `cpl` where it is a completion (R269, R283, R483, R517). -/
def partWrite (rz : Raiser) (s : State) (count : Bool) (p slot base : Nat) (ws : List (Nat × Bytes)) (cpl : Bool := false) :
    State × AccRes :=
  let port := (s.part p).port
  if port < 4 then
    if linkUp s port then (ws.foldl (fun s w => s.emit (.hostWrite port (BitVec.ofNat 64 (base + w.1)) w.2)) s, .ok)
    else (if count then s.inc (HIF_HP_DROPPED port) else s, .unmapped)
  else
    let put := fun (r : State × AccRes) (w : Nat × Bytes) (after : After) =>
      let x := queueWrite rz r.1 (engine slot p) (base + w.1) w.2 after
      (x.1, if r.2 = .ok || (r.2 = .held && x.2 != .ok) then x.2 else r.2)
    match ws.getLast? with
    | none => (s, .ok)
    | some z => put (ws.dropLast.foldl (fun r w => put r w (.fault p)) (s, .ok)) z (if cpl then .cpl p else .fault p)

/-- Moves a partition to FAULTED with a cause (R269, R279, R517). -/
def faultPart (s : State) (p cause : Nat) : State :=
  s.setPart p { s.part p with state := .faulted, cause := cause }

/-- Whether a partition's host memory is on PCIe. -/
def onPcie (s : State) (p : Nat) : Bool := decide ((s.part p).port < 4)

/-! ### The logs -/

/-- One more discard in an overflow pair (R481, R482, R484). -/
def countOvf (s : State) (lo hi cls : Nat) : State := s.add (if cls < 2 then lo else hi) (cls % 2 * 16) 16 1

/-- Writes a record to the global log, or counts it when the log is full (R480, R481). -/
def logGlobal (s : State) (r : LogRec) : State :=
  if r.cls.toNat < s.fld ERR_GLOG_CFG 0 2 && r.cls.toNat < 2 then s
  else
    let n := s.reg ERR_GLOG_PROD
    if (n - s.reg ERR_GLOG_CONS).toNat < 512 then
      let s := { s with glog := tset (fun _ => noRec) s.glog (n.toNat % 512) { r with seq := n + 1 } }
      evcPulse (s.setReg ERR_GLOG_PROD (n + 1)) 46
    else countOvf s ERR_GLOG_OVF0 ERR_GLOG_OVF1 r.cls.toNat

/-- Whether records are written to a partition's log ring in its state (R483). -/
def PartState.logs : PartState → Bool
  | .active | .stopping | .faulted => true
  | _ => false

/-- Writes a record to a partition's log ring, or counts its discard (R482, R483). -/
def logPart (rz : Raiser) (s : State) (p : Nat) (r : LogRec) : State :=
  let q := s.part p
  let n := s.reg (ERR_P_PROD p)
  let m := s.fld (ERR_P_PLOG_CFG p) 0 4
  if q.state.logs && s.bit (ERR_P_PLOG_CFG p) 8 && decide ((n.toNat + 2 ^ 32 - q.logCons.toNat % 2 ^ 32) % 2 ^ 32 < 2 ^ m) then
    let base := s.pair (ERR_P_PLOG_LO p) (ERR_P_PLOG_HI p) + 64 + 32 * (n.toNat % 2 ^ m)
    let bs := LogRec.bytes { r with seq := n + 1 }
    let x := partWrite rz s true p 68 base
      [(28, leBytes 4 0), (4, (bs.drop 4).take 24), (0, bs.take 4), (28, bs.take 4)]
    if x.2 = .ok || x.2 = .held then
      (x.1.setReg (ERR_P_PROD p) (n + 1)).setPart p { x.1.part p with logFull := false }
    else if onPcie s p then x.1 else faultPart x.1 p 7
  else
    let s := countOvf s (ERR_P_OVF0 p) (ERR_P_OVF1 p) r.cls.toNat
    if q.state.logs && !q.logFull then
      rz (s.setPart p { s.part p with logFull := true }) 0x08 0 68 31 0 0
    else s

/-! ### YIELD -/

/-- The modes that a yield-worthy event leaves for YIELD (Table 16.6). -/
def Mode.yields : Mode → Bool
  | .prime | .shadow | .run | .handover | .test => true
  | _ => false

/-- The completion of a job. -/
def cplOf (j : Job) (st : Status) (body : BitVec 128) : Cpl :=
  { part := j.req.part.val, cring := j.req.cring.val, tag := j.req.tag, opcode := j.opcode, ring := j.req.ring.val,
    index := j.req.index, status := st, body := body, order := j.order }

/-- Whether the work that holds a granted item goes on in YIELD: pictures in progress that belong to no job. -/
def workStays (s : State) (id : Nat) : Bool :=
  if id < 256 then s.ctxs.any fun x => match x.2.dec with | some d => d.cores.head? == some id | none => false
  else if id < 512 then s.ipp.any fun x => x.1 + 256 == id && (match x.2 with | some w => w.begun | none => false)
  else if id < 768 then s.encs.any fun x => x.1 + 512 == id && x.2.work.isSome
  else if id < 1024 then s.dce.any fun x => x.1 + 768 == id && x.2.isSome
  else s.crcu.any fun x => x.1 + 1280 == id && x.2.isSome

/-- Whether the arbiter granted the item of that name and it has not ended. -/
def itemRuns (s : State) (id : Nat) : Bool := s.pwr.items.any fun i => i.id == id && i.granted && !i.ended

/-- The surface a job writes (R157): none once a yielded job has ended. -/
def jobTarget (j : Job) : Option Nat :=
  if j.ended.isSome then none
  else match j.opcode.toNat with
  | 0x0501 => some (j.req.u16 20)
  | 0x0703 => some (j.req.u16 16)
  | _ => none

/-- The surface a picture record names (Table 5.3). -/
def recSurface (r : Bytes) : Nat := leNat (sliceB r 24 2) % 0x1000

/-- The surface a job reads (R157): named by itself, or by the picture record it names. -/
def jobSource (j : Job) : Option Nat :=
  if j.ended.isSome then none
  else match j.opcode.toNat with
  | 0x0501 => if j.req.u8 18 = 1 then some (j.req.u16 22) else if j.snap.isEmpty then none else some (recSurface j.snap)
  | 0x0602 => some (j.req.u16 18)
  | _ => none

/-- Whether two surfaces named by jobs are one. -/
def sameSurf (a b : Option Nat) : Bool := a.isSome && a == b

/-- Whether a job need not wait for an earlier one (R157). -/
def mayRun (s : State) (j : Job) : Bool :=
  !s.jobs.any fun k => decide (k.id < j.id)
    && (sameSurf (jobTarget k) (jobSource j) || sameSurf (jobTarget k) (jobTarget j) || sameSurf (jobSource k) (jobTarget j))

/-- Whether an accepted job runs when the part enters YIELD, so that it stops at its abort point or runs to its end
(R288, Table 10.8): its engine works on it, or it is past its point of no return, or it is a command without an abort
point that was begun. A link's training ends with R225 and the touch ports stop (Table 9.3); a role swap ends with the
holder bit (R387). With every engine clock stopped for THERMAL_SHUTDOWN nothing runs (R441). -/
def runsOn (s : State) (j : Job) : Bool :=
  let id := j.id
  !s.pwr.halted && (match j.opcode.toNat with
    | 0x0402 | 0x0403 => s.ctxs.any fun x => x.2.unbind.contains id || x.2.flush.contains id
    | 0x0501 => s.ipp.any fun x => match x.2 with | some w => w.begun && w.job == some id | none => false
    | 0x0503 => s.follows.any fun x => x.2.closing.contains id
    | 0x0602 => s.encs.any fun x => match x.2.work with | some w => w.job == some id | none => false
    | 0x0604 => s.encs.any fun x => x.2.closing.contains id
    | 0x0703 => mayRun s j
    | 0x0802 => s.layers.any fun x => x.2.pend.any fun p => p.armed && p.job == id
    | 0x0803 => s.layers.any fun x => x.2.destroyArmed && x.2.destroy.contains id
    | 0x0902 => s.seals.any fun x => x.2.seals.any fun y => y.2 == id
    | 0x0B02 => s.heads.any fun x => x.2.start.contains id || x.2.stop.contains id
    | 0x0B05 => j.running
    | 0x0D01 | 0x0D02 => s.dce.any fun x => x.2 == some (.job id) && itemRuns s (768 + x.1)
    | 0x0E01 => s.crcu.any fun x => x.2 == some id && itemRuns s (1280 + x.1)
    | 0x1005 => s.chain.sends.any fun x => x.1 == id
    | 0x1101 => s.rdn.ckptJobs.contains id
    | 0x1102 | 0x1104 => s.rdn.waiting.any fun x => x.1 == id
    | _ => false)

/-- The completions of yielded jobs that have ended, in the order of acceptance: one that still runs holds back those
accepted after it (R288). -/
def yieldedCpls : List Job → List Cpl × List Job
  | [] => ([], [])
  | j :: js =>
    match j.yielded, j.ended with
    | true, none => ([], j :: js)
    | true, some b => let r := yieldedCpls js; (cplOf j 4 b :: r.1, r.2)
    | false, _ => let r := yieldedCpls js; (r.1, j :: r.2)

/-- Sends the completions of yielded jobs whose turn has come. -/
def yieldFlush (s : State) : State :=
  let r := yieldedCpls s.jobs
  { s with jobs := r.2, cpls := s.cpls ++ r.1 }

/-- Whether an address of a DCE or CRC job lies in the part's own memory: host memory of HP4 does (R269). -/
def isInternal (s : State) (p : Nat) (host : Bool) : Bool := !(host && onPcie s p)

/-- The counters of an ended DCE item (Table 15.7). -/
def dceCount (s : State) (e st consumed produced : Nat) : State :=
  let s := s.inc (DCE_JOBS e)
  let s := if st = stComplete then s else s.inc (DCE_FAILED e)
  let s := if st = stOutFull then s.inc (DCE_OUT_FULL e) else s
  let s := if st = stCheckFail then s.inc (DCE_CHECK_FAIL e) else s
  let s := s.setPair (DCE_IN_LO e) (DCE_IN_HI e) (s.pair (DCE_IN_LO e) (DCE_IN_HI e) + consumed)
  s.setPair (DCE_OUT_LO e) (DCE_OUT_HI e) (s.pair (DCE_OUT_LO e) (DCE_OUT_HI e) + produced)

/-- Undefined bytes in the parts of a range that pass (R411–R413). -/
def voidFill (s : State) (slot p a n : Nat) : State :=
  voidParts (engine slot p) a n s (pages a n)

/-- The completion of a DCE job (Table 15.3). -/
def dceBody (consumed produced crc check : Nat) : BitVec 128 := cplBody [(16, 4, consumed), (20, 4, produced), (24, 4, crc), (28, 4, check)]

/-- Bytes 28–31 of the completion of a decompression whose stream carried no check value: bytes 52–55 of a raw one with verify
(Table 15.3). -/
def dceCarried (q : Req) : Nat := if dceVerify q then q.u32 52 else 0

/-- The parts of a range before the first that fails or waits, and that one. -/
def okParts (s : State) (a : Access) (t : AccType) (addr n : Nat) : List (Nat × Nat) × Option (Nat × Nat) :=
  let ps := partsOf s addr n
  let ok := ps.takeWhile fun p => rangeRes s a t [p] == .ok
  (ok, (ps.drop ok.length).head?)

/-- The engine that reads and writes for a DCE job on engine `e`: the host port's block for memory of HP4's host. -/
def dceReader (e : Nat) (q : Req) : Access := engine (if dceSrcHost q then 34 else 42 + e) q.part.val

/-- The bytes of a DCE job's source in the part's memory before the first part that fails or waits, and that part. -/
def dceInner (s : State) (e : Nat) (q : Req) : Bytes × Option (Nat × Nat) :=
  let x := okParts s (dceReader e q) .r (dceSrc q) (dceLen q)
  (x.1.flatMap (partBytes s (dceReader e q) .r), x.2)

/-- A running DCE job stops (R413): counted, its destination undefined, its completion with it. How much of its source `src` it had read
and written is open (log 71); the check values are those of what it had (R409), open too where the source is not known. -/
def dceStop (s : State) (e : Nat) (j : Job) (src : Option Bytes) : State × BitVec 128 :=
  let q := j.req
  let p := q.part.val
  let open_ := fun i m => Config.unstated (s.free + i) % m
  let t := s.draws 4
  let t := if isInternal s p (dceDstHost q) then voidFill t (42 + e) p (dceDst q) (dceCap q) else t
  let comp : Bool := j.opcode.toNat == 0x0D01
  let fin := fun (consumed produced crc check : Nat) =>
    (dceCount t e stAborted consumed produced, dceBody consumed produced crc check)
  match src with
  | none => fin (open_ 0 (dceLen q + 1)) (open_ 1 (dceCap q + 1)) (open_ 2 (2 ^ 32)) (if comp then open_ 3 (2 ^ 32) else dceCarried q)
  | some bs =>
    let had := bs.take (open_ 0 (bs.length + 1))
    if comp then fin had.length (open_ 1 (dceCap q + 1)) (crc32 had) (adler32 had)
    else
      let out := (unpack (dceFmt q) none had (dceCap q)).out
      let out := out.take (open_ 1 (out.length + 1))
      fin had.length out.length (crc32 out) (dceCarried q)

/-- The result record of an ended CRC job (R418, Table 15.8). -/
def crcPost (s : State) (u : Nat) (q : Req) (rst value bytes : Nat) : State :=
  let s := s.setPair (CRCU_RES_LO u) (CRCU_RES_HI u) value
  let s := (s.setReg (CRCU_RES_BYTES u) (BitVec.ofNat 32 bytes)).inc (CRCU_JOBS u)
  s.resultDone (CRCU_RES_STATUS u) (rst + q.part.val * 2 ^ 3 + q.u8 18 * 2 ^ 8)

/-- The completion of an ended CRC job, its record posted (Table 15.5). -/
def crcBody (s : State) (u value bytes : Nat) : BitVec 128 :=
  cplBody [(16, 8, value), (24, 4, bytes), (28, 1, u), (30, 2, s.fld (CRCU_RES_STATUS u) 16 16)]

/-- The bytes up to a 4 KiB boundary of the source at which an abort stops a job (R419): which one is open. -/
def crcStop (s : State) (q : Req) : Nat :=
  let n := q.u32 20
  let ps := pages (crcSrc q) n
  let k := Config.unstated s.free % (ps.length + 1)
  (ps.take k).foldl (fun m x => m + x.2) 0

/-- A DCE or CRC job that runs ends with its unit's clock (R418, R423, R441): counted, its record posted, its completion ready. -/
def cutJob (s : State) (j : Job) : State :=
  let put := fun (x : State × BitVec 128) =>
    { x.1 with jobs := x.1.jobs.map fun k => if k.id == j.id then { k with ended := some x.2 } else k }
  match s.dce.find? fun x => x.2 == some (.job j.id) && itemRuns s (768 + x.1), s.crcu.find? fun x => x.2 == some j.id && itemRuns s (1280 + x.1) with
  | some x, _ => put (dceStop s x.1 j (if isInternal s j.req.part.val (dceSrcHost j.req) then some (dceInner s x.1 j.req).1 else none))
  | none, some x =>
    let n := crcStop s j.req
    let t := crcPost s.draw x.1 j.req 1 0 n
    put (t, crcBody t x.1 0 n)
  | none, none => s

/-- What entry into YIELD does to the accepted jobs (R288): those that run go on to their abort point or their end, an
ABORT that waits for one of them too; every other one ends now, where `cut` says that the engine clocks stop a running DCE or CRC
job at once; all complete with YIELDED in the order of acceptance. Requests of the arbiter lapse, and what waited for the jobs
that end waits no more. -/
def yieldJobs (cut : Bool) (s : State) : State :=
  let s := if cut then s.jobs.foldl cutJob s else s
  let on := (s.jobs.filter (runsOn s)).map (·.id)
  let aborts := (s.jobs.filter fun j => on.contains j.id).flatMap (·.abortBy)
  let stays := fun (id : Nat) => on.contains id
  let s : State := { s with
    jobs := s.jobs.map fun j => { j with yielded := true, ended := if stays j.id || aborts.contains j.id then none else some (j.ended.getD 0) }
    ipp := s.ipp.filter fun x => match x.2 with | some w => w.begun && w.job.all stays | none => false
    dce := s.dce.filter fun x => match x.2 with | some (.job id) => stays id | none => false | _ => true
    crcu := s.crcu.filter fun x => x.2.any stays
    encs := s.encs.map fun x => (x.1, { x.2 with
      work := x.2.work.filter fun w => w.job.all stays, closing := x.2.closing.filter stays })
    follows := s.follows.map fun (x : Nat × Follow) => (x.1, { x.2 with closing := x.2.closing.filter stays })
    layers := s.layers.map fun x => (x.1, { x.2 with pend := x.2.pend.filter (·.armed), destroy := x.2.destroy.filter stays })
    heads := s.heads.map fun x => (x.1, { x.2 with
      start := x.2.start.filter stays, stop := x.2.stop.filter stays, auxJobs := x.2.auxJobs.filter stays })
    seals := s.seals.map fun x => (x.1, { x.2 with seals := x.2.seals.filter fun y => stays y.2 })
    touch := s.touch.map fun (x : Nat × Touch) => (x.1, { x.2 with test := none })
    parts := s.parts.map fun x => (x.1, { x.2 with rings := x.2.rings.map fun r => (r.1, { r.2 with wait := none }) })
    ctxs := s.ctxs.map fun x => (x.1, { x.2 with
      flush := x.2.flush.filter stays, unbind := x.2.unbind.filter stays, chosen := none })
    rdn := { s.rdn with deferred := false, jobs := [], ckptJobs := s.rdn.ckptJobs.filter stays, waiting := s.rdn.waiting.filter fun x => stays x.1, swap := {} }
    chain := { s.chain with sends := s.chain.sends.filter fun x => stays x.1 } }
  yieldFlush { s with pwr := { s.pwr with items := (s.pwr.items.filter (·.granted)).map fun (i : PwrItem) =>
    (if workStays s i.id then i else i.stopping s.island) } }

/-- Every transmitter DARK and every link's training discarded (R225). -/
def allDark (s : State) : State :=
  { s with heads := s.heads.map fun x => (x.1, { x.2 with tx := .dark, trained := false, linkJob := none, sinkOn := false }) }

/-- The canonical form after a table was rewritten entry by entry: entries equal to their default leave. -/
def tnorm {α : Type} [DecidableEq α] (d : Nat → α) (t : Tbl α) : Tbl α := t.filter fun x => !decide (x.2 = d x.1)

/-- All tables that whole-table rewrites touch, in canonical form again. -/
def State.norm (s : State) : State :=
  { s with
    heads := tnorm (fun _ => {}) s.heads, encs := tnorm (fun _ => {}) s.encs, layers := tnorm (fun _ => {}) s.layers
    parts := tnorm (fun _ => {}) (s.parts.map fun x => (x.1, { x.2 with rings := tnorm (fun _ => {}) x.2.rings }))
    ctxs := tnorm (fun _ => {}) s.ctxs, touch := tnorm (fun _ => {}) s.touch, surfs := tnorm (fun _ => {}) s.surfs
    flows := tnorm (fun _ => {}) s.flows, follows := tnorm (fun _ => {}) s.follows, seals := tnorm (fun _ => {}) s.seals }

/-- Leaving TEST (R464, R471): the test bit, force, generator, checker, loop and test-rate fields of every quad clear. -/
def leaveTest (s : State) : State :=
  if s.ctl.mode != .test then s
  else
    let s := s.each 16 fun s n =>
      let s := s.each 4 fun s l => settleBits s n l
      let s := (s.setBit (QD_CFG n) 3 false).setReg (QD_TEST_RATE n) (regReset (QD_TEST_RATE n))
      s.each 4 fun s l =>
        let s := (s.setFld (QD_LANE_CTRL n l) 2 4 0).setReg (QD_LANE_PRBS n l) (regReset (QD_LANE_PRBS n l))
        (s.setReg (QD_LANE_LOOP n l) 0).setBit (QD_LANE_PRBS_STAT n l) 0 false
    { s with lanesQd := [], lockAt := [] }

/-- A touch port's scan or pass is given up and its electrode pins go high-impedance (R244). -/
def pinsOff (s : State) (p : Nat) : State :=
  let t := s.tch p
  let s := s.setTch p { t with slots := [], scanning := false, driven := false }
  if t.driven then s.emit (.touchPins p none) else s

/-- Entry into YIELD (R225, R288, R386, R387, R443): outputs DARK, touch stopped, jobs ended, the holder bit cleared and
YIELD broadcast with the bit as it was, a transition in progress ended. -/
def enterYield (s : State) (ev cls part det : Nat) : State :=
  let s := (s.setReg ERR_YCAP_INFO (BitVec.ofNat 32 (ev + cls * 2 ^ 8 + part * 2 ^ 16 + 2 ^ 31)))
  let s := (s.setPair ERR_YCAP_TIME_LO ERR_YCAP_TIME_HI s.now).setPair ERR_YCAP_DET_LO ERR_YCAP_DET_HI det
  let s := if s.ctl.mode = .prime then s.setBit TB_STATUS 0 false else leaveTest s
  let s := { s with ctl := { s.ctl with prev := s.ctl.mode, mode := .yield, cause := 1, target := none, latent := none } }
  let s := (yieldJobs (ev == 0x82) (allDark (if ev = 0x82 then thermalHalt s else s))).norm.each 2 pinsOff
  let h := s.holder
  let s := s.setBit CHN_LOGICAL 3 false
  broadcast s 6 (hput 8 1 s.logicalId + hput 9 1 (Bool.nat h) + hput 10 2 ev + hput 16 8 s.now) []

/-- Records an event in the logs it reaches (R480) and enters YIELD where it is marked (R386, R488), after the transition
from KEEP into PRIME where that is in progress (R445). `rz` raises what the writing of the record itself brings. -/
def recordEv (rz : Raiser) : Raiser := fun s ev cls slot part det supp =>
  if !s.ctl.core then s
  else
    let y := marked s ev && decide (1 ≤ cls) && s.ctl.mode.yields && s.ctl.latent.isNone
    let r : LogRec := { seq := 0, ev := BitVec.ofNat 8 ev, cls := BitVec.ofNat 2 cls, yielded := y, slot := BitVec.ofNat 8 slot,
                        part := BitVec.ofNat 5 part, time := BitVec.ofNat 64 s.now, supp := BitVec.ofNat 16 (capAt 0xFFFF supp),
                        detail := BitVec.ofNat 64 det }
    let s := logGlobal s r
    let s := if part < 16 then logPart rz s part r else s
    if !y then s
    else if s.ctl.target.isSome then { s with ctl := { s.ctl with latent := some (ev, cls, part, det) } }
    else enterYield s ev cls part det

/-- Raises an event; a record whose own writing is refused raises at most two further records (log 23). -/
def raiseN : Nat → Raiser
  | 0 => fun s _ _ _ _ _ _ => s
  | n + 1 => recordEv (raiseN n)

/-- Raises an event (R480). -/
def raise (s : State) (ev cls slot part : Nat) (det : List (Nat × Nat)) : State := raiseN 3 s ev cls slot part (packDet det) 0

/-- Raises an event at most once per key and 1,000 ms (R485). -/
def raiseKey (s : State) (key ev cls slot part : Nat) (det : List (Nat × Nat)) : State :=
  limited (raiseN 3) s key ev cls slot part (packDet det)

/-- A violation at a gate (R314). -/
def violation (s : State) (g : Nat) (a : Access) (t : AccType) (addr extra : Nat) : State :=
  violate (raiseN 3) s g a t addr extra

/-- Engine writes and reads of device memory by block `slot` for partition `p`. -/
def engWrite (s : State) (slot p addr : Nat) (bs : Bytes) : State × AccRes := memWrite (raiseN 3) s (engine slot p) addr bs
def engRead (s : State) (slot p addr n : Nat) : State × AccRes × Bytes := memRead (raiseN 3) s (engine slot p) addr n

/-- A write that belongs to no job: lost where it is refused or unmapped (R517), made later where it is held; `after` says which source
of the event controller pulses once it is made (R327). Answers how it ended, a held one as made. -/
def looseWrite (s : State) (slot p addr : Nat) (bs : Bytes) (after : After := .nothing) : State × AccRes :=
  let x := queueWrite (raiseN 3) s (engine slot p) addr bs after
  (match after, x.2 with | .pulse i, .ok => evcPulse x.1 i | _, _ => x.1, if x.2 = .held then .ok else x.2)

/-- How the gates decide on the pieces of a rectangle: the first failure. -/
def rowsDec (s : State) (slot p : Nat) (t : AccType) (rs : List (Nat × Nat)) : AccRes :=
  rangeRes s (engine slot p) t (rs.flatMap fun r => pages r.1 r.2)

/-- The slot that owns a register address: partition windows belong to slot 35 (R10). -/
def slotOf (addr : Nat) : Nat := if addr < 0xF00000 then addr / 0x10000 else 35

/-- The partition an access concerns in a record: 31 where it carries no partition 0–15 (R480). -/
def partOf (a : Access) : Nat := if a.part.toNat < 16 then a.part.toNat else 31

/-- ACCESS_SIZE (1), ACCESS_RANGE (2) and ACCESS_STATE (3), class INFO, in the initiator's log; the chapters list no
detail for them (R18, R82, R275, R486). -/
def accessEv (s : State) (ev : Nat) (a : Access) (addr : Nat) : State := raise s ev 0 (slotOf addr) (partOf a) []

end Sys2Proof.Machine
end

