-- ==== Sys2Proof/Machine/RegAccess.lean ====
section
/-!
DEFINITION. The path of a register access: powered domain (R15), access size (R18), absent blocks (R3), the peripheral
gate of the slot (R300–R302, R309, R316), the partition match of a set-up window (R20, R22); and the plain effect of a
write under the register's access types (R6, R8).
-/

namespace Sys2Proof.Machine

/-- Whether the lifecycle permits debug (Table 16.7, R448). -/
def lifecycleDebug (s : State) : Bool := s.fuses.cycleNow == 1 || s.fuses.cycleNow == 3 || s.fuses.unlockNow

/-- Whether DEBUG initiators are permitted now (Table 16.7, R448): not before boot has applied and locked the gate entries
that the image names (R317). -/
def debugOn (s : State) : Bool := s.ctl.gatesUp && lifecycleDebug s

/-! ### The identity an initiator carries -/

/-- The internal address of offset `o` of BAR2 of host port `n` (R22). -/
def bar2Addr (s : State) (n o : Nat) : Nat := (s.fld (HIF_HP_BAR2_BASE n) 0 20 * 0x100000 + o) % 2 ^ 40

/-- Whether BAR2 of host port `n` maps an internal address (R22). -/
def inBar2 (s : State) (n addr : Nat) : Bool := decide ((addr + 2 ^ 40 - s.fld (HIF_HP_BAR2_BASE n) 0 20 * 0x100000) % 2 ^ 40 < 2 ^ 28)

/-- What a desk core can carry (R19, R320): its DSK_COREk_PART, P1 in user mode and P2 above, once it runs and its clock does, and the desk PLL is not stopped for THERMAL_SHUTDOWN (R326). -/
def deskCarries (s : State) (a : Access) : Bool :=
  let k := a.src.toNat - 8
  s.bit DSK_CTRL k && !(s.desk k).asleep && !s.pwr.halted && a.part.toNat == s.fld (DSK_CORE_PART k) 0 5
    && (if (s.desk k).mode = 0 then a.level == .p1 else a.level == .p2)

/-- What a host port carries in BAR2 (Table 1.5): its primary partition at P0, or DEVICE at DEBUG in debug mode. -/
def bar2Carries (s : State) (a : Access) : Bool :=
  let n := a.src.toNat
  if s.bit (HIF_HP_DEBUG n) 0 then a.level == .debug && a.part == 31 else a.level == .p0 && a.part.toNat == s.fld (HIF_HP_PRIM n) 0 5

/-- What a host port carries in BAR0 (R22, Table 1.5): its primary partition in the global window, partition `n` in
partition window `n`. -/
def bar0Carries (s : State) (a : Access) (addr : Nat) : Bool :=
  decide (addr < 0x1000000) && a.level == .p0
    && a.part.toNat == (if 0xF00000 ≤ addr then (addr - 0xF00000) / 0x10000 else s.fld (HIF_HP_PRIM a.src.toNat) 0 5)

/-- Whether an access of that identity can arise at an internal address (R19, Table 1.5): with the core domain off only
the management port's, since hosts, desk cores and the debug module stand in it (log 116). -/
def State.carries (s : State) (a : Access) (addr : Nat) : Bool :=
  let n := a.src.toNat
  if !s.ctl.core then a.level == .p3
  else if n < 4 then bar0Carries s a addr || (inBar2 s n addr && bar2Carries s a)
  else if n < 12 then deskCarries s a
  else true

/-- What becomes of a register access before its block sees it. -/
inductive RegDec where
  | go
  | ignored
  | violation (slot : Nat)
  | held
  deriving DecidableEq, Repr

/-- The decision of a peripheral gate (R300, R302, R309, R316). -/
def slotDec (s : State) (slot : Nat) (a : Access) (t : AccType) : RegDec :=
  let lvl := a.level.code
  let w := s.reg (GATE_PS_CTRL slot)
  let mask := bitsOf (s.reg (GATE_PS_ATTR_ACT slot)).toNat (if t = .w then 8 else 0) 5
  if t = .x then .violation slot
  else if slot = 36 then (if bitOf mask lvl then .go else .violation 36)
  else if ctrlState w = 2 then .held
  else if ctrlState w = 0 then .violation slot
  else if lvl = 4 && bitOf w.toNat 3 then .violation slot
  else if bitOf mask lvl then .go
  else .violation slot

/-- Whether an access by the TAP's AUTH instruction asks for what its data register does not reach (R448). -/
def authBeyond (a : Access) (addr : Nat) : Bool :=
  a.src == 0x62 && a.level == .p3
    && !(([DBG_STATUS, DBG_UID0, DBG_UID1, DBG_CTRL, DBG_FUSE_CTRL, DBG_FUSE_STATUS] : List Nat).contains addr
      || (decide (DBG_NONCE 0 ≤ addr) && decide (addr < DBG_NONCE 4)) || (decide (DBG_TOKEN 0 ≤ addr) && decide (addr < DBG_TOKEN 64))
      || (decide (DBG_FUSE_CMD 0 ≤ addr) && decide (addr < DBG_FUSE_CMD 128)))

/-- Whether a register access waits behind one its desk core issued before: a FENCE between them (R322). -/
def regWaits (s : State) (a : Access) (t : AccType) (addr : Nat) : Bool :=
  mustWait s { acc := a, typ := t, addr := addr, len := 4, reg := true }

/-- The decision for a register access that has arisen at an address (R3, R15, R16, R20, R22, R448). DESIGN CHOICE (log 116): while
the core domain, and GATE with it, is unpowered, no slot's masks judge. The port that a partition is bound to matters to
an access of BAR0; a DEBUG access of BAR2 is admitted to every window (R20). -/
def regDec (s : State) (a : Access) (t : AccType) (addr : Nat) : RegDec :=
  let slot := slotOf addr
  if 0x460000 ≤ addr ∧ addr < 0xF00000 then .ignored
  else if !s.powered slot || s.absent slot || authBeyond a addr then .ignored
  else if a.level = .debug && !debugOn s then .ignored
  else
    match (if s.ctl.core then slotDec s slot a t else .go) with
    | .go =>
      if addr < 0xF00000 then (if regWaits s a t addr then .held else .go)
      else
        let p := (addr - 0xF00000) / 0x10000
        let lv := a.level = .p3 || a.level = .debug
        if !(a.part.toNat = p || lv) then .violation 35
        else if a.src.toNat < 4 && !lv && ((s.part p).state = .free || (s.part p).port != a.src.toNat) then .violation 35
        else if regWaits s a t addr then .held
        else .go
    | d => d

/-! ### How an access fails -/

/-- Whether an initiator sees a refusal: a desk core takes an access fault and the debug module a bus error, every other
initiator sees nothing (Table 11.3). -/
def seesRefusal (a : Access) : Bool := fromDesk a || a.src == 0x62

/-- The exception or error that a refused access of a type raises (R306, Table 11.3); an AMO, SC and store are stores. -/
def faultOf (a : Access) (t : AccType) : Exc :=
  if !fromDesk a then .busError else match t with | .x => .fetchFault | .r => .loadFault | .w => .storeFault

/-- How a refused access looks to its initiator. -/
def refusalOf (a : Access) (t : AccType) : Option Exc := if seesRefusal a then some (faultOf a t) else none

/-- How an access that ended so looks to its initiator. -/
def seenExc (a : Access) (t : AccType) (r : AccRes) : Option Exc := if r = .denied then refusalOf a t else none

/-- A refused write: the initiators that see it are answered with their fault (R306). -/
def State.fails (s : State) (a : Access) (t : AccType) : State := if seesRefusal a then s.answer [] (refusalOf a t) else s

/-- A write that a block refuses, at the gate slot that the refusal is assigned to (R306, R313): a violation, which the initiators
that see one are answered with. -/
def refuseWrite (s : State) (slot : Nat) (a : Access) (addr : Nat) : State := (violation s slot a .w addr 0).fails a .w

/-- The mode of a desk core as an access of it shows it (R19, R320): P1 is user mode; P2 after it is the mode its trap entered.
What takes the core from one mode to another is its own execution (log 18). -/
def modeSeen (s : State) (a : Access) : State :=
  let k := a.src.toNat - 8
  if !fromDesk a then s
  else if a.level = .p1 then (if (s.desk k).mode = 0 then s else s.setDesk k { s.desk k with mode := 0 })
  else if a.level = .p2 ∧ (s.desk k).mode = 0 then (s.setDesk k { s.desk k with mode := if Config.trapToMachine s.free then 3 else 1 }).draw
  else s

/-- The mode of a desk core as its access to the internal map shows it: one at P2 is machine or supervisor mode, whatever the core was in
before, as the core left it by its own execution (R320, R340; log 18). -/
def modeDrawn (s : State) (a : Access) : State :=
  let k := a.src.toNat - 8
  if fromDesk a && a.level == .p2 then (s.setDesk k { s.desk k with mode := if Config.trapToMachine s.free then 3 else 1 }).draw
  else modeSeen s a

/-- A register write that waits. -/
def regHeld (a : Access) (addr : Nat) (v : Word) : HeldAcc :=
  { acc := a, typ := .w, addr := addr, len := 4, data := leBytes 4 v.toNat, reg := true }

/-- A register write that has arisen: performed by `f`, ignored, refused as a violation, or held at the gate. -/
def regEnter (s : State) (a : Access) (addr : Nat) (v : Word) (f : State → State) : State :=
  match regDec s a .w addr with
  | .go => f s
  | .ignored => s
  | .violation slot => (violation s slot a .w addr 0).fails a .w
  | .held => { s with heldAcc := s.heldAcc ++ [regHeld a addr v] }

/-- A register write of an initiator. One of an identity that it does not carry, in the mode that the access shows, cannot arise and
changes nothing (R19, log 2). -/
def regAccess (s : State) (a : Access) (addr : Nat) (v : Word) (f : State → State) : State :=
  if (modeSeen s a).carries a addr then regEnter (modeSeen s a) a addr v f else s

/-- The bits of a register that a write sets: those of its row, and where they depend on the quad, the mode or the
event table, those of R459, R463 and R488. -/
def writeBits (s : State) (addr : Nat) (r : RegRow) : Nat :=
  let slot := addr / 0x10000
  let off := addr % 0x10000
  if 52 ≤ slot ∧ slot ≤ 67 ∧ off = 0 then r.rw + (if slot < 56 then 0x10 else 0)
  else if 52 ≤ slot ∧ slot ≤ 67 ∧ 0x100 ≤ off ∧ off % 0x40 = 0 then r.rw + (if s.ctl.mode = .test then 0x3C else 0)
  else if slot = 68 ∧ 0x20 ≤ off ∧ off < 0x40 then yieldConfig ((off - 0x20) / 4)
  else r.rw

/-- A word after a write with RW bits `rwb` and W1C bits `w1`: RW bits take the written value, W1C bits written 1 clear,
every other bit stays (R6, R8). -/
def writeWord (old v : Word) (rwb w1 : Nat) : Word :=
  let m := BitVec.ofNat 32 rwb
  let c := BitVec.ofNat 32 w1
  ((old &&& ~~~m) ||| (v &&& m)) &&& ~~~(v &&& c)

/-- The plain effect of a register write (R6, R8). -/
def plainWrite (s : State) (addr : Nat) (v : Word) : State :=
  match rowAt addr with
  | none => s
  | some r => s.setReg addr (writeWord (s.reg addr) v (writeBits s addr r) r.w1c)

end Sys2Proof.Machine
end

