-- ==== Sys2Proof/Machine/Jobs.lean ====
section
/-!
DEFINITION. Soile jobs: acceptance (R280), the order of validation (R287), the completion of a job and of an ABORT that
waits for it (R289, R290), the end of an access of a job (R287), and the reads of host memory a job makes (R279).
-/

namespace Sys2Proof.Machine

/-- Whether a running job has to stop at its abort point: an ABORT waits for it, or the part is in YIELD (R288, R290). -/
def Job.stops (j : Job) : Bool := !j.abortBy.isEmpty || j.yielded

/-- The job of an id, the latest accepted. -/
def State.job (s : State) (id : Nat) : Option Job := (s.jobs.filter fun j => j.id == id).getLast?

/-- Changes the job of an id. -/
def State.modJob (s : State) (id : Nat) (f : Job → Job) : State :=
  { s with jobs := s.jobs.map fun j => if j.id == id then f j else j }

/-- The completion body of an ABORT: the target's descriptor index, its ring, its status (R290). -/
def abortBody (index : BitVec 64) (ring st : Nat) : BitVec 128 := cplBody [(16, 4, index.toNat), (20, 1, ring), (22, 2, st)]

/-- Completes a job: exactly one completion, then the one of every ABORT that waits for it (R289, R290). A job that the
entry into YIELD found running completes with YIELDED, in its turn (R288). -/
def finish (s : State) (id st : Nat) (body : BitVec 128 := 0) : State :=
  match s.job id with
  | none => s
  | some j =>
    if j.yielded then
      yieldFlush { s with jobs := s.jobs.map fun x =>
        if x.id == id then { x with ended := some (x.ended.getD body) }
        else if j.abortBy.contains x.id then { x with ended := some (x.ended.getD 0) } else x }
    else
    let s := { s with jobs := s.jobs.filter (fun x => x.id != id)
                      cpls := s.cpls ++ [cplOf j (BitVec.ofNat 16 st) body] }
    let late := s.jobs.filter fun x => j.abortBy.contains x.id
    { s with
      jobs := s.jobs.filter fun x => !j.abortBy.contains x.id
      cpls := s.cpls ++ late.map fun a => cplOf a (BitVec.ofNat 16 (if st = stAborted then stComplete else stAbortLate))
        (abortBody j.req.index j.req.ring.val st) }

/-- The completion rings of a partition that are enabled. -/
def cringsOn (s : State) (p : Nat) : List Nat := (List.range 8).filter fun c => s.bit (PRT_SW_CP_CFG p c) 8

/-- Accepts a descriptor as a job (R280); one that was not fetched before takes its place in fetch order now. -/
def accept (s : State) (q : Req) (op : Nat) : State × Nat :=
  ({ s with jobs := s.jobs ++ [{ id := s.nextJob, req := q, opcode := BitVec.ofNat 16 op, running := false, n := 0, m := 0, v := 0
                                 abortBy := [], snap := [], order := s.nextFetch }]
            nextJob := s.nextJob + 1, nextFetch := s.nextFetch + 1 }, s.nextJob)

/-- The commands that change checkpointed state (Table 14.2): they complete with SWAP_PENDING until a swap completes
(R393). -/
def changesCkpt (op : Nat) : Bool :=
  ([0x0101, 0x0102, 0x0103, 0x0105, 0x0201, 0x0202, 0x0203, 0x0204, 0x0206, 0x0301, 0x0302, 0x0303, 0x0401, 0x0402, 0x0502,
    0x0503, 0x0601, 0x0604, 0x0701, 0x0702, 0x0801, 0x0802, 0x0803, 0x0901, 0x0902, 0x0B01, 0x0B02, 0x0B03, 0x0B04,
    0x0C01, 0x0C02, 0x0C03, 0x0C07, 0x1001, 0x1002, 0x1003, 0x1004, 0x1006] : List Nat).contains op

/-- Whether a descriptor's completion ring is not enabled (R285). -/
def badCring (s : State) (q : Req) : Bool := !(cringsOn s q.part.val).contains q.cring.val

/-- The descriptor with the completion ring its completion goes to: the lowest enabled one for one not enabled (R285). -/
def rerouted (s : State) (q : Req) : Req :=
  match badCring s q, (cringsOn s q.part.val).head? with
  | true, some c => { q with cring := Fin.ofNat 8 c }
  | _, _ => q

/-- A Soile command in the order of validation of R287: the opcode is the caller's own, then RESERVED, BAD_CRING with
its completion on the lowest enabled ring (R285), MODE_DENIED, SWAP_PENDING, then what the command does with its job. -/
def soile (s : State) (q : Req) (op mask : Nat) (modeOk : Bool) (run : State → Nat → State) : State :=
  if !s.ctl.core then s
  else
    let x := accept s (rerouted s q) op
    if q.reservedSet mask then finish x.1 x.2 stReserved
    else if badCring s q then finish x.1 x.2 stBadCring
    else if !(s.ctl.mode.soile && modeOk) then finish x.1 x.2 stModeDenied
    else if s.rdn.swap.job.isSome && changesCkpt op then finish x.1 x.2 stSwapPending
    else run x.1 x.2

/-- A Soile command that completes at acceptance. -/
def soileNow (s : State) (q : Req) (op mask : Nat) (modeOk : Bool) (run : State → State × Nat × BitVec 128) : State :=
  soile s q op mask modeOk fun s id => let r := run s; finish r.1 id r.2.1 r.2.2

/-- Completes a job with the first failing check, or goes on. -/
def guardJob (s : State) (id : Nat) (checks : List (Bool × Nat)) (go : State → State) : State :=
  match firstFail checks with
  | some st => finish s id st
  | none => go s

/-- No status: the access of a command waits at a gate, and the command with it (R309). -/
def stWaits : Nat := 0x10000

/-- A Soile command that completes at acceptance and reads memory for it: while that read waits at a gate the descriptor is
not yet accepted (R280, R309). -/
def soileRead (s : State) (q : Req) (op mask : Nat) (modeOk : Bool) (run : State → State × Nat × BitVec 128) : State :=
  soile s q op mask modeOk fun t id => let r := run t; if r.2.1 = stWaits then s else finish r.1 id r.2.1 r.2.2

/-- The status of a job whose access failed (R287). -/
def AccRes.status : AccRes → Nat
  | .ok => stComplete
  | .unmapped => stUnmapped
  | .denied => stGateDenied
  | .held => stWaits

/-- A read over PCIe at a port: one that the host answers shows that it has enabled bus mastering (log 98), a failed one is counted
(R279, R287); with the link down every read fails. -/
def pcieRead (s : State) (port : Nat) (h : HostRead) : State × Option Bytes :=
  match (if linkUp s port then h else .error) with
  | .bytes bs => (s.setBit (HIF_HP_STATUS port) 7 true, some bs)
  | .error => (s.inc (HIF_HP_DMA_ERR port), none)

/-- An 8-byte read of a fence through the PCIe link of a port, the bus agent answering with a value or with none (R200, R214, R287). -/
def pcieFence (s : State) (port : Nat) (read : Option (BitVec 64)) : State × Option (BitVec 64) :=
  if linkUp s port && read.isSome then (s.setBit (HIF_HP_STATUS port) 7 true, read) else (s.inc (HIF_HP_DMA_ERR port), none)

/-- The bytes a job reads from its partition's host memory: on PCIe what the host answered, padded with zeros; on HP4 a
read of internal memory (R279, R287). -/
def hostRead (s : State) (p addr n : Nat) (h : HostRead) : State × Nat × Bytes :=
  if onPcie s p then
    let x := pcieRead s (s.part p).port h
    match x.2 with
    | some bs => (x.1, stComplete, sliceB bs 0 n)
    | none => (x.1, stHostDma, [])
  else
    let x := engRead s 34 p addr n
    (x.1, x.2.1.status, x.2.2)

/-- An address of a field that holds a 64-bit host address, or an internal address in its first 5 bytes (R214). -/
def fieldAddr (host : Bool) (addr : Nat) : Nat := if host then addr else addr % 2 ^ 40

/-- A write to host or internal memory: posted on PCIe and lost while the link is down, or through the gates (R517), `after` it as for
`looseWrite`. -/
def jobWrite (s : State) (slot p : Nat) (host : Bool) (addr : Nat) (bs : Bytes) (after : After := .nothing) : State × Nat :=
  if host && onPcie s p then
    (if linkUp s (s.part p).port then s.emit (.hostWrite (s.part p).port (BitVec.ofNat 64 addr) bs) else s, stComplete)
  else
    let x := looseWrite s slot p (fieldAddr host addr) bs after
    (x.1, x.2.status)

/-- The write of a fence value by an engine: 8 bytes in device or host memory, belonging to no job (R517). -/
def fenceWrite (s : State) (slot p : Nat) (host : Bool) (addr v : Nat) : State :=
  (jobWrite s slot p host addr (leBytes 8 v)).1

end Sys2Proof.Machine
end

