-- ==== Sys2Proof/Machine/Time.lean ====
section
/-!
DEFINITION. Device time (chapter 03): snapshots, the single step, adjustments and their effect, the effective margin,
one edge of the timebase clock, and the timing groups with their references, phase error, states, pull, trim and
re-phase. What a boundary does to heads, layers and seals stands with the heads.
-/

namespace Sys2Proof.Machine

/-! ### The timebase -/

/-- The margin in force, in µs (R69). Where a step has set the timebase before the adjustment's effect, no time has elapsed
since: the rule makes elapsed time a uint64 and does not say what a backward step makes of it. DESIGN CHOICE (log 122). -/
def State.margin (s : State) : Nat :=
  (effectiveMargin s.tbase.marginNs.toNat s.tbase.growth.toNat (s.since s.tbase.effAt.toNat).toNat (s.bit TB_STATUS 2)).toNat

/-- The increment of one edge in units of 2⁻⁶⁴ ns at rate `r`, rounded down or up (R62). -/
def edgeStep (r : Int) (up : Bool) : Nat :=
  let x := r * 2 ^ 48
  ((2 ^ 64 : Int) + x / 1000000000 + (if up && x % 1000000000 != 0 then 1 else 0)).toNat

/-- One ns of the AO domain's holdover clock (R428): a tick is 1953125/64 ns. -/
def holdEdge (h : Holdover) : Holdover :=
  let sub := h.sub + 64
  if sub < 1953125 then { h with sub := sub }
  else
    let sub := sub - 1953125
    if h.ticks.toNat = 32767 then { h with sub := sub, ticks := 0, sec := h.sec + 1 }
    else { h with sub := sub, ticks := h.ticks + 1 }

/-- One edge of the 1 GHz timebase clock, which is what the block does while no command waits (log 1). -/
def idleEdge (s : State) : State :=
  let s := { s with island := s.island + 1, hold := if s.ctl.mode = .off then s.hold else holdEdge s.hold }
  if !s.ctl.core then s
  else
    let inc := edgeStep (signed 64 (s.pair TB_RATE_ACT_LO TB_RATE_ACT_HI)) (Config.edgeRoundsUp s.free)
    { s.draw with tbase := { s.tbase with val := s.tbase.val + BitVec.ofNat 128 inc } }

/-- Puts the timebase into the snapshot registers (R61, R64). -/
def snapRegs (s : State) : State :=
  let ns := s.now
  let sec := ns / 1000000000
  let s := s.setReg TB_SNAP_SEC_LO (BitVec.ofNat 32 sec)
  let s := s.setReg TB_SNAP_SEC_HI (BitVec.ofNat 32 (sec / 2 ^ 32 % 2 ^ 16 + s.now16 % 2 ^ 16 * 2 ^ 16))
  (s.setReg TB_SNAP_NS (BitVec.ofNat 32 (ns % 1000000000))).resultDone TB_SNAP_STATUS 0

/-- A write of TB_SNAP.go = 1 captures the timebase (R64). -/
def snapWrite (v : Word) (s : State) : State := if bitOf v.toNat 31 then snapRegs s else s
def doTbSnapGo (a : Access) (v : Word) (s : State) : State := regAccess s a TB_SNAP v (snapWrite v)

def execTbSnapGo (a : Access) (v : BitVec 32) (s : State) : Host.Outcome State Fault Refusal := .next (doTbSnapGo a v s)

/-- Decides an operation on the timebase: the record of R70. -/
def adjRecord (s : State) (op res : Nat) : State := s.resultDone TB_ADJ_STATUS (res + op * 2 ^ 3)

/-- The result of a step request (R65, Table 3.1). -/
def stepResult (s : State) : Nat :=
  if s.ctl.mode != .prime || !s.bit TB_STATUS 0 then 2 else if s.fld LDG_STATUS 16 13 != 0 then 3 else 0

/-- The first whole microsecond after device time `ns` (R68). -/
def nextMicro (ns : Nat) : BitVec 64 := BitVec.ofNat 64 ((ns / 1000 + 1) * 1000)

/-- Sets the timebase: an adjustment that waits takes effect at the next whole microsecond of the new time (R68). -/
def State.setTime (s : State) (v : BitVec 128) : State :=
  { s with tbase := { s.tbase with val := v, due := nextMicro (v.toNat / 2 ^ 64) } }

/-- The step itself (R65). -/
def stepTime (s : State) (off : Int) (frac : Nat) : State :=
  let d : Int := off * 2 ^ 64 + (frac * 2 ^ 48 : Nat)
  let s := s.setTime (s.tbase.val + BitVec.ofInt 128 d)
  ((s.setBit TB_STATUS 0 false).setBit TB_STATUS 1 true).setFld TB_STATUS 3 2 2

/-- Performs or refuses a step for partition `part`, and decides its record (R65, R68). -/
def tryStep (s : State) (part : Nat) (off : Int) (frac : Nat) : State × Nat :=
  let r := stepResult s
  if r = 0 then (adjRecord (stepTime s off frac) 1 0, 0)
  else (adjRecord (raise s evTimeStepRefused 0 5 part []) 1 r, r)

/-- Whether a rate is beyond ±500 ppm (R67). -/
def rateOut (r : Int) : Bool := decide (r < -32768000000) || decide (32768000000 < r)

/-- Accepts or refuses an adjustment (R67, R68): an accepted one supersedes one that still waits for its edge. -/
def tryAdj (s : State) (rate margin growth : Nat) : State × Nat :=
  if rateOut (signed 64 rate) then (adjRecord s 0 1, 1)
  else
    let s := { s with tbase := { s.tbase with adj := some (BitVec.ofNat 64 rate, BitVec.ofNat 32 margin, BitVec.ofNat 32 growth)
                                              due := nextMicro s.now } }
    (adjRecord s 0 0, 0)

/-- A write of TB_ADJ (R67, R70, Table 3.12): op 0 adjusts, op 1 steps, from the staging registers. -/
def tbAdjWrite (a : Access) (v : Word) (s : State) : State :=
  if !bitOf v.toNat 31 then s
  else if bitsOf v.toNat 1 30 != 0 then adjRecord s (bitsOf v.toNat 0 1) 4
  else if bitOf v.toNat 0 then
    (tryStep s (partOf a) (signed 64 (s.pair TB_STEP_LO TB_STEP_HI)) (s.fld TB_STEP_FRAC 0 16)).1
  else (tryAdj s (s.pair TB_RATE_LO TB_RATE_HI) (s.reg TB_MARGIN_NS).toNat (s.reg TB_GROWTH).toNat).1

/-- An ADJ through TB_ADJ at P2 or P3 (R67, R71). -/
def doTbAdjAdj (a : Access) (v : Word) (s : State) : State := regAccess s a TB_ADJ v (tbAdjWrite a v)
def execTbAdjAdj (a : Access) (v : BitVec 32) (s : State) : Host.Outcome State Fault Refusal := .next (doTbAdjAdj a v s)

/-- A STEP through TB_ADJ at P2 or P3 (R65, R71). -/
def doTbAdjStep (a : Access) (v : Word) (s : State) : State := regAccess s a TB_ADJ v (tbAdjWrite a v)
def execTbAdjStep (a : Access) (v : BitVec 32) (s : State) : Host.Outcome State Fault Refusal := .next (doTbAdjStep a v s)

/-- The accepted adjustment takes effect at its whole microsecond, not before (R68, R69; log 119). -/
def doAdjustmentEffect (s : State) : State :=
  match s.tbase.adj with
  | none => s
  | some (r, m, g) =>
    if s.since s.tbase.due.toNat < 0 then s
    else
    let s := { s with tbase := { s.tbase with adj := none, marginNs := m, growth := g, effAt := BitVec.ofNat 64 s.now } }
    (s.setPair TB_RATE_ACT_LO TB_RATE_ACT_HI r.toNat).setBit TB_STATUS 2 true

def execAdjustmentEffect (s : State) : Host.Outcome State Fault Refusal := .next (doAdjustmentEffect s)

/-! ### TIME commands (Table 3.2) -/

/-- A TIME_ADJ (op 0) or TIME_STEP (op 1) of the servo's partition with a reserved bit set is decided too, with result
RESERVED (R70, R71; log 129). -/
def timeReserved (op : Nat) (q : Req) (bad : Bool) (s : State) : State :=
  if s.ctl.core && bad && s.fld TB_SERVO 0 5 == q.part.val then adjRecord s op 4 else s

def maskTimeAdj : Nat := bodyMask [(16, 0, 128)]
def maskTimeStep : Nat := bodyMask [(16, 0, 80)]

/-- TIME_ADJ (R67, R71, R72). -/
def doTimeAdj (q : Req) (s : State) : State :=
  soileNow (timeReserved 0 q (q.reservedSet maskTimeAdj) s) q 0x0F01 maskTimeAdj true fun s =>
    if s.fld TB_SERVO 0 5 != q.part.val then (s, stNotOwner, 0)
    else
      let r := tryAdj s (q.u64 16) (q.u32 24) (q.u32 28)
      (r.1, if r.2 = 0 then stComplete else stRange,
        cplBody [(16, 2, r.1.fld TB_ADJ_STATUS 16 16), (20, 4, ceilDiv (q.u32 24) 1000)])

def execTimeAdj (q : Req) (s : State) : Host.Outcome State Fault Refusal := .next (doTimeAdj q s)

/-- TIME_STEP (R65, R71, R72). -/
def doTimeStep (q : Req) (s : State) : State :=
  soileNow (timeReserved 1 q (q.reservedSet maskTimeStep) s) q 0x0F02 maskTimeStep true fun s =>
    if s.fld TB_SERVO 0 5 != q.part.val then (s, stNotOwner, 0)
    else
      let r := tryStep s q.part.val (q.sN 16 8) (q.u16 24)
      (r.1, if r.2 = 0 then stComplete else if r.2 = 2 then stStepDenied else stLedgerBusy,
        cplBody [(16, 2, r.1.fld TB_ADJ_STATUS 16 16)])

def execTimeStep (q : Req) (s : State) : Host.Outcome State Fault Refusal := .next (doTimeStep q s)

/-- TIME_READ (R64, R71, R72): it returns the timebase in its completion; the capture into the snapshot registers is the
write's (log 115). -/
def doTimeRead (q : Req) (s : State) : State :=
  soileNow s q 0x0F03 0 true fun s =>
    (s, stComplete, cplBody [(16, 8, s.now), (24, 2, s.now16), (28, 4, s.margin)])

def execTimeRead (q : Req) (s : State) : Host.Outcome State Fault Refusal := .next (doTimeRead q s)

/-- Loads TXLAT and RXLAT of a timestamp port (R77), in 1/256 ns. -/
def loadLat (s : State) (p tx rx : Nat) : State :=
  (s.setReg (TB_PORT_TXLAT p) (BitVec.ofNat 32 tx)).setReg (TB_PORT_RXLAT p) (BitVec.ofNat 32 rx)

/-! ### Timing groups -/

/-- The nominal frame period and line time of a group in ns (R80): totals over the pixel clock. -/
def tgLinesNs (t : TGroup) (lines : Int) (trim : Int) : Nat :=
  if t.khz = 0 then 0
  else (lines * t.hTotal * 1000000 * 1024000000 / ((t.khz : Int) * (1024000000 + trim))).toNat

/-- The nominal frame period in ns. -/
def tgNominal (t : TGroup) : Nat := tgLinesNs t t.vTotal 0

/-- `x` ns in whole lines, halves rounded away from zero (R83, R86). -/
def roundLines (t : TGroup) (x : Int) : Int :=
  let d : Int := t.hTotal * 1000000
  if d = 0 then 0
  else
    let n := x.natAbs * t.khz
    let l : Int := ((2 * n + d.toNat) / (2 * d.toNat) : Nat)
    if x < 0 then -l else l

/-- Whether `|x|` ns is within `n` lines. -/
def withinLines (t : TGroup) (x : Int) (n : Nat) : Bool := decide (x.natAbs * t.khz ≤ n * t.hTotal * 1000000)

/-- `x` reduced to the nearest multiple of `p` around 0. -/
def nearest (x : Int) (p : Nat) : Int := if p = 0 then x else (x + (p / 2 : Nat)) % (p : Int) - (p / 2 : Nat)

/-- The ns of PTP alignment point `n` of a rate (Table 3.5). -/
def ptpPoint (n num den : Nat) : Nat := n * den * 1000000000 / num

/-- The last PTP alignment point not after `x` ns (R88, Table 3.5). -/
def ptpLast (t : TGroup) (x : Nat) : Nat := ptpPoint (((x + 1) * t.num - 1) / (t.den * 1000000000)) t.num t.den

/-- The nearest reference point to `x` ns, none where the group has none (R81, R83, R85). -/
def refPoint (t : TGroup) (marginValid : Bool) (x : Int) : Option Int :=
  match t.source with
  | 0 => none
  | 3 =>
    if !marginValid || t.num = 0 then none
    else
      let n := (2 * x.toNat * t.num + t.den * 1000000000) / (2 * t.den * 1000000000)
      some (ptpPoint n t.num t.den : Nat)
  | _ =>
    if t.lost then none
    else match t.refAt with
      | none => none
      | some r => some (x - nearest (timeDiff (BitVec.ofInt 64 x) (BitVec.ofNat 64 r)) (tgNominal t))

/-- Whether the reference period, averaged over 8 frames, is off by more than 50 ppm (R85), whatever the reference. -/
def freqOut (t : TGroup) : Bool :=
  let sum := t.periods.foldl (· + ·) 0
  let nom := 8 * tgNominal t
  t.periods.length == 8 && (decide (20000 * sum > 20001 * nom) || decide (20000 * sum < 19999 * nom))

/-- The state and cause a boundary decides (Table 3.6): phase error in ns where there is a reference. Where the reference is
both off in frequency and out of window, the cause is FREQ: the spec gives no order. DESIGN CHOICE (log 124). -/
def tgDecide (t : TGroup) (e : Option Int) : Nat × Nat :=
  if t.source = 0 then (1, 0)
  else match e with
    | none => (4, if t.source != 3 && decide (t.outside ≥ 3) then 2 else 1)
    | some x =>
      if freqOut t then (4, 3)
      else if !withinLines t x t.window then (4, 2)
      else if withinLines t x 1 then (3, 0)
      else (2, 0)

/-- The partitions that own a member head of a group (R84), 31 alone where none does. -/
def tgOwners (s : State) (g : Nat) : List Nat :=
  let ps := (List.range 16).filter fun p =>
    (List.range 16).any fun n => (s.head n).isSet && (s.head n).tg == g && ownsHead s p n
  if ps.isEmpty then [31] else ps

/-- A group enters a state at a boundary (R84): counters, records, EVC source 17 + g. -/
def tgEnter (s : State) (g st cause : Nat) (ref : Bool) : State :=
  let old := s.fld (TG_STATUS g) 0 3
  let s := s.setReg (TG_STATUS g) (BitVec.ofNat 32 (st + (Bool.nat ref) * 8 + cause * 16))
  if st = old then s
  else
    let s := if st = 4 then s.add (TG_COUNT g) 0 16 1 else s
    let s := if st = 4 then (tgOwners s g).foldl (fun s p => raise s evTgHold 1 5 p []) s
             else if st = 3 then (tgOwners s g).foldl (fun s p => raise s evTgLocked 0 5 p []) s else s
    evcPulse s (17 + g)

/-- The pull of the frame that begins, in lines: toward zero error, at most 4 lines, front porch at least 8 (R83). -/
def tgPull (t : TGroup) (e : Int) : Int :=
  let l := roundLines t e
  if l > 0 then -(if l > 4 then (if t.vFront < 12 then ((t.vFront - 8 : Nat) : Int) else 4)
                  else if (t.vFront : Int) - 8 < l then ((t.vFront - 8 : Nat) : Int) else l)
  else if -l > 4 then 4 else -l

/-- The lines a re-phase adds to one frame, with `long` (R86). The natural next boundary is one nominal period, in whole ns and
without trim, after this one: the spec does not say whether trim counts. DESIGN CHOICE (log 125). -/
def tgRephase (t : TGroup) (ref : Int) (b : Int) : Int × Bool :=
  let p := tgNominal t
  let d := if p = 0 then 0 else timeDiff (BitVec.ofInt 64 (ref + t.offset)) (BitVec.ofInt 64 (b + p)) % (p : Int)
  let l := roundLines t d
  let l := if l = (t.vTotal : Int) then 0 else l
  let short := (t.vTotal : Int) - l
  if l = 0 then (0, true)
  else if (t.vFront : Int) - short ≥ 8 then (-short, false)
  else (l, true)

/-- Takes the changes of source, offset, window and rate that wait for the boundary (R82). A new source is another reference:
what was seen of the last one predicts nothing for it (log 114). -/
def tgLatch (s : State) (g : Nat) (t : TGroup) : TGroup :=
  let src := s.fld (TG_CTRL g) 1 2
  let t := if src = t.source then t else
    { t with refAt := none, cand := none, missed := 0, outside := 0, lost := false, edgeSeen := none, edgeOut := false, periods := [] }
  { t with source := src, offset := signed 32 (s.reg (TG_OFFSET g)).toNat, window := s.fld (TG_WIN g) 0 11,
           num := s.fld (TG_RATE g) 0 16, den := s.fld (TG_RATE g) 16 16 }

/-- Counts edges missed since the last boundary (R85). Once the reference is lost nothing is predicted, and the counts that gave
the cause of the loss stand until it is valid again (log 114). -/
def tgCountEdges (t : TGroup) : TGroup :=
  if t.source = 1 ∨ t.source = 2 then
    if t.lost then { t with edgeSeen := none, edgeOut := false } else
    let missed := if t.edgeSeen.isSome then 0 else t.missed + 1
    let outside := if t.edgeSeen.isSome || !t.edgeOut then 0 else t.outside + 1
    { t with missed := missed, outside := outside, lost := decide (missed ≥ 3), edgeSeen := none, edgeOut := false,
             cand := if missed ≥ 3 then none else t.cand }
  else { t with edgeSeen := none, edgeOut := false }

/-- Keeps the last eight reference periods (R85). -/
def TGroup.addPeriod (t : TGroup) (p : Nat) : TGroup :=
  { t with periods := (t.periods ++ [p]).drop (t.periods.length + 1 - 8) }

/-- The reference period of PTP, which the frame rate gives, counted at each boundary with a valid reference (R85). -/
def tgPtpPeriod (t : TGroup) (valid : Bool) : TGroup :=
  if t.source != 3 then t
  else if valid && t.num != 0 then t.addPeriod (t.den * 1000000000 / t.num) else { t with periods := [] }

/-- The next trim (R83): at most 0.5 ppm from the last, within ±50 ppm; how it follows the reference is not given. -/
def tgTrim (s : State) (g st : Nat) : Int :=
  let old := signed 18 (s.fld (TG_TRIM g) 0 18)
  if st = 2 ∨ st = 3 then clampI (old + clampI (Config.trimStep s.free) (-512) 512) (-51200) 51200 else old

/-- The timebase at a group's last reference point (R88): the last PTP alignment point while the group follows one, else the
point last recorded. -/
def tgRefAt (s : State) (g : Nat) : Nat :=
  let t := s.tg g
  if t.running && t.source == 3 && s.bit TB_STATUS 2 && t.num != 0 then ptpLast t s.now else s.pair (TG_REF_LO g) (TG_REF_HI g)

/-- The frame that begins now and ends `p` ns later, by the group's own pixel clock (R80, R83, R84). -/
def TGroup.begin (t : TGroup) (s : State) (p : Nat) : TGroup := { t with boundary := s.now, period := p, dueAt := s.island + p }

/-- The steering of a group at its boundary (R81–R86): phase error, state, re-phase or pull, trim, the next period. Re-phase
commands that wait for the same boundary share its one frame; each is decided and advances the generation. DESIGN CHOICE
(log 141). -/
def tgSteer (s : State) (g : Nat) : State :=
  let s := s.setPair (TG_REF_LO g) (TG_REF_HI g) (tgRefAt s g)
  let t := tgCountEdges (tgLatch s g (s.tg g))
  let b : Int := s.now
  let ref := refPoint t (s.bit TB_STATUS 2) (b - t.offset)
  let e := ref.map fun r => timeDiff (BitVec.ofInt 64 b) (BitVec.ofInt 64 (r + t.offset))
  let t := tgPtpPeriod t ref.isSome
  let dec := tgDecide t e
  let s := match e with | some x => s.setReg (TG_PHASE g) (BitVec.ofInt 32 x) | none => s
  let s := tgEnter s g dec.1 dec.2 ref.isSome
  let trim := tgTrim s g dec.1
  let s := (s.setFld (TG_TRIM g) 0 18 (unsigned 18 trim)).draw
  let noRef := decide (dec.1 = 1) || ref.isNone
  let re := match ref with | some r => tgRephase t r b | none => (0, true)
  let k : Int := if t.rephase ≠ 0 ∧ noRef = false then re.1
    else if dec.1 = 2 ∨ dec.1 = 3 then (match e with | some x => tgPull t x | none => 0) else 0
  let s := s.each t.rephase fun s _ => s.resultDone (TG_REPHASE_STATUS g) (if noRef then 1 else (Bool.nat re.2) * 2)
  let s := if t.rephase = 0 ∨ noRef = true then s else s.add (TG_COUNT g) 16 16 1
  s.setTg g ({ t with first := false, rephase := 0 }.begin s (tgLinesNs t (t.vTotal + k) trim))

/-- Whether a group makes boundaries: enabled, and its timing set by a head (R80). -/
def tgMakes (s : State) (g : Nat) : Bool := (s.tg g).running && decide ((s.tg g).khz ≠ 0)

/-- Whether the frame that group `g` began has had its length: its next boundary falls then, not before (R80, R83, R84, R86). A
boundary later than that is taken as it comes (log 119). -/
def tgDue (s : State) (g : Nat) : Bool := decide ((s.tg g).dueAt ≤ s.island)

/-- TGg_CTRL written (R84): enabling places the first boundary one nominal period later. -/
def tgCtrl (s : State) (g : Nat) (v : Word) : State :=
  let on := bitOf v.toNat 0
  let was := (s.tg g).running
  let s := plainWrite s (TG_CTRL g) v
  if on && !was then
    let t := tgLatch s g (s.tg g)
    let s := s.setTg g ({ t with running := true, first := true }.begin s (tgNominal t))
    let s := s.setReg (TG_STATUS g) (if t.source = 0 then 1 else 2)
    evcPulse (pllStart s (8 + g)) (17 + g)
  else if !on && was then
    let s := (s.setTg g { s.tg g with running := false }).setReg (TG_STATUS g) 0
    evcPulse (pllStop s (8 + g)) (17 + g)
  else s

def doTgCtrlWrite (a : Access) (g : Fin 8) (v : Word) (s : State) : State :=
  regAccess s a (TG_CTRL g.val) v fun s => tgCtrl s g.val v

def execTgCtrlWrite (a : Access) (g : Fin 8) (v : BitVec 32) (s : State) : Host.Outcome State Fault Refusal :=
  .next (doTgCtrlWrite a g v s)

/-- TGg_CMD.rephase = 1 (R86): executed or refused at the next boundary. -/
def rephaseWrite (g : Nat) (v : Word) (s : State) : State :=
  if bitOf v.toNat 0 then (s.setTg g { s.tg g with rephase := (s.tg g).rephase + 1 }).resultOpen (TG_REPHASE_STATUS g) else s
def doTgRephase (a : Access) (g : Fin 8) (v : Word) (s : State) : State := regAccess s a (TG_CMD g.val) v (rephaseWrite g.val v)

def execTgRephase (a : Access) (g : Fin 8) (v : BitVec 32) (s : State) : Host.Outcome State Fault Refusal :=
  .next (doTgRephase a g v s)

/-- A GENLOCK edge at a group that follows the pin (R85). While the reference is valid, an edge counts within the window of a whole
number of periods, one at least, after the last; after a loss, edge k after the candidate within the window of k periods. -/
def tgEdge (t : TGroup) (now : Nat) : TGroup :=
  let p := tgNominal t
  let since := fun (r : Nat) => timeDiff (BitVec.ofNat 64 now) (BitVec.ofNat 64 r)
  let at_ := fun (r k : Nat) => withinLines t (since (r + k * p)) t.window
  if t.lost then
    match t.cand with
    | none => { t with cand := some (now, 0) }
    | some (c, k) =>
      if at_ c (k + 1) then
        if k = 2 then { t with lost := false, cand := none, refAt := some now, missed := 0, outside := 0, edgeSeen := some now, periods := [] }
        else { t with cand := some (c, k + 1) }
      else { t with cand := none }
  else match t.refAt with
    | none => { t with refAt := some now, edgeSeen := some now, periods := [] }
    | some r =>
      let d := (since r).toNat
      let n := if p = 0 then 1 else (2 * d + p) / (2 * p)
      if decide (1 ≤ n) && (decide (p = 0) || at_ r n) then
        { t with refAt := some now, edgeSeen := some now }.addPeriod (d / n)
      else { t with edgeOut := true }

/-- The source a group follows: the one in force while it runs, which a boundary takes (R82), else the register's. -/
def tgSource (s : State) (g : Nat) : Nat := if (s.tg g).running then (s.tg g).source else s.fld (TG_CTRL g) 1 2

/-- A rising edge of GENLOCK0 or GENLOCK1 (R85, Table 3.5, EVC sources 48 and 49). -/
def doGenlockEdge (pin : Fin 2) (s : State) : State :=
  if !s.ctl.core then s
  else
    let s := s.each 8 fun s g =>
      if tgSource s g = pin.val + 1 then
        let t := tgEdge (s.tg g) s.now
        let s := s.setTg g t
        if t.refAt = some s.now then s.setPair (TG_REF_LO g) (TG_REF_HI g) s.now else s
      else s
    evcPulse s (48 + pin.val)

def execGenlockEdge (pin : Fin 2) (s : State) : Host.Outcome State Fault Refusal := .next (doGenlockEdge pin s)

end Sys2Proof.Machine
end

