-- ==== Sys2Proof/Machine/Ledger.lean ====
section
/-!
DEFINITION. The liveness contract (chapter 02): runs of ledger entries (R31, R32), tile records and their checkers
(R35, R421, R422), the sweeper (R41), the evaluation of a band (R42–R47), the watchdog, the profile commits (R55, R56).
-/

namespace Sys2Proof.Machine

/-! ### Runs -/

/-- Tile columns, rows and tiles of a surface (Table 2.2). -/
def Surface.tx (f : Surface) : Nat := ceilDiv f.w 64
def Surface.ty (f : Surface) : Nat := ceilDiv f.h 64
def Surface.tiles (f : Surface) : Nat := f.tx * f.ty

/-- The registered surfaces with their runs: surface, first entry, entries. -/
def runs (s : State) : List (Nat × Nat × Nat) :=
  (s.surfs.filter fun x => x.2.reg).map fun x => (x.1, x.2.lbase, x.2.tiles)

/-- The ledger entries a partition's surfaces use (R31). -/
def ledgerUse (s : State) (p : Nat) : Nat :=
  ((runs s).filter fun r => ownsSurf s p r.1).foldl (fun n r => n + r.2.2) 0

/-- The lowest entry where a free run of `n` begins, the run of surface `self` counting as free (R31). -/
def lowestRun (s : State) (self n : Nat) : Option Nat :=
  let rs := (runs s).filter fun r => r.1 != self
  let fits := fun b => decide (b + n ≤ 262144) && rs.all fun r => !overlaps b n r.2.1 r.2.2
  match (0 :: rs.map fun r => r.2.1 + r.2.2).filter fits with
  | [] => none
  | b :: bs => some (bs.foldl Nat.min b)

/-- LDG_STATUS.surfaces and LDG_FREE follow the runs (R59). -/
def ledgerCount (s : State) : State :=
  let rs := runs s
  (s.setFld LDG_STATUS 16 13 rs.length).setReg LDG_FREE (BitVec.ofNat 32 (262144 - rs.foldl (fun n r => n + r.2.2) 0))

/-- The entries of a run read zero again (R32). -/
def zeroRun (s : State) (b n : Nat) : State :=
  { s with ledger := s.ledger.filter fun x => decide (x.1 < b) || decide (b + n ≤ x.1) }

/-- The initial entries of a run (R32, Table 2.3). -/
def freshRun (n : Nat) (f : Surface) : Tbl LEntry :=
  (List.range f.tiles).map fun i =>
    (f.lbase + i, { never := true, watch := f.watch.contains i, surface := BitVec.ofNat 12 n, tile := BitVec.ofNat 16 i })

/-- Ends a registration: the run is freed and reads zero (R32). -/
def unregister (s : State) (n : Nat) : State :=
  let f := s.surf n
  if f.reg then
    ledgerCount ((zeroRun s f.lbase f.tiles).setSurf n
      { f with reg := false, frzFrames := 0, frzPct := 0, watchMs := 0, watch := [], lbase := 0, curSeq := 0, frozen := 0, frozenA := false })
  else s

/-- Whether a registration of `tiles` entries for surface `n` of partition `p` succeeds: its base, or the status
(R31). -/
def runFor (s : State) (p n tiles : Nat) : Nat ⊕ Nat :=
  match lowestRun s n tiles with
  | none => .inr stLedgerFull
  | some b =>
    let own := if (s.surf n).reg then (s.surf n).tiles else 0
    if ledgerUse s p - own + tiles > (s.part p).qLdg then .inr stLedgerQuota else .inl b

/-- Registers surface `n` as `f` describes it at entry `b` (R32): an earlier run is freed, the new one is initial. -/
def register (s : State) (n b : Nat) (f : Surface) : State :=
  let s := unregister s n
  let f := { f with reg := true, lbase := b, curSeq := 0, frozen := 0, frozenA := false }
  let s := zeroRun s b f.tiles
  let led := (s.ledger.filter fun x => decide (x.1 < b)) ++ freshRun n f ++ s.ledger.filter fun x => decide (b + f.tiles ≤ x.1)
  ledgerCount ({ s with ledger := led }.setSurf n f)

/-! ### Tile checkers -/

/-- Bytes per pixel of the first plane (Table 7.1). -/
def fmtBytes (fmt : Nat) : Nat := ([1, 2, 2, 4, 4, 4] : List Nat).getD fmt 0

/-- Whether a format is 4:2:0. -/
def fmt420 (fmt : Nat) : Bool := decide (fmt < 2)

/-- The bytes of a surface in memory (R183). -/
def Surface.size (f : Surface) : Nat := f.pitch * (f.h + (if fmt420 f.fmt then f.h / 2 else 0))

/-- The pieces of a rectangle as they lie in memory, in the order of R422: address and length of each row. -/
def rectRows (f : Surface) (x y w h : Nat) : List (Nat × Nat) :=
  let b := fmtBytes f.fmt
  let luma := (List.range h).map fun i => (f.base + (y + i) * f.pitch + x * b, w * b)
  if fmt420 f.fmt then
    luma ++ (List.range (h / 2)).map fun i => (f.base + f.pitch * f.h + (y / 2 + i) * f.pitch + x * b, w * b)
  else luma

/-- A tile's rectangle, clipped to the surface: x, y, width, height. -/
def tileRect (f : Surface) (t : Nat) : Nat × Nat × Nat × Nat :=
  let x := t % f.tx * 64
  let y := t / f.tx * 64
  (x, y, Nat.min 64 (f.w - x), Nat.min 64 (f.h - y))

/-- The CRC of a tile as its bytes stand in the surface (R421, R422). -/
def tileCrc (s : State) (n t : Nat) : BitVec 32 :=
  let f := s.surf n
  let r := tileRect f t
  BitVec.ofNat 32 (crc32c (tileContext n t) ((rectRows f r.1 r.2.1 r.2.2.1 r.2.2.2).flatMap fun p => s.load p.1 p.2))

/-- A tile checker sends its record (R35). -/
def sendRecord (s : State) (n t : Nat) (content : BitVec 32) (basis : BitVec 2) (taint : Bool) (seq : BitVec 32) : State :=
  { s with records := s.records ++ [⟨BitVec.ofNat 12 n, BitVec.ofNat 16 t, tileCrc s n t, content, basis, taint, seq⟩] }

/-! ### Records -/

/-- `freeze_a_close` of R38. -/
def closeA (f : Surface) : Surface :=
  { f with frozenA := decide (f.frzFrames ≠ 0) && decide (f.frozen * 100 ≥ f.frzPct * f.tiles) }

/-- The entry after a record (R35): content time, changed or not. -/
def entryAfter (e : LEntry) (r : TileRec) (ct : BitVec 32) : LEntry :=
  let changed := e.never || e.crc != r.crc
  { e with
    content := ct, crc := r.crc, seq := r.seq, basis := r.basis, taint := r.taint, never := false, expLong := false
    change := if changed then ct else e.change
    run := if changed then 0 else if e.run < 65535 then e.run + 1 else e.run
    watchExp := if changed then false else e.watchExp
    updates := e.updates + 1 }

/-- The surface after a record: the previous picture closes first, and frozen_tiles follows the run (R35, R38). -/
def surfAfter (f : Surface) (r : TileRec) (old new : Nat) : Surface :=
  let f := if r.seq != f.curSeq then { closeA f with curSeq := r.seq } else f
  if f.frzFrames = 0 then f
  else if old < f.frzFrames ∧ f.frzFrames ≤ new then { f with frozen := f.frozen + 1 }
  else if f.frzFrames ≤ old ∧ new < f.frzFrames then { f with frozen := f.frozen - 1 }
  else f

/-- An uncorrectable ledger read (R47): counted, captured, FATAL LEDGER_ECC. -/
def ledgerBad (s : State) (entry : Nat) : State :=
  let s := s.add LDG_ECC 16 16 1
  let s := if s.bit LDG_ECC_CAP 31 then s else s.setReg LDG_ECC_CAP (BitVec.ofNat 32 (entry + 2 ^ 31))
  raise s evLedgerEcc 3 12 31 []

/-- Correctable ledger reads (R47). -/
def ledgerFixed (s : State) (k : Nat) : State := s.add LDG_ECC 0 16 k

/-- What the ledger engine reads of an entry: one that reads badly counts as never filled, and what its count of
updates was is open (R47). -/
def entryRead (s : State) (e : LEntry) (ecc : Ecc) : LEntry :=
  if ecc = .bad then { e with never := true, updates := BitVec.ofNat 16 (Config.badBits s.free).toNat } else e

/-- `ledger_apply` of R35 with the ECC rules of R47. -/
def applyRecord (s : State) (r : TileRec) (ecc : Ecc) : State :=
  let f := s.surf r.surface.toNat
  if !f.reg || decide (r.tile.toNat ≥ f.tiles) then s.inc LDG_DROP
  else
    let i := f.lbase + r.tile.toNat
    let e := s.led i
    let ct := if r.basis == 0 then s.tick else r.content
    let e' := entryAfter (entryRead s e ecc) r ct
    let s := (s.setLed i e').setSurf r.surface.toNat (surfAfter f r e.run e'.run)
    match ecc with
    | .ok => s
    | .corrected => ledgerFixed s 1
    | .bad => ledgerBad s.draw i

/-- Applies the oldest record on the ledger network (R35, R36). -/
def doTileRecordApply (ecc : Ecc) (s : State) : State :=
  match s.records with
  | [] => s
  | r :: rest => applyRecord { s with records := rest } r ecc

def execTileRecordApply (ecc : Ecc) (s : State) : Host.Outcome State Fault Refusal := .next (doTileRecordApply ecc s)

/-- Applies every record that waits, as the end of work that waits for them requires (R157, log 24). -/
def drainRecords (s : State) : State := s.records.foldl (fun s r => applyRecord s r .ok) { s with records := [] }

/-! ### The sweeper -/

/-- Whether a tick lies more than 30 minutes from a time (R41). -/
def beyond30 (now t : BitVec 32) : Bool := decide (tickDiff now t > 1800000000) || decide (tickDiff now t < -1800000000)

/-- One visit of an allocated, filled entry (R41). -/
def sweepEntry (s : State) (i : Nat) : State :=
  let e := s.led i
  let l := beyond30 s.tick e.content && !e.expLong
  let w := e.watch && beyond30 s.tick e.change && !e.watchExp
  if l || w then (s.setLed i { e with expLong := e.expLong || l, watchExp := e.watchExp || w }).inc LDG_EXPIRED else s

/-- Whether an allocated entry lies from `a` to below `b`. -/
def allocated (s : State) (a b : Nat) : Bool :=
  (runs s).any fun r => decide (Nat.max a r.2.1 < Nat.min b (r.2.1 + r.2.2))

/-- The island clock ns at which the pass comes to entry `i`, and to its end with 262,144 (R41). -/
def sweepDue (s : State) (i : Nat) : Nat := s.sweepAt + i * (s.sweepMs * 1000000) / 262144

/-- A pass whose time is over and whose entries are visited gives way to the next one, which takes the length written (R41,
Table 2.15). -/
def sweepPass (s : State) : State :=
  if s.island < sweepDue s 262144 || allocated s s.sweepNext 262144 then s
  else
    let t := (s.setFld LDG_SWEEP_STAT 0 16 s.sweepMs).wrapInc LDG_SWEEP_STAT 16 16
    { t with sweepAt := sweepDue s 262144, sweepNext := 0, sweepMs := s.fld LDG_SWEEP 0 16 }

/-- Whether the sweeper comes to entry `i` now: in ascending order, no allocated entry passed over, not before its time in the
pass (R41, log 119). -/
def sweepTurn (s : State) (i : Nat) : Bool :=
  decide (s.sweepNext ≤ i) && !allocated s s.sweepNext i && decide (sweepDue s i ≤ s.island)

/-- The sweeper visits an entry (R41, R47). -/
def doSweeperVisit (entry : Fin 262144) (ecc : Ecc) (s : State) : State :=
  let i := entry.val
  let t := sweepPass s
  if !s.ctl.core || !s.bit LDG_STATUS 0 || !sweepTurn t i then s
  else
    let s := { t with sweepNext := i + 1 }
    if !allocated s i (i + 1) then s
    else match ecc with
      | .bad => ledgerBad s i
      | _ =>
        let s := if ecc = .corrected then ledgerFixed s 1 else s
        if (s.led i).never then s else sweepEntry s i

def execSweeperVisit (entry : Fin 262144) (ecc : Ecc) (s : State) : Host.Outcome State Fault Refusal :=
  .next (doSweeperVisit entry ecc s)

/-! ### Lines and bands of a head -/

/-- Blanking plus the first `y` active lines of the head's frame, in device time: when active line `y` begins
(R43, R81). -/
def lineStart (s : State) (n y : Nat) : Nat :=
  let h := s.head n
  let t := s.tg h.tg
  h.boundary + t.period - tgLinesNs t ((h.vAct : Int) - (y : Int)) (signed 18 (s.fld (TG_TRIM h.tg) 0 18))

/-- The bands of a head (chapter 02: 64 lines each, the last may be shorter). -/
def Head.bands (h : Head) : Nat := ceilDiv h.vAct 64

/-- The layers of a head, in ascending z, the cursor last (R190). -/
def layersOf (s : State) (n : Nat) : List (Nat × Layer) :=
  (s.layers.filter fun x => x.2.created && x.2.head == n).foldl (fun l x =>
    insertAfter (fun y => decide (y.2.cur.z ≤ x.2.cur.z)) x l) []

/-- The rows of a layer's destination that fall into band `b`, clipped to the head: first row and end. -/
def bandRows (h : Head) (l : LState) (b : Nat) : Nat × Nat :=
  let y0 := Nat.max (64 * b) l.dstY.toNat
  let y1 := Nat.min (Nat.min (64 * b + 64) h.vAct) (l.dstY + (l.cropH : Int)).toNat
  (y0, y1)

/-- The visible live-class layers with a buffer that meet band `b`, ascending z (R44, R196). -/
def liveIn (s : State) (n b : Nat) : List (Nat × Layer) :=
  let h := s.head n
  (layersOf s n).filter fun x =>
    x.2.cur.live && x.2.cur.visible && x.2.buf.isSome && decide ((bandRows h x.2.cur b).1 < (bandRows h x.2.cur b).2)

/-- The tiles of a layer that band `b` shows, by tile row then column (R44): tile row and column. -/
def tilesIn (h : Head) (l : LState) (b : Nat) : List (Nat × Nat) :=
  if l.cropW = 0 then []
  else
  let r := bandRows h l b
  let sy0 := ((l.cropY : Int) + (r.1 : Int) - l.dstY).toNat
  let sy1 := ((l.cropY : Int) + (r.2 : Int) - 1 - l.dstY).toNat
  let c0 := l.cropX / 64
  let c1 := (l.cropX + l.cropW - 1) / 64
  (upFrom (sy0 / 64) (sy1 / 64 - sy0 / 64 + 1)).flatMap fun ty => (upFrom c0 (c1 - c0 + 1)).map fun tx => (ty, tx)

/-- Word `i` of a profile as head `n` applies it: the earlier values until the head's boundary (R55, R56). -/
def profWord (s : State) (n prof i : Nat) : Word :=
  match tget (fun _ => []) (s.head n).oldProf prof with
  | [] => s.reg (VRD_ACT_LIVE prof + 4 * i)
  | ws => ws.getD i 0

/-- The treatment of a verdict in a profile (Table 2.27). -/
def treatment (s : State) (n prof : Nat) (v : Verdict) : Nat :=
  let w := fun i => (profWord s n prof i).toNat
  match v with
  | .aged => w 2 % 65536
  | .stale => w 2 / 65536
  | .tainted => w 3 % 65536
  | .frozen => w 3 / 65536
  | .never => w 4 % 65536
  | .live => 0

/-- Whether a surface is frozen (R38, R39) at a tick: mode A, or an overdue watch tile. -/
def surfFrozen (s : State) (f : Surface) (bad : List Nat) (now : BitVec 32) (margin : Nat) : Bool :=
  f.frozenA || (decide (f.watchMs ≠ 0) && f.watch.any fun t =>
    watchOverdue (s.led (f.lbase + t)) (bad.contains (f.lbase + t)) f.watchMs now margin)

/-- The evaluation of one tile of a layer (R26, R42). -/
def evalTile (s : State) (n : Nat) (x : Nat × Layer) (bad : List Nat) (now : BitVec 32) (margin : Nat) (frozen : Bool)
    (t : Nat × Nat) : Eval :=
  let f := s.surf (x.2.buf.getD 0)
  let tile := t.1 * f.tx + t.2
  if !f.reg then ⟨x.1, tile, .stale, none, 0, 0⟩
  else
    let e := s.led (f.lbase + tile)
    let b := bad.contains (f.lbase + tile)
    let lv := (profWord s n x.2.cur.profile 0).toNat
    let ag := (profWord s n x.2.cur.profile 1).toNat
    ⟨x.1, tile, tileVerdict e b frozen lv ag now margin, if ageShown e b now then some (ageOf now margin e) else none,
      rawAge now e.content, e.content⟩

/-- The entries a layer's evaluation reads: its surface's watch tiles, then its tiles (R39, R44). -/
def readsOf (s : State) (h : Head) (x : Nat × Layer) (b : Nat) : List Nat :=
  let f := s.surf (x.2.buf.getD 0)
  if f.reg then (f.watch ++ (tilesIn h x.2.cur b).map fun t => t.1 * f.tx + t.2).map (f.lbase + ·) else []

/-- The evaluations of one band of a head at a tick (R43–R45). A layer whose scanout in the band was held or refused
stays STALE without an age (R312). -/
def evalBand (s : State) (n b : Nat) (bad : List Nat) (now : BitVec 32) (margin : Nat) : List Eval :=
  let h := s.head n
  (liveIn s n b).flatMap fun x =>
    let f := s.surf (x.2.buf.getD 0)
    let fr := f.reg && surfFrozen s f bad now margin
    (tilesIn h x.2.cur b).map fun t =>
      let e := evalTile s n x bad now margin fr t
      if h.held.contains (x.1, b) then { e with verdict := .stale, age := none } else e

/-- Every live-class tile of a band STALE with the badge ` ???` (R46). -/
def staleBand (s : State) (n b : Nat) : List Eval :=
  (liveIn s n b).flatMap fun x =>
    let f := s.surf (x.2.buf.getD 0)
    (tilesIn (s.head n) x.2.cur b).map fun t => ⟨x.1, t.1 * f.tx + t.2, .stale, none, 0, 0⟩

/-- Stores a band's evaluations, complete or late (R46): for this frame, and as the latest of the band. -/
def putEvals (s : State) (n b : Nat) (es : List Eval) (done : Bool := true) : State :=
  let h := s.head n
  let be : BandEval := { band := b, frame := h.frame, evals := es, done := done }
  s.setHead n { h with evals := (h.evals.filter fun x => x.band != b) ++ [be]
                       hot := (h.hot.filter fun x => x.band != b) ++ [be] }

/-- Whether band `b` of head `n` still waits for its evaluation in the frame being shown. -/
def bandWaits (s : State) (n b : Nat) : Bool :=
  let h := s.head n
  h.enabled && decide (b < h.bands) && !(h.evals.any fun x => x.band == b && x.done)

/-- Whether the band has been treated as late in this frame (R46). -/
def bandLate (s : State) (n b : Nat) : Bool := (s.head n).evals.any fun x => x.band == b && !x.done

/-- How long ago VRD could begin to evaluate a band (R43): band 0 from the frame boundary on, band b from T_(b−1). -/
def bandOpen (s : State) (n b : Nat) : Int := s.since (if b = 0 then (s.head n).boundary else lineStart s n (64 * (b - 1)))

/-- How long ago T_b was. -/
def bandPast (s : State) (n b : Nat) : Int := s.since (lineStart s n (64 * b))

/-- A band is treated as late (R46): every live-class tile STALE, the event counted. -/
def lateBand (s : State) (n b : Nat) : State := (putEvals s n b (staleBand s n b) false).inc VRD_LATE

/-- What a completed evaluation leaves: its verdicts before T_b; at or after it the band is late, and stays so (R46). -/
def closeBand (s : State) (n b : Nat) (es : List Eval) : State :=
  if bandPast s n b < 0 then putEvals s n b es
  else
    let s := if bandLate s n b then s else lateBand s n b
    s.setHead n { s.head n with evals := (s.head n).evals.map fun x => if x.band = b then { x with done := true } else x }

/-- The tiles that layer `x` shows in a band and the entries that its evaluation reads, as surface and tile. -/
def owedTiles (s : State) (n b : Nat) (watch : Bool) : List (Nat × Nat) :=
  (liveIn s n b).flatMap fun x =>
    let k := x.2.buf.getD 0
    let f := s.surf k
    if !f.reg then []
    else (if watch then f.watch else []).map (fun t => (k, t)) ++ (tilesIn (s.head n) x.2.cur b).map fun t => (k, t.1 * f.tx + t.2)

/-- What a frame that ends leaves to be evaluated of band `b` (R46). -/
def owedBand (s : State) (n b : Nat) : Owed :=
  ⟨b, (s.head n).frame, lineStart s n (64 * b), owedTiles s n b false, owedTiles s n b true⟩

/-- The ledger entries of tiles whose surfaces are still registered. -/
def entriesOf (s : State) (ts : List (Nat × Nat)) : List Nat :=
  ts.filterMap fun x => let f := s.surf x.1; if f.reg && decide (x.2 < f.tiles) then some (f.lbase + x.2) else none

/-- What completing the evaluation of a band shows and counts, early or late (R36, R47, Table 2.17): the margin, the band and its
frame, the tiles in the future, the ledger's errors among the entries read. -/
def bandDone (s : State) (n b : Nat) (frame : BitVec 64) (margin future : Nat) (reads bad : List Nat) (fixed : Nat) : State :=
  let s := (s.setReg VRD_MARGIN (BitVec.ofNat 32 margin)).setReg (VRD_HEAD_BAND n) (BitVec.ofNat 32 (b + frame.toNat % 2 ^ 24 * 2 ^ 8))
  let s := s.add VRD_FUTURE 0 32 future
  let s := if reads.isEmpty then s else ledgerFixed s fixed
  (reads.filter bad.contains).foldl ledgerBad s

/-- VRD completes the evaluation of a band (R40, R42–R47): the one of an earlier frame first where that is still not complete; its
tiles stay STALE.
`bad` are the entries that read with uncorrectable errors, `fixed` counts the corrected reads. VRD_FUTURE counts the tiles that
are filled and whose raw age is below −1,000 µs, whatever else makes them STALE. DEDUCED (log 120). -/
def doBandEvaluation (head : Fin 16) (band : Fin 68) (bad : List Nat) (fixed : Nat) (s : State) : State :=
  let n := head.val
  let b := band.val
  if !s.ctl.core then s
  else match (s.head n).owed.find? fun x => x.band == b with
  | some x =>
    let future := ((entriesOf s x.tiles).filter fun i => !(s.led i).never && decide (rawAge (tickOf x.due) (s.led i).content < -1000)).length
    bandDone (s.setHead n { s.head n with owed := (s.head n).owed.erase x }) n b x.frame s.margin future (entriesOf s x.reads) bad fixed
  | none =>
  if !bandWaits s n b || decide (bandOpen s n b < 0) then s
  else
    let h := s.head n
    let now := tickOf (lineStart s n (64 * b))
    let margin := s.margin
    let es := evalBand s n b bad now margin
    let reads := (liveIn s n b).flatMap fun x => readsOf s h x b
    let future := (es.filter fun e => e.verdict != .never && decide (e.raw < -1000)).length
    bandDone (closeBand s n b es) n b h.frame margin future reads bad fixed

def execBandEvaluation (head : Fin 16) (band : Fin 68) (bad : List Nat) (fixed : Nat) (s : State) : Host.Outcome State Fault Refusal :=
  .next (doBandEvaluation head band bad fixed s)

/-- T_b comes before the evaluation of band b is complete (R46). -/
def doBandLate (head : Fin 16) (band : Fin 68) (s : State) : State :=
  let n := head.val
  let b := band.val
  if !s.ctl.core || !bandWaits s n b || bandLate s n b || decide (bandPast s n b < 0) then s else lateBand s n b

def execBandLate (head : Fin 16) (band : Fin 68) (s : State) : Host.Outcome State Fault Refusal := .next (doBandLate head band s)

/-- Whether the evaluation of some band of an enabled head is not complete 2 ms after its T_b (R46). -/
def bandStuck (s : State) (n : Nat) : Bool :=
  let h := s.head n
  h.enabled && (h.owed.any (fun x => decide (2000000 ≤ s.since x.due))
    || (List.range h.bands).any fun b => bandWaits s n b && decide (2000000 ≤ bandPast s n b))

/-- The head's watchdog fires, 2 ms after the T_b of a band still not evaluated (R46). -/
def doVrdWatchdog (head : Fin 16) (s : State) : State :=
  if !s.ctl.core || !bandStuck s head.val then s
  else
    let s := if s.bit VRD_WDOG 31 then s else s.setReg VRD_WDOG (BitVec.ofNat 32 (head.val + 2 ^ 31))
    raise s evVrdWatchdog 3 13 31 []

def execVrdWatchdog (head : Fin 16) (s : State) : Host.Outcome State Fault Refusal := .next (doVrdWatchdog head s)

/-! ### Profiles -/

/-- Whether an access may stage or commit a profile (R54). -/
def profAllowed (a : Access) (prof : Nat) : Bool :=
  a.part.toNat == prof / 4 || [Level.p2, Level.p3, Level.debug].contains a.level

/-- The five staging words of a profile. -/
def stagedProf (s : State) (prof : Nat) : List Word := (List.range 5).map fun i => s.reg (VRD_STG_LIVE prof + 4 * i)

/-- An accepted VRD_COMMIT write with go = 1: the staging values are taken now, the decision follows (R55, R56). -/
def commitRequest (s : State) (v : Word) : State :=
  let prof := bitsOf v.toNat 0 6
  let resv := bitsOf v.toNat 6 25 != 0
  { s with commits := s.commits ++ [prof + 64 * Bool.nat resv], snaps := s.snaps ++ [stagedProf s prof] }.resultOpen VRD_COMMIT_STATUS

/-- A write of VRD_COMMIT (R54–R56). -/
def vrdCommitWrite (a : Access) (v : Word) (s : State) : State :=
  if !profAllowed a (bitsOf v.toNat 0 6) then refuseWrite s 13 a VRD_COMMIT
  else if bitOf v.toNat 31 then commitRequest s v else s

def doVrdCommit (a : Access) (v : Word) (s : State) : State := regAccess s a VRD_COMMIT v (vrdCommitWrite a v)
def execVrdCommit (a : Access) (v : BitVec 32) (s : State) : Host.Outcome State Fault Refusal := .next (doVrdCommit a v s)

/-- The result of a commit with staged words `ws` (Table 2.9). -/
def commitResult (ws : List Word) (resv : Bool) : Nat :=
  let w := fun i => (ws.getD i 0).toNat
  profileResult (w 0) (w 1) [w 2 % 65536, w 2 / 65536, w 3 % 65536, w 3 / 65536, w 4 % 65536] resv

/-- Enabled heads keep a profile's earlier values until their boundary (R55, R56). -/
def keepProf (s : State) (prof : Nat) : State :=
  let old := (List.range 5).map fun i => s.reg (VRD_ACT_LIVE prof + 4 * i)
  s.each 16 fun s n =>
    let h := s.head n
    if h.enabled && (tget (fun _ => []) h.oldProf prof).isEmpty then
      s.setHead n { h with oldProf := tset (fun _ => []) h.oldProf prof old }
    else s

/-- Decides the oldest waiting commit (R55, R56). -/
def doCommitDecided (s : State) : State :=
  match s.commits, s.snaps with
  | c :: cs, ws :: wss =>
    let prof := c % 64
    let res := commitResult ws (c / 64 == 1)
    let s := { s with commits := cs, snaps := wss }
    let s := if res = 0 then
        let s := keepProf s prof
        (List.range 5).foldl (fun s i => s.setReg (VRD_ACT_LIVE prof + 4 * i) (ws.getD i 0)) s
      else raise s evTtRefused 0 13 (prof / 4) []
    let s := s.resultDone VRD_COMMIT_STATUS (res + prof * 8)
    if cs.isEmpty then s else s.resultOpen VRD_COMMIT_STATUS
  | _, _ => s

def execCommitDecided (s : State) : Host.Outcome State Fault Refusal := .next (doCommitDecided s)

end Sys2Proof.Machine
end

