-- ==== Sys2Proof/Machine/ChainSend.lean ====
section
/-!
DEFINITION. What the chain sends by itself (chapter 13): the items of transmit stream slots (R364) and the transfers of
transmit surface slots, band by band (R366, R367). Compressed bands wait for a DEFLATE engine.
-/

namespace Sys2Proof.Machine

/-- The 32 bytes of an access-unit record (Table 4.6). -/
def AuRec.bytes (r : AuRec) : Bytes :=
  leBytes 8 r.capture ++ leBytes 8 r.arrival ++ leBytes 5 r.addr ++ [0] ++ leBytes 2 r.flags.toNat ++ leBytes 4 r.length
    ++ leBytes 4 r.rtpTs.toNat

/-- The addresses of units in SHADOW that carry a logical ID without holding it (R392). -/
def shadowsOf (s : State) (id : Nat) : List Nat :=
  (s.chain.peers.filter fun x => x.2.heard.isSome && x.2.mode == 3 && x.2.logical == id && !x.2.holder).map (·.1)

/-- Sends a message of a transmit slot to the holder of its destination and to every shadow unit of it (R364, R366, R392). -/
def sendSlot (s : State) (dst kind hdr : Nat) (body : Bytes) : State :=
  (shadowsOf s dst).foldl (fun s a => sendTo s a kind hdr body) (sendLogical s dst kind hdr body)

/-- The body bytes of one message at most (R360, R364). -/
def msgBytes : Nat := 511 * 28

/-- Cuts bytes into messages: offset and bytes of each. -/
def msgCuts (bs : Bytes) : List (Nat × Bytes) :=
  (List.range (Nat.max 1 (ceilDiv bs.length msgBytes))).map fun i => (i * msgBytes, (bs.drop (i * msgBytes)).take msgBytes)

/-- Whether one of the `n` stream messages from sequence `k` on has not left wholly. -/
def copyWaits (s : State) (k : BitVec 16) (n : Nat) : Bool :=
  let mine := fun (x : BitVec 16) => decide ((x - k).toNat < n)
  s.chain.ports.any fun x =>
    (x.2.queue.any fun m => m.1 == .own && m.2.kind == 8 && mine m.2.seq) || ((x.2.cur.any fun c => c.cls == 1 && c.way == .own) && mine x.2.strm)

/-- The areas of access units whose copies have not left yet (R364): address and length. -/
def chainKeeps (s : State) : List (Nat × Nat) := (s.chain.copies.filter fun x => copyWaits s x.2.2.1 x.2.2.2).map fun x => (x.1, x.2.1)

/-- One item of a transmit stream slot: the record, then the data (R364, Table 13.5). Offset and total length count the
record with the data. -/
def sendItem (s : State) (i : Nat) (r : AuRec) (data : Bytes) : State :=
  let t := s.txStream i
  let all := r.bytes ++ data
  let cuts := msgCuts all
  let s := s.setTxStream i { t with nMsgs := satInc t.nMsgs }
  cuts.foldl (fun s c =>
    let first := decide (c.1 = 0)
    let last := decide (all.length ≤ c.1 + msgBytes)
    sendSlot s t.dst 8 (hput 8 1 i + hput 9 1 t.target + hput 10 1 (Bool.nat first + Bool.nat last * 2) + hput 12 4 c.1
      + hput 16 4 all.length) c.2) s

/-- Sends an item on every slot whose source is the given context or encode session (R364). -/
def sendItems (s : State) (enc : Bool) (source : Nat) (r : AuRec) (data : Bytes) : State :=
  (s.chain.txS.filter fun x => x.2.enabled && x.2.alt == enc && x.2.source == source).foldl (fun s x => sendItem s x.1 r data) s

/-- An access unit released to a stream context is copied out, and its area held until the copy has left (R364). -/
def sendCopies (s : State) (c : Nat) (r : AuRec) (data : Bytes) : State :=
  let k := s.chain.seqs.getD 1 0
  let s := sendItems s false c r data
  let n := (s.chain.seqs.getD 1 0 - k).toNat
  if n = 0 then s
  else { s with chain := { s.chain with
    copies := (s.chain.copies.filter fun x => copyWaits s x.2.2.1 x.2.2.2) ++ [(r.addr, data.length, k, n)] } }

/-! ### Surfaces -/

/-- The bands of 64 lines of a surface. -/
def surfBands (f : Surface) : Nat := ceilDiv f.h 64

/-- The content time of a ledger entry in ns of device time: 0 for basis NONE (R367). -/
def entryNs (s : State) (e : LEntry) : Nat :=
  if e.basis = 0 then 0 else ((s.now : Int) - 1000 * tickDiff s.tick e.content).toNat

/-- The 16 bytes of a tile in a tile block (R367): time, then one byte with basis, taint and never-filled. -/
def tileBlock (s : State) (f : Surface) (band : Nat) : Bytes :=
  (List.range f.tx).flatMap fun tx =>
    let e := s.led (f.lbase + band * f.tx + tx)
    leBytes 8 (entryNs s e) ++ [BitVec.ofNat 8 (e.basis.toNat + Bool.nat e.taint * 4 + Bool.nat e.never * 8)] ++ List.replicate 7 0

/-- The pieces of memory of a surface band, in the order of R422. -/
def bandPieces (f : Surface) (band : Nat) : List (Nat × Nat) := rectRows f 0 (64 * band) f.w (Nat.min 64 (f.h - 64 * band))

/-- The pixel rows of a band, read by the chain for the slot's partition. -/
def bandPixels (s : State) (p n band : Nat) : State × Bytes :=
  (bandPieces (s.surf n) band).foldl (fun a r => let x := engRead a.1 39 p r.1 r.2; (x.1, a.2 ++ x.2.2)) (s, [])

/-- Whether the reading of a band waits at a gate (R309). -/
def bandHeld (s : State) (p n band : Nat) : Bool := rowsDec s 39 p .r (bandPieces (s.surf n) band) == .held

/-- Sends one band of a transfer: tile block, then pixel bytes (R366, R367, Table 13.5). -/
def sendBand (s : State) (i band : Nat) (packed : Bool) (px : Bytes) : State :=
  let t := s.txSurf i
  let f := s.surf t.surf
  let all := tileBlock s f band ++ px
  let cuts := msgCuts all
  let s := if surfBands f ≤ band + 1 then s.setTxSurf i { t with nMsgs := satInc t.nMsgs } else s
  cuts.foldl (fun s c =>
    let last := decide (all.length ≤ c.1 + msgBytes)
    let lastS := last && decide (surfBands f ≤ band + 1)
    sendSlot s t.dst 9 (hput 8 1 i + hput 9 1 t.target + hput 10 1 band
      + hput 11 1 (Bool.nat packed + Bool.nat last * 2 + Bool.nat lastS * 4) + hput 12 4 t.count.toNat + hput 16 4 c.1) c.2) s

/-- Whether a transfer of slot `i` is in progress: bands wait for or in a DEFLATE engine, or messages have not left wholly. -/
def transferring (s : State) (i : Nat) : Bool :=
  s.bands.any (fun b => !b.rx && b.slot == i)
    || s.dce.any (fun x => match x.2 with | some (.band b) => !b.rx && b.slot == i | _ => false)
    || s.chain.ports.any fun x =>
      (x.2.queue.any fun m => m.1 == .own && m.2.kind == 9 && m.2.h8 8 == i) || x.2.cur.any fun c => c.slot == some i

/-- Starts a transfer of surface `n` on slot `i` (R366); one that the chain makes without a DEFLATE engine waits as the
newest trigger where its reading waits at a gate (R309). -/
def startTransfer (s : State) (i n : Nat) : State :=
  let t := s.txSurf i
  let k := surfBands (s.surf n)
  if t.level = 0 && (List.range k).any (bandHeld s t.part n) then s.setTxSurf i { t with again := true }
  else
  let s := s.setTxSurf i { t with count := t.count + 1, surf := n, again := false }
  if t.level = 0 then
    (List.range k).foldl (fun s b => let x := bandPixels s t.part n b; sendBand x.1 i b false x.2) s
  else { s with bands := s.bands ++ (List.range k).map fun b => ⟨false, i, b, t.count + 1, n, decide (k ≤ b + 1), false, []⟩ }

/-- The surface a slot sends: the one it names, or the newest output of the follow slot it names. -/
def transferSource (s : State) (t : TxSlot) : Option Nat := if t.alt then (s.follow t.source).newest else some t.source

/-- Starts the transfers that a newer trigger asked for, once the earlier one has left (R366). -/
def nextTransfers (s : State) : State :=
  (s.chain.txF.filter fun x => x.2.enabled && x.2.again && !transferring s x.1).foldl (fun s x =>
    match transferSource s x.2 with
    | some n => startTransfer s x.1 n
    | none => s) s

/-- One trigger of a slot: a transfer starts, or the newest trigger waits and the others are passed over (R366). -/
def triggerSlot (s : State) (i n : Nat) : State :=
  let t := s.txSurf i
  if transferring s i then
    s.setTxSurf i { t with again := true, nPassed := if t.again then satInc t.nPassed else t.nPassed }
  else startTransfer s i n

/-- A surface has been written since it was restored (R384). -/
def markWritten (s : State) (n : Nat) : State := s.setSurf n { s.surf n with written := true }

/-- A job that wrote surface `n` has completed (R366, R384). -/
def surfWritten (s : State) (n : Nat) : State :=
  let s := markWritten s n
  if (s.surf n).reg then
    (s.chain.txF.filter fun x => x.2.enabled && !x.2.alt && x.2.source == n).foldl (fun s x => triggerSlot s x.1 n) s
  else s

/-- Follow slot `k` has completed an output on surface `n` (R366). -/
def followWritten (s : State) (k n : Nat) : State :=
  let s := markWritten s n
  (s.chain.txF.filter fun x => x.2.enabled && x.2.alt && x.2.source == k).foldl (fun s x => triggerSlot s x.1 n) s

end Sys2Proof.Machine
end

