-- ==== Sys2Proof/Machine/Surfaces.lean ====
section
/-!
DEFINITION. Surfaces (chapter 07): who uses one (R33, R37, R185), the order of jobs on one (R157), and the commands
SURF_CREATE, SURF_RELEASE and SURF_UPLOAD with the upload's tile rows (R183–R185).
-/

namespace Sys2Proof.Machine

/-! ### Users of a surface -/

/-- The pool surface a context's decoder writes. -/
def ctxWrites (c : Ctx) : Option Nat := c.dec.map fun d => c.poolBase + d.buf

/-! ### Ranges of memory that DCE and CRC jobs use -/

/-- The range of the part's memory that a DCE job in flight writes, and the one that a DCE or CRC job in flight reads. -/
def dmaWrites (s : State) (j : Job) : Nat × Nat :=
  let q := j.req
  if j.ended.isNone && ([0x0D01, 0x0D02] : List Nat).contains j.opcode.toNat && isInternal s q.part.val (dceDstHost q) then (dceDst q, dceCap q)
  else (0, 0)
def dmaReads (s : State) (j : Job) : Nat × Nat :=
  let q := j.req
  if j.ended.isSome then (0, 0)
  else match j.opcode.toNat with
  | 0x0D01 | 0x0D02 => if isInternal s q.part.val (dceSrcHost q) then (dceSrc q, dceLen q) else (0, 0)
  | 0x0E01 => if isInternal s q.part.val (crcSrcHost q) then (crcSrc q, q.u32 20) else (0, 0)
  | _ => (0, 0)

/-- Whether a range of memory meets a surface. -/
def meetsSurf (s : State) (n : Nat) (r : Nat × Nat) : Bool :=
  let f := s.surf n
  f.created && decide (0 < r.2) && overlaps r.1 r.2 f.base f.size

/-- Whether some job or engine writes a surface now (R37). -/
def writerOf (s : State) (n : Nat) : Bool :=
  s.jobs.any (fun j => jobTarget j == some n || meetsSurf s n (dmaWrites s j))
    || s.ipp.any (fun x => match x.2 with | some w => w.target == n | none => false)
    || s.ctxs.any (fun x => ctxWrites x.2 == some n)
    || s.chain.rxF.any (fun x => x.2.target == some n)

/-- The buffer a pending update names (chapter 07, Committing changes). -/
def pendBuf (p : Pending) : Option Nat :=
  if p.groups.getLsbD 3 then (match p.vals.source with | .surface b => b | _ => none) else none

/-- Whether a layer is live class once an update is in force. -/
def pendLive (l : Layer) (p : Pending) : Bool := if p.groups.getLsbD 2 then p.vals.live else l.cur.live

/-- Whether a surface is the current buffer of a live-class layer, or counts as one from the commit point or from
instant S (R37, R199, R207). -/
def onScreen (s : State) (n : Nat) : Bool :=
  s.layers.any fun x => let l := x.2
    l.created && ((l.cur.live && (l.buf == some n || l.armedBuf == some n))
      || l.pend.any fun p => (p.armed || p.counts) && pendLive l p && pendBuf p == some n)

/-- Whether a surface is the current or pending buffer of a live-class layer (R33, R159). -/
def liveOrPending (s : State) (n : Nat) : Bool :=
  s.layers.any fun x => let l := x.2
    l.created && ((l.cur.live && (l.buf == some n || l.armedBuf == some n))
      || l.pend.any fun p => pendLive l p && pendBuf p == some n)

/-- Whether a surface may not be redefined or released (R33, R185). -/
def surfInUse (s : State) (n : Nat) : Bool :=
  s.layers.any (fun x => let l := x.2
    l.created && (l.buf == some n || l.armedBuf == some n || l.pend.any fun p => pendBuf p == some n))
  || s.follows.any (fun x => let f := x.2
    f.bound && decide (f.first ≤ n) && decide (n < f.first + f.m))
  || s.ctxs.any (fun x => let c := x.2
    decide (c.poolBase ≤ n) && decide (n < c.poolBase + c.poolN))
  || s.heads.any (fun x => let h := x.2
    (h.wbOn && (h.wbA == n || h.wbB == n)) || (h.isSet && h.liningSurf == some n))

/-! ### SURF_CREATE and SURF_RELEASE -/

def maskSurfCreate : Nat := bodyMask [(16, 0, 12), (18, 0, 8), (19, 0, 2), (20, 0, 32), (24, 0, 40), (32, 0, 32), (36, 0, 1), (37, 0, 8), (38, 0, 96)]

/-- The descriptor that SURF_CREATE describes (R183, Table 7.9). -/
def surfOf (q : Req) : Surface :=
  { created := true, base := q.u40 24, pitch := q.u32 32, w := q.u16 20, h := q.u16 22, fmt := q.u8 18
    bt2020 := q.bit 19 0, full := q.bit 19 1 }

/-- With the ledger binding (Table 2.2). -/
def bound (q : Req) (f : Surface) : Surface :=
  { f with frzFrames := q.u16 38, frzPct := q.u8 37, watchMs := q.u16 40,
           watch := ([42, 44, 46, 48].map q.u16).filter (· != 0xFFFF) }

/-- Whether the descriptor breaks a constraint of R183 other than the binding's. -/
def surfBad (s : State) (f : Surface) : Bool :=
  f.base % 0x1000 != 0 || f.pitch % 256 != 0 || decide (f.pitch < f.w * fmtBytes f.fmt)
    || decide (f.w < 16) || decide (8192 < f.w) || decide (f.h < 16) || decide (8192 < f.h)
    || (decide (f.fmt < 4) && (f.w % 2 != 0 || f.h % 2 != 0)) || !inChannel s f.base f.size

/-- Whether the binding lies outside Table 2.2 (R30). -/
def bindingBad (f : Surface) : Bool :=
  decide (8128 < f.h) || decide (f.frzPct < 1) || decide (100 < f.frzPct) || decide (60000 < f.watchMs)
    || f.watch.any fun t => decide (f.tiles ≤ t)

/-- SURF_CREATE (R183, R185, R30–R33). -/
def surfCreate (q : Req) (s : State) : State × Nat × BitVec 128 :=
  let n := q.u16 16
  let p := q.part.val
  let f := surfOf q
  let track := q.bit 36 0
  let g := bound q f
  let body := fun (b : Nat) => cplBody [(16, 4, b), (20, 2, f.tx), (22, 2, f.ty)]
  match firstFail [(surfBad s f, stBadRange), (!ownsSurf s p n, stNotOwner), (decide (5 < f.fmt), stBadFormat),
      (surfInUse s n, stInUse), (track && bindingBad g, stBadBinding)] with
  | some st => (s, st, 0)
  | none =>
    if track then
      match runFor s p n f.tiles with
      | .inr st => (s, st, 0)
      | .inl b => (register s n b g, stComplete, body b)
    else ((unregister s n).setSurf n f, stComplete, body 0xFFFFFFFF)

def doSurfCreate (q : Req) (s : State) : State := soileNow s q 0x0701 maskSurfCreate true (surfCreate q)
def execSurfCreate (q : Req) (s : State) : Host.Outcome State Fault Refusal := .next (doSurfCreate q s)

/-- SURF_RELEASE (R185, R32, R33). -/
def doSurfRelease (q : Req) (s : State) : State :=
  soileNow s q 0x0702 (bodyMask [(16, 0, 12)]) true fun s =>
    let n := q.u16 16
    if !ownsSurf s q.part.val n then (s, stNotOwner, 0)
    else if surfInUse s n then (s, stInUse, 0)
    else ((unregister s n).setSurf n {}, stComplete, 0)

def execSurfRelease (q : Req) (s : State) : Host.Outcome State Fault Refusal := .next (doSurfRelease q s)

/-! ### SURF_UPLOAD -/

def maskSurfUpload : Nat := bodyMask [(16, 0, 12), (18, 0, 2), (20, 0, 64), (32, 0, 96), (48, 0, 128)]

/-- Whether the rectangle of an upload breaks R184. -/
def uploadBad (f : Surface) (q : Req) : Bool :=
  let x := q.u16 20
  let y := q.u16 22
  let w := q.u16 24
  let h := q.u16 26
  !f.created || w == 0 || h == 0 || x % 64 != 0 || y % 64 != 0 || decide (f.w < x + w) || decide (f.h < y + h)
    || (w % 64 != 0 && x + w != f.w) || (h % 64 != 0 && y + h != f.h) || (q.bit 18 0 && q.u64 48 % 8 != 0)

/-- SURF_UPLOAD (R184): validated, it waits for earlier jobs on its surface and is then copied row by row. -/
def doSurfUpload (q : Req) (s : State) : State :=
  soile s q 0x0703 maskSurfUpload true fun s id =>
    let n := q.u16 16
    guardJob s id [(uploadBad (s.surf n) q, stBadRange), (!ownsSurf s q.part.val n, stNotOwner), (onScreen s n, stOnScreen)] fun s => s

def execSurfUpload (q : Req) (s : State) : Host.Outcome State Fault Refusal := .next (doSurfUpload q s)

/-- Cuts bytes into pieces of given lengths at given addresses. -/
def cutBytes : List (Nat × Nat) → Bytes → List (Nat × Bytes)
  | [], _ => []
  | (a, n) :: r, bs => (a, sliceB bs 0 n) :: cutBytes r (bs.drop n)

/-- Writes the pieces of a rectangle for partition `p` by the block in `slot`; the first failure is answered. -/
def writeRows (s : State) (slot p : Nat) (ws : List (Nat × Bytes)) : State × AccRes :=
  ws.foldl (fun r w =>
    let x := engWrite r.1 slot p w.1 w.2
    (x.1, if r.2 = .ok then x.2 else r.2)) (s, .ok)

/-- The tiles of tile row `ty` that a rectangle of columns `x … x+w-1` covers. -/
def tilesAcross (f : Surface) (ty x w : Nat) : List Nat :=
  (upFrom (x / 64) (ceilDiv (x + w) 64 - x / 64)).map fun tx => ty * f.tx + tx

/-- The bytes of one tile row of an upload in the host buffer, as addresses and lengths (R184): rows of the first
plane, then of the chroma plane. -/
def uploadSrc (f : Surface) (q : Req) (k : Nat) : List (Nat × Nat) :=
  let h := Nat.min 64 (q.u16 26 - 64 * k)
  let len := q.u16 24 * fmtBytes f.fmt
  let pitch := q.u32 40
  let luma := (List.range h).map fun i => (q.u64 32 + (64 * k + i) * pitch, len)
  if fmt420 f.fmt then
    luma ++ (List.range (h / 2)).map fun i => (q.u64 32 + pitch * q.u16 26 + (32 * k + i) * pitch, len)
  else luma

/-- What an upload in flight has still to read of the part's own memory, where its partition's host memory is that (R269). -/
def uploadReads (s : State) (j : Job) : List (Nat × Nat) :=
  let q := j.req
  if j.opcode.toNat = 0x0703 ∧ j.ended.isNone ∧ onPcie s q.part.val = false then
    (upFrom j.n (ceilDiv (q.u16 26) 64 - j.n)).flatMap (uploadSrc (s.surf (q.u16 16)) q)
  else []

/-- Reads pieces of a partition's host memory, one after the other (R279, R287). -/
def hostReads (s : State) (p : Nat) (rs : List (Nat × Nat)) (h : HostRead) : State × Nat × Bytes :=
  if onPcie s p then hostRead s p 0 (rs.foldl (fun n r => n + r.2) 0) h
  else rs.foldl (fun a r =>
    if a.2.1 = stComplete then
      let x := engRead a.1 34 p r.1 r.2
      (x.1, x.2.1.status, a.2.2 ++ x.2.2)
    else a) (s, stComplete, [])

/-- The end of an upload: its last record applied, its fence written (R184). -/
def uploadEnd (s : State) (j : Job) (st : Nat) : State :=
  let s := drainRecords s
  let s := if st = stComplete && j.req.bit 18 0 then
      fenceWrite s 34 j.req.part.val (j.req.bit 18 1) (j.req.u64 48) (j.req.u64 56) else s
  let s := finish s j.id st (cplBody [(16, 4, j.v.toNat), (20, 2, j.m)])
  if st = stComplete || decide (0 < j.n) then surfWritten s (j.req.u16 16) else s

/-- The records of one tile row of an upload (R184): basis COMMIT, taint where a write of the tile was refused (R517). -/
def uploadRecords (s : State) (n : Nat) (seq : BitVec 32) (bad ts : List Nat) : State :=
  if (s.surf n).reg then ts.foldl (fun s t => sendRecord s n t s.tick 3 (bad.contains t) seq) s else s

/-- One tile row of an upload (R184). -/
def uploadRow (s : State) (j : Job) (h : HostRead) : State :=
  let q := j.req
  let n := q.u16 16
  let p := q.part.val
  let f := s.surf n
  let k := j.n
  let y := q.u16 22 + 64 * k
  let hh := Nat.min 64 (q.u16 26 - 64 * k)
  let dst := rectRows f (q.u16 20) y (q.u16 24) hh
  if rowsDec s 34 p .w dst = .held then s
  else
    let rd := hostReads s p (uploadSrc f q k) h
    if rd.2.1 = stWaits then s
    else if rd.2.1 != stComplete then uploadEnd rd.1 j rd.2.1
    else
      let s := rd.1
      let j := if k = 0 then { j with v := BitVec.ofNat 64 ((f.uploads + 1).toNat) } else j
      let s := if k = 0 then s.setSurf n { f with uploads := f.uploads + 1 } else s
      let ts := tilesAcross f (y / 64) (q.u16 20) (q.u16 24)
      let bad := ts.filter fun t =>
        let r := tileRect f t
        rowsDec s 34 p .w (rectRows f r.1 r.2.1 r.2.2.1 r.2.2.2) != .ok
      let w := writeRows s 34 p (cutBytes dst rd.2.2)
      let s := uploadRecords w.1 n (BitVec.ofNat 32 j.v.toNat) bad ts
      let j := { j with n := k + 1, m := if f.reg then j.m + ts.length else j.m, running := true }
      if w.2 != .ok then uploadEnd s j w.2.status
      else if 64 * (k + 1) ≥ q.u16 26 then uploadEnd s j stComplete
      else if j.stops then uploadEnd s j stAborted
      else s.modJob j.id fun _ => j

/-- A tile row of the upload of job `job` has been copied (R184). -/
def doUploadTileRowDone (job : Nat) (host : HostRead) (s : State) : State :=
  match s.job job with
  | none => s
  | some j => if j.opcode.toNat = 0x0703 && mayRun s j then uploadRow s j host else s

def execUploadTileRowDone (job : Nat) (host : HostRead) (s : State) : Host.Outcome State Fault Refusal :=
  .next (doUploadTileRowDone job host s)

end Sys2Proof.Machine
end

