-- ==== Sys2Proof/Machine/Layers.lean ====
section
/-!
DEFINITION. Layers (chapter 07): field groups and their merging (R191, R202), the checks of LAYER_UPDATE (R191–R193,
R205), LAYER_CREATE and LAYER_DESTROY (R190, R203), and how armed updates take effect at a boundary (R203, R208).
-/

namespace Sys2Proof.Machine

/-! ### Field groups -/

/-- The state `v` with the groups `g` taken from `w` (Table 7.3): GEOM, APPEAR, CLASS, BUF, Z. -/
def takeGroups (g : BitVec 5) (v w : LState) : LState :=
  { cropX := if g.getLsbD 0 then w.cropX else v.cropX
    cropY := if g.getLsbD 0 then w.cropY else v.cropY
    cropW := if g.getLsbD 0 then w.cropW else v.cropW
    cropH := if g.getLsbD 0 then w.cropH else v.cropH
    dstX := if g.getLsbD 0 then w.dstX else v.dstX
    dstY := if g.getLsbD 0 then w.dstY else v.dstY
    visible := if g.getLsbD 1 then w.visible else v.visible
    alpha := if g.getLsbD 1 then w.alpha else v.alpha
    blend := if g.getLsbD 1 then w.blend else v.blend
    live := if g.getLsbD 2 then w.live else v.live
    profile := if g.getLsbD 2 then w.profile else v.profile
    source := if g.getLsbD 3 then w.source else v.source
    z := if g.getLsbD 4 then w.z else v.z }

/-- The field groups a LAYER_UPDATE names (Table 7.9). -/
def layerVals (q : Req) : LState :=
  { cropX := q.u16 24, cropY := q.u16 26, cropW := q.u16 28, cropH := q.u16 30
    dstX := q.sN 32 2, dstY := q.sN 34 2
    visible := q.bit 19 2, alpha := q.u16 36, blend := q.u8 38
    live := q.bit 39 0, profile := q.fld 39 1 6
    source := if q.u8 22 = 1 then .followIpp (q.u8 23) else if q.u8 22 = 2 then .followDec (q.u8 23) else .surface (some (q.u16 20))
    z := q.u8 40 }

/-- The groups of a LAYER_UPDATE. -/
def layerGroups (q : Req) : BitVec 5 := BitVec.ofNat 5 (q.u8 18)

/-- The surfaces a source can supply (R192, Table 7.3). -/
def sourceSurfs (s : State) : LSource → List Nat
  | .surface b => b.toList
  | .followIpp f => if (s.follow f).bound then upFrom (s.follow f).first (s.follow f).m else []
  | .followDec c => upFrom (s.ctx c).poolBase (s.ctx c).poolN

/-! ### Validation -/

/-- Whether a slot is the odd member of a gang (R186). -/
def gangMember (s : State) (n : Nat) : Bool := decide (n % 2 = 1) && (s.head (n - 1)).gang

/-- Whether a crop breaks the constraints of Table 7.3 on one surface. -/
def cropBad (l : LState) (f : Surface) : Bool :=
  decide (f.w < l.cropX + l.cropW) || decide (f.h < l.cropY + l.cropH)
    || (fmt420 f.fmt && (l.cropX % 2 != 0 || l.cropY % 2 != 0 || l.cropW % 2 != 0 || l.cropH % 2 != 0))
    || ((f.fmt == 2 || f.fmt == 3) && (l.cropX % 2 != 0 || l.cropW % 2 != 0))

/-- Whether a destination breaks Table 7.3 on its head: inside it, but for a cursor (R191). -/
def dstBad (h : Head) (cursor : Bool) (l : LState) : Bool :=
  if cursor then decide (256 < l.cropW) || decide (256 < l.cropH) || decide (l.dstX < -255) || decide (l.dstY < -255)
  else decide (l.dstX < 0) || decide (l.dstY < 0) || decide ((h.hAct : Int) < l.dstX + l.cropW)
    || decide ((h.vAct : Int) < l.dstY + l.cropH)

/-- Whether a destination rectangle overlaps the pulse mark of its head (R193, R198). -/
def hitsPulse (h : Head) (l : LState) : Bool :=
  decide (h.pulse ≠ 0) && decide (l.dstX < h.px + 16) && decide ((h.px : Int) < l.dstX + l.cropW)
    && decide (l.dstY < h.py + 16) && decide ((h.py : Int) < l.dstY + l.cropH)

/-- The seal group of a head, none in FENCE mode (R204). -/
def sealOf (s : State) (n : Nat) : Option Nat :=
  (List.range 16).find? fun g => s.bit (CMP_SEAL_CFG g) 0 && s.bit (CMP_SEAL_CFG g) (2 + n)

/-- n − c as a signed difference (R205). -/
def sealDiff (n c : BitVec 32) : Int := (n - c).toInt

/-- The pending updates an update of the layer merges with: the unarmed one of its skim set, or those of FENCE mode, of which a head that
left its seal group may hold several (R202, R205; log 137). -/
def mergesInto (l : Layer) (k : Option (BitVec 32)) : List Pending := l.pend.filter fun p => !p.armed && p.sealN == k

/-- Two updates merged (R202): the later one's values and fence, pending since the earlier one. -/
def joinPending (a b : Pending) : Pending :=
  { b with groups := a.groups ||| b.groups, vals := takeGroups b.groups a.vals b.vals, missed := Nat.max a.missed b.missed }

/-- The state a layer will have once its earlier pending updates and this one are in force. -/
def stateAfter (l : Layer) (k : Option (BitVec 32)) (g : BitVec 5) (v : LState) : LState :=
  let before := l.pend.filter fun p => p.armed || p.sealN == k || (match p.sealN, k with
    | some a, some b => decide (sealDiff a b < 0) | _, _ => false)
  takeGroups g (before.foldl (fun c p => takeGroups p.groups c p.vals) l.cur) v

def maskLayerUpdate (q : Req) : Nat :=
  bodyMask ([(16, 0, 16), (18, 0, 5), (19, 0, 4), (20, 0, 16), (22, 0, 16), (24, 0, 96), (36, 0, 10), (38, 0, 8), (39, 0, 7),
    (40, 0, 8), (48, 0, 128)] ++ (if q.bit 19 3 then [(44, 0, 32)] else []))

/-- The order of validation of LAYER_UPDATE (Table 7.10). -/
def layerUpdateChecks (s : State) (q : Req) (l : Layer) (v : LState) : List (Bool × Nat) :=
  let p := q.part.val
  let g := layerGroups q
  let w := layerVals q
  let h := s.head l.head
  let bufs := sourceSurfs s v.source
  let grp := sealOf s l.head
  let inSeal := grp.isSome && !l.cursor && q.bit 19 3
  let n := BitVec.ofNat 32 (q.u32 44)
  let c := s.reg (CMP_SEAL_DONE (grp.getD 0))
  let last := s.reg (CMP_SEAL_CLOSED (grp.getD 0))
  [ (!l.created
      || (g.getLsbD 4 && (l.cursor || w.z < 1 || decide (30 < w.z)))
      || (g.getLsbD 2 && l.cursor && w.live)
      || (g.getLsbD 3 && (decide (2 < q.u8 22) || (match w.source with
            | .surface b => decide (4095 < b.getD 0) || !(s.surf (b.getD 0)).created
            | .followIpp f => decide (63 < f)
            | .followDec _ => false)))
      || (g.getLsbD 1 && (decide (1023 < w.alpha) || decide (2 < w.blend)))
      || (q.bit 19 0 && q.u64 48 % 8 != 0)
      || (g.getLsbD 0 && dstBad h l.cursor v)
      || ((g.getLsbD 0 || g.getLsbD 3) && bufs.any fun b => (s.surf b).created && cropBad v (s.surf b))
      || (inSeal && decide (8 < sealDiff n c)), stBadRange),
    (!ownsLayer s p (q.u16 16)
      || (g.getLsbD 2 && w.profile / 4 != p)
      || (g.getLsbD 3 && (match w.source with
            | .surface b => !ownsSurf s p (b.getD 0)
            | .followIpp f => !ownsFollow s p f
            | .followDec c => !ownsCtx s p c)), stNotOwner),
    (g.getLsbD 3 && l.cursor && bufs.any fun b => !(s.surf b).fmt == 4 && !(s.surf b).fmt == 5, stBadFormat),
    (v.live && (((g.getLsbD 2 || g.getLsbD 3) && bufs.any fun b => !(s.surf b).reg)
      || (g.getLsbD 2 && v.source == l.cur.source && l.buf.any fun b => !(s.surf b).reg)), stNotTracked),
    (v.live && v.visible && hitsPulse h v, stPulseOverlap),
    (inSeal && (decide (sealDiff n c ≤ 0) || decide (sealDiff n last ≤ 0)), stSealClosed),
    (grp.isSome != q.bit 19 3, stWrongMode) ]

/-- Adds an accepted update to its layer: a new pending one in seal order, or merged (R202, R205). -/
def addPending (s : State) (id n : Nat) (q : Req) (k : Option (BitVec 32)) : State :=
  let l := s.layer n
  let g := layerGroups q
  let v := layerVals q
  let fence := if q.bit 19 0 then some (q.bit 19 1, BitVec.ofNat 64 (q.u64 48), BitVec.ofNat 64 (q.u64 56)) else none
  let new : Pending := ⟨g, v, fence, false, id, 0, false, k⟩
  let os := mergesInto l k
  match os.getLast? with
  | none =>
    let before := fun (x : Pending) => match x.sealN, k with
      | some a, some b => decide (sealDiff a b ≤ 0)
      | _, _ => true
    s.setLayer n { l with pend := insertAfter before new l.pend }
  | some o =>
    let m := os.foldr joinPending new
    let rest := l.pend.filter fun x => !os.dropLast.any fun y => y.job == x.job
    os.foldl (fun s o => finish s o.job stSuperseded)
      (s.setLayer n { l with pend := rest.map fun x => if x.job = o.job then m else x })

/-- LAYER_UPDATE (R191–R193, R202, R205). -/
def doLayerUpdate (q : Req) (s : State) : State :=
  soile s q 0x0802 (maskLayerUpdate q) true fun s id =>
    let n := q.u16 16
    let l := s.layer n
    let k := if !l.cursor && q.bit 19 3 then some (BitVec.ofNat 32 (q.u32 44)) else none
    if 255 < n then finish s id stBadRange
    else guardJob s id (layerUpdateChecks s q l (stateAfter l k (layerGroups q) (layerVals q))) fun s => addPending s id n q k

def execLayerUpdate (q : Req) (s : State) : Host.Outcome State Fault Refusal := .next (doLayerUpdate q s)

/-- LAYER_CREATE (R190). -/
def doLayerCreate (q : Req) (s : State) : State :=
  soileNow s q 0x0801 (bodyMask [(16, 0, 16), (18, 0, 8), (19, 0, 1), (20, 0, 8)]) true fun s =>
    let n := q.u16 16
    let hd := q.u8 18
    let cursor := q.bit 19 0
    let z := q.u8 20
    let p := q.part.val
    let on := layersOf s hd
    match firstFail [
        (decide (255 < n) || decide (15 < hd) || gangMember s hd || (!cursor && (z < 1 || decide (30 < z))), stBadRange),
        (decide (s.nHeads ≤ hd), stNoResource),
        (!ownsLayer s p n || !ownsHead s p hd, stNotOwner), ((s.layer n).created, stInUse),
        (!cursor && on.any fun x => !x.2.cursor && x.2.cur.z == z, stZTaken),
        (if cursor then on.any (·.2.cursor) else decide (30 ≤ (on.filter fun x => !x.2.cursor).length), stLayersFull)] with
    | some st => (s, st, 0)
    | none =>
      (s.setLayer n { created := true, head := hd, cursor := cursor,
                      cur := { profile := 4 * p, z := if cursor then 31 else z } }, stComplete, 0)

def execLayerCreate (q : Req) (s : State) : Host.Outcome State Fault Refusal := .next (doLayerCreate q s)

/-- LAYER_DESTROY (R191, R203): it is armed at the next commit point. -/
def doLayerDestroy (q : Req) (s : State) : State :=
  soile s q 0x0803 (bodyMask [(16, 0, 16)]) true fun s id =>
    let n := q.u16 16
    guardJob s id [(decide (255 < n) || !(s.layer n).created, stBadRange), (!ownsLayer s q.part.val n, stNotOwner)] fun s =>
      s.setLayer n { s.layer n with destroy := (s.layer n).destroy ++ [id] }

def execLayerDestroy (q : Req) (s : State) : Host.Outcome State Fault Refusal := .next (doLayerDestroy q s)

/-! ### At the boundary -/

/-- The completion of a LAYER_UPDATE at a boundary (R203, Table 7.9). -/
def updateBody (frame : BitVec 64) (missed b : Nat) : BitVec 128 := cplBody [(16, 4, frame.toNat), (20, 4, missed), (24, 8, b)]

/-- The z a layer will hold after the boundary, with its armed updates but those in `refused`. -/
def zAfter (l : Layer) (refused : List Nat) : Nat :=
  ((l.pend.filter fun p => p.armed && !refused.contains p.job).foldl (fun c p => takeGroups p.groups c p.vals) l.cur).z

/-- The armed updates whose z another layer of the head would hold after the boundary: they are refused, until none
is left (Table 7.3, R215). -/
def zRefused (ls : List (Nat × Layer)) : Nat → List Nat → List Nat
  | 0, r => r
  | fuel + 1, r =>
    let ls' := ls.filter fun x => !x.2.cursor
    let bad := ls'.flatMap fun x =>
      (x.2.pend.filter fun p => p.armed && p.groups.getLsbD 4 && !r.contains p.job).filterMap fun p =>
        if ls'.any (fun y => y.1 != x.1 && zAfter y.2 r == p.vals.z) then some p.job else none
    if bad.isEmpty then r else zRefused ls fuel (r ++ bad)

/-- One armed update takes effect: groups, buffer, counter, completion (R203). -/
def applyPending (s : State) (n b : Nat) (frame : BitVec 64) (p : Pending) : State :=
  let l := s.layer n
  let l := { l with
    cur := takeGroups p.groups l.cur p.vals
    buf := if p.groups.getLsbD 3 then (match p.vals.source with | .surface x => x | _ => none) else l.buf
    commits := satInc l.commits
    pend := l.pend.filter fun x => x.job != p.job }
  finish (s.setLayer n l) p.job stComplete (updateBody frame p.missed b)

/-- Removes a pending update and completes its job. -/
def dropPending (s : State) (n : Nat) (p : Pending) (st : Nat) : State :=
  finish (s.setLayer n { s.layer n with pend := (s.layer n).pend.filter fun x => x.job != p.job }) p.job st

/-- The newest output of a follow source, as the commit point of head `n` found it (R192, R199). -/
def newestAt (s : State) (n : Nat) (src : LSource) : Option Nat := ((s.head n).newest.find? fun x => x.1 == src).map (·.2)

/-- Whether an armed update names a buffer source. -/
def armsBuf (p : Pending) : Bool := p.armed && p.groups.getLsbD 3

/-- The source a layer will have after the boundary. -/
def sourceNext (l : Layer) : LSource := match (l.pend.filter armsBuf).getLast? with | some p => p.vals.source | none => l.cur.source

/-- Whether a source names its buffer itself. -/
def LSource.fixed : LSource → Bool
  | .surface _ => true
  | _ => false

/-- Arms the follow flip of a layer for the boundary (R192, R199), or holds it off while a job writes the surface (R37). -/
def armFollow (s : State) (i : Nat) : State :=
  let l := s.layer i
  let src := sourceNext l
  match newestAt s l.head src with
  | none => s.setLayer i { l with armedBuf := none, missNext := false }
  | some b =>
    if src.fixed || (l.buf == some b && !l.pend.any armsBuf) then s.setLayer i { l with armedBuf := none, missNext := false }
    else if writerOf s b then s.setLayer i { l with armedBuf := none, missNext := true }
    else s.setLayer i { l with armedBuf := some b, missNext := false }

/-- A layer's buffer after the boundary, from the layer `old` before it (R37, R192): a flip that was armed; else, where an update
brought a follow source, none, or its old buffer while a job writes the new one. -/
def bufNext (old l : Layer) (swapped : Bool) : Option Nat :=
  if l.armedBuf.isSome then l.armedBuf
  else if swapped && !l.cur.source.fixed then (if l.missNext then old.buf else none) else l.buf

/-- The layers of head `n` at boundary `b` (R199, R201–R203, R208): destroyed ones leave, armed updates take effect in
order, the others are counted as missed, follow flips are made; a buffer source that was refused leaves the flip of the old one. -/
def layersBoundary (s : State) (n b : Nat) (frame : BitVec 64) : State :=
  let kept := (layersOf s n).filter fun x => !x.2.destroyArmed
  let refused := zRefused kept 32 []
  (layersOf s n).foldl (fun s x =>
    let i := x.1
    let l := s.layer i
    if l.destroyArmed then
      let s := l.pend.foldl (fun s p => dropPending s i p stAborted) s
      let s := s.setLayer i {}
      l.destroy.foldl (fun s id => finish s id stComplete) s
    else
      let s := (l.pend.filter (·.armed)).foldl (fun s p =>
        if refused.contains p.job then dropPending s i p stZTaken else applyPending s i b frame p) s
      let s := if l.pend.any fun p => armsBuf p && refused.contains p.job then armFollow s i else s
      let old := l
      let l := s.layer i
      let miss := !l.pend.isEmpty || l.missNext
      let flip := l.armedBuf.isSome && l.armedBuf != l.buf
      let s := s.setLayer i { l with
        buf := bufNext old l (old.pend.any fun p => armsBuf p && !refused.contains p.job)
        armedBuf := none, missNext := false
        commits := if flip then satInc l.commits else l.commits
        missed := if miss then satInc l.missed else l.missed
        pend := l.pend.map fun p => { p with missed := p.missed + 1, counts := false } }
      if miss then s.inc (HD_FLIP_MISSED n) else s) s

end Sys2Proof.Machine
end

