-- ==== Sys2Proof/Machine/Pixels.lean ====
section
/-!
DEFINITION. The pixels of a head: fetch (R194), conversion (R195), blending (R196), marking, hatch and badge (R48–R53),
pulse mark (R198), the fixed order of the final stage (R197), output formatting (R222), the expected scrim count (R58)
and the bytes that writeback stores (R211).
-/

namespace Sys2Proof.Machine

/-- A colour of three 10-bit components. -/
abbrev Rgb := Nat × Nat × Nat

/-! ### Fetch and conversion -/

/-- An 8-bit value widened to 10 bits (R194). -/
def widen (v : Nat) : Nat := v * 4 + v / 64

/-- The stored components of a surface pixel as 10-bit codes, with its alpha (R194, Table 7.1): Y, Cb, Cr or R, G, B. -/
def fetchPx (s : State) (f : Surface) (x y : Nat) : Nat × Nat × Nat × Nat :=
  let b := fun (a : Nat) => (s.load8 a).toNat
  let h := fun (a : Nat) => s.loadN a 2 / 64
  let c420 := f.base + f.pitch * f.h + y / 2 * f.pitch
  match f.fmt with
  | 0 => (widen (b (f.base + y * f.pitch + x)), widen (b (c420 + x / 2 * 2)), widen (b (c420 + x / 2 * 2 + 1)), 1023)
  | 1 => (h (f.base + y * f.pitch + 2 * x), h (c420 + x / 2 * 4), h (c420 + x / 2 * 4 + 2), 1023)
  | 2 =>
    let a := f.base + y * f.pitch + x / 2 * 4
    (widen (b (a + x % 2 * 2)), widen (b (a + 1)), widen (b (a + 3)), 1023)
  | 3 =>
    let a := f.base + y * f.pitch + x / 2 * 8
    (h (a + x % 2 * 4), h (a + 2), h (a + 6), 1023)
  | 4 =>
    let a := f.base + y * f.pitch + x * 4
    (widen (b (a + 2)), widen (b (a + 1)), widen (b a), widen (b (a + 3)))
  | _ =>
    let w := s.loadN (f.base + y * f.pitch + x * 4) 4
    (bitsOf w 20 10, bitsOf w 10 10, bitsOf w 0 10, bitsOf w 30 2 * 341)

/-- A coefficient in units of 2⁻¹²: the fraction rounded to the nearest, halves away from zero (R195). -/
def coef (num : Int) (den : Nat) : Int :=
  let n := num.natAbs * 4096
  let r : Int := ((2 * n + den) / (2 * den) : Nat)
  if num < 0 then -r else r

/-- A value in units of 2⁻¹² rounded with a half up and clamped to 0–1,023 (R195). -/
def clamp10 (v : Int) : Nat := (clampI ((v + 2048) / 4096) 0 1023).toNat

/-- Kr and Kb in 1/10,000 (R195). -/
def kr (bt2020 : Bool) : Int := if bt2020 then 2627 else 2126
def kb (bt2020 : Bool) : Int := if bt2020 then 593 else 722

/-- The scale of luma and of chroma codes: limited or full range (R195). -/
def sy (full : Bool) : Nat := if full then 1023 else 876
def sc (full : Bool) : Nat := if full then 1023 else 896

/-- YCbCr codes to RGB (R195). -/
def yuvToRgb (bt2020 full : Bool) (p : Nat × Nat × Nat) : Rgb :=
  let r := kr bt2020
  let b := kb bt2020
  let g := 10000 - r - b
  let y0 : Int := if full then 0 else 64
  let a := coef 1023 (sy full)
  let d := 10000 * sc full
  let cr := 2 * (10000 - r) * 1023
  let cb := 2 * (10000 - b) * 1023
  let dg := 10000 * g.toNat * sc full
  let gb := -2 * b * (10000 - b) * 1023
  let gr := -2 * r * (10000 - r) * 1023
  let kOf := fun (c : Int) (dd : Nat) => coef (-(y0 * 1023 * dd) - 512 * c * sy full) (dd * sy full)
  let Y : Int := p.1
  let U : Int := p.2.1
  let V : Int := p.2.2
  (clamp10 (a * Y + coef cr d * V + kOf cr d), clamp10 (a * Y + coef gb dg * U + coef gr dg * V + kOf (gb + gr) dg),
    clamp10 (a * Y + coef cb d * U + kOf cb d))

/-- RGB to YCbCr codes, the inverse of R195 under the same coefficient rule (R211). -/
def rgbToYuv (bt2020 full : Bool) (p : Rgb) : Nat × Nat × Nat :=
  let r := kr bt2020
  let b := kb bt2020
  let g := 10000 - r - b
  let y0 : Int := if full then 0 else 64 * 4096
  let dy := 10000 * 1023
  let du := 2 * (10000 - b).toNat * 1023
  let dv := 2 * (10000 - r).toNat * 1023
  let m : Int := sy full
  let c : Int := sc full
  let R : Int := p.1
  let G : Int := p.2.1
  let B : Int := p.2.2
  (clamp10 (coef (r * m) dy * R + coef (g * m) dy * G + coef (b * m) dy * B + y0),
    clamp10 (coef (-r * c) du * R + coef (-g * c) du * G + coef c (2 * 1023) * B + 512 * 4096),
    clamp10 (coef c (2 * 1023) * R + coef (-g * c) dv * G + coef (-b * c) dv * B + 512 * 4096))

/-- The colour and alpha of a surface pixel in RGB. -/
def surfPx (s : State) (f : Surface) (x y : Nat) : Rgb × Nat :=
  let v := fetchPx s f x y
  let c := (v.1, v.2.1, v.2.2.1)
  (if f.fmt < 4 then yuvToRgb f.bt2020 f.full c else c, v.2.2.2)

/-! ### Layers at a pixel -/

/-- What a layer brings to one head pixel: its colour before blending, α of R196, g, and where it is live class the
verdict of its tile with the profile. -/
structure Contrib where
  layer   : Nat
  rgb     : Rgb
  alpha   : Nat
  g       : Nat
  blend   : Nat
  verdict : Option Verdict
  prof    : Nat
  tile    : Nat

/-- Whether a layer's destination holds a head pixel and the layer shows something (R194, R196). -/
def layerAt (l : Layer) (x y : Nat) : Bool :=
  l.cur.visible && l.buf.isSome && decide (l.cur.dstX ≤ x) && decide ((x : Int) < l.cur.dstX + l.cur.cropW)
    && decide (l.cur.dstY ≤ y) && decide ((y : Int) < l.cur.dstY + l.cur.cropH)

/-- The evaluation of a layer's tile in a band; a tile not evaluated counts as STALE (R46). -/
def evalOf (h : Head) (layer band tile : Nat) : Eval :=
  match (h.evals.filter fun b => b.band == band).flatMap fun b => b.evals.filter fun e => e.layer == layer && e.tile == tile with
  | e :: _ => e
  | [] => ⟨layer, tile, .stale, none, 0, 0⟩

/-- Whether a burst that did not come would have supplied a layer's column `k` of an active line (R312). -/
def isBlack (h : Head) (layer y k : Nat) : Bool :=
  h.black.any fun b => b.1 == layer && b.2.1 == y && decide (b.2.2.1 ≤ k) && decide (k < b.2.2.2)

/-- The contribution of a layer at a head pixel (R53, R194, R196, R312). -/
def contrib (s : State) (n : Nat) (i : Nat) (l : Layer) (x y : Nat) : Contrib :=
  let h := s.head n
  let f := s.surf (l.buf.getD 0)
  let sx := ((l.cur.cropX : Int) + x - l.cur.dstX).toNat
  let sy := ((l.cur.cropY : Int) + y - l.cur.dstY).toNat
  let tile := sy / 64 * f.tx + sx / 64
  let v := if l.cur.live then some (evalOf h i (y / 64) tile).verdict else none
  let px := if isBlack h i y ((x : Int) - l.cur.dstX).toNat then (((0, 0, 0) : Rgb), 1023) else surfPx s f sx sy
  let tt := match v with | some w => treatment s n l.cur.profile w | none => 0
  let c := if ttSubst tt then palette (ttSub tt) else px.1
  let a := if l.cur.blend = 0 then 1023 else px.2
  ⟨i, c, (l.cur.alpha * a + 511) / 1023, l.cur.alpha, l.cur.blend, v, l.cur.profile, tile⟩

/-- Whether a layer is drawn: a reference-class one only where its buffer has been written since a restore (R384). -/
def isDrawn (s : State) (l : Layer) : Bool := l.cur.live || (s.surf (l.buf.getD 0)).written

/-- The contributions at a head pixel, lowest z first (R190). -/
def contribs (s : State) (n x y : Nat) : List Contrib :=
  ((layersOf s n).filter fun l => layerAt l.2 x y && isDrawn s l.2).map fun l => contrib s n l.1 l.2 x y

/-- One component blended (R196). -/
def blend1 (mode cs cd alpha g : Nat) : Nat :=
  if mode = 2 then Nat.min 1023 ((cs * g + cd * (1023 - alpha) + 511) / 1023)
  else (cs * alpha + cd * (1023 - alpha) + 511) / 1023

/-- One layer over the colour below (R196). -/
def blendPx (d : Rgb) (c : Contrib) : Rgb :=
  (blend1 c.blend c.rgb.1 d.1 c.alpha c.g, blend1 c.blend c.rgb.2.1 d.2.1 c.alpha c.g, blend1 c.blend c.rgb.2.2 d.2.2 c.alpha c.g)

/-- The lining at a pixel (R189): the colour where the surface has not been written since a restore (R384). -/
def liningPx (s : State) (h : Head) (x y : Nat) : Rgb :=
  match h.liningSurf.filter fun f => (s.surf f).written with
  | some f => (surfPx s (s.surf f) x y).1
  | none => (bitsOf h.lining.toNat 20 10, bitsOf h.lining.toNat 10 10, bitsOf h.lining.toNat 0 10)

/-! ### Marking -/

/-- The contributions that no layer above hides with α = 1,023 (R48). -/
def unhidden : List Contrib → List Contrib
  | [] => []
  | c :: cs => if cs.any fun d => d.alpha == 1023 then unhidden cs else c :: unhidden cs

/-- The live-class contributions whose verdict is not LIVE (R48). -/
def nonLive (cs : List Contrib) : List Contrib :=
  (unhidden cs).filter fun c => decide (0 < c.alpha) && (match c.verdict with | some v => v != .live | none => false)

/-- The mark of a pixel: the contribution whose verdict and treatment mark it (R48). -/
def markOf (cs : List Contrib) : Option Contrib :=
  let ord := fun (c : Contrib) => match c.verdict with | some v => v.order | none => 6
  match nonLive cs with
  | [] => none
  | c :: rest => some (rest.foldl (fun b d => if ord d ≤ ord b then d else b) c)

/-- The treatment a contribution carries. -/
def contribTt (s : State) (n : Nat) (c : Contrib) : Nat :=
  match c.verdict with | some v => treatment s n c.prof v | none => 0

/-- The part of a layer's tile inside the destination rectangle, in head coordinates: x, y, width, height (R52). -/
def tilePart (f : Surface) (l : LState) (tile : Nat) : Int × Int × Nat × Nat :=
  let x0 := Nat.max (tile % f.tx * 64) l.cropX
  let y0 := Nat.max (tile / f.tx * 64) l.cropY
  let x1 := Nat.min (tile % f.tx * 64 + 64) (l.cropX + l.cropW)
  let y1 := Nat.min (tile / f.tx * 64 + 64) (l.cropY + l.cropH)
  (l.dstX + x0 - l.cropX, l.dstY + y0 - l.cropY, x1 - x0, y1 - y0)

/-- The badge box of a tile that holds a pixel: the evaluation that gives its text and the place in the box (R52). Where the band
of the box's top row shows the tile LIVE there is no box, though a lower band may mark it: the spec gives such a box no text.
DESIGN CHOICE (log 121). -/
def badgeAt (s : State) (n : Nat) (c : Contrib) (x y : Nat) : Option (Eval × Nat × Nat) :=
  let l := s.layer c.layer
  let f := s.surf (l.buf.getD 0)
  let r := tilePart f l.cur c.tile
  let bx := (x : Int) - (r.1 + 2)
  let bty := (y : Int) - (r.2.1 + 2)
  let e := evalOf (s.head n) c.layer ((r.2.1 + 2).toNat / 64) c.tile
  if decide (r.2.2.1 ≥ 48) && decide (r.2.2.2 ≥ 24) && decide (0 ≤ bx) && decide (bx < 44) && decide (0 ≤ bty) && decide (bty < 20)
      && e.verdict != .live && ttBadge (treatment s n c.prof e.verdict) then
    some (e, bx.toNat, bty.toNat)
  else none

/-- The decimal digits of a number below 1,000, right-aligned in three places. -/
def digits3 (n : Nat) : List Char :=
  let d := fun k => Char.ofNat (48 + k % 10)
  [if n < 100 then ' ' else d (n / 100), if n < 10 then ' ' else d (n / 10), d n]

/-- The text of a badge (Table 2.8), from the first of the five cells on: a text of four characters leaves the last one black,
which the spec does not say. DESIGN CHOICE (log 121). -/
def badgeText (e : Eval) : List Char :=
  match e.verdict, e.age with
  | .tainted, _ => "TAINT".toList
  | .frozen, _ => "FROZN".toList
  | .never, _ => "-----".toList
  | _, none => " ???".toList
  | _, some a =>
    let us := a.toNat
    if us < 10000000 then [Char.ofNat (48 + us / 1000000), '.', Char.ofNat (48 + us / 100000 % 10), 's']
    else if us < 1000000000 then ' ' :: digits3 (us / 1000000) ++ ['s']
    else ">999s".toList

/-- The colour of a badge at a place in its box: black, glyph pixels white (R52). -/
def badgePx (e : Eval) (bx bty : Nat) : Rgb :=
  let cell := (bx - 2) / 8
  if 2 ≤ bx ∧ bx < 42 ∧ 2 ≤ bty ∧ bty < 18 then
    match (badgeText e)[cell]? with
    | some ch => if Config.glyph ch.toNat ((bx - 2) % 8) (bty - 2) then (1023, 1023, 1023) else (0, 0, 0)
    | none => (0, 0, 0)
  else (0, 0, 0)

/-- The badge box over a pixel: of the highest contributing layer that has one there (R52). -/
def badgeOver (s : State) (n : Nat) (cs : List Contrib) (x y : Nat) : Option (Eval × Nat × Nat) :=
  (((unhidden cs).filter fun c => decide (0 < c.alpha) && c.verdict.isSome).filterMap fun c => badgeAt s n c x y).getLast?

/-- Whether the pulse mark's pixel is white (Table 7.4). -/
def pulseWhite (h : Head) (x y : Nat) : Bool :=
  let i := (x - h.px) / 4
  let j := (y - h.py) / 4
  let f := h.frame.toNat
  match h.pulse with
  | 1 => f % 2 == 0
  | 2 => bitOf (((f ^^^ (f / 2)) % 65536)) (4 * j + i)
  | _ => 4 * j + i == f % 16

/-- Whether a pixel lies in the pulse mark (R198). -/
def inPulse (h : Head) (x y : Nat) : Bool :=
  decide (h.pulse ≠ 0) && decide (h.px ≤ x) && decide (x < h.px + 16) && decide (h.py ≤ y) && decide (y < h.py + 16)

/-- The pixel that leaves the final stage: scrim, then badge, then pulse mark (R197). -/
def headPixel (s : State) (n x y : Nat) : Rgb :=
  let h := s.head n
  let cs := contribs s n x y
  let px := cs.foldl blendPx (liningPx s h x y)
  let mk := markOf cs
  let px := match mk with
    | some c => let tt := contribTt s n c
                if hatch (ttPattern tt) x y then palette (ttColour tt) else px
    | none => px
  let px := match mk, badgeOver s n cs x y with
    | some _, some b => badgePx b.1 b.2.1 b.2.2
    | _, _ => px
  if inPulse h x y then palette (if pulseWhite h x y then 1 else 0) else px

/-- Whether a pixel counts for the scrim witness: a hatch pixel outside every badge box (R58, R233). -/
def scrimPixel (s : State) (n x y : Nat) : Bool :=
  let cs := contribs s n x y
  match markOf cs with
  | some c => hatch (ttPattern (contribTt s n c)) x y && (badgeOver s n cs x y).isNone
  | none => false

/-- The rows of band `b`: first and count. -/
def bandLines (h : Head) (b : Nat) : Nat × Nat := (64 * b, Nat.min 64 (h.vAct - 64 * b))

/-- The pixels of band `b` in raster order. -/
def bandXY (h : Head) (b : Nat) : List (Nat × Nat) :=
  (upFrom (bandLines h b).1 (bandLines h b).2).flatMap fun y => (List.range h.hAct).map fun x => (x, y)

/-- The expected scrim count of a band (R58). -/
def scrimExpected (s : State) (n b : Nat) : Nat := ((bandXY (s.head n) b).filter fun p => scrimPixel s n p.1 p.2).length

/-! ### Output -/

/-- Output formatting of one component (Table 8.3). -/
def formatOut (bpc10 limited : Bool) (v : Nat) : Nat :=
  match bpc10, limited with
  | true, false => v
  | true, true => 64 + (v * 876 + 511) / 1023
  | false, false => Nat.min 255 ((v + 2) / 4)
  | false, true => 16 + (v * 219 + 511) / 1023

/-- The formatted pixels of a band (R222). -/
def bandOut (s : State) (n b : Nat) : List Rgb :=
  let h := s.head n
  (bandXY h b).map fun p =>
    let c := headPixel s n p.1 p.2
    (formatOut h.bpc10 h.limited c.1, formatOut h.bpc10 h.limited c.2.1, formatOut h.bpc10 h.limited c.2.2)

/-- The context word of a band CRC (R231); bit 59 for readback (R237). -/
def bandContext (n b : Nat) (frame : BitVec 64) (wb : Bool) : Nat :=
  n * 2 ^ 60 + (if wb then 2 ^ 59 else 0) + b * 2 ^ 48 + frame.toNat % 2 ^ 32

/-- The band CRC at the final-stage tap (R231). -/
def tapCrc (s : State) (n b : Nat) : Nat :=
  crc32c (bandContext n b (s.head n).frame false)
    ((bandOut s n b).flatMap fun c => leBytes 2 c.1 ++ leBytes 2 c.2.1 ++ leBytes 2 c.2.2)

/-! ### Writeback -/

/-- The rounded mean of a list, a half up (R211). -/
def meanUp (l : List Nat) : Nat := (2 * l.foldl (· + ·) 0 + l.length) / (2 * l.length)

/-- The YCbCr codes of a head pixel as writeback takes them (R211). -/
def wbYuv (s : State) (n x y : Nat) : Nat × Nat × Nat :=
  rgbToYuv (s.head n).wb2020 (s.head n).wbFull (headPixel s n x y)

/-- The bytes of line `y` of the first plane of a writeback surface (R211, Table 7.1). -/
def wbLine (s : State) (n y : Nat) : Bytes :=
  let h := s.head n
  let nar := fun v => BitVec.ofNat 8 (Config.wbNarrow 8 v)
  match h.wbFmt with
  | 0 => (List.range h.hAct).map fun x => nar (wbYuv s n x y).1
  | 2 => (List.range (h.hAct / 2)).flatMap fun i =>
      let a := wbYuv s n (2 * i) y
      let b := wbYuv s n (2 * i + 1) y
      [nar a.1, nar (meanUp [a.2.1, b.2.1]), nar b.1, nar (meanUp [a.2.2, b.2.2])]
  | 3 => (List.range (h.hAct / 2)).flatMap fun i =>
      let a := wbYuv s n (2 * i) y
      let b := wbYuv s n (2 * i + 1) y
      [a.1, meanUp [a.2.1, b.2.1], b.1, meanUp [a.2.2, b.2.2]].flatMap fun v => leBytes 2 (v * 64)
  | 4 => (List.range h.hAct).flatMap fun x =>
      let c := headPixel s n x y
      [nar c.2.2, nar c.2.1, nar c.1, 255]
  | _ => (List.range h.hAct).flatMap fun x =>
      let c := headPixel s n x y
      leBytes 4 (c.2.2 + c.2.1 * 2 ^ 10 + c.1 * 2 ^ 20 + 3 * 2 ^ 30)

/-- The bytes of chroma line `j` of a YUV420_8 writeback surface (R211). -/
def wbChroma (s : State) (n j : Nat) : Bytes :=
  (List.range ((s.head n).hAct / 2)).flatMap fun i =>
    let ps := [(2 * i, 2 * j), (2 * i + 1, 2 * j), (2 * i, 2 * j + 1), (2 * i + 1, 2 * j + 1)].map fun p => wbYuv s n p.1 p.2
    [ps.map (·.2.1), ps.map (·.2.2)].map fun l => BitVec.ofNat 8 (Config.wbNarrow 8 (meanUp l))

/-- The writes of one band of a frame to a writeback surface, in memory order: address and bytes. -/
def wbBand (s : State) (n b : Nat) (f : Surface) : List (Nat × Bytes) :=
  let r := bandLines (s.head n) b
  ((upFrom r.1 r.2).map fun y => (f.base + y * f.pitch, wbLine s n y))
    ++ (if fmt420 f.fmt then
          (upFrom (r.1 / 2) ((r.1 + r.2) / 2 - r.1 / 2)).map fun j => (f.base + f.pitch * f.h + j * f.pitch, wbChroma s n j)
        else [])

end Sys2Proof.Machine
end

