-- ==== Sys2Proof/Machine/Power.lean ====
section
/-!
DEFINITION. The power arbiter (R436–R440), the PLLs started by its grants and stopped when idle (R433–R435), the
junction temperature (R441). A request is placed by the engine that wants to start, granted by a tick, and begins then.
-/

namespace Sys2Proof.Machine

/-- The names of requests: class × 256 + engine, session or port (Table 16.4). -/
def pwrDec (core : Nat) : Nat := core
def pwrIpp (i : Nat) : Nat := 256 + i
def pwrEnc (sess : Nat) : Nat := 512 + sess
def pwrDce (e : Nat) : Nat := 768 + e
def pwrTch (p : Nat) : Nat := 1024 + p
def pwrCrc (u : Nat) : Nat := 1280 + u

/-- B, R and G of R436. -/
def pwrB (s : State) : Nat := s.fld PWR_BUDGET 0 11
def pwrR (s : State) : Nat := s.pwr.heads.foldl (fun n x => n + x.2) 0
def pwrG (s : State) : Nat := s.pwr.items.foldl (fun n x => n + if x.granted then x.tokens else x.paid) 0

/-- Whether an item of that name waits or runs. -/
def pwrHas (s : State) (id : Nat) : Bool := s.pwr.items.any fun i => i.id == id && !i.ended
/-- Whether the item of that name was granted and runs. -/
def pwrGranted (s : State) (id : Nat) : Bool := s.pwr.items.any fun i => i.id == id && i.granted && !i.ended
/-- Whether its engine's clock runs as well, on which its work begins (R434). -/
def pwrReady (s : State) (id : Nat) : Bool :=
  s.pwr.items.any fun i => i.id == id && i.granted && !i.ended && decide (i.due ≤ s.island)

/-- Places a request (R437): in order of class, then of the time it was made. -/
def pwrRequest (s : State) (id tokens : Nat) : State :=
  if pwrHas s id then s
  else
    let it : PwrItem := ⟨id, id / 256, tokens, s.island, false, false, false, 0, 0⟩
    { s with pwr := { s.pwr with items := insertAfter (fun x => decide (x.cls ≤ it.cls)) it s.pwr.items } }

/-- The PLL that serves a class (Table 16.3). -/
def classPll (cls : Nat) : Nat := if cls = 0 ∨ cls = 2 then 2 else 0

/-- A request that is no longer wanted leaves; an item that ends keeps its tokens until its clock stops (R438). -/
def pwrEnd (s : State) (id : Nat) : State :=
  let s : State := if pwrHas s id then s.pllUsed (classPll (id / 256)) else s
  { s with pwr := { s.pwr with items := (s.pwr.items.filter fun i => i.id != id || i.granted).map fun i =>
      (if i.id = id then i.stopping s.island else i) } }

/-- The output of a PLL in kHz (Table 16.3); a PX PLL's is its group's. -/
def pllKhz (s : State) (p : Nat) : Nat :=
  match p with
  | 0 => 1000000 | 1 => 750000 | 2 => 800000 | 3 => 1200000 | 4 => 1000000
  | _ => if 8 ≤ p then (s.tg (p - 8)).khz else 0

/-- The walk of R437: requests in order while they fit in the budget and in the tokens left of this tick (R438). A request of more
than 60 tokens takes 60 in a tick, and the rest in the ticks after it. DESIGN CHOICE (log 155). -/
def pwrWalk (b : Nat) : Nat → Nat → List PwrItem → List PwrItem × List Nat
  | _, _, [] => ([], [])
  | used, left, i :: is =>
    if i.granted then
      let r := pwrWalk b used left is
      (i :: r.1, r.2)
    else
      let rest := i.tokens - i.paid
      if b < used + rest ∨ left < Nat.min 60 rest then (i :: is, [])
      else if 60 < rest then ({ i with paid := i.paid + 60 } :: is, [])
      else
        let r := pwrWalk b (used + rest) (left - rest) is
        ({ i with granted := true } :: r.1, i.id :: r.2)

/-- What a grant brings (R434): the engine's clock runs 4 µs after its PLL is locked, which stands until it is started; a CRC
unit's job starts, its result record open (R418). -/
def onGrant (s : State) (id : Nat) : State :=
  let p := classPll (id / 256)
  let s := pllStart s p
  let due := Nat.max s.island (tget (fun _ => 0) s.pwr.lock p) + 4000
  let s : State := { s with pwr := { s.pwr with items := s.pwr.items.map fun i =>
    if i.id == id && !i.ended then { i with due := due } else i } }
  if id / 256 = 5 then s.resultOpen (CRCU_RES_STATUS (id % 256)) else s

/-- The reservations taken in a tick with so many tokens left, in the order they were asked for: tokens left, those that wait on
(R438, R440). -/
def takeOwed : Nat → List (Nat × Nat) → Nat × List (Nat × Nat)
  | left, [] => (left, [])
  | left, x :: xs => if x.2 ≤ left then takeOwed (left - x.2) xs else (left, x :: xs)

/-- One tick of the arbiter (R437, R438). Reservations take their tokens of a tick before requests do; while one waits, no request
is granted. -/
def doArbiterTick (s : State) : State :=
  if !s.ctl.core || s.pwr.halted then s
  else
    let o := takeOwed (60 - s.pwr.spent) s.pwr.owed
    let left := if o.2.isEmpty then o.1 else 0
    let r := pwrWalk (pwrB s) (pwrR s + pwrG s) left s.pwr.items
    r.2.foldl onGrant { s with pwr := { s.pwr with items := r.1, owed := o.2, spent := 0 } }

def execArbiterTick (s : State) : Host.Outcome State Fault Refusal := .next (doArbiterTick s)

/-- Whether a record of an event and key would be suppressed now (R485). -/
def quietNow (s : State) (ev key : Nat) : Bool :=
  s.quiets.any fun q => q.ev == ev && q.key == key && decide (s.island < q.at_ + 1000000000)

/-- A request of the class has waited beyond PWR_DEFER_THR (R439). -/
def doPowerDeferred (cls : Fin 6) (s : State) : State :=
  let late := fun (i : PwrItem) =>
    i.cls == cls.val && !i.granted && !i.deferred && decide (i.at_ + 1000 * s.fld PWR_DEFER_THR 0 16 < s.island)
  match s.pwr.items.find? late with
  | none => s
  | some i =>
    let s := { s with pwr := { s.pwr with items := s.pwr.items.map fun x => if x = i then { x with deferred := true } else x } }
    let s := s.inc (PWR_DEFER cls.val)
    let q := quietNow s evPowerDeferred cls.val
    let s := raiseKey s cls.val evPowerDeferred 0 4 31 [(cls.val, 8), (pwrB s, 11), (pwrR s, 11), (pwrG s, 11)]
    if q then s else evcPulse s 52

def execPowerDeferred (cls : Fin 6) (s : State) : Host.Outcome State Fault Refusal := .next (doPowerDeferred cls s)

/-- The clock of an ended item has stopped and its tokens are freed (R438). -/
def doTokenRelease (item : Nat) (s : State) : State :=
  match s.pwr.items.find? fun i => i.id == item && i.ended && decide (i.due ≤ s.island) with
  | none => s
  | some i =>
    let s : State := s.pllUsed (classPll i.cls)
    { s with pwr := { s.pwr with items := s.pwr.items.erase i } }

def execTokenRelease (item : Nat) (s : State) : Host.Outcome State Fault Refusal := .next (doTokenRelease item s)

/-- Whether engines that a PLL serves hold work (R434, R435). -/
def pllBusy (s : State) (p : Nat) : Bool :=
  if p = 1 then s.heads.any fun x => x.2.enabled || !x.2.start.isEmpty
  else if p = 2 then s.pwr.items.any fun i => i.cls == 0 || i.cls == 2
  else !s.evcStop

/-- Whether a PLL's idle time is over: no work for idle_ms since it last served some (R435). -/
def pllIdle (s : State) (p : Nat) : Bool :=
  !pllBusy s p && decide (tget (fun _ => 0) s.pwr.used p + 1000000 * s.fld (CLK_PLL_CTRL p) 8 8 ≤ s.island)

/-- An AUTO PLL stops after idle_ms without work (R435). FAB and TB always run, a PX PLL follows its group. -/
def doPllIdleStop (p : Fin 16) (s : State) : State :=
  if [1, 2, 3].contains p.val && s.ctl.core && !s.bit (CLK_PLL_CTRL p.val) 0 && pllIdle s p.val then pllStop s p.val else s

def execPllIdleStop (p : Fin 16) (s : State) : Host.Outcome State Fault Refusal := .next (doPllIdleStop p s)

/-- PWR_THERM.warning, EVC source 53 and THERMAL_WARN follow tj and warn as they now stand (R441, Table 16.14). -/
def thermWarn (s : State) : State :=
  let warn := decide (signed 11 (s.fld PWR_THERM 0 11) ≥ 4 * (s.fld PWR_THERM 16 8 : Int))
  let rise := warn && !s.bit PWR_THERM 24
  let s := evcInput (s.setBit PWR_THERM 24 warn) 53 warn
  if rise then raise s evThermalWarn 1 4 31 [] else s

/-- A sample of the junction temperature in 0.25 °C (R441). -/
def doThermalSample (tj : BitVec 11) (s : State) : State :=
  let t := tj.toInt
  if s.ctl.mode = .off then s
  else
    let s := if decide (t ≥ 560) && !s.pwr.trip then { s with pwr := { s.pwr with trip := true } }.emit .thermtrip else s
    if !s.ctl.core then s
    else
      let s := s.setFld PWR_THERM 0 11 tj.toNat
      let s := if signed 11 (s.fld PWR_TMAX 0 11) < t then s.setFld PWR_TMAX 0 11 tj.toNat else s
      thermWarn { s with pwr := { s.pwr with hotNs := if t ≥ 540 then (match s.pwr.hotNs with | some x => some x | none => some s.island) else none } }

def execThermalSample (tj : BitVec 11) (s : State) : Host.Outcome State Fault Refusal := .next (doThermalSample tj s)

/-- tj at or above 135 °C for 1 ms raises FATAL THERMAL_SHUTDOWN (R441). -/
def doThermalShutdown (s : State) : State :=
  match s.pwr.hotNs with
  | none => s
  | some t =>
    if !s.ctl.core || decide (s.island < t + 1000000) then s
    else raise { s with pwr := { s.pwr with hotNs := none } } evThermalShutdown 3 4 31 []

def execThermalShutdown (s : State) : Host.Outcome State Fault Refusal := .next (doThermalShutdown s)

end Sys2Proof.Machine
end

