-- ==== Sys2Proof/Machine/Heads.lean ====
section
/-!
DEFINITION. Heads and commits (chapter 07): HEAD_SET, HEAD_ENABLE, HEAD_WB (R186–R189, R193, R211), the commit point with
its fences and flip sets (R199, R200), seal groups and their instants (R204–R210), FENCE_SIGNAL and FENCE_WAIT (R214),
and what a frame boundary does to one head.
-/

namespace Sys2Proof.Machine

/-! ### HEAD_SET -/

/-- The timing of a HEAD_SET (Table 7.9) over the head as it is. -/
def headOf (h : Head) (q : Req) : Head :=
  { h with
    isSet := true, gang := q.bit 17 0, hpol := q.bit 17 1, vpol := q.bit 17 2, tg := q.u8 18, khz := q.u32 20
    hAct := q.u16 24, hFront := q.u16 26, hSync := q.u16 28, hBack := q.u16 30
    vAct := q.u16 32, vFront := q.u16 34, vSync := q.u16 36, vBack := q.u16 38
    lining := BitVec.ofNat 30 (q.u32 40), liningSurf := if q.u16 44 = 0xFFFF then none else some (q.u16 44)
    pulse := q.u8 46, px := q.u16 48, py := q.u16 50 }

/-- Totals of a head's timing. -/
def Head.hTotal (h : Head) : Nat := h.hAct + h.hFront + h.hSync + h.hBack
def Head.vTotal (h : Head) : Nat := h.vAct + h.vFront + h.vSync + h.vBack

/-- Whether a timing lies outside Table 7.2. -/
def timingBad (h : Head) : Bool :=
  let m := if h.gang then 2 else 1
  decide (h.khz < 25000) || decide (594000 * m < h.khz) || decide (h.hAct < 640) || decide (4096 * m < h.hAct)
    || h.hAct % (4 * m) != 0 || decide (h.hFront + h.hSync + h.hBack < 80 * m) || decide (16383 < h.hTotal)
    || decide (h.vAct < 480) || decide (4320 < h.vAct) || decide (h.vFront < 8) || decide (255 < h.vFront)
    || decide (h.vSync < 1) || decide (31 < h.vSync) || decide (h.vBack < 1) || decide (511 < h.vBack)

/-- Whether a pulse mark is misplaced (R198). -/
def pulseBad (h : Head) : Bool :=
  decide (3 < h.pulse) || (decide (h.pulse ≠ 0) && (h.px % 16 != 0 || h.py % 16 != 0
    || decide (h.hAct < h.px + 16) || decide (h.vAct < h.py + 16)))

/-- Whether another head of the group has another pixel clock or other totals (R80). -/
def tgMismatch (s : State) (n : Nat) (h : Head) : Bool :=
  s.heads.any fun x => x.1 != n && x.2.isSet && x.2.tg == h.tg
    && (x.2.khz != h.khz || x.2.hTotal != h.hTotal || x.2.vTotal != h.vTotal)

/-- A group's nominal timing follows the heads whose last HEAD_SET names it (R80); a running group that had none makes
its first boundary one nominal period later. -/
def tgRetime (s : State) (g : Nat) : State :=
  let t := s.tg g
  let hs := (s.heads.filter fun x => x.2.isSet && x.2.tg == g).map (·.2)
  match hs with
  | [] => s.setTg g { t with khz := 0, hTotal := 0, vTotal := 0, vFront := 0 }
  | h :: rest =>
    let t' := { t with khz := h.khz, hTotal := h.hTotal, vTotal := h.vTotal, vFront := rest.foldl (fun v x => Nat.min v x.vFront) h.vFront }
    if t.khz = 0 ∧ t.running then s.setTg g ({ t' with first := true }.begin s (tgNominal t')) else s.setTg g t'

def maskHeadSet : Nat := bodyMask [(16, 0, 8), (17, 0, 3), (18, 0, 8), (20, 0, 32), (24, 0, 64), (32, 0, 64), (40, 0, 30), (44, 0, 16), (46, 0, 8), (48, 0, 32)]

/-- Whether a head's slot carries layers or a writeback configuration (R187). -/
def slotBusy (s : State) (n : Nat) : Bool := (s.head n).wbOn || s.layers.any fun x => x.2.created && x.2.head == n

/-- The completion body of HEAD_LINK (Table 8.8). -/
def linkBody (stage lttprs : Nat) (settings : BitVec 32) : BitVec 128 :=
  cplBody [(16, 1, stage), (17, 1, lttprs), (20, 4, settings.toNat)]

/-- Takes a head's link DARK at once (R221, R226). A training it cuts off completes LINK_FAIL, its stage and settings not stated
(log 44). -/
def linkDark (s : State) (n : Nat) : State :=
  let h := s.head n
  let s := s.setHead n { h with tx := .dark, trained := false, linkJob := none, sinkOn := false, relink := false }
  match h.linkJob with
  | some id =>
    let x := Config.unstated s.free
    finish s.draw id stLinkFail (linkBody (x % 256) (x / 256 % 256) (BitVec.ofNat 32 (x / 65536)))
  | none => s

/-! ### HEAD_ENABLE -/

/-- The tokens a head reserves (Table 16.4). -/
def headTokens (h : Head) : Nat := if h.gang then 48 else 24

/-- Reserves a head's tokens (R440), once: taken now where the tick still has so many and none waits, in a later tick where not
(R438). -/
def reserve (s : State) (n : Nat) : State :=
  if tget (fun _ => 0) s.pwr.heads n = 0 then
    let t := headTokens (s.head n)
    let now : Bool := s.pwr.owed.isEmpty && decide (s.pwr.spent + t ≤ 60)
    { s with pwr := { s.pwr with
      heads := tset (fun _ => 0) s.pwr.heads n t, spent := if now then s.pwr.spent + t else s.pwr.spent
      owed := if now then s.pwr.owed else s.pwr.owed ++ [(n, t)] } }
  else s

/-- Releases a head's reservation; the compositor's PLL served it until now (R435). -/
def unreserve (s : State) (n : Nat) : State :=
  let s : State := s.pllUsed 1
  { s with pwr := { s.pwr with heads := tset (fun _ => 0) s.pwr.heads n 0, owed := s.pwr.owed.filter fun x => x.1 != n } }

/-- The completion of HEAD_ENABLE (Table 7.9). -/
def enableBody (frame : BitVec 64) (b : Nat) : BitVec 128 := cplBody [(16, 8, frame.toNat), (24, 8, b)]

/-- HEAD_ENABLE (R188, R440, R80): it takes effect at the next boundary of the head's timing group. Disabling a head
that neither runs nor waits to run has nothing to wait for. -/
def doHeadEnable (q : Req) (s : State) : State :=
  soile s q 0x0B02 (bodyMask [(16, 0, 8), (17, 0, 1)]) true fun s id =>
    let n := q.u8 16
    let h := s.head n
    let on := q.bit 17 0
    let fresh := tget (fun _ => 0) s.pwr.heads n = 0
    guardJob s id [
      (decide (15 < n) || gangMember s n, stBadRange), (decide (s.nHeads ≤ n), stNoResource),
      (!ownsHead s q.part.val n, stNotOwner), (on && !h.isSet, stBadRange),
      (on && fresh && decide (pwrB s < pwrR s + pwrG s + headTokens h), stPowerBudget)] fun s =>
        if on then (pllStart (reserve s n) 1).setHead n { h with start := h.start ++ [id] }
        else if !h.enabled && h.start.isEmpty then finish s id stComplete (enableBody h.frame h.boundary)
        else s.setHead n { h with stop := h.stop ++ [id] }

def execHeadEnable (q : Req) (s : State) : Host.Outcome State Fault Refusal := .next (doHeadEnable q s)

/-! ### HEAD_WB -/

def maskHeadWb : Nat := bodyMask [(16, 0, 8), (17, 0, 3), (18, 0, 8), (20, 0, 32), (24, 0, 40)]

/-- Whether a writeback surface breaks R211. -/
def wbShapeBad (h : Head) (f : Surface) (fmt : Nat) : Bool :=
  !f.created || f.w != h.hAct || f.h != h.vAct || f.fmt != fmt || fmt == 1

/-- HEAD_WB (R211). -/
def headWb (q : Req) (s : State) : State × Nat × BitVec 128 :=
  let n := q.u8 16
  let p := q.part.val
  let h := s.head n
  let on := q.bit 17 0
  let a := q.u16 20
  let b := q.u16 22
  let fmt := q.u8 18
  match firstFail [
      (decide (15 < n) || gangMember s n || (on && (decide (4095 < a) || decide (4095 < b) || q.u40 24 % 0x1000 != 0)), stBadRange),
      (decide (s.nHeads ≤ n), stNoResource),
      (!ownsHead s p n || (on && (!ownsSurf s p a || !ownsSurf s p b)), stNotOwner),
      (on && decide (5 < fmt), stBadFormat),
      (on && (wbShapeBad h (s.surf a) fmt || wbShapeBad h (s.surf b) fmt), stWbShape),
      (on && ((s.surf a).reg || (s.surf b).reg), stWbTracked)] with
  | some st => (s, st, 0)
  | none =>
    let h := { h with wbOn := on, wbCur := none, wbDue := none, wbDone := false, wbLast := false, wbHeldA := false, wbHeldB := false }
    (s.setHead n (if on then
      { h with wbFmt := fmt, wb2020 := q.bit 17 1, wbFull := q.bit 17 2, wbA := a, wbB := b, wbRec := q.u40 24 } else h), stComplete, 0)

def doHeadWb (q : Req) (s : State) : State := soileNow s q 0x0B03 maskHeadWb true (headWb q)
def execHeadWb (q : Req) (s : State) : Host.Outcome State Fault Refusal := .next (doHeadWb q s)

/-! ### Commit point and fences -/

/-- Whether the value at a fence has reached its target (R200). -/
def fenceReached (v target : BitVec 64) : Bool := decide ((v - target).toInt ≥ 0)

/-- Reads a fence for a partition: host memory on PCIe gives what the read returned, internal memory is read through
its gate (R200). None where the read failed or was refused. -/
def readFence (s : State) (p : Nat) (host : Bool) (addr : BitVec 64) (read : Option (BitVec 64)) : State × Option (BitVec 64) :=
  if host && onPcie s p then pcieFence s (s.part p).port read
  else
    let x := engRead s 14 p (fieldAddr host addr.toNat) 8
    (x.1, if x.2.1 = .ok then some (BitVec.ofNat 64 (leNat x.2.2)) else none)

/-- Whether the read of a fence waits at a gate (R309). -/
def fenceWaits (s : State) (p : Nat) (host : Bool) (addr : BitVec 64) : Bool :=
  !(host && onPcie s p) && rowsDec s 14 p .r [(fieldAddr host addr.toNat, 8)] == .held

/-- The newest output of a follow source (R192). -/
def newestOf (s : State) : LSource → Option Nat
  | .surface _ => none
  | .followIpp f => (s.follow f).newest
  | .followDec c => (s.ctx c).lastOut.map fun b => (s.ctx c).poolBase + b

/-- The newest outputs of every follow source (R192). -/
def newestAll (s : State) : List (LSource × Nat) :=
  let pair := fun (src : LSource) => (newestOf s src).map fun b => (src, b)
  s.follows.filterMap (fun x => pair (.followIpp x.1)) ++ s.ctxs.filterMap fun x => pair (.followDec x.1)

/-- Arms the pending updates of layer `i` that a test selects, with the flip that follows from one that names a source. -/
def armWhere (s : State) (i : Nat) (f : Pending → Bool) : State :=
  let l := s.layer i
  let s := s.setLayer i { l with pend := l.pend.map fun p => if f p then { p with armed := true, counts := true } else p }
  if l.pend.any fun p => f p && p.groups.getLsbD 3 then armFollow s i else s

/-- Whether a writer of an update's pending buffer is in flight (R37). -/
def pendWriter (s : State) (p : Pending) : Bool := match pendBuf p with | some b => writerOf s b | none => false

/-- What the commit point does to one layer (R199, R200, R203). -/
def commitLayer (s : State) (i : Nat) : State :=
  let l := s.layer i
  if !l.destroy.isEmpty then s.setLayer i { l with destroyArmed := true }
  else
    let l' := { l with pend := l.pend.map fun p =>
      if p.armed || p.sealN.isSome then p
      else if p.fence.isSome then { p with counts := true }
      else if pendWriter s p then p else { p with armed := true, counts := true } }
    armFollow (s.setLayer i l') i

/-- The flip sets of a head: the fences its evaluated updates name, each once (R200). -/
def flipSetsOf (s : State) (n : Nat) : List (Bool × BitVec 64 × BitVec 64) :=
  ((layersOf s n).flatMap fun x => if x.2.destroyArmed then [] else
    (x.2.pend.filter fun p => !p.armed && p.sealN.isNone).filterMap (·.fence)).eraseDups

/-- The commit point of a head (R199). -/
def doCommitPoint (head : Fin 16) (s : State) : State :=
  let n := head.val
  if !s.ctl.core || !(s.head n).enabled || (s.head n).judged then s
  else
    let s := s.setHead n { s.head n with newest := newestAll s }
    let s := (layersOf s n).foldl (fun s x => commitLayer s x.1) s
    s.setHead n { s.head n with judged := true, flipSets := flipSetsOf s n }

def execCommitPoint (head : Fin 16) (s : State) : Host.Outcome State Fault Refusal := .next (doCommitPoint head s)

/-- The members of a flip set: layers of the head with evaluated updates under its fence (R200). -/
def inSet (f : Bool × BitVec 64 × BitVec 64) (p : Pending) : Bool := p.fence == some f && p.counts && !p.armed && p.sealN.isNone

/-- Judges a flip set at the instant its read returns: every member is armed, or none (R200). -/
def judgeSet (s : State) (n : Nat) (f : Bool × BitVec 64 × BitVec 64) (v : Option (BitVec 64)) : State :=
  let ls := layersOf s n
  let writer := ls.any fun x => x.2.pend.any fun p => inSet f p && pendWriter s p
  let ok := match v with | some v => fenceReached v f.2.2 && !writer | none => false
  let s := if v.isNone then s.inc (HD_FENCE_LATE n) else s
  ls.foldl (fun s x =>
    if ok then armWhere s x.1 (inSet f)
    else
      let l := s.layer x.1
      s.setLayer x.1 { l with pend := l.pend.map fun p => if inSet f p then { p with counts := false } else p }) s

/-- The read of a fence returns (R200, R206): for a flip set of the head, or for skim sets of its seal group. -/
def doFenceReadReturn (head : Fin 16) (host : Bool) (addr : BitVec 64) (read : Option (BitVec 64)) (s : State) : State :=
  let n := head.val
  let h := s.head n
  if !s.ctl.core then s
  else match if h.enabled then h.flipSets.find? fun f => f.1 == host && f.2.1 == addr else none with
    | some f =>
      let x := readFence s (headOwner s n) host addr read
      if fenceWaits s (headOwner s n) host addr then s
      else judgeSet (x.1.setHead n { h with flipSets := h.flipSets.erase f }) n f x.2
    | none =>
      match sealOf s n, read with
      | some g, some v =>
        let fs := (layersOf s n).flatMap fun x => (x.2.pend.filterMap (·.fence)).filter fun f =>
          f.1 == host && f.2.1 == addr && fenceReached v f.2.2
        let r := s.grp g
        if host && onPcie s (headOwner s n) then s.setGrp g { r with reached := (r.reached ++ fs).eraseDups } else s
      | _, _ => s

def execFenceReadReturn (head : Fin 16) (host : Bool) (addr : BitVec 64) (read : Option (BitVec 64)) (s : State) :
    Host.Outcome State Fault Refusal := .next (doFenceReadReturn head host addr read s)

/-- Line v_active − 1 begins: reads that have not returned count as not reached (R200). -/
def doFenceDeadline (head : Fin 16) (s : State) : State :=
  let n := head.val
  if !s.ctl.core || !(s.head n).enabled then s
  else
    let fs := (s.head n).flipSets
    let s := s.setHead n { s.head n with flipSets := [] }
    fs.foldl (fun s f => judgeSet s n f none) s

def execFenceDeadline (head : Fin 16) (s : State) : Host.Outcome State Fault Refusal := .next (doFenceDeadline head s)

/-! ### Seal groups -/

/-- The fields of CMP_SEALg_CFG (Table 7.11). -/
def sgOn (s : State) (g : Nat) : Bool := s.bit (CMP_SEAL_CFG g) 0
def sgMaster (s : State) (g : Nat) : Bool := s.bit (CMP_SEAL_CFG g) 1
def sgHeads (s : State) (g : Nat) : Nat := s.fld (CMP_SEAL_CFG g) 2 16
def sgMembers (s : State) (g : Nat) : Nat := s.fld (CMP_SEAL_CFG g) 21 8
def sgTg (s : State) (g : Nat) : Nat := s.fld (CMP_SEAL_CFG g) 29 3
def sgOwner (s : State) (g : Nat) : Nat := s.fld (CMP_SEAL_PART g) 0 5
/-- Whether this unit is a member. -/
def sgMember (s : State) (g : Nat) : Bool := bitOf (sgMembers s g) s.logicalId
/-- c and l of R205. -/
def sgDone (s : State) (g : Nat) : BitVec 32 := s.reg (CMP_SEAL_DONE g)
def sgClosed (s : State) (g : Nat) : BitVec 32 := s.reg (CMP_SEAL_CLOSED g)
/-- The local member heads. -/
def sgHeadList (s : State) (g : Nat) : List Nat := (List.range 16).filter fun n => bitOf (sgHeads s g) n
/-- The layers on the local member heads. -/
def sgLayers (s : State) (g : Nat) : List (Nat × Layer) := (sgHeadList s g).flatMap (layersOf s)
/-- The pending updates of skim set `n`. -/
def skimSet (s : State) (g : Nat) (n : BitVec 32) : List Pending :=
  (sgLayers s g).flatMap fun x => x.2.pend.filter fun p => p.sealN == some n

/-- A head leaves its seal group: its layers' pending updates are FENCE-mode ones from then on (R199, R204; log 137). -/
def leaveSeal (s : State) (n : Nat) : State :=
  (layersOf s n).foldl (fun s x =>
    s.setLayer x.1 { s.layer x.1 with pend := (s.layer x.1).pend.map fun u => { u with sealN := none } }) s

/-- SEAL_GROUP (R204): configures or dissolves a group. -/
def sealGroup (q : Req) (s : State) : State × Nat × BitVec 128 :=
  let g := q.u8 16
  let p := q.part.val
  let on := q.bit 17 0
  let heads := q.u16 18
  let tg := q.u8 22
  let hs := (List.range 16).filter fun n => bitOf heads n
  match firstFail [
      (decide (15 < g) || (on && (decide (7 < q.u8 20) || decide (7 < tg))), stBadRange),
      (on && hs.any fun n => decide (s.nHeads ≤ n), stNoResource),
      ((sgOwner s g != 31 && sgOwner s g != p) || (on && hs.any fun n => !ownsHead s p n), stNotOwner),
      (on && (hs.any fun n => (s.head n).tg != tg || (match sealOf s n with | some k => k != g | none => false)), stGroupMismatch)] with
  | some st => (s, st, 0)
  | none =>
    if on then
      let s := ((sgHeadList s g).filter fun n => !bitOf heads n).foldl leaveSeal s
      ((s.setReg (CMP_SEAL_CFG g) (BitVec.ofNat 32 (1 + Bool.nat (q.bit 17 1) * 2 + heads * 2 ^ 2 + q.u8 20 * 2 ^ 18 + q.u8 21 * 2 ^ 21 + tg * 2 ^ 29))).setReg
        (CMP_SEAL_PART g) (BitVec.ofNat 32 p), stComplete, 0)
    else
      let jobs := (s.grp g).seals
      let s := (sgHeadList s g).foldl leaveSeal s
      let s := ((s.setReg (CMP_SEAL_CFG g) 0).setReg (CMP_SEAL_PART g) 31).setGrp g {}
      let s := (s.setReg (CMP_SEAL_DONE g) 0).setReg (CMP_SEAL_CLOSED g) 0
      (jobs.foldl (fun s j => finish s j.2 stAborted) s, stComplete, 0)

def doSealGroup (q : Req) (s : State) : State :=
  soileNow s q 0x0901 (bodyMask [(16, 0, 8), (17, 0, 2), (18, 0, 16), (20, 0, 24)]) true (sealGroup q)
def execSealGroup (q : Req) (s : State) : Host.Outcome State Fault Refusal := .next (doSealGroup q s)

/-- SEAL (R206): closes the skim sets up to n; it completes when the seal takes effect (R208). -/
def doSeal (q : Req) (s : State) : State :=
  soile s q 0x0902 (bodyMask [(16, 0, 8), (20, 0, 32)]) true fun s id =>
    let g := q.u8 16
    let n := BitVec.ofNat 32 (q.u32 20)
    guardJob s id [
      (decide (15 < g) || decide (8 < sealDiff n (sgDone s g)), stBadRange),
      (!sgOn s g || sgOwner s g != q.part.val, stNotOwner),
      (decide (sealDiff n (sgDone s g) ≤ 0), stSealClosed), (sgHeads s g == 0, stWrongMode)] fun s =>
        let s := if sealDiff n (sgClosed s g) > 0 then s.setReg (CMP_SEAL_CLOSED g) n else s
        s.setGrp g { s.grp g with seals := (s.grp g).seals ++ [(n, id)] }

def execSeal (q : Req) (s : State) : Host.Outcome State Fault Refusal := .next (doSeal q s)

/-- Whether a fence of a skim set is reached at the evaluation (R206). -/
def sealFence (s : State) (g : Nat) (p : Pending) : State × Bool :=
  match p.fence with
  | none => (s, true)
  | some f =>
    if f.1 && onPcie s (sgOwner s g) then (s, (s.grp g).reached.contains f)
    else
      let x := readFence s (sgOwner s g) false f.2.1 none
      (x.1, match x.2 with | some v => fenceReached v f.2.2 | none => false)

/-- The cause for which skim set `n` is not complete, 0 where it is complete (R206, Table 7.6). -/
def skimCause (s : State) (g : Nat) (n : BitVec 32) : State × Nat :=
  let ps := skimSet s g n
  if sealDiff n (sgClosed s g) > 0 then (s, 1)
  else
    let r := ps.foldl (fun (a : State × Bool) p => let x := sealFence a.1 g p; (x.1, a.2 && x.2)) (s, true)
    (r.1, if !r.2 then 2 else if ps.any (pendWriter s) then 3 else if s.fld (TG_STATUS (sgTg s g)) 0 3 != 3 then 4 else 0)

/-- The highest k such that every set up to k is complete, with the cause of the next (R207). -/
def sealReport (g : Nat) : Nat → State → BitVec 32 → State × BitVec 32 × Nat
  | 0, s, k => (s, k, 1)
  | fuel + 1, s, k =>
    let x := skimCause s g (k + 1)
    if x.2 = 0 then sealReport g fuel x.1 (k + 1) else (x.1, k, x.2)

/-- The boundary that comes next for a group's local timing group. -/
def nextBoundary (s : State) (tg : Nat) : Nat := (s.tg tg).boundary + (s.tg tg).period

/-- The master takes a report, the latest of each member (R207). -/
def takeReport (s : State) (g member : Nat) (k : BitVec 32) (cause : Nat) : State :=
  let r := s.grp g
  s.setGrp g { r with reports := (r.reports.filter fun x => x.1 != member) ++ [(member, k, BitVec.ofNat 3 cause)] }

/-- Marks the buffers of the sets reported complete as current until B (R207). -/
def countSets (s : State) (g : Nat) (k : BitVec 32) : State :=
  (sgLayers s g).foldl (fun s x =>
    let l := s.layer x.1
    s.setLayer x.1 { l with pend := l.pend.map fun p => match p.sealN with
      | some n => if sealDiff n k ≤ 0 then { p with counts := true } else p
      | none => p }) s

/-- Instant S (R207, R363): the unit evaluates its lowest uncommitted sets and sends READY. -/
def doSealInstantS (g : Fin 16) (s : State) : State :=
  let g := g.val
  if !s.ctl.core || !sgOn s g || !sgMember s g || !(s.tg (sgTg s g)).running then s
  else
    let x := sealReport g 9 s (sgDone s g)
    let k := x.2.1
    let s := countSets x.1 g k
    let s := if sgMaster s g then takeReport s g s.logicalId k x.2.2 else s
    broadcast s 3 (hput 8 1 g + hput 9 1 s.logicalId + hput 10 1 x.2.2 + hput 12 4 k.toNat + hput 16 8 (nextBoundary s (sgTg s g))) []

def execSealInstantS (g : Fin 16) (s : State) : Host.Outcome State Fault Refusal := .next (doSealInstantS g s)

/-- What a member reported for the boundary: c with NO_REPORT where nothing came (R207). -/
def reportOf (s : State) (g member : Nat) : BitVec 32 × Nat :=
  match (s.grp g).reports.find? fun x => x.1 == member with
  | some x => (x.2.1, x.2.2.toNat)
  | none => (sgDone s g, 5)

/-- Instant D at the master (R207, R209, R363). -/
def doSealInstantD (g : Fin 16) (s : State) : State :=
  let g := g.val
  if !s.ctl.core || !sgOn s g || !sgMaster s g || (s.grp g).pastD || !(s.tg (sgTg s g)).running then s
  else
    let c := sgDone s g
    let ms := (List.range 8).filter fun u => bitOf (sgMembers s g) u
    let ds := ms.map fun u => sealDiff (reportOf s g u).1 c
    let s := s.setGrp g { s.grp g with pastD := true }
    match ds with
    | [] => s
    | d :: rest =>
      let m := rest.foldl (fun a b => if b < a then b else a) d
      if m > 0 then
        let k := c + BitVec.ofInt 32 m
        let s := s.setGrp g { s.grp g with commitM := some k }
        broadcast s 4 (hput 8 1 g + hput 12 4 k.toNat + hput 16 8 (nextBoundary s (sgTg s g))) []
      else
        match ms.find? fun u => decide (sealDiff (reportOf s g u).1 c ≤ 0) with
        | none => s
        | some u =>
          let cause := (reportOf s g u).2
          let s := (s.setFld (CMP_SEAL_HELD g) 16 3 u).setFld (CMP_SEAL_HELD g) 19 3 cause
          raiseKey s g evSealHeld 1 14 (sgOwner s g) [(g, 4), ((c + 1).toNat, 32), (u, 3), (cause, 8)]

def execSealInstantD (g : Fin 16) (s : State) : Host.Outcome State Fault Refusal := .next (doSealInstantD g s)

/-- Instant C at a member or the master (R207, R209): it arms the sets of the COMMIT it has; a member without one holds. -/
def doSealInstantC (g : Fin 16) (s : State) : State :=
  let g := g.val
  let r := s.grp g
  if !s.ctl.core || !sgOn s g || !(sgMember s g || sgMaster s g) || r.pastC || !(s.tg (sgTg s g)).running then s
  else match r.commitM with
    | none => s.setGrp g { r with pastC := true, holds := sgMember s g }
    | some m =>
      let s := s.setGrp g { r with pastC := true, armedM := some m }
      (sgLayers s g).foldl (fun s x =>
        armWhere s x.1 fun p => match p.sealN with | some n => decide (sealDiff n m ≤ 0) | none => false) s

def execSealInstantC (g : Fin 16) (s : State) : Host.Outcome State Fault Refusal := .next (doSealInstantC g s)

/-- A group at boundary B (R208–R210): the seals that took effect complete, a boundary held is counted, the reports for B are
forgotten; a commit may call for a checkpoint (R378). -/
def sealBoundary (s : State) (g b : Nat) : State :=
  let r := s.grp g
  let frame := match sgHeadList s g with | n :: _ => (s.head n).frame | [] => 0
  let rest := { r with reports := [], commitM := r.lateM, lateM := none, armedM := none, reached := [], pastC := false, pastD := false,
                       holds := false, heldAt := r.holds && r.lateM.isNone }
  match r.armedM with
  | none => if rest.heldAt then (s.setGrp g rest).add (CMP_SEAL_HELD g) 0 16 1 else s.setGrp g rest
  | some m =>
    let done := r.seals.filter fun x => decide (sealDiff x.1 m ≤ 0)
    let s := s.setGrp g { rest with seals := r.seals.filter fun x => decide (sealDiff x.1 m > 0) }
    let s := (s.setReg (CMP_SEAL_DONE g) m).setReg (CMP_SEAL_FRAME g) (BitVec.ofNat 32 frame.toNat)
    let s := if s.bit RDN_CKPT_PERIOD 16 && s.fld RDN_ROLE 0 2 = 1 && s.bit RDN_ROLE 3 then { s with rdn := { s.rdn with due := true } } else s
    done.foldl (fun s x => finish s x.2 stComplete (cplBody [(16, 4, x.1.toNat), (20, 4, frame.toNat), (24, 8, b)])) s

/-! ### FENCE commands -/

def maskFence : Nat := bodyMask [(16, 0, 1), (24, 0, 128)]

/-- Whether an earlier command of the job's ring has not completed yet (R214). -/
def ringBusy (s : State) (j : Job) : Bool :=
  s.jobs.any (fun k => decide (k.id < j.id) && k.req.part == j.req.part && k.req.ring == j.req.ring)
    || s.cpls.any fun c => c.part == j.req.part.val && c.ring == j.req.ring.val

/-- Whether the write of a FENCE_SIGNAL is held at a gate (R309). -/
def signalHeld (s : State) (q : Req) : Bool :=
  !(q.bit 16 0 && onPcie s q.part.val) && rowsDec s 34 q.part.val .w [(fieldAddr (q.bit 16 0) (q.u64 24), 8)] == .held

/-- FENCE_SIGNAL jobs whose earlier commands have completed write their values and complete (R214); one whose write is
held waits for the gate (R309). -/
def fireSignals (s : State) : State :=
  (s.jobs.filter fun j => j.opcode.toNat == 0x0A01).foldl (fun s j =>
    if ringBusy s j || signalHeld s j.req then s
    else
      let x := jobWrite s 34 j.req.part.val (j.req.bit 16 0) (j.req.u64 24) (leBytes 8 (j.req.u64 32))
      finish x.1 j.id x.2) s

/-- FENCE_SIGNAL (R214). -/
def doFenceSignal (q : Req) (s : State) : State :=
  soile s q 0x0A01 maskFence true fun s id => guardJob s id [(q.u64 24 % 8 != 0, stBadRange)] fireSignals

def execFenceSignal (q : Req) (s : State) : Host.Outcome State Fault Refusal := .next (doFenceSignal q s)

/-- FENCE_WAIT (R214): later commands of its ring wait until the value reaches the target. -/
def doFenceWait (q : Req) (s : State) : State :=
  soile s q 0x0A02 maskFence true fun s id => guardJob s id [(q.u64 24 % 8 != 0, stBadRange)] fun s =>
    let p := s.part q.part.val
    let r := cring p q.ring.val
    s.setPart q.part.val (setCring p q.ring.val { r with wait := some (id, q.bit 16 0, BitVec.ofNat 64 (q.u64 24), BitVec.ofNat 64 (q.u64 32)) })

def execFenceWait (q : Req) (s : State) : Host.Outcome State Fault Refusal := .next (doFenceWait q s)

/-- The ring's FENCE_WAIT re-reads its address (R214); a read that fails ends the job (R287). -/
def doFenceWaitPoll (part : Fin 16) (ring : Fin 8) (read : Option (BitVec 64)) (s : State) : State :=
  match (cring (s.part part.val) ring.val).wait with
  | none => s
  | some (id, host, addr, target) =>
    let ends := fun (s : State) (st : Nat) =>
      let p := s.part part.val
      finish (s.setPart part.val (setCring p ring.val { cring p ring.val with wait := none })) id st
    if host && onPcie s part.val then
      let x := pcieFence s (s.part part.val).port read
      match x.2 with
      | none => ends x.1 stHostDma
      | some v => if fenceReached v target then ends x.1 stComplete else x.1
    else
      let x := engRead s 34 part.val (fieldAddr host addr.toNat) 8
      match x.2.1 with
      | .held => s
      | .ok => if fenceReached (BitVec.ofNat 64 (leNat x.2.2)) target then ends x.1 stComplete else x.1
      | e => ends x.1 e.status

def execFenceWaitPoll (part : Fin 16) (ring : Fin 8) (read : Option (BitVec 64)) (s : State) : Host.Outcome State Fault Refusal :=
  .next (doFenceWaitPoll part ring read s)

/-! ### A boundary at one head -/

/-- Whether an enabled head's trained link carries VIDEO in the mode (R224, Table 8.5). -/
def carriesVideo (s : State) : Bool :=
  s.ctl.mode = .run || s.ctl.mode = .test || (s.ctl.mode = .handover && s.rdn.swap.asPart)

/-- The transmitter at a frame boundary of its head (R224). -/
def txSettle (s : State) (n : Nat) : State :=
  let h := s.head n
  if h.tx = .training then s
  else s.setHead n { h with tx := if !h.trained || gangMember s n then .dark
                                  else if h.enabled && carriesVideo s then .video else .linkIdle }

/-- The sink test CRC triple of the frame that ends (R235). -/
def sinkTriple (s : State) (n : Nat) : BitVec 16 × BitVec 16 × BitVec 16 :=
  let px := (List.range (s.head n).bands).flatMap (bandOut s n)
  (Config.sinkCrc (px.map (·.1)), Config.sinkCrc (px.map (·.2.1)), Config.sinkCrc (px.map (·.2.2)))

/-- Keeps the triple of the frame just sent in VIDEO (R235). -/
def sinkFrame (s : State) (n : Nat) : State :=
  let h := s.head n
  if h.tx = .video then
    let t := sinkTriple s n
    let s := s.setHead n { h with crcs := (h.crcs ++ [t]).drop (h.crcs.length + 1 - 4) }
    (s.setReg (HD_TX_CRC_RG n) (BitVec.ofNat 32 (t.1.toNat + t.2.1.toNat * 2 ^ 16))).setReg (HD_TX_CRC_B n) (BitVec.ofNat 32 t.2.2.toNat)
  else s

/-- The writeback surface of a buffer bit. -/
def wbSurf (h : Head) (b : Bool) : Nat := if b then h.wbB else h.wbA

/-- Writes one band of the frame in writeback (R211). -/
def wbWriteBand (s : State) (n b : Nat) : State :=
  match (s.head n).wbCur with
  | none => s
  | some c => (wbBand s n b (s.surf (wbSurf (s.head n) c.1))).foldl (fun s w => (looseWrite s 14 (headOwner s n) w.1 w.2).1) s

/-- The frame in writeback ends: its pixels are written, its record follows within 2 lines (R212). -/
def wbEnd (s : State) (n : Nat) : State :=
  if (s.head n).wbCur.isSome then
    let s := (List.range (s.head n).bands).foldl (fun s b => wbWriteBand s n b) s
    let h := s.head n
    s.setHead n { h with wbDue := h.wbCur, wbCur := none }
  else s

/-- The frame that begins is written back to the buffer without the latest complete frame, unless that is held (R212,
R213: the end of its record is voided first). -/
def wbBegin (s : State) (n : Nat) : State :=
  let h := s.head n
  if !h.wbOn then s
  else
    let latest := match h.wbDue with | some d => d.1 | none => h.wbLast
    let b := if h.wbDone || h.wbDue.isSome then !latest else false
    if (if b then h.wbHeldB else h.wbHeldA) then s.inc (HD_WB_SKIP n)
    else
      let s := s.setHead n { h with wbCur := some (b, h.frame, s.now) }
      (looseWrite s 14 (headOwner s n) (h.wbRec + (if b then 2048 else 0) + 2044) (leBytes 4 0)).1

/-- The witness at the end of a frame (R234, Table 8.10). -/
def witnessFrame (s : State) (n : Nat) : State :=
  let h := s.head n
  let s := s.setBit (VFY_HEAD_STATE n) 6 h.witRan
  if h.witBad then s else s.setFld (VFY_HEAD_STATE n) 0 2 0

/-- The end of a running head's frame. -/
def frameEnd (s : State) (n : Nat) : State :=
  let s := witnessFrame (sinkFrame (wbEnd s n) n) n
  let h := s.head n
  let owed := ((List.range h.bands).filter fun b => bandWaits s n b && decide (0 ≤ bandPast s n b)).map (owedBand s n)
  s.setHead n { h with owed := h.owed ++ owed, prev := h.evals, evals := [], held := [], black := [], witBad := false, witRan := false, flipSets := [], judged := false, oldProf := [] }

/-- A boundary at head `n` of the group (R188, R199–R203, R212, R224): the frame that ran ends, armed changes take
effect, a waiting HEAD_ENABLE starts or stops the head, the next frame begins. A slot that a gang has taken since its HEAD_ENABLE
does not start (log 137), and a head whose reservation waits for a tick of its own starts at the next boundary (R438, R440). -/
def headBoundary (s : State) (n : Nat) : State :=
  let b := s.now
  let h := s.head n
  let last := fun (l : List Nat) => l.foldl Nat.max 0
  let on := !gangMember s n && (if h.start.isEmpty && h.stop.isEmpty then h.enabled
            else if h.stop.isEmpty then true else if h.start.isEmpty then false else decide (last h.stop < last h.start))
  let ids := h.start ++ h.stop
  if !h.enabled && (ids.isEmpty || (on && s.pwr.owed.any fun x => x.1 == n)) then s
  else
    let s := if h.enabled then frameEnd s n else s
    let frame := if h.enabled || on then h.frame + 1 else h.frame
    let s := if h.enabled || on then layersBoundary s n b frame else s
    let s := s.setHead n { s.head n with owed := if h.enabled && on then (s.head n).owed else [], enabled := on, start := [], stop := [], frame := frame, boundary := b }
    let s := ids.foldl (fun s id => finish s id stComplete (enableBody frame b)) s
    let s := if on then wbBegin s n else (unreserve s n).setFld (VFY_HEAD_STATE n) 0 2 0
    evcPulse (txSettle s n) (1 + n)

end Sys2Proof.Machine
end

