-- ==== Sys2Proof/Machine/Chain.lean ====
section
/-!
DEFINITION. The Triginal Chain (chapter 13): bringing a link up and down, replay and credit, delivery and forwarding,
enumeration and routes, HELLO and the map of logical IDs, time, seal messages, CTRL messages, the CHN commands. What
arrives of streams and surfaces stands in ChainRecv, checkpoints and yields with redundancy.
-/

namespace Sys2Proof.Machine

/-! ### Link control -/

/-- The LCTRL flit with the NAK that names the expected number (R349). -/
def sendNak (s : State) (p : Nat) : State :=
  lctrl (s.setPort p { s.port p with nakWait := true, nakAt := s.island }) p 1 (s.port p).rxSeq.toNat

/-- CHN_SEND jobs that no longer wait for any message (R372): they complete with the status given. -/
def endSends (s : State) (old : List Nat) (st : Nat) : State :=
  old.eraseDups.foldl (fun s id => if s.chain.sends.any fun x => x.1 == id then s else finish s id st) s

/-- The status of a CHN_SEND whose message never reaches the first hop (R372; log 161). -/
def lostSend : Nat := if Config.sendLostDone then stComplete else stNoLink

/-- A port goes DOWN (R351): the replay buffer and what waited are discarded, messages in transit are cut downstream,
CHN_LINK_DOWN recorded for a port that was UP. -/
def portDown (s : State) (p cause : Nat) : State :=
  let q := s.port p
  let up : Bool := q.state == .up
  let s := s.setPort p { state := .down, cause := cause, delay := q.delay, delayAt := q.delayAt }
  let s := q.queue.foldl (fun s _ => s.inc (CHN_P_DEADEND p)) s
  if !up then s
  else
    let s := dropHeld s p q
    let s := [0, 1, 2, 3].foldl (fun s c => cutClass s p c) s
    let gone := s.chain.sends.filter fun x => x.2.1 == p
    let s := { s with chain := { s.chain with sends := s.chain.sends.filter fun x => x.2.1 != p } }
    let s := endSends s (gone.map (·.1)) lostSend
    let s := raiseKey s p evChnLinkDown 1 39 31 [(p, 4), (cause, 8)]
    nextTransfers (evcPulse s 56)

/-- A write of CHN_Pp_CTRL (R347): the rate, then down from any state, or train from DOWN. -/
def chnCtrl (s : State) (p : Nat) (v : Word) : State :=
  let s := plainWrite s (CHN_P_CTRL p) v
  if bitOf v.toNat 3 then (if (s.port p).state = .down then s else portDown s p 3)
  else if bitOf v.toNat 2 && (s.port p).state = .down then
    let s := s.each 4 fun s l => s.setFld (QD_LANE_STATE (5 + p) l) 4 3 0
    (s.setPort p { s.port p with state := .train, cause := 0, locked := 0, skew := 0 }).emit (trainingOut s p false)
  else s

def doChnTrain (a : Access) (p : Fin 2) (v : Word) (s : State) : State :=
  regAccess s a (CHN_P_CTRL p.val) v fun s => chnCtrl s p.val v
def execChnTrain (a : Access) (p : Fin 2) (v : BitVec 32) (s : State) : Host.Outcome State Fault Refusal := .next (doChnTrain a p v s)

def doChnDown (a : Access) (p : Fin 2) (v : Word) (s : State) : State :=
  regAccess s a (CHN_P_CTRL p.val) v fun s => chnCtrl s p.val v
def execChnDown (a : Access) (p : Fin 2) (v : BitVec 32) (s : State) : Host.Outcome State Fault Refusal := .next (doChnDown a p v s)

/-- One bit-slip of a lane (R470): modulo the 66 bits of a chain block, or the 64 bits of a word in test. -/
def slipLane (s : State) (n l : Nat) : State :=
  let r := QD_LANE_STATE n l
  s.setFld r 16 7 ((s.fld r 16 7 + 1) % (if s.bit (QD_CFG n) 3 then 64 else 66))

/-- A write of CHN_Pp_SLIP (R348): on the lanes of quads QD5 and QD6. -/
def chnSlipWrite (s : State) (p : Nat) (v : Word) : State := slipLane s (5 + p) (bitsOf v.toNat 0 2)

def doChnSlip (a : Access) (p : Fin 2) (v : Word) (s : State) : State :=
  regAccess s a (CHN_P_SLIP p.val) v fun s => chnSlipWrite s p.val v
def execChnSlip (a : Access) (p : Fin 2) (v : BitVec 32) (s : State) : Host.Outcome State Fault Refusal := .next (doChnSlip a p v s)

/-- A lane has seen 64 matching training blocks (R348), at a rate and with signal (Table 13.1, R471); all four move the port
from TRAIN to ALIGN. -/
def doWordLock (p : Fin 2) (lane : Fin 4) (s : State) : State :=
  let q := s.port p.val
  if !s.ctl.ring || q.state = .down || q.state = .up || s.fld (CHN_P_CTRL p.val) 0 2 = 0 || laneDeaf s (5 + p.val) lane.val then s
  else
    let l := q.locked ||| BitVec.ofNat 4 (2 ^ lane.val)
    s.setPort p.val { q with locked := l, state := if q.state = .train && l == 15 then .align else q.state }
def execWordLock (p : Fin 2) (lane : Fin 4) (s : State) : Host.Outcome State Fault Refusal := .next (doWordLock p lane s)

/-- The lanes are aligned on their marker blocks (R347, R348): READY, or DOWN with CROSSED where the partner port is on
the same side. -/
def doLaneDeskew (p : Fin 2) (sameSide : Bool) (skew : BitVec 4) (s : State) : State :=
  let q := s.port p.val
  if !s.ctl.ring || q.state != .align || q.locked != 15 then s
  else if sameSide then portDown s p.val 4
  else (s.setPort p.val { q with state := .ready, skew := skew }).emit (trainingOut s p.val true)
def execLaneDeskew (p : Fin 2) (sameSide : Bool) (skew : BitVec 4) (s : State) : Host.Outcome State Fault Refusal :=
  .next (doLaneDeskew p sameSide skew s)

/-- The ready bit on all lanes (R347, R348): UP, sequence numbers and credits from zero, latencies loaded. -/
def doReadyBitReceived (p : Fin 2) (s : State) : State :=
  let p := p.val
  let q := s.port p
  if !s.ctl.ring || q.state != .ready || q.locked != 15 then s
  else
    let s := s.setPort p { state := .up, locked := q.locked, skew := q.skew, delay := q.delay, delayAt := q.delayAt }
    let lat := chainLat (s.fld (CHN_P_CTRL p) 0 2)
    let s := if s.ctl.core then loadLat s (8 + p) lat.1 lat.2 else s
    let s := raiseKey s p evChnLinkUp 0 39 31 [(p, 4)]
    sendAck (evcPulse s 56) p
def execReadyBitReceived (p : Fin 2) (s : State) : Host.Outcome State Fault Refusal := .next (doReadyBitReceived p s)

/-- A lane of a port is without word lock (R351). -/
def lockLost (s : State) (p lane : Nat) : State :=
  let q := s.port p
  if !s.ctl.ring || q.state = .down then s
  else if q.state = .up then portDown s p 1
  else s.setPort p { q with locked := q.locked &&& ~~~ BitVec.ofNat 4 (2 ^ lane) }

/-- A lane without word lock for 64 blocks (R351). -/
def doLockLost (p : Fin 2) (lane : Fin 4) (s : State) : State := lockLost s p.val lane.val
def execLockLost (p : Fin 2) (lane : Fin 4) (s : State) : Host.Outcome State Fault Refusal := .next (doLockLost p lane s)

/-! ### Replay and credit -/

/-- Whether a port exchanges flits. -/
def chainUp (s : State) (p : Nat) : Bool := s.ctl.ring && (s.port p).state == .up

/-- A flit of class `c` is accepted on port `p` (R349): it takes its number, is counted, and each 16th is acknowledged. With `free` it
stands in no receive buffer (R350). -/
def takeFlit (c : Nat) (free : Bool) (p : Nat) (s : State) : State :=
  let q := s.port p
  let s := s.setPort p { q with
    rxSeq := q.rxSeq + 1, recv := if free then q.recv.set c (q.recv.getD c 0 + 1) else q.recv, nakWait := false }
  let s := s.inc (CHN_P_RX_FLITS p)
  if ((s.port p).rxSeq - (s.port p).acked).toNat ≥ 16 then sendAck s p else s

/-- A flit that this unit was sending on already when its check failed leaves by the other port poisoned (R346). -/
def poisonOn (s : State) (p : Nat) (onward : Option (BitVec 4 × Bytes)) : State :=
  match onward with
  | some f => if (s.port (1 - p)).state = .up ∧ (s.port (1 - p)).outst.length < 128 then sendFlit s (1 - p) f.1 f.2 true else s
  | none => s

/-- A flit that failed its check, or came out of its place (R349): discarded, counted, NAKed once; a link-control one is dropped and
counted (R350). A poisoned one takes its number and is acknowledged, its content discarded (R346). -/
def doFlitCheckFail (p : Fin 2) (bad : BadFlit) (s : State) : State :=
  let p := p.val
  if !chainUp s p then s
  else match bad with
    | .control => s.inc (CHN_P_CRC_ERR p)
    | .failed onward =>
      let s := s.inc (CHN_P_CRC_ERR p)
      poisonOn (if (s.port p).nakWait then s else sendNak s p) p onward
    | .poisoned c onward => poisonOn (takeFlit c.val true p (s.inc (CHN_P_POISON p))) p onward
def execFlitCheckFail (p : Fin 2) (bad : BadFlit) (s : State) : Host.Outcome State Fault Refusal :=
  .next (doFlitCheckFail p bad s)

/-- The NAK again, every 1 µs until the expected flit arrives (R349). -/
def doNakResend (p : Fin 2) (s : State) : State :=
  if chainUp s p.val && (s.port p.val).nakWait && decide ((s.port p.val).nakAt + 1000 ≤ s.island) then sendNak s p.val else s
def execNakResend (p : Fin 2) (s : State) : Host.Outcome State Fault Refusal := .next (doNakResend p s)

/-- A replay of the outstanding flits from one of them on (R349): counted; the ninth of one number takes the port DOWN
(R351). -/
def replay (s : State) (p : Nat) (fs : List (BitVec 32 × BitVec 4 × Bytes)) : State :=
  let q := s.port p
  if fs.isEmpty then s
  else if q.tries ≥ 8 then portDown s p 2
  else
    let s := (s.setPort p { q with tries := q.tries + 1, ackAt := s.island }).inc (CHN_P_REPLAY p)
    fs.foldl (fun s f => s.emit (flitOut s p f.1 f.2.1 f.2.2)) s

/-- A NAK makes the transmitter resend from the named flit (R349). -/
def doNakRx (p : Fin 2) (n : BitVec 32) (s : State) : State :=
  if chainUp s p.val then replay s p.val ((s.port p.val).outst.dropWhile fun f => f.1 != n) else s
def execNakRx (p : Fin 2) (n : BitVec 32) (s : State) : Host.Outcome State Fault Refusal := .next (doNakRx p n s)

/-- 4 µs without an acknowledgement that advances: resend from the oldest outstanding flit (R349). -/
def doReplayTimeout (p : Fin 2) (s : State) : State :=
  if chainUp s p.val && decide ((s.port p.val).ackAt + 4000 ≤ s.island) then replay s p.val (s.port p.val).outst else s
def execReplayTimeout (p : Fin 2) (s : State) : Host.Outcome State Fault Refusal := .next (doReplayTimeout p s)

/-- `a` at or after `b` by signed 32-bit difference. -/
def seqGe (a b : BitVec 32) : Bool := decide ((a - b).toInt ≥ 0)

/-- A cumulative credit of 16 bits on top of the one known. -/
def creditAfter (old c : Nat) : Nat :=
  let d := (c + 2 ^ 16 - old % 2 ^ 16) % 2 ^ 16
  if d < 2 ^ 15 then old + d else old

/-- The acknowledgement `n` (next number expected by the partner) frees the replay buffer (R349) and ends the CHN_SENDs
whose last flit it covers (R372). -/
def ackTo (s : State) (p : Nat) (n : BitVec 32) : State :=
  let q := s.port p
  let rest := q.outst.filter fun f => seqGe f.1 n
  if !seqGe q.txSeq n || rest.length = q.outst.length then s
  else
    let s := s.setPort p { q with outst := rest, tries := 0, ackAt := s.island }
    let done : Nat × Nat × BitVec 16 × Option (BitVec 32) → Bool := fun x =>
      x.2.1 == p && (match x.2.2.2 with | some l => !seqGe l n | none => false)
    let gone := s.chain.sends.filter done
    let s := { s with chain := { s.chain with sends := s.chain.sends.filter fun x => !done x } }
    endSends s (gone.map (·.1)) stComplete

/-- An LCTRL flit with acknowledgement and credits (R349, R350): waiting messages may start. -/
def doAckCreditRx (p : Fin 2) (ack : BitVec 32) (credits : BitVec 64) (s : State) : State :=
  let p := p.val
  if !chainUp s p then s
  else
    let s := ackTo s p ack
    let q := s.port p
    let cs := (List.range 4).map fun c => creditAfter (q.credit.getD c 0) (bitsOf credits.toNat (16 * c) 16)
    nextTransfers (pump 129 (s.setPort p { q with credit := cs }) p)
def execAckCreditRx (p : Fin 2) (ack : BitVec 32) (credits : BitVec 64) (s : State) : Host.Outcome State Fault Refusal :=
  .next (doAckCreditRx p ack credits s)

/-- 200 ns after the last acknowledgement, with accepted flits not acknowledged (R349). -/
def doAckDue (p : Fin 2) (s : State) : State :=
  let q := s.port p.val
  if chainUp s p.val && q.rxSeq != q.acked && decide (q.sentAt + 200 ≤ s.island) then sendAck s p.val else s
def execAckDue (p : Fin 2) (s : State) : Host.Outcome State Fault Refusal := .next (doAckDue p s)

/-! ### Delivery and forwarding -/

/-- A message accepted on port `p`, flit by flit (R349); with `free` its flits stand in no receive buffer (R350). -/
def account (s : State) (p : Nat) (m : Msg) (free : Bool := true) : State := s.each m.flits fun s _ => takeFlit m.cls free p s

/-- Whether a copy is later than the last one delivered of its origin and class (R359). -/
def isLater (s : State) (m : Msg) : Bool :=
  match (s.peer m.origin.toNat).last.find? fun x => x.1 == m.cls with
  | none => true
  | some x => decide ((m.seq - x.2).toInt > 0)

/-- Notes the last message delivered of an origin and class. -/
def noteLast (s : State) (m : Msg) : State :=
  let r := s.peer m.origin.toNat
  s.setPeer m.origin.toNat { r with last := (r.last.filter fun x => x.1 != m.cls) ++ [(m.cls, m.seq)] }

/-- Whether a message's type is reserved (Table 13.5). -/
def reservedKind (m : Msg) : Bool := m.kind == 0 || decide (10 < m.kind.toNat)

/-- The end of a message's way (R356, R358, R359): the state after its arrival, and whether it is one for this unit. -/
def arrive (s : State) (p : Nat) (m : Msg) : State × Bool :=
  if !chainUp s p then (s, false)
  else
    let s := account s p m
    if m.origin.toNat = s.physAddr && s.bit CHN_ADDR 3 then (s.inc CHN_RET, false)
    else if m.bcast then
      if m.kind = 2 then (s, true)
      else if isLater s m then (noteLast s m, true) else (s, false)
    else if m.epoch.toNat != s.fld CHN_ADDR 4 4 then (s.inc CHN_STALE, false)
    else (s, s.bit CHN_ADDR 3 && m.dst.toNat == s.physAddr)

/-- The state after a message's arrival, and whether it is delivered here: one of a reserved type is dropped and counted (R360). -/
def deliver (s : State) (p : Nat) (m : Msg) : State × Bool :=
  let x := arrive s p m
  if x.2 && reservedKind m then (x.1.inc CHN_NODEST, false) else x

/-- A header field of a message replaced: `n` bytes at byte `i`. -/
def setH (m : Msg) (i n v : Nat) : Msg :=
  { m with hdr := BitVec.ofNat 160 (m.hdr.toNat - hput i n (m.hN i n) + hput i n v) }

/-- A message goes onward by the other port (R352, R353, R356, R358, R361): `residence` is the time it spent here, in
2⁻¹⁶ ns between the two PCS timestamps, which a TIME message adds to its correction, its egress later by TXLAT and its
ingress earlier by RXLAT (R76), with the delay measured on the port it arrived on. -/
def doMessageForward (p : Fin 2) (m : Msg) (residence : BitVec 64) (s : State) : State :=
  let p := p.val
  if !chainUp s p || m.kind = 1 || (!m.bcast && m.dst.toNat = s.physAddr && s.bit CHN_ADDR 3) then s
  else
    let ret := (m.origin.toNat = s.physAddr && s.bit CHN_ADDR 3) || decide (m.hops.toNat + 1 ≥ 7)
    let stale := !m.bcast && m.epoch.toNat != s.fld CHN_ADDR 4 4
    let s := if m.bcast then s else account s p m (ret || stale)
    if ret then s.inc CHN_RET
    else if stale then s.inc CHN_STALE
    else
      let m := { m with hops := m.hops + 1 }
      let m := if m.kind = 2 then
          setH m 18 8 (unsigned 64 (signed 64 (m.hN 18 8) + (residence.toNat : Int) + ((txLat s (1 - p) + rxLat s p : Nat) : Int) * 256
            + (s.port p).delay * 256)) else m
      portSend s (1 - p) (if m.bcast then .passed else .held) m
def execMessageForward (p : Fin 2) (m : Msg) (residence : BitVec 64) (s : State) : Host.Outcome State Fault Refusal :=
  .next (doMessageForward p m residence s)

/-- A CUT flit ends the partial message of its class (R351), here and downstream. -/
def doCutRx (p : Fin 2) (cls : Fin 4) (s : State) : State :=
  let p := p.val
  if !chainUp s p then s
  else cutClass (raiseKey (s.inc (CHN_P_CUT p)) p evChnCut 1 39 31 [(p, 4)]) p cls.val
def execCutRx (p : Fin 2) (cls : Fin 4) (s : State) : Host.Outcome State Fault Refusal := .next (doCutRx p cls s)

/-! ### Link delay and time -/

/-- Whether a period in ns has passed since something was last sent, if it ever was. -/
def dueAgain (s : State) (last : Option Nat) (period : Nat) : Bool :=
  match last with | some t => decide (t + period ≤ s.island) | none => true

/-- A delay request leaves, every 1 ms (R362). -/
def doPdlyReqSend (p : Fin 2) (s : State) : State :=
  let p := p.val
  if !chainUp s p || !dueAgain s (s.port p).pdlyAt 1000000 then s
  else
    let q := s.port p
    lctrl (s.setPort p { q with reqAt := some s.tbase.val, pdlyOut := q.pdlyOut + 1, pdlyAt := some s.island }) p 2 0
def execPdlyReqSend (p : Fin 2) (s : State) : Host.Outcome State Fault Refusal := .next (doPdlyReqSend p s)

/-- A delay request is answered with the turnaround between the package balls (R362, R76). -/
def doPdlyReqRx (p : Fin 2) (turnaround : BitVec 32) (s : State) : State :=
  let p := p.val
  if chainUp s p then lctrl s p 3 (turnaround.toNat + txLat s p + rxLat s p) else s
def execPdlyReqRx (p : Fin 2) (turnaround : BitVec 32) (s : State) : Host.Outcome State Fault Refusal :=
  .next (doPdlyReqRx p turnaround s)

/-- The asymmetry of a chain port in 1/256 ns (R75, R78). -/
def chainAsym (s : State) (p : Nat) : Int := if s.ctl.core then signed 32 (s.reg (TB_PORT_ASYM (8 + p))).toNat else 0

/-- A delay response (R362): `elapsed` is t4 − t1 at the PCS, in 1/256 ns. -/
def doPdlyRespRx (p : Fin 2) (turnaround elapsed : BitVec 32) (s : State) : State :=
  let p := p.val
  let q := s.port p
  if !chainUp s p || q.reqAt.isNone then s
  else
    let d : Int := ((elapsed.toNat : Int) - (txLat s p : Int) - (rxLat s p : Int) - (turnaround.toNat : Int)) / 2 + chainAsym s p
    s.setPort p { q with delay := d, delayAt := some s.island, reqAt := none }
def execPdlyRespRx (p : Fin 2) (turnaround elapsed : BitVec 32) (s : State) : Host.Outcome State Fault Refusal :=
  .next (doPdlyRespRx p turnaround elapsed s)

/-- Whether this unit is the time root (R361, Table 3.15). -/
def timeRoot (s : State) : Bool := s.ctl.core && s.bit TB_CHN_CTRL 0 && s.bit TB_CHN_CTRL 1

/-- The root sends TIME out of both ports at each whole millisecond of its timebase (R361). -/
def doTimeSend (s : State) : State :=
  let ms := s.now / 1000000
  if s.ctl.ring && timeRoot s && s.chain.timeMs != some ms then
    broadcast { s with chain := { s.chain with timeMs := some ms } } 2 0 []
  else s
def execTimeSend (s : State) : Host.Outcome State Fault Refusal := .next (doTimeSend s)

/-- The timebase at which the delay used in a measurement on port `p` was measured (R362). -/
def delayTime (s : State) (p : Nat) : BitVec 64 :=
  BitVec.ofNat 64 s.now - (match (s.port p).delayAt with | some t => BitVec.ofNat 64 (s.island - t) | none => 0)

/-- Posts a measurement of root time (R78): offset in ns, upstream delay, hops, one result record. Its age is that of the delay it
uses (R362). -/
def postTime (s : State) (p hops : Nat) (offset : Int) : State :=
  let s := s.setPair TB_CHN_OFFSET_LO TB_CHN_OFFSET_HI (unsigned 64 offset)
  let s := s.setReg TB_CHN_DELAY (BitVec.ofInt 32 (s.port p).delay)
  let s := s.resultDone TB_CHN_MEAS_STATUS hops
  evcPulse { s with tbase := { s.tbase with measAt := some (delayTime s p) } } 45

/-- A TIME message arrives (R361, R78, R359, R385): the ring island keeps the chain time hold; the unit that follows this
port posts its offset. `ingress` is the timebase at the PCS, in 2⁻⁶⁴ ns. -/
def doTimeRx (p : Fin 2) (m : Msg) (ingress : BitVec 128) (s : State) : State :=
  let p := p.val
  let x := deliver s p m
  let s := x.1
  if !x.2 || m.kind != 2 || !m.bcast then s
  else
    let root : Int := (m.hN 8 8 : Int) * 2 ^ 16 + (m.hN 16 2 : Int) + signed 64 (m.hN 18 8) + (s.port p).delay * 256
    let s := { s with chain := { s.chain with hold := some (BitVec.ofInt 128 (root * 2 ^ 48), s.island) } }
    if s.ctl.core && s.bit TB_CHN_CTRL 0 && !s.bit TB_CHN_CTRL 1 && s.fld TB_CHN_CTRL 2 1 == p then
      let here : Int := ((ingress.toNat / 2 ^ 48 : Nat) : Int) - (rxLat s p * 256 : Nat)
      postTime s p (m.hops.toNat + 1) ((here - root) / 2 ^ 16)
    else s
def execTimeRx (p : Fin 2) (m : Msg) (ingress : BitVec 128) (s : State) : Host.Outcome State Fault Refusal :=
  .next (doTimeRx p m ingress s)

/-! ### The map of logical IDs (R357) -/

/-- Whether a peer's HELLO has arrived within CHN_HELLO_TO.ms. -/
def isFresh (s : State) (r : Peer) : Bool :=
  match r.heard with
  | some t => decide (s.island < t + 1000000 * s.fld CHN_HELLO_TO 0 10)
  | none => false

/-- Whether a peer was heard of late under this unit's epoch. -/
def isPresent (s : State) (r : Peer) : Bool := isFresh s r && (!s.bit CHN_ADDR 3 || r.epoch == s.fld CHN_ADDR 4 4)

/-- The addresses that hold a logical ID: this unit's own and those of peers present; and those known from before (log 162). -/
def holdersOf (s : State) (id : Nat) : List Nat × List Nat :=
  let own := if s.bit CHN_ADDR 3 && s.holder && s.logicalId == id then [s.physAddr] else []
  let ps := s.chain.peers.filter fun x => x.2.holder && x.2.logical == id && !(s.bit CHN_ADDR 3 && x.1 == s.physAddr)
  (own ++ (ps.filter fun x => isPresent s x.2).map (·.1), (ps.filter fun x => !isPresent s x.2).map (·.1))

/-- CHN_MAP and the conflicts follow what the unit knows (R357). Two holders conflict where both were heard of late; a
silent one stays in the map until another holds its ID. A conflict after a swap that gave this unit the ID is a split
(R394). -/
def mapUpdate (s : State) : State :=
  s.each 8 fun s id =>
    let hs := holdersOf s id
    let s := match hs.1 ++ hs.2 with
      | a :: _ => s.setFld CHN_MAP (4 * id) 4 (a + 8)
      | [] => s.setFld CHN_MAP (4 * id) 4 0
    let was := bitOf s.chain.conflict.toNat id
    match hs.1 with
    | a :: b :: _ =>
      if was then s
      else
        let s := { s with chain := { s.chain with conflict := s.chain.conflict ||| BitVec.ofNat 8 (2 ^ id) } }
        let s := raiseKey s id evLogicalConflict 2 39 31 [(id, 3), (a, 3), (b, 3)]
        if s.rdn.took && s.holder && s.logicalId == id then raise { s with rdn := { s.rdn with took := false } } evSwapSplit 2 40 31 [] else s
    | _ => { s with chain := { s.chain with conflict := s.chain.conflict &&& ~~~ BitVec.ofNat 8 (2 ^ id) } }

/-- Whether another unit holds the logical ID, as CHN_MAP shows it (R377). -/
def heldElsewhere (s : State) (id : Nat) : Bool :=
  s.bit CHN_MAP (4 * id + 3) && (!s.bit CHN_ADDR 3 || s.fld CHN_MAP (4 * id) 3 != s.physAddr)

/-- A write of CHN_LOGICAL (R357, R377). -/
def chnLogical (a : Access) (v : Word) (s : State) : State :=
  if bitOf v.toNat 3 && heldElsewhere s (bitsOf v.toNat 0 3) then accessEv s evAccessState a CHN_LOGICAL
  else mapUpdate (plainWrite s CHN_LOGICAL v)

def doChnLogicalWrite (a : Access) (v : Word) (s : State) : State := regAccess s a CHN_LOGICAL v (chnLogical a v)
def execChnLogicalWrite (a : Access) (v : BitVec 32) (s : State) : Host.Outcome State Fault Refusal := .next (doChnLogicalWrite a v s)

/-- A unit with an address sends HELLO every 1 ms, whatever its mode (R369, Table 13.5). -/
def doHelloSend (s : State) : State :=
  if !s.ctl.ring || !s.bit CHN_ADDR 3 || !dueAgain s s.chain.helloAt 1000000 then s
  else
    let s := broadcast s 5 (hput 8 1 s.logicalId + hput 9 1 (Bool.nat s.holder) + hput 10 1 s.ctl.mode.code + hput 12 4 s.chain.hello.toNat) []
    { s with chain := { s.chain with hello := s.chain.hello + 1, helloAt := some s.island } }
def execHelloSend (s : State) : Host.Outcome State Fault Refusal := .next (doHelloSend s)

/-! ### Enumeration (R354, R355) and routes (R358) -/

/-- The route bits of a closed ring of `n` units: the shorter direction, east on a tie. -/
def closedRoute (own n : Nat) : Nat :=
  (List.range 8).foldl (fun (v a : Nat) =>
    let east := (a + n - own) % n
    if a < n ∧ n < 2 * east then v + 2 ^ a else v) 0

/-- Routes the addresses this unit heard of, by the ports their HELLOs came in on, an address for which both did
meaning a closed ring (log 40). -/
def loadRoute (s : State) : State :=
  let ps := s.chain.peers.filter fun x => x.2.ports != 0
  let n := ps.foldl (fun n x => Nat.max n (x.1 + 1)) (s.physAddr + 1)
  let v := if ps.any fun x => x.2.ports == 3 then closedRoute s.physAddr n
           else ps.foldl (fun v x => if x.2.ports == 1 then v + 2 ^ x.1 else v) 0
  { s with chain := { s.chain with toRoute := false } }.setFld CHN_ROUTE 0 8 v

/-- The unit takes an address and an epoch: what it delivered under earlier numbers counts no more. -/
def takeAddr (s : State) (a epoch : Nat) : State :=
  let s := s.setReg CHN_ADDR (BitVec.ofNat 32 (a + 8 + 16 * epoch))
  { s with chain := { s.chain with
      peers := tnorm (fun _ => {}) (s.chain.peers.map fun x => (x.1, { x.2 with last := [], ports := 0 }))
      enumAt := s.island, toRoute := true } }

/-- Sends an ENUM message by a port (Table 13.5). -/
def sendEnum (s : State) (p a : Nat) (west : Bool) (floor : Nat) : State :=
  let x := newMsg s 1 0 false (hput 8 1 a + hput 9 1 (Bool.nat west) + hput 10 1 floor) []
  portSend { x.1 with chain := { x.1.chain with enumAt := s.island } } p .own x.2

/-- A write of CHN_CMD (R354). -/
def chnCmd (a : Access) (v : Word) (s : State) : State :=
  if !bitOf v.toNat 0 then s
  else if !bitOf s.straps.toNat 3 then accessEv s evAccessState a CHN_CMD
  else
    let s := takeAddr s 0 ((s.fld CHN_ADDR 4 4 + 1) % 16)
    let s := (s.setReg CHN_ENUM_STATUS (BitVec.ofNat 32 (s.fld CHN_ENUM_STATUS 16 16 * 2 ^ 16))).resultOpen CHN_ENUM_STATUS
    mapUpdate (sendEnum { s with chain := { s.chain with enumOn := true, west := false, eastN := 0 } } 1 1 false 0)

def doChnEnum (a : Access) (v : Word) (s : State) : State := regAccess s a CHN_CMD v (chnCmd a v)
def execChnEnum (a : Access) (v : BitVec 32) (s : State) : Host.Outcome State Fault Refusal := .next (doChnEnum a v s)

/-- An enumeration ends at the head (R354, R355, R358): the result record, the routes. -/
def enumDone (s : State) (isOpen ovf : Bool) (units east route : Nat) : State :=
  let s := { s with chain := { s.chain with enumOn := false, toRoute := false } }
  let s := s.resultDone CHN_ENUM_STATUS (Bool.nat isOpen + Bool.nat ovf * 2 + units % 16 * 4 + east % 8 * 64)
  raiseKey (s.setFld CHN_ROUTE 0 8 route) 0 evEnumDone 0 39 31 [(0, 3)]

/-- A unit that takes no address (R355). -/
def enumRefused (s : State) (a : Nat) : State :=
  raiseKey (s.setBit CHN_ENUM_STATUS 2 true) (a % 8) evEnumOverflow 2 39 31 [(a, 3)]

/-- The message goes on with the next address. -/
def enumOn (s : State) (p : Nat) (m : Msg) (a : Nat) : State :=
  portSend s (1 - p) .passed { setH m 8 1 a with hops := m.hops + 1 }

/-- An ENUM arrives (R354, R355). -/
def doEnumRx (p : Fin 2) (m : Msg) (s : State) : State :=
  let p := p.val
  if !chainUp s p || m.kind != 1 then s
  else
    let s := account s p m
    let a := m.h8 8
    let west := bitOf (m.h8 9) 0
    if bitOf s.straps.toNat 3 && m.epoch.toNat == s.fld CHN_ADDR 4 4 && m.origin = 0 then
      if !west && p = 0 && s.chain.enumOn && !s.chain.west then enumDone s false (decide (8 < a)) a (a - 1) (closedRoute 0 (Nat.max a 1)) else s
    else if !west && p = 0 then
      let s := if a < 8 then mapUpdate (takeAddr s a m.epoch.toNat) else enumRefused s a
      if (s.port 1).state = .up then enumOn s p m (a + 1) else s
    else if west && p = 1 then
      if m.h8 10 ≤ a then
        let s := mapUpdate (takeAddr s a m.epoch.toNat)
        if (s.port 0).state = .up then enumOn s p m (a - 1) else s
      else enumRefused s a
    else s
def execEnumRx (p : Fin 2) (m : Msg) (s : State) : Host.Outcome State Fault Refusal := .next (doEnumRx p m s)

/-- The addresses heard of since the last ENUM left, in HELLOs of the epoch it carried: units it has not reached speak under the epoch
before (R354, R355; log 162). -/
def heardSince (s : State) : List Nat :=
  (s.chain.peers.filter fun x => match x.2.heard with
    | some t => decide (s.chain.enumAt ≤ t) && x.1 != 0 && x.2.epoch == s.fld CHN_ADDR 4 4
    | none => false).map (·.1)

/-- 2 ms after an ENUM left (R355): the first time the westbound ENUM follows, the second time the open ring's result. -/
def doEnumTimeout (s : State) : State :=
  let c := s.chain
  if !s.ctl.ring || !c.enumOn || decide (s.island < c.enumAt + 2000000) then s
  else if !c.west then
    let e := (heardSince s).foldl Nat.max 0
    sendEnum { s with chain := { s.chain with west := true, eastN := e } } 0 7 true (e + 1)
  else
    let w := (heardSince s).filter fun a => decide (c.eastN < a)
    enumDone s true false (1 + c.eastN + w.length) c.eastN (w.foldl (fun v a => v + 2 ^ a) 0)
def execEnumTimeout (s : State) : Host.Outcome State Fault Refusal := .next (doEnumTimeout s)

/-- A HELLO arrives (R357, R369). The ports its copies come in on tell the routes to its origin. -/
def doHelloRx (p : Fin 2) (m : Msg) (s : State) : State :=
  let p := p.val
  let x := deliver s p m
  let s := x.1
  let o := m.origin.toNat
  if m.kind != 5 || !chainUp s p || (o = s.physAddr && s.bit CHN_ADDR 3) then s
  else
    let s := s.setPeer o { s.peer o with ports := (s.peer o).ports ||| BitVec.ofNat 2 (2 ^ p) }
    if !x.2 then s
    else
      let back : Bool := s.bit CHN_HELLO_LOST o && (s.peer o).heard.isNone
      let s := s.setPeer o { s.peer o with logical := m.h8 8 % 8, holder := bitOf (m.h8 9) 0, mode := m.h8 10 % 8, heard := some s.island, epoch := m.epoch.toNat }
      let s := if back then raiseKey s o evHelloResumed 0 39 31 [(o, 3)] else s
      let s := mapUpdate s
      if s.chain.toRoute && decide (s.chain.enumAt + 5000000 ≤ s.island) && !s.chain.enumOn then loadRoute s else s
def execHelloRx (p : Fin 2) (m : Msg) (s : State) : Host.Outcome State Fault Refusal := .next (doHelloRx p m s)

/-- No HELLO from a watched address for CHN_HELLO_TO.ms (R369). -/
def doHelloTimeout (addr : Fin 8) (s : State) : State :=
  let a := addr.val
  let r := s.peer a
  if !s.ctl.ring || !s.bit CHN_HELLO_WATCH a || s.bit CHN_HELLO_LOST a || isFresh s r then s
  else
    let s := (s.setBit CHN_HELLO_LOST a true).setPeer a { r with heard := none }
    evcInput (raiseKey s a evHelloTimeout 1 39 31 [(a, 3), (r.logical, 3)]) 55 true
def execHelloTimeout (addr : Fin 8) (s : State) : Host.Outcome State Fault Refusal := .next (doHelloTimeout addr s)

/-! ### Seals (R363) -/

/-- Whether a message's boundary is the one that comes next for a group: within half the nominal frame period. -/
def sameBoundary (s : State) (g b : Nat) : Bool :=
  let t := sgTg s g
  let d : Int := timeDiff (BitVec.ofNat 64 b) (BitVec.ofNat 64 (nextBoundary s t))
  decide (2 * d.natAbs < tgNominal (s.tg t))

/-- A READY arrives at the master's seal logic (R207, R363). -/
def doReadyRx (p : Fin 2) (m : Msg) (s : State) : State :=
  let x := deliver s p.val m
  let s := x.1
  let g := m.h8 8
  if !x.2 || m.kind != 3 || !s.ctl.core || decide (15 < g) || !sgOn s g || !sgMaster s g || (s.grp g).pastD || !sameBoundary s g (m.hN 16 8) then s
  else takeReport s g (m.h8 9 % 8) (BitVec.ofNat 32 (m.hN 12 4)) (m.h8 10)
def execReadyRx (p : Fin 2) (m : Msg) (s : State) : Host.Outcome State Fault Refusal := .next (doReadyRx p m s)

/-- Whether a message's boundary is the one that passed last for a group. -/
def lastBoundary (s : State) (g b : Nat) : Bool :=
  let t := s.tg (sgTg s g)
  let d : Int := timeDiff (BitVec.ofNat 64 b) (BitVec.ofNat 64 t.boundary)
  decide (2 * d.natAbs < tgNominal t)

/-- A boundary counted as held was not one: its COMMIT came late (R209, R210). -/
def unhold (s : State) (g : Nat) : State :=
  let n := s.fld (CMP_SEAL_HELD g) 0 16
  let s := s.setGrp g { s.grp g with heldAt := false }
  if 0 < n ∧ n < 0xFFFF then s.setFld (CMP_SEAL_HELD g) 0 16 (n - 1) else s

/-- A COMMIT came after instant C (R210): its sets are armed for the next boundary that has its C ahead. -/
def sealLate (s : State) (g : Nat) (k : BitVec 32) : State :=
  let r := s.grp g
  let s := s.setGrp g (if r.pastC then { r with lateM := some k } else { r with commitM := some k })
  raise (s.inc (CMP_SEAL_SPLIT g)) evSealSplit 2 14 (sgOwner s g) [(g, 4), (k.toNat, 32)]

/-- A COMMIT arrives at a member (R207, R363): before C it is armed at C; after C, and after B, at the next boundary, as
SEAL_SPLIT (R210). One whose sets took effect already is an old message. -/
def doCommitRx (p : Fin 2) (m : Msg) (s : State) : State :=
  let x := deliver s p.val m
  let s := x.1
  let g := m.h8 8
  if !x.2 || m.kind != 4 || !s.ctl.core || decide (15 < g) || !sgOn s g || !sgMember s g then s
  else
    let k := BitVec.ofNat 32 (m.hN 12 4)
    if sameBoundary s g (m.hN 16 8) then
      if !(s.grp g).pastC then s.setGrp g { s.grp g with commitM := some k } else sealLate s g k
    else if lastBoundary s g (m.hN 16 8) && decide (0 < sealDiff k (sgDone s g)) then
      sealLate (if (s.grp g).heldAt then unhold s g else s) g k
    else s
def execCommitRx (p : Fin 2) (m : Msg) (s : State) : Host.Outcome State Fault Refusal := .next (doCommitRx p m s)

/-! ### CTRL messages (R372) -/

/-- The bytes 4–507 of a CTRL ring entry. -/
def ctrlEntry (s : State) (m : Msg) : Bytes :=
  let len := m.hN 10 2
  [BitVec.ofNat 8 (s.peer m.origin.toNat).logical, BitVec.ofNat 8 (m.h8 9), 0, 0] ++ leBytes 4 len ++ leBytes 4 0
    ++ leBytes 8 s.now ++ leBytes 8 0 ++ sliceB (m.body.take len) 0 256 ++ List.replicate 220 0

/-- A CTRL message arrives: an entry of its partition's ring, in the order of R261; RDN consumes partition 31 (R395). -/
def doCtrlRx (p : Fin 2) (m : Msg) (s : State) : State :=
  let x := deliver s p.val m
  let s := x.1
  let d := m.h8 8
  if !x.2 || m.kind != 7 || d = 31 then s
  else if !s.ctl.core || decide (15 < d) then s.inc CHN_NODEST
  else match (s.part d).ctrlRing with
    | none => s.inc CHN_NODEST
    | some (host, k, base, seq) =>
      let n := seq + 1
      let a := base.toNat + (n - 1).toNat % 2 ^ k * 512
      let put := fun (s : State) (a : Nat) (bs : Bytes) => (jobWrite s 39 d host a bs).1
      let e := ctrlEntry s m
      let s := s.setPart d { s.part d with ctrlRing := some (host, k, base, n) }
      put (put (put (put s (a + 508) (leBytes 4 0)) (a + 4) e) a (leBytes 4 n.toNat)) (a + 508) (leBytes 4 n.toNat)
def execCtrlRx (p : Fin 2) (m : Msg) (s : State) : Host.Outcome State Fault Refusal := .next (doCtrlRx p m s)

/-! ### CHN commands (R372, R373) -/

/-- Whether no port is UP. -/
def noPort (s : State) : Bool := (s.port 0).state != .up && (s.port 1).state != .up

/-- The slot checks of a command on a slot of partition `o` (`on`: enabled): disabling another's, enabling a taken one. -/
def slotTaken (enable on : Bool) (o p : Nat) : Bool × Bool := (!enable && on && o != p, enable && on)

/-- CHN_TX_STREAM (R364). -/
def chnTxStream (q : Req) (s : State) : State × Nat × BitVec 128 :=
  let p := q.part.val
  let i := q.u8 16
  let t := s.txStream i
  let en := q.bit 17 0
  let enc := q.bit 17 1
  let src := q.u8 18
  let tk := slotTaken en t.enabled t.part p
  match firstFail [
      (decide (31 < i) || (en && (decide (7 < q.u8 19) || (enc && decide (31 < src)))), stBadRange),
      (tk.1 || (en && !(if enc then ownsSess s p src else ownsCtx s p src)), stNotOwner),
      (tk.2, stSlotBusy), (en && (unitOf s (q.u8 19)).isNone, stNoUnit), (en && noPort s, stNoLink)] with
  | some st => (s, st, 0)
  | none =>
    (s.setTxStream i (if en then { enabled := true, part := p, alt := enc, source := src, dst := q.u8 19, target := q.u8 20,
                                   nMsgs := t.nMsgs, nPassed := t.nPassed }
                      else { nMsgs := t.nMsgs, nPassed := t.nPassed }), stComplete, 0)

def doChnTxStream (q : Req) (s : State) : State :=
  soileNow s q 0x1001 (bodyMask [(16, 0, 8), (17, 0, 2), (18, 0, 24)]) true (chnTxStream q)
def execChnTxStream (q : Req) (s : State) : Host.Outcome State Fault Refusal := .next (doChnTxStream q s)

/-- CHN_RX_STREAM (R365): binds an open, owned context that no flow names. -/
def chnRxStream (q : Req) (s : State) : State × Nat × BitVec 128 :=
  let p := q.part.val
  let i := q.u8 16
  let c := s.ctx i
  let en := q.bit 17 0
  match firstFail [
      (en && (decide (7 < q.u8 18) || decide (31 < q.u8 19) || q.u40 24 % 4096 != 0 || q.u32 32 % 4096 != 0 || q.u32 32 == 0
        || decide (2 ^ 40 < q.u40 24 + q.u32 32) || c.state == .closed), stBadRange),
      (!ownsCtx s p i, stNotOwner),
      (en && (c.rx.isSome || s.flows.any fun f => f.2.ctx == some i), stCtxBusy)] with
  | some st => (s, st, 0)
  | none =>
    (s.setCtx i { c with rx := if en then some (q.u8 18, q.u8 19, q.u40 24, q.u32 32) else none, rxPart := if en then p else 0,
                         rxDisc := false, rxBuf := none }, stComplete, 0)

def doChnRxStream (q : Req) (s : State) : State :=
  soileNow s q 0x1002 (bodyMask [(16, 0, 8), (17, 0, 1), (18, 0, 16), (24, 0, 40), (32, 0, 32)]) true (chnRxStream q)
def execChnRxStream (q : Req) (s : State) : Host.Outcome State Fault Refusal := .next (doChnRxStream q s)

/-- CHN_TX_SURF (R366). -/
def chnTxSurf (q : Req) (s : State) : State × Nat × BitVec 128 :=
  let p := q.part.val
  let i := q.u8 16
  let t := s.txSurf i
  let en := q.bit 17 0
  let fol := q.bit 17 1
  let packed := q.bit 17 2
  let src := q.u16 22
  let tk := slotTaken en t.enabled t.part p
  match firstFail [
      (decide (15 < i) || (en && ((packed && (q.u8 18 == 0 || decide (9 < q.u8 18))) || decide (7 < q.u8 19) || decide (15 < q.u8 20)
        || decide ((if fol then 127 else 4095) < src))), stBadRange),
      (tk.1 || (en && !(if fol then ownsFollow s p src else ownsSurf s p src)), stNotOwner),
      (en && !fol && !(s.surf src).reg, stNotTracked),
      (tk.2, stSlotBusy), (en && (unitOf s (q.u8 19)).isNone, stNoUnit), (en && noPort s, stNoLink)] with
  | some st => (s, st, 0)
  | none =>
    let s := if en then s else { s with bands := s.bands.filter fun b => b.rx || b.slot != i }
    (s.setTxSurf i (if en then { enabled := true, part := p, alt := fol, source := src, dst := q.u8 19, target := q.u8 20,
                                 level := if packed then q.u8 18 else 0, nMsgs := t.nMsgs, nPassed := t.nPassed }
                    else { nMsgs := t.nMsgs, nPassed := t.nPassed }), stComplete, 0)

def doChnTxSurf (q : Req) (s : State) : State :=
  soileNow s q 0x1003 (bodyMask [(16, 0, 8), (17, 0, 3), (18, 0, 24), (22, 0, 16)]) true (chnTxSurf q)
def execChnTxSurf (q : Req) (s : State) : Host.Outcome State Fault Refusal := .next (doChnTxSurf q s)

/-- CHN_RX_SURF (R367). -/
def chnRxSurf (q : Req) (s : State) : State × Nat × BitVec 128 :=
  let p := q.part.val
  let i := q.u8 16
  let r := s.rxSurf i
  let en := q.bit 17 0
  let m := q.u8 18
  let ts := upFrom (q.u16 22) m
  let tk := slotTaken en r.enabled r.part p
  match firstFail [
      (decide (15 < i) || (en && (decide (m < 2) || decide (4 < m) || decide (7 < q.u8 19) || decide (15 < q.u8 20)
        || decide (4096 < q.u16 22 + m) || (q.bit 17 1 && q.u64 24 % 8 != 0))), stBadRange),
      (tk.1 || (en && !ts.all (ownsSurf s p)), stNotOwner),
      (en && !ts.all fun n => (s.surf n).reg, stNotTracked), (tk.2, stSlotBusy)] with
  | some st => (s, st, 0)
  | none =>
    (s.setRxSurf i (if en then { enabled := true, part := p, m := m, origin := q.u8 19, slot := q.u8 20, first := q.u16 22,
                                 fenceOn := q.bit 17 1, fenceHost := q.bit 17 2, fenceAt := BitVec.ofNat 64 (q.u64 24), nMsgs := r.nMsgs }
                    else { nMsgs := r.nMsgs }), stComplete, 0)

def doChnRxSurf (q : Req) (s : State) : State :=
  soileNow s q 0x1004 (bodyMask [(16, 0, 8), (17, 0, 3), (18, 0, 24), (22, 0, 80)]) true (chnRxSurf q)
def execChnRxSurf (q : Req) (s : State) : Host.Outcome State Fault Refusal := .next (doChnRxSurf q s)

/-- The ports by which a CHN_SEND leaves, both for a broadcast, the routed one to a unit, as far as they are UP. -/
def sendPorts (s : State) (unit : Option Nat) : List Nat :=
  let ps : List Nat := match unit with | some a => [if s.bit CHN_ROUTE a then 0 else 1] | none => [0, 1]
  ps.filter fun p => (s.port p).state == .up

/-- CHN_SEND (R372): it completes when the first hop has acknowledged its last flit. To an ID that no unit holds, or two hold, it is not
sent and counted (R357); by a routed port that is not UP it is dropped and counted (R358), and the job ends (log 161). -/
def doChnSend (q : Req) (s : State) : State :=
  soile s q 0x1005 (bodyMask [(16, 0, 32), (24, 0, 64)]) true fun t id =>
    let s0 := s
    let s := t
    let p := q.part.val
    let dst := q.u8 16
    let len := q.u16 18
    let unit := unitOf s dst
    let bad := (decide (7 < dst) && dst != 255) || decide (15 < q.u8 17) || len == 0 || decide (256 < len)
    let lost := dst != 255 && unit.isNone
    guardJob (if !bad && lost then s.inc CHN_NODEST else s) id [(bad, stBadRange), (lost, stNoUnit), (noPort s, stNoLink)] fun s =>
        let way := sendPorts s (if dst = 255 then none else unit)
        let r := hostRead s p (q.u64 24) len q.host
        if r.2.1 = stWaits then s0
        else if r.2.1 != stComplete then finish r.1 id r.2.1
        else
          let s := r.1
          let n := s.chain.seqs.getD 0 0
          let s := { s with chain := { s.chain with sends := s.chain.sends ++ way.map fun o => (id, o, n, none) } }
          let hdr := hput 8 1 (q.u8 17) + hput 9 1 p + hput 10 2 len
          let s := if dst = 255 then broadcast s 7 hdr r.2.2 else sendTo s (unit.getD 0) 7 hdr r.2.2
          if way.isEmpty then finish s id lostSend else s

def execChnSend (q : Req) (s : State) : Host.Outcome State Fault Refusal := .next (doChnSend q s)

/-- CHN_RXRING (R372). -/
def chnRxring (q : Req) (s : State) : State × Nat × BitVec 128 :=
  let p := q.part.val
  let en := q.bit 16 0
  if en && (decide (q.u8 17 < 4) || decide (10 < q.u8 17) || q.u64 24 % 4096 != 0) then (s, stBadRange, 0)
  else
    (s.setPart p { s.part p with ctrlRing := if en then some (q.bit 16 1, q.u8 17, BitVec.ofNat 64 (q.u64 24), 0) else none }, stComplete, 0)

def doChnRxring (q : Req) (s : State) : State :=
  soileNow s q 0x1006 (bodyMask [(16, 0, 2), (17, 0, 8), (24, 0, 64)]) true (chnRxring q)
def execChnRxring (q : Req) (s : State) : Host.Outcome State Fault Refusal := .next (doChnRxring q s)

end Sys2Proof.Machine
end

