-- ==== Sys2Proof/Machine/GateEntries.lean ====
section
/-!
DEFINITION. The entries of the access gates (R307–R310, R315, R518): their keys and control words, staging, hold, apply and
lock with their result records, and the procedure by which the boot controller sets an entry (R317, R383).
-/

namespace Sys2Proof.Machine

/-- The key of a gate entry: slot `s`, or 70 + 32 m + r for region r of memory gate m. -/
def gateKey : GateEntry → Nat
  | .slot i => i.val
  | .region m r => 70 + 32 * m.val + r.val

/-- The control word of a key. -/
def gateCtrlAddr (k : Nat) : Nat := if k < 70 then GATE_PS_CTRL k else MG_CTRL ((k - 70) / 32) ((k - 70) % 32)

/-- Whether an entry is in HOLD. -/
def inHold (s : State) (k : Nat) : Bool := ctrlState (s.reg (gateCtrlAddr k)) == 2

/-- `quiet` of an entry (R309): 1 but in HOLD before everything checked earlier is complete. -/
def gateQuiet (s : State) (k : Nat) : Bool := !inHold s k || decide (tget (fun _ => 0) s.drains k ≤ s.island)

/-- Whether an entry refuses staging writes and requests (R302, R315). -/
def gateLocked (s : State) (k : Nat) : Bool := k == 36 || s.bit (gateCtrlAddr k) 3

/-- Decides a request: valid, the result, the generation (R518). -/
def gateDecided (s : State) (k res : Nat) : State :=
  let c := gateCtrlAddr k
  (s.setFld c 5 4 (1 + res * 2)).wrapInc c 16 16

/-- The size of the window of memory gate `m` (R303). -/
def gateWindow (m : Nat) : Nat := if m < 6 then 2 ^ 34 else if m = 6 then 2 ^ 21 else 2 ^ 23

/-- Whether staged base and size make no region of gate `m` (R303, Table 11.4 SHAPE). -/
def shapeBad (m : Nat) (w : Word) : Bool :=
  let n := bitsOf w.toNat 24 6
  let base := bitsOf w.toNat 0 19 * 0x8000
  decide (n < 15) || decide (34 < n) || base % 2 ^ n != 0 || decide (gateWindow m < base + 2 ^ n)

/-- Whether a staged mask reaches beyond its slot's ceiling (R301). -/
def ceilingBad (slot : Nat) (w : Word) : Bool := w &&& BitVec.ofNat 32 (psReset slot) != w

/-- A hold request (R308). -/
def holdEntry (s : State) (k : Nat) : State :=
  if inHold s k then gateDecided s k 0
  else
    let s := { s with drains := tset (fun _ => 0) s.drains k (s.island + Config.drainNs s.free) }
    gateDecided (s.setFld (gateCtrlAddr k) 0 2 2).draw k 0

/-- The staged values of an entry become its active ones. -/
def activate (s : State) (k : Nat) : State :=
  if k < 70 then s.setReg (GATE_PS_ATTR_ACT k) (s.reg (GATE_PS_ATTR k))
  else
    let m := (k - 70) / 32
    let r := (k - 70) % 32
    ((s.setReg (MG_BASE_ACT m r) (s.reg (MG_BASE m r))).setReg (MG_ATTR_ACT m r) (s.reg (MG_ATTR m r))).setReg (MG_PART_ACT m r) (s.reg (MG_PART m r))

/-- The result of an apply request with reserved bits set or not (R308, R310, Table 11.4). -/
def applyResult (s : State) (k : Nat) (resv : Bool) : Nat :=
  if !inHold s k then 1
  else if !gateQuiet s k then 2
  else if resv || (decide (70 ≤ k) && shapeBad ((k - 70) / 32) (s.reg (MG_BASE ((k - 70) / 32) ((k - 70) % 32)))) then 3
  else if decide (k < 70) && ceilingBad k (s.reg (GATE_PS_ATTR k)) then 4
  else 0

/-- An apply request (R308); `opened` is what follows where the entry leaves HOLD. -/
def entryApply (opened : State → State) (s : State) (k : Nat) (resv : Bool) : State :=
  match applyResult s k resv with
  | 0 =>
    let c := gateCtrlAddr k
    let s := activate s k
    let s := s.setFld c 0 2 (s.fld c 4 1)
    opened (gateDecided { s with drains := tset (fun _ => 0) s.drains k 0 } k 0)
  | r => gateDecided s k r

/-- A lock request (R315). -/
def lockEntry (s : State) (k : Nat) : State :=
  if ctrlState (s.reg (gateCtrlAddr k)) = 1 then gateDecided (s.setBit (gateCtrlAddr k) 3 true) k 0 else gateDecided s k 6

/-- One of the requests of a CTRL write, on the state the one before left. -/
def gateRequest (s : State) (k : Nat) (asked : Bool) (f : State → State) : State :=
  if !asked then s else if gateLocked s k then gateDecided s k 5 else f s

/-- A write of an entry's CTRL (R315, R518): hold, apply, lock in this order; the on bit is stored where the entry is not
locked; on a locked entry a write that requests nothing is a decided request too. -/
def entryCtrl (opened : State → State) (k : Nat) (v : Word) (s : State) : State :=
  let b := fun i => bitOf v.toNat i
  if gateLocked s k && !(b 9 || b 10 || b 11) then gateDecided s k 5
  else
    let s := if gateLocked s k then s else s.setBit (gateCtrlAddr k) 4 (b 4)
    let s := gateRequest s k (b 9) (holdEntry · k)
    let s := gateRequest s k (b 10) (entryApply opened · k (bitsOf v.toNat 12 4 != 0))
    gateRequest s k (b 11) (lockEntry · k)

/-- A write of an entry's staging register (R307, R315): a new span in HOLD is drained anew (R310). -/
def gateStage (k addr : Nat) (v : Word) (s : State) : State :=
  if gateLocked s k then gateDecided s k 5
  else
    let was := s.reg addr
    let s := plainWrite s addr v
    if decide (70 ≤ k) && addr % 0x10 == 0 && inHold s k && s.reg addr != was then
      let drain := Nat.max (tget (fun _ => 0) s.drains k) (s.island + Config.drainNs s.free)
      { s with drains := tset (fun _ => 0) s.drains k drain }.draw
    else s

/-! ### The boot controller's procedure -/

/-- The staging registers of an entry. -/
def stageRegs (k : Nat) : List Nat :=
  if k < 70 then [GATE_PS_ATTR k]
  else let m := (k - 70) / 32; let r := (k - 70) % 32; [MG_BASE m r, MG_ATTR m r, MG_PART m r]

/-- The five steps by which an entry is changed (after R310): staging written, a CTRL write that holds, the wait for quiet,
a CTRL write that applies. A locked entry and slot 36 answer LOCKED to each; an apply that is refused leaves the entry in
HOLD. The boot controller keeps to the procedure at boot and restore. DEDUCED (log 43). -/
def setEntry (k : Nat) (words : List Word) (on : Bool) (s : State) : State :=
  let ctrl := fun (bit : Nat) => BitVec.ofNat 32 (2 ^ bit + 16 * Bool.nat on)
  let s := ((stageRegs k).zip words).foldl (fun s x => gateStage k x.1 x.2 s) s
  let s := entryCtrl id k (ctrl 9) s
  entryCtrl id k (ctrl 10) (if inHold s k then { s with drains := tset (fun _ => 0) s.drains k s.island } else s)

end Sys2Proof.Machine
end

