-- ==== Sys2Proof/Machine/Network.lean ====
section
/-!
DEFINITION. Ethernet (chapters 03 and 04): ports and their configurations (R89, R77), the checks of received frames
(R90), the exception and PTP rings (R91, R74), frames sent by FLOW_SEND and TIME_PTP_TX (R92, R73), egress (R111). The
network byte order, checksums and header layouts are those of the standards in Table 0.3.
-/

namespace Sys2Proof.Machine

/-! ### Ports -/

/-- The configuration code of a port's quad (Table 4.1). -/
def portMode (s : State) (p : Nat) : Nat := s.fld ETH_CFG (if p < 4 then 0 else 4) 3

/-- Whether a port exists in its quad's configuration (Table 4.1). -/
def portExists (s : State) (p : Nat) : Bool :=
  match portMode s p with
  | 1 | 2 => true
  | 3 => decide (p % 4 < 2)
  | 4 => p % 4 == 0
  | _ => false

/-- Whether a port has link. -/
def portUp (s : State) (p : Nat) : Bool := portExists s p && s.bit ETH_LINK p

/-- The latencies that a configuration loads, in 1/256 ns (Table 3.4). -/
def ethLat : Nat → Nat × Nat
  | 1 => (15744, 37888) | 2 => (9728, 13440) | 3 => (14592, 31104) | _ => (12672, 25088)

/-- A port loses its link. -/
def ethDown (s : State) (p : Nat) : State := (s.setBit ETH_LINK p false).setBit ETH_LINK (8 + p) false

/-- A quad takes a configuration (R77, R89): its ports relink, and the latencies of the ports it has are loaded. -/
def configQuad (s : State) (base : Nat) : State :=
  (List.range 4).foldl (fun s i =>
    let p := base + i
    let s := ethDown s p
    if portExists s p then loadLat s p (ethLat (portMode s p)).1 (ethLat (portMode s p)).2 else s) s

/-- The lanes of an Ethernet port, of quad 4 or 15 (Table 4.1). -/
def ethLanes (s : State) (p : Nat) : List Nat :=
  match portMode s p with
  | 3 => [2 * (p % 4), 2 * (p % 4) + 1]
  | 4 => [0, 1, 2, 3]
  | _ => [p % 4]

/-- The quad of an Ethernet port. -/
def ethQuad (p : Nat) : Nat := if p < 4 then 4 else 15

/-- A port gains or loses link or RS-FEC alignment (R89); a port that a lane of is without signal gains none (R464, R471). -/
def doEthLinkChange (p : Fin 8) (up fec : Bool) (s : State) : State :=
  if !s.ctl.core || !portExists s p.val then s
  else if (ethLanes s p.val).any (laneDeaf s (ethQuad p.val)) then ethDown s p.val
  else (s.setBit ETH_LINK p.val up).setBit ETH_LINK (8 + p.val) (fec && decide (portMode s p.val ≠ 2))

def execEthLinkChange (p : Fin 8) (up fec : Bool) (s : State) : Host.Outcome State Fault Refusal := .next (doEthLinkChange p up fec s)

/-- The ingress timestamp of what arrives now, in 2⁻¹⁶ ns (R76): 64 bits of ns and 16 of fraction. -/
def ingress16 (s : State) (p : Nat) : Nat := (s.now16 + 2 ^ 80 - s.fld (TB_PORT_RXLAT p) 0 24 * 256) % 2 ^ 80

/-- Sends a frame on a port with its FCS (R92) and counts it in the lane statistics (R476). -/
def sendFrame (s : State) (p : Nat) (bs : Bytes) : State :=
  (s.emit (.frame p (bs ++ leBytes 4 (crc32 bs)))).inc (QD_ETH_TX (if p < 4 then 4 else 15) (p % 4))

/-! ### Headers -/

/-- The sum of 16-bit words, most significant byte first. -/
def sum16 : Bytes → Nat
  | [] => 0
  | [a] => a.toNat * 256
  | a :: b :: r => a.toNat * 256 + b.toNat + sum16 r

/-- Whether a ones' complement sum checks. -/
def sumOk (n : Nat) : Bool := n % 65535 == 0

/-- The checksum of a header or pseudo-header with its checksum field 0. -/
def sumOf (n : Nat) : Nat := (65535 - n % 65535) % 65535

/-- The pseudo-header of UDP. -/
def pseudo (src dst : Bytes) (len : Nat) : Bytes := src ++ dst ++ beBytes 4 len ++ [0, 0, 0, 17]

/-- A UDP datagram as ETH presents it. -/
structure Udp where
  vid   : Nat
  v6    : Bool
  src   : Bytes
  dst   : Bytes
  sport : Nat
  dport : Nat
  data  : Bytes
  deriving DecidableEq, Repr

/-- What a received frame is, under Table 4.2. -/
inductive FrameKind where
  | hdrErr | unsup | unknown
  | exception
  | udp (d : Udp)
  deriving DecidableEq, Repr

/-- A UDP datagram, or the header error it has (Table 4.2). -/
def udpOf (vid : Nat) (v6 : Bool) (src dst l4 : Bytes) : FrameKind :=
  let len := beNat (sliceB l4 4 2)
  let body := l4.take len
  let sum := beNat (sliceB l4 6 2)
  let bad := !sumOk (sum16 (pseudo src dst len ++ body))
  if (if v6 then sum == 0 || bad else sum != 0 && bad) then .hdrErr
  else .udp ⟨vid, v6, src, dst, beNat (sliceB l4 0 2), beNat (sliceB l4 2 2), body.drop 8⟩

/-- An IPv4 packet (Table 4.2): options are skipped. -/
def ipv4Kind (vid : Nat) (ip : Bytes) : FrameKind :=
  let ihl := (ip.getD 0 0).toNat % 16 * 4
  let l4 := (ip.take (beNat (sliceB ip 2 2))).drop ihl
  let src := sliceB ip 12 4
  let dst := sliceB ip 16 4
  let frag := beNat (sliceB ip 6 2) % 0x4000 != 0
  if !sumOk (sum16 (sliceB ip 0 ihl)) then .hdrErr
  else match (ip.getD 9 0).toNat with
    | 17 => if frag then .unsup else udpOf vid false src dst l4
    | 1 | 2 => if frag then .unsup else .exception
    | _ => if frag then .unsup else .unknown

/-- An IPv6 packet (Table 4.2). -/
def ipv6Kind (vid : Nat) (ip : Bytes) : FrameKind :=
  let l4 := (ip.drop 40).take (beNat (sliceB ip 4 2))
  match (ip.getD 6 0).toNat with
  | 17 => udpOf vid true (sliceB ip 8 16) (sliceB ip 24 16) l4
  | 58 => .exception
  | _ => .unsup

/-- What an EtherType carries (Table 4.2). -/
def l3Kind (vid et : Nat) (l3 : Bytes) : FrameKind :=
  match et with
  | 0x0800 => ipv4Kind vid l3
  | 0x86DD => ipv6Kind vid l3
  | 0x0806 => .exception
  | _ => .unknown

/-- The first row of Table 4.2 that a frame with a good FCS meets, or what it is. A tag with VLAN ID 0 counts as none. Two tags
are RX_UNSUP, unless what they carry has a header error, which the table counts first. -/
def frameKind (f : Bytes) : FrameKind :=
  let tag := fun n => decide (n = 0x8100) || decide (n = 0x88A8)
  let et := beNat (sliceB f 12 2)
  let et2 := beNat (sliceB f 16 2)
  if tag et && tag et2 then
    match l3Kind 0 (beNat (sliceB f 20 2)) (f.drop 22) with
    | .hdrErr => .hdrErr
    | _ => .unsup
  else if et = 0x8100 then l3Kind (beNat (sliceB f 14 2) % 4096) et2 (f.drop 18)
  else l3Kind 0 et (f.drop 14)

/-! ### The rings -/

/-- Whether received frames are written to memory and flows: not in YIELD (R387). -/
def ingestOn (s : State) : Bool := s.ctl.mode != .yield

/-- The partition of a 5-bit field that names none as 31. -/
def partField (n : Nat) : Nat := if n < 16 then n else 31

/-- Copies a frame to the exception ring (R91): its length and bytes are those without the FCS. The frame stands at byte 16, the
last 240 of an entry's 256 bytes, and bytes 14–15 are written 0: the spec gives neither. DESIGN CHOICE (log 126). -/
def exceptionRing (s : State) (p : Nat) (f : Bytes) : State :=
  let n := s.reg ETH_EXC_PROD
  let base := s.fld ETH_EXC_BASE_HI 0 8 * 2 ^ 32 + s.fld ETH_EXC_BASE_LO 16 16 * 2 ^ 16
  let e := leBytes 8 (ingress16 s p / 2 ^ 16) ++ [BitVec.ofNat 8 p, BitVec.ofNat 8 (Bool.nat (decide (240 < f.length)))]
    ++ leBytes 2 f.length ++ leBytes 2 n.toNat ++ [0, 0] ++ f.take 240
  let s := (looseWrite s 6 (partField (s.fld ETH_NETCTL 0 5)) (base + n.toNat % 256 * 256) e (.pulse 44)).1
  s.setReg ETH_EXC_PROD (n + 1)

/-- Writes a PTP message to the receive ring (R74, Table 3.3). -/
def ptpRing (s : State) (p : Nat) (d : Udp) : State :=
  let n := s.reg TB_PTP_RX_PROD
  let base := s.fld TB_PTP_RX_BASE_HI 0 8 * 2 ^ 32 + s.fld TB_PTP_RX_BASE_LO 15 17 * 2 ^ 15
  let t := ingress16 s p
  let e := leBytes 8 (t / 2 ^ 16) ++ leBytes 2 t
    ++ [BitVec.ofNat 8 p, BitVec.ofNat 8 (Bool.nat (decide (112 < d.data.length)) + 2 * Bool.nat d.v6)]
    ++ leBytes 2 d.data.length ++ leBytes 2 n.toNat ++ d.data.take 112
  let s := (looseWrite s 6 (partField (s.fld TB_SERVO 0 5)) (base + n.toNat % 256 * 128) e (.pulse 43)).1
  s.setReg TB_PTP_RX_PROD (n + 1)

/-- What becomes of a received frame that is not for a flow; a datagram for one is handed to `flow`. -/
def frameIn (s : State) (p : Nat) (frame : Bytes) (flow : State → Udp → State) : State :=
  let body := frame.take (frame.length - 4)
  let s := s.inc (ETH_PORT_RX_FRAMES p)
  if decide (9022 < frame.length) || leNat (frame.drop (frame.length - 4)) != crc32 body then s.inc (ETH_PORT_RX_HDR_ERR p)
  else match frameKind body with
    | .hdrErr => s.inc (ETH_PORT_RX_HDR_ERR p)
    | .unsup => s.inc (ETH_PORT_RX_UNSUP p)
    | .unknown => s.inc (ETH_PORT_RX_UNKNOWN p)
    | .exception =>
      if !s.bit ETH_EXC_CTRL 0 then s.inc (ETH_PORT_RX_UNKNOWN p) else if ingestOn s then exceptionRing s p body else s
    | .udp d =>
      if d.dport = 319 || d.dport = 320 then
        (if !s.bit TB_PTP_RX_CTRL 0 then s.inc TB_PTP_DROP else if ingestOn s then ptpRing s p d else s)
      else flow s d

/-! ### Frames sent -/

/-- A UDP packet over IP, from the port's source address. -/
def udpPacket (s : State) (p : Nat) (v6 : Bool) (dst : Bytes) (dscp ttl sport dport : Nat) (data : Bytes) : Bytes :=
  let src := if v6 then
      [ETH_PORT_IP6_0 p, ETH_PORT_IP6_1 p, ETH_PORT_IP6_2 p, ETH_PORT_IP6_3 p].flatMap fun a => beBytes 4 (s.reg a).toNat
    else beBytes 4 (s.reg (ETH_PORT_IP4 p)).toNat
  let len := data.length + 8
  let ports := beBytes 2 sport ++ beBytes 2 dport ++ beBytes 2 len
  let sum := sumOf (sum16 (pseudo src dst len ++ ports ++ [0, 0] ++ data))
  let udp := ports ++ beBytes 2 (if sum = 0 then 65535 else sum) ++ data
  if v6 then beBytes 4 (6 * 2 ^ 28 + dscp * 2 ^ 22) ++ beBytes 2 len ++ [17, BitVec.ofNat 8 ttl] ++ src ++ dst ++ udp
  else
    let h := fun (c : Nat) => [0x45, BitVec.ofNat 8 (dscp * 4)] ++ beBytes 2 (len + 20) ++ [0, 0, 0x40, 0, BitVec.ofNat 8 ttl, 17]
      ++ beBytes 2 c ++ src ++ dst
    h (sumOf (sum16 (h 0))) ++ udp

/-- An Ethernet frame from a port, with one VLAN tag where there is one, padded to 60 bytes. -/
def etherFrame (s : State) (p : Nat) (dmac : Bytes) (tag : Option Nat) (v6 : Bool) (l3 : Bytes) : Bytes :=
  let smac := beBytes 6 ((s.reg (ETH_PORT_MAC_LO p)).toNat + s.fld (ETH_PORT_MAC_HI p) 0 16 * 2 ^ 32)
  let f := dmac ++ smac ++ (match tag with | some t => beBytes 2 0x8100 ++ beBytes 2 t | none => [])
    ++ beBytes 2 (if v6 then 0x86DD else 0x0800) ++ l3
  f ++ List.replicate (60 - f.length) 0

/-- The PTP frame of port `p` under its template (R73, R92). -/
def ptpFrame (s : State) (p : Nat) (v6 : Bool) (msg : Bytes) : Bytes :=
  let t := fun lo n => s.fld (ETH_PORT_PTP_TPL p) lo n
  let event := decide ((msg.getD 0 0).toNat % 16 < 4)
  let port := if event then 319 else 320
  let uni := !v6 && t 30 1 = 1
  let dst := if v6 then beBytes 16 0xFF0E0000000000000000000000000181
    else if uni then beBytes 4 (s.reg (ETH_PORT_PTP_DST4 p)).toNat else [224, 0, 1, 129]
  let dmac := if uni then beBytes 6 ((s.reg (ETH_PORT_PTP_DMAC_LO p)).toNat + s.fld (ETH_PORT_PTP_DMAC_HI p) 0 16 * 2 ^ 32)
    else if v6 then [0x33, 0x33, 0, 0, 1, 0x81] else [1, 0, 0x5E, 0, 1, 0x81]
  etherFrame s p dmac (if t 12 1 = 1 then some (t 0 12 + t 13 3 * 2 ^ 13) else none) v6
    (udpPacket s p v6 dst (t 16 6) (t 22 8) port port msg)

/-- TIME_PTP_TX (R71–R73). -/
def doTimePtpTx (q : Req) (s : State) : State :=
  soileNow s q 0x0F04 (bodyMask [(16, 0, 24), (19, 0, 1), (20, 0, 352)]) true fun s =>
    let p := q.u8 18
    let msg := leBytes (q.u16 16) (q.uN 20 (q.u16 16))
    match firstFail [
        (decide (q.u16 16 < 34) || decide (44 < q.u16 16) || decide (7 < p), stBadRange),
        (s.fld TB_SERVO 0 5 != q.part.val, stNotOwner), (!portUp s p, stNoLink)] with
    | some st => (s, st, 0)
    | none =>
      let t := s.now16 + s.fld (TB_PORT_TXLAT p) 0 24 * 256
      let ev := decide ((msg.getD 0 0).toNat % 16 < 4)
      (sendFrame s p (ptpFrame s p (q.bit 19 0) msg), stComplete,
        cplBody ((if ev then [(16, 8, t / 2 ^ 16), (24, 2, t)] else []) ++ [(26, 1, p)]))

def execTimePtpTx (q : Req) (s : State) : Host.Outcome State Fault Refusal := .next (doTimePtpTx q s)

/-- FLOW_SEND (R92). -/
def doFlowSend (q : Req) (s : State) : State :=
  soileRead s q 0x0205 (bodyMask [(16, 0, 80), (26, 0, 8)]) true fun s =>
    let p := q.u8 26
    match firstFail [
        (decide (q.u16 24 < 60) || decide (1514 < q.u16 24) || decide (7 < p), stBadRange),
        (s.fld ETH_NETCTL 0 5 != q.part.val, stNotOwner), (!portUp s p, stNoLink)] with
    | some st => (s, st, 0)
    | none =>
      let r := hostRead s q.part.val (q.u64 16) (q.u16 24) q.host
      if r.2.1 = stComplete then (sendFrame r.1 p r.2.2, stComplete, 0) else (r.1, r.2.1, 0)

def execFlowSend (q : Req) (s : State) : Host.Outcome State Fault Refusal := .next (doFlowSend q s)

/-! ### Egress -/

/-- Whether writeback buffer `b` (false: A) of head `n` is read by an egress slot or a follow session (R212). -/
def wbRead (s : State) (n : Nat) (b : Bool) : Bool :=
  s.egress.any (fun x => x.2.enabled && x.2.head == n && (match x.2.frame with | some f => f.1 == Bool.nat b | none => false))
    || s.encs.any fun x => x.2.opened && x.2.follow && x.2.head == n
        && ((match x.2.due with | some d => d.1 == Bool.nat b | none => false) || (match x.2.work with | some w => w.surface == wbSurf (s.head n) b | none => false))

/-- Releases the writeback buffers of a head that nothing reads any more (R212). -/
def wbRelease (s : State) (n : Nat) : State :=
  let h := s.head n
  s.setHead n { h with wbHeldA := h.wbHeldA && wbRead s n false, wbHeldB := h.wbHeldB && wbRead s n true }

/-- The bytes and pixels of a pixel group of a writeback format (ST 2110-20). -/
def pixGroup : Nat → Nat × Nat
  | 2 => (4, 2) | 3 => (5, 2) | 4 => (3, 1) | _ => (15, 4)

/-- Components of `w` bits packed most significant first. -/
def packBits (w : Nat) (vs : List Nat) : Bytes := beBytes (ceilDiv (w * vs.length) 8) (vs.foldl (fun a v => a * 2 ^ w + v % 2 ^ w) 0)

/-- One pixel group of a surface line, from pixel `x`. -/
def groupBytes (s : State) (f : Surface) (x y : Nat) : Bytes :=
  let p := fun i => fetchPx s f (x + i) y
  match f.fmt with
  | 2 => packBits 8 [(p 0).2.1 / 4, (p 0).1 / 4, (p 0).2.2.1 / 4, (p 1).1 / 4]
  | 3 => packBits 10 [(p 0).2.1, (p 0).1, (p 0).2.2.1, (p 1).1]
  | 4 => packBits 8 [(p 0).1 / 4, (p 0).2.1 / 4, (p 0).2.2.1 / 4]
  | _ => packBits 10 ([0, 1, 2, 3].flatMap fun i => [(p i).1, (p i).2.1, (p i).2.2.1])

/-- FLOW_EGRESS (R111). -/
def flowEgress (q : Req) (s : State) : State × Nat × BitVec 128 :=
  let e := q.u8 16
  let n := q.u8 18
  let p := q.part.val
  let on := q.bit 19 0
  let h := s.head n
  match firstFail [
      (decide (7 < e) || decide (7 < q.u8 17) || decide (15 < n) || decide (127 < q.u8 48), stBadRange), (decide (s.nHeads ≤ n), stNoResource),
      (!ownsEgr s p e || (on && !ownsHead s p n), stNotOwner),
      (on && (!h.wbOn || h.wbA == h.wbB || decide (h.wbFmt < 2)), stEgressSource)] with
  | some st => (s, st, 0)
  | none =>
    let old := s.egr e
    let s := s.setEgr e { old with enabled := on, port := q.u8 17, head := n, cfg := q.body, frame := none, line := 0, off := 0 }
    (wbRelease s old.head, stComplete, 0)

def maskFlowEgress : Nat := bodyMask [(16, 0, 24), (19, 0, 3), (20, 0, 12), (21, 5, 3), (22, 0, 6), (23, 0, 8), (24, 0, 192), (48, 0, 8), (50, 0, 48)]
def doFlowEgress (q : Req) (s : State) : State := soileNow s q 0x0206 maskFlowEgress true (flowEgress q)
def execFlowEgress (q : Req) (s : State) : Host.Outcome State Fault Refusal := .next (doFlowEgress q s)

/-- The RTP payload of the next packet of an egress slot and the pixels it carries (R111): one sample row. -/
def egressRow (s : State) (e : Egress) (f : Surface) : Bytes × Nat :=
  let g := pixGroup f.fmt
  let left := ceilDiv (f.w - e.off) g.2
  let k := Nat.min (1200 / g.1) left
  let data := (List.range k).flatMap fun i => groupBytes s f (e.off + i * g.2) e.line
  (beBytes 2 (e.seq.toNat / 65536) ++ beBytes 2 data.length ++ beBytes 2 e.line ++ beBytes 2 e.off ++ data, k * g.2)

/-- An egress slot sends its next packet (R111): samples whose reading a gate refuses are zeros (R298). On a port without link the
packets are dropped and the frame counts as sent all the same. DESIGN CHOICE (log 144). -/
def doEgressPacket (ei : Fin 8) (s : State) : State :=
  let e := s.egr ei.val
  match e.frame with
  | none => s
  | some (b, t0) =>
    if !s.ctl.core || !e.enabled then s
    else
      let f := s.surf (wbSurf (s.head e.head) (b == 1))
      let a := f.base + e.line * f.pitch
      let rd := engRead s 6 (egrOwner s ei.val) a (f.w * fmtBytes f.fmt)
      if rd.2.1 = .held then s
      else
        let row := egressRow (rd.1.store a rd.2.2) e f
        let lineEnd := decide (f.w ≤ e.off + row.2)
        let last := lineEnd && decide (f.h ≤ e.line + 1)
        let q : Req := ⟨0, 0, 0, 0, false, 0, e.cfg, .error⟩
        let v6 := q.bit 19 1
        let rtp : Bytes := [0x80, BitVec.ofNat 8 (Bool.nat last * 128 + q.u8 48)] ++ beBytes 2 e.seq.toNat
          ++ beBytes 4 (t0 * 90000 / 1000000000 % 2 ^ 32) ++ beBytes 4 (q.u32 44)
        let l3 := udpPacket s e.port v6 (leBytes (if v6 then 16 else 4) (q.uN 24 (if v6 then 16 else 4))) (q.fld 22 0 6) (q.u8 23) (q.u16 42) (q.u16 40) (rtp ++ row.1)
        let fr := etherFrame s e.port (leBytes 6 (q.uN 50 6)) (if q.bit 19 2 then some (q.u16 20) else none) v6 l3
        let s := if portUp s e.port then sendFrame rd.1 e.port fr else rd.1
        let e := { e with seq := e.seq + 1, off := if lineEnd then 0 else e.off + row.2, line := if lineEnd then e.line + 1 else e.line }
        if last then wbRelease ((s.setEgr ei.val { e with frame := none, line := 0, off := 0 }).inc (ETH_EGR_FRAMES ei.val)) e.head
        else s.setEgr ei.val e

def execEgressPacket (e : Fin 8) (s : State) : Host.Outcome State Fault Refusal := .next (doEgressPacket e s)

end Sys2Proof.Machine
end

