-- ==== Sys2Proof/Machine/Ingest.lean ====
section
/-!
DEFINITION. Ingest (chapter 04): the flow table (R93, R94), sequence and reorder (R95), access units with loss and
release (R96–R99), the ST 2022-7 merge (R100), capture times (R101–R105), stream contexts (R106–R110) and their commands.
-/

namespace Sys2Proof.Machine

/-! ### Flows -/

/-- The flow that forms a merged stream with flow `f`: each names the other (R100). -/
def mergedWith (s : State) (f : Nat) : Option Nat :=
  match (s.flow f).partner with
  | some g => if (s.flow g).partner == some f then some g else none
  | none => none

/-- The primary flow of a stream (R100). -/
def primary (s : State) (f : Nat) : Nat := match mergedWith s f with | some g => Nat.min f g | none => f

/-- The keys of a flow that does not set one, as 0 (R93). -/
def flowKeys (x : Flow) : BitVec 8 × Nat × Nat × Nat × Nat × Nat × Nat :=
  (x.portMask, bitsOf x.keys.toNat 0 4, if x.keys.getLsbD 1 then x.vlan.toNat else 0, x.dport.toNat, x.daddr.toNat,
    if x.keys.getLsbD 2 then x.saddr.toNat else 0, if x.keys.getLsbD 3 then x.ssrc.toNat else 0)

/-- Whether a datagram at port `p` meets a flow's keys apart from SSRC and destination port (R93). The addresses of FLOW_ADD stand in
its body as they stand on the wire, the first octet in the lowest byte. DESIGN CHOICE (log 142). -/
def flowMeets (x : Flow) (p : Nat) (d : Udp) : Bool :=
  x.state == .running && x.portMask.getLsbD p && (!x.keys.getLsbD 1 || d.vid == x.vlan.toNat) && x.keys.getLsbD 0 == d.v6
    && leNat d.dst == x.daddr.toNat && (!x.keys.getLsbD 2 || leNat d.src == x.saddr.toNat)

/-- The SSRC of an RTP packet. -/
def rtpSsrc (d : Udp) : BitVec 32 := BitVec.ofNat 32 (beNat (sliceB d.data 8 4))

/-- Whether a datagram is RTP for a flow (R93). -/
def isRtp (x : Flow) (p : Nat) (d : Udp) : Bool :=
  flowMeets x p d && d.dport == x.dport.toNat && (!x.keys.getLsbD 3 || rtpSsrc d == x.ssrc)

/-- Whether a datagram is RTCP for a flow (R93). -/
def isRtcp (x : Flow) (p : Nat) (d : Udp) : Bool :=
  let t := (d.data.getD 1 0).toNat
  flowMeets x p d
    && (if x.keys.getLsbD 4 then d.dport == x.dport.toNat && decide (200 ≤ t) && decide (t ≤ 204)
        else d.dport == (if x.rtcp = 0 then (x.dport + 1).toNat else x.rtcp.toNat))

/-- The flow that takes an RTP packet (R93): one with a source key, then one with an SSRC key, then the lowest. -/
def rtpFlow (s : State) (p : Nat) (d : Udp) : Option Nat :=
  let fs := s.flows.filter fun x => isRtp x.2 p d && !isRtcp x.2 p d
  let pick := match fs.filter fun x => x.2.keys.getLsbD 2 with | [] => fs | l => l
  let pick := match pick.filter fun x => x.2.keys.getLsbD 3 with | [] => pick | l => l
  pick.head?.map (·.1)

/-! ### Mapping -/

/-- Invalidates a mapping in force (R102). -/
def mapInvalid (s : State) (f : Nat) : State :=
  let x := s.flow f
  if x.mapValid then raise (s.setFlow f { x with mapValid := false, implRun := 0 }) evMapInvalid 1 7 (flowOwner s f) [] else s

/-- The first sender report of a compound packet with the given SSRC: seconds, fraction, RTP timestamp (R102). -/
def findReport (ssrc : BitVec 32) : Nat → Bytes → Option (Nat × Nat × BitVec 32)
  | 0, _ => none
  | fuel + 1, bs =>
    if bs.length < 8 then none
    else if (bs.getD 1 0).toNat = 200 ∧ beNat (sliceB bs 4 4) = ssrc.toNat then
      some (beNat (sliceB bs 8 4), beNat (sliceB bs 12 4), BitVec.ofNat 32 (beNat (sliceB bs 16 4)))
    else findReport ssrc fuel (bs.drop (4 * (beNat (sliceB bs 2 2) + 1)))

/-- The SSRC a flow holds as current (R105). -/
def currentSsrc (x : Flow) : Option (BitVec 32) := if x.keys.getLsbD 3 then some x.ssrc else x.curSsrc

/-- A flow in mode SR parses a compound packet (R102). -/
def rtcpIn (s : State) (f0 : Nat) (d : Udp) : State :=
  let f := primary s f0
  let x := s.flow f
  match (if x.mode = 1 then currentSsrc x else none) with
  | none => s
  | some ssrc =>
    match findReport ssrc d.data.length d.data with
    | none => s
    | some (sec, frac, rtp) =>
      s.setFlow f { x with mapValid := true, srNs := srToTai sec frac (!x.srTai) (s.fld FLW_TAI_UTC 0 8), srRtp := rtp, srAt := s.now }

/-- Whether a stream receives: its flow runs, or the one merged with it (R100). -/
def streamRuns (s : State) (f : Nat) : Bool :=
  (s.flow f).state == .running || (match mergedWith s f with | some g => (s.flow g).state == .running | none => false)

/-- sr_timeout_ms have passed without a report (R102). A stream that does not receive is not timed out. DESIGN CHOICE (log 146). -/
def doSrTimeout (f : Fin 1024) (s : State) : State :=
  let x := s.flow f.val
  if s.ctl.core && streamRuns s f.val && x.mode == 1 && decide (((1000000 * x.srLimit : Nat) : Int) ≤ s.since x.srAt) then mapInvalid s f.val
  else s

def execSrTimeout (f : Fin 1024) (s : State) : Host.Outcome State Fault Refusal := .next (doSrTimeout f s)

/-- The capture time, the basis code and whether the access unit is implausible (R101–R104, Tables 2.1 and 4.5). A clock
rate of 0 leaves the time open. -/
def captureOf (s : State) (x : Flow) (arrival : Nat) (rtp : BitVec 32) : Int × Nat × Bool :=
  let judge := fun (c : Int) =>
    let c := if x.rate = 0 then (Config.unstated s.free : Int) else c
    let d := (arrival : Int) - c
    let bad := decide (d < -1000000) || decide ((x.transit * 1000000 : Nat) < d)
    (c, if bad then 0 else 1, bad)
  match x.mode with
  | 1 => if x.mapValid then judge (srCapture x.srNs x.srRtp rtp x.rate) else (0, 0, false)
  | 2 => judge (directCapture arrival rtp x.rate)
  | 3 => (0, 1, false)
  | _ => (0, 2, false)

/-! ### Raw pictures -/

/-- Bytes and pixels of a pixel group of a RAW format (Table 4.7, ST 2110-20). -/
def rawGroup : Nat → Nat × Nat
  | 0 => (4, 2) | 1 => (5, 2) | 2 => (3, 1) | _ => (15, 4)

/-- Bytes of a line and of a picture of a RAW context, and the distance of its buffers (R155). -/
def rawLine (c : Ctx) : Nat := ceilDiv c.rawW (rawGroup c.rawFmt).2 * (rawGroup c.rawFmt).1
def rawSize (c : Ctx) : Nat := rawLine c * c.rawH
def rawStride (c : Ctx) : Nat := ceilTo 4096 (rawSize c) + 4096
def rawAddr (c : Ctx) (b : Nat) : Nat := c.rawBase + b * rawStride c

/-- Whether a buffer of the ring is free for a new picture (R110): neither filled, queued, being scaled nor kept for a copy. -/
def rawFree (kept : List (Nat × Nat)) (c : Ctx) (b : Nat) : Bool :=
  !(kept.any fun r => r.1 == rawAddr c b) && !(c.rawPics.any fun p => p.buf == some b) && !c.rawBusy.contains b && !c.queue.any fun r => r.addr == rawAddr c b

/-- The picture of an RTP timestamp, begun in a free buffer of the ring where there is one (R109, R110). -/
def rawOpen (kept : List (Nat × Nat)) (c : Ctx) (ts : BitVec 32) : Ctx :=
  if c.rawPics.any fun p => p.ts == ts then c
  else
    let b := ((List.range c.rawN).map fun i => (c.rawNext + i) % c.rawN).find? (rawFree kept c)
    { c with rawPics := c.rawPics ++ [{ ts := ts, buf := b }], rawNext := match b with | some b => (b + 1) % c.rawN | none => c.rawNext }

/-- The sample rows of an ST 2110-20 payload (R99): length, line, offset in pixels; none where a row is interlaced. -/
def rowHeaders : Nat → Bytes → Option (List (Nat × Nat × Nat) × Bytes)
  | 0, _ => none
  | fuel + 1, bs =>
    let h := (beNat (sliceB bs 0 2), beNat (sliceB bs 2 2) % 0x8000, beNat (sliceB bs 4 2) % 0x8000)
    if beNat (sliceB bs 2 2) ≥ 0x8000 then none
    else if beNat (sliceB bs 4 2) ≥ 0x8000 then
      (rowHeaders fuel (bs.drop 6)).map fun r => (h :: r.1, r.2)
    else some ([h], bs.drop 6)

/-- Adds bytes `a` to `b` to spans that neither meet nor overlap. -/
def addSpan (l : List (Nat × Nat)) (a b : Nat) : List (Nat × Nat) :=
  let hit := l.filter fun r => decide (r.1 ≤ b) && decide (a ≤ r.2)
  (l.filter fun r => !(decide (r.1 ≤ b) && decide (a ≤ r.2))) ++ [((hit.map (·.1)).foldl Nat.min a, (hit.map (·.2)).foldl Nat.max b)]

/-- The bytes a line of a picture holds (R109). -/
def RawPic.held (p : RawPic) (y : Nat) : Nat :=
  ((p.rows.filter fun l => l.1 == y).flatMap (·.2)).foldl (fun n r => n + (r.2 - r.1)) 0

/-- A row of bytes `a` to `b` written to a line. -/
def RawPic.addRow (p : RawPic) (y a b : Nat) : RawPic :=
  { p with rows := if p.rows.any fun l => l.1 == y then p.rows.map fun l => if l.1 = y then (y, addSpan l.2 a b) else l
                   else p.rows ++ [(y, [(a, b)])] }

/-- Changes the picture of an RTP timestamp that a context receives. -/
def Ctx.modRaw (c : Ctx) (ts : BitVec 32) (g : RawPic → RawPic) : Ctx :=
  { c with rawPics := c.rawPics.map fun p => if p.ts = ts then g p else p }

/-- Writes one sample row at its line and offset, or rejects it: its line then counts as short (R109). -/
def rawRow (s : State) (f path ci : Nat) (ts : BitVec 32) (h : Nat × Nat × Nat) (bs : Bytes) : State :=
  let c := s.ctx ci
  let g := rawGroup c.rawFmt
  let off := h.2.2 / g.2 * g.1
  if c.rawH ≤ h.2.1 ∨ c.rawW ≤ h.2.2 ∨ rawLine c < off + h.1 then
    let s := s.setFlow path { s.flow path with nUnsup := satInc (s.flow path).nUnsup }
    s.setCtx ci (c.modRaw ts fun p => { p with bad := p.bad ++ [h.2.1] })
  else match (c.rawPics.find? fun p => p.ts == ts).bind (·.buf) with
    | some b =>
      let s := s.setCtx ci (c.modRaw ts fun p => p.addRow h.2.1 off (off + (bs.take h.1).length))
      (looseWrite s 8 (flowOwner s f) (rawAddr c b + h.2.1 * rawLine c + off) (bs.take h.1)).1
    | none => s

/-- Writes the rows of a stored ST 2110-20 packet (R109). -/
def rawRows (s : State) (f path ci : Nat) (ts : BitVec 32) : List (Nat × Nat × Nat) → Bytes → State
  | [], _ => s
  | h :: hs, bs => rawRows (rawRow s f path ci ts h bs) f path ci ts hs (bs.drop h.1)

/-! ### Packets -/

/-- Whether a packet's payload is of a handled type (Table 4.3). -/
def payloadOk (kind : Nat) (bs : Bytes) : Bool :=
  let b := (bs.getD 0 0).toNat
  match kind with
  | 0 => let t := b % 32; (decide (1 ≤ t) && decide (t ≤ 24)) || t == 28
  | 1 => decide (b / 2 % 64 ≤ 49)
  | _ => (rowHeaders 3 (bs.drop 2)).isSome

/-- Counts on a flow. -/
def State.modFlow (s : State) (f : Nat) (g : Flow → Flow) : State := s.setFlow f (g (s.flow f))

/-- The earlier of two times, by their signed difference (R79). -/
def earlier (a b : Nat) : Nat := if timeDiff (BitVec.ofNat 64 a) (BitVec.ofNat 64 b) ≤ 0 then a else b

/-- Restarts a stream's sequence state: what is stored waits with the time its last access unit ends (R95, R105). -/
def seqRestart (x : Flow) (now : Nat) : Flow :=
  { x with synced := false, probe := none, seqJump := true, pkts := [], ends := [], lastTs := none
           old := if x.pkts.isEmpty then x.old else x.old ++ [⟨now, x.pkts, x.ends, x.lastSeq⟩] }

/-- Waits for a marker, then synchronises (R95). -/
def seqSync (x : Flow) (pk : Pkt) : Flow :=
  if pk.marker then { x with h := pk.seq, synced := true, disc := true, lastSeq := some pk.seq } else x

/-- The parts of free ranges that a span leaves free. -/
def cutGap (gs : List (Nat × Nat)) (u : Nat × Nat) : List (Nat × Nat) :=
  gs.flatMap fun g =>
    if overlaps g.1 g.2 u.1 u.2 then
      [(g.1, u.1 - g.1), (u.1 + u.2, g.1 + g.2 - (u.1 + u.2))].filter fun r => decide (0 < r.2)
    else [g]

/-- `n` bytes taken from free ranges in their order. -/
def takeGaps : List (Nat × Nat) → Nat → List (Nat × Nat)
  | [], _ => []
  | g :: gs, n => if n = 0 then [] else (g.1, Nat.min g.2 n) :: takeGaps gs (n - g.2)

/-- Whether a flow that names a lower partner, whose buffer fields are not checked because the pair uses the partner's (R100), has no
buffer in device memory (R13). While it receives alone, before its partner names it or after the partner's FLOW_DEL, it then has
no room for packets or access units (R98). DESIGN CHOICE (log 133). -/
def noBuffer (s : State) (f : Nat) : Bool :=
  let x := s.flow f
  (match x.partner with | some g => decide (g < f) | none => false) && x.payload != 2
    && (x.base % 4096 != 0 || x.psize % 4096 != 0 || x.ausize % 4096 != 0 || !inChannel s x.base (x.psize + x.ausize))

/-- The free ranges of the packet area of flow `f` (R13, R98). -/
def freeGaps (s : State) (f : Nat) : List (Nat × Nat) :=
  let x := s.flow f
  if noBuffer s f then [] else ((x.pkts ++ x.old.flatMap (·.pkts)).flatMap (·.spans)).foldl cutGap [(x.base, x.psize)]

/-- Writes bytes over spans, those of the jitter buffer of flow `f` (R13). -/
def spanWrite (s : State) (f : Nat) : List (Nat × Nat) → Bytes → State
  | [], _ => s
  | u :: us, bs => spanWrite (looseWrite s 7 (flowOwner s f) u.1 (bs.take u.2)).1 f us (bs.drop u.2)

/-- A marker packet that is received and not stored (R96). -/
def noteMarker (x : Flow) (pk : Pkt) : Flow :=
  if pk.marker then { x with ends := x.ends ++ [(pk.seq, pk.ts, pk.ingress)] } else x

/-- A stored packet with an SSRC that is not the current one makes it current and restarts the sequence state, which waits for a
marker and does not keep the packet (R105). DESIGN CHOICE (log 131). -/
def ssrcChange (s : State) (f : Nat) (ssrc : BitVec 32) (pk : Pkt) : State :=
  let s := mapInvalid s f
  raise (s.setFlow f { seqSync (seqRestart (s.flow f) s.now) pk with curSsrc := some ssrc }) evSsrcChange 0 7 (flowOwner s f) []

/-- Stores a packet, its rows where it is RAW, when the buffer has room (R95, R98, R105). `body` is none for a packet that may not
be stored (R99, Table 4.7). The spec gives the packet area no layout: the payload fills free bytes of it, from a range that
is left open. DESIGN CHOICE (log 127). -/
def storePkt (s : State) (f : Nat) (ssrc : BitVec 32) (pk : Pkt) (body : Option Bytes) : State :=
  let x := s.flow f
  let h := if (pk.seq - x.h).toInt > 0 then pk.seq else x.h
  let gaps := freeGaps s f
  match body with
  | none => s.setFlow f (noteMarker { x with h := h } pk)
  | some bs =>
    if x.payload ≠ 2 ∧ gaps.foldl (fun n g => n + g.2) 0 < bs.length then
      (s.setFlow f (noteMarker { x with h := h } pk)).modFlow pk.path fun y => { y with nDrop := satInc y.nDrop }
    else if !x.keys.getLsbD 3 && x.curSsrc.isSome && x.curSsrc != some ssrc then ssrcChange s f ssrc pk
    else
      let k := Config.unstated s.free % gaps.length
      let spans := if x.payload = 2 then [] else takeGaps (gaps.drop k ++ gaps.take k) bs.length
      let s := spanWrite s.draw f spans bs
      let s := s.setFlow f { x with
        pkts := insertAfter (fun y => decide ((pk.seq - y.seq).toInt > 0)) { pk with spans := spans } x.pkts, h := h
        curSsrc := some ssrc }
      let s := s.modFlow pk.path fun y => { y with nPkts := satInc y.nPkts }
      match x.payload, x.ctx, rowHeaders 3 (bs.drop 2) with
      | 2, some c, some r => rawRows (s.setCtx c (rawOpen (chainKeeps s) (s.ctx c) pk.ts)) f pk.path c pk.ts r.1 r.2
      | _, _, _ => s

/-- Whether the access unit of a packet has been released (R95, R96). -/
def auReleased (x : Flow) (pk : Pkt) : Bool :=
  (match x.lastSeq with | some l => decide ((pk.seq - l).toInt ≤ 0) | none => false) || x.lastTs == some pk.ts

/-- `seq_in` of R95 on the stream's primary flow `f`; what the packet counts, it counts on its own path. -/
def seqIn (s : State) (f : Nat) (ssrc : BitVec 32) (pk : Pkt) (body : Option Bytes) : State :=
  let x := s.flow f
  let d := (pk.seq - x.h).toInt
  let late := fun (s : State) => s.modFlow pk.path fun y => { y with nLate := satInc y.nLate }
  if !x.synced then s.setFlow f (seqSync x pk)
  else if d > 3000 ∨ d < -3000 then
    match x.probe with
    | some q =>
      if pk.seq - q = 1 then s.setFlow f (seqSync (seqRestart x s.now) pk)
      else late (s.setFlow f { x with probe := some pk.seq })
    | none => late (s.setFlow f { x with probe := some pk.seq })
  else
    let s := s.setFlow f { x with probe := none }
    if auReleased x pk then late s
    else if d < -(x.reorder : Int) then late (s.modFlow f (noteMarker · pk))
    else match x.pkts.find? fun y => y.seq == pk.seq with
      | some y =>
        if y.path = pk.path then s.modFlow pk.path fun z => { z with nDup := satInc z.nDup }
        else s.modFlow f fun z => { z with pkts := z.pkts.map fun w =>
          if w.seq = pk.seq then { w with both := true, ingress := earlier w.ingress pk.ingress } else w }
      | none => storePkt s f ssrc pk body

/-- An RTP packet for a flow: fixed header, contributing sources, extension and padding removed (RFC 3550). One of an excluded
or unexpected payload type counts and is not stored (R99, Table 4.7); each flow of a pair judges its own (R100). -/
def rtpIn (s : State) (path port : Nat) (d : Udp) : State :=
  let f := primary s path
  let x := s.flow path
  let b0 := (d.data.getD 0 0).toNat
  let b1 := (d.data.getD 1 0).toNat
  let body := d.data.drop (12 + 4 * (b0 % 16))
  let body := if bitOf b0 4 then body.drop (4 + 4 * beNat (sliceB body 2 2)) else body
  let body := if bitOf b0 5 then body.take (body.length - (body.getLastD 0).toNat) else body
  let pk : Pkt := ⟨BitVec.ofNat 16 (beNat (sliceB d.data 2 2)), BitVec.ofNat 32 (beNat (sliceB d.data 4 4)), bitOf b1 7,
    ingress16 s port / 2 ^ 16, path, false, []⟩
  if (x.pt != 128 && x.pt != b1 % 128) || !payloadOk x.payload body then
    seqIn (s.modFlow path fun y => { y with nUnsup := satInc y.nUnsup }) f (rtpSsrc d) pk none
  else seqIn s f (rtpSsrc d) pk (some body)

/-- A datagram that is neither PTP nor an exception (R93, Table 4.2): every flow whose RTCP it is parses it, and the flow it is
RTP for takes it. -/
def flowIn (p : Nat) (s : State) (d : Udp) : State :=
  let rtcp := (s.flows.filter fun x => isRtcp x.2 p d).map (·.1)
  let t := rtcp.foldl (fun s f => rtcpIn s f d) s
  match rtpFlow s p d with
  | some f => if ingestOn t then rtpIn t f p d else t
  | none => if rtcp.isEmpty then s.inc (ETH_PORT_RX_NOFLOW p) else t

/-- A frame arrives at a port, FCS included (R90). -/
def doEthFrameRx (p : Fin 8) (frame : Bytes) (s : State) : State :=
  if !s.ctl.core || !portUp s p.val then s else frameIn s p.val frame (flowIn p.val)

def execEthFrameRx (p : Fin 8) (frame : List (BitVec 8)) (s : State) : Host.Outcome State Fault Refusal := .next (doEthFrameRx p frame s)

/-! ### Depacketisation -/

/-- The NAL units of an aggregation packet after its header (Table 4.3). -/
def aggregate : Nat → Bytes → List Bytes
  | 0, _ => []
  | fuel + 1, bs =>
    if bs.length < 3 then [] else (bs.drop 2).take (beNat (sliceB bs 0 2)) :: aggregate fuel (bs.drop (2 + beNat (sliceB bs 0 2)))

/-- What a packet carries: whole NAL units, or a fragment: start, end, NAL header bytes, data (Table 4.3). -/
def packetNals (h265 : Bool) (bs : Bytes) : List Bytes ⊕ (Bool × Bool × Bytes × Bytes) :=
  let b := fun i => (bs.getD i 0).toNat
  if h265 then
    let t := b 0 / 2 % 64
    if t = 48 then .inl (aggregate bs.length (bs.drop 2))
    else if t = 49 then
      .inr (bitOf (b 2) 7, bitOf (b 2) 6, [BitVec.ofNat 8 (b 0 / 128 * 128 + b 2 % 64 * 2 + b 0 % 2), BitVec.ofNat 8 (b 1)], bs.drop 3)
    else .inl [bs]
  else
    let t := b 0 % 32
    if t = 24 then .inl (aggregate bs.length (bs.drop 1))
    else if t = 28 then .inr (bitOf (b 1) 7, bitOf (b 1) 6, [BitVec.ofNat 8 (b 0 / 32 * 32 + b 1 % 32)], bs.drop 2)
    else .inl [bs]

/-- Reassembles the NAL units of packets in sequence order (R99): a unit with a missing fragment is omitted. The open
unit and the sequence number it goes on with are carried along. -/
def depack (h265 : Bool) : List (BitVec 16 × Bytes) → Option (Bytes × BitVec 16) → List Bytes × Bool
  | [], cur => ([], cur.isSome)
  | p :: ps, cur =>
    match packetNals h265 p.2 with
    | .inl ns =>
      let r := depack h265 ps none
      (ns ++ r.1, cur.isSome || r.2)
    | .inr (start, fin, hdr, data) =>
      let open_ := if start then some (hdr ++ data) else match cur with
        | some (b, n) => if n = p.1 then some (b ++ data) else none
        | none => none
      let broken := if start then cur.isSome else open_.isNone
      match open_ with
      | none => let r := depack h265 ps none; (r.1, true)
      | some b =>
        if fin then let r := depack h265 ps none; (b :: r.1, broken || r.2)
        else let r := depack h265 ps (some (b, p.1 + 1)); (r.1, broken || r.2)

/-- An Annex B byte stream with 4-byte start codes (R99). -/
def annexB (ns : List Bytes) : Bytes := ns.flatMap fun n => [0, 0, 0, 1] ++ n

/-! ### Release -/

/-- The 2,048 bytes of a taint map (R128): `bad` holds tile indices of a picture `tx` tiles wide. -/
def taintBytes (tx ty : Nat) (bad : List Nat) : Bytes :=
  (List.range 2048).map fun i => BitVec.ofNat 8 ((List.range 8).foldl (fun v k =>
    let x := i % 16 * 8 + k
    if x < tx ∧ i / 16 < ty ∧ bad.contains (i / 16 * tx + x) then v + 2 ^ k else v) 0)

/-- The first access unit of packets in sequence order, and the packets after it (R96). -/
def firstAu (ps : List Pkt) : List Pkt × List Pkt :=
  match ps with
  | [] => ([], [])
  | p :: _ => (ps.filter fun q => q.ts == p.ts, ps.filter fun q => q.ts != p.ts)

/-- The RTP timestamp of an access unit. -/
def auTs (au : List Pkt) : BitVec 32 := match au with | p :: _ => p.ts | [] => 0

/-- The earliest of times, none of none (R79). -/
def earliest : List Nat → Option Nat
  | [] => none
  | t :: ts => some (ts.foldl earlier t)

/-- The ingress times of an access unit's marker packet, stored or not (R96). -/
def markers (ends : MarkerSeen) (au : List Pkt) : List Nat :=
  (au.filter (·.marker)).map (·.ingress) ++ (ends.filter fun m => decide (au ≠ []) && m.2.1 == auTs au).map (·.2.2)

/-- When an access unit ends (R96): at its marker, or at the first stored packet with a later timestamp. -/
def auEnd (ends : MarkerSeen) (au rest : List Pkt) : Option Nat :=
  match earliest (markers ends au) with
  | some t => some t
  | none => earliest ((rest.filter fun q => decide (au ≠ []) && decide ((q.ts - auTs au).toInt > 0)).map (·.ingress))

/-- The first number an access unit contains (R97): those lost after the last one released belong to it. -/
def auFirst (lastSeq : Option (BitVec 16)) (au : List Pkt) : BitVec 16 :=
  match lastSeq, au with | some l, _ => l + 1 | none, p :: _ => p.seq | none, [] => 0

/-- How many of the numbers an access unit should contain are not stored, by it or by another unit whose packets stand between its
own, and the last number that is accounted for (R97). A number at or before the last one released is never counted again. -/
def auLost (lastSeq : Option (BitVec 16)) (ends : MarkerSeen) (au rest : List Pkt) : Nat × BitVec 16 :=
  let from_ := auFirst lastSeq au
  let last := match au.getLast? with | some p => p.seq | none => from_
  let next := rest.find? fun q => decide ((q.seq - last).toInt > 0)
  let upto := if !(markers ends au).isEmpty then last else match next with | some q => q.seq - 1 | none => last
  let n := (upto - from_).toInt + 1
  let stored := ((au ++ rest).filter fun q => decide (0 ≤ (q.seq - from_).toInt) && decide (0 ≤ (upto - q.seq).toInt)).length
  ((n - (stored : Int)).toNat, if n ≤ 0 then from_ - 1 else upto)

/-- The markers kept after an access unit's release: those of later ones. -/
def endsAfter (ends : MarkerSeen) (au : List Pkt) (upto : BitVec 16) : MarkerSeen :=
  ends.filter fun m => m.2.1 != auTs au && decide ((m.1 - upto).toInt > 0)

/-- The areas that queued access units, those in decode and those being copied out keep reserved (R106, R364). -/
def reservedAreas (s : State) : List (Nat × Nat) :=
  (s.ctxs.flatMap fun x => (x.2.queue ++ (match x.2.dec with | some d => [d.au] | none => [])).map fun r => (r.addr, r.length)) ++ chainKeeps s

/-- A place for `n` bytes in an area: the spec does not say which free one is taken (log 7). -/
def areaFor (s : State) (base size n : Nat) : Option Nat :=
  let rs := (reservedAreas s).filter fun r => overlaps base size r.1 r.2
  let cands := (base :: rs.map fun r => r.1 + r.2).filter fun a =>
    decide (base ≤ a) && decide (a + n ≤ base + size) && rs.all fun r => !overlaps a n r.1 r.2
  if cands.isEmpty then none else cands[Config.unstated s.free % cands.length]?

/-- A record enters its context's queue (R106). -/
def queueAu (s : State) (c : Nat) (r : AuRec) : State :=
  let x := s.ctx c
  s.setCtx c { x with queue := x.queue ++ [r], nAus := satInc x.nAus, lastCap := BitVec.ofNat 64 r.capture, disc := false, queuedAt := s.now }

/-- An access unit is discarded: the next one carries DISCONTINUITY (R98). -/
def dropAu (s : State) (f c : Nat) (ovf : Bool) : State :=
  let x := s.ctx c
  let s := s.setCtx c { x with disc := true, nOvf := if ovf then satInc x.nOvf else x.nOvf }
  if ovf then s else s.modFlow f fun y => { y with nAuDrop := satInc y.nAuDrop }

/-- The taint map of a RAW picture: tiles with a short line (R109). -/
def rawTaint (c : Ctx) (p : RawPic) : Bytes :=
  let tx := ceilDiv c.rawW 64
  let short := (List.range c.rawH).filter fun y => p.bad.contains y || decide (p.held y < rawLine c)
  taintBytes tx (ceilDiv c.rawH 64) ((short.map (· / 64)).eraseDups.flatMap fun ty => upFrom (ty * tx) tx)

/-- An access unit of flow `f` is placed in the context's queue (R106): counted as released there. The first one that the flow
delivers of a numbering, not one `old` that still waited when it began, has carried DISCONTINUITY and SEQ_JUMP (R95). -/
def deliverAu (s : State) (f c : Nat) (old : Bool) (r : AuRec) : State :=
  queueAu (s.modFlow f fun y => { y with
    disc := y.disc && old, seqJump := y.seqJump && old, nAus := satInc y.nAus, nAuLoss := satInc y.nAuLoss (Bool.nat (r.flags.getLsbD 2)) }) c r

/-- Releases a RAW picture to its context (R109, R110). -/
def releaseRaw (s : State) (f c : Nat) (old : Bool) (r : AuRec) : State :=
  let x := s.ctx c
  let pic := x.rawPics.find? fun p => p.ts == r.rtpTs
  let s := s.setCtx c { x with rawPics := x.rawPics.filter fun p => p.ts != r.rtpTs }
  match pic, pic.bind (·.buf) with
  | some pic, some b =>
    if x.queue.length ≥ 16 then dropAu s f c true
    else
      let a := rawAddr x b
      let map := rawTaint x pic
      let s := (looseWrite s 8 (flowOwner s f) (a + ceilTo 4096 (rawSize x)) map).1
      let r := { r with addr := a, length := rawSize x }
      sendCopies (deliverAu s f c old r) c r (s.load a (rawSize x) ++ map)
  | _, _ => dropAu s f c false

/-- Releases coded data to its context (R98, R99, R106, R108). -/
def releaseCoded (s : State) (f c : Nat) (old : Bool) (r : AuRec) (nals : List Bytes) : State :=
  let x := s.ctx c
  let y := s.flow f
  let params := decide (x.params ≠ []) && (x.paramNew || r.flags.getLsbD 3)
  let data := (if params then x.params else []) ++ annexB nals
  if x.queue.length ≥ 16 then dropAu s f c true
  else match if noBuffer s f then none else areaFor s (y.base + y.psize) y.ausize data.length with
    | none => dropAu s f c false
    | some a =>
      let s := (looseWrite s.draw 7 (flowOwner s f) a data).1
      let s := s.setCtx c { s.ctx c with paramNew := false }
      let r := { r with addr := a, length := data.length, flags := if params then r.flags ||| 0x40 else r.flags }
      sendCopies (deliverAu s f c old r) c r data

/-- Reads the payloads of packets from the packet area (R13). -/
def fetchPkts (s : State) (f : Nat) : List Pkt → State × List (BitVec 16 × Bytes)
  | [] => (s, [])
  | p :: ps =>
    let r := p.spans.foldl (fun r u => let x := engRead r.1 7 (flowOwner s f) u.1 u.2; (x.1, r.2 ++ x.2.2)) (s, [])
    let rest := fetchPkts r.1 f ps
    (rest.1, (p.seq, r.2) :: rest.2)

/-- Whether the packets of an access unit wait at a gate (R309). -/
def auHeld (s : State) (f : Nat) (au : List Pkt) : Bool := rowsDec s 7 (flowOwner s f) .r (au.flatMap (·.spans)) == .held

/-- Releases an access unit (R97–R104, R106): its losses, its capture time, its record. One of an `old` numbering carries
neither the DISCONTINUITY nor the SEQ_JUMP of the new one (R95). -/
def releaseAu (s : State) (f : Nat) (old : Bool) (au : List Pkt) (lost : Nat) : State :=
  let x := s.flow f
  let arrival := match au.getLast? with | some p => p.ingress | none => 0
  let fetched := fetchPkts s f au
  let s := fetched.1
  let nals := if x.payload = 2 then ([], false) else depack (x.payload == 1) fetched.2 none
  let loss := decide (0 < lost) || nals.2
  let cap := captureOf s x arrival (auTs au)
  let ctxDisc := match x.ctx with | some c => (s.ctx c).disc | none => false
  let run := if x.mode = 1 && x.mapValid then (if cap.2.2 then x.implRun + 1 else 0) else x.implRun
  let flags := BitVec.ofNat 16 (cap.2.1 + Bool.nat loss * 4 + Bool.nat ((x.disc && !old) || ctxDisc) * 8
    + Bool.nat (decide (x.mode = 3)) * 16 + Bool.nat (x.seqJump && !old) * 32)
  let s := s.setFlow f { x with
    nLost := satInc x.nLost lost, nImpl := if cap.2.2 then satInc16 x.nImpl else x.nImpl, implRun := run }
  let s := match mergedWith s f with
    | some _ => au.foldl (fun s p => if p.both then s else s.modFlow p.path fun y => { y with nRecov := satInc y.nRecov }) s
    | none => s
  let s := if run ≥ 8 then mapInvalid s f else s
  let r : AuRec := ⟨unsigned 64 cap.1, arrival, 0, flags, 0, auTs au⟩
  match x.ctx with
  | none => s.modFlow f fun y => { y with nAuDrop := satInc y.nAuDrop }
  | some c =>
    if (s.ctx c).state = .closed then s.modFlow f fun y => { y with nAuDrop := satInc y.nAuDrop }
    else if x.payload = 2 then releaseRaw s f c old r else releaseCoded s f c old r nals.1

/-- Whether an access unit of flow `f` that ended at `t` is released now: hold_us later (R96), unless its packets wait at a gate. -/
def auDue (s : State) (f : Nat) (au : List Pkt) (t : Option Nat) : Bool :=
  match t with
  | some t => decide (((1000 * (s.flow f).hold : Nat) : Int) ≤ s.since t) && !auHeld s f au
  | none => false

/-- The stream's oldest access unit reaches its end time plus hold_us (R96). -/
def doAuRelease (fi : Fin 1024) (s : State) : State :=
  let f := fi.val
  let x := s.flow f
  if !s.ctl.core || !ingestOn s || primary s f != f || !streamRuns s f then s
  else match x.old with
    | o :: more =>
      let a := firstAu o.pkts
      let l := auLost o.lastSeq o.ends a.1 a.2
      if auDue s f a.1 (some ((auEnd o.ends a.1 a.2).getD o.endedAt)) then
        let rest := if a.2.isEmpty then more else { o with pkts := a.2, ends := endsAfter o.ends a.1 l.2, lastSeq := some l.2 } :: more
        releaseAu (s.setFlow f { x with old := rest }) f true a.1 l.1
      else s
    | [] =>
      let a := firstAu x.pkts
      let l := auLost x.lastSeq x.ends a.1 a.2
      if auDue s f a.1 (auEnd x.ends a.1 a.2) then
        releaseAu (s.setFlow f { x with pkts := a.2, ends := endsAfter x.ends a.1 l.2, lastSeq := some l.2, lastTs := some (auTs a.1) }) f false a.1 l.1
      else s

def execAuRelease (f : Fin 1024) (s : State) : Host.Outcome State Fault Refusal := .next (doAuRelease f s)

/-! ### FLOW commands -/

/-- The flow FLOW_ADD describes (Table 4.7). -/
def flowOf (q : Req) : Flow :=
  { state := .stopped, portMask := BitVec.ofNat 8 (q.u8 18), keys := BitVec.ofNat 5 (q.u8 19), vlan := BitVec.ofNat 12 (q.u16 20)
    dport := BitVec.ofNat 16 (q.u16 22), daddr := BitVec.ofNat 128 (q.uN 24 16), saddr := BitVec.ofNat 128 (q.uN 40 16)
    ssrc := BitVec.ofNat 32 (q.u32 56), rtcp := BitVec.ofNat 16 (q.u16 60) }

def maskFlowAdd : Nat := bodyMask [(16, 0, 24), (19, 0, 5), (20, 0, 12), (22, 0, 16), (24, 0, 304)]

/-- FLOW_ADD (R93, R94). -/
def flowAdd (q : Req) (s : State) : State × Nat × BitVec 128 :=
  let i := q.u16 16
  let p := q.part.val
  let x := flowOf q
  let free := fun n => (s.flow n).state == .free
  let n := if i = 0xFFFF then (List.range 1024).find? fun n => ownsFlow s p n && free n else some i
  match firstFail [
      ((decide (1023 < i) && i != 0xFFFF) || (!q.bit 19 0 && (q.uN 28 12 != 0 || q.uN 44 12 != 0)), stBadRange),
      (i != 0xFFFF && !ownsFlow s p i, stNotOwner),
      (s.flows.any fun y => y.2.state != .free && flowKeys y.2 == flowKeys x, stFlowExists),
      (match n with | some n => !free n | none => true, stFlowFull)] with
  | some st => (s, st, 0)
  | none => (s.setFlow (n.getD 0) x, stComplete, cplBody [(16, 2, n.getD 0)])

def doFlowAdd (q : Req) (s : State) : State := soileNow s q 0x0201 maskFlowAdd true (flowAdd q)
def execFlowAdd (q : Req) (s : State) : Host.Outcome State Fault Refusal := .next (doFlowAdd q s)

/-- The access units of a stream that wait for release. -/
def waitingAus (x : Flow) : Nat := ((x.pkts.map (·.ts)).eraseDups).length + (x.old.map fun o => ((o.pkts.map (·.ts)).eraseDups).length).foldl (· + ·) 0

/-- Discards what a stream has not released (R94); one path of a pair that still runs keeps it (R100). -/
def flowDiscard (s : State) (f : Nat) : State :=
  let other : Bool := match mergedWith s f with | some g => (s.flow g).state == .running | none => false
  if other then s
  else
    let g := primary s f
    let x := s.flow g
    let s := s.setFlow g { x with nAuDrop := satInc x.nAuDrop (waitingAus x), pkts := [], ends := [], old := [], synced := false, probe := none }
    match x.ctx with
    | some c => s.setCtx c { s.ctx c with disc := true, rawPics := [] }
    | none => s

/-- A flow command on a flow of the partition (R21). The spec gives FLOW_STOP and FLOW_DEL no status on a FREE flow: BAD_RANGE.
DESIGN CHOICE (log 132). -/
def flowCmd (q : Req) (s : State) (run : State → Nat → State) : State × Nat × BitVec 128 :=
  let f := q.u16 16
  match firstFail [(decide (1023 < f), stBadRange), (!ownsFlow s q.part.val f, stNotOwner), ((s.flow f).state == .free, stBadRange)] with
  | some st => (s, st, 0)
  | none => (run s f, stComplete, 0)

/-- Stops a flow (R94). -/
def flowStop (s : State) (f : Nat) : State :=
  if (s.flow f).state = .running then flowDiscard (s.setFlow f { s.flow f with state := .stopped }) f else s

def doFlowStop (q : Req) (s : State) : State := soileNow s q 0x0203 (bodyMask [(16, 0, 16)]) true fun s => flowCmd q s flowStop
def execFlowStop (q : Req) (s : State) : Host.Outcome State Fault Refusal := .next (doFlowStop q s)

/-- The sequence state of flow `a`, with what it stores, goes to flow `b` (R100; log 133). -/
def handSeq (s : State) (a b : Nat) : State :=
  let x := s.flow a
  let s := s.setFlow b { s.flow b with
    synced := x.synced, h := x.h, disc := x.disc, seqJump := x.seqJump, probe := x.probe, curSsrc := x.curSsrc, pkts := x.pkts, ends := x.ends
    old := x.old, lastSeq := x.lastSeq, lastTs := x.lastTs }
  s.setFlow a { x with synced := false, probe := none, pkts := [], ends := [], old := [], lastSeq := none, lastTs := none }

/-- Frees a flow (R94). A path of its pair that still runs keeps the stream (R100, log 133). -/
def flowDel (s : State) (f : Nat) : State :=
  let s := flowStop s f
  let s := match mergedWith s f with
    | some g => if (s.flow g).state = FlowState.running ∧ primary s f = f then handSeq s f g else s
    | none => s
  s.setFlow f {}

/-- FLOW_DEL (R94). -/
def doFlowDel (q : Req) (s : State) : State :=
  soileNow s q 0x0204 (bodyMask [(16, 0, 16)]) true fun s => flowCmd q s flowDel

def execFlowDel (q : Req) (s : State) : Host.Outcome State Fault Refusal := .next (doFlowDel q s)

/-- Whether the buffer of a FLOW_CFG is not one of device memory (R13, Table 4.7). ST 2110-20 packets go to the context's ring
(R109) and the buffer fields of a secondary flow are ignored (R100): such a buffer need not be there. -/
def flowBufBad (s : State) (q : Req) : Bool :=
  let secondary := q.u16 48 != 0xFFFF && decide (q.u16 48 < q.u16 16)
  !secondary && (q.u40 24 % 4096 != 0 || q.u32 32 % 4096 != 0 || decide (q.u32 32 < 65536) || decide (268435456 < q.u32 32)
    || q.u32 56 % 4096 != 0 || (q.u8 18 != 2 && !inChannel s (q.u40 24) (q.u32 32 + q.u32 56)))

/-- Whether a FLOW_CFG lies outside Table 4.7. -/
def flowCfgBad (s : State) (q : Req) : Bool :=
  let m := q.u16 48
  decide (1023 < q.u16 16) || decide (2 < q.u8 18) || decide (3 < q.u8 19) || flowBufBad s q || decide (500000 < q.u32 36)
    || decide (1023 < q.u16 40) || decide (q.u16 42 < 1) || decide (60000 < q.u16 42) || decide (q.u16 44 < 100) || decide (60000 < q.u16 44)
    || decide (1 < q.u8 46) || decide (128 < q.u8 47) || (decide (1023 < m) && m != 0xFFFF) || decide (255 < q.u16 50)

/-- Whether the merge partner of a FLOW_CFG does not fit (R100). -/
def pairBad (s : State) (f : Nat) (m : Option Nat) (c : Nat) : Bool :=
  (match m with
    | some g => g == f || ((s.flow g).ctx.isSome && ((s.flow g).partner != some f || (s.flow g).ctx != some c))
    | none => false)
  || s.flows.any fun x => x.1 != f && x.2.state == .running && x.2.partner == some f && m != some x.1

/-- FLOW_CFG (R94, R100, R102, R107, R109). A payload that does not fit the context's codec is accepted: Table 4.8 has no status for
it. DESIGN CHOICE (log 143). What the pair stores while its secondary still runs is kept while its primary is configured anew
(R100, log 133). -/
def flowCfg (q : Req) (s : State) : State × Nat × BitVec 128 :=
  let f := q.u16 16
  let p := q.part.val
  let m := if q.u16 48 = 0xFFFF then none else some (q.u16 48)
  let c := q.u16 50
  match firstFail [
      (flowCfgBad s q, stBadRange),
      (!ownsFlow s p f || (match m with | some g => !ownsFlow s p g | none => false) || !ownsCtx s p c || (s.ctx c).state == .closed, stNotOwner),
      ((s.flow f).state != .stopped, stFlowRunning), (pairBad s f m c, stBadPair),
      ((q.u8 18 == 2 || (s.ctx c).codec == 2) && (q.u8 19 == 1 || q.u8 19 == 3), stBadMode),
      ((s.ctx c).rx.isSome || s.flows.any (fun x => x.1 != f && some x.1 != m && x.2.ctx == some c), stCtxBusy)] with
  | some st => (s, st, 0)
  | none =>
    let s := mapInvalid s f
    let s := match mergedWith s f with
      | some g => if decide (f < g) && (s.flow g).state == FlowState.running then handSeq s f g else s
      | none => s
    let s := s.setFlow f { s.flow f with
      state := if q.bit 52 0 then .running else .stopped, payload := q.u8 18, mode := q.u8 19, rate := q.u32 20, base := q.u40 24
      psize := q.u32 32, hold := q.u32 36, reorder := q.u16 40, transit := q.u16 42, srLimit := q.u16 44, srTai := q.u8 46 == 1
      pt := q.u8 47, partner := m, ctx := some c, ausize := q.u32 56, synced := false, probe := none, curSsrc := none, lastSeq := none, disc := false
      seqJump := false
      pkts := [], ends := [], old := [], lastTs := none, implRun := 0 }
    match mergedWith s f with
    | some g => if decide (f < g) && (s.flow g).state == FlowState.running then (handSeq (mapInvalid s g) g f, stComplete, 0) else (s, stComplete, 0)
    | none => (s, stComplete, 0)

def maskFlowCfg : Nat := bodyMask [(16, 0, 104), (32, 0, 160), (52, 0, 1), (56, 0, 32)]
def doFlowCfg (q : Req) (s : State) : State := soileNow s q 0x0202 maskFlowCfg true (flowCfg q)
def execFlowCfg (q : Req) (s : State) : Host.Outcome State Fault Refusal := .next (doFlowCfg q s)

/-! ### STREAM commands -/

def maskStreamOpen : Nat := bodyMask [(16, 0, 16), (20, 0, 48), (32, 0, 40)]

/-- STREAM_OPEN (R107, R109). -/
def streamOpen (q : Req) (s : State) : State × Nat × BitVec 128 :=
  let c := q.u8 16
  let raw := q.u8 17 = 2
  let x : Ctx := { rawW := q.u16 20, rawH := q.u16 22, rawFmt := q.u8 24, rawN := q.u8 25, rawBase := q.u40 32 }
  match firstFail [
      (decide (2 < q.u8 17) || (raw && (decide (3 < q.u8 24) || decide (q.u8 25 < 2) || decide (8 < q.u8 25) || q.u40 32 % 4096 != 0
        || !inChannel s x.rawBase (x.rawN * rawStride x))), stBadRange),
      (!ownsCtx s q.part.val c, stNotOwner), ((s.ctx c).state != .closed, stCtxBusy)] with
  | some st => (s, st, 0)
  | none =>
    let x := { s.ctx c with state := .opened, codec := q.u8 17, queue := [], params := [], paramNew := false, disc := false, rawPics := [], rawBusy := [], rawNext := 0, sets := [] }
    (s.setCtx c (if raw then { x with rawW := q.u16 20, rawH := q.u16 22, rawFmt := q.u8 24, rawN := q.u8 25, rawBase := q.u40 32 } else x), stComplete, 0)

def doStreamOpen (q : Req) (s : State) : State := soileNow s q 0x0301 maskStreamOpen true (streamOpen q)
def execStreamOpen (q : Req) (s : State) : Host.Outcome State Fault Refusal := .next (doStreamOpen q s)

/-- STREAM_PARAMS (R108). -/
def streamParams (q : Req) (s : State) : State × Nat × BitVec 128 :=
  let c := q.u8 16
  let n := q.u16 18
  match firstFail [(decide (4096 < n), stBadRange), (!ownsCtx s q.part.val c, stNotOwner), ((s.ctx c).state == .closed, stBadRange)] with
  | some st => (s, st, 0)
  | none =>
    let r := if n = 0 then (s, stComplete, []) else hostRead s q.part.val (q.u64 24) n q.host
    if r.2.1 = stComplete then (r.1.setCtx c { r.1.ctx c with params := r.2.2, paramNew := decide (0 < n) }, stComplete, 0) else (r.1, r.2.1, 0)

def doStreamParams (q : Req) (s : State) : State :=
  soileRead s q 0x0302 (bodyMask [(16, 0, 8), (18, 0, 16), (24, 0, 64)]) true (streamParams q)
def execStreamParams (q : Req) (s : State) : Host.Outcome State Fault Refusal := .next (doStreamParams q s)

/-- STREAM_CLOSE (R107, R126): a flow that does not run no longer names the context. -/
def doStreamClose (q : Req) (s : State) : State :=
  soileNow s q 0x0303 (bodyMask [(16, 0, 8)]) true fun s =>
    let c := q.u8 16
    if !ownsCtx s q.part.val c then (s, stNotOwner, 0)
    else if (s.ctx c).state ≠ .opened || s.flows.any fun x => x.2.state == .running && x.2.ctx == some c then (s, stInUse, 0)
    else
      let s := { s with flows := s.flows.map fun (x : Nat × Flow) => (x.1, if x.2.ctx = some c then { x.2 with ctx := none } else x.2) }
      (s.norm.setCtx c { s.ctx c with state := .closed, codec := 0, queue := [], params := [], paramNew := false, disc := false, rx := none, rawPics := [], sets := [] }, stComplete, 0)

def execStreamClose (q : Req) (s : State) : Host.Outcome State Fault Refusal := .next (doStreamClose q s)

end Sys2Proof.Machine
end

