-- ==== Sys2Proof/Machine/Output.lean ====
section
/-!
DEFINITION. Display output and its verification (chapter 08): HEAD_LINK with its training, HEAD_AUX, hot-plug, the scrim
witness, band CRC, writeback readback and sink test CRC (R218–R241); and the scanout that a gate refuses (R312).
-/

namespace Sys2Proof.Machine

/-! ### Links -/

/-- Per-lane rate times efficiency in kbit/s (Table 8.1). -/
def laneKbit (rate : Nat) : Nat := ([0, 6480000, 9500000, 12825000, 19000000] : List Nat).getD rate 0

/-- The lanes of a lane source for head `n` (Table 8.2): first lane and count. -/
def sourceLanes (n src : Nat) : Nat × Nat :=
  match src with
  | 0 => (28 + 4 * (n / 2) + n % 2 * 2, if n % 2 = 0 then 4 else 2)
  | 1 => (60, 2)
  | 2 => (62, 2)
  | _ => (60, 4)

/-- The lanes a head holds: those of its trained or training link (R220). -/
def heldLanes (n : Nat) (h : Head) : Nat × Nat :=
  if h.trained || h.tx = .training then ((sourceLanes n h.src).1, h.lanes) else (0, 0)

/-- Whether a HEAD_LINK names a link outside the ranges of Table 8.9. -/
def linkBad (h : Head) (n : Nat) (q : Req) : Bool :=
  let lanes := q.u8 18
  let src := q.u8 19
  decide (4 < q.u8 17) || !([1, 2, 4] : List Nat).contains lanes || decide (3 < src) || !([8, 10] : List Nat).contains (q.u8 20)
    || decide ((sourceLanes n src).2 < lanes) || (h.gang && !(src == 3 || (src == 0 && lanes == 4)))

/-- Starts the training of a head's link with the settings it holds (R226): video stops at once (R227). -/
def trainStart (s : State) (n : Nat) (job : Option Nat) : State :=
  let h := s.head n
  (s.setHead n { h with tx := .training, trained := false, linkJob := job, relink := false }).emit (.train n h.rate h.lanes h.src)

/-- The modes in which HEAD_LINK is executed (R227). -/
def linkMode (s : State) : Bool := s.ctl.mode = .shadow || s.ctl.mode = .run || s.ctl.mode = .test

/-- Begins a HEAD_LINK whose turn has come (R219–R221, R226, R227), validated in the order of Table 8.9. -/
def linkBegin (s : State) (j : Job) : State :=
  let q := j.req
  let n := q.u8 16
  let h := s.head n
  let off := q.u8 17 = 0
  let want := ((sourceLanes n (q.u8 19)).1, q.u8 18)
  match firstFail [
      (!linkMode s, stModeDenied),
      (gangMember s n || (!off && linkBad h n q), stBadRange), (decide (s.nHeads ≤ n), stNoResource),
      (!ownsHead s q.part.val n || (h.gang && !ownsHead s q.part.val (n + 1)), stNotOwner),
      (!off && decide (q.u8 19 ≠ 0) && decide (s.fld (QD_CFG 15) 0 3 ≠ 3), stNoLanes),
      (!off && s.heads.any (fun x => x.1 != n && (let l := heldLanes x.1 x.2; overlaps want.1 want.2 l.1 l.2)), stLanesTaken),
      (!off && decide (q.u8 18 * laneKbit (q.u8 17) < h.khz * 3 * q.u8 20), stLinkBw),
      (!off && !h.hpd, stNoSink)] with
  | some st => finish s j.id st (if st = stNoSink then linkBody 5 0 0 else 0)
  | none =>
    if off then finish (let s := linkDark s n; s.setHead n { s.head n with rate := 0 }) j.id stComplete
    else
      trainStart (s.setHead n { h with
        rate := q.u8 17, lanes := q.u8 18, src := q.u8 19, bpc10 := q.u8 20 == 10, limited := q.bit 21 0
        sinkCrc := q.bit 21 1, wbVerify := q.bit 21 2 }) n (some j.id)

/-- Begins an AUX transaction whose turn has come (R230). -/
def auxBegin (s : State) (j : Job) : State :=
  let q := j.req
  let n := q.u8 16
  let len := q.u8 18
  if !(s.head n).hpd then finish s j.id stNoSink
  else
    (s.modJob j.id fun j => { j with running := true }).emit
      (.aux n (q.bit 17 0) (q.bit 17 1) (q.bit 17 2) (BitVec.ofNat 32 (q.u32 20)) (leBytes len (q.uN 24 len)) len)

/-- Whether a job is running. -/
def jobRuns (s : State) (id : Nat) : Bool := match s.job id with | some j => j.running | none => false

/-- Whether a head's AUX channel is in use by a command or by training (R226, R230). -/
def auxBusy (s : State) (n : Nat) : Bool := (s.head n).tx = .training || (s.head n).auxJobs.any (jobRuns s)

/-- Starts the waiting output commands of a head in order: none while its link trains, a HEAD_AUX not while another runs (R230). -/
def linkNext (n : Nat) : Nat → State → State
  | 0, s => s
  | fuel + 1, s =>
    let h := s.head n
    match if h.tx = .training then none else (h.auxJobs.filter fun id => !jobRuns s id).head? with
    | none => s
    | some id =>
      let out := fun (s : State) => s.setHead n { s.head n with auxJobs := (s.head n).auxJobs.filter (· != id) }
      match s.job id with
      | none => linkNext n fuel (out s)
      | some j =>
        if j.opcode.toNat = 0x0B04 then linkNext n fuel (linkBegin (out s) j)
        else if auxBusy s n then s
        else
          let s := auxBegin s j
          linkNext n fuel (if (s.job id).isSome then s else out s)

/-- Takes a head's link DARK; what waited for its training goes on (R226, R230). -/
def linkCut (s : State) (n : Nat) : State := linkNext n ((s.head n).auxJobs.length + 2) (linkDark s n)

/-- HEAD_SET (R186, R187, R189, R193, R198, R80), validated in the order of Table 7.10. A gang takes its odd slot's link DARK, and slot
2i's own where it stands on a source that no gang uses (R221). The second is DEDUCED (log 44). -/
def headSet (q : Req) (s : State) : State × Nat × BitVec 128 :=
  let n := q.u8 16
  let p := q.part.val
  let h := headOf (s.head n) q
  let ls := s.surf (h.liningSurf.getD 0)
  let odd := s.head (n + 1)
  match firstFail [
      (decide (15 < n) || gangMember s n || (h.gang && n % 2 == 1) || decide (7 < h.tg) || timingBad h || pulseBad h
        || (h.liningSurf.isSome && (decide (4095 < h.liningSurf.getD 0) || (ownsSurf s p (h.liningSurf.getD 0) && !ls.created))), stBadRange),
      (decide (s.nHeads ≤ n), stNoResource),
      (!ownsHead s p n || (h.gang && !ownsHead s p (n + 1)) || (h.liningSurf.isSome && !ownsSurf s p (h.liningSurf.getD 0)), stNotOwner),
      (h.liningSurf.isSome && (ls.w != h.hAct || ls.h != h.vAct), stBadFormat),
      (h.gang && slotBusy s (n + 1), stInUse),
      ((s.head n).enabled || (h.gang && odd.enabled), stHeadRunning),
      (tgMismatch s n h, stTgMismatch),
      ((layersOf s n).any fun x => x.2.cur.live && x.2.cur.visible && hitsPulse h x.2.cur, stPulseOverlap)] with
  | some st => (s, st, 0)
  | none =>
    let old := (s.head n).tg
    let was := (s.head n).isSet
    let s := s.setHead n h
    let fits : Bool := h.src == 3 || (h.src == 0 && h.lanes == 4)
    let s := if h.gang then linkCut s (n + 1) else s
    let s := if h.gang && !fits && h.tx != .dark then linkCut s n else s
    let s := if was && old != h.tg then tgRetime s old else s
    (tgRetime s h.tg, stComplete, 0)

def doHeadSet (q : Req) (s : State) : State := soileNow s q 0x0B01 maskHeadSet true (headSet q)
def execHeadSet (q : Req) (s : State) : Host.Outcome State Fault Refusal := .next (doHeadSet q s)

/-- Queues an output command at its head and starts what may start. -/
def linkQueue (s : State) (n id : Nat) : State :=
  let h := s.head n
  linkNext n (h.auxJobs.length + 2) (s.setHead n { h with auxJobs := h.auxJobs ++ [id] })

/-- HEAD_LINK (R219–R221, R226, R227): at once, but a rate asked for while the link still trains waits for that training's end
(log 137). -/
def doHeadLink (q : Req) (s : State) : State :=
  soile s q 0x0B04 (bodyMask [(16, 0, 32), (20, 0, 8), (21, 0, 3)]) (linkMode s)
    fun s id => guardJob s id [(decide (15 < q.u8 16), stBadRange)] fun s =>
      let n := q.u8 16
      if q.u8 17 ≠ 0 ∧ (s.head n).tx = .training then linkQueue s n id
      else match s.job id with
        | some j => linkNext n ((s.head n).auxJobs.length + 2) (linkBegin s j)
        | none => s

def execHeadLink (q : Req) (s : State) : Host.Outcome State Fault Refusal := .next (doHeadLink q s)

/-- Whether the transmitter of a lane is away from its DisplayPort link: its quad is detached, or it is forced out of P0 (R464, R471). -/
def txDeaf (s : State) (n l : Nat) : Bool := s.bit (QD_CFG n) 3 || decide (2 ≤ s.fld (QD_LANE_CTRL n l) 2 2)

/-- The stage at which a training fails, 0 where it succeeds (R226): with a lane that does not send it cannot succeed, and which stage
fails then is open (log 139). -/
def trainedStage (s : State) (n : Nat) (h : Head) (t : Training) : Nat :=
  let first := (sourceLanes n h.src).1
  if t.stage.val = 0 && (List.range h.lanes).any fun i => txDeaf s ((first + i) / 4) ((first + i) % 4) then 1 + Config.unstated s.free % 5
  else t.stage.val

/-- The training procedure ends (R226, R235), with what DPCD 0x00246 read where the sink CRC is on: the part starts the sink's test
CRC by an AUX write, or records that the sink has none. The lanes keep the taps it settled on (R468). -/
def doLinkTrainingDone (head : Fin 16) (t : Training) (s : State) : State :=
  let n := head.val
  let h := s.head n
  if !s.ctl.core || h.tx != .training then s
  else
    let stage := trainedStage s n h t
    let s := if stage = t.stage.val then s else s.draw
    let ok := stage = 0
    let s := s.setReg (HD_TX_SETTINGS n) t.settings
    let s := s.setHead n { h with
      tx := if ok then .linkIdle else .dark, trained := ok, linkJob := none
      lttpr := t.lttprs.toNat % 8, sinkOn := ok && h.sinkCrc && t.crcSupp, sinkCnt := none }
    let lanes := sourceLanes n h.src
    let s := if ok then (List.range h.lanes).foldl (fun s i => s.settleTaps ((lanes.1 + i) / 4) ((lanes.1 + i) % 4)) s else s
    let s := if ok && h.sinkCrc && t.crcSupp then s.emit (.aux n false true false 0x270 [1] 1) else s
    let s := if ok && h.sinkCrc && !t.crcSupp then raise s evSinkCrcUnsupp 0 (16 + n) (headOwner s n) [(n, 4)] else s
    let s := match h.linkJob with
      | some id => finish s id (if ok then stComplete else stLinkFail) (linkBody stage t.lttprs.toNat t.settings)
      | none => s
    linkNext n (h.auxJobs.length + 1) s

def execLinkTrainingDone (head : Fin 16) (t : Training) (s : State) : Host.Outcome State Fault Refusal :=
  .next (doLinkTrainingDone head t s)

/-! ### AUX -/

def maskHeadAux (q : Req) : Nat :=
  bodyMask [(16, 0, 8), (17, 0, 3), (18, 0, 8), (20, 0, if q.bit 17 0 then 7 else 20), (24, 0, 128), (40, 0, 64), (48, 0, 1)]

/-- HEAD_AUX (R230). -/
def doHeadAux (q : Req) (s : State) : State :=
  soile s q 0x0B05 (maskHeadAux q) true fun s id =>
    let n := q.u8 16
    guardJob s id [
      (decide (15 < n) || gangMember s n || q.u8 18 == 0 || decide (16 < q.u8 18), stBadRange), (decide (s.nHeads ≤ n), stNoResource),
      (!ownsHead s q.part.val n, stNotOwner)] fun s => linkQueue s n id

def execHeadAux (q : Req) (s : State) : Host.Outcome State Fault Refusal := .next (doHeadAux q s)

/-- The end of the AUX transaction in progress. -/
def auxEnd (s : State) (n id st : Nat) (body : BitVec 128) : State :=
  let h := s.head n
  linkNext n (h.auxJobs.length + 1) (finish (s.setHead n { h with auxJobs := h.auxJobs.filter (· != id) }) id st body)

/-- The reply to the AUX transaction in progress, or its timeout (R230): the reply bytes are written first. -/
def doAuxReply (head : Fin 16) (r : AuxReply) (s : State) : State :=
  let n := head.val
  match (s.head n).auxJobs.head?.bind s.job with
  | none => s
  | some j =>
    if !s.ctl.core || !j.running then s
    else
      let q := j.req
      match r with
      | .timeout => auxEnd s n j.id stAuxTimeout 0
      | .nack => auxEnd s n j.id stComplete (cplBody [(16, 1, 1)])
      | .defer => auxEnd s n j.id stComplete (cplBody [(16, 1, 2)])
      | .ack bs =>
        let bs := bs.take (q.u8 18)
        let w := if bs.isEmpty then (s, stComplete) else jobWrite s (16 + n) q.part.val (q.bit 48 0) (q.u64 40) bs
        auxEnd w.1 n j.id w.2 (if w.2 = stComplete then cplBody [(17, 1, bs.length)] else 0)

def execAuxReply (head : Fin 16) (r : AuxReply) (s : State) : Host.Outcome State Fault Refusal := .next (doAuxReply head r s)

/-! ### Hot-plug -/

/-- HPD_CHANGE in the log of the head's partition (R228). -/
def hpdEvent (s : State) (n : Nat) : State := raise s evHpdChange 0 (16 + n) (headOwner s n) [(n, 4)]

/-- A hot-plug transition (R228). -/
def doHpdTransition (head : Fin 16) (level : Bool) (s : State) : State :=
  let n := head.val
  if (s.head n).hpd == level then s
  else
    let s := s.setHead n { s.head n with hpd := level }
    if !s.ctl.core || decide (s.nHeads ≤ n) then s else hpdEvent (s.add (HD_TX_HPD n) 0 16 1) n

def execHpdTransition (head : Fin 16) (level : Bool) (s : State) : Host.Outcome State Fault Refusal := .next (doHpdTransition head level s)

/-- Hot-plug has been low for more than 2 ms (R228, R229): a trained link keeps its state. -/
def doHpdDisconnect (head : Fin 16) (s : State) : State :=
  let n := head.val
  let h := s.head n
  if !s.ctl.core || h.hpd || !h.trained then s
  else raiseKey (s.setBit (HD_TX_STATE n) 4 true) n evLinkLost 1 (16 + n) (headOwner s n) [(n, 4)]

def execHpdDisconnect (head : Fin 16) (s : State) : Host.Outcome State Fault Refusal := .next (doHpdDisconnect head s)

/-- An IRQ_HPD: DPCD 0x00200–0x00207 is read once and posted (R228, R229). -/
def doIrqHpd (head : Fin 16) (dpcd : BitVec 64) (s : State) : State :=
  let n := head.val
  if !s.ctl.core || decide (s.nHeads ≤ n) then s
  else
    let s := hpdEvent ((s.setBit (HD_TX_STATE n) 3 true).add (HD_TX_HPD n) 16 16 1) n
    let s := s.setPair (HD_TX_LINKST_LO n) (HD_TX_LINKST_HI n) dpcd.toNat
    raise s evLinkStatus 0 (16 + n) (headOwner s n) [(dpcd.toNat, 64)]

def execIrqHpd (head : Fin 16) (dpcd : BitVec 64) (s : State) : Host.Outcome State Fault Refusal := .next (doIrqHpd head dpcd s)

/-! ### The verifier -/

/-- A first-difference capture (R232): `base` is the status register, the frame and two values follow it. -/
def verCapture (s : State) (base n b : Nat) (frame : BitVec 64) (x y : Nat) : State :=
  if s.bit base 31 then s
  else
    let s := s.setReg base (BitVec.ofNat 32 (n + b * 2 ^ 4 + 2 ^ 31))
    ((s.setReg (base + 4) (BitVec.ofNat 32 frame.toNat)).setReg (base + 8) (BitVec.ofNat 32 x)).setReg (base + 12) (BitVec.ofNat 32 y)

/-- The band of a running head that a verifier event names. -/
def bandRuns (s : State) (n b : Nat) : Bool := s.ctl.core && (s.head n).enabled && decide (b < (s.head n).bands)

/-- The first differing band of a witness frame in error (R234). -/
def witnessError (s : State) (n b counted expected : Nat) : State :=
  let run := s.fld (VFY_HEAD_STATE n) 0 2
  let frame := (s.head n).frame.toNat
  let s := s.setFld (VFY_HEAD_STATE n) 0 2 (Nat.min 3 (run + 1))
  if run = 0 then raiseKey s n evScrimMismatch 2 15 31 [(n, 4), (b, 7), (frame, 16)]
  else if run = 2 then
    raise s evScrimWitness 3 15 31 [(n, 4), (b, 7), (frame, 16), (capAt 262143 counted, 18), (capAt 262143 expected, 18)]
  else s

/-- The witness compares its count of a band with the expected count (R233, R234): `unpainted` hatch pixels did not
show the scrim colour at the tap. -/
def doWitnessBandCompare (head : Fin 16) (band : Fin 68) (unpainted : Nat) (s : State) : State :=
  let n := head.val
  let b := band.val
  if !bandRuns s n b then s
  else
    let h := s.head n
    let expected := scrimExpected s n b
    let counted := expected - unpainted
    let s := s.setHead n { h with witRan := true }
    if counted = expected then s
    else
      let s := verCapture (s.inc VFY_SCRIM_MIS) VFY_SCAP_STATUS n b h.frame (counted % 2 ^ 18) (expected % 2 ^ 18)
      let s := s.setHead n { s.head n with witBad := true }
      if h.witBad then s else witnessError s n b counted expected

def execWitnessBandCompare (head : Fin 16) (band : Fin 68) (unpainted : Nat) (s : State) : Host.Outcome State Fault Refusal :=
  .next (doWitnessBandCompare head band unpainted s)

/-- The band CRC comparison (R231, R232): `fault` is what a fault after the tap changes in the transmitter's CRC. A band
that was not serialised in VIDEO is counted and not compared (R227). -/
def doBandCrcCompare (head : Fin 16) (band : Fin 68) (fault : BitVec 32) (s : State) : State :=
  let n := head.val
  let b := band.val
  if !bandRuns s n b then s
  else
    let h := s.head n
    if h.tx != .video then s.inc (HD_TX_SKIP n)
    else if fault = 0 then s
    else
      let tap := BitVec.ofNat 32 (tapCrc s n b)
      let s := verCapture (s.inc VFY_BAND_MIS) VFY_BCAP_STATUS n b h.frame tap.toNat (tap ^^^ fault).toNat
      raiseKey s n evBandCrc 2 15 31 [(n, 4), (b, 7), (h.frame.toNat, 16)]

def execBandCrcCompare (head : Fin 16) (band : Fin 68) (fault : BitVec 32) (s : State) : Host.Outcome State Fault Refusal :=
  .next (doBandCrcCompare head band fault s)

/-- Reads the pieces of a written band back (R237): none where one of them waits (R309). -/
def readBack (s : State) (p : Nat) (ws : List (Nat × Bytes)) : State × Option Bytes :=
  ws.foldl (fun a w =>
    let x := engRead a.1 15 p w.1 w.2.length
    (x.1, if x.2.1 = .held then none else a.2.map (· ++ x.2.2))) (s, some [])

/-- The readback of a band that has been written (R237): `fault` is what differs in the bytes read. -/
def doWbReadback (head : Fin 16) (band : Fin 68) (fault : BitVec 32) (s : State) : State :=
  let n := head.val
  let b := band.val
  let h := s.head n
  match h.wbCur with
  | none => s
  | some c =>
    if !bandRuns s n b || !h.wbVerify then s
    else
      let ws := wbBand s n b (s.surf (wbSurf h c.1))
      let ctx := bandContext n b c.2.1 true
      let wr := BitVec.ofNat 32 (crc32c ctx (ws.flatMap (·.2)))
      let r := readBack (wbWriteBand s n b) (headOwner s n) ws
      match r.2 with
      | none => s
      | some back =>
        let rd := BitVec.ofNat 32 (crc32c ctx back) ^^^ fault
        if rd = wr then r.1
        else
          let s := verCapture (r.1.inc VFY_WB_MIS) VFY_WCAP_STATUS n b c.2.1 wr.toNat rd.toNat
          raiseKey s n evWbCrc 2 15 31 [(n, 4), (b, 7), (c.2.1.toNat, 16)]

def execWbReadback (head : Fin 16) (band : Fin 68) (fault : BitVec 32) (s : State) : Host.Outcome State Fault Refusal :=
  .next (doWbReadback head band fault s)

/-! ### Sink test CRC -/

/-- A mismatch of the sink test CRC (R236). -/
def sinkMismatch (s : State) (n : Nat) (count : BitVec 4) : State :=
  let run := Nat.min 15 (s.fld (VFY_HEAD_STATE n) 2 4 + 1)
  let s := (s.inc (HD_TX_SINK_MIS n)).setFld (VFY_HEAD_STATE n) 2 4 run
  let s := raiseKey s n evSinkCrcMismatch 1 (16 + n) (headOwner s n) [(n, 4), (count.toNat, 4)]
  if !(s.head n).sinkRec && decide (s.fld VFY_CFG 0 4 ≤ run) then
    raiseKey (s.setHead n { s.head n with sinkRec := true }) n evSinkCrcPersist 2 15 (headOwner s n) [(n, 4), (run, 4)]
  else s

/-- The sink's test CRC is read at line v_active / 2 (R236). -/
def doSinkCrcRead (head : Fin 16) (r : SinkRead) (s : State) : State :=
  let n := head.val
  let h := s.head n
  if !s.ctl.core || !h.enabled || !h.sinkOn || !(h.tx = .video || h.tx = .training) then s
  else if auxBusy s n || !r.ok then s.inc (HD_TX_SINK_SKIP n)
  else
    let s := s.setReg (HD_TX_SINK_RG n) (BitVec.ofNat 32 (r.r.toNat + r.g.toNat * 2 ^ 16))
    let s := s.setReg (HD_TX_SINK_B n) (BitVec.ofNat 32 (r.b.toNat + r.count.toNat * 2 ^ 16))
    if h.sinkCnt == some r.count then s.inc (HD_TX_SINK_STALE n)
    else
      let s := s.setHead n { h with sinkCnt := some r.count }
      if h.crcs.contains (r.r, r.g, r.b) then (s.setHead n { s.head n with sinkRec := false }).setFld (VFY_HEAD_STATE n) 2 4 0
      else sinkMismatch s n r.count

def execSinkCrcRead (head : Fin 16) (r : SinkRead) (s : State) : Host.Outcome State Fault Refusal := .next (doSinkCrcRead head r s)

/-! ### Scanout refused or held -/

/-- The pieces of memory that scanout of a layer reads for one active line (R194). -/
def lineRows (s : State) (l : Layer) (y : Nat) : List (Nat × Nat) :=
  let f := s.surf (l.buf.getD 0)
  let r := ((l.cur.cropY : Int) + (y : Int) - l.cur.dstY).toNat
  let o := l.cur.cropX * fmtBytes f.fmt
  let n := l.cur.cropW * fmtBytes f.fmt
  (f.base + r * f.pitch + o, n) :: if fmt420 f.fmt then [(f.base + f.pitch * f.h + r / 2 * f.pitch + o, n)] else []

/-- A piece of a layer that a gate does not let pass: its active line, its columns from the layer's left edge, and the
memory it lies in. -/
structure Shut where
  y    : Nat
  x0   : Nat
  x1   : Nat
  addr : Nat
  len  : Nat
  deriving DecidableEq, Repr

/-- The pieces of a layer's active line that a gate does not let pass, cut at multiples of 4 KiB, which no burst crosses
(R298, R299): one page of a plane holds the same columns of both planes of a 4:2:0 line. -/
def shutLine (s : State) (p : Nat) (l : Layer) (y : Nat) : List Shut :=
  let k := fmtBytes (s.surf (l.buf.getD 0)).fmt
  (lineRows s l y).flatMap fun r =>
    ((pages r.1 r.2).filter fun g => rowsDec s 14 p .r [g] != .ok).map fun g =>
      ⟨y, (g.1 - r.1) / k, ceilDiv (g.1 - r.1 + g.2) k, g.1, g.2⟩

/-- The pieces that lines `lo` to `hi` of band `b` miss of a layer. -/
def shutPieces (s : State) (p : Nat) (h : Head) (l : Layer) (b lo hi : Nat) : List Shut :=
  let r := bandRows h l.cur b
  (((List.range (hi + 1 - lo)).map (64 * b + lo + ·)).filter fun y => decide (r.1 ≤ y) && decide (y < r.2)).flatMap (shutLine s p l)

/-- The scanout bursts among `rs` that a gate refuses are read, each a violation (R306, R314); one that is held reads
nothing. -/
def shutReads (s : State) (p : Nat) (rs : List (Nat × Nat)) : State :=
  rs.eraseDups.foldl (fun s r =>
    if rowsDec s 14 p .r [r] = .ok || rowsDec s 14 p .r [r] = .held then s else (engRead s 14 p r.1 r.2).1) s

/-- The evaluations of a layer in a band become STALE without an age (R312). -/
def blackEvals (band layer : Nat) (es : List BandEval) : List BandEval :=
  es.map fun x => if x.band = band then
    { x with evals := x.evals.map fun e => if e.layer = layer then { e with verdict := .stale, age := none } else e } else x

/-- The scanout bursts of a layer for lines `lo` to `hi` of a band were refused, or held past their lines (R306, R312):
the pixels they would have supplied are black, the layer's evaluations in the band are STALE, and the first such burst of a
band in a frame is counted and recorded. -/
def doGateIsoLate (head : Fin 16) (band : Fin 68) (layer : Fin 256) (lo hi : Fin 64) (s : State) : State :=
  let n := head.val
  let b := band.val
  let l := s.layer layer.val
  let p := headOwner s n
  let xs := shutPieces s p (s.head n) l b lo.val hi.val
  if !bandRuns s n b || !l.created || l.head != n || !l.cur.visible || l.buf.isNone || xs.isEmpty then s
  else
    let s := shutReads s p (xs.map fun x => (x.addr, x.len))
    let h := s.head n
    let first := !h.held.any fun x => x.2 == b
    let h := { h with held := if h.held.contains (layer.val, b) then h.held else h.held ++ [(layer.val, b)]
                      black := h.black ++ xs.map fun x => (layer.val, x.y, x.x0, x.x1) }
    let h := if l.cur.live then { h with evals := blackEvals b layer.val h.evals, hot := blackEvals b layer.val h.hot } else h
    let s := s.setHead n h
    if first then raise (s.inc GATE_ISO_LATE) evGateIsoLate 1 36 p [] else s

def execGateIsoLate (head : Fin 16) (band : Fin 68) (layer : Fin 256) (lo hi : Fin 64) (s : State) :
    Host.Outcome State Fault Refusal := .next (doGateIsoLate head band layer lo hi s)

end Sys2Proof.Machine
end

