-- ==== Sys2Proof/Machine/Sections.lean ====
section
/-!
DEFINITION. The sections of a checkpoint image (R382, Table 14.2): what one carries, and its writing as bytes. The spec gives no
layout: records are written as numbers, numbers as bytes, and every byte is masked by a free value, so that a section
reads back as what was written and its bytes are open (log 42).
-/

namespace Sys2Proof.Machine

/-- The carried state (Table 14.2): by section the registers that differ from their reset value, and the records of the tables without
what is never carried. -/
structure Carried where
  regs    : List (List (Nat × Word)) := List.replicate 11 []
  parts   : Tbl Part := []
  flows   : Tbl Flow := []
  egress  : Tbl Egress := []
  ctxs    : Tbl Ctx := []
  follows : Tbl Follow := []
  encs    : Tbl Enc := []
  surfs   : Tbl Surface := []
  heads   : Tbl Head := []
  layers  : Tbl Layer := []
  touch   : Tbl Touch := []
  txS     : Tbl TxSlot := []
  txF     : Tbl TxSlot := []
  rxF     : Tbl RxSlot := []
  rings   : Tbl (Option (Bool × Nat × BitVec 64 × BitVec 32)) := []
  deriving DecidableEq, Repr, Inhabited

/-! ### Numbers as bytes -/

/-- A number in groups of seven bits, the lowest first; the first argument bounds the groups. -/
def numBytes : Nat → Nat → Bytes
  | 0, _ => [0]
  | k + 1, n => if n < 128 then [BitVec.ofNat 8 n] else BitVec.ofNat 8 (n % 128 + 128) :: numBytes k (n / 128)

/-- The numbers that bytes hold. -/
def byteNums : Bytes → List Nat
  | [] => []
  | b :: bs => if b.toNat < 128 then b.toNat :: byteNums bs else match byteNums bs with
    | n :: ns => (b.toNat - 128 + 128 * n) :: ns
    | [] => []

/-- A stream of numbers as bytes. -/
def numsBytes (ns : List Nat) : Bytes := ns.flatMap fun n => numBytes n n

/-! ### Values as numbers -/

/-- A way to write values as numbers in a stream, and to read them from its front. -/
structure Ser (α : Type) where
  put : α → List Nat
  get : List Nat → α × List Nat

/-- An optional number, and a signed one, as a number. -/
def optNat (o : Option Nat) : Nat := match o with | some n => n + 1 | none => 0
def natOpt (n : Nat) : Option Nat := if n = 0 then none else some (n - 1)
def intNat (i : Int) : Nat := if 0 ≤ i then 2 * i.toNat else 2 * (-i).toNat + 1
def natInt (n : Nat) : Int := if n % 2 = 0 then (n / 2 : Nat) else -((n / 2 : Nat) : Int)

/-- The kind of a layer's source, and what it names (R192). -/
def sourceKind (x : LSource) : Nat := match x with | .surface _ => 0 | .followIpp _ => 1 | .followDec _ => 2
def sourceName (x : LSource) : Nat := match x with | .surface n => optNat n | .followIpp k => k | .followDec c => c
def sourceOf (k n : Nat) : LSource := if k = 0 then .surface (natOpt n) else if k = 1 then .followIpp n else .followDec n

namespace Ser

variable {α β : Type}

def nat : Ser Nat := ⟨fun n => [n], fun l => (l.headD 0, l.tail)⟩

/-- Written as another value is. -/
def via (s : Ser α) (f : β → α) (g : α → β) : Ser β := ⟨fun x => s.put (f x), fun l => (g (s.get l).1, (s.get l).2)⟩

/-- One after the other. -/
def pair (s : Ser α) (t : Ser β) : Ser (α × β) :=
  ⟨fun x => s.put x.1 ++ t.put x.2, fun l => (((s.get l).1, (t.get (s.get l).2).1), (t.get (s.get l).2).2)⟩

/-- `n` values read one after the other. -/
def times (s : Ser α) : Nat → List Nat → List α × List Nat
  | 0, l => ([], l)
  | n + 1, l => ((s.get l).1 :: (times s n (s.get l).2).1, (times s n (s.get l).2).2)

/-- A list, its length first. -/
def list (s : Ser α) : Ser (List α) := ⟨fun xs => xs.length :: xs.flatMap s.put, fun l => s.times (l.headD 0) l.tail⟩

def opt (s : Ser α) : Ser (Option α) := (list s).via Option.toList List.head?
def int : Ser Int := nat.via intNat natInt
def word : Ser Word := nat.via BitVec.toNat (BitVec.ofNat 32)

/-- A table: its keys with their records. -/
def tbl (s : Ser α) : Ser (Tbl α) := list (nat.pair s)

/-- A report ring (R261): partition, place, size, base; its sequence begins anew. -/
def ring : Ser (Nat × Bool × Nat × BitVec 64 × BitVec 32) := (list nat).via
  (fun r => [r.1, Bool.nat r.2.1, r.2.2.1, r.2.2.2.1.toNat])
  (fun l => (l.getD 0 0, l.getD 1 0 == 1, l.getD 2 0, BitVec.ofNat 64 (l.getD 3 0), 0))


/-! ### The records of Table 14.2 -/

/-- A partition (R270–R274): its state only as far as it is free or not. -/
def part : Ser Part := (list nat).via
  (fun p => [p.port, (if p.state = .free then 0 else 1), p.heads.toNat, p.touch.toNat, p.surf.base, p.surf.count, p.layer.base, p.layer.count,
    p.ctx.base, p.ctx.count, p.flow.base, p.flow.count, p.follow.base, p.follow.count, p.sess.base, p.sess.count, p.egr.base, p.egr.count,
    p.qLdg, p.qDec, p.qIpp, p.qEnc])
  (fun l => let v := fun i => l.getD i 0
    { port := v 0, state := if v 1 = 0 then .free else .bound, heads := BitVec.ofNat 16 (v 2), touch := BitVec.ofNat 2 (v 3),
      surf := ⟨v 4, v 5⟩, layer := ⟨v 6, v 7⟩, ctx := ⟨v 8, v 9⟩, flow := ⟨v 10, v 11⟩, follow := ⟨v 12, v 13⟩, sess := ⟨v 14, v 15⟩,
      egr := ⟨v 16, v 17⟩, qLdg := v 18, qDec := v 19, qIpp := v 20, qEnc := v 21 })

/-- The CTRL ring of a partition, which begins anew (R372). -/
def ctrl : Ser (Option (Bool × Nat × BitVec 64 × BitVec 32)) := (list nat).via
  (fun o => match o with | some r => [1, Bool.nat r.1, r.2.1, r.2.2.1.toNat] | none => [0])
  (fun l => if l.getD 0 0 = 1 then some (l.getD 1 0 == 1, l.getD 2 0, BitVec.ofNat 64 (l.getD 3 0), 0) else none)

/-- A flow: its keys, configuration and state (Table 4.7). -/
def flow : Ser Flow := (list nat).via
  (fun f => [(match f.state with | .free => 0 | .stopped => 1 | .running => 2), f.portMask.toNat, f.keys.toNat, f.vlan.toNat, f.dport.toNat,
    f.daddr.toNat, f.saddr.toNat, f.ssrc.toNat, f.rtcp.toNat, f.payload, f.mode, f.rate, f.base, f.psize, f.hold, f.reorder, f.transit,
    f.srLimit, Bool.nat f.srTai, f.pt, optNat f.partner, optNat f.ctx, f.ausize])
  (fun l => let v := fun i => l.getD i 0
    { state := match v 0 with | 0 => .free | 1 => .stopped | _ => .running, portMask := BitVec.ofNat 8 (v 1), keys := BitVec.ofNat 5 (v 2),
      vlan := BitVec.ofNat 12 (v 3), dport := BitVec.ofNat 16 (v 4), daddr := BitVec.ofNat 128 (v 5), saddr := BitVec.ofNat 128 (v 6),
      ssrc := BitVec.ofNat 32 (v 7), rtcp := BitVec.ofNat 16 (v 8), payload := v 9, mode := v 10, rate := v 11, base := v 12,
      psize := v 13, hold := v 14, reorder := v 15, transit := v 16, srLimit := v 17, srTai := v 18 == 1, pt := v 19,
      partner := natOpt (v 20), ctx := natOpt (v 21), ausize := v 22 })

/-- An egress slot (R111). -/
def egr : Ser Egress := (list nat).via
  (fun e => [Bool.nat e.enabled, e.port, e.head, e.cfg.toNat])
  (fun l => let v := fun i => l.getD i 0
    { enabled := v 0 == 1, port := v 1, head := v 2, cfg := BitVec.ofNat 384 (v 3) })

/-- An open context, its parameter sets and its binding to cores (R107–R109, R118). -/
def ctx : Ser Ctx := ((list nat).pair ((list nat).via (fun (b : Bytes) => b.map (·.toNat)) (fun l => l.map (BitVec.ofNat 8)))).via
  (fun c => ([(if c.state = .closed then 0 else 1), c.codec, c.rawW, c.rawH, c.rawFmt, c.rawN, c.rawBase, Bool.nat c.rx.isSome,
    (c.rx.map fun r => r.1).getD 0, (c.rx.map fun r => r.2.1).getD 0, (c.rx.map fun r => r.2.2.1).getD 0,
    (c.rx.map fun r => r.2.2.2).getD 0, c.rxPart, c.div, c.cores.toNat, c.charge, c.rateR, c.poolN, c.poolBase, Bool.nat c.seiOn,
    Bool.nat c.fenceOn, Bool.nat c.fenceHost, c.sideBase, c.outBase, c.expId.toNat, c.fenceAt.toNat], c.params))
  (fun y => let v := fun i => y.1.getD i 0
    { state := if v 0 = 0 then .closed else if v 17 = 0 then .opened else .seeking, codec := v 1, rawW := v 2, rawH := v 3, rawFmt := v 4,
      rawN := v 5, rawBase := v 6, rx := if v 7 = 1 then some (v 8, v 9, v 10, v 11) else none, rxPart := v 12, div := v 13,
      cores := BitVec.ofNat 16 (v 14), charge := v 15, rateR := v 16, poolN := v 17, poolBase := v 18, seiOn := v 19 == 1,
      fenceOn := v 20 == 1, fenceHost := v 21 == 1, sideBase := v 22, outBase := v 23, expId := BitVec.ofNat 32 (v 24),
      fenceAt := BitVec.ofNat 64 (v 25), params := y.2 })

/-- An IPP follow slot (R159). -/
def follow : Ser Follow := (list nat).via
  (fun f => [Bool.nat f.bound, f.prm.inst, Bool.nat f.prm.pair, Bool.nat f.prm.nearest, f.prm.rot, f.prm.crop.1, f.prm.crop.2.1, f.prm.crop.2.2.1,
    f.prm.crop.2.2.2, Bool.nat f.prm.fenceOn, Bool.nat f.prm.fenceHost, f.prm.fenceAt.toNat, f.prm.fenceVal.toNat, f.ctx, f.m, f.first,
    f.charge, f.rate])
  (fun l => let v := fun i => l.getD i 0
    { bound := v 0 == 1,
      prm := ⟨v 1, v 2 == 1, v 3 == 1, v 4, (v 5, v 6, v 7, v 8), v 9 == 1, v 10 == 1, BitVec.ofNat 64 (v 11), BitVec.ofNat 64 (v 12)⟩,
      ctx := v 13, m := v 14, first := v 15, charge := v 16, rate := v 17 })

/-- An encode session (Table 6.9). -/
def enc : Ser Enc := (list nat).via
  (fun e => [Bool.nat e.opened, Bool.nat e.h265, Bool.nat e.follow, Bool.nat e.rowSweep, Bool.nat e.gvHost, e.cores.toNat, e.w, e.h, e.num, e.den,
    e.rc, e.qpMin, e.qpMax, e.qpInit, e.rate, e.peak, e.bufMs, e.refresh, e.slice, e.head, e.div, e.slots, e.base, e.slotSize,
    e.ident.toNat, e.charge])
  (fun l => let v := fun i => l.getD i 0
    { opened := v 0 == 1, h265 := v 1 == 1, follow := v 2 == 1, rowSweep := v 3 == 1, gvHost := v 4 == 1, cores := BitVec.ofNat 8 (v 5),
      w := v 6, h := v 7, num := v 8, den := v 9, rc := v 10, qpMin := v 11, qpMax := v 12, qpInit := v 13, rate := v 14, peak := v 15,
      bufMs := v 16, refresh := v 17, slice := v 18, head := v 19, div := v 20, slots := v 21, base := v 22, slotSize := v 23,
      ident := BitVec.ofNat 32 (v 24), charge := v 25 })

/-- A surface descriptor with its ledger binding (R30, R183). -/
def surf : Ser Surface := ((list nat).pair (list nat)).via
  (fun f => ([Bool.nat f.created, f.base, f.pitch, f.w, f.h, f.fmt, Bool.nat f.bt2020, Bool.nat f.full, Bool.nat f.reg, f.frzFrames, f.frzPct,
    f.watchMs, f.lbase], f.watch))
  (fun y => let v := fun i => y.1.getD i 0
    { created := v 0 == 1, base := v 1, pitch := v 2, w := v 3, h := v 4, fmt := v 5, bt2020 := v 6 == 1, full := v 7 == 1,
      reg := v 8 == 1, frzFrames := v 9, frzPct := v 10, watchMs := v 11, lbase := v 12, watch := y.2 })

/-- A head: HEAD_SET, HEAD_ENABLE, HEAD_WB and HEAD_LINK parameters. -/
def head : Ser Head := (list nat).via
  (fun h => [Bool.nat h.isSet, Bool.nat h.enabled, Bool.nat h.gang, h.tg, Bool.nat h.hpol, Bool.nat h.vpol, h.khz, h.hAct, h.hFront, h.hSync,
    h.hBack, h.vAct, h.vFront, h.vSync, h.vBack, h.lining.toNat, optNat h.liningSurf, h.pulse, h.px, h.py, Bool.nat h.wbOn, h.wbFmt,
    Bool.nat h.wb2020, Bool.nat h.wbFull, h.wbA, h.wbB, h.wbRec, Bool.nat h.trained, h.rate, h.lanes, h.src, Bool.nat h.bpc10,
    Bool.nat h.limited, Bool.nat h.sinkCrc, Bool.nat h.wbVerify])
  (fun l => let v := fun i => l.getD i 0
    { isSet := v 0 == 1, enabled := v 1 == 1, gang := v 2 == 1, tg := v 3, hpol := v 4 == 1, vpol := v 5 == 1, khz := v 6, hAct := v 7,
      hFront := v 8, hSync := v 9, hBack := v 10, vAct := v 11, vFront := v 12, vSync := v 13, vBack := v 14,
      lining := BitVec.ofNat 30 (v 15), liningSurf := natOpt (v 16), pulse := v 17, px := v 18, py := v 19, wbOn := v 20 == 1,
      wbFmt := v 21, wb2020 := v 22 == 1, wbFull := v 23 == 1, wbA := v 24, wbB := v 25, wbRec := v 26, trained := v 27 == 1, rate := v 28,
      lanes := v 29, src := v 30, bpc10 := v 31 == 1, limited := v 32 == 1, sinkCrc := v 33 == 1, wbVerify := v 34 == 1 })

/-- A layer's committed state (R190, R191). -/
def layer : Ser Layer := (list nat).via
  (fun l => [Bool.nat l.created, l.head, Bool.nat l.cursor, l.cur.cropX, l.cur.cropY, l.cur.cropW, l.cur.cropH, intNat l.cur.dstX,
    intNat l.cur.dstY, Bool.nat l.cur.visible, l.cur.alpha, l.cur.blend, Bool.nat l.cur.live, l.cur.profile, sourceKind l.cur.source,
    sourceName l.cur.source, l.cur.z, optNat l.buf])
  (fun l => let v := fun i => l.getD i 0
    { created := v 0 == 1, head := v 1, cursor := v 2 == 1,
      cur := { cropX := v 3, cropY := v 4, cropW := v 5, cropH := v 6, dstX := natInt (v 7), dstY := natInt (v 8), visible := v 9 == 1, alpha := v 10, blend := v 11, live := v 12 == 1, profile := v 13, source := sourceOf (v 14) (v 15), z := v 16 },
      buf := natOpt (v 17) })

/-- A touch port: TCH_CFG, TCH_MAP, its reference or band, its report rings (R261). -/
def touch : Ser Touch := ((list nat).pair ((list int).pair ((opt (list int)).pair ((opt (list (pair int int))).pair (list ring))))).via
  (fun t => ([Bool.nat t.cfgd, Bool.nat t.cfg.enable, t.cfg.acq, Bool.nat t.cfg.glove, t.cfg.drives, t.cfg.senses, t.cfg.syncHead, t.cfg.drive,
    t.cfg.gain, t.cfg.trackDiv, t.cfg.delay, t.cfg.window, t.cfg.touchThr, t.cfg.gloveThr, t.cfg.relThr, t.cfg.preThr, t.cfg.wetNodes,
    t.cfg.wetRatio, t.cfg.bridge, t.cfg.maxMove, t.cfg.stuckS, intNat t.cfg.bandLo, intNat t.cfg.bandHi, t.cfg.noise, t.mapHead], t.coefs, t.ref, t.band, t.rings))
  (fun y => let v := fun i => y.1.getD i 0
    { cfgd := v 0 == 1,
      cfg := { enable := v 1 == 1, acq := v 2, glove := v 3 == 1, drives := v 4, senses := v 5, syncHead := v 6, drive := v 7, gain := v 8, trackDiv := v 9, delay := v 10, window := v 11, touchThr := v 12, gloveThr := v 13, relThr := v 14, preThr := v 15, wetNodes := v 16, wetRatio := v 17, bridge := v 18, maxMove := v 19, stuckS := v 20, bandLo := natInt (v 21), bandHi := natInt (v 22), noise := v 23 },
      mapHead := v 24, coefs := y.2.1, ref := y.2.2.1, band := y.2.2.2.1, rings := y.2.2.2.2 })

/-- A transmit slot of the chain (Table 13.9). -/
def tx : Ser TxSlot := (list nat).via
  (fun t => [Bool.nat t.enabled, t.part, Bool.nat t.alt, t.source, t.dst, t.target, t.level])
  (fun l => let v := fun i => l.getD i 0
    { enabled := v 0 == 1, part := v 1, alt := v 2 == 1, source := v 3, dst := v 4, target := v 5, level := v 6 })

/-- A receive slot of the chain (Table 13.9). -/
def rx : Ser RxSlot := (list nat).via
  (fun r => [Bool.nat r.enabled, r.part, r.m, r.origin, r.slot, r.first, Bool.nat r.fenceOn, Bool.nat r.fenceHost, r.fenceAt.toNat])
  (fun l => let v := fun i => l.getD i 0
    { enabled := v 0 == 1, part := v 1, m := v 2, origin := v 3, slot := v 4, first := v 5, fenceOn := v 6 == 1, fenceHost := v 7 == 1,
      fenceAt := BitVec.ofNat 64 (v 8) })

end Ser

/-! ### Sections -/

/-- The numbers of a section: its registers, then its tables (Table 14.2). -/
def sectionNums (id : Nat) (c : Carried) : List Nat :=
  (Ser.list (Ser.pair .nat .word)).put (c.regs.getD id []) ++ match id with
  | 1 => Ser.part.tbl.put c.parts
  | 4 => (Ser.flow.tbl.pair Ser.egr.tbl).put (c.flows, c.egress)
  | 5 => (Ser.ctx.tbl.pair (Ser.follow.tbl.pair Ser.enc.tbl)).put (c.ctxs, c.follows, c.encs)
  | 6 => Ser.surf.tbl.put c.surfs
  | 7 => (Ser.head.tbl.pair Ser.layer.tbl).put (c.heads, c.layers)
  | 8 => Ser.touch.tbl.put c.touch
  | 9 => (Ser.tx.tbl.pair (Ser.tx.tbl.pair (Ser.rx.tbl.pair Ser.ctrl.tbl))).put (c.txS, c.txF, c.rxF, c.rings)
  | _ => []

/-- What a section's numbers say, on top of the sections before it. -/
def sectionState (id : Nat) (ns : List Nat) (c : Carried) : Carried :=
  let r := (Ser.list (Ser.pair .nat .word)).get ns
  let c := { c with regs := c.regs.set id r.1 }
  match id with
  | 1 => { c with parts := (Ser.part.tbl.get r.2).1 }
  | 4 => let x := ((Ser.flow.tbl.pair Ser.egr.tbl).get r.2).1; { c with flows := x.1, egress := x.2 }
  | 5 => let x := ((Ser.ctx.tbl.pair (Ser.follow.tbl.pair Ser.enc.tbl)).get r.2).1; { c with ctxs := x.1, follows := x.2.1, encs := x.2.2 }
  | 6 => { c with surfs := (Ser.surf.tbl.get r.2).1 }
  | 7 => let x := ((Ser.head.tbl.pair Ser.layer.tbl).get r.2).1; { c with heads := x.1, layers := x.2 }
  | 8 => { c with touch := (Ser.touch.tbl.get r.2).1 }
  | 9 =>
    let x := ((Ser.tx.tbl.pair (Ser.tx.tbl.pair (Ser.rx.tbl.pair Ser.ctrl.tbl))).get r.2).1
    { c with txS := x.1, txF := x.2.1, rxF := x.2.2.1, rings := x.2.2.2 }
  | _ => c

/-- The free mask on the bytes of a section. -/
def maskSection (id : Nat) (bs : Bytes) : Bytes := bs.mapIdx fun i b => b ^^^ Config.sectionMask id i

/-- A section's data, and what it reads as (R382). -/
def sectionBytes (id : Nat) (c : Carried) : Bytes := maskSection id (numsBytes (sectionNums id c))
def sectionRead (id : Nat) (bs : Bytes) (c : Carried) : Carried := sectionState id (byteNums (maskSection id bs)) c

end Sys2Proof.Machine
end

