-- ==== Sys2Proof/Machine/TouchPanel.lean ====
section
/-!
DEFINITION. Desk touch sensing (chapter 09): acquisition slots (R245–R250), baselines (R251–R254), blobs and contacts
(R255–R258), the hit-test (R259, R260), reports (R261, R262), the self-test (R263), events (R264), the TCH commands.
-/

namespace Sys2Proof.Machine

/-- Changes a port. -/
def State.modTch (s : State) (p : Nat) (f : Touch → Touch) : State := s.setTch p (f (s.tch p))

/-! ### Geometry and thresholds -/

/-- The nodes of a port, row-major (R242). -/
def TchCfg.nodes (c : TchCfg) : Nat := c.drives * c.senses

/-- Whether the device mode lets the ports scan (Table 9.3): in HANDOVER only the incoming unit. -/
def tchMode (s : State) : Bool :=
  match s.ctl.mode with
  | .prime | .run | .test => true
  | .handover => s.rdn.swap.asPart
  | _ => false

/-- The acquisition mode in use (R247, Table 9.3). -/
def tchAcq (s : State) (t : Touch) : Nat := if s.ctl.mode = .prime then 2 else t.cfg.acq

/-- A threshold, doubled in NOISE acquisition (R249). -/
def tchThr (s : State) (t : Touch) (v : Nat) : Int := if tchAcq s t = 2 then 2 * (v : Int) else v

/-- The number of 1 bits. -/
def popcount : Nat → Nat → Nat
  | 0, _ => 0
  | n + 1, v => v % 2 + popcount n (v / 2)

/-- The chip of a drive row (R245). -/
def chip (d k : Nat) : Int := if popcount 6 ((d + 1) &&& k) % 2 = 0 then 1 else -1

/-- The samples of one column over 512 drive slots, times the row's code (R246). -/
def corr (slots : List (List Int)) (d c from_ n : Nat) : Int :=
  (List.range n).foldl (fun (a : Int) i => a + chip d ((from_ + i) % 64) * ((slots.getD (from_ + i) []).getD c 0)) 0

/-- Sorted ascending. -/
def sortI (l : List Int) : List Int := l.foldl (fun a x => insertAfter (fun y => decide (y ≤ x)) x a) []

/-- The raw count of a node (R246). -/
def rawOf (noise : Bool) (slots : List (List Int)) (d c : Nat) : Int :=
  if noise then
    let v := sortI ((List.range 8).map fun r => corr slots d c (64 * r) 64 / 4)
    (v.getD 3 0 + v.getD 4 0) / 2
  else clampI (corr slots d c 0 512 / 32) (-32768) 32767

/-- The raw counts of a scan, row-major. -/
def scanRaw (noise : Bool) (g : TchCfg) (slots : List (List Int)) : List Int :=
  (List.range g.nodes).map fun n => rawOf noise slots (n / g.senses) (n % g.senses)

/-! ### Events and reports -/

/-- Raises a touch event, at most once per port and 1,000 ms (R264). -/
def tchEvent (s : State) (p ev cls : Nat) (det : List (Nat × Nat)) : State :=
  raiseKey s p ev cls (32 + p) (touchOwner s p) ((p, 4) :: det)

/-- What a hit-test gives (R259, R260). -/
structure Hit where
  x       : Int
  y       : Int
  part    : Nat
  layer   : Nat
  liveL   : Nat
  verdict : Nat
  age     : Nat

/-- A report before its sequence (Table 9.6). -/
structure Report where
  event  : Nat
  flags  : Nat
  hit    : Hit
  area   : Nat

/-- Bytes 4–27 of a report (Table 9.6). -/
def reportBytes (s : State) (p : Nat) (r : Report) : Bytes :=
  let h := r.hit
  leBytes 8 s.now ++ leBytes 1 r.event ++ leBytes 1 (r.flags + p * 32) ++ leBytes 1 (h.verdict + Bool.nat (h.liveL != 0xFFFF) * 8)
    ++ leBytes 1 h.part ++ leBytes 2 (unsigned 16 h.x) ++ leBytes 2 (unsigned 16 h.y) ++ leBytes 2 h.layer ++ leBytes 2 h.liveL
    ++ leBytes 2 h.age ++ leBytes 1 (s.tch p).mapHead ++ leBytes 1 (capAt 255 r.area)

/-- Writes a report to its recipient's ring, or drops it (R261). None is written in PRIME or YIELD (Table 9.3). -/
def sendReport (p : Nat) (s : State) (r : Report) : State :=
  if s.ctl.mode = .prime ∨ s.ctl.mode = .yield then s
  else
    let part := r.hit.part
    match (s.tch p).rings.find? fun x => x.1 == part with
    | none => tchEvent (s.inc (TCH_NORING p)) p evTchNoring 0 [(part, 5)]
    | some (_, host, m, base, seq) =>
      let n := seq + 1
      let a := base.toNat + (n - 1).toNat % 2 ^ m * 32
      let put := fun (s : State) (a : Nat) (bs : Bytes) (after : After) => (jobWrite s (32 + p) part host a bs after).1
      let done : After := if (s.part part).port = 4 then .pulse (41 + p) else .nothing
      let s := s.modTch p fun t => { t with rings := t.rings.map fun x => if x.1 = part then (part, host, m, base, n) else x }
      let s := put (put (put s (a + 28) (leBytes 4 0) .nothing) (a + 4) (reportBytes s p r) .nothing) a (leBytes 4 n.toNat) .nothing
      (put s (a + 28) (leBytes 4 n.toNat) done).inc (TCH_REPORTS p)

/-! ### Hit-test -/

/-- Whether a visible layer's destination holds a point with global alpha above 0 (R259). -/
def hitLayer (l : Layer) (x y : Int) : Bool :=
  l.cur.visible && decide (0 < l.cur.alpha) && decide (l.cur.dstX ≤ x) && decide (x < l.cur.dstX + (l.cur.cropW : Int))
    && decide (l.cur.dstY ≤ y) && decide (y < l.cur.dstY + (l.cur.cropH : Int))

/-- The highest live-class layer at the point that no fully opaque layer covers (R259); layers from the top down. -/
def liveHit (x y : Int) : List (Nat × Layer) → Option (Nat × Layer)
  | [] => none
  | l :: ls =>
    if hitLayer l.2 x y && l.2.cur.live then some l
    else if hitLayer l.2 x y && l.2.cur.blend == 0 && l.2.cur.alpha == 1023 then none
    else liveHit x y ls

/-- Verdict and age of the live layer's tile at the point, of the latest evaluation of the band (R259). -/
def hitVerdict (s : State) (n : Nat) (l : Nat × Layer) (x y : Int) : Nat × Nat :=
  let f := s.surf (l.2.buf.getD 0)
  let sx := ((l.2.cur.cropX : Int) + x - l.2.cur.dstX).toNat
  let sy := ((l.2.cur.cropY : Int) + y - l.2.cur.dstY).toNat
  let tile := sy / 64 * f.tx + sx / 64
  let es := ((s.head n).hot.filter fun b => b.band == y.toNat / 64).flatMap fun b => b.evals.filter fun e => e.layer == l.1 && e.tile == tile
  match es with
  | e :: _ => (e.verdict.code, match e.age with | some a => capAt 65535 (Int.tdiv a 1000).toNat | none => 65535)
  | [] => (Verdict.stale.code, 65535)

/-- The hit-test at a position of the panel (R259, R260). -/
def hitAt (s : State) (p : Nat) (px py : Int) : Hit :=
  let t := s.tch p
  let k := fun i => t.coefs.getD i 0
  let x := (k 0 * px + k 1 * py + k 2) / 65536
  let y := (k 3 * px + k 4 * py + k 5) / 65536
  let n := t.mapHead
  let h := s.head n
  let ls := (layersOf s n).reverse
  let top := ls.find? fun l => !l.2.cursor && hitLayer l.2 x y
  let live := liveHit x y ls
  let v := match live with | some l => hitVerdict s n l x y | none => (0, 65535)
  let out : Bool := !h.enabled || decide (x < 0) || decide ((h.hAct : Int) ≤ x) || decide (y < 0) || decide ((h.vAct : Int) ≤ y)
  { x := x, y := y, layer := match top with | some l => l.1 | none => 0xFFFF, liveL := match live with | some l => l.1 | none => 0xFFFF
    verdict := v.1, age := v.2
    part := if out then touchOwner s p else match top with | some l => layerOwner s l.1 | none => headOwner s n }

/-- A hit that only names a place, for the port's owner (R260). -/
def placeHit (s : State) (p : Nat) (px py : Int) : Hit :=
  { hitAt s p px py with part := touchOwner s p, layer := 0xFFFF, liveL := 0xFFFF, verdict := 0, age := 0xFFFF }

/-! ### Contacts -/

/-- A report about a contact: recipient as fixed, what the hit-test says now (R260). -/
def contactReport (s : State) (p event : Nat) (c : Contact) : Report :=
  let h := hitAt s p c.px c.py
  ⟨event, c.id + Bool.nat c.glove * 16, { h with part := c.part, x := c.x, y := c.y }, c.area⟩

/-- Ends every open contact with CANCEL (R249, R251, R254, Table 9.3). -/
def cancelAll (s : State) (p : Nat) : State :=
  let cs := (s.tch p).contacts
  let s := cs.foldl (fun s c => sendReport p s (contactReport s p 3 c)) s
  s.modTch p fun t => { t with contacts := [], cands := [] }

/-- What a start brings (R251): contacts end, the next scan sets the baselines. -/
def tchBegin (s : State) (p : Nat) : State :=
  (cancelAll s p).modTch p fun t => { t with starting := true, startAt := s.now, lost := false }

/-- The slot that a port starting now takes next (R248): with a sync head past its first active line, none in this frame. -/
def startLine (s : State) (t : Touch) : Nat :=
  let n := t.cfg.syncHead
  if tchAcq s t == 0 && (s.head n).enabled && decide (0 ≤ bandPast s n 0) then (s.head n).vAct else 0

/-- Scanning starts (R251) with slots to come. -/
def tchStart (s : State) (p : Nat) : State :=
  let s := pinsOff (tchBegin s p) p
  s.modTch p fun t => { t with slotAt := s.now, lslots := [], line := startLine s t, edge := false, slotSeen := false }

/-- Scanning stops (R250): the scan in progress is given up. -/
def tchStop (s : State) (p : Nat) : State :=
  pwrEnd ((pinsOff s p).modTch p fun t => { t with lslots := [], edge := false, slotSeen := false }) (pwrTch p)

/-- A port leaves its self-test: slots count from here on as after a start (R248). -/
def testLeave (s : State) (p : Nat) : State :=
  (pinsOff s p).modTch p fun t => { t with test := none, lslots := [], line := startLine s t, edge := false, slotSeen := false, slotAt := s.now }

/-- A self-test is cut off, its job ABORTED: it runs only in TEST and on a port that is not stopped (R263, R265). The spec names
no status. DESIGN CHOICE (log 138). -/
def testCut (s : State) (p : Nat) : State :=
  match (s.tch p).test with
  | none => s
  | some x => finish (tchStop (testLeave s p) p) x.1 stAborted

/-- The device mode changed from `old` (R250, R251). A self-test ends with TEST. The outgoing unit of a swap cancels its contacts;
in YIELD nothing more is written. -/
def touchModes (s : State) (old : Bool) : State :=
  s.each 2 fun s p =>
    let s := if s.ctl.mode = .test then s else testCut s p
    if !(s.tch p).cfg.enable then s
    else if tchMode s && !old then tchStart s p
    else if !tchMode s && old then tchStop (if s.ctl.mode = .yield then s else cancelAll s p) p
    else s

/-! ### Baselines -/

/-- The range a node must read in to count as untouched where no reference is loaded (R251). -/
def bandOf (t : Touch) (n : Nat) : Int × Int := match t.band with | some b => b.getD n (0, 0) | none => (t.cfg.bandLo, t.cfg.bandHi)

/-- Whether a first raw value makes a node pre-touched, with the baseline it takes then (R251). -/
def preTouch (s : State) (t : Touch) (n : Nat) (r : Int) : Bool × Int :=
  match t.ref with
  | some ref =>
    let e := ref.getD n 0
    if tchThr s t t.cfg.preThr < (r - e).natAbs then (true, e) else (false, r)
  | none =>
    let b := bandOf t n
    if r < b.1 ∨ b.2 < r then (true, (b.1 + b.2) / 2) else (false, r)

/-- The first scan after a start (R251), or after TCH_REBASE (R254). -/
def firstScan (s : State) (t : Touch) (raw : List Int) : Touch :=
  let ns := List.range t.cfg.nodes
  if t.learn then { t with base := raw, pre := [], preOk := [], preStuck := [], learn := false, starting := false }
  else
    let v := ns.map fun n => preTouch s t n (raw.getD n 0)
    { t with base := v.map (·.2), pre := ns.filter fun n => (v.getD n (false, 0)).1, preOk := [], preStuck := [], starting := false }

/-- Whether a pre-touched node reads as released (R252). -/
def inRelease (s : State) (t : Touch) (n : Nat) (r : Int) : Bool :=
  match t.ref with
  | some ref => decide (((r - ref.getD n 0).natAbs : Int) ≤ tchThr s t t.cfg.preThr / 2)
  | none => let b := bandOf t n; decide (b.1 ≤ r) && decide (r ≤ b.2)

/-- Pre-touched nodes read in the release range in two consecutive scans are released (R252). -/
def releaseScan (s : State) (t : Touch) (raw : List Int) : Touch :=
  let ok := t.pre.filter fun n => inRelease s t n (raw.getD n 0)
  let free := ok.filter t.preOk.contains
  { t with
    base := (List.range t.cfg.nodes).map fun n => if free.contains n then raw.getD n 0 else t.base.getD n 0
    pre := t.pre.filter fun n => !free.contains n, preOk := ok.filter fun n => !free.contains n
    preStuck := t.preStuck.filter fun n => !free.contains n }

/-- The delta of a node (R252). -/
def delta (t : Touch) (raw : List Int) (n : Nat) : Int := if t.pre.contains n then 0 else t.base.getD n 0 - raw.getD n 0

/-- Whether two nodes share an edge, or touch at all. -/
def edgeNext (w a b : Nat) : Bool := (a / w + 1 == b / w || b / w + 1 == a / w) && a % w == b % w || (a / w == b / w && (a % w + 1 == b % w || b % w + 1 == a % w))
def nearNode (w a b : Nat) : Bool :=
  decide (a / w ≤ b / w + 1) && decide (b / w ≤ a / w + 1) && decide (a % w ≤ b % w + 1) && decide (b % w ≤ a % w + 1)

/-- Baselines follow nodes away from every blob (R253). -/
def trackBase (t : Touch) (raw : List Int) (blobs : List (List Nat)) : Touch :=
  let w := t.cfg.senses
  let near := fun n => blobs.any fun b => b.any (nearNode w n)
  { t with base := (List.range t.cfg.nodes).map fun n =>
      let b := t.base.getD n 0
      if t.pre.contains n || near n then b else b + Int.sign (raw.getD n 0 - b) }

/-! ### Blobs -/

/-- A blob (R255, R258). -/
structure Blob where
  nodes : List Nat
  peak  : Nat × Nat
  p     : Int
  n     : Nat
  cls   : Nat
  px    : Int
  py    : Int

/-- The nodes of `rest` joined to `cur` through shared edges, and the others. -/
def growBlob (w : Nat) : Nat → List Nat → List Nat → List Nat × List Nat
  | 0, cur, rest => (cur, rest)
  | fuel + 1, cur, rest =>
    let adj := rest.filter fun n => cur.any (edgeNext w n)
    if adj.isEmpty then (cur, rest) else growBlob w fuel (cur ++ adj) (rest.filter fun n => !adj.contains n)

/-- The connected sets of a list of nodes. -/
def components (w : Nat) : Nat → List Nat → List (List Nat)
  | 0, _ => []
  | _ + 1, [] => []
  | fuel + 1, n :: ns => let g := growBlob w ns.length [n] ns; g.1 :: components w fuel g.2

/-- The squared distance of two nodes. -/
def dist2 (a b : Nat × Nat) : Nat := (((a.1 : Int) - b.1) ^ 2 + ((a.2 : Int) - b.2) ^ 2).toNat

/-- The detection threshold of a node (R255). -/
def nodeThr (s : State) (t : Touch) (n : Nat) : Int :=
  let at_ := (n / t.cfg.senses, n % t.cfg.senses)
  if t.contacts.any fun c => decide (dist2 c.peak at_ ≤ t.cfg.maxMove ^ 2) then tchThr s t t.cfg.relThr
  else tchThr s t (if t.cfg.glove then t.cfg.gloveThr else t.cfg.touchThr)

/-- The class of a blob by Table 9.4: 1 bridge, 2 WET, 3 BARE, 4 GLOVE, 5 otherwise. -/
def blobClass (s : State) (t : Touch) (nodes : List Nat) (p : Int) (sum : Int) : Nat :=
  let w := t.cfg.senses
  let cols := (nodes.map (· % w)).eraseDups
  let n := nodes.length
  if (nodes.map (· / w)).eraseDups.length = 1 ∧ t.cfg.bridge ≤ cols.length then 1
  else if t.cfg.wetNodes ≤ n ∧ 16 * p * (n : Int) / sum < (t.cfg.wetRatio : Int) then 2
  else if tchThr s t t.cfg.touchThr ≤ p then 3
  else if t.cfg.glove ∧ tchThr s t t.cfg.gloveThr ≤ p then 4
  else 5

/-- The position of a blob from its peak (R258). -/
def centroid (t : Touch) (raw : List Int) (pk : Nat × Nat) : Int × Int :=
  let weight := fun (d c : Int) =>
    if d < 0 ∨ (t.cfg.drives : Int) ≤ d ∨ c < 0 ∨ (t.cfg.senses : Int) ≤ c then 0 else max 0 (delta t raw (d.toNat * t.cfg.senses + c.toNat))
  let cells : List (Int × Int) := [(-1, -1), (-1, 0), (-1, 1), (0, -1), (0, 0), (0, 1), (1, -1), (1, 0), (1, 1)]
  let w := fun (c : Int × Int) => weight (pk.1 + c.1) (pk.2 + c.2)
  let sum := fun (f : Int × Int → Int) => cells.foldl (fun (a : Int) c => a + f c) 0
  let sw := sum w
  (256 * (pk.2 : Int) + Int.tdiv (256 * sum fun c => c.2 * w c) sw, 256 * (pk.1 : Int) + Int.tdiv (256 * sum fun c => c.1 * w c) sw)

/-- A blob from its nodes. -/
def blobOf (s : State) (t : Touch) (raw : List Int) (nodes : List Nat) : Blob :=
  let dl := delta t raw
  let pk := match nodes with
    | [] => 0
    | n :: ns => ns.foldl (fun a b => if dl a < dl b ∨ (dl a = dl b ∧ b < a) then b else a) n
  let sum := nodes.foldl (fun (a : Int) n => a + dl n) 0
  let at_ := (pk / t.cfg.senses, pk % t.cfg.senses)
  let c := centroid t raw at_
  ⟨nodes, at_, dl pk, nodes.length, blobClass s t nodes (dl pk) sum, c.1, c.2⟩

/-- The blobs of a scan (R255). -/
def blobsOf (s : State) (t : Touch) (raw : List Int) : List Blob :=
  let on := (List.range t.cfg.nodes).filter fun n => decide (nodeThr s t n ≤ delta t raw n) && !t.pre.contains n
  (components t.cfg.senses on.length on).map (blobOf s t raw)

/-! ### Tracking -/

/-- Greedy matching in ascending distance: pairs of an index of the first list and one of the second (R256). -/
def matchUp (lim : Nat) (xs ys : List (Nat × Nat)) : List (Nat × Nat) :=
  let ps := (List.range xs.length).flatMap fun i => (List.range ys.length).map fun j => (dist2 (xs.getD i (0, 0)) (ys.getD j (0, 0)), i, j)
  let ps := (ps.filter fun p => decide (p.1 ≤ lim ^ 2)).foldl (fun a p => insertAfter (fun (q : Nat × Nat × Nat) => decide (q.1 ≤ p.1)) p a) []
  ps.foldl (fun m p => if m.any fun q => q.1 == p.2.1 || q.2 == p.2.2 then m else m ++ [p.2]) []

/-- A contact matched to a blob: MOVE, or CANCEL on a WET blob (R256). -/
def moveContact (p : Nat) (s : State) (c : Contact) (b : Blob) : State :=
  if b.cls ≤ 2 then sendReport p s (contactReport s p 3 c)
  else
    let h := hitAt s p b.px b.py
    let near : Bool := decide ((b.px - c.down.1) ^ 2 + (b.py - c.down.2) ^ 2 ≤ 65536)
    let c' := { c with
      peak := b.peak, px := b.px, py := b.py, glove := b.cls == 4, area := b.n, layer := h.layer, liveL := h.liveL, verdict := h.verdict
      age := h.age, x := h.x, y := h.y, miss := 0
      still := near, nearAt := if near && !c.still then s.now else c.nearAt }
    let moved : Bool := h.x != c.x || h.y != c.y || h.layer != c.layer || h.liveL != c.liveL || h.verdict != c.verdict
    let s := s.modTch p fun t => { t with contacts := t.contacts ++ [c'] }
    if moved then sendReport p s (contactReport s p 1 c') else s

/-- A contact without a blob: UP at the second scan in a row (R256). -/
def missContact (p : Nat) (s : State) (c : Contact) : State :=
  if 1 ≤ c.miss then sendReport p s (contactReport s p 2 c)
  else s.modTch p fun t => { t with contacts := t.contacts ++ [{ c with miss := c.miss + 1 }] }

/-- A confirmed candidate becomes a contact with the lowest free ID (R256, R260). -/
def downContact (p : Nat) (s : State) (k : Cand) (b : Blob) : State :=
  match (List.range 10).find? fun i => !((s.tch p).contacts.any fun c => c.id == i) with
  | none => s.inc (TCH_OVER p)
  | some id =>
    let h := hitAt s p b.px b.py
    let c : Contact := { id := id, peak := b.peak, px := b.px, py := b.py, down := (b.px, b.py), nearAt := s.now, glove := b.cls == 4, area := b.n
                         part := k.part, layer := h.layer, liveL := h.liveL, verdict := h.verdict, age := h.age, x := h.x, y := h.y, miss := 0
                         stuck := false, still := true }
    let s := s.modTch p fun t => { t with contacts := t.contacts ++ [c] }
    sendReport p s ⟨0, id + Bool.nat c.glove * 16, ⟨h.x, h.y, k.part, k.layer, k.liveL, k.verdict, k.age⟩, b.n⟩

/-- A candidate matched by a blob is confirmed after two scans, three in NOISE acquisition (R249, R256). -/
def candContact (p : Nat) (s : State) (k : Cand) (b : Blob) : State :=
  if k.seen + 1 ≥ (if tchAcq s (s.tch p) = 2 then 3 else 2) then downContact p s k b
  else s.modTch p fun t => { t with cands := t.cands ++ [{ k with peak := b.peak, seen := k.seen + 1 }] }

/-- A new candidate takes its hit-test (R256, R259, R260). -/
def newCand (p : Nat) (s : State) (b : Blob) : State :=
  let h := hitAt s p b.px b.py
  s.modTch p fun t => { t with cands := t.cands ++ [⟨b.peak, 1, h.part, h.layer, h.liveL, h.verdict, h.age⟩] }

/-- Contacts and candidates of a scan (R256): candidates are matched among the unmatched blobs of class BARE or GLOVE, which alone make
and confirm them. -/
def trackScan (p : Nat) (s : State) (bs : List Blob) : State :=
  let t := s.tch p
  let cs := t.contacts
  let ks := t.cands
  let m := matchUp t.cfg.maxMove (cs.map (·.peak)) (bs.map (·.peak))
  let left := (List.range bs.length).filter fun j => !m.any fun q => q.2 == j
  let lb := (left.filterMap fun j => bs[j]?).filter fun b => b.cls == 3 || b.cls == 4
  let km := matchUp t.cfg.maxMove (ks.map (·.peak)) (lb.map (·.peak))
  let s := s.modTch p fun t => { t with contacts := [], cands := [] }
  let s := (List.range cs.length).foldl (fun s i =>
    match cs[i]?, (m.find? fun q => q.1 == i).bind fun q => bs[q.2]? with
    | some c, some b => moveContact p s c b
    | some c, none => missContact p s c
    | none, _ => s) s
  let s := (List.range ks.length).foldl (fun s i =>
    match ks[i]?, (km.find? fun q => q.1 == i).bind fun q => lb[q.2]? with
    | some k, some b => candContact p s k b
    | _, _ => s) s
  (List.range lb.length).foldl (fun s j =>
    match lb[j]? with
    | some b => if km.any fun q => q.2 == j then s else newCand p s b
    | none => s) s

/-- WET blobs of a scan (R257). -/
def wetScan (p : Nat) (s : State) (bs : List Blob) : State :=
  let old := (s.tch p).wet
  let wet := bs.filter fun b => decide (b.cls ≤ 2)
  let rep := fun (s : State) (ev n : Nat) (x y : Int) (br : Bool) =>
    sendReport p s ⟨ev, 0xF + Bool.nat br * 64, { placeHit s p 0 0 with x := x, y := y }, n⟩
  let s := wet.foldl (fun s b =>
    if old.any fun o => o.1.any b.nodes.contains then s
    else
      let h := placeHit s p b.px b.py
      let br : Bool := b.cls == 1
      let s := rep s 5 b.n h.x h.y br
      let s := (s.add (TCH_WET p) 0 16 1).add (TCH_WET p) 16 16 (Bool.nat br)
      tchEvent s p evTchWet 0 [(capAt 255 b.n, 8), (Bool.nat br, 1)]) s
  let s := match wet, old with
    | [], o :: _ => rep s 6 o.2.2.2 o.2.1 o.2.2.1 false
    | _, _ => s
  s.modTch p fun t => { t with wet := wet.map fun b => let h := placeHit s p b.px b.py; (b.nodes, h.x, h.y, b.n) }

/-! ### Listen slots -/

/-- The listen level of the slots collected (R246), its counter and event (R264). -/
def listenDone (s : State) (p : Nat) : State :=
  let t := s.tch p
  if t.lslots.isEmpty then s
  else
    let cols := (List.range t.cfg.senses).map fun c => (t.lslots.foldl (fun (m : Nat) r => Nat.max m (r.getD c 0).natAbs) 0 : Nat)
    let level := cols.foldl Nat.max 0
    let loud : Bool := decide (t.cfg.noise < level)
    let run := if loud then t.noiseRun + 1 else 0
    let s := s.setTch p { t with listen := cols.map fun (v : Nat) => (v : Int), lslots := [], noiseRun := run }
    let s := (s.setFld (TCH_NOISE p) 0 16 level).add (TCH_NOISE p) 16 16 (Bool.nat loud)
    if 8 ≤ run then tchEvent s p evTchNoise 1 [(level, 16)] else s

/-- A frame boundary at head `n` (R247–R249): the frame of the ports synchronised to it ends, lost ports scan again. A self-test goes on
by its own timing (R263). -/
def touchBoundary (s : State) (n : Nat) : State :=
  s.each 2 fun s p =>
    let t := s.tch p
    if t.cfg.enable && tchMode s && tchAcq s t == 0 && t.cfg.syncHead == n then
      if t.test.isSome then s.modTch p fun t => { t with lost := false }
      else (pinsOff (listenDone s p) p).modTch p fun t => { t with line := 0, lost := false, slotAt := if t.lost then s.now else t.slotAt }
    else s

/-! ### Slots -/

/-- What slot `k` of a frame or cycle is in an acquisition mode (Table 9.1): the drive slot's number in its scan, or
none for a listen slot. -/
def slotKind (s : State) (t : Touch) (acq k : Nat) : Option Nat :=
  match acq with
  | 0 => if k / 512 < (s.head t.cfg.syncHead).vAct / 512 then some (k % 512) else none
  | 1 => if k < 512 then some k else none
  | _ => if k < 64 then none else some (k - 64)

/-- The length of a cycle in slots. -/
def cycleLen (s : State) (t : Touch) (acq : Nat) : Nat := match acq with | 0 => (s.head t.cfg.syncHead).vAct | 1 => 544 | _ => 576

/-- TCH_MAP, TCH_BASELINE and TCH_REBASE take effect at a scan start (R265). -/
def applyNext (s : State) (p : Nat) : State :=
  let t := s.tch p
  let s := match t.mapNext with
    | some m =>
      s.setTch p { t with mapHead := m.1, coefs := m.2, mapNext := none }
    | none => s
  let s := if t.baseNext.isEmpty then s
    else tchBegin (s.modTch p fun t => t.baseNext.foldl (fun t b => match b.1 with
      | 0 => { t with ref := some b.2, baseNext := [] }
      | 1 => { t with band := some ((List.range t.cfg.nodes).map fun n => (b.2.getD (2 * n) 0, b.2.getD (2 * n + 1) 0)), baseNext := [] }
      | _ => { t with ref := none, band := none, baseNext := [] }) t) p
  if t.rebase then
    (tchBegin s p).modTch p fun t => { t with rebase := false, learn := true, pre := [], preOk := [], preStuck := [] }
  else s

/-- A slot's samples, one per used column, held to 12 bits (R245). -/
def samplesOf (t : Touch) (xs : List Int) : List Int := (List.range t.cfg.senses).map fun c => clampI (xs.getD c 0) (-2048) 2047

/-- The edges that the used drive electrodes make in a slot (R245): 1 rising, −1 falling, 0 for a row that is not driven and stays at
half the amplitude (R263). -/
def slotEdges (g : TchCfg) (on : Nat → Bool) (k : Nat) : List Int := (List.range g.drives).map fun d => if on d then chip d (k % 64) else 0

/-- A slot of a scan or a pass: the rows in `on` are driven, the columns sampled (R245). -/
def takeSlot (s : State) (p : Nat) (on : Nat → Bool) (xs : List Int) : State :=
  let t := s.tch p
  (s.setTch p { t with slots := t.slots ++ [samplesOf t xs], driven := true }).emit
    (.touchPins p (some (t.cfg.drive, slotEdges t.cfg on t.slots.length)))

/-- A drive slot: the first of a scan begins it where the arbiter has granted its start (R250). -/
def driveSlot (s : State) (p i : Nat) (xs : List Int) : State :=
  let s := if i = 0 then
      let go := pwrReady s (pwrTch p)
      let s := pinsOff (if go then applyNext s p else s) p
      s.modTch p fun t => { t with scanning := go }
    else s
  let t := s.tch p
  if t.scanning && t.slots.length == i then takeSlot s p (fun _ => true) xs else s

/-- The rows a pass of the self-test drives: pass 0 is F, pass 1 + 2k + v is (k, v) (R263). -/
def passDrives (pass d : Nat) : Bool := pass == 0 || d / 2 ^ ((pass - 1) / 2) % 2 == (pass - 1) % 2

/-- One slot of the self-test, which runs in TEST: its pass begins once granted (R263). -/
def testSlot (s : State) (p : Nat) (passes : List (List Int)) (xs : List Int) : State :=
  let t := s.tch p
  if s.ctl.mode ≠ .test then s
  else if t.slots.isEmpty && !pwrReady s (pwrTch p) then pwrRequest s (pwrTch p) 6
  else if t.slots.length < 512 then takeSlot s p (passDrives passes.length) xs
  else s

/-- The sync head has an active line left in this frame, or an accepted edge is due (R247). -/
def slotArrives (s : State) (t : Touch) (acq : Nat) : Bool :=
  match acq with
  | 0 => (s.head t.cfg.syncHead).enabled && decide (t.line < (s.head t.cfg.syncHead).vAct)
  | 1 => t.edge
  | _ => true

/-- An acquisition slot of a port (R245–R250). -/
def touchSlot (s : State) (p : Nat) (xs : List Int) : State :=
  let t := s.tch p
  let acq := tchAcq s t
  let s := if acq = t.acqUsed then s
    else (pinsOff s p).modTch p fun t => { t with acqUsed := acq, line := startLine s t, lslots := [] }
  let t := s.tch p
  if !slotArrives s t acq then s
  else
    let k := t.line
    let s := s.setTch p { t with
      edge := false, slotSeen := true, slotAt := s.now
      line := (if acq != 0 && k + 1 == cycleLen s t acq then 0 else k + 1)
      lslots := (if acq == 2 && k == 0 then [] else t.lslots) }
    let s := match slotKind s t acq k with
      | some i => driveSlot s p i xs
      | none => s.modTch p fun t => { t with lslots := t.lslots ++ [samplesOf t xs] }
    let s := if acq = 1 ∧ k = 543 then listenDone s p else s
    if pwrHas s (pwrTch p) then s else pwrRequest s (pwrTch p) 6

def doTouchSlot (p : Fin 2) (samples : List Int) (s : State) : State :=
  let t := s.tch p.val
  if !s.ctl.core || s.absent (32 + p.val) then s
  else match t.test with
  | some x => testSlot s p.val x.2.1 samples
  | none => if !t.cfg.enable || !tchMode s || t.lost then s
  else touchSlot s p.val samples

def execTouchSlot (p : Fin 2) (samples : List Int) (s : State) : Host.Outcome State Fault Refusal := .next (doTouchSlot p samples s)

/-- A rising edge of TSYNCn (R248): EVC sources 50 and 51 see every edge. -/
def doTsyncEdge (pin : Fin 2) (s : State) : State :=
  if !s.ctl.core then s
  else
    let s := evcPulse s (50 + pin.val)
    let t := s.tch pin.val
    if s.absent (32 + pin.val) || !t.cfg.enable || tchAcq s t != 1 || !tchMode s then s
    else match t.tsyncAt with
      | some a =>
        if s.since a < 2000 then s.inc (TCH_TSYNC_FAST pin.val)
        else s.setTch pin.val { t with tsyncAt := some s.now, edge := true, lost := false }
      | none => s.setTch pin.val { t with tsyncAt := some s.now, edge := true, lost := false }

def execTsyncEdge (pin : Fin 2) (s : State) : Host.Outcome State Fault Refusal := .next (doTsyncEdge pin s)

/-! ### Self-test -/

/-- M of R263: a row's mean raw count, times the number of senses, in a pass. -/
def rowSum (g : TchCfg) (raw : List Int) (d : Nat) : Int := (List.range g.senses).foldl (fun (a : Int) c => a + raw.getD (d * g.senses + c) 0) 0

/-- The bits in which a row is flagged as shorted (R263): DRIVE_SHORT holds where it is not 0. -/
def shortBits (g : TchCfg) (passes : List (List Int)) (d : Nat) : Nat :=
  (List.range 6).foldl (fun m k =>
    let v := d / 2 ^ k % 2
    if 4 * rowSum g (passes.getD (1 + 2 * k + v) []) d < 3 * rowSum g (passes.getD 0 []) d then m + 2 ^ k else m) 0

/-- The expected count of a node (R263). -/
def expected (t : Touch) (n : Nat) : Int := match t.ref with | some r => r.getD n 0 | none => let b := bandOf t n; (b.1 + b.2) / 2

/-- The code of a node (Table 9.7). -/
def nodeCode (t : Touch) (passes : List (List Int)) (sat : List Nat) (n : Nat) : Nat :=
  let g := t.cfg
  let raw := passes.getD 0 []
  let d := n / g.senses
  let c := n % g.senses
  let r := fun n => raw.getD n 0
  let e := expected t n
  let weak := fun n => decide (8 * r n < expected t n)
  let col := ((List.range g.drives).filter fun i => weak (i * g.senses + c)).length
  let row := ((List.range g.senses).filter fun i => weak (d * g.senses + i)).length
  let low : Bool := match t.ref with | some _ => decide (r n < e - e / 4) | none => decide (r n < (bandOf t n).1)
  let high : Bool := match t.ref with | some _ => decide (r n > e + e / 4) | none => decide (r n > (bandOf t n).2)
  if 256 ≤ sat.getD c 0 then 4
  else if 9 * g.drives ≤ 10 * col then 2
  else if 9 * g.senses ≤ 10 * row then 1
  else if shortBits g passes d ≠ 0 then 3
  else if low then 5
  else if high then 6
  else 0

/-- The self-test ends: fault map, event, completion (R263, R264, Table 9.9). -/
def testEnd (s : State) (p id : Nat) (passes : List (List Int)) (sat : List Nat) : State :=
  let t := s.tch p
  let s := testLeave s p
  match s.job id with
  | none => s
  | some j =>
    let codes := (List.range t.cfg.nodes).map (nodeCode t passes sat)
    let bad := (List.range codes.length).filter fun n => codes.getD n 0 != 0
    let w := jobWrite s (32 + p) j.req.part.val (j.req.bit 18 0) (j.req.u64 24) (codes.map (BitVec.ofNat 8))
    let first := bad.headD 0
    let code := codes.getD first 0
    let partner := match bad.find? fun n => codes.getD n 0 == 3 with
      | some n => let d := n / t.cfg.senses; d ^^^ shortBits t.cfg passes d
      | none => 0xFF
    let s := if bad.isEmpty then w.1 else tchEvent w.1 p evTchSelftestFault 2 [(bad.length, 16), (first / t.cfg.senses, 8), (first % t.cfg.senses, 8), (code, 8)]
    finish s id w.2 (cplBody [(16, 2, bad.length), (18, 1, code), (19, 1, first / t.cfg.senses), (20, 1, first % t.cfg.senses), (21, 1, partner)])

/-- A pass of the self-test ends (R263). -/
def passEnd (s : State) (p : Nat) (x : Nat × List (List Int) × List Nat) : State :=
  let t := s.tch p
  let raw := scanRaw true t.cfg t.slots
  let sat := if x.2.1.isEmpty then
      (List.range t.cfg.senses).map fun c => (t.slots.filter fun r => decide (r.getD c 0 ≤ -2048) || decide (2047 ≤ r.getD c 0)).length
    else x.2.2
  let passes := x.2.1 ++ [raw]
  let s := pwrEnd (s.setTch p { t with slots := [], test := some (x.1, passes, sat) }) (pwrTch p)
  if passes.length = 13 then testEnd s p x.1 passes sat else s

/-! ### The end of a scan -/

/-- A scan is complete (R246, R251–R257). -/
def scanEnd (s : State) (p : Nat) : State :=
  let t := s.tch p
  let raw := scanRaw (tchAcq s t == 2) t.cfg t.slots
  let first : Bool := t.starting || t.learn
  let t := { t with raw := raw }
  let s := pinsOff (s.setTch p (if first then firstScan s t raw else releaseScan s t raw)) p
  let s := if tchAcq s t = 2 then listenDone s p else s
  let s := s.setReg (TCH_SCANS p) (s.reg (TCH_SCANS p) + 1)
  let bs := blobsOf s (s.tch p) raw
  let s := wetScan p (trackScan p s bs) bs
  let s := s.modTch p fun t =>
    if t.scanNo + 1 < t.cfg.trackDiv then { t with scanNo := t.scanNo + 1 } else { trackBase t raw (bs.map (·.nodes)) with scanNo := 0 }
  pwrRequest (pwrEnd s (pwrTch p)) (pwrTch p) 6

def doTouchScanEnd (p : Fin 2) (s : State) : State :=
  let t := s.tch p.val
  if !s.ctl.core || t.slots.length != 512 then s
  else match t.test with
    | some x => passEnd s p.val x
    | none => if t.scanning && tchMode s then scanEnd s p.val else s

def execTouchScanEnd (p : Fin 2) (s : State) : Host.Outcome State Fault Refusal := .next (doTouchScanEnd p s)

/-- 50 ms without a slot (R249): scanning resumes with a new cycle. -/
def doTouchSyncLost (p : Fin 2) (s : State) : State :=
  let n := p.val
  let t := s.tch n
  if !s.ctl.core || !t.cfg.enable || !tchMode s || tchAcq s t == 2 || t.lost || t.test.isSome || decide (s.since t.slotAt < 50000000) then s
  else
    let s := tchEvent (s.inc (TCH_SYNC_MISS n)) n evTchSyncLost 1 [(tchAcq s t, 2)]
    let s := cancelAll s n
    let s := sendReport n s ⟨7, 0xF, { placeHit s n 0 0 with x := 0, y := 0 }, 0⟩
    tchStop (s.modTch n fun t => { t with lost := true, line := 0 }) n

def execTouchSyncLost (p : Fin 2) (s : State) : Host.Outcome State Fault Refusal := .next (doTouchSyncLost p s)

/-- STUCK_TIME of a resting contact (R254), or of a pre-touched node with contact 0xF (R252). -/
def doTouchStuck (p : Fin 2) (contact : Fin 16) (node : Nat) (s : State) : State :=
  let n := p.val
  let t := s.tch n
  let lim := t.cfg.stuckS * 1000000000
  let say := fun (s : State) (r : Report) =>
    tchEvent ((sendReport n s r).inc (TCH_STUCK n)) n evTouchStuck 0 [(contact.val, 4), (unsigned 16 r.hit.x, 16), (unsigned 16 r.hit.y, 16)]
  if !s.ctl.core || !t.cfg.enable || !tchMode s then s
  else if contact.val = 15 then
    if t.pre.contains node && !t.preStuck.contains node && decide ((lim : Int) ≤ s.since t.startAt) then
      let s := s.setTch n { t with preStuck := t.preStuck ++ [node] }
      say s ⟨4, 0xF, placeHit s n (256 * ((node % t.cfg.senses : Nat) : Int)) (256 * ((node / t.cfg.senses : Nat) : Int)), 0⟩
    else s
  else match t.contacts.find? fun c => c.id == contact.val with
    | none => s
    | some c =>
      if c.stuck || !c.still || decide (s.since c.nearAt < lim) then s
      else
        let s := s.setTch n { t with contacts := t.contacts.map fun x => if x.id = c.id then { x with stuck := true } else x }
        say s { contactReport s n 4 c with hit := { hitAt s n c.px c.py with part := touchOwner s n, x := c.x, y := c.y } }

def execTouchStuck (p : Fin 2) (contact : Fin 16) (node : Nat) (s : State) : Host.Outcome State Fault Refusal := .next (doTouchStuck p contact node s)

/-- The charge pump leaves regulation (R264): every occurrence counts. -/
def doTchPump (p : Fin 2) (s : State) : State :=
  let n := p.val
  let t := s.tch n
  if !s.ctl.core || !t.cfg.enable then s
  else tchEvent ((s.setTch n { t with pumpBad := true }).add (TCH_PUMP n) 16 16 1) n evTchPump 2 []

def execTchPump (p : Fin 2) (s : State) : Host.Outcome State Fault Refusal := .next (doTchPump p s)

/-! ### Commands -/

/-- The configuration a TCH_CFG body describes (Table 9.9). -/
def tchCfgOf (q : Req) : TchCfg :=
  { enable := q.bit 17 0, acq := q.fld 17 1 2, glove := q.bit 17 3, drives := q.u8 18, senses := q.u8 19, syncHead := q.u8 20, drive := q.u8 21
    gain := q.u8 22, trackDiv := q.u8 23, delay := q.u16 24, window := q.u16 26, touchThr := q.u16 28, gloveThr := q.u16 30, relThr := q.u16 32
    preThr := q.u16 34, wetNodes := q.u8 36, wetRatio := q.u8 37, bridge := q.u8 38, maxMove := q.u8 39, stuckS := q.u16 40, bandLo := q.sN 42 2
    bandHi := q.sN 44 2, noise := q.u16 46 }

/-- Whether a value lies outside a range. -/
def outOf (v lo hi : Nat) : Bool := decide (v < lo) || decide (hi < v)

/-- Whether a configuration lies outside Table 9.9. -/
def tchCfgBad (c : TchCfg) : Bool :=
  decide (2 < c.acq) || outOf c.drives 4 48 || outOf c.senses 4 80 || decide (15 < c.syncHead) || decide (2 < c.drive) || decide (3 < c.gain)
    || decide (c.trackDiv < 1) || decide (4095 < c.delay) || outOf c.window 300 2000 || outOf c.touchThr 16 8191 || outOf c.gloveThr 8 c.touchThr
    || outOf c.relThr 4 c.gloveThr || outOf c.preThr 8 8191 || decide (c.wetNodes < 4) || outOf c.wetRatio 16 64 || outOf c.bridge 3 80
    || outOf c.maxMove 1 16 || outOf c.stuckS 10 3600 || decide (c.bandHi ≤ c.bandLo) || outOf c.noise 1 32767

def maskTchCfg : Nat := bodyMask [(16, 0, 8), (17, 0, 4), (18, 0, 240)]

/-- The statuses every port command checks first (Table 9.10): an absent port, its number, its owner. -/
def portChecks (q : Req) (s : State) (bad : Bool) : List (Bool × Nat) :=
  let p := q.u8 16
  [(p == 1 && decide (s.nTch < 2), stNoResource), (decide (1 < p) || bad, stBadRange), (!ownsTouch s q.part.val p, stNotOwner)]

/-- The scan rate in mHz (R247): in SYNC_TSYNC the edge rate is not the part's to know (log 34). -/
def scanRate (s : State) (c : TchCfg) : Nat :=
  let h := s.head c.syncHead
  let total := (h.hAct + h.hFront + h.hSync + h.hBack) * (h.vAct + h.vFront + h.vSync + h.vBack)
  match c.acq with
  | 0 => h.vAct / 512 * (h.khz * 1000000 / Nat.max 1 total)
  | 1 => Config.unstated s.free
  | _ => 120000

/-- Takes a configuration (R265); its charge pump starts in regulation. -/
def tchSet (s : State) (p : Nat) (c : TchCfg) : State :=
  let t := s.tch p
  let same : Bool := t.cfg.drives == c.drives && t.cfg.senses == c.senses
  let s := s.setTch p { t with
    cfg := c, cfgd := true, pumpBad := false, ref := if same then t.ref else none, band := if same then t.band else none
    raw := if same then t.raw else [], listen := if same then t.listen else [], noiseRun := 0, wet := [], scanNo := 0, preStuck := [] }
  if tchMode s then pwrRequest (tchStart s p) (pwrTch p) 6 else s

/-- TCH_CFG (R248, R265, R266). -/
def doTchCfg (q : Req) (s : State) : State :=
  soileNow s q 0x0C01 maskTchCfg true fun s =>
    let p := q.u8 16
    let c := tchCfgOf q
    let h := s.head c.syncHead
    match firstFail (portChecks q s (c.enable && tchCfgBad c) ++ [
        (c.enable && c.acq == 0 && (decide (s.nHeads ≤ c.syncHead) || decide (h.vAct < 512)), stBadSync),
        (c.enable && (s.tch p).cfg.enable, stPortRunning)]) with
    | some st => (s, st, 0)
    | none =>
      if c.enable then
        (tchSet s.draw p c, stComplete, cplBody [(16, 1, if c.acq = 0 then h.vAct / 512 else 0), (20, 4, scanRate s c)])
      else
        let s := tchStop (cancelAll (testCut s p) p) p
        (s.modTch p fun t => { t with cfg := { t.cfg with enable := false } }, stComplete, 0)

def execTchCfg (q : Req) (s : State) : Host.Outcome State Fault Refusal := .next (doTchCfg q s)

/-- TCH_MAP (R259, R265). -/
def doTchMap (q : Req) (s : State) : State :=
  soileNow s q 0x0C02 (bodyMask [(16, 0, 16), (20, 0, 192)]) true fun s =>
    match firstFail ((decide (s.nHeads ≤ q.u8 17) && decide (q.u8 17 ≤ 15), stNoResource) :: portChecks q s (decide (15 < q.u8 17))) with
    | some st => (s, st, 0)
    | none => (s.modTch (q.u8 16) fun t => { t with mapNext := some (q.u8 17, [20, 24, 28, 32, 36, 40].map fun i => q.sN i 4) }, stComplete, 0)

def execTchMap (q : Req) (s : State) : Host.Outcome State Fault Refusal := .next (doTchMap q s)

/-- Whether the mode is one of a list. -/
def modeIn (s : State) (ms : List Mode) : Bool := ms.contains s.ctl.mode

/-- TCH_BASELINE (R251, R265). -/
def doTchBaseline (q : Req) (s : State) : State :=
  soileRead s q 0x0C03 (bodyMask [(16, 0, 16), (18, 0, 1), (24, 0, 64)]) (modeIn s [.prime, .test]) fun s =>
    let p := q.u8 16
    let n := (s.tch p).cfg.nodes * (match q.u8 17 with | 0 => 1 | 1 => 2 | _ => 0)
    match firstFail (portChecks q s (decide (2 < q.u8 17))) with
    | some st => (s, st, 0)
    | none =>
      let r := if n = 0 then (s, stComplete, [])
        else if q.bit 18 0 then hostRead s q.part.val (q.u64 24) (2 * n) q.host
        else let x := engRead s (32 + p) q.part.val (q.u40 24) (2 * n); (x.1, x.2.1.status, x.2.2)
      if r.2.1 != stComplete then (r.1, r.2.1, 0)
      else
        let vs := (List.range n).map fun i => signed 16 (leNat (sliceB r.2.2 (2 * i) 2))
        (r.1.modTch p fun t => { t with baseNext := t.baseNext ++ [(q.u8 17, vs)] }, stComplete, 0)

def execTchBaseline (q : Req) (s : State) : Host.Outcome State Fault Refusal := .next (doTchBaseline q s)

/-- TCH_REBASE (R254, R265). -/
def doTchRebase (q : Req) (s : State) : State :=
  soileNow s q 0x0C04 (bodyMask [(16, 0, 8)]) (modeIn s [.prime, .run, .test]) fun s =>
    match firstFail (portChecks q s false ++ [(!(s.tch (q.u8 16)).cfgd, stNotConfigured)]) with
    | some st => (s, st, 0)
    | none => (s.modTch (q.u8 16) fun t => { t with rebase := true }, stComplete, 0)

def execTchRebase (q : Req) (s : State) : Host.Outcome State Fault Refusal := .next (doTchRebase q s)

/-- The data of TCH_RAW (Table 9.9). -/
def rawData (t : Touch) (kind : Nat) : List Int :=
  let ns := List.range t.cfg.nodes
  match kind with
  | 0 => ns.map fun n => t.raw.getD n 0
  | 1 => ns.map fun n => t.base.getD n 0
  | 2 => ns.map (delta t t.raw)
  | _ => (List.range t.cfg.senses).map fun c => t.listen.getD c 0

/-- TCH_RAW writes the latest scan (R265). -/
def doTchRaw (q : Req) (s : State) : State :=
  soileNow s q 0x0C05 (bodyMask [(16, 0, 16), (18, 0, 1), (24, 0, 64)]) true fun s =>
    let p := q.u8 16
    match firstFail (portChecks q s (decide (3 < q.u8 17) || q.u64 24 % 8 != 0) ++ [(!(s.tch p).cfgd, stNotConfigured)]) with
    | some st => (s, st, 0)
    | none =>
      let w := jobWrite s (32 + p) q.part.val (q.bit 18 0) (q.u64 24) ((rawData (s.tch p) (q.u8 17)).flatMap fun v => leBytes 2 (unsigned 16 v))
      (w.1, w.2, cplBody [(16, 4, (s.reg (TCH_SCANS p)).toNat)])

def execTchRaw (q : Req) (s : State) : Host.Outcome State Fault Refusal := .next (doTchRaw q s)

/-- TCH_SELFTEST (R263): it takes the port until its 13 passes have run; one more on the port follows it. -/
def doTchSelftest (q : Req) (s : State) : State :=
  soile s q 0x0C06 (bodyMask [(16, 0, 8), (18, 0, 1), (24, 0, 64)]) (modeIn s [.test]) fun s id =>
    let p := q.u8 16
    guardJob s id (portChecks q s false ++ [((s.tch p).test.isSome, stPortRunning), (!(s.tch p).cfgd, stNotConfigured)]) fun s =>
      let s := pinsOff (cancelAll s p) p
      pwrRequest ((s.modJob id fun j => { j with running := true }).modTch p fun t =>
        { t with test := some (id, [], []), lslots := [], line := startLine s t }) (pwrTch p) 6

def execTchSelftest (q : Req) (s : State) : Host.Outcome State Fault Refusal := .next (doTchSelftest q s)

/-- TCH_RING (R243, R261): any partition has a ring of its own at a port. -/
def doTchRing (q : Req) (s : State) : State :=
  soileNow s q 0x0C07 (bodyMask [(16, 0, 8), (17, 0, 2), (18, 0, 8), (24, 0, 64)]) true fun s =>
    let p := q.u8 16
    let part := q.part.val
    let on := q.bit 17 0
    match firstFail [(p == 1 && decide (s.nTch < 2), stNoResource),
        (decide (1 < p) || (on && (outOf (q.u8 18) 4 10 || q.u64 24 % 4096 != 0)), stBadRange)] with
    | some st => (s, st, 0)
    | none =>
      (s.modTch p fun t =>
        let rs := t.rings.filter fun r => r.1 != part
        { t with rings := if on then rs ++ [(part, q.bit 17 1, q.u8 18, BitVec.ofNat 64 (q.u64 24), 0)] else rs }, stComplete, 0)

def execTchRing (q : Req) (s : State) : Host.Outcome State Fault Refusal := .next (doTchRing q s)

end Sys2Proof.Machine
end

