-- ==== Sys2Proof/Machine/Checkpoint.lean ====
section
/-!
DEFINITION. Checkpoints (R378–R385, R391): what one carries, its image, header and way into the partner's vault; the
check of a slot of the own vault; the application of the carried state, at a restore and in SHADOW.
-/

namespace Sys2Proof.Machine

/-! ### What a checkpoint carries (Table 14.2) -/

/-- The registers a section carries. -/
def sectionRegs (id : Nat) : List Nat :=
  match id with
  | 1 => PRT_MGR :: (List.range 16).flatMap fun p =>
      [PRT_SW_POLL p, PRT_SW_MIRROR p, PRT_SW_DB_LO p, PRT_SW_DB_HI p, PRT_SW_MIR_LO p, PRT_SW_MIR_HI p]
        ++ (List.range 8).flatMap fun i =>
          [PRT_SW_CR_LO p i, PRT_SW_CR_HI p i, PRT_SW_CR_CFG p i, PRT_SW_CP_LO p i, PRT_SW_CP_HI p i, PRT_SW_CP_CFG p i]
  | 2 => (List.range 70).flatMap (fun i => [GATE_PS_ATTR i, GATE_PS_CTRL i])
      ++ (List.range 8).flatMap fun m => (List.range 32).flatMap fun r => [MG_BASE m r, MG_ATTR m r, MG_PART m r, MG_CTRL m r]
  | 3 => [TB_SERVO, TB_CHN_CTRL] ++ (List.range 10).map TB_PORT_ASYM
      ++ (List.range 8).flatMap fun g => [TG_OFFSET g, TG_WIN g, TG_RATE g, TG_CTRL g]
  | 4 => [ETH_CFG, ETH_NETCTL] ++ (List.range 8).flatMap fun p =>
      [ETH_PORT_MAC_LO p, ETH_PORT_MAC_HI p, ETH_PORT_IP4 p, ETH_PORT_IP6_0 p, ETH_PORT_IP6_1 p, ETH_PORT_IP6_2 p, ETH_PORT_IP6_3 p,
       ETH_PORT_PTP_TPL p, ETH_PORT_PTP_DST4 p, ETH_PORT_PTP_DMAC_LO p, ETH_PORT_PTP_DMAC_HI p]
  | 7 => (List.range 64).flatMap (fun k => [VRD_ACT_LIVE k, VRD_ACT_AGED k, VRD_ACT_TT0 k, VRD_ACT_TT1 k, VRD_ACT_TT2 k])
      ++ (List.range 16).flatMap fun g => [CMP_SEAL_CFG g, CMP_SEAL_PART g, CMP_SEAL_DONE g, CMP_SEAL_CLOSED g]
  | 9 => [CHN_ROUTE, CHN_HELLO_WATCH, CHN_HELLO_TO, CHN_P_WEIGHT 0, CHN_P_WEIGHT 1]
  | 10 => [PWR_BUDGET, AO_KEEP]
  | _ => []

/-- Whether an address is the control word of a gate entry: only its on bit is carried. -/
def isGateCtrl (a : Nat) : Bool :=
  decide (0x240100 ≤ a) && decide (a < 0x245000) && (if a < 0x241000 then a % 0x20 == 8 else a % 0x10 == 0xC)

/-- The carried part of a register. -/
def carriedWord (s : State) (a : Nat) : Word := if isGateCtrl a then s.reg a &&& 0x10 else s.reg a

/-- The reset value of the carried part of a register. -/
def carriedReset (a : Nat) : Word := if isGateCtrl a then regReset a &&& 0x10 else regReset a

/-- The value of a register in a carried state. -/
def Carried.reg (c : Carried) (a : Nat) : Word :=
  match c.regs.flatten.find? fun x => x.1 == a with | some x => x.2 | none => carriedReset a

def carryPart (p : Part) : Part :=
  { port := p.port, state := if p.state = .free then .free else .bound, heads := p.heads, touch := p.touch, surf := p.surf,
    layer := p.layer, ctx := p.ctx, flow := p.flow, follow := p.follow, sess := p.sess, egr := p.egr, qLdg := p.qLdg, qDec := p.qDec,
    qIpp := p.qIpp, qEnc := p.qEnc }

/-- A CTRL ring without its place (R382). -/
def carryRing (r : Option (Bool × Nat × BitVec 64 × BitVec 32)) : Option (Bool × Nat × BitVec 64 × BitVec 32) :=
  r.map fun x => (x.1, x.2.1, x.2.2.1, 0)

def carryFlow (f : Flow) : Flow :=
  { state := f.state, portMask := f.portMask, keys := f.keys, vlan := f.vlan, dport := f.dport, daddr := f.daddr, saddr := f.saddr,
    ssrc := f.ssrc, rtcp := f.rtcp, payload := f.payload, mode := f.mode, rate := f.rate, base := f.base, psize := f.psize, hold := f.hold,
    reorder := f.reorder, transit := f.transit, srLimit := f.srLimit, srTai := f.srTai, pt := f.pt, partner := f.partner, ctx := f.ctx,
    ausize := f.ausize }

def carryEgr (e : Egress) : Egress := { enabled := e.enabled, port := e.port, head := e.head, cfg := e.cfg }

/-- A context: open as it was, its binding to cores beginning anew in SEEKING. -/
def carryCtx (c : Ctx) : Ctx :=
  { state := if c.state = .closed then .closed else if c.poolN = 0 then .opened else .seeking
    codec := c.codec, rawW := c.rawW, rawH := c.rawH, rawFmt := c.rawFmt, rawN := c.rawN, rawBase := c.rawBase, params := c.params,
    rx := c.rx, rxPart := c.rxPart, div := c.div, cores := c.cores, charge := c.charge, rateR := c.rateR, poolN := c.poolN,
    poolBase := c.poolBase, seiOn := c.seiOn, fenceOn := c.fenceOn, fenceHost := c.fenceHost, sideBase := c.sideBase,
    outBase := c.outBase, expId := c.expId, fenceAt := c.fenceAt }

def carryFollow (f : Follow) : Follow :=
  { bound := f.bound, prm := f.prm, ctx := f.ctx, m := f.m, first := f.first, charge := f.charge, rate := f.rate }

def carryEnc (e : Enc) : Enc :=
  { opened := e.opened, h265 := e.h265, follow := e.follow, rowSweep := e.rowSweep, gvHost := e.gvHost, cores := e.cores, w := e.w,
    h := e.h, num := e.num, den := e.den, rc := e.rc, qpMin := e.qpMin, qpMax := e.qpMax, qpInit := e.qpInit, rate := e.rate,
    peak := e.peak, bufMs := e.bufMs, refresh := e.refresh, slice := e.slice, head := e.head, div := e.div, slots := e.slots,
    base := e.base, slotSize := e.slotSize, ident := e.ident, charge := e.charge }

def carrySurf (f : Surface) : Surface :=
  { created := f.created, base := f.base, pitch := f.pitch, w := f.w, h := f.h, fmt := f.fmt, bt2020 := f.bt2020, full := f.full,
    reg := f.reg, frzFrames := f.frzFrames, frzPct := f.frzPct, watchMs := f.watchMs, watch := f.watch, lbase := f.lbase }

/-- A head: its timing, whether it runs, its writeback, and the parameters of its link where that is trained. -/
def carryHead (h : Head) : Head :=
  { isSet := h.isSet, enabled := h.enabled, gang := h.gang, tg := h.tg, hpol := h.hpol, vpol := h.vpol, khz := h.khz, hAct := h.hAct,
    hFront := h.hFront, hSync := h.hSync, hBack := h.hBack, vAct := h.vAct, vFront := h.vFront, vSync := h.vSync, vBack := h.vBack,
    lining := h.lining, liningSurf := h.liningSurf, pulse := h.pulse, px := h.px, py := h.py, wbOn := h.wbOn, wbFmt := h.wbFmt,
    wb2020 := h.wb2020, wbFull := h.wbFull, wbA := h.wbA, wbB := h.wbB, wbRec := h.wbRec, trained := h.trained || h.relink,
    rate := if h.trained || h.relink then h.rate else 0, lanes := if h.trained || h.relink then h.lanes else 0, src := h.src,
    bpc10 := h.bpc10, limited := h.limited, sinkCrc := h.sinkCrc, wbVerify := h.wbVerify }

def carryLayer (l : Layer) : Layer := { created := l.created, head := l.head, cursor := l.cursor, cur := l.cur, buf := l.buf }

def carryTouch (t : Touch) : Touch :=
  { cfgd := t.cfgd, cfg := t.cfg, mapHead := t.mapHead, coefs := t.coefs, ref := t.ref, band := t.band,
    rings := t.rings.map fun r => (r.1, r.2.1, r.2.2.1, r.2.2.2.1, 0) }

def carryTx (t : TxSlot) : TxSlot :=
  { enabled := t.enabled, part := t.part, alt := t.alt, source := t.source, dst := t.dst, target := t.target, level := t.level }

def carryRx (r : RxSlot) : RxSlot :=
  { enabled := r.enabled, part := r.part, m := r.m, origin := r.origin, slot := r.slot, first := r.first, fenceOn := r.fenceOn,
    fenceHost := r.fenceHost, fenceAt := r.fenceAt }

/-- A table with every record reduced to what is carried. -/
def carryTbl {α : Type} [DecidableEq α] (d : α) (f : α → α) (t : Tbl α) : Tbl α := tnorm (fun _ => d) (t.map fun x => (x.1, f x.2))

/-- The state of a checkpoint, captured at one instant (R379, R382). -/
def captureState (s : State) : Carried :=
  { regs := (List.range 11).map fun id => ((sectionRegs id).filter fun a => carriedWord s a != carriedReset a).map fun a => (a, carriedWord s a)
    parts := carryTbl {} carryPart s.parts, flows := carryTbl {} carryFlow s.flows, egress := carryTbl {} carryEgr s.egress
    ctxs := carryTbl {} carryCtx s.ctxs, follows := carryTbl {} carryFollow s.follows, encs := carryTbl {} carryEnc s.encs
    surfs := carryTbl {} carrySurf s.surfs, heads := carryTbl {} carryHead s.heads, layers := carryTbl {} carryLayer s.layers
    touch := carryTbl {} carryTouch s.touch, txS := carryTbl {} carryTx s.chain.txS, txF := carryTbl {} carryTx s.chain.txF
    rxF := carryTbl {} carryRx s.chain.rxF, rings := carryTbl none carryRing (s.parts.map fun x => (x.1, x.2.ctrlRing)) }

/-! ### The image and its header -/

/-- The uncompressed image (R382): the sections in ascending ID order. -/
def imageOf (c : Carried) : Bytes :=
  (upFrom 1 10).flatMap fun id =>
    let d := sectionBytes id c
    leBytes 2 id ++ leBytes 2 (Config.sectionVersion id).toNat ++ leBytes 4 d.length ++ d

/-- Reads an image of `n` sections; none for an unknown section or version, or one out of order (Table 14.7 cause 5). -/
def readImage : Nat → Nat → Bytes → Carried → Option Carried
  | 0, _, bs, c => if bs.isEmpty then some c else none
  | n + 1, last, bs, c =>
    let id := leNat (sliceB bs 0 2)
    let len := leNat (sliceB bs 4 4)
    if bs.length < 8 + len ∨ id ≤ last ∨ 10 < id ∨ leNat (sliceB bs 2 2) ≠ (Config.sectionVersion id).toNat then none
    else readImage n id (bs.drop (8 + len)) (sectionRead id ((bs.drop 8).take len) c)

/-- SYS_ID.part and SYS_ID.die_rev (Table 1.7). -/
def sysPart (s : State) : Nat := if s.fuses.is6408 then 0x6408 else 0x6416
def sysRev : Nat := 0x10

/-- The context word of a checkpoint's CRC-64 (R381). -/
def ckptContext (gen logical : Nat) : Nat := gen + logical * 2 ^ 32

/-- The 64 bytes of a checkpoint header (Table 14.1). -/
def ckptHeader (s : State) (gen : BitVec 32) (time : Nat) (image : Bytes) (clen : Nat) : Bytes :=
  leBytes 4 gen.toNat ++ leBytes 4 clen ++ leBytes 4 image.length ++ leBytes 2 1 ++ leBytes 2 10 ++ leBytes 2 (sysPart s)
    ++ [BitVec.ofNat 8 sysRev, BitVec.ofNat 8 (s.physAddr + 16 * s.logicalId)] ++ leBytes 8 time ++ leBytes 4 0
    ++ leBytes 8 (crc64 (ckptContext gen.toNat s.logicalId) image) ++ leBytes 20 0 ++ leBytes 4 gen.toNat

/-- Sends bytes to a place of the partner's vault, in CKPT messages (R371, Table 13.5). -/
def sendVault (s : State) (gen : BitVec 32) (off : Nat) (bs : Bytes) : State :=
  (List.range (ceilDiv bs.length msgBytes)).foldl (fun s i =>
    let b := (bs.drop (i * msgBytes)).take msgBytes
    sendTo s (s.fld RDN_ROLE 4 3) 10 (hput 8 4 (off + i * msgBytes) + hput 12 4 b.length + hput 16 4 gen.toNat) b) s

/-- Sends a compressed checkpoint in the order of R380. -/
def sendCkpt (s : State) (gen : BitVec 32) (time : Nat) (image stream : Bytes) : State :=
  let base := if gen.toNat % 2 = 0 then 0 else 0x400000
  let h := ckptHeader s gen time image stream.length
  let s := sendVault s gen (base + 60) (leBytes 4 0)
  let s := sendVault s gen (base + 64) stream
  let s := sendVault s gen base (h.take 60)
  sendVault s gen (base + 60) (h.drop 60)

/-! ### The own vault (R380, R383) -/

def vaultBase : Nat := 0x3000000

/-- The base of a slot, its generation, whether it is valid (R380). -/
def slotBase (i : Nat) : Nat := vaultBase + i * 0x400000
def slotGen (s : State) (i : Nat) : BitVec 32 := BitVec.ofNat 32 (s.loadN (slotBase i) 4)
def slotValid (s : State) (i : Nat) : Bool := slotGen s i != 0 && slotGen s i == BitVec.ofNat 32 (s.loadN (slotBase i + 60) 4)

/-- Slots to try, the later generation first (R383). -/
def slotOrder (s : State) : List Nat :=
  match [0, 1].filter (slotValid s) with
  | [a, b] => if (slotGen s b - slotGen s a).toInt > 0 then [b, a] else [a, b]
  | l => l

/-- Whether a carried state names what the part lacks (R3; Table 14.7 cause 3). -/
def namesAbsent (s : State) (c : Carried) : Bool :=
  c.heads.any (fun x => x.2.isSet && decide (s.nHeads ≤ x.1))
    || c.touch.any (fun x => x.2.cfgd && decide (s.nTch ≤ x.1))
    || c.ctxs.any (fun x => decide (2 ^ s.nDec ≤ x.2.cores.toNat))
    || c.encs.any (fun x => decide (2 ^ s.nEnc ≤ x.2.cores.toNat))
    || c.parts.any fun x => decide (2 ^ s.nHeads ≤ x.2.heads.toNat) || decide (2 ^ s.nTch ≤ x.2.touch.toNat)

/-- The partition of a carried state to which a context is granted (R272). -/
def Carried.ctxPart (c : Carried) (k : Nat) : Nat :=
  ((c.parts.find? fun x => decide (x.2.ctx.base ≤ k) && decide (k < x.2.ctx.base + x.2.ctx.count)).map (·.1)).getD 0

/-- The partition to which a follow slot is granted. -/
def Carried.followPart (c : Carried) (k : Nat) : Nat :=
  ((c.parts.find? fun x => decide (x.2.follow.base ≤ k) && decide (k < x.2.follow.base + x.2.follow.count)).map (·.1)).getD 0

/-- A range that a partition names, where it lies in the part's own memory: host memory does on HP4 (R269). -/
def Carried.own (c : Carried) (p : Nat) (host : Bool) (a n : Nat) : List (Nat × Nat) :=
  if !host then [(a % 2 ^ 40, n)] else if (tget (fun _ => ({} : Part)) c.parts p).port = 4 then [(a, n)] else []

/-- The places in the part's own memory that the set-up window of a partition on HP4 names (Table 10.7): doorbell page, mirror page and
rings, as far as they are in use. -/
def windowRanges (c : Carried) (p : Nat) : List (Nat × Nat) :=
  let at_ := fun (lo hi : Nat) => (c.reg lo).toNat + 2 ^ 32 * (c.reg hi).toNat
  let page := fun (on : Bool) (a n : Nat) => if on then [(a, n)] else []
  let log := fun (r : Nat) => bitsOf (c.reg r).toNat 0 4
  page (at_ (PRT_SW_DB_LO p) (PRT_SW_DB_HI p) != 0) (at_ (PRT_SW_DB_LO p) (PRT_SW_DB_HI p)) 4096
    ++ page (bitOf (c.reg (PRT_SW_MIRROR p)).toNat 4) (at_ (PRT_SW_MIR_LO p) (PRT_SW_MIR_HI p)) 32768
    ++ (List.range 8).flatMap fun i =>
      page (bitOf (c.reg (PRT_SW_CR_CFG p i)).toNat 8) (at_ (PRT_SW_CR_LO p i) (PRT_SW_CR_HI p i)) (64 * 2 ^ log (PRT_SW_CR_CFG p i))
        ++ page (bitOf (c.reg (PRT_SW_CP_CFG p i)).toNat 8) (at_ (PRT_SW_CP_LO p i) (PRT_SW_CP_HI p i)) (32 * 2 ^ log (PRT_SW_CP_CFG p i))

/-- The ranges of the part's own memory that a context names: its RAW ring, its side area and records, its fence, what it receives over
the chain. -/
def ctxRanges (c : Carried) (k : Nat) (x : Ctx) : List (Nat × Nat) :=
  let f := tget (fun _ => ({} : Surface)) c.surfs x.poolBase
  (if x.rawN = 0 then [] else [(x.rawBase, x.rawN * rawStride x)])
    ++ (if x.poolN = 0 then [] else [(x.sideBase, x.poolN * sideSize f.w f.h), (x.outBase, 1024)])
    ++ (if x.poolN != 0 && x.fenceOn then c.own (c.ctxPart k) x.fenceHost x.fenceAt.toNat 8 else [])
    ++ match x.rx with | some r => [(r.2.2.1, r.2.2.2)] | none => []

/-- The internal ranges a carried state names. -/
def namedRanges (c : Carried) : List (Nat × Nat) :=
  (c.surfs.filter fun x => x.2.created).map (fun x => (x.2.base, x.2.size))
    ++ (c.flows.filter fun x => decide (0 < x.2.psize)).map (fun x => (x.2.base, x.2.psize))
    ++ c.ctxs.flatMap (fun x => ctxRanges c x.1 x.2)
    ++ (c.encs.filter fun x => x.2.opened).map (fun x => (x.2.base, x.2.slots * x.2.slotSize))
    ++ (c.heads.filter fun x => x.2.wbOn).map (fun x => (x.2.wbRec, 4096))
    ++ (c.follows.filter fun x => x.2.bound && x.2.prm.fenceOn).flatMap (fun x =>
      c.own (c.followPart x.1) x.2.prm.fenceHost x.2.prm.fenceAt.toNat 8)
    ++ (c.rxF.filter fun x => x.2.enabled && x.2.fenceOn).flatMap (fun x => c.own x.2.part x.2.fenceHost x.2.fenceAt.toNat 8)
    ++ c.touch.flatMap (fun x => x.2.rings.flatMap fun r => c.own r.1 r.2.1 r.2.2.2.1.toNat (32 * 2 ^ r.2.2.1))
    ++ c.rings.flatMap (fun x => match x.2 with | some r => c.own x.1 r.1 r.2.2.1.toNat (512 * 2 ^ r.2.1) | none => [])
    ++ c.parts.flatMap fun x => if x.2.port = 4 then windowRanges c x.1 else []

/-- Whether a range lies beyond what is mapped (R17; Table 14.7 cause 4). -/
def beyondLimit (s : State) (r : Nat × Nat) : Bool :=
  decide (0 < r.2) && (place s r.1 == .unmapped || place s (r.1 + r.2 - 1) == .unmapped)

/-- Checks a slot (R383 steps 2–4): the carried state, or the cause of Table 14.7. The image passes through the scratch
area. What the vault's ECC finds is counted (R400), and an error that it cannot correct fails the slot. -/
def checkSlot (s : State) (i : Nat) (ecc : Ecc) : State × (Carried ⊕ Nat) :=
  let b := slotBase i
  let s := match ecc with | .ok => s | .corrected => s.add HWK_ECC 0 16 1 | .bad => s.add HWK_ECC 16 16 1
  if ecc = .bad then (s, .inr 2)
  else if s.loadN (b + 12) 2 ≠ 1 then (s, .inr 5)
  else
    let clen := Nat.min (s.loadN (b + 4) 4) (0x400000 - 64)
    let r := inflate (s.load (b + 64) clen) 0 0x1000000
    let image := r.rev.reverse
    let s := s.store (s.fld RDN_SCRATCH_LO 12 20 * 4096 + s.fld RDN_SCRATCH_HI 0 8 * 2 ^ 32) image
    if r.st != .done || image.length != s.loadN (b + 8) 4
        || crc64 (ckptContext (slotGen s i).toNat (s.loadN (b + 19) 1 / 16 % 8)) image != s.loadN (b + 32) 8 then (s, .inr 2)
    else match readImage (s.loadN (b + 14) 2) 0 image {} with
      | none => (s, .inr 5)
      | some c => if namesAbsent s c then (s, .inr 3) else if (namedRanges c).any (beyondLimit s) then (s, .inr 4) else (s, .inl c)

/-! ### Applying a carried state (R383 step 6, R384, R391) -/

/-- The keys of two tables. -/
def keysOf {α : Type} (a b : Tbl α) : List Nat := a.map (·.1) ++ (b.map (·.1)).filter fun k => !a.any fun x => x.1 == k

/-- Applies `f` to each key whose record differs. -/
def applyTbl {α : Type} [DecidableEq α] (d : α) (old new : Tbl α) (f : State → Nat → α → State) (s : State) : State :=
  (keysOf old new).foldl (fun s k => if tget (fun _ => d) old k = tget (fun _ => d) new k then s else f s k (tget (fun _ => d) new k)) s

/-- A register takes its carried value, with what its write brings (R77, R84). -/
def applyReg (s : State) (a : Nat) (v : Word) : State :=
  if a = ETH_CFG then configQuad (configQuad (s.setReg a v) 0) 4
  else match (List.range 8).find? fun g => TG_CTRL g == a with
    | some g => tgCtrl s g v
    | none => s.setReg a v

/-- The registers of a section that differ. -/
def applyRegs (old new : Carried) (id : Nat) (s : State) : State :=
  (sectionRegs id).foldl (fun s a => if old.reg a = new.reg a then s else applyReg s a (new.reg a)) s

/-- The gate entries whose carried staging values differ are set by the boot controller's procedure (R307, R308; log 43). -/
def applyGates (old new : Carried) (s : State) : State :=
  (List.range 326).foldl (fun s k =>
    let ctrl := gateCtrlAddr k
    if (ctrl :: stageRegs k).all fun a => old.reg a == new.reg a then s
    else setEntry k ((stageRegs k).map new.reg) (bitOf (new.reg ctrl).toNat 4) s) s

/-- A partition: a new one comes up BOUND, a missing one is FREE, another keeps its state (R384). -/
def applyPart (s : State) (p : Nat) (n : Part) : State :=
  let c := s.part p
  if n.state = .free then s.setPart p {}
  else s.setPart p { c with
    port := n.port, state := if c.state = .free then .bound else c.state, heads := n.heads, touch := n.touch, surf := n.surf
    layer := n.layer, ctx := n.ctx, flow := n.flow, follow := n.follow, sess := n.sess, egr := n.egr, qLdg := n.qLdg, qDec := n.qDec
    qIpp := n.qIpp, qEnc := n.qEnc }

/-- A partition's CTRL ring. -/
def applyRing (s : State) (p : Nat) (r : Option (Bool × Nat × BitVec 64 × BitVec 32)) : State := s.setPart p { s.part p with ctrlRing := r }

/-- A context: what its cores were doing ends. -/
def applyCtx (s : State) (c : Nat) (n : Ctx) : State :=
  let s := match (s.ctx c).dec with | some d => (match d.cores with | l :: _ => pwrEnd s (pwrDec l) | [] => s) | none => s
  s.setCtx c n

/-- A follow slot: what its instance was doing ends. -/
def applyFollow (s : State) (k : Nat) (n : Follow) : State :=
  let mine := s.ipp.filter fun x => match x.2 with | some w => w.follow == some k | none => false
  (mine.foldl (fun s x => pwrEnd (s.setIppW x.1 none) (pwrIpp x.1)) s).setFollow k n

def applyEnc (s : State) (k : Nat) (n : Enc) : State := (pwrEnd s (pwrEnc k)).setEnc k n

/-- A surface: a registered one is registered afresh, its pixels unknown (R384). -/
def applySurf (s : State) (k : Nat) (n : Surface) : State :=
  let s := unregister s k
  if !n.created then s.setSurf k {}
  else if n.reg then register s k n.lbase { n with written := false } else s.setSurf k { n with written := false }

/-- A head: its timing and writeback, its link to be trained, its start or stop at the next boundary (R384). -/
def applyHead (s : State) (k : Nat) (n : Head) : State :=
  let c := s.head k
  let id := s.nextJob
  let s := { s with nextJob := id + 1 }
  let link : Bool := n.trained && (!c.trained || c.rate != n.rate || c.lanes != n.lanes || c.src != n.src || c.bpc10 != n.bpc10)
  let s := s.setHead k { c with
    isSet := n.isSet, gang := n.gang, tg := n.tg, hpol := n.hpol, vpol := n.vpol, khz := n.khz, hAct := n.hAct, hFront := n.hFront
    hSync := n.hSync, hBack := n.hBack, vAct := n.vAct, vFront := n.vFront, vSync := n.vSync, vBack := n.vBack, lining := n.lining
    liningSurf := n.liningSurf, pulse := n.pulse, px := n.px, py := n.py, wbOn := n.wbOn, wbFmt := n.wbFmt, wb2020 := n.wb2020
    wbFull := n.wbFull, wbA := n.wbA, wbB := n.wbB, wbRec := n.wbRec, rate := n.rate, lanes := n.lanes, src := n.src, bpc10 := n.bpc10
    limited := n.limited, sinkCrc := n.sinkCrc, wbVerify := n.wbVerify
    start := if n.enabled && !c.enabled then c.start ++ [id] else c.start
    stop := if !n.enabled && c.enabled then c.stop ++ [id] else c.stop }
  let cut : Bool := (!n.trained || link) && c.tx != .dark
  let s := if cut then linkDark s k else s
  let s := s.setHead k { s.head k with relink := link }
  let s := if cut then linkNext k (c.auxJobs.length + 2) s else s
  let s := if n.enabled then pllStart (reserve s k) 1 else s
  let s := if c.isSet && c.tg != n.tg then tgRetime s c.tg else s
  tgRetime s n.tg

/-- A touch port: one that is enabled starts scanning where the mode lets it (R250, R251). -/
def applyTouch (s : State) (k : Nat) (n : Touch) : State :=
  let s := s.setTch k n
  if n.cfg.enable && tchMode s then pwrRequest (tchStart s k) (pwrTch k) 6 else s

def applyLayer (s : State) (k : Nat) (n : Layer) : State :=
  let c := s.layer k
  s.setLayer k (if n.created then { n with missed := c.missed, commits := c.commits } else {})

/-- A group that restore enabled, and whose reference is valid, begins its first frame at a reference point plus its
offset (R384). -/
def firstAtRef (s : State) (g : Nat) : State :=
  let t := s.tg g
  if !t.running || !t.first || t.khz = 0 then s
  else
    let want : Int := (s.now : Int) + (tgNominal t : Int)
    match refPoint t (s.bit TB_STATUS 2) (want - t.offset) with
    | none => s
    | some r =>
      let d := timeDiff (BitVec.ofInt 64 (r + t.offset)) (BitVec.ofNat 64 s.now)
      s.setTg g (t.begin s (if d ≤ 0 then d + tgNominal t else d).toNat)

/-- Applies what differs between two carried states, section by section in ID order (Table 14.2). -/
def applyCarried (old new : Carried) (s : State) : State :=
  let s := applyTbl {} old.parts new.parts applyPart (applyRegs old new 1 s)
  let s := applyGates old new s
  let s := applyRegs old new 3 s
  let s := applyTbl {} old.flows new.flows State.setFlow (applyRegs old new 4 s)
  let s := applyTbl {} old.egress new.egress State.setEgr s
  let s := applyTbl {} old.ctxs new.ctxs applyCtx s
  let s := applyTbl {} old.follows new.follows applyFollow s
  let s := applyTbl {} old.encs new.encs applyEnc s
  let s := applyTbl {} old.surfs new.surfs applySurf s
  let s := applyTbl {} old.heads new.heads applyHead s
  let s := applyTbl {} old.layers new.layers applyLayer s
  let s := applyRegs old new 7 s
  let s := applyTbl {} old.touch new.touch applyTouch s
  let s := applyTbl {} old.txS new.txS State.setTxStream s
  let s := applyTbl {} old.txF new.txF State.setTxSurf s
  let s := applyTbl {} old.rxF new.rxF State.setRxSurf s
  let s := applyTbl none old.rings new.rings applyRing s
  let s := applyRegs old new 10 (applyRegs old new 9 s)
  (List.range 8).foldl firstAtRef s

/-- The step and adjustment of a restore from the chain time hold (R385). -/
def restoreTime (s : State) : State :=
  match s.chain.hold with
  | none => s
  | some (root, at_) =>
    if s.island < at_ + 100000000 then
      let s := s.setTime (root + BitVec.ofNat 128 ((s.island - at_) * 2 ^ 64))
      let s := ((s.setBit TB_STATUS 0 false).setBit TB_STATUS 1 true).setFld TB_STATUS 3 2 2
      (tryAdj s 0 (s.fld RDN_TOMARGIN 0 24) (s.reg RDN_TOGROWTH).toNat).1
    else s

/-- The generation that stands in force, and RDN_CKPT_GEN and RDN_CKPT_LEN as they show it (Table 14.8). -/
def ckptShown (s : State) (gen : BitVec 32) (len : Nat) : State :=
  ({ s with rdn := { s.rdn with gen := gen } }.setReg RDN_CKPT_GEN gen).setReg RDN_CKPT_LEN (BitVec.ofNat 32 len)

/-- The restore of R383: the later valid slot, then the other one; its cause, 0 where it succeeded. -/
def restore (s : State) (ecc : List Ecc) : State × Nat :=
  let apply := fun (s : State) (c : Carried) (i : Nat) =>
    ckptShown (applyCarried (captureState s) c (restoreTime s)) (slotGen s i) (s.loadN (slotBase i + 4) 4)
  match slotOrder s with
  | [] => (s, 1)
  | a :: rest =>
    let x := checkSlot s a (ecc.getD a .ok)
    match x.2 with
    | .inl c => (apply x.1 c a, 0)
    | .inr cause =>
      match rest with
      | [] => (x.1, cause)
      | b :: _ =>
        let s := raise x.1 evRestoreOlder 1 1 31 []
        let y := checkSlot s b (ecc.getD b .ok)
        match y.2 with
        | .inl c => (apply y.1 c b, 0)
        | .inr cause => (y.1, cause)

end Sys2Proof.Machine
end

