-- ==== Sys2Proof/Machine/ChainRecv.lean ====
section
/-!
DEFINITION. What a unit receives of streams and surfaces over the chain: items put together and queued (R365), bands put
together, written into target surfaces and recorded (R367, R368).
-/

namespace Sys2Proof.Machine

/-- Whether a message comes from the unit that holds a logical ID (R357, R365, R367). -/
def fromHolder (s : State) (m : Msg) (id : Nat) : Bool := unitOf s id == some m.origin.toNat

/-! ### Streams -/

/-- A complete item reaches its context (R365): written into the area and queued, or discarded under R98. A RAW picture is
placed with its taint map where R109 has it. -/
def acceptItem (s : State) (c : Nat) (base size : Nat) (item : Bytes) : State :=
  let x := s.ctx c
  let data := item.drop 32
  let raw : Bool := x.codec == 2
  let len := if raw then leNat (sliceB item 24 4) else data.length
  let room := if raw then ceilTo 4096 len + (data.length - len) else len
  let a := areaFor s base size room
  let s := s.draw
  match (if x.queue.length ≥ 16 then none else a) with
  | none => s.setCtx c { s.ctx c with rxDisc := true, nOvf := satInc x.nOvf }
  | some a =>
    let s := (looseWrite s 39 x.rxPart a (data.take len)).1
    let s := if raw then (looseWrite s 39 x.rxPart (a + ceilTo 4096 len) (data.drop len)).1 else s
    let fl := leNat (sliceB item 22 2)
    let fl := if x.rxDisc && !bitOf fl 3 then fl + 8 else fl
    let r : AuRec := { capture := leNat (sliceB item 0 8), arrival := leNat (sliceB item 8 8), addr := a, flags := BitVec.ofNat 16 fl,
                       length := len, rtpTs := BitVec.ofNat 32 (leNat (sliceB item 28 4)) }
    let s := queueAu s c r
    s.setCtx c { s.ctx c with rxDisc := false }

/-- A fragment of an item (R365): one that is missing discards the item. -/
def takeFragment (s : State) (c base size : Nat) (m : Msg) : State :=
  let x := s.ctx c
  let off := m.hN 12 4
  let total := m.hN 16 4
  let first := bitOf (m.h8 10) 0
  let last := bitOf (m.h8 10) 1
  let body := m.body.take (total - off)
  let got : Option Bytes := if first then (if off = 0 then some body else none)
    else match x.rxBuf with
      | some (t, bs) => if t = total ∧ bs.length = off then some (bs ++ body) else none
      | none => none
  let cut : Bool := first && x.rxBuf.isSome
  match got with
  | none => s.setCtx c { x with rxBuf := none, rxDisc := true }
  | some bs =>
    let s := s.setCtx c { x with rxBuf := if last then none else some (total, bs), rxDisc := x.rxDisc || cut }
    if !last then s
    else if bs.length = total ∧ 32 ≤ total then acceptItem s c base size bs
    else s.setCtx c { s.ctx c with rxDisc := true }

/-- A STREAM message arrives (R365). -/
def doStreamRx (p : Fin 2) (m : Msg) (s : State) : State :=
  let x := deliver s p.val m
  let s := x.1
  if !x.2 || m.kind != 8 then s
  else if !s.ctl.core then s.inc CHN_NODEST
  else match (s.ctx (m.h8 9)).rx with
    | some (o, slot, base, size) => if fromHolder s m o && slot == m.h8 8 then takeFragment s (m.h8 9) base size m else s.inc CHN_NODEST
    | none => s.inc CHN_NODEST
def execStreamRx (p : Fin 2) (m : Msg) (s : State) : Host.Outcome State Fault Refusal := .next (doStreamRx p m s)

/-! ### Surfaces -/

/-- The pixel bytes of a band. -/
def bandLen (f : Surface) (band : Nat) : Nat := (bandPieces f band).foldl (fun n r => n + r.2) 0

/-- The part of `bs`, which stands at offset `off` of a run of rows, that falls on each row: address and bytes. -/
def spreadRows (off : Nat) (bs : Bytes) : Nat → List (Nat × Nat) → List (Nat × Bytes)
  | _, [] => []
  | pos, (a, n) :: rs =>
    let lo := Nat.max pos off
    let hi := Nat.min (pos + n) (off + bs.length)
    (if lo < hi then [(a + (lo - pos), sliceB bs (lo - off) (hi - lo))] else []) ++ spreadRows off bs (pos + n) rs

/-- A part of a band's messages without the tile block in front. -/
def pixelPart (block : Nat) (x : Nat × Bytes) : Nat × Bytes := (x.1 - block, x.2.drop (block - x.1))

/-- The bytes of a band that arrived without a gap. -/
def prefixOf : Nat → List (Nat × Bytes) → Bytes
  | _, [] => []
  | n, (o, bs) :: r => if o = n then bs ++ prefixOf (n + bs.length) r else []

/-- Writes a band's rows into its target and sends a record for each tile (R367). `block` is the tile block, `px` the
pixel bytes that arrived, by offset. -/
def writeBand (s : State) (part n band : Nat) (count : BitVec 32) (lost : Bool) (block : Bytes) (px : List (Nat × Bytes)) : State :=
  let f := s.surf n
  let rows := bandPieces f band
  let bad := (List.range f.tx).filter fun i =>
    let r := tileRect f (band * f.tx + i)
    rowsDec s 39 part .w (rectRows f r.1 r.2.1 r.2.2.1 r.2.2.2) != .ok
  let s := px.foldl (fun s x => (spreadRows x.1 x.2 0 rows).foldl (fun s w => (looseWrite s 39 part w.1 w.2).1) s) s
  if !f.reg then s
  else (List.range f.tx).foldl (fun s i =>
    let ns := leNat (sliceB block (16 * i) 8)
    let fl := leNat (sliceB block (16 * i + 8) 1)
    sendRecord s n (band * f.tx + i) (tickOf ns) (BitVec.ofNat 2 (fl % 4)) (lost || bitOf fl 2 || bitOf fl 3 || bad.contains i) count) s

/-- The end of a transfer (R367): its records applied, its fence written. -/
def endTransfer (s : State) (i : Nat) (fence : Bool) : State :=
  let r := s.rxSurf i
  match r.target, r.cur with
  | some n, some c =>
    let s := markWritten (drainRecords s) n
    let s := if fence && r.fenceOn then fenceWrite s 39 r.part r.fenceHost r.fenceAt.toNat c.toNat else s
    s.setRxSurf i { s.rxSurf i with target := none, nMsgs := satInc (s.rxSurf i).nMsgs }
  | _, _ => s

/-- A band that does not fit its target (R368). -/
def shapeError (s : State) (i : Nat) : State :=
  raiseKey s i evSurfShape 1 39 (s.rxSurf i).part [(i, 4)]

/-- The band being received of slot `i` ends (R367, R368, R414): written, or handed to a DEFLATE engine. -/
def endBand (s : State) (i : Nat) (lost lastS : Bool) : State :=
  let r := s.rxSurf i
  let clear := fun (s : State) => s.setRxSurf i { s.rxSurf i with band := none, parts := [], last := 0, lostMsg := false, shape := false }
  match r.band, r.target, r.cur with
  | some b, some n, some c =>
    let f := s.surf n
    let block := 16 * f.tx
    let lost := lost || r.lostMsg
    let got := prefixOf 0 r.parts
    if r.shape then (if lastS then endTransfer (clear s) i false else clear s)
    else if r.packed then clear { s with bands := s.bands ++ [⟨true, i, b, c, n, lastS, lost, got⟩] }
    else
      let s := writeBand s r.part n b c lost (sliceB got 0 block) (r.parts.map (pixelPart block))
      if lastS then endTransfer (clear s) i true else clear s
  | _, _, _ => clear s

/-- The message begins a new transfer: a band still open was not finished; the target is that of the count, unless a
live-class layer shows it or is to show it (R159, R367). -/
def beginTransfer (s : State) (i : Nat) (c : BitVec 32) : State :=
  let s := endBand s i true false
  let r := s.rxSurf i
  let n := r.first + (c - 1).toNat % r.m
  s.setRxSurf i { r with cur := some c, target := if liveOrPending s n then none else some n, shape := false }

/-- The message of one band joins it. -/
def takeBand (s : State) (i : Nat) (m : Msg) : State :=
  let band := m.h8 10
  let fl := m.h8 11
  let s := if (s.rxSurf i).band = some band then s
    else
      let s := endBand s i true false
      s.setRxSurf i { s.rxSurf i with band := some band, packed := bitOf fl 0 }
  let r := s.rxSurf i
  match r.target with
  | none => s
  | some n =>
    let f := s.surf n
    let off := m.hN 16 4
    let full := 16 * f.tx + bandLen f band
    let tooBig : Bool := decide (surfBands f ≤ band) || (bitOf fl 2 && band + 1 != surfBands f) || (!r.packed && (decide (full < off + m.body.length) || (bitOf fl 1 && off + m.body.length != full)))
    let s := if tooBig then shapeError (s.setRxSurf i { r with shape := true }) i
      else s.setRxSurf i { r with parts := r.parts ++ [(off, m.body)], last := off + m.body.length, lostMsg := r.lostMsg || off != r.last }
    if bitOf fl 1 then endBand s i false (bitOf fl 2) else s

/-- A SURFACE message arrives (R367, R368). -/
def doSurfaceRx (p : Fin 2) (m : Msg) (s : State) : State :=
  let x := deliver s p.val m
  let s := x.1
  let i := m.h8 9
  let r := s.rxSurf i
  if !x.2 || m.kind != 9 then s
  else if !s.ctl.core || decide (15 < i) || !r.enabled || !fromHolder s m r.origin || r.slot != m.h8 8 then s.inc CHN_NODEST
  else
    let c := BitVec.ofNat 32 (m.hN 12 4)
    takeBand (if r.cur = some c then s else beginTransfer s i c) i m
def execSurfaceRx (p : Fin 2) (m : Msg) (s : State) : Host.Outcome State Fault Refusal := .next (doSurfaceRx p m s)

/-- A received band comes out of its DEFLATE engine (R367, R368, R414): whether it does not fit its target, whether its stream
decoded and checked, and what it decompressed to. -/
def bandUnpacked (s : State) (b : BandItem) (shape good : Bool) (out : Bytes) : State :=
  let r := s.rxSurf b.slot
  if r.cur != some b.count || r.target != some b.target then s
  else
    let f := s.surf b.target
    if shape then
      let s := shapeError s b.slot
      if b.last then endTransfer s b.slot false else s
    else
      let s := writeBand s r.part b.target b.band b.count (b.lost || !good) (sliceB b.data 0 (16 * f.tx)) [(0, out)]
      if b.last then endTransfer s b.slot true else s

end Sys2Proof.Machine
end

