-- ==== Sys2Proof/Machine/Dce.lean ====
section
/-!
DEFINITION. The compression engines and the CRC units (chapter 15): jobs and their validation, the order in which an
engine takes work, the end of an item with its check values, the result records of the CRC units.
-/

namespace Sys2Proof.Machine

/-! ### DCE jobs (R406, R407) -/

def maskDce (decomp : Bool) (q : Req) : Nat :=
  bodyMask [(16, 0, 8), (17, 0, 5), (18, 0, 8), (20, 0, 32), (24, 0, if dceSrcHost q then 64 else 40),
    (32, 0, if dceDstHost q then 64 else 40), (40, 0, 32), (52, 0, if decomp then 32 else 0)]

/-- Whether a range meets the current or armed buffer of a live-class layer (R407). -/
def rangeOnScreen (s : State) (a n : Nat) : Bool :=
  s.surfs.any fun x => x.2.created && overlaps a n x.2.base x.2.size && onScreen s x.1

/-- The checks of R407. -/
def dceChecks (s : State) (q : Req) (decomp : Bool) : List (Bool × Nat) :=
  let p := q.part.val
  let len := dceLen q
  [ ((!([0, 1, 255] : List Nat).contains (q.u8 16) || decide (2 < dceFmt q) || decide (2 ^ 30 < len) || (decomp && len == 0)
      || (if decomp then q.u8 18 != 0 else (q.u8 18 == 0 || decide (9 < q.u8 18))) || (dceVerify q && !(decomp && dceFmt q == 0))
      || dceCap q == 0 || decide (2 ^ 31 < dceCap q)
      || (isInternal s p (dceSrcHost q) == isInternal s p (dceDstHost q) && overlaps (dceSrc q) len (dceDst q) (dceCap q))), stBadRange),
    (isInternal s p (dceDstHost q) && rangeOnScreen s (dceDst q) (dceCap q), stOnScreen) ]

/-- DCE_COMP (R406, R407): the job waits for an engine. -/
def doDceComp (q : Req) (s : State) : State :=
  soile s q 0x0D01 (maskDce false q) true fun s id => guardJob s id (dceChecks s q false) fun s => s
def execDceComp (q : Req) (s : State) : Host.Outcome State Fault Refusal := .next (doDceComp q s)

/-- DCE_DECOMP (R404, R406, R407): the job waits for an engine. -/
def doDceDecomp (q : Req) (s : State) : State :=
  soile s q 0x0D02 (maskDce true q) true fun s id => guardJob s id (dceChecks s q true) fun s => s
def execDceDecomp (q : Req) (s : State) : Host.Outcome State Fault Refusal := .next (doDceDecomp q s)

/-! ### Engines (R408) -/

/-- A job's opcode. -/
def Job.op (j : Job) : Nat := j.opcode.toNat

/-- The host job that engine `e` takes next: the earliest accepted of those that name it or either, one for either going
to DCE0 when both are free. -/
def dceHostJob (s : State) (e : Nat) : Option Job :=
  s.jobs.find? fun j =>
    (j.op == 0x0D01 || j.op == 0x0D02) && !j.running
      && (j.req.u8 16 == e || (j.req.u8 16 == 255 && (e == 0 || (s.dceW 0).isSome)))

/-- What engine `e` takes next: a checkpoint, the oldest band, a host job. -/
def dceNext (s : State) (e : Nat) : Option DceWork :=
  if s.ckptWait then some .checkpoint
  else match s.bands.head? with
    | some b => some (.band b)
    | none => (dceHostJob s e).map fun j => .job j.id

/-- An engine that is free asks for its tokens; once they are granted it begins its next item (R408, R436). -/
def doDceStart (e : Fin 2) (s : State) : State :=
  let e := e.val
  if !s.ctl.core || s.ctl.mode = .yield || (s.dceW e).isSome then s
  else match dceNext s e with
    | none => if pwrHas s (pwrDce e) then pwrEnd s (pwrDce e) else s
    | some w =>
      if !pwrReady s (pwrDce e) then pwrRequest s (pwrDce e) 8
      else
        let s := s.setDceW e (some w)
        match w with
        | .checkpoint => { s with ckptWait := false }
        | .band b => { s with bands := s.bands.erase b }
        | .job id => s.modJob id fun j => { j with running := true }
def execDceStart (e : Fin 2) (s : State) : Host.Outcome State Fault Refusal := .next (doDceStart e s)

/-- The bytes before the first part of a range that the gates or the map refuse. -/
def okLen (s : State) (slot p : Nat) (t : AccType) (a n : Nat) : Nat :=
  let ps := pages a n
  ((ps.takeWhile fun x => (memDec s (engine slot p) t x.1).1 == .ok).foldl (fun k x => k + x.2) 0)

/-- Whether a band belongs to one slot with another and to an earlier count or, of one count, stands above it. -/
def BandItem.older (a b : BandItem) : Bool :=
  a.rx == b.rx && a.slot == b.slot
    && (if a.count = b.count then decide (a.band < b.band) else decide ((b.count - a.count).toNat < 2 ^ 31))

/-- Whether the other engine still has an older band of a band's slot: bands of a slot leave in order (R366, R367), so that the newer
one ends after it. DESIGN CHOICE (log 159). -/
def bandBehind (s : State) (b : BandItem) : Bool :=
  s.dce.any fun x => match x.2 with | some (.band c) => c.older b | _ => false

/-- Whether some part of a range is held. -/
def rangeHeld (s : State) (slot p : Nat) (t : AccType) (a n : Nat) : Bool := rangeRes s (engine slot p) t (pages a n) == .held

/-- What an item read of its source: the state, the status, the bytes before a failure. -/
def jobSourceRead (s : State) (slot p : Nat) (host : Bool) (a n : Nat) (h : HostRead) : State × Nat × Bytes :=
  if host && onPcie s p then
    let x := pcieRead s (s.part p).port h
    match x.2 with
    | some bs => (x.1, stComplete, sliceB bs 0 n)
    | none => (x.1.draw, stHostDma, [])
  else
    let slot := if host then 34 else slot
    let k := okLen s slot p .r a n
    let x := engRead s slot p a n
    (x.1, x.2.1.status, x.2.2.take k)

/-- What the engine makes of its input: status, bytes consumed, output, CRC-32 and check value of the completion. -/
structure DceOut where
  st       : Nat
  consumed : Nat
  out      : Bytes
  crc      : Nat
  check    : Nat

/-- What a host job can read of its source: the bytes before the first part that fails or waits, how that part stands, and the part
itself. -/
def dceSource (s : State) (e : Nat) (j : Job) (h : HostRead) : Bytes × Nat × List (Nat × Nat) :=
  let q := j.req
  if isInternal s q.part.val (dceSrcHost q) then
    let x := dceInner s e q
    (x.1, (match x.2 with | none => stComplete | some p => (rangeRes s (dceReader e q) .r [p]).status), x.2.toList)
  else match (if linkUp s (s.part q.part.val).port then h else .error) with
    | .bytes bs => (sliceB bs 0 (dceLen q), stComplete, [])
    | .error => ([], stHostDma, [])

/-- `n` bytes that the spec leaves open, four draws on. -/
def openBytes (s : State) (n : Nat) : Bytes := (List.range n).map fun i => Config.voidByte (s.free + 4 + i)

/-- The work of a host job on the bytes it can read, which `rd` ends (R402–R412): a decompression reads no further than its stream
needs. Open are what a job had read and written when a read over PCIe failed, how much of its output a compression had written when
its reading failed and whether its destination was full before, and how much input it had read when it was (log 71). -/
def dceRun (s : State) (j : Job) (rd : Nat) (bs : Bytes) : DceOut :=
  let q := j.req
  let cap := dceCap q
  let open_ := fun i m => Config.unstated (s.free + i) % m
  let comp : Bool := j.op == 0x0D01
  if rd = stHostDma then
    ⟨rd, open_ 0 (dceLen q + 1), openBytes s (open_ 1 (cap + 1)), open_ 2 (2 ^ 32), if comp then open_ 3 (2 ^ 32) else dceCarried q⟩
  else if comp then
    let out := pack (dceFmt q) (q.u8 18) bs
    if cap < out.length ∧ (rd = stComplete ∨ (rd ≠ stWaits ∧ open_ 2 2 = 1)) then
      ⟨stOutFull, open_ 0 (bs.length + 1), out.take cap, crc32 bs, adler32 bs⟩
    else if rd ≠ stComplete then ⟨rd, bs.length, openBytes s (open_ 1 (Nat.min cap out.length + 1)), crc32 bs, adler32 bs⟩
    else ⟨stComplete, bs.length, out, crc32 bs, adler32 bs⟩
  else
    let u := unpack (dceFmt q) (if dceVerify q then some (q.u32 52) else none) bs cap
    let st := if rd != stComplete && u.st == stTruncated then rd else u.st
    ⟨st, u.consumed, u.out, crc32 u.out, if dceVerify q then q.u32 52 else if st = stComplete ∨ st = stCheckFail then u.carried else 0⟩

/-- The state after a job's reading: a read over PCIe made, a part that failed recorded where the job came to it. -/
def dceReadOn (s : State) (e : Nat) (j : Job) (h : HostRead) (o : DceOut) : State :=
  let q := j.req
  if isInternal s q.part.val (dceSrcHost q) then
    let x := dceSource s e j h
    if o.st = x.2.1 then noteParts (raiseN 3) (dceReader e q) .r s x.2.2 else s
  else (pcieRead s (s.part q.part.val).port h).1

/-- What an engine that is stopped can have read of its source (R412): of internal memory the bytes before the first part that does not
pass, of host memory what the host answered, or nothing. -/
def dceSeen (s : State) (e : Nat) (q : Req) (h : HostRead) : State × Option Bytes :=
  if isInternal s q.part.val (dceSrcHost q) then (s, some (dceInner s e q).1)
  else match h with
    | .bytes _ => let y := pcieRead s (s.part q.part.val).port h; (y.1, y.2.map fun bs => sliceB bs 0 (dceLen q))
    | .error => (s, none)

/-- The end of a host job on engine `e` (R409–R413): the output is written part by part, the first one refused ends the job; an abort
and a full destination leave it undefined. How much input was read at a failed write is open (log 71). -/
def dceJobEnd (s : State) (e : Nat) (j : Job) (h : HostRead) : State :=
  let q := j.req
  let p := q.part.val
  let inner := isInternal s p (dceDstHost q)
  let fin := fun (s : State) (st consumed produced crc check : Nat) =>
    finish (dceCount s e st consumed produced) j.id st (dceBody consumed produced crc check)
  if j.stops then
    let x := dceSeen s e q h
    let r := dceStop x.1 e j x.2
    finish r.1 j.id stAborted r.2
  else
    let src := dceSource s e j h
    let o := dceRun s j src.2.1 src.1
    let s := (dceReadOn s e j h o).draws (4 + o.out.length)
    let w := okParts s (engine (42 + e) p) .w (dceDst q) o.out.length
    match inner, w.2 with
    | true, some x =>
      let k := x.1 - dceDst q
      let st := (rangeRes s (engine (42 + e) p) .w [x]).status
      let had := Config.unstated s.free % (o.consumed + 1)
      let made := k + Config.unstated (s.free + 1) % (o.out.length - k + 1)
      let s := noteParts (raiseN 3) (engine (42 + e) p) .w (storeParts (engine (42 + e) p) (dceDst q) o.out s w.1) [x]
      let s := voidFill (s.draws 2) (42 + e) p (dceDst q + k) (dceCap q - k)
      if j.op = 0x0D01 then fin s st had k (crc32 (src.1.take had)) (adler32 (src.1.take had))
      else fin s st had k (crc32 (o.out.take made)) (dceCarried q)
    | _, _ =>
      if o.st = stOutFull then fin (if inner then voidFill s (42 + e) p (dceDst q) (dceCap q) else s) o.st o.consumed 0 o.crc o.check
      else
        let s := if inner then storeParts (engine (42 + e) p) (dceDst q) o.out s w.1
          else if linkUp s (s.part p).port then s.emit (.hostWrite (s.part p).port (BitVec.ofNat 64 (dceDst q)) o.out) else s
        fin s o.st o.consumed o.out.length o.crc o.check

/-- Whether an access of a host job waits at a gate: of its source as far as it reads it, of its destination as far as it writes. -/
def dceHeld (s : State) (e : Nat) (j : Job) (h : HostRead) : Bool :=
  let q := j.req
  let p := q.part.val
  let src := dceSource s e j h
  let o := dceRun s j src.2.1 src.1
  o.st == stWaits
    || (isInternal s p (dceDstHost q) && (match (okParts s (engine (42 + e) p) .w (dceDst q) o.out.length).2 with
        | some x => rangeRes s (engine (42 + e) p) .w [x] == .held
        | none => false))

/-- The end of a checkpoint's compression (R379, R380): sent to the partner, or CKPT_TOO_BIG. -/
def ckptCompressed (s : State) (e : Nat) : State :=
  match s.rdn.image with
  | none => s
  | some (gen, time, image) =>
    let z := deflated 1 image
    let big : Bool := decide (0x400000 - 64 < z.length)
    let s := dceCount s e stComplete image.length z.length
    let jobs := s.rdn.ckptJobs
    let s := { s with rdn := { s.rdn with image := none, ckptJobs := [] } }
    if big then
      let s := raise (s.inc RDN_CKPT_FAIL) evCkptTooBig 2 40 31 []
      jobs.foldl (fun s id => finish s id stCkptTooBig) s
    else
      let s := sendCkpt s gen time image z
      let s := (s.setReg RDN_CKPT_GEN gen).setReg RDN_CKPT_LEN (BitVec.ofNat 32 z.length)
      let s := { s with rdn := { s.rdn with swap := { s.rdn.swap with sent := s.rdn.swap.job.isSome && s.rdn.swap.gen == gen } } }
      jobs.foldl (fun s id => finish s id stComplete (cplBody [(16, 4, gen.toNat), (20, 4, z.length)])) s

/-- The end of a surface band (R366, R414): sent as a gzip member, or unpacked into its target, where one that does not fill it
exactly is a shape error and no full output (R368). -/
def bandEnd (s : State) (e : Nat) (b : BandItem) : State :=
  if b.rx then
    let f := s.surf b.target
    let z := b.data.drop (16 * f.tx)
    let u := unpack 2 none z (bandLen f b.band)
    let shape : Bool := u.st == stOutFull || (u.st == stComplete && u.out.length != bandLen f b.band)
    bandUnpacked (dceCount s e (if u.st = stOutFull then stFormatError else u.st) u.consumed u.out.length) b shape (u.st == stComplete) u.out
  else
    let t := s.txSurf b.slot
    if !t.enabled then s
    else
      let x := bandPixels s t.part b.target b.band
      let z := pack 2 t.level x.2
      sendBand (dceCount x.1 e stComplete x.2.length z.length) b.slot b.band true z

/-- An item ends (R409–R414): the engine is free, its tokens follow. -/
def doDceItemComplete (e : Fin 2) (host : HostRead) (s : State) : State :=
  let e := e.val
  let free := fun (s : State) => nextTransfers (pwrEnd (s.setDceW e none) (pwrDce e))
  match s.dceW e with
  | none => s
  | some .checkpoint => free (ckptCompressed s e)
  | some (.band b) => if bandBehind s b || (!b.rx && bandHeld s (s.txSurf b.slot).part b.target b.band) then s else free (bandEnd s e b)
  | some (.job id) =>
    match s.job id with
    | none => free s
    | some j => if !j.stops && dceHeld s e j host then s else free (dceJobEnd s e j host)
def execDceItemComplete (e : Fin 2) (host : HostRead) (s : State) : Host.Outcome State Fault Refusal := .next (doDceItemComplete e host s)

/-! ### CRC units (R415–R419) -/

def maskCrc (q : Req) : Nat :=
  bodyMask [(16, 0, 8), (17, 0, 4), (18, 0, 8), (20, 0, 32), (24, 0, if crcSrcHost q then 64 else 40), (32, 0, 256)]

/-- The unit a waiting job takes: its own when free, the lowest free one for 0xFF. -/
def crcUnitFor (s : State) (j : Job) : Option Nat :=
  let u := j.req.u8 16
  if u = 255 then (List.range 8).find? fun u => (s.crcW u).isNone else if (s.crcW u).isNone then some u else none

/-- Waiting jobs take free units in acceptance order, and ask for their tokens (R417). -/
def crcAssign (s : State) : State :=
  (s.jobs.filter fun j => j.op == 0x0E01 && !j.running && !j.yielded).foldl (fun s j =>
    match crcUnitFor s j with
    | none => s
    | some u => pwrRequest ((s.setCrcW u (some j.id)).modJob j.id fun j => { j with running := true }) (pwrCrc u) 2) s

/-- CRC_RUN (R417). -/
def doCrcRun (q : Req) (s : State) : State :=
  soile s q 0x0E01 (maskCrc q) true fun s id =>
    let w := q.u8 18
    guardJob s id [((decide (7 < q.u8 16) && q.u8 16 != 255) || decide (w < 8) || decide (64 < w) || decide (2 ^ w ≤ q.u64 32)
      || decide (2 ^ w ≤ q.u64 40) || decide (2 ^ w ≤ q.u64 48), stBadRange)] crcAssign
def execCrcRun (q : Req) (s : State) : Host.Outcome State Fault Refusal := .next (doCrcRun q s)

/-- The value of a CRC job over its bytes (R415, R416). -/
def crcValue (q : Req) (bs : Bytes) : Nat :=
  crcRef (q.u8 18) (q.u64 32) (q.u64 40) (q.u64 48) (q.bit 17 0) (q.bit 17 1) ((if q.bit 17 2 then leBytes 8 (q.u64 56) else []) ++ bs)

/-- The result record and completion of an ended CRC job (R418, Tables 15.5 and 15.8). -/
def crcRecord (s : State) (u : Nat) (j : Job) (st rst value bytes : Nat) : State :=
  let s := crcPost s u j.req rst value bytes
  finish s j.id st (crcBody s u value bytes)

/-- A CRC unit ends its job (R418, R419): its record is posted, the unit takes the next one. -/
def doCrcJobEnd (u : Fin 8) (host : HostRead) (s : State) : State :=
  let u := u.val
  match (s.crcW u).bind s.job with
  | none => s
  | some j =>
    let q := j.req
    let p := q.part.val
    let n := q.u32 20
    let free := fun (s : State) => crcAssign (pwrEnd (s.setCrcW u none) (pwrCrc u))
    if !pwrReady s (pwrCrc u) then s
    else if j.stops then free (crcRecord s.draw u j stAborted 1 0 (crcStop s q))
    else if isInternal s p (crcSrcHost q) && rangeHeld s (44 + u) p .r (crcSrc q) n then s
    else
      let r := jobSourceRead s (44 + u) p (crcSrcHost q) (crcSrc q) n host
      let s := r.1
      if r.2.1 != stComplete then
        let n := if r.2.1 = stHostDma then Config.unstated (s.free + 1) % (n + 1) else r.2.2.length
        free (crcRecord (s.draws 2) u j r.2.1 2 (Config.unstated s.free % 2 ^ q.u8 18) n)
      else free (crcRecord s u j stComplete 0 (crcValue q r.2.2) n)
def execCrcJobEnd (u : Fin 8) (host : HostRead) (s : State) : Host.Outcome State Fault Refusal := .next (doCrcJobEnd u host s)

end Sys2Proof.Machine
end

