-- ==== Sys2Proof/Machine/DecCores.lean ====
section
/-!
DEFINITION. Decode cores and taint (chapter 05): the binding of contexts (R118, R121, R126), the choice and the start of
a picture (R119, R120, R123, R124), taint (R128–R132), its end with tile records (R137–R141), output (R125), DEC_FLUSH
and DEC_UNBIND (R127).
-/

namespace Sys2Proof.Machine

/-! ### Cores and pools -/

/-- The numbers of the bits set in a mask of `n` bits. -/
def bitsSet (n mask : Nat) : List Nat := (List.range n).filter fun i => bitOf mask i

/-- The cores of a context. -/
def ctxCores (c : Ctx) : List Nat := bitsSet 16 c.cores.toNat

/-- The sum of charges on a core (Table 5.11). -/
def coreLoad (s : State) (core : Nat) : Nat :=
  (s.ctxs.filter fun x => x.2.cores.getLsbD core).foldl (fun n x => n + x.2.charge) 0

/-- The declared rates of a partition's bound contexts (R118). -/
def decUse (s : State) (p : Nat) : Nat :=
  (s.ctxs.filter fun x => x.2.cores != 0 && ownsCtx s p x.1).foldl (fun n x => n + x.2.rateR) 0

/-- Whether a core is decoding a picture (Table 5.11). -/
def coreDecodes (s : State) (core : Nat) : Bool :=
  s.ctxs.any fun x => match x.2.dec with | some d => d.works.contains core | none => false

/-- Whether a core takes no picture because one that has all cores of its context is in decode (R119). -/
def coreBusy (s : State) (core : Nat) : Bool :=
  s.ctxs.any fun x => match x.2.dec with | some d => d.cores.contains core | none => false

/-- The side size of a context's pool buffers (R122). -/
def sideOf (s : State) (c : Ctx) : Nat := let f := s.surf c.poolBase; sideSize f.w f.h

/-- The side area of pool buffer `b`. -/
def sideAddr (s : State) (c : Ctx) (b : Nat) : Nat := c.sideBase + b * sideOf s c

/-- Whether a transmit slot's transfer reads surface `n` for a DEFLATE engine (R366). -/
def bandReads (s : State) (n : Nat) : Bool :=
  let mine := fun (b : BandItem) => !b.rx && b.target == n
  s.bands.any mine || s.dce.any fun x => match x.2 with | some (.band b) => mine b | _ => false

/-- Whether an IPP or another engine job reads surface `n` (R124). -/
def readerOf (s : State) (n : Nat) : Bool :=
  s.jobs.any (fun j => jobSource j == some n || meetsSurf s n (dmaReads s j) || (uploadReads s j).any (meetsSurf s n)) || bandReads s n
  || s.ipp.any (fun x => match x.2 with
    | some w => (match w.src with | .picture r => recSurface r == n | .surface k => k == n | .raw _ _ => false)
    | none => false)
  || s.encs.any fun x => match x.2.work with | some w => w.surface == n | none => false

/-- Whether pool buffer `b` is free for a new picture (R124). -/
def bufFree (s : State) (c : Ctx) (b : Nat) : Bool :=
  let n := c.poolBase + b
  !(c.dpb.any fun d => d.buf == b && (d.isRef || d.waiting)) && c.lastOut != some b
    && !(match c.dec with | some d => d.buf == b | none => false) && !readerOf s n && !liveOrPending s n

/-- The lowest free pool buffer (R124). -/
def freeBuf (s : State) (c : Ctx) : Option Nat := (List.range c.poolN).find? (bufFree s c)

/-! ### DEC_BIND, DEC_FLUSH, DEC_UNBIND -/

def maskDecBind : Nat := bodyMask [(16, 0, 72), (25, 0, 3), (26, 0, 12), (28, 0, 40), (36, 0, 40), (44, 0, 96)]

/-- Whether a DEC_BIND lies outside Table 5.9, or breaks R118's counts of cores. -/
def decBindBad (q : Req) : Bool :=
  let k := (bitsSet 16 (q.u16 18)).length
  decide (3 < q.u8 17) || decide (k < 1) || decide (4 < k) || (q.u8 17 == 0 && k != 1)
    || decide (q.u32 20 < 1) || decide (1990656000 < q.u32 20) || decide (q.u8 24 < 2) || decide (24 < q.u8 24)
    || decide (4096 < q.u16 26 + q.u8 24) || q.u40 28 % 0x1000 != 0 || q.u40 36 % 0x400 != 0
    || (q.bit 25 1 && q.u64 48 % 8 != 0)

/-- Whether the surfaces of a pool break R121. -/
def poolBad (s : State) (first n : Nat) : Bool :=
  let f := s.surf first
  decide (1 < f.fmt) || (upFrom first n).any fun i =>
    let g := s.surf i
    !g.created || g.w != f.w || g.h != f.h || g.fmt != f.fmt

/-- DEC_BIND (R118, R121, R126, R142, R143). -/
def decBind (q : Req) (s : State) : State × Nat × BitVec 128 :=
  let ci := q.u8 16
  let p := q.part.val
  let c := s.ctx ci
  let cores := bitsSet 16 (q.u16 18)
  let k := cores.length
  let first := q.u16 26
  let n := q.u8 24
  let r := q.u32 20
  let charge := ceilDiv r k
  match firstFail [
      (decBindBad q, stBadRange),
      (!ownsCtx s p ci || (upFrom first n).any (fun i => !ownsSurf s p i), stNotOwner),
      (cores.any fun i => decide (s.nDec ≤ i), stNoResource),
      (c.state != .opened, stCtxBound),
      (c.codec == 2 || (c.codec == 0 && (q.u8 17 == 1 || q.u8 17 == 3)), stBadMode),
      (poolBad s first n, stPoolShape),
      (s.ctxs.any fun x => overlaps first n x.2.poolBase x.2.poolN, stPoolBusy),
      (cores.any fun i => decide (497664000 < coreLoad s i + charge), stCoreFull),
      (decide ((s.part p).qDec < decUse s p + r), stDecQuota)] with
  | some st => (s, st, 0)
  | none =>
    let c := { c with
      state := .seeking, div := q.u8 17, cores := BitVec.ofNat 16 (q.u16 18), charge := charge, rateR := r, poolN := n
      poolBase := first, seiOn := q.bit 25 0, fenceOn := q.bit 25 1, fenceHost := q.bit 25 2, sideBase := q.u40 28
      outBase := q.u40 36, expId := BitVec.ofNat 32 (q.u32 44), fenceAt := BitVec.ofNat 64 (q.u64 48), outSeq := 0, decSeq := 0
      halt := 0, needed := 0, dpb := [], epoch := 0, lastOut := none, waited := false, chosen := none, flushing := false
      active := none, started := false, noRasl := false, prevFn := none, leaving := [] }
    let s := { s with follows := s.follows.map fun (x : Nat × Follow) =>
      (x.1, if x.2.bound && x.2.ctx == ci then { x.2 with seen := 0 } else x.2) }
    let s := s.norm.setCtx ci c
    (s, stComplete, cplBody [(16, 4, sideOf s c), (20, 4, charge)])

def doDecBind (q : Req) (s : State) : State := soileNow s q 0x0401 maskDecBind true (decBind q)
def execDecBind (q : Req) (s : State) : Host.Outcome State Fault Refusal := .next (doDecBind q s)

/-- A choice that has not begun is given up, its request with it (R119). -/
def unchoose (s : State) (ci : Nat) : State :=
  let c := s.ctx ci
  if c.chosen.isSome then
    match ctxCores c with
    | lead :: _ => pwrEnd (s.setCtx ci { c with chosen := none }) (pwrDec lead)
    | [] => s.setCtx ci { c with chosen := none }
  else s

/-- The cores and charges of a context are released; it is OPEN again (R127). DEC commands that came while it drained
find it OPEN (R143). -/
def unbindEnd (s : State) (ci : Nat) : State :=
  let c := s.ctx ci
  let s := s.setCtx ci { c with
    state := .opened, div := 0, cores := 0, charge := 0, rateR := 0, poolN := 0, poolBase := 0, dpb := [], leaving := [], lastOut := none, unbind := []
    halt := 0, seiOn := false, fenceOn := false, flushing := false, waited := false }
  match c.unbind with
  | [] => s
  | j :: js => js.foldl (fun s j => finish s j stNotBound) (finish s j stComplete (cplBody [(16, 4, c.outSeq.toNat)]))

/-- Common checks of DEC_FLUSH and DEC_UNBIND (R143). A command in DRAINING waits for its end. -/
def decCtl (q : Req) (op : Nat) (go : State → Nat → Nat → State) (s : State) : State :=
  soile s q op (bodyMask [(16, 0, 8)]) true fun s id =>
    let ci := q.u8 16
    let c := s.ctx ci
    guardJob s id [(!ownsCtx s q.part.val ci, stNotOwner), (c.state == .closed || c.state == .opened, stNotBound)] fun s =>
      if c.state = .draining then s.setCtx ci { c with unbind := c.unbind ++ [id] } else go s id ci

/-- The completion of a DEC_FLUSH from the counts its job carries (Table 5.9). -/
def flushDone (s : State) (id : Nat) : State :=
  match s.job id with
  | some j => finish s id stComplete (cplBody [(16, 4, j.n), (20, 2, j.m)])
  | none => s

/-- DEC_FLUSH (R127): queue, waiting pictures and references go at once, the picture in decode when it has finished. -/
def decFlush (s : State) (id ci : Nat) : State :=
  let s := unchoose s ci
  let c := s.ctx ci
  let s := s.modJob id fun j => { j with running := true, n := c.queue.length, m := (c.dpb.filter (·.waiting)).length }
  let c' := { c with state := .seeking, queue := [], dpb := [], leaving := [], halt := 0, waited := false, active := none, started := false, noRasl := false, prevFn := none }
  if c.dec.isSome then s.setCtx ci { c' with flushing := true, flush := c.flush ++ [id] }
  else flushDone (s.setCtx ci c') id

def doDecFlush (q : Req) (s : State) : State := decCtl q 0x0403 decFlush s
def execDecFlush (q : Req) (s : State) : Host.Outcome State Fault Refusal := .next (doDecFlush q s)

/-- DEC_UNBIND (R127). -/
def decUnbind (s : State) (id ci : Nat) : State :=
  let s := unchoose s ci
  let c := s.ctx ci
  let s := s.setCtx ci { c with state := .draining, unbind := c.unbind ++ [id] }
  if c.dec.isSome then s else unbindEnd s ci

def doDecUnbind (q : Req) (s : State) : State := decCtl q 0x0402 decUnbind s
def execDecUnbind (q : Req) (s : State) : Host.Outcome State Fault Refusal := .next (doDecUnbind q s)

/-! ### Parameter sets and what they ask of the decoder -/

/-- Whether a parameter set takes the place of another: of the same kind and ID. -/
def sameSet : ParamSet → ParamSet → Bool
  | .vps a, .vps b => a == b
  | .sps a _ _, .sps b _ _ => a == b
  | .pps a _ _ _ _, .pps b _ _ _ _ => a == b
  | _, _ => false

/-- The sets held once those of an access unit have arrived (R126). They stay held until the context closes: the spec names no
other end. DESIGN CHOICE (log 134). -/
def holdSets (c : Ctx) (i : AuInfo) : List ParamSet := i.sets.foldl (fun l p => l.filter (fun q => !sameSet p q) ++ [p]) c.sets

/-- What the sets held say of a picture parameter set: the sequence parameter set it names, tiles, wavefronts, slice groups. -/
structure Picked where
  seq    : SeqInfo
  tiles  : Bool
  wpp    : Bool
  groups : Nat
  deriving DecidableEq, Repr

/-- The sets that a slice naming picture parameter set `id` needs, or those of them that are not held: type 0 VPS, 1 SPS, 2 PPS,
and ID (R126, R133). A set needs the one it names; H.264 has no VPS. -/
def pick (c : Ctx) (id : Nat) : Picked ⊕ List (Nat × Nat) :=
  match c.sets.find? fun p => sameSet p (.pps id 0 false false 0) with
  | some (.pps _ sid tiles wpp groups) =>
    match c.sets.find? fun p => match p with | .sps n _ _ => n == sid | _ => false with
    | some (.sps _ vid x) =>
      if c.codec = 1 ∧ !(c.sets.contains (.vps vid)) then .inr [(0, vid)] else .inl ⟨x, tiles, wpp, groups⟩
    | _ => .inr [(1, sid)]
  | _ => .inr [(2, id)]

/-- Whether every parameter set that the first slice needs is held (Table 5.4). -/
def firstHeld (c : Ctx) (i : AuInfo) : Bool :=
  match i.segs with | g :: _ => (pick c g.pps).isLeft | [] => false

/-- The slice segments that can be decoded (R133, R135): their sets are held, and the independent segment of a dependent one's slice
was decoded. -/
def decodable (c : Ctx) (i : AuInfo) : List Seg :=
  i.segs.foldl (fun (r : List Seg) g =>
    let ok := (pick c g.pps).isLeft && (!g.dependent || r.any fun h => !h.dependent && h.slice == g.slice)
    if ok then r ++ [g] else r) []

/-- The parameter sets named by slices and not held, each once (R133). -/
def missingSets (c : Ctx) (i : AuInfo) : List (Nat × Nat) :=
  (i.segs.flatMap fun g => match pick c g.pps with | .inr l => l | .inl _ => []).eraseDups

/-- The reason code of Table 5.1 for a stream outside it, 0 for one inside; the least where several hold. DESIGN CHOICE
(log 134). -/
def refusedFor (codec : Nat) (x : Picked) (raster : Bool) : Nat :=
  let q := x.seq
  let rows : List (Bool × Nat) := if codec = 0 then
      [(!((q.profile == 66 && q.constraint1) || q.profile == 77 || q.profile == 100), 1), (decide (52 < q.level), 2), (q.fields, 3),
        (decide (1 < q.chroma) || q.depthY != 8 || q.depthC != 8, 4), (x.groups != 0 || !raster, 5)]
    else
      [(q.profile != 1 && q.profile != 2, 1), (decide (183 < q.level), 2), (q.fields, 3),
        (q.chroma != 1 || decide (q.depthY < 8) || decide ((if q.profile = 1 then 8 else 10) < q.depthY) || decide (q.depthC < 8)
          || decide ((if q.profile = 1 then 8 else 10) < q.depthC), 4)]
  let all : List (Bool × Nat) := rows ++ [(decide (8192 < q.width) || decide (8192 < q.height), 6), (codec == 1 && q.extension, 7)]
  match all.find? (·.1) with
  | some r => r.2
  | none => 0

/-- Whether an H.264 sequence is of level 1b by its constraint_set3_flag: Baseline and Main at level_idc 11 (PRESUMED from H.264
A.3.1, log 135). -/
def levelOneB (x : SeqInfo) : Bool := (x.profile == 66 || x.profile == 77) && x.level == 11 && x.constraint3

/-- MaxDpbMbs of an H.264 level (the rule names the level's MaxDpbFrames; PRESUMED from H.264 Table A-1, log 135). -/
def maxDpbMbs (level : Nat) : Nat :=
  if level ≤ 10 then 396 else if level = 11 then 900 else if level ≤ 20 then 2376 else if level = 21 then 4752 else if level ≤ 30 then 8100
  else if level = 31 then 18000 else if level = 32 then 20480 else if level ≤ 41 then 32768 else if level = 42 then 34816
  else if level = 50 then 110400 else 184320

/-- dpb_size of R123. -/
def dpbSize (codec : Nat) (x : SeqInfo) : Nat :=
  match x.dpb with
  | some n => n
  | none => if codec = 0 then Nat.min (maxDpbMbs (if levelOneB x then 10 else x.level) / (ceilDiv x.width 16 * ceilDiv x.height 16)) 16 else 1

/-- Whether a picture's coding structure allows the context's division mode (Table 5.2). -/
def divides (c : Ctx) (i : AuInfo) (x : Picked) : Bool :=
  match c.div with
  | 1 => x.tiles | 2 => decide (1 < (i.segs.filter fun g => !g.dependent).length) | 3 => x.wpp | _ => true

/-! ### The decoded picture buffer (R125, R134) -/

/-- Whether picture `a` leaves before picture `b`: output order within a sequence, sequences in decoding order (R125). -/
def outBefore (a b : DPic) : Bool := decide (a.epoch < b.epoch) || (a.epoch == b.epoch && decide (a.poc ≤ b.poc))

/-- The pictures that wait for the bumping process to put them out. -/
def toLeave (c : Ctx) : List DPic := c.dpb.filter fun d => d.waiting && !c.leaving.contains d.buf

/-- The picture that leaves next, of those given. -/
def firstOut : List DPic → Option DPic
  | [] => none
  | d :: ds => some (ds.foldl (fun a b => if outBefore a b then a else b) d)

/-- The bumping process puts out the next picture in output order. -/
def bump (c : Ctx) : Ctx := match firstOut (toLeave c) with | some d => { c with leaving := c.leaving ++ [d.buf] } | none => c

/-- Bumps while a condition holds and a picture waits. -/
def bumpWhile (p : Ctx → Bool) : Nat → Ctx → Ctx
  | 0, c => c
  | fuel + 1, c => if p c && !(toLeave c).isEmpty then bumpWhile p fuel (bump c) else c

/-- The pictures that hold a place of the decoded picture buffer. -/
def fullness (c : Ctx) : Nat := (c.dpb.filter fun d => d.isRef || (d.waiting && !c.leaving.contains d.buf)).length

/-- Drops pictures neither used for reference nor waiting for output. -/
def trimDpb (c : Ctx) : Ctx := { c with dpb := c.dpb.filter fun d => d.isRef || d.waiting }

/-- Whether a picture begins a coded video sequence: its references and output order are its own. -/
def beginsSeq (c : Ctx) (i : AuInfo) : Bool :=
  match i.kind with
  | .idr | .bla => true
  | .cra => !c.started || i.afterEos
  | _ => false

/-- Whether more pictures wait than H.265 lets (its reorder and latency limits). -/
def overDue (x : SeqInfo) (c : Ctx) : Bool :=
  let w := toLeave c
  decide (x.reorder < w.length) || (decide (0 < x.latency) && w.any fun d => decide (x.reorder + x.latency - 1 ≤ d.late))

/-- The FrameNums that an H.264 picture skips: a gap in frame_num (R134; H.264 7.4.3, log 135). -/
def skipped (c : Ctx) (i : AuInfo) (x : SeqInfo) : List Nat :=
  match c.prevFn with
  | some p =>
    if c.codec ≠ 0 ∨ i.kind = .idr ∨ i.frameNum = p then []
    else (List.range ((i.frameNum + x.maxFrameNum - (p + 1)) % x.maxFrameNum)).map fun k => (p + 1 + k) % x.maxFrameNum
  | none => []

/-- No pool buffer: pools have at most 24 (R121). -/
def noBuf : Nat := 24

/-- A non-existing frame as it stands in the decoded picture buffer: a reference without a picture. -/
def ghostPic (epoch fn : Nat) : DPic :=
  { buf := noBuf, epoch := epoch, poc := 0, decSeq := 0, au := ⟨0, 0, 0, 0, 0, 0⟩, isRef := true, waiting := false, width := 0, height := 0
    depth := 0, crop := (0, 0, 0, 0), cells := [], tiles := [], conceal := false, subst := false, ghost := some fn }

/-- The sliding window: the reference decoded first is no longer one where the window is full (H.264 8.2.5.3, log 135). -/
def slideRefs (n : Nat) (l : List DPic) : List DPic :=
  if (l.filter (·.isRef)).length < Nat.max n 1 then l
  else match l.findIdx? (·.isRef) with
    | some k => l.modify k fun d => { d with isRef := false }
    | none => l

/-- A non-existing frame of an allowed gap is stored: the sliding window, and bumping while no place is empty (R125; H.264 8.2.5.2 and
C.4.5.3, log 135). -/
def storeGhost (x : SeqInfo) (c : Ctx) (fn : Nat) : Ctx :=
  let c := trimDpb { c with dpb := slideRefs x.refFrames c.dpb, prevFn := some fn }
  let c := bumpWhile (fun c => decide (dpbSize 0 x ≤ fullness c)) (c.dpb.length + 1) c
  { c with dpb := c.dpb ++ [ghostPic c.epoch fn] }

/-- The decoded picture buffer as a picture begins: H.264 C.4.4 and H.265 C.5.2.2 (R125; log 135). -/
def startBump (c : Ctx) (i : AuInfo) (x : SeqInfo) : Ctx :=
  let fuel := c.dpb.length
  if beginsSeq c i then
    let drop := if i.kind = .cra then true else i.kind != .other && i.kind != .rasl && i.noPrior
    let c := if drop then { c with dpb := c.dpb.map fun d => if c.leaving.contains d.buf then d else { d with waiting := false } }
      else bumpWhile (fun _ => true) fuel c
    trimDpb { c with epoch := c.epoch + 1, dpb := c.dpb.map fun d => { d with isRef := false } }
  else if c.codec = 1 then
    let c := trimDpb { c with dpb := c.dpb.map fun d => { d with isRef := d.isRef && i.rps.contains d.poc } }
    bumpWhile (fun c => overDue x c || decide (dpbSize 1 x ≤ fullness c)) fuel c
  else if x.gapsAllowed then (skipped c i x).foldl (storeGhost x) c
  else c

/-- The decoded picture buffer once a picture is decoded: H.264 C.4.5 and H.265 C.5.2.3 (R125; log 135). A picture of H.265 is then
a reference, and its successor's reference picture set says for how long; H.264 marks with the picture. One with
memory_management_control_operation 5 ends the order before it, its references once it has been decoded from them. -/
def endBump (c : Ctx) (x : SeqInfo) (i : AuInfo) (d : DPic) (r : PicResult) : Ctx :=
  let c := if c.codec = 0 ∧ i.mmco5 = true then
      let c := bumpWhile (fun _ => true) c.dpb.length c
      trimDpb { c with epoch := c.epoch + 1, dpb := c.dpb.map fun d => { d with isRef := false } }
    else c
  let d := { d with epoch := c.epoch }
  let fuel := c.dpb.length + 1
  if c.codec = 1 then
    let c := { c with dpb := (c.dpb.map fun y => if y.waiting && !outBefore y d then { y with late := y.late + 1 } else y) ++ [{ d with isRef := true }] }
    bumpWhile (overDue x) fuel c
  else
    let size := dpbSize 0 x
    let c := trimDpb { c with dpb := c.dpb.map fun y =>
      { y with isRef := y.isRef && (match y.ghost with | some fn => r.ghosts.contains fn | none => r.refs.contains y.poc) } }
    let d := { d with isRef := r.refs.contains d.poc }
    let c := if d.isRef then { c with prevFn := some (if i.mmco5 then 0 else i.frameNum) } else c
    let direct := fun (c : Ctx) => !d.isRef && d.waiting && (toLeave c).all fun y => outBefore d y
    let c := bumpWhile (fun c => decide (size ≤ fullness c) && !direct c) fuel c
    let now := decide (size ≤ fullness c) && direct c
    trimDpb { c with dpb := c.dpb ++ [d], leaving := if now then c.leaving ++ [d.buf] else c.leaving }

/-- The picture a block's reference names, none where it is missing (R134). -/
def refOf (dpb : List DPic) : RefPic → Option DPic
  | .gap => none
  | .poc n => dpb.find? fun d => d.isRef && d.ghost.isNone && d.poc == n

/-- The pictures of a decoded picture buffer: not its non-existing frames. -/
def realPics (dpb : List DPic) : List DPic := dpb.filter fun d => d.ghost.isNone

/-- The picture of a list with the greatest picture order count below `n`, else the least above it (R134). -/
def nearestPoc (dpb : List DPic) (n : Int) : Option DPic :=
  let dpb := realPics dpb
  match dpb.filter fun d => decide (d.poc < n) with
  | d :: ds => some (ds.foldl (fun a b => if a.poc < b.poc then b else a) d)
  | [] => match dpb with
    | d :: ds => some (ds.foldl (fun a b => if b.poc < a.poc then b else a) d)
    | [] => none

/-- The most recently decoded reference picture (R134). -/
def lastRef (dpb : List DPic) : Option DPic :=
  match (realPics dpb).filter (·.isRef) with
  | d :: ds => some (ds.foldl (fun a b => if a.decSeq.toNat < b.decSeq.toNat then b else a) d)
  | [] => none

/-- The picture a block reads for a reference: the named one or its substitute, none for the mid-level picture (R134). An H.264 list
entry left empty has no picture order count to go by: as for a gap, the reference decoded last stands in. DESIGN CHOICE (log 147). -/
def readPic (dpb : List DPic) (r : RefPic) : Option DPic :=
  match refOf dpb r, r with
  | some d, _ => some d
  | none, .poc n => nearestPoc dpb n
  | none, .gap => lastRef dpb

/-- The references of a picture that are missing, one entry each (R134): a picture order count, or the FrameNums of a gap that is not
allowed and the list entries left empty. -/
def missingRefs (codec : Nat) (d : InDecode) : List (BitVec 24) :=
  if codec = 1 then (d.info.rps.filter fun n => (refOf d.dpb (.poc n)).isNone).map (BitVec.ofInt 24)
  else d.gap.map (BitVec.ofNat 24) ++ d.info.empty

/-! ### Start of a picture -/

/-- The contexts a core may serve, earliest head access unit first, ties by number (R119). -/
def candidates (s : State) (core : Nat) : List (Nat × Ctx) :=
  (s.ctxs.filter fun x => x.2.cores.getLsbD core && (x.2.state == .seeking || x.2.state == .decoding) && !x.2.queue.isEmpty
    && x.2.dec.isNone).foldl (fun l x =>
      insertAfter (fun y => decide ((y.2.queue.head?.map (·.arrival)).getD 0 ≤ (x.2.queue.head?.map (·.arrival)).getD 0)) x l) []

/-- Counts the wait of a picture without a free buffer, once (R124). -/
def countWait (s : State) (ci : Nat) : State :=
  let c := s.ctx ci
  if c.waited then s else s.setCtx ci { c with waited := true, nWait := satInc c.nWait }

/-- The order number of the latest choice that still waits. -/
def lastChoice (s : State) : Nat := s.ctxs.foldl (fun n x => Nat.max n (x.2.chosen.getD 0)) 0

/-- Whether an earlier choice has a claim on one of the context's cores (R119). -/
def claimed (s : State) (c : Ctx) : Bool :=
  s.ctxs.any fun x => match x.2.chosen, c.chosen with
    | some a, some b => decide (a < b) && (x.2.cores &&& c.cores) != 0
    | _, _ => false

/-- Whether a SEEKING context discards its head access unit, which needs no buffer (Table 5.4). -/
def seeks (c : Ctx) (i : AuInfo) : Bool := c.state == .seeking && !firstHeld { c with sets := holdSets c i } i

/-- The core's choice (R119): the first candidate with a free buffer; those before it wait. A buffer that the picture's own marking
and bumping would free as it begins does not count as free for the choice. DESIGN CHOICE (log 148). -/
def chooseFor (s : State) (i : AuInfo) : List (Nat × Ctx) → State × Option Nat
  | [] => (s, none)
  | x :: xs =>
    if seeks x.2 i then (s, some x.1)
    else if (freeBuf s x.2).isSome then (s.setCtx x.1 { x.2 with chosen := some (lastChoice s + 1) }, some x.1)
    else chooseFor (countWait s x.1) i xs

/-- Places the request of a chosen picture once all its cores are free (R119, Table 16.4: 14 tokens a core). -/
def requestDec (s : State) (ci : Nat) : State :=
  let cs := ctxCores (s.ctx ci)
  match cs with
  | lead :: _ => if cs.any (coreBusy s) || claimed s (s.ctx ci) then s else pwrRequest s (pwrDec lead) (14 * cs.length)
  | [] => s

/-- Ends the work on a head access unit without a picture: it leaves the queue. -/
def dropHead (s : State) (ci : Nat) (f : Ctx → Ctx) : State :=
  let s := unchoose s ci
  let c := s.ctx ci
  s.setCtx ci (f { c with queue := c.queue.drop 1, waited := false })

/-- A FAULT event halts the context (R141). -/
def haltCtx (s : State) (ci ev halt : Nat) (det : List (Nat × Nat)) : State :=
  let s := dropHead s ci fun c => { c with state := .halted, halt := halt }
  raiseKey s ci ev 2 9 (ctxOwner s ci) ((ci, 8) :: det)

/-- What fails of a sequence parameter set activation (R123): the pool size, then the size or depth. -/
def spsBad (s : State) (c : Ctx) (x : SeqInfo) : Bool × Bool :=
  let f := s.surf c.poolBase
  (decide (c.poolN < dpbSize c.codec x + 2), decide (f.w < x.width) || decide (f.h < x.height)
    || x.depthY != (if f.fmt = 0 then 8 else 10) || (x.chroma != 0 && x.depthC != x.depthY))

/-- A failed activation halts the context, an event for each failed check (R123). The halt code shows the pool size where both
fail. DESIGN CHOICE (log 134). -/
def haltSps (s : State) (ci : Nat) (x : SeqInfo) (bad : Bool × Bool) : State :=
  let s := if bad.2 then haltCtx s ci evPicShape 9 [(x.width, 16), (x.height, 16), (x.depthY, 8)] else s
  if !bad.1 then s
  else if bad.2 then raiseKey (s.setCtx ci { s.ctx ci with halt := 8 }) ci evDpbShort 2 9 (ctxOwner s ci) [(ci, 8), (dpbSize (s.ctx ci).codec x + 2, 5)]
  else haltCtx s ci evDpbShort 8 [(dpbSize (s.ctx ci).codec x + 2, 5)]

/-- The picture of the head access unit begins in the lowest free buffer (R119, R120, R124, R125), on the lead core alone where it
cannot be divided. -/
def beginPic (s : State) (ci : Nat) (i : AuInfo) (x : Picked) : State :=
  let gap := if x.seq.gapsAllowed then [] else skipped (s.ctx ci) i x.seq
  let c := startBump (s.ctx ci) i x.seq
  let s := s.setCtx ci c
  match c.queue, freeBuf s c with
  | au :: rest, some b =>
    let ok := divides c i x
    let cores := ctxCores c
    let s := s.setCtx ci { c with
      state := .decoding, queue := rest, chosen := none, waited := false, started := true
      noRasl := if i.kind = .idr ∨ i.kind = .bla ∨ i.kind = .cra then beginsSeq (s.ctx ci) i else c.noRasl
      dec := some ⟨cores, au, i, b, if ok then cores else cores.take 1, x.seq, c.dpb, gap⟩ }
    if !ok then raiseKey s ci evDivFallback 0 9 (ctxOwner s ci) [(ci, 8), (i.poc.toNat, 24)] else s
  | _, _ => countWait (unchoose s ci) ci

/-- The core parses the head access unit it was granted (R116, R123, R126, R135). Parameter sets count as held from here: those of
access units that DEC_FLUSH discards unparsed are not. DESIGN CHOICE (log 149). -/
def parseHead (s : State) (ci : Nat) (i : AuInfo) : State :=
  let c0 := s.ctx ci
  let s := s.setCtx ci { c0 with sets := holdSets c0 i }
  let c := s.ctx ci
  let rtp := match c.queue with | au :: _ => au.rtpTs.toNat | [] => 0
  let skip := fun (x : Ctx) => { x with nSkipped := satInc x.nSkipped }
  if seeks c0 i then dropHead s ci skip
  else match (decodable c i).head?.map fun g => pick c g.pps with
    | some (.inl x) =>
      let reason := refusedFor c.codec x i.raster
      let fresh := beginsSeq c i || c.active != some x.seq
      let bad := if fresh then spsBad s c x.seq else (false, false)
      if reason ≠ 0 then haltCtx s ci evUnsupported reason [(reason, 8)]
      else
        let s := if fresh then s.setCtx ci { c with needed := dpbSize c.codec x.seq + 2, active := some x.seq } else s
        if bad.1 || bad.2 then haltSps s ci x.seq bad
        else if i.kind = .rasl ∧ c.noRasl then dropHead s ci fun x => skip { x with state := .decoding }
        else beginPic s ci i x
    | _ =>
      let s := dropHead s ci fun x => { x with state := .decoding, nPicLost := satInc x.nPicLost }
      raiseKey s ci evPicLost 1 9 (ctxOwner s ci) [(ci, 8), (rtp, 32)]

/-- A free core chooses a picture, asks for its tokens, and begins it once they are granted (R119, log 14). -/
def doDecodeStart (core : Fin 16) (i : AuInfo) (s : State) : State :=
  if !s.ctl.core || s.ctl.mode = .yield || coreBusy s core.val then s
  else
    let r := match (s.ctxs.find? fun x => x.2.chosen.isSome && x.2.cores.getLsbD core.val).map (·.1) with
      | some ci => (s, some ci)
      | none => chooseFor s i (candidates s core.val)
    match r.2 with
    | none => r.1
    | some ci =>
      let c := r.1.ctx ci
      match ctxCores c with
      | [] => r.1
      | lead :: more =>
        if seeks c i then parseHead r.1 ci i
        else if (lead :: more).any (coreBusy r.1) || claimed r.1 c then r.1
        else if pwrReady r.1 (pwrDec lead) then parseHead r.1 ci i
        else requestDec r.1 ci

def execDecodeStart (core : Fin 16) (i : AuInfo) (s : State) : Host.Outcome State Fault Refusal := .next (doDecodeStart core i s)

/-! ### Taint -/

/-- The cells a rectangle of luma samples touches. -/
def cellsOf (x0 x1 y0 y1 : Nat) : List (Nat × Nat) :=
  (upFrom (y0 / 16) (y1 / 16 - y0 / 16 + 1)).flatMap fun cy => (upFrom (x0 / 16) (x1 / 16 - x0 / 16 + 1)).map fun cx => (cx, cy)

/-- The reference region of one list of a block in a picture (R131). -/
def regionOf (b : Block) (mv : Int × Int) (d : DPic) : Nat × Nat × Nat × Nat :=
  let r := refRegion b.x b.y b.w b.h mv.1 mv.2 d.width d.height
  (r.1.toNat, r.2.1.toNat, r.2.2.1.toNat, r.2.2.2.toNat)

/-- The samples of a region in its buffer: whole chroma pairs. -/
def regionRows (f : Surface) (r : Nat × Nat × Nat × Nat) : List (Nat × Nat) :=
  let x := r.1 / 2 * 2
  let y := r.2.2.1 / 2 * 2
  rectRows f x y (r.2.1 / 2 * 2 + 2 - x) (r.2.2.2 / 2 * 2 + 2 - y)

/-- The picture a reference fetch reads and the samples of it, none of the mid-level picture (R134). -/
def fetchOf (s : State) (c : Ctx) (dpb : List DPic) (b : Block) (r : RefPic × Int × Int) : List (Nat × Nat) :=
  match readPic dpb r.1 with
  | some d => regionRows (s.surf (c.poolBase + d.buf)) (regionOf b r.2 d)
  | none => []

/-- Condition C2 for one reference of a block (Table 5.5, Table 11.3). -/
def taintC2 (s : State) (p : Nat) (c : Ctx) (dpb : List DPic) (b : Block) (r : RefPic × Int × Int) : Bool :=
  match refOf dpb r.1 with
  | none => true
  | some d =>
    let g := regionOf b r.2 d
    (cellsOf g.1 g.2.1 g.2.2.1 g.2.2.2).any d.cells.contains || rowsDec s 9 p .r (fetchOf s c dpb b r) != .ok

/-- Condition C3 (Table 5.5): the collocated motion's luma position lies in a tainted cell, or a substitute. -/
def taintC3 (dpb : List DPic) : Option (RefPic × Nat × Nat) → Bool
  | none => false
  | some (r, x, y) => match refOf dpb r with | none => true | some d => d.cells.contains (x / 16, y / 16)

/-- Whether a block is tainted, given the cells of its own picture tainted so far (R130, Table 5.5). -/
def blockTaint (s : State) (p : Nat) (c : Ctx) (dpb : List DPic) (cells : List (Nat × Nat)) (b : Block) : Bool :=
  match b.kind with
  | .concealed => true
  | .inter refs col => refs.any (taintC2 s p c dpb b) || taintC3 dpb col
  | .intra nbrs => nbrs.any fun n => cells.contains (n.1 / 16, n.2 / 16)

/-- The tainted cells of a picture, its blocks in decoding order (R130). -/
def picCells (s : State) (p : Nat) (c : Ctx) (dpb : List DPic) (bs : List Block) : List (Nat × Nat) :=
  bs.foldl (fun cells b =>
    if blockTaint s p c dpb cells b then
      cells ++ (cellsOf b.x (b.x + b.w - 1) b.y (b.y + b.h - 1)).filter fun x => !cells.contains x
    else cells) []

/-- The reference fetches of a block, one for each list. -/
def blockFetches (s : State) (c : Ctx) (dpb : List DPic) (b : Block) : List (List (Nat × Nat)) :=
  match b.kind with | .inter refs _ => refs.map (fetchOf s c dpb b) | _ => []

/-- The reference fetches of a picture that the gates refuse are recorded, one for each list of a block (R306, R314). -/
def noteFetches (s : State) (p : Nat) (c : Ctx) (dpb : List DPic) (bs : List Block) : State :=
  (bs.flatMap (blockFetches s c dpb)).foldl (fun s l =>
    match l.find? fun x => rowsDec s 9 p .r [x] != .ok with
    | some x => (engRead s 9 p x.1 x.2).1
    | none => s) s

/-- Whether a fetch of the picture waits at a gate. -/
def fetchHeld (s : State) (p : Nat) (c : Ctx) (dpb : List DPic) (bs : List Block) : Bool :=
  bs.any fun b => (blockFetches s c dpb b).any fun l => rowsDec s 9 p .r l == .held

/-! ### Concealment (R133, R134) -/

/-- The addresses that decoded slice segments cover, up to their first error. -/
def coveredCtus (c : Ctx) (i : AuInfo) : List Nat :=
  (decodable c i).flatMap fun g => match g.bad with | some k => g.ctus.take k | none => g.ctus

/-- CTUs or macroblocks of a picture in a row. -/
def ctusAcross (x : SeqInfo) : Nat := ceilDiv x.width x.ctb

/-- The addresses to conceal (R133). -/
def concealedCtus (c : Ctx) (i : AuInfo) (x : SeqInfo) : List Nat :=
  let got := coveredCtus c i
  (List.range (ctusAcross x * ceilDiv x.height x.ctb)).filter fun a => !got.contains a

/-- The first address at which an error shows (R133). -/
def firstBad (c : Ctx) (i : AuInfo) : Option (BitVec 24) :=
  ((decodable c i).findSome? fun g => g.bad.bind fun k => g.ctus[k]?).map (BitVec.ofNat 24)

/-- A CTU or macroblock as a concealed block, clipped to the picture (R130). -/
def ctuBlock (x : SeqInfo) (a : Nat) : Block :=
  let px := a % ctusAcross x * x.ctb
  let py := a / ctusAcross x * x.ctb
  { x := px, y := py, w := Nat.min x.ctb (x.width - px), h := Nat.min x.ctb (x.height - py), kind := .concealed }

/-- The samples of a concealed block in a pool buffer. -/
def ctuRowsOf (f : Surface) (b : Block) : List (Nat × Nat) := rectRows f b.x b.y b.w b.h

/-- Bytes of mid-level samples (R134): 128, or 512 in bits 15:6 of a container. -/
def midBytes (fmt n : Nat) : Bytes := if fmt = 0 then List.replicate n 0x80 else (List.replicate (n / 2) [(0x00 : Byte), 0x80]).flatten

/-- The source of concealment (R134): pieces to read, none for the mid-level picture. -/
def concealSrc (s : State) (c : Ctx) (d : InDecode) (bs : List Block) : List (Nat × Nat) :=
  match nearestPoc d.dpb d.info.poc.toInt with
  | some y => bs.flatMap (ctuRowsOf (s.surf (c.poolBase + y.buf)))
  | none => []

/-- The samples that fill the concealed blocks: the co-located ones of the source (R133, R134). -/
def concealFill (s : State) (p : Nat) (c : Ctx) (d : InDecode) (bs : List Block) : State × List (Nat × Bytes) :=
  let f := s.surf (c.poolBase + d.buf)
  let dst := bs.flatMap (ctuRowsOf f)
  match nearestPoc d.dpb d.info.poc.toInt with
  | some _ => (dst.zip (concealSrc s c d bs)).foldl (fun (r : State × List (Nat × Bytes)) u =>
      let x := engRead r.1 9 p u.2.1 u.2.2
      (x.1, r.2 ++ [(u.1.1, x.2.2)])) (s, [])
  | none => (s, dst.map fun u => (u.1, midBytes f.fmt u.2))

/-- The chroma planes of a monochrome picture, at 128 (R116). -/
def monoRows (f : Surface) (x : SeqInfo) : List (Nat × Bytes) :=
  if x.chroma = 0 then (List.range (x.height / 2)).map fun i => (f.base + f.pitch * (f.h + i), midBytes f.fmt (x.width * fmtBytes f.fmt)) else []

/-- A write of bytes that the spec does not give (the motion storage of R122): those that pass the gates are free values. -/
def openWrite (s : State) (p addr n : Nat) : State :=
  let e := engine 9 p
  let ps := partsOf s addr n
  noteParts (raiseN 3) e .w (voidParts e addr n s ps) ps

/-! ### Maps -/

/-- The words of a cell map for the `tx` tiles of tile row `ty` of a picture (R129). -/
def cellBytes (tx ty : Nat) (cells : List (Nat × Nat)) : Bytes :=
  (List.range tx).flatMap fun t => leBytes 2 (cells.foldl (fun v x =>
    if x.1 / 4 = t ∧ x.2 / 4 = ty then v ||| 2 ^ (4 * (x.2 % 4) + x.1 % 4) else v) 0)

/-- The write of the cell map of a picture `tx` by `ty` tiles at `addr`: 128 words for each tile row, in the tile order of the
taint map, 0 outside the picture (R128, R129). Answers how the write ended. -/
def cellWrite (s : State) (p addr tx ty : Nat) (cells : List (Nat × Nat)) : State × AccRes :=
  let e := engine 9 p
  let ps := partsOf s addr 0x8000
  let res := rangeRes s e .w ps
  let s := ps.foldl (fun s x => if (memDec s e .w x.1).1 = .ok then s.forget x.1 x.2 else s) s
  let s := (List.range (Nat.min ty 128)).foldl (fun s j =>
    let bs := cellBytes (Nat.min tx 128) j cells
    storeParts e (addr + 256 * j) bs s (pages (addr + 256 * j) bs.length)) s
  (noteParts (raiseN 3) e .w s ps, res)

/-! ### Freshness SEI -/

/-- The UUID of the freshness SEI (R139). -/
def seiUuid : Bytes := [0x7C, 0x3E, 0x91, 0xA0, 0x5D, 0x24, 0x4B, 0x8F, 0xA6, 0xE1, 0x0F, 0x52, 0xC9, 0xB7, 0x3D, 0x18]

/-- Whether a message has the length and layout of Table 6.7 for a picture of `rows` rows. -/
def seiWell (m : Bytes) (rows : Nat) : Bool :=
  m.length == 34 + ceilDiv rows 8 && m.take 2 == [0x05, BitVec.ofNat 8 (32 + ceilDiv rows 8)] && sliceB m 2 16 == seiUuid
    && sliceB m 18 2 == [0x01, 0x00] && beNat (sliceB m 32 2) == rows
    && (List.range 8).all fun k => !(decide (rows % 8 ≠ 0) && decide (rows % 8 ≤ k) && bitOf (m.getD (34 + rows / 8) 0).toNat (7 - k))

/-- What the intake makes of a message (R139). -/
inductive SeiUse where
  | none | bad | foreign (id : Nat) | ok (capture : Nat) (stale : List Nat)
  deriving DecidableEq, Repr

/-- The rows a message marks not fresh (Table 6.7). -/
def seiStale (m : Bytes) (rows : Nat) : List Nat :=
  (List.range rows).filter fun r => !bitOf (m.getD (34 + r / 8) 0).toNat (7 - r % 8)

/-- A NAL unit's bytes without emulation prevention, `z` zeros before them. -/
def unescape : Nat → Bytes → Bytes
  | _, [] => []
  | z, b :: bs => if 2 ≤ z ∧ b = 3 then unescape 0 bs else b :: unescape (if b = 0 then z + 1 else 0) bs

/-- The NAL units of an Annex B byte stream: `z` zeros just before, and the bytes of the unit that is open, last first. -/
def nalUnits : Nat → Option Bytes → Bytes → List Bytes
  | _, cur, [] => (cur.map fun c => (c.dropWhile (· == 0)).reverse).toList
  | z, cur, b :: bs =>
    if 2 ≤ z ∧ b = 1 then (cur.map fun c => (c.dropWhile (· == 0)).reverse).toList ++ nalUnits 0 (some []) bs
    else nalUnits (if b = 0 then z + 1 else 0) (cur.map (b :: ·)) bs

/-- A number of SEI syntax: 255 for each byte FF, then one byte more. Answers it with the bytes it takes. -/
def seiNumber : Bytes → Nat × Nat
  | [] => (0, 0)
  | b :: bs => if b = 0xFF then (let r := seiNumber bs; (r.1 + 255, r.2 + 1)) else (b.toNat, 1)

/-- The messages of an SEI payload: payloadType, and the whole message with its type and size. -/
def seiMessages : Nat → Bytes → List (Nat × Bytes)
  | 0, _ => []
  | fuel + 1, bs =>
    if bs.length < 2 then []
    else
      let t := seiNumber bs
      let n := seiNumber (bs.drop t.2)
      let all := t.2 + n.2 + n.1
      (t.1, bs.take all) :: seiMessages fuel (bs.drop all)

/-- The payload of a NAL unit that carries SEI messages the decoder examines (R139): of H.264, or a prefix SEI of H.265's base
layer. -/
def seiPayload (codec : Nat) (n : Bytes) : Option Bytes :=
  let b0 := (n.getD 0 0).toNat
  if codec = 1 then (if b0 / 2 % 64 = 39 ∧ b0 % 2 * 32 + (n.getD 1 0).toNat / 8 = 0 then some (unescape 0 (n.drop 2)) else none)
  else if b0 % 32 = 6 then some (unescape 0 (n.drop 1)) else none

/-- The first message of an access unit that is user data with the UUID of R139. -/
def freshSei (codec : Nat) (au : Bytes) : Option Bytes :=
  (((nalUnits 0 none au).filterMap (seiPayload codec)).flatMap fun p => seiMessages p.length p).findSome? fun m =>
    let head := (seiNumber m.2).2 + (seiNumber (m.2.drop (seiNumber m.2).2)).2
    if m.1 = 5 ∧ sliceB m.2 head 16 = seiUuid then some m.2 else none

/-- Coding tree unit rows of a picture, of 16 lines in H.264 (R139). -/
def ctuRows (x : SeqInfo) : Nat := ceilDiv x.height x.ctb

/-- The intake of R139 from an access unit's bytes. -/
def seiUse (c : Ctx) (x : SeqInfo) (au : Bytes) : SeiUse :=
  match (if c.seiOn then freshSei c.codec au else Option.none) with
  | .none => .none
  | some m =>
    let id := beNat (sliceB m 28 4)
    if !seiWell m (ctuRows x) then .bad
    else if c.expId != 0 && id != c.expId.toNat then .foreign id
    else .ok (beNat (sliceB m 20 8)) (seiStale m (ctuRows x))

/-- The access-unit record after the intake: capture time, basis and SEI_TIME (R139, R140). -/
def seiRecord (au : AuRec) (u : SeiUse) : AuRec :=
  if au.flags.getLsbD 4 then
    match u with
    | .ok cap _ => { au with capture := cap, flags := (au.flags &&& 0xFFFC) ||| 1 }
    | _ => { au with capture := 0, flags := au.flags &&& 0xFFEC }
  else au

/-- The content time of a source picture's records (Table 5.7). -/
def recTime (capture arrival basis : Nat) : BitVec 32 :=
  if basis = 1 then tickOf capture else if basis = 2 then tickOf arrival else 0

/-! ### End of a picture -/

/-- The tainted tiles of a picture: cells, then rows marked not fresh (R132, R139). -/
def picTiles (tx ty ctb : Nat) (cells : List (Nat × Nat)) (stale : List Nat) : List Nat :=
  (List.range (tx * ty)).filter fun t =>
    cells.any (fun x => x.1 / 4 == t % tx && x.2 / 4 == t / tx)
      || stale.any fun r => overlaps (r * ctb) ctb (t / tx * 64) 64

/-- What the end of a picture shows beside its samples: missing references, concealed addresses, the first error, parameter sets
not held (R133, R134). -/
structure Damage where
  missing   : List (BitVec 24)
  concealed : List Nat
  firstBad  : Option (BitVec 24)
  noParams  : List (Nat × Nat)
  deriving DecidableEq, Repr

/-- The damage of a picture in decode. -/
def damageOf (c : Ctx) (d : InDecode) : Damage :=
  ⟨missingRefs c.codec d, concealedCtus c d.info d.seq, firstBad c d.info, missingSets c d.info⟩

/-- The events of a picture in event code order (R139–R141, Table 5.8) with their counters. The detail of PARAMS_MISSING has the
type above the ID, which the spec does not lay out. DESIGN CHOICE (log 134). -/
def picEvents (s : State) (ci : Nat) (r : Damage) (i : AuInfo) (u : SeiUse) (absent : Bool) : State :=
  let poc := i.poc.toNat
  let o := ctxOwner s ci
  let s := r.missing.foldl (fun s m => raiseKey s ci evRefMissing 1 9 o [(ci, 8), (poc, 24), (m.toNat, 24)]) s
  let s := if r.concealed.isEmpty then s else raiseKey s ci evAreaConcealed 1 9 o [(ci, 8), (poc, 24), (capAt 0x3FFFF r.concealed.length, 18)]
  let s := match r.firstBad with | some a => raiseKey s ci evBitstreamError 1 9 o [(ci, 8), (poc, 24), (a.toNat, 18)] | none => s
  let s := if absent then raiseKey s ci evSeiAbsent 1 9 o [(ci, 8), (poc, 24)] else s
  let s := r.noParams.foldl (fun s m => raiseKey s ci evParamsMissing 0 9 o [(ci, 8), (m.2 % 256 + m.1 * 256, 16)]) s
  match u with
  | .foreign id => raiseKey s ci evSeiForeign 0 9 o [(ci, 8), (id, 32)]
  | .bad => raiseKey s ci evSeiBad 0 9 o [(ci, 8), (poc, 24)]
  | _ => s

/-- Whether a block predicts from a substitute, or takes its motion from one (R134, Table 5.3 flag 5). -/
def blockSubst (dpb : List DPic) (b : Block) : Bool :=
  match b.kind with
  | .inter refs col => refs.any (fun r => (refOf dpb r.1).isNone) || (match col with | some x => (refOf dpb x.1).isNone | none => false)
  | _ => false

/-- The counters of a picture (Table 5.11). DEC_SEL_BSERR counts what R133 raises, the first error of the picture and no further
one. DESIGN CHOICE (log 150). -/
def picCounts (c : Ctx) (r : Damage) (i : AuInfo) (u : SeiUse) (mapLost : Bool) : Ctx :=
  { c with
    nDecoded := satInc c.nDecoded, nConceal := satInc c.nConceal (Bool.nat (!r.concealed.isEmpty))
    nRefMiss := satInc c.nRefMiss r.missing.length, nBsErr := satInc c.nBsErr (Bool.nat r.firstBad.isSome)
    nPicLost := satInc c.nPicLost (Bool.nat mapLost), lastPoc := i.poc
    nSeiOk := satInc c.nSeiOk (match u with | .ok _ _ => 1 | _ => 0)
    nForeign := satInc16 c.nForeign (match u with | .foreign _ => 1 | _ => 0)
    nBad := satInc16 c.nBad (match u with | .bad => 1 | _ => 0) }

/-- What waits for the picture in decode (R127). -/
def picEnd (s : State) (ci : Nat) (wasWaiting : Bool) : State :=
  let c := s.ctx ci
  let s := if c.flushing then
      let s := match c.flush with
        | id :: _ => s.modJob id fun j => { j with m := j.m + Bool.nat wasWaiting }
        | [] => s
      let s := s.setCtx ci { c with dpb := [], leaving := [], started := false, active := none, prevFn := none, flushing := false, flush := [] }
      c.flush.foldl flushDone s
    else s
  if (s.ctx ci).state = .draining then unbindEnd s ci else s

/-- The blocks of a picture in decode: the concealed ones, then those its bitstream brings (R130, R133). -/
def picBlocks (c : Ctx) (d : InDecode) (r : PicResult) : List Block × List Block :=
  ((concealedCtus c d.info d.seq).map (ctuBlock d.seq), r.blocks)

/-- Whether one of the picture's own accesses waits at a gate. -/
def picHeld (s : State) (p : Nat) (c : Ctx) (d : InDecode) (r : PicResult) : Bool :=
  let f := s.surf (c.poolBase + d.buf)
  let bs := picBlocks c d r
  let side := sideAddr s c d.buf
  fetchHeld s p c d.dpb r.blocks || rowsDec s 9 p .r ((d.au.addr, d.au.length) :: concealSrc s c d bs.1) == .held
    || rowsDec s 9 p .w (r.rows.map (fun x => (f.base + x.1, x.2.length)) ++ bs.1.flatMap (ctuRowsOf f)
      ++ (monoRows f d.seq).map fun x => (x.1, x.2.length)) == .held
    || rowsDec s 9 p .w [(side, 2048), (side + 0x800, 0x8000), (side + 0x8800, sideOf s c - 0x8800)] == .held

/-- A picture in decode finishes (R116, R122, R125, R128–R141, R517). Its tiles become final in raster order. DESIGN CHOICE
(log 151). -/
def finishPic (s : State) (ci : Nat) (d : InDecode) (r : PicResult) : State :=
  let c := s.ctx ci
  let p := ctxOwner s ci
  let n := c.poolBase + d.buf
  let f := s.surf n
  let x := d.seq
  let tx := ceilDiv x.width 64
  let ty := ceilDiv x.height 64
  let dmg := damageOf c d
  let bs := picBlocks c d r
  let cells := picCells s p c d.dpb (bs.1 ++ bs.2)
  let au := engRead s 9 p d.au.addr d.au.length
  let u := seiUse c x au.2.2
  let tiles := picTiles tx ty x.ctb cells (match u with | .ok _ st => st | _ => [])
  let bad := (List.range (tx * ty)).filter fun t =>
    let q := tileRect f (t / tx * f.tx + t % tx)
    rowsDec s 9 p .w (rectRows f q.1 q.2.1 q.2.2.1 q.2.2.2) != .ok
  let s := noteFetches au.1 p c d.dpb bs.2
  let fill := concealFill s p c d bs.1
  let s := (writeRows fill.1 9 p (r.rows.map (fun y => (f.base + y.1, y.2)) ++ fill.2 ++ monoRows f x)).1
  let side := sideAddr s c d.buf
  let s := openWrite s p (side + 0x8800) (sideOf s c - 0x8800)
  let y := cellWrite s p (side + 0x800) tx ty cells
  let z := engWrite y.1 9 p side (taintBytes tx ty tiles)
  let cellLost : Bool := y.2 != .ok
  let mapLost : Bool := z.2 != .ok
  let rec_ := seiRecord d.au u
  let basis := bitsOf rec_.flags.toNat 0 2
  let seq := c.decSeq + 1
  let s := z.1
  let s := if f.reg then
      (List.range (tx * ty)).foldl (fun s t =>
        sendRecord s n (t / tx * f.tx + t % tx) (recTime rec_.capture rec_.arrival basis) (BitVec.ofNat 2 basis)
          (tiles.contains t || bad.contains t || cellLost) seq) s
    else s
  let pic : DPic := { buf := d.buf, epoch := 0, poc := if c.codec = 0 ∧ d.info.mmco5 = true then 0 else d.info.poc.toInt, decSeq := seq, au := rec_, isRef := false
                      waiting := r.outputFlag && !mapLost, width := x.width, height := x.height, depth := x.depthY, crop := x.crop
                      cells := cells, tiles := tiles, conceal := !dmg.concealed.isEmpty, subst := r.blocks.any (blockSubst d.dpb) }
  let c' := endBump (picCounts (s.ctx ci) dmg d.info u mapLost) x d.info pic r
  let s := s.setCtx ci { c' with decSeq := seq, dec := none }
  let s := picEvents s ci dmg d.info u (d.au.flags.getLsbD 4 && !(match u with | .ok _ _ => true | _ => false))
  let s := match d.cores with | lead :: _ => pwrEnd s (pwrDec lead) | [] => s
  picEnd s ci pic.waiting

/-- The lead core of a picture finishes it (R137). -/
def doDecodeComplete (core : Fin 16) (r : PicResult) (s : State) : State :=
  match s.ctxs.find? fun x => match x.2.dec with | some d => d.cores.head? == some core.val | none => false with
  | some (ci, c) =>
    match c.dec with
    | some d =>
      if picHeld s (ctxOwner s ci) c d r then s
      else surfWritten (finishPic s ci d r) (c.poolBase + d.buf)
    | none => s
  | none => s

def execDecodeComplete (core : Fin 16) (r : PicResult) (s : State) : Host.Outcome State Fault Refusal :=
  .next (doDecodeComplete core r s)

/-! ### Output -/

/-- The next picture that the bumping process has put out. -/
def nextOut (c : Ctx) : Option DPic := c.leaving.head?.bind fun b => c.dpb.find? fun d => d.buf == b

/-- The picture record of Table 5.3. -/
def picRecord (s : State) (c : Ctx) (d : DPic) (outSeq : Nat) : Bytes :=
  let fl := bitsOf d.au.flags.toNat 0 2 + Bool.nat (d.au.flags.getLsbD 4) * 4 + Bool.nat (!d.tiles.isEmpty) * 8
    + Bool.nat d.conceal * 16 + Bool.nat d.subst * 32 + Bool.nat (d.au.flags.getLsbD 3) * 64 + Bool.nat (d.au.flags.getLsbD 2) * 128
  leBytes 4 outSeq ++ leBytes 4 d.decSeq.toNat ++ leBytes 8 d.au.capture ++ leBytes 8 d.au.arrival ++ leBytes 2 (c.poolBase + d.buf)
    ++ leBytes 1 fl ++ leBytes 1 d.depth ++ leBytes 4 (unsigned 32 d.poc) ++ leBytes 2 d.width ++ leBytes 2 d.height
    ++ leBytes 2 d.crop.1 ++ leBytes 2 d.crop.2.1 ++ leBytes 2 d.crop.2.2.1 ++ leBytes 2 d.crop.2.2.2 ++ leBytes 2 d.tiles.length ++ [0, 0]
    ++ leBytes 5 (sideAddr s c d.buf) ++ [0, 0, 0] ++ leBytes 4 d.au.rtpTs.toNat ++ [0, 0, 0, 0]

/-- A picture leaves the decoded picture buffer (R125): records applied, picture record, fence. -/
def outputPic (s : State) (ci : Nat) (d : DPic) : State :=
  let s := drainRecords s
  let c := s.ctx ci
  let p := ctxOwner s ci
  let n := c.outSeq + 1
  let s := (looseWrite s 9 p (c.outBase + (n - 1).toNat % 16 * 64) (picRecord s c d n.toNat)).1
  let s := if c.fenceOn then fenceWrite s 9 p c.fenceHost c.fenceAt.toNat n.toNat else s
  let c := s.ctx ci
  s.setCtx ci { c with
    outSeq := n, outAt := s.now, lastOut := some d.buf, lastTiles := d.tiles.length
    nTainted := satInc c.nTainted (Bool.nat (!d.tiles.isEmpty))
    leaving := c.leaving.drop 1
    dpb := (c.dpb.map fun x => if x.buf = d.buf then { x with waiting := false } else x).filter fun x => x.isRef || x.waiting }

/-- The next picture that the bumping process put out leaves (R125); a HALTED context holds its pictures (Table 5.4). -/
def doPictureOutput (ctx : Fin 256) (s : State) : State :=
  let c := s.ctx ctx.val
  if c.state = .halted then s
  else match nextOut c with
    | some d => outputPic s ctx.val d
    | none => s

def execPictureOutput (ctx : Fin 256) (s : State) : Host.Outcome State Fault Refusal := .next (doPictureOutput ctx s)

end Sys2Proof.Machine
end

