-- ==== Sys2Proof/Machine/Motion.lean ====
section
/-!
DEFINITION. Motion search (chapter 06): the cost of a vector, the candidate list (R167), the stepped refinement (R168)
and the limits of gradual refresh (R170), block by block over a picture, its reference and the vectors found before.
-/

namespace Sys2Proof.Machine

/-- A motion vector in quarter luma samples. -/
abbrev Mv := Int × Int

/-- Luma samples, line by line. -/
abbrev Plane := Array (Array Nat)

/-- A plane of lines of bytes. -/
def planeOf (ls : List Bytes) : Plane := (ls.map fun l => (l.map (·.toNat)).toArray).toArray

/-- The sample at a position; pictures repeat their edge samples. -/
def Plane.sample (p : Plane) (x y : Int) : Nat :=
  let l := p.getD (clampI y 0 ((p.size : Int) - 1)).toNat #[]
  l.getD (clampI x 0 ((l.size : Int) - 1)).toNat 0

/-! ### Samples between samples -/

/-- The H.265 luma filter at a quarter position, from the sample three before (H.265 8.5.3.3.3). -/
def taps265 : Nat → List Int
  | 1 => [-1, 4, -10, 58, 17, -5, 1, 0] | 2 => [-1, 4, -11, 40, 40, -11, 4, -1] | 3 => [0, 1, -5, 17, 58, -10, 4, -1]
  | _ => [0, 0, 0, 64, 0, 0, 0, 0]

/-- The sum of a filter over samples. -/
def tapsOver (f : List Int) (v : Nat → Int) : Int := (f.zipIdx.map fun t => t.1 * v t.2).foldl (· + ·) 0

/-- A sample of a reference at a quarter position, as H.265 predicts it from one list. -/
def interp265 (p : Plane) (x y : Int) (fx fy : Nat) : Nat :=
  let row := fun (yy : Int) => tapsOver (taps265 fx) fun i => (p.sample (x + i - 3) yy : Int)
  let v : Int :=
    if fx = 0 then tapsOver (taps265 fy) fun i => (p.sample x (y + i - 3) : Int)
    else if fy = 0 then row y
    else tapsOver (taps265 fy) (fun i => row (y + i - 3)) / 64
  (clampI ((v + 32) / 64) 0 255).toNat

/-- The H.264 six-tap filter. -/
def six (v : Nat → Int) : Int := tapsOver [1, -5, 20, 20, -5, 1] v

/-- A sample of a reference at a quarter position, as H.264 predicts it (H.264 8.4.2.2.1; its names of positions). -/
def interp264 (p : Plane) (x y : Int) (fx fy : Nat) : Nat :=
  let s := fun (dx dy : Int) => p.sample (x + dx) (y + dy)
  let half := fun (v : Int) => (clampI ((v + 16) / 32) 0 255).toNat
  let b1 := fun (dy : Int) => six fun i => (s ((i : Int) - 2) dy : Int)
  let b := fun (dy : Int) => half (b1 dy)
  let h := fun (dx : Int) => half (six fun i => (s dx ((i : Int) - 2) : Int))
  let j := (clampI (((six fun i => b1 ((i : Int) - 2)) + 512) / 1024) 0 255).toNat
  let mean := fun (u v : Nat) => (u + v + 1) / 2
  match fx, fy with
  | 0, 0 => s 0 0
  | 0, 1 => mean (s 0 0) (h 0) | 0, 2 => h 0 | 0, _ => mean (s 0 1) (h 0)
  | 1, 0 => mean (s 0 0) (b 0) | 2, 0 => b 0 | _, 0 => mean (s 1 0) (b 0)
  | 1, 1 => mean (b 0) (h 0) | 1, 2 => mean (h 0) j | 1, _ => mean (h 0) (b 1)
  | 2, 1 => mean (b 0) j | 2, 2 => j | 2, _ => mean j (b 1)
  | _, 1 => mean (b 0) (h 1) | _, 2 => mean j (h 1) | _, _ => mean (h 1) (b 1)

/-! ### The search of a picture -/

/-- What the search of a picture's blocks works with. -/
structure Search where
  h265   : Bool
  src    : Plane
  ref    : Plane
  cols   : Nat                  -- 16×16 blocks in a row
  rows   : Nat
  prev   : List (Option Mv)     -- final vectors of the previous picture
  global : Option Mv            -- in quarter samples
  rowAxis : Bool                -- a row sweep
  clean  : Nat                  -- E_k of R169

/-- The SAD of a 16×16 block at a vector, predicted as the standard does. -/
def sad (c : Search) (bx by_ : Nat) (v : Mv) : Nat :=
  let fx := (v.1 % 4).toNat
  let fy := (v.2 % 4).toNat
  (List.range 256).foldl (fun n k =>
    let x : Int := bx * 16 + k % 16
    let y : Int := by_ * 16 + k / 16
    let r := if c.h265 then interp265 c.ref (x + v.1 / 4) (y + v.2 / 4) fx fy else interp264 c.ref (x + v.1 / 4) (y + v.2 / 4) fx fy
    n + ((c.src.sample x y : Int) - r).natAbs) 0

/-- λ(QP): the greatest n with n ≤ 0.5 + 0.92 × 2^((QP − 12)/6), in whole numbers. -/
def lambda (qp : Nat) : Nat := ((List.range 90).filter fun n => decide (((2 * (n + 1) - 1) * 25) ^ 6 * 2 ^ 12 ≤ 46 ^ 6 * 2 ^ qp)).length

/-- bits(d) of the motion cost. -/
def mvBits (d : Mv) : Nat := 2 + 2 * Nat.log2 (d.1.natAbs + 1) + 2 * Nat.log2 (d.2.natAbs + 1)

/-- J(v) = SAD(v) + λ(QP) × bits(v − pmv). -/
def cost (c : Search) (qp bx by_ : Nat) (pmv v : Mv) : Nat := sad c bx by_ v + lambda qp * mvBits (v.1 - pmv.1, v.2 - pmv.2)

/-- The median of three numbers. -/
def median3 (a b c : Int) : Int := max (min a b) (min (max a b) c)

/-- The median of three vectors; an unavailable one counts as zero. The spec does not say. DESIGN CHOICE (log 136). -/
def medianMv (a b c : Option Mv) : Mv :=
  let g := fun (v : Option Mv) => v.getD (0, 0)
  (median3 (g a).1 (g b).1 (g c).1, median3 (g a).2 (g b).2 (g c).2)

/-- A vector rounded to full samples (R167). -/
def fullMv (v : Mv) : Mv := ((v.1 + 2) / 4 * 4, (v.2 + 2) / 4 * 4)

/-- The final vector of a block, none where it has none yet, is intra, or lies outside the picture. -/
def mvAt (c : Search) (done : List (Nat × Option Mv)) (bx by_ : Int) : Option Mv :=
  if bx < 0 ∨ by_ < 0 ∨ (c.cols : Int) ≤ bx then none
  else (done.find? fun r => r.1 == by_.toNat * c.cols + bx.toNat).bind (·.2)

/-- The left, above and above-right neighbours of a block, above-left where above-right is outside the picture (R167). -/
def neighbours (c : Search) (done : List (Nat × Option Mv)) (bx by_ : Nat) : Option Mv × Option Mv × Option Mv :=
  let at_ := fun (dx dy : Int) => mvAt c done ((bx : Int) + dx) ((by_ : Int) + dy)
  (at_ (-1) 0, at_ 0 (-1), if bx + 1 < c.cols then at_ 1 (-1) else at_ (-1) (-1))

/-- Whether a block may take a vector (R170): in the clean region its reference region lies wholly in it, the zero vector always. -/
def mvAllowed (c : Search) (bx by_ : Nat) (v : Mv) : Bool :=
  let r := refRegion (bx * 16) (by_ * 16) 16 16 v.1 v.2 (c.cols * 16) (c.rows * 16)
  v == (0, 0) || decide (c.clean ≤ (if c.rowAxis then by_ else bx) * 16) || decide ((if c.rowAxis then r.2.2.2 else r.2.1) < c.clean)

/-- The candidate list of a block (R167): full samples, no duplicates, none that breaks R170. -/
def candidateMvs (c : Search) (done : List (Nat × Option Mv)) (bx by_ : Nat) : List Mv :=
  let n := neighbours c done bx by_
  let med := if n.1.isSome || n.2.1.isSome || n.2.2.isSome then some (medianMv n.1 n.2.1 n.2.2) else none
  let col := c.prev.getD (by_ * c.cols + bx) none
  (([some (0, 0), n.1, n.2.1, n.2.2, col, c.global, med].filterMap id).map fullMv).eraseDups.filter (mvAllowed c bx by_)

/-- The best of points after a current best with its cost; earlier points win ties. -/
def bestOf (J : Mv → Nat) (best : Mv × Nat) (ps : List Mv) : Mv × Nat :=
  ps.foldl (fun b v => let j := J v; if j < b.2 then (v, j) else b) best

/-- The 8 points around a vector at distance `s`, in the order of R168. -/
def ring8 (v : Mv) (s : Int) : List Mv :=
  ([(s, 0), (-s, 0), (0, s), (0, -s), (s, s), (s, -s), (-s, s), (-s, -s)] : List Mv).map fun d => (v.1 + d.1, v.2 + d.2)

/-- The points of a ring that the search evaluates: at most 16 samples from the centre, and not against R170. -/
def ringPoints (c : Search) (bx by_ : Nat) (centre v : Mv) (s : Int) : List Mv :=
  (ring8 v s).filter fun p => decide ((p.1 - centre.1).natAbs ≤ 64) && decide ((p.2 - centre.2).natAbs ≤ 64) && mvAllowed c bx by_ p

/-- One step of the refinement: moves to the best point while it improves, `n` times at most (R168). -/
def stepMoves (c : Search) (J : Mv → Nat) (bx by_ : Nat) (centre : Mv) (s : Int) : Nat → Mv × Nat → Mv × Nat
  | 0, best => best
  | n + 1, best =>
    let b := bestOf J best (ringPoints c bx by_ centre best.1 s)
    if b.1 = best.1 then best else stepMoves c J bx by_ centre s n b

/-- The final vector of a block (R167, R168): the best candidate, steps of 8, 4, 2 and 1 samples, then half and quarter samples. -/
def searchBlock (c : Search) (qp : Nat) (done : List (Nat × Option Mv)) (bx by_ : Nat) : Mv :=
  let n := neighbours c done bx by_
  let J := cost c qp bx by_ (medianMv n.1 n.2.1 n.2.2)
  let centre := bestOf J ((0, 0), J (0, 0)) (candidateMvs c done bx by_)
  let full := ([32, 16, 8, 4] : List Int).foldl (fun b s => stepMoves c J bx by_ centre.1 s 4 b) centre
  (([2, 1] : List Int).foldl (fun b s => bestOf J b (ringPoints c bx by_ centre.1 b.1 s)) full).1

/-- The 16×16 blocks of a picture in coding order: H.265 codes the four of a CTB together. -/
def blockOrder (h265 : Bool) (cols rows : Nat) : List (Nat × Nat) :=
  if h265 then
    (List.range (ceilDiv rows 2 * ceilDiv cols 2)).flatMap fun t =>
      let x := t % ceilDiv cols 2 * 2
      let y := t / ceilDiv cols 2 * 2
      ([(x, y), (x + 1, y), (x, y + 1), (x + 1, y + 1)] : List (Nat × Nat)).filter fun b => decide (b.1 < cols) && decide (b.2 < rows)
  else (List.range (cols * rows)).map fun t => (t % cols, t / cols)

/-- The final vectors of a picture's blocks in raster order: `qp` of a block's row, blocks coded as intra with none, blocks of rows
coded as skip with zero (R167, R168, R174). -/
def searchPicture (c : Search) (qp : Nat → Nat) (intra skip : Nat → Nat → Bool) : List (Option Mv) :=
  let done := (blockOrder c.h265 c.cols c.rows).foldl (fun done b =>
    let v := if skip b.1 b.2 then some (0, 0) else if intra b.1 b.2 then none else some (searchBlock c (qp b.2) done b.1 b.2)
    done ++ [(b.2 * c.cols + b.1, v)]) []
  (List.range (c.cols * c.rows)).map fun i => (done.find? fun r => r.1 == i).bind (·.2)

/-- The most frequent full-sample vector of a picture's blocks, the smaller |x| + |y| winning a tie (R167); of equal ones the first
found. DESIGN CHOICE (log 136). -/
def commonMv (mvs : List (Option Mv)) : Option Mv :=
  let vs := (mvs.filterMap id).map fullMv
  let size := fun (v : Mv) => v.1.natAbs + v.2.natAbs
  match vs.eraseDups with
  | [] => none
  | v :: more => some (more.foldl (fun a b =>
      if vs.count a < vs.count b ∨ (vs.count a = vs.count b ∧ size b < size a) then b else a) v)

/-- Whether each 32×32 unit of H.265 is one prediction unit: its blocks found the same vector (R168). -/
def wholeUnits (cols rows : Nat) (mvs : List (Option Mv)) : List Bool :=
  (List.range (ceilDiv rows 2 * ceilDiv cols 2)).map fun t =>
    let x := t % ceilDiv cols 2 * 2
    let y := t / ceilDiv cols 2 * 2
    let bs := (([(x, y), (x + 1, y), (x, y + 1), (x + 1, y + 1)] : List (Nat × Nat)).filter fun b => decide (b.1 < cols) && decide (b.2 < rows)).map
      fun b => mvs.getD (b.2 * cols + b.1) none
    match bs with | v :: _ => v.isSome && bs.all (· == v) | [] => false

end Sys2Proof.Machine
end

