-- ==== Sys2Proof/Machine/Encode.lean ====
section
/-!
DEFINITION. The end of a writeback frame (R212, R213), encode sessions (chapter 06): ENC_OPEN, ENC_PIC, ENC_REFRESH,
ENC_CLOSE, the start of a picture (R165, R169, R177), rate control (R172–R175), the freshness SEI (R176) and the slots
(R166).
-/

namespace Sys2Proof.Machine

/-! ### Sessions -/

/-- The coding unit and CTU row height of a session (Table 6.5). -/
def encUnit (e : Enc) : Nat := if e.h265 then 32 else 16

/-- The CTU rows of a session's pictures. -/
def encRows (e : Enc) : Nat := ceilDiv e.h (encUnit e)

/-- Units of a row. -/
def encCols (e : Enc) : Nat := ceilDiv e.w (encUnit e)

/-- The cores of a session. -/
def encCores (e : Enc) : List Nat := bitsSet 8 e.cores.toNat

/-- The sum of charges on an encode core (Table 6.12). -/
def encLoad (s : State) (core : Nat) : Nat :=
  (s.encs.filter fun x => x.2.opened && x.2.cores.getLsbD core).foldl (fun n x => n + x.2.charge) 0

/-- The luma samples per second of a session. -/
def encRate (e : Enc) : Nat := ceilDiv (e.w * e.h * e.num) e.den

/-- The rates of a partition's sessions (R164). -/
def encUse (s : State) (p : Nat) : Nat :=
  (s.encs.filter fun x => x.2.opened && ownsSess s p x.1).foldl (fun n x => n + encRate x.2) 0

/-! ### The end of a writeback frame -/

/-- The evaluations of band `b` in a frame. -/
def bandEvals (es : List BandEval) (b : Nat) : List Eval := (es.filter fun x => x.band == b).flatMap (·.evals)

/-- The oldest LIVE content of evaluations: that with the greatest raw age (Table 7.8). -/
def oldestLive (es : List Eval) : Option (BitVec 32) :=
  match es.filter fun e => e.verdict == .live with
  | [] => none
  | a :: as => some (as.foldl (fun x y => if x.raw < y.raw then y else x) a).content

/-- The 16 bytes of a band entry (Table 7.8). -/
def bandEntry (es : List Eval) : Bytes :=
  let bad := es.filter fun e => e.verdict != .live
  let worst := match bad.map (·.verdict) with
    | [] => 0
    | v :: vs => (vs.foldl (fun a b => if b.order < a.order then b else a) v).code
  let live := oldestLive es
  leBytes 2 es.length ++ leBytes 2 bad.length ++ leBytes 1 worst ++ leBytes 1 (Bool.nat live.isSome) ++ [0, 0]
    ++ leBytes 4 (live.getD 0).toNat ++ [0, 0, 0, 0]

/-- Bytes 4–2,043 of a writeback record (Table 7.8). -/
def wbRecord (h : Head) (boundary : Nat) : Bytes :=
  let all := h.prev.flatMap (·.evals)
  let body := leBytes 2 h.bands ++ leBytes 2 (Bool.nat (all.any fun e => e.verdict != .live)) ++ leBytes 8 boundary ++ List.replicate 16 0
    ++ (List.range h.bands).flatMap fun b => bandEntry (bandEvals h.prev b)
  sliceB body 0 2040

/-- The rows of a session that a frame does not show wholly LIVE (R177). -/
def staleRows (e : Enc) (h : Head) : List Nat :=
  let u := encUnit e
  (List.range (encRows e)).filter fun r =>
    (List.range h.bands).any fun b => overlaps (64 * b) 64 (r * u) u && (bandEvals h.prev b).any fun x => x.verdict != .live

/-- A written-back frame reaches a follow session of the head: every div-th is due, the newest due one stays (R165). -/
def encDue (s : State) (n : Nat) (buf : Bool) (boundary : Nat) (k : Nat) : State :=
  let e := s.enc k
  let h := s.head n
  if !(e.opened && e.follow && e.head == n) then s
  else if e.dueAge + 1 < e.div then s.setEnc k { e with dueAge := e.dueAge + 1 }
  else
    let all := h.prev.flatMap (·.evals)
    s.setEnc k { e with
      dueAge := 0, nPassed := satInc e.nPassed (Bool.nat e.due.isSome)
      due := some (Bool.nat buf, staleRows e h, !all.isEmpty, oldestLive all, boundary) }

/-- The frame reaches an egress slot of the head (R111): a slot that still sends passes it over. -/
def egrDue (s : State) (n : Nat) (buf : Bool) (boundary : Nat) (k : Nat) : State :=
  let e := s.egr k
  if !(e.enabled && e.head == n) then s
  else if e.frame.isSome then s.inc (ETH_EGR_SKIP k)
  else s.setEgr k { e with frame := some (Bool.nat buf, boundary), line := 0, off := 0 }

/-- A writeback frame's record is written and the frame is complete (R212, R213). -/
def wbComplete (s : State) (n : Nat) (d : Bool × BitVec 64 × Nat) : State :=
  let h := s.head n
  let p := headOwner s n
  let a := h.wbRec + (if d.1 then 2048 else 0)
  let seq := leBytes 4 d.2.1.toNat
  let put := fun (s : State) a bs => (looseWrite s 14 p a bs).1
  let s := put (put (put s (a + 4) (wbRecord h d.2.2)) a seq) (a + 2044) seq
  let s := (s.setHead n { s.head n with wbDue := none, wbLast := d.1, wbDone := true }).inc (HD_WB_FRAMES n)
  let s := (List.range 32).foldl (fun s k => encDue s n d.1 d.2.2 k) s
  let s := (List.range 8).foldl (fun s k => egrDue s n d.1 d.2.2 k) s
  let s := s.setHead n { s.head n with
    wbHeldA := if d.1 then (s.head n).wbHeldA else true, wbHeldB := if d.1 then true else (s.head n).wbHeldB }
  wbRelease s n

def doWritebackComplete (head : Fin 16) (s : State) : State :=
  match (s.head head.val).wbDue with
  | some d => wbComplete s head.val d
  | none => s

def execWritebackComplete (head : Fin 16) (s : State) : Host.Outcome State Fault Refusal := .next (doWritebackComplete head s)

/-! ### ENC_OPEN -/

def maskEncOpen : Nat :=
  bodyMask [(16, 0, 24), (19, 0, 3), (20, 0, 216), (48, 0, 40), (56, 0, 64)]

/-- The session that ENC_OPEN describes (Table 6.9). -/
def encOf (q : Req) : Enc :=
  let k := (bitsSet 8 (q.u8 18)).length
  { opened := true, h265 := q.u8 17 == 1, cores := BitVec.ofNat 8 (q.u8 18), follow := q.bit 19 0, rowSweep := q.bit 19 1, gvHost := q.bit 19 2
    w := q.u16 20, h := q.u16 22, num := q.u16 24, den := q.u16 26, rc := q.u8 28, qpMin := q.u8 29, qpMax := q.u8 30, qpInit := q.u8 31
    rate := q.u32 32, peak := q.u32 36, bufMs := q.u16 40, refresh := q.u8 42, slice := q.u8 43, head := q.u8 44, div := q.u8 45
    slots := q.u8 46, base := q.u40 48, slotSize := q.u32 56, ident := BitVec.ofNat 32 (q.u32 60), qpPic := q.u8 31
    charge := ceilDiv (q.u16 20 * q.u16 22 * q.u16 24) (q.u16 26 * k) }

/-- Whether an ENC_OPEN lies outside Table 6.9. -/
def encOpenBad (q : Req) : Bool :=
  let e := encOf q
  let k := (encCores e).length
  let size := fun n => decide (n < 64) || decide (8192 < n) || n % 2 != 0
  decide (31 < q.u8 16) || decide (1 < q.u8 17) || decide (k < 1) || decide (4 < k) || size e.w || size e.h || e.num == 0 || e.den == 0
    || decide (240 * e.den < e.num) || decide (2 < e.rc) || decide (51 < e.qpMax) || decide (e.qpInit < e.qpMin) || decide (e.qpMax < e.qpInit)
    || (decide (e.rc < 2) && (decide (e.rate < 100) || decide (1000000 < e.rate))) || decide (e.bufMs < 100) || decide (2000 < e.bufMs)
    || (e.rc == 1 && decide (e.peak < e.rate)) || decide (e.refresh < 2)
    || (e.follow && (decide (15 < e.head) || decide (e.div < 1) || decide (8 < e.div)))
    || decide (e.slots < 2) || decide (64 < e.slots) || e.base % 0x1000 != 0 || e.slotSize % 0x1000 != 0 || decide (e.slotSize < 65536)
    || decide (16777216 < e.slotSize) || e.ident == 0

/-- ENC_OPEN (R164, R165, R179). -/
def encOpen (q : Req) (s : State) : State × Nat × BitVec 128 :=
  let k := q.u8 16
  let p := q.part.val
  let e := encOf q
  let h := s.head e.head
  match firstFail [
      (encOpenBad q, stBadRange),
      (e.follow && decide (s.nHeads ≤ e.head), stNoResource),
      (!ownsSess s p k || (e.follow && !ownsHead s p e.head), stNotOwner),
      ((s.enc k).opened, stSessionBusy),
      ((encCores e).any fun i => decide (497664000 < encLoad s i + e.charge), stEncFull),
      (decide ((s.part p).qEnc < encUse s p + encRate e), stEncQuota),
      ((encCores e).any fun i => decide (s.nEnc ≤ i), stNoResource),
      (e.follow && (h.hAct != e.w || h.vAct != e.h || (h.wbOn && decide (1 < (s.surf h.wbA).fmt))), stBadFormat)] with
  | some st => (s, st, 0)
  | none =>
    let o := s.enc k
    (s.setEnc k { e with nBudget := o.nBudget, nSkip := o.nSkip, nDropped := o.nDropped, nPassed := o.nPassed },
      stComplete, cplBody [(16, 4, e.charge), (20, 2, encRows e)])

def doEncOpen (q : Req) (s : State) : State := soileNow s q 0x0601 maskEncOpen true (encOpen q)
def execEncOpen (q : Req) (s : State) : Host.Outcome State Fault Refusal := .next (doEncOpen q s)

/-! ### ENC_PIC, ENC_REFRESH, ENC_CLOSE -/

/-- ENC_PIC (R165, R179): validated, it waits for its session, its cores and earlier jobs on its surface. -/
def doEncPic (q : Req) (s : State) : State :=
  soile s q 0x0602 (bodyMask [(16, 0, 8), (17, 0, 1), (18, 0, 12), (20, 0, 32)]) true fun s id =>
    let k := q.u8 16
    let p := q.part.val
    let e := s.enc k
    let f := s.surf (q.u16 18)
    guardJob s id [
      (decide (31 < k), stBadRange), (!ownsSess s p k || !ownsSurf s p (q.u16 18), stNotOwner), (!e.opened, stNotOpen),
      (e.follow, stBadMode), (!f.reg, stNotTracked), (f.w != e.w || f.h != e.h || decide (1 < f.fmt), stBadFormat)] fun s => s

def execEncPic (q : Req) (s : State) : Host.Outcome State Fault Refusal := .next (doEncPic q s)

/-- Whether a session command fails its first checks. -/
def encChecks (q : Req) (s : State) : Option Nat :=
  firstFail [(decide (31 < q.u8 16), stBadRange), (!ownsSess s q.part.val (q.u8 16), stNotOwner), (!(s.enc (q.u8 16)).opened, stNotOpen)]

/-- ENC_REFRESH (R169, R178). -/
def doEncRefresh (q : Req) (s : State) : State :=
  soileNow s q 0x0603 (bodyMask [(16, 0, 8), (17, 0, 1)]) true fun s =>
    let k := q.u8 16
    match encChecks q s with
    | some st => (s, st, 0)
    | none => (s.setEnc k (if q.bit 17 0 then { s.enc k with idrNext := true } else { s.enc k with restart := true }), stComplete, 0)

def execEncRefresh (q : Req) (s : State) : Host.Outcome State Fault Refusal := .next (doEncRefresh q s)

/-- The session ends: charges released, held writeback buffers too, waiting ENC_PIC jobs find it closed (R178). -/
def encClosed (s : State) (k : Nat) : State :=
  let e := s.enc k
  let s := s.setEnc k { e with opened := false, due := none, charge := 0, closing := [] }
  let s := if e.follow then wbRelease s e.head else s
  let s := (s.jobs.filter fun j => j.opcode == 0x0602 && j.req.u8 16 == k).foldl (fun s j => finish s j.id stNotOpen) s
  e.closing.foldl (fun s id => finish s id stComplete (cplBody [(16, 4, e.picSeq.toNat)])) s

/-- ENC_CLOSE (R178). -/
def doEncClose (q : Req) (s : State) : State :=
  soile s q 0x0604 (bodyMask [(16, 0, 8)]) true fun s id =>
    match encChecks q s with
    | some st => finish s id st
    | none =>
      let k := q.u8 16
      let s := s.setEnc k { s.enc k with closing := (s.enc k).closing ++ [id] }
      if (s.enc k).work.isSome then s else encClosed (pwrEnd s (pwrEnc k)) k

def execEncClose (q : Req) (s : State) : Host.Outcome State Fault Refusal := .next (doEncClose q s)

/-! ### Start of a picture -/

/-- Whether another session codes on, or waits for, one of the session's cores. -/
def encBlocked (s : State) (k : Nat) : Bool :=
  s.encs.any fun x => x.1 != k && x.2.opened && (x.2.cores &&& (s.enc k).cores) != 0 && (x.2.work.isSome || pwrHas s (pwrEnc x.1))

/-- The next ENC_PIC job of a session (R157). -/
def encJob (s : State) (k : Nat) : Option Job :=
  s.jobs.find? fun j => j.opcode == 0x0602 && j.req.u8 16 == k && j.abortBy.isEmpty && mayRun s j

/-- The ledger entries of a surface that overlap a row (R177). -/
def rowEntries (s : State) (f : Surface) (u r : Nat) : List LEntry :=
  ((List.range f.tiles).filter fun t => overlaps (t / f.tx * 64) 64 (r * u) u).map fun t => s.led (f.lbase + t)

/-- `E − 1000 × tick_diff(tick(E), t)` of R177. -/
def captureAt (s : State) (t : BitVec 32) : Nat := unsigned 64 ((s.now : Int) - 1000 * tickDiff s.tick t)

/-- The entry with the greatest age of a list. -/
def oldestTime (now : BitVec 32) : List LEntry → Option (BitVec 32)
  | [] => none
  | e :: es => some (es.foldl (fun a b => if tickDiff now a.content < tickDiff now b.content then b else a) e).content

/-- Rows and capture time of an ENC_PIC picture (R177). -/
def picFresh (s : State) (e : Enc) (n : Nat) : List Nat × Nat :=
  let f := s.surf n
  let u := encUnit e
  let bad := fun r => (rowEntries s f u r).any fun x => x.never || x.expLong || x.taint || x.basis == 0
  let stale := (List.range (encRows e)).filter bad
  let fresh := (List.range (encRows e)).filter fun r => !bad r
  (stale, match oldestTime s.tick (fresh.flatMap (rowEntries s f u)) with | some t => captureAt s t | none => s.now)

/-- The refresh sweep's index for the next P picture (R169). -/
def nextK (e : Enc) : Nat := if e.restart then 0 else (e.sweepK + 1) % e.refresh

/-- A picture is taken up with what ENC_REFRESH asked before it; what it asks from now on is for the next one (R169). -/
def encTake (e : Enc) (w : EncWork) : Enc := { e with due := if e.follow then none else e.due, work := some w, idrNext := false, restart := false }

/-- A picture that was taken up and not written leaves what was asked of it to the next one (R169, R175). -/
def encUntake (e : Enc) (w : EncWork) : Enc :=
  { e with work := none, idrNext := e.idrNext || w.idr, restart := e.restart || w.k == 0 }

/-- The work that begins: the newest due frame, or the next ENC_PIC picture (R165, R169, R177). A frame whose live-class
tiles are none of them LIVE leaves capture_ns open (log 33). -/
def encBegin (s : State) (k : Nat) : State :=
  let e := s.enc k
  if e.follow then
    match e.due with
    | none => s
    | some (buf, stale, live, oldest, boundary) =>
      let cap := match oldest with
        | some t => captureAt s t
        | none => if live then Config.unstated s.free else boundary
      s.draw.setEnc k (encTake e ⟨none, wbSurf (s.head e.head) (buf == 1), e.idrNext, cap, stale, nextK e, none⟩)
  else
    match encJob s k with
    | none => s
    | some j =>
      let n := j.req.u16 18
      let fr := picFresh s e n
      (s.modJob j.id fun j => { j with running := true }).setEnc k
        (encTake e ⟨some j.id, n, e.idrNext || j.req.bit 17 0, fr.2, fr.1, nextK e, some (signed 16 (j.req.u16 20), signed 16 (j.req.u16 22))⟩)

/-- A session with a picture to code asks for its tokens while its cores are free, and begins once granted (R165,
Table 16.4: 24 tokens a core). -/
def doEncPictureStart (sess : Fin 32) (s : State) : State :=
  let k := sess.val
  let e := s.enc k
  if !s.ctl.core || s.ctl.mode = .yield || !e.opened || e.work.isSome || !e.closing.isEmpty then s
  else if !(if e.follow then e.due.isSome else (encJob s k).isSome) then pwrEnd s (pwrEnc k)
  else if pwrReady s (pwrEnc k) then encBegin s k
  else if encBlocked s k then s
  else pwrRequest s (pwrEnc k) (24 * (encCores e).length)

def execEncPictureStart (sess : Fin 32) (s : State) : Host.Outcome State Fault Refusal := .next (doEncPictureStart sess s)

/-! ### Rate control -/

/-- The buffer, the drain per picture and the average bits per picture of a session (R172). -/
def rcBuf (e : Enc) : Nat := (if e.rc = 1 then e.peak else e.rate) * e.bufMs
def rcDrain (e : Enc) : Nat := (if e.rc = 1 then e.peak else e.rate) * 1000 * e.den / e.num
def rcAvg (e : Enc) : Nat := e.rate * 1000 * e.den / e.num

/-- The bits a slot holds (R172). -/
def slotBits (e : Enc) : Nat := (e.slotSize - 64) * 8

/-- `min64(room, slot)` of R172. -/
def rcRoom (e : Enc) : Int := if e.rc = 2 then (slotBits e : Int) else min ((rcBuf e : Int) - (e.full : Int)) (slotBits e : Int)

/-- `pic_start` of R172: target and cap. -/
def picStart (e : Enc) (hdr : Nat) : Int × Int :=
  let cap := rcRoom e - (hdr : Int)
  let t : Int := match e.rc with
    | 0 => (rcDrain e : Int) + Int.tdiv (((rcBuf e / 2 : Nat) : Int) - (e.full : Int)) 8
    | 1 => (rcAvg e : Int) - Int.tdiv e.err 64
    | _ => slotBits e
  (clampI t (Int.tdiv cap 8) cap, cap)

/-- What the coding of rows has come to (R174). -/
structure RowState where
  used  : Int := 0
  first : Option Nat := none
  skip  : List Nat := []
  qps   : List Nat := []
  bits  : List Nat := []

/-- A row's weight from the previous picture (R173). -/
def rowWeight (e : Enc) (i : Nat) : Nat := Nat.max 1 (e.weights.getD i 1)

/-- `row_qp` of R173 in a run of rows that begins at `r0`. In CQP rows take the picture's QP (R172). -/
def rowQp (e : Enc) (idr : Bool) (target : Int) (r0 r1 r : Nat) (st : RowState) : Nat :=
  let w := fun (n : Nat) => ((upFrom r0 (n - r0)).map (rowWeight e)).foldl (fun (a b : Nat) => a + b) 0
  if e.rc = 2 then (clampI ((e.qpInit : Int) - 3 * (Bool.nat idr : Int)) e.qpMin e.qpMax).toNat
  else
    let plan := Int.tdiv (target * (w r : Int)) (w r1 : Int)
    let q := (e.qpPic : Int) + clampI (Int.tdiv ((st.used - plan) * 12) target) (-4) 4
    let q := match st.qps.getLast? with | some p => clampI q ((p : Int) - 2) ((p : Int) + 2) | none => q
    (clampI q e.qpMin e.qpMax).toNat

/-- A row of a coded picture. -/
def codedRow (rows : List CodedRow) (r : Nat) : CodedRow := rows.getD r ⟨[], [], [], []⟩

/-- A row coded as skip: at most 96 bits for each of its units (R174). -/
def skipBits (e : Enc) (rows : List CodedRow) (r : Nat) : List Bool := (codedRow rows r).skip.take (96 * encCols e)

/-- One row of `code_rows` (R174). -/
def codeRow (e : Enc) (idr : Bool) (target cap : Int) (r0 r1 : Nat) (rows : List CodedRow) (st : RowState) (r : Nat) : RowState :=
  let ex : Bool := st.first.isSome || decide (st.used ≥ target)
  let first := if ex then some (st.first.getD r) else none
  let qp := if ex then e.qpMax else rowQp e idr target r0 r1 r st
  let b := codedRow rows r
  let bits := b.bits.length
  let skip := (skipBits e rows r).length
  let reserve : Int := 96 * (encCols e : Int) * ((r1 - r - 1 : Nat) : Int)
  if !idr && decide (st.used + (bits : Int) + reserve > cap) then
    { used := st.used + (skip : Int), first := some (first.getD r), skip := st.skip ++ [r], qps := st.qps ++ [qp], bits := st.bits ++ [skip] }
  else { st with used := st.used + (bits : Int), first := first, qps := st.qps ++ [qp], bits := st.bits ++ [bits] }

/-- The runs of rows of a session's cores (R164). -/
def encRuns (e : Enc) : List (Nat × Nat) :=
  let n := encRows e
  let k := (encCores e).length
  let len := ceilDiv n k
  ((List.range k).map fun j => (j * len, Nat.min n ((j + 1) * len))).filter fun r => decide (r.1 < r.2)

/-- `code_rows` over every run, with the shares of R173. -/
def codePicture (e : Enc) (idr : Bool) (hdr : Nat) (rows : List CodedRow) : List RowState :=
  let t := picStart e hdr
  let n : Int := encRows e
  (encRuns e).map fun r =>
    let m : Int := ((r.2 - r.1 : Nat) : Int)
    (upFrom r.1 (r.2 - r.1)).foldl (codeRow e idr (Int.tdiv (t.1 * m) n) (Int.tdiv (t.2 * m) n) r.1 r.2 rows) {}

/-- The session after `pic_end` (R172) for an access unit of `bits` bits. -/
def picEndRc (e : Enc) (target : Int) (bits : Nat) : Enc :=
  let b : Int := bits
  let full := if e.rc = 2 then 0 else (max 0 ((e.full : Int) + b - (rcDrain e : Int))).toNat
  let one := fun (c : Bool) => (Bool.nat c : Int)
  let step : Int := 2 * one (decide (b > 2 * target)) + one (decide (b > Int.tdiv (target * 5) 4))
    - one (decide (b < Int.tdiv (target * 4) 5)) - one (decide (b < Int.tdiv target 2))
  { e with
    full := full, err := if e.rc = 1 then e.err + b - (rcAvg e : Int) else e.err
    qpPic := if e.rc = 2 then e.qpPic else (clampI ((e.qpPic : Int) + step) e.qpMin e.qpMax).toNat }

/-! ### The access unit -/

/-- Emulation prevention of a raw byte sequence; `z` zeros precede it. -/
def emulate : Nat → Bytes → Bytes
  | _, [] => []
  | z, b :: bs => if 2 ≤ z ∧ b.toNat ≤ 3 then 3 :: b :: emulate (if b = 0 then 1 else 0) bs else b :: emulate (if b = 0 then z + 1 else 0) bs

/-- The fresh bits of rows that are not stale (Table 6.7). -/
def freshBits (n : Nat) (stale : List Nat) : Bytes :=
  (List.range (ceilDiv n 8)).map fun i => BitVec.ofNat 8 ((List.range 8).foldl (fun v k =>
    if 8 * i + k < n ∧ !stale.contains (8 * i + k) then v + 2 ^ (7 - k) else v) 0)

/-- The freshness SEI message (Table 6.7). -/
def seiMessage (capture ident n : Nat) (stale : List Nat) : Bytes :=
  [0x05, BitVec.ofNat 8 (32 + ceilDiv n 8)] ++ seiUuid ++ [0x01, 0x00] ++ beBytes 8 capture ++ beBytes 4 ident ++ beBytes 2 n ++ freshBits n stale

/-- The SEI NAL unit with its start code (R176). -/
def seiUnit (h265 : Bool) (m : Bytes) : Bytes :=
  [0, 0, 0, 1] ++ (if h265 then [0x4E, 0x01] else [0x06]) ++ emulate 0 (m ++ [0x80])

/-- The bits of a number, most significant first, in `n` bits. -/
def numBits (n v : Nat) : List Bool := (List.range n).map fun i => bitOf v (n - 1 - i)

/-- Exp-Golomb codes ue(v) and se(v) of both standards. -/
def ueBits (v : Nat) : List Bool := let n := Nat.log2 (v + 1); List.replicate n false ++ numBits (n + 1) (v + 1)
def seBits (v : Int) : List Bool := ueBits (if 0 < v then (2 * v - 1).toNat else (2 * -v).toNat)

/-- The bytes of bits, most significant first, that fill whole bytes. -/
def packFlags : List Bool → Bytes
  | a :: b :: c :: d :: e :: f :: g :: h :: r =>
    BitVec.ofNat 8 ([a, b, c, d, e, f, g, h].foldl (fun v x => 2 * v + Bool.nat x) 0) :: packFlags r
  | _ => []

/-- A 1 and zeros up to a whole byte. -/
def trailBits (l : List Bool) : List Bool := l ++ true :: List.replicate ((15 - (l.length + 8) % 8) % 8) false

/-- The recovery point SEI message (R171): recovery_frame_cnt or recovery_poc_cnt `n`, exact_match_flag 1, broken_link_flag 0. -/
def recoveryMessage (h265 : Bool) (n : Nat) : Bytes :=
  let l := if h265 then seBits n ++ [true, false] else ueBits n ++ [true, false, false, false]
  let body := packFlags (if l.length % 8 = 0 then l else trailBits l)
  [0x06, BitVec.ofNat 8 body.length] ++ body

/-- The SEI NAL units of a picture (R171, R176): the recovery point at the first one of a sweep, then freshness. -/
def picSei (e : Enc) (w : EncWork) (stale : List Nat) : Bytes :=
  (if !w.idr && w.k == 0 then seiUnit e.h265 (recoveryMessage e.h265 (e.refresh - 1)) else [])
    ++ seiUnit e.h265 (seiMessage w.capture e.ident.toNat (encRows e) stale)

/-- The level limits of H.264: level_idc, macroblocks per second, macroblocks, kbit/s (High profile, 1.25 × MaxBR). Level 1b
of the High profile is level_idc 9.
PRESUMED from H.264 Table A-1, which R163 leaves to the standard (log 135). -/
def levels264 : List (Nat × Nat × Nat × Nat) :=
  [(10, 1485, 99, 80), (9, 1485, 99, 160), (11, 3000, 396, 240), (12, 6000, 396, 480), (13, 11880, 396, 960), (20, 11880, 396, 2500), (21, 19800, 792, 5000),
   (22, 20250, 1620, 5000), (30, 40500, 1620, 12500), (31, 108000, 3600, 17500), (32, 216000, 5120, 25000)]
  ++ [(40, 245760, 8192, 25000), (41, 245760, 8192, 62500), (42, 522240, 8704, 62500), (50, 589824, 22080, 168750),
   (51, 983040, 36864, 300000), (52, 2073600, 36864, 300000), (60, 4177920, 139264, 300000), (61, 8355840, 139264, 600000)]

/-- The level limits of H.265: general_level_idc, luma samples per second, luma samples, kbit/s (Main tier). PRESUMED from H.265
Tables A.8 and A.9 (log 135). -/
def levels265 : List (Nat × Nat × Nat × Nat) :=
  [(30, 552960, 36864, 128), (60, 3686400, 122880, 1500), (63, 7372800, 245760, 3000), (90, 16588800, 552960, 6000),
   (93, 33177600, 983040, 10000), (120, 66846720, 2228224, 12000), (123, 133693440, 2228224, 20000)]
  ++ [(150, 267386880, 8912896, 25000), (153, 534773760, 8912896, 40000), (156, 1069547520, 8912896, 60000),
   (180, 1069547520, 35651584, 60000), (183, 2139095040, 35651584, 120000)]

/-- The lowest level that fits a session's size, picture rate and bit rate (R163); above them all, the highest of the standard. -/
def encLevel (e : Enc) : Nat :=
  let u := if e.h265 then 8 else 16
  let w := ceilDiv e.w u * (if e.h265 then 8 else 1)
  let h := ceilDiv e.h u * (if e.h265 then 8 else 1)
  let kbps := if e.rc = 1 then e.peak else if e.rc = 0 then e.rate else 0
  let fits := fun (l : Nat × Nat × Nat × Nat) =>
    decide (w * h * e.num ≤ l.2.1 * e.den) && decide (w * h ≤ l.2.2.1) && decide (w * w ≤ 8 * l.2.2.1) && decide (h * h ≤ 8 * l.2.2.1)
      && decide (kbps ≤ l.2.2.2)
  match (if e.h265 then levels265 else levels264).find? fits with
  | some l => l.1
  | none => if e.h265 then 186 else 62

/-- A parameter set with the profile of Table 6.5 and the level of R163 at their places: profile_idc and level_idc of an H.264
sequence parameter set; general_profile_idc and general_level_idc of an H.265 VPS or SPS. -/
def putLevel (e : Enc) (n : Bytes) : Bytes :=
  let l := BitVec.ofNat 8 (encLevel e)
  let t := (n.getD 0 0).toNat
  if e.h265 then
    (if t / 2 % 64 = 32 then (n.set 6 0x01).set 17 l else if t / 2 % 64 = 33 then (n.set 3 0x01).set 14 l else n)
  else if t % 32 = 7 then (n.set 1 100).set 3 l else n

/-- The parameter sets of an access unit as NAL units. -/
def setUnits (e : Enc) (sets : List Bytes) : Bytes := annexB (sets.map fun n => emulate 0 (putLevel e n))

/-- The rows at which slices start (R164): each run, and every slice_rows rows of it. -/
def sliceStarts (e : Enc) : List Nat :=
  (encRuns e).flatMap fun r => (upFrom r.1 (r.2 - r.1)).filter fun i => i == r.1 || (e.slice != 0 && (i - r.1) % e.slice == 0)

/-- The slice NAL units of a picture (R164, R174): each its header, then its rows as coded or as skip. -/
def sliceUnits (e : Enc) (pic : CodedPic) (skips : List Nat) : Bytes :=
  let starts := sliceStarts e
  annexB (starts.zipIdx.map fun a =>
    let fin := (starts[a.2 + 1]?).getD (encRows e)
    let rows := (upFrom a.1 (fin - a.1)).flatMap fun r => if skips.contains r then skipBits e pic.rows r else (codedRow pic.rows r).bits
    emulate 0 (packFlags (trailBits ((pic.heads.getD a.2 []) ++ rows))))

/-- hdr_bits of R172: parameter sets, SEIs and slice headers, with their start codes. -/
def hdrBits (e : Enc) (w : EncWork) (pic : CodedPic) : Nat :=
  8 * ((setUnits e pic.sets).length + (picSei e w w.stale).length)
    + (sliceStarts e).zipIdx.foldl (fun n a => n + 32 + (pic.heads.getD a.2 []).length) 0

/-- Filler data NAL units of `n` bytes (R172): at least a whole unit. -/
def fillerNal (h265 : Bool) (n : Nat) : Bytes :=
  let hd : Bytes := [0, 0, 0, 1] ++ if h265 then [0x4C, 0x01] else [0x0C]
  if n = 0 then [] else hd ++ List.replicate (n - hd.length - 1) 0xFF ++ [0x80]

/-- The least filler data NAL unit, with its start code. -/
def leastFill (e : Enc) : Nat := (fillerNal e.h265 1).length

/-- The filler that CBR appends to an access unit of `bytes` bytes (R172): what the slot still holds caps it, and where that is less
than a whole unit there is none. -/
def cbrFill (e : Enc) (bytes : Nat) : Nat :=
  let n := ceilDiv (rcDrain e - (e.full + 8 * bytes)) 8
  let room := slotBits e / 8 - bytes
  if e.rc ≠ 0 ∨ n = 0 ∨ room < leastFill e then 0 else Nat.min n room

/-! ### End of a picture -/

/-- The CTU addresses that picture `k` of a sweep codes as intra (R169). -/
def intraCtus (e : Enc) (k : Nat) : List Nat :=
  let c := if e.rowSweep then encRows e else encCols e
  let lo := k * c / e.refresh
  let hi := (k + 1) * c / e.refresh
  (List.range (encRows e * encCols e)).filter fun a =>
    let i := if e.rowSweep then a / encCols e else a % encCols e
    decide (lo ≤ i) && decide (i < hi)

/-- The CTUs that picture `k` codes as intra: its own and those carried (R169, R170). -/
def mustIntra (e : Enc) (idr : Bool) (k : Nat) : List Nat :=
  if idr then List.range (encRows e * encCols e) else (intraCtus e k ++ e.carry).eraseDups

/-- E_k of R169: the clean region of picture `k` of a sweep. -/
def cleanEdge (e : Enc) (k : Nat) : Nat := k * (if e.rowSweep then encRows e else encCols e) / e.refresh * encUnit e

/-- The luma of the source as 8-bit lines of whole coding units (R163): a 10-bit sample is reduced with a half rounded up, edges are
repeated. A writeback that is not 4:2:0 has no luma that the spec says how to take: its samples are left open. -/
def srcLines (s : State) (e : Enc) (f : Surface) (rows : List Bytes) : List Bytes :=
  let w := encCols e * encUnit e
  let h := encRows e * encUnit e
  (List.range h).map fun y =>
    let l := (rows.getD (Nat.min y (e.h - 1)) []).toArray
    (List.range w).map fun x =>
      let i := Nat.min x (e.w - 1)
      if f.fmt = 0 then l.getD i 0
      else if f.fmt = 1 then
        BitVec.ofNat 8 (Nat.min 255 ((((l.getD (2 * i) 0).toNat + 256 * (l.getD (2 * i + 1) 0).toNat) / 64 + 2) / 4))
      else BitVec.ofNat 8 (Config.unstated (s.free + i))

/-- Where the luma lines of the source lie. -/
def srcRows (e : Enc) (f : Surface) : List (Nat × Nat) := (List.range e.h).map fun y => (f.base + y * f.pitch, e.w * fmtBytes f.fmt)

/-- The vectors of a picture's blocks (R167, R168, R170): none in an IDR picture. -/
def picVectors (e : Enc) (w : EncWork) (src : List Bytes) (pic : CodedPic) (qps skips : List Nat) : List (Option Mv) :=
  let u := encUnit e / 16
  let cols := encCols e * u
  let rows := encRows e * u
  let c : Search := { h265 := e.h265, src := planeOf src, ref := planeOf e.recon, cols := cols, rows := rows, prev := e.mvs
                      global := (if e.gvHost then w.gv.map fun v => (4 * v.1, 4 * v.2) else none).or (if e.gvHost then none else commonMv e.mvs)
                      rowAxis := e.rowSweep, clean := cleanEdge e w.k }
  let must := mustIntra e w.idr w.k
  searchPicture c (fun by_ => qps.getD (by_ / u) e.qpInit)
    (fun bx by_ => must.contains (by_ / u * encCols e + bx / u) || (codedRow pic.rows (by_ / u)).intra.contains (by_ * cols + bx))
    (fun _ by_ => skips.contains (by_ / u))

/-- The picture as reconstructed (R174): a row coded as skip copies the reference. -/
def picRecon (e : Enc) (pic : CodedPic) (skips : List Nat) : List Bytes :=
  let u := encUnit e
  (List.range (encRows e)).flatMap fun r => if skips.contains r then (e.recon.drop (r * u)).take u else (codedRow pic.rows r).recon

/-- The session after a coded picture: sweep, carried CTUs, counts, plan (R169, R170, R173). -/
def encAfter (e : Enc) (idr : Bool) (k : Nat) (skips : List Nat) (bits : List Nat) (poc : Int) (avg : Nat) : Enc :=
  { e with
    picSeq := e.picSeq + 1, poc := poc, weights := bits, qpAvg := avg, work := none
    sweepK := if idr then 0 else k, restart := idr || e.restart
    carry := if idr then [] else (mustIntra e false k).filter fun a => skips.contains (a / encCols e)
    nSkip := satInc e.nSkip skips.length }

/-- The 64 bytes of an encoded picture record but its sequence copies (Table 6.6): bytes 4–59. -/
def encRecord (e : Enc) (len capture : Nat) (poc : Int) (flags avg first skip : Nat) : Bytes :=
  leBytes 4 len ++ leBytes 8 capture ++ leBytes 4 (unsigned 32 poc) ++ leBytes 1 flags ++ leBytes 1 avg ++ leBytes 2 first ++ leBytes 2 skip
    ++ leBytes 2 (encRows e) ++ leBytes 4 e.ident.toNat ++ List.replicate 28 0

/-- Writes a slot in the order of R166. -/
def writeSlot (s : State) (p a seq : Nat) (au rec : Bytes) : State × AccRes :=
  writeRows s 11 p [(a + 60, leBytes 4 0), (a + 64, au), (a + 4, rec), (a, leBytes 4 seq), (a + 60, leBytes 4 seq)]

/-- The picture's work is over: tokens and writeback buffer are released, a waiting ENC_CLOSE goes on. -/
def encDone (s : State) (k : Nat) : State :=
  let s := pwrEnd s (pwrEnc k)
  let s := if (s.enc k).follow then wbRelease s (s.enc k).head else s
  if (s.enc k).closing.isEmpty then s else encClosed s k

/-- The row number of an event or record: 0xFFFF, in an event 0xFFF, where there is none. -/
def rowOr (none_ : Nat) : Option Nat → Nat
  | some r => r
  | none => none_

/-- A picture is dropped (R175). -/
def encDrop (s : State) (k : Nat) (w : EncWork) (first skip : Option Nat) : State :=
  let e := s.enc k
  let s := s.setEnc k { encUntake e w with nDropped := satInc e.nDropped }
  let s := raiseKey s k evFrameDropped 1 11 (sessOwner s k) [(k, 5), (e.picSeq.toNat, 32), (rowOr 0xFFF first, 12), (rowOr 0xFFF skip, 12)]
  let s := match w.job with | some id => finish s id stFrameDropped | none => s
  encDone s k

/-- The access unit of a picture before filler (R164, R171, R176): parameter sets, SEIs, slices. -/
def accessUnit (e : Enc) (w : EncWork) (pic : CodedPic) (skips : List Nat) : Bytes :=
  setUnits e pic.sets ++ picSei e w (w.stale ++ skips) ++ sliceUnits e pic skips

/-- Reads the source's luma lines, every refused piece recorded (R306). Answers how the reads ended. -/
def encSource (s : State) (p : Nat) (e : Enc) (f : Surface) : State × AccRes × List Bytes :=
  (srcRows e f).foldl (fun r u =>
    let x := engRead r.1 11 p u.1 u.2
    (x.1, if r.2.1 = .ok then x.2.1 else r.2.1, r.2.2 ++ [x.2.2])) (s, .ok, [])

/-- A picture is written to its slot (R166, R172–R177). -/
def encWrite (s : State) (k : Nat) (w : EncWork) (runs : List RowState) (pic : CodedPic) (src : List Bytes) : State :=
  let e := s.enc k
  let p := sessOwner s k
  let skips := runs.flatMap (·.skip)
  let first := (runs.filterMap (·.first)).head?
  let qps := runs.flatMap (·.qps)
  let avg := qps.foldl (· + ·) 0 / Nat.max 1 qps.length
  let mvs := picVectors e w (srcLines s e (s.surf w.surface) src) pic qps skips
  let poc : Int := if w.idr then 0 else e.poc + 1 + (if e.h265 then 0 else (Config.unstated s.free : Int))
  let s := s.draw
  let au := accessUnit e w pic skips
  let au := au ++ fillerNal e.h265 (cbrFill e au.length)
  let seq := (e.picSeq + 1).toNat
  let slot := (seq - 1) % e.slots
  let a := e.base + slot * e.slotSize
  let flags := Bool.nat w.idr + Bool.nat (!w.idr && w.k == 0) * 2 + Bool.nat first.isSome * 4 + Bool.nat (!skips.isEmpty) * 8
  let x := writeSlot s p a seq au (encRecord e au.length w.capture poc flags avg (rowOr 0xFFFF first) (rowOr 0xFFFF skips.head?))
  let e' := encAfter (picEndRc e (picStart e (hdrBits e w pic)).1 (8 * au.length)) w.idr w.k skips (runs.flatMap (·.bits)) poc avg
  let s := x.1.setEnc k { e' with
    nBudget := satInc e.nBudget (Bool.nat first.isSome), mvs := mvs, recon := picRecon e pic skips
    whole := if e.h265 then wholeUnits (2 * encCols e) (2 * encRows e) mvs else [] }
  let r : AuRec := ⟨w.capture, s.now, a + 64, 1, au.length, BitVec.ofNat 32 (Config.unstated s.free)⟩
  let s := sendItems s.draw true k r au
  let s := if first.isSome then
      raiseKey s k evBudgetExhausted (if skips.isEmpty then 0 else 1) 11 p [(k, 5), (seq, 32), (rowOr 0xFFF first, 12), (rowOr 0xFFF skips.head?, 12)]
    else s
  let s := match w.job with
    | some id => finish s id (if x.2 != .ok then x.2.status else if first.isSome then stBudgetExhausted else stComplete)
        (cplBody [(16, 4, seq), (20, 4, au.length), (24, 2, rowOr 0xFFFF first), (26, 2, rowOr 0xFFFF skips.head?), (28, 1, slot), (29, 1, avg)])
    | none => s
  encDone s k

/-- An aborted ENC_PIC leaves its slot with bytes 60–63 at 0 (R166). -/
def encAbort (s : State) (k : Nat) (id : Nat) : State :=
  let e := s.enc k
  let a := e.base + e.picSeq.toNat % e.slots * e.slotSize
  let s := (engWrite s 11 (sessOwner s k) (a + 60) (leBytes 4 0)).1
  encDone (finish (s.setEnc k (match e.work with | some w => encUntake e w | none => e)) id stAborted) k

/-- Whether the source or the slot of a picture with `n` bytes of access unit lies behind a held gate. -/
def encHeld (s : State) (k n : Nat) (w : EncWork) : Bool :=
  let e := s.enc k
  rowsDec s 11 (sessOwner s k) .w [(e.base + e.picSeq.toNat % e.slots * e.slotSize, 64 + n)] == .held
    || rowsDec s 11 (sessOwner s k) .r (srcRows e (s.surf w.surface)) == .held

/-- An ENC_PIC whose source is refused ends with what that gives (Table 11.3); its slot is left alone. -/
def encRefused (s : State) (k : Nat) (w : EncWork) (r : AccRes) : State :=
  let s := s.setEnc k (encUntake (s.enc k) w)
  encDone (match w.job with | some id => finish s id r.status | none => s) k

/-- The end of a picture (R174, R175): dropped where even its headers do not fit or an IDR picture exceeds its cap, else
written. A follow session codes what its reads bring. -/
def encEnd (s : State) (k : Nat) (w : EncWork) (pic : CodedPic) : State :=
  let e := s.enc k
  let hdr := hdrBits e w pic
  let t := picStart e hdr
  let runs := codePicture e w.idr hdr pic.rows
  let used := runs.foldl (fun (n : Int) r => n + r.used) 0
  let src := encSource s (sessOwner s k) e (s.surf w.surface)
  if src.2.1 ≠ .ok ∧ w.job.isSome then encRefused src.1 k w src.2.1
  else if (hdr : Int) + 96 * (encCols e : Int) * (encRows e : Int) > rcRoom e then encDrop src.1 k w none none
  else if w.idr && decide (used > t.2) then encDrop src.1 k w ((runs.filterMap (·.first)).head?) none
  else encWrite src.1 k w runs pic src.2.2

/-- Bytes that an access unit takes at most beside its coded picture: filler is counted with it. -/
def auBytes (e : Enc) (w : EncWork) (pic : CodedPic) : Nat :=
  let skips := (codePicture e w.idr (hdrBits e w pic) pic.rows).flatMap (·.skip)
  let n := (accessUnit e w pic skips).length
  n + (fillerNal e.h265 (cbrFill e n)).length

/-- A session's cores end its picture (R174, R175): what coding brings is the operand (log 10). -/
def doEncPictureComplete (sess : Fin 32) (pic : CodedPic) (s : State) : State :=
  let k := sess.val
  match (s.enc k).work with
  | none => s
  | some w =>
    if encHeld s k (auBytes (s.enc k) w pic) w then s
    else match w.job.bind s.job with
      | some j => if j.stops then encAbort s k j.id else encEnd s k w pic
      | none => encEnd s k w pic

def execEncPictureComplete (sess : Fin 32) (sets : List (List (BitVec 8))) (heads : List (List Bool)) (rows : List CodedRow) (s : State) :
    Host.Outcome State Fault Refusal := .next (doEncPictureComplete sess ⟨sets, heads, rows⟩ s)

end Sys2Proof.Machine
end

