-- ==== Sys2Proof/Machine/Modes.lean ====
section
/-!
DEFINITION. Power domains, device modes and resets (R14, R425–R431, R442–R445, R451): what each domain's power-up and
loss does, the transitions of Table 16.6 that a request makes, the pins PORST_N, CORE_PG, WAKE_N and TRST_N, the
holdover clock and the mode requests of the management port.
-/

namespace Sys2Proof.Machine

/-! ### Domains -/

/-- The slots of the ring island and the hawk vault (Table 1.6). -/
def ringSlot (slot : Nat) : Bool := ([39, 40, 41, 57, 58] : List Nat).contains slot

/-- Whether an address lies in the hawk vault (Table 1.4). -/
def inVault (a : Nat) : Bool := decide (vaultBase ≤ a) && decide (a < vaultBase + 0x800000)

/-- The ring island and the vault begin anew (Table 16.10): CHN, RDN and HWK reset, the vault zeroed. -/
def ringClear (s : State) : State :=
  { s with
    regs := s.regs.filter fun x => !ringSlot (x.1 / 0x10000)
    mem := s.mem.filter fun x => !inVault x.1
    chain := {}, rdn := { swapAt := s.island } }

/-- What the always-on domain and the ring island keep while the core domain loses everything (R14, R444, Table 16.10):
their registers and state, the vault, fuses, the levels of the hot-plug pins. -/
def coreClear (s : State) : State :=
  { pending := s.pending, free := s.free, island := s.island
    ctl := { s.ctl with core := false, primeOk := false, bootBad := false, gatesUp := false, latent := none }
    fuses := s.fuses, straps := s.straps, hold := s.hold
    regs := s.regs.filter fun x => decide (x.1 < 0x30000) || ringSlot (x.1 / 0x10000)
    mem := s.mem.filter fun x => inVault x.1
    heads := tnorm (fun _ => {}) (s.heads.map fun x => (x.1, { hpd := x.2.hpd }))
    chain := { s.chain with sends := [] }
    rdn := { s.rdn with swap := {}, gen := 0, due := false, image := none, jobs := [], ckptJobs := [], waiting := [] }
    pwr := { trip := s.pwr.trip }
    outbox := s.outbox, bus := s.bus }

/-- The holdover clock in units of 2⁻⁶⁴ ns: a tick is 1953125/64 ns (R428). -/
def holdVal (h : Holdover) : BitVec 128 := BitVec.ofNat 128 (h.sec.toNat * 1000000000 * 2 ^ 64 + h.ticks.toNat * 1953125 * 2 ^ 58)

/-- The timebase rounded down to a tick of the holdover clock (R428). -/
def holdOf (v : BitVec 128) : Holdover :=
  let n := v.toNat / (1953125 * 2 ^ 58)
  { sec := BitVec.ofNat 48 (n / 32768), ticks := BitVec.ofNat 15 (n % 32768), isSet := true }

/-- The core domain powers up (R63, R446, R448, R451, R433, Table 16.9 steps 1 and 2): its blocks at reset, the ring island
with it, the timebase from the holdover clock, a fresh nonce, PLLs FAB, TB and DSK started. -/
def corePowerUp (s : State) : State :=
  let ring := s.ctl.ring
  let s := coreClear (if ring then s else ringClear s)
  let first := !bitOf s.ctl.resets.toNat 1
  let s := { s with
    ctl := { s.ctl with core := true, ring := true, resets := BitVec.ofNat 3 (Bool.nat first + 2 + Bool.nat (!ring) * 4) }
    fuses := { s.fuses with cycleNow := s.fuses.cycle, unlockNow := s.fuses.unlocked, unlocked := false }
    tbase := { val := if s.hold.isSet then holdVal s.hold else 0 }
    nonce := Config.freshNonce s.free, free := s.free + 1 }
  let s := (s.setBit TB_STATUS 0 true).setFld TB_STATUS 3 2 (Bool.nat s.hold.isSet)
  let s := pllStart (pllStart (pllStart s 0) 4) 3
  let s := if s.reg CHN_HELLO_LOST = 0 then s else s.setSrc 55 { s.src 55 with input := true }
  if s.ctl.late then raise { s with ctl := { s.ctl with late := false } } evPrimeTimeout 3 1 31 [] else s

/-! ### Modes -/

/-- Every link DARK on entry into PRIME (R444, Table 8.5); a training cut short completes LINK_FAIL, its stage and settings
not stated (log 44), and what waited for the link goes on. -/
def primeDark (s : State) : State :=
  s.each 16 fun s n =>
    let h := s.head n
    if h.trained || h.tx != .dark then linkCut s n else s

/-- Restored links are trained once HEAD_LINK is permitted (R384). -/
def relinkAll (s : State) : State :=
  s.each 16 fun s n => if (s.head n).relink && (s.head n).hpd && (s.head n).tx == .dark then trainStart s n none else s

/-- The part enters a mode (R442, R66): `step_armed` follows PRIME, outputs and touch ports follow Tables 8.5 and 9.3, the
fields of TEST clear. -/
def setMode (s : State) (m : Mode) (cause : Nat) : State :=
  let old := tchMode s
  let was := s.ctl.mode
  let s := leaveTest s
  let s := { s with ctl := { s.ctl with mode := m, prev := was, cause := cause } }
  if !s.ctl.core then s
  else
    let s := if m = .prime then (s.setBit TB_STATUS 0 true).setBit TB_STATUS 1 false
             else if was = .prime then s.setBit TB_STATUS 0 false else s
    let s := touchModes s old
    if m = .prime then primeDark s else if linkMode s then relinkAll s else s

/-- Drives CORE_EN. -/
def driveCoreEn (s : State) (level : Bool) : State :=
  if s.ctl.coreEn == level then s else { s with ctl := { s.ctl with coreEn := level } }.emit (.coreEn level)

/-- KEEP goes into PRIME (R449 step 1): CORE_EN high, and the core domain powered once CORE_PG is high. `trigger` says what
follows the PRIME sequence: 2 a takeover, 6 SHADOW, 0 neither. -/
def beginPrime (s : State) (cause trigger : Nat) (byReq : Bool) : State :=
  let s := driveCoreEn (setMode s .prime cause) true
  let s := { s with ctl := { s.ctl with target := some (2, byReq) }, rdn := { s.rdn with trigger := trigger } }
  if s.ctl.corePg then corePowerUp s else s

/-- The request for PRIME that follows PORST_N (Table 16.6). -/
def autoPrime (s : State) : State :=
  if s.ctl.mode = .keep && s.ctl.target = some (2, false) then beginPrime s 5 0 false else s

/-- Entry into KEEP (R428, R444): outputs DARK, the timebase copied to the holdover clock, the core domain lost, and without
the keep option the ring island and vault with it and CORE_EN low. -/
def enterKeep (s : State) (cause : Nat) : State :=
  let s := leaveTest s
  let s := { s with hold := if s.ctl.core then holdOf s.tbase.val else s.hold
                    ctl := { s.ctl with mode := .keep, prev := s.ctl.mode, cause := cause, target := none } }
  let s := coreClear s
  if s.bit AO_KEEP 0 then s
  else driveCoreEn { ringClear s with ctl := { s.ctl with ring := false } } false

/-- The transitions of Table 16.6 that a request makes. -/
def requestable (old new : Mode) : Bool :=
  match old, new with
  | .keep, .prime => true
  | .prime, .shadow | .prime, .run | .prime, .test | .prime, .keep => true
  | .shadow, .prime | .run, .prime | .test, .prime => true
  | .shadow, .keep | .run, .keep | .test, .keep => true
  | .run, .test => true
  | .yield, .keep => true
  | _, _ => false

/-- The result code of a mode request (R443): 0 OK, 1 ILLEGAL, 2 BUSY, 3 BOOT_FAILED. -/
def requestResult (s : State) (new : Mode) : Nat :=
  if s.ctl.target.isSome then 2
  else if !requestable s.ctl.mode new then 1
  else if s.ctl.mode = .prime && new != .keep then (if s.ctl.bootBad then 3 else if s.ctl.primeOk then 0 else 1)
  else 0

/-- Decides AO_MODE_STATUS (R291, R443). -/
def modeDecided (s : State) (result code : Nat) : State := s.resultDone AO_MODE_STATUS (result + code * 8)

/-- A mode request (R443, R444): an accepted one for PRIME from KEEP is decided when the PRIME sequence completes. -/
def requestMode (code : Nat) (s : State) : State :=
  let new := modeOf code
  let r := requestResult s new
  let s := s.resultOpen AO_MODE_STATUS
  if r ≠ 0 then modeDecided s r code
  else if s.ctl.mode = .keep then beginPrime s 0 0 true
  else if new = .keep then modeDecided (enterKeep s 0) 0 code
  else modeDecided (setMode s new 0) 0 code

/-- A write of AO_MODE_REQ (R443). -/
def modeReqWrite (v : Word) (s : State) : State := if bitOf v.toNat 31 then requestMode (bitsOf v.toNat 0 3) s else s

def doModeRequest (a : Access) (v : Word) (s : State) : State := regAccess s a AO_MODE_REQ v (modeReqWrite v)
def execModeRequest (a : Access) (v : BitVec 32) (s : State) : Host.Outcome State Fault Refusal := .next (doModeRequest a v s)

/-! ### Pins -/

/-- PORST_N low: everything is reset and off (Table 16.10, R451). The fuses and the levels of the hot-plug pins stay. -/
def doPorstNLow (s : State) : State :=
  { pending := s.pending, free := s.free, island := s.island
    ctl := { mode := .off, prev := s.ctl.mode, target := none, porst := false, corePg := s.ctl.corePg }
    fuses := { s.fuses with unlocked := false, unlockNow := false }
    heads := tnorm (fun _ => {}) (s.heads.map fun x => (x.1, { hpd := x.2.hpd }))
    outbox := s.outbox ++ (if s.ctl.coreEn then [.coreEn false] else []), bus := s.bus }
def execPorstNLow (s : State) : Host.Outcome State Fault Refusal := .next (doPorstNLow s)

/-- PORST_N rises: the straps are captured, the part enters KEEP and goes on to PRIME (R24, Table 16.6, R501). -/
def doPorstNRise (straps : BitVec 4) (s : State) : State :=
  if s.ctl.porst then s
  else
    autoPrime { s with straps := straps
                       ctl := { mode := .keep, prev := .off, cause := 5, target := some (2, false), porst := true, corePg := s.ctl.corePg } }
def execPorstNRise (straps : BitVec 4) (s : State) : Host.Outcome State Fault Refusal := .next (doPorstNRise straps s)

/-- CORE_PG rises while CORE_EN is high: the core domain powers up in step 1 of the PRIME sequence (R449). -/
def doCorePgRise (s : State) : State :=
  if s.ctl.mode = .off || !s.ctl.coreEn || s.ctl.corePg then s
  else
    let s := autoPrime s
    let s := { s with ctl := { s.ctl with corePg := true } }
    if s.ctl.mode = .prime && !s.ctl.core then corePowerUp s else s
def execCorePgRise (s : State) : Host.Outcome State Fault Refusal := .next (doCorePgRise s)

/-- CORE_PG falls. While CORE_EN is high that is loss of power: OFF until PORST_N (R427). -/
def doCorePgFall (s : State) : State :=
  if !s.ctl.corePg then s
  else if s.ctl.mode = .off || !s.ctl.coreEn then { s with ctl := { s.ctl with corePg := false } }
  else
    let s := ringClear (coreClear s)
    { s with ctl := { s.ctl with mode := .off, prev := s.ctl.mode, target := none, ring := false, corePg := false } }
def execCorePgFall (s : State) : Host.Outcome State Fault Refusal := .next (doCorePgFall s)

/-- A falling edge of WAKE_N that lasts `ns` (R430). -/
def doWakeNEdge (ns : Nat) (s : State) : State :=
  if s.ctl.mode = .off || decide (ns < 1000) then s
  else
    let s := s.setBit AO_WAKE 1 true
    if s.bit AO_WAKE 0 && s.ctl.mode = .keep && s.ctl.target.isNone then beginPrime s 4 0 false else s
def execWakeNEdge (ns : Nat) (s : State) : Host.Outcome State Fault Refusal := .next (doWakeNEdge ns s)

/-- TRST_N low resets the TAP controller and nothing else (Table 16.10). -/
def doTrstNLow (s : State) : State := s.emit .tapReset
def execTrstNLow (s : State) : Host.Outcome State Fault Refusal := .next (doTrstNLow s)

/-! ### The holdover clock and the training cache -/

/-- A write of AO_HOLD_SUB sets the holdover clock from all three registers (R428); seconds not written since the last
setting are those the registers read. -/
def holdSet (v : Word) (s : State) : State :=
  let h := s.hold
  let lo := h.newLo.getD (BitVec.ofNat 32 h.sec.toNat)
  let hi := h.newHi.getD (BitVec.ofNat 16 (h.sec.toNat / 2 ^ 32))
  { s with hold := { sec := BitVec.ofNat 48 (lo.toNat + hi.toNat * 2 ^ 32), ticks := BitVec.ofNat 15 v.toNat, isSet := true } }

def doAoHoldSet (a : Access) (v : Word) (s : State) : State := regAccess s a AO_HOLD_SUB v (holdSet v)
def execAoHoldSet (a : Access) (v : BitVec 32) (s : State) : Host.Outcome State Fault Refusal := .next (doAoHoldSet a v s)

/-- A write of AO_TRAIN (R429): invalidate discards all cached data. -/
def trainWrite (v : Word) (s : State) : State :=
  if bitOf v.toNat 31 then { s with ctl := { s.ctl with cache := [] } }.setFld AO_TRAIN 0 6 0 else s

def doAoTrainInvalidate (a : Access) (v : Word) (s : State) : State := regAccess s a AO_TRAIN v (trainWrite v)
def execAoTrainInvalidate (a : Access) (v : BitVec 32) (s : State) : Host.Outcome State Fault Refusal := .next (doAoTrainInvalidate a v s)

/-! ### The management port (R431, R432) -/

/-- What a transaction of the management port carries (R431). -/
def mgtAccess : Access := ⟨0x60, 31, .p3⟩

/-- Whether the port answers: in every mode but OFF (R431). -/
def mgtOn (s : State) : Bool := s.ctl.mode != .off

/-- A write transaction: not performed, and answered with NACK on its PEC byte, where a PEC is required and is not correct. -/
def mgtWrite (s : State) (pecOk : Bool) (f : State → State) : State :=
  if !mgtOn s then s
  else if s.bit MGT_CFG 0 && !pecOk then (s.add MGT_ERR 16 16 1).emit .mgtNack
  else f s

/-- An SMBus transaction outside Table 16.2. -/
def doMgtUnsupportedTransaction (s : State) : State := if mgtOn s then (s.add MGT_ERR 0 16 1).emit .mgtNack else s
def execMgtUnsupportedTransaction (s : State) : Host.Outcome State Fault Refusal := .next (doMgtUnsupportedTransaction s)

/-- Command 0x10 sets the pointer. -/
def doMgtSetPointer (ptr : BitVec 40) (pecOk : Bool) (s : State) : State :=
  mgtWrite s pecOk fun s => s.setPair MGT_PTR_LO MGT_PTR_HI (ptr.toNat / 4 * 4)
def execMgtSetPointer (ptr : BitVec 40) (pecOk : Bool) (s : State) : Host.Outcome State Fault Refusal := .next (doMgtSetPointer ptr pecOk s)

/-- Command 0x20 makes a mode request, as a write of AO_MODE_REQ. -/
def doMgtModeRequest (code : BitVec 8) (pecOk : Bool) (s : State) : State :=
  let v : Word := BitVec.ofNat 32 (code.toNat % 8 + 2 ^ 31)
  mgtWrite s pecOk fun s => regAccess s mgtAccess AO_MODE_REQ v (modeReqWrite v)
def execMgtModeRequest (code : BitVec 8) (pecOk : Bool) (s : State) : Host.Outcome State Fault Refusal := .next (doMgtModeRequest code pecOk s)

/-- AO_MODE (Table 16.11). -/
def aoMode (s : State) : Word := BitVec.ofNat 32 (s.ctl.mode.code + s.ctl.prev.code * 8 + s.ctl.cause * 256)

/-- Command 0x21 returns the low byte of AO_MODE. -/
def doMgtReadMode (s : State) : State := if mgtOn s then s.emit (.mgtData (mgtReply s 0x21 [] [BitVec.ofNat 8 (aoMode s).toNat])) else s
def execMgtReadMode (s : State) : Host.Outcome State Fault Refusal := .next (doMgtReadMode s)

/-- A write of an inbound mailbox word: at P3 alone (R432, Table 16.12). -/
def mboxIn (i : Nat) (a : Access) (v : Word) (s : State) : State :=
  if a.level != .p3 then s
  else
    let s := s.setReg (MGT_MBOX_IN i) v
    if i = 7 then evcPulse (s.wrapInc MGT_MBOX_SEQ 0 16) 54 else s

def doMboxIn7Write (a : Access) (v : Word) (s : State) : State := regAccess s a (MGT_MBOX_IN 7) v (mboxIn 7 a v)
def execMboxIn7Write (a : Access) (v : BitVec 32) (s : State) : Host.Outcome State Fault Refusal := .next (doMboxIn7Write a v s)

/-- A write of an outbound mailbox word (R432). -/
def mboxOut (i : Nat) (v : Word) (s : State) : State :=
  let s := s.setReg (MGT_MBOX_OUT i) v
  if i = 7 then s.wrapInc MGT_MBOX_SEQ 16 16 else s

def doMboxOut7Write (a : Access) (v : Word) (s : State) : State := regAccess s a (MGT_MBOX_OUT 7) v (mboxOut 7 v)
def execMboxOut7Write (a : Access) (v : BitVec 32) (s : State) : Host.Outcome State Fault Refusal := .next (doMboxOut7Write a v s)

end Sys2Proof.Machine
end

