-- ==== Sys2Proof/Machine/Rings.lean ====
section
/-!
DEFINITION. Host ports, partitions and their rings (chapter 10): the links of HP0-HP3, PART commands, the manager, start
and stop of a partition, completions with phase and backlog, the status mirror page.
-/

namespace Sys2Proof.Machine

/-! ### Ports -/

/-- The PCIe link of a port trains (R268): its speed code and its lanes, which enter P0 with the taps of the link's own
procedure (R463, R468, R469). -/
def doHostLinkUp (p : Fin 4) (speed width : BitVec 3) (s : State) : State :=
  if s.ctl.core && decide (1 ≤ speed.toNat) && decide (speed.toNat ≤ 5) && ([1, 2, 4] : List Nat).contains width.toNat
      && (List.range width.toNat).all (fun l => !laneDeaf s p.val l) then
    let s := s.setFld (HIF_HP_STATUS p.val) 0 7 (1 + speed.toNat * 2 + width.toNat * 16)
    s.each width.toNat fun s l => (s.settleTaps p.val l).setFld (QD_LANE_STATE p.val l) 4 3 0
  else s

def execHostLinkUp (p : Fin 4) (speed width : BitVec 3) (s : State) : Host.Outcome State Fault Refusal := .next (doHostLinkUp p speed width s)

/-- The link of a host port is down (R269). -/
def hostDown (s : State) (p : Nat) : State :=
  if s.ctl.core && linkUp s p then
    let s := (s.setReg (HIF_HP_STATUS p) 0).inc (HIF_HP_DOWN p)
    let s := s.each 16 fun s i =>
      if (s.part i).state = .active && (s.part i).port = p then faultPart s i 8 else s
    raise s evHostLinkDown 1 34 31 []
  else s

/-- A link-down, hot reset or function-level reset of a port (R269). -/
def doHostLinkDown (p : Fin 4) (s : State) : State := hostDown s p.val

def execHostLinkDown (p : Fin 4) (s : State) : Host.Outcome State Fault Refusal := .next (doHostLinkDown p s)

/-! ### Start and stop -/

/-- A partition in STOPPING whose last completion is written and waits at no gate, its backlog empty, is BOUND (Table 10.1, R284). -/
def stopSettle (s : State) (p : Nat) : State :=
  let q := s.part p
  if q.state = .stopping && q.backlog.isEmpty && !(s.jobs.any fun j => j.req.part.val == p) && !(s.cpls.any fun c => c.part == p)
      && !(s.heldAcc.any fun h => h.after == .cpl p) then
    s.setPart p { q with state := .bound }
  else s

/-- An ACTIVE or FAULTED partition enters STOPPING; what it fetched and did not accept is dropped (R270). -/
def partStop (s : State) (p : Nat) : State :=
  let q := s.part p
  if q.state = .active || q.state = .faulted then stopSettle (s.setPart p { q with state := .stopping, fetched := [] }) p else s

/-- The rings of a partition that are enabled: number and base. -/
def cmdRings (s : State) (p : Nat) : List (Nat × Nat) :=
  ((List.range 8).filter fun r => s.bit (PRT_SW_CR_CFG p r) 8).map fun r => (r, s.pair (PRT_SW_CR_LO p r) (PRT_SW_CR_HI p r))
def cplBase (s : State) (p c : Nat) : Nat := s.pair (PRT_SW_CP_LO p c) (PRT_SW_CP_HI p c)
def doorbell (s : State) (p : Nat) : Nat := s.pair (PRT_SW_DB_LO p) (PRT_SW_DB_HI p)
def mirrorOn (s : State) (p : Nat) : Bool := s.bit (PRT_SW_MIRROR p) 8
def mirrorBase (s : State) (p : Nat) : Nat := s.pair (PRT_SW_MIR_LO p) (PRT_SW_MIR_HI p)
def plogOn (s : State) (p : Nat) : Bool := s.bit (ERR_P_PLOG_CFG p) 8
def plogBase (s : State) (p : Nat) : Nat := s.pair (ERR_P_PLOG_LO p) (ERR_P_PLOG_HI p)

/-- The cause code of the first failing check of a start, 0 where it is accepted (R275, R285, R492, Table 10.7). -/
def startCause (s : State) (p : Nat) : Nat :=
  let bad := fun (a : Nat) => a % 0x1000 != 0
  if doorbell s p = 0 then 1
  else if (cringsOn s p).isEmpty then 2
  else if (cmdRings s p).isEmpty then 3
  else if bad (doorbell s p) || (cmdRings s p).any (fun x => bad x.2) || (cringsOn s p).any (fun c => bad (cplBase s p c))
      || (mirrorOn s p && bad (mirrorBase s p)) || (plogOn s p && bad (plogBase s p)) then 4
  else if mirrorOn s p && mirrorBase s p == 0 then 5
  else 0

/-- An accepted start (R275, R482): every index, count and expected phase begins anew. -/
def partStart (s : State) (p : Nat) : State :=
  let q := s.part p
  (s.setReg (ERR_P_PROD p) 0).setPart p { q with
    state := .active, cause := 0, starts := q.starts + 1
    rings := [], krings := [], backlog := [], fetched := [], mirSeq := 0, logCons := 0, logFull := false }

/-- A write of PRT_SW_RUN (R275, Table 10.7): stop acts in every state, start only in BOUND; any other write in ACTIVE,
STOPPING or FAULTED is recorded as ACCESS_STATE. -/
def swRun (p : Nat) (a : Access) (v : Word) (s : State) : State :=
  let q := s.part p
  if bitOf v.toNat 1 then partStop s p
  else match q.state with
    | .free => s
    | .bound =>
      if !bitOf v.toNat 0 then s
      else
        let c := startCause s p
        if c = 0 then partStart s p else s.setPart p { q with cause := c }
    | _ => accessEv s evAccessState a (PRT_SW_RUN p)

/-- PRT_SW_RUN written with start (R275). -/
def doPrtSwStart (a : Access) (p : Fin 16) (v : Word) (s : State) : State := regAccess s a (PRT_SW_RUN p.val) v (swRun p.val a v)
def execPrtSwStart (a : Access) (p : Fin 16) (v : BitVec 32) (s : State) : Host.Outcome State Fault Refusal := .next (doPrtSwStart a p v s)

/-- PRT_SW_RUN written with stop (R270). -/
def doPrtSwStop (a : Access) (p : Fin 16) (v : Word) (s : State) : State := regAccess s a (PRT_SW_RUN p.val) v (swRun p.val a v)
def execPrtSwStop (a : Access) (p : Fin 16) (v : BitVec 32) (s : State) : Host.Outcome State Fault Refusal := .next (doPrtSwStop a p v s)

/-- Levels P2, P3 and DEBUG. -/
def Level.upper : Level → Bool
  | .p2 | .p3 | .debug => true
  | _ => false

/-- A write of PRT_MGR (R271, R294): at P2, P3 or DEBUG. A part of 16-30 names no partition, a port of 5-7 no port. -/
def mgrWrite (a : Access) (v : Word) (s : State) : State :=
  if !Level.upper a.level then refuseWrite s 35 a PRT_MGR
  else
    let p := bitsOf v.toNat 0 5
    let port := bitsOf v.toNat 8 3
    if 16 ≤ p ∧ p ≠ 31 then s
    else if p < 16 && (s.part p).state = .free then
      (if 4 < port then accessEv s evAccessRange a PRT_MGR
       else plainWrite (s.setPart p { s.part p with state := .bound, port := port }) PRT_MGR v)
    else plainWrite s PRT_MGR v

def doPrtMgrWrite (a : Access) (v : Word) (s : State) : State := regAccess s a PRT_MGR v (mgrWrite a v)
def execPrtMgrWrite (a : Access) (v : BitVec 32) (s : State) : Host.Outcome State Fault Refusal := .next (doPrtMgrWrite a v s)

/-! ### PART commands -/

/-- The manager partition (R271). -/
def isManager (s : State) (q : Req) : Bool := s.fld PRT_MGR 0 5 == q.part.val

/-- A PART command of the manager that names a partition 0-15 (R271, Table 10.2). -/
def partCmd (q : Req) (s : State) (run : State → Nat → State × Nat × BitVec 128) : State × Nat × BitVec 128 :=
  match firstFail [(!isManager s q, stNotManager), (decide (15 < q.u8 16), stBadRange)] with
  | some st => (s, st, 0)
  | none => run s (q.u8 16)

/-- A change of a binding, grant or quota counts in PRT_Pp_GEN (R274). -/
def partChange (s : State) (p : Nat) (q : Part) : State × Nat × BitVec 128 := (s.setPart p { q with gen := q.gen + 1 }, stComplete, 0)

/-- PART_CREATE (R271, R274, Table 10.2). -/
def partCreate (q : Req) (s : State) : State × Nat × BitVec 128 :=
  partCmd q s fun s p =>
    let x := s.part p
    match firstFail [(decide (4 < q.u8 17), stBadRange), (x.state != .free, stPartExists)] with
    | some st => (s, st, 0)
    | none =>
      let s := if q.bit 18 0 && decide (q.u8 17 < 4) then s.setFld (HIF_HP_PRIM (q.u8 17)) 0 5 p else s
      partChange s p { x with state := .bound, port := q.u8 17 }

def doPartCreate (q : Req) (s : State) : State :=
  soileNow s q 0x0101 (bodyMask [(16, 0, 8), (17, 0, 8), (18, 0, 1)]) true (partCreate q)
def execPartCreate (q : Req) (s : State) : Host.Outcome State Fault Refusal := .next (doPartCreate q s)

/-- How many resources of a grant kind the spec names (Table 10.2). -/
def kindCount (k : Nat) : Nat := ([16, 4096, 256, 256, 1024, 64, 32, 8, 2] : List Nat).getD k 0

/-- The range a partition holds of kinds 1-7. -/
def rangeOf (x : Part) : Nat → Range
  | 1 => x.surf | 2 => x.layer | 3 => x.ctx | 4 => x.flow | 5 => x.follow | 6 => x.sess | 7 => x.egr
  | _ => {}

/-- Whether a partition is granted resource `n` of kind `k` (R272). -/
def granted (x : Part) (k n : Nat) : Bool :=
  if k = 0 then bitOf x.heads.toNat n else if k = 8 then bitOf x.touch.toNat n else (rangeOf x k).has n

/-- A partition with a grant replaced: a mask or a base and count. -/
def withGrant (x : Part) (k base count : Nat) : Part :=
  let r : Range := if count = 0 then {} else ⟨base, count⟩
  match k with
  | 0 => { x with heads := BitVec.ofNat 16 base }
  | 1 => { x with surf := r }
  | 2 => { x with layer := r }
  | 3 => { x with ctx := r }
  | 4 => { x with flow := r }
  | 5 => { x with follow := r }
  | 6 => { x with sess := r }
  | 7 => { x with egr := r }
  | _ => { x with touch := BitVec.ofNat 2 base }

/-- Whether resource `n` of kind `k` is in use (R273). -/
def inUse (s : State) (k n : Nat) : Bool :=
  match k with
  | 0 => (s.head n).enabled || s.layers.any fun x => x.2.created && x.2.head == n
  | 1 => (s.surf n).created
  | 2 => (s.layer n).created
  | 3 => (s.ctx n).state != .closed
  | 4 => (s.flow n).state != .free
  | 5 => (s.follow n).bound
  | 6 => (s.enc n).opened
  | 7 => (s.egr n).enabled
  | _ => (s.tch n).cfg.enable

/-- Whether a grant takes away a resource in use (R273). -/
def takesUsed (s : State) (k : Nat) (old new : Part) : Bool :=
  (List.range (kindCount k)).any fun n => granted old k n && !granted new k n && inUse s k n

/-- PART_GRANT (R272, R273). -/
def partGrant (q : Req) (s : State) : State × Nat × BitVec 128 :=
  partCmd q s fun s p =>
    let x := s.part p
    let k := q.u8 17
    let mask : Bool := k == 0 || k == 8
    let new := withGrant x k (q.u16 20) (q.u16 22)
    let all := List.range (kindCount k)
    match firstFail [
        (decide (8 < k) || x.state == .free
          || (if mask then decide (2 ^ kindCount k ≤ q.u16 20) else q.u16 22 != 0 && decide (kindCount k < q.u16 20 + q.u16 22)), stBadRange),
        ((List.range 16).any (fun o => o != p && all.any fun n => granted new k n && granted (s.part o) k n), stGrantConflict),
        (mask && all.any (fun n => granted new k n && s.absent ((if k = 0 then 16 else 32) + n)), stNoResource),
        (k == 0 && (List.range 8).any (fun i => granted new 0 (2 * i) && (s.head (2 * i)).gang && !granted new 0 (2 * i + 1)), stBadRange),
        (takesUsed s k x new, stInUse)] with
    | some st => (s, st, 0)
    | none => partChange s p new

/-- The defined bits of PART_GRANT: a mask grant has no count (Table 10.2). -/
def maskPartGrant (q : Req) : Nat :=
  if q.u8 17 = 0 ∨ q.u8 17 = 8 then bodyMask [(16, 0, 16), (20, 0, 16)] else bodyMask [(16, 0, 16), (20, 0, 32)]

def doPartGrant (q : Req) (s : State) : State := soileNow s q 0x0102 (maskPartGrant q) true (partGrant q)
def execPartGrant (q : Req) (s : State) : Host.Outcome State Fault Refusal := .next (doPartGrant q s)

/-- PART_QUOTA (R274). -/
def partQuota (q : Req) (s : State) : State × Nat × BitVec 128 :=
  partCmd q s fun s p =>
    let x := s.part p
    if x.state = .free || decide (262144 < q.u32 20) then (s, stBadRange, 0)
    else partChange s p { x with qLdg := q.u32 20, qDec := q.u32 24, qIpp := q.u32 28, qEnc := q.u32 32 }

def doPartQuota (q : Req) (s : State) : State :=
  soileNow s q 0x0103 (bodyMask [(16, 0, 8), (20, 0, 128)]) true (partQuota q)
def execPartQuota (q : Req) (s : State) : Host.Outcome State Fault Refusal := .next (doPartQuota q s)

/-- PART_STOP (R270, R274): it completes before its own partition enters STOPPING. -/
def doPartStop (q : Req) (s : State) : State :=
  soile s q 0x0104 (bodyMask [(16, 0, 8)]) true fun s id =>
    guardJob s id [(!isManager s q, stNotManager), (decide (15 < q.u8 16), stBadRange)] fun s =>
      partStop (finish s id stComplete) (q.u8 16)
def execPartStop (q : Req) (s : State) : Host.Outcome State Fault Refusal := .next (doPartStop q s)

/-- PART_DESTROY (R273): every grant and quota is freed. -/
def partDestroy (q : Req) (s : State) : State × Nat × BitVec 128 :=
  partCmd q s fun s p =>
    let x := s.part p
    let bare : Part := { gen := x.gen, starts := x.starts, rings := x.rings, krings := x.krings, mirSeq := x.mirSeq }
    match firstFail [((List.range 9).any (fun k => takesUsed s k x bare), stInUse), (x.state != .bound, stPartActive)] with
    | some st => (s, st, 0)
    | none => partChange s p bare

def doPartDestroy (q : Req) (s : State) : State := soileNow s q 0x0105 (bodyMask [(16, 0, 8)]) true (partDestroy q)
def execPartDestroy (q : Req) (s : State) : Host.Outcome State Fault Refusal := .next (doPartDestroy q s)

/-! ### Completions -/

/-- The three pieces of completion number `n` of a ring of 2^k entries, in the order they are written (R282, R283). -/
def cplPieces (c : Cpl) (n k : Nat) : List (Nat × Bytes) :=
  let low := leBytes 4 c.tag.toNat ++ leBytes 2 c.opcode.toNat ++ [BitVec.ofNat 8 c.ring, 0] ++ leBytes 4 c.index.toNat
  [(16, leBytes 16 c.body.toNat), (0, low), (12, leBytes 2 c.status.toNat ++ [0, if n / 2 ^ k % 2 = 0 then 0x80 else 0])]

/-- The size of a completion ring as a power of two. -/
def cplLog (s : State) (p c : Nat) : Nat := s.fld (PRT_SW_CP_CFG p c) 0 4

/-- Whether a completion ring has room (R284). -/
def cplRoom (s : State) (p c : Nat) : Bool :=
  let r := kring (s.part p) c
  decide ((r.written - r.cons).toNat < 2 ^ cplLog s p c)

/-- Whether a partition's writes toward its host are lost because the link is down (R269). -/
def hostGone (s : State) (p : Nat) : Bool := onPcie s p && !linkUp s (s.part p).port

/-- Writes one completion: dropped while the link is down, otherwise made; a refused one moves the partition to
FAULTED with cause GATE (R269, R283, R517). On HP4 the partition's completion source is raised once the completion is in
memory; where a gate holds it, when it is released (`afterWrite`). -/
def writeCpl (s : State) (c : Cpl) : State :=
  let p := c.part
  let n := (kring (s.part p) c.cring).written
  let k := cplLog s p c.cring
  let x := partWrite (raiseN 3) s true p 34 (cplBase s p c.cring + 32 * (n.toNat % 2 ^ k)) (cplPieces c n.toNat k) true
  if hostGone s p then x.1
  else
    let s := x.1.setPart p (setKring (x.1.part p) c.cring { kring (x.1.part p) c.cring with written := n + 1 })
    match x.2 with
    | .ok => if onPcie s p then s else evcPulse s (25 + p)
    | .held => s
    | _ => faultPart s p 7

/-- Whether a completion can leave the engine now: written, dropped or put in the backlog. -/
def cplMoves (s : State) (c : Cpl) : Bool :=
  let q := s.part c.part
  !q.state.logs || hostGone s c.part || decide (q.backlog.length < 64)

/-- One completion: into its ring when the backlog is empty and the ring has room, else into the backlog of 64 (R284). -/
def placeCpl (s : State) (c : Cpl) : State :=
  let q := s.part c.part
  if !q.state.logs then s
  else if hostGone s c.part || (q.backlog.isEmpty && cplRoom s c.part c.cring) then writeCpl s c
  else s.setPart c.part { q with backlog := q.backlog ++ [c] }

/-- Removes the first item a test accepts. -/
def takeFirst {α : Type} (f : α → Bool) : List α → Option (α × List α)
  | [] => none
  | x :: xs => if f x then some (x, xs) else (takeFirst f xs).map fun r => (r.1, x :: r.2)

/-- The next completion whose partition can take it is placed (R283, R284); what waited for it goes on. -/
def doJobCompletion (s : State) : State :=
  if !s.ctl.core then s
  else match takeFirst (cplMoves s) s.cpls with
    | none => s
    | some (c, rest) => stopSettle (fireSignals (placeCpl { s with cpls := rest } c)) c.part

def execJobCompletion (s : State) : Host.Outcome State Fault Refusal := .next (doJobCompletion s)

/-- The oldest completion of a partition's backlog is written once its ring has room (R284). -/
def doBacklogWrite (p : Fin 16) (s : State) : State :=
  let q := s.part p.val
  if !s.ctl.core then s
  else match q.backlog with
    | [] => s
    | c :: rest =>
      if !q.state.logs then s.setPart p.val { q with backlog := rest }
      else if hostGone s p.val || cplRoom s p.val c.cring then
        stopSettle (writeCpl (s.setPart p.val { q with backlog := rest }) { c with part := p.val }) p.val
      else s

def execBacklogWrite (p : Fin 16) (s : State) : Host.Outcome State Fault Refusal := .next (doBacklogWrite p s)

/-! ### The status mirror page -/

/-- The codes of partition, transmitter and flow states (Tables 10.1 and 8.4, R94). -/
def PartState.code : PartState → Nat
  | .free => 0 | .bound => 1 | .active => 2 | .stopping => 3 | .faulted => 4
def TxState.code : TxState → Nat
  | .dark => 0 | .training => 1 | .linkIdle => 2 | .video => 3
def FlowState.code : FlowState → Nat
  | .free => 0 | .stopped => 1 | .running => 2

/-- The rings of a partition that stopped (R279). -/
def ringFaults (q : Part) : Nat := (List.range 8).foldl (fun n r => n + Bool.nat (cring q r).fault * 2 ^ r) 0

/-- The ms since a flow's last sender report, saturating (R115 FLW_SEL_MAP). -/
def srAge (s : State) (x : Flow) : Nat := if x.srAt = 0 then 0 else capAt 32767 ((s.now - x.srAt) / 1000000)

/-- The entry of head `n` (Table 10.10): the odd slot of a gang mirrors slot 2i but in its transmitter and its verification (R217). -/
def mirHead (s : State) (p n : Nat) : Bytes :=
  if !ownsHead s p n then leBytes 32 0
  else
    let m := if gangMember s n then n - 1 else n
    let h := s.head m
    leBytes 8 h.frame.toNat ++ leBytes 4 (s.reg (HD_FLIP_MISSED m)).toNat ++ leBytes 4 (s.reg (HD_FENCE_LATE m)).toNat
      ++ leBytes 4 (s.reg (HD_WB_SKIP m)).toNat
      ++ [BitVec.ofNat 8 (s.head n).tx.code, BitVec.ofNat 8 (s.fld (TG_STATUS h.tg) 0 3), BitVec.ofNat 8 (s.fld (VFY_HEAD_STATE n) 0 2),
          BitVec.ofNat 8 (s.fld (VFY_HEAD_STATE n) 2 4), BitVec.ofNat 8 (1 + Bool.nat h.enabled * 2)]
      ++ leBytes 7 0

/-- The evaluations of layer `l` in the last frame of its head that ended. -/
def lastEvals (s : State) (l : Nat) (x : Layer) : List Eval :=
  ((s.head x.head).prev.flatMap (·.evals)).filter fun e => e.layer == l

/-- The largest age of a list of evaluations, saturating (Table 10.11). -/
def maxAge (es : List Eval) : Nat :=
  (es.filterMap (·.age)).foldl (fun n a =>
    let v := capAt 0xFFFFFFFE a.toNat
    if n = 0xFFFFFFFF then v else Nat.max n v) 0xFFFFFFFF

/-- The entry of layer `l` (Table 10.11). -/
def mirLayer (s : State) (p l : Nat) : Bytes :=
  if !ownsLayer s p l then leBytes 32 0
  else
    let x := s.layer l
    let valid : Bool := x.created && x.cur.live && x.cur.visible && (s.head x.head).enabled
    let es := if valid then lastEvals s l x else []
    let flags := Bool.nat x.created + Bool.nat x.cur.live * 2 + Bool.nat x.cur.visible * 4 + Bool.nat (!x.pend.isEmpty) * 8
      + Bool.nat (x.pend.any (·.armed)) * 16 + Bool.nat valid * 32
    leBytes 2 l ++ [BitVec.ofNat 8 x.head, BitVec.ofNat 8 flags] ++ leBytes 4 ((s.head x.head).frame - 1).toNat
      ++ (List.range 6).flatMap (fun v => leBytes 2 (capAt 65535 (es.filter fun e => e.verdict.code == v).length))
      ++ leBytes 4 (maxAge es) ++ leBytes 2 (x.buf.getD 0xFFF) ++ leBytes 2 x.missed.toNat ++ leBytes 4 x.commits.toNat

/-- The entry of flow `f` (Table 10.12); a merged pair has one sequence state and one mapping (R100). -/
def mirFlow (s : State) (p f : Nat) : Bytes :=
  if !ownsFlow s p f then leBytes 16 0
  else
    let x := s.flow f
    let y := s.flow (primary s f)
    leBytes 4 x.nAus.toNat ++ leBytes 4 x.nLost.toNat ++ leBytes 4 x.nAuLoss.toNat
      ++ [BitVec.ofNat 8 (x.state.code + Bool.nat y.synced * 4 + Bool.nat y.mapValid * 8 + 16), 0] ++ leBytes 2 (srAge s y)

/-- The bytes 0x0004-0x7FF7 of the mirror page (Table 10.9). -/
def mirrorBody (s : State) (p : Nat) : Bytes :=
  let q := s.part p
  let n := s.fld (PRT_SW_MIRROR p) 0 4
  let h := s.head n
  [BitVec.ofNat 8 p, BitVec.ofNat 8 s.ctl.mode.code, BitVec.ofNat 8 n, BitVec.ofNat 8 (Bool.nat h.enabled)]
    ++ leBytes 8 (if h.enabled then h.boundary else s.now) ++ leBytes 8 h.frame.toNat ++ leBytes 4 s.margin
    ++ leBytes 2 q.gen.toNat ++ leBytes 2 (s.fld VRD_COMMIT_STATUS 16 16) ++ leBytes 2 (s.fld TB_ADJ_STATUS 16 16) ++ leBytes 2 0
    ++ leBytes 4 (s.reg (ERR_P_PROD p)).toNat ++ leBytes 24 0
    ++ (List.range 8).flatMap (fun r => leBytes 8 (cring q r).fetch.toNat)
    ++ (List.range 8).flatMap (fun c => leBytes 4 (kring q c).written.toNat)
    ++ [BitVec.ofNat 8 q.state.code, BitVec.ofNat 8 (ringFaults q), BitVec.ofNat 8 q.backlog.length] ++ leBytes 93 0
    ++ (List.range 16).flatMap (mirHead s p) ++ leBytes 256 0
    ++ (List.range 256).flatMap (mirLayer s p)
    ++ (List.range 1024).flatMap (mirFlow s p) ++ leBytes 7160 0

/-- The status mirror page of an ACTIVE partition is written (R292, R517). -/
def doMirrorWrite (p : Fin 16) (s : State) : State :=
  let q := s.part p.val
  if s.ctl.core && q.state = .active && mirrorOn s p.val then
    let n := q.mirSeq + 1
    let x := partWrite (raiseN 3) s true p.val 34 (mirrorBase s p.val)
      [(0x7FF8, leBytes 4 0), (4, mirrorBody s p.val), (0, leBytes 4 n.toNat), (0x7FF8, leBytes 4 n.toNat)]
    if x.2 = .ok || x.2 = .held then x.1.setPart p.val { x.1.part p.val with mirSeq := n }
    else if hostGone s p.val then x.1 else faultPart x.1 p.val 7
  else s

def execMirrorWrite (p : Fin 16) (s : State) : Host.Outcome State Fault Refusal := .next (doMirrorWrite p s)

end Sys2Proof.Machine
end

