-- ==== Sys2Proof/Machine/Redundancy.lean ====
section
/-!
DEFINITION. Redundancy control (chapter 14): when checkpoints are taken and applied, the vault's way in, takeovers,
SHADOW, planned swaps, the ring requests between RDN blocks and the RDN commands (R376–R400).
-/

namespace Sys2Proof.Machine

/-! ### Roles and requests -/

/-- RDN_ROLE (Table 14.8): role 1 ACTIVE, 2 STANDBY; the partner's address; the handover timing group. -/
def rdnRole (s : State) : Nat := s.fld RDN_ROLE 0 2
def rdnPartner (s : State) : Nat := s.fld RDN_ROLE 4 3
def swapTg (s : State) : Nat := s.fld RDN_ROLE 8 3

/-- Decides the RDN_STATUS record of an operation (R291, R399). -/
def rdnDecided (s : State) (op res : Nat) : State :=
  { s with rdn := { s.rdn with asked := none } }.resultDone RDN_STATUS (op + res * 8)

/-- The completion status of a result code of a ring request (Table 14.7). -/
def rdnStatus (res : Nat) : Nat := if res = 0 then stComplete else if res = 8 then stPartnerAlive else if res = 10 then stNotPaired else stPartnerState

/-- Sends a request or reply to the RDN block of another unit (R395). -/
def sendRdn (s : State) (a op res : Nat) (gen : BitVec 32) (b : Nat) : State :=
  sendTo s a 7 (hput 8 1 31 + hput 9 1 31 + hput 10 2 16) ([BitVec.ofNat 8 op, BitVec.ofNat 8 res, 0, 0] ++ leBytes 4 gen.toNat ++ leBytes 8 b)

/-- Whether a message is the RDN operation `op` from the address `origin` (R395). -/
def isRdn (s : State) (origin : Nat) (m : Msg) (op : Nat) : Bool :=
  s.ctl.ring && m.kind == 7 && m.h8 8 == 31 && m.origin.toNat == origin && m.body.getD 0 0 == BitVec.ofNat 8 op

/-- Its result, generation and boundary (R395). -/
def rdnRes (m : Msg) : Nat := (m.body.getD 1 0).toNat
def rdnGen (m : Msg) : BitVec 32 := BitVec.ofNat 32 (leNat (sliceB m.body 4 4))
def rdnB (m : Msg) : Nat := leNat (sliceB m.body 8 8)

/-- Whether CHN_MAP shows a holder of the unit's logical ID that was heard of late (R388). -/
def holderAlive (s : State) : Bool :=
  let id := s.logicalId
  let a := s.fld CHN_MAP (4 * id) 3
  s.bit CHN_MAP (4 * id + 3) && a != s.physAddr && isFresh s (s.peer a)

/-- The result code of a request for takeover (1), SHADOW (2) or KEEP (3) at this unit (R388, R390, Table 14.7). -/
def requestCode (s : State) (op : Nat) : Nat :=
  let m := s.ctl.mode
  let ok : Bool := if op = 1 then m = .keep || m = .shadow else if op = 2 then m = .keep else m = .shadow
  if rdnRole s ≠ 2 then 10
  else if !ok || s.ctl.target.isSome then 9
  else if op = 1 && holderAlive s then 8
  else 0

/-- The unit takes its logical ID and the role ACTIVE (R389), and records TAKEOVER with its trigger and generation. -/
def takeHolder (s : State) : State :=
  let s := (s.setBit CHN_LOGICAL 3 true).setFld RDN_ROLE 0 2 1
  let s := mapUpdate ((s.add RDN_COUNT 0 16 1))
  { s with rdn := { s.rdn with swapAt := s.island, dueSaid := false, took := false, trigger := 0 } }

/-- The end of a takeover: RUN with the holder set (R389). -/
def takeoverRun (s : State) : State :=
  let s := setMode (takeHolder s) .run 2
  let s := raise s evTakeover 0 40 31 [(Config.takeoverTrigger s.rdn.why, 8), (s.rdn.gen.toNat, 32)]
  if s.rdn.asked.isSome then rdnDecided s 1 0 else s

/-- Begins a takeover (R389): from SHADOW at once, from KEEP by the PRIME sequence and a restore. -/
def beginTakeover (s : State) (why : Nat) : State :=
  let s := { s with rdn := { s.rdn with why := why, swap := {}, deferred := false } }
  if s.ctl.mode = .shadow then takeoverRun s else beginPrime s 2 2 false

/-- An accepted request at this unit: its result record opens, and is decided when what it asks for has come about. -/
def beginRequest (s : State) (op why : Nat) : State :=
  let s := { s with rdn := { s.rdn with asked := some op } }.resultOpen RDN_STATUS
  if op = 1 then beginTakeover s why
  else if op = 2 then beginPrime s 6 6 false
  else enterKeep (rdnDecided s 3 0) 6

/-- A request made at this unit (R388, R390, R399). -/
def localRequest (s : State) (op why : Nat) : State :=
  let r := requestCode s op
  if r = 0 then beginRequest s op why else rdnDecided s op r

/-! ### Checkpoints -/

/-- Asks for a checkpoint (R378). -/
def ckptDue (s : State) : State := { s with rdn := { s.rdn with due := true } }

/-- Whether the unit takes checkpoints (R378), and whether an event for one has come. -/
def ckptOn (s : State) : Bool := rdnRole s == 1 && (s.bit RDN_ROLE 3 || s.rdn.swap.job.isSome)
def ckptEvent (s : State) : Bool :=
  s.rdn.due || match s.rdn.taken with
    | none => true
    | some t => decide (t + 1000000 * s.fld RDN_CKPT_PERIOD 0 16 ≤ s.island)

/-- A checkpoint is captured (R378, R379, R382): the next generation, its image waiting for a DCE. Never less than 100 ms
after the previous one. -/
def doCheckpoint (s : State) : State :=
  let early : Bool := match s.rdn.taken with | some t => decide (s.island < t + 100000000) | none => false
  if !s.ctl.core || !s.ctl.mode.soile || !ckptOn s || !ckptEvent s || early || s.rdn.image.isSome then s
  else
    let gen := s.rdn.gen + 1
    { s with
      ckptWait := true
      rdn := { s.rdn with gen := gen, taken := some s.island, due := false, image := some (gen, s.now, imageOf (captureState s))
                          ckptJobs := s.rdn.jobs, jobs := [] } }
def execCheckpoint (s : State) : Host.Outcome State Fault Refusal := .next (doCheckpoint s)

/-! ### The vault -/

/-- The vault is zeroed; until VAULT_ZEROED, CKPT messages are refused (R380, R400). -/
def zeroVault (s : State) : State :=
  { s with mem := s.mem.filter fun x => !inVault x.1, rdn := { s.rdn with zeroing := true } }

/-- A write of CHN_VAULT (R380): acceptance turned on, or its origin changed, zeroes the vault. -/
def chnVault (v : Word) (s : State) : State :=
  let was := s.reg CHN_VAULT
  let s := plainWrite s CHN_VAULT v
  let new := s.reg CHN_VAULT
  if bitOf new.toNat 0 && (!bitOf was.toNat 0 || new != was) then zeroVault s else s

def doChnVaultWrite (a : Access) (v : Word) (s : State) : State := regAccess s a CHN_VAULT v (chnVault v)
def execChnVaultWrite (a : Access) (v : BitVec 32) (s : State) : Host.Outcome State Fault Refusal := .next (doChnVaultWrite a v s)

/-- A write of HWK_CLEAR (R400). -/
def hwkClear (a : Access) (v : Word) (s : State) : State :=
  if !bitOf v.toNat 0 then s
  else if s.bit CHN_VAULT 0 then accessEv s evAccessState a HWK_CLEAR
  else zeroVault s

def doHwkClear (a : Access) (v : Word) (s : State) : State := regAccess s a HWK_CLEAR v (hwkClear a v)
def execHwkClear (a : Access) (v : BitVec 32) (s : State) : Host.Outcome State Fault Refusal := .next (doHwkClear a v s)

/-- The zeroing of the vault ends (R380). -/
def doVaultZeroed (s : State) : State := if s.ctl.ring then { s with rdn := { s.rdn with zeroing := false } } else s
def execVaultZeroed (s : State) : Host.Outcome State Fault Refusal := .next (doVaultZeroed s)

/-- What CHN carries when it writes the vault (Table 1.5, Table 11.1). -/
def chnVaultAccess : Access := ⟨0x67, 31, .p3⟩

/-- A CKPT message arrives (R371, R380): written at its offset, or refused. -/
def doCkptRx (p : Fin 2) (m : Msg) (s : State) : State :=
  let x := deliver s p.val m
  let s := x.1
  if !x.2 || m.kind != 10 then s
  else
    let o := m.origin.toNat
    let off := m.hN 8 4
    let len := m.hN 12 4
    if s.bit CHN_VAULT 0 && !s.rdn.zeroing && s.fld CHN_VAULT 1 3 == o && decide (off + len ≤ 0x800000) then
      (queueWrite (raiseN 3) s chnVaultAccess (vaultBase + off) (sliceB m.body 0 len)).1
    else raiseKey (s.inc CHN_CKPT_DROP) o evCkptRefused 0 39 31 [(o, 3)]
def execCkptRx (p : Fin 2) (m : Msg) (s : State) : Host.Outcome State Fault Refusal := .next (doCkptRx p m s)

/-! ### YIELD and takeover -/

/-- A YIELD message arrives (R370, R388): EVC source 57, its sender no holder any more, and where it names this standby's
logical ID a takeover, after the transition in progress (R445). -/
def doYieldRx (p : Fin 2) (m : Msg) (s : State) : State :=
  let x := deliver s p.val m
  let s := x.1
  if !x.2 || m.kind != 6 then s
  else
    let o := m.origin.toNat
    let held := bitOf (m.h8 9) 0
    let s := evcPulse s 57
    let s := mapUpdate (s.setPeer o { s.peer o with holder := false, mode := Mode.yield.code })
    if !(held && m.h8 8 == s.logicalId && rdnRole s == 2 && s.bit RDN_ROLE 2) then s
    else if s.ctl.target.isSome then { s with rdn := { s.rdn with deferred := true } }
    else if s.ctl.mode = .keep || s.ctl.mode = .shadow then beginTakeover s 0
    else s
def execYieldRx (p : Fin 2) (m : Msg) (s : State) : Host.Outcome State Fault Refusal := .next (doYieldRx p m s)

/-- Step 7 of the PRIME sequence for a takeover or SHADOW, and what follows it (R383, R389, R390). -/
def restoreEnd (ecc : List Ecc) (s : State) : State :=
  let trig := s.rdn.trigger
  let x := restore s ecc
  let s := { x.1 with rdn := { x.1.rdn with trigger := 0 } }
  if x.2 ≠ 0 then
    let s := raise s evRestoreFail 2 1 31 [(x.2, 8)]
    match s.rdn.asked with
    | some op => rdnDecided s op x.2
    | none => s
  else
    if trig = 2 then takeoverRun s
    else
      let s := setMode s .shadow 6
      if s.rdn.asked.isSome then rdnDecided s 2 0 else s

/-- A takeover that waited for a transition to end begins where it is then allowed, and is given up elsewhere (R388, R445). -/
def takeDeferred (s : State) : State :=
  if !s.rdn.deferred then s
  else
    let s := { s with rdn := { s.rdn with deferred := false } }
    if s.ctl.mode = .keep || s.ctl.mode = .shadow then beginTakeover s 0 else s

/-! ### Local requests (RDN_CMD) -/

/-- A write of RDN_CMD (R399). -/
def rdnCmd (v : Word) (s : State) : State :=
  let s := if bitOf v.toNat 0 then localRequest s 1 1 else s
  let s := if bitOf v.toNat 1 then localRequest s 2 1 else s
  let s := if bitOf v.toNat 3 then (if ckptOn s then rdnDecided (ckptDue s) 4 0 else rdnDecided s 4 10) else s
  if bitOf v.toNat 2 then localRequest s 3 1 else s

def doRdnCmdTakeover (a : Access) (v : Word) (s : State) : State := regAccess s a RDN_CMD v fun s => rdnCmd v s
def execRdnCmdTakeover (a : Access) (v : BitVec 32) (s : State) : Host.Outcome State Fault Refusal := .next (doRdnCmdTakeover a v s)
def doRdnCmdShadow (a : Access) (v : Word) (s : State) : State := regAccess s a RDN_CMD v fun s => rdnCmd v s
def execRdnCmdShadow (a : Access) (v : BitVec 32) (s : State) : Host.Outcome State Fault Refusal := .next (doRdnCmdShadow a v s)
def doRdnCmdKeep (a : Access) (v : Word) (s : State) : State := regAccess s a RDN_CMD v fun s => rdnCmd v s
def execRdnCmdKeep (a : Access) (v : BitVec 32) (s : State) : Host.Outcome State Fault Refusal := .next (doRdnCmdKeep a v s)
def doRdnCmdCkpt (a : Access) (v : Word) (s : State) : State := regAccess s a RDN_CMD v fun s => rdnCmd v s
def execRdnCmdCkpt (a : Access) (v : BitVec 32) (s : State) : Host.Outcome State Fault Refusal := .next (doRdnCmdCkpt a v s)

/-! ### Ring requests 1–3 (R395) -/

/-- A message of operation 1–3: the reply to a request of this unit, or a request from a permitted address, replied to
when it is accepted or refused (log 45). -/
def ringRequest (s : State) (origin : Nat) (m : Msg) (op : Nat) : State :=
  if !isRdn s origin m op then s
  else match s.rdn.waiting.find? fun w => w.2.1 == op && w.2.2 == origin with
    | some w => finish { s with rdn := { s.rdn with waiting := s.rdn.waiting.erase w } } w.1 (rdnStatus (rdnRes m))
    | none =>
      if !s.bit RDN_ROLE (16 + origin) then s
      else
        let r := requestCode s op
        let s := sendRdn s origin op r 0 0
        if r = 0 then beginRequest s op 2 else rdnDecided s op r

def doRingTakeover (origin : Fin 8) (m : Msg) (s : State) : State := ringRequest s origin.val m 1
def execRingTakeover (origin : Fin 8) (m : Msg) (s : State) : Host.Outcome State Fault Refusal := .next (doRingTakeover origin m s)
def doRingShadow (origin : Fin 8) (m : Msg) (s : State) : State := ringRequest s origin.val m 2
def execRingShadow (origin : Fin 8) (m : Msg) (s : State) : Host.Outcome State Fault Refusal := .next (doRingShadow origin m s)
def doRingKeep (origin : Fin 8) (m : Msg) (s : State) : State := ringRequest s origin.val m 3
def execRingKeep (origin : Fin 8) (m : Msg) (s : State) : Host.Outcome State Fault Refusal := .next (doRingKeep origin m s)

/-! ### RDN commands (R398) -/

/-- The result code of Table 14.8 for a request refused with a status (log 158). -/
def rdnCode (st : Nat) : Nat := if st = stPartnerAlive then 8 else if st = stNotPaired then 10 else 9

/-- A request of this unit, once the checks pass in order; one that they refuse to the manager is decided in RDN_STATUS too (R399). -/
def guardRdn (s : State) (id op : Nat) (checks : List (Bool × Nat)) (go : State → State) : State :=
  match firstFail checks with
  | some st => finish (if st = stNotManager then s else s.resultDone RDN_STATUS (op + rdnCode st * 8)) id st
  | none => go s

/-- RDN_CKPT (R378). -/
def doRdnCkpt (q : Req) (s : State) : State :=
  soile s q 0x1101 0 true fun s id =>
    guardRdn s id 4 [(!isManager s q, stNotManager), (!ckptOn s, stNotPaired)] fun s =>
      let s := rdnDecided (ckptDue s) 4 0
      { s with rdn := { s.rdn with jobs := s.rdn.jobs ++ [id] } }
def execRdnCkpt (q : Req) (s : State) : Host.Outcome State Fault Refusal := .next (doRdnCkpt q s)

/-- A request to the standby at an address: made here where that is this unit, else sent over the ring. -/
def remoteRequest (s : State) (id op a : Nat) : State :=
  if a = s.physAddr then
    let r := requestCode s op
    if r = 0 then beginRequest (finish s id stComplete) op 3 else finish (rdnDecided s op r) id (rdnStatus r)
  else
    let r := s.peer a
    if r.heard.isNone then finish s id stNoUnit
    else sendRdn { s with rdn := { s.rdn with waiting := s.rdn.waiting ++ [(id, op, a)] } } a op 0 0 0

/-- The address of the standby of a logical ID, as this unit knows it (R376). -/
def standbyOf (s : State) (id : Nat) : Option Nat :=
  if s.logicalId = id && rdnRole s = 2 then some s.physAddr
  else if s.logicalId = id && rdnRole s = 1 then some (rdnPartner s)
  else (s.chain.peers.find? fun x => x.2.heard.isSome && x.2.logical == id && !x.2.holder).map (·.1)

/-- Whether an address is not that of a standby of the ID: heard of under another ID, or as its holder. -/
def notStandby (s : State) (id a : Nat) : Bool :=
  if a = s.physAddr then s.logicalId != id || rdnRole s != 2
  else (s.peer a).heard.isSome && ((s.peer a).logical != id || (s.peer a).holder)

/-- RDN_SHADOW (R390). -/
def doRdnShadow (q : Req) (s : State) : State :=
  soile s q 0x1102 (bodyMask [(16, 0, 8), (17, 0, 1)]) true fun s id =>
    let l := q.u8 16
    let a := standbyOf s l
    guardJob s id [(!isManager s q, stNotManager), (decide (7 < l), stBadRange), (a.isNone || notStandby s l (a.getD 0), stNotPaired)] fun s =>
      remoteRequest s id (if q.bit 17 0 then 2 else 3) (a.getD 0)
def execRdnShadow (q : Req) (s : State) : Host.Outcome State Fault Refusal := .next (doRdnShadow q s)

/-- RDN_TAKEOVER (R388). -/
def doRdnTakeover (q : Req) (s : State) : State :=
  soile s q 0x1104 (bodyMask [(16, 0, 16)]) true fun s id =>
    guardJob s id [
      (!isManager s q, stNotManager), (decide (7 < q.u8 16) || decide (7 < q.u8 17), stBadRange), (notStandby s (q.u8 16) (q.u8 17), stNotPaired)]
      fun s => remoteRequest s id 1 (q.u8 17)
def execRdnTakeover (q : Req) (s : State) : Host.Outcome State Fault Refusal := .next (doRdnTakeover q s)

/-! ### Planned swaps (R393, R394) -/

/-- The boundary of a swap (R393): the first of swap_tg at least three frame periods ahead and not before `nb`, each compared
with the last boundary by signed difference (R79). -/
def swapB (s : State) (nb : Nat) : Nat :=
  let t := s.tg (swapTg s)
  let p := tgNominal t
  let ahead := fun (x : Nat) => (timeDiff (BitVec.ofNat 64 x) (BitVec.ofNat 64 t.boundary)).toNat
  t.boundary + ceilDiv (Nat.max (ahead (s.now + 3 * p)) (ahead nb)) p * p

/-- Whether a layer has a pending update or a skim set is closed and uncommitted (R393). -/
def swapBusy (s : State) : Bool :=
  s.layers.any (fun x => !x.2.pend.isEmpty)
    || (List.range 16).any fun g => sgOn s g && sgClosed s g != sgDone s g

/-- RDN_SWAP (R393): on acceptance a checkpoint is called for and the handover boundary chosen. -/
def doRdnSwap (q : Req) (s : State) : State :=
  soile s q 0x1103 (bodyMask [(16, 0, 64)]) (s.ctl.mode = .run) fun s id =>
    let r := s.peer (rdnPartner s)
    guardRdn s id 5 [
      (!isManager s q, stNotManager), (rdnRole s != 1, stNotPaired),
      (r.heard.isSome && (r.mode != Mode.shadow.code || r.logical != s.logicalId), stPartnerState), (swapBusy s, stSwapBusy),
      (s.rdn.swap.job.isSome, stSwapPending), (!tgMakes s (swapTg s) || tgNominal (s.tg (swapTg s)) == 0, stSwapRefused),
      (r.heard.isNone, stNoUnit)] fun s =>
      ckptDue { s with rdn := { s.rdn with swap := { job := some id, bNs := swapB s (q.u64 16), gen := s.rdn.gen + 1 } } }
def execRdnSwap (q : Req) (s : State) : Host.Outcome State Fault Refusal := .next (doRdnSwap q s)

/-- The swap ends on the active unit without a handover. -/
def swapEnd (s : State) (st : Nat) : State :=
  match s.rdn.swap.job with
  | none => s
  | some id => finish (rdnDecided { s with rdn := { s.rdn with swap := {} } } 5 9) id st

/-- Whether a boundary time is the handover boundary: within half a nominal frame period. -/
def isSwapB (s : State) (b : Nat) : Bool :=
  let d : Int := timeDiff (BitVec.ofNat 64 b) (BitVec.ofNat 64 s.rdn.swap.bNs)
  decide (2 * d.natAbs < tgNominal (s.tg (swapTg s)))

/-- Whether the boundary that comes next for swap_tg is the handover boundary. -/
def swapNext (s : State) : Bool := s.ctl.core && isSwapB s (nextBoundary s (swapTg s))

/-- What a partner answers to SWAP_PREP (R393): 0 OK, 1 generation not applied, 2 swap_tg not LOCKED, 3 a head without the
trained link that it has on the active unit (the codes 1–3 are the model's, log 46). -/
def prepResult (s : State) (gen : BitVec 32) : Nat :=
  if s.rdn.gen != gen then 1
  else if s.fld (TG_STATUS (swapTg s)) 0 3 ≠ 3 then 2
  else if s.heads.any fun x => (x.2.enabled || !x.2.start.isEmpty) && x.2.rate != 0 && !x.2.trained then 3
  else 0

/-- SWAP_PREP reaches the partner (R393, R395). -/
def doSwapPrep (origin : Fin 8) (m : Msg) (s : State) : State :=
  if !isRdn s origin.val m 4 || origin.val ≠ rdnPartner s || s.ctl.mode != .shadow || rdnRole s ≠ 2 then s
  else
    let r := prepResult s (rdnGen m)
    let s := { s with rdn := { s.rdn with swap := if r = 0 then { asPart := true, bNs := rdnB m, gen := rdnGen m } else {} } }
    sendRdn s origin.val 5 r (rdnGen m) (rdnB m)
def execSwapPrep (origin : Fin 8) (m : Msg) (s : State) : Host.Outcome State Fault Refusal := .next (doSwapPrep origin m s)

/-- SWAP_ACK reaches the active unit (R393, R395). -/
def doSwapAck (origin : Fin 8) (m : Msg) (s : State) : State :=
  if !isRdn s origin.val m 5 || origin.val ≠ rdnPartner s || s.rdn.swap.job.isNone || !s.rdn.swap.prep then s
  else if rdnRes m = 0 then { s with rdn := { s.rdn with swap := { s.rdn.swap with acked := true } } }
  else swapEnd s stSwapRefused
def execSwapAck (origin : Fin 8) (m : Msg) (s : State) : Host.Outcome State Fault Refusal := .next (doSwapAck origin m s)

/-- Instant D of swap_tg before B (R393, R394). -/
def doSwapInstantD (s : State) : State :=
  let w := s.rdn.swap
  if w.job.isNone || !swapNext s then s
  else if w.acked then sendRdn s (rdnPartner s) 6 0 w.gen w.bNs
  else swapEnd s stSwapRefused
def execSwapInstantD (s : State) : Host.Outcome State Fault Refusal := .next (doSwapInstantD s)

/-- SWAP_GO reaches a partner before its own C (R394): it arms and replies ARMED. -/
def doSwapGo (origin : Fin 8) (m : Msg) (s : State) : State :=
  let w := s.rdn.swap
  if !isRdn s origin.val m 6 || origin.val ≠ rdnPartner s || !w.asPart || w.pastC || !swapNext s then s
  else sendRdn { s with rdn := { s.rdn with swap := { w with armed := true } } } origin.val 7 0 w.gen w.bNs
def execSwapGo (origin : Fin 8) (m : Msg) (s : State) : Host.Outcome State Fault Refusal := .next (doSwapGo origin m s)

/-- ARMED reaches the active unit (R394). -/
def doSwapArmed (origin : Fin 8) (m : Msg) (s : State) : State :=
  let w := s.rdn.swap
  if !isRdn s origin.val m 7 || origin.val ≠ rdnPartner s || w.job.isNone || !w.acked then s
  else { s with rdn := { s.rdn with swap := { w with armedRx := true } } }
def execSwapArmed (origin : Fin 8) (m : Msg) (s : State) : Host.Outcome State Fault Refusal := .next (doSwapArmed origin m s)

/-- Instant C of swap_tg before B (R394): the active unit arms, or cancels; a partner arms no more. -/
def doSwapInstantC (s : State) : State :=
  let w := s.rdn.swap
  if !swapNext s then s
  else if w.asPart then { s with rdn := { s.rdn with swap := { w with pastC := true } } }
  else if w.job.isNone || w.armed then s
  else if w.armedRx then { s with rdn := { s.rdn with swap := { w with armed := true } } }
  else swapEnd (sendRdn s (rdnPartner s) 8 0 w.gen w.bNs) stSwapCancelled
def execSwapInstantC (s : State) : Host.Outcome State Fault Refusal := .next (doSwapInstantC s)

/-- SWAP_CANCEL reaches a partner before B (R394). -/
def doSwapCancel (origin : Fin 8) (m : Msg) (s : State) : State :=
  if !isRdn s origin.val m 8 || origin.val ≠ rdnPartner s || !s.rdn.swap.asPart || s.ctl.mode = .handover then s
  else { s with rdn := { s.rdn with swap := {} } }
def execSwapCancel (origin : Fin 8) (m : Msg) (s : State) : Host.Outcome State Fault Refusal := .next (doSwapCancel origin m s)

/-- The holder bit moves at B (R394): this unit's own, and what it knows of its partner's. -/
def moveHolder (s : State) (mine : Bool) : State :=
  let a := rdnPartner s
  let s := (s.setBit CHN_LOGICAL 3 mine).setPeer a { s.peer a with holder := !mine }
  let s := mapUpdate (s.add RDN_COUNT 16 16 1)
  { s with rdn := { s.rdn with swapAt := s.island, dueSaid := false, took := mine } }

/-- B at an armed unit (R394): HANDOVER, the holder moves, the swap completes on the old active unit. -/
def handover (s : State) : State :=
  let w := s.rdn.swap
  let s := setMode (moveHolder s w.asPart) .handover 3
  match w.job with
  | none => s
  | some id => finish (rdnDecided { s with rdn := { s.rdn with swap := { s.rdn.swap with job := none } } } 5 0) id stComplete
                 (cplBody [(16, 8, s.now), (24, 4, w.gen.toNat)])

/-- The boundary after B (R394): the new active unit in RUN, the old one in KEEP as STANDBY, CHN_VAULT turned. -/
def handoverEnd (s : State) : State :=
  let done := fun (s : State) => { s with rdn := { s.rdn with swap := {} } }
  if s.rdn.swap.asPart then done (setMode ((s.setFld RDN_ROLE 0 2 1).setBit CHN_VAULT 0 false) .run 3)
  else
    let s := done s
    enterKeep (chnVault (BitVec.ofNat 32 (1 + rdnPartner s * 2)) (s.setFld RDN_ROLE 0 2 2)) 3

/-- What a boundary of group `g` brings to a swap (R393, R394); a swap whose boundary passes without both sides armed is
over. -/
def swapBoundary (s : State) (g : Nat) : State :=
  let w := s.rdn.swap
  if g ≠ swapTg s then s
  else if s.ctl.mode = .handover then handoverEnd s
  else if isSwapB s s.now && (w.job.isSome || w.asPart) then
    if w.armed && s.ctl.mode = (if w.asPart then .shadow else .run) then handover s
    else if w.asPart then { s with rdn := { s.rdn with swap := {} } }
    else swapEnd s stSwapCancelled
  else if w.job.isSome && w.sent && !w.prep then
    sendRdn { s with rdn := { s.rdn with swap := { w with prep := true } } } (rdnPartner s) 4 0 w.gen w.bNs
  else s

/-- RDN_SWAP_AGE in seconds (R396). -/
def swapAge (s : State) : Nat := (s.island - s.rdn.swapAt) / 1000000000

/-- RDN_SWAP_AGE passes RDN_SWAP_PERIOD (R396): recorded once. -/
def doSwapDue (s : State) : State :=
  if s.ctl.core && !s.rdn.dueSaid && decide ((s.reg RDN_SWAP_PERIOD).toNat < swapAge s) then
    raise { s with rdn := { s.rdn with dueSaid := true } } evSwapDue 0 40 31 []
  else s
def execSwapDue (s : State) : Host.Outcome State Fault Refusal := .next (doSwapDue s)

end Sys2Proof.Machine
end

