-- ==== Sys2Proof/Machine/Scale.lean ====
section
/-!
DEFINITION. Ingest pre-processing (chapter 06): geometry and filters (R148–R151), the line buffer (R153), footprints and
records (R154–R156), the choice of work (R145–R147, R157–R160) and the commands IPP_RUN, IPP_FOLLOW, IPP_UNFOLLOW.
-/

namespace Sys2Proof.Machine

/-! ### Sources -/

/-- A source as the IPP reads it: its size, whether it is YCbCr, its depth, the sub-sampling of its chroma, its samples by
component and plane position, and the pieces of memory of a rectangle. -/
structure IppIn where
  w      : Nat
  h      : Nat
  yuv    : Bool
  depth  : Nat
  sub    : Nat × Nat
  alpha8 : Bool
  sample : Nat → Nat → Nat → Nat
  rows   : Nat → Nat → Nat → Nat → List (Nat × Nat)

/-- One byte as the IPP reads it for partition `p`: 0 where the gate refuses (R306). -/
def ippByte (s : State) (p a : Nat) : Nat := if (memDec s (engine 10 p) .r a).1 = .ok then (mapByte s a).toNat else 0

/-- The chroma sub-sampling of a surface format (Table 7.1). -/
def fmtSub (fmt : Nat) : Nat × Nat := if fmt < 2 then (2, 2) else if fmt < 4 then (2, 1) else (1, 1)

/-- The bits of a component of a surface format. -/
def fmtDepth (fmt : Nat) : Nat := if fmt = 0 ∨ fmt = 2 ∨ fmt = 4 then 8 else 10

/-- A stored component of a surface at a plane position (Table 7.1): Y, Cb, Cr or R, G, B, then A. -/
def surfSample (s : State) (p : Nat) (f : Surface) (k x y : Nat) : Nat :=
  let b := ippByte s p
  let h := fun a => (b a + 256 * b (a + 1)) / 64
  let c := f.base + f.pitch * f.h + y * f.pitch
  match f.fmt with
  | 0 => if k = 0 then b (f.base + y * f.pitch + x) else b (c + 2 * x + (k - 1))
  | 1 => if k = 0 then h (f.base + y * f.pitch + 2 * x) else h (c + 4 * x + 2 * (k - 1))
  | 2 => b (f.base + y * f.pitch + (if k = 0 then 2 * x else 4 * x + 2 * k - 1))
  | 3 => h (f.base + y * f.pitch + (if k = 0 then 4 * x else 8 * x + 4 * k - 2))
  | 4 => b (f.base + y * f.pitch + 4 * x + (if k = 3 then 3 else 2 - k))
  | _ =>
    let a := f.base + y * f.pitch + 4 * x
    bitsOf (b a + 256 * b (a + 1) + 65536 * b (a + 2) + 16777216 * b (a + 3)) (if k = 3 then 30 else 10 * (2 - k)) (if k = 3 then 2 else 10)

/-- The pieces of a rectangle, widened to whole chroma pairs and within the surface. -/
def surfRect (f : Surface) (x y w h : Nat) : List (Nat × Nat) :=
  let x0 := x / 2 * 2
  let y0 := y / 2 * 2
  rectRows f x0 y0 (Nat.min f.w ((x + w + 1) / 2 * 2) - x0) (Nat.min f.h ((y + h + 1) / 2 * 2) - y0)

/-- A surface as source, `w × h` of it. -/
def surfIn (s : State) (p : Nat) (f : Surface) (w h : Nat) : IppIn :=
  { w := w, h := h, yuv := decide (f.fmt < 4), depth := fmtDepth f.fmt, sub := fmtSub f.fmt, alpha8 := f.fmt == 4
    sample := surfSample s p f, rows := surfRect f }

/-- A component of a RAW picture (Table 4.7, ST 2110-20 pixel groups; R155). -/
def rawSample (s : State) (p : Nat) (c : Ctx) (addr k x y : Nat) : Nat :=
  let g := rawGroup c.rawFmt
  let px := if c.rawFmt < 2 ∧ 0 < k then 2 * x else x
  let a := addr + y * rawLine c + px / g.2 * g.1
  let v := (List.range g.1).foldl (fun v i => v * 256 + ippByte s p (a + i)) 0
  let w := if c.rawFmt = 0 ∨ c.rawFmt = 2 then 8 else 10
  let i := if c.rawFmt < 2 then (match k with | 0 => 1 + 2 * (px % 2) | 1 => 0 | _ => 2) else px % g.2 * 3 + k
  bitsOf v (8 * g.1 - w * (i + 1)) w

/-- A RAW picture as source. -/
def rawIn (s : State) (p : Nat) (c : Ctx) (addr : Nat) : IppIn :=
  let g := rawGroup c.rawFmt
  { w := c.rawW, h := c.rawH, yuv := decide (c.rawFmt < 2), depth := if c.rawFmt = 0 ∨ c.rawFmt = 2 then 8 else 10, sub := if c.rawFmt < 2 then (2, 1) else (1, 1)
    alpha8 := false, sample := rawSample s p c addr
    rows := fun x y w h => (List.range h).map fun i =>
      (addr + (y + i) * rawLine c + x / g.2 * g.1, (ceilDiv (x + w) g.2 - x / g.2) * g.1) }

/-! ### Geometry -/

/-- The scaled size before rotation (R148). -/
def scaledSize (f : Surface) (rot : Nat) : Nat × Nat := if rot % 2 = 0 then (f.w, f.h) else (f.h, f.w)

/-- The crop in force: the named one, or the default rectangle (R148). -/
def cropOf (prm : IppParams) (dflt : Nat × Nat × Nat × Nat) : Nat × Nat × Nat × Nat :=
  if prm.crop.2.2.1 = 0 ∧ prm.crop.2.2.2 = 0 then dflt else prm.crop

/-- Whether a named crop breaks R148: not multiples of 4, one size of 0 alone. -/
def ippCropBad (c : Nat × Nat × Nat × Nat) : Bool :=
  !(c.2.2.1 == 0 && c.2.2.2 == 0)
    && (c.1 % 4 != 0 || c.2.1 % 4 != 0 || c.2.2.1 % 4 != 0 || c.2.2.2 % 4 != 0 || c.2.2.1 == 0 || c.2.2.2 == 0)

/-- Whether a crop reaches outside a source. -/
def cropOut (c : Nat × Nat × Nat × Nat) (w h : Nat) : Bool :=
  decide (w < c.1 + c.2.2.1) || decide (h < c.2.1 + c.2.2.2) || c.2.2.1 == 0 || c.2.2.2 == 0

/-- Whether an axis's ratio lies outside 1/8 to 8 (R148). -/
def ratioBad (crop out : Nat) : Bool := decide (8 * out < crop) || decide (8 * crop < out)

def scaleBad (c : Nat × Nat × Nat × Nat) (ws : Nat × Nat) : Bool := ratioBad c.2.2.1 ws.1 || ratioBad c.2.2.2 ws.2

/-- Whether the scaled width exceeds the line buffer (R153). -/
def lineShort (pair : Bool) (f : Surface) (rot : Nat) : Bool := decide ((if pair then 8192 else 4096) < (scaledSize f rot).1)

/-- Scaled pixel of an output pixel (Table 6.1) for a scaled size. -/
def rotPx (rot : Nat) (ws : Nat × Nat) (ox oy : Nat) : Nat × Nat :=
  match rot with
  | 0 => (ox, oy)
  | 1 => (oy, ws.2 - 1 - ox)
  | 2 => (ws.1 - 1 - ox, ws.2 - 1 - oy)
  | _ => (ws.1 - 1 - oy, ox)

/-! ### Filters -/

/-- `(sum + d/2) / d` over `d` values (R148). -/
def meanOf (d : Nat) (v : Nat → Nat) : Nat := ((List.range d).foldl (fun n i => n + v i) 0 + d / 2) / d

/-- π in units of 2⁻⁹⁶. -/
def piFix : Nat := 248902613312231085230521944622

/-- The power series of the sine, from the term of degree `n` on, in units of 2⁻⁹⁶. -/
def sinSeries : (fuel n term x2 : Nat) → Int
  | 0, _, _, _ => 0
  | fuel + 1, n, term, x2 => (term : Int) - sinSeries fuel (n + 2) (term * x2 / 2 ^ 96 / ((n + 1) * (n + 2))) x2

/-- sin(π m / d) in units of 2⁻⁹⁶. -/
def sinPi (m d : Nat) : Int :=
  let a := m % (2 * d)
  let b := if d ≤ a then a - d else a
  let x := piFix * (if d < 2 * b then d - b else b) / d
  let v := sinSeries 22 1 x (x * x / 2 ^ 96)
  if d ≤ a then -v else v

/-- The weight w of a POLY tap before it is normalised, in units of 2⁻⁹⁶: k sinc(k t) sinc(t / (T/2)) at t = `i` − p/64,
where tap `j` is i = j − (T/2 − 1) and k is in 64ths (R150). -/
def polyWeight (taps k p j : Nat) : Int :=
  let h := taps / 2
  let u := (64 * ((j : Int) + 1 - h) - p).natAbs
  if u = 0 then k * 2 ^ 96 / 64
  else if 64 * h ≤ u then 0
  else sinPi (k * u) 4096 * sinPi u (64 * h) / 2 ^ 96 * h * 4096 * 2 ^ 192 / (piFix * piFix : Nat) / (u * u : Nat)

/-- The POLY coefficients of a phase (R150): normalised to sum 256, rounded half away from zero, the remainder added to the tap
of largest magnitude, the lowest on a tie (log 16). -/
def polyCoefs (taps k p : Nat) : List Int :=
  let ws := (List.range taps).map (polyWeight taps k p)
  let d := (ws.foldl (· + ·) 0).natAbs
  let cs := ws.map fun w => (let m : Int := ((512 * w.natAbs + d) / (2 * d) : Nat); if w < 0 then -m else m)
  let top := cs.foldl (fun n c => Nat.max n c.natAbs) 0
  let at_ := cs.findIdx fun c => c.natAbs == top
  cs.set at_ (cs.getD at_ 0 + (256 - cs.foldl (· + ·) 0))

/-- One axis at an output position: the weighted sum of samples clamped to the crop, scaled by 256 (R149, R150). -/
def tapSum (nearest : Bool) (taps sfx last x : Nat) (v : Nat → Nat) : Int :=
  let pos := srcPosFx x sfx
  let n := pos / 65536
  let p := (pos / 1024 % 64).toNat
  let atI := fun (i : Int) => (v (clampI i 0 last).toNat : Int)
  if nearest then 256 * atI (if p < 32 then n else n + 1)
  else
    let k := Nat.min 64 (Nat.max 32 (64 * 65536 / sfx))
    let cs := polyCoefs taps k p
    (List.range taps).foldl (fun (a : Int) i => a + cs.getD i 0 * atI (n + (i : Int) - ((taps / 2 : Nat) - 1 : Int))) 0

/-- One plane of a picture under scaling: the value of scaled sample (x, y) at the output depth (R148–R150). `sc` is
the sub-sampling of the plane in the scaled picture. -/
def scaledSample (i : IppIn) (nearest : Bool) (c : Nat × Nat × Nat × Nat) (ws : Nat × Nat) (sc : Nat × Nat) (depth k x y : Nat) : Nat :=
  let ss := if k = 1 ∨ k = 2 then i.sub else (1, 1)
  let dx := decimation c.2.2.1 ws.1
  let dy := decimation c.2.2.2 ws.2
  let lw := c.2.2.1 / ss.1
  let lh := c.2.2.2 / ss.2
  let sx := stepFx lw dx (ws.1 / sc.1)
  let sy := stepFx lh dy (ws.2 / sc.2)
  let dec := fun u v => meanOf dy fun b => meanOf dx fun a => i.sample k (c.1 / ss.1 + u * dx + a) (c.2.1 / ss.2 + v * dy + b)
  let hor := fun v => (clampI ((tapSum nearest 8 sx (lw / dx - 1) x (fun u => dec u v * 2 ^ (12 - i.depth)) + 128) / 256) 0 4095).toNat
  let v := (tapSum nearest 6 sy (lh / dy - 1) y hor + 128) / 256
  (clampI ((v + 2 ^ (11 - depth)) / 2 ^ (12 - depth)) 0 (2 ^ depth - 1)).toNat

/-- The value of component `k` of an output pixel, at plane position (ox, oy) of the target (R149–R151). -/
def outSample (i : IppIn) (prm : IppParams) (c : Nat × Nat × Nat × Nat) (f : Surface) (k ox oy : Nat) : Nat :=
  let ws := scaledSize f prm.rot
  let ts := if k = 1 ∨ k = 2 then fmtSub f.fmt else (1, 1)
  let ts := if i.yuv then ts else (1, 1)
  let sc := if prm.rot % 2 = 0 then ts else (ts.2, ts.1)
  let q := rotPx prm.rot (ws.1 / sc.1, ws.2 / sc.2) ox oy
  scaledSample i prm.nearest c ws sc (fmtDepth f.fmt) k q.1 q.2

/-- The alpha of an output pixel: filtered from 8 to 8 bits; else the spec gives no value (log 30). -/
def outAlpha (s : State) (i : IppIn) (prm : IppParams) (c : Nat × Nat × Nat × Nat) (f : Surface) (x y : Nat) : Nat :=
  if f.fmt = 4 ∧ i.alpha8 then outSample i prm c f 3 x y
  else Config.unstated (s.free + y * 8192 + x) % (if f.fmt = 4 then 256 else 4)

/-- The bytes of line `y` of the first plane of the target (Table 7.1). -/
def outLine (s : State) (i : IppIn) (prm : IppParams) (c : Nat × Nat × Nat × Nat) (f : Surface) (y : Nat) : Bytes :=
  let o := outSample i prm c f
  match f.fmt with
  | 0 => (List.range f.w).map fun x => BitVec.ofNat 8 (o 0 x y)
  | 1 => (List.range f.w).flatMap fun x => leBytes 2 (o 0 x y * 64)
  | 2 => (List.range (f.w / 2)).flatMap fun x => [o 0 (2 * x) y, o 1 x y, o 0 (2 * x + 1) y, o 2 x y].map (BitVec.ofNat 8)
  | 3 => (List.range (f.w / 2)).flatMap fun x =>
      [o 0 (2 * x) y, o 1 x y, o 0 (2 * x + 1) y, o 2 x y].flatMap fun v => leBytes 2 (v * 64)
  | 4 => (List.range f.w).flatMap fun x => [o 2 x y, o 1 x y, o 0 x y, outAlpha s i prm c f x y].map (BitVec.ofNat 8)
  | _ => (List.range f.w).flatMap fun x =>
      leBytes 4 (o 2 x y + o 1 x y * 2 ^ 10 + o 0 x y * 2 ^ 20 + outAlpha s i prm c f x y * 2 ^ 30)

/-- The bytes of chroma line `j` of a 4:2:0 target. -/
def outChroma (i : IppIn) (prm : IppParams) (c : Nat × Nat × Nat × Nat) (f : Surface) (j : Nat) : Bytes :=
  let o := outSample i prm c f
  (List.range (f.w / 2)).flatMap fun x =>
    if f.fmt = 0 then [o 1 x j, o 2 x j].map (BitVec.ofNat 8) else [o 1 x j, o 2 x j].flatMap fun v => leBytes 2 (v * 64)

/-- The writes of one tile row of the target: address and bytes. -/
def outRow (s : State) (i : IppIn) (prm : IppParams) (c : Nat × Nat × Nat × Nat) (f : Surface) (ty : Nat) : List (Nat × Bytes) :=
  let h := Nat.min 64 (f.h - 64 * ty)
  ((upFrom (64 * ty) h).map fun y => (f.base + y * f.pitch, outLine s i prm c f y))
    ++ (if fmt420 f.fmt then
          (upFrom (32 * ty) (h / 2)).map fun j => (f.base + f.pitch * f.h + j * f.pitch, outChroma i prm c f j)
        else [])

/-! ### Footprints and freshness -/

/-- The span of source pixels of an output tile, per axis: x low, x high, y low, y high (R154). -/
def tileSpan (prm : IppParams) (c : Nat × Nat × Nat × Nat) (f : Surface) (t : Nat) : Nat × Nat × Nat × Nat :=
  let r := tileRect f t
  let ws := scaledSize f prm.rot
  let a := rotPx prm.rot ws r.1 r.2.1
  let b := rotPx prm.rot ws (r.1 + r.2.2.1 - 1) (r.2.1 + r.2.2.2 - 1)
  let dx := decimation c.2.2.1 ws.1
  let dy := decimation c.2.2.2 ws.2
  let x := ippSpan (Nat.min a.1 b.1) (Nat.max a.1 b.1) (stepFx c.2.2.1 dx ws.1) (if prm.nearest then 2 else 8) dx c.1 c.2.2.1
  let y := ippSpan (Nat.min a.2 b.2) (Nat.max a.2 b.2) (stepFx c.2.2.2 dy ws.2) (if prm.nearest then 2 else 6) dy c.2.1 c.2.2.2
  (x.1, x.2, y.1, y.2)

/-- The footprint of an output tile: source tile columns and rows (R154). -/
def footprint (prm : IppParams) (c : Nat × Nat × Nat × Nat) (f : Surface) (t : Nat) : List (Nat × Nat) :=
  let g := tileSpan prm c f t
  (upFrom (g.2.2.1 / 64) (g.2.2.2 / 64 - g.2.2.1 / 64 + 1)).flatMap fun ty =>
    (upFrom (g.1 / 64) (g.2.1 / 64 - g.1 / 64 + 1)).map fun tx => (tx, ty)

/-- The part of a footprint that the crop reads: x, y, width, height. -/
def footRect (c : Nat × Nat × Nat × Nat) (fp : List (Nat × Nat)) : Nat × Nat × Nat × Nat :=
  match fp, fp.getLast? with
  | a :: _, some b =>
    let x0 := Nat.max c.1 (64 * a.1)
    let y0 := Nat.max c.2.1 (64 * a.2)
    (x0, y0, Nat.min (c.1 + c.2.2.1) (64 * b.1 + 64) - x0, Nat.min (c.2.1 + c.2.2.2) (64 * b.2 + 64) - y0)
  | _, _ => (0, 0, 0, 0)

/-- Whether a taint map marks a tile, or the gate refuses the map (R128, R306). -/
def mapTaint (s : State) (p addr : Nat) (t : Nat × Nat) : Bool :=
  let a := addr + 16 * t.2 + t.1 / 8
  (memDec s (engine 10 p) .r a).1 != .ok || bitOf (ippByte s p a) (t.1 % 8)

/-- The taint, basis and content time of an output tile (Table 6.2). -/
abbrev TileFresh := Bool × Nat × BitVec 32

/-- Whether a ledger entry makes an output without basis (Table 6.2). -/
def entryNone (e : LEntry) : Bool := e.never || e.expLong || e.basis == 0

/-- Which of two entries gives the time: greater age first, then CAPTURE, ARRIVAL, COMMIT (Table 6.2). -/
def olderOf (now : BitVec 32) (a b : LEntry) : LEntry :=
  let x := tickDiff now a.content
  let y := tickDiff now b.content
  if x > y then a else if y > x then b else if a.basis.toNat ≤ b.basis.toNat then a else b

/-- The freshness an output tile draws from ledger entries (Table 6.2). -/
def freshOf (now : BitVec 32) : List LEntry → TileFresh
  | [] => (true, 0, 0)
  | e :: es =>
    let all := e :: es
    let o := es.foldl (olderOf now) e
    if all.any entryNone then (true, 0, 0) else (all.any (·.taint), o.basis.toNat, o.content)

/-- The source of a piece of work as the IPP reads it, with its default crop and what each source tile brings. -/
def workIn (s : State) (p : Nat) : IppSource → IppIn × (Nat × Nat × Nat × Nat) × (List (Nat × Nat) → TileFresh)
  | .picture r =>
    let f := s.surf (recSurface r)
    let n := fun a k => leNat (sliceB r a k)
    let basis := n 26 1 % 4
    (surfIn s p f (n 32 2) (n 34 2), (n 36 2, n 40 2, n 32 2 - n 36 2 - n 38 2, n 34 2 - n 40 2 - n 42 2),
      fun fp => (fp.any (mapTaint s p (n 48 5)), basis, recTime (n 8 8) (n 16 8) basis))
  | .surface k =>
    let f := s.surf k
    (surfIn s p f f.w f.h, (0, 0, f.w, f.h),
      fun fp => if f.reg then freshOf s.tick (fp.map fun t => s.led (f.lbase + t.2 * f.tx + t.1)) else (true, 0, 0))
  | .raw ci au =>
    let c := s.ctx ci
    let basis := bitsOf au.flags.toNat 0 2
    (rawIn s p c au.addr, (0, 0, c.rawW, c.rawH),
      fun fp => (fp.any (mapTaint s p (au.addr + ceilTo 4096 (rawSize c))), basis, recTime au.capture au.arrival basis))

/-! ### Commands -/

/-- The parameters of an IPP_RUN or IPP_FOLLOW body (Table 6.3), whose pair and fence bits stand in byte `fl`. -/
def ippPrm (q : Req) (inst fl val : Nat) : IppParams :=
  { inst := inst, pair := q.bit fl 0, nearest := q.bit 19 0, rot := q.fld 19 1 2, crop := (q.u16 32, q.u16 34, q.u16 36, q.u16 38)
    fenceOn := q.bit fl 1, fenceHost := q.bit fl 2, fenceAt := BitVec.ofNat 64 (q.u64 40), fenceVal := BitVec.ofNat 64 val }

def runPrm (q : Req) : IppParams := ippPrm q (q.u8 16) 17 (q.u64 48)
def followPrm (q : Req) : IppParams := ippPrm q (q.u8 17) 18 0

def maskIppRun : Nat := bodyMask [(16, 0, 8), (17, 0, 3), (18, 0, 8), (19, 0, 3), (20, 0, 12), (22, 0, 12), (24, 0, 40), (32, 0, 192)]

/-- Range checks that both IPP commands share. -/
def prmBad (m : IppParams) : Bool :=
  decide (15 < m.inst) || (m.pair && m.inst % 2 == 1) || ippCropBad m.crop || (m.fenceOn && m.fenceAt.toNat % 8 != 0)

/-- Completes with the first failing check; LINEBUF_SHORT counts (R153). -/
def ippGuard (s : State) (id : Nat) (checks : List (Bool × Nat)) (go : State → State) : State :=
  match firstFail checks with
  | some st => finish (if st = stLinebufShort then s.inc IPP_LBSHORT else s) id st
  | none => go s

/-- IPP_RUN (R148, R152, R153, R155, R157, R162). -/
def ippRun (q : Req) (rec : AccRes × Bytes) (s : State) (id : Nat) : State :=
  let p := q.part.val
  let m := runPrm q
  let n := q.u16 20
  let f := s.surf n
  let pic : Bool := q.u8 18 == 0
  let k := if pic then recSurface rec.2 else q.u16 22
  let src := workIn s p (if pic then .picture rec.2 else .surface k)
  let c := cropOf m src.2.1
  ippGuard s id [
      (prmBad m || decide (1 < q.u8 18) || (pic && q.u40 24 % 64 != 0), stBadRange),
      (pic && rec.1 == .unmapped, stUnmapped), (pic && rec.1 == .denied, stGateDenied),
      ((pic || (s.surf k).created) && (cropOut c src.1.w src.1.h || !(s.surf k).created), stBadRange),
      (!ownsSurf s p n || !ownsSurf s p k, stNotOwner),
      (!pic && !(s.surf k).reg, stNotTracked),
      (!f.created || decide (f.fmt < 4) != src.1.yuv, stBadFormat),
      (scaleBad c (scaledSize f m.rot), stScaleRange),
      (lineShort m.pair f m.rot, stLinebufShort),
      (onScreen s n, stOnScreen)] fun s =>
    s.modJob id fun j => { j with v := BitVec.ofNat 64 s.now, snap := if pic then rec.2 else [] }

/-- IPP_RUN reads the picture record it names as it is validated; while that waits at a gate the descriptor is not yet
accepted (R280). -/
def doIppRun (q : Req) (s : State) : State :=
  let r := engRead s 10 q.part.val (q.u40 24) 64
  let pic : Bool := q.u8 18 == 0 && q.u40 24 % 64 == 0
  if pic && r.2.1 == .held then s
  else soile s q 0x0501 maskIppRun true fun s id =>
    let r := if pic then engRead s 10 q.part.val (q.u40 24) 64 else (s, .ok, [])
    ippRun q r.2 r.1 id

def execIppRun (q : Req) (s : State) : Host.Outcome State Fault Refusal := .next (doIppRun q s)

/-- The charge on an instance (R146). -/
def instLoad (s : State) (i : Nat) : Nat :=
  (s.follows.filter fun x => x.2.bound && (x.2.prm.inst == i || (x.2.prm.pair && x.2.prm.inst + 1 == i))).foldl (fun n x => n + x.2.charge) 0

/-- The declared rates of a partition's follow slots (R146). -/
def ippUse (s : State) (p : Nat) : Nat :=
  (s.follows.filter fun x => x.2.bound && ownsFollow s p x.1).foldl (fun n x => n + x.2.rate) 0

def maskIppFollow : Nat := bodyMask [(16, 0, 16), (18, 0, 3), (19, 0, 3), (20, 0, 16), (22, 0, 16), (24, 0, 32), (32, 0, 128)]

/-- Whether work names its crop, so that the ratio does not wait for the picture (R148). -/
def cropNamed (m : IppParams) : Bool := decide (m.crop.2.2.1 ≠ 0) && decide (m.crop.2.2.2 ≠ 0)

/-- IPP_FOLLOW (R146, R159, R162). The source's size is known only of a RAW context; a picture of a decoded one is
checked as it comes (log 31). The ratio of a named crop is known of both. -/
def ippFollow (q : Req) (s : State) : State × Nat × BitVec 128 :=
  let p := q.part.val
  let k := q.u8 16
  let m := followPrm q
  let ci := q.u8 21
  let c := s.ctx ci
  let first := q.u16 22
  let ts := upFrom first (q.u8 20)
  let f := s.surf first
  let raw : Bool := c.codec == 2 && c.state != .closed
  let crop := cropOf m (0, 0, c.rawW, c.rawH)
  let charge := if m.pair then ceilDiv (q.u32 24) 2 else q.u32 24
  let insts := if m.pair then [m.inst, m.inst + 1] else [m.inst]
  match firstFail [
      (decide (63 < k) || prmBad m || decide (q.u8 20 < 2) || decide (4 < q.u8 20) || decide (4096 < first + q.u8 20)
        || (raw && cropOut crop c.rawW c.rawH), stBadRange),
      (!ownsFollow s p k || !ownsCtx s p ci || ts.any (fun n => !ownsSurf s p n), stNotOwner),
      (ts.any (fun n => let g := s.surf n; !g.created || g.w != f.w || g.h != f.h || g.fmt != f.fmt)
        || decide (f.fmt < 4) != (if raw then decide (c.rawFmt < 2) else true), stBadFormat),
      ((raw || cropNamed m) && scaleBad crop (scaledSize f m.rot), stScaleRange),
      (lineShort m.pair f m.rot, stLinebufShort),
      ((s.follow k).bound || s.follows.any (fun x => x.2.bound && x.2.ctx == ci), stSlotBusy),
      (insts.any fun i => decide (2000000000 < instLoad s i + charge), stIppFull),
      (decide ((s.part p).qIpp < ippUse s p + q.u32 24), stIppQuota)] with
  | some st => (if st = stLinebufShort then s.inc IPP_LBSHORT else s, st, 0)
  | none =>
    (s.setFollow k { s.follow k with
      bound := true, prm := m, ctx := ci, m := q.u8 20, first := first, charge := charge, rate := q.u32 24, count := 0
      seen := c.outSeq, newest := none, closing := [] }, stComplete, cplBody [(16, 4, charge)])

def doIppFollow (q : Req) (s : State) : State := soileNow s q 0x0502 maskIppFollow true (ippFollow q)
def execIppFollow (q : Req) (s : State) : Host.Outcome State Fault Refusal := .next (doIppFollow q s)

/-- The piece of work in progress of a follow slot. -/
def followBusy (s : State) (k : Nat) : Bool :=
  s.ipp.any fun x => match x.2 with | some w => w.begun && w.follow == some k | none => false

/-- A follow slot and its charge are released (R160). -/
def unfollowEnd (s : State) (k : Nat) : State :=
  let f := s.follow k
  let s := s.setFollow k { f with bound := false, charge := 0, rate := 0, closing := [], newest := none }
  f.closing.foldl (fun s id => finish s id stComplete (cplBody [(16, 4, f.count.toNat)])) s

/-- A piece of work chosen and not begun is given up. -/
def dropChosen (s : State) (test : IppWork → Bool) : State :=
  (List.range 16).foldl (fun s i => match s.ippW i with
    | some w => if !w.begun && test w then pwrEnd (s.setIppW i none) (pwrIpp i) else s
    | none => s) s

/-- IPP_UNFOLLOW (R160). -/
def doIppUnfollow (q : Req) (s : State) : State :=
  soile s q 0x0503 (bodyMask [(16, 0, 8)]) true fun s id =>
    let k := q.u8 16
    guardJob s id [(decide (63 < k), stBadRange), (!ownsFollow s q.part.val k, stNotOwner)] fun s =>
      let s := dropChosen s fun w => w.follow == some k
      let s := s.setFollow k { s.follow k with closing := (s.follow k).closing ++ [id] }
      if followBusy s k then s else unfollowEnd s k

def execIppUnfollow (q : Req) (s : State) : Host.Outcome State Fault Refusal := .next (doIppUnfollow q s)

/-! ### Choice and start -/

/-- Whether an instance is working, or claimed by the paired item of its neighbour (R145, R147). -/
def instBusy (s : State) (i : Nat) : Bool :=
  (s.ippW i).isSome || (match s.ippW (i ^^^ 1) with | some w => w.prm.pair | none => false)

/-- Whether parameters name an instance. -/
def onInst (m : IppParams) (i : Nat) : Bool := m.inst == i || (m.pair && m.inst + 1 == i)

/-- The follow slots with a picture for instance `i`, with the time it was ready (R147, R159). -/
def readyFollows (s : State) (i : Nat) : List (Nat × IppWork) :=
  (s.follows.filter fun x =>
    let f := x.2
    let c := s.ctx f.ctx
    f.bound && f.closing.isEmpty && onInst f.prm i && !(s.ipp.any fun w => match w.2 with | some w => w.follow == some x.1 | none => false)
      && (if c.codec = 2 then !c.queue.isEmpty else c.outSeq != f.seen)).map fun x =>
    let c := s.ctx x.2.ctx
    (if c.codec = 2 then c.queuedAt else c.outAt, { prm := x.2.prm, src := .surface 0, follow := some x.1, job := none, target := 0, seq := 0, begun := false })

/-- The jobs for instance `i` that need wait for no earlier one, with the time of their acceptance (R147, R157). -/
def readyRuns (s : State) (i : Nat) : List (Nat × IppWork) :=
  (s.jobs.filter fun j => j.opcode == 0x0501 && onInst (runPrm j.req) i && j.abortBy.isEmpty && mayRun s j
    && !(s.ipp.any fun w => match w.2 with | some w => w.job == some j.id | none => false)).map fun j =>
    (j.v.toNat, { prm := runPrm j.req
                  src := if j.snap.isEmpty then .surface (j.req.u16 22) else .picture j.snap
                  follow := none, job := some j.id, target := j.req.u16 20, seq := 0, begun := false })

/-- The item with the earliest ready time; of equals the first listed (R147). -/
def earliestItem : List (Nat × IppWork) → Option IppWork
  | [] => none
  | x :: xs => some (xs.foldl (fun a b => if b.1 < a.1 then b else a) x).2

/-- The target of a follow slot's next output (R159). -/
def followTarget (f : Follow) : Nat := f.first + f.count.toNat % f.m

/-- Where the record of the newest picture of a decoded context lies (R128). -/
def newestRecord (c : Ctx) : Nat := c.outBase + (c.outSeq - 1).toNat % 16 * 64

/-- Whether the reading of the newest picture's record waits at a gate (R309). -/
def recordHeld (s : State) (k : Nat) : Bool :=
  let c := s.ctx (s.follow k).ctx
  c.codec != 2 && rowsDec s 10 (followOwner s k) .r [(newestRecord c, 64)] == .held

/-- A follow slot's newest picture is taken and the older ones passed over (R159). -/
def passNewest (s : State) (k : Nat) : State :=
  let f := s.follow k
  let c := s.ctx f.ctx
  if c.codec = 2 then
    (s.setFollow k { f with nPassed := satInc f.nPassed (c.queue.length - 1) }).setCtx f.ctx { c with queue := [] }
  else s.setFollow k { f with seen := c.outSeq, nPassed := satInc f.nPassed ((c.outSeq - f.seen).toNat - 1) }

/-- A follow slot takes its newest picture (R159): the source it names, none where its record is refused. -/
def takeNewest (s : State) (k : Nat) : State × Option IppSource :=
  let ci := (s.follow k).ctx
  let c := s.ctx ci
  if c.codec = 2 then (passNewest s k, c.queue.getLast?.map (.raw ci))
  else
    let r := engRead s 10 (followOwner s k) (newestRecord c) 64
    (passNewest r.1 k, if r.2.1 = .ok then some (.picture r.2.2) else none)

/-- The picture is not processed: its target is on screen (R159). -/
def followOnScreen (s : State) (k : Nat) : State :=
  let s := passNewest s k
  s.setFollow k { s.follow k with nBusy := satInc (s.follow k).nBusy }

/-- Whether the geometry of a follow picture is one the IPP can scale (log 31). -/
def pictureFits (s : State) (p : Nat) (m : IppParams) (src : IppSource) (n : Nat) : Bool :=
  let x := workIn s p src
  let c := cropOf m x.2.1
  !(cropOut c x.1.w x.1.h || scaleBad c (scaledSize (s.surf n) m.rot))

/-- The lower instance of a piece of work. -/
def leadInst (m : IppParams) : Nat := m.inst

/-- Counts the picture in IPP_INSTi_JOBS and begins it (Table 6.2). A picture of a pair counts on the lower instance alone. DESIGN
CHOICE (log 152). -/
def beginWork (s : State) (i : Nat) (w : IppWork) : State :=
  let a := IPP_INST_JOBS (leadInst w.prm)
  let s := s.setReg a (s.reg a + 1)
  let s := match w.job with | some id => s.modJob id fun j => { j with running := true } | none => s
  s.setIppW i (some { w with seq := s.reg a, begun := true })

/-- A granted item begins (R147, R159): a follow slot takes its newest picture now. -/
def startWork (s : State) (i : Nat) (w : IppWork) : State :=
  match w.follow with
  | none => beginWork s i w
  | some k =>
    let n := followTarget (s.follow k)
    let drop := fun (s : State) => pwrEnd (s.setIppW i none) (pwrIpp i)
    if recordHeld s k then s
    else if liveOrPending s n then drop (followOnScreen s k)
    else
      let t := takeNewest s k
      match t.2 with
      | none => drop t.1
      | some src =>
        if !pictureFits t.1 (followOwner s k) w.prm src n then drop t.1
        else
          let s := match src with
            | .raw ci au =>
              let c := t.1.ctx ci
              t.1.setCtx ci { c with rawBusy := c.rawBusy ++ ((List.range c.rawN).filter fun b => rawAddr c b == au.addr) }
            | _ => t.1
          beginWork s i { w with src := src, target := n }

/-- A free instance chooses an item, asks for its tokens, and begins it once they are granted and, for a pair, both
instances are free (R147, Table 16.4). -/
def doIppStart (i : Fin 16) (s : State) : State :=
  let n := i.val
  if !s.ctl.core || s.ctl.mode = .yield then s
  else match s.ippW n with
    | some w =>
      if w.begun then s
      else if w.prm.pair && (s.ippW (n ^^^ 1)).isSome then s
      else if pwrReady s (pwrIpp n) then startWork s n w
      else pwrRequest s (pwrIpp n) (if w.prm.pair then 12 else 6)
    | none =>
      if instBusy s n then s
      else match earliestItem (readyFollows s n ++ readyRuns s n) with
        | none => s
        | some w =>
          match w.follow with
          | some k =>
            if liveOrPending s (followTarget (s.follow k)) then followOnScreen s k
            else
              let s := s.setIppW n (some w)
              if w.prm.pair && (s.ippW (n ^^^ 1)).isSome then s else pwrRequest s (pwrIpp n) (if w.prm.pair then 12 else 6)
          | none =>
            let s := s.setIppW n (some w)
            if w.prm.pair && (s.ippW (n ^^^ 1)).isSome then s else pwrRequest s (pwrIpp n) (if w.prm.pair then 12 else 6)

def execIppStart (i : Fin 16) (s : State) : Host.Outcome State Fault Refusal := .next (doIppStart i s)

/-! ### End of a picture -/

/-- One output tile's freshness, a refused source fetch counting as taint (R156, R306). -/
def tileFresh (s : State) (p : Nat) (w : IppWork) (t : Nat) : TileFresh :=
  let x := workIn s p w.src
  let c := cropOf w.prm x.2.1
  let fp := footprint w.prm c (s.surf w.target) t
  let r := footRect c fp
  let v := x.2.2 fp
  (v.1 || rowsDec s 10 p .r (x.1.rows r.1 r.2.1 r.2.2.1 r.2.2.2) != .ok, v.2)

/-- What an IPP picture has done so far: state, tiles with taint, times of its tiles, the first failure. -/
structure IppDone where
  s      : State
  taints : Nat
  times  : List (Nat × BitVec 32)
  res    : AccRes

/-- One tile row of the output: its writes, then the records of its tiles (R156, R517). -/
def ippTileRow (p : Nat) (w : IppWork) (d : IppDone) (ty : Nat) : IppDone :=
  let s := d.s
  let f := s.surf w.target
  let x := workIn s p w.src
  let c := cropOf w.prm x.2.1
  let ts := upFrom (ty * f.tx) f.tx
  let fr := ts.map (tileFresh s p w)
  let bad := ts.map fun t => let r := tileRect f t; rowsDec s 10 p .w (rectRows f r.1 r.2.1 r.2.2.1 r.2.2.2) != .ok
  let v := writeRows s 10 p (outRow s x.1 w.prm c f ty)
  let taints := (List.range f.tx).map fun i => (fr.getD i (true, 0, 0)).1 || bad.getD i false
  let s := if f.reg then
      (List.range f.tx).foldl (fun s i =>
        let q := fr.getD i (true, 0, 0)
        sendRecord s w.target (ty * f.tx + i) q.2.2 (BitVec.ofNat 2 q.2.1) (taints.getD i true) w.seq) v.1
    else v.1
  { s := s, taints := d.taints + (taints.filter id).length, times := d.times ++ fr.map (·.2), res := if d.res = .ok then v.2 else d.res }

/-- The content time of an output in ns: 0 where a tile has basis NONE, else its oldest time (Table 6.3, log 32). -/
def outputNs (s : State) (w : IppWork) (times : List (Nat × BitVec 32)) : Nat :=
  if times.any fun t => t.1 == 0 then 0
  else match w.src with
    | .picture r => leNat (sliceB r (if leNat (sliceB r 26 1) % 4 = 1 then 8 else 16) 8)
    | .raw _ au => if bitsOf au.flags.toNat 0 2 = 1 then au.capture else au.arrival
    | .surface _ =>
      match times.map fun t => tickDiff s.tick t.2 with
      | [] => 0
      | a :: as => ((s.now : Int) - 1000 * as.foldl max a).toNat

/-- The instance is free again: the RAW buffer is no longer read (R110). -/
def releaseInst (s : State) (i : Nat) (w : IppWork) : State :=
  let s := match w.src with
    | .raw ci au =>
      let c := s.ctx ci
      s.setCtx ci { c with rawBusy := c.rawBusy.filter fun b => rawAddr c b != au.addr }
    | _ => s
  pwrEnd (s.setIppW i none) (pwrIpp i)

/-- The end of an IPP_RUN (R156–R158, Table 6.3): an abort or a refused write stops it at a tile row. -/
def runEnd (s : State) (p : Nat) (j : Job) (w : IppWork) : State :=
  let rows := (s.surf w.target).ty
  let stop := if j.stops then Config.unstated s.free % (rows + 1) else rows
  let d := (List.range stop).foldl (fun d ty => if d.res = .ok then ippTileRow p w d ty else d) ⟨s.draw, 0, [], .ok⟩
  let s := drainRecords d.s
  let st := if d.res != .ok then d.res.status else if j.stops then stAborted else stComplete
  let s := if st = stComplete && w.prm.fenceOn then fenceWrite s 10 p w.prm.fenceHost w.prm.fenceAt.toNat w.prm.fenceVal.toNat else s
  let s := finish s j.id st (cplBody [(16, 4, w.seq.toNat), (20, 2, d.taints), (24, 8, outputNs s w d.times)])
  surfWritten s w.target

/-- The end of a follow picture (R156, R157, R159): its count advances, its fence gets the count. -/
def followEnd (s : State) (p k : Nat) (w : IppWork) : State :=
  let d := (List.range (s.surf w.target).ty).foldl (ippTileRow p w) ⟨s.draw, 0, [], .ok⟩
  let s := drainRecords d.s
  let f := s.follow k
  let n := f.count + 1
  let s := s.setFollow k { f with count := n, newest := some w.target, last := d.taints, nTaint := satInc f.nTaint (Bool.nat (decide (0 < d.taints))) }
  let s := if w.prm.fenceOn then fenceWrite s 10 p w.prm.fenceHost w.prm.fenceAt.toNat n.toNat else s
  let s := followWritten s k w.target
  if (s.follow k).closing.isEmpty then s else unfollowEnd s k

/-- Whether an access of the picture waits at a gate. -/
def ippHeld (s : State) (p : Nat) (w : IppWork) : Bool :=
  let f := s.surf w.target
  let x := workIn s p w.src
  let c := cropOf w.prm x.2.1
  rowsDec s 10 p .r (x.1.rows c.1 c.2.1 c.2.2.1 c.2.2.2) == .held || rowsDec s 10 p .w (rectRows f 0 0 f.w f.h) == .held

/-- Records the refused fetches of a picture (R306, R314). -/
def noteSource (s : State) (p : Nat) (w : IppWork) : State :=
  let x := workIn s p w.src
  let c := cropOf w.prm x.2.1
  ((x.1.rows c.1 c.2.1 c.2.2.1 c.2.2.2).filter fun r => rowsDec s 10 p .r [r] != .ok).foldl (fun s r => (engRead s 10 p r.1 r.2).1) s

/-- An IPP instance ends its picture (R156–R160). -/
def doIppComplete (i : Fin 16) (s : State) : State :=
  match s.ippW i.val with
  | none => s
  | some w =>
    let p := match w.job.bind s.job, w.follow with
      | some j, _ => j.req.part.val
      | none, some k => followOwner s k
      | none, none => 31
    if !w.begun || ippHeld s p w then s
    else
      let s := noteSource s p w
      match w.job.bind s.job, w.follow with
      | some j, _ => releaseInst (runEnd s p j w) i.val w
      | none, some k => followEnd (releaseInst s i.val w) p k w
      | none, none => releaseInst s i.val w

def execIppComplete (i : Fin 16) (s : State) : Host.Outcome State Fault Refusal := .next (doIppComplete i s)

end Sys2Proof.Machine
end

