-- ==== Sys2Proof/Machine/Accept.lean ====
section
/-!
DEFINITION. The doorbell reads and the fetch of descriptors (R276-R279, R482), their acceptance (R280, R284, R287), and
ABORT (R290, Table 10.8).
-/

namespace Sys2Proof.Machine

/-! ### Descriptors as fetched (Table 10.3) -/

def rawOp (raw : Bytes) : Nat := leNat (raw.take 2)
def rawTag (raw : Bytes) : BitVec 32 := BitVec.ofNat 32 (leNat (sliceB raw 4 4))

/-- Byte `i` of a descriptor. -/
def rawByte (raw : Bytes) (i : Nat) : Nat := (raw.getD i 0).toNat

/-- Whether a reserved bit of the common fields is 1. -/
def rawReserved (raw : Bytes) : Bool := rawByte raw 2 / 2 != 0 || rawByte raw 3 / 8 != 0 || leNat (sliceB raw 8 8) != 0

def rawBarrier (raw : Bytes) : Bool := rawByte raw 2 % 2 == 1

/-- A descriptor as a command of partition `p`, with what the command's own reads of host memory bring. -/
def rawReq (p : Fin 16) (f : Fetched) (host : HostRead) : Req :=
  { part := p, ring := Fin.ofNat 8 f.ring, index := f.index, cring := Fin.ofNat 8 (rawByte f.raw 3), barrier := rawBarrier f.raw
    tag := rawTag f.raw, body := BitVec.ofNat 384 (leNat (sliceB f.raw 16 48)), host := host }

/-! ### ABORT (R290) -/

/-- What an ABORT finds under its tag. -/
inductive AbortTarget where
  | fetched (f : Fetched)
  | job (j : Job)
  | ended (c : Cpl)
  deriving DecidableEq, Repr

def AbortTarget.order : AbortTarget → Nat
  | .fetched f => f.order
  | .job j => j.order
  | .ended c => c.order

/-- The earliest-fetched job of a partition with a tag whose completion is not written. -/
def abortTarget (s : State) (p : Nat) (tag : BitVec 32) (self : Nat) : Option AbortTarget :=
  let fs := ((s.part p).fetched.filter fun f => rawTag f.raw == tag).map AbortTarget.fetched
  let js := (s.jobs.filter fun j => j.req.part.val == p && j.req.tag == tag && j.id != self).map AbortTarget.job
  let es := (((s.part p).backlog ++ s.cpls).filter fun c => c.part == p && c.tag == tag).map AbortTarget.ended
  match fs ++ js ++ es with
  | [] => none
  | x :: xs => some (xs.foldl (fun a b => if b.order < a.order then b else a) x)

/-- The layer that holds a LAYER_UPDATE job, with the update. -/
def pendingOf (s : State) (id : Nat) : Option (Nat × Pending) :=
  s.layers.findSome? fun x => (x.2.pend.find? fun p => p.job == id).map fun p => (x.1, p)

/-- A FENCE_WAIT is removed and its ring goes on (Table 10.8). -/
def dropWait (s : State) (j : Job) : State :=
  let p := s.part j.req.part.val
  let s := s.setPart j.req.part.val (setCring p j.req.ring.val { cring p j.req.ring.val with wait := none })
  finish s j.id stAborted

/-- What an ABORT, which job `j` now carries as waiting for its end, does to it: stopped now, left to its engine, left to
its point of no return, or, where Table 10.8 gives no stop point, not abortable. -/
def abortJob (s : State) (id : Nat) (j : Job) : State :=
  let m := s.modJob j.id fun x => { x with abortBy := x.abortBy ++ [id] }
  let stop := fun (s : State) => finish s j.id stAborted
  match j.opcode.toNat with
  | 0x0501 =>
    if s.ipp.any fun x => match x.2 with | some w => w.begun && w.job == some j.id | none => false then m
    else stop (dropChosen m fun w => w.job == some j.id)
  | 0x0602 => if s.encs.any fun x => match x.2.work with | some w => w.job == some j.id | none => false then m else stop m
  | 0x0703 => if mayRun s j then m else uploadEnd m j stAborted
  | 0x0802 =>
    match pendingOf s j.id with
    | some (l, p) => if p.armed then m else dropPending m l p stAborted
    | none => m
  | 0x0803 =>
    match s.layers.find? fun x => x.2.destroy.contains j.id with
    | some (l, x) => if x.destroyArmed then m else stop (m.setLayer l { x with destroy := x.destroy.filter fun i => i != j.id })
    | none => m
  | 0x0A02 => dropWait m j
  | 0x0D01 | 0x0D02 => if j.running then m else stop m
  | 0x0E01 =>
    match (List.range 8).find? fun u => s.crcW u == some j.id with
    | some u => if pwrGranted s (pwrCrc u) then m else crcAssign (stop (pwrEnd (m.setCrcW u none) (pwrCrc u)))
    | none => stop m
  | _ => finish s id stNotAbortable (abortBody j.req.index j.req.ring.val 0)

/-- The completion of a descriptor that was fetched and not accepted. -/
def fetchedCpl (s : State) (p : Fin 16) (f : Fetched) (st : Nat) : Cpl :=
  let q := rerouted s (rawReq p f .error)
  { part := p.val, cring := q.cring.val, tag := q.tag, opcode := BitVec.ofNat 16 (rawOp f.raw), ring := f.ring, index := f.index
    status := BitVec.ofNat 16 st, body := 0, order := f.order }

def maskAbort : Nat := bodyMask [(16, 0, 32)]

/-- ABORT (R290). -/
def doAbort (q : Req) (s : State) : State :=
  soile s q 0x1201 maskAbort true fun s id =>
    let p := q.part.val
    match abortTarget s p (BitVec.ofNat 32 (q.u32 16)) id with
    | none => finish s id stAbortLate (cplBody [(16, 4, 0xFFFFFFFF)])
    | some (.fetched f) =>
      let s := { s with cpls := s.cpls ++ [fetchedCpl s q.part f stAborted] }
      let s := s.setPart p { s.part p with fetched := (s.part p).fetched.filter fun g => g.order != f.order }
      finish s id stComplete (abortBody f.index f.ring stAborted)
    | some (.ended c) => finish s id stAbortLate (abortBody c.index c.ring c.status.toNat)
    | some (.job j) => abortJob s id j
def execAbort (q : Req) (s : State) : Host.Outcome State Fault Refusal := .next (doAbort q s)

/-! ### Running a descriptor -/

/-- The command of an opcode (Table 10.4); ABORT is executed when it is fetched. -/
def cmdOf : Nat → Option (Req → State → State)
  | 0x0101 => some doPartCreate
  | 0x0102 => some doPartGrant
  | 0x0103 => some doPartQuota
  | 0x0104 => some doPartStop
  | 0x0105 => some doPartDestroy
  | 0x0201 => some doFlowAdd
  | 0x0202 => some doFlowCfg
  | 0x0203 => some doFlowStop
  | 0x0204 => some doFlowDel
  | 0x0205 => some doFlowSend
  | 0x0206 => some doFlowEgress
  | 0x0301 => some doStreamOpen
  | 0x0302 => some doStreamParams
  | 0x0303 => some doStreamClose
  | 0x0401 => some doDecBind
  | 0x0402 => some doDecUnbind
  | 0x0403 => some doDecFlush
  | 0x0501 => some doIppRun
  | 0x0502 => some doIppFollow
  | 0x0503 => some doIppUnfollow
  | 0x0601 => some doEncOpen
  | 0x0602 => some doEncPic
  | 0x0603 => some doEncRefresh
  | 0x0604 => some doEncClose
  | 0x0701 => some doSurfCreate
  | 0x0702 => some doSurfRelease
  | 0x0703 => some doSurfUpload
  | 0x0801 => some doLayerCreate
  | 0x0802 => some doLayerUpdate
  | 0x0803 => some doLayerDestroy
  | 0x0901 => some doSealGroup
  | 0x0902 => some doSeal
  | 0x0A01 => some doFenceSignal
  | 0x0A02 => some doFenceWait
  | 0x0B01 => some doHeadSet
  | 0x0B02 => some doHeadEnable
  | 0x0B03 => some doHeadWb
  | 0x0B04 => some doHeadLink
  | 0x0B05 => some doHeadAux
  | 0x0C01 => some doTchCfg
  | 0x0C02 => some doTchMap
  | 0x0C03 => some doTchBaseline
  | 0x0C04 => some doTchRebase
  | 0x0C05 => some doTchRaw
  | 0x0C06 => some doTchSelftest
  | 0x0C07 => some doTchRing
  | 0x0D01 => some doDceComp
  | 0x0D02 => some doDceDecomp
  | 0x0E01 => some doCrcRun
  | 0x0F01 => some doTimeAdj
  | 0x0F02 => some doTimeStep
  | 0x0F03 => some doTimeRead
  | 0x0F04 => some doTimePtpTx
  | 0x1001 => some doChnTxStream
  | 0x1002 => some doChnRxStream
  | 0x1003 => some doChnTxSurf
  | 0x1004 => some doChnRxSurf
  | 0x1005 => some doChnSend
  | 0x1006 => some doChnRxring
  | 0x1101 => some doRdnCkpt
  | 0x1102 => some doRdnShadow
  | 0x1103 => some doRdnSwap
  | 0x1104 => some doRdnTakeover
  | 0x1201 => some doAbort
  | _ => none

/-- A descriptor refused by its opcode or the reserved bits of its common fields: completed at once (R280, R287). -/
def refuseRaw (s : State) (q : Req) (op st : Nat) : State :=
  let x := accept s (rerouted s q) op
  finish x.1 x.2 st

/-- Runs a descriptor in the order of validation of R287, under the order in which it was fetched. -/
def runRaw (s : State) (p : Fin 16) (f : Fetched) (host : HostRead) : State :=
  let q := rawReq p f host
  let op := rawOp f.raw
  let s' := { s with nextFetch := f.order }
  let s' := if op = 0x0F01 ∨ op = 0x0F02 then timeReserved (op % 2 ^^^ 1) q (rawReserved f.raw) s' else s'
  let r := match cmdOf op with
    | none => refuseRaw s' q op stBadOpcode
    | some run => if rawReserved f.raw then refuseRaw s' q op stReserved else run q s'
  { r with nextFetch := s.nextFetch }

/-! ### Acceptance (R280) -/

/-- The head of a ring: its earliest descriptor not yet accepted. -/
def ringHead (s : State) (p r : Nat) : Option Fetched := (s.part p).fetched.find? fun f => f.ring == r

/-- Whether every earlier descriptor of a ring has completed (R280). -/
def earlierDone (s : State) (p : Nat) (f : Fetched) : Bool :=
  !(s.jobs.any fun j => j.req.part.val == p && j.req.ring.val == f.ring && decide (j.req.index.toNat < f.index.toNat))
    && !(s.cpls.any fun c => c.part == p && c.ring == f.ring && decide (c.index.toNat < f.index.toNat))

/-- The commands that read memory as they are validated: STREAM_PARAMS, FLOW_SEND, IPP_RUN, TCH_BASELINE, CHN_SEND. -/
def readsAtOnce (op : Nat) : Bool := [0x0302, 0x0205, 0x0501, 0x0C03, 0x1005].contains op

/-- Whether the head of a ring can be accepted now: its partition ACTIVE, no FENCE_WAIT holds the ring, a barrier's
predecessors done, room in the backlog, and no read that its validation makes is held at a gate. -/
def headReady (s : State) (p : Fin 16) (f : Fetched) : Bool :=
  let q := s.part p.val
  q.state == .active && (cring q f.ring).wait.isNone && (!rawBarrier f.raw || earlierDone s p.val f)
    && decide (q.backlog.length < 64)
    && (!readsAtOnce (rawOp f.raw) || (runRaw s p f .error).nextJob != s.nextJob)

/-- Whether no head of another ring that can be accepted was fetched before (R280). -/
def firstOfAll (s : State) (f : Fetched) : Bool :=
  (List.finRange 16).all fun p => (List.range 8).all fun r =>
    match ringHead s p.val r with
    | some g => decide (f.order ≤ g.order) || !headReady s p g
    | none => true

/-- CRING_FULL of a partition whose backlog holds back its descriptors (R284). -/
def cringFull (s : State) (p : Nat) : State :=
  if (s.part p).state == .active && decide (64 ≤ (s.part p).backlog.length) then raiseKey s p evCringFull 0 35 p [] else s

/-- A fetched descriptor is validated and accepted (R280, R287). -/
def doDescriptorAccept (p : Fin 16) (ring : Fin 8) (host : HostRead) (s : State) : State :=
  if !s.ctl.core || !s.ctl.mode.soile then s
  else match ringHead s p.val ring.val with
    | none => s
    | some f =>
      if !headReady s p f then cringFull s p.val
      else if !firstOfAll s f then s
      else
        let s := s.setPart p.val { s.part p.val with fetched := (s.part p.val).fetched.filter fun g => g.order != f.order }
        runRaw s p f host
def execDescriptorAccept (p : Fin 16) (ring : Fin 8) (host : HostRead) (s : State) : Host.Outcome State Fault Refusal :=
  .next (doDescriptorAccept p ring host s)

/-! ### Doorbell reads (R277-R279) -/

/-- What a read for a partition's rings brings. -/
inductive RingRead where
  | ok (bs : Bytes)
  | held
  | failed
  deriving DecidableEq, Repr

/-- A read of a partition's doorbell page, log area or rings by HIF: a failure on PCIe is cause DMA_FAULT,
a refused or unmapped one on HP4 cause GATE (R279); an ACTIVE partition moves to FAULTED. -/
def ringRead (s : State) (p addr n : Nat) (h : HostRead) : State × RingRead :=
  let q := s.part p
  if onPcie s p then
    let x := pcieRead s q.port h
    match x.2 with
    | some bs => (x.1, .ok (sliceB bs 0 n))
    | none => (if q.state = .active then faultPart x.1 p 6 else x.1, .failed)
  else
    let x := engRead s 34 p addr n
    match x.2.1 with
    | .ok => (x.1, .ok x.2.2)
    | .held => (s, .held)
    | _ => (if (x.1.part p).state = .active then faultPart x.1 p 7 else x.1, .failed)

/-- The size of a command ring as a power of two. -/
def cmdLog (s : State) (p r : Nat) : Nat := s.fld (PRT_SW_CR_CFG p r) 0 4

/-- A command ring whose producer index is out of reach stops (R279). -/
def ringFault (s : State) (p r : Nat) : State :=
  let q := s.part p
  raise (s.setPart p (setCring q r { cring q r with fault := true })) evRingFault 2 35 p []

/-- Fetches up to `fuel` descriptors of a ring, in index order; `hs` are what the reads bring. An ABORT is executed as it
is fetched (R290). Answers the state, the reads not used, and whether fetching may go on. -/
def fetchRing (p : Fin 16) (r base prod : Nat) : Nat → State → List HostRead → State × List HostRead × Bool
  | 0, s, hs => (s, hs, true)
  | fuel + 1, s, hs =>
    let c := cring (s.part p.val) r
    if c.fetch.toNat = prod then (s, hs, true)
    else if !s.ctl.mode.soile then (s, hs, false)
    else
      let x := ringRead s p.val (base + 64 * (c.fetch.toNat % 2 ^ cmdLog s p.val r)) 64 (hs.headD .error)
      match x.2 with
      | .ok raw =>
        let s := x.1
        let f : Fetched := ⟨r, c.fetch, raw, s.nextFetch⟩
        let s := { s.setPart p.val (setCring (s.part p.val) r { c with fetch := c.fetch + 1 }) with nextFetch := s.nextFetch + 1 }
        let s := if rawOp raw = 0x1201 then runRaw s p f .error
                 else s.setPart p.val { s.part p.val with fetched := (s.part p.val).fetched ++ [f] }
        fetchRing p r base prod fuel s hs.tail
      | _ => (x.1, hs.tail, false)

/-- The fetch from each enabled command ring in ascending order (R278, R279); entry into YIELD ends it (R288). -/
def fetchRings (p : Fin 16) (page : Bytes) : List Nat → State → List HostRead → State
  | [], s, _ => s
  | r :: rest, s, hs =>
    let q := s.part p.val
    let c := cring q r
    let prod := leNat (sliceB page (8 * r) 8)
    if !s.ctl.mode.soile then s
    else if !s.bit (PRT_SW_CR_CFG p.val r) 8 || c.fault then fetchRings p page rest s hs
    else if 2 ^ cmdLog s p.val r < (BitVec.ofNat 64 prod - c.fetch).toNat then
      let s := ringFault s p.val r
      if (s.part p.val).state == .active then fetchRings p page rest s hs else s
    else
      let x := fetchRing p r (s.pair (PRT_SW_CR_LO p.val r) (PRT_SW_CR_HI p.val r)) prod 32 s hs
      if x.2.2 && (x.1.part p.val).state == .active then fetchRings p page rest x.1 x.2.1 else x.1

/-- The consumer indices of the completion rings, as the page gives them (R277, R284). -/
def takeIndices (s : State) (p : Nat) (page : Bytes) : State :=
  (cringsOn s p).foldl (fun s c =>
    s.setPart p (setKring (s.part p) c { kring (s.part p) c with cons := BitVec.ofNat 64 (leNat (sliceB page (0x40 + 8 * c) 8)) })) s

/-- The consumer count of the partition's log ring (R482). -/
def takePlog (s : State) (p : Nat) (h : HostRead) : State × Bool :=
  if !plogOn s p then (s, true)
  else
    let x := ringRead s p (plogBase s p) 8 h
    match x.2 with
    | .ok bs => (x.1.setPart p { x.1.part p with logCons := BitVec.ofNat 64 (leNat bs) }, true)
    | .held => (x.1, true)
    | .failed => (x.1, false)

/-- A read of a partition's doorbell page (R278): an ACTIVE partition's indices and descriptors; one in STOPPING has its
consumer indices read so that its backlog can empty (R284). `descs` are the reads of descriptors in the order they are
made. -/
def doDoorbellRead (p : Fin 16) (page : HostRead) (descs : List HostRead) (plogCons : HostRead) (s : State) : State :=
  let q := s.part p.val
  if !s.ctl.core || !(q.state == .active || q.state == .stopping) then s
  else
    let x := ringRead s p.val (doorbell s p.val) 128 page
    match x.2 with
    | .ok bs =>
      let y := takePlog (takeIndices x.1 p.val bs) p.val plogCons
      if y.2 && s.ctl.mode.soile && (y.1.part p.val).state == .active then fetchRings p bs (List.range 8) y.1 descs else y.1
    | _ => x.1
def execDoorbellRead (p : Fin 16) (page : HostRead) (descs : List HostRead) (plogCons : HostRead) (s : State) :
    Host.Outcome State Fault Refusal := .next (doDoorbellRead p page descs plogCons s)

end Sys2Proof.Machine
end

