-- ==== Sys2Proof/Machine/DeskCores.lean ====
section
/-!
DEFINITION. Desk cores and the event concentrator's commands (chapter 12): software-set requests, claims and
ends-of-interrupt, the hardware inputs, start and reset of a core, sleep, wake and the machine timer.
-/

namespace Sys2Proof.Machine

/-! ### Requests -/

/-- A source an EVC_SETPEND or EVC_CLRPEND write can name: 1-511 and enabled (R330). -/
def evcNamed (s : State) (v : Word) : Option Nat :=
  let i := bitsOf v.toNat 0 10
  if srcId i && decide (0 < srcPrio s i) then some i else none

/-- EVC_SETPEND (R330): as if the input had fired. While the EVC stands still for THERMAL_SHUTDOWN no write of it has an effect, its
state is kept (R326; log 153). -/
def setpendWrite (v : Word) (s : State) : State :=
  if !evcRuns s then s
  else match evcNamed s v with
  | some i => evcSettle (setPend s i true)
  | none => evcSettle s

def doEvcSetpend (a : Access) (v : Word) (s : State) : State := regAccess s a EVC_SETPEND v (setpendWrite v)
def execEvcSetpend (a : Access) (v : BitVec 32) (s : State) : Host.Outcome State Fault Refusal := .next (doEvcSetpend a v s)

/-- EVC_CLRPEND (R330): only the pending bit; a LEVEL source whose input is high becomes pending again (R329). -/
def clrpendWrite (v : Word) (s : State) : State :=
  if !evcRuns s then s
  else match evcNamed s v with
  | some i => evcSettle (sampleLevel (s.setSrc i { s.src i with pending := false }) i)
  | none => evcSettle s

def doEvcClrpend (a : Access) (v : Word) (s : State) : State := regAccess s a EVC_CLRPEND v (clrpendWrite v)
def execEvcClrpend (a : Access) (v : BitVec 32) (s : State) : Host.Outcome State Fault Refusal := .next (doEvcClrpend a v s)

/-! ### Claim and end-of-interrupt -/

/-- A claim of core `k` (R335). -/
def claimWrite (k : Nat) (s : State) : State :=
  if !evcRuns s then s
  else
  let s := evcSettle s
  let d := s.desk k
  match claimOf s k with
  | some i =>
    let p := srcPrio s i
    let s := s.setSrc i { s.src i with pending := false, serv := true, core := k }
    let s := s.setDesk k { d with stack := (i, p) :: d.stack, signalled := false }
    evcSettle (s.resultDone (EVC_CORE_CLAIMED k) (i + p * 2 ^ 10))
  | none =>
    let s := if d.signalled then s.inc EVC_SPURIOUS else s
    evcSettle ((s.setDesk k { d with signalled := false }).resultDone (EVC_CORE_CLAIMED k) (if d.signalled then 1023 else 0))

def doEvcClaim (a : Access) (k : Fin 4) (v : Word) (s : State) : State := regAccess s a (EVC_CORE_CLAIM k.val) v (claimWrite k.val)
def execEvcClaim (a : Access) (k : Fin 4) (v : BitVec 32) (s : State) : Host.Outcome State Fault Refusal := .next (doEvcClaim a k v s)

/-- An end-of-interrupt of core `k` (R336). -/
def eoiWrite (k : Nat) (v : Word) (s : State) : State :=
  let i := bitsOf v.toNat 0 10
  let d := s.desk k
  let wrong := fun (s : State) => raiseKey (evcSettle ((s.setDesk k { d with eoiErr := true }).inc EVC_EOI_ERR)) k evEoiMismatch 0 37 31 []
  if !evcRuns s then s
  else if i = 0 ∨ i = 1023 then evcSettle s
  else match d.stack with
    | e :: rest =>
      if e.1 = i then evcSettle (srcComplete (s.setDesk k { d with stack := rest }) i)
      else wrong s
    | [] => wrong s

def doEvcEoi (a : Access) (k : Fin 4) (v : Word) (s : State) : State := regAccess s a (EVC_CORE_EOI k.val) v (eoiWrite k.val v)
def execEvcEoi (a : Access) (k : Fin 4) (v : BitVec 32) (s : State) : Host.Outcome State Fault Refusal := .next (doEvcEoi a k v s)

/-- The hardware input of a source of Table 12.2 takes a level (R328, R329, R338). -/
def doEvcSourceInput (id : Fin 512) (level : Bool) (s : State) : State := if id.val ≤ 57 then evcInput s id.val level else s
def execEvcSourceInput (id : Fin 512) (level : Bool) (s : State) : Host.Outcome State Fault Refusal := .next (doEvcSourceInput id level s)

/-- A write of a source's configuration (R328): priority 0 also clears pending. -/
def srcCfgWrite (i : Nat) (v : Word) (s : State) : State :=
  if !evcRuns s then s
  else
  let s := plainWrite s (EVC_SRC_CFG i) v
  let s := if srcPrio s i = 0 then s.setSrc i { s.src i with pending := false } else s
  evcSettle (sampleLevel s i)

/-! ### Run, sleep, wake -/

/-- Starts core `k` in machine mode (R323, Table 12.5): its execution is the RISC-V specification's. -/
def deskStart (s : State) (k : Nat) : State := evcSettle ((deskFresh s k).wrapInc (DSK_CORE_STATUS k) 16 16)

/-- A write of DSK_CTRL (R323, R325, R337). While the cores stand still for THERMAL_SHUTDOWN their state is kept (R326; log 153). -/
def deskRun (v : Word) (s : State) : State :=
  if !evcRuns s then s
  else
  let old := s.reg DSK_CTRL
  let s := plainWrite s DSK_CTRL v
  evcSettle (s.each 4 fun s k =>
    let was := bitOf old.toNat k
    let now := bitOf v.toNat k
    if now && !was then deskStart s k else if was && !now then deskReset s k else s)

def doDskRunWrite (a : Access) (v : Word) (s : State) : State := regAccess s a DSK_CTRL v (deskRun v)
def execDskRunWrite (a : Access) (v : BitVec 32) (s : State) : Host.Outcome State Fault Refusal := .next (doDskRunWrite a v s)

/-- Core `k` executes WFI (R325): where an interrupt that its mie enables is pending it goes on at once; otherwise it waits, and with
wfi_stop it is asleep, and with all four asleep the desk PLL may be gated. What its mie holds is its own execution's, a free value
(log 18). -/
def doWfiSleep (k : Fin 4) (s : State) : State :=
  let d := s.desk k.val
  if !evcRuns s || coreReset s k.val || d.halted || d.wfi then s
  else
    let s := (s.setDesk k.val { d with mie := Config.mieBits s.free }).draw
    if wfiOver s k.val then s
    else evcSettle (s.setDesk k.val { s.desk k.val with wfi := true, asleep := s.bit (DSK_CORE_CFG k.val) 0 })

def execWfiSleep (k : Fin 4) (s : State) : Host.Outcome State Fault Refusal := .next (doWfiSleep k s)

/-- The clock of core `k` runs again; the core leaves its WFI, and its wake latch clears, where mip & mie is non-zero, and waits on
awake where not (R325, R338). -/
def deskWake (s : State) (k : Nat) : State :=
  evcSettle (s.setDesk k { s.desk k with asleep := false })

/-- An interrupt of core `k` that does not pass through the EVC rises: a core in WFI that enables it goes on (R324, R325). -/
def deskPending (s : State) (k : Nat) : State := if evcRuns s && (s.desk k).wfi && wfiOver s k then deskWake s k else s

/-- The wake latch of core `k` restarts its clock (R338). -/
def doWakeLatch (k : Fin 4) (s : State) : State :=
  if evcRuns s && (s.desk k.val).asleep && (s.desk k.val).wake then deskWake s k.val else s

def execWakeLatch (k : Fin 4) (s : State) : Host.Outcome State Fault Refusal := .next (doWakeLatch k s)

/-- mhartid of core `k` (R320). -/
def mhartid (k : Fin 4) : Nat := k.val

/-- The machine timer of core `k` has expired: mip.MTIP is 1, and a core that waits with it enabled goes on (R324, R325). -/
def doMachineTimerExpiry (k : Fin 4) (s : State) : State := if timerDue s k.val then deskPending s k.val else s

def execMachineTimerExpiry (k : Fin 4) (s : State) : Host.Outcome State Fault Refusal := .next (doMachineTimerExpiry k s)

/-- Writes of DSK registers (R323, R324, R340): PART and VEC only while the core is held in reset; a software interrupt
ends the WFI of a core that enables it. -/
def deskWrite (a : Access) (addr : Nat) (v : Word) (s : State) : State :=
  let off := addr % 0x10000
  if off = 0 then deskRun v s
  else if off < 0x100 ∨ 0x200 ≤ off then plainWrite s addr v
  else
    let k := (off - 0x100) / 0x40
    match (off - 0x100) % 0x40 with
    | 0x00 | 0x04 | 0x08 => if coreReset s k then plainWrite s addr v else accessEv s evAccessState a addr
    | 0x10 =>
      let s := plainWrite s addr v
      if bitOf v.toNat 0 then deskPending s k else s
    | _ => plainWrite s addr v

end Sys2Proof.Machine
end

