-- ==== Sys2Proof/Machine/Lanes.lean ====
section
/-!
DEFINITION. The lane quads (chapter 17): use and test of a quad, the lane states that protocols and force fields request,
equalisation, bit-slip, pattern generators and checkers, loops (R458–R477).
-/

namespace Sys2Proof.Machine

/-! ### Uses and lane states -/

/-- The use code of a quad (Table 17.1): 0 PCIE, 1 ETHERNET, 2 CHAIN, 3 DISPLAYPORT, 4 UNUSED. -/
def quadUse (s : State) (n : Nat) : Nat := s.fld (QD_CFG n) 0 3
/-- Whether a quad is detached for test (R471). -/
def quadTest (s : State) (n : Nat) : Bool := s.bit (QD_CFG n) 3

/-- Whether the link of some head drives DisplayPort lane `4n + l` (R220, Table 17.3). -/
def dpLane (s : State) (n l : Nat) : Bool :=
  s.heads.any fun x => x.2.tx != .dark
    && (let r := sourceLanes x.1 x.2.src; decide (r.1 ≤ 4 * n + l) && decide (4 * n + l < r.1 + x.2.lanes))

/-- The lane state that the protocol of a quad requests (Table 17.3): 0 P0, 1 P1, 2 P2. A detached quad's lanes run. -/
def laneAsks (s : State) (n l : Nat) (tx : Bool) : Nat :=
  let on : Bool :=
    if quadTest s n then true
    else match quadUse s n with
      | 0 => s.bit (HIF_HP_STATUS n) 0 && decide (l < s.fld (HIF_HP_STATUS n) 4 3)
      | 1 => let b := if n = 4 then 0 else 4; (List.range 4).any fun i => portExists s (b + i) && (ethLanes s (b + i)).contains l
      | 2 => (s.port (n - 5)).state != .down && decide (s.fld (CHN_P_CTRL (n - 5)) 0 2 ≠ 0)
      | 3 => tx && dpLane s n l
      | _ => false
  if !on then 2 else if !quadTest s n && quadUse s n == 0 && Config.pcieL1 n s.island then 1 else 0

/-- The lane state of a direction (R463, R464): 0 P0, 1 P1, 2 P2. -/
def laneState (s : State) (n l : Nat) (tx : Bool) : Nat :=
  let f := s.fld (QD_LANE_CTRL n l) (if tx then 2 else 4) 2
  if f = 0 then laneAsks s n l tx else f - 1

/-- Whether lane PLL A (`b` false) or B of a quad runs (R460, R463): some lane it drives has a direction outside P2. -/
def lanePll (s : State) (n : Nat) (b : Bool) : Bool :=
  let live := fun l => laneState s n l true != 2 || laneState s n l false != 2
  let four : Bool := s.heads.any fun x => x.2.tx != .dark && x.2.lanes == 4 && (sourceLanes x.1 x.2.src).1 == 4 * n
  let all : Bool := quadTest s n || quadUse s n != 3 || four
  if b then !all && (live 2 || live 3) else live 0 || live 1 || (all && (live 2 || live 3))

/-- The taps in force (R468). -/
def tapsNow (s : State) (n l : Nat) : Word :=
  if s.bit (QD_LANE_CTRL n l) 6 || quadUse s n == 1 || quadUse s n == 2 then s.reg (QD_LANE_TXEQ n l) else s.reg (QD_LANE_TXEQ_ACT n l)

/-! ### Checkers -/

/-- Whether a pattern code runs (Table 17.4). -/
def patternOn (c : Nat) : Bool := decide (1 ≤ c) && decide (c ≤ 5)

/-- A checker loses lock, or stops. -/
def unlockLane (s : State) (n l : Nat) : State :=
  let s := (settleBits s n l).setBit (QD_LANE_PRBS_STAT n l) 0 false
  { s with lockAt := tset (fun _ => 0) s.lockAt (laneNo n l) 0 }

/-- Whether a quad exchanges anything: its domain is powered. -/
def quadOn (s : State) (n : Nat) : Bool := s.powered (52 + n)

/-- A checker that is enabled locks (R473). -/
def doPrbsCheckerLock (n : Fin 16) (l : Fin 4) (s : State) : State :=
  let n := n.val
  let l := l.val
  if !quadOn s n || !quadTest s n || !patternOn (s.fld (QD_LANE_PRBS n l) 4 3) || s.bit (QD_LANE_PRBS_STAT n l) 0 then s
  else
    let s := s.setBit (QD_LANE_PRBS_STAT n l) 0 true
    { s with lockAt := tset (fun _ => 0) s.lockAt (laneNo n l) (s.island + 1) }
def execPrbsCheckerLock (n : Fin 16) (l : Fin 4) (s : State) : Host.Outcome State Fault Refusal := .next (doPrbsCheckerLock n l s)

/-- 64 of 128 bits mismatch (R473). -/
def doPrbsLockLost (n : Fin 16) (l : Fin 4) (s : State) : State :=
  if !quadOn s n.val || !s.bit (QD_LANE_PRBS_STAT n.val l.val) 0 then s
  else (unlockLane s n.val l.val).setBit (QD_LANE_PRBS_STAT n.val l.val) 1 true
def execPrbsLockLost (n : Fin 16) (l : Fin 4) (s : State) : Host.Outcome State Fault Refusal := .next (doPrbsLockLost n l s)

/-- The receiver's adaptation converges (R469). -/
def doAdaptationConverged (n : Fin 16) (l : Fin 4) (ctle : BitVec 4) (dfe : BitVec 64) (s : State) : State :=
  let n := n.val
  let l := l.val
  if !quadOn s n || laneState s n l false ≠ 0 || s.bit (QD_LANE_CTRL n l) 7 then s
  else
    let s := (s.setReg (QD_LANE_RXEQ n l) (BitVec.ofNat 32 ctle.toNat)).setPair (QD_LANE_DFE_LO n l) (QD_LANE_DFE_HI n l) dfe.toNat
    s.setFld (QD_LANE_STATE n l) 4 3 7
def execAdaptationConverged (n : Fin 16) (l : Fin 4) (ctle : BitVec 4) (dfe : BitVec 64) (s : State) : Host.Outcome State Fault Refusal :=
  .next (doAdaptationConverged n l ctle dfe s)

/-- A far-end loop's buffer re-centres (R475). -/
def doLoopRecentre (n : Fin 16) (l : Fin 4) (s : State) : State :=
  if quadOn s n.val && quadTest s n.val && s.fld (QD_LANE_LOOP n.val l.val) 0 2 == 2 then s.inc (QD_LANE_LOOPSLIP n.val l.val) else s
def execLoopRecentre (n : Fin 16) (l : Fin 4) (s : State) : Host.Outcome State Fault Refusal := .next (doLoopRecentre n l s)

/-! ### Register writes -/

/-- Whether some protocol holds a lane of QD15 (R459). -/
def qd15Held (s : State) : Bool :=
  s.fld ETH_CFG 4 3 != 0 || s.heads.any fun x => x.2.tx != .dark && x.2.src != 0

/-- The protocol of lane `l` of a quad loses its signal (R464, R471): the host link or the Ethernet port goes down, the chain
lane loses lock. What a DisplayPort sink makes of it comes with the sink's own report (R226, R229). -/
def laneLost (s : State) (n l : Nat) : State :=
  match quadUse s n with
  | 0 => if decide (l < s.fld (HIF_HP_STATUS n) 4 3) then hostDown s n else s
  | 1 =>
    let b := if n = 4 then 0 else 4
    s.each 4 fun s i => if portExists s (b + i) && (ethLanes s (b + i)).contains l then ethDown s (b + i) else s
  | 2 => lockLost s (n - 5) l
  | _ => s

/-- A write of QDn_CFG (R459, R461, R471): use on QD15, test in TEST, pcie_clk on QD0–QD3 while the link is down. A field
that may not take the value written stays, as ACCESS_STATE. -/
def qdCfgWrite (a : Access) (n : Nat) (v : Word) (s : State) : State :=
  let r := QD_CFG n
  let use := bitsOf v.toNat 0 3
  let test := bitOf v.toNat 3
  let clk := bitOf v.toNat 4
  let useBad : Bool := n == 15 && use != quadUse s n && (!([1, 3, 4] : List Nat).contains use || qd15Held s)
  let testBad : Bool := test && s.ctl.mode != .test
  let clkBad : Bool := decide (n < 4) && clk != s.bit r 4 && linkUp s n
  let was := quadTest s n
  let s := if n = 15 && !useBad then s.setFld r 0 3 use else s
  let s := if testBad then s else s.setBit r 3 test
  let s := if decide (n < 4) && !clkBad then s.setBit r 4 clk else s
  let s := if was && !quadTest s n then s.each 4 fun s l => unlockLane s n l else s
  let s := if !was && quadTest s n then s.each 4 fun s l => laneLost s n l else s
  if useBad || testBad || clkBad then accessEv s evAccessState a r else s

def doQd15UseWrite (a : Access) (v : Word) (s : State) : State := regAccess s a (QD_CFG 15) v (qdCfgWrite a 15 v)
def execQd15UseWrite (a : Access) (v : BitVec 32) (s : State) : Host.Outcome State Fault Refusal := .next (doQd15UseWrite a v s)
def doQdTestWrite (a : Access) (n : Fin 16) (v : Word) (s : State) : State := regAccess s a (QD_CFG n.val) v (qdCfgWrite a n.val v)
def execQdTestWrite (a : Access) (n : Fin 16) (v : BitVec 32) (s : State) : Host.Outcome State Fault Refusal := .next (doQdTestWrite a n v s)

/-- A write of QDn_LANEl_SLIP (R470): on chain lanes and in test. -/
def slipWrite (n l : Nat) (v : Word) (s : State) : State :=
  if bitOf v.toNat 0 && (quadTest s n || quadUse s n == 2) then slipLane s n l else s

def doLaneSlip (a : Access) (n : Fin 16) (l : Fin 4) (v : Word) (s : State) : State :=
  regAccess s a (QD_LANE_SLIP n.val l.val) v (slipWrite n.val l.val v)
def execLaneSlip (a : Access) (n : Fin 16) (l : Fin 4) (v : BitVec 32) (s : State) : Host.Outcome State Fault Refusal :=
  .next (doLaneSlip a n l v s)

/-- Inverts the next `k` bits of a lane's generator (R474); through a near-end loop its own locked checker counts them. -/
def inject (s : State) (n l k : Nat) : State :=
  let s := { s with lanesQd := tset (fun _ => 0) s.lanesQd (laneNo n l) (tget (fun _ => 0) s.lanesQd (laneNo n l) + k) }
  if s.fld (QD_LANE_LOOP n l) 0 2 = 1 && s.bit (QD_LANE_PRBS_STAT n l) 0 then s.add (QD_LANE_ERR n l) 0 32 k else s

/-- A write of QDn_LANEl_PRBS (R472–R474). -/
def prbsWrite (a : Access) (n l : Nat) (v : Word) (s : State) : State :=
  let r := QD_LANE_PRBS n l
  let len := bitsOf v.toNat 16 6
  if len = 0 then accessEv s evAccessRange a r
  else
    let s := if bitsOf v.toNat 4 3 ≠ s.fld r 4 3 && s.bit (QD_LANE_PRBS_STAT n l) 0 then unlockLane s n l else s
    let s := plainWrite s r v
    if !quadTest s n || !patternOn (s.fld r 0 3) then s
    else
      let s := if bitOf v.toNat 8 then inject s n l 1 else s
      if bitOf v.toNat 9 then inject s n l len else s

def doInjectSingle (a : Access) (n : Fin 16) (l : Fin 4) (v : Word) (s : State) : State :=
  regAccess s a (QD_LANE_PRBS n.val l.val) v (prbsWrite a n.val l.val v)
def execInjectSingle (a : Access) (n : Fin 16) (l : Fin 4) (v : BitVec 32) (s : State) : Host.Outcome State Fault Refusal :=
  .next (doInjectSingle a n l v s)
def doInjectBurst (a : Access) (n : Fin 16) (l : Fin 4) (v : Word) (s : State) : State :=
  regAccess s a (QD_LANE_PRBS n.val l.val) v (prbsWrite a n.val l.val v)
def execInjectBurst (a : Access) (n : Fin 16) (l : Fin 4) (v : BitVec 32) (s : State) : Host.Outcome State Fault Refusal :=
  .next (doInjectBurst a n l v s)

/-- A write of QDn_TEST_RATE (R471): while test is 1, within its range; counted bits are settled at the old rate. -/
def testRateWrite (a : Access) (n : Nat) (v : Word) (s : State) : State :=
  let k := bitsOf v.toNat 0 25
  if !quadTest s n then accessEv s evAccessState a (QD_TEST_RATE n)
  else if k < 1250000 ∨ 32000000 < k then accessEv s evAccessRange a (QD_TEST_RATE n)
  else plainWrite (s.each 4 fun s l => settleBits s n l) (QD_TEST_RATE n) v

/-- Whether the stream that a lane's checker receives is inverted: by rx_inv, and through a near-end loop by tx_inv (R466, R475). -/
def streamInv (s : State) (n l : Nat) : Bool :=
  xor (s.bit (QD_LANE_CTRL n l) 1) (s.fld (QD_LANE_LOOP n l) 0 2 == 1 && s.bit (QD_LANE_CTRL n l) 0)

/-- The stream of a locked checker turns into its inverse (R466, R473): the next 64 bits mismatch, are counted, and end its lock. -/
def invertStream (s : State) (n l : Nat) : State :=
  if s.bit (QD_LANE_PRBS_STAT n l) 0 then ((unlockLane s n l).setBit (QD_LANE_PRBS_STAT n l) 1 true).add (QD_LANE_ERR n l) 0 32 64 else s

/-- A write of QDn_LANEl_CTRL (R464): the force fields in TEST alone; a lane forced out of P0 fails its protocol. A receiver that enters P0
adapts anew (R469). An inverted stream is lost to the lane's checker (R466). -/
def laneCtrlWrite (a : Access) (n l : Nat) (v : Word) (s : State) : State :=
  let was := laneState s n l false
  let deaf := laneDeaf s n l
  let inv := streamInv s n l
  let s := plainWrite s (QD_LANE_CTRL n l) v
  let s := if inv != streamInv s n l then invertStream s n l else s
  let s := if was ≠ 0 && laneState s n l false = 0 then s.setFld (QD_LANE_STATE n l) 4 3 0 else s
  let s := if !deaf && laneDeaf s n l then laneLost s n l else s
  if s.ctl.mode != .test && bitsOf v.toNat 2 4 != 0 then accessEv s evAccessState a (QD_LANE_CTRL n l) else s

/-- A write of QDn_LANEl_TXEQ (R467, R468). -/
def txeqWrite (a : Access) (n l : Nat) (v : Word) (s : State) : State :=
  let pre := bitsOf v.toNat 0 6
  let main := bitsOf v.toNat 8 6
  let post := bitsOf v.toNat 16 6
  if 63 < pre + main + post ∨ main < 16 + pre + post then accessEv s evAccessRange a (QD_LANE_TXEQ n l)
  else plainWrite s (QD_LANE_TXEQ n l) v

/-- A write of a quad's register, lane registers by their offset in the lane. Frame counts exist on QD4 and QD15 (R476). -/
def quadWrite (a : Access) (n off : Nat) (v : Word) (s : State) : State :=
  let addr := (52 + n) * 0x10000 + off
  if off = 0 then qdCfgWrite a n v s
  else if off = 8 then testRateWrite a n v s
  else if off < 0x100 ∨ 0x200 ≤ off then (if n = 4 ∨ n = 15 then plainWrite s addr v else s)
  else
    let l := (off - 0x100) / 0x40
    match off % 0x40 with
    | 0x00 => laneCtrlWrite a n l v s
    | 0x08 => txeqWrite a n l v s
    | 0x1C => slipWrite n l v s
    | 0x20 => prbsWrite a n l v s
    | 0x2C | 0x30 => plainWrite (settleBits s n l) addr v
    | _ => plainWrite s addr v

/-- QDn_LANEl_STATE as it reads (Table 17.7). -/
def laneStateWord (s : State) (n l : Nat) : Word :=
  let rx := laneState s n l false
  let seen := if rx = 0 then s.fld (QD_LANE_STATE n l) 4 3 else 0
  BitVec.ofNat 32 (laneState s n l true + rx * 4 + seen * 16 + s.fld (QD_LANE_STATE n l) 16 7 * 2 ^ 16)

/-- A read of a quad's register. -/
def quadRead (s : State) (n off : Nat) : Word :=
  let addr := (52 + n) * 0x10000 + off
  if off = 4 then BitVec.ofNat 32 (Bool.nat (lanePll s n false) + Bool.nat (lanePll s n true) * 2)
  else if off < 0x100 ∨ 0x200 ≤ off then s.reg addr
  else
    let l := (off - 0x100) / 0x40
    match off % 0x40 with
    | 0x04 => laneStateWord s n l
    | 0x0C => tapsNow s n l
    | 0x2C => BitVec.ofNat 32 (laneBits s n l)
    | 0x30 => BitVec.ofNat 32 (laneBits s n l / 2 ^ 32)
    | _ => s.reg addr

end Sys2Proof.Machine
end

