-- ==== Sys2Proof/Machine/RegRead.lean ====
section
/-!
DEFINITION. What a register reads (R6, R8): the stored word, and for the registers that show flows, contexts, heads,
partitions, gates, sources, ports, jobs or the fuses, the word their table lays out. One function per block.
-/

namespace Sys2Proof.Machine

/-- A word from fields: value, lowest bit, width. -/
def wordOf (fs : List (Nat × Nat × Nat)) : Word :=
  BitVec.ofNat 32 (fs.foldl (fun n f => n + f.1 % 2 ^ f.2.2 * 2 ^ f.2.1) 0)

/-- The number whose bit `i` says whether `f i` holds, for `i` below `n`. -/
def maskOf (n : Nat) (f : Nat → Bool) : Nat := (List.range n).foldl (fun m i => m + Bool.nat (f i) * 2 ^ i) 0

/-- How many numbers below `n` satisfy `f`. -/
def countOf (n : Nat) (f : Nat → Bool) : Nat := ((List.range n).filter f).length

/-- The low and the high word of a 64-bit quantity. -/
def loWord (v : Nat) : Word := BitVec.ofNat 32 v
def hiWord (v : Nat) : Word := BitVec.ofNat 32 (v / 2 ^ 32)

/-! ### AO domain: SYS, AO, MGT (Tables 1.7–1.11, 16.11, 16.12) -/

def readSys (s : State) (off : Nat) : Word :=
  match off with
  | 0x00 => wordOf [(sysPart s, 16, 16), (0x10, 8, 8)]
  | 0x04 => wordOf [(s.nHeads, 0, 5), (s.nDec, 8, 5), (s.nEnc, 16, 4), (s.nTch, 24, 2)]
  | 0x08 => wordOf [(s.straps.toNat, 0, 4)]
  | 0x30 => wordOf [(1, 0, 1), (Bool.nat s.ctl.ring, 1, 1), (Bool.nat s.ctl.ring, 2, 1), (Bool.nat s.ctl.core, 3, 1)]
  | o => s.reg o

def readAo (s : State) (off : Nat) : Word :=
  match off with
  | 0x00 => aoMode s
  | 0x14 => loWord s.hold.sec.toNat
  | 0x18 => hiWord s.hold.sec.toNat
  | 0x1C => wordOf [(s.hold.ticks.toNat, 0, 15), (Bool.nat s.hold.isSet, 31, 1)]
  | 0x24 => wordOf [(s.ctl.resets.toNat, 0, 3)]
  | o => s.reg (0x10000 + o)

def readMgt (s : State) (off : Nat) : Word :=
  if off = 0 then wordOf [(0x58 + s.straps.toNat % 8, 0, 7)] else s.reg (0x20000 + off)

/-! ### CLK, PWR, TB (Tables 16.13, 16.14, 3.8–3.17) -/

def readClk (s : State) (off : Nat) : Word :=
  let w := s.reg (0x30000 + off)
  if off % 0x10 = 4 ∧ off < 0x100 ∧ bitOf w.toNat 0 then wordOf [(1, 0, 1), (Bool.nat (s.pllLocked (off / 0x10)), 1, 1), (pllKhz s (off / 0x10), 8, 24)] else w

def readPwr (s : State) (off : Nat) : Word :=
  match off with
  | 0x04 => wordOf [(pwrR s, 0, 11), (pwrG s, 16, 11)]
  | 0x08 => wordOf [(maskOf 6 fun c => s.pwr.items.any fun i => i.cls == c && !i.granted && !i.ended, 0, 6)]
  | o => s.reg (0x40000 + o)

/-- The ms of device time since the last chain measurement, saturating at 4,095 (Table 3.15). It follows a step or a new rate of
the timebase, and is 0 where a step has set the time back before it: the spec does not say. DESIGN CHOICE (log 123). -/
def measAge (s : State) : Nat :=
  match s.tbase.measAt with
  | some t => capAt 4095 ((s.since t.toNat).toNat / 1000000)
  | none => 0

def readTb (s : State) (off : Nat) : Word :=
  match off with
  | 0x50 => BitVec.ofNat 32 s.margin
  | 0x84 => putBits (s.reg TB_CHN_MEAS_STATUS) 4 12 (measAge s)
  | o =>
    if 0x400 ≤ o ∧ o < 0x600 ∧ (o % 0x40 = 0x24 ∨ o % 0x40 = 0x28) then
      BitVec.ofNat 32 (tgRefAt s ((o - 0x400) / 0x40) / (if o % 0x40 = 0x24 then 1 else 2 ^ 32))
    else s.reg (0x50000 + o)

/-! ### ETH, FLW, STR (Tables 4.9–4.11) -/

def readEth (s : State) (off : Nat) : Word :=
  if 0x400 ≤ off ∧ off < 0x480 ∧ off % 0x10 = 0 then
    let e := s.egr ((off - 0x400) / 0x10)
    wordOf [(Bool.nat e.enabled, 0, 1), (e.head, 8, 4)]
  else s.reg (0x60000 + off)

def readFlw (s : State) (off : Nat) : Word :=
  let x := s.flow (s.fld FLW_SEL 0 10)
  let y := s.flow (primary s (s.fld FLW_SEL 0 10))   -- a merged pair has one sequence state and one mapping (R100)
  match off with
  | 0x04 => wordOf [((s.flows.filter fun f => f.2.state != .free).length, 0, 11),
                    ((s.flows.filter fun f => f.2.state == .running).length, 16, 11)]
  | 0x14 => wordOf [(x.state.code, 0, 2), (x.mode, 2, 3), (Bool.nat y.synced, 5, 1), (x.partner.getD 0x3FF, 16, 10)]
  | 0x18 => x.nPkts | 0x1C => x.nLost | 0x20 => x.nLate | 0x24 => x.nDup | 0x28 => x.nDrop | 0x2C => x.nUnsup
  | 0x30 => x.nAus | 0x34 => x.nAuLoss | 0x38 => x.nAuDrop | 0x3C => x.nRecov
  | 0x40 => wordOf [(Bool.nat y.mapValid, 0, 1), (srAge s y, 1, 15), (x.nImpl.toNat, 16, 16)]
  | o => s.reg (0x70000 + o)

/-- The lowest flow that names a context (Table 4.11). -/
def namingFlow (s : State) (c : Nat) : Option Nat := (s.flows.find? fun f => f.2.ctx == some c).map (·.1)

def readStr (s : State) (off : Nat) : Word :=
  let i := s.fld STR_SEL 0 8
  let c := s.ctx i
  match off with
  | 0x00 => wordOf [((s.ctxs.filter fun x => x.2.state != .closed).length, 0, 9)]
  | 0x14 => wordOf [(Bool.nat (c.state != .closed), 0, 1), (c.codec, 1, 2), (c.queue.length, 4, 5), ((namingFlow s i).getD 0x3FF, 16, 10)]
  | 0x18 => c.nAus | 0x1C => c.nOvf
  | 0x20 => loWord c.lastCap.toNat | 0x24 => hiWord c.lastCap.toNat
  | o => s.reg (0x80000 + o)

/-! ### DEC, IPP, ENC (Tables 5.11, 6.11, 6.12) -/

/-- The codes of Table 5.4. -/
def CtxState.code : CtxState → Nat
  | .closed => 0 | .opened => 1 | .seeking => 2 | .decoding => 3 | .halted => 4 | .draining => 5

/-- DEC_COREc_INFO. -/
def coreInfo (s : State) (c : Nat) : Word :=
  let cur := s.ctxs.find? fun x => match x.2.dec with | some d => d.works.contains c | none => false
  wordOf [((s.ctxs.filter fun x => x.2.cores.getLsbD c).length, 0, 8), ((cur.map (·.1)).getD 0, 8, 8), (Bool.nat cur.isSome, 16, 1)]

def readDec (s : State) (off : Nat) : Word :=
  let i := s.fld DEC_SEL 0 8
  let c := s.ctx i
  if 0x10 ≤ off ∧ off < 0x50 ∧ off % 4 = 0 then wordOf [(coreLoad s ((off - 0x10) / 4), 0, 29)]
  else if 0x50 ≤ off ∧ off < 0x90 ∧ off % 4 = 0 then coreInfo s ((off - 0x50) / 4)
  else match off with
  | 0x000 => wordOf [(2 ^ s.nDec - 1, 0, 16), (maskOf 16 (coreDecodes s), 16, 16)]
  | 0x104 => wordOf [(c.state.code, 0, 3), (c.div, 3, 2), (c.halt, 8, 4), (c.cores.toNat, 16, 16)]
  | 0x108 => wordOf [(c.poolBase, 0, 12), (c.poolN, 12, 5), (countOf c.poolN fun b => !bufFree s c b, 17, 5), (c.needed, 22, 5)]
  | 0x10C => c.nDecoded | 0x110 => c.outSeq | 0x114 => c.nConceal | 0x118 => c.nRefMiss | 0x11C => c.nBsErr
  | 0x120 => c.nPicLost | 0x124 => c.nSkipped | 0x128 => c.nTainted | 0x12C => c.nWait | 0x130 => c.nSeiOk
  | 0x134 => wordOf [(c.nForeign.toNat, 0, 16), (c.nBad.toNat, 16, 16)]
  | 0x138 => c.lastPoc
  | 0x13C => wordOf [(c.lastTiles, 0, 15)]
  | o => s.reg (0x90000 + o)

/-- The work an instance processes: its own, or its pair's. -/
def instWork (s : State) (i : Nat) : Option IppWork :=
  match (s.ippW i).filter (·.begun) with
  | some w => some w
  | none => (s.ippW (i ^^^ 1)).filter fun w => w.begun && w.prm.pair

/-- IPP_INSTi_INFO. -/
def instInfo (s : State) (i : Nat) : Word :=
  let w := instWork s i
  let f := w.bind (·.follow)
  wordOf [((s.follows.filter fun x => x.2.bound && onInst x.2.prm i).length, 0, 7), (f.getD 0, 8, 6), (Bool.nat f.isSome, 14, 1),
    (Bool.nat (w.bind (·.job)).isSome, 15, 1)]

def readIpp (s : State) (off : Nat) : Word :=
  let f := s.follow (s.fld IPP_SEL 0 6)
  if 0x10 ≤ off ∧ off < 0x50 ∧ off % 4 = 0 then wordOf [(instLoad s ((off - 0x10) / 4), 0, 31)]
  else if 0x90 ≤ off ∧ off < 0xD0 ∧ off % 4 = 0 then instInfo s ((off - 0x90) / 4)
  else match off with
  | 0x000 => wordOf [(maskOf 16 fun i => (instWork s i).isSome, 0, 16),
      (maskOf 8 fun p => match instWork s (2 * p) with | some w => w.prm.pair | none => false, 16, 8)]
  | 0x104 => wordOf [(Bool.nat f.bound, 0, 1), (f.prm.inst, 1, 4), (Bool.nat f.prm.pair, 5, 1), (Bool.nat f.prm.nearest, 6, 1),
      (f.prm.rot, 7, 2), (f.m, 9, 3), (f.ctx, 16, 8)]
  | 0x108 => f.count | 0x10C => f.nPassed | 0x110 => f.nBusy | 0x114 => f.nTaint
  | 0x118 => wordOf [(f.last, 0, 15)]
  | o => s.reg (0xA0000 + o)

def readEnc (s : State) (off : Nat) : Word :=
  let e := s.enc (s.fld ENC_SEL 0 5)
  if 0x10 ≤ off ∧ off < 0x30 ∧ off % 4 = 0 then wordOf [(encLoad s ((off - 0x10) / 4), 0, 29)]
  else match off with
  | 0x000 => wordOf [(2 ^ s.nEnc - 1, 0, 8), (maskOf 8 fun c => s.encs.any fun x => x.2.work.isSome && x.2.cores.getLsbD c, 16, 8)]
  | 0x104 => wordOf [(Bool.nat e.opened, 0, 1), (Bool.nat e.h265, 1, 1), (Bool.nat e.follow, 2, 1), (e.head, 3, 4), (e.rc, 7, 2),
      (e.cores.toNat, 16, 8), (e.sweepK, 24, 8)]
  | 0x108 => e.picSeq | 0x10C => e.nBudget | 0x110 => e.nSkip | 0x114 => e.nDropped | 0x118 => e.nPassed
  | 0x11C => BitVec.ofNat 32 e.full
  | 0x120 => wordOf [(e.qpPic, 0, 6), (e.qpAvg, 8, 6)]
  | o => s.reg (0xB0000 + o)

/-! ### LDG, VRD, CMP (Tables 2.20, 2.21, 7.11) -/

def readLdg (s : State) (off : Nat) : Word :=
  let f := s.surf (s.fld LDG_SURF_SEL 0 12)
  match off with
  | 0x24 => if f.reg then wordOf [(1, 0, 1), (Bool.nat f.frozenA, 1, 1), (f.frozen, 16, 16)] else 0
  | 0x28 => if f.reg then wordOf [(f.lbase, 0, 18)] else 0
  | 0x2C => if f.reg then wordOf [(f.tx, 0, 8), (f.ty, 8, 8)] else 0
  | o => s.reg (0xC0000 + o)

def readVrd (s : State) (off : Nat) : Word :=
  if off = 0 then wordOf [(maskOf 16 fun n => (s.head n).enabled, 0, 16)] else s.reg (0xD0000 + off)

/-- The number of the source kind of a layer (Table 7.11). -/
def LSource.code : LSource → Nat
  | .surface _ => 0 | .followIpp _ => 1 | .followDec _ => 2

def readCmp (s : State) (off : Nat) : Word :=
  let l := s.layer (s.fld CMP_LSEL 0 8)
  let on := fun n => (s.head n).enabled
  match off with
  | 0x000 => wordOf [(maskOf 4 fun i => ([0, 1, 2, 3] : List Nat).any fun k => on (4 * i + k), 0, 4)]
  | 0x010 | 0x014 | 0x018 | 0x01C =>
    let i := (off - 0x10) / 4
    wordOf [((([0, 1, 2, 3] : List Nat).map fun k => if on (4 * i + k) then (s.head (4 * i + k)).khz else 0).sum, 0, 22)]
  | 0x020 => wordOf [((s.layers.filter fun x => x.2.created).length, 0, 9)]
  | 0x104 => wordOf [(Bool.nat l.created, 0, 1), (l.head, 1, 4), (if l.cursor then 31 else l.cur.z, 5, 5), (Bool.nat l.cursor, 10, 1),
      (Bool.nat l.cur.live, 11, 1), (l.cur.profile, 12, 6), (l.cur.source.code, 18, 2), (Bool.nat l.cur.visible, 20, 1),
      (Bool.nat (!l.pend.isEmpty), 21, 1), (Bool.nat (l.pend.any (·.armed)), 22, 1)]
  | 0x108 => wordOf [(l.buf.getD 0xFFF, 0, 12), ((l.pend.findSome? pendBuf).getD 0xFFF, 16, 12)]
  | 0x10C => l.missed | 0x110 => l.commits
  | o => s.reg (0xE0000 + o)

/-! ### HDn (Tables 7.12, 8.11) -/

/-- The trim of a head's timing group. -/
def headTrim (s : State) (n : Nat) : Int := signed 18 (s.fld (TG_TRIM (s.head n).tg) 0 18)

/-- The lines of a head's frame: those of v_total with what a pull or a re-phase adds or takes (R83, R86). -/
def frameLines (s : State) (n : Nat) : Nat :=
  let t := s.tg (s.head n).tg
  countOf (2 * (s.head n).vTotal + 8) fun y => decide (tgLinesNs t y (headTrim s n) < t.period)

/-- The line a head's scan has reached since its frame boundary (Table 7.12): line 0 begins there. -/
def headLine (s : State) (n : Nat) : Nat :=
  let h := s.head n
  countOf (frameLines s n) fun y => decide (0 < y) && decide (h.boundary + tgLinesNs (s.tg h.tg) y (headTrim s n) ≤ s.now)

def readHeadTx (s : State) (n off : Nat) : Word :=
  let h := s.head n
  match off with
  | 0x100 => wordOf [(h.rate, 0, 3), (h.lanes, 3, 3), (h.src, 6, 2), (Bool.nat h.bpc10, 8, 1), (Bool.nat h.limited, 9, 1),
      (Bool.nat h.sinkCrc, 10, 1), (Bool.nat h.wbVerify, 11, 1)]
  | 0x104 =>
    let w := s.reg (HD_TX_STATE n)
    wordOf [(if gangMember s n then 0 else h.tx.code, 0, 2), (Bool.nat h.hpd, 2, 1), (w.toNat / 8, 3, 2), (Bool.nat h.sinkOn, 5, 1), (h.lttpr, 8, 3)]
  | o => s.reg ((16 + n) * 0x10000 + o)

def readHead (s : State) (n off : Nat) : Word :=
  if 0x100 ≤ off then readHeadTx s n off
  else
    let m := gangMember s n
    let n := if m then n - 1 else n
    let h := s.head n
    let ls := layersOf s n
    match off with
    | 0x00 => wordOf [(Bool.nat h.enabled, 0, 1), (Bool.nat (h.gang && !m), 1, 1), (Bool.nat m, 2, 1), (h.tg, 3, 3),
        (Bool.nat (sealOf s n).isSome, 6, 1), ((sealOf s n).getD 0, 7, 4)]
    | 0x04 => wordOf [(h.khz, 0, 21)]
    | 0x08 => wordOf [(h.hAct, 0, 14), (h.hTotal, 16, 14)]
    | 0x0C => wordOf [(h.hFront, 0, 10), (h.hSync, 10, 10), (Bool.nat h.hpol, 31, 1)]
    | 0x10 => wordOf [(h.vAct, 0, 13), (h.vTotal, 16, 13)]
    | 0x14 => wordOf [(h.vFront, 0, 8), (h.vSync, 8, 5), (Bool.nat h.vpol, 31, 1)]
    | 0x18 => loWord h.frame.toNat
    | 0x1C => hiWord h.frame.toNat
    | 0x20 =>
      if h.enabled then
        let y := headLine s n
        wordOf [(y, 0, 13), (Bool.nat (decide (frameLines s n - h.vAct ≤ y)), 16, 1)]
      else 0
    | 0x24 => wordOf [(h.lining.toNat, 0, 30), (Bool.nat h.liningSurf.isSome, 31, 1)]
    | 0x28 => wordOf [(h.liningSurf.getD 0, 0, 12)]
    | 0x2C => wordOf [(h.px, 0, 13), (h.py, 13, 13), (h.pulse, 26, 2)]
    | 0x30 => wordOf [(ls.length, 0, 6), ((ls.filter fun x => !x.2.pend.isEmpty).length, 8, 6)]
    | 0x40 => wordOf [(Bool.nat h.wbOn, 0, 1), (h.wbFmt, 1, 4), (Bool.nat h.wb2020, 5, 1), (Bool.nat h.wbFull, 6, 1)]
    | 0x44 => wordOf [(h.wbA, 0, 12), (h.wbB, 16, 12)]
    | 0x48 => wordOf [(Bool.nat h.wbLast, 0, 1), (Bool.nat h.wbHeldA, 1, 1), (Bool.nat h.wbHeldB, 2, 1)]
    | o => s.reg ((16 + n) * 0x10000 + o)

/-! ### TCHn, HIF, PRT and the set-up windows (Tables 9.11, 10.14, 10.15, 10.7) -/

/-- The state of a touch port (Table 9.11). -/
def tchState (s : State) (t : Touch) : Nat :=
  if t.test.isSome then 3 else if !t.cfg.enable then 0 else if t.scanning && tchMode s then 2 else 1

def readTch (s : State) (p off : Nat) : Word :=
  let t := s.tch p
  match off with
  | 0x00 => wordOf [(tchState s t, 0, 3), (if t.cfg.enable then tchAcq s t else t.cfg.acq, 3, 2), (Bool.nat (t.cfg.enable && tchMode s && !t.lost && t.slotSeen && decide (s.since t.slotAt < 50000000)), 5, 1), (Bool.nat t.ref.isSome, 6, 1),
      (Bool.nat t.band.isSome, 7, 1), (t.contacts.length, 8, 4), (t.pre.length, 12, 12), (Bool.nat (!t.wet.isEmpty), 24, 1)]
  | 0x04 => wordOf [(touchOwner s p, 0, 5)]
  | 0x08 => wordOf [(t.cfg.drives, 0, 6), (t.cfg.senses, 8, 7), (t.cfg.syncHead, 16, 4), (t.mapHead, 20, 4), (t.cfg.drive, 24, 2), (t.cfg.gain, 26, 2)]
  | 0x30 => wordOf [(Bool.nat (t.cfg.enable && !t.pumpBad), 0, 1), (s.fld (TCH_PUMP p) 16 16, 16, 16)]
  | 0x60 => wordOf [(t.cfg.touchThr, 0, 16), (t.cfg.gloveThr, 16, 16)]
  | 0x64 => wordOf [(t.cfg.relThr, 0, 16), (t.cfg.preThr, 16, 16)]
  | o =>
    let ring := fun (n : Nat) => t.rings.find? fun r => r.1 == n
    if 0x40 ≤ o ∧ o < 0x58 then BitVec.ofInt 32 (t.coefs.getD ((o - 0x40) / 4) 0)
    else if 0x100 ≤ o ∧ o < 0x140 then wordOf [(Bool.nat (ring ((o - 0x100) / 4)).isSome, 0, 1)]
    else if 0x180 ≤ o ∧ o < 0x1C0 then (match ring ((o - 0x180) / 4) with | some r => r.2.2.2.2 | none => 0)
    else s.reg ((32 + p) * 0x10000 + o)

def readHif (s : State) (off : Nat) : Word :=
  if off = 0 then wordOf [(s.fuses.vendor.toNat, 0, 16), (sysPart s, 16, 16)] else s.reg (0x220000 + off)

def rangeWord (r : Range) : Word := wordOf [(r.base, 0, 16), (r.count, 16, 16)]

def readPrt (s : State) (off : Nat) : Word :=
  if off = 4 then wordOf [(maskOf 16 fun p => (s.part p).state != .free, 0, 16), (maskOf 16 fun p => (s.part p).state == .active, 16, 16)]
  else if off < 0x100 ∨ 0x500 ≤ off then s.reg (0x230000 + off)
  else
    let p := (off - 0x100) / 0x40
    let q := s.part p
    match off % 0x40 with
    | 0x00 => wordOf [(q.port, 0, 3), (q.state.code, 3, 3), (q.cause, 6, 4)]
    | 0x04 => wordOf [(q.heads.toNat, 0, 16), (q.touch.toNat, 16, 2)]
    | 0x08 => rangeWord q.surf | 0x0C => rangeWord q.layer | 0x10 => rangeWord q.ctx | 0x14 => rangeWord q.flow
    | 0x18 => rangeWord q.follow | 0x1C => rangeWord q.sess | 0x20 => rangeWord q.egr
    | 0x24 => wordOf [(q.qLdg, 0, 19)]
    | 0x28 => BitVec.ofNat 32 q.qDec | 0x2C => BitVec.ofNat 32 q.qIpp | 0x30 => BitVec.ofNat 32 q.qEnc
    | 0x34 => wordOf [(ledgerUse s p, 0, 19)]
    | 0x38 => wordOf [(q.gen.toNat, 0, 16)]
    | _ => 0

/-- Where a window offset's stored word lies: the aliases of R54 and R492 stand for the VRD and ERR registers. -/
def windowAlias (p off : Nat) : Nat :=
  if 0x8000 ≤ off ∧ off < 0x8080 then VRD_STG_LIVE (4 * p) + (off - 0x8000)
  else if 0x9000 ≤ off ∧ off < 0x900C then ERR_P_PLOG_LO p + (off - 0x9000)
  else windowBase p + off

def readWindow (s : State) (p off : Nat) : Word :=
  let q := s.part p
  match off with
  | 0x00 => wordOf [(q.state.code, 0, 3), (q.cause, 4, 4), (q.starts.toNat, 16, 16)]
  | 0x20 => wordOf [(ringFaults q, 0, 8)]
  | o => s.reg (windowAlias p o)

/-! ### GATE, EVC, DSK (Tables 11.6–11.8, 12.4, 12.5) -/

/-- CTRL as it reads (Table 11.7). -/
def gateCtrl (s : State) (k : Nat) : Word := putBits (s.reg (gateCtrlAddr k)) 2 1 (Bool.nat (gateQuiet s k))

/-- Quiet and holding over a set of entries. -/
def gateSum (s : State) (ks : List Nat) : Nat := Bool.nat (ks.all (gateQuiet s)) + 2 * Bool.nat (ks.any (inHold s))

/-- The keys of a memory gate. -/
def mgKeys (m : Nat) : List Nat := upFrom (70 + 32 * m) 32

def readGate (s : State) (off : Nat) : Word :=
  let stored := s.reg (0x240000 + off)
  if off = 0 then BitVec.ofNat 32 (gateSum s (List.range 326))
  else if 0x100 ≤ off ∧ off < 0x9C0 ∧ off % 0x20 = 8 then gateCtrl s ((off - 0x100) / 0x20)
  else if off < 0x1000 ∨ 0x5000 ≤ off then stored
  else
    let m := (off - 0x1000) / 0x800
    let o := (off - 0x1000) % 0x800
    if o = 0 then wordOf [(gateSum s (mgKeys m), 0, 2), (countOf 32 fun r => ctrlState (s.reg (MG_CTRL m r)) == 1, 8, 8)]
    else if 0x100 ≤ o ∧ o < 0x300 ∧ o % 0x10 = 0xC then gateCtrl s (70 + 32 * m + (o - 0x100) / 0x10)
    else stored

/-- EVC_SRCi_CFG as it reads. -/
def srcCfgWord (s : State) (i : Nat) : Word :=
  let e := s.src i
  wordOf [((s.reg (EVC_SRC_CFG i)).toNat, 0, 16), (Bool.nat e.pending, 16, 1), (Bool.nat e.serv, 17, 1), (e.core, 18, 2), (Bool.nat e.input, 20, 1)]

def readEvcCore (s : State) (k o : Nat) : Word :=
  let d := s.desk k
  if 0x40 ≤ o ∧ o < 0x80 ∧ o % 4 = 0 then
    match d.stack.reverse[(o - 0x40) / 4]? with
    | some e => wordOf [(e.1, 0, 10), (e.2, 16, 5)]
    | none => 0
  else if o = 0x10 then wordOf [(coreRunning s k, 0, 5), (d.stack.length, 5, 5), (Bool.nat d.line, 10, 1), (Bool.nat d.signalled, 11, 1),
    (Bool.nat d.wake, 12, 1), (Bool.nat d.eoiErr, 13, 1)]
  else s.reg (0x250100 + 0x80 * k + o)

def readEvc (s : State) (off : Nat) : Word :=
  if off = 0 then wordOf [((s.srcs.filter fun x => x.2.pending).length, 0, 10), ((s.srcs.filter fun x => x.2.serv).length, 10, 10), (Bool.nat s.evcStop, 20, 1)]
  else if 0x40 ≤ off ∧ off < 0x80 ∧ off % 4 = 0 then
    BitVec.ofNat 32 (maskOf 32 fun b => (s.src (32 * ((off - 0x40) / 4) + b)).pending)
  else if 0x100 ≤ off ∧ off < 0x300 then readEvcCore s ((off - 0x100) / 0x80) ((off - 0x100) % 0x80)
  else if 0x1004 ≤ off ∧ off < 0x1800 ∧ off % 4 = 0 then srcCfgWord s ((off - 0x1000) / 4)
  else s.reg (0x250000 + off)

def readDsk (s : State) (off : Nat) : Word :=
  match off with
  | 0x04 => wordOf [(maskOf 4 fun k => !coreReset s k, 0, 4), (maskOf 4 fun k => (s.desk k).asleep, 4, 4), (maskOf 4 fun k => (s.desk k).halted, 8, 4),
      (Bool.nat s.evcStop, 12, 1)]
  | 0x08 => loWord (mtime s).toNat
  | 0x0C => hiWord (mtime s).toNat
  | o =>
    let k := (o - 0x100) / 0x40
    if 0x100 ≤ o ∧ o < 0x200 ∧ o % 0x40 = 0x1C then
      let d := s.desk k
      wordOf [(Bool.nat (!coreReset s k), 0, 1), (Bool.nat d.wfi, 1, 1), (Bool.nat d.asleep, 2, 1), (Bool.nat d.halted, 3, 1), (d.mode, 4, 2),
        ((s.reg (0x260000 + o)).toNat / 2 ^ 16, 16, 16)]
    else s.reg (0x260000 + o)

/-! ### CHN, RDN, HWK (Tables 13.12, 14.8, 14.9) -/

/-- The codes of Table 13.3. -/
def PortState.code : PortState → Nat
  | .down => 0 | .train => 1 | .align => 2 | .ready => 3 | .up => 4

/-- The counts of the selected slot (R375): a surface slot below 16 counts what it sent and what it received. -/
def selMsgs (s : State) : Nat :=
  let n := s.fld CHN_SEL 0 5
  if s.bit CHN_SEL 5 then (if n < 16 then capAt 0xFFFFFFFF ((s.txSurf n).nMsgs.toNat + (s.rxSurf n).nMsgs.toNat) else 0)
  else (s.txStream n).nMsgs.toNat

def selPassed (s : State) : Nat :=
  let n := s.fld CHN_SEL 0 5
  if s.bit CHN_SEL 5 then (if n < 16 then (s.txSurf n).nPassed.toNat else 0) else (s.txStream n).nPassed.toNat

def readChn (s : State) (off : Nat) : Word :=
  match off with
  | 0x44 => BitVec.ofNat 32 (selMsgs s)
  | 0x48 => BitVec.ofNat 32 (selPassed s)
  | 0x104 | 0x144 => let q := s.port ((off - 0x100) / 0x40); wordOf [(q.state.code, 0, 3), (q.cause, 3, 3)]
  | 0x108 | 0x148 => let q := s.port ((off - 0x100) / 0x40); wordOf [(q.locked.toNat, 0, 4), (q.skew.toNat, 8, 4)]
  | o => s.reg (0x270000 + o)

def readRdn (s : State) (off : Nat) : Word := if off = 0x2C then BitVec.ofNat 32 (swapAge s) else s.reg (0x280000 + off)

def readHwk (s : State) (off : Nat) : Word :=
  match off with
  | 0x00 => wordOf [(Bool.nat (s.ctl.ring && !s.rdn.zeroing), 0, 1), (Bool.nat (slotValid s 0), 1, 1), (Bool.nat (slotValid s 1), 2, 1)]
  | 0x04 => slotGen s 0
  | 0x08 => slotGen s 1
  | o => s.reg (0x290000 + o)

/-! ### DCEn, CRCUn, DBG (Tables 15.7, 15.8, 16.15) -/

/-- DCEn_STATUS: idle, all of it reads its reset value; part 31 belongs to an item in progress that is no host job (log 160). -/
def dceStatus (s : State) (e : Nat) : Word :=
  match s.dceW e with
  | some (.job id) =>
    match s.job id with
    | some j => wordOf [(1, 0, 1), (Bool.nat (j.opcode == 0x0D02), 3, 1), (j.req.part.val, 4, 5)]
    | none => 0
  | some .checkpoint => wordOf [(1, 0, 1), (1, 1, 2), (31, 4, 5)]
  | some (.band b) => wordOf [(1, 0, 1), (2, 1, 2), (Bool.nat b.rx, 3, 1), (31, 4, 5)]
  | none => 0

def readDce (s : State) (e off : Nat) : Word := if off = 0 then dceStatus s e else s.reg ((42 + e) * 0x10000 + off)

/-- A read of a CRC unit's registers: the results of another partition read as 0 at P0 and P1 (R418). -/
def readCrcu (s : State) (a : Access) (u off : Nat) : Word :=
  match off with
  | 0x00 =>
    match ((s.crcW u).filter fun _ => pwrGranted s (pwrCrc u)).bind s.job with
    | some j => wordOf [(1, 0, 1), (j.req.part.val, 1, 5)]
    | none => 0
  | 0x08 | 0x0C =>
    if (a.level == .p0 || a.level == .p1) && a.part.toNat != s.fld (CRCU_RES_STATUS u) 4 5 then 0 else s.reg ((44 + u) * 0x10000 + off)
  | o => s.reg ((44 + u) * 0x10000 + o)

def readDbg (s : State) (off : Nat) : Word :=
  match off with
  | 0x00 => wordOf [(s.fuses.cycle.toNat, 0, 2), (Bool.nat s.fuses.unlocked, 2, 1), (Bool.nat (debugOn s), 3, 1), (s.fld DBG_STATUS 4 2, 4, 2)]
  | 0x08 => loWord s.fuses.uid.toNat
  | 0x0C => hiWord s.fuses.uid.toNat
  | 0x10 | 0x14 | 0x18 | 0x1C => BitVec.ofNat 32 (s.nonce.toNat / 2 ^ (8 * (off - 0x10)))
  | 0x2C => wordOf [(s.fuses.keys.toNat, 0, 4), (s.fuses.revoked.toNat, 4, 4), (Bool.nat s.fuses.devKey, 8, 1)]
  | 0x30 => wordOf [(s.fuses.minSv.toNat, 0, 16)]
  | o => s.reg (0x450000 + o)

/-! ### All blocks -/

/-- The word a performed read returns. -/
def readReg (s : State) (a : Access) (addr : Nat) : Word :=
  if 0xF00000 ≤ addr then readWindow s ((addr - 0xF00000) / 0x10000) (addr % 0x10000)
  else
    let slot := addr / 0x10000
    let off := addr % 0x10000
    if 16 ≤ slot ∧ slot < 32 then readHead s (slot - 16) off
    else if slot = 32 ∨ slot = 33 then readTch s (slot - 32) off
    else if slot = 42 ∨ slot = 43 then readDce s (slot - 42) off
    else if 44 ≤ slot ∧ slot < 52 then readCrcu s a (slot - 44) off
    else if 52 ≤ slot ∧ slot < 68 then quadRead s (slot - 52) off
    else match slot with
    | 0 => readSys s off | 1 => readAo s off | 2 => readMgt s off | 3 => readClk s off | 4 => readPwr s off | 5 => readTb s off
    | 6 => readEth s off | 7 => readFlw s off | 8 => readStr s off | 9 => readDec s off | 10 => readIpp s off | 11 => readEnc s off
    | 12 => readLdg s off | 13 => readVrd s off | 14 => readCmp s off | 34 => readHif s off | 35 => readPrt s off
    | 36 => readGate s off | 37 => readEvc s off | 38 => readDsk s off | 39 => readChn s off | 40 => readRdn s off
    | 41 => readHwk s off | 69 => readDbg s off
    | _ => s.reg addr

/-- A register read through powered domain, gate and window match (R3, R15, R18, R306): refused, ignored and held reads
return zeros, a refusal also records its violation. -/
def regRead (s : State) (a : Access) (addr : Nat) : State × Word :=
  match regDec s a .r addr with
  | .go => (s, readReg s a addr)
  | .violation slot => (violation s slot a .r addr 0, 0)
  | _ => (s, 0)

end Sys2Proof.Machine
end

