-- ==== Sys2Proof/Machine/Start.lean ====
section
/-!
DEFINITION. Unlock tokens and signed fuse commands (R446, R448, R457).
-/

namespace Sys2Proof.Machine

/-! ### Unlock tokens and fuse commands -/

/-- A word of DBG_TOKEN or DBG_FUSE_CMD as written (Table 16.15). -/
def State.tok (s : State) (a : Nat) : Word := tget (fun _ => 0) s.token a
def State.setTok (s : State) (a : Nat) (v : Word) : State := { s with token := tset (fun _ => 0) s.token a v }

/-- Field keys programmed and not revoked (Table 16.15). -/
def goodKeys (s : State) : BitVec 4 := s.fuses.keys &&& ~~~ s.fuses.revoked

/-- A write of DBG_CTRL (R448): `verifies` says that the token's signature holds under a field key and that it carries
the die's ID and the current nonce. -/
def tokenSubmit (v : Word) (verifies : Bool) (s : State) : State :=
  if !bitOf v.toNat 0 then s
  else if verifies && goodKeys s != 0 then
    { s with fuses := { s.fuses with unlocked := true } }.setFld DBG_STATUS 4 2 1
  else raise (s.setFld DBG_STATUS 4 2 2) evDebugUnlockFail 1 69 31 []

def doDbgTokenSubmit (a : Access) (v : Word) (verifies : Bool) (s : State) : State :=
  regAccess s a DBG_CTRL v (tokenSubmit v verifies)
def execDbgTokenSubmit (a : Access) (v : BitVec 32) (verifies : Bool) (s : State) : Host.Outcome State Fault Refusal :=
  .next (doDbgTokenSubmit a v verifies s)

/-- The 512 bytes of the fuse command as written (Table 16.16). -/
def fuseCmd (s : State) : Bytes := (List.range 128).flatMap fun i => leBytes 4 (s.tok (DBG_FUSE_CMD i)).toNat

/-- Whether the layout of Table 16.16 holds. -/
def fuseFormat (c : Bytes) : Bool :=
  let op := leNat (sliceB c 6 1)
  let zero := fun i n => (sliceB c i n).all (· == 0)
  leNat (sliceB c 0 4) == 0x46555351 && leNat (sliceB c 4 2) == 1 && decide (1 ≤ op) && decide (op ≤ 5)
    && (if op ≤ 2 then decide (leNat (sliceB c 7 1) ≤ 3) else zero 7 1)
    && (op == 1 || zero 32 48) && (op == 3 || zero 80 2) && zero 82 62 && zero 241 271

/-- Whether the signing key is a field key not revoked, other than `except`. -/
def fieldSigned (s : State) (key except : Nat) : Bool := decide (key < 4) && bitOf (goodKeys s).toNat key && key != except

/-- Whether a command satisfies the rule of Table 16.17. -/
def fuseRule (s : State) (c : Bytes) : Bool :=
  let op := leNat (sliceB c 6 1)
  let slot := leNat (sliceB c 7 1)
  let key := leNat (sliceB c 240 1)
  let dev := s.fuses.cycleNow = 1
  let devKey : Bool := key == 0x80 && s.fuses.devKey
  match op with
  | 1 => (dev || s.fuses.cycleNow = 2) && (fieldSigned s key 4 || (dev && devKey)) && !bitOf s.fuses.keys.toNat slot
  | 2 => fieldSigned s key slot && bitOf s.fuses.keys.toNat slot && !bitOf s.fuses.revoked.toNat slot
      && (List.range 4).any fun k => k != slot && bitOf (goodKeys s).toNat k
  | 3 => (fieldSigned s key 4 || (dev && devKey)) && decide (s.fuses.minSv.toNat < leNat (sliceB c 80 2))
  | 4 => dev && fieldSigned s key 4
  | _ => s.fuses.cycleNow = 2 && fieldSigned s key 4

/-- The result of a submit (R457): 5 MODE, 1 FORMAT, 3 NOT_THIS_DIE, 2 SIGNATURE, 4 STATE, 0 performed. -/
def fuseResult (s : State) (verifies : Bool) : Nat :=
  let c := fuseCmd s
  let key := leNat (sliceB c 240 1)
  let known : Bool := (decide (key < 4) && bitOf s.fuses.keys.toNat key) || (key == 0x80 && s.fuses.devKey)
  if s.ctl.mode != .prime then 5
  else if !fuseFormat c then 1
  else if leNat (sliceB c 8 8) ≠ s.fuses.uid.toNat ∨ leNat (sliceB c 16 16) ≠ s.nonce.toNat then 3
  else if !(verifies && known) then 2
  else if !fuseRule s c then 4
  else 0

/-- The nonce is replaced (R448, R457). -/
def newNonce (s : State) : State := { s with nonce := Config.freshNonce s.free, free := s.free + 1 }

/-- A write of DBG_FUSE_CTRL (R457): `verifies` says that the signature holds under the key that byte 240 names. -/
def fuseSubmit (v : Word) (verifies : Bool) (s : State) : State :=
  if !bitOf v.toNat 0 then s
  else
    let c := fuseCmd s
    let op := leNat (sliceB c 6 1)
    let r := fuseResult s verifies
    let s := newNonce (s.resultOpen DBG_FUSE_STATUS)
    if r ≠ 0 then s.resultDone DBG_FUSE_STATUS (r + op % 8 * 8)
    else
      let slot := leNat (sliceB c 7 1)
      let sv := leNat (sliceB c 80 2)
      { s with fuseOps := s.fuseOps ++ [(op, slot, sv, BitVec.ofNat 384 (leNat (sliceB c 32 48)))] }.emit
        (.fuse (BitVec.ofNat 8 op) (BitVec.ofNat 16 (if op = 3 then sv else slot)))

def doDbgFuseSubmit (a : Access) (v : Word) (verifies : Bool) (s : State) : State :=
  regAccess s a DBG_FUSE_CTRL v (fuseSubmit v verifies)
def execDbgFuseSubmit (a : Access) (v : BitVec 32) (verifies : Bool) (s : State) : Host.Outcome State Fault Refusal :=
  .next (doDbgFuseSubmit a v verifies s)

/-- The fuses that a command is to give (Table 16.16). -/
def fuseWanted (f : Fuses) (op slot sv : Nat) (hash : BitVec 384) : Fuses :=
  match op with
  | 1 => { f with keys := f.keys ||| BitVec.ofNat 4 (2 ^ slot), hashes := f.hashes ++ [(slot, hash)] }
  | 2 => { f with revoked := f.revoked ||| BitVec.ofNat 4 (2 ^ slot) }
  | 3 => { f with minSv := BitVec.ofNat 16 sv }
  | 4 => { f with cycle := 2 }
  | _ => { f with cycle := 3 }

/-- The fuses as read back: lifecycle in bits 1:0, DBG_KEYS in bits 16:8, DBG_MIN_SV in bits 47:32. -/
def fuseRead (f : Fuses) (r : BitVec 64) : Fuses :=
  let n := r.toNat
  { f with cycle := BitVec.ofNat 2 (bitsOf n 0 2), keys := BitVec.ofNat 4 (bitsOf n 8 4), revoked := BitVec.ofNat 4 (bitsOf n 12 4)
           devKey := bitOf n 16, minSv := BitVec.ofNat 16 (bitsOf n 32 16) }

/-- Fuse programming ends (R457): the fuses are as read back, and the result says whether that is what was wanted. -/
def doFuseProgramDone (readback : BitVec 64) (s : State) : State :=
  match s.fuseOps with
  | [] => s
  | (op, slot, sv, hash) :: rest =>
    if !s.ctl.core then s
    else
      let want := fuseWanted s.fuses op slot sv hash
      let got := fuseRead want readback
      { s with fuses := got, fuseOps := rest }.resultDone DBG_FUSE_STATUS ((if got = want then 0 else 6) + op * 8)
def execFuseProgramDone (readback : BitVec 64) (s : State) : Host.Outcome State Fault Refusal := .next (doFuseProgramDone readback s)

end Sys2Proof.Machine
end

