-- ==== Sys2Proof/Machine/RegWrite.lean ====
section
/-!
DEFINITION. What a performed register write does in each block but GATE: its access types (R6, R8), its range and state
checks, the ownership checks of R54, R115 and R267, and the actions of write-only fields.
-/

namespace Sys2Proof.Machine

/-- A write whose value lies outside its range is ignored as a whole and recorded as ACCESS_RANGE. -/
def ranged (a : Access) (addr : Nat) (ok : Bool) (v : Word) (s : State) : State :=
  if ok then plainWrite s addr v else accessEv s evAccessRange a addr

/-- A write of a selected register: at P0 and P1 only by the owner of what is selected (R115). -/
def owned (a : Access) (slot addr : Nat) (own : Nat → Bool) (f : State → State) (s : State) : State :=
  if Level.upper a.level || own a.part.toNat then f s else refuseWrite s slot a addr

/-! ### AO, MGT, CLK, PWR -/

/-- AO (Table 16.11). -/
def aoWrite (off : Nat) (v : Word) (s : State) : State :=
  match off with
  | 0x04 => modeReqWrite v s
  | 0x14 => { s with hold := { s.hold with newLo := some v } }
  | 0x18 => { s with hold := { s.hold with newHi := some (BitVec.ofNat 16 v.toNat) } }
  | 0x1C => holdSet v s
  | 0x20 => trainWrite v s
  | o => plainWrite s (0x10000 + o) v

/-- MGT (Table 16.12). -/
def mgtRegWrite (a : Access) (off : Nat) (v : Word) (s : State) : State :=
  if 0x10 ≤ off ∧ off < 0x30 ∧ off % 4 = 0 then mboxIn ((off - 0x10) / 4) a v s
  else if 0x30 ≤ off ∧ off < 0x50 ∧ off % 4 = 0 then mboxOut ((off - 0x30) / 4) v s
  else plainWrite s (0x20000 + off) v

/-- CLK (R435, Table 16.13): policy ON starts a PLL that stands; FAB, TB and the PX PLLs take no notice of it. -/
def clkWrite (off : Nat) (v : Word) (s : State) : State :=
  let s := plainWrite s (0x30000 + off) v
  let p := off / 0x10
  if off % 0x10 = 0 && decide (1 ≤ p) && decide (p ≤ 3) && bitOf v.toNat 0 && !s.pwr.halted then pllStart s p else s

/-- PWR (R440, R441, Table 16.14): a new PWR_THERM.warn is compared with the temperature at once. -/
def pwrWrite (a : Access) (off : Nat) (v : Word) (s : State) : State :=
  if off = 0 then ranged a PWR_BUDGET (decide (pwrR s ≤ bitsOf v.toNat 0 11)) v s
  else
    let s := plainWrite s (0x40000 + off) v
    if 0x40000 + off = PWR_THERM then thermWarn s else s

/-! ### TB and the timing groups -/

/-- Timing group `g` (R82, R84, R86, Table 3.17). A group without a timing has no period to bound its offset. -/
def tgWrite (a : Access) (g o : Nat) (v : Word) (s : State) : State :=
  match o with
  | 0x00 => tgCtrl s g v
  | 0x04 => ranged a (TG_OFFSET g) ((s.tg g).khz == 0 || decide (2 * v.toInt.natAbs ≤ tgNominal (s.tg g))) v s
  | 0x08 => ranged a (TG_WIN g) (decide (1 ≤ bitsOf v.toNat 0 11) && decide (bitsOf v.toNat 0 11 ≤ 1125)) v s
  | 0x0C => ranged a (TG_RATE g) (decide (bitsOf v.toNat 0 16 ≠ 0) && ([1000, 1001] : List Nat).contains (bitsOf v.toNat 16 16)) v s
  | 0x10 => rephaseWrite g v s
  | o => plainWrite s (0x50400 + 0x40 * g + o) v

/-- TB (Tables 3.8–3.17). -/
def tbWrite (a : Access) (off : Nat) (v : Word) (s : State) : State :=
  if 0x400 ≤ off ∧ off < 0x600 then tgWrite a ((off - 0x400) / 0x40) (off % 0x40) v s
  else match off with
  | 0x04 =>
    let p := bitsOf v.toNat 0 5
    if p < 16 ∨ p = 31 then plainWrite s TB_SERVO v else s
  | 0x08 => snapWrite v s
  | 0x40 => tbAdjWrite a v s
  | o => plainWrite s (0x50000 + o) v

/-! ### ETH, FLW, STR -/

/-- ETH_CFG (R89, Table 4.9): a reserved code, and a QD15 configuration while QD15 is not assigned to Ethernet, are
ignored; a quad whose code changes is configured anew. The whole write is ignored, the field of the other quad too. DESIGN CHOICE
(log 145). -/
def ethCfgWrite (a : Access) (v : Word) (s : State) : State :=
  let m4 := bitsOf v.toNat 0 3
  let m15 := bitsOf v.toNat 4 3
  if 4 < m4 ∨ 4 < m15 ∨ (m15 ≠ 0 ∧ quadUse s 15 ≠ 1) then accessEv s evAccessRange a ETH_CFG
  else
    let was4 := s.fld ETH_CFG 0 3
    let was15 := s.fld ETH_CFG 4 3
    let s := plainWrite s ETH_CFG v
    let s := if was4 ≠ m4 then configQuad s 0 else s
    if was15 ≠ m15 then configQuad s 4 else s

def ethWrite (a : Access) (off : Nat) (v : Word) (s : State) : State :=
  if off = 0 then ethCfgWrite a v s else plainWrite s (0x60000 + off) v

/-- A counter of the selected flow (Table 4.11). -/
def setFlowCount (x : Flow) (off : Nat) (v : Word) : Flow :=
  match off with
  | 0x18 => { x with nPkts := v } | 0x1C => { x with nLost := v } | 0x20 => { x with nLate := v } | 0x24 => { x with nDup := v }
  | 0x28 => { x with nDrop := v } | 0x2C => { x with nUnsup := v } | 0x30 => { x with nAus := v } | 0x34 => { x with nAuLoss := v }
  | 0x38 => { x with nAuDrop := v } | 0x3C => { x with nRecov := v } | 0x40 => { x with nImpl := BitVec.ofNat 16 (v.toNat / 2 ^ 16) }
  | _ => x

/-- FLW (R115): FLW_TAI_UTC at P2 and P3 alone. -/
def flwWrite (a : Access) (off : Nat) (v : Word) (s : State) : State :=
  let f := s.fld FLW_SEL 0 10
  if off = 0 then (if a.level = .p2 ∨ a.level = .p3 then plainWrite s FLW_TAI_UTC v else refuseWrite s 7 a FLW_TAI_UTC)
  else if 0x14 ≤ off ∧ off ≤ 0x40 then
    owned a 7 (0x70000 + off) (fun p => ownsFlow s p f) (fun s => s.setFlow f (setFlowCount (s.flow f) off v)) s
  else plainWrite s (0x70000 + off) v

def strWrite (a : Access) (off : Nat) (v : Word) (s : State) : State :=
  let i := s.fld STR_SEL 0 8
  if 0x14 ≤ off ∧ off ≤ 0x24 then
    owned a 8 (0x80000 + off) (fun p => ownsCtx s p i) (fun s =>
      let c := s.ctx i
      if off = 0x18 then s.setCtx i { c with nAus := v } else if off = 0x1C then s.setCtx i { c with nOvf := v } else s) s
  else plainWrite s (0x80000 + off) v

/-! ### DEC, IPP, ENC -/

/-- A counter of the selected context (Table 5.11). -/
def setCtxCount (c : Ctx) (off : Nat) (v : Word) : Ctx :=
  match off with
  | 0x10C => { c with nDecoded := v } | 0x114 => { c with nConceal := v } | 0x118 => { c with nRefMiss := v }
  | 0x11C => { c with nBsErr := v } | 0x120 => { c with nPicLost := v } | 0x124 => { c with nSkipped := v }
  | 0x128 => { c with nTainted := v } | 0x12C => { c with nWait := v } | 0x130 => { c with nSeiOk := v }
  | 0x134 => { c with nForeign := BitVec.ofNat 16 v.toNat, nBad := BitVec.ofNat 16 (v.toNat / 2 ^ 16) }
  | _ => c

def decWrite (a : Access) (off : Nat) (v : Word) (s : State) : State :=
  let i := s.fld DEC_SEL 0 8
  if 0x104 ≤ off ∧ off ≤ 0x13C then
    owned a 9 (0x90000 + off) (fun p => ownsCtx s p i) (fun s => s.setCtx i (setCtxCount (s.ctx i) off v)) s
  else plainWrite s (0x90000 + off) v

def ippWrite (a : Access) (off : Nat) (v : Word) (s : State) : State :=
  let k := s.fld IPP_SEL 0 6
  if 0x104 ≤ off ∧ off ≤ 0x118 then
    owned a 10 (0xA0000 + off) (fun p => ownsFollow s p k) (fun s =>
      let f := s.follow k
      match off with
      | 0x10C => s.setFollow k { f with nPassed := v } | 0x110 => s.setFollow k { f with nBusy := v }
      | 0x114 => s.setFollow k { f with nTaint := v } | _ => s) s
  else plainWrite s (0xA0000 + off) v

def encRegWrite (a : Access) (off : Nat) (v : Word) (s : State) : State :=
  let k := s.fld ENC_SEL 0 5
  if 0x104 ≤ off ∧ off ≤ 0x120 then
    owned a 11 (0xB0000 + off) (fun p => ownsSess s p k) (fun s =>
      let e := s.enc k
      match off with
      | 0x10C => s.setEnc k { e with nBudget := v } | 0x110 => s.setEnc k { e with nSkip := v }
      | 0x114 => s.setEnc k { e with nDropped := v } | 0x118 => s.setEnc k { e with nPassed := v } | _ => s) s
  else plainWrite s (0xB0000 + off) v

/-! ### LDG, VRD, CMP, VFY, TCHn, HIF -/

/-- LDG_SWEEP within its range (Table 2.14). -/
def ldgWrite (a : Access) (off : Nat) (v : Word) (s : State) : State :=
  if off = 8 then ranged a LDG_SWEEP (decide (1000 ≤ bitsOf v.toNat 0 16) && decide (bitsOf v.toNat 0 16 ≤ 60000)) v s
  else plainWrite s (0xC0000 + off) v

/-- A write of staging register `addr` of profile `prof`, on behalf of an access that may stage it (R54). -/
def stageWrite (a : Access) (prof addr : Nat) (v : Word) (s : State) : State :=
  if profAllowed a prof then plainWrite s addr v else refuseWrite s 13 a addr

def vrdWrite (a : Access) (off : Nat) (v : Word) (s : State) : State :=
  if off = 0x20 then vrdCommitWrite a v s
  else if 0x1000 ≤ off ∧ off < 0x1800 then stageWrite a ((off - 0x1000) / 0x20) (0xD0000 + off) v s
  else plainWrite s (0xD0000 + off) v

/-- CMP (R216): the selected layer's registers and those of a seal group belong to their owners. -/
def cmpWrite (a : Access) (off : Nat) (v : Word) (s : State) : State :=
  let i := s.fld CMP_LSEL 0 8
  if 0x104 ≤ off ∧ off ≤ 0x110 then
    owned a 14 (0xE0000 + off) (fun p => ownsLayer s p i) (fun s =>
      let l := s.layer i
      if off = 0x10C then s.setLayer i { l with missed := v } else if off = 0x110 then s.setLayer i { l with commits := v } else s) s
  else if 0x200 ≤ off ∧ off < 0x400 then
    owned a 14 (0xE0000 + off) (fun p => sgOwner s ((off - 0x200) / 0x20) == p) (fun s => plainWrite s (0xE0000 + off) v) s
  else plainWrite s (0xE0000 + off) v

def vfyWrite (a : Access) (off : Nat) (v : Word) (s : State) : State :=
  if off = 0 then ranged a VFY_CFG (decide (bitsOf v.toNat 0 4 ≠ 0)) v s else plainWrite s (0xF0000 + off) v

/-- TCHn (R267): at P0 and P1 only the port's owner writes. -/
def tchWrite (a : Access) (p off : Nat) (v : Word) (s : State) : State :=
  let addr := (32 + p) * 0x10000 + off
  owned a (32 + p) addr (fun q => ownsTouch s q p) (fun s => plainWrite s addr v) s

/-- HIF (R293): the debug mode of BAR2 at P3 or DEBUG, where the lifecycle permits debug. -/
def hifWrite (a : Access) (off : Nat) (v : Word) (s : State) : State :=
  if 0x100 ≤ off ∧ off < 0x200 ∧ off % 0x40 = 0x0C ∧ !((a.level == .p3 || a.level == .debug) && lifecycleDebug s) then refuseWrite s 34 a (0x220000 + off)
  else plainWrite s (0x220000 + off) v

/-! ### Partition set-up windows -/

/-- A CFG register with a log2 field in 4–`top`: a write outside it is ignored as a whole (R295, R492). -/
def log2Write (a : Access) (via addr top : Nat) (v : Word) (s : State) : State :=
  let n := bitsOf v.toNat 0 4
  if n < 4 ∨ top < n then accessEv s evAccessRange a via else plainWrite s addr v

/-- Window `p` (R275, R295): while the partition is ACTIVE, STOPPING or FAULTED, only PRT_SW_RUN.stop and PRT_SW_POLL. -/
def windowWrite (a : Access) (p off : Nat) (v : Word) (s : State) : State :=
  let q := s.part p
  let here := windowBase p + off
  let addr := windowAlias p off
  if off = 4 then swRun p a v s
  else if off = 8 then ranged a here (decide (2 ≤ bitsOf v.toNat 0 10) && decide (bitsOf v.toNat 0 10 ≤ 1000)) v s
  else if (rowAt addr).isNone then s
  else if q.state = .active ∨ q.state = .stopping ∨ q.state = .faulted then accessEv s evAccessState a here
  else if 0x8000 ≤ off ∧ off < 0x8080 then stageWrite a (4 * p + (off - 0x8000) / 0x20) addr v s
  else if off = 0x9008 then log2Write a here addr 12 v s
  else if 0x100 ≤ off ∧ off < 0x180 ∧ off % 0x10 = 8 then log2Write a here addr 12 v s
  else if 0x200 ≤ off ∧ off < 0x280 ∧ off % 0x10 = 8 then log2Write a here addr 14 v s
  else plainWrite s addr v

/-! ### EVC, CHN, RDN, HWK, ERR, DBG -/

/-- Per-core registers of EVC (R331, R335, R336). -/
def evcCoreWrite (k o : Nat) (v : Word) (s : State) : State :=
  match o with
  | 0x00 => claimWrite k s
  | 0x08 => eoiWrite k v s
  | 0x0C => evcSettle (plainWrite s (EVC_CORE_THRESH k) v)
  | 0x10 => evcSettle (if bitOf v.toNat 13 then s.setDesk k { s.desk k with eoiErr := false } else s)
  | _ => s

/-- EVC: every write that it receives restarts a stopped arbiter (R325); while it stands still for THERMAL_SHUTDOWN none has an
effect (R326, log 153). -/
def evcWrite (off : Nat) (v : Word) (s : State) : State :=
  if !evcRuns s then s
  else if off = 4 then setpendWrite v s
  else if off = 8 then clrpendWrite v s
  else if 0x100 ≤ off ∧ off < 0x300 then evcCoreWrite ((off - 0x100) / 0x80) ((off - 0x100) % 0x80) v s
  else if 0x1004 ≤ off ∧ off < 0x1800 ∧ off % 4 = 0 then srcCfgWrite ((off - 0x1000) / 4) v s
  else evcSettle (plainWrite s (0x250000 + off) v)

/-- The counts of the slot that CHN_SEL selects (Table 13.12). -/
def setSelMsgs (v : Word) (s : State) : State :=
  let n := s.fld CHN_SEL 0 5
  if !s.bit CHN_SEL 5 then s.setTxStream n { s.txStream n with nMsgs := v }
  else if n < 16 then (s.setTxSurf n { s.txSurf n with nMsgs := v }).setRxSurf n { s.rxSurf n with nMsgs := 0 }
  else s

def setSelPassed (v : Word) (s : State) : State :=
  let n := s.fld CHN_SEL 0 5
  if !s.bit CHN_SEL 5 then s.setTxStream n { s.txStream n with nPassed := v }
  else if n < 16 then s.setTxSurf n { s.txSurf n with nPassed := v }
  else s

/-- CHN (Table 13.12). EVC source 55 is high while an address is shown as lost (R369). -/
def chnWrite (a : Access) (off : Nat) (v : Word) (s : State) : State :=
  match off with
  | 0x04 => chnCmd a v s
  | 0x0C => chnLogical a v s
  | 0x20 =>
    let s := plainWrite s CHN_HELLO_LOST v
    evcInput s 55 (decide (s.fld CHN_HELLO_LOST 0 8 ≠ 0))
  | 0x24 => chnVault v s
  | 0x44 => setSelMsgs v s
  | 0x48 => setSelPassed v s
  | 0x100 => chnCtrl s 0 v
  | 0x140 => chnCtrl s 1 v
  | 0x10C => chnSlipWrite s 0 v
  | 0x14C => chnSlipWrite s 1 v
  | o => plainWrite s (0x270000 + o) v

/-- RDN (Table 14.8). -/
def rdnWrite (a : Access) (off : Nat) (v : Word) (s : State) : State :=
  match off with
  | 0x04 => ranged a RDN_CKPT_PERIOD (decide (100 ≤ bitsOf v.toNat 0 16) && decide (bitsOf v.toNat 0 16 ≤ 60000)) v s
  | 0x08 => rdnCmd v s
  | o => plainWrite s (0x280000 + o) v

def hwkWrite (a : Access) (off : Nat) (v : Word) (s : State) : State :=
  if off = 0x10 then hwkClear a v s else plainWrite s (0x290000 + off) v

/-- ERR (R481, R492): the consumer count only advances, up to the producer count; class code 3 names no class. -/
def errWrite (a : Access) (off : Nat) (v : Word) (s : State) : State :=
  if off = 4 then
    let c := s.reg ERR_GLOG_CONS
    ranged a ERR_GLOG_CONS (decide ((v - c).toNat ≤ (s.reg ERR_GLOG_PROD - c).toNat)) v s
  else if off = 8 then ranged a ERR_GLOG_CFG (decide (bitsOf v.toNat 0 2 ≠ 3)) v s
  else if 0x200 ≤ off ∧ off < 0x300 ∧ off % 0x10 = 8 then log2Write a (0x440000 + off) (0x440000 + off) 12 v s
  else plainWrite s (0x440000 + off) v

/-- DBG (R448, R457). A submit that came by another way than DBG_TOKEN_SUBMIT and DBG_FUSE_SUBMIT carries no word about
its signature: whether it verifies is a free value. -/
def dbgWrite (off : Nat) (v : Word) (s : State) : State :=
  let ok : Bool := Config.unstated s.free % 2 == 1
  if off = 0x20 then tokenSubmit v ok s.draw
  else if off = 0x24 then fuseSubmit v ok s.draw
  else if (0x100 ≤ off ∧ off < 0x200) ∨ (0x200 ≤ off ∧ off < 0x400) then s.setTok (0x450000 + off) v
  else plainWrite s (0x450000 + off) v

/-! ### All blocks but GATE -/

/-- Where a write to a head block goes: the odd slot of a gang mirrors the even one, whose counters a write to it clears (R217, R6).
DESIGN CHOICE (log 128). -/
def headAlias (s : State) (addr : Nat) : Nat :=
  if 16 ≤ addr / 0x10000 ∧ addr / 0x10000 < 32 ∧ addr % 0x10000 < 0x100 ∧ gangMember s (addr / 0x10000 - 16) then addr - 0x10000 else addr

/-- A performed write of an aligned register word. -/
def routeWrite (a : Access) (addr : Nat) (v : Word) (s : State) : State :=
  if 0xF00000 ≤ addr then windowWrite a ((addr - 0xF00000) / 0x10000) (addr % 0x10000) v s
  else
    let slot := addr / 0x10000
    let off := addr % 0x10000
    if slot = 32 ∨ slot = 33 then tchWrite a (slot - 32) off v s
    else if 52 ≤ slot ∧ slot < 68 then quadWrite a (slot - 52) off v s
    else match slot with
    | 1 => aoWrite off v s | 2 => mgtRegWrite a off v s | 3 => clkWrite off v s | 4 => pwrWrite a off v s | 5 => tbWrite a off v s
    | 6 => ethWrite a off v s | 7 => flwWrite a off v s | 8 => strWrite a off v s | 9 => decWrite a off v s | 10 => ippWrite a off v s
    | 11 => encRegWrite a off v s | 12 => ldgWrite a off v s | 13 => vrdWrite a off v s | 14 => cmpWrite a off v s | 15 => vfyWrite a off v s
    | 34 => hifWrite a off v s
    | 35 => if off = 0 then mgrWrite a v s else s
    | 36 => s
    | 37 => evcWrite off v s | 38 => deskWrite a addr v s | 39 => chnWrite a off v s | 40 => rdnWrite a off v s | 41 => hwkWrite a off v s
    | 68 => errWrite a off v s | 69 => dbgWrite off v s
    | _ => plainWrite s (headAlias s addr) v

end Sys2Proof.Machine
end

