-- ==== Sys2Proof/Machine/Gates.lean ====
section
/-!
DEFINITION. The commands on the access gates (chapter 11), the release of what a hold kept waiting, and the other registers of GATE.
-/

namespace Sys2Proof.Machine

/-- The data of a read goes to its initiator; the management port sends it on the SMBus (R431). -/
def returnData (s : State) (a : Access) (bs : Bytes) (exc : Option Exc := none) : State :=
  let s := s.answer bs exc
  if a.src = 0x60 then s.emit (.mgtData (mgtReply s 0x12 [BitVec.ofNat 8 bs.length] bs)) else s

/-- An access that waits at a gate (R309). -/
def waitAt (s : State) (h : HeldAcc) : State := { s with heldAcc := s.heldAcc ++ [h] }

/-- A read of `n` bytes of a register word at `addr`, from byte `k` of the word. -/
def regFetch (s : State) (a : Access) (t : AccType) (addr k n : Nat) : State :=
  match regDec s a t addr with
  | .go => returnData s a (sliceB (leBytes 4 (readReg s a addr).toNat) k n)
  | .ignored => returnData s a (List.replicate n 0)
  | .violation g => returnData (violation s g a t addr 0) a (List.replicate n 0) (refusalOf a t)
  | .held => waitAt s { acc := a, typ := t, addr := addr + k, len := n, reg := true }

/-- A register access of a wrong size (R18): a desk core's own rules stop it before any gate, with an access fault (R321);
of every other initiator its slot's gate decides first, as log 48 says. It is ignored and recorded as ACCESS_SIZE; a
read brings zeros. `n` bytes at `addr`, in a write 0 where byte enables are missing. -/
def wrongSize (s : State) (a : Access) (t : AccType) (addr n : Nat) : State :=
  let zeros : Bytes := if t = .w then [] else List.replicate n 0
  let back := fun (s : State) => if t = .w then s else returnData s a zeros
  match regDec s a t (addr / 4 * 4) with
  | .ignored => if fromDesk a then s.answer zeros (refusalOf a t) else back s
  | .go => if fromDesk a then (accessEv s evAccessSize a addr).answer zeros (refusalOf a t) else back (accessEv s evAccessSize a addr)
  | .violation g =>
    if fromDesk a then (accessEv s evAccessSize a addr).answer zeros (refusalOf a t)
    else if a.src = 0x62 then (violation s g a t (addr / 4 * 4) 0).answer zeros (refusalOf a t)
    else back (violation s g a t (addr / 4 * 4) 0)
  | .held =>
    if fromDesk a then (accessEv s evAccessSize a addr).answer zeros (refusalOf a t)
    else waitAt s { acc := a, typ := t, addr := addr, len := n, reg := true, ok := false }

/-! ### Parts of a read -/

/-- Puts bytes into place. -/
def spliceB (bs : Bytes) (i : Nat) (new : Bytes) : Bytes := bs.take i ++ new ++ bs.drop (i + new.length)

/-- A memory read or fetch goes on with the parts it has not had (R298, R309): those that pass are read, those refused or
unmapped recorded and read as zeros, those that wait keep the access waiting; with the last of them its data returns. -/
def readOn (s : State) (h : HeldAcc) : State :=
  let wait := h.todo.filter (partWaits s h)
  let now := h.todo.filter fun p => !partWaits s h p
  let bs := now.foldl (fun bs p => spliceB bs (p.1 - h.addr) (partBytes s h.acc h.typ p)) h.data
  let ok := h.ok && now.all fun p => (memDec s h.acc h.typ p.1).1 != .denied
  let s := noteParts (raiseN 3) h.acc h.typ s now
  if wait.isEmpty then returnData s h.acc bs (if ok then none else refusalOf h.acc h.typ)
  else waitAt s { h with data := bs, todo := wait, ok := ok }

/-- A read or fetch of memory. -/
def memFetch (s : State) (a : Access) (t : AccType) (addr n : Nat) : State :=
  readOn s { acc := a, typ := t, addr := addr, len := n, data := List.replicate n 0, todo := partsOf s addr n }

/-! ### AMO, LR, SC and FENCE (R320–R322) -/

/-- The value an AMO stores, of `n` bytes (the A extension of the RISC-V specification that R320 names). PRESUMED (log 117). -/
def amoValue (op : AmoOp) (n old v : Nat) : Nat :=
  let w := 8 * n
  match op with
  | .swap => v
  | .add => (old + v) % 2 ^ w
  | .xor => old ^^^ v
  | .and => old &&& v
  | .or => old ||| v
  | .min => if signed w old ≤ signed w v then old else v
  | .max => if signed w old ≤ signed w v then v else old
  | .minu => Nat.min old v
  | .maxu => Nat.max old v

/-- An AMO or LR/SC of a desk core (R321, Table 12.1): outside desk SRAM a store/AMO access fault before any gate. In desk
SRAM an AMO has to pass as a read and as a write, an LR as a read, an SC as a write. LR takes a reservation; an SC without
one, or whose bytes another initiator has stored to since (R322), fails, and may fail at other times too (Config.scSucceeds): it answers 0 or 1. -/
def coreAtomic (s : State) (h : HeldAcc) : State :=
  let k := h.acc.src.toNat - 8
  let p := (h.addr, h.len)
  let old := s.load h.addr h.len
  let denied := fun (t : AccType) => (noteParts (raiseN 3) h.acc t s [p]).answer [] (some .storeFault)
  if targetOf s h.addr != 6 then s.answer [] (some .storeFault)
  else if partWaits s h p then waitAt s h
  else match h.core with
    | .amo op _ _ =>
      if (memDec s h.acc .r h.addr).1 != .ok then denied .r
      else if (memDec s h.acc .w h.addr).1 != .ok then denied .w
      else ((snoop h.acc h.addr h.len s).storeN h.addr h.len (amoValue op h.len (leNat old) (leNat h.data))).answer old
    | .lr _ _ =>
      if (memDec s h.acc .r h.addr).1 != .ok then (noteParts (raiseN 3) h.acc .r s [p]).answer [] (some .loadFault)
      else (s.setDesk k { s.desk k with resv := some (h.addr, h.len) }).answer old
    | .sc _ _ =>
      if (memDec s h.acc .w h.addr).1 != .ok then denied .w
      else
        let ok : Bool := (s.desk k).resv == some (h.addr, h.len) && Config.scSucceeds s.free
        let s := (s.setDesk k { s.desk k with resv := none }).draw
        if ok then ((snoop h.acc h.addr h.len s).store h.addr h.data).answer (leBytes h.len 0) else s.answer (leBytes h.len 1)
    | _ => s

/-- A FENCE waits for the accesses it orders (R322), which the targets have then accepted. -/
def coreFence (s : State) (h : HeldAcc) : State := if mustWait s h then waitAt s h else s.answer []

/-! ### Release -/

/-- What follows a write of the part that waited at a gate, once it is made or refused (R283, R517). -/
def afterWrite (s : State) (after : After) (r : AccRes) : State :=
  match after, r with
  | .cpl p, .ok => stopSettle (evcPulse s (25 + p)) p
  | .pulse i, .ok => evcPulse s i
  | .cpl p, .denied | .cpl p, .unmapped | .fault p, .denied | .fault p, .unmapped =>
    if (s.part p).state.logs then faultPart s p 7 else s
  | _, _ => s

/-- A part of a write that waited is made, refused, or waits on; a desk core or the debug module whose store is refused
takes its fault (R306, R309). -/
def writeOn (s : State) (h : HeldAcc) : State :=
  let x := queueWrite (raiseN 3) s h.acc h.addr h.data h.after
  if x.2 = .held then x.1
  else
    let s := afterWrite x.1 h.after x.2
    if x.2 = .denied then s.fails h.acc .w else s

/-- A register access that waited (R309). -/
def regOn (s : State) (h : HeldAcc) : State :=
  if !h.ok then wrongSize s h.acc h.typ h.addr h.len
  else if h.typ = .w then
    let v := BitVec.ofNat 32 (leNat h.data)
    regEnter s h.acc h.addr v (routeWrite h.acc h.addr v)
  else regFetch s h.acc h.typ (h.addr / 4 * 4) (h.addr % 4) h.len

/-- Checks once more what waited at the gates, in the order it came (R309): what is still held waits on. -/
def releaseHeld (s : State) : State :=
  s.heldAcc.foldl (fun s h =>
    match h.core with
    | .plain => if h.reg then regOn s h else if h.typ = .w then writeOn s h else readOn s h
    | .fence _ _ => coreFence s h
    | _ => coreAtomic s h) { s with heldAcc := [] }

/-- What follows where an entry leaves HOLD: what waited is checked and goes on (R308, R309), transfers
of the chain that waited among it (R366). -/
def holdOpened (s : State) : State := nextTransfers (fireSignals (releaseHeld s))

/-- A write of an entry's CTRL (R518). -/
def ctrlWrite (k : Nat) (v : Word) (s : State) : State := entryCtrl holdOpened k v s

/-- The entry that an operand names. -/
def stageAddr (e : GateEntry) (i : Nat) : Option Nat :=
  match e with
  | .slot n => if i = 0 then some (GATE_PS_ATTR n.val) else none
  | .region m r => match i with
    | 0 => some (MG_BASE m.val r.val) | 1 => some (MG_ATTR m.val r.val) | 2 => some (MG_PART m.val r.val) | _ => none

/-- CTRL.hold written (R308). -/
def doGateHold (a : Access) (e : GateEntry) (v : Word) (s : State) : State :=
  regAccess s a (gateCtrlAddr (gateKey e)) v (ctrlWrite (gateKey e) v)
def execGateHold (a : Access) (e : GateEntry) (v : BitVec 32) (s : State) : Host.Outcome State Fault Refusal := .next (doGateHold a e v s)

/-- CTRL.apply written (R308, R310). -/
def doGateApply (a : Access) (e : GateEntry) (v : Word) (s : State) : State :=
  regAccess s a (gateCtrlAddr (gateKey e)) v (ctrlWrite (gateKey e) v)
def execGateApply (a : Access) (e : GateEntry) (v : BitVec 32) (s : State) : Host.Outcome State Fault Refusal := .next (doGateApply a e v s)

/-- CTRL.lock written (R315). -/
def doGateLock (a : Access) (e : GateEntry) (v : Word) (s : State) : State :=
  regAccess s a (gateCtrlAddr (gateKey e)) v (ctrlWrite (gateKey e) v)
def execGateLock (a : Access) (e : GateEntry) (v : BitVec 32) (s : State) : Host.Outcome State Fault Refusal := .next (doGateLock a e v s)

/-- A staging register written (R307, R518): a slot has one, a region three. -/
def doGateStagingWrite (a : Access) (e : GateEntry) (i : Fin 3) (v : Word) (s : State) : State :=
  match stageAddr e i.val with
  | some addr => regAccess s a addr v (gateStage (gateKey e) addr v)
  | none => s
def execGateStagingWrite (a : Access) (e : GateEntry) (i : Fin 3) (v : BitVec 32) (s : State) : Host.Outcome State Fault Refusal :=
  .next (doGateStagingWrite a e i v s)

/-- A capture cleared or left (R314): EVC source 47 is high while any capture is valid. -/
def captureWrite (addr : Nat) (v : Word) (s : State) : State :=
  let s := plainWrite s addr v
  evcInput s 47 (anyCapture s)

/-- A performed write of a GATE register (Tables 11.6–11.8). -/
def gateWrite (off : Nat) (v : Word) (s : State) : State :=
  let addr := 0x240000 + off
  if off = 0x10 then captureWrite addr v s
  else if 0x100 ≤ off ∧ off < 0x9C0 then
    match (off - 0x100) % 0x20 with
    | 0x00 => gateStage ((off - 0x100) / 0x20) addr v s
    | 0x08 => ctrlWrite ((off - 0x100) / 0x20) v s
    | 0x0C => captureWrite addr v s
    | _ => plainWrite s addr v
  else if 0x1000 ≤ off ∧ off < 0x5000 then
    let m := (off - 0x1000) / 0x800
    let o := (off - 0x1000) % 0x800
    if o = 0x10 then captureWrite addr v s
    else if 0x100 ≤ o ∧ o < 0x300 then
      let k := 70 + 32 * m + (o - 0x100) / 0x10
      if o % 0x10 = 0xC then ctrlWrite k v s else if o % 4 = 0 then gateStage k addr v s else s
    else plainWrite s addr v
  else plainWrite s addr v

/-- A performed write of any register. -/
def registerEffect (a : Access) (addr : Nat) (v : Word) (s : State) : State :=
  if addr / 0x10000 = 36 then gateWrite (addr % 0x10000) v s else routeWrite a addr v s

end Sys2Proof.Machine
end

