-- ==== Sys2Proof/Machine/Access.lean ====
section
/-!
DEFINITION. Accesses of initiators: a register write (R6, R18), the words of the management port (R431), and the reads,
writes and fetches of desk cores, BAR2, the debug module and the management port (R16, R22, R298, R304, R306, R321).
-/

namespace Sys2Proof.Machine

/-- Whether an address lies in register space: the blocks and the partition windows (Table 1.4). -/
def inRegs (addr : Nat) : Bool := decide (addr < 0x1000000)

/-- Whether a debug initiator asks while none is permitted (R448). -/
def debugBarred (s : State) (a : Access) : Bool := a.level == .debug && !debugOn s

/-- Whether the memory at an address is powered (R14): the vault with the ring island, all other memory with the core. -/
def memPowered (s : State) (addr : Nat) : Bool :=
  match place s addr with
  | .gated 7 _ => s.ctl.ring
  | _ => s.ctl.core

/-- The gate that records a refused BAR2 write, with the bits of its capture above the common ones: the memory gate, the
fixed guards, and where BAR2 is based in register space the slot. -/
def gateAt (s : State) (addr : Nat) : Option (Nat × Nat) :=
  match place s addr with
  | .gated m _ => some (70 + m, 0)
  | .rom => some (78, 0)
  | .ledger => some (78, 2 ^ 18)
  | .glog => some (78, 2 * 2 ^ 18)
  | .flash => some (78, 3 * 2 ^ 18)
  | .reg slot _ => some (slot, 0)
  | .window _ _ => some (35, 0)
  | _ => none

/-- A write of bytes to memory (R16, R304, R306): each part by itself. -/
def memPut (s : State) (a : Access) (addr : Nat) (bs : Bytes) : State :=
  if debugBarred s a || !memPowered s addr then s.answer []
  else
    let x := queueWrite (raiseN 3) s a addr bs
    if x.2 = .held then x.1 else x.1.answer [] (seenExc a .w x.2)

/-- A BAR2 write outside debug mode (R22): ignored and recorded as a violation at the memory gate. -/
def bar2Refused (s : State) (a : Access) (addr : Nat) : State :=
  match gateAt s addr with
  | some g => (violation s g.1 a .w addr g.2).answer []
  | none => (unmappedEv (raiseN 3) s a addr).answer []

/-- A read or fetch of memory. -/
def memGet (s : State) (a : Access) (t : AccType) (addr n : Nat) : State :=
  if debugBarred s a || !memPowered s addr then returnData s a (List.replicate n 0) else memFetch s a t addr n

/-- A register word written. -/
def regPut (s : State) (a : Access) (addr : Nat) (v : Word) : State := regAccess s a addr v (registerEffect a addr v)

/-- A word written anywhere in the map. -/
def wordPut (s : State) (a : Access) (addr : Nat) (v : Word) : State :=
  if inRegs addr then regPut s a addr v else memPut s a addr (leBytes 4 v.toNat)

/-- A word read anywhere in the map. -/
def wordGet (s : State) (a : Access) (addr : Nat) : State :=
  if inRegs addr then regFetch s a .r addr 0 4 else memGet s a .r addr 4

/-! ### Commands -/

/-- Whether the map lists an address (Table 1.4, R17). -/
def listed (s : State) (addr : Nat) : Bool := match place s addr with | .reserved | .unmapped => false | _ => true

/-- A write of a register word (R6, R18): partial byte enables and an address that is not aligned make it ignored; at an address
outside the map it is dropped and recorded (R16), in memory there is no register. -/
def doRegisterWrite (a : Access) (addr : BitVec 40) (be : BitVec 4) (v : Word) (s : State) : State :=
  let t := modeSeen s a
  if !t.carries a addr.toNat then s
  else if !inRegs addr.toNat then (if listed t addr.toNat then s else memPut t a addr.toNat (leBytes 4 v.toNat))
  else if !(be == 0xF && addr.toNat % 4 == 0) then wrongSize t a .w addr.toNat 0
  else regPut t a addr.toNat v
def execRegisterWrite (a : Access) (addr : BitVec 40) (be : BitVec 4) (v : BitVec 32) (s : State) : Host.Outcome State Fault Refusal :=
  .next (doRegisterWrite a addr be v s)

/-- The management port's pointer moves to the next word (R431). -/
def mgtAdvance (s : State) : State := s.setPair MGT_PTR_LO MGT_PTR_HI ((s.pair MGT_PTR_LO MGT_PTR_HI + 4) % 2 ^ 40)

/-- Command 0x11 writes the words in turn; a count that Table 16.2 does not list makes the transaction unsupported. -/
def doMgtWriteWords (ws : List (BitVec 32)) (pecOk : Bool) (s : State) : State :=
  if ws.length = 0 ∨ 8 < ws.length then doMgtUnsupportedTransaction s
  else mgtWrite s pecOk fun s => ws.foldl (fun s v => mgtAdvance (wordPut s mgtAccess (s.pair MGT_PTR_LO MGT_PTR_HI) v)) s
def execMgtWriteWords (ws : List (BitVec 32)) (pecOk : Bool) (s : State) : Host.Outcome State Fault Refusal :=
  .next (doMgtWriteWords ws pecOk s)

/-- Command 0x12 reads the word at the pointer. -/
def doMgtReadWord (s : State) : State :=
  if mgtOn s then mgtAdvance (wordGet s mgtAccess (s.pair MGT_PTR_LO MGT_PTR_HI)) else s
def execMgtReadWord (s : State) : Host.Outcome State Fault Refusal := .next (doMgtReadWord s)

/-- How a desk core's own rules stop an access before any gate (R321, Table 12.1): a register access that is no aligned word with an
access fault, misaligned ones among them, a misaligned access elsewhere outside desk SRAM with its own exception, a fetch from the
vault, the ledger SRAM or the global log. -/
def deskStops (s : State) (a : Access) (t : AccType) (addr n : Nat) : Option Exc :=
  if !fromDesk a then none
  else match t, place s addr with
    | .x, .gated 7 _ | .x, .ledger | .x, .glog => some .fetchFault
    | .x, _ => none
    | _, .gated 6 _ => none
    | _, _ =>
      if inRegs addr then (if n = 4 ∧ addr % 4 = 0 then none else some (faultOf a t))
      else if n ≠ 0 && addr % n != 0 then some (if t = .w then .storeMisaligned else .loadMisaligned)
      else none

/-- An access to register space (R18, R300): an execute access is refused by the slot's gate; words of an aligned one, the
enabled bytes of one word for a narrower read. -/
def regsAccess (s : State) (a : Access) (t : AccType) (addr n : Nat) (bs : Bytes) : State :=
  if t = .x then regFetch s a t (addr / 4 * 4) (addr % 4) n
  else if t = .w then
    if n = 4 ∧ addr % 4 = 0 then regPut s a addr (BitVec.ofNat 32 (leNat bs)) else wrongSize s a t addr n
  else if addr % 4 + n ≤ 4 then regFetch s a t (addr / 4 * 4) (addr % 4) n
  else wrongSize s a t addr n

/-- A plain load, store or fetch at an internal address (R16, R298, R304, R306, R321). A register access that a desk core's
rules stop is recorded as ACCESS_SIZE where it finds a block (R18, R321). -/
def plainAccess (s : State) (a : Access) (t : AccType) (n len : Nat) (data : Bytes) : State :=
  match deskStops s a t n len with
  | some e =>
    (if inRegs n then wrongSize s a t n len else s).answer (if t = .w then [] else List.replicate len 0) (some e)
  | none =>
    if inRegs n then regsAccess s a t n len data
    else if t = .w then memPut s a n (sliceB data 0 len)
    else memGet s a t n len

/-- The internal address that an initiator's address names: an offset of BAR2, or the address itself (R22). -/
def mapAddr (s : State) (a : Access) (bar2 : Bool) (addr : Nat) : Nat := if bar2 then bar2Addr s a.src.toNat addr else addr

/-- Whether an initiator can make an access: a host reaches BAR0 and BAR2 alone and carries what they carry there; a desk
core what its mode and register give; the TAP's AUTH instruction reaches no memory (R448); with the core domain off the management
port alone (R19, R22, log 116). -/
def canAccess (s : State) (a : Access) (bar2 : Bool) (addr : Nat) : Bool :=
  if !s.ctl.core then a.level == .p3
  else if bar2 then decide (a.src.toNat < 4) && bar2Carries s a && decide (addr < 2 ^ 28)
  else if a.src.toNat < 4 then bar0Carries s a addr
  else if a.src = 0x62 && a.level = .p3 && !inRegs addr then false
  else s.carries a addr

/-- An access of an initiator to the internal map (R16, R19, R22, R298, R304, R306, R321). One of an identity that the
initiator does not carry, or an AMO, LR, SC or FENCE of other than a running desk core, cannot arise and changes nothing (log 2). -/
def doInitiatorMemoryAccess (a : Access) (bar2 : Bool) (k : CoreOp) (t : AccType) (addr : BitVec 40) (len : Nat) (data : Bytes)
    (s : State) : State :=
  let s1 := modeDrawn s a
  let n := mapAddr s a bar2 addr.toNat
  if !canAccess s1 a bar2 addr.toNat || (k != .plain && !(s.ctl.core && fromDesk a)) then s
  else match k with
    | .plain => if bar2 && t == .w && a.level == .p0 then bar2Refused s1 a n else plainAccess s1 a t n len data
    | .fence _ _ => coreFence s1 { acc := a, typ := t, addr := n, len := 0, core := k }
    | _ => coreAtomic s1 { acc := a, typ := t, addr := n, len := len, data := sliceB data 0 len, core := k }
def execInitiatorMemoryAccess (a : Access) (f : AccForm) (addr : BitVec 40) (len : Nat) (data : List (BitVec 8)) (s : State) :
    Host.Outcome State Fault Refusal := .next (doInitiatorMemoryAccess a f.bar2 f.core f.typ addr len data s)

end Sys2Proof.Machine
end

