-- ==== Sys2Proof/Machine/Boot.lean ====
section
/-!
DEFINITION. The PRIME sequence from its step 3 on (R447, R449, R450, R317) and what follows it (R389, R390, R445), and the
application of newer checkpoints in SHADOW (R391).
-/

namespace Sys2Proof.Machine

/-! ### The PRIME sequence -/

/-- In RMA device memory, desk SRAM and the vault are zeroed in every PRIME sequence (Table 16.7); desk SRAM always is. -/
def bootZero (s : State) : State := if s.fuses.cycleNow = 3 then { s with mem := [] } else s

/-- Whether channel `c` is trained from its cached data (R429): they are present, the devices are those they were made with, and the
verification passes. -/
def trainsWarm (s : State) (c : Nat) (ch : Channel) : Bool :=
  match tget (fun _ => none) s.ctl.cache c with
  | some x => x.1 == ch.ident && ch.warm
  | none => false

/-- Step 4 for channel `c` (R17, R429, R450): trained from the cache or else cold, whose results are then stored; SYS_MEM_SIZE with
31/32 of the capacity installed, or MEM_TRAIN_FAIL. -/
def bootChannel (b : Boot) (s : State) (c : Nat) : State :=
  match b.channels[c]? with
  | none => s.setReg (SYS_MEM_SIZE c) 0
  | some ch =>
    let size := ch.size.toNat * 31 / 32
    let warm := trainsWarm s c ch
    let s := s.setReg (SYS_MEM_SIZE c) (if 0 < size ∧ (warm || ch.cold) then BitVec.ofNat 32 (size + 2 ^ 31) else 0)
    if size = 0 ∨ warm then s
    else if ch.cold then
      { s with ctl := { s.ctl with cache := tset (fun _ => none) s.ctl.cache c (some (ch.ident, ch.results)) } }.setBit AO_TRAIN c true
    else raise s evMemTrainFail 2 1 31 []

/-- Whether boot accepts an image (R447, Table 16.7): magic and signature hold, the key is in the fuses, not revoked and one that the
lifecycle permits, a development key in DEV alone, and the security version is at least the fused minimum. -/
def imageOk (s : State) (i : Image) : Bool :=
  let k := i.key.toNat
  i.signed && decide (s.fuses.minSv.toNat ≤ i.sv.toNat)
    && (fieldSigned s k 4 || (k == 0x80 && s.fuses.devKey && s.fuses.cycleNow == 1))

/-- The image taken (R447): 0 slot A, 1 slot B, none where neither is accepted. -/
def bootImage (b : Boot) (s : State) : Option Nat :=
  match imageOk s b.imageA, imageOk s b.imageB with
  | true, true => if b.imageA.sv.toNat < b.imageB.sv.toNat then some 1 else some 0
  | true, false => some 0
  | false, true => some 1
  | false, false => none

/-- Whether both images are accepted. -/
def bothImages (b : Boot) (s : State) : Bool := imageOk s b.imageA && imageOk s b.imageB

/-- Applies one entry of the image's gate section, and locks it unless an unlock was taken (R317, R448). The words are those
of its staging registers, its on bit last. -/
def bootGate (s : State) (x : GateEntry × List (BitVec 32) × Bool) : State :=
  let k := gateKey x.1
  let n := (stageRegs k).length
  let on := bitOf (x.2.1.getD n 0).toNat 0
  let s := setEntry k ((List.range n).map fun i => x.2.1.getD i 0) on s
  if x.2.2 && !s.fuses.unlockNow then entryCtrl id k (BitVec.ofNat 32 (2 ^ 11 + 16 * Bool.nat on)) s else s

/-- Step 6 for core `k`: partition and start address, then its run bit (R323). -/
def bootCore (b : Boot) (s : State) (k : Nat) : State :=
  match b.cores[k]? with
  | none => s
  | some c =>
    if !c.2.2 then s
    else
      let s := s.setReg (DSK_CORE_PART k) (BitVec.ofNat 32 c.2.1.toNat)
      let s := s.setPair (DSK_CORE_VEC_LO k) (DSK_CORE_VEC_HI k) (c.1.toNat / 4 * 4)
      deskStart (s.setBit DSK_CTRL k true) k

/-- Step 5's end: LDG_STATUS.ready, with it the sweeper's first pass, and DEBUG accesses are let through from here on where the lifecycle permits them (R317);
with no image accepted there is no entry to apply (log 118). -/
def bootReady (s : State) : State := { s.setBit LDG_STATUS 0 true with sweepAt := s.island, sweepMs := s.fld LDG_SWEEP 0 16, ctl := { s.ctl with gatesUp := true } }

/-- Steps 3 to 6 (R447, R449, R450). -/
def bootSteps (b : Boot) (s : State) : State :=
  let s := (List.range 6).foldl (bootChannel b) (bootZero s)
  match bootImage b s with
  | none =>
    bootReady (raise { s with ctl := { s.ctl with bootBad := true } } evBootFail 2 1 31 [])
  | some _ =>
    let s := if bothImages b s then s else raise s evBootFallback 1 1 31 []
    let s := bootReady (b.gates.foldl bootGate s)
    (List.range 4).foldl (bootCore b) s

/-- Step 8 (R443, R449): the sequence is complete and a pending request decided. -/
def bootDone (s : State) : State :=
  let byReq : Bool := match s.ctl.target with | some t => t.2 | none => false
  let s := { s with ctl := { s.ctl with target := none, primeOk := !s.ctl.bootBad } }
  if byReq then modeDecided s 0 Mode.prime.code else s

/-- A yield-worthy event raised during the transition acts when it completes (R445). -/
def takeLatent (s : State) : State :=
  match s.ctl.latent with
  | none => s
  | some e =>
    let s := { s with ctl := { s.ctl with latent := none } }
    if s.ctl.mode.yields then enterYield s e.1 e.2.1 e.2.2.1 e.2.2.2 else s

/-- The PRIME sequence ends (R449): steps 3 to 8, then the restore and the target transition where one is wanted. -/
def doPrimeSequenceComplete (b : Boot) (s : State) : State :=
  if !s.ctl.core || s.ctl.mode != .prime || s.ctl.target.isNone then s
  else
    let s := bootDone (bootSteps b s)
    let s := if s.rdn.trigger ≠ 0 && !s.ctl.bootBad then restoreEnd b.ckptEcc s else s
    takeDeferred (takeLatent (holdOpened s))
def execPrimeSequenceComplete (b : Boot) (s : State) : Host.Outcome State Fault Refusal := .next (doPrimeSequenceComplete b s)

/-- A request whose transition ends without completing is decided; with which result is not stated, a free value (R291,
R443; log 20). -/
def modeCut (byReq : Bool) (s : State) : State :=
  if byReq then modeDecided s.draw (Config.unstated s.free % 8) Mode.prime.code else s

/-- A rail or PLL does not come up within ten times its step limit (R450): the part stays in PRIME, its sequence at an end;
a marked PRIME_TIMEOUT enters YIELD, and so does what was latched in the transition (R445). With no core domain powered there is no log
to record it in: it is recorded when the rails come up. DESIGN CHOICE (log 156). -/
def doPrimeTimeout (_limit : BitVec 8) (s : State) : State :=
  let s := autoPrime s
  match s.ctl.mode, s.ctl.target with
  | .prime, some t =>
    let s := modeCut t.2 { s with ctl := { s.ctl with target := none, late := !s.ctl.core }, rdn := { s.rdn with trigger := 0, deferred := false } }
    takeLatent (raise s evPrimeTimeout 3 1 31 [])
  | _, _ => s
def execPrimeTimeout (limit : BitVec 8) (s : State) : Host.Outcome State Fault Refusal := .next (doPrimeTimeout limit s)

/-! ### SHADOW -/

/-- Whether a frame boundary of a group falls at this instant. -/
def atBoundary (s : State) (g : Nat) : Bool := tgMakes s g && !(s.tg g).first && (s.tg g).boundary == s.now

/-- Applies the first of some slots that passes its checks; what their ECC finds is open (log 163). -/
def applyNewer : List Nat → State → State
  | [], s => s
  | i :: is, s =>
    let e : Ecc := match Config.vaultEcc s.free with | 0 => .ok | 1 => .corrected | _ => .bad
    let g := slotGen s i
    let len := s.loadN (slotBase i + 4) 4
    let x := checkSlot s.draw i e
    match x.2 with
    | .inr _ => applyNewer is x.1
    | .inl c => ckptShown (relinkAll (holdOpened (applyCarried (captureState x.1) c x.1))) g len

/-- In SHADOW, at a frame boundary of swap_tg, a newer valid checkpoint of the vault is applied (R391), the newest that passes its
checks (log 61). -/
def doShadowApply (s : State) : State :=
  if s.ctl.mode != .shadow || rdnRole s ≠ 2 || !atBoundary s (swapTg s) then s
  else applyNewer ((slotOrder s).filter fun i => decide ((slotGen s i - s.rdn.gen).toInt > 0)) s
def execShadowApply (s : State) : Host.Outcome State Fault Refusal := .next (doShadowApply s)

end Sys2Proof.Machine
end

