-- ==== Sys2Proof/Machine/Boundary.lean ====
section
/-!
DEFINITION. The frame boundary of a timing group (R83, R199): what a role swap does at it, the heads and touch ports of
the group, the steering, and the seal groups that follow it.
-/

namespace Sys2Proof.Machine

/-- The heads of a timing group (R80). -/
def tgMembers (s : State) (g : Nat) : List Nat := (List.range 16).filter fun n => (s.head n).isSet && (s.head n).tg == g

/-- Egress slots of a head count the frame that ends without having been written back (R111). -/
def egressMissed (s : State) (n : Nat) : State :=
  let h := s.head n
  if !(h.enabled && h.wbCur.isNone) then s
  else s.each 8 fun s k => if (s.egr k).enabled && (s.egr k).head == n then s.inc (ETH_EGR_SKIP k) else s

/-- A boundary of group `g`, in the order: the swap, the heads, the touch ports synchronised to them, the steering of the
frame that begins, the seal groups. -/
def boundaryOf (s : State) (g : Nat) : State :=
  let ms := tgMembers s g
  let s := ms.foldl (fun s n => headBoundary (egressMissed s n) n) s
  let s := ms.foldl touchBoundary s
  let s := tgSteer s g
  s.each 16 fun s k => if sgOn s k && sgTg s k == g then sealBoundary s k s.now else s

/-- A frame boundary of timing group `g` (R83), when the frame has had its length. -/
def doTgFrameBoundary (g : Fin 8) (s : State) : State :=
  if !s.ctl.core || !tgMakes s g.val || !tgDue s g.val then s
  else
    let s := swapBoundary s g.val
    if s.ctl.core then boundaryOf s g.val else s
def execTgFrameBoundary (g : Fin 8) (s : State) : Host.Outcome State Fault Refusal := .next (doTgFrameBoundary g s)

end Sys2Proof.Machine
end

