-- ==== Sys2Proof/Machine/Dispatch.lean ====
section
/-!
DEFINITION. The dispatch: one arm per command of the table, each a call of that command's meaning.
-/

namespace Sys2Proof.Machine

/-- What a command does to the block, its queue aside. -/
def exec (i : Instr) (s : State) : Host.Outcome State Fault Refusal :=
  match i with
  | .partCreate q => Sys2Proof.Machine.execPartCreate q s
  | .partGrant q => Sys2Proof.Machine.execPartGrant q s
  | .partQuota q => Sys2Proof.Machine.execPartQuota q s
  | .partStop q => Sys2Proof.Machine.execPartStop q s
  | .partDestroy q => Sys2Proof.Machine.execPartDestroy q s
  | .flowAdd q => Sys2Proof.Machine.execFlowAdd q s
  | .flowCfg q => Sys2Proof.Machine.execFlowCfg q s
  | .flowStop q => Sys2Proof.Machine.execFlowStop q s
  | .flowDel q => Sys2Proof.Machine.execFlowDel q s
  | .flowSend q => Sys2Proof.Machine.execFlowSend q s
  | .flowEgress q => Sys2Proof.Machine.execFlowEgress q s
  | .streamOpen q => Sys2Proof.Machine.execStreamOpen q s
  | .streamParams q => Sys2Proof.Machine.execStreamParams q s
  | .streamClose q => Sys2Proof.Machine.execStreamClose q s
  | .decBind q => Sys2Proof.Machine.execDecBind q s
  | .decUnbind q => Sys2Proof.Machine.execDecUnbind q s
  | .decFlush q => Sys2Proof.Machine.execDecFlush q s
  | .ippRun q => Sys2Proof.Machine.execIppRun q s
  | .ippFollow q => Sys2Proof.Machine.execIppFollow q s
  | .ippUnfollow q => Sys2Proof.Machine.execIppUnfollow q s
  | .encOpen q => Sys2Proof.Machine.execEncOpen q s
  | .encPic q => Sys2Proof.Machine.execEncPic q s
  | .encRefresh q => Sys2Proof.Machine.execEncRefresh q s
  | .encClose q => Sys2Proof.Machine.execEncClose q s
  | .surfCreate q => Sys2Proof.Machine.execSurfCreate q s
  | .surfRelease q => Sys2Proof.Machine.execSurfRelease q s
  | .surfUpload q => Sys2Proof.Machine.execSurfUpload q s
  | .layerCreate q => Sys2Proof.Machine.execLayerCreate q s
  | .layerUpdate q => Sys2Proof.Machine.execLayerUpdate q s
  | .layerDestroy q => Sys2Proof.Machine.execLayerDestroy q s
  | .sealGroup q => Sys2Proof.Machine.execSealGroup q s
  | .sealCmd q => Sys2Proof.Machine.execSeal q s
  | .fenceSignal q => Sys2Proof.Machine.execFenceSignal q s
  | .fenceWait q => Sys2Proof.Machine.execFenceWait q s
  | .fenceWaitPoll part ring read => Sys2Proof.Machine.execFenceWaitPoll part ring read s
  | .headSet q => Sys2Proof.Machine.execHeadSet q s
  | .headEnable q => Sys2Proof.Machine.execHeadEnable q s
  | .headWb q => Sys2Proof.Machine.execHeadWb q s
  | .headLink q => Sys2Proof.Machine.execHeadLink q s
  | .linkTrainingDone head t => Sys2Proof.Machine.execLinkTrainingDone head t s
  | .headAux q => Sys2Proof.Machine.execHeadAux q s
  | .auxReply head r => Sys2Proof.Machine.execAuxReply head r s
  | .tchCfg q => Sys2Proof.Machine.execTchCfg q s
  | .tchMap q => Sys2Proof.Machine.execTchMap q s
  | .tchBaseline q => Sys2Proof.Machine.execTchBaseline q s
  | .tchRebase q => Sys2Proof.Machine.execTchRebase q s
  | .tchRaw q => Sys2Proof.Machine.execTchRaw q s
  | .tchSelftest q => Sys2Proof.Machine.execTchSelftest q s
  | .tchRing q => Sys2Proof.Machine.execTchRing q s
  | .dceComp q => Sys2Proof.Machine.execDceComp q s
  | .dceDecomp q => Sys2Proof.Machine.execDceDecomp q s
  | .dceStart e => Sys2Proof.Machine.execDceStart e s
  | .dceItemComplete e host => Sys2Proof.Machine.execDceItemComplete e host s
  | .crcRun q => Sys2Proof.Machine.execCrcRun q s
  | .crcJobEnd u host => Sys2Proof.Machine.execCrcJobEnd u host s
  | .timeAdj q => Sys2Proof.Machine.execTimeAdj q s
  | .timeStep q => Sys2Proof.Machine.execTimeStep q s
  | .timeRead q => Sys2Proof.Machine.execTimeRead q s
  | .timePtpTx q => Sys2Proof.Machine.execTimePtpTx q s
  | .chnTxStream q => Sys2Proof.Machine.execChnTxStream q s
  | .chnRxStream q => Sys2Proof.Machine.execChnRxStream q s
  | .chnTxSurf q => Sys2Proof.Machine.execChnTxSurf q s
  | .chnRxSurf q => Sys2Proof.Machine.execChnRxSurf q s
  | .chnSend q => Sys2Proof.Machine.execChnSend q s
  | .chnRxring q => Sys2Proof.Machine.execChnRxring q s
  | .rdnCkpt q => Sys2Proof.Machine.execRdnCkpt q s
  | .rdnShadow q => Sys2Proof.Machine.execRdnShadow q s
  | .rdnSwap q => Sys2Proof.Machine.execRdnSwap q s
  | .rdnTakeover q => Sys2Proof.Machine.execRdnTakeover q s
  | .abort q => Sys2Proof.Machine.execAbort q s
  | .tbSnapGo a v => Sys2Proof.Machine.execTbSnapGo a v s
  | .tbAdjAdj a v => Sys2Proof.Machine.execTbAdjAdj a v s
  | .tbAdjStep a v => Sys2Proof.Machine.execTbAdjStep a v s
  | .adjustmentEffect => Sys2Proof.Machine.execAdjustmentEffect s
  | .vrdCommit a v => Sys2Proof.Machine.execVrdCommit a v s
  | .commitDecided => Sys2Proof.Machine.execCommitDecided s
  | .tgCtrlWrite a g v => Sys2Proof.Machine.execTgCtrlWrite a g v s
  | .tgRephase a g v => Sys2Proof.Machine.execTgRephase a g v s
  | .prtMgrWrite a v => Sys2Proof.Machine.execPrtMgrWrite a v s
  | .prtSwStart a p v => Sys2Proof.Machine.execPrtSwStart a p v s
  | .prtSwStop a p v => Sys2Proof.Machine.execPrtSwStop a p v s
  | .gateHold a e v => Sys2Proof.Machine.execGateHold a e v s
  | .gateApply a e v => Sys2Proof.Machine.execGateApply a e v s
  | .gateLock a e v => Sys2Proof.Machine.execGateLock a e v s
  | .gateStagingWrite a e k v => Sys2Proof.Machine.execGateStagingWrite a e k v s
  | .evcSetpend a v => Sys2Proof.Machine.execEvcSetpend a v s
  | .evcClrpend a v => Sys2Proof.Machine.execEvcClrpend a v s
  | .evcClaim a k v => Sys2Proof.Machine.execEvcClaim a k v s
  | .evcEoi a k v => Sys2Proof.Machine.execEvcEoi a k v s
  | .evcSourceInput id level => Sys2Proof.Machine.execEvcSourceInput id level s
  | .dskRunWrite a v => Sys2Proof.Machine.execDskRunWrite a v s
  | .wfiSleep k => Sys2Proof.Machine.execWfiSleep k s
  | .wakeLatch k => Sys2Proof.Machine.execWakeLatch k s
  | .chnEnum a v => Sys2Proof.Machine.execChnEnum a v s
  | .enumTimeout => Sys2Proof.Machine.execEnumTimeout s
  | .chnTrain a p v => Sys2Proof.Machine.execChnTrain a p v s
  | .chnDown a p v => Sys2Proof.Machine.execChnDown a p v s
  | .chnSlip a p v => Sys2Proof.Machine.execChnSlip a p v s
  | .wordLock p lane => Sys2Proof.Machine.execWordLock p lane s
  | .laneDeskew p sameSide skew => Sys2Proof.Machine.execLaneDeskew p sameSide skew s
  | .readyBitReceived p => Sys2Proof.Machine.execReadyBitReceived p s
  | .lockLost p lane => Sys2Proof.Machine.execLockLost p lane s
  | .chnVaultWrite a v => Sys2Proof.Machine.execChnVaultWrite a v s
  | .chnLogicalWrite a v => Sys2Proof.Machine.execChnLogicalWrite a v s
  | .rdnCmdTakeover a v => Sys2Proof.Machine.execRdnCmdTakeover a v s
  | .rdnCmdShadow a v => Sys2Proof.Machine.execRdnCmdShadow a v s
  | .rdnCmdKeep a v => Sys2Proof.Machine.execRdnCmdKeep a v s
  | .rdnCmdCkpt a v => Sys2Proof.Machine.execRdnCmdCkpt a v s
  | .hwkClear a v => Sys2Proof.Machine.execHwkClear a v s
  | .modeRequest a v => Sys2Proof.Machine.execModeRequest a v s
  | .primeSequenceComplete b => Sys2Proof.Machine.execPrimeSequenceComplete b s
  | .aoHoldSet a v => Sys2Proof.Machine.execAoHoldSet a v s
  | .aoTrainInvalidate a v => Sys2Proof.Machine.execAoTrainInvalidate a v s
  | .mgtSetPointer ptr pecOk => Sys2Proof.Machine.execMgtSetPointer ptr pecOk s
  | .mgtWriteWords ws pecOk => Sys2Proof.Machine.execMgtWriteWords ws pecOk s
  | .mgtReadWord => Sys2Proof.Machine.execMgtReadWord s
  | .mgtModeRequest code pecOk => Sys2Proof.Machine.execMgtModeRequest code pecOk s
  | .mgtReadMode => Sys2Proof.Machine.execMgtReadMode s
  | .mboxIn7Write a v => Sys2Proof.Machine.execMboxIn7Write a v s
  | .mboxOut7Write a v => Sys2Proof.Machine.execMboxOut7Write a v s
  | .dbgTokenSubmit a v verifies => Sys2Proof.Machine.execDbgTokenSubmit a v verifies s
  | .dbgFuseSubmit a v verifies => Sys2Proof.Machine.execDbgFuseSubmit a v verifies s
  | .qd15UseWrite a v => Sys2Proof.Machine.execQd15UseWrite a v s
  | .qdTestWrite a n v => Sys2Proof.Machine.execQdTestWrite a n v s
  | .laneSlip a n l v => Sys2Proof.Machine.execLaneSlip a n l v s
  | .injectSingle a n l v => Sys2Proof.Machine.execInjectSingle a n l v s
  | .injectBurst a n l v => Sys2Proof.Machine.execInjectBurst a n l v s
  | .registerWrite a addr be v => Sys2Proof.Machine.execRegisterWrite a addr be v s
  | .porstNLow => Sys2Proof.Machine.execPorstNLow s
  | .porstNRise straps => Sys2Proof.Machine.execPorstNRise straps s
  | .corePgFall => Sys2Proof.Machine.execCorePgFall s
  | .wakeNEdge ns => Sys2Proof.Machine.execWakeNEdge ns s
  | .genlockEdge pin => Sys2Proof.Machine.execGenlockEdge pin s
  | .tsyncEdge pin => Sys2Proof.Machine.execTsyncEdge pin s
  | .hpdTransition head level => Sys2Proof.Machine.execHpdTransition head level s
  | .hpdDisconnect head => Sys2Proof.Machine.execHpdDisconnect head s
  | .irqHpd head dpcd => Sys2Proof.Machine.execIrqHpd head dpcd s
  | .hostLinkDown p => Sys2Proof.Machine.execHostLinkDown p s
  | .ethFrameRx p frame => Sys2Proof.Machine.execEthFrameRx p frame s
  | .srTimeout f => Sys2Proof.Machine.execSrTimeout f s
  | .auRelease f => Sys2Proof.Machine.execAuRelease f s
  | .egressPacket e => Sys2Proof.Machine.execEgressPacket e s
  | .tileRecordApply e => Sys2Proof.Machine.execTileRecordApply e s
  | .sweeperVisit entry e => Sys2Proof.Machine.execSweeperVisit entry e s
  | .decodeStart core info => Sys2Proof.Machine.execDecodeStart core info s
  | .decodeComplete core r => Sys2Proof.Machine.execDecodeComplete core r s
  | .pictureOutput ctx => Sys2Proof.Machine.execPictureOutput ctx s
  | .ippStart inst => Sys2Proof.Machine.execIppStart inst s
  | .ippComplete inst => Sys2Proof.Machine.execIppComplete inst s
  | .encPictureStart sess => Sys2Proof.Machine.execEncPictureStart sess s
  | .encPictureComplete sess sets heads rows => Sys2Proof.Machine.execEncPictureComplete sess sets heads rows s
  | .tgFrameBoundary g => Sys2Proof.Machine.execTgFrameBoundary g s
  | .commitPoint head => Sys2Proof.Machine.execCommitPoint head s
  | .fenceReadReturn head host addr read => Sys2Proof.Machine.execFenceReadReturn head host addr read s
  | .fenceDeadline head => Sys2Proof.Machine.execFenceDeadline head s
  | .sealInstantS g => Sys2Proof.Machine.execSealInstantS g s
  | .sealInstantD g => Sys2Proof.Machine.execSealInstantD g s
  | .sealInstantC g => Sys2Proof.Machine.execSealInstantC g s
  | .bandEvaluation head band bad fixed => Sys2Proof.Machine.execBandEvaluation head band bad fixed s
  | .bandLate head band => Sys2Proof.Machine.execBandLate head band s
  | .vrdWatchdog head => Sys2Proof.Machine.execVrdWatchdog head s
  | .gateIsoLate head band layer lo hi => Sys2Proof.Machine.execGateIsoLate head band layer lo hi s
  | .witnessBandCompare head band unpainted => Sys2Proof.Machine.execWitnessBandCompare head band unpainted s
  | .bandCrcCompare head band fault => Sys2Proof.Machine.execBandCrcCompare head band fault s
  | .wbReadback head band fault => Sys2Proof.Machine.execWbReadback head band fault s
  | .writebackComplete head => Sys2Proof.Machine.execWritebackComplete head s
  | .sinkCrcRead head r => Sys2Proof.Machine.execSinkCrcRead head r s
  | .mirrorWrite p => Sys2Proof.Machine.execMirrorWrite p s
  | .doorbellRead p page descs plogCons => Sys2Proof.Machine.execDoorbellRead p page descs plogCons s
  | .descriptorAccept p ring host => Sys2Proof.Machine.execDescriptorAccept p ring host s
  | .jobCompletion => Sys2Proof.Machine.execJobCompletion s
  | .backlogWrite p => Sys2Proof.Machine.execBacklogWrite p s
  | .enumRx p m => Sys2Proof.Machine.execEnumRx p m s
  | .timeRx p m ingress => Sys2Proof.Machine.execTimeRx p m ingress s
  | .timeSend => Sys2Proof.Machine.execTimeSend s
  | .readyRx p m => Sys2Proof.Machine.execReadyRx p m s
  | .commitRx p m => Sys2Proof.Machine.execCommitRx p m s
  | .helloSend => Sys2Proof.Machine.execHelloSend s
  | .helloRx p m => Sys2Proof.Machine.execHelloRx p m s
  | .helloTimeout addr => Sys2Proof.Machine.execHelloTimeout addr s
  | .yieldRx p m => Sys2Proof.Machine.execYieldRx p m s
  | .ctrlRx p m => Sys2Proof.Machine.execCtrlRx p m s
  | .streamRx p m => Sys2Proof.Machine.execStreamRx p m s
  | .surfaceRx p m => Sys2Proof.Machine.execSurfaceRx p m s
  | .ckptRx p m => Sys2Proof.Machine.execCkptRx p m s
  | .messageForward p m residence => Sys2Proof.Machine.execMessageForward p m residence s
  | .nakRx p n => Sys2Proof.Machine.execNakRx p n s
  | .nakResend p => Sys2Proof.Machine.execNakResend p s
  | .replayTimeout p => Sys2Proof.Machine.execReplayTimeout p s
  | .cutRx p cls => Sys2Proof.Machine.execCutRx p cls s
  | .pdlyReqSend p => Sys2Proof.Machine.execPdlyReqSend p s
  | .pdlyReqRx p turnaround => Sys2Proof.Machine.execPdlyReqRx p turnaround s
  | .pdlyRespRx p turnaround elapsed => Sys2Proof.Machine.execPdlyRespRx p turnaround elapsed s
  | .checkpoint => Sys2Proof.Machine.execCheckpoint s
  | .shadowApply => Sys2Proof.Machine.execShadowApply s
  | .ringTakeover origin m => Sys2Proof.Machine.execRingTakeover origin m s
  | .ringShadow origin m => Sys2Proof.Machine.execRingShadow origin m s
  | .ringKeep origin m => Sys2Proof.Machine.execRingKeep origin m s
  | .swapPrep origin m => Sys2Proof.Machine.execSwapPrep origin m s
  | .swapAck origin m => Sys2Proof.Machine.execSwapAck origin m s
  | .swapGo origin m => Sys2Proof.Machine.execSwapGo origin m s
  | .swapArmed origin m => Sys2Proof.Machine.execSwapArmed origin m s
  | .swapCancel origin m => Sys2Proof.Machine.execSwapCancel origin m s
  | .swapInstantD => Sys2Proof.Machine.execSwapInstantD s
  | .swapInstantC => Sys2Proof.Machine.execSwapInstantC s
  | .swapDue => Sys2Proof.Machine.execSwapDue s
  | .touchSlot p samples => Sys2Proof.Machine.execTouchSlot p samples s
  | .touchScanEnd p => Sys2Proof.Machine.execTouchScanEnd p s
  | .touchSyncLost p => Sys2Proof.Machine.execTouchSyncLost p s
  | .touchStuck p contact node => Sys2Proof.Machine.execTouchStuck p contact node s
  | .arbiterTick => Sys2Proof.Machine.execArbiterTick s
  | .powerDeferred cls => Sys2Proof.Machine.execPowerDeferred cls s
  | .tokenRelease item => Sys2Proof.Machine.execTokenRelease item s
  | .thermalSample tj => Sys2Proof.Machine.execThermalSample tj s
  | .thermalShutdown => Sys2Proof.Machine.execThermalShutdown s
  | .pllIdleStop p => Sys2Proof.Machine.execPllIdleStop p s
  | .corePgRise => Sys2Proof.Machine.execCorePgRise s
  | .primeTimeout limit => Sys2Proof.Machine.execPrimeTimeout limit s
  | .trstNLow => Sys2Proof.Machine.execTrstNLow s
  | .machineTimerExpiry k => Sys2Proof.Machine.execMachineTimerExpiry k s
  | .tchPump p => Sys2Proof.Machine.execTchPump p s
  | .hostLinkUp p speed width => Sys2Proof.Machine.execHostLinkUp p speed width s
  | .ethLinkChange p up fec => Sys2Proof.Machine.execEthLinkChange p up fec s
  | .flitCheckFail p bad => Sys2Proof.Machine.execFlitCheckFail p bad s
  | .ackCreditRx p ack credits => Sys2Proof.Machine.execAckCreditRx p ack credits s
  | .ackDue p => Sys2Proof.Machine.execAckDue p s
  | .uploadTileRowDone job host => Sys2Proof.Machine.execUploadTileRowDone job host s
  | .mgtUnsupportedTransaction => Sys2Proof.Machine.execMgtUnsupportedTransaction s
  | .initiatorMemoryAccess a f addr len data => Sys2Proof.Machine.execInitiatorMemoryAccess a f addr len data s
  | .prbsCheckerLock n l => Sys2Proof.Machine.execPrbsCheckerLock n l s
  | .prbsLockLost n l => Sys2Proof.Machine.execPrbsLockLost n l s
  | .adaptationConverged n l ctle dfe => Sys2Proof.Machine.execAdaptationConverged n l ctle dfe s
  | .loopRecentre n l => Sys2Proof.Machine.execLoopRecentre n l s
  | .vaultZeroed => Sys2Proof.Machine.execVaultZeroed s
  | .fuseProgramDone readback => Sys2Proof.Machine.execFuseProgramDone readback s

end Sys2Proof.Machine
end

