-- ==== Sys2Proof/Safety.lean ====
section
/-!
DEFINITION. What claims about the block are stated in: a run that goes on, the conditions under which a Soile command
reaches its own checks (R287), the state in which a job has ended or waits, what an access leaves alone, and the canonical
form that states keep.
-/

namespace Sys2Proof.Machine

/-- The conditions of R287 before a command's own checks: the core powered, a mode that executes Soile commands (R288), no
reserved bit set, its completion ring enabled (R285), no role swap pending (R393). -/
abbrev Admitted (s : State) (q : Req) (mask : Nat) : Prop :=
  s.ctl.core = true ∧ s.ctl.mode.soile = true ∧ q.reservedSet mask = false ∧ badCring s q = false ∧ s.rdn.swap.job = none

/-- The job that a command becomes (R280). -/
def jobOf (s : State) (q : Req) (op : Nat) : Job :=
  { id := s.nextJob, req := q, opcode := BitVec.ofNat 16 op, running := false, n := 0, m := 0, v := 0, abortBy := [], snap := []
    order := s.nextFetch }

/-- A state in which the command was accepted as a job and nothing else has happened (R280). -/
def accepted (s : State) (q : Req) (op : Nat) : State :=
  { s with jobs := s.jobs ++ [jobOf s q op], nextJob := s.nextJob + 1, nextFetch := s.nextFetch + 1 }

/-- A state in which the command was accepted and its one completion, of that status and body, is on its way to its ring
(R282, R289). -/
def done (s : State) (q : Req) (op st : Nat) (body : BitVec 128 := 0) : State :=
  { s with
    jobs := s.jobs.filter fun j => j.id != s.nextJob
    nextJob := s.nextJob + 1
    nextFetch := s.nextFetch + 1
    cpls := s.cpls ++ [{ part := q.part.val, cring := q.cring.val, tag := q.tag, opcode := BitVec.ofNat 16 op, ring := q.ring.val
                         index := q.index, status := BitVec.ofNat 16 st, body := body, order := s.nextFetch }] }

/-- Every byte of memory reads as before. -/
def SameMem (s t : State) : Prop := ∀ a, t.load8 a = s.load8 a

/-- Every register but those listed is stored as before. -/
def SameRegsBut (l : List Nat) (s t : State) : Prop := ∀ a, a ∉ l → t.reg a = s.reg a

/-- The registers of the desk PLL, which a restart of the event concentrator's arbiter starts (R325, R435). -/
def evcRegs : List Nat := [CLK_PLL_STATUS 3, CLK_PLL_STAT 3]

/-- `t` with what an arbitration may change put back as in `s`, but for registers (R325, R331–R338): the desk cores, whether the arbiter
stands still and since when it runs, and the desk PLL's times. -/
def evcBack (s t : State) : State :=
  { t with desks := s.desks, evcStop := s.evcStop, pwr := { t.pwr with used := s.pwr.used, lock := s.pwr.lock, evcUp := s.pwr.evcUp } }

/-- The canonical form of the two tables that everything the block stores goes through: memory and registers. -/
def Canonical (s : State) : Prop := Memory.wf s.mem = true ∧ twf regReset s.regs = true

/-- A register access that its initiator can carry and that its gate and its block let through (R3, R15, R19, R300, R448): no initiator but
one the gate admits, the block powered and present, the entry ON. -/
abbrev Reaches (s : State) (a : Access) (t : AccType) (addr : Nat) : Prop := s.carries a addr = true ∧ regDec s a t addr = .go

/-- OFF (R14, R442, R451): the mode, no domain powered, no work held in what is not powered, and no rise of PORST_N waiting in
the queue. -/
structure OffState (s : State) : Prop where
  mode    : s.ctl.mode = .off
  core    : s.ctl.core = false
  ring    : s.ctl.ring = false
  jobs    : s.jobs = []
  parts   : s.parts = []
  ctxs    : s.ctxs = []
  encs    : s.encs = []
  ipp     : s.ipp = []
  dce     : s.dce = []
  crcu    : s.crcu = []
  records : s.records = []
  commits : s.commits = []
  fuseOps : s.fuseOps = []
  items   : s.pwr.items = []
  adj     : s.tbase.adj = none
  heads   : ∀ n, (s.head n).wbDue = none ∧ (s.head n).wbCur = none ∧ (s.head n).enabled = false
  noRise  : ∀ x, Instr.porstNRise x ∉ s.pending

end Sys2Proof.Machine
end

