-- ==== Sys2Proof/WellFormed.lean ====
section
/-!
DEFINITION. What makes a command well formed: what its operands can be in the part the spec describes. A command that is
not well formed stands for nothing that can reach the block; the meanings are total on it all the same.
-/

namespace Sys2Proof

/-- The identity an initiator can carry (Tables 1.5 and 11.1): source, level and partition agree, and partitions 16-30
are never carried. -/
def Access.wf (a : Access) : Bool :=
  let s := a.src.toNat
  let p := a.part.toNat
  (p < 16 || p == 31) &&
  match a.level with
  | .p0 => decide (s < 4) || (decide (0x10 ≤ s) && decide (s < 0x10 + 70))
  | .p1 | .p2 => decide (8 ≤ s) && decide (s < 12)
  | .p3 => p == 31 && ([0x60, 0x61, 0x62, 0x67] : List Nat).contains s
  | .debug => p == 31 && (decide (s < 4) || s == 0x62)

/-- The bytes a read of host memory brings, where it brings any, are as many as were asked for. -/
def HostRead.sized (n : Nat) : HostRead → Bool
  | .bytes bs => bs.length == n
  | .error => true

/-- The staging registers of an entry: a slot has one, a region three (Tables 11.7 and 11.8). -/
def GateEntry.stages : GateEntry → Nat
  | .slot _ => 1
  | .region _ _ => 3

/-- A message of the chain (R353, R360): a type of Table 13.5, hops up to 7 as three bits hold them, a body of at most 511 flits of 28
bytes, of at most 15 in class C0. -/
def Msg.wf (m : Msg) : Bool :=
  let k := m.kind.toNat
  decide (m.body.length ≤ (if 8 ≤ k ∧ k ≤ 10 then 511 else 15) * 28)

/-- A flit on its way out is a HEAD or a BODY flit with its bytes 0–27 (Table 13.2, R345), of the class named. -/
def BadFlit.wf : BadFlit → Bool
  | .control => true
  | .failed f => f.all fun x => bitsOf x.1.toNat 1 1 == 1 && x.2.length == 28
  | .poisoned c f => f.all fun x => bitsOf x.1.toNat 1 1 == 1 && bitsOf x.1.toNat 2 2 == c.val && x.2.length == 28

/-- What boot reports: six channels of at most 16 GiB each (R17), at most four cores, two checkpoint slots (R447, R449). -/
def Boot.wf (b : Boot) : Bool :=
  b.channels.length == 6 && b.channels.all (fun c => decide (c.size.toNat ≤ 16384)) && decide (b.cores.length ≤ 4)
    && b.ckptEcc.length == 2

/-- The shape of a desk core's request (R320): AMO, LR and SC take an aligned word or doubleword, an AMO and an SC bring
data; a FENCE touches no byte. -/
def CoreOp.wf (k : CoreOp) (t : AccType) (addr len : Nat) : Bool :=
  let aligned := (len == 4 || len == 8) && addr % len == 0
  match k with
  | .plain => true
  | .amo _ _ _ | .sc _ _ => t == .w && aligned
  | .lr _ _ => t == .r && aligned
  | .fence _ _ => t == .r && len == 0

/-- A frame on an Ethernet port ends in its 4 bytes of FCS. -/
def frameSized (bs : List (BitVec 8)) : Bool := decide (4 ≤ bs.length)

/-- Whether a command is well formed. -/
def Instr.wf : Instr → Bool
  | .tbSnapGo a _ | .tbAdjAdj a _ | .tbAdjStep a _ | .vrdCommit a _ | .tgCtrlWrite a _ _ | .tgRephase a _ _ | .prtMgrWrite a _
  | .prtSwStart a _ _ | .prtSwStop a _ _ | .gateHold a _ _ | .gateApply a _ _ | .gateLock a _ _ | .evcSetpend a _ | .evcClrpend a _
  | .evcClaim a _ _ | .evcEoi a _ _ | .dskRunWrite a _ | .chnEnum a _ | .chnTrain a _ _ | .chnDown a _ _ | .chnSlip a _ _
  | .chnVaultWrite a _ | .chnLogicalWrite a _ | .rdnCmdTakeover a _ | .rdnCmdShadow a _ | .rdnCmdKeep a _ | .rdnCmdCkpt a _
  | .hwkClear a _ | .modeRequest a _ | .aoHoldSet a _ | .aoTrainInvalidate a _ | .mboxIn7Write a _ | .mboxOut7Write a _
  | .dbgTokenSubmit a _ _ | .dbgFuseSubmit a _ _ | .qd15UseWrite a _ | .qdTestWrite a _ _ | .laneSlip a _ _ _ | .injectSingle a _ _ _
  | .injectBurst a _ _ _ | .registerWrite a _ _ _ => a.wf
  | .gateStagingWrite a e i _ => a.wf && decide (i.val < e.stages)
  | .mgtWriteWords ws _ => decide (1 ≤ ws.length) && decide (ws.length ≤ 8)
  | .initiatorMemoryAccess a ⟨bar2, k, t⟩ addr len data =>
    a.wf && (t != .w || data.length == len) && decide (addr.toNat + len ≤ 2 ^ 40)
      && ((t != .x && k == .plain) || (decide (8 ≤ a.src.toNat) && decide (a.src.toNat < 12)))
      && (!bar2 || (decide (a.src.toNat < 4) && decide (addr.toNat + len ≤ 2 ^ 28)))
      && k.wf t addr.toNat len
  | .primeSequenceComplete b => b.wf
  | .ethFrameRx _ bs => frameSized bs
  | .auxReply _ (.ack bs) => decide (bs.length ≤ 16)
  | .evcSourceInput id _ => decide (1 ≤ id.val)
  | .doorbellRead _ page descs log => page.sized 128 && descs.all (HostRead.sized 64) && decide (descs.length ≤ 256) && log.sized 8
  | .flitCheckFail _ x => x.wf
  | .touchSlot _ samples => decide (samples.length ≤ 80) && samples.all fun x => decide (-2048 ≤ x) && decide (x ≤ 2047)
  | .enumRx _ m | .timeRx _ m _ | .readyRx _ m | .commitRx _ m | .helloRx _ m | .yieldRx _ m | .ctrlRx _ m | .streamRx _ m
  | .surfaceRx _ m | .ckptRx _ m | .messageForward _ m _ | .ringTakeover _ m | .ringShadow _ m | .ringKeep _ m | .swapPrep _ m
  | .swapAck _ m | .swapGo _ m | .swapArmed _ m | .swapCancel _ m => m.wf
  | _ => true

end Sys2Proof
end

