-- ==== Sys2Proof/Certificates/Slice0/Obligations.lean ====
section
/-!
DEFINITION. The statements for the provers.
-/

open Sys2Proof Sys2Proof.Machine

/-! ### Partitions (R270–R275) -/

/-- What the commands of the manager leave, as whole next states (R270–R274, Table 10.2). PART_CREATE of a FREE partition binds
it to its port, and writes the port's primary partition where the descriptor asks for it and the port is a PCIe one;
PART_GRANT sets one grant that conflicts with no other partition's, takes away nothing in use and names nothing absent;
PART_QUOTA sets the four quotas; PART_DESTROY of a BOUND partition with nothing in use leaves it FREE without grants and quotas.
Each of these four adds one to PRT_Pp_GEN of its partition and completes.
PART_STOP of an ACTIVE or FAULTED partition completes, drops what the partition fetched and enters STOPPING; one with no job and
no completion left goes on to BOUND, and the manager's own stays in STOPPING with that completion to write; in any other state it
completes and changes nothing. -/
def Obligations.Partitions : Prop :=
  ((∀ (q : Req) (s : State), Admitted s q (bodyMask [(16, 0, 8), (17, 0, 8), (18, 0, 1)]) → isManager s q = true →
    q.u8 16 ≤ 15 → q.u8 17 ≤ 4 → (s.part (q.u8 16)).state = .free →
    let prim : State := if q.bit 18 0 = true ∧ q.u8 17 < 4 then s.setFld (HIF_HP_PRIM (q.u8 17)) 0 5 (q.u8 16) else s
    exec (.partCreate q) s = .next (done (prim.setPart (q.u8 16)
      { s.part (q.u8 16) with state := .bound, port := q.u8 17, gen := (s.part (q.u8 16)).gen + 1 }) q 0x0101 stComplete))
  ∧ (∀ (q : Req) (s : State), Admitted s q (maskPartGrant q) → isManager s q = true → q.u8 16 ≤ 15 → q.u8 17 ≤ 8 →
    (s.part (q.u8 16)).state ≠ .free →
    (if q.u8 17 = 0 ∨ q.u8 17 = 8 then q.u16 20 < 2 ^ kindCount (q.u8 17) else q.u16 22 = 0 ∨ q.u16 20 + q.u16 22 ≤ kindCount (q.u8 17)) →
    let new := withGrant (s.part (q.u8 16)) (q.u8 17) (q.u16 20) (q.u16 22)
    (∀ o, o < 16 → o ≠ q.u8 16 → ∀ n, n < kindCount (q.u8 17) → granted new (q.u8 17) n = true → granted (s.part o) (q.u8 17) n = false) →
    (∀ n, n < kindCount (q.u8 17) → granted (s.part (q.u8 16)) (q.u8 17) n = true → granted new (q.u8 17) n = false →
      inUse s (q.u8 17) n = false) →
    ((q.u8 17 = 0 ∨ q.u8 17 = 8) → ∀ n, n < kindCount (q.u8 17) → granted new (q.u8 17) n = true →
      s.absent ((if q.u8 17 = 0 then 16 else 32) + n) = false) →
    (q.u8 17 = 0 → ∀ i, i < 8 → granted new 0 (2 * i) = true → (s.head (2 * i)).gang = true → granted new 0 (2 * i + 1) = true) →
    exec (.partGrant q) s = .next (done (s.setPart (q.u8 16) { new with gen := new.gen + 1 }) q 0x0102 stComplete))
  ∧ (∀ (q : Req) (s : State), Admitted s q (bodyMask [(16, 0, 8), (20, 0, 128)]) → isManager s q = true → q.u8 16 ≤ 15 →
    (s.part (q.u8 16)).state ≠ .free → q.u32 20 ≤ 262144 →
    exec (.partQuota q) s = .next (done (s.setPart (q.u8 16) { s.part (q.u8 16) with
      qLdg := q.u32 20, qDec := q.u32 24, qIpp := q.u32 28, qEnc := q.u32 32, gen := (s.part (q.u8 16)).gen + 1 }) q 0x0103 stComplete))
  ∧ (∀ (q : Req) (s : State), Admitted s q (bodyMask [(16, 0, 8)]) → isManager s q = true → q.u8 16 ≤ 15 →
    (s.part (q.u8 16)).state = .bound →
    (∀ k, k < 9 → ∀ n, n < kindCount k → granted (s.part (q.u8 16)) k n = true → inUse s k n = false) →
    let x := s.part (q.u8 16)
    let bare : Part := { gen := x.gen + 1, starts := x.starts, rings := x.rings, krings := x.krings, mirSeq := x.mirSeq }
    exec (.partDestroy q) s = .next (done (s.setPart (q.u8 16) bare) q 0x0105 stComplete)
      ∧ bare.state = .free ∧ (∀ k n, granted bare k n = false) ∧ bare.qLdg = 0 ∧ bare.qDec = 0 ∧ bare.qIpp = 0 ∧ bare.qEnc = 0))
  ∧ (∀ (q : Req) (s : State), Admitted s q (bodyMask [(16, 0, 8)]) → isManager s q = true → q.u8 16 ≤ 15 →
    (((s.part (q.u8 16)).state = .active ∨ (s.part (q.u8 16)).state = .faulted) →
      let t := (done s q 0x0104 stComplete).setPart (q.u8 16) { s.part (q.u8 16) with state := .stopping, fetched := [] }
      let idle := q.part.val ≠ q.u8 16 ∧ (s.part (q.u8 16)).backlog = [] ∧ (∀ j ∈ (done s q 0x0104 stComplete).jobs, j.req.part.val ≠ q.u8 16)
        ∧ (∀ c ∈ s.cpls, c.part ≠ q.u8 16)
      (idle → exec (.partStop q) s = .next (t.setPart (q.u8 16) { s.part (q.u8 16) with state := .bound, fetched := [] }))
        ∧ (¬ idle → exec (.partStop q) s = .next t))
    ∧ ((s.part (q.u8 16)).state ≠ .active → (s.part (q.u8 16)).state ≠ .faulted → exec (.partStop q) s = .next (done s q 0x0104 stComplete)))

/-! ### Flows and stream contexts (R89–R115) -/

/-- FLOW_ADD takes the named flow, or the partition's lowest free one for 0xFFFF, into STOPPED with its keys and answers its
index (R93, R94).
FLOW_CFG sets every field of a stopped flow, lets it run where the descriptor says so and forgets its sequence state, or takes
over that of a running secondary flow that it becomes the primary of, or keeps that of the pair where it was its primary already; with no mapping in force no other flow changes in the first
case (R94, R100). FLOW_STOP discards what a running flow holds; FLOW_DEL stops and frees the flow, and hands the stream to its
running partner where the deleted flow was the primary (R94, R100).
FLOW_SEND sends the bytes read with their FCS (R92); FLOW_EGRESS gives the slot its source and starts its frame anew (R111). -/
def Obligations.Flows : Prop :=
  (∀ (q : Req) (s : State) (n : Nat), Admitted s q maskFlowAdd → (q.bit 19 0 = true ∨ (q.uN 28 12 = 0 ∧ q.uN 44 12 = 0)) →
    ((q.u16 16 = n ∧ n ≤ 1023 ∧ ownsFlow s q.part.val n = true)
      ∨ (q.u16 16 = 0xFFFF ∧ n < 1024 ∧ ownsFlow s q.part.val n = true
          ∧ ∀ m, m < n → ownsFlow s q.part.val m = true → (s.flow m).state ≠ .free)) →
    (s.flow n).state = .free → (∀ x ∈ s.flows, x.2.state ≠ .free → flowKeys x.2 ≠ flowKeys (flowOf q)) →
    exec (.flowAdd q) s = .next (done (s.setFlow n (flowOf q)) q 0x0201 stComplete (cplBody [(16, 2, n)])))
  ∧ ((∀ (q : Req) (s : State), Admitted s q maskFlowCfg → flowCfgBad s q = false →
    let f := q.u16 16
    let m := if q.u16 48 = 0xFFFF then none else some (q.u16 48)
    let c := q.u16 50
    let pairs := fun g => m = some g ∧ f < g ∧ (s.flow g).state = .running ∧ (s.flow g).partner = some f
    let takes := fun g => pairs g ∧ (s.flow f).partner ≠ some g
    let keeps := fun g => pairs g ∧ (s.flow f).partner = some g
    ownsFlow s q.part.val f = true → (∀ g ∈ m, ownsFlow s q.part.val g = true) → ownsCtx s q.part.val c = true →
    (s.ctx c).state ≠ .closed → (s.flow f).state = .stopped → pairBad s f m c = false →
    (((q.u8 18 = 2 ∨ (s.ctx c).codec = 2) → q.u8 19 ≠ 1 ∧ q.u8 19 ≠ 3)) → (s.ctx c).rx = none →
    (∀ x ∈ s.flows, x.1 ≠ f → some x.1 ≠ m → x.2.ctx ≠ some c) →
    ∃ t, exec (.flowCfg q) s = .next t
      ∧ (t.flow f).state = (if q.bit 52 0 then .running else .stopped) ∧ (t.flow f).ctx = some c ∧ (t.flow f).partner = m
      ∧ (t.flow f).payload = q.u8 18 ∧ (t.flow f).mode = q.u8 19 ∧ (t.flow f).rate = q.u32 20 ∧ (t.flow f).base = q.u40 24
      ∧ (t.flow f).psize = q.u32 32 ∧ (t.flow f).hold = q.u32 36 ∧ (t.flow f).reorder = q.u16 40 ∧ (t.flow f).transit = q.u16 42
      ∧ (t.flow f).srLimit = q.u16 44 ∧ (t.flow f).srTai = (q.u8 46 == 1) ∧ (t.flow f).pt = q.u8 47 ∧ (t.flow f).ausize = q.u32 56
      ∧ (t.flow f).mapValid = false
      ∧ ((∀ g, ¬ pairs g) → (t.flow f).pkts = [] ∧ (t.flow f).synced = false)
      ∧ (∀ g, takes g → (t.flow f).pkts = (s.flow g).pkts ∧ (t.flow f).synced = (s.flow g).synced ∧ (t.flow f).h = (s.flow g).h
        ∧ (t.flow g).pkts = [] ∧ (t.flow g).synced = false)
      ∧ (∀ g, keeps g → (t.flow f).pkts = (s.flow f).pkts ∧ (t.flow f).synced = (s.flow f).synced ∧ (t.flow f).h = (s.flow f).h)
      ∧ ((s.flow f).mapValid = false → (∀ g, ¬ pairs g) →
        (∀ g, g ≠ f → t.flow g = s.flow g) ∧ { t with flows := s.flows } = done s q 0x0202 stComplete))
  ∧ (∀ (q : Req) (s : State), Admitted s q (bodyMask [(16, 0, 16)]) → q.u16 16 ≤ 1023 → ownsFlow s q.part.val (q.u16 16) = true →
    ((s.flow (q.u16 16)).state = .stopped → exec (.flowStop q) s = .next (done s q 0x0203 stComplete))
    ∧ ((s.flow (q.u16 16)).state = .running → exec (.flowStop q) s =
        .next (done (flowDiscard (s.setFlow (q.u16 16) { s.flow (q.u16 16) with state := .stopped }) (q.u16 16)) q 0x0203 stComplete)))
  ∧ (∀ (q : Req) (s : State), Admitted s q (bodyMask [(16, 0, 16)]) → q.u16 16 ≤ 1023 → ownsFlow s q.part.val (q.u16 16) = true →
    (s.flow (q.u16 16)).state ≠ .free →
    let f := q.u16 16
    let u := if (s.flow f).state = .running then flowDiscard (s.setFlow f { s.flow f with state := .stopped }) f else s
    ((∀ g, mergedWith u f = some g → (u.flow g).state ≠ .running ∨ g < f) →
      exec (.flowDel q) s = .next (done (u.setFlow f {}) q 0x0204 stComplete))
    ∧ (∀ g, mergedWith u f = some g → (u.flow g).state = .running → f < g →
      exec (.flowDel q) s = .next (done ((handSeq u f g).setFlow f {}) q 0x0204 stComplete))))
  ∧ ((∀ (q : Req) (s : State) (bs : Bytes), Admitted s q (bodyMask [(16, 0, 80), (26, 0, 8)]) → 60 ≤ q.u16 24 → q.u16 24 ≤ 1514 → q.u8 26 ≤ 7 →
    s.fld ETH_NETCTL 0 5 = q.part.val → portUp s (q.u8 26) = true →
    let rd := hostRead s q.part.val (q.u64 16) (q.u16 24) q.host
    rd.2 = (stComplete, bs) →
    exec (.flowSend q) s = .next (done (sendFrame rd.1 (q.u8 26) bs) q 0x0205 stComplete))
  ∧ (∀ (q : Req) (s : State), Admitted s q maskFlowEgress → q.u8 16 ≤ 7 → q.u8 17 ≤ 7 → q.u8 18 ≤ 15 → q.u8 48 ≤ 127 → q.u8 18 < s.nHeads →
    ownsEgr s q.part.val (q.u8 16) = true →
    (q.bit 19 0 = true → ownsHead s q.part.val (q.u8 18) = true ∧ (s.head (q.u8 18)).wbOn = true
      ∧ (s.head (q.u8 18)).wbA ≠ (s.head (q.u8 18)).wbB ∧ 2 ≤ (s.head (q.u8 18)).wbFmt) →
    exec (.flowEgress q) s = .next (done (wbRelease (s.setEgr (q.u8 16) { s.egr (q.u8 16) with
      enabled := q.bit 19 0, port := q.u8 17, head := q.u8 18, cfg := q.body, frame := none, line := 0, off := 0 })
      (s.egr (q.u8 16)).head) q 0x0206 stComplete)))

/-- STREAM_OPEN opens a closed context with its codec, empty, a RAW one with the ring of buffers that device memory holds;
STREAM_PARAMS stores the bytes it reads as the context's parameters, or none; STREAM_CLOSE closes an open context that no running
flow names, and no flow names it then (R107–R109, R126). -/
def Obligations.StreamCommands : Prop :=
  (∀ (q : Req) (s : State), Admitted s q maskStreamOpen → q.u8 17 ≤ 2 →
    let x : Ctx := { rawW := q.u16 20, rawH := q.u16 22, rawFmt := q.u8 24, rawN := q.u8 25, rawBase := q.u40 32 }
    (q.u8 17 = 2 → q.u8 24 ≤ 3 ∧ 2 ≤ q.u8 25 ∧ q.u8 25 ≤ 8 ∧ q.u40 32 % 4096 = 0 ∧ inChannel s (q.u40 32) (q.u8 25 * rawStride x) = true) →
    ownsCtx s q.part.val (q.u8 16) = true → (s.ctx (q.u8 16)).state = .closed →
    ∃ t, exec (.streamOpen q) s = .next (done t q 0x0301 stComplete) ∧ (t.ctx (q.u8 16)).state = .opened
      ∧ (t.ctx (q.u8 16)).codec = q.u8 17 ∧ (t.ctx (q.u8 16)).queue = [] ∧ (t.ctx (q.u8 16)).params = []
      ∧ (q.u8 17 = 2 → (t.ctx (q.u8 16)).rawW = q.u16 20 ∧ (t.ctx (q.u8 16)).rawH = q.u16 22 ∧ (t.ctx (q.u8 16)).rawFmt = q.u8 24
        ∧ (t.ctx (q.u8 16)).rawN = q.u8 25 ∧ (t.ctx (q.u8 16)).rawBase = q.u40 32)
      ∧ (∀ c, c ≠ q.u8 16 → t.ctx c = s.ctx c) ∧ { t with ctxs := s.ctxs } = s)
  ∧ (∀ (q : Req) (s : State) (bs : Bytes), Admitted s q (bodyMask [(16, 0, 8), (18, 0, 16), (24, 0, 64)]) → q.u16 18 ≤ 4096 →
    (s.ctx (q.u8 16)).state ≠ .closed → ownsCtx s q.part.val (q.u8 16) = true →
    (q.u16 18 = 0 → exec (.streamParams q) s = .next (done (s.setCtx (q.u8 16) { s.ctx (q.u8 16) with
      params := [], paramNew := false }) q 0x0302 stComplete))
    ∧ (let rd := hostRead s q.part.val (q.u64 24) (q.u16 18) q.host
      0 < q.u16 18 → rd.2 = (stComplete, bs) →
      exec (.streamParams q) s = .next (done (rd.1.setCtx (q.u8 16) { s.ctx (q.u8 16) with
        params := bs, paramNew := true }) q 0x0302 stComplete)))
  ∧ (∀ (q : Req) (s : State), Admitted s q (bodyMask [(16, 0, 8)]) → ownsCtx s q.part.val (q.u8 16) = true →
    (s.ctx (q.u8 16)).state = .opened → (∀ x ∈ s.flows, x.2.state = .running → x.2.ctx ≠ some (q.u8 16)) →
    ∃ t, exec (.streamClose q) s = .next t ∧ (t.ctx (q.u8 16)).state = .closed ∧ (t.ctx (q.u8 16)).queue = []
      ∧ (t.ctx (q.u8 16)).rx = none ∧ (∀ f, (t.flow f).ctx ≠ some (q.u8 16))
      ∧ t.cpls = (done s q 0x0303 stComplete).cpls ∧ t.mem = s.mem ∧ t.regs = s.regs)

/-- What the arrival of a frame does at a port with link (R90, R93, R102, Table 4.2): every frame is counted; a bad FCS or a header error,
an unsupported and an unknown frame are counted as such; an exception goes to its ring where that is enabled; a datagram that is RTCP
of flows reaches each of them, one that is RTP of a flow reaches that flow, one of no flow is counted.
A missing sender report invalidates a mapping (R102). An access unit whose end lies hold_us back is released, one of an old numbering
before the others; one whose time has not come is not (R95, R96). A port whose lanes have signal follows its link; one with a lane
without signal has none (R89, R464, R471).
An egress slot sends a packet of the frame it holds and moves on in its line, to the next line, or to the frame's end (R111). -/
def Obligations.NetworkEvents : Prop :=
  ((∀ (p : Fin 8) (fr : Bytes) (s : State), s.ctl.core = true → portUp s p.val = true →
    let body := fr.take (fr.length - 4)
    let s' := s.inc (ETH_PORT_RX_FRAMES p.val)
    ((9022 < fr.length ∨ leNat (fr.drop (fr.length - 4)) ≠ crc32 body) →
      exec (.ethFrameRx p fr) s = .next (s'.inc (ETH_PORT_RX_HDR_ERR p.val)))
    ∧ (fr.length ≤ 9022 → leNat (fr.drop (fr.length - 4)) = crc32 body →
      (frameKind body = .hdrErr → exec (.ethFrameRx p fr) s = .next (s'.inc (ETH_PORT_RX_HDR_ERR p.val)))
      ∧ (frameKind body = .unsup → exec (.ethFrameRx p fr) s = .next (s'.inc (ETH_PORT_RX_UNSUP p.val)))
      ∧ (frameKind body = .unknown → exec (.ethFrameRx p fr) s = .next (s'.inc (ETH_PORT_RX_UNKNOWN p.val)))
      ∧ (frameKind body = .exception → s.bit ETH_EXC_CTRL 0 = true → s.ctl.mode ≠ .yield →
        exec (.ethFrameRx p fr) s = .next (exceptionRing s' p.val body))
      ∧ (∀ d, frameKind body = .udp d → d.dport ≠ 319 → d.dport ≠ 320 →
        ((∀ x ∈ s.flows, isRtcp x.2 p.val d = false) →
          (∀ f, rtpFlow s p.val d = some f → s.ctl.mode ≠ .yield → exec (.ethFrameRx p fr) s = .next (rtpIn s' f p.val d))
          ∧ (rtpFlow s p.val d = none → exec (.ethFrameRx p fr) s = .next (s'.inc (ETH_PORT_RX_NOFLOW p.val))))
        ∧ (∀ x, s.flows.filter (fun y => isRtcp y.2 p.val d) = [x] → rtpFlow s p.val d = none →
          exec (.ethFrameRx p fr) s = .next (rtcpIn s' x.1 d)))))
  ∧ (∀ (f : Fin 1024) (s : State), s.ctl.core = true → streamRuns s f.val = true → (s.flow f.val).mode = 1 →
    ((1000000 * (s.flow f.val).srLimit : Nat) : Int) ≤ s.since (s.flow f.val).srAt →
    ((s.flow f.val).mapValid = true → exec (.srTimeout f) s = .next (raise (s.setFlow f.val { s.flow f.val with mapValid := false, implRun := 0 })
      evMapInvalid 1 7 (flowOwner s f.val) []))
    ∧ ((s.flow f.val).mapValid = false → exec (.srTimeout f) s = .next s))
  ∧ (∀ (f : Fin 1024) (s : State), s.ctl.core = true → s.ctl.mode ≠ .yield → primary s f.val = f.val → streamRuns s f.val = true →
    let x := s.flow f.val
    (x.old = [] →
      let a := firstAu x.pkts
      let l := auLost x.lastSeq x.ends a.1 a.2
      (∀ e, auEnd x.ends a.1 a.2 = some e → ((1000 * x.hold : Nat) : Int) ≤ s.since e → auHeld s f.val a.1 = false →
        exec (.auRelease f) s = .next (releaseAu (s.setFlow f.val { x with
          pkts := a.2, ends := endsAfter x.ends a.1 l.2, lastSeq := some l.2, lastTs := some (auTs a.1) }) f.val false a.1 l.1))
      ∧ (∀ e, auEnd x.ends a.1 a.2 = some e → s.since e < ((1000 * x.hold : Nat) : Int) → exec (.auRelease f) s = .next s))
    ∧ (∀ o more, x.old = o :: more →
      let a := firstAu o.pkts
      let l := auLost o.lastSeq o.ends a.1 a.2
      let e := (auEnd o.ends a.1 a.2).getD o.endedAt
      ((1000 * x.hold : Nat) : Int) ≤ s.since e → auHeld s f.val a.1 = false → a.2 = [] →
      exec (.auRelease f) s = .next (releaseAu (s.setFlow f.val { x with old := more }) f.val true a.1 l.1)))
  ∧ (∀ (p : Fin 8) (up fec : Bool) (s : State), s.ctl.core = true → portExists s p.val = true →
    ((∀ l ∈ ethLanes s p.val, laneDeaf s (ethQuad p.val) l = false) →
      exec (.ethLinkChange p up fec) s = .next ((s.setBit ETH_LINK p.val up).setBit ETH_LINK (8 + p.val) (fec && decide (portMode s p.val ≠ 2))))
    ∧ ((∃ l ∈ ethLanes s p.val, laneDeaf s (ethQuad p.val) l = true) →
      exec (.ethLinkChange p up fec) s = .next ((s.setBit ETH_LINK p.val false).setBit ETH_LINK (8 + p.val) false))))
  ∧ (∀ (ei : Fin 8) (s : State) (b t0 : Nat), s.ctl.core = true → (s.egr ei.val).enabled = true → (s.egr ei.val).frame = some (b, t0) →
    let e := s.egr ei.val
    let f := s.surf (wbSurf (s.head e.head) (b == 1))
    let a := f.base + e.line * f.pitch
    let rd := engRead s 6 (egrOwner s ei.val) a (f.w * fmtBytes f.fmt)
    rd.2.1 = .ok → rd.1 = s →
    let row := egressRow (s.store a rd.2.2) e f
    let lineEnd := f.w ≤ e.off + row.2
    ∃ t, exec (.egressPacket ei) s = .next t ∧ (t.egr ei.val).seq = e.seq + 1 ∧ t.mem = s.mem
      ∧ (portUp s e.port = true → ∃ fr, t.outbox = s.outbox ++ [.frame e.port fr])
      ∧ (portUp s e.port = false → t.outbox = s.outbox)
      ∧ (¬ lineEnd → (t.egr ei.val).frame = e.frame ∧ (t.egr ei.val).line = e.line ∧ (t.egr ei.val).off = e.off + row.2)
      ∧ (lineEnd → e.line + 1 < f.h → (t.egr ei.val).frame = e.frame ∧ (t.egr ei.val).line = e.line + 1 ∧ (t.egr ei.val).off = 0)
      ∧ (lineEnd → f.h ≤ e.line + 1 → (t.egr ei.val).frame = none ∧ (t.egr ei.val).line = 0 ∧ (t.egr ei.val).off = 0))

/-! ### Decode (R116–R144) -/

/-- DEC_BIND takes an open context into SEEKING with its cores, charge and pool (R118, R121, R126). DEC_FLUSH of a context that is
neither OPEN nor DRAINING gives up its choice and empties it at once when no picture is in decode, with one it waits for that picture;
DEC_UNBIND of one without a picture in decode releases it, of one with a picture takes it into DRAINING; either command waits for the
end of a context in DRAINING (R127, R143).
A decode core whose chosen picture has all its cores free asks for its tokens, and once they are granted and the clock runs it begins
the picture in the lowest free buffer, on all the context's cores where the picture divides and on the lead core where it does not
(R119, R120, R124); its completion ends the picture (R137); the next picture that the bumping process put out leaves with the next
output number (R125). -/
def Obligations.Decoding : Prop :=
  ((∀ (q : Req) (s : State), Admitted s q maskDecBind → decBindBad q = false →
    let ci := q.u8 16
    let cores := bitsSet 16 (q.u16 18)
    let charge := ceilDiv (q.u32 20) cores.length
    ownsCtx s q.part.val ci = true → (∀ i ∈ upFrom (q.u16 26) (q.u8 24), ownsSurf s q.part.val i = true) →
    (∀ i ∈ cores, i < s.nDec) → (s.ctx ci).state = .opened →
    (s.ctx ci).codec ≠ 2 → ((s.ctx ci).codec = 0 → q.u8 17 ≠ 1 ∧ q.u8 17 ≠ 3) → poolBad s (q.u16 26) (q.u8 24) = false →
    (∀ x ∈ s.ctxs, overlaps (q.u16 26) (q.u8 24) x.2.poolBase x.2.poolN = false) →
    (∀ i ∈ cores, coreLoad s i + charge ≤ 497664000) → decUse s q.part.val + q.u32 20 ≤ (s.part q.part.val).qDec →
    ∃ t, exec (.decBind q) s = .next t ∧ (t.ctx ci).state = .seeking ∧ (t.ctx ci).cores = BitVec.ofNat 16 (q.u16 18)
      ∧ (t.ctx ci).charge = charge ∧ (t.ctx ci).poolBase = q.u16 26 ∧ (t.ctx ci).poolN = q.u8 24 ∧ (t.ctx ci).dpb = []
      ∧ (t.ctx ci).outSeq = 0 ∧ t.mem = s.mem ∧ t.regs = s.regs
      ∧ t.cpls = (done s q 0x0401 stComplete (cplBody [(16, 4, sideOf t (t.ctx ci)), (20, 4, charge)])).cpls)
  ∧ (∀ (q : Req) (s : State), Admitted s q (bodyMask [(16, 0, 8)]) → ownsCtx s q.part.val (q.u8 16) = true →
    (s.ctx (q.u8 16)).state ≠ .closed → (s.ctx (q.u8 16)).state ≠ .opened →
    let ci := q.u8 16
    let u := unchoose s ci
    let c := u.ctx ci
    ((s.ctx ci).state = .draining →
      exec (.decFlush q) s = .next ((accepted s q 0x0403).setCtx ci { s.ctx ci with unbind := (s.ctx ci).unbind ++ [s.nextJob] })
      ∧ exec (.decUnbind q) s = .next ((accepted s q 0x0402).setCtx ci { s.ctx ci with unbind := (s.ctx ci).unbind ++ [s.nextJob] }))
    ∧ ((s.ctx ci).state ≠ .draining →
      ((s.ctx ci).dec = none → exec (.decFlush q) s = .next (done (u.setCtx ci { c with
          state := .seeking, queue := [], dpb := [], leaving := [], halt := 0, waited := false, active := none, started := false, noRasl := false })
          q 0x0403 stComplete (cplBody [(16, 4, c.queue.length), (20, 2, (c.dpb.filter (·.waiting)).length)])))
      ∧ ((s.ctx ci).dec.isSome = true → ∃ t, exec (.decFlush q) s = .next t ∧ (t.ctx ci).flushing = true
          ∧ (t.ctx ci).flush = (s.ctx ci).flush ++ [s.nextJob] ∧ (t.ctx ci).queue = [] ∧ t.cpls = s.cpls)
      ∧ ((s.ctx ci).unbind = [] → (s.ctx ci).dec = none → ∃ t, exec (.decUnbind q) s = .next t ∧ (t.ctx ci).state = .opened
          ∧ (t.ctx ci).cores = 0 ∧ (t.ctx ci).charge = 0 ∧ (t.ctx ci).poolN = 0 ∧ (t.ctx ci).chosen = none
          ∧ t.cpls = (done s q 0x0402 stComplete (cplBody [(16, 4, (s.ctx ci).outSeq.toNat)])).cpls)
      ∧ ((s.ctx ci).unbind = [] → (s.ctx ci).dec.isSome = true → ∃ t, exec (.decUnbind q) s = .next t ∧ (t.ctx ci).state = .draining
          ∧ (t.ctx ci).unbind = [s.nextJob] ∧ t.cpls = s.cpls))))
  ∧ ((∀ (core : Fin 16) (i : AuInfo) (s : State) (ci lead b : Nat) (more : List Nat) (au : AuRec) (rest : List AuRec) (g : Seg) (x : Picked),
    s.ctl.core = true → s.ctl.mode ≠ .yield → coreBusy s core.val = false →
    s.ctxs.find? (fun x => x.2.chosen.isSome && x.2.cores.getLsbD core.val) = some (ci, s.ctx ci) →
    ctxCores (s.ctx ci) = lead :: more → (∀ k ∈ lead :: more, coreBusy s k = false) → claimed s (s.ctx ci) = false →
    seeks (s.ctx ci) i = false →
    (pwrReady s (pwrDec lead) = false → exec (.decodeStart core i) s = .next (pwrRequest s (pwrDec lead) (14 * (more.length + 1))))
    ∧ (pwrReady s (pwrDec lead) = true → (s.ctx ci).queue = au :: rest →
      let c := { s.ctx ci with sets := holdSets (s.ctx ci) i }
      let fresh := beginsSeq c i || c.active != some x.seq
      let gap := if x.seq.gapsAllowed then [] else skipped c i x.seq
      let c' := startBump (if fresh then { c with needed := dpbSize c.codec x.seq + 2, active := some x.seq } else c) i x.seq
      (decodable c i).head? = some g → pick c g.pps = .inl x → refusedFor c.codec x i.raster = 0 →
      (fresh = true → spsBad s c x.seq = (false, false)) → (i.kind = .rasl → c.noRasl = false) → freeBuf (s.setCtx ci c') c' = some b →
      (divides c i x = true → ∃ t, exec (.decodeStart core i) s = .next t ∧ (t.ctx ci).state = .decoding ∧ (t.ctx ci).queue = rest
        ∧ (t.ctx ci).chosen = none ∧ (t.ctx ci).dec = some ⟨lead :: more, au, i, b, lead :: more, x.seq, c'.dpb, gap⟩
        ∧ (∀ k, k ≠ ci → t.ctx k = s.ctx k) ∧ { t with ctxs := s.ctxs } = s)
      ∧ (divides c i x = false → ∃ t, exec (.decodeStart core i) s = .next t ∧ (t.ctx ci).state = .decoding ∧ (t.ctx ci).queue = rest
        ∧ (t.ctx ci).chosen = none ∧ (t.ctx ci).dec = some ⟨lead :: more, au, i, b, [lead], x.seq, c'.dpb, gap⟩)))
  ∧ (∀ (core : Fin 16) (r : PicResult) (s : State) (ci : Nat) (c : Ctx) (d : InDecode),
    s.ctxs.find? (fun x => match x.2.dec with | some d => d.cores.head? == some core.val | none => false) = some (ci, c) → c.dec = some d →
    picHeld s (ctxOwner s ci) c d r = false →
    exec (.decodeComplete core r) s = .next (surfWritten (finishPic s ci d r) (c.poolBase + d.buf)))
  ∧ (∀ (ctx : Fin 256) (s : State) (d : DPic), (s.ctx ctx.val).state ≠ .halted → nextOut (s.ctx ctx.val) = some d →
    ∃ t, exec (.pictureOutput ctx) s = .next t ∧ (t.ctx ctx.val).lastOut = some d.buf ∧ (t.ctx ctx.val).outAt = t.now
      ∧ (t.ctx ctx.val).outSeq = (s.ctx ctx.val).outSeq + 1 ∧ (t.ctx ctx.val).leaving = (s.ctx ctx.val).leaving.drop 1))

/-! ### Scaling and encode (R145–R182) -/

/-- IPP_RUN of a registered surface, or of the picture that a picture record in memory describes, waits as an item of its instance,
accepted now (R157). IPP_FOLLOW binds and charges its slot (R146, R159). IPP_UNFOLLOW releases a slot with no picture in progress at
once, of a slot with one it waits for that picture (R160).
A free instance takes the item with the earliest ready time and asks for its tokens, 12 for a pair of instances and 6 for one; a
follow slot whose next target is on screen is passed over. Granted, with its clock running, an item begins, counting the picture, a
follow slot's with its newest picture; when it ends the instance is free again (R145, R147, R157, R159). -/
def Obligations.PixelPaths : Prop :=
  ((∀ (q : Req) (s : State), Admitted s q maskIppRun → q.u8 18 = 1 →
    let m := runPrm q
    let src := s.surf (q.u16 22)
    let dst := s.surf (q.u16 20)
    let c := cropOf m (0, 0, src.w, src.h)
    prmBad m = false → src.created = true → src.reg = true → cropOut c src.w src.h = false →
    ownsSurf s q.part.val (q.u16 20) = true → ownsSurf s q.part.val (q.u16 22) = true → dst.created = true →
    (dst.fmt < 4 ↔ src.fmt < 4) → scaleBad c (scaledSize dst m.rot) = false → lineShort m.pair dst m.rot = false →
    onScreen s (q.u16 20) = false →
    exec (.ippRun q) s = .next ((accepted s q 0x0501).modJob s.nextJob fun j => { j with v := BitVec.ofNat 64 s.now, snap := [] }))
  ∧ (∀ (q : Req) (s : State) (rec : Bytes), Admitted s q maskIppRun → q.u8 18 = 0 → q.u40 24 % 64 = 0 →
    engRead s 10 q.part.val (q.u40 24) 64 = (s, .ok, rec) →
    let m := runPrm q
    let src := workIn s q.part.val (.picture rec)
    let dst := s.surf (q.u16 20)
    let c := cropOf m src.2.1
    prmBad m = false → (s.surf (recSurface rec)).created = true → cropOut c src.1.w src.1.h = false →
    ownsSurf s q.part.val (q.u16 20) = true → ownsSurf s q.part.val (recSurface rec) = true → dst.created = true →
    src.1.yuv = decide (dst.fmt < 4) → scaleBad c (scaledSize dst m.rot) = false → lineShort m.pair dst m.rot = false →
    onScreen s (q.u16 20) = false →
    exec (.ippRun q) s = .next ((accepted s q 0x0501).modJob s.nextJob fun j => { j with v := BitVec.ofNat 64 s.now, snap := rec }))
  ∧ (∀ (q : Req) (s : State), Admitted s q maskIppFollow → q.u8 16 ≤ 63 → 2 ≤ q.u8 20 → q.u8 20 ≤ 4 → q.u16 22 + q.u8 20 ≤ 4096 →
    let m := followPrm q
    let f := s.surf (q.u16 22)
    let c := s.ctx (q.u8 21)
    let raw := c.codec = 2 ∧ c.state ≠ .closed
    let crop := cropOf m (0, 0, c.rawW, c.rawH)
    let charge := if m.pair then ceilDiv (q.u32 24) 2 else q.u32 24
    prmBad m = false → ownsFollow s q.part.val (q.u8 16) = true → ownsCtx s q.part.val (q.u8 21) = true →
    (∀ n ∈ upFrom (q.u16 22) (q.u8 20), ownsSurf s q.part.val n = true ∧ (s.surf n).created = true ∧ (s.surf n).w = f.w
      ∧ (s.surf n).h = f.h ∧ (s.surf n).fmt = f.fmt) →
    (raw → cropOut crop c.rawW c.rawH = false ∧ scaleBad crop (scaledSize f m.rot) = false ∧ (f.fmt < 4 ↔ c.rawFmt < 2)) →
    (¬ raw → f.fmt < 4) → (cropNamed m = true → scaleBad crop (scaledSize f m.rot) = false) → lineShort m.pair f m.rot = false →
    (s.follow (q.u8 16)).bound = false → (∀ x ∈ s.follows, x.2.bound = true → x.2.ctx ≠ q.u8 21) →
    instLoad s m.inst + charge ≤ 2000000000 → (m.pair = true → instLoad s (m.inst + 1) + charge ≤ 2000000000) →
    ippUse s q.part.val + q.u32 24 ≤ (s.part q.part.val).qIpp →
    exec (.ippFollow q) s = .next (done (s.setFollow (q.u8 16) { s.follow (q.u8 16) with
      bound := true, prm := m, ctx := q.u8 21, m := q.u8 20, first := q.u16 22, charge := charge, rate := q.u32 24, count := 0
      seen := (s.ctx (q.u8 21)).outSeq, newest := none, closing := [] }) q 0x0502 stComplete (cplBody [(16, 4, charge)])))
  ∧ (∀ (q : Req) (s : State), Admitted s q (bodyMask [(16, 0, 8)]) → q.u8 16 ≤ 63 → ownsFollow s q.part.val (q.u8 16) = true →
    ((s.follow (q.u8 16)).closing = [] → followBusy s (q.u8 16) = false →
      ∃ t, exec (.ippUnfollow q) s = .next t ∧ (t.follow (q.u8 16)).bound = false ∧ (t.follow (q.u8 16)).charge = 0
        ∧ (t.follow (q.u8 16)).rate = 0 ∧ t.mem = s.mem ∧ t.regs = s.regs
        ∧ t.cpls = (done s q 0x0503 stComplete (cplBody [(16, 4, (s.follow (q.u8 16)).count.toNat)])).cpls)
    ∧ (∀ i w, i < 16 → s.ippW i = some w → w.begun = true → w.follow = some (q.u8 16) →
      ∃ t, exec (.ippUnfollow q) s = .next t ∧ (t.follow (q.u8 16)).closing = (s.follow (q.u8 16)).closing ++ [s.nextJob]
        ∧ (t.follow (q.u8 16)).bound = (s.follow (q.u8 16)).bound ∧ t.cpls = s.cpls ∧ t.mem = s.mem ∧ t.regs = s.regs)))
  ∧ ((∀ (i : Fin 16) (s : State) (w : Machine.IppWork), s.ctl.core = true → s.ctl.mode ≠ .yield → instBusy s i.val = false →
    earliestItem (readyFollows s i.val ++ readyRuns s i.val) = some w →
    ((∀ k, w.follow = some k → liveOrPending s (followTarget (s.follow k)) = false) →
      (w.prm.pair = false ∨ s.ippW (i.val ^^^ 1) = none) →
      exec (.ippStart i) s = .next (pwrRequest (s.setIppW i.val (some w)) (pwrIpp i.val) (if w.prm.pair then 12 else 6)))
    ∧ ((∀ k, w.follow = some k → liveOrPending s (followTarget (s.follow k)) = false) →
      w.prm.pair = true → (s.ippW (i.val ^^^ 1)).isSome = true → exec (.ippStart i) s = .next (s.setIppW i.val (some w)))
    ∧ (∀ k, w.follow = some k → liveOrPending s (followTarget (s.follow k)) = true → exec (.ippStart i) s = .next (followOnScreen s k)))
  ∧ (∀ (i : Fin 16) (s : State) (w : Machine.IppWork), s.ctl.core = true → s.ctl.mode ≠ .yield → s.ippW i.val = some w → w.begun = false →
    (w.prm.pair = false ∨ s.ippW (i.val ^^^ 1) = none) →
    (pwrReady s (pwrIpp i.val) = false → exec (.ippStart i) s = .next (pwrRequest s (pwrIpp i.val) (if w.prm.pair then 12 else 6)))
    ∧ (pwrReady s (pwrIpp i.val) = true →
      (w.follow = none → ∃ t, exec (.ippStart i) s = .next t
        ∧ t.ippW i.val = some { w with seq := s.reg (IPP_INST_JOBS w.prm.inst) + 1, begun := true }
        ∧ t.reg (IPP_INST_JOBS w.prm.inst) = s.reg (IPP_INST_JOBS w.prm.inst) + 1 ∧ SameRegsBut [IPP_INST_JOBS w.prm.inst] s t
        ∧ t.mem = s.mem ∧ t.cpls = s.cpls)
      ∧ (∀ k src, w.follow = some k → recordHeld s k = false → liveOrPending s (followTarget (s.follow k)) = false →
        let u := takeNewest s k
        u.2 = some src → pictureFits u.1 (followOwner s k) w.prm src (followTarget (s.follow k)) = true →
        ∃ t, exec (.ippStart i) s = .next t ∧ t.ippW i.val = some { w with
            src := src, target := followTarget (s.follow k), seq := u.1.reg (IPP_INST_JOBS w.prm.inst) + 1, begun := true }
          ∧ t.reg (IPP_INST_JOBS w.prm.inst) = u.1.reg (IPP_INST_JOBS w.prm.inst) + 1)))
  ∧ (∀ (i : Fin 16) (s : State) (w : Machine.IppWork), s.ippW i.val = some w → w.begun = true →
    (∀ j id, w.job = some id → s.job id = some j → ippHeld s j.req.part.val w = false →
      ∃ t, exec (.ippComplete i) s = .next t ∧ t.ippW i.val = none
        ∧ t = releaseInst (runEnd (noteSource s j.req.part.val w) j.req.part.val j w) i.val w)
    ∧ (∀ k, w.job = none → w.follow = some k → ippHeld s (followOwner s k) w = false →
      ∃ t, exec (.ippComplete i) s = .next t ∧ t.ippW i.val = none
        ∧ t = followEnd (releaseInst (noteSource s (followOwner s k) w) i.val w) (followOwner s k) k w)))

/-- ENC_OPEN opens a session with its charge (R164, R179), ENC_PIC waits as a job (R165), ENC_REFRESH asks for an IDR or a new sweep
(R169), ENC_CLOSE of a session without a picture in progress ends it, of one with a picture it waits (R178).
A session with a due frame or an ENC_PIC picture asks for its tokens, 24 a core, while no other session holds its cores, and begins the
picture once they are granted and the clock runs (R165, R177). At its end a picture whose job was aborted leaves its slot empty, one of
ENC_PIC whose source was refused ends with what that gives, one whose header bits and skip bits do not fit and an IDR picture over its
cap are dropped (R175), any other is written to its slot with its rows as R174 plans them (R166, R172–R174). -/
def Obligations.Encoding : Prop :=
  ((∀ (q : Req) (s : State), Admitted s q maskEncOpen → encOpenBad q = false →
    let e := encOf q
    let o := s.enc (q.u8 16)
    ownsSess s q.part.val (q.u8 16) = true →
    (e.follow = true → e.head < s.nHeads ∧ ownsHead s q.part.val e.head = true ∧ (s.head e.head).hAct = e.w ∧ (s.head e.head).vAct = e.h
      ∧ ((s.head e.head).wbOn = true → (s.surf (s.head e.head).wbA).fmt ≤ 1)) →
    o.opened = false → (∀ i ∈ encCores e, i < s.nEnc ∧ encLoad s i + e.charge ≤ 497664000) →
    encUse s q.part.val + encRate e ≤ (s.part q.part.val).qEnc →
    exec (.encOpen q) s = .next (done (s.setEnc (q.u8 16)
      { e with nBudget := o.nBudget, nSkip := o.nSkip, nDropped := o.nDropped, nPassed := o.nPassed }) q 0x0601 stComplete
      (cplBody [(16, 4, e.charge), (20, 2, encRows e)])))
  ∧ (∀ (q : Req) (s : State), Admitted s q (bodyMask [(16, 0, 8), (17, 0, 1), (18, 0, 12), (20, 0, 32)]) → q.u8 16 ≤ 31 →
    ownsSess s q.part.val (q.u8 16) = true → ownsSurf s q.part.val (q.u16 18) = true → (s.enc (q.u8 16)).opened = true →
    (s.enc (q.u8 16)).follow = false → (s.surf (q.u16 18)).reg = true → (s.surf (q.u16 18)).w = (s.enc (q.u8 16)).w →
    (s.surf (q.u16 18)).h = (s.enc (q.u8 16)).h → (s.surf (q.u16 18)).fmt ≤ 1 →
    exec (.encPic q) s = .next (accepted s q 0x0602))
  ∧ (∀ (q : Req) (s : State), Admitted s q (bodyMask [(16, 0, 8), (17, 0, 1)]) → q.u8 16 ≤ 31 →
    ownsSess s q.part.val (q.u8 16) = true → (s.enc (q.u8 16)).opened = true →
    exec (.encRefresh q) s = .next (done (s.setEnc (q.u8 16)
      (if q.bit 17 0 then { s.enc (q.u8 16) with idrNext := true } else { s.enc (q.u8 16) with restart := true })) q 0x0603 stComplete))
  ∧ (∀ (q : Req) (s : State), Admitted s q (bodyMask [(16, 0, 8)]) → q.u8 16 ≤ 31 → ownsSess s q.part.val (q.u8 16) = true →
    (s.enc (q.u8 16)).opened = true →
    ((s.enc (q.u8 16)).work = none → (s.enc (q.u8 16)).closing = [] →
      ∃ t, exec (.encClose q) s = .next t ∧ (t.enc (q.u8 16)).opened = false ∧ (t.enc (q.u8 16)).charge = 0 ∧ t.mem = s.mem ∧ t.regs = s.regs
        ∧ ((∀ j ∈ s.jobs, j.opcode = 0x0602 → j.req.u8 16 ≠ q.u8 16) →
          t.cpls = (done s q 0x0604 stComplete (cplBody [(16, 4, (s.enc (q.u8 16)).picSeq.toNat)])).cpls))
    ∧ ((s.enc (q.u8 16)).work.isSome = true → exec (.encClose q) s =
        .next ((accepted s q 0x0604).setEnc (q.u8 16) { s.enc (q.u8 16) with closing := (s.enc (q.u8 16)).closing ++ [s.nextJob] }))))
  ∧ ((∀ (k : Fin 32) (s : State), s.ctl.core = true → s.ctl.mode ≠ .yield → (s.enc k.val).opened = true → (s.enc k.val).work = none →
    (s.enc k.val).closing = [] →
    let e := s.enc k.val
    ((if e.follow then e.due.isSome else (encJob s k.val).isSome) = true → pwrReady s (pwrEnc k.val) = false → encBlocked s k.val = false →
      exec (.encPictureStart k) s = .next (pwrRequest s (pwrEnc k.val) (24 * (encCores e).length)))
    ∧ (∀ j, e.follow = false → encJob s k.val = some j → pwrReady s (pwrEnc k.val) = true →
      let fr := picFresh s e (j.req.u16 18)
      exec (.encPictureStart k) s = .next ((s.modJob j.id fun j => { j with running := true }).setEnc k.val (encTake e
        ⟨some j.id, j.req.u16 18, e.idrNext || j.req.bit 17 0, fr.2, fr.1, nextK e, some (signed 16 (j.req.u16 20), signed 16 (j.req.u16 22))⟩)))
    ∧ (∀ buf stale live t boundary, e.follow = true → e.due = some (buf, stale, live, some t, boundary) → pwrReady s (pwrEnc k.val) = true →
      exec (.encPictureStart k) s = .next (s.draw.setEnc k.val (encTake e
        ⟨none, wbSurf (s.head e.head) (buf == 1), e.idrNext, captureAt s t, stale, nextK e, none⟩))))
  ∧ (∀ (k : Fin 32) (pic : CodedPic) (s : State) (w : EncWork), (s.enc k.val).work = some w →
    let e := s.enc k.val
    let hdr := hdrBits e w pic
    let runs := codePicture e w.idr hdr pic.rows
    let src := encSource s (sessOwner s k.val) e (s.surf w.surface)
    let burst := w.idr = true ∧ (picStart e hdr).2 < runs.foldl (fun (n : Int) r => n + r.used) 0
    encHeld s k.val (auBytes e w pic) w = false →
    (∀ j, w.job.bind s.job = some j → j.stops = true → exec (.encPictureComplete k pic.sets pic.heads pic.rows) s = .next (encAbort s k.val j.id))
    ∧ ((∀ j, w.job.bind s.job = some j → j.stops = false) →
      (src.2.1 ≠ .ok → w.job.isSome = true → exec (.encPictureComplete k pic.sets pic.heads pic.rows) s = .next (encRefused src.1 k.val w src.2.1))
      ∧ ((src.2.1 = .ok ∨ w.job = none) →
        (rcRoom e < (hdr : Int) + 96 * (encCols e : Int) * (encRows e : Int) →
          exec (.encPictureComplete k pic.sets pic.heads pic.rows) s = .next (encDrop src.1 k.val w none none))
        ∧ ((hdr : Int) + 96 * (encCols e : Int) * (encRows e : Int) ≤ rcRoom e →
          (burst → exec (.encPictureComplete k pic.sets pic.heads pic.rows) s = .next (encDrop src.1 k.val w ((runs.filterMap (·.first)).head?) none))
          ∧ (¬ burst → exec (.encPictureComplete k pic.sets pic.heads pic.rows) s = .next (encWrite src.1 k.val w runs pic src.2.2)))))))

/-! ### Surfaces, layers and heads (R183–R217) -/

/-- SURF_CREATE of an unregistered or registered surface (R183, R185, R30–R32), SURF_RELEASE (R185), SURF_UPLOAD accepted (R184).
A tile row of an upload is copied with its records; one that ends with a refused write ends the upload, the last one completes it, and
one that leaves rows to copy ends it where an ABORT or YIELD waits (R184, R288, R290, R517). A read of host memory that fails ends it too (R287); one held at a gate and a row
whose writes are held leave it as it is (R309). -/
def Obligations.SurfacesAndUploads : Prop :=
  ((∀ (q : Req) (s : State), Admitted s q maskSurfCreate → surfBad s (surfOf q) = false → ownsSurf s q.part.val (q.u16 16) = true →
    q.u8 18 ≤ 5 → surfInUse s (q.u16 16) = false →
    let f := surfOf q
    (q.bit 36 0 = false → exec (.surfCreate q) s = .next (done ((unregister s (q.u16 16)).setSurf (q.u16 16) f) q 0x0701 stComplete
      (cplBody [(16, 4, 0xFFFFFFFF), (20, 2, f.tx), (22, 2, f.ty)])))
    ∧ (∀ b, q.bit 36 0 = true → bindingBad (bound q f) = false → runFor s q.part.val (q.u16 16) f.tiles = .inl b →
      exec (.surfCreate q) s = .next (done (register s (q.u16 16) b (bound q f)) q 0x0701 stComplete
        (cplBody [(16, 4, b), (20, 2, f.tx), (22, 2, f.ty)]))))
  ∧ (∀ (q : Req) (s : State), Admitted s q (bodyMask [(16, 0, 12)]) → ownsSurf s q.part.val (q.u16 16) = true →
    surfInUse s (q.u16 16) = false →
    exec (.surfRelease q) s = .next (done ((unregister s (q.u16 16)).setSurf (q.u16 16) {}) q 0x0702 stComplete))
  ∧ (∀ (q : Req) (s : State), Admitted s q maskSurfUpload → uploadBad (s.surf (q.u16 16)) q = false →
    ownsSurf s q.part.val (q.u16 16) = true → onScreen s (q.u16 16) = false →
    exec (.surfUpload q) s = .next (accepted s q 0x0703)))
  ∧ (∀ (id : Nat) (h : HostRead) (s : State) (j : Job), s.job id = some j → j.opcode = 0x0703 → mayRun s j = true →
    let q := j.req
    let n := q.u16 16
    let f := s.surf n
    let y := q.u16 22 + 64 * j.n
    let dst := rectRows f (q.u16 20) y (q.u16 24) (Nat.min 64 (q.u16 26 - 64 * j.n))
    let rd := hostReads s q.part.val (uploadSrc f q j.n) h
    (rowsDec s 34 q.part.val .w dst = .held → exec (.uploadTileRowDone id h) s = .next s)
    ∧ (rowsDec s 34 q.part.val .w dst ≠ .held →
      (rd.2.1 = stWaits → exec (.uploadTileRowDone id h) s = .next s)
      ∧ (rd.2.1 ≠ stWaits → rd.2.1 ≠ stComplete → exec (.uploadTileRowDone id h) s = .next (uploadEnd rd.1 j rd.2.1))
      ∧ (rd.2.1 = stComplete →
        let j1 := if j.n = 0 then { j with v := BitVec.ofNat 64 ((f.uploads + 1).toNat) } else j
        let s1 := if j.n = 0 then rd.1.setSurf n { f with uploads := f.uploads + 1 } else rd.1
        let ts := tilesAcross f (y / 64) (q.u16 20) (q.u16 24)
        let bad := ts.filter fun t => let r := tileRect f t; rowsDec s1 34 q.part.val .w (rectRows f r.1 r.2.1 r.2.2.1 r.2.2.2) != .ok
        let w := writeRows s1 34 q.part.val (cutBytes dst rd.2.2)
        let t := uploadRecords w.1 n (BitVec.ofNat 32 j1.v.toNat) bad ts
        let j2 := { j1 with n := j.n + 1, m := if f.reg then j.m + ts.length else j.m, running := true }
        (w.2 ≠ .ok → exec (.uploadTileRowDone id h) s = .next (uploadEnd t j2 w.2.status))
        ∧ (w.2 = .ok → q.u16 26 ≤ 64 * (j.n + 1) → exec (.uploadTileRowDone id h) s = .next (uploadEnd t j2 stComplete))
        ∧ (w.2 = .ok → 64 * (j.n + 1) < q.u16 26 →
          (j.stops = true → exec (.uploadTileRowDone id h) s = .next (uploadEnd t j2 stAborted))
          ∧ (j.stops = false → exec (.uploadTileRowDone id h) s = .next (t.modJob j.id fun _ => j2))))))

/-- LAYER_CREATE, LAYER_UPDATE and LAYER_DESTROY (R190, R191, R202, R203, R205, Table 7.10): an update waits in its layer in seal
order, or merges with the unarmed ones of its set, of which two can be there after SEAL_GROUP, and their commands complete SUPERSEDED.
HEAD_SET stores a head's timing and retimes its group, and leaves the link of a slot that its gang takes DARK, and its own where that
does not fit a gang (R80, R186, R187, R221);
HEAD_ENABLE waits for the boundary with its tokens reserved, disabling a head that neither runs nor waits to run completes at once
(R188, R440); HEAD_WB stores the writeback configuration (R211). -/
def Obligations.LayersAndHeads : Prop :=
  ((∀ (q : Req) (s : State), Admitted s q (bodyMask [(16, 0, 16), (18, 0, 8), (19, 0, 1), (20, 0, 8)]) → q.u16 16 ≤ 255 → q.u8 18 ≤ 15 →
    gangMember s (q.u8 18) = false → (q.bit 19 0 = true ∨ 1 ≤ q.u8 20 ∧ q.u8 20 ≤ 30) → q.u8 18 < s.nHeads →
    ownsLayer s q.part.val (q.u16 16) = true → ownsHead s q.part.val (q.u8 18) = true → (s.layer (q.u16 16)).created = false →
    (q.bit 19 0 = true → ∀ x ∈ layersOf s (q.u8 18), x.2.cursor = false) →
    (q.bit 19 0 = false → (∀ x ∈ layersOf s (q.u8 18), x.2.cursor = false → x.2.cur.z ≠ q.u8 20)
      ∧ ((layersOf s (q.u8 18)).filter fun x => !x.2.cursor).length < 30) →
    exec (.layerCreate q) s = .next (done (s.setLayer (q.u16 16) {
      created := true, head := q.u8 18, cursor := q.bit 19 0
      cur := { profile := 4 * q.part.val, z := if q.bit 19 0 then 31 else q.u8 20 } }) q 0x0801 stComplete))
  ∧ (∀ (q : Req) (s : State), Admitted s q (maskLayerUpdate q) → q.u16 16 ≤ 255 →
    let n := q.u16 16
    let l := s.layer n
    let k := if !l.cursor && q.bit 19 3 then some (BitVec.ofNat 32 (q.u32 44)) else none
    let fence := if q.bit 19 0 then some (q.bit 19 1, BitVec.ofNat 64 (q.u64 48), BitVec.ofNat 64 (q.u64 56)) else none
    firstFail (layerUpdateChecks s q l (stateAfter l k (layerGroups q) (layerVals q))) = none →
    let before := fun (x : Pending) => match x.sealN, k with | some a, some b => decide (sealDiff a b ≤ 0) | _, _ => true
    (mergesInto l k = [] → exec (.layerUpdate q) s = .next ((accepted s q 0x0802).setLayer n { l with
      pend := insertAfter before ⟨layerGroups q, layerVals q, fence, false, s.nextJob, 0, false, k⟩ l.pend }))
    ∧ (let new : Pending := ⟨layerGroups q, layerVals q, fence, false, s.nextJob, 0, false, k⟩
      (∀ o jo, mergesInto l k = [o] → o.job ≠ s.nextJob → s.job o.job = some jo → jo.abortBy = [] → jo.yielded = false →
        ∃ t, exec (.layerUpdate q) s = .next t ∧ (t.layer n).pend = l.pend.map (fun x => if x.job = o.job then joinPending o new else x)
          ∧ t.cpls = s.cpls ++ [cplOf jo (BitVec.ofNat 16 stSuperseded) 0] ∧ t.mem = s.mem ∧ t.regs = s.regs)
      ∧ (∀ o1 o2, mergesInto l k = [o1, o2] →
        ∃ t, exec (.layerUpdate q) s = .next t ∧ t.mem = s.mem ∧ t.regs = s.regs
          ∧ (t.layer n).pend = (l.pend.filter fun x => x.job ≠ o1.job).map fun x => if x.job = o2.job then joinPending o1 (joinPending o2 new) else x)))
  ∧ (∀ (q : Req) (s : State), Admitted s q (bodyMask [(16, 0, 16)]) → q.u16 16 ≤ 255 → (s.layer (q.u16 16)).created = true →
    ownsLayer s q.part.val (q.u16 16) = true →
    exec (.layerDestroy q) s = .next ((accepted s q 0x0803).setLayer (q.u16 16) { s.layer (q.u16 16) with
      destroy := (s.layer (q.u16 16)).destroy ++ [s.nextJob] })))
  ∧ ((∀ (q : Req) (s : State), Admitted s q maskHeadSet →
    let n := q.u8 16
    let h := headOf (s.head n) q
    n ≤ 15 → gangMember s n = false → (h.gang = true → n % 2 = 0) → h.tg ≤ 7 → timingBad h = false → pulseBad h = false →
    (∀ k ∈ h.liningSurf, k ≤ 4095 ∧ (s.surf k).created = true ∧ ownsSurf s q.part.val k = true ∧ (s.surf k).w = h.hAct ∧ (s.surf k).h = h.vAct) →
    n < s.nHeads → ownsHead s q.part.val n = true → (h.gang = true → ownsHead s q.part.val (n + 1) = true ∧ slotBusy s (n + 1) = false
      ∧ (s.head (n + 1)).enabled = false) →
    (s.head n).enabled = false → tgMismatch s n h = false →
    (∀ x ∈ layersOf s n, x.2.cur.live = true → x.2.cur.visible = true → hitsPulse h x.2.cur = false) →
    let fits := h.src = 3 ∨ (h.src = 0 ∧ h.lanes = 4)
    let u := if h.gang then linkCut (s.setHead n h) (n + 1) else s.setHead n h
    let v := if h.gang = true ∧ ¬ fits ∧ h.tx ≠ .dark then linkCut u n else u
    let t := if (s.head n).isSet && (s.head n).tg != h.tg then tgRetime v (s.head n).tg else v
    exec (.headSet q) s = .next (done (tgRetime t h.tg) q 0x0B01 stComplete)
      ∧ (h.gang = true → (s.head n).auxJobs = [] → (s.head (n + 1)).auxJobs = [] →
        (v.head (n + 1)).tx = .dark ∧ (v.head (n + 1)).linkJob = none ∧ (v.head (n + 1)).sinkOn = false ∧ (¬ fits → (v.head n).tx = .dark)))
  ∧ (∀ (q : Req) (s : State), Admitted s q (bodyMask [(16, 0, 8), (17, 0, 1)]) → q.u8 16 ≤ 15 → gangMember s (q.u8 16) = false →
    q.u8 16 < s.nHeads → ownsHead s q.part.val (q.u8 16) = true →
    let h := s.head (q.u8 16)
    (q.bit 17 0 = true → h.isSet = true →
      (tget (fun _ => 0) s.pwr.heads (q.u8 16) = 0 → pwrR s + pwrG s + headTokens h ≤ pwrB s) →
      exec (.headEnable q) s = .next ((pllStart (reserve (accepted s q 0x0B02) (q.u8 16)) 1).setHead (q.u8 16) { h with start := h.start ++ [s.nextJob] }))
    ∧ (q.bit 17 0 = false → (h.enabled = true ∨ h.start ≠ []) →
      exec (.headEnable q) s = .next ((accepted s q 0x0B02).setHead (q.u8 16) { h with stop := h.stop ++ [s.nextJob] }))
    ∧ (q.bit 17 0 = false → h.enabled = false → h.start = [] →
      exec (.headEnable q) s = .next (done s q 0x0B02 stComplete (enableBody h.frame h.boundary))))
  ∧ (∀ (q : Req) (s : State), Admitted s q maskHeadWb → q.u8 16 ≤ 15 → gangMember s (q.u8 16) = false → q.u8 16 < s.nHeads →
    ownsHead s q.part.val (q.u8 16) = true →
    let h := { s.head (q.u8 16) with wbOn := q.bit 17 0, wbCur := none, wbDue := none, wbDone := false, wbLast := false, wbHeldA := false, wbHeldB := false }
    (q.bit 17 0 = false → exec (.headWb q) s = .next (done (s.setHead (q.u8 16) h) q 0x0B03 stComplete))
    ∧ (q.bit 17 0 = true → q.u16 20 ≤ 4095 → q.u16 22 ≤ 4095 → q.u40 24 % 0x1000 = 0 → ownsSurf s q.part.val (q.u16 20) = true →
      ownsSurf s q.part.val (q.u16 22) = true → q.u8 18 ≤ 5 → wbShapeBad (s.head (q.u8 16)) (s.surf (q.u16 20)) (q.u8 18) = false →
      wbShapeBad (s.head (q.u8 16)) (s.surf (q.u16 22)) (q.u8 18) = false → (s.surf (q.u16 20)).reg = false → (s.surf (q.u16 22)).reg = false →
      exec (.headWb q) s = .next (done (s.setHead (q.u8 16) { h with
        wbFmt := q.u8 18, wb2020 := q.bit 17 1, wbFull := q.bit 17 2
        wbA := q.u16 20, wbB := q.u16 22, wbRec := q.u40 24 }) q 0x0B03 stComplete))))

/-- FENCE_SIGNAL with nothing earlier in its ring writes its value and completes, with an earlier command it waits; FENCE_WAIT waits in
its ring and ends when what it reads has reached the target, or with the status of a read that fails (R214, R287).
The commit point evaluates every layer once a frame (R199): an update without fence and without a writer in flight is armed, one with a
fence is counted, a layer to be destroyed is armed for it. A fence read that returns judges its flip set, and for a head of a seal
group notes what it reached; one that has not returned at the deadline counts as not reached (R200, R206). -/
def Obligations.FencesAndCommits : Prop :=
  ((∀ (q : Req) (s : State), Admitted s q maskFence → q.u64 24 % 8 = 0 → (∀ j ∈ s.jobs, j.id < s.nextJob ∧ j.opcode ≠ 0x0A01) →
    ((∀ j ∈ s.jobs, j.req.part ≠ q.part ∨ j.req.ring ≠ q.ring) → (∀ c ∈ s.cpls, c.part ≠ q.part.val ∨ c.ring ≠ q.ring.val) →
      signalHeld s q = false →
      let w := jobWrite s 34 q.part.val (q.bit 16 0) (q.u64 24) (leBytes 8 (q.u64 32))
      w.2 = stComplete → exec (.fenceSignal q) s = .next (done w.1 q 0x0A01 stComplete))
    ∧ ((∃ j ∈ s.jobs, j.req.part = q.part ∧ j.req.ring = q.ring) → exec (.fenceSignal q) s = .next (accepted s q 0x0A01)))
  ∧ (∀ (q : Req) (s : State), Admitted s q maskFence → q.u64 24 % 8 = 0 →
    exec (.fenceWait q) s = .next ((accepted s q 0x0A02).setPart q.part.val (setCring (s.part q.part.val) q.ring.val
      { cring (s.part q.part.val) q.ring.val with wait := some (s.nextJob, q.bit 16 0, BitVec.ofNat 64 (q.u64 24), BitVec.ofNat 64 (q.u64 32)) })))
  ∧ (∀ (p : Fin 16) (r : Fin 8) (s : State) (id : Nat) (host : Bool) (addr target : BitVec 64) (read : Option (BitVec 64)),
    (cring (s.part p.val) r.val).wait = some (id, host, addr, target) →
    let free := fun (t : State) => t.setPart p.val (setCring (t.part p.val) r.val { cring (t.part p.val) r.val with wait := none })
    (host = true → onPcie s p.val = true →
      let m := (s.part p.val).port
      let x := pcieFence s m read
      (∀ v, x.2 = some v → fenceReached v target = true → exec (.fenceWaitPoll p r read) s = .next (finish (free x.1) id stComplete))
      ∧ (∀ v, x.2 = some v → fenceReached v target = false → exec (.fenceWaitPoll p r read) s = .next x.1)
      ∧ (x.2 = none → exec (.fenceWaitPoll p r read) s = .next (finish (free x.1) id stHostDma))
      ∧ (∀ v, linkUp s m = true → read = some v → x = (s.setBit (HIF_HP_STATUS m) 7 true, some v))
      ∧ ((linkUp s m = false ∨ read = none) → x = (s.inc (HIF_HP_DMA_ERR m), none)))
    ∧ ((host = false ∨ onPcie s p.val = false) →
      let x := engRead s 34 p.val (fieldAddr host addr.toNat) 8
      (x.2.1 = .held → exec (.fenceWaitPoll p r read) s = .next s)
      ∧ (x.2.1 = .ok → fenceReached (BitVec.ofNat 64 (leNat x.2.2)) target = true →
        exec (.fenceWaitPoll p r read) s = .next (finish (free x.1) id stComplete))
      ∧ (x.2.1 = .ok → fenceReached (BitVec.ofNat 64 (leNat x.2.2)) target = false → exec (.fenceWaitPoll p r read) s = .next x.1)
      ∧ (x.2.1 ≠ .ok → x.2.1 ≠ .held → exec (.fenceWaitPoll p r read) s = .next (finish (free x.1) id x.2.1.status)))))
  ∧ ((∀ (n : Fin 16) (s : State), s.ctl.core = true → (s.head n.val).enabled = true → (s.head n.val).judged = false →
    ((layersOf s n.val).map (·.1)).Nodup → (∀ x ∈ layersOf s n.val, s.layer x.1 = x.2) →
    ∃ t, exec (.commitPoint n) s = .next t ∧ (t.head n.val).judged = true ∧ t.mem = s.mem ∧ t.regs = s.regs ∧ t.cpls = s.cpls
      ∧ (∀ i l, (i, l) ∈ layersOf s n.val → l.destroy ≠ [] → (t.layer i).destroyArmed = true ∧ (t.layer i).pend = l.pend)
      ∧ (∀ i l, (i, l) ∈ layersOf s n.val → l.destroy = [] → (t.layer i).pend = l.pend.map fun p =>
        if p.armed || p.sealN.isSome then p else if p.fence.isSome then { p with counts := true }
        else if pendWriter s p then p else { p with armed := true, counts := true }))
  ∧ (∀ (n : Fin 16) (s : State), s.ctl.core = true → (s.head n.val).enabled = true → (s.head n.val).judged = true →
    exec (.commitPoint n) s = .next s)
  ∧ (∀ (n : Fin 16) (s : State) (host : Bool) (addr : BitVec 64) (read : Option (BitVec 64)) (f : Bool × BitVec 64 × BitVec 64),
    s.ctl.core = true → (s.head n.val).enabled = true →
    (s.head n.val).flipSets.find? (fun f => f.1 == host && f.2.1 == addr) = some f → fenceWaits s (headOwner s n.val) host addr = false →
    let x := readFence s (headOwner s n.val) host addr read
    exec (.fenceReadReturn n host addr read) s =
      .next (judgeSet (x.1.setHead n.val { s.head n.val with flipSets := (s.head n.val).flipSets.erase f }) n.val f x.2))
  ∧ (∀ (n : Fin 16) (s : State) (addr v : BitVec 64) (g : Nat), s.ctl.core = true →
    ((s.head n.val).enabled = false ∨ (s.head n.val).flipSets.find? (fun f => f.1 == true && f.2.1 == addr) = none) →
    sealOf s n.val = some g → onPcie s (headOwner s n.val) = true →
    let fs := (layersOf s n.val).flatMap fun x => (x.2.pend.filterMap (·.fence)).filter fun f => f.1 == true && f.2.1 == addr && fenceReached v f.2.2
    exec (.fenceReadReturn n true addr (some v)) s = .next (s.setGrp g { s.grp g with reached := ((s.grp g).reached ++ fs).eraseDups }))
  ∧ (∀ (n : Fin 16) (s : State), s.ctl.core = true → (s.head n.val).enabled = true →
    exec (.fenceDeadline n) s = .next ((s.head n.val).flipSets.foldl (fun s f => judgeSet s n.val f none)
      (s.setHead n.val { s.head n.val with flipSets := [] }))))

/-- Judging a flip set (R200): reached and without a writer in flight, every member of it is armed; else none is. Memory does not
change. -/
def Obligations.FlipSetAllOrNone : Prop :=
  ∀ (s : State) (n : Nat) (f : Bool × BitVec 64 × BitVec 64) (v : Option (BitVec 64)), (judgeSet s n f v).mem = s.mem ∧
    let ok := match v with
      | some v => fenceReached v f.2.2 && !(layersOf s n).any fun x => x.2.pend.any fun p => inSet f p && pendWriter s p
      | none => false
    ((layersOf s n).map (·.1)).Nodup → (∀ x ∈ layersOf s n, s.layer x.1 = x.2) →
    ∀ (i : Nat) (l : Layer), (i, l) ∈ layersOf s n → ∀ (k : Nat) (p : Pending), l.pend[k]? = some p → inSet f p = true →
      ∃ p' : Pending, ((judgeSet s n f v).layer i).pend[k]? = some p' ∧ p'.armed = ok ∧ p'.counts = ok

/-- SEAL_GROUP configures a group, the pending updates of heads that leave it becoming FENCE-mode ones, or dissolves it (R199, R204);
SEAL closes the sets up to its number and waits (R206).
The instants of a seal group (R207–R209): at S a member reports how far its sets are complete; at D the master commits the lowest
report, or records which member held the group and why; at C a member or the master arms the sets of the COMMIT it has, and a member
without one holds. -/
def Obligations.Seals : Prop :=
  ((∀ (q : Req) (s : State), Admitted s q (bodyMask [(16, 0, 8), (17, 0, 2), (18, 0, 16), (20, 0, 24)]) → q.u8 16 ≤ 15 →
    (sgOwner s (q.u8 16) = 31 ∨ sgOwner s (q.u8 16) = q.part.val) →
    let g := q.u8 16
    let hs := (List.range 16).filter fun n => bitOf (q.u16 18) n
    (q.bit 17 0 = true → q.u8 20 ≤ 7 → q.u8 22 ≤ 7 →
      (∀ n ∈ hs, n < s.nHeads ∧ ownsHead s q.part.val n = true ∧ (s.head n).tg = q.u8 22 ∧ (sealOf s n = none ∨ sealOf s n = some g)) →
      let u := ((sgHeadList s g).filter fun n => !bitOf (q.u16 18) n).foldl leaveSeal s
      exec (.sealGroup q) s = .next (done ((u.setReg (CMP_SEAL_CFG g) (BitVec.ofNat 32 (1 + Bool.nat (q.bit 17 1) * 2
        + q.u16 18 * 2 ^ 2 + q.u8 20 * 2 ^ 18 + q.u8 21 * 2 ^ 21 + q.u8 22 * 2 ^ 29))).setReg (CMP_SEAL_PART g)
        (BitVec.ofNat 32 q.part.val)) q 0x0901 stComplete))
    ∧ (q.bit 17 0 = false →
      (∃ t, exec (.sealGroup q) s = .next t ∧ t.reg (CMP_SEAL_CFG g) = 0 ∧ t.reg (CMP_SEAL_PART g) = 31 ∧ t.reg (CMP_SEAL_DONE g) = 0
        ∧ t.reg (CMP_SEAL_CLOSED g) = 0 ∧ t.grp g = {})
      ∧ ((s.grp g).seals = [] → exec (.sealGroup q) s = .next (done ((((((sgHeadList s g).foldl leaveSeal s).setReg (CMP_SEAL_CFG g) 0).setReg
          (CMP_SEAL_PART g) 31).setGrp g {}).setReg (CMP_SEAL_DONE g) 0 |>.setReg (CMP_SEAL_CLOSED g) 0) q 0x0901 stComplete))))
  ∧ (∀ (q : Req) (s : State), Admitted s q (bodyMask [(16, 0, 8), (20, 0, 32)]) → q.u8 16 ≤ 15 →
    let g := q.u8 16
    let n := BitVec.ofNat 32 (q.u32 20)
    0 < sealDiff n (sgDone s g) → sealDiff n (sgDone s g) ≤ 8 → sgOn s g = true → sgOwner s g = q.part.val → sgHeads s g ≠ 0 →
    let t := if sealDiff n (sgClosed s g) > 0 then (accepted s q 0x0902).setReg (CMP_SEAL_CLOSED g) n else accepted s q 0x0902
    exec (.sealCmd q) s = .next (t.setGrp g { s.grp g with seals := (s.grp g).seals ++ [(n, s.nextJob)] })))
  ∧ ((∀ (g : Fin 16) (s : State), s.ctl.core = true → sgOn s g.val = true → sgMember s g.val = true → (s.tg (sgTg s g.val)).running = true →
    let x := sealReport g.val 9 s (sgDone s g.val)
    let t := countSets x.1 g.val x.2.1
    let t := if sgMaster s g.val then takeReport t g.val s.logicalId x.2.1 x.2.2 else t
    exec (.sealInstantS g) s = .next (broadcast t 3 (hput 8 1 g.val + hput 9 1 s.logicalId + hput 10 1 x.2.2 + hput 12 4 x.2.1.toNat
      + hput 16 8 (nextBoundary s (sgTg s g.val))) []))
  ∧ (∀ (g : Fin 16) (s : State), s.ctl.core = true → sgOn s g.val = true → sgMaster s g.val = true → (s.grp g.val).pastD = false →
    (s.tg (sgTg s g.val)).running = true →
    let c := sgDone s g.val
    let past := s.setGrp g.val { s.grp g.val with pastD := true }
    (∀ m, 0 < m → (∀ u, u < 8 → bitOf (sgMembers s g.val) u = true → m ≤ sealDiff (reportOf s g.val u).1 c) →
        (∃ u, u < 8 ∧ bitOf (sgMembers s g.val) u = true ∧ sealDiff (reportOf s g.val u).1 c = m) →
      let k := c + BitVec.ofInt 32 m
      let t := past.setGrp g.val { s.grp g.val with pastD := true, commitM := some k }
      exec (.sealInstantD g) s = .next (broadcast t 4 (hput 8 1 g.val + hput 12 4 k.toNat + hput 16 8 (nextBoundary s (sgTg s g.val))) []))
    ∧ (∀ u, u < 8 → bitOf (sgMembers s g.val) u = true → sealDiff (reportOf s g.val u).1 c ≤ 0 →
        (∀ v, v < u → bitOf (sgMembers s g.val) v = true → 0 < sealDiff (reportOf s g.val v).1 c) →
      let cause := (reportOf s g.val u).2
      exec (.sealInstantD g) s = .next (raiseKey ((past.setFld (CMP_SEAL_HELD g.val) 16 3 u).setFld (CMP_SEAL_HELD g.val) 19 3 cause)
        g.val evSealHeld 1 14 (sgOwner s g.val) [(g.val, 4), ((c + 1).toNat, 32), (u, 3), (cause, 8)])))
  ∧ (∀ (g : Fin 16) (s : State), s.ctl.core = true → sgOn s g.val = true → (sgMember s g.val = true ∨ sgMaster s g.val = true) →
    (s.grp g.val).pastC = false → (s.tg (sgTg s g.val)).running = true →
    ((s.grp g.val).commitM = none →
      exec (.sealInstantC g) s = .next (s.setGrp g.val { s.grp g.val with pastC := true, holds := sgMember s g.val }))
    ∧ (∀ m, (s.grp g.val).commitM = some m → ∃ t, exec (.sealInstantC g) s = .next t ∧ (t.grp g.val).armedM = some m
        ∧ (t.grp g.val).pastC = true ∧ t.regs = s.regs ∧ t.mem = s.mem
        ∧ (((sgLayers s g.val).map (·.1)).Nodup → (∀ x ∈ sgLayers s g.val, s.layer x.1 = x.2) →
          ∀ (i : Nat) (l : Layer), (i, l) ∈ sgLayers s g.val → ∀ (k : Nat) (p : Pending) (n : BitVec 32), l.pend[k]? = some p →
            p.sealN = some n → sealDiff n m ≤ 0 → ∃ p' : Pending, (t.layer i).pend[k]? = some p' ∧ p'.armed = true))))

/-! ### Output and verification (R218–R241) -/

/-- HEAD_LINK with a rate trains the link at once, waits while the link still trains, and ends with NO_SINK and stage 5
when hot-plug is low; with rate Off it takes the link DARK at once, whatever the AUX channel does (R220, R226, R227, R239).
HEAD_AUX starts its transaction, waits for the one in progress or for the training, and ends with NO_SINK when hot-plug is low (R230).
What ends a training or an AUX transaction does (R226, R229, R230, R235, R464): the settings are kept, the transmitter goes to
LINK_IDLE or DARK, to DARK where a lane of the link does not transmit, the sink's test CRC is started by an AUX write or recorded as unsupported, the command completes; an AUX command
completes with its reply, after the reply's bytes.
The hot-plug pins (R228, R229): a transition counts and is recorded, more than 2 ms low on a trained link marks it lost, an
IRQ_HPD posts DPCD 0x00200–0x00207. -/
def Obligations.Outputs : Prop :=
  ((∀ (q : Req) (s : State), Admitted s q (bodyMask [(16, 0, 32), (20, 0, 8), (21, 0, 3)]) → linkMode s = true →
    let n := q.u8 16
    let h := s.head n
    n ≤ 15 → gangMember s n = false → n < s.nHeads → ownsHead s q.part.val n = true → (h.gang = true → ownsHead s q.part.val (n + 1) = true) →
    (q.u8 17 = 0 → (h.auxJobs = [] ∨ h.linkJob = none ∧ ∀ id ∈ h.auxJobs, id < s.nextJob ∧ jobRuns s id = true) →
      let d := linkDark (accepted s q 0x0B04) n
      exec (.headLink q) s = .next (finish (d.setHead n { d.head n with rate := 0 }) s.nextJob stComplete))
    ∧ (q.u8 17 ≠ 0 → h.tx = .training →
      exec (.headLink q) s = .next ((accepted s q 0x0B04).setHead n { h with auxJobs := h.auxJobs ++ [s.nextJob] }))
    ∧ (q.u8 17 ≠ 0 → h.tx ≠ .training → linkBad h n q = false → (q.u8 19 ≠ 0 → s.fld (QD_CFG 15) 0 3 = 3) →
      (∀ x ∈ s.heads, x.1 ≠ n → overlaps (sourceLanes n (q.u8 19)).1 (q.u8 18) (heldLanes x.1 x.2).1 (heldLanes x.1 x.2).2 = false) →
      h.khz * 3 * q.u8 20 ≤ q.u8 18 * laneKbit (q.u8 17) →
      (h.hpd = true → exec (.headLink q) s = .next (trainStart ((accepted s q 0x0B04).setHead n { h with
        rate := q.u8 17, lanes := q.u8 18, src := q.u8 19, bpc10 := q.u8 20 == 10, limited := q.bit 21 0
        sinkCrc := q.bit 21 1, wbVerify := q.bit 21 2 }) n (some s.nextJob)))
      ∧ (h.hpd = false → (∀ id ∈ h.auxJobs, id < s.nextJob ∧ jobRuns s id = true) →
        exec (.headLink q) s = .next (done s q 0x0B04 stNoSink (linkBody 5 0 0)))))
  ∧ (∀ (q : Req) (s : State), Admitted s q (maskHeadAux q) → q.u8 16 ≤ 15 → gangMember s (q.u8 16) = false → 1 ≤ q.u8 18 → q.u8 18 ≤ 16 →
    q.u8 16 < s.nHeads → ownsHead s q.part.val (q.u8 16) = true →
    let h := s.head (q.u8 16)
    ((h.tx = .training ∨ (h.auxJobs ≠ [] ∧ ∀ id ∈ h.auxJobs, id < s.nextJob ∧ jobRuns s id = true)) →
      exec (.headAux q) s = .next ((accepted s q 0x0B05).setHead (q.u8 16) { h with auxJobs := h.auxJobs ++ [s.nextJob] }))
    ∧ (h.tx ≠ .training → h.auxJobs = [] → h.hpd = true →
      exec (.headAux q) s = .next ((((accepted s q 0x0B05).setHead (q.u8 16) { h with auxJobs := [s.nextJob] }).modJob s.nextJob
        fun j => { j with running := true }).emit (.aux (q.u8 16) (q.bit 17 0) (q.bit 17 1) (q.bit 17 2) (BitVec.ofNat 32 (q.u32 20))
          (leBytes (q.u8 18) (q.uN 24 (q.u8 18))) (q.u8 18))))
    ∧ (h.tx ≠ .training → h.auxJobs = [] → h.hpd = false →
      exec (.headAux q) s = .next (done (s.setHead (q.u8 16) { h with auxJobs := [] }) q 0x0B05 stNoSink))))
  ∧ ((∀ (n : Fin 16) (r : Training) (s : State), s.ctl.core = true → (s.head n.val).tx = .training →
    let h := s.head n.val
    let stage := trainedStage s n.val h r
    let ok := decide (stage = 0)
    let st := if ok then stComplete else stLinkFail
    let body := linkBody stage r.lttprs.toNat r.settings
    let deaf := ∃ i, i < h.lanes ∧ txDeaf s (((sourceLanes n.val h.src).1 + i) / 4) (((sourceLanes n.val h.src).1 + i) % 4) = true
    ((¬ deaf ∨ r.stage.val ≠ 0) → stage = r.stage.val) ∧ (deaf → r.stage.val = 0 → 1 ≤ stage ∧ stage ≤ 5) ∧
    (h.auxJobs = [] → (ok && h.sinkCrc && !r.crcSupp) = false →
      ∀ cs, ((h.linkJob = none ∧ cs = []) ∨ ∃ id j, h.linkJob = some id ∧ s.job id = some j ∧ j.abortBy = [] ∧ j.yielded = false
        ∧ cs = [cplOf j (BitVec.ofNat 16 st) body]) →
      ∃ t, exec (.linkTrainingDone n r) s = .next t ∧ t.reg (HD_TX_SETTINGS n.val) = r.settings
        ∧ (t.head n.val).tx = (if ok then .linkIdle else .dark) ∧ (t.head n.val).trained = ok ∧ (t.head n.val).linkJob = none
        ∧ (t.head n.val).sinkOn = (ok && h.sinkCrc) ∧ t.cpls = s.cpls ++ cs ∧ t.mem = s.mem
        ∧ t.outbox = s.outbox ++ if ok && h.sinkCrc then [.aux n.val false true false 0x270 [1] 1] else [])
    ∧ ((ok && h.sinkCrc && !r.crcSupp) = true →
      let u := (s.setReg (HD_TX_SETTINGS n.val) r.settings).setHead n.val { h with
        tx := .linkIdle, trained := true, linkJob := none, lttpr := r.lttprs.toNat % 8, sinkOn := false, sinkCnt := none }
      let l := sourceLanes n.val h.src
      let u := (List.range h.lanes).foldl (fun s i => s.settleTaps ((l.1 + i) / 4) ((l.1 + i) % 4)) u
      let u := raise u evSinkCrcUnsupp 0 (16 + n.val) (headOwner u n.val) [(n.val, 4)]
      exec (.linkTrainingDone n r) s = .next (linkNext n.val (h.auxJobs.length + 1)
        (match h.linkJob with | some id => finish u id stComplete body | none => u))))
  ∧ (∀ (n : Fin 16) (s : State) (j : Job), s.ctl.core = true → (s.head n.val).auxJobs.head? = some j.id → s.job j.id = some j →
    j.running = true →
    ((s.head n.val).auxJobs = [j.id] →
      let off := s.setHead n.val { s.head n.val with auxJobs := [] }
      exec (.auxReply n .timeout) s = .next (finish off j.id stAuxTimeout 0)
      ∧ exec (.auxReply n .nack) s = .next (finish off j.id stComplete (cplBody [(16, 1, 1)]))
      ∧ exec (.auxReply n .defer) s = .next (finish off j.id stComplete (cplBody [(16, 1, 2)]))
      ∧ (∀ bs, bs ≠ [] → 1 ≤ j.req.u8 18 → j.req.bit 48 0 = true → onPcie s j.req.part.val = true →
          linkUp s (s.part j.req.part.val).port = true →
        exec (.auxReply n (.ack bs)) s = .next (finish (off.emit (.hostWrite (s.part j.req.part.val).port (BitVec.ofNat 64 (j.req.u64 40))
          (bs.take (j.req.u8 18)))) j.id stComplete (cplBody [(17, 1, (bs.take (j.req.u8 18)).length)]))))
    ∧ (∀ bs, let w := jobWrite s (16 + n.val) j.req.part.val (j.req.bit 48 0) (j.req.u64 40) (bs.take (j.req.u8 18))
      bs.take (j.req.u8 18) ≠ [] → exec (.auxReply n (.ack bs)) s =
        .next (auxEnd w.1 n.val j.id w.2 (if w.2 = stComplete then cplBody [(17, 1, (bs.take (j.req.u8 18)).length)] else 0)))))
  ∧ ((∀ (n : Fin 16) (level : Bool) (s : State),
    ((s.head n.val).hpd = level → exec (.hpdTransition n level) s = .next s)
    ∧ ((s.head n.val).hpd ≠ level →
      let t := s.setHead n.val { s.head n.val with hpd := level }
      ((s.ctl.core = false ∨ s.nHeads ≤ n.val) → exec (.hpdTransition n level) s = .next t)
      ∧ (s.ctl.core = true → n.val < s.nHeads →
        exec (.hpdTransition n level) s = .next (raise (t.add (HD_TX_HPD n.val) 0 16 1)
          evHpdChange 0 (16 + n.val) (headOwner s n.val) [(n.val, 4)]))))
  ∧ (∀ (n : Fin 16) (s : State), s.ctl.core = true →
    ((s.head n.val).hpd = false → (s.head n.val).trained = true →
      exec (.hpdDisconnect n) s = .next (raiseKey (s.setBit (HD_TX_STATE n.val) 4 true) n.val evLinkLost 1 (16 + n.val) (headOwner s n.val) [(n.val, 4)]))
    ∧ (((s.head n.val).hpd = true ∨ (s.head n.val).trained = false) → exec (.hpdDisconnect n) s = .next s))
  ∧ (∀ (n : Fin 16) (d : BitVec 64) (s : State), s.ctl.core = true → n.val < s.nHeads →
    let t := hpdEvent ((s.setBit (HD_TX_STATE n.val) 3 true).add (HD_TX_HPD n.val) 16 16 1) n.val
    let t := t.setPair (HD_TX_LINKST_LO n.val) (HD_TX_LINKST_HI n.val) d.toNat
    exec (.irqHpd n d) s = .next (raise t evLinkStatus 0 (16 + n.val) (headOwner t n.val) [(d.toNat, 64)])))

/-- The verifier's comparisons (R231–R234, R236, R237): a band without a difference changes nothing but that the witness ran; a
difference is counted, captured and recorded. A band read back as written changes nothing but the writeback itself; one that differs
is counted, captured and recorded; where a read waits at a gate so does the readback (R309).
The first difference stays: a capture register set that holds one is not overwritten (R232).
The sink's test CRC read at half a frame is skipped, stale, a match or a mismatch (R236).
Scanout reads of a visible layer that a gate refuses or holds past their lines (R306, R312): the refused ones are violations,
the pixels those bursts would have supplied become black, the layer's evaluations in the band become STALE without an age if it is
live class, and the first such burst of a band is counted and recorded, a later one is not; bursts that pass change nothing. -/
def Obligations.Verification : Prop :=
  ((∀ (n : Fin 16) (b : Fin 68) (k : Nat) (s : State), bandRuns s n.val b.val = true →
    let h := s.head n.val
    let expected := scrimExpected s n.val b.val
    let u := verCapture ((s.setHead n.val { h with witRan := true }).inc VFY_SCRIM_MIS) VFY_SCAP_STATUS n.val b.val h.frame
      ((expected - k) % 2 ^ 18) (expected % 2 ^ 18)
    (k = 0 ∨ expected = 0 → exec (.witnessBandCompare n b k) s = .next (s.setHead n.val { h with witRan := true }))
    ∧ (0 < k → 0 < expected → h.witBad = true → ∃ t, exec (.witnessBandCompare n b k) s = .next t ∧ t.mem = s.mem ∧ t.jobs = s.jobs
        ∧ t.reg VFY_SCRIM_MIS = (s.inc VFY_SCRIM_MIS).reg VFY_SCRIM_MIS ∧ (t.head n.val).witRan = true ∧ (t.head n.val).witBad = true
        ∧ (s.bit VFY_SCAP_STATUS 31 = true → SameRegsBut [VFY_SCRIM_MIS] s t))
    ∧ (0 < k → 0 < expected → h.witBad = false → exec (.witnessBandCompare n b k) s =
        .next (witnessError (u.setHead n.val { h with witRan := true, witBad := true }) n.val b.val (expected - k) expected)))
  ∧ (∀ (n : Fin 16) (b : Fin 68) (fault : BitVec 32) (s : State), bandRuns s n.val b.val = true →
    ((s.head n.val).tx ≠ .video → exec (.bandCrcCompare n b fault) s = .next (s.inc (HD_TX_SKIP n.val)))
    ∧ ((s.head n.val).tx = .video → fault = 0 → exec (.bandCrcCompare n b fault) s = .next s)
    ∧ ((s.head n.val).tx = .video → fault ≠ 0 →
      let tap := BitVec.ofNat 32 (tapCrc s n.val b.val)
      exec (.bandCrcCompare n b fault) s = .next (raiseKey (verCapture (s.inc VFY_BAND_MIS) VFY_BCAP_STATUS n.val b.val (s.head n.val).frame
        tap.toNat (tap ^^^ fault).toNat) n.val evBandCrc 2 15 31 [(n.val, 4), (b.val, 7), ((s.head n.val).frame.toNat, 16)])))
  ∧ (∀ (n : Fin 16) (b : Fin 68) (fault : BitVec 32) (s : State) (c : Bool × BitVec 64 × Nat), bandRuns s n.val b.val = true →
    (s.head n.val).wbVerify = true → (s.head n.val).wbCur = some c →
    let ws := wbBand s n.val b.val (s.surf (wbSurf (s.head n.val) c.1))
    let r := readBack (wbWriteBand s n.val b.val) (headOwner s n.val) ws
    let crc := fun (bs : Bytes) => BitVec.ofNat 32 (crc32c (bandContext n.val b.val c.2.1 true) bs)
    (r.2 = none → exec (.wbReadback n b fault) s = .next s)
    ∧ (∀ back, r.2 = some back → crc back ^^^ fault = crc (ws.flatMap (·.2)) → exec (.wbReadback n b fault) s = .next r.1)
    ∧ (∀ back, r.2 = some back → crc back ^^^ fault ≠ crc (ws.flatMap (·.2)) →
      exec (.wbReadback n b fault) s = .next (raiseKey (verCapture (r.1.inc VFY_WB_MIS) VFY_WCAP_STATUS n.val b.val c.2.1
        (crc (ws.flatMap (·.2))).toNat (crc back ^^^ fault).toNat) n.val evWbCrc 2 15 31 [(n.val, 4), (b.val, 7), (c.2.1.toNat, 16)])))
  ∧ (∀ (n : Fin 16) (s : State) (d : Bool × BitVec 64 × Nat), (s.head n.val).wbDue = some d →
    exec (.writebackComplete n) s = .next (wbComplete s n.val d))
  ∧ (∀ (n : Fin 16) (r : SinkRead) (s : State), s.ctl.core = true → (s.head n.val).enabled = true → (s.head n.val).sinkOn = true →
    ((s.head n.val).tx = .video ∨ (s.head n.val).tx = .training) →
    ((r.ok = false ∨ auxBusy s n.val = true) → exec (.sinkCrcRead n r) s = .next (s.inc (HD_TX_SINK_SKIP n.val)))
    ∧ (r.ok = true → auxBusy s n.val = false →
      let rg := s.setReg (HD_TX_SINK_RG n.val) (BitVec.ofNat 32 (r.r.toNat + r.g.toNat * 2 ^ 16))
      let t := rg.setReg (HD_TX_SINK_B n.val) (BitVec.ofNat 32 (r.b.toNat + r.count.toNat * 2 ^ 16))
      let h := { s.head n.val with sinkCnt := some r.count }
      ((s.head n.val).sinkCnt = some r.count → exec (.sinkCrcRead n r) s = .next (t.inc (HD_TX_SINK_STALE n.val)))
      ∧ ((s.head n.val).sinkCnt ≠ some r.count → (r.r, r.g, r.b) ∈ (s.head n.val).crcs → ∃ u, exec (.sinkCrcRead n r) s = .next u
        ∧ u.head n.val = { h with sinkRec := false } ∧ u.regs = (t.setFld (VFY_HEAD_STATE n.val) 2 4 0).regs ∧ u.mem = s.mem ∧ u.jobs = s.jobs)
      ∧ ((s.head n.val).sinkCnt ≠ some r.count → (r.r, r.g, r.b) ∉ (s.head n.val).crcs →
        exec (.sinkCrcRead n r) s = .next (sinkMismatch (t.setHead n.val h) n.val r.count)))))
  ∧ (∀ (s : State) (base n b : Nat) (frame : BitVec 64) (x y : Nat),
    (s.bit base 31 = true → verCapture s base n b frame x y = s)
    ∧ (s.bit base 31 = false → n < 16 → b < 128 →
      let t := verCapture s base n b frame x y
      t.reg base = BitVec.ofNat 32 (n + b * 2 ^ 4 + 2 ^ 31) ∧ t.reg (base + 4) = BitVec.ofNat 32 frame.toNat
      ∧ t.reg (base + 8) = BitVec.ofNat 32 x ∧ t.reg (base + 12) = BitVec.ofNat 32 y
      ∧ SameRegsBut [base, base + 4, base + 8, base + 12] s t ∧ t.mem = s.mem
      ∧ verCapture t base 0 0 0 0 0 = t))
  ∧ (∀ (n : Fin 16) (b : Fin 68) (i : Fin 256) (lo hi : Fin 64) (s : State), bandRuns s n.val b.val = true →
    (s.layer i.val).created = true → (s.layer i.val).head = n.val → (s.layer i.val).cur.visible = true → (s.layer i.val).buf.isSome = true →
    let p := headOwner s n.val
    let xs := shutPieces s p (s.head n.val) (s.layer i.val) b.val lo.val hi.val
    let t := shutReads s p (xs.map fun x => (x.addr, x.len))
    let h := t.head n.val
    let h' := { h with held := if (i.val, b.val) ∈ h.held then h.held else h.held ++ [(i.val, b.val)]
                       black := h.black ++ xs.map fun x => (i.val, x.y, x.x0, x.x1) }
    let h' := if (s.layer i.val).cur.live then { h' with evals := blackEvals b.val i.val h.evals, hot := blackEvals b.val i.val h.hot } else h'
    (xs = [] → exec (.gateIsoLate n b i lo hi) s = .next s)
    ∧ (xs ≠ [] → (∀ x ∈ h.held, x.2 ≠ b.val) →
      exec (.gateIsoLate n b i lo hi) s = .next (raise ((t.setHead n.val h').inc GATE_ISO_LATE) evGateIsoLate 1 36 p []))
    ∧ (xs ≠ [] → (∃ x ∈ h.held, x.2 = b.val) → exec (.gateIsoLate n b i lo hi) s = .next (t.setHead n.val h')))

/-! ### Touch (R242–R267) -/

/-- The touch commands (R243, R248, R254, R259, R263, R265): TCH_CFG starts or stops a port, a stop cutting off its self-test;
TCH_MAP, TCH_BASELINE and TCH_REBASE are noted for the next scan start, TCH_RAW writes the latest scan, TCH_SELFTEST takes the port,
TCH_RING sets the partition's own ring.
The slots and scans of a port (R244–R252, R254, R263, R264): a granted first drive slot begins a scan, each drive slot drives its
electrodes and adds its samples, a listen slot adds to the listen samples, a drive slot outside a scan passes; the last one
ends the scan, or the pass of a self-test; an accepted TSYNC edge arms the next slot and one within 2 µs is counted; 50 ms without a
slot loses the port's synchronisation; a contact, or a pre-touched node, that rests too long is said stuck once; each fault of
the pump is counted and recorded. -/
def Obligations.Touch : Prop :=
  ((∀ (q : Req) (s : State), Admitted s q maskTchCfg → q.u8 16 < s.nTch → q.u8 16 ≤ 1 → ownsTouch s q.part.val (q.u8 16) = true →
    let p := q.u8 16
    let c := tchCfgOf q
    let h := s.head c.syncHead
    (c.enable = true → tchCfgBad c = false → (c.acq = 0 → c.syncHead < s.nHeads ∧ 512 ≤ h.vAct) → (s.tch p).cfg.enable = false →
      let body := cplBody [(16, 1, if c.acq = 0 then h.vAct / 512 else 0), (20, 4, scanRate s c)]
      exec (.tchCfg q) s = .next (finish (tchSet (accepted s q 0x0C01).draw p c) s.nextJob stComplete body)
      ∧ ((s.tch p).contacts = [] → exec (.tchCfg q) s = .next (done (tchSet s.draw p c) q 0x0C01 stComplete body)))
    ∧ (c.enable = false →
      exec (.tchCfg q) s = .next (finish ((tchStop (cancelAll (testCut (accepted s q 0x0C01) p) p) p).modTch p fun t =>
        { t with cfg := { t.cfg with enable := false } }) s.nextJob stComplete)
      ∧ ((s.tch p).contacts = [] → ∃ t, exec (.tchCfg q) s = .next t ∧ (t.tch p).cfg.enable = false ∧ (t.tch p).driven = false
        ∧ (t.tch p).test = none ∧ t.mem = s.mem ∧ t.regs = s.regs
        ∧ ((s.tch p).test = none → t.cpls = (done s q 0x0C01 stComplete).cpls)
        ∧ (∀ id r j, (s.tch p).test = some (id, r) → s.job id = some j → id ≠ s.nextJob → j.abortBy = [] → j.yielded = false →
          t.cpls = (done { s with cpls := s.cpls ++ [cplOf j (BitVec.ofNat 16 stAborted) 0] } q 0x0C01 stComplete).cpls))))
  ∧ (∀ (q : Req) (s : State), Admitted s q (bodyMask [(16, 0, 16), (20, 0, 192)]) → q.u8 16 < s.nTch → q.u8 16 ≤ 1 → q.u8 17 < s.nHeads →
    ownsTouch s q.part.val (q.u8 16) = true →
    exec (.tchMap q) s = .next (done (s.modTch (q.u8 16) fun t =>
      { t with mapNext := some (q.u8 17, [20, 24, 28, 32, 36, 40].map fun i => q.sN i 4) }) q 0x0C02 stComplete))
  ∧ (∀ (q : Req) (s : State) (bs : Bytes), Admitted s q (bodyMask [(16, 0, 16), (18, 0, 1), (24, 0, 64)]) → modeIn s [.prime, .test] = true →
    q.u8 16 < s.nTch → q.u8 16 ≤ 1 → q.u8 17 ≤ 2 → ownsTouch s q.part.val (q.u8 16) = true →
    let n := (s.tch (q.u8 16)).cfg.nodes * (match q.u8 17 with | 0 => 1 | 1 => 2 | _ => 0)
    let er := engRead s (32 + q.u8 16) q.part.val (q.u40 24) (2 * n)
    let rd := if n = 0 then (s, stComplete, [])
      else if q.bit 18 0 = true then hostRead s q.part.val (q.u64 24) (2 * n) q.host
      else (er.1, er.2.1.status, er.2.2)
    rd.2 = (stComplete, bs) →
    exec (.tchBaseline q) s = .next (done (rd.1.modTch (q.u8 16) fun t => { t with
      baseNext := t.baseNext ++ [(q.u8 17, (List.range n).map fun i => signed 16 (leNat (sliceB bs (2 * i) 2)))] }) q 0x0C03 stComplete))
  ∧ (∀ (q : Req) (s : State), Admitted s q (bodyMask [(16, 0, 8)]) → modeIn s [.prime, .run, .test] = true → q.u8 16 < s.nTch → q.u8 16 ≤ 1 →
    ownsTouch s q.part.val (q.u8 16) = true → (s.tch (q.u8 16)).cfgd = true →
    exec (.tchRebase q) s = .next (done (s.modTch (q.u8 16) fun t => { t with rebase := true }) q 0x0C04 stComplete))
  ∧ (∀ (q : Req) (s : State), Admitted s q (bodyMask [(16, 0, 16), (18, 0, 1), (24, 0, 64)]) → q.u8 16 < s.nTch → q.u8 16 ≤ 1 → q.u8 17 ≤ 3 →
    q.u64 24 % 8 = 0 → ownsTouch s q.part.val (q.u8 16) = true → (s.tch (q.u8 16)).cfgd = true →
    let bs := (rawData (s.tch (q.u8 16)) (q.u8 17)).flatMap fun v => leBytes 2 (unsigned 16 v)
    let body := cplBody [(16, 4, (s.reg (TCH_SCANS (q.u8 16))).toNat)]
    let w := jobWrite (accepted s q 0x0C05) (32 + q.u8 16) q.part.val (q.bit 18 0) (q.u64 24) bs
    exec (.tchRaw q) s = .next (finish w.1 s.nextJob w.2 body)
    ∧ (q.bit 18 0 = true → onPcie s q.part.val = true → linkUp s (s.part q.part.val).port = true →
      exec (.tchRaw q) s = .next (done (s.emit (.hostWrite (s.part q.part.val).port (BitVec.ofNat 64 (q.u64 24)) bs)) q 0x0C05 stComplete body)))
  ∧ (∀ (q : Req) (s : State), Admitted s q (bodyMask [(16, 0, 8), (18, 0, 1), (24, 0, 64)]) → modeIn s [.test] = true → q.u8 16 < s.nTch →
    q.u8 16 ≤ 1 → ownsTouch s q.part.val (q.u8 16) = true → (s.tch (q.u8 16)).cfgd = true → (s.tch (q.u8 16)).test = none →
    ∃ t, exec (.tchSelftest q) s = .next t ∧ (t.tch (q.u8 16)).test = some (s.nextJob, [], []) ∧ (t.tch (q.u8 16)).slots = []
      ∧ (t.tch (q.u8 16)).contacts = [] ∧ (t.tch (q.u8 16)).driven = false
      ∧ ((s.tch (q.u8 16)).contacts = [] → t.cpls = s.cpls ∧ t.regs = s.regs ∧ t.mem = s.mem))
  ∧ (∀ (q : Req) (s : State), Admitted s q (bodyMask [(16, 0, 8), (17, 0, 2), (18, 0, 8), (24, 0, 64)]) → q.u8 16 < s.nTch → q.u8 16 ≤ 1 →
    (q.bit 17 0 = true → 4 ≤ q.u8 18 ∧ q.u8 18 ≤ 10 ∧ q.u64 24 % 4096 = 0) →
    let p := q.u8 16
    let rs := (s.tch p).rings.filter fun r => r.1 != q.part.val
    exec (.tchRing q) s = .next (done (s.setTch p { s.tch p with
      rings := if q.bit 17 0 then rs ++ [(q.part.val, q.bit 17 1, q.u8 18, BitVec.ofNat 64 (q.u64 24), 0)] else rs }) q 0x0C07 stComplete)))
  ∧ ((∀ (p : Fin 2) (xs : List Int) (s : State), s.ctl.core = true → s.absent (32 + p.val) = false → (s.tch p.val).test = none →
    (s.tch p.val).cfg.enable = true → tchMode s = true → (s.tch p.val).lost = false →
    let t := s.tch p.val
    let acq := tchAcq s t
    let k := t.line
    let u := { t with
      edge := false, slotSeen := true, slotAt := s.now, line := if acq ≠ 0 ∧ k + 1 = cycleLen s t acq then 0 else k + 1
      lslots := if acq = 2 ∧ k = 0 then [] else t.lslots }
    t.acqUsed = acq →
    (slotArrives s t acq = false → exec (.touchSlot p xs) s = .next s)
    ∧ (slotArrives s t acq = true → pwrHas s (pwrTch p.val) = true →
      (∀ i, slotKind s t acq k = some i → 0 < i → t.scanning = true → t.slots.length = i →
        exec (.touchSlot p xs) s = .next ((s.setTch p.val { u with slots := t.slots ++ [samplesOf t xs], driven := true }).emit
          (.touchPins p.val (some (t.cfg.drive, slotEdges t.cfg (fun _ => true) i)))))
      ∧ (∀ i, slotKind s t acq k = some i → 0 < i → (t.scanning = false ∨ t.slots.length ≠ i) →
        exec (.touchSlot p xs) s = .next (s.setTch p.val u))
      ∧ (slotKind s t acq k = some 0 → pwrReady s (pwrTch p.val) = true → t.mapNext = none → t.baseNext = [] → t.rebase = false →
        exec (.touchSlot p xs) s = .next (takeSlot ((pinsOff (s.setTch p.val u) p.val).modTch p.val fun t => { t with scanning := true })
          p.val (fun _ => true) xs))
      ∧ (slotKind s t acq k = some 0 → pwrReady s (pwrTch p.val) = false →
        exec (.touchSlot p xs) s = .next ((pinsOff (s.setTch p.val u) p.val).modTch p.val fun t => { t with scanning := false }))
      ∧ (slotKind s t acq k = none → ¬ (acq = 1 ∧ k = 543) →
        exec (.touchSlot p xs) s = .next (s.setTch p.val { u with lslots := u.lslots ++ [samplesOf t xs] }))))
  ∧ (∀ (p : Fin 2) (xs : List Int) (s : State) (id : Nat) (passes : List (List Int)) (sat : List Nat), s.ctl.core = true →
    s.absent (32 + p.val) = false → (s.tch p.val).test = some (id, passes, sat) →
    (s.ctl.mode ≠ .test → exec (.touchSlot p xs) s = .next s)
    ∧ (s.ctl.mode = .test → (s.tch p.val).slots = [] → pwrReady s (pwrTch p.val) = false →
      exec (.touchSlot p xs) s = .next (pwrRequest s (pwrTch p.val) 6))
    ∧ (s.ctl.mode = .test → ((s.tch p.val).slots ≠ [] ∨ pwrReady s (pwrTch p.val) = true) → (s.tch p.val).slots.length < 512 →
      exec (.touchSlot p xs) s = .next (takeSlot s p.val (passDrives passes.length) xs)))
  ∧ (∀ (p : Fin 2) (s : State), s.ctl.core = true → (s.tch p.val).slots.length = 512 → (s.tch p.val).test = none → (s.tch p.val).scanning = true →
    tchMode s = true → exec (.touchScanEnd p) s = .next (scanEnd s p.val))
  ∧ (∀ (p : Fin 2) (s : State) (id : Nat) (passes : List (List Int)) (sat : List Nat), s.ctl.core = true → (s.tch p.val).slots.length = 512 →
    (s.tch p.val).test = some (id, passes, sat) →
    let raw := scanRaw true (s.tch p.val).cfg (s.tch p.val).slots
    (passes.length ≠ 12 → ∃ t sat', exec (.touchScanEnd p) s = .next t ∧ (t.tch p.val).slots = []
      ∧ (t.tch p.val).test = some (id, passes ++ [raw], sat')
      ∧ (0 < passes.length → sat' = sat) ∧ t.cpls = s.cpls ∧ t.regs = s.regs ∧ t.mem = s.mem)
    ∧ (passes.length = 12 → exec (.touchScanEnd p) s = .next (testEnd (pwrEnd (s.setTch p.val { s.tch p.val with
      slots := [], test := some (id, passes ++ [raw], sat) }) (pwrTch p.val)) p.val id (passes ++ [raw]) sat)))
  ∧ (∀ (p : Fin 2) (s : State), s.ctl.core = true → s.absent (32 + p.val) = false → (s.tch p.val).cfg.enable = true → tchAcq s (s.tch p.val) = 1 →
    tchMode s = true →
    let t := evcPulse s (50 + p.val)
    ((∀ a ∈ (s.tch p.val).tsyncAt, 2000 ≤ s.since a) →
      exec (.tsyncEdge p) s = .next (t.setTch p.val { s.tch p.val with tsyncAt := some s.now, edge := true, lost := false }))
    ∧ (∀ a, (s.tch p.val).tsyncAt = some a → s.since a < 2000 → exec (.tsyncEdge p) s = .next (t.inc (TCH_TSYNC_FAST p.val))))
  ∧ (∀ (p : Fin 2) (s : State), s.ctl.core = true → (s.tch p.val).cfg.enable = true → tchMode s = true → tchAcq s (s.tch p.val) ≠ 2 →
    (s.tch p.val).lost = false → (s.tch p.val).test = none → 50000000 ≤ s.since (s.tch p.val).slotAt →
    ∃ t, exec (.touchSyncLost p) s = .next t ∧ (t.tch p.val).lost = true ∧ (t.tch p.val).contacts = [] ∧ (t.tch p.val).slots = []
      ∧ (t.tch p.val).line = 0
      ∧ (t.tch p.val).scanning = false ∧ (t.tch p.val).driven = false)
  ∧ (∀ (p : Fin 2) (k : Fin 16) (node : Nat) (s : State), s.ctl.core = true → (s.tch p.val).cfg.enable = true → tchMode s = true →
    let limit := (((s.tch p.val).cfg.stuckS * 1000000000 : Nat) : Int)
    (∀ c, k.val < 15 → (s.tch p.val).contacts.find? (fun c => c.id == k.val) = some c → c.stuck = false → c.still = true →
      limit ≤ s.since c.nearAt →
      ∃ t, exec (.touchStuck p k node) s = .next t ∧ (∀ x ∈ (t.tch p.val).contacts, x.id = k.val → x.stuck = true)
        ∧ (t.tch p.val).contacts.map (·.id) = (s.tch p.val).contacts.map (·.id))
    ∧ (∀ c, k.val < 15 → (s.tch p.val).contacts.find? (fun c => c.id == k.val) = some c →
      (c.stuck = true ∨ c.still = false ∨ s.since c.nearAt < limit) → exec (.touchStuck p k node) s = .next s)
    ∧ (k.val = 15 → node ∈ (s.tch p.val).pre → node ∉ (s.tch p.val).preStuck → limit ≤ s.since (s.tch p.val).startAt →
      ∃ t, exec (.touchStuck p k node) s = .next t ∧ (t.tch p.val).preStuck = (s.tch p.val).preStuck ++ [node]))
  ∧ (∀ (p : Fin 2) (s : State), s.ctl.core = true → (s.tch p.val).cfg.enable = true →
    exec (.tchPump p) s = .next (tchEvent ((s.setTch p.val { s.tch p.val with pumpBad := true }).add (TCH_PUMP p.val) 16 16 1)
      p.val evTchPump 2 [])))

/-! ### Compression and check values (R401–R424) -/

/-- DCE_COMP and DCE_DECOMP are accepted within their ranges, or end with the first check that fails (R406, R407). An engine
takes its next item once its tokens are granted and its clock runs, and gives a request back that it has no use for (R408, R434).
An item ends with the engine free and its tokens following (R409–R413): a compression or decompression from and to host memory
writes its output, is counted and completes with its lengths and check values; an aborted one completes ABORTED with the check values
of the bytes it got to, whose number the spec leaves open (log 71); the bands of a slot end in their order (log 159); an item with an access held at a gate waits (R309). -/
def Obligations.DceCommands : Prop :=
  (∀ (q : Req) (s : State), Admitted s q (maskDce false q) →
    ((∀ x ∈ dceChecks s q false, x.1 = false) → exec (.dceComp q) s = .next (accepted s q 0x0D01))
    ∧ (∀ st, firstFail (dceChecks s q false) = some st → exec (.dceComp q) s = .next (done s q 0x0D01 st)))
  ∧ (∀ (q : Req) (s : State), Admitted s q (maskDce true q) →
    ((∀ x ∈ dceChecks s q true, x.1 = false) → exec (.dceDecomp q) s = .next (accepted s q 0x0D02))
    ∧ (∀ st, firstFail (dceChecks s q true) = some st → exec (.dceDecomp q) s = .next (done s q 0x0D02 st)))
  ∧ (∀ (e : Fin 2) (s : State), s.ctl.core = true → s.ctl.mode ≠ .yield → s.dceW e.val = none →
    (dceNext s e.val = none → exec (.dceStart e) s = .next (if pwrHas s (pwrDce e.val) then pwrEnd s (pwrDce e.val) else s))
    ∧ (∀ w, dceNext s e.val = some w → pwrReady s (pwrDce e.val) = false → exec (.dceStart e) s = .next (pwrRequest s (pwrDce e.val) 8))
    ∧ (∀ id, dceNext s e.val = some (.job id) → pwrReady s (pwrDce e.val) = true →
      exec (.dceStart e) s = .next ((s.setDceW e.val (some (.job id))).modJob id fun j => { j with running := true }))
    ∧ (∀ b, dceNext s e.val = some (.band b) → pwrReady s (pwrDce e.val) = true →
      exec (.dceStart e) s = .next { s.setDceW e.val (some (.band b)) with bands := s.bands.erase b })
    ∧ (dceNext s e.val = some .checkpoint → pwrReady s (pwrDce e.val) = true →
      exec (.dceStart e) s = .next { s.setDceW e.val (some .checkpoint) with ckptWait := false }))
  ∧ (∀ (e : Fin 2) (h : HostRead) (s : State),
    let free := fun (t : State) => nextTransfers (pwrEnd (t.setDceW e.val none) (pwrDce e.val))
    (s.dceW e.val = some .checkpoint → exec (.dceItemComplete e h) s = .next (free (ckptCompressed s e.val)))
    ∧ (∀ b, s.dceW e.val = some (.band b) →
      (bandBehind s b = false → (b.rx = true ∨ bandHeld s (s.txSurf b.slot).part b.target b.band = false) →
        exec (.dceItemComplete e h) s = .next (free (bandEnd s e.val b)))
      ∧ (bandBehind s b = true → exec (.dceItemComplete e h) s = .next s))
    ∧ (∀ id j, s.dceW e.val = some (.job id) → s.job id = some j → j.stops = false →
      let host := dceSrcHost j.req = true ∧ dceDstHost j.req = true ∧ onPcie s j.req.part.val = true
        ∧ linkUp s (s.part j.req.part.val).port = true
      let m := (s.part j.req.part.val).port
      let write := fun (out : Bytes) => ((s.setBit (HIF_HP_STATUS m) 7 true).draws (4 + out.length)).emit
        (.hostWrite m (BitVec.ofNat 64 (dceDst j.req)) out)
      (dceHeld s e.val j h = true → exec (.dceItemComplete e h) s = .next s)
      ∧ (dceHeld s e.val j h = false → exec (.dceItemComplete e h) s = .next (free (dceJobEnd s e.val j h)))
      ∧ (∀ bs, h = .bytes bs → j.opcode = 0x0D01 → host →
        let input := sliceB bs 0 (dceLen j.req)
        let out := pack (dceFmt j.req) (j.req.u8 18) input
        out.length ≤ dceCap j.req → exec (.dceItemComplete e h) s = .next (free (finish (dceCount (write out) e.val stComplete input.length
          out.length) id stComplete (dceBody input.length out.length (crc32 input) (adler32 input)))))
      ∧ (∀ bs, h = .bytes bs → j.opcode = 0x0D02 → host →
        let u := unpack (dceFmt j.req) (if dceVerify j.req then some (j.req.u32 52) else none) (sliceB bs 0 (dceLen j.req)) (dceCap j.req)
        u.st ≠ stOutFull → exec (.dceItemComplete e h) s = .next (free (finish (dceCount (write u.out) e.val u.st u.consumed u.out.length)
          id u.st (dceBody u.consumed u.out.length (crc32 u.out) (if dceVerify j.req then j.req.u32 52
            else if u.st = stComplete ∨ u.st = stCheckFail then u.carried else 0))))))
    ∧ (∀ id j, s.dceW e.val = some (.job id) → s.job id = some j → j.stops = true →
      let x := dceSeen s e.val j.req h
      let r := dceStop x.1 e.val j x.2
      exec (.dceItemComplete e h) s = .next (free (finish r.1 j.id stAborted r.2))
      ∧ (∀ bs, x.2 = some bs → j.opcode = 0x0D01 → ∃ n m, n ≤ bs.length ∧ m ≤ dceCap j.req
        ∧ r.2 = dceBody n m (crc32 (bs.take n)) (adler32 (bs.take n)))
      ∧ (∀ bs, x.2 = some bs → j.opcode = 0x0D02 → ∃ n m, n ≤ bs.length ∧
        let out := (unpack (dceFmt j.req) none (bs.take n) (dceCap j.req)).out.take m
        r.2 = dceBody n out.length (crc32 out) (if dceVerify j.req then j.req.u32 52 else 0))))

/-- CRC_RUN: a width outside 8–64 or a parameter with a bit at or above the width is BAD_RANGE (R417).
A CRC_RUN within its ranges, with no other waiting, takes its unit, or the lowest free one, and asks for its tokens, or waits where
there is none. A job ends once its unit's tokens are granted and its clock runs: the value of what it read is posted with its record
and completion, or the failure of its read, or its abort, and the unit is free for the next job; an access held at a gate waits
(R415–R419, R434, R309). -/
def Obligations.CrcJobs : Prop :=
  (∀ (q : Req) (s : State), Admitted s q (maskCrc q) → (q.u8 16 ≤ 7 ∨ q.u8 16 = 255) →
    (q.u8 18 < 8 ∨ 64 < q.u8 18 ∨ (∃ i, q.u8 18 ≤ i ∧ (bitOf (q.u64 32) i = true ∨ bitOf (q.u64 40) i = true ∨ bitOf (q.u64 48) i = true))) →
    exec (.crcRun q) s = .next (done s q 0x0E01 stBadRange))
  ∧ ((∀ (q : Req) (s : State), Admitted s q (maskCrc q) → (q.u8 16 ≤ 7 ∨ q.u8 16 = 255) → 8 ≤ q.u8 18 → q.u8 18 ≤ 64 →
    q.u64 32 < 2 ^ q.u8 18 → q.u64 40 < 2 ^ q.u8 18 → q.u64 48 < 2 ^ q.u8 18 →
    (∀ j ∈ s.jobs, j.op = 0x0E01 → j.running = true ∨ j.yielded = true) →
    (∀ u, crcUnitFor s (jobOf s q 0x0E01) = some u →
      exec (.crcRun q) s = .next (pwrRequest (((accepted s q 0x0E01).setCrcW u (some s.nextJob)).modJob s.nextJob
        fun j => { j with running := true }) (pwrCrc u) 2))
    ∧ (crcUnitFor s (jobOf s q 0x0E01) = none → exec (.crcRun q) s = .next (accepted s q 0x0E01)))
  ∧ (∀ (u : Fin 8) (h : HostRead) (s : State) (id : Nat) (j : Job), s.crcW u.val = some id → s.job id = some j →
    let q := j.req
    let p := q.part.val
    let free := fun (t : State) => crcAssign (pwrEnd (t.setCrcW u.val none) (pwrCrc u.val))
    let waits := isInternal s p (crcSrcHost q) && rangeHeld s (44 + u.val) p .r (crcSrc q) (q.u32 20)
    let r := jobSourceRead s (44 + u.val) p (crcSrcHost q) (crcSrc q) (q.u32 20) h
    (pwrReady s (pwrCrc u.val) = false → exec (.crcJobEnd u h) s = .next s)
    ∧ (pwrReady s (pwrCrc u.val) = true →
      (j.stops = true → exec (.crcJobEnd u h) s = .next (free (crcRecord s.draw u.val j stAborted 1 0 (crcStop s q))))
      ∧ (j.stops = false → waits = true → exec (.crcJobEnd u h) s = .next s)
      ∧ (j.stops = false → waits = false →
        (r.2.1 = stComplete → exec (.crcJobEnd u h) s = .next (free (crcRecord r.1 u.val j stComplete 0 (crcValue q r.2.2) (q.u32 20))))
        ∧ (r.2.1 ≠ stComplete → exec (.crcJobEnd u h) s = .next (free (crcRecord (r.1.draws 2) u.val j r.2.1 2
          (Config.unstated r.1.free % 2 ^ q.u8 18)
          (if r.2.1 = stHostDma then Config.unstated (r.1.free + 1) % (q.u32 20 + 1) else r.2.2.length)))))
      ∧ (∀ bs, j.stops = false → h = .bytes bs → crcSrcHost q = true → onPcie s p = true → linkUp s (s.part p).port = true →
        exec (.crcJobEnd u h) s = .next (free (crcRecord (s.setBit (HIF_HP_STATUS (s.part p).port) 7 true) u.val j stComplete 0
          (crcValue q (sliceB bs 0 (q.u32 20))) (q.u32 20)))))))

/-- The parameter sets of Table 15.6 give their check values over "123456789" without a context word (R420). -/
def Obligations.CrcCheckValues : Prop :=
  let nine : Bytes := [0x31, 0x32, 0x33, 0x34, 0x35, 0x36, 0x37, 0x38, 0x39]
  crcRef 32 0x1EDC6F41 0xFFFFFFFF 0xFFFFFFFF true true nine = 0xE3069283
  ∧ crcRef 32 0x04C11DB7 0xFFFFFFFF 0xFFFFFFFF true true nine = 0xCBF43926
  ∧ crcRef 64 0x42F0E1EBA9EA3693 0xFFFFFFFFFFFFFFFF 0xFFFFFFFFFFFFFFFF true true nine = 0x995DC9BBDF1939FA
  ∧ crcRef 32 0x04C11DB7 0xFFFFFFFF 0 false false nine = 0x0376E6E7
  ∧ crcRef 16 0x1021 0xFFFF 0 false false nine = 0x29B1
  ∧ crcRef 8 0x07 0 0 false false nine = 0xF4
  ∧ (∀ c m, crc32c c m = crcRef 32 0x1EDC6F41 0xFFFFFFFF 0xFFFFFFFF true true (leBytes 8 c ++ m))
  ∧ (∀ m, crc32 m = crcRef 32 0x04C11DB7 0xFFFFFFFF 0xFFFFFFFF true true m)
  ∧ (∀ c m, crc64 c m = crcRef 64 0x42F0E1EBA9EA3693 0xFFFFFFFFFFFFFFFF 0xFFFFFFFFFFFFFFFF true true (leBytes 8 c ++ m))

/-! ### Time and timing groups (R61–R88) -/

/-- TB_SNAP captures the timebase and TIME_READ gives it as it stands; nothing else changes (R61, R64).
An adjustment within ±500 ppm waits for the first whole microsecond after it, by register or by command, one beyond is refused; at that
time, not before, the rate, the margin and the growth take effect together (R67–R70).
A step: made only in PRIME, once, with no surface registered; otherwise refused with the result of Table 3.1 (R65). A reserved bit in a
request gives the result RESERVED (R70).
TIME_PTP_TX sends the message as its port's PTP frame and completes with the time the frame leaves (R73). -/
def Obligations.DeviceTime : Prop :=
  ((∀ (a : Access) (v : Word) (s : State), Reaches s a .w TB_SNAP →
    (bitOf v.toNat 31 = true → ∃ t, exec (.tbSnapGo a v) s = .next t
      ∧ (t.reg TB_SNAP_SEC_LO).toNat + t.fld TB_SNAP_SEC_HI 0 16 * 2 ^ 32 = s.now / 1000000000 % 2 ^ 48
      ∧ (t.reg TB_SNAP_NS).toNat = s.now % 1000000000 ∧ t.fld TB_SNAP_SEC_HI 16 16 = s.now16 % 2 ^ 16
      ∧ t.bit TB_SNAP_STATUS 0 = true ∧ t.fld TB_SNAP_STATUS 16 16 = (s.fld TB_SNAP_STATUS 16 16 + 1) % 2 ^ 16
      ∧ SameRegsBut [TB_SNAP_SEC_LO, TB_SNAP_SEC_HI, TB_SNAP_NS, TB_SNAP_STATUS] s t ∧ { t with regs := s.regs } = s)
    ∧ (bitOf v.toNat 31 = false → exec (.tbSnapGo a v) s = .next s))
  ∧ (∀ (q : Req) (s : State), Admitted s q 0 → exec (.timeRead q) s =
      .next (done s q 0x0F03 stComplete (cplBody [(16, 8, s.now), (24, 2, s.now16), (28, 4, s.margin)]))))
  ∧ ((∀ (a : Access) (v : Word) (s : State), Reaches s a .w TB_ADJ →
    (bitOf v.toNat 31 = false → exec (.tbAdjAdj a v) s = .next s ∧ exec (.tbAdjStep a v) s = .next s)
    ∧ (bitOf v.toNat 31 = true → bitsOf v.toNat 1 30 ≠ 0 → exec (.tbAdjAdj a v) s = .next (adjRecord s (bitsOf v.toNat 0 1) 4)
      ∧ exec (.tbAdjStep a v) s = .next (adjRecord s (bitsOf v.toNat 0 1) 4))
    ∧ (bitOf v.toNat 31 = true → bitsOf v.toNat 0 31 = 0 →
      (rateOut (signed 64 (s.pair TB_RATE_LO TB_RATE_HI)) = false →
        exec (.tbAdjAdj a v) s = .next (adjRecord { s with tbase := { s.tbase with
          adj := some (BitVec.ofNat 64 (s.pair TB_RATE_LO TB_RATE_HI), s.reg TB_MARGIN_NS, s.reg TB_GROWTH), due := nextMicro s.now } } 0 0))
      ∧ (rateOut (signed 64 (s.pair TB_RATE_LO TB_RATE_HI)) = true → exec (.tbAdjAdj a v) s = .next (adjRecord s 0 1))))
  ∧ (∀ (q : Req) (s : State), Admitted s q maskTimeAdj → s.fld TB_SERVO 0 5 = q.part.val →
    let body := fun (t : State) => cplBody [(16, 2, t.fld TB_ADJ_STATUS 16 16), (20, 4, ceilDiv (q.u32 24) 1000)]
    let t := adjRecord { s with tbase := { s.tbase with
      adj := some (BitVec.ofNat 64 (q.u64 16), BitVec.ofNat 32 (q.u32 24), BitVec.ofNat 32 (q.u32 28)), due := nextMicro s.now } } 0 0
    (rateOut (signed 64 (q.u64 16)) = false → exec (.timeAdj q) s = .next (done t q 0x0F01 stComplete (body t)))
    ∧ (rateOut (signed 64 (q.u64 16)) = true →
      exec (.timeAdj q) s = .next (done (adjRecord s 0 1) q 0x0F01 stRange (body (adjRecord s 0 1)))))
  ∧ (∀ (s : State),
    (s.tbase.adj = none → exec .adjustmentEffect s = .next s)
    ∧ (s.since s.tbase.due.toNat < 0 → exec .adjustmentEffect s = .next s)
    ∧ (∀ r m g, s.tbase.adj = some (r, m, g) → 0 ≤ s.since s.tbase.due.toNat →
      ∃ t, exec .adjustmentEffect s = .next t ∧ t.tbase = { s.tbase with adj := none, marginNs := m, growth := g, effAt := BitVec.ofNat 64 s.now }
        ∧ t.pair TB_RATE_ACT_LO TB_RATE_ACT_HI = r.toNat ∧ t.bit TB_STATUS 2 = true
        ∧ SameRegsBut [TB_RATE_ACT_LO, TB_RATE_ACT_HI, TB_STATUS] s t ∧ { t with regs := s.regs, tbase := s.tbase } = s)))
  ∧ ((∀ (a : Access) (v : Word) (s : State), Reaches s a .w TB_ADJ → bitOf v.toNat 31 = true → bitsOf v.toNat 1 30 = 0 → bitOf v.toNat 0 = true →
    let off := signed 64 (s.pair TB_STEP_LO TB_STEP_HI)
    let frac := s.fld TB_STEP_FRAC 0 16
    let val := s.tbase.val + BitVec.ofInt 128 (off * 2 ^ 64 + (frac * 2 ^ 48 : Nat))
    (s.ctl.mode = .prime → s.bit TB_STATUS 0 = true → s.fld LDG_STATUS 16 13 = 0 →
      ∃ t, exec (.tbAdjStep a v) s = .next t ∧ t.tbase = { s.tbase with val := val, due := nextMicro (val.toNat / 2 ^ 64) }
        ∧ t.bit TB_STATUS 0 = false ∧ t.bit TB_STATUS 1 = true ∧ t.fld TB_STATUS 3 2 = 2 ∧ t.bit TB_ADJ_STATUS 0 = true
        ∧ t.fld TB_ADJ_STATUS 1 3 = 0 ∧ SameRegsBut [TB_STATUS, TB_ADJ_STATUS] s t ∧ { t with regs := s.regs, tbase := s.tbase } = s)
    ∧ ((s.ctl.mode ≠ .prime ∨ s.bit TB_STATUS 0 = false) →
      exec (.tbAdjStep a v) s = .next (adjRecord (raise s evTimeStepRefused 0 5 (partOf a) []) 1 2))
    ∧ (s.ctl.mode = .prime → s.bit TB_STATUS 0 = true → s.fld LDG_STATUS 16 13 ≠ 0 →
      exec (.tbAdjStep a v) s = .next (adjRecord (raise s evTimeStepRefused 0 5 (partOf a) []) 1 3)))
  ∧ (∀ (q : Req) (s : State), Admitted s q maskTimeStep → s.fld TB_SERVO 0 5 = q.part.val →
    let body := fun (t : State) => cplBody [(16, 2, t.fld TB_ADJ_STATUS 16 16)]
    let refused := raise (accepted s q 0x0F02) evTimeStepRefused 0 5 q.part.val []
    (s.ctl.mode = .prime → s.bit TB_STATUS 0 = true → s.fld LDG_STATUS 16 13 = 0 →
      let t := adjRecord (stepTime s (q.sN 16 8) (q.u16 24)) 1 0
      exec (.timeStep q) s = .next (done t q 0x0F02 stComplete (body t)))
    ∧ ((s.ctl.mode ≠ .prime ∨ s.bit TB_STATUS 0 = false) →
      exec (.timeStep q) s = .next (finish (adjRecord refused 1 2) s.nextJob stStepDenied (body (adjRecord refused 1 2))))
    ∧ (s.ctl.mode = .prime → s.bit TB_STATUS 0 = true → s.fld LDG_STATUS 16 13 ≠ 0 →
      exec (.timeStep q) s = .next (finish (adjRecord refused 1 3) s.nextJob stLedgerBusy (body (adjRecord refused 1 3)))))
  ∧ (∀ (q : Req) (s : State), s.ctl.core = true → s.fld TB_SERVO 0 5 = q.part.val →
    (q.reservedSet maskTimeAdj = true → let t := adjRecord s 0 4
      exec (.timeAdj q) s = .next (done t (rerouted t q) 0x0F01 stReserved))
    ∧ (q.reservedSet maskTimeStep = true → let t := adjRecord s 1 4
      exec (.timeStep q) s = .next (done t (rerouted t q) 0x0F02 stReserved)))
  ∧ (∀ (q : Req) (s : State), Admitted s q (bodyMask [(16, 0, 24), (19, 0, 1), (20, 0, 352)]) → 34 ≤ q.u16 16 → q.u16 16 ≤ 44 → q.u8 18 ≤ 7 →
    s.fld TB_SERVO 0 5 = q.part.val → portUp s (q.u8 18) = true →
    let msg := leBytes (q.u16 16) (q.uN 20 (q.u16 16))
    let leaves := s.now16 + s.fld (TB_PORT_TXLAT (q.u8 18)) 0 24 * 256
    exec (.timePtpTx q) s = .next (done (sendFrame s (q.u8 18) (ptpFrame s (q.u8 18) (q.bit 19 0) msg)) q 0x0F04 stComplete
      (cplBody ((if (msg.getD 0 0).toNat % 16 < 4 then [(16, 8, leaves / 2 ^ 16), (24, 2, leaves)] else []) ++ [(26, 1, q.u8 18)])))))

/-- The timing groups (R80, R82–R86): enabling a group makes it run with the source written and places its next boundary its nominal
frame period later; disabling it stops it and its PLL; a write that changes neither only stores the word. A re-phase waits for the
boundary. A genlock edge reaches the groups that follow its pin and no other. At a boundary, which only a group with timing makes, the
swap, the heads, the touch ports, the steering and the seal groups follow in this order (the order of the parts is the model's,
log 47). -/
def Obligations.TimingGroups : Prop :=
  (∀ (a : Access) (g : Fin 8) (v : Word) (s : State), Reaches s a .w (TG_CTRL g.val) →
    (bitOf v.toNat 0 = true → (s.tg g.val).running = false →
      ∃ t, exec (.tgCtrlWrite a g v) s = .next t ∧ (t.tg g.val).running = true ∧ (t.tg g.val).boundary = s.now ∧ (t.tg g.val).first = true
        ∧ (t.tg g.val).source = bitsOf v.toNat 1 2 ∧ (t.tg g.val).dueAt = s.island + tgNominal (s.tg g.val) ∧ nextBoundary t g.val = s.now + tgNominal (s.tg g.val)
        ∧ (∀ k, k ≠ g.val → t.tg k = s.tg k)
        ∧ t.reg (TG_STATUS g.val) = (if bitsOf v.toNat 1 2 = 0 then 1 else 2)
        ∧ t.mem = s.mem ∧ t.cpls = s.cpls ∧ t.jobs = s.jobs)
    ∧ (bitOf v.toNat 0 = false → (s.tg g.val).running = true → exec (.tgCtrlWrite a g v) s =
        .next (evcPulse (pllStop (((plainWrite s (TG_CTRL g.val) v).setTg g.val { s.tg g.val with running := false }).setReg
          (TG_STATUS g.val) 0) (8 + g.val)) (17 + g.val)))
    ∧ (bitOf v.toNat 0 = (s.tg g.val).running → exec (.tgCtrlWrite a g v) s = .next (plainWrite s (TG_CTRL g.val) v)))
  ∧ (∀ (a : Access) (g : Fin 8) (v : Word) (s : State), Reaches s a .w (TG_CMD g.val) →
    (bitOf v.toNat 0 = true →
      exec (.tgRephase a g v) s = .next ((s.setTg g.val { s.tg g.val with rephase := (s.tg g.val).rephase + 1 }).resultOpen (TG_REPHASE_STATUS g.val)))
    ∧ (bitOf v.toNat 0 = false → exec (.tgRephase a g v) s = .next s))
  ∧ (∀ (pin : Fin 2) (s : State), (s.ctl.core = false → exec (.genlockEdge pin) s = .next s)
    ∧ (s.ctl.core = true → ∃ t, exec (.genlockEdge pin) s = .next t ∧ t.mem = s.mem ∧ t.cpls = s.cpls ∧ t.jobs = s.jobs
      ∧ (∀ g, g < 8 → tgSource s g = pin.val + 1 → t.tg g = tgEdge (s.tg g) s.now)
      ∧ (∀ g, tgSource s g ≠ pin.val + 1 → t.tg g = s.tg g)
      ∧ (∀ g, g < 8 → tgSource s g = pin.val + 1 → (tgEdge (s.tg g) s.now).refAt = some s.now →
        t.pair (TG_REF_LO g) (TG_REF_HI g) = s.now % 2 ^ 64)))
  ∧ (∀ (g : Fin 8) (s : State), ((s.ctl.core = false ∨ tgMakes s g.val = false ∨ s.island < (s.tg g.val).dueAt) → exec (.tgFrameBoundary g) s = .next s)
    ∧ (s.ctl.core = true → tgMakes s g.val = true → (s.tg g.val).dueAt ≤ s.island →
      ((swapBoundary s g.val).ctl.core = true → exec (.tgFrameBoundary g) s = .next (boundaryOf (swapBoundary s g.val) g.val))
      ∧ ((swapBoundary s g.val).ctl.core = false → exec (.tgFrameBoundary g) s = .next (swapBoundary s g.val))
      ∧ (s.rdn.swap.job = none → s.rdn.swap.asPart = false → s.ctl.mode ≠ .handover → exec (.tgFrameBoundary g) s = .next (boundaryOf s g.val))))

/-! ### The ledger and the verdicts (R25–R60) -/

/-- The engine applies the oldest record as `ledger_apply` does; one of no registered tile is dropped and counted (R35). An entry that
reads with a corrected error is counted, one that reads badly counts as never filled, is counted, captured and FATAL (R47). -/
def Obligations.LedgerRecord : Prop :=
  (∀ (ecc : Ecc) (s : State), s.records = [] → exec (.tileRecordApply ecc) s = .next s)
  ∧ (∀ (r : TileRec) (rest : List TileRec) (s : State), s.records = r :: rest →
    let f := s.surf r.surface.toNat
    let s' := { s with records := rest }
    ((f.reg = false ∨ f.tiles ≤ r.tile.toNat) → ∀ ecc, ∃ t, exec (.tileRecordApply ecc) s = .next t
      ∧ t.reg LDG_DROP = BitVec.ofNat 32 (Nat.min 0xFFFFFFFF ((s.reg LDG_DROP).toNat + 1)) ∧ SameRegsBut [LDG_DROP] s t
      ∧ { t with regs := s.regs } = s')
    ∧ (f.reg = true → r.tile.toNat < f.tiles →
      let e := s.led (f.lbase + r.tile.toNat)
      let ct := if r.basis = 0 then s.tick else r.content
      let changed := e.never || e.crc != r.crc
      let run := if changed then 0 else if e.run < 65535 then e.run + 1 else e.run
      let e' : LEntry := { e with
        content := ct, crc := r.crc, seq := r.seq, basis := r.basis, taint := r.taint, never := false, expLong := false
        change := if changed then ct else e.change, watchExp := if changed then false else e.watchExp, run := run, updates := e.updates + 1 }
      let g : Surface := if r.seq = f.curSeq then f else { f with
        frozenA := decide (f.frzFrames ≠ 0) && decide (f.frzPct * f.tiles ≤ f.frozen * 100), curSeq := r.seq }
      let g : Surface := { g with frozen := if f.frzFrames ≠ 0 ∧ e.run < f.frzFrames ∧ f.frzFrames ≤ run then f.frozen + 1
        else if f.frzFrames ≠ 0 ∧ f.frzFrames ≤ e.run ∧ run < f.frzFrames then f.frozen - 1 else f.frozen }
      let t := (s'.setLed (f.lbase + r.tile.toNat) e').setSurf r.surface.toNat g
      exec (.tileRecordApply .ok) s = .next t
      ∧ exec (.tileRecordApply .corrected) s = .next (t.add LDG_ECC 0 16 1)
      ∧ (let b := entryAfter (entryRead s e .bad) r ct
         b.change = ct ∧ b.run = 0 ∧ exec (.tileRecordApply .bad) s = .next (ledgerBad
          ((s'.setLed (f.lbase + r.tile.toNat) b).setSurf r.surface.toNat (surfAfter f r e.run 0)).draw (f.lbase + r.tile.toNat)))))

/-- A tile is LIVE only when it is filled, read well, not tainted, not frozen, of a basis, neither in the future nor older than the
profile's live limit (R29, R42); and it is NEVER exactly when no record has arrived. -/
def Obligations.LiveMeansFresh : Prop :=
  ∀ (e : LEntry) (bad frozen : Bool) (liveMax agedMax : Nat) (now : BitVec 32) (margin : Nat),
    (tileVerdict e bad frozen liveMax agedMax now margin = .live ↔
      e.never = false ∧ bad = false ∧ e.expLong = false ∧ e.basis ≠ 0 ∧ e.taint = false ∧ frozen = false ∧ -1000 ≤ rawAge now e.content
        ∧ ageOf now margin e ≤ agedMax ∧ ageOf now margin e ≤ liveMax)
    ∧ (tileVerdict e bad frozen liveMax agedMax now margin = .never ↔ e.never = true)
    ∧ (∀ m, margin ≤ m → tileVerdict e bad frozen liveMax agedMax now m = .live → tileVerdict e bad frozen liveMax agedMax now margin = .live)

/-- A sweeper's pass visits the entries in ascending order, the i-th no earlier than i/262144 of the pass and no allocated one passed
over; a pass ends when its time is over and its entries are visited, and is counted (R41, Table 2.15). A visit marks a filled entry of a
run whose content, or a watch tile's last change, lies more than 30 minutes away, and leaves every other as it is (R41); a corrected or
bad read is counted (R47). A visit whose turn has not come changes nothing (the event's time is the model's reading, log 119). -/
def Obligations.Sweeper : Prop :=
  (∀ (s : State) (i : Nat), (sweepTurn s i = true ↔ s.sweepNext ≤ i ∧ s.sweepAt + i * (s.sweepMs * 1000000) / 262144 ≤ s.island
      ∧ ∀ r ∈ runs s, ∀ k, s.sweepNext ≤ k → k < i → ¬ (r.2.1 ≤ k ∧ k < r.2.1 + r.2.2))
    ∧ ((s.island < s.sweepAt + s.sweepMs * 1000000 ∨ ∃ r ∈ runs s, ∃ k, s.sweepNext ≤ k ∧ k < 262144 ∧ r.2.1 ≤ k ∧ k < r.2.1 + r.2.2) →
      sweepPass s = s)
    ∧ (s.sweepAt + s.sweepMs * 1000000 ≤ s.island → (∀ r ∈ runs s, ∀ k, s.sweepNext ≤ k → k < 262144 → ¬ (r.2.1 ≤ k ∧ k < r.2.1 + r.2.2)) →
      let t := sweepPass s
      t.sweepNext = 0 ∧ t.sweepAt = s.sweepAt + s.sweepMs * 1000000 ∧ t.sweepMs = s.fld LDG_SWEEP 0 16
        ∧ t.fld LDG_SWEEP_STAT 0 16 = s.sweepMs % 2 ^ 16 ∧ t.fld LDG_SWEEP_STAT 16 16 = (s.fld LDG_SWEEP_STAT 16 16 + 1) % 2 ^ 16
        ∧ SameRegsBut [LDG_SWEEP_STAT] s t ∧ t.ledger = s.ledger ∧ t.mem = s.mem))
  ∧ (∀ (i : Fin 262144) (ecc : Ecc) (s : State), (s.ctl.core = false ∨ s.bit LDG_STATUS 0 = false ∨ sweepTurn (sweepPass s) i.val = false) →
    exec (.sweeperVisit i ecc) s = .next s)
  ∧ (∀ (i : Fin 262144) (s : State), s.ctl.core = true → s.bit LDG_STATUS 0 = true → sweepTurn (sweepPass s) i.val = true →
    let u := { sweepPass s with sweepNext := i.val + 1 }
    let e := s.led i.val
    let old := beyond30 s.tick e.content && !e.expLong
    let wold := e.watch && beyond30 s.tick e.change && !e.watchExp
    ((∀ r ∈ runs s, ¬ (r.2.1 ≤ i.val ∧ i.val < r.2.1 + r.2.2)) → ∀ ecc, exec (.sweeperVisit i ecc) s = .next u)
    ∧ ((∃ r ∈ runs s, r.2.1 ≤ i.val ∧ i.val < r.2.1 + r.2.2) →
      ((e.never = true ∨ (old || wold) = false) → exec (.sweeperVisit i .ok) s = .next u
        ∧ exec (.sweeperVisit i .corrected) s = .next (u.add LDG_ECC 0 16 1))
      ∧ (e.never = false → (old || wold) = true →
        let e' := { e with expLong := e.expLong || old, watchExp := e.watchExp || wold }
        exec (.sweeperVisit i .ok) s = .next ((u.setLed i.val e').inc LDG_EXPIRED)
        ∧ exec (.sweeperVisit i .corrected) s = .next (((u.add LDG_ECC 0 16 1).setLed i.val e').inc LDG_EXPIRED))
      ∧ exec (.sweeperVisit i .bad) s = .next (ledgerBad u i.val)))

/-- A commit of a profile is noted with the staging values of that instant, refused as a violation for a partition without it,
and decided afterwards, the oldest first (R54–R56): a valid one becomes active, enabled heads applying the earlier values until their
boundary, an invalid one changes no active register.
VRD evaluates a band once a frame, in the window before its first line (R43–R46): its evaluations are those of the layers in view; one
that is not complete at that line finds every live-class tile STALE and is counted; one still not complete 2 ms later makes the watchdog
capture its head and is FATAL. Events outside these times change nothing (log 119). -/
def Obligations.ProfilesAndVerdicts : Prop :=
  ((∀ (a : Access) (v : Word) (s : State), Reaches s a .w VRD_COMMIT →
    (profAllowed a (bitsOf v.toNat 0 6) = false → exec (.vrdCommit a v) s = .next ((violation s 13 a .w VRD_COMMIT 0).fails a .w))
    ∧ (profAllowed a (bitsOf v.toNat 0 6) = true → bitOf v.toNat 31 = false → exec (.vrdCommit a v) s = .next s)
    ∧ (profAllowed a (bitsOf v.toNat 0 6) = true → bitOf v.toNat 31 = true →
      exec (.vrdCommit a v) s = .next ({ s with
        commits := s.commits ++ [bitsOf v.toNat 0 6 + if bitsOf v.toNat 6 25 = 0 then 0 else 64]
        snaps := s.snaps ++ [stagedProf s (bitsOf v.toNat 0 6)] }.resultOpen VRD_COMMIT_STATUS)))
  ∧ (∀ (s : State) (c : Nat) (cs : List Nat) (ws : List Word) (wss : List (List Word)), s.commits = c :: cs → s.snaps = ws :: wss →
    let prof := c % 64
    let res := commitResult ws (c / 64 == 1)
    (res = 0 →
      ∃ t, exec .commitDecided s = .next t ∧ t.commits = cs ∧ t.snaps = wss ∧ (∀ i, i < 5 → t.reg (VRD_ACT_LIVE prof + 4 * i) = ws.getD i 0)
        ∧ SameRegsBut (VRD_COMMIT_STATUS :: (List.range 5).map fun i => VRD_ACT_LIVE prof + 4 * i) s t
        ∧ (∀ n i, n < 16 → i < 5 → (s.head n).enabled = true → tget (fun _ => []) (s.head n).oldProf prof = [] →
          profWord t n prof i = s.reg (VRD_ACT_LIVE prof + 4 * i))
        ∧ t.bit VRD_COMMIT_STATUS 0 = cs.isEmpty ∧ t.fld VRD_COMMIT_STATUS 1 3 = 0)
    ∧ (res ≠ 0 →
      (let u := (raise { s with commits := cs, snaps := wss } evTtRefused 0 13 (prof / 4) []).resultDone VRD_COMMIT_STATUS (res + prof * 8)
       exec .commitDecided s = .next (if cs.isEmpty then u else u.resultOpen VRD_COMMIT_STATUS))
      ∧ ∃ t, exec .commitDecided s = .next t ∧ t.commits = cs ∧ t.snaps = wss
        ∧ (∀ p i, p < 64 → i < 5 → t.reg (VRD_ACT_LIVE p + 4 * i) = s.reg (VRD_ACT_LIVE p + 4 * i))
        ∧ t.bit VRD_COMMIT_STATUS 0 = cs.isEmpty ∧ t.fld VRD_COMMIT_STATUS 1 3 = res % 8)))
  ∧ ((∀ (n : Fin 16) (b : Fin 68) (bad : List Nat) (fixed : Nat) (s : State), s.ctl.core = true →
    (∀ x, (s.head n.val).owed.find? (fun x => x.band == b.val) = some x →
      ∃ u, exec (.bandEvaluation n b bad fixed) s = .next (((entriesOf s x.reads).filter bad.contains).foldl ledgerBad u)
        ∧ (∀ k, u.head k = if k = n.val then { s.head n.val with owed := (s.head n.val).owed.erase x } else s.head k)
        ∧ u.reg VRD_MARGIN = BitVec.ofNat 32 s.margin ∧ u.reg (VRD_HEAD_BAND n.val) = BitVec.ofNat 32 (b.val + x.frame.toNat % 2 ^ 24 * 2 ^ 8)
        ∧ (u.reg VRD_FUTURE).toNat = Nat.min (2 ^ 32 - 1) ((s.reg VRD_FUTURE).toNat
          + ((entriesOf s x.tiles).filter fun i => !(s.led i).never && decide (rawAge (tickOf x.due) (s.led i).content < -1000)).length)
        ∧ SameRegsBut [VRD_MARGIN, VRD_HEAD_BAND n.val, VRD_FUTURE, LDG_ECC] s u ∧ u.mem = s.mem ∧ u.ledger = s.ledger)
    ∧ ((s.head n.val).owed.find? (fun x => x.band == b.val) = none → (bandWaits s n.val b.val = false ∨ bandOpen s n.val b.val < 0) →
      exec (.bandEvaluation n b bad fixed) s = .next s)
    ∧ ((s.head n.val).owed.find? (fun x => x.band == b.val) = none → bandWaits s n.val b.val = true → 0 ≤ bandOpen s n.val b.val →
      let h := s.head n.val
      let es := evalBand s n.val b.val bad (tickOf (lineStart s n.val (64 * b.val))) s.margin
      let reads := (liveIn s n.val b.val).flatMap fun x => readsOf s h x b.val
      let others := h.evals.filter fun x => x.band != b.val
      ∃ u, exec (.bandEvaluation n b bad fixed) s = .next ((reads.filter bad.contains).foldl ledgerBad u)
        ∧ (bandPast s n.val b.val < 0 → (u.head n.val).evals = others ++ [⟨b.val, h.frame, es, true⟩] ∧ u.reg VRD_LATE = s.reg VRD_LATE)
        ∧ (0 ≤ bandPast s n.val b.val → bandLate s n.val b.val = false →
          (u.head n.val).evals = others ++ [⟨b.val, h.frame, staleBand s n.val b.val, true⟩] ∧ u.reg VRD_LATE = (s.inc VRD_LATE).reg VRD_LATE)
        ∧ (0 ≤ bandPast s n.val b.val → bandLate s n.val b.val = true →
          (u.head n.val).evals = h.evals.map (fun x => if x.band = b.val then { x with done := true } else x) ∧ u.reg VRD_LATE = s.reg VRD_LATE)
        ∧ u.reg VRD_MARGIN = BitVec.ofNat 32 s.margin ∧ u.reg (VRD_HEAD_BAND n.val) = BitVec.ofNat 32 (b.val + h.frame.toNat % 2 ^ 24 * 2 ^ 8)
        ∧ (u.reg VRD_FUTURE).toNat = Nat.min (2 ^ 32 - 1) ((s.reg VRD_FUTURE).toNat
          + (es.filter fun e => e.verdict != .never && decide (e.raw < -1000)).length)
        ∧ SameRegsBut [VRD_MARGIN, VRD_HEAD_BAND n.val, VRD_FUTURE, VRD_LATE, LDG_ECC] s u ∧ u.mem = s.mem ∧ u.ledger = s.ledger))
  ∧ (∀ (n : Fin 16) (b : Fin 68) (s : State), s.ctl.core = true →
    (bandWaits s n.val b.val = true → bandLate s n.val b.val = false → 0 ≤ bandPast s n.val b.val →
      exec (.bandLate n b) s = .next ((putEvals s n.val b.val (staleBand s n.val b.val) false).inc VRD_LATE))
    ∧ ((bandWaits s n.val b.val = false ∨ bandLate s n.val b.val = true ∨ bandPast s n.val b.val < 0) → exec (.bandLate n b) s = .next s)
    ∧ ∀ e ∈ staleBand s n.val b.val, e.verdict = .stale ∧ e.age = none)
  ∧ (∀ (n : Fin 16) (s : State), s.ctl.core = true →
    (bandStuck s n.val = true → let t := if s.bit VRD_WDOG 31 then s else s.setReg VRD_WDOG (BitVec.ofNat 32 (n.val + 2 ^ 31))
      exec (.vrdWatchdog n) s = .next (raise t evVrdWatchdog 3 13 31 []))
    ∧ (bandStuck s n.val = false → exec (.vrdWatchdog n) s = .next s)))

/-! ### Power, clocks, modes and start-up (R425–R457) -/

/-- Mode requests (R443, R444, Table 16.6), by AO_MODE_REQ or by the management port's command 0x20: one while another waits is
BUSY, one the table does not name is ILLEGAL; a legal one between the modes with the core powered acts at once, but out of PRIME only
when its sequence has completed, and BOOT_FAILED after a failed boot; one from KEEP to PRIME begins the PRIME sequence, which decides
it. A wrong PEC is counted and answered with NACK where one is required (R431). -/
def Obligations.ModeRequests : Prop :=
  (∀ (a : Access) (v : Word) (s : State), Reaches s a .w AO_MODE_REQ →
    (bitOf v.toNat 31 = true → exec (.modeRequest a v) s = .next (requestMode (bitsOf v.toNat 0 3) s))
    ∧ (bitOf v.toNat 31 = false → exec (.modeRequest a v) s = .next s))
  ∧ (∀ (code : BitVec 8) (pec : Bool) (s : State),
    (mgtOn s = false → exec (.mgtModeRequest code pec) s = .next s)
    ∧ (mgtOn s = true → s.bit MGT_CFG 0 = true → pec = false →
      exec (.mgtModeRequest code pec) s = .next ((s.add MGT_ERR 16 16 1).emit .mgtNack))
    ∧ (mgtOn s = true → (s.bit MGT_CFG 0 = false ∨ pec = true) → Reaches s mgtAccess .w AO_MODE_REQ →
      exec (.mgtModeRequest code pec) s = .next (requestMode (code.toNat % 8) s)))
  ∧ (∀ (s : State) (code : Nat), code < 8 →
    let o := s.resultOpen AO_MODE_STATUS
    (s.ctl.target.isSome = true → requestMode code s = modeDecided o 2 code)
    ∧ (s.ctl.target = none → requestable s.ctl.mode (modeOf code) = false → requestMode code s = modeDecided o 1 code)
    ∧ (s.ctl.target = none → requestable s.ctl.mode (modeOf code) = true →
      (modeOf code = .keep → requestMode code s = modeDecided (enterKeep o 0) 0 code)
      ∧ (s.ctl.mode = .keep → requestMode code s = beginPrime o 0 0 true)
      ∧ (s.ctl.mode ≠ .keep → s.ctl.mode ≠ .prime → modeOf code ≠ .keep → requestMode code s = modeDecided (setMode o (modeOf code) 0) 0 code)
      ∧ (s.ctl.mode = .prime → modeOf code ≠ .keep →
        (s.ctl.bootBad = true → requestMode code s = modeDecided o 3 code)
        ∧ (s.ctl.bootBad = false → s.ctl.primeOk = false → requestMode code s = modeDecided o 1 code)
        ∧ (s.ctl.bootBad = false → s.ctl.primeOk = true → requestMode code s = modeDecided (setMode o (modeOf code) 0) 0 code))))

/-- The pins and the power domains (R14, R427, R430, R449, R451): PORST_N low ends everything; its rise enters KEEP and asks for
PRIME; the core domain is powered once CORE_PG is high in PRIME; losing CORE_PG while CORE_EN is high is OFF; a WAKE_N edge of 1 µs is
noted and wakes a part in KEEP that enables it, a shorter one does nothing; TRST_N resets the TAP controller.
The always-on domain's registers (R428, R429): AO_HOLD_SUB sets the holdover clock from its three registers, AO_TRAIN.invalidate
forgets the trained channels. -/
def Obligations.PowerAndAlwaysOn : Prop :=
  ((∀ s : State, ∃ t, exec .porstNLow s = .next t ∧ t.ctl.mode = .off ∧ t.ctl.core = false ∧ t.ctl.ring = false ∧ t.ctl.coreEn = false
    ∧ t.regs = [] ∧ t.mem = [] ∧ t.jobs = [] ∧ t.ledger = [] ∧ t.pending = s.pending)
  ∧ (∀ (x : BitVec 4) (s : State), (s.ctl.porst = true → exec (.porstNRise x) s = .next s)
    ∧ (s.ctl.porst = false → ∃ t, exec (.porstNRise x) s = .next t ∧ t.straps = x ∧ t.ctl.mode = .prime
      ∧ t.ctl.porst = true ∧ t.ctl.coreEn = true ∧ t.ctl.core = s.ctl.corePg))
  ∧ (∀ s : State, ((s.ctl.mode = .off ∨ s.ctl.coreEn = false ∨ s.ctl.corePg = true) → exec .corePgRise s = .next s)
    ∧ ((s.ctl.mode = .prime ∨ s.ctl.mode = .keep ∧ s.ctl.target = some (2, false)) → s.ctl.coreEn = true → s.ctl.corePg = false → s.ctl.core = false →
      ∃ t, exec .corePgRise s = .next t ∧ t.ctl.core = true ∧ t.ctl.ring = true ∧ t.ctl.mode = .prime ∧ t.fuses.cycleNow = s.fuses.cycle
        ∧ t.bit TB_STATUS 0 = true ∧ (s.hold.isSet = true → t.tbase.val = holdVal s.hold)))
  ∧ (∀ s : State, (s.ctl.corePg = false → exec .corePgFall s = .next s)
    ∧ (s.ctl.corePg = true → (s.ctl.mode = .off ∨ s.ctl.coreEn = false) →
      exec .corePgFall s = .next { s with ctl := { s.ctl with corePg := false } })
    ∧ (s.ctl.corePg = true → s.ctl.mode ≠ .off → s.ctl.coreEn = true →
      ∃ t, exec .corePgFall s = .next t ∧ t.ctl.mode = .off ∧ t.ctl.core = false ∧ t.ctl.ring = false ∧ t.ctl.corePg = false))
  ∧ (∀ (ns : Nat) (s : State),
    ((ns < 1000 ∨ s.ctl.mode = .off) → exec (.wakeNEdge ns) s = .next s)
    ∧ (1000 ≤ ns → s.ctl.mode ≠ .off → (s.bit AO_WAKE 0 = false ∨ s.ctl.mode ≠ .keep ∨ s.ctl.target ≠ none) →
      exec (.wakeNEdge ns) s = .next (s.setBit AO_WAKE 1 true))
    ∧ (1000 ≤ ns → s.bit AO_WAKE 0 = true → s.ctl.mode = .keep → s.ctl.target = none →
      exec (.wakeNEdge ns) s = .next (beginPrime (s.setBit AO_WAKE 1 true) 4 0 false)))
  ∧ (∀ s : State, exec .trstNLow s = .next (s.emit .tapReset)))
  ∧ ((∀ (a : Access) (v : Word) (s : State), Reaches s a .w AO_HOLD_SUB →
    let lo := s.hold.newLo.getD (BitVec.ofNat 32 s.hold.sec.toNat)
    let hi := s.hold.newHi.getD (BitVec.ofNat 16 (s.hold.sec.toNat / 2 ^ 32))
    exec (.aoHoldSet a v) s = .next { s with
      hold := { sec := BitVec.ofNat 48 (lo.toNat + hi.toNat * 2 ^ 32), ticks := BitVec.ofNat 15 v.toNat, isSet := true } })
  ∧ (∀ (a : Access) (v : Word) (s : State), Reaches s a .w AO_TRAIN →
    (bitOf v.toNat 31 = false → exec (.aoTrainInvalidate a v) s = .next s)
    ∧ (bitOf v.toNat 31 = true →
      ∃ t, exec (.aoTrainInvalidate a v) s = .next t ∧ t.fld AO_TRAIN 0 6 = 0 ∧ SameRegsBut [AO_TRAIN] s t
        ∧ { t with regs := s.regs } = { s with ctl := { s.ctl with cache := [] } })))

/-- The PRIME sequence (R443, R445, R447, R449, R450): its end runs steps 3 to 8, restores a checkpoint where its trigger asks for
one and the boot did not fail, and then takes up a yield-worthy event raised meanwhile, or a takeover that waited for it; with an image accepted the part is ready for a
request, without one BOOT_FAIL is recorded and the request decided all the same; with no sequence in progress nothing changes. A rail
that does not come up ends it with PRIME_TIMEOUT, which is noted to be recorded once the core is up where it is still off (log 156). -/
def Obligations.PrimeSequence : Prop :=
  (∀ (b : Boot) (s : State), ((s.ctl.core = false ∨ s.ctl.mode ≠ .prime ∨ s.ctl.target = none) → exec (.primeSequenceComplete b) s = .next s)
    ∧ (s.ctl.core = true → s.ctl.mode = .prime → s.ctl.target.isSome = true →
      let c := (List.range 6).foldl (bootChannel b) (bootZero s)
      let u := bootDone (bootSteps b s)
      exec (.primeSequenceComplete b) s =
        .next (takeDeferred (takeLatent (holdOpened (if u.rdn.trigger ≠ 0 ∧ u.ctl.bootBad = false then restoreEnd b.ckptEcc u else u))))
      ∧ u.ctl.target = none
      ∧ (bootImage b s = none → u.ctl.bootBad = true ∧ u.ctl.primeOk = false
        ∧ bootSteps b s = bootReady (raise { c with ctl := { c.ctl with bootBad := true } } evBootFail 2 1 31 []))
      ∧ ((bootImage b s).isSome = true → s.ctl.bootBad = false → u.ctl.bootBad = false ∧ u.ctl.primeOk = true)))
  ∧ (∀ (lim : BitVec 8) (s : State), (s.ctl.mode = .prime → s.ctl.target = none → exec (.primeTimeout lim) s = .next s)
    ∧ (∀ t, s.ctl.mode = .prime → s.ctl.target = some t → exec (.primeTimeout lim) s = .next (takeLatent (raise (modeCut t.2
      { s with ctl := { s.ctl with target := none, late := !s.ctl.core }, rdn := { s.rdn with trigger := 0, deferred := false } })
      evPrimeTimeout 3 1 31 []))))

/-- The management port (R431, R432): the pointer, words written and read through it, the mode byte, with a PEC after the data where one
is required, what it does not support, a wrong PEC, silence in OFF; and the mailbox words that ring the other side, the inbound ones written at P3 alone. -/
def Obligations.ManagementPort : Prop :=
  (∀ (p : BitVec 40) (pec : Bool) (ws : List (BitVec 32)) (s : State), mgtOn s = true →
    ((s.bit MGT_CFG 0 = false ∨ pec = true) →
      (∃ t, exec (.mgtSetPointer p pec) s = .next t ∧ t.pair MGT_PTR_LO MGT_PTR_HI = p.toNat / 4 * 4
        ∧ SameRegsBut [MGT_PTR_LO, MGT_PTR_HI] s t ∧ { t with regs := s.regs } = s)
      ∧ (1 ≤ ws.length → ws.length ≤ 8 → exec (.mgtWriteWords ws pec) s =
        .next (ws.foldl (fun t v => mgtAdvance (wordPut t mgtAccess (t.pair MGT_PTR_LO MGT_PTR_HI) v)) s)))
    ∧ (s.bit MGT_CFG 0 = true → pec = false →
      exec (.mgtSetPointer p pec) s = .next ((s.add MGT_ERR 16 16 1).emit .mgtNack)
      ∧ (1 ≤ ws.length → ws.length ≤ 8 → exec (.mgtWriteWords ws pec) s = .next ((s.add MGT_ERR 16 16 1).emit .mgtNack)))
    ∧ ((ws.length = 0 ∨ 8 < ws.length) → exec (.mgtWriteWords ws pec) s = .next ((s.add MGT_ERR 0 16 1).emit .mgtNack)))
  ∧ (∀ s : State, mgtOn s = true → exec .mgtReadWord s = .next (mgtAdvance (wordGet s mgtAccess (s.pair MGT_PTR_LO MGT_PTR_HI)))
    ∧ exec .mgtReadMode s = .next (s.emit (.mgtData (mgtReply s 0x21 [] [BitVec.ofNat 8 (s.ctl.mode.code + s.ctl.prev.code * 8)])))
    ∧ (∀ (cmd : Byte) (count bs : Bytes), (s.bit MGT_CFG 0 = false → mgtReply s cmd count bs = bs)
      ∧ (s.bit MGT_CFG 0 = true → ∃ pec, mgtReply s cmd count bs = bs ++ [pec]))
    ∧ exec .mgtUnsupportedTransaction s = .next ((s.add MGT_ERR 0 16 1).emit .mgtNack))
  ∧ (∀ (p : BitVec 40) (pec : Bool) (ws : List (BitVec 32)) (s : State), mgtOn s = false →
    exec (.mgtSetPointer p pec) s = .next s ∧ exec (.mgtWriteWords ws pec) s = .next s ∧ exec .mgtReadWord s = .next s
    ∧ exec .mgtReadMode s = .next s ∧ exec .mgtUnsupportedTransaction s = .next s)
  ∧ (∀ (a : Access) (v : Word) (s : State), Reaches s a .w (MGT_MBOX_IN 7) →
    (a.level = .p3 → exec (.mboxIn7Write a v) s = .next (evcPulse ((s.setReg (MGT_MBOX_IN 7) v).wrapInc MGT_MBOX_SEQ 0 16) 54))
    ∧ (a.level ≠ .p3 → exec (.mboxIn7Write a v) s = .next s))
  ∧ (∀ (a : Access) (v : Word) (s : State), Reaches s a .w (MGT_MBOX_OUT 7) →
    exec (.mboxOut7Write a v) s = .next ((s.setReg (MGT_MBOX_OUT 7) v).wrapInc MGT_MBOX_SEQ 16 16))

/-- Unlock tokens and fuse commands (R448, R457): a token that verifies under a good key unlocks the next core power-up, any other
is recorded; a fuse command takes a fresh nonce, is performed only when it passes every rule, in PRIME, and its result follows the
read-back; a write without the submit bit does nothing. Whether a signature verifies is the environment's (log 10). -/
def Obligations.DebugAndFuses : Prop :=
  (∀ (a : Access) (v : Word) (ok : Bool) (s : State), Reaches s a .w DBG_CTRL →
    (bitOf v.toNat 0 = false → exec (.dbgTokenSubmit a v ok) s = .next s)
    ∧ (bitOf v.toNat 0 = true → ok = true → goodKeys s ≠ 0 →
      exec (.dbgTokenSubmit a v ok) s = .next ({ s with fuses := { s.fuses with unlocked := true } }.setFld DBG_STATUS 4 2 1))
    ∧ (bitOf v.toNat 0 = true → (ok = false ∨ goodKeys s = 0) →
      exec (.dbgTokenSubmit a v ok) s = .next (raise (s.setFld DBG_STATUS 4 2 2) evDebugUnlockFail 1 69 31 [])))
  ∧ (∀ (a : Access) (v : Word) (ok : Bool) (s : State), Reaches s a .w DBG_FUSE_CTRL →
    (bitOf v.toNat 0 = false → exec (.dbgFuseSubmit a v ok) s = .next s)
    ∧ (bitOf v.toNat 0 = true → ∃ t, exec (.dbgFuseSubmit a v ok) s = .next t ∧ t.fuses = s.fuses ∧ t.nonce = Config.freshNonce s.free
      ∧ (fuseResult s ok ≠ 0 → t.fuseOps = s.fuseOps ∧ t.bit DBG_FUSE_STATUS 0 = true ∧ t.fld DBG_FUSE_STATUS 1 3 = fuseResult s ok)
      ∧ (fuseResult s ok = 0 → t.fuseOps.length = s.fuseOps.length + 1 ∧ t.bit DBG_FUSE_STATUS 0 = false))
    ∧ (s.ctl.mode ≠ .prime → fuseResult s ok = 5) ∧ (ok = false → fuseResult s ok ≠ 0))
  ∧ (∀ (r : BitVec 64) (s : State), ((s.fuseOps = [] ∨ s.ctl.core = false) → exec (.fuseProgramDone r) s = .next s)
    ∧ (∀ op slot sv hash rest, s.ctl.core = true → s.fuseOps = (op, slot, sv, hash) :: rest →
      let got := fuseRead (fuseWanted s.fuses op slot sv hash) r
      exec (.fuseProgramDone r) s = .next ({ s with fuses := got, fuseOps := rest }.resultDone DBG_FUSE_STATUS
        ((if got = fuseWanted s.fuses op slot sv hash then 0 else 6) + op * 8))))

/-- The power arbiter (R435, R437–R440): a tick takes the reservations that wait for one, oldest first, and then grants in order what fits
the budget and what is left of its 60 tokens, a request for more than 60 over several ticks (log 155); a request that waits beyond its
limit is counted and recorded once, and signalled unless that record is suppressed; an ended item's tokens are freed when its clock has
stopped, not before; a PLL set to AUTO stops when its idle time is over, not before. With the core off or the clocks stopped a tick does
nothing. -/
def Obligations.PowerArbiter : Prop :=
  (∀ s : State, ((s.ctl.core = false ∨ s.pwr.halted = true) → exec .arbiterTick s = .next s)
    ∧ (s.ctl.core = true → s.pwr.halted = false →
      let o := takeOwed (60 - s.pwr.spent) s.pwr.owed
      let left := if o.2 = [] then o.1 else 0
      let r := pwrWalk (pwrB s) (pwrR s + pwrG s) left s.pwr.items
      exec .arbiterTick s = .next (r.2.foldl onGrant { s with pwr := { s.pwr with items := r.1, owed := o.2, spent := 0 } })))
  ∧ (∀ (left : Nat) (xs : List (Nat × Nat)), let o := takeOwed left xs
    ∃ took, xs = took ++ o.2 ∧ (took.map (·.2)).sum + o.1 = left ∧ ∀ x ∈ o.2.head?, o.1 < x.2)
  ∧ (∀ (cls : Fin 6) (s : State),
    let late := fun (i : PwrItem) => i.cls == cls.val && !i.granted && !i.deferred
      && decide (i.at_ + 1000 * s.fld PWR_DEFER_THR 0 16 < s.island)
    (s.pwr.items.find? late = none → exec (.powerDeferred cls) s = .next s)
    ∧ (∀ i, s.pwr.items.find? late = some i →
      let u := ({ s with pwr := { s.pwr with items := s.pwr.items.map fun x => if x = i then { x with deferred := true } else x } } : State).inc
        (PWR_DEFER cls.val)
      let t := raiseKey u cls.val evPowerDeferred 0 4 31 [(cls.val, 8), (pwrB u, 11), (pwrR u, 11), (pwrG u, 11)]
      exec (.powerDeferred cls) s = .next (if quietNow s evPowerDeferred cls.val then t else evcPulse t 52)))
  ∧ (∀ (id : Nat) (s : State), let gone := fun (i : PwrItem) => i.id == id && i.ended && decide (i.due ≤ s.island)
    (s.pwr.items.find? gone = none → exec (.tokenRelease id) s = .next s)
    ∧ (∀ i, s.pwr.items.find? gone = some i → ∃ t, exec (.tokenRelease id) s = .next t ∧ t.pwr.items = s.pwr.items.erase i
      ∧ t.pwr.used = tset (fun _ => 0) s.pwr.used (classPll i.cls) s.island ∧ { t with pwr := s.pwr } = s))
  ∧ (∀ (p : Fin 16) (s : State),
    let idle := (p.val = 1 ∨ p.val = 2 ∨ p.val = 3) ∧ s.ctl.core = true ∧ s.bit (CLK_PLL_CTRL p.val) 0 = false ∧ pllBusy s p.val = false
      ∧ tget (fun _ => 0) s.pwr.used p.val + 1000000 * s.fld (CLK_PLL_CTRL p.val) 8 8 ≤ s.island
    (idle → exec (.pllIdleStop p) s = .next (pllStop s p.val)) ∧ (¬ idle → exec (.pllIdleStop p) s = .next s))

/-- The arbiter never grants beyond the budget (R436, R437): the tokens in use after a tick are at most the budget if they were
before, and a tick grants at most 60 tokens. -/
def Obligations.ArbiterBudget : Prop :=
  ∀ (s t : State), exec .arbiterTick s = .next t → pwrR s + pwrG s ≤ pwrB s →
    pwrR t + pwrG t ≤ pwrB s ∧ pwrG t ≤ pwrG s + 60

/-- The temperature (R441): a sample is shown, its maximum kept, 140 °C trips once, the warning level follows it and its rise is
recorded, the time at or above 135 °C is kept; 1 ms of it shuts down, the engine PLLs stopping with YIELD, less does not. With the core off only the trip works, and in OFF
nothing. -/
def Obligations.Thermal : Prop :=
  (∀ (tj : BitVec 11) (s : State), (s.ctl.mode = .off → exec (.thermalSample tj) s = .next s)
    ∧ (s.ctl.mode ≠ .off → s.ctl.core = false →
      (560 ≤ tj.toInt → s.pwr.trip = false →
        exec (.thermalSample tj) s = .next ({ s with pwr := { s.pwr with trip := true } }.emit .thermtrip))
      ∧ ((tj.toInt < 560 ∨ s.pwr.trip = true) → exec (.thermalSample tj) s = .next s))
    ∧ (s.ctl.mode ≠ .off → s.ctl.core = true →
      let warn := decide (4 * (s.fld PWR_THERM 16 8 : Int) ≤ tj.toInt)
      ∃ u, exec (.thermalSample tj) s = .next (if warn && !s.bit PWR_THERM 24 then raise u evThermalWarn 1 4 31 [] else u)
        ∧ u.fld PWR_THERM 0 11 = tj.toNat ∧ u.bit PWR_THERM 24 = warn ∧ tj.toInt ≤ signed 11 (u.fld PWR_TMAX 0 11)
        ∧ (tj.toInt ≤ signed 11 (s.fld PWR_TMAX 0 11) → u.reg PWR_TMAX = s.reg PWR_TMAX)
        ∧ u.pwr.hotNs = (if 540 ≤ tj.toInt then some (s.pwr.hotNs.getD s.island) else none)
        ∧ u.pwr.trip = (s.pwr.trip || decide (560 ≤ tj.toInt))
        ∧ u.outbox = s.outbox ++ (if 560 ≤ tj.toInt ∧ s.pwr.trip = false then [.thermtrip] else [])
        ∧ SameRegsBut (PWR_THERM :: PWR_TMAX :: EVC_MERGED :: evcRegs) s u ∧ u.mem = s.mem))
  ∧ (∀ s : State, ((s.ctl.core = false ∨ ∀ x ∈ s.pwr.hotNs, s.island < x + 1000000) → exec .thermalShutdown s = .next s)
    ∧ (∀ x, s.ctl.core = true → s.pwr.hotNs = some x → x + 1000000 ≤ s.island →
      let t := raise { s with pwr := { s.pwr with hotNs := none } } evThermalShutdown 3 4 31 []
      exec .thermalShutdown s = .next t
      ∧ (marked s evThermalShutdown = true → s.ctl.mode.yields = true → s.ctl.latent = none → s.ctl.target = none →
        t.ctl.mode = .yield ∧ t.pwr.halted = true ∧ ∀ p ∈ [1, 2, 3, 8, 9, 10, 11, 12, 13, 14, 15], t.bit (CLK_PLL_STATUS p) 0 = false)))

/-! ### Ports, rings and completions (R268–R295, R517) -/

/-- A partition's start and stop, and the manager's register (R270, R271, R275, R482, R492). A start of a BOUND partition with nothing
amiss begins every index anew, one with something amiss leaves its cause; in FREE it has no effect, and in any other state it is
recorded. A stop moves an ACTIVE or FAULTED partition to STOPPING, or to BOUND where nothing is left, and has no effect in other states.
The manager's register is written at P2, P3 or DEBUG; a FREE partition named becomes BOUND to the port, a number that names no
partition has no effect, and a port above 4 is recorded.
The PCIe links (R268, R269): a link that trains shows its speed and width, and one with a lane forced out of P0 or a code that is none
does not train; one that goes down is counted, faults its ACTIVE partitions with cause LINK_DOWN and is recorded. -/
def Obligations.HostSide : Prop :=
  ((∀ (a : Access) (p : Fin 16) (v : Word) (s : State), Reaches s a .w (PRT_SW_RUN p.val) → bitOf v.toNat 1 = false →
    ((s.part p.val).state = .bound → bitOf v.toNat 0 = true →
      (startCause s p.val = 0 → ∃ t, exec (.prtSwStart a p v) s = .next t
        ∧ t.part p.val = { s.part p.val with
            state := .active, cause := 0, starts := (s.part p.val).starts + 1, rings := [], krings := [], backlog := [], fetched := []
            mirSeq := 0, logCons := 0, logFull := false }
        ∧ t.reg (ERR_P_PROD p.val) = 0 ∧ SameRegsBut [ERR_P_PROD p.val] s t
        ∧ (∀ o, o ≠ p.val → t.part o = s.part o) ∧ { t with regs := s.regs, parts := s.parts } = s)
      ∧ (startCause s p.val ≠ 0 → exec (.prtSwStart a p v) s = .next (s.setPart p.val { s.part p.val with cause := startCause s p.val })))
    ∧ (((s.part p.val).state = .free ∨ (s.part p.val).state = .bound ∧ bitOf v.toNat 0 = false) → exec (.prtSwStart a p v) s = .next s)
    ∧ ((s.part p.val).state ≠ .free → (s.part p.val).state ≠ .bound →
      exec (.prtSwStart a p v) s = .next (accessEv s evAccessState a (PRT_SW_RUN p.val))))
  ∧ (∀ (a : Access) (p : Fin 16) (v : Word) (s : State), Reaches s a .w (PRT_SW_RUN p.val) → bitOf v.toNat 1 = true →
    let x := s.part p.val
    let busy := (s.jobs.any fun j => j.req.part.val == p.val) || (s.cpls.any fun c => c.part == p.val) || !x.backlog.isEmpty
      || (s.heldAcc.any fun h => h.after == .cpl p.val)
    ((x.state = .active ∨ x.state = .faulted) → ∃ t, exec (.prtSwStop a p v) s = .next t
      ∧ t.part p.val = { x with state := if busy then .stopping else .bound, fetched := [] }
      ∧ (∀ o, o ≠ p.val → t.part o = s.part o) ∧ { t with parts := s.parts } = s)
    ∧ (x.state ≠ .active → x.state ≠ .faulted → exec (.prtSwStop a p v) s = .next s))
  ∧ (∀ (a : Access) (v : Word) (s : State), Reaches s a .w PRT_MGR →
    let p := bitsOf v.toNat 0 5
    (Level.upper a.level = false → exec (.prtMgrWrite a v) s = .next ((violation s 35 a .w PRT_MGR 0).fails a .w))
    ∧ (Level.upper a.level = true → (p = 31 ∨ p < 16 ∧ (s.part p).state ≠ .free) → exec (.prtMgrWrite a v) s = .next (plainWrite s PRT_MGR v))
    ∧ (Level.upper a.level = true → 16 ≤ p → p ≠ 31 → exec (.prtMgrWrite a v) s = .next s)
    ∧ (Level.upper a.level = true → p < 16 → (s.part p).state = .free →
      (bitsOf v.toNat 8 3 ≤ 4 → exec (.prtMgrWrite a v) s =
        .next (plainWrite (s.setPart p { s.part p with state := .bound, port := bitsOf v.toNat 8 3 }) PRT_MGR v))
      ∧ (4 < bitsOf v.toNat 8 3 → exec (.prtMgrWrite a v) s = .next (accessEv s evAccessRange a PRT_MGR)))))
  ∧ ((∀ (p : Fin 4) (speed width : BitVec 3) (s : State),
    let trains := s.ctl.core = true ∧ 1 ≤ speed.toNat ∧ speed.toNat ≤ 5 ∧ (width = 1 ∨ width = 2 ∨ width = 4) ∧ ∀ l, l < width.toNat → laneDeaf s p.val l = false
    (trains → ∃ t, exec (.hostLinkUp p speed width) s = .next t ∧ linkUp t p.val = true
      ∧ t.fld (HIF_HP_STATUS p.val) 1 3 = speed.toNat ∧ t.fld (HIF_HP_STATUS p.val) 4 3 = width.toNat
      ∧ { t with regs := s.regs, free := s.free } = s)
    ∧ (¬ trains → exec (.hostLinkUp p speed width) s = .next s))
  ∧ (∀ (p : Fin 4) (s : State), (s.ctl.core = true → linkUp s p.val = true →
      ∃ u, exec (.hostLinkDown p) s = .next (raise u evHostLinkDown 1 34 31 []) ∧ u.reg (HIF_HP_STATUS p.val) = 0
        ∧ u.reg (HIF_HP_DOWN p.val) = (s.inc (HIF_HP_DOWN p.val)).reg (HIF_HP_DOWN p.val)
        ∧ (∀ i, i < 16 → u.part i = if (s.part i).state = .active ∧ (s.part i).port = p.val then { s.part i with state := .faulted, cause := 8 } else s.part i)
        ∧ SameRegsBut [HIF_HP_STATUS p.val, HIF_HP_DOWN p.val] s u ∧ { u with regs := s.regs, parts := s.parts } = s)
    ∧ ((s.ctl.core = false ∨ linkUp s p.val = false) → exec (.hostLinkDown p) s = .next s)))

/-- The next completion that can move (R269, R282–R284, R289): to its ring while the ring has room and nothing waits before it, in the
order body, low part, status with the phase of its pass, on PCIe as posted writes, on HP4 in memory where the gates let its pieces
pass, raising the partition's source; to the backlog of 64 otherwise; while the link is down it is dropped and counted; of a partition
that is FREE or BOUND it is dropped. The backlog's oldest goes on in the same way once there is room. The last completion of a
partition in STOPPING leaves it BOUND. Written for states in which no FENCE_SIGNAL waits, since one that waited for the completion goes
on in the same step (R214; FencesAndCommits). A completion that waits at a gate keeps its partition in STOPPING (R270). -/
def Obligations.Completions : Prop :=
  (∀ (c : Cpl) (rest : List Cpl) (s : State), s.ctl.core = true → takeFirst (cplMoves s) s.cpls = some (c, rest) → (∀ j ∈ s.jobs, j.opcode ≠ 0x0A01) →
    let x := s.part c.part
    let u : State := { s with cpls := rest }
    let left := (s.jobs.any fun j => j.req.part.val == c.part) || (rest.any fun c' => c'.part == c.part) || !x.backlog.isEmpty
      || (s.heldAcc.any fun h => h.after == .cpl c.part)
    let ends := if x.state = .stopping ∧ left = false then PartState.bound else x.state
    let n := (kring x c.cring).written
    let base := cplBase s c.part c.cring + 32 * (n.toNat % 2 ^ cplLog s c.part c.cring)
    let pieces := cplPieces c n.toNat (cplLog s c.part c.cring)
    (x.state.logs = false → exec .jobCompletion s = .next u)
    ∧ (x.state.logs = true → hostGone s c.part = true → ∃ t, exec .jobCompletion s = .next t ∧ t.part c.part = { x with state := ends } ∧ (∀ o, o ≠ c.part → t.part o = s.part o)
      ∧ t.reg (HIF_HP_DROPPED x.port) = (s.inc (HIF_HP_DROPPED x.port)).reg (HIF_HP_DROPPED x.port) ∧ SameRegsBut [HIF_HP_DROPPED x.port] s t
      ∧ { t with regs := s.regs, parts := s.parts } = u)
    ∧ (x.state.logs = true → hostGone s c.part = false → x.backlog = [] → cplRoom s c.part c.cring = true →
      (onPcie s c.part = true → ∃ t, exec .jobCompletion s = .next t
        ∧ t.part c.part = { setKring x c.cring { kring x c.cring with written := n + 1 } with state := ends } ∧ (∀ o, o ≠ c.part → t.part o = s.part o)
        ∧ t.outbox = s.outbox ++ pieces.map (fun w => Out.hostWrite x.port (BitVec.ofNat 64 (base + w.1)) w.2)
        ∧ { t with parts := s.parts, outbox := s.outbox } = u)
      ∧ (onPcie s c.part = false → (∀ w ∈ pieces, rangeRes s (engine 34 c.part) .w (partsOf s (base + w.1) w.2.length) = .ok) →
        ∃ t, exec .jobCompletion s = .next t
          ∧ t.part c.part = { setKring x c.cring { kring x c.cring with written := n + 1 } with state := ends } ∧ (∀ o, o ≠ c.part → t.part o = s.part o)
          ∧ t.mem = (pieces.foldl (fun r w => r.store (base + w.1) w.2) s).mem ∧ t.outbox = s.outbox ∧ t.cpls = rest ∧ t.jobs = s.jobs
          ∧ t.heldAcc = s.heldAcc ∧ SameRegsBut (EVC_MERGED :: evcRegs) s t))
    ∧ (x.state.logs = true → hostGone s c.part = false → (x.backlog ≠ [] ∨ cplRoom s c.part c.cring = false) →
      exec .jobCompletion s = .next (u.setPart c.part { x with backlog := x.backlog ++ [c] })))
  ∧ (∀ s : State, (s.ctl.core = false ∨ ∀ c ∈ s.cpls, cplMoves s c = false) → exec .jobCompletion s = .next s)
  ∧ (∀ (p : Fin 16) (c : Cpl) (rest : List Cpl) (s : State), s.ctl.core = true → (s.part p.val).backlog = c :: rest →
    let x := s.part p.val
    let left := (s.jobs.any fun j => j.req.part.val == p.val) || (s.cpls.any fun c' => c'.part == p.val) || !rest.isEmpty
      || (s.heldAcc.any fun h => h.after == .cpl p.val)
    let ends := if x.state = .stopping ∧ left = false then PartState.bound else x.state
    let n := (kring x c.cring).written
    let base := cplBase s p.val c.cring + 32 * (n.toNat % 2 ^ cplLog s p.val c.cring)
    let pieces := cplPieces c n.toNat (cplLog s p.val c.cring)
    (x.state.logs = false → exec (.backlogWrite p) s = .next (s.setPart p.val { x with backlog := rest }))
    ∧ (x.state.logs = true → hostGone s p.val = true → ∃ t, exec (.backlogWrite p) s = .next t ∧ t.part p.val = { x with backlog := rest, state := ends } ∧ (∀ o, o ≠ p.val → t.part o = s.part o)
      ∧ t.reg (HIF_HP_DROPPED x.port) = (s.inc (HIF_HP_DROPPED x.port)).reg (HIF_HP_DROPPED x.port) ∧ SameRegsBut [HIF_HP_DROPPED x.port] s t
      ∧ { t with regs := s.regs, parts := s.parts } = s)
    ∧ (x.state.logs = true → hostGone s p.val = false → cplRoom s p.val c.cring = true →
      (onPcie s p.val = true → ∃ t, exec (.backlogWrite p) s = .next t
        ∧ t.part p.val = { setKring x c.cring { kring x c.cring with written := n + 1 } with backlog := rest, state := ends } ∧ (∀ o, o ≠ p.val → t.part o = s.part o)
        ∧ t.outbox = s.outbox ++ pieces.map (fun w => Out.hostWrite x.port (BitVec.ofNat 64 (base + w.1)) w.2)
        ∧ { t with parts := s.parts, outbox := s.outbox } = s)
      ∧ (onPcie s p.val = false → (∀ w ∈ pieces, rangeRes s (engine 34 p.val) .w (partsOf s (base + w.1) w.2.length) = .ok) →
        ∃ t, exec (.backlogWrite p) s = .next t
          ∧ t.part p.val = { setKring x c.cring { kring x c.cring with written := n + 1 } with backlog := rest, state := ends } ∧ (∀ o, o ≠ p.val → t.part o = s.part o)
          ∧ t.mem = (pieces.foldl (fun r w => r.store (base + w.1) w.2) s).mem ∧ t.outbox = s.outbox ∧ t.cpls = s.cpls ∧ t.jobs = s.jobs
          ∧ t.heldAcc = s.heldAcc ∧ SameRegsBut (EVC_MERGED :: evcRegs) s t))
    ∧ (x.state.logs = true → hostGone s p.val = false → cplRoom s p.val c.cring = false → exec (.backlogWrite p) s = .next s))
  ∧ (∀ (p : Fin 16) (s : State), (s.ctl.core = false ∨ (s.part p.val).backlog = []) → exec (.backlogWrite p) s = .next s)

/-- A fetched descriptor whose turn has come is validated in the order of R287 and runs as its command, under its place in fetch order
(R280, R287); one that cannot be accepted waits, with CRING_FULL where the backlog is what holds it (R284); a TIME_ADJ or TIME_STEP with
reserved bits set is decided as well, which is the model's reading of R70 (log 129).
A doorbell read (R277–R279, R284, R482) takes the consumer indices of the enabled completion rings and of the log, and of an ACTIVE
partition brings the descriptors up to the producer index, here one of the one enabled ring, an ABORT executed at once (R290); an index
out of reach stops the ring; a read that fails is counted and faults an ACTIVE partition. That a read answered on PCIe shows the host's
bus mastering, bit 7 of HIF_HPn_STATUS, is the model's choice (log 98).
The mirror page of an ACTIVE partition is written between its two sequence words (R292, R269, R517). -/
def Obligations.FetchAndMirror : Prop :=
  ((∀ (p : Fin 16) (r : Fin 8) (h : HostRead) (s : State), (s.ctl.core = false ∨ s.ctl.mode.soile = false ∨ ringHead s p.val r.val = none) →
      exec (.descriptorAccept p r h) s = .next s)
  ∧ (∀ (p : Fin 16) (r : Fin 8) (h : HostRead) (s : State) (f : Fetched), s.ctl.core = true → s.ctl.mode.soile = true → ringHead s p.val r.val = some f →
    let q := rawReq p f h
    let op := rawOp f.raw
    let t := { s.setPart p.val { s.part p.val with fetched := (s.part p.val).fetched.filter fun g => g.order != f.order } with nextFetch := f.order }
    let back := fun (u : State) => { u with nextFetch := s.nextFetch }
    (headReady s p f = false → exec (.descriptorAccept p r h) s =
      .next (if (s.part p.val).state = .active ∧ 64 ≤ (s.part p.val).backlog.length then raiseKey s p.val evCringFull 0 35 p.val [] else s))
    ∧ (headReady s p f = true → firstOfAll s f = false → exec (.descriptorAccept p r h) s = .next s)
    ∧ (headReady s p f = true → firstOfAll s f = true →
      (cmdOf op = none → exec (.descriptorAccept p r h) s = .next (back (done t (rerouted s q) op stBadOpcode)))
      ∧ (∀ run, cmdOf op = some run → rawReserved f.raw = true → exec (.descriptorAccept p r h) s =
        .next (back (done (if op = 0x0F01 ∨ op = 0x0F02 then timeReserved (if op = 0x0F01 then 0 else 1) q true t else t) (rerouted s q) op stReserved)))
      ∧ (∀ run, cmdOf op = some run → rawReserved f.raw = false → exec (.descriptorAccept p r h) s = .next (back (run q t))))))
  ∧ ((∀ (p : Fin 16) (page : HostRead) (ds : List HostRead) (log : HostRead) (s : State),
      ((s.ctl.core = false ∨ (s.part p.val).state ≠ .active ∧ (s.part p.val).state ≠ .stopping) → exec (.doorbellRead p page ds log) s = .next s)
      ∧ (s.ctl.core = true → ((s.part p.val).state = .active ∨ (s.part p.val).state = .stopping) →
        (onPcie s p.val = true → (page = .error ∨ linkUp s (s.part p.val).port = false) →
          let t := s.inc (HIF_HP_DMA_ERR (s.part p.val).port)
          exec (.doorbellRead p page ds log) s = .next (if (s.part p.val).state = .active then faultPart t p.val 6 else t))
        ∧ (onPcie s p.val = false →
          let x := engRead s 34 p.val (doorbell s p.val) 128
          (x.2.1 = .held → exec (.doorbellRead p page ds log) s = .next s)
          ∧ ((x.2.1 = .denied ∨ x.2.1 = .unmapped) → exec (.doorbellRead p page ds log) s =
            .next (if (x.1.part p.val).state = .active then faultPart x.1 p.val 7 else x.1)))))
    ∧ (∀ (p : Fin 16) (page log : Bytes) (ds : List HostRead) (s : State), s.ctl.core = true → onPcie s p.val = true →
      linkUp s (s.part p.val).port = true → page.length = 128 → log.length = 8 →
      let x := s.part p.val
      let logs := if plogOn s p.val then BitVec.ofNat 64 (leNat log) else x.logCons
      let indices := fun (u : Part) => ∀ c, c < 8 → kring u c =
        if s.bit (PRT_SW_CP_CFG p.val c) 8 then { kring x c with cons := BitVec.ofNat 64 (leNat (sliceB page (0x40 + 8 * c) 8)) } else kring x c
      (x.state = .stopping → ∃ t, exec (.doorbellRead p (.bytes page) ds (.bytes log)) s = .next t
        ∧ t.part p.val = { x with krings := (t.part p.val).krings, logCons := logs } ∧ indices (t.part p.val)
        ∧ t.bit (HIF_HP_STATUS x.port) 7 = true ∧ SameRegsBut [HIF_HP_STATUS x.port] s t ∧ { t with regs := s.regs, parts := s.parts } = s)
      ∧ (∀ r : Fin 8, x.state = .active → s.ctl.mode.soile = true → s.bit (PRT_SW_CR_CFG p.val r.val) 8 = true →
        (∀ o, o < 8 → o ≠ r.val → s.bit (PRT_SW_CR_CFG p.val o) 8 = false) →
        let c := cring x r.val
        let prod := BitVec.ofNat 64 (leNat (sliceB page (8 * r.val) 8))
        let got := fun (t : State) => indices (t.part p.val) ∧ (t.part p.val).logCons = logs ∧ t.bit (HIF_HP_STATUS x.port) 7 = true
          ∧ SameRegsBut [HIF_HP_STATUS x.port] s t
        ((c.fault = true ∨ prod = c.fetch) → ∃ t, exec (.doorbellRead p (.bytes page) ds (.bytes log)) s = .next t ∧ got t
          ∧ t.part p.val = { x with krings := (t.part p.val).krings, logCons := logs } ∧ { t with regs := s.regs, parts := s.parts } = s)
        ∧ (c.fault = false → 2 ^ cmdLog s p.val r.val < (prod - c.fetch).toNat →
          ∃ u, exec (.doorbellRead p (.bytes page) ds (.bytes log)) s = .next (raise u evRingFault 2 35 p.val []) ∧ got u
            ∧ cring (u.part p.val) r.val = { c with fault := true } ∧ (u.part p.val).fetched = x.fetched ∧ { u with regs := s.regs, parts := s.parts } = s)
        ∧ (∀ raw, ds = [.bytes raw] → raw.length = 64 → c.fault = false → prod = c.fetch + 1 →
          let f : Fetched := ⟨r.val, c.fetch, raw, s.nextFetch⟩
          ∃ u, got u ∧ cring (u.part p.val) r.val = { c with fetch := c.fetch + 1 } ∧ (u.part p.val).fetched = x.fetched
            ∧ { u with regs := s.regs, parts := s.parts, nextFetch := s.nextFetch } = s ∧ u.nextFetch = s.nextFetch + 1
            ∧ (rawOp raw ≠ 0x1201 → exec (.doorbellRead p (.bytes page) ds (.bytes log)) s =
                .next (u.setPart p.val { u.part p.val with fetched := x.fetched ++ [f] }))
            ∧ (rawOp raw = 0x1201 → exec (.doorbellRead p (.bytes page) ds (.bytes log)) s = .next (runRaw u p f .error))))))
  ∧ (∀ (p : Fin 16) (s : State),
    let n := (s.part p.val).mirSeq + 1
    let base := mirrorBase s p.val
    let ws : List (Nat × Bytes) := [(0x7FF8, leBytes 4 0), (4, mirrorBody s p.val), (0, leBytes 4 n.toNat), (0x7FF8, leBytes 4 n.toNat)]
    let on := s.ctl.core = true ∧ (s.part p.val).state = .active ∧ mirrorOn s p.val = true
    (¬ on → exec (.mirrorWrite p) s = .next s)
    ∧ (on → onPcie s p.val = true →
      (linkUp s (s.part p.val).port = true → exec (.mirrorWrite p) s = .next { s.setPart p.val { s.part p.val with mirSeq := n } with
        outbox := s.outbox ++ ws.map fun w => Out.hostWrite (s.part p.val).port (BitVec.ofNat 64 (base + w.1)) w.2 })
      ∧ (linkUp s (s.part p.val).port = false → exec (.mirrorWrite p) s = .next (s.inc (HIF_HP_DROPPED (s.part p.val).port))))
    ∧ (on → onPcie s p.val = false →
      let x := partWrite (raiseN 3) s true p.val 34 base ws
      ((∀ w ∈ ws, rangeRes s (engine 34 p.val) .w (partsOf s (base + w.1) w.2.length) = .ok) → exec (.mirrorWrite p) s =
        .next ((ws.foldl (fun r w => storeParts (engine 34 p.val) (base + w.1) w.2 r (partsOf r (base + w.1) w.2.length)) s).setPart p.val
          { s.part p.val with mirSeq := n }))
      ∧ ((x.2 = .denied ∨ x.2 = .unmapped) → exec (.mirrorWrite p) s = .next (faultPart x.1 p.val 7))
      ∧ (x.2 = .held → exec (.mirrorWrite p) s = .next (x.1.setPart p.val { x.1.part p.val with mirSeq := n }))))

/-- ABORT (R290, Table 10.8). Without a target, or with one that has ended, it is ABORT_LATE; a descriptor fetched and not accepted is
removed, both completing. A job: one without a stop point goes on, NOT_ABORTABLE; one whose engine works on it, or past its point of no
return, goes on with the ABORT waiting for its end; any other is stopped now, each kind as its chapter gives. What the end of a job sends:
its one completion, then that of every ABORT that waits for it. -/
def Obligations.Aborts : Prop :=
  (∀ (q : Req) (s : State), Admitted s q maskAbort →
    let target := abortTarget s q.part.val (BitVec.ofNat 32 (q.u32 16)) s.nextJob
    (target = none → exec (.abort q) s = .next (done s q 0x1201 stAbortLate (cplBody [(16, 4, 0xFFFFFFFF)])))
    ∧ (∀ c, target = some (.ended c) → exec (.abort q) s = .next (done s q 0x1201 stAbortLate (abortBody c.index c.ring c.status.toNat)))
    ∧ (∀ f, target = some (.fetched f) →
      let t := { s with cpls := s.cpls ++ [fetchedCpl s q.part f stAborted] }.setPart q.part.val
        { s.part q.part.val with fetched := (s.part q.part.val).fetched.filter fun g => g.order != f.order }
      exec (.abort q) s = .next (done t q 0x1201 stComplete (abortBody f.index f.ring stAborted)))
    ∧ (∀ j, target = some (.job j) →
      let u := (accepted s q 0x1201).modJob j.id fun x => { x with abortBy := x.abortBy ++ [s.nextJob] }
      let goesOn := exec (.abort q) s = .next u
      let ends := fun (v : State) => exec (.abort q) s = .next (finish v j.id stAborted)
      (j.opcode.toNat ∉ [0x0501, 0x0602, 0x0703, 0x0802, 0x0803, 0x0A02, 0x0D01, 0x0D02, 0x0E01] →
        exec (.abort q) s = .next (done s q 0x1201 stNotAbortable (abortBody j.req.index j.req.ring.val 0)))
      ∧ (j.opcode = 0x0501 →
        let begun := ∃ x ∈ s.ipp, ∃ w, x.2 = some w ∧ w.begun = true ∧ w.job = some j.id
        (begun → goesOn) ∧ (¬ begun → ends (dropChosen u fun w => w.job == some j.id)))
      ∧ (j.opcode = 0x0602 →
        let begun := ∃ x ∈ s.encs, ∃ w, x.2.work = some w ∧ w.job = some j.id
        (begun → goesOn) ∧ (¬ begun → ends u))
      ∧ (j.opcode = 0x0703 → (mayRun s j = true → goesOn) ∧ (mayRun s j = false → exec (.abort q) s = .next (uploadEnd u j stAborted)))
      ∧ (j.opcode = 0x0802 → (pendingOf s j.id = none → goesOn)
        ∧ (∀ l p, pendingOf s j.id = some (l, p) → (p.armed = true → goesOn)
          ∧ (p.armed = false → exec (.abort q) s = .next (dropPending u l p stAborted))))
      ∧ (j.opcode = 0x0803 → ((∀ x ∈ s.layers, j.id ∉ x.2.destroy) → goesOn)
        ∧ (∀ l x, s.layers.find? (fun x => x.2.destroy.contains j.id) = some (l, x) → (x.destroyArmed = true → goesOn)
          ∧ (x.destroyArmed = false → ends (u.setLayer l { x with destroy := x.destroy.filter fun i => i != j.id }))))
      ∧ (j.opcode = 0x0A02 → ends (u.setPart j.req.part.val
          (setCring (s.part j.req.part.val) j.req.ring.val { cring (s.part j.req.part.val) j.req.ring.val with wait := none })))
      ∧ ((j.opcode = 0x0D01 ∨ j.opcode = 0x0D02) → (j.running = true → goesOn) ∧ (j.running = false → ends u))
      ∧ (j.opcode = 0x0E01 → ((∀ k, k < 8 → s.crcW k ≠ some j.id) → ends u)
        ∧ (∀ k, k < 8 → s.crcW k = some j.id → (∀ i, i < k → s.crcW i ≠ some j.id) → (pwrGranted s (pwrCrc k) = true → goesOn)
          ∧ (pwrGranted s (pwrCrc k) = false →
            exec (.abort q) s = .next (crcAssign (finish (pwrEnd (u.setCrcW k none) (pwrCrc k)) j.id stAborted)))))))
  ∧ (∀ (s : State) (j : Job) (st : Nat) (body : BitVec 128), s.jobs.filter (fun x => x.id == j.id) = [j] → j.yielded = false →
    let late := s.jobs.filter fun x => x.id != j.id && j.abortBy.contains x.id
    (finish s j.id st body).cpls = s.cpls ++ cplOf j (BitVec.ofNat 16 st) body :: late.map (fun a =>
        cplOf a (BitVec.ofNat 16 (if st = stAborted then stComplete else stAbortLate)) (abortBody j.req.index j.req.ring.val st))
    ∧ (finish s j.id st body).jobs = s.jobs.filter (fun x => x.id != j.id && !j.abortBy.contains x.id)
    ∧ { finish s j.id st body with jobs := s.jobs, cpls := s.cpls } = s)

/-! ### Access gates and register access (R3–R22, R296–R319, R518) -/

/-- Requests of an entry's CTRL (R308, R310, R315, R518), in the order hold, apply, lock, each decided and counted once: hold puts an entry
in HOLD, an apply decides in the order of Table 11.4 and a good one takes the staged values and leaves HOLD, a lock locks an entry that is
ON, anything on a locked entry or slot 36 is LOCKED. That the on bit of the same write counts before its requests, and that a write to a
locked entry that asks for nothing is a decided request, is this model's reading (log 58).
A staging write (R307, R315, R518): the register's fields take the value, but a locked entry keeps it and decides LOCKED. A new base
in HOLD moves what must drain, and nothing else (R310, log 9). -/
def Obligations.Gates : Prop :=
  (∀ (a : Access) (e : GateEntry) (v : Word) (s : State), let k := gateKey e; let c := gateCtrlAddr k; Reaches s a .w c →
    let asks := fun (i : Nat) (f : State → State) (s : State) =>
      if bitOf v.toNat i = false then s else if gateLocked s k = true then gateDecided s k 5 else f s
    let u := if gateLocked s k = true then s else s.setBit c 4 (bitOf v.toNat 4)
    let t := if gateLocked s k = true ∧ bitsOf v.toNat 9 3 = 0 then gateDecided s k 5
      else asks 11 (lockEntry · k) (asks 10 (entryApply holdOpened · k (bitsOf v.toNat 12 4 != 0)) (asks 9 (holdEntry · k) u))
    exec (.gateHold a e v) s = .next t ∧ exec (.gateApply a e v) s = .next t ∧ exec (.gateLock a e v) s = .next t)
  ∧ (∀ (e : GateEntry) (s : State), let k := gateKey e; let c := gateCtrlAddr k
    (∀ r, r < 8 → let t := gateDecided s k r
      t.fld c 5 4 = 1 + 2 * r ∧ t.fld c 16 16 = (s.fld c 16 16 + 1) % 2 ^ 16 ∧ t.fld c 0 5 = s.fld c 0 5 ∧ SameRegsBut [c] s t ∧ { t with regs := s.regs } = s)
    ∧ (inHold s k = true → holdEntry s k = gateDecided s k 0)
    ∧ (inHold s k = false → let t := holdEntry s k
      inHold t k = true ∧ t.fld c 4 5 = s.fld c 4 1 + 2 ∧ t.fld c 16 16 = (s.fld c 16 16 + 1) % 2 ^ 16 ∧ s.island ≤ tget (fun _ => 0) t.drains k
        ∧ SameRegsBut [c] s t ∧ { t with regs := s.regs, drains := s.drains, free := s.free } = s)
    ∧ (∀ resv : Bool, let r := applyResult s k resv
      (inHold s k = false → r = 1) ∧ (inHold s k = true → gateQuiet s k = false → r = 2)
      ∧ (inHold s k = true → gateQuiet s k = true → match e with
        | .slot n => r = if resv then 3 else if ceilingBad n.val (s.reg (GATE_PS_ATTR n.val)) then 4 else 0
        | .region m j => r = if resv || shapeBad m.val (s.reg (MG_BASE m.val j.val)) then 3 else 0)
      ∧ (r ≠ 0 → entryApply holdOpened s k resv = gateDecided s k r)
      ∧ (r = 0 → ∃ t, entryApply holdOpened s k resv = holdOpened t ∧ t.fld c 0 2 = s.fld c 4 1 ∧ t.fld c 5 4 = 1
        ∧ t.fld c 16 16 = (s.fld c 16 16 + 1) % 2 ^ 16
        ∧ (match e with
          | .slot n => t.reg (GATE_PS_ATTR_ACT n.val) = s.reg (GATE_PS_ATTR n.val) ∧ SameRegsBut [c, GATE_PS_ATTR_ACT n.val] s t
          | .region m j => t.reg (MG_BASE_ACT m.val j.val) = s.reg (MG_BASE m.val j.val) ∧ t.reg (MG_ATTR_ACT m.val j.val) = s.reg (MG_ATTR m.val j.val)
              ∧ t.reg (MG_PART_ACT m.val j.val) = s.reg (MG_PART m.val j.val)
              ∧ SameRegsBut [c, MG_BASE_ACT m.val j.val, MG_ATTR_ACT m.val j.val, MG_PART_ACT m.val j.val] s t)
        ∧ { t with regs := s.regs, drains := s.drains } = s))
    ∧ (s.heldAcc = [] → (∀ j ∈ s.jobs, j.opcode ≠ 0x0A01) → holdOpened s = nextTransfers s)
    ∧ (ctrlState (s.reg c) = 1 → let t := lockEntry s k
      gateLocked t k = true ∧ t.fld c 0 3 = s.fld c 0 3 ∧ t.fld c 4 5 = s.fld c 4 1 + 2 ∧ t.fld c 16 16 = (s.fld c 16 16 + 1) % 2 ^ 16
        ∧ SameRegsBut [c] s t ∧ { t with regs := s.regs } = s)
    ∧ (ctrlState (s.reg c) ≠ 1 → lockEntry s k = gateDecided s k 6))
  ∧ (∀ (a : Access) (e : GateEntry) (i : Fin 3) (v : Word) (s : State),
    (stageAddr e i.val = none → exec (.gateStagingWrite a e i v) s = .next s)
    ∧ (∀ addr, stageAddr e i.val = some addr → Reaches s a .w addr →
      (gateLocked s (gateKey e) = true → exec (.gateStagingWrite a e i v) s = .next (gateDecided s (gateKey e) 5))
      ∧ (gateLocked s (gateKey e) = false → ∃ t, exec (.gateStagingWrite a e i v) s = .next t
        ∧ t.reg addr = (plainWrite s addr v).reg addr ∧ SameRegsBut [addr] s t ∧ { t with regs := s.regs, drains := s.drains, free := s.free } = s
        ∧ ((inHold s (gateKey e) = false ∨ i.val ≠ 0 ∨ gateKey e < 70 ∨ t.reg addr = s.reg addr) → t.drains = s.drains ∧ t.free = s.free)
        ∧ ((inHold s (gateKey e) = true ∧ i.val = 0 ∧ 70 ≤ gateKey e ∧ t.reg addr ≠ s.reg addr) → s.island ≤ tget (fun _ => 0) t.drains (gateKey e)
          ∧ tget (fun _ => 0) s.drains (gateKey e) ≤ tget (fun _ => 0) t.drains (gateKey e)))))

/-- R15: an access to an unpowered domain reads zeros and writes nothing, with no record; in a powered one the engine clocks, shown in
CLK_PLLp_STATUS, make no difference to whether it reaches its block. What an access shows of its desk core's mode is the model's (log 18). -/
def Obligations.UnpoweredAccess : Prop :=
  (∀ (a : Access) (addr : BitVec 40) (v : Word) (s : State), addr.toNat < 0x1000000 → addr.toNat % 4 = 0 → s.powered (slotOf addr.toNat) = false →
    let u := if (modeSeen s a).carries a addr.toNat then modeSeen s a else s
    exec (.registerWrite a addr 0xF v) s = .next u ∧ { u with desks := s.desks, free := s.free } = s ∧ (fromDesk a = false → u = s))
  ∧ (∀ (a : Access) (bar2 : Bool) (addr : BitVec 40) (s : State), let n := mapAddr s a bar2 addr.toNat
    canAccess (modeDrawn s a) a bar2 addr.toNat = true → n < 0x1000000 → n % 4 = 0 → s.powered (slotOf n) = false →
    ∃ t, exec (.initiatorMemoryAccess a ⟨bar2, .plain, .r⟩ addr 4 []) s = .next t ∧ t.bus = ⟨[0, 0, 0, 0], true, none⟩
      ∧ { t with bus := s.bus, outbox := s.outbox } = modeDrawn s a ∧ (a.src ≠ 0x60 → t.outbox = s.outbox))
  ∧ (∀ (s : State) (a : Access) (t : AccType) (addr p : Nat) (w : Word), p < 16 → regDec (s.setReg (CLK_PLL_STATUS p) w) a t addr = regDec s a t addr)

/-- R20, R22: a set-up window admits its partition, P3 and DEBUG, a host in BAR0 only where the partition is bound to its port; another
access that the slot's attributes let through is refused and recorded as a violation at slot 35, and what is admitted has passed those
attributes too. Hypotheses are the powered core and an access of an identity that its initiator carries. -/
def Obligations.WindowAdmission : Prop :=
  (∀ (a : Access) (s : State) (n : Nat) (p : Fin 16) (t : AccType), 0xF00000 + 0x10000 * p.val ≤ n → n < 0xF10000 + 0x10000 * p.val →
    s.ctl.core = true → regDec s a t n = .go → (a.part.toNat = p.val ∨ a.level = .p3 ∨ a.level = .debug) ∧ slotDec s 35 a t = .go
      ∧ (a.src.toNat < 4 → a.level ≠ .p3 → a.level ≠ .debug → (s.part p.val).state ≠ .free ∧ (s.part p.val).port = a.src.toNat))
  ∧ (∀ (a : Access) (s : State) (p : Fin 16), s.ctl.core = true → a.level ≠ .p3 → a.level ≠ .debug →
    (a.part.toNat ≠ p.val ∨ a.src.toNat < 4 ∧ ((s.part p.val).state = .free ∨ (s.part p.val).port ≠ a.src.toNat)) →
    (∀ (addr : BitVec 40) (v : Word), 0xF00000 + 0x10000 * p.val ≤ addr.toNat → addr.toNat < 0xF10000 + 0x10000 * p.val → addr.toNat % 4 = 0 →
      s.carries a addr.toNat = true → slotDec s 35 a .w = .go →
      exec (.registerWrite a addr 0xF v) s = .next ((violation s 35 a .w addr.toNat 0).fails a .w))
    ∧ (∀ (addr : BitVec 40) (bar2 : Bool), let n := mapAddr s a bar2 addr.toNat
      0xF00000 + 0x10000 * p.val ≤ n → n < 0xF10000 + 0x10000 * p.val → n % 4 = 0 → canAccess (modeDrawn s a) a bar2 addr.toNat = true →
      slotDec s 35 a .r = .go → exec (.initiatorMemoryAccess a ⟨bar2, .plain, .r⟩ addr 4 []) s =
        .next (returnData (violation (modeDrawn s a) 35 a .r n 0) a [0, 0, 0, 0] (refusalOf a .r))))

/-- R305: every region is OFF with all fields 0 at reset (its CTRL reads quiet = 1 and nothing else); with all regions OFF, a
memory gate passes exactly P3, and no fetch. -/
def Obligations.RegionsAtReset : Prop :=
  (∀ m r, m < 8 → r < 32 → State.reset.reg (MG_CTRL m r) = 4
    ∧ ∀ f ∈ [MG_BASE, MG_ATTR, MG_PART, MG_BASE_ACT, MG_ATTR_ACT, MG_PART_ACT], State.reset.reg (f m r) = 0)
  ∧ (∀ (s : State) (a : Access) (t : AccType) (addr m off : Nat), place s addr = .gated m off → (∀ r, r < 32 → ctrlState (s.reg (MG_CTRL m r)) = 0) →
    ((memDec s a t addr).1 = .ok ↔ a.level = .p3 ∧ t ≠ .x))

/-- Writes and reads in the map (R6, R12, R16, R18, R22, R298, R306, R309, R321): a whole aligned word of register space goes to its block,
in memory there is no register to write, and outside the map the write is dropped and recorded; of any other access to it the slot's gate decides first, and one it lets through is recorded as ACCESS_SIZE (that order is the model's, log 48). Of
memory, here within one 4 KiB page: a write that its gate passes is stored and a read returns the bytes; one refused is recorded at its
gate and writes nothing or reads zeros, a desk core and the debug module seeing it fail; one outside the map is recorded; one that its
gate holds, or that must follow another of its initiator, waits. A BAR2 write outside debug mode is refused. A desk core's own rules stop
a misaligned access outside desk SRAM and the others of R321. An access of an identity that its initiator does not carry changes nothing
(log 2). -/
def Obligations.MapAccesses : Prop :=
  (∀ (a : Access) (addr : BitVec 40) (v : Word) (s : State), addr.toNat < 0x1000000 → addr.toNat % 4 = 0 → Reaches s a .w addr.toNat →
    exec (.registerWrite a addr 0xF v) s = .next (registerEffect a addr.toNat v s))
  ∧ (∀ (a : Access) (addr : BitVec 40) (be : BitVec 4) (v : Word) (s : State), let u := modeSeen s a
    (u.carries a addr.toNat = false → exec (.registerWrite a addr be v) s = .next s)
    ∧ (u.carries a addr.toNat = true → 0x1000000 ≤ addr.toNat →
      (listed u addr.toNat = true → exec (.registerWrite a addr be v) s = .next u)
      ∧ (listed u addr.toNat = false → u.ctl.core = true → debugBarred u a = false → addr.toNat / 0x1000 = (addr.toNat + 3) / 0x1000 →
        mustWait u { acc := a, typ := .w, addr := addr.toNat, len := 4 } = false →
        exec (.registerWrite a addr be v) s = .next ((unmappedEv (raiseN 3) u a addr.toNat).answer []))))
  ∧ (∀ (a : Access) (addr : BitVec 40) (be : BitVec 4) (v : Word) (r : State), addr.toNat < 0x1000000 → (be ≠ 0xF ∨ addr.toNat % 4 ≠ 0) →
    let s := modeSeen r a
    let dec := regDec s a .w (addr.toNat / 4 * 4)
    let back := fun (t : State) => exec (.registerWrite a addr be v) r = .next t
    s.carries a addr.toNat = true → (fromDesk a = false →
      (dec = .go → back (accessEv s evAccessSize a addr.toNat))
      ∧ (dec = .ignored → back s)
      ∧ (∀ g, dec = .violation g → let w := violation s g a .w (addr.toNat / 4 * 4) 0
        back (if a.src = 0x62 then w.answer [] (some .busError) else w))
      ∧ (dec = .held → back (waitAt s { acc := a, typ := .w, addr := addr.toNat, len := 0, reg := true, ok := false })))
    ∧ (fromDesk a = true → back ((if dec = .ignored then s else accessEv s evAccessSize a addr.toNat).answer [] (some .storeFault))))
  ∧ (∀ (a : Access) (bar2 : Bool) (t : AccType) (addr : BitVec 40) (len : Nat) (bs : Bytes) (s : State),
    let s1 := modeDrawn s a
    let n := mapAddr s a bar2 addr.toNat
    let zeros : Bytes := List.replicate len 0
    let waits := (memDec s1 a t n).1 = .held ∨ mustWait s1 { acc := a, typ := t, addr := n, len := len } = true
    let run := exec (.initiatorMemoryAccess a ⟨bar2, .plain, t⟩ addr len bs) s
    (canAccess s1 a bar2 addr.toNat = false → run = .next s)
    ∧ (canAccess s1 a bar2 addr.toNat = true →
      (bar2 = true → t = .w → a.level = .p0 →
        (∀ g, gateAt s1 n = some g → run = .next ((violation s1 g.1 a .w n g.2).answer []))
        ∧ (gateAt s1 n = none → run = .next ((unmappedEv (raiseN 3) s1 a n).answer [])))
      ∧ (¬ (bar2 = true ∧ t = .w ∧ a.level = .p0) →
        (∀ e, deskStops s1 a t n len = some e →
          run = .next ((if n < 0x1000000 then wrongSize s1 a t n len else s1).answer (if t = .w then [] else zeros) (some e)))
        ∧ (deskStops s1 a t n len = none → 0x1000000 ≤ n → 0 < len → n / 0x1000 = (n + len - 1) / 0x1000 →
          ((debugBarred s1 a = true ∨ memPowered s1 n = false) → run = .next (if t = .w then s1.answer [] else returnData s1 a zeros))
          ∧ (debugBarred s1 a = false → memPowered s1 n = true →
            (t = .w → bs.length = len →
              (waits → run = .next (waitAt s1 { acc := a, typ := .w, addr := n, len := len, data := bs }))
              ∧ (¬ waits → (memDec s1 a t n).1 = .ok → run = .next (((snoop a n len s1).store n bs).answer []))
              ∧ (¬ waits → ∀ g x, memDec s1 a t n = (.denied, g, x) → run = .next ((violation s1 g a .w n x).answer [] (refusalOf a .w)))
              ∧ (¬ waits → (memDec s1 a t n).1 = .unmapped → run = .next ((unmappedEv (raiseN 3) s1 a n).answer [])))
            ∧ (t ≠ .w →
              (waits → run = .next (waitAt s1 { acc := a, typ := t, addr := n, len := len, data := zeros, todo := [(n, len)] }))
              ∧ (¬ waits → (memDec s1 a t n).1 = .ok → run = .next (returnData s1 a ((List.range len).map fun i => mapByte s1 (n + i))))
              ∧ (¬ waits → ∀ g x, memDec s1 a t n = (.denied, g, x) → run = .next (returnData (violation s1 g a t n x) a zeros (refusalOf a t)))
              ∧ (¬ waits → (memDec s1 a t n).1 = .unmapped → run = .next (returnData (unmappedEv (raiseN 3) s1 a n) a zeros))))))))

/-! ### Event concentrator and desk cores (R320–R340) -/

/-- Software requests and hardware inputs (R328–R330, R338): a named enabled source becomes pending, or is counted where it already
was and the arbiter runs; CLRPEND clears it but where its level holds; others are ignored; an input sets a source as its mode says, and
numbers above 57 have no input. What follows is one arbitration, which changes the cores, and restarts the arbiter and the desk PLL where
they stood still (R325). While they stand still for THERMAL_SHUTDOWN a request has no effect, which is the model's reading (log 153). -/
def Obligations.EvcRequests : Prop :=
  (∀ s : State, { evcBack s (evcSettle s) with regs := s.regs } = s ∧ SameRegsBut evcRegs s (evcSettle s)
    ∧ (s.evcStop = false → (evcSettle s).regs = s.regs) ∧ (evcRuns s = false → evcSettle s = s))
  ∧ (∀ (a : Access) (v : Word) (s : State), evcRuns s = false →
    (Reaches s a .w EVC_SETPEND → exec (.evcSetpend a v) s = .next s) ∧ (Reaches s a .w EVC_CLRPEND → exec (.evcClrpend a v) s = .next s))
  ∧ (∀ (a : Access) (v : Word) (s : State), Reaches s a .w EVC_SETPEND → evcRuns s = true →
    let i := bitsOf v.toNat 0 10
    ((i = 0 ∨ 512 ≤ i ∨ srcPrio s i = 0) → exec (.evcSetpend a v) s = .next (evcSettle s))
    ∧ (1 ≤ i → i ≤ 511 → 1 ≤ srcPrio s i →
      ((s.src i).pending = false → exec (.evcSetpend a v) s = .next (evcSettle (s.setSrc i { s.src i with pending := true })))
      ∧ ((s.src i).pending = true → exec (.evcSetpend a v) s = .next (evcSettle (if evcDeaf s then s else s.inc EVC_MERGED)))))
  ∧ (∀ (a : Access) (v : Word) (s : State), Reaches s a .w EVC_CLRPEND → evcRuns s = true →
    let i := bitsOf v.toNat 0 10
    ((i = 0 ∨ 512 ≤ i ∨ srcPrio s i = 0) → exec (.evcClrpend a v) s = .next (evcSettle s))
    ∧ (1 ≤ i → i ≤ 511 → 1 ≤ srcPrio s i → ∃ t, exec (.evcClrpend a v) s = .next t
      ∧ t.src i = { s.src i with pending := srcLevel s i && (s.src i).input && !(s.src i).serv }
      ∧ (∀ j, j ≠ i → t.src j = s.src j) ∧ SameRegsBut evcRegs s t ∧ { evcBack s t with regs := s.regs, srcs := s.srcs } = s))
  ∧ (∀ (id : Fin 512) (level : Bool) (s : State),
    let i := id.val
    let e := s.src i
    ((i = 0 ∨ 58 ≤ i ∨ s.ctl.core = false) → exec (.evcSourceInput id level) s = .next s)
    ∧ (1 ≤ i → i ≤ 57 → s.ctl.core = true →
      (s.pwr.halted = true → exec (.evcSourceInput id level) s = .next (s.setSrc i { e with input := level }))
      ∧ (s.pwr.halted = false →
        let sets := decide (1 ≤ srcPrio s i) && (if srcLevel s i then level && !e.serv else level && !e.input)
        ∃ t, exec (.evcSourceInput id level) s = .next t ∧ t.src i = { e with input := level, pending := e.pending || sets }
          ∧ t.reg EVC_MERGED = (if sets = true ∧ srcLevel s i = false ∧ e.pending = true ∧ evcDeaf s = false then (s.inc EVC_MERGED).reg EVC_MERGED
              else s.reg EVC_MERGED)
          ∧ (∀ j, j ≠ i → t.src j = s.src j) ∧ SameRegsBut (EVC_MERGED :: evcRegs) s t
          ∧ { evcBack s t with regs := s.regs, srcs := s.srcs } = s)))

/-- Claims and ends-of-interrupt (R331, R335, R336): a claim takes the highest offered priority, the lowest ID of it, and its record
shows both; with none offered it returns 1023 after a signalled line, else 0. An end-of-interrupt of the top of the stack
completes that source, one of another ID is an error. While the EVC stands still for THERMAL_SHUTDOWN neither has an effect (log 153). -/
def Obligations.EvcService : Prop :=
  (∀ (s : State) (k i : Nat), twf (fun _ => ({} : Src)) s.srcs = true → claimOf s k = some i →
    offered s k i = true ∧ ∀ j, offered s k j = true → srcPrio s j < srcPrio s i ∨ srcPrio s j = srcPrio s i ∧ i ≤ j)
  ∧ (∀ (s : State) (k : Nat), claimOf s k = none ↔ ∀ j, offered s k j = false)
  ∧ (∀ (a : Access) (k : Fin 4) (v : Word) (s : State), evcRuns s = false →
    (Reaches s a .w (EVC_CORE_CLAIM k.val) → exec (.evcClaim a k v) s = .next s)
    ∧ (Reaches s a .w (EVC_CORE_EOI k.val) → exec (.evcEoi a k v) s = .next s))
  ∧ (∀ (a : Access) (k : Fin 4) (v : Word) (s : State), Reaches s a .w (EVC_CORE_CLAIM k.val) → evcRuns s = true →
    (∀ i, claimOf s k.val = some i → i < 1024 → ∃ t, exec (.evcClaim a k v) s = .next t
      ∧ t.src i = { s.src i with pending := false, serv := true, core := k.val } ∧ (∀ j, j ≠ i → t.src j = s.src j)
      ∧ (t.desk k.val).stack = (i, srcPrio s i) :: (s.desk k.val).stack
      ∧ t.bit (EVC_CORE_CLAIMED k.val) 0 = true ∧ t.fld (EVC_CORE_CLAIMED k.val) 1 10 = i ∧ t.fld (EVC_CORE_CLAIMED k.val) 11 5 = srcPrio s i
      ∧ t.fld (EVC_CORE_CLAIMED k.val) 16 16 = (s.fld (EVC_CORE_CLAIMED k.val) 16 16 + 1) % 2 ^ 16
      ∧ SameRegsBut (EVC_CORE_CLAIMED k.val :: evcRegs) s t ∧ { evcBack s t with regs := s.regs, srcs := s.srcs } = s)
    ∧ (claimOf s k.val = none → ∃ t, exec (.evcClaim a k v) s = .next t ∧ t.srcs = s.srcs ∧ (t.desk k.val).stack = (s.desk k.val).stack
      ∧ (t.desk k.val).signalled = false ∧ t.bit (EVC_CORE_CLAIMED k.val) 0 = true
      ∧ t.fld (EVC_CORE_CLAIMED k.val) 1 10 = (if (s.desk k.val).signalled then 1023 else 0)
      ∧ t.reg EVC_SPURIOUS = (if (s.desk k.val).signalled then (s.inc EVC_SPURIOUS).reg EVC_SPURIOUS else s.reg EVC_SPURIOUS)
      ∧ SameRegsBut (EVC_CORE_CLAIMED k.val :: EVC_SPURIOUS :: evcRegs) s t))
  ∧ (∀ (a : Access) (k : Fin 4) (v : Word) (s : State), Reaches s a .w (EVC_CORE_EOI k.val) → evcRuns s = true →
    let i := bitsOf v.toNat 0 10
    ((i = 0 ∨ i = 1023) → exec (.evcEoi a k v) s = .next (evcSettle s))
    ∧ (i ≠ 0 → i ≠ 1023 →
      (∀ e rest, (s.desk k.val).stack = e :: rest → e.1 = i → ∃ t, exec (.evcEoi a k v) s = .next t ∧ (t.desk k.val).stack = rest
        ∧ (t.src i).serv = false ∧ (t.src i).pending = ((s.src i).pending || (srcLevel s i && decide (1 ≤ srcPrio s i) && (s.src i).input))
        ∧ (∀ j, j ≠ i → t.src j = s.src j) ∧ SameRegsBut evcRegs s t ∧ { evcBack s t with regs := s.regs, srcs := s.srcs } = s)
      ∧ (((s.desk k.val).stack.map (·.1)).head? ≠ some i → exec (.evcEoi a k v) s = .next
        (raiseKey (evcSettle ((s.setDesk k.val { s.desk k.val with eoiErr := true }).inc EVC_EOI_ERR)) k.val evEoiMismatch 0 37 31 []))))

/-- Start and reset of cores (R323): a run bit that rises starts its core anew in machine mode and counts the start, one that falls empties
its core's stack, and a core whose bit stays goes on.
Sleep, wake and the timer (R324, R325, R338): WFI ends at once where mip & mie is not zero and else waits, asleep with wfi_stop; the
arbiter stops when all sleep under deep with no wake latch set and no LEVEL input high; the wake latch restarts a core's clock, and it
goes on, as after an expired timer, where mip & mie is not zero; mip shows the timer exactly while it is due. What its mie holds is a
core's own execution's (log 18).
AMO, LR, SC and FENCE (R320–R322): outside desk SRAM the atomics take a store/AMO access fault before any gate; in it they wait as other
accesses do, are refused with their violation and fault, or are done; another initiator's store to reserved bytes ends the reservation; a
FENCE waits for what it orders. What an AMO stores and that an SC
may fail at any time are presumed of RISC-V (log 117). -/
def Obligations.DeskCores : Prop :=
  (∀ (a : Access) (v : Word) (s : State), Reaches s a .w DSK_CTRL → evcRuns s = false → exec (.dskRunWrite a v) s = .next s)
  ∧ (∀ (a : Access) (v : Word) (s : State), Reaches s a .w DSK_CTRL → evcRuns s = true →
    ∃ t, exec (.dskRunWrite a v) s = .next t ∧ t.reg DSK_CTRL = (plainWrite s DSK_CTRL v).reg DSK_CTRL
      ∧ SameRegsBut (DSK_CTRL :: evcRegs ++ (List.range 4).map DSK_CORE_STATUS) s t ∧ { evcBack s t with regs := s.regs, srcs := s.srcs } = s
      ∧ ∀ k, k < 4 →
        let seen := fun (d : Desk) => t.desk k = { d with
          line := (t.desk k).line, signalled := (t.desk k).signalled, wake := (t.desk k).wake, wfi := (t.desk k).wfi }
        let fresh : Desk := { eoiErr := (s.desk k).eoiErr }
        (bitOf v.toNat k = true → s.bit DSK_CTRL k = false → seen fresh ∧ (t.desk k).wfi = false ∧ coreReset t k = false
          ∧ t.fld (DSK_CORE_STATUS k) 16 16 = (s.fld (DSK_CORE_STATUS k) 16 16 + 1) % 2 ^ 16 ∧ t.fld (DSK_CORE_STATUS k) 0 16 = s.fld (DSK_CORE_STATUS k) 0 16)
        ∧ (bitOf v.toNat k = false → s.bit DSK_CTRL k = true → seen fresh ∧ (t.desk k).wfi = false ∧ coreReset t k = true ∧ t.reg (DSK_CORE_STATUS k) = s.reg (DSK_CORE_STATUS k))
        ∧ (bitOf v.toNat k = s.bit DSK_CTRL k → seen (s.desk k) ∧ t.reg (DSK_CORE_STATUS k) = s.reg (DSK_CORE_STATUS k)))
  ∧ ((∀ (k : Fin 4) (s : State),
    let runs := evcRuns s = true
    let sees := fun (t : State) (d : Desk) => ∀ j, t.desk j = { (if j = k.val then d else s.desk j) with
      line := (t.desk j).line, signalled := (t.desk j).signalled, wake := (t.desk j).wake, wfi := (t.desk j).wfi }
    let canSleep := runs ∧ s.bit DSK_CTRL k.val = true ∧ (s.desk k.val).halted = false ∧ (s.desk k.val).wfi = false
    let m := Config.mieBits s.free
    let u := (s.setDesk k.val { s.desk k.val with mie := m }).draw
    (canSleep → ∃ t, exec (.wfiSleep k) s = .next t ∧ (mip s k.val &&& m ≠ 0 → t = u)
      ∧ (mip s k.val &&& m = 0 → sees t { s.desk k.val with mie := m, asleep := s.bit (DSK_CORE_CFG k.val) 0 }
        ∧ ((t.desk k.val).wfi = true ↔ s.bit (DSK_CORE_CFG k.val) 0 = true ∨ mip t k.val &&& m = 0)
        ∧ (t.evcStop = true ↔ s.bit DSK_CTRL 8 = true ∧ (∀ j, j < 4 → (t.desk j).asleep = true ∧ (t.desk j).wake = false)
          ∧ ∀ x ∈ s.srcs, ¬ (x.2.input = true ∧ srcLevel s x.1 = true ∧ 0 < srcPrio s x.1))
        ∧ SameRegsBut evcRegs s t ∧ { evcBack s t with regs := s.regs } = s.draw))
    ∧ (¬ canSleep → exec (.wfiSleep k) s = .next s)
    ∧ (let d := s.desk k.val
      let woken := fun (t : State) => sees t { d with asleep := false } ∧ t.evcStop = false
          ∧ (d.wfi = true → ((t.desk k.val).wfi = false ↔ mip t k.val &&& d.mie ≠ 0) ∧ ((t.desk k.val).wfi = false → (t.desk k.val).wake = false))
          ∧ SameRegsBut evcRegs s t ∧ { evcBack s t with regs := s.regs } = s
      (runs → d.asleep = true → d.wake = true → ∃ t, exec (.wakeLatch k) s = .next t ∧ woken t)
      ∧ ((¬ runs ∨ d.asleep = false ∨ d.wake = false) → exec (.wakeLatch k) s = .next s)
      ∧ (runs → d.wfi = true → timerDue s k.val = true → mip s k.val &&& d.mie ≠ 0 → ∃ t, exec (.machineTimerExpiry k) s = .next t ∧ woken t
        ∧ (bitOf d.mie 7 = true → (t.desk k.val).wfi = false))
      ∧ ((¬ runs ∨ d.wfi = false ∨ timerDue s k.val = false ∨ mip s k.val &&& d.mie = 0) → exec (.machineTimerExpiry k) s = .next s)
      ∧ (timerDue s k.val = true ↔
        0 ≤ (BitVec.ofNat 64 (s.now / 1000) - BitVec.ofNat 64 (s.pair (DSK_CORE_MTIMECMP_LO k.val) (DSK_CORE_MTIMECMP_HI k.val))).toInt)
      ∧ bitOf (mip s k.val) 7 = timerDue s k.val)))
  ∧ (∀ (a : Access) (c : CoreOp) (t : AccType) (addr : BitVec 40) (len : Nat) (data : Bytes) (s : State), s.ctl.core = true → fromDesk a = true →
    c ≠ .plain →
    let s1 := modeDrawn s a
    let n := addr.toNat
    let h : HeldAcc := { acc := a, typ := t, addr := n, len := len, data := sliceB data 0 len, core := c }
    let run := exec (.initiatorMemoryAccess a ⟨false, c, t⟩ addr len data) s
    let old := s.load n len
    let k := a.src.toNat - 8
    (canAccess s1 a false n = false → run = .next s)
    ∧ (canAccess s1 a false n = true →
      (∀ pred succ, c = .fence pred succ → run = .next (if mustWait s1 { h with len := 0, data := [] } then waitAt s1 { h with len := 0, data := [] } else s1.answer []))
      ∧ ((∀ pred succ, c ≠ .fence pred succ) →
        (targetOf s1 n ≠ 6 → run = .next (s1.answer [] (some .storeFault)))
        ∧ (targetOf s1 n = 6 → partWaits s1 h (n, len) = true → run = .next (waitAt s1 h))
        ∧ (targetOf s1 n = 6 → partWaits s1 h (n, len) = false →
          (∀ op aq rl, c = .amo op aq rl →
            (∀ g x, memDec s1 a .r n = (.denied, g, x) → run = .next ((violation s1 g a .r n x).answer [] (some .storeFault)))
            ∧ ((memDec s1 a .r n).1 = .ok → ∀ g x, memDec s1 a .w n = (.denied, g, x) → run = .next ((violation s1 g a .w n x).answer [] (some .storeFault)))
            ∧ ((memDec s1 a .r n).1 = .ok → (memDec s1 a .w n).1 = .ok →
              run = .next (((snoop a n len s1).storeN n len (amoValue op len (leNat old) (leNat (sliceB data 0 len)))).answer old)))
          ∧ (∀ aq rl, c = .lr aq rl →
            (∀ g x, memDec s1 a .r n = (.denied, g, x) → run = .next ((violation s1 g a .r n x).answer [] (some .loadFault)))
            ∧ ((memDec s1 a .r n).1 = .ok → run = .next ((s1.setDesk k { s1.desk k with resv := some (n, len) }).answer old)))
          ∧ (∀ aq rl, c = .sc aq rl →
            (∀ g x, memDec s1 a .w n = (.denied, g, x) → run = .next ((violation s1 g a .w n x).answer [] (some .storeFault)))
            ∧ ((memDec s1 a .w n).1 = .ok →
              let u := (s1.setDesk k { s1.desk k with resv := none }).draw
              ((s1.desk k).resv ≠ some (n, len) → run = .next (u.answer (leBytes len 1)))
              ∧ ((s1.desk k).resv = some (n, len) → run = .next (if Config.scSucceeds s1.free then
                ((snoop a n len u).store n (sliceB data 0 len)).answer (leBytes len 0) else u.answer (leBytes len 1)))))))))
  ∧ (∀ (a : Access) (n len : Nat) (s : State) (k : Nat), k < 4 →
    (snoop a n len s).desk k = (match (s.desk k).resv with
      | some r => if a.src.toNat ≠ 8 + k ∧ r.1 < n + len ∧ n < r.1 + r.2 then { s.desk k with resv := none } else s.desk k
      | none => s.desk k)
    ∧ { snoop a n len s with desks := s.desks } = s)

/-- R337: a run bit that falls empties its core's stack, and its sources complete as by ends-of-interrupt: in service clears, and a LEVEL
source whose input is high becomes pending; other sources stay. With one core's bit falling alone, from the top of the stack down. -/
def Obligations.DeskReset : Prop :=
  ∀ (a : Access) (v : Word) (s : State), Reaches s a .w DSK_CTRL → evcRuns s = true →
    let falls := fun (k : Nat) => k < 4 ∧ bitOf v.toNat k = false ∧ s.bit DSK_CTRL k = true
    (∃ t, exec (.dskRunWrite a v) s = .next t ∧ (∀ k, falls k → (t.desk k).stack = [] ∧ ∀ e ∈ (s.desk k).stack,
        t.src e.1 = { s.src e.1 with serv := false, core := 0
                                     pending := (s.src e.1).pending || (srcLevel s e.1 && decide (1 ≤ srcPrio s e.1) && (s.src e.1).input) })
      ∧ (∀ i, (∀ k, falls k → i ∉ (s.desk k).stack.map (·.1)) → t.src i = s.src i))
    ∧ (∀ k, falls k → (∀ j, j < 4 → j ≠ k → bitOf v.toNat j = s.bit DSK_CTRL j) → exec (.dskRunWrite a v) s =
      let u := (s.desk k).stack.foldl (fun s e => srcComplete s e.1) (plainWrite s DSK_CTRL v)
      .next (evcSettle (evcSettle (u.setDesk k { signalled := (s.desk k).signalled, eoiErr := (s.desk k).eoiErr }))))

/-! ### The Triginal Chain (R341–R375) -/

/-- Bringing a link up and down (R347, R348, R351, R470, R471): CHN_Pp_CTRL ends a port in any state or trains one that is DOWN; a lane that
sees its training blocks, at a rate and with signal, is locked, and four locked lanes align; aligned lanes are READY, or DOWN as CROSSED;
the ready bit makes a READY port UP; a lost lock ends an UP port; a slip moves one lane by one bit. Where a port's state is another,
nothing happens. A port that goes DOWN counts what waited, and one that was UP frees the buffers
that held it, ends what it sent and cuts what went through; with which status a CHN_SEND ends that it had not sent is open (log 161). -/
def Obligations.ChainLinks : Prop :=
  (∀ (a : Access) (p : Fin 2) (v : Word) (s : State), Reaches s a .w (CHN_P_CTRL p.val) →
    let u := plainWrite s (CHN_P_CTRL p.val) v
    let both := fun (t : State) => exec (.chnTrain a p v) s = .next t ∧ exec (.chnDown a p v) s = .next t
    (bitOf v.toNat 3 = false → bitOf v.toNat 2 = true → (s.port p.val).state = .down →
      ∃ t, both t ∧ t.port p.val = { s.port p.val with state := .train, cause := 0, locked := 0, skew := 0 }
        ∧ (∀ l, l < 4 → t.fld (QD_LANE_STATE (5 + p.val) l) 4 3 = 0)
        ∧ (∀ o, o ≠ p.val → t.port o = s.port o) ∧ t.reg (CHN_P_CTRL p.val) = u.reg (CHN_P_CTRL p.val)
        ∧ t.outbox = s.outbox ++ [trainingOut s p.val false]
        ∧ SameRegsBut (CHN_P_CTRL p.val :: (List.range 4).map (QD_LANE_STATE (5 + p.val))) s t
        ∧ { t with regs := s.regs, chain := s.chain, outbox := s.outbox } = s)
    ∧ (bitOf v.toNat 3 = false → (bitOf v.toNat 2 = false ∨ (s.port p.val).state ≠ .down) → both u)
    ∧ (bitOf v.toNat 3 = true → both (if (s.port p.val).state = .down then u else portDown u p.val 3)))
  ∧ (∀ (s : State) (p c : Nat), p < 2 →
    let q := s.port p
    let u := q.queue.foldl (fun s _ => s.inc (CHN_P_DEADEND p)) (s.setPort p { state := .down, cause := c, delay := q.delay, delayAt := q.delayAt })
    (q.state ≠ .up → portDown s p c = u)
    ∧ (q.state = .up →
      let w := [0, 1, 2, 3].foldl (fun s c => cutClass s p c) (dropHeld u p q)
      let mine := fun (x : Nat × Nat × BitVec 16 × Option (BitVec 32)) => x.2.1 == p
      portDown s p c = nextTransfers (evcPulse (raiseKey (endSends { w with chain := { w.chain with sends := s.chain.sends.filter fun x => !mine x } }
        ((s.chain.sends.filter mine).map (·.1)) lostSend) p evChnLinkDown 1 39 31 [(p, 4), (c, 8)]) 56)))
  ∧ (∀ (p : Fin 2) (l : Fin 4) (s : State), let q := s.port p.val
    let hears := s.ctl.ring = true ∧ q.state ≠ .down ∧ q.state ≠ .up ∧ s.fld (CHN_P_CTRL p.val) 0 2 ≠ 0 ∧ laneDeaf s (5 + p.val) l.val = false
    let m := q.locked ||| BitVec.ofNat 4 (2 ^ l.val)
    (hears → exec (.wordLock p l) s = .next (s.setPort p.val { q with locked := m, state := if q.state = .train ∧ m = 15 then .align else q.state }))
    ∧ (¬ hears → exec (.wordLock p l) s = .next s))
  ∧ (∀ (p : Fin 2) (skew : BitVec 4) (side : Bool) (s : State), let q := s.port p.val
    let aligns := s.ctl.ring = true ∧ q.state = .align ∧ q.locked = 15
    (aligns → exec (.laneDeskew p side skew) s = .next (if side then portDown s p.val 4 else
      (s.setPort p.val { q with state := .ready, skew := skew }).emit (trainingOut s p.val true)))
    ∧ (¬ aligns → exec (.laneDeskew p side skew) s = .next s))
  ∧ (∀ (p : Fin 2) (s : State), let q := s.port p.val
    let ready := s.ctl.ring = true ∧ q.state = .ready ∧ q.locked = 15
    let lat := chainLat (s.fld (CHN_P_CTRL p.val) 0 2)
    let u := s.setPort p.val { state := .up, locked := q.locked, skew := q.skew, delay := q.delay, delayAt := q.delayAt }
    (ready → exec (.readyBitReceived p) s = .next (sendAck (evcPulse (raiseKey (if s.ctl.core = true then loadLat u (8 + p.val) lat.1 lat.2 else u)
      p.val evChnLinkUp 0 39 31 [(p.val, 4)]) 56) p.val))
    ∧ (¬ ready → exec (.readyBitReceived p) s = .next s))
  ∧ (∀ (p : Fin 2) (l : Fin 4) (s : State), let q := s.port p.val
    (s.ctl.ring = true → q.state = .up → exec (.lockLost p l) s = .next (portDown s p.val 1))
    ∧ (s.ctl.ring = true → q.state ≠ .up → q.state ≠ .down →
      exec (.lockLost p l) s = .next (s.setPort p.val { q with locked := q.locked &&& ~~~ BitVec.ofNat 4 (2 ^ l.val) }))
    ∧ ((s.ctl.ring = false ∨ q.state = .down) → exec (.lockLost p l) s = .next s))
  ∧ (∀ (a : Access) (p : Fin 2) (v : Word) (s : State), Reaches s a .w (CHN_P_SLIP p.val) →
    let r := QD_LANE_STATE (5 + p.val) (bitsOf v.toNat 0 2)
    ∃ t, exec (.chnSlip a p v) s = .next t
      ∧ t.fld r 16 7 = (s.fld r 16 7 + 1) % (if s.bit (QD_CFG (5 + p.val)) 3 = true then 64 else 66) ∧ t.fld r 0 16 = s.fld r 0 16
      ∧ SameRegsBut [r] s t ∧ { t with regs := s.regs } = s)

/-- Replay, credits and acknowledgement (R346, R349–R351, R372): a bad flit is NAKed once and again each 1 µs, a poisoned one takes its
number, what of either was going on already leaves poisoned, a bad link-control flit is dropped and counted, a NAK or 4 µs of silence
resends, the ninth time ends the port; an acknowledgement frees what it covers, ends the CHN_SENDs it
covers, and with its credits lets waiting messages start; 200 ns after the last one an acknowledgement is due. Nothing happens at a port
that is not UP, and before its time. That times are counted by the island's clock is the model's choice (log 119). -/
def Obligations.ChainReplay : Prop :=
  (∀ (p : Fin 2) (s : State), chainUp s p.val = true →
    let q := s.port p.val
    let nak := fun (u : State) => lctrl (u.setPort p.val { q with nakWait := true, nakAt := s.island }) p.val 1 q.rxSeq.toNat
    let ack := fun (u : State) => lctrl (u.setPort p.val { u.port p.val with acked := (u.port p.val).rxSeq, sentAt := s.island }) p.val 0
      ((u.port p.val).rxSeq.toNat + creditWord (u.port p.val) * 2 ^ 32)
    let bad := s.inc (CHN_P_CRC_ERR p.val)
    (exec (.flitCheckFail p .control) s = .next bad)
    ∧ (∀ on : Option (BitVec 4 × Bytes), exec (.flitCheckFail p (.failed on)) s = .next (poisonOn (if q.nakWait then bad else nak bad) p.val on))
    ∧ (exec (.nakResend p) s = .next (if q.nakWait = true ∧ q.nakAt + 1000 ≤ s.island then nak s else s))
    ∧ (∀ (c : Fin 4) (on : Option (BitVec 4 × Bytes)), let u := ((s.setPort p.val { q with
          rxSeq := q.rxSeq + 1, recv := q.recv.set c.val (q.recv.getD c.val 0 + 1), nakWait := false }).inc (CHN_P_POISON p.val)).inc (CHN_P_RX_FLITS p.val)
      exec (.flitCheckFail p (.poisoned c on)) s = .next (poisonOn (if 16 ≤ (q.rxSeq + 1 - q.acked).toNat then ack u else u) p.val on))
    ∧ (∀ n, exec (.nakRx p n) s = .next (replay s p.val (q.outst.dropWhile fun f => f.1 != n)))
    ∧ exec (.replayTimeout p) s = .next (if q.ackAt + 4000 ≤ s.island then replay s p.val q.outst else s)
    ∧ exec (.ackDue p) s = .next (if q.rxSeq ≠ q.acked ∧ q.sentAt + 200 ≤ s.island then ack s else s))
  ∧ (∀ (p : Fin 2) (x : BadFlit) (n : BitVec 32) (cr : BitVec 64) (c : Fin 4) (s : State), chainUp s p.val = false →
    exec (.flitCheckFail p x) s = .next s ∧ exec (.nakResend p) s = .next s ∧ exec (.nakRx p n) s = .next s ∧ exec (.replayTimeout p) s = .next s
    ∧ exec (.ackDue p) s = .next s ∧ exec (.ackCreditRx p n cr) s = .next s ∧ exec (.cutRx p c) s = .next s)
  ∧ (∀ (s : State) (p : Nat) (fs : List (BitVec 32 × BitVec 4 × Bytes)),
    (fs = [] → replay s p fs = s)
    ∧ (fs ≠ [] → 8 ≤ (s.port p).tries → replay s p fs = portDown s p 2)
    ∧ (fs ≠ [] → (s.port p).tries < 8 → replay s p fs = { (s.setPort p { s.port p with tries := (s.port p).tries + 1, ackAt := s.island }).inc (CHN_P_REPLAY p) with
      outbox := s.outbox ++ fs.map fun f => flitOut s p f.1 f.2.1 f.2.2 }))
  ∧ (∀ (s : State) (p : Nat) (code : BitVec 4) (bs : Bytes), poisonOn s p none = s ∧
    let o := 1 - p
    let q := s.port o
    let full := bs ++ leBytes 4 (flitCrc o q.txSeq code bs ^^^ 0xFFFFFFFF)
    let c := code.toNat / 4
    let v := (s.setPort o { q with
      txSeq := q.txSeq + 1, outst := q.outst ++ [(q.txSeq, code, full)], ackAt := if q.outst.isEmpty then s.island else q.ackAt
      used := q.used.set c (q.used.getD c 0 + 1) }).inc (CHN_P_TX_FLITS o)
    (q.state = .up → q.outst.length < 128 → poisonOn s p (some (code, bs)) = { v with outbox := s.outbox ++ [flitOut s o q.txSeq code full] })
    ∧ ((q.state ≠ .up ∨ 128 ≤ q.outst.length) → poisonOn s p (some (code, bs)) = s))
  ∧ (∀ (s : State) (p k v : Nat), k ≠ 4 → let bs := (List.range 28).map (Config.lctrlByte k v)
    lctrl s p k v = { s with outbox := s.outbox ++ [Out.lctrl p k (BitVec.ofNat 128 v)
      (wireBlocks s p (laneBlocks 1 (bs ++ leBytes 4 (flitCrc p 0 1 bs))))] })
  ∧ (∀ (s : State) (p : Nat) (n : BitVec 32),
    let q := s.port p
    let rest := q.outst.filter fun f => seqGe f.1 n
    let moved := seqGe q.txSeq n = true ∧ rest.length < q.outst.length
    let covered := fun (x : Nat × Nat × BitVec 16 × Option (BitVec 32)) => x.2.1 == p && x.2.2.2.any fun l => !seqGe l n
    (¬ moved → ackTo s p n = s)
    ∧ (moved → let u := s.setPort p { q with outst := rest, tries := 0, ackAt := s.island }
      ackTo s p n = endSends { u with chain := { u.chain with sends := s.chain.sends.filter fun x => !covered x } }
        ((s.chain.sends.filter covered).map (·.1)) stComplete))
  ∧ (∀ (p : Fin 2) (n : BitVec 32) (cr : BitVec 64) (s : State), chainUp s p.val = true →
    let u := ackTo s p.val n
    let q := u.port p.val
    let v := u.setPort p.val { q with credit := (List.range 4).map fun c => creditAfter (q.credit.getD c 0) (bitsOf cr.toNat (16 * c) 16) }
    exec (.ackCreditRx p n cr) s = .next (nextTransfers (pump 129 v p.val))
    ∧ (q.queue = [] → q.cur = [] → s.chain.txF = [] → exec (.ackCreditRx p n cr) s = .next v))
  ∧ (∀ (p : Fin 2) (c : Fin 4) (s : State), chainUp s p.val = true →
    exec (.cutRx p c) s = .next (cutClass (raiseKey (s.inc (CHN_P_CUT p.val)) p.val evChnCut 1 39 31 [(p.val, 4)]) p.val c.val))

/-- The way of a message (R349, R350, R356, R358–R361, R76): its flits are taken one by one, with an acknowledgement every 16th; one of this
unit's own is dropped as returned, a broadcast is delivered unless its class has seen a later one of that origin, a unicast of another
epoch is stale, one to this address is delivered, but one of a reserved type dropped and counted; what is not for this unit goes on by
the other port with one more hop, holding its receive buffer until it leaves, TIME with its residence between the package balls and the
delay of the link it came by. -/
def Obligations.ChainDelivery : Prop :=
  (∀ (s : State) (p : Nat) (m : Msg), (chainUp s p = false → deliver s p m = (s, false)) ∧ (chainUp s p = true →
    let u := account s p m
    let own : Bool := m.origin.toNat == s.physAddr && s.bit CHN_ADDR 3
    let mine := s.bit CHN_ADDR 3 = true ∧ m.dst.toNat = s.physAddr
    let known := 1 ≤ m.kind.toNat ∧ m.kind.toNat ≤ 10
    let give := fun (w : State) => deliver s p m = if known then (w, true) else (w.inc CHN_NODEST, false)
    (own = true → deliver s p m = (u.inc CHN_RET, false))
    ∧ (own = false → m.bcast = true → (m.kind = 2 → deliver s p m = (u, true))
      ∧ (m.kind ≠ 2 → isLater u m = true → give (noteLast u m)) ∧ (m.kind ≠ 2 → isLater u m = false → deliver s p m = (u, false)))
    ∧ (own = false → m.bcast = false → (m.epoch.toNat ≠ s.fld CHN_ADDR 4 4 → deliver s p m = (u.inc CHN_STALE, false))
      ∧ (m.epoch.toNat = s.fld CHN_ADDR 4 4 → (mine → give u) ∧ (¬ mine → deliver s p m = (u, false))))))
  ∧ (∀ (s : State) (p : Nat) (m : Msg) (free : Bool),
    account s p m free = (List.range m.flits).foldl (fun w _ => takeFlit m.cls free p w) s ∧ account s p m = account s p m true)
  ∧ (∀ (s : State) (p c : Nat) (free : Bool), let q := s.port p
    let u := (s.setPort p { q with
      rxSeq := q.rxSeq + 1, recv := if free then q.recv.set c (q.recv.getD c 0 + 1) else q.recv, nakWait := false }).inc (CHN_P_RX_FLITS p)
    takeFlit c free p s = if 16 ≤ (q.rxSeq + 1 - q.acked).toNat then sendAck u p else u)
  ∧ (∀ (p : Fin 2) (m : Msg) (d : BitVec 64) (s : State),
    let goesOn := chainUp s p.val = true ∧ m.kind ≠ 1 ∧ (m.bcast = true ∨ m.dst.toNat ≠ s.physAddr ∨ s.bit CHN_ADDR 3 = false)
    let u := fun (free : Bool) => if m.bcast = true then s else account s p.val m free
    let way : Way := if m.bcast = true then .passed else .held
    let own : Bool := m.origin.toNat == s.physAddr && s.bit CHN_ADDR 3
    let n : Msg := { m with hops := m.hops + 1 }
    (¬ goesOn → exec (.messageForward p m d) s = .next s)
    ∧ (goesOn → (own = true ∨ 6 ≤ m.hops.toNat) → exec (.messageForward p m d) s = .next ((u true).inc CHN_RET))
    ∧ (goesOn → own = false → m.hops.toNat < 6 → m.bcast = false → m.epoch.toNat ≠ s.fld CHN_ADDR 4 4 →
      exec (.messageForward p m d) s = .next ((u true).inc CHN_STALE))
    ∧ (goesOn → own = false → m.hops.toNat < 6 → (m.bcast = true ∨ m.epoch.toNat = s.fld CHN_ADDR 4 4) →
      (m.kind ≠ 2 → exec (.messageForward p m d) s = .next (portSend (u false) (1 - p.val) way n))
      ∧ (m.kind = 2 → exec (.messageForward p m d) s = .next (portSend (u false) (1 - p.val) way
        (setH n 18 8 (unsigned 64 (signed 64 (n.hN 18 8) + (d.toNat : Int) + ((txLat s (1 - p.val) + rxLat s p.val : Nat) : Int) * 256
          + (s.port p.val).delay * 256)))))))

/-- Time over the chain (R76, R78, R361, R362, R385): each 1 ms a delay request goes out, and its answer gives the link delay; the root
sends TIME once in each whole millisecond of its timebase; TIME sets the chain time hold, and on the followed port posts the offset, the
delay with its age, and the hops. Where a port is not UP, a message is another or before the time, nothing follows. -/
def Obligations.ChainTime : Prop :=
  (∀ (p : Fin 2) (s : State),
    let q := s.port p.val
    let due := ∀ t ∈ q.pdlyAt, t + 1000000 ≤ s.island
    (chainUp s p.val = true → due → exec (.pdlyReqSend p) s =
      .next (lctrl (s.setPort p.val { q with reqAt := some s.tbase.val, pdlyOut := q.pdlyOut + 1, pdlyAt := some s.island }) p.val 2 0))
    ∧ ((chainUp s p.val = false ∨ ¬ due) → exec (.pdlyReqSend p) s = .next s)
    ∧ (∀ t : BitVec 32, exec (.pdlyReqRx p t) s = .next (if chainUp s p.val then
        lctrl s p.val 3 (t.toNat + txLat s p.val + rxLat s p.val) else s))
    ∧ (∀ t e : BitVec 32, (chainUp s p.val = true → q.reqAt.isSome = true → exec (.pdlyRespRx p t e) s = .next (s.setPort p.val { q with
          delay := ((e.toNat : Int) - txLat s p.val - rxLat s p.val - t.toNat) / 2 + chainAsym s p.val, delayAt := some s.island, reqAt := none }))
      ∧ ((chainUp s p.val = false ∨ q.reqAt = none) → exec (.pdlyRespRx p t e) s = .next s)))
  ∧ (∀ s : State, let root := s.ctl.ring = true ∧ s.ctl.core = true ∧ s.bit TB_CHN_CTRL 0 = true ∧ s.bit TB_CHN_CTRL 1 = true
    (root → s.chain.timeMs ≠ some (s.now / 1000000) →
      exec .timeSend s = .next (broadcast { s with chain := { s.chain with timeMs := some (s.now / 1000000) } } 2 0 []))
    ∧ ((¬ root ∨ s.chain.timeMs = some (s.now / 1000000)) → exec .timeSend s = .next s))
  ∧ (∀ (p : Fin 2) (m : Msg) (i : BitVec 128) (s u : State) (here : Bool), deliver s p.val m = (u, here) →
    let root : Int := (m.hN 8 8 : Int) * 2 ^ 16 + (m.hN 16 2 : Int) + signed 64 (m.hN 18 8) + (u.port p.val).delay * 256
    let w : State := { u with chain := { u.chain with hold := some (BitVec.ofInt 128 (root * 2 ^ 48), u.island) } }
    let follows := u.ctl.core = true ∧ u.bit TB_CHN_CTRL 0 = true ∧ u.bit TB_CHN_CTRL 1 = false ∧ u.fld TB_CHN_CTRL 2 1 = p.val
    ((here = false ∨ m.kind ≠ 2 ∨ m.bcast = false) → exec (.timeRx p m i) s = .next u)
    ∧ (here = true → m.kind = 2 → m.bcast = true → (¬ follows → exec (.timeRx p m i) s = .next w)
      ∧ (follows → ∃ t, exec (.timeRx p m i) s = .next t ∧ t.chain = w.chain
        ∧ t.pair TB_CHN_OFFSET_LO TB_CHN_OFFSET_HI = unsigned 64 ((((i.toNat / 2 ^ 48 : Nat) : Int) - (rxLat u p.val * 256 : Nat) - root) / 2 ^ 16)
        ∧ t.reg TB_CHN_DELAY = BitVec.ofInt 32 (u.port p.val).delay ∧ t.bit TB_CHN_MEAS_STATUS 0 = true
        ∧ t.fld TB_CHN_MEAS_STATUS 1 3 = (m.hops.toNat + 1) % 8 ∧ t.tbase = { u.tbase with measAt := some (BitVec.ofNat 64 u.now -
          (match (u.port p.val).delayAt with | some at_ => BitVec.ofNat 64 (u.island - at_) | none => 0)) }
        ∧ SameRegsBut ([TB_CHN_OFFSET_LO, TB_CHN_OFFSET_HI, TB_CHN_DELAY, TB_CHN_MEAS_STATUS, EVC_MERGED] ++ evcRegs) u t
        ∧ { evcBack u t with regs := u.regs, chain := u.chain, tbase := u.tbase, srcs := u.srcs } = u)))

/-- The units of the ring (R354–R358, R369, R377, R380): a holder of an ID shows in CHN_MAP, a second one cannot become it; HELLO goes out
every 1 ms and is noted; a watched unit that falls silent is lost, one heard again resumed; an enumeration gives this unit address 0 and
a new epoch, others take the number they receive and send it on with the next, and one without a number left records it; its end is a
result record and the routes. A write of CHN_VAULT that turns acceptance on or changes its origin zeroes the vault. How routes follow
from the ports of HELLOs is the model's (log 40). -/
def Obligations.ChainUnits : Prop :=
  (∀ (a : Access) (v : Word) (s : State), Reaches s a .w CHN_LOGICAL →
    let id := bitsOf v.toNat 0 3
    let taken := bitOf v.toNat 3 = true ∧ s.bit CHN_MAP (4 * id + 3) = true ∧ (s.bit CHN_ADDR 3 = false ∨ s.fld CHN_MAP (4 * id) 3 ≠ s.physAddr)
    (taken → exec (.chnLogicalWrite a v) s = .next (accessEv s evAccessState a CHN_LOGICAL))
    ∧ (¬ taken → exec (.chnLogicalWrite a v) s = .next (mapUpdate (plainWrite s CHN_LOGICAL v)))
    ∧ (¬ taken → bitOf v.toNat 3 = true → s.bit CHN_ADDR 3 = true → s.chain.peers = [] →
      ∃ t, exec (.chnLogicalWrite a v) s = .next t ∧ t.logicalId = id ∧ t.holder = true ∧ t.fld CHN_MAP (4 * id) 4 = s.physAddr + 8
        ∧ (∀ j, j < 8 → j ≠ id → t.fld CHN_MAP (4 * j) 4 = 0) ∧ SameRegsBut [CHN_LOGICAL, CHN_MAP] s t ∧ { t with regs := s.regs, chain := s.chain } = s))
  ∧ (∀ s : State, let due := s.ctl.ring = true ∧ s.bit CHN_ADDR 3 = true ∧ ∀ t ∈ s.chain.helloAt, t + 1000000 ≤ s.island
    let u := broadcast s 5 (hput 8 1 s.logicalId + hput 9 1 (Bool.nat s.holder) + hput 10 1 s.ctl.mode.code + hput 12 4 s.chain.hello.toNat) []
    (due → exec .helloSend s = .next { u with chain := { u.chain with hello := u.chain.hello + 1, helloAt := some u.island } })
    ∧ (¬ due → exec .helloSend s = .next s))
  ∧ (∀ (p : Fin 2) (m : Msg) (s u : State) (here : Bool), deliver s p.val m = (u, here) →
    let o := m.origin.toNat
    let heard := m.kind = 5 ∧ chainUp u p.val = true ∧ (o ≠ u.physAddr ∨ u.bit CHN_ADDR 3 = false)
    let w := u.setPeer o { u.peer o with ports := (u.peer o).ports ||| BitVec.ofNat 2 (2 ^ p.val) }
    (¬ heard → exec (.helloRx p m) s = .next u)
    ∧ (heard → here = false → exec (.helloRx p m) s = .next w)
    ∧ (heard → here = true →
      let x := w.setPeer o { w.peer o with logical := m.h8 8 % 8, holder := bitOf (m.h8 9) 0, mode := m.h8 10 % 8, heard := some u.island, epoch := m.epoch.toNat }
      let y := mapUpdate (if u.bit CHN_HELLO_LOST o = true ∧ (u.peer o).heard = none then raiseKey x o evHelloResumed 0 39 31 [(o, 3)] else x)
      exec (.helloRx p m) s = .next (if y.chain.toRoute = true ∧ y.chain.enumAt + 5000000 ≤ y.island ∧ y.chain.enumOn = false then loadRoute y else y)))
  ∧ (∀ (o : Fin 8) (s : State),
    let lost := s.ctl.ring = true ∧ s.bit CHN_HELLO_WATCH o.val = true ∧ s.bit CHN_HELLO_LOST o.val = false
      ∧ ∀ t ∈ (s.peer o.val).heard, t + 1000000 * s.fld CHN_HELLO_TO 0 10 ≤ s.island
    (lost → exec (.helloTimeout o) s = .next (evcInput (raiseKey ((s.setBit CHN_HELLO_LOST o.val true).setPeer o.val { s.peer o.val with heard := none })
      o.val evHelloTimeout 1 39 31 [(o.val, 3), ((s.peer o.val).logical, 3)]) 55 true))
    ∧ (¬ lost → exec (.helloTimeout o) s = .next s))
  ∧ (∀ (a : Access) (v : Word) (s : State), Reaches s a .w CHN_CMD →
    (bitOf v.toNat 0 = false → exec (.chnEnum a v) s = .next s)
    ∧ (bitOf v.toNat 0 = true → bitOf s.straps.toNat 3 = false → exec (.chnEnum a v) s = .next (accessEv s evAccessState a CHN_CMD))
    ∧ (bitOf v.toNat 0 = true → bitOf s.straps.toNat 3 = true → ∃ t, exec (.chnEnum a v) s = .next t ∧ t.chain.enumOn = true ∧ t.chain.west = false
      ∧ t.chain.enumAt = s.island ∧ t.reg CHN_ADDR = BitVec.ofNat 32 (8 + 16 * ((s.fld CHN_ADDR 4 4 + 1) % 16))
      ∧ t.fld CHN_ENUM_STATUS 0 16 = 0 ∧ t.fld CHN_ENUM_STATUS 16 16 = s.fld CHN_ENUM_STATUS 16 16
      ∧ (s.chain.peers = [] → t.mem = s.mem ∧ t.jobs = s.jobs ∧ t.cpls = s.cpls)))
  ∧ (∀ (p : Fin 2) (m : Msg) (s : State),
    let u := account s p.val m
    let k := m.h8 8
    let west := bitOf (m.h8 9) 0
    let back := bitOf s.straps.toNat 3 = true ∧ m.epoch.toNat = s.fld CHN_ADDR 4 4 ∧ m.origin = 0
    let taken := mapUpdate (takeAddr u k m.epoch.toNat)
    ((chainUp s p.val = false ∨ m.kind ≠ 1) → exec (.enumRx p m) s = .next s)
    ∧ (chainUp s p.val = true → m.kind = 1 →
      (back → west = false → p = 0 → s.chain.enumOn = true → s.chain.west = false → exec (.enumRx p m) s =
        .next (raiseKey (({ u with chain := { u.chain with enumOn := false, toRoute := false } }.resultDone CHN_ENUM_STATUS
          (Bool.nat (decide (8 < k)) * 2 + k % 16 * 4 + (k - 1) % 8 * 64)).setFld CHN_ROUTE 0 8 (closedRoute 0 (Nat.max k 1))) 0 evEnumDone 0 39 31 [(0, 3)]))
      ∧ (back → (west = true ∨ p = 1 ∨ s.chain.enumOn = false ∨ s.chain.west = true) → exec (.enumRx p m) s = .next u)
      ∧ (¬ back → west = false → p = 0 → let v := if k < 8 then taken else enumRefused u k
        exec (.enumRx p m) s = .next (if (v.port 1).state = .up then portSend v 1 .passed { setH m 8 1 (k + 1) with hops := m.hops + 1 } else v))
      ∧ (¬ back → west = true → p = 1 → exec (.enumRx p m) s = .next (if m.h8 10 ≤ k then
          (if (taken.port 0).state = .up then portSend taken 0 .passed { setH m 8 1 (k - 1) with hops := m.hops + 1 } else taken)
        else enumRefused u k))
      ∧ (¬ back → (west = true ↔ p = 0) → exec (.enumRx p m) s = .next u)))
  ∧ (∀ (s : State) (k e : Nat), let t := takeAddr s k e
    t.reg CHN_ADDR = BitVec.ofNat 32 (k + 8 + 16 * e) ∧ t.chain.toRoute = true ∧ t.chain.enumAt = s.island ∧ SameRegsBut [CHN_ADDR] s t
      ∧ { t with regs := s.regs, chain := s.chain } = s)
  ∧ (∀ (s : State) (k : Nat), enumRefused s k = raiseKey (s.setBit CHN_ENUM_STATUS 2 true) (k % 8) evEnumOverflow 2 39 31 [(k, 3)])
  ∧ (∀ s : State, let due := s.ctl.ring = true ∧ s.chain.enumOn = true ∧ s.chain.enumAt + 2000000 ≤ s.island
    let e := (heardSince s).foldl Nat.max 0
    let w := (heardSince s).filter fun a => decide (s.chain.eastN < a)
    (due → s.chain.west = false → exec .enumTimeout s = .next (sendEnum { s with chain := { s.chain with west := true, eastN := e } } 0 7 true (e + 1)))
    ∧ (due → s.chain.west = true → exec .enumTimeout s = .next (enumDone s true false (1 + s.chain.eastN + w.length) s.chain.eastN (w.foldl (fun v a => v + 2 ^ a) 0)))
    ∧ (¬ due → exec .enumTimeout s = .next s))
  ∧ (∀ (a : Access) (v : Word) (s : State), Reaches s a .w CHN_VAULT →
    let u := plainWrite s CHN_VAULT v
    let new := u.reg CHN_VAULT
    exec (.chnVaultWrite a v) s = .next (if bitOf new.toNat 0 = true ∧ new ≠ s.reg CHN_VAULT then
      { u with mem := s.mem.filter (fun x => !inVault x.1), rdn := { s.rdn with zeroing := true } } else u))

/-- What arrives (R207, R209, R210, R363, R365, R367, R368, R370–R372, R380, R388, R309): READY joins the master's reports; COMMIT arms, or
splits where it is late, also for the boundary that passed last; CTRL becomes a ring entry; fragments and band messages join what they
belong to; CKPT is written into the vault, waits at its gate, or is refused; YIELD takes the sender's holder bit and starts a takeover
where it is this standby's. A message that is not delivered here, or of another kind, goes no further; one for nobody is counted. That a
COMMIT after B is known by the last boundary, and that it takes back the boundary counted as held, are the model's (log 137). -/
def Obligations.ChainMessages : Prop :=
  (∀ (p : Fin 2) (m : Msg) (s u : State) (here : Bool), deliver s p.val m = (u, here) →
    let off := fun (k : BitVec 8) (c : Instr) => (here = false ∨ m.kind ≠ k) → exec c s = .next u
    off 3 (.readyRx p m) ∧ off 4 (.commitRx p m) ∧ off 7 (.ctrlRx p m) ∧ off 8 (.streamRx p m) ∧ off 9 (.surfaceRx p m) ∧ off 10 (.ckptRx p m)
      ∧ off 6 (.yieldRx p m))
  ∧ (∀ (p : Fin 2) (m : Msg) (s u : State), deliver s p.val m = (u, true) →
    let g := m.h8 8
    let k := BitVec.ofNat 32 (m.hN 12 4)
    let on := u.ctl.core = true ∧ g ≤ 15 ∧ sgOn u g = true
    let next := sameBoundary u g (m.hN 16 8) = true
    let late := fun (w : State) =>
      let r := w.grp g
      let x := w.setGrp g (if r.pastC then { r with lateM := some k } else { r with commitM := some k })
      raise (x.inc (CMP_SEAL_SPLIT g)) evSealSplit 2 14 (sgOwner x g) [(g, 4), (k.toNat, 32)]
    (m.kind = 3 → let takes := on ∧ sgMaster u g = true ∧ (u.grp g).pastD = false ∧ next
      (takes → exec (.readyRx p m) s = .next (u.setGrp g { u.grp g with
        reports := ((u.grp g).reports.filter fun x => x.1 != m.h8 9 % 8) ++ [(m.h8 9 % 8, k, BitVec.ofNat 3 (m.h8 10))] }))
      ∧ (¬ takes → exec (.readyRx p m) s = .next u))
    ∧ (m.kind = 4 → let member := on ∧ sgMember u g = true
      let last := lastBoundary u g (m.hN 16 8) = true ∧ 0 < sealDiff k (sgDone u g)
      (member → next → (u.grp g).pastC = false → exec (.commitRx p m) s = .next (u.setGrp g { u.grp g with commitM := some k }))
      ∧ (member → next → (u.grp g).pastC = true → exec (.commitRx p m) s = .next (late u))
      ∧ (member → ¬ next → last → exec (.commitRx p m) s = .next (late (if (u.grp g).heldAt then unhold u g else u)))
      ∧ ((¬ member ∨ ¬ next ∧ ¬ last) → exec (.commitRx p m) s = .next u)))
  ∧ (∀ (s : State) (g : Nat), let n := s.fld (CMP_SEAL_HELD g) 0 16
    (unhold s g).grp g = { s.grp g with heldAt := false } ∧ (unhold s g).fld (CMP_SEAL_HELD g) 0 16 = (if n = 0xFFFF then n else n - 1)
      ∧ SameRegsBut [CMP_SEAL_HELD g] s (unhold s g) ∧ { unhold s g with regs := s.regs, seals := s.seals } = s)
  ∧ (∀ (p : Fin 2) (m : Msg) (s u : State), deliver s p.val m = (u, true) → m.kind = 7 →
    let d := m.h8 8
    (d = 31 → exec (.ctrlRx p m) s = .next u)
    ∧ (d ≠ 31 → (u.ctl.core = false ∨ 16 ≤ d ∨ (u.part d).ctrlRing = none) → exec (.ctrlRx p m) s = .next (u.inc CHN_NODEST))
    ∧ (∀ (host : Bool) (k : Nat) (base : BitVec 64) (seq : BitVec 32), d ≤ 15 → u.ctl.core = true → (u.part d).ctrlRing = some (host, k, base, seq) →
      let a := base.toNat + seq.toNat % 2 ^ k * 512
      let n := (seq + 1).toNat
      let ws : List (Nat × Bytes) := [(a + 508, [0, 0, 0, 0]), (a + 4, ctrlEntry u m), (a, leBytes 4 n), (a + 508, leBytes 4 n)]
      let w := u.setPart d { u.part d with ctrlRing := some (host, k, base, seq + 1) }
      exec (.ctrlRx p m) s = .next (ws.foldl (fun t x => (jobWrite t 39 d host x.1 x.2).1) w)
      ∧ (host = true → onPcie u d = true → linkUp u (u.part d).port = true → exec (.ctrlRx p m) s = .next { w with
          outbox := u.outbox ++ ws.map fun x => Out.hostWrite (u.part d).port (BitVec.ofNat 64 x.1) x.2 })))
  ∧ (∀ (p : Fin 2) (m : Msg) (s u : State), deliver s p.val m = (u, true) → m.kind = 8 →
    let c := m.h8 9
    let x := u.ctx c
    ((u.ctl.core = false ∨ x.rx = none) → exec (.streamRx p m) s = .next (u.inc CHN_NODEST))
    ∧ (∀ o slot base size, u.ctl.core = true → x.rx = some (o, slot, base, size) →
      ((unitOf u o ≠ some m.origin.toNat ∨ slot ≠ m.h8 8) → exec (.streamRx p m) s = .next (u.inc CHN_NODEST))
      ∧ (unitOf u o = some m.origin.toNat → slot = m.h8 8 →
        let at_ := m.hN 12 4
        let total := m.hN 16 4
        let body := m.body.take (total - at_)
        let first := bitOf (m.h8 10) 0
        let last := bitOf (m.h8 10) 1
        let takes := fun (bs : Bytes) =>
          (last = false → exec (.streamRx p m) s = .next (u.setCtx c { x with rxBuf := some (total, bs), rxDisc := x.rxDisc || (first && x.rxBuf.isSome) }))
          ∧ (last = true → let v := u.setCtx c { x with rxBuf := none, rxDisc := x.rxDisc || (first && x.rxBuf.isSome) }
            (bs.length = total → 32 ≤ total → exec (.streamRx p m) s = .next (acceptItem v c base size bs))
            ∧ ((bs.length ≠ total ∨ total < 32) → exec (.streamRx p m) s = .next (v.setCtx c { v.ctx c with rxDisc := true })))
        (first = true → at_ = 0 → takes body)
        ∧ (first = false → ∀ bs, x.rxBuf = some (total, bs) → bs.length = at_ → takes (bs ++ body))
        ∧ ((first = true ∧ at_ ≠ 0 ∨ first = false ∧ ∀ bs, x.rxBuf = some (total, bs) → bs.length ≠ at_) →
          exec (.streamRx p m) s = .next (u.setCtx c { x with rxBuf := none, rxDisc := true })))))
  ∧ (∀ (s : State) (c base size : Nat) (item : Bytes), 16 ≤ (s.ctx c).queue.length →
    acceptItem s c base size item = s.draw.setCtx c { s.ctx c with rxDisc := true, nOvf := satInc (s.ctx c).nOvf })
  ∧ (∀ (p : Fin 2) (m : Msg) (s u : State), deliver s p.val m = (u, true) → m.kind = 9 →
    let i := m.h8 9
    let r := u.rxSurf i
    let k := BitVec.ofNat 32 (m.hN 12 4)
    let mine := u.ctl.core = true ∧ i ≤ 15 ∧ r.enabled = true ∧ r.slot = m.h8 8 ∧ unitOf u r.origin = some m.origin.toNat
    (¬ mine → exec (.surfaceRx p m) s = .next (u.inc CHN_NODEST))
    ∧ (mine → exec (.surfaceRx p m) s = .next (takeBand (if r.cur = some k then u else beginTransfer u i k) i m))
    ∧ (∀ n, mine → r.cur = some k → r.band = some (m.h8 10) → r.target = some n → m.h8 10 < surfBands (u.surf n) →
      (bitOf (m.h8 11) 2 = true → m.h8 10 + 1 = surfBands (u.surf n)) → bitOf (m.h8 11) 1 = false →
      (r.packed = true ∨ m.hN 16 4 + m.body.length ≤ 16 * (u.surf n).tx + bandLen (u.surf n) (m.h8 10)) →
      exec (.surfaceRx p m) s = .next (u.setRxSurf i { r with parts := r.parts ++ [(m.hN 16 4, m.body)], last := m.hN 16 4 + m.body.length
                                                              lostMsg := r.lostMsg || m.hN 16 4 != r.last })))
  ∧ (∀ (p : Fin 2) (m : Msg) (s u : State), deliver s p.val m = (u, true) → m.kind = 10 →
    let o := m.origin.toNat
    let off := m.hN 8 4
    let len := m.hN 12 4
    let bs := sliceB m.body 0 len
    let open_ := u.bit CHN_VAULT 0 = true ∧ u.rdn.zeroing = false ∧ u.fld CHN_VAULT 1 3 = o ∧ off + len ≤ 0x800000
    let waits := (memDec u chnVaultAccess .w (0x3000000 + off)).1 = .held
      ∨ mustWait u { acc := chnVaultAccess, typ := .w, addr := 0x3000000 + off, len := len } = true
    (¬ open_ → exec (.ckptRx p m) s = .next (raiseKey (u.inc CHN_CKPT_DROP) o evCkptRefused 0 39 31 [(o, 3)]))
    ∧ (open_ → exec (.ckptRx p m) s = .next (queueWrite (raiseN 3) u chnVaultAccess (0x3000000 + off) bs).1)
    ∧ (open_ → 0 < len → off / 0x1000 = (off + len - 1) / 0x1000 →
      (waits → exec (.ckptRx p m) s = .next (waitAt u { acc := chnVaultAccess, typ := .w, addr := 0x3000000 + off, len := len, data := bs }))
      ∧ (¬ waits → (memDec u chnVaultAccess .w (0x3000000 + off)).1 = .ok →
        exec (.ckptRx p m) s = .next ((snoop chnVaultAccess (0x3000000 + off) len u).store (0x3000000 + off) bs))))
  ∧ (∀ (p : Fin 2) (m : Msg) (s u : State), deliver s p.val m = (u, true) → m.kind = 6 →
    let o := m.origin.toNat
    let v := evcPulse u 57
    let w := mapUpdate (v.setPeer o { v.peer o with holder := false, mode := 6 })
    let mine := bitOf (m.h8 9) 0 = true ∧ m.h8 8 = w.logicalId ∧ rdnRole w = 2 ∧ w.bit RDN_ROLE 2 = true
    (¬ mine → exec (.yieldRx p m) s = .next w)
    ∧ (mine → w.ctl.target.isSome = true → exec (.yieldRx p m) s = .next { w with rdn := { w.rdn with deferred := true } })
    ∧ (mine → w.ctl.target = none → exec (.yieldRx p m) s =
      .next (if w.ctl.mode = .keep ∨ w.ctl.mode = .shadow then beginTakeover w 0 else w)))

/-- The chain's commands (R364–R367, R372, R373): a slot's source, destination and target as the descriptor names them, or the slot
off; CHN_SEND sends its bytes, from host memory of either kind, to one unit or to all, and waits for its acknowledgement; while the reading
of its bytes waits at a gate it is not accepted (R309), and it ends with the status of a reading that fails; where its own port is not
UP it is dropped, counted and ended, with a status that is open (log 161); to an ID that no unit holds it is counted; CHN_RXRING sets the
partition's ring. A descriptor that does not pass completes with the first check that fails, in the tables' order. -/
def Obligations.ChainCommands : Prop :=
  (∀ (q : Req) (s : State), Admitted s q (bodyMask [(16, 0, 8), (17, 0, 2), (18, 0, 24)]) →
    let i := q.u8 16
    let t := s.txStream i
    let good := i ≤ 31 ∧ q.u8 19 ≤ 7 ∧ (q.bit 17 1 = true → q.u8 18 ≤ 31)
    let owns := if q.bit 17 1 then ownsSess s q.part.val (q.u8 18) else ownsCtx s q.part.val (q.u8 18)
    (q.bit 17 0 = true →
      (¬ good → exec (.chnTxStream q) s = .next (done s q 0x1001 stBadRange))
      ∧ (good → owns = false → exec (.chnTxStream q) s = .next (done s q 0x1001 stNotOwner))
      ∧ (good → owns = true → t.enabled = true → exec (.chnTxStream q) s = .next (done s q 0x1001 stSlotBusy))
      ∧ (good → owns = true → t.enabled = false → unitOf s (q.u8 19) = none → exec (.chnTxStream q) s = .next (done s q 0x1001 stNoUnit))
      ∧ (good → owns = true → t.enabled = false → (unitOf s (q.u8 19)).isSome = true →
        exec (.chnTxStream q) s = .next (if (s.port 0).state = .up ∨ (s.port 1).state = .up then
          done (s.setTxStream i { enabled := true, part := q.part.val, alt := q.bit 17 1, source := q.u8 18, dst := q.u8 19
                                  target := q.u8 20, nMsgs := t.nMsgs, nPassed := t.nPassed }) q 0x1001 stComplete
          else done s q 0x1001 stNoLink)))
    ∧ (q.bit 17 0 = false → exec (.chnTxStream q) s = .next (if 31 < i then done s q 0x1001 stBadRange
        else if t.enabled = true ∧ t.part ≠ q.part.val then done s q 0x1001 stNotOwner
        else done (s.setTxStream i { nMsgs := t.nMsgs, nPassed := t.nPassed }) q 0x1001 stComplete)))
  ∧ (∀ (q : Req) (s : State), Admitted s q (bodyMask [(16, 0, 8), (17, 0, 1), (18, 0, 16), (24, 0, 40), (32, 0, 32)]) →
    let i := q.u8 16
    let c := s.ctx i
    let good := q.u8 18 ≤ 7 ∧ q.u8 19 ≤ 31 ∧ q.u40 24 % 4096 = 0 ∧ q.u32 32 % 4096 = 0 ∧ q.u32 32 ≠ 0 ∧ q.u40 24 + q.u32 32 ≤ 2 ^ 40 ∧ c.state ≠ .closed
    let busy := c.rx.isSome = true ∨ ∃ f ∈ s.flows, f.2.ctx = some i
    (q.bit 17 0 = true →
      (¬ good → exec (.chnRxStream q) s = .next (done s q 0x1002 stBadRange))
      ∧ (good → ownsCtx s q.part.val i = false → exec (.chnRxStream q) s = .next (done s q 0x1002 stNotOwner))
      ∧ (good → ownsCtx s q.part.val i = true → busy → exec (.chnRxStream q) s = .next (done s q 0x1002 stCtxBusy))
      ∧ (good → ownsCtx s q.part.val i = true → ¬ busy →
        exec (.chnRxStream q) s = .next (done (s.setCtx i { c with rx := some (q.u8 18, q.u8 19, q.u40 24, q.u32 32), rxPart := q.part.val
                                                                   rxDisc := false, rxBuf := none }) q 0x1002 stComplete)))
    ∧ (q.bit 17 0 = false → exec (.chnRxStream q) s = .next (if ownsCtx s q.part.val i then
        done (s.setCtx i { c with rx := none, rxPart := 0, rxDisc := false, rxBuf := none }) q 0x1002 stComplete
      else done s q 0x1002 stNotOwner)))
  ∧ (∀ (q : Req) (s : State), Admitted s q (bodyMask [(16, 0, 8), (17, 0, 3), (18, 0, 24), (22, 0, 16)]) →
    let i := q.u8 16
    let t := s.txSurf i
    let good := i ≤ 15 ∧ q.u8 19 ≤ 7 ∧ q.u8 20 ≤ 15 ∧ (q.bit 17 2 = true → 1 ≤ q.u8 18 ∧ q.u8 18 ≤ 9) ∧ q.u16 22 ≤ (if q.bit 17 1 then 127 else 4095)
    let owns := if q.bit 17 1 then ownsFollow s q.part.val (q.u16 22) else ownsSurf s q.part.val (q.u16 22)
    (q.bit 17 0 = true →
      (¬ good → exec (.chnTxSurf q) s = .next (done s q 0x1003 stBadRange))
      ∧ (good → owns = false → exec (.chnTxSurf q) s = .next (done s q 0x1003 stNotOwner))
      ∧ (good → owns = true → q.bit 17 1 = false → (s.surf (q.u16 22)).reg = false → exec (.chnTxSurf q) s = .next (done s q 0x1003 stNotTracked))
      ∧ (good → owns = true → (q.bit 17 1 = true ∨ (s.surf (q.u16 22)).reg = true) →
        exec (.chnTxSurf q) s = .next (if t.enabled then done s q 0x1003 stSlotBusy
          else if unitOf s (q.u8 19) = none then done s q 0x1003 stNoUnit
          else if (s.port 0).state = .up ∨ (s.port 1).state = .up then
            done (s.setTxSurf i { enabled := true, part := q.part.val, alt := q.bit 17 1, source := q.u16 22, dst := q.u8 19, target := q.u8 20
                                  level := if q.bit 17 2 then q.u8 18 else 0, nMsgs := t.nMsgs, nPassed := t.nPassed }) q 0x1003 stComplete
          else done s q 0x1003 stNoLink)))
    ∧ (q.bit 17 0 = false → exec (.chnTxSurf q) s = .next (if 15 < i then done s q 0x1003 stBadRange
        else if t.enabled = true ∧ t.part ≠ q.part.val then done s q 0x1003 stNotOwner
        else done ({ s with bands := s.bands.filter fun b => b.rx || b.slot != i }.setTxSurf i { nMsgs := t.nMsgs, nPassed := t.nPassed }) q 0x1003 stComplete)))
  ∧ (∀ (q : Req) (s : State), Admitted s q (bodyMask [(16, 0, 8), (17, 0, 3), (18, 0, 24), (22, 0, 80)]) →
    let i := q.u8 16
    let r := s.rxSurf i
    let all := fun (f : Nat → Bool) => ∀ n, q.u16 22 ≤ n → n < q.u16 22 + q.u8 18 → f n = true
    let good := i ≤ 15 ∧ 2 ≤ q.u8 18 ∧ q.u8 18 ≤ 4 ∧ q.u8 19 ≤ 7 ∧ q.u8 20 ≤ 15 ∧ q.u16 22 + q.u8 18 ≤ 4096 ∧ (q.bit 17 1 = true → q.u64 24 % 8 = 0)
    (q.bit 17 0 = true →
      (¬ good → exec (.chnRxSurf q) s = .next (done s q 0x1004 stBadRange))
      ∧ (good → ¬ all (ownsSurf s q.part.val) → exec (.chnRxSurf q) s = .next (done s q 0x1004 stNotOwner))
      ∧ (good → all (ownsSurf s q.part.val) → ¬ all (fun n => (s.surf n).reg) → exec (.chnRxSurf q) s = .next (done s q 0x1004 stNotTracked))
      ∧ (good → all (ownsSurf s q.part.val) → all (fun n => (s.surf n).reg) → exec (.chnRxSurf q) s = .next (if r.enabled then done s q 0x1004 stSlotBusy
          else done (s.setRxSurf i { enabled := true, part := q.part.val, m := q.u8 18, origin := q.u8 19, slot := q.u8 20, first := q.u16 22
                                     fenceOn := q.bit 17 1, fenceHost := q.bit 17 2, fenceAt := BitVec.ofNat 64 (q.u64 24), nMsgs := r.nMsgs }) q 0x1004 stComplete)))
    ∧ (q.bit 17 0 = false → exec (.chnRxSurf q) s = .next (if 15 < i then done s q 0x1004 stBadRange
        else if r.enabled = true ∧ r.part ≠ q.part.val then done s q 0x1004 stNotOwner
        else done (s.setRxSurf i { nMsgs := r.nMsgs }) q 0x1004 stComplete)))
  ∧ (∀ (q : Req) (s : State), Admitted s q (bodyMask [(16, 0, 32), (24, 0, 64)]) →
    let u := accepted s q 0x1005
    let good := (q.u8 16 ≤ 7 ∨ q.u8 16 = 255) ∧ q.u8 17 ≤ 15 ∧ q.u16 18 ≠ 0 ∧ q.u16 18 ≤ 256
    let hdr := hput 8 1 (q.u8 17) + hput 9 1 q.part.val + hput 10 2 (q.u16 18)
    let r := hostRead u q.part.val (q.u64 24) (q.u16 18) q.host
    let sends := fun (os : List Nat) => { r.1 with chain := { r.1.chain with
      sends := r.1.chain.sends ++ os.map fun o => (s.nextJob, o, r.1.chain.seqs.getD 0 0, none) } }
    let read := fun (t : State) => exec (.chnSend q) s = .next (if r.2.1 = stWaits then s else if r.2.1 ≠ stComplete then finish r.1 s.nextJob r.2.1 else t)
    (¬ good → exec (.chnSend q) s = .next (done s q 0x1005 stBadRange))
    ∧ (good → q.u8 16 = 255 →
      let os := ([0, 1] : List Nat).filter fun o => (s.port o).state == .up
      (os = [] → exec (.chnSend q) s = .next (done s q 0x1005 stNoLink)) ∧ (os ≠ [] → read (broadcast (sends os) 7 hdr r.2.2)))
    ∧ (good → q.u8 16 ≠ 255 → (unitOf s (q.u8 16) = none → exec (.chnSend q) s = .next (done (s.inc CHN_NODEST) q 0x1005 stNoUnit))
      ∧ (∀ a, unitOf s (q.u8 16) = some a →
        let o := if s.bit CHN_ROUTE a then 0 else 1
        ((s.port 0).state ≠ .up → (s.port 1).state ≠ .up → exec (.chnSend q) s = .next (done s q 0x1005 stNoLink))
        ∧ ((s.port o).state ≠ .up → (s.port (1 - o)).state = .up → read (finish (sendTo (sends []) a 7 hdr r.2.2) s.nextJob lostSend))
        ∧ ((s.port o).state = .up → read (sendTo (sends [o]) a 7 hdr r.2.2)))))
  ∧ (∀ (q : Req) (s : State), Admitted s q (bodyMask [(16, 0, 2), (17, 0, 8), (24, 0, 64)]) →
    let good := 4 ≤ q.u8 17 ∧ q.u8 17 ≤ 10 ∧ q.u64 24 % 4096 = 0
    (q.bit 16 0 = true → good → exec (.chnRxring q) s = .next (done (s.setPart q.part.val
      { s.part q.part.val with ctrlRing := some (q.bit 16 1, q.u8 17, BitVec.ofNat 64 (q.u64 24), 0) }) q 0x1006 stComplete))
    ∧ (q.bit 16 0 = true → ¬ good → exec (.chnRxring q) s = .next (done s q 0x1006 stBadRange))
    ∧ (q.bit 16 0 = false → exec (.chnRxring q) s = .next (done (s.setPart q.part.val { s.part q.part.val with ctrlRing := none }) q 0x1006 stComplete)))

/-! ### Redundancy (R376–R400) -/

/-- Checkpoints, takeovers and SHADOW as this unit asks for them (R378, R380, R388–R391, R393, R398–R400): the bits of an RDN_CMD write, each
decided by the state of the unit (several bits in one write in the order takeover, shadow, ckpt, keep: the model's, log 61); RDN_CKPT calls
for a checkpoint; RDN_SHADOW and RDN_TAKEOVER ask the unit they name; RDN_SWAP chooses its boundary; each refusal in the order of Table
14.7. A checkpoint takes the next generation, and is captured only where one is due, none is in hand and the last is 100 ms old (that the
first is due at once is the model's, log 61); SHADOW_APPLY, at a boundary of swap_tg, applies the newest slot newer than the state that passes
its checks, where a slot's check may fail on an error of the vault (log 163), and leaves the state where there is none; the vault is
zeroed on HWK_CLEAR. The codes in RDN_STATUS of an RDN_CKPT or RDN_SWAP refused are the model's (log 158). -/
def Obligations.RdnCommands : Prop :=
  (∀ (a : Access) (v : Word) (s : State) (c : Instr), Reaches s a .w RDN_CMD →
    (c = .rdnCmdTakeover a v ∨ c = .rdnCmdShadow a v ∨ c = .rdnCmdKeep a v ∨ c = .rdnCmdCkpt a v) →
    let ask := fun (op : Nat) (u : State) => if requestCode u op = 0 then beginRequest u op 1 else rdnDecided u op (requestCode u op)
    let ckpt := fun (u : State) => if ckptOn u = true then rdnDecided { u with rdn := { u.rdn with due := true } } 4 0 else rdnDecided u 4 10
    let on := fun (i : Nat) (f : State → State) (u : State) => if bitOf v.toNat i = true then f u else u
    exec c s = .next (on 2 (ask 3) (on 3 ckpt (on 1 (ask 2) (on 0 (ask 1) s)))))
  ∧ (∀ s : State, let role := s.fld RDN_ROLE 0 2
    let mode := fun (op : Nat) => s.ctl.target = none ∧ (op = 1 ∧ (s.ctl.mode = .keep ∨ s.ctl.mode = .shadow) ∨ op = 2 ∧ s.ctl.mode = .keep
      ∨ op = 3 ∧ s.ctl.mode = .shadow)
    ∀ op, 1 ≤ op → op ≤ 3 → (role ≠ 2 → requestCode s op = 10) ∧ (role = 2 → ¬ mode op → requestCode s op = 9)
      ∧ (role = 2 → mode op → requestCode s op = if op = 1 ∧ holderAlive s = true then 8 else 0))
  ∧ (∀ (u : State) (op why : Nat), let v := ({ u with rdn := { u.rdn with asked := some op } } : State).resultOpen RDN_STATUS
    beginRequest u 1 why = beginTakeover (({ u with rdn := { u.rdn with asked := some 1 } } : State).resultOpen RDN_STATUS) why
    ∧ (op = 2 → beginRequest u op why = beginPrime v 6 6 false) ∧ (op = 3 → beginRequest u op why = enterKeep (rdnDecided v 3 0) 6)
    ∧ (let w : State := { u with rdn := { u.rdn with why := why, swap := {}, deferred := false } }
      beginTakeover u why = if u.ctl.mode = .shadow then takeoverRun w else beginPrime w 2 2 false))
  ∧ (∀ (q : Req) (s : State), Admitted s q 0 →
    (isManager s q = false → exec (.rdnCkpt q) s = .next (done s q 0x1101 stNotManager))
    ∧ (isManager s q = true → ckptOn s = false → exec (.rdnCkpt q) s = .next (done (s.resultDone RDN_STATUS (4 + 10 * 8)) q 0x1101 stNotPaired))
    ∧ (isManager s q = true → ckptOn s = true → let u := accepted s q 0x1101
      let w := rdnDecided { u with rdn := { u.rdn with due := true } } 4 0
      exec (.rdnCkpt q) s = .next { w with rdn := { w.rdn with jobs := w.rdn.jobs ++ [s.nextJob] } }))
  ∧ (∀ (q : Req) (s : State), Admitted s q (bodyMask [(16, 0, 8), (17, 0, 1)]) →
    let l := q.u8 16
    let no := fun (st : Nat) => exec (.rdnShadow q) s = .next (done s q 0x1102 st)
    if isManager s q = false then no stNotManager else if 7 < l then no stBadRange else match standbyOf s l with
      | none => no stNotPaired
      | some a => if notStandby s l a = true then no stNotPaired
        else exec (.rdnShadow q) s = .next (remoteRequest (accepted s q 0x1102) s.nextJob (if q.bit 17 0 = true then 2 else 3) a))
  ∧ (∀ (q : Req) (s : State), Admitted s q (bodyMask [(16, 0, 16)]) →
    let no := fun (st : Nat) => exec (.rdnTakeover q) s = .next (done s q 0x1104 st)
    if isManager s q = false then no stNotManager else if 7 < q.u8 16 ∨ 7 < q.u8 17 then no stBadRange
    else if notStandby s (q.u8 16) (q.u8 17) = true then no stNotPaired
    else exec (.rdnTakeover q) s = .next (remoteRequest (accepted s q 0x1104) s.nextJob 1 (q.u8 17)))
  ∧ (∀ (u : State) (id op a : Nat),
    (a = u.physAddr → remoteRequest u id op a = if requestCode u op = 0 then beginRequest (finish u id stComplete) op 3
      else finish (rdnDecided u op (requestCode u op)) id (rdnStatus (requestCode u op)))
    ∧ (a ≠ u.physAddr → (u.peer a).heard = none → remoteRequest u id op a = finish u id stNoUnit)
    ∧ (a ≠ u.physAddr → (u.peer a).heard ≠ none →
      remoteRequest u id op a = sendRdn { u with rdn := { u.rdn with waiting := u.rdn.waiting ++ [(id, op, a)] } } a op 0 0 0))
  ∧ (∀ (q : Req) (s : State), s.ctl.core = true → s.ctl.mode.soile = true → q.reservedSet (bodyMask [(16, 0, 64)]) = false → badCring s q = false →
    let r := s.peer (s.fld RDN_ROLE 4 3)
    let off := fun (st : Nat) => exec (.rdnSwap q) s = .next (done s q 0x1103 st)
    let no := fun (st : Nat) => exec (.rdnSwap q) s =
      .next (done (s.resultDone RDN_STATUS (5 + (if st = stNotPaired then 10 else 9) * 8)) q 0x1103 st)
    if s.ctl.mode ≠ .run then off stModeDenied else if isManager s q = false then off stNotManager
    else if s.fld RDN_ROLE 0 2 ≠ 1 then no stNotPaired
    else if r.heard ≠ none ∧ (r.mode ≠ 3 ∨ r.logical ≠ s.logicalId) then no stPartnerState
    else if swapBusy s = true then no stSwapBusy else if s.rdn.swap.job ≠ none then no stSwapPending
    else if tgMakes s (swapTg s) = false ∨ tgNominal (s.tg (swapTg s)) = 0 then no stSwapRefused else if r.heard = none then no stNoUnit
    else let u := accepted s q 0x1103
      exec (.rdnSwap q) s = .next { u with rdn := { u.rdn with
        due := true, swap := { job := some s.nextJob, bNs := swapB s (q.u64 16), gen := s.rdn.gen + 1 } } })
  ∧ (∀ (s : State) (nb : Nat), let t := s.tg (swapTg s)
    let p := tgNominal t
    let ahead := fun (x : Nat) => timeDiff (BitVec.ofNat 64 x) (BitVec.ofNat 64 t.boundary)
    let from_ := max (max (ahead (s.now + 3 * p)) (ahead nb)) 0
    p ≠ 0 → ∃ k : Nat, swapB s nb = t.boundary + k * p ∧ from_ ≤ ((k * p : Nat) : Int) ∧ (k = 0 ∨ (((k - 1) * p : Nat) : Int) < from_))
  ∧ (∀ s : State, let early := ∃ t, s.rdn.taken = some t ∧ s.island < t + 100000000
    let runs := s.ctl.core = true ∧ s.ctl.mode.soile = true ∧ ckptOn s = true ∧ ckptEvent s = true ∧ s.rdn.image = none ∧ ¬ early
    (runs → exec .checkpoint s = .next { s with ckptWait := true, rdn := { s.rdn with
      gen := s.rdn.gen + 1, taken := some s.island, due := false, image := some (s.rdn.gen + 1, s.now, imageOf (captureState s))
      ckptJobs := s.rdn.jobs, jobs := [] } })
    ∧ (¬ runs → exec .checkpoint s = .next s)
    ∧ (ckptOn s = true ↔ s.fld RDN_ROLE 0 2 = 1 ∧ (s.bit RDN_ROLE 3 = true ∨ s.rdn.swap.job ≠ none))
    ∧ (ckptEvent s = true ↔ s.rdn.due = true ∨ ∀ t, s.rdn.taken = some t → t + 1000000 * s.fld RDN_CKPT_PERIOD 0 16 ≤ s.island))
  ∧ (∀ s : State, let newer := fun (i : Nat) => 0 < (slotGen s i - s.rdn.gen).toInt
    let g := swapTg s
    let due := s.ctl.mode = .shadow ∧ s.fld RDN_ROLE 0 2 = 2 ∧ tgMakes s g = true ∧ (s.tg g).first = false ∧ (s.tg g).boundary = s.now
    let ecc := fun (u : State) => if Config.vaultEcc u.free = 0 then Ecc.ok else if Config.vaultEcc u.free = 1 then .corrected else .bad
    let apply := fun (u : State) (i : Nat) (c : Carried) => let w := relinkAll (holdOpened (applyCarried (captureState u) c u))
      ({ w with rdn := { w.rdn with gen := slotGen s i } }.setReg RDN_CKPT_GEN (slotGen s i)).setReg RDN_CKPT_LEN
        (BitVec.ofNat 32 (s.loadN (slotBase i + 4) 4))
    let is := (slotOrder s).filter fun i => decide (newer i)
    (¬ due ∨ is = [] → exec .shadowApply s = .next s)
    ∧ (due → exec .shadowApply s = .next (applyNewer is s))
    ∧ (∀ (u : State) (i : Nat) (rest : List Nat), slotGen u i = slotGen s i → u.loadN (slotBase i + 4) 4 = s.loadN (slotBase i + 4) 4 →
      applyNewer (i :: rest) u = match checkSlot u.draw i (ecc u) with | (w, .inl c) => apply w i c | (w, .inr _) => applyNewer rest w)
    ∧ applyNewer [] s = s)
  ∧ (∀ (s : State) (i cause : Nat) (e : Ecc) (u : State), checkSlot s i e = (u, .inr cause) → (cause = 2 ∨ cause = 3 ∨ cause = 4 ∨ cause = 5)
    ∧ (e = .bad → cause = 2 ∧ u = s.add HWK_ECC 16 16 1))
  ∧ (∀ (a : Access) (v : Word) (s : State), Reaches s a .w HWK_CLEAR →
    (bitOf v.toNat 0 = false → exec (.hwkClear a v) s = .next s)
    ∧ (bitOf v.toNat 0 = true → s.bit CHN_VAULT 0 = true → exec (.hwkClear a v) s = .next (accessEv s evAccessState a HWK_CLEAR))
    ∧ (bitOf v.toNat 0 = true → s.bit CHN_VAULT 0 = false → ∃ t, exec (.hwkClear a v) s = .next t ∧ t.rdn.zeroing = true
      ∧ (∀ x, 0x3000000 ≤ x → x < 0x3800000 → t.load8 x = 0) ∧ (∀ x, (x < 0x3000000 ∨ 0x3800000 ≤ x) → t.load8 x = s.load8 x)
      ∧ t.regs = s.regs ∧ { t with mem := s.mem, rdn := s.rdn } = s))
  ∧ (∀ s : State, exec .vaultZeroed s = .next (if s.ctl.ring = true then { s with rdn := { s.rdn with zeroing := false } } else s))

/-- The image of a checkpoint (R379, R382): ten sections in ascending ID order, each an 8-byte header with its ID, a version and its length
before its data; read back it gives what was captured. A section out of that order, of an ID above 10, or longer than the image that
holds it, is not read. The ledger, memory, jobs, completions, the timebase and the log make no difference to what is captured. What the
bytes inside a section are is open, and what a reader refuses is the model's (log 42). -/
def Obligations.CheckpointImage : Prop :=
  (∀ c : Carried, ∃ v : Nat → BitVec 16, ∃ ds : Nat → Bytes, imageOf c =
    (upFrom 1 10).flatMap fun id => leBytes 2 id ++ leBytes 2 (v id).toNat ++ leBytes 4 (ds id).length ++ ds id)
  ∧ (∀ s : State, (∀ id, id < 11 → (sectionBytes id (captureState s)).length < 2 ^ 32) →
    readImage 10 0 (imageOf (captureState s)) {} = some (captureState s))
  ∧ (∀ (n last : Nat) (bs : Bytes) (c : Carried), let id := leNat (sliceB bs 0 2)
    (id ≤ last ∨ 10 < id ∨ bs.length < 8 + leNat (sliceB bs 4 4)) → readImage (n + 1) last bs c = none)
  ∧ (∀ (s : State) (l : Tbl LEntry) (m : List Host.Cell) (js : List Job) (cs : List Cpl) (b : Timebase) (g : Tbl LogRec),
    captureState { s with ledger := l, mem := m, jobs := js, cpls := cs, tbase := b, glog := g } = captureState s)

/-- The ring between RDN blocks (R393–R396): a request from a permitted address is answered and acted on, a reply ends what waited for
it; PREP, ACK, GO and ARMED arm both sides of a swap, CANCEL and the instants D and C end one that is not ready; a swap overdue is
recorded once. What comes from another address, for another operation or while it is not awaited changes nothing. That requests 1–3 are
answered, the codes of a refused PREP, and what an unawaited message does are the model's (log 45, log 46). -/
def Obligations.RdnRings : Prop :=
  (∀ (o : Fin 8) (m : Msg) (s : State) (op : Nat) (c : Instr), (op = 1 ∧ c = .ringTakeover o m ∨ op = 2 ∧ c = .ringShadow o m ∨ op = 3 ∧ c = .ringKeep o m) →
    let mine := s.rdn.waiting.find? fun w => decide (w.2.1 = op ∧ w.2.2 = o.val)
    (isRdn s o.val m op = false → exec c s = .next s)
    ∧ (isRdn s o.val m op = true → ∀ w, mine = some w →
      exec c s = .next (finish { s with rdn := { s.rdn with waiting := s.rdn.waiting.erase w } } w.1 (rdnStatus (rdnRes m))))
    ∧ (isRdn s o.val m op = true → mine = none → s.bit RDN_ROLE (16 + o.val) = false → exec c s = .next s)
    ∧ (isRdn s o.val m op = true → mine = none → s.bit RDN_ROLE (16 + o.val) = true →
      let u := sendRdn s o.val op (requestCode s op) 0 0
      exec c s = .next (if requestCode s op = 0 then beginRequest u op 2 else rdnDecided u op (requestCode s op))))
  ∧ (∀ (o : Fin 8) (m : Msg) (s : State), let from_ := fun (op : Nat) => isRdn s o.val m op = true ∧ o.val = s.fld RDN_ROLE 4 3
    let w := s.rdn.swap
    let put := fun (x : Swap) => ({ s with rdn := { s.rdn with swap := x } } : State)
    let prep := from_ 4 ∧ s.ctl.mode = .shadow ∧ s.fld RDN_ROLE 0 2 = 2
    let r := prepResult s (rdnGen m)
    let ack := from_ 5 ∧ w.job ≠ none ∧ w.prep = true
    let go := from_ 6 ∧ w.asPart = true ∧ w.pastC = false ∧ swapNext s = true
    let armed := from_ 7 ∧ w.job ≠ none ∧ w.acked = true
    let cancel := from_ 8 ∧ w.asPart = true ∧ s.ctl.mode ≠ .handover
    (prep → exec (.swapPrep o m) s = .next (sendRdn (put (if r = 0 then { asPart := true, bNs := rdnB m, gen := rdnGen m } else {})) o.val 5 r
      (rdnGen m) (rdnB m)))
    ∧ (r = 0 ↔ s.rdn.gen = rdnGen m ∧ s.fld (TG_STATUS (swapTg s)) 0 3 = 3
      ∧ ∀ x ∈ s.heads, (x.2.enabled = true ∨ x.2.start ≠ []) → x.2.rate ≠ 0 → x.2.trained = true)
    ∧ (ack → exec (.swapAck o m) s = .next (if rdnRes m = 0 then put { w with acked := true } else swapEnd s stSwapRefused))
    ∧ (go → exec (.swapGo o m) s = .next (sendRdn (put { w with armed := true }) o.val 7 0 w.gen w.bNs))
    ∧ (armed → exec (.swapArmed o m) s = .next (put { w with armedRx := true }))
    ∧ (cancel → exec (.swapCancel o m) s = .next (put {}))
    ∧ (¬ prep → exec (.swapPrep o m) s = .next s) ∧ (¬ ack → exec (.swapAck o m) s = .next s) ∧ (¬ go → exec (.swapGo o m) s = .next s)
    ∧ (¬ armed → exec (.swapArmed o m) s = .next s) ∧ (¬ cancel → exec (.swapCancel o m) s = .next s))
  ∧ (∀ s : State, let w := s.rdn.swap
    let put := fun (x : Swap) => ({ s with rdn := { s.rdn with swap := x } } : State)
    exec .swapInstantD s = .next (if swapNext s = true ∧ w.job ≠ none then
      (if w.acked = true then sendRdn s (s.fld RDN_ROLE 4 3) 6 0 w.gen w.bNs else swapEnd s stSwapRefused) else s)
    ∧ exec .swapInstantC s = .next (if swapNext s = false then s
      else if w.asPart = true then put { w with pastC := true }
      else if w.job = none ∨ w.armed = true then s
      else if w.armedRx = true then put { w with armed := true }
      else swapEnd (sendRdn s (s.fld RDN_ROLE 4 3) 8 0 w.gen w.bNs) stSwapCancelled)
    ∧ (swapNext s = true ↔ s.ctl.core = true ∧ isSwapB s (nextBoundary s (swapTg s)) = true))
  ∧ (∀ (s : State) (st : Nat), (s.rdn.swap.job = none → swapEnd s st = s)
    ∧ (∀ id, s.rdn.swap.job = some id → swapEnd s st = finish
      (({ s with rdn := { s.rdn with swap := {}, asked := none } } : State).resultDone RDN_STATUS (5 + 9 * 8)) id st))
  ∧ (∀ s : State, exec .swapDue s = .next (if s.ctl.core = true ∧ s.rdn.dueSaid = false ∧ (s.reg RDN_SWAP_PERIOD).toNat < swapAge s then
    raise { s with rdn := { s.rdn with dueSaid := true } } evSwapDue 0 40 31 [] else s))

/-! ### Lane quads (R458–R477) -/

/-- The quads' commands and what their lanes report (R459, R461, R464, R469–R475): a write of QDn_CFG field by field, a field that may not
take its value left as it stands and recorded, the protocols of a quad detached for test without signal, the checkers of one given back
stopped; a slip by one bit on chain lanes and in test; errors injected while a pattern runs; the checker's lock and its loss, with the
bits it counted; adaptation and the loop's re-centring. Where the conditions fail, nothing changes. What the loss of signal of a lane
brings to its protocol is, where the spec only names its rules, the model's (log 139). -/
def Obligations.LaneCommands : Prop :=
  (∀ (a : Access) (n : Fin 16) (v : Word) (s : State) (c : Instr), (c = .qdTestWrite a n v ∨ n.val = 15 ∧ c = .qd15UseWrite a v) →
    Reaches s a .w (QD_CFG n.val) →
    let r := QD_CFG n.val
    let use := bitsOf v.toNat 0 3
    let useBad := n.val = 15 ∧ use ≠ quadUse s 15 ∧ (¬ (use = 1 ∨ use = 3 ∨ use = 4) ∨ s.fld ETH_CFG 4 3 ≠ 0 ∨ ∃ x ∈ s.heads, x.2.tx ≠ .dark ∧ x.2.src ≠ 0)
    let testBad := bitOf v.toNat 3 = true ∧ s.ctl.mode ≠ .test
    let clkBad := n.val < 4 ∧ bitOf v.toNat 4 ≠ s.bit r 4 ∧ linkUp s n.val = true
    ∃ w, SameRegsBut [r] s w ∧ { w with regs := s.regs } = s ∧ w.fld r 5 27 = s.fld r 5 27
      ∧ (n.val = 15 → ¬ useBad → quadUse w n.val = use) ∧ (n.val ≠ 15 ∨ useBad → quadUse w n.val = quadUse s n.val)
      ∧ (testBad → quadTest w n.val = quadTest s n.val) ∧ (¬ testBad → quadTest w n.val = bitOf v.toNat 3)
      ∧ (n.val < 4 → ¬ clkBad → w.bit r 4 = bitOf v.toNat 4) ∧ (4 ≤ n.val ∨ clkBad → w.bit r 4 = s.bit r 4)
      ∧ let x := if quadTest s n.val = true ∧ quadTest w n.val = false then w.each 4 fun u l => unlockLane u n.val l
          else if quadTest s n.val = false ∧ quadTest w n.val = true then w.each 4 fun u l => laneLost u n.val l else w
        (useBad ∨ testBad ∨ clkBad → exec c s = .next (accessEv x evAccessState a r))
        ∧ (¬ (useBad ∨ testBad ∨ clkBad) → exec c s = .next x))
  ∧ (∀ (s : State) (n l : Nat), let b := if n = 4 then 0 else 4
    (quadUse s n = 0 → laneLost s n l = if l < s.fld (HIF_HP_STATUS n) 4 3 then hostDown s n else s)
    ∧ (quadUse s n = 1 → laneLost s n l =
      s.each 4 fun u i => if portExists u (b + i) = true ∧ l ∈ ethLanes u (b + i) then ethDown u (b + i) else u)
    ∧ (quadUse s n = 2 → laneLost s n l = lockLost s (n - 5) l) ∧ (3 ≤ quadUse s n → laneLost s n l = s))
  ∧ (∀ (a : Access) (n : Fin 16) (l : Fin 4) (v : Word) (s : State), Reaches s a .w (QD_LANE_SLIP n.val l.val) →
    let slips := bitOf v.toNat 0 = true ∧ (quadTest s n.val = true ∨ quadUse s n.val = 2)
    let r := QD_LANE_STATE n.val l.val
    (¬ slips → exec (.laneSlip a n l v) s = .next s)
    ∧ (slips → ∃ t, exec (.laneSlip a n l v) s = .next t ∧ t.fld r 16 7 = (s.fld r 16 7 + 1) % (if quadTest s n.val = true then 64 else 66)
      ∧ t.fld r 0 16 = s.fld r 0 16 ∧ t.fld r 23 9 = s.fld r 23 9 ∧ SameRegsBut [r] s t ∧ { t with regs := s.regs } = s))
  ∧ (∀ (a : Access) (n : Fin 16) (l : Fin 4) (v : Word) (s : State) (c : Instr), c = .injectSingle a n l v ∨ c = .injectBurst a n l v →
    let r := QD_LANE_PRBS n.val l.val
    let stat := QD_LANE_PRBS_STAT n.val l.val
    let len := bitsOf v.toNat 16 6
    Reaches s a .w r →
    let u := if bitsOf v.toNat 4 3 ≠ s.fld r 4 3 ∧ s.bit stat 0 = true then unlockLane s n.val l.val else s
    let w := plainWrite u r v
    let inverts := fun (k : Nat) (x : State) =>
      let y := { x with lanesQd := tset (fun _ => 0) x.lanesQd (4 * n.val + l.val) (tget (fun _ => 0) x.lanesQd (4 * n.val + l.val) + k) }
      if y.fld (QD_LANE_LOOP n.val l.val) 0 2 = 1 ∧ y.bit stat 0 = true then y.add (QD_LANE_ERR n.val l.val) 0 32 k else y
    let one := fun (x : State) => if bitOf v.toNat 8 = true then inverts 1 x else x
    let burst := fun (x : State) => if bitOf v.toNat 9 = true then inverts len x else x
    (len = 0 → exec c s = .next (accessEv s evAccessRange a r))
    ∧ (len ≠ 0 → quadTest w n.val = true → 1 ≤ w.fld r 0 3 → w.fld r 0 3 ≤ 5 → exec c s = .next (burst (one w)))
    ∧ (len ≠ 0 → (quadTest w n.val = false ∨ w.fld r 0 3 = 0 ∨ 5 < w.fld r 0 3) → exec c s = .next w))
  ∧ (∀ (n : Fin 16) (l : Fin 4) (s : State), let st := QD_LANE_PRBS_STAT n.val l.val
    let ends := fun (t : State) => t.bit st 0 = false ∧ tget (fun _ => 0) t.lockAt (4 * n.val + l.val) = 0
      ∧ (∀ k, k ≠ 4 * n.val + l.val → tget (fun _ => 0) t.lockAt k = tget (fun _ => 0) s.lockAt k)
      ∧ t.pair (QD_LANE_BITS_LO n.val l.val) (QD_LANE_BITS_HI n.val l.val) = laneBits s n.val l.val
      ∧ SameRegsBut [st, QD_LANE_BITS_LO n.val l.val, QD_LANE_BITS_HI n.val l.val] s t ∧ { t with regs := s.regs, lockAt := s.lockAt } = s
    let locks := quadOn s n.val = true ∧ quadTest s n.val = true ∧ 1 ≤ s.fld (QD_LANE_PRBS n.val l.val) 4 3
      ∧ s.fld (QD_LANE_PRBS n.val l.val) 4 3 ≤ 5 ∧ s.bit st 0 = false
    let loses := quadOn s n.val = true ∧ s.bit st 0 = true
    ends (unlockLane s n.val l.val)
    ∧ (locks → ∃ t, exec (.prbsCheckerLock n l) s = .next t ∧ t.bit st 0 = true ∧ tget (fun _ => 0) t.lockAt (4 * n.val + l.val) = s.island + 1
      ∧ (∀ k, k ≠ 4 * n.val + l.val → tget (fun _ => 0) t.lockAt k = tget (fun _ => 0) s.lockAt k)
      ∧ SameRegsBut [st] s t ∧ { t with regs := s.regs, lockAt := s.lockAt } = s)
    ∧ (loses → ∃ t, exec (.prbsLockLost n l) s = .next t ∧ t.bit st 1 = true ∧ ends t)
    ∧ (¬ locks → exec (.prbsCheckerLock n l) s = .next s) ∧ (¬ loses → exec (.prbsLockLost n l) s = .next s))
  ∧ (∀ (n : Fin 16) (l : Fin 4) (s : State) (ctle : BitVec 4) (dfe : BitVec 64), let c := Instr.adaptationConverged n l ctle dfe
    let adapts := quadOn s n.val = true ∧ laneState s n.val l.val false = 0 ∧ s.bit (QD_LANE_CTRL n.val l.val) 7 = false
    (adapts → ∃ t, exec c s = .next t ∧ t.reg (QD_LANE_RXEQ n.val l.val) = BitVec.ofNat 32 ctle.toNat
      ∧ t.pair (QD_LANE_DFE_LO n.val l.val) (QD_LANE_DFE_HI n.val l.val) = dfe.toNat ∧ t.fld (QD_LANE_STATE n.val l.val) 4 3 = 7
      ∧ SameRegsBut [QD_LANE_RXEQ n.val l.val, QD_LANE_DFE_LO n.val l.val, QD_LANE_DFE_HI n.val l.val, QD_LANE_STATE n.val l.val] s t
      ∧ { t with regs := s.regs } = s)
    ∧ (¬ adapts → exec c s = .next s)
    ∧ exec (.loopRecentre n l) s = .next (if quadOn s n.val = true ∧ quadTest s n.val = true ∧ s.fld (QD_LANE_LOOP n.val l.val) 0 2 = 2
      then s.inc (QD_LANE_LOOPSLIP n.val l.val) else s))

/-! ### The whole block -/

/-- A step runs the command at the front of the queue on the state with the queue's rest (the block's queue and its order are this model's
form of the row); that an empty queue lets time pass by one edge is the model's choice (log 1, log 3). -/
def Obligations.StepRunsFront : Prop :=
  (∀ (c : Instr) (rest : List Instr) (s : State), s.pending = c :: rest → step s = exec c { s with pending := rest })
  ∧ (∀ s : State, s.pending = [] → step s = .next (idleEdge (autoPrime s)))

/-- Every command runs on every state: no step ends in a fault or a refusal. -/
def Obligations.NeverStops : Prop :=
  ∀ s : State, ∃ t, step s = .next t

/-- OFF is left by the rise of PORST_N alone (R451): every step from it with no such rise waiting ends in it again, whatever command
comes. It holds in states that no run reaches, too. -/
def Obligations.OffStaysOff : Prop :=
  ∀ s t : State, OffState s → step s = .next t → OffState t

/-- PORST_N low takes the block from reset to OFF (R451). -/
def Obligations.ResetToOff : Prop :=
  ∃ t, exec .porstNLow State.reset = .next t ∧ OffState t
end

