-- ==== Sys2Proof/Laws/Jobs.lean ====
section
/-!
SUPPORT. What accepting, refusing and ending a job can do, and what a register access can come to: each said once.
-/

namespace Sys2Proof.Machine

@[simp] theorem accept_eq (s : State) (q : Req) (op : Nat) : accept s q op = (accepted s q op, s.nextJob) := rfl

/-- The job just accepted is the one its number names. -/
@[simp] theorem accepted_job (s : State) (q : Req) (op : Nat) : (accepted s q op).job s.nextJob = some (jobOf s q op) := by
  simp [State.job, accepted, jobOf, List.filter_append]

/-- The completions of the ABORTs that wait for a job's end (R290). -/
def lateCpls (s : State) (j : Job) (id st : Nat) : List Cpl :=
  ((s.jobs.filter fun x => x.id != id).filter fun x => j.abortBy.contains x.id).map fun a =>
    cplOf a (BitVec.ofNat 16 (if st = stAborted then stComplete else stAbortLate)) (abortBody j.req.index j.req.ring.val st)

/-- Ending a job: its completion, and after it those of the ABORTs that wait for it. -/
theorem finish_some {s : State} {id : Nat} {j : Job} (st : Nat) (body : BitVec 128) (h : s.job id = some j) (hy : j.yielded = false) :
    finish s id st body =
      { s with jobs := (s.jobs.filter fun x => x.id != id).filter fun x => !j.abortBy.contains x.id
               cpls := s.cpls ++ cplOf j (BitVec.ofNat 16 st) body :: lateCpls s j id st } := by
  unfold finish lateCpls
  simp only [h, hy, Bool.false_eq_true, if_false, List.append_assoc, List.singleton_append]

/-- Where there is no job, nothing ends. -/
theorem finish_none {s : State} {id : Nat} (st : Nat) (body : BitVec 128) (h : s.job id = none) : finish s id st body = s := by
  unfold finish; simp only [h]

/-- Ending a job that no ABORT waits for. -/
theorem finish_plain {s : State} {id : Nat} {j : Job} (st : Nat) (body : BitVec 128) (h : s.job id = some j) (hy : j.yielded = false)
    (ha : j.abortBy = []) :
    finish s id st body = { s with jobs := s.jobs.filter (fun x => x.id != id), cpls := s.cpls ++ [cplOf j (BitVec.ofNat 16 st) body] } := by
  rw [finish_some st body h hy]
  simp [lateCpls, ha]

/-- Ending the job just accepted. -/
@[simp] theorem finish_accepted (s : State) (q : Req) (op st : Nat) (body : BitVec 128) :
    finish (accepted s q op) s.nextJob st body = done s q op st body := by
  rw [finish_plain st body (accepted_job s q op) rfl rfl]
  simp [accepted, done, cplOf, jobOf, List.filter_append]

/-- Ending the job just accepted after the command changed other things. -/
theorem finish_on {s t : State} {q : Req} {op : Nat} (st : Nat) (body : BitVec 128) (h : t.jobs = s.jobs ++ [jobOf s q op]) :
    finish t s.nextJob st body =
      { t with jobs := s.jobs.filter (fun x => x.id != s.nextJob), cpls := t.cpls ++ [cplOf (jobOf s q op) (BitVec.ofNat 16 st) body] } := by
  have hj : t.job s.nextJob = some (jobOf s q op) := by simp [State.job, h, jobOf, List.filter_append]
  rw [finish_plain st body hj rfl rfl]
  simp [h, jobOf, List.filter_append]

theorem rerouted_ok {s : State} {q : Req} (h : badCring s q = false) : rerouted s q = q := by
  unfold rerouted; simp [h]

/-- A command that meets the common conditions reaches its own checks. -/
theorem soile_admitted {s : State} {q : Req} {op mask : Nat} {run : State → Nat → State} (h : Admitted s q mask) :
    soile s q op mask true run = run (accepted s q op) s.nextJob := by
  obtain ⟨h1, h2, h3, h4, h5⟩ := h
  unfold soile
  simp [h1, h2, h3, h4, h5, rerouted_ok h4]

/-- The same for a command that completes at acceptance. -/
theorem soileNow_admitted {s : State} {q : Req} {op mask : Nat} {run : State → State × Nat × BitVec 128} (h : Admitted s q mask) :
    soileNow s q op mask true run =
      finish (run (accepted s q op)).1 s.nextJob (run (accepted s q op)).2.1 (run (accepted s q op)).2.2 := by
  unfold soileNow; rw [soile_admitted h]

/-- All that a Soile command can come to before its own checks (R285, R287). -/
theorem soile_cases (s : State) (q : Req) (op mask : Nat) (modeOk : Bool) (run : State → Nat → State) :
    (s.ctl.core = false ∧ soile s q op mask modeOk run = s) ∨
    (∃ st, st ∈ [stReserved, stBadCring, stModeDenied, stSwapPending] ∧
      soile s q op mask modeOk run = finish (accepted s (rerouted s q) op) s.nextJob st) ∨
    soile s q op mask modeOk run = run (accepted s (rerouted s q) op) s.nextJob := by
  unfold soile
  cases hc : s.ctl.core
  · simp
  · refine .inr ?_
    simp only [Bool.not_true, Bool.false_eq_true, if_false, accept_eq]
    split
    · exact .inl ⟨_, by simp, rfl⟩
    · split
      · exact .inl ⟨_, by simp, rfl⟩
      · split
        · exact .inl ⟨_, by simp, rfl⟩
        · split
          · exact .inl ⟨_, by simp, rfl⟩
          · exact .inr rfl

/-- A guard passes where no check fails. -/
theorem guardJob_pass {s : State} {id : Nat} {checks : List (Bool × Nat)} {go : State → State} (h : firstFail checks = none) :
    guardJob s id checks go = go s := by
  unfold guardJob; simp [h]

/-- All that a guarded command can come to. -/
theorem guardJob_cases (s : State) (id : Nat) (checks : List (Bool × Nat)) (go : State → State) :
    (∃ st, firstFail checks = some st ∧ guardJob s id checks go = finish s id st) ∨ (firstFail checks = none ∧ guardJob s id checks go = go s) := by
  unfold guardJob
  cases h : firstFail checks with
  | none => exact .inr ⟨rfl, rfl⟩
  | some st => exact .inl ⟨st, rfl, rfl⟩

/-- An access that its initiator can carry shows the mode the core is in. -/
theorem modeSeen_of_carries {s : State} {a : Access} {addr : Nat} (h : s.carries a addr = true) : modeSeen s a = s := by
  unfold modeSeen
  by_cases hd : fromDesk a = true
  · have hs : 8 ≤ a.src.toNat ∧ a.src.toNat < 12 := by simpa [fromDesk] using hd
    unfold State.carries at h
    by_cases hc : s.ctl.core = true
    · have : ¬ a.src.toNat < 4 := by omega
      simp only [hc, this, hs.2, if_true, if_false, Bool.not_true, Bool.false_eq_true] at h
      unfold deskCarries at h
      by_cases hm : (s.desk (a.src.toNat - 8)).mode = 0 <;> simp_all
    · simp_all
  · simp [hd]

/-- All that a register write which has arisen can come to. -/
theorem regEnter_cases (s : State) (a : Access) (addr : Nat) (v : Word) (f : State → State) :
    (regDec s a .w addr = .go ∧ regEnter s a addr v f = f s) ∨ (regDec s a .w addr = .ignored ∧ regEnter s a addr v f = s)
    ∨ (∃ g, regDec s a .w addr = .violation g ∧ regEnter s a addr v f = (violation s g a .w addr 0).fails a .w)
    ∨ (regDec s a .w addr = .held ∧
        regEnter s a addr v f = { s with heldAcc := s.heldAcc ++ [regHeld a addr v] }) := by
  unfold regEnter
  cases h : regDec s a .w addr with
  | go => exact .inl ⟨rfl, rfl⟩
  | ignored => exact .inr (.inl ⟨rfl, rfl⟩)
  | violation g => exact .inr (.inr (.inl ⟨g, rfl, rfl⟩))
  | held => exact .inr (.inr (.inr ⟨rfl, rfl⟩))

/-- A register write arises in the state that shows its initiator's mode, where that initiator can carry it. -/
theorem regAccess_cases (s : State) (a : Access) (addr : Nat) (v : Word) (f : State → State) :
    ((modeSeen s a).carries a addr = true ∧ regAccess s a addr v f = regEnter (modeSeen s a) a addr v f)
    ∨ ((modeSeen s a).carries a addr = false ∧ regAccess s a addr v f = s) := by
  unfold regAccess
  cases h : (modeSeen s a).carries a addr with
  | true => exact .inl ⟨rfl, rfl⟩
  | false => exact .inr ⟨rfl, rfl⟩

/-- A write that is let through is performed. -/
theorem regAccess_go {s : State} {a : Access} {addr : Nat} {v : Word} {f : State → State} (h : Reaches s a .w addr) :
    regAccess s a addr v f = f s := by
  unfold regAccess regEnter; simp [modeSeen_of_carries h.1, h.1, h.2]

/-- The plain effect of a write on its own register (R6, R8). -/
theorem plainWrite_cases (s : State) (addr : Nat) (v : Word) :
    (rowAt addr = none ∧ plainWrite s addr v = s) ∨
    (∃ r, rowAt addr = some r ∧ plainWrite s addr v = s.setReg addr (writeWord (s.reg addr) v (writeBits s addr r) r.w1c)) := by
  unfold plainWrite
  cases h : rowAt addr with
  | none => exact .inl ⟨rfl, rfl⟩
  | some r => exact .inr ⟨r, rfl, rfl⟩

end Sys2Proof.Machine
end

