-- ==== Sys2Proof/Laws/PerInstr.lean ====
section
/-!
SUPPORT. One law for every command, constructor by constructor: the identity a well-formed command carries names a
partition 0-15 or none (31); partitions 16-30 are never carried (R19).
-/

namespace Sys2Proof.Laws.Identity

/-- The identity of the initiator a command comes from, where the command is an access (Table 1.5). -/
def accessOf : Instr → Option Access
  | .tbSnapGo a _ => some a
  | .tbAdjAdj a _ => some a
  | .tbAdjStep a _ => some a
  | .vrdCommit a _ => some a
  | .tgCtrlWrite a _ _ => some a
  | .tgRephase a _ _ => some a
  | .prtMgrWrite a _ => some a
  | .prtSwStart a _ _ => some a
  | .prtSwStop a _ _ => some a
  | .gateHold a _ _ => some a
  | .gateApply a _ _ => some a
  | .gateLock a _ _ => some a
  | .gateStagingWrite a _ _ _ => some a
  | .evcSetpend a _ => some a
  | .evcClrpend a _ => some a
  | .evcClaim a _ _ => some a
  | .evcEoi a _ _ => some a
  | .dskRunWrite a _ => some a
  | .chnEnum a _ => some a
  | .chnTrain a _ _ => some a
  | .chnDown a _ _ => some a
  | .chnSlip a _ _ => some a
  | .chnVaultWrite a _ => some a
  | .chnLogicalWrite a _ => some a
  | .rdnCmdTakeover a _ => some a
  | .rdnCmdShadow a _ => some a
  | .rdnCmdKeep a _ => some a
  | .rdnCmdCkpt a _ => some a
  | .hwkClear a _ => some a
  | .modeRequest a _ => some a
  | .aoHoldSet a _ => some a
  | .aoTrainInvalidate a _ => some a
  | .mboxIn7Write a _ => some a
  | .mboxOut7Write a _ => some a
  | .dbgTokenSubmit a _ _ => some a
  | .dbgFuseSubmit a _ _ => some a
  | .qd15UseWrite a _ => some a
  | .qdTestWrite a _ _ => some a
  | .laneSlip a _ _ _ => some a
  | .injectSingle a _ _ _ => some a
  | .injectBurst a _ _ _ => some a
  | .registerWrite a _ _ _ => some a
  | .initiatorMemoryAccess a _ _ _ _ => some a
  | _ => none

/-- What the family says of a command (R19). -/
def Statement (i : Instr) : Prop :=
  i.wf = true → ∀ a, accessOf i = some a → a.part.toNat < 16 ∨ a.part.toNat = 31

/-- A well-formed identity names a partition 0-15 or none. -/
theorem part_of_wf {a : Access} (h : a.wf = true) : a.part.toNat < 16 ∨ a.part.toNat = 31 := by
  simp only [Access.wf, Bool.and_eq_true, Bool.or_eq_true, decide_eq_true_eq, beq_iff_eq] at h
  exact h.1

/-- A command that carries an identity is as the law says when its well-formedness contains the identity's. -/
theorem of_wf {i : Instr} {a : Access} (ha : accessOf i = some a) (hw : i.wf = true → a.wf = true) : Statement i := by
  intro h b hb
  rw [ha] at hb
  cases hb
  exact part_of_wf (hw h)

/-- A command that carries no identity is as the law says. -/
theorem of_none {i : Instr} (h : accessOf i = none) : Statement i := by
  intro _ b hb
  rw [h] at hb
  cases hb

theorem partCreate : ∀ q, Statement (.partCreate q) := fun _ => of_none rfl
theorem partGrant : ∀ q, Statement (.partGrant q) := fun _ => of_none rfl
theorem partQuota : ∀ q, Statement (.partQuota q) := fun _ => of_none rfl
theorem partStop : ∀ q, Statement (.partStop q) := fun _ => of_none rfl
theorem partDestroy : ∀ q, Statement (.partDestroy q) := fun _ => of_none rfl
theorem flowAdd : ∀ q, Statement (.flowAdd q) := fun _ => of_none rfl
theorem flowCfg : ∀ q, Statement (.flowCfg q) := fun _ => of_none rfl
theorem flowStop : ∀ q, Statement (.flowStop q) := fun _ => of_none rfl
theorem flowDel : ∀ q, Statement (.flowDel q) := fun _ => of_none rfl
theorem flowSend : ∀ q, Statement (.flowSend q) := fun _ => of_none rfl
theorem flowEgress : ∀ q, Statement (.flowEgress q) := fun _ => of_none rfl
theorem streamOpen : ∀ q, Statement (.streamOpen q) := fun _ => of_none rfl
theorem streamParams : ∀ q, Statement (.streamParams q) := fun _ => of_none rfl
theorem streamClose : ∀ q, Statement (.streamClose q) := fun _ => of_none rfl
theorem decBind : ∀ q, Statement (.decBind q) := fun _ => of_none rfl
theorem decUnbind : ∀ q, Statement (.decUnbind q) := fun _ => of_none rfl
theorem decFlush : ∀ q, Statement (.decFlush q) := fun _ => of_none rfl
theorem ippRun : ∀ q, Statement (.ippRun q) := fun _ => of_none rfl
theorem ippFollow : ∀ q, Statement (.ippFollow q) := fun _ => of_none rfl
theorem ippUnfollow : ∀ q, Statement (.ippUnfollow q) := fun _ => of_none rfl
theorem encOpen : ∀ q, Statement (.encOpen q) := fun _ => of_none rfl
theorem encPic : ∀ q, Statement (.encPic q) := fun _ => of_none rfl
theorem encRefresh : ∀ q, Statement (.encRefresh q) := fun _ => of_none rfl
theorem encClose : ∀ q, Statement (.encClose q) := fun _ => of_none rfl
theorem surfCreate : ∀ q, Statement (.surfCreate q) := fun _ => of_none rfl
theorem surfRelease : ∀ q, Statement (.surfRelease q) := fun _ => of_none rfl
theorem surfUpload : ∀ q, Statement (.surfUpload q) := fun _ => of_none rfl
theorem layerCreate : ∀ q, Statement (.layerCreate q) := fun _ => of_none rfl
theorem layerUpdate : ∀ q, Statement (.layerUpdate q) := fun _ => of_none rfl
theorem layerDestroy : ∀ q, Statement (.layerDestroy q) := fun _ => of_none rfl
theorem sealGroup : ∀ q, Statement (.sealGroup q) := fun _ => of_none rfl
theorem sealCmd : ∀ q, Statement (.sealCmd q) := fun _ => of_none rfl
theorem fenceSignal : ∀ q, Statement (.fenceSignal q) := fun _ => of_none rfl
theorem fenceWait : ∀ q, Statement (.fenceWait q) := fun _ => of_none rfl
theorem fenceWaitPoll : ∀ part ring read, Statement (.fenceWaitPoll part ring read) := fun _ _ _ => of_none rfl
theorem headSet : ∀ q, Statement (.headSet q) := fun _ => of_none rfl
theorem headEnable : ∀ q, Statement (.headEnable q) := fun _ => of_none rfl
theorem headWb : ∀ q, Statement (.headWb q) := fun _ => of_none rfl
theorem headLink : ∀ q, Statement (.headLink q) := fun _ => of_none rfl
theorem linkTrainingDone : ∀ head t, Statement (.linkTrainingDone head t) := fun _ _ => of_none rfl
theorem headAux : ∀ q, Statement (.headAux q) := fun _ => of_none rfl
theorem auxReply : ∀ head r, Statement (.auxReply head r) := fun _ _ => of_none rfl
theorem tchCfg : ∀ q, Statement (.tchCfg q) := fun _ => of_none rfl
theorem tchMap : ∀ q, Statement (.tchMap q) := fun _ => of_none rfl
theorem tchBaseline : ∀ q, Statement (.tchBaseline q) := fun _ => of_none rfl
theorem tchRebase : ∀ q, Statement (.tchRebase q) := fun _ => of_none rfl
theorem tchRaw : ∀ q, Statement (.tchRaw q) := fun _ => of_none rfl
theorem tchSelftest : ∀ q, Statement (.tchSelftest q) := fun _ => of_none rfl
theorem tchRing : ∀ q, Statement (.tchRing q) := fun _ => of_none rfl
theorem dceComp : ∀ q, Statement (.dceComp q) := fun _ => of_none rfl
theorem dceDecomp : ∀ q, Statement (.dceDecomp q) := fun _ => of_none rfl
theorem dceStart : ∀ e, Statement (.dceStart e) := fun _ => of_none rfl
theorem dceItemComplete : ∀ e host, Statement (.dceItemComplete e host) := fun _ _ => of_none rfl
theorem crcRun : ∀ q, Statement (.crcRun q) := fun _ => of_none rfl
theorem crcJobEnd : ∀ u host, Statement (.crcJobEnd u host) := fun _ _ => of_none rfl
theorem timeAdj : ∀ q, Statement (.timeAdj q) := fun _ => of_none rfl
theorem timeStep : ∀ q, Statement (.timeStep q) := fun _ => of_none rfl
theorem timeRead : ∀ q, Statement (.timeRead q) := fun _ => of_none rfl
theorem timePtpTx : ∀ q, Statement (.timePtpTx q) := fun _ => of_none rfl
theorem chnTxStream : ∀ q, Statement (.chnTxStream q) := fun _ => of_none rfl
theorem chnRxStream : ∀ q, Statement (.chnRxStream q) := fun _ => of_none rfl
theorem chnTxSurf : ∀ q, Statement (.chnTxSurf q) := fun _ => of_none rfl
theorem chnRxSurf : ∀ q, Statement (.chnRxSurf q) := fun _ => of_none rfl
theorem chnSend : ∀ q, Statement (.chnSend q) := fun _ => of_none rfl
theorem chnRxring : ∀ q, Statement (.chnRxring q) := fun _ => of_none rfl
theorem rdnCkpt : ∀ q, Statement (.rdnCkpt q) := fun _ => of_none rfl
theorem rdnShadow : ∀ q, Statement (.rdnShadow q) := fun _ => of_none rfl
theorem rdnSwap : ∀ q, Statement (.rdnSwap q) := fun _ => of_none rfl
theorem rdnTakeover : ∀ q, Statement (.rdnTakeover q) := fun _ => of_none rfl
theorem abort : ∀ q, Statement (.abort q) := fun _ => of_none rfl
theorem tbSnapGo : ∀ a v, Statement (.tbSnapGo a v) := fun _ _ => of_wf rfl fun h => h
theorem tbAdjAdj : ∀ a v, Statement (.tbAdjAdj a v) := fun _ _ => of_wf rfl fun h => h
theorem tbAdjStep : ∀ a v, Statement (.tbAdjStep a v) := fun _ _ => of_wf rfl fun h => h
theorem adjustmentEffect : Statement (.adjustmentEffect) := of_none rfl
theorem vrdCommit : ∀ a v, Statement (.vrdCommit a v) := fun _ _ => of_wf rfl fun h => h
theorem commitDecided : Statement (.commitDecided) := of_none rfl
theorem tgCtrlWrite : ∀ a g v, Statement (.tgCtrlWrite a g v) := fun _ _ _ => of_wf rfl fun h => h
theorem tgRephase : ∀ a g v, Statement (.tgRephase a g v) := fun _ _ _ => of_wf rfl fun h => h
theorem prtMgrWrite : ∀ a v, Statement (.prtMgrWrite a v) := fun _ _ => of_wf rfl fun h => h
theorem prtSwStart : ∀ a p v, Statement (.prtSwStart a p v) := fun _ _ _ => of_wf rfl fun h => h
theorem prtSwStop : ∀ a p v, Statement (.prtSwStop a p v) := fun _ _ _ => of_wf rfl fun h => h
theorem gateHold : ∀ a e v, Statement (.gateHold a e v) := fun _ _ _ => of_wf rfl fun h => h
theorem gateApply : ∀ a e v, Statement (.gateApply a e v) := fun _ _ _ => of_wf rfl fun h => h
theorem gateLock : ∀ a e v, Statement (.gateLock a e v) := fun _ _ _ => of_wf rfl fun h => h
theorem gateStagingWrite : ∀ a e i v, Statement (.gateStagingWrite a e i v) := fun _ _ _ _ => of_wf rfl fun h => by simp [Instr.wf] at h; tauto
theorem evcSetpend : ∀ a v, Statement (.evcSetpend a v) := fun _ _ => of_wf rfl fun h => h
theorem evcClrpend : ∀ a v, Statement (.evcClrpend a v) := fun _ _ => of_wf rfl fun h => h
theorem evcClaim : ∀ a k v, Statement (.evcClaim a k v) := fun _ _ _ => of_wf rfl fun h => h
theorem evcEoi : ∀ a k v, Statement (.evcEoi a k v) := fun _ _ _ => of_wf rfl fun h => h
theorem evcSourceInput : ∀ id level, Statement (.evcSourceInput id level) := fun _ _ => of_none rfl
theorem dskRunWrite : ∀ a v, Statement (.dskRunWrite a v) := fun _ _ => of_wf rfl fun h => h
theorem wfiSleep : ∀ k, Statement (.wfiSleep k) := fun _ => of_none rfl
theorem wakeLatch : ∀ k, Statement (.wakeLatch k) := fun _ => of_none rfl
theorem chnEnum : ∀ a v, Statement (.chnEnum a v) := fun _ _ => of_wf rfl fun h => h
theorem enumTimeout : Statement (.enumTimeout) := of_none rfl
theorem chnTrain : ∀ a p v, Statement (.chnTrain a p v) := fun _ _ _ => of_wf rfl fun h => h
theorem chnDown : ∀ a p v, Statement (.chnDown a p v) := fun _ _ _ => of_wf rfl fun h => h
theorem chnSlip : ∀ a p v, Statement (.chnSlip a p v) := fun _ _ _ => of_wf rfl fun h => h
theorem wordLock : ∀ p lane, Statement (.wordLock p lane) := fun _ _ => of_none rfl
theorem laneDeskew : ∀ p sameSide skew, Statement (.laneDeskew p sameSide skew) := fun _ _ _ => of_none rfl
theorem readyBitReceived : ∀ p, Statement (.readyBitReceived p) := fun _ => of_none rfl
theorem lockLost : ∀ p lane, Statement (.lockLost p lane) := fun _ _ => of_none rfl
theorem chnVaultWrite : ∀ a v, Statement (.chnVaultWrite a v) := fun _ _ => of_wf rfl fun h => h
theorem chnLogicalWrite : ∀ a v, Statement (.chnLogicalWrite a v) := fun _ _ => of_wf rfl fun h => h
theorem rdnCmdTakeover : ∀ a v, Statement (.rdnCmdTakeover a v) := fun _ _ => of_wf rfl fun h => h
theorem rdnCmdShadow : ∀ a v, Statement (.rdnCmdShadow a v) := fun _ _ => of_wf rfl fun h => h
theorem rdnCmdKeep : ∀ a v, Statement (.rdnCmdKeep a v) := fun _ _ => of_wf rfl fun h => h
theorem rdnCmdCkpt : ∀ a v, Statement (.rdnCmdCkpt a v) := fun _ _ => of_wf rfl fun h => h
theorem hwkClear : ∀ a v, Statement (.hwkClear a v) := fun _ _ => of_wf rfl fun h => h
theorem modeRequest : ∀ a v, Statement (.modeRequest a v) := fun _ _ => of_wf rfl fun h => h
theorem primeSequenceComplete : ∀ b, Statement (.primeSequenceComplete b) := fun _ => of_none rfl
theorem aoHoldSet : ∀ a v, Statement (.aoHoldSet a v) := fun _ _ => of_wf rfl fun h => h
theorem aoTrainInvalidate : ∀ a v, Statement (.aoTrainInvalidate a v) := fun _ _ => of_wf rfl fun h => h
theorem mgtSetPointer : ∀ ptr pecOk, Statement (.mgtSetPointer ptr pecOk) := fun _ _ => of_none rfl
theorem mgtWriteWords : ∀ ws pecOk, Statement (.mgtWriteWords ws pecOk) := fun _ _ => of_none rfl
theorem mgtReadWord : Statement (.mgtReadWord) := of_none rfl
theorem mgtModeRequest : ∀ code pecOk, Statement (.mgtModeRequest code pecOk) := fun _ _ => of_none rfl
theorem mgtReadMode : Statement (.mgtReadMode) := of_none rfl
theorem mboxIn7Write : ∀ a v, Statement (.mboxIn7Write a v) := fun _ _ => of_wf rfl fun h => h
theorem mboxOut7Write : ∀ a v, Statement (.mboxOut7Write a v) := fun _ _ => of_wf rfl fun h => h
theorem dbgTokenSubmit : ∀ a v verifies, Statement (.dbgTokenSubmit a v verifies) := fun _ _ _ => of_wf rfl fun h => h
theorem dbgFuseSubmit : ∀ a v verifies, Statement (.dbgFuseSubmit a v verifies) := fun _ _ _ => of_wf rfl fun h => h
theorem qd15UseWrite : ∀ a v, Statement (.qd15UseWrite a v) := fun _ _ => of_wf rfl fun h => h
theorem qdTestWrite : ∀ a n v, Statement (.qdTestWrite a n v) := fun _ _ _ => of_wf rfl fun h => h
theorem laneSlip : ∀ a n l v, Statement (.laneSlip a n l v) := fun _ _ _ _ => of_wf rfl fun h => h
theorem injectSingle : ∀ a n l v, Statement (.injectSingle a n l v) := fun _ _ _ _ => of_wf rfl fun h => h
theorem injectBurst : ∀ a n l v, Statement (.injectBurst a n l v) := fun _ _ _ _ => of_wf rfl fun h => h
theorem registerWrite : ∀ a addr be v, Statement (.registerWrite a addr be v) := fun _ _ _ _ => of_wf rfl fun h => by simp [Instr.wf] at h; tauto
theorem porstNLow : Statement (.porstNLow) := of_none rfl
theorem porstNRise : ∀ straps, Statement (.porstNRise straps) := fun _ => of_none rfl
theorem corePgFall : Statement (.corePgFall) := of_none rfl
theorem wakeNEdge : ∀ ns, Statement (.wakeNEdge ns) := fun _ => of_none rfl
theorem genlockEdge : ∀ pin, Statement (.genlockEdge pin) := fun _ => of_none rfl
theorem tsyncEdge : ∀ pin, Statement (.tsyncEdge pin) := fun _ => of_none rfl
theorem hpdTransition : ∀ head level, Statement (.hpdTransition head level) := fun _ _ => of_none rfl
theorem hpdDisconnect : ∀ head, Statement (.hpdDisconnect head) := fun _ => of_none rfl
theorem irqHpd : ∀ head dpcd, Statement (.irqHpd head dpcd) := fun _ _ => of_none rfl
theorem hostLinkDown : ∀ p, Statement (.hostLinkDown p) := fun _ => of_none rfl
theorem ethFrameRx : ∀ p frame, Statement (.ethFrameRx p frame) := fun _ _ => of_none rfl
theorem srTimeout : ∀ f, Statement (.srTimeout f) := fun _ => of_none rfl
theorem auRelease : ∀ f, Statement (.auRelease f) := fun _ => of_none rfl
theorem egressPacket : ∀ e, Statement (.egressPacket e) := fun _ => of_none rfl
theorem tileRecordApply : ∀ e, Statement (.tileRecordApply e) := fun _ => of_none rfl
theorem sweeperVisit : ∀ entry e, Statement (.sweeperVisit entry e) := fun _ _ => of_none rfl
theorem decodeStart : ∀ core i, Statement (.decodeStart core i) := fun _ _ => of_none rfl
theorem decodeComplete : ∀ core r, Statement (.decodeComplete core r) := fun _ _ => of_none rfl
theorem pictureOutput : ∀ ctx, Statement (.pictureOutput ctx) := fun _ => of_none rfl
theorem ippStart : ∀ i, Statement (.ippStart i) := fun _ => of_none rfl
theorem ippComplete : ∀ i, Statement (.ippComplete i) := fun _ => of_none rfl
theorem encPictureStart : ∀ sess, Statement (.encPictureStart sess) := fun _ => of_none rfl
theorem encPictureComplete : ∀ sess sets heads rows, Statement (.encPictureComplete sess sets heads rows) := fun _ _ _ _ => of_none rfl
theorem tgFrameBoundary : ∀ g, Statement (.tgFrameBoundary g) := fun _ => of_none rfl
theorem commitPoint : ∀ head, Statement (.commitPoint head) := fun _ => of_none rfl
theorem fenceReadReturn : ∀ head host addr read, Statement (.fenceReadReturn head host addr read) := fun _ _ _ _ => of_none rfl
theorem fenceDeadline : ∀ head, Statement (.fenceDeadline head) := fun _ => of_none rfl
theorem sealInstantS : ∀ g, Statement (.sealInstantS g) := fun _ => of_none rfl
theorem sealInstantD : ∀ g, Statement (.sealInstantD g) := fun _ => of_none rfl
theorem sealInstantC : ∀ g, Statement (.sealInstantC g) := fun _ => of_none rfl
theorem bandEvaluation : ∀ head band bad fixed, Statement (.bandEvaluation head band bad fixed) := fun _ _ _ _ => of_none rfl
theorem bandLate : ∀ head band, Statement (.bandLate head band) := fun _ _ => of_none rfl
theorem vrdWatchdog : ∀ head, Statement (.vrdWatchdog head) := fun _ => of_none rfl
theorem gateIsoLate : ∀ head band layer lo hi, Statement (.gateIsoLate head band layer lo hi) := fun _ _ _ _ _ => of_none rfl
theorem witnessBandCompare : ∀ head band unpainted, Statement (.witnessBandCompare head band unpainted) := fun _ _ _ => of_none rfl
theorem bandCrcCompare : ∀ head band fault, Statement (.bandCrcCompare head band fault) := fun _ _ _ => of_none rfl
theorem wbReadback : ∀ head band fault, Statement (.wbReadback head band fault) := fun _ _ _ => of_none rfl
theorem writebackComplete : ∀ head, Statement (.writebackComplete head) := fun _ => of_none rfl
theorem sinkCrcRead : ∀ head r, Statement (.sinkCrcRead head r) := fun _ _ => of_none rfl
theorem mirrorWrite : ∀ p, Statement (.mirrorWrite p) := fun _ => of_none rfl
theorem doorbellRead : ∀ p page descs plogCons, Statement (.doorbellRead p page descs plogCons) := fun _ _ _ _ => of_none rfl
theorem descriptorAccept : ∀ p ring host, Statement (.descriptorAccept p ring host) := fun _ _ _ => of_none rfl
theorem jobCompletion : Statement (.jobCompletion) := of_none rfl
theorem backlogWrite : ∀ p, Statement (.backlogWrite p) := fun _ => of_none rfl
theorem enumRx : ∀ p m, Statement (.enumRx p m) := fun _ _ => of_none rfl
theorem timeRx : ∀ p m ingress, Statement (.timeRx p m ingress) := fun _ _ _ => of_none rfl
theorem timeSend : Statement (.timeSend) := of_none rfl
theorem readyRx : ∀ p m, Statement (.readyRx p m) := fun _ _ => of_none rfl
theorem commitRx : ∀ p m, Statement (.commitRx p m) := fun _ _ => of_none rfl
theorem helloSend : Statement (.helloSend) := of_none rfl
theorem helloRx : ∀ p m, Statement (.helloRx p m) := fun _ _ => of_none rfl
theorem helloTimeout : ∀ addr, Statement (.helloTimeout addr) := fun _ => of_none rfl
theorem yieldRx : ∀ p m, Statement (.yieldRx p m) := fun _ _ => of_none rfl
theorem ctrlRx : ∀ p m, Statement (.ctrlRx p m) := fun _ _ => of_none rfl
theorem streamRx : ∀ p m, Statement (.streamRx p m) := fun _ _ => of_none rfl
theorem surfaceRx : ∀ p m, Statement (.surfaceRx p m) := fun _ _ => of_none rfl
theorem ckptRx : ∀ p m, Statement (.ckptRx p m) := fun _ _ => of_none rfl
theorem messageForward : ∀ p m residence, Statement (.messageForward p m residence) := fun _ _ _ => of_none rfl
theorem nakRx : ∀ p n, Statement (.nakRx p n) := fun _ _ => of_none rfl
theorem nakResend : ∀ p, Statement (.nakResend p) := fun _ => of_none rfl
theorem replayTimeout : ∀ p, Statement (.replayTimeout p) := fun _ => of_none rfl
theorem cutRx : ∀ p cls, Statement (.cutRx p cls) := fun _ _ => of_none rfl
theorem pdlyReqSend : ∀ p, Statement (.pdlyReqSend p) := fun _ => of_none rfl
theorem pdlyReqRx : ∀ p turnaround, Statement (.pdlyReqRx p turnaround) := fun _ _ => of_none rfl
theorem pdlyRespRx : ∀ p turnaround elapsed, Statement (.pdlyRespRx p turnaround elapsed) := fun _ _ _ => of_none rfl
theorem checkpoint : Statement (.checkpoint) := of_none rfl
theorem shadowApply : Statement (.shadowApply) := of_none rfl
theorem ringTakeover : ∀ origin m, Statement (.ringTakeover origin m) := fun _ _ => of_none rfl
theorem ringShadow : ∀ origin m, Statement (.ringShadow origin m) := fun _ _ => of_none rfl
theorem ringKeep : ∀ origin m, Statement (.ringKeep origin m) := fun _ _ => of_none rfl
theorem swapPrep : ∀ origin m, Statement (.swapPrep origin m) := fun _ _ => of_none rfl
theorem swapAck : ∀ origin m, Statement (.swapAck origin m) := fun _ _ => of_none rfl
theorem swapGo : ∀ origin m, Statement (.swapGo origin m) := fun _ _ => of_none rfl
theorem swapArmed : ∀ origin m, Statement (.swapArmed origin m) := fun _ _ => of_none rfl
theorem swapCancel : ∀ origin m, Statement (.swapCancel origin m) := fun _ _ => of_none rfl
theorem swapInstantD : Statement (.swapInstantD) := of_none rfl
theorem swapInstantC : Statement (.swapInstantC) := of_none rfl
theorem swapDue : Statement (.swapDue) := of_none rfl
theorem touchSlot : ∀ p samples, Statement (.touchSlot p samples) := fun _ _ => of_none rfl
theorem touchScanEnd : ∀ p, Statement (.touchScanEnd p) := fun _ => of_none rfl
theorem touchSyncLost : ∀ p, Statement (.touchSyncLost p) := fun _ => of_none rfl
theorem touchStuck : ∀ p contact node, Statement (.touchStuck p contact node) := fun _ _ _ => of_none rfl
theorem arbiterTick : Statement (.arbiterTick) := of_none rfl
theorem powerDeferred : ∀ cls, Statement (.powerDeferred cls) := fun _ => of_none rfl
theorem tokenRelease : ∀ item, Statement (.tokenRelease item) := fun _ => of_none rfl
theorem thermalSample : ∀ tj, Statement (.thermalSample tj) := fun _ => of_none rfl
theorem thermalShutdown : Statement (.thermalShutdown) := of_none rfl
theorem pllIdleStop : ∀ p, Statement (.pllIdleStop p) := fun _ => of_none rfl
theorem corePgRise : Statement (.corePgRise) := of_none rfl
theorem primeTimeout : ∀ limit, Statement (.primeTimeout limit) := fun _ => of_none rfl
theorem trstNLow : Statement (.trstNLow) := of_none rfl
theorem machineTimerExpiry : ∀ k, Statement (.machineTimerExpiry k) := fun _ => of_none rfl
theorem tchPump : ∀ p, Statement (.tchPump p) := fun _ => of_none rfl
theorem hostLinkUp : ∀ p speed width, Statement (.hostLinkUp p speed width) := fun _ _ _ => of_none rfl
theorem ethLinkChange : ∀ p up fec, Statement (.ethLinkChange p up fec) := fun _ _ _ => of_none rfl
theorem flitCheckFail : ∀ p poisoned, Statement (.flitCheckFail p poisoned) := fun _ _ => of_none rfl
theorem ackCreditRx : ∀ p ack credits, Statement (.ackCreditRx p ack credits) := fun _ _ _ => of_none rfl
theorem ackDue : ∀ p, Statement (.ackDue p) := fun _ => of_none rfl
theorem uploadTileRowDone : ∀ job host, Statement (.uploadTileRowDone job host) := fun _ _ => of_none rfl
theorem mgtUnsupportedTransaction : Statement (.mgtUnsupportedTransaction) := of_none rfl
theorem initiatorMemoryAccess : ∀ a f addr len data, Statement (.initiatorMemoryAccess a f addr len data) := fun _ _ _ _ _ => of_wf rfl fun h => by simp [Instr.wf] at h; tauto
theorem prbsCheckerLock : ∀ n l, Statement (.prbsCheckerLock n l) := fun _ _ => of_none rfl
theorem prbsLockLost : ∀ n l, Statement (.prbsLockLost n l) := fun _ _ => of_none rfl
theorem adaptationConverged : ∀ n l ctle dfe, Statement (.adaptationConverged n l ctle dfe) := fun _ _ _ _ => of_none rfl
theorem loopRecentre : ∀ n l, Statement (.loopRecentre n l) := fun _ _ => of_none rfl
theorem vaultZeroed : Statement (.vaultZeroed) := of_none rfl
theorem fuseProgramDone : ∀ readback, Statement (.fuseProgramDone readback) := fun _ => of_none rfl

end Sys2Proof.Laws.Identity
end

