-- ==== Sys2Proof/Laws/Tables.lean ====
section
/-!
SUPPORT. Sparse tables and memory: a read after a write, the canonical form kept, what a store changes and leaves.
-/

namespace Sys2Proof.Machine

variable {α : Type}

/-! ### Tables -/

@[simp] theorem tget_nil (d : Nat → α) (k : Nat) : tget d [] k = d k := rfl

theorem tget_cons (d : Nat → α) (j : Nat) (u : α) (t : Tbl α) (k : Nat) :
    tget d ((j, u) :: t) k = if j = k then u else tget d t k := rfl

/-- An entry put in its place is read back. -/
theorem tget_tput_same (d : Nat → α) : ∀ (t : Tbl α) (k : Nat) (v : α), tget d (tput t k v) k = v
  | [], k, v => by simp [tput, tget]
  | (j, u) :: t, k, v => by
    simp only [tput]
    split
    · rename_i h; rw [tget_cons, if_neg (Nat.ne_of_lt h)]; exact tget_tput_same d t k v
    · split <;> simp [tget]

theorem tget_tput_ne (d : Nat → α) : ∀ (t : Tbl α) (k : Nat) (v : α) (a : Nat), a ≠ k → tget d (tput t k v) a = tget d t a
  | [], k, v, a, ha => by simp [tput, tget, Ne.symm ha]
  | (j, u) :: t, k, v, a, ha => by
    simp only [tput]
    split
    · simp only [tget]; split
      · rfl
      · exact tget_tput_ne d t k v a ha
    · split
      · rename_i h; subst h; simp [tget, Ne.symm ha]
      · simp [tget, Ne.symm ha]

theorem tget_filter_same (d : Nat → α) : ∀ (t : Tbl α) (k : Nat), tget d (t.filter fun x => x.1 != k) k = d k
  | [], _ => rfl
  | (j, u) :: t, k => by
    rw [List.filter_cons]
    split
    · rename_i h
      have h' : j ≠ k := by simpa using h
      rw [tget_cons, if_neg h']; exact tget_filter_same d t k
    · exact tget_filter_same d t k

theorem tget_filter_ne (d : Nat → α) : ∀ (t : Tbl α) (k a : Nat), a ≠ k → tget d (t.filter fun x => x.1 != k) a = tget d t a
  | [], _, _, _ => rfl
  | (j, u) :: t, k, a, ha => by
    rw [List.filter_cons]
    split
    · simp only [tget]; split
      · rfl
      · exact tget_filter_ne d t k a ha
    · rename_i h
      have h' : j = k := by simpa using h
      rw [tget_cons, if_neg (by omega)]; exact tget_filter_ne d t k a ha

variable [DecidableEq α]

/-- A read after a write of the same key. -/
@[simp] theorem tget_tset_same (d : Nat → α) (t : Tbl α) (k : Nat) (v : α) : tget d (tset d t k v) k = v := by
  unfold tset
  split
  · rename_i h; rw [h]; exact tget_filter_same d t k
  · exact tget_tput_same d t k v

/-- A write leaves every other key as it was. -/
theorem tget_tset_ne (d : Nat → α) (t : Tbl α) (k : Nat) (v : α) (a : Nat) (ha : a ≠ k) : tget d (tset d t k v) a = tget d t a := by
  unfold tset
  split
  · exact tget_filter_ne d t k a ha
  · exact tget_tput_ne d t k v a ha

theorem twfFrom_none (d : Nat → α) {lo : Option Nat} {t : Tbl α} (h : twfFrom d lo t = true) : twfFrom d none t = true := by
  cases t with
  | nil => rfl
  | cons x t => obtain ⟨j, u⟩ := x; simp only [twfFrom, Bool.and_eq_true] at h ⊢; exact ⟨⟨trivial, h.1.2⟩, h.2⟩

/-- A lower start keeps the form. -/
theorem twfFrom_lower (d : Nat → α) {a b : Nat} (hab : a ≤ b) {t : Tbl α} (h : twfFrom d (some b) t = true) : twfFrom d (some a) t = true := by
  cases t with
  | nil => rfl
  | cons x t =>
    obtain ⟨j, u⟩ := x
    simp only [twfFrom, Bool.and_eq_true, decide_eq_true_eq] at h ⊢
    exact ⟨⟨by omega, h.1.2⟩, h.2⟩

/-- A selection of entries keeps the canonical form. -/
theorem twfFrom_filter (d : Nat → α) (f : Nat × α → Bool) : ∀ (t : Tbl α) (lo : Option Nat),
    twfFrom d lo t = true → twfFrom d lo (t.filter f) = true
  | [], _, _ => rfl
  | (j, u) :: t, lo, h => by
    simp only [twfFrom, Bool.and_eq_true] at h
    rw [List.filter_cons]
    split
    · simp only [twfFrom, Bool.and_eq_true]
      exact ⟨h.1, twfFrom_filter d f t (some j) h.2⟩
    · have := twfFrom_filter d f t (some j) h.2
      cases lo with
      | none => exact twfFrom_none d this
      | some l => exact twfFrom_lower d (by have := h.1.1; simp at this; omega) this

theorem twf_filter (d : Nat → α) (f : Nat × α → Bool) {t : Tbl α} (h : twf d t = true) : twf d (t.filter f) = true :=
  twfFrom_filter d f t none h

/-- Putting an entry that is not its key's default keeps the canonical form above a lower bound of its key. -/
theorem twfFrom_tput (d : Nat → α) : ∀ (t : Tbl α) (lo : Option Nat) (k : Nat) (v : α), v ≠ d k →
    twfFrom d lo t = true → (∀ l, lo = some l → l < k) → twfFrom d lo (tput t k v) = true
  | [], lo, k, v, hv, _, hk => by
    cases lo with
    | none => simp [tput, twfFrom, hv]
    | some l => simp [tput, twfFrom, hv, hk l rfl]
  | (j, u) :: t, lo, k, v, hv, h, hk => by
    simp only [twfFrom, Bool.and_eq_true] at h
    simp only [tput]
    by_cases h1 : j < k
    · simp only [if_pos h1, twfFrom, Bool.and_eq_true]
      exact ⟨h.1, twfFrom_tput d t (some j) k v hv h.2 (by simpa using h1)⟩
    · simp only [if_neg h1]
      by_cases h2 : j = k
      · subst h2
        simp only [if_pos, twfFrom, Bool.and_eq_true]
        exact ⟨⟨h.1.1, by simp [hv]⟩, h.2⟩
      · simp only [if_neg h2, twfFrom, Bool.and_eq_true]
        refine ⟨⟨?_, by simp [hv]⟩, ⟨by simp; omega, h.1.2⟩, h.2⟩
        cases lo with
        | none => trivial
        | some l => simp [hk l rfl]

/-- A write keeps the canonical form. -/
theorem twf_tset (d : Nat → α) {t : Tbl α} (k : Nat) (v : α) (h : twf d t = true) : twf d (tset d t k v) = true := by
  unfold tset
  split
  · exact twf_filter d _ h
  · rename_i hv; exact twfFrom_tput d t none k v hv h (by simp)

/-! ### Registers -/

/-- The canonical form of the register table. -/
theorem State.setReg_wf {s : State} (a : Nat) (v : Word) (h : twf regReset s.regs = true) : twf regReset (s.setReg a v).regs = true :=
  twf_tset regReset a v h

/-- A register reads as it was last written. -/
@[simp] theorem State.reg_setReg_same (s : State) (a : Nat) (v : Word) : (s.setReg a v).reg a = v := tget_tset_same regReset s.regs a v

/-- A write of one register leaves every other. -/
theorem State.reg_setReg_ne (s : State) {a b : Nat} (v : Word) (h : b ≠ a) : (s.setReg a v).reg b = s.reg b :=
  tget_tset_ne regReset s.regs a v b h

/-! ### Memory -/

theorem storeBytes_wf : ∀ (bs : Bytes) (m : List Host.Cell) (a : Nat), Memory.wf m = true → Memory.wf (storeBytes m a bs) = true
  | [], _, _, h => h
  | b :: bs, m, a, h => storeBytes_wf bs (tset memUnlisted m a b) (a + 1) (twf_tset memUnlisted a b h)

/-- A store keeps the canonical form of memory. -/
theorem State.store_wf {s : State} (a : Nat) (bs : Bytes) (h : Memory.wf s.mem = true) : Memory.wf (s.store a bs).mem = true :=
  storeBytes_wf bs s.mem a h

/-- Dropping a range keeps the canonical form of memory. -/
theorem State.forget_wf {s : State} (a n : Nat) (h : Memory.wf s.mem = true) : Memory.wf (s.forget a n).mem = true :=
  twf_filter memUnlisted _ h

theorem storeBytes_outside : ∀ (bs : Bytes) (m : List Host.Cell) (a x : Nat), (x < a ∨ a + bs.length ≤ x) →
    tget memUnlisted (storeBytes m a bs) x = tget memUnlisted m x
  | [], _, _, _, _ => rfl
  | b :: bs, m, a, x, h => by
    simp only [List.length_cons] at h
    rw [storeBytes, storeBytes_outside bs _ (a + 1) x (by omega), tget_tset_ne memUnlisted m a b x (by omega)]

/-- A store leaves every byte outside the stored ones. -/
theorem State.load8_store_outside (s : State) {a x : Nat} (bs : Bytes) (h : x < a ∨ a + bs.length ≤ x) : (s.store a bs).load8 x = s.load8 x :=
  storeBytes_outside bs s.mem a x h

theorem storeBytes_inside : ∀ (bs : Bytes) (m : List Host.Cell) (a i : Nat), (h : i < bs.length) →
    tget memUnlisted (storeBytes m a bs) (a + i) = bs[i]
  | [], _, _, _, h => absurd h (by simp)
  | b :: bs, m, a, 0, _ => by
    rw [storeBytes, storeBytes_outside bs _ (a + 1) (a + 0) (by omega)]
    exact tget_tset_same memUnlisted m a b
  | b :: bs, m, a, i + 1, h => by
    rw [storeBytes, show a + (i + 1) = (a + 1) + i by omega,
      storeBytes_inside bs (tset memUnlisted m a b) (a + 1) i (by simpa using h)]
    simp

/-- A stored byte reads as it was stored. -/
theorem State.load8_store_inside (s : State) (a i : Nat) (bs : Bytes) (h : i < bs.length) :
    (s.store a bs).load8 (a + i) = bs[i] := storeBytes_inside bs s.mem a i h

end Sys2Proof.Machine
end

