-- ==== Sys2Proof/Laws/Records.lean ====
section
/-!
SUPPORT. The records of the tables: one that was set is read back, every other stays.
-/

namespace Sys2Proof.Machine

@[simp] theorem State.tg_setTg (s : State) (k : Nat) (v : TGroup) : (s.setTg k v).tg k = v := tget_tset_same _ _ k v
theorem State.tg_setTg_ne (s : State) {k a : Nat} (v : TGroup) (h : a ≠ k) : (s.setTg k v).tg a = s.tg a := tget_tset_ne _ _ k v a h
@[simp] theorem State.flow_setFlow (s : State) (k : Nat) (v : Flow) : (s.setFlow k v).flow k = v := tget_tset_same _ _ k v
theorem State.flow_setFlow_ne (s : State) {k a : Nat} (v : Flow) (h : a ≠ k) : (s.setFlow k v).flow a = s.flow a := tget_tset_ne _ _ k v a h
@[simp] theorem State.ctx_setCtx (s : State) (k : Nat) (v : Ctx) : (s.setCtx k v).ctx k = v := tget_tset_same _ _ k v
theorem State.ctx_setCtx_ne (s : State) {k a : Nat} (v : Ctx) (h : a ≠ k) : (s.setCtx k v).ctx a = s.ctx a := tget_tset_ne _ _ k v a h
@[simp] theorem State.egr_setEgr (s : State) (k : Nat) (v : Egress) : (s.setEgr k v).egr k = v := tget_tset_same _ _ k v
theorem State.egr_setEgr_ne (s : State) {k a : Nat} (v : Egress) (h : a ≠ k) : (s.setEgr k v).egr a = s.egr a := tget_tset_ne _ _ k v a h
@[simp] theorem State.follow_setFollow (s : State) (k : Nat) (v : Follow) : (s.setFollow k v).follow k = v := tget_tset_same _ _ k v
theorem State.follow_setFollow_ne (s : State) {k a : Nat} (v : Follow) (h : a ≠ k) : (s.setFollow k v).follow a = s.follow a := tget_tset_ne _ _ k v a h
@[simp] theorem State.ippW_setIppW (s : State) (k : Nat) (v : Option IppWork) : (s.setIppW k v).ippW k = v := tget_tset_same _ _ k v
theorem State.ippW_setIppW_ne (s : State) {k a : Nat} (v : Option IppWork) (h : a ≠ k) : (s.setIppW k v).ippW a = s.ippW a := tget_tset_ne _ _ k v a h
@[simp] theorem State.enc_setEnc (s : State) (k : Nat) (v : Enc) : (s.setEnc k v).enc k = v := tget_tset_same _ _ k v
theorem State.enc_setEnc_ne (s : State) {k a : Nat} (v : Enc) (h : a ≠ k) : (s.setEnc k v).enc a = s.enc a := tget_tset_ne _ _ k v a h
@[simp] theorem State.surf_setSurf (s : State) (k : Nat) (v : Surface) : (s.setSurf k v).surf k = v := tget_tset_same _ _ k v
theorem State.surf_setSurf_ne (s : State) {k a : Nat} (v : Surface) (h : a ≠ k) : (s.setSurf k v).surf a = s.surf a := tget_tset_ne _ _ k v a h
@[simp] theorem State.led_setLed (s : State) (k : Nat) (v : LEntry) : (s.setLed k v).led k = v := tget_tset_same _ _ k v
theorem State.led_setLed_ne (s : State) {k a : Nat} (v : LEntry) (h : a ≠ k) : (s.setLed k v).led a = s.led a := tget_tset_ne _ _ k v a h
@[simp] theorem State.layer_setLayer (s : State) (k : Nat) (v : Layer) : (s.setLayer k v).layer k = v := tget_tset_same _ _ k v
theorem State.layer_setLayer_ne (s : State) {k a : Nat} (v : Layer) (h : a ≠ k) : (s.setLayer k v).layer a = s.layer a := tget_tset_ne _ _ k v a h
@[simp] theorem State.head_setHead (s : State) (k : Nat) (v : Head) : (s.setHead k v).head k = v := tget_tset_same _ _ k v
theorem State.head_setHead_ne (s : State) {k a : Nat} (v : Head) (h : a ≠ k) : (s.setHead k v).head a = s.head a := tget_tset_ne _ _ k v a h
@[simp] theorem State.grp_setGrp (s : State) (k : Nat) (v : SealGrp) : (s.setGrp k v).grp k = v := tget_tset_same _ _ k v
theorem State.grp_setGrp_ne (s : State) {k a : Nat} (v : SealGrp) (h : a ≠ k) : (s.setGrp k v).grp a = s.grp a := tget_tset_ne _ _ k v a h
@[simp] theorem State.tch_setTch (s : State) (k : Nat) (v : Touch) : (s.setTch k v).tch k = v := tget_tset_same _ _ k v
theorem State.tch_setTch_ne (s : State) {k a : Nat} (v : Touch) (h : a ≠ k) : (s.setTch k v).tch a = s.tch a := tget_tset_ne _ _ k v a h
@[simp] theorem State.part_setPart (s : State) (k : Nat) (v : Part) : (s.setPart k v).part k = v := tget_tset_same _ _ k v
theorem State.part_setPart_ne (s : State) {k a : Nat} (v : Part) (h : a ≠ k) : (s.setPart k v).part a = s.part a := tget_tset_ne _ _ k v a h
@[simp] theorem State.src_setSrc (s : State) (k : Nat) (v : Src) : (s.setSrc k v).src k = v := tget_tset_same _ _ k v
theorem State.src_setSrc_ne (s : State) {k a : Nat} (v : Src) (h : a ≠ k) : (s.setSrc k v).src a = s.src a := tget_tset_ne _ _ k v a h
@[simp] theorem State.desk_setDesk (s : State) (k : Nat) (v : Desk) : (s.setDesk k v).desk k = v := tget_tset_same _ _ k v
theorem State.desk_setDesk_ne (s : State) {k a : Nat} (v : Desk) (h : a ≠ k) : (s.setDesk k v).desk a = s.desk a := tget_tset_ne _ _ k v a h
@[simp] theorem State.port_setPort (s : State) (k : Nat) (v : ChnPort) : (s.setPort k v).port k = v := tget_tset_same _ _ k v
theorem State.port_setPort_ne (s : State) {k a : Nat} (v : ChnPort) (h : a ≠ k) : (s.setPort k v).port a = s.port a := tget_tset_ne _ _ k v a h
@[simp] theorem State.peer_setPeer (s : State) (k : Nat) (v : Peer) : (s.setPeer k v).peer k = v := tget_tset_same _ _ k v
theorem State.peer_setPeer_ne (s : State) {k a : Nat} (v : Peer) (h : a ≠ k) : (s.setPeer k v).peer a = s.peer a := tget_tset_ne _ _ k v a h
@[simp] theorem State.txStream_setTxStream (s : State) (k : Nat) (v : TxSlot) : (s.setTxStream k v).txStream k = v := tget_tset_same _ _ k v
theorem State.txStream_setTxStream_ne (s : State) {k a : Nat} (v : TxSlot) (h : a ≠ k) : (s.setTxStream k v).txStream a = s.txStream a := tget_tset_ne _ _ k v a h
@[simp] theorem State.txSurf_setTxSurf (s : State) (k : Nat) (v : TxSlot) : (s.setTxSurf k v).txSurf k = v := tget_tset_same _ _ k v
theorem State.txSurf_setTxSurf_ne (s : State) {k a : Nat} (v : TxSlot) (h : a ≠ k) : (s.setTxSurf k v).txSurf a = s.txSurf a := tget_tset_ne _ _ k v a h
@[simp] theorem State.rxSurf_setRxSurf (s : State) (k : Nat) (v : RxSlot) : (s.setRxSurf k v).rxSurf k = v := tget_tset_same _ _ k v
theorem State.rxSurf_setRxSurf_ne (s : State) {k a : Nat} (v : RxSlot) (h : a ≠ k) : (s.setRxSurf k v).rxSurf a = s.rxSurf a := tget_tset_ne _ _ k v a h
@[simp] theorem State.dceW_setDceW (s : State) (k : Nat) (v : Option DceWork) : (s.setDceW k v).dceW k = v := tget_tset_same _ _ k v
theorem State.dceW_setDceW_ne (s : State) {k a : Nat} (v : Option DceWork) (h : a ≠ k) : (s.setDceW k v).dceW a = s.dceW a := tget_tset_ne _ _ k v a h
@[simp] theorem State.crcW_setCrcW (s : State) (k : Nat) (v : Option Nat) : (s.setCrcW k v).crcW k = v := tget_tset_same _ _ k v
theorem State.crcW_setCrcW_ne (s : State) {k a : Nat} (v : Option Nat) (h : a ≠ k) : (s.setCrcW k v).crcW a = s.crcW a := tget_tset_ne _ _ k v a h
@[simp] theorem cring_setCring (p : Part) (r : Nat) (v : CRing) : cring (setCring p r v) r = v := tget_tset_same _ _ r v
theorem cring_setCring_ne (p : Part) {r a : Nat} (v : CRing) (h : a ≠ r) : cring (setCring p r v) a = cring p a := tget_tset_ne _ _ r v a h
@[simp] theorem kring_setKring (p : Part) (r : Nat) (v : KRing) : kring (setKring p r v) r = v := tget_tset_same _ _ r v
theorem kring_setKring_ne (p : Part) {r a : Nat} (v : KRing) (h : a ≠ r) : kring (setKring p r v) a = kring p a := tget_tset_ne _ _ r v a h

end Sys2Proof.Machine
end

