-- ==== Sys2Proof/Laws/Sections.lean ====
section
/-!
SUPPORT. Laws of the sections of a checkpoint image (R382): numbers read back from their bytes, a mask laid twice is none, and each
record reads back from its numbers as what a checkpoint carries of it.
-/

namespace Sys2Proof.Machine

/-- Numbers read back from their bytes, whatever numbers follow. -/
theorem byteNums_numBytes (k n : Nat) (h : n ≤ k) (bs : Bytes) : byteNums (numBytes k n ++ bs) = n :: byteNums bs := by
  induction k generalizing n with
  | zero => obtain rfl : n = 0 := by omega
            simp [numBytes, byteNums]
  | succ k ih =>
    unfold numBytes
    split
    · next hn => simp [byteNums, Nat.mod_eq_of_lt (by omega : n < 256), hn]
    · next hn =>
      have hb : (n % 128 + 128) % 256 = n % 128 + 128 := Nat.mod_eq_of_lt (by omega)
      simp only [List.cons_append, byteNums, BitVec.toNat_ofNat, Nat.reducePow, hb, ih (n / 128) (by omega)]
      rw [if_neg (by omega)]
      congr 1
      omega

theorem byteNums_numsBytes (ns : List Nat) : byteNums (numsBytes ns) = ns := by
  induction ns with
  | nil => rfl
  | cons n ns ih =>
    simp only [numsBytes, List.flatMap_cons] at ih ⊢
    rw [byteNums_numBytes n n (Nat.le_refl n), ih]

@[simp] theorem maskSection_length (id : Nat) (bs : Bytes) : (maskSection id bs).length = bs.length := by simp [maskSection]

@[simp] theorem maskSection_twice (id : Nat) (bs : Bytes) : maskSection id (maskSection id bs) = bs := by
  apply List.ext_getElem <;> simp [maskSection]

/-- What a section reads as is what its numbers say. -/
theorem sectionRead_sectionBytes (id : Nat) (c d : Carried) : sectionRead id (sectionBytes id c) d = sectionState id (sectionNums id c) d := by
  simp [sectionRead, sectionBytes, byteNums_numsBytes]

/-! ### Values read back from their numbers -/

@[simp] theorem natOpt_optNat (o : Option Nat) : natOpt (optNat o) = o := by cases o <;> simp [natOpt, optNat]

@[simp] theorem natInt_intNat (i : Int) : natInt (intNat i) = i := by
  unfold natInt intNat
  split
  · simp; omega
  · rw [if_neg (by omega)]; omega

@[simp] theorem sourceOf_source (x : LSource) : sourceOf (sourceKind x) (sourceName x) = x := by
  cases x <;> simp [sourceOf, sourceKind, sourceName]

@[simp] theorem bool_nat_true : Bool.nat true = 1 := rfl
@[simp] theorem bool_nat_false : Bool.nat false = 0 := rfl

@[simp] theorem bool_nat_beq (b : Bool) : (Bool.nat b == 1) = b := by cases b <;> rfl

namespace Ser

/-- A way to write values that reads back, of those that meet `P`, what was written, whatever numbers follow. -/
def Reads {α : Type} (s : Ser α) (P : α → Prop) : Prop := ∀ x l, P x → s.get (s.put x ++ l) = (x, l)

variable {α β : Type}

theorem nat_reads : Reads nat fun _ => True := fun _ _ _ => rfl

theorem pair_reads {s : Ser α} {t : Ser β} {P Q} (hs : Reads s P) (ht : Reads t Q) : Reads (s.pair t) fun x => P x.1 ∧ Q x.2 := by
  intro x l h
  simp only [pair, List.append_assoc, hs x.1 _ h.1, ht x.2 l h.2]

theorem times_flatMap {s : Ser α} {P} (hs : Reads s P) (xs : List α) (l : List Nat) (h : ∀ x ∈ xs, P x) :
    times s xs.length (xs.flatMap s.put ++ l) = (xs, l) := by
  induction xs with
  | nil => rfl
  | cons x xs ih =>
    simp only [List.flatMap_cons, List.length_cons, times, List.append_assoc]
    rw [hs x _ (h x (by simp)), ih fun y hy => h y (by simp [hy])]

theorem list_reads {s : Ser α} {P} (hs : Reads s P) : Reads s.list fun xs => ∀ x ∈ xs, P x := by
  intro xs l h
  exact times_flatMap hs xs l h

theorem via_reads {s : Ser α} {P} (hs : Reads s P) (f : β → α) (g : α → β) : Reads (s.via f g) fun y => P (f y) ∧ g (f y) = y := by
  intro y l h
  simp only [via, hs (f y) l h.1, h.2]

theorem tbl_reads {s : Ser α} {P} (hs : Reads s P) : Reads s.tbl fun t => ∀ x ∈ t, P x.2 := by
  intro t l h
  exact list_reads (pair_reads nat_reads hs) t l fun x hx => ⟨trivial, h x hx⟩

theorem nats_reads : Reads (list nat) fun _ => True := fun x l _ => list_reads nat_reads x l fun _ _ => trivial

theorem word_reads : Reads word fun _ => True := fun x l _ => via_reads nat_reads _ _ x l ⟨trivial, by simp⟩

theorem int_reads : Reads int fun _ => True := fun x l _ => via_reads nat_reads _ _ x l ⟨trivial, by simp⟩

theorem opt_reads {s : Ser α} {P} (hs : Reads s P) : Reads s.opt fun o => ∀ x ∈ o, P x := by
  intro o l h
  exact via_reads (list_reads hs) _ _ o l ⟨by simpa using h, by cases o <;> rfl⟩

theorem ints_reads : Reads (list int) fun _ => True := fun x l _ => list_reads int_reads x l fun _ _ => trivial

theorem regs_reads : Reads (list (pair nat word)) fun _ => True :=
  fun x l _ => list_reads (pair_reads nat_reads word_reads) x l fun _ _ => ⟨trivial, trivial⟩

/-- A record written as numbers reads back where its numbers say it. -/
theorem nums_reads {f : β → List Nat} {g : List Nat → β} {x : β} {l : List Nat} (h : g (f x) = x) :
    ((list nat).via f g).get (((list nat).via f g).put x ++ l) = (x, l) := via_reads nats_reads f g x l ⟨trivial, h⟩

theorem bytes_reads : Reads ((list nat).via (fun (b : Bytes) => b.map (·.toNat)) (fun l => l.map (BitVec.ofNat 8))) fun _ => True :=
  fun x l _ => nums_reads (by induction x <;> simp_all)

/-! ### The records read back as what is carried of them -/

theorem ring_reads : Reads ring fun r => r.2.2.2.2 = 0 := by
  rintro ⟨a, b, c, d, e⟩ l h
  exact nums_reads (by simp_all)

theorem part_reads (p : Part) (l : List Nat) : part.get (part.put (carryPart p) ++ l) = (carryPart p, l) := by
  apply nums_reads
  by_cases h : p.state = .free <;> simp [carryPart, h]

theorem ctrl_reads (r : Option (Bool × Nat × BitVec 64 × BitVec 32)) (l : List Nat) :
    ctrl.get (ctrl.put (carryRing r) ++ l) = (carryRing r, l) := by
  apply nums_reads
  cases r <;> simp [carryRing]

theorem flow_reads (f : Flow) (l : List Nat) : flow.get (flow.put (carryFlow f) ++ l) = (carryFlow f, l) := by
  apply nums_reads
  simp only [carryFlow]
  cases f.state <;> simp

theorem egr_reads (e : Egress) (l : List Nat) : egr.get (egr.put (carryEgr e) ++ l) = (carryEgr e, l) := by
  apply nums_reads
  simp [carryEgr]

theorem ctx_reads (c : Ctx) (l : List Nat) : ctx.get (ctx.put (carryCtx c) ++ l) = (carryCtx c, l) := by
  refine via_reads (pair_reads nats_reads bytes_reads) _ _ _ l ⟨⟨trivial, trivial⟩, ?_⟩
  · generalize hs : c.state = st
    generalize hr : c.rx = r
    by_cases h : st = .closed <;> by_cases hp : c.poolN = 0 <;> cases r <;> simp [carryCtx, h, hs, hr, hp]

theorem follow_reads (f : Follow) (l : List Nat) : follow.get (follow.put (carryFollow f) ++ l) = (carryFollow f, l) := by
  apply nums_reads
  simp [carryFollow]

theorem enc_reads (e : Enc) (l : List Nat) : enc.get (enc.put (carryEnc e) ++ l) = (carryEnc e, l) := by
  apply nums_reads
  simp [carryEnc]

theorem surf_reads (f : Surface) (l : List Nat) : surf.get (surf.put (carrySurf f) ++ l) = (carrySurf f, l) :=
  via_reads (pair_reads nats_reads nats_reads) _ _ _ l ⟨⟨trivial, trivial⟩, by simp [carrySurf]⟩

theorem head_reads (h : Head) (l : List Nat) : head.get (head.put (carryHead h) ++ l) = (carryHead h, l) := by
  apply nums_reads
  simp [carryHead]

theorem layer_reads (x : Layer) (l : List Nat) : layer.get (layer.put (carryLayer x) ++ l) = (carryLayer x, l) := by
  apply nums_reads
  simp [carryLayer]

theorem touch_reads (t : Touch) (l : List Nat) : touch.get (touch.put (carryTouch t) ++ l) = (carryTouch t, l) := by
  refine via_reads (pair_reads nats_reads (pair_reads ints_reads (pair_reads (opt_reads ints_reads) (pair_reads
    (opt_reads (list_reads (pair_reads int_reads int_reads))) (list_reads ring_reads))))) _ _ _ l ⟨⟨trivial, trivial, ?_, ?_, ?_⟩, ?_⟩
  · simp
  · simp
  · simp only [carryTouch]
    intro r hr
    obtain ⟨_, _, rfl⟩ := List.mem_map.mp hr
    rfl
  · simp [carryTouch]

theorem tx_reads (t : TxSlot) (l : List Nat) : tx.get (tx.put (carryTx t) ++ l) = (carryTx t, l) := by
  apply nums_reads
  simp [carryTx]

theorem rx_reads (r : RxSlot) (l : List Nat) : rx.get (rx.put (carryRx r) ++ l) = (carryRx r, l) := by
  apply nums_reads
  simp [carryRx]

end Ser

end Sys2Proof.Machine
end

