-- ==== Sys2Proof/Laws/State.lean ====
section
/-!
SUPPORT. What each update of the state leaves in each field of it: one lemma for one field and one update.
-/

namespace Sys2Proof.Machine

/-! ### setReg -/

@[simp] theorem State.setReg_pending (s : State) (a : Nat) (v : Word) : (s.setReg a v).pending = s.pending := rfl
@[simp] theorem State.setReg_free (s : State) (a : Nat) (v : Word) : (s.setReg a v).free = s.free := rfl
@[simp] theorem State.setReg_island (s : State) (a : Nat) (v : Word) : (s.setReg a v).island = s.island := rfl
@[simp] theorem State.setReg_ctl (s : State) (a : Nat) (v : Word) : (s.setReg a v).ctl = s.ctl := rfl
@[simp] theorem State.setReg_fuses (s : State) (a : Nat) (v : Word) : (s.setReg a v).fuses = s.fuses := rfl
@[simp] theorem State.setReg_straps (s : State) (a : Nat) (v : Word) : (s.setReg a v).straps = s.straps := rfl
@[simp] theorem State.setReg_tbase (s : State) (a : Nat) (v : Word) : (s.setReg a v).tbase = s.tbase := rfl
@[simp] theorem State.setReg_hold (s : State) (a : Nat) (v : Word) : (s.setReg a v).hold = s.hold := rfl
@[simp] theorem State.setReg_regs (s : State) (a : Nat) (v : Word) : (s.setReg a v).regs = tset regReset s.regs a v := rfl
@[simp] theorem State.setReg_mem (s : State) (a : Nat) (v : Word) : (s.setReg a v).mem = s.mem := rfl
@[simp] theorem State.setReg_tgs (s : State) (a : Nat) (v : Word) : (s.setReg a v).tgs = s.tgs := rfl
@[simp] theorem State.setReg_flows (s : State) (a : Nat) (v : Word) : (s.setReg a v).flows = s.flows := rfl
@[simp] theorem State.setReg_ctxs (s : State) (a : Nat) (v : Word) : (s.setReg a v).ctxs = s.ctxs := rfl
@[simp] theorem State.setReg_egress (s : State) (a : Nat) (v : Word) : (s.setReg a v).egress = s.egress := rfl
@[simp] theorem State.setReg_follows (s : State) (a : Nat) (v : Word) : (s.setReg a v).follows = s.follows := rfl
@[simp] theorem State.setReg_ipp (s : State) (a : Nat) (v : Word) : (s.setReg a v).ipp = s.ipp := rfl
@[simp] theorem State.setReg_encs (s : State) (a : Nat) (v : Word) : (s.setReg a v).encs = s.encs := rfl
@[simp] theorem State.setReg_surfs (s : State) (a : Nat) (v : Word) : (s.setReg a v).surfs = s.surfs := rfl
@[simp] theorem State.setReg_ledger (s : State) (a : Nat) (v : Word) : (s.setReg a v).ledger = s.ledger := rfl
@[simp] theorem State.setReg_records (s : State) (a : Nat) (v : Word) : (s.setReg a v).records = s.records := rfl
@[simp] theorem State.setReg_layers (s : State) (a : Nat) (v : Word) : (s.setReg a v).layers = s.layers := rfl
@[simp] theorem State.setReg_heads (s : State) (a : Nat) (v : Word) : (s.setReg a v).heads = s.heads := rfl
@[simp] theorem State.setReg_seals (s : State) (a : Nat) (v : Word) : (s.setReg a v).seals = s.seals := rfl
@[simp] theorem State.setReg_commits (s : State) (a : Nat) (v : Word) : (s.setReg a v).commits = s.commits := rfl
@[simp] theorem State.setReg_sweepMs (s : State) (a : Nat) (v : Word) : (s.setReg a v).sweepMs = s.sweepMs := rfl
@[simp] theorem State.setReg_sweepAt (s : State) (a : Nat) (v : Word) : (s.setReg a v).sweepAt = s.sweepAt := rfl
@[simp] theorem State.setReg_sweepNext (s : State) (a : Nat) (v : Word) : (s.setReg a v).sweepNext = s.sweepNext := rfl
@[simp] theorem State.setReg_snaps (s : State) (a : Nat) (v : Word) : (s.setReg a v).snaps = s.snaps := rfl
@[simp] theorem State.setReg_touch (s : State) (a : Nat) (v : Word) : (s.setReg a v).touch = s.touch := rfl
@[simp] theorem State.setReg_parts (s : State) (a : Nat) (v : Word) : (s.setReg a v).parts = s.parts := rfl
@[simp] theorem State.setReg_jobs (s : State) (a : Nat) (v : Word) : (s.setReg a v).jobs = s.jobs := rfl
@[simp] theorem State.setReg_nextJob (s : State) (a : Nat) (v : Word) : (s.setReg a v).nextJob = s.nextJob := rfl
@[simp] theorem State.setReg_nextFetch (s : State) (a : Nat) (v : Word) : (s.setReg a v).nextFetch = s.nextFetch := rfl
@[simp] theorem State.setReg_cpls (s : State) (a : Nat) (v : Word) : (s.setReg a v).cpls = s.cpls := rfl
@[simp] theorem State.setReg_srcs (s : State) (a : Nat) (v : Word) : (s.setReg a v).srcs = s.srcs := rfl
@[simp] theorem State.setReg_desks (s : State) (a : Nat) (v : Word) : (s.setReg a v).desks = s.desks := rfl
@[simp] theorem State.setReg_evcStop (s : State) (a : Nat) (v : Word) : (s.setReg a v).evcStop = s.evcStop := rfl
@[simp] theorem State.setReg_chain (s : State) (a : Nat) (v : Word) : (s.setReg a v).chain = s.chain := rfl
@[simp] theorem State.setReg_rdn (s : State) (a : Nat) (v : Word) : (s.setReg a v).rdn = s.rdn := rfl
@[simp] theorem State.setReg_dce (s : State) (a : Nat) (v : Word) : (s.setReg a v).dce = s.dce := rfl
@[simp] theorem State.setReg_bands (s : State) (a : Nat) (v : Word) : (s.setReg a v).bands = s.bands := rfl
@[simp] theorem State.setReg_ckptWait (s : State) (a : Nat) (v : Word) : (s.setReg a v).ckptWait = s.ckptWait := rfl
@[simp] theorem State.setReg_crcu (s : State) (a : Nat) (v : Word) : (s.setReg a v).crcu = s.crcu := rfl
@[simp] theorem State.setReg_pwr (s : State) (a : Nat) (v : Word) : (s.setReg a v).pwr = s.pwr := rfl
@[simp] theorem State.setReg_drains (s : State) (a : Nat) (v : Word) : (s.setReg a v).drains = s.drains := rfl
@[simp] theorem State.setReg_heldAcc (s : State) (a : Nat) (v : Word) : (s.setReg a v).heldAcc = s.heldAcc := rfl
@[simp] theorem State.setReg_quiets (s : State) (a : Nat) (v : Word) : (s.setReg a v).quiets = s.quiets := rfl
@[simp] theorem State.setReg_glog (s : State) (a : Nat) (v : Word) : (s.setReg a v).glog = s.glog := rfl
@[simp] theorem State.setReg_lanesQd (s : State) (a : Nat) (v : Word) : (s.setReg a v).lanesQd = s.lanesQd := rfl
@[simp] theorem State.setReg_lockAt (s : State) (a : Nat) (v : Word) : (s.setReg a v).lockAt = s.lockAt := rfl
@[simp] theorem State.setReg_nonce (s : State) (a : Nat) (v : Word) : (s.setReg a v).nonce = s.nonce := rfl
@[simp] theorem State.setReg_token (s : State) (a : Nat) (v : Word) : (s.setReg a v).token = s.token := rfl
@[simp] theorem State.setReg_fuseOps (s : State) (a : Nat) (v : Word) : (s.setReg a v).fuseOps = s.fuseOps := rfl
@[simp] theorem State.setReg_outbox (s : State) (a : Nat) (v : Word) : (s.setReg a v).outbox = s.outbox := rfl
@[simp] theorem State.setReg_bus (s : State) (a : Nat) (v : Word) : (s.setReg a v).bus = s.bus := rfl

/-! ### setFld -/

@[simp] theorem State.setFld_pending (s : State) (a lo n v : Nat) : (s.setFld a lo n v).pending = s.pending := rfl
@[simp] theorem State.setFld_free (s : State) (a lo n v : Nat) : (s.setFld a lo n v).free = s.free := rfl
@[simp] theorem State.setFld_island (s : State) (a lo n v : Nat) : (s.setFld a lo n v).island = s.island := rfl
@[simp] theorem State.setFld_ctl (s : State) (a lo n v : Nat) : (s.setFld a lo n v).ctl = s.ctl := rfl
@[simp] theorem State.setFld_fuses (s : State) (a lo n v : Nat) : (s.setFld a lo n v).fuses = s.fuses := rfl
@[simp] theorem State.setFld_straps (s : State) (a lo n v : Nat) : (s.setFld a lo n v).straps = s.straps := rfl
@[simp] theorem State.setFld_tbase (s : State) (a lo n v : Nat) : (s.setFld a lo n v).tbase = s.tbase := rfl
@[simp] theorem State.setFld_hold (s : State) (a lo n v : Nat) : (s.setFld a lo n v).hold = s.hold := rfl
@[simp] theorem State.setFld_mem (s : State) (a lo n v : Nat) : (s.setFld a lo n v).mem = s.mem := rfl
@[simp] theorem State.setFld_tgs (s : State) (a lo n v : Nat) : (s.setFld a lo n v).tgs = s.tgs := rfl
@[simp] theorem State.setFld_flows (s : State) (a lo n v : Nat) : (s.setFld a lo n v).flows = s.flows := rfl
@[simp] theorem State.setFld_ctxs (s : State) (a lo n v : Nat) : (s.setFld a lo n v).ctxs = s.ctxs := rfl
@[simp] theorem State.setFld_egress (s : State) (a lo n v : Nat) : (s.setFld a lo n v).egress = s.egress := rfl
@[simp] theorem State.setFld_follows (s : State) (a lo n v : Nat) : (s.setFld a lo n v).follows = s.follows := rfl
@[simp] theorem State.setFld_ipp (s : State) (a lo n v : Nat) : (s.setFld a lo n v).ipp = s.ipp := rfl
@[simp] theorem State.setFld_encs (s : State) (a lo n v : Nat) : (s.setFld a lo n v).encs = s.encs := rfl
@[simp] theorem State.setFld_surfs (s : State) (a lo n v : Nat) : (s.setFld a lo n v).surfs = s.surfs := rfl
@[simp] theorem State.setFld_ledger (s : State) (a lo n v : Nat) : (s.setFld a lo n v).ledger = s.ledger := rfl
@[simp] theorem State.setFld_records (s : State) (a lo n v : Nat) : (s.setFld a lo n v).records = s.records := rfl
@[simp] theorem State.setFld_layers (s : State) (a lo n v : Nat) : (s.setFld a lo n v).layers = s.layers := rfl
@[simp] theorem State.setFld_heads (s : State) (a lo n v : Nat) : (s.setFld a lo n v).heads = s.heads := rfl
@[simp] theorem State.setFld_seals (s : State) (a lo n v : Nat) : (s.setFld a lo n v).seals = s.seals := rfl
@[simp] theorem State.setFld_commits (s : State) (a lo n v : Nat) : (s.setFld a lo n v).commits = s.commits := rfl
@[simp] theorem State.setFld_sweepMs (s : State) (a lo n v : Nat) : (s.setFld a lo n v).sweepMs = s.sweepMs := rfl
@[simp] theorem State.setFld_sweepAt (s : State) (a lo n v : Nat) : (s.setFld a lo n v).sweepAt = s.sweepAt := rfl
@[simp] theorem State.setFld_sweepNext (s : State) (a lo n v : Nat) : (s.setFld a lo n v).sweepNext = s.sweepNext := rfl
@[simp] theorem State.setFld_snaps (s : State) (a lo n v : Nat) : (s.setFld a lo n v).snaps = s.snaps := rfl
@[simp] theorem State.setFld_touch (s : State) (a lo n v : Nat) : (s.setFld a lo n v).touch = s.touch := rfl
@[simp] theorem State.setFld_parts (s : State) (a lo n v : Nat) : (s.setFld a lo n v).parts = s.parts := rfl
@[simp] theorem State.setFld_jobs (s : State) (a lo n v : Nat) : (s.setFld a lo n v).jobs = s.jobs := rfl
@[simp] theorem State.setFld_nextJob (s : State) (a lo n v : Nat) : (s.setFld a lo n v).nextJob = s.nextJob := rfl
@[simp] theorem State.setFld_nextFetch (s : State) (a lo n v : Nat) : (s.setFld a lo n v).nextFetch = s.nextFetch := rfl
@[simp] theorem State.setFld_cpls (s : State) (a lo n v : Nat) : (s.setFld a lo n v).cpls = s.cpls := rfl
@[simp] theorem State.setFld_srcs (s : State) (a lo n v : Nat) : (s.setFld a lo n v).srcs = s.srcs := rfl
@[simp] theorem State.setFld_desks (s : State) (a lo n v : Nat) : (s.setFld a lo n v).desks = s.desks := rfl
@[simp] theorem State.setFld_evcStop (s : State) (a lo n v : Nat) : (s.setFld a lo n v).evcStop = s.evcStop := rfl
@[simp] theorem State.setFld_chain (s : State) (a lo n v : Nat) : (s.setFld a lo n v).chain = s.chain := rfl
@[simp] theorem State.setFld_rdn (s : State) (a lo n v : Nat) : (s.setFld a lo n v).rdn = s.rdn := rfl
@[simp] theorem State.setFld_dce (s : State) (a lo n v : Nat) : (s.setFld a lo n v).dce = s.dce := rfl
@[simp] theorem State.setFld_bands (s : State) (a lo n v : Nat) : (s.setFld a lo n v).bands = s.bands := rfl
@[simp] theorem State.setFld_ckptWait (s : State) (a lo n v : Nat) : (s.setFld a lo n v).ckptWait = s.ckptWait := rfl
@[simp] theorem State.setFld_crcu (s : State) (a lo n v : Nat) : (s.setFld a lo n v).crcu = s.crcu := rfl
@[simp] theorem State.setFld_pwr (s : State) (a lo n v : Nat) : (s.setFld a lo n v).pwr = s.pwr := rfl
@[simp] theorem State.setFld_drains (s : State) (a lo n v : Nat) : (s.setFld a lo n v).drains = s.drains := rfl
@[simp] theorem State.setFld_heldAcc (s : State) (a lo n v : Nat) : (s.setFld a lo n v).heldAcc = s.heldAcc := rfl
@[simp] theorem State.setFld_quiets (s : State) (a lo n v : Nat) : (s.setFld a lo n v).quiets = s.quiets := rfl
@[simp] theorem State.setFld_glog (s : State) (a lo n v : Nat) : (s.setFld a lo n v).glog = s.glog := rfl
@[simp] theorem State.setFld_lanesQd (s : State) (a lo n v : Nat) : (s.setFld a lo n v).lanesQd = s.lanesQd := rfl
@[simp] theorem State.setFld_lockAt (s : State) (a lo n v : Nat) : (s.setFld a lo n v).lockAt = s.lockAt := rfl
@[simp] theorem State.setFld_nonce (s : State) (a lo n v : Nat) : (s.setFld a lo n v).nonce = s.nonce := rfl
@[simp] theorem State.setFld_token (s : State) (a lo n v : Nat) : (s.setFld a lo n v).token = s.token := rfl
@[simp] theorem State.setFld_fuseOps (s : State) (a lo n v : Nat) : (s.setFld a lo n v).fuseOps = s.fuseOps := rfl
@[simp] theorem State.setFld_outbox (s : State) (a lo n v : Nat) : (s.setFld a lo n v).outbox = s.outbox := rfl
@[simp] theorem State.setFld_bus (s : State) (a lo n v : Nat) : (s.setFld a lo n v).bus = s.bus := rfl

/-! ### setBit -/

@[simp] theorem State.setBit_pending (s : State) (a i : Nat) (b : Bool) : (s.setBit a i b).pending = s.pending := rfl
@[simp] theorem State.setBit_free (s : State) (a i : Nat) (b : Bool) : (s.setBit a i b).free = s.free := rfl
@[simp] theorem State.setBit_island (s : State) (a i : Nat) (b : Bool) : (s.setBit a i b).island = s.island := rfl
@[simp] theorem State.setBit_ctl (s : State) (a i : Nat) (b : Bool) : (s.setBit a i b).ctl = s.ctl := rfl
@[simp] theorem State.setBit_fuses (s : State) (a i : Nat) (b : Bool) : (s.setBit a i b).fuses = s.fuses := rfl
@[simp] theorem State.setBit_straps (s : State) (a i : Nat) (b : Bool) : (s.setBit a i b).straps = s.straps := rfl
@[simp] theorem State.setBit_tbase (s : State) (a i : Nat) (b : Bool) : (s.setBit a i b).tbase = s.tbase := rfl
@[simp] theorem State.setBit_hold (s : State) (a i : Nat) (b : Bool) : (s.setBit a i b).hold = s.hold := rfl
@[simp] theorem State.setBit_mem (s : State) (a i : Nat) (b : Bool) : (s.setBit a i b).mem = s.mem := rfl
@[simp] theorem State.setBit_tgs (s : State) (a i : Nat) (b : Bool) : (s.setBit a i b).tgs = s.tgs := rfl
@[simp] theorem State.setBit_flows (s : State) (a i : Nat) (b : Bool) : (s.setBit a i b).flows = s.flows := rfl
@[simp] theorem State.setBit_ctxs (s : State) (a i : Nat) (b : Bool) : (s.setBit a i b).ctxs = s.ctxs := rfl
@[simp] theorem State.setBit_egress (s : State) (a i : Nat) (b : Bool) : (s.setBit a i b).egress = s.egress := rfl
@[simp] theorem State.setBit_follows (s : State) (a i : Nat) (b : Bool) : (s.setBit a i b).follows = s.follows := rfl
@[simp] theorem State.setBit_ipp (s : State) (a i : Nat) (b : Bool) : (s.setBit a i b).ipp = s.ipp := rfl
@[simp] theorem State.setBit_encs (s : State) (a i : Nat) (b : Bool) : (s.setBit a i b).encs = s.encs := rfl
@[simp] theorem State.setBit_surfs (s : State) (a i : Nat) (b : Bool) : (s.setBit a i b).surfs = s.surfs := rfl
@[simp] theorem State.setBit_ledger (s : State) (a i : Nat) (b : Bool) : (s.setBit a i b).ledger = s.ledger := rfl
@[simp] theorem State.setBit_records (s : State) (a i : Nat) (b : Bool) : (s.setBit a i b).records = s.records := rfl
@[simp] theorem State.setBit_layers (s : State) (a i : Nat) (b : Bool) : (s.setBit a i b).layers = s.layers := rfl
@[simp] theorem State.setBit_heads (s : State) (a i : Nat) (b : Bool) : (s.setBit a i b).heads = s.heads := rfl
@[simp] theorem State.setBit_seals (s : State) (a i : Nat) (b : Bool) : (s.setBit a i b).seals = s.seals := rfl
@[simp] theorem State.setBit_commits (s : State) (a i : Nat) (b : Bool) : (s.setBit a i b).commits = s.commits := rfl
@[simp] theorem State.setBit_sweepMs (s : State) (a i : Nat) (b : Bool) : (s.setBit a i b).sweepMs = s.sweepMs := rfl
@[simp] theorem State.setBit_sweepAt (s : State) (a i : Nat) (b : Bool) : (s.setBit a i b).sweepAt = s.sweepAt := rfl
@[simp] theorem State.setBit_sweepNext (s : State) (a i : Nat) (b : Bool) : (s.setBit a i b).sweepNext = s.sweepNext := rfl
@[simp] theorem State.setBit_snaps (s : State) (a i : Nat) (b : Bool) : (s.setBit a i b).snaps = s.snaps := rfl
@[simp] theorem State.setBit_touch (s : State) (a i : Nat) (b : Bool) : (s.setBit a i b).touch = s.touch := rfl
@[simp] theorem State.setBit_parts (s : State) (a i : Nat) (b : Bool) : (s.setBit a i b).parts = s.parts := rfl
@[simp] theorem State.setBit_jobs (s : State) (a i : Nat) (b : Bool) : (s.setBit a i b).jobs = s.jobs := rfl
@[simp] theorem State.setBit_nextJob (s : State) (a i : Nat) (b : Bool) : (s.setBit a i b).nextJob = s.nextJob := rfl
@[simp] theorem State.setBit_nextFetch (s : State) (a i : Nat) (b : Bool) : (s.setBit a i b).nextFetch = s.nextFetch := rfl
@[simp] theorem State.setBit_cpls (s : State) (a i : Nat) (b : Bool) : (s.setBit a i b).cpls = s.cpls := rfl
@[simp] theorem State.setBit_srcs (s : State) (a i : Nat) (b : Bool) : (s.setBit a i b).srcs = s.srcs := rfl
@[simp] theorem State.setBit_desks (s : State) (a i : Nat) (b : Bool) : (s.setBit a i b).desks = s.desks := rfl
@[simp] theorem State.setBit_evcStop (s : State) (a i : Nat) (b : Bool) : (s.setBit a i b).evcStop = s.evcStop := rfl
@[simp] theorem State.setBit_chain (s : State) (a i : Nat) (b : Bool) : (s.setBit a i b).chain = s.chain := rfl
@[simp] theorem State.setBit_rdn (s : State) (a i : Nat) (b : Bool) : (s.setBit a i b).rdn = s.rdn := rfl
@[simp] theorem State.setBit_dce (s : State) (a i : Nat) (b : Bool) : (s.setBit a i b).dce = s.dce := rfl
@[simp] theorem State.setBit_bands (s : State) (a i : Nat) (b : Bool) : (s.setBit a i b).bands = s.bands := rfl
@[simp] theorem State.setBit_ckptWait (s : State) (a i : Nat) (b : Bool) : (s.setBit a i b).ckptWait = s.ckptWait := rfl
@[simp] theorem State.setBit_crcu (s : State) (a i : Nat) (b : Bool) : (s.setBit a i b).crcu = s.crcu := rfl
@[simp] theorem State.setBit_pwr (s : State) (a i : Nat) (b : Bool) : (s.setBit a i b).pwr = s.pwr := rfl
@[simp] theorem State.setBit_drains (s : State) (a i : Nat) (b : Bool) : (s.setBit a i b).drains = s.drains := rfl
@[simp] theorem State.setBit_heldAcc (s : State) (a i : Nat) (b : Bool) : (s.setBit a i b).heldAcc = s.heldAcc := rfl
@[simp] theorem State.setBit_quiets (s : State) (a i : Nat) (b : Bool) : (s.setBit a i b).quiets = s.quiets := rfl
@[simp] theorem State.setBit_glog (s : State) (a i : Nat) (b : Bool) : (s.setBit a i b).glog = s.glog := rfl
@[simp] theorem State.setBit_lanesQd (s : State) (a i : Nat) (b : Bool) : (s.setBit a i b).lanesQd = s.lanesQd := rfl
@[simp] theorem State.setBit_lockAt (s : State) (a i : Nat) (b : Bool) : (s.setBit a i b).lockAt = s.lockAt := rfl
@[simp] theorem State.setBit_nonce (s : State) (a i : Nat) (b : Bool) : (s.setBit a i b).nonce = s.nonce := rfl
@[simp] theorem State.setBit_token (s : State) (a i : Nat) (b : Bool) : (s.setBit a i b).token = s.token := rfl
@[simp] theorem State.setBit_fuseOps (s : State) (a i : Nat) (b : Bool) : (s.setBit a i b).fuseOps = s.fuseOps := rfl
@[simp] theorem State.setBit_outbox (s : State) (a i : Nat) (b : Bool) : (s.setBit a i b).outbox = s.outbox := rfl
@[simp] theorem State.setBit_bus (s : State) (a i : Nat) (b : Bool) : (s.setBit a i b).bus = s.bus := rfl

/-! ### add -/

@[simp] theorem State.add_pending (s : State) (a lo n k : Nat) : (s.add a lo n k).pending = s.pending := rfl
@[simp] theorem State.add_free (s : State) (a lo n k : Nat) : (s.add a lo n k).free = s.free := rfl
@[simp] theorem State.add_island (s : State) (a lo n k : Nat) : (s.add a lo n k).island = s.island := rfl
@[simp] theorem State.add_ctl (s : State) (a lo n k : Nat) : (s.add a lo n k).ctl = s.ctl := rfl
@[simp] theorem State.add_fuses (s : State) (a lo n k : Nat) : (s.add a lo n k).fuses = s.fuses := rfl
@[simp] theorem State.add_straps (s : State) (a lo n k : Nat) : (s.add a lo n k).straps = s.straps := rfl
@[simp] theorem State.add_tbase (s : State) (a lo n k : Nat) : (s.add a lo n k).tbase = s.tbase := rfl
@[simp] theorem State.add_hold (s : State) (a lo n k : Nat) : (s.add a lo n k).hold = s.hold := rfl
@[simp] theorem State.add_mem (s : State) (a lo n k : Nat) : (s.add a lo n k).mem = s.mem := rfl
@[simp] theorem State.add_tgs (s : State) (a lo n k : Nat) : (s.add a lo n k).tgs = s.tgs := rfl
@[simp] theorem State.add_flows (s : State) (a lo n k : Nat) : (s.add a lo n k).flows = s.flows := rfl
@[simp] theorem State.add_ctxs (s : State) (a lo n k : Nat) : (s.add a lo n k).ctxs = s.ctxs := rfl
@[simp] theorem State.add_egress (s : State) (a lo n k : Nat) : (s.add a lo n k).egress = s.egress := rfl
@[simp] theorem State.add_follows (s : State) (a lo n k : Nat) : (s.add a lo n k).follows = s.follows := rfl
@[simp] theorem State.add_ipp (s : State) (a lo n k : Nat) : (s.add a lo n k).ipp = s.ipp := rfl
@[simp] theorem State.add_encs (s : State) (a lo n k : Nat) : (s.add a lo n k).encs = s.encs := rfl
@[simp] theorem State.add_surfs (s : State) (a lo n k : Nat) : (s.add a lo n k).surfs = s.surfs := rfl
@[simp] theorem State.add_ledger (s : State) (a lo n k : Nat) : (s.add a lo n k).ledger = s.ledger := rfl
@[simp] theorem State.add_records (s : State) (a lo n k : Nat) : (s.add a lo n k).records = s.records := rfl
@[simp] theorem State.add_layers (s : State) (a lo n k : Nat) : (s.add a lo n k).layers = s.layers := rfl
@[simp] theorem State.add_heads (s : State) (a lo n k : Nat) : (s.add a lo n k).heads = s.heads := rfl
@[simp] theorem State.add_seals (s : State) (a lo n k : Nat) : (s.add a lo n k).seals = s.seals := rfl
@[simp] theorem State.add_commits (s : State) (a lo n k : Nat) : (s.add a lo n k).commits = s.commits := rfl
@[simp] theorem State.add_sweepMs (s : State) (a lo n k : Nat) : (s.add a lo n k).sweepMs = s.sweepMs := rfl
@[simp] theorem State.add_sweepAt (s : State) (a lo n k : Nat) : (s.add a lo n k).sweepAt = s.sweepAt := rfl
@[simp] theorem State.add_sweepNext (s : State) (a lo n k : Nat) : (s.add a lo n k).sweepNext = s.sweepNext := rfl
@[simp] theorem State.add_snaps (s : State) (a lo n k : Nat) : (s.add a lo n k).snaps = s.snaps := rfl
@[simp] theorem State.add_touch (s : State) (a lo n k : Nat) : (s.add a lo n k).touch = s.touch := rfl
@[simp] theorem State.add_parts (s : State) (a lo n k : Nat) : (s.add a lo n k).parts = s.parts := rfl
@[simp] theorem State.add_jobs (s : State) (a lo n k : Nat) : (s.add a lo n k).jobs = s.jobs := rfl
@[simp] theorem State.add_nextJob (s : State) (a lo n k : Nat) : (s.add a lo n k).nextJob = s.nextJob := rfl
@[simp] theorem State.add_nextFetch (s : State) (a lo n k : Nat) : (s.add a lo n k).nextFetch = s.nextFetch := rfl
@[simp] theorem State.add_cpls (s : State) (a lo n k : Nat) : (s.add a lo n k).cpls = s.cpls := rfl
@[simp] theorem State.add_srcs (s : State) (a lo n k : Nat) : (s.add a lo n k).srcs = s.srcs := rfl
@[simp] theorem State.add_desks (s : State) (a lo n k : Nat) : (s.add a lo n k).desks = s.desks := rfl
@[simp] theorem State.add_evcStop (s : State) (a lo n k : Nat) : (s.add a lo n k).evcStop = s.evcStop := rfl
@[simp] theorem State.add_chain (s : State) (a lo n k : Nat) : (s.add a lo n k).chain = s.chain := rfl
@[simp] theorem State.add_rdn (s : State) (a lo n k : Nat) : (s.add a lo n k).rdn = s.rdn := rfl
@[simp] theorem State.add_dce (s : State) (a lo n k : Nat) : (s.add a lo n k).dce = s.dce := rfl
@[simp] theorem State.add_bands (s : State) (a lo n k : Nat) : (s.add a lo n k).bands = s.bands := rfl
@[simp] theorem State.add_ckptWait (s : State) (a lo n k : Nat) : (s.add a lo n k).ckptWait = s.ckptWait := rfl
@[simp] theorem State.add_crcu (s : State) (a lo n k : Nat) : (s.add a lo n k).crcu = s.crcu := rfl
@[simp] theorem State.add_pwr (s : State) (a lo n k : Nat) : (s.add a lo n k).pwr = s.pwr := rfl
@[simp] theorem State.add_drains (s : State) (a lo n k : Nat) : (s.add a lo n k).drains = s.drains := rfl
@[simp] theorem State.add_heldAcc (s : State) (a lo n k : Nat) : (s.add a lo n k).heldAcc = s.heldAcc := rfl
@[simp] theorem State.add_quiets (s : State) (a lo n k : Nat) : (s.add a lo n k).quiets = s.quiets := rfl
@[simp] theorem State.add_glog (s : State) (a lo n k : Nat) : (s.add a lo n k).glog = s.glog := rfl
@[simp] theorem State.add_lanesQd (s : State) (a lo n k : Nat) : (s.add a lo n k).lanesQd = s.lanesQd := rfl
@[simp] theorem State.add_lockAt (s : State) (a lo n k : Nat) : (s.add a lo n k).lockAt = s.lockAt := rfl
@[simp] theorem State.add_nonce (s : State) (a lo n k : Nat) : (s.add a lo n k).nonce = s.nonce := rfl
@[simp] theorem State.add_token (s : State) (a lo n k : Nat) : (s.add a lo n k).token = s.token := rfl
@[simp] theorem State.add_fuseOps (s : State) (a lo n k : Nat) : (s.add a lo n k).fuseOps = s.fuseOps := rfl
@[simp] theorem State.add_outbox (s : State) (a lo n k : Nat) : (s.add a lo n k).outbox = s.outbox := rfl
@[simp] theorem State.add_bus (s : State) (a lo n k : Nat) : (s.add a lo n k).bus = s.bus := rfl

/-! ### inc -/

@[simp] theorem State.inc_pending (s : State) (a : Nat) : (s.inc a).pending = s.pending := rfl
@[simp] theorem State.inc_free (s : State) (a : Nat) : (s.inc a).free = s.free := rfl
@[simp] theorem State.inc_island (s : State) (a : Nat) : (s.inc a).island = s.island := rfl
@[simp] theorem State.inc_ctl (s : State) (a : Nat) : (s.inc a).ctl = s.ctl := rfl
@[simp] theorem State.inc_fuses (s : State) (a : Nat) : (s.inc a).fuses = s.fuses := rfl
@[simp] theorem State.inc_straps (s : State) (a : Nat) : (s.inc a).straps = s.straps := rfl
@[simp] theorem State.inc_tbase (s : State) (a : Nat) : (s.inc a).tbase = s.tbase := rfl
@[simp] theorem State.inc_hold (s : State) (a : Nat) : (s.inc a).hold = s.hold := rfl
@[simp] theorem State.inc_mem (s : State) (a : Nat) : (s.inc a).mem = s.mem := rfl
@[simp] theorem State.inc_tgs (s : State) (a : Nat) : (s.inc a).tgs = s.tgs := rfl
@[simp] theorem State.inc_flows (s : State) (a : Nat) : (s.inc a).flows = s.flows := rfl
@[simp] theorem State.inc_ctxs (s : State) (a : Nat) : (s.inc a).ctxs = s.ctxs := rfl
@[simp] theorem State.inc_egress (s : State) (a : Nat) : (s.inc a).egress = s.egress := rfl
@[simp] theorem State.inc_follows (s : State) (a : Nat) : (s.inc a).follows = s.follows := rfl
@[simp] theorem State.inc_ipp (s : State) (a : Nat) : (s.inc a).ipp = s.ipp := rfl
@[simp] theorem State.inc_encs (s : State) (a : Nat) : (s.inc a).encs = s.encs := rfl
@[simp] theorem State.inc_surfs (s : State) (a : Nat) : (s.inc a).surfs = s.surfs := rfl
@[simp] theorem State.inc_ledger (s : State) (a : Nat) : (s.inc a).ledger = s.ledger := rfl
@[simp] theorem State.inc_records (s : State) (a : Nat) : (s.inc a).records = s.records := rfl
@[simp] theorem State.inc_layers (s : State) (a : Nat) : (s.inc a).layers = s.layers := rfl
@[simp] theorem State.inc_heads (s : State) (a : Nat) : (s.inc a).heads = s.heads := rfl
@[simp] theorem State.inc_seals (s : State) (a : Nat) : (s.inc a).seals = s.seals := rfl
@[simp] theorem State.inc_commits (s : State) (a : Nat) : (s.inc a).commits = s.commits := rfl
@[simp] theorem State.inc_sweepMs (s : State) (a : Nat) : (s.inc a).sweepMs = s.sweepMs := rfl
@[simp] theorem State.inc_sweepAt (s : State) (a : Nat) : (s.inc a).sweepAt = s.sweepAt := rfl
@[simp] theorem State.inc_sweepNext (s : State) (a : Nat) : (s.inc a).sweepNext = s.sweepNext := rfl
@[simp] theorem State.inc_snaps (s : State) (a : Nat) : (s.inc a).snaps = s.snaps := rfl
@[simp] theorem State.inc_touch (s : State) (a : Nat) : (s.inc a).touch = s.touch := rfl
@[simp] theorem State.inc_parts (s : State) (a : Nat) : (s.inc a).parts = s.parts := rfl
@[simp] theorem State.inc_jobs (s : State) (a : Nat) : (s.inc a).jobs = s.jobs := rfl
@[simp] theorem State.inc_nextJob (s : State) (a : Nat) : (s.inc a).nextJob = s.nextJob := rfl
@[simp] theorem State.inc_nextFetch (s : State) (a : Nat) : (s.inc a).nextFetch = s.nextFetch := rfl
@[simp] theorem State.inc_cpls (s : State) (a : Nat) : (s.inc a).cpls = s.cpls := rfl
@[simp] theorem State.inc_srcs (s : State) (a : Nat) : (s.inc a).srcs = s.srcs := rfl
@[simp] theorem State.inc_desks (s : State) (a : Nat) : (s.inc a).desks = s.desks := rfl
@[simp] theorem State.inc_evcStop (s : State) (a : Nat) : (s.inc a).evcStop = s.evcStop := rfl
@[simp] theorem State.inc_chain (s : State) (a : Nat) : (s.inc a).chain = s.chain := rfl
@[simp] theorem State.inc_rdn (s : State) (a : Nat) : (s.inc a).rdn = s.rdn := rfl
@[simp] theorem State.inc_dce (s : State) (a : Nat) : (s.inc a).dce = s.dce := rfl
@[simp] theorem State.inc_bands (s : State) (a : Nat) : (s.inc a).bands = s.bands := rfl
@[simp] theorem State.inc_ckptWait (s : State) (a : Nat) : (s.inc a).ckptWait = s.ckptWait := rfl
@[simp] theorem State.inc_crcu (s : State) (a : Nat) : (s.inc a).crcu = s.crcu := rfl
@[simp] theorem State.inc_pwr (s : State) (a : Nat) : (s.inc a).pwr = s.pwr := rfl
@[simp] theorem State.inc_drains (s : State) (a : Nat) : (s.inc a).drains = s.drains := rfl
@[simp] theorem State.inc_heldAcc (s : State) (a : Nat) : (s.inc a).heldAcc = s.heldAcc := rfl
@[simp] theorem State.inc_quiets (s : State) (a : Nat) : (s.inc a).quiets = s.quiets := rfl
@[simp] theorem State.inc_glog (s : State) (a : Nat) : (s.inc a).glog = s.glog := rfl
@[simp] theorem State.inc_lanesQd (s : State) (a : Nat) : (s.inc a).lanesQd = s.lanesQd := rfl
@[simp] theorem State.inc_lockAt (s : State) (a : Nat) : (s.inc a).lockAt = s.lockAt := rfl
@[simp] theorem State.inc_nonce (s : State) (a : Nat) : (s.inc a).nonce = s.nonce := rfl
@[simp] theorem State.inc_token (s : State) (a : Nat) : (s.inc a).token = s.token := rfl
@[simp] theorem State.inc_fuseOps (s : State) (a : Nat) : (s.inc a).fuseOps = s.fuseOps := rfl
@[simp] theorem State.inc_outbox (s : State) (a : Nat) : (s.inc a).outbox = s.outbox := rfl
@[simp] theorem State.inc_bus (s : State) (a : Nat) : (s.inc a).bus = s.bus := rfl

/-! ### wrapInc -/

@[simp] theorem State.wrapInc_pending (s : State) (a lo n : Nat) : (s.wrapInc a lo n).pending = s.pending := rfl
@[simp] theorem State.wrapInc_free (s : State) (a lo n : Nat) : (s.wrapInc a lo n).free = s.free := rfl
@[simp] theorem State.wrapInc_island (s : State) (a lo n : Nat) : (s.wrapInc a lo n).island = s.island := rfl
@[simp] theorem State.wrapInc_ctl (s : State) (a lo n : Nat) : (s.wrapInc a lo n).ctl = s.ctl := rfl
@[simp] theorem State.wrapInc_fuses (s : State) (a lo n : Nat) : (s.wrapInc a lo n).fuses = s.fuses := rfl
@[simp] theorem State.wrapInc_straps (s : State) (a lo n : Nat) : (s.wrapInc a lo n).straps = s.straps := rfl
@[simp] theorem State.wrapInc_tbase (s : State) (a lo n : Nat) : (s.wrapInc a lo n).tbase = s.tbase := rfl
@[simp] theorem State.wrapInc_hold (s : State) (a lo n : Nat) : (s.wrapInc a lo n).hold = s.hold := rfl
@[simp] theorem State.wrapInc_mem (s : State) (a lo n : Nat) : (s.wrapInc a lo n).mem = s.mem := rfl
@[simp] theorem State.wrapInc_tgs (s : State) (a lo n : Nat) : (s.wrapInc a lo n).tgs = s.tgs := rfl
@[simp] theorem State.wrapInc_flows (s : State) (a lo n : Nat) : (s.wrapInc a lo n).flows = s.flows := rfl
@[simp] theorem State.wrapInc_ctxs (s : State) (a lo n : Nat) : (s.wrapInc a lo n).ctxs = s.ctxs := rfl
@[simp] theorem State.wrapInc_egress (s : State) (a lo n : Nat) : (s.wrapInc a lo n).egress = s.egress := rfl
@[simp] theorem State.wrapInc_follows (s : State) (a lo n : Nat) : (s.wrapInc a lo n).follows = s.follows := rfl
@[simp] theorem State.wrapInc_ipp (s : State) (a lo n : Nat) : (s.wrapInc a lo n).ipp = s.ipp := rfl
@[simp] theorem State.wrapInc_encs (s : State) (a lo n : Nat) : (s.wrapInc a lo n).encs = s.encs := rfl
@[simp] theorem State.wrapInc_surfs (s : State) (a lo n : Nat) : (s.wrapInc a lo n).surfs = s.surfs := rfl
@[simp] theorem State.wrapInc_ledger (s : State) (a lo n : Nat) : (s.wrapInc a lo n).ledger = s.ledger := rfl
@[simp] theorem State.wrapInc_records (s : State) (a lo n : Nat) : (s.wrapInc a lo n).records = s.records := rfl
@[simp] theorem State.wrapInc_layers (s : State) (a lo n : Nat) : (s.wrapInc a lo n).layers = s.layers := rfl
@[simp] theorem State.wrapInc_heads (s : State) (a lo n : Nat) : (s.wrapInc a lo n).heads = s.heads := rfl
@[simp] theorem State.wrapInc_seals (s : State) (a lo n : Nat) : (s.wrapInc a lo n).seals = s.seals := rfl
@[simp] theorem State.wrapInc_commits (s : State) (a lo n : Nat) : (s.wrapInc a lo n).commits = s.commits := rfl
@[simp] theorem State.wrapInc_sweepMs (s : State) (a lo n : Nat) : (s.wrapInc a lo n).sweepMs = s.sweepMs := rfl
@[simp] theorem State.wrapInc_sweepAt (s : State) (a lo n : Nat) : (s.wrapInc a lo n).sweepAt = s.sweepAt := rfl
@[simp] theorem State.wrapInc_sweepNext (s : State) (a lo n : Nat) : (s.wrapInc a lo n).sweepNext = s.sweepNext := rfl
@[simp] theorem State.wrapInc_snaps (s : State) (a lo n : Nat) : (s.wrapInc a lo n).snaps = s.snaps := rfl
@[simp] theorem State.wrapInc_touch (s : State) (a lo n : Nat) : (s.wrapInc a lo n).touch = s.touch := rfl
@[simp] theorem State.wrapInc_parts (s : State) (a lo n : Nat) : (s.wrapInc a lo n).parts = s.parts := rfl
@[simp] theorem State.wrapInc_jobs (s : State) (a lo n : Nat) : (s.wrapInc a lo n).jobs = s.jobs := rfl
@[simp] theorem State.wrapInc_nextJob (s : State) (a lo n : Nat) : (s.wrapInc a lo n).nextJob = s.nextJob := rfl
@[simp] theorem State.wrapInc_nextFetch (s : State) (a lo n : Nat) : (s.wrapInc a lo n).nextFetch = s.nextFetch := rfl
@[simp] theorem State.wrapInc_cpls (s : State) (a lo n : Nat) : (s.wrapInc a lo n).cpls = s.cpls := rfl
@[simp] theorem State.wrapInc_srcs (s : State) (a lo n : Nat) : (s.wrapInc a lo n).srcs = s.srcs := rfl
@[simp] theorem State.wrapInc_desks (s : State) (a lo n : Nat) : (s.wrapInc a lo n).desks = s.desks := rfl
@[simp] theorem State.wrapInc_evcStop (s : State) (a lo n : Nat) : (s.wrapInc a lo n).evcStop = s.evcStop := rfl
@[simp] theorem State.wrapInc_chain (s : State) (a lo n : Nat) : (s.wrapInc a lo n).chain = s.chain := rfl
@[simp] theorem State.wrapInc_rdn (s : State) (a lo n : Nat) : (s.wrapInc a lo n).rdn = s.rdn := rfl
@[simp] theorem State.wrapInc_dce (s : State) (a lo n : Nat) : (s.wrapInc a lo n).dce = s.dce := rfl
@[simp] theorem State.wrapInc_bands (s : State) (a lo n : Nat) : (s.wrapInc a lo n).bands = s.bands := rfl
@[simp] theorem State.wrapInc_ckptWait (s : State) (a lo n : Nat) : (s.wrapInc a lo n).ckptWait = s.ckptWait := rfl
@[simp] theorem State.wrapInc_crcu (s : State) (a lo n : Nat) : (s.wrapInc a lo n).crcu = s.crcu := rfl
@[simp] theorem State.wrapInc_pwr (s : State) (a lo n : Nat) : (s.wrapInc a lo n).pwr = s.pwr := rfl
@[simp] theorem State.wrapInc_drains (s : State) (a lo n : Nat) : (s.wrapInc a lo n).drains = s.drains := rfl
@[simp] theorem State.wrapInc_heldAcc (s : State) (a lo n : Nat) : (s.wrapInc a lo n).heldAcc = s.heldAcc := rfl
@[simp] theorem State.wrapInc_quiets (s : State) (a lo n : Nat) : (s.wrapInc a lo n).quiets = s.quiets := rfl
@[simp] theorem State.wrapInc_glog (s : State) (a lo n : Nat) : (s.wrapInc a lo n).glog = s.glog := rfl
@[simp] theorem State.wrapInc_lanesQd (s : State) (a lo n : Nat) : (s.wrapInc a lo n).lanesQd = s.lanesQd := rfl
@[simp] theorem State.wrapInc_lockAt (s : State) (a lo n : Nat) : (s.wrapInc a lo n).lockAt = s.lockAt := rfl
@[simp] theorem State.wrapInc_nonce (s : State) (a lo n : Nat) : (s.wrapInc a lo n).nonce = s.nonce := rfl
@[simp] theorem State.wrapInc_token (s : State) (a lo n : Nat) : (s.wrapInc a lo n).token = s.token := rfl
@[simp] theorem State.wrapInc_fuseOps (s : State) (a lo n : Nat) : (s.wrapInc a lo n).fuseOps = s.fuseOps := rfl
@[simp] theorem State.wrapInc_outbox (s : State) (a lo n : Nat) : (s.wrapInc a lo n).outbox = s.outbox := rfl
@[simp] theorem State.wrapInc_bus (s : State) (a lo n : Nat) : (s.wrapInc a lo n).bus = s.bus := rfl

/-! ### setPair -/

@[simp] theorem State.setPair_pending (s : State) (lo hi v : Nat) : (s.setPair lo hi v).pending = s.pending := rfl
@[simp] theorem State.setPair_free (s : State) (lo hi v : Nat) : (s.setPair lo hi v).free = s.free := rfl
@[simp] theorem State.setPair_island (s : State) (lo hi v : Nat) : (s.setPair lo hi v).island = s.island := rfl
@[simp] theorem State.setPair_ctl (s : State) (lo hi v : Nat) : (s.setPair lo hi v).ctl = s.ctl := rfl
@[simp] theorem State.setPair_fuses (s : State) (lo hi v : Nat) : (s.setPair lo hi v).fuses = s.fuses := rfl
@[simp] theorem State.setPair_straps (s : State) (lo hi v : Nat) : (s.setPair lo hi v).straps = s.straps := rfl
@[simp] theorem State.setPair_tbase (s : State) (lo hi v : Nat) : (s.setPair lo hi v).tbase = s.tbase := rfl
@[simp] theorem State.setPair_hold (s : State) (lo hi v : Nat) : (s.setPair lo hi v).hold = s.hold := rfl
@[simp] theorem State.setPair_mem (s : State) (lo hi v : Nat) : (s.setPair lo hi v).mem = s.mem := rfl
@[simp] theorem State.setPair_tgs (s : State) (lo hi v : Nat) : (s.setPair lo hi v).tgs = s.tgs := rfl
@[simp] theorem State.setPair_flows (s : State) (lo hi v : Nat) : (s.setPair lo hi v).flows = s.flows := rfl
@[simp] theorem State.setPair_ctxs (s : State) (lo hi v : Nat) : (s.setPair lo hi v).ctxs = s.ctxs := rfl
@[simp] theorem State.setPair_egress (s : State) (lo hi v : Nat) : (s.setPair lo hi v).egress = s.egress := rfl
@[simp] theorem State.setPair_follows (s : State) (lo hi v : Nat) : (s.setPair lo hi v).follows = s.follows := rfl
@[simp] theorem State.setPair_ipp (s : State) (lo hi v : Nat) : (s.setPair lo hi v).ipp = s.ipp := rfl
@[simp] theorem State.setPair_encs (s : State) (lo hi v : Nat) : (s.setPair lo hi v).encs = s.encs := rfl
@[simp] theorem State.setPair_surfs (s : State) (lo hi v : Nat) : (s.setPair lo hi v).surfs = s.surfs := rfl
@[simp] theorem State.setPair_ledger (s : State) (lo hi v : Nat) : (s.setPair lo hi v).ledger = s.ledger := rfl
@[simp] theorem State.setPair_records (s : State) (lo hi v : Nat) : (s.setPair lo hi v).records = s.records := rfl
@[simp] theorem State.setPair_layers (s : State) (lo hi v : Nat) : (s.setPair lo hi v).layers = s.layers := rfl
@[simp] theorem State.setPair_heads (s : State) (lo hi v : Nat) : (s.setPair lo hi v).heads = s.heads := rfl
@[simp] theorem State.setPair_seals (s : State) (lo hi v : Nat) : (s.setPair lo hi v).seals = s.seals := rfl
@[simp] theorem State.setPair_commits (s : State) (lo hi v : Nat) : (s.setPair lo hi v).commits = s.commits := rfl
@[simp] theorem State.setPair_sweepMs (s : State) (lo hi v : Nat) : (s.setPair lo hi v).sweepMs = s.sweepMs := rfl
@[simp] theorem State.setPair_sweepAt (s : State) (lo hi v : Nat) : (s.setPair lo hi v).sweepAt = s.sweepAt := rfl
@[simp] theorem State.setPair_sweepNext (s : State) (lo hi v : Nat) : (s.setPair lo hi v).sweepNext = s.sweepNext := rfl
@[simp] theorem State.setPair_snaps (s : State) (lo hi v : Nat) : (s.setPair lo hi v).snaps = s.snaps := rfl
@[simp] theorem State.setPair_touch (s : State) (lo hi v : Nat) : (s.setPair lo hi v).touch = s.touch := rfl
@[simp] theorem State.setPair_parts (s : State) (lo hi v : Nat) : (s.setPair lo hi v).parts = s.parts := rfl
@[simp] theorem State.setPair_jobs (s : State) (lo hi v : Nat) : (s.setPair lo hi v).jobs = s.jobs := rfl
@[simp] theorem State.setPair_nextJob (s : State) (lo hi v : Nat) : (s.setPair lo hi v).nextJob = s.nextJob := rfl
@[simp] theorem State.setPair_nextFetch (s : State) (lo hi v : Nat) : (s.setPair lo hi v).nextFetch = s.nextFetch := rfl
@[simp] theorem State.setPair_cpls (s : State) (lo hi v : Nat) : (s.setPair lo hi v).cpls = s.cpls := rfl
@[simp] theorem State.setPair_srcs (s : State) (lo hi v : Nat) : (s.setPair lo hi v).srcs = s.srcs := rfl
@[simp] theorem State.setPair_desks (s : State) (lo hi v : Nat) : (s.setPair lo hi v).desks = s.desks := rfl
@[simp] theorem State.setPair_evcStop (s : State) (lo hi v : Nat) : (s.setPair lo hi v).evcStop = s.evcStop := rfl
@[simp] theorem State.setPair_chain (s : State) (lo hi v : Nat) : (s.setPair lo hi v).chain = s.chain := rfl
@[simp] theorem State.setPair_rdn (s : State) (lo hi v : Nat) : (s.setPair lo hi v).rdn = s.rdn := rfl
@[simp] theorem State.setPair_dce (s : State) (lo hi v : Nat) : (s.setPair lo hi v).dce = s.dce := rfl
@[simp] theorem State.setPair_bands (s : State) (lo hi v : Nat) : (s.setPair lo hi v).bands = s.bands := rfl
@[simp] theorem State.setPair_ckptWait (s : State) (lo hi v : Nat) : (s.setPair lo hi v).ckptWait = s.ckptWait := rfl
@[simp] theorem State.setPair_crcu (s : State) (lo hi v : Nat) : (s.setPair lo hi v).crcu = s.crcu := rfl
@[simp] theorem State.setPair_pwr (s : State) (lo hi v : Nat) : (s.setPair lo hi v).pwr = s.pwr := rfl
@[simp] theorem State.setPair_drains (s : State) (lo hi v : Nat) : (s.setPair lo hi v).drains = s.drains := rfl
@[simp] theorem State.setPair_heldAcc (s : State) (lo hi v : Nat) : (s.setPair lo hi v).heldAcc = s.heldAcc := rfl
@[simp] theorem State.setPair_quiets (s : State) (lo hi v : Nat) : (s.setPair lo hi v).quiets = s.quiets := rfl
@[simp] theorem State.setPair_glog (s : State) (lo hi v : Nat) : (s.setPair lo hi v).glog = s.glog := rfl
@[simp] theorem State.setPair_lanesQd (s : State) (lo hi v : Nat) : (s.setPair lo hi v).lanesQd = s.lanesQd := rfl
@[simp] theorem State.setPair_lockAt (s : State) (lo hi v : Nat) : (s.setPair lo hi v).lockAt = s.lockAt := rfl
@[simp] theorem State.setPair_nonce (s : State) (lo hi v : Nat) : (s.setPair lo hi v).nonce = s.nonce := rfl
@[simp] theorem State.setPair_token (s : State) (lo hi v : Nat) : (s.setPair lo hi v).token = s.token := rfl
@[simp] theorem State.setPair_fuseOps (s : State) (lo hi v : Nat) : (s.setPair lo hi v).fuseOps = s.fuseOps := rfl
@[simp] theorem State.setPair_outbox (s : State) (lo hi v : Nat) : (s.setPair lo hi v).outbox = s.outbox := rfl
@[simp] theorem State.setPair_bus (s : State) (lo hi v : Nat) : (s.setPair lo hi v).bus = s.bus := rfl

/-! ### resultOpen -/

@[simp] theorem State.resultOpen_pending (s : State) (a : Nat) : (s.resultOpen a).pending = s.pending := rfl
@[simp] theorem State.resultOpen_free (s : State) (a : Nat) : (s.resultOpen a).free = s.free := rfl
@[simp] theorem State.resultOpen_island (s : State) (a : Nat) : (s.resultOpen a).island = s.island := rfl
@[simp] theorem State.resultOpen_ctl (s : State) (a : Nat) : (s.resultOpen a).ctl = s.ctl := rfl
@[simp] theorem State.resultOpen_fuses (s : State) (a : Nat) : (s.resultOpen a).fuses = s.fuses := rfl
@[simp] theorem State.resultOpen_straps (s : State) (a : Nat) : (s.resultOpen a).straps = s.straps := rfl
@[simp] theorem State.resultOpen_tbase (s : State) (a : Nat) : (s.resultOpen a).tbase = s.tbase := rfl
@[simp] theorem State.resultOpen_hold (s : State) (a : Nat) : (s.resultOpen a).hold = s.hold := rfl
@[simp] theorem State.resultOpen_mem (s : State) (a : Nat) : (s.resultOpen a).mem = s.mem := rfl
@[simp] theorem State.resultOpen_tgs (s : State) (a : Nat) : (s.resultOpen a).tgs = s.tgs := rfl
@[simp] theorem State.resultOpen_flows (s : State) (a : Nat) : (s.resultOpen a).flows = s.flows := rfl
@[simp] theorem State.resultOpen_ctxs (s : State) (a : Nat) : (s.resultOpen a).ctxs = s.ctxs := rfl
@[simp] theorem State.resultOpen_egress (s : State) (a : Nat) : (s.resultOpen a).egress = s.egress := rfl
@[simp] theorem State.resultOpen_follows (s : State) (a : Nat) : (s.resultOpen a).follows = s.follows := rfl
@[simp] theorem State.resultOpen_ipp (s : State) (a : Nat) : (s.resultOpen a).ipp = s.ipp := rfl
@[simp] theorem State.resultOpen_encs (s : State) (a : Nat) : (s.resultOpen a).encs = s.encs := rfl
@[simp] theorem State.resultOpen_surfs (s : State) (a : Nat) : (s.resultOpen a).surfs = s.surfs := rfl
@[simp] theorem State.resultOpen_ledger (s : State) (a : Nat) : (s.resultOpen a).ledger = s.ledger := rfl
@[simp] theorem State.resultOpen_records (s : State) (a : Nat) : (s.resultOpen a).records = s.records := rfl
@[simp] theorem State.resultOpen_layers (s : State) (a : Nat) : (s.resultOpen a).layers = s.layers := rfl
@[simp] theorem State.resultOpen_heads (s : State) (a : Nat) : (s.resultOpen a).heads = s.heads := rfl
@[simp] theorem State.resultOpen_seals (s : State) (a : Nat) : (s.resultOpen a).seals = s.seals := rfl
@[simp] theorem State.resultOpen_commits (s : State) (a : Nat) : (s.resultOpen a).commits = s.commits := rfl
@[simp] theorem State.resultOpen_sweepMs (s : State) (a : Nat) : (s.resultOpen a).sweepMs = s.sweepMs := rfl
@[simp] theorem State.resultOpen_sweepAt (s : State) (a : Nat) : (s.resultOpen a).sweepAt = s.sweepAt := rfl
@[simp] theorem State.resultOpen_sweepNext (s : State) (a : Nat) : (s.resultOpen a).sweepNext = s.sweepNext := rfl
@[simp] theorem State.resultOpen_snaps (s : State) (a : Nat) : (s.resultOpen a).snaps = s.snaps := rfl
@[simp] theorem State.resultOpen_touch (s : State) (a : Nat) : (s.resultOpen a).touch = s.touch := rfl
@[simp] theorem State.resultOpen_parts (s : State) (a : Nat) : (s.resultOpen a).parts = s.parts := rfl
@[simp] theorem State.resultOpen_jobs (s : State) (a : Nat) : (s.resultOpen a).jobs = s.jobs := rfl
@[simp] theorem State.resultOpen_nextJob (s : State) (a : Nat) : (s.resultOpen a).nextJob = s.nextJob := rfl
@[simp] theorem State.resultOpen_nextFetch (s : State) (a : Nat) : (s.resultOpen a).nextFetch = s.nextFetch := rfl
@[simp] theorem State.resultOpen_cpls (s : State) (a : Nat) : (s.resultOpen a).cpls = s.cpls := rfl
@[simp] theorem State.resultOpen_srcs (s : State) (a : Nat) : (s.resultOpen a).srcs = s.srcs := rfl
@[simp] theorem State.resultOpen_desks (s : State) (a : Nat) : (s.resultOpen a).desks = s.desks := rfl
@[simp] theorem State.resultOpen_evcStop (s : State) (a : Nat) : (s.resultOpen a).evcStop = s.evcStop := rfl
@[simp] theorem State.resultOpen_chain (s : State) (a : Nat) : (s.resultOpen a).chain = s.chain := rfl
@[simp] theorem State.resultOpen_rdn (s : State) (a : Nat) : (s.resultOpen a).rdn = s.rdn := rfl
@[simp] theorem State.resultOpen_dce (s : State) (a : Nat) : (s.resultOpen a).dce = s.dce := rfl
@[simp] theorem State.resultOpen_bands (s : State) (a : Nat) : (s.resultOpen a).bands = s.bands := rfl
@[simp] theorem State.resultOpen_ckptWait (s : State) (a : Nat) : (s.resultOpen a).ckptWait = s.ckptWait := rfl
@[simp] theorem State.resultOpen_crcu (s : State) (a : Nat) : (s.resultOpen a).crcu = s.crcu := rfl
@[simp] theorem State.resultOpen_pwr (s : State) (a : Nat) : (s.resultOpen a).pwr = s.pwr := rfl
@[simp] theorem State.resultOpen_drains (s : State) (a : Nat) : (s.resultOpen a).drains = s.drains := rfl
@[simp] theorem State.resultOpen_heldAcc (s : State) (a : Nat) : (s.resultOpen a).heldAcc = s.heldAcc := rfl
@[simp] theorem State.resultOpen_quiets (s : State) (a : Nat) : (s.resultOpen a).quiets = s.quiets := rfl
@[simp] theorem State.resultOpen_glog (s : State) (a : Nat) : (s.resultOpen a).glog = s.glog := rfl
@[simp] theorem State.resultOpen_lanesQd (s : State) (a : Nat) : (s.resultOpen a).lanesQd = s.lanesQd := rfl
@[simp] theorem State.resultOpen_lockAt (s : State) (a : Nat) : (s.resultOpen a).lockAt = s.lockAt := rfl
@[simp] theorem State.resultOpen_nonce (s : State) (a : Nat) : (s.resultOpen a).nonce = s.nonce := rfl
@[simp] theorem State.resultOpen_token (s : State) (a : Nat) : (s.resultOpen a).token = s.token := rfl
@[simp] theorem State.resultOpen_fuseOps (s : State) (a : Nat) : (s.resultOpen a).fuseOps = s.fuseOps := rfl
@[simp] theorem State.resultOpen_outbox (s : State) (a : Nat) : (s.resultOpen a).outbox = s.outbox := rfl
@[simp] theorem State.resultOpen_bus (s : State) (a : Nat) : (s.resultOpen a).bus = s.bus := rfl

/-! ### resultDone -/

@[simp] theorem State.resultDone_pending (s : State) (a bits : Nat) : (s.resultDone a bits).pending = s.pending := rfl
@[simp] theorem State.resultDone_free (s : State) (a bits : Nat) : (s.resultDone a bits).free = s.free := rfl
@[simp] theorem State.resultDone_island (s : State) (a bits : Nat) : (s.resultDone a bits).island = s.island := rfl
@[simp] theorem State.resultDone_ctl (s : State) (a bits : Nat) : (s.resultDone a bits).ctl = s.ctl := rfl
@[simp] theorem State.resultDone_fuses (s : State) (a bits : Nat) : (s.resultDone a bits).fuses = s.fuses := rfl
@[simp] theorem State.resultDone_straps (s : State) (a bits : Nat) : (s.resultDone a bits).straps = s.straps := rfl
@[simp] theorem State.resultDone_tbase (s : State) (a bits : Nat) : (s.resultDone a bits).tbase = s.tbase := rfl
@[simp] theorem State.resultDone_hold (s : State) (a bits : Nat) : (s.resultDone a bits).hold = s.hold := rfl
@[simp] theorem State.resultDone_mem (s : State) (a bits : Nat) : (s.resultDone a bits).mem = s.mem := rfl
@[simp] theorem State.resultDone_tgs (s : State) (a bits : Nat) : (s.resultDone a bits).tgs = s.tgs := rfl
@[simp] theorem State.resultDone_flows (s : State) (a bits : Nat) : (s.resultDone a bits).flows = s.flows := rfl
@[simp] theorem State.resultDone_ctxs (s : State) (a bits : Nat) : (s.resultDone a bits).ctxs = s.ctxs := rfl
@[simp] theorem State.resultDone_egress (s : State) (a bits : Nat) : (s.resultDone a bits).egress = s.egress := rfl
@[simp] theorem State.resultDone_follows (s : State) (a bits : Nat) : (s.resultDone a bits).follows = s.follows := rfl
@[simp] theorem State.resultDone_ipp (s : State) (a bits : Nat) : (s.resultDone a bits).ipp = s.ipp := rfl
@[simp] theorem State.resultDone_encs (s : State) (a bits : Nat) : (s.resultDone a bits).encs = s.encs := rfl
@[simp] theorem State.resultDone_surfs (s : State) (a bits : Nat) : (s.resultDone a bits).surfs = s.surfs := rfl
@[simp] theorem State.resultDone_ledger (s : State) (a bits : Nat) : (s.resultDone a bits).ledger = s.ledger := rfl
@[simp] theorem State.resultDone_records (s : State) (a bits : Nat) : (s.resultDone a bits).records = s.records := rfl
@[simp] theorem State.resultDone_layers (s : State) (a bits : Nat) : (s.resultDone a bits).layers = s.layers := rfl
@[simp] theorem State.resultDone_heads (s : State) (a bits : Nat) : (s.resultDone a bits).heads = s.heads := rfl
@[simp] theorem State.resultDone_seals (s : State) (a bits : Nat) : (s.resultDone a bits).seals = s.seals := rfl
@[simp] theorem State.resultDone_commits (s : State) (a bits : Nat) : (s.resultDone a bits).commits = s.commits := rfl
@[simp] theorem State.resultDone_sweepMs (s : State) (a bits : Nat) : (s.resultDone a bits).sweepMs = s.sweepMs := rfl
@[simp] theorem State.resultDone_sweepAt (s : State) (a bits : Nat) : (s.resultDone a bits).sweepAt = s.sweepAt := rfl
@[simp] theorem State.resultDone_sweepNext (s : State) (a bits : Nat) : (s.resultDone a bits).sweepNext = s.sweepNext := rfl
@[simp] theorem State.resultDone_snaps (s : State) (a bits : Nat) : (s.resultDone a bits).snaps = s.snaps := rfl
@[simp] theorem State.resultDone_touch (s : State) (a bits : Nat) : (s.resultDone a bits).touch = s.touch := rfl
@[simp] theorem State.resultDone_parts (s : State) (a bits : Nat) : (s.resultDone a bits).parts = s.parts := rfl
@[simp] theorem State.resultDone_jobs (s : State) (a bits : Nat) : (s.resultDone a bits).jobs = s.jobs := rfl
@[simp] theorem State.resultDone_nextJob (s : State) (a bits : Nat) : (s.resultDone a bits).nextJob = s.nextJob := rfl
@[simp] theorem State.resultDone_nextFetch (s : State) (a bits : Nat) : (s.resultDone a bits).nextFetch = s.nextFetch := rfl
@[simp] theorem State.resultDone_cpls (s : State) (a bits : Nat) : (s.resultDone a bits).cpls = s.cpls := rfl
@[simp] theorem State.resultDone_srcs (s : State) (a bits : Nat) : (s.resultDone a bits).srcs = s.srcs := rfl
@[simp] theorem State.resultDone_desks (s : State) (a bits : Nat) : (s.resultDone a bits).desks = s.desks := rfl
@[simp] theorem State.resultDone_evcStop (s : State) (a bits : Nat) : (s.resultDone a bits).evcStop = s.evcStop := rfl
@[simp] theorem State.resultDone_chain (s : State) (a bits : Nat) : (s.resultDone a bits).chain = s.chain := rfl
@[simp] theorem State.resultDone_rdn (s : State) (a bits : Nat) : (s.resultDone a bits).rdn = s.rdn := rfl
@[simp] theorem State.resultDone_dce (s : State) (a bits : Nat) : (s.resultDone a bits).dce = s.dce := rfl
@[simp] theorem State.resultDone_bands (s : State) (a bits : Nat) : (s.resultDone a bits).bands = s.bands := rfl
@[simp] theorem State.resultDone_ckptWait (s : State) (a bits : Nat) : (s.resultDone a bits).ckptWait = s.ckptWait := rfl
@[simp] theorem State.resultDone_crcu (s : State) (a bits : Nat) : (s.resultDone a bits).crcu = s.crcu := rfl
@[simp] theorem State.resultDone_pwr (s : State) (a bits : Nat) : (s.resultDone a bits).pwr = s.pwr := rfl
@[simp] theorem State.resultDone_drains (s : State) (a bits : Nat) : (s.resultDone a bits).drains = s.drains := rfl
@[simp] theorem State.resultDone_heldAcc (s : State) (a bits : Nat) : (s.resultDone a bits).heldAcc = s.heldAcc := rfl
@[simp] theorem State.resultDone_quiets (s : State) (a bits : Nat) : (s.resultDone a bits).quiets = s.quiets := rfl
@[simp] theorem State.resultDone_glog (s : State) (a bits : Nat) : (s.resultDone a bits).glog = s.glog := rfl
@[simp] theorem State.resultDone_lanesQd (s : State) (a bits : Nat) : (s.resultDone a bits).lanesQd = s.lanesQd := rfl
@[simp] theorem State.resultDone_lockAt (s : State) (a bits : Nat) : (s.resultDone a bits).lockAt = s.lockAt := rfl
@[simp] theorem State.resultDone_nonce (s : State) (a bits : Nat) : (s.resultDone a bits).nonce = s.nonce := rfl
@[simp] theorem State.resultDone_token (s : State) (a bits : Nat) : (s.resultDone a bits).token = s.token := rfl
@[simp] theorem State.resultDone_fuseOps (s : State) (a bits : Nat) : (s.resultDone a bits).fuseOps = s.fuseOps := rfl
@[simp] theorem State.resultDone_outbox (s : State) (a bits : Nat) : (s.resultDone a bits).outbox = s.outbox := rfl
@[simp] theorem State.resultDone_bus (s : State) (a bits : Nat) : (s.resultDone a bits).bus = s.bus := rfl

/-! ### store -/

@[simp] theorem State.store_pending (s : State) (a : Nat) (bs : Bytes) : (s.store a bs).pending = s.pending := rfl
@[simp] theorem State.store_free (s : State) (a : Nat) (bs : Bytes) : (s.store a bs).free = s.free := rfl
@[simp] theorem State.store_island (s : State) (a : Nat) (bs : Bytes) : (s.store a bs).island = s.island := rfl
@[simp] theorem State.store_ctl (s : State) (a : Nat) (bs : Bytes) : (s.store a bs).ctl = s.ctl := rfl
@[simp] theorem State.store_fuses (s : State) (a : Nat) (bs : Bytes) : (s.store a bs).fuses = s.fuses := rfl
@[simp] theorem State.store_straps (s : State) (a : Nat) (bs : Bytes) : (s.store a bs).straps = s.straps := rfl
@[simp] theorem State.store_tbase (s : State) (a : Nat) (bs : Bytes) : (s.store a bs).tbase = s.tbase := rfl
@[simp] theorem State.store_hold (s : State) (a : Nat) (bs : Bytes) : (s.store a bs).hold = s.hold := rfl
@[simp] theorem State.store_regs (s : State) (a : Nat) (bs : Bytes) : (s.store a bs).regs = s.regs := rfl
@[simp] theorem State.store_mem (s : State) (a : Nat) (bs : Bytes) : (s.store a bs).mem = storeBytes s.mem a bs := rfl
@[simp] theorem State.store_tgs (s : State) (a : Nat) (bs : Bytes) : (s.store a bs).tgs = s.tgs := rfl
@[simp] theorem State.store_flows (s : State) (a : Nat) (bs : Bytes) : (s.store a bs).flows = s.flows := rfl
@[simp] theorem State.store_ctxs (s : State) (a : Nat) (bs : Bytes) : (s.store a bs).ctxs = s.ctxs := rfl
@[simp] theorem State.store_egress (s : State) (a : Nat) (bs : Bytes) : (s.store a bs).egress = s.egress := rfl
@[simp] theorem State.store_follows (s : State) (a : Nat) (bs : Bytes) : (s.store a bs).follows = s.follows := rfl
@[simp] theorem State.store_ipp (s : State) (a : Nat) (bs : Bytes) : (s.store a bs).ipp = s.ipp := rfl
@[simp] theorem State.store_encs (s : State) (a : Nat) (bs : Bytes) : (s.store a bs).encs = s.encs := rfl
@[simp] theorem State.store_surfs (s : State) (a : Nat) (bs : Bytes) : (s.store a bs).surfs = s.surfs := rfl
@[simp] theorem State.store_ledger (s : State) (a : Nat) (bs : Bytes) : (s.store a bs).ledger = s.ledger := rfl
@[simp] theorem State.store_records (s : State) (a : Nat) (bs : Bytes) : (s.store a bs).records = s.records := rfl
@[simp] theorem State.store_layers (s : State) (a : Nat) (bs : Bytes) : (s.store a bs).layers = s.layers := rfl
@[simp] theorem State.store_heads (s : State) (a : Nat) (bs : Bytes) : (s.store a bs).heads = s.heads := rfl
@[simp] theorem State.store_seals (s : State) (a : Nat) (bs : Bytes) : (s.store a bs).seals = s.seals := rfl
@[simp] theorem State.store_commits (s : State) (a : Nat) (bs : Bytes) : (s.store a bs).commits = s.commits := rfl
@[simp] theorem State.store_sweepMs (s : State) (a : Nat) (bs : Bytes) : (s.store a bs).sweepMs = s.sweepMs := rfl
@[simp] theorem State.store_sweepAt (s : State) (a : Nat) (bs : Bytes) : (s.store a bs).sweepAt = s.sweepAt := rfl
@[simp] theorem State.store_sweepNext (s : State) (a : Nat) (bs : Bytes) : (s.store a bs).sweepNext = s.sweepNext := rfl
@[simp] theorem State.store_snaps (s : State) (a : Nat) (bs : Bytes) : (s.store a bs).snaps = s.snaps := rfl
@[simp] theorem State.store_touch (s : State) (a : Nat) (bs : Bytes) : (s.store a bs).touch = s.touch := rfl
@[simp] theorem State.store_parts (s : State) (a : Nat) (bs : Bytes) : (s.store a bs).parts = s.parts := rfl
@[simp] theorem State.store_jobs (s : State) (a : Nat) (bs : Bytes) : (s.store a bs).jobs = s.jobs := rfl
@[simp] theorem State.store_nextJob (s : State) (a : Nat) (bs : Bytes) : (s.store a bs).nextJob = s.nextJob := rfl
@[simp] theorem State.store_nextFetch (s : State) (a : Nat) (bs : Bytes) : (s.store a bs).nextFetch = s.nextFetch := rfl
@[simp] theorem State.store_cpls (s : State) (a : Nat) (bs : Bytes) : (s.store a bs).cpls = s.cpls := rfl
@[simp] theorem State.store_srcs (s : State) (a : Nat) (bs : Bytes) : (s.store a bs).srcs = s.srcs := rfl
@[simp] theorem State.store_desks (s : State) (a : Nat) (bs : Bytes) : (s.store a bs).desks = s.desks := rfl
@[simp] theorem State.store_evcStop (s : State) (a : Nat) (bs : Bytes) : (s.store a bs).evcStop = s.evcStop := rfl
@[simp] theorem State.store_chain (s : State) (a : Nat) (bs : Bytes) : (s.store a bs).chain = s.chain := rfl
@[simp] theorem State.store_rdn (s : State) (a : Nat) (bs : Bytes) : (s.store a bs).rdn = s.rdn := rfl
@[simp] theorem State.store_dce (s : State) (a : Nat) (bs : Bytes) : (s.store a bs).dce = s.dce := rfl
@[simp] theorem State.store_bands (s : State) (a : Nat) (bs : Bytes) : (s.store a bs).bands = s.bands := rfl
@[simp] theorem State.store_ckptWait (s : State) (a : Nat) (bs : Bytes) : (s.store a bs).ckptWait = s.ckptWait := rfl
@[simp] theorem State.store_crcu (s : State) (a : Nat) (bs : Bytes) : (s.store a bs).crcu = s.crcu := rfl
@[simp] theorem State.store_pwr (s : State) (a : Nat) (bs : Bytes) : (s.store a bs).pwr = s.pwr := rfl
@[simp] theorem State.store_drains (s : State) (a : Nat) (bs : Bytes) : (s.store a bs).drains = s.drains := rfl
@[simp] theorem State.store_heldAcc (s : State) (a : Nat) (bs : Bytes) : (s.store a bs).heldAcc = s.heldAcc := rfl
@[simp] theorem State.store_quiets (s : State) (a : Nat) (bs : Bytes) : (s.store a bs).quiets = s.quiets := rfl
@[simp] theorem State.store_glog (s : State) (a : Nat) (bs : Bytes) : (s.store a bs).glog = s.glog := rfl
@[simp] theorem State.store_lanesQd (s : State) (a : Nat) (bs : Bytes) : (s.store a bs).lanesQd = s.lanesQd := rfl
@[simp] theorem State.store_lockAt (s : State) (a : Nat) (bs : Bytes) : (s.store a bs).lockAt = s.lockAt := rfl
@[simp] theorem State.store_nonce (s : State) (a : Nat) (bs : Bytes) : (s.store a bs).nonce = s.nonce := rfl
@[simp] theorem State.store_token (s : State) (a : Nat) (bs : Bytes) : (s.store a bs).token = s.token := rfl
@[simp] theorem State.store_fuseOps (s : State) (a : Nat) (bs : Bytes) : (s.store a bs).fuseOps = s.fuseOps := rfl
@[simp] theorem State.store_outbox (s : State) (a : Nat) (bs : Bytes) : (s.store a bs).outbox = s.outbox := rfl
@[simp] theorem State.store_bus (s : State) (a : Nat) (bs : Bytes) : (s.store a bs).bus = s.bus := rfl

/-! ### storeN -/

@[simp] theorem State.storeN_pending (s : State) (a n v : Nat) : (s.storeN a n v).pending = s.pending := rfl
@[simp] theorem State.storeN_free (s : State) (a n v : Nat) : (s.storeN a n v).free = s.free := rfl
@[simp] theorem State.storeN_island (s : State) (a n v : Nat) : (s.storeN a n v).island = s.island := rfl
@[simp] theorem State.storeN_ctl (s : State) (a n v : Nat) : (s.storeN a n v).ctl = s.ctl := rfl
@[simp] theorem State.storeN_fuses (s : State) (a n v : Nat) : (s.storeN a n v).fuses = s.fuses := rfl
@[simp] theorem State.storeN_straps (s : State) (a n v : Nat) : (s.storeN a n v).straps = s.straps := rfl
@[simp] theorem State.storeN_tbase (s : State) (a n v : Nat) : (s.storeN a n v).tbase = s.tbase := rfl
@[simp] theorem State.storeN_hold (s : State) (a n v : Nat) : (s.storeN a n v).hold = s.hold := rfl
@[simp] theorem State.storeN_regs (s : State) (a n v : Nat) : (s.storeN a n v).regs = s.regs := rfl
@[simp] theorem State.storeN_tgs (s : State) (a n v : Nat) : (s.storeN a n v).tgs = s.tgs := rfl
@[simp] theorem State.storeN_flows (s : State) (a n v : Nat) : (s.storeN a n v).flows = s.flows := rfl
@[simp] theorem State.storeN_ctxs (s : State) (a n v : Nat) : (s.storeN a n v).ctxs = s.ctxs := rfl
@[simp] theorem State.storeN_egress (s : State) (a n v : Nat) : (s.storeN a n v).egress = s.egress := rfl
@[simp] theorem State.storeN_follows (s : State) (a n v : Nat) : (s.storeN a n v).follows = s.follows := rfl
@[simp] theorem State.storeN_ipp (s : State) (a n v : Nat) : (s.storeN a n v).ipp = s.ipp := rfl
@[simp] theorem State.storeN_encs (s : State) (a n v : Nat) : (s.storeN a n v).encs = s.encs := rfl
@[simp] theorem State.storeN_surfs (s : State) (a n v : Nat) : (s.storeN a n v).surfs = s.surfs := rfl
@[simp] theorem State.storeN_ledger (s : State) (a n v : Nat) : (s.storeN a n v).ledger = s.ledger := rfl
@[simp] theorem State.storeN_records (s : State) (a n v : Nat) : (s.storeN a n v).records = s.records := rfl
@[simp] theorem State.storeN_layers (s : State) (a n v : Nat) : (s.storeN a n v).layers = s.layers := rfl
@[simp] theorem State.storeN_heads (s : State) (a n v : Nat) : (s.storeN a n v).heads = s.heads := rfl
@[simp] theorem State.storeN_seals (s : State) (a n v : Nat) : (s.storeN a n v).seals = s.seals := rfl
@[simp] theorem State.storeN_commits (s : State) (a n v : Nat) : (s.storeN a n v).commits = s.commits := rfl
@[simp] theorem State.storeN_sweepMs (s : State) (a n v : Nat) : (s.storeN a n v).sweepMs = s.sweepMs := rfl
@[simp] theorem State.storeN_sweepAt (s : State) (a n v : Nat) : (s.storeN a n v).sweepAt = s.sweepAt := rfl
@[simp] theorem State.storeN_sweepNext (s : State) (a n v : Nat) : (s.storeN a n v).sweepNext = s.sweepNext := rfl
@[simp] theorem State.storeN_snaps (s : State) (a n v : Nat) : (s.storeN a n v).snaps = s.snaps := rfl
@[simp] theorem State.storeN_touch (s : State) (a n v : Nat) : (s.storeN a n v).touch = s.touch := rfl
@[simp] theorem State.storeN_parts (s : State) (a n v : Nat) : (s.storeN a n v).parts = s.parts := rfl
@[simp] theorem State.storeN_jobs (s : State) (a n v : Nat) : (s.storeN a n v).jobs = s.jobs := rfl
@[simp] theorem State.storeN_nextJob (s : State) (a n v : Nat) : (s.storeN a n v).nextJob = s.nextJob := rfl
@[simp] theorem State.storeN_nextFetch (s : State) (a n v : Nat) : (s.storeN a n v).nextFetch = s.nextFetch := rfl
@[simp] theorem State.storeN_cpls (s : State) (a n v : Nat) : (s.storeN a n v).cpls = s.cpls := rfl
@[simp] theorem State.storeN_srcs (s : State) (a n v : Nat) : (s.storeN a n v).srcs = s.srcs := rfl
@[simp] theorem State.storeN_desks (s : State) (a n v : Nat) : (s.storeN a n v).desks = s.desks := rfl
@[simp] theorem State.storeN_evcStop (s : State) (a n v : Nat) : (s.storeN a n v).evcStop = s.evcStop := rfl
@[simp] theorem State.storeN_chain (s : State) (a n v : Nat) : (s.storeN a n v).chain = s.chain := rfl
@[simp] theorem State.storeN_rdn (s : State) (a n v : Nat) : (s.storeN a n v).rdn = s.rdn := rfl
@[simp] theorem State.storeN_dce (s : State) (a n v : Nat) : (s.storeN a n v).dce = s.dce := rfl
@[simp] theorem State.storeN_bands (s : State) (a n v : Nat) : (s.storeN a n v).bands = s.bands := rfl
@[simp] theorem State.storeN_ckptWait (s : State) (a n v : Nat) : (s.storeN a n v).ckptWait = s.ckptWait := rfl
@[simp] theorem State.storeN_crcu (s : State) (a n v : Nat) : (s.storeN a n v).crcu = s.crcu := rfl
@[simp] theorem State.storeN_pwr (s : State) (a n v : Nat) : (s.storeN a n v).pwr = s.pwr := rfl
@[simp] theorem State.storeN_drains (s : State) (a n v : Nat) : (s.storeN a n v).drains = s.drains := rfl
@[simp] theorem State.storeN_heldAcc (s : State) (a n v : Nat) : (s.storeN a n v).heldAcc = s.heldAcc := rfl
@[simp] theorem State.storeN_quiets (s : State) (a n v : Nat) : (s.storeN a n v).quiets = s.quiets := rfl
@[simp] theorem State.storeN_glog (s : State) (a n v : Nat) : (s.storeN a n v).glog = s.glog := rfl
@[simp] theorem State.storeN_lanesQd (s : State) (a n v : Nat) : (s.storeN a n v).lanesQd = s.lanesQd := rfl
@[simp] theorem State.storeN_lockAt (s : State) (a n v : Nat) : (s.storeN a n v).lockAt = s.lockAt := rfl
@[simp] theorem State.storeN_nonce (s : State) (a n v : Nat) : (s.storeN a n v).nonce = s.nonce := rfl
@[simp] theorem State.storeN_token (s : State) (a n v : Nat) : (s.storeN a n v).token = s.token := rfl
@[simp] theorem State.storeN_fuseOps (s : State) (a n v : Nat) : (s.storeN a n v).fuseOps = s.fuseOps := rfl
@[simp] theorem State.storeN_outbox (s : State) (a n v : Nat) : (s.storeN a n v).outbox = s.outbox := rfl
@[simp] theorem State.storeN_bus (s : State) (a n v : Nat) : (s.storeN a n v).bus = s.bus := rfl

/-! ### forget -/

@[simp] theorem State.forget_pending (s : State) (a n : Nat) : (s.forget a n).pending = s.pending := rfl
@[simp] theorem State.forget_free (s : State) (a n : Nat) : (s.forget a n).free = s.free := rfl
@[simp] theorem State.forget_island (s : State) (a n : Nat) : (s.forget a n).island = s.island := rfl
@[simp] theorem State.forget_ctl (s : State) (a n : Nat) : (s.forget a n).ctl = s.ctl := rfl
@[simp] theorem State.forget_fuses (s : State) (a n : Nat) : (s.forget a n).fuses = s.fuses := rfl
@[simp] theorem State.forget_straps (s : State) (a n : Nat) : (s.forget a n).straps = s.straps := rfl
@[simp] theorem State.forget_tbase (s : State) (a n : Nat) : (s.forget a n).tbase = s.tbase := rfl
@[simp] theorem State.forget_hold (s : State) (a n : Nat) : (s.forget a n).hold = s.hold := rfl
@[simp] theorem State.forget_regs (s : State) (a n : Nat) : (s.forget a n).regs = s.regs := rfl
@[simp] theorem State.forget_mem (s : State) (a n : Nat) : (s.forget a n).mem = s.mem.filter fun c => decide (c.1 < a) || decide (a + n ≤ c.1) := rfl
@[simp] theorem State.forget_tgs (s : State) (a n : Nat) : (s.forget a n).tgs = s.tgs := rfl
@[simp] theorem State.forget_flows (s : State) (a n : Nat) : (s.forget a n).flows = s.flows := rfl
@[simp] theorem State.forget_ctxs (s : State) (a n : Nat) : (s.forget a n).ctxs = s.ctxs := rfl
@[simp] theorem State.forget_egress (s : State) (a n : Nat) : (s.forget a n).egress = s.egress := rfl
@[simp] theorem State.forget_follows (s : State) (a n : Nat) : (s.forget a n).follows = s.follows := rfl
@[simp] theorem State.forget_ipp (s : State) (a n : Nat) : (s.forget a n).ipp = s.ipp := rfl
@[simp] theorem State.forget_encs (s : State) (a n : Nat) : (s.forget a n).encs = s.encs := rfl
@[simp] theorem State.forget_surfs (s : State) (a n : Nat) : (s.forget a n).surfs = s.surfs := rfl
@[simp] theorem State.forget_ledger (s : State) (a n : Nat) : (s.forget a n).ledger = s.ledger := rfl
@[simp] theorem State.forget_records (s : State) (a n : Nat) : (s.forget a n).records = s.records := rfl
@[simp] theorem State.forget_layers (s : State) (a n : Nat) : (s.forget a n).layers = s.layers := rfl
@[simp] theorem State.forget_heads (s : State) (a n : Nat) : (s.forget a n).heads = s.heads := rfl
@[simp] theorem State.forget_seals (s : State) (a n : Nat) : (s.forget a n).seals = s.seals := rfl
@[simp] theorem State.forget_commits (s : State) (a n : Nat) : (s.forget a n).commits = s.commits := rfl
@[simp] theorem State.forget_sweepMs (s : State) (a n : Nat) : (s.forget a n).sweepMs = s.sweepMs := rfl
@[simp] theorem State.forget_sweepAt (s : State) (a n : Nat) : (s.forget a n).sweepAt = s.sweepAt := rfl
@[simp] theorem State.forget_sweepNext (s : State) (a n : Nat) : (s.forget a n).sweepNext = s.sweepNext := rfl
@[simp] theorem State.forget_snaps (s : State) (a n : Nat) : (s.forget a n).snaps = s.snaps := rfl
@[simp] theorem State.forget_touch (s : State) (a n : Nat) : (s.forget a n).touch = s.touch := rfl
@[simp] theorem State.forget_parts (s : State) (a n : Nat) : (s.forget a n).parts = s.parts := rfl
@[simp] theorem State.forget_jobs (s : State) (a n : Nat) : (s.forget a n).jobs = s.jobs := rfl
@[simp] theorem State.forget_nextJob (s : State) (a n : Nat) : (s.forget a n).nextJob = s.nextJob := rfl
@[simp] theorem State.forget_nextFetch (s : State) (a n : Nat) : (s.forget a n).nextFetch = s.nextFetch := rfl
@[simp] theorem State.forget_cpls (s : State) (a n : Nat) : (s.forget a n).cpls = s.cpls := rfl
@[simp] theorem State.forget_srcs (s : State) (a n : Nat) : (s.forget a n).srcs = s.srcs := rfl
@[simp] theorem State.forget_desks (s : State) (a n : Nat) : (s.forget a n).desks = s.desks := rfl
@[simp] theorem State.forget_evcStop (s : State) (a n : Nat) : (s.forget a n).evcStop = s.evcStop := rfl
@[simp] theorem State.forget_chain (s : State) (a n : Nat) : (s.forget a n).chain = s.chain := rfl
@[simp] theorem State.forget_rdn (s : State) (a n : Nat) : (s.forget a n).rdn = s.rdn := rfl
@[simp] theorem State.forget_dce (s : State) (a n : Nat) : (s.forget a n).dce = s.dce := rfl
@[simp] theorem State.forget_bands (s : State) (a n : Nat) : (s.forget a n).bands = s.bands := rfl
@[simp] theorem State.forget_ckptWait (s : State) (a n : Nat) : (s.forget a n).ckptWait = s.ckptWait := rfl
@[simp] theorem State.forget_crcu (s : State) (a n : Nat) : (s.forget a n).crcu = s.crcu := rfl
@[simp] theorem State.forget_pwr (s : State) (a n : Nat) : (s.forget a n).pwr = s.pwr := rfl
@[simp] theorem State.forget_drains (s : State) (a n : Nat) : (s.forget a n).drains = s.drains := rfl
@[simp] theorem State.forget_heldAcc (s : State) (a n : Nat) : (s.forget a n).heldAcc = s.heldAcc := rfl
@[simp] theorem State.forget_quiets (s : State) (a n : Nat) : (s.forget a n).quiets = s.quiets := rfl
@[simp] theorem State.forget_glog (s : State) (a n : Nat) : (s.forget a n).glog = s.glog := rfl
@[simp] theorem State.forget_lanesQd (s : State) (a n : Nat) : (s.forget a n).lanesQd = s.lanesQd := rfl
@[simp] theorem State.forget_lockAt (s : State) (a n : Nat) : (s.forget a n).lockAt = s.lockAt := rfl
@[simp] theorem State.forget_nonce (s : State) (a n : Nat) : (s.forget a n).nonce = s.nonce := rfl
@[simp] theorem State.forget_token (s : State) (a n : Nat) : (s.forget a n).token = s.token := rfl
@[simp] theorem State.forget_fuseOps (s : State) (a n : Nat) : (s.forget a n).fuseOps = s.fuseOps := rfl
@[simp] theorem State.forget_outbox (s : State) (a n : Nat) : (s.forget a n).outbox = s.outbox := rfl
@[simp] theorem State.forget_bus (s : State) (a n : Nat) : (s.forget a n).bus = s.bus := rfl

/-! ### setTg -/

@[simp] theorem State.setTg_pending (s : State) (g : Nat) (v : TGroup) : (s.setTg g v).pending = s.pending := rfl
@[simp] theorem State.setTg_free (s : State) (g : Nat) (v : TGroup) : (s.setTg g v).free = s.free := rfl
@[simp] theorem State.setTg_island (s : State) (g : Nat) (v : TGroup) : (s.setTg g v).island = s.island := rfl
@[simp] theorem State.setTg_ctl (s : State) (g : Nat) (v : TGroup) : (s.setTg g v).ctl = s.ctl := rfl
@[simp] theorem State.setTg_fuses (s : State) (g : Nat) (v : TGroup) : (s.setTg g v).fuses = s.fuses := rfl
@[simp] theorem State.setTg_straps (s : State) (g : Nat) (v : TGroup) : (s.setTg g v).straps = s.straps := rfl
@[simp] theorem State.setTg_tbase (s : State) (g : Nat) (v : TGroup) : (s.setTg g v).tbase = s.tbase := rfl
@[simp] theorem State.setTg_hold (s : State) (g : Nat) (v : TGroup) : (s.setTg g v).hold = s.hold := rfl
@[simp] theorem State.setTg_regs (s : State) (g : Nat) (v : TGroup) : (s.setTg g v).regs = s.regs := rfl
@[simp] theorem State.setTg_mem (s : State) (g : Nat) (v : TGroup) : (s.setTg g v).mem = s.mem := rfl
@[simp] theorem State.setTg_tgs (s : State) (g : Nat) (v : TGroup) : (s.setTg g v).tgs = tset (fun _ => {}) s.tgs g v := rfl
@[simp] theorem State.setTg_flows (s : State) (g : Nat) (v : TGroup) : (s.setTg g v).flows = s.flows := rfl
@[simp] theorem State.setTg_ctxs (s : State) (g : Nat) (v : TGroup) : (s.setTg g v).ctxs = s.ctxs := rfl
@[simp] theorem State.setTg_egress (s : State) (g : Nat) (v : TGroup) : (s.setTg g v).egress = s.egress := rfl
@[simp] theorem State.setTg_follows (s : State) (g : Nat) (v : TGroup) : (s.setTg g v).follows = s.follows := rfl
@[simp] theorem State.setTg_ipp (s : State) (g : Nat) (v : TGroup) : (s.setTg g v).ipp = s.ipp := rfl
@[simp] theorem State.setTg_encs (s : State) (g : Nat) (v : TGroup) : (s.setTg g v).encs = s.encs := rfl
@[simp] theorem State.setTg_surfs (s : State) (g : Nat) (v : TGroup) : (s.setTg g v).surfs = s.surfs := rfl
@[simp] theorem State.setTg_ledger (s : State) (g : Nat) (v : TGroup) : (s.setTg g v).ledger = s.ledger := rfl
@[simp] theorem State.setTg_records (s : State) (g : Nat) (v : TGroup) : (s.setTg g v).records = s.records := rfl
@[simp] theorem State.setTg_layers (s : State) (g : Nat) (v : TGroup) : (s.setTg g v).layers = s.layers := rfl
@[simp] theorem State.setTg_heads (s : State) (g : Nat) (v : TGroup) : (s.setTg g v).heads = s.heads := rfl
@[simp] theorem State.setTg_seals (s : State) (g : Nat) (v : TGroup) : (s.setTg g v).seals = s.seals := rfl
@[simp] theorem State.setTg_commits (s : State) (g : Nat) (v : TGroup) : (s.setTg g v).commits = s.commits := rfl
@[simp] theorem State.setTg_sweepMs (s : State) (g : Nat) (v : TGroup) : (s.setTg g v).sweepMs = s.sweepMs := rfl
@[simp] theorem State.setTg_sweepAt (s : State) (g : Nat) (v : TGroup) : (s.setTg g v).sweepAt = s.sweepAt := rfl
@[simp] theorem State.setTg_sweepNext (s : State) (g : Nat) (v : TGroup) : (s.setTg g v).sweepNext = s.sweepNext := rfl
@[simp] theorem State.setTg_snaps (s : State) (g : Nat) (v : TGroup) : (s.setTg g v).snaps = s.snaps := rfl
@[simp] theorem State.setTg_touch (s : State) (g : Nat) (v : TGroup) : (s.setTg g v).touch = s.touch := rfl
@[simp] theorem State.setTg_parts (s : State) (g : Nat) (v : TGroup) : (s.setTg g v).parts = s.parts := rfl
@[simp] theorem State.setTg_jobs (s : State) (g : Nat) (v : TGroup) : (s.setTg g v).jobs = s.jobs := rfl
@[simp] theorem State.setTg_nextJob (s : State) (g : Nat) (v : TGroup) : (s.setTg g v).nextJob = s.nextJob := rfl
@[simp] theorem State.setTg_nextFetch (s : State) (g : Nat) (v : TGroup) : (s.setTg g v).nextFetch = s.nextFetch := rfl
@[simp] theorem State.setTg_cpls (s : State) (g : Nat) (v : TGroup) : (s.setTg g v).cpls = s.cpls := rfl
@[simp] theorem State.setTg_srcs (s : State) (g : Nat) (v : TGroup) : (s.setTg g v).srcs = s.srcs := rfl
@[simp] theorem State.setTg_desks (s : State) (g : Nat) (v : TGroup) : (s.setTg g v).desks = s.desks := rfl
@[simp] theorem State.setTg_evcStop (s : State) (g : Nat) (v : TGroup) : (s.setTg g v).evcStop = s.evcStop := rfl
@[simp] theorem State.setTg_chain (s : State) (g : Nat) (v : TGroup) : (s.setTg g v).chain = s.chain := rfl
@[simp] theorem State.setTg_rdn (s : State) (g : Nat) (v : TGroup) : (s.setTg g v).rdn = s.rdn := rfl
@[simp] theorem State.setTg_dce (s : State) (g : Nat) (v : TGroup) : (s.setTg g v).dce = s.dce := rfl
@[simp] theorem State.setTg_bands (s : State) (g : Nat) (v : TGroup) : (s.setTg g v).bands = s.bands := rfl
@[simp] theorem State.setTg_ckptWait (s : State) (g : Nat) (v : TGroup) : (s.setTg g v).ckptWait = s.ckptWait := rfl
@[simp] theorem State.setTg_crcu (s : State) (g : Nat) (v : TGroup) : (s.setTg g v).crcu = s.crcu := rfl
@[simp] theorem State.setTg_pwr (s : State) (g : Nat) (v : TGroup) : (s.setTg g v).pwr = s.pwr := rfl
@[simp] theorem State.setTg_drains (s : State) (g : Nat) (v : TGroup) : (s.setTg g v).drains = s.drains := rfl
@[simp] theorem State.setTg_heldAcc (s : State) (g : Nat) (v : TGroup) : (s.setTg g v).heldAcc = s.heldAcc := rfl
@[simp] theorem State.setTg_quiets (s : State) (g : Nat) (v : TGroup) : (s.setTg g v).quiets = s.quiets := rfl
@[simp] theorem State.setTg_glog (s : State) (g : Nat) (v : TGroup) : (s.setTg g v).glog = s.glog := rfl
@[simp] theorem State.setTg_lanesQd (s : State) (g : Nat) (v : TGroup) : (s.setTg g v).lanesQd = s.lanesQd := rfl
@[simp] theorem State.setTg_lockAt (s : State) (g : Nat) (v : TGroup) : (s.setTg g v).lockAt = s.lockAt := rfl
@[simp] theorem State.setTg_nonce (s : State) (g : Nat) (v : TGroup) : (s.setTg g v).nonce = s.nonce := rfl
@[simp] theorem State.setTg_token (s : State) (g : Nat) (v : TGroup) : (s.setTg g v).token = s.token := rfl
@[simp] theorem State.setTg_fuseOps (s : State) (g : Nat) (v : TGroup) : (s.setTg g v).fuseOps = s.fuseOps := rfl
@[simp] theorem State.setTg_outbox (s : State) (g : Nat) (v : TGroup) : (s.setTg g v).outbox = s.outbox := rfl
@[simp] theorem State.setTg_bus (s : State) (g : Nat) (v : TGroup) : (s.setTg g v).bus = s.bus := rfl

/-! ### setFlow -/

@[simp] theorem State.setFlow_pending (s : State) (f : Nat) (v : Flow) : (s.setFlow f v).pending = s.pending := rfl
@[simp] theorem State.setFlow_free (s : State) (f : Nat) (v : Flow) : (s.setFlow f v).free = s.free := rfl
@[simp] theorem State.setFlow_island (s : State) (f : Nat) (v : Flow) : (s.setFlow f v).island = s.island := rfl
@[simp] theorem State.setFlow_ctl (s : State) (f : Nat) (v : Flow) : (s.setFlow f v).ctl = s.ctl := rfl
@[simp] theorem State.setFlow_fuses (s : State) (f : Nat) (v : Flow) : (s.setFlow f v).fuses = s.fuses := rfl
@[simp] theorem State.setFlow_straps (s : State) (f : Nat) (v : Flow) : (s.setFlow f v).straps = s.straps := rfl
@[simp] theorem State.setFlow_tbase (s : State) (f : Nat) (v : Flow) : (s.setFlow f v).tbase = s.tbase := rfl
@[simp] theorem State.setFlow_hold (s : State) (f : Nat) (v : Flow) : (s.setFlow f v).hold = s.hold := rfl
@[simp] theorem State.setFlow_regs (s : State) (f : Nat) (v : Flow) : (s.setFlow f v).regs = s.regs := rfl
@[simp] theorem State.setFlow_mem (s : State) (f : Nat) (v : Flow) : (s.setFlow f v).mem = s.mem := rfl
@[simp] theorem State.setFlow_tgs (s : State) (f : Nat) (v : Flow) : (s.setFlow f v).tgs = s.tgs := rfl
@[simp] theorem State.setFlow_flows (s : State) (f : Nat) (v : Flow) : (s.setFlow f v).flows = tset (fun _ => {}) s.flows f v := rfl
@[simp] theorem State.setFlow_ctxs (s : State) (f : Nat) (v : Flow) : (s.setFlow f v).ctxs = s.ctxs := rfl
@[simp] theorem State.setFlow_egress (s : State) (f : Nat) (v : Flow) : (s.setFlow f v).egress = s.egress := rfl
@[simp] theorem State.setFlow_follows (s : State) (f : Nat) (v : Flow) : (s.setFlow f v).follows = s.follows := rfl
@[simp] theorem State.setFlow_ipp (s : State) (f : Nat) (v : Flow) : (s.setFlow f v).ipp = s.ipp := rfl
@[simp] theorem State.setFlow_encs (s : State) (f : Nat) (v : Flow) : (s.setFlow f v).encs = s.encs := rfl
@[simp] theorem State.setFlow_surfs (s : State) (f : Nat) (v : Flow) : (s.setFlow f v).surfs = s.surfs := rfl
@[simp] theorem State.setFlow_ledger (s : State) (f : Nat) (v : Flow) : (s.setFlow f v).ledger = s.ledger := rfl
@[simp] theorem State.setFlow_records (s : State) (f : Nat) (v : Flow) : (s.setFlow f v).records = s.records := rfl
@[simp] theorem State.setFlow_layers (s : State) (f : Nat) (v : Flow) : (s.setFlow f v).layers = s.layers := rfl
@[simp] theorem State.setFlow_heads (s : State) (f : Nat) (v : Flow) : (s.setFlow f v).heads = s.heads := rfl
@[simp] theorem State.setFlow_seals (s : State) (f : Nat) (v : Flow) : (s.setFlow f v).seals = s.seals := rfl
@[simp] theorem State.setFlow_commits (s : State) (f : Nat) (v : Flow) : (s.setFlow f v).commits = s.commits := rfl
@[simp] theorem State.setFlow_sweepMs (s : State) (f : Nat) (v : Flow) : (s.setFlow f v).sweepMs = s.sweepMs := rfl
@[simp] theorem State.setFlow_sweepAt (s : State) (f : Nat) (v : Flow) : (s.setFlow f v).sweepAt = s.sweepAt := rfl
@[simp] theorem State.setFlow_sweepNext (s : State) (f : Nat) (v : Flow) : (s.setFlow f v).sweepNext = s.sweepNext := rfl
@[simp] theorem State.setFlow_snaps (s : State) (f : Nat) (v : Flow) : (s.setFlow f v).snaps = s.snaps := rfl
@[simp] theorem State.setFlow_touch (s : State) (f : Nat) (v : Flow) : (s.setFlow f v).touch = s.touch := rfl
@[simp] theorem State.setFlow_parts (s : State) (f : Nat) (v : Flow) : (s.setFlow f v).parts = s.parts := rfl
@[simp] theorem State.setFlow_jobs (s : State) (f : Nat) (v : Flow) : (s.setFlow f v).jobs = s.jobs := rfl
@[simp] theorem State.setFlow_nextJob (s : State) (f : Nat) (v : Flow) : (s.setFlow f v).nextJob = s.nextJob := rfl
@[simp] theorem State.setFlow_nextFetch (s : State) (f : Nat) (v : Flow) : (s.setFlow f v).nextFetch = s.nextFetch := rfl
@[simp] theorem State.setFlow_cpls (s : State) (f : Nat) (v : Flow) : (s.setFlow f v).cpls = s.cpls := rfl
@[simp] theorem State.setFlow_srcs (s : State) (f : Nat) (v : Flow) : (s.setFlow f v).srcs = s.srcs := rfl
@[simp] theorem State.setFlow_desks (s : State) (f : Nat) (v : Flow) : (s.setFlow f v).desks = s.desks := rfl
@[simp] theorem State.setFlow_evcStop (s : State) (f : Nat) (v : Flow) : (s.setFlow f v).evcStop = s.evcStop := rfl
@[simp] theorem State.setFlow_chain (s : State) (f : Nat) (v : Flow) : (s.setFlow f v).chain = s.chain := rfl
@[simp] theorem State.setFlow_rdn (s : State) (f : Nat) (v : Flow) : (s.setFlow f v).rdn = s.rdn := rfl
@[simp] theorem State.setFlow_dce (s : State) (f : Nat) (v : Flow) : (s.setFlow f v).dce = s.dce := rfl
@[simp] theorem State.setFlow_bands (s : State) (f : Nat) (v : Flow) : (s.setFlow f v).bands = s.bands := rfl
@[simp] theorem State.setFlow_ckptWait (s : State) (f : Nat) (v : Flow) : (s.setFlow f v).ckptWait = s.ckptWait := rfl
@[simp] theorem State.setFlow_crcu (s : State) (f : Nat) (v : Flow) : (s.setFlow f v).crcu = s.crcu := rfl
@[simp] theorem State.setFlow_pwr (s : State) (f : Nat) (v : Flow) : (s.setFlow f v).pwr = s.pwr := rfl
@[simp] theorem State.setFlow_drains (s : State) (f : Nat) (v : Flow) : (s.setFlow f v).drains = s.drains := rfl
@[simp] theorem State.setFlow_heldAcc (s : State) (f : Nat) (v : Flow) : (s.setFlow f v).heldAcc = s.heldAcc := rfl
@[simp] theorem State.setFlow_quiets (s : State) (f : Nat) (v : Flow) : (s.setFlow f v).quiets = s.quiets := rfl
@[simp] theorem State.setFlow_glog (s : State) (f : Nat) (v : Flow) : (s.setFlow f v).glog = s.glog := rfl
@[simp] theorem State.setFlow_lanesQd (s : State) (f : Nat) (v : Flow) : (s.setFlow f v).lanesQd = s.lanesQd := rfl
@[simp] theorem State.setFlow_lockAt (s : State) (f : Nat) (v : Flow) : (s.setFlow f v).lockAt = s.lockAt := rfl
@[simp] theorem State.setFlow_nonce (s : State) (f : Nat) (v : Flow) : (s.setFlow f v).nonce = s.nonce := rfl
@[simp] theorem State.setFlow_token (s : State) (f : Nat) (v : Flow) : (s.setFlow f v).token = s.token := rfl
@[simp] theorem State.setFlow_fuseOps (s : State) (f : Nat) (v : Flow) : (s.setFlow f v).fuseOps = s.fuseOps := rfl
@[simp] theorem State.setFlow_outbox (s : State) (f : Nat) (v : Flow) : (s.setFlow f v).outbox = s.outbox := rfl
@[simp] theorem State.setFlow_bus (s : State) (f : Nat) (v : Flow) : (s.setFlow f v).bus = s.bus := rfl

/-! ### setCtx -/

@[simp] theorem State.setCtx_pending (s : State) (c : Nat) (v : Ctx) : (s.setCtx c v).pending = s.pending := rfl
@[simp] theorem State.setCtx_free (s : State) (c : Nat) (v : Ctx) : (s.setCtx c v).free = s.free := rfl
@[simp] theorem State.setCtx_island (s : State) (c : Nat) (v : Ctx) : (s.setCtx c v).island = s.island := rfl
@[simp] theorem State.setCtx_ctl (s : State) (c : Nat) (v : Ctx) : (s.setCtx c v).ctl = s.ctl := rfl
@[simp] theorem State.setCtx_fuses (s : State) (c : Nat) (v : Ctx) : (s.setCtx c v).fuses = s.fuses := rfl
@[simp] theorem State.setCtx_straps (s : State) (c : Nat) (v : Ctx) : (s.setCtx c v).straps = s.straps := rfl
@[simp] theorem State.setCtx_tbase (s : State) (c : Nat) (v : Ctx) : (s.setCtx c v).tbase = s.tbase := rfl
@[simp] theorem State.setCtx_hold (s : State) (c : Nat) (v : Ctx) : (s.setCtx c v).hold = s.hold := rfl
@[simp] theorem State.setCtx_regs (s : State) (c : Nat) (v : Ctx) : (s.setCtx c v).regs = s.regs := rfl
@[simp] theorem State.setCtx_mem (s : State) (c : Nat) (v : Ctx) : (s.setCtx c v).mem = s.mem := rfl
@[simp] theorem State.setCtx_tgs (s : State) (c : Nat) (v : Ctx) : (s.setCtx c v).tgs = s.tgs := rfl
@[simp] theorem State.setCtx_flows (s : State) (c : Nat) (v : Ctx) : (s.setCtx c v).flows = s.flows := rfl
@[simp] theorem State.setCtx_ctxs (s : State) (c : Nat) (v : Ctx) : (s.setCtx c v).ctxs = tset (fun _ => {}) s.ctxs c v := rfl
@[simp] theorem State.setCtx_egress (s : State) (c : Nat) (v : Ctx) : (s.setCtx c v).egress = s.egress := rfl
@[simp] theorem State.setCtx_follows (s : State) (c : Nat) (v : Ctx) : (s.setCtx c v).follows = s.follows := rfl
@[simp] theorem State.setCtx_ipp (s : State) (c : Nat) (v : Ctx) : (s.setCtx c v).ipp = s.ipp := rfl
@[simp] theorem State.setCtx_encs (s : State) (c : Nat) (v : Ctx) : (s.setCtx c v).encs = s.encs := rfl
@[simp] theorem State.setCtx_surfs (s : State) (c : Nat) (v : Ctx) : (s.setCtx c v).surfs = s.surfs := rfl
@[simp] theorem State.setCtx_ledger (s : State) (c : Nat) (v : Ctx) : (s.setCtx c v).ledger = s.ledger := rfl
@[simp] theorem State.setCtx_records (s : State) (c : Nat) (v : Ctx) : (s.setCtx c v).records = s.records := rfl
@[simp] theorem State.setCtx_layers (s : State) (c : Nat) (v : Ctx) : (s.setCtx c v).layers = s.layers := rfl
@[simp] theorem State.setCtx_heads (s : State) (c : Nat) (v : Ctx) : (s.setCtx c v).heads = s.heads := rfl
@[simp] theorem State.setCtx_seals (s : State) (c : Nat) (v : Ctx) : (s.setCtx c v).seals = s.seals := rfl
@[simp] theorem State.setCtx_commits (s : State) (c : Nat) (v : Ctx) : (s.setCtx c v).commits = s.commits := rfl
@[simp] theorem State.setCtx_sweepMs (s : State) (c : Nat) (v : Ctx) : (s.setCtx c v).sweepMs = s.sweepMs := rfl
@[simp] theorem State.setCtx_sweepAt (s : State) (c : Nat) (v : Ctx) : (s.setCtx c v).sweepAt = s.sweepAt := rfl
@[simp] theorem State.setCtx_sweepNext (s : State) (c : Nat) (v : Ctx) : (s.setCtx c v).sweepNext = s.sweepNext := rfl
@[simp] theorem State.setCtx_snaps (s : State) (c : Nat) (v : Ctx) : (s.setCtx c v).snaps = s.snaps := rfl
@[simp] theorem State.setCtx_touch (s : State) (c : Nat) (v : Ctx) : (s.setCtx c v).touch = s.touch := rfl
@[simp] theorem State.setCtx_parts (s : State) (c : Nat) (v : Ctx) : (s.setCtx c v).parts = s.parts := rfl
@[simp] theorem State.setCtx_jobs (s : State) (c : Nat) (v : Ctx) : (s.setCtx c v).jobs = s.jobs := rfl
@[simp] theorem State.setCtx_nextJob (s : State) (c : Nat) (v : Ctx) : (s.setCtx c v).nextJob = s.nextJob := rfl
@[simp] theorem State.setCtx_nextFetch (s : State) (c : Nat) (v : Ctx) : (s.setCtx c v).nextFetch = s.nextFetch := rfl
@[simp] theorem State.setCtx_cpls (s : State) (c : Nat) (v : Ctx) : (s.setCtx c v).cpls = s.cpls := rfl
@[simp] theorem State.setCtx_srcs (s : State) (c : Nat) (v : Ctx) : (s.setCtx c v).srcs = s.srcs := rfl
@[simp] theorem State.setCtx_desks (s : State) (c : Nat) (v : Ctx) : (s.setCtx c v).desks = s.desks := rfl
@[simp] theorem State.setCtx_evcStop (s : State) (c : Nat) (v : Ctx) : (s.setCtx c v).evcStop = s.evcStop := rfl
@[simp] theorem State.setCtx_chain (s : State) (c : Nat) (v : Ctx) : (s.setCtx c v).chain = s.chain := rfl
@[simp] theorem State.setCtx_rdn (s : State) (c : Nat) (v : Ctx) : (s.setCtx c v).rdn = s.rdn := rfl
@[simp] theorem State.setCtx_dce (s : State) (c : Nat) (v : Ctx) : (s.setCtx c v).dce = s.dce := rfl
@[simp] theorem State.setCtx_bands (s : State) (c : Nat) (v : Ctx) : (s.setCtx c v).bands = s.bands := rfl
@[simp] theorem State.setCtx_ckptWait (s : State) (c : Nat) (v : Ctx) : (s.setCtx c v).ckptWait = s.ckptWait := rfl
@[simp] theorem State.setCtx_crcu (s : State) (c : Nat) (v : Ctx) : (s.setCtx c v).crcu = s.crcu := rfl
@[simp] theorem State.setCtx_pwr (s : State) (c : Nat) (v : Ctx) : (s.setCtx c v).pwr = s.pwr := rfl
@[simp] theorem State.setCtx_drains (s : State) (c : Nat) (v : Ctx) : (s.setCtx c v).drains = s.drains := rfl
@[simp] theorem State.setCtx_heldAcc (s : State) (c : Nat) (v : Ctx) : (s.setCtx c v).heldAcc = s.heldAcc := rfl
@[simp] theorem State.setCtx_quiets (s : State) (c : Nat) (v : Ctx) : (s.setCtx c v).quiets = s.quiets := rfl
@[simp] theorem State.setCtx_glog (s : State) (c : Nat) (v : Ctx) : (s.setCtx c v).glog = s.glog := rfl
@[simp] theorem State.setCtx_lanesQd (s : State) (c : Nat) (v : Ctx) : (s.setCtx c v).lanesQd = s.lanesQd := rfl
@[simp] theorem State.setCtx_lockAt (s : State) (c : Nat) (v : Ctx) : (s.setCtx c v).lockAt = s.lockAt := rfl
@[simp] theorem State.setCtx_nonce (s : State) (c : Nat) (v : Ctx) : (s.setCtx c v).nonce = s.nonce := rfl
@[simp] theorem State.setCtx_token (s : State) (c : Nat) (v : Ctx) : (s.setCtx c v).token = s.token := rfl
@[simp] theorem State.setCtx_fuseOps (s : State) (c : Nat) (v : Ctx) : (s.setCtx c v).fuseOps = s.fuseOps := rfl
@[simp] theorem State.setCtx_outbox (s : State) (c : Nat) (v : Ctx) : (s.setCtx c v).outbox = s.outbox := rfl
@[simp] theorem State.setCtx_bus (s : State) (c : Nat) (v : Ctx) : (s.setCtx c v).bus = s.bus := rfl

/-! ### setEgr -/

@[simp] theorem State.setEgr_pending (s : State) (e : Nat) (v : Egress) : (s.setEgr e v).pending = s.pending := rfl
@[simp] theorem State.setEgr_free (s : State) (e : Nat) (v : Egress) : (s.setEgr e v).free = s.free := rfl
@[simp] theorem State.setEgr_island (s : State) (e : Nat) (v : Egress) : (s.setEgr e v).island = s.island := rfl
@[simp] theorem State.setEgr_ctl (s : State) (e : Nat) (v : Egress) : (s.setEgr e v).ctl = s.ctl := rfl
@[simp] theorem State.setEgr_fuses (s : State) (e : Nat) (v : Egress) : (s.setEgr e v).fuses = s.fuses := rfl
@[simp] theorem State.setEgr_straps (s : State) (e : Nat) (v : Egress) : (s.setEgr e v).straps = s.straps := rfl
@[simp] theorem State.setEgr_tbase (s : State) (e : Nat) (v : Egress) : (s.setEgr e v).tbase = s.tbase := rfl
@[simp] theorem State.setEgr_hold (s : State) (e : Nat) (v : Egress) : (s.setEgr e v).hold = s.hold := rfl
@[simp] theorem State.setEgr_regs (s : State) (e : Nat) (v : Egress) : (s.setEgr e v).regs = s.regs := rfl
@[simp] theorem State.setEgr_mem (s : State) (e : Nat) (v : Egress) : (s.setEgr e v).mem = s.mem := rfl
@[simp] theorem State.setEgr_tgs (s : State) (e : Nat) (v : Egress) : (s.setEgr e v).tgs = s.tgs := rfl
@[simp] theorem State.setEgr_flows (s : State) (e : Nat) (v : Egress) : (s.setEgr e v).flows = s.flows := rfl
@[simp] theorem State.setEgr_ctxs (s : State) (e : Nat) (v : Egress) : (s.setEgr e v).ctxs = s.ctxs := rfl
@[simp] theorem State.setEgr_egress (s : State) (e : Nat) (v : Egress) : (s.setEgr e v).egress = tset (fun _ => {}) s.egress e v := rfl
@[simp] theorem State.setEgr_follows (s : State) (e : Nat) (v : Egress) : (s.setEgr e v).follows = s.follows := rfl
@[simp] theorem State.setEgr_ipp (s : State) (e : Nat) (v : Egress) : (s.setEgr e v).ipp = s.ipp := rfl
@[simp] theorem State.setEgr_encs (s : State) (e : Nat) (v : Egress) : (s.setEgr e v).encs = s.encs := rfl
@[simp] theorem State.setEgr_surfs (s : State) (e : Nat) (v : Egress) : (s.setEgr e v).surfs = s.surfs := rfl
@[simp] theorem State.setEgr_ledger (s : State) (e : Nat) (v : Egress) : (s.setEgr e v).ledger = s.ledger := rfl
@[simp] theorem State.setEgr_records (s : State) (e : Nat) (v : Egress) : (s.setEgr e v).records = s.records := rfl
@[simp] theorem State.setEgr_layers (s : State) (e : Nat) (v : Egress) : (s.setEgr e v).layers = s.layers := rfl
@[simp] theorem State.setEgr_heads (s : State) (e : Nat) (v : Egress) : (s.setEgr e v).heads = s.heads := rfl
@[simp] theorem State.setEgr_seals (s : State) (e : Nat) (v : Egress) : (s.setEgr e v).seals = s.seals := rfl
@[simp] theorem State.setEgr_commits (s : State) (e : Nat) (v : Egress) : (s.setEgr e v).commits = s.commits := rfl
@[simp] theorem State.setEgr_sweepMs (s : State) (e : Nat) (v : Egress) : (s.setEgr e v).sweepMs = s.sweepMs := rfl
@[simp] theorem State.setEgr_sweepAt (s : State) (e : Nat) (v : Egress) : (s.setEgr e v).sweepAt = s.sweepAt := rfl
@[simp] theorem State.setEgr_sweepNext (s : State) (e : Nat) (v : Egress) : (s.setEgr e v).sweepNext = s.sweepNext := rfl
@[simp] theorem State.setEgr_snaps (s : State) (e : Nat) (v : Egress) : (s.setEgr e v).snaps = s.snaps := rfl
@[simp] theorem State.setEgr_touch (s : State) (e : Nat) (v : Egress) : (s.setEgr e v).touch = s.touch := rfl
@[simp] theorem State.setEgr_parts (s : State) (e : Nat) (v : Egress) : (s.setEgr e v).parts = s.parts := rfl
@[simp] theorem State.setEgr_jobs (s : State) (e : Nat) (v : Egress) : (s.setEgr e v).jobs = s.jobs := rfl
@[simp] theorem State.setEgr_nextJob (s : State) (e : Nat) (v : Egress) : (s.setEgr e v).nextJob = s.nextJob := rfl
@[simp] theorem State.setEgr_nextFetch (s : State) (e : Nat) (v : Egress) : (s.setEgr e v).nextFetch = s.nextFetch := rfl
@[simp] theorem State.setEgr_cpls (s : State) (e : Nat) (v : Egress) : (s.setEgr e v).cpls = s.cpls := rfl
@[simp] theorem State.setEgr_srcs (s : State) (e : Nat) (v : Egress) : (s.setEgr e v).srcs = s.srcs := rfl
@[simp] theorem State.setEgr_desks (s : State) (e : Nat) (v : Egress) : (s.setEgr e v).desks = s.desks := rfl
@[simp] theorem State.setEgr_evcStop (s : State) (e : Nat) (v : Egress) : (s.setEgr e v).evcStop = s.evcStop := rfl
@[simp] theorem State.setEgr_chain (s : State) (e : Nat) (v : Egress) : (s.setEgr e v).chain = s.chain := rfl
@[simp] theorem State.setEgr_rdn (s : State) (e : Nat) (v : Egress) : (s.setEgr e v).rdn = s.rdn := rfl
@[simp] theorem State.setEgr_dce (s : State) (e : Nat) (v : Egress) : (s.setEgr e v).dce = s.dce := rfl
@[simp] theorem State.setEgr_bands (s : State) (e : Nat) (v : Egress) : (s.setEgr e v).bands = s.bands := rfl
@[simp] theorem State.setEgr_ckptWait (s : State) (e : Nat) (v : Egress) : (s.setEgr e v).ckptWait = s.ckptWait := rfl
@[simp] theorem State.setEgr_crcu (s : State) (e : Nat) (v : Egress) : (s.setEgr e v).crcu = s.crcu := rfl
@[simp] theorem State.setEgr_pwr (s : State) (e : Nat) (v : Egress) : (s.setEgr e v).pwr = s.pwr := rfl
@[simp] theorem State.setEgr_drains (s : State) (e : Nat) (v : Egress) : (s.setEgr e v).drains = s.drains := rfl
@[simp] theorem State.setEgr_heldAcc (s : State) (e : Nat) (v : Egress) : (s.setEgr e v).heldAcc = s.heldAcc := rfl
@[simp] theorem State.setEgr_quiets (s : State) (e : Nat) (v : Egress) : (s.setEgr e v).quiets = s.quiets := rfl
@[simp] theorem State.setEgr_glog (s : State) (e : Nat) (v : Egress) : (s.setEgr e v).glog = s.glog := rfl
@[simp] theorem State.setEgr_lanesQd (s : State) (e : Nat) (v : Egress) : (s.setEgr e v).lanesQd = s.lanesQd := rfl
@[simp] theorem State.setEgr_lockAt (s : State) (e : Nat) (v : Egress) : (s.setEgr e v).lockAt = s.lockAt := rfl
@[simp] theorem State.setEgr_nonce (s : State) (e : Nat) (v : Egress) : (s.setEgr e v).nonce = s.nonce := rfl
@[simp] theorem State.setEgr_token (s : State) (e : Nat) (v : Egress) : (s.setEgr e v).token = s.token := rfl
@[simp] theorem State.setEgr_fuseOps (s : State) (e : Nat) (v : Egress) : (s.setEgr e v).fuseOps = s.fuseOps := rfl
@[simp] theorem State.setEgr_outbox (s : State) (e : Nat) (v : Egress) : (s.setEgr e v).outbox = s.outbox := rfl
@[simp] theorem State.setEgr_bus (s : State) (e : Nat) (v : Egress) : (s.setEgr e v).bus = s.bus := rfl

/-! ### setFollow -/

@[simp] theorem State.setFollow_pending (s : State) (f : Nat) (v : Follow) : (s.setFollow f v).pending = s.pending := rfl
@[simp] theorem State.setFollow_free (s : State) (f : Nat) (v : Follow) : (s.setFollow f v).free = s.free := rfl
@[simp] theorem State.setFollow_island (s : State) (f : Nat) (v : Follow) : (s.setFollow f v).island = s.island := rfl
@[simp] theorem State.setFollow_ctl (s : State) (f : Nat) (v : Follow) : (s.setFollow f v).ctl = s.ctl := rfl
@[simp] theorem State.setFollow_fuses (s : State) (f : Nat) (v : Follow) : (s.setFollow f v).fuses = s.fuses := rfl
@[simp] theorem State.setFollow_straps (s : State) (f : Nat) (v : Follow) : (s.setFollow f v).straps = s.straps := rfl
@[simp] theorem State.setFollow_tbase (s : State) (f : Nat) (v : Follow) : (s.setFollow f v).tbase = s.tbase := rfl
@[simp] theorem State.setFollow_hold (s : State) (f : Nat) (v : Follow) : (s.setFollow f v).hold = s.hold := rfl
@[simp] theorem State.setFollow_regs (s : State) (f : Nat) (v : Follow) : (s.setFollow f v).regs = s.regs := rfl
@[simp] theorem State.setFollow_mem (s : State) (f : Nat) (v : Follow) : (s.setFollow f v).mem = s.mem := rfl
@[simp] theorem State.setFollow_tgs (s : State) (f : Nat) (v : Follow) : (s.setFollow f v).tgs = s.tgs := rfl
@[simp] theorem State.setFollow_flows (s : State) (f : Nat) (v : Follow) : (s.setFollow f v).flows = s.flows := rfl
@[simp] theorem State.setFollow_ctxs (s : State) (f : Nat) (v : Follow) : (s.setFollow f v).ctxs = s.ctxs := rfl
@[simp] theorem State.setFollow_egress (s : State) (f : Nat) (v : Follow) : (s.setFollow f v).egress = s.egress := rfl
@[simp] theorem State.setFollow_follows (s : State) (f : Nat) (v : Follow) : (s.setFollow f v).follows = tset (fun _ => {}) s.follows f v := rfl
@[simp] theorem State.setFollow_ipp (s : State) (f : Nat) (v : Follow) : (s.setFollow f v).ipp = s.ipp := rfl
@[simp] theorem State.setFollow_encs (s : State) (f : Nat) (v : Follow) : (s.setFollow f v).encs = s.encs := rfl
@[simp] theorem State.setFollow_surfs (s : State) (f : Nat) (v : Follow) : (s.setFollow f v).surfs = s.surfs := rfl
@[simp] theorem State.setFollow_ledger (s : State) (f : Nat) (v : Follow) : (s.setFollow f v).ledger = s.ledger := rfl
@[simp] theorem State.setFollow_records (s : State) (f : Nat) (v : Follow) : (s.setFollow f v).records = s.records := rfl
@[simp] theorem State.setFollow_layers (s : State) (f : Nat) (v : Follow) : (s.setFollow f v).layers = s.layers := rfl
@[simp] theorem State.setFollow_heads (s : State) (f : Nat) (v : Follow) : (s.setFollow f v).heads = s.heads := rfl
@[simp] theorem State.setFollow_seals (s : State) (f : Nat) (v : Follow) : (s.setFollow f v).seals = s.seals := rfl
@[simp] theorem State.setFollow_commits (s : State) (f : Nat) (v : Follow) : (s.setFollow f v).commits = s.commits := rfl
@[simp] theorem State.setFollow_sweepMs (s : State) (f : Nat) (v : Follow) : (s.setFollow f v).sweepMs = s.sweepMs := rfl
@[simp] theorem State.setFollow_sweepAt (s : State) (f : Nat) (v : Follow) : (s.setFollow f v).sweepAt = s.sweepAt := rfl
@[simp] theorem State.setFollow_sweepNext (s : State) (f : Nat) (v : Follow) : (s.setFollow f v).sweepNext = s.sweepNext := rfl
@[simp] theorem State.setFollow_snaps (s : State) (f : Nat) (v : Follow) : (s.setFollow f v).snaps = s.snaps := rfl
@[simp] theorem State.setFollow_touch (s : State) (f : Nat) (v : Follow) : (s.setFollow f v).touch = s.touch := rfl
@[simp] theorem State.setFollow_parts (s : State) (f : Nat) (v : Follow) : (s.setFollow f v).parts = s.parts := rfl
@[simp] theorem State.setFollow_jobs (s : State) (f : Nat) (v : Follow) : (s.setFollow f v).jobs = s.jobs := rfl
@[simp] theorem State.setFollow_nextJob (s : State) (f : Nat) (v : Follow) : (s.setFollow f v).nextJob = s.nextJob := rfl
@[simp] theorem State.setFollow_nextFetch (s : State) (f : Nat) (v : Follow) : (s.setFollow f v).nextFetch = s.nextFetch := rfl
@[simp] theorem State.setFollow_cpls (s : State) (f : Nat) (v : Follow) : (s.setFollow f v).cpls = s.cpls := rfl
@[simp] theorem State.setFollow_srcs (s : State) (f : Nat) (v : Follow) : (s.setFollow f v).srcs = s.srcs := rfl
@[simp] theorem State.setFollow_desks (s : State) (f : Nat) (v : Follow) : (s.setFollow f v).desks = s.desks := rfl
@[simp] theorem State.setFollow_evcStop (s : State) (f : Nat) (v : Follow) : (s.setFollow f v).evcStop = s.evcStop := rfl
@[simp] theorem State.setFollow_chain (s : State) (f : Nat) (v : Follow) : (s.setFollow f v).chain = s.chain := rfl
@[simp] theorem State.setFollow_rdn (s : State) (f : Nat) (v : Follow) : (s.setFollow f v).rdn = s.rdn := rfl
@[simp] theorem State.setFollow_dce (s : State) (f : Nat) (v : Follow) : (s.setFollow f v).dce = s.dce := rfl
@[simp] theorem State.setFollow_bands (s : State) (f : Nat) (v : Follow) : (s.setFollow f v).bands = s.bands := rfl
@[simp] theorem State.setFollow_ckptWait (s : State) (f : Nat) (v : Follow) : (s.setFollow f v).ckptWait = s.ckptWait := rfl
@[simp] theorem State.setFollow_crcu (s : State) (f : Nat) (v : Follow) : (s.setFollow f v).crcu = s.crcu := rfl
@[simp] theorem State.setFollow_pwr (s : State) (f : Nat) (v : Follow) : (s.setFollow f v).pwr = s.pwr := rfl
@[simp] theorem State.setFollow_drains (s : State) (f : Nat) (v : Follow) : (s.setFollow f v).drains = s.drains := rfl
@[simp] theorem State.setFollow_heldAcc (s : State) (f : Nat) (v : Follow) : (s.setFollow f v).heldAcc = s.heldAcc := rfl
@[simp] theorem State.setFollow_quiets (s : State) (f : Nat) (v : Follow) : (s.setFollow f v).quiets = s.quiets := rfl
@[simp] theorem State.setFollow_glog (s : State) (f : Nat) (v : Follow) : (s.setFollow f v).glog = s.glog := rfl
@[simp] theorem State.setFollow_lanesQd (s : State) (f : Nat) (v : Follow) : (s.setFollow f v).lanesQd = s.lanesQd := rfl
@[simp] theorem State.setFollow_lockAt (s : State) (f : Nat) (v : Follow) : (s.setFollow f v).lockAt = s.lockAt := rfl
@[simp] theorem State.setFollow_nonce (s : State) (f : Nat) (v : Follow) : (s.setFollow f v).nonce = s.nonce := rfl
@[simp] theorem State.setFollow_token (s : State) (f : Nat) (v : Follow) : (s.setFollow f v).token = s.token := rfl
@[simp] theorem State.setFollow_fuseOps (s : State) (f : Nat) (v : Follow) : (s.setFollow f v).fuseOps = s.fuseOps := rfl
@[simp] theorem State.setFollow_outbox (s : State) (f : Nat) (v : Follow) : (s.setFollow f v).outbox = s.outbox := rfl
@[simp] theorem State.setFollow_bus (s : State) (f : Nat) (v : Follow) : (s.setFollow f v).bus = s.bus := rfl

/-! ### setIppW -/

@[simp] theorem State.setIppW_pending (s : State) (i : Nat) (v : Option IppWork) : (s.setIppW i v).pending = s.pending := rfl
@[simp] theorem State.setIppW_free (s : State) (i : Nat) (v : Option IppWork) : (s.setIppW i v).free = s.free := rfl
@[simp] theorem State.setIppW_island (s : State) (i : Nat) (v : Option IppWork) : (s.setIppW i v).island = s.island := rfl
@[simp] theorem State.setIppW_ctl (s : State) (i : Nat) (v : Option IppWork) : (s.setIppW i v).ctl = s.ctl := rfl
@[simp] theorem State.setIppW_fuses (s : State) (i : Nat) (v : Option IppWork) : (s.setIppW i v).fuses = s.fuses := rfl
@[simp] theorem State.setIppW_straps (s : State) (i : Nat) (v : Option IppWork) : (s.setIppW i v).straps = s.straps := rfl
@[simp] theorem State.setIppW_tbase (s : State) (i : Nat) (v : Option IppWork) : (s.setIppW i v).tbase = s.tbase := rfl
@[simp] theorem State.setIppW_hold (s : State) (i : Nat) (v : Option IppWork) : (s.setIppW i v).hold = s.hold := rfl
@[simp] theorem State.setIppW_regs (s : State) (i : Nat) (v : Option IppWork) : (s.setIppW i v).regs = s.regs := rfl
@[simp] theorem State.setIppW_mem (s : State) (i : Nat) (v : Option IppWork) : (s.setIppW i v).mem = s.mem := rfl
@[simp] theorem State.setIppW_tgs (s : State) (i : Nat) (v : Option IppWork) : (s.setIppW i v).tgs = s.tgs := rfl
@[simp] theorem State.setIppW_flows (s : State) (i : Nat) (v : Option IppWork) : (s.setIppW i v).flows = s.flows := rfl
@[simp] theorem State.setIppW_ctxs (s : State) (i : Nat) (v : Option IppWork) : (s.setIppW i v).ctxs = s.ctxs := rfl
@[simp] theorem State.setIppW_egress (s : State) (i : Nat) (v : Option IppWork) : (s.setIppW i v).egress = s.egress := rfl
@[simp] theorem State.setIppW_follows (s : State) (i : Nat) (v : Option IppWork) : (s.setIppW i v).follows = s.follows := rfl
@[simp] theorem State.setIppW_ipp (s : State) (i : Nat) (v : Option IppWork) : (s.setIppW i v).ipp = tset (fun _ => none) s.ipp i v := rfl
@[simp] theorem State.setIppW_encs (s : State) (i : Nat) (v : Option IppWork) : (s.setIppW i v).encs = s.encs := rfl
@[simp] theorem State.setIppW_surfs (s : State) (i : Nat) (v : Option IppWork) : (s.setIppW i v).surfs = s.surfs := rfl
@[simp] theorem State.setIppW_ledger (s : State) (i : Nat) (v : Option IppWork) : (s.setIppW i v).ledger = s.ledger := rfl
@[simp] theorem State.setIppW_records (s : State) (i : Nat) (v : Option IppWork) : (s.setIppW i v).records = s.records := rfl
@[simp] theorem State.setIppW_layers (s : State) (i : Nat) (v : Option IppWork) : (s.setIppW i v).layers = s.layers := rfl
@[simp] theorem State.setIppW_heads (s : State) (i : Nat) (v : Option IppWork) : (s.setIppW i v).heads = s.heads := rfl
@[simp] theorem State.setIppW_seals (s : State) (i : Nat) (v : Option IppWork) : (s.setIppW i v).seals = s.seals := rfl
@[simp] theorem State.setIppW_commits (s : State) (i : Nat) (v : Option IppWork) : (s.setIppW i v).commits = s.commits := rfl
@[simp] theorem State.setIppW_sweepMs (s : State) (i : Nat) (v : Option IppWork) : (s.setIppW i v).sweepMs = s.sweepMs := rfl
@[simp] theorem State.setIppW_sweepAt (s : State) (i : Nat) (v : Option IppWork) : (s.setIppW i v).sweepAt = s.sweepAt := rfl
@[simp] theorem State.setIppW_sweepNext (s : State) (i : Nat) (v : Option IppWork) : (s.setIppW i v).sweepNext = s.sweepNext := rfl
@[simp] theorem State.setIppW_snaps (s : State) (i : Nat) (v : Option IppWork) : (s.setIppW i v).snaps = s.snaps := rfl
@[simp] theorem State.setIppW_touch (s : State) (i : Nat) (v : Option IppWork) : (s.setIppW i v).touch = s.touch := rfl
@[simp] theorem State.setIppW_parts (s : State) (i : Nat) (v : Option IppWork) : (s.setIppW i v).parts = s.parts := rfl
@[simp] theorem State.setIppW_jobs (s : State) (i : Nat) (v : Option IppWork) : (s.setIppW i v).jobs = s.jobs := rfl
@[simp] theorem State.setIppW_nextJob (s : State) (i : Nat) (v : Option IppWork) : (s.setIppW i v).nextJob = s.nextJob := rfl
@[simp] theorem State.setIppW_nextFetch (s : State) (i : Nat) (v : Option IppWork) : (s.setIppW i v).nextFetch = s.nextFetch := rfl
@[simp] theorem State.setIppW_cpls (s : State) (i : Nat) (v : Option IppWork) : (s.setIppW i v).cpls = s.cpls := rfl
@[simp] theorem State.setIppW_srcs (s : State) (i : Nat) (v : Option IppWork) : (s.setIppW i v).srcs = s.srcs := rfl
@[simp] theorem State.setIppW_desks (s : State) (i : Nat) (v : Option IppWork) : (s.setIppW i v).desks = s.desks := rfl
@[simp] theorem State.setIppW_evcStop (s : State) (i : Nat) (v : Option IppWork) : (s.setIppW i v).evcStop = s.evcStop := rfl
@[simp] theorem State.setIppW_chain (s : State) (i : Nat) (v : Option IppWork) : (s.setIppW i v).chain = s.chain := rfl
@[simp] theorem State.setIppW_rdn (s : State) (i : Nat) (v : Option IppWork) : (s.setIppW i v).rdn = s.rdn := rfl
@[simp] theorem State.setIppW_dce (s : State) (i : Nat) (v : Option IppWork) : (s.setIppW i v).dce = s.dce := rfl
@[simp] theorem State.setIppW_bands (s : State) (i : Nat) (v : Option IppWork) : (s.setIppW i v).bands = s.bands := rfl
@[simp] theorem State.setIppW_ckptWait (s : State) (i : Nat) (v : Option IppWork) : (s.setIppW i v).ckptWait = s.ckptWait := rfl
@[simp] theorem State.setIppW_crcu (s : State) (i : Nat) (v : Option IppWork) : (s.setIppW i v).crcu = s.crcu := rfl
@[simp] theorem State.setIppW_pwr (s : State) (i : Nat) (v : Option IppWork) : (s.setIppW i v).pwr = s.pwr := rfl
@[simp] theorem State.setIppW_drains (s : State) (i : Nat) (v : Option IppWork) : (s.setIppW i v).drains = s.drains := rfl
@[simp] theorem State.setIppW_heldAcc (s : State) (i : Nat) (v : Option IppWork) : (s.setIppW i v).heldAcc = s.heldAcc := rfl
@[simp] theorem State.setIppW_quiets (s : State) (i : Nat) (v : Option IppWork) : (s.setIppW i v).quiets = s.quiets := rfl
@[simp] theorem State.setIppW_glog (s : State) (i : Nat) (v : Option IppWork) : (s.setIppW i v).glog = s.glog := rfl
@[simp] theorem State.setIppW_lanesQd (s : State) (i : Nat) (v : Option IppWork) : (s.setIppW i v).lanesQd = s.lanesQd := rfl
@[simp] theorem State.setIppW_lockAt (s : State) (i : Nat) (v : Option IppWork) : (s.setIppW i v).lockAt = s.lockAt := rfl
@[simp] theorem State.setIppW_nonce (s : State) (i : Nat) (v : Option IppWork) : (s.setIppW i v).nonce = s.nonce := rfl
@[simp] theorem State.setIppW_token (s : State) (i : Nat) (v : Option IppWork) : (s.setIppW i v).token = s.token := rfl
@[simp] theorem State.setIppW_fuseOps (s : State) (i : Nat) (v : Option IppWork) : (s.setIppW i v).fuseOps = s.fuseOps := rfl
@[simp] theorem State.setIppW_outbox (s : State) (i : Nat) (v : Option IppWork) : (s.setIppW i v).outbox = s.outbox := rfl
@[simp] theorem State.setIppW_bus (s : State) (i : Nat) (v : Option IppWork) : (s.setIppW i v).bus = s.bus := rfl

/-! ### setEnc -/

@[simp] theorem State.setEnc_pending (s : State) (e : Nat) (v : Enc) : (s.setEnc e v).pending = s.pending := rfl
@[simp] theorem State.setEnc_free (s : State) (e : Nat) (v : Enc) : (s.setEnc e v).free = s.free := rfl
@[simp] theorem State.setEnc_island (s : State) (e : Nat) (v : Enc) : (s.setEnc e v).island = s.island := rfl
@[simp] theorem State.setEnc_ctl (s : State) (e : Nat) (v : Enc) : (s.setEnc e v).ctl = s.ctl := rfl
@[simp] theorem State.setEnc_fuses (s : State) (e : Nat) (v : Enc) : (s.setEnc e v).fuses = s.fuses := rfl
@[simp] theorem State.setEnc_straps (s : State) (e : Nat) (v : Enc) : (s.setEnc e v).straps = s.straps := rfl
@[simp] theorem State.setEnc_tbase (s : State) (e : Nat) (v : Enc) : (s.setEnc e v).tbase = s.tbase := rfl
@[simp] theorem State.setEnc_hold (s : State) (e : Nat) (v : Enc) : (s.setEnc e v).hold = s.hold := rfl
@[simp] theorem State.setEnc_regs (s : State) (e : Nat) (v : Enc) : (s.setEnc e v).regs = s.regs := rfl
@[simp] theorem State.setEnc_mem (s : State) (e : Nat) (v : Enc) : (s.setEnc e v).mem = s.mem := rfl
@[simp] theorem State.setEnc_tgs (s : State) (e : Nat) (v : Enc) : (s.setEnc e v).tgs = s.tgs := rfl
@[simp] theorem State.setEnc_flows (s : State) (e : Nat) (v : Enc) : (s.setEnc e v).flows = s.flows := rfl
@[simp] theorem State.setEnc_ctxs (s : State) (e : Nat) (v : Enc) : (s.setEnc e v).ctxs = s.ctxs := rfl
@[simp] theorem State.setEnc_egress (s : State) (e : Nat) (v : Enc) : (s.setEnc e v).egress = s.egress := rfl
@[simp] theorem State.setEnc_follows (s : State) (e : Nat) (v : Enc) : (s.setEnc e v).follows = s.follows := rfl
@[simp] theorem State.setEnc_ipp (s : State) (e : Nat) (v : Enc) : (s.setEnc e v).ipp = s.ipp := rfl
@[simp] theorem State.setEnc_encs (s : State) (e : Nat) (v : Enc) : (s.setEnc e v).encs = tset (fun _ => {}) s.encs e v := rfl
@[simp] theorem State.setEnc_surfs (s : State) (e : Nat) (v : Enc) : (s.setEnc e v).surfs = s.surfs := rfl
@[simp] theorem State.setEnc_ledger (s : State) (e : Nat) (v : Enc) : (s.setEnc e v).ledger = s.ledger := rfl
@[simp] theorem State.setEnc_records (s : State) (e : Nat) (v : Enc) : (s.setEnc e v).records = s.records := rfl
@[simp] theorem State.setEnc_layers (s : State) (e : Nat) (v : Enc) : (s.setEnc e v).layers = s.layers := rfl
@[simp] theorem State.setEnc_heads (s : State) (e : Nat) (v : Enc) : (s.setEnc e v).heads = s.heads := rfl
@[simp] theorem State.setEnc_seals (s : State) (e : Nat) (v : Enc) : (s.setEnc e v).seals = s.seals := rfl
@[simp] theorem State.setEnc_commits (s : State) (e : Nat) (v : Enc) : (s.setEnc e v).commits = s.commits := rfl
@[simp] theorem State.setEnc_sweepMs (s : State) (e : Nat) (v : Enc) : (s.setEnc e v).sweepMs = s.sweepMs := rfl
@[simp] theorem State.setEnc_sweepAt (s : State) (e : Nat) (v : Enc) : (s.setEnc e v).sweepAt = s.sweepAt := rfl
@[simp] theorem State.setEnc_sweepNext (s : State) (e : Nat) (v : Enc) : (s.setEnc e v).sweepNext = s.sweepNext := rfl
@[simp] theorem State.setEnc_snaps (s : State) (e : Nat) (v : Enc) : (s.setEnc e v).snaps = s.snaps := rfl
@[simp] theorem State.setEnc_touch (s : State) (e : Nat) (v : Enc) : (s.setEnc e v).touch = s.touch := rfl
@[simp] theorem State.setEnc_parts (s : State) (e : Nat) (v : Enc) : (s.setEnc e v).parts = s.parts := rfl
@[simp] theorem State.setEnc_jobs (s : State) (e : Nat) (v : Enc) : (s.setEnc e v).jobs = s.jobs := rfl
@[simp] theorem State.setEnc_nextJob (s : State) (e : Nat) (v : Enc) : (s.setEnc e v).nextJob = s.nextJob := rfl
@[simp] theorem State.setEnc_nextFetch (s : State) (e : Nat) (v : Enc) : (s.setEnc e v).nextFetch = s.nextFetch := rfl
@[simp] theorem State.setEnc_cpls (s : State) (e : Nat) (v : Enc) : (s.setEnc e v).cpls = s.cpls := rfl
@[simp] theorem State.setEnc_srcs (s : State) (e : Nat) (v : Enc) : (s.setEnc e v).srcs = s.srcs := rfl
@[simp] theorem State.setEnc_desks (s : State) (e : Nat) (v : Enc) : (s.setEnc e v).desks = s.desks := rfl
@[simp] theorem State.setEnc_evcStop (s : State) (e : Nat) (v : Enc) : (s.setEnc e v).evcStop = s.evcStop := rfl
@[simp] theorem State.setEnc_chain (s : State) (e : Nat) (v : Enc) : (s.setEnc e v).chain = s.chain := rfl
@[simp] theorem State.setEnc_rdn (s : State) (e : Nat) (v : Enc) : (s.setEnc e v).rdn = s.rdn := rfl
@[simp] theorem State.setEnc_dce (s : State) (e : Nat) (v : Enc) : (s.setEnc e v).dce = s.dce := rfl
@[simp] theorem State.setEnc_bands (s : State) (e : Nat) (v : Enc) : (s.setEnc e v).bands = s.bands := rfl
@[simp] theorem State.setEnc_ckptWait (s : State) (e : Nat) (v : Enc) : (s.setEnc e v).ckptWait = s.ckptWait := rfl
@[simp] theorem State.setEnc_crcu (s : State) (e : Nat) (v : Enc) : (s.setEnc e v).crcu = s.crcu := rfl
@[simp] theorem State.setEnc_pwr (s : State) (e : Nat) (v : Enc) : (s.setEnc e v).pwr = s.pwr := rfl
@[simp] theorem State.setEnc_drains (s : State) (e : Nat) (v : Enc) : (s.setEnc e v).drains = s.drains := rfl
@[simp] theorem State.setEnc_heldAcc (s : State) (e : Nat) (v : Enc) : (s.setEnc e v).heldAcc = s.heldAcc := rfl
@[simp] theorem State.setEnc_quiets (s : State) (e : Nat) (v : Enc) : (s.setEnc e v).quiets = s.quiets := rfl
@[simp] theorem State.setEnc_glog (s : State) (e : Nat) (v : Enc) : (s.setEnc e v).glog = s.glog := rfl
@[simp] theorem State.setEnc_lanesQd (s : State) (e : Nat) (v : Enc) : (s.setEnc e v).lanesQd = s.lanesQd := rfl
@[simp] theorem State.setEnc_lockAt (s : State) (e : Nat) (v : Enc) : (s.setEnc e v).lockAt = s.lockAt := rfl
@[simp] theorem State.setEnc_nonce (s : State) (e : Nat) (v : Enc) : (s.setEnc e v).nonce = s.nonce := rfl
@[simp] theorem State.setEnc_token (s : State) (e : Nat) (v : Enc) : (s.setEnc e v).token = s.token := rfl
@[simp] theorem State.setEnc_fuseOps (s : State) (e : Nat) (v : Enc) : (s.setEnc e v).fuseOps = s.fuseOps := rfl
@[simp] theorem State.setEnc_outbox (s : State) (e : Nat) (v : Enc) : (s.setEnc e v).outbox = s.outbox := rfl
@[simp] theorem State.setEnc_bus (s : State) (e : Nat) (v : Enc) : (s.setEnc e v).bus = s.bus := rfl

/-! ### setSurf -/

@[simp] theorem State.setSurf_pending (s : State) (n : Nat) (v : Surface) : (s.setSurf n v).pending = s.pending := rfl
@[simp] theorem State.setSurf_free (s : State) (n : Nat) (v : Surface) : (s.setSurf n v).free = s.free := rfl
@[simp] theorem State.setSurf_island (s : State) (n : Nat) (v : Surface) : (s.setSurf n v).island = s.island := rfl
@[simp] theorem State.setSurf_ctl (s : State) (n : Nat) (v : Surface) : (s.setSurf n v).ctl = s.ctl := rfl
@[simp] theorem State.setSurf_fuses (s : State) (n : Nat) (v : Surface) : (s.setSurf n v).fuses = s.fuses := rfl
@[simp] theorem State.setSurf_straps (s : State) (n : Nat) (v : Surface) : (s.setSurf n v).straps = s.straps := rfl
@[simp] theorem State.setSurf_tbase (s : State) (n : Nat) (v : Surface) : (s.setSurf n v).tbase = s.tbase := rfl
@[simp] theorem State.setSurf_hold (s : State) (n : Nat) (v : Surface) : (s.setSurf n v).hold = s.hold := rfl
@[simp] theorem State.setSurf_regs (s : State) (n : Nat) (v : Surface) : (s.setSurf n v).regs = s.regs := rfl
@[simp] theorem State.setSurf_mem (s : State) (n : Nat) (v : Surface) : (s.setSurf n v).mem = s.mem := rfl
@[simp] theorem State.setSurf_tgs (s : State) (n : Nat) (v : Surface) : (s.setSurf n v).tgs = s.tgs := rfl
@[simp] theorem State.setSurf_flows (s : State) (n : Nat) (v : Surface) : (s.setSurf n v).flows = s.flows := rfl
@[simp] theorem State.setSurf_ctxs (s : State) (n : Nat) (v : Surface) : (s.setSurf n v).ctxs = s.ctxs := rfl
@[simp] theorem State.setSurf_egress (s : State) (n : Nat) (v : Surface) : (s.setSurf n v).egress = s.egress := rfl
@[simp] theorem State.setSurf_follows (s : State) (n : Nat) (v : Surface) : (s.setSurf n v).follows = s.follows := rfl
@[simp] theorem State.setSurf_ipp (s : State) (n : Nat) (v : Surface) : (s.setSurf n v).ipp = s.ipp := rfl
@[simp] theorem State.setSurf_encs (s : State) (n : Nat) (v : Surface) : (s.setSurf n v).encs = s.encs := rfl
@[simp] theorem State.setSurf_surfs (s : State) (n : Nat) (v : Surface) : (s.setSurf n v).surfs = tset (fun _ => {}) s.surfs n v := rfl
@[simp] theorem State.setSurf_ledger (s : State) (n : Nat) (v : Surface) : (s.setSurf n v).ledger = s.ledger := rfl
@[simp] theorem State.setSurf_records (s : State) (n : Nat) (v : Surface) : (s.setSurf n v).records = s.records := rfl
@[simp] theorem State.setSurf_layers (s : State) (n : Nat) (v : Surface) : (s.setSurf n v).layers = s.layers := rfl
@[simp] theorem State.setSurf_heads (s : State) (n : Nat) (v : Surface) : (s.setSurf n v).heads = s.heads := rfl
@[simp] theorem State.setSurf_seals (s : State) (n : Nat) (v : Surface) : (s.setSurf n v).seals = s.seals := rfl
@[simp] theorem State.setSurf_commits (s : State) (n : Nat) (v : Surface) : (s.setSurf n v).commits = s.commits := rfl
@[simp] theorem State.setSurf_sweepMs (s : State) (n : Nat) (v : Surface) : (s.setSurf n v).sweepMs = s.sweepMs := rfl
@[simp] theorem State.setSurf_sweepAt (s : State) (n : Nat) (v : Surface) : (s.setSurf n v).sweepAt = s.sweepAt := rfl
@[simp] theorem State.setSurf_sweepNext (s : State) (n : Nat) (v : Surface) : (s.setSurf n v).sweepNext = s.sweepNext := rfl
@[simp] theorem State.setSurf_snaps (s : State) (n : Nat) (v : Surface) : (s.setSurf n v).snaps = s.snaps := rfl
@[simp] theorem State.setSurf_touch (s : State) (n : Nat) (v : Surface) : (s.setSurf n v).touch = s.touch := rfl
@[simp] theorem State.setSurf_parts (s : State) (n : Nat) (v : Surface) : (s.setSurf n v).parts = s.parts := rfl
@[simp] theorem State.setSurf_jobs (s : State) (n : Nat) (v : Surface) : (s.setSurf n v).jobs = s.jobs := rfl
@[simp] theorem State.setSurf_nextJob (s : State) (n : Nat) (v : Surface) : (s.setSurf n v).nextJob = s.nextJob := rfl
@[simp] theorem State.setSurf_nextFetch (s : State) (n : Nat) (v : Surface) : (s.setSurf n v).nextFetch = s.nextFetch := rfl
@[simp] theorem State.setSurf_cpls (s : State) (n : Nat) (v : Surface) : (s.setSurf n v).cpls = s.cpls := rfl
@[simp] theorem State.setSurf_srcs (s : State) (n : Nat) (v : Surface) : (s.setSurf n v).srcs = s.srcs := rfl
@[simp] theorem State.setSurf_desks (s : State) (n : Nat) (v : Surface) : (s.setSurf n v).desks = s.desks := rfl
@[simp] theorem State.setSurf_evcStop (s : State) (n : Nat) (v : Surface) : (s.setSurf n v).evcStop = s.evcStop := rfl
@[simp] theorem State.setSurf_chain (s : State) (n : Nat) (v : Surface) : (s.setSurf n v).chain = s.chain := rfl
@[simp] theorem State.setSurf_rdn (s : State) (n : Nat) (v : Surface) : (s.setSurf n v).rdn = s.rdn := rfl
@[simp] theorem State.setSurf_dce (s : State) (n : Nat) (v : Surface) : (s.setSurf n v).dce = s.dce := rfl
@[simp] theorem State.setSurf_bands (s : State) (n : Nat) (v : Surface) : (s.setSurf n v).bands = s.bands := rfl
@[simp] theorem State.setSurf_ckptWait (s : State) (n : Nat) (v : Surface) : (s.setSurf n v).ckptWait = s.ckptWait := rfl
@[simp] theorem State.setSurf_crcu (s : State) (n : Nat) (v : Surface) : (s.setSurf n v).crcu = s.crcu := rfl
@[simp] theorem State.setSurf_pwr (s : State) (n : Nat) (v : Surface) : (s.setSurf n v).pwr = s.pwr := rfl
@[simp] theorem State.setSurf_drains (s : State) (n : Nat) (v : Surface) : (s.setSurf n v).drains = s.drains := rfl
@[simp] theorem State.setSurf_heldAcc (s : State) (n : Nat) (v : Surface) : (s.setSurf n v).heldAcc = s.heldAcc := rfl
@[simp] theorem State.setSurf_quiets (s : State) (n : Nat) (v : Surface) : (s.setSurf n v).quiets = s.quiets := rfl
@[simp] theorem State.setSurf_glog (s : State) (n : Nat) (v : Surface) : (s.setSurf n v).glog = s.glog := rfl
@[simp] theorem State.setSurf_lanesQd (s : State) (n : Nat) (v : Surface) : (s.setSurf n v).lanesQd = s.lanesQd := rfl
@[simp] theorem State.setSurf_lockAt (s : State) (n : Nat) (v : Surface) : (s.setSurf n v).lockAt = s.lockAt := rfl
@[simp] theorem State.setSurf_nonce (s : State) (n : Nat) (v : Surface) : (s.setSurf n v).nonce = s.nonce := rfl
@[simp] theorem State.setSurf_token (s : State) (n : Nat) (v : Surface) : (s.setSurf n v).token = s.token := rfl
@[simp] theorem State.setSurf_fuseOps (s : State) (n : Nat) (v : Surface) : (s.setSurf n v).fuseOps = s.fuseOps := rfl
@[simp] theorem State.setSurf_outbox (s : State) (n : Nat) (v : Surface) : (s.setSurf n v).outbox = s.outbox := rfl
@[simp] theorem State.setSurf_bus (s : State) (n : Nat) (v : Surface) : (s.setSurf n v).bus = s.bus := rfl

/-! ### setLed -/

@[simp] theorem State.setLed_pending (s : State) (e : Nat) (v : LEntry) : (s.setLed e v).pending = s.pending := rfl
@[simp] theorem State.setLed_free (s : State) (e : Nat) (v : LEntry) : (s.setLed e v).free = s.free := rfl
@[simp] theorem State.setLed_island (s : State) (e : Nat) (v : LEntry) : (s.setLed e v).island = s.island := rfl
@[simp] theorem State.setLed_ctl (s : State) (e : Nat) (v : LEntry) : (s.setLed e v).ctl = s.ctl := rfl
@[simp] theorem State.setLed_fuses (s : State) (e : Nat) (v : LEntry) : (s.setLed e v).fuses = s.fuses := rfl
@[simp] theorem State.setLed_straps (s : State) (e : Nat) (v : LEntry) : (s.setLed e v).straps = s.straps := rfl
@[simp] theorem State.setLed_tbase (s : State) (e : Nat) (v : LEntry) : (s.setLed e v).tbase = s.tbase := rfl
@[simp] theorem State.setLed_hold (s : State) (e : Nat) (v : LEntry) : (s.setLed e v).hold = s.hold := rfl
@[simp] theorem State.setLed_regs (s : State) (e : Nat) (v : LEntry) : (s.setLed e v).regs = s.regs := rfl
@[simp] theorem State.setLed_mem (s : State) (e : Nat) (v : LEntry) : (s.setLed e v).mem = s.mem := rfl
@[simp] theorem State.setLed_tgs (s : State) (e : Nat) (v : LEntry) : (s.setLed e v).tgs = s.tgs := rfl
@[simp] theorem State.setLed_flows (s : State) (e : Nat) (v : LEntry) : (s.setLed e v).flows = s.flows := rfl
@[simp] theorem State.setLed_ctxs (s : State) (e : Nat) (v : LEntry) : (s.setLed e v).ctxs = s.ctxs := rfl
@[simp] theorem State.setLed_egress (s : State) (e : Nat) (v : LEntry) : (s.setLed e v).egress = s.egress := rfl
@[simp] theorem State.setLed_follows (s : State) (e : Nat) (v : LEntry) : (s.setLed e v).follows = s.follows := rfl
@[simp] theorem State.setLed_ipp (s : State) (e : Nat) (v : LEntry) : (s.setLed e v).ipp = s.ipp := rfl
@[simp] theorem State.setLed_encs (s : State) (e : Nat) (v : LEntry) : (s.setLed e v).encs = s.encs := rfl
@[simp] theorem State.setLed_surfs (s : State) (e : Nat) (v : LEntry) : (s.setLed e v).surfs = s.surfs := rfl
@[simp] theorem State.setLed_ledger (s : State) (e : Nat) (v : LEntry) : (s.setLed e v).ledger = tset (fun _ => {}) s.ledger e v := rfl
@[simp] theorem State.setLed_records (s : State) (e : Nat) (v : LEntry) : (s.setLed e v).records = s.records := rfl
@[simp] theorem State.setLed_layers (s : State) (e : Nat) (v : LEntry) : (s.setLed e v).layers = s.layers := rfl
@[simp] theorem State.setLed_heads (s : State) (e : Nat) (v : LEntry) : (s.setLed e v).heads = s.heads := rfl
@[simp] theorem State.setLed_seals (s : State) (e : Nat) (v : LEntry) : (s.setLed e v).seals = s.seals := rfl
@[simp] theorem State.setLed_commits (s : State) (e : Nat) (v : LEntry) : (s.setLed e v).commits = s.commits := rfl
@[simp] theorem State.setLed_sweepMs (s : State) (e : Nat) (v : LEntry) : (s.setLed e v).sweepMs = s.sweepMs := rfl
@[simp] theorem State.setLed_sweepAt (s : State) (e : Nat) (v : LEntry) : (s.setLed e v).sweepAt = s.sweepAt := rfl
@[simp] theorem State.setLed_sweepNext (s : State) (e : Nat) (v : LEntry) : (s.setLed e v).sweepNext = s.sweepNext := rfl
@[simp] theorem State.setLed_snaps (s : State) (e : Nat) (v : LEntry) : (s.setLed e v).snaps = s.snaps := rfl
@[simp] theorem State.setLed_touch (s : State) (e : Nat) (v : LEntry) : (s.setLed e v).touch = s.touch := rfl
@[simp] theorem State.setLed_parts (s : State) (e : Nat) (v : LEntry) : (s.setLed e v).parts = s.parts := rfl
@[simp] theorem State.setLed_jobs (s : State) (e : Nat) (v : LEntry) : (s.setLed e v).jobs = s.jobs := rfl
@[simp] theorem State.setLed_nextJob (s : State) (e : Nat) (v : LEntry) : (s.setLed e v).nextJob = s.nextJob := rfl
@[simp] theorem State.setLed_nextFetch (s : State) (e : Nat) (v : LEntry) : (s.setLed e v).nextFetch = s.nextFetch := rfl
@[simp] theorem State.setLed_cpls (s : State) (e : Nat) (v : LEntry) : (s.setLed e v).cpls = s.cpls := rfl
@[simp] theorem State.setLed_srcs (s : State) (e : Nat) (v : LEntry) : (s.setLed e v).srcs = s.srcs := rfl
@[simp] theorem State.setLed_desks (s : State) (e : Nat) (v : LEntry) : (s.setLed e v).desks = s.desks := rfl
@[simp] theorem State.setLed_evcStop (s : State) (e : Nat) (v : LEntry) : (s.setLed e v).evcStop = s.evcStop := rfl
@[simp] theorem State.setLed_chain (s : State) (e : Nat) (v : LEntry) : (s.setLed e v).chain = s.chain := rfl
@[simp] theorem State.setLed_rdn (s : State) (e : Nat) (v : LEntry) : (s.setLed e v).rdn = s.rdn := rfl
@[simp] theorem State.setLed_dce (s : State) (e : Nat) (v : LEntry) : (s.setLed e v).dce = s.dce := rfl
@[simp] theorem State.setLed_bands (s : State) (e : Nat) (v : LEntry) : (s.setLed e v).bands = s.bands := rfl
@[simp] theorem State.setLed_ckptWait (s : State) (e : Nat) (v : LEntry) : (s.setLed e v).ckptWait = s.ckptWait := rfl
@[simp] theorem State.setLed_crcu (s : State) (e : Nat) (v : LEntry) : (s.setLed e v).crcu = s.crcu := rfl
@[simp] theorem State.setLed_pwr (s : State) (e : Nat) (v : LEntry) : (s.setLed e v).pwr = s.pwr := rfl
@[simp] theorem State.setLed_drains (s : State) (e : Nat) (v : LEntry) : (s.setLed e v).drains = s.drains := rfl
@[simp] theorem State.setLed_heldAcc (s : State) (e : Nat) (v : LEntry) : (s.setLed e v).heldAcc = s.heldAcc := rfl
@[simp] theorem State.setLed_quiets (s : State) (e : Nat) (v : LEntry) : (s.setLed e v).quiets = s.quiets := rfl
@[simp] theorem State.setLed_glog (s : State) (e : Nat) (v : LEntry) : (s.setLed e v).glog = s.glog := rfl
@[simp] theorem State.setLed_lanesQd (s : State) (e : Nat) (v : LEntry) : (s.setLed e v).lanesQd = s.lanesQd := rfl
@[simp] theorem State.setLed_lockAt (s : State) (e : Nat) (v : LEntry) : (s.setLed e v).lockAt = s.lockAt := rfl
@[simp] theorem State.setLed_nonce (s : State) (e : Nat) (v : LEntry) : (s.setLed e v).nonce = s.nonce := rfl
@[simp] theorem State.setLed_token (s : State) (e : Nat) (v : LEntry) : (s.setLed e v).token = s.token := rfl
@[simp] theorem State.setLed_fuseOps (s : State) (e : Nat) (v : LEntry) : (s.setLed e v).fuseOps = s.fuseOps := rfl
@[simp] theorem State.setLed_outbox (s : State) (e : Nat) (v : LEntry) : (s.setLed e v).outbox = s.outbox := rfl
@[simp] theorem State.setLed_bus (s : State) (e : Nat) (v : LEntry) : (s.setLed e v).bus = s.bus := rfl

/-! ### setLayer -/

@[simp] theorem State.setLayer_pending (s : State) (l : Nat) (v : Layer) : (s.setLayer l v).pending = s.pending := rfl
@[simp] theorem State.setLayer_free (s : State) (l : Nat) (v : Layer) : (s.setLayer l v).free = s.free := rfl
@[simp] theorem State.setLayer_island (s : State) (l : Nat) (v : Layer) : (s.setLayer l v).island = s.island := rfl
@[simp] theorem State.setLayer_ctl (s : State) (l : Nat) (v : Layer) : (s.setLayer l v).ctl = s.ctl := rfl
@[simp] theorem State.setLayer_fuses (s : State) (l : Nat) (v : Layer) : (s.setLayer l v).fuses = s.fuses := rfl
@[simp] theorem State.setLayer_straps (s : State) (l : Nat) (v : Layer) : (s.setLayer l v).straps = s.straps := rfl
@[simp] theorem State.setLayer_tbase (s : State) (l : Nat) (v : Layer) : (s.setLayer l v).tbase = s.tbase := rfl
@[simp] theorem State.setLayer_hold (s : State) (l : Nat) (v : Layer) : (s.setLayer l v).hold = s.hold := rfl
@[simp] theorem State.setLayer_regs (s : State) (l : Nat) (v : Layer) : (s.setLayer l v).regs = s.regs := rfl
@[simp] theorem State.setLayer_mem (s : State) (l : Nat) (v : Layer) : (s.setLayer l v).mem = s.mem := rfl
@[simp] theorem State.setLayer_tgs (s : State) (l : Nat) (v : Layer) : (s.setLayer l v).tgs = s.tgs := rfl
@[simp] theorem State.setLayer_flows (s : State) (l : Nat) (v : Layer) : (s.setLayer l v).flows = s.flows := rfl
@[simp] theorem State.setLayer_ctxs (s : State) (l : Nat) (v : Layer) : (s.setLayer l v).ctxs = s.ctxs := rfl
@[simp] theorem State.setLayer_egress (s : State) (l : Nat) (v : Layer) : (s.setLayer l v).egress = s.egress := rfl
@[simp] theorem State.setLayer_follows (s : State) (l : Nat) (v : Layer) : (s.setLayer l v).follows = s.follows := rfl
@[simp] theorem State.setLayer_ipp (s : State) (l : Nat) (v : Layer) : (s.setLayer l v).ipp = s.ipp := rfl
@[simp] theorem State.setLayer_encs (s : State) (l : Nat) (v : Layer) : (s.setLayer l v).encs = s.encs := rfl
@[simp] theorem State.setLayer_surfs (s : State) (l : Nat) (v : Layer) : (s.setLayer l v).surfs = s.surfs := rfl
@[simp] theorem State.setLayer_ledger (s : State) (l : Nat) (v : Layer) : (s.setLayer l v).ledger = s.ledger := rfl
@[simp] theorem State.setLayer_records (s : State) (l : Nat) (v : Layer) : (s.setLayer l v).records = s.records := rfl
@[simp] theorem State.setLayer_layers (s : State) (l : Nat) (v : Layer) : (s.setLayer l v).layers = tset (fun _ => {}) s.layers l v := rfl
@[simp] theorem State.setLayer_heads (s : State) (l : Nat) (v : Layer) : (s.setLayer l v).heads = s.heads := rfl
@[simp] theorem State.setLayer_seals (s : State) (l : Nat) (v : Layer) : (s.setLayer l v).seals = s.seals := rfl
@[simp] theorem State.setLayer_commits (s : State) (l : Nat) (v : Layer) : (s.setLayer l v).commits = s.commits := rfl
@[simp] theorem State.setLayer_sweepMs (s : State) (l : Nat) (v : Layer) : (s.setLayer l v).sweepMs = s.sweepMs := rfl
@[simp] theorem State.setLayer_sweepAt (s : State) (l : Nat) (v : Layer) : (s.setLayer l v).sweepAt = s.sweepAt := rfl
@[simp] theorem State.setLayer_sweepNext (s : State) (l : Nat) (v : Layer) : (s.setLayer l v).sweepNext = s.sweepNext := rfl
@[simp] theorem State.setLayer_snaps (s : State) (l : Nat) (v : Layer) : (s.setLayer l v).snaps = s.snaps := rfl
@[simp] theorem State.setLayer_touch (s : State) (l : Nat) (v : Layer) : (s.setLayer l v).touch = s.touch := rfl
@[simp] theorem State.setLayer_parts (s : State) (l : Nat) (v : Layer) : (s.setLayer l v).parts = s.parts := rfl
@[simp] theorem State.setLayer_jobs (s : State) (l : Nat) (v : Layer) : (s.setLayer l v).jobs = s.jobs := rfl
@[simp] theorem State.setLayer_nextJob (s : State) (l : Nat) (v : Layer) : (s.setLayer l v).nextJob = s.nextJob := rfl
@[simp] theorem State.setLayer_nextFetch (s : State) (l : Nat) (v : Layer) : (s.setLayer l v).nextFetch = s.nextFetch := rfl
@[simp] theorem State.setLayer_cpls (s : State) (l : Nat) (v : Layer) : (s.setLayer l v).cpls = s.cpls := rfl
@[simp] theorem State.setLayer_srcs (s : State) (l : Nat) (v : Layer) : (s.setLayer l v).srcs = s.srcs := rfl
@[simp] theorem State.setLayer_desks (s : State) (l : Nat) (v : Layer) : (s.setLayer l v).desks = s.desks := rfl
@[simp] theorem State.setLayer_evcStop (s : State) (l : Nat) (v : Layer) : (s.setLayer l v).evcStop = s.evcStop := rfl
@[simp] theorem State.setLayer_chain (s : State) (l : Nat) (v : Layer) : (s.setLayer l v).chain = s.chain := rfl
@[simp] theorem State.setLayer_rdn (s : State) (l : Nat) (v : Layer) : (s.setLayer l v).rdn = s.rdn := rfl
@[simp] theorem State.setLayer_dce (s : State) (l : Nat) (v : Layer) : (s.setLayer l v).dce = s.dce := rfl
@[simp] theorem State.setLayer_bands (s : State) (l : Nat) (v : Layer) : (s.setLayer l v).bands = s.bands := rfl
@[simp] theorem State.setLayer_ckptWait (s : State) (l : Nat) (v : Layer) : (s.setLayer l v).ckptWait = s.ckptWait := rfl
@[simp] theorem State.setLayer_crcu (s : State) (l : Nat) (v : Layer) : (s.setLayer l v).crcu = s.crcu := rfl
@[simp] theorem State.setLayer_pwr (s : State) (l : Nat) (v : Layer) : (s.setLayer l v).pwr = s.pwr := rfl
@[simp] theorem State.setLayer_drains (s : State) (l : Nat) (v : Layer) : (s.setLayer l v).drains = s.drains := rfl
@[simp] theorem State.setLayer_heldAcc (s : State) (l : Nat) (v : Layer) : (s.setLayer l v).heldAcc = s.heldAcc := rfl
@[simp] theorem State.setLayer_quiets (s : State) (l : Nat) (v : Layer) : (s.setLayer l v).quiets = s.quiets := rfl
@[simp] theorem State.setLayer_glog (s : State) (l : Nat) (v : Layer) : (s.setLayer l v).glog = s.glog := rfl
@[simp] theorem State.setLayer_lanesQd (s : State) (l : Nat) (v : Layer) : (s.setLayer l v).lanesQd = s.lanesQd := rfl
@[simp] theorem State.setLayer_lockAt (s : State) (l : Nat) (v : Layer) : (s.setLayer l v).lockAt = s.lockAt := rfl
@[simp] theorem State.setLayer_nonce (s : State) (l : Nat) (v : Layer) : (s.setLayer l v).nonce = s.nonce := rfl
@[simp] theorem State.setLayer_token (s : State) (l : Nat) (v : Layer) : (s.setLayer l v).token = s.token := rfl
@[simp] theorem State.setLayer_fuseOps (s : State) (l : Nat) (v : Layer) : (s.setLayer l v).fuseOps = s.fuseOps := rfl
@[simp] theorem State.setLayer_outbox (s : State) (l : Nat) (v : Layer) : (s.setLayer l v).outbox = s.outbox := rfl
@[simp] theorem State.setLayer_bus (s : State) (l : Nat) (v : Layer) : (s.setLayer l v).bus = s.bus := rfl

/-! ### setHead -/

@[simp] theorem State.setHead_pending (s : State) (n : Nat) (v : Head) : (s.setHead n v).pending = s.pending := rfl
@[simp] theorem State.setHead_free (s : State) (n : Nat) (v : Head) : (s.setHead n v).free = s.free := rfl
@[simp] theorem State.setHead_island (s : State) (n : Nat) (v : Head) : (s.setHead n v).island = s.island := rfl
@[simp] theorem State.setHead_ctl (s : State) (n : Nat) (v : Head) : (s.setHead n v).ctl = s.ctl := rfl
@[simp] theorem State.setHead_fuses (s : State) (n : Nat) (v : Head) : (s.setHead n v).fuses = s.fuses := rfl
@[simp] theorem State.setHead_straps (s : State) (n : Nat) (v : Head) : (s.setHead n v).straps = s.straps := rfl
@[simp] theorem State.setHead_tbase (s : State) (n : Nat) (v : Head) : (s.setHead n v).tbase = s.tbase := rfl
@[simp] theorem State.setHead_hold (s : State) (n : Nat) (v : Head) : (s.setHead n v).hold = s.hold := rfl
@[simp] theorem State.setHead_regs (s : State) (n : Nat) (v : Head) : (s.setHead n v).regs = s.regs := rfl
@[simp] theorem State.setHead_mem (s : State) (n : Nat) (v : Head) : (s.setHead n v).mem = s.mem := rfl
@[simp] theorem State.setHead_tgs (s : State) (n : Nat) (v : Head) : (s.setHead n v).tgs = s.tgs := rfl
@[simp] theorem State.setHead_flows (s : State) (n : Nat) (v : Head) : (s.setHead n v).flows = s.flows := rfl
@[simp] theorem State.setHead_ctxs (s : State) (n : Nat) (v : Head) : (s.setHead n v).ctxs = s.ctxs := rfl
@[simp] theorem State.setHead_egress (s : State) (n : Nat) (v : Head) : (s.setHead n v).egress = s.egress := rfl
@[simp] theorem State.setHead_follows (s : State) (n : Nat) (v : Head) : (s.setHead n v).follows = s.follows := rfl
@[simp] theorem State.setHead_ipp (s : State) (n : Nat) (v : Head) : (s.setHead n v).ipp = s.ipp := rfl
@[simp] theorem State.setHead_encs (s : State) (n : Nat) (v : Head) : (s.setHead n v).encs = s.encs := rfl
@[simp] theorem State.setHead_surfs (s : State) (n : Nat) (v : Head) : (s.setHead n v).surfs = s.surfs := rfl
@[simp] theorem State.setHead_ledger (s : State) (n : Nat) (v : Head) : (s.setHead n v).ledger = s.ledger := rfl
@[simp] theorem State.setHead_records (s : State) (n : Nat) (v : Head) : (s.setHead n v).records = s.records := rfl
@[simp] theorem State.setHead_layers (s : State) (n : Nat) (v : Head) : (s.setHead n v).layers = s.layers := rfl
@[simp] theorem State.setHead_heads (s : State) (n : Nat) (v : Head) : (s.setHead n v).heads = tset (fun _ => {}) s.heads n v := rfl
@[simp] theorem State.setHead_seals (s : State) (n : Nat) (v : Head) : (s.setHead n v).seals = s.seals := rfl
@[simp] theorem State.setHead_commits (s : State) (n : Nat) (v : Head) : (s.setHead n v).commits = s.commits := rfl
@[simp] theorem State.setHead_sweepMs (s : State) (n : Nat) (v : Head) : (s.setHead n v).sweepMs = s.sweepMs := rfl
@[simp] theorem State.setHead_sweepAt (s : State) (n : Nat) (v : Head) : (s.setHead n v).sweepAt = s.sweepAt := rfl
@[simp] theorem State.setHead_sweepNext (s : State) (n : Nat) (v : Head) : (s.setHead n v).sweepNext = s.sweepNext := rfl
@[simp] theorem State.setHead_snaps (s : State) (n : Nat) (v : Head) : (s.setHead n v).snaps = s.snaps := rfl
@[simp] theorem State.setHead_touch (s : State) (n : Nat) (v : Head) : (s.setHead n v).touch = s.touch := rfl
@[simp] theorem State.setHead_parts (s : State) (n : Nat) (v : Head) : (s.setHead n v).parts = s.parts := rfl
@[simp] theorem State.setHead_jobs (s : State) (n : Nat) (v : Head) : (s.setHead n v).jobs = s.jobs := rfl
@[simp] theorem State.setHead_nextJob (s : State) (n : Nat) (v : Head) : (s.setHead n v).nextJob = s.nextJob := rfl
@[simp] theorem State.setHead_nextFetch (s : State) (n : Nat) (v : Head) : (s.setHead n v).nextFetch = s.nextFetch := rfl
@[simp] theorem State.setHead_cpls (s : State) (n : Nat) (v : Head) : (s.setHead n v).cpls = s.cpls := rfl
@[simp] theorem State.setHead_srcs (s : State) (n : Nat) (v : Head) : (s.setHead n v).srcs = s.srcs := rfl
@[simp] theorem State.setHead_desks (s : State) (n : Nat) (v : Head) : (s.setHead n v).desks = s.desks := rfl
@[simp] theorem State.setHead_evcStop (s : State) (n : Nat) (v : Head) : (s.setHead n v).evcStop = s.evcStop := rfl
@[simp] theorem State.setHead_chain (s : State) (n : Nat) (v : Head) : (s.setHead n v).chain = s.chain := rfl
@[simp] theorem State.setHead_rdn (s : State) (n : Nat) (v : Head) : (s.setHead n v).rdn = s.rdn := rfl
@[simp] theorem State.setHead_dce (s : State) (n : Nat) (v : Head) : (s.setHead n v).dce = s.dce := rfl
@[simp] theorem State.setHead_bands (s : State) (n : Nat) (v : Head) : (s.setHead n v).bands = s.bands := rfl
@[simp] theorem State.setHead_ckptWait (s : State) (n : Nat) (v : Head) : (s.setHead n v).ckptWait = s.ckptWait := rfl
@[simp] theorem State.setHead_crcu (s : State) (n : Nat) (v : Head) : (s.setHead n v).crcu = s.crcu := rfl
@[simp] theorem State.setHead_pwr (s : State) (n : Nat) (v : Head) : (s.setHead n v).pwr = s.pwr := rfl
@[simp] theorem State.setHead_drains (s : State) (n : Nat) (v : Head) : (s.setHead n v).drains = s.drains := rfl
@[simp] theorem State.setHead_heldAcc (s : State) (n : Nat) (v : Head) : (s.setHead n v).heldAcc = s.heldAcc := rfl
@[simp] theorem State.setHead_quiets (s : State) (n : Nat) (v : Head) : (s.setHead n v).quiets = s.quiets := rfl
@[simp] theorem State.setHead_glog (s : State) (n : Nat) (v : Head) : (s.setHead n v).glog = s.glog := rfl
@[simp] theorem State.setHead_lanesQd (s : State) (n : Nat) (v : Head) : (s.setHead n v).lanesQd = s.lanesQd := rfl
@[simp] theorem State.setHead_lockAt (s : State) (n : Nat) (v : Head) : (s.setHead n v).lockAt = s.lockAt := rfl
@[simp] theorem State.setHead_nonce (s : State) (n : Nat) (v : Head) : (s.setHead n v).nonce = s.nonce := rfl
@[simp] theorem State.setHead_token (s : State) (n : Nat) (v : Head) : (s.setHead n v).token = s.token := rfl
@[simp] theorem State.setHead_fuseOps (s : State) (n : Nat) (v : Head) : (s.setHead n v).fuseOps = s.fuseOps := rfl
@[simp] theorem State.setHead_outbox (s : State) (n : Nat) (v : Head) : (s.setHead n v).outbox = s.outbox := rfl
@[simp] theorem State.setHead_bus (s : State) (n : Nat) (v : Head) : (s.setHead n v).bus = s.bus := rfl

/-! ### setGrp -/

@[simp] theorem State.setGrp_pending (s : State) (g : Nat) (v : SealGrp) : (s.setGrp g v).pending = s.pending := rfl
@[simp] theorem State.setGrp_free (s : State) (g : Nat) (v : SealGrp) : (s.setGrp g v).free = s.free := rfl
@[simp] theorem State.setGrp_island (s : State) (g : Nat) (v : SealGrp) : (s.setGrp g v).island = s.island := rfl
@[simp] theorem State.setGrp_ctl (s : State) (g : Nat) (v : SealGrp) : (s.setGrp g v).ctl = s.ctl := rfl
@[simp] theorem State.setGrp_fuses (s : State) (g : Nat) (v : SealGrp) : (s.setGrp g v).fuses = s.fuses := rfl
@[simp] theorem State.setGrp_straps (s : State) (g : Nat) (v : SealGrp) : (s.setGrp g v).straps = s.straps := rfl
@[simp] theorem State.setGrp_tbase (s : State) (g : Nat) (v : SealGrp) : (s.setGrp g v).tbase = s.tbase := rfl
@[simp] theorem State.setGrp_hold (s : State) (g : Nat) (v : SealGrp) : (s.setGrp g v).hold = s.hold := rfl
@[simp] theorem State.setGrp_regs (s : State) (g : Nat) (v : SealGrp) : (s.setGrp g v).regs = s.regs := rfl
@[simp] theorem State.setGrp_mem (s : State) (g : Nat) (v : SealGrp) : (s.setGrp g v).mem = s.mem := rfl
@[simp] theorem State.setGrp_tgs (s : State) (g : Nat) (v : SealGrp) : (s.setGrp g v).tgs = s.tgs := rfl
@[simp] theorem State.setGrp_flows (s : State) (g : Nat) (v : SealGrp) : (s.setGrp g v).flows = s.flows := rfl
@[simp] theorem State.setGrp_ctxs (s : State) (g : Nat) (v : SealGrp) : (s.setGrp g v).ctxs = s.ctxs := rfl
@[simp] theorem State.setGrp_egress (s : State) (g : Nat) (v : SealGrp) : (s.setGrp g v).egress = s.egress := rfl
@[simp] theorem State.setGrp_follows (s : State) (g : Nat) (v : SealGrp) : (s.setGrp g v).follows = s.follows := rfl
@[simp] theorem State.setGrp_ipp (s : State) (g : Nat) (v : SealGrp) : (s.setGrp g v).ipp = s.ipp := rfl
@[simp] theorem State.setGrp_encs (s : State) (g : Nat) (v : SealGrp) : (s.setGrp g v).encs = s.encs := rfl
@[simp] theorem State.setGrp_surfs (s : State) (g : Nat) (v : SealGrp) : (s.setGrp g v).surfs = s.surfs := rfl
@[simp] theorem State.setGrp_ledger (s : State) (g : Nat) (v : SealGrp) : (s.setGrp g v).ledger = s.ledger := rfl
@[simp] theorem State.setGrp_records (s : State) (g : Nat) (v : SealGrp) : (s.setGrp g v).records = s.records := rfl
@[simp] theorem State.setGrp_layers (s : State) (g : Nat) (v : SealGrp) : (s.setGrp g v).layers = s.layers := rfl
@[simp] theorem State.setGrp_heads (s : State) (g : Nat) (v : SealGrp) : (s.setGrp g v).heads = s.heads := rfl
@[simp] theorem State.setGrp_seals (s : State) (g : Nat) (v : SealGrp) : (s.setGrp g v).seals = tset (fun _ => {}) s.seals g v := rfl
@[simp] theorem State.setGrp_commits (s : State) (g : Nat) (v : SealGrp) : (s.setGrp g v).commits = s.commits := rfl
@[simp] theorem State.setGrp_sweepMs (s : State) (g : Nat) (v : SealGrp) : (s.setGrp g v).sweepMs = s.sweepMs := rfl
@[simp] theorem State.setGrp_sweepAt (s : State) (g : Nat) (v : SealGrp) : (s.setGrp g v).sweepAt = s.sweepAt := rfl
@[simp] theorem State.setGrp_sweepNext (s : State) (g : Nat) (v : SealGrp) : (s.setGrp g v).sweepNext = s.sweepNext := rfl
@[simp] theorem State.setGrp_snaps (s : State) (g : Nat) (v : SealGrp) : (s.setGrp g v).snaps = s.snaps := rfl
@[simp] theorem State.setGrp_touch (s : State) (g : Nat) (v : SealGrp) : (s.setGrp g v).touch = s.touch := rfl
@[simp] theorem State.setGrp_parts (s : State) (g : Nat) (v : SealGrp) : (s.setGrp g v).parts = s.parts := rfl
@[simp] theorem State.setGrp_jobs (s : State) (g : Nat) (v : SealGrp) : (s.setGrp g v).jobs = s.jobs := rfl
@[simp] theorem State.setGrp_nextJob (s : State) (g : Nat) (v : SealGrp) : (s.setGrp g v).nextJob = s.nextJob := rfl
@[simp] theorem State.setGrp_nextFetch (s : State) (g : Nat) (v : SealGrp) : (s.setGrp g v).nextFetch = s.nextFetch := rfl
@[simp] theorem State.setGrp_cpls (s : State) (g : Nat) (v : SealGrp) : (s.setGrp g v).cpls = s.cpls := rfl
@[simp] theorem State.setGrp_srcs (s : State) (g : Nat) (v : SealGrp) : (s.setGrp g v).srcs = s.srcs := rfl
@[simp] theorem State.setGrp_desks (s : State) (g : Nat) (v : SealGrp) : (s.setGrp g v).desks = s.desks := rfl
@[simp] theorem State.setGrp_evcStop (s : State) (g : Nat) (v : SealGrp) : (s.setGrp g v).evcStop = s.evcStop := rfl
@[simp] theorem State.setGrp_chain (s : State) (g : Nat) (v : SealGrp) : (s.setGrp g v).chain = s.chain := rfl
@[simp] theorem State.setGrp_rdn (s : State) (g : Nat) (v : SealGrp) : (s.setGrp g v).rdn = s.rdn := rfl
@[simp] theorem State.setGrp_dce (s : State) (g : Nat) (v : SealGrp) : (s.setGrp g v).dce = s.dce := rfl
@[simp] theorem State.setGrp_bands (s : State) (g : Nat) (v : SealGrp) : (s.setGrp g v).bands = s.bands := rfl
@[simp] theorem State.setGrp_ckptWait (s : State) (g : Nat) (v : SealGrp) : (s.setGrp g v).ckptWait = s.ckptWait := rfl
@[simp] theorem State.setGrp_crcu (s : State) (g : Nat) (v : SealGrp) : (s.setGrp g v).crcu = s.crcu := rfl
@[simp] theorem State.setGrp_pwr (s : State) (g : Nat) (v : SealGrp) : (s.setGrp g v).pwr = s.pwr := rfl
@[simp] theorem State.setGrp_drains (s : State) (g : Nat) (v : SealGrp) : (s.setGrp g v).drains = s.drains := rfl
@[simp] theorem State.setGrp_heldAcc (s : State) (g : Nat) (v : SealGrp) : (s.setGrp g v).heldAcc = s.heldAcc := rfl
@[simp] theorem State.setGrp_quiets (s : State) (g : Nat) (v : SealGrp) : (s.setGrp g v).quiets = s.quiets := rfl
@[simp] theorem State.setGrp_glog (s : State) (g : Nat) (v : SealGrp) : (s.setGrp g v).glog = s.glog := rfl
@[simp] theorem State.setGrp_lanesQd (s : State) (g : Nat) (v : SealGrp) : (s.setGrp g v).lanesQd = s.lanesQd := rfl
@[simp] theorem State.setGrp_lockAt (s : State) (g : Nat) (v : SealGrp) : (s.setGrp g v).lockAt = s.lockAt := rfl
@[simp] theorem State.setGrp_nonce (s : State) (g : Nat) (v : SealGrp) : (s.setGrp g v).nonce = s.nonce := rfl
@[simp] theorem State.setGrp_token (s : State) (g : Nat) (v : SealGrp) : (s.setGrp g v).token = s.token := rfl
@[simp] theorem State.setGrp_fuseOps (s : State) (g : Nat) (v : SealGrp) : (s.setGrp g v).fuseOps = s.fuseOps := rfl
@[simp] theorem State.setGrp_outbox (s : State) (g : Nat) (v : SealGrp) : (s.setGrp g v).outbox = s.outbox := rfl
@[simp] theorem State.setGrp_bus (s : State) (g : Nat) (v : SealGrp) : (s.setGrp g v).bus = s.bus := rfl

/-! ### setTch -/

@[simp] theorem State.setTch_pending (s : State) (p : Nat) (v : Touch) : (s.setTch p v).pending = s.pending := rfl
@[simp] theorem State.setTch_free (s : State) (p : Nat) (v : Touch) : (s.setTch p v).free = s.free := rfl
@[simp] theorem State.setTch_island (s : State) (p : Nat) (v : Touch) : (s.setTch p v).island = s.island := rfl
@[simp] theorem State.setTch_ctl (s : State) (p : Nat) (v : Touch) : (s.setTch p v).ctl = s.ctl := rfl
@[simp] theorem State.setTch_fuses (s : State) (p : Nat) (v : Touch) : (s.setTch p v).fuses = s.fuses := rfl
@[simp] theorem State.setTch_straps (s : State) (p : Nat) (v : Touch) : (s.setTch p v).straps = s.straps := rfl
@[simp] theorem State.setTch_tbase (s : State) (p : Nat) (v : Touch) : (s.setTch p v).tbase = s.tbase := rfl
@[simp] theorem State.setTch_hold (s : State) (p : Nat) (v : Touch) : (s.setTch p v).hold = s.hold := rfl
@[simp] theorem State.setTch_regs (s : State) (p : Nat) (v : Touch) : (s.setTch p v).regs = s.regs := rfl
@[simp] theorem State.setTch_mem (s : State) (p : Nat) (v : Touch) : (s.setTch p v).mem = s.mem := rfl
@[simp] theorem State.setTch_tgs (s : State) (p : Nat) (v : Touch) : (s.setTch p v).tgs = s.tgs := rfl
@[simp] theorem State.setTch_flows (s : State) (p : Nat) (v : Touch) : (s.setTch p v).flows = s.flows := rfl
@[simp] theorem State.setTch_ctxs (s : State) (p : Nat) (v : Touch) : (s.setTch p v).ctxs = s.ctxs := rfl
@[simp] theorem State.setTch_egress (s : State) (p : Nat) (v : Touch) : (s.setTch p v).egress = s.egress := rfl
@[simp] theorem State.setTch_follows (s : State) (p : Nat) (v : Touch) : (s.setTch p v).follows = s.follows := rfl
@[simp] theorem State.setTch_ipp (s : State) (p : Nat) (v : Touch) : (s.setTch p v).ipp = s.ipp := rfl
@[simp] theorem State.setTch_encs (s : State) (p : Nat) (v : Touch) : (s.setTch p v).encs = s.encs := rfl
@[simp] theorem State.setTch_surfs (s : State) (p : Nat) (v : Touch) : (s.setTch p v).surfs = s.surfs := rfl
@[simp] theorem State.setTch_ledger (s : State) (p : Nat) (v : Touch) : (s.setTch p v).ledger = s.ledger := rfl
@[simp] theorem State.setTch_records (s : State) (p : Nat) (v : Touch) : (s.setTch p v).records = s.records := rfl
@[simp] theorem State.setTch_layers (s : State) (p : Nat) (v : Touch) : (s.setTch p v).layers = s.layers := rfl
@[simp] theorem State.setTch_heads (s : State) (p : Nat) (v : Touch) : (s.setTch p v).heads = s.heads := rfl
@[simp] theorem State.setTch_seals (s : State) (p : Nat) (v : Touch) : (s.setTch p v).seals = s.seals := rfl
@[simp] theorem State.setTch_commits (s : State) (p : Nat) (v : Touch) : (s.setTch p v).commits = s.commits := rfl
@[simp] theorem State.setTch_sweepMs (s : State) (p : Nat) (v : Touch) : (s.setTch p v).sweepMs = s.sweepMs := rfl
@[simp] theorem State.setTch_sweepAt (s : State) (p : Nat) (v : Touch) : (s.setTch p v).sweepAt = s.sweepAt := rfl
@[simp] theorem State.setTch_sweepNext (s : State) (p : Nat) (v : Touch) : (s.setTch p v).sweepNext = s.sweepNext := rfl
@[simp] theorem State.setTch_snaps (s : State) (p : Nat) (v : Touch) : (s.setTch p v).snaps = s.snaps := rfl
@[simp] theorem State.setTch_touch (s : State) (p : Nat) (v : Touch) : (s.setTch p v).touch = tset (fun _ => {}) s.touch p v := rfl
@[simp] theorem State.setTch_parts (s : State) (p : Nat) (v : Touch) : (s.setTch p v).parts = s.parts := rfl
@[simp] theorem State.setTch_jobs (s : State) (p : Nat) (v : Touch) : (s.setTch p v).jobs = s.jobs := rfl
@[simp] theorem State.setTch_nextJob (s : State) (p : Nat) (v : Touch) : (s.setTch p v).nextJob = s.nextJob := rfl
@[simp] theorem State.setTch_nextFetch (s : State) (p : Nat) (v : Touch) : (s.setTch p v).nextFetch = s.nextFetch := rfl
@[simp] theorem State.setTch_cpls (s : State) (p : Nat) (v : Touch) : (s.setTch p v).cpls = s.cpls := rfl
@[simp] theorem State.setTch_srcs (s : State) (p : Nat) (v : Touch) : (s.setTch p v).srcs = s.srcs := rfl
@[simp] theorem State.setTch_desks (s : State) (p : Nat) (v : Touch) : (s.setTch p v).desks = s.desks := rfl
@[simp] theorem State.setTch_evcStop (s : State) (p : Nat) (v : Touch) : (s.setTch p v).evcStop = s.evcStop := rfl
@[simp] theorem State.setTch_chain (s : State) (p : Nat) (v : Touch) : (s.setTch p v).chain = s.chain := rfl
@[simp] theorem State.setTch_rdn (s : State) (p : Nat) (v : Touch) : (s.setTch p v).rdn = s.rdn := rfl
@[simp] theorem State.setTch_dce (s : State) (p : Nat) (v : Touch) : (s.setTch p v).dce = s.dce := rfl
@[simp] theorem State.setTch_bands (s : State) (p : Nat) (v : Touch) : (s.setTch p v).bands = s.bands := rfl
@[simp] theorem State.setTch_ckptWait (s : State) (p : Nat) (v : Touch) : (s.setTch p v).ckptWait = s.ckptWait := rfl
@[simp] theorem State.setTch_crcu (s : State) (p : Nat) (v : Touch) : (s.setTch p v).crcu = s.crcu := rfl
@[simp] theorem State.setTch_pwr (s : State) (p : Nat) (v : Touch) : (s.setTch p v).pwr = s.pwr := rfl
@[simp] theorem State.setTch_drains (s : State) (p : Nat) (v : Touch) : (s.setTch p v).drains = s.drains := rfl
@[simp] theorem State.setTch_heldAcc (s : State) (p : Nat) (v : Touch) : (s.setTch p v).heldAcc = s.heldAcc := rfl
@[simp] theorem State.setTch_quiets (s : State) (p : Nat) (v : Touch) : (s.setTch p v).quiets = s.quiets := rfl
@[simp] theorem State.setTch_glog (s : State) (p : Nat) (v : Touch) : (s.setTch p v).glog = s.glog := rfl
@[simp] theorem State.setTch_lanesQd (s : State) (p : Nat) (v : Touch) : (s.setTch p v).lanesQd = s.lanesQd := rfl
@[simp] theorem State.setTch_lockAt (s : State) (p : Nat) (v : Touch) : (s.setTch p v).lockAt = s.lockAt := rfl
@[simp] theorem State.setTch_nonce (s : State) (p : Nat) (v : Touch) : (s.setTch p v).nonce = s.nonce := rfl
@[simp] theorem State.setTch_token (s : State) (p : Nat) (v : Touch) : (s.setTch p v).token = s.token := rfl
@[simp] theorem State.setTch_fuseOps (s : State) (p : Nat) (v : Touch) : (s.setTch p v).fuseOps = s.fuseOps := rfl
@[simp] theorem State.setTch_outbox (s : State) (p : Nat) (v : Touch) : (s.setTch p v).outbox = s.outbox := rfl
@[simp] theorem State.setTch_bus (s : State) (p : Nat) (v : Touch) : (s.setTch p v).bus = s.bus := rfl

/-! ### setPart -/

@[simp] theorem State.setPart_pending (s : State) (p : Nat) (v : Part) : (s.setPart p v).pending = s.pending := rfl
@[simp] theorem State.setPart_free (s : State) (p : Nat) (v : Part) : (s.setPart p v).free = s.free := rfl
@[simp] theorem State.setPart_island (s : State) (p : Nat) (v : Part) : (s.setPart p v).island = s.island := rfl
@[simp] theorem State.setPart_ctl (s : State) (p : Nat) (v : Part) : (s.setPart p v).ctl = s.ctl := rfl
@[simp] theorem State.setPart_fuses (s : State) (p : Nat) (v : Part) : (s.setPart p v).fuses = s.fuses := rfl
@[simp] theorem State.setPart_straps (s : State) (p : Nat) (v : Part) : (s.setPart p v).straps = s.straps := rfl
@[simp] theorem State.setPart_tbase (s : State) (p : Nat) (v : Part) : (s.setPart p v).tbase = s.tbase := rfl
@[simp] theorem State.setPart_hold (s : State) (p : Nat) (v : Part) : (s.setPart p v).hold = s.hold := rfl
@[simp] theorem State.setPart_regs (s : State) (p : Nat) (v : Part) : (s.setPart p v).regs = s.regs := rfl
@[simp] theorem State.setPart_mem (s : State) (p : Nat) (v : Part) : (s.setPart p v).mem = s.mem := rfl
@[simp] theorem State.setPart_tgs (s : State) (p : Nat) (v : Part) : (s.setPart p v).tgs = s.tgs := rfl
@[simp] theorem State.setPart_flows (s : State) (p : Nat) (v : Part) : (s.setPart p v).flows = s.flows := rfl
@[simp] theorem State.setPart_ctxs (s : State) (p : Nat) (v : Part) : (s.setPart p v).ctxs = s.ctxs := rfl
@[simp] theorem State.setPart_egress (s : State) (p : Nat) (v : Part) : (s.setPart p v).egress = s.egress := rfl
@[simp] theorem State.setPart_follows (s : State) (p : Nat) (v : Part) : (s.setPart p v).follows = s.follows := rfl
@[simp] theorem State.setPart_ipp (s : State) (p : Nat) (v : Part) : (s.setPart p v).ipp = s.ipp := rfl
@[simp] theorem State.setPart_encs (s : State) (p : Nat) (v : Part) : (s.setPart p v).encs = s.encs := rfl
@[simp] theorem State.setPart_surfs (s : State) (p : Nat) (v : Part) : (s.setPart p v).surfs = s.surfs := rfl
@[simp] theorem State.setPart_ledger (s : State) (p : Nat) (v : Part) : (s.setPart p v).ledger = s.ledger := rfl
@[simp] theorem State.setPart_records (s : State) (p : Nat) (v : Part) : (s.setPart p v).records = s.records := rfl
@[simp] theorem State.setPart_layers (s : State) (p : Nat) (v : Part) : (s.setPart p v).layers = s.layers := rfl
@[simp] theorem State.setPart_heads (s : State) (p : Nat) (v : Part) : (s.setPart p v).heads = s.heads := rfl
@[simp] theorem State.setPart_seals (s : State) (p : Nat) (v : Part) : (s.setPart p v).seals = s.seals := rfl
@[simp] theorem State.setPart_commits (s : State) (p : Nat) (v : Part) : (s.setPart p v).commits = s.commits := rfl
@[simp] theorem State.setPart_sweepMs (s : State) (p : Nat) (v : Part) : (s.setPart p v).sweepMs = s.sweepMs := rfl
@[simp] theorem State.setPart_sweepAt (s : State) (p : Nat) (v : Part) : (s.setPart p v).sweepAt = s.sweepAt := rfl
@[simp] theorem State.setPart_sweepNext (s : State) (p : Nat) (v : Part) : (s.setPart p v).sweepNext = s.sweepNext := rfl
@[simp] theorem State.setPart_snaps (s : State) (p : Nat) (v : Part) : (s.setPart p v).snaps = s.snaps := rfl
@[simp] theorem State.setPart_touch (s : State) (p : Nat) (v : Part) : (s.setPart p v).touch = s.touch := rfl
@[simp] theorem State.setPart_parts (s : State) (p : Nat) (v : Part) : (s.setPart p v).parts = tset (fun _ => {}) s.parts p v := rfl
@[simp] theorem State.setPart_jobs (s : State) (p : Nat) (v : Part) : (s.setPart p v).jobs = s.jobs := rfl
@[simp] theorem State.setPart_nextJob (s : State) (p : Nat) (v : Part) : (s.setPart p v).nextJob = s.nextJob := rfl
@[simp] theorem State.setPart_nextFetch (s : State) (p : Nat) (v : Part) : (s.setPart p v).nextFetch = s.nextFetch := rfl
@[simp] theorem State.setPart_cpls (s : State) (p : Nat) (v : Part) : (s.setPart p v).cpls = s.cpls := rfl
@[simp] theorem State.setPart_srcs (s : State) (p : Nat) (v : Part) : (s.setPart p v).srcs = s.srcs := rfl
@[simp] theorem State.setPart_desks (s : State) (p : Nat) (v : Part) : (s.setPart p v).desks = s.desks := rfl
@[simp] theorem State.setPart_evcStop (s : State) (p : Nat) (v : Part) : (s.setPart p v).evcStop = s.evcStop := rfl
@[simp] theorem State.setPart_chain (s : State) (p : Nat) (v : Part) : (s.setPart p v).chain = s.chain := rfl
@[simp] theorem State.setPart_rdn (s : State) (p : Nat) (v : Part) : (s.setPart p v).rdn = s.rdn := rfl
@[simp] theorem State.setPart_dce (s : State) (p : Nat) (v : Part) : (s.setPart p v).dce = s.dce := rfl
@[simp] theorem State.setPart_bands (s : State) (p : Nat) (v : Part) : (s.setPart p v).bands = s.bands := rfl
@[simp] theorem State.setPart_ckptWait (s : State) (p : Nat) (v : Part) : (s.setPart p v).ckptWait = s.ckptWait := rfl
@[simp] theorem State.setPart_crcu (s : State) (p : Nat) (v : Part) : (s.setPart p v).crcu = s.crcu := rfl
@[simp] theorem State.setPart_pwr (s : State) (p : Nat) (v : Part) : (s.setPart p v).pwr = s.pwr := rfl
@[simp] theorem State.setPart_drains (s : State) (p : Nat) (v : Part) : (s.setPart p v).drains = s.drains := rfl
@[simp] theorem State.setPart_heldAcc (s : State) (p : Nat) (v : Part) : (s.setPart p v).heldAcc = s.heldAcc := rfl
@[simp] theorem State.setPart_quiets (s : State) (p : Nat) (v : Part) : (s.setPart p v).quiets = s.quiets := rfl
@[simp] theorem State.setPart_glog (s : State) (p : Nat) (v : Part) : (s.setPart p v).glog = s.glog := rfl
@[simp] theorem State.setPart_lanesQd (s : State) (p : Nat) (v : Part) : (s.setPart p v).lanesQd = s.lanesQd := rfl
@[simp] theorem State.setPart_lockAt (s : State) (p : Nat) (v : Part) : (s.setPart p v).lockAt = s.lockAt := rfl
@[simp] theorem State.setPart_nonce (s : State) (p : Nat) (v : Part) : (s.setPart p v).nonce = s.nonce := rfl
@[simp] theorem State.setPart_token (s : State) (p : Nat) (v : Part) : (s.setPart p v).token = s.token := rfl
@[simp] theorem State.setPart_fuseOps (s : State) (p : Nat) (v : Part) : (s.setPart p v).fuseOps = s.fuseOps := rfl
@[simp] theorem State.setPart_outbox (s : State) (p : Nat) (v : Part) : (s.setPart p v).outbox = s.outbox := rfl
@[simp] theorem State.setPart_bus (s : State) (p : Nat) (v : Part) : (s.setPart p v).bus = s.bus := rfl

/-! ### setSrc -/

@[simp] theorem State.setSrc_pending (s : State) (i : Nat) (v : Src) : (s.setSrc i v).pending = s.pending := rfl
@[simp] theorem State.setSrc_free (s : State) (i : Nat) (v : Src) : (s.setSrc i v).free = s.free := rfl
@[simp] theorem State.setSrc_island (s : State) (i : Nat) (v : Src) : (s.setSrc i v).island = s.island := rfl
@[simp] theorem State.setSrc_ctl (s : State) (i : Nat) (v : Src) : (s.setSrc i v).ctl = s.ctl := rfl
@[simp] theorem State.setSrc_fuses (s : State) (i : Nat) (v : Src) : (s.setSrc i v).fuses = s.fuses := rfl
@[simp] theorem State.setSrc_straps (s : State) (i : Nat) (v : Src) : (s.setSrc i v).straps = s.straps := rfl
@[simp] theorem State.setSrc_tbase (s : State) (i : Nat) (v : Src) : (s.setSrc i v).tbase = s.tbase := rfl
@[simp] theorem State.setSrc_hold (s : State) (i : Nat) (v : Src) : (s.setSrc i v).hold = s.hold := rfl
@[simp] theorem State.setSrc_regs (s : State) (i : Nat) (v : Src) : (s.setSrc i v).regs = s.regs := rfl
@[simp] theorem State.setSrc_mem (s : State) (i : Nat) (v : Src) : (s.setSrc i v).mem = s.mem := rfl
@[simp] theorem State.setSrc_tgs (s : State) (i : Nat) (v : Src) : (s.setSrc i v).tgs = s.tgs := rfl
@[simp] theorem State.setSrc_flows (s : State) (i : Nat) (v : Src) : (s.setSrc i v).flows = s.flows := rfl
@[simp] theorem State.setSrc_ctxs (s : State) (i : Nat) (v : Src) : (s.setSrc i v).ctxs = s.ctxs := rfl
@[simp] theorem State.setSrc_egress (s : State) (i : Nat) (v : Src) : (s.setSrc i v).egress = s.egress := rfl
@[simp] theorem State.setSrc_follows (s : State) (i : Nat) (v : Src) : (s.setSrc i v).follows = s.follows := rfl
@[simp] theorem State.setSrc_ipp (s : State) (i : Nat) (v : Src) : (s.setSrc i v).ipp = s.ipp := rfl
@[simp] theorem State.setSrc_encs (s : State) (i : Nat) (v : Src) : (s.setSrc i v).encs = s.encs := rfl
@[simp] theorem State.setSrc_surfs (s : State) (i : Nat) (v : Src) : (s.setSrc i v).surfs = s.surfs := rfl
@[simp] theorem State.setSrc_ledger (s : State) (i : Nat) (v : Src) : (s.setSrc i v).ledger = s.ledger := rfl
@[simp] theorem State.setSrc_records (s : State) (i : Nat) (v : Src) : (s.setSrc i v).records = s.records := rfl
@[simp] theorem State.setSrc_layers (s : State) (i : Nat) (v : Src) : (s.setSrc i v).layers = s.layers := rfl
@[simp] theorem State.setSrc_heads (s : State) (i : Nat) (v : Src) : (s.setSrc i v).heads = s.heads := rfl
@[simp] theorem State.setSrc_seals (s : State) (i : Nat) (v : Src) : (s.setSrc i v).seals = s.seals := rfl
@[simp] theorem State.setSrc_commits (s : State) (i : Nat) (v : Src) : (s.setSrc i v).commits = s.commits := rfl
@[simp] theorem State.setSrc_sweepMs (s : State) (i : Nat) (v : Src) : (s.setSrc i v).sweepMs = s.sweepMs := rfl
@[simp] theorem State.setSrc_sweepAt (s : State) (i : Nat) (v : Src) : (s.setSrc i v).sweepAt = s.sweepAt := rfl
@[simp] theorem State.setSrc_sweepNext (s : State) (i : Nat) (v : Src) : (s.setSrc i v).sweepNext = s.sweepNext := rfl
@[simp] theorem State.setSrc_snaps (s : State) (i : Nat) (v : Src) : (s.setSrc i v).snaps = s.snaps := rfl
@[simp] theorem State.setSrc_touch (s : State) (i : Nat) (v : Src) : (s.setSrc i v).touch = s.touch := rfl
@[simp] theorem State.setSrc_parts (s : State) (i : Nat) (v : Src) : (s.setSrc i v).parts = s.parts := rfl
@[simp] theorem State.setSrc_jobs (s : State) (i : Nat) (v : Src) : (s.setSrc i v).jobs = s.jobs := rfl
@[simp] theorem State.setSrc_nextJob (s : State) (i : Nat) (v : Src) : (s.setSrc i v).nextJob = s.nextJob := rfl
@[simp] theorem State.setSrc_nextFetch (s : State) (i : Nat) (v : Src) : (s.setSrc i v).nextFetch = s.nextFetch := rfl
@[simp] theorem State.setSrc_cpls (s : State) (i : Nat) (v : Src) : (s.setSrc i v).cpls = s.cpls := rfl
@[simp] theorem State.setSrc_srcs (s : State) (i : Nat) (v : Src) : (s.setSrc i v).srcs = tset (fun _ => {}) s.srcs i v := rfl
@[simp] theorem State.setSrc_desks (s : State) (i : Nat) (v : Src) : (s.setSrc i v).desks = s.desks := rfl
@[simp] theorem State.setSrc_evcStop (s : State) (i : Nat) (v : Src) : (s.setSrc i v).evcStop = s.evcStop := rfl
@[simp] theorem State.setSrc_chain (s : State) (i : Nat) (v : Src) : (s.setSrc i v).chain = s.chain := rfl
@[simp] theorem State.setSrc_rdn (s : State) (i : Nat) (v : Src) : (s.setSrc i v).rdn = s.rdn := rfl
@[simp] theorem State.setSrc_dce (s : State) (i : Nat) (v : Src) : (s.setSrc i v).dce = s.dce := rfl
@[simp] theorem State.setSrc_bands (s : State) (i : Nat) (v : Src) : (s.setSrc i v).bands = s.bands := rfl
@[simp] theorem State.setSrc_ckptWait (s : State) (i : Nat) (v : Src) : (s.setSrc i v).ckptWait = s.ckptWait := rfl
@[simp] theorem State.setSrc_crcu (s : State) (i : Nat) (v : Src) : (s.setSrc i v).crcu = s.crcu := rfl
@[simp] theorem State.setSrc_pwr (s : State) (i : Nat) (v : Src) : (s.setSrc i v).pwr = s.pwr := rfl
@[simp] theorem State.setSrc_drains (s : State) (i : Nat) (v : Src) : (s.setSrc i v).drains = s.drains := rfl
@[simp] theorem State.setSrc_heldAcc (s : State) (i : Nat) (v : Src) : (s.setSrc i v).heldAcc = s.heldAcc := rfl
@[simp] theorem State.setSrc_quiets (s : State) (i : Nat) (v : Src) : (s.setSrc i v).quiets = s.quiets := rfl
@[simp] theorem State.setSrc_glog (s : State) (i : Nat) (v : Src) : (s.setSrc i v).glog = s.glog := rfl
@[simp] theorem State.setSrc_lanesQd (s : State) (i : Nat) (v : Src) : (s.setSrc i v).lanesQd = s.lanesQd := rfl
@[simp] theorem State.setSrc_lockAt (s : State) (i : Nat) (v : Src) : (s.setSrc i v).lockAt = s.lockAt := rfl
@[simp] theorem State.setSrc_nonce (s : State) (i : Nat) (v : Src) : (s.setSrc i v).nonce = s.nonce := rfl
@[simp] theorem State.setSrc_token (s : State) (i : Nat) (v : Src) : (s.setSrc i v).token = s.token := rfl
@[simp] theorem State.setSrc_fuseOps (s : State) (i : Nat) (v : Src) : (s.setSrc i v).fuseOps = s.fuseOps := rfl
@[simp] theorem State.setSrc_outbox (s : State) (i : Nat) (v : Src) : (s.setSrc i v).outbox = s.outbox := rfl
@[simp] theorem State.setSrc_bus (s : State) (i : Nat) (v : Src) : (s.setSrc i v).bus = s.bus := rfl

/-! ### setDesk -/

@[simp] theorem State.setDesk_pending (s : State) (k : Nat) (v : Desk) : (s.setDesk k v).pending = s.pending := rfl
@[simp] theorem State.setDesk_free (s : State) (k : Nat) (v : Desk) : (s.setDesk k v).free = s.free := rfl
@[simp] theorem State.setDesk_island (s : State) (k : Nat) (v : Desk) : (s.setDesk k v).island = s.island := rfl
@[simp] theorem State.setDesk_ctl (s : State) (k : Nat) (v : Desk) : (s.setDesk k v).ctl = s.ctl := rfl
@[simp] theorem State.setDesk_fuses (s : State) (k : Nat) (v : Desk) : (s.setDesk k v).fuses = s.fuses := rfl
@[simp] theorem State.setDesk_straps (s : State) (k : Nat) (v : Desk) : (s.setDesk k v).straps = s.straps := rfl
@[simp] theorem State.setDesk_tbase (s : State) (k : Nat) (v : Desk) : (s.setDesk k v).tbase = s.tbase := rfl
@[simp] theorem State.setDesk_hold (s : State) (k : Nat) (v : Desk) : (s.setDesk k v).hold = s.hold := rfl
@[simp] theorem State.setDesk_regs (s : State) (k : Nat) (v : Desk) : (s.setDesk k v).regs = s.regs := rfl
@[simp] theorem State.setDesk_mem (s : State) (k : Nat) (v : Desk) : (s.setDesk k v).mem = s.mem := rfl
@[simp] theorem State.setDesk_tgs (s : State) (k : Nat) (v : Desk) : (s.setDesk k v).tgs = s.tgs := rfl
@[simp] theorem State.setDesk_flows (s : State) (k : Nat) (v : Desk) : (s.setDesk k v).flows = s.flows := rfl
@[simp] theorem State.setDesk_ctxs (s : State) (k : Nat) (v : Desk) : (s.setDesk k v).ctxs = s.ctxs := rfl
@[simp] theorem State.setDesk_egress (s : State) (k : Nat) (v : Desk) : (s.setDesk k v).egress = s.egress := rfl
@[simp] theorem State.setDesk_follows (s : State) (k : Nat) (v : Desk) : (s.setDesk k v).follows = s.follows := rfl
@[simp] theorem State.setDesk_ipp (s : State) (k : Nat) (v : Desk) : (s.setDesk k v).ipp = s.ipp := rfl
@[simp] theorem State.setDesk_encs (s : State) (k : Nat) (v : Desk) : (s.setDesk k v).encs = s.encs := rfl
@[simp] theorem State.setDesk_surfs (s : State) (k : Nat) (v : Desk) : (s.setDesk k v).surfs = s.surfs := rfl
@[simp] theorem State.setDesk_ledger (s : State) (k : Nat) (v : Desk) : (s.setDesk k v).ledger = s.ledger := rfl
@[simp] theorem State.setDesk_records (s : State) (k : Nat) (v : Desk) : (s.setDesk k v).records = s.records := rfl
@[simp] theorem State.setDesk_layers (s : State) (k : Nat) (v : Desk) : (s.setDesk k v).layers = s.layers := rfl
@[simp] theorem State.setDesk_heads (s : State) (k : Nat) (v : Desk) : (s.setDesk k v).heads = s.heads := rfl
@[simp] theorem State.setDesk_seals (s : State) (k : Nat) (v : Desk) : (s.setDesk k v).seals = s.seals := rfl
@[simp] theorem State.setDesk_commits (s : State) (k : Nat) (v : Desk) : (s.setDesk k v).commits = s.commits := rfl
@[simp] theorem State.setDesk_sweepMs (s : State) (k : Nat) (v : Desk) : (s.setDesk k v).sweepMs = s.sweepMs := rfl
@[simp] theorem State.setDesk_sweepAt (s : State) (k : Nat) (v : Desk) : (s.setDesk k v).sweepAt = s.sweepAt := rfl
@[simp] theorem State.setDesk_sweepNext (s : State) (k : Nat) (v : Desk) : (s.setDesk k v).sweepNext = s.sweepNext := rfl
@[simp] theorem State.setDesk_snaps (s : State) (k : Nat) (v : Desk) : (s.setDesk k v).snaps = s.snaps := rfl
@[simp] theorem State.setDesk_touch (s : State) (k : Nat) (v : Desk) : (s.setDesk k v).touch = s.touch := rfl
@[simp] theorem State.setDesk_parts (s : State) (k : Nat) (v : Desk) : (s.setDesk k v).parts = s.parts := rfl
@[simp] theorem State.setDesk_jobs (s : State) (k : Nat) (v : Desk) : (s.setDesk k v).jobs = s.jobs := rfl
@[simp] theorem State.setDesk_nextJob (s : State) (k : Nat) (v : Desk) : (s.setDesk k v).nextJob = s.nextJob := rfl
@[simp] theorem State.setDesk_nextFetch (s : State) (k : Nat) (v : Desk) : (s.setDesk k v).nextFetch = s.nextFetch := rfl
@[simp] theorem State.setDesk_cpls (s : State) (k : Nat) (v : Desk) : (s.setDesk k v).cpls = s.cpls := rfl
@[simp] theorem State.setDesk_srcs (s : State) (k : Nat) (v : Desk) : (s.setDesk k v).srcs = s.srcs := rfl
@[simp] theorem State.setDesk_desks (s : State) (k : Nat) (v : Desk) : (s.setDesk k v).desks = tset (fun _ => {}) s.desks k v := rfl
@[simp] theorem State.setDesk_evcStop (s : State) (k : Nat) (v : Desk) : (s.setDesk k v).evcStop = s.evcStop := rfl
@[simp] theorem State.setDesk_chain (s : State) (k : Nat) (v : Desk) : (s.setDesk k v).chain = s.chain := rfl
@[simp] theorem State.setDesk_rdn (s : State) (k : Nat) (v : Desk) : (s.setDesk k v).rdn = s.rdn := rfl
@[simp] theorem State.setDesk_dce (s : State) (k : Nat) (v : Desk) : (s.setDesk k v).dce = s.dce := rfl
@[simp] theorem State.setDesk_bands (s : State) (k : Nat) (v : Desk) : (s.setDesk k v).bands = s.bands := rfl
@[simp] theorem State.setDesk_ckptWait (s : State) (k : Nat) (v : Desk) : (s.setDesk k v).ckptWait = s.ckptWait := rfl
@[simp] theorem State.setDesk_crcu (s : State) (k : Nat) (v : Desk) : (s.setDesk k v).crcu = s.crcu := rfl
@[simp] theorem State.setDesk_pwr (s : State) (k : Nat) (v : Desk) : (s.setDesk k v).pwr = s.pwr := rfl
@[simp] theorem State.setDesk_drains (s : State) (k : Nat) (v : Desk) : (s.setDesk k v).drains = s.drains := rfl
@[simp] theorem State.setDesk_heldAcc (s : State) (k : Nat) (v : Desk) : (s.setDesk k v).heldAcc = s.heldAcc := rfl
@[simp] theorem State.setDesk_quiets (s : State) (k : Nat) (v : Desk) : (s.setDesk k v).quiets = s.quiets := rfl
@[simp] theorem State.setDesk_glog (s : State) (k : Nat) (v : Desk) : (s.setDesk k v).glog = s.glog := rfl
@[simp] theorem State.setDesk_lanesQd (s : State) (k : Nat) (v : Desk) : (s.setDesk k v).lanesQd = s.lanesQd := rfl
@[simp] theorem State.setDesk_lockAt (s : State) (k : Nat) (v : Desk) : (s.setDesk k v).lockAt = s.lockAt := rfl
@[simp] theorem State.setDesk_nonce (s : State) (k : Nat) (v : Desk) : (s.setDesk k v).nonce = s.nonce := rfl
@[simp] theorem State.setDesk_token (s : State) (k : Nat) (v : Desk) : (s.setDesk k v).token = s.token := rfl
@[simp] theorem State.setDesk_fuseOps (s : State) (k : Nat) (v : Desk) : (s.setDesk k v).fuseOps = s.fuseOps := rfl
@[simp] theorem State.setDesk_outbox (s : State) (k : Nat) (v : Desk) : (s.setDesk k v).outbox = s.outbox := rfl
@[simp] theorem State.setDesk_bus (s : State) (k : Nat) (v : Desk) : (s.setDesk k v).bus = s.bus := rfl

/-! ### setPort -/

@[simp] theorem State.setPort_pending (s : State) (p : Nat) (v : ChnPort) : (s.setPort p v).pending = s.pending := rfl
@[simp] theorem State.setPort_free (s : State) (p : Nat) (v : ChnPort) : (s.setPort p v).free = s.free := rfl
@[simp] theorem State.setPort_island (s : State) (p : Nat) (v : ChnPort) : (s.setPort p v).island = s.island := rfl
@[simp] theorem State.setPort_ctl (s : State) (p : Nat) (v : ChnPort) : (s.setPort p v).ctl = s.ctl := rfl
@[simp] theorem State.setPort_fuses (s : State) (p : Nat) (v : ChnPort) : (s.setPort p v).fuses = s.fuses := rfl
@[simp] theorem State.setPort_straps (s : State) (p : Nat) (v : ChnPort) : (s.setPort p v).straps = s.straps := rfl
@[simp] theorem State.setPort_tbase (s : State) (p : Nat) (v : ChnPort) : (s.setPort p v).tbase = s.tbase := rfl
@[simp] theorem State.setPort_hold (s : State) (p : Nat) (v : ChnPort) : (s.setPort p v).hold = s.hold := rfl
@[simp] theorem State.setPort_regs (s : State) (p : Nat) (v : ChnPort) : (s.setPort p v).regs = s.regs := rfl
@[simp] theorem State.setPort_mem (s : State) (p : Nat) (v : ChnPort) : (s.setPort p v).mem = s.mem := rfl
@[simp] theorem State.setPort_tgs (s : State) (p : Nat) (v : ChnPort) : (s.setPort p v).tgs = s.tgs := rfl
@[simp] theorem State.setPort_flows (s : State) (p : Nat) (v : ChnPort) : (s.setPort p v).flows = s.flows := rfl
@[simp] theorem State.setPort_ctxs (s : State) (p : Nat) (v : ChnPort) : (s.setPort p v).ctxs = s.ctxs := rfl
@[simp] theorem State.setPort_egress (s : State) (p : Nat) (v : ChnPort) : (s.setPort p v).egress = s.egress := rfl
@[simp] theorem State.setPort_follows (s : State) (p : Nat) (v : ChnPort) : (s.setPort p v).follows = s.follows := rfl
@[simp] theorem State.setPort_ipp (s : State) (p : Nat) (v : ChnPort) : (s.setPort p v).ipp = s.ipp := rfl
@[simp] theorem State.setPort_encs (s : State) (p : Nat) (v : ChnPort) : (s.setPort p v).encs = s.encs := rfl
@[simp] theorem State.setPort_surfs (s : State) (p : Nat) (v : ChnPort) : (s.setPort p v).surfs = s.surfs := rfl
@[simp] theorem State.setPort_ledger (s : State) (p : Nat) (v : ChnPort) : (s.setPort p v).ledger = s.ledger := rfl
@[simp] theorem State.setPort_records (s : State) (p : Nat) (v : ChnPort) : (s.setPort p v).records = s.records := rfl
@[simp] theorem State.setPort_layers (s : State) (p : Nat) (v : ChnPort) : (s.setPort p v).layers = s.layers := rfl
@[simp] theorem State.setPort_heads (s : State) (p : Nat) (v : ChnPort) : (s.setPort p v).heads = s.heads := rfl
@[simp] theorem State.setPort_seals (s : State) (p : Nat) (v : ChnPort) : (s.setPort p v).seals = s.seals := rfl
@[simp] theorem State.setPort_commits (s : State) (p : Nat) (v : ChnPort) : (s.setPort p v).commits = s.commits := rfl
@[simp] theorem State.setPort_sweepMs (s : State) (p : Nat) (v : ChnPort) : (s.setPort p v).sweepMs = s.sweepMs := rfl
@[simp] theorem State.setPort_sweepAt (s : State) (p : Nat) (v : ChnPort) : (s.setPort p v).sweepAt = s.sweepAt := rfl
@[simp] theorem State.setPort_sweepNext (s : State) (p : Nat) (v : ChnPort) : (s.setPort p v).sweepNext = s.sweepNext := rfl
@[simp] theorem State.setPort_snaps (s : State) (p : Nat) (v : ChnPort) : (s.setPort p v).snaps = s.snaps := rfl
@[simp] theorem State.setPort_touch (s : State) (p : Nat) (v : ChnPort) : (s.setPort p v).touch = s.touch := rfl
@[simp] theorem State.setPort_parts (s : State) (p : Nat) (v : ChnPort) : (s.setPort p v).parts = s.parts := rfl
@[simp] theorem State.setPort_jobs (s : State) (p : Nat) (v : ChnPort) : (s.setPort p v).jobs = s.jobs := rfl
@[simp] theorem State.setPort_nextJob (s : State) (p : Nat) (v : ChnPort) : (s.setPort p v).nextJob = s.nextJob := rfl
@[simp] theorem State.setPort_nextFetch (s : State) (p : Nat) (v : ChnPort) : (s.setPort p v).nextFetch = s.nextFetch := rfl
@[simp] theorem State.setPort_cpls (s : State) (p : Nat) (v : ChnPort) : (s.setPort p v).cpls = s.cpls := rfl
@[simp] theorem State.setPort_srcs (s : State) (p : Nat) (v : ChnPort) : (s.setPort p v).srcs = s.srcs := rfl
@[simp] theorem State.setPort_desks (s : State) (p : Nat) (v : ChnPort) : (s.setPort p v).desks = s.desks := rfl
@[simp] theorem State.setPort_evcStop (s : State) (p : Nat) (v : ChnPort) : (s.setPort p v).evcStop = s.evcStop := rfl
@[simp] theorem State.setPort_rdn (s : State) (p : Nat) (v : ChnPort) : (s.setPort p v).rdn = s.rdn := rfl
@[simp] theorem State.setPort_dce (s : State) (p : Nat) (v : ChnPort) : (s.setPort p v).dce = s.dce := rfl
@[simp] theorem State.setPort_bands (s : State) (p : Nat) (v : ChnPort) : (s.setPort p v).bands = s.bands := rfl
@[simp] theorem State.setPort_ckptWait (s : State) (p : Nat) (v : ChnPort) : (s.setPort p v).ckptWait = s.ckptWait := rfl
@[simp] theorem State.setPort_crcu (s : State) (p : Nat) (v : ChnPort) : (s.setPort p v).crcu = s.crcu := rfl
@[simp] theorem State.setPort_pwr (s : State) (p : Nat) (v : ChnPort) : (s.setPort p v).pwr = s.pwr := rfl
@[simp] theorem State.setPort_drains (s : State) (p : Nat) (v : ChnPort) : (s.setPort p v).drains = s.drains := rfl
@[simp] theorem State.setPort_heldAcc (s : State) (p : Nat) (v : ChnPort) : (s.setPort p v).heldAcc = s.heldAcc := rfl
@[simp] theorem State.setPort_quiets (s : State) (p : Nat) (v : ChnPort) : (s.setPort p v).quiets = s.quiets := rfl
@[simp] theorem State.setPort_glog (s : State) (p : Nat) (v : ChnPort) : (s.setPort p v).glog = s.glog := rfl
@[simp] theorem State.setPort_lanesQd (s : State) (p : Nat) (v : ChnPort) : (s.setPort p v).lanesQd = s.lanesQd := rfl
@[simp] theorem State.setPort_lockAt (s : State) (p : Nat) (v : ChnPort) : (s.setPort p v).lockAt = s.lockAt := rfl
@[simp] theorem State.setPort_nonce (s : State) (p : Nat) (v : ChnPort) : (s.setPort p v).nonce = s.nonce := rfl
@[simp] theorem State.setPort_token (s : State) (p : Nat) (v : ChnPort) : (s.setPort p v).token = s.token := rfl
@[simp] theorem State.setPort_fuseOps (s : State) (p : Nat) (v : ChnPort) : (s.setPort p v).fuseOps = s.fuseOps := rfl
@[simp] theorem State.setPort_outbox (s : State) (p : Nat) (v : ChnPort) : (s.setPort p v).outbox = s.outbox := rfl
@[simp] theorem State.setPort_bus (s : State) (p : Nat) (v : ChnPort) : (s.setPort p v).bus = s.bus := rfl

/-! ### setPeer -/

@[simp] theorem State.setPeer_pending (s : State) (a : Nat) (v : Peer) : (s.setPeer a v).pending = s.pending := rfl
@[simp] theorem State.setPeer_free (s : State) (a : Nat) (v : Peer) : (s.setPeer a v).free = s.free := rfl
@[simp] theorem State.setPeer_island (s : State) (a : Nat) (v : Peer) : (s.setPeer a v).island = s.island := rfl
@[simp] theorem State.setPeer_ctl (s : State) (a : Nat) (v : Peer) : (s.setPeer a v).ctl = s.ctl := rfl
@[simp] theorem State.setPeer_fuses (s : State) (a : Nat) (v : Peer) : (s.setPeer a v).fuses = s.fuses := rfl
@[simp] theorem State.setPeer_straps (s : State) (a : Nat) (v : Peer) : (s.setPeer a v).straps = s.straps := rfl
@[simp] theorem State.setPeer_tbase (s : State) (a : Nat) (v : Peer) : (s.setPeer a v).tbase = s.tbase := rfl
@[simp] theorem State.setPeer_hold (s : State) (a : Nat) (v : Peer) : (s.setPeer a v).hold = s.hold := rfl
@[simp] theorem State.setPeer_regs (s : State) (a : Nat) (v : Peer) : (s.setPeer a v).regs = s.regs := rfl
@[simp] theorem State.setPeer_mem (s : State) (a : Nat) (v : Peer) : (s.setPeer a v).mem = s.mem := rfl
@[simp] theorem State.setPeer_tgs (s : State) (a : Nat) (v : Peer) : (s.setPeer a v).tgs = s.tgs := rfl
@[simp] theorem State.setPeer_flows (s : State) (a : Nat) (v : Peer) : (s.setPeer a v).flows = s.flows := rfl
@[simp] theorem State.setPeer_ctxs (s : State) (a : Nat) (v : Peer) : (s.setPeer a v).ctxs = s.ctxs := rfl
@[simp] theorem State.setPeer_egress (s : State) (a : Nat) (v : Peer) : (s.setPeer a v).egress = s.egress := rfl
@[simp] theorem State.setPeer_follows (s : State) (a : Nat) (v : Peer) : (s.setPeer a v).follows = s.follows := rfl
@[simp] theorem State.setPeer_ipp (s : State) (a : Nat) (v : Peer) : (s.setPeer a v).ipp = s.ipp := rfl
@[simp] theorem State.setPeer_encs (s : State) (a : Nat) (v : Peer) : (s.setPeer a v).encs = s.encs := rfl
@[simp] theorem State.setPeer_surfs (s : State) (a : Nat) (v : Peer) : (s.setPeer a v).surfs = s.surfs := rfl
@[simp] theorem State.setPeer_ledger (s : State) (a : Nat) (v : Peer) : (s.setPeer a v).ledger = s.ledger := rfl
@[simp] theorem State.setPeer_records (s : State) (a : Nat) (v : Peer) : (s.setPeer a v).records = s.records := rfl
@[simp] theorem State.setPeer_layers (s : State) (a : Nat) (v : Peer) : (s.setPeer a v).layers = s.layers := rfl
@[simp] theorem State.setPeer_heads (s : State) (a : Nat) (v : Peer) : (s.setPeer a v).heads = s.heads := rfl
@[simp] theorem State.setPeer_seals (s : State) (a : Nat) (v : Peer) : (s.setPeer a v).seals = s.seals := rfl
@[simp] theorem State.setPeer_commits (s : State) (a : Nat) (v : Peer) : (s.setPeer a v).commits = s.commits := rfl
@[simp] theorem State.setPeer_sweepMs (s : State) (a : Nat) (v : Peer) : (s.setPeer a v).sweepMs = s.sweepMs := rfl
@[simp] theorem State.setPeer_sweepAt (s : State) (a : Nat) (v : Peer) : (s.setPeer a v).sweepAt = s.sweepAt := rfl
@[simp] theorem State.setPeer_sweepNext (s : State) (a : Nat) (v : Peer) : (s.setPeer a v).sweepNext = s.sweepNext := rfl
@[simp] theorem State.setPeer_snaps (s : State) (a : Nat) (v : Peer) : (s.setPeer a v).snaps = s.snaps := rfl
@[simp] theorem State.setPeer_touch (s : State) (a : Nat) (v : Peer) : (s.setPeer a v).touch = s.touch := rfl
@[simp] theorem State.setPeer_parts (s : State) (a : Nat) (v : Peer) : (s.setPeer a v).parts = s.parts := rfl
@[simp] theorem State.setPeer_jobs (s : State) (a : Nat) (v : Peer) : (s.setPeer a v).jobs = s.jobs := rfl
@[simp] theorem State.setPeer_nextJob (s : State) (a : Nat) (v : Peer) : (s.setPeer a v).nextJob = s.nextJob := rfl
@[simp] theorem State.setPeer_nextFetch (s : State) (a : Nat) (v : Peer) : (s.setPeer a v).nextFetch = s.nextFetch := rfl
@[simp] theorem State.setPeer_cpls (s : State) (a : Nat) (v : Peer) : (s.setPeer a v).cpls = s.cpls := rfl
@[simp] theorem State.setPeer_srcs (s : State) (a : Nat) (v : Peer) : (s.setPeer a v).srcs = s.srcs := rfl
@[simp] theorem State.setPeer_desks (s : State) (a : Nat) (v : Peer) : (s.setPeer a v).desks = s.desks := rfl
@[simp] theorem State.setPeer_evcStop (s : State) (a : Nat) (v : Peer) : (s.setPeer a v).evcStop = s.evcStop := rfl
@[simp] theorem State.setPeer_rdn (s : State) (a : Nat) (v : Peer) : (s.setPeer a v).rdn = s.rdn := rfl
@[simp] theorem State.setPeer_dce (s : State) (a : Nat) (v : Peer) : (s.setPeer a v).dce = s.dce := rfl
@[simp] theorem State.setPeer_bands (s : State) (a : Nat) (v : Peer) : (s.setPeer a v).bands = s.bands := rfl
@[simp] theorem State.setPeer_ckptWait (s : State) (a : Nat) (v : Peer) : (s.setPeer a v).ckptWait = s.ckptWait := rfl
@[simp] theorem State.setPeer_crcu (s : State) (a : Nat) (v : Peer) : (s.setPeer a v).crcu = s.crcu := rfl
@[simp] theorem State.setPeer_pwr (s : State) (a : Nat) (v : Peer) : (s.setPeer a v).pwr = s.pwr := rfl
@[simp] theorem State.setPeer_drains (s : State) (a : Nat) (v : Peer) : (s.setPeer a v).drains = s.drains := rfl
@[simp] theorem State.setPeer_heldAcc (s : State) (a : Nat) (v : Peer) : (s.setPeer a v).heldAcc = s.heldAcc := rfl
@[simp] theorem State.setPeer_quiets (s : State) (a : Nat) (v : Peer) : (s.setPeer a v).quiets = s.quiets := rfl
@[simp] theorem State.setPeer_glog (s : State) (a : Nat) (v : Peer) : (s.setPeer a v).glog = s.glog := rfl
@[simp] theorem State.setPeer_lanesQd (s : State) (a : Nat) (v : Peer) : (s.setPeer a v).lanesQd = s.lanesQd := rfl
@[simp] theorem State.setPeer_lockAt (s : State) (a : Nat) (v : Peer) : (s.setPeer a v).lockAt = s.lockAt := rfl
@[simp] theorem State.setPeer_nonce (s : State) (a : Nat) (v : Peer) : (s.setPeer a v).nonce = s.nonce := rfl
@[simp] theorem State.setPeer_token (s : State) (a : Nat) (v : Peer) : (s.setPeer a v).token = s.token := rfl
@[simp] theorem State.setPeer_fuseOps (s : State) (a : Nat) (v : Peer) : (s.setPeer a v).fuseOps = s.fuseOps := rfl
@[simp] theorem State.setPeer_outbox (s : State) (a : Nat) (v : Peer) : (s.setPeer a v).outbox = s.outbox := rfl
@[simp] theorem State.setPeer_bus (s : State) (a : Nat) (v : Peer) : (s.setPeer a v).bus = s.bus := rfl

/-! ### setTxStream -/

@[simp] theorem State.setTxStream_pending (s : State) (i : Nat) (v : TxSlot) : (s.setTxStream i v).pending = s.pending := rfl
@[simp] theorem State.setTxStream_free (s : State) (i : Nat) (v : TxSlot) : (s.setTxStream i v).free = s.free := rfl
@[simp] theorem State.setTxStream_island (s : State) (i : Nat) (v : TxSlot) : (s.setTxStream i v).island = s.island := rfl
@[simp] theorem State.setTxStream_ctl (s : State) (i : Nat) (v : TxSlot) : (s.setTxStream i v).ctl = s.ctl := rfl
@[simp] theorem State.setTxStream_fuses (s : State) (i : Nat) (v : TxSlot) : (s.setTxStream i v).fuses = s.fuses := rfl
@[simp] theorem State.setTxStream_straps (s : State) (i : Nat) (v : TxSlot) : (s.setTxStream i v).straps = s.straps := rfl
@[simp] theorem State.setTxStream_tbase (s : State) (i : Nat) (v : TxSlot) : (s.setTxStream i v).tbase = s.tbase := rfl
@[simp] theorem State.setTxStream_hold (s : State) (i : Nat) (v : TxSlot) : (s.setTxStream i v).hold = s.hold := rfl
@[simp] theorem State.setTxStream_regs (s : State) (i : Nat) (v : TxSlot) : (s.setTxStream i v).regs = s.regs := rfl
@[simp] theorem State.setTxStream_mem (s : State) (i : Nat) (v : TxSlot) : (s.setTxStream i v).mem = s.mem := rfl
@[simp] theorem State.setTxStream_tgs (s : State) (i : Nat) (v : TxSlot) : (s.setTxStream i v).tgs = s.tgs := rfl
@[simp] theorem State.setTxStream_flows (s : State) (i : Nat) (v : TxSlot) : (s.setTxStream i v).flows = s.flows := rfl
@[simp] theorem State.setTxStream_ctxs (s : State) (i : Nat) (v : TxSlot) : (s.setTxStream i v).ctxs = s.ctxs := rfl
@[simp] theorem State.setTxStream_egress (s : State) (i : Nat) (v : TxSlot) : (s.setTxStream i v).egress = s.egress := rfl
@[simp] theorem State.setTxStream_follows (s : State) (i : Nat) (v : TxSlot) : (s.setTxStream i v).follows = s.follows := rfl
@[simp] theorem State.setTxStream_ipp (s : State) (i : Nat) (v : TxSlot) : (s.setTxStream i v).ipp = s.ipp := rfl
@[simp] theorem State.setTxStream_encs (s : State) (i : Nat) (v : TxSlot) : (s.setTxStream i v).encs = s.encs := rfl
@[simp] theorem State.setTxStream_surfs (s : State) (i : Nat) (v : TxSlot) : (s.setTxStream i v).surfs = s.surfs := rfl
@[simp] theorem State.setTxStream_ledger (s : State) (i : Nat) (v : TxSlot) : (s.setTxStream i v).ledger = s.ledger := rfl
@[simp] theorem State.setTxStream_records (s : State) (i : Nat) (v : TxSlot) : (s.setTxStream i v).records = s.records := rfl
@[simp] theorem State.setTxStream_layers (s : State) (i : Nat) (v : TxSlot) : (s.setTxStream i v).layers = s.layers := rfl
@[simp] theorem State.setTxStream_heads (s : State) (i : Nat) (v : TxSlot) : (s.setTxStream i v).heads = s.heads := rfl
@[simp] theorem State.setTxStream_seals (s : State) (i : Nat) (v : TxSlot) : (s.setTxStream i v).seals = s.seals := rfl
@[simp] theorem State.setTxStream_commits (s : State) (i : Nat) (v : TxSlot) : (s.setTxStream i v).commits = s.commits := rfl
@[simp] theorem State.setTxStream_sweepMs (s : State) (i : Nat) (v : TxSlot) : (s.setTxStream i v).sweepMs = s.sweepMs := rfl
@[simp] theorem State.setTxStream_sweepAt (s : State) (i : Nat) (v : TxSlot) : (s.setTxStream i v).sweepAt = s.sweepAt := rfl
@[simp] theorem State.setTxStream_sweepNext (s : State) (i : Nat) (v : TxSlot) : (s.setTxStream i v).sweepNext = s.sweepNext := rfl
@[simp] theorem State.setTxStream_snaps (s : State) (i : Nat) (v : TxSlot) : (s.setTxStream i v).snaps = s.snaps := rfl
@[simp] theorem State.setTxStream_touch (s : State) (i : Nat) (v : TxSlot) : (s.setTxStream i v).touch = s.touch := rfl
@[simp] theorem State.setTxStream_parts (s : State) (i : Nat) (v : TxSlot) : (s.setTxStream i v).parts = s.parts := rfl
@[simp] theorem State.setTxStream_jobs (s : State) (i : Nat) (v : TxSlot) : (s.setTxStream i v).jobs = s.jobs := rfl
@[simp] theorem State.setTxStream_nextJob (s : State) (i : Nat) (v : TxSlot) : (s.setTxStream i v).nextJob = s.nextJob := rfl
@[simp] theorem State.setTxStream_nextFetch (s : State) (i : Nat) (v : TxSlot) : (s.setTxStream i v).nextFetch = s.nextFetch := rfl
@[simp] theorem State.setTxStream_cpls (s : State) (i : Nat) (v : TxSlot) : (s.setTxStream i v).cpls = s.cpls := rfl
@[simp] theorem State.setTxStream_srcs (s : State) (i : Nat) (v : TxSlot) : (s.setTxStream i v).srcs = s.srcs := rfl
@[simp] theorem State.setTxStream_desks (s : State) (i : Nat) (v : TxSlot) : (s.setTxStream i v).desks = s.desks := rfl
@[simp] theorem State.setTxStream_evcStop (s : State) (i : Nat) (v : TxSlot) : (s.setTxStream i v).evcStop = s.evcStop := rfl
@[simp] theorem State.setTxStream_rdn (s : State) (i : Nat) (v : TxSlot) : (s.setTxStream i v).rdn = s.rdn := rfl
@[simp] theorem State.setTxStream_dce (s : State) (i : Nat) (v : TxSlot) : (s.setTxStream i v).dce = s.dce := rfl
@[simp] theorem State.setTxStream_bands (s : State) (i : Nat) (v : TxSlot) : (s.setTxStream i v).bands = s.bands := rfl
@[simp] theorem State.setTxStream_ckptWait (s : State) (i : Nat) (v : TxSlot) : (s.setTxStream i v).ckptWait = s.ckptWait := rfl
@[simp] theorem State.setTxStream_crcu (s : State) (i : Nat) (v : TxSlot) : (s.setTxStream i v).crcu = s.crcu := rfl
@[simp] theorem State.setTxStream_pwr (s : State) (i : Nat) (v : TxSlot) : (s.setTxStream i v).pwr = s.pwr := rfl
@[simp] theorem State.setTxStream_drains (s : State) (i : Nat) (v : TxSlot) : (s.setTxStream i v).drains = s.drains := rfl
@[simp] theorem State.setTxStream_heldAcc (s : State) (i : Nat) (v : TxSlot) : (s.setTxStream i v).heldAcc = s.heldAcc := rfl
@[simp] theorem State.setTxStream_quiets (s : State) (i : Nat) (v : TxSlot) : (s.setTxStream i v).quiets = s.quiets := rfl
@[simp] theorem State.setTxStream_glog (s : State) (i : Nat) (v : TxSlot) : (s.setTxStream i v).glog = s.glog := rfl
@[simp] theorem State.setTxStream_lanesQd (s : State) (i : Nat) (v : TxSlot) : (s.setTxStream i v).lanesQd = s.lanesQd := rfl
@[simp] theorem State.setTxStream_lockAt (s : State) (i : Nat) (v : TxSlot) : (s.setTxStream i v).lockAt = s.lockAt := rfl
@[simp] theorem State.setTxStream_nonce (s : State) (i : Nat) (v : TxSlot) : (s.setTxStream i v).nonce = s.nonce := rfl
@[simp] theorem State.setTxStream_token (s : State) (i : Nat) (v : TxSlot) : (s.setTxStream i v).token = s.token := rfl
@[simp] theorem State.setTxStream_fuseOps (s : State) (i : Nat) (v : TxSlot) : (s.setTxStream i v).fuseOps = s.fuseOps := rfl
@[simp] theorem State.setTxStream_outbox (s : State) (i : Nat) (v : TxSlot) : (s.setTxStream i v).outbox = s.outbox := rfl
@[simp] theorem State.setTxStream_bus (s : State) (i : Nat) (v : TxSlot) : (s.setTxStream i v).bus = s.bus := rfl

/-! ### setTxSurf -/

@[simp] theorem State.setTxSurf_pending (s : State) (i : Nat) (v : TxSlot) : (s.setTxSurf i v).pending = s.pending := rfl
@[simp] theorem State.setTxSurf_free (s : State) (i : Nat) (v : TxSlot) : (s.setTxSurf i v).free = s.free := rfl
@[simp] theorem State.setTxSurf_island (s : State) (i : Nat) (v : TxSlot) : (s.setTxSurf i v).island = s.island := rfl
@[simp] theorem State.setTxSurf_ctl (s : State) (i : Nat) (v : TxSlot) : (s.setTxSurf i v).ctl = s.ctl := rfl
@[simp] theorem State.setTxSurf_fuses (s : State) (i : Nat) (v : TxSlot) : (s.setTxSurf i v).fuses = s.fuses := rfl
@[simp] theorem State.setTxSurf_straps (s : State) (i : Nat) (v : TxSlot) : (s.setTxSurf i v).straps = s.straps := rfl
@[simp] theorem State.setTxSurf_tbase (s : State) (i : Nat) (v : TxSlot) : (s.setTxSurf i v).tbase = s.tbase := rfl
@[simp] theorem State.setTxSurf_hold (s : State) (i : Nat) (v : TxSlot) : (s.setTxSurf i v).hold = s.hold := rfl
@[simp] theorem State.setTxSurf_regs (s : State) (i : Nat) (v : TxSlot) : (s.setTxSurf i v).regs = s.regs := rfl
@[simp] theorem State.setTxSurf_mem (s : State) (i : Nat) (v : TxSlot) : (s.setTxSurf i v).mem = s.mem := rfl
@[simp] theorem State.setTxSurf_tgs (s : State) (i : Nat) (v : TxSlot) : (s.setTxSurf i v).tgs = s.tgs := rfl
@[simp] theorem State.setTxSurf_flows (s : State) (i : Nat) (v : TxSlot) : (s.setTxSurf i v).flows = s.flows := rfl
@[simp] theorem State.setTxSurf_ctxs (s : State) (i : Nat) (v : TxSlot) : (s.setTxSurf i v).ctxs = s.ctxs := rfl
@[simp] theorem State.setTxSurf_egress (s : State) (i : Nat) (v : TxSlot) : (s.setTxSurf i v).egress = s.egress := rfl
@[simp] theorem State.setTxSurf_follows (s : State) (i : Nat) (v : TxSlot) : (s.setTxSurf i v).follows = s.follows := rfl
@[simp] theorem State.setTxSurf_ipp (s : State) (i : Nat) (v : TxSlot) : (s.setTxSurf i v).ipp = s.ipp := rfl
@[simp] theorem State.setTxSurf_encs (s : State) (i : Nat) (v : TxSlot) : (s.setTxSurf i v).encs = s.encs := rfl
@[simp] theorem State.setTxSurf_surfs (s : State) (i : Nat) (v : TxSlot) : (s.setTxSurf i v).surfs = s.surfs := rfl
@[simp] theorem State.setTxSurf_ledger (s : State) (i : Nat) (v : TxSlot) : (s.setTxSurf i v).ledger = s.ledger := rfl
@[simp] theorem State.setTxSurf_records (s : State) (i : Nat) (v : TxSlot) : (s.setTxSurf i v).records = s.records := rfl
@[simp] theorem State.setTxSurf_layers (s : State) (i : Nat) (v : TxSlot) : (s.setTxSurf i v).layers = s.layers := rfl
@[simp] theorem State.setTxSurf_heads (s : State) (i : Nat) (v : TxSlot) : (s.setTxSurf i v).heads = s.heads := rfl
@[simp] theorem State.setTxSurf_seals (s : State) (i : Nat) (v : TxSlot) : (s.setTxSurf i v).seals = s.seals := rfl
@[simp] theorem State.setTxSurf_commits (s : State) (i : Nat) (v : TxSlot) : (s.setTxSurf i v).commits = s.commits := rfl
@[simp] theorem State.setTxSurf_sweepMs (s : State) (i : Nat) (v : TxSlot) : (s.setTxSurf i v).sweepMs = s.sweepMs := rfl
@[simp] theorem State.setTxSurf_sweepAt (s : State) (i : Nat) (v : TxSlot) : (s.setTxSurf i v).sweepAt = s.sweepAt := rfl
@[simp] theorem State.setTxSurf_sweepNext (s : State) (i : Nat) (v : TxSlot) : (s.setTxSurf i v).sweepNext = s.sweepNext := rfl
@[simp] theorem State.setTxSurf_snaps (s : State) (i : Nat) (v : TxSlot) : (s.setTxSurf i v).snaps = s.snaps := rfl
@[simp] theorem State.setTxSurf_touch (s : State) (i : Nat) (v : TxSlot) : (s.setTxSurf i v).touch = s.touch := rfl
@[simp] theorem State.setTxSurf_parts (s : State) (i : Nat) (v : TxSlot) : (s.setTxSurf i v).parts = s.parts := rfl
@[simp] theorem State.setTxSurf_jobs (s : State) (i : Nat) (v : TxSlot) : (s.setTxSurf i v).jobs = s.jobs := rfl
@[simp] theorem State.setTxSurf_nextJob (s : State) (i : Nat) (v : TxSlot) : (s.setTxSurf i v).nextJob = s.nextJob := rfl
@[simp] theorem State.setTxSurf_nextFetch (s : State) (i : Nat) (v : TxSlot) : (s.setTxSurf i v).nextFetch = s.nextFetch := rfl
@[simp] theorem State.setTxSurf_cpls (s : State) (i : Nat) (v : TxSlot) : (s.setTxSurf i v).cpls = s.cpls := rfl
@[simp] theorem State.setTxSurf_srcs (s : State) (i : Nat) (v : TxSlot) : (s.setTxSurf i v).srcs = s.srcs := rfl
@[simp] theorem State.setTxSurf_desks (s : State) (i : Nat) (v : TxSlot) : (s.setTxSurf i v).desks = s.desks := rfl
@[simp] theorem State.setTxSurf_evcStop (s : State) (i : Nat) (v : TxSlot) : (s.setTxSurf i v).evcStop = s.evcStop := rfl
@[simp] theorem State.setTxSurf_rdn (s : State) (i : Nat) (v : TxSlot) : (s.setTxSurf i v).rdn = s.rdn := rfl
@[simp] theorem State.setTxSurf_dce (s : State) (i : Nat) (v : TxSlot) : (s.setTxSurf i v).dce = s.dce := rfl
@[simp] theorem State.setTxSurf_bands (s : State) (i : Nat) (v : TxSlot) : (s.setTxSurf i v).bands = s.bands := rfl
@[simp] theorem State.setTxSurf_ckptWait (s : State) (i : Nat) (v : TxSlot) : (s.setTxSurf i v).ckptWait = s.ckptWait := rfl
@[simp] theorem State.setTxSurf_crcu (s : State) (i : Nat) (v : TxSlot) : (s.setTxSurf i v).crcu = s.crcu := rfl
@[simp] theorem State.setTxSurf_pwr (s : State) (i : Nat) (v : TxSlot) : (s.setTxSurf i v).pwr = s.pwr := rfl
@[simp] theorem State.setTxSurf_drains (s : State) (i : Nat) (v : TxSlot) : (s.setTxSurf i v).drains = s.drains := rfl
@[simp] theorem State.setTxSurf_heldAcc (s : State) (i : Nat) (v : TxSlot) : (s.setTxSurf i v).heldAcc = s.heldAcc := rfl
@[simp] theorem State.setTxSurf_quiets (s : State) (i : Nat) (v : TxSlot) : (s.setTxSurf i v).quiets = s.quiets := rfl
@[simp] theorem State.setTxSurf_glog (s : State) (i : Nat) (v : TxSlot) : (s.setTxSurf i v).glog = s.glog := rfl
@[simp] theorem State.setTxSurf_lanesQd (s : State) (i : Nat) (v : TxSlot) : (s.setTxSurf i v).lanesQd = s.lanesQd := rfl
@[simp] theorem State.setTxSurf_lockAt (s : State) (i : Nat) (v : TxSlot) : (s.setTxSurf i v).lockAt = s.lockAt := rfl
@[simp] theorem State.setTxSurf_nonce (s : State) (i : Nat) (v : TxSlot) : (s.setTxSurf i v).nonce = s.nonce := rfl
@[simp] theorem State.setTxSurf_token (s : State) (i : Nat) (v : TxSlot) : (s.setTxSurf i v).token = s.token := rfl
@[simp] theorem State.setTxSurf_fuseOps (s : State) (i : Nat) (v : TxSlot) : (s.setTxSurf i v).fuseOps = s.fuseOps := rfl
@[simp] theorem State.setTxSurf_outbox (s : State) (i : Nat) (v : TxSlot) : (s.setTxSurf i v).outbox = s.outbox := rfl
@[simp] theorem State.setTxSurf_bus (s : State) (i : Nat) (v : TxSlot) : (s.setTxSurf i v).bus = s.bus := rfl

/-! ### setRxSurf -/

@[simp] theorem State.setRxSurf_pending (s : State) (i : Nat) (v : RxSlot) : (s.setRxSurf i v).pending = s.pending := rfl
@[simp] theorem State.setRxSurf_free (s : State) (i : Nat) (v : RxSlot) : (s.setRxSurf i v).free = s.free := rfl
@[simp] theorem State.setRxSurf_island (s : State) (i : Nat) (v : RxSlot) : (s.setRxSurf i v).island = s.island := rfl
@[simp] theorem State.setRxSurf_ctl (s : State) (i : Nat) (v : RxSlot) : (s.setRxSurf i v).ctl = s.ctl := rfl
@[simp] theorem State.setRxSurf_fuses (s : State) (i : Nat) (v : RxSlot) : (s.setRxSurf i v).fuses = s.fuses := rfl
@[simp] theorem State.setRxSurf_straps (s : State) (i : Nat) (v : RxSlot) : (s.setRxSurf i v).straps = s.straps := rfl
@[simp] theorem State.setRxSurf_tbase (s : State) (i : Nat) (v : RxSlot) : (s.setRxSurf i v).tbase = s.tbase := rfl
@[simp] theorem State.setRxSurf_hold (s : State) (i : Nat) (v : RxSlot) : (s.setRxSurf i v).hold = s.hold := rfl
@[simp] theorem State.setRxSurf_regs (s : State) (i : Nat) (v : RxSlot) : (s.setRxSurf i v).regs = s.regs := rfl
@[simp] theorem State.setRxSurf_mem (s : State) (i : Nat) (v : RxSlot) : (s.setRxSurf i v).mem = s.mem := rfl
@[simp] theorem State.setRxSurf_tgs (s : State) (i : Nat) (v : RxSlot) : (s.setRxSurf i v).tgs = s.tgs := rfl
@[simp] theorem State.setRxSurf_flows (s : State) (i : Nat) (v : RxSlot) : (s.setRxSurf i v).flows = s.flows := rfl
@[simp] theorem State.setRxSurf_ctxs (s : State) (i : Nat) (v : RxSlot) : (s.setRxSurf i v).ctxs = s.ctxs := rfl
@[simp] theorem State.setRxSurf_egress (s : State) (i : Nat) (v : RxSlot) : (s.setRxSurf i v).egress = s.egress := rfl
@[simp] theorem State.setRxSurf_follows (s : State) (i : Nat) (v : RxSlot) : (s.setRxSurf i v).follows = s.follows := rfl
@[simp] theorem State.setRxSurf_ipp (s : State) (i : Nat) (v : RxSlot) : (s.setRxSurf i v).ipp = s.ipp := rfl
@[simp] theorem State.setRxSurf_encs (s : State) (i : Nat) (v : RxSlot) : (s.setRxSurf i v).encs = s.encs := rfl
@[simp] theorem State.setRxSurf_surfs (s : State) (i : Nat) (v : RxSlot) : (s.setRxSurf i v).surfs = s.surfs := rfl
@[simp] theorem State.setRxSurf_ledger (s : State) (i : Nat) (v : RxSlot) : (s.setRxSurf i v).ledger = s.ledger := rfl
@[simp] theorem State.setRxSurf_records (s : State) (i : Nat) (v : RxSlot) : (s.setRxSurf i v).records = s.records := rfl
@[simp] theorem State.setRxSurf_layers (s : State) (i : Nat) (v : RxSlot) : (s.setRxSurf i v).layers = s.layers := rfl
@[simp] theorem State.setRxSurf_heads (s : State) (i : Nat) (v : RxSlot) : (s.setRxSurf i v).heads = s.heads := rfl
@[simp] theorem State.setRxSurf_seals (s : State) (i : Nat) (v : RxSlot) : (s.setRxSurf i v).seals = s.seals := rfl
@[simp] theorem State.setRxSurf_commits (s : State) (i : Nat) (v : RxSlot) : (s.setRxSurf i v).commits = s.commits := rfl
@[simp] theorem State.setRxSurf_sweepMs (s : State) (i : Nat) (v : RxSlot) : (s.setRxSurf i v).sweepMs = s.sweepMs := rfl
@[simp] theorem State.setRxSurf_sweepAt (s : State) (i : Nat) (v : RxSlot) : (s.setRxSurf i v).sweepAt = s.sweepAt := rfl
@[simp] theorem State.setRxSurf_sweepNext (s : State) (i : Nat) (v : RxSlot) : (s.setRxSurf i v).sweepNext = s.sweepNext := rfl
@[simp] theorem State.setRxSurf_snaps (s : State) (i : Nat) (v : RxSlot) : (s.setRxSurf i v).snaps = s.snaps := rfl
@[simp] theorem State.setRxSurf_touch (s : State) (i : Nat) (v : RxSlot) : (s.setRxSurf i v).touch = s.touch := rfl
@[simp] theorem State.setRxSurf_parts (s : State) (i : Nat) (v : RxSlot) : (s.setRxSurf i v).parts = s.parts := rfl
@[simp] theorem State.setRxSurf_jobs (s : State) (i : Nat) (v : RxSlot) : (s.setRxSurf i v).jobs = s.jobs := rfl
@[simp] theorem State.setRxSurf_nextJob (s : State) (i : Nat) (v : RxSlot) : (s.setRxSurf i v).nextJob = s.nextJob := rfl
@[simp] theorem State.setRxSurf_nextFetch (s : State) (i : Nat) (v : RxSlot) : (s.setRxSurf i v).nextFetch = s.nextFetch := rfl
@[simp] theorem State.setRxSurf_cpls (s : State) (i : Nat) (v : RxSlot) : (s.setRxSurf i v).cpls = s.cpls := rfl
@[simp] theorem State.setRxSurf_srcs (s : State) (i : Nat) (v : RxSlot) : (s.setRxSurf i v).srcs = s.srcs := rfl
@[simp] theorem State.setRxSurf_desks (s : State) (i : Nat) (v : RxSlot) : (s.setRxSurf i v).desks = s.desks := rfl
@[simp] theorem State.setRxSurf_evcStop (s : State) (i : Nat) (v : RxSlot) : (s.setRxSurf i v).evcStop = s.evcStop := rfl
@[simp] theorem State.setRxSurf_rdn (s : State) (i : Nat) (v : RxSlot) : (s.setRxSurf i v).rdn = s.rdn := rfl
@[simp] theorem State.setRxSurf_dce (s : State) (i : Nat) (v : RxSlot) : (s.setRxSurf i v).dce = s.dce := rfl
@[simp] theorem State.setRxSurf_bands (s : State) (i : Nat) (v : RxSlot) : (s.setRxSurf i v).bands = s.bands := rfl
@[simp] theorem State.setRxSurf_ckptWait (s : State) (i : Nat) (v : RxSlot) : (s.setRxSurf i v).ckptWait = s.ckptWait := rfl
@[simp] theorem State.setRxSurf_crcu (s : State) (i : Nat) (v : RxSlot) : (s.setRxSurf i v).crcu = s.crcu := rfl
@[simp] theorem State.setRxSurf_pwr (s : State) (i : Nat) (v : RxSlot) : (s.setRxSurf i v).pwr = s.pwr := rfl
@[simp] theorem State.setRxSurf_drains (s : State) (i : Nat) (v : RxSlot) : (s.setRxSurf i v).drains = s.drains := rfl
@[simp] theorem State.setRxSurf_heldAcc (s : State) (i : Nat) (v : RxSlot) : (s.setRxSurf i v).heldAcc = s.heldAcc := rfl
@[simp] theorem State.setRxSurf_quiets (s : State) (i : Nat) (v : RxSlot) : (s.setRxSurf i v).quiets = s.quiets := rfl
@[simp] theorem State.setRxSurf_glog (s : State) (i : Nat) (v : RxSlot) : (s.setRxSurf i v).glog = s.glog := rfl
@[simp] theorem State.setRxSurf_lanesQd (s : State) (i : Nat) (v : RxSlot) : (s.setRxSurf i v).lanesQd = s.lanesQd := rfl
@[simp] theorem State.setRxSurf_lockAt (s : State) (i : Nat) (v : RxSlot) : (s.setRxSurf i v).lockAt = s.lockAt := rfl
@[simp] theorem State.setRxSurf_nonce (s : State) (i : Nat) (v : RxSlot) : (s.setRxSurf i v).nonce = s.nonce := rfl
@[simp] theorem State.setRxSurf_token (s : State) (i : Nat) (v : RxSlot) : (s.setRxSurf i v).token = s.token := rfl
@[simp] theorem State.setRxSurf_fuseOps (s : State) (i : Nat) (v : RxSlot) : (s.setRxSurf i v).fuseOps = s.fuseOps := rfl
@[simp] theorem State.setRxSurf_outbox (s : State) (i : Nat) (v : RxSlot) : (s.setRxSurf i v).outbox = s.outbox := rfl
@[simp] theorem State.setRxSurf_bus (s : State) (i : Nat) (v : RxSlot) : (s.setRxSurf i v).bus = s.bus := rfl

/-! ### setDceW -/

@[simp] theorem State.setDceW_pending (s : State) (e : Nat) (v : Option DceWork) : (s.setDceW e v).pending = s.pending := rfl
@[simp] theorem State.setDceW_free (s : State) (e : Nat) (v : Option DceWork) : (s.setDceW e v).free = s.free := rfl
@[simp] theorem State.setDceW_island (s : State) (e : Nat) (v : Option DceWork) : (s.setDceW e v).island = s.island := rfl
@[simp] theorem State.setDceW_ctl (s : State) (e : Nat) (v : Option DceWork) : (s.setDceW e v).ctl = s.ctl := rfl
@[simp] theorem State.setDceW_fuses (s : State) (e : Nat) (v : Option DceWork) : (s.setDceW e v).fuses = s.fuses := rfl
@[simp] theorem State.setDceW_straps (s : State) (e : Nat) (v : Option DceWork) : (s.setDceW e v).straps = s.straps := rfl
@[simp] theorem State.setDceW_tbase (s : State) (e : Nat) (v : Option DceWork) : (s.setDceW e v).tbase = s.tbase := rfl
@[simp] theorem State.setDceW_hold (s : State) (e : Nat) (v : Option DceWork) : (s.setDceW e v).hold = s.hold := rfl
@[simp] theorem State.setDceW_regs (s : State) (e : Nat) (v : Option DceWork) : (s.setDceW e v).regs = s.regs := rfl
@[simp] theorem State.setDceW_mem (s : State) (e : Nat) (v : Option DceWork) : (s.setDceW e v).mem = s.mem := rfl
@[simp] theorem State.setDceW_tgs (s : State) (e : Nat) (v : Option DceWork) : (s.setDceW e v).tgs = s.tgs := rfl
@[simp] theorem State.setDceW_flows (s : State) (e : Nat) (v : Option DceWork) : (s.setDceW e v).flows = s.flows := rfl
@[simp] theorem State.setDceW_ctxs (s : State) (e : Nat) (v : Option DceWork) : (s.setDceW e v).ctxs = s.ctxs := rfl
@[simp] theorem State.setDceW_egress (s : State) (e : Nat) (v : Option DceWork) : (s.setDceW e v).egress = s.egress := rfl
@[simp] theorem State.setDceW_follows (s : State) (e : Nat) (v : Option DceWork) : (s.setDceW e v).follows = s.follows := rfl
@[simp] theorem State.setDceW_ipp (s : State) (e : Nat) (v : Option DceWork) : (s.setDceW e v).ipp = s.ipp := rfl
@[simp] theorem State.setDceW_encs (s : State) (e : Nat) (v : Option DceWork) : (s.setDceW e v).encs = s.encs := rfl
@[simp] theorem State.setDceW_surfs (s : State) (e : Nat) (v : Option DceWork) : (s.setDceW e v).surfs = s.surfs := rfl
@[simp] theorem State.setDceW_ledger (s : State) (e : Nat) (v : Option DceWork) : (s.setDceW e v).ledger = s.ledger := rfl
@[simp] theorem State.setDceW_records (s : State) (e : Nat) (v : Option DceWork) : (s.setDceW e v).records = s.records := rfl
@[simp] theorem State.setDceW_layers (s : State) (e : Nat) (v : Option DceWork) : (s.setDceW e v).layers = s.layers := rfl
@[simp] theorem State.setDceW_heads (s : State) (e : Nat) (v : Option DceWork) : (s.setDceW e v).heads = s.heads := rfl
@[simp] theorem State.setDceW_seals (s : State) (e : Nat) (v : Option DceWork) : (s.setDceW e v).seals = s.seals := rfl
@[simp] theorem State.setDceW_commits (s : State) (e : Nat) (v : Option DceWork) : (s.setDceW e v).commits = s.commits := rfl
@[simp] theorem State.setDceW_sweepMs (s : State) (e : Nat) (v : Option DceWork) : (s.setDceW e v).sweepMs = s.sweepMs := rfl
@[simp] theorem State.setDceW_sweepAt (s : State) (e : Nat) (v : Option DceWork) : (s.setDceW e v).sweepAt = s.sweepAt := rfl
@[simp] theorem State.setDceW_sweepNext (s : State) (e : Nat) (v : Option DceWork) : (s.setDceW e v).sweepNext = s.sweepNext := rfl
@[simp] theorem State.setDceW_snaps (s : State) (e : Nat) (v : Option DceWork) : (s.setDceW e v).snaps = s.snaps := rfl
@[simp] theorem State.setDceW_touch (s : State) (e : Nat) (v : Option DceWork) : (s.setDceW e v).touch = s.touch := rfl
@[simp] theorem State.setDceW_parts (s : State) (e : Nat) (v : Option DceWork) : (s.setDceW e v).parts = s.parts := rfl
@[simp] theorem State.setDceW_jobs (s : State) (e : Nat) (v : Option DceWork) : (s.setDceW e v).jobs = s.jobs := rfl
@[simp] theorem State.setDceW_nextJob (s : State) (e : Nat) (v : Option DceWork) : (s.setDceW e v).nextJob = s.nextJob := rfl
@[simp] theorem State.setDceW_nextFetch (s : State) (e : Nat) (v : Option DceWork) : (s.setDceW e v).nextFetch = s.nextFetch := rfl
@[simp] theorem State.setDceW_cpls (s : State) (e : Nat) (v : Option DceWork) : (s.setDceW e v).cpls = s.cpls := rfl
@[simp] theorem State.setDceW_srcs (s : State) (e : Nat) (v : Option DceWork) : (s.setDceW e v).srcs = s.srcs := rfl
@[simp] theorem State.setDceW_desks (s : State) (e : Nat) (v : Option DceWork) : (s.setDceW e v).desks = s.desks := rfl
@[simp] theorem State.setDceW_evcStop (s : State) (e : Nat) (v : Option DceWork) : (s.setDceW e v).evcStop = s.evcStop := rfl
@[simp] theorem State.setDceW_chain (s : State) (e : Nat) (v : Option DceWork) : (s.setDceW e v).chain = s.chain := rfl
@[simp] theorem State.setDceW_rdn (s : State) (e : Nat) (v : Option DceWork) : (s.setDceW e v).rdn = s.rdn := rfl
@[simp] theorem State.setDceW_dce (s : State) (e : Nat) (v : Option DceWork) : (s.setDceW e v).dce = tset (fun _ => none) s.dce e v := rfl
@[simp] theorem State.setDceW_bands (s : State) (e : Nat) (v : Option DceWork) : (s.setDceW e v).bands = s.bands := rfl
@[simp] theorem State.setDceW_ckptWait (s : State) (e : Nat) (v : Option DceWork) : (s.setDceW e v).ckptWait = s.ckptWait := rfl
@[simp] theorem State.setDceW_crcu (s : State) (e : Nat) (v : Option DceWork) : (s.setDceW e v).crcu = s.crcu := rfl
@[simp] theorem State.setDceW_pwr (s : State) (e : Nat) (v : Option DceWork) : (s.setDceW e v).pwr = s.pwr := rfl
@[simp] theorem State.setDceW_drains (s : State) (e : Nat) (v : Option DceWork) : (s.setDceW e v).drains = s.drains := rfl
@[simp] theorem State.setDceW_heldAcc (s : State) (e : Nat) (v : Option DceWork) : (s.setDceW e v).heldAcc = s.heldAcc := rfl
@[simp] theorem State.setDceW_quiets (s : State) (e : Nat) (v : Option DceWork) : (s.setDceW e v).quiets = s.quiets := rfl
@[simp] theorem State.setDceW_glog (s : State) (e : Nat) (v : Option DceWork) : (s.setDceW e v).glog = s.glog := rfl
@[simp] theorem State.setDceW_lanesQd (s : State) (e : Nat) (v : Option DceWork) : (s.setDceW e v).lanesQd = s.lanesQd := rfl
@[simp] theorem State.setDceW_lockAt (s : State) (e : Nat) (v : Option DceWork) : (s.setDceW e v).lockAt = s.lockAt := rfl
@[simp] theorem State.setDceW_nonce (s : State) (e : Nat) (v : Option DceWork) : (s.setDceW e v).nonce = s.nonce := rfl
@[simp] theorem State.setDceW_token (s : State) (e : Nat) (v : Option DceWork) : (s.setDceW e v).token = s.token := rfl
@[simp] theorem State.setDceW_fuseOps (s : State) (e : Nat) (v : Option DceWork) : (s.setDceW e v).fuseOps = s.fuseOps := rfl
@[simp] theorem State.setDceW_outbox (s : State) (e : Nat) (v : Option DceWork) : (s.setDceW e v).outbox = s.outbox := rfl
@[simp] theorem State.setDceW_bus (s : State) (e : Nat) (v : Option DceWork) : (s.setDceW e v).bus = s.bus := rfl

/-! ### setCrcW -/

@[simp] theorem State.setCrcW_pending (s : State) (u : Nat) (v : Option Nat) : (s.setCrcW u v).pending = s.pending := rfl
@[simp] theorem State.setCrcW_free (s : State) (u : Nat) (v : Option Nat) : (s.setCrcW u v).free = s.free := rfl
@[simp] theorem State.setCrcW_island (s : State) (u : Nat) (v : Option Nat) : (s.setCrcW u v).island = s.island := rfl
@[simp] theorem State.setCrcW_ctl (s : State) (u : Nat) (v : Option Nat) : (s.setCrcW u v).ctl = s.ctl := rfl
@[simp] theorem State.setCrcW_fuses (s : State) (u : Nat) (v : Option Nat) : (s.setCrcW u v).fuses = s.fuses := rfl
@[simp] theorem State.setCrcW_straps (s : State) (u : Nat) (v : Option Nat) : (s.setCrcW u v).straps = s.straps := rfl
@[simp] theorem State.setCrcW_tbase (s : State) (u : Nat) (v : Option Nat) : (s.setCrcW u v).tbase = s.tbase := rfl
@[simp] theorem State.setCrcW_hold (s : State) (u : Nat) (v : Option Nat) : (s.setCrcW u v).hold = s.hold := rfl
@[simp] theorem State.setCrcW_regs (s : State) (u : Nat) (v : Option Nat) : (s.setCrcW u v).regs = s.regs := rfl
@[simp] theorem State.setCrcW_mem (s : State) (u : Nat) (v : Option Nat) : (s.setCrcW u v).mem = s.mem := rfl
@[simp] theorem State.setCrcW_tgs (s : State) (u : Nat) (v : Option Nat) : (s.setCrcW u v).tgs = s.tgs := rfl
@[simp] theorem State.setCrcW_flows (s : State) (u : Nat) (v : Option Nat) : (s.setCrcW u v).flows = s.flows := rfl
@[simp] theorem State.setCrcW_ctxs (s : State) (u : Nat) (v : Option Nat) : (s.setCrcW u v).ctxs = s.ctxs := rfl
@[simp] theorem State.setCrcW_egress (s : State) (u : Nat) (v : Option Nat) : (s.setCrcW u v).egress = s.egress := rfl
@[simp] theorem State.setCrcW_follows (s : State) (u : Nat) (v : Option Nat) : (s.setCrcW u v).follows = s.follows := rfl
@[simp] theorem State.setCrcW_ipp (s : State) (u : Nat) (v : Option Nat) : (s.setCrcW u v).ipp = s.ipp := rfl
@[simp] theorem State.setCrcW_encs (s : State) (u : Nat) (v : Option Nat) : (s.setCrcW u v).encs = s.encs := rfl
@[simp] theorem State.setCrcW_surfs (s : State) (u : Nat) (v : Option Nat) : (s.setCrcW u v).surfs = s.surfs := rfl
@[simp] theorem State.setCrcW_ledger (s : State) (u : Nat) (v : Option Nat) : (s.setCrcW u v).ledger = s.ledger := rfl
@[simp] theorem State.setCrcW_records (s : State) (u : Nat) (v : Option Nat) : (s.setCrcW u v).records = s.records := rfl
@[simp] theorem State.setCrcW_layers (s : State) (u : Nat) (v : Option Nat) : (s.setCrcW u v).layers = s.layers := rfl
@[simp] theorem State.setCrcW_heads (s : State) (u : Nat) (v : Option Nat) : (s.setCrcW u v).heads = s.heads := rfl
@[simp] theorem State.setCrcW_seals (s : State) (u : Nat) (v : Option Nat) : (s.setCrcW u v).seals = s.seals := rfl
@[simp] theorem State.setCrcW_commits (s : State) (u : Nat) (v : Option Nat) : (s.setCrcW u v).commits = s.commits := rfl
@[simp] theorem State.setCrcW_sweepMs (s : State) (u : Nat) (v : Option Nat) : (s.setCrcW u v).sweepMs = s.sweepMs := rfl
@[simp] theorem State.setCrcW_sweepAt (s : State) (u : Nat) (v : Option Nat) : (s.setCrcW u v).sweepAt = s.sweepAt := rfl
@[simp] theorem State.setCrcW_sweepNext (s : State) (u : Nat) (v : Option Nat) : (s.setCrcW u v).sweepNext = s.sweepNext := rfl
@[simp] theorem State.setCrcW_snaps (s : State) (u : Nat) (v : Option Nat) : (s.setCrcW u v).snaps = s.snaps := rfl
@[simp] theorem State.setCrcW_touch (s : State) (u : Nat) (v : Option Nat) : (s.setCrcW u v).touch = s.touch := rfl
@[simp] theorem State.setCrcW_parts (s : State) (u : Nat) (v : Option Nat) : (s.setCrcW u v).parts = s.parts := rfl
@[simp] theorem State.setCrcW_jobs (s : State) (u : Nat) (v : Option Nat) : (s.setCrcW u v).jobs = s.jobs := rfl
@[simp] theorem State.setCrcW_nextJob (s : State) (u : Nat) (v : Option Nat) : (s.setCrcW u v).nextJob = s.nextJob := rfl
@[simp] theorem State.setCrcW_nextFetch (s : State) (u : Nat) (v : Option Nat) : (s.setCrcW u v).nextFetch = s.nextFetch := rfl
@[simp] theorem State.setCrcW_cpls (s : State) (u : Nat) (v : Option Nat) : (s.setCrcW u v).cpls = s.cpls := rfl
@[simp] theorem State.setCrcW_srcs (s : State) (u : Nat) (v : Option Nat) : (s.setCrcW u v).srcs = s.srcs := rfl
@[simp] theorem State.setCrcW_desks (s : State) (u : Nat) (v : Option Nat) : (s.setCrcW u v).desks = s.desks := rfl
@[simp] theorem State.setCrcW_evcStop (s : State) (u : Nat) (v : Option Nat) : (s.setCrcW u v).evcStop = s.evcStop := rfl
@[simp] theorem State.setCrcW_chain (s : State) (u : Nat) (v : Option Nat) : (s.setCrcW u v).chain = s.chain := rfl
@[simp] theorem State.setCrcW_rdn (s : State) (u : Nat) (v : Option Nat) : (s.setCrcW u v).rdn = s.rdn := rfl
@[simp] theorem State.setCrcW_dce (s : State) (u : Nat) (v : Option Nat) : (s.setCrcW u v).dce = s.dce := rfl
@[simp] theorem State.setCrcW_bands (s : State) (u : Nat) (v : Option Nat) : (s.setCrcW u v).bands = s.bands := rfl
@[simp] theorem State.setCrcW_ckptWait (s : State) (u : Nat) (v : Option Nat) : (s.setCrcW u v).ckptWait = s.ckptWait := rfl
@[simp] theorem State.setCrcW_crcu (s : State) (u : Nat) (v : Option Nat) : (s.setCrcW u v).crcu = tset (fun _ => none) s.crcu u v := rfl
@[simp] theorem State.setCrcW_pwr (s : State) (u : Nat) (v : Option Nat) : (s.setCrcW u v).pwr = s.pwr := rfl
@[simp] theorem State.setCrcW_drains (s : State) (u : Nat) (v : Option Nat) : (s.setCrcW u v).drains = s.drains := rfl
@[simp] theorem State.setCrcW_heldAcc (s : State) (u : Nat) (v : Option Nat) : (s.setCrcW u v).heldAcc = s.heldAcc := rfl
@[simp] theorem State.setCrcW_quiets (s : State) (u : Nat) (v : Option Nat) : (s.setCrcW u v).quiets = s.quiets := rfl
@[simp] theorem State.setCrcW_glog (s : State) (u : Nat) (v : Option Nat) : (s.setCrcW u v).glog = s.glog := rfl
@[simp] theorem State.setCrcW_lanesQd (s : State) (u : Nat) (v : Option Nat) : (s.setCrcW u v).lanesQd = s.lanesQd := rfl
@[simp] theorem State.setCrcW_lockAt (s : State) (u : Nat) (v : Option Nat) : (s.setCrcW u v).lockAt = s.lockAt := rfl
@[simp] theorem State.setCrcW_nonce (s : State) (u : Nat) (v : Option Nat) : (s.setCrcW u v).nonce = s.nonce := rfl
@[simp] theorem State.setCrcW_token (s : State) (u : Nat) (v : Option Nat) : (s.setCrcW u v).token = s.token := rfl
@[simp] theorem State.setCrcW_fuseOps (s : State) (u : Nat) (v : Option Nat) : (s.setCrcW u v).fuseOps = s.fuseOps := rfl
@[simp] theorem State.setCrcW_outbox (s : State) (u : Nat) (v : Option Nat) : (s.setCrcW u v).outbox = s.outbox := rfl
@[simp] theorem State.setCrcW_bus (s : State) (u : Nat) (v : Option Nat) : (s.setCrcW u v).bus = s.bus := rfl

/-! ### draw -/

@[simp] theorem State.draw_pending (s : State) : (s.draw).pending = s.pending := rfl
@[simp] theorem State.draw_free (s : State) : (s.draw).free = s.free + 1 := rfl
@[simp] theorem State.draw_island (s : State) : (s.draw).island = s.island := rfl
@[simp] theorem State.draw_ctl (s : State) : (s.draw).ctl = s.ctl := rfl
@[simp] theorem State.draw_fuses (s : State) : (s.draw).fuses = s.fuses := rfl
@[simp] theorem State.draw_straps (s : State) : (s.draw).straps = s.straps := rfl
@[simp] theorem State.draw_tbase (s : State) : (s.draw).tbase = s.tbase := rfl
@[simp] theorem State.draw_hold (s : State) : (s.draw).hold = s.hold := rfl
@[simp] theorem State.draw_regs (s : State) : (s.draw).regs = s.regs := rfl
@[simp] theorem State.draw_mem (s : State) : (s.draw).mem = s.mem := rfl
@[simp] theorem State.draw_tgs (s : State) : (s.draw).tgs = s.tgs := rfl
@[simp] theorem State.draw_flows (s : State) : (s.draw).flows = s.flows := rfl
@[simp] theorem State.draw_ctxs (s : State) : (s.draw).ctxs = s.ctxs := rfl
@[simp] theorem State.draw_egress (s : State) : (s.draw).egress = s.egress := rfl
@[simp] theorem State.draw_follows (s : State) : (s.draw).follows = s.follows := rfl
@[simp] theorem State.draw_ipp (s : State) : (s.draw).ipp = s.ipp := rfl
@[simp] theorem State.draw_encs (s : State) : (s.draw).encs = s.encs := rfl
@[simp] theorem State.draw_surfs (s : State) : (s.draw).surfs = s.surfs := rfl
@[simp] theorem State.draw_ledger (s : State) : (s.draw).ledger = s.ledger := rfl
@[simp] theorem State.draw_records (s : State) : (s.draw).records = s.records := rfl
@[simp] theorem State.draw_layers (s : State) : (s.draw).layers = s.layers := rfl
@[simp] theorem State.draw_heads (s : State) : (s.draw).heads = s.heads := rfl
@[simp] theorem State.draw_seals (s : State) : (s.draw).seals = s.seals := rfl
@[simp] theorem State.draw_commits (s : State) : (s.draw).commits = s.commits := rfl
@[simp] theorem State.draw_sweepMs (s : State) : (s.draw).sweepMs = s.sweepMs := rfl
@[simp] theorem State.draw_sweepAt (s : State) : (s.draw).sweepAt = s.sweepAt := rfl
@[simp] theorem State.draw_sweepNext (s : State) : (s.draw).sweepNext = s.sweepNext := rfl
@[simp] theorem State.draw_snaps (s : State) : (s.draw).snaps = s.snaps := rfl
@[simp] theorem State.draw_touch (s : State) : (s.draw).touch = s.touch := rfl
@[simp] theorem State.draw_parts (s : State) : (s.draw).parts = s.parts := rfl
@[simp] theorem State.draw_jobs (s : State) : (s.draw).jobs = s.jobs := rfl
@[simp] theorem State.draw_nextJob (s : State) : (s.draw).nextJob = s.nextJob := rfl
@[simp] theorem State.draw_nextFetch (s : State) : (s.draw).nextFetch = s.nextFetch := rfl
@[simp] theorem State.draw_cpls (s : State) : (s.draw).cpls = s.cpls := rfl
@[simp] theorem State.draw_srcs (s : State) : (s.draw).srcs = s.srcs := rfl
@[simp] theorem State.draw_desks (s : State) : (s.draw).desks = s.desks := rfl
@[simp] theorem State.draw_evcStop (s : State) : (s.draw).evcStop = s.evcStop := rfl
@[simp] theorem State.draw_chain (s : State) : (s.draw).chain = s.chain := rfl
@[simp] theorem State.draw_rdn (s : State) : (s.draw).rdn = s.rdn := rfl
@[simp] theorem State.draw_dce (s : State) : (s.draw).dce = s.dce := rfl
@[simp] theorem State.draw_bands (s : State) : (s.draw).bands = s.bands := rfl
@[simp] theorem State.draw_ckptWait (s : State) : (s.draw).ckptWait = s.ckptWait := rfl
@[simp] theorem State.draw_crcu (s : State) : (s.draw).crcu = s.crcu := rfl
@[simp] theorem State.draw_pwr (s : State) : (s.draw).pwr = s.pwr := rfl
@[simp] theorem State.draw_drains (s : State) : (s.draw).drains = s.drains := rfl
@[simp] theorem State.draw_heldAcc (s : State) : (s.draw).heldAcc = s.heldAcc := rfl
@[simp] theorem State.draw_quiets (s : State) : (s.draw).quiets = s.quiets := rfl
@[simp] theorem State.draw_glog (s : State) : (s.draw).glog = s.glog := rfl
@[simp] theorem State.draw_lanesQd (s : State) : (s.draw).lanesQd = s.lanesQd := rfl
@[simp] theorem State.draw_lockAt (s : State) : (s.draw).lockAt = s.lockAt := rfl
@[simp] theorem State.draw_nonce (s : State) : (s.draw).nonce = s.nonce := rfl
@[simp] theorem State.draw_token (s : State) : (s.draw).token = s.token := rfl
@[simp] theorem State.draw_fuseOps (s : State) : (s.draw).fuseOps = s.fuseOps := rfl
@[simp] theorem State.draw_outbox (s : State) : (s.draw).outbox = s.outbox := rfl
@[simp] theorem State.draw_bus (s : State) : (s.draw).bus = s.bus := rfl

/-! ### emit -/

@[simp] theorem State.emit_pending (s : State) (o : Out) : (s.emit o).pending = s.pending := rfl
@[simp] theorem State.emit_free (s : State) (o : Out) : (s.emit o).free = s.free := rfl
@[simp] theorem State.emit_island (s : State) (o : Out) : (s.emit o).island = s.island := rfl
@[simp] theorem State.emit_ctl (s : State) (o : Out) : (s.emit o).ctl = s.ctl := rfl
@[simp] theorem State.emit_fuses (s : State) (o : Out) : (s.emit o).fuses = s.fuses := rfl
@[simp] theorem State.emit_straps (s : State) (o : Out) : (s.emit o).straps = s.straps := rfl
@[simp] theorem State.emit_tbase (s : State) (o : Out) : (s.emit o).tbase = s.tbase := rfl
@[simp] theorem State.emit_hold (s : State) (o : Out) : (s.emit o).hold = s.hold := rfl
@[simp] theorem State.emit_regs (s : State) (o : Out) : (s.emit o).regs = s.regs := rfl
@[simp] theorem State.emit_mem (s : State) (o : Out) : (s.emit o).mem = s.mem := rfl
@[simp] theorem State.emit_tgs (s : State) (o : Out) : (s.emit o).tgs = s.tgs := rfl
@[simp] theorem State.emit_flows (s : State) (o : Out) : (s.emit o).flows = s.flows := rfl
@[simp] theorem State.emit_ctxs (s : State) (o : Out) : (s.emit o).ctxs = s.ctxs := rfl
@[simp] theorem State.emit_egress (s : State) (o : Out) : (s.emit o).egress = s.egress := rfl
@[simp] theorem State.emit_follows (s : State) (o : Out) : (s.emit o).follows = s.follows := rfl
@[simp] theorem State.emit_ipp (s : State) (o : Out) : (s.emit o).ipp = s.ipp := rfl
@[simp] theorem State.emit_encs (s : State) (o : Out) : (s.emit o).encs = s.encs := rfl
@[simp] theorem State.emit_surfs (s : State) (o : Out) : (s.emit o).surfs = s.surfs := rfl
@[simp] theorem State.emit_ledger (s : State) (o : Out) : (s.emit o).ledger = s.ledger := rfl
@[simp] theorem State.emit_records (s : State) (o : Out) : (s.emit o).records = s.records := rfl
@[simp] theorem State.emit_layers (s : State) (o : Out) : (s.emit o).layers = s.layers := rfl
@[simp] theorem State.emit_heads (s : State) (o : Out) : (s.emit o).heads = s.heads := rfl
@[simp] theorem State.emit_seals (s : State) (o : Out) : (s.emit o).seals = s.seals := rfl
@[simp] theorem State.emit_commits (s : State) (o : Out) : (s.emit o).commits = s.commits := rfl
@[simp] theorem State.emit_sweepMs (s : State) (o : Out) : (s.emit o).sweepMs = s.sweepMs := rfl
@[simp] theorem State.emit_sweepAt (s : State) (o : Out) : (s.emit o).sweepAt = s.sweepAt := rfl
@[simp] theorem State.emit_sweepNext (s : State) (o : Out) : (s.emit o).sweepNext = s.sweepNext := rfl
@[simp] theorem State.emit_snaps (s : State) (o : Out) : (s.emit o).snaps = s.snaps := rfl
@[simp] theorem State.emit_touch (s : State) (o : Out) : (s.emit o).touch = s.touch := rfl
@[simp] theorem State.emit_parts (s : State) (o : Out) : (s.emit o).parts = s.parts := rfl
@[simp] theorem State.emit_jobs (s : State) (o : Out) : (s.emit o).jobs = s.jobs := rfl
@[simp] theorem State.emit_nextJob (s : State) (o : Out) : (s.emit o).nextJob = s.nextJob := rfl
@[simp] theorem State.emit_nextFetch (s : State) (o : Out) : (s.emit o).nextFetch = s.nextFetch := rfl
@[simp] theorem State.emit_cpls (s : State) (o : Out) : (s.emit o).cpls = s.cpls := rfl
@[simp] theorem State.emit_srcs (s : State) (o : Out) : (s.emit o).srcs = s.srcs := rfl
@[simp] theorem State.emit_desks (s : State) (o : Out) : (s.emit o).desks = s.desks := rfl
@[simp] theorem State.emit_evcStop (s : State) (o : Out) : (s.emit o).evcStop = s.evcStop := rfl
@[simp] theorem State.emit_chain (s : State) (o : Out) : (s.emit o).chain = s.chain := rfl
@[simp] theorem State.emit_rdn (s : State) (o : Out) : (s.emit o).rdn = s.rdn := rfl
@[simp] theorem State.emit_dce (s : State) (o : Out) : (s.emit o).dce = s.dce := rfl
@[simp] theorem State.emit_bands (s : State) (o : Out) : (s.emit o).bands = s.bands := rfl
@[simp] theorem State.emit_ckptWait (s : State) (o : Out) : (s.emit o).ckptWait = s.ckptWait := rfl
@[simp] theorem State.emit_crcu (s : State) (o : Out) : (s.emit o).crcu = s.crcu := rfl
@[simp] theorem State.emit_pwr (s : State) (o : Out) : (s.emit o).pwr = s.pwr := rfl
@[simp] theorem State.emit_drains (s : State) (o : Out) : (s.emit o).drains = s.drains := rfl
@[simp] theorem State.emit_heldAcc (s : State) (o : Out) : (s.emit o).heldAcc = s.heldAcc := rfl
@[simp] theorem State.emit_quiets (s : State) (o : Out) : (s.emit o).quiets = s.quiets := rfl
@[simp] theorem State.emit_glog (s : State) (o : Out) : (s.emit o).glog = s.glog := rfl
@[simp] theorem State.emit_lanesQd (s : State) (o : Out) : (s.emit o).lanesQd = s.lanesQd := rfl
@[simp] theorem State.emit_lockAt (s : State) (o : Out) : (s.emit o).lockAt = s.lockAt := rfl
@[simp] theorem State.emit_nonce (s : State) (o : Out) : (s.emit o).nonce = s.nonce := rfl
@[simp] theorem State.emit_token (s : State) (o : Out) : (s.emit o).token = s.token := rfl
@[simp] theorem State.emit_fuseOps (s : State) (o : Out) : (s.emit o).fuseOps = s.fuseOps := rfl
@[simp] theorem State.emit_outbox (s : State) (o : Out) : (s.emit o).outbox = s.outbox ++ [o] := rfl
@[simp] theorem State.emit_bus (s : State) (o : Out) : (s.emit o).bus = s.bus := rfl

/-! ### answer -/

@[simp] theorem State.answer_pending (s : State) (bs : Bytes) (e : Option Exc) : (s.answer bs e).pending = s.pending := rfl
@[simp] theorem State.answer_free (s : State) (bs : Bytes) (e : Option Exc) : (s.answer bs e).free = s.free := rfl
@[simp] theorem State.answer_island (s : State) (bs : Bytes) (e : Option Exc) : (s.answer bs e).island = s.island := rfl
@[simp] theorem State.answer_ctl (s : State) (bs : Bytes) (e : Option Exc) : (s.answer bs e).ctl = s.ctl := rfl
@[simp] theorem State.answer_fuses (s : State) (bs : Bytes) (e : Option Exc) : (s.answer bs e).fuses = s.fuses := rfl
@[simp] theorem State.answer_straps (s : State) (bs : Bytes) (e : Option Exc) : (s.answer bs e).straps = s.straps := rfl
@[simp] theorem State.answer_tbase (s : State) (bs : Bytes) (e : Option Exc) : (s.answer bs e).tbase = s.tbase := rfl
@[simp] theorem State.answer_hold (s : State) (bs : Bytes) (e : Option Exc) : (s.answer bs e).hold = s.hold := rfl
@[simp] theorem State.answer_regs (s : State) (bs : Bytes) (e : Option Exc) : (s.answer bs e).regs = s.regs := rfl
@[simp] theorem State.answer_mem (s : State) (bs : Bytes) (e : Option Exc) : (s.answer bs e).mem = s.mem := rfl
@[simp] theorem State.answer_tgs (s : State) (bs : Bytes) (e : Option Exc) : (s.answer bs e).tgs = s.tgs := rfl
@[simp] theorem State.answer_flows (s : State) (bs : Bytes) (e : Option Exc) : (s.answer bs e).flows = s.flows := rfl
@[simp] theorem State.answer_ctxs (s : State) (bs : Bytes) (e : Option Exc) : (s.answer bs e).ctxs = s.ctxs := rfl
@[simp] theorem State.answer_egress (s : State) (bs : Bytes) (e : Option Exc) : (s.answer bs e).egress = s.egress := rfl
@[simp] theorem State.answer_follows (s : State) (bs : Bytes) (e : Option Exc) : (s.answer bs e).follows = s.follows := rfl
@[simp] theorem State.answer_ipp (s : State) (bs : Bytes) (e : Option Exc) : (s.answer bs e).ipp = s.ipp := rfl
@[simp] theorem State.answer_encs (s : State) (bs : Bytes) (e : Option Exc) : (s.answer bs e).encs = s.encs := rfl
@[simp] theorem State.answer_surfs (s : State) (bs : Bytes) (e : Option Exc) : (s.answer bs e).surfs = s.surfs := rfl
@[simp] theorem State.answer_ledger (s : State) (bs : Bytes) (e : Option Exc) : (s.answer bs e).ledger = s.ledger := rfl
@[simp] theorem State.answer_records (s : State) (bs : Bytes) (e : Option Exc) : (s.answer bs e).records = s.records := rfl
@[simp] theorem State.answer_layers (s : State) (bs : Bytes) (e : Option Exc) : (s.answer bs e).layers = s.layers := rfl
@[simp] theorem State.answer_heads (s : State) (bs : Bytes) (e : Option Exc) : (s.answer bs e).heads = s.heads := rfl
@[simp] theorem State.answer_seals (s : State) (bs : Bytes) (e : Option Exc) : (s.answer bs e).seals = s.seals := rfl
@[simp] theorem State.answer_commits (s : State) (bs : Bytes) (e : Option Exc) : (s.answer bs e).commits = s.commits := rfl
@[simp] theorem State.answer_sweepMs (s : State) (bs : Bytes) (e : Option Exc) : (s.answer bs e).sweepMs = s.sweepMs := rfl
@[simp] theorem State.answer_sweepAt (s : State) (bs : Bytes) (e : Option Exc) : (s.answer bs e).sweepAt = s.sweepAt := rfl
@[simp] theorem State.answer_sweepNext (s : State) (bs : Bytes) (e : Option Exc) : (s.answer bs e).sweepNext = s.sweepNext := rfl
@[simp] theorem State.answer_snaps (s : State) (bs : Bytes) (e : Option Exc) : (s.answer bs e).snaps = s.snaps := rfl
@[simp] theorem State.answer_touch (s : State) (bs : Bytes) (e : Option Exc) : (s.answer bs e).touch = s.touch := rfl
@[simp] theorem State.answer_parts (s : State) (bs : Bytes) (e : Option Exc) : (s.answer bs e).parts = s.parts := rfl
@[simp] theorem State.answer_jobs (s : State) (bs : Bytes) (e : Option Exc) : (s.answer bs e).jobs = s.jobs := rfl
@[simp] theorem State.answer_nextJob (s : State) (bs : Bytes) (e : Option Exc) : (s.answer bs e).nextJob = s.nextJob := rfl
@[simp] theorem State.answer_nextFetch (s : State) (bs : Bytes) (e : Option Exc) : (s.answer bs e).nextFetch = s.nextFetch := rfl
@[simp] theorem State.answer_cpls (s : State) (bs : Bytes) (e : Option Exc) : (s.answer bs e).cpls = s.cpls := rfl
@[simp] theorem State.answer_srcs (s : State) (bs : Bytes) (e : Option Exc) : (s.answer bs e).srcs = s.srcs := rfl
@[simp] theorem State.answer_desks (s : State) (bs : Bytes) (e : Option Exc) : (s.answer bs e).desks = s.desks := rfl
@[simp] theorem State.answer_evcStop (s : State) (bs : Bytes) (e : Option Exc) : (s.answer bs e).evcStop = s.evcStop := rfl
@[simp] theorem State.answer_chain (s : State) (bs : Bytes) (e : Option Exc) : (s.answer bs e).chain = s.chain := rfl
@[simp] theorem State.answer_rdn (s : State) (bs : Bytes) (e : Option Exc) : (s.answer bs e).rdn = s.rdn := rfl
@[simp] theorem State.answer_dce (s : State) (bs : Bytes) (e : Option Exc) : (s.answer bs e).dce = s.dce := rfl
@[simp] theorem State.answer_bands (s : State) (bs : Bytes) (e : Option Exc) : (s.answer bs e).bands = s.bands := rfl
@[simp] theorem State.answer_ckptWait (s : State) (bs : Bytes) (e : Option Exc) : (s.answer bs e).ckptWait = s.ckptWait := rfl
@[simp] theorem State.answer_crcu (s : State) (bs : Bytes) (e : Option Exc) : (s.answer bs e).crcu = s.crcu := rfl
@[simp] theorem State.answer_pwr (s : State) (bs : Bytes) (e : Option Exc) : (s.answer bs e).pwr = s.pwr := rfl
@[simp] theorem State.answer_drains (s : State) (bs : Bytes) (e : Option Exc) : (s.answer bs e).drains = s.drains := rfl
@[simp] theorem State.answer_heldAcc (s : State) (bs : Bytes) (e : Option Exc) : (s.answer bs e).heldAcc = s.heldAcc := rfl
@[simp] theorem State.answer_quiets (s : State) (bs : Bytes) (e : Option Exc) : (s.answer bs e).quiets = s.quiets := rfl
@[simp] theorem State.answer_glog (s : State) (bs : Bytes) (e : Option Exc) : (s.answer bs e).glog = s.glog := rfl
@[simp] theorem State.answer_lanesQd (s : State) (bs : Bytes) (e : Option Exc) : (s.answer bs e).lanesQd = s.lanesQd := rfl
@[simp] theorem State.answer_lockAt (s : State) (bs : Bytes) (e : Option Exc) : (s.answer bs e).lockAt = s.lockAt := rfl
@[simp] theorem State.answer_nonce (s : State) (bs : Bytes) (e : Option Exc) : (s.answer bs e).nonce = s.nonce := rfl
@[simp] theorem State.answer_token (s : State) (bs : Bytes) (e : Option Exc) : (s.answer bs e).token = s.token := rfl
@[simp] theorem State.answer_fuseOps (s : State) (bs : Bytes) (e : Option Exc) : (s.answer bs e).fuseOps = s.fuseOps := rfl
@[simp] theorem State.answer_outbox (s : State) (bs : Bytes) (e : Option Exc) : (s.answer bs e).outbox = s.outbox := rfl
@[simp] theorem State.answer_bus (s : State) (bs : Bytes) (e : Option Exc) : (s.answer bs e).bus = ⟨bs, e.isNone, e⟩ := rfl

end Sys2Proof.Machine
end

