-- ==== Sys2Proof/Tests/Slice0.lean ====
section
/-!
SUPPORT. Tests: ill-formed commands refused, small facts worked out by hand from the spec, and for each clause of each
statement that has hypotheses a state and operands that meet all of them together.
-/

open Sys2Proof Sys2Proof.Machine

namespace Sys2Proof.Tests

set_option synthInstance.maxSize 3000
set_option linter.unusedVariables false
set_option Elab.async false

/-! ### Helpers -/

/-- A field of value `v` at byte `i` of a descriptor (bytes 16-63). -/
def b (i v : Nat) : Nat := v * 2 ^ ((i - 16) * 8)

/-- A request of partition 0 with a body and what its host reads bring. -/
def reqH (body : Nat) (bs : Bytes) : Req := ⟨0, 0, 0, 0, false, 7, BitVec.ofNat 384 body, .bytes bs⟩

/-- A request of partition 0 with a body. -/
def req (body : Nat) : Req := reqH body []

/-- A state with registers set. -/
def withRegs (l : List (Nat × Nat)) (s : State) : State := l.foldl (fun s x => s.setReg x.1 (BitVec.ofNat 32 x.2)) s

/-- An active partition on host port 0 that owns everything. -/
def owner : Part :=
  { state := .active, heads := 0xFFFF, touch := 3, surf := ⟨0, 4096⟩, layer := ⟨0, 256⟩, ctx := ⟨0, 256⟩, flow := ⟨0, 1024⟩
    follow := ⟨0, 64⟩, sess := ⟨0, 32⟩, egr := ⟨0, 8⟩, qLdg := 262144, qDec := 1990656000, qIpp := 2000000000, qEnc := 2000000000 }

/-- The mode controller in a mode, everything powered. -/
def powered (m : Mode) : Ctl :=
  { mode := m, prev := .prime, cause := 1, ring := true, core := true, coreEn := true, corePg := true, primeOk := true }

/-- Registers: memory channel 0 of 16 GiB, Ethernet ports up, host port 0 linked, partition 0 the manager with its first
completion ring enabled, desk core 1 running, and memory gate 0 open to everyone by region 31 (every region ON, the others empty). -/
def baseRegs : Tbl Word :=
  [ (SYS_MEM_SIZE 0, 0x80004000), (ETH_CFG, 0x11), (ETH_LINK, 0xFF), (ETH_NETCTL, 0), (HIF_HP_STATUS 0, 0x93), (PRT_MGR, 0),
    (2363660, 1), (2363676, 1), (2363692, 1), (2363708, 1), (2363724, 1), (2363740, 1), (2363756, 1), (2363772, 1), (2363788, 1),
    (2363804, 1), (2363820, 1), (2363836, 1), (2363852, 1), (2363868, 1), (2363884, 1), (2363900, 1), (2363916, 1), (2363932, 1),
    (2363948, 1), (2363964, 1), (2363980, 1), (2363996, 1), (2364012, 1), (2364028, 1), (2364044, 1), (2364060, 1), (2364076, 1),
    (2364092, 1), (2364108, 1), (2364124, 1), (2364140, 1), (2364156, 1),
    (MG_BASE_ACT 0 31, 0x22000000), (MG_ATTR_ACT 0 31, 0x1F1F1F), (MG_PART_ACT 0 31, 0xFFFFFFFF), (DSK_CTRL, 2), (PRT_SW_CP_CFG 0 0, 0x100) ]

/-- A state in a mode, everything powered, partition 0 the owner of everything. -/
def base (m : Mode) : State := { ctl := powered m, parts := [(0, owner)], regs := baseRegs }

/-- The same in mode RUN. -/
def run : State := base .run

/-- The same with partition 0 holding only half of everything, so that the rest can be granted. -/
def half : State :=
  { run with parts := [(0, { owner with heads := 0x00FF, touch := 1, surf := ⟨0, 2048⟩, layer := ⟨0, 128⟩, ctx := ⟨0, 128⟩
                                        flow := ⟨0, 512⟩, follow := ⟨0, 32⟩, sess := ⟨0, 16⟩, egr := ⟨0, 4⟩ }), (15, { state := .bound })] }

/-- Desk core 1 at level P2, without a partition. -/
def desk : Access := ⟨9, 31, .p2⟩

/-- The management port at level P3. -/
def auth : Access := ⟨0x60, 31, .p3⟩

/-- A state in which region 30 of memory gate 0 holds the 32 KiB at an address. -/
def heldAt (a : Nat) (s : State) : State :=
  withRegs [(MG_BASE_ACT 0 30, 0x0F000000 + (a - 0x100000000) / 0x8000), (MG_CTRL 0 30, 2)] s

/-- A state in which memory gate 0 lets nobody through. -/
def shut (s : State) : State := withRegs [(MG_ATTR_ACT 0 31, 0)] s

/-- The same partition with its host on HP4. -/
def hp4 (s : State) : State := { s with parts := [(0, { owner with port := 4 })] }

/-- A valid IPv4 UDP frame: 20-byte IP header, UDP to port 5000 without checksum, an RTP packet of one byte, and its FCS. -/
def rtpFrame : Bytes :=
  let ip : Bytes := [0x45, 0, 0, 41, 0, 0, 0, 0, 64, 17, 0, 0, 10, 0, 0, 1, 10, 0, 0, 2]
  let sum := 65535 - (0x4500 + 41 + 0x4011 + 0x0a00 + 1 + 0x0a00 + 2)
  let ip := ip.take 10 ++ [BitVec.ofNat 8 (sum / 256), BitVec.ofNat 8 sum] ++ ip.drop 12
  let f : Bytes := [0, 0, 0, 0, 0, 1, 0, 0, 0, 0, 0, 2, 8, 0] ++ ip ++ [0x10, 0, 0x13, 0x88, 0, 21, 0, 0]
    ++ [0x80, 0xE0, 0, 1, 0, 0, 0, 9, 0, 0, 0, 5, 0xAA]
  f ++ leBytes 4 (crc32 f)

/-- Its datagram. -/
def rtpUdp : Udp := match frameKind (rtpFrame.take (rtpFrame.length - 4)) with | .udp d => d | _ => ⟨0, false, [], [], 0, 0, []⟩

/-- The flow that takes it. -/
def rtpTaker : Flow := { state := .running, portMask := 0xFF, dport := 5000, daddr := 0x0200000A, ctx := some 1, psize := 65536, pt := 96 }

/-- A flow whose sender reports are what the frame carries. -/
def rtcpTaker : Flow := { rtpTaker with dport := 4999 }

/-- An Ethernet frame of an EtherType. -/
def frame (et : Nat) (l3 : Bytes) : Bytes :=
  let f : Bytes := [0, 0, 0, 0, 0, 1, 0, 0, 0, 0, 0, 2] ++ beBytes 2 et ++ l3
  f ++ leBytes 4 (crc32 f)

/-- An access-unit record. -/
def auR : AuRec := ⟨0, 0, 0x181001000, 0, 16, 0⟩

/-- The sequence parameter set of an 8-bit 4:2:0 stream of 128 by 64 pixels in H.264 Main. -/
def seq : SeqInfo := ⟨77, false, false, 40, false, 1, 8, 8, false, 128, 64, 16, some 1, 0, 0, (0, 0, 0, 0), 16, false, 1⟩

/-- A decodable access unit: its parameter sets and one slice of all 32 macroblocks. -/
def auI : AuInfo := ⟨[.sps 0 0 seq, .pps 0 0 false false 0], [⟨0, false, 0, List.range 32, none⟩], .idr, false, false, false, true, 0, [], 0, []⟩

/-- A created 8-bit 4:2:0 surface of 128 by 64 pixels in memory. -/
def surf : Surface := { created := true, base := 0x180000000, pitch := 128, w := 128, h := 64, fmt := 0 }

/-- A bound decode context with three pool buffers, decoded by core 15. -/
def decCtx : Ctx := { state := .decoding, cores := 0x8000, charge := 1, rateR := 1, poolN := 3, poolBase := 4093, queue := [auR]
                      sideBase := 0x190000000, outBase := 0x191000000 }

/-- A decoded picture waiting for its output. -/
def pic : DPic := ⟨1, 0, 0, 0, auR, false, true, 128, 64, 8, (0, 0, 0, 0), [], [], false, false, 0, none⟩

/-- Its picture in decode on core 15, in the first buffer of the pool. -/
def inDec : InDecode := ⟨[15], auR, auI, 0, [15], seq, [], []⟩

/-- What decoding a picture brings: a block predicted from a picture that is not there, one from within. -/
def picR : PicResult := ⟨[⟨0, 0, 64, 64, .inter [(.poc 0, 0, 0)] none⟩, ⟨64, 0, 64, 64, .intra [(0, 0)]⟩], [(0, [1, 2])], true, [], []⟩

/-- RUN with a decode context and its surfaces. -/
def dec (c : Ctx) : State :=
  { run with ctxs := [(255, c)], surfs := [(4093, surf), (4094, surf), (4095, surf)], pwr := { items := [⟨15, 0, 1, 0, true, false, false, 0, 0⟩] } }

/-- A job of partition 0 waiting with its request. -/
def job (id op body : Nat) : Job := ⟨id, req body, BitVec.ofNat 16 op, false, 0, 0, 0, [], [], 0, false, none⟩

/-- IPP work of one instance on surface 4094 into surface 4095. -/
def work (i : Nat) : IppWork :=
  ⟨⟨i, false, false, 0, (0, 0, 0, 0), false, false, 0, 0⟩, .surface 4094, none, some 3, 4095, 0, false⟩

/-- RUN with the two registered surfaces, an IPP_RUN job of instance 15 and tokens for it. -/
def ipp (l : List (Nat × Option IppWork)) : State :=
  { run with surfs := [(4094, { surf with reg := true }), (4095, { surf with base := 0x180100000 })], ipp := l, nextJob := 4
             jobs := [job 3 0x0501 (b 16 15 + b 18 1 + b 20 4095 + b 22 4094)], pwr := { items := [⟨271, 1, 6, 0, true, false, false, 0, 0⟩] } }

/-- The record of the decoded picture, in surface 4094. -/
def recd : Bytes := picRecord run decCtx pic 1

/-- What a follow slot of instance 15 chooses. -/
def followWork : IppWork := { work 15 with src := .surface 0, follow := some 63, job := none, target := 0 }

/-- RUN with that slot following a context whose newest picture it has not seen. -/
def followed (l : List (Nat × Option IppWork)) : State :=
  ({ ipp l with jobs := [], ctxs := [(1, { decCtx with outSeq := 1 })]
                follows := [(63, { bound := true, ctx := 1, m := 1, first := 4095, prm := (work 15).prm })] } : State).store 0x191000000 recd

/-- A 128 by 64 session of core 7. -/
def sess : Enc :=
  { opened := true, cores := 0x80, w := 128, h := 64, num := 60, rc := 2, qpMax := 51, qpInit := 30, slotSize := 65536, ident := 1
    base := 0x182000000, slots := 2 }

/-- RUN with session 31, surface 4094 and tokens for the session. -/
def enc (e : Enc) : State :=
  { run with encs := [(31, e)], surfs := [(4094, { surf with reg := true })], nextJob := 9
             pwr := { items := [⟨543, 2, 6, 0, true, false, false, 0, 0⟩] } }

/-- A head of the smallest raster. -/
def head0 : Head :=
  { isSet := true, khz := 25000, hAct := 640, hFront := 40, hSync := 20, hBack := 20, vAct := 480, vFront := 8, vSync := 1, vBack := 1 }

/-- A surface of that size. -/
def full : Surface := { created := true, base := 0x184000000, pitch := 2560, w := 640, h := 480, fmt := 4 }

/-- A registered surface of 16 by 16 pixels. -/
def small : Surface := { created := true, reg := true, base := 0x186000000, pitch := 256, w := 16, h := 16, fmt := 4 }

/-- A tiny enabled head with a full-screen live-class layer whose one tile is stale. -/
def tiny : Head :=
  { isSet := true, enabled := true, hAct := 8, vAct := 8, tx := .video, frame := 3, wbA := 4095, wbB := 4094, wbFmt := 5
    evals := [⟨0, 3, [⟨255, 0, .stale, none, 0, 0⟩], true⟩], hot := [⟨0, 3, [⟨255, 0, .stale, none, 0, 0⟩], true⟩] }

/-- RUN with that head in slot 15. -/
def scr (h : Head) : State :=
  { run with
    heads := [(15, h)]
    layers := [(255, { created := true, head := 15, buf := some 4094
                       cur := { cropW := 8, cropH := 8, visible := true, alpha := 1023, live := true, source := .surface (some 4094), z := 1 } })]
    surfs := [(4094, { small with w := 8, h := 8, lbase := 0 }), (4095, { small with w := 8, h := 8, reg := false, base := 0x187000000 })] }

/-- A touch panel of 4 by 4 nodes, free-running. -/
def panel : TchCfg := { enable := true, acq := 2, drives := 4, senses := 4, window := 300 }

/-- RUN with that panel on port 1. -/
def tch (t : Touch) : State := { run with touch := [(1, t)], tbase := { val := 2 ^ 120 } }

/-- A contact that has stayed still. -/
def contact : Contact := ⟨14, (1, 1), 0, 0, (0, 0), 0, false, 1, 31, 0, 0, 0, 0, 0, 0, 0, false, true⟩

/-- A job of partition 0 in progress. -/
def runJob (id op body : Nat) : Job := { job id op body with running := true }

/-- RUN at timebase `n` nanoseconds. -/
def at_ (n : Nat) (s : State) : State := { s with tbase := { val := BitVec.ofNat 128 (n * 2 ^ 64) } }

/-- A registered surface with two tiles from ledger entry 100, frozen after 3 unchanged records. -/
def tracked : Surface := { surf with reg := true, lbase := 100, frzFrames := 3, frzPct := 50, curSeq := 7 }

/-- RUN with that surface, an entry for its second tile and a record waiting. -/
def ldg (e : LEntry) (r : TileRec) : State :=
  withRegs [(LDG_STATUS, 1)] { run with surfs := [(4095, tracked)], ledger := [(101, e)], records := [r] }

/-- An unpopulated memory channel. -/
def noChannel : Channel := ⟨0, 0, false, false, 0⟩

/-- A boot that finds image A signed with the development key, trains one channel of 16 GiB cold and starts no core. -/
def boot : Boot :=
  ⟨⟨16384, 7, false, true, 9⟩ :: List.replicate 5 noChannel, ⟨true, 0x80, 1⟩, ⟨false, 0, 0⟩, [], [], [.ok, .ok]⟩

/-- PRIME with its sequence in progress. -/
def prime : State := { base .prime with ctl := { powered .prime with target := some (2, false), primeOk := false } }

/-- A granted item of an engine, and one that waits since the start. -/
def item (id : Nat) (granted ended : Bool) : PwrItem := ⟨id, id / 256, 6, 0, granted, false, ended, 0, 0⟩

/-- A completion of partition 0 on its first ring. -/
def cpl : Cpl := ⟨0, 0, 7, 0x0101, 0, 0, 0, 0, 0⟩

/-- A fetched TIME_READ of ring 7. -/
def fetched : Fetched := ⟨7, 0, [3, 0x0F] ++ List.replicate 62 0, 0⟩

/-- A host access of partition `p` to its window. -/
def host (p : Nat) : Access := ⟨0, BitVec.ofNat 5 p, .p0⟩

/-- The state just after reset with the core powered, so that no region is in force. -/
def fresh : State := { State.reset with ctl := powered .run }

/-- A port that is UP with the credits of its partner's buffers. -/
def upPort : ChnPort := { state := .up, credit := [64, 1024, 1024, 1024] }

/-- A unit with address 3 of epoch 2 that holds logical ID 5, unit 4 holding ID 6, and both ports as given. -/
def unit (q : ChnPort) (s : State) : State :=
  withRegs [(CHN_ADDR, 0x2B), (CHN_LOGICAL, 0xD), (CHN_MAP, 0x0CB00000)]
    { s with chain := { s.chain with ports := [(0, q), (1, q)], peers := [(4, { logical := 6, holder := true, mode := 4, heard := some 0, ports := 1 })] } }

/-- The same with both ports UP, in RUN. -/
def chn : State := unit upPort run

/-- A message of unit 4 to unit 3 of epoch 2. -/
def msg (kind hdr : Nat) (body : Bytes) : Msg := ⟨BitVec.ofNat 8 kind, 3, false, 2, 4, 0, 9, BitVec.ofNat 160 hdr, body⟩

/-- What its arrival on the east port leaves. -/
def rx (s : State) (m : Msg) : State := (deliver s 1 m).1

/-- A unit with logical ID 5 whose partner is unit 4, in the redundancy role given. -/
def rdn (role : Nat) (s : State) : State :=
  withRegs [(RDN_ROLE, 0x00FF0040 + role)] { s with chain := { s.chain with peers := [(4, { logical := 5, mode := 3, heard := some 0, ports := 1 })] } }

/-- An operation of the redundancy blocks: its code, a result, a generation and a boundary. -/
def rdnMsg (op res gen b : Nat) : Msg :=
  msg 7 (hput 8 1 31 + hput 9 1 31 + hput 10 2 16) ([BitVec.ofNat 8 op, BitVec.ofNat 8 res, 0, 0] ++ leBytes 4 gen ++ leBytes 8 b)

/-- A locked timing group of 60 Hz whose next boundary is at 50 ms. -/
def grp60 : TGroup := { running := true, khz := 148500, hTotal := 2200, vTotal := 1125, vFront := 4, boundary := 33333333, period := 16666667 }

/-- The active unit in RUN with a swap at 50 ms under way. -/
def swapRun (w : Swap) : State :=
  withRegs [(TG_STATUS 0, 3)] { rdn 1 chn with tgs := [(0, grp60)], rdn := { swap := { w with bNs := 50000000, gen := 6 }, gen := 6 } }

/-- Its partner in SHADOW. -/
def swapShadow (w : Swap) : State :=
  withRegs [(TG_STATUS 0, 3)] { rdn 2 (unit upPort (base .shadow)) with
    tgs := [(0, grp60)], rdn := { swap := { w with bNs := 50000000, gen := 6 }, gen := 6 } }

/-- A vault whose slot A holds generation 9 of an empty image: its header and the two bytes of the compressed image. -/
def vaultHeader : Bytes :=
  leBytes 4 9 ++ leBytes 4 2 ++ leBytes 4 0 ++ leBytes 2 1 ++ leBytes 2 0 ++ leBytes 2 0x6416 ++ [0x10, 0x54] ++ leBytes 8 0 ++ leBytes 4 0
    ++ leBytes 8 (crc64 (ckptContext 9 5) []) ++ leBytes 20 0 ++ leBytes 4 9

/-- A unit in SHADOW with that vault. -/
def vaulted : State := (swapShadow {}).store 0x3000000 (vaultHeader ++ [3, 0])

/-- A partition without grants is granted nothing. -/
theorem granted_none (k n : Nat) : granted { state := .bound } k n = false := by
  unfold granted
  split
  · simp [bitOf]
  · split
    · simp [bitOf]
    · unfold rangeOf; split <;> simp [Range.has]

/-- RUN with a head of one pixel whose frame is written back and read back. -/
def dot : State :=
  { scr { tiny with hAct := 1, vAct := 1, wbCur := some (false, 3, 0), wbVerify := true } with
    surfs := [(4095, { small with w := 1, h := 1, reg := false, base := 0x187000000 })] }

/-- The block after PORST_N has gone low. -/
def offed : State := doPorstNLow State.reset

theorem offed_off : OffState offed := by
  constructor <;> first | rfl | (intro n; exact ⟨rfl, rfl, rfl⟩) | (intro x h; cases h)

/-! ### Ill-formed commands are refused, one per check -/

theorem test_wf_host_level : Instr.wf (.timeRead (req 0)) = true ∧ Instr.wf (.modeRequest ⟨5, 0, .p0⟩ 0) = false := by decide

theorem test_wf_partition : Instr.wf (.modeRequest ⟨0, 16, .p0⟩ 0) = false ∧ Instr.wf (.modeRequest ⟨0x60, 5, .p3⟩ 0) = false := by decide

theorem test_wf_staging : Instr.wf (.gateStagingWrite desk (.slot 5) 1 0) = false ∧ Instr.wf (.gateStagingWrite desk (.region 7 31) 2 0) = true := by
  decide

theorem test_wf_mgt : Instr.wf (.mgtWriteWords [] false) = false := by decide

theorem test_wf_memory : Instr.wf (.initiatorMemoryAccess desk ⟨false, .plain, .w⟩ 0 2 [1]) = false
    ∧ Instr.wf (.initiatorMemoryAccess desk ⟨false, .plain, .r⟩ 0xFFFFFFFFFF 2 []) = false
    ∧ Instr.wf (.initiatorMemoryAccess (host 0) ⟨false, .plain, .x⟩ 0 4 []) = false
    ∧ Instr.wf (.initiatorMemoryAccess (host 0) ⟨true, .plain, .r⟩ 0x10000000 4 []) = false
    ∧ Instr.wf (.initiatorMemoryAccess desk ⟨false, .lr false false, .r⟩ 2 4 []) = false := by decide

theorem test_wf_boot : Instr.wf (.primeSequenceComplete boot) = true ∧ Instr.wf (.primeSequenceComplete { boot with channels := [noChannel] }) = false := by
  decide

theorem test_wf_frame : Instr.wf (.ethFrameRx 0 [1, 2, 3]) = false := by decide

theorem test_wf_aux : Instr.wf (.auxReply 0 (.ack (List.replicate 17 0))) = false := by decide

theorem test_wf_source : Instr.wf (.evcSourceInput 0 true) = false := by decide

theorem test_wf_doorbell : Instr.wf (.doorbellRead 0 (.bytes [1]) [] .error) = false
    ∧ Instr.wf (.doorbellRead 0 .error [.bytes [1]] .error) = false ∧ Instr.wf (.doorbellRead 0 .error [] (.bytes [1])) = false := by decide

theorem test_wf_flit : Instr.wf (.flitCheckFail 0 (.failed (some (1, List.replicate 28 0)))) = false
    ∧ Instr.wf (.flitCheckFail 0 (.poisoned 1 (some (7, List.replicate 28 0)))) = true
    ∧ Instr.wf (.flitCheckFail 0 (.poisoned 2 (some (7, List.replicate 28 0)))) = false := by decide

theorem test_wf_samples : Instr.wf (.touchSlot 0 [2048]) = false := by decide

theorem test_wf_message : Instr.wf (.helloRx 0 (msg 9 0 (List.replicate 421 0))) = true ∧ Instr.wf (.helloRx 0 (msg 5 0 (List.replicate 421 0))) = false := by
  decide +kernel

/-! ### Worked examples of the spec -/

/-- Chapter 20: QD7_LANE1_PRBS, MG2 region 5's control register. -/
theorem test_register_addresses : QD_LANE_PRBS 7 1 = 0x003B0160 ∧ MG_CTRL 2 5 = 0x0024215C := by decide

/-- Chapter 15: surface 41 and its tiles 135 and (15, 16). -/
theorem test_tile_context : tileContext 41 135 = 0x0029008700000000
    ∧ (let f : Surface := { created := true, w := 1920, h := 1080, fmt := 4 }; f.tx = 30 ∧ tileRect f 135 = (960, 256, 64, 64)
      ∧ tileRect f (16 * 30 + 15) = (960, 1024, 64, 56)) := by decide

/-- Chapter 02: a 3840x2160 surface takes 2,040 entries. -/
theorem test_surface_entries : ({ w := 3840, h := 2160 } : Surface).tiles = 2040 := by decide

/-- Chapter 13: on a broken ring of five the routes of a closed ring of five would go east to 1 and 2, west to 3 and 4. -/
theorem test_closed_route : closedRoute 0 5 = 0x18 := by decide

/-- Chapter 15 (R415): the check value of CRC-32 over the ASCII digits 1-9. -/
theorem test_crc32 : crc32 (([0x31, 0x32, 0x33, 0x34, 0x35, 0x36, 0x37, 0x38, 0x39] : Bytes)) = 0xCBF43926 := by decide +kernel

/-! ### Reset and the canonical form -/

theorem test_reset_canonical : Memory.wf State.reset.mem = true ∧ twf regReset State.reset.regs = true := by decide +kernel

theorem test_base_canonical : twf regReset run.regs = true := by decide +kernel

/-- Reset's queue is empty, and no word spells a command: the table gives none bits. -/
theorem test_reset_queue : State.reset.pending = [] ∧ decodeTableWord 64 0 = none := by decide

/-! ### A state and operands for each clause of each statement -/

theorem witness_Partitions_1 :
    ∃ (q : Req) (s : State),
    (Admitted s q (bodyMask [(16, 0, 8), (17, 0, 8), (18, 0, 1)])) ∧ (isManager s q = true) ∧ (q.u8 16 ≤ 15) ∧ (q.u8 17 ≤ 4) ∧ ((s.part (q.u8 16)).state = .free) :=
  ⟨req (b 16 3 + b 17 2 + b 18 1), run, by decide +kernel⟩

theorem witness_Partitions_2 :
    ∃ (q : Req) (s : State),
    (Admitted s q (maskPartGrant q)) ∧ (isManager s q = true) ∧ (q.u8 16 ≤ 15) ∧ (q.u8 17 ≤ 8) ∧ ((s.part (q.u8 16)).state ≠ .free) ∧ ((if q.u8 17 = 0 ∨ q.u8 17 = 8 then q.u16 20 < 2 ^ kindCount (q.u8 17) else q.u16 22 = 0 ∨ q.u16 20 + q.u16 22 ≤ kindCount (q.u8 17))) ∧ let new := withGrant (s.part (q.u8 16)) (q.u8 17) (q.u16 20) (q.u16 22); ((∀ o, o < 16 → o ≠ q.u8 16 → ∀ n, n < kindCount (q.u8 17) → granted new (q.u8 17) n = true → granted (s.part o) (q.u8 17) n = false)) ∧ ((∀ n, n < kindCount (q.u8 17) → granted (s.part (q.u8 16)) (q.u8 17) n = true → granted new (q.u8 17) n = false → inUse s (q.u8 17) n = false)) ∧ (((q.u8 17 = 0 ∨ q.u8 17 = 8) → ∀ n, n < kindCount (q.u8 17) → granted new (q.u8 17) n = true → s.absent ((if q.u8 17 = 0 then 16 else 32) + n) = false)) ∧ ((q.u8 17 = 0 → ∀ i, i < 8 → granted new 0 (2 * i) = true → (s.head (2 * i)).gang = true → granted new 0 (2 * i + 1) = true)) :=
  ⟨req (b 16 15 + b 17 0 + b 20 0xFF00), half, by decide +kernel⟩

theorem witness_Partitions_3 :
    ∃ (q : Req) (s : State),
    (Admitted s q (bodyMask [(16, 0, 8), (20, 0, 128)])) ∧ (isManager s q = true) ∧ (q.u8 16 ≤ 15) ∧ ((s.part (q.u8 16)).state ≠ .free) ∧ (q.u32 20 ≤ 262144) :=
  ⟨req (b 16 15 + b 17 0 + b 20 0xFF00), half, by decide +kernel⟩

theorem witness_Partitions_4 :
    ∃ (q : Req) (s : State),
    (Admitted s q (bodyMask [(16, 0, 8)])) ∧ (isManager s q = true) ∧ (q.u8 16 ≤ 15) ∧ ((s.part (q.u8 16)).state = .bound) ∧ ((∀ k, k < 9 → ∀ n, n < kindCount k → granted (s.part (q.u8 16)) k n = true → inUse s k n = false)) :=
  ⟨req (b 16 15), half, by decide +kernel, by decide +kernel, by decide +kernel, by decide +kernel,
    fun k _ n _ h => absurd h (by rw [show half.part ((req (b 16 15)).u8 16) = { state := .bound } by decide +kernel, granted_none]; decide)⟩

theorem witness_Partitions_5 :
    ∃ (q : Req) (s : State),
    (Admitted s q (bodyMask [(16, 0, 8)])) ∧ (isManager s q = true) ∧ (q.u8 16 ≤ 15) ∧ (((s.part (q.u8 16)).state = .active ∨ (s.part (q.u8 16)).state = .faulted)) ∧ let idle := q.part.val ≠ q.u8 16 ∧ (s.part (q.u8 16)).backlog = [] ∧ (∀ j ∈ (done s q 0x0104 stComplete).jobs, j.req.part.val ≠ q.u8 16) ∧ (∀ c ∈ s.cpls, c.part ≠ q.u8 16); (idle) :=
  ⟨req (b 16 3), { run with parts := [(0, owner), (3, { state := .active, starts := 1, fetched := [⟨0, 0, [], 0⟩] })] }, by decide +kernel⟩

theorem witness_Partitions_6 :
    ∃ (q : Req) (s : State),
    (Admitted s q (bodyMask [(16, 0, 8)])) ∧ (isManager s q = true) ∧ (q.u8 16 ≤ 15) ∧ (((s.part (q.u8 16)).state = .active ∨ (s.part (q.u8 16)).state = .faulted)) ∧ let idle := q.part.val ≠ q.u8 16 ∧ (s.part (q.u8 16)).backlog = [] ∧ (∀ j ∈ (done s q 0x0104 stComplete).jobs, j.req.part.val ≠ q.u8 16) ∧ (∀ c ∈ s.cpls, c.part ≠ q.u8 16); (¬ idle) :=
  ⟨req (b 16 0), run, by decide +kernel⟩

theorem witness_Partitions_7 :
    ∃ (q : Req) (s : State),
    (Admitted s q (bodyMask [(16, 0, 8)])) ∧ (isManager s q = true) ∧ (q.u8 16 ≤ 15) ∧ ((s.part (q.u8 16)).state ≠ .active) ∧ ((s.part (q.u8 16)).state ≠ .faulted) :=
  ⟨req (b 16 15), half, by decide +kernel⟩

theorem witness_Flows_1 :
    ∃ (q : Req) (s : State) (n : Nat),
    (Admitted s q maskFlowAdd) ∧ ((q.bit 19 0 = true ∨ (q.uN 28 12 = 0 ∧ q.uN 44 12 = 0))) ∧ (((q.u16 16 = n ∧ n ≤ 1023 ∧ ownsFlow s q.part.val n = true) ∨ (q.u16 16 = 0xFFFF ∧ n < 1024 ∧ ownsFlow s q.part.val n = true ∧ ∀ m, m < n → ownsFlow s q.part.val m = true → (s.flow m).state ≠ .free))) ∧ ((s.flow n).state = .free) ∧ ((∀ x ∈ s.flows, x.2.state ≠ .free → flowKeys x.2 ≠ flowKeys (flowOf q))) :=
  ⟨req (b 16 0xFFFF + b 18 255 + b 22 5000 + b 19 1), { run with flows := [(0, { state := .stopped })] }, 1, by decide +kernel⟩

theorem witness_Flows_2 :
    ∃ (q : Req) (s : State),
    (Admitted s q maskFlowCfg) ∧ (flowCfgBad s q = false) ∧ let f := q.u16 16; let m := if q.u16 48 = 0xFFFF then none else some (q.u16 48); let c := q.u16 50; (ownsFlow s q.part.val f = true) ∧ ((∀ g ∈ m, ownsFlow s q.part.val g = true)) ∧ (ownsCtx s q.part.val c = true) ∧ ((s.ctx c).state ≠ .closed) ∧ ((s.flow f).state = .stopped) ∧ (pairBad s f m c = false) ∧ ((((q.u8 18 = 2 ∨ (s.ctx c).codec = 2) → q.u8 19 ≠ 1 ∧ q.u8 19 ≠ 3))) ∧ ((s.ctx c).rx = none) ∧ ((∀ x ∈ s.flows, x.1 ≠ f → some x.1 ≠ m → x.2.ctx ≠ some c)) :=
  ⟨req (b 16 1023 + b 18 2 + b 19 2 + b 20 90000 + b 24 0x80000000 + b 32 268435456 + b 42 1 + b 44 60000 + b 48 1022 + b 50 255), { run with flows := [(1022, { state := .stopped }), (1023, { state := .stopped, pkts := [⟨0, 0, true, 0, 0, false, []⟩] })], ctxs := [(255, { state := .opened })] }, by decide +kernel⟩

theorem witness_Flows_3 :
    ∃ (q : Req) (s : State),
    (Admitted s q (bodyMask [(16, 0, 16)])) ∧ (q.u16 16 ≤ 1023) ∧ (ownsFlow s q.part.val (q.u16 16) = true) ∧ ((s.flow (q.u16 16)).state = .stopped) :=
  ⟨req (b 16 1023), { run with flows := [(1023, { state := .stopped })], ctxs := [(255, { state := .opened })] }, by decide +kernel⟩

theorem witness_Flows_4 :
    ∃ (q : Req) (s : State),
    (Admitted s q (bodyMask [(16, 0, 16)])) ∧ (q.u16 16 ≤ 1023) ∧ (ownsFlow s q.part.val (q.u16 16) = true) ∧ ((s.flow (q.u16 16)).state = .running) :=
  ⟨req (b 16 1023), { run with flows := [(1023, { state := .running, ctx := some 255, pkts := [⟨0, 0, true, 0, 0, false, []⟩] })], ctxs := [(255, { state := .opened })] }, by decide +kernel⟩

theorem witness_Flows_5 :
    ∃ (q : Req) (s : State),
    (Admitted s q (bodyMask [(16, 0, 16)])) ∧ (q.u16 16 ≤ 1023) ∧ (ownsFlow s q.part.val (q.u16 16) = true) ∧ ((s.flow (q.u16 16)).state ≠ .free) ∧ let f := q.u16 16; let u := if (s.flow f).state = .running then flowDiscard (s.setFlow f { s.flow f with state := .stopped }) f else s; ((∀ g, mergedWith u f = some g → (u.flow g).state ≠ .running ∨ g < f)) :=
  ⟨req (b 16 1023), { run with flows := [(1023, { state := .stopped })], ctxs := [(255, { state := .opened })] }, by decide +kernel⟩

theorem witness_Flows_6 :
    ∃ (q : Req) (s : State) (g : Nat),
    (Admitted s q (bodyMask [(16, 0, 16)])) ∧ (q.u16 16 ≤ 1023) ∧ (ownsFlow s q.part.val (q.u16 16) = true) ∧ ((s.flow (q.u16 16)).state ≠ .free) ∧ let f := q.u16 16; let u := if (s.flow f).state = .running then flowDiscard (s.setFlow f { s.flow f with state := .stopped }) f else s; (mergedWith u f = some g) ∧ ((u.flow g).state = .running) ∧ (f < g) :=
  ⟨req (b 16 5), { run with flows := [(5, { state := .stopped, partner := some 1023 }), (1023, { state := .running, partner := some 5 })] }, 1023, by decide +kernel⟩

theorem witness_Flows_7 :
    ∃ (q : Req) (s : State) (bs : Bytes),
    (Admitted s q (bodyMask [(16, 0, 80), (26, 0, 8)])) ∧ (60 ≤ q.u16 24) ∧ (q.u16 24 ≤ 1514) ∧ (q.u8 26 ≤ 7) ∧ (s.fld ETH_NETCTL 0 5 = q.part.val) ∧ (portUp s (q.u8 26) = true) ∧ let rd := hostRead s q.part.val (q.u64 16) (q.u16 24) q.host; (rd.2 = (stComplete, bs)) :=
  ⟨reqH (b 24 60 + b 26 7) (List.replicate 60 1), run, List.replicate 60 1, by decide +kernel⟩

theorem witness_Flows_8 :
    ∃ (q : Req) (s : State),
    (Admitted s q maskFlowEgress) ∧ (q.u8 16 ≤ 7) ∧ (q.u8 17 ≤ 7) ∧ (q.u8 18 ≤ 15) ∧ (q.u8 48 ≤ 127) ∧ (q.u8 18 < s.nHeads) ∧ (ownsEgr s q.part.val (q.u8 16) = true) ∧ ((q.bit 19 0 = true → ownsHead s q.part.val (q.u8 18) = true ∧ (s.head (q.u8 18)).wbOn = true ∧ (s.head (q.u8 18)).wbA ≠ (s.head (q.u8 18)).wbB ∧ 2 ≤ (s.head (q.u8 18)).wbFmt)) :=
  ⟨reqH (b 24 60 + b 26 7) (List.replicate 60 1), run, by decide +kernel⟩

theorem witness_StreamCommands_1 :
    ∃ (q : Req) (s : State),
    (Admitted s q maskStreamOpen) ∧ (q.u8 17 ≤ 2) ∧ let x : Ctx := { rawW := q.u16 20, rawH := q.u16 22, rawFmt := q.u8 24, rawN := q.u8 25, rawBase := q.u40 32 }; ((q.u8 17 = 2 → q.u8 24 ≤ 3 ∧ 2 ≤ q.u8 25 ∧ q.u8 25 ≤ 8 ∧ q.u40 32 % 4096 = 0 ∧ inChannel s (q.u40 32) (q.u8 25 * rawStride x) = true)) ∧ (ownsCtx s q.part.val (q.u8 16) = true) ∧ ((s.ctx (q.u8 16)).state = .closed) :=
  ⟨req (b 16 0 + b 17 0), run, by decide +kernel⟩

theorem witness_StreamCommands_2 :
    ∃ (q : Req) (s : State) (bs : Bytes),
    (Admitted s q (bodyMask [(16, 0, 8), (18, 0, 16), (24, 0, 64)])) ∧ (q.u16 18 ≤ 4096) ∧ ((s.ctx (q.u8 16)).state ≠ .closed) ∧ (ownsCtx s q.part.val (q.u8 16) = true) ∧ (q.u16 18 = 0) :=
  ⟨reqH (b 16 255) [], { run with ctxs := [(255, { state := .opened, params := [1] })] }, [], by decide +kernel⟩

theorem witness_StreamCommands_3 :
    ∃ (q : Req) (s : State) (bs : Bytes),
    (Admitted s q (bodyMask [(16, 0, 8), (18, 0, 16), (24, 0, 64)])) ∧ (q.u16 18 ≤ 4096) ∧ ((s.ctx (q.u8 16)).state ≠ .closed) ∧ (ownsCtx s q.part.val (q.u8 16) = true) ∧ let rd := hostRead s q.part.val (q.u64 24) (q.u16 18) q.host; (0 < q.u16 18) ∧ (rd.2 = (stComplete, bs)) :=
  ⟨reqH (b 16 255 + b 18 4 + b 24 4096) [1, 2, 3, 4], { run with ctxs := [(255, { state := .opened })] }, [1, 2, 3, 4], by decide +kernel⟩

theorem witness_StreamCommands_4 :
    ∃ (q : Req) (s : State),
    (Admitted s q (bodyMask [(16, 0, 8)])) ∧ (ownsCtx s q.part.val (q.u8 16) = true) ∧ ((s.ctx (q.u8 16)).state = .opened) ∧ ((∀ x ∈ s.flows, x.2.state = .running → x.2.ctx ≠ some (q.u8 16))) :=
  ⟨req (b 16 255), { run with ctxs := [(255, { state := .opened, queue := [auR] })] }, by decide +kernel⟩

theorem witness_NetworkEvents_1 :
    ∃ (p : Fin 8) (fr : Bytes) (s : State),
    (s.ctl.core = true) ∧ (portUp s p.val = true) ∧ let body := fr.take (fr.length - 4); ((9022 < fr.length ∨ leNat (fr.drop (fr.length - 4)) ≠ crc32 body)) :=
  ⟨0, rtpFrame ++ [1], run, by decide +kernel⟩

theorem witness_NetworkEvents_2 :
    ∃ (p : Fin 8) (fr : Bytes) (s : State),
    (s.ctl.core = true) ∧ (portUp s p.val = true) ∧ let body := fr.take (fr.length - 4); (fr.length ≤ 9022) ∧ (leNat (fr.drop (fr.length - 4)) = crc32 body) ∧ (frameKind body = .hdrErr) :=
  ⟨7, frame 0x0800 (List.replicate 20 1), run, by decide +kernel⟩

theorem witness_NetworkEvents_3 :
    ∃ (p : Fin 8) (fr : Bytes) (s : State),
    (s.ctl.core = true) ∧ (portUp s p.val = true) ∧ let body := fr.take (fr.length - 4); (fr.length ≤ 9022) ∧ (leNat (fr.drop (fr.length - 4)) = crc32 body) ∧ (frameKind body = .unsup) :=
  ⟨7, frame 0x86DD (List.replicate 40 0), run, by decide +kernel⟩

theorem witness_NetworkEvents_4 :
    ∃ (p : Fin 8) (fr : Bytes) (s : State),
    (s.ctl.core = true) ∧ (portUp s p.val = true) ∧ let body := fr.take (fr.length - 4); (fr.length ≤ 9022) ∧ (leNat (fr.drop (fr.length - 4)) = crc32 body) ∧ (frameKind body = .unknown) :=
  ⟨7, frame 0x88B5 [], run, by decide +kernel⟩

theorem witness_NetworkEvents_5 :
    ∃ (p : Fin 8) (fr : Bytes) (s : State),
    (s.ctl.core = true) ∧ (portUp s p.val = true) ∧ let body := fr.take (fr.length - 4); (fr.length ≤ 9022) ∧ (leNat (fr.drop (fr.length - 4)) = crc32 body) ∧ (frameKind body = .exception) ∧ (s.bit ETH_EXC_CTRL 0 = true) ∧ (s.ctl.mode ≠ .yield) :=
  ⟨7, frame 0x0806 [], withRegs [(ETH_EXC_CTRL, 1)] run, by decide +kernel⟩

theorem witness_NetworkEvents_6 :
    ∃ (p : Fin 8) (fr : Bytes) (s : State) (d : Udp) (f : Nat),
    (s.ctl.core = true) ∧ (portUp s p.val = true) ∧ let body := fr.take (fr.length - 4); (fr.length ≤ 9022) ∧ (leNat (fr.drop (fr.length - 4)) = crc32 body) ∧ (frameKind body = .udp d) ∧ (d.dport ≠ 319) ∧ (d.dport ≠ 320) ∧ ((∀ x ∈ s.flows, isRtcp x.2 p.val d = false)) ∧ (rtpFlow s p.val d = some f) ∧ (s.ctl.mode ≠ .yield) :=
  ⟨7, rtpFrame, { run with flows := [(1023, rtpTaker)], ctxs := [(1, { state := .opened })] }, rtpUdp, 1023, by decide +kernel⟩

theorem witness_NetworkEvents_7 :
    ∃ (p : Fin 8) (fr : Bytes) (s : State) (d : Udp),
    (s.ctl.core = true) ∧ (portUp s p.val = true) ∧ let body := fr.take (fr.length - 4); (fr.length ≤ 9022) ∧ (leNat (fr.drop (fr.length - 4)) = crc32 body) ∧ (frameKind body = .udp d) ∧ (d.dport ≠ 319) ∧ (d.dport ≠ 320) ∧ ((∀ x ∈ s.flows, isRtcp x.2 p.val d = false)) ∧ (rtpFlow s p.val d = none) :=
  ⟨0, rtpFrame, run, rtpUdp, by decide +kernel⟩

theorem witness_NetworkEvents_8 :
    ∃ (p : Fin 8) (fr : Bytes) (s : State) (d : Udp) (x : Nat × Flow),
    (s.ctl.core = true) ∧ (portUp s p.val = true) ∧ let body := fr.take (fr.length - 4); (fr.length ≤ 9022) ∧ (leNat (fr.drop (fr.length - 4)) = crc32 body) ∧ (frameKind body = .udp d) ∧ (d.dport ≠ 319) ∧ (d.dport ≠ 320) ∧ (s.flows.filter (fun y => isRtcp y.2 p.val d) = [x]) ∧ (rtpFlow s p.val d = none) :=
  ⟨7, rtpFrame, { run with flows := [(1023, rtcpTaker)] }, rtpUdp, (1023, rtcpTaker), by decide +kernel⟩

theorem witness_NetworkEvents_9 :
    ∃ (f : Fin 1024) (s : State),
    (s.ctl.core = true) ∧ (streamRuns s f.val = true) ∧ ((s.flow f.val).mode = 1) ∧ (((1000000 * (s.flow f.val).srLimit : Nat) : Int) ≤ s.since (s.flow f.val).srAt) ∧ ((s.flow f.val).mapValid = true) :=
  ⟨1023, { run with flows := [(1023, { rtpTaker with mode := 1, mapValid := true, implRun := 2 })] }, by decide +kernel⟩

theorem witness_NetworkEvents_10 :
    ∃ (f : Fin 1024) (s : State),
    (s.ctl.core = true) ∧ (streamRuns s f.val = true) ∧ ((s.flow f.val).mode = 1) ∧ (((1000000 * (s.flow f.val).srLimit : Nat) : Int) ≤ s.since (s.flow f.val).srAt) ∧ ((s.flow f.val).mapValid = false) :=
  ⟨1023, { run with flows := [(1023, { rtpTaker with mode := 1 })] }, by decide +kernel⟩

theorem witness_NetworkEvents_11 :
    ∃ (f : Fin 1024) (s : State) (e : Nat),
    (s.ctl.core = true) ∧ (s.ctl.mode ≠ .yield) ∧ (primary s f.val = f.val) ∧ (streamRuns s f.val = true) ∧ let x := s.flow f.val; (x.old = []) ∧ let a := firstAu x.pkts; (auEnd x.ends a.1 a.2 = some e) ∧ (((1000 * x.hold : Nat) : Int) ≤ s.since e) ∧ (auHeld s f.val a.1 = false) :=
  ⟨1023, { run with flows := [(1023, { rtpTaker with pkts := [⟨7, 9, true, 0, 0, false, [1]⟩, ⟨8, 10, false, 5, 0, false, [2]⟩], base := 0x180000000 })], ctxs := [(1, { state := .opened })] }, 0, by decide +kernel⟩

theorem witness_NetworkEvents_12 :
    ∃ (f : Fin 1024) (s : State) (e : Nat),
    (s.ctl.core = true) ∧ (s.ctl.mode ≠ .yield) ∧ (primary s f.val = f.val) ∧ (streamRuns s f.val = true) ∧ let x := s.flow f.val; (x.old = []) ∧ let a := firstAu x.pkts; (auEnd x.ends a.1 a.2 = some e) ∧ (s.since e < ((1000 * x.hold : Nat) : Int)) :=
  ⟨1023, { run with flows := [(1023, { rtpTaker with hold := 1, pkts := [⟨7, 9, true, 0, 0, false, []⟩] })] }, 0, by decide +kernel⟩

theorem witness_NetworkEvents_13 :
    ∃ (f : Fin 1024) (s : State) (o : OldRun) (more : List OldRun),
    (s.ctl.core = true) ∧ (s.ctl.mode ≠ .yield) ∧ (primary s f.val = f.val) ∧ (streamRuns s f.val = true) ∧ let x := s.flow f.val; (x.old = o :: more) ∧ let a := firstAu o.pkts; let e := (auEnd o.ends a.1 a.2).getD o.endedAt; (((1000 * x.hold : Nat) : Int) ≤ s.since e) ∧ (auHeld s f.val a.1 = false) ∧ (a.2 = []) :=
  ⟨1023, { run with flows := [(1023, { rtpTaker with old := [⟨0, [⟨7, 9, true, 0, 0, false, []⟩], [], none⟩] })] }, ⟨0, [⟨7, 9, true, 0, 0, false, []⟩], [], none⟩, [], by decide +kernel⟩

theorem witness_NetworkEvents_14 :
    ∃ (p : Fin 8) (up fec : Bool) (s : State),
    (s.ctl.core = true) ∧ (portExists s p.val = true) ∧ ((∀ l ∈ ethLanes s p.val, laneDeaf s (ethQuad p.val) l = false)) :=
  ⟨7, true, true, run, by decide +kernel⟩

theorem witness_NetworkEvents_15 :
    ∃ (p : Fin 8) (up fec : Bool) (s : State),
    (s.ctl.core = true) ∧ (portExists s p.val = true) ∧ ((∃ l ∈ ethLanes s p.val, laneDeaf s (ethQuad p.val) l = true)) :=
  ⟨0, true, true, withRegs [(QD_CFG 4, 9)] run, by decide +kernel⟩

theorem witness_NetworkEvents_16 :
    ∃ (ei : Fin 8) (s : State) (b t0 : Nat),
    (s.ctl.core = true) ∧ ((s.egr ei.val).enabled = true) ∧ ((s.egr ei.val).frame = some (b, t0)) ∧ let e := s.egr ei.val; let f := s.surf (wbSurf (s.head e.head) (b == 1)); let a := f.base + e.line * f.pitch; let rd := engRead s 6 (egrOwner s ei.val) a (f.w * fmtBytes f.fmt); (rd.2.1 = .ok) ∧ (rd.1 = s) :=
  ⟨7, { run with egress := [(7, { enabled := true, port := 7, head := 15, frame := some (1, 0), cfg := BitVec.ofNat 384 (b 48 96) })], heads := [(15, { isSet := true, wbOn := true, wbA := 1, wbB := 2, wbFmt := 2 })], surfs := [(2, { surf with w := 1200, pitch := 16384, fmt := 2 })] }, 1, 0, by decide +kernel⟩

theorem witness_Decoding_1 :
    ∃ (q : Req) (s : State),
    (Admitted s q maskDecBind) ∧ (decBindBad q = false) ∧ let ci := q.u8 16; let cores := bitsSet 16 (q.u16 18); let charge := ceilDiv (q.u32 20) cores.length; (ownsCtx s q.part.val ci = true) ∧ ((∀ i ∈ upFrom (q.u16 26) (q.u8 24), ownsSurf s q.part.val i = true)) ∧ ((∀ i ∈ cores, i < s.nDec)) ∧ ((s.ctx ci).state = .opened) ∧ ((s.ctx ci).codec ≠ 2) ∧ (((s.ctx ci).codec = 0 → q.u8 17 ≠ 1 ∧ q.u8 17 ≠ 3)) ∧ (poolBad s (q.u16 26) (q.u8 24) = false) ∧ ((∀ x ∈ s.ctxs, overlaps (q.u16 26) (q.u8 24) x.2.poolBase x.2.poolN = false)) ∧ ((∀ i ∈ cores, coreLoad s i + charge ≤ 497664000)) ∧ (decUse s q.part.val + q.u32 20 ≤ (s.part q.part.val).qDec) :=
  ⟨req (b 16 255 + b 17 0 + b 18 0x8000 + b 20 497664000 + b 24 2 + b 26 4094), { dec {} with ctxs := [(255, { state := .opened })] }, by decide +kernel⟩

theorem witness_Decoding_2 :
    ∃ (q : Req) (s : State),
    (Admitted s q (bodyMask [(16, 0, 8)])) ∧ (ownsCtx s q.part.val (q.u8 16) = true) ∧ ((s.ctx (q.u8 16)).state ≠ .closed) ∧ ((s.ctx (q.u8 16)).state ≠ .opened) ∧ let ci := q.u8 16; ((s.ctx ci).state = .draining) :=
  ⟨req (b 16 255), dec { decCtx with state := .draining }, by decide +kernel⟩

theorem witness_Decoding_3 :
    ∃ (q : Req) (s : State),
    (Admitted s q (bodyMask [(16, 0, 8)])) ∧ (ownsCtx s q.part.val (q.u8 16) = true) ∧ ((s.ctx (q.u8 16)).state ≠ .closed) ∧ ((s.ctx (q.u8 16)).state ≠ .opened) ∧ let ci := q.u8 16; ((s.ctx ci).state ≠ .draining) ∧ ((s.ctx ci).dec = none) :=
  ⟨req (b 16 255), dec { decCtx with dpb := [pic], state := .halted }, by decide +kernel⟩

theorem witness_Decoding_4 :
    ∃ (q : Req) (s : State),
    (Admitted s q (bodyMask [(16, 0, 8)])) ∧ (ownsCtx s q.part.val (q.u8 16) = true) ∧ ((s.ctx (q.u8 16)).state ≠ .closed) ∧ ((s.ctx (q.u8 16)).state ≠ .opened) ∧ let ci := q.u8 16; ((s.ctx ci).state ≠ .draining) ∧ ((s.ctx ci).dec.isSome = true) :=
  ⟨req (b 16 255), dec { decCtx with dec := some inDec }, by decide +kernel⟩

theorem witness_Decoding_5 :
    ∃ (q : Req) (s : State),
    (Admitted s q (bodyMask [(16, 0, 8)])) ∧ (ownsCtx s q.part.val (q.u8 16) = true) ∧ ((s.ctx (q.u8 16)).state ≠ .closed) ∧ ((s.ctx (q.u8 16)).state ≠ .opened) ∧ let ci := q.u8 16; ((s.ctx ci).state ≠ .draining) ∧ ((s.ctx ci).unbind = []) ∧ ((s.ctx ci).dec = none) :=
  ⟨req (b 16 255), dec { decCtx with dpb := [pic], state := .halted }, by decide +kernel⟩

theorem witness_Decoding_6 :
    ∃ (q : Req) (s : State),
    (Admitted s q (bodyMask [(16, 0, 8)])) ∧ (ownsCtx s q.part.val (q.u8 16) = true) ∧ ((s.ctx (q.u8 16)).state ≠ .closed) ∧ ((s.ctx (q.u8 16)).state ≠ .opened) ∧ let ci := q.u8 16; ((s.ctx ci).state ≠ .draining) ∧ ((s.ctx ci).unbind = []) ∧ ((s.ctx ci).dec.isSome = true) :=
  ⟨req (b 16 255), dec { decCtx with dec := some inDec }, by decide +kernel⟩

theorem witness_Decoding_7 :
    ∃ (core : Fin 16) (i : AuInfo) (s : State) (ci lead b : Nat) (more : List Nat) (au : AuRec) (rest : List AuRec) (g : Seg) (x : Picked),
    (s.ctl.core = true) ∧ (s.ctl.mode ≠ .yield) ∧ (coreBusy s core.val = false) ∧ (s.ctxs.find? (fun x => x.2.chosen.isSome && x.2.cores.getLsbD core.val) = some (ci, s.ctx ci)) ∧ (ctxCores (s.ctx ci) = lead :: more) ∧ ((∀ k ∈ lead :: more, coreBusy s k = false)) ∧ (claimed s (s.ctx ci) = false) ∧ (seeks (s.ctx ci) i = false) ∧ (pwrReady s (pwrDec lead) = false) :=
  ⟨15, auI, { dec { decCtx with chosen := some 0 } with pwr := {} }, 255, 15, 0, [], auR, [], ⟨0, false, 0, List.range 32, none⟩, ⟨seq, false, false, 0⟩, by decide +kernel⟩

theorem witness_Decoding_8 :
    ∃ (core : Fin 16) (i : AuInfo) (s : State) (ci lead b : Nat) (more : List Nat) (au : AuRec) (rest : List AuRec) (g : Seg) (x : Picked),
    (s.ctl.core = true) ∧ (s.ctl.mode ≠ .yield) ∧ (coreBusy s core.val = false) ∧ (s.ctxs.find? (fun x => x.2.chosen.isSome && x.2.cores.getLsbD core.val) = some (ci, s.ctx ci)) ∧ (ctxCores (s.ctx ci) = lead :: more) ∧ ((∀ k ∈ lead :: more, coreBusy s k = false)) ∧ (claimed s (s.ctx ci) = false) ∧ (seeks (s.ctx ci) i = false) ∧ (pwrReady s (pwrDec lead) = true) ∧ ((s.ctx ci).queue = au :: rest) ∧ let c := { s.ctx ci with sets := holdSets (s.ctx ci) i }; let fresh := beginsSeq c i || c.active != some x.seq; let c' := startBump (if fresh then { c with needed := dpbSize c.codec x.seq + 2, active := some x.seq } else c) i x.seq; ((decodable c i).head? = some g) ∧ (pick c g.pps = .inl x) ∧ (refusedFor c.codec x i.raster = 0) ∧ ((fresh = true → spsBad s c x.seq = (false, false))) ∧ ((i.kind = .rasl → c.noRasl = false)) ∧ (freeBuf (s.setCtx ci c') c' = some b) ∧ (divides c i x = true) :=
  ⟨15, auI, dec { decCtx with chosen := some 0 }, 255, 15, 0, [], auR, [], ⟨0, false, 0, List.range 32, none⟩, ⟨seq, false, false, 0⟩, by decide +kernel⟩

theorem witness_Decoding_9 :
    ∃ (core : Fin 16) (i : AuInfo) (s : State) (ci lead b : Nat) (more : List Nat) (au : AuRec) (rest : List AuRec) (g : Seg) (x : Picked),
    (s.ctl.core = true) ∧ (s.ctl.mode ≠ .yield) ∧ (coreBusy s core.val = false) ∧ (s.ctxs.find? (fun x => x.2.chosen.isSome && x.2.cores.getLsbD core.val) = some (ci, s.ctx ci)) ∧ (ctxCores (s.ctx ci) = lead :: more) ∧ ((∀ k ∈ lead :: more, coreBusy s k = false)) ∧ (claimed s (s.ctx ci) = false) ∧ (seeks (s.ctx ci) i = false) ∧ (pwrReady s (pwrDec lead) = true) ∧ ((s.ctx ci).queue = au :: rest) ∧ let c := { s.ctx ci with sets := holdSets (s.ctx ci) i }; let fresh := beginsSeq c i || c.active != some x.seq; let c' := startBump (if fresh then { c with needed := dpbSize c.codec x.seq + 2, active := some x.seq } else c) i x.seq; ((decodable c i).head? = some g) ∧ (pick c g.pps = .inl x) ∧ (refusedFor c.codec x i.raster = 0) ∧ ((fresh = true → spsBad s c x.seq = (false, false))) ∧ ((i.kind = .rasl → c.noRasl = false)) ∧ (freeBuf (s.setCtx ci c') c' = some b) ∧ (divides c i x = false) :=
  ⟨15, auI, dec { decCtx with chosen := some 0, div := 1 }, 255, 15, 0, [], auR, [], ⟨0, false, 0, List.range 32, none⟩, ⟨seq, false, false, 0⟩, by decide +kernel⟩

theorem witness_Decoding_10 :
    ∃ (core : Fin 16) (r : PicResult) (s : State) (ci : Nat) (c : Ctx) (d : InDecode),
    (s.ctxs.find? (fun x => match x.2.dec with | some d => d.cores.head? == some core.val | none => false) = some (ci, c)) ∧ (c.dec = some d) ∧ (picHeld s (ctxOwner s ci) c d r = false) :=
  ⟨15, ⟨[⟨0, 0, 64, 64, .intra [(0, 0)]⟩], [(0, [1, 2])], true, [], []⟩, dec { decCtx with sets := auI.sets, dec := some inDec }, 255, { decCtx with sets := auI.sets, dec := some inDec }, inDec, by decide +kernel⟩

theorem witness_Decoding_11 :
    ∃ (ctx : Fin 256) (s : State) (d : DPic),
    ((s.ctx ctx.val).state ≠ .halted) ∧ (nextOut (s.ctx ctx.val) = some d) :=
  ⟨255, dec { decCtx with dpb := [pic], leaving := [1] }, pic, by decide +kernel⟩

theorem witness_PixelPaths_1 :
    ∃ (q : Req) (s : State),
    (Admitted s q maskIppRun) ∧ (q.u8 18 = 1) ∧ let m := runPrm q; let src := s.surf (q.u16 22); let dst := s.surf (q.u16 20); let c := cropOf m (0, 0, src.w, src.h); (prmBad m = false) ∧ (src.created = true) ∧ (src.reg = true) ∧ (cropOut c src.w src.h = false) ∧ (ownsSurf s q.part.val (q.u16 20) = true) ∧ (ownsSurf s q.part.val (q.u16 22) = true) ∧ (dst.created = true) ∧ ((dst.fmt < 4 ↔ src.fmt < 4)) ∧ (scaleBad c (scaledSize dst m.rot) = false) ∧ (lineShort m.pair dst m.rot = false) ∧ (onScreen s (q.u16 20) = false) :=
  ⟨req (b 16 15 + b 18 1 + b 20 4095 + b 22 4094), { ipp [] with jobs := [], pwr := {} }, by decide +kernel⟩

theorem witness_PixelPaths_2 :
    ∃ (q : Req) (s : State) (rec : Bytes),
    (Admitted s q maskIppRun) ∧ (q.u8 18 = 0) ∧ (q.u40 24 % 64 = 0) ∧ (engRead s 10 q.part.val (q.u40 24) 64 = (s, .ok, rec)) ∧ let m := runPrm q; let src := workIn s q.part.val (.picture rec); let dst := s.surf (q.u16 20); let c := cropOf m src.2.1; (prmBad m = false) ∧ ((s.surf (recSurface rec)).created = true) ∧ (cropOut c src.1.w src.1.h = false) ∧ (ownsSurf s q.part.val (q.u16 20) = true) ∧ (ownsSurf s q.part.val (recSurface rec) = true) ∧ (dst.created = true) ∧ (src.1.yuv = decide (dst.fmt < 4)) ∧ (scaleBad c (scaledSize dst m.rot) = false) ∧ (lineShort m.pair dst m.rot = false) ∧ (onScreen s (q.u16 20) = false) :=
  ⟨req (b 16 15 + b 18 0 + b 20 4095 + b 24 0x191000000), followed [], recd, by decide +kernel⟩

theorem witness_PixelPaths_3 :
    ∃ (q : Req) (s : State),
    (Admitted s q maskIppFollow) ∧ (q.u8 16 ≤ 63) ∧ (2 ≤ q.u8 20) ∧ (q.u8 20 ≤ 4) ∧ (q.u16 22 + q.u8 20 ≤ 4096) ∧ let m := followPrm q; let f := s.surf (q.u16 22); let c := s.ctx (q.u8 21); let raw := c.codec = 2 ∧ c.state ≠ .closed; let crop := cropOf m (0, 0, c.rawW, c.rawH); let charge := if m.pair then ceilDiv (q.u32 24) 2 else q.u32 24; (prmBad m = false) ∧ (ownsFollow s q.part.val (q.u8 16) = true) ∧ (ownsCtx s q.part.val (q.u8 21) = true) ∧ ((∀ n ∈ upFrom (q.u16 22) (q.u8 20), ownsSurf s q.part.val n = true ∧ (s.surf n).created = true ∧ (s.surf n).w = f.w ∧ (s.surf n).h = f.h ∧ (s.surf n).fmt = f.fmt)) ∧ ((raw → cropOut crop c.rawW c.rawH = false ∧ scaleBad crop (scaledSize f m.rot) = false ∧ (f.fmt < 4 ↔ c.rawFmt < 2))) ∧ ((¬ raw → f.fmt < 4)) ∧ ((cropNamed m = true → scaleBad crop (scaledSize f m.rot) = false)) ∧ (lineShort m.pair f m.rot = false) ∧ ((s.follow (q.u8 16)).bound = false) ∧ ((∀ x ∈ s.follows, x.2.bound = true → x.2.ctx ≠ q.u8 21)) ∧ (instLoad s m.inst + charge ≤ 2000000000) ∧ ((m.pair = true → instLoad s (m.inst + 1) + charge ≤ 2000000000)) ∧ (ippUse s q.part.val + q.u32 24 ≤ (s.part q.part.val).qIpp) :=
  ⟨req (b 16 63 + b 17 15 + b 20 2 + b 21 255 + b 22 4094 + b 24 2000000000), ipp [], by decide +kernel⟩

theorem witness_PixelPaths_4 :
    ∃ (q : Req) (s : State),
    (Admitted s q (bodyMask [(16, 0, 8)])) ∧ (q.u8 16 ≤ 63) ∧ (ownsFollow s q.part.val (q.u8 16) = true) ∧ ((s.follow (q.u8 16)).closing = []) ∧ (followBusy s (q.u8 16) = false) :=
  ⟨req (b 16 63), { ipp [] with follows := [(63, { bound := true, ctx := 1, charge := 5, rate := 5, count := 3, prm := (work 3).prm })] }, by decide +kernel⟩

theorem witness_PixelPaths_5 :
    ∃ (q : Req) (s : State) (i : Nat) (w : IppWork),
    (Admitted s q (bodyMask [(16, 0, 8)])) ∧ (q.u8 16 ≤ 63) ∧ (ownsFollow s q.part.val (q.u8 16) = true) ∧ (i < 16) ∧ (s.ippW i = some w) ∧ (w.begun = true) ∧ (w.follow = some (q.u8 16)) :=
  ⟨req (b 16 63), { ipp [(15, some { work 15 with begun := true, follow := some 63, job := none })] with follows := [(63, { bound := true, ctx := 1 })] }, 15, { work 15 with begun := true, follow := some 63, job := none }, by decide +kernel⟩

theorem witness_PixelPaths_6 :
    ∃ (i : Fin 16) (s : State) (w : Machine.IppWork),
    (s.ctl.core = true) ∧ (s.ctl.mode ≠ .yield) ∧ (instBusy s i.val = false) ∧ (earliestItem (readyFollows s i.val ++ readyRuns s i.val) = some w) ∧ ((∀ k, w.follow = some k → liveOrPending s (followTarget (s.follow k)) = false)) ∧ ((w.prm.pair = false ∨ s.ippW (i.val ^^^ 1) = none)) :=
  ⟨15, ipp [], work 15, by decide +kernel⟩

theorem witness_PixelPaths_7 :
    ∃ (i : Fin 16) (s : State) (w : Machine.IppWork),
    (s.ctl.core = true) ∧ (s.ctl.mode ≠ .yield) ∧ (instBusy s i.val = false) ∧ (earliestItem (readyFollows s i.val ++ readyRuns s i.val) = some w) ∧ ((∀ k, w.follow = some k → liveOrPending s (followTarget (s.follow k)) = false)) ∧ (w.prm.pair = true) ∧ ((s.ippW (i.val ^^^ 1)).isSome = true) :=
  ⟨14, { ipp [(15, some { work 15 with job := some 2 })] with jobs := [job 3 0x0501 (b 16 14 + b 17 1 + b 18 1 + b 20 4095 + b 22 4094)] }, { work 14 with prm := { (work 14).prm with pair := true } }, by decide +kernel⟩

theorem witness_PixelPaths_8 :
    ∃ (i : Fin 16) (s : State) (w : Machine.IppWork) (k : Nat),
    (s.ctl.core = true) ∧ (s.ctl.mode ≠ .yield) ∧ (instBusy s i.val = false) ∧ (earliestItem (readyFollows s i.val ++ readyRuns s i.val) = some w) ∧ (w.follow = some k) ∧ (liveOrPending s (followTarget (s.follow k)) = true) :=
  ⟨15, { followed [] with layers := [(255, { created := true, head := 15, buf := some 4095, cur := { visible := true, live := true, source := .surface (some 4095) } })] }, followWork, 63, by decide +kernel⟩

theorem witness_PixelPaths_9 :
    ∃ (i : Fin 16) (s : State) (w : Machine.IppWork),
    (s.ctl.core = true) ∧ (s.ctl.mode ≠ .yield) ∧ (s.ippW i.val = some w) ∧ (w.begun = false) ∧ ((w.prm.pair = false ∨ s.ippW (i.val ^^^ 1) = none)) ∧ (pwrReady s (pwrIpp i.val) = false) :=
  ⟨15, { ipp [(15, some (work 15))] with pwr := {} }, work 15, by decide +kernel⟩

theorem witness_PixelPaths_10 :
    ∃ (i : Fin 16) (s : State) (w : Machine.IppWork),
    (s.ctl.core = true) ∧ (s.ctl.mode ≠ .yield) ∧ (s.ippW i.val = some w) ∧ (w.begun = false) ∧ ((w.prm.pair = false ∨ s.ippW (i.val ^^^ 1) = none)) ∧ (pwrReady s (pwrIpp i.val) = true) ∧ (w.follow = none) :=
  ⟨15, ipp [(15, some (work 15))], work 15, by decide +kernel⟩

theorem witness_PixelPaths_11 :
    ∃ (i : Fin 16) (s : State) (w : Machine.IppWork) (k : Nat) (src : IppSource),
    (s.ctl.core = true) ∧ (s.ctl.mode ≠ .yield) ∧ (s.ippW i.val = some w) ∧ (w.begun = false) ∧ ((w.prm.pair = false ∨ s.ippW (i.val ^^^ 1) = none)) ∧ (pwrReady s (pwrIpp i.val) = true) ∧ (w.follow = some k) ∧ (recordHeld s k = false) ∧ (liveOrPending s (followTarget (s.follow k)) = false) ∧ let u := takeNewest s k; (u.2 = some src) ∧ (pictureFits u.1 (followOwner s k) w.prm src (followTarget (s.follow k)) = true) :=
  ⟨15, followed [(15, some followWork)], followWork, 63, .picture recd, by decide +kernel⟩

theorem witness_PixelPaths_12 :
    ∃ (i : Fin 16) (s : State) (w : Machine.IppWork) (j : Job) (id : Nat),
    (s.ippW i.val = some w) ∧ (w.begun = true) ∧ (w.job = some id) ∧ (s.job id = some j) ∧ (ippHeld s j.req.part.val w = false) :=
  ⟨15, { ipp [(15, some { work 15 with begun := true })] with surfs := [(4094, small), (4095, small)] }, { work 15 with begun := true }, job 3 0x0501 (b 16 15 + b 18 1 + b 20 4095 + b 22 4094), 3, by decide +kernel⟩

theorem witness_PixelPaths_13 :
    ∃ (i : Fin 16) (s : State) (w : Machine.IppWork) (k : Nat),
    (s.ippW i.val = some w) ∧ (w.begun = true) ∧ (w.job = none) ∧ (w.follow = some k) ∧ (ippHeld s (followOwner s k) w = false) :=
  ⟨15, { ipp [(15, some { work 15 with begun := true, follow := some 63, job := none })] with follows := [(63, { bound := true, ctx := 1 })] }, { work 15 with begun := true, follow := some 63, job := none }, 63, by decide +kernel⟩

theorem witness_Encoding_1 :
    ∃ (q : Req) (s : State),
    (Admitted s q maskEncOpen) ∧ (encOpenBad q = false) ∧ let e := encOf q; let o := s.enc (q.u8 16); (ownsSess s q.part.val (q.u8 16) = true) ∧ ((e.follow = true → e.head < s.nHeads ∧ ownsHead s q.part.val e.head = true ∧ (s.head e.head).hAct = e.w ∧ (s.head e.head).vAct = e.h ∧ ((s.head e.head).wbOn = true → (s.surf (s.head e.head).wbA).fmt ≤ 1))) ∧ (o.opened = false) ∧ ((∀ i ∈ encCores e, i < s.nEnc ∧ encLoad s i + e.charge ≤ 497664000)) ∧ (encUse s q.part.val + encRate e ≤ (s.part q.part.val).qEnc) :=
  ⟨req (b 16 31 + b 17 1 + b 18 15 + b 19 7 + b 20 640 + b 22 480 + b 24 60 + b 26 1 + b 28 0 + b 29 0 + b 30 51 + b 31 30 + b 42 2 + b 44 15 + b 45 8 + b 46 64 + b 48 4096 + b 56 65536 + b 60 1 + b 32 1000000 + b 40 2000), { run with heads := [(15, head0)] }, by decide +kernel⟩

theorem witness_Encoding_2 :
    ∃ (q : Req) (s : State),
    (Admitted s q (bodyMask [(16, 0, 8), (17, 0, 1), (18, 0, 12), (20, 0, 32)])) ∧ (q.u8 16 ≤ 31) ∧ (ownsSess s q.part.val (q.u8 16) = true) ∧ (ownsSurf s q.part.val (q.u16 18) = true) ∧ ((s.enc (q.u8 16)).opened = true) ∧ ((s.enc (q.u8 16)).follow = false) ∧ ((s.surf (q.u16 18)).reg = true) ∧ ((s.surf (q.u16 18)).w = (s.enc (q.u8 16)).w) ∧ ((s.surf (q.u16 18)).h = (s.enc (q.u8 16)).h) ∧ ((s.surf (q.u16 18)).fmt ≤ 1) :=
  ⟨req (b 16 31 + b 17 1 + b 18 4094 + b 20 77), enc sess, by decide +kernel⟩

theorem witness_Encoding_3 :
    ∃ (q : Req) (s : State),
    (Admitted s q (bodyMask [(16, 0, 8), (17, 0, 1)])) ∧ (q.u8 16 ≤ 31) ∧ (ownsSess s q.part.val (q.u8 16) = true) ∧ ((s.enc (q.u8 16)).opened = true) :=
  ⟨req (b 16 31 + b 17 1), enc sess, by decide +kernel⟩

theorem witness_Encoding_4 :
    ∃ (q : Req) (s : State),
    (Admitted s q (bodyMask [(16, 0, 8)])) ∧ (q.u8 16 ≤ 31) ∧ (ownsSess s q.part.val (q.u8 16) = true) ∧ ((s.enc (q.u8 16)).opened = true) ∧ ((s.enc (q.u8 16)).work = none) ∧ ((s.enc (q.u8 16)).closing = []) :=
  ⟨req (b 16 31), enc sess, by decide +kernel⟩

theorem witness_Encoding_5 :
    ∃ (q : Req) (s : State),
    (Admitted s q (bodyMask [(16, 0, 8)])) ∧ (q.u8 16 ≤ 31) ∧ (ownsSess s q.part.val (q.u8 16) = true) ∧ ((s.enc (q.u8 16)).opened = true) ∧ ((s.enc (q.u8 16)).work.isSome = true) :=
  ⟨req (b 16 31), enc { sess with work := some ⟨none, 4094, true, 0, [], 0, none⟩ }, by decide +kernel⟩

theorem witness_Encoding_6 :
    ∃ (k : Fin 32) (s : State),
    (s.ctl.core = true) ∧ (s.ctl.mode ≠ .yield) ∧ ((s.enc k.val).opened = true) ∧ ((s.enc k.val).work = none) ∧ ((s.enc k.val).closing = []) ∧ let e := s.enc k.val; ((if e.follow then e.due.isSome else (encJob s k.val).isSome) = true) ∧ (pwrReady s (pwrEnc k.val) = false) ∧ (encBlocked s k.val = false) :=
  ⟨31, { enc sess with jobs := [job 3 0x0602 (b 16 31 + b 18 4094)], pwr := {} }, by decide +kernel⟩

theorem witness_Encoding_7 :
    ∃ (k : Fin 32) (s : State) (j : Job),
    (s.ctl.core = true) ∧ (s.ctl.mode ≠ .yield) ∧ ((s.enc k.val).opened = true) ∧ ((s.enc k.val).work = none) ∧ ((s.enc k.val).closing = []) ∧ let e := s.enc k.val; (e.follow = false) ∧ (encJob s k.val = some j) ∧ (pwrReady s (pwrEnc k.val) = true) :=
  ⟨31, { enc sess with jobs := [job 3 0x0602 (b 16 31 + b 18 4094)] }, job 3 0x0602 (b 16 31 + b 18 4094), by decide +kernel⟩

theorem witness_Encoding_8 :
    ∃ (k : Fin 32) (s : State) (buf : Nat) (stale : List Nat) (live : Bool) (t : BitVec 32) (boundary : Nat),
    (s.ctl.core = true) ∧ (s.ctl.mode ≠ .yield) ∧ ((s.enc k.val).opened = true) ∧ ((s.enc k.val).work = none) ∧ ((s.enc k.val).closing = []) ∧ let e := s.enc k.val; (e.follow = true) ∧ (e.due = some (buf, stale, live, some t, boundary)) ∧ (pwrReady s (pwrEnc k.val) = true) :=
  ⟨31, enc { sess with follow := true, due := some (0, [], false, some 5, 0) }, 0, [], false, 5, 0, by decide +kernel⟩

theorem witness_Encoding_9 :
    ∃ (k : Fin 32) (pic : CodedPic) (s : State) (w : EncWork) (j : Job),
    ((s.enc k.val).work = some w) ∧ let e := s.enc k.val; (encHeld s k.val (auBytes e w pic) w = false) ∧ (w.job.bind s.job = some j) ∧ (j.stops = true) :=
  ⟨31, ⟨[], [], []⟩, { enc { sess with work := some ⟨some 3, 4094, true, 0, [], 0, none⟩ } with jobs := [{ runJob 3 0x0602 (b 16 31 + b 18 4094) with abortBy := [2] }] }, ⟨some 3, 4094, true, 0, [], 0, none⟩, { runJob 3 0x0602 (b 16 31 + b 18 4094) with abortBy := [2] }, by decide +kernel⟩

theorem witness_Encoding_10 :
    ∃ (k : Fin 32) (pic : CodedPic) (s : State) (w : EncWork),
    ((s.enc k.val).work = some w) ∧ let e := s.enc k.val; let src := encSource s (sessOwner s k.val) e (s.surf w.surface); (encHeld s k.val (auBytes e w pic) w = false) ∧ ((∀ j, w.job.bind s.job = some j → j.stops = false)) ∧ (src.2.1 ≠ .ok) ∧ (w.job.isSome = true) :=
  ⟨31, ⟨[], [], []⟩, { enc { sess with work := some ⟨some 3, 4094, true, 0, [], 0, none⟩ } with surfs := [(4094, { surf with reg := true, base := 0x6000000000 })], jobs := [runJob 3 0x0602 (b 16 31 + b 18 4094)] }, ⟨some 3, 4094, true, 0, [], 0, none⟩, by decide +kernel⟩

theorem witness_Encoding_11 :
    ∃ (k : Fin 32) (pic : CodedPic) (s : State) (w : EncWork),
    ((s.enc k.val).work = some w) ∧ let e := s.enc k.val; let hdr := hdrBits e w pic; let src := encSource s (sessOwner s k.val) e (s.surf w.surface); (encHeld s k.val (auBytes e w pic) w = false) ∧ ((∀ j, w.job.bind s.job = some j → j.stops = false)) ∧ ((src.2.1 = .ok ∨ w.job = none)) ∧ (rcRoom e < (hdr : Int) + 96 * (encCols e : Int) * (encRows e : Int)) :=
  ⟨31, ⟨[], [], []⟩, enc { sess with rc := 0, full := 10000000, rate := 100, bufMs := 100, work := some ⟨none, 4094, true, 0, [], 0, none⟩ }, ⟨none, 4094, true, 0, [], 0, none⟩, by decide +kernel⟩

theorem witness_Encoding_12 :
    ∃ (k : Fin 32) (pic : CodedPic) (s : State) (w : EncWork),
    ((s.enc k.val).work = some w) ∧ let e := s.enc k.val; let hdr := hdrBits e w pic; let runs := codePicture e w.idr hdr pic.rows; let src := encSource s (sessOwner s k.val) e (s.surf w.surface); let burst := w.idr = true ∧ (picStart e hdr).2 < runs.foldl (fun (n : Int) r => n + r.used) 0; (encHeld s k.val (auBytes e w pic) w = false) ∧ ((∀ j, w.job.bind s.job = some j → j.stops = false)) ∧ ((src.2.1 = .ok ∨ w.job = none)) ∧ ((hdr : Int) + 96 * (encCols e : Int) * (encRows e : Int) ≤ rcRoom e) ∧ (burst) :=
  ⟨31, ⟨[], [], List.replicate 4 ⟨List.replicate 4000 true, [], [], []⟩⟩, enc { sess with rc := 0, rate := 100, bufMs := 100, work := some ⟨none, 4094, true, 0, [], 0, none⟩ }, ⟨none, 4094, true, 0, [], 0, none⟩, by decide +kernel⟩

theorem witness_Encoding_13 :
    ∃ (k : Fin 32) (pic : CodedPic) (s : State) (w : EncWork),
    ((s.enc k.val).work = some w) ∧ let e := s.enc k.val; let hdr := hdrBits e w pic; let runs := codePicture e w.idr hdr pic.rows; let src := encSource s (sessOwner s k.val) e (s.surf w.surface); let burst := w.idr = true ∧ (picStart e hdr).2 < runs.foldl (fun (n : Int) r => n + r.used) 0; (encHeld s k.val (auBytes e w pic) w = false) ∧ ((∀ j, w.job.bind s.job = some j → j.stops = false)) ∧ ((src.2.1 = .ok ∨ w.job = none)) ∧ ((hdr : Int) + 96 * (encCols e : Int) * (encRows e : Int) ≤ rcRoom e) ∧ (¬ burst) :=
  ⟨31, ⟨[], [], []⟩, enc { sess with work := some ⟨none, 4094, true, 0, [], 0, none⟩ }, ⟨none, 4094, true, 0, [], 0, none⟩, by decide +kernel⟩

theorem witness_SurfacesAndUploads_1 :
    ∃ (q : Req) (s : State),
    (Admitted s q maskSurfCreate) ∧ (surfBad s (surfOf q) = false) ∧ (ownsSurf s q.part.val (q.u16 16) = true) ∧ (q.u8 18 ≤ 5) ∧ (surfInUse s (q.u16 16) = false) ∧ (q.bit 36 0 = false) :=
  ⟨req (b 16 4095 + b 18 0 + b 20 128 + b 22 64 + b 24 0x180000000 + b 32 256), run, by decide +kernel⟩

theorem witness_SurfacesAndUploads_2 :
    ∃ (q : Req) (s : State) (b : Nat),
    (Admitted s q maskSurfCreate) ∧ (surfBad s (surfOf q) = false) ∧ (ownsSurf s q.part.val (q.u16 16) = true) ∧ (q.u8 18 ≤ 5) ∧ (surfInUse s (q.u16 16) = false) ∧ let f := surfOf q; (q.bit 36 0 = true) ∧ (bindingBad (bound q f) = false) ∧ (runFor s q.part.val (q.u16 16) f.tiles = .inl b) :=
  ⟨req (b 16 4095 + b 18 0 + b 20 128 + b 22 64 + b 24 0x180000000 + b 32 256 + b 36 1 + b 37 100 + b 38 5 + b 40 60000 + b 42 1 + b 44 0xFFFF + b 46 0xFFFF + b 48 0xFFFF), run, 0, by decide +kernel⟩

theorem witness_SurfacesAndUploads_3 :
    ∃ (q : Req) (s : State),
    (Admitted s q (bodyMask [(16, 0, 12)])) ∧ (ownsSurf s q.part.val (q.u16 16) = true) ∧ (surfInUse s (q.u16 16) = false) :=
  ⟨req (b 16 4095), { run with surfs := [(4095, { surf with reg := true, lbase := 5 })] }, by decide +kernel⟩

theorem witness_SurfacesAndUploads_4 :
    ∃ (q : Req) (s : State),
    (Admitted s q maskSurfUpload) ∧ (uploadBad (s.surf (q.u16 16)) q = false) ∧ (ownsSurf s q.part.val (q.u16 16) = true) ∧ (onScreen s (q.u16 16) = false) :=
  ⟨req (b 16 4094 + b 20 64 + b 24 64 + b 26 64), ipp [], by decide +kernel⟩

theorem witness_SurfacesAndUploads_5 :
    ∃ (id : Nat) (h : HostRead) (s : State) (j : Job),
    (s.job id = some j) ∧ (j.opcode = 0x0703) ∧ (mayRun s j = true) ∧ let q := j.req; let n := q.u16 16; let f := s.surf n; let y := q.u16 22 + 64 * j.n; let dst := rectRows f (q.u16 20) y (q.u16 24) (Nat.min 64 (q.u16 26 - 64 * j.n)); (rowsDec s 34 q.part.val .w dst = .held) :=
  ⟨3, .error, heldAt 0x186000000 { run with surfs := [(4094, small)], jobs := [job 3 0x0703 (b 16 4094 + b 24 16 + b 26 16 + b 32 0x190000000)], nextJob := 4 }, job 3 0x0703 (b 16 4094 + b 24 16 + b 26 16 + b 32 0x190000000), by decide +kernel⟩

theorem witness_SurfacesAndUploads_6 :
    ∃ (id : Nat) (h : HostRead) (s : State) (j : Job),
    (s.job id = some j) ∧ (j.opcode = 0x0703) ∧ (mayRun s j = true) ∧ let q := j.req; let n := q.u16 16; let f := s.surf n; let y := q.u16 22 + 64 * j.n; let dst := rectRows f (q.u16 20) y (q.u16 24) (Nat.min 64 (q.u16 26 - 64 * j.n)); let rd := hostReads s q.part.val (uploadSrc f q j.n) h; (rowsDec s 34 q.part.val .w dst ≠ .held) ∧ (rd.2.1 = stWaits) :=
  ⟨3, .error, heldAt 0x190000000 (hp4 { run with surfs := [(4094, small)], jobs := [job 3 0x0703 (b 16 4094 + b 24 16 + b 26 16 + b 32 0x190000000)], nextJob := 4 }), job 3 0x0703 (b 16 4094 + b 24 16 + b 26 16 + b 32 0x190000000), by decide +kernel⟩

theorem witness_SurfacesAndUploads_7 :
    ∃ (id : Nat) (h : HostRead) (s : State) (j : Job),
    (s.job id = some j) ∧ (j.opcode = 0x0703) ∧ (mayRun s j = true) ∧ let q := j.req; let n := q.u16 16; let f := s.surf n; let y := q.u16 22 + 64 * j.n; let dst := rectRows f (q.u16 20) y (q.u16 24) (Nat.min 64 (q.u16 26 - 64 * j.n)); let rd := hostReads s q.part.val (uploadSrc f q j.n) h; (rowsDec s 34 q.part.val .w dst ≠ .held) ∧ (rd.2.1 ≠ stWaits) ∧ (rd.2.1 ≠ stComplete) :=
  ⟨3, .error, { run with surfs := [(4094, small)], jobs := [job 3 0x0703 (b 16 4094 + b 24 16 + b 26 16)], nextJob := 4 }, job 3 0x0703 (b 16 4094 + b 24 16 + b 26 16), by decide +kernel⟩

theorem witness_SurfacesAndUploads_8 :
    ∃ (id : Nat) (h : HostRead) (s : State) (j : Job),
    (s.job id = some j) ∧ (j.opcode = 0x0703) ∧ (mayRun s j = true) ∧ let q := j.req; let n := q.u16 16; let f := s.surf n; let y := q.u16 22 + 64 * j.n; let dst := rectRows f (q.u16 20) y (q.u16 24) (Nat.min 64 (q.u16 26 - 64 * j.n)); let rd := hostReads s q.part.val (uploadSrc f q j.n) h; (rowsDec s 34 q.part.val .w dst ≠ .held) ∧ (rd.2.1 = stComplete) :=
  ⟨3, .bytes [1, 2], { run with surfs := [(4094, { small with h := 65 })], jobs := [job 3 0x0703 (b 16 4094 + b 24 16 + b 26 65)], nextJob := 4 }, job 3 0x0703 (b 16 4094 + b 24 16 + b 26 65), by decide +kernel⟩

theorem witness_LayersAndHeads_1 :
    ∃ (q : Req) (s : State),
    (Admitted s q (bodyMask [(16, 0, 16), (18, 0, 8), (19, 0, 1), (20, 0, 8)])) ∧ (q.u16 16 ≤ 255) ∧ (q.u8 18 ≤ 15) ∧ (gangMember s (q.u8 18) = false) ∧ ((q.bit 19 0 = true ∨ 1 ≤ q.u8 20 ∧ q.u8 20 ≤ 30)) ∧ (q.u8 18 < s.nHeads) ∧ (ownsLayer s q.part.val (q.u16 16) = true) ∧ (ownsHead s q.part.val (q.u8 18) = true) ∧ ((s.layer (q.u16 16)).created = false) ∧ ((q.bit 19 0 = true → ∀ x ∈ layersOf s (q.u8 18), x.2.cursor = false)) ∧ ((q.bit 19 0 = false → (∀ x ∈ layersOf s (q.u8 18), x.2.cursor = false → x.2.cur.z ≠ q.u8 20) ∧ ((layersOf s (q.u8 18)).filter fun x => !x.2.cursor).length < 30)) :=
  ⟨req (b 16 255 + b 18 15 + b 20 30), run, by decide +kernel⟩

theorem witness_LayersAndHeads_2 :
    ∃ (q : Req) (s : State),
    (Admitted s q (maskLayerUpdate q)) ∧ (q.u16 16 ≤ 255) ∧ let n := q.u16 16; let l := s.layer n; let k := if !l.cursor && q.bit 19 3 then some (BitVec.ofNat 32 (q.u32 44)) else none; (firstFail (layerUpdateChecks s q l (stateAfter l k (layerGroups q) (layerVals q))) = none) ∧ (mergesInto l k = []) :=
  ⟨req (b 16 255 + b 18 0x1F + b 19 4 + b 20 4095 + b 28 128 + b 30 64 + b 36 1023 + b 38 2 + b 39 0 + b 40 30), { run with heads := [(15, head0)], surfs := [(4095, surf)], layers := [(255, { created := true, head := 15, cur := { cropW := 64, cropH := 64, z := 1 } })], nextJob := 7 }, by decide +kernel⟩

theorem witness_LayersAndHeads_3 :
    ∃ (q : Req) (s : State) (o : Pending) (jo : Job),
    (Admitted s q (maskLayerUpdate q)) ∧ (q.u16 16 ≤ 255) ∧ let n := q.u16 16; let l := s.layer n; let k := if !l.cursor && q.bit 19 3 then some (BitVec.ofNat 32 (q.u32 44)) else none; (firstFail (layerUpdateChecks s q l (stateAfter l k (layerGroups q) (layerVals q))) = none) ∧ (mergesInto l k = [o]) ∧ (o.job ≠ s.nextJob) ∧ (s.job o.job = some jo) ∧ (jo.abortBy = []) ∧ (jo.yielded = false) :=
  ⟨req (b 16 255 + b 18 0x1F + b 19 4 + b 20 4095 + b 28 128 + b 30 64 + b 36 1023 + b 38 2 + b 39 0 + b 40 30), { run with heads := [(15, head0)], surfs := [(4095, surf)], layers := [(255, { pend := [⟨1, { cropW := 2 }, none, false, 5, 2, false, none⟩], created := true, head := 15, cur := { cropW := 64, cropH := 64, z := 1 } })], nextJob := 7, jobs := [job 5 0x0802 0] }, ⟨1, { cropW := 2 }, none, false, 5, 2, false, none⟩, job 5 0x0802 0, by decide +kernel⟩

theorem witness_LayersAndHeads_4 :
    ∃ (q : Req) (s : State) (o1 : Pending) (o2 : Pending),
    (Admitted s q (maskLayerUpdate q)) ∧ (q.u16 16 ≤ 255) ∧ let n := q.u16 16; let l := s.layer n; let k := if !l.cursor && q.bit 19 3 then some (BitVec.ofNat 32 (q.u32 44)) else none; (firstFail (layerUpdateChecks s q l (stateAfter l k (layerGroups q) (layerVals q))) = none) ∧ (mergesInto l k = [o1, o2]) :=
  ⟨req (b 16 255 + b 18 0x1F + b 19 4 + b 20 4095 + b 28 128 + b 30 64 + b 36 1023 + b 38 2 + b 39 0 + b 40 30), { run with heads := [(15, head0)], surfs := [(4095, surf)], layers := [(255, { pend := [⟨1, { cropW := 2 }, none, false, 5, 2, false, none⟩, ⟨2, { cropW := 2 }, none, false, 6, 2, false, none⟩], created := true, head := 15, cur := { cropW := 64, cropH := 64, z := 1 } })], nextJob := 7, jobs := [job 5 0x0802 0, job 6 0x0802 0] }, ⟨1, { cropW := 2 }, none, false, 5, 2, false, none⟩, ⟨2, { cropW := 2 }, none, false, 6, 2, false, none⟩, by decide +kernel⟩

theorem witness_LayersAndHeads_5 :
    ∃ (q : Req) (s : State),
    (Admitted s q (bodyMask [(16, 0, 16)])) ∧ (q.u16 16 ≤ 255) ∧ ((s.layer (q.u16 16)).created = true) ∧ (ownsLayer s q.part.val (q.u16 16) = true) :=
  ⟨req (b 16 255), { run with heads := [(15, head0)], surfs := [(4095, surf)], layers := [(255, { created := true, head := 15, cur := { cropW := 64, cropH := 64, z := 1 } })], nextJob := 7 }, by decide +kernel⟩

theorem witness_LayersAndHeads_6 :
    ∃ (q : Req) (s : State),
    (Admitted s q maskHeadSet) ∧ let n := q.u8 16; let h := headOf (s.head n) q; (n ≤ 15) ∧ (gangMember s n = false) ∧ ((h.gang = true → n % 2 = 0)) ∧ (h.tg ≤ 7) ∧ (timingBad h = false) ∧ (pulseBad h = false) ∧ ((∀ k ∈ h.liningSurf, k ≤ 4095 ∧ (s.surf k).created = true ∧ ownsSurf s q.part.val k = true ∧ (s.surf k).w = h.hAct ∧ (s.surf k).h = h.vAct)) ∧ (n < s.nHeads) ∧ (ownsHead s q.part.val n = true) ∧ ((h.gang = true → ownsHead s q.part.val (n + 1) = true ∧ slotBusy s (n + 1) = false ∧ (s.head (n + 1)).enabled = false)) ∧ ((s.head n).enabled = false) ∧ (tgMismatch s n h = false) ∧ ((∀ x ∈ layersOf s n, x.2.cur.live = true → x.2.cur.visible = true → hitsPulse h x.2.cur = false)) ∧ (h.gang = true) ∧ ((s.head n).auxJobs = []) ∧ ((s.head (n + 1)).auxJobs = []) :=
  ⟨req (b 16 14 + b 18 7 + b 20 25000 + b 28 20 + b 30 20 + b 32 480 + b 34 8 + b 36 1 + b 38 1 + b 17 1 + b 24 1280 + b 26 160 + b 44 1 + b 46 3 + b 48 1264 + b 50 464), { run with surfs := [(1, { full with w := 1280 })], heads := [(14, { isSet := true, tg := 3 })] }, by decide +kernel⟩

theorem witness_LayersAndHeads_7 :
    ∃ (q : Req) (s : State),
    (Admitted s q maskHeadSet) ∧ let n := q.u8 16; let h := headOf (s.head n) q; (n ≤ 15) ∧ (gangMember s n = false) ∧ ((h.gang = true → n % 2 = 0)) ∧ (h.tg ≤ 7) ∧ (timingBad h = false) ∧ (pulseBad h = false) ∧ ((∀ k ∈ h.liningSurf, k ≤ 4095 ∧ (s.surf k).created = true ∧ ownsSurf s q.part.val k = true ∧ (s.surf k).w = h.hAct ∧ (s.surf k).h = h.vAct)) ∧ (n < s.nHeads) ∧ (ownsHead s q.part.val n = true) ∧ ((h.gang = true → ownsHead s q.part.val (n + 1) = true ∧ slotBusy s (n + 1) = false ∧ (s.head (n + 1)).enabled = false)) ∧ ((s.head n).enabled = false) ∧ (tgMismatch s n h = false) ∧ ((∀ x ∈ layersOf s n, x.2.cur.live = true → x.2.cur.visible = true → hitsPulse h x.2.cur = false)) ∧ let fits := h.src = 3 ∨ (h.src = 0 ∧ h.lanes = 4); (h.gang = true) ∧ ((s.head n).auxJobs = []) ∧ ((s.head (n + 1)).auxJobs = []) ∧ (¬ fits) :=
  ⟨req (b 16 14 + b 18 7 + b 20 25000 + b 28 20 + b 30 20 + b 32 480 + b 34 8 + b 36 1 + b 38 1 + b 17 1 + b 24 1280 + b 26 160 + b 44 1 + b 46 3 + b 48 1264 + b 50 464), { run with surfs := [(1, { full with w := 1280 })], heads := [(14, { isSet := true, tg := 3 })] }, by decide +kernel⟩

theorem witness_LayersAndHeads_8 :
    ∃ (q : Req) (s : State),
    (Admitted s q (bodyMask [(16, 0, 8), (17, 0, 1)])) ∧ (q.u8 16 ≤ 15) ∧ (gangMember s (q.u8 16) = false) ∧ (q.u8 16 < s.nHeads) ∧ (ownsHead s q.part.val (q.u8 16) = true) ∧ let h := s.head (q.u8 16); (q.bit 17 0 = true) ∧ (h.isSet = true) ∧ ((tget (fun _ => 0) s.pwr.heads (q.u8 16) = 0 → pwrR s + pwrG s + headTokens h ≤ pwrB s)) :=
  ⟨req (b 16 15 + b 17 1), { run with heads := [(15, head0)] }, by decide +kernel⟩

theorem witness_LayersAndHeads_9 :
    ∃ (q : Req) (s : State),
    (Admitted s q (bodyMask [(16, 0, 8), (17, 0, 1)])) ∧ (q.u8 16 ≤ 15) ∧ (gangMember s (q.u8 16) = false) ∧ (q.u8 16 < s.nHeads) ∧ (ownsHead s q.part.val (q.u8 16) = true) ∧ let h := s.head (q.u8 16); (q.bit 17 0 = false) ∧ ((h.enabled = true ∨ h.start ≠ [])) :=
  ⟨req (b 16 15), { run with heads := [(15, { head0 with enabled := true })] }, by decide +kernel⟩

theorem witness_LayersAndHeads_10 :
    ∃ (q : Req) (s : State),
    (Admitted s q (bodyMask [(16, 0, 8), (17, 0, 1)])) ∧ (q.u8 16 ≤ 15) ∧ (gangMember s (q.u8 16) = false) ∧ (q.u8 16 < s.nHeads) ∧ (ownsHead s q.part.val (q.u8 16) = true) ∧ let h := s.head (q.u8 16); (q.bit 17 0 = false) ∧ (h.enabled = false) ∧ (h.start = []) :=
  ⟨req (b 16 15), { run with heads := [(15, { head0 with wbOn := true, wbA := 3 })] }, by decide +kernel⟩

theorem witness_LayersAndHeads_11 :
    ∃ (q : Req) (s : State),
    (Admitted s q maskHeadWb) ∧ (q.u8 16 ≤ 15) ∧ (gangMember s (q.u8 16) = false) ∧ (q.u8 16 < s.nHeads) ∧ (ownsHead s q.part.val (q.u8 16) = true) ∧ (q.bit 17 0 = false) :=
  ⟨req (b 16 15), { run with heads := [(15, { head0 with enabled := true })] }, by decide +kernel⟩

theorem witness_LayersAndHeads_12 :
    ∃ (q : Req) (s : State),
    (Admitted s q maskHeadWb) ∧ (q.u8 16 ≤ 15) ∧ (gangMember s (q.u8 16) = false) ∧ (q.u8 16 < s.nHeads) ∧ (ownsHead s q.part.val (q.u8 16) = true) ∧ (q.bit 17 0 = true) ∧ (q.u16 20 ≤ 4095) ∧ (q.u16 22 ≤ 4095) ∧ (q.u40 24 % 0x1000 = 0) ∧ (ownsSurf s q.part.val (q.u16 20) = true) ∧ (ownsSurf s q.part.val (q.u16 22) = true) ∧ (q.u8 18 ≤ 5) ∧ (wbShapeBad (s.head (q.u8 16)) (s.surf (q.u16 20)) (q.u8 18) = false) ∧ (wbShapeBad (s.head (q.u8 16)) (s.surf (q.u16 22)) (q.u8 18) = false) ∧ ((s.surf (q.u16 20)).reg = false) ∧ ((s.surf (q.u16 22)).reg = false) :=
  ⟨req (b 16 15 + b 17 7 + b 18 4 + b 20 4095 + b 22 4094 + b 24 4096), { run with heads := [(15, head0)], surfs := [(4094, full), (4095, full)] }, by decide +kernel⟩

theorem witness_FencesAndCommits_1 :
    ∃ (q : Req) (s : State),
    (Admitted s q maskFence) ∧ (q.u64 24 % 8 = 0) ∧ ((∀ j ∈ s.jobs, j.id < s.nextJob ∧ j.opcode ≠ 0x0A01)) ∧ ((∀ j ∈ s.jobs, j.req.part ≠ q.part ∨ j.req.ring ≠ q.ring)) ∧ ((∀ c ∈ s.cpls, c.part ≠ q.part.val ∨ c.ring ≠ q.ring.val)) ∧ (signalHeld s q = false) ∧ let w := jobWrite s 34 q.part.val (q.bit 16 0) (q.u64 24) (leBytes 8 (q.u64 32)); (w.2 = stComplete) :=
  ⟨req (b 16 1 + b 24 8 + b 32 5), { run with jobs := [], nextJob := 2 }, by decide +kernel⟩

theorem witness_FencesAndCommits_2 :
    ∃ (q : Req) (s : State),
    (Admitted s q maskFence) ∧ (q.u64 24 % 8 = 0) ∧ ((∀ j ∈ s.jobs, j.id < s.nextJob ∧ j.opcode ≠ 0x0A01)) ∧ ((∃ j ∈ s.jobs, j.req.part = q.part ∧ j.req.ring = q.ring)) :=
  ⟨req (b 16 1 + b 24 8 + b 32 5), { run with jobs := [job 3 0x0501 0], nextJob := 4 }, by decide +kernel⟩

theorem witness_FencesAndCommits_3 :
    ∃ (p : Fin 16) (r : Fin 8) (s : State) (id : Nat) (host : Bool) (addr target : BitVec 64) (read : Option (BitVec 64)) (v : BitVec 64),
    ((cring (s.part p.val) r.val).wait = some (id, host, addr, target)) ∧ (host = true) ∧ (onPcie s p.val = true) ∧ let m := (s.part p.val).port; let x := pcieFence s m read; (x.2 = some v) ∧ (fenceReached v target = true) :=
  ⟨0, 7, { run with parts := [(0, { owner with rings := [(7, { wait := some (3, true, 8, 5) })] })], jobs := [job 3 0x0A02 0], nextJob := 4 }, 3, true, 8, 5, some 5, 5, by decide +kernel⟩

theorem witness_FencesAndCommits_4 :
    ∃ (p : Fin 16) (r : Fin 8) (s : State) (id : Nat) (host : Bool) (addr target : BitVec 64) (read : Option (BitVec 64)) (v : BitVec 64),
    ((cring (s.part p.val) r.val).wait = some (id, host, addr, target)) ∧ (host = true) ∧ (onPcie s p.val = true) ∧ let m := (s.part p.val).port; let x := pcieFence s m read; (x.2 = some v) ∧ (fenceReached v target = false) :=
  ⟨0, 7, { run with parts := [(0, { owner with rings := [(7, { wait := some (3, true, 8, 5) })] })], jobs := [job 3 0x0A02 0], nextJob := 4 }, 3, true, 8, 5, some 4, 4, by decide +kernel⟩

theorem witness_FencesAndCommits_5 :
    ∃ (p : Fin 16) (r : Fin 8) (s : State) (id : Nat) (host : Bool) (addr target : BitVec 64) (read : Option (BitVec 64)),
    ((cring (s.part p.val) r.val).wait = some (id, host, addr, target)) ∧ (host = true) ∧ (onPcie s p.val = true) ∧ let m := (s.part p.val).port; let x := pcieFence s m read; (x.2 = none) :=
  ⟨0, 7, { run with parts := [(0, { owner with rings := [(7, { wait := some (3, true, 8, 5) })] })], jobs := [job 3 0x0A02 0], nextJob := 4 }, 3, true, 8, 5, none, by decide +kernel⟩

theorem witness_FencesAndCommits_6 :
    ∃ (p : Fin 16) (r : Fin 8) (s : State) (id : Nat) (host : Bool) (addr target : BitVec 64) (read : Option (BitVec 64)) (v : BitVec 64),
    ((cring (s.part p.val) r.val).wait = some (id, host, addr, target)) ∧ (host = true) ∧ (onPcie s p.val = true) ∧ let m := (s.part p.val).port; (linkUp s m = true) ∧ (read = some v) :=
  ⟨0, 7, { run with parts := [(0, { owner with rings := [(7, { wait := some (3, true, 8, 5) })] })], jobs := [job 3 0x0A02 0], nextJob := 4 }, 3, true, 8, 5, some 5, 5, by decide +kernel⟩

theorem witness_FencesAndCommits_7 :
    ∃ (p : Fin 16) (r : Fin 8) (s : State) (id : Nat) (host : Bool) (addr target : BitVec 64) (read : Option (BitVec 64)),
    ((cring (s.part p.val) r.val).wait = some (id, host, addr, target)) ∧ (host = true) ∧ (onPcie s p.val = true) ∧ let m := (s.part p.val).port; ((linkUp s m = false ∨ read = none)) :=
  ⟨0, 7, { run with parts := [(0, { owner with rings := [(7, { wait := some (3, true, 8, 5) })] })], jobs := [job 3 0x0A02 0], nextJob := 4 }, 3, true, 8, 5, none, by decide +kernel⟩

theorem witness_FencesAndCommits_8 :
    ∃ (p : Fin 16) (r : Fin 8) (s : State) (id : Nat) (host : Bool) (addr target : BitVec 64) (read : Option (BitVec 64)),
    ((cring (s.part p.val) r.val).wait = some (id, host, addr, target)) ∧ ((host = false ∨ onPcie s p.val = false)) ∧ let x := engRead s 34 p.val (fieldAddr host addr.toNat) 8; (x.2.1 = .held) :=
  ⟨0, 7, heldAt 0x180000000 ({ run with parts := [(0, { owner with rings := [(7, { wait := some (3, false, 0x180000000, 5) })] })], jobs := [job 3 0x0A02 0], nextJob := 4 }), 3, false, 0x180000000, 5, none, by decide +kernel⟩

theorem witness_FencesAndCommits_9 :
    ∃ (p : Fin 16) (r : Fin 8) (s : State) (id : Nat) (host : Bool) (addr target : BitVec 64) (read : Option (BitVec 64)),
    ((cring (s.part p.val) r.val).wait = some (id, host, addr, target)) ∧ ((host = false ∨ onPcie s p.val = false)) ∧ let x := engRead s 34 p.val (fieldAddr host addr.toNat) 8; (x.2.1 = .ok) ∧ (fenceReached (BitVec.ofNat 64 (leNat x.2.2)) target = true) :=
  ⟨0, 7, ({ run with parts := [(0, { owner with rings := [(7, { wait := some (3, false, 0x180000000, 5) })] })], jobs := [job 3 0x0A02 0], nextJob := 4 } : State).store 0x180000000 [5], 3, false, 0x180000000, 5, none, by decide +kernel⟩

theorem witness_FencesAndCommits_10 :
    ∃ (p : Fin 16) (r : Fin 8) (s : State) (id : Nat) (host : Bool) (addr target : BitVec 64) (read : Option (BitVec 64)),
    ((cring (s.part p.val) r.val).wait = some (id, host, addr, target)) ∧ ((host = false ∨ onPcie s p.val = false)) ∧ let x := engRead s 34 p.val (fieldAddr host addr.toNat) 8; (x.2.1 = .ok) ∧ (fenceReached (BitVec.ofNat 64 (leNat x.2.2)) target = false) :=
  ⟨0, 7, { run with parts := [(0, { owner with rings := [(7, { wait := some (3, false, 0x180000000, 5) })] })], jobs := [job 3 0x0A02 0], nextJob := 4 }, 3, false, 0x180000000, 5, none, by decide +kernel⟩

theorem witness_FencesAndCommits_11 :
    ∃ (p : Fin 16) (r : Fin 8) (s : State) (id : Nat) (host : Bool) (addr target : BitVec 64) (read : Option (BitVec 64)),
    ((cring (s.part p.val) r.val).wait = some (id, host, addr, target)) ∧ ((host = false ∨ onPcie s p.val = false)) ∧ let x := engRead s 34 p.val (fieldAddr host addr.toNat) 8; (x.2.1 ≠ .ok) ∧ (x.2.1 ≠ .held) :=
  ⟨0, 7, shut ({ run with parts := [(0, { owner with rings := [(7, { wait := some (3, false, 0x180000000, 5) })] })], jobs := [job 3 0x0A02 0], nextJob := 4 }), 3, false, 0x180000000, 5, none, by decide +kernel⟩

theorem witness_FencesAndCommits_12 :
    ∃ (n : Fin 16) (s : State),
    (s.ctl.core = true) ∧ ((s.head n.val).enabled = true) ∧ ((s.head n.val).judged = false) ∧ (((layersOf s n.val).map (·.1)).Nodup) ∧ ((∀ x ∈ layersOf s n.val, s.layer x.1 = x.2)) :=
  ⟨15, { run with heads := [(15, { head0 with enabled := true })] }, by decide +kernel⟩

theorem witness_FencesAndCommits_13 :
    ∃ (n : Fin 16) (s : State),
    (s.ctl.core = true) ∧ ((s.head n.val).enabled = true) ∧ ((s.head n.val).judged = true) :=
  ⟨15, { run with heads := [(15, { head0 with enabled := true, judged := true })] }, by decide +kernel⟩

theorem witness_FencesAndCommits_14 :
    ∃ (n : Fin 16) (s : State) (host : Bool) (addr : BitVec 64) (read : Option (BitVec 64)) (f : Bool × BitVec 64 × BitVec 64),
    (s.ctl.core = true) ∧ ((s.head n.val).enabled = true) ∧ ((s.head n.val).flipSets.find? (fun f => f.1 == host && f.2.1 == addr) = some f) ∧ (fenceWaits s (headOwner s n.val) host addr = false) :=
  ⟨15, { run with heads := [(15, { head0 with enabled := true, flipSets := [(true, 8, 5)] })], layers := [(255, { pend := [⟨1, { cropW := 2 }, some (true, 8, 5), true, 5, 2, false, none⟩], created := true, head := 15, cur := { cropW := 64, cropH := 64, z := 1 } })] }, true, 8, some 5, (true, 8, 5), by decide +kernel⟩

theorem witness_FencesAndCommits_15 :
    ∃ (n : Fin 16) (s : State) (addr v : BitVec 64) (g : Nat),
    (s.ctl.core = true) ∧ (((s.head n.val).enabled = false ∨ (s.head n.val).flipSets.find? (fun f => f.1 == true && f.2.1 == addr) = none)) ∧ (sealOf s n.val = some g) ∧ (onPcie s (headOwner s n.val) = true) :=
  ⟨15, withRegs [(CMP_SEAL_CFG 3, 0x20001)] { run with layers := [(255, { pend := [⟨1, { cropW := 2 }, some (true, 8, 5), false, 5, 2, false, some 1⟩], created := true, head := 15, cur := { cropW := 64, cropH := 64, z := 1 } })] }, 8, 5, 3, by decide +kernel⟩

theorem witness_FlipSetAllOrNone_1 :
    ∃ (s : State) (n : Nat) (f : Bool × BitVec 64 × BitVec 64) (v : Option (BitVec 64)) (i : Nat) (l : Layer) (k : Nat) (p : Pending),
    (((layersOf s n).map (·.1)).Nodup) ∧ ((∀ x ∈ layersOf s n, s.layer x.1 = x.2)) ∧ ((i, l) ∈ layersOf s n) ∧ (l.pend[k]? = some p) ∧ (inSet f p = true) :=
  ⟨{ run with heads := [(15, { head0 with enabled := true })], layers := [(255, { pend := [⟨1, { cropW := 2 }, some (true, 8, 5), true, 5, 2, false, none⟩], created := true, head := 15, cur := { cropW := 64, cropH := 64, z := 1 } })] }, 15, (true, 8, 5), some 5, 255, { pend := [⟨1, { cropW := 2 }, some (true, 8, 5), true, 5, 2, false, none⟩], created := true, head := 15, cur := { cropW := 64, cropH := 64, z := 1 } }, 0, ⟨1, { cropW := 2 }, some (true, 8, 5), true, 5, 2, false, none⟩, by decide +kernel⟩

theorem witness_Seals_1 :
    ∃ (q : Req) (s : State),
    (Admitted s q (bodyMask [(16, 0, 8), (17, 0, 2), (18, 0, 16), (20, 0, 24)])) ∧ (q.u8 16 ≤ 15) ∧ ((sgOwner s (q.u8 16) = 31 ∨ sgOwner s (q.u8 16) = q.part.val)) ∧ let g := q.u8 16; let hs := (List.range 16).filter fun n => bitOf (q.u16 18) n; (q.bit 17 0 = true) ∧ (q.u8 20 ≤ 7) ∧ (q.u8 22 ≤ 7) ∧ ((∀ n ∈ hs, n < s.nHeads ∧ ownsHead s q.part.val n = true ∧ (s.head n).tg = q.u8 22 ∧ (sealOf s n = none ∨ sealOf s n = some g))) :=
  ⟨req (b 16 15 + b 17 3 + b 18 0x8000 + b 20 7 + b 21 255 + b 22 7), { run with heads := [(15, { head0 with tg := 7 })] }, by decide +kernel⟩

theorem witness_Seals_2 :
    ∃ (q : Req) (s : State),
    (Admitted s q (bodyMask [(16, 0, 8), (17, 0, 2), (18, 0, 16), (20, 0, 24)])) ∧ (q.u8 16 ≤ 15) ∧ ((sgOwner s (q.u8 16) = 31 ∨ sgOwner s (q.u8 16) = q.part.val)) ∧ (q.bit 17 0 = false) :=
  ⟨req (b 16 15), withRegs [(CMP_SEAL_CFG 15, 1 + 2 ^ 17 + 2 ^ 21 + 7 * 2 ^ 29), (CMP_SEAL_PART 15, 0)] { run with tgs := [(7, { running := true })] }, by decide +kernel⟩

theorem witness_Seals_3 :
    ∃ (q : Req) (s : State),
    (Admitted s q (bodyMask [(16, 0, 8), (17, 0, 2), (18, 0, 16), (20, 0, 24)])) ∧ (q.u8 16 ≤ 15) ∧ ((sgOwner s (q.u8 16) = 31 ∨ sgOwner s (q.u8 16) = q.part.val)) ∧ let g := q.u8 16; (q.bit 17 0 = false) ∧ ((s.grp g).seals = []) :=
  ⟨req (b 16 15), withRegs [(CMP_SEAL_CFG 15, 1 + 2 ^ 17 + 2 ^ 21 + 7 * 2 ^ 29), (CMP_SEAL_PART 15, 0)] { run with tgs := [(7, { running := true })] }, by decide +kernel⟩

theorem witness_Seals_4 :
    ∃ (q : Req) (s : State),
    (Admitted s q (bodyMask [(16, 0, 8), (20, 0, 32)])) ∧ (q.u8 16 ≤ 15) ∧ let g := q.u8 16; let n := BitVec.ofNat 32 (q.u32 20); (0 < sealDiff n (sgDone s g)) ∧ (sealDiff n (sgDone s g) ≤ 8) ∧ (sgOn s g = true) ∧ (sgOwner s g = q.part.val) ∧ (sgHeads s g ≠ 0) :=
  ⟨req (b 16 15 + b 20 8), withRegs [(CMP_SEAL_CFG 15, 1 + 2 ^ 17 + 2 ^ 21 + 7 * 2 ^ 29), (CMP_SEAL_PART 15, 0)] { run with tgs := [(7, { running := true })] }, by decide +kernel⟩

theorem witness_Seals_5 :
    ∃ (g : Fin 16) (s : State),
    (s.ctl.core = true) ∧ (sgOn s g.val = true) ∧ (sgMember s g.val = true) ∧ ((s.tg (sgTg s g.val)).running = true) :=
  ⟨15, withRegs [(CMP_SEAL_CFG 15, 1 + 2 ^ 17 + 2 ^ 21 + 7 * 2 ^ 29 + 2), (CMP_SEAL_PART 15, 0)] { run with tgs := [(7, { running := true })], heads := [(15, { head0 with tg := 7 })], layers := [(255, { created := true, head := 15, cur := { z := 1 }, pend := [⟨1, {}, none, false, 5, 0, false, some 1⟩] })] }, by decide +kernel⟩

theorem witness_Seals_6 :
    ∃ (g : Fin 16) (s : State) (m : ℤ),
    (s.ctl.core = true) ∧ (sgOn s g.val = true) ∧ (sgMaster s g.val = true) ∧ ((s.grp g.val).pastD = false) ∧ ((s.tg (sgTg s g.val)).running = true) ∧ let c := sgDone s g.val; (0 < m) ∧ ((∀ u, u < 8 → bitOf (sgMembers s g.val) u = true → m ≤ sealDiff (reportOf s g.val u).1 c)) ∧ ((∃ u, u < 8 ∧ bitOf (sgMembers s g.val) u = true ∧ sealDiff (reportOf s g.val u).1 c = m)) :=
  ⟨15, withRegs [(CMP_SEAL_CFG 15, 1 + 2 + 2 ^ 21 * 0x81 + 7 * 2 ^ 29), (CMP_SEAL_PART 15, 0)] { run with tgs := [(7, { running := true })], seals := [(15, { reports := [(0, 2, 0), (7, 5, 0)] })] }, 2, by decide +kernel⟩

theorem witness_Seals_7 :
    ∃ (g : Fin 16) (s : State) (u : Nat),
    (s.ctl.core = true) ∧ (sgOn s g.val = true) ∧ (sgMaster s g.val = true) ∧ ((s.grp g.val).pastD = false) ∧ ((s.tg (sgTg s g.val)).running = true) ∧ let c := sgDone s g.val; (u < 8) ∧ (bitOf (sgMembers s g.val) u = true) ∧ (sealDiff (reportOf s g.val u).1 c ≤ 0) ∧ ((∀ v, v < u → bitOf (sgMembers s g.val) v = true → 0 < sealDiff (reportOf s g.val v).1 c)) :=
  ⟨15, withRegs [(CMP_SEAL_CFG 15, 1 + 2 + 2 ^ 21 * 0x81 + 7 * 2 ^ 29), (CMP_SEAL_PART 15, 0)] { run with tgs := [(7, { running := true })], seals := [(15, { reports := [(0, 2, 0)] })] }, 7, by decide +kernel⟩

theorem witness_Seals_8 :
    ∃ (g : Fin 16) (s : State),
    (s.ctl.core = true) ∧ (sgOn s g.val = true) ∧ ((sgMember s g.val = true ∨ sgMaster s g.val = true)) ∧ ((s.grp g.val).pastC = false) ∧ ((s.tg (sgTg s g.val)).running = true) ∧ ((s.grp g.val).commitM = none) :=
  ⟨15, withRegs [(CMP_SEAL_CFG 15, 1 + 2 ^ 17 + 2 ^ 21 + 7 * 2 ^ 29 + 2), (CMP_SEAL_PART 15, 0)] { run with tgs := [(7, { running := true })], heads := [(15, { head0 with tg := 7 })], layers := [(255, { created := true, head := 15, cur := { z := 1 }, pend := [⟨1, {}, none, false, 5, 0, false, some 1⟩] })] }, by decide +kernel⟩

theorem witness_Seals_9 :
    ∃ (g : Fin 16) (s : State) (m : BitVec 32),
    (s.ctl.core = true) ∧ (sgOn s g.val = true) ∧ ((sgMember s g.val = true ∨ sgMaster s g.val = true)) ∧ ((s.grp g.val).pastC = false) ∧ ((s.tg (sgTg s g.val)).running = true) ∧ ((s.grp g.val).commitM = some m) :=
  ⟨15, withRegs [(CMP_SEAL_CFG 15, 1 + 2 ^ 17 + 2 ^ 21 + 7 * 2 ^ 29), (CMP_SEAL_PART 15, 0)] { run with tgs := [(7, { running := true })], seals := [(15, { commitM := some 4 })] }, 4, by decide +kernel⟩

theorem witness_Outputs_1 :
    ∃ (q : Req) (s : State),
    (Admitted s q (bodyMask [(16, 0, 32), (20, 0, 8), (21, 0, 3)])) ∧ (linkMode s = true) ∧ let n := q.u8 16; let h := s.head n; (n ≤ 15) ∧ (gangMember s n = false) ∧ (n < s.nHeads) ∧ (ownsHead s q.part.val n = true) ∧ ((h.gang = true → ownsHead s q.part.val (n + 1) = true)) ∧ (q.u8 17 = 0) ∧ ((h.auxJobs = [] ∨ h.linkJob = none ∧ ∀ id ∈ h.auxJobs, id < s.nextJob ∧ jobRuns s id = true)) :=
  ⟨req (b 16 15), { run with heads := [(15, { head0 with tx := .video, trained := true, rate := 2, lanes := 2 })] }, by decide +kernel⟩

theorem witness_Outputs_2 :
    ∃ (q : Req) (s : State),
    (Admitted s q (bodyMask [(16, 0, 32), (20, 0, 8), (21, 0, 3)])) ∧ (linkMode s = true) ∧ let n := q.u8 16; let h := s.head n; (n ≤ 15) ∧ (gangMember s n = false) ∧ (n < s.nHeads) ∧ (ownsHead s q.part.val n = true) ∧ ((h.gang = true → ownsHead s q.part.val (n + 1) = true)) ∧ (q.u8 17 ≠ 0) ∧ (h.tx = .training) :=
  ⟨req (b 16 15 + b 17 1), { run with heads := [(15, { head0 with tx := .training, linkJob := some 3 })], jobs := [job 3 0x0B04 15], nextJob := 4 }, by decide +kernel⟩

theorem witness_Outputs_3 :
    ∃ (q : Req) (s : State),
    (Admitted s q (bodyMask [(16, 0, 32), (20, 0, 8), (21, 0, 3)])) ∧ (linkMode s = true) ∧ let n := q.u8 16; let h := s.head n; (n ≤ 15) ∧ (gangMember s n = false) ∧ (n < s.nHeads) ∧ (ownsHead s q.part.val n = true) ∧ ((h.gang = true → ownsHead s q.part.val (n + 1) = true)) ∧ (q.u8 17 ≠ 0) ∧ (h.tx ≠ .training) ∧ (linkBad h n q = false) ∧ ((q.u8 19 ≠ 0 → s.fld (QD_CFG 15) 0 3 = 3)) ∧ ((∀ x ∈ s.heads, x.1 ≠ n → overlaps (sourceLanes n (q.u8 19)).1 (q.u8 18) (heldLanes x.1 x.2).1 (heldLanes x.1 x.2).2 = false)) ∧ (h.khz * 3 * q.u8 20 ≤ q.u8 18 * laneKbit (q.u8 17)) ∧ (h.hpd = true) :=
  ⟨req (b 16 15 + b 17 1 + b 18 1 + b 20 8), { run with heads := [(15, { head0 with hpd := true })] }, by decide +kernel⟩

theorem witness_Outputs_4 :
    ∃ (q : Req) (s : State),
    (Admitted s q (bodyMask [(16, 0, 32), (20, 0, 8), (21, 0, 3)])) ∧ (linkMode s = true) ∧ let n := q.u8 16; let h := s.head n; (n ≤ 15) ∧ (gangMember s n = false) ∧ (n < s.nHeads) ∧ (ownsHead s q.part.val n = true) ∧ ((h.gang = true → ownsHead s q.part.val (n + 1) = true)) ∧ (q.u8 17 ≠ 0) ∧ (h.tx ≠ .training) ∧ (linkBad h n q = false) ∧ ((q.u8 19 ≠ 0 → s.fld (QD_CFG 15) 0 3 = 3)) ∧ ((∀ x ∈ s.heads, x.1 ≠ n → overlaps (sourceLanes n (q.u8 19)).1 (q.u8 18) (heldLanes x.1 x.2).1 (heldLanes x.1 x.2).2 = false)) ∧ (h.khz * 3 * q.u8 20 ≤ q.u8 18 * laneKbit (q.u8 17)) ∧ (h.hpd = false) ∧ ((∀ id ∈ h.auxJobs, id < s.nextJob ∧ jobRuns s id = true)) :=
  ⟨req (b 16 15 + b 17 1 + b 18 1 + b 20 8), { run with heads := [(15, head0)] }, by decide +kernel⟩

theorem witness_Outputs_5 :
    ∃ (q : Req) (s : State),
    (Admitted s q (maskHeadAux q)) ∧ (q.u8 16 ≤ 15) ∧ (gangMember s (q.u8 16) = false) ∧ (1 ≤ q.u8 18) ∧ (q.u8 18 ≤ 16) ∧ (q.u8 16 < s.nHeads) ∧ (ownsHead s q.part.val (q.u8 16) = true) ∧ let h := s.head (q.u8 16); ((h.tx = .training ∨ (h.auxJobs ≠ [] ∧ ∀ id ∈ h.auxJobs, id < s.nextJob ∧ jobRuns s id = true))) :=
  ⟨req (b 16 15 + b 18 16), { run with heads := [(15, { head0 with tx := .training, linkJob := some 3 })], jobs := [job 3 0x0B04 15], nextJob := 4 }, by decide +kernel⟩

theorem witness_Outputs_6 :
    ∃ (q : Req) (s : State),
    (Admitted s q (maskHeadAux q)) ∧ (q.u8 16 ≤ 15) ∧ (gangMember s (q.u8 16) = false) ∧ (1 ≤ q.u8 18) ∧ (q.u8 18 ≤ 16) ∧ (q.u8 16 < s.nHeads) ∧ (ownsHead s q.part.val (q.u8 16) = true) ∧ let h := s.head (q.u8 16); (h.tx ≠ .training) ∧ (h.auxJobs = []) ∧ (h.hpd = true) :=
  ⟨req (b 16 15 + b 17 1 + b 18 1 + b 20 8), { run with heads := [(15, { head0 with hpd := true })] }, by decide +kernel⟩

theorem witness_Outputs_7 :
    ∃ (q : Req) (s : State),
    (Admitted s q (maskHeadAux q)) ∧ (q.u8 16 ≤ 15) ∧ (gangMember s (q.u8 16) = false) ∧ (1 ≤ q.u8 18) ∧ (q.u8 18 ≤ 16) ∧ (q.u8 16 < s.nHeads) ∧ (ownsHead s q.part.val (q.u8 16) = true) ∧ let h := s.head (q.u8 16); (h.tx ≠ .training) ∧ (h.auxJobs = []) ∧ (h.hpd = false) :=
  ⟨req (b 16 14 + b 18 1), { base .test with heads := [(14, { head0 with gang := true })] }, by decide +kernel⟩

theorem witness_Outputs_8 :
    ∃ (n : Fin 16) (r : Training) (s : State),
    (s.ctl.core = true) ∧ ((s.head n.val).tx = .training) ∧ let h := s.head n.val; let stage := trainedStage s n.val h r; let deaf := ∃ i, i < h.lanes ∧ txDeaf s (((sourceLanes n.val h.src).1 + i) / 4) (((sourceLanes n.val h.src).1 + i) % 4) = true; ((¬ deaf ∨ r.stage.val ≠ 0)) :=
  ⟨15, ⟨0, 1, 2, true⟩, { run with heads := [(15, { head0 with tx := .training, linkJob := some 3 })], jobs := [job 3 0x0B04 15] }, by decide +kernel⟩

theorem witness_Outputs_9 :
    ∃ (n : Fin 16) (r : Training) (s : State),
    (s.ctl.core = true) ∧ ((s.head n.val).tx = .training) ∧ let h := s.head n.val; let stage := trainedStage s n.val h r; let deaf := ∃ i, i < h.lanes ∧ txDeaf s (((sourceLanes n.val h.src).1 + i) / 4) (((sourceLanes n.val h.src).1 + i) % 4) = true; (deaf) ∧ (r.stage.val = 0) :=
  ⟨15, ⟨0, 1, 2, true⟩, withRegs [(QD_CFG 14, 0xB)] { run with heads := [(15, { head0 with tx := .training, lanes := 2, linkJob := some 3 })], jobs := [job 3 0x0B04 15] }, by decide +kernel⟩

theorem witness_Outputs_10 :
    ∃ (n : Fin 16) (r : Training) (s : State) (cs : List Cpl),
    (s.ctl.core = true) ∧ ((s.head n.val).tx = .training) ∧ let h := s.head n.val; let stage := trainedStage s n.val h r; let ok := decide (stage = 0); let st := if ok then stComplete else stLinkFail; let body := linkBody stage r.lttprs.toNat r.settings; (h.auxJobs = []) ∧ ((ok && h.sinkCrc && !r.crcSupp) = false) ∧ (((h.linkJob = none ∧ cs = []) ∨ ∃ id j, h.linkJob = some id ∧ s.job id = some j ∧ j.abortBy = [] ∧ j.yielded = false ∧ cs = [cplOf j (BitVec.ofNat 16 st) body])) :=
  ⟨15, ⟨5, 1, 2, true⟩, { run with heads := [(15, { head0 with tx := .training, linkJob := some 3 })], jobs := [job 3 0x0B04 15] }, [cplOf (job 3 0x0B04 15) (BitVec.ofNat 16 stLinkFail) (linkBody 5 1 2)], by decide +kernel, by decide +kernel, by decide +kernel, by decide +kernel, Or.inr ⟨3, job 3 0x0B04 15, by decide +kernel⟩⟩

theorem witness_Outputs_11 :
    ∃ (n : Fin 16) (r : Training) (s : State),
    (s.ctl.core = true) ∧ ((s.head n.val).tx = .training) ∧ let h := s.head n.val; let stage := trainedStage s n.val h r; let ok := decide (stage = 0); ((ok && h.sinkCrc && !r.crcSupp) = true) :=
  ⟨15, ⟨0, 1, 2, false⟩, { run with heads := [(15, { head0 with tx := .training, sinkCrc := true, linkJob := some 3 })], jobs := [job 3 0x0B04 15] }, by decide +kernel⟩

theorem witness_Outputs_12 :
    ∃ (n : Fin 16) (s : State) (j : Job) (bs : Bytes),
    (s.ctl.core = true) ∧ ((s.head n.val).auxJobs.head? = some j.id) ∧ (s.job j.id = some j) ∧ (j.running = true) ∧ ((s.head n.val).auxJobs = [j.id]) ∧ (bs ≠ []) ∧ (1 ≤ j.req.u8 18) ∧ (j.req.bit 48 0 = true) ∧ (onPcie s j.req.part.val = true) ∧ (linkUp s (s.part j.req.part.val).port = true) :=
  ⟨15, { run with heads := [(15, { head0 with auxJobs := [3] })], jobs := [runJob 3 0x0B05 (b 16 15 + b 18 2 + b 40 8 + b 48 1)] }, runJob 3 0x0B05 (b 16 15 + b 18 2 + b 40 8 + b 48 1), [1, 2, 3], by decide +kernel⟩

theorem witness_Outputs_13 :
    ∃ (n : Fin 16) (s : State) (j : Job) (bs : Bytes),
    (s.ctl.core = true) ∧ ((s.head n.val).auxJobs.head? = some j.id) ∧ (s.job j.id = some j) ∧ (j.running = true) ∧ (bs.take (j.req.u8 18) ≠ []) :=
  ⟨15, { run with heads := [(15, { head0 with auxJobs := [3] })], jobs := [runJob 3 0x0B05 (b 16 15 + b 18 2 + b 40 8 + b 48 1)] }, runJob 3 0x0B05 (b 16 15 + b 18 2 + b 40 8 + b 48 1), [1, 2, 3], by decide +kernel⟩

theorem witness_Outputs_14 :
    ∃ (n : Fin 16) (level : Bool) (s : State),
    ((s.head n.val).hpd = level) :=
  ⟨15, false, run, by decide +kernel⟩

theorem witness_Outputs_15 :
    ∃ (n : Fin 16) (level : Bool) (s : State),
    ((s.head n.val).hpd ≠ level) ∧ ((s.ctl.core = false ∨ s.nHeads ≤ n.val)) :=
  ⟨15, true, { run with ctl := { powered .keep with core := false } }, by decide +kernel⟩

theorem witness_Outputs_16 :
    ∃ (n : Fin 16) (level : Bool) (s : State),
    ((s.head n.val).hpd ≠ level) ∧ (s.ctl.core = true) ∧ (n.val < s.nHeads) :=
  ⟨15, true, run, by decide +kernel⟩

theorem witness_Outputs_17 :
    ∃ (n : Fin 16) (s : State),
    (s.ctl.core = true) ∧ ((s.head n.val).hpd = false) ∧ ((s.head n.val).trained = true) :=
  ⟨15, { run with heads := [(15, { head0 with trained := true, tx := .video })] }, by decide +kernel⟩

theorem witness_Outputs_18 :
    ∃ (n : Fin 16) (s : State),
    (s.ctl.core = true) ∧ (((s.head n.val).hpd = true ∨ (s.head n.val).trained = false)) :=
  ⟨15, { run with heads := [(15, { head0 with tx := .training, linkJob := some 3 })], jobs := [job 3 0x0B04 15] }, by decide +kernel⟩

theorem witness_Outputs_19 :
    ∃ (n : Fin 16) (d : BitVec 64) (s : State),
    (s.ctl.core = true) ∧ (n.val < s.nHeads) :=
  ⟨15, 0x1122334455667788, run, by decide +kernel⟩

theorem witness_Verification_1 :
    ∃ (n : Fin 16) (b : Fin 68) (k : Nat) (s : State),
    (bandRuns s n.val b.val = true) ∧ let expected := scrimExpected s n.val b.val; (k = 0 ∨ expected = 0) :=
  ⟨15, 7, 0, { run with heads := [(15, { head0 with enabled := true })] }, by decide +kernel⟩

theorem witness_Verification_2 :
    ∃ (n : Fin 16) (b : Fin 68) (k : Nat) (s : State),
    (bandRuns s n.val b.val = true) ∧ let h := s.head n.val; let expected := scrimExpected s n.val b.val; (0 < k) ∧ (0 < expected) ∧ (h.witBad = true) :=
  ⟨15, 0, 1, scr { tiny with witBad := true }, by decide +kernel⟩

theorem witness_Verification_3 :
    ∃ (n : Fin 16) (b : Fin 68) (k : Nat) (s : State),
    (bandRuns s n.val b.val = true) ∧ let h := s.head n.val; let expected := scrimExpected s n.val b.val; (0 < k) ∧ (0 < expected) ∧ (h.witBad = false) :=
  ⟨15, 0, 1, scr tiny, by decide +kernel⟩

theorem witness_Verification_4 :
    ∃ (n : Fin 16) (b : Fin 68) (fault : BitVec 32) (s : State),
    (bandRuns s n.val b.val = true) ∧ ((s.head n.val).tx ≠ .video) :=
  ⟨15, 7, 5, { run with heads := [(15, { head0 with enabled := true })] }, by decide +kernel⟩

theorem witness_Verification_5 :
    ∃ (n : Fin 16) (b : Fin 68) (fault : BitVec 32) (s : State),
    (bandRuns s n.val b.val = true) ∧ ((s.head n.val).tx = .video) ∧ (fault = 0) :=
  ⟨15, 7, 0, { run with heads := [(15, { head0 with enabled := true, tx := .video })] }, by decide +kernel⟩

theorem witness_Verification_6 :
    ∃ (n : Fin 16) (b : Fin 68) (fault : BitVec 32) (s : State),
    (bandRuns s n.val b.val = true) ∧ ((s.head n.val).tx = .video) ∧ (fault ≠ 0) :=
  ⟨15, 0, 5, scr tiny, by decide +kernel⟩

theorem witness_Verification_7 :
    ∃ (n : Fin 16) (b : Fin 68) (fault : BitVec 32) (s : State) (c : Bool × BitVec 64 × Nat),
    (bandRuns s n.val b.val = true) ∧ ((s.head n.val).wbVerify = true) ∧ ((s.head n.val).wbCur = some c) ∧ let ws := wbBand s n.val b.val (s.surf (wbSurf (s.head n.val) c.1)); let r := readBack (wbWriteBand s n.val b.val) (headOwner s n.val) ws; (r.2 = none) :=
  ⟨15, 0, 5, heldAt 0x187000000 (scr { tiny with wbCur := some (false, 3, 0), wbVerify := true }), (false, 3, 0), by decide +kernel⟩

theorem witness_Verification_8 :
    ∃ (n : Fin 16) (b : Fin 68) (fault : BitVec 32) (s : State) (c : Bool × BitVec 64 × Nat) (back : Bytes),
    (bandRuns s n.val b.val = true) ∧ ((s.head n.val).wbVerify = true) ∧ ((s.head n.val).wbCur = some c) ∧ let ws := wbBand s n.val b.val (s.surf (wbSurf (s.head n.val) c.1)); let r := readBack (wbWriteBand s n.val b.val) (headOwner s n.val) ws; let crc := fun (bs : Bytes) => BitVec.ofNat 32 (crc32c (bandContext n.val b.val c.2.1 true) bs); (r.2 = some back) ∧ (crc back ^^^ fault = crc (ws.flatMap (·.2))) :=
  ⟨15, 0, 0, dot, (false, 3, 0), (readBack (wbWriteBand dot 15 0) 0 (wbBand dot 15 0 (dot.surf 4095))).2.getD [], by decide +kernel⟩

theorem witness_Verification_9 :
    ∃ (n : Fin 16) (b : Fin 68) (fault : BitVec 32) (s : State) (c : Bool × BitVec 64 × Nat) (back : Bytes),
    (bandRuns s n.val b.val = true) ∧ ((s.head n.val).wbVerify = true) ∧ ((s.head n.val).wbCur = some c) ∧ let ws := wbBand s n.val b.val (s.surf (wbSurf (s.head n.val) c.1)); let r := readBack (wbWriteBand s n.val b.val) (headOwner s n.val) ws; let crc := fun (bs : Bytes) => BitVec.ofNat 32 (crc32c (bandContext n.val b.val c.2.1 true) bs); (r.2 = some back) ∧ (crc back ^^^ fault ≠ crc (ws.flatMap (·.2))) :=
  ⟨15, 0, 5, dot, (false, 3, 0), (readBack (wbWriteBand dot 15 0) 0 (wbBand dot 15 0 (dot.surf 4095))).2.getD [], by decide +kernel⟩

theorem witness_Verification_10 :
    ∃ (n : Fin 16) (s : State) (d : Bool × BitVec 64 × Nat),
    ((s.head n.val).wbDue = some d) :=
  ⟨15, scr { tiny with wbDue := some (true, 3, 0), wbOn := true }, (true, 3, 0), by decide +kernel⟩

theorem witness_Verification_11 :
    ∃ (n : Fin 16) (r : SinkRead) (s : State),
    (s.ctl.core = true) ∧ ((s.head n.val).enabled = true) ∧ ((s.head n.val).sinkOn = true) ∧ (((s.head n.val).tx = .video ∨ (s.head n.val).tx = .training)) ∧ ((r.ok = false ∨ auxBusy s n.val = true)) :=
  ⟨15, ⟨false, 1, 2, 3, 5⟩, scr { tiny with sinkOn := true }, by decide +kernel⟩

theorem witness_Verification_12 :
    ∃ (n : Fin 16) (r : SinkRead) (s : State),
    (s.ctl.core = true) ∧ ((s.head n.val).enabled = true) ∧ ((s.head n.val).sinkOn = true) ∧ (((s.head n.val).tx = .video ∨ (s.head n.val).tx = .training)) ∧ (r.ok = true) ∧ (auxBusy s n.val = false) ∧ ((s.head n.val).sinkCnt = some r.count) :=
  ⟨15, ⟨true, 1, 2, 3, 5⟩, scr { tiny with sinkOn := true, sinkCnt := some 5 }, by decide +kernel⟩

theorem witness_Verification_13 :
    ∃ (n : Fin 16) (r : SinkRead) (s : State),
    (s.ctl.core = true) ∧ ((s.head n.val).enabled = true) ∧ ((s.head n.val).sinkOn = true) ∧ (((s.head n.val).tx = .video ∨ (s.head n.val).tx = .training)) ∧ (r.ok = true) ∧ (auxBusy s n.val = false) ∧ ((s.head n.val).sinkCnt ≠ some r.count) ∧ ((r.r, r.g, r.b) ∈ (s.head n.val).crcs) :=
  ⟨15, ⟨true, 1, 2, 3, 5⟩, scr { tiny with sinkOn := true, sinkCnt := some 4, crcs := [(1, 2, 3)] }, by decide +kernel⟩

theorem witness_Verification_14 :
    ∃ (n : Fin 16) (r : SinkRead) (s : State),
    (s.ctl.core = true) ∧ ((s.head n.val).enabled = true) ∧ ((s.head n.val).sinkOn = true) ∧ (((s.head n.val).tx = .video ∨ (s.head n.val).tx = .training)) ∧ (r.ok = true) ∧ (auxBusy s n.val = false) ∧ ((s.head n.val).sinkCnt ≠ some r.count) ∧ ((r.r, r.g, r.b) ∉ (s.head n.val).crcs) :=
  ⟨15, ⟨true, 1, 2, 4, 5⟩, scr { tiny with sinkOn := true, sinkCnt := some 4, crcs := [(1, 2, 3)] }, by decide +kernel⟩

theorem witness_Verification_15 :
    ∃ (s : State) (base n b : Nat) (frame : BitVec 64) (x y : Nat),
    (s.bit base 31 = true) :=
  ⟨withRegs [(VFY_BCAP_STATUS, 0x80000000)] run, VFY_BCAP_STATUS, 15, 67, 3, 1, 2, by decide +kernel⟩

theorem witness_Verification_16 :
    ∃ (s : State) (base n b : Nat) (frame : BitVec 64) (x y : Nat),
    (s.bit base 31 = false) ∧ (n < 16) ∧ (b < 128) :=
  ⟨run, VFY_BCAP_STATUS, 15, 127, 3, 1, 2, by decide +kernel⟩

theorem witness_Verification_17 :
    ∃ (n : Fin 16) (b : Fin 68) (i : Fin 256) (lo hi : Fin 64) (s : State),
    (bandRuns s n.val b.val = true) ∧ ((s.layer i.val).created = true) ∧ ((s.layer i.val).head = n.val) ∧ ((s.layer i.val).cur.visible = true) ∧ ((s.layer i.val).buf.isSome = true) ∧ let p := headOwner s n.val; let xs := shutPieces s p (s.head n.val) (s.layer i.val) b.val lo.val hi.val; (xs = []) :=
  ⟨15, 0, 255, 0, 63, scr tiny, by decide +kernel⟩

theorem witness_Verification_18 :
    ∃ (n : Fin 16) (b : Fin 68) (i : Fin 256) (lo hi : Fin 64) (s : State),
    (bandRuns s n.val b.val = true) ∧ ((s.layer i.val).created = true) ∧ ((s.layer i.val).head = n.val) ∧ ((s.layer i.val).cur.visible = true) ∧ ((s.layer i.val).buf.isSome = true) ∧ let p := headOwner s n.val; let xs := shutPieces s p (s.head n.val) (s.layer i.val) b.val lo.val hi.val; let t := shutReads s p (xs.map fun x => (x.addr, x.len)); let h := t.head n.val; (xs ≠ []) ∧ ((∀ x ∈ h.held, x.2 ≠ b.val)) :=
  ⟨15, 0, 255, 7, 63, withRegs [(MG_CTRL 0 31, 2)] (scr tiny), by decide +kernel⟩

theorem witness_Verification_19 :
    ∃ (n : Fin 16) (b : Fin 68) (i : Fin 256) (lo hi : Fin 64) (s : State),
    (bandRuns s n.val b.val = true) ∧ ((s.layer i.val).created = true) ∧ ((s.layer i.val).head = n.val) ∧ ((s.layer i.val).cur.visible = true) ∧ ((s.layer i.val).buf.isSome = true) ∧ let p := headOwner s n.val; let xs := shutPieces s p (s.head n.val) (s.layer i.val) b.val lo.val hi.val; let t := shutReads s p (xs.map fun x => (x.addr, x.len)); let h := t.head n.val; (xs ≠ []) ∧ ((∃ x ∈ h.held, x.2 = b.val)) :=
  ⟨15, 0, 255, 0, 63, withRegs [(MG_CTRL 0 31, 2)] (scr { tiny with held := [(254, 0)] }), by decide +kernel⟩

theorem witness_Touch_1 :
    ∃ (q : Req) (s : State),
    (Admitted s q maskTchCfg) ∧ (q.u8 16 < s.nTch) ∧ (q.u8 16 ≤ 1) ∧ (ownsTouch s q.part.val (q.u8 16) = true) ∧ let p := q.u8 16; let c := tchCfgOf q; let h := s.head c.syncHead; (c.enable = true) ∧ (tchCfgBad c = false) ∧ ((c.acq = 0 → c.syncHead < s.nHeads ∧ 512 ≤ h.vAct)) ∧ ((s.tch p).cfg.enable = false) ∧ ((s.tch p).contacts = []) :=
  ⟨req (b 16 1 + b 18 48 + b 19 80 + b 20 15 + b 21 2 + b 22 3 + b 23 1 + b 24 4095 + b 26 2000 + b 28 16 + b 30 8 + b 32 4 + b 34 8 + b 36 4 + b 37 16 + b 38 3 + b 39 1 + b 40 10 + b 42 0 + b 44 1 + b 46 1 + b 17 5), run, by decide +kernel⟩

theorem witness_Touch_2 :
    ∃ (q : Req) (s : State),
    (Admitted s q maskTchCfg) ∧ (q.u8 16 < s.nTch) ∧ (q.u8 16 ≤ 1) ∧ (ownsTouch s q.part.val (q.u8 16) = true) ∧ let c := tchCfgOf q; (c.enable = false) :=
  ⟨req (b 16 1 + b 18 48 + b 19 80 + b 20 15 + b 21 2 + b 22 3 + b 23 1 + b 24 4095 + b 26 2000 + b 28 16 + b 30 8 + b 32 4 + b 34 8 + b 36 4 + b 37 16 + b 38 3 + b 39 1 + b 40 10 + b 42 0 + b 44 1 + b 46 1), tch { cfg := panel }, by decide +kernel⟩

theorem witness_Touch_3 :
    ∃ (q : Req) (s : State),
    (Admitted s q maskTchCfg) ∧ (q.u8 16 < s.nTch) ∧ (q.u8 16 ≤ 1) ∧ (ownsTouch s q.part.val (q.u8 16) = true) ∧ let p := q.u8 16; let c := tchCfgOf q; (c.enable = false) ∧ ((s.tch p).contacts = []) :=
  ⟨req (b 16 1 + b 18 48 + b 19 80 + b 20 15 + b 21 2 + b 22 3 + b 23 1 + b 24 4095 + b 26 2000 + b 28 16 + b 30 8 + b 32 4 + b 34 8 + b 36 4 + b 37 16 + b 38 3 + b 39 1 + b 40 10 + b 42 0 + b 44 1 + b 46 1), tch { cfg := panel }, by decide +kernel⟩

theorem witness_Touch_4 :
    ∃ (q : Req) (s : State),
    (Admitted s q (bodyMask [(16, 0, 16), (20, 0, 192)])) ∧ (q.u8 16 < s.nTch) ∧ (q.u8 16 ≤ 1) ∧ (q.u8 17 < s.nHeads) ∧ (ownsTouch s q.part.val (q.u8 16) = true) :=
  ⟨req (b 16 1), tch {}, by decide +kernel⟩

theorem witness_Touch_5 :
    ∃ (q : Req) (s : State) (bs : Bytes),
    (Admitted s q (bodyMask [(16, 0, 16), (18, 0, 1), (24, 0, 64)])) ∧ (modeIn s [.prime, .test] = true) ∧ (q.u8 16 < s.nTch) ∧ (q.u8 16 ≤ 1) ∧ (q.u8 17 ≤ 2) ∧ (ownsTouch s q.part.val (q.u8 16) = true) ∧ let n := (s.tch (q.u8 16)).cfg.nodes * (match q.u8 17 with | 0 => 1 | 1 => 2 | _ => 0); let er := engRead s (32 + q.u8 16) q.part.val (q.u40 24) (2 * n); let rd := if n = 0 then (s, stComplete, []) else if q.bit 18 0 = true then hostRead s q.part.val (q.u64 24) (2 * n) q.host else (er.1, er.2.1.status, er.2.2); (rd.2 = (stComplete, bs)) :=
  ⟨reqH (b 16 1 + b 17 1 + b 18 1 + b 24 8) (List.replicate 64 1), { base .prime with touch := [(1, { cfg := panel })] }, List.replicate 64 1, by decide +kernel⟩

theorem witness_Touch_6 :
    ∃ (q : Req) (s : State),
    (Admitted s q (bodyMask [(16, 0, 8)])) ∧ (modeIn s [.prime, .run, .test] = true) ∧ (q.u8 16 < s.nTch) ∧ (q.u8 16 ≤ 1) ∧ (ownsTouch s q.part.val (q.u8 16) = true) ∧ ((s.tch (q.u8 16)).cfgd = true) :=
  ⟨req (b 16 1), tch { cfgd := true }, by decide +kernel⟩

theorem witness_Touch_7 :
    ∃ (q : Req) (s : State),
    (Admitted s q (bodyMask [(16, 0, 16), (18, 0, 1), (24, 0, 64)])) ∧ (q.u8 16 < s.nTch) ∧ (q.u8 16 ≤ 1) ∧ (q.u8 17 ≤ 3) ∧ (q.u64 24 % 8 = 0) ∧ (ownsTouch s q.part.val (q.u8 16) = true) ∧ ((s.tch (q.u8 16)).cfgd = true) ∧ (q.bit 18 0 = true) ∧ (onPcie s q.part.val = true) ∧ (linkUp s (s.part q.part.val).port = true) :=
  ⟨req (b 16 1 + b 17 3 + b 18 1 + b 24 8), tch { cfgd := true, cfg := panel }, by decide +kernel⟩

theorem witness_Touch_8 :
    ∃ (q : Req) (s : State),
    (Admitted s q (bodyMask [(16, 0, 8), (18, 0, 1), (24, 0, 64)])) ∧ (modeIn s [.test] = true) ∧ (q.u8 16 < s.nTch) ∧ (q.u8 16 ≤ 1) ∧ (ownsTouch s q.part.val (q.u8 16) = true) ∧ ((s.tch (q.u8 16)).cfgd = true) ∧ ((s.tch (q.u8 16)).test = none) :=
  ⟨req (b 16 1 + b 18 1 + b 24 8), { base .test with touch := [(1, { cfgd := true, cfg := panel })] }, by decide +kernel⟩

theorem witness_Touch_9 :
    ∃ (q : Req) (s : State),
    (Admitted s q (bodyMask [(16, 0, 8), (17, 0, 2), (18, 0, 8), (24, 0, 64)])) ∧ (q.u8 16 < s.nTch) ∧ (q.u8 16 ≤ 1) ∧ ((q.bit 17 0 = true → 4 ≤ q.u8 18 ∧ q.u8 18 ≤ 10 ∧ q.u64 24 % 4096 = 0)) :=
  ⟨req (b 16 1), tch {}, by decide +kernel⟩

theorem witness_Touch_10 :
    ∃ (p : Fin 2) (xs : List Int) (s : State),
    (s.ctl.core = true) ∧ (s.absent (32 + p.val) = false) ∧ ((s.tch p.val).test = none) ∧ ((s.tch p.val).cfg.enable = true) ∧ (tchMode s = true) ∧ ((s.tch p.val).lost = false) ∧ let t := s.tch p.val; let acq := tchAcq s t; (t.acqUsed = acq) ∧ (slotArrives s t acq = false) :=
  ⟨1, [], tch { cfg := { panel with acq := 1 }, acqUsed := 1 }, by decide +kernel⟩

theorem witness_Touch_11 :
    ∃ (p : Fin 2) (xs : List Int) (s : State) (i : Nat),
    (s.ctl.core = true) ∧ (s.absent (32 + p.val) = false) ∧ ((s.tch p.val).test = none) ∧ ((s.tch p.val).cfg.enable = true) ∧ (tchMode s = true) ∧ ((s.tch p.val).lost = false) ∧ let t := s.tch p.val; let acq := tchAcq s t; let k := t.line; (t.acqUsed = acq) ∧ (slotArrives s t acq = true) ∧ (pwrHas s (pwrTch p.val) = true) ∧ (slotKind s t acq k = some i) ∧ (0 < i) ∧ (t.scanning = true) ∧ (t.slots.length = i) :=
  ⟨1, [2047, -2048, 5000, -5000], { tch { cfg := panel, acqUsed := 2, line := 574, scanning := true, slots := List.replicate 510 [] } with pwr := { items := [⟨1025, 4, 1, 0, true, false, false, 0, 0⟩] } }, 510, by decide +kernel⟩

theorem witness_Touch_12 :
    ∃ (p : Fin 2) (xs : List Int) (s : State) (i : Nat),
    (s.ctl.core = true) ∧ (s.absent (32 + p.val) = false) ∧ ((s.tch p.val).test = none) ∧ ((s.tch p.val).cfg.enable = true) ∧ (tchMode s = true) ∧ ((s.tch p.val).lost = false) ∧ let t := s.tch p.val; let acq := tchAcq s t; let k := t.line; (t.acqUsed = acq) ∧ (slotArrives s t acq = true) ∧ (pwrHas s (pwrTch p.val) = true) ∧ (slotKind s t acq k = some i) ∧ (0 < i) ∧ ((t.scanning = false ∨ t.slots.length ≠ i)) :=
  ⟨1, [], { tch { cfg := panel, acqUsed := 2, line := 575, scanning := false } with pwr := { items := [⟨1025, 4, 1, 0, true, false, false, 0, 0⟩] } }, 511, by decide +kernel⟩

theorem witness_Touch_13 :
    ∃ (p : Fin 2) (xs : List Int) (s : State),
    (s.ctl.core = true) ∧ (s.absent (32 + p.val) = false) ∧ ((s.tch p.val).test = none) ∧ ((s.tch p.val).cfg.enable = true) ∧ (tchMode s = true) ∧ ((s.tch p.val).lost = false) ∧ let t := s.tch p.val; let acq := tchAcq s t; let k := t.line; (t.acqUsed = acq) ∧ (slotArrives s t acq = true) ∧ (pwrHas s (pwrTch p.val) = true) ∧ (slotKind s t acq k = some 0) ∧ (pwrReady s (pwrTch p.val) = true) ∧ (t.mapNext = none) ∧ (t.baseNext = []) ∧ (t.rebase = false) :=
  ⟨1, [1, 2, 3, 4], { tch { cfg := panel, acqUsed := 2, line := 64 } with pwr := { items := [⟨1025, 4, 1, 0, true, false, false, 0, 0⟩] } }, by decide +kernel⟩

theorem witness_Touch_14 :
    ∃ (p : Fin 2) (xs : List Int) (s : State),
    (s.ctl.core = true) ∧ (s.absent (32 + p.val) = false) ∧ ((s.tch p.val).test = none) ∧ ((s.tch p.val).cfg.enable = true) ∧ (tchMode s = true) ∧ ((s.tch p.val).lost = false) ∧ let t := s.tch p.val; let acq := tchAcq s t; let k := t.line; (t.acqUsed = acq) ∧ (slotArrives s t acq = true) ∧ (pwrHas s (pwrTch p.val) = true) ∧ (slotKind s t acq k = some 0) ∧ (pwrReady s (pwrTch p.val) = false) :=
  ⟨1, [1, 2, 3, 4], { tch { cfg := panel, acqUsed := 2, line := 64 } with pwr := { items := [⟨1025, 4, 1, 0, false, false, false, 0, 0⟩] } }, by decide +kernel⟩

theorem witness_Touch_15 :
    ∃ (p : Fin 2) (xs : List Int) (s : State),
    (s.ctl.core = true) ∧ (s.absent (32 + p.val) = false) ∧ ((s.tch p.val).test = none) ∧ ((s.tch p.val).cfg.enable = true) ∧ (tchMode s = true) ∧ ((s.tch p.val).lost = false) ∧ let t := s.tch p.val; let acq := tchAcq s t; let k := t.line; (t.acqUsed = acq) ∧ (slotArrives s t acq = true) ∧ (pwrHas s (pwrTch p.val) = true) ∧ (slotKind s t acq k = none) ∧ (¬ (acq = 1 ∧ k = 543)) :=
  ⟨1, [1, 2, 3, 4], { tch { cfg := panel, acqUsed := 2, line := 63 } with pwr := { items := [⟨1025, 4, 1, 0, true, false, false, 0, 0⟩] } }, by decide +kernel⟩

theorem witness_Touch_16 :
    ∃ (p : Fin 2) (xs : List Int) (s : State) (id : Nat) (passes : List (List Int)) (sat : List Nat),
    (s.ctl.core = true) ∧ (s.absent (32 + p.val) = false) ∧ ((s.tch p.val).test = some (id, passes, sat)) ∧ (s.ctl.mode ≠ .test) :=
  ⟨1, [], tch { cfg := panel, test := some (3, [], []) }, 3, [], [], by decide +kernel⟩

theorem witness_Touch_17 :
    ∃ (p : Fin 2) (xs : List Int) (s : State) (id : Nat) (passes : List (List Int)) (sat : List Nat),
    (s.ctl.core = true) ∧ (s.absent (32 + p.val) = false) ∧ ((s.tch p.val).test = some (id, passes, sat)) ∧ (s.ctl.mode = .test) ∧ ((s.tch p.val).slots = []) ∧ (pwrReady s (pwrTch p.val) = false) :=
  ⟨1, [], { base .test with touch := [(1, { cfg := panel, test := some (3, [], []) })] }, 3, [], [], by decide +kernel⟩

theorem witness_Touch_18 :
    ∃ (p : Fin 2) (xs : List Int) (s : State) (id : Nat) (passes : List (List Int)) (sat : List Nat),
    (s.ctl.core = true) ∧ (s.absent (32 + p.val) = false) ∧ ((s.tch p.val).test = some (id, passes, sat)) ∧ (s.ctl.mode = .test) ∧ (((s.tch p.val).slots ≠ [] ∨ pwrReady s (pwrTch p.val) = true)) ∧ ((s.tch p.val).slots.length < 512) :=
  ⟨1, [1, 2, 3, 4], { base .test with touch := [(1, { cfg := panel, test := some (3, [], []), slots := List.replicate 511 [] })] }, 3, [], [], by decide +kernel⟩

theorem witness_Touch_19 :
    ∃ (p : Fin 2) (s : State),
    (s.ctl.core = true) ∧ ((s.tch p.val).slots.length = 512) ∧ ((s.tch p.val).test = none) ∧ ((s.tch p.val).scanning = true) ∧ (tchMode s = true) :=
  ⟨1, tch { cfg := panel, slots := List.replicate 512 [1, 2, 3, 4], scanning := true }, by decide +kernel⟩

theorem witness_Touch_20 :
    ∃ (p : Fin 2) (s : State) (id : Nat) (passes : List (List Int)) (sat : List Nat),
    (s.ctl.core = true) ∧ ((s.tch p.val).slots.length = 512) ∧ ((s.tch p.val).test = some (id, passes, sat)) ∧ (passes.length ≠ 12) :=
  ⟨1, tch { cfg := panel, slots := List.replicate 512 [1, 2, 3, 4], test := some (3, [], []) }, 3, [], [], by decide +kernel⟩

theorem witness_Touch_21 :
    ∃ (p : Fin 2) (s : State) (id : Nat) (passes : List (List Int)) (sat : List Nat),
    (s.ctl.core = true) ∧ ((s.tch p.val).slots.length = 512) ∧ ((s.tch p.val).test = some (id, passes, sat)) ∧ (passes.length = 12) :=
  ⟨1, tch { cfg := panel, slots := List.replicate 512 [1, 2, 3, 4], test := some (3, List.replicate 12 [], [4]) }, 3, List.replicate 12 [], [4], by decide +kernel⟩

theorem witness_Touch_22 :
    ∃ (p : Fin 2) (s : State),
    (s.ctl.core = true) ∧ (s.absent (32 + p.val) = false) ∧ ((s.tch p.val).cfg.enable = true) ∧ (tchAcq s (s.tch p.val) = 1) ∧ (tchMode s = true) ∧ ((∀ a ∈ (s.tch p.val).tsyncAt, 2000 ≤ s.since a)) :=
  ⟨1, tch { cfg := { panel with acq := 1 }, lost := true }, by decide +kernel⟩

theorem witness_Touch_23 :
    ∃ (p : Fin 2) (s : State) (a : Nat),
    (s.ctl.core = true) ∧ (s.absent (32 + p.val) = false) ∧ ((s.tch p.val).cfg.enable = true) ∧ (tchAcq s (s.tch p.val) = 1) ∧ (tchMode s = true) ∧ ((s.tch p.val).tsyncAt = some a) ∧ (s.since a < 2000) :=
  ⟨1, { tch { cfg := { panel with acq := 1 }, tsyncAt := some 1001 } with tbase := { val := 3000 * 2 ^ 64 } }, 1001, by decide +kernel⟩

theorem witness_Touch_24 :
    ∃ (p : Fin 2) (s : State),
    (s.ctl.core = true) ∧ ((s.tch p.val).cfg.enable = true) ∧ (tchMode s = true) ∧ (tchAcq s (s.tch p.val) ≠ 2) ∧ ((s.tch p.val).lost = false) ∧ ((s.tch p.val).test = none) ∧ (50000000 ≤ s.since (s.tch p.val).slotAt) :=
  ⟨1, { tch { cfg := { panel with acq := 1 }, contacts := [contact] } with tbase := { val := 50000000 * 2 ^ 64 } }, by decide +kernel⟩

theorem witness_Touch_25 :
    ∃ (p : Fin 2) (k : Fin 16) (node : Nat) (s : State) (c : Contact),
    (s.ctl.core = true) ∧ ((s.tch p.val).cfg.enable = true) ∧ (tchMode s = true) ∧ let limit := (((s.tch p.val).cfg.stuckS * 1000000000 : Nat) : Int); (k.val < 15) ∧ ((s.tch p.val).contacts.find? (fun c => c.id == k.val) = some c) ∧ (c.stuck = false) ∧ (c.still = true) ∧ (limit ≤ s.since c.nearAt) :=
  ⟨1, 14, 3, { tch { cfg := { panel with stuckS := 10 }, contacts := [contact] } with tbase := { val := 10000000000 * 2 ^ 64 } }, contact, by decide +kernel⟩

theorem witness_Touch_26 :
    ∃ (p : Fin 2) (k : Fin 16) (node : Nat) (s : State) (c : Contact),
    (s.ctl.core = true) ∧ ((s.tch p.val).cfg.enable = true) ∧ (tchMode s = true) ∧ let limit := (((s.tch p.val).cfg.stuckS * 1000000000 : Nat) : Int); (k.val < 15) ∧ ((s.tch p.val).contacts.find? (fun c => c.id == k.val) = some c) ∧ ((c.stuck = true ∨ c.still = false ∨ s.since c.nearAt < limit)) :=
  ⟨1, 14, 3, at_ 10000000000 (tch { cfg := { panel with stuckS := 10 }, contacts := [{ contact with stuck := true }] }), { contact with stuck := true }, by decide +kernel⟩

theorem witness_Touch_27 :
    ∃ (p : Fin 2) (k : Fin 16) (node : Nat) (s : State),
    (s.ctl.core = true) ∧ ((s.tch p.val).cfg.enable = true) ∧ (tchMode s = true) ∧ let limit := (((s.tch p.val).cfg.stuckS * 1000000000 : Nat) : Int); (k.val = 15) ∧ (node ∈ (s.tch p.val).pre) ∧ (node ∉ (s.tch p.val).preStuck) ∧ (limit ≤ s.since (s.tch p.val).startAt) :=
  ⟨1, 15, 3, at_ 10000000000 (tch { cfg := { panel with stuckS := 10 }, pre := [3] }), by decide +kernel⟩

theorem witness_DceCommands_1 :
    ∃ (q : Req) (s : State),
    (Admitted s q (maskDce false q)) ∧ ((∀ x ∈ dceChecks s q false, x.1 = false)) :=
  ⟨req (b 16 255 + b 17 13 + b 18 9 + b 20 1073741824 + b 24 0 + b 32 1099511627776 + b 40 2147483648), run, by decide +kernel⟩

theorem witness_DceCommands_2 :
    ∃ (q : Req) (s : State) (st : Nat),
    (Admitted s q (maskDce false q)) ∧ (firstFail (dceChecks s q false) = some st) :=
  ⟨req (b 16 1 + b 18 10 + b 40 1), run, stBadRange, by decide +kernel⟩

theorem witness_DceCommands_3 :
    ∃ (q : Req) (s : State),
    (Admitted s q (maskDce true q)) ∧ ((∀ x ∈ dceChecks s q true, x.1 = false)) :=
  ⟨req (b 16 1 + b 17 16 + b 20 1073741824 + b 24 0x180000000 + b 32 0x200000000 + b 40 2147483648), run, by decide +kernel⟩

theorem witness_DceCommands_4 :
    ∃ (q : Req) (s : State) (st : Nat),
    (Admitted s q (maskDce true q)) ∧ (firstFail (dceChecks s q true) = some st) :=
  ⟨req (b 16 1 + b 18 10 + b 40 1), run, stBadRange, by decide +kernel⟩

theorem witness_DceCommands_5 :
    ∃ (e : Fin 2) (s : State),
    (s.ctl.core = true) ∧ (s.ctl.mode ≠ .yield) ∧ (s.dceW e.val = none) ∧ (dceNext s e.val = none) :=
  ⟨1, run, by decide +kernel⟩

theorem witness_DceCommands_6 :
    ∃ (e : Fin 2) (s : State) (w : DceWork),
    (s.ctl.core = true) ∧ (s.ctl.mode ≠ .yield) ∧ (s.dceW e.val = none) ∧ (dceNext s e.val = some w) ∧ (pwrReady s (pwrDce e.val) = false) :=
  ⟨1, { run with jobs := [job 3 0x0D01 (b 16 1 + b 18 9 + b 20 3 + b 40 100)] }, .job 3, by decide +kernel⟩

theorem witness_DceCommands_7 :
    ∃ (e : Fin 2) (s : State) (id : Nat),
    (s.ctl.core = true) ∧ (s.ctl.mode ≠ .yield) ∧ (s.dceW e.val = none) ∧ (dceNext s e.val = some (.job id)) ∧ (pwrReady s (pwrDce e.val) = true) :=
  ⟨1, { run with jobs := [job 3 0x0D01 (b 16 1 + b 18 9 + b 20 3 + b 40 100)], pwr := { items := [⟨769, 3, 8, 0, true, false, false, 0, 0⟩] } }, 3, by decide +kernel⟩

theorem witness_DceCommands_8 :
    ∃ (e : Fin 2) (s : State) (b : BandItem),
    (s.ctl.core = true) ∧ (s.ctl.mode ≠ .yield) ∧ (s.dceW e.val = none) ∧ (dceNext s e.val = some (.band b)) ∧ (pwrReady s (pwrDce e.val) = true) :=
  ⟨1, { run with bands := [⟨true, 3, 0, 7, 4095, true, false, []⟩], pwr := { items := [⟨769, 3, 8, 0, true, false, false, 0, 0⟩] } }, ⟨true, 3, 0, 7, 4095, true, false, []⟩, by decide +kernel⟩

theorem witness_DceCommands_9 :
    ∃ (e : Fin 2) (s : State),
    (s.ctl.core = true) ∧ (s.ctl.mode ≠ .yield) ∧ (s.dceW e.val = none) ∧ (dceNext s e.val = some .checkpoint) ∧ (pwrReady s (pwrDce e.val) = true) :=
  ⟨1, { run with ckptWait := true, pwr := { items := [⟨769, 3, 8, 0, true, false, false, 0, 0⟩] } }, by decide +kernel⟩

theorem witness_DceCommands_10 :
    ∃ (e : Fin 2) (h : HostRead) (s : State),
    (s.dceW e.val = some .checkpoint) :=
  ⟨1, .error, { run with dce := [(1, some .checkpoint)], rdn := { image := some (5, 0, []) } }, by decide +kernel⟩

theorem witness_DceCommands_11 :
    ∃ (e : Fin 2) (h : HostRead) (s : State) (b : BandItem),
    (s.dceW e.val = some (.band b)) ∧ (bandBehind s b = false) ∧ ((b.rx = true ∨ bandHeld s (s.txSurf b.slot).part b.target b.band = false)) :=
  ⟨1, .error, { run with dce := [(1, some (.band ⟨true, 3, 0, 7, 4095, true, false, []⟩))], surfs := [(4095, surf)] }, ⟨true, 3, 0, 7, 4095, true, false, []⟩, by decide +kernel⟩

theorem witness_DceCommands_12 :
    ∃ (e : Fin 2) (h : HostRead) (s : State) (b : BandItem),
    (s.dceW e.val = some (.band b)) ∧ (bandBehind s b = true) :=
  ⟨1, .error, { run with dce := [(0, some (.band ⟨false, 3, 0, 7, 4095, true, false, []⟩)), (1, some (.band ⟨false, 3, 1, 7, 4095, true, false, []⟩))], surfs := [(4095, surf)] }, ⟨false, 3, 1, 7, 4095, true, false, []⟩, by decide +kernel⟩

theorem witness_DceCommands_13 :
    ∃ (e : Fin 2) (h : HostRead) (s : State) (id : Nat) (j : Job),
    (s.dceW e.val = some (.job id)) ∧ (s.job id = some j) ∧ (j.stops = false) ∧ (dceHeld s e.val j h = true) :=
  ⟨1, .error, heldAt 0x190000000 (({ run with dce := [(1, some (.job 3))], jobs := [runJob 3 0x0D02 (b 20 6 + b 24 0x180000000 + b 32 0x190000000 + b 40 100)], pwr := { items := [⟨769, 3, 8, 0, true, false, false, 0, 0⟩] } } : State).store 0x180000000 [1, 1, 0, 0xFE, 0xFF, 0x41]), 3, runJob 3 0x0D02 (b 20 6 + b 24 0x180000000 + b 32 0x190000000 + b 40 100), by decide +kernel⟩

theorem witness_DceCommands_14 :
    ∃ (e : Fin 2) (h : HostRead) (s : State) (id : Nat) (j : Job),
    (s.dceW e.val = some (.job id)) ∧ (s.job id = some j) ∧ (j.stops = false) ∧ (dceHeld s e.val j h = false) :=
  ⟨1, .error, ({ run with dce := [(1, some (.job 3))], jobs := [runJob 3 0x0D02 (b 20 6 + b 24 0x180000000 + b 32 0x190000000 + b 40 100)], pwr := { items := [⟨769, 3, 8, 0, true, false, false, 0, 0⟩] } } : State).store 0x180000000 [1, 1, 0, 0xFE, 0xFF, 0x41], 3, runJob 3 0x0D02 (b 20 6 + b 24 0x180000000 + b 32 0x190000000 + b 40 100), by decide +kernel⟩

theorem witness_DceCommands_15 :
    ∃ (e : Fin 2) (h : HostRead) (s : State) (id : Nat) (j : Job) (bs : Bytes),
    (s.dceW e.val = some (.job id)) ∧ (s.job id = some j) ∧ (j.stops = false) ∧ let host := dceSrcHost j.req = true ∧ dceDstHost j.req = true ∧ onPcie s j.req.part.val = true ∧ linkUp s (s.part j.req.part.val).port = true; (h = .bytes bs) ∧ (j.opcode = 0x0D01) ∧ (host) ∧ let input := sliceB bs 0 (dceLen j.req); let out := pack (dceFmt j.req) (j.req.u8 18) input; (out.length ≤ dceCap j.req) :=
  ⟨1, .bytes [], { run with dce := [(1, some (.job 3))], jobs := [runJob 3 0x0D01 (b 17 12 + b 18 9 + b 24 8 + b 32 16 + b 40 100)], pwr := { items := [⟨769, 3, 8, 0, true, false, false, 0, 0⟩] } }, 3, runJob 3 0x0D01 (b 17 12 + b 18 9 + b 24 8 + b 32 16 + b 40 100), [], by decide +kernel⟩

theorem witness_DceCommands_16 :
    ∃ (e : Fin 2) (h : HostRead) (s : State) (id : Nat) (j : Job) (bs : Bytes),
    (s.dceW e.val = some (.job id)) ∧ (s.job id = some j) ∧ (j.stops = false) ∧ let host := dceSrcHost j.req = true ∧ dceDstHost j.req = true ∧ onPcie s j.req.part.val = true ∧ linkUp s (s.part j.req.part.val).port = true; (h = .bytes bs) ∧ (j.opcode = 0x0D02) ∧ (host) ∧ let u := unpack (dceFmt j.req) (if dceVerify j.req then some (j.req.u32 52) else none) (sliceB bs 0 (dceLen j.req)) (dceCap j.req); (u.st ≠ stOutFull) :=
  ⟨1, .bytes [3, 0], { run with dce := [(1, some (.job 3))], jobs := [runJob 3 0x0D02 (b 17 12 + b 20 2 + b 24 8 + b 32 16 + b 40 100)], pwr := { items := [⟨769, 3, 8, 0, true, false, false, 0, 0⟩] } }, 3, runJob 3 0x0D02 (b 17 12 + b 20 2 + b 24 8 + b 32 16 + b 40 100), [3, 0], by decide +kernel⟩

theorem witness_DceCommands_17 :
    ∃ (e : Fin 2) (h : HostRead) (s : State) (id : Nat) (j : Job) (bs : Bytes),
    (s.dceW e.val = some (.job id)) ∧ (s.job id = some j) ∧ (j.stops = true) ∧ let x := dceSeen s e.val j.req h; (x.2 = some bs) ∧ (j.opcode = 0x0D01) :=
  ⟨1, .bytes [], { run with dce := [(1, some (.job 3))], jobs := [{ runJob 3 0x0D01 (b 17 12 + b 18 9 + b 24 8 + b 32 16 + b 40 100) with abortBy := [2] }], pwr := { items := [⟨769, 3, 8, 0, true, false, false, 0, 0⟩] } }, 3, { runJob 3 0x0D01 (b 17 12 + b 18 9 + b 24 8 + b 32 16 + b 40 100) with abortBy := [2] }, [], by decide +kernel⟩

theorem witness_DceCommands_18 :
    ∃ (e : Fin 2) (h : HostRead) (s : State) (id : Nat) (j : Job) (bs : Bytes),
    (s.dceW e.val = some (.job id)) ∧ (s.job id = some j) ∧ (j.stops = true) ∧ let x := dceSeen s e.val j.req h; (x.2 = some bs) ∧ (j.opcode = 0x0D02) :=
  ⟨1, .bytes [3, 0], { run with dce := [(1, some (.job 3))], jobs := [{ runJob 3 0x0D02 (b 17 12 + b 20 2 + b 24 8 + b 32 16 + b 40 100) with abortBy := [2] }], pwr := { items := [⟨769, 3, 8, 0, true, false, false, 0, 0⟩] } }, 3, { runJob 3 0x0D02 (b 17 12 + b 20 2 + b 24 8 + b 32 16 + b 40 100) with abortBy := [2] }, [3, 0], by decide +kernel⟩

theorem witness_CrcJobs_1 :
    ∃ (q : Req) (s : State),
    (Admitted s q (maskCrc q)) ∧ ((q.u8 16 ≤ 7 ∨ q.u8 16 = 255)) ∧ ((q.u8 18 < 8 ∨ 64 < q.u8 18 ∨ (∃ i, q.u8 18 ≤ i ∧ (bitOf (q.u64 32) i = true ∨ bitOf (q.u64 40) i = true ∨ bitOf (q.u64 48) i = true)))) :=
  ⟨req (b 16 7 + b 18 8 + b 40 256), run, by decide +kernel, by decide +kernel, Or.inr (Or.inr ⟨8, by decide +kernel⟩)⟩

theorem witness_CrcJobs_2 :
    ∃ (q : Req) (s : State) (u : Nat),
    (Admitted s q (maskCrc q)) ∧ ((q.u8 16 ≤ 7 ∨ q.u8 16 = 255)) ∧ (8 ≤ q.u8 18) ∧ (q.u8 18 ≤ 64) ∧ (q.u64 32 < 2 ^ q.u8 18) ∧ (q.u64 40 < 2 ^ q.u8 18) ∧ (q.u64 48 < 2 ^ q.u8 18) ∧ ((∀ j ∈ s.jobs, j.op = 0x0E01 → j.running = true ∨ j.yielded = true)) ∧ (crcUnitFor s (jobOf s q 0x0E01) = some u) :=
  ⟨req (b 16 7 + b 17 8 + b 18 64 + b 20 3 + b 32 18446744073709551615 + b 40 18446744073709551615 + b 48 18446744073709551615 + b 56 1), run, 7, by decide +kernel⟩

theorem witness_CrcJobs_3 :
    ∃ (q : Req) (s : State),
    (Admitted s q (maskCrc q)) ∧ ((q.u8 16 ≤ 7 ∨ q.u8 16 = 255)) ∧ (8 ≤ q.u8 18) ∧ (q.u8 18 ≤ 64) ∧ (q.u64 32 < 2 ^ q.u8 18) ∧ (q.u64 40 < 2 ^ q.u8 18) ∧ (q.u64 48 < 2 ^ q.u8 18) ∧ ((∀ j ∈ s.jobs, j.op = 0x0E01 → j.running = true ∨ j.yielded = true)) ∧ (crcUnitFor s (jobOf s q 0x0E01) = none) :=
  ⟨req (b 16 7 + b 17 8 + b 18 64 + b 20 3 + b 32 18446744073709551615 + b 40 18446744073709551615 + b 48 18446744073709551615 + b 56 1), { run with crcu := [(7, some 3)], jobs := [runJob 3 0x0E01 (b 16 7)] , nextJob := 4 }, by decide +kernel⟩

theorem witness_CrcJobs_4 :
    ∃ (u : Fin 8) (h : HostRead) (s : State) (id : Nat) (j : Job),
    (s.crcW u.val = some id) ∧ (s.job id = some j) ∧ (pwrReady s (pwrCrc u.val) = false) :=
  ⟨7, .error, { run with crcu := [(7, some 3)], jobs := [runJob 3 0x0E01 (b 16 7 + b 17 0 + b 18 32 + b 20 3 + b 24 0x180000000 + b 32 0x1EDC6F41)] }, 3, runJob 3 0x0E01 (b 16 7 + b 17 0 + b 18 32 + b 20 3 + b 24 0x180000000 + b 32 0x1EDC6F41), by decide +kernel⟩

theorem witness_CrcJobs_5 :
    ∃ (u : Fin 8) (h : HostRead) (s : State) (id : Nat) (j : Job),
    (s.crcW u.val = some id) ∧ (s.job id = some j) ∧ (pwrReady s (pwrCrc u.val) = true) ∧ (j.stops = true) :=
  ⟨7, .error, { run with crcu := [(7, some 3)], jobs := [{ runJob 3 0x0E01 (b 16 7 + b 17 0 + b 18 32 + b 20 3 + b 24 0x180000000 + b 32 0x1EDC6F41) with abortBy := [2] }], pwr := { items := [⟨1287, 5, 2, 0, true, false, false, 0, 0⟩] } }, 3, { runJob 3 0x0E01 (b 16 7 + b 17 0 + b 18 32 + b 20 3 + b 24 0x180000000 + b 32 0x1EDC6F41) with abortBy := [2] }, by decide +kernel⟩

theorem witness_CrcJobs_6 :
    ∃ (u : Fin 8) (h : HostRead) (s : State) (id : Nat) (j : Job),
    (s.crcW u.val = some id) ∧ (s.job id = some j) ∧ let q := j.req; let p := q.part.val; let waits := isInternal s p (crcSrcHost q) && rangeHeld s (44 + u.val) p .r (crcSrc q) (q.u32 20); (pwrReady s (pwrCrc u.val) = true) ∧ (j.stops = false) ∧ (waits = true) :=
  ⟨7, .error, heldAt 0x180000000 ({ run with crcu := [(7, some 3)], jobs := [runJob 3 0x0E01 (b 16 7 + b 17 0 + b 18 32 + b 20 3 + b 24 0x180000000 + b 32 0x1EDC6F41)], pwr := { items := [⟨1287, 5, 2, 0, true, false, false, 0, 0⟩] } }), 3, runJob 3 0x0E01 (b 16 7 + b 17 0 + b 18 32 + b 20 3 + b 24 0x180000000 + b 32 0x1EDC6F41), by decide +kernel⟩

theorem witness_CrcJobs_7 :
    ∃ (u : Fin 8) (h : HostRead) (s : State) (id : Nat) (j : Job),
    (s.crcW u.val = some id) ∧ (s.job id = some j) ∧ let q := j.req; let p := q.part.val; let waits := isInternal s p (crcSrcHost q) && rangeHeld s (44 + u.val) p .r (crcSrc q) (q.u32 20); let r := jobSourceRead s (44 + u.val) p (crcSrcHost q) (crcSrc q) (q.u32 20) h; (pwrReady s (pwrCrc u.val) = true) ∧ (j.stops = false) ∧ (waits = false) ∧ (r.2.1 = stComplete) :=
  ⟨7, .error, ({ run with crcu := [(7, some 3)], jobs := [runJob 3 0x0E01 (b 16 7 + b 17 0 + b 18 32 + b 20 3 + b 24 0x180000000 + b 32 0x1EDC6F41)], pwr := { items := [⟨1287, 5, 2, 0, true, false, false, 0, 0⟩] } } : State).store 0x180000000 [1, 2, 3], 3, runJob 3 0x0E01 (b 16 7 + b 17 0 + b 18 32 + b 20 3 + b 24 0x180000000 + b 32 0x1EDC6F41), by decide +kernel⟩

theorem witness_CrcJobs_8 :
    ∃ (u : Fin 8) (h : HostRead) (s : State) (id : Nat) (j : Job),
    (s.crcW u.val = some id) ∧ (s.job id = some j) ∧ let q := j.req; let p := q.part.val; let waits := isInternal s p (crcSrcHost q) && rangeHeld s (44 + u.val) p .r (crcSrc q) (q.u32 20); let r := jobSourceRead s (44 + u.val) p (crcSrcHost q) (crcSrc q) (q.u32 20) h; (pwrReady s (pwrCrc u.val) = true) ∧ (j.stops = false) ∧ (waits = false) ∧ (r.2.1 ≠ stComplete) :=
  ⟨7, .error, shut ({ run with crcu := [(7, some 3)], jobs := [runJob 3 0x0E01 (b 16 7 + b 17 0 + b 18 32 + b 20 3 + b 24 0x180000000 + b 32 0x1EDC6F41)], pwr := { items := [⟨1287, 5, 2, 0, true, false, false, 0, 0⟩] } }), 3, runJob 3 0x0E01 (b 16 7 + b 17 0 + b 18 32 + b 20 3 + b 24 0x180000000 + b 32 0x1EDC6F41), by decide +kernel⟩

theorem witness_CrcJobs_9 :
    ∃ (u : Fin 8) (h : HostRead) (s : State) (id : Nat) (j : Job) (bs : Bytes),
    (s.crcW u.val = some id) ∧ (s.job id = some j) ∧ let q := j.req; let p := q.part.val; (pwrReady s (pwrCrc u.val) = true) ∧ (j.stops = false) ∧ (h = .bytes bs) ∧ (crcSrcHost q = true) ∧ (onPcie s p = true) ∧ (linkUp s (s.part p).port = true) :=
  ⟨7, .bytes [1, 2, 3], { run with crcu := [(7, some 3)], jobs := [runJob 3 0x0E01 (b 16 7 + b 17 8 + b 18 32 + b 20 3 + b 24 8 + b 32 0x1EDC6F41)], pwr := { items := [⟨1287, 5, 2, 0, true, false, false, 0, 0⟩] } }, 3, runJob 3 0x0E01 (b 16 7 + b 17 8 + b 18 32 + b 20 3 + b 24 8 + b 32 0x1EDC6F41), [1, 2, 3], by decide +kernel⟩

theorem witness_DeviceTime_1 :
    ∃ (a : Access) (v : Word) (s : State),
    (Reaches s a .w TB_SNAP) ∧ (bitOf v.toNat 31 = true) :=
  ⟨desk, 0x80000000, at_ 5000000007 run, by decide +kernel⟩

theorem witness_DeviceTime_2 :
    ∃ (a : Access) (v : Word) (s : State),
    (Reaches s a .w TB_SNAP) ∧ (bitOf v.toNat 31 = false) :=
  ⟨desk, 0x7FFFFFFF, run, by decide +kernel⟩

theorem witness_DeviceTime_3 :
    ∃ (q : Req) (s : State),
    (Admitted s q 0) :=
  ⟨req 0, at_ 5000000007 run, by decide +kernel⟩

theorem witness_DeviceTime_4 :
    ∃ (a : Access) (v : Word) (s : State),
    (Reaches s a .w TB_ADJ) ∧ (bitOf v.toNat 31 = false) :=
  ⟨desk, 0x7FFFFFFF, run, by decide +kernel⟩

theorem witness_DeviceTime_5 :
    ∃ (a : Access) (v : Word) (s : State),
    (Reaches s a .w TB_ADJ) ∧ (bitOf v.toNat 31 = true) ∧ (bitsOf v.toNat 1 30 ≠ 0) :=
  ⟨desk, 0xC0000001, run, by decide +kernel⟩

theorem witness_DeviceTime_6 :
    ∃ (a : Access) (v : Word) (s : State),
    (Reaches s a .w TB_ADJ) ∧ (bitOf v.toNat 31 = true) ∧ (bitsOf v.toNat 0 31 = 0) ∧ (rateOut (signed 64 (s.pair TB_RATE_LO TB_RATE_HI)) = false) :=
  ⟨desk, 0x80000000, at_ 5000000007 run, by decide +kernel⟩

theorem witness_DeviceTime_7 :
    ∃ (a : Access) (v : Word) (s : State),
    (Reaches s a .w TB_ADJ) ∧ (bitOf v.toNat 31 = true) ∧ (bitsOf v.toNat 0 31 = 0) ∧ (rateOut (signed 64 (s.pair TB_RATE_LO TB_RATE_HI)) = true) :=
  ⟨desk, 0x80000000, withRegs [(TB_RATE_HI, 0x7FFFFFFF)] run, by decide +kernel⟩

theorem witness_DeviceTime_8 :
    ∃ (q : Req) (s : State),
    (Admitted s q maskTimeAdj) ∧ (s.fld TB_SERVO 0 5 = q.part.val) ∧ (rateOut (signed 64 (q.u64 16)) = false) :=
  ⟨req (b 16 44 + b 18 7 + b 19 1 + b 20 1), withRegs [(TB_SERVO, 0)] (at_ 3 run), by decide +kernel⟩

theorem witness_DeviceTime_9 :
    ∃ (q : Req) (s : State),
    (Admitted s q maskTimeAdj) ∧ (s.fld TB_SERVO 0 5 = q.part.val) ∧ (rateOut (signed 64 (q.u64 16)) = true) :=
  ⟨req (b 16 34 + b 18 0 + b 20 8), withRegs [(TB_SERVO, 0)] (at_ 3 run), by decide +kernel⟩

theorem witness_DeviceTime_10 :
    ∃ (s : State),
    (s.tbase.adj = none) :=
  ⟨at_ 5000000007 run, by decide +kernel⟩

theorem witness_DeviceTime_11 :
    ∃ (s : State),
    (s.since s.tbase.due.toNat < 0) :=
  ⟨{ run with tbase := { adj := some (5, 6, 7), due := 1000 } }, by decide +kernel⟩

theorem witness_DeviceTime_12 :
    ∃ (s : State) (r : BitVec 64) (m : BitVec 32) (g : BitVec 32),
    (s.tbase.adj = some (r, m, g)) ∧ (0 ≤ s.since s.tbase.due.toNat) :=
  ⟨{ run with tbase := { adj := some (5, 6, 7) } }, 5, 6, 7, by decide +kernel⟩

theorem witness_DeviceTime_13 :
    ∃ (a : Access) (v : Word) (s : State),
    (Reaches s a .w TB_ADJ) ∧ (bitOf v.toNat 31 = true) ∧ (bitsOf v.toNat 1 30 = 0) ∧ (bitOf v.toNat 0 = true) ∧ (s.ctl.mode = .prime) ∧ (s.bit TB_STATUS 0 = true) ∧ (s.fld LDG_STATUS 16 13 = 0) :=
  ⟨desk, 0x80000001, withRegs [(TB_STATUS, 1), (TB_STEP_LO, 9), (TB_STEP_FRAC, 3)] (base .prime), by decide +kernel⟩

theorem witness_DeviceTime_14 :
    ∃ (a : Access) (v : Word) (s : State),
    (Reaches s a .w TB_ADJ) ∧ (bitOf v.toNat 31 = true) ∧ (bitsOf v.toNat 1 30 = 0) ∧ (bitOf v.toNat 0 = true) ∧ ((s.ctl.mode ≠ .prime ∨ s.bit TB_STATUS 0 = false)) :=
  ⟨desk, 0x80000001, withRegs [(TB_STATUS, 1)] run, by decide +kernel⟩

theorem witness_DeviceTime_15 :
    ∃ (a : Access) (v : Word) (s : State),
    (Reaches s a .w TB_ADJ) ∧ (bitOf v.toNat 31 = true) ∧ (bitsOf v.toNat 1 30 = 0) ∧ (bitOf v.toNat 0 = true) ∧ (s.ctl.mode = .prime) ∧ (s.bit TB_STATUS 0 = true) ∧ (s.fld LDG_STATUS 16 13 ≠ 0) :=
  ⟨desk, 0x80000001, withRegs [(TB_STATUS, 1), (LDG_STATUS, 0x10001)] (base .prime), by decide +kernel⟩

theorem witness_DeviceTime_16 :
    ∃ (q : Req) (s : State),
    (Admitted s q maskTimeStep) ∧ (s.fld TB_SERVO 0 5 = q.part.val) ∧ (s.ctl.mode = .prime) ∧ (s.bit TB_STATUS 0 = true) ∧ (s.fld LDG_STATUS 16 13 = 0) :=
  ⟨req (b 16 77 + b 24 5), withRegs [(TB_STATUS, 1), (TB_SERVO, 0)] (base .prime), by decide +kernel⟩

theorem witness_DeviceTime_17 :
    ∃ (q : Req) (s : State),
    (Admitted s q maskTimeStep) ∧ (s.fld TB_SERVO 0 5 = q.part.val) ∧ ((s.ctl.mode ≠ .prime ∨ s.bit TB_STATUS 0 = false)) :=
  ⟨req (b 16 44 + b 18 7 + b 19 1 + b 20 1), withRegs [(TB_SERVO, 0)] (at_ 3 run), by decide +kernel⟩

theorem witness_DeviceTime_18 :
    ∃ (q : Req) (s : State),
    (Admitted s q maskTimeStep) ∧ (s.fld TB_SERVO 0 5 = q.part.val) ∧ (s.ctl.mode = .prime) ∧ (s.bit TB_STATUS 0 = true) ∧ (s.fld LDG_STATUS 16 13 ≠ 0) :=
  ⟨req (b 16 77), withRegs [(TB_STATUS, 1), (TB_SERVO, 0), (LDG_STATUS, 0x10001)] (base .prime), by decide +kernel⟩

theorem witness_DeviceTime_19 :
    ∃ (q : Req) (s : State),
    (s.ctl.core = true) ∧ (s.fld TB_SERVO 0 5 = q.part.val) ∧ (q.reservedSet maskTimeAdj = true) :=
  ⟨req (b 32 1), withRegs [(TB_SERVO, 0)] run, by decide +kernel⟩

theorem witness_DeviceTime_20 :
    ∃ (q : Req) (s : State),
    (s.ctl.core = true) ∧ (s.fld TB_SERVO 0 5 = q.part.val) ∧ (q.reservedSet maskTimeStep = true) :=
  ⟨req (b 16 5 + b 24 1001 + b 28 9), withRegs [(TB_SERVO, 0)] run, by decide +kernel⟩

theorem witness_DeviceTime_21 :
    ∃ (q : Req) (s : State),
    (Admitted s q (bodyMask [(16, 0, 24), (19, 0, 1), (20, 0, 352)])) ∧ (34 ≤ q.u16 16) ∧ (q.u16 16 ≤ 44) ∧ (q.u8 18 ≤ 7) ∧ (s.fld TB_SERVO 0 5 = q.part.val) ∧ (portUp s (q.u8 18) = true) :=
  ⟨req (b 16 44 + b 18 7 + b 19 1 + b 20 1), withRegs [(TB_SERVO, 0)] (at_ 3 run), by decide +kernel⟩

theorem witness_TimingGroups_1 :
    ∃ (a : Access) (g : Fin 8) (v : Word) (s : State),
    (Reaches s a .w (TG_CTRL g.val)) ∧ (bitOf v.toNat 0 = true) ∧ ((s.tg g.val).running = false) :=
  ⟨desk, 7, 1, at_ 9 run, by decide +kernel⟩

theorem witness_TimingGroups_2 :
    ∃ (a : Access) (g : Fin 8) (v : Word) (s : State),
    (Reaches s a .w (TG_CTRL g.val)) ∧ (bitOf v.toNat 0 = false) ∧ ((s.tg g.val).running = true) :=
  ⟨desk, 7, 0xFFFFFFFE, { run with tgs := [(7, { running := true, khz := 25000, hTotal := 720, vTotal := 490, vFront := 8 })] }, by decide +kernel⟩

theorem witness_TimingGroups_3 :
    ∃ (a : Access) (g : Fin 8) (v : Word) (s : State),
    (Reaches s a .w (TG_CTRL g.val)) ∧ (bitOf v.toNat 0 = (s.tg g.val).running) :=
  ⟨desk, 7, 5, { run with tgs := [(7, { running := true, khz := 25000, hTotal := 720, vTotal := 490, vFront := 8 })] }, by decide +kernel⟩

theorem witness_TimingGroups_4 :
    ∃ (a : Access) (g : Fin 8) (v : Word) (s : State),
    (Reaches s a .w (TG_CMD g.val)) ∧ (bitOf v.toNat 0 = true) :=
  ⟨desk, 7, 1, at_ 9 run, by decide +kernel⟩

theorem witness_TimingGroups_5 :
    ∃ (a : Access) (g : Fin 8) (v : Word) (s : State),
    (Reaches s a .w (TG_CMD g.val)) ∧ (bitOf v.toNat 0 = false) :=
  ⟨desk, 7, 0xFFFFFFFE, { run with tgs := [(7, { running := true, khz := 25000, hTotal := 720, vTotal := 490, vFront := 8 })] }, by decide +kernel⟩

theorem witness_TimingGroups_6 :
    ∃ (pin : Fin 2) (s : State),
    (s.ctl.core = false) :=
  ⟨1, State.reset, by decide +kernel⟩

theorem witness_TimingGroups_7 :
    ∃ (pin : Fin 2) (s : State),
    (s.ctl.core = true) :=
  ⟨1, at_ 9 (withRegs [(TG_CTRL 7, 4), (TG_CTRL 6, 2)] { run with tgs := [(7, { running := true, source := 2, khz := 25000, hTotal := 720, vTotal := 490 })] }), by decide +kernel⟩

theorem witness_TimingGroups_8 :
    ∃ (g : Fin 8) (s : State),
    ((s.ctl.core = false ∨ tgMakes s g.val = false ∨ s.island < (s.tg g.val).dueAt)) :=
  ⟨7, at_ 9 run, by decide +kernel⟩

theorem witness_TimingGroups_9 :
    ∃ (g : Fin 8) (s : State),
    (s.ctl.core = true) ∧ (tgMakes s g.val = true) ∧ ((s.tg g.val).dueAt ≤ s.island) ∧ ((swapBoundary s g.val).ctl.core = true) :=
  ⟨7, { run with tgs := [(7, { running := true, khz := 25000, hTotal := 720, vTotal := 490, vFront := 8 })], heads := [(15, { head0 with tg := 7, start := [] })] }, by decide +kernel⟩

theorem witness_TimingGroups_10 :
    ∃ (g : Fin 8) (s : State),
    (s.ctl.core = true) ∧ (tgMakes s g.val = true) ∧ ((s.tg g.val).dueAt ≤ s.island) ∧ ((swapBoundary s g.val).ctl.core = false) :=
  ⟨0, { swapRun {} with ctl := powered .handover }, by decide +kernel⟩

theorem witness_TimingGroups_11 :
    ∃ (g : Fin 8) (s : State),
    (s.ctl.core = true) ∧ (tgMakes s g.val = true) ∧ ((s.tg g.val).dueAt ≤ s.island) ∧ (s.rdn.swap.job = none) ∧ (s.rdn.swap.asPart = false) ∧ (s.ctl.mode ≠ .handover) :=
  ⟨7, { run with tgs := [(7, { running := true, khz := 25000, hTotal := 720, vTotal := 490, vFront := 8 })], heads := [(15, { head0 with tg := 7, start := [] })] }, by decide +kernel⟩

theorem witness_LedgerRecord_1 :
    ∃ (ecc : Ecc) (s : State),
    (s.records = []) :=
  ⟨.bad, run, by decide +kernel⟩

theorem witness_LedgerRecord_2 :
    ∃ (r : TileRec) (rest : List TileRec) (s : State),
    (s.records = r :: rest) ∧ let f := s.surf r.surface.toNat; ((f.reg = false ∨ f.tiles ≤ r.tile.toNat)) :=
  ⟨⟨4095, 2, 5, 1000, 1, false, 7⟩, [], ldg {} (⟨4095, 2, 5, 1000, 1, false, 7⟩), by decide +kernel⟩

theorem witness_LedgerRecord_3 :
    ∃ (r : TileRec) (rest : List TileRec) (s : State),
    (s.records = r :: rest) ∧ let f := s.surf r.surface.toNat; (f.reg = true) ∧ (r.tile.toNat < f.tiles) :=
  ⟨⟨4095, 1, 5, 1000, 1, false, 7⟩, [], ldg { never := true } (⟨4095, 1, 5, 1000, 1, false, 7⟩), by decide +kernel⟩

theorem witness_LiveMeansFresh_1 :
    ∃ (e : LEntry) (bad frozen : Bool) (liveMax agedMax : Nat) (now : BitVec 32) (margin : Nat) (m : Nat),
    (margin ≤ m) ∧ (tileVerdict e bad frozen liveMax agedMax now m = .live) :=
  ⟨{ content := 1000, basis := 1 }, false, false, 1000, 1000, 1500, 100, 200, by decide +kernel⟩

theorem witness_Sweeper_1 :
    ∃ (s : State) (i : Nat),
    ((s.island < s.sweepAt + s.sweepMs * 1000000 ∨ ∃ r ∈ runs s, ∃ k, s.sweepNext ≤ k ∧ k < 262144 ∧ r.2.1 ≤ k ∧ k < r.2.1 + r.2.2)) :=
  ⟨run, 0, Or.inl (by decide +kernel)⟩

theorem witness_Sweeper_2 :
    ∃ (s : State) (i : Nat),
    (s.sweepAt + s.sweepMs * 1000000 ≤ s.island) ∧ ((∀ r ∈ runs s, ∀ k, s.sweepNext ≤ k → k < 262144 → ¬ (r.2.1 ≤ k ∧ k < r.2.1 + r.2.2))) :=
  ⟨{ run with island := 50000000000 }, 0, by decide +kernel⟩

theorem witness_Sweeper_3 :
    ∃ (i : Fin 262144) (ecc : Ecc) (s : State),
    ((s.ctl.core = false ∨ s.bit LDG_STATUS 0 = false ∨ sweepTurn (sweepPass s) i.val = false)) :=
  ⟨102, .ok, withRegs [(LDG_STATUS, 1)] { run with surfs := [(4095, tracked)], ledger := [(101, { never := true })] }, by decide +kernel⟩

theorem witness_Sweeper_4 :
    ∃ (i : Fin 262144) (s : State),
    (s.ctl.core = true) ∧ (s.bit LDG_STATUS 0 = true) ∧ (sweepTurn (sweepPass s) i.val = true) ∧ ((∀ r ∈ runs s, ¬ (r.2.1 ≤ i.val ∧ i.val < r.2.1 + r.2.2))) :=
  ⟨102, { withRegs [(LDG_STATUS, 1)] run with island := 100000000 }, by decide +kernel⟩

theorem witness_Sweeper_5 :
    ∃ (i : Fin 262144) (s : State),
    (s.ctl.core = true) ∧ (s.bit LDG_STATUS 0 = true) ∧ (sweepTurn (sweepPass s) i.val = true) ∧ let e := s.led i.val; let old := beyond30 s.tick e.content && !e.expLong; let wold := e.watch && beyond30 s.tick e.change && !e.watchExp; ((∃ r ∈ runs s, r.2.1 ≤ i.val ∧ i.val < r.2.1 + r.2.2)) ∧ ((e.never = true ∨ (old || wold) = false)) :=
  ⟨101, { withRegs [(LDG_STATUS, 1)] ({ run with surfs := [(4095, tracked)], ledger := [(101, { never := true })] }) with island := 100000000, sweepNext := 101 }, by decide +kernel⟩

theorem witness_Sweeper_6 :
    ∃ (i : Fin 262144) (s : State),
    (s.ctl.core = true) ∧ (s.bit LDG_STATUS 0 = true) ∧ (sweepTurn (sweepPass s) i.val = true) ∧ let e := s.led i.val; let old := beyond30 s.tick e.content && !e.expLong; let wold := e.watch && beyond30 s.tick e.change && !e.watchExp; ((∃ r ∈ runs s, r.2.1 ≤ i.val ∧ i.val < r.2.1 + r.2.2)) ∧ (e.never = false) ∧ ((old || wold) = true) :=
  ⟨101, { withRegs [(LDG_STATUS, 1)] (at_ 2000000000000 ({ run with surfs := [(4095, tracked)], ledger := [(101, { crc := 1 })] })) with island := 100000000, sweepNext := 101 }, by decide +kernel⟩

theorem witness_Sweeper_7 :
    ∃ (i : Fin 262144) (s : State),
    (s.ctl.core = true) ∧ (s.bit LDG_STATUS 0 = true) ∧ (sweepTurn (sweepPass s) i.val = true) ∧ ((∃ r ∈ runs s, r.2.1 ≤ i.val ∧ i.val < r.2.1 + r.2.2)) :=
  ⟨101, { withRegs [(LDG_STATUS, 1)] ({ run with surfs := [(4095, tracked)], ledger := [(101, { never := true })] }) with island := 100000000, sweepNext := 101 }, by decide +kernel⟩

theorem witness_ProfilesAndVerdicts_1 :
    ∃ (a : Access) (v : Word) (s : State),
    (Reaches s a .w VRD_COMMIT) ∧ (profAllowed a (bitsOf v.toNat 0 6) = false) :=
  ⟨host 0, 0x8000003F, withRegs [(HIF_HP_PRIM 0, 0)] run, by decide +kernel⟩

theorem witness_ProfilesAndVerdicts_2 :
    ∃ (a : Access) (v : Word) (s : State),
    (Reaches s a .w VRD_COMMIT) ∧ (profAllowed a (bitsOf v.toNat 0 6) = true) ∧ (bitOf v.toNat 31 = false) :=
  ⟨desk, 0x3F, run, by decide +kernel⟩

theorem witness_ProfilesAndVerdicts_3 :
    ∃ (a : Access) (v : Word) (s : State),
    (Reaches s a .w VRD_COMMIT) ∧ (profAllowed a (bitsOf v.toNat 0 6) = true) ∧ (bitOf v.toNat 31 = true) :=
  ⟨desk, 0x8000003F, run, by decide +kernel⟩

theorem witness_ProfilesAndVerdicts_4 :
    ∃ (s : State) (c : Nat) (cs : List Nat) (ws : List Word) (wss : List (List Word)),
    (s.commits = c :: cs) ∧ (s.snaps = ws :: wss) ∧ let res := commitResult ws (c / 64 == 1); (res = 0) :=
  ⟨{ run with commits := [63], snaps := [[0x3E8, 0x3E8, 0x005B005B, 0x005B005B, 0x0000005B]] }, 63, [], [0x3E8, 0x3E8, 0x005B005B, 0x005B005B, 0x0000005B], [], by decide +kernel⟩

theorem witness_ProfilesAndVerdicts_5 :
    ∃ (s : State) (c : Nat) (cs : List Nat) (ws : List Word) (wss : List (List Word)),
    (s.commits = c :: cs) ∧ (s.snaps = ws :: wss) ∧ let res := commitResult ws (c / 64 == 1); (res ≠ 0) :=
  ⟨{ run with commits := [63], snaps := [[0x3E8, 0x3E8, 0, 0x005B005B, 0x0000005B]] }, 63, [], [0x3E8, 0x3E8, 0, 0x005B005B, 0x0000005B], [], by decide +kernel⟩

theorem witness_ProfilesAndVerdicts_6 :
    ∃ (n : Fin 16) (b : Fin 68) (bad : List Nat) (fixed : Nat) (s : State) (x : Owed),
    (s.ctl.core = true) ∧ ((s.head n.val).owed.find? (fun x => x.band == b.val) = some x) :=
  ⟨15, 0, [], 0, scr { tiny with owed := [⟨0, 5, 0, [], []⟩] }, ⟨0, 5, 0, [], []⟩, by decide +kernel⟩

theorem witness_ProfilesAndVerdicts_7 :
    ∃ (n : Fin 16) (b : Fin 68) (bad : List Nat) (fixed : Nat) (s : State),
    (s.ctl.core = true) ∧ ((s.head n.val).owed.find? (fun x => x.band == b.val) = none) ∧ ((bandWaits s n.val b.val = false ∨ bandOpen s n.val b.val < 0)) :=
  ⟨15, 0, [], 0, scr tiny, by decide +kernel⟩

theorem witness_ProfilesAndVerdicts_8 :
    ∃ (n : Fin 16) (b : Fin 68) (bad : List Nat) (fixed : Nat) (s : State),
    (s.ctl.core = true) ∧ ((s.head n.val).owed.find? (fun x => x.band == b.val) = none) ∧ (bandWaits s n.val b.val = true) ∧ (0 ≤ bandOpen s n.val b.val) :=
  ⟨15, 0, [], 0, scr { tiny with evals := [] }, by decide +kernel⟩

theorem witness_ProfilesAndVerdicts_9 :
    ∃ (n : Fin 16) (b : Fin 68) (s : State),
    (s.ctl.core = true) ∧ (bandWaits s n.val b.val = true) ∧ (bandLate s n.val b.val = false) ∧ (0 ≤ bandPast s n.val b.val) :=
  ⟨15, 0, scr { tiny with evals := [] }, by decide +kernel⟩

theorem witness_ProfilesAndVerdicts_10 :
    ∃ (n : Fin 16) (b : Fin 68) (s : State),
    (s.ctl.core = true) ∧ ((bandWaits s n.val b.val = false ∨ bandLate s n.val b.val = true ∨ bandPast s n.val b.val < 0)) :=
  ⟨15, 0, scr { tiny with owed := [⟨0, 5, 0, [], []⟩] }, by decide +kernel⟩

theorem witness_ProfilesAndVerdicts_11 :
    ∃ (n : Fin 16) (b : Fin 68) (s : State) (e : Eval),
    (s.ctl.core = true) ∧ (e ∈ staleBand s n.val b.val) :=
  ⟨15, 0, scr { tiny with evals := [] }, (staleBand (scr { tiny with evals := [] }) 15 0).getD 0 ⟨0, 0, .live, none, 0, 0⟩, by decide +kernel⟩

theorem witness_ProfilesAndVerdicts_12 :
    ∃ (n : Fin 16) (s : State),
    (s.ctl.core = true) ∧ (bandStuck s n.val = true) :=
  ⟨15, at_ 2000000 (scr { tiny with evals := [] }), by decide +kernel⟩

theorem witness_ProfilesAndVerdicts_13 :
    ∃ (n : Fin 16) (s : State),
    (s.ctl.core = true) ∧ (bandStuck s n.val = false) :=
  ⟨15, scr { tiny with evals := [] }, by decide +kernel⟩

theorem witness_ModeRequests_1 :
    ∃ (a : Access) (v : Word) (s : State),
    (Reaches s a .w AO_MODE_REQ) ∧ (bitOf v.toNat 31 = true) :=
  ⟨auth, 0x80000002, run, by decide +kernel⟩

theorem witness_ModeRequests_2 :
    ∃ (a : Access) (v : Word) (s : State),
    (Reaches s a .w AO_MODE_REQ) ∧ (bitOf v.toNat 31 = false) :=
  ⟨auth, 0x7FFFFFFF, run, by decide +kernel⟩

theorem witness_ModeRequests_3 :
    ∃ (code : BitVec 8) (pec : Bool) (s : State),
    (mgtOn s = false) :=
  ⟨2, true, { State.reset with ctl := { mode := .off, porst := false } }, by decide +kernel⟩

theorem witness_ModeRequests_4 :
    ∃ (code : BitVec 8) (pec : Bool) (s : State),
    (mgtOn s = true) ∧ (s.bit MGT_CFG 0 = true) ∧ (pec = false) :=
  ⟨2, false, withRegs [(MGT_CFG, 1)] run, by decide +kernel⟩

theorem witness_ModeRequests_5 :
    ∃ (code : BitVec 8) (pec : Bool) (s : State),
    (mgtOn s = true) ∧ ((s.bit MGT_CFG 0 = false ∨ pec = true)) ∧ (Reaches s mgtAccess .w AO_MODE_REQ) :=
  ⟨255, true, withRegs [(MGT_CFG, 1)] run, by decide +kernel⟩

theorem witness_ModeRequests_6 :
    ∃ (s : State) (code : Nat),
    (code < 8) ∧ (s.ctl.target.isSome = true) :=
  ⟨prime, 7, by decide +kernel⟩

theorem witness_ModeRequests_7 :
    ∃ (s : State) (code : Nat),
    (code < 8) ∧ (s.ctl.target = none) ∧ (requestable s.ctl.mode (modeOf code) = false) :=
  ⟨run, 0, by decide +kernel⟩

theorem witness_ModeRequests_8 :
    ∃ (s : State) (code : Nat),
    (code < 8) ∧ (s.ctl.target = none) ∧ (requestable s.ctl.mode (modeOf code) = true) ∧ (modeOf code = .keep) :=
  ⟨run, 1, by decide +kernel⟩

theorem witness_ModeRequests_9 :
    ∃ (s : State) (code : Nat),
    (code < 8) ∧ (s.ctl.target = none) ∧ (requestable s.ctl.mode (modeOf code) = true) ∧ (s.ctl.mode = .keep) :=
  ⟨{ State.reset with ctl := { mode := .keep } }, 2, by decide +kernel⟩

theorem witness_ModeRequests_10 :
    ∃ (s : State) (code : Nat),
    (code < 8) ∧ (s.ctl.target = none) ∧ (requestable s.ctl.mode (modeOf code) = true) ∧ (s.ctl.mode ≠ .keep) ∧ (s.ctl.mode ≠ .prime) ∧ (modeOf code ≠ .keep) :=
  ⟨run, 7, by decide +kernel⟩

theorem witness_ModeRequests_11 :
    ∃ (s : State) (code : Nat),
    (code < 8) ∧ (s.ctl.target = none) ∧ (requestable s.ctl.mode (modeOf code) = true) ∧ (s.ctl.mode = .prime) ∧ (modeOf code ≠ .keep) ∧ (s.ctl.bootBad = true) :=
  ⟨{ base .prime with ctl := { powered .prime with primeOk := false, bootBad := true } }, 4, by decide +kernel⟩

theorem witness_ModeRequests_12 :
    ∃ (s : State) (code : Nat),
    (code < 8) ∧ (s.ctl.target = none) ∧ (requestable s.ctl.mode (modeOf code) = true) ∧ (s.ctl.mode = .prime) ∧ (modeOf code ≠ .keep) ∧ (s.ctl.bootBad = false) ∧ (s.ctl.primeOk = false) :=
  ⟨{ base .prime with ctl := { powered .prime with primeOk := false } }, 4, by decide +kernel⟩

theorem witness_ModeRequests_13 :
    ∃ (s : State) (code : Nat),
    (code < 8) ∧ (s.ctl.target = none) ∧ (requestable s.ctl.mode (modeOf code) = true) ∧ (s.ctl.mode = .prime) ∧ (modeOf code ≠ .keep) ∧ (s.ctl.bootBad = false) ∧ (s.ctl.primeOk = true) :=
  ⟨base .prime, 7, by decide +kernel⟩

theorem witness_PowerAndAlwaysOn_1 :
    ∃ (x : BitVec 4) (s : State),
    (s.ctl.porst = true) :=
  ⟨3, State.reset, by decide +kernel⟩

theorem witness_PowerAndAlwaysOn_2 :
    ∃ (x : BitVec 4) (s : State),
    (s.ctl.porst = false) :=
  ⟨3, { State.reset with ctl := { mode := .off, porst := false } }, by decide +kernel⟩

theorem witness_PowerAndAlwaysOn_3 :
    ∃ (s : State),
    ((s.ctl.mode = .off ∨ s.ctl.coreEn = false ∨ s.ctl.corePg = true)) :=
  ⟨{ State.reset with ctl := { mode := .off, porst := false } }, by decide +kernel⟩

theorem witness_PowerAndAlwaysOn_4 :
    ∃ (s : State),
    ((s.ctl.mode = .prime ∨ s.ctl.mode = .keep ∧ s.ctl.target = some (2, false))) ∧ (s.ctl.coreEn = true) ∧ (s.ctl.corePg = false) ∧ (s.ctl.core = false) :=
  ⟨{ State.reset with ctl := { mode := .prime, coreEn := true }, hold := { sec := 5, ticks := 3, isSet := true } }, by decide +kernel⟩

theorem witness_PowerAndAlwaysOn_5 :
    ∃ (s : State),
    (s.ctl.corePg = false) :=
  ⟨{ State.reset with ctl := { mode := .off, porst := false } }, by decide +kernel⟩

theorem witness_PowerAndAlwaysOn_6 :
    ∃ (s : State),
    (s.ctl.corePg = true) ∧ ((s.ctl.mode = .off ∨ s.ctl.coreEn = false)) :=
  ⟨{ State.reset with ctl := { mode := .keep, corePg := true } }, by decide +kernel⟩

theorem witness_PowerAndAlwaysOn_7 :
    ∃ (s : State),
    (s.ctl.corePg = true) ∧ (s.ctl.mode ≠ .off) ∧ (s.ctl.coreEn = true) :=
  ⟨run, by decide +kernel⟩

theorem witness_PowerAndAlwaysOn_8 :
    ∃ (ns : Nat) (s : State),
    ((ns < 1000 ∨ s.ctl.mode = .off)) :=
  ⟨999, run, by decide +kernel⟩

theorem witness_PowerAndAlwaysOn_9 :
    ∃ (ns : Nat) (s : State),
    (1000 ≤ ns) ∧ (s.ctl.mode ≠ .off) ∧ ((s.bit AO_WAKE 0 = false ∨ s.ctl.mode ≠ .keep ∨ s.ctl.target ≠ none)) :=
  ⟨1000, run, by decide +kernel⟩

theorem witness_PowerAndAlwaysOn_10 :
    ∃ (ns : Nat) (s : State),
    (1000 ≤ ns) ∧ (s.bit AO_WAKE 0 = true) ∧ (s.ctl.mode = .keep) ∧ (s.ctl.target = none) :=
  ⟨1000, withRegs [(AO_WAKE, 1)] { State.reset with ctl := { mode := .keep } }, by decide +kernel⟩

theorem witness_PowerAndAlwaysOn_11 :
    ∃ (a : Access) (v : Word) (s : State),
    (Reaches s a .w AO_HOLD_SUB) :=
  ⟨auth, 0xFFFFFFFF, { run with hold := { newLo := some 5, newHi := some 0xFFFF } }, by decide +kernel⟩

theorem witness_PowerAndAlwaysOn_12 :
    ∃ (a : Access) (v : Word) (s : State),
    (Reaches s a .w AO_TRAIN) ∧ (bitOf v.toNat 31 = false) :=
  ⟨auth, 0x7FFFFFFF, withRegs [(AO_TRAIN, 0x3F)] run, by decide +kernel⟩

theorem witness_PowerAndAlwaysOn_13 :
    ∃ (a : Access) (v : Word) (s : State),
    (Reaches s a .w AO_TRAIN) ∧ (bitOf v.toNat 31 = true) :=
  ⟨auth, 0xFFFFFFFF, { run with hold := { newLo := some 5, newHi := some 0xFFFF } }, by decide +kernel⟩

theorem witness_PrimeSequence_1 :
    ∃ (b : Boot) (s : State),
    ((s.ctl.core = false ∨ s.ctl.mode ≠ .prime ∨ s.ctl.target = none)) :=
  ⟨boot, run, by decide +kernel⟩

theorem witness_PrimeSequence_2 :
    ∃ (b : Boot) (s : State),
    (s.ctl.core = true) ∧ (s.ctl.mode = .prime) ∧ (s.ctl.target.isSome = true) ∧ (bootImage b s = none) :=
  ⟨{ boot with imageA := ⟨false, 0x80, 1⟩ }, prime, by decide +kernel⟩

theorem witness_PrimeSequence_3 :
    ∃ (b : Boot) (s : State),
    (s.ctl.core = true) ∧ (s.ctl.mode = .prime) ∧ (s.ctl.target.isSome = true) ∧ ((bootImage b s).isSome = true) ∧ (s.ctl.bootBad = false) :=
  ⟨boot, prime, by decide +kernel⟩

theorem witness_PrimeSequence_4 :
    ∃ (lim : BitVec 8) (s : State),
    (s.ctl.mode = .prime) ∧ (s.ctl.target = none) :=
  ⟨255, base .prime, by decide +kernel⟩

theorem witness_PrimeSequence_5 :
    ∃ (lim : BitVec 8) (s : State) (t : Nat × Bool),
    (s.ctl.mode = .prime) ∧ (s.ctl.target = some t) :=
  ⟨255, prime, (2, false), by decide +kernel⟩

theorem witness_ManagementPort_1 :
    ∃ (p : BitVec 40) (pec : Bool) (ws : List (BitVec 32)) (s : State),
    (mgtOn s = true) ∧ ((s.bit MGT_CFG 0 = false ∨ pec = true)) ∧ (1 ≤ ws.length) ∧ (ws.length ≤ 8) :=
  ⟨0, true, List.replicate 8 1, withRegs [(MGT_CFG, 1)] run, by decide +kernel⟩

theorem witness_ManagementPort_2 :
    ∃ (p : BitVec 40) (pec : Bool) (ws : List (BitVec 32)) (s : State),
    (mgtOn s = true) ∧ (s.bit MGT_CFG 0 = true) ∧ (pec = false) ∧ (1 ≤ ws.length) ∧ (ws.length ≤ 8) :=
  ⟨0, false, [1], withRegs [(MGT_CFG, 1)] run, by decide +kernel⟩

theorem witness_ManagementPort_3 :
    ∃ (p : BitVec 40) (pec : Bool) (ws : List (BitVec 32)) (s : State),
    (mgtOn s = true) ∧ ((ws.length = 0 ∨ 8 < ws.length)) :=
  ⟨0, true, List.replicate 9 0, run, by decide +kernel⟩

theorem witness_ManagementPort_4 :
    ∃ (s : State) (cmd : Byte) (count bs : Bytes),
    (mgtOn s = true) ∧ (s.bit MGT_CFG 0 = false) :=
  ⟨run, 0x10, [4], [1, 2, 3, 4], by decide +kernel⟩

theorem witness_ManagementPort_5 :
    ∃ (s : State) (cmd : Byte) (count bs : Bytes),
    (mgtOn s = true) ∧ (s.bit MGT_CFG 0 = true) :=
  ⟨withRegs [(MGT_CFG, 1)] run, 0x10, [4], [1, 2, 3, 4], by decide +kernel⟩

theorem witness_ManagementPort_6 :
    ∃ (p : BitVec 40) (pec : Bool) (ws : List (BitVec 32)) (s : State),
    (mgtOn s = false) :=
  ⟨0, true, [1], { State.reset with ctl := { mode := .off, porst := false } }, by decide +kernel⟩

theorem witness_ManagementPort_7 :
    ∃ (a : Access) (v : Word) (s : State),
    (Reaches s a .w (MGT_MBOX_IN 7)) ∧ (a.level = .p3) :=
  ⟨auth, 5, run, by decide +kernel⟩

theorem witness_ManagementPort_8 :
    ∃ (a : Access) (v : Word) (s : State),
    (Reaches s a .w (MGT_MBOX_IN 7)) ∧ (a.level ≠ .p3) :=
  ⟨desk, 5, run, by decide +kernel⟩

theorem witness_ManagementPort_9 :
    ∃ (a : Access) (v : Word) (s : State),
    (Reaches s a .w (MGT_MBOX_OUT 7)) :=
  ⟨auth, 5, run, by decide +kernel⟩

theorem witness_DebugAndFuses_1 :
    ∃ (a : Access) (v : Word) (ok : Bool) (s : State),
    (Reaches s a .w DBG_CTRL) ∧ (bitOf v.toNat 0 = false) :=
  ⟨auth, 0xFFFFFFFE, true, run, by decide +kernel⟩

theorem witness_DebugAndFuses_2 :
    ∃ (a : Access) (v : Word) (ok : Bool) (s : State),
    (Reaches s a .w DBG_CTRL) ∧ (bitOf v.toNat 0 = true) ∧ (ok = true) ∧ (goodKeys s ≠ 0) :=
  ⟨auth, 1, true, { base .prime with fuses := { keys := 1 } }, by decide +kernel⟩

theorem witness_DebugAndFuses_3 :
    ∃ (a : Access) (v : Word) (ok : Bool) (s : State),
    (Reaches s a .w DBG_CTRL) ∧ (bitOf v.toNat 0 = true) ∧ ((ok = false ∨ goodKeys s = 0)) :=
  ⟨auth, 1, true, run, by decide +kernel⟩

theorem witness_DebugAndFuses_4 :
    ∃ (a : Access) (v : Word) (ok : Bool) (s : State),
    (Reaches s a .w DBG_FUSE_CTRL) ∧ (bitOf v.toNat 0 = false) :=
  ⟨auth, 0xFFFFFFFE, true, run, by decide +kernel⟩

theorem witness_DebugAndFuses_5 :
    ∃ (a : Access) (v : Word) (ok : Bool) (s : State),
    (Reaches s a .w DBG_FUSE_CTRL) ∧ (bitOf v.toNat 0 = true) :=
  ⟨auth, 1, true, run, by decide +kernel⟩

theorem witness_DebugAndFuses_6 :
    ∃ (a : Access) (v : Word) (ok : Bool) (s : State),
    (Reaches s a .w DBG_FUSE_CTRL) ∧ (s.ctl.mode ≠ .prime) :=
  ⟨auth, 1, true, run, by decide +kernel⟩

theorem witness_DebugAndFuses_7 :
    ∃ (a : Access) (v : Word) (ok : Bool) (s : State),
    (Reaches s a .w DBG_FUSE_CTRL) ∧ (ok = false) :=
  ⟨auth, 1, false, run, by decide +kernel⟩

theorem witness_DebugAndFuses_8 :
    ∃ (r : BitVec 64) (s : State),
    ((s.fuseOps = [] ∨ s.ctl.core = false)) :=
  ⟨5, run, by decide +kernel⟩

theorem witness_DebugAndFuses_9 :
    ∃ (r : BitVec 64) (s : State) (op : Nat) (slot : Nat) (sv : Nat) (hash : BitVec 384) (rest : List (Nat × Nat × Nat × BitVec 384)),
    (s.ctl.core = true) ∧ (s.fuseOps = (op, slot, sv, hash) :: rest) :=
  ⟨0, { base .prime with fuseOps := [(1, 0, 3, 0)] }, 1, 0, 3, 0, [], by decide +kernel⟩

theorem witness_PowerArbiter_1 :
    ∃ (s : State),
    ((s.ctl.core = false ∨ s.pwr.halted = true)) :=
  ⟨{ run with pwr := { halted := true } }, by decide +kernel⟩

theorem witness_PowerArbiter_2 :
    ∃ (s : State),
    (s.ctl.core = true) ∧ (s.pwr.halted = false) :=
  ⟨{ run with pwr := { items := [item 15 true true, item 271 false false, item 543 false false] } }, by decide +kernel⟩

theorem witness_PowerArbiter_3 :
    ∃ (cls : Fin 6) (s : State),
    let late := fun (i : PwrItem) => i.cls == cls.val && !i.granted && !i.deferred && decide (i.at_ + 1000 * s.fld PWR_DEFER_THR 0 16 < s.island); (s.pwr.items.find? late = none) :=
  ⟨5, at_ 1000000000 { run with pwr := { items := [item 1287 false false] }, quiets := [⟨evPowerDeferred, 5, 0, 0⟩] }, by decide +kernel⟩

theorem witness_PowerArbiter_4 :
    ∃ (cls : Fin 6) (s : State) (i : PwrItem),
    let late := fun (i : PwrItem) => i.cls == cls.val && !i.granted && !i.deferred && decide (i.at_ + 1000 * s.fld PWR_DEFER_THR 0 16 < s.island); (s.pwr.items.find? late = some i) :=
  ⟨5, { run with pwr := { items := [item 1287 false false] }, island := 1000000000 }, item 1287 false false, by decide +kernel⟩

theorem witness_PowerArbiter_5 :
    ∃ (id : Nat) (s : State),
    let gone := fun (i : PwrItem) => i.id == id && i.ended && decide (i.due ≤ s.island); (s.pwr.items.find? gone = none) :=
  ⟨15, { run with pwr := { items := [{ item 15 true true with due := 1 }] } }, by decide +kernel⟩

theorem witness_PowerArbiter_6 :
    ∃ (id : Nat) (s : State) (i : PwrItem),
    let gone := fun (i : PwrItem) => i.id == id && i.ended && decide (i.due ≤ s.island); (s.pwr.items.find? gone = some i) :=
  ⟨15, { run with pwr := { items := [item 15 true true, item 271 false false, item 543 false false] } }, item 15 true true, by decide +kernel⟩

theorem witness_PowerArbiter_7 :
    ∃ (p : Fin 16) (s : State),
    let idle := (p.val = 1 ∨ p.val = 2 ∨ p.val = 3) ∧ s.ctl.core = true ∧ s.bit (CLK_PLL_CTRL p.val) 0 = false ∧ pllBusy s p.val = false ∧ tget (fun _ => 0) s.pwr.used p.val + 1000000 * s.fld (CLK_PLL_CTRL p.val) 8 8 ≤ s.island; (idle) :=
  ⟨1, withRegs [(CLK_PLL_CTRL 1, 0)] run, by decide +kernel⟩

theorem witness_PowerArbiter_8 :
    ∃ (p : Fin 16) (s : State),
    let idle := (p.val = 1 ∨ p.val = 2 ∨ p.val = 3) ∧ s.ctl.core = true ∧ s.bit (CLK_PLL_CTRL p.val) 0 = false ∧ pllBusy s p.val = false ∧ tget (fun _ => 0) s.pwr.used p.val + 1000000 * s.fld (CLK_PLL_CTRL p.val) 8 8 ≤ s.island; (¬ idle) :=
  ⟨0, run, by decide +kernel⟩

theorem witness_ArbiterBudget_1 :
    ∃ (s t : State),
    (exec .arbiterTick s = .next t) ∧ (pwrR s + pwrG s ≤ pwrB s) :=
  ⟨{ run with pwr := { items := [item 15 true true, item 271 false false, item 543 false false] } }, doArbiterTick ({ run with pwr := { items := [item 15 true true, item 271 false false, item 543 false false] } }), rfl, by decide +kernel⟩

theorem witness_Thermal_1 :
    ∃ (tj : BitVec 11) (s : State),
    (s.ctl.mode = .off) :=
  ⟨560, { State.reset with ctl := { mode := .off, porst := false } }, by decide +kernel⟩

theorem witness_Thermal_2 :
    ∃ (tj : BitVec 11) (s : State),
    (s.ctl.mode ≠ .off) ∧ (s.ctl.core = false) ∧ (560 ≤ tj.toInt) ∧ (s.pwr.trip = false) :=
  ⟨560, State.reset, by decide +kernel⟩

theorem witness_Thermal_3 :
    ∃ (tj : BitVec 11) (s : State),
    (s.ctl.mode ≠ .off) ∧ (s.ctl.core = false) ∧ ((tj.toInt < 560 ∨ s.pwr.trip = true)) :=
  ⟨559, State.reset, by decide +kernel⟩

theorem witness_Thermal_4 :
    ∃ (tj : BitVec 11) (s : State),
    (s.ctl.mode ≠ .off) ∧ (s.ctl.core = true) :=
  ⟨0, run, by decide +kernel⟩

theorem witness_Thermal_5 :
    ∃ (s : State),
    ((s.ctl.core = false ∨ ∀ x ∈ s.pwr.hotNs, s.island < x + 1000000)) :=
  ⟨run, by decide +kernel⟩

theorem witness_Thermal_6 :
    ∃ (s : State) (x : Nat) (p : Nat),
    (s.ctl.core = true) ∧ (s.pwr.hotNs = some x) ∧ (x + 1000000 ≤ s.island) ∧ (marked s evThermalShutdown = true) ∧ (s.ctl.mode.yields = true) ∧ (s.ctl.latent = none) ∧ (s.ctl.target = none) ∧ (p ∈ [1, 2, 3, 8, 9, 10, 11, 12, 13, 14, 15]) :=
  ⟨{ run with pwr := { hotNs := some 0 }, island := 1000000 }, 0, 15, by decide +kernel⟩

theorem witness_HostSide_1 :
    ∃ (a : Access) (p : Fin 16) (v : Word) (s : State),
    (Reaches s a .w (PRT_SW_RUN p.val)) ∧ (bitOf v.toNat 1 = false) ∧ ((s.part p.val).state = .bound) ∧ (bitOf v.toNat 0 = true) ∧ (startCause s p.val = 0) :=
  ⟨host 15, 15, 1, withRegs [(PRT_SW_DB_LO 15, 0x1000), (PRT_SW_CP_CFG 15 7, 0x10F), (PRT_SW_CR_CFG 15 7, 0x10F)] half, by decide +kernel⟩

theorem witness_HostSide_2 :
    ∃ (a : Access) (p : Fin 16) (v : Word) (s : State),
    (Reaches s a .w (PRT_SW_RUN p.val)) ∧ (bitOf v.toNat 1 = false) ∧ ((s.part p.val).state = .bound) ∧ (bitOf v.toNat 0 = true) ∧ (startCause s p.val ≠ 0) :=
  ⟨host 15, 15, 1, half, by decide +kernel⟩

theorem witness_HostSide_3 :
    ∃ (a : Access) (p : Fin 16) (v : Word) (s : State),
    (Reaches s a .w (PRT_SW_RUN p.val)) ∧ (bitOf v.toNat 1 = false) ∧ (((s.part p.val).state = .free ∨ (s.part p.val).state = .bound ∧ bitOf v.toNat 0 = false)) :=
  ⟨host 15, 15, 0xFFFFFFFC, half, by decide +kernel⟩

theorem witness_HostSide_4 :
    ∃ (a : Access) (p : Fin 16) (v : Word) (s : State),
    (Reaches s a .w (PRT_SW_RUN p.val)) ∧ (bitOf v.toNat 1 = false) ∧ ((s.part p.val).state ≠ .free) ∧ ((s.part p.val).state ≠ .bound) :=
  ⟨host 0, 0, 1, run, by decide +kernel⟩

theorem witness_HostSide_5 :
    ∃ (a : Access) (p : Fin 16) (v : Word) (s : State),
    (Reaches s a .w (PRT_SW_RUN p.val)) ∧ (bitOf v.toNat 1 = true) ∧ let x := s.part p.val; ((x.state = .active ∨ x.state = .faulted)) :=
  ⟨host 0, 0, 2, run, by decide +kernel⟩

theorem witness_HostSide_6 :
    ∃ (a : Access) (p : Fin 16) (v : Word) (s : State),
    (Reaches s a .w (PRT_SW_RUN p.val)) ∧ (bitOf v.toNat 1 = true) ∧ let x := s.part p.val; (x.state ≠ .active) ∧ (x.state ≠ .faulted) :=
  ⟨host 15, 15, 3, half, by decide +kernel⟩

theorem witness_HostSide_7 :
    ∃ (a : Access) (v : Word) (s : State),
    (Reaches s a .w PRT_MGR) ∧ (Level.upper a.level = false) :=
  ⟨host 0, 5, withRegs [(HIF_HP_PRIM 0, 0)] run, by decide +kernel⟩

theorem witness_HostSide_8 :
    ∃ (a : Access) (v : Word) (s : State),
    (Reaches s a .w PRT_MGR) ∧ let p := bitsOf v.toNat 0 5; (Level.upper a.level = true) ∧ ((p = 31 ∨ p < 16 ∧ (s.part p).state ≠ .free)) :=
  ⟨desk, 31, run, by decide +kernel⟩

theorem witness_HostSide_9 :
    ∃ (a : Access) (v : Word) (s : State),
    (Reaches s a .w PRT_MGR) ∧ let p := bitsOf v.toNat 0 5; (Level.upper a.level = true) ∧ (16 ≤ p) ∧ (p ≠ 31) :=
  ⟨desk, 16, run, by decide +kernel⟩

theorem witness_HostSide_10 :
    ∃ (a : Access) (v : Word) (s : State),
    (Reaches s a .w PRT_MGR) ∧ let p := bitsOf v.toNat 0 5; (Level.upper a.level = true) ∧ (p < 16) ∧ ((s.part p).state = .free) ∧ (bitsOf v.toNat 8 3 ≤ 4) :=
  ⟨desk, 0x40E, run, by decide +kernel⟩

theorem witness_HostSide_11 :
    ∃ (a : Access) (v : Word) (s : State),
    (Reaches s a .w PRT_MGR) ∧ let p := bitsOf v.toNat 0 5; (Level.upper a.level = true) ∧ (p < 16) ∧ ((s.part p).state = .free) ∧ (4 < bitsOf v.toNat 8 3) :=
  ⟨desk, 0x50E, run, by decide +kernel⟩

theorem witness_HostSide_12 :
    ∃ (p : Fin 4) (speed width : BitVec 3) (s : State),
    let trains := s.ctl.core = true ∧ 1 ≤ speed.toNat ∧ speed.toNat ≤ 5 ∧ (width = 1 ∨ width = 2 ∨ width = 4) ∧ ∀ l, l < width.toNat → laneDeaf s p.val l = false; (trains) :=
  ⟨3, 5, 4, run, by decide +kernel⟩

theorem witness_HostSide_13 :
    ∃ (p : Fin 4) (speed width : BitVec 3) (s : State),
    let trains := s.ctl.core = true ∧ 1 ≤ speed.toNat ∧ speed.toNat ≤ 5 ∧ (width = 1 ∨ width = 2 ∨ width = 4) ∧ ∀ l, l < width.toNat → laneDeaf s p.val l = false; (¬ trains) :=
  ⟨3, 6, 4, run, by decide +kernel⟩

theorem witness_HostSide_14 :
    ∃ (p : Fin 4) (s : State),
    (s.ctl.core = true) ∧ (linkUp s p.val = true) :=
  ⟨0, run, by decide +kernel⟩

theorem witness_HostSide_15 :
    ∃ (p : Fin 4) (s : State),
    ((s.ctl.core = false ∨ linkUp s p.val = false)) :=
  ⟨3, run, by decide +kernel⟩

theorem witness_Completions_1 :
    ∃ (c : Cpl) (rest : List Cpl) (s : State),
    (s.ctl.core = true) ∧ (takeFirst (cplMoves s) s.cpls = some (c, rest)) ∧ ((∀ j ∈ s.jobs, j.opcode ≠ 0x0A01)) ∧ let x := s.part c.part; (x.state.logs = false) :=
  ⟨cpl, [], { run with cpls := [cpl], parts := [(0, { owner with state := .bound })] }, by decide +kernel⟩

theorem witness_Completions_2 :
    ∃ (c : Cpl) (rest : List Cpl) (s : State),
    (s.ctl.core = true) ∧ (takeFirst (cplMoves s) s.cpls = some (c, rest)) ∧ ((∀ j ∈ s.jobs, j.opcode ≠ 0x0A01)) ∧ let x := s.part c.part; (x.state.logs = true) ∧ (hostGone s c.part = true) :=
  ⟨cpl, [], withRegs [(HIF_HP_STATUS 0, 0)] { run with cpls := [cpl] }, by decide +kernel⟩

theorem witness_Completions_3 :
    ∃ (c : Cpl) (rest : List Cpl) (s : State),
    (s.ctl.core = true) ∧ (takeFirst (cplMoves s) s.cpls = some (c, rest)) ∧ ((∀ j ∈ s.jobs, j.opcode ≠ 0x0A01)) ∧ let x := s.part c.part; (x.state.logs = true) ∧ (hostGone s c.part = false) ∧ (x.backlog = []) ∧ (cplRoom s c.part c.cring = true) ∧ (onPcie s c.part = true) :=
  ⟨cpl, [], { run with cpls := [cpl] }, by decide +kernel⟩

theorem witness_Completions_4 :
    ∃ (c : Cpl) (rest : List Cpl) (s : State),
    (s.ctl.core = true) ∧ (takeFirst (cplMoves s) s.cpls = some (c, rest)) ∧ ((∀ j ∈ s.jobs, j.opcode ≠ 0x0A01)) ∧ let x := s.part c.part; let n := (kring x c.cring).written; let base := cplBase s c.part c.cring + 32 * (n.toNat % 2 ^ cplLog s c.part c.cring); let pieces := cplPieces c n.toNat (cplLog s c.part c.cring); (x.state.logs = true) ∧ (hostGone s c.part = false) ∧ (x.backlog = []) ∧ (cplRoom s c.part c.cring = true) ∧ (onPcie s c.part = false) ∧ ((∀ w ∈ pieces, rangeRes s (engine 34 c.part) .w (partsOf s (base + w.1) w.2.length) = .ok)) :=
  ⟨cpl, [], withRegs [(PRT_SW_CP_LO 0 0, 0x80000000), (PRT_SW_CP_HI 0 0, 1)] (hp4 { run with cpls := [cpl] }), by decide +kernel⟩

theorem witness_Completions_5 :
    ∃ (c : Cpl) (rest : List Cpl) (s : State),
    (s.ctl.core = true) ∧ (takeFirst (cplMoves s) s.cpls = some (c, rest)) ∧ ((∀ j ∈ s.jobs, j.opcode ≠ 0x0A01)) ∧ let x := s.part c.part; (x.state.logs = true) ∧ (hostGone s c.part = false) ∧ ((x.backlog ≠ [] ∨ cplRoom s c.part c.cring = false)) :=
  ⟨cpl, [], { run with cpls := [cpl], parts := [(0, { owner with krings := [(0, { written := 1 })] })] }, by decide +kernel⟩

theorem witness_Completions_6 :
    ∃ (s : State),
    ((s.ctl.core = false ∨ ∀ c ∈ s.cpls, cplMoves s c = false)) :=
  ⟨{ run with parts := [(0, { owner with backlog := [cpl, cpl] })] }, by decide +kernel⟩

theorem witness_Completions_7 :
    ∃ (p : Fin 16) (c : Cpl) (rest : List Cpl) (s : State),
    (s.ctl.core = true) ∧ ((s.part p.val).backlog = c :: rest) ∧ let x := s.part p.val; (x.state.logs = false) :=
  ⟨0, cpl, [], { run with parts := [(0, { owner with state := .bound, backlog := [cpl] })] }, by decide +kernel⟩

theorem witness_Completions_8 :
    ∃ (p : Fin 16) (c : Cpl) (rest : List Cpl) (s : State),
    (s.ctl.core = true) ∧ ((s.part p.val).backlog = c :: rest) ∧ let x := s.part p.val; (x.state.logs = true) ∧ (hostGone s p.val = true) :=
  ⟨0, cpl, [], withRegs [(HIF_HP_STATUS 0, 0)] { run with parts := [(0, { owner with state := .stopping, backlog := [cpl] })] }, by decide +kernel⟩

theorem witness_Completions_9 :
    ∃ (p : Fin 16) (c : Cpl) (rest : List Cpl) (s : State),
    (s.ctl.core = true) ∧ ((s.part p.val).backlog = c :: rest) ∧ let x := s.part p.val; (x.state.logs = true) ∧ (hostGone s p.val = false) ∧ (cplRoom s p.val c.cring = true) ∧ (onPcie s p.val = true) :=
  ⟨0, cpl, [cpl], { run with parts := [(0, { owner with backlog := [cpl, cpl] })] }, by decide +kernel⟩

theorem witness_Completions_10 :
    ∃ (p : Fin 16) (c : Cpl) (rest : List Cpl) (s : State),
    (s.ctl.core = true) ∧ ((s.part p.val).backlog = c :: rest) ∧ let x := s.part p.val; let n := (kring x c.cring).written; let base := cplBase s p.val c.cring + 32 * (n.toNat % 2 ^ cplLog s p.val c.cring); let pieces := cplPieces c n.toNat (cplLog s p.val c.cring); (x.state.logs = true) ∧ (hostGone s p.val = false) ∧ (cplRoom s p.val c.cring = true) ∧ (onPcie s p.val = false) ∧ ((∀ w ∈ pieces, rangeRes s (engine 34 p.val) .w (partsOf s (base + w.1) w.2.length) = .ok)) :=
  ⟨0, cpl, [], withRegs [(PRT_SW_CP_LO 0 0, 0x80000000), (PRT_SW_CP_HI 0 0, 1)] { run with parts := [(0, { owner with port := 4, backlog := [cpl] })] }, by decide +kernel⟩

theorem witness_Completions_11 :
    ∃ (p : Fin 16) (c : Cpl) (rest : List Cpl) (s : State),
    (s.ctl.core = true) ∧ ((s.part p.val).backlog = c :: rest) ∧ let x := s.part p.val; (x.state.logs = true) ∧ (hostGone s p.val = false) ∧ (cplRoom s p.val c.cring = false) :=
  ⟨0, cpl, [], { run with parts := [(0, { owner with backlog := [cpl], krings := [(0, { written := 1 })] })] }, by decide +kernel⟩

theorem witness_Completions_12 :
    ∃ (p : Fin 16) (s : State),
    ((s.ctl.core = false ∨ (s.part p.val).backlog = [])) :=
  ⟨0, run, by decide +kernel⟩

theorem witness_FetchAndMirror_1 :
    ∃ (p : Fin 16) (r : Fin 8) (h : HostRead) (s : State),
    ((s.ctl.core = false ∨ s.ctl.mode.soile = false ∨ ringHead s p.val r.val = none)) :=
  ⟨0, 7, .error, run, by decide +kernel⟩

theorem witness_FetchAndMirror_2 :
    ∃ (p : Fin 16) (r : Fin 8) (h : HostRead) (s : State) (f : Fetched),
    (s.ctl.core = true) ∧ (s.ctl.mode.soile = true) ∧ (ringHead s p.val r.val = some f) ∧ (headReady s p f = false) :=
  ⟨0, 7, .bytes [], { run with parts := [(0, { owner with fetched := [fetched], rings := [(7, { wait := some (3, true, 8, 5) })] })] }, fetched, by decide +kernel⟩

theorem witness_FetchAndMirror_3 :
    ∃ (p : Fin 16) (r : Fin 8) (h : HostRead) (s : State) (f : Fetched),
    (s.ctl.core = true) ∧ (s.ctl.mode.soile = true) ∧ (ringHead s p.val r.val = some f) ∧ (headReady s p f = true) ∧ (firstOfAll s f = false) :=
  ⟨0, 7, .bytes [], { run with parts := [(0, { owner with fetched := [{ fetched with order := 1 }, { fetched with ring := 6 }] })] }, { fetched with order := 1 }, by decide +kernel⟩

theorem witness_FetchAndMirror_4 :
    ∃ (p : Fin 16) (r : Fin 8) (h : HostRead) (s : State) (f : Fetched),
    (s.ctl.core = true) ∧ (s.ctl.mode.soile = true) ∧ (ringHead s p.val r.val = some f) ∧ let op := rawOp f.raw; (headReady s p f = true) ∧ (firstOfAll s f = true) ∧ (cmdOf op = none) :=
  ⟨0, 7, .bytes [], { run with parts := [(0, { owner with fetched := [⟨7, 0, [0xFF, 0xFF] ++ List.replicate 62 0, 0⟩] })] }, ⟨7, 0, [0xFF, 0xFF] ++ List.replicate 62 0, 0⟩, by decide +kernel⟩

theorem witness_FetchAndMirror_5 :
    ∃ (p : Fin 16) (r : Fin 8) (h : HostRead) (s : State) (f : Fetched) (run : Req → State → State),
    (s.ctl.core = true) ∧ (s.ctl.mode.soile = true) ∧ (ringHead s p.val r.val = some f) ∧ let op := rawOp f.raw; (headReady s p f = true) ∧ (firstOfAll s f = true) ∧ (cmdOf op = some run) ∧ (rawReserved f.raw = true) :=
  ⟨0, 7, .bytes [], { run with parts := [(0, { owner with fetched := [⟨7, 0, [3, 0x0F, 2] ++ List.replicate 61 0, 0⟩] })] }, ⟨7, 0, [3, 0x0F, 2] ++ List.replicate 61 0, 0⟩, doTimeRead, by decide +kernel, by decide +kernel, by decide +kernel, by decide +kernel, by decide +kernel, rfl, by decide +kernel⟩

theorem witness_FetchAndMirror_6 :
    ∃ (p : Fin 16) (r : Fin 8) (h : HostRead) (s : State) (f : Fetched) (run : Req → State → State),
    (s.ctl.core = true) ∧ (s.ctl.mode.soile = true) ∧ (ringHead s p.val r.val = some f) ∧ let op := rawOp f.raw; (headReady s p f = true) ∧ (firstOfAll s f = true) ∧ (cmdOf op = some run) ∧ (rawReserved f.raw = false) :=
  ⟨0, 7, .bytes [], { run with parts := [(0, { owner with fetched := [fetched] })] }, fetched, doTimeRead, by decide +kernel, by decide +kernel, by decide +kernel, by decide +kernel, by decide +kernel, rfl, by decide +kernel⟩

theorem witness_FetchAndMirror_7 :
    ∃ (p : Fin 16) (page : HostRead) (ds : List HostRead) (log : HostRead) (s : State),
    ((s.ctl.core = false ∨ (s.part p.val).state ≠ .active ∧ (s.part p.val).state ≠ .stopping)) :=
  ⟨15, .error, [], .error, run, by decide +kernel⟩

theorem witness_FetchAndMirror_8 :
    ∃ (p : Fin 16) (page : HostRead) (ds : List HostRead) (log : HostRead) (s : State),
    (s.ctl.core = true) ∧ (((s.part p.val).state = .active ∨ (s.part p.val).state = .stopping)) ∧ (onPcie s p.val = true) ∧ ((page = .error ∨ linkUp s (s.part p.val).port = false)) :=
  ⟨0, .error, [], .error, run, by decide +kernel⟩

theorem witness_FetchAndMirror_9 :
    ∃ (p : Fin 16) (page : HostRead) (ds : List HostRead) (log : HostRead) (s : State),
    (s.ctl.core = true) ∧ (((s.part p.val).state = .active ∨ (s.part p.val).state = .stopping)) ∧ (onPcie s p.val = false) ∧ let x := engRead s 34 p.val (doorbell s p.val) 128; (x.2.1 = .held) :=
  ⟨0, .error, [], .error, heldAt 0x180000000 (withRegs [(PRT_SW_DB_LO 0, 0x80000000), (PRT_SW_DB_HI 0, 1)] (hp4 run)), by decide +kernel⟩

theorem witness_FetchAndMirror_10 :
    ∃ (p : Fin 16) (page : HostRead) (ds : List HostRead) (log : HostRead) (s : State),
    (s.ctl.core = true) ∧ (((s.part p.val).state = .active ∨ (s.part p.val).state = .stopping)) ∧ (onPcie s p.val = false) ∧ let x := engRead s 34 p.val (doorbell s p.val) 128; ((x.2.1 = .denied ∨ x.2.1 = .unmapped)) :=
  ⟨0, .error, [], .error, shut (withRegs [(PRT_SW_DB_LO 0, 0x80000000), (PRT_SW_DB_HI 0, 1)] (hp4 run)), by decide +kernel⟩

theorem witness_FetchAndMirror_11 :
    ∃ (p : Fin 16) (page log : Bytes) (ds : List HostRead) (s : State),
    (s.ctl.core = true) ∧ (onPcie s p.val = true) ∧ (linkUp s (s.part p.val).port = true) ∧ (page.length = 128) ∧ (log.length = 8) ∧ let x := s.part p.val; (x.state = .stopping) :=
  ⟨0, List.replicate 128 0, List.replicate 8 0, [], { run with parts := [(0, { owner with state := .stopping })] }, by decide +kernel⟩

theorem witness_FetchAndMirror_12 :
    ∃ (p : Fin 16) (page log : Bytes) (ds : List HostRead) (s : State) (r : Fin 8),
    (s.ctl.core = true) ∧ (onPcie s p.val = true) ∧ (linkUp s (s.part p.val).port = true) ∧ (page.length = 128) ∧ (log.length = 8) ∧ let x := s.part p.val; (x.state = .active) ∧ (s.ctl.mode.soile = true) ∧ (s.bit (PRT_SW_CR_CFG p.val r.val) 8 = true) ∧ ((∀ o, o < 8 → o ≠ r.val → s.bit (PRT_SW_CR_CFG p.val o) 8 = false)) ∧ let c := cring x r.val; let prod := BitVec.ofNat 64 (leNat (sliceB page (8 * r.val) 8)); ((c.fault = true ∨ prod = c.fetch)) :=
  ⟨0, List.replicate 128 0, List.replicate 8 0, [], withRegs [(PRT_SW_CP_CFG 0 0, 0), (PRT_SW_CR_CFG 0 0, 0x100)] run, 0, by decide +kernel⟩

theorem witness_FetchAndMirror_13 :
    ∃ (p : Fin 16) (page log : Bytes) (ds : List HostRead) (s : State) (r : Fin 8),
    (s.ctl.core = true) ∧ (onPcie s p.val = true) ∧ (linkUp s (s.part p.val).port = true) ∧ (page.length = 128) ∧ (log.length = 8) ∧ let x := s.part p.val; (x.state = .active) ∧ (s.ctl.mode.soile = true) ∧ (s.bit (PRT_SW_CR_CFG p.val r.val) 8 = true) ∧ ((∀ o, o < 8 → o ≠ r.val → s.bit (PRT_SW_CR_CFG p.val o) 8 = false)) ∧ let c := cring x r.val; let prod := BitVec.ofNat 64 (leNat (sliceB page (8 * r.val) 8)); (c.fault = false) ∧ (2 ^ cmdLog s p.val r.val < (prod - c.fetch).toNat) :=
  ⟨0, [2] ++ List.replicate 127 0, List.replicate 8 0, [], withRegs [(PRT_SW_CP_CFG 0 0, 0), (PRT_SW_CR_CFG 0 0, 0x100)] run, 0, by decide +kernel⟩

theorem witness_FetchAndMirror_14 :
    ∃ (p : Fin 16) (page log : Bytes) (ds : List HostRead) (s : State) (r : Fin 8) (raw : List (BitVec 8)),
    (s.ctl.core = true) ∧ (onPcie s p.val = true) ∧ (linkUp s (s.part p.val).port = true) ∧ (page.length = 128) ∧ (log.length = 8) ∧ let x := s.part p.val; (x.state = .active) ∧ (s.ctl.mode.soile = true) ∧ (s.bit (PRT_SW_CR_CFG p.val r.val) 8 = true) ∧ ((∀ o, o < 8 → o ≠ r.val → s.bit (PRT_SW_CR_CFG p.val o) 8 = false)) ∧ let c := cring x r.val; let prod := BitVec.ofNat 64 (leNat (sliceB page (8 * r.val) 8)); (ds = [.bytes raw]) ∧ (raw.length = 64) ∧ (c.fault = false) ∧ (prod = c.fetch + 1) :=
  ⟨0, [1] ++ List.replicate 127 0, List.replicate 8 0, [.bytes ([3, 0x0F] ++ List.replicate 62 0)], withRegs [(PRT_SW_CP_CFG 0 0, 0), (PRT_SW_CR_CFG 0 0, 0x100)] run, 0, [3, 0x0F] ++ List.replicate 62 0, by decide +kernel⟩

theorem witness_FetchAndMirror_15 :
    ∃ (p : Fin 16) (s : State),
    let on := s.ctl.core = true ∧ (s.part p.val).state = .active ∧ mirrorOn s p.val = true; (¬ on) :=
  ⟨0, { run with parts := [(0, { owner with fetched := [fetched] })] }, by decide +kernel⟩

theorem witness_FetchAndMirror_16 :
    ∃ (p : Fin 16) (s : State),
    let on := s.ctl.core = true ∧ (s.part p.val).state = .active ∧ mirrorOn s p.val = true; (on) ∧ (onPcie s p.val = true) ∧ (linkUp s (s.part p.val).port = true) :=
  ⟨0, withRegs [(PRT_SW_MIRROR 0, 0x100)] run, by decide +kernel⟩

theorem witness_FetchAndMirror_17 :
    ∃ (p : Fin 16) (s : State),
    let on := s.ctl.core = true ∧ (s.part p.val).state = .active ∧ mirrorOn s p.val = true; (on) ∧ (onPcie s p.val = true) ∧ (linkUp s (s.part p.val).port = false) :=
  ⟨0, withRegs [(PRT_SW_MIRROR 0, 0x100), (HIF_HP_STATUS 0, 0)] run, by decide +kernel⟩

theorem witness_FetchAndMirror_18 :
    ∃ (p : Fin 16) (s : State),
    let n := (s.part p.val).mirSeq + 1; let base := mirrorBase s p.val; let ws : List (Nat × Bytes) := [(0x7FF8, leBytes 4 0), (4, mirrorBody s p.val), (0, leBytes 4 n.toNat), (0x7FF8, leBytes 4 n.toNat)]; let on := s.ctl.core = true ∧ (s.part p.val).state = .active ∧ mirrorOn s p.val = true; (on) ∧ (onPcie s p.val = false) ∧ ((∀ w ∈ ws, rangeRes s (engine 34 p.val) .w (partsOf s (base + w.1) w.2.length) = .ok)) :=
  ⟨0, withRegs [(PRT_SW_MIRROR 0, 0x100), (PRT_SW_MIR_LO 0, 0x80000000), (PRT_SW_MIR_HI 0, 1)] (hp4 run), by decide +kernel⟩

theorem witness_FetchAndMirror_19 :
    ∃ (p : Fin 16) (s : State),
    let n := (s.part p.val).mirSeq + 1; let base := mirrorBase s p.val; let ws : List (Nat × Bytes) := [(0x7FF8, leBytes 4 0), (4, mirrorBody s p.val), (0, leBytes 4 n.toNat), (0x7FF8, leBytes 4 n.toNat)]; let on := s.ctl.core = true ∧ (s.part p.val).state = .active ∧ mirrorOn s p.val = true; (on) ∧ (onPcie s p.val = false) ∧ let x := partWrite (raiseN 3) s true p.val 34 base ws; ((x.2 = .denied ∨ x.2 = .unmapped)) :=
  ⟨0, shut (withRegs [(PRT_SW_MIRROR 0, 0x100), (PRT_SW_MIR_LO 0, 0x80000000), (PRT_SW_MIR_HI 0, 1)] (hp4 run)), by decide +kernel⟩

theorem witness_FetchAndMirror_20 :
    ∃ (p : Fin 16) (s : State),
    let n := (s.part p.val).mirSeq + 1; let base := mirrorBase s p.val; let ws : List (Nat × Bytes) := [(0x7FF8, leBytes 4 0), (4, mirrorBody s p.val), (0, leBytes 4 n.toNat), (0x7FF8, leBytes 4 n.toNat)]; let on := s.ctl.core = true ∧ (s.part p.val).state = .active ∧ mirrorOn s p.val = true; (on) ∧ (onPcie s p.val = false) ∧ let x := partWrite (raiseN 3) s true p.val 34 base ws; (x.2 = .held) :=
  ⟨0, heldAt 0x180000000 (withRegs [(PRT_SW_MIRROR 0, 0x100), (PRT_SW_MIR_LO 0, 0x80000000), (PRT_SW_MIR_HI 0, 1)] (hp4 run)), by decide +kernel⟩

theorem witness_Aborts_1 :
    ∃ (q : Req) (s : State),
    (Admitted s q maskAbort) ∧ let target := abortTarget s q.part.val (BitVec.ofNat 32 (q.u32 16)) s.nextJob; (target = none) :=
  ⟨req (b 16 7), run, by decide +kernel⟩

theorem witness_Aborts_2 :
    ∃ (q : Req) (s : State) (c : Cpl),
    (Admitted s q maskAbort) ∧ let target := abortTarget s q.part.val (BitVec.ofNat 32 (q.u32 16)) s.nextJob; (target = some (.ended c)) :=
  ⟨req (b 16 7), { run with cpls := [cpl], nextJob := 9 }, cpl, by decide +kernel⟩

theorem witness_Aborts_3 :
    ∃ (q : Req) (s : State) (f : Fetched),
    (Admitted s q maskAbort) ∧ let target := abortTarget s q.part.val (BitVec.ofNat 32 (q.u32 16)) s.nextJob; (target = some (.fetched f)) :=
  ⟨req 0, { run with parts := [(0, { owner with fetched := [fetched] })], nextJob := 9 }, fetched, by decide +kernel⟩

theorem witness_Aborts_4 :
    ∃ (q : Req) (s : State) (j : Job),
    (Admitted s q maskAbort) ∧ let target := abortTarget s q.part.val (BitVec.ofNat 32 (q.u32 16)) s.nextJob; (target = some (.job j)) ∧ (j.opcode.toNat ∉ [0x0501, 0x0602, 0x0703, 0x0802, 0x0803, 0x0A02, 0x0D01, 0x0D02, 0x0E01]) :=
  ⟨req (b 16 7), { run with jobs := [job 3 0x0A01 0], nextJob := 9 }, job 3 0x0A01 0, by decide +kernel⟩

theorem witness_Aborts_5 :
    ∃ (q : Req) (s : State) (j : Job),
    (Admitted s q maskAbort) ∧ let target := abortTarget s q.part.val (BitVec.ofNat 32 (q.u32 16)) s.nextJob; (target = some (.job j)) ∧ (j.opcode = 0x0501) ∧ let begun := ∃ x ∈ s.ipp, ∃ w, x.2 = some w ∧ w.begun = true ∧ w.job = some j.id; (begun) :=
  ⟨req (b 16 7), { run with jobs := [job 3 0x0501 0], nextJob := 9, ipp := [(15, some { work 15 with begun := true })] }, job 3 0x0501 0, by decide +kernel⟩

theorem witness_Aborts_6 :
    ∃ (q : Req) (s : State) (j : Job),
    (Admitted s q maskAbort) ∧ let target := abortTarget s q.part.val (BitVec.ofNat 32 (q.u32 16)) s.nextJob; (target = some (.job j)) ∧ (j.opcode = 0x0501) ∧ let begun := ∃ x ∈ s.ipp, ∃ w, x.2 = some w ∧ w.begun = true ∧ w.job = some j.id; (¬ begun) :=
  ⟨req (b 16 7), { run with jobs := [job 3 0x0501 0], nextJob := 9, ipp := [(15, some (work 15))] }, job 3 0x0501 0, by decide +kernel⟩

theorem witness_Aborts_7 :
    ∃ (q : Req) (s : State) (j : Job),
    (Admitted s q maskAbort) ∧ let target := abortTarget s q.part.val (BitVec.ofNat 32 (q.u32 16)) s.nextJob; (target = some (.job j)) ∧ (j.opcode = 0x0602) ∧ let begun := ∃ x ∈ s.encs, ∃ w, x.2.work = some w ∧ w.job = some j.id; (begun) :=
  ⟨req (b 16 7), { run with jobs := [job 3 0x0602 0], nextJob := 9, encs := [(31, { sess with work := some ⟨some 3, 4094, false, 0, [], 0, none⟩ })] }, job 3 0x0602 0, by decide +kernel⟩

theorem witness_Aborts_8 :
    ∃ (q : Req) (s : State) (j : Job),
    (Admitted s q maskAbort) ∧ let target := abortTarget s q.part.val (BitVec.ofNat 32 (q.u32 16)) s.nextJob; (target = some (.job j)) ∧ (j.opcode = 0x0602) ∧ let begun := ∃ x ∈ s.encs, ∃ w, x.2.work = some w ∧ w.job = some j.id; (¬ begun) :=
  ⟨req (b 16 7), { run with jobs := [job 3 0x0602 0], nextJob := 9 }, job 3 0x0602 0, by decide +kernel⟩

theorem witness_Aborts_9 :
    ∃ (q : Req) (s : State) (j : Job),
    (Admitted s q maskAbort) ∧ let target := abortTarget s q.part.val (BitVec.ofNat 32 (q.u32 16)) s.nextJob; (target = some (.job j)) ∧ (j.opcode = 0x0703) ∧ (mayRun s j = true) :=
  ⟨req (b 16 7), { run with jobs := [runJob 3 0x0703 0], nextJob := 9 }, runJob 3 0x0703 0, by decide +kernel⟩

theorem witness_Aborts_10 :
    ∃ (q : Req) (s : State) (j : Job),
    (Admitted s q maskAbort) ∧ let target := abortTarget s q.part.val (BitVec.ofNat 32 (q.u32 16)) s.nextJob; (target = some (.job j)) ∧ (j.opcode = 0x0703) ∧ (mayRun s j = false) :=
  ⟨req (b 16 7), { run with jobs := [{ job 2 0x0501 (b 20 4095) with req := { req (b 20 4095) with tag := 3 } }, job 3 0x0703 (b 16 4095)], nextJob := 9 }, job 3 0x0703 (b 16 4095), by decide +kernel⟩

theorem witness_Aborts_11 :
    ∃ (q : Req) (s : State) (j : Job),
    (Admitted s q maskAbort) ∧ let target := abortTarget s q.part.val (BitVec.ofNat 32 (q.u32 16)) s.nextJob; (target = some (.job j)) ∧ (j.opcode = 0x0802) ∧ (pendingOf s j.id = none) :=
  ⟨req (b 16 7), { run with jobs := [job 3 0x0802 0], nextJob := 9 }, job 3 0x0802 0, by decide +kernel⟩

theorem witness_Aborts_12 :
    ∃ (q : Req) (s : State) (j : Job) (l : Nat) (p : Pending),
    (Admitted s q maskAbort) ∧ let target := abortTarget s q.part.val (BitVec.ofNat 32 (q.u32 16)) s.nextJob; (target = some (.job j)) ∧ (j.opcode = 0x0802) ∧ (pendingOf s j.id = some (l, p)) ∧ (p.armed = true) :=
  ⟨req (b 16 7), { run with jobs := [job 3 0x0802 0], nextJob := 9, layers := [(255, { created := true, head := 15, pend := [⟨1, { cropW := 2 }, none, false, 3, 0, true, none⟩] })] }, job 3 0x0802 0, 255, ⟨1, { cropW := 2 }, none, false, 3, 0, true, none⟩, by decide +kernel⟩

theorem witness_Aborts_13 :
    ∃ (q : Req) (s : State) (j : Job) (l : Nat) (p : Pending),
    (Admitted s q maskAbort) ∧ let target := abortTarget s q.part.val (BitVec.ofNat 32 (q.u32 16)) s.nextJob; (target = some (.job j)) ∧ (j.opcode = 0x0802) ∧ (pendingOf s j.id = some (l, p)) ∧ (p.armed = false) :=
  ⟨req (b 16 7), { run with jobs := [job 3 0x0802 0], nextJob := 9, layers := [(255, { created := true, head := 15, pend := [⟨1, { cropW := 2 }, none, false, 3, 0, false, none⟩] })] }, job 3 0x0802 0, 255, ⟨1, { cropW := 2 }, none, false, 3, 0, false, none⟩, by decide +kernel⟩

theorem witness_Aborts_14 :
    ∃ (q : Req) (s : State) (j : Job),
    (Admitted s q maskAbort) ∧ let target := abortTarget s q.part.val (BitVec.ofNat 32 (q.u32 16)) s.nextJob; (target = some (.job j)) ∧ (j.opcode = 0x0803) ∧ ((∀ x ∈ s.layers, j.id ∉ x.2.destroy)) :=
  ⟨req (b 16 7), { run with jobs := [job 3 0x0803 0], nextJob := 9 }, job 3 0x0803 0, by decide +kernel⟩

theorem witness_Aborts_15 :
    ∃ (q : Req) (s : State) (j : Job) (l : Nat) (x : Layer),
    (Admitted s q maskAbort) ∧ let target := abortTarget s q.part.val (BitVec.ofNat 32 (q.u32 16)) s.nextJob; (target = some (.job j)) ∧ (j.opcode = 0x0803) ∧ (s.layers.find? (fun x => x.2.destroy.contains j.id) = some (l, x)) ∧ (x.destroyArmed = true) :=
  ⟨req (b 16 7), { run with jobs := [job 3 0x0803 0], nextJob := 9, layers := [(255, { created := true, head := 15, destroy := [3], destroyArmed := true })] }, job 3 0x0803 0, 255, { created := true, head := 15, destroy := [3], destroyArmed := true }, by decide +kernel⟩

theorem witness_Aborts_16 :
    ∃ (q : Req) (s : State) (j : Job) (l : Nat) (x : Layer),
    (Admitted s q maskAbort) ∧ let target := abortTarget s q.part.val (BitVec.ofNat 32 (q.u32 16)) s.nextJob; (target = some (.job j)) ∧ (j.opcode = 0x0803) ∧ (s.layers.find? (fun x => x.2.destroy.contains j.id) = some (l, x)) ∧ (x.destroyArmed = false) :=
  ⟨req (b 16 7), { run with jobs := [job 3 0x0803 0], nextJob := 9, layers := [(255, { created := true, head := 15, destroy := [3], destroyArmed := false })] }, job 3 0x0803 0, 255, { created := true, head := 15, destroy := [3], destroyArmed := false }, by decide +kernel⟩

theorem witness_Aborts_17 :
    ∃ (q : Req) (s : State) (j : Job),
    (Admitted s q maskAbort) ∧ let target := abortTarget s q.part.val (BitVec.ofNat 32 (q.u32 16)) s.nextJob; (target = some (.job j)) ∧ (j.opcode = 0x0A02) :=
  ⟨req (b 16 7), { run with jobs := [job 3 0x0A02 0], nextJob := 9 }, job 3 0x0A02 0, by decide +kernel⟩

theorem witness_Aborts_18 :
    ∃ (q : Req) (s : State) (j : Job),
    (Admitted s q maskAbort) ∧ let target := abortTarget s q.part.val (BitVec.ofNat 32 (q.u32 16)) s.nextJob; (target = some (.job j)) ∧ ((j.opcode = 0x0D01 ∨ j.opcode = 0x0D02)) ∧ (j.running = true) :=
  ⟨req (b 16 7), { run with jobs := [runJob 3 0x0D01 0], nextJob := 9 }, runJob 3 0x0D01 0, by decide +kernel⟩

theorem witness_Aborts_19 :
    ∃ (q : Req) (s : State) (j : Job),
    (Admitted s q maskAbort) ∧ let target := abortTarget s q.part.val (BitVec.ofNat 32 (q.u32 16)) s.nextJob; (target = some (.job j)) ∧ ((j.opcode = 0x0D01 ∨ j.opcode = 0x0D02)) ∧ (j.running = false) :=
  ⟨req (b 16 7), { run with jobs := [job 3 0x0D01 0], nextJob := 9 }, job 3 0x0D01 0, by decide +kernel⟩

theorem witness_Aborts_20 :
    ∃ (q : Req) (s : State) (j : Job),
    (Admitted s q maskAbort) ∧ let target := abortTarget s q.part.val (BitVec.ofNat 32 (q.u32 16)) s.nextJob; (target = some (.job j)) ∧ (j.opcode = 0x0E01) ∧ ((∀ k, k < 8 → s.crcW k ≠ some j.id)) :=
  ⟨req (b 16 7), { run with jobs := [job 3 0x0E01 0], nextJob := 9 }, job 3 0x0E01 0, by decide +kernel⟩

theorem witness_Aborts_21 :
    ∃ (q : Req) (s : State) (j : Job) (k : Nat),
    (Admitted s q maskAbort) ∧ let target := abortTarget s q.part.val (BitVec.ofNat 32 (q.u32 16)) s.nextJob; (target = some (.job j)) ∧ (j.opcode = 0x0E01) ∧ (k < 8) ∧ (s.crcW k = some j.id) ∧ ((∀ i, i < k → s.crcW i ≠ some j.id)) ∧ (pwrGranted s (pwrCrc k) = true) :=
  ⟨req (b 16 7), { run with jobs := [job 3 0x0E01 0], nextJob := 9, crcu := [(7, some 3)], pwr := { items := [⟨1287, 5, 2, 0, true, false, false, 0, 0⟩] } }, job 3 0x0E01 0, 7, by decide +kernel⟩

theorem witness_Aborts_22 :
    ∃ (q : Req) (s : State) (j : Job) (k : Nat),
    (Admitted s q maskAbort) ∧ let target := abortTarget s q.part.val (BitVec.ofNat 32 (q.u32 16)) s.nextJob; (target = some (.job j)) ∧ (j.opcode = 0x0E01) ∧ (k < 8) ∧ (s.crcW k = some j.id) ∧ ((∀ i, i < k → s.crcW i ≠ some j.id)) ∧ (pwrGranted s (pwrCrc k) = false) :=
  ⟨req (b 16 7), { run with jobs := [job 3 0x0E01 0], nextJob := 9, crcu := [(7, some 3)] }, job 3 0x0E01 0, 7, by decide +kernel⟩

theorem witness_Aborts_23 :
    ∃ (s : State) (j : Job) (st : Nat) (body : BitVec 128),
    (s.jobs.filter (fun x => x.id == j.id) = [j]) ∧ (j.yielded = false) :=
  ⟨{ run with jobs := [{ job 3 0x0D01 0 with abortBy := [5] }, job 5 0x1201 0] }, { job 3 0x0D01 0 with abortBy := [5] }, stAborted, 0, by decide +kernel⟩

theorem witness_Gates_1 :
    ∃ (a : Access) (e : GateEntry) (v : Word) (s : State),
    let k := gateKey e; let c := gateCtrlAddr k; (Reaches s a .w c) :=
  ⟨desk, .region 7 31, 0x200, withRegs [(MG_CTRL 7 31, 0xFFFF0009)] run, by decide +kernel⟩

theorem witness_Gates_2 :
    ∃ (e : GateEntry) (s : State) (r : Nat),
    (r < 8) :=
  ⟨.region 7 31, withRegs [(MG_CTRL 7 31, 1)] run, 1, by decide +kernel⟩

theorem witness_Gates_3 :
    ∃ (e : GateEntry) (s : State),
    let k := gateKey e; (inHold s k = false) :=
  ⟨.region 7 31, withRegs [(MG_CTRL 7 31, 0xFFFF0009)] run, by decide +kernel⟩

theorem witness_Gates_4 :
    ∃ (e : GateEntry) (s : State) (resv : Bool),
    let k := gateKey e; (inHold s k = false) :=
  ⟨.region 7 31, run, false, by decide +kernel⟩

theorem witness_Gates_5 :
    ∃ (e : GateEntry) (s : State) (resv : Bool),
    let k := gateKey e; (inHold s k = true) ∧ (gateQuiet s k = false) :=
  ⟨.region 7 31, { withRegs [(MG_CTRL 7 31, 0x12), (MG_BASE 7 31, 0x0F000000)] run with drains := [(gateKey (.region 7 31), 5)] }, false, by decide +kernel⟩

theorem witness_Gates_6 :
    ∃ (e : GateEntry) (s : State) (resv : Bool),
    let k := gateKey e; (inHold s k = true) ∧ (gateQuiet s k = true) :=
  ⟨.region 7 31, withRegs [(MG_CTRL 7 31, 0x12), (MG_BASE 7 31, 0x0F000000)] run, true, by decide +kernel⟩

theorem witness_Gates_7 :
    ∃ (e : GateEntry) (s : State) (resv : Bool),
    let k := gateKey e; let r := applyResult s k resv; (r ≠ 0) :=
  ⟨.region 7 31, run, false, by decide +kernel⟩

theorem witness_Gates_8 :
    ∃ (e : GateEntry) (s : State) (resv : Bool),
    let k := gateKey e; let r := applyResult s k resv; (r = 0) :=
  ⟨.region 7 31, withRegs [(MG_CTRL 7 31, 0x12), (MG_BASE 7 31, 0x0F000000)] run, false, by decide +kernel⟩

theorem witness_Gates_9 :
    ∃ (e : GateEntry) (s : State),
    (s.heldAcc = []) ∧ ((∀ j ∈ s.jobs, j.opcode ≠ 0x0A01)) :=
  ⟨.region 7 31, withRegs [(MG_CTRL 7 31, 0xFFFF0009)] run, by decide +kernel⟩

theorem witness_Gates_10 :
    ∃ (e : GateEntry) (s : State),
    let k := gateKey e; let c := gateCtrlAddr k; (ctrlState (s.reg c) = 1) :=
  ⟨.region 7 31, withRegs [(MG_CTRL 7 31, 0xFFFF0009)] run, by decide +kernel⟩

theorem witness_Gates_11 :
    ∃ (e : GateEntry) (s : State),
    let k := gateKey e; let c := gateCtrlAddr k; (ctrlState (s.reg c) ≠ 1) :=
  ⟨.region 7 31, withRegs [(MG_CTRL 7 31, 2), (MG_BASE 7 31, 0x0F000000)] run, by decide +kernel⟩

theorem witness_Gates_12 :
    ∃ (a : Access) (e : GateEntry) (i : Fin 3) (v : Word) (s : State),
    (stageAddr e i.val = none) :=
  ⟨desk, .slot 69, 1, 5, run, by decide +kernel⟩

theorem witness_Gates_13 :
    ∃ (a : Access) (e : GateEntry) (i : Fin 3) (v : Word) (s : State) (addr : Nat),
    (stageAddr e i.val = some addr) ∧ (Reaches s a .w addr) ∧ (gateLocked s (gateKey e) = true) :=
  ⟨desk, .region 7 31, 2, 5, withRegs [(MG_CTRL 7 31, 9)] run, MG_PART 7 31, by decide +kernel⟩

theorem witness_Gates_14 :
    ∃ (a : Access) (e : GateEntry) (i : Fin 3) (v : Word) (s : State) (addr : Nat),
    (stageAddr e i.val = some addr) ∧ (Reaches s a .w addr) ∧ (gateLocked s (gateKey e) = false) :=
  ⟨desk, .region 7 31, 0, 5, withRegs [(MG_CTRL 7 31, 2)] run, MG_BASE 7 31, by decide +kernel⟩

theorem witness_UnpoweredAccess_1 :
    ∃ (a : Access) (addr : BitVec 40) (v : Word) (s : State),
    (addr.toNat < 0x1000000) ∧ (addr.toNat % 4 = 0) ∧ (s.powered (slotOf addr.toNat) = false) ∧ (fromDesk a = false) :=
  ⟨host 15, 0xFFFFFC, 5, State.reset, by decide +kernel⟩

theorem witness_UnpoweredAccess_2 :
    ∃ (a : Access) (bar2 : Bool) (addr : BitVec 40) (s : State),
    let n := mapAddr s a bar2 addr.toNat; (canAccess (modeDrawn s a) a bar2 addr.toNat = true) ∧ (n < 0x1000000) ∧ (n % 4 = 0) ∧ (s.powered (slotOf n) = false) :=
  ⟨auth, false, 0x50000, State.reset, by decide +kernel⟩

theorem witness_UnpoweredAccess_3 :
    ∃ (s : State) (a : Access) (t : AccType) (addr p : Nat) (w : Word),
    (p < 16) :=
  ⟨run, desk, .w, 0x50000, 15, 5, by decide +kernel⟩

theorem witness_WindowAdmission_1 :
    ∃ (a : Access) (s : State) (n : Nat) (p : Fin 16) (t : AccType),
    (0xF00000 + 0x10000 * p.val ≤ n) ∧ (n < 0xF10000 + 0x10000 * p.val) ∧ (s.ctl.core = true) ∧ (regDec s a t n = .go) ∧ (a.src.toNat < 4) ∧ (a.level ≠ .p3) ∧ (a.level ≠ .debug) :=
  ⟨host 0, run, 0xF00000, 0, .w, by decide +kernel⟩

theorem witness_WindowAdmission_2 :
    ∃ (a : Access) (s : State) (p : Fin 16) (addr : BitVec 40) (v : Word),
    (s.ctl.core = true) ∧ (a.level ≠ .p3) ∧ (a.level ≠ .debug) ∧ ((a.part.toNat ≠ p.val ∨ a.src.toNat < 4 ∧ ((s.part p.val).state = .free ∨ (s.part p.val).port ≠ a.src.toNat))) ∧ (0xF00000 + 0x10000 * p.val ≤ addr.toNat) ∧ (addr.toNat < 0xF10000 + 0x10000 * p.val) ∧ (addr.toNat % 4 = 0) ∧ (s.carries a addr.toNat = true) ∧ (slotDec s 35 a .w = .go) :=
  ⟨host 14, withRegs [(HIF_HP_PRIM 0, 14), (HIF_HP_BAR2_BASE 0, 0)] run, 15, 0xFFFFFC, 5, by decide +kernel⟩

theorem witness_WindowAdmission_3 :
    ∃ (a : Access) (s : State) (p : Fin 16) (addr : BitVec 40) (bar2 : Bool),
    (s.ctl.core = true) ∧ (a.level ≠ .p3) ∧ (a.level ≠ .debug) ∧ ((a.part.toNat ≠ p.val ∨ a.src.toNat < 4 ∧ ((s.part p.val).state = .free ∨ (s.part p.val).port ≠ a.src.toNat))) ∧ let n := mapAddr s a bar2 addr.toNat; (0xF00000 + 0x10000 * p.val ≤ n) ∧ (n < 0xF10000 + 0x10000 * p.val) ∧ (n % 4 = 0) ∧ (canAccess (modeDrawn s a) a bar2 addr.toNat = true) ∧ (slotDec s 35 a .r = .go) :=
  ⟨host 14, withRegs [(HIF_HP_PRIM 0, 14), (HIF_HP_BAR2_BASE 0, 0)] run, 15, 0xFFFFFC, true, by decide +kernel⟩

theorem witness_RegionsAtReset_1 :
    ∃ (m : Nat) (r : Nat) (f : Nat → Nat → Nat),
    (m < 8) ∧ (r < 32) ∧ (f ∈ [MG_BASE, MG_ATTR, MG_PART, MG_BASE_ACT, MG_ATTR_ACT, MG_PART_ACT]) :=
  ⟨7, 31, MG_PART_ACT, by decide, by decide, by simp⟩

theorem witness_RegionsAtReset_2 :
    ∃ (s : State) (a : Access) (t : AccType) (addr m off : Nat),
    (place s addr = .gated m off) ∧ ((∀ r, r < 32 → ctrlState (s.reg (MG_CTRL m r)) = 0)) :=
  ⟨fresh, auth, .r, 0x2000000, 6, 0, by decide +kernel⟩

theorem witness_MapAccesses_1 :
    ∃ (a : Access) (addr : BitVec 40) (v : Word) (s : State),
    (addr.toNat < 0x1000000) ∧ (addr.toNat % 4 = 0) ∧ (Reaches s a .w addr.toNat) :=
  ⟨desk, 0x350000, 31, run, by decide +kernel⟩

theorem witness_MapAccesses_2 :
    ∃ (a : Access) (addr : BitVec 40) (be : BitVec 4) (v : Word) (s : State),
    let u := modeSeen s a; (u.carries a addr.toNat = false) :=
  ⟨host 0, 0x350000, 0xE, 5, run, by decide +kernel⟩

theorem witness_MapAccesses_3 :
    ∃ (a : Access) (addr : BitVec 40) (be : BitVec 4) (v : Word) (s : State),
    let u := modeSeen s a; (u.carries a addr.toNat = true) ∧ (0x1000000 ≤ addr.toNat) ∧ (listed u addr.toNat = true) :=
  ⟨desk, 0x1000000, 15, 5, run, by decide +kernel⟩

theorem witness_MapAccesses_4 :
    ∃ (a : Access) (addr : BitVec 40) (be : BitVec 4) (v : Word) (s : State),
    let u := modeSeen s a; (u.carries a addr.toNat = true) ∧ (0x1000000 ≤ addr.toNat) ∧ (listed u addr.toNat = false) ∧ (u.ctl.core = true) ∧ (debugBarred u a = false) ∧ (addr.toNat / 0x1000 = (addr.toNat + 3) / 0x1000) ∧ (mustWait u { acc := a, typ := .w, addr := addr.toNat, len := 4 } = false) :=
  ⟨⟨9, 31, .p2⟩, 0x500000000, 15, 5, run, by decide +kernel⟩

theorem witness_MapAccesses_5 :
    ∃ (a : Access) (addr : BitVec 40) (be : BitVec 4) (v : Word) (r : State),
    (addr.toNat < 0x1000000) ∧ ((be ≠ 0xF ∨ addr.toNat % 4 ≠ 0)) ∧ let s := modeSeen r a; let dec := regDec s a .w (addr.toNat / 4 * 4); (s.carries a addr.toNat = true) ∧ (fromDesk a = false) ∧ (dec = .go) :=
  ⟨auth, 0x350000, 0xE, 5, run, by decide +kernel⟩

theorem witness_MapAccesses_6 :
    ∃ (a : Access) (addr : BitVec 40) (be : BitVec 4) (v : Word) (r : State),
    (addr.toNat < 0x1000000) ∧ ((be ≠ 0xF ∨ addr.toNat % 4 ≠ 0)) ∧ let s := modeSeen r a; let dec := regDec s a .w (addr.toNat / 4 * 4); (s.carries a addr.toNat = true) ∧ (fromDesk a = false) ∧ (dec = .ignored) :=
  ⟨auth, 0x460000, 1, 5, run, by decide +kernel⟩

theorem witness_MapAccesses_7 :
    ∃ (a : Access) (addr : BitVec 40) (be : BitVec 4) (v : Word) (r : State) (g : Nat),
    (addr.toNat < 0x1000000) ∧ ((be ≠ 0xF ∨ addr.toNat % 4 ≠ 0)) ∧ let s := modeSeen r a; let dec := regDec s a .w (addr.toNat / 4 * 4); (s.carries a addr.toNat = true) ∧ (fromDesk a = false) ∧ (dec = .violation g) :=
  ⟨host 0, 0x50001, 0xF, 5, withRegs [(HIF_HP_PRIM 0, 0)] run, 5, by decide +kernel⟩

theorem witness_MapAccesses_8 :
    ∃ (a : Access) (addr : BitVec 40) (be : BitVec 4) (v : Word) (r : State),
    (addr.toNat < 0x1000000) ∧ ((be ≠ 0xF ∨ addr.toNat % 4 ≠ 0)) ∧ let s := modeSeen r a; let dec := regDec s a .w (addr.toNat / 4 * 4); (s.carries a addr.toNat = true) ∧ (fromDesk a = false) ∧ (dec = .held) :=
  ⟨auth, 0x50001, 0xF, 5, withRegs [(GATE_PS_CTRL 5, 2)] run, by decide +kernel⟩

theorem witness_MapAccesses_9 :
    ∃ (a : Access) (addr : BitVec 40) (be : BitVec 4) (v : Word) (r : State),
    (addr.toNat < 0x1000000) ∧ ((be ≠ 0xF ∨ addr.toNat % 4 ≠ 0)) ∧ let s := modeSeen r a; (s.carries a addr.toNat = true) ∧ (fromDesk a = true) :=
  ⟨desk, 0x350000, 0xE, 5, run, by decide +kernel⟩

theorem witness_MapAccesses_10 :
    ∃ (a : Access) (bar2 : Bool) (t : AccType) (addr : BitVec 40) (len : Nat) (bs : Bytes) (s : State),
    let s1 := modeDrawn s a; (canAccess s1 a bar2 addr.toNat = false) :=
  ⟨host 0, false, .w, 0x350000, 4, [1, 2, 3, 4], run, by decide +kernel⟩

theorem witness_MapAccesses_11 :
    ∃ (a : Access) (bar2 : Bool) (t : AccType) (addr : BitVec 40) (len : Nat) (bs : Bytes) (s : State) (g : Nat × Nat),
    let s1 := modeDrawn s a; let n := mapAddr s a bar2 addr.toNat; (canAccess s1 a bar2 addr.toNat = true) ∧ (bar2 = true) ∧ (t = .w) ∧ (a.level = .p0) ∧ (gateAt s1 n = some g) :=
  ⟨host 0, true, .w, 0xFFFFFFF, 1, [1], withRegs [(HIF_HP_PRIM 0, 0), (HIF_HP_BAR2_BASE 0, 0x1800)] run, (70, 0), by decide +kernel⟩

theorem witness_MapAccesses_12 :
    ∃ (a : Access) (bar2 : Bool) (t : AccType) (addr : BitVec 40) (len : Nat) (bs : Bytes) (s : State),
    let s1 := modeDrawn s a; let n := mapAddr s a bar2 addr.toNat; (canAccess s1 a bar2 addr.toNat = true) ∧ (bar2 = true) ∧ (t = .w) ∧ (a.level = .p0) ∧ (gateAt s1 n = none) :=
  ⟨host 0, true, .w, 0xFFFFFFF, 1, [1], withRegs [(HIF_HP_PRIM 0, 0), (HIF_HP_BAR2_BASE 0, 0x5000)] run, by decide +kernel⟩

theorem witness_MapAccesses_13 :
    ∃ (a : Access) (bar2 : Bool) (t : AccType) (addr : BitVec 40) (len : Nat) (bs : Bytes) (s : State) (e : Exc),
    let s1 := modeDrawn s a; let n := mapAddr s a bar2 addr.toNat; (canAccess s1 a bar2 addr.toNat = true) ∧ (¬ (bar2 = true ∧ t = .w ∧ a.level = .p0)) ∧ (deskStops s1 a t n len = some e) :=
  ⟨⟨9, 31, .p1⟩, false, .r, 0x180000001, 4, [], run, .loadMisaligned, by decide +kernel⟩

theorem witness_MapAccesses_14 :
    ∃ (a : Access) (bar2 : Bool) (t : AccType) (addr : BitVec 40) (len : Nat) (bs : Bytes) (s : State),
    let s1 := modeDrawn s a; let n := mapAddr s a bar2 addr.toNat; (canAccess s1 a bar2 addr.toNat = true) ∧ (¬ (bar2 = true ∧ t = .w ∧ a.level = .p0)) ∧ (deskStops s1 a t n len = none) ∧ (0x1000000 ≤ n) ∧ (0 < len) ∧ (n / 0x1000 = (n + len - 1) / 0x1000) ∧ ((debugBarred s1 a = true ∨ memPowered s1 n = false)) :=
  ⟨⟨0, 31, .debug⟩, true, .r, 0, 8, [], withRegs [(HIF_HP_DEBUG 0, 1), (HIF_HP_BAR2_BASE 0, 0x1800)] run, by decide +kernel⟩

theorem witness_MapAccesses_15 :
    ∃ (a : Access) (bar2 : Bool) (t : AccType) (addr : BitVec 40) (len : Nat) (bs : Bytes) (s : State),
    let s1 := modeDrawn s a; let n := mapAddr s a bar2 addr.toNat; let waits := (memDec s1 a t n).1 = .held ∨ mustWait s1 { acc := a, typ := t, addr := n, len := len } = true; (canAccess s1 a bar2 addr.toNat = true) ∧ (¬ (bar2 = true ∧ t = .w ∧ a.level = .p0)) ∧ (deskStops s1 a t n len = none) ∧ (0x1000000 ≤ n) ∧ (0 < len) ∧ (n / 0x1000 = (n + len - 1) / 0x1000) ∧ (debugBarred s1 a = false) ∧ (memPowered s1 n = true) ∧ (t = .w) ∧ (bs.length = len) ∧ (waits) :=
  ⟨⟨9, 31, .p1⟩, false, .w, 0x180000ff8, 8, [1, 2, 3, 4, 5, 6, 7, 8], heldAt 0x180000000 run, by decide +kernel⟩

theorem witness_MapAccesses_16 :
    ∃ (a : Access) (bar2 : Bool) (t : AccType) (addr : BitVec 40) (len : Nat) (bs : Bytes) (s : State),
    let s1 := modeDrawn s a; let n := mapAddr s a bar2 addr.toNat; let waits := (memDec s1 a t n).1 = .held ∨ mustWait s1 { acc := a, typ := t, addr := n, len := len } = true; (canAccess s1 a bar2 addr.toNat = true) ∧ (¬ (bar2 = true ∧ t = .w ∧ a.level = .p0)) ∧ (deskStops s1 a t n len = none) ∧ (0x1000000 ≤ n) ∧ (0 < len) ∧ (n / 0x1000 = (n + len - 1) / 0x1000) ∧ (debugBarred s1 a = false) ∧ (memPowered s1 n = true) ∧ (t = .w) ∧ (bs.length = len) ∧ (¬ waits) ∧ ((memDec s1 a t n).1 = .ok) :=
  ⟨⟨9, 31, .p1⟩, false, .w, 0x180000ff8, 8, [1, 2, 3, 4, 5, 6, 7, 8], run, by decide +kernel⟩

theorem witness_MapAccesses_17 :
    ∃ (a : Access) (bar2 : Bool) (t : AccType) (addr : BitVec 40) (len : Nat) (bs : Bytes) (s : State) (g : Nat) (x : Nat),
    let s1 := modeDrawn s a; let n := mapAddr s a bar2 addr.toNat; let waits := (memDec s1 a t n).1 = .held ∨ mustWait s1 { acc := a, typ := t, addr := n, len := len } = true; (canAccess s1 a bar2 addr.toNat = true) ∧ (¬ (bar2 = true ∧ t = .w ∧ a.level = .p0)) ∧ (deskStops s1 a t n len = none) ∧ (0x1000000 ≤ n) ∧ (0 < len) ∧ (n / 0x1000 = (n + len - 1) / 0x1000) ∧ (debugBarred s1 a = false) ∧ (memPowered s1 n = true) ∧ (t = .w) ∧ (bs.length = len) ∧ (¬ waits) ∧ (memDec s1 a t n = (.denied, g, x)) :=
  ⟨⟨9, 31, .p1⟩, false, .w, 0x180000ff8, 8, [1, 2, 3, 4, 5, 6, 7, 8], shut run, 70, (memDec (modeDrawn (shut run) ⟨9, 31, .p1⟩) ⟨9, 31, .p1⟩ .w 0x180000ff8).2.2, by decide +kernel⟩

theorem witness_MapAccesses_18 :
    ∃ (a : Access) (bar2 : Bool) (t : AccType) (addr : BitVec 40) (len : Nat) (bs : Bytes) (s : State),
    let s1 := modeDrawn s a; let n := mapAddr s a bar2 addr.toNat; let waits := (memDec s1 a t n).1 = .held ∨ mustWait s1 { acc := a, typ := t, addr := n, len := len } = true; (canAccess s1 a bar2 addr.toNat = true) ∧ (¬ (bar2 = true ∧ t = .w ∧ a.level = .p0)) ∧ (deskStops s1 a t n len = none) ∧ (0x1000000 ≤ n) ∧ (0 < len) ∧ (n / 0x1000 = (n + len - 1) / 0x1000) ∧ (debugBarred s1 a = false) ∧ (memPowered s1 n = true) ∧ (t = .w) ∧ (bs.length = len) ∧ (¬ waits) ∧ ((memDec s1 a t n).1 = .unmapped) :=
  ⟨⟨9, 31, .p1⟩, false, .w, 0x500000000, 4, [1, 2, 3, 4], run, by decide +kernel⟩

theorem witness_MapAccesses_19 :
    ∃ (a : Access) (bar2 : Bool) (t : AccType) (addr : BitVec 40) (len : Nat) (bs : Bytes) (s : State),
    let s1 := modeDrawn s a; let n := mapAddr s a bar2 addr.toNat; let waits := (memDec s1 a t n).1 = .held ∨ mustWait s1 { acc := a, typ := t, addr := n, len := len } = true; (canAccess s1 a bar2 addr.toNat = true) ∧ (¬ (bar2 = true ∧ t = .w ∧ a.level = .p0)) ∧ (deskStops s1 a t n len = none) ∧ (0x1000000 ≤ n) ∧ (0 < len) ∧ (n / 0x1000 = (n + len - 1) / 0x1000) ∧ (debugBarred s1 a = false) ∧ (memPowered s1 n = true) ∧ (t ≠ .w) ∧ (waits) :=
  ⟨⟨9, 31, .p1⟩, false, .r, 0x180000ff8, 8, [], heldAt 0x180000000 run, by decide +kernel⟩

theorem witness_MapAccesses_20 :
    ∃ (a : Access) (bar2 : Bool) (t : AccType) (addr : BitVec 40) (len : Nat) (bs : Bytes) (s : State),
    let s1 := modeDrawn s a; let n := mapAddr s a bar2 addr.toNat; let waits := (memDec s1 a t n).1 = .held ∨ mustWait s1 { acc := a, typ := t, addr := n, len := len } = true; (canAccess s1 a bar2 addr.toNat = true) ∧ (¬ (bar2 = true ∧ t = .w ∧ a.level = .p0)) ∧ (deskStops s1 a t n len = none) ∧ (0x1000000 ≤ n) ∧ (0 < len) ∧ (n / 0x1000 = (n + len - 1) / 0x1000) ∧ (debugBarred s1 a = false) ∧ (memPowered s1 n = true) ∧ (t ≠ .w) ∧ (¬ waits) ∧ ((memDec s1 a t n).1 = .ok) :=
  ⟨⟨9, 31, .p1⟩, false, .r, 0x180000ff8, 8, [], run.store 0x180000ffa [9], by decide +kernel⟩

theorem witness_MapAccesses_21 :
    ∃ (a : Access) (bar2 : Bool) (t : AccType) (addr : BitVec 40) (len : Nat) (bs : Bytes) (s : State) (g : Nat) (x : Nat),
    let s1 := modeDrawn s a; let n := mapAddr s a bar2 addr.toNat; let waits := (memDec s1 a t n).1 = .held ∨ mustWait s1 { acc := a, typ := t, addr := n, len := len } = true; (canAccess s1 a bar2 addr.toNat = true) ∧ (¬ (bar2 = true ∧ t = .w ∧ a.level = .p0)) ∧ (deskStops s1 a t n len = none) ∧ (0x1000000 ≤ n) ∧ (0 < len) ∧ (n / 0x1000 = (n + len - 1) / 0x1000) ∧ (debugBarred s1 a = false) ∧ (memPowered s1 n = true) ∧ (t ≠ .w) ∧ (¬ waits) ∧ (memDec s1 a t n = (.denied, g, x)) :=
  ⟨⟨9, 31, .p1⟩, false, .r, 0x180000ff8, 8, [], shut run, 70, (memDec (modeDrawn (shut run) ⟨9, 31, .p1⟩) ⟨9, 31, .p1⟩ .r 0x180000ff8).2.2, by decide +kernel⟩

theorem witness_MapAccesses_22 :
    ∃ (a : Access) (bar2 : Bool) (t : AccType) (addr : BitVec 40) (len : Nat) (bs : Bytes) (s : State),
    let s1 := modeDrawn s a; let n := mapAddr s a bar2 addr.toNat; let waits := (memDec s1 a t n).1 = .held ∨ mustWait s1 { acc := a, typ := t, addr := n, len := len } = true; (canAccess s1 a bar2 addr.toNat = true) ∧ (¬ (bar2 = true ∧ t = .w ∧ a.level = .p0)) ∧ (deskStops s1 a t n len = none) ∧ (0x1000000 ≤ n) ∧ (0 < len) ∧ (n / 0x1000 = (n + len - 1) / 0x1000) ∧ (debugBarred s1 a = false) ∧ (memPowered s1 n = true) ∧ (t ≠ .w) ∧ (¬ waits) ∧ ((memDec s1 a t n).1 = .unmapped) :=
  ⟨⟨9, 31, .p1⟩, false, .r, 0x500000000, 4, [], run, by decide +kernel⟩

theorem witness_EvcRequests_1 :
    ∃ (s : State),
    (s.evcStop = false) :=
  ⟨run, by decide +kernel⟩

theorem witness_EvcRequests_2 :
    ∃ (s : State),
    (evcRuns s = false) :=
  ⟨{ run with pwr := { halted := true } }, by decide +kernel⟩

theorem witness_EvcRequests_3 :
    ∃ (a : Access) (v : Word) (s : State),
    (evcRuns s = false) ∧ (Reaches s a .w EVC_SETPEND) :=
  ⟨auth, 5, { run with pwr := { halted := true } }, by decide +kernel⟩

theorem witness_EvcRequests_4 :
    ∃ (a : Access) (v : Word) (s : State),
    (evcRuns s = false) ∧ (Reaches s a .w EVC_CLRPEND) :=
  ⟨auth, 5, { run with pwr := { halted := true } }, by decide +kernel⟩

theorem witness_EvcRequests_5 :
    ∃ (a : Access) (v : Word) (s : State),
    (Reaches s a .w EVC_SETPEND) ∧ (evcRuns s = true) ∧ let i := bitsOf v.toNat 0 10; ((i = 0 ∨ 512 ≤ i ∨ srcPrio s i = 0)) :=
  ⟨desk, 512, run, by decide +kernel⟩

theorem witness_EvcRequests_6 :
    ∃ (a : Access) (v : Word) (s : State),
    (Reaches s a .w EVC_SETPEND) ∧ (evcRuns s = true) ∧ let i := bitsOf v.toNat 0 10; (1 ≤ i) ∧ (i ≤ 511) ∧ (1 ≤ srcPrio s i) ∧ ((s.src i).pending = false) :=
  ⟨desk, 511, withRegs [(EVC_SRC_CFG 511, 0xF1F)] run, by decide +kernel⟩

theorem witness_EvcRequests_7 :
    ∃ (a : Access) (v : Word) (s : State),
    (Reaches s a .w EVC_SETPEND) ∧ (evcRuns s = true) ∧ let i := bitsOf v.toNat 0 10; (1 ≤ i) ∧ (i ≤ 511) ∧ (1 ≤ srcPrio s i) ∧ ((s.src i).pending = true) :=
  ⟨desk, 511, withRegs [(EVC_SRC_CFG 511, 0xF1F)] { run with srcs := [(511, { pending := true })] }, by decide +kernel⟩

theorem witness_EvcRequests_8 :
    ∃ (a : Access) (v : Word) (s : State),
    (Reaches s a .w EVC_CLRPEND) ∧ (evcRuns s = true) ∧ let i := bitsOf v.toNat 0 10; ((i = 0 ∨ 512 ≤ i ∨ srcPrio s i = 0)) :=
  ⟨desk, 512, run, by decide +kernel⟩

theorem witness_EvcRequests_9 :
    ∃ (a : Access) (v : Word) (s : State),
    (Reaches s a .w EVC_CLRPEND) ∧ (evcRuns s = true) ∧ let i := bitsOf v.toNat 0 10; (1 ≤ i) ∧ (i ≤ 511) ∧ (1 ≤ srcPrio s i) :=
  ⟨desk, 511, withRegs [(EVC_SRC_CFG 511, 0xF1F)] run, by decide +kernel⟩

theorem witness_EvcRequests_10 :
    ∃ (id : Fin 512) (level : Bool) (s : State),
    let i := id.val; ((i = 0 ∨ 58 ≤ i ∨ s.ctl.core = false)) :=
  ⟨58, true, run, by decide +kernel⟩

theorem witness_EvcRequests_11 :
    ∃ (id : Fin 512) (level : Bool) (s : State),
    let i := id.val; (1 ≤ i) ∧ (i ≤ 57) ∧ (s.ctl.core = true) ∧ (s.pwr.halted = true) :=
  ⟨57, true, { run with pwr := { halted := true } }, by decide +kernel⟩

theorem witness_EvcRequests_12 :
    ∃ (id : Fin 512) (level : Bool) (s : State),
    let i := id.val; (1 ≤ i) ∧ (i ≤ 57) ∧ (s.ctl.core = true) ∧ (s.pwr.halted = false) :=
  ⟨57, true, withRegs [(EVC_SRC_CFG 57, 0xF01)] run, by decide +kernel⟩

theorem witness_EvcService_1 :
    ∃ (s : State) (k i : Nat) (j : Nat),
    (twf (fun _ => ({} : Src)) s.srcs = true) ∧ (claimOf s k = some i) ∧ (offered s k j = true) :=
  ⟨withRegs [(EVC_SRC_CFG 5, 0xF1F), (EVC_SRC_CFG 9, 0xF1F), (DSK_CTRL, 10)] { run with srcs := [(5, { pending := true }), (9, { pending := true })] }, 3, 5, 9, by decide +kernel⟩

theorem witness_EvcService_2 :
    ∃ (a : Access) (k : Fin 4) (v : Word) (s : State),
    (evcRuns s = false) ∧ (Reaches s a .w (EVC_CORE_CLAIM k.val)) :=
  ⟨auth, 1, 5, { run with pwr := { halted := true } }, by decide +kernel⟩

theorem witness_EvcService_3 :
    ∃ (a : Access) (k : Fin 4) (v : Word) (s : State),
    (evcRuns s = false) ∧ (Reaches s a .w (EVC_CORE_EOI k.val)) :=
  ⟨auth, 1, 5, { run with pwr := { halted := true } }, by decide +kernel⟩

theorem witness_EvcService_4 :
    ∃ (a : Access) (k : Fin 4) (v : Word) (s : State) (i : Nat),
    (Reaches s a .w (EVC_CORE_CLAIM k.val)) ∧ (evcRuns s = true) ∧ (claimOf s k.val = some i) ∧ (i < 1024) :=
  ⟨desk, 3, 0, withRegs [(EVC_SRC_CFG 5, 0xF1F), (EVC_SRC_CFG 9, 0xF1F), (DSK_CTRL, 10)] { run with srcs := [(5, { pending := true }), (9, { pending := true })] }, 5, by decide +kernel⟩

theorem witness_EvcService_5 :
    ∃ (a : Access) (k : Fin 4) (v : Word) (s : State),
    (Reaches s a .w (EVC_CORE_CLAIM k.val)) ∧ (evcRuns s = true) ∧ (claimOf s k.val = none) :=
  ⟨desk, 3, 0, run, by decide +kernel⟩

theorem witness_EvcService_6 :
    ∃ (a : Access) (k : Fin 4) (v : Word) (s : State),
    (Reaches s a .w (EVC_CORE_EOI k.val)) ∧ (evcRuns s = true) ∧ let i := bitsOf v.toNat 0 10; ((i = 0 ∨ i = 1023)) :=
  ⟨desk, 3, 0, run, by decide +kernel⟩

theorem witness_EvcService_7 :
    ∃ (a : Access) (k : Fin 4) (v : Word) (s : State) (e : Nat × Nat) (rest : List (Nat × Nat)),
    (Reaches s a .w (EVC_CORE_EOI k.val)) ∧ (evcRuns s = true) ∧ let i := bitsOf v.toNat 0 10; (i ≠ 0) ∧ (i ≠ 1023) ∧ ((s.desk k.val).stack = e :: rest) ∧ (e.1 = i) :=
  ⟨desk, 3, 5, withRegs [(EVC_SRC_CFG 5, 0xF3F)] { run with srcs := [(5, { serv := true, input := true, core := 3 })], desks := [(3, { stack := [(5, 31), (9, 1)] })] }, (5, 31), [(9, 1)], by decide +kernel⟩

theorem witness_EvcService_8 :
    ∃ (a : Access) (k : Fin 4) (v : Word) (s : State),
    (Reaches s a .w (EVC_CORE_EOI k.val)) ∧ (evcRuns s = true) ∧ let i := bitsOf v.toNat 0 10; (i ≠ 0) ∧ (i ≠ 1023) ∧ (((s.desk k.val).stack.map (·.1)).head? ≠ some i) :=
  ⟨desk, 3, 9, { run with desks := [(3, { stack := [(5, 31), (9, 1)] })] }, by decide +kernel⟩

theorem witness_DeskCores_1 :
    ∃ (a : Access) (v : Word) (s : State),
    (Reaches s a .w DSK_CTRL) ∧ (evcRuns s = false) :=
  ⟨auth, 8, { run with pwr := { halted := true } }, by decide +kernel⟩

theorem witness_DeskCores_2 :
    ∃ (a : Access) (v : Word) (s : State),
    (Reaches s a .w DSK_CTRL) ∧ (evcRuns s = true) :=
  ⟨desk, 8, run, by decide +kernel⟩

theorem witness_DeskCores_3 :
    ∃ (k : Fin 4) (s : State),
    let runs := evcRuns s = true; let canSleep := runs ∧ s.bit DSK_CTRL k.val = true ∧ (s.desk k.val).halted = false ∧ (s.desk k.val).wfi = false; (canSleep) :=
  ⟨3, withRegs [(DSK_CTRL, 8), (DSK_CORE_CFG 3, 1)] run, by decide +kernel⟩

theorem witness_DeskCores_4 :
    ∃ (k : Fin 4) (s : State),
    let runs := evcRuns s = true; let canSleep := runs ∧ s.bit DSK_CTRL k.val = true ∧ (s.desk k.val).halted = false ∧ (s.desk k.val).wfi = false; (¬ canSleep) :=
  ⟨3, run, by decide +kernel⟩

theorem witness_DeskCores_5 :
    ∃ (k : Fin 4) (s : State),
    let runs := evcRuns s = true; let d := s.desk k.val; (runs) ∧ (d.asleep = true) ∧ (d.wake = true) :=
  ⟨3, { run with desks := [(3, { asleep := true, wake := true })], evcStop := true }, by decide +kernel⟩

theorem witness_DeskCores_6 :
    ∃ (k : Fin 4) (s : State),
    let runs := evcRuns s = true; let d := s.desk k.val; ((¬ runs ∨ d.asleep = false ∨ d.wake = false)) :=
  ⟨3, run, by decide +kernel⟩

theorem witness_DeskCores_7 :
    ∃ (k : Fin 4) (s : State),
    let runs := evcRuns s = true; let d := s.desk k.val; (runs) ∧ (d.wfi = true) ∧ (timerDue s k.val = true) ∧ (mip s k.val &&& d.mie ≠ 0) :=
  ⟨3, at_ 5000 (withRegs [(DSK_CORE_MTIMECMP_LO 3, 5), (DSK_CORE_MTIMECMP_HI 3, 0)] { run with desks := [(3, { wfi := true, mie := 128 })] }), by decide +kernel⟩

theorem witness_DeskCores_8 :
    ∃ (k : Fin 4) (s : State),
    let runs := evcRuns s = true; let d := s.desk k.val; ((¬ runs ∨ d.wfi = false ∨ timerDue s k.val = false ∨ mip s k.val &&& d.mie = 0)) :=
  ⟨3, run, by decide +kernel⟩

theorem witness_DeskCores_9 :
    ∃ (a : Access) (c : CoreOp) (t : AccType) (addr : BitVec 40) (len : Nat) (data : Bytes) (s : State),
    (s.ctl.core = true) ∧ (fromDesk a = true) ∧ (c ≠ .plain) ∧ let s1 := modeDrawn s a; let n := addr.toNat; (canAccess s1 a false n = false) :=
  ⟨⟨8, 31, .p1⟩, .lr true true, .r, 0x2000000, 4, [], run, by decide +kernel⟩

theorem witness_DeskCores_10 :
    ∃ (a : Access) (c : CoreOp) (t : AccType) (addr : BitVec 40) (len : Nat) (data : Bytes) (s : State) (pred : BitVec 4) (succ : BitVec 4),
    (s.ctl.core = true) ∧ (fromDesk a = true) ∧ (c ≠ .plain) ∧ let s1 := modeDrawn s a; let n := addr.toNat; (canAccess s1 a false n = true) ∧ (c = .fence pred succ) :=
  ⟨⟨9, 31, .p1⟩, .fence 3 3, .r, 0, 0, [], run, 3, 3, by decide +kernel⟩

theorem witness_DeskCores_11 :
    ∃ (a : Access) (c : CoreOp) (t : AccType) (addr : BitVec 40) (len : Nat) (data : Bytes) (s : State),
    (s.ctl.core = true) ∧ (fromDesk a = true) ∧ (c ≠ .plain) ∧ let s1 := modeDrawn s a; let n := addr.toNat; (canAccess s1 a false n = true) ∧ ((∀ pred succ, c ≠ .fence pred succ)) ∧ (targetOf s1 n ≠ 6) :=
  ⟨⟨9, 31, .p1⟩, .amo .add true false, .w, 0x180000000, 4, [1, 0, 0, 0], run, by decide +kernel⟩

theorem witness_DeskCores_12 :
    ∃ (a : Access) (c : CoreOp) (t : AccType) (addr : BitVec 40) (len : Nat) (data : Bytes) (s : State),
    (s.ctl.core = true) ∧ (fromDesk a = true) ∧ (c ≠ .plain) ∧ let s1 := modeDrawn s a; let n := addr.toNat; let h : HeldAcc := { acc := a, typ := t, addr := n, len := len, data := sliceB data 0 len, core := c }; (canAccess s1 a false n = true) ∧ ((∀ pred succ, c ≠ .fence pred succ)) ∧ (targetOf s1 n = 6) ∧ (partWaits s1 h (n, len) = true) :=
  ⟨⟨9, 31, .p1⟩, .amo .add true false, .w, 0x2000000, 4, [1, 0, 0, 0], withRegs [(MG_CTRL 6 31, 2), (MG_BASE_ACT 6 31, 0x15000000)] run, by decide +kernel⟩

theorem witness_DeskCores_13 :
    ∃ (a : Access) (c : CoreOp) (t : AccType) (addr : BitVec 40) (len : Nat) (data : Bytes) (s : State) (op : AmoOp) (aq : Bool) (rl : Bool) (g : Nat) (x : Nat),
    (s.ctl.core = true) ∧ (fromDesk a = true) ∧ (c ≠ .plain) ∧ let s1 := modeDrawn s a; let n := addr.toNat; let h : HeldAcc := { acc := a, typ := t, addr := n, len := len, data := sliceB data 0 len, core := c }; (canAccess s1 a false n = true) ∧ ((∀ pred succ, c ≠ .fence pred succ)) ∧ (targetOf s1 n = 6) ∧ (partWaits s1 h (n, len) = false) ∧ (c = .amo op aq rl) ∧ (memDec s1 a .r n = (.denied, g, x)) :=
  ⟨⟨9, 31, .p1⟩, .amo .add true false, .w, 0x21FFFFC, 4, [1, 0, 0, 0], run, .add, true, false, 76, (memDec (modeDrawn (run) ⟨9, 31, .p1⟩) ⟨9, 31, .p1⟩ .r 0x21FFFFC).2.2, by decide +kernel⟩

theorem witness_DeskCores_14 :
    ∃ (a : Access) (c : CoreOp) (t : AccType) (addr : BitVec 40) (len : Nat) (data : Bytes) (s : State) (op : AmoOp) (aq : Bool) (rl : Bool) (g : Nat) (x : Nat),
    (s.ctl.core = true) ∧ (fromDesk a = true) ∧ (c ≠ .plain) ∧ let s1 := modeDrawn s a; let n := addr.toNat; let h : HeldAcc := { acc := a, typ := t, addr := n, len := len, data := sliceB data 0 len, core := c }; (canAccess s1 a false n = true) ∧ ((∀ pred succ, c ≠ .fence pred succ)) ∧ (targetOf s1 n = 6) ∧ (partWaits s1 h (n, len) = false) ∧ (c = .amo op aq rl) ∧ ((memDec s1 a .r n).1 = .ok) ∧ (memDec s1 a .w n = (.denied, g, x)) :=
  ⟨⟨9, 31, .p1⟩, .amo .add true false, .w, 0x21FFFFC, 4, [1, 0, 0, 0], withRegs [(MG_ATTR_ACT 6 31, 0x1F001F)] (withRegs [(MG_CTRL 6 31, 1), (MG_BASE_ACT 6 31, 0x15000000), (MG_ATTR_ACT 6 31, 0x1F1F1F), (MG_PART_ACT 6 31, 0xFFFFFFFF)] run), .add, true, false, 76, (memDec (modeDrawn (withRegs [(MG_ATTR_ACT 6 31, 0x1F001F)] (withRegs [(MG_CTRL 6 31, 1), (MG_BASE_ACT 6 31, 0x15000000), (MG_ATTR_ACT 6 31, 0x1F1F1F), (MG_PART_ACT 6 31, 0xFFFFFFFF)] run)) ⟨9, 31, .p1⟩) ⟨9, 31, .p1⟩ .w 0x21FFFFC).2.2, by decide +kernel⟩

theorem witness_DeskCores_15 :
    ∃ (a : Access) (c : CoreOp) (t : AccType) (addr : BitVec 40) (len : Nat) (data : Bytes) (s : State) (op : AmoOp) (aq : Bool) (rl : Bool),
    (s.ctl.core = true) ∧ (fromDesk a = true) ∧ (c ≠ .plain) ∧ let s1 := modeDrawn s a; let n := addr.toNat; let h : HeldAcc := { acc := a, typ := t, addr := n, len := len, data := sliceB data 0 len, core := c }; (canAccess s1 a false n = true) ∧ ((∀ pred succ, c ≠ .fence pred succ)) ∧ (targetOf s1 n = 6) ∧ (partWaits s1 h (n, len) = false) ∧ (c = .amo op aq rl) ∧ ((memDec s1 a .r n).1 = .ok) ∧ ((memDec s1 a .w n).1 = .ok) :=
  ⟨⟨9, 31, .p1⟩, .amo .add true false, .w, 0x21FFFFC, 4, [1, 0, 0, 0], withRegs [(MG_CTRL 6 31, 1), (MG_BASE_ACT 6 31, 0x15000000), (MG_ATTR_ACT 6 31, 0x1F1F1F), (MG_PART_ACT 6 31, 0xFFFFFFFF)] run, .add, true, false, by decide +kernel⟩

theorem witness_DeskCores_16 :
    ∃ (a : Access) (c : CoreOp) (t : AccType) (addr : BitVec 40) (len : Nat) (data : Bytes) (s : State) (aq : Bool) (rl : Bool) (g : Nat) (x : Nat),
    (s.ctl.core = true) ∧ (fromDesk a = true) ∧ (c ≠ .plain) ∧ let s1 := modeDrawn s a; let n := addr.toNat; let h : HeldAcc := { acc := a, typ := t, addr := n, len := len, data := sliceB data 0 len, core := c }; (canAccess s1 a false n = true) ∧ ((∀ pred succ, c ≠ .fence pred succ)) ∧ (targetOf s1 n = 6) ∧ (partWaits s1 h (n, len) = false) ∧ (c = .lr aq rl) ∧ (memDec s1 a .r n = (.denied, g, x)) :=
  ⟨⟨9, 31, .p1⟩, .lr true true, .r, 0x2000000, 8, [], run, true, true, 76, (memDec (modeDrawn (run) ⟨9, 31, .p1⟩) ⟨9, 31, .p1⟩ .r 0x2000000).2.2, by decide +kernel⟩

theorem witness_DeskCores_17 :
    ∃ (a : Access) (c : CoreOp) (t : AccType) (addr : BitVec 40) (len : Nat) (data : Bytes) (s : State) (aq : Bool) (rl : Bool),
    (s.ctl.core = true) ∧ (fromDesk a = true) ∧ (c ≠ .plain) ∧ let s1 := modeDrawn s a; let n := addr.toNat; let h : HeldAcc := { acc := a, typ := t, addr := n, len := len, data := sliceB data 0 len, core := c }; (canAccess s1 a false n = true) ∧ ((∀ pred succ, c ≠ .fence pred succ)) ∧ (targetOf s1 n = 6) ∧ (partWaits s1 h (n, len) = false) ∧ (c = .lr aq rl) ∧ ((memDec s1 a .r n).1 = .ok) :=
  ⟨⟨9, 31, .p1⟩, .lr true true, .r, 0x2000000, 8, [], withRegs [(MG_CTRL 6 31, 1), (MG_BASE_ACT 6 31, 0x15000000), (MG_ATTR_ACT 6 31, 0x1F1F1F), (MG_PART_ACT 6 31, 0xFFFFFFFF)] run, true, true, by decide +kernel⟩

theorem witness_DeskCores_18 :
    ∃ (a : Access) (c : CoreOp) (t : AccType) (addr : BitVec 40) (len : Nat) (data : Bytes) (s : State) (aq : Bool) (rl : Bool) (g : Nat) (x : Nat),
    (s.ctl.core = true) ∧ (fromDesk a = true) ∧ (c ≠ .plain) ∧ let s1 := modeDrawn s a; let n := addr.toNat; let h : HeldAcc := { acc := a, typ := t, addr := n, len := len, data := sliceB data 0 len, core := c }; (canAccess s1 a false n = true) ∧ ((∀ pred succ, c ≠ .fence pred succ)) ∧ (targetOf s1 n = 6) ∧ (partWaits s1 h (n, len) = false) ∧ (c = .sc aq rl) ∧ (memDec s1 a .w n = (.denied, g, x)) :=
  ⟨⟨9, 31, .p1⟩, .sc false true, .w, 0x2000000, 4, [1, 0, 0, 0], run, false, true, 76, (memDec (modeDrawn (run) ⟨9, 31, .p1⟩) ⟨9, 31, .p1⟩ .w 0x2000000).2.2, by decide +kernel⟩

theorem witness_DeskCores_19 :
    ∃ (a : Access) (c : CoreOp) (t : AccType) (addr : BitVec 40) (len : Nat) (data : Bytes) (s : State) (aq : Bool) (rl : Bool),
    (s.ctl.core = true) ∧ (fromDesk a = true) ∧ (c ≠ .plain) ∧ let s1 := modeDrawn s a; let n := addr.toNat; let h : HeldAcc := { acc := a, typ := t, addr := n, len := len, data := sliceB data 0 len, core := c }; let k := a.src.toNat - 8; (canAccess s1 a false n = true) ∧ ((∀ pred succ, c ≠ .fence pred succ)) ∧ (targetOf s1 n = 6) ∧ (partWaits s1 h (n, len) = false) ∧ (c = .sc aq rl) ∧ ((memDec s1 a .w n).1 = .ok) ∧ ((s1.desk k).resv ≠ some (n, len)) :=
  ⟨⟨9, 31, .p1⟩, .sc false true, .w, 0x2000000, 4, [1, 0, 0, 0], withRegs [(MG_CTRL 6 31, 1), (MG_BASE_ACT 6 31, 0x15000000), (MG_ATTR_ACT 6 31, 0x1F1F1F), (MG_PART_ACT 6 31, 0xFFFFFFFF)] run, false, true, by decide +kernel⟩

theorem witness_DeskCores_20 :
    ∃ (a : Access) (c : CoreOp) (t : AccType) (addr : BitVec 40) (len : Nat) (data : Bytes) (s : State) (aq : Bool) (rl : Bool),
    (s.ctl.core = true) ∧ (fromDesk a = true) ∧ (c ≠ .plain) ∧ let s1 := modeDrawn s a; let n := addr.toNat; let h : HeldAcc := { acc := a, typ := t, addr := n, len := len, data := sliceB data 0 len, core := c }; let k := a.src.toNat - 8; (canAccess s1 a false n = true) ∧ ((∀ pred succ, c ≠ .fence pred succ)) ∧ (targetOf s1 n = 6) ∧ (partWaits s1 h (n, len) = false) ∧ (c = .sc aq rl) ∧ ((memDec s1 a .w n).1 = .ok) ∧ ((s1.desk k).resv = some (n, len)) :=
  ⟨⟨9, 31, .p1⟩, .sc false true, .w, 0x2000000, 4, [1, 0, 0, 0], { withRegs [(MG_CTRL 6 31, 1), (MG_BASE_ACT 6 31, 0x15000000), (MG_ATTR_ACT 6 31, 0x1F1F1F), (MG_PART_ACT 6 31, 0xFFFFFFFF)] run with desks := [(1, { resv := some (0x2000000, 4) })] }, false, true, by decide +kernel⟩

theorem witness_DeskCores_21 :
    ∃ (a : Access) (n len : Nat) (s : State) (k : Nat),
    (k < 4) :=
  ⟨desk, 0x2000002, 1, { run with desks := [(3, { resv := some (0x2000000, 4) })] }, 3, by decide +kernel⟩

theorem witness_DeskReset_1 :
    ∃ (a : Access) (v : Word) (s : State) (k : Nat),
    (Reaches s a .w DSK_CTRL) ∧ (evcRuns s = true) ∧ let falls := fun (k : Nat) => k < 4 ∧ bitOf v.toNat k = false ∧ s.bit DSK_CTRL k = true; (falls k) ∧ ((∀ j, j < 4 → j ≠ k → bitOf v.toNat j = s.bit DSK_CTRL j)) :=
  ⟨desk, 2, withRegs [(DSK_CTRL, 10), (EVC_SRC_CFG 5, 0xF3F)] { run with desks := [(3, { stack := [(5, 31)], wfi := true })], srcs := [(5, { serv := true, input := true, core := 3 }), (6, { serv := true })] }, 3, by decide +kernel⟩

theorem witness_ChainLinks_1 :
    ∃ (a : Access) (p : Fin 2) (v : Word) (s : State),
    (Reaches s a .w (CHN_P_CTRL p.val)) ∧ (bitOf v.toNat 3 = false) ∧ (bitOf v.toNat 2 = true) ∧ ((s.port p.val).state = .down) :=
  ⟨desk, 1, 4, unit { state := .down } run, by decide +kernel⟩

theorem witness_ChainLinks_2 :
    ∃ (a : Access) (p : Fin 2) (v : Word) (s : State),
    (Reaches s a .w (CHN_P_CTRL p.val)) ∧ (bitOf v.toNat 3 = false) ∧ ((bitOf v.toNat 2 = false ∨ (s.port p.val).state ≠ .down)) :=
  ⟨desk, 1, 3, withRegs [(QD_LANE_STATE 6 3, 0x410000)] run, by decide +kernel⟩

theorem witness_ChainLinks_3 :
    ∃ (a : Access) (p : Fin 2) (v : Word) (s : State),
    (Reaches s a .w (CHN_P_CTRL p.val)) ∧ (bitOf v.toNat 3 = true) :=
  ⟨desk, 1, 0xC, chn, by decide +kernel⟩

theorem witness_ChainLinks_4 :
    ∃ (s : State) (p c : Nat),
    (p < 2) ∧ let q := s.port p; (q.state ≠ .up) :=
  ⟨unit { state := .ready } run, 1, 3, by decide +kernel⟩

theorem witness_ChainLinks_5 :
    ∃ (s : State) (p c : Nat),
    (p < 2) ∧ let q := s.port p; (q.state = .up) :=
  ⟨chn, 1, 2, by decide +kernel⟩

theorem witness_ChainLinks_6 :
    ∃ (p : Fin 2) (l : Fin 4) (s : State),
    let q := s.port p.val; let hears := s.ctl.ring = true ∧ q.state ≠ .down ∧ q.state ≠ .up ∧ s.fld (CHN_P_CTRL p.val) 0 2 ≠ 0 ∧ laneDeaf s (5 + p.val) l.val = false; (hears) :=
  ⟨1, 3, withRegs [(CHN_P_CTRL 1, 1)] (unit { state := .train, locked := 7 } run), by decide +kernel⟩

theorem witness_ChainLinks_7 :
    ∃ (p : Fin 2) (l : Fin 4) (s : State),
    let q := s.port p.val; let hears := s.ctl.ring = true ∧ q.state ≠ .down ∧ q.state ≠ .up ∧ s.fld (CHN_P_CTRL p.val) 0 2 ≠ 0 ∧ laneDeaf s (5 + p.val) l.val = false; (¬ hears) :=
  ⟨1, 3, unit { state := .train, locked := 7 } run, by decide +kernel⟩

theorem witness_ChainLinks_8 :
    ∃ (p : Fin 2) (skew : BitVec 4) (side : Bool) (s : State),
    let q := s.port p.val; let aligns := s.ctl.ring = true ∧ q.state = .align ∧ q.locked = 15; (aligns) :=
  ⟨1, 5, true, unit { state := .align, locked := 15 } run, by decide +kernel⟩

theorem witness_ChainLinks_9 :
    ∃ (p : Fin 2) (skew : BitVec 4) (side : Bool) (s : State),
    let q := s.port p.val; let aligns := s.ctl.ring = true ∧ q.state = .align ∧ q.locked = 15; (¬ aligns) :=
  ⟨1, 5, false, chn, by decide +kernel⟩

theorem witness_ChainLinks_10 :
    ∃ (p : Fin 2) (s : State),
    let q := s.port p.val; let ready := s.ctl.ring = true ∧ q.state = .ready ∧ q.locked = 15; (ready) :=
  ⟨1, unit { state := .ready, locked := 15 } run, by decide +kernel⟩

theorem witness_ChainLinks_11 :
    ∃ (p : Fin 2) (s : State),
    let q := s.port p.val; let ready := s.ctl.ring = true ∧ q.state = .ready ∧ q.locked = 15; (¬ ready) :=
  ⟨1, unit { state := .down } run, by decide +kernel⟩

theorem witness_ChainLinks_12 :
    ∃ (p : Fin 2) (l : Fin 4) (s : State),
    let q := s.port p.val; (s.ctl.ring = true) ∧ (q.state = .up) :=
  ⟨1, 3, chn, by decide +kernel⟩

theorem witness_ChainLinks_13 :
    ∃ (p : Fin 2) (l : Fin 4) (s : State),
    let q := s.port p.val; (s.ctl.ring = true) ∧ (q.state ≠ .up) ∧ (q.state ≠ .down) :=
  ⟨1, 3, unit { state := .train, locked := 7 } run, by decide +kernel⟩

theorem witness_ChainLinks_14 :
    ∃ (p : Fin 2) (l : Fin 4) (s : State),
    let q := s.port p.val; ((s.ctl.ring = false ∨ q.state = .down)) :=
  ⟨1, 3, unit { state := .down } run, by decide +kernel⟩

theorem witness_ChainLinks_15 :
    ∃ (a : Access) (p : Fin 2) (v : Word) (s : State),
    (Reaches s a .w (CHN_P_SLIP p.val)) :=
  ⟨desk, 1, 4, unit { state := .down } run, by decide +kernel⟩

theorem witness_ChainReplay_1 :
    ∃ (p : Fin 2) (s : State),
    (chainUp s p.val = true) :=
  ⟨1, unit { upPort with outst := [(4, 1, [7]), (5, 1, [8])], txSeq := 6, tries := 2, nakWait := false, rxSeq := 20 } run, by decide +kernel⟩

theorem witness_ChainReplay_2 :
    ∃ (p : Fin 2) (s : State) (on : Option (BitVec 4 × Bytes)),
    (chainUp s p.val = true) :=
  ⟨1, unit { upPort with outst := [(4, 1, [7]), (5, 1, [8])], txSeq := 6, tries := 2, rxSeq := 20 } run, some (6, List.replicate 28 7), by decide +kernel⟩

theorem witness_ChainReplay_3 :
    ∃ (p : Fin 2) (s : State) (c : Fin 4) (on : Option (BitVec 4 × Bytes)),
    (chainUp s p.val = true) :=
  ⟨1, unit { upPort with outst := [(4, 1, [7]), (5, 1, [8])], txSeq := 6, tries := 2, rxSeq := 20 } run, 3, some (15, List.replicate 28 7), by decide +kernel⟩

theorem witness_ChainReplay_4 :
    ∃ (p : Fin 2) (x : BadFlit) (n : BitVec 32) (cr : BitVec 64) (c : Fin 4) (s : State),
    (chainUp s p.val = false) :=
  ⟨1, .poisoned 2 none, 5, 7, 3, unit { state := .ready, locked := 15 } run, by decide +kernel⟩

theorem witness_ChainReplay_5 :
    ∃ (s : State) (p : Nat) (fs : List (BitVec 32 × BitVec 4 × Bytes)),
    (fs = []) :=
  ⟨chn, 1, [], by decide +kernel⟩

theorem witness_ChainReplay_6 :
    ∃ (s : State) (p : Nat) (fs : List (BitVec 32 × BitVec 4 × Bytes)),
    (fs ≠ []) ∧ (8 ≤ (s.port p).tries) :=
  ⟨unit { upPort with tries := 8 } run, 1, [(4, 1, [7]), (5, 1, [8])], by decide +kernel⟩

theorem witness_ChainReplay_7 :
    ∃ (s : State) (p : Nat) (fs : List (BitVec 32 × BitVec 4 × Bytes)),
    (fs ≠ []) ∧ ((s.port p).tries < 8) :=
  ⟨unit { upPort with tries := 7 } run, 1, [(4, 1, [7]), (5, 1, [8])], by decide +kernel⟩

theorem witness_ChainReplay_8 :
    ∃ (s : State) (p : Nat) (code : BitVec 4) (bs : Bytes),
    let o := 1 - p; let q := s.port o; (q.state = .up) ∧ (q.outst.length < 128) :=
  ⟨unit { upPort with outst := [(4, 1, [7]), (5, 1, [8])], txSeq := 6, tries := 2, rxSeq := 20 } run, 1, 7, List.replicate 28 7, by decide +kernel⟩

theorem witness_ChainReplay_9 :
    ∃ (s : State) (p : Nat) (code : BitVec 4) (bs : Bytes),
    let o := 1 - p; let q := s.port o; ((q.state ≠ .up ∨ 128 ≤ q.outst.length)) :=
  ⟨unit { upPort with outst := List.replicate 128 (4, 1, [7]) } run, 1, 7, List.replicate 28 7, by decide +kernel⟩

theorem witness_ChainReplay_10 :
    ∃ (s : State) (p k v : Nat),
    (k ≠ 4) :=
  ⟨unit { upPort with outst := [(4, 1, [7]), (5, 1, [8])], txSeq := 6, tries := 2, rxSeq := 20 } run, 1, 2, 0, by decide +kernel⟩

theorem witness_ChainReplay_11 :
    ∃ (s : State) (p : Nat) (n : BitVec 32),
    let q := s.port p; let rest := q.outst.filter fun f => seqGe f.1 n; let moved := seqGe q.txSeq n = true ∧ rest.length < q.outst.length; (¬ moved) :=
  ⟨unit { upPort with outst := [(4, 1, [7]), (5, 1, [8])], txSeq := 6, tries := 2, nakWait := false, rxSeq := 20 } run, 1, 9, by decide +kernel⟩

theorem witness_ChainReplay_12 :
    ∃ (s : State) (p : Nat) (n : BitVec 32),
    let q := s.port p; let rest := q.outst.filter fun f => seqGe f.1 n; let moved := seqGe q.txSeq n = true ∧ rest.length < q.outst.length; (moved) :=
  ⟨unit { upPort with outst := [(4, 1, [7]), (5, 1, [8])], txSeq := 6, tries := 2, nakWait := false, rxSeq := 20 } run, 1, 5, by decide +kernel⟩

theorem witness_ChainReplay_13 :
    ∃ (p : Fin 2) (n : BitVec 32) (cr : BitVec 64) (s : State),
    (chainUp s p.val = true) ∧ let u := ackTo s p.val n; let q := u.port p.val; (q.queue = []) ∧ (q.cur = []) ∧ (s.chain.txF = []) :=
  ⟨1, 5, 0x0405_0006_0007_0041, unit { upPort with outst := [(4, 1, [7]), (5, 1, [8])], txSeq := 6, tries := 2, nakWait := false, rxSeq := 20 } run, by decide +kernel⟩

theorem witness_ChainReplay_14 :
    ∃ (p : Fin 2) (c : Fin 4) (s : State),
    (chainUp s p.val = true) :=
  ⟨1, 3, chn, by decide +kernel⟩

theorem witness_ChainDelivery_1 :
    ∃ (s : State) (p : Nat) (m : Msg),
    (chainUp s p = false) :=
  ⟨unit { state := .ready, locked := 15 } run, 1, msg 7 0 [], by decide +kernel⟩

theorem witness_ChainDelivery_2 :
    ∃ (s : State) (p : Nat) (m : Msg),
    (chainUp s p = true) ∧ let own : Bool := m.origin.toNat == s.physAddr && s.bit CHN_ADDR 3; (own = true) :=
  ⟨chn, 1, { msg 7 0 [] with origin := 3 }, by decide +kernel⟩

theorem witness_ChainDelivery_3 :
    ∃ (s : State) (p : Nat) (m : Msg),
    (chainUp s p = true) ∧ let own : Bool := m.origin.toNat == s.physAddr && s.bit CHN_ADDR 3; (own = false) ∧ (m.bcast = true) ∧ (m.kind = 2) :=
  ⟨chn, 1, { msg 2 0 [] with bcast := true }, by decide +kernel⟩

theorem witness_ChainDelivery_4 :
    ∃ (s : State) (p : Nat) (m : Msg),
    (chainUp s p = true) ∧ let u := account s p m; let own : Bool := m.origin.toNat == s.physAddr && s.bit CHN_ADDR 3; (own = false) ∧ (m.bcast = true) ∧ (m.kind ≠ 2) ∧ (isLater u m = true) :=
  ⟨chn, 1, { msg 7 0 [] with bcast := true }, by decide +kernel⟩

theorem witness_ChainDelivery_5 :
    ∃ (s : State) (p : Nat) (m : Msg),
    (chainUp s p = true) ∧ let u := account s p m; let own : Bool := m.origin.toNat == s.physAddr && s.bit CHN_ADDR 3; (own = false) ∧ (m.bcast = true) ∧ (m.kind ≠ 2) ∧ (isLater u m = false) :=
  ⟨{ chn with chain := { chn.chain with peers := [(4, { last := [(0, 9)] })] } }, 1, { msg 7 0 [] with bcast := true }, by decide +kernel⟩

theorem witness_ChainDelivery_6 :
    ∃ (s : State) (p : Nat) (m : Msg),
    (chainUp s p = true) ∧ let own : Bool := m.origin.toNat == s.physAddr && s.bit CHN_ADDR 3; (own = false) ∧ (m.bcast = false) ∧ (m.epoch.toNat ≠ s.fld CHN_ADDR 4 4) :=
  ⟨chn, 1, { msg 7 0 [] with epoch := 15 }, by decide +kernel⟩

theorem witness_ChainDelivery_7 :
    ∃ (s : State) (p : Nat) (m : Msg),
    (chainUp s p = true) ∧ let own : Bool := m.origin.toNat == s.physAddr && s.bit CHN_ADDR 3; let mine := s.bit CHN_ADDR 3 = true ∧ m.dst.toNat = s.physAddr; (own = false) ∧ (m.bcast = false) ∧ (m.epoch.toNat = s.fld CHN_ADDR 4 4) ∧ (mine) :=
  ⟨chn, 1, msg 7 0 [], by decide +kernel⟩

theorem witness_ChainDelivery_8 :
    ∃ (s : State) (p : Nat) (m : Msg),
    (chainUp s p = true) ∧ let own : Bool := m.origin.toNat == s.physAddr && s.bit CHN_ADDR 3; let mine := s.bit CHN_ADDR 3 = true ∧ m.dst.toNat = s.physAddr; (own = false) ∧ (m.bcast = false) ∧ (m.epoch.toNat = s.fld CHN_ADDR 4 4) ∧ (¬ mine) :=
  ⟨chn, 0, { msg 7 0 [] with dst := 4 }, by decide +kernel⟩

theorem witness_ChainDelivery_9 :
    ∃ (p : Fin 2) (m : Msg) (d : BitVec 64) (s : State),
    let goesOn := chainUp s p.val = true ∧ m.kind ≠ 1 ∧ (m.bcast = true ∨ m.dst.toNat ≠ s.physAddr ∨ s.bit CHN_ADDR 3 = false); (¬ goesOn) :=
  ⟨1, msg 7 0 [], 3, chn, by decide +kernel⟩

theorem witness_ChainDelivery_10 :
    ∃ (p : Fin 2) (m : Msg) (d : BitVec 64) (s : State),
    let goesOn := chainUp s p.val = true ∧ m.kind ≠ 1 ∧ (m.bcast = true ∨ m.dst.toNat ≠ s.physAddr ∨ s.bit CHN_ADDR 3 = false); let own : Bool := m.origin.toNat == s.physAddr && s.bit CHN_ADDR 3; (goesOn) ∧ ((own = true ∨ 6 ≤ m.hops.toNat)) :=
  ⟨1, { msg 7 0 [] with dst := 4, hops := 6 }, 0, chn, by decide +kernel⟩

theorem witness_ChainDelivery_11 :
    ∃ (p : Fin 2) (m : Msg) (d : BitVec 64) (s : State),
    let goesOn := chainUp s p.val = true ∧ m.kind ≠ 1 ∧ (m.bcast = true ∨ m.dst.toNat ≠ s.physAddr ∨ s.bit CHN_ADDR 3 = false); let own : Bool := m.origin.toNat == s.physAddr && s.bit CHN_ADDR 3; (goesOn) ∧ (own = false) ∧ (m.hops.toNat < 6) ∧ (m.bcast = false) ∧ (m.epoch.toNat ≠ s.fld CHN_ADDR 4 4) :=
  ⟨1, { msg 7 0 [] with dst := 4, epoch := 1 }, 0, chn, by decide +kernel⟩

theorem witness_ChainDelivery_12 :
    ∃ (p : Fin 2) (m : Msg) (d : BitVec 64) (s : State),
    let goesOn := chainUp s p.val = true ∧ m.kind ≠ 1 ∧ (m.bcast = true ∨ m.dst.toNat ≠ s.physAddr ∨ s.bit CHN_ADDR 3 = false); let own : Bool := m.origin.toNat == s.physAddr && s.bit CHN_ADDR 3; (goesOn) ∧ (own = false) ∧ (m.hops.toNat < 6) ∧ ((m.bcast = true ∨ m.epoch.toNat = s.fld CHN_ADDR 4 4)) ∧ (m.kind ≠ 2) :=
  ⟨1, { msg 7 0 [1] with dst := 4, hops := 5 }, 0, chn, by decide +kernel⟩

theorem witness_ChainDelivery_13 :
    ∃ (p : Fin 2) (m : Msg) (d : BitVec 64) (s : State),
    let goesOn := chainUp s p.val = true ∧ m.kind ≠ 1 ∧ (m.bcast = true ∨ m.dst.toNat ≠ s.physAddr ∨ s.bit CHN_ADDR 3 = false); let own : Bool := m.origin.toNat == s.physAddr && s.bit CHN_ADDR 3; (goesOn) ∧ (own = false) ∧ (m.hops.toNat < 6) ∧ ((m.bcast = true ∨ m.epoch.toNat = s.fld CHN_ADDR 4 4)) ∧ (m.kind = 2) :=
  ⟨1, { msg 2 (hput 18 8 77) [] with bcast := true }, 256, unit { upPort with delay := -3 } run, by decide +kernel⟩

theorem witness_ChainTime_1 :
    ∃ (p : Fin 2) (s : State),
    let q := s.port p.val; let due := ∀ t ∈ q.pdlyAt, t + 1000000 ≤ s.island; (chainUp s p.val = true) ∧ (due) :=
  ⟨1, chn, by decide +kernel⟩

theorem witness_ChainTime_2 :
    ∃ (p : Fin 2) (s : State),
    let q := s.port p.val; let due := ∀ t ∈ q.pdlyAt, t + 1000000 ≤ s.island; ((chainUp s p.val = false ∨ ¬ due)) :=
  ⟨1, unit { upPort with pdlyAt := some 5 } { run with island := 1000004 }, by decide +kernel⟩

theorem witness_ChainTime_3 :
    ∃ (p : Fin 2) (s : State) (t e : BitVec 32),
    let q := s.port p.val; (chainUp s p.val = true) ∧ (q.reqAt.isSome = true) :=
  ⟨1, unit { upPort with reqAt := some 5 } run, 9, 100, by decide +kernel⟩

theorem witness_ChainTime_4 :
    ∃ (p : Fin 2) (s : State) (t e : BitVec 32),
    let q := s.port p.val; ((chainUp s p.val = false ∨ q.reqAt = none)) :=
  ⟨1, chn, 5, 6, by decide +kernel⟩

theorem witness_ChainTime_5 :
    ∃ (s : State),
    let root := s.ctl.ring = true ∧ s.ctl.core = true ∧ s.bit TB_CHN_CTRL 0 = true ∧ s.bit TB_CHN_CTRL 1 = true; (root) ∧ (s.chain.timeMs ≠ some (s.now / 1000000)) :=
  ⟨withRegs [(TB_CHN_CTRL, 3)] chn, by decide +kernel⟩

theorem witness_ChainTime_6 :
    ∃ (s : State),
    let root := s.ctl.ring = true ∧ s.ctl.core = true ∧ s.bit TB_CHN_CTRL 0 = true ∧ s.bit TB_CHN_CTRL 1 = true; ((¬ root ∨ s.chain.timeMs = some (s.now / 1000000))) :=
  ⟨chn, by decide +kernel⟩

theorem witness_ChainTime_7 :
    ∃ (p : Fin 2) (m : Msg) (i : BitVec 128) (s u : State) (here : Bool),
    (deliver s p.val m = (u, here)) ∧ ((here = false ∨ m.kind ≠ 2 ∨ m.bcast = false)) :=
  ⟨1, msg 2 0 [], 99, chn, rx (chn) (msg 2 0 []), true, by decide +kernel⟩

theorem witness_ChainTime_8 :
    ∃ (p : Fin 2) (m : Msg) (i : BitVec 128) (s u : State) (here : Bool),
    (deliver s p.val m = (u, here)) ∧ let follows := u.ctl.core = true ∧ u.bit TB_CHN_CTRL 0 = true ∧ u.bit TB_CHN_CTRL 1 = false ∧ u.fld TB_CHN_CTRL 2 1 = p.val; (here = true) ∧ (m.kind = 2) ∧ (m.bcast = true) ∧ (¬ follows) :=
  ⟨1, { msg 2 (hput 8 8 1000 + hput 16 2 5 + hput 18 8 77) [] with bcast := true }, 99, chn, rx (chn) ({ msg 2 (hput 8 8 1000 + hput 16 2 5 + hput 18 8 77) [] with bcast := true }), true, by decide +kernel⟩

theorem witness_ChainTime_9 :
    ∃ (p : Fin 2) (m : Msg) (i : BitVec 128) (s u : State) (here : Bool),
    (deliver s p.val m = (u, here)) ∧ let follows := u.ctl.core = true ∧ u.bit TB_CHN_CTRL 0 = true ∧ u.bit TB_CHN_CTRL 1 = false ∧ u.fld TB_CHN_CTRL 2 1 = p.val; (here = true) ∧ (m.kind = 2) ∧ (m.bcast = true) ∧ (follows) :=
  ⟨1, { msg 2 (hput 8 8 1000 + hput 16 2 5 + hput 18 8 77) [] with bcast := true }, 2 ^ 127, withRegs [(TB_CHN_CTRL, 5)] chn, rx (withRegs [(TB_CHN_CTRL, 5)] chn) ({ msg 2 (hput 8 8 1000 + hput 16 2 5 + hput 18 8 77) [] with bcast := true }), true, by decide +kernel⟩

theorem witness_ChainUnits_1 :
    ∃ (a : Access) (v : Word) (s : State),
    (Reaches s a .w CHN_LOGICAL) ∧ let id := bitsOf v.toNat 0 3; let taken := bitOf v.toNat 3 = true ∧ s.bit CHN_MAP (4 * id + 3) = true ∧ (s.bit CHN_ADDR 3 = false ∨ s.fld CHN_MAP (4 * id) 3 ≠ s.physAddr); (taken) :=
  ⟨desk, 0xE, chn, by decide +kernel⟩

theorem witness_ChainUnits_2 :
    ∃ (a : Access) (v : Word) (s : State),
    (Reaches s a .w CHN_LOGICAL) ∧ let id := bitsOf v.toNat 0 3; let taken := bitOf v.toNat 3 = true ∧ s.bit CHN_MAP (4 * id + 3) = true ∧ (s.bit CHN_ADDR 3 = false ∨ s.fld CHN_MAP (4 * id) 3 ≠ s.physAddr); (¬ taken) ∧ (bitOf v.toNat 3 = true) ∧ (s.bit CHN_ADDR 3 = true) ∧ (s.chain.peers = []) :=
  ⟨desk, 0xD, withRegs [(CHN_ADDR, 0x2B)] run, by decide +kernel⟩

theorem witness_ChainUnits_3 :
    ∃ (s : State),
    let due := s.ctl.ring = true ∧ s.bit CHN_ADDR 3 = true ∧ ∀ t ∈ s.chain.helloAt, t + 1000000 ≤ s.island; (due) :=
  ⟨chn, by decide +kernel⟩

theorem witness_ChainUnits_4 :
    ∃ (s : State),
    let due := s.ctl.ring = true ∧ s.bit CHN_ADDR 3 = true ∧ ∀ t ∈ s.chain.helloAt, t + 1000000 ≤ s.island; (¬ due) :=
  ⟨withRegs [(CHN_HELLO_WATCH, 0xFF)] run, by decide +kernel⟩

theorem witness_ChainUnits_5 :
    ∃ (p : Fin 2) (m : Msg) (s u : State) (here : Bool),
    (deliver s p.val m = (u, here)) ∧ let o := m.origin.toNat; let heard := m.kind = 5 ∧ chainUp u p.val = true ∧ (o ≠ u.physAddr ∨ u.bit CHN_ADDR 3 = false); (¬ heard) :=
  ⟨1, msg 7 0 [], chn, rx (chn) (msg 7 0 []), true, by decide +kernel⟩

theorem witness_ChainUnits_6 :
    ∃ (p : Fin 2) (m : Msg) (s u : State) (here : Bool),
    (deliver s p.val m = (u, here)) ∧ let o := m.origin.toNat; let heard := m.kind = 5 ∧ chainUp u p.val = true ∧ (o ≠ u.physAddr ∨ u.bit CHN_ADDR 3 = false); (heard) ∧ (here = false) :=
  ⟨1, { msg 5 (hput 8 1 5 + hput 9 1 1 + hput 10 1 4) [] with bcast := true, seq := 0 }, (rx chn ({ msg 5 (hput 8 1 5 + hput 9 1 1 + hput 10 1 4) [] with bcast := true })), rx ((rx chn ({ msg 5 (hput 8 1 5 + hput 9 1 1 + hput 10 1 4) [] with bcast := true }))) ({ msg 5 (hput 8 1 5 + hput 9 1 1 + hput 10 1 4) [] with bcast := true, seq := 0 }), false, by decide +kernel⟩

theorem witness_ChainUnits_7 :
    ∃ (p : Fin 2) (m : Msg) (s u : State) (here : Bool),
    (deliver s p.val m = (u, here)) ∧ let o := m.origin.toNat; let heard := m.kind = 5 ∧ chainUp u p.val = true ∧ (o ≠ u.physAddr ∨ u.bit CHN_ADDR 3 = false); (heard) ∧ (here = true) :=
  ⟨1, { msg 5 (hput 8 1 5 + hput 9 1 1 + hput 10 1 4) [] with bcast := true }, chn, rx (chn) ({ msg 5 (hput 8 1 5 + hput 9 1 1 + hput 10 1 4) [] with bcast := true }), true, by decide +kernel⟩

theorem witness_ChainUnits_8 :
    ∃ (o : Fin 8) (s : State),
    let lost := s.ctl.ring = true ∧ s.bit CHN_HELLO_WATCH o.val = true ∧ s.bit CHN_HELLO_LOST o.val = false ∧ ∀ t ∈ (s.peer o.val).heard, t + 1000000 * s.fld CHN_HELLO_TO 0 10 ≤ s.island; (lost) :=
  ⟨4, withRegs [(CHN_HELLO_WATCH, 0x10)] { chn with island := 10 ^ 9 }, by decide +kernel⟩

theorem witness_ChainUnits_9 :
    ∃ (o : Fin 8) (s : State),
    let lost := s.ctl.ring = true ∧ s.bit CHN_HELLO_WATCH o.val = true ∧ s.bit CHN_HELLO_LOST o.val = false ∧ ∀ t ∈ (s.peer o.val).heard, t + 1000000 * s.fld CHN_HELLO_TO 0 10 ≤ s.island; (¬ lost) :=
  ⟨4, chn, by decide +kernel⟩

theorem witness_ChainUnits_10 :
    ∃ (a : Access) (v : Word) (s : State),
    (Reaches s a .w CHN_CMD) ∧ (bitOf v.toNat 0 = false) :=
  ⟨desk, 0xE, chn, by decide +kernel⟩

theorem witness_ChainUnits_11 :
    ∃ (a : Access) (v : Word) (s : State),
    (Reaches s a .w CHN_CMD) ∧ (bitOf v.toNat 0 = true) ∧ (bitOf s.straps.toNat 3 = false) :=
  ⟨desk, 0x7, withRegs [(CHN_VAULT, 6)] (chn.store 0x3000000 [9]), by decide +kernel⟩

theorem witness_ChainUnits_12 :
    ∃ (a : Access) (v : Word) (s : State),
    (Reaches s a .w CHN_CMD) ∧ (bitOf v.toNat 0 = true) ∧ (bitOf s.straps.toNat 3 = true) :=
  ⟨desk, 1, { run with straps := 8 }, by decide +kernel⟩

theorem witness_ChainUnits_13 :
    ∃ (p : Fin 2) (m : Msg) (s : State),
    ((chainUp s p.val = false ∨ m.kind ≠ 1)) :=
  ⟨1, { msg 5 (hput 8 1 5 + hput 9 1 1 + hput 10 1 4) [] with bcast := true }, chn, by decide +kernel⟩

theorem witness_ChainUnits_14 :
    ∃ (p : Fin 2) (m : Msg) (s : State),
    let west := bitOf (m.h8 9) 0; let back := bitOf s.straps.toNat 3 = true ∧ m.epoch.toNat = s.fld CHN_ADDR 4 4 ∧ m.origin = 0; (chainUp s p.val = true) ∧ (m.kind = 1) ∧ (back) ∧ (west = false) ∧ (p = 0) ∧ (s.chain.enumOn = true) ∧ (s.chain.west = false) :=
  ⟨0, { msg 1 (hput 8 1 8) [] with origin := 0 }, { chn with straps := 8, chain := { chn.chain with enumOn := true } }, by decide +kernel⟩

theorem witness_ChainUnits_15 :
    ∃ (p : Fin 2) (m : Msg) (s : State),
    let west := bitOf (m.h8 9) 0; let back := bitOf s.straps.toNat 3 = true ∧ m.epoch.toNat = s.fld CHN_ADDR 4 4 ∧ m.origin = 0; (chainUp s p.val = true) ∧ (m.kind = 1) ∧ (back) ∧ ((west = true ∨ p = 1 ∨ s.chain.enumOn = false ∨ s.chain.west = true)) :=
  ⟨1, { msg 1 (hput 8 1 8) [] with origin := 0 }, { chn with straps := 8, chain := { chn.chain with enumOn := true } }, by decide +kernel⟩

theorem witness_ChainUnits_16 :
    ∃ (p : Fin 2) (m : Msg) (s : State),
    let west := bitOf (m.h8 9) 0; let back := bitOf s.straps.toNat 3 = true ∧ m.epoch.toNat = s.fld CHN_ADDR 4 4 ∧ m.origin = 0; (chainUp s p.val = true) ∧ (m.kind = 1) ∧ (¬ back) ∧ (west = false) ∧ (p = 0) :=
  ⟨0, { msg 1 (hput 8 1 7) [] with epoch := 6, origin := 0 }, { chn with straps := 0 }, by decide +kernel⟩

theorem witness_ChainUnits_17 :
    ∃ (p : Fin 2) (m : Msg) (s : State),
    let west := bitOf (m.h8 9) 0; let back := bitOf s.straps.toNat 3 = true ∧ m.epoch.toNat = s.fld CHN_ADDR 4 4 ∧ m.origin = 0; (chainUp s p.val = true) ∧ (m.kind = 1) ∧ (¬ back) ∧ (west = true) ∧ (p = 1) :=
  ⟨1, { msg 1 (hput 8 1 7 + hput 9 1 1 + hput 10 1 3) [] with epoch := 6, origin := 0 }, { chn with straps := 0 }, by decide +kernel⟩

theorem witness_ChainUnits_18 :
    ∃ (p : Fin 2) (m : Msg) (s : State),
    let west := bitOf (m.h8 9) 0; let back := bitOf s.straps.toNat 3 = true ∧ m.epoch.toNat = s.fld CHN_ADDR 4 4 ∧ m.origin = 0; (chainUp s p.val = true) ∧ (m.kind = 1) ∧ (¬ back) ∧ ((west = true ↔ p = 0)) :=
  ⟨0, { msg 1 (hput 8 1 7 + hput 9 1 1 + hput 10 1 3) [] with epoch := 6, origin := 0 }, { chn with straps := 0 }, by decide +kernel⟩

theorem witness_ChainUnits_19 :
    ∃ (s : State),
    let due := s.ctl.ring = true ∧ s.chain.enumOn = true ∧ s.chain.enumAt + 2000000 ≤ s.island; (due) ∧ (s.chain.west = false) :=
  ⟨{ chn with chain := { (chn).chain with enumOn := true, west := false, eastN := 0 }, island := 2000000 }, by decide +kernel⟩

theorem witness_ChainUnits_20 :
    ∃ (s : State),
    let due := s.ctl.ring = true ∧ s.chain.enumOn = true ∧ s.chain.enumAt + 2000000 ≤ s.island; (due) ∧ (s.chain.west = true) :=
  ⟨{ chn with chain := { (chn).chain with enumOn := true, west := true, eastN := 1 }, island := 2000000 }, by decide +kernel⟩

theorem witness_ChainUnits_21 :
    ∃ (s : State),
    let due := s.ctl.ring = true ∧ s.chain.enumOn = true ∧ s.chain.enumAt + 2000000 ≤ s.island; (¬ due) :=
  ⟨chn, by decide +kernel⟩

theorem witness_ChainUnits_22 :
    ∃ (a : Access) (v : Word) (s : State),
    (Reaches s a .w CHN_VAULT) :=
  ⟨desk, 0xE, chn, by decide +kernel⟩

theorem witness_ChainMessages_1 :
    ∃ (p : Fin 2) (m : Msg) (s u : State) (here : Bool),
    (deliver s p.val m = (u, here)) ∧ let k : BitVec 8 := 3; ((here = false ∨ m.kind ≠ k)) :=
  ⟨1, msg 1 0 [], chn, rx (chn) (msg 1 0 []), true, by decide +kernel⟩

theorem witness_ChainMessages_2 :
    ∃ (p : Fin 2) (m : Msg) (s u : State) (here : Bool),
    (deliver s p.val m = (u, here)) ∧ let k : BitVec 8 := 4; ((here = false ∨ m.kind ≠ k)) :=
  ⟨1, msg 1 0 [], chn, rx (chn) (msg 1 0 []), true, by decide +kernel⟩

theorem witness_ChainMessages_3 :
    ∃ (p : Fin 2) (m : Msg) (s u : State) (here : Bool),
    (deliver s p.val m = (u, here)) ∧ let k : BitVec 8 := 7; ((here = false ∨ m.kind ≠ k)) :=
  ⟨1, msg 1 0 [], chn, rx (chn) (msg 1 0 []), true, by decide +kernel⟩

theorem witness_ChainMessages_4 :
    ∃ (p : Fin 2) (m : Msg) (s u : State) (here : Bool),
    (deliver s p.val m = (u, here)) ∧ let k : BitVec 8 := 8; ((here = false ∨ m.kind ≠ k)) :=
  ⟨1, msg 1 0 [], chn, rx (chn) (msg 1 0 []), true, by decide +kernel⟩

theorem witness_ChainMessages_5 :
    ∃ (p : Fin 2) (m : Msg) (s u : State) (here : Bool),
    (deliver s p.val m = (u, here)) ∧ let k : BitVec 8 := 9; ((here = false ∨ m.kind ≠ k)) :=
  ⟨1, msg 1 0 [], chn, rx (chn) (msg 1 0 []), true, by decide +kernel⟩

theorem witness_ChainMessages_6 :
    ∃ (p : Fin 2) (m : Msg) (s u : State) (here : Bool),
    (deliver s p.val m = (u, here)) ∧ let k : BitVec 8 := 10; ((here = false ∨ m.kind ≠ k)) :=
  ⟨1, msg 1 0 [], chn, rx (chn) (msg 1 0 []), true, by decide +kernel⟩

theorem witness_ChainMessages_7 :
    ∃ (p : Fin 2) (m : Msg) (s u : State) (here : Bool),
    (deliver s p.val m = (u, here)) ∧ let k : BitVec 8 := 6; ((here = false ∨ m.kind ≠ k)) :=
  ⟨1, msg 1 0 [], chn, rx (chn) (msg 1 0 []), true, by decide +kernel⟩

theorem witness_ChainMessages_8 :
    ∃ (p : Fin 2) (m : Msg) (s u : State),
    (deliver s p.val m = (u, true)) ∧ let g := m.h8 8; let on := u.ctl.core = true ∧ g ≤ 15 ∧ sgOn u g = true; let next := sameBoundary u g (m.hN 16 8) = true; (m.kind = 3) ∧ let takes := on ∧ sgMaster u g = true ∧ (u.grp g).pastD = false ∧ next; (takes) :=
  ⟨1, msg 3 (hput 8 1 15 + hput 9 1 6 + hput 10 1 2 + hput 12 4 77 + hput 16 8 50000100) [], withRegs [(CMP_SEAL_CFG 15, 3)] { chn with tgs := [(0, grp60)], seals := [(15, {})] }, rx (withRegs [(CMP_SEAL_CFG 15, 3)] { chn with tgs := [(0, grp60)], seals := [(15, {})] }) (msg 3 (hput 8 1 15 + hput 9 1 6 + hput 10 1 2 + hput 12 4 77 + hput 16 8 50000100) []), by decide +kernel⟩

theorem witness_ChainMessages_9 :
    ∃ (p : Fin 2) (m : Msg) (s u : State),
    (deliver s p.val m = (u, true)) ∧ let g := m.h8 8; let on := u.ctl.core = true ∧ g ≤ 15 ∧ sgOn u g = true; let next := sameBoundary u g (m.hN 16 8) = true; (m.kind = 3) ∧ let takes := on ∧ sgMaster u g = true ∧ (u.grp g).pastD = false ∧ next; (¬ takes) :=
  ⟨1, msg 3 (hput 8 1 15 + hput 9 1 6 + hput 10 1 2 + hput 12 4 77 + hput 16 8 50000100) [], withRegs [(CMP_SEAL_CFG 15, 1)] { chn with tgs := [(0, grp60)], seals := [(15, {})] }, rx (withRegs [(CMP_SEAL_CFG 15, 1)] { chn with tgs := [(0, grp60)], seals := [(15, {})] }) (msg 3 (hput 8 1 15 + hput 9 1 6 + hput 10 1 2 + hput 12 4 77 + hput 16 8 50000100) []), by decide +kernel⟩

theorem witness_ChainMessages_10 :
    ∃ (p : Fin 2) (m : Msg) (s u : State),
    (deliver s p.val m = (u, true)) ∧ let g := m.h8 8; let on := u.ctl.core = true ∧ g ≤ 15 ∧ sgOn u g = true; let next := sameBoundary u g (m.hN 16 8) = true; (m.kind = 4) ∧ let member := on ∧ sgMember u g = true; (member) ∧ (next) ∧ ((u.grp g).pastC = false) :=
  ⟨1, msg 4 (hput 8 1 15 + hput 9 1 6 + hput 10 1 2 + hput 12 4 77 + hput 16 8 50000100) [], withRegs [(CMP_SEAL_CFG 15, 0x04000001)] { chn with tgs := [(0, grp60)], seals := [(15, {})] }, rx (withRegs [(CMP_SEAL_CFG 15, 0x04000001)] { chn with tgs := [(0, grp60)], seals := [(15, {})] }) (msg 4 (hput 8 1 15 + hput 9 1 6 + hput 10 1 2 + hput 12 4 77 + hput 16 8 50000100) []), by decide +kernel⟩

theorem witness_ChainMessages_11 :
    ∃ (p : Fin 2) (m : Msg) (s u : State),
    (deliver s p.val m = (u, true)) ∧ let g := m.h8 8; let on := u.ctl.core = true ∧ g ≤ 15 ∧ sgOn u g = true; let next := sameBoundary u g (m.hN 16 8) = true; (m.kind = 4) ∧ let member := on ∧ sgMember u g = true; (member) ∧ (next) ∧ ((u.grp g).pastC = true) :=
  ⟨1, msg 4 (hput 8 1 15 + hput 9 1 6 + hput 10 1 2 + hput 12 4 77 + hput 16 8 50000100) [], withRegs [(CMP_SEAL_CFG 15, 0x04000001)] { chn with tgs := [(0, grp60)], seals := [(15, { pastC := true })] }, rx (withRegs [(CMP_SEAL_CFG 15, 0x04000001)] { chn with tgs := [(0, grp60)], seals := [(15, { pastC := true })] }) (msg 4 (hput 8 1 15 + hput 9 1 6 + hput 10 1 2 + hput 12 4 77 + hput 16 8 50000100) []), by decide +kernel⟩

theorem witness_ChainMessages_12 :
    ∃ (p : Fin 2) (m : Msg) (s u : State),
    (deliver s p.val m = (u, true)) ∧ let g := m.h8 8; let k := BitVec.ofNat 32 (m.hN 12 4); let on := u.ctl.core = true ∧ g ≤ 15 ∧ sgOn u g = true; let next := sameBoundary u g (m.hN 16 8) = true; (m.kind = 4) ∧ let member := on ∧ sgMember u g = true; let last := lastBoundary u g (m.hN 16 8) = true ∧ 0 < sealDiff k (sgDone u g); (member) ∧ (¬ next) ∧ (last) :=
  ⟨1, msg 4 (hput 8 1 15 + hput 9 1 6 + hput 10 1 2 + hput 12 4 77 + hput 16 8 33333300) [], withRegs [(CMP_SEAL_CFG 15, 0x04000001)] { chn with tgs := [(0, grp60)], seals := [(15, { heldAt := true })] }, rx (withRegs [(CMP_SEAL_CFG 15, 0x04000001)] { chn with tgs := [(0, grp60)], seals := [(15, { heldAt := true })] }) (msg 4 (hput 8 1 15 + hput 9 1 6 + hput 10 1 2 + hput 12 4 77 + hput 16 8 33333300) []), by decide +kernel⟩

theorem witness_ChainMessages_13 :
    ∃ (p : Fin 2) (m : Msg) (s u : State),
    (deliver s p.val m = (u, true)) ∧ let g := m.h8 8; let k := BitVec.ofNat 32 (m.hN 12 4); let on := u.ctl.core = true ∧ g ≤ 15 ∧ sgOn u g = true; let next := sameBoundary u g (m.hN 16 8) = true; (m.kind = 4) ∧ let member := on ∧ sgMember u g = true; let last := lastBoundary u g (m.hN 16 8) = true ∧ 0 < sealDiff k (sgDone u g); ((¬ member ∨ ¬ next ∧ ¬ last)) :=
  ⟨1, msg 4 (hput 8 1 15 + hput 9 1 6 + hput 10 1 2 + hput 12 4 77 + hput 16 8 50000100) [], withRegs [(CMP_SEAL_CFG 15, 1)] { chn with tgs := [(0, grp60)], seals := [(15, {})] }, rx (withRegs [(CMP_SEAL_CFG 15, 1)] { chn with tgs := [(0, grp60)], seals := [(15, {})] }) (msg 4 (hput 8 1 15 + hput 9 1 6 + hput 10 1 2 + hput 12 4 77 + hput 16 8 50000100) []), by decide +kernel⟩

theorem witness_ChainMessages_14 :
    ∃ (p : Fin 2) (m : Msg) (s u : State),
    (deliver s p.val m = (u, true)) ∧ (m.kind = 7) ∧ let d := m.h8 8; (d = 31) :=
  ⟨1, msg 7 (hput 8 1 31 + hput 9 1 5 + hput 10 2 3) [1, 2, 3], chn, rx (chn) (msg 7 (hput 8 1 31 + hput 9 1 5 + hput 10 2 3) [1, 2, 3]), by decide +kernel⟩

theorem witness_ChainMessages_15 :
    ∃ (p : Fin 2) (m : Msg) (s u : State),
    (deliver s p.val m = (u, true)) ∧ (m.kind = 7) ∧ let d := m.h8 8; (d ≠ 31) ∧ ((u.ctl.core = false ∨ 16 ≤ d ∨ (u.part d).ctrlRing = none)) :=
  ⟨1, msg 7 (hput 8 1 15 + hput 9 1 5 + hput 10 2 3) [1, 2, 3], chn, rx (chn) (msg 7 (hput 8 1 15 + hput 9 1 5 + hput 10 2 3) [1, 2, 3]), by decide +kernel⟩

theorem witness_ChainMessages_16 :
    ∃ (p : Fin 2) (m : Msg) (s u : State) (host : Bool) (k : Nat) (base : BitVec 64) (seq : BitVec 32),
    (deliver s p.val m = (u, true)) ∧ (m.kind = 7) ∧ let d := m.h8 8; (d ≤ 15) ∧ (u.ctl.core = true) ∧ ((u.part d).ctrlRing = some (host, k, base, seq)) ∧ (host = true) ∧ (onPcie u d = true) ∧ (linkUp u (u.part d).port = true) :=
  ⟨1, msg 7 (hput 8 1 0 + hput 9 1 5 + hput 10 2 3) [1, 2, 3], { chn with parts := [(0, { owner with ctrlRing := some (true, 4, 0x181000000, 17) })] }, rx ({ chn with parts := [(0, { owner with ctrlRing := some (true, 4, 0x181000000, 17) })] }) (msg 7 (hput 8 1 0 + hput 9 1 5 + hput 10 2 3) [1, 2, 3]), true, 4, 0x181000000, 17, by decide +kernel⟩

theorem witness_ChainMessages_17 :
    ∃ (p : Fin 2) (m : Msg) (s u : State),
    (deliver s p.val m = (u, true)) ∧ (m.kind = 8) ∧ let c := m.h8 9; let x := u.ctx c; ((u.ctl.core = false ∨ x.rx = none)) :=
  ⟨1, msg 8 (hput 8 1 31 + hput 9 1 255 + hput 10 1 1 + hput 16 4 3) ([1, 2, 3]), chn, rx (chn) (msg 8 (hput 8 1 31 + hput 9 1 255 + hput 10 1 1 + hput 16 4 3) ([1, 2, 3])), by decide +kernel⟩

theorem witness_ChainMessages_18 :
    ∃ (p : Fin 2) (m : Msg) (s u : State) (o : Nat) (slot : Nat) (base : Nat) (size : Nat),
    (deliver s p.val m = (u, true)) ∧ (m.kind = 8) ∧ let c := m.h8 9; let x := u.ctx c; (u.ctl.core = true) ∧ (x.rx = some (o, slot, base, size)) ∧ ((unitOf u o ≠ some m.origin.toNat ∨ slot ≠ m.h8 8)) :=
  ⟨1, { msg 8 (hput 8 1 31 + hput 9 1 255 + hput 10 1 1 + hput 12 4 0 + hput 16 4 3) ([1, 2, 3]) with origin := 5, dst := 3 }, { chn with ctxs := [(255, { state := .decoding, rx := some (6, 31, 0x181000000, 0x10000) })] }, rx ({ chn with ctxs := [(255, { state := .decoding, rx := some (6, 31, 0x181000000, 0x10000) })] }) ({ msg 8 (hput 8 1 31 + hput 9 1 255 + hput 10 1 1 + hput 12 4 0 + hput 16 4 3) ([1, 2, 3]) with origin := 5, dst := 3 }), 6, 31, 0x181000000, 0x10000, by decide +kernel⟩

theorem witness_ChainMessages_19 :
    ∃ (p : Fin 2) (m : Msg) (s u : State) (o : Nat) (slot : Nat) (base : Nat) (size : Nat),
    (deliver s p.val m = (u, true)) ∧ (m.kind = 8) ∧ let c := m.h8 9; let x := u.ctx c; (u.ctl.core = true) ∧ (x.rx = some (o, slot, base, size)) ∧ (unitOf u o = some m.origin.toNat) ∧ (slot = m.h8 8) ∧ let at_ := m.hN 12 4; let first := bitOf (m.h8 10) 0; let last := bitOf (m.h8 10) 1; (first = true) ∧ (at_ = 0) ∧ (last = false) :=
  ⟨1, msg 8 (hput 8 1 31 + hput 9 1 255 + hput 10 1 1 + hput 16 4 3) ([1, 2, 3]), { chn with ctxs := [(255, { state := .decoding, rx := some (6, 31, 0x181000000, 0x10000) })] }, rx ({ chn with ctxs := [(255, { state := .decoding, rx := some (6, 31, 0x181000000, 0x10000) })] }) (msg 8 (hput 8 1 31 + hput 9 1 255 + hput 10 1 1 + hput 16 4 3) ([1, 2, 3])), 6, 31, 0x181000000, 0x10000, by decide +kernel⟩

theorem witness_ChainMessages_20 :
    ∃ (p : Fin 2) (m : Msg) (s u : State) (o : Nat) (slot : Nat) (base : Nat) (size : Nat),
    (deliver s p.val m = (u, true)) ∧ (m.kind = 8) ∧ let c := m.h8 9; let x := u.ctx c; (u.ctl.core = true) ∧ (x.rx = some (o, slot, base, size)) ∧ (unitOf u o = some m.origin.toNat) ∧ (slot = m.h8 8) ∧ let at_ := m.hN 12 4; let total := m.hN 16 4; let body := m.body.take (total - at_); let first := bitOf (m.h8 10) 0; let last := bitOf (m.h8 10) 1; (first = true) ∧ (at_ = 0) ∧ let bs : Bytes := body; (last = true) ∧ (bs.length = total) ∧ (32 ≤ total) :=
  ⟨1, msg 8 (hput 8 1 31 + hput 9 1 255 + hput 10 1 3 + hput 16 4 33) (List.replicate 33 1), { chn with ctxs := [(255, { state := .decoding, rx := some (6, 31, 0x181000000, 0x10000), queue := List.replicate 16 auR })] }, rx ({ chn with ctxs := [(255, { state := .decoding, rx := some (6, 31, 0x181000000, 0x10000), queue := List.replicate 16 auR })] }) (msg 8 (hput 8 1 31 + hput 9 1 255 + hput 10 1 3 + hput 16 4 33) (List.replicate 33 1)), 6, 31, 0x181000000, 0x10000, by decide +kernel⟩

theorem witness_ChainMessages_21 :
    ∃ (p : Fin 2) (m : Msg) (s u : State) (o : Nat) (slot : Nat) (base : Nat) (size : Nat),
    (deliver s p.val m = (u, true)) ∧ (m.kind = 8) ∧ let c := m.h8 9; let x := u.ctx c; (u.ctl.core = true) ∧ (x.rx = some (o, slot, base, size)) ∧ (unitOf u o = some m.origin.toNat) ∧ (slot = m.h8 8) ∧ let at_ := m.hN 12 4; let total := m.hN 16 4; let body := m.body.take (total - at_); let first := bitOf (m.h8 10) 0; let last := bitOf (m.h8 10) 1; (first = true) ∧ (at_ = 0) ∧ let bs : Bytes := body; (last = true) ∧ ((bs.length ≠ total ∨ total < 32)) :=
  ⟨1, msg 8 (hput 8 1 31 + hput 9 1 255 + hput 10 1 3 + hput 12 4 0 + hput 16 4 3) ([1, 2, 3]), { chn with ctxs := [(255, { state := .decoding, rx := some (6, 31, 0x181000000, 0x10000) })] }, rx ({ chn with ctxs := [(255, { state := .decoding, rx := some (6, 31, 0x181000000, 0x10000) })] }) (msg 8 (hput 8 1 31 + hput 9 1 255 + hput 10 1 3 + hput 12 4 0 + hput 16 4 3) ([1, 2, 3])), 6, 31, 0x181000000, 0x10000, by decide +kernel⟩

theorem witness_ChainMessages_22 :
    ∃ (p : Fin 2) (m : Msg) (s u : State) (o : Nat) (slot : Nat) (base : Nat) (size : Nat) (bs : Bytes),
    (deliver s p.val m = (u, true)) ∧ (m.kind = 8) ∧ let c := m.h8 9; let x := u.ctx c; (u.ctl.core = true) ∧ (x.rx = some (o, slot, base, size)) ∧ (unitOf u o = some m.origin.toNat) ∧ (slot = m.h8 8) ∧ let at_ := m.hN 12 4; let total := m.hN 16 4; let first := bitOf (m.h8 10) 0; let last := bitOf (m.h8 10) 1; (first = false) ∧ (x.rxBuf = some (total, bs)) ∧ (bs.length = at_) ∧ (last = false) :=
  ⟨1, msg 8 (hput 8 1 31 + hput 9 1 255 + hput 10 1 0 + hput 12 4 2 + hput 16 4 33) ([5, 6]), { chn with ctxs := [(255, { state := .decoding, rx := some (6, 31, 0x181000000, 0x10000), rxBuf := some (33, [1, 2]) })] }, rx ({ chn with ctxs := [(255, { state := .decoding, rx := some (6, 31, 0x181000000, 0x10000), rxBuf := some (33, [1, 2]) })] }) (msg 8 (hput 8 1 31 + hput 9 1 255 + hput 10 1 0 + hput 12 4 2 + hput 16 4 33) ([5, 6])), 6, 31, 0x181000000, 0x10000, [1, 2], by decide +kernel⟩

theorem witness_ChainMessages_23 :
    ∃ (p : Fin 2) (m : Msg) (s u : State) (o : Nat) (slot : Nat) (base : Nat) (size : Nat) (bs : Bytes),
    (deliver s p.val m = (u, true)) ∧ (m.kind = 8) ∧ let c := m.h8 9; let x := u.ctx c; (u.ctl.core = true) ∧ (x.rx = some (o, slot, base, size)) ∧ (unitOf u o = some m.origin.toNat) ∧ (slot = m.h8 8) ∧ let at_ := m.hN 12 4; let total := m.hN 16 4; let body := m.body.take (total - at_); let first := bitOf (m.h8 10) 0; let last := bitOf (m.h8 10) 1; (first = false) ∧ (x.rxBuf = some (total, bs)) ∧ (bs.length = at_) ∧ let bs : Bytes := (bs ++ body); (last = true) ∧ (bs.length = total) ∧ (32 ≤ total) :=
  ⟨1, msg 8 (hput 8 1 31 + hput 9 1 255 + hput 10 1 2 + hput 12 4 2 + hput 16 4 33) (List.replicate 31 1), { chn with ctxs := [(255, { state := .decoding, rx := some (6, 31, 0x181000000, 0x10000), rxBuf := some (33, [1, 2]) })] }, rx ({ chn with ctxs := [(255, { state := .decoding, rx := some (6, 31, 0x181000000, 0x10000), rxBuf := some (33, [1, 2]) })] }) (msg 8 (hput 8 1 31 + hput 9 1 255 + hput 10 1 2 + hput 12 4 2 + hput 16 4 33) (List.replicate 31 1)), 6, 31, 0x181000000, 0x10000, [1, 2], by decide +kernel⟩

theorem witness_ChainMessages_24 :
    ∃ (p : Fin 2) (m : Msg) (s u : State) (o : Nat) (slot : Nat) (base : Nat) (size : Nat) (bs : Bytes),
    (deliver s p.val m = (u, true)) ∧ (m.kind = 8) ∧ let c := m.h8 9; let x := u.ctx c; (u.ctl.core = true) ∧ (x.rx = some (o, slot, base, size)) ∧ (unitOf u o = some m.origin.toNat) ∧ (slot = m.h8 8) ∧ let at_ := m.hN 12 4; let total := m.hN 16 4; let body := m.body.take (total - at_); let first := bitOf (m.h8 10) 0; let last := bitOf (m.h8 10) 1; (first = false) ∧ (x.rxBuf = some (total, bs)) ∧ (bs.length = at_) ∧ let bs : Bytes := (bs ++ body); (last = true) ∧ ((bs.length ≠ total ∨ total < 32)) :=
  ⟨1, msg 8 (hput 8 1 31 + hput 9 1 255 + hput 10 1 2 + hput 12 4 2 + hput 16 4 33) ([5]), { chn with ctxs := [(255, { state := .decoding, rx := some (6, 31, 0x181000000, 0x10000), rxBuf := some (33, [1, 2]) })] }, rx ({ chn with ctxs := [(255, { state := .decoding, rx := some (6, 31, 0x181000000, 0x10000), rxBuf := some (33, [1, 2]) })] }) (msg 8 (hput 8 1 31 + hput 9 1 255 + hput 10 1 2 + hput 12 4 2 + hput 16 4 33) ([5])), 6, 31, 0x181000000, 0x10000, [1, 2], by decide +kernel⟩

theorem witness_ChainMessages_25 :
    ∃ (p : Fin 2) (m : Msg) (s u : State) (o : Nat) (slot : Nat) (base : Nat) (size : Nat),
    (deliver s p.val m = (u, true)) ∧ (m.kind = 8) ∧ let c := m.h8 9; let x := u.ctx c; (u.ctl.core = true) ∧ (x.rx = some (o, slot, base, size)) ∧ (unitOf u o = some m.origin.toNat) ∧ (slot = m.h8 8) ∧ let at_ := m.hN 12 4; let total := m.hN 16 4; let first := bitOf (m.h8 10) 0; ((first = true ∧ at_ ≠ 0 ∨ first = false ∧ ∀ bs, x.rxBuf = some (total, bs) → bs.length ≠ at_)) :=
  ⟨1, msg 8 (hput 8 1 31 + hput 9 1 255 + hput 10 1 1 + hput 12 4 2 + hput 16 4 33) [5], { chn with ctxs := [(255, { state := .decoding, rx := some (6, 31, 0x181000000, 0x10000) })] }, rx ({ chn with ctxs := [(255, { state := .decoding, rx := some (6, 31, 0x181000000, 0x10000) })] }) (msg 8 (hput 8 1 31 + hput 9 1 255 + hput 10 1 1 + hput 12 4 2 + hput 16 4 33) [5]), 6, 31, 0x181000000, 0x10000, by decide +kernel, by decide +kernel, by decide +kernel, by decide +kernel, by decide +kernel, by decide +kernel, Or.inl (by decide +kernel)⟩

theorem witness_ChainMessages_26 :
    ∃ (s : State) (c base size : Nat) (item : Bytes),
    (16 ≤ (s.ctx c).queue.length) :=
  ⟨{ chn with ctxs := [(255, { state := .decoding, queue := List.replicate 16 auR })] }, 255, 0, 4096, [1], by decide +kernel⟩

theorem witness_ChainMessages_27 :
    ∃ (p : Fin 2) (m : Msg) (s u : State),
    (deliver s p.val m = (u, true)) ∧ (m.kind = 9) ∧ let i := m.h8 9; let r := u.rxSurf i; let mine := u.ctl.core = true ∧ i ≤ 15 ∧ r.enabled = true ∧ r.slot = m.h8 8 ∧ unitOf u r.origin = some m.origin.toNat; (¬ mine) :=
  ⟨1, msg 9 (hput 8 1 15 + hput 9 1 15 + hput 10 1 0 + hput 12 4 8 + hput 16 4 64) [5, 6], chn, rx (chn) (msg 9 (hput 8 1 15 + hput 9 1 15 + hput 10 1 0 + hput 12 4 8 + hput 16 4 64) [5, 6]), by decide +kernel⟩

theorem witness_ChainMessages_28 :
    ∃ (p : Fin 2) (m : Msg) (s u : State),
    (deliver s p.val m = (u, true)) ∧ (m.kind = 9) ∧ let i := m.h8 9; let r := u.rxSurf i; let mine := u.ctl.core = true ∧ i ≤ 15 ∧ r.enabled = true ∧ r.slot = m.h8 8 ∧ unitOf u r.origin = some m.origin.toNat; (mine) :=
  ⟨1, msg 9 (hput 8 1 15 + hput 9 1 15 + hput 10 1 0 + hput 12 4 8 + hput 16 4 64) [5, 6], { chn with surfs := [(4095, surf)], chain := { chn.chain with rxF := [(15, { enabled := true, m := 2, origin := 6, slot := 15, first := 4094, cur := some 8, target := some 4095, band := some 0, last := 64 })] } }, rx ({ chn with surfs := [(4095, surf)], chain := { chn.chain with rxF := [(15, { enabled := true, m := 2, origin := 6, slot := 15, first := 4094, cur := some 8, target := some 4095, band := some 0, last := 64 })] } }) (msg 9 (hput 8 1 15 + hput 9 1 15 + hput 10 1 0 + hput 12 4 8 + hput 16 4 64) [5, 6]), by decide +kernel⟩

theorem witness_ChainMessages_29 :
    ∃ (p : Fin 2) (m : Msg) (s u : State) (n : Nat),
    (deliver s p.val m = (u, true)) ∧ (m.kind = 9) ∧ let i := m.h8 9; let r := u.rxSurf i; let k := BitVec.ofNat 32 (m.hN 12 4); let mine := u.ctl.core = true ∧ i ≤ 15 ∧ r.enabled = true ∧ r.slot = m.h8 8 ∧ unitOf u r.origin = some m.origin.toNat; (mine) ∧ (r.cur = some k) ∧ (r.band = some (m.h8 10)) ∧ (r.target = some n) ∧ (m.h8 10 < surfBands (u.surf n)) ∧ ((bitOf (m.h8 11) 2 = true → m.h8 10 + 1 = surfBands (u.surf n))) ∧ (bitOf (m.h8 11) 1 = false) ∧ ((r.packed = true ∨ m.hN 16 4 + m.body.length ≤ 16 * (u.surf n).tx + bandLen (u.surf n) (m.h8 10))) :=
  ⟨1, msg 9 (hput 8 1 15 + hput 9 1 15 + hput 10 1 0 + hput 12 4 8 + hput 16 4 64) [5, 6], { chn with surfs := [(4095, surf)], chain := { chn.chain with rxF := [(15, { enabled := true, m := 2, origin := 6, slot := 15, first := 4094, cur := some 8, target := some 4095, band := some 0, last := 64 })] } }, rx ({ chn with surfs := [(4095, surf)], chain := { chn.chain with rxF := [(15, { enabled := true, m := 2, origin := 6, slot := 15, first := 4094, cur := some 8, target := some 4095, band := some 0, last := 64 })] } }) (msg 9 (hput 8 1 15 + hput 9 1 15 + hput 10 1 0 + hput 12 4 8 + hput 16 4 64) [5, 6]), 4095, by decide +kernel⟩

theorem witness_ChainMessages_30 :
    ∃ (p : Fin 2) (m : Msg) (s u : State),
    (deliver s p.val m = (u, true)) ∧ (m.kind = 10) ∧ let o := m.origin.toNat; let off := m.hN 8 4; let len := m.hN 12 4; let open_ := u.bit CHN_VAULT 0 = true ∧ u.rdn.zeroing = false ∧ u.fld CHN_VAULT 1 3 = o ∧ off + len ≤ 0x800000; (¬ open_) :=
  ⟨1, msg 10 (hput 8 4 0 + hput 12 4 1 + hput 16 4 9) ([1]), chn, rx (chn) (msg 10 (hput 8 4 0 + hput 12 4 1 + hput 16 4 9) ([1])), by decide +kernel⟩

theorem witness_ChainMessages_31 :
    ∃ (p : Fin 2) (m : Msg) (s u : State),
    (deliver s p.val m = (u, true)) ∧ (m.kind = 10) ∧ let o := m.origin.toNat; let off := m.hN 8 4; let len := m.hN 12 4; let open_ := u.bit CHN_VAULT 0 = true ∧ u.rdn.zeroing = false ∧ u.fld CHN_VAULT 1 3 = o ∧ off + len ≤ 0x800000; (open_) :=
  ⟨1, msg 10 (hput 8 4 0x7FFFFF + hput 12 4 1 + hput 16 4 9) ([1]), withRegs [(CHN_VAULT, 9)] chn, rx (withRegs [(CHN_VAULT, 9)] chn) (msg 10 (hput 8 4 0x7FFFFF + hput 12 4 1 + hput 16 4 9) ([1])), by decide +kernel⟩

theorem witness_ChainMessages_32 :
    ∃ (p : Fin 2) (m : Msg) (s u : State),
    (deliver s p.val m = (u, true)) ∧ (m.kind = 10) ∧ let o := m.origin.toNat; let off := m.hN 8 4; let len := m.hN 12 4; let open_ := u.bit CHN_VAULT 0 = true ∧ u.rdn.zeroing = false ∧ u.fld CHN_VAULT 1 3 = o ∧ off + len ≤ 0x800000; let waits := (memDec u chnVaultAccess .w (0x3000000 + off)).1 = .held ∨ mustWait u { acc := chnVaultAccess, typ := .w, addr := 0x3000000 + off, len := len } = true; (open_) ∧ (0 < len) ∧ (off / 0x1000 = (off + len - 1) / 0x1000) ∧ (waits) :=
  ⟨1, msg 10 (hput 8 4 0x10 + hput 12 4 1 + hput 16 4 9) [1], withRegs [(CHN_VAULT, 9), (MG_BASE_ACT 7 0, 0x11000000), (MG_ATTR_ACT 7 0, 0x1F1F1F), (MG_PART_ACT 7 0, 0xFFFFFFFF), (MG_CTRL 7 0, 2)] chn, rx (withRegs [(CHN_VAULT, 9), (MG_BASE_ACT 7 0, 0x11000000), (MG_ATTR_ACT 7 0, 0x1F1F1F), (MG_PART_ACT 7 0, 0xFFFFFFFF), (MG_CTRL 7 0, 2)] chn) (msg 10 (hput 8 4 0x10 + hput 12 4 1 + hput 16 4 9) [1]), by decide +kernel⟩

theorem witness_ChainMessages_33 :
    ∃ (p : Fin 2) (m : Msg) (s u : State),
    (deliver s p.val m = (u, true)) ∧ (m.kind = 10) ∧ let o := m.origin.toNat; let off := m.hN 8 4; let len := m.hN 12 4; let open_ := u.bit CHN_VAULT 0 = true ∧ u.rdn.zeroing = false ∧ u.fld CHN_VAULT 1 3 = o ∧ off + len ≤ 0x800000; let waits := (memDec u chnVaultAccess .w (0x3000000 + off)).1 = .held ∨ mustWait u { acc := chnVaultAccess, typ := .w, addr := 0x3000000 + off, len := len } = true; (open_) ∧ (0 < len) ∧ (off / 0x1000 = (off + len - 1) / 0x1000) ∧ (¬ waits) ∧ ((memDec u chnVaultAccess .w (0x3000000 + off)).1 = .ok) :=
  ⟨1, msg 10 (hput 8 4 0x7FFFFF + hput 12 4 1 + hput 16 4 9) ([1]), withRegs [(CHN_VAULT, 9)] chn, rx (withRegs [(CHN_VAULT, 9)] chn) (msg 10 (hput 8 4 0x7FFFFF + hput 12 4 1 + hput 16 4 9) ([1])), by decide +kernel⟩

theorem witness_ChainMessages_34 :
    ∃ (p : Fin 2) (m : Msg) (s u : State),
    (deliver s p.val m = (u, true)) ∧ (m.kind = 6) ∧ let o := m.origin.toNat; let v := evcPulse u 57; let w := mapUpdate (v.setPeer o { v.peer o with holder := false, mode := 6 }); let mine := bitOf (m.h8 9) 0 = true ∧ m.h8 8 = w.logicalId ∧ rdnRole w = 2 ∧ w.bit RDN_ROLE 2 = true; (¬ mine) :=
  ⟨1, { msg 6 (hput 8 1 5 + hput 9 1 1) [] with bcast := true }, chn, rx (chn) ({ msg 6 (hput 8 1 5 + hput 9 1 1) [] with bcast := true }), by decide +kernel⟩

theorem witness_ChainMessages_35 :
    ∃ (p : Fin 2) (m : Msg) (s u : State),
    (deliver s p.val m = (u, true)) ∧ (m.kind = 6) ∧ let o := m.origin.toNat; let v := evcPulse u 57; let w := mapUpdate (v.setPeer o { v.peer o with holder := false, mode := 6 }); let mine := bitOf (m.h8 9) 0 = true ∧ m.h8 8 = w.logicalId ∧ rdnRole w = 2 ∧ w.bit RDN_ROLE 2 = true; (mine) ∧ (w.ctl.target.isSome = true) :=
  ⟨1, { msg 6 (hput 8 1 5 + hput 9 1 1) [] with bcast := true }, withRegs [(RDN_ROLE, 0x00FF0046)] { rdn 2 (unit upPort (base .keep)) with ctl := { powered .keep with target := some (2, false) } }, rx (withRegs [(RDN_ROLE, 0x00FF0046)] { rdn 2 (unit upPort (base .keep)) with ctl := { powered .keep with target := some (2, false) } }) ({ msg 6 (hput 8 1 5 + hput 9 1 1) [] with bcast := true }), by decide +kernel⟩

theorem witness_ChainMessages_36 :
    ∃ (p : Fin 2) (m : Msg) (s u : State),
    (deliver s p.val m = (u, true)) ∧ (m.kind = 6) ∧ let o := m.origin.toNat; let v := evcPulse u 57; let w := mapUpdate (v.setPeer o { v.peer o with holder := false, mode := 6 }); let mine := bitOf (m.h8 9) 0 = true ∧ m.h8 8 = w.logicalId ∧ rdnRole w = 2 ∧ w.bit RDN_ROLE 2 = true; (mine) ∧ (w.ctl.target = none) :=
  ⟨1, { msg 6 (hput 8 1 5 + hput 9 1 1) [] with bcast := true }, withRegs [(RDN_ROLE, 0x00FF0046)] { rdn 2 (unit upPort (base .keep)) with ctl := { powered .keep with target := none } }, rx (withRegs [(RDN_ROLE, 0x00FF0046)] { rdn 2 (unit upPort (base .keep)) with ctl := { powered .keep with target := none } }) ({ msg 6 (hput 8 1 5 + hput 9 1 1) [] with bcast := true }), by decide +kernel⟩

theorem witness_ChainCommands_1 :
    ∃ (q : Req) (s : State),
    (Admitted s q (bodyMask [(16, 0, 8), (17, 0, 2), (18, 0, 24)])) ∧ let i := q.u8 16; let good := i ≤ 31 ∧ q.u8 19 ≤ 7 ∧ (q.bit 17 1 = true → q.u8 18 ≤ 31); (q.bit 17 0 = true) ∧ (¬ good) :=
  ⟨req (b 16 32 + b 17 1 + b 18 255 + b 19 6 + b 20 31), chn, by decide +kernel⟩

theorem witness_ChainCommands_2 :
    ∃ (q : Req) (s : State),
    (Admitted s q (bodyMask [(16, 0, 8), (17, 0, 2), (18, 0, 24)])) ∧ let i := q.u8 16; let good := i ≤ 31 ∧ q.u8 19 ≤ 7 ∧ (q.bit 17 1 = true → q.u8 18 ≤ 31); let owns := if q.bit 17 1 then ownsSess s q.part.val (q.u8 18) else ownsCtx s q.part.val (q.u8 18); (q.bit 17 0 = true) ∧ (good) ∧ (owns = false) :=
  ⟨req (b 16 31 + b 17 3 + b 18 31 + b 19 6 + b 20 31), { chn with parts := [(0, { owner with sess := ⟨0, 16⟩, ctx := ⟨0, 16⟩, surf := ⟨0, 16⟩, follow := ⟨0, 16⟩ })] }, by decide +kernel⟩

theorem witness_ChainCommands_3 :
    ∃ (q : Req) (s : State),
    (Admitted s q (bodyMask [(16, 0, 8), (17, 0, 2), (18, 0, 24)])) ∧ let i := q.u8 16; let t := s.txStream i; let good := i ≤ 31 ∧ q.u8 19 ≤ 7 ∧ (q.bit 17 1 = true → q.u8 18 ≤ 31); let owns := if q.bit 17 1 then ownsSess s q.part.val (q.u8 18) else ownsCtx s q.part.val (q.u8 18); (q.bit 17 0 = true) ∧ (good) ∧ (owns = true) ∧ (t.enabled = true) :=
  ⟨req (b 16 31 + b 17 1 + b 18 255 + b 19 6), { chn with chain := { chn.chain with txS := [(31, { enabled := true })] } }, by decide +kernel⟩

theorem witness_ChainCommands_4 :
    ∃ (q : Req) (s : State),
    (Admitted s q (bodyMask [(16, 0, 8), (17, 0, 2), (18, 0, 24)])) ∧ let i := q.u8 16; let t := s.txStream i; let good := i ≤ 31 ∧ q.u8 19 ≤ 7 ∧ (q.bit 17 1 = true → q.u8 18 ≤ 31); let owns := if q.bit 17 1 then ownsSess s q.part.val (q.u8 18) else ownsCtx s q.part.val (q.u8 18); (q.bit 17 0 = true) ∧ (good) ∧ (owns = true) ∧ (t.enabled = false) ∧ (unitOf s (q.u8 19) = none) :=
  ⟨req (b 16 31 + b 17 1 + b 18 255 + b 19 0), chn, by decide +kernel⟩

theorem witness_ChainCommands_5 :
    ∃ (q : Req) (s : State),
    (Admitted s q (bodyMask [(16, 0, 8), (17, 0, 2), (18, 0, 24)])) ∧ let i := q.u8 16; let t := s.txStream i; let good := i ≤ 31 ∧ q.u8 19 ≤ 7 ∧ (q.bit 17 1 = true → q.u8 18 ≤ 31); let owns := if q.bit 17 1 then ownsSess s q.part.val (q.u8 18) else ownsCtx s q.part.val (q.u8 18); (q.bit 17 0 = true) ∧ (good) ∧ (owns = true) ∧ (t.enabled = false) ∧ ((unitOf s (q.u8 19)).isSome = true) :=
  ⟨req (b 16 31 + b 17 1 + b 18 255 + b 19 6 + b 20 31), chn, by decide +kernel⟩

theorem witness_ChainCommands_6 :
    ∃ (q : Req) (s : State),
    (Admitted s q (bodyMask [(16, 0, 8), (17, 0, 2), (18, 0, 24)])) ∧ (q.bit 17 0 = false) :=
  ⟨req (b 16 31), chn, by decide +kernel⟩

theorem witness_ChainCommands_7 :
    ∃ (q : Req) (s : State),
    (Admitted s q (bodyMask [(16, 0, 8), (17, 0, 1), (18, 0, 16), (24, 0, 40), (32, 0, 32)])) ∧ let i := q.u8 16; let c := s.ctx i; let good := q.u8 18 ≤ 7 ∧ q.u8 19 ≤ 31 ∧ q.u40 24 % 4096 = 0 ∧ q.u32 32 % 4096 = 0 ∧ q.u32 32 ≠ 0 ∧ q.u40 24 + q.u32 32 ≤ 2 ^ 40 ∧ c.state ≠ .closed; (q.bit 17 0 = true) ∧ (¬ good) :=
  ⟨req (b 16 31 + b 17 1 + b 18 255 + b 19 6), { chn with chain := { chn.chain with txS := [(31, { enabled := true })] } }, by decide +kernel⟩

theorem witness_ChainCommands_8 :
    ∃ (q : Req) (s : State),
    (Admitted s q (bodyMask [(16, 0, 8), (17, 0, 1), (18, 0, 16), (24, 0, 40), (32, 0, 32)])) ∧ let i := q.u8 16; let c := s.ctx i; let good := q.u8 18 ≤ 7 ∧ q.u8 19 ≤ 31 ∧ q.u40 24 % 4096 = 0 ∧ q.u32 32 % 4096 = 0 ∧ q.u32 32 ≠ 0 ∧ q.u40 24 + q.u32 32 ≤ 2 ^ 40 ∧ c.state ≠ .closed; (q.bit 17 0 = true) ∧ (good) ∧ (ownsCtx s q.part.val i = false) :=
  ⟨req (b 16 255 + b 17 1 + b 18 7 + b 19 31 + b 24 0xFFFFFFF000 + b 32 0x1000), { chn with ctxs := [(255, { state := .decoding })], parts := [(0, { owner with sess := ⟨0, 16⟩, ctx := ⟨0, 16⟩, surf := ⟨0, 16⟩, follow := ⟨0, 16⟩ })] }, by decide +kernel⟩

theorem witness_ChainCommands_9 :
    ∃ (q : Req) (s : State),
    (Admitted s q (bodyMask [(16, 0, 8), (17, 0, 1), (18, 0, 16), (24, 0, 40), (32, 0, 32)])) ∧ let i := q.u8 16; let c := s.ctx i; let good := q.u8 18 ≤ 7 ∧ q.u8 19 ≤ 31 ∧ q.u40 24 % 4096 = 0 ∧ q.u32 32 % 4096 = 0 ∧ q.u32 32 ≠ 0 ∧ q.u40 24 + q.u32 32 ≤ 2 ^ 40 ∧ c.state ≠ .closed; let busy := c.rx.isSome = true ∨ ∃ f ∈ s.flows, f.2.ctx = some i; (q.bit 17 0 = true) ∧ (good) ∧ (ownsCtx s q.part.val i = true) ∧ (busy) :=
  ⟨req (b 16 255 + b 17 1 + b 18 7 + b 19 31 + b 24 0xFFFFFFF000 + b 32 0x1000), { chn with ctxs := [(255, { state := .decoding, rx := some (6, 31, 0x181000000, 0x10000) })] }, by decide +kernel⟩

theorem witness_ChainCommands_10 :
    ∃ (q : Req) (s : State),
    (Admitted s q (bodyMask [(16, 0, 8), (17, 0, 1), (18, 0, 16), (24, 0, 40), (32, 0, 32)])) ∧ let i := q.u8 16; let c := s.ctx i; let good := q.u8 18 ≤ 7 ∧ q.u8 19 ≤ 31 ∧ q.u40 24 % 4096 = 0 ∧ q.u32 32 % 4096 = 0 ∧ q.u32 32 ≠ 0 ∧ q.u40 24 + q.u32 32 ≤ 2 ^ 40 ∧ c.state ≠ .closed; let busy := c.rx.isSome = true ∨ ∃ f ∈ s.flows, f.2.ctx = some i; (q.bit 17 0 = true) ∧ (good) ∧ (ownsCtx s q.part.val i = true) ∧ (¬ busy) :=
  ⟨req (b 16 255 + b 17 1 + b 18 7 + b 19 31 + b 24 0xFFFFFFF000 + b 32 0x1000), { chn with ctxs := [(255, { state := .decoding })] }, by decide +kernel⟩

theorem witness_ChainCommands_11 :
    ∃ (q : Req) (s : State),
    (Admitted s q (bodyMask [(16, 0, 8), (17, 0, 1), (18, 0, 16), (24, 0, 40), (32, 0, 32)])) ∧ (q.bit 17 0 = false) :=
  ⟨req (b 16 31), chn, by decide +kernel⟩

theorem witness_ChainCommands_12 :
    ∃ (q : Req) (s : State),
    (Admitted s q (bodyMask [(16, 0, 8), (17, 0, 3), (18, 0, 24), (22, 0, 16)])) ∧ let i := q.u8 16; let good := i ≤ 15 ∧ q.u8 19 ≤ 7 ∧ q.u8 20 ≤ 15 ∧ (q.bit 17 2 = true → 1 ≤ q.u8 18 ∧ q.u8 18 ≤ 9) ∧ q.u16 22 ≤ (if q.bit 17 1 then 127 else 4095); (q.bit 17 0 = true) ∧ (¬ good) :=
  ⟨req (b 16 31 + b 17 1 + b 18 255 + b 19 6 + b 20 31), chn, by decide +kernel⟩

theorem witness_ChainCommands_13 :
    ∃ (q : Req) (s : State),
    (Admitted s q (bodyMask [(16, 0, 8), (17, 0, 3), (18, 0, 24), (22, 0, 16)])) ∧ let i := q.u8 16; let good := i ≤ 15 ∧ q.u8 19 ≤ 7 ∧ q.u8 20 ≤ 15 ∧ (q.bit 17 2 = true → 1 ≤ q.u8 18 ∧ q.u8 18 ≤ 9) ∧ q.u16 22 ≤ (if q.bit 17 1 then 127 else 4095); let owns := if q.bit 17 1 then ownsFollow s q.part.val (q.u16 22) else ownsSurf s q.part.val (q.u16 22); (q.bit 17 0 = true) ∧ (good) ∧ (owns = false) :=
  ⟨req (b 16 0 + b 17 3 + b 19 6 + b 22 63), { chn with parts := [(0, { owner with sess := ⟨0, 16⟩, ctx := ⟨0, 16⟩, surf := ⟨0, 16⟩, follow := ⟨0, 16⟩ })] }, by decide +kernel⟩

theorem witness_ChainCommands_14 :
    ∃ (q : Req) (s : State),
    (Admitted s q (bodyMask [(16, 0, 8), (17, 0, 3), (18, 0, 24), (22, 0, 16)])) ∧ let i := q.u8 16; let good := i ≤ 15 ∧ q.u8 19 ≤ 7 ∧ q.u8 20 ≤ 15 ∧ (q.bit 17 2 = true → 1 ≤ q.u8 18 ∧ q.u8 18 ≤ 9) ∧ q.u16 22 ≤ (if q.bit 17 1 then 127 else 4095); let owns := if q.bit 17 1 then ownsFollow s q.part.val (q.u16 22) else ownsSurf s q.part.val (q.u16 22); (q.bit 17 0 = true) ∧ (good) ∧ (owns = true) ∧ (q.bit 17 1 = false) ∧ ((s.surf (q.u16 22)).reg = false) :=
  ⟨req (b 16 15 + b 17 5 + b 18 9 + b 19 6 + b 20 15 + b 22 4095), chn, by decide +kernel⟩

theorem witness_ChainCommands_15 :
    ∃ (q : Req) (s : State),
    (Admitted s q (bodyMask [(16, 0, 8), (17, 0, 3), (18, 0, 24), (22, 0, 16)])) ∧ let i := q.u8 16; let good := i ≤ 15 ∧ q.u8 19 ≤ 7 ∧ q.u8 20 ≤ 15 ∧ (q.bit 17 2 = true → 1 ≤ q.u8 18 ∧ q.u8 18 ≤ 9) ∧ q.u16 22 ≤ (if q.bit 17 1 then 127 else 4095); let owns := if q.bit 17 1 then ownsFollow s q.part.val (q.u16 22) else ownsSurf s q.part.val (q.u16 22); (q.bit 17 0 = true) ∧ (good) ∧ (owns = true) ∧ ((q.bit 17 1 = true ∨ (s.surf (q.u16 22)).reg = true)) :=
  ⟨req (b 16 15 + b 17 5 + b 18 9 + b 19 6 + b 20 15 + b 22 4095), { chn with surfs := [(4095, { surf with reg := true })] }, by decide +kernel⟩

theorem witness_ChainCommands_16 :
    ∃ (q : Req) (s : State),
    (Admitted s q (bodyMask [(16, 0, 8), (17, 0, 3), (18, 0, 24), (22, 0, 16)])) ∧ (q.bit 17 0 = false) :=
  ⟨req (b 16 31), chn, by decide +kernel⟩

theorem witness_ChainCommands_17 :
    ∃ (q : Req) (s : State),
    (Admitted s q (bodyMask [(16, 0, 8), (17, 0, 3), (18, 0, 24), (22, 0, 80)])) ∧ let i := q.u8 16; let good := i ≤ 15 ∧ 2 ≤ q.u8 18 ∧ q.u8 18 ≤ 4 ∧ q.u8 19 ≤ 7 ∧ q.u8 20 ≤ 15 ∧ q.u16 22 + q.u8 18 ≤ 4096 ∧ (q.bit 17 1 = true → q.u64 24 % 8 = 0); (q.bit 17 0 = true) ∧ (¬ good) :=
  ⟨req (b 16 31 + b 17 1 + b 18 255 + b 19 6 + b 20 31), chn, by decide +kernel⟩

theorem witness_ChainCommands_18 :
    ∃ (q : Req) (s : State),
    (Admitted s q (bodyMask [(16, 0, 8), (17, 0, 3), (18, 0, 24), (22, 0, 80)])) ∧ let i := q.u8 16; let all := fun (f : Nat → Bool) => ∀ n, q.u16 22 ≤ n → n < q.u16 22 + q.u8 18 → f n = true; let good := i ≤ 15 ∧ 2 ≤ q.u8 18 ∧ q.u8 18 ≤ 4 ∧ q.u8 19 ≤ 7 ∧ q.u8 20 ≤ 15 ∧ q.u16 22 + q.u8 18 ≤ 4096 ∧ (q.bit 17 1 = true → q.u64 24 % 8 = 0); (q.bit 17 0 = true) ∧ (good) ∧ (¬ all (ownsSurf s q.part.val)) :=
  ⟨req (b 16 15 + b 17 3 + b 18 2 + b 19 7 + b 20 15 + b 22 4094 + b 24 0xFFFFFFFFFFFFFFF8), { chn with parts := [(0, { owner with sess := ⟨0, 16⟩, ctx := ⟨0, 16⟩, surf := ⟨0, 16⟩, follow := ⟨0, 16⟩ })] }, by decide +kernel⟩

theorem witness_ChainCommands_19 :
    ∃ (q : Req) (s : State),
    (Admitted s q (bodyMask [(16, 0, 8), (17, 0, 3), (18, 0, 24), (22, 0, 80)])) ∧ let i := q.u8 16; let all := fun (f : Nat → Bool) => ∀ n, q.u16 22 ≤ n → n < q.u16 22 + q.u8 18 → f n = true; let good := i ≤ 15 ∧ 2 ≤ q.u8 18 ∧ q.u8 18 ≤ 4 ∧ q.u8 19 ≤ 7 ∧ q.u8 20 ≤ 15 ∧ q.u16 22 + q.u8 18 ≤ 4096 ∧ (q.bit 17 1 = true → q.u64 24 % 8 = 0); (q.bit 17 0 = true) ∧ (good) ∧ (all (ownsSurf s q.part.val)) ∧ (¬ all (fun n => (s.surf n).reg)) :=
  ⟨req (b 16 15 + b 17 3 + b 18 2 + b 19 7 + b 20 15 + b 22 4094 + b 24 0xFFFFFFFFFFFFFFF8), { chn with surfs := [(4094, { surf with reg := true }), (4095, surf)] }, by decide +kernel⟩

theorem witness_ChainCommands_20 :
    ∃ (q : Req) (s : State),
    (Admitted s q (bodyMask [(16, 0, 8), (17, 0, 3), (18, 0, 24), (22, 0, 80)])) ∧ let i := q.u8 16; let all := fun (f : Nat → Bool) => ∀ n, q.u16 22 ≤ n → n < q.u16 22 + q.u8 18 → f n = true; let good := i ≤ 15 ∧ 2 ≤ q.u8 18 ∧ q.u8 18 ≤ 4 ∧ q.u8 19 ≤ 7 ∧ q.u8 20 ≤ 15 ∧ q.u16 22 + q.u8 18 ≤ 4096 ∧ (q.bit 17 1 = true → q.u64 24 % 8 = 0); (q.bit 17 0 = true) ∧ (good) ∧ (all (ownsSurf s q.part.val)) ∧ (all (fun n => (s.surf n).reg)) :=
  ⟨req (b 16 15 + b 17 3 + b 18 2 + b 19 7 + b 20 15 + b 22 4094 + b 24 0xFFFFFFFFFFFFFFF8), { chn with surfs := [(4094, { surf with reg := true }), (4095, { surf with reg := true })] }, by decide +kernel⟩

theorem witness_ChainCommands_21 :
    ∃ (q : Req) (s : State),
    (Admitted s q (bodyMask [(16, 0, 8), (17, 0, 3), (18, 0, 24), (22, 0, 80)])) ∧ (q.bit 17 0 = false) :=
  ⟨req (b 16 31), chn, by decide +kernel⟩

theorem witness_ChainCommands_22 :
    ∃ (q : Req) (s : State),
    (Admitted s q (bodyMask [(16, 0, 32), (24, 0, 64)])) ∧ let good := (q.u8 16 ≤ 7 ∨ q.u8 16 = 255) ∧ q.u8 17 ≤ 15 ∧ q.u16 18 ≠ 0 ∧ q.u16 18 ≤ 256; (¬ good) :=
  ⟨req (b 16 31), chn, by decide +kernel⟩

theorem witness_ChainCommands_23 :
    ∃ (q : Req) (s : State),
    (Admitted s q (bodyMask [(16, 0, 32), (24, 0, 64)])) ∧ let good := (q.u8 16 ≤ 7 ∨ q.u8 16 = 255) ∧ q.u8 17 ≤ 15 ∧ q.u16 18 ≠ 0 ∧ q.u16 18 ≤ 256; (good) ∧ (q.u8 16 = 255) ∧ let os := ([0, 1] : List Nat).filter fun o => (s.port o).state == .up; (os = []) :=
  ⟨reqH (b 16 255 + b 17 15 + b 18 2) [7, 8], unit { state := .ready } run, by decide +kernel⟩

theorem witness_ChainCommands_24 :
    ∃ (q : Req) (s : State),
    (Admitted s q (bodyMask [(16, 0, 32), (24, 0, 64)])) ∧ let good := (q.u8 16 ≤ 7 ∨ q.u8 16 = 255) ∧ q.u8 17 ≤ 15 ∧ q.u16 18 ≠ 0 ∧ q.u16 18 ≤ 256; (good) ∧ (q.u8 16 = 255) ∧ let os := ([0, 1] : List Nat).filter fun o => (s.port o).state == .up; (os ≠ []) :=
  ⟨reqH (b 16 255 + b 17 15 + b 18 2) [7, 8], chn, by decide +kernel⟩

theorem witness_ChainCommands_25 :
    ∃ (q : Req) (s : State),
    (Admitted s q (bodyMask [(16, 0, 32), (24, 0, 64)])) ∧ let good := (q.u8 16 ≤ 7 ∨ q.u8 16 = 255) ∧ q.u8 17 ≤ 15 ∧ q.u16 18 ≠ 0 ∧ q.u16 18 ≤ 256; (good) ∧ (q.u8 16 ≠ 255) ∧ (unitOf s (q.u8 16) = none) :=
  ⟨reqH (b 16 0 + b 18 1) [7], chn, by decide +kernel⟩

theorem witness_ChainCommands_26 :
    ∃ (q : Req) (s : State) (a : Nat),
    (Admitted s q (bodyMask [(16, 0, 32), (24, 0, 64)])) ∧ let good := (q.u8 16 ≤ 7 ∨ q.u8 16 = 255) ∧ q.u8 17 ≤ 15 ∧ q.u16 18 ≠ 0 ∧ q.u16 18 ≤ 256; (good) ∧ (q.u8 16 ≠ 255) ∧ (unitOf s (q.u8 16) = some a) ∧ ((s.port 0).state ≠ .up) ∧ ((s.port 1).state ≠ .up) :=
  ⟨reqH (b 16 6 + b 18 1) [7], unit { state := .ready } run, 4, by decide +kernel⟩

theorem witness_ChainCommands_27 :
    ∃ (q : Req) (s : State) (a : Nat),
    (Admitted s q (bodyMask [(16, 0, 32), (24, 0, 64)])) ∧ let good := (q.u8 16 ≤ 7 ∨ q.u8 16 = 255) ∧ q.u8 17 ≤ 15 ∧ q.u16 18 ≠ 0 ∧ q.u16 18 ≤ 256; (good) ∧ (q.u8 16 ≠ 255) ∧ (unitOf s (q.u8 16) = some a) ∧ let o := if s.bit CHN_ROUTE a then 0 else 1; ((s.port o).state ≠ .up) ∧ ((s.port (1 - o)).state = .up) :=
  ⟨reqH (b 16 6 + b 18 1) [7], { chn with chain := { chn.chain with ports := [(0, upPort)] } }, 4, by decide +kernel⟩

theorem witness_ChainCommands_28 :
    ∃ (q : Req) (s : State) (a : Nat),
    (Admitted s q (bodyMask [(16, 0, 32), (24, 0, 64)])) ∧ let good := (q.u8 16 ≤ 7 ∨ q.u8 16 = 255) ∧ q.u8 17 ≤ 15 ∧ q.u16 18 ≠ 0 ∧ q.u16 18 ≤ 256; (good) ∧ (q.u8 16 ≠ 255) ∧ (unitOf s (q.u8 16) = some a) ∧ let o := if s.bit CHN_ROUTE a then 0 else 1; ((s.port o).state = .up) :=
  ⟨reqH (b 16 6 + b 17 15 + b 18 256) (List.replicate 256 7), chn, 4, by decide +kernel⟩

theorem witness_ChainCommands_29 :
    ∃ (q : Req) (s : State),
    (Admitted s q (bodyMask [(16, 0, 2), (17, 0, 8), (24, 0, 64)])) ∧ let good := 4 ≤ q.u8 17 ∧ q.u8 17 ≤ 10 ∧ q.u64 24 % 4096 = 0; (q.bit 16 0 = true) ∧ (good) :=
  ⟨req (b 16 3 + b 17 10 + b 24 0xFFFFFFFFFFFFF000), chn, by decide +kernel⟩

theorem witness_ChainCommands_30 :
    ∃ (q : Req) (s : State),
    (Admitted s q (bodyMask [(16, 0, 2), (17, 0, 8), (24, 0, 64)])) ∧ let good := 4 ≤ q.u8 17 ∧ q.u8 17 ≤ 10 ∧ q.u64 24 % 4096 = 0; (q.bit 16 0 = true) ∧ (¬ good) :=
  ⟨req (b 16 1 + b 17 4 + b 24 0x1001), chn, by decide +kernel⟩

theorem witness_ChainCommands_31 :
    ∃ (q : Req) (s : State),
    (Admitted s q (bodyMask [(16, 0, 2), (17, 0, 8), (24, 0, 64)])) ∧ (q.bit 16 0 = false) :=
  ⟨req (b 16 0), { chn with chain := { chn.chain with txS := [(0, { enabled := true, nMsgs := 4 })] } }, by decide +kernel⟩

theorem witness_RdnCommands_1 :
    ∃ (a : Access) (v : Word) (s : State) (c : Instr),
    (Reaches s a .w RDN_CMD) ∧ ((c = .rdnCmdTakeover a v ∨ c = .rdnCmdShadow a v ∨ c = .rdnCmdKeep a v ∨ c = .rdnCmdCkpt a v)) :=
  ⟨desk, 1, rdn 2 (unit upPort (base .keep)), .rdnCmdTakeover desk 1, by decide +kernel⟩

theorem witness_RdnCommands_2 :
    ∃ (s : State) (op : Nat),
    let role := s.fld RDN_ROLE 0 2; (1 ≤ op) ∧ (op ≤ 3) ∧ (role ≠ 2) :=
  ⟨run, 1, by decide +kernel⟩

theorem witness_RdnCommands_3 :
    ∃ (s : State) (op : Nat),
    let role := s.fld RDN_ROLE 0 2; let mode := fun (op : Nat) => s.ctl.target = none ∧ (op = 1 ∧ (s.ctl.mode = .keep ∨ s.ctl.mode = .shadow) ∨ op = 2 ∧ s.ctl.mode = .keep ∨ op = 3 ∧ s.ctl.mode = .shadow); (1 ≤ op) ∧ (op ≤ 3) ∧ (role = 2) ∧ (¬ mode op) :=
  ⟨rdn 2 (unit upPort (base .keep)), 3, by decide +kernel⟩

theorem witness_RdnCommands_4 :
    ∃ (s : State) (op : Nat),
    let role := s.fld RDN_ROLE 0 2; let mode := fun (op : Nat) => s.ctl.target = none ∧ (op = 1 ∧ (s.ctl.mode = .keep ∨ s.ctl.mode = .shadow) ∨ op = 2 ∧ s.ctl.mode = .keep ∨ op = 3 ∧ s.ctl.mode = .shadow); (1 ≤ op) ∧ (op ≤ 3) ∧ (role = 2) ∧ (mode op) :=
  ⟨rdn 2 (unit upPort (base .keep)), 2, by decide +kernel⟩

theorem witness_RdnCommands_5 :
    ∃ (u : State) (op why : Nat),
    (op = 2) :=
  ⟨rdn 2 (unit upPort (base .keep)), 2, 1, by decide +kernel⟩

theorem witness_RdnCommands_6 :
    ∃ (u : State) (op why : Nat),
    (op = 3) :=
  ⟨rdn 2 (unit upPort (base .keep)), 3, 1, by decide +kernel⟩

theorem witness_RdnCommands_7 :
    ∃ (q : Req) (s : State),
    (Admitted s q 0) ∧ (isManager s q = false) :=
  ⟨req 0, withRegs [(PRT_MGR, 5)] (rdn 1 chn), by decide +kernel⟩

theorem witness_RdnCommands_8 :
    ∃ (q : Req) (s : State),
    (Admitted s q 0) ∧ (isManager s q = true) ∧ (ckptOn s = false) :=
  ⟨req 0, run, by decide +kernel⟩

theorem witness_RdnCommands_9 :
    ∃ (q : Req) (s : State),
    (Admitted s q 0) ∧ (isManager s q = true) ∧ (ckptOn s = true) :=
  ⟨req 0, rdn 9 chn, by decide +kernel⟩

theorem witness_RdnCommands_10 :
    ∃ (q : Req) (s : State),
    (Admitted s q (bodyMask [(16, 0, 8), (17, 0, 1)])) ∧ (isManager s q = false) :=
  ⟨req 0, withRegs [(PRT_MGR, 5)] (rdn 1 chn), by decide +kernel⟩

theorem witness_RdnCommands_11 :
    ∃ (q : Req) (s : State),
    (Admitted s q (bodyMask [(16, 0, 8), (17, 0, 1)])) ∧ let l := q.u8 16; (¬ (isManager s q = false)) ∧ (7 < l) :=
  ⟨req (b 16 8), rdn 1 chn, by decide +kernel⟩

theorem witness_RdnCommands_12 :
    ∃ (q : Req) (s : State),
    (Admitted s q (bodyMask [(16, 0, 8), (17, 0, 1)])) ∧ let l := q.u8 16; (¬ (isManager s q = false)) ∧ (¬ (7 < l)) :=
  ⟨req 0, run, by decide +kernel⟩

theorem witness_RdnCommands_13 :
    ∃ (q : Req) (s : State),
    (Admitted s q (bodyMask [(16, 0, 16)])) ∧ (isManager s q = false) :=
  ⟨req 0, withRegs [(PRT_MGR, 5)] (rdn 1 chn), by decide +kernel⟩

theorem witness_RdnCommands_14 :
    ∃ (q : Req) (s : State),
    (Admitted s q (bodyMask [(16, 0, 16)])) ∧ (¬ (isManager s q = false)) ∧ (7 < q.u8 16 ∨ 7 < q.u8 17) :=
  ⟨req (b 16 8), rdn 1 chn, by decide +kernel⟩

theorem witness_RdnCommands_15 :
    ∃ (q : Req) (s : State),
    (Admitted s q (bodyMask [(16, 0, 16)])) ∧ (¬ (isManager s q = false)) ∧ (¬ (7 < q.u8 16 ∨ 7 < q.u8 17)) ∧ (notStandby s (q.u8 16) (q.u8 17) = true) :=
  ⟨req 0, run, by decide +kernel⟩

theorem witness_RdnCommands_16 :
    ∃ (q : Req) (s : State),
    (Admitted s q (bodyMask [(16, 0, 16)])) ∧ (¬ (isManager s q = false)) ∧ (¬ (7 < q.u8 16 ∨ 7 < q.u8 17)) ∧ (¬ (notStandby s (q.u8 16) (q.u8 17) = true)) :=
  ⟨req 0, rdn 9 chn, by decide +kernel⟩

theorem witness_RdnCommands_17 :
    ∃ (u : State) (id op a : Nat),
    (a = u.physAddr) :=
  ⟨chn, 5, 1, 3, by decide +kernel⟩

theorem witness_RdnCommands_18 :
    ∃ (u : State) (id op a : Nat),
    (a ≠ u.physAddr) ∧ ((u.peer a).heard = none) :=
  ⟨chn, 5, 1, 6, by decide +kernel⟩

theorem witness_RdnCommands_19 :
    ∃ (u : State) (id op a : Nat),
    (a ≠ u.physAddr) ∧ ((u.peer a).heard ≠ none) :=
  ⟨chn, 5, 1, 4, by decide +kernel⟩

theorem witness_RdnCommands_20 :
    ∃ (q : Req) (s : State),
    (s.ctl.core = true) ∧ (s.ctl.mode.soile = true) ∧ (q.reservedSet (bodyMask [(16, 0, 64)]) = false) ∧ (badCring s q = false) ∧ (s.ctl.mode ≠ .run) :=
  ⟨req (b 16 50000000), rdn 1 (unit upPort (base .shadow)), by decide +kernel⟩

theorem witness_RdnCommands_21 :
    ∃ (q : Req) (s : State),
    (s.ctl.core = true) ∧ (s.ctl.mode.soile = true) ∧ (q.reservedSet (bodyMask [(16, 0, 64)]) = false) ∧ (badCring s q = false) ∧ (¬ (s.ctl.mode ≠ .run)) ∧ (isManager s q = false) :=
  ⟨req 0, withRegs [(PRT_MGR, 5)] (rdn 1 chn), by decide +kernel⟩

theorem witness_RdnCommands_22 :
    ∃ (q : Req) (s : State),
    (s.ctl.core = true) ∧ (s.ctl.mode.soile = true) ∧ (q.reservedSet (bodyMask [(16, 0, 64)]) = false) ∧ (badCring s q = false) ∧ (¬ (s.ctl.mode ≠ .run)) ∧ (¬ (isManager s q = false)) ∧ (s.fld RDN_ROLE 0 2 ≠ 1) :=
  ⟨req 0, run, by decide +kernel⟩

theorem witness_RdnCommands_23 :
    ∃ (q : Req) (s : State),
    (s.ctl.core = true) ∧ (s.ctl.mode.soile = true) ∧ (q.reservedSet (bodyMask [(16, 0, 64)]) = false) ∧ (badCring s q = false) ∧ let r := s.peer (s.fld RDN_ROLE 4 3); (¬ (s.ctl.mode ≠ .run)) ∧ (¬ (isManager s q = false)) ∧ (¬ (s.fld RDN_ROLE 0 2 ≠ 1)) ∧ (r.heard ≠ none ∧ (r.mode ≠ 3 ∨ r.logical ≠ s.logicalId)) :=
  ⟨req (b 16 50000000), withRegs [(RDN_ROLE, 0x00FF0041)] (unit upPort run), by decide +kernel⟩

theorem witness_RdnCommands_24 :
    ∃ (q : Req) (s : State),
    (s.ctl.core = true) ∧ (s.ctl.mode.soile = true) ∧ (q.reservedSet (bodyMask [(16, 0, 64)]) = false) ∧ (badCring s q = false) ∧ let r := s.peer (s.fld RDN_ROLE 4 3); (¬ (s.ctl.mode ≠ .run)) ∧ (¬ (isManager s q = false)) ∧ (¬ (s.fld RDN_ROLE 0 2 ≠ 1)) ∧ (¬ (r.heard ≠ none ∧ (r.mode ≠ 3 ∨ r.logical ≠ s.logicalId))) ∧ (swapBusy s = true) :=
  ⟨req (b 16 50000000), withRegs [(CMP_SEAL_CFG 15, 1), (CMP_SEAL_CLOSED 15, 1)] (rdn 1 chn), by decide +kernel⟩

theorem witness_RdnCommands_25 :
    ∃ (q : Req) (s : State),
    (s.ctl.core = true) ∧ (s.ctl.mode.soile = true) ∧ (q.reservedSet (bodyMask [(16, 0, 64)]) = false) ∧ (badCring s q = false) ∧ let r := s.peer (s.fld RDN_ROLE 4 3); (¬ (s.ctl.mode ≠ .run)) ∧ (¬ (isManager s q = false)) ∧ (¬ (s.fld RDN_ROLE 0 2 ≠ 1)) ∧ (¬ (r.heard ≠ none ∧ (r.mode ≠ 3 ∨ r.logical ≠ s.logicalId))) ∧ (¬ (swapBusy s = true)) ∧ (s.rdn.swap.job ≠ none) :=
  ⟨req (b 16 50000000), { rdn 1 chn with tgs := [(0, grp60)], rdn := { swap := { job := some 4 } } }, by decide +kernel⟩

theorem witness_RdnCommands_26 :
    ∃ (q : Req) (s : State),
    (s.ctl.core = true) ∧ (s.ctl.mode.soile = true) ∧ (q.reservedSet (bodyMask [(16, 0, 64)]) = false) ∧ (badCring s q = false) ∧ let r := s.peer (s.fld RDN_ROLE 4 3); (¬ (s.ctl.mode ≠ .run)) ∧ (¬ (isManager s q = false)) ∧ (¬ (s.fld RDN_ROLE 0 2 ≠ 1)) ∧ (¬ (r.heard ≠ none ∧ (r.mode ≠ 3 ∨ r.logical ≠ s.logicalId))) ∧ (¬ (swapBusy s = true)) ∧ (¬ (s.rdn.swap.job ≠ none)) ∧ (tgMakes s (swapTg s) = false ∨ tgNominal (s.tg (swapTg s)) = 0) :=
  ⟨req 0, rdn 9 chn, by decide +kernel⟩

theorem witness_RdnCommands_27 :
    ∃ (q : Req) (s : State),
    (s.ctl.core = true) ∧ (s.ctl.mode.soile = true) ∧ (q.reservedSet (bodyMask [(16, 0, 64)]) = false) ∧ (badCring s q = false) ∧ let r := s.peer (s.fld RDN_ROLE 4 3); (¬ (s.ctl.mode ≠ .run)) ∧ (¬ (isManager s q = false)) ∧ (¬ (s.fld RDN_ROLE 0 2 ≠ 1)) ∧ (¬ (r.heard ≠ none ∧ (r.mode ≠ 3 ∨ r.logical ≠ s.logicalId))) ∧ (¬ (swapBusy s = true)) ∧ (¬ (s.rdn.swap.job ≠ none)) ∧ (¬ (tgMakes s (swapTg s) = false ∨ tgNominal (s.tg (swapTg s)) = 0)) ∧ (r.heard = none) :=
  ⟨req (b 16 50000000), withRegs [(RDN_ROLE, 0x00FF0051)] ({ rdn 1 chn with tgs := [(0, grp60)] }), by decide +kernel⟩

theorem witness_RdnCommands_28 :
    ∃ (q : Req) (s : State),
    (s.ctl.core = true) ∧ (s.ctl.mode.soile = true) ∧ (q.reservedSet (bodyMask [(16, 0, 64)]) = false) ∧ (badCring s q = false) ∧ let r := s.peer (s.fld RDN_ROLE 4 3); (¬ (s.ctl.mode ≠ .run)) ∧ (¬ (isManager s q = false)) ∧ (¬ (s.fld RDN_ROLE 0 2 ≠ 1)) ∧ (¬ (r.heard ≠ none ∧ (r.mode ≠ 3 ∨ r.logical ≠ s.logicalId))) ∧ (¬ (swapBusy s = true)) ∧ (¬ (s.rdn.swap.job ≠ none)) ∧ (¬ (tgMakes s (swapTg s) = false ∨ tgNominal (s.tg (swapTg s)) = 0)) ∧ (¬ (r.heard = none)) :=
  ⟨req (b 16 50000000), { rdn 1 chn with tgs := [(0, grp60)] }, by decide +kernel⟩

theorem witness_RdnCommands_29 :
    ∃ (s : State) (nb : Nat),
    let t := s.tg (swapTg s); let p := tgNominal t; (p ≠ 0) :=
  ⟨{ rdn 1 chn with tgs := [(0, grp60)] }, 50000000, by decide +kernel⟩

theorem witness_RdnCommands_30 :
    ∃ (s : State),
    let early := ∃ t, s.rdn.taken = some t ∧ s.island < t + 100000000; let runs := s.ctl.core = true ∧ s.ctl.mode.soile = true ∧ ckptOn s = true ∧ ckptEvent s = true ∧ s.rdn.image = none ∧ ¬ early; (runs) :=
  ⟨{ rdn 9 chn with island := 200000000, rdn := { taken := some 100000000, due := true } }, by decide +kernel⟩

theorem witness_RdnCommands_31 :
    ∃ (s : State),
    let early := ∃ t, s.rdn.taken = some t ∧ s.island < t + 100000000; let runs := s.ctl.core = true ∧ s.ctl.mode.soile = true ∧ ckptOn s = true ∧ ckptEvent s = true ∧ s.rdn.image = none ∧ ¬ early; (¬ runs) :=
  ⟨rdn 2 (unit upPort (base .keep)), by decide +kernel⟩

theorem witness_RdnCommands_32 :
    ∃ (s : State),
    let newer := fun (i : Nat) => 0 < (slotGen s i - s.rdn.gen).toInt; let g := swapTg s; let due := s.ctl.mode = .shadow ∧ s.fld RDN_ROLE 0 2 = 2 ∧ tgMakes s g = true ∧ (s.tg g).first = false ∧ (s.tg g).boundary = s.now; let is := (slotOrder s).filter fun i => decide (newer i); (¬ due ∨ is = []) :=
  ⟨rdn 2 (unit upPort (base .keep)), by decide +kernel⟩

theorem witness_RdnCommands_33 :
    ∃ (s : State),
    let g := swapTg s; let due := s.ctl.mode = .shadow ∧ s.fld RDN_ROLE 0 2 = 2 ∧ tgMakes s g = true ∧ (s.tg g).first = false ∧ (s.tg g).boundary = s.now; (due) :=
  ⟨{ at_ 33333333 vaulted with tgs := [(0, { grp60 with first := false })] }, by decide +kernel⟩

theorem witness_RdnCommands_34 :
    ∃ (s : State) (u : State) (i : Nat) (rest : List Nat),
    (slotGen u i = slotGen s i) ∧ (u.loadN (slotBase i + 4) 4 = s.loadN (slotBase i + 4) 4) :=
  ⟨vaulted, (checkSlot vaulted 0 .ok).1, 0, [], by decide +kernel⟩

theorem witness_RdnCommands_35 :
    ∃ (s : State) (i cause : Nat) (e : Ecc) (u : State),
    (checkSlot s i e = (u, .inr cause)) ∧ (e = .bad) :=
  ⟨vaulted, 0, 2, .bad, (checkSlot vaulted 0 .bad).1, by decide +kernel⟩

theorem witness_RdnCommands_36 :
    ∃ (a : Access) (v : Word) (s : State),
    (Reaches s a .w HWK_CLEAR) ∧ (bitOf v.toNat 0 = false) :=
  ⟨desk, 2, rdn 2 (unit upPort (base .keep)), by decide +kernel⟩

theorem witness_RdnCommands_37 :
    ∃ (a : Access) (v : Word) (s : State),
    (Reaches s a .w HWK_CLEAR) ∧ (bitOf v.toNat 0 = true) ∧ (s.bit CHN_VAULT 0 = true) :=
  ⟨desk, 1, withRegs [(CHN_VAULT, 1)] run, by decide +kernel⟩

theorem witness_RdnCommands_38 :
    ∃ (a : Access) (v : Word) (s : State),
    (Reaches s a .w HWK_CLEAR) ∧ (bitOf v.toNat 0 = true) ∧ (s.bit CHN_VAULT 0 = false) :=
  ⟨desk, 1, rdn 2 (unit upPort (base .keep)), by decide +kernel⟩

theorem witness_CheckpointImage_1 :
    ∃ (s : State),
    ((∀ id, id < 11 → (sectionBytes id (captureState s)).length < 2 ^ 32)) :=
  ⟨{ run with heads := [(15, { tiny with liningSurf := some 3, trained := true, rate := 2 })], flows := [(3, rtpTaker)], parts := [(0, { owner with ctrlRing := some (true, 4, 77, 9) })] }, by decide +kernel⟩

theorem witness_CheckpointImage_2 :
    ∃ (n last : Nat) (bs : Bytes) (c : Carried),
    let id := leNat (sliceB bs 0 2); ((id ≤ last ∨ 10 < id ∨ bs.length < 8 + leNat (sliceB bs 4 4))) :=
  ⟨0, 10, [11, 0, 0, 0, 0, 0, 0, 0], {}, by decide +kernel⟩

theorem witness_RdnRings_1 :
    ∃ (o : Fin 8) (m : Msg) (s : State) (op : Nat) (c : Instr),
    ((op = 1 ∧ c = .ringTakeover o m ∨ op = 2 ∧ c = .ringShadow o m ∨ op = 3 ∧ c = .ringKeep o m)) ∧ (isRdn s o.val m op = false) :=
  ⟨4, rdnMsg 2 0 0 0, chn, 1, .ringTakeover 4 (rdnMsg 2 0 0 0), by decide +kernel⟩

theorem witness_RdnRings_2 :
    ∃ (o : Fin 8) (m : Msg) (s : State) (op : Nat) (c : Instr) (w : Nat × Nat × Nat),
    ((op = 1 ∧ c = .ringTakeover o m ∨ op = 2 ∧ c = .ringShadow o m ∨ op = 3 ∧ c = .ringKeep o m)) ∧ let mine := s.rdn.waiting.find? fun w => decide (w.2.1 = op ∧ w.2.2 = o.val); (isRdn s o.val m op = true) ∧ (mine = some w) :=
  ⟨4, rdnMsg 1 0 0 0, { chn with jobs := [job 3 0x1104 0], rdn := { waiting := [(3, 1, 4)] } }, 1, .ringTakeover 4 (rdnMsg 1 0 0 0), (3, 1, 4), by decide +kernel⟩

theorem witness_RdnRings_3 :
    ∃ (o : Fin 8) (m : Msg) (s : State) (op : Nat) (c : Instr),
    ((op = 1 ∧ c = .ringTakeover o m ∨ op = 2 ∧ c = .ringShadow o m ∨ op = 3 ∧ c = .ringKeep o m)) ∧ let mine := s.rdn.waiting.find? fun w => decide (w.2.1 = op ∧ w.2.2 = o.val); (isRdn s o.val m op = true) ∧ (mine = none) ∧ (s.bit RDN_ROLE (16 + o.val) = false) :=
  ⟨4, rdnMsg 1 0 0 0, chn, 1, .ringTakeover 4 (rdnMsg 1 0 0 0), by decide +kernel⟩

theorem witness_RdnRings_4 :
    ∃ (o : Fin 8) (m : Msg) (s : State) (op : Nat) (c : Instr),
    ((op = 1 ∧ c = .ringTakeover o m ∨ op = 2 ∧ c = .ringShadow o m ∨ op = 3 ∧ c = .ringKeep o m)) ∧ let mine := s.rdn.waiting.find? fun w => decide (w.2.1 = op ∧ w.2.2 = o.val); (isRdn s o.val m op = true) ∧ (mine = none) ∧ (s.bit RDN_ROLE (16 + o.val) = true) :=
  ⟨4, rdnMsg 1 0 0 0, rdn 2 (unit upPort (base .keep)), 1, .ringTakeover 4 (rdnMsg 1 0 0 0), by decide +kernel⟩

theorem witness_RdnRings_5 :
    ∃ (o : Fin 8) (m : Msg) (s : State),
    let from_ := fun (op : Nat) => isRdn s o.val m op = true ∧ o.val = s.fld RDN_ROLE 4 3; let prep := from_ 4 ∧ s.ctl.mode = .shadow ∧ s.fld RDN_ROLE 0 2 = 2; (prep) :=
  ⟨4, rdnMsg 4 0 6 50000000, swapShadow {}, by decide +kernel⟩

theorem witness_RdnRings_6 :
    ∃ (o : Fin 8) (m : Msg) (s : State),
    let from_ := fun (op : Nat) => isRdn s o.val m op = true ∧ o.val = s.fld RDN_ROLE 4 3; let w := s.rdn.swap; let prep := from_ 4 ∧ s.ctl.mode = .shadow ∧ s.fld RDN_ROLE 0 2 = 2; let ack := from_ 5 ∧ w.job ≠ none ∧ w.prep = true; (ack) :=
  ⟨4, rdnMsg 5 0 6 50000000, swapRun { job := some 3, prep := true }, by decide +kernel⟩

theorem witness_RdnRings_7 :
    ∃ (o : Fin 8) (m : Msg) (s : State),
    let from_ := fun (op : Nat) => isRdn s o.val m op = true ∧ o.val = s.fld RDN_ROLE 4 3; let w := s.rdn.swap; let go := from_ 6 ∧ w.asPart = true ∧ w.pastC = false ∧ swapNext s = true; (go) :=
  ⟨4, rdnMsg 6 0 6 50000000, swapShadow { asPart := true }, by decide +kernel⟩

theorem witness_RdnRings_8 :
    ∃ (o : Fin 8) (m : Msg) (s : State),
    let from_ := fun (op : Nat) => isRdn s o.val m op = true ∧ o.val = s.fld RDN_ROLE 4 3; let w := s.rdn.swap; let armed := from_ 7 ∧ w.job ≠ none ∧ w.acked = true; (armed) :=
  ⟨4, rdnMsg 7 0 6 50000000, swapRun { job := some 3, prep := true, acked := true }, by decide +kernel⟩

theorem witness_RdnRings_9 :
    ∃ (o : Fin 8) (m : Msg) (s : State),
    let from_ := fun (op : Nat) => isRdn s o.val m op = true ∧ o.val = s.fld RDN_ROLE 4 3; let w := s.rdn.swap; let cancel := from_ 8 ∧ w.asPart = true ∧ s.ctl.mode ≠ .handover; (cancel) :=
  ⟨4, rdnMsg 8 0 6 50000000, swapShadow { asPart := true, armed := true }, by decide +kernel⟩

theorem witness_RdnRings_10 :
    ∃ (o : Fin 8) (m : Msg) (s : State),
    let from_ := fun (op : Nat) => isRdn s o.val m op = true ∧ o.val = s.fld RDN_ROLE 4 3; let prep := from_ 4 ∧ s.ctl.mode = .shadow ∧ s.fld RDN_ROLE 0 2 = 2; (¬ prep) :=
  ⟨4, rdnMsg 1 0 0 0, { chn with jobs := [job 3 0x1104 0], rdn := { waiting := [(3, 1, 4)] } }, by decide +kernel⟩

theorem witness_RdnRings_11 :
    ∃ (o : Fin 8) (m : Msg) (s : State),
    let from_ := fun (op : Nat) => isRdn s o.val m op = true ∧ o.val = s.fld RDN_ROLE 4 3; let w := s.rdn.swap; let prep := from_ 4 ∧ s.ctl.mode = .shadow ∧ s.fld RDN_ROLE 0 2 = 2; let ack := from_ 5 ∧ w.job ≠ none ∧ w.prep = true; (¬ ack) :=
  ⟨4, rdnMsg 1 0 0 0, { chn with jobs := [job 3 0x1104 0], rdn := { waiting := [(3, 1, 4)] } }, by decide +kernel⟩

theorem witness_RdnRings_12 :
    ∃ (o : Fin 8) (m : Msg) (s : State),
    let from_ := fun (op : Nat) => isRdn s o.val m op = true ∧ o.val = s.fld RDN_ROLE 4 3; let w := s.rdn.swap; let go := from_ 6 ∧ w.asPart = true ∧ w.pastC = false ∧ swapNext s = true; (¬ go) :=
  ⟨4, rdnMsg 1 0 0 0, { chn with jobs := [job 3 0x1104 0], rdn := { waiting := [(3, 1, 4)] } }, by decide +kernel⟩

theorem witness_RdnRings_13 :
    ∃ (o : Fin 8) (m : Msg) (s : State),
    let from_ := fun (op : Nat) => isRdn s o.val m op = true ∧ o.val = s.fld RDN_ROLE 4 3; let w := s.rdn.swap; let armed := from_ 7 ∧ w.job ≠ none ∧ w.acked = true; (¬ armed) :=
  ⟨4, rdnMsg 1 0 0 0, { chn with jobs := [job 3 0x1104 0], rdn := { waiting := [(3, 1, 4)] } }, by decide +kernel⟩

theorem witness_RdnRings_14 :
    ∃ (o : Fin 8) (m : Msg) (s : State),
    let from_ := fun (op : Nat) => isRdn s o.val m op = true ∧ o.val = s.fld RDN_ROLE 4 3; let w := s.rdn.swap; let cancel := from_ 8 ∧ w.asPart = true ∧ s.ctl.mode ≠ .handover; (¬ cancel) :=
  ⟨4, rdnMsg 1 0 0 0, { chn with jobs := [job 3 0x1104 0], rdn := { waiting := [(3, 1, 4)] } }, by decide +kernel⟩

theorem witness_RdnRings_15 :
    ∃ (s : State) (st : Nat),
    (s.rdn.swap.job = none) :=
  ⟨chn, 0x59, by decide +kernel⟩

theorem witness_RdnRings_16 :
    ∃ (s : State) (st : Nat) (id : Nat),
    (s.rdn.swap.job = some id) :=
  ⟨{ swapRun { job := some 3 } with jobs := [runJob 3 0x1103 0] }, 0x59, 3, by decide +kernel⟩

theorem witness_LaneCommands_1 :
    ∃ (a : Access) (n : Fin 16) (v : Word) (s : State) (c : Instr),
    ((c = .qdTestWrite a n v ∨ n.val = 15 ∧ c = .qd15UseWrite a v)) ∧ (Reaches s a .w (QD_CFG n.val)) :=
  ⟨desk, 15, 4, withRegs [(ETH_CFG, 1)] run, .qd15UseWrite desk 4, by decide +kernel⟩

theorem witness_LaneCommands_2 :
    ∃ (s : State) (n l : Nat),
    (quadUse s n = 0) :=
  ⟨run, 3, 0, by decide +kernel⟩

theorem witness_LaneCommands_3 :
    ∃ (s : State) (n l : Nat),
    (quadUse s n = 1) :=
  ⟨withRegs [(QD_CFG 4, 1)] run, 4, 0, by decide +kernel⟩

theorem witness_LaneCommands_4 :
    ∃ (s : State) (n l : Nat),
    (quadUse s n = 2) :=
  ⟨withRegs [(QD_CFG 5, 2)] chn, 5, 0, by decide +kernel⟩

theorem witness_LaneCommands_5 :
    ∃ (s : State) (n l : Nat),
    (3 ≤ quadUse s n) :=
  ⟨withRegs [(QD_CFG 8, 3)] run, 8, 0, by decide +kernel⟩

theorem witness_LaneCommands_6 :
    ∃ (a : Access) (n : Fin 16) (l : Fin 4) (v : Word) (s : State),
    (Reaches s a .w (QD_LANE_SLIP n.val l.val)) ∧ let slips := bitOf v.toNat 0 = true ∧ (quadTest s n.val = true ∨ quadUse s n.val = 2); (¬ slips) :=
  ⟨desk, 15, 3, 1, withRegs [(QD_CFG 15, 3)] run, by decide +kernel⟩

theorem witness_LaneCommands_7 :
    ∃ (a : Access) (n : Fin 16) (l : Fin 4) (v : Word) (s : State),
    (Reaches s a .w (QD_LANE_SLIP n.val l.val)) ∧ let slips := bitOf v.toNat 0 = true ∧ (quadTest s n.val = true ∨ quadUse s n.val = 2); (slips) :=
  ⟨desk, 15, 3, 1, withRegs [(QD_CFG 15, 8), (QD_LANE_STATE 15 3, 0x3F0000)] (base .test), by decide +kernel⟩

theorem witness_LaneCommands_8 :
    ∃ (a : Access) (n : Fin 16) (l : Fin 4) (v : Word) (s : State) (c : Instr),
    (c = .injectSingle a n l v ∨ c = .injectBurst a n l v) ∧ let r := QD_LANE_PRBS n.val l.val; let len := bitsOf v.toNat 16 6; (Reaches s a .w r) ∧ (len = 0) :=
  ⟨desk, 15, 3, 0x301, withRegs [(QD_CFG 15, 0xB)] (base .test), .injectSingle desk 15 3 0x301, by decide +kernel⟩

theorem witness_LaneCommands_9 :
    ∃ (a : Access) (n : Fin 16) (l : Fin 4) (v : Word) (s : State) (c : Instr),
    (c = .injectSingle a n l v ∨ c = .injectBurst a n l v) ∧ let r := QD_LANE_PRBS n.val l.val; let stat := QD_LANE_PRBS_STAT n.val l.val; let len := bitsOf v.toNat 16 6; (Reaches s a .w r) ∧ let u := if bitsOf v.toNat 4 3 ≠ s.fld r 4 3 ∧ s.bit stat 0 = true then unlockLane s n.val l.val else s; let w := plainWrite u r v; (len ≠ 0) ∧ (quadTest w n.val = true) ∧ (1 ≤ w.fld r 0 3) ∧ (w.fld r 0 3 ≤ 5) :=
  ⟨desk, 15, 3, 0x3F0201, withRegs [(QD_CFG 15, 0xB)] (base .test), .injectBurst desk 15 3 0x3F0201, by decide +kernel⟩

theorem witness_LaneCommands_10 :
    ∃ (a : Access) (n : Fin 16) (l : Fin 4) (v : Word) (s : State) (c : Instr),
    (c = .injectSingle a n l v ∨ c = .injectBurst a n l v) ∧ let r := QD_LANE_PRBS n.val l.val; let stat := QD_LANE_PRBS_STAT n.val l.val; let len := bitsOf v.toNat 16 6; (Reaches s a .w r) ∧ let u := if bitsOf v.toNat 4 3 ≠ s.fld r 4 3 ∧ s.bit stat 0 = true then unlockLane s n.val l.val else s; let w := plainWrite u r v; (len ≠ 0) ∧ ((quadTest w n.val = false ∨ w.fld r 0 3 = 0 ∨ 5 < w.fld r 0 3)) :=
  ⟨desk, 15, 3, 0x10100, withRegs [(QD_CFG 15, 0xB)] (base .test), .injectSingle desk 15 3 0x10100, by decide +kernel⟩

theorem witness_LaneCommands_11 :
    ∃ (n : Fin 16) (l : Fin 4) (s : State) (k : Nat),
    (k ≠ 4 * n.val + l.val) :=
  ⟨15, 3, run, 5, by decide +kernel⟩

theorem witness_LaneCommands_12 :
    ∃ (n : Fin 16) (l : Fin 4) (s : State),
    let st := QD_LANE_PRBS_STAT n.val l.val; let locks := quadOn s n.val = true ∧ quadTest s n.val = true ∧ 1 ≤ s.fld (QD_LANE_PRBS n.val l.val) 4 3 ∧ s.fld (QD_LANE_PRBS n.val l.val) 4 3 ≤ 5 ∧ s.bit st 0 = false; (locks) :=
  ⟨15, 3, withRegs [(QD_CFG 15, 0xB), (QD_LANE_PRBS 15 3, 0x50)] (base .test), by decide +kernel⟩

theorem witness_LaneCommands_13 :
    ∃ (n : Fin 16) (l : Fin 4) (s : State),
    let st := QD_LANE_PRBS_STAT n.val l.val; let loses := quadOn s n.val = true ∧ s.bit st 0 = true; (loses) :=
  ⟨15, 3, withRegs [(QD_CFG 15, 0xB), (QD_LANE_PRBS 15 3, 0x50), (QD_LANE_PRBS_STAT 15 3, 1), (QD_TEST_RATE 15, 25781250)] { base .test with lockAt := [(63, 1)], island := 1000 }, by decide +kernel⟩

theorem witness_LaneCommands_14 :
    ∃ (n : Fin 16) (l : Fin 4) (s : State),
    let st := QD_LANE_PRBS_STAT n.val l.val; let locks := quadOn s n.val = true ∧ quadTest s n.val = true ∧ 1 ≤ s.fld (QD_LANE_PRBS n.val l.val) 4 3 ∧ s.fld (QD_LANE_PRBS n.val l.val) 4 3 ≤ 5 ∧ s.bit st 0 = false; (¬ locks) :=
  ⟨15, 3, withRegs [(QD_CFG 15, 0xB), (QD_LANE_PRBS 15 3, 0x50), (QD_LANE_PRBS_STAT 15 3, 1), (QD_TEST_RATE 15, 25781250)] { base .test with lockAt := [(63, 1)], island := 1000 }, by decide +kernel⟩

theorem witness_LaneCommands_15 :
    ∃ (n : Fin 16) (l : Fin 4) (s : State),
    let st := QD_LANE_PRBS_STAT n.val l.val; let loses := quadOn s n.val = true ∧ s.bit st 0 = true; (¬ loses) :=
  ⟨15, 3, withRegs [(QD_LANE_CTRL 15 3, 0x10)] run, by decide +kernel⟩

theorem witness_LaneCommands_16 :
    ∃ (n : Fin 16) (l : Fin 4) (s : State) (ctle : BitVec 4) (dfe : BitVec 64),
    let adapts := quadOn s n.val = true ∧ laneState s n.val l.val false = 0 ∧ s.bit (QD_LANE_CTRL n.val l.val) 7 = false; (adapts) :=
  ⟨15, 3, withRegs [(QD_LANE_CTRL 15 3, 0x10)] run, 15, 2 ^ 63, by decide +kernel⟩

theorem witness_LaneCommands_17 :
    ∃ (n : Fin 16) (l : Fin 4) (s : State) (ctle : BitVec 4) (dfe : BitVec 64),
    let adapts := quadOn s n.val = true ∧ laneState s n.val l.val false = 0 ∧ s.bit (QD_LANE_CTRL n.val l.val) 7 = false; (¬ adapts) :=
  ⟨15, 3, withRegs [(QD_LANE_CTRL 15 3, 0x80)] run, 15, 2 ^ 63, by decide +kernel⟩

theorem witness_StepRunsFront_1 :
    ∃ (c : Instr) (rest : List Instr) (s : State),
    (s.pending = c :: rest) :=
  ⟨.timeSend, [.checkpoint], { run with pending := [.timeSend, .checkpoint] }, by decide +kernel⟩

theorem witness_StepRunsFront_2 :
    ∃ (s : State),
    (s.pending = []) :=
  ⟨run, by decide +kernel⟩

theorem witness_OffStaysOff_1 :
    ∃ (s t : State),
    (OffState s) ∧ (step s = .next t) :=
  ⟨offed, idleEdge (autoPrime offed), offed_off, rfl⟩

end Sys2Proof.Tests
end

/-!
PROOFS of the scope family. What a step does with the queue (log 1, log 3), and where a register write at a memory address parts from
its statement: the model leaves the state it found, the statement names the state that shows the core's mode.
-/

namespace Sys2Proof.Machine

/-! ### The queue -/

/-- With a command waiting, a step is that command's effect. -/
theorem step_of_pending_cons {s : State} {c : Instr} {rest : List Instr} (h : s.pending = c :: rest) :
    step s = exec c { s with pending := rest } := by
  unfold step
  rw [h]

/-- With none waiting, a step is one idle edge. -/
theorem step_of_pending_nil {s : State} (h : s.pending = []) : step s = .next (idleEdge (autoPrime s)) := by
  unfold step
  rw [h]

/-- Settles O56: the two forms of the queue are the two cases of the step. -/
theorem stepRunsFront : Obligations.StepRunsFront :=
  ⟨fun _ _ _ h => step_of_pending_cons h, fun _ h => step_of_pending_nil h⟩

/-! ### A register write at a memory address -/

/-- A register write at an address of memory that the map lists leaves the state it found, with the mode its core had before. -/
theorem exec_registerWrite_listed {a : Access} {addr : BitVec 40} {s : State} (be : BitVec 4) (v : Word)
    (hm : 0x1000000 ≤ addr.toNat) (hl : listed (modeSeen s a) addr.toNat = true) :
    exec (.registerWrite a addr be v) s = .next s := by
  have hr : inRegs addr.toNat = false := decide_eq_false (by omega)
  change Host.Outcome.next (doRegisterWrite a addr be v s) = .next s
  simp [doRegisterWrite, hr, hl]

/-- An access at P1 shows its desk core in user mode. -/
theorem desk_mode_modeSeen_p1 {s : State} {a : Access} (hd : fromDesk a = true) (hp : a.level = .p1) :
    ((modeSeen s a).desk (a.src.toNat - 8)).mode = 0 := by
  unfold modeSeen
  by_cases h : (s.desk (a.src.toNat - 8)).mode = 0 <;> simp [hd, hp, h]

/-- An access of desk core 0 in user mode, for partition 0. -/
def userDesk : Access := ⟨8, 0, .p1⟩

/-- A part in RUN whose desk core 0 runs, still in the machine mode of its start. -/
def startedDesk : State :=
  ((({ ctl := { mode := .run, ring := true, core := true, coreEn := true, corePg := true, primeOk := true } } : State).setReg DSK_CTRL 1).setReg
    (DSK_CORE_PART 0) 0)

/-- The core carries the access in the mode that it shows. -/
theorem startedDesk_carries : (modeSeen startedDesk userDesk).carries userDesk 0x2000000 = true := by decide +kernel

/-- Desk SRAM is listed. -/
theorem startedDesk_listed : listed (modeSeen startedDesk userDesk) 0x2000000 = true := by decide +kernel

/-- The access shows a mode that the core was not in. -/
theorem modeSeen_startedDesk_ne : modeSeen startedDesk userDesk ≠ startedDesk := fun h => by
  have hu : (startedDesk.desk 0).mode = 0 := h ▸ desk_mode_modeSeen_p1 (s := startedDesk) (a := userDesk) rfl rfl
  have hm : (startedDesk.desk 0).mode = 3 := rfl
  omega

/-- Refutes O41: a register write at desk SRAM by a core that still shows machine mode, of a user-mode access, leaves the core in machine
mode, where the statement's clause for listed memory addresses has it in user mode (log 2, log 18). -/
theorem not_mapAccesses : ¬ Obligations.MapAccesses := by
  intro h
  obtain ⟨-, hmem, -⟩ := h
  obtain ⟨-, hcarried⟩ := hmem userDesk 0x2000000 0xF 5 startedDesk
  have hshown := (hcarried startedDesk_carries (by decide)).1 startedDesk_listed
  have hkept := exec_registerWrite_listed (a := userDesk) (addr := 0x2000000) (s := startedDesk) 0xF 5 (by decide) startedDesk_listed
  rw [hkept] at hshown
  exact modeSeen_startedDesk_ne (Host.Outcome.next.inj hshown).symm

end Sys2Proof.Machine

/-!
PROOFS of the architecture family: the path of a register access (R15, R20, R22) — which state it arises in, what an aligned word comes
to, what decides on it.
-/

namespace Sys2Proof.Machine

/-! ### The state an access arises in -/

/-- An access shows its desk core's mode, where that is not told by a free value; nothing else changes. -/
theorem modeSeen_eq (s : State) (a : Access) : ∃ d f, modeSeen s a = { s with desks := d, free := f } := by
  unfold modeSeen
  dsimp only
  split
  · exact ⟨_, _, rfl⟩
  · split
    · split <;> exact ⟨_, _, rfl⟩
    · split <;> exact ⟨_, _, rfl⟩

theorem modeDrawn_eq (s : State) (a : Access) : ∃ d f, modeDrawn s a = { s with desks := d, free := f } := by
  unfold modeDrawn
  dsimp only
  split
  · exact ⟨_, _, rfl⟩
  · exact modeSeen_eq s a

theorem modeSeen_of_not_fromDesk {s : State} {a : Access} (h : fromDesk a = false) : modeSeen s a = s := by
  simp [modeSeen, h]

/-! ### Aligned words of register space -/

theorem inRegs_of_lt {n : Nat} (h : n < 0x1000000) : inRegs n = true := decide_eq_true h

/-- A write of a whole aligned register word enters its gate where the initiator carries the access. -/
theorem exec_registerWrite_carried {a : Access} {addr : BitVec 40} {s : State} (v : Word) (hn : addr.toNat < 0x1000000)
    (h4 : addr.toNat % 4 = 0) (hc : (modeSeen s a).carries a addr.toNat = true) :
    exec (.registerWrite a addr 0xF v) s = .next (regEnter (modeSeen s a) a addr.toNat v (registerEffect a addr.toNat v)) := by
  change Host.Outcome.next (doRegisterWrite a addr 0xF v s) = _
  simp [doRegisterWrite, regPut, regAccess, hc, inRegs_of_lt hn, h4, modeSeen_of_carries hc]

/-- One that the initiator does not carry cannot arise. -/
theorem exec_registerWrite_not_carried {a : Access} {addr : BitVec 40} {s : State} (be : BitVec 4) (v : Word)
    (hc : (modeSeen s a).carries a addr.toNat = false) : exec (.registerWrite a addr be v) s = .next s := by
  change Host.Outcome.next (doRegisterWrite a addr be v s) = _
  simp [doRegisterWrite, hc]

/-- An aligned register word passes a desk core's own rules. -/
theorem deskStops_word {n : Nat} (s : State) (a : Access) (hn : n < 0x1000000) (h4 : n % 4 = 0) : deskStops s a .r n 4 = none := by
  unfold deskStops
  split
  · rfl
  · split <;> simp_all [inRegs_of_lt]

theorem plainAccess_readWord {n : Nat} (s : State) (a : Access) (hn : n < 0x1000000) (h4 : n % 4 = 0) :
    plainAccess s a .r n 4 [] = regFetch s a .r n 0 4 := by
  have hw : n / 4 * 4 = n := by omega
  simp [plainAccess, deskStops_word s a hn h4, inRegs_of_lt hn, regsAccess, h4, hw]

/-- A read of an aligned register word that its initiator can make is a fetch of that register. -/
theorem exec_memoryAccess_readWord {a : Access} {bar2 : Bool} {addr : BitVec 40} {s : State}
    (hc : canAccess (modeDrawn s a) a bar2 addr.toNat = true) (hn : mapAddr s a bar2 addr.toNat < 0x1000000)
    (h4 : mapAddr s a bar2 addr.toNat % 4 = 0) :
    exec (.initiatorMemoryAccess a ⟨bar2, .plain, .r⟩ addr 4 []) s
      = .next (regFetch (modeDrawn s a) a .r (mapAddr s a bar2 addr.toNat) 0 4) := by
  change Host.Outcome.next (doInitiatorMemoryAccess a bar2 .plain .r addr 4 [] s) = _
  simp [doInitiatorMemoryAccess, hc, plainAccess_readWord _ _ hn h4]

/-! ### The decision on a register access -/

/-- What lies in an unpowered domain is not reached (R15). -/
theorem regDec_of_unpowered {s : State} {addr : Nat} (a : Access) (t : AccType) (h : s.powered (slotOf addr) = false) :
    regDec s a t addr = .ignored := by
  simp [regDec, h]

theorem regFetch_of_ignored {s : State} {a : Access} {t : AccType} {addr : Nat} (k n : Nat) (h : regDec s a t addr = .ignored) :
    regFetch s a t addr k n = returnData s a (List.replicate n 0) := by
  simp [regFetch, h]

theorem regFetch_of_violation {s : State} {a : Access} {t : AccType} {addr g : Nat} (k n : Nat) (h : regDec s a t addr = .violation g) :
    regFetch s a t addr k n = returnData (violation s g a t addr 0) a (List.replicate n 0) (refusalOf a t) := by
  simp [regFetch, h]

theorem regEnter_of_ignored {s : State} {a : Access} {addr : Nat} (v : Word) (f : State → State) (h : regDec s a .w addr = .ignored) :
    regEnter s a addr v f = s := by
  simp [regEnter, h]

theorem regEnter_of_violation {s : State} {a : Access} {addr g : Nat} (v : Word) (f : State → State)
    (h : regDec s a .w addr = .violation g) : regEnter s a addr v f = (violation s g a .w addr 0).fails a .w := by
  simp [regEnter, h]

/-- Only the management port's data leaves the part. -/
theorem returnData_outbox {s : State} {a : Access} (bs : Bytes) (e : Option Exc) (h : a.src ≠ 0x60) :
    (returnData s a bs e).outbox = s.outbox := by
  unfold returnData
  rw [if_neg h]
  rfl

/-- Returned data is on the bus, with how the access failed. -/
theorem returnData_bus (s : State) (a : Access) (bs : Bytes) (e : Option Exc) : (returnData s a bs e).bus = ⟨bs, e.isNone, e⟩ := by
  unfold returnData
  dsimp only
  split <;> rfl

/-- But for the bus and the outputs, returning data changes nothing. -/
theorem returnData_back (s : State) (a : Access) (bs : Bytes) (e : Option Exc) :
    { returnData s a bs e with bus := s.bus, outbox := s.outbox } = s := by
  unfold returnData
  dsimp only
  split <;> rfl

/-! ### Unpowered domains -/

/-- A write in an unpowered domain leaves the state it arises in. -/
theorem exec_registerWrite_unpowered {a : Access} {addr : BitVec 40} {s : State} (v : Word) (hn : addr.toNat < 0x1000000)
    (h4 : addr.toNat % 4 = 0) (hp : s.powered (slotOf addr.toNat) = false) :
    exec (.registerWrite a addr 0xF v) s = .next (if (modeSeen s a).carries a addr.toNat then modeSeen s a else s) := by
  cases hc : (modeSeen s a).carries a addr.toNat with
  | false => exact exec_registerWrite_not_carried 0xF v hc
  | true =>
    have hi : regDec (modeSeen s a) a .w addr.toNat = .ignored := by
      obtain ⟨d, f, hs⟩ := modeSeen_eq s a
      rw [hs]
      exact regDec_of_unpowered a .w hp
    rw [exec_registerWrite_carried v hn h4 hc, regEnter_of_ignored v _ hi, if_pos rfl]

/-- Where an internal address leads hangs on the sizes of the memory channels alone. -/
theorem place_congr {s s' : State} (h : ∀ c, c < 6 → s'.reg (SYS_MEM_SIZE c) = s.reg (SYS_MEM_SIZE c)) (n : Nat) : place s' n = place s n := by
  unfold place State.bit State.fld
  dsimp only
  by_cases hn : 0x100000000 ≤ n ∧ n < chanBase 6
  · have hc : (n - 0x100000000) / 0x400000000 < 6 := by unfold chanBase at hn; omega
    rw [h _ hc]
  · rw [if_neg hn, if_neg hn]

/-- So does the order of accesses, and on what waits. -/
theorem mustWait_congr {s s' : State} (hp : ∀ n, place s' n = place s n) (hh : s'.heldAcc = s.heldAcc) (h : HeldAcc) :
    mustWait s' h = mustWait s h := by
  have ht : targetOf s' = targetOf s := by
    funext n
    unfold targetOf
    rw [hp n]
  have hf : fenceNames s' = fenceNames s := by
    funext set x
    unfold fenceNames fenceBits
    rw [ht]
  have ho : ∀ g, follows s' g h = follows s g h := by
    intro g
    unfold follows
    rw [ht, hf]
  unfold mustWait
  rw [hh]
  exact congrArg s.heldAcc.any (funext ho)

/-- The decision of a slot's gate hangs on its entry alone. -/
theorem slotDec_setReg {r slot : Nat} (s : State) (w : Word) (a : Access) (t : AccType) (hc : GATE_PS_CTRL slot ≠ r)
    (ha : GATE_PS_ATTR_ACT slot ≠ r) : slotDec (s.setReg r w) slot a t = slotDec s slot a t := by
  unfold slotDec
  rw [State.reg_setReg_ne s w hc, State.reg_setReg_ne s w ha]

/-- A register that is neither of a gate's slot nor the size of a memory channel decides on no register access. -/
theorem regDec_setReg {r : Nat} (s : State) (w : Word) (a : Access) (t : AccType) (addr : Nat)
    (hg : ∀ slot, GATE_PS_CTRL slot ≠ r ∧ GATE_PS_ATTR_ACT slot ≠ r) (hm : ∀ c, c < 6 → SYS_MEM_SIZE c ≠ r) :
    regDec (s.setReg r w) a t addr = regDec s a t addr := by
  have hw : regWaits (s.setReg r w) a t addr = regWaits s a t addr :=
    mustWait_congr (place_congr fun c hc => State.reg_setReg_ne s w (hm c hc)) rfl _
  unfold regDec
  dsimp only
  rw [slotDec_setReg s w a t (hg _).1 (hg _).2, hw]
  rfl

/-- Settles O38: an unpowered domain is decided on before anything else, and no PLL's status is a register that decides. -/
theorem unpoweredAccess : Obligations.UnpoweredAccess := by
  refine ⟨fun a addr v s hn h4 hp => ⟨exec_registerWrite_unpowered v hn h4 hp, ?_, ?_⟩, ?_, ?_⟩
  · obtain ⟨d, f, hs⟩ := modeSeen_eq s a
    rw [hs]
    split <;> rfl
  · intro hd
    rw [modeSeen_of_not_fromDesk hd, ite_self]
  · intro a bar2 addr s n hc hn h4 hp
    obtain ⟨d, f, hs⟩ := modeDrawn_eq s a
    have hi : regDec (modeDrawn s a) a .r n = .ignored := hs ▸ regDec_of_unpowered a .r hp
    refine ⟨_, exec_memoryAccess_readWord hc hn h4, ?_⟩
    rw [regFetch_of_ignored 0 4 hi]
    refine ⟨returnData_bus _ _ _ _, ?_, fun ho => ?_⟩
    · have hk := returnData_back (modeDrawn s a) a [0, 0, 0, 0] none
      rw [hs] at hk ⊢
      exact hk
    · rw [returnData_outbox _ _ ho, hs]
  · intro s a t addr p w hp
    refine regDec_setReg s w a t addr (fun slot => ?_) (fun c hc => ?_)
    · unfold GATE_PS_CTRL GATE_PS_ATTR_ACT CLK_PLL_STATUS
      omega
    · unfold SYS_MEM_SIZE CLK_PLL_STATUS
      omega

/-! ### Set-up windows -/

theorem slotOf_window {n : Nat} (h : 0xF00000 ≤ n) : slotOf n = 35 := if_neg (by omega)

/-- With the core domain on, the block that the windows belong to is powered and present. -/
theorem powered_window {s : State} (hc : s.ctl.core = true) : s.powered 35 = true ∧ s.absent 35 = false :=
  ⟨hc, Bool.and_false _⟩

/-- What reaches a window carries its partition or a level it admits (R20), passed its slot, and comes in BAR0 only from the port that
the partition is bound to (R22). -/
theorem admitted_of_regDec_go {s : State} {a : Access} {t : AccType} {n : Nat} {p : Fin 16} (hlo : 0xF00000 + 0x10000 * p.val ≤ n)
    (hhi : n < 0xF10000 + 0x10000 * p.val) (hc : s.ctl.core = true) (h : regDec s a t n = .go) :
    (a.part.toNat = p.val ∨ a.level = .p3 ∨ a.level = .debug) ∧ slotDec s 35 a t = .go
      ∧ (a.src.toNat < 4 → a.level ≠ .p3 → a.level ≠ .debug → (s.part p.val).state ≠ .free ∧ (s.part p.val).port = a.src.toNat) := by
  have hp : (n - 0xF00000) / 0x10000 = p.val := by omega
  have hn : ¬ n < 0xF00000 := by omega
  unfold regDec at h
  simp only [slotOf_window (Nat.le_of_not_lt hn), hc, hn, hp, if_true, if_false, and_false] at h
  split at h
  · cases h
  split at h
  · cases h
  cases hd : slotDec s 35 a t with
  | go =>
    simp only [hd] at h
    split at h
    · cases h
    split at h
    · cases h
    next hpart hport =>
      refine ⟨by simpa [or_iff_not_imp_left] using hpart, rfl, fun hs h3 hg => ?_⟩
      simpa [hs, h3, hg] using hport
  | ignored => simp [hd] at h
  | violation g => simp [hd] at h
  | held => simp [hd] at h

/-- Whom a window turns away, where its slot lets it through, is refused there. -/
theorem regDec_of_not_admitted {s : State} {a : Access} {t : AccType} {n : Nat} {p : Fin 16} (hlo : 0xF00000 + 0x10000 * p.val ≤ n)
    (hhi : n < 0xF10000 + 0x10000 * p.val) (hc : s.ctl.core = true) (h3 : a.level ≠ .p3) (hg : a.level ≠ .debug)
    (hbad : a.part.toNat ≠ p.val ∨ a.src.toNat < 4 ∧ ((s.part p.val).state = .free ∨ (s.part p.val).port ≠ a.src.toNat))
    (hs : slotDec s 35 a t = .go) : regDec s a t n = .violation 35 := by
  have hp : (n - 0xF00000) / 0x10000 = p.val := by omega
  have hn : ¬ n < 0xF00000 := by omega
  have ha : authBeyond a n = false := by simp [authBeyond, h3]
  obtain ⟨hw, hb⟩ := powered_window hc
  unfold regDec
  simp only [slotOf_window (Nat.le_of_not_lt hn), hc, hn, hp, hw, hb, ha, hs, h3, hg, if_true, if_false, and_false]
  by_cases hpart : a.part.toNat = p.val
  · have hport := hbad.resolve_left (not_not_intro hpart)
    simp [hpart, hport]
  · simp [hpart]

/-- Settles O39: a window's own test comes after its slot's, which the two lemmas above read off the decision. -/
theorem windowAdmission : Obligations.WindowAdmission := by
  refine ⟨fun a s n p t => admitted_of_regDec_go, fun a s p hc h3 hg hbad => ⟨fun addr v hlo hhi h4 hcar hs => ?_, fun addr bar2 => ?_⟩⟩
  · have hseen := modeSeen_of_carries hcar
    rw [exec_registerWrite_carried v (by omega) h4 (hseen.symm ▸ hcar), hseen,
      regEnter_of_violation v _ (regDec_of_not_admitted hlo hhi hc h3 hg hbad hs)]
  · intro n hlo hhi h4 hcan hs
    have hv : regDec (modeDrawn s a) a .r n = .violation 35 := by
      obtain ⟨d, f, hd⟩ := modeDrawn_eq s a
      rw [hd]
      exact regDec_of_not_admitted hlo hhi hc h3 hg hbad hs
    rw [exec_memoryAccess_readWord hcan (by omega) h4, regFetch_of_violation 0 4 hv]
    rfl

end Sys2Proof.Machine

/-!
PROOFS of the architecture family: power domains and pins (R14, R427, R430, R449, R451) — what the start of a PLL, an event source and the
global log keep, the core domain that powers up, the way from KEEP into PRIME.
-/

namespace Sys2Proof.Machine

/-! ### Fields of a register -/

/-- A number with a field replaced: what lies above, the field, what lies below. -/
theorem sub_bitsOf_add (o lo n v : Nat) :
    o - bitsOf o lo n * 2 ^ lo + v * 2 ^ lo = 2 ^ lo * (2 ^ n * (o / 2 ^ lo / 2 ^ n) + v) + o % 2 ^ lo := by
  have hsplit : o = bitsOf o lo n * 2 ^ lo + (2 ^ lo * (2 ^ n * (o / 2 ^ lo / 2 ^ n)) + o % 2 ^ lo) := by
    calc o = 2 ^ lo * (o / 2 ^ lo) + o % 2 ^ lo := (Nat.div_add_mod _ _).symm
      _ = 2 ^ lo * (2 ^ n * (o / 2 ^ lo / 2 ^ n) + bitsOf o lo n) + o % 2 ^ lo := by rw [bitsOf, Nat.div_add_mod (o / 2 ^ lo)]
      _ = _ := by ring
  have hsub : o - bitsOf o lo n * 2 ^ lo = 2 ^ lo * (2 ^ n * (o / 2 ^ lo / 2 ^ n)) + o % 2 ^ lo := by omega
  rw [hsub]
  ring

theorem putBits_toNat {lo n : Nat} (w : Word) (v : Nat) (h : lo + n ≤ 32) :
    (putBits w lo n v).toNat = 2 ^ lo * (2 ^ n * (w.toNat / 2 ^ lo / 2 ^ n) + v % 2 ^ n) + w.toNat % 2 ^ lo := by
  have hup : w.toNat / 2 ^ lo / 2 ^ n < 2 ^ (32 - lo - n) := by
    rw [Nat.div_div_eq_div_mul, ← Nat.pow_add]
    refine Nat.div_lt_of_lt_mul ?_
    rw [← Nat.pow_add, show lo + n + (32 - lo - n) = 32 by omega]
    exact w.isLt
  have hfld := Nat.mul_add_lt_mul_of_lt_of_lt hup (Nat.mod_lt v (Nat.two_pow_pos n))
  rw [← Nat.pow_add, show 32 - lo - n + n = 32 - lo by omega] at hfld
  have hall := Nat.mul_add_lt_mul_of_lt_of_lt hfld (Nat.mod_lt w.toNat (Nat.two_pow_pos lo))
  rw [← Nat.pow_add, show 32 - lo + lo = 32 by omega] at hall
  unfold putBits
  rw [BitVec.toNat_ofNat, sub_bitsOf_add, Nat.mod_eq_of_lt hall]

theorem bitOf_eq_testBit (v i : Nat) : bitOf v i = v.testBit i := by
  rw [Nat.testBit_eq_decide_div_mod_eq]
  rfl

/-- Replacing a field leaves every bit outside it. -/
theorem State.bit_setFld_outside {lo n i : Nat} (s : State) (a v : Nat) (h : lo + n ≤ 32) (hi : i < lo ∨ lo + n ≤ i) :
    (s.setFld a lo n v).bit a i = s.bit a i := by
  have hv : v % 2 ^ n < 2 ^ n := Nat.mod_lt _ (Nat.two_pow_pos n)
  have hr : (s.reg a).toNat % 2 ^ lo < 2 ^ lo := Nat.mod_lt _ (Nat.two_pow_pos lo)
  unfold State.bit State.setFld
  rw [State.reg_setReg_same, putBits_toNat _ v h, bitOf_eq_testBit, bitOf_eq_testBit, Nat.testBit_two_pow_mul_add _ hr,
    Nat.testBit_two_pow_mul_add _ hv]
  rcases hi with hi | hi
  · simp [hi]
  · have hlo : ¬ i < lo := by omega
    have hfld : ¬ i - lo < n := by omega
    rw [if_neg hlo, if_neg hfld, Nat.testBit_div_two_pow, Nat.testBit_div_two_pow, show i - lo - n + n + lo = i by omega]

theorem State.fld_setFld_same {lo n : Nat} (s : State) (a v : Nat) (h : lo + n ≤ 32) : (s.setFld a lo n v).fld a lo n = v % 2 ^ n := by
  have hr : (s.reg a).toNat % 2 ^ lo < 2 ^ lo := Nat.mod_lt _ (Nat.two_pow_pos lo)
  unfold State.fld State.setFld bitsOf
  rw [State.reg_setReg_same, putBits_toNat _ v h, Nat.mul_add_div (Nat.two_pow_pos lo), Nat.div_eq_of_lt hr, Nat.add_zero,
    Nat.mul_add_mod, Nat.mod_mod]

theorem State.bit_setBit_same {i : Nat} (s : State) (a : Nat) (b : Bool) (h : i < 32) : (s.setBit a i b).bit a i = b := by
  have hf := State.fld_setFld_same (lo := i) (n := 1) s a (Bool.nat b) h
  change ((s.setFld a i 1 (Bool.nat b)).fld a i 1 == 1) = b
  rw [hf]
  cases b <;> rfl

/-! ### What powering the core domain keeps -/

/-- The registers that a PLL's start, an event source and the global log write. -/
def activityRegs : List Nat :=
  [CLK_PLL_STATUS 0, CLK_PLL_STAT 0, CLK_PLL_STATUS 3, CLK_PLL_STAT 3, CLK_PLL_STATUS 4, CLK_PLL_STAT 4, EVC_MERGED,
   ERR_GLOG_PROD, ERR_GLOG_OVF0, ERR_GLOG_OVF1]

/-- What the activity of a PLL, an event source or the global log leaves: modes and domains, fuses, straps, the timebase, and every
register but its own. -/
structure KeepsPower (s t : State) : Prop where
  ctl    : t.ctl = s.ctl
  fuses  : t.fuses = s.fuses
  straps : t.straps = s.straps
  tbase  : t.tbase = s.tbase
  regs   : SameRegsBut activityRegs s t

theorem KeepsPower.refl (s : State) : KeepsPower s s := ⟨rfl, rfl, rfl, rfl, fun _ _ => rfl⟩

theorem KeepsPower.trans {s t u : State} (h : KeepsPower s t) (k : KeepsPower t u) : KeepsPower s u :=
  ⟨k.ctl.trans h.ctl, k.fuses.trans h.fuses, k.straps.trans h.straps, k.tbase.trans h.tbase,
    fun a ha => (k.regs a ha).trans (h.regs a ha)⟩

/-- A change to none of these keeps them all. -/
theorem KeepsPower.of_eq {s t : State} (hc : t.ctl = s.ctl) (hf : t.fuses = s.fuses) (hs : t.straps = s.straps) (ht : t.tbase = s.tbase)
    (hr : t.regs = s.regs) : KeepsPower s t :=
  ⟨hc, hf, hs, ht, fun a _ => congrArg (tget regReset · a) hr⟩

theorem keepsPower_setReg {a : Nat} (s : State) (v : Word) (ha : a ∈ activityRegs) : KeepsPower s (s.setReg a v) :=
  ⟨rfl, rfl, rfl, rfl, fun _ hb => State.reg_setReg_ne s v fun e => hb (e ▸ ha)⟩

theorem keepsPower_inc {a : Nat} (s : State) (ha : a ∈ activityRegs) : KeepsPower s (s.inc a) := keepsPower_setReg s _ ha

theorem keepsPower_setSrc (s : State) (i : Nat) (v : Src) : KeepsPower s (s.setSrc i v) := .of_eq rfl rfl rfl rfl rfl

theorem keepsPower_setDesk (s : State) (k : Nat) (v : Desk) : KeepsPower s (s.setDesk k v) := .of_eq rfl rfl rfl rfl rfl

theorem keepsPower_each {f : State → Nat → State} (n : Nat) (h : ∀ s k, KeepsPower s (f s k)) (s : State) : KeepsPower s (s.each n f) := by
  unfold State.each
  generalize List.range n = ks
  induction ks generalizing s with
  | nil => exact .refl s
  | cons k ks ih => exact (h s k).trans (ih _)

/-- The start of PLL FAB, DSK or TB. -/
theorem keepsPower_pllStart {p : Nat} (s : State) (hp : p ∈ [0, 3, 4]) : KeepsPower s (pllStart s p) := by
  have hs : CLK_PLL_STATUS p ∈ activityRegs ∧ CLK_PLL_STAT p ∈ activityRegs := by
    revert p
    decide
  unfold pllStart
  split
  · exact .refl s
  · have h := (keepsPower_setReg s 1 hs.1).trans (keepsPower_inc _ hs.2)
    exact h.trans (.of_eq rfl rfl rfl rfl rfl)

theorem keepsPower_wfiResume (s : State) (k : Nat) : KeepsPower s (wfiResume s k) := by
  unfold wfiResume
  dsimp only
  split
  · exact keepsPower_setDesk s k _
  · exact .refl s

theorem keepsPower_arbitrate (s : State) : KeepsPower s (arbitrate s) := by
  unfold arbitrate
  exact keepsPower_each 4 (fun s k => (keepsPower_setDesk s k _).trans (keepsPower_wfiResume _ k)) s

theorem keepsPower_evcSettle (s : State) : KeepsPower s (evcSettle s) := by
  have ha := keepsPower_arbitrate s
  have hp := ha.trans (keepsPower_pllStart (p := 3) _ (by decide))
  unfold evcSettle
  dsimp only
  generalize arbitrate s = t at ha hp
  split
  · exact .refl s
  split
  · split <;> exact hp.trans (.of_eq rfl rfl rfl rfl rfl)
  split
  · exact ha.trans (.of_eq rfl rfl rfl rfl rfl)
  · exact ha

theorem keepsPower_sampleLevel (s : State) (i : Nat) : KeepsPower s (sampleLevel s i) := by
  unfold sampleLevel
  dsimp only
  split
  · exact keepsPower_setSrc s i _
  · exact .refl s

theorem keepsPower_setPend (s : State) (i : Nat) (merge : Bool) : KeepsPower s (setPend s i merge) := by
  unfold setPend
  dsimp only
  split
  · split
    · exact keepsPower_setReg s _ (by decide)
    · exact .refl s
  · exact keepsPower_setSrc s i _

/-- An event source's input takes a level. -/
theorem keepsPower_evcInput (s : State) (i : Nat) (level : Bool) : KeepsPower s (evcInput s i level) := by
  unfold evcInput
  dsimp only
  split
  · exact .refl s
  have hs := keepsPower_setSrc s i { s.src i with input := level }
  split
  · exact hs
  split
  · exact hs.trans ((keepsPower_sampleLevel _ i).trans (keepsPower_evcSettle _))
  split
  · exact hs.trans ((keepsPower_setPend _ i true).trans (keepsPower_evcSettle _))
  · exact hs

theorem keepsPower_evcPulse (s : State) (i : Nat) : KeepsPower s (evcPulse s i) :=
  (keepsPower_evcInput s i true).trans (keepsPower_evcInput _ i false)

theorem keepsPower_logGlobal (s : State) (r : LogRec) : KeepsPower s (logGlobal s r) := by
  unfold logGlobal
  dsimp only
  split
  · exact .refl s
  split
  · refine .trans ?_ (keepsPower_evcPulse _ 46)
    refine .trans ?_ (keepsPower_setReg (a := ERR_GLOG_PROD) _ _ (by decide))
    exact .of_eq rfl rfl rfl rfl rfl
  · have ho : (if r.cls.toNat < 2 then ERR_GLOG_OVF0 else ERR_GLOG_OVF1) ∈ activityRegs := by split <;> decide
    exact keepsPower_setReg s _ ho

/-- An event of no partition that is not marked for YIELD goes to the global log alone. -/
theorem keepsPower_raise {s : State} {ev part : Nat} (cls slot : Nat) (det : List (Nat × Nat)) (hp : 16 ≤ part)
    (hm : marked s ev = false) : KeepsPower s (raise s ev cls slot part det) := by
  unfold raise raiseN recordEv
  have hn : ¬ part < 16 := by omega
  simp only [hm, hn, Bool.false_and, Bool.not_false, if_true, if_false]
  split
  · exact .refl s
  · exact keepsPower_logGlobal s _

/-! ### The core domain powers up (R451, Table 16.9) -/

/-- The core domain as its power comes up: its blocks at reset, the ring island with it, the timebase from the holdover clock. -/
def coreFresh (s : State) : State :=
  let u := coreClear (if s.ctl.ring then s else ringClear s)
  let v := { u with
    ctl := { u.ctl with core := true, ring := true,
                        resets := BitVec.ofNat 3 (Bool.nat (!bitOf u.ctl.resets.toNat 1) + 2 + Bool.nat (!s.ctl.ring) * 4) }
    fuses := { u.fuses with cycleNow := u.fuses.cycle, unlockNow := u.fuses.unlocked, unlocked := false }
    tbase := { val := if u.hold.isSet then holdVal u.hold else 0 }
    nonce := Config.freshNonce u.free, free := u.free + 1 }
  (v.setBit TB_STATUS 0 true).setFld TB_STATUS 3 2 (Bool.nat v.hold.isSet)

/-- With PLLs FAB, TB and DSK started. -/
def coreStarted (s : State) : State :=
  let u := pllStart (pllStart (pllStart (coreFresh s) 0) 4) 3
  if u.reg CHN_HELLO_LOST = 0 then u else u.setSrc 55 { u.src 55 with input := true }

/-- A state that owes no record of a time-out. -/
def State.settled (s : State) : State := { s with ctl := { s.ctl with late := false } }

theorem corePowerUp_eq (s : State) :
    corePowerUp s = if (coreStarted s).ctl.late then raise (coreStarted s).settled evPrimeTimeout 3 1 31 [] else coreStarted s := rfl

theorem keepsPower_coreStarted (s : State) : KeepsPower (coreFresh s) (coreStarted s) := by
  have h := ((keepsPower_pllStart (coreFresh s) (p := 0) (by decide)).trans (keepsPower_pllStart _ (p := 4) (by decide))).trans
    (keepsPower_pllStart _ (p := 3) (by decide))
  unfold coreStarted
  dsimp only
  split
  · exact h
  · exact h.trans (keepsPower_setSrc _ 55 _)

theorem tget_filter_dropped {α : Type} (d : Nat → α) {f : Nat → Bool} {k : Nat} (hk : f k = false) :
    ∀ t : Tbl α, tget d (t.filter fun x => f x.1) k = d k
  | [] => rfl
  | (j, u) :: t => by
    rw [List.filter_cons]
    split
    · rename_i h
      have hj : j ≠ k := fun e => by simp [e, hk] at h
      rw [tget_cons, if_neg hj]
      exact tget_filter_dropped d hk t
    · exact tget_filter_dropped d hk t

/-- A register of the core domain is at reset when the domain's power comes up. -/
theorem coreClear_reg {a : Nat} (s : State) (hlo : 0x30000 ≤ a) (hr : ringSlot (a / 0x10000) = false) :
    (coreClear s).reg a = regReset a :=
  tget_filter_dropped regReset (f := fun a => decide (a < 0x30000) || ringSlot (a / 0x10000)) (by simp [hr, hlo]) s.regs

/-- At reset the time-out of a rail, whose record may be owed, is not marked for YIELD. -/
theorem coreStarted_not_marked (s : State) : marked (coreStarted s) evPrimeTimeout = false := by
  have hk : (coreStarted s).reg (ERR_YIELD 4) = (coreFresh s).reg (ERR_YIELD 4) := (keepsPower_coreStarted s).regs _ (by decide)
  have hf : (coreFresh s).reg (ERR_YIELD 4) = regReset (ERR_YIELD 4) := by
    refine (State.reg_setReg_ne _ _ (by decide)).trans ((State.reg_setReg_ne _ _ (by decide)).trans ?_)
    exact coreClear_reg _ (by decide) (by decide)
  change bitOf ((coreStarted s).reg (ERR_YIELD 4)).toNat 7 = false
  rw [hk, hf]
  decide

/-- The core domain powered up, all records made: its fresh state, but for the PLLs, the event sources and the global log. -/
theorem keepsPower_corePowerUp (s : State) : KeepsPower (coreFresh s).settled (corePowerUp s) := by
  have hs := keepsPower_coreStarted s
  have ht : KeepsPower (coreFresh s).settled (coreStarted s).settled :=
    ⟨congrArg (fun c : Ctl => { c with late := false }) hs.ctl, hs.fuses, hs.straps, hs.tbase, hs.regs⟩
  rw [corePowerUp_eq]
  split
  · exact ht.trans (keepsPower_raise 3 1 [] (by decide) (coreStarted_not_marked s))
  · rename_i hl
    have he : (coreStarted s).settled = coreStarted s := by
      simp [State.settled, ← Bool.eq_false_iff.mpr hl]
    rwa [he] at ht

/-- The part whose core domain powers up stays in its mode, with its pins as they were. -/
theorem corePowerUp_ctl (s : State) :
    (corePowerUp s).ctl.mode = s.ctl.mode ∧ (corePowerUp s).ctl.core = true ∧ (corePowerUp s).ctl.ring = true
      ∧ (corePowerUp s).ctl.coreEn = s.ctl.coreEn ∧ (corePowerUp s).ctl.porst = s.ctl.porst := by
  rw [(keepsPower_corePowerUp s).ctl]
  unfold coreFresh State.settled coreClear ringClear
  cases s.ctl.ring <;> exact ⟨rfl, rfl, rfl, rfl, rfl⟩

theorem corePowerUp_straps (s : State) : (corePowerUp s).straps = s.straps := by
  rw [(keepsPower_corePowerUp s).straps]
  unfold coreFresh State.settled coreClear ringClear
  cases s.ctl.ring <;> rfl

theorem corePowerUp_cycleNow (s : State) : (corePowerUp s).fuses.cycleNow = s.fuses.cycle := by
  rw [(keepsPower_corePowerUp s).fuses]
  unfold coreFresh State.settled coreClear ringClear
  cases s.ctl.ring <;> rfl

/-- The timebase starts from the holdover clock where that was set (R63). -/
theorem corePowerUp_tbase {s : State} (h : s.hold.isSet = true) : (corePowerUp s).tbase.val = holdVal s.hold := by
  rw [(keepsPower_corePowerUp s).tbase]
  unfold coreFresh State.settled coreClear ringClear
  cases s.ctl.ring <;> exact if_pos h

/-- A step of the timebase is armed (R66). -/
theorem corePowerUp_stepArmed (s : State) : (corePowerUp s).bit TB_STATUS 0 = true := by
  have hk : (corePowerUp s).reg TB_STATUS = (coreFresh s).reg TB_STATUS := (keepsPower_corePowerUp s).regs _ (by decide)
  calc (corePowerUp s).bit TB_STATUS 0 = (coreFresh s).bit TB_STATUS 0 := congrArg (fun w : Word => bitOf w.toNat 0) hk
    _ = true := (State.bit_setFld_outside _ _ _ (by decide) (by decide)).trans (State.bit_setBit_same _ _ _ (by decide))

/-! ### From KEEP into PRIME (R449 step 1) -/

theorem driveCoreEn_eq (s : State) (level : Bool) :
    ∃ o, driveCoreEn s level = { s with ctl := { s.ctl with coreEn := level }, outbox := o } := by
  unfold driveCoreEn
  split
  · rename_i h
    exact ⟨s.outbox, by rw [← eq_of_beq h]⟩
  · exact ⟨_, rfl⟩

/-- The state of a part that goes from KEEP into PRIME before its core domain powers up (R449 step 1). -/
def enteringPrime (s : State) (cause trigger : Nat) (byReq : Bool) : State :=
  let u := driveCoreEn (setMode s .prime cause) true
  { u with ctl := { u.ctl with target := some (2, byReq) }, rdn := { u.rdn with trigger := trigger } }

theorem beginPrime_eq (s : State) (cause trigger : Nat) (byReq : Bool) :
    beginPrime s cause trigger byReq =
      if (enteringPrime s cause trigger byReq).ctl.corePg then corePowerUp (enteringPrime s cause trigger byReq)
      else enteringPrime s cause trigger byReq := rfl

/-- Where the core domain is off, entering PRIME drives CORE_EN high and keeps what the always-on domain holds. -/
theorem enteringPrime_of_core_off {s : State} (cause trigger : Nat) (byReq : Bool) (ht : s.ctl.mode ≠ .test) (hc : s.ctl.core = false) :
    (enteringPrime s cause trigger byReq).ctl =
        { s.ctl with mode := .prime, prev := s.ctl.mode, cause := cause, target := some (2, byReq), coreEn := true }
      ∧ (enteringPrime s cause trigger byReq).hold = s.hold ∧ (enteringPrime s cause trigger byReq).fuses = s.fuses
      ∧ (enteringPrime s cause trigger byReq).straps = s.straps := by
  have hm : setMode s .prime cause = { s with ctl := { s.ctl with mode := .prime, prev := s.ctl.mode, cause := cause } } := by
    simp [setMode, leaveTest, ht, hc]
  obtain ⟨o, ho⟩ := driveCoreEn_eq (setMode s .prime cause) true
  unfold enteringPrime
  rw [ho, hm]
  exact ⟨rfl, rfl, rfl, rfl⟩

theorem autoPrime_of_asked {s : State} (hm : s.ctl.mode = .keep) (ht : s.ctl.target = some (2, false)) :
    autoPrime s = beginPrime s 5 0 false := by
  simp [autoPrime, hm, ht]

theorem autoPrime_of_ne_keep {s : State} (hm : s.ctl.mode ≠ .keep) : autoPrime s = s := by
  simp [autoPrime, hm]

/-! ### The pins -/

/-- The state in KEEP that a rise of PORST_N leaves before the part goes on to PRIME. -/
def porstRisen (x : BitVec 4) (s : State) : State :=
  { s with straps := x
           ctl := { mode := .keep, prev := .off, cause := 5, target := some (2, false), porst := true, corePg := s.ctl.corePg } }

/-- A rise of PORST_N leaves PRIME under way (R24, R427, R451). -/
theorem exec_porstNRise {s : State} (x : BitVec 4) (h : s.ctl.porst = false) :
    ∃ t, exec (.porstNRise x) s = .next t ∧ t.straps = x ∧ t.ctl.mode = .prime ∧ t.ctl.porst = true ∧ t.ctl.coreEn = true
      ∧ t.ctl.core = s.ctl.corePg := by
  have hexec : exec (.porstNRise x) s = .next (beginPrime (porstRisen x s) 5 0 false) := by
    change Host.Outcome.next (doPorstNRise x s) = _
    rw [← autoPrime_of_asked (s := porstRisen x s) rfl rfl]
    exact congrArg Host.Outcome.next (if_neg (by simp [h]))
  obtain ⟨hctl, -, -, hs⟩ := enteringPrime_of_core_off (s := porstRisen x s) 5 0 false (by simp [porstRisen]) rfl
  refine ⟨_, hexec, ?_⟩
  rw [beginPrime_eq]
  split
  · rename_i hp
    obtain ⟨hm, hc, -, he, ho⟩ := corePowerUp_ctl (enteringPrime (porstRisen x s) 5 0 false)
    rw [hctl] at hp hm he ho
    exact ⟨(corePowerUp_straps _).trans hs, hm, ho, he, hc.trans hp.symm⟩
  · rename_i hp
    rw [hctl] at hp ⊢
    exact ⟨hs, rfl, rfl, rfl, (Bool.eq_false_iff.mpr hp).symm⟩

/-- A part in PRIME, or on its way from PORST_N to it, whose core domain CORE_PG has not reached yet. -/
theorem autoPrime_core_off {s : State} (hm : s.ctl.mode = .prime ∨ s.ctl.mode = .keep ∧ s.ctl.target = some (2, false))
    (hp : s.ctl.corePg = false) (hc : s.ctl.core = false) :
    (autoPrime s).ctl.mode = .prime ∧ (autoPrime s).ctl.core = false ∧ (autoPrime s).hold = s.hold ∧ (autoPrime s).fuses = s.fuses := by
  rcases hm with hm | ⟨hm, ht⟩
  · rw [autoPrime_of_ne_keep (by simp [hm])]
    exact ⟨hm, hc, rfl, rfl⟩
  · obtain ⟨hctl, hh, hf, -⟩ := enteringPrime_of_core_off 5 0 false (by simp [hm]) hc
    rw [autoPrime_of_asked hm ht, beginPrime_eq, if_neg (by simp [hctl, hp]), hctl]
    exact ⟨rfl, hc, hh, hf⟩

/-- CORE_PG high powers the core domain of such a part up (R449). -/
theorem exec_corePgRise {s : State} (hm : s.ctl.mode = .prime ∨ s.ctl.mode = .keep ∧ s.ctl.target = some (2, false))
    (he : s.ctl.coreEn = true) (hp : s.ctl.corePg = false) (hc : s.ctl.core = false) :
    ∃ u : State, exec .corePgRise s = .next (corePowerUp u) ∧ u.ctl.mode = .prime ∧ u.hold = s.hold ∧ u.fuses = s.fuses := by
  obtain ⟨hm', hc', hh, hf⟩ := autoPrime_core_off hm hp hc
  have hon : s.ctl.mode ≠ .off := by
    rcases hm with hm | ⟨hm, -⟩ <;> simp [hm]
  refine ⟨{ autoPrime s with ctl := { (autoPrime s).ctl with corePg := true } }, ?_, hm', hh, hf⟩
  change Host.Outcome.next (doCorePgRise s) = _
  simp [doCorePgRise, hon, he, hp, hm', hc']

/-- CORE_PG that rises again, or where CORE_EN is low, powers nothing. -/
theorem exec_corePgRise_idle {s : State} (h : s.ctl.mode = .off ∨ s.ctl.coreEn = false ∨ s.ctl.corePg = true) :
    exec .corePgRise s = .next s := by
  refine congrArg Host.Outcome.next (if_pos ?_)
  simpa [or_assoc] using h

/-- Losing CORE_PG while CORE_EN is high is OFF (R427). -/
theorem exec_corePgFall_off {s : State} (hp : s.ctl.corePg = true) (hm : s.ctl.mode ≠ .off) (he : s.ctl.coreEn = true) :
    ∃ t, exec .corePgFall s = .next t ∧ t.ctl.mode = .off ∧ t.ctl.core = false ∧ t.ctl.ring = false ∧ t.ctl.corePg = false := by
  refine ⟨doCorePgFall s, rfl, ?_⟩
  unfold doCorePgFall
  rw [if_neg (by simp [hp]), if_neg (by simp [hm, he])]
  exact ⟨rfl, rfl, rfl, rfl⟩

/-- With CORE_EN low, or in OFF, the fall of CORE_PG is all that happens. -/
theorem exec_corePgFall_expected {s : State} (hp : s.ctl.corePg = true) (h : s.ctl.mode = .off ∨ s.ctl.coreEn = false) :
    exec .corePgFall s = .next { s with ctl := { s.ctl with corePg := false } } := by
  change Host.Outcome.next (doCorePgFall s) = _
  unfold doCorePgFall
  rw [if_neg (by simp [hp]), if_pos (by simpa using h)]

/-! ### WAKE_N -/

/-- Noting an edge leaves the enable bit. -/
theorem wakeNoted_enable (s : State) : (s.setBit AO_WAKE 1 true).bit AO_WAKE 0 = s.bit AO_WAKE 0 :=
  State.bit_setFld_outside s AO_WAKE _ (by decide) (by decide)

/-- A shorter edge does nothing (R430). -/
theorem exec_wakeNEdge_short {ns : Nat} {s : State} (h : ns < 1000 ∨ s.ctl.mode = .off) : exec (.wakeNEdge ns) s = .next s := by
  refine congrArg Host.Outcome.next (if_pos ?_)
  simpa [or_comm] using h

/-- One of 1 µs is noted, and wakes a part in KEEP that enables it (R430). -/
theorem exec_wakeNEdge {ns : Nat} {s : State} (hns : 1000 ≤ ns) (hm : s.ctl.mode ≠ .off) :
    exec (.wakeNEdge ns) s = .next (if s.bit AO_WAKE 0 = true ∧ s.ctl.mode = .keep ∧ s.ctl.target = none
      then beginPrime (s.setBit AO_WAKE 1 true) 4 0 false else s.setBit AO_WAKE 1 true) := by
  change Host.Outcome.next (doWakeNEdge ns s) = _
  unfold doWakeNEdge
  rw [if_neg (by simp [hm, hns])]
  dsimp only
  rw [wakeNoted_enable, State.setBit_ctl]
  exact congrArg Host.Outcome.next (if_congr (by simp [and_assoc]) rfl rfl)

/-! ### The always-on registers -/

/-- AO_TRAIN.invalidate forgets every channel that AO_TRAIN shows as trained (R429). -/
theorem exec_aoTrainInvalidate {a : Access} {v : Word} {s : State} (h : Reaches s a .w AO_TRAIN) (hv : bitOf v.toNat 31 = true) :
    exec (.aoTrainInvalidate a v) s = .next ({ s with ctl := { s.ctl with cache := [] } }.setFld AO_TRAIN 0 6 0) := by
  change Host.Outcome.next (regAccess s a AO_TRAIN v (trainWrite v)) = _
  rw [regAccess_go h]
  exact congrArg Host.Outcome.next (if_pos hv)

theorem exec_aoTrainInvalidate_not {a : Access} {v : Word} {s : State} (h : Reaches s a .w AO_TRAIN) (hv : bitOf v.toNat 31 = false) :
    exec (.aoTrainInvalidate a v) s = .next s := by
  change Host.Outcome.next (regAccess s a AO_TRAIN v (trainWrite v)) = _
  rw [regAccess_go h]
  exact congrArg Host.Outcome.next (if_neg (by simp [hv]))

/-- Settles O26: pin by pin and register by register. -/
theorem powerAndAlwaysOn : Obligations.PowerAndAlwaysOn := by
  refine ⟨⟨?porstLow, ?porstRise, ?corePgRise, ?corePgFall, ?wake, fun _ => rfl⟩, ?hold, ?train⟩
  case porstLow => exact fun s => ⟨_, rfl, rfl, rfl, rfl, rfl, rfl, rfl, rfl, rfl, rfl⟩
  case porstRise => exact fun x s => ⟨fun h => congrArg Host.Outcome.next (if_pos h), exec_porstNRise x⟩
  case corePgRise =>
    refine fun s => ⟨exec_corePgRise_idle, fun hm he hp hc => ?_⟩
    obtain ⟨u, hexec, hu, hh, hf⟩ := exec_corePgRise hm he hp hc
    obtain ⟨hmode, hcore, hring, -, -⟩ := corePowerUp_ctl u
    refine ⟨_, hexec, hcore, hring, hmode.trans hu, ?_, corePowerUp_stepArmed u, fun hset => ?_⟩
    · rw [corePowerUp_cycleNow, hf]
    · rw [← hh] at hset ⊢
      exact corePowerUp_tbase hset
  case corePgFall =>
    exact fun s => ⟨fun h => congrArg Host.Outcome.next (if_pos (by simp [h])), exec_corePgFall_expected, exec_corePgFall_off⟩
  case wake =>
    refine fun ns s => ⟨exec_wakeNEdge_short, fun hns hm hno => ?_, fun hns hen hm ht => ?_⟩
    · rw [exec_wakeNEdge hns hm, if_neg]
      rintro ⟨hen, hk, ht⟩
      rcases hno with h | h | h
      · simp [hen] at h
      · exact h hk
      · exact h ht
    · rw [exec_wakeNEdge hns (by simp [hm]), if_pos ⟨hen, hm, ht⟩]
  case hold =>
    intro a v s h
    exact congrArg Host.Outcome.next (regAccess_go h)
  case train =>
    refine fun a v s h => ⟨exec_aoTrainInvalidate_not h, fun hv => ⟨_, exec_aoTrainInvalidate h hv, ?_, ?_, rfl⟩⟩
    · exact State.fld_setFld_same _ _ _ (by decide)
    · exact fun b hb => State.reg_setReg_ne _ _ (by simpa using hb)

end Sys2Proof.Machine


/-!
PROOFS of the liveness family: the verdict of a tile (R29, R42) and the entry that a record leaves (R35, R38, R47).
-/

namespace Sys2Proof.Machine

/-! ### Verdicts -/

/-- A tile shows the verdict NEVER where no record has filled it, and only there. -/
theorem tileVerdict_never_iff {e : LEntry} {bad frozen : Bool} {liveMax agedMax margin : Nat} {now : BitVec 32} :
    tileVerdict e bad frozen liveMax agedMax now margin = .never ↔ e.never = true := by
  unfold tileVerdict
  split
  case isTrue h => simp [h]
  case isFalse h =>
    simp only [h]
    split_ifs <;> simp

/-- A tile is LIVE where each caution of R42 is absent, and only there. -/
theorem tileVerdict_live_iff {e : LEntry} {bad frozen : Bool} {liveMax agedMax margin : Nat} {now : BitVec 32} :
    tileVerdict e bad frozen liveMax agedMax now margin = .live ↔
      e.never = false ∧ bad = false ∧ e.expLong = false ∧ e.basis ≠ 0 ∧ e.taint = false ∧ frozen = false ∧ -1000 ≤ rawAge now e.content
        ∧ ageOf now margin e ≤ agedMax ∧ ageOf now margin e ≤ liveMax := by
  unfold tileVerdict
  constructor
  · intro h
    split_ifs at h with hn hs hr haged ht hf hlim
    simp only [Bool.or_eq_true, beq_iff_eq, not_or, Bool.not_eq_true] at hn hs ht hf
    obtain ⟨⟨hb, hl⟩, hbasis⟩ := hs
    exact ⟨hn, hb, hl, hbasis, ht, hf, not_lt.mp hr, not_lt.mp haged, not_lt.mp hlim⟩
  · rintro ⟨hn, hb, hl, hbasis, ht, hf, hr, haged, hlim⟩
    have hbz : (e.basis == 0) = false := beq_false_of_ne hbasis
    simp only [hn, hb, hl, hbz, ht, hf, not_lt.mpr hr, not_lt.mpr haged, not_lt.mpr hlim, Bool.or_self, Bool.false_eq_true, if_false]

/-- The age grows with the margin: R40 adds it for CAPTURE basis. -/
theorem ageOf_mono {m m' : Nat} (e : LEntry) (now : BitVec 32) (h : m ≤ m') : ageOf now m e ≤ ageOf now m' e := by
  unfold ageOf
  split <;> omega

/-- Settles O22: LIVE and NEVER by their cautions; the age, and with it two of the cautions, only shrinks with the margin. -/
theorem liveMeansFresh : Obligations.LiveMeansFresh := by
  intro e bad frozen liveMax agedMax now margin
  refine ⟨tileVerdict_live_iff, tileVerdict_never_iff, fun m hm hlive => ?_⟩
  have hage := ageOf_mono e now hm
  obtain ⟨hn, hb, hl, hs, ht, hf, hr, haged, hlim⟩ := tileVerdict_live_iff.mp hlive
  exact tileVerdict_live_iff.mpr ⟨hn, hb, hl, hs, ht, hf, hr, hage.trans haged, hage.trans hlim⟩

/-! ### Counters -/

theorem capAt_eq_min (m n : Nat) : capAt m n = Nat.min m n := by
  unfold capAt
  change _ = min m n
  split <;> omega

/-- A 32-bit count stops at its greatest value. -/
theorem State.toNat_reg_add_same (s : State) (a k : Nat) :
    ((s.add a 0 32 k).reg a).toNat = Nat.min (2 ^ 32 - 1) ((s.reg a).toNat + k) := by
  have hcap : capAt (2 ^ 32 - 1) ((s.reg a).toNat + k) < 2 ^ 32 := by
    unfold capAt
    split <;> omega
  have hword := (s.reg a).isLt
  have hfld : s.fld a 0 32 = (s.reg a).toNat := by
    unfold State.fld bitsOf
    omega
  unfold State.add State.setFld
  rw [State.reg_setReg_same, putBits_toNat _ _ (by decide), hfld, Nat.mod_eq_of_lt hcap, ← capAt_eq_min]
  omega

theorem State.reg_inc_same (s : State) (a : Nat) : (s.inc a).reg a = BitVec.ofNat 32 (Nat.min 0xFFFFFFFF ((s.reg a).toNat + 1)) := by
  calc (s.inc a).reg a = BitVec.ofNat 32 ((s.inc a).reg a).toNat := by simp
    _ = _ := congrArg (BitVec.ofNat 32) (State.toNat_reg_add_same s a 1)

/-! ### Records (R35, R38, R47) -/

/-- What the ledger's error counters make of a read (R47): nothing, a corrected error, an uncorrectable one at entry `i`. -/
def eccNoted (ecc : Ecc) (i : Nat) (s : State) : State :=
  match ecc with
  | .ok => s
  | .corrected => ledgerFixed s 1
  | .bad => ledgerBad s.draw i

/-- A record of no registered tile is dropped and counted. -/
theorem applyRecord_unregistered {s : State} {r : TileRec} (ecc : Ecc)
    (h : (s.surf r.surface.toNat).reg = false ∨ (s.surf r.surface.toNat).tiles ≤ r.tile.toNat) : applyRecord s r ecc = s.inc LDG_DROP := by
  unfold applyRecord
  rcases h with h | h <;> simp [h]

/-- A record of a registered tile updates its entry and its surface; the read of the entry is noted after. -/
theorem applyRecord_registered {s : State} {r : TileRec} (ecc : Ecc) (hreg : (s.surf r.surface.toNat).reg = true)
    (ht : r.tile.toNat < (s.surf r.surface.toNat).tiles) :
    let f := s.surf r.surface.toNat
    let i := f.lbase + r.tile.toNat
    let e' := entryAfter (entryRead s (s.led i) ecc) r (if r.basis = 0 then s.tick else r.content)
    applyRecord s r ecc = eccNoted ecc i ((s.setLed i e').setSurf r.surface.toNat (surfAfter f r (s.led i).run e'.run)) := by
  have hin : ¬ r.tile.toNat ≥ (s.surf r.surface.toNat).tiles := by omega
  unfold applyRecord
  simp only [hreg, hin, Bool.not_true, decide_false, Bool.or_false, Bool.false_eq_true, if_false, beq_iff_eq]
  cases ecc <;> rfl

/-- A surface whose previous picture closes where a record begins another (R38). -/
def pictureClosed (f : Surface) (r : TileRec) : Surface := if r.seq = f.curSeq then f else { closeA f with curSeq := r.seq }

/-- frozen_tiles of a surface after an entry's freeze run went from `old` to `new` (R38). -/
def frozenAfter (f : Surface) (old new : Nat) : Nat :=
  if f.frzFrames ≠ 0 ∧ old < f.frzFrames ∧ f.frzFrames ≤ new then f.frozen + 1
  else if f.frzFrames ≠ 0 ∧ f.frzFrames ≤ old ∧ new < f.frzFrames then f.frozen - 1 else f.frozen

/-- Closing a picture changes neither the limit nor the count of frozen tiles. -/
theorem pictureClosed_frozen (f : Surface) (r : TileRec) :
    (pictureClosed f r).frzFrames = f.frzFrames ∧ (pictureClosed f r).frozen = f.frozen := by
  unfold pictureClosed
  split <;> exact ⟨rfl, rfl⟩

/-- A record closes its surface's previous picture, and then counts its tile. -/
theorem surfAfter_eq (f : Surface) (r : TileRec) (old new : Nat) :
    surfAfter f r old new = { pictureClosed f r with frozen := frozenAfter f old new } := by
  obtain ⟨hfrz, hfrozen⟩ := pictureClosed_frozen f r
  have hclosed : (if r.seq != f.curSeq then { closeA f with curSeq := r.seq } else f) = pictureClosed f r := by
    by_cases h : r.seq = f.curSeq <;> simp [pictureClosed, h]
  unfold surfAfter frozenAfter
  simp only [hclosed]
  generalize pictureClosed f r = g at hfrz hfrozen
  cases g
  dsimp only at hfrz hfrozen
  subst hfrz hfrozen
  by_cases hz : f.frzFrames = 0
  · simp [hz]
  · simp only [hz, ne_eq, not_false_eq_true, true_and, if_false]
    split_ifs <;> rfl

/-- The engine applies the oldest record. -/
theorem exec_tileRecordApply {s : State} {r : TileRec} {rest : List TileRec} (ecc : Ecc) (h : s.records = r :: rest) :
    exec (.tileRecordApply ecc) s = .next (applyRecord { s with records := rest } r ecc) := by
  change Host.Outcome.next (doTileRecordApply ecc s) = _
  simp only [doTileRecordApply, h]

/-- Settles O21: the record dropped, or the entry and the surface after it, with what the read of the entry brings. -/
theorem ledgerRecord : Obligations.LedgerRecord := by
  refine ⟨fun ecc s h => ?_, fun r rest s h => ⟨fun hdrop ecc => ?_, fun hreg ht => ?_⟩⟩
  · change Host.Outcome.next (doTileRecordApply ecc s) = _
    simp only [doTileRecordApply, h]
  · have hexec := exec_tileRecordApply ecc h
    rw [applyRecord_unregistered (s := { s with records := rest }) ecc hdrop] at hexec
    exact ⟨_, hexec, State.reg_inc_same _ _, fun a ha => State.reg_setReg_ne _ _ (by simpa using ha), rfl⟩
  · have hexec := fun ecc => (exec_tileRecordApply ecc h).trans
      (congrArg Host.Outcome.next (applyRecord_registered (s := { s with records := rest }) ecc hreg ht))
    have hsurf := surfAfter_eq (s.surf r.surface.toNat) r
    refine ⟨?_, ?_, ?_⟩
    · rw [hexec .ok]
      exact congrArg (fun g => Host.Outcome.next (State.setSurf _ _ g)) (hsurf _ _)
    · rw [hexec .corrected]
      exact congrArg (fun g => Host.Outcome.next ((State.setSurf _ _ g).add LDG_ECC 0 16 1)) (hsurf _ _)
    · exact ⟨rfl, rfl, hexec .bad⟩

end Sys2Proof.Machine

/-!
PROOFS of the liveness family: the sweeper (R41, R47, Table 2.15) — where allocated entries lie, whose turn it is, the pass that ends,
the visit.
-/

namespace Sys2Proof.Machine

/-! ### Fields beside a field -/

theorem testBit_bitsOf (v lo n i : Nat) : (bitsOf v lo n).testBit i = (decide (i < n) && v.testBit (lo + i)) := by
  rw [bitsOf, Nat.testBit_mod_two_pow, Nat.testBit_div_two_pow, Nat.add_comm]

/-- Replacing a field leaves every field beside it. -/
theorem State.fld_setFld_beside {lo n lo' n' : Nat} (s : State) (a v : Nat) (h : lo + n ≤ 32) (hb : lo' + n' ≤ lo ∨ lo + n ≤ lo') :
    (s.setFld a lo n v).fld a lo' n' = s.fld a lo' n' := by
  refine Nat.eq_of_testBit_eq fun i => ?_
  unfold State.fld
  rw [testBit_bitsOf, testBit_bitsOf]
  by_cases hi : i < n'
  · have hbit := State.bit_setFld_outside (i := lo' + i) s a v h (by omega)
    unfold State.bit at hbit
    rw [bitOf_eq_testBit, bitOf_eq_testBit] at hbit
    rw [hbit]
  · simp [hi]

theorem State.setFld_sameRegsBut (s : State) (a lo n v : Nat) : SameRegsBut [a] s (s.setFld a lo n v) :=
  fun _ hb => State.reg_setReg_ne s _ (by simpa using hb)

/-! ### Turns and passes -/

/-- Entries are allocated where a registered surface's run holds them. -/
theorem allocated_iff {s : State} {a b : Nat} :
    allocated s a b = true ↔ ∃ r ∈ runs s, ∃ k, a ≤ k ∧ k < b ∧ r.2.1 ≤ k ∧ k < r.2.1 + r.2.2 := by
  simp only [allocated, List.any_eq_true, decide_eq_true_eq, Nat.max_def, Nat.min_def]
  refine exists_congr fun r => and_congr_right fun _ => ⟨fun h => ⟨Nat.max a r.2.1, ?_⟩, fun ⟨k, hk⟩ => ?_⟩
  · change a ≤ max a r.2.1 ∧ max a r.2.1 < b ∧ r.2.1 ≤ max a r.2.1 ∧ max a r.2.1 < r.2.1 + r.2.2
    split at h <;> split at h <;> omega
  · split <;> split <;> omega

/-- No entry of a range is allocated where no run holds one of it. -/
theorem allocated_eq_false_iff {s : State} {a b : Nat} :
    allocated s a b = false ↔ ∀ r ∈ runs s, ∀ k, a ≤ k → k < b → ¬ (r.2.1 ≤ k ∧ k < r.2.1 + r.2.2) := by
  rw [← Bool.not_eq_true, allocated_iff]
  push Not
  exact Iff.rfl

/-- One entry is allocated where a run holds it. -/
theorem allocated_one_iff {s : State} {i : Nat} : allocated s i (i + 1) = true ↔ ∃ r ∈ runs s, r.2.1 ≤ i ∧ i < r.2.1 + r.2.2 := by
  rw [allocated_iff]
  refine exists_congr fun r => and_congr_right fun _ => ⟨fun ⟨k, hk⟩ => ?_, fun h => ⟨i, by omega⟩⟩
  obtain rfl : k = i := by omega
  exact hk.2.2

theorem sweepDue_end (s : State) : sweepDue s 262144 = s.sweepAt + s.sweepMs * 1000000 := by
  rw [sweepDue, Nat.mul_div_cancel_left _ (by decide)]

/-- The sweeper comes to an entry in ascending order, in its time, with no allocated entry before it left out. -/
theorem sweepTurn_iff {s : State} {i : Nat} : sweepTurn s i = true ↔
    s.sweepNext ≤ i ∧ sweepDue s i ≤ s.island ∧ ∀ r ∈ runs s, ∀ k, s.sweepNext ≤ k → k < i → ¬ (r.2.1 ≤ k ∧ k < r.2.1 + r.2.2) := by
  simp only [sweepTurn, Bool.and_eq_true, decide_eq_true_eq, Bool.not_eq_true', allocated_eq_false_iff]
  tauto

/-- A pass goes on until its time is over and its entries are visited. -/
theorem sweepPass_unfinished {s : State} (h : s.island < sweepDue s 262144 ∨ allocated s s.sweepNext 262144 = true) : sweepPass s = s := by
  unfold sweepPass
  rcases h with h | h <;> simp [h]

/-- The state in which a pass has been counted with its length (Table 2.15). -/
def sweepCounted (s : State) : State := (s.setFld LDG_SWEEP_STAT 0 16 s.sweepMs).wrapInc LDG_SWEEP_STAT 16 16

/-- Sets the sweeper's place: when its pass began, its next entry, the length of its pass. -/
def State.setSweep (s : State) (began next ms : Nat) : State := { s with sweepAt := began, sweepNext := next, sweepMs := ms }

theorem State.setSweep_sweep (s : State) (began next ms : Nat) : (s.setSweep began next ms).sweepAt = began
    ∧ (s.setSweep began next ms).sweepNext = next ∧ (s.setSweep began next ms).sweepMs = ms := ⟨rfl, rfl, rfl⟩

/-- The sweeper's place is no register, no run, no entry, no byte of memory and no time. -/
theorem State.setSweep_keeps (s : State) (began next ms : Nat) : (s.setSweep began next ms).regs = s.regs
    ∧ (s.setSweep began next ms).surfs = s.surfs ∧ (s.setSweep began next ms).ledger = s.ledger
    ∧ (s.setSweep began next ms).mem = s.mem ∧ (s.setSweep began next ms).tbase = s.tbase := ⟨rfl, rfl, rfl, rfl, rfl⟩

/-- The state in which the next pass begins, with the length written (R41). -/
def nextSweep (s : State) : State := (sweepCounted s).setSweep (sweepDue s 262144) 0 (s.fld LDG_SWEEP 0 16)

theorem sweepPass_finished {s : State} (ht : sweepDue s 262144 ≤ s.island) (ha : allocated s s.sweepNext 262144 = false) :
    sweepPass s = nextSweep s := by
  have hn : ¬ (decide (s.island < sweepDue s 262144) || allocated s s.sweepNext 262144) = true := by
    rw [ha, Bool.or_false, decide_eq_true_eq]
    exact Nat.not_lt.mpr ht
  unfold sweepPass
  rw [if_neg hn]
  unfold nextSweep sweepCounted State.setSweep
  dsimp only

/-- LDG_SWEEP_STAT shows the length of the pass that ended and one pass more; no other register changes. -/
theorem sweepCounted_stat (s : State) : (sweepCounted s).fld LDG_SWEEP_STAT 0 16 = s.sweepMs % 2 ^ 16
    ∧ (sweepCounted s).fld LDG_SWEEP_STAT 16 16 = (s.fld LDG_SWEEP_STAT 16 16 + 1) % 2 ^ 16 ∧ SameRegsBut [LDG_SWEEP_STAT] s (sweepCounted s) := by
  have hcount : (s.setFld LDG_SWEEP_STAT 0 16 s.sweepMs).fld LDG_SWEEP_STAT 16 16 = s.fld LDG_SWEEP_STAT 16 16 :=
    State.fld_setFld_beside s _ _ (by decide) (by decide)
  unfold sweepCounted State.wrapInc
  rw [hcount]
  refine ⟨?_, State.fld_setFld_same _ _ _ (by decide), fun a ha => ?_⟩
  · rw [State.fld_setFld_beside _ _ _ (by decide) (by decide), State.fld_setFld_same s _ _ (by decide)]
  · rw [State.setFld_sameRegsBut _ _ _ _ _ a ha, State.setFld_sameRegsBut s _ _ _ _ a ha]

/-- Counting a pass changes neither the runs nor their entries, neither memory nor the time. -/
theorem sweepCounted_keeps (s : State) : (sweepCounted s).surfs = s.surfs ∧ (sweepCounted s).ledger = s.ledger
    ∧ (sweepCounted s).mem = s.mem ∧ (sweepCounted s).tbase = s.tbase := by
  unfold sweepCounted
  rw [State.wrapInc_surfs, State.wrapInc_ledger, State.wrapInc_mem, State.wrapInc_tbase]
  exact ⟨State.setFld_surfs _ _ _ _ _, State.setFld_ledger _ _ _ _ _, State.setFld_mem _ _ _ _ _, State.setFld_tbase _ _ _ _ _⟩

theorem sweepPass_keeps (s : State) : (sweepPass s).surfs = s.surfs ∧ (sweepPass s).ledger = s.ledger ∧ (sweepPass s).tbase = s.tbase := by
  by_cases h : s.island < sweepDue s 262144 ∨ allocated s s.sweepNext 262144 = true
  · rw [sweepPass_unfinished h]
    exact ⟨rfl, rfl, rfl⟩
  · obtain ⟨ht, ha⟩ := not_or.mp h
    obtain ⟨-, hsurfs, hledger, -, htbase⟩ := State.setSweep_keeps (sweepCounted s) (sweepDue s 262144) 0 (s.fld LDG_SWEEP 0 16)
    obtain ⟨hsurfs', hledger', -, htbase'⟩ := sweepCounted_keeps s
    rw [sweepPass_finished (Nat.not_lt.mp ht) (Bool.not_eq_true _ ▸ ha), nextSweep]
    exact ⟨hsurfs.trans hsurfs', hledger.trans hledger', htbase.trans htbase'⟩

/-! ### A visit -/

/-- An entry, the runs and the tick of a state that differs in none of what they stand in. -/
theorem led_runs_tick_congr {s t : State} (hsurfs : t.surfs = s.surfs) (hledger : t.ledger = s.ledger) (htbase : t.tbase = s.tbase) (i : Nat) :
    t.led i = s.led i ∧ runs t = runs s ∧ t.tick = s.tick :=
  ⟨by simp only [State.led, hledger], by simp only [runs, hsurfs], by simp only [State.tick, State.now, htbase]⟩

/-- Whether the content of an entry, or a watch tile's last change, has come to lie more than 30 minutes away (R41). -/
def contentLapsed (s : State) (i : Nat) : Bool := beyond30 s.tick (s.led i).content && !(s.led i).expLong
def changeLapsed (s : State) (i : Nat) : Bool := (s.led i).watch && beyond30 s.tick (s.led i).change && !(s.led i).watchExp

/-- They depend on the entry and on device time alone. -/
theorem lapsed_congr {s t : State} {i : Nat} (hled : t.led i = s.led i) (htick : t.tick = s.tick) :
    contentLapsed t i = contentLapsed s i ∧ changeLapsed t i = changeLapsed s i := by
  unfold contentLapsed changeLapsed
  rw [hled, htick]
  exact ⟨rfl, rfl⟩

/-- The state in which entry `i`, which was `e`, is marked and counted (R41). -/
def lapseMarked (s : State) (i : Nat) (e : LEntry) (l w : Bool) : State :=
  (s.setLed i { e with expLong := e.expLong || l, watchExp := e.watchExp || w }).inc LDG_EXPIRED

/-- What a visit makes of an allocated entry that reads well: a filled one that lapsed is marked. -/
theorem sweepEntry_eq {s : State} {i : Nat} {e : LEntry} {l w : Bool} (he : s.led i = e) (hl : contentLapsed s i = l) (hw : changeLapsed s i = w) :
    (if (s.led i).never then s else sweepEntry s i) = if e.never = false ∧ (l || w) = true then lapseMarked s i e l w else s := by
  subst he hl hw
  cases hn : (s.led i).never
  · simp only [Bool.false_eq_true, if_false, true_and]
    rfl
  · simp

theorem exec_sweeperVisit_idle {i : Fin 262144} {s : State} (ecc : Ecc)
    (h : s.ctl.core = false ∨ s.bit LDG_STATUS 0 = false ∨ sweepTurn (sweepPass s) i.val = false) :
    exec (.sweeperVisit i ecc) s = .next s := by
  change Host.Outcome.next (doSweeperVisit i ecc s) = _
  unfold doSweeperVisit
  rcases h with h | h | h <;> simp [h]

/-- The visit of entry `i` once its turn has come. -/
def visitEntry (ecc : Ecc) (i : Nat) (s : State) : State :=
  if !allocated s i (i + 1) then s
  else match ecc with
    | .bad => ledgerBad s i
    | _ =>
      let s := if ecc = .corrected then ledgerFixed s 1 else s
      if (s.led i).never then s else sweepEntry s i

/-- The sweeper notes the next entry, and visits this one. -/
theorem exec_sweeperVisit {i : Fin 262144} {s : State} (ecc : Ecc) (hc : s.ctl.core = true) (hr : s.bit LDG_STATUS 0 = true)
    (ht : sweepTurn (sweepPass s) i.val = true) :
    exec (.sweeperVisit i ecc) s = .next (visitEntry ecc i.val { sweepPass s with sweepNext := i.val + 1 }) := by
  change Host.Outcome.next (doSweeperVisit i ecc s) = _
  unfold doSweeperVisit
  generalize sweepPass s = t at ht
  exact congrArg Host.Outcome.next (if_neg (by simp [hc, hr, ht]))

/-- A visit of an entry that no run holds does nothing. -/
theorem visitEntry_unallocated {s : State} {i : Nat} (ecc : Ecc) (h : allocated s i (i + 1) = false) : visitEntry ecc i s = s := by
  simp [visitEntry, h]

section Allocated

variable {s : State} {i : Nat} (h : allocated s i (i + 1) = true)
include h

theorem visitEntry_bad : visitEntry .bad i s = ledgerBad s i := by
  simp [visitEntry, h]

/-- A visit that reads well, by what the entry holds; a corrected read is counted first. -/
theorem visitEntry_read {e : LEntry} {l w : Bool} (he : s.led i = e) (hl : contentLapsed s i = l) (hw : changeLapsed s i = w) :
    visitEntry .ok i s = (if e.never = false ∧ (l || w) = true then lapseMarked s i e l w else s)
      ∧ visitEntry .corrected i s =
        if e.never = false ∧ (l || w) = true then lapseMarked (ledgerFixed s 1) i e l w else ledgerFixed s 1 := by
  obtain ⟨hled, -, htick⟩ := led_runs_tick_congr (t := ledgerFixed s 1) (State.add_surfs _ _ _ _ _) (State.add_ledger _ _ _ _ _)
    (State.add_tbase _ _ _ _ _) i
  obtain ⟨hcontent, hchange⟩ := lapsed_congr hled htick
  simp only [visitEntry, h]
  exact ⟨sweepEntry_eq he hl hw, sweepEntry_eq (hled.trans he) (hcontent.trans hl) (hchange.trans hw)⟩

end Allocated

/-- Settles O23: turns and passes, and the visit in the state that its pass leaves. -/
theorem sweeper : Obligations.Sweeper := by
  refine ⟨fun s i => ⟨sweepTurn_iff, fun h => ?idle, fun hover hvisited => ?next⟩, fun i ecc s => exec_sweeperVisit_idle ecc,
    fun i s hc hr hturn => ?visit⟩
  case idle =>
    rw [← sweepDue_end] at h
    exact sweepPass_unfinished (h.imp_right allocated_iff.mpr)
  case next =>
    rw [← sweepDue_end] at hover ⊢
    obtain ⟨hlen, hcount, hsame⟩ := sweepCounted_stat s
    obtain ⟨-, hledger, hmem, -⟩ := sweepCounted_keeps s
    obtain ⟨hat, hnext, hms⟩ := State.setSweep_sweep (sweepCounted s) (sweepDue s 262144) 0 (s.fld LDG_SWEEP 0 16)
    obtain ⟨hregs, -, hledger', hmem', -⟩ := State.setSweep_keeps (sweepCounted s) (sweepDue s 262144) 0 (s.fld LDG_SWEEP 0 16)
    have hreg : ∀ a, (nextSweep s).reg a = (sweepCounted s).reg a := fun a => congrArg (tget regReset · a) hregs
    rw [sweepPass_finished hover (allocated_eq_false_iff.mpr hvisited)]
    refine ⟨hnext, hat, hms, ?_, ?_, fun a ha => (hreg a).trans (hsame a ha), hledger'.trans hledger, hmem'.trans hmem⟩
    · exact (congrArg (fun w : Word => bitsOf w.toNat 0 16) (hreg _)).trans hlen
    · exact (congrArg (fun w : Word => bitsOf w.toNat 16 16) (hreg _)).trans hcount
  case visit =>
    obtain ⟨hsurfs, hledger, htbase⟩ := sweepPass_keeps s
    have hexec := fun ecc => exec_sweeperVisit ecc hc hr hturn
    obtain ⟨t, hpass⟩ : ∃ t, t = sweepPass s := ⟨_, rfl⟩
    rw [← hpass] at hsurfs hledger htbase hexec ⊢
    intro u e old wold
    obtain ⟨hled, hruns, htick⟩ := led_runs_tick_congr (t := u) hsurfs hledger htbase i.val
    obtain ⟨hold, hwold⟩ : contentLapsed u i.val = old ∧ changeLapsed u i.val = wold := lapsed_congr hled htick
    have hexec : ∀ {ecc v}, visitEntry ecc i.val u = v → exec (.sweeperVisit i ecc) s = .next v := fun h =>
      (hexec _).trans (congrArg Host.Outcome.next h)
    refine ⟨fun hfree ecc => hexec (visitEntry_unallocated ecc ?_), fun hin => ?_⟩
    · rw [← Bool.not_eq_true, allocated_one_iff, hruns]
      exact fun ⟨r, hr, hri⟩ => hfree r hr hri
    · rw [← hruns, ← allocated_one_iff] at hin
      obtain ⟨hok, hfixed⟩ := visitEntry_read hin hled hold hwold
      refine ⟨fun hkept => ?_, fun hfilled hlapsed => ?_, hexec (visitEntry_bad hin)⟩
      · have hnot : ¬ (e.never = false ∧ (old || wold) = true) := fun ⟨hfilled, hlapsed⟩ =>
          hkept.elim (fun hn => Bool.noConfusion (hfilled.symm.trans hn)) fun hl => Bool.noConfusion (hl.symm.trans hlapsed)
        exact ⟨hexec (hok.trans (if_neg hnot)), hexec (hfixed.trans (if_neg hnot))⟩
      · exact ⟨hexec (hok.trans (if_pos ⟨hfilled, hlapsed⟩)), hexec (hfixed.trans (if_pos ⟨hfilled, hlapsed⟩))⟩

end Sys2Proof.Machine

/-!
PROOFS of the liveness family: what the raising of an event leaves alone (R480-R489, R386) — whatever it brings with it, a record, a
write toward a host that is refused, the entry into YIELD — of the liveness contract's own state.
-/

namespace Sys2Proof.Machine

/-! ### What is kept -/

/-- The commits that wait and the registers of LDG and VRD are those of before. -/
structure KeepsLiveness (s t : State) : Prop where
  commits : t.commits = s.commits
  snaps   : t.snaps = s.snaps
  regs    : ∀ a, 0xC0000 ≤ a → a < 0xE0000 → t.reg a = s.reg a

theorem KeepsLiveness.refl (s : State) : KeepsLiveness s s := ⟨rfl, rfl, fun _ _ _ => rfl⟩

theorem KeepsLiveness.trans {s t u : State} (h : KeepsLiveness s t) (k : KeepsLiveness t u) : KeepsLiveness s u :=
  ⟨k.commits.trans h.commits, k.snaps.trans h.snaps, fun a hl hu => (k.regs a hl hu).trans (h.regs a hl hu)⟩

/-- A change to no register and no commit. -/
theorem KeepsLiveness.of_eq {s t : State} (hc : t.commits = s.commits) (hs : t.snaps = s.snaps) (hr : t.regs = s.regs) : KeepsLiveness s t :=
  ⟨hc, hs, fun a _ _ => congrArg (tget regReset · a) hr⟩

theorem KeepsLiveness.ite {s t u : State} {c : Prop} [Decidable c] (ht : KeepsLiveness s t) (hu : KeepsLiveness s u) :
    KeepsLiveness s (if c then t else u) := by
  split
  · exact ht
  · exact hu

theorem keepsLiveness_foldl_mem {α : Type} {f : State → α → State} {xs : List α} (h : ∀ x ∈ xs, ∀ s, KeepsLiveness s (f s x)) (s : State) :
    KeepsLiveness s (xs.foldl f s) := by
  induction xs generalizing s with
  | nil => exact .refl s
  | cons x xs ih => exact (h x List.mem_cons_self s).trans (ih (fun y hy => h y (List.mem_cons_of_mem x hy)) _)

theorem keepsLiveness_foldl {α : Type} {f : State → α → State} (h : ∀ s x, KeepsLiveness s (f s x)) (xs : List α) (s : State) :
    KeepsLiveness s (xs.foldl f s) := keepsLiveness_foldl_mem (fun x _ s => h s x) s

theorem keepsLiveness_foldl_fst {α β : Type} {f : State × β → α → State × β} (h : ∀ r x, KeepsLiveness r.1 (f r x).1) (xs : List α)
    (r : State × β) : KeepsLiveness r.1 (xs.foldl f r).1 := by
  induction xs generalizing r with
  | nil => exact .refl r.1
  | cons x xs ih => exact (h r x).trans (ih _)

theorem keepsLiveness_each {f : State → Nat → State} (h : ∀ s k, KeepsLiveness s (f s k)) (n : Nat) (s : State) :
    KeepsLiveness s (s.each n f) := keepsLiveness_foldl h _ s

/-! ### Registers of other blocks -/

/-- An address outside LDG and VRD. -/
def OffLiveness (a : Nat) : Prop := a < 0xC0000 ∨ 0xE0000 ≤ a

/-- The registers of a block above VRD, one at a stride and one of a numbered block. -/
theorem offLiveness_array {base : Nat} (off : Nat) (h : 0xE0000 ≤ base) : OffLiveness (base + off) := .inr (Nat.le_add_right_of_le h)

theorem offLiveness_block {base n off : Nat} (h : 14 ≤ base) : OffLiveness ((base + n) * 0x10000 + off) := by
  unfold OffLiveness
  omega

theorem offLiveness_lane {n off l : Nat} : OffLiveness ((52 + n) * 0x10000 + off + 0x40 * l) := by
  unfold OffLiveness
  omega

section Registers

variable {a : Nat} (s : State) (ha : OffLiveness a)
include ha

theorem keepsLiveness_setReg (v : Word) : KeepsLiveness s (s.setReg a v) :=
  ⟨rfl, rfl, fun b hl hu => State.reg_setReg_ne s v (by unfold OffLiveness at ha; omega)⟩

theorem keepsLiveness_setFld (lo n v : Nat) : KeepsLiveness s (s.setFld a lo n v) := keepsLiveness_setReg s ha _

theorem keepsLiveness_setBit (i : Nat) (b : Bool) : KeepsLiveness s (s.setBit a i b) := keepsLiveness_setReg s ha _

theorem keepsLiveness_add (lo n k : Nat) : KeepsLiveness s (s.add a lo n k) := keepsLiveness_setReg s ha _

theorem keepsLiveness_inc : KeepsLiveness s (s.inc a) := keepsLiveness_setReg s ha _

theorem keepsLiveness_resultDone (bits : Nat) : KeepsLiveness s (s.resultDone a bits) := keepsLiveness_setReg s ha _

theorem keepsLiveness_setPair {b : Nat} (hb : OffLiveness b) (v : Nat) : KeepsLiveness s (s.setPair a b v) :=
  (keepsLiveness_setReg s ha _).trans (keepsLiveness_setReg _ hb _)

end Registers

/-! ### Records of the tables -/

theorem keepsLiveness_setSrc (s : State) (i : Nat) (v : Src) : KeepsLiveness s (s.setSrc i v) := .of_eq rfl rfl rfl
theorem keepsLiveness_setDesk (s : State) (k : Nat) (v : Desk) : KeepsLiveness s (s.setDesk k v) := .of_eq rfl rfl rfl
theorem keepsLiveness_setPart (s : State) (p : Nat) (v : Part) : KeepsLiveness s (s.setPart p v) := .of_eq rfl rfl rfl
theorem keepsLiveness_setPort (s : State) (p : Nat) (v : ChnPort) : KeepsLiveness s (s.setPort p v) := .of_eq rfl rfl rfl
theorem keepsLiveness_setTch (s : State) (p : Nat) (v : Touch) : KeepsLiveness s (s.setTch p v) := .of_eq rfl rfl rfl
theorem keepsLiveness_store (s : State) (a : Nat) (bs : Bytes) : KeepsLiveness s (s.store a bs) := .of_eq rfl rfl rfl
theorem keepsLiveness_emit (s : State) (o : Out) : KeepsLiveness s (s.emit o) := .of_eq rfl rfl rfl
theorem keepsLiveness_draws (s : State) (n : Nat) : KeepsLiveness s (s.draws n) := .of_eq rfl rfl rfl
theorem keepsLiveness_pllUsed (s : State) (p : Nat) : KeepsLiveness s (s.pllUsed p) := .of_eq rfl rfl rfl

/-! ### The event concentrator -/

theorem offLiveness_pll {p : Nat} (h : p < 16) : OffLiveness (CLK_PLL_STATUS p) ∧ OffLiveness (CLK_PLL_STAT p) := by
  unfold OffLiveness CLK_PLL_STATUS CLK_PLL_STAT
  omega

theorem keepsLiveness_pllStart {p : Nat} (s : State) (h : p < 16) : KeepsLiveness s (pllStart s p) := by
  obtain ⟨hstatus, hstat⟩ := offLiveness_pll h
  unfold pllStart
  refine .ite (.refl s) ?_
  have hcount := (keepsLiveness_setReg s hstatus 1).trans (keepsLiveness_inc _ hstat)
  exact (hcount.trans (keepsLiveness_pllUsed _ p)).trans (.of_eq rfl rfl rfl)

theorem keepsLiveness_wfiResume (s : State) (k : Nat) : KeepsLiveness s (wfiResume s k) :=
  .ite (keepsLiveness_setDesk s k _) (.refl s)

theorem keepsLiveness_arbitrate (s : State) : KeepsLiveness s (arbitrate s) :=
  keepsLiveness_each (fun s k => (keepsLiveness_setDesk s k _).trans (keepsLiveness_wfiResume _ k)) 4 s

theorem keepsLiveness_evcSettle (s : State) : KeepsLiveness s (evcSettle s) := by
  have ha := keepsLiveness_arbitrate s
  unfold evcSettle
  generalize arbitrate s = t at ha
  have hp := (keepsLiveness_pllStart (p := 3) t (by decide)).trans (keepsLiveness_pllUsed _ 3)
  have hu := keepsLiveness_pllUsed t 3
  refine .ite (.refl s) (ha.trans (.ite (.ite hp ?restart) (.ite ?stop (.refl t))))
  case restart => exact hp.trans (.of_eq rfl rfl rfl)
  case stop => exact hu.trans (.of_eq rfl rfl rfl)

theorem keepsLiveness_sampleLevel (s : State) (i : Nat) : KeepsLiveness s (sampleLevel s i) :=
  .ite (keepsLiveness_setSrc s i _) (.refl s)

theorem keepsLiveness_setPend (s : State) (i : Nat) (merge : Bool) : KeepsLiveness s (setPend s i merge) :=
  .ite (.ite (keepsLiveness_inc s (offLiveness_array 0 (by decide))) (.refl s)) (keepsLiveness_setSrc s i _)

theorem keepsLiveness_evcInput (s : State) (i : Nat) (level : Bool) : KeepsLiveness s (evcInput s i level) := by
  have hs := keepsLiveness_setSrc s i { s.src i with input := level }
  refine .ite (.refl s) (.ite hs (.ite ?level (.ite ?edge hs)))
  case level => exact hs.trans ((keepsLiveness_sampleLevel _ i).trans (keepsLiveness_evcSettle _))
  case edge => exact hs.trans ((keepsLiveness_setPend _ i true).trans (keepsLiveness_evcSettle _))

theorem keepsLiveness_evcPulse (s : State) (i : Nat) : KeepsLiveness s (evcPulse s i) :=
  (keepsLiveness_evcInput s i true).trans (keepsLiveness_evcInput _ i false)

/-! ### Accesses of memory -/

/-- What a raiser of events leaves alone. -/
def RaisesQuietly (rz : Raiser) : Prop := ∀ s ev cls slot part det supp, KeepsLiveness s (rz s ev cls slot part det supp)

theorem keepsLiveness_capture (s : State) (g : Nat) (a : Access) (t : AccType) (addr extra : Nat) : KeepsLiveness s (capture s g a t addr extra) := by
  have hinfo : OffLiveness (capInfoReg g) ∧ OffLiveness (capCountReg g) := by
    unfold OffLiveness capInfoReg capCountReg GATE_PS_CAP_INFO GATE_MG_CAP_INFO GATE_FIX_CAP_INFO GATE_PS_COUNT GATE_MG_COUNT GATE_FIX_COUNT
    split_ifs <;> omega
  have hcount := keepsLiveness_inc s hinfo.2
  unfold capture
  extract_lets counted captured
  have hcapt : KeepsLiveness s captured := hcount.trans (keepsLiveness_setReg _ hinfo.1 _)
  refine .ite hcount (.ite ?_ (.ite ?_ ?_))
  · exact hcapt.trans (keepsLiveness_setReg _ (offLiveness_array _ (by decide)) _)
  · exact hcapt.trans (keepsLiveness_setPair _ (offLiveness_array _ (by decide)) (offLiveness_array _ (by decide)) _)
  · exact hcapt.trans (keepsLiveness_setPair _ (offLiveness_array 0 (by decide)) (offLiveness_array 0 (by decide)) _)

theorem keepsLiveness_snoop (a : Access) (addr n : Nat) (s : State) : KeepsLiveness s (snoop a addr n s) := by
  refine keepsLiveness_each (fun s k => ?_) 4 s
  split
  · exact .ite (keepsLiveness_setDesk s k _) (.refl s)
  · exact .refl s

theorem keepsLiveness_storeParts (a : Access) (addr : Nat) (bs : Bytes) (s : State) (ps : List (Nat × Nat)) :
    KeepsLiveness s (storeParts a addr bs s ps) := by
  refine keepsLiveness_foldl (fun s p => ?_) ps s
  exact .ite ((keepsLiveness_snoop a p.1 p.2 s).trans (keepsLiveness_store _ _ _)) (.refl s)

theorem keepsLiveness_voidFill (s : State) (slot p a n : Nat) : KeepsLiveness s (voidFill s slot p a n) :=
  (keepsLiveness_draws s n).trans (keepsLiveness_storeParts _ _ _ _ _)

theorem keepsLiveness_countOvf {lo hi : Nat} (s : State) (hlo : OffLiveness lo) (hhi : OffLiveness hi) (cls : Nat) :
    KeepsLiveness s (countOvf s lo hi cls) := by
  refine keepsLiveness_add s ?_ _ _ _
  split
  · exact hlo
  · exact hhi

section Raising

variable {rz : Raiser} (hz : RaisesQuietly rz)
include hz

theorem keepsLiveness_limited (s : State) (key ev cls slot part det : Nat) : KeepsLiveness s (limited rz s key ev cls slot part det) := by
  unfold limited
  split
  · refine .ite (.of_eq rfl rfl rfl) (.trans ?_ (hz _ _ _ _ _ _ _))
    exact .of_eq rfl rfl rfl
  · refine .trans ?_ (hz _ _ _ _ _ _ _)
    exact .of_eq rfl rfl rfl

theorem keepsLiveness_violate (s : State) (g : Nat) (a : Access) (t : AccType) (addr extra : Nat) :
    KeepsLiveness s (violate rz s g a t addr extra) :=
  ((keepsLiveness_capture s g a t addr extra).trans (keepsLiveness_evcInput _ 47 true)).trans (keepsLiveness_limited hz _ _ _ _ _ _ _)

theorem keepsLiveness_noteParts (a : Access) (t : AccType) (s : State) (ps : List (Nat × Nat)) :
    KeepsLiveness s (noteParts rz a t s ps) := by
  refine keepsLiveness_foldl (fun s p => ?_) ps s
  dsimp only
  split
  · exact keepsLiveness_violate hz s _ a t _ _
  · exact hz s _ _ _ _ _ _
  · exact .refl s

theorem keepsLiveness_queueWrite (s : State) (a : Access) (addr : Nat) (bs : Bytes) (after : After) :
    KeepsLiveness s (queueWrite rz s a addr bs after).1 := by
  unfold queueWrite
  extract_lets h ps wait now res u
  have hu : KeepsLiveness s u := (keepsLiveness_storeParts a addr bs s now).trans (keepsLiveness_noteParts hz a .w _ now)
  exact hu.trans (.of_eq rfl rfl rfl)

theorem keepsLiveness_partWrite (s : State) (count : Bool) (p slot base : Nat) (ws : List (Nat × Bytes)) (cpl : Bool) :
    KeepsLiveness s (partWrite rz s count p slot base ws cpl).1 := by
  unfold partWrite
  extract_lets port put
  have hput : ∀ r w after, KeepsLiveness r.1 (put r w after).1 := fun r w after => keepsLiveness_queueWrite hz r.1 _ _ _ after
  split
  · split
    · exact keepsLiveness_foldl (fun s w => keepsLiveness_emit s _) ws s
    · exact .ite (keepsLiveness_inc s (offLiveness_array _ (by decide))) (.refl s)
  · split
    · exact .refl s
    · exact (keepsLiveness_foldl_fst (fun r w => hput r w _) _ (s, .ok)).trans (hput _ _ _)

theorem keepsLiveness_logPart (s : State) (p : Nat) (r : LogRec) : KeepsLiveness s (logPart rz s p r) := by
  unfold logPart
  extract_lets q n m base bs x left counted
  have hx : KeepsLiveness s x.1 := keepsLiveness_partWrite hz s _ _ _ _ _ _
  have hcounted : KeepsLiveness s counted :=
    keepsLiveness_countOvf s (offLiveness_array _ (by decide)) (offLiveness_array _ (by decide)) r.cls.toNat
  refine .ite (.ite ?_ (.ite hx ?_)) (.ite ?_ hcounted)
  · exact hx.trans ((keepsLiveness_setReg _ (offLiveness_array _ (by decide)) _).trans (keepsLiveness_setPart _ _ _))
  · exact hx.trans (keepsLiveness_setPart _ _ _)
  · exact (hcounted.trans (keepsLiveness_setPart _ _ _)).trans (hz _ _ _ _ _ _ _)

end Raising

theorem keepsLiveness_logGlobal (s : State) (r : LogRec) : KeepsLiveness s (logGlobal s r) := by
  unfold logGlobal
  extract_lets n u
  have hu : KeepsLiveness s u := .of_eq rfl rfl rfl
  refine .ite (.refl s) (.ite ?_ ?_)
  · exact hu.trans ((keepsLiveness_setReg _ (offLiveness_array 0 (by decide)) _).trans (keepsLiveness_evcPulse _ 46))
  · exact keepsLiveness_countOvf s (offLiveness_array 0 (by decide)) (offLiveness_array 0 (by decide)) _

/-! ### The chain's ports -/

theorem keepsLiveness_sendAck (s : State) (p : Nat) : KeepsLiveness s (sendAck s p) :=
  (keepsLiveness_setPort s p _).trans (keepsLiveness_emit _ _)

theorem keepsLiveness_freeFlits (s : State) (p c n : Nat) (tell : Bool) : KeepsLiveness s (freeFlits s p c n tell) := by
  have hs := keepsLiveness_setPort s p { s.port p with recv := (s.port p).recv.set c ((s.port p).recv.getD c 0 + n) }
  exact .ite (.refl s) (.ite (hs.trans (keepsLiveness_sendAck _ p)) hs)

theorem keepsLiveness_sendFlit (s : State) (p : Nat) (code : BitVec 4) (bs : Bytes) (poison : Bool) :
    KeepsLiveness s (sendFlit s p code bs poison) :=
  ((keepsLiveness_setPort s p _).trans (keepsLiveness_inc _ (offLiveness_array _ (by decide)))).trans (keepsLiveness_emit _ _)

theorem keepsLiveness_markSend (s : State) (p : Nat) (way : Way) (m : Msg) (seq : BitVec 32) : KeepsLiveness s (markSend s p way m seq) := by
  unfold markSend
  exact .ite (.refl s) (.of_eq rfl rfl rfl)

theorem keepsLiveness_startCls (s : State) (p c : Nat) : KeepsLiveness s (startCls s p c) := by
  unfold startCls
  extract_lets q
  refine .ite (.refl s) ?_
  split
  · exact .refl s
  · exact .ite ((keepsLiveness_markSend s p _ _ _).trans (keepsLiveness_setPort _ p _)) (.refl s)

theorem keepsLiveness_sendOne (s : State) (p c : Nat) : KeepsLiveness s (sendOne s p c) := by
  unfold sendOne
  extract_lets q
  split
  · exact .trans ((keepsLiveness_setPort s p _).trans (keepsLiveness_sendFlit _ p _ _ _))
      (.ite (keepsLiveness_freeFlits _ _ _ _ _) (.refl _))
  · exact .refl s

theorem keepsLiveness_pump (fuel : Nat) (s : State) (p : Nat) : KeepsLiveness s (pump fuel s p) := by
  induction fuel generalizing s with
  | zero => exact .refl s
  | succ fuel ih =>
    unfold pump
    refine .ite (.refl s) ?_
    extract_lets started
    have hstarted : KeepsLiveness s started := keepsLiveness_foldl (fun s c => keepsLiveness_startCls s p c) _ s
    split
    · exact hstarted.trans ((keepsLiveness_sendOne _ p _).trans (ih _))
    · exact hstarted

theorem keepsLiveness_portSend (s : State) (p : Nat) (way : Way) (m : Msg) : KeepsLiveness s (portSend s p way m) := by
  have hfreed := KeepsLiveness.ite (c := way = .held) (keepsLiveness_freeFlits s (1 - p) m.cls m.flits true) (.refl s)
  exact .ite (hfreed.trans (keepsLiveness_inc _ (offLiveness_array _ (by decide))))
    ((keepsLiveness_setPort s p _).trans (keepsLiveness_pump _ _ p))

theorem keepsLiveness_broadcast (s : State) (kind hdr : Nat) (body : Bytes) : KeepsLiveness s (broadcast s kind hdr body) := by
  have hnew : KeepsLiveness s (newMsg s kind 0 true hdr body).1 := .of_eq rfl rfl rfl
  exact hnew.trans ((keepsLiveness_portSend _ 0 .own _).trans (keepsLiveness_portSend _ 1 .own _))

/-! ### The entry into YIELD -/

theorem keepsLiveness_thermalHalt (s : State) : KeepsLiveness s (thermalHalt s) := by
  have hplls : ∀ p ∈ [1, 2, 3, 8, 9, 10, 11, 12, 13, 14, 15], p < 16 := by decide
  have hhalted : KeepsLiveness s { s with pwr := { s.pwr with halted := true } } := .of_eq rfl rfl rfl
  exact hhalted.trans (keepsLiveness_foldl_mem (fun p hp s => keepsLiveness_setReg s (offLiveness_pll (hplls p hp)).1 0) _)

theorem keepsLiveness_settleBits (s : State) (n l : Nat) : KeepsLiveness s (settleBits s n l) := by
  have hbits : KeepsLiveness s (s.setPair (QD_LANE_BITS_LO n l) (QD_LANE_BITS_HI n l) (laneBits s n l)) :=
    keepsLiveness_setPair s offLiveness_lane offLiveness_lane _
  unfold settleBits
  generalize s.setPair (QD_LANE_BITS_LO n l) (QD_LANE_BITS_HI n l) (laneBits s n l) = u at hbits
  exact hbits.trans (.of_eq rfl rfl rfl)

theorem keepsLiveness_leaveTest (s : State) : KeepsLiveness s (leaveTest s) := by
  unfold leaveTest
  extract_lets cleared
  have hcleared : KeepsLiveness s cleared := by
    refine keepsLiveness_each (fun s n => ?_) 16 s
    refine .trans (keepsLiveness_each (fun s l => keepsLiveness_settleBits s n l) 4 s) ?_
    refine .trans ((keepsLiveness_setBit _ (offLiveness_block (by decide)) 3 false).trans
      (keepsLiveness_setReg _ (offLiveness_block (by decide)) _)) (keepsLiveness_each (fun s l => ?_) 4 _)
    exact .trans ((keepsLiveness_setFld s offLiveness_lane 2 4 0).trans (keepsLiveness_setReg _ offLiveness_lane _))
      ((keepsLiveness_setReg _ offLiveness_lane 0).trans (keepsLiveness_setBit _ offLiveness_lane 0 false))
  clear_value cleared
  exact .ite (.refl s) (hcleared.trans (.of_eq rfl rfl rfl))

theorem keepsLiveness_pinsOff (s : State) (p : Nat) : KeepsLiveness s (pinsOff s p) :=
  have hoff := keepsLiveness_setTch s p { s.tch p with slots := [], scanning := false, driven := false }
  .ite (hoff.trans (keepsLiveness_emit _ _)) hoff

theorem keepsLiveness_allDark (s : State) : KeepsLiveness s (allDark s) := .of_eq rfl rfl rfl

theorem keepsLiveness_norm (s : State) : KeepsLiveness s s.norm := .of_eq rfl rfl rfl

theorem keepsLiveness_dceCount (s : State) (e st consumed produced : Nat) : KeepsLiveness s (dceCount s e st consumed produced) := by
  have hinc : ∀ {off} (s : State), KeepsLiveness s (s.inc ((42 + e) * 0x10000 + off)) := fun s => keepsLiveness_inc s (offLiveness_block (by decide))
  have hpair : ∀ {lo hi} (s : State) v, KeepsLiveness s (s.setPair ((42 + e) * 0x10000 + lo) ((42 + e) * 0x10000 + hi) v) :=
    fun s v => keepsLiveness_setPair s (offLiveness_block (by decide)) (offLiveness_block (by decide)) v
  unfold dceCount
  extract_lets jobs failed full check read
  have hjobs : KeepsLiveness s jobs := hinc s
  have hfailed : KeepsLiveness s failed := hjobs.trans (.ite (.refl _) (hinc _))
  have hfull : KeepsLiveness s full := hfailed.trans (.ite (hinc _) (.refl _))
  have hcheck : KeepsLiveness s check := hfull.trans (.ite (hinc _) (.refl _))
  have hread : KeepsLiveness s read := hcheck.trans (hpair _ _)
  exact hread.trans (hpair _ _)

theorem keepsLiveness_dceStop (s : State) (e : Nat) (j : Job) (src : Option Bytes) : KeepsLiveness s (dceStop s e j src).1 := by
  unfold dceStop
  extract_lets q p open_ drawn voided comp fin
  have hvoided : KeepsLiveness s voided := (keepsLiveness_draws s 4).trans (.ite (keepsLiveness_voidFill _ _ _ _ _) (.refl _))
  have hfin : ∀ consumed produced crc check, KeepsLiveness s (fin consumed produced crc check).1 := fun _ _ _ _ =>
    hvoided.trans (keepsLiveness_dceCount _ _ _ _ _)
  split
  · exact hfin _ _ _ _
  · extract_lets had out out'
    split
    · exact hfin _ _ _ _
    · exact hfin _ _ _ _

theorem keepsLiveness_crcPost (s : State) (u : Nat) (q : Req) (rst value bytes : Nat) : KeepsLiveness s (crcPost s u q rst value bytes) := by
  have hoff : ∀ {off}, OffLiveness ((44 + u) * 0x10000 + off) := offLiveness_block (by decide)
  exact (keepsLiveness_setPair s hoff hoff value).trans (((keepsLiveness_setReg _ hoff _).trans (keepsLiveness_inc _ hoff)).trans
    (keepsLiveness_resultDone _ hoff _))

theorem keepsLiveness_cutJob (s : State) (j : Job) : KeepsLiveness s (cutJob s j) := by
  unfold cutJob
  extract_lets put
  have hput : ∀ x, KeepsLiveness x.1 (put x) := fun x => .of_eq rfl rfl rfl
  split
  · exact (keepsLiveness_dceStop s _ j _).trans (hput _)
  · extract_lets posted
    have hposted : KeepsLiveness s posted := (keepsLiveness_draws s 1).trans (keepsLiveness_crcPost _ _ _ _ _ _)
    exact hposted.trans (hput (_, _))
  · exact .refl s

theorem keepsLiveness_yieldFlush (s : State) : KeepsLiveness s (yieldFlush s) := .of_eq rfl rfl rfl

theorem keepsLiveness_yieldJobs (cut : Bool) (s : State) : KeepsLiveness s (yieldJobs cut s) := by
  unfold yieldJobs
  extract_lets u on aborts stays chain rdn v
  have hu : KeepsLiveness s u := .ite (keepsLiveness_foldl keepsLiveness_cutJob _ s) (.refl s)
  clear_value u
  have hv : KeepsLiveness u v := .of_eq rfl rfl rfl
  clear_value v
  refine (hu.trans hv).trans (.trans ?_ (keepsLiveness_yieldFlush _))
  exact .of_eq rfl rfl rfl

theorem keepsLiveness_enterYield (s : State) (ev cls part det : Nat) : KeepsLiveness s (enterYield s ev cls part det) := by
  have hycap : OffLiveness ERR_YCAP_INFO ∧ OffLiveness ERR_YCAP_TIME_LO ∧ OffLiveness ERR_YCAP_TIME_HI ∧ OffLiveness ERR_YCAP_DET_LO
      ∧ OffLiveness ERR_YCAP_DET_HI ∧ OffLiveness TB_STATUS ∧ OffLiveness CHN_LOGICAL := by
    unfold OffLiveness
    decide
  obtain ⟨hinfo, htlo, hthi, hdlo, hdhi, htb, hchn⟩ := hycap
  unfold enterYield
  extract_lets noted captured left ctl yielding stopped held cleared
  have hnoted : KeepsLiveness s noted := keepsLiveness_setReg s hinfo _
  have hcaptured : KeepsLiveness s captured :=
    hnoted.trans ((keepsLiveness_setPair _ htlo hthi _).trans (keepsLiveness_setPair _ hdlo hdhi _))
  have hleft : KeepsLiveness s left := hcaptured.trans (.ite (keepsLiveness_setBit _ htb 0 false) (keepsLiveness_leaveTest _))
  have hyielding : KeepsLiveness s yielding := hleft.trans (.of_eq rfl rfl rfl)
  have hstopped : KeepsLiveness s stopped := by
    refine hyielding.trans (.trans ?_ (keepsLiveness_each keepsLiveness_pinsOff 2 _))
    refine .trans (.trans (.trans ?_ (keepsLiveness_allDark _)) (keepsLiveness_yieldJobs _ _)) (keepsLiveness_norm _)
    exact .ite (keepsLiveness_thermalHalt _) (.refl _)
  have hcleared : KeepsLiveness s cleared := hstopped.trans (keepsLiveness_setBit _ hchn 3 false)
  exact hcleared.trans (keepsLiveness_broadcast _ _ _ _)

/-! ### Events -/

theorem raisesQuietly_recordEv {rz : Raiser} (hz : RaisesQuietly rz) : RaisesQuietly (recordEv rz) := by
  intro s ev cls slot part det supp
  unfold recordEv
  extract_lets y r logged noted
  have hlogged : KeepsLiveness s logged := keepsLiveness_logGlobal s r
  have hnoted : KeepsLiveness s noted := hlogged.trans (.ite (keepsLiveness_logPart hz _ _ _) (.refl _))
  refine .ite (.refl s) (.ite hnoted (.ite ?_ ?_))
  · exact hnoted.trans (.of_eq rfl rfl rfl)
  · exact hnoted.trans (keepsLiveness_enterYield _ _ _ _ _)

theorem raisesQuietly_raiseN (n : Nat) : RaisesQuietly (raiseN n) := by
  induction n with
  | zero => exact fun s _ _ _ _ _ _ => .refl s
  | succ n ih => exact raisesQuietly_recordEv ih

/-- An event, whatever it brings, leaves the waiting commits and the registers of LDG and VRD. -/
theorem keepsLiveness_raise (s : State) (ev cls slot part : Nat) (det : List (Nat × Nat)) :
    KeepsLiveness s (raise s ev cls slot part det) := raisesQuietly_raiseN 3 s ev cls slot part (packDet det) 0

end Sys2Proof.Machine

/-!
PROOFS of the liveness family: profile commits (R54-R56, Table 2.9) — the record of a commit, the active words, what enabled heads keep
until their boundary, the decision.
-/

namespace Sys2Proof.Machine

/-! ### A result record (R291) -/

/-- A decided record is valid and shows the result bits given. -/
theorem State.resultDone_shows (s : State) (a bits : Nat) :
    (s.resultDone a bits).bit a 0 = true ∧ (s.resultDone a bits).fld a 1 3 = bits % 8 := by
  have hword : ((s.resultDone a bits).reg a).toNat = 1 + bits % 2 ^ 15 * 2 + (s.fld a 16 16 + 1) % 2 ^ 16 * 2 ^ 16 := by
    unfold State.resultDone
    rw [State.reg_setReg_same, BitVec.toNat_ofNat, Nat.mod_eq_of_lt (by omega)]
  unfold State.bit State.fld bitOf bitsOf
  rw [hword, beq_iff_eq]
  omega

/-- A record that is opened again is no longer valid, and shows the same result bits. -/
theorem State.resultOpen_shows (s : State) (a : Nat) :
    (s.resultOpen a).bit a 0 = false ∧ (s.resultOpen a).fld a 1 3 = s.fld a 1 3 :=
  ⟨State.bit_setBit_same s a false (by decide), State.fld_setFld_beside s a _ (by decide) (by decide)⟩

/-- The state in which the oldest commit is decided: its record posted, and open again where another one waits. -/
def commitPosted (s : State) (bits : Nat) (last : Bool) : State :=
  if last then s.resultDone VRD_COMMIT_STATUS bits else (s.resultDone VRD_COMMIT_STATUS bits).resultOpen VRD_COMMIT_STATUS

theorem commitPosted_shows (s : State) (bits : Nat) (last : Bool) :
    (commitPosted s bits last).bit VRD_COMMIT_STATUS 0 = last ∧ (commitPosted s bits last).fld VRD_COMMIT_STATUS 1 3 = bits % 8 := by
  obtain ⟨hdone, hbits⟩ := State.resultDone_shows s VRD_COMMIT_STATUS bits
  obtain ⟨hopen, hkept⟩ := State.resultOpen_shows (s.resultDone VRD_COMMIT_STATUS bits) VRD_COMMIT_STATUS
  cases last
  · exact ⟨hopen, hkept.trans hbits⟩
  · exact ⟨hdone, hbits⟩

/-- Posting a record changes no other register, no commit and no head. -/
theorem commitPosted_keeps (s : State) (bits : Nat) (last : Bool) : SameRegsBut [VRD_COMMIT_STATUS] s (commitPosted s bits last)
    ∧ (commitPosted s bits last).commits = s.commits ∧ (commitPosted s bits last).snaps = s.snaps
    ∧ (commitPosted s bits last).heads = s.heads := by
  have hdone : SameRegsBut [VRD_COMMIT_STATUS] s (s.resultDone VRD_COMMIT_STATUS bits) := fun a ha =>
    State.reg_setReg_ne s _ (by simpa using ha)
  cases last
  · exact ⟨fun a ha => (State.setFld_sameRegsBut _ _ _ _ _ a ha).trans (hdone a ha),
      (State.resultOpen_commits _ _).trans (State.resultDone_commits _ _ _),
      (State.resultOpen_snaps _ _).trans (State.resultDone_snaps _ _ _), (State.resultOpen_heads _ _).trans (State.resultDone_heads _ _ _)⟩
  · exact ⟨hdone, State.resultDone_commits _ _ _, State.resultDone_snaps _ _ _, State.resultDone_heads _ _ _⟩

/-! ### The active words of a profile -/

/-- Sets the first `n` words of a register array. -/
def State.setWords (s : State) (base : Nat) (ws : List Word) (n : Nat) : State :=
  (List.range n).foldl (fun s i => s.setReg (base + 4 * i) (ws.getD i 0)) s

theorem State.setWords_succ (s : State) (base : Nat) (ws : List Word) (n : Nat) :
    s.setWords base ws (n + 1) = (s.setWords base ws n).setReg (base + 4 * n) (ws.getD n 0) := by
  simp only [State.setWords, List.range_succ, List.foldl_append, List.foldl_cons, List.foldl_nil]

theorem State.setWords_keeps (s : State) (base : Nat) (ws : List Word) (n : Nat) : (s.setWords base ws n).commits = s.commits
    ∧ (s.setWords base ws n).snaps = s.snaps ∧ (s.setWords base ws n).heads = s.heads := by
  induction n with
  | zero => exact ⟨rfl, rfl, rfl⟩
  | succ n ih =>
    rw [State.setWords_succ]
    exact ih

theorem State.reg_setWords (s : State) (base : Nat) (ws : List Word) {n i : Nat} (h : i < n) :
    (s.setWords base ws n).reg (base + 4 * i) = ws.getD i 0 := by
  induction n with
  | zero => omega
  | succ n ih =>
    rw [State.setWords_succ]
    by_cases hi : i = n
    · subst hi
      exact State.reg_setReg_same _ _ _
    · rw [State.reg_setReg_ne _ _ (by omega)]
      exact ih (by omega)

theorem State.setWords_sameRegsBut (s : State) (base : Nat) (ws : List Word) (n : Nat) :
    SameRegsBut ((List.range n).map fun i => base + 4 * i) s (s.setWords base ws n) := by
  intro a ha
  induction n with
  | zero => rfl
  | succ n ih =>
    simp only [List.range_succ, List.map_append, List.map_cons, List.map_nil, List.mem_append, List.mem_singleton, not_or] at ha
    rw [State.setWords_succ, State.reg_setReg_ne _ _ ha.2]
    exact ih ha.1

/-! ### What enabled heads keep (R55, R56) -/

/-- A part of the state that no step of a fold changes. -/
theorem each_keeps {β : Type} {f : State → Nat → State} (π : State → β) (h : ∀ s k, π (f s k) = π s) (n : Nat) (s : State) :
    π (s.each n f) = π s := by
  unfold State.each
  induction List.range n generalizing s with
  | nil => rfl
  | cons k ks ih => exact (ih (f s k)).trans (h s k)

/-- Heads after a fold in which step `k` changes head `k` alone. -/
theorem head_each {f : State → Nat → State} {g : Head → Head} (h : ∀ s k j, (f s k).head j = if j = k then g (s.head k) else s.head j)
    (n : Nat) (s : State) (j : Nat) : (s.each n f).head j = if j < n then g (s.head j) else s.head j := by
  induction n with
  | zero => rfl
  | succ n ih =>
    have hstep : s.each (n + 1) f = f (s.each n f) n := by
      simp only [State.each, List.range_succ, List.foldl_append, List.foldl_cons, List.foldl_nil]
    rw [hstep, h, ih]
    by_cases hj : j = n
    · subst hj
      simp [ih]
    · have hlt : j < n + 1 ↔ j < n := by omega
      simp [hj, hlt]

/-- The words of a profile in force. -/
def activeProf (s : State) (prof : Nat) : List Word := (List.range 5).map fun i => s.reg (VRD_ACT_LIVE prof + 4 * i)

/-- A head that keeps the words `old` of a profile until its boundary, where it is enabled and keeps none yet. -/
def Head.keepWords (h : Head) (prof : Nat) (old : List Word) : Head :=
  if h.enabled && (tget (fun _ => []) h.oldProf prof).isEmpty then { h with oldProf := tset (fun _ => []) h.oldProf prof old } else h

theorem head_keepProf (s : State) (prof : Nat) {n : Nat} (hn : n < 16) :
    (keepProf s prof).head n = (s.head n).keepWords prof (activeProf s prof) := by
  have h := head_each (f := fun t n => if (t.head n).enabled && (tget (fun _ => []) (t.head n).oldProf prof).isEmpty then
      t.setHead n { t.head n with oldProf := tset (fun _ => []) (t.head n).oldProf prof (activeProf s prof) } else t)
    (g := (·.keepWords prof (activeProf s prof))) ?_ 16 s n
  · exact h.trans (if_pos hn)
  · intro t k j
    unfold Head.keepWords
    by_cases hj : j = k
    · subst hj
      rw [if_pos rfl]
      split
      · exact State.head_setHead _ _ _
      · rfl
    · rw [if_neg hj]
      split
      · exact State.head_setHead_ne _ _ hj
      · rfl

theorem keepProf_keeps (s : State) (prof : Nat) : (keepProf s prof).regs = s.regs ∧ (keepProf s prof).commits = s.commits
    ∧ (keepProf s prof).snaps = s.snaps := by
  have hkeep : ∀ {β : Type} (π : State → β), (∀ t k v, π (State.setHead t k v) = π t) → π (keepProf s prof) = π s := fun π h => by
    refine each_keeps π (fun t k => ?_) 16 s
    dsimp only
    split
    · exact h _ _ _
    · rfl
  exact ⟨hkeep _ State.setHead_regs, hkeep _ State.setHead_commits, hkeep _ State.setHead_snaps⟩

/-- Words of a profile that a head keeps are those it applies. -/
theorem profWord_of_kept {s : State} {n prof : Nat} {ws : List Word} (i : Nat) (h : tget (fun _ => []) (s.head n).oldProf prof = ws)
    (hne : ws ≠ []) : profWord s n prof i = ws.getD i 0 := by
  unfold profWord
  rw [h]
  cases ws with
  | nil => exact absurd rfl hne
  | cons w ws => rfl

/-- A valid commit's state before its record: enabled heads keep the earlier words, and the staged ones are in force. -/
def profTaken (s : State) (prof : Nat) (ws : List Word) : State := (keepProf s prof).setWords (VRD_ACT_LIVE prof) ws 5

theorem profTaken_keeps (s : State) (prof : Nat) (ws : List Word) : (profTaken s prof ws).commits = s.commits
    ∧ (profTaken s prof ws).snaps = s.snaps ∧ (profTaken s prof ws).heads = (keepProf s prof).heads
    ∧ SameRegsBut ((List.range 5).map fun i => VRD_ACT_LIVE prof + 4 * i) s (profTaken s prof ws) := by
  obtain ⟨hregs, hcommits, hsnaps⟩ := keepProf_keeps s prof
  obtain ⟨hcommits', hsnaps', hheads⟩ := State.setWords_keeps (keepProf s prof) (VRD_ACT_LIVE prof) ws 5
  refine ⟨hcommits'.trans hcommits, hsnaps'.trans hsnaps, hheads, fun a ha => ?_⟩
  exact (State.setWords_sameRegsBut _ _ ws 5 a ha).trans (congrArg (tget regReset · a) hregs)

/-- An enabled head that kept no words of the profile applies the earlier ones. -/
theorem profWord_keepProf {s t : State} {n i prof : Nat} (ht : t.heads = (keepProf s prof).heads) (hn : n < 16)
    (hi : i < 5) (he : (s.head n).enabled = true) (ho : tget (fun _ => []) (s.head n).oldProf prof = []) :
    profWord t n prof i = s.reg (VRD_ACT_LIVE prof + 4 * i) := by
  have hhead : t.head n = (s.head n).keepWords prof (activeProf s prof) := by
    rw [← head_keepProf s prof hn, State.head, ht, State.head]
  have hold : tget (fun _ => []) (t.head n).oldProf prof = activeProf s prof := by
    rw [hhead, Head.keepWords, if_pos (by simp [he, ho])]
    dsimp only
    exact tget_tset_same _ _ prof (activeProf s prof)
  rw [profWord_of_kept i hold (by simp [activeProf])]
  unfold activeProf
  simp [hi]

/-! ### The decision (Table 2.9) -/

/-- Sets the waiting commits with their staged words. -/
def State.setCommits (s : State) (cs : List Nat) (wss : List (List Word)) : State := { s with commits := cs, snaps := wss }

theorem State.setCommits_keeps (s : State) (cs : List Nat) (wss : List (List Word)) : (s.setCommits cs wss).commits = cs
    ∧ (s.setCommits cs wss).snaps = wss ∧ (∀ a, (s.setCommits cs wss).reg a = s.reg a) ∧ ∀ n, (s.setCommits cs wss).head n = s.head n :=
  ⟨rfl, rfl, fun _ => rfl, fun _ => rfl⟩

/-- The oldest commit is taken, its result told by its own words, and posted. -/
theorem exec_commitDecided {s : State} {c : Nat} {cs : List Nat} {ws : List Word} {wss : List (List Word)} (hc : s.commits = c :: cs)
    (hs : s.snaps = ws :: wss) : exec .commitDecided s = .next (commitPosted
      (if commitResult ws (c / 64 == 1) = 0 then profTaken (s.setCommits cs wss) (c % 64) ws
        else raise (s.setCommits cs wss) evTtRefused 0 13 (c % 64 / 4) [])
      (commitResult ws (c / 64 == 1) + c % 64 * 8) cs.isEmpty) := by
  change Host.Outcome.next (doCommitDecided s) = _
  unfold doCommitDecided
  rw [hc, hs]
  rfl

/-- A valid commit: its words are in force, and enabled heads apply the earlier ones until their boundary. -/
theorem commitDecided_valid {s : State} {c : Nat} {cs : List Nat} {ws : List Word} {wss : List (List Word)} (hc : s.commits = c :: cs)
    (hs : s.snaps = ws :: wss) (hres : commitResult ws (c / 64 == 1) = 0) :
    ∃ t, exec .commitDecided s = .next t ∧ t.commits = cs ∧ t.snaps = wss ∧ (∀ i, i < 5 → t.reg (VRD_ACT_LIVE (c % 64) + 4 * i) = ws.getD i 0)
      ∧ SameRegsBut (VRD_COMMIT_STATUS :: (List.range 5).map fun i => VRD_ACT_LIVE (c % 64) + 4 * i) s t
      ∧ (∀ n i, n < 16 → i < 5 → (s.head n).enabled = true → tget (fun _ => []) (s.head n).oldProf (c % 64) = [] →
        profWord t n (c % 64) i = s.reg (VRD_ACT_LIVE (c % 64) + 4 * i))
      ∧ t.bit VRD_COMMIT_STATUS 0 = cs.isEmpty ∧ t.fld VRD_COMMIT_STATUS 1 3 = 0 := by
  have hexec := exec_commitDecided hc hs
  rw [hres, if_pos rfl] at hexec
  obtain ⟨hcs, hwss, hreg, hhead⟩ := State.setCommits_keeps s cs wss
  generalize s.setCommits cs wss = u at hexec hcs hwss hreg hhead
  obtain ⟨hcommits, hsnaps, hheads, hregs⟩ := profTaken_keeps u (c % 64) ws
  obtain ⟨hvalid, hbits⟩ := commitPosted_shows (profTaken u (c % 64) ws) (0 + c % 64 * 8) cs.isEmpty
  obtain ⟨hregs', hcommits', hsnaps', hheads'⟩ := commitPosted_keeps (profTaken u (c % 64) ws) (0 + c % 64 * 8) cs.isEmpty
  refine ⟨_, hexec, ?_, ?_, fun i hi => ?_, fun a ha => ?_, fun n i hn hi he ho => ?_, hvalid, ?_⟩
  · exact hcommits'.trans (hcommits.trans hcs)
  · exact hsnaps'.trans (hsnaps.trans hwss)
  · rw [hregs' _ (by simp [VRD_ACT_LIVE, VRD_COMMIT_STATUS]; omega)]
    exact State.reg_setWords _ _ ws hi
  · obtain ⟨hstatus, hwords⟩ := not_or.mp (List.mem_cons.not.mp ha)
    rw [hregs' a (by simpa using hstatus), hregs a hwords, hreg]
  · rw [profWord_keepProf (hheads'.trans hheads) hn hi ((hhead n).symm ▸ he) ((hhead n).symm ▸ ho), hreg]
  · omega

/-- A refused commit: recorded, and its result posted; no active word of a profile changes. -/
theorem commitDecided_refused {s : State} {c : Nat} {cs : List Nat} {ws : List Word} {wss : List (List Word)} (hc : s.commits = c :: cs)
    (hs : s.snaps = ws :: wss) (hres : commitResult ws (c / 64 == 1) ≠ 0) :
    let res := commitResult ws (c / 64 == 1)
    let u := raise (s.setCommits cs wss) evTtRefused 0 13 (c % 64 / 4) []
    let t := commitPosted u (res + c % 64 * 8) cs.isEmpty
    exec .commitDecided s = .next t ∧ t.commits = cs ∧ t.snaps = wss
      ∧ (∀ p i, p < 64 → i < 5 → t.reg (VRD_ACT_LIVE p + 4 * i) = s.reg (VRD_ACT_LIVE p + 4 * i))
      ∧ t.bit VRD_COMMIT_STATUS 0 = cs.isEmpty ∧ t.fld VRD_COMMIT_STATUS 1 3 = res % 8 := by
  intro res u t
  have hexec := exec_commitDecided hc hs
  have hkept := keepsLiveness_raise (s.setCommits cs wss) evTtRefused 0 13 (c % 64 / 4) []
  obtain ⟨hvalid, hbits⟩ := commitPosted_shows u (res + c % 64 * 8) cs.isEmpty
  obtain ⟨hregs, hcommits, hsnaps, -⟩ := commitPosted_keeps u (res + c % 64 * 8) cs.isEmpty
  refine ⟨hexec.trans ?_, hcommits.trans hkept.commits, hsnaps.trans hkept.snaps, fun p i hp hi => ?_, hvalid, hbits.trans ?_⟩
  · rw [if_neg hres]
  · rw [hregs _ (by simp [VRD_ACT_LIVE, VRD_COMMIT_STATUS]; omega)]
    exact hkept.regs _ (by unfold VRD_ACT_LIVE; omega) (by unfold VRD_ACT_LIVE; omega)
  · omega

/-! ### The request (R54) -/

/-- A commit of a partition that holds the profile takes the staged words of this instant. -/
theorem exec_vrdCommit {a : Access} {v : Word} {s : State} (h : Reaches s a .w VRD_COMMIT) :
    exec (.vrdCommit a v) s = .next (vrdCommitWrite a v s) := congrArg Host.Outcome.next (regAccess_go h)

theorem vrdCommitWrite_refused {a : Access} {v : Word} (s : State) (h : profAllowed a (bitsOf v.toNat 0 6) = false) :
    vrdCommitWrite a v s = refuseWrite s 13 a VRD_COMMIT := by
  simp [vrdCommitWrite, h]

theorem vrdCommitWrite_idle {a : Access} {v : Word} (s : State) (h : profAllowed a (bitsOf v.toNat 0 6) = true)
    (hv : bitOf v.toNat 31 = false) : vrdCommitWrite a v s = s := by
  simp [vrdCommitWrite, h, hv]

theorem vrdCommitWrite_go {a : Access} {v : Word} (s : State) (h : profAllowed a (bitsOf v.toNat 0 6) = true)
    (hv : bitOf v.toNat 31 = true) : vrdCommitWrite a v s = commitRequest s v := by
  simp [vrdCommitWrite, h, hv]

/-- A request that is to be refused for its reserved bits is marked above the profile's number. -/
theorem commitRequest_eq (s : State) (v : Word) : commitRequest s v = ({ s with
    commits := s.commits ++ [bitsOf v.toNat 0 6 + if bitsOf v.toNat 6 25 = 0 then 0 else 64]
    snaps := s.snaps ++ [stagedProf s (bitsOf v.toNat 0 6)] } : State).resultOpen VRD_COMMIT_STATUS := by
  unfold commitRequest
  by_cases h : bitsOf v.toNat 6 25 = 0 <;> simp [h, Bool.nat]

end Sys2Proof.Machine

/-!
PROOFS of the liveness family: the evaluation of a band (R43-R47) — what a completed one shows, what stands for the band before and after
its first line, the band that is late, the watchdog.
-/

namespace Sys2Proof.Machine

/-! ### Changes of registers alone -/

/-- Nothing but the registers listed differs in what VRD shows and reads: registers, heads, memory and ledger. -/
structure RegsOnly (l : List Nat) (s t : State) : Prop where
  regs   : SameRegsBut l s t
  heads  : t.heads = s.heads
  mem    : t.mem = s.mem
  ledger : t.ledger = s.ledger

theorem RegsOnly.refl (l : List Nat) (s : State) : RegsOnly l s s := ⟨fun _ _ => rfl, rfl, rfl, rfl⟩

theorem RegsOnly.trans {l : List Nat} {s t u : State} (h : RegsOnly l s t) (k : RegsOnly l t u) : RegsOnly l s u :=
  ⟨fun a ha => (k.regs a ha).trans (h.regs a ha), k.heads.trans h.heads, k.mem.trans h.mem, k.ledger.trans h.ledger⟩

theorem regsOnly_setReg {l : List Nat} {a : Nat} (s : State) (v : Word) (ha : a ∈ l) : RegsOnly l s (s.setReg a v) :=
  ⟨fun _ hb => State.reg_setReg_ne s v fun e => hb (e ▸ ha), rfl, rfl, rfl⟩

theorem regsOnly_add {l : List Nat} {a : Nat} (s : State) (lo w k : Nat) (ha : a ∈ l) : RegsOnly l s (s.add a lo w k) :=
  regsOnly_setReg s _ ha

theorem State.head_congr {s t : State} (h : t.heads = s.heads) (k : Nat) : t.head k = s.head k := congrArg (tget _ · k) h

/-! ### What a completed evaluation shows -/

/-- The corrected reads of an evaluation that reads the ledger are counted (R47). -/
def readsCounted (s : State) (reads : List Nat) (fixed : Nat) : State := if reads.isEmpty then s else ledgerFixed s fixed

theorem readsCounted_regsOnly {l : List Nat} (s : State) (reads : List Nat) (fixed : Nat) (h : LDG_ECC ∈ l) :
    RegsOnly l s (readsCounted s reads fixed) := by
  unfold readsCounted
  split
  · exact .refl l s
  · exact regsOnly_add s 0 16 fixed h

/-- What the completion of a band's evaluation shows before the ledger's bad reads are counted (R36, R47, Table 2.17). -/
def bandShown (s : State) (n b : Nat) (frame : BitVec 64) (margin future : Nat) (reads : List Nat) (fixed : Nat) : State :=
  readsCounted (((s.setReg VRD_MARGIN (BitVec.ofNat 32 margin)).setReg (VRD_HEAD_BAND n)
    (BitVec.ofNat 32 (b + frame.toNat % 2 ^ 24 * 2 ^ 8))).add VRD_FUTURE 0 32 future) reads fixed

theorem bandDone_eq (s : State) (n b : Nat) (frame : BitVec 64) (margin future : Nat) (reads bad : List Nat) (fixed : Nat) :
    bandDone s n b frame margin future reads bad fixed =
      (reads.filter bad.contains).foldl ledgerBad (bandShown s n b frame margin future reads fixed) := rfl

theorem bandShown_regsOnly (s : State) (n b : Nat) (frame : BitVec 64) (margin future : Nat) (reads : List Nat) (fixed : Nat) :
    RegsOnly [VRD_MARGIN, VRD_HEAD_BAND n, VRD_FUTURE, LDG_ECC] s (bandShown s n b frame margin future reads fixed) := by
  unfold bandShown
  have hmargin : RegsOnly [VRD_MARGIN, VRD_HEAD_BAND n, VRD_FUTURE, LDG_ECC] s (s.setReg VRD_MARGIN (BitVec.ofNat 32 margin)) :=
    regsOnly_setReg s _ (by simp)
  have hband := hmargin.trans (regsOnly_setReg (a := VRD_HEAD_BAND n) _ (BitVec.ofNat 32 (b + frame.toNat % 2 ^ 24 * 2 ^ 8)) (by simp))
  exact (hband.trans (regsOnly_add _ 0 32 future (by simp))).trans (readsCounted_regsOnly _ reads fixed (by simp))

/-- The margin, the band with its frame, and the count of tiles in the future. -/
theorem bandShown_shows (s : State) (n b : Nat) (frame : BitVec 64) (margin future : Nat) (reads : List Nat) (fixed : Nat) :
    let u := bandShown s n b frame margin future reads fixed
    u.reg VRD_MARGIN = BitVec.ofNat 32 margin ∧ u.reg (VRD_HEAD_BAND n) = BitVec.ofNat 32 (b + frame.toNat % 2 ^ 24 * 2 ^ 8)
      ∧ (u.reg VRD_FUTURE).toNat = Nat.min (2 ^ 32 - 1) ((s.reg VRD_FUTURE).toNat + future) := by
  have hband : VRD_HEAD_BAND n ≠ VRD_MARGIN ∧ VRD_HEAD_BAND n ≠ VRD_FUTURE ∧ VRD_HEAD_BAND n ≠ LDG_ECC := by
    unfold VRD_HEAD_BAND VRD_MARGIN VRD_FUTURE LDG_ECC
    omega
  obtain ⟨hm, hf, he⟩ := hband
  unfold bandShown
  dsimp only
  generalize hs1 : s.setReg VRD_MARGIN (BitVec.ofNat 32 margin) = s1
  generalize hs2 : s1.setReg (VRD_HEAD_BAND n) (BitVec.ofNat 32 (b + frame.toNat % 2 ^ 24 * 2 ^ 8)) = s2
  have hecc := (readsCounted_regsOnly (l := [LDG_ECC]) (s2.add VRD_FUTURE 0 32 future) reads fixed (by simp)).regs
  have hfuture := State.setFld_sameRegsBut s2 VRD_FUTURE 0 32 (capAt (2 ^ 32 - 1) (s2.fld VRD_FUTURE 0 32 + future))
  refine ⟨?_, ?_, ?_⟩
  · rw [hecc _ (by decide), State.add, hfuture _ (by decide), ← hs2, State.reg_setReg_ne _ _ hm.symm, ← hs1, State.reg_setReg_same]
  · rw [hecc _ (by simpa using he), State.add, hfuture _ (by simpa using hf), ← hs2, State.reg_setReg_same]
  · rw [hecc _ (by decide), State.toNat_reg_add_same, ← hs2, State.reg_setReg_ne _ _ hf.symm, ← hs1, State.reg_setReg_ne _ _ (by decide)]

/-! ### The evaluation of the frame being shown -/

theorem evals_putEvals (s : State) (n b : Nat) (es : List Eval) (done : Bool) : ((putEvals s n b es done).head n).evals =
    ((s.head n).evals.filter fun x => x.band != b) ++ [⟨b, (s.head n).frame, es, done⟩] := by
  unfold putEvals
  rw [State.head_setHead]

theorem putEvals_keeps (s : State) (n b : Nat) (es : List Eval) (done : Bool) :
    (∀ a, (putEvals s n b es done).reg a = s.reg a) ∧ (putEvals s n b es done).mem = s.mem ∧ (putEvals s n b es done).ledger = s.ledger :=
  ⟨fun _ => rfl, rfl, rfl⟩

/-- A late band is STALE, and counted in VRD_LATE. -/
theorem lateBand_keeps (s : State) (n b : Nat) : (lateBand s n b).reg VRD_LATE = (s.inc VRD_LATE).reg VRD_LATE
    ∧ SameRegsBut [VRD_LATE] s (lateBand s n b) ∧ (lateBand s n b).mem = s.mem ∧ (lateBand s n b).ledger = s.ledger
    ∧ (lateBand s n b).heads = (putEvals s n b (staleBand s n b) false).heads := by
  obtain ⟨hreg, hmem, hledger⟩ := putEvals_keeps s n b (staleBand s n b) false
  unfold lateBand
  generalize putEvals s n b (staleBand s n b) false = u at hreg hmem hledger
  obtain ⟨hregs, hheads, hmem', hledger'⟩ := regsOnly_setReg (l := [VRD_LATE]) (a := VRD_LATE) u
    (putBits (u.reg VRD_LATE) 0 32 (capAt (2 ^ 32 - 1) (u.fld VRD_LATE 0 32 + 1))) (by simp)
  refine ⟨?_, fun a ha => (hregs a ha).trans (hreg a), hmem'.trans hmem, hledger'.trans hledger, hheads⟩
  rw [State.reg_inc_same, State.reg_inc_same, hreg]

/-- The state in which the band's evaluation of this frame is complete. -/
def evalsClosed (s : State) (n b : Nat) : State :=
  s.setHead n { s.head n with evals := (s.head n).evals.map fun x => if x.band = b then { x with done := true } else x }

theorem closeBand_early {s : State} {n b : Nat} (es : List Eval) (h : bandPast s n b < 0) : closeBand s n b es = putEvals s n b es :=
  if_pos h

theorem closeBand_past {s : State} {n b : Nat} (es : List Eval) (h : 0 ≤ bandPast s n b) :
    closeBand s n b es = evalsClosed (if bandLate s n b then s else lateBand s n b) n b := if_neg (not_lt.mpr h)

theorem evals_evalsClosed (s : State) (n b : Nat) :
    ((evalsClosed s n b).head n).evals = (s.head n).evals.map fun x => if x.band = b then { x with done := true } else x := by
  unfold evalsClosed
  rw [State.head_setHead]

theorem evalsClosed_keeps (s : State) (n b : Nat) :
    (∀ a, (evalsClosed s n b).reg a = s.reg a) ∧ (evalsClosed s n b).mem = s.mem ∧ (evalsClosed s n b).ledger = s.ledger :=
  ⟨fun _ => rfl, rfl, rfl⟩

/-- What stands for the band changes no register but the count of late bands, no memory and no entry. -/
theorem closeBand_keeps (s : State) (n b : Nat) (es : List Eval) : SameRegsBut [VRD_LATE] s (closeBand s n b es)
    ∧ (closeBand s n b es).mem = s.mem ∧ (closeBand s n b es).ledger = s.ledger := by
  rcases lt_or_ge (bandPast s n b) 0 with hearly | hpast
  · rw [closeBand_early es hearly]
    obtain ⟨hreg, hmem, hledger⟩ := putEvals_keeps s n b es true
    exact ⟨fun a _ => hreg a, hmem, hledger⟩
  · rw [closeBand_past es hpast]
    split
    · obtain ⟨hreg, hmem, hledger⟩ := evalsClosed_keeps s n b
      exact ⟨fun a _ => hreg a, hmem, hledger⟩
    · obtain ⟨hreg, hmem, hledger⟩ := evalsClosed_keeps (lateBand s n b) n b
      obtain ⟨-, hregs, hmem', hledger', -⟩ := lateBand_keeps s n b
      exact ⟨fun a ha => (hreg a).trans (hregs a ha), hmem.trans hmem', hledger.trans hledger'⟩

/-- Marking a band complete where its only evaluation was just added marks that one. -/
theorem map_done_filter (l : List BandEval) (b : Nat) (x : BandEval) (hx : x.band = b) :
    ((l.filter fun y => y.band != b) ++ [x]).map (fun y => if y.band = b then { y with done := true } else y)
      = (l.filter fun y => y.band != b) ++ [{ x with done := true }] := by
  rw [List.map_append, List.map_singleton, if_pos hx]
  congr 1
  refine (List.map_congr_left fun y hy => ?_).trans (List.map_id _)
  have hne : y.band ≠ b := by simpa using (List.mem_filter.mp hy).2
  exact if_neg hne

theorem closeBand_before (s : State) (n b : Nat) (es : List Eval) (h : bandPast s n b < 0) :
    ((closeBand s n b es).head n).evals = ((s.head n).evals.filter fun x => x.band != b) ++ [⟨b, (s.head n).frame, es, true⟩]
      ∧ (closeBand s n b es).reg VRD_LATE = s.reg VRD_LATE := by
  rw [closeBand_early es h]
  exact ⟨evals_putEvals s n b es true, (putEvals_keeps s n b es true).1 _⟩

theorem closeBand_after (s : State) (n b : Nat) (es : List Eval) (h : 0 ≤ bandPast s n b) (hl : bandLate s n b = false) :
    ((closeBand s n b es).head n).evals =
        ((s.head n).evals.filter fun x => x.band != b) ++ [⟨b, (s.head n).frame, staleBand s n b, true⟩]
      ∧ (closeBand s n b es).reg VRD_LATE = (s.inc VRD_LATE).reg VRD_LATE := by
  obtain ⟨hcount, -, -, -, hheads⟩ := lateBand_keeps s n b
  rw [closeBand_past es h, hl, if_neg Bool.false_ne_true, evals_evalsClosed, State.head_congr hheads n, evals_putEvals,
    map_done_filter _ b _ rfl]
  exact ⟨rfl, ((evalsClosed_keeps (lateBand s n b) n b).1 _).trans hcount⟩

theorem closeBand_late (s : State) (n b : Nat) (es : List Eval) (h : 0 ≤ bandPast s n b) (hl : bandLate s n b = true) :
    ((closeBand s n b es).head n).evals = (s.head n).evals.map (fun x => if x.band = b then { x with done := true } else x)
      ∧ (closeBand s n b es).reg VRD_LATE = s.reg VRD_LATE := by
  rw [closeBand_past es h, if_pos hl]
  exact ⟨evals_evalsClosed s n b, (evalsClosed_keeps s n b).1 _⟩

/-! ### The completion of an evaluation -/

/-- An evaluation that an earlier frame left is completed first. -/
theorem doBandEvaluation_owed {n : Fin 16} {b : Fin 68} (bad : List Nat) (fixed : Nat) {s : State} {x : Owed} (hc : s.ctl.core = true)
    (h : (s.head n.val).owed.find? (fun x => x.band == b.val) = some x) :
    doBandEvaluation n b bad fixed s = bandDone (s.setHead n.val { s.head n.val with owed := (s.head n.val).owed.erase x }) n.val b.val
      x.frame s.margin
      ((entriesOf s x.tiles).filter fun i => !(s.led i).never && decide (rawAge (tickOf x.due) (s.led i).content < -1000)).length
      (entriesOf s x.reads) bad fixed := by
  unfold doBandEvaluation
  simp only [hc, h, Bool.not_true, Bool.false_eq_true, if_false]

theorem doBandEvaluation_idle {n : Fin 16} {b : Fin 68} (bad : List Nat) (fixed : Nat) {s : State}
    (h : (s.head n.val).owed.find? (fun x => x.band == b.val) = none)
    (hw : bandWaits s n.val b.val = false ∨ bandOpen s n.val b.val < 0) : doBandEvaluation n b bad fixed s = s := by
  have hskip : (!bandWaits s n.val b.val || decide (bandOpen s n.val b.val < 0)) = true := by simpa using hw
  unfold doBandEvaluation
  simp only [h, hskip, if_true, ite_self]

/-- The evaluation of the frame being shown, from the band's window on. -/
theorem doBandEvaluation_shown {n : Fin 16} {b : Fin 68} (bad : List Nat) (fixed : Nat) {s : State} (hc : s.ctl.core = true)
    (h : (s.head n.val).owed.find? (fun x => x.band == b.val) = none) (hw : bandWaits s n.val b.val = true)
    (ho : 0 ≤ bandOpen s n.val b.val) :
    doBandEvaluation n b bad fixed s =
      (let es := evalBand s n.val b.val bad (tickOf (lineStart s n.val (64 * b.val))) s.margin
      bandDone (closeBand s n.val b.val es) n.val b.val (s.head n.val).frame s.margin
        (es.filter fun e => e.verdict != .never && decide (e.raw < -1000)).length
        ((liveIn s n.val b.val).flatMap fun x => readsOf s (s.head n.val) x b.val) bad fixed) := by
  have hgo : (!bandWaits s n.val b.val || decide (bandOpen s n.val b.val < 0)) = false := by simpa [hw] using ho
  unfold doBandEvaluation
  simp only [hc, h, hgo, Bool.not_true, Bool.false_eq_true, if_false]

/-! ### The late band and the watchdog (R46) -/

theorem doBandLate_late {n : Fin 16} {b : Fin 68} {s : State} (hc : s.ctl.core = true) (hw : bandWaits s n.val b.val = true)
    (hl : bandLate s n.val b.val = false) (hp : 0 ≤ bandPast s n.val b.val) : doBandLate n b s = lateBand s n.val b.val := by
  unfold doBandLate
  simp [hc, hw, hl, not_lt.mpr hp]

theorem doBandLate_idle {n : Fin 16} {b : Fin 68} {s : State}
    (h : bandWaits s n.val b.val = false ∨ bandLate s n.val b.val = true ∨ bandPast s n.val b.val < 0) : doBandLate n b s = s := by
  unfold doBandLate
  rcases h with h | h | h <;> simp [h]

/-- Every tile that stands for a late band is STALE without an age. -/
theorem staleBand_stale {s : State} {n b : Nat} {e : Eval} (h : e ∈ staleBand s n b) : e.verdict = .stale ∧ e.age = none := by
  obtain ⟨x, -, hx⟩ := List.mem_flatMap.mp h
  obtain ⟨t, -, rfl⟩ := List.mem_map.mp hx
  exact ⟨rfl, rfl⟩

theorem doVrdWatchdog_stuck {n : Fin 16} {s : State} (hc : s.ctl.core = true) (h : bandStuck s n.val = true) :
    doVrdWatchdog n s = raise (if s.bit VRD_WDOG 31 then s else s.setReg VRD_WDOG (BitVec.ofNat 32 (n.val + 2 ^ 31)))
      evVrdWatchdog 3 13 31 [] := by
  unfold doVrdWatchdog
  rw [hc, h, if_neg (by decide)]

theorem doVrdWatchdog_idle {n : Fin 16} {s : State} (h : bandStuck s n.val = false) : doVrdWatchdog n s = s := by
  unfold doVrdWatchdog
  simp [h]

end Sys2Proof.Machine

/-!
PROOFS of the liveness family: profile commits and the evaluation of a band, assembled (R43-R47, R54-R56).
-/

namespace Sys2Proof.Machine

theorem SameRegsBut.trans_sub {l m k : List Nat} {s t u : State} (h : SameRegsBut l s t) (h' : SameRegsBut m t u) (hl : l ⊆ k)
    (hm : m ⊆ k) : SameRegsBut k s u :=
  fun a ha => (h' a fun hin => ha (hm hin)).trans (h a fun hin => ha (hl hin))

theorem exec_bandEvaluation (n : Fin 16) (b : Fin 68) (bad : List Nat) (fixed : Nat) (s : State) :
    exec (.bandEvaluation n b bad fixed) s = .next (doBandEvaluation n b bad fixed s) := rfl

/-- The evaluation that an earlier frame left: its entries' bad reads are counted after what it shows, and nothing else of a head changes. -/
theorem bandEvaluation_owed (n : Fin 16) (b : Fin 68) (bad : List Nat) (fixed : Nat) {s : State} {x : Owed} (hc : s.ctl.core = true)
    (h : (s.head n.val).owed.find? (fun x => x.band == b.val) = some x) :
    ∃ u, exec (.bandEvaluation n b bad fixed) s = .next (((entriesOf s x.reads).filter bad.contains).foldl ledgerBad u)
      ∧ (∀ k, u.head k = if k = n.val then { s.head n.val with owed := (s.head n.val).owed.erase x } else s.head k)
      ∧ u.reg VRD_MARGIN = BitVec.ofNat 32 s.margin ∧ u.reg (VRD_HEAD_BAND n.val) = BitVec.ofNat 32 (b.val + x.frame.toNat % 2 ^ 24 * 2 ^ 8)
      ∧ (u.reg VRD_FUTURE).toNat = Nat.min (2 ^ 32 - 1) ((s.reg VRD_FUTURE).toNat
        + ((entriesOf s x.tiles).filter fun i => !(s.led i).never && decide (rawAge (tickOf x.due) (s.led i).content < -1000)).length)
      ∧ SameRegsBut [VRD_MARGIN, VRD_HEAD_BAND n.val, VRD_FUTURE, LDG_ECC] s u ∧ u.mem = s.mem ∧ u.ledger = s.ledger := by
  generalize hfuture : ((entriesOf s x.tiles).filter fun i =>
    !(s.led i).never && decide (rawAge (tickOf x.due) (s.led i).content < -1000)).length = future
  have hexec := exec_bandEvaluation n b bad fixed s
  rw [doBandEvaluation_owed bad fixed hc h, bandDone_eq, hfuture] at hexec
  generalize ht : s.setHead n.val { s.head n.val with owed := (s.head n.val).owed.erase x } = t at hexec
  have hreg : ∀ a, t.reg a = s.reg a := fun a => by rw [← ht]; rfl
  have hmem : t.mem = s.mem := by rw [← ht]; rfl
  have hledger : t.ledger = s.ledger := by rw [← ht]; rfl
  have hhead : ∀ k, t.head k = if k = n.val then { s.head n.val with owed := (s.head n.val).owed.erase x } else s.head k := fun k => by
    rw [← ht]
    split
    · subst k
      exact State.head_setHead _ _ _
    · exact State.head_setHead_ne _ _ (by assumption)
  obtain ⟨hregs, hheads, hmem', hledger'⟩ := bandShown_regsOnly t n.val b.val x.frame s.margin future (entriesOf s x.reads) fixed
  obtain ⟨hmargin, hband, hcount⟩ := bandShown_shows t n.val b.val x.frame s.margin future (entriesOf s x.reads) fixed
  refine ⟨_, hexec, fun k => (State.head_congr hheads k).trans (hhead k), hmargin, hband, hreg VRD_FUTURE ▸ hcount,
    fun a ha => (hregs a ha).trans (hreg a), hmem'.trans hmem, hledger'.trans hledger⟩

/-- The evaluation of the frame being shown: what stands for the band follows its first line, and the bad reads are counted at the end. -/
theorem bandEvaluation_shown (n : Fin 16) (b : Fin 68) (bad : List Nat) (fixed : Nat) {s : State} (hc : s.ctl.core = true)
    (hn : (s.head n.val).owed.find? (fun x => x.band == b.val) = none) (hw : bandWaits s n.val b.val = true)
    (ho : 0 ≤ bandOpen s n.val b.val) :
    let h := s.head n.val
    let es := evalBand s n.val b.val bad (tickOf (lineStart s n.val (64 * b.val))) s.margin
    let reads := (liveIn s n.val b.val).flatMap fun x => readsOf s h x b.val
    let others := h.evals.filter fun x => x.band != b.val
    ∃ u, exec (.bandEvaluation n b bad fixed) s = .next ((reads.filter bad.contains).foldl ledgerBad u)
      ∧ (bandPast s n.val b.val < 0 → (u.head n.val).evals = others ++ [⟨b.val, h.frame, es, true⟩] ∧ u.reg VRD_LATE = s.reg VRD_LATE)
      ∧ (0 ≤ bandPast s n.val b.val → bandLate s n.val b.val = false →
        (u.head n.val).evals = others ++ [⟨b.val, h.frame, staleBand s n.val b.val, true⟩] ∧ u.reg VRD_LATE = (s.inc VRD_LATE).reg VRD_LATE)
      ∧ (0 ≤ bandPast s n.val b.val → bandLate s n.val b.val = true →
        (u.head n.val).evals = h.evals.map (fun x => if x.band = b.val then { x with done := true } else x) ∧ u.reg VRD_LATE = s.reg VRD_LATE)
      ∧ u.reg VRD_MARGIN = BitVec.ofNat 32 s.margin ∧ u.reg (VRD_HEAD_BAND n.val) = BitVec.ofNat 32 (b.val + h.frame.toNat % 2 ^ 24 * 2 ^ 8)
      ∧ (u.reg VRD_FUTURE).toNat = Nat.min (2 ^ 32 - 1) ((s.reg VRD_FUTURE).toNat
        + (es.filter fun e => e.verdict != .never && decide (e.raw < -1000)).length)
      ∧ SameRegsBut [VRD_MARGIN, VRD_HEAD_BAND n.val, VRD_FUTURE, VRD_LATE, LDG_ECC] s u ∧ u.mem = s.mem ∧ u.ledger = s.ledger := by
  intro h es reads others
  have hexec := exec_bandEvaluation n b bad fixed s
  rw [doBandEvaluation_shown bad fixed hc hn hw ho, bandDone_eq] at hexec
  have hbefore := closeBand_before s n.val b.val es
  have hafter := closeBand_after s n.val b.val es
  have hlate := closeBand_late s n.val b.val es
  obtain ⟨hclosed, hmem, hledger⟩ := closeBand_keeps s n.val b.val es
  change _ = Host.Outcome.next ((reads.filter bad.contains).foldl ledgerBad
    (bandShown (closeBand s n.val b.val es) n.val b.val h.frame s.margin
      (es.filter fun e => e.verdict != .never && decide (e.raw < -1000)).length reads fixed)) at hexec
  generalize closeBand s n.val b.val es = t at hexec hbefore hafter hlate hclosed hmem hledger
  generalize (es.filter fun e => e.verdict != .never && decide (e.raw < -1000)).length = future at hexec ⊢
  obtain ⟨hregs, hheads, hmem', hledger'⟩ := bandShown_regsOnly t n.val b.val h.frame s.margin future reads fixed
  obtain ⟨hmargin, hband, hcount⟩ := bandShown_shows t n.val b.val h.frame s.margin future reads fixed
  have hfuture : t.reg VRD_FUTURE = s.reg VRD_FUTURE := hclosed _ (by decide)
  have hnolate := hregs VRD_LATE (by simp [VRD_LATE, VRD_MARGIN, VRD_HEAD_BAND, VRD_FUTURE, LDG_ECC]; omega)
  have hevals := congrArg Head.evals (State.head_congr hheads n.val)
  refine ⟨_, hexec, fun hp => (hbefore hp).imp hevals.trans hnolate.trans, fun hp hl => (hafter hp hl).imp hevals.trans hnolate.trans,
    fun hp hl => (hlate hp hl).imp hevals.trans hnolate.trans, hmargin, hband, hfuture ▸ hcount, ?_, hmem'.trans hmem,
    hledger'.trans hledger⟩
  exact hclosed.trans_sub hregs (by simp) (by simp)

/-- Settles O24: a commit takes the words staged at its request, and its decision tells only by those; a completed evaluation is
closed before or after the band's first line, then shown. -/
theorem profilesAndVerdicts : Obligations.ProfilesAndVerdicts := by
  refine ⟨⟨fun a v s hr => ?_, fun s c cs ws wss hc hs => ?_⟩, fun n b bad fixed s hc => ?_, fun n b s hc => ?_, fun n s hc => ?_⟩
  · have hexec := exec_vrdCommit (v := v) hr
    refine ⟨fun hp => ?_, fun hp hv => ?_, fun hp hv => ?_⟩
    · exact hexec.trans (congrArg _ (vrdCommitWrite_refused s hp))
    · exact hexec.trans (congrArg _ (vrdCommitWrite_idle s hp hv))
    · exact hexec.trans (congrArg _ ((vrdCommitWrite_go s hp hv).trans (commitRequest_eq s v)))
  · refine ⟨fun hres => commitDecided_valid hc hs hres, fun hres => ?_⟩
    have hrefused := commitDecided_refused hc hs hres
    exact ⟨hrefused.1, _, hrefused⟩
  · exact ⟨fun x hx => bandEvaluation_owed n b bad fixed hc hx,
      fun hn hw => congrArg Host.Outcome.next (doBandEvaluation_idle bad fixed hn hw),
      fun hn hw ho => bandEvaluation_shown n b bad fixed hc hn hw ho⟩
  · exact ⟨fun hw hl hp => congrArg Host.Outcome.next (doBandLate_late hc hw hl hp),
      fun h => congrArg Host.Outcome.next (doBandLate_idle h), fun e he => staleBand_stale he⟩
  · exact ⟨fun h => congrArg Host.Outcome.next (doVrdWatchdog_stuck hc h),
      fun h => congrArg Host.Outcome.next (doVrdWatchdog_idle h)⟩

end Sys2Proof.Machine

/-!
PROOFS of the time family: what a decided record (R291), a register pair and a pulse of an event source show, and what they leave.
-/

namespace Sys2Proof.Machine

/-! ### Registers -/

theorem SameRegsBut.trans {l : List Nat} {s t u : State} (h : SameRegsBut l s t) (k : SameRegsBut l t u) : SameRegsBut l s u :=
  fun a ha => (k a ha).trans (h a ha)

theorem sameRegsBut_setReg {l : List Nat} {a : Nat} (s : State) (v : Word) (ha : a ∈ l) : SameRegsBut l s (s.setReg a v) :=
  fun _ hb => State.reg_setReg_ne s v fun e => hb (e ▸ ha)

theorem State.fld_congr {s t : State} {a : Nat} (h : t.reg a = s.reg a) (lo n : Nat) : t.fld a lo n = s.fld a lo n :=
  congrArg (fun w : Word => bitsOf w.toNat lo n) h

theorem State.bit_congr {s t : State} {a : Nat} (h : t.reg a = s.reg a) (i : Nat) : t.bit a i = s.bit a i :=
  congrArg (fun w : Word => bitOf w.toNat i) h

theorem State.pair_congr {s t : State} {lo hi : Nat} (hlo : t.reg lo = s.reg lo) (hhi : t.reg hi = s.reg hi) :
    t.pair lo hi = s.pair lo hi := by
  unfold State.pair
  rw [hlo, hhi]

/-- A pair that was set reads as the 64-bit value it was set to. -/
theorem State.pair_setPair {lo hi v : Nat} (s : State) (hne : lo ≠ hi) (hv : v < 2 ^ 64) : (s.setPair lo hi v).pair lo hi = v := by
  unfold State.pair State.setPair
  rw [State.reg_setReg_same, State.reg_setReg_ne _ _ hne, State.reg_setReg_same, BitVec.toNat_ofNat, BitVec.toNat_ofNat]
  omega

/-- A decided record advances its generation. -/
theorem State.resultDone_generation (s : State) (a bits : Nat) :
    (s.resultDone a bits).fld a 16 16 = (s.fld a 16 16 + 1) % 2 ^ 16 := by
  have hword : ((s.resultDone a bits).reg a).toNat = 1 + bits % 2 ^ 15 * 2 + (s.fld a 16 16 + 1) % 2 ^ 16 * 2 ^ 16 := by
    unfold State.resultDone
    rw [State.reg_setReg_same, BitVec.toNat_ofNat, Nat.mod_eq_of_lt (by omega)]
  rw [State.fld, bitsOf, hword]
  omega

/-- Nothing but registers listed differs. -/
structure OnlyRegs (l : List Nat) (s t : State) : Prop where
  regs : SameRegsBut l s t
  back : { t with regs := s.regs } = s

theorem OnlyRegs.trans {l : List Nat} {s t u : State} (h : OnlyRegs l s t) (k : OnlyRegs l t u) : OnlyRegs l s u := by
  refine ⟨h.regs.trans k.regs, ?_⟩
  calc { u with regs := s.regs }
    _ = { ({ u with regs := t.regs } : State) with regs := s.regs } := rfl
    _ = { t with regs := s.regs } := by rw [k.back]
    _ = s := h.back

theorem OnlyRegs.mono {l m : List Nat} {s t : State} (h : OnlyRegs l s t) (hl : l ⊆ m) : OnlyRegs m s t :=
  ⟨fun a ha => h.regs a fun hin => ha (hl hin), h.back⟩

/-- The timebase set beside registers, and put back. -/
theorem OnlyRegs.back_tbase {l : List Nat} {s t : State} (h : OnlyRegs l s t) (b : Timebase) :
    { ({ t with tbase := b } : State) with regs := s.regs, tbase := s.tbase } = s :=
  (congrArg (fun x : State => { x with tbase := s.tbase }) h.back :)

/-- Registers written after the timebase was set. -/
theorem OnlyRegs.after_tbase {l : List Nat} {s t : State} {b : Timebase} (h : OnlyRegs l { s with tbase := b } t) :
    t.tbase = b ∧ SameRegsBut l s t ∧ { t with regs := s.regs, tbase := s.tbase } = s :=
  ⟨(congrArg State.tbase h.back :), fun a ha => h.regs a ha, (congrArg (fun x : State => { x with tbase := s.tbase }) h.back :)⟩

theorem onlyRegs_setReg {l : List Nat} {a : Nat} (s : State) (v : Word) (ha : a ∈ l) : OnlyRegs l s (s.setReg a v) :=
  ⟨sameRegsBut_setReg s v ha, rfl⟩

theorem onlyRegs_setFld {l : List Nat} {a : Nat} (s : State) (lo n v : Nat) (ha : a ∈ l) : OnlyRegs l s (s.setFld a lo n v) :=
  onlyRegs_setReg s _ ha

theorem onlyRegs_setBit {l : List Nat} {a : Nat} (s : State) (i : Nat) (b : Bool) (ha : a ∈ l) : OnlyRegs l s (s.setBit a i b) :=
  onlyRegs_setFld s i 1 _ ha

theorem onlyRegs_resultDone {l : List Nat} {a : Nat} (s : State) (bits : Nat) (ha : a ∈ l) : OnlyRegs l s (s.resultDone a bits) :=
  onlyRegs_setReg s _ ha

theorem onlyRegs_setPair {l : List Nat} {lo hi : Nat} (s : State) (v : Nat) (hlo : lo ∈ l) (hhi : hi ∈ l) :
    OnlyRegs l s (s.setPair lo hi v) :=
  (onlyRegs_setReg s _ hlo).trans (onlyRegs_setReg _ _ hhi)

theorem unsigned_lt (w : Nat) (i : Int) : unsigned w i < 2 ^ w := by
  have hpos : (0 : Int) < (2 ^ w : Nat) := by exact_mod_cast Nat.two_pow_pos w
  have hnonneg := Int.emod_nonneg i hpos.ne'
  have hlt := Int.emod_lt_of_pos i hpos
  unfold unsigned
  omega

/-! ### A pulse of an event source (R325, R329, R334) -/

/-- Nothing but the event sources, the desk cores, the arbiter's standing still and the desk PLL differs. -/
structure EvcOnly (s t : State) : Prop where
  regs : SameRegsBut (EVC_MERGED :: evcRegs) s t
  back : { evcBack s t with regs := s.regs, srcs := s.srcs } = s

theorem EvcOnly.refl (s : State) : EvcOnly s s := ⟨fun _ _ => rfl, rfl⟩

theorem EvcOnly.trans {s t u : State} (h : EvcOnly s t) (k : EvcOnly t u) : EvcOnly s u := by
  refine ⟨h.regs.trans k.regs, ?_⟩
  calc { evcBack s u with regs := s.regs, srcs := s.srcs }
    _ = { evcBack s { evcBack t u with regs := t.regs, srcs := t.srcs } with regs := s.regs, srcs := s.srcs } := rfl
    _ = { evcBack s t with regs := s.regs, srcs := s.srcs } := by rw [k.back]
    _ = s := h.back

theorem EvcOnly.chain {s t : State} (h : EvcOnly s t) : t.chain = s.chain := (congrArg State.chain h.back :)

theorem EvcOnly.tbase {s t : State} (h : EvcOnly s t) : t.tbase = s.tbase := (congrArg State.tbase h.back :)

/-- A pulse after a change of registers and the timebase. -/
theorem EvcOnly.back_under {s v t : State} (h : EvcOnly v t) (hv : { v with regs := s.regs, tbase := s.tbase } = s) :
    { evcBack s t with regs := s.regs, tbase := s.tbase, srcs := s.srcs } = s := by
  rw [← hv]
  exact (congrArg (fun x : State => { x with regs := s.regs, tbase := s.tbase }) h.back :)

/-- A change that touches no register and is undone by putting back what an arbitration may change. -/
theorem EvcOnly.of_regs_eq {s t : State} (hr : t.regs = s.regs) (hb : { evcBack s t with regs := s.regs, srcs := s.srcs } = s) :
    EvcOnly s t :=
  ⟨fun a _ => congrArg (tget regReset · a) hr, hb⟩

theorem EvcOnly.ite {s t u : State} {c : Prop} [Decidable c] (ht : EvcOnly s t) (hu : EvcOnly s u) : EvcOnly s (if c then t else u) := by
  split
  · exact ht
  · exact hu

theorem evcOnly_setReg {a : Nat} (s : State) (v : Word) (ha : a ∈ EVC_MERGED :: evcRegs) : EvcOnly s (s.setReg a v) :=
  ⟨sameRegsBut_setReg s v ha, by dsimp only [evcBack, State.setReg]⟩

theorem evcOnly_inc {a : Nat} (s : State) (ha : a ∈ EVC_MERGED :: evcRegs) : EvcOnly s (s.inc a) := evcOnly_setReg s _ ha

theorem evcOnly_setSrc (s : State) (i : Nat) (v : Src) : EvcOnly s (s.setSrc i v) :=
  .of_regs_eq rfl (by dsimp only [evcBack, State.setSrc])

theorem evcOnly_setDesk (s : State) (k : Nat) (v : Desk) : EvcOnly s (s.setDesk k v) :=
  .of_regs_eq rfl (by dsimp only [evcBack, State.setDesk])

theorem evcOnly_pllUsed (s : State) (p : Nat) : EvcOnly s (s.pllUsed p) :=
  .of_regs_eq rfl (by dsimp only [evcBack, State.pllUsed])

theorem evcOnly_stopped (s : State) : EvcOnly s { s with evcStop := true } :=
  .of_regs_eq rfl (by dsimp only [evcBack])

theorem evcOnly_restarted (s : State) (up : Nat) : EvcOnly s { s with evcStop := false, pwr := { s.pwr with evcUp := up } } :=
  .of_regs_eq rfl (by dsimp only [evcBack])

theorem evcOnly_pllLock (s : State) (lock : Tbl Nat) : EvcOnly s { s with pwr := { s.pwr with lock := lock } } :=
  .of_regs_eq rfl (by dsimp only [evcBack])

theorem evcOnly_each {f : State → Nat → State} (h : ∀ s k, EvcOnly s (f s k)) (n : Nat) (s : State) : EvcOnly s (s.each n f) := by
  unfold State.each
  generalize List.range n = ks
  induction ks generalizing s with
  | nil => exact .refl s
  | cons k ks ih => exact (h s k).trans (ih _)

/-- The start of the desk PLL. -/
theorem evcOnly_pllStart (s : State) : EvcOnly s (pllStart s 3) := by
  have hcounted := (evcOnly_setReg (a := CLK_PLL_STATUS 3) s 1 (by decide)).trans (evcOnly_inc (a := CLK_PLL_STAT 3) _ (by decide))
  exact .ite (.refl s) ((hcounted.trans (evcOnly_pllUsed _ 3)).trans (evcOnly_pllLock _ _))

theorem evcOnly_wfiResume (s : State) (k : Nat) : EvcOnly s (wfiResume s k) := .ite (evcOnly_setDesk s k _) (.refl s)

theorem evcOnly_arbitrate (s : State) : EvcOnly s (arbitrate s) :=
  evcOnly_each (fun s k => (evcOnly_setDesk s k _).trans (evcOnly_wfiResume _ k)) 4 s

theorem evcOnly_evcSettle (s : State) : EvcOnly s (evcSettle s) := by
  have ha := evcOnly_arbitrate s
  unfold evcSettle
  generalize arbitrate s = t at ha
  have hp := (evcOnly_pllStart t).trans (evcOnly_pllUsed _ 3)
  refine .ite (.refl s) (ha.trans (.ite (.ite hp ?restart) (.ite ?stop (.refl t))))
  case restart => exact hp.trans (evcOnly_restarted _ _)
  case stop => exact (evcOnly_pllUsed t 3).trans (evcOnly_stopped _)

theorem evcOnly_sampleLevel (s : State) (i : Nat) : EvcOnly s (sampleLevel s i) := .ite (evcOnly_setSrc s i _) (.refl s)

theorem evcOnly_setPend (s : State) (i : Nat) (merge : Bool) : EvcOnly s (setPend s i merge) :=
  .ite (.ite (evcOnly_inc s (by decide)) (.refl s)) (evcOnly_setSrc s i _)

theorem evcOnly_evcInput (s : State) (i : Nat) (level : Bool) : EvcOnly s (evcInput s i level) := by
  have hs := evcOnly_setSrc s i { s.src i with input := level }
  refine .ite (.refl s) (.ite hs (.ite ?level (.ite ?edge hs)))
  case level => exact hs.trans ((evcOnly_sampleLevel _ i).trans (evcOnly_evcSettle _))
  case edge => exact hs.trans ((evcOnly_setPend _ i true).trans (evcOnly_evcSettle _))

theorem evcOnly_evcPulse (s : State) (i : Nat) : EvcOnly s (evcPulse s i) :=
  (evcOnly_evcInput s i true).trans (evcOnly_evcInput _ i false)

end Sys2Proof.Machine

/-!
PROOFS of the time family: device time (R61-R73) — the snapshot, adjustments and steps by register and by command, the adjustment's effect,
the PTP message of a port.
-/

namespace Sys2Proof.Machine

/-! ### The snapshot (R61, R64) -/

theorem exec_tbSnapGo {a : Access} {s : State} (v : Word) (h : Reaches s a .w TB_SNAP) : exec (.tbSnapGo a v) s = .next (snapWrite v s) :=
  congrArg Host.Outcome.next (regAccess_go h)

/-- The timebase in its three snapshot registers, before the record is decided. -/
def snapWritten (s : State) : State :=
  ((s.setReg TB_SNAP_SEC_LO (BitVec.ofNat 32 (s.now / 1000000000))).setReg TB_SNAP_SEC_HI
    (BitVec.ofNat 32 (s.now / 1000000000 / 2 ^ 32 % 2 ^ 16 + s.now16 % 2 ^ 16 * 2 ^ 16))).setReg TB_SNAP_NS
      (BitVec.ofNat 32 (s.now % 1000000000))

theorem snapWritten_words (s : State) :
    (snapWritten s).reg TB_SNAP_SEC_LO = BitVec.ofNat 32 (s.now / 1000000000)
      ∧ (snapWritten s).reg TB_SNAP_SEC_HI = BitVec.ofNat 32 (s.now / 1000000000 / 2 ^ 32 % 2 ^ 16 + s.now16 % 2 ^ 16 * 2 ^ 16)
      ∧ (snapWritten s).reg TB_SNAP_NS = BitVec.ofNat 32 (s.now % 1000000000) := by
  unfold snapWritten
  refine ⟨?_, ?_, State.reg_setReg_same _ _ _⟩
  · rw [State.reg_setReg_ne _ _ (by decide), State.reg_setReg_ne _ _ (by decide), State.reg_setReg_same]
  · rw [State.reg_setReg_ne _ _ (by decide), State.reg_setReg_same]

def snapRegisters : List Nat := [TB_SNAP_SEC_LO, TB_SNAP_SEC_HI, TB_SNAP_NS, TB_SNAP_STATUS]

theorem snapWritten_onlyRegs (s : State) : OnlyRegs [TB_SNAP_SEC_LO, TB_SNAP_SEC_HI, TB_SNAP_NS] s (snapWritten s) := by
  have hlo := onlyRegs_setReg (l := [TB_SNAP_SEC_LO, TB_SNAP_SEC_HI, TB_SNAP_NS]) (a := TB_SNAP_SEC_LO) s
    (BitVec.ofNat 32 (s.now / 1000000000)) (by decide)
  have hhi := hlo.trans (onlyRegs_setReg (a := TB_SNAP_SEC_HI) _
    (BitVec.ofNat 32 (s.now / 1000000000 / 2 ^ 32 % 2 ^ 16 + s.now16 % 2 ^ 16 * 2 ^ 16)) (by decide))
  exact hhi.trans (onlyRegs_setReg (a := TB_SNAP_NS) _ _ (by decide))

theorem snapRegs_onlyRegs (s : State) : OnlyRegs snapRegisters s (snapRegs s) :=
  ((snapWritten_onlyRegs s).mono (by decide)).trans (onlyRegs_resultDone (a := TB_SNAP_STATUS) _ 0 (by decide))

/-- The seconds in two registers, the ns, the fraction, and the record. -/
theorem snapRegs_shows (s : State) : let t := snapRegs s
    (t.reg TB_SNAP_SEC_LO).toNat + t.fld TB_SNAP_SEC_HI 0 16 * 2 ^ 32 = s.now / 1000000000 % 2 ^ 48
      ∧ (t.reg TB_SNAP_NS).toNat = s.now % 1000000000 ∧ t.fld TB_SNAP_SEC_HI 16 16 = s.now16 % 2 ^ 16
      ∧ t.bit TB_SNAP_STATUS 0 = true ∧ t.fld TB_SNAP_STATUS 16 16 = (s.fld TB_SNAP_STATUS 16 16 + 1) % 2 ^ 16 := by
  intro t
  obtain ⟨hlo, hhi, hns⟩ := snapWritten_words s
  have hkept : ∀ a, a ≠ TB_SNAP_STATUS → t.reg a = (snapWritten s).reg a := fun a ha => State.reg_setReg_ne _ _ ha
  have hgen := State.fld_congr ((snapWritten_onlyRegs s).regs TB_SNAP_STATUS (by decide)) 16 16
  refine ⟨?_, ?_, ?_, (State.resultDone_shows _ _ 0).1, (State.resultDone_generation (snapWritten s) _ 0).trans (by rw [hgen])⟩
  · rw [State.fld, bitsOf, hkept _ (by decide), hkept _ (by decide), hlo, hhi, BitVec.toNat_ofNat, BitVec.toNat_ofNat]
    omega
  · rw [hkept _ (by decide), hns, BitVec.toNat_ofNat]
    omega
  · rw [State.fld, bitsOf, hkept _ (by decide), hhi, BitVec.toNat_ofNat]
    omega

/-! ### Adjustments and steps (R65, R67-R70) -/

/-- An adjustment accepted: it waits for the first whole microsecond after it (R68). -/
def adjWaiting (s : State) (rate : BitVec 64) (margin growth : BitVec 32) : State :=
  { s with tbase := { s.tbase with adj := some (rate, margin, growth), due := nextMicro s.now } }

theorem tryAdj_accepted {rate : Nat} (s : State) (margin growth : Nat) (h : rateOut (signed 64 rate) = false) :
    tryAdj s rate margin growth =
      (adjRecord (adjWaiting s (BitVec.ofNat 64 rate) (BitVec.ofNat 32 margin) (BitVec.ofNat 32 growth)) 0 0, 0) := by
  unfold tryAdj
  rw [h]
  rfl

theorem tryAdj_refused {rate : Nat} (s : State) (margin growth : Nat) (h : rateOut (signed 64 rate) = true) :
    tryAdj s rate margin growth = (adjRecord s 0 1, 1) := by
  unfold tryAdj
  rw [h]
  rfl

theorem stepResult_done {s : State} (hm : s.ctl.mode = .prime) (harm : s.bit TB_STATUS 0 = true) (hl : s.fld LDG_STATUS 16 13 = 0) :
    stepResult s = 0 := by
  simp [stepResult, hm, harm, hl]

theorem stepResult_denied {s : State} (h : s.ctl.mode ≠ .prime ∨ s.bit TB_STATUS 0 = false) : stepResult s = 2 := by
  rcases h with h | h <;> simp [stepResult, h]

theorem stepResult_busy {s : State} (hm : s.ctl.mode = .prime) (harm : s.bit TB_STATUS 0 = true) (hl : s.fld LDG_STATUS 16 13 ≠ 0) :
    stepResult s = 3 := by
  simp [stepResult, hm, harm, hl]

theorem tryStep_done {s : State} (part : Nat) (off : Int) (frac : Nat) (h : stepResult s = 0) :
    tryStep s part off frac = (adjRecord (stepTime s off frac) 1 0, 0) := by
  simp [tryStep, h]

theorem tryStep_refused {s : State} {r : Nat} (part : Nat) (off : Int) (frac : Nat) (h : stepResult s = r) (hr : r ≠ 0) :
    tryStep s part off frac = (adjRecord (raise s evTimeStepRefused 0 5 part []) 1 r, r) := by
  simp [tryStep, h, hr]

/-- TB_STATUS after a step: step_armed cleared, step_used set, source STEPPED (R65). -/
def stepMarked (s : State) : State := ((s.setBit TB_STATUS 0 false).setBit TB_STATUS 1 true).setFld TB_STATUS 3 2 2

theorem stepMarked_shows (s : State) :
    (stepMarked s).bit TB_STATUS 0 = false ∧ (stepMarked s).bit TB_STATUS 1 = true ∧ (stepMarked s).fld TB_STATUS 3 2 = 2 := by
  refine ⟨?_, ?_, State.fld_setFld_same _ _ _ (by decide)⟩
  · calc (stepMarked s).bit TB_STATUS 0
      _ = ((s.setBit TB_STATUS 0 false).setBit TB_STATUS 1 true).bit TB_STATUS 0 :=
          State.bit_setFld_outside _ _ _ (by decide) (.inl (by decide))
      _ = (s.setBit TB_STATUS 0 false).bit TB_STATUS 0 := State.bit_setFld_outside _ _ _ (by decide) (.inl (by decide))
      _ = false := State.bit_setBit_same s _ _ (by decide)
  · calc (stepMarked s).bit TB_STATUS 1
      _ = ((s.setBit TB_STATUS 0 false).setBit TB_STATUS 1 true).bit TB_STATUS 1 :=
          State.bit_setFld_outside _ _ _ (by decide) (.inl (by decide))
      _ = true := State.bit_setBit_same _ _ _ (by decide)

theorem stepMarked_onlyRegs (s : State) : OnlyRegs [TB_STATUS] s (stepMarked s) := by
  have harmed := onlyRegs_setBit (l := [TB_STATUS]) (a := TB_STATUS) s 0 false (by decide)
  have hmade := harmed.trans (onlyRegs_setBit (a := TB_STATUS) _ 1 true (by decide))
  exact hmade.trans (onlyRegs_setFld (a := TB_STATUS) _ 3 2 2 (by decide))

theorem stepTime_eq (s : State) (off : Int) (frac : Nat) :
    stepTime s off frac = stepMarked (s.setTime (s.tbase.val + BitVec.ofInt 128 (off * 2 ^ 64 + (frac * 2 ^ 48 : Nat)))) := rfl

/-- A record on top of the marks of a step touches neither. -/
theorem stepRecorded_shows (s : State) : let t := adjRecord (stepMarked s) 1 0
    t.bit TB_STATUS 0 = false ∧ t.bit TB_STATUS 1 = true ∧ t.fld TB_STATUS 3 2 = 2 ∧ t.bit TB_ADJ_STATUS 0 = true
      ∧ t.fld TB_ADJ_STATUS 1 3 = 0 := by
  intro t
  obtain ⟨harm, hmade, hhow⟩ := stepMarked_shows s
  obtain ⟨hvalid, hres⟩ := State.resultDone_shows (stepMarked s) TB_ADJ_STATUS (0 + 1 * 2 ^ 3)
  have hkept : t.reg TB_STATUS = (stepMarked s).reg TB_STATUS := State.reg_setReg_ne _ _ (by decide)
  exact ⟨(State.bit_congr hkept 0).trans harm, (State.bit_congr hkept 1).trans hmade, (State.fld_congr hkept 3 2).trans hhow, hvalid, hres⟩

theorem stepRecorded_onlyRegs (s : State) : OnlyRegs [TB_STATUS, TB_ADJ_STATUS] s (adjRecord (stepMarked s) 1 0) :=
  ((stepMarked_onlyRegs s).mono (by decide)).trans (onlyRegs_resultDone (a := TB_ADJ_STATUS) _ _ (by decide))

/-! ### Decided for a job (R67, R65)

An adjustment and a step change nothing of the jobs: acceptance before them and after them come to the same. -/

theorem setReg_accepted (s : State) (q : Req) (op a : Nat) (v : Word) : (accepted s q op).setReg a v = accepted (s.setReg a v) q op := rfl

theorem setFld_accepted (s : State) (q : Req) (op a lo n v : Nat) : (accepted s q op).setFld a lo n v = accepted (s.setFld a lo n v) q op :=
  setReg_accepted s q op a _

theorem adjRecord_accepted (s : State) (q : Req) (op o res : Nat) :
    adjRecord (accepted s q op) o res = accepted (adjRecord s o res) q op :=
  setReg_accepted s q op TB_ADJ_STATUS _

theorem setTime_accepted (s : State) (q : Req) (op : Nat) (v : BitVec 128) : (accepted s q op).setTime v = accepted (s.setTime v) q op := rfl

theorem stepTime_accepted (s : State) (q : Req) (op : Nat) (off : Int) (frac : Nat) :
    stepTime (accepted s q op) off frac = accepted (stepTime s off frac) q op := by
  rw [stepTime_eq, stepTime_eq, setTime_accepted]
  simp only [stepMarked, State.setBit, setFld_accepted]
  rfl

theorem adjWaiting_accepted (s : State) (q : Req) (op : Nat) (rate : BitVec 64) (margin growth : BitVec 32) :
    adjWaiting (accepted s q op) rate margin growth = accepted (adjWaiting s rate margin growth) q op := rfl

theorem adjRecord_nextJob (s : State) (o res : Nat) : (adjRecord s o res).nextJob = s.nextJob := State.resultDone_nextJob _ _ _

theorem adjRecord_ctl (s : State) (o res : Nat) : (adjRecord s o res).ctl = s.ctl := State.resultDone_ctl _ _ _

theorem stepTime_nextJob (s : State) (off : Int) (frac : Nat) : (stepTime s off frac).nextJob = s.nextJob := by
  simp [stepTime_eq, stepMarked, State.setTime]

/-- A command that was decided for the job it became completes with what its record then shows. -/
theorem finish_decided {s t u : State} {q : Req} {op : Nat} (hu : u = accepted t q op) (hn : t.nextJob = s.nextJob) (st : Nat)
    (body : Nat → BitVec 128) :
    finish u s.nextJob st (body (u.fld TB_ADJ_STATUS 16 16)) = done t q op st (body (t.fld TB_ADJ_STATUS 16 16)) := by
  rw [hu, ← hn]
  exact finish_accepted t q op st _

/-! ### TB_ADJ (R67, R70, Table 3.12) -/

theorem exec_tbAdj {a : Access} {s : State} (v : Word) (h : Reaches s a .w TB_ADJ) :
    exec (.tbAdjAdj a v) s = .next (tbAdjWrite a v s) ∧ exec (.tbAdjStep a v) s = .next (tbAdjWrite a v s) :=
  ⟨congrArg Host.Outcome.next (regAccess_go h), congrArg Host.Outcome.next (regAccess_go h)⟩

section Write

variable {a : Access} {v : Word} (s : State)

theorem tbAdjWrite_idle (hgo : bitOf v.toNat 31 = false) : tbAdjWrite a v s = s := by
  simp [tbAdjWrite, hgo]

theorem tbAdjWrite_reserved (hgo : bitOf v.toNat 31 = true) (hres : bitsOf v.toNat 1 30 ≠ 0) :
    tbAdjWrite a v s = adjRecord s (bitsOf v.toNat 0 1) 4 := by
  simp [tbAdjWrite, hgo, hres]

theorem tbAdjWrite_step (hgo : bitOf v.toNat 31 = true) (hres : bitsOf v.toNat 1 30 = 0) (hop : bitOf v.toNat 0 = true) :
    tbAdjWrite a v s = (tryStep s (partOf a) (signed 64 (s.pair TB_STEP_LO TB_STEP_HI)) (s.fld TB_STEP_FRAC 0 16)).1 := by
  simp [tbAdjWrite, hgo, hres, hop]

theorem tbAdjWrite_adj (hgo : bitOf v.toNat 31 = true) (hop : bitsOf v.toNat 0 31 = 0) :
    tbAdjWrite a v s = (tryAdj s (s.pair TB_RATE_LO TB_RATE_HI) (s.reg TB_MARGIN_NS).toNat (s.reg TB_GROWTH).toNat).1 := by
  have hres : bitsOf v.toNat 1 30 = 0 := by
    unfold bitsOf at hop ⊢
    omega
  have hzero : bitOf v.toNat 0 = false := by
    unfold bitsOf at hop
    unfold bitOf
    rw [beq_eq_false_iff_ne]
    omega
  simp [tbAdjWrite, hgo, hres, hzero]

end Write

/-! ### The effect of an adjustment (R68, R69) -/

theorem doAdjustmentEffect_none {s : State} (h : s.tbase.adj = none) : doAdjustmentEffect s = s := by
  unfold doAdjustmentEffect
  rw [h]

theorem doAdjustmentEffect_early {s : State} (h : s.since s.tbase.due.toNat < 0) : doAdjustmentEffect s = s := by
  unfold doAdjustmentEffect
  split
  · rfl
  · exact if_pos h

/-- The rate in force and the marks of an adjustment. -/
def rateWritten (s : State) (rate : Nat) : State := (s.setPair TB_RATE_ACT_LO TB_RATE_ACT_HI rate).setBit TB_STATUS 2 true

theorem doAdjustmentEffect_due {s : State} {r : BitVec 64} {m g : BitVec 32} (hadj : s.tbase.adj = some (r, m, g))
    (hdue : 0 ≤ s.since s.tbase.due.toNat) :
    doAdjustmentEffect s = rateWritten
      { s with tbase := { s.tbase with adj := none, marginNs := m, growth := g, effAt := BitVec.ofNat 64 s.now } } r.toNat := by
  unfold doAdjustmentEffect
  rw [hadj]
  exact if_neg (not_lt.mpr hdue)

theorem rateWritten_shows (s : State) (r : BitVec 64) :
    (rateWritten s r.toNat).pair TB_RATE_ACT_LO TB_RATE_ACT_HI = r.toNat ∧ (rateWritten s r.toNat).bit TB_STATUS 2 = true := by
  have hkept : ∀ a, a ≠ TB_STATUS → (rateWritten s r.toNat).reg a = (s.setPair TB_RATE_ACT_LO TB_RATE_ACT_HI r.toNat).reg a :=
    fun a ha => State.reg_setReg_ne _ _ ha
  refine ⟨?_, State.bit_setBit_same _ _ _ (by decide)⟩
  exact (State.pair_congr (hkept _ (by decide)) (hkept _ (by decide))).trans (State.pair_setPair s (by decide) r.isLt)

theorem rateWritten_onlyRegs (s : State) (rate : Nat) :
    OnlyRegs [TB_RATE_ACT_LO, TB_RATE_ACT_HI, TB_STATUS] s (rateWritten s rate) :=
  (onlyRegs_setPair s rate (by decide) (by decide)).trans (onlyRegs_setBit (a := TB_STATUS) _ 2 true (by decide))

/-! ### TIME commands (R64, R70-R73) -/

section Commands

variable {q : Req} {s : State}

theorem exec_timeRead (h : Admitted s q 0) : exec (.timeRead q) s =
    .next (done s q 0x0F03 stComplete (cplBody [(16, 8, s.now), (24, 2, s.now16), (28, 4, s.margin)])) := by
  refine congrArg Host.Outcome.next ?_
  rw [doTimeRead, soileNow_admitted h]
  exact finish_accepted s q _ _ _

theorem timeReserved_not (op : Nat) : timeReserved op q false s = s := by
  simp [timeReserved]

/-- A command of the servo's partition does what it is for (R71). -/
theorem soileNow_servo {op mask : Nat} {run : State → State × Nat × BitVec 128} (h : Admitted s q mask)
    (hown : s.fld TB_SERVO 0 5 = q.part.val) :
    soileNow s q op mask true (fun t => if t.fld TB_SERVO 0 5 != q.part.val then (t, stNotOwner, 0) else run t) =
      finish (run (accepted s q op)).1 s.nextJob (run (accepted s q op)).2.1 (run (accepted s q op)).2.2 := by
  have hme : ((accepted s q op).fld TB_SERVO 0 5 != q.part.val) = false := bne_eq_false_iff_eq.mpr hown
  rw [soileNow_admitted h]
  simp only [hme, Bool.false_eq_true, if_false]

theorem exec_timeAdj (h : Admitted s q maskTimeAdj) (hown : s.fld TB_SERVO 0 5 = q.part.val) :
    let r := tryAdj (accepted s q 0x0F01) (q.u64 16) (q.u32 24) (q.u32 28)
    exec (.timeAdj q) s = .next (finish r.1 s.nextJob (if r.2 = 0 then stComplete else stRange)
      (cplBody [(16, 2, r.1.fld TB_ADJ_STATUS 16 16), (20, 4, ceilDiv (q.u32 24) 1000)])) := by
  obtain ⟨-, -, hres, -, -⟩ := id h
  refine congrArg Host.Outcome.next ?_
  rw [doTimeAdj, hres, timeReserved_not]
  exact soileNow_servo h hown

theorem exec_timeStep (h : Admitted s q maskTimeStep) (hown : s.fld TB_SERVO 0 5 = q.part.val) :
    let r := tryStep (accepted s q 0x0F02) q.part.val (q.sN 16 8) (q.u16 24)
    exec (.timeStep q) s = .next (finish r.1 s.nextJob (if r.2 = 0 then stComplete else if r.2 = 2 then stStepDenied else stLedgerBusy)
      (cplBody [(16, 2, r.1.fld TB_ADJ_STATUS 16 16)])) := by
  obtain ⟨-, -, hres, -, -⟩ := id h
  refine congrArg Host.Outcome.next ?_
  rw [doTimeStep, hres, timeReserved_not]
  exact soileNow_servo h hown

/-- A command with a reserved bit completes RESERVED (R287). -/
theorem soileNow_reserved {op mask : Nat} {modeOk : Bool} {run : State → State × Nat × BitVec 128} (hc : s.ctl.core = true)
    (hres : q.reservedSet mask = true) : soileNow s q op mask modeOk run = done s (rerouted s q) op stReserved := by
  simp [soileNow, soile, hc, hres]

theorem timeReserved_set {op : Nat} (hc : s.ctl.core = true) (hown : s.fld TB_SERVO 0 5 = q.part.val) :
    timeReserved op q true s = adjRecord s op 4 := by
  simp [timeReserved, hc, hown]

theorem exec_timePtpTx (h : Admitted s q (bodyMask [(16, 0, 24), (19, 0, 1), (20, 0, 352)])) (hlo : 34 ≤ q.u16 16) (hhi : q.u16 16 ≤ 44)
    (hp : q.u8 18 ≤ 7) (hown : s.fld TB_SERVO 0 5 = q.part.val) (hup : portUp s (q.u8 18) = true) :
    let msg := leBytes (q.u16 16) (q.uN 20 (q.u16 16))
    let leaves := s.now16 + s.fld (TB_PORT_TXLAT (q.u8 18)) 0 24 * 256
    exec (.timePtpTx q) s = .next (done (sendFrame s (q.u8 18) (ptpFrame s (q.u8 18) (q.bit 19 0) msg)) q 0x0F04 stComplete
      (cplBody ((if (msg.getD 0 0).toNat % 16 < 4 then [(16, 8, leaves / 2 ^ 16), (24, 2, leaves)] else []) ++ [(26, 1, q.u8 18)]))) := by
  intro msg leaves
  have hrange : (decide (q.u16 16 < 34) || decide (44 < q.u16 16) || decide (7 < q.u8 18)) = false := by
    simp only [Bool.or_eq_false_iff, decide_eq_false_iff_not]
    omega
  have hme : ((accepted s q 0x0F04).fld TB_SERVO 0 5 != q.part.val) = false := bne_eq_false_iff_eq.mpr hown
  have hlink : portUp (accepted s q 0x0F04) (q.u8 18) = true := hup
  refine congrArg Host.Outcome.next ?_
  rw [doTimePtpTx, soileNow_admitted h]
  simp only [firstFail, hrange, hme, hlink, Bool.not_true, Bool.false_eq_true, if_false, decide_eq_true_eq]
  exact finish_accepted (sendFrame s (q.u8 18) (ptpFrame s (q.u8 18) (q.bit 19 0) msg)) q _ _ _

end Commands

/-! ### The clauses of device time -/

theorem tbSnapGo_captures {a : Access} {v : Word} {s : State} (h : Reaches s a .w TB_SNAP) (hgo : bitOf v.toNat 31 = true) :
    exec (.tbSnapGo a v) s = .next (snapRegs s) := by
  rw [exec_tbSnapGo v h, snapWrite, if_pos hgo]

theorem tbSnapGo_idle {a : Access} {v : Word} {s : State} (h : Reaches s a .w TB_SNAP) (hgo : bitOf v.toNat 31 = false) :
    exec (.tbSnapGo a v) s = .next s := by
  rw [exec_tbSnapGo v h, snapWrite, hgo, if_neg Bool.false_ne_true]

theorem tbAdjAdj_decided {a : Access} {v : Word} {s : State} (h : Reaches s a .w TB_ADJ) (hgo : bitOf v.toNat 31 = true)
    (hop : bitsOf v.toNat 0 31 = 0) :
    (rateOut (signed 64 (s.pair TB_RATE_LO TB_RATE_HI)) = false → exec (.tbAdjAdj a v) s =
      .next (adjRecord (adjWaiting s (BitVec.ofNat 64 (s.pair TB_RATE_LO TB_RATE_HI)) (s.reg TB_MARGIN_NS) (s.reg TB_GROWTH)) 0 0))
    ∧ (rateOut (signed 64 (s.pair TB_RATE_LO TB_RATE_HI)) = true → exec (.tbAdjAdj a v) s = .next (adjRecord s 0 1)) := by
  rw [(exec_tbAdj v h).1, tbAdjWrite_adj s hgo hop]
  refine ⟨fun hrate => ?_, fun hrate => ?_⟩
  · rw [tryAdj_accepted s _ _ hrate, BitVec.ofNat_toNat, BitVec.ofNat_toNat, BitVec.setWidth_eq, BitVec.setWidth_eq]
  · rw [tryAdj_refused s _ _ hrate]

/-- What a TIME_ADJ completes with: the generation of its record, and the margin in µs (Table 3.2). -/
def adjBody (q : Req) (generation : Nat) : BitVec 128 := cplBody [(16, 2, generation), (20, 4, ceilDiv (q.u32 24) 1000)]

theorem timeAdj_decided {q : Req} {s : State} (h : Admitted s q maskTimeAdj) (hown : s.fld TB_SERVO 0 5 = q.part.val) :
    let t := adjRecord (adjWaiting s (BitVec.ofNat 64 (q.u64 16)) (BitVec.ofNat 32 (q.u32 24)) (BitVec.ofNat 32 (q.u32 28))) 0 0
    (rateOut (signed 64 (q.u64 16)) = false →
      exec (.timeAdj q) s = .next (done t q 0x0F01 stComplete (adjBody q (t.fld TB_ADJ_STATUS 16 16))))
    ∧ (rateOut (signed 64 (q.u64 16)) = true →
      exec (.timeAdj q) s = .next (done (adjRecord s 0 1) q 0x0F01 stRange (adjBody q ((adjRecord s 0 1).fld TB_ADJ_STATUS 16 16)))) := by
  intro t
  have hexec := exec_timeAdj h hown
  refine ⟨fun hrate => ?_, fun hrate => ?_⟩
  · rw [tryAdj_accepted _ _ _ hrate, adjWaiting_accepted, adjRecord_accepted] at hexec
    exact hexec.trans (congrArg Host.Outcome.next (finish_decided rfl (adjRecord_nextJob _ 0 0) _ (adjBody q)))
  · rw [tryAdj_refused _ _ _ hrate, adjRecord_accepted] at hexec
    exact hexec.trans (congrArg Host.Outcome.next (finish_decided rfl (adjRecord_nextJob _ 0 1) _ (adjBody q)))

theorem adjustmentEffect_due {s : State} {r : BitVec 64} {m g : BitVec 32} (hadj : s.tbase.adj = some (r, m, g))
    (hdue : 0 ≤ s.since s.tbase.due.toNat) : ∃ t, exec .adjustmentEffect s = .next t
      ∧ t.tbase = { s.tbase with adj := none, marginNs := m, growth := g, effAt := BitVec.ofNat 64 s.now }
      ∧ t.pair TB_RATE_ACT_LO TB_RATE_ACT_HI = r.toNat ∧ t.bit TB_STATUS 2 = true
      ∧ SameRegsBut [TB_RATE_ACT_LO, TB_RATE_ACT_HI, TB_STATUS] s t ∧ { t with regs := s.regs, tbase := s.tbase } = s := by
  let b : Timebase := { s.tbase with adj := none, marginNs := m, growth := g, effAt := BitVec.ofNat 64 s.now }
  obtain ⟨hrate, hmark⟩ := rateWritten_shows { s with tbase := b } r
  obtain ⟨htbase, hregs, hback⟩ := (rateWritten_onlyRegs { s with tbase := b } r.toNat).after_tbase
  exact ⟨_, congrArg Host.Outcome.next (doAdjustmentEffect_due hadj hdue), htbase, hrate, hmark, hregs, hback⟩

theorem tbAdjStep_made {a : Access} {v : Word} {s : State} (h : Reaches s a .w TB_ADJ) (hgo : bitOf v.toNat 31 = true)
    (hres : bitsOf v.toNat 1 30 = 0) (hop : bitOf v.toNat 0 = true) (hstep : stepResult s = 0) :
    let off := signed 64 (s.pair TB_STEP_LO TB_STEP_HI)
    let val := s.tbase.val + BitVec.ofInt 128 (off * 2 ^ 64 + (s.fld TB_STEP_FRAC 0 16 * 2 ^ 48 : Nat))
    ∃ t, exec (.tbAdjStep a v) s = .next t ∧ t.tbase = { s.tbase with val := val, due := nextMicro (val.toNat / 2 ^ 64) }
      ∧ t.bit TB_STATUS 0 = false ∧ t.bit TB_STATUS 1 = true ∧ t.fld TB_STATUS 3 2 = 2 ∧ t.bit TB_ADJ_STATUS 0 = true
      ∧ t.fld TB_ADJ_STATUS 1 3 = 0 ∧ SameRegsBut [TB_STATUS, TB_ADJ_STATUS] s t ∧ { t with regs := s.regs, tbase := s.tbase } = s := by
  intro off val
  have hexec : exec (.tbAdjStep a v) s = .next (adjRecord (stepMarked (s.setTime val)) 1 0) := by
    rw [(exec_tbAdj v h).2, tbAdjWrite_step s hgo hres hop, tryStep_done _ _ _ hstep, stepTime_eq]
  obtain ⟨harm, hmade, hhow, hvalid, hok⟩ := stepRecorded_shows (s.setTime val)
  obtain ⟨htbase, hregs, hback⟩ := (stepRecorded_onlyRegs (s.setTime val)).after_tbase
  exact ⟨_, hexec, htbase, harm, hmade, hhow, hvalid, hok, hregs, hback⟩

theorem tbAdjStep_refused {a : Access} {v : Word} {s : State} {r : Nat} (h : Reaches s a .w TB_ADJ) (hgo : bitOf v.toNat 31 = true)
    (hres : bitsOf v.toNat 1 30 = 0) (hop : bitOf v.toNat 0 = true) (hstep : stepResult s = r) (hr : r ≠ 0) :
    exec (.tbAdjStep a v) s = .next (adjRecord (raise s evTimeStepRefused 0 5 (partOf a) []) 1 r) := by
  rw [(exec_tbAdj v h).2, tbAdjWrite_step s hgo hres hop, tryStep_refused _ _ _ hstep hr]

theorem timeStep_made {q : Req} {s : State} (h : Admitted s q maskTimeStep) (hown : s.fld TB_SERVO 0 5 = q.part.val)
    (hstep : stepResult s = 0) :
    let t := adjRecord (stepTime s (q.sN 16 8) (q.u16 24)) 1 0
    exec (.timeStep q) s = .next (done t q 0x0F02 stComplete (cplBody [(16, 2, t.fld TB_ADJ_STATUS 16 16)])) := by
  intro t
  have hexec := exec_timeStep h hown
  have hnext : t.nextJob = s.nextJob := (adjRecord_nextJob _ 1 0).trans (stepTime_nextJob s (q.sN 16 8) (q.u16 24))
  rw [tryStep_done (s := accepted s q 0x0F02) _ _ _ hstep, stepTime_accepted, adjRecord_accepted] at hexec
  exact hexec.trans (congrArg Host.Outcome.next (finish_decided rfl hnext _ fun generation => cplBody [(16, 2, generation)]))

theorem timeStep_refused {q : Req} {s : State} {r : Nat} (h : Admitted s q maskTimeStep) (hown : s.fld TB_SERVO 0 5 = q.part.val)
    (hstep : stepResult s = r) (hr : r ≠ 0) :
    let t := adjRecord (raise (accepted s q 0x0F02) evTimeStepRefused 0 5 q.part.val []) 1 r
    exec (.timeStep q) s = .next (finish t s.nextJob (if r = 2 then stStepDenied else stLedgerBusy)
      (cplBody [(16, 2, t.fld TB_ADJ_STATUS 16 16)])) := by
  intro t
  have hexec := exec_timeStep h hown
  rw [tryStep_refused (s := accepted s q 0x0F02) _ _ _ hstep hr] at hexec
  simp only [if_neg hr] at hexec
  exact hexec

theorem timeCommands_reserved {q : Req} {s : State} (hc : s.ctl.core = true) (hown : s.fld TB_SERVO 0 5 = q.part.val) :
    (q.reservedSet maskTimeAdj = true →
      exec (.timeAdj q) s = .next (done (adjRecord s 0 4) (rerouted (adjRecord s 0 4) q) 0x0F01 stReserved))
    ∧ (q.reservedSet maskTimeStep = true →
      exec (.timeStep q) s = .next (done (adjRecord s 1 4) (rerouted (adjRecord s 1 4) q) 0x0F02 stReserved)) := by
  refine ⟨fun hres => congrArg Host.Outcome.next ?_, fun hres => congrArg Host.Outcome.next ?_⟩
  · rw [doTimeAdj, hres, timeReserved_set hc hown]
    exact soileNow_reserved (by rwa [adjRecord_ctl]) hres
  · rw [doTimeStep, hres, timeReserved_set hc hown]
    exact soileNow_reserved (by rwa [adjRecord_ctl]) hres

/-- Settles O19: the snapshot shows the timebase; an adjustment and a step are decided by the rate and by the mode, arming and ledger, by
register as by command; what waits takes effect at its time. -/
theorem deviceTime : Obligations.DeviceTime := by
  refine ⟨⟨fun a v s hr => ⟨fun hgo => ?_, tbSnapGo_idle hr⟩, fun q s h => exec_timeRead h⟩,
    ⟨fun a v s hr => ⟨fun hgo => ?_, fun hgo hres => ?_, tbAdjAdj_decided hr⟩, fun q s h hown => timeAdj_decided h hown,
      fun s => ⟨fun h => ?_, fun h => ?_, fun r m g hadj hdue => adjustmentEffect_due hadj hdue⟩⟩,
    fun a v s hr hgo hres hop => ⟨fun hm harm hl => ?_, fun h => ?_, fun hm harm hl => ?_⟩,
    fun q s h hown => ⟨fun hm harm hl => ?_, fun hd => ?_, fun hm harm hl => ?_⟩,
    fun q s hc hown => timeCommands_reserved hc hown,
    fun q s h hlo hhi hp hown hup => exec_timePtpTx h hlo hhi hp hown hup⟩
  · obtain ⟨hsec, hns, hfrac, hvalid, hgen⟩ := snapRegs_shows s
    obtain ⟨hregs, hback⟩ := snapRegs_onlyRegs s
    exact ⟨_, tbSnapGo_captures hr hgo, hsec, hns, hfrac, hvalid, hgen, hregs, hback⟩
  · have hexec := exec_tbAdj v hr
    rwa [tbAdjWrite_idle s hgo] at hexec
  · have hexec := exec_tbAdj v hr
    rwa [tbAdjWrite_reserved s hgo hres] at hexec
  · exact congrArg Host.Outcome.next (doAdjustmentEffect_none h)
  · exact congrArg Host.Outcome.next (doAdjustmentEffect_early h)
  · exact tbAdjStep_made hr hgo hres hop (stepResult_done hm harm hl)
  · exact tbAdjStep_refused hr hgo hres hop (stepResult_denied h) (by decide)
  · exact tbAdjStep_refused hr hgo hres hop (stepResult_busy hm harm hl) (by decide)
  · exact timeStep_made h hown (stepResult_done hm harm hl)
  · exact timeStep_refused h hown (stepResult_denied hd) (by decide)
  · exact timeStep_refused h hown (stepResult_busy hm harm hl) (by decide)

end Sys2Proof.Machine

/-!
PROOFS of the time family: link delay and chain time (R76, R78, R361, R362, R385) — the delay exchange of a port, the root's TIME, what a
TIME message leaves in this unit.
-/

namespace Sys2Proof.Machine

/-! ### The delay exchange (R362) -/

theorem dueAgain_iff {s : State} {last : Option Nat} {period : Nat} :
    dueAgain s last period = true ↔ ∀ t ∈ last, t + period ≤ s.island := by
  cases last <;> simp [dueAgain]

theorem doPdlyReqSend_due {p : Fin 2} {s : State} (hup : chainUp s p.val = true) (hdue : dueAgain s (s.port p.val).pdlyAt 1000000 = true) :
    doPdlyReqSend p s = lctrl (s.setPort p.val { s.port p.val with
      reqAt := some s.tbase.val, pdlyOut := (s.port p.val).pdlyOut + 1, pdlyAt := some s.island }) p.val 2 0 := by
  simp [doPdlyReqSend, hup, hdue]

theorem doPdlyReqSend_idle {p : Fin 2} {s : State}
    (h : chainUp s p.val = false ∨ dueAgain s (s.port p.val).pdlyAt 1000000 = false) : doPdlyReqSend p s = s := by
  rcases h with h | h <;> simp [doPdlyReqSend, h]

theorem doPdlyRespRx_answered {p : Fin 2} {s : State} (t e : BitVec 32) (hup : chainUp s p.val = true)
    (hreq : (s.port p.val).reqAt.isSome = true) :
    doPdlyRespRx p t e s = s.setPort p.val { s.port p.val with
      delay := ((e.toNat : Int) - txLat s p.val - rxLat s p.val - t.toNat) / 2 + chainAsym s p.val, delayAt := some s.island
      reqAt := none } := by
  have hnone : (s.port p.val).reqAt.isNone = false := by rw [← Option.not_isSome, hreq]; rfl
  simp [doPdlyRespRx, hup, hnone]

theorem doPdlyRespRx_idle {p : Fin 2} {s : State} (t e : BitVec 32) (h : chainUp s p.val = false ∨ (s.port p.val).reqAt = none) :
    doPdlyRespRx p t e s = s := by
  rcases h with h | h <;> simp [doPdlyRespRx, h]

/-! ### The root's TIME (R361) -/

theorem timeRoot_iff {s : State} :
    timeRoot s = true ↔ s.ctl.core = true ∧ s.bit TB_CHN_CTRL 0 = true ∧ s.bit TB_CHN_CTRL 1 = true := by
  simp [timeRoot, and_assoc]

theorem doTimeSend_root {s : State} (hring : s.ctl.ring = true) (hroot : timeRoot s = true) (hms : s.chain.timeMs ≠ some (s.now / 1000000)) :
    doTimeSend s = broadcast { s with chain := { s.chain with timeMs := some (s.now / 1000000) } } 2 0 [] := by
  simp [doTimeSend, hring, hroot, hms]

theorem doTimeSend_idle {s : State} (h : ¬ (s.ctl.ring = true ∧ timeRoot s = true) ∨ s.chain.timeMs = some (s.now / 1000000)) :
    doTimeSend s = s := by
  unfold doTimeSend
  refine if_neg fun hgo => ?_
  simp only [Bool.and_eq_true, bne_iff_ne] at hgo
  obtain ⟨hroot, hms⟩ := hgo
  exact h.elim (· hroot) hms

/-! ### A measurement of root time (R78) -/

def measRegs : List Nat := [TB_CHN_OFFSET_LO, TB_CHN_OFFSET_HI, TB_CHN_DELAY, TB_CHN_MEAS_STATUS]

/-- The registers of a measurement written. -/
def measWritten (s : State) (p hops : Nat) (offset : Int) : State :=
  let s := s.setPair TB_CHN_OFFSET_LO TB_CHN_OFFSET_HI (unsigned 64 offset)
  (s.setReg TB_CHN_DELAY (BitVec.ofInt 32 (s.port p).delay)).resultDone TB_CHN_MEAS_STATUS hops

theorem measWritten_onlyRegs (s : State) (p hops : Nat) (offset : Int) : OnlyRegs measRegs s (measWritten s p hops offset) := by
  have hpair := onlyRegs_setPair (l := measRegs) (lo := TB_CHN_OFFSET_LO) (hi := TB_CHN_OFFSET_HI) s (unsigned 64 offset)
    (by decide) (by decide)
  have hdelay := hpair.trans (onlyRegs_setReg (a := TB_CHN_DELAY) _ (BitVec.ofInt 32 (s.port p).delay) (by decide))
  exact hdelay.trans (onlyRegs_resultDone (a := TB_CHN_MEAS_STATUS) _ hops (by decide))

/-- A measurement, before the pulse of its event source. -/
def timePosted (s : State) (p hops : Nat) (offset : Int) : State :=
  let t := measWritten s p hops offset
  { t with tbase := { t.tbase with measAt := some (delayTime t p) } }

/-- The pulse that follows it (R327). -/
theorem postTime_evcOnly (s : State) (p hops : Nat) (offset : Int) : EvcOnly (timePosted s p hops offset) (postTime s p hops offset) :=
  evcOnly_evcPulse (timePosted s p hops offset) 45

theorem timePosted_back (s : State) (p hops : Nat) (offset : Int) :
    { timePosted s p hops offset with regs := s.regs, tbase := s.tbase } = s := by
  unfold timePosted
  exact (measWritten_onlyRegs s p hops offset).back_tbase _

theorem timePosted_chain (s : State) (p hops : Nat) (offset : Int) : (timePosted s p hops offset).chain = s.chain :=
  (congrArg State.chain (timePosted_back s p hops offset) :)

theorem timePosted_tbase (s : State) (p hops : Nat) (offset : Int) :
    (timePosted s p hops offset).tbase = { s.tbase with measAt := some (delayTime s p) } :=
  (congrArg (fun t : State => { t.tbase with measAt := some (delayTime t p) }) (measWritten_onlyRegs s p hops offset).back :)

theorem timePosted_regs (s : State) (p hops : Nat) (offset : Int) : SameRegsBut measRegs s (timePosted s p hops offset) :=
  fun a ha => (measWritten_onlyRegs s p hops offset).regs a ha

theorem timePosted_shows (s : State) (p hops : Nat) (offset : Int) :
    let t := timePosted s p hops offset
    t.pair TB_CHN_OFFSET_LO TB_CHN_OFFSET_HI = unsigned 64 offset ∧ t.reg TB_CHN_DELAY = BitVec.ofInt 32 (s.port p).delay
      ∧ t.bit TB_CHN_MEAS_STATUS 0 = true ∧ t.fld TB_CHN_MEAS_STATUS 1 3 = hops % 8 := by
  intro t
  let v := s.setPair TB_CHN_OFFSET_LO TB_CHN_OFFSET_HI (unsigned 64 offset)
  let w := v.setReg TB_CHN_DELAY (BitVec.ofInt 32 (s.port p).delay)
  have hdone : ∀ a, a ≠ TB_CHN_MEAS_STATUS → t.reg a = w.reg a := fun a ha => State.reg_setReg_ne w _ ha
  have hdelay : ∀ a, a ≠ TB_CHN_DELAY → w.reg a = v.reg a := fun a ha => State.reg_setReg_ne v _ ha
  refine ⟨?_, ?_, State.resultDone_shows w TB_CHN_MEAS_STATUS hops⟩
  · calc t.pair TB_CHN_OFFSET_LO TB_CHN_OFFSET_HI
      _ = v.pair TB_CHN_OFFSET_LO TB_CHN_OFFSET_HI := State.pair_congr
          ((hdone _ (by decide)).trans (hdelay _ (by decide))) ((hdone _ (by decide)).trans (hdelay _ (by decide)))
      _ = unsigned 64 offset := State.pair_setPair s (by decide) (unsigned_lt 64 offset)
  · exact (hdone _ (by decide)).trans (State.reg_setReg_same v _ _)

/-- What a posted measurement shows; the pulse of its event source touches none of it. -/
theorem postTime_shows (s : State) (p hops : Nat) (offset : Int) :
    let t := postTime s p hops offset
    t.pair TB_CHN_OFFSET_LO TB_CHN_OFFSET_HI = unsigned 64 offset ∧ t.reg TB_CHN_DELAY = BitVec.ofInt 32 (s.port p).delay
      ∧ t.bit TB_CHN_MEAS_STATUS 0 = true ∧ t.fld TB_CHN_MEAS_STATUS 1 3 = hops % 8 := by
  intro t
  obtain ⟨hoffset, hdelay, hvalid, hhops⟩ := timePosted_shows s p hops offset
  have hkept : ∀ a ∈ measRegs, t.reg a = (timePosted s p hops offset).reg a := fun a ha =>
    (postTime_evcOnly s p hops offset).regs a (by revert a; decide)
  have hstatus := hkept TB_CHN_MEAS_STATUS (by decide)
  exact ⟨(State.pair_congr (hkept _ (by decide)) (hkept _ (by decide))).trans hoffset, (hkept _ (by decide)).trans hdelay,
    (State.bit_congr hstatus 0).trans hvalid, (State.fld_congr hstatus 1 3).trans hhops⟩

/-- What a posted measurement leaves. -/
theorem postTime_keeps (s : State) (p hops : Nat) (offset : Int) :
    let t := postTime s p hops offset
    t.chain = s.chain ∧ t.tbase = { s.tbase with measAt := some (delayTime s p) }
      ∧ SameRegsBut (measRegs ++ EVC_MERGED :: evcRegs) s t
      ∧ { evcBack s t with regs := s.regs, tbase := s.tbase, srcs := s.srcs } = s := by
  have hpulse := postTime_evcOnly s p hops offset
  generalize postTime s p hops offset = t at hpulse ⊢
  refine ⟨hpulse.chain.trans (timePosted_chain s p hops offset), hpulse.tbase.trans (timePosted_tbase s p hops offset),
    (timePosted_regs s p hops offset).trans_sub hpulse.regs (List.subset_append_left _ _) (List.subset_append_right _ _),
    hpulse.back_under (timePosted_back s p hops offset)⟩

/-! ### A TIME message arrives (R78, R361, R385) -/

/-- The root's time that a TIME message brings, in 2⁻¹⁶ ns (R361). -/
def rootTime (u : State) (p : Nat) (m : Msg) : Int :=
  (m.hN 8 8 : Int) * 2 ^ 16 + (m.hN 16 2 : Int) + signed 64 (m.hN 18 8) + (u.port p).delay * 256

/-- The chain time hold set (R385). -/
def chainHeld (u : State) (root : Int) : State :=
  { u with chain := { u.chain with hold := some (BitVec.ofInt 128 (root * 2 ^ 48), u.island) } }

/-- Whether this unit follows a port of the chain (Table 3.15). -/
def followsPort (u : State) (p : Nat) : Bool :=
  u.ctl.core && u.bit TB_CHN_CTRL 0 && !u.bit TB_CHN_CTRL 1 && u.fld TB_CHN_CTRL 2 1 == p

theorem followsPort_iff {u : State} {p : Nat} : followsPort u p = true ↔
    u.ctl.core = true ∧ u.bit TB_CHN_CTRL 0 = true ∧ u.bit TB_CHN_CTRL 1 = false ∧ u.fld TB_CHN_CTRL 2 1 = p := by
  simp [followsPort, and_assoc]

section TimeMessage

variable {p : Fin 2} {m : Msg} {s u : State} {here : Bool} (i : BitVec 128) (hdel : deliver s p.val m = (u, here))
include hdel

theorem doTimeRx_other (h : here = false ∨ m.kind ≠ 2 ∨ m.bcast = false) : doTimeRx p m i s = u := by
  have hskip : (!here || m.kind != 2 || !m.bcast) = true := by
    rcases h with h | h | h
    · simp [h]
    · rw [bne_iff_ne.mpr h, Bool.or_true, Bool.true_or]
    · simp [h]
  simp only [doTimeRx, hdel, hskip, if_true]

theorem doTimeRx_time (hhere : here = true) (hkind : m.kind = 2) (hbcast : m.bcast = true) :
    doTimeRx p m i s = if followsPort u p.val = true then
      postTime (chainHeld u (rootTime u p.val m)) p.val (m.hops.toNat + 1)
        ((((i.toNat / 2 ^ 48 : Nat) : Int) - (rxLat u p.val * 256 : Nat) - rootTime u p.val m) / 2 ^ 16)
      else chainHeld u (rootTime u p.val m) := by
  have hgo : (!here || m.kind != 2 || !m.bcast) = false := by simp [hhere, hkind, hbcast]
  simp only [doTimeRx, hdel, hgo]
  rfl

end TimeMessage

/-- Settles O49: the delay exchange and the root's TIME are the branches of their commands; a TIME message sets the hold, and on the
followed port posts a measurement. -/
theorem chainTime : Obligations.ChainTime := by
  refine ⟨fun p s => ⟨fun hup hdue => ?_, fun h => ?_, fun t => rfl, fun t e => ⟨fun hup hreq => ?_, fun h => ?_⟩⟩,
    fun s => ⟨fun hroot hms => ?_, fun h => ?_⟩,
    fun p m i s u here hdel => ⟨fun h => ?_, fun hhere hkind hbcast => ⟨fun hnot => ?_, fun hfollows => ?_⟩⟩⟩
  · exact congrArg Host.Outcome.next (doPdlyReqSend_due hup (dueAgain_iff.mpr hdue))
  · exact congrArg Host.Outcome.next (doPdlyReqSend_idle (h.imp_right fun hnot => Bool.eq_false_iff.mpr (mt dueAgain_iff.mp hnot)))
  · exact congrArg Host.Outcome.next (doPdlyRespRx_answered t e hup hreq)
  · exact congrArg Host.Outcome.next (doPdlyRespRx_idle t e h)
  · exact congrArg Host.Outcome.next (doTimeSend_root hroot.1 (timeRoot_iff.mpr hroot.2) hms)
  · exact congrArg Host.Outcome.next (doTimeSend_idle (h.imp_left (mt (And.imp_right timeRoot_iff.mp))))
  · exact congrArg Host.Outcome.next (doTimeRx_other i hdel h)
  · have hexec := doTimeRx_time i hdel hhere hkind hbcast
    rw [if_neg (mt followsPort_iff.mp hnot)] at hexec
    exact congrArg Host.Outcome.next hexec
  · have hexec := doTimeRx_time i hdel hhere hkind hbcast
    rw [if_pos (followsPort_iff.mpr hfollows)] at hexec
    generalize hoff : (((i.toNat / 2 ^ 48 : Nat) : Int) - (rxLat u p.val * 256 : Nat) - rootTime u p.val m) / 2 ^ 16 = offset at hexec
    obtain ⟨hoffset, hdelay, hvalid, hhops⟩ := postTime_shows (chainHeld u (rootTime u p.val m)) p.val (m.hops.toNat + 1) offset
    obtain ⟨hchain, htbase, hregs, hback⟩ := postTime_keeps (chainHeld u (rootTime u p.val m)) p.val (m.hops.toNat + 1) offset
    exact ⟨_, congrArg Host.Outcome.next hexec, hchain, hoffset.trans (congrArg (unsigned 64) hoff.symm), hdelay, hvalid, hhops, htbase,
      hregs, congrArg (fun v : State => { v with chain := u.chain }) hback⟩

end Sys2Proof.Machine

/-!
PROOFS of the ingest family: the stream contexts (R107–R109, R126) — opening, parameters, closing.
-/

namespace Sys2Proof.Machine

/-! ### Completing at acceptance -/

/-- A command that changes nothing of the jobs completes in the state it would have left without becoming a job (R280, R289). -/
theorem soileNow_completes {s t : State} {q : Req} {op mask st : Nat} {body : BitVec 128} {run : State → State × Nat × BitVec 128}
    (h : Admitted s q mask) (hrun : run (accepted s q op) = (accepted t q op, st, body)) (hn : t.nextJob = s.nextJob) :
    soileNow s q op mask true run = done t q op st body := by
  rw [soileNow_admitted h, hrun, ← hn]
  exact finish_accepted t q op st body

/-- The same for one that reads memory, when the read does not wait (R309). -/
theorem soileRead_completes {s t : State} {q : Req} {op mask st : Nat} {body : BitVec 128} {run : State → State × Nat × BitVec 128}
    (h : Admitted s q mask) (hrun : run (accepted s q op) = (accepted t q op, st, body)) (hn : t.nextJob = s.nextJob) (hst : st ≠ stWaits) :
    soileRead s q op mask true run = done t q op st body := by
  rw [soileRead, soile_admitted h]
  dsimp only
  rw [hrun, if_neg hst, ← hn]
  exact finish_accepted t q op st body

/-! ### A read of host memory that succeeds (R279, R287) -/

theorem memDec_of_rangeRes_ok {s : State} {a : Access} {t : AccType} {ps : List (Nat × Nat)} (h : rangeRes s a t ps = .ok) :
    ∀ p ∈ ps, (memDec s a t p.1).1 = .ok := by
  unfold rangeRes at h
  extract_lets rs at h
  split at h
  · cases h
  · split at h
    · rename_i r hfind
      have hne := List.find?_some hfind
      rw [h] at hne
      exact absurd hne (by decide)
    · rename_i hfind
      intro p hp
      simpa using List.find?_eq_none.mp hfind _ (List.mem_map_of_mem hp)

/-- Where every part passes, nothing is recorded (R298). -/
theorem noteParts_of_ok {rz : Raiser} {s : State} {a : Access} {t : AccType} {ps : List (Nat × Nat)}
    (h : ∀ p ∈ ps, (memDec s a t p.1).1 = .ok) : noteParts rz a t s ps = s := by
  induction ps with
  | nil => rfl
  | cons p ps ih =>
    have hp := h p List.mem_cons_self
    simp only [noteParts, List.foldl_cons, hp]
    exact ih fun p' hp' => h p' (List.mem_cons_of_mem p hp')

/-- An engine's read that passes changes nothing. -/
theorem engRead_state_of_ok {s : State} {slot p addr n : Nat} (h : (engRead s slot p addr n).2.1 = .ok) : (engRead s slot p addr n).1 = s := by
  unfold engRead memRead at h ⊢
  dsimp only at h ⊢
  split at h
  · cases h
  · rename_i hheld
    rw [if_neg hheld]
    exact noteParts_of_ok (memDec_of_rangeRes_ok h)

/-- How a range is cut into parts does not depend on the jobs. -/
theorem partsOf_accepted (s : State) (q : Req) (op addr n : Nat) : partsOf (accepted s q op) addr n = partsOf s addr n := by
  unfold partsOf
  have hkey : ∀ a, partKey (accepted s q op) a = partKey s a := fun a => rfl
  induction pages addr n with
  | nil => rfl
  | cons p ps ih => simp only [joinPages, ih, hkey]

theorem engRead_result_accepted (s : State) (q : Req) (op slot p addr n : Nat) :
    (engRead (accepted s q op) slot p addr n).2 = (engRead s slot p addr n).2 := by
  unfold engRead memRead
  have hres : ∀ ps, rangeRes (accepted s q op) (engine slot p) .r ps = rangeRes s (engine slot p) .r ps := fun ps => rfl
  have hbytes : partBytes (accepted s q op) (engine slot p) .r = partBytes s (engine slot p) .r := rfl
  simp only [hres, partsOf_accepted, hbytes]
  split <;> rfl

/-- A read over PCIe writes registers alone, and is the same for the job that a command becomes. -/
theorem pcieRead_accepted (s : State) (q : Req) (op port : Nat) (h : HostRead) :
    pcieRead (accepted s q op) port h = (accepted (pcieRead s port h).1 q op, (pcieRead s port h).2)
      ∧ ∃ regs, (pcieRead s port h).1 = { s with regs := regs } := by
  have hup : linkUp (accepted s q op) port = linkUp s port := rfl
  unfold pcieRead
  rw [hup]
  generalize (if linkUp s port = true then h else .error) = answer
  cases answer with
  | bytes bs => exact ⟨rfl, _, rfl⟩
  | error => exact ⟨rfl, _, rfl⟩

theorem AccRes.status_eq_complete {r : AccRes} : r.status = stComplete ↔ r = .ok := by
  cases r <;> decide

/-- A read of host memory that succeeds writes registers alone, and is the same for the job that a command becomes. -/
theorem hostRead_accepted {s : State} {p addr n : Nat} {h : HostRead} (q : Req) (op : Nat) (hok : (hostRead s p addr n h).2.1 = stComplete) :
    hostRead (accepted s q op) p addr n h = (accepted (hostRead s p addr n h).1 q op, (hostRead s p addr n h).2)
      ∧ ∃ regs, (hostRead s p addr n h).1 = { s with regs := regs } := by
  have hon : onPcie (accepted s q op) p = onPcie s p := rfl
  have hport : ((accepted s q op).part p).port = (s.part p).port := rfl
  unfold hostRead at hok ⊢
  rw [hon, hport]
  cases hp : onPcie s p with
  | true =>
    obtain ⟨hread, hregs⟩ := pcieRead_accepted s q op (s.part p).port h
    simp only [if_true, hread]
    cases hanswer : (pcieRead s (s.part p).port h).2 with
    | some bs => exact ⟨rfl, hregs⟩
    | none => exact ⟨rfl, hregs⟩
  | false =>
    simp only [hp, Bool.false_eq_true, if_false, AccRes.status_eq_complete] at hok ⊢
    have hresult := engRead_result_accepted s q op 34 p addr n
    rw [engRead_state_of_ok hok, engRead_state_of_ok ((congrArg (·.1) hresult).trans hok), hresult]
    exact ⟨rfl, s.regs, rfl⟩

/-! ### STREAM_OPEN (R107, R109) -/

/-- A context as STREAM_OPEN leaves it. -/
def openedCtx (q : Req) (x : Ctx) : Ctx :=
  let y := { x with state := .opened, codec := q.u8 17, queue := [], params := [], paramNew := false, disc := false, rawPics := [],
                    rawBusy := [], rawNext := 0, sets := [] }
  if q.u8 17 = 2 then { y with rawW := q.u16 20, rawH := q.u16 22, rawFmt := q.u8 24, rawN := q.u8 25, rawBase := q.u40 32 } else y

theorem openedCtx_shows (q : Req) (x : Ctx) : (openedCtx q x).state = .opened ∧ (openedCtx q x).codec = q.u8 17
    ∧ (openedCtx q x).queue = [] ∧ (openedCtx q x).params = [] := by
  unfold openedCtx
  split <;> exact ⟨rfl, rfl, rfl, rfl⟩

theorem openedCtx_raw {q : Req} (x : Ctx) (h : q.u8 17 = 2) : (openedCtx q x).rawW = q.u16 20 ∧ (openedCtx q x).rawH = q.u16 22
    ∧ (openedCtx q x).rawFmt = q.u8 24 ∧ (openedCtx q x).rawN = q.u8 25 ∧ (openedCtx q x).rawBase = q.u40 32 := by
  unfold openedCtx
  rw [if_pos h]
  exact ⟨rfl, rfl, rfl, rfl, rfl⟩

/-- The ring of buffers that a STREAM_OPEN describes. -/
def describedRing (q : Req) : Ctx :=
  { rawW := q.u16 20, rawH := q.u16 22, rawFmt := q.u8 24, rawN := q.u8 25, rawBase := q.u40 32 }

/-- The codec and, of a RAW context, the ring lie in the ranges of R109. -/
def OpenFits (q : Req) (s : State) : Prop :=
  q.u8 17 ≤ 2 ∧ (q.u8 17 = 2 → q.u8 24 ≤ 3 ∧ 2 ≤ q.u8 25 ∧ q.u8 25 ≤ 8 ∧ q.u40 32 % 4096 = 0
    ∧ inChannel s (q.u40 32) (q.u8 25 * rawStride (describedRing q)) = true)

theorem streamOpen_opens {q : Req} {s : State} (hfits : OpenFits q s) (hown : ownsCtx s q.part.val (q.u8 16) = true)
    (hclosed : (s.ctx (q.u8 16)).state = .closed) :
    streamOpen q s = (s.setCtx (q.u8 16) (openedCtx q (s.ctx (q.u8 16))), stComplete, 0) := by
  obtain ⟨hcodec, hraw⟩ := hfits
  have hrange : (decide (2 < q.u8 17) || (decide (q.u8 17 = 2) && (decide (3 < q.u8 24) || decide (q.u8 25 < 2) || decide (8 < q.u8 25)
      || q.u40 32 % 4096 != 0 || !inChannel s (q.u40 32) (q.u8 25 * rawStride (describedRing q))))) = false := by
    by_cases h2 : q.u8 17 = 2
    · obtain ⟨hfmt, hmin, hmax, halign, hchan⟩ := hraw h2
      simp [h2, halign, hchan]
      omega
    · simp [h2, hcodec]
  unfold streamOpen
  unfold describedRing at hrange
  simp only [firstFail, hown, hclosed, hrange, bne_self_eq_false, Bool.not_true, Bool.false_eq_true, if_false]
  rfl

theorem exec_streamOpen {q : Req} {s : State} (h : Admitted s q maskStreamOpen) (hfits : OpenFits q s)
    (hown : ownsCtx s q.part.val (q.u8 16) = true) (hclosed : (s.ctx (q.u8 16)).state = .closed) :
    exec (.streamOpen q) s = .next (done (s.setCtx (q.u8 16) (openedCtx q (s.ctx (q.u8 16)))) q 0x0301 stComplete) :=
  congrArg Host.Outcome.next (soileNow_completes h (streamOpen_opens (s := accepted s q 0x0301) hfits hown hclosed) rfl)

/-! ### STREAM_PARAMS (R108) -/

/-- The bytes that a STREAM_PARAMS brings, and the state that its read leaves. -/
def paramBytes (q : Req) (s : State) : State × Nat × Bytes :=
  if q.u16 18 = 0 then (s, stComplete, []) else hostRead s q.part.val (q.u64 24) (q.u16 18) q.host

theorem paramBytes_none {q : Req} (s : State) (h : q.u16 18 = 0) : paramBytes q s = (s, stComplete, []) := if_pos h

theorem paramBytes_read {q : Req} (s : State) (h : 0 < q.u16 18) :
    paramBytes q s = hostRead s q.part.val (q.u64 24) (q.u16 18) q.host := if_neg h.ne'

theorem streamParams_stores {q : Req} {s t : State} {bs : Bytes} (hlen : q.u16 18 ≤ 4096) (hopen : (s.ctx (q.u8 16)).state ≠ .closed)
    (hown : ownsCtx s q.part.val (q.u8 16) = true) (hbytes : paramBytes q s = (t, stComplete, bs)) :
    streamParams q s =
      (t.setCtx (q.u8 16) { t.ctx (q.u8 16) with params := bs, paramNew := decide (0 < q.u16 18) }, stComplete, 0) := by
  have hchecks : firstFail [(decide (4096 < q.u16 18), stBadRange), (!ownsCtx s q.part.val (q.u8 16), stNotOwner),
      ((s.ctx (q.u8 16)).state == .closed, stBadRange)] = none := by
    simp [firstFail, hown, hlen, hopen]
  unfold paramBytes at hbytes
  simp only [streamParams, hchecks, hbytes, if_true]

section Params

variable {q : Req} {s : State} (h : Admitted s q (bodyMask [(16, 0, 8), (18, 0, 16), (24, 0, 64)])) (hlen : q.u16 18 ≤ 4096)
  (hopen : (s.ctx (q.u8 16)).state ≠ .closed) (hown : ownsCtx s q.part.val (q.u8 16) = true)
include h hlen hopen hown

theorem exec_streamParams_none (hzero : q.u16 18 = 0) : exec (.streamParams q) s =
    .next (done (s.setCtx (q.u8 16) { s.ctx (q.u8 16) with params := [], paramNew := false }) q 0x0302 stComplete) := by
  have hstored := streamParams_stores (s := accepted s q 0x0302) hlen hopen hown (paramBytes_none _ hzero)
  rw [hzero] at hstored
  exact congrArg Host.Outcome.next (soileRead_completes h hstored rfl (by decide))

theorem exec_streamParams_read {bs : Bytes} (hpos : 0 < q.u16 18)
    (hread : (hostRead s q.part.val (q.u64 24) (q.u16 18) q.host).2 = (stComplete, bs)) : exec (.streamParams q) s =
    .next (done ((hostRead s q.part.val (q.u64 24) (q.u16 18) q.host).1.setCtx (q.u8 16) { s.ctx (q.u8 16) with
      params := bs, paramNew := true }) q 0x0302 stComplete) := by
  obtain ⟨haccepted, regs, hregs⟩ := hostRead_accepted q 0x0302 (congrArg (·.1) hread)
  have hctx : (hostRead s q.part.val (q.u64 24) (q.u16 18) q.host).1.ctx (q.u8 16) = s.ctx (q.u8 16) := by
    rw [hregs]
    rfl
  have hjob : (hostRead s q.part.val (q.u64 24) (q.u16 18) q.host).1.nextJob = s.nextJob := by
    rw [hregs]
  rw [hread] at haccepted
  rw [← hctx]
  generalize (hostRead s q.part.val (q.u64 24) (q.u16 18) q.host).1 = t at haccepted hjob
  have hstored := streamParams_stores (s := accepted s q 0x0302) hlen hopen hown ((paramBytes_read _ hpos).trans haccepted)
  rw [decide_eq_true hpos] at hstored
  exact congrArg Host.Outcome.next (soileRead_completes h hstored hjob (by decide))

end Params

/-! ### STREAM_CLOSE (R107, R126) -/

/-- What holds of every default and every listed entry holds of what a table reads. -/
theorem tget_of_forall {α : Type} {P : α → Prop} {d : Nat → α} (hd : ∀ k, P (d k)) {t : Tbl α} (ht : ∀ x ∈ t, P x.2) (k : Nat) :
    P (tget d t k) := by
  induction t with
  | nil => exact hd k
  | cons x t ih =>
    rw [tget_cons]
    split
    · exact ht x List.mem_cons_self
    · exact ih fun y hy => ht y (List.mem_cons_of_mem x hy)

/-- No flow names context `c`. -/
def flowsUnbound (c : Nat) (flows : Tbl Flow) : Tbl Flow :=
  flows.map fun x => (x.1, if x.2.ctx = some c then { x.2 with ctx := none } else x.2)

theorem flowsUnbound_ctx {c : Nat} {flows : Tbl Flow} : ∀ x ∈ flowsUnbound c flows, x.2.ctx ≠ some c := by
  intro x hx
  obtain ⟨y, -, rfl⟩ := List.mem_map.mp hx
  dsimp only
  split
  · exact nofun
  · assumption

/-- The state in which a STREAM_CLOSE has closed context `c`. -/
def ctxClosed (s : State) (c : Nat) : State :=
  { s with flows := flowsUnbound c s.flows }.norm.setCtx c { s.ctx c with
    state := .closed, codec := 0, queue := [], params := [], paramNew := false, disc := false, rx := none, rawPics := [], sets := [] }

theorem ctxClosed_ctx (s : State) (c : Nat) :
    ((ctxClosed s c).ctx c).state = .closed ∧ ((ctxClosed s c).ctx c).queue = [] ∧ ((ctxClosed s c).ctx c).rx = none := by
  unfold ctxClosed
  rw [State.ctx_setCtx]
  exact ⟨rfl, rfl, rfl⟩

theorem ctxClosed_flow (s : State) (c f : Nat) : ((ctxClosed s c).flow f).ctx ≠ some c :=
  tget_of_forall (P := fun x : Flow => x.ctx ≠ some c) (fun _ => (Option.some_ne_none c).symm)
    (fun x hx => flowsUnbound_ctx x (List.mem_of_mem_filter hx)) f

theorem exec_streamClose {q : Req} {s : State} (h : Admitted s q (bodyMask [(16, 0, 8)])) (hown : ownsCtx s q.part.val (q.u8 16) = true)
    (hopened : (s.ctx (q.u8 16)).state = .opened) (hfree : ∀ x ∈ s.flows, x.2.state = .running → x.2.ctx ≠ some (q.u8 16)) :
    exec (.streamClose q) s = .next (done (ctxClosed s (q.u8 16)) q 0x0303 stComplete) := by
  have hown' : ownsCtx (accepted s q 0x0303) q.part.val (q.u8 16) = true := hown
  have hopened' : ((accepted s q 0x0303).ctx (q.u8 16)).state = .opened := hopened
  have hidle : (s.flows.any fun x => x.2.state == .running && x.2.ctx == some (q.u8 16)) = false := by
    simpa [List.any_eq_false] using fun f x => hfree (f, x)
  have hidle' : ((accepted s q 0x0303).flows.any fun x => x.2.state == .running && x.2.ctx == some (q.u8 16)) = false := hidle
  refine congrArg Host.Outcome.next (soileNow_completes h ?_ rfl)
  simp only [hown', hopened', hidle']
  rfl

/-- Settles O3: the three commands complete in the states that their equations name. -/
theorem streamCommands : Obligations.StreamCommands := by
  refine ⟨?opened, ?params, ?closed⟩
  case opened =>
    intro q s h hcodec x hraw hown hclosed
    refine ⟨_, exec_streamOpen h ⟨hcodec, hraw⟩ hown hclosed, ?_⟩
    rw [State.ctx_setCtx]
    obtain ⟨hstate, hcodec, hqueue, hparams⟩ := openedCtx_shows q (s.ctx (q.u8 16))
    exact ⟨hstate, hcodec, hqueue, hparams, openedCtx_raw _, fun c hc => State.ctx_setCtx_ne s _ hc, rfl⟩
  case params =>
    intro q s bs h hlen hopen hown
    exact ⟨exec_streamParams_none h hlen hopen hown, exec_streamParams_read h hlen hopen hown⟩
  case closed =>
    intro q s h hown hopened hfree
    obtain ⟨hstate, hqueue, hrx⟩ := ctxClosed_ctx s (q.u8 16)
    exact ⟨_, exec_streamClose h hown hopened hfree, hstate, hqueue, hrx, ctxClosed_flow s (q.u8 16), rfl, rfl, rfl⟩

end Sys2Proof.Machine

/-!
PROOFS of the ingest family: where FLOW_CFG parts from its statement (R94, R100) — a flow table that lists one flow twice, which the entry
into YIELD brings into canonical form halfway through the command.
-/

namespace Sys2Proof.Machine

/-- A FLOW_CFG of partition 0 for flow 0: a RAW stream of context 0 with flow 1 as its merge partner. -/
def pairingRequest : Req :=
  { part := 0, ring := 0, index := 0, cring := 0, barrier := false, tag := 7, host := .error
    body := 2 <<< 16 ||| 65536 <<< 128 ||| 1 <<< 208 ||| 100 <<< 224 ||| 1 <<< 256 }

/-- A part in RUN that marks MAP_INVALID for YIELD, flow 0 stopped with its mapping in force. Flow 1 is listed twice: FREE, which is
what it reads as, and below that as a running secondary flow of flow 0. -/
def flowListedTwice : State :=
  { ctl := { mode := .run, ring := true, core := true, coreEn := true, corePg := true, primeOk := true }
    parts := [(0, { state := .active, flow := ⟨0, 2⟩, ctx := ⟨0, 1⟩ })]
    flows := [(0, { state := .stopped, mapValid := true }), (1, {}), (1, { state := .running, partner := some 0, synced := true })]
    ctxs := [(0, { state := .opened })]
    regs := [(ERR_YIELD 1, 1), (PRT_SW_CP_CFG 0 0, 0x100)] }

theorem flowListedTwice_admitted : Admitted flowListedTwice pairingRequest maskFlowCfg := by decide +kernel

theorem pairingRequest_inRange : flowCfgBad flowListedTwice pairingRequest = false := by decide +kernel

theorem pairingRequest_names : pairingRequest.u16 16 = 0 ∧ pairingRequest.u16 48 = 1 ∧ pairingRequest.u16 50 = 0
    ∧ pairingRequest.u8 19 = 0 := by decide +kernel

/-- Flow 1 reads as FREE before the command. -/
theorem flowListedTwice_free : (flowListedTwice.flow 1).state = .free := rfl

/-- The MAP_INVALID of flow 0 takes the part into YIELD, whose entry drops the FREE listing of flow 1: the running one is read from then
on, and flow 0 takes over its sequence state. -/
theorem flowCfg_flowListedTwice : ((doFlowCfg pairingRequest flowListedTwice).flow 0).synced = true := by decide +kernel

/-- Refutes O2: nothing in the clause on FLOW_CFG keeps the flow table to one listing for each flow (the canonical form that Safety
defines is of memory and registers alone). In a state that lists flow 1 twice no running flow pairs with flow 0, and FLOW_CFG still
leaves flow 0 synchronised, where the clause has its sequence state forgotten. -/
theorem not_flows : ¬ Obligations.Flows := by
  intro h
  obtain ⟨-, ⟨hcfg, -, -⟩, -⟩ := h
  obtain ⟨hflow, hpartner, hctx, hmode⟩ := pairingRequest_names
  have hclause := hcfg pairingRequest flowListedTwice flowListedTwice_admitted pairingRequest_inRange
  simp only [hflow, hpartner, hctx, hmode] at hclause
  obtain ⟨t, hexec, hshows⟩ := hclause (by decide) (by decide) (by decide) (by decide) rfl (by decide) (fun _ => ⟨by decide, by decide⟩) rfl
    (by decide)
  obtain ⟨-, -, -, -, -, -, -, -, -, -, -, -, -, -, -, -, hforgotten, -⟩ := hshows
  have hunpaired : ∀ g, ¬ (some 1 = some g ∧ 0 < g ∧ (flowListedTwice.flow g).state = .running ∧ (flowListedTwice.flow g).partner = some 0) := by
    rintro g ⟨hg, -, hruns, -⟩
    rw [← Option.some.inj hg, flowListedTwice_free] at hruns
    cases hruns
  obtain ⟨-, hsynced⟩ := hforgotten hunpaired
  rw [← Host.Outcome.next.inj hexec] at hsynced
  exact absurd (flowCfg_flowListedTwice.symm.trans hsynced) (by decide)

end Sys2Proof.Machine

/-!
PROOFS of the decode family: where DEC_FLUSH parts from its statement (R127, R134) — a context's PrevRefFrameNum.
-/

namespace Sys2Proof.Machine

/-! ### What DEC_FLUSH leaves of PrevRefFrameNum -/

/-- Completing a job leaves the contexts alone. -/
theorem finish_ctxs (s : State) (id st : Nat) (body : BitVec 128) : (finish s id st body).ctxs = s.ctxs := by
  unfold finish
  split
  · rfl
  · split <;> rfl

theorem flushDone_ctxs (s : State) (id : Nat) : (flushDone s id).ctxs = s.ctxs := by
  unfold flushDone
  split
  · exact finish_ctxs s id _ _
  · rfl

theorem flushDone_ctx (s : State) (id ci : Nat) : (flushDone s id).ctx ci = s.ctx ci := by
  rw [State.ctx, State.ctx, flushDone_ctxs]

/-- DEC_FLUSH forgets the FrameNum of the last reference, whether or not a picture is in decode. -/
theorem decFlush_prevFn (s : State) (id ci : Nat) : ((decFlush s id ci).ctx ci).prevFn = none := by
  unfold decFlush
  extract_lets u c v flushed
  split
  · rw [State.ctx_setCtx]
  · rw [flushDone_ctx, State.ctx_setCtx]

/-- The end of a request of the arbiter leaves the contexts alone (R438). -/
theorem pwrEnd_ctx (s : State) (id ci : Nat) : (pwrEnd s id).ctx ci = s.ctx ci := by
  unfold pwrEnd
  split <;> rfl

/-- Giving up a choice keeps the FrameNum of the last reference (R119). -/
theorem unchoose_prevFn (s : State) (ci : Nat) : ((unchoose s ci).ctx ci).prevFn = (s.ctx ci).prevFn := by
  unfold unchoose
  extract_lets c
  have hgiven : ((s.setCtx ci { c with chosen := none }).ctx ci).prevFn = c.prevFn := by rw [State.ctx_setCtx]
  split
  · split
    · rw [pwrEnd_ctx, hgiven]
    · exact hgiven
  · rfl

/-- A DEC_FLUSH that passes its checks, of a context that does not drain, flushes it as its job (R127, R143). -/
theorem exec_decFlush {q : Req} {s : State} (h : Admitted s q (bodyMask [(16, 0, 8)])) (hown : ownsCtx s q.part.val (q.u8 16) = true)
    (hclosed : (s.ctx (q.u8 16)).state ≠ .closed) (hopened : (s.ctx (q.u8 16)).state ≠ .opened)
    (hdraining : (s.ctx (q.u8 16)).state ≠ .draining) :
    exec (.decFlush q) s = .next (decFlush (accepted s q 0x0403) s.nextJob (q.u8 16)) := by
  have hchecks : firstFail [(!ownsCtx s q.part.val (q.u8 16), stNotOwner),
      ((s.ctx (q.u8 16)).state == .closed || (s.ctx (q.u8 16)).state == .opened, stNotBound)] = none := by
    simp [firstFail, hown, hclosed, hopened]
  have hrun : doDecFlush q s = decFlush (accepted s q 0x0403) s.nextJob (q.u8 16) := by
    rw [doDecFlush, decCtl, soile_admitted h]
    exact (guardJob_pass (s := accepted s q 0x0403) hchecks).trans (if_neg hdraining)
  exact congrArg Host.Outcome.next hrun

/-- A command's completion leaves the contexts alone. -/
theorem done_ctx (s : State) (q : Req) (op st : Nat) (body : BitVec 128) (ci : Nat) : (done s q op st body).ctx ci = s.ctx ci := rfl

/-! ### A context that has decoded a picture -/

/-- A DEC_FLUSH of partition 0 for context 0. -/
def flushRequest : Req :=
  { part := 0, ring := 0, index := 0, cring := 0, barrier := false, tag := 7, host := .error, body := 0 }

/-- A part in RUN with the H.264 context 0 bound to core 0: it has decoded the reference picture of frame_num 7, and no picture is in
decode. -/
def decodedFrame7 : State :=
  { ctl := { mode := .run, ring := true, core := true, coreEn := true, corePg := true, primeOk := true }
    parts := [(0, { state := .active, ctx := ⟨0, 1⟩ })]
    ctxs := [(0, { state := .decoding, cores := 1, charge := 497664000, rateR := 497664000, poolN := 3, started := true, prevFn := some 7 })]
    regs := [(PRT_SW_CP_CFG 0 0, 0x100)] }

theorem decodedFrame7_admitted : Admitted decodedFrame7 flushRequest (bodyMask [(16, 0, 8)]) := by decide +kernel

theorem decodedFrame7_owned : ownsCtx decodedFrame7 flushRequest.part.val (flushRequest.u8 16) = true := by decide +kernel

theorem decodedFrame7_prevFn : (decodedFrame7.ctx (flushRequest.u8 16)).prevFn = some 7 := by decide +kernel

/-- Refutes O5 (R127, R134): the clause on a DEC_FLUSH without a picture in decode names the whole next state, and in it the context keeps
the FrameNum of its last reference (PrevRefFrameNum); the command forgets it. The two differ for an H.264 context that has decoded a
reference of frame_num 7. -/
theorem not_decoding : ¬ Obligations.Decoding := by
  intro h
  obtain ⟨⟨-, hcontrol⟩, -⟩ := h
  obtain ⟨-, hbound⟩ := hcontrol flushRequest decodedFrame7 decodedFrame7_admitted decodedFrame7_owned (by decide +kernel) (by decide +kernel)
  obtain ⟨hidle, -⟩ := hbound (by decide +kernel)
  have hexec := exec_decFlush decodedFrame7_admitted decodedFrame7_owned (by decide +kernel) (by decide +kernel) (by decide +kernel)
  have hstate := Host.Outcome.next.inj (hexec.symm.trans (hidle (by decide +kernel)))
  have hkept := congrArg (fun t : State => (t.ctx (flushRequest.u8 16)).prevFn) hstate
  simp only [decFlush_prevFn, done_ctx, State.ctx_setCtx, unchoose_prevFn, decodedFrame7_prevFn] at hkept
  exact Option.some_ne_none 7 hkept.symm

end Sys2Proof.Machine

/-!
PROOFS of the scaling family: where the end of an IPP_RUN parts from its statement (R156, R157, R288) — a job that its own refused source
fetch takes into YIELD.
-/

namespace Sys2Proof.Machine

/-! ### The end of an IPP_RUN -/

/-- The end of an IPP_RUN looks its job up once the refused source fetches are recorded (R306). -/
theorem exec_ippComplete_run {i : Fin 16} {s : State} {w : IppWork} {j j' : Job} {id : Nat} (hw : s.ippW i.val = some w)
    (hbegun : w.begun = true) (hid : w.job = some id) (hj : s.job id = some j) (hheld : ippHeld s j.req.part.val w = false)
    (hj' : (noteSource s j.req.part.val w).job id = some j') : exec (.ippComplete i) s =
    .next (releaseInst (runEnd (noteSource s j.req.part.val w) j.req.part.val j' w) i.val w) := by
  refine congrArg Host.Outcome.next ?_
  simp [doIppComplete, hw, hbegun, hid, hj, hheld, hj']

/-- An IPP_RUN that stops after `rows` tile rows of its target: it writes no fence (R157). -/
def stoppedRun (s : State) (p : Nat) (j : Job) (w : IppWork) (rows : Nat) : State :=
  let d := (List.range rows).foldl (fun d ty => if d.res = .ok then ippTileRow p w d ty else d) ⟨s.draw, 0, [], .ok⟩
  let t := drainRecords d.s
  surfWritten (finish t j.id (if d.res != .ok then d.res.status else stAborted)
    (cplBody [(16, 4, w.seq.toNat), (20, 2, d.taints), (24, 8, outputNs t w d.times)])) w.target

theorem AccRes.status_stopped_ne_complete (r : AccRes) : (if r != .ok then r.status else stAborted) ≠ stComplete := by
  cases r <;> decide

theorem runEnd_stops {j : Job} (s : State) (p : Nat) (w : IppWork) (h : j.stops = true) :
    runEnd s p j w = stoppedRun s p j w (Config.unstated s.free % ((s.surf w.target).ty + 1)) := by
  unfold runEnd stoppedRun
  simp only [h, if_true, AccRes.status_stopped_ne_complete, decide_false, Bool.false_and, Bool.false_eq_true, if_false]

/-! ### A picture whose source is refused -/

/-- An IPP_RUN of partition 0 from surface 2 to surface 1 with a fence in the host's memory. -/
def fencedRun : Job :=
  { id := 3
    req := { part := 0, ring := 0, index := 0, cring := 0, barrier := false, tag := 7, host := .error
             body := 6 <<< 8 ||| 1 <<< 16 ||| 1 <<< 32 ||| 2 <<< 48 ||| 0x200000 <<< 192 ||| 9 <<< 256 }
    opcode := 0x0501, running := true, n := 0, m := 0, v := 0, abortBy := [], snap := [], order := 0 }

def fencedWork : IppWork :=
  { prm := runPrm fencedRun.req, src := .surface 2, follow := none, job := some 3, target := 1, seq := 1, begun := true }

/-- A part in RUN that marks GATE_VIOLATION for YIELD, the run begun on IPP 0: memory gate 0 lets partition 0 reach the target and
not the source. -/
def sourceRefused : State :=
  { ctl := { mode := .run, ring := true, core := true, coreEn := true, corePg := true, primeOk := true }
    parts := [(0, { state := .active, surf := ⟨0, 3⟩ })]
    surfs := [(1, { created := true, base := 0x100000000, pitch := 256, w := 16, h := 16, fmt := 4 }),
              (2, { created := true, reg := true, base := 0x180000000, pitch := 256, w := 16, h := 16, fmt := 4 })]
    jobs := [fencedRun], nextJob := 4
    ipp := [(0, some fencedWork)]
    regs := [(SYS_MEM_SIZE 0, 0x80004000), (HIF_HP_STATUS 0, 1), (MG_CTRL 0 0, 1), (MG_BASE_ACT 0 0, 0x1F000000),
             (MG_ATTR_ACT 0 0, 0x1F1F1F), (MG_PART_ACT 0 0, 1), (ERR_YIELD 0, 0x20)] }

theorem sourceRefused_unheld : ippHeld sourceRefused 0 fencedWork = false := by decide +kernel

/-- The state in which the picture ends: the refused fetches took the part into YIELD. -/
def fetchesRecorded : State := noteSource sourceRefused 0 fencedWork

/-- The job that runs goes on as a yielded one (R288). -/
theorem fetchesRecorded_job : fetchesRecorded.job 3 = some { fencedRun with yielded := true } := by decide +kernel

/-- The target has one row of tiles. -/
theorem fetchesRecorded_rows : (fetchesRecorded.surf fencedWork.target).ty = 1 := by decide +kernel

/-- Wherever the yielded run stops, nothing leaves the part. -/
theorem yieldedRun_emits_nothing : ∀ rows < 2,
    (releaseInst (stoppedRun fetchesRecorded 0 { fencedRun with yielded := true } fencedWork rows) 0 fencedWork).outbox = [] := by
  decide +kernel

/-- The run as it was before the part yielded writes its fence to the host. -/
theorem unyieldedRun_emits_fence : (releaseInst (runEnd fetchesRecorded 0 fencedRun fencedWork) 0 fencedWork).outbox ≠ [] := by
  decide +kernel

/-- Refutes O6 (R157, R288): the clause on the end of an IPP_RUN ends the job as it stood before the picture's refused source fetches are
recorded. Where such a fetch takes the part into YIELD the job has yielded by then, and stops: it writes no fence, where the clause has
the fence written to the host. -/
theorem not_pixelPaths : ¬ Obligations.PixelPaths := by
  intro h
  obtain ⟨-, -, -, hends⟩ := h
  obtain ⟨hrun, -⟩ := hends 0 sourceRefused fencedWork rfl rfl
  obtain ⟨t, hclause, -, ht⟩ := hrun fencedRun 3 rfl rfl sourceRefused_unheld
  have hexec := exec_ippComplete_run (i := 0) (s := sourceRefused) rfl rfl rfl rfl sourceRefused_unheld fetchesRecorded_job
  have hstops : ({ fencedRun with yielded := true } : Job).stops = true := rfl
  have hsame := ht.symm.trans (Host.Outcome.next.inj (hclause.symm.trans hexec))
  have hrows := Nat.mod_lt (Config.unstated fetchesRecorded.free) (y := 2) (by decide)
  apply unyieldedRun_emits_fence
  calc (releaseInst (runEnd fetchesRecorded 0 fencedRun fencedWork) 0 fencedWork).outbox
      = (releaseInst (runEnd fetchesRecorded 0 { fencedRun with yielded := true } fencedWork) 0 fencedWork).outbox :=
        congrArg State.outbox hsame
    _ = [] := by
        rw [runEnd_stops _ _ _ hstops, fetchesRecorded_rows]
        exact yieldedRun_emits_nothing _ hrows

end Sys2Proof.Machine

/-!
PROOFS of the encode family: the session commands (R164, R165, R169, R178, R179), the start of a picture (R165, R177) and its end
(R166, R172–R175).
-/

namespace Sys2Proof.Machine

/-! ### ENC_OPEN (R164, R179) -/

/-- What ENC_OPEN asks of the head that a follow session takes its frames from (R164, R165). -/
def FollowsHead (q : Req) (s : State) (e : Enc) : Prop :=
  e.follow = true → e.head < s.nHeads ∧ ownsHead s q.part.val e.head = true ∧ (s.head e.head).hAct = e.w ∧ (s.head e.head).vAct = e.h
    ∧ ((s.head e.head).wbOn = true → (s.surf (s.head e.head).wbA).fmt ≤ 1)

/-- Such a head passes the three checks of ENC_OPEN on it. -/
theorem FollowsHead.passes {q : Req} {s : State} {e : Enc} (h : FollowsHead q s e) :
    (e.follow && decide (s.nHeads ≤ e.head)) = false ∧ (e.follow && !ownsHead s q.part.val e.head) = false
    ∧ (e.follow && ((s.head e.head).hAct != e.w || (s.head e.head).vAct != e.h
      || ((s.head e.head).wbOn && decide (1 < (s.surf (s.head e.head).wbA).fmt)))) = false := by
  cases hf : e.follow with
  | false => exact ⟨rfl, rfl, rfl⟩
  | true =>
    obtain ⟨hhead, hown, hw, hh, hfmt⟩ := h hf
    simp [hhead, hown, hw, hh]
    exact hfmt

/-- A session as ENC_OPEN leaves it in the place of `o`: the counts of the place stay. -/
def openedEnc (q : Req) (o : Enc) : Enc :=
  { encOf q with nBudget := o.nBudget, nSkip := o.nSkip, nDropped := o.nDropped, nPassed := o.nPassed }

theorem encOpen_opens {q : Req} {s : State} (hrange : encOpenBad q = false) (hown : ownsSess s q.part.val (q.u8 16) = true)
    (hhead : FollowsHead q s (encOf q)) (hclosed : (s.enc (q.u8 16)).opened = false)
    (hcores : ∀ i ∈ encCores (encOf q), i < s.nEnc ∧ encLoad s i + (encOf q).charge ≤ 497664000)
    (hquota : encUse s q.part.val + encRate (encOf q) ≤ (s.part q.part.val).qEnc) :
    encOpen q s = (s.setEnc (q.u8 16) (openedEnc q (s.enc (q.u8 16))), stComplete,
      cplBody [(16, 4, (encOf q).charge), (20, 2, encRows (encOf q))]) := by
  obtain ⟨hpresent, howned, hshape⟩ := hhead.passes
  have hfit : ((encCores (encOf q)).any fun i => decide (497664000 < encLoad s i + (encOf q).charge)) = false := by
    simp only [List.any_eq_false, decide_eq_true_eq, Nat.not_lt]
    exact fun i hi => (hcores i hi).2
  have hexist : ((encCores (encOf q)).any fun i => decide (s.nEnc ≤ i)) = false := by
    simp only [List.any_eq_false, decide_eq_true_eq, Nat.not_le]
    exact fun i hi => (hcores i hi).1
  have hrate := decide_eq_false (Nat.not_lt.mpr hquota)
  unfold encOpen
  simp only [firstFail, hrange, hpresent, hown, howned, hclosed, hfit, hrate, hexist, hshape, Bool.not_true, Bool.or_false,
    Bool.false_eq_true, if_false]
  rfl

theorem exec_encOpen {q : Req} {s : State} (h : Admitted s q maskEncOpen) (hrange : encOpenBad q = false)
    (hown : ownsSess s q.part.val (q.u8 16) = true) (hhead : FollowsHead q s (encOf q)) (hclosed : (s.enc (q.u8 16)).opened = false)
    (hcores : ∀ i ∈ encCores (encOf q), i < s.nEnc ∧ encLoad s i + (encOf q).charge ≤ 497664000)
    (hquota : encUse s q.part.val + encRate (encOf q) ≤ (s.part q.part.val).qEnc) :
    exec (.encOpen q) s = .next (done (s.setEnc (q.u8 16) (openedEnc q (s.enc (q.u8 16)))) q 0x0601 stComplete
      (cplBody [(16, 4, (encOf q).charge), (20, 2, encRows (encOf q))])) :=
  congrArg Host.Outcome.next
    (soileNow_completes h (encOpen_opens (s := accepted s q 0x0601) hrange hown hhead hclosed hcores hquota) rfl)

/-! ### ENC_PIC (R165) -/

theorem exec_encPic {q : Req} {s : State} (h : Admitted s q (bodyMask [(16, 0, 8), (17, 0, 1), (18, 0, 12), (20, 0, 32)]))
    (hrange : q.u8 16 ≤ 31) (hsess : ownsSess s q.part.val (q.u8 16) = true) (hsurf : ownsSurf s q.part.val (q.u16 18) = true)
    (hopen : (s.enc (q.u8 16)).opened = true) (hmode : (s.enc (q.u8 16)).follow = false) (hreg : (s.surf (q.u16 18)).reg = true)
    (hw : (s.surf (q.u16 18)).w = (s.enc (q.u8 16)).w) (hh : (s.surf (q.u16 18)).h = (s.enc (q.u8 16)).h)
    (hfmt : (s.surf (q.u16 18)).fmt ≤ 1) : exec (.encPic q) s = .next (accepted s q 0x0602) := by
  have hchecks : firstFail [(decide (31 < q.u8 16), stBadRange),
      (!ownsSess s q.part.val (q.u8 16) || !ownsSurf s q.part.val (q.u16 18), stNotOwner), (!(s.enc (q.u8 16)).opened, stNotOpen),
      ((s.enc (q.u8 16)).follow, stBadMode), (!(s.surf (q.u16 18)).reg, stNotTracked),
      ((s.surf (q.u16 18)).w != (s.enc (q.u8 16)).w || (s.surf (q.u16 18)).h != (s.enc (q.u8 16)).h
        || decide (1 < (s.surf (q.u16 18)).fmt), stBadFormat)] = none := by
    simp [firstFail, Nat.not_lt.mpr hrange, hsess, hsurf, hopen, hmode, hreg, hw, hh, Nat.not_lt.mpr hfmt]
  have hrun : doEncPic q s = accepted s q 0x0602 := by
    rw [doEncPic, soile_admitted h]
    exact guardJob_pass (s := accepted s q 0x0602) hchecks
  exact congrArg Host.Outcome.next hrun

/-! ### The commands of an open session (R169, R178) -/

/-- The state in which an ENC_CLOSE waits in its session. -/
def closeWaits (q : Req) (s : State) : State :=
  (accepted s q 0x0604).setEnc (q.u8 16) { s.enc (q.u8 16) with closing := (s.enc (q.u8 16)).closing ++ [s.nextJob] }

/-- The state in which an ENC_CLOSE without a picture in progress leaves the part. -/
def closedNow (q : Req) (s : State) : State := encClosed (pwrEnd (closeWaits q s) (pwrEnc (q.u8 16))) (q.u8 16)

section Session

variable {q : Req} {s : State} (hrange : q.u8 16 ≤ 31) (hown : ownsSess s q.part.val (q.u8 16) = true)
  (hopen : (s.enc (q.u8 16)).opened = true)
include hrange hown hopen

theorem encChecks_pass : encChecks q s = none := by
  simp [encChecks, firstFail, Nat.not_lt.mpr hrange, hown, hopen]

theorem exec_encRefresh (h : Admitted s q (bodyMask [(16, 0, 8), (17, 0, 1)])) :
    exec (.encRefresh q) s = .next (done (s.setEnc (q.u8 16)
      (if q.bit 17 0 then { s.enc (q.u8 16) with idrNext := true } else { s.enc (q.u8 16) with restart := true })) q 0x0603 stComplete) := by
  have hchecks : encChecks q (accepted s q 0x0603) = none := encChecks_pass hrange hown hopen
  refine congrArg Host.Outcome.next (soileNow_completes h ?_ rfl)
  simp only [hchecks]
  rfl

/-- An ENC_CLOSE waits for the picture in progress; without one the session ends. -/
theorem exec_encClose (h : Admitted s q (bodyMask [(16, 0, 8)])) : exec (.encClose q) s =
    .next (if (s.enc (q.u8 16)).work.isSome then closeWaits q s else closedNow q s) := by
  have hchecks : encChecks q (accepted s q 0x0604) = none := encChecks_pass hrange hown hopen
  have hwork : ((closeWaits q s).enc (q.u8 16)).work = (s.enc (q.u8 16)).work := by
    rw [closeWaits, State.enc_setEnc]
  refine congrArg Host.Outcome.next ?_
  rw [doEncClose, soile_admitted h]
  simp only [hchecks]
  rw [← hwork]
  rfl

end Session

/-! ### The end of a session (R178) -/

/-- Two states that store the same sessions, memory and registers. -/
def SameSessions (s t : State) : Prop := t.encs = s.encs ∧ t.mem = s.mem ∧ t.regs = s.regs

theorem SameSessions.trans {s t u : State} (h : SameSessions s t) (h' : SameSessions t u) : SameSessions s u := by
  obtain ⟨hencs, hmem, hregs⟩ := h
  obtain ⟨hencs', hmem', hregs'⟩ := h'
  exact ⟨hencs'.trans hencs, hmem'.trans hmem, hregs'.trans hregs⟩

/-- Completing a job writes the jobs and the completions alone. -/
theorem finish_sameSessions (s : State) (id st : Nat) (body : BitVec 128) : SameSessions s (finish s id st body) := by
  unfold finish
  split
  · exact ⟨rfl, rfl, rfl⟩
  · split <;> exact ⟨rfl, rfl, rfl⟩

theorem foldl_finish_sameSessions {α : Type} (id : α → Nat) (st : Nat) (body : BitVec 128) (xs : List α) (s : State) :
    SameSessions s (xs.foldl (fun t x => finish t (id x) st body) s) := by
  induction xs generalizing s with
  | nil => exact ⟨rfl, rfl, rfl⟩
  | cons x xs ih => exact (finish_sameSessions s (id x) st body).trans (ih _)

/-- The end of a request of the arbiter writes what the arbiter keeps alone (R438). -/
theorem pwrEnd_sameSessions (s : State) (id : Nat) : SameSessions s (pwrEnd s id) := by
  unfold pwrEnd
  split <;> exact ⟨rfl, rfl, rfl⟩

theorem pwrEnd_jobs_cpls (s : State) (id : Nat) : (pwrEnd s id).jobs = s.jobs ∧ (pwrEnd s id).cpls = s.cpls := by
  unfold pwrEnd
  split <;> exact ⟨rfl, rfl⟩

/-- The entry of a session that has ended. -/
def endedEnc (e : Enc) : Enc := { e with opened := false, due := none, charge := 0, closing := [] }

/-- Session `k` freed, the completions of its end still to come. -/
def sessionFreed (s : State) (k : Nat) : State :=
  let t := s.setEnc k (endedEnc (s.enc k))
  if (s.enc k).follow then wbRelease t (s.enc k).head else t

/-- Freeing a session writes, beside its entry, what its head holds alone. -/
theorem sessionFreed_sameSessions (s : State) (k : Nat) : SameSessions (s.setEnc k (endedEnc (s.enc k))) (sessionFreed s k) := by
  unfold sessionFreed
  split <;> exact ⟨rfl, rfl, rfl⟩

theorem sessionFreed_jobs_cpls (s : State) (k : Nat) : (sessionFreed s k).jobs = s.jobs ∧ (sessionFreed s k).cpls = s.cpls := by
  unfold sessionFreed
  split <;> exact ⟨rfl, rfl⟩

/-- The ENC_PIC jobs of a session that wait. -/
def waitingPics (s : State) (k : Nat) : List Job := s.jobs.filter fun j => j.opcode == 0x0602 && j.req.u8 16 == k

/-- A session's end frees it, refuses its waiting pictures and completes what closes it. -/
theorem encClosed_eq (s : State) (k : Nat) : encClosed s k =
    (s.enc k).closing.foldl (fun t id => finish t id stComplete (cplBody [(16, 4, (s.enc k).picSeq.toNat)]))
      ((waitingPics (sessionFreed s k) k).foldl (fun t j => finish t j.id stNotOpen) (sessionFreed s k)) := rfl

theorem encClosed_sameSessions (s : State) (k : Nat) : SameSessions (s.setEnc k (endedEnc (s.enc k))) (encClosed s k) := by
  rw [encClosed_eq]
  exact (sessionFreed_sameSessions s k).trans
    ((foldl_finish_sameSessions Job.id stNotOpen 0 _ _).trans (foldl_finish_sameSessions id stComplete _ _ _))

/-- A session without waiting pictures that one job closes ends with that job's completion. -/
theorem encClosed_alone {s : State} {k job : Nat} (hpics : waitingPics s k = []) (hclosing : (s.enc k).closing = [job]) :
    encClosed s k = finish (sessionFreed s k) job stComplete (cplBody [(16, 4, (s.enc k).picSeq.toNat)]) := by
  have hfreed : waitingPics (sessionFreed s k) k = [] := by
    rw [waitingPics, (sessionFreed_jobs_cpls s k).1]
    exact hpics
  rw [encClosed_eq, hfreed, hclosing]
  rfl

/-- The session as its end finds it. -/
theorem enc_pwrEnd_closeWaits (q : Req) (s : State) : (pwrEnd (closeWaits q s) (pwrEnc (q.u8 16))).enc (q.u8 16) =
    { s.enc (q.u8 16) with closing := (s.enc (q.u8 16)).closing ++ [s.nextJob] } := by
  rw [State.enc, (pwrEnd_sameSessions _ _).1]
  exact State.enc_setEnc _ _ _

theorem closedNow_enc (q : Req) (s : State) : (closedNow q s).enc (q.u8 16) = endedEnc (s.enc (q.u8 16)) := by
  rw [State.enc, closedNow, (encClosed_sameSessions _ _).1, enc_pwrEnd_closeWaits]
  exact State.enc_setEnc _ _ _

theorem closedNow_mem_regs (q : Req) (s : State) : (closedNow q s).mem = s.mem ∧ (closedNow q s).regs = s.regs := by
  obtain ⟨-, hmem, hregs⟩ := encClosed_sameSessions (pwrEnd (closeWaits q s) (pwrEnc (q.u8 16))) (q.u8 16)
  obtain ⟨-, hmem', hregs'⟩ := pwrEnd_sameSessions (closeWaits q s) (pwrEnc (q.u8 16))
  exact ⟨hmem.trans hmem', hregs.trans hregs'⟩

theorem closedNow_cpls {q : Req} {s : State} (hclosing : (s.enc (q.u8 16)).closing = [])
    (hpics : ∀ j ∈ s.jobs, j.opcode = 0x0602 → j.req.u8 16 ≠ q.u8 16) :
    (closedNow q s).cpls = (done s q 0x0604 stComplete (cplBody [(16, 4, (s.enc (q.u8 16)).picSeq.toNat)])).cpls := by
  have hsession := enc_pwrEnd_closeWaits q s
  obtain ⟨hjobs, hcpls⟩ := pwrEnd_jobs_cpls (closeWaits q s) (pwrEnc (q.u8 16))
  unfold closedNow
  generalize pwrEnd (closeWaits q s) (pwrEnc (q.u8 16)) = t at hsession hjobs hcpls
  have hnone : waitingPics t (q.u8 16) = [] := by
    rw [waitingPics, hjobs, List.filter_eq_nil_iff]
    intro j hj
    simp only [closeWaits, accepted, State.setEnc_jobs, List.mem_append, List.mem_singleton] at hj
    rcases hj with hj | rfl
    · simpa using hpics j hj
    · exact Bool.false_ne_true
  have hone : (t.enc (q.u8 16)).closing = [s.nextJob] := by rw [hsession, hclosing]; rfl
  obtain ⟨hfreedJobs, hfreedCpls⟩ := sessionFreed_jobs_cpls t (q.u8 16)
  rw [encClosed_alone hnone hone, finish_on _ _ (hfreedJobs.trans hjobs), hsession]
  simp only [hfreedCpls, hcpls]
  rfl

/-! ### The start of a picture (R165, R177) -/

section Start

variable {k : Fin 32} {s : State} (hcore : s.ctl.core = true) (hmode : s.ctl.mode ≠ .yield) (hopen : (s.enc k.val).opened = true)
  (hidle : (s.enc k.val).work = none) (hclosing : (s.enc k.val).closing = [])
  (hpicture : (if (s.enc k.val).follow then (s.enc k.val).due.isSome else (encJob s k.val).isSome) = true)
include hcore hmode hopen hidle hclosing hpicture

/-- A session with a picture to code begins it once granted, else asks for its tokens while its cores are free. -/
theorem exec_encPictureStart : exec (.encPictureStart k) s =
    .next (if pwrReady s (pwrEnc k.val) then encBegin s k.val
      else if encBlocked s k.val then s else pwrRequest s (pwrEnc k.val) (24 * (encCores (s.enc k.val)).length)) := by
  refine congrArg Host.Outcome.next ?_
  simp [doEncPictureStart, hcore, hmode, hopen, hidle, hclosing, hpicture]

theorem exec_encPictureStart_requests (hwaits : pwrReady s (pwrEnc k.val) = false) (hfree : encBlocked s k.val = false) :
    exec (.encPictureStart k) s = .next (pwrRequest s (pwrEnc k.val) (24 * (encCores (s.enc k.val)).length)) := by
  rw [exec_encPictureStart hcore hmode hopen hidle hclosing hpicture, hwaits, hfree]
  rfl

theorem exec_encPictureStart_begins (hready : pwrReady s (pwrEnc k.val) = true) :
    exec (.encPictureStart k) s = .next (encBegin s k.val) := by
  rw [exec_encPictureStart hcore hmode hopen hidle hclosing hpicture, hready]
  rfl

end Start

/-- The work of an ENC_PIC. -/
def encJobWork (s : State) (e : Enc) (j : Job) : EncWork :=
  let fr := picFresh s e (j.req.u16 18)
  ⟨some j.id, j.req.u16 18, e.idrNext || j.req.bit 17 0, fr.2, fr.1, nextK e, some (signed 16 (j.req.u16 20), signed 16 (j.req.u16 22))⟩

theorem encBegin_job {s : State} {k : Nat} {j : Job} (hmode : (s.enc k).follow = false) (hjob : encJob s k = some j) :
    encBegin s k = (s.modJob j.id fun j => { j with running := true }).setEnc k (encTake (s.enc k) (encJobWork s (s.enc k) j)) := by
  unfold encBegin
  simp only [hmode, hjob, Bool.false_eq_true, if_false]
  rfl

theorem encBegin_frame {s : State} {k buf boundary : Nat} {stale : List Nat} {live : Bool} {t : BitVec 32}
    (hmode : (s.enc k).follow = true) (hdue : (s.enc k).due = some (buf, stale, live, some t, boundary)) :
    encBegin s k = s.draw.setEnc k (encTake (s.enc k)
      ⟨none, wbSurf (s.head (s.enc k).head) (buf == 1), (s.enc k).idrNext, captureAt s t, stale, nextK (s.enc k), none⟩) := by
  unfold encBegin
  simp only [hmode, hdue, if_true]

/-! ### The end of a picture (R166, R172–R175) -/

section Complete

variable {k : Fin 32} {pic : CodedPic} {s : State} {w : EncWork} (hwork : (s.enc k.val).work = some w)
  (hheld : encHeld s k.val (auBytes (s.enc k.val) w pic) w = false)
include hwork hheld

theorem exec_encPictureComplete_aborted {j : Job} (hjob : w.job.bind s.job = some j) (hstops : j.stops = true) :
    exec (.encPictureComplete k pic.sets pic.heads pic.rows) s = .next (encAbort s k.val j.id) := by
  have hrun : doEncPictureComplete k pic s = encAbort s k.val j.id := by
    simp only [doEncPictureComplete, hwork, hheld, hjob, hstops, Bool.false_eq_true, if_false, if_true]
  exact congrArg Host.Outcome.next hrun

theorem exec_encPictureComplete_ends (hjob : ∀ j, w.job.bind s.job = some j → j.stops = false) :
    exec (.encPictureComplete k pic.sets pic.heads pic.rows) s = .next (encEnd s k.val w pic) := by
  have hrun : doEncPictureComplete k pic s = encEnd s k.val w pic := by
    simp only [doEncPictureComplete, hwork, hheld, Bool.false_eq_true, if_false]
    split
    · rw [hjob _ ‹_›]
      rfl
    · rfl
  exact congrArg Host.Outcome.next hrun

end Complete

section End

variable {s : State} {k : Nat} {w : EncWork} {pic : CodedPic}

/-- The source of a picture as its end reads it. -/
def encSourceOf (s : State) (k : Nat) (w : EncWork) : State × AccRes × List Bytes :=
  encSource s (sessOwner s k) (s.enc k) (s.surf w.surface)

/-- The rows of a picture as its end plans them (R174). -/
def encPlan (e : Enc) (w : EncWork) (pic : CodedPic) : List RowState := codePicture e w.idr (hdrBits e w pic) pic.rows

/-- Whether a picture's headers and skip bits fit (R175). -/
def SkipsFit (e : Enc) (w : EncWork) (pic : CodedPic) : Prop :=
  (hdrBits e w pic : Int) + 96 * (encCols e : Int) * (encRows e : Int) ≤ rcRoom e

/-- Whether an IDR picture exceeds its cap (R175). -/
def IdrBursts (e : Enc) (w : EncWork) (pic : CodedPic) : Prop :=
  w.idr = true ∧ (picStart e (hdrBits e w pic)).2 < (encPlan e w pic).foldl (fun (n : Int) r => n + r.used) 0

theorem encEnd_refused (hsrc : (encSourceOf s k w).2.1 ≠ .ok) (hjob : w.job.isSome = true) :
    encEnd s k w pic = encRefused (encSourceOf s k w).1 k w (encSourceOf s k w).2.1 := if_pos ⟨hsrc, hjob⟩

section Read

variable (hsrc : (encSourceOf s k w).2.1 = .ok ∨ w.job = none)
include hsrc

theorem not_sourceRefused : ¬ ((encSourceOf s k w).2.1 ≠ .ok ∧ w.job.isSome = true) := by
  rintro ⟨hrefused, hjob⟩
  rcases hsrc with hread | hnone
  · exact hrefused hread
  · rw [hnone] at hjob
    cases hjob

theorem encEnd_short (hshort : ¬ SkipsFit (s.enc k) w pic) : encEnd s k w pic = encDrop (encSourceOf s k w).1 k w none none :=
  (if_neg (not_sourceRefused hsrc)).trans (if_pos (not_le.mp hshort))

theorem encEnd_fits (hfit : SkipsFit (s.enc k) w pic) : encEnd s k w pic =
    if w.idr && decide ((encPlan (s.enc k) w pic).foldl (fun (n : Int) r => n + r.used) 0 > (picStart (s.enc k) (hdrBits (s.enc k) w pic)).2)
    then encDrop (encSourceOf s k w).1 k w (((encPlan (s.enc k) w pic).filterMap (·.first)).head?) none
    else encWrite (encSourceOf s k w).1 k w (encPlan (s.enc k) w pic) pic (encSourceOf s k w).2.2 :=
  (if_neg (not_sourceRefused hsrc)).trans (if_neg (not_lt.mpr hfit))

theorem encEnd_bursts (hfit : SkipsFit (s.enc k) w pic) (hburst : IdrBursts (s.enc k) w pic) : encEnd s k w pic =
    encDrop (encSourceOf s k w).1 k w (((encPlan (s.enc k) w pic).filterMap (·.first)).head?) none := by
  obtain ⟨hidr, hover⟩ := hburst
  rw [encEnd_fits hsrc hfit, if_pos (by simpa [hidr] using hover)]

theorem encEnd_writes (hfit : SkipsFit (s.enc k) w pic) (hkeeps : ¬ IdrBursts (s.enc k) w pic) : encEnd s k w pic =
    encWrite (encSourceOf s k w).1 k w (encPlan (s.enc k) w pic) pic (encSourceOf s k w).2.2 := by
  rw [encEnd_fits hsrc hfit, if_neg (by simpa [IdrBursts] using hkeeps)]

end Read

end End

/-- Settles O7: the four session commands, the start of a picture and its end are the branches that their equations name. -/
theorem encoding : Obligations.Encoding := by
  refine ⟨⟨?opens, ?waits, ?refreshes, ?closes⟩, ?starts, ?completes⟩
  case opens =>
    intro q s h hrange e o hown hhead hclosed hcores hquota
    exact exec_encOpen h hrange hown hhead hclosed hcores hquota
  case waits =>
    intro q s h hrange hsess hsurf hopen hmode hreg hw hh hfmt
    exact exec_encPic h hrange hsess hsurf hopen hmode hreg hw hh hfmt
  case refreshes =>
    intro q s h hrange hown hopen
    exact exec_encRefresh hrange hown hopen h
  case closes =>
    intro q s h hrange hown hopen
    have hexec := exec_encClose hrange hown hopen h
    refine ⟨fun hidle hclosing => ?_, fun hwork => ?_⟩
    · rw [hidle] at hexec
      have henc := closedNow_enc q s
      obtain ⟨hmem, hregs⟩ := closedNow_mem_regs q s
      exact ⟨_, hexec, congrArg Enc.opened henc, congrArg Enc.charge henc, hmem, hregs, closedNow_cpls hclosing⟩
    · rw [hwork] at hexec
      exact hexec
  case starts =>
    intro k s hcore hmode hopen hidle hclosing e
    refine ⟨?_, ?_, ?_⟩
    · intro hpicture hwaits hfree
      exact exec_encPictureStart_requests hcore hmode hopen hidle hclosing hpicture hwaits hfree
    · intro j hjobs hjob hready
      have hpicture : (if (s.enc k.val).follow then (s.enc k.val).due.isSome else (encJob s k.val).isSome) = true := by
        rw [if_neg (Bool.eq_false_iff.mp hjobs), hjob]
        rfl
      exact (exec_encPictureStart_begins hcore hmode hopen hidle hclosing hpicture hready).trans
        (congrArg Host.Outcome.next (encBegin_job hjobs hjob))
    · intro buf stale live t boundary hfollow hdue hready
      have hpicture : (if (s.enc k.val).follow then (s.enc k.val).due.isSome else (encJob s k.val).isSome) = true := by
        rw [if_pos hfollow, hdue]
        rfl
      exact (exec_encPictureStart_begins hcore hmode hopen hidle hclosing hpicture hready).trans
        (congrArg Host.Outcome.next (encBegin_frame hfollow hdue))
  case completes =>
    intro k pic s w hwork e hdr runs src burst hheld
    refine ⟨fun j => exec_encPictureComplete_aborted hwork hheld, fun hjob => ?_⟩
    have hexec := exec_encPictureComplete_ends hwork hheld hjob
    refine ⟨fun hrefused hsome => ?_, fun hsrc => ⟨fun hshort => ?_, fun hfit => ⟨fun hburst => ?_, fun hkeeps => ?_⟩⟩⟩
    · exact hexec.trans (congrArg Host.Outcome.next (encEnd_refused hrefused hsome))
    · exact hexec.trans (congrArg Host.Outcome.next (encEnd_short hsrc (not_le.mpr hshort)))
    · exact hexec.trans (congrArg Host.Outcome.next (encEnd_bursts hsrc hfit hburst))
    · exact hexec.trans (congrArg Host.Outcome.next (encEnd_writes hsrc hfit hkeeps))

end Sys2Proof.Machine

/-!
PROOFS of the composition family: the layers of a head taken one after the other (R199, R200) — what an operation on one layer leaves, and
what a pass over a head's layers does to each.
-/

namespace Sys2Proof.Machine

/-! ### Operations on one layer -/

/-- Nothing but the layers differs. -/
def OnlyLayers (s t : State) : Prop := ∃ ls, t = { s with layers := ls }

theorem OnlyLayers.refl (s : State) : OnlyLayers s s := ⟨s.layers, rfl⟩

theorem OnlyLayers.trans {s t u : State} (h : OnlyLayers s t) (k : OnlyLayers t u) : OnlyLayers s u := by
  obtain ⟨ls, rfl⟩ := h
  obtain ⟨ls', rfl⟩ := k
  exact ⟨ls', rfl⟩

theorem OnlyLayers.mem {s t : State} (h : OnlyLayers s t) : t.mem = s.mem := by
  obtain ⟨ls, rfl⟩ := h
  rfl

/-- Nothing but layer `i` differs. -/
structure OnlyLayer (i : Nat) (s t : State) : Prop where
  back   : OnlyLayers s t
  others : ∀ j, j ≠ i → t.layer j = s.layer j

theorem OnlyLayer.refl (i : Nat) (s : State) : OnlyLayer i s s := ⟨.refl s, fun _ _ => rfl⟩

theorem OnlyLayer.trans {i : Nat} {s t u : State} (h : OnlyLayer i s t) (k : OnlyLayer i t u) : OnlyLayer i s u :=
  ⟨h.back.trans k.back, fun j hj => (k.others j hj).trans (h.others j hj)⟩

theorem onlyLayer_setLayer (s : State) (i : Nat) (l : Layer) : OnlyLayer i s (s.setLayer i l) :=
  ⟨⟨_, rfl⟩, fun _ hj => State.layer_setLayer_ne s l hj⟩

/-- Arming the follow flip of a layer sets its flip and the mark of a missed one. -/
theorem armFollow_eq (s : State) (i : Nat) :
    ∃ b miss, armFollow s i = s.setLayer i { s.layer i with armedBuf := b, missNext := miss } := by
  unfold armFollow
  extract_lets l src
  split
  · exact ⟨_, _, rfl⟩
  · split_ifs <;> exact ⟨_, _, rfl⟩

theorem onlyLayer_armFollow (s : State) (i : Nat) : OnlyLayer i s (armFollow s i) := by
  obtain ⟨b, miss, heq⟩ := armFollow_eq s i
  rw [heq]
  exact onlyLayer_setLayer s i _

/-- It leaves the layer's pending updates and what is to destroy it. -/
theorem armFollow_layer (s : State) (i : Nat) : ((armFollow s i).layer i).pend = (s.layer i).pend
    ∧ ((armFollow s i).layer i).destroyArmed = (s.layer i).destroyArmed := by
  obtain ⟨b, miss, heq⟩ := armFollow_eq s i
  rw [heq, State.layer_setLayer]
  exact ⟨rfl, rfl⟩

/-- A pending update that a test selects, armed. -/
def armIf (f : Pending → Bool) (p : Pending) : Pending := if f p then { p with armed := true, counts := true } else p

/-- Layer `i` with the pending updates that a test selects armed. -/
def updatesArmed (s : State) (i : Nat) (f : Pending → Bool) : State :=
  s.setLayer i { s.layer i with pend := (s.layer i).pend.map (armIf f) }

theorem armWhere_eq (s : State) (i : Nat) (f : Pending → Bool) : armWhere s i f =
    if (s.layer i).pend.any fun p => f p && p.groups.getLsbD 3 then armFollow (updatesArmed s i f) i else updatesArmed s i f := rfl

theorem onlyLayer_updatesArmed (s : State) (i : Nat) (f : Pending → Bool) : OnlyLayer i s (updatesArmed s i f) := onlyLayer_setLayer s i _

theorem updatesArmed_pend (s : State) (i : Nat) (f : Pending → Bool) :
    ((updatesArmed s i f).layer i).pend = (s.layer i).pend.map (armIf f) := by
  rw [updatesArmed, State.layer_setLayer]

theorem onlyLayer_armWhere (s : State) (i : Nat) (f : Pending → Bool) : OnlyLayer i s (armWhere s i f) := by
  rw [armWhere_eq]
  split
  · exact (onlyLayer_updatesArmed s i f).trans (onlyLayer_armFollow _ i)
  · exact onlyLayer_updatesArmed s i f

theorem armWhere_pend (s : State) (i : Nat) (f : Pending → Bool) :
    ((armWhere s i f).layer i).pend = (s.layer i).pend.map (armIf f) := by
  rw [armWhere_eq]
  split
  · rw [(armFollow_layer _ i).1, updatesArmed_pend]
  · exact updatesArmed_pend s i f

/-! ### A pass over layers -/

section Pass

variable {g : State → Nat → State} (hg : ∀ s i, OnlyLayer i s (g s i))
include hg

theorem onlyLayers_pass (xs : List (Nat × Layer)) (s : State) : OnlyLayers s (xs.foldl (fun s x => g s x.1) s) := by
  induction xs generalizing s with
  | nil => exact .refl s
  | cons x xs ih => exact (hg s x.1).back.trans (ih _)

theorem layer_pass_outside {xs : List (Nat × Layer)} {i : Nat} (hi : i ∉ xs.map (·.1)) (s : State) :
    (xs.foldl (fun s x => g s x.1) s).layer i = s.layer i := by
  induction xs generalizing s with
  | nil => rfl
  | cons x xs ih =>
    rw [List.map_cons, List.mem_cons, not_or] at hi
    obtain ⟨hx, hxs⟩ := hi
    exact (ih hxs _).trans ((hg s x.1).others i hx)

/-- A pass that names each layer once does to a layer what its one turn does, the layer still as it was before the pass. -/
theorem layer_pass {xs : List (Nat × Layer)} (hnodup : (xs.map (·.1)).Nodup) {i : Nat} (hi : i ∈ xs.map (·.1)) (s : State) :
    ∃ t, OnlyLayers s t ∧ t.layer i = s.layer i ∧ (xs.foldl (fun s x => g s x.1) s).layer i = (g t i).layer i := by
  induction xs generalizing s with
  | nil => cases hi
  | cons x xs ih =>
    obtain ⟨hx, hnodup⟩ := List.nodup_cons.mp hnodup
    rcases List.mem_cons.mp hi with rfl | hi
    · exact ⟨s, .refl s, rfl, layer_pass_outside hg hx _⟩
    · obtain ⟨t, hback, hlayer, hpass⟩ := ih hnodup hi (g s x.1)
      have hne : i ≠ x.1 := ne_of_mem_of_not_mem hi hx
      exact ⟨t, (hg s x.1).back.trans hback, hlayer.trans ((hg s x.1).others i hne), hpass⟩

end Pass

/-! ### Judging a flip set (R200) -/

/-- Whether a flip set is armed: reached and without a writer in flight. -/
def flipOk (s : State) (n : Nat) (f : Bool × BitVec 64 × BitVec 64) (v : Option (BitVec 64)) : Bool :=
  v.any fun v => fenceReached v f.2.2 && !(layersOf s n).any fun x => x.2.pend.any fun p => inSet f p && pendWriter s p

/-- What the judgement of a flip set does to one layer. -/
def judgeLayer (f : Bool × BitVec 64 × BitVec 64) (ok : Bool) (s : State) (i : Nat) : State :=
  if ok then armWhere s i (inSet f)
  else s.setLayer i { s.layer i with pend := (s.layer i).pend.map fun p => if inSet f p then { p with counts := false } else p }

theorem judgeSet_eq (s : State) (n : Nat) (f : Bool × BitVec 64 × BitVec 64) (v : Option (BitVec 64)) :
    judgeSet s n f v = (layersOf s n).foldl (fun t x => judgeLayer f (flipOk s n f v) t x.1)
      (if v.isNone then s.inc (HD_FENCE_LATE n) else s) := by
  cases v <;> rfl

theorem onlyLayer_judgeLayer (f : Bool × BitVec 64 × BitVec 64) (ok : Bool) (s : State) (i : Nat) :
    OnlyLayer i s (judgeLayer f ok s i) := by
  unfold judgeLayer
  split
  · exact onlyLayer_armWhere s i _
  · exact onlyLayer_setLayer s i _

/-- A member of the set is armed where the set is, and no more evaluated where it is not. -/
theorem judgeLayer_member {f : Bool × BitVec 64 × BitVec 64} {ok : Bool} {s : State} {i k : Nat} {p : Pending}
    (hp : (s.layer i).pend[k]? = some p) (hin : inSet f p = true) :
    ∃ p' : Pending, ((judgeLayer f ok s i).layer i).pend[k]? = some p' ∧ p'.armed = ok ∧ p'.counts = ok := by
  have hunarmed : p.armed = false := by
    simp only [inSet, Bool.and_eq_true, Bool.not_eq_true'] at hin
    exact hin.1.2
  cases ok with
  | true =>
    refine ⟨{ p with armed := true, counts := true }, ?_, rfl, rfl⟩
    rw [judgeLayer, if_pos rfl, armWhere_pend, List.getElem?_map, hp, Option.map_some, armIf, if_pos hin]
  | false =>
    refine ⟨{ p with counts := false }, ?_, hunarmed, rfl⟩
    rw [judgeLayer, if_neg Bool.false_ne_true, State.layer_setLayer, List.getElem?_map, hp, Option.map_some, if_pos hin]

/-- Settles O11: a pass over the head's layers, in which every member comes to what the set was judged. -/
theorem flipSetAllOrNone : Obligations.FlipSetAllOrNone := by
  intro s n f v
  have hstep := onlyLayer_judgeLayer f (flipOk s n f v)
  have hstart : ∀ i, (if v.isNone then s.inc (HD_FENCE_LATE n) else s).layer i = s.layer i := fun i => by split <;> rfl
  refine ⟨?_, ?_⟩
  · rw [judgeSet_eq]
    refine (onlyLayers_pass hstep _ _).mem.trans ?_
    split <;> rfl
  · intro ok hnodup hlisted i l hl k p hp hin
    have hok : ok = flipOk s n f v := by cases v <;> rfl
    rw [hok, judgeSet_eq]
    obtain ⟨t, -, hlayer, hpass⟩ := layer_pass hstep hnodup (List.mem_map_of_mem hl) (if v.isNone then s.inc (HD_FENCE_LATE n) else s)
    have hentry : t.layer i = l := hlayer.trans ((hstart i).trans (hlisted _ hl))
    rw [hpass]
    exact judgeLayer_member (hentry ▸ hp) hin

end Sys2Proof.Machine

/-!
PROOFS of the composition family: surfaces created, released and uploaded (R183–R185).
-/

namespace Sys2Proof.Machine

/-! ### SURF_CREATE and SURF_RELEASE (R183, R185) -/

theorem zeroRun_accepted (s : State) (q : Req) (op b n : Nat) : zeroRun (accepted s q op) b n = accepted (zeroRun s b n) q op := rfl

theorem setSurf_accepted (s : State) (q : Req) (op n : Nat) (v : Surface) :
    (accepted s q op).setSurf n v = accepted (s.setSurf n v) q op := rfl

theorem ledgerCount_accepted (s : State) (q : Req) (op : Nat) : ledgerCount (accepted s q op) = accepted (ledgerCount s) q op := by
  have hruns : runs (accepted s q op) = runs s := rfl
  unfold ledgerCount
  dsimp only
  rw [hruns, setFld_accepted, setReg_accepted]

theorem ledgerCount_nextJob (s : State) : (ledgerCount s).nextJob = s.nextJob := by
  rw [ledgerCount, State.setReg_nextJob, State.setFld_nextJob]

/-- The end of a registration does not depend on the jobs (R32). -/
theorem unregister_accepted (s : State) (q : Req) (op n : Nat) : unregister (accepted s q op) n = accepted (unregister s n) q op := by
  have hsurf : (accepted s q op).surf n = s.surf n := rfl
  unfold unregister
  simp only [hsurf, zeroRun_accepted, setSurf_accepted, ledgerCount_accepted]
  split <;> rfl

theorem unregister_nextJob (s : State) (n : Nat) : (unregister s n).nextJob = s.nextJob := by
  unfold unregister
  dsimp only
  split
  · exact ledgerCount_nextJob _
  · rfl

/-- The ledger with a fresh run for surface `n`, `f` as it is registered. -/
def ledgerWith (ledger : Tbl LEntry) (n : Nat) (f : Surface) : Tbl LEntry :=
  (ledger.filter fun x => decide (x.1 < f.lbase)) ++ freshRun n f ++ ledger.filter fun x => decide (f.lbase + f.tiles ≤ x.1)

/-- A surface as a registration at entry `b` leaves it. -/
def registered (f : Surface) (b : Nat) : Surface := { f with reg := true, lbase := b, curSeq := 0, frozen := 0, frozenA := false }

theorem register_eq (s : State) (n b : Nat) (f : Surface) : register s n b f =
    (let t := zeroRun (unregister s n) b f.tiles
     ledgerCount ({ t with ledger := ledgerWith t.ledger n (registered f b) }.setSurf n (registered f b))) := by
  unfold register
  generalize unregister s n = u
  rfl

/-- Nor does a registration. -/
theorem register_accepted (s : State) (q : Req) (op n b : Nat) (f : Surface) :
    register (accepted s q op) n b f = accepted (register s n b f) q op := by
  have hledger : ∀ (t : State) led, { accepted t q op with ledger := led } = accepted { t with ledger := led } q op := fun t led => rfl
  have hkept : ∀ t : State, (accepted t q op).ledger = t.ledger := fun t => rfl
  simp only [register_eq, unregister_accepted, zeroRun_accepted, hledger, hkept, setSurf_accepted, ledgerCount_accepted]

theorem register_nextJob (s : State) (n b : Nat) (f : Surface) : (register s n b f).nextJob = s.nextJob := by
  rw [register_eq]
  exact (ledgerCount_nextJob _).trans (unregister_nextJob s n)

/-- The completion of a SURF_CREATE at ledger entry `b` (Table 7.9). -/
def createBody (q : Req) (b : Nat) : BitVec 128 := cplBody [(16, 4, b), (20, 2, (surfOf q).tx), (22, 2, (surfOf q).ty)]

section Create

variable {q : Req} {s : State} (h : Admitted s q maskSurfCreate) (hshape : surfBad s (surfOf q) = false)
  (hown : ownsSurf s q.part.val (q.u16 16) = true) (hfmt : q.u8 18 ≤ 5) (hfree : surfInUse s (q.u16 16) = false)
include hshape hown hfmt hfree

theorem surfCreate_checks (hbinding : (q.bit 36 0 && bindingBad (bound q (surfOf q))) = false) :
    firstFail [(surfBad s (surfOf q), stBadRange), (!ownsSurf s q.part.val (q.u16 16), stNotOwner), (decide (5 < (surfOf q).fmt), stBadFormat),
      (surfInUse s (q.u16 16), stInUse), (q.bit 36 0 && bindingBad (bound q (surfOf q)), stBadBinding)] = none := by
  have hfmt' : decide (5 < (surfOf q).fmt) = false := decide_eq_false (Nat.not_lt.mpr hfmt)
  simp [firstFail, hshape, hown, hfmt', hfree, hbinding]

include h

theorem exec_surfCreate_untracked (htrack : q.bit 36 0 = false) : exec (.surfCreate q) s =
    .next (done ((unregister s (q.u16 16)).setSurf (q.u16 16) (surfOf q)) q 0x0701 stComplete (createBody q 0xFFFFFFFF)) := by
  have hchecks := surfCreate_checks (s := accepted s q 0x0701) hshape hown hfmt hfree (by rw [htrack]; rfl)
  refine congrArg Host.Outcome.next (soileNow_completes h ?_ (unregister_nextJob s _))
  simp only [surfCreate, hchecks]
  simp only [htrack, Bool.false_eq_true, if_false, unregister_accepted]
  rfl

theorem exec_surfCreate_tracked {b : Nat} (htrack : q.bit 36 0 = true) (hbinding : bindingBad (bound q (surfOf q)) = false)
    (hrun : runFor s q.part.val (q.u16 16) (surfOf q).tiles = .inl b) : exec (.surfCreate q) s =
    .next (done (register s (q.u16 16) b (bound q (surfOf q))) q 0x0701 stComplete (createBody q b)) := by
  have hchecks := surfCreate_checks (s := accepted s q 0x0701) hshape hown hfmt hfree (by rw [htrack, hbinding]; rfl)
  have hrun' : runFor (accepted s q 0x0701) q.part.val (q.u16 16) (surfOf q).tiles = .inl b := hrun
  refine congrArg Host.Outcome.next (soileNow_completes h ?_ (register_nextJob s _ b _))
  simp only [surfCreate, hchecks]
  simp only [htrack, if_true, hrun', register_accepted]
  rfl

end Create

theorem exec_surfRelease {q : Req} {s : State} (h : Admitted s q (bodyMask [(16, 0, 12)]))
    (hown : ownsSurf s q.part.val (q.u16 16) = true) (hfree : surfInUse s (q.u16 16) = false) :
    exec (.surfRelease q) s = .next (done ((unregister s (q.u16 16)).setSurf (q.u16 16) {}) q 0x0702 stComplete) := by
  have hown' : ownsSurf (accepted s q 0x0702) q.part.val (q.u16 16) = true := hown
  have hfree' : surfInUse (accepted s q 0x0702) (q.u16 16) = false := hfree
  refine congrArg Host.Outcome.next (soileNow_completes h ?_ (unregister_nextJob s _))
  simp only [hown', hfree', Bool.not_true, Bool.false_eq_true, if_false, unregister_accepted]
  rfl

/-! ### SURF_UPLOAD (R184) -/

theorem exec_surfUpload {q : Req} {s : State} (h : Admitted s q maskSurfUpload) (hrect : uploadBad (s.surf (q.u16 16)) q = false)
    (hown : ownsSurf s q.part.val (q.u16 16) = true) (hhidden : onScreen s (q.u16 16) = false) :
    exec (.surfUpload q) s = .next (accepted s q 0x0703) := by
  have hchecks : firstFail [(uploadBad (s.surf (q.u16 16)) q, stBadRange), (!ownsSurf s q.part.val (q.u16 16), stNotOwner),
      (onScreen s (q.u16 16), stOnScreen)] = none := by
    simp [firstFail, hrect, hown, hhidden]
  have hrun : doSurfUpload q s = accepted s q 0x0703 := by
    rw [doSurfUpload, soile_admitted h]
    exact guardJob_pass (s := accepted s q 0x0703) hchecks
  exact congrArg Host.Outcome.next hrun

theorem exec_uploadTileRowDone {id : Nat} {s : State} {j : Job} (host : HostRead) (hj : s.job id = some j) (hop : j.opcode = 0x0703)
    (hrun : mayRun s j = true) : exec (.uploadTileRowDone id host) s = .next (uploadRow s j host) := by
  have hgo : doUploadTileRowDone id host s = uploadRow s j host := by
    simp [doUploadTileRowDone, hj, hop, hrun]
  exact congrArg Host.Outcome.next hgo

section Row

variable (s : State) (j : Job) (host : HostRead)

/-- The rows of its surface that the next tile row of an upload covers. -/
def uploadDst : List (Nat × Nat) :=
  rectRows (s.surf (j.req.u16 16)) (j.req.u16 20) (j.req.u16 22 + 64 * j.n) (j.req.u16 24) (Nat.min 64 (j.req.u16 26 - 64 * j.n))

/-- How the gates decide on writing them. -/
def uploadDec : AccRes := rowsDec s 34 j.req.part.val .w (uploadDst s j)

/-- The reading of its bytes. -/
def uploadRead : State × Nat × Bytes := hostReads s j.req.part.val (uploadSrc (s.surf (j.req.u16 16)) j.req j.n) host

/-- The job with the number of its upload, which its first tile row takes (R184). -/
def uploadNumbered : Job :=
  if j.n = 0 then { j with v := BitVec.ofNat 64 (((s.surf (j.req.u16 16)).uploads + 1).toNat) } else j

/-- The state after the reading, the upload counted with its first tile row. -/
def uploadCounted : State :=
  let f := s.surf (j.req.u16 16)
  if j.n = 0 then (uploadRead s j host).1.setSurf (j.req.u16 16) { f with uploads := f.uploads + 1 } else (uploadRead s j host).1

/-- The tiles that a tile row of an upload covers. -/
def uploadTiles : List Nat :=
  tilesAcross (s.surf (j.req.u16 16)) ((j.req.u16 22 + 64 * j.n) / 64) (j.req.u16 20) (j.req.u16 24)

/-- Those of which a write is refused (R517). -/
def uploadTainted : List Nat := (uploadTiles s j).filter fun t =>
  let r := tileRect (s.surf (j.req.u16 16)) t
  rowsDec (uploadCounted s j host) 34 j.req.part.val .w (rectRows (s.surf (j.req.u16 16)) r.1 r.2.1 r.2.2.1 r.2.2.2) != .ok

/-- The writing of the row. -/
def uploadWritten : State × AccRes :=
  writeRows (uploadCounted s j host) 34 j.req.part.val (cutBytes (uploadDst s j) (uploadRead s j host).2.2)

/-- The state in which its records are sent. -/
def uploadRecorded : State :=
  uploadRecords (uploadWritten s j host).1 (j.req.u16 16) (BitVec.ofNat 32 (uploadNumbered s j).v.toNat) (uploadTainted s j host) (uploadTiles s j)

/-- The job after the row. -/
def uploadAdvanced : Job :=
  { uploadNumbered s j with
    n := j.n + 1, m := if (s.surf (j.req.u16 16)).reg then j.m + (uploadTiles s j).length else j.m, running := true }

theorem uploadNumbered_keeps : (uploadNumbered s j).m = j.m ∧ (uploadNumbered s j).id = j.id ∧ (uploadNumbered s j).stops = j.stops := by
  unfold uploadNumbered
  split <;> exact ⟨rfl, rfl, rfl⟩

/-- The branches of a tile row of an upload (R184, R287, R309, R517). -/
theorem uploadRow_eq : uploadRow s j host =
    if uploadDec s j = .held then s
    else if (uploadRead s j host).2.1 = stWaits then s
    else if (uploadRead s j host).2.1 != stComplete then uploadEnd (uploadRead s j host).1 j (uploadRead s j host).2.1
    else if (uploadWritten s j host).2 != .ok then
      uploadEnd (uploadRecorded s j host) (uploadAdvanced s j) (uploadWritten s j host).2.status
    else if 64 * (j.n + 1) ≥ j.req.u16 26 then uploadEnd (uploadRecorded s j host) (uploadAdvanced s j) stComplete
    else if j.stops then uploadEnd (uploadRecorded s j host) (uploadAdvanced s j) stAborted
    else (uploadRecorded s j host).modJob j.id fun _ => uploadAdvanced s j := by
  obtain ⟨hm, hid, hstops⟩ := uploadNumbered_keeps s j
  unfold uploadAdvanced
  rw [← hm, ← hid, ← hstops]
  rfl

end Row

section Branches

variable {s : State} {j : Job} {host : HostRead}

theorem uploadRow_held (hheld : uploadDec s j = .held) : uploadRow s j host = s := by
  rw [uploadRow_eq, if_pos hheld]

variable (hgo : uploadDec s j ≠ .held)
include hgo

theorem uploadRow_waits (hwaits : (uploadRead s j host).2.1 = stWaits) : uploadRow s j host = s := by
  rw [uploadRow_eq, if_neg hgo, if_pos hwaits]

theorem uploadRow_unread (hread : (uploadRead s j host).2.1 ≠ stWaits) (hfail : (uploadRead s j host).2.1 ≠ stComplete) :
    uploadRow s j host = uploadEnd (uploadRead s j host).1 j (uploadRead s j host).2.1 := by
  rw [uploadRow_eq, if_neg hgo, if_neg hread, if_pos (bne_iff_ne.mpr hfail)]

variable (hok : (uploadRead s j host).2.1 = stComplete)
include hok

theorem uploadRow_copied : uploadRow s j host =
    if (uploadWritten s j host).2 ≠ .ok then uploadEnd (uploadRecorded s j host) (uploadAdvanced s j) (uploadWritten s j host).2.status
    else if 64 * (j.n + 1) ≥ j.req.u16 26 then uploadEnd (uploadRecorded s j host) (uploadAdvanced s j) stComplete
    else if j.stops then uploadEnd (uploadRecorded s j host) (uploadAdvanced s j) stAborted
    else (uploadRecorded s j host).modJob j.id fun _ => uploadAdvanced s j := by
  have hread : (uploadRead s j host).2.1 ≠ stWaits := by rw [hok]; decide
  rw [uploadRow_eq, if_neg hgo, if_neg hread, if_neg (by simp [hok])]
  simp only [bne_iff_ne]

theorem uploadRow_refused (hrefused : (uploadWritten s j host).2 ≠ .ok) : uploadRow s j host =
    uploadEnd (uploadRecorded s j host) (uploadAdvanced s j) (uploadWritten s j host).2.status := by
  rw [uploadRow_copied hgo hok, if_pos hrefused]

variable (hwritten : (uploadWritten s j host).2 = .ok)
include hwritten

theorem uploadRow_last (hlast : j.req.u16 26 ≤ 64 * (j.n + 1)) :
    uploadRow s j host = uploadEnd (uploadRecorded s j host) (uploadAdvanced s j) stComplete := by
  rw [uploadRow_copied hgo hok, if_neg (not_not.mpr hwritten), if_pos hlast]

variable (hmore : 64 * (j.n + 1) < j.req.u16 26)
include hmore

theorem uploadRow_stops (hstops : j.stops = true) :
    uploadRow s j host = uploadEnd (uploadRecorded s j host) (uploadAdvanced s j) stAborted := by
  rw [uploadRow_copied hgo hok, if_neg (not_not.mpr hwritten), if_neg (Nat.not_le.mpr hmore), if_pos hstops]

theorem uploadRow_goesOn (hgoes : j.stops = false) :
    uploadRow s j host = (uploadRecorded s j host).modJob j.id fun _ => uploadAdvanced s j := by
  rw [uploadRow_copied hgo hok, if_neg (not_not.mpr hwritten), if_neg (Nat.not_le.mpr hmore), if_neg (Bool.eq_false_iff.mp hgoes)]

end Branches

/-- Settles O8: the three commands by their equations; a tile row by the branches of its copying, in their order. -/
theorem surfacesAndUploads : Obligations.SurfacesAndUploads := by
  refine ⟨⟨?creates, ?releases, ?uploads⟩, ?row⟩
  case creates =>
    intro q s h hshape hown hfmt hfree f
    exact ⟨exec_surfCreate_untracked h hshape hown hfmt hfree, fun b => exec_surfCreate_tracked h hshape hown hfmt hfree⟩
  case releases => exact fun q s h hown hfree => exec_surfRelease h hown hfree
  case uploads => exact fun q s h hrect hown hhidden => exec_surfUpload h hrect hown hhidden
  case row =>
    intro id host s j hj hop hrun
    rw [exec_uploadTileRowDone host hj hop hrun]
    refine ⟨fun hheld => ?_, fun hgo => ⟨fun hwaits => ?_, fun hread hfail => ?_, fun hok =>
      ⟨fun hrefused => ?_, fun hwritten hlast => ?_, fun hwritten hmore => ⟨fun hstops => ?_, fun hgoes => ?_⟩⟩⟩⟩
    · exact congrArg Host.Outcome.next (uploadRow_held hheld)
    · exact congrArg Host.Outcome.next (uploadRow_waits hgo hwaits)
    · exact congrArg Host.Outcome.next (uploadRow_unread hgo hread hfail)
    · exact congrArg Host.Outcome.next (uploadRow_refused hgo hok hrefused)
    · exact congrArg Host.Outcome.next (uploadRow_last hgo hok hwritten hlast)
    · exact congrArg Host.Outcome.next (uploadRow_stops hgo hok hwritten hmore hstops)
    · exact congrArg Host.Outcome.next (uploadRow_goesOn hgo hok hwritten hmore hgoes)

end Sys2Proof.Machine

/-!
PROOFS of the composition family: what READY, COMMIT, CTRL, STREAM, SURFACE, CKPT and YIELD messages do (R207–R210, R363–R372, R380, R388).
-/

namespace Sys2Proof.Machine

/-! ### Messages that go no further -/

/-- The guard every receiver starts with: the message is for this unit and of its kind. -/
theorem skips_of_other {k : BitVec 8} {m : Msg} {here : Bool} (h : here = false ∨ m.kind ≠ k) : (!here || m.kind != k) = true := by
  rcases h with h | h
  · rw [h]; rfl
  · rw [bne_iff_ne.mpr h, Bool.or_true]

theorem kind_bne_of_eq {k : BitVec 8} {m : Msg} (h : m.kind = k) : (m.kind != k) = false := by
  simp [h]

section Other

variable {p : Fin 2} {m : Msg} {s u : State} {here : Bool} (hdel : deliver s p.val m = (u, here))
include hdel

theorem doReadyRx_other (h : here = false ∨ m.kind ≠ 3) : doReadyRx p m s = u := by
  simp only [doReadyRx, hdel, skips_of_other h, Bool.true_or, if_true]

theorem doCommitRx_other (h : here = false ∨ m.kind ≠ 4) : doCommitRx p m s = u := by
  simp only [doCommitRx, hdel, skips_of_other h, Bool.true_or, if_true]

theorem doCtrlRx_other (h : here = false ∨ m.kind ≠ 7) : doCtrlRx p m s = u := by
  simp only [doCtrlRx, hdel, skips_of_other h, Bool.true_or, if_true]

theorem doStreamRx_other (h : here = false ∨ m.kind ≠ 8) : doStreamRx p m s = u := by
  simp only [doStreamRx, hdel, skips_of_other h, if_true]

theorem doSurfaceRx_other (h : here = false ∨ m.kind ≠ 9) : doSurfaceRx p m s = u := by
  simp only [doSurfaceRx, hdel, skips_of_other h, if_true]

theorem doCkptRx_other (h : here = false ∨ m.kind ≠ 10) : doCkptRx p m s = u := by
  simp only [doCkptRx, hdel, skips_of_other h, if_true]

theorem doYieldRx_other (h : here = false ∨ m.kind ≠ 6) : doYieldRx p m s = u := by
  simp only [doYieldRx, hdel, skips_of_other h, if_true]

end Other

/-! ### READY and COMMIT (R207, R209, R210, R363) -/

/-- Whether a seal message concerns group `g` here: the core runs and the group is on. -/
def sealHears (u : State) (g : Nat) : Bool := u.ctl.core && decide (g ≤ 15) && sgOn u g

theorem sealHears_iff {u : State} {g : Nat} : sealHears u g = true ↔ u.ctl.core = true ∧ g ≤ 15 ∧ sgOn u g = true := by
  simp [sealHears, and_assoc]

/-- The refusal both receivers write out is the negation of `sealHears`. -/
theorem sealDeaf_eq (u : State) (g : Nat) : (!u.ctl.core || decide (15 < g) || !sgOn u g) = !sealHears u g := by
  have hle : decide (15 < g) = !decide (g ≤ 15) := by
    rw [← decide_not]; exact decide_eq_decide.mpr Nat.not_le.symm
  rw [hle, sealHears, Bool.not_and, Bool.not_and]

/-- Whether the master's group takes a READY. -/
def readyTakes (u : State) (m : Msg) : Bool :=
  sealHears u (m.h8 8) && sgMaster u (m.h8 8) && !(u.grp (m.h8 8)).pastD && sameBoundary u (m.h8 8) (m.hN 16 8)

theorem readyTakes_iff {u : State} {m : Msg} : readyTakes u m = true ↔
    (u.ctl.core = true ∧ m.h8 8 ≤ 15 ∧ sgOn u (m.h8 8) = true) ∧ sgMaster u (m.h8 8) = true ∧ (u.grp (m.h8 8)).pastD = false
      ∧ sameBoundary u (m.h8 8) (m.hN 16 8) = true := by
  simp only [readyTakes, Bool.and_eq_true, Bool.not_eq_true', sealHears_iff, and_assoc]

theorem doReadyRx_eq {p : Fin 2} {m : Msg} {s u : State} (hdel : deliver s p.val m = (u, true)) (hkind : m.kind = 3) :
    doReadyRx p m s = if readyTakes u m = true then takeReport u (m.h8 8) (m.h8 9 % 8) (BitVec.ofNat 32 (m.hN 12 4)) (m.h8 10) else u := by
  have hskip : (!true || m.kind != 3 || !u.ctl.core || decide (15 < m.h8 8) || !sgOn u (m.h8 8) || !sgMaster u (m.h8 8)
      || (u.grp (m.h8 8)).pastD || !sameBoundary u (m.h8 8) (m.hN 16 8)) = !readyTakes u m := by
    have hdeaf := sealDeaf_eq u (m.h8 8)
    simp only [Bool.or_assoc, readyTakes, Bool.not_and, Bool.not_not, ← hdeaf]
    simp [hkind]
  simp only [doReadyRx, hdel, hskip]
  cases readyTakes u m <;> rfl

/-- Whether a COMMIT concerns a group of which this unit is a member. -/
def commitHears (u : State) (m : Msg) : Bool := sealHears u (m.h8 8) && sgMember u (m.h8 8)

theorem commitHears_iff {u : State} {m : Msg} : commitHears u m = true ↔
    (u.ctl.core = true ∧ m.h8 8 ≤ 15 ∧ sgOn u (m.h8 8) = true) ∧ sgMember u (m.h8 8) = true := by
  simp only [commitHears, Bool.and_eq_true, sealHears_iff]

/-- Whether a COMMIT is for the boundary that passed last and its sets have not taken effect. -/
def commitLast (u : State) (m : Msg) : Bool :=
  lastBoundary u (m.h8 8) (m.hN 16 8) && decide (0 < sealDiff (BitVec.ofNat 32 (m.hN 12 4)) (sgDone u (m.h8 8)))

theorem commitLast_iff {u : State} {m : Msg} : commitLast u m = true ↔
    lastBoundary u (m.h8 8) (m.hN 16 8) = true ∧ 0 < sealDiff (BitVec.ofNat 32 (m.hN 12 4)) (sgDone u (m.h8 8)) := by
  simp only [commitLast, Bool.and_eq_true, decide_eq_true_eq]

theorem doCommitRx_eq {p : Fin 2} {m : Msg} {s u : State} (hdel : deliver s p.val m = (u, true)) (hkind : m.kind = 4) :
    doCommitRx p m s = if commitHears u m = true then
        (if sameBoundary u (m.h8 8) (m.hN 16 8) = true then
          (if (u.grp (m.h8 8)).pastC = true then sealLate u (m.h8 8) (BitVec.ofNat 32 (m.hN 12 4))
            else u.setGrp (m.h8 8) { u.grp (m.h8 8) with commitM := some (BitVec.ofNat 32 (m.hN 12 4)) })
        else if commitLast u m = true then
          sealLate (if (u.grp (m.h8 8)).heldAt then unhold u (m.h8 8) else u) (m.h8 8) (BitVec.ofNat 32 (m.hN 12 4))
        else u)
      else u := by
  have hskip : (!true || m.kind != 4 || !u.ctl.core || decide (15 < m.h8 8) || !sgOn u (m.h8 8) || !sgMember u (m.h8 8))
      = !commitHears u m := by
    have hdeaf := sealDeaf_eq u (m.h8 8)
    simp only [Bool.or_assoc, commitHears, Bool.not_and, ← hdeaf]
    simp [hkind]
  simp only [doCommitRx, hdel, hskip]
  cases commitHears u m
  · rfl
  · cases (u.grp (m.h8 8)).pastC <;> rfl

/-! ### A boundary no longer counted as held (R209) -/

theorem unhold_eq (s : State) (g : Nat) : unhold s g =
    if 0 < s.fld (CMP_SEAL_HELD g) 0 16 ∧ s.fld (CMP_SEAL_HELD g) 0 16 < 0xFFFF then
      (s.setGrp g { s.grp g with heldAt := false }).setFld (CMP_SEAL_HELD g) 0 16 (s.fld (CMP_SEAL_HELD g) 0 16 - 1)
    else s.setGrp g { s.grp g with heldAt := false } := rfl

theorem unhold_grp (s : State) (g : Nat) : (unhold s g).grp g = { s.grp g with heldAt := false } := by
  rw [unhold_eq]
  split
  · exact State.grp_setGrp _ _ _
  · exact State.grp_setGrp _ _ _

theorem unhold_fld (s : State) (g : Nat) : (unhold s g).fld (CMP_SEAL_HELD g) 0 16 =
    if s.fld (CMP_SEAL_HELD g) 0 16 = 0xFFFF then s.fld (CMP_SEAL_HELD g) 0 16 else s.fld (CMP_SEAL_HELD g) 0 16 - 1 := by
  have hmax : s.fld (CMP_SEAL_HELD g) 0 16 < 2 ^ 16 := Nat.mod_lt _ (by decide)
  have hkeep : (s.setGrp g { s.grp g with heldAt := false }).fld (CMP_SEAL_HELD g) 0 16 = s.fld (CMP_SEAL_HELD g) 0 16 := rfl
  rw [unhold_eq]
  split
  next h =>
    rw [State.fld_setFld_same _ _ _ (by decide), if_neg (by omega), Nat.mod_eq_of_lt (by omega)]
  next h =>
    rw [hkeep]
    split <;> omega

theorem unhold_sameRegsBut (s : State) (g : Nat) : SameRegsBut [CMP_SEAL_HELD g] s (unhold s g) := by
  rw [unhold_eq]
  split
  · exact State.setFld_sameRegsBut _ _ _ _ _
  · exact fun _ _ => rfl

theorem unhold_back (s : State) (g : Nat) : { unhold s g with regs := s.regs, seals := s.seals } = s := by
  rw [unhold_eq]
  split <;> rfl

/-! ### CTRL (R261, R372) -/

/-- The writes of a CTRL entry, in the order of R261: not valid, the entry, its number, valid. -/
def ctrlWrites (u : State) (m : Msg) (k : Nat) (base : BitVec 64) (seq : BitVec 32) : List (Nat × Bytes) :=
  let a := base.toNat + seq.toNat % 2 ^ k * 512
  let n := (seq + 1).toNat
  [(a + 508, [0, 0, 0, 0]), (a + 4, ctrlEntry u m), (a, leBytes 4 n), (a + 508, leBytes 4 n)]

theorem doCtrlRx_rdn {p : Fin 2} {m : Msg} {s u : State} (hdel : deliver s p.val m = (u, true)) (hd : m.h8 8 = 31) : doCtrlRx p m s = u := by
  simp only [doCtrlRx, hdel, hd, decide_true, Bool.or_true, if_true]

section Ctrl

variable {p : Fin 2} {m : Msg} {s u : State} (hdel : deliver s p.val m = (u, true)) (hkind : m.kind = 7)
include hdel hkind

theorem doCtrlRx_nodest (hd : m.h8 8 ≠ 31) (h : u.ctl.core = false ∨ 16 ≤ m.h8 8 ∨ (u.part (m.h8 8)).ctrlRing = none) :
    doCtrlRx p m s = u.inc CHN_NODEST := by
  simp only [doCtrlRx, hdel, kind_bne_of_eq hkind, Bool.false_or, Bool.not_true, hd, decide_false, Bool.false_eq_true, if_false]
  rcases h with h | h | h
  · rw [h]; rfl
  · have hout : 15 < m.h8 8 := h
    rw [decide_eq_true hout, Bool.or_true, if_pos rfl]
  · rw [h]; exact ite_self _

theorem doCtrlRx_entry {host : Bool} {k : Nat} {base : BitVec 64} {seq : BitVec 32} (hd : m.h8 8 ≤ 15) (hcore : u.ctl.core = true)
    (hring : (u.part (m.h8 8)).ctrlRing = some (host, k, base, seq)) :
    doCtrlRx p m s = (ctrlWrites u m k base seq).foldl (fun t x => (jobWrite t 39 (m.h8 8) host x.1 x.2).1)
      (u.setPart (m.h8 8) { u.part (m.h8 8) with ctrlRing := some (host, k, base, seq + 1) }) := by
  have hrdn : m.h8 8 ≠ 31 := by omega
  have hin : ¬ 15 < m.h8 8 := Nat.not_lt.mpr hd
  simp only [doCtrlRx, hdel, kind_bne_of_eq hkind, Bool.false_or, Bool.not_true, hrdn, hcore, hin, hring, decide_false, Bool.false_eq_true, if_false,
    BitVec.add_sub_cancel, ctrlWrites, List.foldl_cons, List.foldl_nil]
  rfl

end Ctrl

/-- Writes to a host on PCIe whose link is up are posted, in order (R287). -/
theorem jobWrites_pcie (slot d : Nat) (ws : List (Nat × Bytes)) {t : State} (hp : onPcie t d = true) (hup : linkUp t (t.part d).port = true) :
    ws.foldl (fun t x => (jobWrite t slot d true x.1 x.2).1) t
      = { t with outbox := t.outbox ++ ws.map fun x => Out.hostWrite (t.part d).port (BitVec.ofNat 64 x.1) x.2 } := by
  induction ws generalizing t with
  | nil => simp
  | cons x xs ih =>
    have hx : (jobWrite t slot d true x.1 x.2).1 = t.emit (.hostWrite (t.part d).port (BitVec.ofNat 64 x.1) x.2) := by
      simp [jobWrite, hp, hup]
    rw [List.foldl_cons, hx, ih (t := t.emit _) hp hup]
    simp [State.emit, State.part]

/-! ### STREAM (R365) -/

section Stream

variable {p : Fin 2} {m : Msg} {s u : State} (hdel : deliver s p.val m = (u, true)) (hkind : m.kind = 8)
include hdel hkind

theorem doStreamRx_nodest (h : u.ctl.core = false ∨ (u.ctx (m.h8 9)).rx = none) : doStreamRx p m s = u.inc CHN_NODEST := by
  simp only [doStreamRx, hdel, kind_bne_of_eq hkind, Bool.false_or, Bool.not_true, Bool.false_eq_true, if_false]
  rcases h with h | h
  · rw [h]; rfl
  · rw [h]; exact ite_self _

theorem doStreamRx_stranger {o slot base size : Nat} (hcore : u.ctl.core = true) (hrx : (u.ctx (m.h8 9)).rx = some (o, slot, base, size))
    (h : unitOf u o ≠ some m.origin.toNat ∨ slot ≠ m.h8 8) : doStreamRx p m s = u.inc CHN_NODEST := by
  have hnot : (fromHolder u m o && slot == m.h8 8) = false := by
    rcases h with h | h
    · rw [fromHolder, beq_eq_false_iff_ne.mpr h, Bool.false_and]
    · rw [beq_eq_false_iff_ne.mpr h, Bool.and_false]
  simp only [doStreamRx, hdel, kind_bne_of_eq hkind, Bool.false_or, Bool.not_true, hcore, hrx, hnot, Bool.false_eq_true, if_false]

theorem doStreamRx_fragment {o slot base size : Nat} (hcore : u.ctl.core = true) (hrx : (u.ctx (m.h8 9)).rx = some (o, slot, base, size))
    (hunit : unitOf u o = some m.origin.toNat) (hslot : slot = m.h8 8) : doStreamRx p m s = takeFragment u (m.h8 9) base size m := by
  have hyes : (fromHolder u m o && slot == m.h8 8) = true := by simp [fromHolder, hunit, hslot]
  simp only [doStreamRx, hdel, kind_bne_of_eq hkind, Bool.false_or, Bool.not_true, hcore, hrx, hyes, Bool.false_eq_true, if_false, if_true]

end Stream

/-- The bytes of the item after a fragment, where it joins them. -/
def fragmentJoined (x : Ctx) (m : Msg) : Option Bytes :=
  let body := m.body.take (m.hN 16 4 - m.hN 12 4)
  if bitOf (m.h8 10) 0 then (if m.hN 12 4 = 0 then some body else none)
  else match x.rxBuf with
    | some (t, bs) => if t = m.hN 16 4 ∧ bs.length = m.hN 12 4 then some (bs ++ body) else none
    | none => none

theorem fragmentJoined_first {x : Ctx} {m : Msg} (hfirst : bitOf (m.h8 10) 0 = true) (hoff : m.hN 12 4 = 0) :
    fragmentJoined x m = some (m.body.take (m.hN 16 4 - m.hN 12 4)) := by
  simp only [fragmentJoined, hfirst, hoff, if_true]

theorem fragmentJoined_next {x : Ctx} {m : Msg} {bs : Bytes} (hfirst : bitOf (m.h8 10) 0 = false) (hbuf : x.rxBuf = some (m.hN 16 4, bs))
    (hlen : bs.length = m.hN 12 4) : fragmentJoined x m = some (bs ++ m.body.take (m.hN 16 4 - m.hN 12 4)) := by
  simp only [fragmentJoined, hfirst, hbuf, hlen, Bool.false_eq_true, if_false, and_self, if_true]

theorem fragmentJoined_missing {x : Ctx} {m : Msg} (h : bitOf (m.h8 10) 0 = true ∧ m.hN 12 4 ≠ 0
    ∨ bitOf (m.h8 10) 0 = false ∧ ∀ bs, x.rxBuf = some (m.hN 16 4, bs) → bs.length ≠ m.hN 12 4) : fragmentJoined x m = none := by
  rcases h with ⟨hfirst, hoff⟩ | ⟨hfirst, hbuf⟩
  · simp only [fragmentJoined, hfirst, hoff, if_true, if_false]
  · cases hx : x.rxBuf with
    | none => simp only [fragmentJoined, hfirst, hx, Bool.false_eq_true, if_false]
    | some b =>
      have hno : ¬ (b.1 = m.hN 16 4 ∧ b.2.length = m.hN 12 4) := fun ⟨htotal, hlen⟩ => hbuf b.2 (by rw [hx, ← htotal]) hlen
      simp only [fragmentJoined, hfirst, hx, Bool.false_eq_true, if_false, hno]

/-- The context while an item of which `bs` arrived stays open. -/
def fragmentKept (u : State) (m : Msg) (buf : Option (Nat × Bytes)) : State :=
  let x := u.ctx (m.h8 9)
  u.setCtx (m.h8 9) { x with rxBuf := buf, rxDisc := x.rxDisc || (bitOf (m.h8 10) 0 && x.rxBuf.isSome) }

theorem takeFragment_eq (u : State) (base size : Nat) (m : Msg) : takeFragment u (m.h8 9) base size m =
    match fragmentJoined (u.ctx (m.h8 9)) m with
    | none => u.setCtx (m.h8 9) { u.ctx (m.h8 9) with rxBuf := none, rxDisc := true }
    | some bs =>
      let s := fragmentKept u m (if bitOf (m.h8 10) 1 then none else some (m.hN 16 4, bs))
      if !bitOf (m.h8 10) 1 then s
      else if bs.length = m.hN 16 4 ∧ 32 ≤ m.hN 16 4 then acceptItem s (m.h8 9) base size bs
      else s.setCtx (m.h8 9) { s.ctx (m.h8 9) with rxDisc := true } := rfl

theorem takeFragment_missing {u : State} {base size : Nat} {m : Msg} (h : fragmentJoined (u.ctx (m.h8 9)) m = none) :
    takeFragment u (m.h8 9) base size m = u.setCtx (m.h8 9) { u.ctx (m.h8 9) with rxBuf := none, rxDisc := true } := by
  rw [takeFragment_eq, h]

theorem takeFragment_open {u : State} {base size : Nat} {m : Msg} {bs : Bytes} (h : fragmentJoined (u.ctx (m.h8 9)) m = some bs)
    (hopen : bitOf (m.h8 10) 1 = false) : takeFragment u (m.h8 9) base size m = fragmentKept u m (some (m.hN 16 4, bs)) := by
  rw [takeFragment_eq, h, hopen]
  rfl

theorem takeFragment_last {u : State} {base size : Nat} {m : Msg} {bs : Bytes} (h : fragmentJoined (u.ctx (m.h8 9)) m = some bs)
    (hlast : bitOf (m.h8 10) 1 = true) : takeFragment u (m.h8 9) base size m =
      if bs.length = m.hN 16 4 ∧ 32 ≤ m.hN 16 4 then acceptItem (fragmentKept u m none) (m.h8 9) base size bs
      else (fragmentKept u m none).setCtx (m.h8 9) { (fragmentKept u m none).ctx (m.h8 9) with rxDisc := true } := by
  rw [takeFragment_eq, h, hlast]
  rfl

/-- A fragment that joins leaves the item open, or hands it to its context, or discards it (R365). -/
theorem takeFragment_takes {u : State} {base size : Nat} {p : Fin 2} {m : Msg} {s : State} {bs : Bytes}
    (hfrag : doStreamRx p m s = takeFragment u (m.h8 9) base size m) (h : fragmentJoined (u.ctx (m.h8 9)) m = some bs) :
    (bitOf (m.h8 10) 1 = false → exec (.streamRx p m) s = .next (fragmentKept u m (some (m.hN 16 4, bs))))
    ∧ (bitOf (m.h8 10) 1 = true → let v := fragmentKept u m none
      (bs.length = m.hN 16 4 → 32 ≤ m.hN 16 4 → exec (.streamRx p m) s = .next (acceptItem v (m.h8 9) base size bs))
      ∧ ((bs.length ≠ m.hN 16 4 ∨ m.hN 16 4 < 32) →
        exec (.streamRx p m) s = .next (v.setCtx (m.h8 9) { v.ctx (m.h8 9) with rxDisc := true }))) := by
  have hexec : exec (.streamRx p m) s = .next (takeFragment u (m.h8 9) base size m) := congrArg Host.Outcome.next hfrag
  rw [hexec]
  refine ⟨fun hopen => by rw [takeFragment_open h hopen], fun hlast => ⟨fun hlen hmin => ?_, fun hbad => ?_⟩⟩
  · rw [takeFragment_last h hlast, if_pos ⟨hlen, hmin⟩]
  · rw [takeFragment_last h hlast, if_neg (by omega)]

/-- An item for a full queue is discarded and counted (R98, R365). -/
theorem acceptItem_full {s : State} {c : Nat} (base size : Nat) (item : Bytes) (h : 16 ≤ (s.ctx c).queue.length) :
    acceptItem s c base size item = s.draw.setCtx c { s.ctx c with rxDisc := true, nOvf := satInc (s.ctx c).nOvf } := by
  have hfull : (s.ctx c).queue.length ≥ 16 := h
  simp only [acceptItem, hfull, if_true]
  rfl

/-! ### SURFACE (R367, R368) -/

/-- Whether a band message belongs to the transfer of its receive slot. -/
def bandMine (u : State) (m : Msg) : Bool :=
  let r := u.rxSurf (m.h8 9)
  u.ctl.core && decide (m.h8 9 ≤ 15) && r.enabled && fromHolder u m r.origin && r.slot == m.h8 8

theorem bandMine_iff {u : State} {m : Msg} : bandMine u m = true ↔ u.ctl.core = true ∧ m.h8 9 ≤ 15 ∧ (u.rxSurf (m.h8 9)).enabled = true
    ∧ (u.rxSurf (m.h8 9)).slot = m.h8 8 ∧ unitOf u (u.rxSurf (m.h8 9)).origin = some m.origin.toNat := by
  simp only [bandMine, fromHolder, Bool.and_eq_true, decide_eq_true_eq, beq_iff_eq, and_assoc]
  exact ⟨fun ⟨hcore, hi, hen, hunit, hslot⟩ => ⟨hcore, hi, hen, hslot, hunit⟩,
    fun ⟨hcore, hi, hen, hslot, hunit⟩ => ⟨hcore, hi, hen, hunit, hslot⟩⟩

theorem doSurfaceRx_eq {p : Fin 2} {m : Msg} {s u : State} (hdel : deliver s p.val m = (u, true)) (hkind : m.kind = 9) :
    doSurfaceRx p m s = if bandMine u m = true then
        takeBand (if (u.rxSurf (m.h8 9)).cur = some (BitVec.ofNat 32 (m.hN 12 4)) then u
          else beginTransfer u (m.h8 9) (BitVec.ofNat 32 (m.hN 12 4))) (m.h8 9) m
      else u.inc CHN_NODEST := by
  have hnot : (!u.ctl.core || decide (15 < m.h8 9) || !(u.rxSurf (m.h8 9)).enabled || !fromHolder u m (u.rxSurf (m.h8 9)).origin
      || (u.rxSurf (m.h8 9)).slot != m.h8 8) = !bandMine u m := by
    have hle : decide (15 < m.h8 9) = !decide (m.h8 9 ≤ 15) := by
      rw [← decide_not]; exact decide_eq_decide.mpr Nat.not_le.symm
    simp only [bandMine, Bool.not_and, hle, bne]
  simp only [doSurfaceRx, hdel, kind_bne_of_eq hkind, Bool.false_or, Bool.not_true, Bool.false_eq_true, if_false, hnot]
  cases bandMine u m <;> rfl

/-- A message of the open band that fits its target and does not end it joins what arrived. -/
theorem takeBand_joins {u : State} {i n : Nat} {m : Msg} (hband : (u.rxSurf i).band = some (m.h8 10)) (htarget : (u.rxSurf i).target = some n)
    (hin : m.h8 10 < surfBands (u.surf n)) (hlast : bitOf (m.h8 11) 2 = true → m.h8 10 + 1 = surfBands (u.surf n))
    (hends : bitOf (m.h8 11) 1 = false)
    (hfits : (u.rxSurf i).packed = true ∨ m.hN 16 4 + m.body.length ≤ 16 * (u.surf n).tx + bandLen (u.surf n) (m.h8 10)) :
    takeBand u i m = u.setRxSurf i { u.rxSurf i with
      parts := (u.rxSurf i).parts ++ [(m.hN 16 4, m.body)], last := m.hN 16 4 + m.body.length
      lostMsg := (u.rxSurf i).lostMsg || m.hN 16 4 != (u.rxSurf i).last } := by
  have hbig : (decide (surfBands (u.surf n) ≤ m.h8 10) || (bitOf (m.h8 11) 2 && m.h8 10 + 1 != surfBands (u.surf n))
      || (!(u.rxSurf i).packed && (decide (16 * (u.surf n).tx + bandLen (u.surf n) (m.h8 10) < m.hN 16 4 + m.body.length)
        || (bitOf (m.h8 11) 1 && m.hN 16 4 + m.body.length != 16 * (u.surf n).tx + bandLen (u.surf n) (m.h8 10))))) = false := by
    have hrange : decide (surfBands (u.surf n) ≤ m.h8 10) = false := decide_eq_false (Nat.not_le.mpr hin)
    have hshort : (bitOf (m.h8 11) 2 && m.h8 10 + 1 != surfBands (u.surf n)) = false := by
      cases hbit : bitOf (m.h8 11) 2
      · rfl
      · rw [hlast hbit]; simp
    rw [hrange, hshort, hends]
    rcases hfits with hpacked | hlen
    · rw [hpacked]; rfl
    · rw [decide_eq_false (Nat.not_lt.mpr hlen)]; simp
  simp only [takeBand, hband, if_true, htarget, hbig, Bool.false_eq_true, if_false]
  simp only [hends, Bool.false_eq_true, if_false]

/-! ### CKPT (R371, R380) -/

/-- Whether the vault takes a checkpoint's bytes. -/
def vaultOpen (u : State) (m : Msg) : Bool :=
  u.bit CHN_VAULT 0 && !u.rdn.zeroing && u.fld CHN_VAULT 1 3 == m.origin.toNat && decide (m.hN 8 4 + m.hN 12 4 ≤ 0x800000)

theorem vaultOpen_iff {u : State} {m : Msg} : vaultOpen u m = true ↔ u.bit CHN_VAULT 0 = true ∧ u.rdn.zeroing = false
    ∧ u.fld CHN_VAULT 1 3 = m.origin.toNat ∧ m.hN 8 4 + m.hN 12 4 ≤ 0x800000 := by
  simp only [vaultOpen, Bool.and_eq_true, Bool.not_eq_true', decide_eq_true_eq, beq_iff_eq, and_assoc]

theorem doCkptRx_eq {p : Fin 2} {m : Msg} {s u : State} (hdel : deliver s p.val m = (u, true)) (hkind : m.kind = 10) :
    doCkptRx p m s = if vaultOpen u m = true then
        (queueWrite (raiseN 3) u chnVaultAccess (0x3000000 + m.hN 8 4) (sliceB m.body 0 (m.hN 12 4))).1
      else raiseKey (u.inc CHN_CKPT_DROP) m.origin.toNat evCkptRefused 0 39 31 [(m.origin.toNat, 3)] := by
  simp only [doCkptRx, hdel, kind_bne_of_eq hkind, Bool.false_or, Bool.not_true, Bool.false_eq_true, if_false]
  rfl

theorem sliceB_length (bs : Bytes) (i n : Nat) : (sliceB bs i n).length = n := by
  simp [sliceB]

theorem sliceB_whole (bs : Bytes) : sliceB bs 0 bs.length = bs := by
  refine List.ext_getElem (sliceB_length bs 0 bs.length) fun i hi hbs => ?_
  simp [sliceB, hbs]

/-- `t` is `s` after stores to memory: its bytes and the desk cores' reservations may differ. -/
def Stored (s t : State) : Prop := ∃ ds bytes, t = { s with desks := ds, mem := bytes }

theorem Stored.trans {s t u : State} (h : Stored s t) (k : Stored t u) : Stored s u := by
  obtain ⟨_, _, rfl⟩ := h
  obtain ⟨_, _, rfl⟩ := k
  exact ⟨_, _, rfl⟩

theorem stored_store (s : State) (a : Nat) (bs : Bytes) : Stored s (s.store a bs) := ⟨s.desks, _, rfl⟩

theorem stored_foldl {α : Type} {f : State → α → State} (hf : ∀ s x, Stored s (f s x)) (xs : List α) (s : State) :
    Stored s (xs.foldl f s) := by
  induction xs generalizing s with
  | nil => exact ⟨s.desks, s.mem, rfl⟩
  | cons x xs ih => exact (hf s x).trans (ih _)

theorem stored_snoop (a : Access) (addr n : Nat) (s : State) : Stored s (snoop a addr n s) := by
  refine stored_foldl (fun s k => ?_) _ s
  split
  · split
    · exact ⟨_, s.mem, rfl⟩
    · exact ⟨s.desks, s.mem, rfl⟩
  · exact ⟨s.desks, s.mem, rfl⟩

/-- The gates decide alike before and after a store. -/
theorem memDec_of_stored {s t : State} (h : Stored s t) : memDec t = memDec s := by
  obtain ⟨_, _, rfl⟩ := h
  rfl

/-- A range within one page is one part of its own. -/
theorem partsOf_onePage (s : State) {a n : Nat} (hn : 0 < n) (h : a / 0x1000 = (a + n - 1) / 0x1000) : partsOf s a n = [(a, n)] := by
  have hpages : pages a n = [(a, n)] := by
    have hlo : a / 0x1000 * 0x1000 ≤ a := Nat.div_mul_le_self _ _
    have hhi : a + n ≤ (a / 0x1000 + 1) * 0x1000 := by omega
    have hne : n ≠ 0 := by omega
    simp only [pages, hne, if_false, ← h, Nat.sub_self, Nat.zero_add, List.range_one, List.map_cons, List.map_nil, Nat.add_zero]
    have hmax : Nat.max a (a / 0x1000 * 0x1000) = a := Nat.max_eq_left hlo
    have hmin : Nat.min (a + n) ((a / 0x1000 + 1) * 0x1000) = a + n := Nat.min_eq_left hhi
    rw [hmax, hmin, Nat.add_sub_cancel_left]
  rw [partsOf, hpages]
  rfl

/-- A write of one part waits whole where its gate or its order holds it (R309, R12). -/
theorem queueWrite_waits {s : State} {a : Access} {addr : Nat} {bs : Bytes} (hparts : partsOf s addr bs.length = [(addr, bs.length)])
    (h : partWaits s { acc := a, typ := .w, addr := addr, len := bs.length } (addr, bs.length) = true) :
    (queueWrite (raiseN 3) s a addr bs).1 = waitAt s { acc := a, typ := .w, addr := addr, len := bs.length, data := bs } := by
  simp only [queueWrite, hparts, List.filter_cons, h, List.filter_nil, Bool.not_true, Bool.false_eq_true, if_true, if_false, List.map_cons,
    List.map_nil, Nat.sub_self, sliceB_whole]
  rfl

/-- A write of one part that its gate passes is stored at once (R298). -/
theorem queueWrite_passes {s : State} {a : Access} {addr : Nat} {bs : Bytes} (hparts : partsOf s addr bs.length = [(addr, bs.length)])
    (h : partWaits s { acc := a, typ := .w, addr := addr, len := bs.length } (addr, bs.length) = false)
    (hok : (memDec s a .w addr).1 = .ok) :
    (queueWrite (raiseN 3) s a addr bs).1 = (snoop a addr bs.length s).store addr bs := by
  have hnote : noteParts (raiseN 3) a .w ((snoop a addr bs.length s).store addr bs) [(addr, bs.length)]
      = (snoop a addr bs.length s).store addr bs := by
    refine noteParts_of_ok fun p hp => ?_
    rw [memDec_of_stored ((stored_snoop a addr bs.length s).trans (stored_store _ addr bs)), List.mem_singleton.mp hp]
    exact hok
  simp only [queueWrite, hparts, List.filter_cons, h, List.filter_nil, Bool.not_false, Bool.false_eq_true, if_true, if_false, List.map_nil,
    List.append_nil, storeParts, List.foldl_cons, List.foldl_nil, hok, Nat.sub_self, List.drop_zero, List.take_length, hnote]

/-- Where a checkpoint's bytes wait. -/
theorem ckptWaits_iff {u : State} {addr len : Nat} {bs : Bytes} (hlen : bs.length = len) :
    partWaits u { acc := chnVaultAccess, typ := .w, addr := addr, len := bs.length } (addr, bs.length) = true ↔
      (memDec u chnVaultAccess .w addr).1 = .held ∨ mustWait u { acc := chnVaultAccess, typ := .w, addr := addr, len := len } = true := by
  subst hlen
  simp only [partWaits, Bool.or_eq_true, beq_iff_eq]

section Ckpt

variable {p : Fin 2} {m : Msg} {s u : State} (hdel : deliver s p.val m = (u, true)) (hkind : m.kind = 10) (hopen : vaultOpen u m = true)
  (hlen : 0 < m.hN 12 4) (hpage : m.hN 8 4 / 0x1000 = (m.hN 8 4 + m.hN 12 4 - 1) / 0x1000)
include hlen hpage

/-- The bytes of a checkpoint message within one page of the vault are one part. -/
theorem ckpt_partsOf : partsOf u (0x3000000 + m.hN 8 4) (sliceB m.body 0 (m.hN 12 4)).length
    = [(0x3000000 + m.hN 8 4, (sliceB m.body 0 (m.hN 12 4)).length)] := by
  rw [sliceB_length]
  exact partsOf_onePage u hlen (by omega)

include hdel hkind hopen

theorem doCkptRx_waits (h : (memDec u chnVaultAccess .w (0x3000000 + m.hN 8 4)).1 = .held
      ∨ mustWait u { acc := chnVaultAccess, typ := .w, addr := 0x3000000 + m.hN 8 4, len := m.hN 12 4 } = true) :
    doCkptRx p m s = waitAt u { acc := chnVaultAccess, typ := .w, addr := 0x3000000 + m.hN 8 4, len := m.hN 12 4
                                data := sliceB m.body 0 (m.hN 12 4) } := by
  rw [doCkptRx_eq hdel hkind, if_pos hopen,
    queueWrite_waits (ckpt_partsOf hlen hpage) ((ckptWaits_iff (sliceB_length m.body 0 _)).mpr h), sliceB_length]

theorem doCkptRx_passes (h : ¬ ((memDec u chnVaultAccess .w (0x3000000 + m.hN 8 4)).1 = .held
      ∨ mustWait u { acc := chnVaultAccess, typ := .w, addr := 0x3000000 + m.hN 8 4, len := m.hN 12 4 } = true))
    (hok : (memDec u chnVaultAccess .w (0x3000000 + m.hN 8 4)).1 = .ok) :
    doCkptRx p m s = (snoop chnVaultAccess (0x3000000 + m.hN 8 4) (m.hN 12 4) u).store (0x3000000 + m.hN 8 4) (sliceB m.body 0 (m.hN 12 4)) := by
  rw [doCkptRx_eq hdel hkind, if_pos hopen, queueWrite_passes (ckpt_partsOf hlen hpage)
    (Bool.eq_false_iff.mpr (mt (ckptWaits_iff (sliceB_length m.body 0 _)).mp h)) hok, sliceB_length]

end Ckpt

/-! ### YIELD (R370, R388) -/

/-- The state after a YIELD's sender is noted as no holder. -/
def yieldNoted (u : State) (o : Nat) : State :=
  mapUpdate ((evcPulse u 57).setPeer o { (evcPulse u 57).peer o with holder := false, mode := 6 })

/-- Whether a YIELD calls this standby to a takeover. -/
def yieldMine (w : State) (m : Msg) : Bool :=
  bitOf (m.h8 9) 0 && m.h8 8 == w.logicalId && rdnRole w == 2 && w.bit RDN_ROLE 2

theorem yieldMine_iff {w : State} {m : Msg} : yieldMine w m = true ↔
    bitOf (m.h8 9) 0 = true ∧ m.h8 8 = w.logicalId ∧ rdnRole w = 2 ∧ w.bit RDN_ROLE 2 = true := by
  simp only [yieldMine, Bool.and_eq_true, beq_iff_eq, and_assoc]

theorem doYieldRx_eq {p : Fin 2} {m : Msg} {s u : State} (hdel : deliver s p.val m = (u, true)) (hkind : m.kind = 6) :
    doYieldRx p m s = let w := yieldNoted u m.origin.toNat
      if yieldMine w m = true then
        (if w.ctl.target.isSome = true then { w with rdn := { w.rdn with deferred := true } }
          else if w.ctl.mode = .keep ∨ w.ctl.mode = .shadow then beginTakeover w 0 else w)
      else w := by
  have hw : mapUpdate ((evcPulse u 57).setPeer m.origin.toNat { (evcPulse u 57).peer m.origin.toNat with holder := false, mode := Mode.yield.code })
      = yieldNoted u m.origin.toNat := rfl
  have hmine : (bitOf (m.h8 9) 0 && m.h8 8 == (yieldNoted u m.origin.toNat).logicalId && rdnRole (yieldNoted u m.origin.toNat) == 2
      && (yieldNoted u m.origin.toNat).bit RDN_ROLE 2) = yieldMine (yieldNoted u m.origin.toNat) m := rfl
  simp only [doYieldRx, hdel, kind_bne_of_eq hkind, Bool.false_or, Bool.not_true, Bool.false_eq_true, if_false, hw, hmine]
  cases yieldMine (yieldNoted u m.origin.toNat) m <;> simp [-if_false]

/-- Settles O51: a message that is not for this unit or of another kind goes no further; each of the others is the branch of its receiver. -/
theorem chainMessages : Obligations.ChainMessages := by
  refine ⟨fun p m s u here hdel => ?_, fun p m s u hdel => ⟨fun hkind => ⟨fun h => ?_, fun h => ?_⟩, fun hkind => ⟨?_, ?_, ?_, ?_⟩⟩,
    fun s g => ⟨unhold_grp s g, unhold_fld s g, unhold_sameRegsBut s g, unhold_back s g⟩,
    fun p m s u hdel hkind => ⟨fun hd => ?_, fun hd h => ?_, fun host k base seq hd hcore hring => ⟨?_, fun hhost hp hup => ?_⟩⟩,
    fun p m s u hdel hkind => ⟨fun h => ?_, fun o slot base size hcore hrx => ⟨fun h => ?_, fun hunit hslot => ?_⟩⟩,
    fun s c base size item h => acceptItem_full base size item h,
    fun p m s u hdel hkind => ⟨fun h => ?_, fun h => ?_, fun n hmine hcur hband htarget hin hlast hends hfits => ?_⟩,
    fun p m s u hdel hkind => ⟨fun h => ?_, fun h => ?_, fun h hlen hpage => ⟨fun hwaits => ?_, fun hwaits hok => ?_⟩⟩,
    fun p m s u hdel hkind => ⟨fun h => ?_, fun h htarget => ?_, fun h htarget => ?_⟩⟩
  · exact ⟨fun h => congrArg Host.Outcome.next (doReadyRx_other hdel h), fun h => congrArg Host.Outcome.next (doCommitRx_other hdel h),
      fun h => congrArg Host.Outcome.next (doCtrlRx_other hdel h), fun h => congrArg Host.Outcome.next (doStreamRx_other hdel h),
      fun h => congrArg Host.Outcome.next (doSurfaceRx_other hdel h), fun h => congrArg Host.Outcome.next (doCkptRx_other hdel h),
      fun h => congrArg Host.Outcome.next (doYieldRx_other hdel h)⟩
  · exact congrArg Host.Outcome.next ((doReadyRx_eq hdel hkind).trans (if_pos (readyTakes_iff.mpr h)))
  · exact congrArg Host.Outcome.next ((doReadyRx_eq hdel hkind).trans (if_neg (mt readyTakes_iff.mp h)))
  · intro hmember hnext hc
    refine congrArg Host.Outcome.next ((doCommitRx_eq hdel hkind).trans ?_)
    rw [if_pos (commitHears_iff.mpr hmember), if_pos hnext, if_neg (Bool.eq_false_iff.mp hc)]
  · intro hmember hnext hc
    refine congrArg Host.Outcome.next ((doCommitRx_eq hdel hkind).trans ?_)
    rw [if_pos (commitHears_iff.mpr hmember), if_pos hnext, if_pos hc]
    rfl
  · intro hmember hnext hlast
    refine congrArg Host.Outcome.next ((doCommitRx_eq hdel hkind).trans ?_)
    rw [if_pos (commitHears_iff.mpr hmember), if_neg hnext, if_pos (commitLast_iff.mpr hlast)]
    rfl
  · intro h
    refine congrArg Host.Outcome.next ((doCommitRx_eq hdel hkind).trans ?_)
    rcases h with h | ⟨hnext, hlast⟩
    · rw [if_neg (mt commitHears_iff.mp h)]
    · rw [if_neg hnext, if_neg (mt commitLast_iff.mp hlast), ite_self]
  · exact congrArg Host.Outcome.next (doCtrlRx_rdn hdel hd)
  · exact congrArg Host.Outcome.next (doCtrlRx_nodest hdel hkind hd h)
  · exact congrArg Host.Outcome.next (doCtrlRx_entry hdel hkind hd hcore hring)
  · subst hhost
    have hport : ((u.setPart (m.h8 8) { u.part (m.h8 8) with ctrlRing := some (true, k, base, seq + 1) }).part (m.h8 8)).port
        = (u.part (m.h8 8)).port := by rw [State.part_setPart]
    refine congrArg Host.Outcome.next ((doCtrlRx_entry hdel hkind hd hcore hring).trans ?_)
    rw [jobWrites_pcie 39 (m.h8 8) (ctrlWrites u m k base seq) (by rw [onPcie, hport]; exact hp) (by rw [hport]; exact hup), hport]
    rfl
  · exact congrArg Host.Outcome.next (doStreamRx_nodest hdel hkind h)
  · exact congrArg Host.Outcome.next (doStreamRx_stranger hdel hkind hcore hrx h)
  · have hfrag := doStreamRx_fragment hdel hkind hcore hrx hunit hslot
    refine ⟨fun hfirst hoff => takeFragment_takes hfrag (fragmentJoined_first hfirst hoff),
      fun hfirst bs hbuf hlen => takeFragment_takes hfrag (fragmentJoined_next hfirst hbuf hlen), fun h => ?_⟩
    exact congrArg Host.Outcome.next (hfrag.trans (takeFragment_missing (fragmentJoined_missing h)))
  · exact congrArg Host.Outcome.next ((doSurfaceRx_eq hdel hkind).trans (if_neg (mt bandMine_iff.mp h)))
  · exact congrArg Host.Outcome.next ((doSurfaceRx_eq hdel hkind).trans (if_pos (bandMine_iff.mpr h)))
  · refine congrArg Host.Outcome.next ((doSurfaceRx_eq hdel hkind).trans ?_)
    rw [if_pos (bandMine_iff.mpr hmine), if_pos hcur]
    exact takeBand_joins hband htarget hin hlast hends hfits
  · exact congrArg Host.Outcome.next ((doCkptRx_eq hdel hkind).trans (if_neg (mt vaultOpen_iff.mp h)))
  · exact congrArg Host.Outcome.next ((doCkptRx_eq hdel hkind).trans (if_pos (vaultOpen_iff.mpr h)))
  · exact congrArg Host.Outcome.next (doCkptRx_waits hdel hkind (vaultOpen_iff.mpr h) hlen hpage hwaits)
  · exact congrArg Host.Outcome.next (doCkptRx_passes hdel hkind (vaultOpen_iff.mpr h) hlen hpage hwaits hok)
  · exact congrArg Host.Outcome.next ((doYieldRx_eq hdel hkind).trans (if_neg (mt yieldMine_iff.mp h)))
  · refine congrArg Host.Outcome.next ((doYieldRx_eq hdel hkind).trans ?_)
    exact (if_pos (yieldMine_iff.mpr h)).trans (if_pos htarget)
  · refine congrArg Host.Outcome.next ((doYieldRx_eq hdel hkind).trans ?_)
    have hidle : (yieldNoted u m.origin.toNat).ctl.target.isSome = false :=
      Option.isSome_eq_false_iff.mpr (Option.isNone_iff_eq_none.mpr htarget)
    exact (if_pos (yieldMine_iff.mpr h)).trans (if_neg (Bool.eq_false_iff.mp hidle))

end Sys2Proof.Machine

/-!
PROOFS of the composition family: fences and the commit point of a head (R199, R200, R206, R214, R287).
-/

namespace Sys2Proof.Machine

/-! ### A loose write and the job that a command becomes -/

theorem foldl_accepted {α : Type} {f : State → α → State} {q : Req} {op : Nat} (hf : ∀ s x, f (accepted s q op) x = accepted (f s x) q op)
    (xs : List α) (s : State) : xs.foldl f (accepted s q op) = accepted (xs.foldl f s) q op := by
  induction xs generalizing s with
  | nil => rfl
  | cons x xs ih => rw [List.foldl_cons, hf, ih, List.foldl_cons]

theorem snoop_accepted (a : Access) (addr n : Nat) (s : State) (q : Req) (op : Nat) :
    snoop a addr n (accepted s q op) = accepted (snoop a addr n s) q op := by
  refine foldl_accepted (fun t k => ?_) _ s
  have hdesk : (accepted t q op).desk k = t.desk k := rfl
  dsimp only
  rw [hdesk]
  split
  · split <;> rfl
  · rfl

theorem storeParts_accepted (a : Access) (addr : Nat) (bs : Bytes) (s : State) (ps : List (Nat × Nat)) (q : Req) (op : Nat) :
    storeParts a addr bs (accepted s q op) ps = accepted (storeParts a addr bs s ps) q op := by
  refine foldl_accepted (fun t p => ?_) ps s
  have hdec : memDec (accepted t q op) = memDec t := rfl
  rw [hdec, snoop_accepted]
  split <;> rfl

theorem stored_storeParts (a : Access) (addr : Nat) (bs : Bytes) (s : State) (ps : List (Nat × Nat)) : Stored s (storeParts a addr bs s ps) := by
  refine stored_foldl (fun t p => ?_) ps s
  split
  · exact (stored_snoop a _ _ t).trans (stored_store _ _ _)
  · exact ⟨t.desks, t.mem, rfl⟩

/-- The parts of a write that wait (R309). -/
def waitParts (s : State) (a : Access) (addr : Nat) (bs : Bytes) : List (Nat × Nat) :=
  (partsOf s addr bs.length).filter (partWaits s { acc := a, typ := .w, addr := addr, len := bs.length })

/-- Those decided now. -/
def nowParts (s : State) (a : Access) (addr : Nat) (bs : Bytes) : List (Nat × Nat) :=
  (partsOf s addr bs.length).filter fun p => !partWaits s { acc := a, typ := .w, addr := addr, len := bs.length } p

/-- A write on its own whose decided parts all pass: these are stored, the others held (R298, R309). -/
def writeMade (s : State) (a : Access) (addr : Nat) (bs : Bytes) : State :=
  { storeParts a addr bs s (nowParts s a addr bs) with heldAcc := s.heldAcc ++ (waitParts s a addr bs).map fun p =>
      { acc := a, typ := .w, addr := p.1, len := p.2, data := sliceB bs (p.1 - addr) p.2 } }

theorem writeMade_accepted (s : State) (a : Access) (addr : Nat) (bs : Bytes) (q : Req) (op : Nat) :
    writeMade (accepted s q op) a addr bs = accepted (writeMade s a addr bs) q op := by
  have hwait : waitParts (accepted s q op) a addr bs = waitParts s a addr bs := by
    unfold waitParts; rw [partsOf_accepted]; rfl
  have hnow : nowParts (accepted s q op) a addr bs = nowParts s a addr bs := by
    unfold nowParts; rw [partsOf_accepted]; rfl
  unfold writeMade
  rw [hwait, hnow, storeParts_accepted]
  rfl

/-- The first decision of the decided parts that does not pass. -/
def writeFails (s : State) (a : Access) (addr : Nat) (bs : Bytes) : Option AccRes :=
  ((nowParts s a addr bs).map fun p => (memDec s a .w p.1).1).find? fun r => r != .ok

theorem queueWrite_eq (rz : Raiser) (s : State) (a : Access) (addr : Nat) (bs : Bytes) : queueWrite rz s a addr bs =
    let t := noteParts rz a .w (storeParts a addr bs s (nowParts s a addr bs)) (nowParts s a addr bs)
    ({ t with heldAcc := t.heldAcc ++ (waitParts s a addr bs).map fun p =>
        { acc := a, typ := .w, addr := p.1, len := p.2, data := sliceB bs (p.1 - addr) p.2 } },
      (writeFails s a addr bs).getD (if (waitParts s a addr bs).isEmpty then .ok else .held)) := by
  have hmatch : queueWrite rz s a addr bs =
      let t := noteParts rz a .w (storeParts a addr bs s (nowParts s a addr bs)) (nowParts s a addr bs)
      ({ t with heldAcc := t.heldAcc ++ (waitParts s a addr bs).map fun p =>
          { acc := a, typ := .w, addr := p.1, len := p.2, data := sliceB bs (p.1 - addr) p.2 } },
        match writeFails s a addr bs with
        | some r => r
        | none => if (waitParts s a addr bs).isEmpty then .ok else .held) := rfl
  rw [hmatch]
  cases writeFails s a addr bs <;> rfl

/-- A part that is decided now is not held. -/
theorem not_held_of_mem_nowParts {s : State} {a : Access} {addr : Nat} {bs : Bytes} {x : Nat × Nat} (hx : x ∈ nowParts s a addr bs) :
    (memDec s a .w x.1).1 ≠ .held := by
  have hgoes := (List.mem_filter.mp hx).2
  intro hheld
  simp [partWaits, hheld] at hgoes

/-- The decision a write fails with. -/
theorem writeFails_ne {s : State} {a : Access} {addr : Nat} {bs : Bytes} {r : AccRes} (h : writeFails s a addr bs = some r) :
    r ≠ .ok ∧ r ≠ .held := by
  obtain ⟨x, hx, rfl⟩ := List.mem_map.mp (List.mem_of_find?_eq_some h)
  exact ⟨by simpa using List.find?_some h, not_held_of_mem_nowParts hx⟩

theorem looseWrite_nothing (s : State) (slot p addr : Nat) (bs : Bytes) : looseWrite s slot p addr bs =
    ((queueWrite (raiseN 3) s (engine slot p) addr bs).1,
      if (queueWrite (raiseN 3) s (engine slot p) addr bs).2 = .held then .ok else (queueWrite (raiseN 3) s (engine slot p) addr bs).2) := rfl

/-- A loose write fails with its first decision that fails, or is made as far as its gates let it. -/
theorem looseWrite_fails {s : State} {slot p addr : Nat} {bs : Bytes} {r : AccRes} (h : writeFails s (engine slot p) addr bs = some r) :
    (looseWrite s slot p addr bs).2 = r := by
  have hresult : (queueWrite (raiseN 3) s (engine slot p) addr bs).2 = r := by rw [queueWrite_eq, h]; rfl
  rw [looseWrite_nothing, hresult]
  exact if_neg (writeFails_ne h).2

theorem looseWrite_made {s : State} {slot p addr : Nat} {bs : Bytes} (h : writeFails s (engine slot p) addr bs = none) :
    looseWrite s slot p addr bs = (writeMade s (engine slot p) addr bs, .ok) := by
  have hpass : ∀ x ∈ nowParts s (engine slot p) addr bs, (memDec s (engine slot p) .w x.1).1 = .ok := fun x hx => by
    simpa using List.find?_eq_none.mp h _ (List.mem_map_of_mem hx)
  have hnote : noteParts (raiseN 3) (engine slot p) .w (storeParts (engine slot p) addr bs s (nowParts s (engine slot p) addr bs))
      (nowParts s (engine slot p) addr bs) = storeParts (engine slot p) addr bs s (nowParts s (engine slot p) addr bs) :=
    noteParts_of_ok fun x hx => by rw [memDec_of_stored (stored_storeParts _ _ _ _ _)]; exact hpass x hx
  have hheld : (storeParts (engine slot p) addr bs s (nowParts s (engine slot p) addr bs)).heldAcc = s.heldAcc := by
    obtain ⟨_, _, heq⟩ := stored_storeParts (engine slot p) addr bs s (nowParts s (engine slot p) addr bs)
    rw [heq]
  rw [looseWrite_nothing, queueWrite_eq, h, hnote]
  refine Prod.ext ?_ ?_
  · dsimp only [writeMade]
    rw [hheld]
  · dsimp only [Option.getD_none]
    split <;> simp_all

theorem writeFails_none_of_ok {s : State} {slot p addr : Nat} {bs : Bytes} (h : (looseWrite s slot p addr bs).2 = .ok) :
    writeFails s (engine slot p) addr bs = none := by
  cases hfind : writeFails s (engine slot p) addr bs with
  | none => rfl
  | some r => exact absurd ((looseWrite_fails hfind).symm.trans h) (writeFails_ne hfind).1

theorem writeMade_nextJob (s : State) (a : Access) (addr : Nat) (bs : Bytes) : (writeMade s a addr bs).nextJob = s.nextJob := by
  obtain ⟨_, _, heq⟩ := stored_storeParts a addr bs s (nowParts s a addr bs)
  rw [writeMade, heq]

theorem jobWrite_nextJob {s : State} {slot p addr : Nat} {host : Bool} {bs : Bytes} (h : (jobWrite s slot p host addr bs).2 = stComplete) :
    (jobWrite s slot p host addr bs).1.nextJob = s.nextJob := by
  unfold jobWrite at h ⊢
  cases hpcie : host && onPcie s p with
  | true =>
    rw [if_pos rfl]
    dsimp only
    split <;> rfl
  | false =>
    simp only [hpcie, Bool.false_eq_true, if_false, AccRes.status_eq_complete] at h ⊢
    rw [looseWrite_made (writeFails_none_of_ok h)]
    exact writeMade_nextJob _ _ _ _

/-- A write of a job's value that succeeds is the same for the job that a command becomes. -/
theorem jobWrite_accepted {s : State} {slot p addr : Nat} {host : Bool} {bs : Bytes} (q : Req) (op : Nat)
    (h : (jobWrite s slot p host addr bs).2 = stComplete) :
    jobWrite (accepted s q op) slot p host addr bs = (accepted (jobWrite s slot p host addr bs).1 q op, stComplete) := by
  have hon : onPcie (accepted s q op) p = onPcie s p := rfl
  unfold jobWrite at h ⊢
  rw [hon]
  cases hpcie : host && onPcie s p with
  | true =>
    have hup : linkUp (accepted s q op) ((accepted s q op).part p).port = linkUp s (s.part p).port := rfl
    simp only [if_true, hup]
    split <;> rfl
  | false =>
    simp only [hpcie, Bool.false_eq_true, if_false, AccRes.status_eq_complete] at h ⊢
    have hfails := writeFails_none_of_ok h
    have hfails' : writeFails (accepted s q op) (engine slot p) (fieldAddr host addr) bs = none := by
      unfold writeFails nowParts at hfails ⊢
      rw [partsOf_accepted]
      exact hfails
    rw [looseWrite_made hfails, looseWrite_made hfails', writeMade_accepted]
    rfl

/-! ### FENCE_SIGNAL and FENCE_WAIT (R214, R287) -/

theorem ringBusy_iff {s : State} {j : Job} : ringBusy s j = true ↔
    (∃ k ∈ s.jobs, k.id < j.id ∧ k.req.part = j.req.part ∧ k.req.ring = j.req.ring)
      ∨ ∃ c ∈ s.cpls, c.part = j.req.part.val ∧ c.ring = j.req.ring.val := by
  simp only [ringBusy, Bool.or_eq_true, List.any_eq_true, Bool.and_eq_true, decide_eq_true_eq, beq_iff_eq, and_assoc]

/-- Where no job waits to signal, the one just accepted is the only one looked at. -/
theorem signals_accepted {s : State} {q : Req} (h : ∀ j ∈ s.jobs, j.id < s.nextJob ∧ j.opcode ≠ 0x0A01) :
    (accepted s q 0x0A01).jobs.filter (fun j => j.opcode.toNat == 0x0A01) = [jobOf s q 0x0A01] := by
  have hnone : s.jobs.filter (fun j => j.opcode.toNat == 0x0A01) = [] := by
    refine List.filter_eq_nil_iff.mpr fun j hj hop => (h j hj).2 (BitVec.eq_of_toNat_eq ?_)
    simpa using hop
  have hjobs : (accepted s q 0x0A01).jobs = s.jobs ++ [jobOf s q 0x0A01] := rfl
  rw [hjobs, List.filter_append, hnone]
  rfl

theorem fireSignals_accepted {s : State} {q : Req} (h : ∀ j ∈ s.jobs, j.id < s.nextJob ∧ j.opcode ≠ 0x0A01) :
    fireSignals (accepted s q 0x0A01) =
      if ringBusy (accepted s q 0x0A01) (jobOf s q 0x0A01) || signalHeld s q then accepted s q 0x0A01
      else
        let x := jobWrite (accepted s q 0x0A01) 34 q.part.val (q.bit 16 0) (q.u64 24) (leBytes 8 (q.u64 32))
        finish x.1 s.nextJob x.2 := by
  unfold fireSignals
  rw [signals_accepted h]
  rfl

/-- The check both fence commands begin with passes. -/
theorem fenceGuard_pass {s : State} {q : Req} {id : Nat} {go : State → State} (h : q.u64 24 % 8 = 0) :
    guardJob s id [(q.u64 24 % 8 != 0, stBadRange)] go = go s :=
  guardJob_pass (by simp [firstFail, h])

theorem doFenceSignal_admitted {q : Req} {s : State} (h : Admitted s q maskFence) (haddr : q.u64 24 % 8 = 0) :
    doFenceSignal q s = fireSignals (accepted s q 0x0A01) :=
  (soile_admitted h).trans (fenceGuard_pass haddr)

theorem doFenceSignal_writes {q : Req} {s : State} (h : Admitted s q maskFence) (haddr : q.u64 24 % 8 = 0)
    (hjobs : ∀ j ∈ s.jobs, j.id < s.nextJob ∧ j.opcode ≠ 0x0A01) (hring : ∀ j ∈ s.jobs, j.req.part ≠ q.part ∨ j.req.ring ≠ q.ring)
    (hcpls : ∀ c ∈ s.cpls, c.part ≠ q.part.val ∨ c.ring ≠ q.ring.val) (hheld : signalHeld s q = false)
    (hok : (jobWrite s 34 q.part.val (q.bit 16 0) (q.u64 24) (leBytes 8 (q.u64 32))).2 = stComplete) :
    doFenceSignal q s = done (jobWrite s 34 q.part.val (q.bit 16 0) (q.u64 24) (leBytes 8 (q.u64 32))).1 q 0x0A01 stComplete := by
  have hfree : ringBusy (accepted s q 0x0A01) (jobOf s q 0x0A01) = false := by
    refine Bool.eq_false_iff.mpr (mt ringBusy_iff.mp ?_)
    rintro (⟨k, hk, hid, hpart, hsame⟩ | ⟨c, hc, hpart, hsame⟩)
    · rcases List.mem_append.mp hk with hk | hk
      · exact (hring k hk).elim (· hpart) (· hsame)
      · rw [List.mem_singleton.mp hk] at hid
        exact Nat.lt_irrefl _ hid
    · exact (hcpls c hc).elim (· hpart) (· hsame)
  rw [doFenceSignal_admitted h haddr, fireSignals_accepted hjobs, hfree, hheld, jobWrite_accepted q 0x0A01 hok]
  dsimp only [Bool.or_self, Bool.false_eq_true, if_false]
  rw [← jobWrite_nextJob hok]
  exact finish_accepted _ _ _ _ _

theorem doFenceSignal_busy {q : Req} {s : State} (h : Admitted s q maskFence) (haddr : q.u64 24 % 8 = 0)
    (hjobs : ∀ j ∈ s.jobs, j.id < s.nextJob ∧ j.opcode ≠ 0x0A01) (hring : ∃ j ∈ s.jobs, j.req.part = q.part ∧ j.req.ring = q.ring) :
    doFenceSignal q s = accepted s q 0x0A01 := by
  obtain ⟨j, hj, hpart, hsame⟩ := hring
  have hbusy : ringBusy (accepted s q 0x0A01) (jobOf s q 0x0A01) = true :=
    ringBusy_iff.mpr (.inl ⟨j, List.mem_append_left _ hj, (hjobs j hj).1, hpart, hsame⟩)
  rw [doFenceSignal_admitted h haddr, fireSignals_accepted hjobs, hbusy]
  rfl

theorem doFenceWait_admitted {q : Req} {s : State} (h : Admitted s q maskFence) (haddr : q.u64 24 % 8 = 0) :
    doFenceWait q s = (accepted s q 0x0A02).setPart q.part.val (setCring (s.part q.part.val) q.ring.val
      { cring (s.part q.part.val) q.ring.val with wait := some (s.nextJob, q.bit 16 0, BitVec.ofNat 64 (q.u64 24), BitVec.ofNat 64 (q.u64 32)) }) :=
  (soile_admitted h).trans (fenceGuard_pass haddr)

/-- A FENCE_WAIT's ring is free to go on. -/
def waitFreed (t : State) (p r : Nat) : State :=
  t.setPart p (setCring (t.part p) r { cring (t.part p) r with wait := none })

theorem pcieFence_answers {s : State} {port : Nat} {v : BitVec 64} (hup : linkUp s port = true) :
    pcieFence s port (some v) = (s.setBit (HIF_HP_STATUS port) 7 true, some v) := by
  rw [pcieFence, hup]
  rfl

theorem pcieFence_fails {s : State} {port : Nat} {read : Option (BitVec 64)} (h : linkUp s port = false ∨ read = none) :
    pcieFence s port read = (s.inc (HIF_HP_DMA_ERR port), none) := by
  rcases h with h | h
  · rw [pcieFence, h]; rfl
  · rw [pcieFence, h, Option.isSome_none, Bool.and_false]; rfl

section WaitPoll

variable {p : Fin 16} {r : Fin 8} {s : State} {id : Nat} {host : Bool} {addr target : BitVec 64} {read : Option (BitVec 64)}
  (hwait : (cring (s.part p.val) r.val).wait = some (id, host, addr, target))
include hwait

theorem doFenceWaitPoll_pcie (hhost : host = true) (hp : onPcie s p.val = true) : doFenceWaitPoll p r read s =
    ((pcieFence s (s.part p.val).port read).2.elim (finish (waitFreed (pcieFence s (s.part p.val).port read).1 p.val r.val) id stHostDma) fun v =>
      if fenceReached v target then finish (waitFreed (pcieFence s (s.part p.val).port read).1 p.val r.val) id stComplete
      else (pcieFence s (s.part p.val).port read).1) := by
  have hon : (host && onPcie s p.val) = true := by rw [hhost, hp]; rfl
  simp only [doFenceWaitPoll, hwait, hon, if_true]
  cases (pcieFence s (s.part p.val).port read).2 <;> rfl

theorem doFenceWaitPoll_internal (h : host = false ∨ onPcie s p.val = false) :
    let x := engRead s 34 p.val (fieldAddr host addr.toNat) 8
    doFenceWaitPoll p r read s = if x.2.1 = .held then s
      else if x.2.1 = .ok then
        (if fenceReached (BitVec.ofNat 64 (leNat x.2.2)) target then finish (waitFreed x.1 p.val r.val) id stComplete else x.1)
      else finish (waitFreed x.1 p.val r.val) id x.2.1.status := by
  have hoff : (host && onPcie s p.val) = false := by
    rcases h with h | h
    · rw [h]; rfl
    · rw [h, Bool.and_false]
  simp only [doFenceWaitPoll, hwait, hoff, Bool.false_eq_true, if_false]
  cases (engRead s 34 p.val (fieldAddr host addr.toNat) 8).2.1 <;> rfl

end WaitPoll

/-! ### The commit point (R199) -/

/-- What the commit point does to a pending update. -/
def evaluated (s : State) (p : Pending) : Pending :=
  if p.armed || p.sealN.isSome then p else if p.fence.isSome then { p with counts := true }
  else if pendWriter s p then p else { p with armed := true, counts := true }

theorem commitLayer_eq (s : State) (i : Nat) : commitLayer s i =
    if !(s.layer i).destroy.isEmpty then s.setLayer i { s.layer i with destroyArmed := true }
    else armFollow (s.setLayer i { s.layer i with pend := (s.layer i).pend.map (evaluated s) }) i := rfl

theorem onlyLayer_commitLayer (s : State) (i : Nat) : OnlyLayer i s (commitLayer s i) := by
  rw [commitLayer_eq]
  split
  · exact onlyLayer_setLayer s i _
  · exact (onlyLayer_setLayer s i _).trans (onlyLayer_armFollow _ i)

theorem commitLayer_destroy {s : State} {i : Nat} (h : (s.layer i).destroy ≠ []) :
    ((commitLayer s i).layer i).destroyArmed = true ∧ ((commitLayer s i).layer i).pend = (s.layer i).pend := by
  have hsome : (!(s.layer i).destroy.isEmpty) = true := by simpa using h
  rw [commitLayer_eq, if_pos hsome, State.layer_setLayer]
  exact ⟨rfl, rfl⟩

theorem commitLayer_pend {s : State} {i : Nat} (h : (s.layer i).destroy = []) :
    ((commitLayer s i).layer i).pend = (s.layer i).pend.map (evaluated s) := by
  have hnone : ¬ (!(s.layer i).destroy.isEmpty) = true := by simpa using h
  rw [commitLayer_eq, if_neg hnone, (armFollow_layer _ i).1, State.layer_setLayer]

/-- Whether an update is evaluated as armed does not depend on the layers and the heads. -/
theorem evaluated_congr {s t : State} {h : Nat} {x : Head} (hback : OnlyLayers (s.setHead h x) t) : evaluated t = evaluated s := by
  obtain ⟨ls, rfl⟩ := hback
  rfl

/-- The head's layers at its commit point, its newest follow outputs noted. -/
def committed (s : State) (n : Nat) : State :=
  (layersOf s n).foldl (fun s x => commitLayer s x.1) (s.setHead n { s.head n with newest := newestAll s })

theorem doCommitPoint_runs {n : Fin 16} {s : State} (hcore : s.ctl.core = true) (hon : (s.head n.val).enabled = true)
    (hfirst : (s.head n.val).judged = false) : doCommitPoint n s = (committed s n.val).setHead n.val
      { (committed s n.val).head n.val with judged := true, flipSets := flipSetsOf (committed s n.val) n.val } := by
  have hgo : (!s.ctl.core || !(s.head n.val).enabled || (s.head n.val).judged) = false := by rw [hcore, hon, hfirst]; rfl
  unfold doCommitPoint
  dsimp only
  rw [hgo]
  rfl

theorem onlyLayers_committed (s : State) (n : Nat) : OnlyLayers (s.setHead n { s.head n with newest := newestAll s }) (committed s n) :=
  onlyLayers_pass onlyLayer_commitLayer _ _

/-- What the commit point leaves of a layer is what its turn does. -/
theorem layer_committed {s : State} {n i : Nat} {l : Layer} (hnodup : ((layersOf s n).map (·.1)).Nodup)
    (hlisted : ∀ x ∈ layersOf s n, s.layer x.1 = x.2) (hl : (i, l) ∈ layersOf s n) :
    ∃ t, t.layer i = l ∧ evaluated t = evaluated s ∧ (committed s n).layer i = (commitLayer t i).layer i := by
  obtain ⟨t, hback, hlayer, hpass⟩ := layer_pass onlyLayer_commitLayer hnodup (List.mem_map_of_mem hl)
    (s.setHead n { s.head n with newest := newestAll s })
  exact ⟨t, hlayer.trans (hlisted _ hl), evaluated_congr hback, hpass⟩

theorem commitPoint_runs {n : Fin 16} {s : State} (hcore : s.ctl.core = true) (hon : (s.head n.val).enabled = true)
    (hfirst : (s.head n.val).judged = false) (hnodup : ((layersOf s n.val).map (·.1)).Nodup)
    (hlisted : ∀ x ∈ layersOf s n.val, s.layer x.1 = x.2) :
    ∃ t, doCommitPoint n s = t ∧ (t.head n.val).judged = true ∧ t.mem = s.mem ∧ t.regs = s.regs ∧ t.cpls = s.cpls
      ∧ (∀ i l, (i, l) ∈ layersOf s n.val → l.destroy ≠ [] → (t.layer i).destroyArmed = true ∧ (t.layer i).pend = l.pend)
      ∧ (∀ i l, (i, l) ∈ layersOf s n.val → l.destroy = [] → (t.layer i).pend = l.pend.map (evaluated s)) := by
  have hback := onlyLayers_committed s n.val
  refine ⟨_, doCommitPoint_runs hcore hon hfirst, by rw [State.head_setHead], ?_, ?_, ?_, fun i l hl hdestroy => ?_, fun i l hl hdestroy => ?_⟩
  · obtain ⟨_, heq⟩ := hback; rw [heq]; rfl
  · obtain ⟨_, heq⟩ := hback; rw [heq]; rfl
  · obtain ⟨_, heq⟩ := hback; rw [heq]; rfl
  · obtain ⟨t, rfl, -, hturn⟩ := layer_committed hnodup hlisted hl
    exact hturn ▸ commitLayer_destroy hdestroy
  · obtain ⟨t, rfl, heval, hturn⟩ := layer_committed hnodup hlisted hl
    exact heval ▸ (congrArg Layer.pend hturn).trans (commitLayer_pend hdestroy)

theorem doCommitPoint_again {n : Fin 16} {s : State} (hagain : (s.head n.val).judged = true) : doCommitPoint n s = s := by
  unfold doCommitPoint
  dsimp only
  rw [hagain, Bool.or_true]
  rfl

/-! ### Fence reads (R200, R206) -/

theorem doFenceReadReturn_set {n : Fin 16} {s : State} {host : Bool} {addr : BitVec 64} {read : Option (BitVec 64)}
    {f : Bool × BitVec 64 × BitVec 64} (hcore : s.ctl.core = true) (hon : (s.head n.val).enabled = true)
    (hset : (s.head n.val).flipSets.find? (fun f => f.1 == host && f.2.1 == addr) = some f)
    (hgoes : fenceWaits s (headOwner s n.val) host addr = false) :
    doFenceReadReturn n host addr read s =
      judgeSet ((readFence s (headOwner s n.val) host addr read).1.setHead n.val
        { s.head n.val with flipSets := (s.head n.val).flipSets.erase f }) n.val f (readFence s (headOwner s n.val) host addr read).2 := by
  simp only [doFenceReadReturn, hcore, hon, Bool.not_true, Bool.false_eq_true, if_false, if_true, hset, hgoes]

theorem doFenceReadReturn_seal {n : Fin 16} {s : State} {addr v : BitVec 64} {g : Nat} (hcore : s.ctl.core = true)
    (hnone : (s.head n.val).enabled = false ∨ (s.head n.val).flipSets.find? (fun f => f.1 == true && f.2.1 == addr) = none)
    (hseal : sealOf s n.val = some g) (hp : onPcie s (headOwner s n.val) = true) :
    doFenceReadReturn n true addr (some v) s = s.setGrp g { s.grp g with reached := ((s.grp g).reached
      ++ (layersOf s n.val).flatMap fun x => (x.2.pend.filterMap (·.fence)).filter fun f =>
        f.1 == true && f.2.1 == addr && fenceReached v f.2.2).eraseDups } := by
  have hfind : (if (s.head n.val).enabled then (s.head n.val).flipSets.find? fun f => f.1 == true && f.2.1 == addr else none) = none := by
    rcases hnone with hoff | hnone
    · rw [hoff]; rfl
    · rw [hnone]; exact ite_self _
  simp only [doFenceReadReturn, hcore, Bool.not_true, Bool.false_eq_true, if_false, hfind, hseal, hp, Bool.and_self, if_true]

theorem doFenceDeadline_runs {n : Fin 16} {s : State} (hcore : s.ctl.core = true) (hon : (s.head n.val).enabled = true) :
    doFenceDeadline n s = (s.head n.val).flipSets.foldl (fun s f => judgeSet s n.val f none)
      (s.setHead n.val { s.head n.val with flipSets := [] }) := by
  simp only [doFenceDeadline, hcore, hon, Bool.not_true, Bool.or_self, Bool.false_eq_true, if_false]

/-- Settles O10: a signal whose ring is free writes and completes, a wait stays in its ring; the commit point is a pass over the head's
layers. -/
theorem fencesAndCommits : Obligations.FencesAndCommits := by
  refine ⟨⟨fun q s h haddr hjobs => ⟨fun hring hcpls hheld hok => ?_, fun hring => ?_⟩, fun q s h haddr => ?_,
      fun p r s id host addr target read hwait => ⟨fun hhost hp => ⟨fun v hv hto => ?_, fun v hv hto => ?_, fun hv => ?_, ?_, pcieFence_fails⟩,
        fun hin => ⟨fun hheld => ?_, fun hok hto => ?_, fun hok hto => ?_, fun hok hheld => ?_⟩⟩⟩,
    fun n s hcore hon hfirst hnodup hlisted => ?_, fun n s hcore hon hagain => ?_,
    fun n s host addr read f hcore hon hset hgoes => ?_, fun n s addr v g hcore hnone hseal hp => ?_, fun n s hcore hon => ?_⟩
  · exact congrArg Host.Outcome.next (doFenceSignal_writes h haddr hjobs hring hcpls hheld hok)
  · exact congrArg Host.Outcome.next (doFenceSignal_busy h haddr hjobs hring)
  · exact congrArg Host.Outcome.next (doFenceWait_admitted h haddr)
  · refine congrArg Host.Outcome.next ((doFenceWaitPoll_pcie hwait hhost hp).trans ?_)
    rw [hv, Option.elim_some, hto, if_pos rfl]
    rfl
  · refine congrArg Host.Outcome.next ((doFenceWaitPoll_pcie hwait hhost hp).trans ?_)
    rw [hv, Option.elim_some, hto, if_neg Bool.false_ne_true]
  · refine congrArg Host.Outcome.next ((doFenceWaitPoll_pcie hwait hhost hp).trans ?_)
    rw [hv]
    rfl
  · rintro v hup rfl
    exact pcieFence_answers hup
  · exact congrArg Host.Outcome.next ((doFenceWaitPoll_internal hwait hin).trans (if_pos hheld))
  · refine congrArg Host.Outcome.next ((doFenceWaitPoll_internal hwait hin).trans ?_)
    rw [if_neg (by rw [hok]; decide), if_pos hok, if_pos hto]
    rfl
  · refine congrArg Host.Outcome.next ((doFenceWaitPoll_internal hwait hin).trans ?_)
    rw [if_neg (by rw [hok]; decide), if_pos hok, if_neg (Bool.eq_false_iff.mp hto)]
  · refine congrArg Host.Outcome.next ((doFenceWaitPoll_internal hwait hin).trans ?_)
    rw [if_neg hheld, if_neg hok]
    rfl
  · obtain ⟨t, heq, hrest⟩ := commitPoint_runs hcore hon hfirst hnodup hlisted
    exact ⟨t, congrArg Host.Outcome.next heq, hrest⟩
  · exact congrArg Host.Outcome.next (doCommitPoint_again hagain)
  · exact congrArg Host.Outcome.next (doFenceReadReturn_set hcore hon hset hgoes)
  · exact congrArg Host.Outcome.next (doFenceReadReturn_seal hcore hnone hseal hp)
  · exact congrArg Host.Outcome.next (doFenceDeadline_runs hcore hon)

end Sys2Proof.Machine

/-!
PROOFS of the composition family: a gang HEAD_SET that cuts a training off (R187, R221, R226).
-/

namespace Sys2Proof.Machine

/-- A HEAD_SET of partition 0 that makes head 0 a gang of 1280 by 480 pixels. -/
def gangSet : Req :=
  { part := 0, ring := 0, index := 0, cring := 0, barrier := false, tag := 7, host := .error
    body := 1 <<< 8 ||| 25000 <<< 32 ||| 1280 <<< 64 ||| 160 <<< 112 ||| 480 <<< 128 ||| 8 <<< 144 ||| 1 <<< 160 ||| 1 <<< 176 ||| 0xFFFF <<< 224 }

/-- A part in RUN whose odd head trains its link for the job of the next number. -/
def trainsNext : State :=
  { ctl := { mode := .run, ring := true, core := true, coreEn := true, corePg := true, primeOk := true }
    parts := [(0, { state := .active, heads := 3 })]
    heads := [(1, { tx := .training, linkJob := some 0 })]
    regs := [(PRT_SW_CP_CFG 0 0, 0x100)] }

/-- It meets the common conditions. -/
theorem gangSet_admitted : Admitted trainsNext gangSet maskHeadSet := by decide +kernel

/-- The clause on HEAD_SET has it complete with status COMPLETE. -/
def clauseEnd : State :=
  let n := gangSet.u8 16
  let h := headOf (trainsNext.head n) gangSet
  let fits := h.src = 3 ∨ (h.src = 0 ∧ h.lanes = 4)
  let u := if h.gang then linkCut (trainsNext.setHead n h) (n + 1) else trainsNext.setHead n h
  let v := if h.gang = true ∧ ¬ fits ∧ h.tx ≠ .dark then linkCut u n else u
  let t := if (trainsNext.head n).isSet && (trainsNext.head n).tg != h.tg then tgRetime v (trainsNext.head n).tg else v
  done (tgRetime t h.tg) gangSet 0x0B01 stComplete

theorem clauseEnd_status : clauseEnd.cpls.map (·.status) = [BitVec.ofNat 16 stComplete] := by decide +kernel

/-- The command runs as a job of that number, which the cut training ends LINK_FAIL. -/
theorem doHeadSet_status : (doHeadSet gangSet trainsNext).cpls.map (·.status) = [BitVec.ofNat 16 stLinkFail] := by decide +kernel

/-- Refutes O9 (R187, R221, R226): the clause on HEAD_SET cuts the odd slot's training off before the command has become a job, and does
not ask that the job that trains be an earlier one. Where the head's training carries the number that the command takes, cutting it off
ends the HEAD_SET itself with LINK_FAIL, where the clause has it complete. -/
theorem not_layersAndHeads : ¬ Obligations.LayersAndHeads := by
  intro h
  obtain ⟨-, hset, -⟩ := h
  obtain ⟨hclause, -⟩ := hset gangSet trainsNext gangSet_admitted (by decide +kernel) (by decide +kernel) (by decide +kernel) (by decide +kernel)
    (by decide +kernel) (by decide +kernel) (by decide +kernel) (by decide +kernel) (by decide +kernel) (by decide +kernel) (by decide +kernel)
    (by decide +kernel) (by decide +kernel)
  have hsame : doHeadSet gangSet trainsNext = clauseEnd := Host.Outcome.next.inj hclause
  have hstatus := doHeadSet_status
  rw [hsame, clauseEnd_status] at hstatus
  exact absurd hstatus (by decide)

end Sys2Proof.Machine

/-!
PROOFS of the composition family: the evaluation of a seal group leaves what an instant reads of it (R206, R207). It can read fences in the
part's memory, and a refused read raises an event, with whatever that brings: a record, a write of it that is refused, the entry into YIELD.
The frame of the liveness family covers the registers of LDG and VRD alone; this one covers the compositor's, the timing groups and the unit.
-/

namespace Sys2Proof.Machine

/-! ### What an evaluation keeps -/

/-- The timing groups, the registers of the compositor and the unit's logical ID are those of before. -/
structure KeepsSealing (s t : State) : Prop where
  tgs  : t.tgs = s.tgs
  regs : ∀ a, 0xE0000 ≤ a → a < 0xF0000 → t.reg a = s.reg a
  unit : t.logicalId = s.logicalId

theorem KeepsSealing.refl (s : State) : KeepsSealing s s := ⟨rfl, fun _ _ _ => rfl, rfl⟩

theorem KeepsSealing.trans {s t u : State} (h : KeepsSealing s t) (k : KeepsSealing t u) : KeepsSealing s u :=
  ⟨k.tgs.trans h.tgs, fun a hl hu => (k.regs a hl hu).trans (h.regs a hl hu), k.unit.trans h.unit⟩

/-- A change of neither a register nor a timing group. -/
theorem KeepsSealing.quiet {s t : State} (hr : t.regs = s.regs) (ht : t.tgs = s.tgs) : KeepsSealing s t :=
  ⟨ht, fun a _ _ => congrArg (tget regReset · a) hr, congrArg (fun r => bitsOf (tget regReset r CHN_LOGICAL).toNat 0 3) hr⟩

/-- The same with what follows it. -/
theorem KeepsSealing.after {s t u : State} (k : KeepsSealing t u) (hr : t.regs = s.regs) (ht : t.tgs = s.tgs) : KeepsSealing s u :=
  (KeepsSealing.quiet hr ht).trans k

theorem KeepsSealing.ite {s t u : State} {c : Prop} [Decidable c] (ht : KeepsSealing s t) (hu : KeepsSealing s u) :
    KeepsSealing s (if c then t else u) := by
  split
  · exact ht
  · exact hu

theorem KeepsSealing.foldl_mem {α : Type} {f : State → α → State} {xs : List α} (h : ∀ x ∈ xs, ∀ s, KeepsSealing s (f s x)) (s : State) :
    KeepsSealing s (xs.foldl f s) := by
  induction xs generalizing s with
  | nil => exact .refl s
  | cons x xs ih => exact (h x List.mem_cons_self s).trans (ih (fun y hy => h y (List.mem_cons_of_mem x hy)) _)

theorem KeepsSealing.foldl {α : Type} {f : State → α → State} (h : ∀ s x, KeepsSealing s (f s x)) (xs : List α) (s : State) :
    KeepsSealing s (xs.foldl f s) := .foldl_mem (fun x _ s => h s x) s

theorem KeepsSealing.foldl_fst {α β : Type} {f : State × β → α → State × β} (h : ∀ r x, KeepsSealing r.1 (f r x).1) (xs : List α)
    (r : State × β) : KeepsSealing r.1 (xs.foldl f r).1 := by
  induction xs generalizing r with
  | nil => exact .refl r.1
  | cons x xs ih => exact (h r x).trans (ih _)

theorem KeepsSealing.each {f : State → Nat → State} (h : ∀ s k, KeepsSealing s (f s k)) (n : Nat) (s : State) : KeepsSealing s (s.each n f) :=
  .foldl h _ s

/-! ### Registers that an event writes -/

/-- A register of another block, and not the one that holds the logical ID. -/
def OffSealing (a : Nat) : Prop := (a < 0xE0000 ∨ 0xF0000 ≤ a) ∧ a ≠ CHN_LOGICAL

/-- Those above the chain's first registers are. -/
theorem offSealing_above {a : Nat} (h : 0x270010 ≤ a) : OffSealing a := by
  unfold OffSealing CHN_LOGICAL
  omega

theorem offSealing_array {base : Nat} (off : Nat) (h : 0x270010 ≤ base) : OffSealing (base + off) := offSealing_above (Nat.le_add_right_of_le h)

theorem offSealing_block {base n off : Nat} (h : 40 ≤ base) : OffSealing ((base + n) * 0x10000 + off) := offSealing_above (by omega)

section Registers

variable {a : Nat} (s : State) (ha : OffSealing a)
include ha

theorem keepsSealing_setReg (v : Word) : KeepsSealing s (s.setReg a v) := by
  obtain ⟨hblock, hid⟩ := ha
  refine ⟨rfl, fun b hl hu => State.reg_setReg_ne s v (by omega), ?_⟩
  rw [State.logicalId, State.logicalId]
  exact State.fld_congr (State.reg_setReg_ne s v (Ne.symm hid)) _ _

theorem keepsSealing_setFld (lo n v : Nat) : KeepsSealing s (s.setFld a lo n v) := keepsSealing_setReg s ha _

theorem keepsSealing_inc : KeepsSealing s (s.inc a) := keepsSealing_setReg s ha _

theorem keepsSealing_setPair {b : Nat} (hb : OffSealing b) (v : Nat) : KeepsSealing s (s.setPair a b v) :=
  (keepsSealing_setReg s ha _).trans (keepsSealing_setReg _ hb _)

end Registers

/-- The holder bit stands beside the logical ID. -/
theorem keepsSealing_clearHolder (s : State) : KeepsSealing s (s.setBit CHN_LOGICAL 3 false) :=
  ⟨rfl, fun b _ hu => State.reg_setReg_ne s _ (by unfold CHN_LOGICAL; omega), State.fld_setFld_beside _ _ _ (by decide) (.inl (by decide))⟩

/-- What the event controller changes. -/
theorem KeepsSealing.of_evcOnly {s t : State} (h : EvcOnly s t) : KeepsSealing s t := by
  have hlist : ∀ b ∈ EVC_MERGED :: evcRegs, OffSealing b := by unfold OffSealing; decide
  have hregs : ∀ a, ((0xE0000 ≤ a ∧ a < 0xF0000) ∨ a = CHN_LOGICAL) → t.reg a = s.reg a := fun a ha =>
    h.regs a fun hmem => by
      obtain ⟨hblock, hid⟩ := hlist a hmem
      omega
  exact ⟨(congrArg State.tgs h.back :), fun a hl hu => hregs a (.inl ⟨hl, hu⟩), State.fld_congr (hregs _ (.inr rfl)) _ _⟩

/-! ### Accesses of memory -/

theorem KeepsSealing.of_stored {s t : State} (h : Stored s t) : KeepsSealing s t := by
  obtain ⟨_, _, rfl⟩ := h
  exact .quiet rfl rfl

theorem keepsSealing_capture (s : State) (g : Nat) (a : Access) (t : AccType) (addr extra : Nat) :
    KeepsSealing s (capture s g a t addr extra) := by
  have hinfo : OffSealing (capInfoReg g) ∧ OffSealing (capCountReg g) := by
    unfold OffSealing CHN_LOGICAL capInfoReg capCountReg GATE_PS_CAP_INFO GATE_MG_CAP_INFO GATE_FIX_CAP_INFO GATE_PS_COUNT GATE_MG_COUNT
      GATE_FIX_COUNT
    split_ifs <;> omega
  have hoff : g < 70 → OffSealing (GATE_PS_CAP_OFF g) := by
    unfold OffSealing CHN_LOGICAL GATE_PS_CAP_OFF
    omega
  have haddr : g < 78 → OffSealing (GATE_MG_CAP_LO (g - 70)) ∧ OffSealing (GATE_MG_CAP_HI (g - 70)) := by
    unfold OffSealing CHN_LOGICAL GATE_MG_CAP_LO GATE_MG_CAP_HI
    omega
  have hfix : OffSealing GATE_FIX_CAP_LO ∧ OffSealing GATE_FIX_CAP_HI := by unfold OffSealing; decide
  unfold capture
  extract_lets counted captured
  have hcount : KeepsSealing s counted := keepsSealing_inc s hinfo.2
  have hcapt : KeepsSealing s captured := hcount.trans (keepsSealing_setReg _ hinfo.1 _)
  refine .ite hcount ?_
  split_ifs with hps hmg
  · exact hcapt.trans (keepsSealing_setReg _ (hoff hps) _)
  · exact hcapt.trans (keepsSealing_setPair _ (haddr hmg).1 (haddr hmg).2 _)
  · exact hcapt.trans (keepsSealing_setPair _ hfix.1 hfix.2 _)

theorem keepsSealing_voidFill (s : State) (slot p a n : Nat) : KeepsSealing s (voidFill s slot p a n) :=
  (KeepsSealing.of_stored (stored_storeParts (engine slot p) a _ (s.draws n) (pages a n))).after rfl rfl

section Raising

variable {rz : Raiser} (hz : ∀ s ev cls slot part det supp, KeepsSealing s (rz s ev cls slot part det supp))
include hz

theorem keepsSealing_limited (s : State) (key ev cls slot part det : Nat) : KeepsSealing s (limited rz s key ev cls slot part det) := by
  unfold limited
  split
  · exact .ite (.quiet rfl rfl) ((hz _ _ _ _ _ _ _).after rfl rfl)
  · exact (hz _ _ _ _ _ _ _).after rfl rfl

theorem keepsSealing_noteParts (a : Access) (t : AccType) (s : State) (ps : List (Nat × Nat)) : KeepsSealing s (noteParts rz a t s ps) := by
  refine .foldl (fun s p => ?_) ps s
  dsimp only
  split
  · exact ((keepsSealing_capture s _ a t _ _).trans (.of_evcOnly (evcOnly_evcInput _ 47 true))).trans (keepsSealing_limited hz _ _ _ _ _ _ _)
  · exact hz s _ _ _ _ _ _
  · exact .refl s

theorem keepsSealing_queueWrite (s : State) (a : Access) (addr : Nat) (bs : Bytes) (after : After) :
    KeepsSealing s (queueWrite rz s a addr bs after).1 := by
  unfold queueWrite
  extract_lets h ps wait now res u
  have hu : KeepsSealing s u := (KeepsSealing.of_stored (stored_storeParts a addr bs s now)).trans (keepsSealing_noteParts hz a .w _ now)
  exact hu.trans (.quiet rfl rfl)

theorem keepsSealing_partWrite (s : State) (count : Bool) (p slot base : Nat) (ws : List (Nat × Bytes)) (cpl : Bool) :
    KeepsSealing s (partWrite rz s count p slot base ws cpl).1 := by
  unfold partWrite
  extract_lets port put
  have hput : ∀ r w after, KeepsSealing r.1 (put r w after).1 := fun r w after => keepsSealing_queueWrite hz r.1 _ _ _ after
  split
  next hport =>
    have hdropped : OffSealing (HIF_HP_DROPPED port) := by
      unfold OffSealing CHN_LOGICAL HIF_HP_DROPPED
      omega
    split
    · refine .foldl (fun s w => ?_) ws s
      exact .quiet rfl rfl
    · exact .ite (keepsSealing_inc s hdropped) (.refl s)
  next =>
    split
    · exact .refl s
    · exact (KeepsSealing.foldl_fst (fun r w => hput r w _) _ (s, .ok)).trans (hput _ _ _)

theorem keepsSealing_logPart (s : State) (p : Nat) (r : LogRec) : KeepsSealing s (logPart rz s p r) := by
  unfold logPart
  extract_lets q n m base bs x left counted
  have hx : KeepsSealing s x.1 := keepsSealing_partWrite hz s _ _ _ _ _ _
  have hcounted : KeepsSealing s counted := by
    refine keepsSealing_setFld s ?_ _ _ _
    split
    · exact offSealing_array _ (by decide)
    · exact offSealing_array _ (by decide)
  refine .ite (.ite ?_ (.ite hx ?_)) (.ite ?_ hcounted)
  · exact hx.trans ((keepsSealing_setReg _ (offSealing_array _ (by decide)) _).trans (.quiet rfl rfl))
  · exact hx.trans (.quiet rfl rfl)
  · exact hcounted.trans ((hz _ _ _ _ _ _ _).after rfl rfl)

end Raising

theorem keepsSealing_logGlobal (s : State) (r : LogRec) : KeepsSealing s (logGlobal s r) := by
  unfold logGlobal
  extract_lets n u
  have hu : KeepsSealing s u := .quiet rfl rfl
  refine .ite (.refl s) (.ite ?_ ?_)
  · exact hu.trans ((keepsSealing_setReg _ (offSealing_above (by decide)) _).trans (.of_evcOnly (evcOnly_evcPulse _ 46)))
  · refine keepsSealing_setFld s ?_ _ _ _
    split
    · exact offSealing_above (by decide)
    · exact offSealing_above (by decide)

/-! ### A broadcast -/

theorem keepsSealing_setPort (s : State) (p : Nat) (v : ChnPort) : KeepsSealing s (s.setPort p v) := .quiet rfl rfl

theorem keepsSealing_emit (s : State) (o : Out) : KeepsSealing s (s.emit o) := .quiet rfl rfl

theorem keepsSealing_freeFlits (s : State) (p c n : Nat) (tell : Bool) : KeepsSealing s (freeFlits s p c n tell) := by
  have hack : ∀ t : State, KeepsSealing t (sendAck t p) := fun t => (keepsSealing_setPort t p _).trans (keepsSealing_emit _ _)
  have hs := keepsSealing_setPort s p { s.port p with recv := (s.port p).recv.set c ((s.port p).recv.getD c 0 + n) }
  exact .ite (.refl s) (.ite (hs.trans (hack _)) hs)

theorem keepsSealing_startCls (s : State) (p c : Nat) : KeepsSealing s (startCls s p c) := by
  have hmark : ∀ way m seq, KeepsSealing s (markSend s p way m seq) := fun way m seq => .ite (.refl s) (.quiet rfl rfl)
  unfold startCls
  extract_lets q
  refine .ite (.refl s) ?_
  split
  · exact .refl s
  · exact .ite ((hmark _ _ _).trans (keepsSealing_setPort _ p _)) (.refl s)

theorem keepsSealing_sendOne (s : State) (p c : Nat) : KeepsSealing s (sendOne s p c) := by
  have hflit : ∀ (t : State) code bs, KeepsSealing t (sendFlit t p code bs) := fun t code bs =>
    ((keepsSealing_setPort t p _).trans (keepsSealing_inc _ (offSealing_array _ (by decide)))).trans (keepsSealing_emit _ _)
  unfold sendOne
  extract_lets q
  split
  · exact ((keepsSealing_setPort s p _).trans (hflit _ _ _)).trans (.ite (keepsSealing_freeFlits _ _ _ _ _) (.refl _))
  · exact .refl s

theorem keepsSealing_pump (fuel : Nat) (s : State) (p : Nat) : KeepsSealing s (pump fuel s p) := by
  induction fuel generalizing s with
  | zero => exact .refl s
  | succ fuel ih =>
    unfold pump
    refine .ite (.refl s) ?_
    extract_lets started
    have hstarted : KeepsSealing s started := .foldl (fun s c => keepsSealing_startCls s p c) _ s
    split
    · exact hstarted.trans ((keepsSealing_sendOne _ p _).trans (ih _))
    · exact hstarted

theorem keepsSealing_portSend (s : State) (p : Nat) (way : Way) (m : Msg) : KeepsSealing s (portSend s p way m) := by
  have hfreed := KeepsSealing.ite (c := way = .held) (keepsSealing_freeFlits s (1 - p) m.cls m.flits true) (.refl s)
  exact .ite (hfreed.trans (keepsSealing_inc _ (offSealing_array _ (by decide)))) ((keepsSealing_setPort s p _).trans (keepsSealing_pump _ _ p))

theorem keepsSealing_broadcast (s : State) (kind hdr : Nat) (body : Bytes) : KeepsSealing s (broadcast s kind hdr body) :=
  ((keepsSealing_portSend _ 0 .own _).trans (keepsSealing_portSend _ 1 .own _)).after rfl rfl

/-! ### The entry into YIELD -/

theorem keepsSealing_thermalHalt (s : State) : KeepsSealing s (thermalHalt s) := by
  have hplls : ∀ p ∈ [1, 2, 3, 8, 9, 10, 11, 12, 13, 14, 15], OffSealing (CLK_PLL_STATUS p) := by unfold OffSealing; decide
  exact (KeepsSealing.foldl_mem (fun p hp s => keepsSealing_setReg s (hplls p hp) 0) _).after rfl rfl

/-- The lanes as they leave TEST. -/
theorem keepsSealing_leaveTest (s : State) : KeepsSealing s (leaveTest s) := by
  have hlane : ∀ {n off l}, OffSealing ((52 + n) * 0x10000 + off + 0x40 * l) := fun {n off l} => offSealing_above (by omega)
  have hquad : ∀ {n off}, OffSealing ((52 + n) * 0x10000 + off) := offSealing_block (by decide)
  have hsettle : ∀ (s : State) n l, KeepsSealing s (settleBits s n l) := fun s n l =>
    (keepsSealing_setPair s hlane hlane _).trans (.quiet rfl rfl)
  unfold leaveTest
  extract_lets cleared
  have hcleared : KeepsSealing s cleared := by
    refine .each (fun s n => ?_) 16 s
    refine .trans (.each (fun s l => hsettle s n l) 4 s) ?_
    refine .trans ((keepsSealing_setFld _ hquad 3 1 _).trans (keepsSealing_setReg _ hquad _)) (.each (fun s l => ?_) 4 _)
    exact .trans ((keepsSealing_setFld s hlane 2 4 0).trans (keepsSealing_setReg _ hlane _))
      ((keepsSealing_setReg _ hlane 0).trans (keepsSealing_setFld _ hlane 0 1 _))
  clear_value cleared
  exact .ite (.refl s) (hcleared.trans (.quiet rfl rfl))

theorem keepsSealing_dceCount (s : State) (e st consumed produced : Nat) : KeepsSealing s (dceCount s e st consumed produced) := by
  have hinc : ∀ {off} (s : State), KeepsSealing s (s.inc ((42 + e) * 0x10000 + off)) := fun s => keepsSealing_inc s (offSealing_block (by decide))
  have hpair : ∀ {lo hi} (s : State) v, KeepsSealing s (s.setPair ((42 + e) * 0x10000 + lo) ((42 + e) * 0x10000 + hi) v) :=
    fun s v => keepsSealing_setPair s (offSealing_block (by decide)) (offSealing_block (by decide)) v
  unfold dceCount
  extract_lets jobs failed full check read
  have hfailed : KeepsSealing s failed := (hinc s).trans (.ite (.refl _) (hinc _))
  have hcheck : KeepsSealing s check := (hfailed.trans (.ite (hinc _) (.refl _))).trans (.ite (hinc _) (.refl _))
  exact (hcheck.trans (hpair _ _)).trans (hpair _ _)

theorem keepsSealing_dceStop (s : State) (e : Nat) (j : Job) (src : Option Bytes) : KeepsSealing s (dceStop s e j src).1 := by
  unfold dceStop
  extract_lets q p open_ drawn voided comp fin
  have hvoided : KeepsSealing s voided := (KeepsSealing.ite (keepsSealing_voidFill _ _ _ _ _) (.refl _)).after rfl rfl
  have hfin : ∀ consumed produced crc check, KeepsSealing s (fin consumed produced crc check).1 := fun _ _ _ _ =>
    hvoided.trans (keepsSealing_dceCount _ _ _ _ _)
  split
  · exact hfin _ _ _ _
  · extract_lets had out out'
    split
    · exact hfin _ _ _ _
    · exact hfin _ _ _ _

theorem keepsSealing_cutJob (s : State) (j : Job) : KeepsSealing s (cutJob s j) := by
  have hunit : ∀ {u off}, OffSealing ((44 + u) * 0x10000 + off) := offSealing_block (by decide)
  have hpost : ∀ (s : State) u q rst value bytes, KeepsSealing s (crcPost s u q rst value bytes) := fun s u q rst value bytes =>
    (keepsSealing_setPair s hunit hunit value).trans (((keepsSealing_setReg _ hunit _).trans (keepsSealing_inc _ hunit)).trans
      (keepsSealing_setReg _ hunit _))
  unfold cutJob
  extract_lets put
  have hput : ∀ x, KeepsSealing x.1 (put x) := fun x => .quiet rfl rfl
  split
  · exact (keepsSealing_dceStop s _ j _).trans (hput _)
  · extract_lets posted
    have hdraw : KeepsSealing s s.draw := .quiet rfl rfl
    have hposted : KeepsSealing s posted := hdraw.trans (hpost _ _ _ _ _ _)
    exact hposted.trans (hput (_, _))
  · exact .refl s

theorem keepsSealing_yieldJobs (cut : Bool) (s : State) : KeepsSealing s (yieldJobs cut s) := by
  unfold yieldJobs
  extract_lets u on aborts stays chain rdn v
  have hu : KeepsSealing s u := .ite (.foldl keepsSealing_cutJob _ s) (.refl s)
  clear_value u
  exact hu.trans (.quiet rfl rfl)

theorem keepsSealing_pinsOff (s : State) (p : Nat) : KeepsSealing s (pinsOff s p) := .ite (.quiet rfl rfl) (.quiet rfl rfl)

theorem keepsSealing_enterYield (s : State) (ev cls part det : Nat) : KeepsSealing s (enterYield s ev cls part det) := by
  have htb : OffSealing TB_STATUS := by unfold OffSealing; decide
  have hycap : ∀ b ∈ [ERR_YCAP_INFO, ERR_YCAP_TIME_LO, ERR_YCAP_TIME_HI, ERR_YCAP_DET_LO, ERR_YCAP_DET_HI], OffSealing b := by
    unfold OffSealing; decide
  unfold enterYield
  extract_lets noted captured left ctl yielding stopped held cleared
  have hnoted : KeepsSealing s noted := keepsSealing_setReg s (hycap _ (by simp)) _
  have hcaptured : KeepsSealing s captured := hnoted.trans
    ((keepsSealing_setPair _ (hycap _ (by simp)) (hycap _ (by simp)) _).trans (keepsSealing_setPair _ (hycap _ (by simp)) (hycap _ (by simp)) _))
  have hleft : KeepsSealing s left := hcaptured.trans (.ite (keepsSealing_setFld _ htb 0 1 _) (keepsSealing_leaveTest _))
  have hyielding : KeepsSealing s yielding := hleft.trans (.quiet rfl rfl)
  have hdark : ∀ t : State, KeepsSealing t (allDark t) := fun t => .quiet rfl rfl
  have hnorm : ∀ t : State, KeepsSealing t t.norm := fun t => .quiet rfl rfl
  have hstopped : KeepsSealing s stopped := by
    refine hyielding.trans (.trans ?_ (.each keepsSealing_pinsOff 2 _))
    refine .trans (.trans (.trans ?_ (hdark _)) (keepsSealing_yieldJobs _ _)) (hnorm _)
    exact .ite (keepsSealing_thermalHalt _) (.refl _)
  exact (hstopped.trans (keepsSealing_clearHolder _)).trans (keepsSealing_broadcast _ _ _ _)

/-! ### Events and reads -/

/-- An event, whatever it brings, keeps what an instant reads of a group. -/
theorem keepsSealing_raiseN (n : Nat) (s : State) (ev cls slot part det supp : Nat) : KeepsSealing s (raiseN n s ev cls slot part det supp) := by
  induction n generalizing s ev cls slot part det supp with
  | zero => exact .refl s
  | succ n ih =>
    unfold raiseN recordEv
    extract_lets y r logged noted
    have hnoted : KeepsSealing s noted := (keepsSealing_logGlobal s r).trans (.ite (keepsSealing_logPart ih _ _ _) (.refl _))
    exact .ite (.refl s) (.ite hnoted (.ite (hnoted.trans (.quiet rfl rfl)) (hnoted.trans (keepsSealing_enterYield _ _ _ _ _))))

theorem keepsSealing_engRead (s : State) (slot p addr n : Nat) : KeepsSealing s (engRead s slot p addr n).1 := by
  unfold engRead memRead
  extract_lets ps res
  split
  · exact .refl s
  · exact keepsSealing_noteParts (keepsSealing_raiseN 3) _ _ s ps

theorem keepsSealing_sealFence (s : State) (g : Nat) (p : Pending) : KeepsSealing s (sealFence s g p).1 := by
  unfold sealFence
  split
  · exact .refl s
  · split
    · exact .refl s
    · exact keepsSealing_engRead s _ _ _ _

theorem keepsSealing_skimCause (s : State) (g : Nat) (n : BitVec 32) : KeepsSealing s (skimCause s g n).1 := by
  unfold skimCause
  extract_lets ps r
  have hr : KeepsSealing s r.1 := by
    refine KeepsSealing.foldl_fst (fun a p => ?_) ps (s, true)
    exact keepsSealing_sealFence a.1 g p
  split
  · exact .refl s
  · exact hr

/-- The evaluation of a group's sets keeps what the instant reads of the group. -/
theorem keepsSealing_sealReport (g fuel : Nat) (s : State) (k : BitVec 32) : KeepsSealing s (sealReport g fuel s k).1 := by
  induction fuel generalizing s k with
  | zero => exact .refl s
  | succ fuel ih =>
    have hcause := keepsSealing_skimCause s g (k + 1)
    unfold sealReport
    dsimp only
    split
    · exact hcause.trans (ih _ _)
    · exact hcause

end Sys2Proof.Machine

/-!
PROOFS of the composition family: SEAL_GROUP, SEAL and the instants S, D and C of a seal group (R199, R204–R209).
-/

namespace Sys2Proof.Machine

/-! ### SEAL_GROUP (R199, R204) -/

theorem leaveSeal_accepted (s : State) (n : Nat) (q : Req) (op : Nat) : leaveSeal (accepted s q op) n = accepted (leaveSeal s n) q op := by
  refine foldl_accepted (fun t x => ?_) _ s
  rfl

theorem foldl_leaveSeal_accepted (hs : List Nat) (s : State) (q : Req) (op : Nat) :
    hs.foldl leaveSeal (accepted s q op) = accepted (hs.foldl leaveSeal s) q op :=
  foldl_accepted (fun t n => leaveSeal_accepted t n q op) hs s

theorem onlyLayers_leaveSeal (s : State) (n : Nat) : OnlyLayers s (leaveSeal s n) :=
  onlyLayers_pass (g := fun t i => t.setLayer i { t.layer i with pend := (t.layer i).pend.map fun u => { u with sealN := none } })
    (fun t i => onlyLayer_setLayer t i _) _ s

theorem onlyLayers_foldl_leaveSeal (hs : List Nat) (s : State) : OnlyLayers s (hs.foldl leaveSeal s) := by
  induction hs generalizing s with
  | nil => exact .refl s
  | cons n hs ih => exact (onlyLayers_leaveSeal s n).trans (ih _)

theorem foldl_leaveSeal_nextJob (hs : List Nat) (s : State) : (hs.foldl leaveSeal s).nextJob = s.nextJob := by
  obtain ⟨_, heq⟩ := onlyLayers_foldl_leaveSeal hs s
  rw [heq]

/-- The group's own owner may configure or dissolve it. -/
theorem sealOwner_free {s : State} {g p : Nat} (h : sgOwner s g = 31 ∨ sgOwner s g = p) : (sgOwner s g != 31 && sgOwner s g != p) = false := by
  rcases h with h | h <;> simp [h]

/-- The local heads a SEAL_GROUP names. -/
def namedHeads (q : Req) : List Nat := (List.range 16).filter fun n => bitOf (q.u16 18) n

/-- The CMP_SEALg_CFG that a SEAL_GROUP writes (Table 7.11). -/
def sealWord (q : Req) : Word :=
  BitVec.ofNat 32 (1 + Bool.nat (q.bit 17 1) * 2 + q.u16 18 * 2 ^ 2 + q.u8 20 * 2 ^ 18 + q.u8 21 * 2 ^ 21 + q.u8 22 * 2 ^ 29)

/-- The local heads that leave their group. -/
def leavingHeads (s : State) (q : Req) : List Nat := (sgHeadList s (q.u8 16)).filter fun n => !bitOf (q.u16 18) n

/-- A group configured: the heads that leave it, its registers. -/
def sealConfigured (s : State) (q : Req) : State :=
  (((leavingHeads s q).foldl leaveSeal s).setReg (CMP_SEAL_CFG (q.u8 16)) (sealWord q)).setReg (CMP_SEAL_PART (q.u8 16)) (BitVec.ofNat 32 q.part.val)

/-- A group dissolved, its aborted SEAL jobs apart. -/
def sealDissolved (s : State) (g : Nat) : State :=
  ((((((sgHeadList s g).foldl leaveSeal s).setReg (CMP_SEAL_CFG g) 0).setReg (CMP_SEAL_PART g) 31).setGrp g {}).setReg (CMP_SEAL_DONE g) 0).setReg
    (CMP_SEAL_CLOSED g) 0

/-- The checks of SEAL_GROUP. -/
def sealGroupChecks (s : State) (q : Req) : List (Bool × Nat) :=
  let g := q.u8 16
  let on := q.bit 17 0
  [(decide (15 < g) || (on && (decide (7 < q.u8 20) || decide (7 < q.u8 22))), stBadRange),
    (on && (namedHeads q).any fun n => decide (s.nHeads ≤ n), stNoResource),
    ((sgOwner s g != 31 && sgOwner s g != q.part.val) || (on && (namedHeads q).any fun n => !ownsHead s q.part.val n), stNotOwner),
    (on && ((namedHeads q).any fun n => (s.head n).tg != q.u8 22 || (match sealOf s n with | some k => k != g | none => false)), stGroupMismatch)]

theorem sealGroup_pass {s : State} {q : Req} (h : firstFail (sealGroupChecks s q) = none) : sealGroup q s =
    if q.bit 17 0 then (sealConfigured s q, stComplete, 0)
    else ((s.grp (q.u8 16)).seals.foldl (fun s j => finish s j.2 stAborted) (sealDissolved s (q.u8 16)), stComplete, 0) := by
  have heq : sealGroup q s = match firstFail (sealGroupChecks s q) with
      | some st => (s, st, 0)
      | none => if q.bit 17 0 then (sealConfigured s q, stComplete, 0)
        else ((s.grp (q.u8 16)).seals.foldl (fun s j => finish s j.2 stAborted) (sealDissolved s (q.u8 16)), stComplete, 0) := rfl
  rw [heq, h]

/-- They pass for heads of the partition that stand in no other group and on its timing group. -/
theorem sealGroupChecks_on {s : State} {q : Req} (hg : q.u8 16 ≤ 15) (howner : sgOwner s (q.u8 16) = 31 ∨ sgOwner s (q.u8 16) = q.part.val)
    (hunit : q.u8 20 ≤ 7) (htg : q.u8 22 ≤ 7)
    (hheads : ∀ n ∈ namedHeads q, n < s.nHeads ∧ ownsHead s q.part.val n = true ∧ (s.head n).tg = q.u8 22
      ∧ (sealOf s n = none ∨ sealOf s n = some (q.u8 16))) :
    firstFail (sealGroupChecks s q) = none := by
  have hrange : (decide (15 < q.u8 16) || (q.bit 17 0 && (decide (7 < q.u8 20) || decide (7 < q.u8 22)))) = false := by
    simp [Nat.not_lt.mpr hg, Nat.not_lt.mpr hunit, Nat.not_lt.mpr htg]
  have hnum : (namedHeads q).any (fun n => decide (s.nHeads ≤ n)) = false := by
    simpa using fun n hn => (hheads n hn).1
  have howns : (namedHeads q).any (fun n => !ownsHead s q.part.val n) = false := by
    simpa using fun n hn => (hheads n hn).2.1
  unfold sealGroupChecks
  dsimp only
  rw [hrange, hnum, howns, sealOwner_free howner, List.any_eq_false.mpr fun n hn => ?_]
  · simp [firstFail]
  · obtain ⟨-, -, htgn, hseal⟩ := hheads n hn
    rcases hseal with hseal | hseal <;> simp [htgn, hseal]

/-- Dissolving a group needs its owner alone. -/
theorem sealGroupChecks_off {s : State} {q : Req} (hg : q.u8 16 ≤ 15)
    (howner : sgOwner s (q.u8 16) = 31 ∨ sgOwner s (q.u8 16) = q.part.val) (hoff : q.bit 17 0 = false) :
    firstFail (sealGroupChecks s q) = none := by
  unfold sealGroupChecks
  dsimp only
  rw [decide_eq_false (Nat.not_lt.mpr hg), sealOwner_free howner, hoff]
  simp [firstFail]

theorem sealConfigured_accepted (s : State) (q : Req) (op : Nat) : sealConfigured (accepted s q op) q = accepted (sealConfigured s q) q op := by
  have hlist : leavingHeads (accepted s q op) q = leavingHeads s q := rfl
  unfold sealConfigured
  rw [hlist, foldl_leaveSeal_accepted, setReg_accepted, setReg_accepted]

theorem sealConfigured_nextJob (s : State) (q : Req) : (sealConfigured s q).nextJob = s.nextJob := by
  rw [sealConfigured, State.setReg_nextJob, State.setReg_nextJob, foldl_leaveSeal_nextJob]

theorem setGrp_accepted (s : State) (q : Req) (op g : Nat) (r : SealGrp) : (accepted s q op).setGrp g r = accepted (s.setGrp g r) q op := rfl

theorem sealDissolved_accepted (s : State) (q : Req) (op g : Nat) : sealDissolved (accepted s q op) g = accepted (sealDissolved s g) q op := by
  have hlist : sgHeadList (accepted s q op) g = sgHeadList s g := rfl
  unfold sealDissolved
  rw [hlist, foldl_leaveSeal_accepted, setReg_accepted, setReg_accepted, setGrp_accepted, setReg_accepted, setReg_accepted]

theorem sealDissolved_nextJob (s : State) (g : Nat) : (sealDissolved s g).nextJob = s.nextJob := by
  rw [sealDissolved, State.setReg_nextJob, State.setReg_nextJob, State.setGrp_nextJob, State.setReg_nextJob, State.setReg_nextJob,
    foldl_leaveSeal_nextJob]

/-- What shows a group as dissolved. -/
def ShowsDissolved (g : Nat) (t : State) : Prop :=
  t.reg (CMP_SEAL_CFG g) = 0 ∧ t.reg (CMP_SEAL_PART g) = 31 ∧ t.reg (CMP_SEAL_DONE g) = 0 ∧ t.reg (CMP_SEAL_CLOSED g) = 0 ∧ t.grp g = {}

theorem showsDissolved (s : State) (g : Nat) : ShowsDissolved g (sealDissolved s g) := by
  have hne : CMP_SEAL_CFG g ≠ CMP_SEAL_PART g ∧ CMP_SEAL_CFG g ≠ CMP_SEAL_DONE g ∧ CMP_SEAL_CFG g ≠ CMP_SEAL_CLOSED g
      ∧ CMP_SEAL_PART g ≠ CMP_SEAL_DONE g ∧ CMP_SEAL_PART g ≠ CMP_SEAL_CLOSED g ∧ CMP_SEAL_DONE g ≠ CMP_SEAL_CLOSED g := by
    unfold CMP_SEAL_CFG CMP_SEAL_PART CMP_SEAL_DONE CMP_SEAL_CLOSED
    omega
  obtain ⟨hcp, hcd, hcc, hpd, hpc, hdc⟩ := hne
  have hgrp : ∀ (t : State) r, (t.setGrp g r).reg = t.reg := fun _ _ => rfl
  have hkept : ∀ (t : State) a v, (t.setReg a v).grp g = t.grp g := fun _ _ _ => rfl
  unfold sealDissolved
  generalize (sgHeadList s g).foldl leaveSeal s = u
  refine ⟨?_, ?_, ?_, State.reg_setReg_same _ _ _, ?_⟩
  · rw [State.reg_setReg_ne _ _ hcc, State.reg_setReg_ne _ _ hcd, hgrp, State.reg_setReg_ne _ _ hcp, State.reg_setReg_same]
  · rw [State.reg_setReg_ne _ _ hpc, State.reg_setReg_ne _ _ hpd, hgrp, State.reg_setReg_same]
  · rw [State.reg_setReg_ne _ _ hdc, State.reg_setReg_same]
  · rw [hkept, hkept, State.grp_setGrp]

/-- Completing a job leaves registers and seal groups alone. -/
theorem ShowsDissolved.finish {g : Nat} {t : State} (h : ShowsDissolved g t) (id st : Nat) (body : BitVec 128) :
    ShowsDissolved g (finish t id st body) := by
  have hregs : (Machine.finish t id st body).regs = t.regs := (finish_sameSessions t id st body).2.2
  have hseals : (Machine.finish t id st body).seals = t.seals := by
    unfold Machine.finish
    split
    · rfl
    · split <;> rfl
  have hreg : ∀ a, (Machine.finish t id st body).reg a = t.reg a := fun a => by rw [State.reg, State.reg, hregs]
  have hgrp : (Machine.finish t id st body).grp g = t.grp g := by rw [State.grp, State.grp, hseals]
  unfold ShowsDissolved
  rw [hreg, hreg, hreg, hreg, hgrp]
  exact h

theorem ShowsDissolved.foldl_finish {g : Nat} {t : State} (h : ShowsDissolved g t) (xs : List (BitVec 32 × Nat)) (st : Nat) :
    ShowsDissolved g (xs.foldl (fun s j => Machine.finish s j.2 st) t) := by
  induction xs generalizing t with
  | nil => exact h
  | cons x xs ih => exact ih (h.finish x.2 st 0)

/-! ### SEAL (R206) -/

theorem doSeal_admitted {q : Req} {s : State} (h : Admitted s q (bodyMask [(16, 0, 8), (20, 0, 32)])) (hg : q.u8 16 ≤ 15)
    (hopen : 0 < sealDiff (BitVec.ofNat 32 (q.u32 20)) (sgDone s (q.u8 16)))
    (hnear : sealDiff (BitVec.ofNat 32 (q.u32 20)) (sgDone s (q.u8 16)) ≤ 8) (hon : sgOn s (q.u8 16) = true)
    (howner : sgOwner s (q.u8 16) = q.part.val) (hheads : sgHeads s (q.u8 16) ≠ 0) :
    doSeal q s = (if sealDiff (BitVec.ofNat 32 (q.u32 20)) (sgClosed s (q.u8 16)) > 0
        then (accepted s q 0x0902).setReg (CMP_SEAL_CLOSED (q.u8 16)) (BitVec.ofNat 32 (q.u32 20)) else accepted s q 0x0902).setGrp (q.u8 16)
      { s.grp (q.u8 16) with seals := (s.grp (q.u8 16)).seals ++ [(BitVec.ofNat 32 (q.u32 20), s.nextJob)] } := by
  have hpass : firstFail [
      (decide (15 < q.u8 16) || decide (8 < sealDiff (BitVec.ofNat 32 (q.u32 20)) (sgDone s (q.u8 16))), stBadRange),
      (!sgOn s (q.u8 16) || sgOwner s (q.u8 16) != q.part.val, stNotOwner),
      (decide (sealDiff (BitVec.ofNat 32 (q.u32 20)) (sgDone s (q.u8 16)) ≤ 0), stSealClosed), (sgHeads s (q.u8 16) == 0, stWrongMode)] = none := by
    simp [firstFail, Nat.not_lt.mpr hg, Int.not_lt.mpr hnear, hon, howner, Int.not_le.mpr hopen, hheads]
  have hgrp : ∀ c : Prop, [Decidable c] → ((if c then (accepted s q 0x0902).setReg (CMP_SEAL_CLOSED (q.u8 16)) (BitVec.ofNat 32 (q.u32 20))
      else accepted s q 0x0902).grp (q.u8 16)) = s.grp (q.u8 16) := fun c _ => by split <;> rfl
  refine ((soile_admitted h).trans (guardJob_pass hpass)).trans ?_
  dsimp only
  rw [hgrp]
  rfl

end Sys2Proof.Machine

/-!
PROOFS of the composition family: the instants S, D and C of a seal group (R207–R209), and the obligation on seals.
-/

namespace Sys2Proof.Machine

/-! ### Instant S (R207) -/

section Kept

variable {s t : State} (h : KeepsSealing s t) {g : Nat} (hg : g < 16)
include h hg

theorem KeepsSealing.cfg : t.reg (CMP_SEAL_CFG g) = s.reg (CMP_SEAL_CFG g) :=
  h.regs _ (by unfold CMP_SEAL_CFG; omega) (by unfold CMP_SEAL_CFG; omega)

theorem KeepsSealing.sgMaster : Machine.sgMaster t g = Machine.sgMaster s g := State.bit_congr (h.cfg hg) 1

theorem KeepsSealing.nextBoundary : Machine.nextBoundary t (sgTg t g) = Machine.nextBoundary s (sgTg s g) := by
  have htg : sgTg t g = sgTg s g := State.fld_congr (h.cfg hg) 29 3
  rw [Machine.nextBoundary, Machine.nextBoundary, State.tg, State.tg, h.tgs, htg]

end Kept

theorem onlyLayers_countSets (s : State) (g : Nat) (k : BitVec 32) : OnlyLayers s (countSets s g k) := by
  unfold countSets
  generalize sgLayers s g = xs
  induction xs generalizing s with
  | nil => exact .refl s
  | cons x xs ih => exact (onlyLayer_setLayer s x.1 _).back.trans (ih _)

theorem keepsSealing_countSets (s : State) (g : Nat) (k : BitVec 32) : KeepsSealing s (countSets s g k) := by
  obtain ⟨_, heq⟩ := onlyLayers_countSets s g k
  rw [heq]
  exact .quiet rfl rfl

theorem keepsSealing_takeReport (s : State) (g member : Nat) (k : BitVec 32) (cause : Nat) : KeepsSealing s (takeReport s g member k cause) :=
  .quiet rfl rfl

/-- The READY that a member sends at instant S, and the report that the master takes of itself. -/
theorem doSealInstantS_eq {g : Fin 16} {s : State} (hcore : s.ctl.core = true) (hon : sgOn s g.val = true) (hmember : sgMember s g.val = true)
    (hrun : (s.tg (sgTg s g.val)).running = true) :
    let x := sealReport g.val 9 s (sgDone s g.val)
    let t := countSets x.1 g.val x.2.1
    let t := if sgMaster s g.val then takeReport t g.val s.logicalId x.2.1 x.2.2 else t
    doSealInstantS g s = broadcast t 3 (hput 8 1 g.val + hput 9 1 s.logicalId + hput 10 1 x.2.2 + hput 12 4 x.2.1.toNat
      + hput 16 8 (nextBoundary s (sgTg s g.val))) [] := by
  intro x counted t
  have hcounted : KeepsSealing s counted := (keepsSealing_sealReport g.val 9 s _).trans (keepsSealing_countSets _ _ _)
  have ht : KeepsSealing s t := hcounted.trans (.ite (keepsSealing_takeReport _ _ _ _ _) (.refl _))
  have hgo : (!s.ctl.core || !sgOn s g.val || !sgMember s g.val || !(s.tg (sgTg s g.val)).running) = false := by
    rw [hcore, hon, hmember, hrun]; rfl
  have htaken : (if sgMaster counted g.val then takeReport counted g.val counted.logicalId x.2.1 x.2.2 else counted) = t := by
    rw [hcounted.sgMaster g.isLt, hcounted.unit]
  have heq : doSealInstantS g s = if !s.ctl.core || !sgOn s g.val || !sgMember s g.val || !(s.tg (sgTg s g.val)).running then s
    else
      let v := if sgMaster counted g.val then takeReport counted g.val counted.logicalId x.2.1 x.2.2 else counted
      broadcast v 3 (hput 8 1 g.val + hput 9 1 v.logicalId + hput 10 1 x.2.2 + hput 12 4 x.2.1.toNat
        + hput 16 8 (nextBoundary v (sgTg v g.val))) [] := rfl
  rw [heq, hgo, htaken]
  dsimp only
  rw [ht.unit, ht.nextBoundary g.isLt]
  rfl

/-! ### Instant D (R207, R209) -/

/-- The members of a group, in order. -/
def sealMembers (s : State) (g : Nat) : List Nat := (List.range 8).filter fun u => bitOf (sgMembers s g) u

theorem mem_sealMembers {s : State} {g u : Nat} : u ∈ sealMembers s g ↔ u < 8 ∧ bitOf (sgMembers s g) u = true := by
  simp [sealMembers]

/-- How far a member's report is ahead of what is done. -/
def reportAhead (s : State) (g u : Nat) : Int := sealDiff (reportOf s g u).1 (sgDone s g)

/-- The lowest report, folded as the master does. -/
theorem lowest_iff {d m : Int} {rest : List Int} : rest.foldl (fun a b => if b < a then b else a) d = m ↔
    m ∈ d :: rest ∧ ∀ b ∈ d :: rest, m ≤ b := by
  have hmin : (fun a b : Int => if b < a then b else a) = min := by
    funext a b
    rw [min_def]
    split_ifs <;> omega
  rw [hmin, ← List.min?_eq_some_iff, List.min?_cons', Option.some.injEq]

/-- The group once instant D has passed. -/
def pastD (s : State) (g : Nat) : State := s.setGrp g { s.grp g with pastD := true }

theorem reportOf_pastD (s : State) (g u : Nat) : reportOf (pastD s g) g u = reportOf s g u := by
  have hreports : ((pastD s g).grp g).reports = (s.grp g).reports := by rw [pastD, State.grp_setGrp]
  unfold reportOf
  rw [hreports]
  rfl

section InstantD

variable {g : Fin 16} {s : State} (hcore : s.ctl.core = true) (hon : sgOn s g.val = true) (hmaster : sgMaster s g.val = true)
  (hfirst : (s.grp g.val).pastD = false) (hrun : (s.tg (sgTg s g.val)).running = true)
include hcore hon hmaster hfirst hrun

theorem doSealInstantD_eq : doSealInstantD g s =
    match (sealMembers s g.val).map (reportAhead s g.val) with
    | [] => pastD s g.val
    | d :: rest =>
      let m := rest.foldl (fun a b => if b < a then b else a) d
      if m > 0 then
        let k := sgDone s g.val + BitVec.ofInt 32 m
        broadcast ((pastD s g.val).setGrp g.val { (pastD s g.val).grp g.val with commitM := some k }) 4
          (hput 8 1 g.val + hput 12 4 k.toNat + hput 16 8 (nextBoundary s (sgTg s g.val))) []
      else
        match (sealMembers s g.val).find? fun u => decide (sealDiff (reportOf (pastD s g.val) g.val u).1 (sgDone s g.val) ≤ 0) with
        | none => pastD s g.val
        | some u =>
          let cause := (reportOf (pastD s g.val) g.val u).2
          let t := ((pastD s g.val).setFld (CMP_SEAL_HELD g.val) 16 3 u).setFld (CMP_SEAL_HELD g.val) 19 3 cause
          raiseKey t g.val evSealHeld 1 14 (sgOwner t g.val) [(g.val, 4), ((sgDone s g.val + 1).toNat, 32), (u, 3), (cause, 8)] := by
  have hgo : (!s.ctl.core || !sgOn s g.val || !sgMaster s g.val || (s.grp g.val).pastD || !(s.tg (sgTg s g.val)).running) = false := by
    rw [hcore, hon, hmaster, hfirst, hrun]; rfl
  unfold doSealInstantD
  dsimp only
  rw [hgo]
  rfl

/-- The master commits the lowest report where every member is ahead. -/
theorem doSealInstantD_commits {m : Int} (hm : 0 < m) (hlow : ∀ u ∈ sealMembers s g.val, m ≤ reportAhead s g.val u)
    (hsome : ∃ u ∈ sealMembers s g.val, reportAhead s g.val u = m) :
    doSealInstantD g s = broadcast ((pastD s g.val).setGrp g.val
        { s.grp g.val with pastD := true, commitM := some (sgDone s g.val + BitVec.ofInt 32 m) }) 4
      (hput 8 1 g.val + hput 12 4 (sgDone s g.val + BitVec.ofInt 32 m).toNat + hput 16 8 (nextBoundary s (sgTg s g.val))) [] := by
  have hmem : m ∈ (sealMembers s g.val).map (reportAhead s g.val) := List.mem_map.mpr hsome
  have hle : ∀ b ∈ (sealMembers s g.val).map (reportAhead s g.val), m ≤ b := by simpa using hlow
  rw [doSealInstantD_eq hcore hon hmaster hfirst hrun]
  cases hreports : (sealMembers s g.val).map (reportAhead s g.val) with
  | nil => rw [hreports] at hmem; cases hmem
  | cons d rest =>
    rw [hreports] at hmem hle
    dsimp only
    rw [lowest_iff.mpr ⟨hmem, hle⟩, if_pos hm, pastD, State.grp_setGrp]

/-- The first member that is not ahead holds the group. -/
theorem doSealInstantD_held {u : Nat} (hu : u ∈ sealMembers s g.val) (hbehind : reportAhead s g.val u ≤ 0)
    (hlowest : ∀ v, v < u → bitOf (sgMembers s g.val) v = true → 0 < reportAhead s g.val v) :
    doSealInstantD g s =
      raiseKey (((pastD s g.val).setFld (CMP_SEAL_HELD g.val) 16 3 u).setFld (CMP_SEAL_HELD g.val) 19 3 (reportOf s g.val u).2) g.val evSealHeld 1 14
        (sgOwner s g.val) [(g.val, 4), ((sgDone s g.val + 1).toNat, 32), (u, 3), ((reportOf s g.val u).2, 8)] := by
  have hfind : (sealMembers s g.val).find? (fun v => decide (sealDiff (reportOf (pastD s g.val) g.val v).1 (sgDone s g.val) ≤ 0)) = some u := by
    obtain ⟨hlt, hbit⟩ := mem_sealMembers.mp hu
    rw [sealMembers, List.find?_filter, List.find?_range_eq_some]
    refine ⟨?_, List.mem_range.mpr hlt, fun v hv => ?_⟩
    · rw [reportOf_pastD]
      exact decide_eq_true ⟨hbit, decide_eq_true hbehind⟩
    · rw [reportOf_pastD, Bool.not_eq_true', decide_eq_false_iff_not]
      exact fun ⟨hmember, hback⟩ => absurd (hlowest v hv hmember) (Int.not_lt.mpr (of_decide_eq_true hback))
  have howner : ∀ (t : State) lo n v, sgOwner (t.setFld (CMP_SEAL_HELD g.val) lo n v) g.val = sgOwner t g.val := fun t lo n v =>
    State.fld_congr (State.reg_setReg_ne t _ (by unfold CMP_SEAL_HELD CMP_SEAL_PART; omega)) 0 5
  have hpast : sgOwner (pastD s g.val) g.val = sgOwner s g.val := rfl
  rw [doSealInstantD_eq hcore hon hmaster hfirst hrun]
  cases hreports : (sealMembers s g.val).map (reportAhead s g.val) with
  | nil => rw [List.map_eq_nil_iff.mp hreports] at hu; cases hu
  | cons d rest =>
    have hnot : ¬ rest.foldl (fun a b => if b < a then b else a) d > 0 := by
      have hmem : reportAhead s g.val u ∈ d :: rest := hreports ▸ List.mem_map_of_mem hu
      have hlow := (lowest_iff.mp rfl).2 _ hmem
      omega
    dsimp only
    rw [if_neg hnot, hfind]
    dsimp only
    rw [howner, howner, hpast, reportOf_pastD]

end InstantD

/-! ### Instant C (R207, R209) -/

/-- Whether an update's set is within a COMMIT. -/
def withinCommit (m : BitVec 32) (p : Pending) : Bool := match p.sealN with | some n => decide (sealDiff n m ≤ 0) | none => false

theorem withinCommit_of_le {m n : BitVec 32} {p : Pending} (hset : p.sealN = some n) (hle : sealDiff n m ≤ 0) : withinCommit m p = true := by
  rw [withinCommit, hset]
  exact decide_eq_true hle

/-- The group once instant C has passed, and the sets of its COMMIT armed. -/
def setsArmed (s : State) (g : Nat) (m : BitVec 32) : State :=
  (sgLayers s g).foldl (fun t x => armWhere t x.1 (withinCommit m)) (s.setGrp g { s.grp g with pastC := true, armedM := some m })

theorem onlyLayers_setsArmed (s : State) (g : Nat) (m : BitVec 32) :
    OnlyLayers (s.setGrp g { s.grp g with pastC := true, armedM := some m }) (setsArmed s g m) :=
  onlyLayers_pass (fun t i => onlyLayer_armWhere t i (withinCommit m)) _ _

/-- An update within the COMMIT is armed. -/
theorem setsArmed_arms {s : State} {g : Nat} {m : BitVec 32} (hnodup : ((sgLayers s g).map (·.1)).Nodup)
    (hlisted : ∀ x ∈ sgLayers s g, s.layer x.1 = x.2) {i : Nat} {l : Layer} (hl : (i, l) ∈ sgLayers s g) {k : Nat} {p : Pending}
    (hp : l.pend[k]? = some p) (hin : withinCommit m p = true) :
    ∃ p' : Pending, ((setsArmed s g m).layer i).pend[k]? = some p' ∧ p'.armed = true := by
  obtain ⟨t, -, hlayer, hpass⟩ := layer_pass (fun t i => onlyLayer_armWhere t i (withinCommit m)) hnodup (List.mem_map_of_mem hl)
    (s.setGrp g { s.grp g with pastC := true, armedM := some m })
  have hentry : t.layer i = l := hlayer.trans (hlisted _ hl)
  refine ⟨{ p with armed := true, counts := true }, ?_, rfl⟩
  rw [setsArmed, hpass, armWhere_pend, hentry, List.getElem?_map, hp, Option.map_some, armIf, if_pos hin]

section InstantC

variable {g : Fin 16} {s : State} (hcore : s.ctl.core = true) (hon : sgOn s g.val = true)
  (hunit : sgMember s g.val = true ∨ sgMaster s g.val = true) (hfirst : (s.grp g.val).pastC = false)
  (hrun : (s.tg (sgTg s g.val)).running = true)
include hcore hon hunit hfirst hrun

theorem sealInstantC_goes : (!s.ctl.core || !sgOn s g.val || !(sgMember s g.val || sgMaster s g.val) || (s.grp g.val).pastC
    || !(s.tg (sgTg s g.val)).running) = false := by
  have hany : (sgMember s g.val || sgMaster s g.val) = true := Bool.or_eq_true_iff.mpr hunit
  rw [hcore, hon, hany, hfirst, hrun]
  rfl

theorem doSealInstantC_holds (hnone : (s.grp g.val).commitM = none) :
    doSealInstantC g s = s.setGrp g.val { s.grp g.val with pastC := true, holds := sgMember s g.val } := by
  unfold doSealInstantC
  dsimp only
  rw [sealInstantC_goes hcore hon hunit hfirst hrun, hnone]
  rfl

theorem doSealInstantC_arms {m : BitVec 32} (hsome : (s.grp g.val).commitM = some m) : doSealInstantC g s = setsArmed s g.val m := by
  unfold doSealInstantC setsArmed
  dsimp only
  rw [sealInstantC_goes hcore hon hunit hfirst hrun, hsome]
  rfl

end InstantC

/-- Settles O12: the commands are the branches of their checks; an instant reads of its group what the evaluation at S leaves, takes the
lowest report at D, and arms at C in a pass over the group's layers. -/
theorem seals : Obligations.Seals := by
  refine ⟨⟨fun q s h hg howner => ⟨fun hon hunit htg hheads => ?_, fun hoff => ⟨?_, fun hnone => ?_⟩⟩,
      fun q s h hg hopen hnear hon howner hheads => ?_⟩,
    fun g s hcore hon hmember hrun => ?_,
    fun g s hcore hon hmaster hfirst hrun => ⟨fun m hm hlow hsome => ?_, fun u hu hbit hbehind hlowest => ?_⟩,
    fun g s hcore hon hunit hfirst hrun => ⟨fun hnone => ?_, fun m hsome => ?_⟩⟩
  · have hpass := sealGroup_pass (sealGroupChecks_on (s := accepted s q 0x0901) hg howner hunit htg hheads)
    rw [hon, if_pos rfl, sealConfigured_accepted] at hpass
    exact congrArg Host.Outcome.next (soileNow_completes h hpass (sealConfigured_nextJob s q))
  · have hpass := sealGroup_pass (sealGroupChecks_off (s := accepted s q 0x0901) hg howner hoff)
    rw [hoff, if_neg Bool.false_ne_true] at hpass
    have hdissolved := ((showsDissolved (accepted s q 0x0901) (q.u8 16)).foldl_finish ((accepted s q 0x0901).grp (q.u8 16)).seals stAborted).finish
      s.nextJob stComplete 0
    refine ⟨_, congrArg Host.Outcome.next (soileNow_admitted h), ?_⟩
    rw [hpass]
    exact hdissolved
  · have hpass := sealGroup_pass (sealGroupChecks_off (s := accepted s q 0x0901) hg howner hoff)
    have hempty : ((accepted s q 0x0901).grp (q.u8 16)).seals = [] := hnone
    rw [hoff, if_neg Bool.false_ne_true, hempty, List.foldl_nil, sealDissolved_accepted] at hpass
    exact congrArg Host.Outcome.next (soileNow_completes h hpass (sealDissolved_nextJob s _))
  · exact congrArg Host.Outcome.next (doSeal_admitted h hg hopen hnear hon howner hheads)
  · exact congrArg Host.Outcome.next (doSealInstantS_eq hcore hon hmember hrun)
  · obtain ⟨u, hlt, hbit, heq⟩ := hsome
    refine congrArg Host.Outcome.next (doSealInstantD_commits hcore hon hmaster hfirst hrun hm (fun v hv => ?_)
      ⟨u, mem_sealMembers.mpr ⟨hlt, hbit⟩, heq⟩)
    obtain ⟨hvlt, hvbit⟩ := mem_sealMembers.mp hv
    exact hlow v hvlt hvbit
  · exact congrArg Host.Outcome.next (doSealInstantD_held hcore hon hmaster hfirst hrun (mem_sealMembers.mpr ⟨hu, hbit⟩) hbehind hlowest)
  · exact congrArg Host.Outcome.next (doSealInstantC_holds hcore hon hunit hfirst hrun hnone)
  · obtain ⟨_, heq⟩ := onlyLayers_setsArmed s g.val m
    refine ⟨setsArmed s g.val m, congrArg Host.Outcome.next (doSealInstantC_arms hcore hon hunit hfirst hrun hsome), ?_, ?_, ?_, ?_,
      fun hnodup hlisted i l hl k p n hp hset hle => setsArmed_arms hnodup hlisted hl hp (withinCommit_of_le hset hle)⟩
    · rw [heq]
      exact congrArg SealGrp.armedM (State.grp_setGrp s g.val _)
    · rw [heq]
      exact congrArg SealGrp.pastC (State.grp_setGrp s g.val _)
    · rw [heq]
      rfl
    · rw [heq]
      rfl

end Sys2Proof.Machine

/-!
PROOFS of the output family: the output commands of a head in their turn (R226, R227, R230) — HEAD_LINK and HEAD_AUX, from their
acceptance to their start, their waiting or their end.
-/

namespace Sys2Proof.Machine

/-! ### A head set twice -/

section Twice

variable {α : Type} (d : Nat → α)

theorem filter_tput (t : Tbl α) (k : Nat) (v : α) : (tput t k v).filter (fun x => x.1 != k) = t.filter fun x => x.1 != k := by
  induction t with
  | nil => simp [tput]
  | cons x t ih =>
    obtain ⟨j, u⟩ := x
    unfold tput
    split_ifs with hlt heq
    · rw [List.filter_cons, List.filter_cons, ih]
    · simp [heq]
    · simp

theorem tput_tput (t : Tbl α) (k : Nat) (u v : α) : tput (tput t k u) k v = tput t k v := by
  induction t with
  | nil => simp [tput]
  | cons x t ih =>
    obtain ⟨j, w⟩ := x
    by_cases hlt : j < k
    · simp [tput, hlt, ih]
    · by_cases heq : j = k <;> simp [tput, hlt, heq]

/-- Of two writes of one key the second stands, where the first was not the key's default. -/
theorem tset_tset [DecidableEq α] {t : Tbl α} {k : Nat} {u : α} (v : α) (hu : u ≠ d k) : tset d (tset d t k u) k v = tset d t k v := by
  unfold tset
  rw [if_neg hu, filter_tput, tput_tput]

end Twice

theorem State.setHead_setHead (s : State) {n : Nat} {u : Head} (v : Head) (hu : u ≠ {}) : (s.setHead n u).setHead n v = s.setHead n v :=
  congrArg (fun heads => { s with heads := heads }) (tset_tset _ v hu)

/-! ### What ending a job keeps, and which jobs still run -/

theorem finish_heads (s : State) (id st : Nat) (body : BitVec 128) : (finish s id st body).heads = s.heads := by
  unfold finish
  split
  · rfl
  · split <;> rfl

theorem head_finish (s : State) (id st : Nat) (body : BitVec 128) (n : Nat) : (finish s id st body).head n = s.head n := by
  rw [State.head, State.head, finish_heads]

/-- Whether a job runs rests on the jobs of its number alone. -/
theorem jobRuns_congr {s t : State} {id : Nat} (h : t.jobs.filter (fun j => j.id == id) = s.jobs.filter fun j => j.id == id) :
    jobRuns t id = jobRuns s id := by
  unfold jobRuns State.job
  rw [h]

/-- A job just accepted does not change which of the earlier ones run. -/
theorem jobRuns_earlier {s t : State} {q : Req} {op id : Nat} (h : t.jobs = s.jobs ++ [jobOf s q op]) (hid : id < s.nextJob) :
    jobRuns t id = jobRuns s id := by
  have hne : s.nextJob ≠ id := Nat.ne_of_gt hid
  refine jobRuns_congr ?_
  simp [h, jobOf, List.filter_append, hne]

theorem job_latest {s t : State} {q : Req} {op : Nat} (h : t.jobs = s.jobs ++ [jobOf s q op]) : t.job s.nextJob = some (jobOf s q op) := by
  simp [State.job, h, jobOf, List.filter_append]

/-- Nor does its end. -/
theorem jobRuns_finish_latest {s t : State} {q : Req} {op id : Nat} (st : Nat) (body : BitVec 128)
    (h : t.jobs = s.jobs ++ [jobOf s q op]) (hid : id < s.nextJob) : jobRuns (finish t s.nextJob st body) id = jobRuns s id := by
  have hne : ∀ j : Job, (j.id == id && j.id != s.nextJob) = (j.id == id) := fun j => by
    by_cases hj : j.id = id
    · have hlt : j.id ≠ s.nextJob := by omega
      simp [hj ▸ hlt, hj]
    · simp [hj]
  refine jobRuns_congr ?_
  rw [finish_on st body h]
  simp [List.filter_filter, hne]

/-- The job of a number after a change of the jobs of that number. -/
theorem job_modJob {f : Job → Job} (s : State) (id : Nat) (hf : ∀ j, (f j).id = j.id) : (s.modJob id f).job id = (s.job id).map f := by
  have hsame : ∀ j : Job, ((if j.id == id then f j else j).id == id) = (j.id == id) := fun j => by
    split
    · rw [hf]
    · rfl
  have hjobs : (s.modJob id f).jobs.filter (fun j => j.id == id) = (s.jobs.filter fun j => j.id == id).map f := by
    rw [State.modJob, List.filter_map, show ((fun j : Job => j.id == id) ∘ fun j => if j.id == id then f j else j) = fun j => j.id == id from
      funext hsame]
    exact List.map_congr_left fun j hj => if_pos (List.mem_filter.mp hj).2
  unfold State.job
  rw [hjobs, List.getLast?_map]

/-! ### The turn of a waiting command (R226, R230) -/

/-- The waiting output command whose turn it is: none while the link trains. -/
def nextWaiting (s : State) (n : Nat) : Option Nat :=
  if (s.head n).tx = .training then none else ((s.head n).auxJobs.filter fun id => !jobRuns s id).head?

theorem nextWaiting_training {s : State} {n : Nat} (h : (s.head n).tx = .training) : nextWaiting s n = none := if_pos h

theorem nextWaiting_running {s : State} {n : Nat} (h : ∀ id ∈ (s.head n).auxJobs, jobRuns s id = true) : nextWaiting s n = none := by
  have hempty : (s.head n).auxJobs.filter (fun id => !jobRuns s id) = [] := by simpa using h
  unfold nextWaiting
  rw [hempty]
  exact ite_self _

theorem nextWaiting_empty {s : State} {n : Nat} (h : (s.head n).auxJobs = []) : nextWaiting s n = none :=
  nextWaiting_running fun id hid => by
    rw [h] at hid
    cases hid

/-- The first that does not run follows those that run. -/
theorem nextWaiting_last {s : State} {n id : Nat} {ids : List Nat} (htx : (s.head n).tx ≠ .training)
    (hjobs : (s.head n).auxJobs = ids ++ [id]) (hruns : ∀ i ∈ ids, jobRuns s i = true) (hidle : jobRuns s id = false) :
    nextWaiting s n = some id := by
  have hempty : ids.filter (fun i => !jobRuns s i) = [] := by simpa using hruns
  unfold nextWaiting
  rw [if_neg htx, hjobs, List.filter_append, hempty]
  simp [hidle]

theorem linkNext_rests {s : State} {n : Nat} (fuel : Nat) (h : nextWaiting s n = none) : linkNext n fuel s = s := by
  unfold nextWaiting at h
  cases fuel with
  | zero => rfl
  | succ fuel =>
    unfold linkNext
    dsimp only
    rw [h]

/-- What is left of a head's output commands once one of them has its turn. -/
def turnTaken (s : State) (n id : Nat) : State := s.setHead n { s.head n with auxJobs := (s.head n).auxJobs.filter (· != id) }

/-- An AUX transaction whose turn it is waits while another runs, and begins where none does. -/
theorem linkNext_aux {s : State} {n id : Nat} {j : Job} (fuel : Nat) (h : nextWaiting s n = some id) (hj : s.job id = some j)
    (hop : j.opcode.toNat ≠ 0x0B04) : linkNext n (fuel + 1) s =
      if auxBusy s n then s
      else linkNext n fuel (if ((auxBegin s j).job id).isSome then auxBegin s j else turnTaken (auxBegin s j) n id) := by
  unfold nextWaiting at h
  rw [linkNext]
  dsimp only
  rw [h]
  dsimp only
  rw [hj]
  dsimp only
  rw [if_neg hop]
  rfl

/-! ### HEAD_LINK (R219–R221, R226, R227) -/

/-- The checks of a HEAD_LINK whose turn has come (Table 8.9). -/
def linkChecks (s : State) (q : Req) : List (Bool × Nat) :=
  let n := q.u8 16
  let h := s.head n
  let off := q.u8 17 = 0
  let want := ((sourceLanes n (q.u8 19)).1, q.u8 18)
  [(!linkMode s, stModeDenied),
    (gangMember s n || (!off && linkBad h n q), stBadRange), (decide (s.nHeads ≤ n), stNoResource),
    (!ownsHead s q.part.val n || (h.gang && !ownsHead s q.part.val (n + 1)), stNotOwner),
    (!off && decide (q.u8 19 ≠ 0) && decide (s.fld (QD_CFG 15) 0 3 ≠ 3), stNoLanes),
    (!off && s.heads.any (fun x => x.1 != n && (let l := heldLanes x.1 x.2; overlaps want.1 want.2 l.1 l.2)), stLanesTaken),
    (!off && decide (q.u8 18 * laneKbit (q.u8 17) < h.khz * 3 * q.u8 20), stLinkBw),
    (!off && !h.hpd, stNoSink)]

/-- The settings that a HEAD_LINK gives its head. -/
def linkHead (h : Head) (q : Req) : Head :=
  { h with rate := q.u8 17, lanes := q.u8 18, src := q.u8 19, bpc10 := q.u8 20 == 10, limited := q.bit 21 0
           sinkCrc := q.bit 21 1, wbVerify := q.bit 21 2 }

theorem linkBegin_eq (s : State) (j : Job) : linkBegin s j =
    match firstFail (linkChecks s j.req) with
    | some st => finish s j.id st (if st = stNoSink then linkBody 5 0 0 else 0)
    | none =>
      if j.req.u8 17 = 0 then
        finish ((linkDark s (j.req.u8 16)).setHead (j.req.u8 16) { (linkDark s (j.req.u8 16)).head (j.req.u8 16) with rate := 0 }) j.id stComplete
      else trainStart (s.setHead (j.req.u8 16) (linkHead (s.head (j.req.u8 16)) j.req)) (j.req.u8 16) (some j.id) := rfl

/-- A HEAD_LINK that is not refused at acceptance: a rate waits for the training in progress, everything else begins at once. -/
theorem doHeadLink_admitted {q : Req} {s : State} (h : Admitted s q (bodyMask [(16, 0, 32), (20, 0, 8), (21, 0, 3)]))
    (hmode : linkMode s = true) (hn : q.u8 16 ≤ 15) : doHeadLink q s =
      if q.u8 17 ≠ 0 ∧ (s.head (q.u8 16)).tx = .training then linkQueue (accepted s q 0x0B04) (q.u8 16) s.nextJob
      else linkNext (q.u8 16) ((s.head (q.u8 16)).auxJobs.length + 2) (linkBegin (accepted s q 0x0B04) (jobOf s q 0x0B04)) := by
  have hrange : firstFail [(decide (15 < q.u8 16), stBadRange)] = none := by simp [firstFail, Nat.not_lt.mpr hn]
  have hhead : (accepted s q 0x0B04).head (q.u8 16) = s.head (q.u8 16) := rfl
  unfold doHeadLink
  rw [hmode, soile_admitted h, guardJob_pass hrange]
  dsimp only
  rw [accepted_job, hhead]

/-- The conditions on a head that both forms of HEAD_LINK share. -/
structure LinkHead (s : State) (q : Req) : Prop where
  mode    : linkMode s = true
  range   : q.u8 16 ≤ 15
  member  : gangMember s (q.u8 16) = false
  present : q.u8 16 < s.nHeads
  owns    : ownsHead s q.part.val (q.u8 16) = true
  gang    : (s.head (q.u8 16)).gang = true → ownsHead s q.part.val (q.u8 16 + 1) = true

/-- The conditions on the link that a rate is asked for. -/
structure LinkFits (s : State) (q : Req) : Prop where
  rate  : q.u8 17 ≠ 0
  shape : linkBad (s.head (q.u8 16)) (q.u8 16) q = false
  quad  : q.u8 19 ≠ 0 → s.fld (QD_CFG 15) 0 3 = 3
  lanes : ∀ x ∈ s.heads, x.1 ≠ q.u8 16 →
    overlaps (sourceLanes (q.u8 16) (q.u8 19)).1 (q.u8 18) (heldLanes x.1 x.2).1 (heldLanes x.1 x.2).2 = false
  room  : (s.head (q.u8 16)).khz * 3 * q.u8 20 ≤ q.u8 18 * laneKbit (q.u8 17)

theorem LinkHead.ownership {s : State} {q : Req} (h : LinkHead s q) :
    (!ownsHead s q.part.val (q.u8 16) || ((s.head (q.u8 16)).gang && !ownsHead s q.part.val (q.u8 16 + 1))) = false := by
  cases hgang : (s.head (q.u8 16)).gang with
  | false => simp [h.owns]
  | true => simp [h.owns, h.gang hgang]

/-- Acceptance changes neither. -/
theorem LinkHead.accepted {s : State} {q : Req} (h : LinkHead s q) (op : Nat) : LinkHead (Machine.accepted s q op) q :=
  ⟨h.mode, h.range, h.member, h.present, h.owns, h.gang⟩

theorem LinkFits.accepted {s : State} {q : Req} (h : LinkFits s q) (op : Nat) : LinkFits (Machine.accepted s q op) q :=
  ⟨h.rate, h.shape, h.quad, h.lanes, h.room⟩

/-- Rate Off needs the head alone. -/
theorem linkChecks_off {s : State} {q : Req} (h : LinkHead s q) (hoff : q.u8 17 = 0) : firstFail (linkChecks s q) = none := by
  have hpresent : decide (s.nHeads ≤ q.u8 16) = false := decide_eq_false (Nat.not_le.mpr h.present)
  unfold linkChecks
  simp only [hoff, h.mode, h.member, hpresent, h.ownership]
  simp [firstFail]

/-- A rate whose link fits comes down to the sink: it is there, or NO_SINK. -/
theorem linkChecks_rate {s : State} {q : Req} (h : LinkHead s q) (hfits : LinkFits s q) :
    firstFail (linkChecks s q) = if (s.head (q.u8 16)).hpd then none else some stNoSink := by
  have hpresent : decide (s.nHeads ≤ q.u8 16) = false := decide_eq_false (Nat.not_le.mpr h.present)
  have hquad : (decide (q.u8 19 ≠ 0) && decide (s.fld (QD_CFG 15) 0 3 ≠ 3)) = false := by
    simpa using hfits.quad
  have hlanes : s.heads.any (fun x => x.1 != q.u8 16 &&
      overlaps (sourceLanes (q.u8 16) (q.u8 19)).1 (q.u8 18) (heldLanes x.1 x.2).1 (heldLanes x.1 x.2).2) = false := by
    simpa using fun j v hmem => hfits.lanes (j, v) hmem
  have hroom : decide (q.u8 18 * laneKbit (q.u8 17) < (s.head (q.u8 16)).khz * 3 * q.u8 20) = false :=
    decide_eq_false (Nat.not_lt.mpr hfits.room)
  unfold linkChecks
  simp only [hfits.rate, h.mode, h.member, hfits.shape, hpresent, h.ownership, Bool.and_assoc, hquad, hlanes, hroom]
  cases (s.head (q.u8 16)).hpd <;> simp [firstFail]

/-- A head whose link was taken DARK. -/
def darkHead (h : Head) : Head := { h with tx := .dark, trained := false, linkJob := none, sinkOn := false, relink := false }

theorem head_linkDark (s : State) (n : Nat) : (linkDark s n).head n = darkHead (s.head n) := by
  have hdark : ∀ t : State, ((t.setHead n (darkHead (s.head n))).draw).head n = darkHead (s.head n) := fun t => State.head_setHead t n _
  unfold linkDark
  dsimp only
  split
  · rw [head_finish]
    exact hdark s
  · exact State.head_setHead s n _

/-- Where no training is cut off, nothing ends with the link. -/
theorem linkDark_idle {s : State} {n : Nat} (h : (s.head n).linkJob = none) : linkDark s n = s.setHead n (darkHead (s.head n)) := by
  unfold linkDark
  dsimp only
  rw [h]
  rfl

/-- The state in which a HEAD_LINK with rate Off completes. -/
def linkOff (s : State) (q : Req) : State :=
  let d := linkDark (accepted s q 0x0B04) (q.u8 16)
  d.setHead (q.u8 16) { d.head (q.u8 16) with rate := 0 }

theorem head_linkOff (s : State) (q : Req) : (linkOff s q).head (q.u8 16) = { darkHead (s.head (q.u8 16)) with rate := 0 } := by
  unfold linkOff
  dsimp only
  rw [State.head_setHead, head_linkDark]
  rfl

theorem linkOff_jobs {s : State} {q : Req} (h : (s.head (q.u8 16)).linkJob = none) : (linkOff s q).jobs = s.jobs ++ [jobOf s q 0x0B04] := by
  have hidle := linkDark_idle (s := accepted s q 0x0B04) h
  unfold linkOff
  rw [hidle]
  rfl

/-- Rate Off takes the link DARK and completes, where no command waits at the head. -/
theorem doHeadLink_off {q : Req} {s : State} (h : Admitted s q (bodyMask [(16, 0, 32), (20, 0, 8), (21, 0, 3)])) (hhead : LinkHead s q)
    (hoff : q.u8 17 = 0)
    (hidle : (s.head (q.u8 16)).auxJobs = [] ∨ (s.head (q.u8 16)).linkJob = none
      ∧ ∀ id ∈ (s.head (q.u8 16)).auxJobs, id < s.nextJob ∧ jobRuns s id = true) :
    doHeadLink q s = finish (linkOff s q) s.nextJob stComplete := by
  have hchecks : firstFail (linkChecks (accepted s q 0x0B04) q) = none :=
    linkChecks_off (hhead.accepted _) hoff
  have hbegin : linkBegin (accepted s q 0x0B04) (jobOf s q 0x0B04) = finish (linkOff s q) s.nextJob stComplete := by
    rw [linkBegin_eq, show (jobOf s q 0x0B04).req = q from rfl, hchecks]
    exact if_pos hoff
  have hnone : nextWaiting (finish (linkOff s q) s.nextJob stComplete) (q.u8 16) = none := by
    have hkept : ((finish (linkOff s q) s.nextJob stComplete).head (q.u8 16)).auxJobs = (s.head (q.u8 16)).auxJobs := by
      rw [head_finish, head_linkOff]
      rfl
    rcases hidle with hempty | ⟨hlink, hruns⟩
    · exact nextWaiting_empty (hkept.trans hempty)
    · refine nextWaiting_running fun id hid => ?_
      rw [hkept] at hid
      obtain ⟨hlt, hrun⟩ := hruns id hid
      rw [jobRuns_finish_latest _ _ (linkOff_jobs hlink) hlt, hrun]
  rw [doHeadLink_admitted h hhead.mode hhead.range, if_neg (fun hw => hw.1 hoff), hbegin, linkNext_rests _ hnone]

/-- A rate asked for while the link trains waits. -/
theorem doHeadLink_waits {q : Req} {s : State} (h : Admitted s q (bodyMask [(16, 0, 32), (20, 0, 8), (21, 0, 3)])) (hhead : LinkHead s q)
    (hrate : q.u8 17 ≠ 0) (htrains : (s.head (q.u8 16)).tx = .training) :
    doHeadLink q s = (accepted s q 0x0B04).setHead (q.u8 16)
      { s.head (q.u8 16) with auxJobs := (s.head (q.u8 16)).auxJobs ++ [s.nextJob] } := by
  rw [doHeadLink_admitted h hhead.mode hhead.range, if_pos ⟨hrate, htrains⟩]
  refine linkNext_rests _ (nextWaiting_training ?_)
  rw [State.head_setHead]
  exact htrains

section Rate

variable {q : Req} {s : State} (h : Admitted s q (bodyMask [(16, 0, 32), (20, 0, 8), (21, 0, 3)])) (hhead : LinkHead s q)
  (hfits : LinkFits s q) (htx : (s.head (q.u8 16)).tx ≠ .training)
include h hhead hfits htx

/-- A rate whose link fits, with no training in progress. -/
theorem doHeadLink_rate : doHeadLink q s = linkNext (q.u8 16) ((s.head (q.u8 16)).auxJobs.length + 2)
    (if (s.head (q.u8 16)).hpd then
      trainStart ((accepted s q 0x0B04).setHead (q.u8 16) (linkHead (s.head (q.u8 16)) q)) (q.u8 16) (some s.nextJob)
    else done s q 0x0B04 stNoSink (linkBody 5 0 0)) := by
  have hchecks : firstFail (linkChecks (accepted s q 0x0B04) q) = if (s.head (q.u8 16)).hpd then none else some stNoSink :=
    linkChecks_rate (hhead.accepted _) (hfits.accepted _)
  rw [doHeadLink_admitted h hhead.mode hhead.range, if_neg (fun hw => htx hw.2), linkBegin_eq, show (jobOf s q 0x0B04).req = q from rfl,
    hchecks]
  cases (s.head (q.u8 16)).hpd
  · exact congrArg _ (finish_accepted s q 0x0B04 stNoSink (linkBody 5 0 0))
  · exact congrArg _ (if_neg hfits.rate)

theorem doHeadLink_trains (hhpd : (s.head (q.u8 16)).hpd = true) : doHeadLink q s =
    trainStart ((accepted s q 0x0B04).setHead (q.u8 16) (linkHead (s.head (q.u8 16)) q)) (q.u8 16) (some s.nextJob) := by
  rw [doHeadLink_rate h hhead hfits htx, if_pos hhpd]
  refine linkNext_rests _ (nextWaiting_training ?_)
  exact congrArg Head.tx (State.head_setHead _ (q.u8 16) _)

theorem doHeadLink_noSink (hhpd : (s.head (q.u8 16)).hpd = false)
    (hruns : ∀ id ∈ (s.head (q.u8 16)).auxJobs, id < s.nextJob ∧ jobRuns s id = true) :
    doHeadLink q s = done s q 0x0B04 stNoSink (linkBody 5 0 0) := by
  rw [doHeadLink_rate h hhead hfits htx, if_neg (by simp [hhpd])]
  refine linkNext_rests _ (nextWaiting_running fun id hid => ?_)
  obtain ⟨hlt, hrun⟩ := hruns id hid
  rw [← finish_accepted, jobRuns_finish_latest _ _ rfl hlt, hrun]

end Rate

/-! ### HEAD_AUX (R230) -/

/-- The state in which a HEAD_AUX stands at its head. -/
def auxQueued (s : State) (q : Req) : State :=
  (accepted s q 0x0B05).setHead (q.u8 16) { s.head (q.u8 16) with auxJobs := (s.head (q.u8 16)).auxJobs ++ [s.nextJob] }

theorem head_auxQueued (s : State) (q : Req) : (auxQueued s q).head (q.u8 16) =
    { s.head (q.u8 16) with auxJobs := (s.head (q.u8 16)).auxJobs ++ [s.nextJob] } := State.head_setHead _ _ _

theorem auxQueued_job (s : State) (q : Req) : (auxQueued s q).job s.nextJob = some (jobOf s q 0x0B05) := job_latest rfl

theorem opcode_headAux (s : State) (q : Req) : (jobOf s q 0x0B05).opcode.toNat ≠ 0x0B04 := by
  rw [show (jobOf s q 0x0B05).opcode = BitVec.ofNat 16 0x0B05 from rfl]
  decide

theorem auxQueued_idle (s : State) (q : Req) : jobRuns (auxQueued s q) s.nextJob = false := by
  unfold jobRuns
  rw [auxQueued_job]
  rfl

/-- A HEAD_AUX alone at its head. -/
def auxAlone (s : State) (q : Req) : State := s.setHead (q.u8 16) { s.head (q.u8 16) with auxJobs := [s.nextJob] }

theorem auxQueued_alone {s : State} {q : Req} (h : (s.head (q.u8 16)).auxJobs = []) : auxQueued s q = accepted (auxAlone s q) q 0x0B05 := by
  rw [auxQueued, h]
  rfl

/-- One that ended alone leaves its head without any. -/
theorem turnTaken_alone (s : State) (q : Req) (st : Nat) : turnTaken (done (auxAlone s q) q 0x0B05 st) (q.u8 16) s.nextJob =
    done (s.setHead (q.u8 16) { s.head (q.u8 16) with auxJobs := [] }) q 0x0B05 st := by
  have hhead : (done (auxAlone s q) q 0x0B05 st).head (q.u8 16) = { s.head (q.u8 16) with auxJobs := [s.nextJob] } := State.head_setHead _ _ _
  have hne : ({ s.head (q.u8 16) with auxJobs := [s.nextJob] } : Head) ≠ {} := fun heq => by
    cases congrArg Head.auxJobs heq
  have hleft : [s.nextJob].filter (· != s.nextJob) = [] := by simp
  have hset : ∀ h : Head, (done (auxAlone s q) q 0x0B05 st).setHead (q.u8 16) h = done ((auxAlone s q).setHead (q.u8 16) h) q 0x0B05 st :=
    fun _ => rfl
  unfold turnTaken
  rw [hhead, hleft, hset, auxAlone, State.setHead_setHead _ _ hne]

/-- The state in which an AUX transaction runs. -/
def auxStarted (s : State) (j : Job) : State :=
  (s.modJob j.id fun j => { j with running := true }).emit (.aux (j.req.u8 16) (j.req.bit 17 0) (j.req.bit 17 1) (j.req.bit 17 2)
    (BitVec.ofNat 32 (j.req.u32 20)) (leBytes (j.req.u8 18) (j.req.uN 24 (j.req.u8 18))) (j.req.u8 18))

theorem auxBegin_starts {s : State} {j : Job} (h : (s.head (j.req.u8 16)).hpd = true) : auxBegin s j = auxStarted s j := by
  unfold auxBegin
  dsimp only
  rw [h]
  rfl

theorem auxBegin_noSink {s : State} {j : Job} (h : (s.head (j.req.u8 16)).hpd = false) : auxBegin s j = finish s j.id stNoSink := by
  unfold auxBegin
  dsimp only
  rw [h]
  rfl

section Aux

variable {q : Req} {s : State} (h : Admitted s q (maskHeadAux q)) (hn : q.u8 16 ≤ 15) (hmember : gangMember s (q.u8 16) = false)
  (hmin : 1 ≤ q.u8 18) (hmax : q.u8 18 ≤ 16) (hpresent : q.u8 16 < s.nHeads) (howns : ownsHead s q.part.val (q.u8 16) = true)
include h hn hmember hmin hmax hpresent howns

theorem doHeadAux_queued : doHeadAux q s = linkNext (q.u8 16) ((s.head (q.u8 16)).auxJobs.length + 2) (auxQueued s q) := by
  have hchecks : firstFail [
      (decide (15 < q.u8 16) || gangMember (accepted s q 0x0B05) (q.u8 16) || q.u8 18 == 0 || decide (16 < q.u8 18), stBadRange),
      (decide ((accepted s q 0x0B05).nHeads ≤ q.u8 16), stNoResource),
      (!ownsHead (accepted s q 0x0B05) q.part.val (q.u8 16), stNotOwner)] = none := by
    have hrange : (decide (15 < q.u8 16) || gangMember s (q.u8 16) || q.u8 18 == 0 || decide (16 < q.u8 18)) = false := by
      have hne : q.u8 18 ≠ 0 := Nat.ne_of_gt hmin
      simp [Nat.not_lt.mpr hn, hmember, Nat.not_lt.mpr hmax, hne]
    have hnum : decide (s.nHeads ≤ q.u8 16) = false := decide_eq_false (Nat.not_le.mpr hpresent)
    change firstFail [(_, _), (decide (s.nHeads ≤ q.u8 16), _), (!ownsHead s q.part.val (q.u8 16), _)] = none
    rw [show gangMember (accepted s q 0x0B05) (q.u8 16) = gangMember s (q.u8 16) from rfl, hrange, hnum, howns]
    rfl
  unfold doHeadAux
  rw [soile_admitted h]
  exact guardJob_pass hchecks

/-- It waits for the training and for the transaction in progress. -/
theorem doHeadAux_waits (hbusy : (s.head (q.u8 16)).tx = .training ∨ ((s.head (q.u8 16)).auxJobs ≠ []
    ∧ ∀ id ∈ (s.head (q.u8 16)).auxJobs, id < s.nextJob ∧ jobRuns s id = true)) : doHeadAux q s = auxQueued s q := by
  rw [doHeadAux_queued h hn hmember hmin hmax hpresent howns]
  by_cases htx : (s.head (q.u8 16)).tx = .training
  · refine linkNext_rests _ (nextWaiting_training ?_)
    rw [head_auxQueued]
    exact htx
  · obtain ⟨hsome, hruns⟩ := hbusy.resolve_left htx
    have hkept : ∀ id ∈ (s.head (q.u8 16)).auxJobs, jobRuns (auxQueued s q) id = true := fun id hid =>
      (jobRuns_earlier rfl (hruns id hid).1).trans (hruns id hid).2
    have hnext : nextWaiting (auxQueued s q) (q.u8 16) = some s.nextJob := by
      refine nextWaiting_last (ids := (s.head (q.u8 16)).auxJobs) ?_ ?_ hkept (auxQueued_idle s q)
      · rw [head_auxQueued]
        exact htx
      · rw [head_auxQueued]
    have hauxBusy : auxBusy (auxQueued s q) (q.u8 16) = true := by
      obtain ⟨id, hid⟩ := List.exists_mem_of_ne_nil _ hsome
      have hany : ((s.head (q.u8 16)).auxJobs ++ [s.nextJob]).any (jobRuns (auxQueued s q)) = true :=
        List.any_eq_true.mpr ⟨id, List.mem_append_left _ hid, hkept id hid⟩
      unfold auxBusy
      rw [head_auxQueued, hany]
      exact Bool.or_true _
    rw [linkNext_aux _ hnext (auxQueued_job s q) (opcode_headAux s q), if_pos hauxBusy]

section Free

variable (htx : (s.head (q.u8 16)).tx ≠ .training) (hempty : (s.head (q.u8 16)).auxJobs = [])
include htx hempty

/-- On a channel that is free its turn is at once. -/
theorem doHeadAux_begins : doHeadAux q s = linkNext (q.u8 16) 1
    (if ((auxBegin (auxQueued s q) (jobOf s q 0x0B05)).job s.nextJob).isSome then auxBegin (auxQueued s q) (jobOf s q 0x0B05)
    else turnTaken (auxBegin (auxQueued s q) (jobOf s q 0x0B05)) (q.u8 16) s.nextJob) := by
  have hnext : nextWaiting (auxQueued s q) (q.u8 16) = some s.nextJob := by
    refine nextWaiting_last (ids := []) ?_ ?_ (by simp) (auxQueued_idle s q)
    · rw [head_auxQueued]
      exact htx
    · rw [head_auxQueued, hempty]
  have hfree : auxBusy (auxQueued s q) (q.u8 16) = false := by
    unfold auxBusy
    rw [head_auxQueued, hempty]
    simp [htx, auxQueued_idle]
  rw [doHeadAux_queued h hn hmember hmin hmax hpresent howns, hempty, linkNext_aux _ hnext (auxQueued_job s q) (opcode_headAux s q), hfree]
  rfl

/-- With a sink the transaction starts. -/
theorem doHeadAux_starts (hhpd : (s.head (q.u8 16)).hpd = true) :
    doHeadAux q s = auxStarted (accepted (auxAlone s q) q 0x0B05) (jobOf s q 0x0B05) := by
  have hqueued := auxQueued_alone hempty
  have hbegin : auxBegin (auxQueued s q) (jobOf s q 0x0B05) = auxStarted (auxQueued s q) (jobOf s q 0x0B05) :=
    auxBegin_starts ((congrArg Head.hpd (head_auxQueued s q)).trans hhpd)
  have hjob : (auxStarted (auxQueued s q) (jobOf s q 0x0B05)).job s.nextJob = some { jobOf s q 0x0B05 with running := true } :=
    (job_modJob (f := fun j => { j with running := true }) _ _ fun _ => rfl).trans (congrArg _ (auxQueued_job s q))
  have hnone : nextWaiting (auxStarted (auxQueued s q) (jobOf s q 0x0B05)) (q.u8 16) = none := by
    refine nextWaiting_running fun id hid => ?_
    have halone : id ∈ ((auxQueued s q).head (q.u8 16)).auxJobs := hid
    rw [head_auxQueued, hempty] at halone
    obtain rfl : id = s.nextJob := by simpa using halone
    unfold jobRuns
    rw [hjob]
  rw [doHeadAux_begins h hn hmember hmin hmax hpresent howns htx hempty, hbegin, if_pos (by rw [hjob]; rfl), linkNext_rests _ hnone, hqueued]

/-- With none it ends, and leaves the channel. -/
theorem doHeadAux_noSink (hhpd : (s.head (q.u8 16)).hpd = false) : doHeadAux q s =
    done (s.setHead (q.u8 16) { s.head (q.u8 16) with auxJobs := [] }) q 0x0B05 stNoSink := by
  have hbegin : auxBegin (auxQueued s q) (jobOf s q 0x0B05) = done (auxAlone s q) q 0x0B05 stNoSink := by
    rw [auxBegin_noSink ((congrArg Head.hpd (head_auxQueued s q)).trans hhpd), auxQueued_alone hempty]
    exact finish_accepted (auxAlone s q) q 0x0B05 stNoSink 0
  have hgone : ¬ ((done (auxAlone s q) q 0x0B05 stNoSink).job s.nextJob).isSome = true := by
    simp [State.job, done, auxAlone]
  have hnone : nextWaiting (done (s.setHead (q.u8 16) { s.head (q.u8 16) with auxJobs := [] }) q 0x0B05 stNoSink) (q.u8 16) = none :=
    nextWaiting_empty (congrArg Head.auxJobs (State.head_setHead s (q.u8 16) _))
  rw [doHeadAux_begins h hn hmember hmin hmax hpresent howns htx hempty, hbegin, if_neg hgone, turnTaken_alone, linkNext_rests _ hnone]

end Free

end Aux

end Sys2Proof.Machine

/-!
PROOFS of the output family: the end of a training and of an AUX transaction (R226, R229, R230, R235), the hot-plug pins (R228, R229), and
the obligation on the outputs.
-/

namespace Sys2Proof.Machine

/-! ### The taps a training settled on (R468) -/

/-- Nothing but registers of the lane quads and the count of free values differs. -/
structure OnlyQuads (s t : State) : Prop where
  regs : ∀ a, a < 0x340000 → t.reg a = s.reg a
  back : { t with regs := s.regs, free := s.free } = s

theorem OnlyQuads.refl (s : State) : OnlyQuads s s := ⟨fun _ _ => rfl, rfl⟩

theorem OnlyQuads.trans {s t u : State} (h : OnlyQuads s t) (k : OnlyQuads t u) : OnlyQuads s u := by
  refine ⟨fun a ha => (k.regs a ha).trans (h.regs a ha), ?_⟩
  calc { u with regs := s.regs, free := s.free }
    _ = { ({ u with regs := t.regs, free := t.free } : State) with regs := s.regs, free := s.free } := rfl
    _ = { t with regs := s.regs, free := s.free } := by rw [k.back]
    _ = s := h.back

theorem onlyQuads_settleTaps (s : State) (n l : Nat) : OnlyQuads s (s.settleTaps n l) :=
  ⟨fun _ ha => State.reg_setReg_ne s _ (by unfold QD_LANE_TXEQ_ACT; omega), rfl⟩

/-- The taps of a head's lanes, as a training that succeeded leaves them. -/
def tapsSettled (s : State) (n : Nat) (h : Head) : State :=
  (List.range h.lanes).foldl (fun s i => s.settleTaps (((sourceLanes n h.src).1 + i) / 4) (((sourceLanes n h.src).1 + i) % 4)) s

theorem onlyQuads_tapsSettled (s : State) (n : Nat) (h : Head) : OnlyQuads s (tapsSettled s n h) := by
  unfold tapsSettled
  generalize List.range h.lanes = lanes
  induction lanes generalizing s with
  | nil => exact .refl s
  | cons i lanes ih => exact (onlyQuads_settleTaps s _ _).trans (ih _)

/-! ### The end of a training (R226, R235) -/

/-- Whether a lane of the link does not transmit (R464, R471). -/
def linkDeaf (s : State) (n : Nat) (h : Head) : Prop :=
  ∃ i, i < h.lanes ∧ txDeaf s (((sourceLanes n h.src).1 + i) / 4) (((sourceLanes n h.src).1 + i) % 4) = true

theorem linkDeaf_iff (s : State) (n : Nat) (h : Head) : linkDeaf s n h ↔
    ((List.range h.lanes).any fun i => txDeaf s (((sourceLanes n h.src).1 + i) / 4) (((sourceLanes n h.src).1 + i) % 4)) = true := by
  simp [linkDeaf]

/-- A link all of whose lanes transmit fails where its training did. -/
theorem trainedStage_given {s : State} {n : Nat} {h : Head} {r : Training} (hd : ¬ linkDeaf s n h ∨ r.stage.val ≠ 0) :
    trainedStage s n h r = r.stage.val := by
  refine if_neg fun hfails => ?_
  obtain ⟨hstage, hany⟩ := Bool.and_eq_true_iff.mp hfails
  exact hd.elim (fun hn => hn ((linkDeaf_iff s n h).mpr hany)) (fun hne => hne (of_decide_eq_true hstage))

/-- With one that does not it fails at some stage (log 139). -/
theorem trainedStage_deaf {s : State} {n : Nat} {h : Head} {r : Training} (hd : linkDeaf s n h) (h0 : r.stage.val = 0) :
    trainedStage s n h r = 1 + Config.unstated s.free % 5 :=
  if_pos (Bool.and_eq_true_iff.mpr ⟨decide_eq_true h0, (linkDeaf_iff s n h).mp hd⟩)

theorem trainedStage_zero {s : State} {n : Nat} {h : Head} {r : Training} (h0 : trainedStage s n h r = 0) : r.stage.val = 0 := by
  by_contra hne
  exact hne ((trainedStage_given (.inr hne)).symm.trans h0)

/-- A head as the end of a training at `stage` leaves it. -/
def trainedHead (h : Head) (r : Training) (stage : Nat) : Head :=
  { h with tx := if stage = 0 then .linkIdle else .dark, trained := stage = 0, linkJob := none
           lttpr := r.lttprs.toNat % 8, sinkOn := decide (stage = 0) && h.sinkCrc && r.crcSupp, sinkCnt := none }

/-- The settings and the head that a training leaves. -/
def trainingShown (s : State) (n : Nat) (r : Training) (stage : Nat) : State :=
  ((if stage = r.stage.val then s else s.draw).setReg (HD_TX_SETTINGS n) r.settings).setHead n (trainedHead (s.head n) r stage)

/-- The same with the taps of one that succeeded. -/
def trainingSettled (s : State) (n : Nat) (r : Training) (stage : Nat) : State :=
  if stage = 0 then tapsSettled (trainingShown s n r stage) n (s.head n) else trainingShown s n r stage

/-- The part starts the sink's test CRC by an AUX write, or does not. -/
def crcStarted (s : State) (n : Nat) (starts : Bool) : State :=
  if starts then s.emit (.aux n false true false 0x270 [1] 1) else s

theorem crcStarted_eq (s : State) (n : Nat) (starts : Bool) :
    crcStarted s n starts = { s with outbox := s.outbox ++ if starts then [.aux n false true false 0x270 [1] 1] else [] } := by
  cases starts with
  | true => rfl
  | false => exact (congrArg (fun o => { s with outbox := o }) (List.append_nil s.outbox)).symm

/-- The HEAD_LINK that a training belongs to completes, where it belongs to one. -/
def linkJobEnds (s : State) (job : Option Nat) (st : Nat) (body : BitVec 128) : State :=
  match job with
  | some id => finish s id st body
  | none => s

/-- The status with which it completes. -/
def trainedStatus (stage : Nat) : Nat := if stage = 0 then stComplete else stLinkFail

theorem onlyQuads_trainingSettled (s : State) (n : Nat) (r : Training) (stage : Nat) :
    OnlyQuads (trainingShown s n r stage) (trainingSettled s n r stage) := by
  unfold trainingSettled
  split
  · exact onlyQuads_tapsSettled _ _ _
  · exact .refl _

theorem trainingSettled_back (s : State) (n : Nat) (r : Training) (stage : Nat) :
    { trainingSettled s n r stage with regs := s.regs, free := s.free, heads := s.heads } = s := by
  have hshown : { trainingShown s n r stage with regs := s.regs, free := s.free, heads := s.heads } = s := by
    unfold trainingShown
    split <;> rfl
  have hback := (onlyQuads_trainingSettled s n r stage).back
  exact (congrArg (fun t : State => { t with regs := s.regs, free := s.free, heads := s.heads }) hback).trans hshown

theorem reg_trainingSettled (s : State) (n : Fin 16) (r : Training) (stage : Nat) :
    (trainingSettled s n.val r stage).reg (HD_TX_SETTINGS n.val) = r.settings :=
  ((onlyQuads_trainingSettled s n.val r stage).regs _ (by unfold HD_TX_SETTINGS; omega)).trans (State.reg_setReg_same _ _ _)

theorem head_trainingSettled (s : State) (n : Nat) (r : Training) (stage : Nat) :
    (trainingSettled s n r stage).head n = trainedHead (s.head n) r stage :=
  (congrArg (fun t : State => t.head n) (onlyQuads_trainingSettled s n r stage).back :).trans (State.head_setHead _ n _)

/-- What a training shows before its HEAD_LINK completes. -/
theorem trainingNoted_shows (s : State) (n : Fin 16) (r : Training) (stage : Nat) (starts : Bool) :
    let t := crcStarted (trainingSettled s n.val r stage) n.val starts
    t.reg (HD_TX_SETTINGS n.val) = r.settings ∧ t.head n.val = trainedHead (s.head n.val) r stage ∧ t.jobs = s.jobs ∧ t.cpls = s.cpls
      ∧ t.mem = s.mem ∧ t.outbox = s.outbox ++ if starts then [.aux n.val false true false 0x270 [1] 1] else [] := by
  have hback := trainingSettled_back s n.val r stage
  rw [crcStarted_eq]
  exact ⟨reg_trainingSettled s n r stage, head_trainingSettled s n.val r stage, (congrArg State.jobs hback :), (congrArg State.cpls hback :),
    (congrArg State.mem hback :), (congrArg (fun t : State => t.outbox ++ _) hback :)⟩

/-- The completion with which a training ends its HEAD_LINK, one that no ABORT waits for, or none. -/
def LinkJobCpl (s : State) (job : Option Nat) (st : Nat) (body : BitVec 128) (cs : List Cpl) : Prop :=
  (job = none ∧ cs = []) ∨ ∃ id j, job = some id ∧ s.job id = some j ∧ j.abortBy = [] ∧ j.yielded = false
    ∧ cs = [cplOf j (BitVec.ofNat 16 st) body]

theorem linkJobEnds_shows {s : State} {job : Option Nat} {st : Nat} {body : BitVec 128} {cs : List Cpl} (h : LinkJobCpl s job st body cs) :
    let t := linkJobEnds s job st body
    t.regs = s.regs ∧ t.heads = s.heads ∧ t.mem = s.mem ∧ t.outbox = s.outbox ∧ t.cpls = s.cpls ++ cs := by
  rcases h with ⟨rfl, rfl⟩ | ⟨id, j, rfl, hjob, habort, hyield, rfl⟩
  · exact ⟨rfl, rfl, rfl, rfl, (List.append_nil _).symm⟩
  · rw [show linkJobEnds s (some id) st body = _ from finish_plain _ _ hjob hyield habort]
    exact ⟨rfl, rfl, rfl, rfl, rfl⟩

section Training

variable {n : Fin 16} {r : Training} {s : State} (hcore : s.ctl.core = true) (htrains : (s.head n.val).tx = .training)
include hcore htrains

/-- The end of a training: what it shows, the sink's test CRC started or missed, and the completion. -/
theorem doLinkTrainingDone_eq : doLinkTrainingDone n r s =
    let stage := trainedStage s n.val (s.head n.val) r
    let crc := decide (stage = 0) && (s.head n.val).sinkCrc
    let t := crcStarted (trainingSettled s n.val r stage) n.val (crc && r.crcSupp)
    let t := if crc && !r.crcSupp then raise t evSinkCrcUnsupp 0 (16 + n.val) (headOwner t n.val) [(n.val, 4)] else t
    linkNext n.val ((s.head n.val).auxJobs.length + 1) (linkJobEnds t (s.head n.val).linkJob (trainedStatus stage)
      (linkBody stage r.lttprs.toNat r.settings)) := by
  have hgo : (!s.ctl.core || (s.head n.val).tx != .training) = false := by rw [hcore, htrains]; rfl
  unfold doLinkTrainingDone trainingSettled trainingShown crcStarted
  dsimp only
  rw [hgo]
  rfl

/-- A training whose sink has its test CRC, or is not asked for one, at a head where no command waits. -/
theorem doLinkTrainingDone_shows (hempty : (s.head n.val).auxJobs = [])
    (hcrc : (decide (trainedStage s n.val (s.head n.val) r = 0) && (s.head n.val).sinkCrc && !r.crcSupp) = false) {cs : List Cpl}
    (hcs : LinkJobCpl s (s.head n.val).linkJob (trainedStatus (trainedStage s n.val (s.head n.val) r))
      (linkBody (trainedStage s n.val (s.head n.val) r) r.lttprs.toNat r.settings) cs) :
    let stage := trainedStage s n.val (s.head n.val) r
    let starts := decide (stage = 0) && (s.head n.val).sinkCrc && r.crcSupp
    let t := doLinkTrainingDone n r s
    t.reg (HD_TX_SETTINGS n.val) = r.settings ∧ t.head n.val = trainedHead (s.head n.val) r stage ∧ t.cpls = s.cpls ++ cs ∧ t.mem = s.mem
      ∧ t.outbox = s.outbox ++ if starts then [.aux n.val false true false 0x270 [1] 1] else [] := by
  rw [doLinkTrainingDone_eq hcore htrains]
  generalize trainedStage s n.val (s.head n.val) r = stage at hcrc hcs ⊢
  dsimp only
  rw [hcrc, if_neg Bool.false_ne_true]
  generalize (decide (stage = 0) && (s.head n.val).sinkCrc && r.crcSupp) = starts
  obtain ⟨hreg, hhead, hjobs, hcpls, hmem, hout⟩ := trainingNoted_shows s n r stage starts
  generalize crcStarted (trainingSettled s n.val r stage) n.val starts = u at hreg hhead hjobs hcpls hmem hout ⊢
  have hcs' : LinkJobCpl u (s.head n.val).linkJob (trainedStatus stage) (linkBody stage r.lttprs.toNat r.settings) cs := by
    unfold LinkJobCpl State.job
    rw [hjobs]
    exact hcs
  obtain ⟨hregs', hheads', hmem', hout', hcpls'⟩ := linkJobEnds_shows hcs'
  generalize linkJobEnds u _ _ _ = v at hregs' hheads' hmem' hout' hcpls' ⊢
  have hhead' : v.head n.val = trainedHead (s.head n.val) r stage := by
    rw [State.head, hheads']
    exact hhead
  have hidle : nextWaiting v n.val = none := nextWaiting_empty ((congrArg Head.auxJobs hhead').trans hempty)
  rw [linkNext_rests _ hidle]
  refine ⟨?_, hhead', hcpls'.trans (congrArg (· ++ cs) hcpls), hmem'.trans hmem, hout'.trans hout⟩
  rw [State.reg, hregs']
  exact hreg

/-- One whose sink has no test CRC that is asked for records so. -/
theorem doLinkTrainingDone_unsupported
    (hcrc : (decide (trainedStage s n.val (s.head n.val) r = 0) && (s.head n.val).sinkCrc && !r.crcSupp) = true) :
    let stage := trainedStage s n.val (s.head n.val) r
    let u := tapsSettled ((s.setReg (HD_TX_SETTINGS n.val) r.settings).setHead n.val { s.head n.val with
      tx := .linkIdle, trained := true, linkJob := none, lttpr := r.lttprs.toNat % 8, sinkOn := false, sinkCnt := none }) n.val (s.head n.val)
    doLinkTrainingDone n r s = linkNext n.val ((s.head n.val).auxJobs.length + 1)
      (linkJobEnds (raise u evSinkCrcUnsupp 0 (16 + n.val) (headOwner u n.val) [(n.val, 4)]) (s.head n.val).linkJob stComplete
        (linkBody stage r.lttprs.toNat r.settings)) := by
  obtain ⟨hasked, hsupp⟩ := Bool.and_eq_true_iff.mp hcrc
  obtain ⟨hok, -⟩ := Bool.and_eq_true_iff.mp hasked
  have hstage := of_decide_eq_true hok
  have hgiven := trainedStage_zero hstage
  have hnone : r.crcSupp = false := by simpa using hsupp
  have hsettled : trainingSettled s n.val r 0 = tapsSettled ((s.setReg (HD_TX_SETTINGS n.val) r.settings).setHead n.val { s.head n.val with
      tx := .linkIdle, trained := true, linkJob := none, lttpr := r.lttprs.toNat % 8, sinkOn := false, sinkCnt := none }) n.val (s.head n.val) := by
    unfold trainingSettled trainingShown trainedHead
    rw [hgiven, hnone, Bool.and_false]
    rfl
  rw [doLinkTrainingDone_eq hcore htrains]
  dsimp only
  rw [hcrc, hasked, hnone, hstage, hsettled]
  rfl

end Training

/-! ### The end of an AUX transaction (R230) -/

/-- What a reply to an AUX transaction leaves, and the status and body of its completion: the bytes of an ACK are written first. -/
def auxOutcome (s : State) (n : Nat) (j : Job) : AuxReply → State × Nat × BitVec 128
  | .timeout => (s, stAuxTimeout, 0)
  | .nack => (s, stComplete, cplBody [(16, 1, 1)])
  | .defer => (s, stComplete, cplBody [(16, 1, 2)])
  | .ack bs =>
    let bs := bs.take (j.req.u8 18)
    let w := if bs.isEmpty then (s, stComplete) else jobWrite s (16 + n) j.req.part.val (j.req.bit 48 0) (j.req.u64 40) bs
    (w.1, w.2, if w.2 = stComplete then cplBody [(17, 1, bs.length)] else 0)

theorem doAuxReply_running {n : Fin 16} {s : State} {j : Job} (hcore : s.ctl.core = true) (hfirst : (s.head n.val).auxJobs.head? = some j.id)
    (hjob : s.job j.id = some j) (hruns : j.running = true) (r : AuxReply) : doAuxReply n r s =
      auxEnd (auxOutcome s n.val j r).1 n.val j.id (auxOutcome s n.val j r).2.1 (auxOutcome s n.val j r).2.2 := by
  have hgo : (!s.ctl.core || !j.running) = false := by rw [hcore, hruns]; rfl
  have hfound : (s.head n.val).auxJobs.head?.bind s.job = some j := by rw [hfirst]; exact hjob
  unfold doAuxReply
  dsimp only
  rw [hfound]
  dsimp only
  rw [hgo]
  cases r <;> rfl

/-- After the only command at a head nothing starts. -/
theorem auxEnd_alone {s : State} {n id : Nat} (st : Nat) (body : BitVec 128) (h : (s.head n).auxJobs = [id]) :
    auxEnd s n id st body = finish (s.setHead n { s.head n with auxJobs := [] }) id st body := by
  have hleft : [id].filter (· != id) = [] := by simp
  unfold auxEnd
  dsimp only
  rw [h, hleft]
  refine linkNext_rests _ (nextWaiting_empty ?_)
  rw [head_finish, State.head_setHead]

/-- The end of a transaction whose reply comes while its command stands alone at its head. -/
theorem doAuxReply_alone {n : Fin 16} {s : State} {j : Job} (hcore : s.ctl.core = true) (halone : (s.head n.val).auxJobs = [j.id])
    (hjob : s.job j.id = some j) (hruns : j.running = true) {r : AuxReply} {t : State} {st : Nat} {body : BitVec 128}
    (hout : auxOutcome s n.val j r = (t, st, body)) (ht : t.head n.val = s.head n.val) :
    doAuxReply n r s = finish (t.setHead n.val { s.head n.val with auxJobs := [] }) j.id st body := by
  rw [doAuxReply_running hcore (by rw [halone]; rfl) hjob hruns, hout, auxEnd_alone _ _ (by rw [ht, halone]), ht]

theorem auxOutcome_ack {s : State} {n : Nat} {j : Job} {bs : Bytes} (hne : bs.take (j.req.u8 18) ≠ []) : auxOutcome s n j (.ack bs) =
    let w := jobWrite s (16 + n) j.req.part.val (j.req.bit 48 0) (j.req.u64 40) (bs.take (j.req.u8 18))
    (w.1, w.2, if w.2 = stComplete then cplBody [(17, 1, (bs.take (j.req.u8 18)).length)] else 0) := by
  unfold auxOutcome
  dsimp only
  rw [List.isEmpty_eq_false_iff.mpr hne]
  rfl

/-- A reply whose bytes go to host memory over a link that is up. -/
theorem auxOutcome_posted {s : State} {n : Nat} {j : Job} {bs : Bytes} (hne : bs.take (j.req.u8 18) ≠ []) (hhost : j.req.bit 48 0 = true)
    (hpcie : onPcie s j.req.part.val = true) (hup : linkUp s (s.part j.req.part.val).port = true) : auxOutcome s n j (.ack bs) =
      (s.emit (.hostWrite (s.part j.req.part.val).port (BitVec.ofNat 64 (j.req.u64 40)) (bs.take (j.req.u8 18))), stComplete,
        cplBody [(17, 1, (bs.take (j.req.u8 18)).length)]) := by
  rw [auxOutcome_ack hne, jobWrite, hhost, hpcie, hup]
  rfl

/-! ### The hot-plug pins (R228, R229) -/

theorem doHpdTransition_same {n : Fin 16} {level : Bool} {s : State} (h : (s.head n.val).hpd = level) : doHpdTransition n level s = s :=
  if_pos (beq_iff_eq.mpr h)

theorem doHpdTransition_change {n : Fin 16} {level : Bool} {s : State} (h : (s.head n.val).hpd ≠ level) : doHpdTransition n level s =
    let t := s.setHead n.val { s.head n.val with hpd := level }
    if !s.ctl.core || decide (s.nHeads ≤ n.val) then t else hpdEvent (t.add (HD_TX_HPD n.val) 0 16 1) n.val :=
  if_neg fun heq => h (beq_iff_eq.mp heq)

theorem doHpdDisconnect_lost {n : Fin 16} {s : State} (hcore : s.ctl.core = true) (hlow : (s.head n.val).hpd = false)
    (htrained : (s.head n.val).trained = true) : doHpdDisconnect n s =
      raiseKey (s.setBit (HD_TX_STATE n.val) 4 true) n.val evLinkLost 1 (16 + n.val) (headOwner s n.val) [(n.val, 4)] := by
  unfold doHpdDisconnect
  dsimp only
  rw [hcore, hlow, htrained]
  rfl

theorem doHpdDisconnect_kept {n : Fin 16} {s : State} (h : (s.head n.val).hpd = true ∨ (s.head n.val).trained = false) :
    doHpdDisconnect n s = s := by
  refine if_pos ?_
  rcases h with h | h <;> simp [h]

theorem doIrqHpd_present {n : Fin 16} {d : BitVec 64} {s : State} (hcore : s.ctl.core = true) (hn : n.val < s.nHeads) : doIrqHpd n d s =
    let t := hpdEvent ((s.setBit (HD_TX_STATE n.val) 3 true).add (HD_TX_HPD n.val) 16 16 1) n.val
    let t := t.setPair (HD_TX_LINKST_LO n.val) (HD_TX_LINKST_HI n.val) d.toNat
    raise t evLinkStatus 0 (16 + n.val) (headOwner t n.val) [(d.toNat, 64)] :=
  if_neg (by simp [hcore, hn])

/-- Settles O13: a command comes to its turn or waits behind what has it; the end of a training or of a transaction gives the turn on. -/
theorem outputs : Obligations.Outputs := by
  refine ⟨⟨fun q s h hmode hn hmember hpresent howns hgang => ?_, fun q s h hn hmember hmin hmax hpresent howns => ?_⟩,
    ⟨fun n r s hcore htrains => ?_, fun n s j hcore hfirst hjob hruns => ⟨fun halone => ?_, fun bs hne => ?_⟩⟩,
    fun n level s => ⟨fun hsame => ?_, fun hchange => ⟨fun hdead => ?_, fun hcore hn => ?_⟩⟩,
    fun n s hcore => ⟨fun hlow htrained => ?_, fun hkept => ?_⟩, fun n d s hcore hn => ?_⟩
  · have hhead : LinkHead s q := ⟨hmode, hn, hmember, hpresent, howns, hgang⟩
    refine ⟨fun hoff hidle => ?_, fun hrate htrains => ?_, fun hrate htx hshape hquad hlanes hroom => ?_⟩
    · exact congrArg Host.Outcome.next (doHeadLink_off h hhead hoff hidle)
    · exact congrArg Host.Outcome.next (doHeadLink_waits h hhead hrate htrains)
    · have hfits : LinkFits s q := ⟨hrate, hshape, hquad, hlanes, hroom⟩
      exact ⟨fun hhpd => congrArg Host.Outcome.next (doHeadLink_trains h hhead hfits htx hhpd),
        fun hhpd hruns => congrArg Host.Outcome.next (doHeadLink_noSink h hhead hfits htx hhpd hruns)⟩
  · exact ⟨fun hbusy => congrArg Host.Outcome.next (doHeadAux_waits h hn hmember hmin hmax hpresent howns hbusy),
      fun htx hempty hhpd => congrArg Host.Outcome.next (doHeadAux_starts h hn hmember hmin hmax hpresent howns htx hempty hhpd),
      fun htx hempty hhpd => congrArg Host.Outcome.next (doHeadAux_noSink h hn hmember hmin hmax hpresent howns htx hempty hhpd)⟩
  · refine ⟨fun hgiven => trainedStage_given hgiven, fun hdeaf h0 => ?_, fun hempty hcrc cs hcs => ?_, fun hcrc =>
      congrArg Host.Outcome.next (doLinkTrainingDone_unsupported hcore htrains hcrc)⟩
    · have hstage := trainedStage_deaf (r := r) hdeaf h0
      omega
    · have hst : (if decide (trainedStage s n.val (s.head n.val) r = 0) then stComplete else stLinkFail) =
          trainedStatus (trainedStage s n.val (s.head n.val) r) := by simp [trainedStatus]
      have hsupp : (decide (trainedStage s n.val (s.head n.val) r = 0) && (s.head n.val).sinkCrc && r.crcSupp) =
          (decide (trainedStage s n.val (s.head n.val) r = 0) && (s.head n.val).sinkCrc) := by
        revert hcrc
        cases r.crcSupp <;> simp
      rw [hst] at hcs
      obtain ⟨hreg, hhead, hcpls, hmem, hout⟩ := doLinkTrainingDone_shows (r := r) hcore htrains hempty hcrc hcs
      rw [hsupp] at hout
      refine ⟨_, rfl, hreg, (congrArg Head.tx hhead).trans ?_, congrArg Head.trained hhead, congrArg Head.linkJob hhead,
        (congrArg Head.sinkOn hhead).trans hsupp, hcpls, hmem, hout⟩
      simp [trainedHead]
  · have hout : ∀ r t st body, auxOutcome s n.val j r = (t, st, body) → t.head n.val = s.head n.val →
        exec (.auxReply n r) s = .next (finish (t.setHead n.val { s.head n.val with auxJobs := [] }) j.id st body) :=
      fun r t st body hout ht => congrArg Host.Outcome.next (doAuxReply_alone hcore halone hjob hruns hout ht)
    refine ⟨hout _ _ _ _ rfl rfl, hout _ _ _ _ rfl rfl, hout _ _ _ _ rfl rfl, fun bs hbs hlen hhost hpcie hup => ?_⟩
    have hne : bs.take (j.req.u8 18) ≠ [] := by
      simp [hbs, Nat.ne_of_gt hlen]
    exact hout _ _ _ _ (auxOutcome_posted hne hhost hpcie hup) rfl
  · have hack := doAuxReply_running hcore hfirst hjob hruns (.ack bs)
    rw [auxOutcome_ack hne] at hack
    exact congrArg Host.Outcome.next hack
  · exact congrArg Host.Outcome.next (doHpdTransition_same hsame)
  · refine congrArg Host.Outcome.next ((doHpdTransition_change hchange).trans (if_pos ?_))
    rcases hdead with hcore | hn
    · simp [hcore]
    · simp [hn]
  · exact congrArg Host.Outcome.next ((doHpdTransition_change hchange).trans (if_neg (by simp [hcore, hn])))
  · exact congrArg Host.Outcome.next (doHpdDisconnect_lost hcore hlow htrained)
  · exact congrArg Host.Outcome.next (doHpdDisconnect_kept hkept)
  · exact congrArg Host.Outcome.next (doIrqHpd_present hcore hn)

end Sys2Proof.Machine

/-!
PROOFS of the output family: the verifier's comparisons and captures (R231–R237), scanout that a gate refuses or holds past its lines
(R306, R312), and the obligation on the verification.
-/

namespace Sys2Proof.Machine

/-! ### A first-difference capture (R232) -/

section Capture

variable {s : State} {base n b : Nat} {frame : BitVec 64} {x y : Nat}

/-- A register set that holds a difference is not overwritten. -/
theorem verCapture_held (h : s.bit base 31 = true) : verCapture s base n b frame x y = s := if_pos h

theorem verCapture_free (h : s.bit base 31 = false) : verCapture s base n b frame x y =
    (((s.setReg base (BitVec.ofNat 32 (n + b * 2 ^ 4 + 2 ^ 31))).setReg (base + 4) (BitVec.ofNat 32 frame.toNat)).setReg (base + 8)
      (BitVec.ofNat 32 x)).setReg (base + 12) (BitVec.ofNat 32 y) := if_neg (by simp [h])

theorem onlyRegs_verCapture (s : State) (base n b : Nat) (frame : BitVec 64) (x y : Nat) :
    OnlyRegs [base, base + 4, base + 8, base + 12] s (verCapture s base n b frame x y) := by
  cases h : s.bit base 31 with
  | true => rw [verCapture_held h]; exact ⟨fun _ _ => rfl, rfl⟩
  | false =>
    rw [verCapture_free h]
    exact (((onlyRegs_setReg s _ (by simp)).trans (onlyRegs_setReg _ _ (by simp))).trans (onlyRegs_setReg _ _ (by simp))).trans
      (onlyRegs_setReg _ _ (by simp))

/-- A free one shows the head, the band, the frame and the two values, and holds them from then on. -/
theorem verCapture_shows (h : s.bit base 31 = false) (hn : n < 16) (hb : b < 128) :
    let t := verCapture s base n b frame x y
    t.reg base = BitVec.ofNat 32 (n + b * 2 ^ 4 + 2 ^ 31) ∧ t.reg (base + 4) = BitVec.ofNat 32 frame.toNat
      ∧ t.reg (base + 8) = BitVec.ofNat 32 x ∧ t.reg (base + 12) = BitVec.ofNat 32 y ∧ t.bit base 31 = true := by
  have hstatus : (verCapture s base n b frame x y).reg base = BitVec.ofNat 32 (n + b * 2 ^ 4 + 2 ^ 31) := by
    rw [verCapture_free h, State.reg_setReg_ne _ _ (by omega), State.reg_setReg_ne _ _ (by omega), State.reg_setReg_ne _ _ (by omega),
      State.reg_setReg_same]
  refine ⟨hstatus, ?_, ?_, ?_, ?_⟩
  · rw [verCapture_free h, State.reg_setReg_ne _ _ (by omega), State.reg_setReg_ne _ _ (by omega), State.reg_setReg_same]
  · rw [verCapture_free h, State.reg_setReg_ne _ _ (by omega), State.reg_setReg_same]
  · rw [verCapture_free h, State.reg_setReg_same]
  · have hvalid : (n + b * 2 ^ 4 + 2 ^ 31) / 2 ^ 31 % 2 = 1 := by omega
    rw [State.bit, hstatus, BitVec.toNat_ofNat, Nat.mod_eq_of_lt (by omega)]
    exact beq_iff_eq.mpr hvalid

end Capture

/-! ### The scrim witness (R233, R234) -/

/-- The head once its witness ran. -/
def witnessRan (s : State) (n : Nat) : State := s.setHead n { s.head n with witRan := true }

/-- A difference of `k` pixels counted and captured. -/
def witnessCounted (s : State) (n b k : Nat) : State :=
  verCapture ((witnessRan s n).inc VFY_SCRIM_MIS) VFY_SCAP_STATUS n b (s.head n).frame ((scrimExpected s n b - k) % 2 ^ 18)
    (scrimExpected s n b % 2 ^ 18)

theorem onlyRegs_witnessCounted (s : State) (n b k : Nat) :
    OnlyRegs (VFY_SCRIM_MIS :: [VFY_SCAP_STATUS, VFY_SCAP_STATUS + 4, VFY_SCAP_STATUS + 8, VFY_SCAP_STATUS + 12]) (witnessRan s n)
      (witnessCounted s n b k) :=
  .trans (onlyRegs_setReg _ _ List.mem_cons_self) ((onlyRegs_verCapture _ _ _ _ _ _ _).mono (List.subset_cons_self _ _))

theorem head_witnessCounted (s : State) (n b k : Nat) : (witnessCounted s n b k).head n = { s.head n with witRan := true } :=
  (congrArg (fun t : State => t.head n) (onlyRegs_witnessCounted s n b k).back :).trans (State.head_setHead s n _)

theorem count_witnessCounted (s : State) (n b k : Nat) : (witnessCounted s n b k).reg VFY_SCRIM_MIS = (s.inc VFY_SCRIM_MIS).reg VFY_SCRIM_MIS :=
  (onlyRegs_verCapture ((witnessRan s n).inc VFY_SCRIM_MIS) VFY_SCAP_STATUS n b _ _ _).regs _ (by decide)

/-- Where a difference is captured already, the count alone changes. -/
theorem witnessCounted_held {s : State} {n : Nat} (b k : Nat) (h : s.bit VFY_SCAP_STATUS 31 = true) :
    SameRegsBut [VFY_SCRIM_MIS] s (witnessCounted s n b k) := by
  have hkept : ((witnessRan s n).inc VFY_SCRIM_MIS).bit VFY_SCAP_STATUS 31 = s.bit VFY_SCAP_STATUS 31 :=
    State.bit_congr (State.reg_setReg_ne _ _ (by decide)) 31
  rw [witnessCounted, verCapture_held (hkept.trans h)]
  exact sameRegsBut_setReg s _ (by simp)

section Witness

variable {n : Fin 16} {b : Fin 68} {k : Nat} {s : State} (hband : bandRuns s n.val b.val = true)
include hband

theorem doWitnessBandCompare_equal (h : k = 0 ∨ scrimExpected s n.val b.val = 0) : doWitnessBandCompare n b k s = witnessRan s n.val := by
  have hequal : scrimExpected s n.val b.val - k = scrimExpected s n.val b.val := by omega
  unfold doWitnessBandCompare
  dsimp only
  rw [hband, if_pos hequal]
  rfl

theorem doWitnessBandCompare_differs (hk : 0 < k) (hexp : 0 < scrimExpected s n.val b.val) : doWitnessBandCompare n b k s =
    let t := (witnessCounted s n.val b.val k).setHead n.val { s.head n.val with witRan := true, witBad := true }
    if (s.head n.val).witBad then t else witnessError t n.val b.val (scrimExpected s n.val b.val - k) (scrimExpected s n.val b.val) := by
  have hdiffers : scrimExpected s n.val b.val - k ≠ scrimExpected s n.val b.val := by omega
  have hmarked : { (witnessCounted s n.val b.val k).head n.val with witBad := true } = { s.head n.val with witRan := true, witBad := true } := by
    rw [head_witnessCounted]
  unfold doWitnessBandCompare
  dsimp only
  rw [hband, if_neg hdiffers, ← hmarked]
  rfl

end Witness

/-! ### Band CRC and writeback readback (R227, R231, R237) -/

section Crc

variable {n : Fin 16} {b : Fin 68} {fault : BitVec 32} {s : State} (hband : bandRuns s n.val b.val = true)
include hband

theorem doBandCrcCompare_skipped (h : (s.head n.val).tx ≠ .video) : doBandCrcCompare n b fault s = s.inc (HD_TX_SKIP n.val) := by
  have hskip : ((s.head n.val).tx != .video) = true := by simpa using h
  unfold doBandCrcCompare
  dsimp only
  rw [hband, hskip]
  rfl

/-- A band that was serialised is compared. -/
theorem doBandCrcCompare_video (h : (s.head n.val).tx = .video) : doBandCrcCompare n b fault s =
    if fault = 0 then s
    else
      let tap := BitVec.ofNat 32 (tapCrc s n.val b.val)
      raiseKey (verCapture (s.inc VFY_BAND_MIS) VFY_BCAP_STATUS n.val b.val (s.head n.val).frame tap.toNat (tap ^^^ fault).toNat) n.val evBandCrc 2
        15 31 [(n.val, 4), (b.val, 7), ((s.head n.val).frame.toNat, 16)] := by
  have hgo : ((s.head n.val).tx != .video) = false := by simpa using h
  unfold doBandCrcCompare
  dsimp only
  rw [hband, hgo]
  rfl

end Crc

/-- The writes of a band of the frame in writeback. -/
def bandWrites (s : State) (n b : Nat) (c : Bool × BitVec 64 × Nat) : List (Nat × Bytes) := wbBand s n b (s.surf (wbSurf (s.head n) c.1))

/-- The CRC of a written band over the bytes given. -/
def writtenCrc (n b : Nat) (c : Bool × BitVec 64 × Nat) (bs : Bytes) : BitVec 32 := BitVec.ofNat 32 (crc32c (bandContext n b c.2.1 true) bs)

/-- A band written and read back. -/
def bandReadBack (s : State) (n b : Nat) (c : Bool × BitVec 64 × Nat) : State × Option Bytes :=
  readBack (wbWriteBand s n b) (headOwner s n) (bandWrites s n b c)

section Readback

variable {n : Fin 16} {b : Fin 68} {fault : BitVec 32} {s : State} {c : Bool × BitVec 64 × Nat} (hband : bandRuns s n.val b.val = true)
  (hverify : (s.head n.val).wbVerify = true) (hcur : (s.head n.val).wbCur = some c)
include hband hverify hcur

theorem doWbReadback_waits (h : (bandReadBack s n.val b.val c).2 = none) : doWbReadback n b fault s = s := by
  unfold bandReadBack bandWrites at h
  unfold doWbReadback
  dsimp only
  rw [hcur, hband, hverify]
  dsimp only
  rw [h]
  rfl

/-- Bytes that were read back are compared with those written. -/
theorem doWbReadback_compares {back : Bytes} (h : (bandReadBack s n.val b.val c).2 = some back) : doWbReadback n b fault s =
    let wr := writtenCrc n.val b.val c ((bandWrites s n.val b.val c).flatMap (·.2))
    let rd := writtenCrc n.val b.val c back ^^^ fault
    let t := (bandReadBack s n.val b.val c).1
    if rd = wr then t
    else
      raiseKey (verCapture (t.inc VFY_WB_MIS) VFY_WCAP_STATUS n.val b.val c.2.1 wr.toNat rd.toNat) n.val evWbCrc 2 15 31
        [(n.val, 4), (b.val, 7), (c.2.1.toNat, 16)] := by
  unfold bandReadBack bandWrites at h
  unfold doWbReadback writtenCrc bandReadBack bandWrites
  dsimp only
  rw [hcur, hband, hverify]
  dsimp only
  rw [h]
  exact if_neg (by decide)

end Readback

theorem doWritebackComplete_due {n : Fin 16} {s : State} {d : Bool × BitVec 64 × Nat} (h : (s.head n.val).wbDue = some d) :
    doWritebackComplete n s = wbComplete s n.val d := by
  unfold doWritebackComplete
  rw [h]

/-! ### The sink's test CRC (R236) -/

/-- The registers that show a read of the sink's test CRC. -/
def sinkShown (s : State) (n : Nat) (r : SinkRead) : State :=
  (s.setReg (HD_TX_SINK_RG n) (BitVec.ofNat 32 (r.r.toNat + r.g.toNat * 2 ^ 16))).setReg (HD_TX_SINK_B n)
    (BitVec.ofNat 32 (r.b.toNat + r.count.toNat * 2 ^ 16))

/-- Setting a field of a register rests on the registers alone. -/
theorem State.setFld_regs_congr {s t : State} (h : t.regs = s.regs) (a lo n v : Nat) : (t.setFld a lo n v).regs = (s.setFld a lo n v).regs := by
  unfold State.setFld State.reg State.setReg
  rw [h]

/-- The state in which a read of the sink's test CRC matched. -/
def sinkMatched (s : State) (n : Nat) (r : SinkRead) : State :=
  (((sinkShown s n r).setHead n { s.head n with sinkCnt := some r.count }).setHead n
    { s.head n with sinkCnt := some r.count, sinkRec := false }).setFld (VFY_HEAD_STATE n) 2 4 0

theorem sinkMatched_shows (s : State) (n : Nat) (r : SinkRead) : let u := sinkMatched s n r
    u.head n = { s.head n with sinkCnt := some r.count, sinkRec := false } ∧ u.regs = ((sinkShown s n r).setFld (VFY_HEAD_STATE n) 2 4 0).regs
      ∧ u.mem = s.mem ∧ u.jobs = s.jobs := by
  have hhead : ∀ (t : State) a lo k v, (t.setFld a lo k v).head n = t.head n := fun _ _ _ _ _ => rfl
  unfold sinkMatched
  refine ⟨?_, State.setFld_regs_congr ?_ _ _ _ _, ?_, ?_⟩
  · rw [hhead, State.head_setHead]
  · rw [State.setHead_regs, State.setHead_regs]
  · rw [State.setFld_mem, State.setHead_mem, State.setHead_mem, sinkShown, State.setReg_mem, State.setReg_mem]
  · rw [State.setFld_jobs, State.setHead_jobs, State.setHead_jobs, sinkShown, State.setReg_jobs, State.setReg_jobs]

section Sink

variable {n : Fin 16} {r : SinkRead} {s : State} (hcore : s.ctl.core = true) (hon : (s.head n.val).enabled = true)
  (hsink : (s.head n.val).sinkOn = true) (htx : (s.head n.val).tx = .video ∨ (s.head n.val).tx = .training)
include hcore hon hsink htx

theorem doSinkCrcRead_eq : doSinkCrcRead n r s =
    if auxBusy s n.val || !r.ok then s.inc (HD_TX_SINK_SKIP n.val)
    else if (s.head n.val).sinkCnt == some r.count then (sinkShown s n.val r).inc (HD_TX_SINK_STALE n.val)
    else
      let t := (sinkShown s n.val r).setHead n.val { s.head n.val with sinkCnt := some r.count }
      if (s.head n.val).crcs.contains (r.r, r.g, r.b) then
        (t.setHead n.val { t.head n.val with sinkRec := false }).setFld (VFY_HEAD_STATE n.val) 2 4 0
      else sinkMismatch t n.val r.count := by
  have hgo : (!s.ctl.core || !(s.head n.val).enabled || !(s.head n.val).sinkOn
      || !((s.head n.val).tx = .video || (s.head n.val).tx = .training)) = false := by
    rcases htx with htx | htx <;> simp [hcore, hon, hsink, htx]
  unfold doSinkCrcRead
  dsimp only
  rw [hgo]
  rfl

theorem doSinkCrcRead_skipped (h : r.ok = false ∨ auxBusy s n.val = true) : doSinkCrcRead n r s = s.inc (HD_TX_SINK_SKIP n.val) := by
  rw [doSinkCrcRead_eq hcore hon hsink htx]
  refine if_pos ?_
  rcases h with h | h <;> simp [h]

section Read

variable (hok : r.ok = true) (hidle : auxBusy s n.val = false)
include hok hidle

theorem doSinkCrcRead_stale (h : (s.head n.val).sinkCnt = some r.count) :
    doSinkCrcRead n r s = (sinkShown s n.val r).inc (HD_TX_SINK_STALE n.val) := by
  rw [doSinkCrcRead_eq hcore hon hsink htx, hidle, hok, h]
  exact if_pos (beq_self_eq_true _)

theorem doSinkCrcRead_fresh (h : (s.head n.val).sinkCnt ≠ some r.count) : doSinkCrcRead n r s =
    let t := (sinkShown s n.val r).setHead n.val { s.head n.val with sinkCnt := some r.count }
    if (s.head n.val).crcs.contains (r.r, r.g, r.b) then sinkMatched s n.val r else sinkMismatch t n.val r.count := by
  rw [doSinkCrcRead_eq hcore hon hsink htx, hidle, hok, beq_false_of_ne h]
  dsimp only
  rw [State.head_setHead]
  rfl

end Read

end Sink

/-! ### Scanout that a gate refuses or holds (R306, R312) -/

/-- The layers and bands whose scanout was missed, with one more. -/
def heldWith (held : List (Nat × Nat)) (x : Nat × Nat) : List (Nat × Nat) := if x ∈ held then held else held ++ [x]

theorem heldWith_eq (held : List (Nat × Nat)) (x : Nat × Nat) : (if held.contains x then held else held ++ [x]) = heldWith held x := by
  simp [heldWith]

/-- A head whose scanout misses the pieces `xs` of layer `i` in band `b`. -/
def shutHead (h : Head) (i b : Nat) (live : Bool) (xs : List Shut) : Head :=
  let h := { h with held := heldWith h.held (i, b), black := h.black ++ xs.map fun x => (i, x.y, x.x0, x.x1) }
  if live then { h with evals := blackEvals b i h.evals, hot := blackEvals b i h.hot } else h

/-- The pieces that a layer of a head misses, and the state in which those refused are violations. -/
def missedPieces (s : State) (n b i lo hi : Nat) : List Shut := shutPieces s (headOwner s n) (s.head n) (s.layer i) b lo hi

def missedReads (s : State) (n b i lo hi : Nat) : State :=
  shutReads s (headOwner s n) ((missedPieces s n b i lo hi).map fun x => (x.addr, x.len))

/-- The same with what the head then shows. -/
def missedShown (s : State) (n b i lo hi : Nat) : State :=
  (missedReads s n b i lo hi).setHead n
    (shutHead ((missedReads s n b i lo hi).head n) i b (s.layer i).cur.live (missedPieces s n b i lo hi))

theorem doGateIsoLate_passes {n : Fin 16} {b : Fin 68} {i : Fin 256} {lo hi : Fin 64} {s : State}
    (h : missedPieces s n.val b.val i.val lo.val hi.val = []) : doGateIsoLate n b i lo hi s = s := by
  refine if_pos ?_
  rw [show shutPieces s (headOwner s n.val) (s.head n.val) (s.layer i.val) b.val lo.val hi.val = [] from h]
  exact Bool.or_true _

section Shut

variable {n : Fin 16} {b : Fin 68} {i : Fin 256} {lo hi : Fin 64} {s : State} (hband : bandRuns s n.val b.val = true)
  (hcreated : (s.layer i.val).created = true) (hhead : (s.layer i.val).head = n.val) (hvisible : (s.layer i.val).cur.visible = true)
  (hbuf : (s.layer i.val).buf.isSome = true) (hxs : missedPieces s n.val b.val i.val lo.val hi.val ≠ [])
include hband hcreated hhead hvisible hbuf hxs

/-- Pieces that are missed: the first of a band is counted and recorded. -/
theorem doGateIsoLate_misses : doGateIsoLate n b i lo hi s =
    let t := missedShown s n.val b.val i.val lo.val hi.val
    if !(((missedReads s n.val b.val i.val lo.val hi.val).head n.val).held.any fun x => x.2 == b.val) then
      raise (t.inc GATE_ISO_LATE) evGateIsoLate 1 36 (headOwner s n.val) []
    else t := by
  have hgo : (!bandRuns s n.val b.val || !(s.layer i.val).created || (s.layer i.val).head != n.val || !(s.layer i.val).cur.visible
      || (s.layer i.val).buf.isNone || (missedPieces s n.val b.val i.val lo.val hi.val).isEmpty) = false := by
    simp [hband, hcreated, hhead, hvisible, Option.isNone_eq_false_iff.mpr hbuf, List.isEmpty_eq_false_iff.mpr hxs]
  unfold missedPieces at hgo
  unfold doGateIsoLate missedShown missedReads missedPieces shutHead
  dsimp only
  rw [hgo, heldWith_eq, if_neg Bool.false_ne_true]

theorem doGateIsoLate_first (hnone : ∀ x ∈ ((missedReads s n.val b.val i.val lo.val hi.val).head n.val).held, x.2 ≠ b.val) :
    doGateIsoLate n b i lo hi s =
      raise ((missedShown s n.val b.val i.val lo.val hi.val).inc GATE_ISO_LATE) evGateIsoLate 1 36 (headOwner s n.val) [] := by
  rw [doGateIsoLate_misses hband hcreated hhead hvisible hbuf hxs]
  refine if_pos ?_
  simpa using fun l k hmem => hnone (l, k) hmem

theorem doGateIsoLate_later (hsome : ∃ x ∈ ((missedReads s n.val b.val i.val lo.val hi.val).head n.val).held, x.2 = b.val) :
    doGateIsoLate n b i lo hi s = missedShown s n.val b.val i.val lo.val hi.val := by
  rw [doGateIsoLate_misses hband hcreated hhead hvisible hbuf hxs]
  refine if_neg ?_
  obtain ⟨x, hmem, hx⟩ := hsome
  have hany : ((missedReads s n.val b.val i.val lo.val hi.val).head n.val).held.any (fun x => x.2 == b.val) = true :=
    List.any_eq_true.mpr ⟨x, hmem, beq_iff_eq.mpr hx⟩
  rw [hany]
  decide

end Shut

/-- Settles O14: what each comparison comes to, and a capture register set that holds a difference keeps it. -/
theorem verification : Obligations.Verification := by
  refine ⟨⟨fun n b k s hband => ⟨fun hequal => ?_, fun hk hexp hbad => ?_, fun hk hexp hgood => ?_⟩,
    fun n b fault s hband => ⟨fun htx => ?_, fun htx hfault => ?_, fun htx hfault => ?_⟩,
    fun n b fault s c hband hverify hcur => ⟨fun hnone => ?_, fun back hback hsame => ?_, fun back hback hdiffers => ?_⟩,
    fun n s d hdue => congrArg Host.Outcome.next (doWritebackComplete_due hdue),
    fun n r s hcore hon hsink htx => ⟨fun hskip => ?_,
      fun hok hidle => ⟨fun hstale => ?_, fun hfresh hmatch => ?_, fun hfresh hdiffers => ?_⟩⟩⟩,
    fun s base n b frame x y => ⟨verCapture_held, fun hfree hn hb => ?_⟩,
    fun n b i lo hi s hband hcreated hhead hvisible hbuf => ⟨fun hxs => ?_, fun hxs hnone => ?_, fun hxs hsome => ?_⟩⟩
  · exact congrArg Host.Outcome.next (doWitnessBandCompare_equal hband hequal)
  · have hdone := doWitnessBandCompare_differs hband hk hexp
    rw [hbad, if_pos rfl] at hdone
    have hback := (onlyRegs_witnessCounted s n.val b.val k).back
    have hhead := State.head_setHead (witnessCounted s n.val b.val k) n.val { s.head n.val with witRan := true, witBad := true }
    exact ⟨_, congrArg Host.Outcome.next hdone, (congrArg State.mem hback :), (congrArg State.jobs hback :), count_witnessCounted s n.val b.val k,
      congrArg Head.witRan hhead, congrArg Head.witBad hhead, fun hheld => witnessCounted_held b.val k hheld⟩
  · have hdone := doWitnessBandCompare_differs hband hk hexp
    rw [hgood, if_neg Bool.false_ne_true] at hdone
    exact congrArg Host.Outcome.next hdone
  · exact congrArg Host.Outcome.next (doBandCrcCompare_skipped hband htx)
  · exact congrArg Host.Outcome.next ((doBandCrcCompare_video hband htx).trans (if_pos hfault))
  · exact congrArg Host.Outcome.next ((doBandCrcCompare_video hband htx).trans (if_neg hfault))
  · exact congrArg Host.Outcome.next (doWbReadback_waits hband hverify hcur hnone)
  · exact congrArg Host.Outcome.next ((doWbReadback_compares hband hverify hcur hback).trans (if_pos hsame))
  · exact congrArg Host.Outcome.next ((doWbReadback_compares hband hverify hcur hback).trans (if_neg hdiffers))
  · exact congrArg Host.Outcome.next (doSinkCrcRead_skipped hcore hon hsink htx hskip)
  · exact congrArg Host.Outcome.next (doSinkCrcRead_stale hcore hon hsink htx hok hidle hstale)
  · have hread := (doSinkCrcRead_fresh hcore hon hsink htx hok hidle hfresh).trans (if_pos (List.contains_iff_mem.mpr hmatch))
    exact ⟨_, congrArg Host.Outcome.next hread, sinkMatched_shows s n.val r⟩
  · have hread := (doSinkCrcRead_fresh hcore hon hsink htx hok hidle hfresh).trans (if_neg (fun h => hdiffers (List.contains_iff_mem.mp h)))
    exact congrArg Host.Outcome.next hread
  · obtain ⟨hbase, hframe, hx, hy, hvalid⟩ := verCapture_shows (frame := frame) (x := x) (y := y) hfree hn hb
    obtain ⟨hregs, hback⟩ := onlyRegs_verCapture s base n b frame x y
    exact ⟨hbase, hframe, hx, hy, hregs, (congrArg State.mem hback :), verCapture_held hvalid⟩
  · exact congrArg Host.Outcome.next (doGateIsoLate_passes hxs)
  · exact congrArg Host.Outcome.next (doGateIsoLate_first hband hcreated hhead hvisible hbuf hxs hnone)
  · exact congrArg Host.Outcome.next (doGateIsoLate_later hband hcreated hhead hvisible hbuf hxs hsome)

end Sys2Proof.Machine

/-!
PROOFS of the touch family: what the raising of an event leaves of a touch port (R264, R480-R489). The entry into YIELD that an event can
bring gives the scan and the self-test up, and an entry of the table that has come to its default leaves it; the configuration, the
contacts and the pre-touched nodes of a port that is enabled stay. The frames of the liveness and composition families cover registers.
-/

namespace Sys2Proof.Machine

/-! ### Entries of a rewritten table -/

section Tables

variable {α : Type} {d : Nat → α} {k : Nat}

/-- A table rewritten entry by entry, where the default of the key is rewritten to itself. -/
theorem tget_map {f : α → α} (hd : f (d k) = d k) (t : Tbl α) : tget d (t.map fun x => (x.1, f x.2)) k = f (tget d t k) := by
  induction t with
  | nil => exact hd.symm
  | cons x t ih =>
    rw [List.map_cons, tget_cons, tget_cons, ih]
    split <;> rfl

/-- Putting a table in canonical form keeps what is not its key's default, whatever form the table had. -/
theorem tget_tnorm [DecidableEq α] {t : Tbl α} (h : tget d t k ≠ d k) : tget d (tnorm d t) k = tget d t k := by
  induction t with
  | nil => rfl
  | cons x t ih =>
    obtain ⟨j, u⟩ := x
    rw [tget_cons] at h
    unfold tnorm at ih ⊢
    rw [List.filter_cons, tget_cons]
    by_cases hj : j = k
    · subst hj
      rw [if_pos rfl] at h
      simp [h, tget_cons]
    · rw [if_neg hj] at h ⊢
      split
      · rw [tget_cons, if_neg hj]
        exact ih h
      · exact ih h

end Tables

/-! ### What is kept of a port -/

/-- A port without its scan, its pins, its self-test and its report rings. -/
def restOf (u : Touch) : Touch := { u with slots := [], scanning := false, driven := false, test := none, rings := [] }

/-- The rest of port `p`, if it is enabled, is that of before. -/
def KeepsPort (p : Nat) (s t : State) : Prop := (s.tch p).cfg.enable = true → restOf (t.tch p) = restOf (s.tch p)

variable {p : Nat}

theorem cfg_of_restOf {u v : Touch} (h : restOf v = restOf u) : v.cfg = u.cfg := (congrArg Touch.cfg h :)

theorem contacts_of_restOf {u v : Touch} (h : restOf v = restOf u) : v.contacts = u.contacts := (congrArg Touch.contacts h :)

theorem preStuck_of_restOf {u v : Touch} (h : restOf v = restOf u) : v.preStuck = u.preStuck := (congrArg Touch.preStuck h :)

theorem KeepsPort.enabled {s t : State} (h : KeepsPort p s t) (he : (s.tch p).cfg.enable = true) : (t.tch p).cfg.enable = true := by
  rw [cfg_of_restOf (h he)]
  exact he

theorem KeepsPort.trans {s t u : State} (h : KeepsPort p s t) (k : KeepsPort p t u) : KeepsPort p s u :=
  fun he => (k (h.enabled he)).trans (h he)

/-- A change beside the ports. -/
theorem KeepsPort.of_touch {s t : State} (h : t.touch = s.touch) : KeepsPort p s t := fun _ => by rw [State.tch, h, State.tch]

theorem KeepsPort.refl (s : State) : KeepsPort p s s := .of_touch rfl

theorem KeepsPort.ite {s t u : State} {c : Prop} [Decidable c] (ht : KeepsPort p s t) (hu : KeepsPort p s u) :
    KeepsPort p s (if c then t else u) := by
  split
  · exact ht
  · exact hu

theorem KeepsPort.foldl {α : Type} {f : State → α → State} (h : ∀ s x, KeepsPort p s (f s x)) (xs : List α) (s : State) :
    KeepsPort p s (xs.foldl f s) := by
  induction xs generalizing s with
  | nil => exact .refl s
  | cons x xs ih => exact (h s x).trans (ih _)

theorem KeepsPort.foldl_fst {α β : Type} {f : State × β → α → State × β} (h : ∀ r x, KeepsPort p r.1 (f r x).1) (xs : List α)
    (r : State × β) : KeepsPort p r.1 (xs.foldl f r).1 := by
  induction xs generalizing r with
  | nil => exact .refl r.1
  | cons x xs ih => exact (h r x).trans (ih _)

theorem KeepsPort.each {f : State → Nat → State} (h : ∀ s k, KeepsPort p s (f s k)) (n : Nat) (s : State) : KeepsPort p s (s.each n f) :=
  .foldl h _ s

/-! ### Changes beside the ports -/

theorem EvcOnly.touch {s t : State} (h : EvcOnly s t) : t.touch = s.touch := (congrArg State.touch h.back :)

theorem Stored.touch {s t : State} (h : Stored s t) : t.touch = s.touch := by
  obtain ⟨_, _, rfl⟩ := h
  rfl

theorem keepsPort_setReg (s : State) (a : Nat) (v : Word) : KeepsPort p s (s.setReg a v) := .of_touch rfl

theorem keepsPort_setPair (s : State) (lo hi v : Nat) : KeepsPort p s (s.setPair lo hi v) := .of_touch rfl

theorem keepsPort_inc (s : State) (a : Nat) : KeepsPort p s (s.inc a) := .of_touch rfl

theorem keepsPort_capture (s : State) (g : Nat) (a : Access) (t : AccType) (addr extra : Nat) : KeepsPort p s (capture s g a t addr extra) := by
  unfold capture
  extract_lets counted captured
  have hcounted : KeepsPort p s counted := keepsPort_inc s _
  have hcaptured : KeepsPort p s captured := hcounted.trans (keepsPort_setReg _ _ _)
  refine .ite hcounted (.ite ?_ (.ite ?_ ?_))
  · exact hcaptured.trans (keepsPort_setReg _ _ _)
  · exact hcaptured.trans (keepsPort_setPair _ _ _ _)
  · exact hcaptured.trans (keepsPort_setPair _ _ _ _)

theorem keepsPort_freeFlits (s : State) (q c n : Nat) (tell : Bool) : KeepsPort p s (freeFlits s q c n tell) := by
  have hset : KeepsPort p s (s.setPort q { s.port q with recv := (s.port q).recv.set c ((s.port q).recv.getD c 0 + n) }) := .of_touch rfl
  have hack : ∀ t : State, KeepsPort p t (sendAck t q) := fun t =>
    .trans (t := t.setPort q { t.port q with acked := (t.port q).rxSeq, sentAt := t.island }) (.of_touch rfl) (.of_touch rfl)
  exact .ite (.refl s) (.ite (hset.trans (hack _)) hset)

theorem keepsPort_startCls (s : State) (q c : Nat) : KeepsPort p s (startCls s q c) := by
  have hmark : ∀ way m seq, KeepsPort p s (markSend s q way m seq) := fun way m seq => .ite (.refl s) (.of_touch rfl)
  unfold startCls
  extract_lets port
  refine .ite (.refl s) ?_
  split
  · exact .refl s
  · exact .ite ((hmark _ _ _).trans (.of_touch rfl)) (.refl s)

theorem keepsPort_sendOne (s : State) (q c : Nat) : KeepsPort p s (sendOne s q c) := by
  have hflit : ∀ (t : State) code bs, KeepsPort p t (sendFlit t q code bs) := fun t code bs => .of_touch rfl
  unfold sendOne
  extract_lets port
  split
  · refine .trans (.trans (.of_touch rfl) (hflit (s.setPort q _) _ _)) (.ite (keepsPort_freeFlits _ _ _ _ _) (.refl _))
  · exact .refl s

theorem keepsPort_pump (fuel : Nat) (s : State) (q : Nat) : KeepsPort p s (pump fuel s q) := by
  induction fuel generalizing s with
  | zero => exact .refl s
  | succ fuel ih =>
    unfold pump
    refine .ite (.refl s) ?_
    extract_lets started
    have hstarted : KeepsPort p s started := .foldl (fun s c => keepsPort_startCls s q c) _ s
    split
    · exact hstarted.trans ((keepsPort_sendOne _ q _).trans (ih _))
    · exact hstarted

theorem keepsPort_portSend (s : State) (q : Nat) (way : Way) (m : Msg) : KeepsPort p s (portSend s q way m) := by
  have hfreed := KeepsPort.ite (c := way = .held) (keepsPort_freeFlits (p := p) s (1 - q) m.cls m.flits true) (.refl s)
  have hqueued : KeepsPort p s (s.setPort q { s.port q with queue := (s.port q).queue ++ [(way, m)] }) := .of_touch rfl
  exact .ite (hfreed.trans (.of_touch rfl)) (hqueued.trans (keepsPort_pump _ _ q))

theorem keepsPort_broadcast (s : State) (kind hdr : Nat) (body : Bytes) : KeepsPort p s (broadcast s kind hdr body) := by
  have hnew : KeepsPort p s (newMsg s kind 0 true hdr body).1 := .of_touch rfl
  exact hnew.trans ((keepsPort_portSend _ 0 .own _).trans (keepsPort_portSend _ 1 .own _))

/-! ### The entry into YIELD -/

theorem keepsPort_thermalHalt (s : State) : KeepsPort p s (thermalHalt s) := by
  have hhalted : KeepsPort p s { s with pwr := { s.pwr with halted := true } } := .of_touch rfl
  have hstop : ∀ (t : State) n, KeepsPort p t (pllStop t n) := fun t n => .of_touch rfl
  exact hhalted.trans (.foldl hstop _ _)

theorem keepsPort_settleBits (s : State) (n l : Nat) : KeepsPort p s (settleBits s n l) := by
  have hbits : KeepsPort p s (s.setPair (QD_LANE_BITS_LO n l) (QD_LANE_BITS_HI n l) (laneBits s n l)) := .of_touch rfl
  unfold settleBits
  generalize s.setPair (QD_LANE_BITS_LO n l) (QD_LANE_BITS_HI n l) (laneBits s n l) = u at hbits
  exact hbits.trans (.of_touch rfl)

theorem keepsPort_leaveTest (s : State) : KeepsPort p s (leaveTest s) := by
  unfold leaveTest
  extract_lets cleared
  have hcleared : KeepsPort p s cleared := by
    refine .each (fun s n => ?_) 16 s
    refine .trans (.each (fun s l => keepsPort_settleBits s n l) 4 s) ?_
    refine ((keepsPort_setReg _ _ _).trans (keepsPort_setReg _ _ _)).trans (.each (fun s l => ?_) 4 _)
    exact ((keepsPort_setReg s _ _).trans (keepsPort_setReg _ _ _)).trans ((keepsPort_setReg _ _ _).trans (keepsPort_setReg _ _ _))
  clear_value cleared
  exact .ite (.refl s) (hcleared.trans (.of_touch rfl))

theorem keepsPort_dceCount (s : State) (e st consumed produced : Nat) : KeepsPort p s (dceCount s e st consumed produced) := by
  unfold dceCount
  extract_lets jobs failed full check read
  have hfailed : KeepsPort p s failed := (keepsPort_inc s _).trans (.ite (.refl _) (keepsPort_inc _ _))
  have hcheck : KeepsPort p s check := (hfailed.trans (.ite (keepsPort_inc _ _) (.refl _))).trans (.ite (keepsPort_inc _ _) (.refl _))
  exact (hcheck.trans (keepsPort_setPair _ _ _ _)).trans (keepsPort_setPair _ _ _ _)

theorem keepsPort_dceStop (s : State) (e : Nat) (j : Job) (src : Option Bytes) : KeepsPort p s (dceStop s e j src).1 := by
  have hfill : ∀ (s : State) slot q a n, KeepsPort p s (voidFill s slot q a n) := fun s slot q a n =>
    .of_touch (stored_storeParts (engine slot q) a _ (s.draws n) (pages a n)).touch
  have hdrawn : KeepsPort p s (s.draws 4) := .of_touch rfl
  unfold dceStop
  extract_lets q part open_ drawn voided comp fin
  have hvoided : KeepsPort p s voided := hdrawn.trans (.ite (hfill _ _ _ _ _) (.refl _))
  have hfin : ∀ consumed produced crc check, KeepsPort p s (fin consumed produced crc check).1 := fun _ _ _ _ =>
    hvoided.trans (keepsPort_dceCount _ _ _ _ _)
  split
  · exact hfin _ _ _ _
  · extract_lets had out out'
    split
    · exact hfin _ _ _ _
    · exact hfin _ _ _ _

theorem keepsPort_cutJob (s : State) (j : Job) : KeepsPort p s (cutJob s j) := by
  unfold cutJob
  extract_lets put
  have hput : ∀ x, KeepsPort p x.1 (put x) := fun x => .of_touch rfl
  split
  · exact (keepsPort_dceStop s _ j _).trans (hput _)
  · extract_lets posted
    have hposted : KeepsPort p s posted := .trans (t := s.draw) (.of_touch rfl) (.of_touch rfl)
    exact hposted.trans (hput (_, _))
  · exact .refl s

/-- The ports' self-tests end with the jobs. -/
theorem keepsPort_yieldJobs (cut : Bool) (s : State) : KeepsPort p s (yieldJobs cut s) := by
  have hend : ∀ u : State, KeepsPort p u { u with touch := u.touch.map fun x => (x.1, { x.2 with test := none }) } := fun u _ => by
    have hmap := tget_map (d := fun _ => ({} : Touch)) (k := p) (f := fun x => { x with test := none }) rfl u.touch
    exact (congrArg restOf hmap :)
  unfold yieldJobs
  extract_lets u on aborts stays chain rdn v
  have hu : KeepsPort p s u := .ite (.foldl keepsPort_cutJob _ s) (.refl s)
  clear_value u
  have hv : KeepsPort p s v := (hu.trans (hend u)).trans (.of_touch rfl)
  clear_value v
  exact hv.trans (.of_touch rfl)

/-- The port pins of any port: of the same port the scan is given up, another one stays. -/
theorem keepsPort_pinsOff (s : State) (n : Nat) : KeepsPort p s (pinsOff s n) := by
  have hset : KeepsPort p s (s.setTch n { s.tch n with slots := [], scanning := false, driven := false }) := fun _ => by
    by_cases h : p = n
    · subst h
      rw [State.tch_setTch]
      rfl
    · rw [State.tch_setTch_ne _ _ h]
  exact .ite hset hset

/-- An enabled port is not its table's default. -/
theorem keepsPort_norm (s : State) : KeepsPort p s s.norm := fun he => by
  have hne : s.tch p ≠ {} := fun h => by
    rw [h] at he
    exact absurd he (by decide)
  exact congrArg restOf (tget_tnorm hne)

theorem keepsPort_enterYield (s : State) (ev cls part det : Nat) : KeepsPort p s (enterYield s ev cls part det) := by
  have hdark : ∀ t : State, KeepsPort p t (allDark t) := fun t => .of_touch rfl
  unfold enterYield
  extract_lets noted captured left ctl yielding stopped held cleared
  have hcaptured : KeepsPort p s captured := (keepsPort_setReg s _ _).trans ((keepsPort_setPair _ _ _ _).trans (keepsPort_setPair _ _ _ _))
  have hleft : KeepsPort p s left := hcaptured.trans (.ite (keepsPort_setReg _ _ _) (keepsPort_leaveTest _))
  have hyielding : KeepsPort p s yielding := hleft.trans (.of_touch rfl)
  have hstopped : KeepsPort p s stopped := by
    refine hyielding.trans (.trans ?_ (.each keepsPort_pinsOff 2 _))
    refine .trans (.trans (.trans ?_ (hdark _)) (keepsPort_yieldJobs _ _)) (keepsPort_norm _)
    exact .ite (keepsPort_thermalHalt _) (.refl _)
  exact (hstopped.trans (keepsPort_setReg _ _ _)).trans (keepsPort_broadcast _ _ _ _)

/-! ### Events and writes -/

theorem keepsPort_logGlobal (s : State) (r : LogRec) : KeepsPort p s (logGlobal s r) := by
  unfold logGlobal
  extract_lets n u
  exact .ite (.refl s) (.ite (.of_touch (evcOnly_evcPulse _ 46).touch) (.of_touch rfl))

section Raising

variable {rz : Raiser} (hz : ∀ s ev cls slot part det supp, KeepsPort p s (rz s ev cls slot part det supp))
include hz

theorem keepsPort_limited (s : State) (key ev cls slot part det : Nat) : KeepsPort p s (limited rz s key ev cls slot part det) := by
  have hnoted : ∀ (quiets) (n : Nat), KeepsPort p s (rz { s with quiets := quiets } ev cls slot part det n) := fun quiets n =>
    (KeepsPort.of_touch (t := { s with quiets := quiets }) rfl).trans (hz _ _ _ _ _ _ _)
  unfold limited
  split
  · exact .ite (.of_touch rfl) (hnoted _ _)
  · exact hnoted _ _

theorem keepsPort_noteParts (a : Access) (t : AccType) (s : State) (ps : List (Nat × Nat)) : KeepsPort p s (noteParts rz a t s ps) := by
  refine .foldl (fun s x => ?_) ps s
  dsimp only
  split
  · exact ((keepsPort_capture s _ a t _ _).trans (.of_touch (evcOnly_evcInput _ 47 true).touch)).trans (keepsPort_limited hz _ _ _ _ _ _ _)
  · exact hz s _ _ _ _ _ _
  · exact .refl s

theorem keepsPort_queueWrite (s : State) (a : Access) (addr : Nat) (bs : Bytes) (after : After) :
    KeepsPort p s (queueWrite rz s a addr bs after).1 := by
  unfold queueWrite
  extract_lets h ps wait now res u
  have hstored : KeepsPort p s (storeParts a addr bs s now) := .of_touch (stored_storeParts a addr bs s now).touch
  exact (hstored.trans (keepsPort_noteParts hz a .w _ now)).trans (.of_touch rfl)

theorem keepsPort_partWrite (s : State) (count : Bool) (n slot base : Nat) (ws : List (Nat × Bytes)) (cpl : Bool) :
    KeepsPort p s (partWrite rz s count n slot base ws cpl).1 := by
  unfold partWrite
  extract_lets port put
  have hput : ∀ r w after, KeepsPort p r.1 (put r w after).1 := fun r w after => keepsPort_queueWrite hz r.1 _ _ _ after
  split
  · split
    · refine .foldl (fun s w => ?_) ws s
      exact .of_touch rfl
    · exact .ite (.of_touch rfl) (.refl s)
  · split
    · exact .refl s
    · exact (KeepsPort.foldl_fst (fun r w => hput r w _) _ (s, .ok)).trans (hput _ _ _)

theorem keepsPort_logPart (s : State) (n : Nat) (r : LogRec) : KeepsPort p s (logPart rz s n r) := by
  unfold logPart
  extract_lets q c m base bs x left counted
  have hx : KeepsPort p s x.1 := keepsPort_partWrite hz s _ _ _ _ _ _
  refine .ite (.ite (hx.trans (.of_touch rfl)) (.ite hx (hx.trans (.of_touch rfl)))) (.ite ?_ (.of_touch rfl))
  exact (KeepsPort.of_touch (t := counted.setPart n { counted.part n with logFull := true }) rfl).trans (hz _ _ _ _ _ _ _)

end Raising

theorem keepsPort_raiseN (n : Nat) (s : State) (ev cls slot part det supp : Nat) : KeepsPort p s (raiseN n s ev cls slot part det supp) := by
  induction n generalizing s ev cls slot part det supp with
  | zero => exact .refl s
  | succ n ih =>
    unfold raiseN recordEv
    extract_lets y r logged noted
    have hnoted : KeepsPort p s noted := (keepsPort_logGlobal s r).trans (.ite (keepsPort_logPart ih _ _ _) (.refl _))
    exact .ite (.refl s) (.ite hnoted (.ite (hnoted.trans (.of_touch rfl)) (hnoted.trans (keepsPort_enterYield _ _ _ _ _))))

/-- A touch event, whatever it brings, keeps the rest of a port. -/
theorem keepsPort_tchEvent (s : State) (n ev cls : Nat) (det : List (Nat × Nat)) : KeepsPort p s (tchEvent s n ev cls det) :=
  keepsPort_limited (keepsPort_raiseN 3) s _ _ _ _ _ _

theorem keepsPort_jobWrite (s : State) (slot n : Nat) (host : Bool) (addr : Nat) (bs : Bytes) (after : After) :
    KeepsPort p s (jobWrite s slot n host addr bs after).1 := by
  have hqueued : ∀ a, KeepsPort p s (queueWrite (raiseN 3) s (engine slot n) a bs after).1 := fun a =>
    keepsPort_queueWrite (keepsPort_raiseN 3) s _ a bs after
  unfold jobWrite looseWrite
  split
  · exact .ite (.of_touch rfl) (.refl s)
  · dsimp only
    split
    · exact (hqueued _).trans (.of_touch (evcOnly_evcPulse _ _).touch)
    · exact hqueued _

/-- A port that was changed reads as changed. -/
@[simp] theorem State.tch_modTch (s : State) (p : Nat) (f : Touch → Touch) : (s.modTch p f).tch p = f (s.tch p) := State.tch_setTch s p _

/-- A report, whether it is written or dropped, keeps the rest of its port (R261). -/
theorem keepsPort_sendReport (s : State) (r : Report) : KeepsPort p s (sendReport p s r) := by
  unfold sendReport
  extract_lets part last
  refine .ite (.refl s) ?_
  split
  · exact (keepsPort_inc s _).trans (keepsPort_tchEvent _ p _ _ _)
  · extract_lets n a put ringed written
    have hput : ∀ t a bs after, KeepsPort p t (put t a bs after) := fun t a bs after => keepsPort_jobWrite t _ _ _ _ _ _
    have hringed : KeepsPort p s ringed := fun _ => (congrArg restOf (State.tch_modTch s p _)).trans rfl
    have hwritten : KeepsPort p s written := ((hringed.trans (hput _ _ _ _)).trans (hput _ _ _ _)).trans (hput _ _ _ _)
    exact (hwritten.trans (hput _ _ _ _)).trans (keepsPort_inc _ _)

end Sys2Proof.Machine

/-!
PROOFS of the touch family: what the shared operations of a port do — its pins, its start and stop, its request at the arbiter — and what
they leave of the unit (R244, R250, R251, R437).
-/

namespace Sys2Proof.Machine

/-! ### What is left of the unit -/

/-- Nothing but the ports, the outputs and the arbiter's items differs. -/
def OnlyPorts (s t : State) : Prop := ∃ touch outbox pwr, t = { s with touch := touch, outbox := outbox, pwr := pwr }

theorem OnlyPorts.trans {s t u : State} (h : OnlyPorts s t) (k : OnlyPorts t u) : OnlyPorts s u := by
  obtain ⟨_, _, _, rfl⟩ := h
  obtain ⟨_, _, _, rfl⟩ := k
  exact ⟨_, _, _, rfl⟩

theorem OnlyPorts.jobs {s t : State} (h : OnlyPorts s t) : t.jobs = s.jobs := by
  obtain ⟨_, _, _, rfl⟩ := h
  rfl

theorem OnlyPorts.stores {s t : State} (h : OnlyPorts s t) : t.cpls = s.cpls ∧ t.regs = s.regs ∧ t.mem = s.mem := by
  obtain ⟨_, _, _, rfl⟩ := h
  exact ⟨rfl, rfl, rfl⟩

theorem OnlyPorts.nextJob {s t : State} (h : OnlyPorts s t) : t.nextJob = s.nextJob := by
  obtain ⟨_, _, _, rfl⟩ := h
  rfl

theorem onlyPorts_setTch (s : State) (p : Nat) (v : Touch) : OnlyPorts s (s.setTch p v) := ⟨_, s.outbox, s.pwr, rfl⟩

theorem onlyPorts_modTch (s : State) (p : Nat) (f : Touch → Touch) : OnlyPorts s (s.modTch p f) := onlyPorts_setTch s p _

/-- Of two writes of one port the second stands, where the first was not the default. -/
theorem State.setTch_setTch (s : State) {p : Nat} {u : Touch} (v : Touch) (hu : u ≠ {}) : (s.setTch p u).setTch p v = s.setTch p v :=
  congrArg (fun touch => { s with touch := touch }) (tset_tset _ v hu)

/-- Ending a job changes the jobs and the completions alone (R289, R290). -/
theorem finish_changes (s : State) (id st : Nat) (body : BitVec 128) : ∃ jobs cpls,
    finish s id st body = { s with jobs := jobs, cpls := cpls } := by
  unfold finish
  split
  · exact ⟨s.jobs, s.cpls, rfl⟩
  · split <;> exact ⟨_, _, rfl⟩

@[simp] theorem tch_finish (s : State) (id st : Nat) (body : BitVec 128) (p : Nat) : (finish s id st body).tch p = s.tch p := by
  obtain ⟨_, _, h⟩ := finish_changes s id st body
  rw [h]
  rfl

theorem modJob_changes (s : State) (id : Nat) (f : Job → Job) : (s.modJob id f).cpls = s.cpls ∧ (s.modJob id f).regs = s.regs
    ∧ (s.modJob id f).mem = s.mem ∧ ∀ p, (s.modJob id f).tch p = s.tch p := ⟨rfl, rfl, rfl, fun _ => rfl⟩

/-! ### The pins (R244) -/

/-- A port whose scan or pass is given up. -/
def givenUp (t : Touch) : Touch := { t with slots := [], scanning := false, driven := false }

theorem pinsOff_eq (s : State) (p : Nat) : pinsOff s p =
    if (s.tch p).driven then (s.setTch p (givenUp (s.tch p))).emit (.touchPins p none) else s.setTch p (givenUp (s.tch p)) := rfl

@[simp] theorem tch_pinsOff (s : State) (p : Nat) : (pinsOff s p).tch p = givenUp (s.tch p) := by
  rw [pinsOff_eq]
  split
  · exact State.tch_setTch s p _
  · exact State.tch_setTch s p _

theorem onlyPorts_pinsOff (s : State) (p : Nat) : OnlyPorts s (pinsOff s p) := by
  rw [pinsOff_eq]
  split
  · exact ⟨_, _, s.pwr, rfl⟩
  · exact onlyPorts_setTch s p _

theorem pinsOff_pwr (s : State) (p : Nat) : (pinsOff s p).pwr = s.pwr := by
  rw [pinsOff_eq]
  split <;> rfl

theorem pinsOff_accepted (s : State) (p : Nat) (q : Req) (op : Nat) : pinsOff (accepted s q op) p = accepted (pinsOff s p) q op := by
  have htch : (accepted s q op).tch p = s.tch p := rfl
  rw [pinsOff_eq, pinsOff_eq, htch]
  split <;> rfl

/-! ### The arbiter (R437) -/

theorem onlyPorts_pwrEnd (s : State) (id : Nat) : OnlyPorts s (pwrEnd s id) := by
  unfold pwrEnd
  split <;> exact ⟨s.touch, s.outbox, _, rfl⟩

@[simp] theorem tch_pwrEnd (s : State) (id p : Nat) : (pwrEnd s id).tch p = s.tch p := by
  unfold pwrEnd
  split <;> rfl

theorem onlyPorts_pwrRequest (s : State) (id tokens : Nat) : OnlyPorts s (pwrRequest s id tokens) := by
  unfold pwrRequest
  split
  · exact ⟨s.touch, s.outbox, s.pwr, rfl⟩
  · exact ⟨s.touch, s.outbox, _, rfl⟩

@[simp] theorem tch_pwrRequest (s : State) (id tokens p : Nat) : (pwrRequest s id tokens).tch p = s.tch p := by
  unfold pwrRequest
  split <;> rfl

theorem pwrRequest_accepted (s : State) (id tokens : Nat) (q : Req) (op : Nat) :
    pwrRequest (accepted s q op) id tokens = accepted (pwrRequest s id tokens) q op := by
  have hhas : pwrHas (accepted s q op) id = pwrHas s id := rfl
  unfold pwrRequest
  rw [hhas]
  split <;> rfl

/-! ### Contacts (R249, R251) -/

/-- A port without contacts and candidates. -/
def untouched (t : Touch) : Touch := { t with contacts := [], cands := [] }

/-- Without open contacts no CANCEL is reported. -/
theorem cancelAll_idle {s : State} {p : Nat} (h : (s.tch p).contacts = []) : cancelAll s p = s.modTch p untouched := by
  unfold cancelAll
  rw [h]
  rfl

/-- The reports of the CANCELs keep the rest of the port. -/
theorem keepsPort_cancels (s : State) (p : Nat) (cs : List Contact) :
    KeepsPort p s (cs.foldl (fun s c => sendReport p s (contactReport s p 3 c)) s) := .foldl (fun s _ => keepsPort_sendReport s _) cs s

theorem tch_cancelAll (s : State) (p : Nat) : ((cancelAll s p).tch p).contacts = []
    ∧ ((s.tch p).cfg.enable = true → ((cancelAll s p).tch p).cfg = (s.tch p).cfg) := by
  unfold cancelAll
  extract_lets cs t
  rw [State.tch_modTch]
  exact ⟨rfl, fun he => (cfg_of_restOf (keepsPort_cancels s p cs he) :)⟩

/-! ### Start and stop (R250, R251) -/

/-- A port that stops taking slots. -/
def stopped (t : Touch) : Touch := { givenUp t with lslots := [], edge := false, slotSeen := false }

@[simp] theorem tch_tchStop (s : State) (p : Nat) : (tchStop s p).tch p = stopped (s.tch p) := by
  unfold tchStop
  rw [tch_pwrEnd, State.tch_modTch, tch_pinsOff]
  rfl

theorem onlyPorts_tchStop (s : State) (p : Nat) : OnlyPorts s (tchStop s p) :=
  ((onlyPorts_pinsOff s p).trans (onlyPorts_modTch _ p _)).trans (onlyPorts_pwrEnd _ _)

theorem onlyPorts_tchStart {s : State} {p : Nat} (h : (s.tch p).contacts = []) : OnlyPorts s (tchStart s p) := by
  unfold tchStart tchBegin
  rw [cancelAll_idle h]
  exact (((onlyPorts_modTch s p _).trans (onlyPorts_modTch _ p _)).trans (onlyPorts_pinsOff _ p)).trans (onlyPorts_modTch _ p _)

/-- A start without open contacts is the same for the job that a command becomes. -/
theorem tchStart_accepted {s : State} {p : Nat} (q : Req) (op : Nat) (h : (s.tch p).contacts = []) :
    tchStart (accepted s q op) p = accepted (tchStart s p) q op := by
  have hbegun : tchBegin (accepted s q op) p = accepted (tchBegin s p) q op := by
    have h' : ((accepted s q op).tch p).contacts = [] := h
    unfold tchBegin
    rw [cancelAll_idle h, cancelAll_idle h']
    rfl
  unfold tchStart
  rw [hbegun, pinsOff_accepted]
  generalize pinsOff (tchBegin s p) p = t
  rfl

/-- A port with a configuration taken; what was measured stays where its shape does (R265). -/
def configured (t : Touch) (c : TchCfg) : Touch :=
  let same : Bool := t.cfg.drives == c.drives && t.cfg.senses == c.senses
  { t with
    cfg := c, cfgd := true, pumpBad := false, ref := if same then t.ref else none, band := if same then t.band else none
    raw := if same then t.raw else [], listen := if same then t.listen else [], noiseRun := 0, wet := [], scanNo := 0, preStuck := [] }

theorem tchSet_eq (s : State) (p : Nat) (c : TchCfg) : tchSet s p c =
    if tchMode s then pwrRequest (tchStart (s.setTch p (configured (s.tch p) c)) p) (pwrTch p) 6
    else s.setTch p (configured (s.tch p) c) := rfl

theorem configured_idle {s : State} {p : Nat} (c : TchCfg) (h : (s.tch p).contacts = []) :
    ((s.setTch p (configured (s.tch p) c)).tch p).contacts = [] := by
  rw [State.tch_setTch]
  exact h

theorem onlyPorts_tchSet {s : State} {p : Nat} (c : TchCfg) (h : (s.tch p).contacts = []) : OnlyPorts s (tchSet s p c) := by
  have hset : OnlyPorts s (s.setTch p (configured (s.tch p) c)) := onlyPorts_setTch s p _
  rw [tchSet_eq]
  split
  · exact (hset.trans (onlyPorts_tchStart (configured_idle c h))).trans (onlyPorts_pwrRequest _ _ _)
  · exact hset

/-- A configuration is taken alike by the job that a command becomes. -/
theorem tchSet_accepted {s : State} {p : Nat} (q : Req) (op : Nat) (c : TchCfg) (h : (s.tch p).contacts = []) :
    tchSet (accepted s q op) p c = accepted (tchSet s p c) q op := by
  have hmode : tchMode (accepted s q op) = tchMode s := rfl
  have hset : (accepted s q op).setTch p (configured ((accepted s q op).tch p) c) =
    accepted (s.setTch p (configured (s.tch p) c)) q op := rfl
  rw [tchSet_eq, tchSet_eq, hmode, hset, tchStart_accepted q op (configured_idle c h), pwrRequest_accepted]
  split <;> rfl

end Sys2Proof.Machine

/-!
PROOFS of the touch family: the touch commands (R243, R248, R254, R259, R263, R265).
-/

namespace Sys2Proof.Machine

/-! ### The checks that every port command shares (Table 9.10) -/

/-- A command's port is present and its partition's own. -/
def OwnedPort (s : State) (q : Req) : Prop := q.u8 16 < s.nTch ∧ q.u8 16 ≤ 1 ∧ ownsTouch s q.part.val (q.u8 16) = true

theorem firstFail_portChecks {s : State} {q : Req} {bad : Bool} (h : OwnedPort s q) (hbad : bad = false) (rest : List (Bool × Nat)) :
    firstFail (portChecks q s bad ++ rest) = firstFail rest := by
  obtain ⟨hpresent, hport, hown⟩ := h
  have hfew : ¬ (q.u8 16 = 1 ∧ s.nTch ≤ 1) := by omega
  simp [portChecks, firstFail, hfew, Nat.not_lt.mpr hport, hown, hbad]

theorem portChecks_pass {s : State} {q : Req} {bad : Bool} (h : OwnedPort s q) (hbad : bad = false) : firstFail (portChecks q s bad) = none := by
  rw [← List.append_nil (portChecks q s bad), firstFail_portChecks h hbad]
  rfl

/-- The job just accepted completes in the state that the command would have left without it. -/
theorem finish_accepted_same {s t : State} {q : Req} {op : Nat} (st : Nat) (body : BitVec 128) (hn : t.nextJob = s.nextJob) :
    finish (accepted t q op) s.nextJob st body = done t q op st body := by
  rw [← hn]
  exact finish_accepted t q op st body

/-- A command that completes at acceptance ends its job in the state that it leaves. -/
theorem soileNow_runs {s t : State} {q : Req} {op mask st : Nat} {body : BitVec 128} {run : State → State × Nat × BitVec 128}
    (h : Admitted s q mask) (hrun : run (accepted s q op) = (t, st, body)) :
    soileNow s q op mask true run = finish t s.nextJob st body := by
  rw [soileNow_admitted h, hrun]

/-! ### TCH_CFG (R248, R265) -/

/-- The checks of a TCH_CFG (Table 9.10). -/
def cfgChecks (q : Req) (s : State) : List (Bool × Nat) :=
  let c := tchCfgOf q
  portChecks q s (c.enable && tchCfgBad c) ++ [
    (c.enable && c.acq == 0 && (decide (s.nHeads ≤ c.syncHead) || decide ((s.head c.syncHead).vAct < 512)), stBadSync),
    (c.enable && (s.tch (q.u8 16)).cfg.enable, stPortRunning)]

/-- The body of the completion of a start: the scans per frame and the scan rate (R247). -/
def cfgBody (s : State) (c : TchCfg) : BitVec 128 :=
  cplBody [(16, 1, if c.acq = 0 then (s.head c.syncHead).vAct / 512 else 0), (20, 4, scanRate s c)]

/-- A configuration within Table 9.9 starts a port that does not run, in SYNC_HEAD on a head with a scan's lines. -/
structure CfgFits (s : State) (q : Req) : Prop where
  on   : (tchCfgOf q).enable = true
  fits : tchCfgBad (tchCfgOf q) = false
  sync : (tchCfgOf q).acq = 0 → (tchCfgOf q).syncHead < s.nHeads ∧ 512 ≤ (s.head (tchCfgOf q).syncHead).vAct
  idle : (s.tch (q.u8 16)).cfg.enable = false

theorem cfgChecks_starts {q : Req} {s : State} (hport : OwnedPort s q) (hfits : CfgFits s q) : firstFail (cfgChecks q s) = none := by
  obtain ⟨hon, hrange, hsync, hidle⟩ := hfits
  have hhead : ((tchCfgOf q).acq == 0 && (decide (s.nHeads ≤ (tchCfgOf q).syncHead) || decide ((s.head (tchCfgOf q).syncHead).vAct < 512)))
      = false := by
    by_cases hacq : (tchCfgOf q).acq = 0
    · obtain ⟨hslot, hlines⟩ := hsync hacq
      simp [hacq, hslot, hlines]
    · simp [hacq]
  unfold cfgChecks
  rw [firstFail_portChecks hport (by rw [hrange, Bool.and_false]), hon, Bool.true_and, hhead, hidle]
  rfl

theorem cfgChecks_stops {q : Req} {s : State} (hport : OwnedPort s q) (hoff : (tchCfgOf q).enable = false) :
    firstFail (cfgChecks q s) = none := by
  unfold cfgChecks
  rw [firstFail_portChecks hport (by rw [hoff, Bool.false_and]), hoff]
  rfl

section Cfg

variable {q : Req} {s : State} (h : Admitted s q maskTchCfg) (hport : OwnedPort s q)
include h hport

theorem doTchCfg_starts (hfits : CfgFits s q) : doTchCfg q s =
    finish (tchSet (accepted s q 0x0C01).draw (q.u8 16) (tchCfgOf q)) s.nextJob stComplete (cfgBody s (tchCfgOf q)) := by
  have hpass : firstFail (cfgChecks q (accepted s q 0x0C01)) = none :=
    cfgChecks_starts (s := accepted s q 0x0C01) hport ⟨hfits.on, hfits.fits, hfits.sync, hfits.idle⟩
  unfold cfgChecks at hpass
  refine soileNow_runs h ?_
  dsimp only at hpass ⊢
  rw [hpass]
  exact if_pos hfits.on

/-- A start without open contacts completes in the state that the start alone would leave. -/
theorem doTchCfg_starts_idle (hfits : CfgFits s q) (hcontacts : (s.tch (q.u8 16)).contacts = []) : doTchCfg q s =
    done (tchSet s.draw (q.u8 16) (tchCfgOf q)) q 0x0C01 stComplete (cfgBody s (tchCfgOf q)) := by
  have hset : tchSet (accepted s q 0x0C01).draw (q.u8 16) (tchCfgOf q) = accepted (tchSet s.draw (q.u8 16) (tchCfgOf q)) q 0x0C01 :=
    tchSet_accepted (s := s.draw) q 0x0C01 _ hcontacts
  rw [doTchCfg_starts h hport hfits, hset]
  exact finish_accepted_same _ _ (onlyPorts_tchSet (s := s.draw) (tchCfgOf q) hcontacts).nextJob

theorem doTchCfg_stops (hoff : (tchCfgOf q).enable = false) : doTchCfg q s =
    finish ((tchStop (cancelAll (testCut (accepted s q 0x0C01) (q.u8 16)) (q.u8 16)) (q.u8 16)).modTch (q.u8 16) fun t =>
      { t with cfg := { t.cfg with enable := false } }) s.nextJob stComplete := by
  have hpass : firstFail (cfgChecks q (accepted s q 0x0C01)) = none := cfgChecks_stops (s := accepted s q 0x0C01) hport hoff
  unfold cfgChecks at hpass
  refine soileNow_runs h ?_
  dsimp only at hpass ⊢
  rw [hpass]
  exact if_neg (by rw [hoff]; decide)

end Cfg

/-! ### A stop (R248, R265) -/

/-- A port that stops, its contacts and its test with it, and is disabled. -/
def portStopped (s : State) (p : Nat) : State :=
  (tchStop (s.modTch p untouched) p).modTch p fun t => { t with cfg := { t.cfg with enable := false } }

theorem onlyPorts_portStopped (s : State) (p : Nat) : OnlyPorts s (portStopped s p) :=
  ((onlyPorts_modTch s p _).trans (onlyPorts_tchStop _ p)).trans (onlyPorts_modTch _ p _)

theorem tch_portStopped (s : State) (p : Nat) : ((portStopped s p).tch p).cfg.enable = false ∧ ((portStopped s p).tch p).driven = false
    ∧ ((portStopped s p).tch p).test = (s.tch p).test := by
  unfold portStopped
  rw [State.tch_modTch, tch_tchStop, State.tch_modTch]
  exact ⟨rfl, rfl, rfl⟩

/-- A port that leaves its self-test and stops. -/
def testStopped (s : State) (p : Nat) : State := tchStop (testLeave s p) p

theorem testCut_none {s : State} {p : Nat} (h : (s.tch p).test = none) : testCut s p = s := by
  unfold testCut
  rw [h]

theorem testCut_some {s : State} {p : Nat} {x : Nat × List (List Int) × List Nat} (h : (s.tch p).test = some x) :
    testCut s p = finish (testStopped s p) x.1 stAborted := by
  unfold testCut
  rw [h]
  rfl

theorem onlyPorts_testStopped (s : State) (p : Nat) : OnlyPorts s (testStopped s p) :=
  ((onlyPorts_pinsOff s p).trans (onlyPorts_modTch _ p _)).trans (onlyPorts_tchStop _ p)

theorem tch_testStopped (s : State) (p : Nat) : ((testStopped s p).tch p).test = none
    ∧ ((testStopped s p).tch p).contacts = (s.tch p).contacts := by
  unfold testStopped testLeave
  rw [tch_tchStop, State.tch_modTch, tch_pinsOff]
  exact ⟨rfl, rfl⟩

/-- A self-test that is cut off leaves its port without one, and its contacts. -/
theorem tch_testCut (s : State) (p : Nat) : ((testCut s p).tch p).test = none ∧ ((testCut s p).tch p).contacts = (s.tch p).contacts := by
  cases h : (s.tch p).test with
  | none => rw [testCut_none h]; exact ⟨h, rfl⟩
  | some x => rw [testCut_some h, tch_finish]; exact tch_testStopped s p

/-- It stores nothing else. -/
theorem testCut_stores (s : State) (p : Nat) : (testCut s p).regs = s.regs ∧ (testCut s p).mem = s.mem := by
  cases h : (s.tch p).test with
  | none => rw [testCut_none h]; exact ⟨rfl, rfl⟩
  | some x =>
    obtain ⟨-, hmem, hregs⟩ := finish_sameSessions (testStopped s p) x.1 stAborted 0
    obtain ⟨-, hregs', hmem'⟩ := (onlyPorts_testStopped s p).stores
    rw [testCut_some h]
    exact ⟨hregs.trans hregs', hmem.trans hmem'⟩

theorem cancelAll_testCut {s : State} {p : Nat} (h : (s.tch p).contacts = []) :
    cancelAll (testCut s p) p = (testCut s p).modTch p untouched := cancelAll_idle ((tch_testCut s p).2.trans h)

section Stop

variable (s : State) (q : Req)

/-- What a stop of an idle port leaves before its own completion. -/
def stopLeaves : State := portStopped (testCut (accepted s q 0x0C01) (q.u8 16)) (q.u8 16)

theorem doTchCfg_stops_idle {q : Req} {s : State} (h : Admitted s q maskTchCfg) (hport : OwnedPort s q) (hoff : (tchCfgOf q).enable = false)
    (hcontacts : (s.tch (q.u8 16)).contacts = []) : doTchCfg q s = finish (stopLeaves s q) s.nextJob stComplete := by
  rw [doTchCfg_stops h hport hoff, cancelAll_testCut (s := accepted s q 0x0C01) hcontacts]
  rfl

/-- A stop of a port without contacts leaves it disabled, its pins high-impedance and without a self-test, and memory and registers alone. -/
theorem stop_shows (st : Nat) : let t := finish (stopLeaves s q) s.nextJob st
    (t.tch (q.u8 16)).cfg.enable = false ∧ (t.tch (q.u8 16)).driven = false ∧ (t.tch (q.u8 16)).test = none ∧ t.mem = s.mem
      ∧ t.regs = s.regs := by
  obtain ⟨hoff, hpins, htest⟩ := tch_portStopped (testCut (accepted s q 0x0C01) (q.u8 16)) (q.u8 16)
  obtain ⟨hcut, -⟩ := tch_testCut (accepted s q 0x0C01) (q.u8 16)
  obtain ⟨hregs, hmem⟩ := testCut_stores (accepted s q 0x0C01) (q.u8 16)
  obtain ⟨-, hregs', hmem'⟩ := (onlyPorts_portStopped (testCut (accepted s q 0x0C01) (q.u8 16)) (q.u8 16)).stores
  obtain ⟨-, hmem'', hregs''⟩ := finish_sameSessions (stopLeaves s q) s.nextJob st 0
  intro t
  have htch : t.tch (q.u8 16) = (stopLeaves s q).tch (q.u8 16) := tch_finish _ _ _ _ _
  rw [htch]
  exact ⟨hoff, hpins, htest.trans hcut, hmem''.trans (hmem'.trans hmem), hregs''.trans (hregs'.trans hregs)⟩

variable {s} {q}

/-- Without a self-test the stop's completion is the only one. -/
theorem stop_cpls_idle (st : Nat) (h : (s.tch (q.u8 16)).test = none) :
    (finish (stopLeaves s q) s.nextJob st).cpls = (done s q 0x0C01 st).cpls := by
  have h' : ((accepted s q 0x0C01).tch (q.u8 16)).test = none := h
  unfold stopLeaves
  rw [testCut_none h']
  have honly := onlyPorts_portStopped (accepted s q 0x0C01) (q.u8 16)
  rw [finish_on (s := s) st 0 honly.jobs]
  exact congrArg (· ++ _) honly.stores.1

/-- The completion of a self-test that is cut off comes before it. -/
theorem stop_cpls_cut (st : Nat) {x : Nat × List (List Int) × List Nat} {j : Job} (h : (s.tch (q.u8 16)).test = some x)
    (hj : s.job x.1 = some j) (hid : x.1 ≠ s.nextJob) (hplain : j.abortBy = []) (hruns : j.yielded = false) :
    (finish (stopLeaves s q) s.nextJob st).cpls
      = (done { s with cpls := s.cpls ++ [cplOf j (BitVec.ofNat 16 stAborted) 0] } q 0x0C01 st).cpls := by
  have h' : ((accepted s q 0x0C01).tch (q.u8 16)).test = some x := h
  have hcut := onlyPorts_testStopped (accepted s q 0x0C01) (q.u8 16)
  have hjob : (testStopped (accepted s q 0x0C01) (q.u8 16)).job x.1 = some j := by
    have hsame : ((accepted s q 0x0C01).jobs.filter fun k => k.id == x.1) = s.jobs.filter fun k => k.id == x.1 := by
      simp [accepted, jobOf, List.filter_append, hid.symm]
    rw [State.job, hcut.jobs, hsame]
    exact hj
  unfold stopLeaves
  rw [testCut_some h', finish_plain stAborted 0 hjob hruns hplain, hcut.jobs, hcut.stores.1]
  generalize hu : ({ testStopped (accepted s q 0x0C01) (q.u8 16) with
    jobs := (accepted s q 0x0C01).jobs.filter (fun k => k.id != x.1)
    cpls := (accepted s q 0x0C01).cpls ++ [cplOf j (BitVec.ofNat 16 stAborted) 0] } : State) = u
  have honly := onlyPorts_portStopped u (q.u8 16)
  have hjobs : u.jobs = s.jobs.filter (fun k => k.id != x.1) ++ [jobOf s q 0x0C01] := by
    rw [← hu]
    simp [accepted, jobOf, List.filter_append, hid.symm]
  have hcpls : u.cpls = s.cpls ++ [cplOf j (BitVec.ofNat 16 stAborted) 0] := by rw [← hu]; rfl
  rw [finish_on (s := { s with jobs := s.jobs.filter (fun k => k.id != x.1) }) st 0 (honly.jobs.trans hjobs)]
  exact congrArg (· ++ _) (honly.stores.1.trans hcpls)

end Stop

/-! ### TCH_MAP, TCH_BASELINE and TCH_REBASE (R251, R254, R259) -/

theorem doTchMap_notes {q : Req} {s : State} (h : Admitted s q (bodyMask [(16, 0, 16), (20, 0, 192)])) (hport : OwnedPort s q)
    (hhead : q.u8 17 < s.nHeads) : doTchMap q s = done (s.modTch (q.u8 16) fun t =>
      { t with mapNext := some (q.u8 17, [20, 24, 28, 32, 36, 40].map fun i => q.sN i 4) }) q 0x0C02 stComplete := by
  have hslots : s.nHeads ≤ 16 := by
    unfold State.nHeads
    split <;> decide
  have hpass : firstFail ((decide ((accepted s q 0x0C02).nHeads ≤ q.u8 17) && decide (q.u8 17 ≤ 15), stNoResource)
      :: portChecks q (accepted s q 0x0C02) (decide (15 < q.u8 17))) = none := by
    have hpresent : decide ((accepted s q 0x0C02).nHeads ≤ q.u8 17) = false := decide_eq_false (Nat.not_le.mpr hhead)
    rw [hpresent, Bool.false_and]
    exact portChecks_pass (s := accepted s q 0x0C02) hport (decide_eq_false (by omega))
  refine soileNow_completes h ?_ rfl
  rw [hpass]
  rfl

theorem doTchRebase_notes {q : Req} {s : State} (h : Admitted s q (bodyMask [(16, 0, 8)])) (hmode : modeIn s [.prime, .run, .test] = true)
    (hport : OwnedPort s q) (hcfgd : (s.tch (q.u8 16)).cfgd = true) :
    doTchRebase q s = done (s.modTch (q.u8 16) fun t => { t with rebase := true }) q 0x0C04 stComplete := by
  have hpass : firstFail (portChecks q (accepted s q 0x0C04) false ++ [(!((accepted s q 0x0C04).tch (q.u8 16)).cfgd, stNotConfigured)])
      = none := by
    have hcfgd' : ((accepted s q 0x0C04).tch (q.u8 16)).cfgd = true := hcfgd
    rw [firstFail_portChecks (s := accepted s q 0x0C04) hport rfl, hcfgd']
    rfl
  unfold doTchRebase
  rw [hmode]
  refine soileNow_completes h ?_ rfl
  rw [hpass]
  rfl

/-- The bytes of a TCH_BASELINE's values, by the kind of them (Table 9.9). -/
def baselineLen (q : Req) (s : State) : Nat := (s.tch (q.u8 16)).cfg.nodes * (match q.u8 17 with | 0 => 1 | 1 => 2 | _ => 0)

/-- The bytes that a TCH_BASELINE brings, and the state that its read leaves. -/
def baselineRead (q : Req) (s : State) : State × Nat × Bytes :=
  if baselineLen q s = 0 then (s, stComplete, [])
  else if q.bit 18 0 then hostRead s q.part.val (q.u64 24) (2 * baselineLen q s) q.host
  else ((engRead s (32 + q.u8 16) q.part.val (q.u40 24) (2 * baselineLen q s)).1,
    (engRead s (32 + q.u8 16) q.part.val (q.u40 24) (2 * baselineLen q s)).2.1.status,
    (engRead s (32 + q.u8 16) q.part.val (q.u40 24) (2 * baselineLen q s)).2.2)

/-- A read of baselines that succeeds writes registers alone, and is the same for the job that a command becomes. -/
theorem baselineRead_accepted {q : Req} {s : State} (op : Nat) (hok : (baselineRead q s).2.1 = stComplete) :
    baselineRead q (accepted s q op) = (accepted (baselineRead q s).1 q op, (baselineRead q s).2)
      ∧ (baselineRead q s).1.nextJob = s.nextJob := by
  have hlen : baselineLen q (accepted s q op) = baselineLen q s := rfl
  unfold baselineRead at hok ⊢
  rw [hlen]
  split
  · exact ⟨rfl, rfl⟩
  · rename_i hsome
    rw [if_neg hsome] at hok
    split
    · rename_i hhost
      rw [if_pos hhost] at hok
      obtain ⟨hread, _, hregs⟩ := hostRead_accepted q op hok
      exact ⟨hread, by rw [hregs]⟩
    · rename_i hinner
      rw [if_neg hinner] at hok
      have hpass := AccRes.status_eq_complete.mp hok
      have hresult := engRead_result_accepted s q op (32 + q.u8 16) q.part.val (q.u40 24) (2 * baselineLen q s)
      rw [engRead_state_of_ok hpass, engRead_state_of_ok ((congrArg (·.1) hresult).trans hpass), hresult]
      exact ⟨rfl, rfl⟩

/-- A port with a TCH_BASELINE's values noted. -/
def baselineNoted (kind n : Nat) (bs : Bytes) (t : Touch) : Touch := { t with
  baseNext := t.baseNext ++ [(kind, (List.range n).map fun i => signed 16 (leNat (sliceB bs (2 * i) 2)))] }

/-- What a TCH_BASELINE comes to once its read has answered. -/
def baselineTaken (q : Req) (n : Nat) (r : State × Nat × Bytes) : State × Nat × BitVec 128 :=
  if r.2.1 != stComplete then (r.1, r.2.1, 0) else (r.1.modTch (q.u8 16) (baselineNoted (q.u8 17) n r.2.2), stComplete, 0)

theorem doTchBaseline_notes {q : Req} {s : State} {bs : Bytes} (h : Admitted s q (bodyMask [(16, 0, 16), (18, 0, 1), (24, 0, 64)]))
    (hmode : modeIn s [.prime, .test] = true) (hport : OwnedPort s q) (hkind : q.u8 17 ≤ 2)
    (hread : (baselineRead q s).2 = (stComplete, bs)) : doTchBaseline q s =
      done ((baselineRead q s).1.modTch (q.u8 16) (baselineNoted (q.u8 17) (baselineLen q s) bs)) q 0x0C03 stComplete := by
  have hpass : firstFail (portChecks q (accepted s q 0x0C03) (decide (2 < q.u8 17))) = none :=
    portChecks_pass (s := accepted s q 0x0C03) hport (decide_eq_false (by omega))
  obtain ⟨haccepted, hjob⟩ := baselineRead_accepted 0x0C03 (congrArg (·.1) hread)
  rw [hread] at haccepted
  generalize (baselineRead q s).1 = t at haccepted hjob ⊢
  unfold doTchBaseline
  rw [hmode]
  refine soileRead_completes (t := t.modTch (q.u8 16) (baselineNoted (q.u8 17) (baselineLen q s) bs)) h ?_ hjob (by decide)
  dsimp only
  rw [hpass]
  change baselineTaken q (baselineLen q s) (baselineRead q (accepted s q 0x0C03)) = _
  rw [haccepted]
  rfl

/-! ### TCH_RAW, TCH_SELFTEST and TCH_RING (R243, R263, R265) -/

/-- The bytes that a TCH_RAW writes. -/
def rawBytes (s : State) (q : Req) : Bytes := (rawData (s.tch (q.u8 16)) (q.u8 17)).flatMap fun v => leBytes 2 (unsigned 16 v)

section Raw

variable {q : Req} {s : State} (h : Admitted s q (bodyMask [(16, 0, 16), (18, 0, 1), (24, 0, 64)])) (hport : OwnedPort s q)
  (hkind : q.u8 17 ≤ 3) (halign : q.u64 24 % 8 = 0) (hcfgd : (s.tch (q.u8 16)).cfgd = true)
include h hport hkind halign hcfgd

theorem doTchRaw_writes : doTchRaw q s =
    finish (jobWrite (accepted s q 0x0C05) (32 + q.u8 16) q.part.val (q.bit 18 0) (q.u64 24) (rawBytes s q)).1 s.nextJob
      (jobWrite (accepted s q 0x0C05) (32 + q.u8 16) q.part.val (q.bit 18 0) (q.u64 24) (rawBytes s q)).2
      (cplBody [(16, 4, (s.reg (TCH_SCANS (q.u8 16))).toNat)]) := by
  have hpass : firstFail (portChecks q (accepted s q 0x0C05) (decide (3 < q.u8 17) || q.u64 24 % 8 != 0)
      ++ [(!((accepted s q 0x0C05).tch (q.u8 16)).cfgd, stNotConfigured)]) = none := by
    have hrange : (decide (3 < q.u8 17) || q.u64 24 % 8 != 0) = false := by simp [hkind, halign]
    have hcfgd' : ((accepted s q 0x0C05).tch (q.u8 16)).cfgd = true := hcfgd
    rw [firstFail_portChecks (s := accepted s q 0x0C05) hport hrange, hcfgd']
    rfl
  refine soileNow_runs h ?_
  dsimp only
  rw [hpass]
  rfl

/-- On PCIe with its link up the data are posted (R265). -/
theorem doTchRaw_posts (hhost : q.bit 18 0 = true) (hpcie : onPcie s q.part.val = true) (hup : linkUp s (s.part q.part.val).port = true) :
    doTchRaw q s = done (s.emit (.hostWrite (s.part q.part.val).port (BitVec.ofNat 64 (q.u64 24)) (rawBytes s q))) q 0x0C05 stComplete
      (cplBody [(16, 4, (s.reg (TCH_SCANS (q.u8 16))).toNat)]) := by
  have hwrite : jobWrite s (32 + q.u8 16) q.part.val (q.bit 18 0) (q.u64 24) (rawBytes s q)
      = (s.emit (.hostWrite (s.part q.part.val).port (BitVec.ofNat 64 (q.u64 24)) (rawBytes s q)), stComplete) := by
    unfold jobWrite
    rw [hhost, hpcie, Bool.and_self, if_pos rfl, if_pos hup]
  have haccepted := jobWrite_accepted q 0x0C05 (congrArg (·.2) hwrite)
  rw [hwrite] at haccepted
  rw [doTchRaw_writes h hport hkind halign hcfgd, haccepted]
  exact finish_accepted_same _ _ rfl

end Raw

/-- A port that a self-test takes: its job runs, its contacts and its scan are given up. -/
def testTaken (s : State) (q : Req) : State :=
  (pinsOff (cancelAll (accepted s q 0x0C06) (q.u8 16)) (q.u8 16)).modJob s.nextJob fun j => { j with running := true }

theorem testTaken_shows (s : State) (q : Req) : (testTaken s q).tch (q.u8 16) = givenUp ((cancelAll (accepted s q 0x0C06) (q.u8 16)).tch (q.u8 16))
    ∧ ((s.tch (q.u8 16)).contacts = [] → (testTaken s q).cpls = s.cpls ∧ (testTaken s q).regs = s.regs ∧ (testTaken s q).mem = s.mem) := by
  unfold testTaken
  obtain ⟨hcpls, hregs, hmem, htch⟩ := modJob_changes (pinsOff (cancelAll (accepted s q 0x0C06) (q.u8 16)) (q.u8 16)) s.nextJob
    fun j => { j with running := true }
  rw [hcpls, hregs, hmem, htch, tch_pinsOff]
  refine ⟨rfl, fun hcontacts => ?_⟩
  rw [cancelAll_idle (s := accepted s q 0x0C06) hcontacts]
  exact ((onlyPorts_modTch (accepted s q 0x0C06) (q.u8 16) untouched).trans (onlyPorts_pinsOff _ (q.u8 16))).stores

theorem doTchSelftest_takes {q : Req} {s : State} (h : Admitted s q (bodyMask [(16, 0, 8), (18, 0, 1), (24, 0, 64)]))
    (hmode : modeIn s [.test] = true) (hport : OwnedPort s q) (hcfgd : (s.tch (q.u8 16)).cfgd = true) (hfree : (s.tch (q.u8 16)).test = none) :
    doTchSelftest q s = pwrRequest ((testTaken s q).modTch (q.u8 16) fun t =>
      { t with test := some (s.nextJob, [], []), lslots := []
               line := startLine (pinsOff (cancelAll (accepted s q 0x0C06) (q.u8 16)) (q.u8 16)) t }) (pwrTch (q.u8 16)) 6 := by
  have hpass : firstFail (portChecks q (accepted s q 0x0C06) false ++ [(((accepted s q 0x0C06).tch (q.u8 16)).test.isSome, stPortRunning),
      (!((accepted s q 0x0C06).tch (q.u8 16)).cfgd, stNotConfigured)]) = none := by
    have hcfgd' : ((accepted s q 0x0C06).tch (q.u8 16)).cfgd = true := hcfgd
    have hfree' : ((accepted s q 0x0C06).tch (q.u8 16)).test = none := hfree
    rw [firstFail_portChecks (s := accepted s q 0x0C06) hport rfl, hcfgd', hfree']
    rfl
  unfold doTchSelftest
  rw [hmode, soile_admitted h]
  exact guardJob_pass hpass

theorem doTchSelftest_shows {q : Req} {s : State} (h : Admitted s q (bodyMask [(16, 0, 8), (18, 0, 1), (24, 0, 64)]))
    (hmode : modeIn s [.test] = true) (hport : OwnedPort s q) (hcfgd : (s.tch (q.u8 16)).cfgd = true) (hfree : (s.tch (q.u8 16)).test = none) :
    let t := doTchSelftest q s
    (t.tch (q.u8 16)).test = some (s.nextJob, [], []) ∧ (t.tch (q.u8 16)).slots = [] ∧ (t.tch (q.u8 16)).contacts = []
      ∧ (t.tch (q.u8 16)).driven = false
      ∧ ((s.tch (q.u8 16)).contacts = [] → t.cpls = s.cpls ∧ t.regs = s.regs ∧ t.mem = s.mem) := by
  obtain ⟨htch, hstores⟩ := testTaken_shows s q
  have hnone := (tch_cancelAll (accepted s q 0x0C06) (q.u8 16)).1
  rw [doTchSelftest_takes h hmode hport hcfgd hfree]
  generalize testTaken s q = u at htch hstores
  generalize (cancelAll (accepted s q 0x0C06) (q.u8 16)).tch (q.u8 16) = v at htch hnone
  dsimp only
  rw [tch_pwrRequest, State.tch_modTch, htch]
  refine ⟨rfl, rfl, hnone, rfl, fun hcontacts => ?_⟩
  obtain ⟨hcpls, hregs, hmem⟩ := hstores hcontacts
  rw [← hcpls, ← hregs, ← hmem]
  exact ((onlyPorts_modTch u (q.u8 16) _).trans (onlyPorts_pwrRequest _ (pwrTch (q.u8 16)) 6)).stores

/-- A port whose rings of a partition were set anew, or taken away. -/
def ringSet (q : Req) (t : Touch) : Touch :=
  let rs := t.rings.filter fun r => r.1 != q.part.val
  { t with rings := if q.bit 17 0 then rs ++ [(q.part.val, q.bit 17 1, q.u8 18, BitVec.ofNat 64 (q.u64 24), 0)] else rs }

theorem doTchRing_sets {q : Req} {s : State} (h : Admitted s q (bodyMask [(16, 0, 8), (17, 0, 2), (18, 0, 8), (24, 0, 64)]))
    (hpresent : q.u8 16 < s.nTch) (hport : q.u8 16 ≤ 1)
    (hfits : q.bit 17 0 = true → 4 ≤ q.u8 18 ∧ q.u8 18 ≤ 10 ∧ q.u64 24 % 4096 = 0) :
    doTchRing q s = done (s.modTch (q.u8 16) (ringSet q)) q 0x0C07 stComplete := by
  have hpass : firstFail [(q.u8 16 == 1 && decide ((accepted s q 0x0C07).nTch < 2), stNoResource),
      (decide (1 < q.u8 16) || (q.bit 17 0 && (outOf (q.u8 18) 4 10 || q.u64 24 % 4096 != 0)), stBadRange)] = none := by
    have hfew : ¬ (q.u8 16 = 1 ∧ (accepted s q 0x0C07).nTch ≤ 1) := fun hsecond => by
      have hpresent' : q.u8 16 < (accepted s q 0x0C07).nTch := hpresent
      omega
    have hrange : (q.bit 17 0 && (outOf (q.u8 18) 4 10 || q.u64 24 % 4096 != 0)) = false := by
      cases hon : q.bit 17 0 with
      | false => rfl
      | true =>
        obtain ⟨hlo, hhi, halign⟩ := hfits hon
        simp [outOf, hlo, hhi, halign]
    simp [firstFail, hfew, hrange, hport]
  refine soileNow_completes h ?_ rfl
  dsimp only
  rw [hpass]
  rfl

end Sys2Proof.Machine

/-!
PROOFS of the touch family: the slots and scans of a port, its edges, its loss of synchronisation, resting contacts and the pump (R244-R254,
R263, R264).
-/

namespace Sys2Proof.Machine

/-! ### Drive slots (R245, R250) -/

section Drive

variable {s : State} {p i : Nat} {xs : List Int}

theorem driveSlot_later (hi : 0 < i) : driveSlot s p i xs =
    if (s.tch p).scanning && (s.tch p).slots.length == i then takeSlot s p (fun _ => true) xs else s := by
  unfold driveSlot
  rw [if_neg hi.ne']

theorem driveSlot_takes (hi : 0 < i) (hscan : (s.tch p).scanning = true) (hlen : (s.tch p).slots.length = i) :
    driveSlot s p i xs = takeSlot s p (fun _ => true) xs := by
  rw [driveSlot_later hi, hscan, hlen, Bool.true_and, beq_self_eq_true, if_pos rfl]

/-- A drive slot outside a scan, or not the one that the scan is at, passes. -/
theorem driveSlot_passes (hi : 0 < i) (hout : (s.tch p).scanning = false ∨ (s.tch p).slots.length ≠ i) : driveSlot s p i xs = s := by
  rw [driveSlot_later hi]
  refine if_neg ?_
  rw [Bool.and_eq_true, beq_iff_eq]
  rintro ⟨hscan, hlen⟩
  rcases hout with hout | hout
  · exact Bool.false_ne_true (hout.symm.trans hscan)
  · exact hout hlen

/-- Nothing waits for the next scan start. -/
def NothingNoted (t : Touch) : Prop := t.mapNext = none ∧ t.baseNext = [] ∧ t.rebase = false

theorem applyNext_idle (h : NothingNoted (s.tch p)) : applyNext s p = s := by
  obtain ⟨hmap, hbase, hrebase⟩ := h
  unfold applyNext
  simp only [hmap, hbase, hrebase, List.isEmpty_nil, if_true, Bool.false_eq_true, if_false]

/-- The first slot of a scan that was granted. -/
theorem driveSlot_begins (hready : pwrReady s (pwrTch p) = true) (h : NothingNoted (s.tch p)) :
    driveSlot s p 0 xs = takeSlot ((pinsOff s p).modTch p fun t => { t with scanning := true }) p (fun _ => true) xs := by
  have htch : ((pinsOff s p).modTch p fun t => { t with scanning := true }).tch p = { givenUp (s.tch p) with scanning := true } := by
    rw [State.tch_modTch, tch_pinsOff]
  unfold driveSlot
  simp only [if_true, hready, applyNext_idle h, htch]
  rfl

/-- One that was not granted gives the scan up. -/
theorem driveSlot_refused (hready : pwrReady s (pwrTch p) = false) :
    driveSlot s p 0 xs = (pinsOff s p).modTch p fun t => { t with scanning := false } := by
  have htch : ((pinsOff s p).modTch p fun t => { t with scanning := false }).tch p = { givenUp (s.tch p) with scanning := false } := by
    rw [State.tch_modTch, tch_pinsOff]
  unfold driveSlot
  simp only [if_true, hready, Bool.false_eq_true, if_false, htch, Bool.false_and]

end Drive

/-! ### Acquisition slots (R245-R250) -/

/-- A port that has counted the slot that arrived. -/
def counted (s : State) (t : Touch) : Touch := { t with
  edge := false, slotSeen := true, slotAt := s.now
  line := if tchAcq s t != 0 && t.line + 1 == cycleLen s t (tchAcq s t) then 0 else t.line + 1
  lslots := if tchAcq s t == 2 && t.line == 0 then [] else t.lslots }

theorem counted_eq (s : State) (t : Touch) : counted s t = { t with
    edge := false, slotSeen := true, slotAt := s.now
    line := if tchAcq s t ≠ 0 ∧ t.line + 1 = cycleLen s t (tchAcq s t) then 0 else t.line + 1
    lslots := if tchAcq s t = 2 ∧ t.line = 0 then [] else t.lslots } := by
  simp only [counted, Bool.and_eq_true, bne_iff_ne, beq_iff_eq]

theorem counted_ne (s : State) (t : Touch) : counted s t ≠ {} := fun h => Bool.noConfusion (congrArg Touch.slotSeen h)

/-- What the slot that a port is at does (Table 9.1). -/
def slotWork (s : State) (p : Nat) (xs : List Int) : State :=
  match slotKind s (s.tch p) (tchAcq s (s.tch p)) (s.tch p).line with
  | some i => driveSlot (s.setTch p (counted s (s.tch p))) p i xs
  | none => (s.setTch p (counted s (s.tch p))).modTch p fun u => { u with lslots := u.lslots ++ [samplesOf u xs] }

theorem slotWork_drive {s : State} {p i : Nat} (xs : List Int) (h : slotKind s (s.tch p) (tchAcq s (s.tch p)) (s.tch p).line = some i) :
    slotWork s p xs = driveSlot (s.setTch p (counted s (s.tch p))) p i xs := by
  unfold slotWork
  rw [h]

theorem slotWork_listen {s : State} {p : Nat} (xs : List Int) (h : slotKind s (s.tch p) (tchAcq s (s.tch p)) (s.tch p).line = none) :
    slotWork s p xs = s.setTch p { counted s (s.tch p) with
      lslots := (counted s (s.tch p)).lslots ++ [samplesOf (s.tch p) xs] } := by
  unfold slotWork State.modTch
  rw [h]
  dsimp only
  rw [State.tch_setTch, State.setTch_setTch _ _ (counted_ne s _)]
  rfl

/-- A drive slot is none of those that end the listen slots. -/
theorem drive_not_last {s : State} {p i : Nat} (h : slotKind s (s.tch p) (tchAcq s (s.tch p)) (s.tch p).line = some i) :
    ¬ (tchAcq s (s.tch p) = 1 ∧ (s.tch p).line = 543) := by
  rintro ⟨hacq, hline⟩
  rw [hacq, hline] at h
  simp [slotKind] at h

section Slot

variable {s : State} {p : Nat} (xs : List Int) (hused : (s.tch p).acqUsed = tchAcq s (s.tch p))
include hused

theorem touchSlot_waits (hnone : slotArrives s (s.tch p) (tchAcq s (s.tch p)) = false) : touchSlot s p xs = s := by
  unfold touchSlot
  simp only [hused, if_true, hnone, Bool.not_false]

variable (harrives : slotArrives s (s.tch p) (tchAcq s (s.tch p)) = true) (hhas : pwrHas s (pwrTch p) = true)
include harrives hhas

/-- A slot that arrives at a port which the arbiter knows, and does not end the listen slots, is a drive slot or a listen slot. -/
theorem touchSlot_arrives {t : State} (hlast : ¬ (tchAcq s (s.tch p) = 1 ∧ (s.tch p).line = 543)) (hwork : slotWork s p xs = t)
    (hpwr : t.pwr = s.pwr) : touchSlot s p xs = t := by
  have hhas' : pwrHas (slotWork s p xs) (pwrTch p) = true := by
    unfold pwrHas
    rw [hwork, hpwr]
    exact hhas
  rw [← hwork]
  unfold touchSlot
  dsimp only
  rw [if_pos hused.symm, if_neg (by rw [harrives]; decide), if_neg hlast]
  exact if_pos hhas'

end Slot

/-- A slot at a port that scans in the device's mode and is synchronised (R249). -/
theorem doTouchSlot_scans {p : Fin 2} {s : State} (xs : List Int) (hcore : s.ctl.core = true) (hpresent : s.absent (32 + p.val) = false)
    (htest : (s.tch p.val).test = none) (hon : (s.tch p.val).cfg.enable = true) (hmode : tchMode s = true)
    (hsync : (s.tch p.val).lost = false) : doTouchSlot p xs s = touchSlot s p.val xs := by
  simp [doTouchSlot, hcore, hpresent, htest, hon, hmode, hsync]

section Work

variable {s : State} {p i : Nat} (xs : List Int)

section Later

variable (hkind : slotKind s (s.tch p) (tchAcq s (s.tch p)) (s.tch p).line = some i) (hi : 0 < i)
include hkind hi

/-- A later drive slot of a scan drives its electrodes and adds its samples (R245). -/
theorem slotWork_takes (hscan : (s.tch p).scanning = true) (hlen : (s.tch p).slots.length = i) : slotWork s p xs =
    (s.setTch p { counted s (s.tch p) with slots := (s.tch p).slots ++ [samplesOf (s.tch p) xs], driven := true }).emit
      (.touchPins p (some ((s.tch p).cfg.drive, slotEdges (s.tch p).cfg (fun _ => true) i))) := by
  have htch : (s.setTch p (counted s (s.tch p))).tch p = counted s (s.tch p) := State.tch_setTch _ _ _
  rw [slotWork_drive xs hkind, driveSlot_takes hi (by rw [htch]; exact hscan) (by rw [htch]; exact hlen), takeSlot]
  dsimp only
  rw [htch, State.setTch_setTch _ _ (counted_ne s _), ← hlen]
  rfl

/-- One outside a scan is counted alone. -/
theorem slotWork_passes (hout : (s.tch p).scanning = false ∨ (s.tch p).slots.length ≠ i) :
    slotWork s p xs = s.setTch p (counted s (s.tch p)) := by
  rw [slotWork_drive xs hkind, driveSlot_passes hi]
  rw [State.tch_setTch]
  exact hout

end Later

variable (hkind : slotKind s (s.tch p) (tchAcq s (s.tch p)) (s.tch p).line = some 0)
include hkind

theorem slotWork_begins (hready : pwrReady s (pwrTch p) = true) (h : NothingNoted (s.tch p)) : slotWork s p xs =
    takeSlot ((pinsOff (s.setTch p (counted s (s.tch p))) p).modTch p fun t => { t with scanning := true }) p (fun _ => true) xs := by
  rw [slotWork_drive xs hkind]
  refine driveSlot_begins hready ?_
  rw [State.tch_setTch]
  exact h

theorem slotWork_refused (hready : pwrReady s (pwrTch p) = false) : slotWork s p xs =
    (pinsOff (s.setTch p (counted s (s.tch p))) p).modTch p fun t => { t with scanning := false } := by
  rw [slotWork_drive xs hkind]
  exact driveSlot_refused hready

end Work

theorem takeSlot_pwr (s : State) (p : Nat) (on : Nat → Bool) (xs : List Int) : (takeSlot s p on xs).pwr = s.pwr := rfl

theorem scanGiven_pwr (s : State) (p : Nat) (v : Touch) (f : Touch → Touch) : ((pinsOff (s.setTch p v) p).modTch p f).pwr = s.pwr :=
  (pinsOff_pwr (s.setTch p v) p :)

/-! ### Self-test slots and the ends of a scan and a pass (R246, R263) -/

section Test

variable {p : Fin 2} {s : State} {x : Nat × List (List Int) × List Nat} (hcore : s.ctl.core = true) (htest : (s.tch p.val).test = some x)
include hcore htest

theorem doTouchSlot_test (xs : List Int) (hpresent : s.absent (32 + p.val) = false) :
    doTouchSlot p xs s = testSlot s p.val x.2.1 xs := by
  simp [doTouchSlot, hcore, hpresent, htest]

theorem doTouchScanEnd_test (hfull : (s.tch p.val).slots.length = 512) : doTouchScanEnd p s = passEnd s p.val x := by
  simp [doTouchScanEnd, hcore, hfull, htest]

end Test

theorem testSlot_otherMode {s : State} (p : Nat) (passes : List (List Int)) (xs : List Int) (h : s.ctl.mode ≠ .test) :
    testSlot s p passes xs = s := if_pos h

section TestSlot

variable {s : State} {p : Nat} (passes : List (List Int)) (xs : List Int) (hmode : s.ctl.mode = .test)
include hmode

/-- A pass that has not begun waits for its grant. -/
theorem testSlot_asks (hnone : (s.tch p).slots = []) (hready : pwrReady s (pwrTch p) = false) :
    testSlot s p passes xs = pwrRequest s (pwrTch p) 6 := by
  simp [testSlot, hmode, hnone, hready]

theorem testSlot_takes (hgoes : (s.tch p).slots ≠ [] ∨ pwrReady s (pwrTch p) = true) (hroom : (s.tch p).slots.length < 512) :
    testSlot s p passes xs = takeSlot s p (passDrives passes.length) xs := by
  have hwaits : ((s.tch p).slots.isEmpty && !pwrReady s (pwrTch p)) = false := by
    rcases hgoes with hslots | hready
    · rw [List.isEmpty_eq_false_iff.mpr hslots, Bool.false_and]
    · rw [hready, Bool.not_true, Bool.and_false]
  unfold testSlot
  rw [if_neg (not_not_intro hmode), hwaits, if_neg Bool.false_ne_true, if_pos hroom]

end TestSlot

theorem doTouchScanEnd_scan {p : Fin 2} {s : State} (hcore : s.ctl.core = true) (hfull : (s.tch p.val).slots.length = 512)
    (htest : (s.tch p.val).test = none) (hscan : (s.tch p.val).scanning = true) (hmode : tchMode s = true) :
    doTouchScanEnd p s = scanEnd s p.val := by
  simp [doTouchScanEnd, hcore, hfull, htest, hscan, hmode]

/-- A port whose self-test has one more pass. -/
def passAdded (s : State) (p id : Nat) (passes : List (List Int)) (sat : List Nat) : State :=
  pwrEnd (s.setTch p { s.tch p with
    slots := [], test := some (id, passes ++ [scanRaw true (s.tch p).cfg (s.tch p).slots], sat) }) (pwrTch p)

theorem passAdded_shows (s : State) (p id : Nat) (passes : List (List Int)) (sat : List Nat) : let t := passAdded s p id passes sat
    (t.tch p).slots = [] ∧ (t.tch p).test = some (id, passes ++ [scanRaw true (s.tch p).cfg (s.tch p).slots], sat)
      ∧ t.cpls = s.cpls ∧ t.regs = s.regs ∧ t.mem = s.mem := by
  intro t
  have htch : t.tch p = { s.tch p with
      slots := [], test := some (id, passes ++ [scanRaw true (s.tch p).cfg (s.tch p).slots], sat) } :=
    (tch_pwrEnd _ _ _).trans (State.tch_setTch _ _ _)
  rw [htch]
  exact ⟨rfl, rfl, ((onlyPorts_setTch s p _).trans (onlyPorts_pwrEnd _ _)).stores⟩

/-- The saturated slots per column, which the first pass counts (R263). -/
def passSat (t : Touch) (passes : List (List Int)) (sat : List Nat) : List Nat :=
  if passes.isEmpty then
    (List.range t.cfg.senses).map fun c => (t.slots.filter fun r => decide (r.getD c 0 ≤ -2048) || decide (2047 ≤ r.getD c 0)).length
  else sat

theorem passSat_later {t : Touch} {passes : List (List Int)} (sat : List Nat) (h : 0 < passes.length) : passSat t passes sat = sat := by
  unfold passSat
  rw [List.isEmpty_eq_false_iff.mpr (List.ne_nil_of_length_pos h)]
  exact if_neg Bool.false_ne_true

section Pass

variable {s : State} {p id : Nat} {passes : List (List Int)} (sat : List Nat)

theorem passEnd_goesOn (h : passes.length ≠ 12) :
    passEnd s p (id, passes, sat) = passAdded s p id passes (passSat (s.tch p) passes sat) := by
  have hmore : (passes ++ [scanRaw true (s.tch p).cfg (s.tch p).slots]).length ≠ 13 := by
    rw [List.length_append, List.length_singleton]
    omega
  exact if_neg hmore

theorem passEnd_last (h : passes.length = 12) : passEnd s p (id, passes, sat) =
    testEnd (passAdded s p id passes sat) p id (passes ++ [scanRaw true (s.tch p).cfg (s.tch p).slots]) sat := by
  have hsat : passSat (s.tch p) passes sat = sat := passSat_later sat (by omega)
  have hlast : (passes ++ [scanRaw true (s.tch p).cfg (s.tch p).slots]).length = 13 := by
    rw [List.length_append, List.length_singleton]
    omega
  have hend : passEnd s p (id, passes, sat) = testEnd (passAdded s p id passes (passSat (s.tch p) passes sat)) p id
      (passes ++ [scanRaw true (s.tch p).cfg (s.tch p).slots]) (passSat (s.tch p) passes sat) := if_pos hlast
  rw [hend, hsat]

end Pass

/-! ### Edges, lost synchronisation, resting contacts, the pump (R248, R249, R252, R254, R264) -/

/-- What a port in SYNC_TSYNC makes of an edge in `s`, once the event sources have seen it in `t`. -/
def edgeTaken (s t : State) (p : Nat) : State :=
  match (s.tch p).tsyncAt with
  | some a => if s.since a < 2000 then t.inc (TCH_TSYNC_FAST p)
    else t.setTch p { s.tch p with tsyncAt := some s.now, edge := true, lost := false }
  | none => t.setTch p { s.tch p with tsyncAt := some s.now, edge := true, lost := false }

theorem edgeTaken_accepts {s : State} (t : State) {p : Nat} (hlate : ∀ a ∈ (s.tch p).tsyncAt, 2000 ≤ s.since a) :
    edgeTaken s t p = t.setTch p { s.tch p with tsyncAt := some s.now, edge := true, lost := false } := by
  unfold edgeTaken
  cases hlast : (s.tch p).tsyncAt with
  | none => rfl
  | some a => exact if_neg (not_lt.mpr (hlate a hlast))

theorem edgeTaken_fast {s : State} (t : State) {p a : Nat} (hlast : (s.tch p).tsyncAt = some a) (hfast : s.since a < 2000) :
    edgeTaken s t p = t.inc (TCH_TSYNC_FAST p) := by
  unfold edgeTaken
  rw [hlast]
  exact if_pos hfast

/-- The pulse leaves what the port's answer rests on. -/
theorem doTsyncEdge_eq {p : Fin 2} {s : State} (hcore : s.ctl.core = true) (hpresent : s.absent (32 + p.val) = false)
    (hon : (s.tch p.val).cfg.enable = true) (hacq : tchAcq s (s.tch p.val) = 1) (hmode : tchMode s = true) :
    doTsyncEdge p s = edgeTaken s (evcPulse s (50 + p.val)) p.val := by
  have hpulse := evcOnly_evcPulse s (50 + p.val)
  unfold doTsyncEdge
  dsimp only
  generalize evcPulse s (50 + p.val) = t at hpulse
  have htch : t.tch p.val = s.tch p.val := by rw [State.tch, hpulse.touch, State.tch]
  have hctl : t.ctl = s.ctl := (congrArg State.ctl hpulse.back :)
  have hrdn : t.rdn = s.rdn := (congrArg State.rdn hpulse.back :)
  have hfuses : t.fuses = s.fuses := (congrArg State.fuses hpulse.back :)
  have habsent : t.absent (32 + p.val) = false := by rw [State.absent, hfuses]; exact hpresent
  have hacq' : tchAcq t (s.tch p.val) = 1 := by rw [tchAcq, hctl]; exact hacq
  have hmode' : tchMode t = true := by rw [tchMode, hctl, hrdn]; exact hmode
  have hnow : t.now = s.now := by rw [State.now, hpulse.tbase, State.now]
  have hsince : ∀ a, t.since a = s.since a := fun a => by rw [State.since, hnow, State.since]
  simp only [hcore, htch, habsent, hon, hacq', hmode', hnow, hsince, Bool.not_true, Bool.false_eq_true, if_false, bne_self_eq_false,
    Bool.or_self]
  rfl

/-- The report and the event of lost synchronisation, with the CANCELs between them (R249). -/
def lossReported (s : State) (p : Nat) : State :=
  let t := cancelAll (tchEvent (s.inc (TCH_SYNC_MISS p)) p evTchSyncLost 1 [(tchAcq s (s.tch p), 2)]) p
  sendReport p t ⟨7, 0xF, { placeHit t p 0 0 with x := 0, y := 0 }, 0⟩

/-- Whatever its events bring, it leaves an enabled port without contacts. -/
theorem lossReported_contacts {s : State} {p : Nat} (hon : (s.tch p).cfg.enable = true) : ((lossReported s p).tch p).contacts = [] := by
  unfold lossReported
  extract_lets t
  have hevent : ((tchEvent (s.inc (TCH_SYNC_MISS p)) p evTchSyncLost 1 [(tchAcq s (s.tch p), 2)]).tch p).cfg.enable = true :=
    (keepsPort_tchEvent (s.inc (TCH_SYNC_MISS p)) p evTchSyncLost 1 [(tchAcq s (s.tch p), 2)]).enabled hon
  obtain ⟨hnone, hcfg⟩ := tch_cancelAll (tchEvent (s.inc (TCH_SYNC_MISS p)) p evTchSyncLost 1 [(tchAcq s (s.tch p), 2)]) p
  have hcancelled : (t.tch p).cfg.enable = true := (congrArg TchCfg.enable (hcfg hevent)).trans hevent
  exact (contacts_of_restOf (keepsPort_sendReport t _ hcancelled)).trans hnone

theorem doTouchSyncLost_eq {p : Fin 2} {s : State} (hcore : s.ctl.core = true) (hon : (s.tch p.val).cfg.enable = true)
    (hmode : tchMode s = true) (hacq : tchAcq s (s.tch p.val) ≠ 2) (hsync : (s.tch p.val).lost = false) (htest : (s.tch p.val).test = none)
    (hdue : 50000000 ≤ s.since (s.tch p.val).slotAt) : doTouchSyncLost p s =
      tchStop ((lossReported s p.val).modTch p.val fun t => { t with lost := true, line := 0 }) p.val := by
  have hgoes : (!s.ctl.core || !(s.tch p.val).cfg.enable || !tchMode s || tchAcq s (s.tch p.val) == 2 || (s.tch p.val).lost
      || (s.tch p.val).test.isSome || decide (s.since (s.tch p.val).slotAt < 50000000)) = false := by
    simp [hcore, hon, hmode, hacq, hsync, htest, hdue]
  unfold doTouchSyncLost lossReported
  dsimp only
  rw [hgoes, if_neg Bool.false_ne_true]

/-- The report, the count and the event of what rests too long (R252, R254). -/
def stuckSaid (s : State) (p contact : Nat) (r : Report) : State :=
  tchEvent ((sendReport p s r).inc (TCH_STUCK p)) p evTouchStuck 0 [(contact, 4), (unsigned 16 r.hit.x, 16), (unsigned 16 r.hit.y, 16)]

theorem keepsPort_stuckSaid (s : State) (p contact : Nat) (r : Report) : KeepsPort p s (stuckSaid s p contact r) :=
  ((keepsPort_sendReport s r).trans (keepsPort_inc _ _)).trans (keepsPort_tchEvent _ p _ _ _)

/-- Said of a port that was just written, it keeps the rest of what was written. -/
theorem restOf_stuckSaid {s : State} {p : Nat} {v : Touch} (contact : Nat) (r : State → Report) (hon : v.cfg.enable = true) :
    restOf ((stuckSaid (s.setTch p v) p contact (r (s.setTch p v))).tch p) = restOf v := by
  have htch := State.tch_setTch s p v
  rw [keepsPort_stuckSaid _ p contact _ (by rw [htch]; exact hon), htch]

/-- A port whose contact of a number is said stuck. -/
def contactStuck (id : Nat) (t : Touch) : Touch := { t with contacts := t.contacts.map fun x => if x.id = id then { x with stuck := true } else x }

section Stuck

variable {p : Fin 2} {k : Fin 16} {node : Nat} {s : State} (hcore : s.ctl.core = true) (hon : (s.tch p.val).cfg.enable = true)
  (hmode : tchMode s = true)
include hcore hon hmode

section Contact

variable {c : Contact} (hk : k.val < 15) (hc : (s.tch p.val).contacts.find? (fun c => c.id == k.val) = some c)
include hk hc

theorem doTouchStuck_contact : doTouchStuck p k node s =
    if c.stuck || !c.still || decide (s.since c.nearAt < (((s.tch p.val).cfg.stuckS * 1000000000 : Nat) : Int)) then s
    else
      let t := s.setTch p.val (contactStuck c.id (s.tch p.val))
      stuckSaid t p.val k.val { contactReport t p.val 4 c with
        hit := { hitAt t p.val c.px c.py with part := touchOwner t p.val, x := c.x, y := c.y } } := by
  have hgoes : (!s.ctl.core || !(s.tch p.val).cfg.enable || !tchMode s) = false := by simp [hcore, hon, hmode]
  unfold doTouchStuck
  dsimp only
  rw [hgoes, if_neg Bool.false_ne_true, if_neg hk.ne, hc]
  rfl

theorem doTouchStuck_contact_rests
    (h : c.stuck = true ∨ c.still = false ∨ s.since c.nearAt < (((s.tch p.val).cfg.stuckS * 1000000000 : Nat) : Int)) :
    doTouchStuck p k node s = s := by
  rw [doTouchStuck_contact hcore hon hmode hk hc]
  refine if_pos ?_
  rw [Bool.or_eq_true, Bool.or_eq_true, Bool.not_eq_true', decide_eq_true_eq, or_assoc]
  exact h

theorem doTouchStuck_contact_said (hnew : c.stuck = false) (hstill : c.still = true)
    (hdue : (((s.tch p.val).cfg.stuckS * 1000000000 : Nat) : Int) ≤ s.since c.nearAt) :
    restOf ((doTouchStuck p k node s).tch p.val) = restOf (contactStuck k.val (s.tch p.val)) := by
  have hid : c.id = k.val := by simpa using List.find?_some hc
  have hgoes : (c.stuck || !c.still || decide (s.since c.nearAt < (((s.tch p.val).cfg.stuckS * 1000000000 : Nat) : Int))) = false := by
    simp only [hnew, hstill, decide_eq_false (not_lt.mpr hdue), Bool.not_true, Bool.or_self]
  rw [doTouchStuck_contact hcore hon hmode hk hc, hgoes, if_neg Bool.false_ne_true, hid]
  exact restOf_stuckSaid (v := contactStuck k.val (s.tch p.val)) k.val (fun t => { contactReport t p.val 4 c with
    hit := { hitAt t p.val c.px c.py with part := touchOwner t p.val, x := c.x, y := c.y } }) hon

end Contact

theorem doTouchStuck_node (hk : k.val = 15) (hpre : node ∈ (s.tch p.val).pre) (hnew : node ∉ (s.tch p.val).preStuck)
    (hdue : (((s.tch p.val).cfg.stuckS * 1000000000 : Nat) : Int) ≤ s.since (s.tch p.val).startAt) :
    restOf ((doTouchStuck p k node s).tch p.val)
      = restOf { s.tch p.val with preStuck := (s.tch p.val).preStuck ++ [node] } := by
  have hgoes : (!s.ctl.core || !(s.tch p.val).cfg.enable || !tchMode s) = false := by simp [hcore, hon, hmode]
  have hsays : ((s.tch p.val).pre.contains node && !(s.tch p.val).preStuck.contains node
      && decide ((((s.tch p.val).cfg.stuckS * 1000000000 : Nat) : Int) ≤ s.since (s.tch p.val).startAt)) = true := by
    simp only [List.contains_iff_mem.mpr hpre, List.contains_eq_mem, hnew, decide_false, Bool.not_false, Bool.and_self, decide_eq_true hdue]
  unfold doTouchStuck
  dsimp only
  rw [hgoes, if_neg Bool.false_ne_true, if_pos hk, if_pos hsays]
  exact restOf_stuckSaid (v := { s.tch p.val with preStuck := (s.tch p.val).preStuck ++ [node] }) k.val (fun t => ⟨4, 0xF,
    placeHit t p.val (256 * ((node % (s.tch p.val).cfg.senses : Nat) : Int)) (256 * ((node / (s.tch p.val).cfg.senses : Nat) : Int)), 0⟩) hon

end Stuck

theorem contactStuck_shows (id : Nat) (t : Touch) : (∀ x ∈ (contactStuck id t).contacts, x.id = id → x.stuck = true)
    ∧ (contactStuck id t).contacts.map (·.id) = t.contacts.map (·.id) := by
  refine ⟨fun x hx hid => ?_, ?_⟩
  · obtain ⟨y, -, rfl⟩ := List.mem_map.mp hx
    split at hid
    · rw [if_pos (by assumption)]
    · contradiction
  · refine List.map_map.trans (List.map_congr_left fun x _ => ?_)
    dsimp only [Function.comp_apply]
    split <;> rfl

theorem doTchPump_counts {p : Fin 2} {s : State} (hcore : s.ctl.core = true) (hon : (s.tch p.val).cfg.enable = true) : doTchPump p s =
    tchEvent ((s.setTch p.val { s.tch p.val with pumpBad := true }).add (TCH_PUMP p.val) 16 16 1) p.val evTchPump 2 [] := by
  simp [doTchPump, hcore, hon]

end Sys2Proof.Machine

/-!
PROOFS of the touch family: the whole of it.
-/

namespace Sys2Proof.Machine

/-- Settles O15: the commands are the branches of their checks; a slot, an edge and the ends of a scan and a pass are the branches of the port's
state; an event, whatever it brings, keeps the contacts and the pre-touched nodes of an enabled port. -/
theorem touch : Obligations.Touch := by
  refine ⟨⟨?cfg, ?map, ?baseline, ?rebase, ?raw, ?selftest, ?ring⟩, ?slot, ?testSlot, ?scanEnd, ?passEnd, ?edge, ?lost, ?stuck, ?pump⟩
  case cfg =>
    intro q s h hpresent hport hown p c head
    refine ⟨fun hon hfits hsync hidle => ?_, fun hoff => ?_⟩
    · exact ⟨congrArg Host.Outcome.next (doTchCfg_starts h ⟨hpresent, hport, hown⟩ ⟨hon, hfits, hsync, hidle⟩),
        fun hcontacts => congrArg Host.Outcome.next (doTchCfg_starts_idle h ⟨hpresent, hport, hown⟩ ⟨hon, hfits, hsync, hidle⟩ hcontacts)⟩
    · refine ⟨congrArg Host.Outcome.next (doTchCfg_stops h ⟨hpresent, hport, hown⟩ hoff), fun hcontacts => ?_⟩
      obtain ⟨hdisabled, hpins, htest, hmem, hregs⟩ := stop_shows s q stComplete
      exact ⟨_, congrArg Host.Outcome.next (doTchCfg_stops_idle h ⟨hpresent, hport, hown⟩ hoff hcontacts), hdisabled, hpins,
        htest, hmem, hregs, stop_cpls_idle stComplete, fun id r j hx hj hid hplain hruns => stop_cpls_cut stComplete hx hj hid hplain hruns⟩
  case map =>
    intro q s h hpresent hport hhead hown
    exact congrArg Host.Outcome.next (doTchMap_notes h ⟨hpresent, hport, hown⟩ hhead)
  case baseline =>
    intro q s bs h hmode hpresent hport hkind hown n er rd hread
    exact congrArg Host.Outcome.next (doTchBaseline_notes h hmode ⟨hpresent, hport, hown⟩ hkind hread)
  case rebase =>
    intro q s h hmode hpresent hport hown hcfgd
    exact congrArg Host.Outcome.next (doTchRebase_notes h hmode ⟨hpresent, hport, hown⟩ hcfgd)
  case raw =>
    intro q s h hpresent hport hkind halign hown hcfgd bs body w
    exact ⟨congrArg Host.Outcome.next (doTchRaw_writes h ⟨hpresent, hport, hown⟩ hkind halign hcfgd), fun hhost hpcie hup =>
      congrArg Host.Outcome.next (doTchRaw_posts h ⟨hpresent, hport, hown⟩ hkind halign hcfgd hhost hpcie hup)⟩
  case selftest =>
    intro q s h hmode hpresent hport hown hcfgd hfree
    exact ⟨_, rfl, doTchSelftest_shows h hmode ⟨hpresent, hport, hown⟩ hcfgd hfree⟩
  case ring =>
    intro q s h hpresent hport hfits p rs
    exact congrArg Host.Outcome.next (doTchRing_sets h hpresent hport hfits)
  case slot =>
    intro p xs s hcore hpresent htest hon hmode hsync t acq k u hused
    have hslot := doTouchSlot_scans xs hcore hpresent htest hon hmode hsync
    have hu : counted s t = u := counted_eq s t
    refine ⟨fun hnone => congrArg Host.Outcome.next (hslot.trans (touchSlot_waits xs hused hnone)), fun harrives hhas =>
      ⟨fun i hkind hi hscan hlen => ?_, fun i hkind hi hout => ?_, fun hkind hready hmap hbase hrebase => ?_, fun hkind hready => ?_,
        fun hkind hlast => ?_⟩⟩
    all_goals refine congrArg Host.Outcome.next (hslot.trans ?_); rw [← hu]
    · exact touchSlot_arrives xs hused harrives hhas (drive_not_last hkind) (slotWork_takes xs hkind hi hscan hlen) rfl
    · exact touchSlot_arrives xs hused harrives hhas (drive_not_last hkind) (slotWork_passes xs hkind hi hout) rfl
    · exact touchSlot_arrives xs hused harrives hhas (drive_not_last hkind) (slotWork_begins xs hkind hready ⟨hmap, hbase, hrebase⟩)
        ((takeSlot_pwr _ _ _ _).trans (scanGiven_pwr s p.val _ _))
    · exact touchSlot_arrives xs hused harrives hhas (drive_not_last hkind) (slotWork_refused xs hkind hready) (scanGiven_pwr s p.val _ _)
    · exact touchSlot_arrives xs hused harrives hhas hlast (slotWork_listen xs hkind) rfl
  case testSlot =>
    intro p xs s id passes sat hcore hpresent htest
    have hslot := doTouchSlot_test hcore htest xs hpresent
    exact ⟨fun hmode => congrArg Host.Outcome.next (hslot.trans (testSlot_otherMode _ _ _ hmode)),
      fun hmode hnone hready => congrArg Host.Outcome.next (hslot.trans (testSlot_asks _ _ hmode hnone hready)),
      fun hmode hgoes hroom => congrArg Host.Outcome.next (hslot.trans (testSlot_takes _ _ hmode hgoes hroom))⟩
  case scanEnd =>
    intro p s hcore hfull htest hscan hmode
    exact congrArg Host.Outcome.next (doTouchScanEnd_scan hcore hfull htest hscan hmode)
  case passEnd =>
    intro p s id passes sat hcore hfull htest raw
    have hend := doTouchScanEnd_test hcore htest hfull
    refine ⟨fun hmore => ?_, fun hlast => congrArg Host.Outcome.next (hend.trans (passEnd_last sat hlast))⟩
    obtain ⟨hslots, htests, hstores⟩ := passAdded_shows s p.val id passes (passSat (s.tch p.val) passes sat)
    exact ⟨_, _, congrArg Host.Outcome.next (hend.trans (passEnd_goesOn sat hmore)), hslots, htests, passSat_later sat, hstores⟩
  case edge =>
    intro p s hcore hpresent hon hacq hmode t
    have hedge := doTsyncEdge_eq hcore hpresent hon hacq hmode
    exact ⟨fun hlate => congrArg Host.Outcome.next (hedge.trans (edgeTaken_accepts _ hlate)),
      fun a hlast hfast => congrArg Host.Outcome.next (hedge.trans (edgeTaken_fast _ hlast hfast))⟩
  case lost =>
    intro p s hcore hon hmode hacq hsync htest hdue
    refine ⟨_, congrArg Host.Outcome.next (doTouchSyncLost_eq hcore hon hmode hacq hsync htest hdue), ?_⟩
    have hcontacts := lossReported_contacts hon
    rw [tch_tchStop, State.tch_modTch]
    generalize (lossReported s p.val).tch p.val = v at hcontacts
    exact ⟨rfl, hcontacts, rfl, rfl, rfl, rfl⟩
  case stuck =>
    intro p k node s hcore hon hmode limit
    refine ⟨fun c hk hc hnew hstill hdue => ⟨_, rfl, ?_⟩, fun c hk hc hrests => ?_, fun hk hpre hnew hdue => ⟨_, rfl, ?_⟩⟩
    · have hcontacts := contacts_of_restOf (doTouchStuck_contact_said (node := node) hcore hon hmode hk hc hnew hstill hdue)
      rw [hcontacts]
      exact contactStuck_shows k.val (s.tch p.val)
    · exact congrArg Host.Outcome.next (doTouchStuck_contact_rests hcore hon hmode hk hc hrests)
    · exact preStuck_of_restOf (doTouchStuck_node hcore hon hmode hk hpre hnew hdue)
  case pump =>
    intro p s hcore hon
    exact congrArg Host.Outcome.next (doTchPump_counts hcore hon)

end Sys2Proof.Machine

/-!
PROOFS of the host rings family: PART_STOP and the end of STOPPING (R270, R284), and where PART_STOP parts from its statement — a completion
that waits at a gate.
-/

namespace Sys2Proof.Machine

/-! ### What keeps a partition in STOPPING -/

/-- Whether something of a partition is still to end: a job, a completion on its way or in the backlog, one that waits at a gate (R270). -/
def stopBusy (s : State) (p : Nat) : Bool :=
  (s.jobs.any fun j => j.req.part.val == p) || (s.cpls.any fun c => c.part == p) || !(s.part p).backlog.isEmpty
    || (s.heldAcc.any fun h => h.after == .cpl p)

/-- The state a partition goes on to where nothing keeps it in STOPPING. -/
def stopEnds (s : State) (p : Nat) : PartState :=
  if (s.part p).state = .stopping ∧ stopBusy s p = false then .bound else (s.part p).state

/-- STOPPING ends where nothing of the partition is left. -/
theorem stopSettle_eq (s : State) (p : Nat) : stopSettle s p =
    if (s.part p).state = .stopping ∧ stopBusy s p = false then s.setPart p { s.part p with state := .bound } else s := by
  have hgoes : (decide ((s.part p).state = .stopping) && (s.part p).backlog.isEmpty && !(s.jobs.any fun j => j.req.part.val == p)
      && !(s.cpls.any fun c => c.part == p) && !(s.heldAcc.any fun h => h.after == .cpl p)) = true
        ↔ (s.part p).state = .stopping ∧ stopBusy s p = false := by
    simp only [stopBusy, Bool.and_eq_true, Bool.or_eq_false_iff, Bool.not_eq_true', Bool.not_eq_false', decide_eq_true_eq]
    tauto
  exact if_congr hgoes rfl rfl

theorem stopSettle_busy {s : State} {p : Nat} (h : stopBusy s p = true) : stopSettle s p = s := by
  rw [stopSettle_eq, if_neg]
  simp [h]

/-- A PART_STOP of the manager that names a partition completes, and then stops it (R270, R274). -/
theorem doPartStop_admitted {q : Req} {s : State} (h : Admitted s q (bodyMask [(16, 0, 8)])) (hmanager : isManager s q = true)
    (hrange : q.u8 16 ≤ 15) : doPartStop q s = partStop (done s q 0x0104 stComplete) (q.u8 16) := by
  have hmanager' : isManager (accepted s q 0x0104) q = true := hmanager
  rw [doPartStop, soile_admitted h, guardJob_pass (by simp [firstFail, hmanager', hrange]), finish_accepted]

/-! ### A completion at a gate -/

/-- A PART_STOP of partition 0 for partition 1. -/
def stopRequest : Req :=
  { part := 0, ring := 0, index := 0, cring := 0, barrier := false, tag := 7, host := .error, body := 1 }

/-- A part in RUN whose manager is partition 0. Partition 1 is ACTIVE on HP4; the last piece of a completion of it waits at region 0 of
the desk SRAM's gate, which is in HOLD. -/
def completionAtGate : State :=
  { ctl := { mode := .run, ring := true, core := true, coreEn := true, corePg := true, primeOk := true }
    parts := [(0, { state := .active }), (1, { state := .active, port := 4 })]
    heldAcc := [{ acc := engine 34 1, typ := .w, addr := 0x200000C, len := 4, data := [0, 0, 0, 0x80], after := .cpl 1 }]
    regs := [(PRT_MGR, 0), (MG_BASE_ACT 6 0, 0x0F000000), (MG_CTRL 6 0, 2), (PRT_SW_CP_CFG 0 0, 0x100)] }

theorem completionAtGate_admitted : Admitted completionAtGate stopRequest (bodyMask [(16, 0, 8)]) := by decide +kernel

theorem completionAtGate_manager : isManager completionAtGate stopRequest = true := by decide +kernel

theorem stopRequest_names : stopRequest.u8 16 = 1 := by decide +kernel

/-- The gate does hold that piece. -/
theorem completionAtGate_held : (memDec completionAtGate (engine 34 1) .w 0x200000C).1 = .held := by decide +kernel

/-- With the command's completion sent, the piece at the gate keeps partition 1 in STOPPING. -/
theorem partStop_completionAtGate : ((partStop (done completionAtGate stopRequest 0x0104 stComplete) 1).part 1).state = .stopping := by
  decide +kernel

/-- Refutes O1 (R270): what the clause on PART_STOP counts as left of a partition leaves out a completion that waits at a gate. A partition
on HP4 whose last completion does goes on to BOUND by the clause, and stays in STOPPING. -/
theorem not_partitions : ¬ Obligations.Partitions := by
  intro h
  obtain ⟨-, hstop⟩ := h
  have hrange : stopRequest.u8 16 ≤ 15 := by rw [stopRequest_names]; decide
  obtain ⟨hlasting, -⟩ := hstop stopRequest completionAtGate completionAtGate_admitted completionAtGate_manager hrange
  simp only [stopRequest_names] at hlasting
  obtain ⟨hidle, -⟩ := hlasting (.inl rfl)
  have hclause := hidle ⟨by decide, rfl, by decide, by decide⟩
  have hstops := doPartStop_admitted completionAtGate_admitted completionAtGate_manager hrange
  rw [stopRequest_names] at hstops
  have hsame : partStop (done completionAtGate stopRequest 0x0104 stComplete) 1 = _ := hstops.symm.trans (Host.Outcome.next.inj hclause)
  have hbound := partStop_completionAtGate
  rw [hsame, State.part_setPart] at hbound
  cases hbound

end Sys2Proof.Machine

/-!
PROOFS of the host rings family: ABORT (R290, Table 10.8) — its target, what it does to a job of each kind, what the end of a job sends.
-/

namespace Sys2Proof.Machine

/-! ### The target -/

/-- The job that an ABORT becomes is not among its targets. -/
theorem abortTarget_accepted (s : State) (q : Req) (op p : Nat) (tag : BitVec 32) :
    abortTarget (accepted s q op) p tag s.nextJob = abortTarget s p tag s.nextJob := by
  have hjobs : (accepted s q op).jobs.filter (fun j => j.req.part.val == p && j.req.tag == tag && j.id != s.nextJob)
      = s.jobs.filter fun j => j.req.part.val == p && j.req.tag == tag && j.id != s.nextJob := by
    simp [accepted, jobOf, List.filter_append]
  have hpart : (accepted s q op).part p = s.part p := rfl
  have hcpls : (accepted s q op).cpls = s.cpls := rfl
  simp only [abortTarget, hjobs, hpart, hcpls]

/-- What a target of an ABORT comes to, `s` with the ABORT as job `id` (R290). -/
def abortOn (s : State) (q : Req) (id : Nat) : Option AbortTarget → State
  | none => finish s id stAbortLate (cplBody [(16, 4, 0xFFFFFFFF)])
  | some (.fetched f) =>
    finish ({ s with cpls := s.cpls ++ [fetchedCpl s q.part f stAborted] }.setPart q.part.val
      { s.part q.part.val with fetched := (s.part q.part.val).fetched.filter fun g => g.order != f.order }) id stComplete
      (abortBody f.index f.ring stAborted)
  | some (.ended c) => finish s id stAbortLate (abortBody c.index c.ring c.status.toNat)
  | some (.job j) => abortJob s id j

/-- An ABORT that meets the common conditions acts on the target it finds. -/
theorem doAbort_admitted {q : Req} {s : State} (h : Admitted s q maskAbort) :
    doAbort q s = abortOn (accepted s q 0x1201) q s.nextJob (abortTarget s q.part.val (BitVec.ofNat 32 (q.u32 16)) s.nextJob) := by
  rw [doAbort, soile_admitted h]
  dsimp only
  rw [abortTarget_accepted]
  cases abortTarget s q.part.val (BitVec.ofNat 32 (q.u32 16)) s.nextJob with
  | none => rfl
  | some target => cases target <;> rfl

/-- A descriptor fetched and not accepted is removed, its completion before the ABORT's. -/
theorem abortOn_fetched (s : State) (q : Req) (f : Fetched) :
    abortOn (accepted s q 0x1201) q s.nextJob (some (.fetched f)) =
      done ({ s with cpls := s.cpls ++ [fetchedCpl s q.part f stAborted] }.setPart q.part.val
        { s.part q.part.val with fetched := (s.part q.part.val).fetched.filter fun g => g.order != f.order }) q 0x1201 stComplete
        (abortBody f.index f.ring stAborted) :=
  finish_on stComplete (abortBody f.index f.ring stAborted) rfl

/-! ### A job, kind by kind -/

/-- A job with an ABORT waiting for its end. -/
def abortWaits (s : State) (id : Nat) (j : Job) : State := s.modJob j.id fun x => { x with abortBy := x.abortBy ++ [id] }

section Kinds

variable {s : State} {id : Nat} {j : Job}

/-- A job of a kind without a stop point goes on. -/
theorem abortJob_unstoppable (h : j.opcode.toNat ∉ [0x0501, 0x0602, 0x0703, 0x0802, 0x0803, 0x0A02, 0x0D01, 0x0D02, 0x0E01]) :
    abortJob s id j = finish s id stNotAbortable (abortBody j.req.index j.req.ring.val 0) := by
  simp only [List.mem_cons, List.not_mem_nil, or_false, not_or] at h
  obtain ⟨hipp, henc, hupload, hupdate, hdestroy, hwait, hcomp, hdecomp, hcrc⟩ := h
  unfold abortJob
  simp only

/-- IPP_RUN, by whether its engine works on it. -/
theorem abortJob_ippRun (hop : j.opcode = 0x0501) : abortJob s id j =
    if ∃ x ∈ s.ipp, ∃ w, x.2 = some w ∧ w.begun = true ∧ w.job = some j.id then abortWaits s id j
    else finish (dropChosen (abortWaits s id j) fun w => w.job == some j.id) j.id stAborted := by
  unfold abortJob
  rw [hop]
  refine if_congr (List.any_eq_true.trans (exists_congr fun x => and_congr_right fun _ => ?_)) rfl rfl
  cases x.2 <;> simp

/-- ENC_PIC, by whether its engine works on it. -/
theorem abortJob_encPic (hop : j.opcode = 0x0602) : abortJob s id j =
    if ∃ x ∈ s.encs, ∃ w, x.2.work = some w ∧ w.job = some j.id then abortWaits s id j else finish (abortWaits s id j) j.id stAborted := by
  unfold abortJob
  rw [hop]
  refine if_congr (List.any_eq_true.trans (exists_congr fun x => and_congr_right fun _ => ?_)) rfl rfl
  cases x.2.work <;> simp

/-- SURF_UPLOAD, by whether it need not wait for an earlier job. -/
theorem abortJob_surfUpload (hop : j.opcode = 0x0703) : abortJob s id j =
    if mayRun s j then abortWaits s id j else uploadEnd (abortWaits s id j) j stAborted := by
  unfold abortJob
  rw [hop]
  rfl

/-- LAYER_UPDATE, by whether it still stands as an update, armed or not. -/
theorem abortJob_layerUpdate (hop : j.opcode = 0x0802) : abortJob s id j =
    match pendingOf s j.id with
    | some (l, p) => if p.armed then abortWaits s id j else dropPending (abortWaits s id j) l p stAborted
    | none => abortWaits s id j := by
  unfold abortJob
  rw [hop]
  rfl

/-- LAYER_DESTROY, by whether its layer still waits for it, armed or not. -/
theorem abortJob_layerDestroy (hop : j.opcode = 0x0803) : abortJob s id j =
    match s.layers.find? fun x => x.2.destroy.contains j.id with
    | some (l, x) => if x.destroyArmed then abortWaits s id j
      else finish ((abortWaits s id j).setLayer l { x with destroy := x.destroy.filter fun i => i != j.id }) j.id stAborted
    | none => abortWaits s id j := by
  unfold abortJob
  rw [hop]
  rfl

/-- FENCE_WAIT is removed, its ring going on. -/
theorem abortJob_fenceWait (hop : j.opcode = 0x0A02) : abortJob s id j = dropWait (abortWaits s id j) j := by
  unfold abortJob
  rw [hop]
  rfl

/-- A DCE job, by whether its engine works on it. -/
theorem abortJob_dce (hop : j.opcode = 0x0D01 ∨ j.opcode = 0x0D02) : abortJob s id j =
    if j.running then abortWaits s id j else finish (abortWaits s id j) j.id stAborted := by
  unfold abortJob
  rcases hop with hop | hop
  · rw [hop]; rfl
  · rw [hop]; rfl

/-- CRC_RUN, by the unit that has it and whether that was granted its tokens. -/
theorem abortJob_crcRun (hop : j.opcode = 0x0E01) : abortJob s id j =
    match (List.range 8).find? fun u => s.crcW u == some j.id with
    | some u => if pwrGranted s (pwrCrc u) then abortWaits s id j
      else crcAssign (finish (pwrEnd ((abortWaits s id j).setCrcW u none) (pwrCrc u)) j.id stAborted)
    | none => finish (abortWaits s id j) j.id stAborted := by
  unfold abortJob
  rw [hop]
  rfl

end Kinds

/-- The ABORT's own job names no surface, so that no job waits for it (R157). -/
theorem mayRun_accepted (s : State) (q : Req) (j : Job) : mayRun (accepted s q 0x1201) j = mayRun s j := by
  have htarget : jobTarget (jobOf s q 0x1201) = none := rfl
  have hsource : jobSource (jobOf s q 0x1201) = none := rfl
  simp [mayRun, accepted, htarget, hsource, sameSurf]

/-- The first unit of the eight that has a job. -/
theorem find_unit_eq_some {s : State} {id k : Nat} (hk : k < 8) (hhas : s.crcW k = some id) (hfirst : ∀ i, i < k → s.crcW i ≠ some id) :
    (List.range 8).find? (fun u => s.crcW u == some id) = some k := by
  rw [List.find?_range_eq_some]
  simpa [hhas, hk] using hfirst

/-! ### The end of a job (R289, R290) -/

theorem finish_sends {s : State} {j : Job} (hone : s.jobs.filter (fun x => x.id == j.id) = [j]) (hy : j.yielded = false) (st : Nat)
    (body : BitVec 128) :
    let late := s.jobs.filter fun x => x.id != j.id && j.abortBy.contains x.id
    (finish s j.id st body).cpls = s.cpls ++ cplOf j (BitVec.ofNat 16 st) body :: late.map (fun a =>
        cplOf a (BitVec.ofNat 16 (if st = stAborted then stComplete else stAbortLate)) (abortBody j.req.index j.req.ring.val st))
      ∧ (finish s j.id st body).jobs = s.jobs.filter (fun x => x.id != j.id && !j.abortBy.contains x.id)
      ∧ { finish s j.id st body with jobs := s.jobs, cpls := s.cpls } = s := by
  have hjob : s.job j.id = some j := by simp [State.job, hone]
  rw [finish_some st body hjob hy]
  refine ⟨?_, ?_, rfl⟩
  · simp only [lateCpls, List.filter_filter, Bool.and_comm]
  · simp only [List.filter_filter, Bool.and_comm]

/-! ### The whole of it -/

/-- Settles O36: an ABORT does to its target what the target's kind gives; the end of a job sends its completion and those that wait for it. -/
theorem aborts : Obligations.Aborts := by
  refine ⟨fun q s h => ?_, fun s j st body hone hy => finish_sends hone hy st body⟩
  intro target
  have hexec : ∀ x, target = x → exec (.abort q) s = .next (abortOn (accepted s q 0x1201) q s.nextJob x) := fun x hx =>
    congrArg Host.Outcome.next ((doAbort_admitted h).trans (congrArg _ hx))
  refine ⟨fun hx => ?none, fun c hx => ?ended, fun f hx => ?fetched, fun j hx => ?job⟩
  case none => exact (hexec _ hx).trans (congrArg _ (finish_accepted s q _ _ _))
  case ended => exact (hexec _ hx).trans (congrArg _ (finish_accepted s q _ _ _))
  case fetched => exact (hexec _ hx).trans (congrArg _ (abortOn_fetched s q f))
  case job =>
    intro u goesOn ends
    have hjob : exec (.abort q) s = .next (abortJob (accepted s q 0x1201) s.nextJob j) := hexec _ hx
    have hbecomes : ∀ v, abortJob (accepted s q 0x1201) s.nextJob j = v → exec (.abort q) s = .next v := fun v hv =>
      hjob.trans (congrArg _ hv)
    refine ⟨fun hop => ?unstoppable, fun hop => ?ipp, fun hop => ?enc, fun hop => ?upload, fun hop => ?update, fun hop => ?destroy,
      fun hop => ?wait, fun hop => ?dce, fun hop => ?crc⟩
    case unstoppable => exact hbecomes _ ((abortJob_unstoppable hop).trans (finish_accepted s q _ _ _))
    case ipp =>
      exact ⟨fun hb => hbecomes _ ((abortJob_ippRun hop).trans (if_pos hb)), fun hb => hbecomes _ ((abortJob_ippRun hop).trans (if_neg hb))⟩
    case enc =>
      exact ⟨fun hb => hbecomes _ ((abortJob_encPic hop).trans (if_pos hb)), fun hb => hbecomes _ ((abortJob_encPic hop).trans (if_neg hb))⟩
    case upload =>
      have hkind := abortJob_surfUpload (s := accepted s q 0x1201) (id := s.nextJob) hop
      rw [mayRun_accepted] at hkind
      exact ⟨fun hr => hbecomes _ (hkind.trans (if_pos hr)), fun hr => hbecomes _ (hkind.trans (if_neg (by simp [hr])))⟩
    case update =>
      have hkind := abortJob_layerUpdate (s := accepted s q 0x1201) (id := s.nextJob) hop
      have hsame : pendingOf (accepted s q 0x1201) j.id = pendingOf s j.id := rfl
      rw [hsame] at hkind
      refine ⟨fun hnone => ?_, fun l p hsome => ⟨fun ha => ?_, fun ha => ?_⟩⟩
      · exact hbecomes _ (by rw [hkind, hnone]; rfl)
      · exact hbecomes _ (by rw [hkind, hsome]; exact if_pos ha)
      · exact hbecomes _ (by rw [hkind, hsome]; exact if_neg (by simp [ha]))
    case destroy =>
      have hkind := abortJob_layerDestroy (s := accepted s q 0x1201) (id := s.nextJob) hop
      have hsame : (accepted s q 0x1201).layers = s.layers := rfl
      rw [hsame] at hkind
      refine ⟨fun hnone => ?_, fun l x hsome => ⟨fun ha => ?_, fun ha => ?_⟩⟩
      · have hfind : s.layers.find? (fun x => x.2.destroy.contains j.id) = none := List.find?_eq_none.mpr (by simpa using hnone)
        exact hbecomes _ (by rw [hkind, hfind]; rfl)
      · exact hbecomes _ (by rw [hkind, hsome]; exact if_pos ha)
      · exact hbecomes _ (by rw [hkind, hsome]; exact if_neg (by simp [ha]))
    case wait => exact hbecomes _ (abortJob_fenceWait hop)
    case dce =>
      exact ⟨fun hr => hbecomes _ ((abortJob_dce hop).trans (if_pos hr)),
        fun hr => hbecomes _ ((abortJob_dce hop).trans (if_neg (by simp [hr])))⟩
    case crc =>
      have hkind := abortJob_crcRun (s := accepted s q 0x1201) (id := s.nextJob) hop
      have hsame : ∀ k, (accepted s q 0x1201).crcW k = s.crcW k := fun k => rfl
      simp only [hsame] at hkind
      refine ⟨fun hnone => ?_, fun k hk hhas hfirst => ⟨fun hg => ?_, fun hg => ?_⟩⟩
      · have hfind : (List.range 8).find? (fun u => s.crcW u == some j.id) = none := List.find?_eq_none.mpr (by simpa using hnone)
        exact hbecomes _ (by rw [hkind, hfind]; rfl)
      · exact hbecomes _ (by rw [hkind, find_unit_eq_some hk hhas hfirst]; exact if_pos hg)
      · have hgranted : pwrGranted (accepted s q 0x1201) (pwrCrc k) = false := hg
        exact hbecomes _ (by rw [hkind, find_unit_eq_some hk hhas hfirst]; exact if_neg (by simp [hgranted]))

end Sys2Proof.Machine

/-!
PROOFS of the host rings family: start and stop of a partition, the manager's register, the PCIe links (R268–R271, R275, R482, R492).
-/

namespace Sys2Proof.Machine

/-! ### Changes of one partition -/

/-- Nothing but partition `p` differs. -/
structure OnlyPart (p : Nat) (s t : State) : Prop where
  others : ∀ o, o ≠ p → t.part o = s.part o
  back   : { t with parts := s.parts } = s

theorem OnlyPart.refl (p : Nat) (s : State) : OnlyPart p s s := ⟨fun _ _ => rfl, rfl⟩

theorem OnlyPart.trans {p : Nat} {s t u : State} (h : OnlyPart p s t) (k : OnlyPart p t u) : OnlyPart p s u := by
  refine ⟨fun o ho => (k.others o ho).trans (h.others o ho), ?_⟩
  calc { u with parts := s.parts }
    _ = { ({ u with parts := t.parts } : State) with parts := s.parts } := rfl
    _ = { t with parts := s.parts } := by rw [k.back]
    _ = s := h.back

theorem onlyPart_setPart (s : State) (p : Nat) (v : Part) : OnlyPart p s (s.setPart p v) :=
  ⟨fun _ ho => State.part_setPart_ne s v ho, rfl⟩

theorem onlyPart_stopSettle (s : State) (p : Nat) : OnlyPart p s (stopSettle s p) := by
  rw [stopSettle_eq]
  split
  · exact onlyPart_setPart s p _
  · exact .refl p s

/-- A partition after the check for the end of STOPPING. -/
theorem part_stopSettle (s : State) (p : Nat) : (stopSettle s p).part p = { s.part p with state := stopEnds s p } := by
  rw [stopSettle_eq, stopEnds]
  split
  · exact State.part_setPart s p _
  · rfl

/-- A change of a partition that leaves its backlog leaves what keeps it in STOPPING. -/
theorem stopBusy_setPart {s : State} {p : Nat} {v : Part} (h : v.backlog = (s.part p).backlog) : stopBusy (s.setPart p v) p = stopBusy s p := by
  rw [stopBusy, State.part_setPart, h]
  rfl

theorem stopEnds_setPart {s : State} {p : Nat} {v : Part} (h : v.backlog = (s.part p).backlog) :
    stopEnds (s.setPart p v) p = if v.state = .stopping ∧ stopBusy s p = false then .bound else v.state := by
  rw [stopEnds, State.part_setPart, stopBusy_setPart h]

/-! ### Start and stop (R270, R275) -/

theorem exec_prtSwStart {a : Access} {p : Fin 16} {s : State} (v : Word) (h : Reaches s a .w (PRT_SW_RUN p.val)) :
    exec (.prtSwStart a p v) s = .next (swRun p.val a v s) := congrArg Host.Outcome.next (regAccess_go h)

theorem exec_prtSwStop {a : Access} {p : Fin 16} {s : State} (v : Word) (h : Reaches s a .w (PRT_SW_RUN p.val)) :
    exec (.prtSwStop a p v) s = .next (swRun p.val a v s) := congrArg Host.Outcome.next (regAccess_go h)

section Run

variable {p : Nat} {a : Access} {v : Word} {s : State}

theorem swRun_stop (h : bitOf v.toNat 1 = true) : swRun p a v s = partStop s p := if_pos h

variable (hstop : bitOf v.toNat 1 = false)
include hstop

theorem swRun_free (hfree : (s.part p).state = .free) : swRun p a v s = s := by
  simp [swRun, hstop, hfree]

theorem swRun_unasked (hbound : (s.part p).state = .bound) (hstart : bitOf v.toNat 0 = false) : swRun p a v s = s := by
  simp [swRun, hstop, hbound, hstart]

theorem swRun_starts (hbound : (s.part p).state = .bound) (hstart : bitOf v.toNat 0 = true) :
    swRun p a v s = if startCause s p = 0 then partStart s p else s.setPart p { s.part p with cause := startCause s p } := by
  simp [swRun, hstop, hbound, hstart]

theorem swRun_recorded (hfree : (s.part p).state ≠ .free) (hbound : (s.part p).state ≠ .bound) :
    swRun p a v s = accessEv s evAccessState a (PRT_SW_RUN p) := by
  unfold swRun
  dsimp only
  rw [hstop, if_neg Bool.false_ne_true]
  cases hstate : (s.part p).state with
  | free => exact absurd hstate hfree
  | bound => exact absurd hstate hbound
  | active => rfl
  | stopping => rfl
  | faulted => rfl

end Run

/-- What an accepted start shows: every index, count and phase of the partition anew, nothing else touched but its count of records. -/
theorem partStart_shows (s : State) (p : Nat) :
    (partStart s p).part p = { s.part p with
        state := .active, cause := 0, starts := (s.part p).starts + 1, rings := [], krings := [], backlog := [], fetched := []
        mirSeq := 0, logCons := 0, logFull := false }
      ∧ (partStart s p).reg (ERR_P_PROD p) = 0 ∧ SameRegsBut [ERR_P_PROD p] s (partStart s p)
      ∧ (∀ o, o ≠ p → (partStart s p).part o = s.part o) ∧ { partStart s p with regs := s.regs, parts := s.parts } = s :=
  ⟨State.part_setPart _ _ _, State.reg_setReg_same s _ _, sameRegsBut_setReg s 0 (by simp), fun _ ho => State.part_setPart_ne _ _ ho, rfl⟩

/-- A stop that lasts or is over at once, by what is left of the partition. -/
theorem partStop_shows {s : State} {p : Nat} (h : (s.part p).state = .active ∨ (s.part p).state = .faulted) :
    (partStop s p).part p = { s.part p with state := if stopBusy s p then .stopping else .bound, fetched := [] }
      ∧ OnlyPart p s (partStop s p) := by
  have hstop : partStop s p = stopSettle (s.setPart p { s.part p with state := .stopping, fetched := [] }) p := if_pos (by simpa using h)
  rw [hstop]
  refine ⟨?_, (onlyPart_setPart s p _).trans (onlyPart_stopSettle _ p)⟩
  rw [part_stopSettle, State.part_setPart, stopEnds_setPart]
  · cases stopBusy s p <;> rfl
  · rfl

theorem partStop_idle {s : State} {p : Nat} (ha : (s.part p).state ≠ .active) (hf : (s.part p).state ≠ .faulted) : partStop s p = s :=
  if_neg (by simp [ha, hf])

/-! ### The manager's register (R271) -/

theorem exec_prtMgrWrite {a : Access} {s : State} (v : Word) (h : Reaches s a .w PRT_MGR) :
    exec (.prtMgrWrite a v) s = .next (mgrWrite a v s) := congrArg Host.Outcome.next (regAccess_go h)

section Manager

variable {a : Access} {v : Word} {s : State}

theorem mgrWrite_refused (h : Level.upper a.level = false) : mgrWrite a v s = (violation s 35 a .w PRT_MGR 0).fails a .w :=
  if_pos (by simp [h])

variable (hup : Level.upper a.level = true)
include hup

theorem mgrWrite_upper : mgrWrite a v s =
    if 16 ≤ bitsOf v.toNat 0 5 ∧ bitsOf v.toNat 0 5 ≠ 31 then s
    else if bitsOf v.toNat 0 5 < 16 ∧ (s.part (bitsOf v.toNat 0 5)).state = .free then
      if 4 < bitsOf v.toNat 8 3 then accessEv s evAccessRange a PRT_MGR
      else plainWrite (s.setPart (bitsOf v.toNat 0 5) { s.part (bitsOf v.toNat 0 5) with state := .bound, port := bitsOf v.toNat 8 3 })
        PRT_MGR v
    else plainWrite s PRT_MGR v := by
  simp [mgrWrite, hup]

theorem mgrWrite_plain (h : bitsOf v.toNat 0 5 = 31 ∨ bitsOf v.toNat 0 5 < 16 ∧ (s.part (bitsOf v.toNat 0 5)).state ≠ .free) :
    mgrWrite a v s = plainWrite s PRT_MGR v := by
  rw [mgrWrite_upper hup]
  rcases h with h | ⟨hlt, hbound⟩
  · rw [if_neg (by omega), if_neg (by omega)]
  · rw [if_neg (by omega), if_neg (by tauto)]

theorem mgrWrite_nobody (hlo : 16 ≤ bitsOf v.toNat 0 5) (hne : bitsOf v.toNat 0 5 ≠ 31) : mgrWrite a v s = s := by
  rw [mgrWrite_upper hup, if_pos ⟨hlo, hne⟩]

theorem mgrWrite_free (hlt : bitsOf v.toNat 0 5 < 16) (hfree : (s.part (bitsOf v.toNat 0 5)).state = .free) : mgrWrite a v s =
    if 4 < bitsOf v.toNat 8 3 then accessEv s evAccessRange a PRT_MGR
    else plainWrite (s.setPart (bitsOf v.toNat 0 5) { s.part (bitsOf v.toNat 0 5) with state := .bound, port := bitsOf v.toNat 8 3 })
      PRT_MGR v := by
  rw [mgrWrite_upper hup, if_neg (by omega), if_pos ⟨hlt, hfree⟩]

end Manager

/-! ### The PCIe links (R268, R269) -/

/-- A field within a field. -/
theorem bitsOf_bitsOf {lo n lo' n' : Nat} (v : Nat) (h : lo' + n' ≤ n) : bitsOf (bitsOf v lo n) lo' n' = bitsOf v (lo + lo') n' := by
  refine Nat.eq_of_testBit_eq fun i => ?_
  rw [testBit_bitsOf, testBit_bitsOf, testBit_bitsOf]
  by_cases hi : i < n'
  · have hin : lo' + i < n := by omega
    simp [hi, hin, Nat.add_assoc]
  · simp [hi]

/-- Whether the link of a port can train at a speed code over a number of lanes (R268). -/
def linkTrains (s : State) (p : Nat) (speed width : BitVec 3) : Prop :=
  s.ctl.core = true ∧ 1 ≤ speed.toNat ∧ speed.toNat ≤ 5 ∧ (width = 1 ∨ width = 2 ∨ width = 4) ∧ ∀ l, l < width.toNat → laneDeaf s p l = false

/-- The port's status with its link up. -/
def linkShown (s : State) (p : Nat) (speed width : BitVec 3) : State :=
  s.setFld (HIF_HP_STATUS p) 0 7 (1 + speed.toNat * 2 + width.toNat * 16)

/-- Its lanes in P0, with the taps of the link's own procedure (R463, R468). -/
def lanesUp (s : State) (p n : Nat) : State := s.each n fun s l => (s.settleTaps p l).setFld (QD_LANE_STATE p l) 4 3 0

theorem width_iff (width : BitVec 3) : ([1, 2, 4] : List Nat).contains width.toNat = true ↔ width = 1 ∨ width = 2 ∨ width = 4 := by
  revert width
  decide

theorem linkTrains_iff (s : State) (p : Nat) (speed width : BitVec 3) :
    (s.ctl.core && decide (1 ≤ speed.toNat) && decide (speed.toNat ≤ 5) && ([1, 2, 4] : List Nat).contains width.toNat
      && (List.range width.toNat).all (fun l => !laneDeaf s p l)) = true ↔ linkTrains s p speed width := by
  simp only [linkTrains, Bool.and_eq_true, decide_eq_true_eq, width_iff, List.all_eq_true, List.mem_range, Bool.not_eq_true', and_assoc]

theorem doHostLinkUp_trains {p : Fin 4} {speed width : BitVec 3} {s : State} (h : linkTrains s p.val speed width) :
    doHostLinkUp p speed width s = lanesUp (linkShown s p.val speed width) p.val width.toNat :=
  if_pos ((linkTrains_iff s p.val speed width).mpr h)

theorem doHostLinkUp_idle {p : Fin 4} {speed width : BitVec 3} {s : State} (h : ¬ linkTrains s p.val speed width) :
    doHostLinkUp p speed width s = s :=
  if_neg (mt (linkTrains_iff s p.val speed width).mp h)

theorem onlyQuads_lanesUp (s : State) (p n : Nat) : OnlyQuads s (lanesUp s p n) := by
  unfold lanesUp State.each
  generalize List.range n = lanes
  induction lanes generalizing s with
  | nil => exact .refl s
  | cons l lanes ih =>
    have hp0 : ∀ t : State, OnlyQuads t (t.setFld (QD_LANE_STATE p l) 4 3 0) := fun t =>
      ⟨fun _ ha => State.reg_setReg_ne t _ (by unfold QD_LANE_STATE; omega), rfl⟩
    exact ((onlyQuads_settleTaps s p l).trans (hp0 _)).trans (ih _)

/-- The status shows the link up, its speed and its width. -/
theorem linkShown_shows {s : State} {p : Nat} {speed width : BitVec 3} (hspeed : speed.toNat ≤ 5) (hwidth : width.toNat ≤ 4) :
    linkUp (linkShown s p speed width) p = true ∧ (linkShown s p speed width).fld (HIF_HP_STATUS p) 1 3 = speed.toNat
      ∧ (linkShown s p speed width).fld (HIF_HP_STATUS p) 4 3 = width.toNat := by
  have hall : (linkShown s p speed width).fld (HIF_HP_STATUS p) 0 7 = 1 + speed.toNat * 2 + width.toNat * 16 := by
    rw [linkShown, State.fld_setFld_same _ _ _ (by decide)]
    omega
  have hpart : ∀ lo n, lo + n ≤ 7 → (linkShown s p speed width).fld (HIF_HP_STATUS p) lo n
      = bitsOf (1 + speed.toNat * 2 + width.toNat * 16) lo n := fun lo n hn => by
    rw [← hall, State.fld, State.fld, bitsOf_bitsOf _ hn, Nat.zero_add]
  have hup : (linkShown s p speed width).fld (HIF_HP_STATUS p) 0 1 = 1 := by
    rw [hpart 0 1 (by decide), bitsOf]
    omega
  refine ⟨?_, ?_, ?_⟩
  · exact beq_iff_eq.mpr hup
  · rw [hpart 1 3 (by decide), bitsOf]
    omega
  · rw [hpart 4 3 (by decide), bitsOf]
    omega

/-- The ACTIVE partitions among the first `n` that stand on a port fault with cause LINK_DOWN (R269). -/
def linkFaults (s : State) (p n : Nat) : State :=
  s.each n fun s i => if (s.part i).state = .active && (s.part i).port = p then faultPart s i 8 else s

theorem linkFaults_succ (s : State) (p n : Nat) : linkFaults s p (n + 1) =
    if ((linkFaults s p n).part n).state = .active && ((linkFaults s p n).part n).port = p then faultPart (linkFaults s p n) n 8
    else linkFaults s p n := by
  unfold linkFaults State.each
  rw [List.range_succ, List.foldl_append]
  rfl

theorem linkFaults_back (s : State) (p n : Nat) : { linkFaults s p n with parts := s.parts } = s := by
  induction n with
  | zero => rfl
  | succ n ih =>
    rw [linkFaults_succ]
    split
    · exact ih
    · exact ih

theorem linkFaults_regs (s : State) (p n : Nat) : (linkFaults s p n).regs = s.regs := (congrArg State.regs (linkFaults_back s p n) :)

theorem reg_linkFaults (s : State) (p n r : Nat) : (linkFaults s p n).reg r = s.reg r :=
  congrArg (tget regReset · r) (linkFaults_regs s p n)

theorem part_linkFaults (s : State) (p n i : Nat) : (linkFaults s p n).part i =
    if i < n ∧ (s.part i).state = .active ∧ (s.part i).port = p then { s.part i with state := .faulted, cause := 8 } else s.part i := by
  induction n with
  | zero => simp [linkFaults, State.each]
  | succ n ih =>
    rw [linkFaults_succ]
    by_cases hi : i = n
    · subst hi
      rw [if_neg (by omega)] at ih
      rw [ih]
      split <;> simp_all [faultPart]
    · have hlt : i < n ↔ i < n + 1 := by omega
      refine Eq.trans ?_ (ih.trans (if_congr (and_congr_left' hlt) rfl rfl))
      split
      · exact State.part_setPart_ne _ _ hi
      · rfl

/-- A port's status with its link down, the loss counted. -/
def linkLost (s : State) (p : Nat) : State := (s.setReg (HIF_HP_STATUS p) 0).inc (HIF_HP_DOWN p)

theorem hostDown_up {s : State} {p : Nat} (hcore : s.ctl.core = true) (hup : linkUp s p = true) :
    hostDown s p = raise (linkFaults (linkLost s p) p 16) evHostLinkDown 1 34 31 [] := if_pos (by simp [hcore, hup])

theorem hostDown_idle {s : State} {p : Nat} (h : s.ctl.core = false ∨ linkUp s p = false) : hostDown s p = s :=
  if_neg (by rcases h with h | h <;> simp [h])

theorem part_linkLost (s : State) (p i : Nat) : (linkLost s p).part i = s.part i := by
  simp only [State.part, linkLost, State.inc_parts, State.setReg_parts]

theorem linkFaults_linkLost_back (s : State) (p n : Nat) : { linkFaults (linkLost s p) p n with regs := s.regs, parts := s.parts } = s :=
  (congrArg (fun x : State => { x with regs := s.regs }) (linkFaults_back (linkLost s p) p n) :)

theorem linkLost_shows (s : State) (p : Nat) :
    (linkLost s p).reg (HIF_HP_STATUS p) = 0 ∧ (linkLost s p).reg (HIF_HP_DOWN p) = (s.inc (HIF_HP_DOWN p)).reg (HIF_HP_DOWN p)
      ∧ SameRegsBut [HIF_HP_STATUS p, HIF_HP_DOWN p] s (linkLost s p) := by
  have hne : HIF_HP_STATUS p ≠ HIF_HP_DOWN p := by unfold HIF_HP_STATUS HIF_HP_DOWN; omega
  refine ⟨?_, ?_, ?_⟩
  · rw [linkLost, State.inc, State.add, State.setFld, State.reg_setReg_ne _ _ hne, State.reg_setReg_same]
  · rw [linkLost, State.reg_inc_same, State.reg_inc_same, State.reg_setReg_ne _ _ (Ne.symm hne)]
  · exact (sameRegsBut_setReg s 0 (by simp)).trans (sameRegsBut_setReg _ _ (by simp))

/-- Settles O33: a start, a stop, the manager's register and the links are the branches of their commands. -/
theorem hostSide : Obligations.HostSide := by
  refine ⟨⟨fun a p v s hr hstop => ⟨fun hbound hstart => ?start, ?idle, ?recorded⟩, fun a p v s hr hstop => ?stop, fun a v s hr => ?mgr⟩,
    fun p speed width s => ?up, fun p s => ?down⟩
  case start =>
    have hexec := (exec_prtSwStart v hr).trans (congrArg _ (swRun_starts (a := a) hstop hbound hstart))
    exact ⟨fun hc => ⟨_, hexec.trans (congrArg _ (if_pos hc)), partStart_shows s p.val⟩, fun hc => hexec.trans (congrArg _ (if_neg hc))⟩
  case idle =>
    rintro (hfree | ⟨hbound, hstart⟩)
    · exact (exec_prtSwStart v hr).trans (congrArg _ (swRun_free hstop hfree))
    · exact (exec_prtSwStart v hr).trans (congrArg _ (swRun_unasked hstop hbound hstart))
  case recorded =>
    exact fun hfree hbound => (exec_prtSwStart v hr).trans (congrArg _ (swRun_recorded hstop hfree hbound))
  case stop =>
    intro x busy
    have hexec := (exec_prtSwStop v hr).trans (congrArg _ (swRun_stop (p := p.val) (a := a) (s := s) hstop))
    refine ⟨fun hruns => ?_, fun ha hf => hexec.trans (congrArg _ (partStop_idle ha hf))⟩
    obtain ⟨hpart, hothers, hback⟩ := partStop_shows hruns
    exact ⟨_, hexec, hpart, hothers, hback⟩
  case mgr =>
    have hexec := exec_prtMgrWrite v hr
    intro p
    refine ⟨fun hlow => hexec.trans (congrArg _ (mgrWrite_refused hlow)), fun hup hp => hexec.trans (congrArg _ (mgrWrite_plain hup hp)),
      fun hup hlo hne => hexec.trans (congrArg _ (mgrWrite_nobody hup hlo hne)), fun hup hlt hfree => ?_⟩
    have hbinds := hexec.trans (congrArg _ (mgrWrite_free hup hlt hfree))
    exact ⟨fun hport => hbinds.trans (congrArg _ (if_neg (not_lt.mpr hport))), fun hport => hbinds.trans (congrArg _ (if_pos hport))⟩
  case up =>
    intro trains
    have hexec : exec (.hostLinkUp p speed width) s = .next (doHostLinkUp p speed width s) := rfl
    refine ⟨fun h => ?_, fun h => hexec.trans (congrArg _ (doHostLinkUp_idle h))⟩
    rw [doHostLinkUp_trains h] at hexec
    obtain ⟨-, -, hspeed, hwidth, -⟩ := h
    obtain ⟨hup, hfast, hwide⟩ := linkShown_shows (s := s) (p := p.val) (width := width) hspeed (by rcases hwidth with rfl | rfl | rfl <;> decide)
    obtain ⟨hregs, hback⟩ := onlyQuads_lanesUp (linkShown s p.val speed width) p.val width.toNat
    have hstatus := hregs (HIF_HP_STATUS p.val) (by unfold HIF_HP_STATUS; omega)
    exact ⟨_, hexec, (State.bit_congr hstatus 0).trans hup, (State.fld_congr hstatus 1 3).trans hfast,
      (State.fld_congr hstatus 4 3).trans hwide, (congrArg (fun x : State => { x with regs := s.regs }) hback :)⟩
  case down =>
    have hexec : exec (.hostLinkDown p) s = .next (hostDown s p.val) := rfl
    refine ⟨fun hcore hup => ?_, fun h => hexec.trans (congrArg _ (hostDown_idle h))⟩
    rw [hostDown_up hcore hup] at hexec
    obtain ⟨hstatus, hcount, hregs⟩ := linkLost_shows s p.val
    have hsame := reg_linkFaults (linkLost s p.val) p.val 16
    refine ⟨_, hexec, (hsame _).trans hstatus, (hsame _).trans hcount, fun i hi => ?_,
      fun r hr => (hsame r).trans (hregs r hr), linkFaults_linkLost_back s p.val 16⟩
    rw [part_linkFaults, part_linkLost]
    exact if_congr (and_iff_right hi) rfl rfl

end Sys2Proof.Machine

/-!
PROOFS of the host rings family: a record written toward a partition's host (R269, R283, R517) — posted on PCIe, lost while the link is
down, stored piece by piece where the gates let all of it pass.
-/

namespace Sys2Proof.Machine

/-! ### A range in its parts (R298) -/

/-- A range is cut alike wherever the regions lie alike. -/
theorem partsOf_of_partKey {s t : State} (hkey : ∀ a, partKey t a = partKey s a) (addr n : Nat) : partsOf t addr n = partsOf s addr n := by
  unfold partsOf
  induction pages addr n with
  | nil => rfl
  | cons p ps ih => simp only [joinPages, ih, hkey]

theorem partsOf_of_stored {s t : State} (h : Stored s t) (addr n : Nat) : partsOf t addr n = partsOf s addr n := by
  obtain ⟨ds, bytes, rfl⟩ := h
  have hkey : ∀ a, partKey { s with desks := ds, mem := bytes } a = partKey s a := fun _ => rfl
  exact partsOf_of_partKey hkey addr n

theorem rangeRes_of_stored {s t : State} (h : Stored s t) : rangeRes t = rangeRes s := by
  obtain ⟨_, _, rfl⟩ := h
  rfl

/-- Parts that follow one another from `a` to `e`. -/
def tiles : Nat → Nat → List (Nat × Nat) → Prop
  | a, e, [] => a = e
  | a, e, p :: ps => p.1 = a ∧ tiles (a + p.2) e ps

theorem tiles_le {a e : Nat} {ps : List (Nat × Nat)} (h : tiles a e ps) : a ≤ e := by
  induction ps generalizing a with
  | nil => exact Nat.le_of_eq h
  | cons p ps ih => exact Nat.le_trans (Nat.le_add_right a p.2) (ih h.2)

theorem tiles_joinPages {a e : Nat} (s : State) {ps : List (Nat × Nat)} (h : tiles a e ps) : tiles a e (joinPages s ps) := by
  induction ps generalizing a with
  | nil => exact h
  | cons p ps ih =>
    obtain ⟨b, n⟩ := p
    obtain ⟨rfl, hrest⟩ := h
    have hjoined := ih hrest
    unfold joinPages
    cases hps : joinPages s ps with
    | nil => exact ⟨rfl, hps ▸ hjoined⟩
    | cons q more =>
      rw [hps] at hjoined
      obtain ⟨c, m⟩ := q
      obtain ⟨rfl, hmore⟩ := hjoined
      dsimp only at hmore ⊢
      split
      · exact ⟨rfl, by rwa [← Nat.add_assoc]⟩
      · exact ⟨rfl, rfl, hmore⟩

/-- The stretches between rising cuts follow one another. -/
theorem tiles_cuts {c : Nat → Nat} (hc : ∀ i, c i ≤ c (i + 1)) (j k : Nat) :
    tiles (c j) (c (j + k)) ((List.range' j k).map fun i => (c i, c (i + 1) - c i)) := by
  induction k generalizing j with
  | zero => rfl
  | succ k ih =>
    refine ⟨rfl, ?_⟩
    dsimp only
    have hstep : c j + (c (j + 1) - c j) = c (j + 1) := by have := hc j; omega
    rw [hstep, show j + (k + 1) = j + 1 + k by omega]
    exact ih (j + 1)

/-- The pages of a range follow one another through it. -/
theorem tiles_pages (a n : Nat) : tiles a (a + n) (pages a n) := by
  by_cases hn : n = 0
  · have hnone : pages a n = [] := by unfold pages; exact if_pos hn
    rw [hnone, hn]
    exact (Nat.add_zero a).symm
  · let c := fun i => Nat.min (a + n) (Nat.max a ((a / 0x1000 + i) * 0x1000))
    have hrise : ∀ i, c i ≤ c (i + 1) := fun i =>
      min_le_min_left (a + n) (max_le_max_left a (Nat.mul_le_mul_right 0x1000 (Nat.le_succ (a / 0x1000 + i))))
    have hpages : pages a n = (List.range' 0 ((a + n - 1) / 0x1000 - a / 0x1000 + 1)).map fun i => (c i, c (i + 1) - c i) := by
      rw [pages, if_neg hn, ← List.range_eq_range']
      refine List.map_congr_left fun i hi => ?_
      have hlast := List.mem_range.mp hi
      have hlo : c i = Nat.max a ((a / 0x1000 + i) * 0x1000) := by
        simp only [c, Nat.min_def, Nat.max_def]
        split_ifs <;> omega
      have hhi : c (i + 1) = Nat.min (a + n) ((a / 0x1000 + i + 1) * 0x1000) := by
        simp only [c, Nat.min_def, Nat.max_def]
        split_ifs <;> omega
      dsimp only
      rw [hlo, hhi]
    have hfirst : c 0 = a := by
      simp only [c, Nat.min_def, Nat.max_def]
      split_ifs <;> omega
    have hend : c (0 + ((a + n - 1) / 0x1000 - a / 0x1000 + 1)) = a + n := by
      simp only [c, Nat.min_def, Nat.max_def]
      split_ifs <;> omega
    have htiles := tiles_cuts hrise 0 ((a + n - 1) / 0x1000 - a / 0x1000 + 1)
    rwa [hfirst, hend, ← hpages] at htiles

theorem tiles_partsOf (s : State) (addr n : Nat) : tiles addr (addr + n) (partsOf s addr n) := tiles_joinPages s (tiles_pages addr n)

/-! ### Stores in parts -/

theorem storeBytes_append (m : List Host.Cell) (a : Nat) (xs ys : Bytes) :
    storeBytes m a (xs ++ ys) = storeBytes (storeBytes m a xs) (a + xs.length) ys := by
  induction xs generalizing m a with
  | nil => rfl
  | cons x xs ih =>
    rw [List.cons_append, storeBytes, storeBytes, ih, List.length_cons, show a + 1 + xs.length = a + (xs.length + 1) by omega]

theorem snoop_mem (a : Access) (addr n : Nat) (s : State) : (snoop a addr n s).mem = s.mem := by
  unfold snoop State.each
  generalize List.range 4 = cores
  induction cores generalizing s with
  | nil => rfl
  | cons k cores ih =>
    refine (ih _).trans ?_
    dsimp only
    split
    · split <;> rfl
    · rfl

/-- Bytes stored part by part are stored as one. -/
theorem storeParts_mem {a : Access} {addr : Nat} {bs : Bytes} {b : Nat} {ps : List (Nat × Nat)} {s : State} (hb : addr ≤ b)
    (htiles : tiles b (addr + bs.length) ps) (hok : ∀ p ∈ ps, (memDec s a .w p.1).1 = .ok) :
    (storeParts a addr bs s ps).mem = storeBytes s.mem b (bs.drop (b - addr)) := by
  induction ps generalizing b s with
  | nil =>
    have hend : b = addr + bs.length := htiles
    rw [hend, Nat.add_sub_cancel_left, List.drop_length]
    rfl
  | cons p ps ih =>
    obtain ⟨rfl, hrest⟩ := htiles
    have hin := tiles_le hrest
    have hnow := hok p List.mem_cons_self
    have hstored := (stored_snoop a p.1 p.2 s).trans (stored_store _ p.1 ((bs.drop (p.1 - addr)).take p.2))
    have hlen : ((bs.drop (p.1 - addr)).take p.2).length = p.2 := by
      rw [List.length_take, List.length_drop]
      omega
    have hsplit : (bs.drop (p.1 - addr)).take p.2 ++ bs.drop (p.1 + p.2 - addr) = bs.drop (p.1 - addr) := by
      rw [show p.1 + p.2 - addr = p.1 - addr + p.2 by omega, ← List.drop_drop, List.take_append_drop]
    have hlater := ih (s := (snoop a p.1 p.2 s).store p.1 ((bs.drop (p.1 - addr)).take p.2)) (by omega) hrest fun q hq => by
      rw [memDec_of_stored hstored]
      exact hok q (List.mem_cons_of_mem p hq)
    calc (storeParts a addr bs s (p :: ps)).mem
      _ = (storeParts a addr bs ((snoop a p.1 p.2 s).store p.1 ((bs.drop (p.1 - addr)).take p.2)) ps).mem := by
        rw [storeParts, List.foldl_cons, if_pos hnow]
        rfl
      _ = storeBytes (storeBytes (snoop a p.1 p.2 s).mem p.1 ((bs.drop (p.1 - addr)).take p.2)) (p.1 + p.2) (bs.drop (p.1 + p.2 - addr)) := hlater
      _ = storeBytes s.mem p.1 (bs.drop (p.1 - addr)) := by
        have happend := storeBytes_append s.mem p.1 ((bs.drop (p.1 - addr)).take p.2) (bs.drop (p.1 + p.2 - addr))
        rw [hlen, hsplit] at happend
        rw [snoop_mem, happend]

/-- A write whose parts all pass stores all its bytes. -/
theorem storeParts_partsOf_mem {a : Access} {addr : Nat} {bs : Bytes} {s : State}
    (hok : rangeRes s a .w (partsOf s addr bs.length) = .ok) :
    (storeParts a addr bs s (partsOf s addr bs.length)).mem = (s.store addr bs).mem := by
  have hstored := storeParts_mem (Nat.le_refl addr) (tiles_partsOf s addr bs.length) (memDec_of_rangeRes_ok hok)
  rwa [Nat.sub_self, List.drop_zero] at hstored

/-! ### Pieces of a record through the gates -/

theorem mustWait_of_rangeRes_ok {s : State} {a : Access} {t : AccType} {ps : List (Nat × Nat)} (h : rangeRes s a t ps = .ok) :
    ∀ p ∈ ps, mustWait s { acc := a, typ := t, addr := p.1, len := p.2 } = false := by
  unfold rangeRes at h
  extract_lets rs at h
  intro p hp
  split at h
  · cases h
  · rename_i hgoes
    rw [Bool.or_eq_true, not_or] at hgoes
    simpa using fun hwait => hgoes.2 (List.any_eq_true.mpr ⟨p, hp, hwait⟩)

/-- A write on its own whose parts all pass is stored at once, whatever would follow it. -/
theorem queueWrite_ok {rz : Raiser} {s : State} {a : Access} {addr : Nat} {bs : Bytes} (after : After)
    (h : rangeRes s a .w (partsOf s addr bs.length) = .ok) :
    queueWrite rz s a addr bs after = (storeParts a addr bs s (partsOf s addr bs.length), .ok) := by
  have hdec := memDec_of_rangeRes_ok h
  have hgoes : ∀ p ∈ partsOf s addr bs.length,
      partWaits s { acc := a, typ := .w, addr := addr, len := bs.length, after := after } p = false := fun p hp => by
    have hwait : mustWait s { acc := a, typ := .w, addr := p.1, len := p.2, after := after } = false := mustWait_of_rangeRes_ok h p hp
    simp only [partWaits, hdec p hp, hwait]
    rfl
  have hwait : (partsOf s addr bs.length).filter
      (partWaits s { acc := a, typ := .w, addr := addr, len := bs.length, after := after }) = [] :=
    List.filter_eq_nil_iff.mpr fun p hp => by simp [hgoes p hp]
  have hnow : (partsOf s addr bs.length).filter
      (fun p => !partWaits s { acc := a, typ := .w, addr := addr, len := bs.length, after := after } p) = partsOf s addr bs.length :=
    List.filter_eq_self.mpr fun p hp => by simp [hgoes p hp]
  have hnote : noteParts rz a .w (storeParts a addr bs s (partsOf s addr bs.length)) (partsOf s addr bs.length)
      = storeParts a addr bs s (partsOf s addr bs.length) :=
    noteParts_of_ok fun p hp => by rw [memDec_of_stored (stored_storeParts _ _ _ _ _)]; exact hdec p hp
  have hfind : ((partsOf s addr bs.length).map fun p => (memDec s a .w p.1).1).find? (fun r => r != .ok) = none :=
    List.find?_eq_none.mpr fun r hr => by
      obtain ⟨p, hp, rfl⟩ := List.mem_map.mp hr
      simp [hdec p hp]
  unfold queueWrite
  dsimp only
  rw [hwait, hnow, hnote, hfind, List.map_nil, List.append_nil]
  rfl

/-- Pieces stored one after another, each in its parts. -/
def piecesStored (a : Access) (base : Nat) (ws : List (Nat × Bytes)) (s : State) : State :=
  ws.foldl (fun r w => storeParts a (base + w.1) w.2 r (partsOf r (base + w.1) w.2.length)) s

/-- Whether the gates let all pieces pass. -/
def piecesPass (s : State) (a : Access) (base : Nat) (ws : List (Nat × Bytes)) : Prop :=
  ∀ w ∈ ws, rangeRes s a .w (partsOf s (base + w.1) w.2.length) = .ok

theorem stored_piecesStored (a : Access) (base : Nat) (ws : List (Nat × Bytes)) (s : State) : Stored s (piecesStored a base ws s) :=
  stored_foldl (fun _ _ => stored_storeParts _ _ _ _ _) ws s

theorem piecesPass_of_stored {s t : State} {a : Access} {base : Nat} {ws : List (Nat × Bytes)} (h : Stored s t) (hok : piecesPass s a base ws) :
    piecesPass t a base ws := fun w hw => by
  rw [rangeRes_of_stored h, partsOf_of_stored h]
  exact hok w hw

/-- The memory after pieces that pass is that of plain stores. -/
theorem piecesStored_mem {a : Access} {base : Nat} {ws : List (Nat × Bytes)} {s r : State} (hok : piecesPass s a base ws)
    (hmem : s.mem = r.mem) : (piecesStored a base ws s).mem = (ws.foldl (fun r w => r.store (base + w.1) w.2) r).mem := by
  induction ws generalizing s r with
  | nil => exact hmem
  | cons w ws ih =>
    have hstored := stored_storeParts a (base + w.1) w.2 s (partsOf s (base + w.1) w.2.length)
    refine ih (piecesPass_of_stored hstored fun v hv => hok v (List.mem_cons_of_mem w hv)) ?_
    rw [storeParts_partsOf_mem (hok w List.mem_cons_self)]
    exact congrArg (storeBytes · (base + w.1) w.2) hmem

/-- One piece of a record, after what came of those before it. -/
def pieceWritten (rz : Raiser) (a : Access) (base : Nat) (after : After) (r : State × AccRes) (w : Nat × Bytes) : State × AccRes :=
  let x := queueWrite rz r.1 a (base + w.1) w.2 after
  (x.1, if r.2 = .ok || (r.2 = .held && x.2 != .ok) then x.2 else r.2)

theorem pieceWritten_ok {rz : Raiser} {a : Access} {base : Nat} {s : State} {w : Nat × Bytes} (after : After)
    (h : rangeRes s a .w (partsOf s (base + w.1) w.2.length) = .ok) :
    pieceWritten rz a base after (s, .ok) w = (storeParts a (base + w.1) w.2 s (partsOf s (base + w.1) w.2.length), .ok) := by
  unfold pieceWritten
  dsimp only
  rw [queueWrite_ok after h]
  rfl

theorem foldl_pieceWritten_ok {rz : Raiser} {a : Access} {base : Nat} {ws : List (Nat × Bytes)} {s : State} (after : After)
    (h : piecesPass s a base ws) : ws.foldl (pieceWritten rz a base after) (s, .ok) = (piecesStored a base ws s, .ok) := by
  induction ws generalizing s with
  | nil => rfl
  | cons w ws ih =>
    rw [List.foldl_cons, pieceWritten_ok after (h w List.mem_cons_self)]
    exact ih (piecesPass_of_stored (stored_storeParts _ _ _ _ _) fun v hv => h v (List.mem_cons_of_mem w hv))

/-! ### A record toward a partition's host -/

theorem partWrite_internal {rz : Raiser} {s : State} {count : Bool} {p slot base : Nat} {ws : List (Nat × Bytes)} {z : Nat × Bytes} {cpl : Bool}
    (hport : onPcie s p = false) : partWrite rz s count p slot base (ws ++ [z]) cpl =
      pieceWritten rz (engine slot p) base (if cpl then .cpl p else .fault p) (ws.foldl (pieceWritten rz (engine slot p) base (.fault p)) (s, .ok)) z := by
  have hp4 : ¬ (s.part p).port < 4 := of_decide_eq_false hport
  unfold partWrite
  dsimp only
  rw [if_neg hp4, List.getLast?_concat, List.dropLast_concat]
  rfl

/-- A record whose pieces all pass is stored (R517). -/
theorem partWrite_stores {rz : Raiser} {s : State} {count : Bool} {p slot base : Nat} {ws : List (Nat × Bytes)} {cpl : Bool}
    (hport : onPcie s p = false) (hok : piecesPass s (engine slot p) base ws) :
    partWrite rz s count p slot base ws cpl = (piecesStored (engine slot p) base ws s, .ok) := by
  rcases List.eq_nil_or_concat ws with rfl | ⟨init, z, rfl⟩
  · have hp4 : ¬ (s.part p).port < 4 := of_decide_eq_false hport
    exact if_neg hp4
  · rw [List.concat_eq_append] at hok ⊢
    have hinit : piecesPass s (engine slot p) base init := fun w hw => hok w (List.mem_append_left _ hw)
    have hlast : rangeRes (piecesStored (engine slot p) base init s) (engine slot p) .w
        (partsOf (piecesStored (engine slot p) base init s) (base + z.1) z.2.length) = .ok :=
      piecesPass_of_stored (stored_piecesStored (engine slot p) base init s) hok z (by simp)
    rw [partWrite_internal hport, foldl_pieceWritten_ok _ hinit, pieceWritten_ok _ hlast, piecesStored, piecesStored, List.foldl_append]
    rfl

theorem foldl_emit {α : Type} (f : α → Out) (xs : List α) (s : State) :
    xs.foldl (fun s x => s.emit (f x)) s = { s with outbox := s.outbox ++ xs.map f } := by
  induction xs generalizing s with
  | nil => simp
  | cons x xs ih => rw [List.foldl_cons, ih]; simp [State.emit]

/-- On PCIe a record is posted, piece by piece (R269). -/
theorem partWrite_posts {rz : Raiser} {s : State} {count : Bool} {p slot base : Nat} {ws : List (Nat × Bytes)} {cpl : Bool}
    (hport : onPcie s p = true) (hup : linkUp s (s.part p).port = true) :
    partWrite rz s count p slot base ws cpl =
      ({ s with outbox := s.outbox ++ ws.map fun w => Out.hostWrite (s.part p).port (BitVec.ofNat 64 (base + w.1)) w.2 }, .ok) := by
  have hp4 : (s.part p).port < 4 := of_decide_eq_true hport
  unfold partWrite
  dsimp only
  rw [if_pos hp4, if_pos hup, foldl_emit]

/-- While the link is down it is lost, and counted (R269). -/
theorem partWrite_lost {rz : Raiser} {s : State} {p slot base : Nat} {ws : List (Nat × Bytes)} {cpl : Bool} (hgone : hostGone s p = true) :
    partWrite rz s true p slot base ws cpl = (s.inc (HIF_HP_DROPPED (s.part p).port), .unmapped) := by
  obtain ⟨hport, hdown⟩ := Bool.and_eq_true_iff.mp hgone
  have hp4 : (s.part p).port < 4 := of_decide_eq_true hport
  unfold partWrite
  dsimp only
  rw [if_pos hp4, if_neg (by simpa using hdown)]
  rfl

end Sys2Proof.Machine

/-!
PROOFS of the host rings family: completions on their way to the host — written, dropped, kept in the backlog (R269, R282–R284, R289).
-/

namespace Sys2Proof.Machine

section

variable {p : Nat} {s t : State} (h : OnlyPart p s t)
include h

theorem OnlyPart.regs : t.regs = s.regs := (congrArg State.regs h.back :)
theorem OnlyPart.mem : t.mem = s.mem := (congrArg State.mem h.back :)
theorem OnlyPart.jobs : t.jobs = s.jobs := (congrArg State.jobs h.back :)
theorem OnlyPart.cpls : t.cpls = s.cpls := (congrArg State.cpls h.back :)
theorem OnlyPart.heldAcc : t.heldAcc = s.heldAcc := (congrArg State.heldAcc h.back :)
theorem OnlyPart.outbox : t.outbox = s.outbox := (congrArg State.outbox h.back :)
theorem OnlyPart.reg (a : Nat) : t.reg a = s.reg a := congrArg (tget _ · a) h.regs

end

section

variable {s t : State} (h : EvcOnly s t)
include h

theorem EvcOnly.mem : t.mem = s.mem := (congrArg State.mem h.back :)
theorem EvcOnly.jobs : t.jobs = s.jobs := (congrArg State.jobs h.back :)
theorem EvcOnly.cpls : t.cpls = s.cpls := (congrArg State.cpls h.back :)
theorem EvcOnly.heldAcc : t.heldAcc = s.heldAcc := (congrArg State.heldAcc h.back :)
theorem EvcOnly.outbox : t.outbox = s.outbox := (congrArg State.outbox h.back :)
theorem EvcOnly.parts : t.parts = s.parts := (congrArg State.parts h.back :)
theorem EvcOnly.part (p : Nat) : t.part p = s.part p := congrArg (tget _ · p) h.parts

end

/-! ### One completion written (R283) -/

/-- A partition with one completion more in a ring. -/
def withWritten (y : Part) (r : Nat) : Part := setKring y r { kring y r with written := (kring y r).written + 1 }

theorem stopEnds_withWritten (s : State) (p r : Nat) : stopEnds (s.setPart p (withWritten (s.part p) r)) p = stopEnds s p := by
  rw [stopEnds_setPart]
  · rfl
  · rfl

/-- Where the next completion of a ring goes. -/
def cplAddr (s : State) (p r : Nat) : Nat := cplBase s p r + 32 * ((kring (s.part p) r).written.toNat % 2 ^ cplLog s p r)

/-- The pieces in which a completion is written next. -/
def nextPieces (s : State) (c : Cpl) : List (Nat × Bytes) :=
  cplPieces c (kring (s.part c.part) c.cring).written.toNat (cplLog s c.part c.cring)

section Write

variable {v : State} {c : Cpl}

theorem writeCpl_gone (h : hostGone v c.part = true) : writeCpl v c = v.inc (HIF_HP_DROPPED (v.part c.part).port) := by
  unfold writeCpl
  dsimp only
  rw [if_pos h, partWrite_lost h]

theorem linkUp_of_hostGone (hgone : hostGone v c.part = false) (hport : onPcie v c.part = true) :
    linkUp v (v.part c.part).port = true := by
  rw [hostGone, hport, Bool.true_and] at hgone
  simpa using hgone

/-- A completion whose write is made moves its ring's index; on HP4 it raises the partition's source. -/
theorem writeCpl_made {w : State} (hgone : hostGone v c.part = false)
    (hw : partWrite (raiseN 3) v true c.part 34 (cplAddr v c.part c.cring) (nextPieces v c) true = (w, .ok))
    (hpart : w.part c.part = v.part c.part) :
    writeCpl v c = if onPcie v c.part then w.setPart c.part (withWritten (v.part c.part) c.cring)
      else evcPulse (w.setPart c.part (withWritten (v.part c.part) c.cring)) (25 + c.part) := by
  have hport : onPcie (w.setPart c.part (withWritten (v.part c.part) c.cring)) c.part = onPcie v c.part := by
    rw [onPcie, State.part_setPart]
    rfl
  unfold cplAddr nextPieces at hw
  unfold writeCpl
  dsimp only
  rw [if_neg (by simp [hgone]), hw]
  dsimp only
  rw [hpart, ← hport]
  rfl

theorem writeCpl_posted (hgone : hostGone v c.part = false) (hport : onPcie v c.part = true) :
    writeCpl v c = ({ v with
        outbox := v.outbox ++ (nextPieces v c).map fun w =>
          Out.hostWrite (v.part c.part).port (BitVec.ofNat 64 (cplAddr v c.part c.cring + w.1)) w.2 } : State).setPart c.part
      (withWritten (v.part c.part) c.cring) := by
  rw [writeCpl_made hgone (partWrite_posts hport (linkUp_of_hostGone hgone hport)) rfl, if_pos hport]

/-- A completion whose pieces the gates let pass, in memory. -/
def cplStored (v : State) (c : Cpl) : State := piecesStored (engine 34 c.part) (cplAddr v c.part c.cring) (nextPieces v c) v

theorem writeCpl_stored (hgone : hostGone v c.part = false) (hport : onPcie v c.part = false)
    (hpass : piecesPass v (engine 34 c.part) (cplAddr v c.part c.cring) (nextPieces v c)) :
    writeCpl v c = evcPulse ((cplStored v c).setPart c.part (withWritten (v.part c.part) c.cring)) (25 + c.part) := by
  have hpart : (cplStored v c).part c.part = v.part c.part := by
    obtain ⟨_, _, hst⟩ := stored_piecesStored (engine 34 c.part) (cplAddr v c.part c.cring) (nextPieces v c) v
    rw [cplStored, hst]
    rfl
  rw [writeCpl_made hgone (partWrite_stores hport hpass) hpart, if_neg (by simp [hport]), cplStored]

/-! ### What a written completion leaves, STOPPING ended or not -/

/-- Dropped: counted, and no index of the partition moves (R269). -/
theorem settle_dropped (hgone : hostGone v c.part = true) :
    let t := stopSettle (writeCpl v c) c.part
    t.part c.part = { v.part c.part with state := stopEnds v c.part } ∧ (∀ o, o ≠ c.part → t.part o = v.part o)
      ∧ t.reg (HIF_HP_DROPPED (v.part c.part).port) = (v.inc (HIF_HP_DROPPED (v.part c.part).port)).reg (HIF_HP_DROPPED (v.part c.part).port)
      ∧ SameRegsBut [HIF_HP_DROPPED (v.part c.part).port] v t ∧ { t with regs := v.regs, parts := v.parts } = v := by
  rw [writeCpl_gone hgone]
  generalize HIF_HP_DROPPED (v.part c.part).port = a
  intro t
  have hsettle := onlyPart_stopSettle (v.inc a) c.part
  refine ⟨part_stopSettle _ _, hsettle.others, hsettle.reg a, fun b hb => (hsettle.reg b).trans (State.setFld_sameRegsBut v a 0 32 _ b hb), ?_⟩
  exact (congrArg (fun u : State => { u with regs := v.regs }) hsettle.back :)

/-- Posted: the ring's index moves, and the writes leave in order. -/
theorem settle_posted (hgone : hostGone v c.part = false) (hport : onPcie v c.part = true) :
    let t := stopSettle (writeCpl v c) c.part
    t.part c.part = { withWritten (v.part c.part) c.cring with state := stopEnds v c.part } ∧ (∀ o, o ≠ c.part → t.part o = v.part o)
      ∧ t.outbox = v.outbox ++ (nextPieces v c).map (fun w =>
        Out.hostWrite (v.part c.part).port (BitVec.ofNat 64 (cplAddr v c.part c.cring + w.1)) w.2)
      ∧ { t with parts := v.parts, outbox := v.outbox } = v := by
  rw [writeCpl_posted hgone hport]
  generalize v.outbox ++ _ = out
  intro t
  have honly := (onlyPart_setPart { v with outbox := out } c.part (withWritten (v.part c.part) c.cring)).trans
    (onlyPart_stopSettle (({ v with outbox := out } : State).setPart c.part (withWritten (v.part c.part) c.cring)) c.part)
  refine ⟨?_, honly.others, honly.outbox, (congrArg (fun u : State => { u with outbox := v.outbox }) honly.back :)⟩
  have hends : stopEnds (({ v with outbox := out } : State).setPart c.part (withWritten (v.part c.part) c.cring)) c.part = stopEnds v c.part :=
    stopEnds_withWritten { v with outbox := out } c.part c.cring
  rw [part_stopSettle, hends, State.part_setPart]

/-- Stored: the ring's index moves, the pieces are in memory, and the partition's source is raised. -/
theorem settle_stored (hgone : hostGone v c.part = false) (hport : onPcie v c.part = false)
    (hpass : piecesPass v (engine 34 c.part) (cplAddr v c.part c.cring) (nextPieces v c)) :
    let t := stopSettle (writeCpl v c) c.part
    t.part c.part = { withWritten (v.part c.part) c.cring with state := stopEnds v c.part } ∧ (∀ o, o ≠ c.part → t.part o = v.part o)
      ∧ t.mem = (cplStored v c).mem ∧ t.outbox = v.outbox ∧ t.cpls = v.cpls ∧ t.jobs = v.jobs ∧ t.heldAcc = v.heldAcc
      ∧ SameRegsBut (EVC_MERGED :: evcRegs) v t := by
  rw [writeCpl_stored hgone hport hpass]
  obtain ⟨ds, bytes, hst⟩ := stored_piecesStored (engine 34 c.part) (cplAddr v c.part c.cring) (nextPieces v c) v
  rw [cplStored, hst]
  generalize hw : ({ v with desks := ds, mem := bytes } : State).setPart c.part (withWritten (v.part c.part) c.cring) = w
  intro t
  have hset := onlyPart_setPart { v with desks := ds, mem := bytes } c.part (withWritten (v.part c.part) c.cring)
  have hown : w.part c.part = withWritten (v.part c.part) c.cring := by rw [← hw, State.part_setPart]
  have hends : stopEnds w c.part = stopEnds v c.part := by rw [← hw]; exact stopEnds_withWritten _ _ _
  rw [hw] at hset
  have hpulse := evcOnly_evcPulse w (25 + c.part)
  have hsettle := onlyPart_stopSettle (evcPulse w (25 + c.part)) c.part
  have hends' : stopEnds (evcPulse w (25 + c.part)) c.part = stopEnds w c.part := by
    rw [stopEnds, stopEnds, stopBusy, stopBusy, hpulse.part, hpulse.jobs, hpulse.cpls, hpulse.heldAcc]
  refine ⟨?_, fun o ho => (hsettle.others o ho).trans ((hpulse.part o).trans (hset.others o ho)),
    (hsettle.mem.trans hpulse.mem).trans hset.mem, (hsettle.outbox.trans hpulse.outbox).trans hset.outbox,
    (hsettle.cpls.trans hpulse.cpls).trans hset.cpls, (hsettle.jobs.trans hpulse.jobs).trans hset.jobs,
    (hsettle.heldAcc.trans hpulse.heldAcc).trans hset.heldAcc,
    fun a ha => ((hsettle.reg a).trans (hpulse.regs a ha)).trans (hset.reg a)⟩
  rw [part_stopSettle, hends', hends, hpulse.part, hown]

end Write

end Sys2Proof.Machine

/-!
PROOFS of the host rings family: the next completion that can move, and the backlog's oldest (R269, R282–R284, R289).
-/

namespace Sys2Proof.Machine

/-! ### The next completion (R284) -/

theorem takeFirst_eq_none {α : Type} {f : α → Bool} {l : List α} (h : ∀ x ∈ l, f x = false) : takeFirst f l = none := by
  induction l with
  | nil => rfl
  | cons x xs ih => rw [takeFirst, h x List.mem_cons_self, ih fun y hy => h y (List.mem_cons_of_mem x hy)]; rfl

theorem fireSignals_idle {s : State} (h : ∀ j ∈ s.jobs, j.opcode ≠ 0x0A01) : fireSignals s = s := by
  have hnone : (s.jobs.filter fun j => j.opcode.toNat == 0x0A01) = [] := List.filter_eq_nil_iff.mpr fun j hj hop =>
    h j hj (BitVec.eq_of_toNat_eq (by simpa using hop))
  unfold fireSignals
  rw [hnone]
  rfl

theorem placeCpl_unlogged {s : State} {c : Cpl} (h : (s.part c.part).state.logs = false) : placeCpl s c = s := by
  simp [placeCpl, h]

theorem placeCpl_writes {s : State} {c : Cpl} (hlogs : (s.part c.part).state.logs = true)
    (h : hostGone s c.part = true ∨ (s.part c.part).backlog = [] ∧ cplRoom s c.part c.cring = true) : placeCpl s c = writeCpl s c := by
  have hgoes : (hostGone s c.part || ((s.part c.part).backlog.isEmpty && cplRoom s c.part c.cring)) = true := by
    simpa using h
  unfold placeCpl
  dsimp only
  rw [hlogs, hgoes]
  rfl

theorem placeCpl_waits {s : State} {c : Cpl} (hlogs : (s.part c.part).state.logs = true) (hgone : hostGone s c.part = false)
    (h : (s.part c.part).backlog ≠ [] ∨ cplRoom s c.part c.cring = false) :
    placeCpl s c = s.setPart c.part { s.part c.part with backlog := (s.part c.part).backlog ++ [c] } := by
  have hstays : (hostGone s c.part || ((s.part c.part).backlog.isEmpty && cplRoom s c.part c.cring)) = false := by
    rw [hgone, Bool.false_or, Bool.and_eq_false_iff]
    exact h.imp_left fun hb => by simpa using hb
  unfold placeCpl
  dsimp only
  rw [hlogs, hstays]
  rfl

theorem stopSettle_unlogged {s : State} {p : Nat} (h : (s.part p).state.logs = false) : stopSettle s p = s := by
  rw [stopSettle_eq, if_neg]
  rintro ⟨hstop, -⟩
  rw [hstop] at h
  cases h

theorem exec_jobCompletion (s : State) : exec .jobCompletion s = .next (doJobCompletion s) := rfl

theorem exec_backlogWrite (p : Fin 16) (s : State) : exec (.backlogWrite p) s = .next (doBacklogWrite p s) := rfl

section Next

variable {s : State} {c : Cpl} {rest : List Cpl} (hcore : s.ctl.core = true) (htake : takeFirst (cplMoves s) s.cpls = some (c, rest))
include hcore htake

theorem doJobCompletion_places : doJobCompletion s = stopSettle (fireSignals (placeCpl { s with cpls := rest } c)) c.part := by
  unfold doJobCompletion
  rw [hcore, htake]
  rfl

/-- Where no FENCE_SIGNAL waits, a completion that is placed goes no further than its partition (R214). -/
theorem doJobCompletion_settles {u : State} (hidle : ∀ j ∈ s.jobs, j.opcode ≠ 0x0A01) (hplace : placeCpl { s with cpls := rest } c = u)
    (hjobs : u.jobs = s.jobs) : doJobCompletion s = stopSettle u c.part := by
  rw [doJobCompletion_places hcore htake, hplace, fireSignals_idle (by rwa [hjobs])]

end Next

theorem writeCpl_jobs {v : State} {c : Cpl}
    (h : hostGone v c.part = true ∨ onPcie v c.part = true
      ∨ piecesPass v (engine 34 c.part) (cplAddr v c.part c.cring) (nextPieces v c)) : (writeCpl v c).jobs = v.jobs := by
  cases hgone : hostGone v c.part with
  | true => exact (congrArg State.jobs (writeCpl_gone hgone) :)
  | false =>
    cases hport : onPcie v c.part with
    | true => exact (congrArg State.jobs (writeCpl_posted hgone hport) :)
    | false =>
      have hpass := (h.resolve_left (by simp [hgone])).resolve_left (by simp [hport])
      obtain ⟨_, _, hst⟩ := stored_piecesStored (engine 34 c.part) (cplAddr v c.part c.cring) (nextPieces v c) v
      rw [writeCpl_stored hgone hport hpass, (evcOnly_evcPulse _ _).jobs, cplStored, hst]
      rfl

/-- The gates and the regions do not look at completions or partitions. -/
theorem piecesPass_congr {s t : State} {a : Access} {base : Nat} {ws : List (Nat × Bytes)} (hres : rangeRes t a .w = rangeRes s a .w)
    (hkey : ∀ x, partKey t x = partKey s x) (h : piecesPass s a base ws) : piecesPass t a base ws := fun w hw => by
  rw [partsOf_of_partKey hkey, hres]
  exact h w hw

theorem piecesPass_cpls {s : State} {a : Access} {base : Nat} {ws : List (Nat × Bytes)} (l : List Cpl) (h : piecesPass s a base ws) :
    piecesPass { s with cpls := l } a base ws := piecesPass_congr (s := s) rfl (fun _ => rfl) h

theorem piecesPass_setPart {s : State} {a : Access} {base : Nat} {ws : List (Nat × Bytes)} (p : Nat) (v : Part) (h : piecesPass s a base ws) :
    piecesPass (s.setPart p v) a base ws := piecesPass_congr (s := s) rfl (fun _ => rfl) h

/-! ### The backlog's oldest (R284) -/

section Backlog

variable {p : Fin 16} {c : Cpl} {rest : List Cpl} {s : State} (hcore : s.ctl.core = true) (hback : (s.part p.val).backlog = c :: rest)
include hcore hback

theorem doBacklogWrite_unlogged (hlogs : (s.part p.val).state.logs = false) :
    doBacklogWrite p s = s.setPart p.val { s.part p.val with backlog := rest } := by
  unfold doBacklogWrite
  dsimp only
  rw [hcore, hback, hlogs]
  rfl

theorem doBacklogWrite_writes (hlogs : (s.part p.val).state.logs = true) (h : hostGone s p.val = true ∨ cplRoom s p.val c.cring = true) :
    doBacklogWrite p s = stopSettle (writeCpl (s.setPart p.val { s.part p.val with backlog := rest }) { c with part := p.val }) p.val := by
  have hgoes : (hostGone s p.val || cplRoom s p.val c.cring) = true := by simpa using h
  unfold doBacklogWrite
  dsimp only
  rw [hcore, hback, hlogs]
  exact if_pos hgoes

theorem doBacklogWrite_waits (hlogs : (s.part p.val).state.logs = true) (hgone : hostGone s p.val = false)
    (hroom : cplRoom s p.val c.cring = false) : doBacklogWrite p s = s := by
  simp [doBacklogWrite, hcore, hback, hlogs, hgone, hroom]

end Backlog

/-- A partition's oldest held completion taken out. -/
def backlogOut (s : State) (p : Nat) (rest : List Cpl) : State := s.setPart p { s.part p with backlog := rest }

theorem backlogOut_part (s : State) (p : Nat) (rest : List Cpl) : (backlogOut s p rest).part p = { s.part p with backlog := rest } :=
  State.part_setPart s p _

theorem hostGone_backlogOut (s : State) (p : Nat) (rest : List Cpl) : hostGone (backlogOut s p rest) p = hostGone s p := by
  rw [hostGone, onPcie, backlogOut_part]
  rfl

theorem onPcie_backlogOut (s : State) (p : Nat) (rest : List Cpl) : onPcie (backlogOut s p rest) p = onPcie s p := by
  rw [onPcie, backlogOut_part]
  rfl

theorem cplAddr_backlogOut (s : State) (p r : Nat) (rest : List Cpl) : cplAddr (backlogOut s p rest) p r = cplAddr s p r := by
  rw [cplAddr, backlogOut_part]
  rfl

theorem nextPieces_backlogOut (s : State) (p : Nat) (c : Cpl) (rest : List Cpl) :
    nextPieces (backlogOut s p rest) { c with part := p } = nextPieces s { c with part := p } := by
  rw [nextPieces, backlogOut_part]
  rfl

/-- The state a partition whose oldest held completion left goes on to. -/
def backlogEnds (s : State) (p : Nat) (rest : List Cpl) : PartState :=
  if (s.part p).state = .stopping ∧ ((s.jobs.any fun j => j.req.part.val == p) || (s.cpls.any fun c => c.part == p) || !rest.isEmpty
    || (s.heldAcc.any fun h => h.after == .cpl p)) = false then .bound else (s.part p).state

theorem stopEnds_backlogOut (s : State) (p : Nat) (rest : List Cpl) : stopEnds (backlogOut s p rest) p = backlogEnds s p rest := by
  rw [stopEnds, stopBusy, backlogOut_part]
  rfl

theorem withWritten_backlog (x : Part) (r : Nat) (rest : List Cpl) :
    withWritten { x with backlog := rest } r = { withWritten x r with backlog := rest } := rfl

/-- The write of a partition's oldest held completion, and the end of STOPPING where it was the last. -/
def backlogWritten (s : State) (p : Nat) (c : Cpl) (rest : List Cpl) : State :=
  stopSettle (writeCpl (backlogOut s p rest) { c with part := p }) p

theorem exec_backlogWrite_writes {p : Fin 16} {c : Cpl} {rest : List Cpl} {s : State} (hcore : s.ctl.core = true)
    (hback : (s.part p.val).backlog = c :: rest) (hlogs : (s.part p.val).state.logs = true)
    (h : hostGone s p.val = true ∨ cplRoom s p.val c.cring = true) :
    exec (.backlogWrite p) s = .next (backlogWritten s p.val c rest) := by
  rw [exec_backlogWrite, doBacklogWrite_writes hcore hback hlogs h]
  rfl

/-- What is put back under a change of the partitions alone is put back under both changes. -/
theorem regsBack_under {s v t : State} (h : { t with regs := v.regs, parts := v.parts } = v) (hv : { v with parts := s.parts } = s) :
    { t with regs := s.regs, parts := s.parts } = s :=
  calc { t with regs := s.regs, parts := s.parts }
    _ = { ({ t with regs := v.regs, parts := v.parts } : State) with regs := s.regs, parts := s.parts } := rfl
    _ = { ({ v with parts := s.parts } : State) with regs := s.regs } := by rw [h]
    _ = s := by rw [hv]

theorem outboxBack_under {s v t : State} (h : { t with parts := v.parts, outbox := v.outbox } = v) (hv : { v with parts := s.parts } = s) :
    { t with parts := s.parts, outbox := s.outbox } = s :=
  calc { t with parts := s.parts, outbox := s.outbox }
    _ = { ({ t with parts := v.parts, outbox := v.outbox } : State) with parts := s.parts, outbox := s.outbox } := rfl
    _ = { ({ v with parts := s.parts } : State) with outbox := s.outbox } := by rw [h]
    _ = s := by rw [hv]

section Held

variable {s : State} {p : Nat} {c : Cpl} {rest : List Cpl}

theorem backlog_dropped (hgone : hostGone s p = true) :
    (backlogWritten s p c rest).part p = { s.part p with backlog := rest, state := backlogEnds s p rest }
      ∧ (∀ o, o ≠ p → (backlogWritten s p c rest).part o = s.part o)
      ∧ (backlogWritten s p c rest).reg (HIF_HP_DROPPED (s.part p).port)
        = (s.inc (HIF_HP_DROPPED (s.part p).port)).reg (HIF_HP_DROPPED (s.part p).port)
      ∧ SameRegsBut [HIF_HP_DROPPED (s.part p).port] s (backlogWritten s p c rest)
      ∧ { backlogWritten s p c rest with regs := s.regs, parts := s.parts } = s := by
  obtain ⟨hpart, hothers, hcount, hregs, hsame⟩ := settle_dropped (v := backlogOut s p rest) (c := { c with part := p })
    ((hostGone_backlogOut s p rest).trans hgone)
  rw [backlogOut_part] at hpart hcount hregs
  rw [stopEnds_backlogOut] at hpart
  exact ⟨hpart, fun o ho => (hothers o ho).trans (State.part_setPart_ne s _ ho), hcount, hregs, regsBack_under hsame rfl⟩

theorem backlog_posted (hgone : hostGone s p = false) (hport : onPcie s p = true) :
    (backlogWritten s p c rest).part p = { withWritten (s.part p) c.cring with backlog := rest, state := backlogEnds s p rest }
      ∧ (∀ o, o ≠ p → (backlogWritten s p c rest).part o = s.part o)
      ∧ (backlogWritten s p c rest).outbox = s.outbox ++ (nextPieces s { c with part := p }).map (fun w =>
        Out.hostWrite (s.part p).port (BitVec.ofNat 64 (cplAddr s p c.cring + w.1)) w.2)
      ∧ { backlogWritten s p c rest with parts := s.parts, outbox := s.outbox } = s := by
  obtain ⟨hpart, hothers, hout, hsame⟩ := settle_posted (v := backlogOut s p rest) (c := { c with part := p })
    ((hostGone_backlogOut s p rest).trans hgone) ((onPcie_backlogOut s p rest).trans hport)
  rw [backlogOut_part, stopEnds_backlogOut, withWritten_backlog] at hpart
  rw [backlogOut_part, nextPieces_backlogOut, cplAddr_backlogOut] at hout
  exact ⟨hpart, fun o ho => (hothers o ho).trans (State.part_setPart_ne s _ ho), hout, outboxBack_under hsame rfl⟩

theorem backlog_stored (hgone : hostGone s p = false) (hport : onPcie s p = false)
    (hpass : piecesPass s (engine 34 p) (cplAddr s p c.cring) (nextPieces s { c with part := p })) :
    (backlogWritten s p c rest).part p = { withWritten (s.part p) c.cring with backlog := rest, state := backlogEnds s p rest }
      ∧ (∀ o, o ≠ p → (backlogWritten s p c rest).part o = s.part o)
      ∧ (backlogWritten s p c rest).mem
        = ((nextPieces s { c with part := p }).foldl (fun r w => r.store (cplAddr s p c.cring + w.1) w.2) s).mem
      ∧ (backlogWritten s p c rest).outbox = s.outbox ∧ (backlogWritten s p c rest).cpls = s.cpls
      ∧ (backlogWritten s p c rest).jobs = s.jobs ∧ (backlogWritten s p c rest).heldAcc = s.heldAcc
      ∧ SameRegsBut (EVC_MERGED :: evcRegs) s (backlogWritten s p c rest) := by
  have hpass' : piecesPass (backlogOut s p rest) (engine 34 p) (cplAddr s p c.cring) (nextPieces s { c with part := p }) :=
    piecesPass_setPart p { s.part p with backlog := rest } hpass
  obtain ⟨hpart, hothers, hmem, hrest⟩ := settle_stored (v := backlogOut s p rest) (c := { c with part := p })
    ((hostGone_backlogOut s p rest).trans hgone) ((onPcie_backlogOut s p rest).trans hport)
    (by rw [nextPieces_backlogOut, cplAddr_backlogOut]; exact hpass')
  rw [backlogOut_part, stopEnds_backlogOut, withWritten_backlog] at hpart
  rw [cplStored, nextPieces_backlogOut, cplAddr_backlogOut] at hmem
  exact ⟨hpart, fun o ho => (hothers o ho).trans (State.part_setPart_ne s _ ho), hmem.trans (piecesStored_mem hpass' rfl), hrest⟩

end Held

/-- Settles O34: a completion is dropped, written or kept by what its partition, its link and its ring allow; what a written one leaves is one
lemma for the engine's own and for the backlog's oldest. -/
theorem completions : Obligations.Completions := by
  unfold Obligations.Completions
  refine ⟨?_, ?_, ?_, ?_⟩
  · intro c rest s hcore htake hidle x u left ends n base pieces
    have hrun : ∀ {w : State}, placeCpl u c = w → w.jobs = s.jobs → exec .jobCompletion s = .next (stopSettle w c.part) := fun hplace hjobs => by
      rw [exec_jobCompletion, doJobCompletion_settles hcore htake hidle hplace hjobs]
    refine ⟨fun hlogs => ?_, fun hlogs hgone => ?_, fun hlogs hgone hnone hroom => ⟨fun hport => ?_, fun hport hpass => ?_⟩,
      fun hlogs hgone hwait => ?_⟩
    · rw [hrun (placeCpl_unlogged hlogs) rfl, stopSettle_unlogged (s := u) hlogs]
    · exact ⟨_, hrun (placeCpl_writes hlogs (.inl hgone)) (writeCpl_jobs (v := u) (.inl hgone)), settle_dropped (v := u) hgone⟩
    · exact ⟨_, hrun (placeCpl_writes hlogs (.inr ⟨hnone, hroom⟩)) (writeCpl_jobs (v := u) (.inr (.inl hport))),
        settle_posted (v := u) hgone hport⟩
    · have hpass' : piecesPass u (engine 34 c.part) (cplAddr u c.part c.cring) (nextPieces u c) := piecesPass_cpls rest hpass
      obtain ⟨hpart, hothers, hmem, hrest⟩ := settle_stored (v := u) hgone hport hpass'
      exact ⟨_, hrun (placeCpl_writes hlogs (.inr ⟨hnone, hroom⟩)) (writeCpl_jobs (v := u) (.inr (.inr hpass'))),
        hpart, hothers, hmem.trans (piecesStored_mem hpass' rfl), hrest⟩
    · have hbusy : stopBusy (u.setPart c.part { x with backlog := x.backlog ++ [c] }) c.part = true := by
        rw [stopBusy, State.part_setPart]
        simp
      exact (hrun (placeCpl_waits hlogs hgone hwait) rfl).trans (congrArg Host.Outcome.next (stopSettle_busy hbusy))
  · intro s h
    rw [exec_jobCompletion]
    rcases h with hcore | hstay
    · simp [doJobCompletion, hcore]
    · simp [doJobCompletion, takeFirst_eq_none hstay]
  · intro p c rest s hcore hback x left ends n base pieces
    refine ⟨fun hlogs => ?_, fun hlogs hgone => ?_, fun hlogs hgone hroom => ⟨fun hport => ?_, fun hport hpass => ?_⟩,
      fun hlogs hgone hroom => ?_⟩
    · rw [exec_backlogWrite, doBacklogWrite_unlogged hcore hback hlogs]
    · exact ⟨_, exec_backlogWrite_writes hcore hback hlogs (.inl hgone), backlog_dropped hgone⟩
    · exact ⟨_, exec_backlogWrite_writes hcore hback hlogs (.inr hroom), backlog_posted hgone hport⟩
    · exact ⟨_, exec_backlogWrite_writes hcore hback hlogs (.inr hroom), backlog_stored hgone hport hpass⟩
    · rw [exec_backlogWrite, doBacklogWrite_waits hcore hback hlogs hgone hroom]
  · intro p s h
    rw [exec_backlogWrite]
    rcases h with hcore | hnone
    · simp [doBacklogWrite, hcore]
    · simp [doBacklogWrite, hnone]

end Sys2Proof.Machine

/-!
PROOFS of the host rings family: what an event leaves of the command rings (R279, R288). A doorbell read goes on after a ring that stops and
after an ABORT that runs; whatever those bring — records, refused writes, messages — either the unit is in YIELD, where fetching ends, or the
rings' registers and fetch indices stand. The frame of the composition family covers other registers and no partition.
-/

namespace Sys2Proof.Machine

/-! ### What fetching looks at -/

/-- The mode, the windows of the partitions and the fetch indices are those of before. -/
structure RingsSame (s t : State) : Prop where
  mode  : t.ctl.mode = s.ctl.mode
  regs  : ∀ a, 0xF00000 ≤ a → t.reg a = s.reg a
  fetch : ∀ p r, (cring (t.part p) r).fetch = (cring (s.part p) r).fetch

/-- Fetching finds all as it was, or finds YIELD. -/
def KeepsRings (s t : State) : Prop := t.ctl.mode = .yield ∨ RingsSame s t

theorem RingsSame.of_eq {s t : State} (hm : t.ctl.mode = s.ctl.mode) (hr : t.regs = s.regs) (hp : t.parts = s.parts) : RingsSame s t :=
  ⟨hm, fun a _ => congrArg (tget regReset · a) hr, fun p r => congrArg (fun ps => (cring (tget (fun _ => {}) ps p) r).fetch) hp⟩

theorem KeepsRings.refl (s : State) : KeepsRings s s := .inr ⟨rfl, fun _ _ => rfl, fun _ _ => rfl⟩

theorem KeepsRings.yields {s t : State} (h : KeepsRings s t) (hs : s.ctl.mode = .yield) : t.ctl.mode = .yield :=
  h.elim id fun k => k.mode.trans hs

theorem KeepsRings.trans {s t u : State} (h : KeepsRings s t) (k : KeepsRings t u) : KeepsRings s u := by
  rcases h with hyield | h
  · exact .inl (k.yields hyield)
  · refine k.imp_right fun k => ⟨k.mode.trans h.mode, fun a ha => (k.regs a ha).trans (h.regs a ha), fun p r => (k.fetch p r).trans (h.fetch p r)⟩

/-- A change of none of the three. -/
theorem KeepsRings.quiet {s t : State} (hm : t.ctl.mode = s.ctl.mode) (hr : t.regs = s.regs) (hp : t.parts = s.parts) : KeepsRings s t :=
  .inr (.of_eq hm hr hp)

/-- The same with what follows it. -/
theorem KeepsRings.after {s t u : State} (k : KeepsRings t u) (hm : t.ctl.mode = s.ctl.mode) (hr : t.regs = s.regs) (hp : t.parts = s.parts) :
    KeepsRings s u := (KeepsRings.quiet hm hr hp).trans k

theorem KeepsRings.ite {s t u : State} {c : Prop} [Decidable c] (ht : KeepsRings s t) (hu : KeepsRings s u) :
    KeepsRings s (if c then t else u) := by
  split
  · exact ht
  · exact hu

theorem KeepsRings.foldl {α : Type} {f : State → α → State} (h : ∀ s x, KeepsRings s (f s x)) (xs : List α) (s : State) :
    KeepsRings s (xs.foldl f s) := by
  induction xs generalizing s with
  | nil => exact .refl s
  | cons x xs ih => exact (h s x).trans (ih _)

theorem KeepsRings.foldl_fst {α β : Type} {f : State × β → α → State × β} (h : ∀ r x, KeepsRings r.1 (f r x).1) (xs : List α)
    (r : State × β) : KeepsRings r.1 (xs.foldl f r).1 := by
  induction xs generalizing r with
  | nil => exact .refl r.1
  | cons x xs ih => exact (h r x).trans (ih _)

/-! ### Registers below the windows, and partitions -/

section Registers

variable {a : Nat} (s : State) (ha : a < 0xF00000)
include ha

theorem keepsRings_setReg (v : Word) : KeepsRings s (s.setReg a v) :=
  .inr ⟨rfl, fun b hb => State.reg_setReg_ne s v (by omega), fun _ _ => rfl⟩

theorem keepsRings_setFld (lo n v : Nat) : KeepsRings s (s.setFld a lo n v) := keepsRings_setReg s ha _

theorem keepsRings_inc : KeepsRings s (s.inc a) := keepsRings_setReg s ha _

theorem keepsRings_setPair {b : Nat} (hb : b < 0xF00000) (v : Nat) : KeepsRings s (s.setPair a b v) :=
  (keepsRings_setReg s ha _).trans (keepsRings_setReg _ hb _)

end Registers

/-- A partition with the fetch indices it had. -/
theorem keepsRings_setPart {s : State} {p : Nat} {v : Part} (h : ∀ r, (cring v r).fetch = (cring (s.part p) r).fetch) :
    KeepsRings s (s.setPart p v) := by
  refine .inr ⟨rfl, fun _ _ => rfl, fun o r => ?_⟩
  by_cases ho : o = p
  · rw [ho, State.part_setPart, h]
  · rw [State.part_setPart_ne s v ho]

/-- What the event controller changes. -/
theorem KeepsRings.of_evcOnly {s t : State} (h : EvcOnly s t) : KeepsRings s t := by
  have hlist : ∀ b ∈ EVC_MERGED :: evcRegs, b < 0xF00000 := by decide
  have hctl : t.ctl = s.ctl := (congrArg State.ctl h.back :)
  exact .inr ⟨congrArg Ctl.mode hctl, fun a ha => h.regs a fun hmem => Nat.not_le_of_lt (hlist a hmem) ha, fun p r => by rw [h.part]⟩

/-! ### Accesses of memory -/

theorem KeepsRings.of_stored {s t : State} (h : Stored s t) : KeepsRings s t := by
  obtain ⟨_, _, rfl⟩ := h
  exact .quiet rfl rfl rfl

theorem keepsRings_capture (s : State) (g : Nat) (a : Access) (t : AccType) (addr extra : Nat) : KeepsRings s (capture s g a t addr extra) := by
  have hinfo : capInfoReg g < 0xF00000 ∧ capCountReg g < 0xF00000 := by
    unfold capInfoReg capCountReg GATE_PS_CAP_INFO GATE_MG_CAP_INFO GATE_FIX_CAP_INFO GATE_PS_COUNT GATE_MG_COUNT GATE_FIX_COUNT
    split_ifs <;> omega
  have hoff : g < 70 → GATE_PS_CAP_OFF g < 0xF00000 := by
    unfold GATE_PS_CAP_OFF
    omega
  have haddr : g < 78 → GATE_MG_CAP_LO (g - 70) < 0xF00000 ∧ GATE_MG_CAP_HI (g - 70) < 0xF00000 := by
    unfold GATE_MG_CAP_LO GATE_MG_CAP_HI
    omega
  have hfix : GATE_FIX_CAP_LO < 0xF00000 ∧ GATE_FIX_CAP_HI < 0xF00000 := by decide
  unfold capture
  extract_lets counted captured
  have hcount : KeepsRings s counted := keepsRings_inc s hinfo.2
  have hcapt : KeepsRings s captured := hcount.trans (keepsRings_setReg _ hinfo.1 _)
  refine .ite hcount ?_
  split_ifs with hps hmg
  · exact hcapt.trans (keepsRings_setReg _ (hoff hps) _)
  · exact hcapt.trans (keepsRings_setPair _ (haddr hmg).1 (haddr hmg).2 _)
  · exact hcapt.trans (keepsRings_setPair _ hfix.1 hfix.2 _)

section Raising

variable {rz : Raiser} (hz : ∀ s ev cls slot part det supp, KeepsRings s (rz s ev cls slot part det supp))
include hz

theorem keepsRings_limited (s : State) (key ev cls slot part det : Nat) : KeepsRings s (limited rz s key ev cls slot part det) := by
  unfold limited
  split
  · exact .ite (.quiet rfl rfl rfl) ((hz _ _ _ _ _ _ _).after rfl rfl rfl)
  · exact (hz _ _ _ _ _ _ _).after rfl rfl rfl

theorem keepsRings_noteParts (a : Access) (t : AccType) (s : State) (ps : List (Nat × Nat)) : KeepsRings s (noteParts rz a t s ps) := by
  refine .foldl (fun s p => ?_) ps s
  dsimp only
  split
  · exact ((keepsRings_capture s _ a t _ _).trans (.of_evcOnly (evcOnly_evcInput _ 47 true))).trans (keepsRings_limited hz _ _ _ _ _ _ _)
  · exact hz s _ _ _ _ _ _
  · exact .refl s

theorem keepsRings_queueWrite (s : State) (a : Access) (addr : Nat) (bs : Bytes) (after : After) :
    KeepsRings s (queueWrite rz s a addr bs after).1 := by
  unfold queueWrite
  extract_lets h ps wait now res u
  have hu : KeepsRings s u := (KeepsRings.of_stored (stored_storeParts a addr bs s now)).trans (keepsRings_noteParts hz a .w _ now)
  exact hu.trans (.quiet rfl rfl rfl)

theorem keepsRings_partWrite (s : State) (count : Bool) (p slot base : Nat) (ws : List (Nat × Bytes)) (cpl : Bool) :
    KeepsRings s (partWrite rz s count p slot base ws cpl).1 := by
  unfold partWrite
  extract_lets port put
  have hput : ∀ r w after, KeepsRings r.1 (put r w after).1 := fun r w after => keepsRings_queueWrite hz r.1 _ _ _ after
  split
  next hport =>
    have hdropped : HIF_HP_DROPPED port < 0xF00000 := by
      unfold HIF_HP_DROPPED
      omega
    split
    · refine .foldl (fun s w => ?_) ws s
      exact .quiet rfl rfl rfl
    · exact .ite (keepsRings_inc s hdropped) (.refl s)
  next =>
    split
    · exact .refl s
    · exact (KeepsRings.foldl_fst (fun r w => hput r w _) _ (s, .ok)).trans (hput _ _ _)

theorem keepsRings_logPart {p : Nat} (hp : p < 16) (s : State) (r : LogRec) : KeepsRings s (logPart rz s p r) := by
  unfold logPart
  extract_lets q n m base bs x left counted
  have hx : KeepsRings s x.1 := keepsRings_partWrite hz s _ _ _ _ _ _
  have hcounted : KeepsRings s counted := by
    refine keepsRings_setFld s ?_ _ _ _
    split
    · unfold ERR_P_OVF0; omega
    · unfold ERR_P_OVF1; omega
  refine .ite (.ite ?_ (.ite hx ?_)) (.ite ?_ hcounted)
  · exact hx.trans ((keepsRings_setReg _ (by unfold ERR_P_PROD; omega) _).trans (keepsRings_setPart fun _ => rfl))
  · exact hx.trans (keepsRings_setPart fun _ => rfl)
  · refine (hcounted.trans ?_).trans (hz _ _ _ _ _ _ _)
    exact keepsRings_setPart fun _ => rfl

end Raising

theorem keepsRings_logGlobal (s : State) (r : LogRec) : KeepsRings s (logGlobal s r) := by
  unfold logGlobal
  extract_lets n u
  have hu : KeepsRings s u := .quiet rfl rfl rfl
  refine .ite (.refl s) (.ite ?_ ?_)
  · exact hu.trans ((keepsRings_setReg _ (by decide) _).trans (.of_evcOnly (evcOnly_evcPulse _ 46)))
  · refine keepsRings_setFld s ?_ _ _ _
    split
    · decide
    · decide

/-! ### Messages -/

theorem keepsRings_setPort (s : State) (p : Nat) (v : ChnPort) : KeepsRings s (s.setPort p v) := .quiet rfl rfl rfl

theorem keepsRings_emit (s : State) (o : Out) : KeepsRings s (s.emit o) := .quiet rfl rfl rfl

theorem keepsRings_freeFlits (s : State) (p c n : Nat) (tell : Bool) : KeepsRings s (freeFlits s p c n tell) := by
  have hack : ∀ t : State, KeepsRings t (sendAck t p) := fun t => (keepsRings_setPort t p _).trans (keepsRings_emit _ _)
  have hs := keepsRings_setPort s p { s.port p with recv := (s.port p).recv.set c ((s.port p).recv.getD c 0 + n) }
  exact .ite (.refl s) (.ite (hs.trans (hack _)) hs)

theorem keepsRings_startCls (s : State) (p c : Nat) : KeepsRings s (startCls s p c) := by
  have hmark : ∀ way m seq, KeepsRings s (markSend s p way m seq) := fun way m seq => .ite (.refl s) (.quiet rfl rfl rfl)
  unfold startCls
  extract_lets q
  refine .ite (.refl s) ?_
  split
  · exact .refl s
  · exact .ite ((hmark _ _ _).trans (keepsRings_setPort _ p _)) (.refl s)

section Port

variable {p : Nat} (hp : p < 2)
include hp

theorem keepsRings_sendOne (s : State) (c : Nat) : KeepsRings s (sendOne s p c) := by
  have hflit : ∀ (t : State) code bs, KeepsRings t (sendFlit t p code bs) := fun t code bs =>
    ((keepsRings_setPort t p _).trans (keepsRings_inc _ (by unfold CHN_P_TX_FLITS; omega))).trans (keepsRings_emit _ _)
  unfold sendOne
  extract_lets q
  split
  · exact ((keepsRings_setPort s p _).trans (hflit _ _ _)).trans (.ite (keepsRings_freeFlits _ _ _ _ _) (.refl _))
  · exact .refl s

theorem keepsRings_pump (fuel : Nat) (s : State) : KeepsRings s (pump fuel s p) := by
  induction fuel generalizing s with
  | zero => exact .refl s
  | succ fuel ih =>
    unfold pump
    refine .ite (.refl s) ?_
    extract_lets started
    have hstarted : KeepsRings s started := .foldl (fun s c => keepsRings_startCls s p c) _ s
    split
    · exact hstarted.trans ((keepsRings_sendOne hp _ _).trans (ih _))
    · exact hstarted

theorem keepsRings_portSend (s : State) (way : Way) (m : Msg) : KeepsRings s (portSend s p way m) := by
  have hfreed := KeepsRings.ite (c := way = .held) (keepsRings_freeFlits s (1 - p) m.cls m.flits true) (.refl s)
  exact .ite (hfreed.trans (keepsRings_inc _ (by unfold CHN_P_DEADEND; omega))) ((keepsRings_setPort s p _).trans (keepsRings_pump hp _ _))

end Port

theorem keepsRings_broadcast (s : State) (kind hdr : Nat) (body : Bytes) : KeepsRings s (broadcast s kind hdr body) :=
  ((keepsRings_portSend (p := 0) (by decide) _ .own _).trans (keepsRings_portSend (p := 1) (by decide) _ .own _)).after rfl rfl rfl

theorem keepsRings_sendTo (s : State) (a kind hdr : Nat) (body : Bytes) : KeepsRings s (sendTo s a kind hdr body) := by
  have hport : (if (newMsg s kind a false hdr body).1.bit CHN_ROUTE a then 0 else 1) < 2 := by split <;> decide
  exact (keepsRings_portSend hport _ .own _).after rfl rfl rfl

theorem keepsRings_sendLogical (s : State) (id kind hdr : Nat) (body : Bytes) : KeepsRings s (sendLogical s id kind hdr body) := by
  unfold sendLogical
  split
  · exact keepsRings_sendTo s _ kind hdr body
  · exact keepsRings_inc s (by decide)

theorem keepsRings_sendSlot (s : State) (dst kind hdr : Nat) (body : Bytes) : KeepsRings s (sendSlot s dst kind hdr body) :=
  (keepsRings_sendLogical s dst kind hdr body).trans (.foldl (fun s a => keepsRings_sendTo s a kind hdr body) _ _)

/-! ### The entry into YIELD -/

theorem Stored.ctl {s t : State} (h : Stored s t) : t.ctl = s.ctl := by
  obtain ⟨_, _, rfl⟩ := h
  rfl

theorem voidFill_ctl (s : State) (slot p a n : Nat) : (voidFill s slot p a n).ctl = s.ctl :=
  (stored_storeParts (engine slot p) a _ (s.draws n) (pages a n)).ctl

theorem ctl_ite {c : Prop} [Decidable c] {s t u : State} (ht : t.ctl = s.ctl) (hu : u.ctl = s.ctl) : (if c then t else u).ctl = s.ctl := by
  split
  · exact ht
  · exact hu

theorem dceCount_ctl (s : State) (e st consumed produced : Nat) : (dceCount s e st consumed produced).ctl = s.ctl := by
  unfold dceCount
  extract_lets jobs failed full check read
  have hfailed : failed.ctl = s.ctl := ctl_ite rfl rfl
  have hfull : full.ctl = s.ctl := ctl_ite hfailed hfailed
  have hcheck : check.ctl = s.ctl := ctl_ite hfull hfull
  rw [State.setPair_ctl, State.setPair_ctl, hcheck]

theorem dceStop_ctl (s : State) (e : Nat) (j : Job) (src : Option Bytes) : (dceStop s e j src).1.ctl = s.ctl := by
  unfold dceStop
  extract_lets q p open_ drawn voided comp fin
  have hvoided : voided.ctl = s.ctl := by
    unfold voided
    split
    · exact voidFill_ctl _ _ _ _ _
    · rfl
  have hfin : ∀ consumed produced crc check, (fin consumed produced crc check).1.ctl = s.ctl := fun _ _ _ _ =>
    (dceCount_ctl _ _ _ _ _).trans hvoided
  split
  · exact hfin _ _ _ _
  · extract_lets had out out'
    split
    · exact hfin _ _ _ _
    · exact hfin _ _ _ _

theorem cutJob_ctl (s : State) (j : Job) : (cutJob s j).ctl = s.ctl := by
  unfold cutJob
  split
  · exact dceStop_ctl s _ j _
  · rfl
  · rfl

theorem yieldJobs_ctl (cut : Bool) (s : State) : (yieldJobs cut s).ctl = s.ctl := by
  have hcut : ∀ (js : List Job) (s : State), (js.foldl cutJob s).ctl = s.ctl := fun js => by
    induction js with
    | nil => exact fun _ => rfl
    | cons j js ih => exact fun s => (ih _).trans (cutJob_ctl s j)
  unfold yieldJobs
  extract_lets u on aborts stays chain rdn v
  have hu : u.ctl = s.ctl := by
    unfold u
    split
    · exact hcut _ _
    · rfl
  clear_value u
  exact hu

theorem pinsOff_ctl (s : State) (p : Nat) : (pinsOff s p).ctl = s.ctl := ctl_ite rfl rfl

theorem thermalHalt_ctl (s : State) : (thermalHalt s).ctl = s.ctl := by
  have hstop : ∀ (ps : List Nat) (s : State), (ps.foldl pllStop s).ctl = s.ctl := fun ps => by
    induction ps with
    | nil => exact fun _ => rfl
    | cons p ps ih => exact fun s => (ih _).trans rfl
  exact hstop _ _

/-- The entry into YIELD ends in YIELD. -/
theorem enterYield_mode (s : State) (ev cls part det : Nat) : (enterYield s ev cls part det).ctl.mode = .yield := by
  unfold enterYield
  extract_lets noted captured left ctl yielding stopped held cleared
  have hyielding : yielding.ctl.mode = .yield := rfl
  clear_value yielding
  have hpins : ∀ t : State, (t.each 2 pinsOff).ctl = t.ctl := fun t => (pinsOff_ctl _ 1).trans (pinsOff_ctl t 0)
  have hhalted : (if ev = 0x82 then thermalHalt yielding else yielding).ctl = yielding.ctl := ctl_ite (thermalHalt_ctl yielding) rfl
  have hdark : ∀ t : State, (allDark t).ctl = t.ctl := fun _ => rfl
  have hnorm : ∀ t : State, t.norm.ctl = t.ctl := fun _ => rfl
  have hstopped : stopped.ctl = yielding.ctl :=
    (((hpins _).trans (hnorm _)).trans (yieldJobs_ctl _ _)).trans ((hdark _).trans hhalted)
  have hcleared : cleared.ctl.mode = .yield := (congrArg Ctl.mode hstopped).trans hyielding
  exact (keepsRings_broadcast _ _ _ _).yields hcleared

/-! ### Events and reads -/

/-- An event, whatever it brings, leaves the rings or YIELD. -/
theorem keepsRings_raiseN (n : Nat) (s : State) (ev cls slot part det supp : Nat) : KeepsRings s (raiseN n s ev cls slot part det supp) := by
  induction n generalizing s ev cls slot part det supp with
  | zero => exact .refl s
  | succ n ih =>
    unfold raiseN recordEv
    extract_lets y r logged noted
    have hnoted : KeepsRings s noted := by
      refine (keepsRings_logGlobal s r).trans ?_
      by_cases hp : part < 16
      · rw [show noted = logPart (raiseN n) logged part r from if_pos hp]
        exact keepsRings_logPart ih hp _ _
      · rw [show noted = logged from if_neg hp]
        exact .refl _
    exact .ite (.refl s) (.ite hnoted (.ite (hnoted.trans (.quiet rfl rfl rfl)) (.inl (enterYield_mode _ _ _ _ _))))

theorem keepsRings_engRead (s : State) (slot p addr n : Nat) : KeepsRings s (engRead s slot p addr n).1 := by
  unfold engRead memRead
  extract_lets ps res
  split
  · exact .refl s
  · exact keepsRings_noteParts (keepsRings_raiseN 3) _ _ s ps

end Sys2Proof.Machine

/-!
PROOFS of the host rings family: what an ABORT leaves of the command rings (R290). Its target may be an upload whose end starts a transfer, so
that it sends bands and reads memory; all of it keeps what fetching looks at, or ends in YIELD.
-/

namespace Sys2Proof.Machine

theorem keepsRings_accepted (s : State) (q : Req) (op : Nat) : KeepsRings s (accepted s q op) := .quiet rfl rfl rfl

theorem keepsRings_modJob (s : State) (id : Nat) (f : Job → Job) : KeepsRings s (s.modJob id f) := .quiet rfl rfl rfl

theorem keepsRings_finish (s : State) (id st : Nat) (body : BitVec 128) : KeepsRings s (finish s id st body) := by
  unfold finish
  split
  · exact .refl s
  · exact .ite (.quiet rfl rfl rfl) (.quiet rfl rfl rfl)

/-! ### The power arbiter -/

theorem keepsRings_pwrRequest (s : State) (id tokens : Nat) : KeepsRings s (pwrRequest s id tokens) := .ite (.refl s) (.quiet rfl rfl rfl)

theorem keepsRings_pwrEnd (s : State) (id : Nat) : KeepsRings s (pwrEnd s id) := by
  have hused : KeepsRings s (if pwrHas s id then s.pllUsed (classPll (id / 256)) else s) := .ite (.quiet rfl rfl rfl) (.refl s)
  exact hused.trans (.quiet rfl rfl rfl)

theorem keepsRings_dropChosen (s : State) (test : IppWork → Bool) : KeepsRings s (dropChosen s test) := by
  refine .foldl (fun s i => ?_) _ s
  split
  · exact .ite ((keepsRings_pwrEnd _ _).after rfl rfl rfl) (.refl s)
  · exact .refl s

theorem keepsRings_crcAssign (s : State) : KeepsRings s (crcAssign s) := by
  refine .foldl (fun s j => ?_) _ s
  split
  · exact .refl s
  · exact (keepsRings_pwrRequest _ _ _).after rfl rfl rfl

/-! ### The end of an upload -/

theorem keepsRings_applyRecord (s : State) (r : TileRec) : KeepsRings s (applyRecord s r .ok) := by
  have hdrop : LDG_DROP < 0xF00000 := by decide
  exact .ite (keepsRings_inc s hdrop) (.quiet rfl rfl rfl)

theorem keepsRings_drainRecords (s : State) : KeepsRings s (drainRecords s) :=
  (KeepsRings.foldl keepsRings_applyRecord _ _).after rfl rfl rfl

theorem keepsRings_bandPixels (s : State) (p n band : Nat) : KeepsRings s (bandPixels s p n band).1 :=
  .foldl_fst (β := Bytes) (fun a _ => keepsRings_engRead a.1 _ _ _ _) _ (s, [])

theorem keepsRings_sendBand (s : State) (i band : Nat) (packed : Bool) (px : Bytes) : KeepsRings s (sendBand s i band packed px) := by
  unfold sendBand
  extract_lets t f all cuts counted
  have hcounted : KeepsRings s counted := .ite (.quiet rfl rfl rfl) (.refl s)
  exact hcounted.trans (.foldl (fun s c => keepsRings_sendSlot s _ _ _ _) _ _)

theorem keepsRings_startTransfer (s : State) (i n : Nat) : KeepsRings s (startTransfer s i n) := by
  unfold startTransfer
  extract_lets t k started
  have hstarted : KeepsRings s started := .quiet rfl rfl rfl
  refine .ite (.quiet rfl rfl rfl) (.ite (hstarted.trans (.foldl (fun s b => ?_) _ _)) (hstarted.trans (.quiet rfl rfl rfl)))
  exact (keepsRings_bandPixels s _ _ b).trans (keepsRings_sendBand _ _ _ _ _)

theorem keepsRings_triggerSlot (s : State) (i n : Nat) : KeepsRings s (triggerSlot s i n) :=
  .ite (.quiet rfl rfl rfl) (keepsRings_startTransfer s i n)

theorem keepsRings_surfWritten (s : State) (n : Nat) : KeepsRings s (surfWritten s n) := by
  have hmarked : KeepsRings s (markWritten s n) := .quiet rfl rfl rfl
  exact hmarked.trans (.ite (.foldl (fun s x => keepsRings_triggerSlot s _ _) _ _) (.refl _))

/-- An upload that is stopped writes no fence. -/
theorem keepsRings_uploadEnd (s : State) (j : Job) : KeepsRings s (uploadEnd s j stAborted) := by
  unfold uploadEnd
  extract_lets drained fenced ended
  have hfenced : fenced = drained := if_neg (by simp [stAborted, stComplete])
  have hended : KeepsRings s ended := by
    unfold ended
    rw [hfenced]
    exact (keepsRings_drainRecords s).trans (keepsRings_finish _ _ _ _)
  exact .ite (hended.trans (keepsRings_surfWritten _ _)) hended

/-! ### ABORT -/

/-- A FENCE_WAIT that is removed leaves its ring's fetch index. -/
theorem keepsRings_dropWait (s : State) (j : Job) : KeepsRings s (dropWait s j) := by
  refine .trans (keepsRings_setPart fun r => ?_) (keepsRings_finish _ _ _ _)
  by_cases hr : r = j.req.ring.val
  · rw [hr, cring_setCring]
  · rw [cring_setCring_ne _ _ hr]

theorem keepsRings_dropPending (s : State) (n : Nat) (p : Pending) (st : Nat) : KeepsRings s (dropPending s n p st) :=
  (keepsRings_finish _ _ _ _).after rfl rfl rfl

theorem keepsRings_abortJob (s : State) (id : Nat) (j : Job) : KeepsRings s (abortJob s id j) := by
  unfold abortJob
  extract_lets m stop
  have hm : KeepsRings s m := keepsRings_modJob s _ _
  have hstop : ∀ t, KeepsRings t (stop t) := fun t => keepsRings_finish t _ _ _
  clear_value m stop
  split
  · exact .ite hm (hm.trans ((keepsRings_dropChosen _ _).trans (hstop _)))
  · exact .ite hm (hm.trans (hstop _))
  · exact .ite hm (hm.trans (keepsRings_uploadEnd _ _))
  · split
    · exact .ite hm (hm.trans (keepsRings_dropPending _ _ _ _))
    · exact hm
  · split
    · exact .ite hm (hm.trans ((hstop _).after rfl rfl rfl))
    · exact hm
  · exact hm.trans (keepsRings_dropWait _ _)
  · exact .ite hm (hm.trans (hstop _))
  · exact .ite hm (hm.trans (hstop _))
  · split
    · refine .ite hm (hm.trans (.trans (.trans ?_ (hstop _)) (keepsRings_crcAssign _)))
      exact (keepsRings_pwrEnd _ _).after rfl rfl rfl
    · exact hm.trans (hstop _)
  · exact keepsRings_finish s _ _ _

theorem keepsRings_dropFetched (s : State) (p : Nat) (l : List Cpl) (fs : List Fetched) :
    KeepsRings s ({ s with cpls := l }.setPart p { s.part p with fetched := fs }) :=
  (keepsRings_setPart (s := { s with cpls := l }) (v := { s.part p with fetched := fs }) fun _ => rfl).after rfl rfl rfl

theorem keepsRings_doAbort (q : Req) (s : State) : KeepsRings s (doAbort q s) := by
  have haccepted := keepsRings_accepted s (rerouted s q) 0x1201
  rcases soile_cases s q 0x1201 maskAbort true _ with ⟨_, h⟩ | ⟨st, _, h⟩ | h
  · rw [doAbort, h]
    exact .refl s
  · rw [doAbort, h]
    exact haccepted.trans (keepsRings_finish _ _ _ _)
  · rw [doAbort, h]
    refine haccepted.trans ?_
    dsimp only
    split
    · exact keepsRings_finish _ _ _ _
    · exact (keepsRings_dropFetched _ _ _ _).trans (keepsRings_finish _ _ _ _)
    · exact keepsRings_finish _ _ _ _
    · exact keepsRings_abortJob _ _ _

/-- An ABORT that runs as it is fetched keeps what fetching looks at, or ends in YIELD. -/
theorem keepsRings_runRaw_abort {s : State} {p : Fin 16} {f : Fetched} (host : HostRead) (hop : rawOp f.raw = 0x1201) :
    KeepsRings s (runRaw s p f host) := by
  unfold runRaw
  rw [hop]
  extract_lets q op begun timed r
  have htimed : timed = begun := if_neg (by decide)
  have hr : KeepsRings begun r := by
    unfold r
    rw [htimed]
    refine .ite ?_ (keepsRings_doAbort _ _)
    exact (keepsRings_accepted begun _ _).trans (keepsRings_finish _ _ _ _)
  have hbegun : KeepsRings s begun := .quiet rfl rfl rfl
  have hback : KeepsRings r { r with nextFetch := s.nextFetch } := .quiet rfl rfl rfl
  exact (hbegun.trans hr).trans hback

end Sys2Proof.Machine

/-!
PROOFS of the host rings family: a fetched descriptor is validated and runs as its command, or waits (R280, R284, R287).
-/

namespace Sys2Proof.Machine

/-! ### The completion ring of a descriptor (R285) -/

theorem windowBase_le (p : Nat) : 0xF00000 ≤ windowBase p := Nat.le_add_right _ _

theorem cpCfg_ge (p c : Nat) : 0xF00000 ≤ PRT_SW_CP_CFG p c :=
  ((windowBase_le p).trans (Nat.le_add_right _ _)).trans (Nat.le_add_right _ _)

theorem crCfg_ge (p r : Nat) : 0xF00000 ≤ PRT_SW_CR_CFG p r :=
  ((windowBase_le p).trans (Nat.le_add_right _ _)).trans (Nat.le_add_right _ _)

theorem cringsOn_congr {s t : State} (h : ∀ a, 0xF00000 ≤ a → t.reg a = s.reg a) (p : Nat) : cringsOn t p = cringsOn s p :=
  List.filter_congr fun c _ => State.bit_congr (h _ (cpCfg_ge p c)) 8

/-- A completion goes to its ring by the partition's window alone. -/
theorem rerouted_congr {s t : State} (h : ∀ a, 0xF00000 ≤ a → t.reg a = s.reg a) (q : Req) : rerouted t q = rerouted s q := by
  unfold rerouted badCring
  rw [cringsOn_congr h]

/-! ### A descriptor that runs (R287) -/

theorem refuseRaw_eq (s : State) (q : Req) (op st : Nat) : refuseRaw s q op st = done s (rerouted s q) op st := by
  unfold refuseRaw
  rw [accept_eq]
  exact finish_accepted s _ op st 0

/-- A partition's descriptor `f` taken out, the part at its place in fetch order. -/
def takenOut (s : State) (p : Nat) (f : Fetched) : State :=
  { s.setPart p { s.part p with fetched := (s.part p).fetched.filter fun g => g.order != f.order } with nextFetch := f.order }

/-- The record of a TIME command's reserved bits. -/
theorem timeReserved_window (op : Nat) (q : Req) (bad : Bool) (s : State) (a : Nat) (ha : 0xF00000 ≤ a) :
    (timeReserved op q bad s).reg a = s.reg a := by
  have hne : a ≠ TB_ADJ_STATUS := fun h => absurd (h ▸ ha) (by decide)
  unfold timeReserved adjRecord
  split
  · exact State.reg_setReg_ne s _ hne
  · rfl

section Run

variable {s : State} {p : Fin 16} {f : Fetched} {host : HostRead}

theorem runRaw_badOpcode (hcmd : cmdOf (rawOp f.raw) = none) :
    runRaw s p f host = { refuseRaw { s with nextFetch := f.order } (rawReq p f host) (rawOp f.raw) stBadOpcode with nextFetch := s.nextFetch } := by
  have hop : ¬ (rawOp f.raw = 0x0F01 ∨ rawOp f.raw = 0x0F02) := by
    rintro (hop | hop) <;> rw [hop] at hcmd <;> cases hcmd
  unfold runRaw
  dsimp only
  rw [if_neg hop, hcmd]

theorem runRaw_reserved {run : Req → State → State} (hcmd : cmdOf (rawOp f.raw) = some run) (hres : rawReserved f.raw = true) :
    runRaw s p f host = { refuseRaw (if rawOp f.raw = 0x0F01 ∨ rawOp f.raw = 0x0F02
          then timeReserved (if rawOp f.raw = 0x0F01 then 0 else 1) (rawReq p f host) true { s with nextFetch := f.order }
          else { s with nextFetch := f.order }) (rawReq p f host) (rawOp f.raw) stReserved with nextFetch := s.nextFetch } := by
  have hkind : ∀ op, op = 0x0F01 ∨ op = 0x0F02 → op % 2 ^^^ 1 = if op = 0x0F01 then 0 else 1 := by
    rintro op (rfl | rfl) <;> rfl
  unfold runRaw
  dsimp only
  rw [hcmd, hres]
  by_cases hop : rawOp f.raw = 0x0F01 ∨ rawOp f.raw = 0x0F02
  · rw [if_pos hop, if_pos hop, hkind _ hop]
    rfl
  · rw [if_neg hop, if_neg hop]
    rfl

theorem runRaw_runs {run : Req → State → State} (hcmd : cmdOf (rawOp f.raw) = some run) (hres : rawReserved f.raw = false) :
    runRaw s p f host = { run (rawReq p f host) { s with nextFetch := f.order } with nextFetch := s.nextFetch } := by
  unfold runRaw
  dsimp only
  rw [hcmd, hres, timeReserved_not, ite_self]
  rfl

end Run

/-! ### The head of a ring (R280, R284) -/

theorem exec_descriptorAccept (p : Fin 16) (r : Fin 8) (h : HostRead) (s : State) :
    exec (.descriptorAccept p r h) s = .next (doDescriptorAccept p r h s) := rfl

theorem descriptorAccept_idle {p : Fin 16} {r : Fin 8} {h : HostRead} {s : State}
    (hidle : s.ctl.core = false ∨ s.ctl.mode.soile = false ∨ ringHead s p.val r.val = none) : doDescriptorAccept p r h s = s := by
  unfold doDescriptorAccept
  rcases hidle with hcore | hmode | hnone
  · simp [hcore]
  · simp [hmode]
  · simp [hnone]

section Head

variable {p : Fin 16} {r : Fin 8} {h : HostRead} {s : State} {f : Fetched} (hcore : s.ctl.core = true) (hmode : s.ctl.mode.soile = true)
  (hhead : ringHead s p.val r.val = some f)
include hcore hmode hhead

theorem descriptorAccept_waits (hready : headReady s p f = false) : doDescriptorAccept p r h s =
    if (s.part p.val).state = .active ∧ 64 ≤ (s.part p.val).backlog.length then raiseKey s p.val evCringFull 0 35 p.val [] else s := by
  simp [doDescriptorAccept, hcore, hmode, hhead, hready, cringFull]

theorem descriptorAccept_later (hready : headReady s p f = true) (hfirst : firstOfAll s f = false) : doDescriptorAccept p r h s = s := by
  simp [doDescriptorAccept, hcore, hmode, hhead, hready, hfirst]

theorem descriptorAccept_runs (hready : headReady s p f = true) (hfirst : firstOfAll s f = true) : doDescriptorAccept p r h s =
    runRaw (s.setPart p.val { s.part p.val with fetched := (s.part p.val).fetched.filter fun g => g.order != f.order }) p f h := by
  simp [doDescriptorAccept, hcore, hmode, hhead, hready, hfirst]

end Head

end Sys2Proof.Machine

/-!
PROOFS of the host rings family: what a doorbell read takes of the indices (R277–R279, R284, R482).
-/

namespace Sys2Proof.Machine

/-! ### Reads that the host answers (R279; log 98) -/

theorem leNat_lt (bs : Bytes) : leNat bs < 2 ^ (8 * bs.length) := by
  induction bs with
  | nil => exact Nat.one_pos
  | cons b bs ih =>
    have hb := b.isLt
    rw [leNat, List.length_cons, Nat.mul_succ, Nat.pow_add]
    omega

theorem leNat_sliceB_lt (bs : Bytes) (i : Nat) : leNat (sliceB bs i 8) < 2 ^ 64 := by
  have h := leNat_lt (sliceB bs i 8)
  rwa [sliceB_length] at h

/-- A port that has shown bus mastering. -/
def answered (s : State) (port : Nat) : State := s.setBit (HIF_HP_STATUS port) 7 true

/-- Nothing but the mark of bus mastering of a port and the partitions differ, and the mark is set. -/
structure Heard (port : Nat) (s t : State) : Prop where
  seen : t.bit (HIF_HP_STATUS port) 7 = true
  up   : linkUp t port = linkUp s port
  regs : SameRegsBut [HIF_HP_STATUS port] s t
  back : { t with regs := s.regs, parts := s.parts } = s

theorem linkUp_answered (s : State) (port : Nat) : linkUp (answered s port) port = linkUp s port :=
  State.bit_setFld_outside s _ _ (by decide) (.inl (by decide))

theorem onlyRegs_answered (s : State) (port : Nat) : OnlyRegs [HIF_HP_STATUS port] s (answered s port) :=
  onlyRegs_setBit s 7 true (List.mem_singleton_self _)

theorem seen_answered (s : State) (port : Nat) : (answered s port).bit (HIF_HP_STATUS port) 7 = true :=
  State.bit_setBit_same s _ true (by decide)

/-- A change of registers alone, under a change of registers and partitions. -/
theorem OnlyRegs.back_after {l : List Nat} {s t u : State} (k : OnlyRegs l t u) (h : { t with regs := s.regs, parts := s.parts } = s) :
    { u with regs := s.regs, parts := s.parts } = s :=
  calc { u with regs := s.regs, parts := s.parts }
    _ = { ({ u with regs := t.regs } : State) with regs := s.regs, parts := s.parts } := rfl
    _ = { t with regs := s.regs, parts := s.parts } := by rw [k.back]
    _ = s := h

/-- A change of a partition alone, under a change of registers and partitions. -/
theorem OnlyPart.back_after {p : Nat} {s t u : State} (k : OnlyPart p t u) (h : { t with regs := s.regs, parts := s.parts } = s) :
    { u with regs := s.regs, parts := s.parts } = s :=
  calc { u with regs := s.regs, parts := s.parts }
    _ = { ({ u with parts := t.parts } : State) with regs := s.regs, parts := s.parts } := rfl
    _ = { t with regs := s.regs, parts := s.parts } := by rw [k.back]
    _ = s := h

theorem heard_answered (s : State) (port : Nat) : Heard port s (answered s port) :=
  ⟨seen_answered s port, linkUp_answered s port, (onlyRegs_answered s port).regs, (onlyRegs_answered s port).back_after rfl⟩

theorem Heard.answered {port : Nat} {s t : State} (h : Heard port s t) : Heard port s (answered t port) :=
  ⟨seen_answered t port, (linkUp_answered t port).trans h.up, h.regs.trans (onlyRegs_answered t port).regs,
    (onlyRegs_answered t port).back_after h.back⟩

theorem Heard.onlyPart {port p : Nat} {s t u : State} (h : Heard port s t) (k : OnlyPart p t u) : Heard port s u :=
  ⟨(State.bit_congr (k.reg _) 7).trans h.seen, (State.bit_congr (k.reg _) 0).trans h.up, fun a ha => (k.reg a).trans (h.regs a ha),
    k.back_after h.back⟩

theorem Heard.setPart {port : Nat} {s t : State} (h : Heard port s t) (p : Nat) (v : Part) : Heard port s (t.setPart p v) :=
  h.onlyPart (onlyPart_setPart t p v)

theorem Heard.window {port : Nat} {s t : State} (h : Heard port s t) (hport : port < 4) (a : Nat) (ha : 0xF00000 ≤ a) : t.reg a = s.reg a :=
  h.regs a fun hmem => by
    have heq := List.mem_singleton.mp hmem
    unfold HIF_HP_STATUS at heq
    omega

section Answered

variable {s : State} {p addr n : Nat} (hport : onPcie s p = true)
include hport

theorem ringRead_answered {bs : Bytes} (hup : linkUp s (s.part p).port = true) (hlen : bs.length = n) :
    ringRead s p addr n (.bytes bs) = (answered s (s.part p).port, .ok bs) := by
  unfold ringRead pcieRead
  dsimp only
  rw [if_pos hport, if_pos hup]
  dsimp only
  rw [← hlen, sliceB_whole]
  rfl

/-- A read that fails is counted; an ACTIVE partition is FAULTED with cause DMA_FAULT. -/
theorem ringRead_lost {page : HostRead} (h : page = .error ∨ linkUp s (s.part p).port = false) :
    ringRead s p addr n page = (if (s.part p).state = .active then faultPart (s.inc (HIF_HP_DMA_ERR (s.part p).port)) p 6
      else s.inc (HIF_HP_DMA_ERR (s.part p).port), .failed) := by
  have hlost : (if linkUp s (s.part p).port = true then page else .error) = .error := by
    rcases h with rfl | h
    · exact ite_self _
    · exact if_neg (by simp [h])
  unfold ringRead pcieRead
  dsimp only
  rw [if_pos hport, hlost]

end Answered

section Internal

variable {s : State} {p addr n : Nat} (hport : onPcie s p = false) (h : HostRead)
include hport

theorem ringRead_held (hres : (engRead s 34 p addr n).2.1 = .held) : ringRead s p addr n h = (s, .held) := by
  unfold ringRead
  dsimp only
  rw [if_neg (by simp [hport]), hres]

/-- A refused or unmapped one is cause GATE. -/
theorem ringRead_refused (hres : (engRead s 34 p addr n).2.1 = .denied ∨ (engRead s 34 p addr n).2.1 = .unmapped) :
    ringRead s p addr n h = (if ((engRead s 34 p addr n).1.part p).state = .active then faultPart (engRead s 34 p addr n).1 p 7
      else (engRead s 34 p addr n).1, .failed) := by
  unfold ringRead
  dsimp only
  rw [if_neg (by simp [hport])]
  rcases hres with hres | hres <;> rw [hres]

end Internal

/-! ### The indices (R277, R482) -/

/-- Consumer indices set for the rings of a list. -/
def consSet (p : Nat) (cons : Nat → BitVec 64) (cs : List Nat) (s : State) : State :=
  cs.foldl (fun s c => s.setPart p (setKring (s.part p) c { kring (s.part p) c with cons := cons c })) s

theorem takeIndices_eq (s : State) (p : Nat) (page : Bytes) :
    takeIndices s p page = consSet p (fun c => BitVec.ofNat 64 (leNat (sliceB page (0x40 + 8 * c) 8))) (cringsOn s p) s := rfl

theorem onlyPart_consSet (p : Nat) (cons : Nat → BitVec 64) (cs : List Nat) (s : State) : OnlyPart p s (consSet p cons cs s) := by
  induction cs generalizing s with
  | nil => exact .refl p s
  | cons c cs ih => exact (onlyPart_setPart s p _).trans (ih _)

theorem part_consSet (p : Nat) (cons : Nat → BitVec 64) (cs : List Nat) (s : State) :
    (consSet p cons cs s).part p = { s.part p with krings := ((consSet p cons cs s).part p).krings } := by
  induction cs generalizing s with
  | nil => rfl
  | cons c cs ih =>
    have hset := ih (s.setPart p (setKring (s.part p) c { kring (s.part p) c with cons := cons c }))
    rw [State.part_setPart] at hset
    exact hset

theorem kring_consSet (p : Nat) (cons : Nat → BitVec 64) (cs : List Nat) (s : State) (c : Nat) :
    kring ((consSet p cons cs s).part p) c = if c ∈ cs then { kring (s.part p) c with cons := cons c } else kring (s.part p) c := by
  induction cs generalizing s with
  | nil => simp [consSet]
  | cons a cs ih =>
    have hset := ih (s.setPart p (setKring (s.part p) a { kring (s.part p) a with cons := cons a }))
    rw [State.part_setPart] at hset
    refine hset.trans ?_
    by_cases hc : c = a
    · subst hc
      rw [kring_setKring]
      simp
    · rw [kring_setKring_ne _ _ hc]
      simp [hc]

theorem mem_cringsOn {s : State} {p c : Nat} (hc : c < 8) : c ∈ cringsOn s p ↔ s.bit (PRT_SW_CP_CFG p c) 8 = true := by
  simp [cringsOn, hc]

/-! ### A doorbell page taken -/

/-- The state after the page and the log's consumer count were taken. -/
def pageTaken (s : State) (p : Nat) (page log : Bytes) : State :=
  (takePlog (takeIndices (answered s (s.part p).port) p page) p (.bytes log)).1

/-- The log's consumer count that a doorbell read leaves. -/
def plogTaken (s : State) (p : Nat) (log : Bytes) : BitVec 64 :=
  if plogOn s p then BitVec.ofNat 64 (leNat log) else (s.part p).logCons

/-- The consumer indices of partition `p` are those of the page where their ring is enabled. -/
def IndicesTaken (s : State) (p : Nat) (page : Bytes) (u : Part) : Prop := ∀ c, c < 8 → kring u c =
  if s.bit (PRT_SW_CP_CFG p c) 8 then { kring (s.part p) c with cons := BitVec.ofNat 64 (leNat (sliceB page (0x40 + 8 * c) 8)) }
  else kring (s.part p) c

theorem heard_takeIndices (s : State) (p : Nat) (page : Bytes) : Heard (s.part p).port s (takeIndices (answered s (s.part p).port) p page) :=
  (heard_answered s _).onlyPart (onlyPart_consSet p _ _ _)

theorem part_takeIndices (s : State) (p : Nat) (page : Bytes) : (takeIndices (answered s (s.part p).port) p page).part p =
    { s.part p with krings := ((takeIndices (answered s (s.part p).port) p page).part p).krings } :=
  part_consSet p _ _ _

section Page

variable {s : State} {p : Fin 16} {page log : Bytes} (hport : onPcie s p.val = true)
include hport

theorem cringsOn_answered : cringsOn (answered s (s.part p.val).port) p.val = cringsOn s p.val :=
  cringsOn_congr ((heard_answered s _).window (of_decide_eq_true hport)) _

theorem indicesTaken_takeIndices : IndicesTaken s p.val page ((takeIndices (answered s (s.part p.val).port) p.val page).part p.val) :=
  fun c hc => by
    rw [takeIndices_eq, kring_consSet, cringsOn_answered hport]
    exact if_congr (mem_cringsOn hc) rfl rfl

theorem plogOn_takeIndices : plogOn (takeIndices (answered s (s.part p.val).port) p.val page) p.val = plogOn s p.val := by
  have hport4 : (s.part p.val).port < 4 := of_decide_eq_true hport
  refine State.bit_congr ((heard_takeIndices s p.val page).regs _ fun hmem => ?_) 8
  have heq := List.mem_singleton.mp hmem
  have hp := p.isLt
  unfold ERR_P_PLOG_CFG HIF_HP_STATUS at heq
  omega

/-- What the log's consumer count is taken from: nothing where the log is off, else a read that the host answers. -/
theorem takePlog_takeIndices (hup : linkUp s (s.part p.val).port = true) (hlog : log.length = 8) :
    takePlog (takeIndices (answered s (s.part p.val).port) p.val page) p.val (.bytes log) =
      (if plogOn s p.val then
        (answered (takeIndices (answered s (s.part p.val).port) p.val page) (s.part p.val).port).setPart p.val
          { (takeIndices (answered s (s.part p.val).port) p.val page).part p.val with logCons := BitVec.ofNat 64 (leNat log) }
       else takeIndices (answered s (s.part p.val).port) p.val page, true) := by
  have hon := plogOn_takeIndices (page := page) hport
  have hown := part_takeIndices s p.val page
  have hheard := heard_takeIndices s p.val page
  generalize takeIndices (answered s (s.part p.val).port) p.val page = v at hon hown hheard ⊢
  have hportV : (v.part p.val).port = (s.part p.val).port := by rw [hown]
  unfold takePlog
  rw [hon]
  cases plogOn s p.val with
  | false => rfl
  | true =>
    rw [ringRead_answered (by rw [onPcie, hportV]; exact hport) (by rw [hportV, hheard.up]; exact hup) hlog, hportV]
    rfl

end Page

section Taken

variable {s : State} {p : Fin 16} {page log : Bytes} (hport : onPcie s p.val = true) (hup : linkUp s (s.part p.val).port = true)
  (hlog : log.length = 8)
include hport hup hlog

theorem pageTaken_eq : pageTaken s p.val page log = if plogOn s p.val then
    (answered (takeIndices (answered s (s.part p.val).port) p.val page) (s.part p.val).port).setPart p.val
      { (takeIndices (answered s (s.part p.val).port) p.val page).part p.val with logCons := BitVec.ofNat 64 (leNat log) }
    else takeIndices (answered s (s.part p.val).port) p.val page := by
  rw [pageTaken, takePlog_takeIndices hport hup hlog]

theorem heard_pageTaken : Heard (s.part p.val).port s (pageTaken s p.val page log) := by
  rw [pageTaken_eq hport hup hlog]
  split
  · exact (heard_takeIndices s p.val page).answered.setPart _ _
  · exact heard_takeIndices s p.val page

theorem indicesTaken_pageTaken : IndicesTaken s p.val page ((pageTaken s p.val page log).part p.val) := by
  rw [pageTaken_eq hport hup hlog]
  split
  · rw [State.part_setPart]
    exact indicesTaken_takeIndices hport
  · exact indicesTaken_takeIndices hport

theorem part_pageTaken : (pageTaken s p.val page log).part p.val =
    { s.part p.val with krings := ((pageTaken s p.val page log).part p.val).krings, logCons := plogTaken s p.val log } := by
  have hown := part_takeIndices s p.val page
  rw [pageTaken_eq hport hup hlog]
  generalize takeIndices (answered s (s.part p.val).port) p.val page = v at hown ⊢
  unfold plogTaken
  split
  · rw [State.part_setPart, hown]
  · rw [hown]

end Taken

end Sys2Proof.Machine

/-!
PROOFS of the host rings family: doorbell reads (R277–R279, R482), and the fetch from one enabled ring (R278, R288, R290).
-/

namespace Sys2Proof.Machine

/-! ### A doorbell read that fails (R279) -/

theorem exec_doorbellRead (p : Fin 16) (page : HostRead) (ds : List HostRead) (log : HostRead) (s : State) :
    exec (.doorbellRead p page ds log) s = .next (doDoorbellRead p page ds log s) := rfl

theorem doDoorbellRead_idle {p : Fin 16} {page : HostRead} {ds : List HostRead} {log : HostRead} {s : State}
    (h : s.ctl.core = false ∨ (s.part p.val).state ≠ .active ∧ (s.part p.val).state ≠ .stopping) : doDoorbellRead p page ds log s = s := by
  unfold doDoorbellRead
  rcases h with hcore | ⟨hactive, hstopping⟩
  · simp [hcore]
  · simp [hactive, hstopping]

section Reads

variable {p : Fin 16} {page : HostRead} {ds : List HostRead} {log : HostRead} {s : State} (hcore : s.ctl.core = true)
  (hstate : (s.part p.val).state = .active ∨ (s.part p.val).state = .stopping)
include hcore hstate

/-- A doorbell read that goes ahead does what its first read brings. -/
theorem doDoorbellRead_goes : doDoorbellRead p page ds log s =
    match (ringRead s p.val (doorbell s p.val) 128 page).2 with
    | .ok bs =>
      let y := takePlog (takeIndices (ringRead s p.val (doorbell s p.val) 128 page).1 p.val bs) p.val log
      if y.2 && s.ctl.mode.soile && (y.1.part p.val).state == .active then fetchRings p bs (List.range 8) y.1 ds else y.1
    | _ => (ringRead s p.val (doorbell s p.val) 128 page).1 := by
  have hgoes : (!s.ctl.core || !((s.part p.val).state == .active || (s.part p.val).state == .stopping)) = false := by
    rcases hstate with h | h <;> simp [hcore, h]
  unfold doDoorbellRead
  dsimp only
  rw [hgoes]
  rfl

theorem doDoorbellRead_unread {t : State} (hread : ringRead s p.val (doorbell s p.val) 128 page = (t, .failed)
    ∨ ringRead s p.val (doorbell s p.val) 128 page = (t, .held)) : doDoorbellRead p page ds log s = t := by
  rw [doDoorbellRead_goes hcore hstate]
  rcases hread with h | h <;> rw [h]

end Reads

/-- A page and a log read that PCIe answers leave the indices taken; an ACTIVE partition's descriptors are fetched then. -/
theorem doDoorbellRead_taken {p : Fin 16} {page log : Bytes} {ds : List HostRead} {s : State} (hcore : s.ctl.core = true)
    (hstate : (s.part p.val).state = .active ∨ (s.part p.val).state = .stopping) (hport : onPcie s p.val = true)
    (hup : linkUp s (s.part p.val).port = true) (hpage : page.length = 128) (hlog : log.length = 8) :
    doDoorbellRead p (.bytes page) ds (.bytes log) s =
      if s.ctl.mode.soile && (s.part p.val).state == .active then fetchRings p page (List.range 8) (pageTaken s p.val page log) ds
      else pageTaken s p.val page log := by
  have htaken : takePlog (takeIndices (answered s (s.part p.val).port) p.val page) p.val (.bytes log) = (pageTaken s p.val page log, true) := by
    rw [pageTaken_eq hport hup hlog, takePlog_takeIndices hport hup hlog]
  have hown : ((pageTaken s p.val page log).part p.val).state = (s.part p.val).state := by rw [part_pageTaken hport hup hlog]
  rw [doDoorbellRead_goes hcore hstate, ringRead_answered hport hup hpage]
  dsimp only
  rw [htaken, hown, Bool.true_and]

/-! ### Rings that bring nothing (R278, R288) -/

/-- Fetching ended, or no ring of the list enabled. -/
def NoFetch (p : Nat) (rs : List Nat) (s : State) : Prop :=
  s.ctl.mode.soile = false ∨ ∀ o ∈ rs, s.bit (PRT_SW_CR_CFG p o) 8 = false

theorem fetchRings_none {p : Fin 16} {page : Bytes} {rs : List Nat} {s : State} (h : NoFetch p.val rs s) (hs : List HostRead) :
    fetchRings p page rs s hs = s := by
  induction rs with
  | nil => rfl
  | cons r rs ih =>
    unfold fetchRings
    dsimp only
    rcases h with hmode | hoff
    · rw [hmode]
      rfl
    · rw [hoff r List.mem_cons_self, ih (.inr fun o ho => hoff o (List.mem_cons_of_mem r ho))]
      exact ite_self s

/-- The rings stay disabled through what keeps them, unless YIELD ends the fetch. -/
theorem NoFetch.kept {p : Nat} {rs : List Nat} {s t : State} (h : NoFetch p rs s) (k : KeepsRings s t) : NoFetch p rs t := by
  rcases k with hyield | k
  · exact .inl (by rw [hyield]; rfl)
  · rcases h with hmode | hoff
    · exact .inl (by rw [k.mode]; exact hmode)
    · exact .inr fun o ho => (State.bit_congr (k.regs _ (crCfg_ge p o)) 8).trans (hoff o ho)

theorem NoFetch.congr {p : Nat} {rs : List Nat} {s t : State} (h : NoFetch p rs s) (hctl : t.ctl = s.ctl)
    (hregs : ∀ a, 0xF00000 ≤ a → t.reg a = s.reg a) : NoFetch p rs t :=
  h.imp (fun hmode => by rw [hctl]; exact hmode) fun hoff o ho => (State.bit_congr (hregs _ (crCfg_ge p o)) 8).trans (hoff o ho)

/-- Where one ring is enabled, fetching begins with it. -/
theorem fetchRings_only {p : Fin 16} {r : Nat} {page : Bytes} {rs : List Nat} {s : State} (hr : r ∈ rs) (hnodup : rs.Nodup)
    (hmode : s.ctl.mode.soile = true) (hoff : ∀ o ∈ rs, o ≠ r → s.bit (PRT_SW_CR_CFG p.val o) 8 = false) (hs : List HostRead) :
    ∃ rest, NoFetch p.val rest s ∧ fetchRings p page rs s hs = fetchRings p page (r :: rest) s hs := by
  induction rs with
  | nil => cases hr
  | cons a rs ih =>
    obtain ⟨hnew, hnodup⟩ := List.nodup_cons.mp hnodup
    by_cases ha : a = r
    · subst ha
      exact ⟨rs, .inr fun o ho => hoff o (List.mem_cons_of_mem a ho) fun h => hnew (h ▸ ho), rfl⟩
    · obtain ⟨rest, hrest, heq⟩ := ih (List.mem_of_ne_of_mem (Ne.symm ha) hr) hnodup fun o ho => hoff o (List.mem_cons_of_mem a ho)
      refine ⟨rest, hrest, Eq.trans ?_ heq⟩
      rw [fetchRings]
      dsimp only
      rw [hmode, hoff a List.mem_cons_self ha]
      rfl

/-! ### One ring -/

section Ring

variable {p : Fin 16} {r : Nat} {page : Bytes} {rest : List Nat} {s : State} {hs : List HostRead} (hmode : s.ctl.mode.soile = true)
  (hon : s.bit (PRT_SW_CR_CFG p.val r) 8 = true) (hrest : NoFetch p.val rest s)
include hmode hon hrest

theorem fetchRings_stopped (hfault : (cring (s.part p.val) r).fault = true) : fetchRings p page (r :: rest) s hs = s := by
  unfold fetchRings
  dsimp only
  rw [hmode, hon, hfault]
  exact fetchRings_none hrest hs

/-- An index out of reach stops the ring, and what its event brings starts no fetch (R279). -/
theorem fetchRings_outOfReach (hfault : (cring (s.part p.val) r).fault = false)
    (hfar : 2 ^ cmdLog s p.val r < (BitVec.ofNat 64 (leNat (sliceB page (8 * r) 8)) - (cring (s.part p.val) r).fetch).toNat) :
    fetchRings p page (r :: rest) s hs = ringFault s p.val r := by
  have hset : KeepsRings s (s.setPart p.val (setCring (s.part p.val) r { cring (s.part p.val) r with fault := true })) :=
    keepsRings_setPart fun o => by
      by_cases ho : o = r
      · rw [ho, cring_setCring]
      · rw [cring_setCring_ne _ _ ho]
  have hkept : KeepsRings s (ringFault s p.val r) := hset.trans (keepsRings_raiseN 3 _ _ _ _ _ _ _)
  unfold fetchRings
  dsimp only
  rw [hmode, hon, hfault, if_neg (by decide), if_neg (by decide), if_pos hfar, fetchRings_none (hrest.kept hkept)]
  exact ite_self _

omit hrest in
/-- An index in reach has the ring's descriptors fetched; where the other rings are still off then, it is all. -/
theorem fetchRings_inReach {t : State} {left : List HostRead} {more : Bool} (hfault : (cring (s.part p.val) r).fault = false)
    (hnear : ¬ 2 ^ cmdLog s p.val r < (BitVec.ofNat 64 (leNat (sliceB page (8 * r) 8)) - (cring (s.part p.val) r).fetch).toNat)
    (hfetch : fetchRing p r (s.pair (PRT_SW_CR_LO p.val r) (PRT_SW_CR_HI p.val r)) (leNat (sliceB page (8 * r) 8)) 32 s hs = (t, left, more))
    (hlater : NoFetch p.val rest t) : fetchRings p page (r :: rest) s hs = t := by
  unfold fetchRings
  dsimp only
  rw [hmode, hon, hfault, if_neg (by decide), if_neg (by decide), if_neg hnear, hfetch]
  dsimp only
  rw [fetchRings_none hlater]
  exact ite_self _

end Ring

/-! ### Descriptors of one ring (R278, R290) -/

/-- At the producer index nothing is fetched. -/
theorem fetchRing_atIndex {p : Fin 16} {r base prod fuel : Nat} {s : State} {hs : List HostRead}
    (h : (cring (s.part p.val) r).fetch.toNat = prod) : ∃ more, fetchRing p r base prod fuel s hs = (s, hs, more) := by
  cases fuel with
  | zero => exact ⟨true, rfl⟩
  | succ fuel =>
    refine ⟨true, ?_⟩
    unfold fetchRing
    exact if_pos h

/-- After what keeps the rings, the fetch that was at its producer index goes no further. -/
theorem fetchRing_ends {p : Fin 16} {r base prod fuel : Nat} {s t : State} {hs : List HostRead} (k : KeepsRings s t)
    (h : (cring (s.part p.val) r).fetch.toNat = prod) : ∃ more, fetchRing p r base prod fuel t hs = (t, hs, more) := by
  rcases k with hyield | k
  · by_cases hat : (cring (t.part p.val) r).fetch.toNat = prod
    · exact fetchRing_atIndex hat
    · cases fuel with
      | zero => exact ⟨true, rfl⟩
      | succ fuel =>
        refine ⟨false, ?_⟩
        unfold fetchRing
        dsimp only
        rw [if_neg hat, hyield]
        rfl
  · exact fetchRing_atIndex ((congrArg BitVec.toNat (k.fetch p.val r)).trans h)

/-- The part at another place in fetch order. -/
def atFetch (s : State) (n : Nat) : State := { s with nextFetch := n }

theorem NoFetch.atFetch {p : Nat} {rs : List Nat} {s : State} (h : NoFetch p rs s) (n : Nat) : NoFetch p rs (atFetch s n) := h

theorem NoFetch.setPart {p o : Nat} {rs : List Nat} {s : State} (h : NoFetch p rs s) (v : Part) : NoFetch p rs (s.setPart o v) := h

theorem NoFetch.answered {p port : Nat} {rs : List Nat} {s : State} (h : NoFetch p rs s) (hport : port < 4) :
    NoFetch p rs (answered s port) := h.congr rfl ((heard_answered s port).window hport)

/-- The descriptor of a ring that was read, its index advanced. -/
def descTaken (s : State) (p r : Nat) : State :=
  atFetch ((answered s (s.part p).port).setPart p
    (setCring (s.part p) r { cring (s.part p) r with fetch := (cring (s.part p) r).fetch + 1 })) (s.nextFetch + 1)

theorem NoFetch.descTaken {p r : Nat} {rs : List Nat} {s : State} (h : NoFetch p rs s) (hport : (s.part p).port < 4) :
    NoFetch p rs (descTaken s p r) := ((h.answered hport).setPart _).atFetch _

/-- What a fetched descriptor comes to: an ABORT is executed at once, any other waits to be accepted. -/
def descActs (u : State) (p : Fin 16) (f : Fetched) : State :=
  if rawOp f.raw = 0x1201 then runRaw u p f .error else u.setPart p.val { u.part p.val with fetched := (u.part p.val).fetched ++ [f] }

theorem keepsRings_descActs (u : State) (p : Fin 16) (f : Fetched) : KeepsRings u (descActs u p f) := by
  unfold descActs
  split
  next hop => exact keepsRings_runRaw_abort .error hop
  · exact keepsRings_setPart fun _ => rfl

theorem fetchRing_one {p : Fin 16} {r base fuel : Nat} {raw : Bytes} {s : State} (hmode : s.ctl.mode.soile = true)
    (hport : onPcie s p.val = true) (hup : linkUp s (s.part p.val).port = true) (hraw : raw.length = 64) :
    ∃ more, fetchRing p r base ((cring (s.part p.val) r).fetch + 1).toNat (fuel + 1) s [.bytes raw] =
      (descActs (descTaken s p.val r) p ⟨r, (cring (s.part p.val) r).fetch, raw, s.nextFetch⟩, [], more) := by
  have hbehind : ¬ (cring (s.part p.val) r).fetch.toNat = ((cring (s.part p.val) r).fetch + 1).toNat := by
    generalize (cring (s.part p.val) r).fetch = x
    bv_omega
  have hat : (cring ((descTaken s p.val r).part p.val) r).fetch.toNat = ((cring (s.part p.val) r).fetch + 1).toNat := by
    have hpart : (descTaken s p.val r).part p.val =
        setCring (s.part p.val) r { cring (s.part p.val) r with fetch := (cring (s.part p.val) r).fetch + 1 } := State.part_setPart _ _ _
    rw [hpart, cring_setCring]
  obtain ⟨more, hends⟩ := fetchRing_ends (base := base) (fuel := fuel) (hs := [])
    (keepsRings_descActs (descTaken s p.val r) p ⟨r, (cring (s.part p.val) r).fetch, raw, s.nextFetch⟩) hat
  refine ⟨more, Eq.trans ?_ hends⟩
  rw [fetchRing]
  dsimp only
  rw [if_neg hbehind, hmode, List.headD_cons, ringRead_answered hport hup hraw]
  rfl

end Sys2Proof.Machine

/-!
PROOFS of the host rings family: an ACTIVE partition's doorbell read with one ring enabled, and the status mirror page (R277–R279, R292, R517).
-/

namespace Sys2Proof.Machine

theorem Heard.ctl {port : Nat} {s t : State} (h : Heard port s t) : t.ctl = s.ctl := (congrArg State.ctl h.back :)

theorem Heard.nextFetch {port : Nat} {s t : State} (h : Heard port s t) : t.nextFetch = s.nextFetch := (congrArg State.nextFetch h.back :)

/-- A change of registers, partitions and the place in fetch order. -/
theorem Heard.back_nextFetch {port : Nat} {s t : State} (h : Heard port s t) (n : Nat) :
    { ({ t with nextFetch := n } : State) with regs := s.regs, parts := s.parts, nextFetch := s.nextFetch } = s :=
  calc { ({ t with nextFetch := n } : State) with regs := s.regs, parts := s.parts, nextFetch := s.nextFetch }
    _ = { ({ t with regs := s.regs, parts := s.parts } : State) with nextFetch := s.nextFetch } := rfl
    _ = s := by rw [h.back]

/-! ### A doorbell read with one ring enabled (R278, R279) -/

section Doorbell

variable {p : Fin 16} {r : Fin 8} {page log : Bytes} {ds : List HostRead} {s : State} (hcore : s.ctl.core = true)
  (hport : onPcie s p.val = true) (hup : linkUp s (s.part p.val).port = true) (hpage : page.length = 128) (hlog : log.length = 8)
include hcore hport hup hpage hlog

theorem doorbell_stopping (hstate : (s.part p.val).state = .stopping) :
    doDoorbellRead p (.bytes page) ds (.bytes log) s = pageTaken s p.val page log := by
  rw [doDoorbellRead_taken hcore (.inr hstate) hport hup hpage hlog, hstate]
  simp

variable (hstate : (s.part p.val).state = .active) (hmode : s.ctl.mode.soile = true) (hon : s.bit (PRT_SW_CR_CFG p.val r.val) 8 = true)
  (hoff : ∀ o, o < 8 → o ≠ r.val → s.bit (PRT_SW_CR_CFG p.val o) 8 = false)
include hstate hmode hon hoff

omit hon in
/-- The fetch of the one enabled ring is all there is to do. -/
theorem doorbell_fetches : ∃ rest, NoFetch p.val rest (pageTaken s p.val page log)
    ∧ doDoorbellRead p (.bytes page) ds (.bytes log) s = fetchRings p page (r.val :: rest) (pageTaken s p.val page log) ds := by
  have hheard := heard_pageTaken (page := page) hport hup hlog
  have hwindow := hheard.window (of_decide_eq_true hport)
  obtain ⟨rest, hrest, hfetch⟩ := fetchRings_only (p := p) (page := page) (List.mem_range.mpr r.isLt) List.nodup_range
    (by rw [hheard.ctl]; exact hmode)
    (fun o ho hne => (State.bit_congr (hwindow _ (crCfg_ge p.val o)) 8).trans (hoff o (List.mem_range.mp ho) hne)) ds
  refine ⟨rest, hrest, Eq.trans ?_ hfetch⟩
  rw [doDoorbellRead_taken hcore (.inl hstate) hport hup hpage hlog, hmode, hstate]
  rfl

omit hcore hpage hstate hmode hon hoff in
theorem cring_pageTaken (o : Nat) : cring ((pageTaken s p.val page log).part p.val) o = cring (s.part p.val) o := by
  rw [part_pageTaken hport hup hlog]
  rfl

/-- A ring that stopped, or whose index has not moved, brings nothing. -/
theorem doorbell_quiet (h : (cring (s.part p.val) r.val).fault = true
      ∨ BitVec.ofNat 64 (leNat (sliceB page (8 * r.val) 8)) = (cring (s.part p.val) r.val).fetch) :
    doDoorbellRead p (.bytes page) ds (.bytes log) s = pageTaken s p.val page log := by
  obtain ⟨rest, hrest, hfetches⟩ := doorbell_fetches (ds := ds) hcore hport hup hpage hlog hstate hmode hoff
  have hheard := heard_pageTaken (page := page) hport hup hlog
  have hring := cring_pageTaken (page := page) hport hup hlog r.val
  have hmode' : (pageTaken s p.val page log).ctl.mode.soile = true := by rw [hheard.ctl]; exact hmode
  have hon' := (State.bit_congr (hheard.window (of_decide_eq_true hport) _ (crCfg_ge p.val r.val)) 8).trans hon
  rw [hfetches]
  by_cases hfault : (cring (s.part p.val) r.val).fault = true
  · exact fetchRings_stopped hmode' hon' hrest (by rw [hring]; exact hfault)
  · have hprod := h.resolve_left hfault
    have hat : (cring ((pageTaken s p.val page log).part p.val) r.val).fetch.toNat = leNat (sliceB page (8 * r.val) 8) := by
      rw [hring, ← hprod, BitVec.toNat_ofNat, Nat.mod_eq_of_lt (leNat_sliceB_lt page _)]
    obtain ⟨more, hnone⟩ := fetchRing_atIndex (base := (pageTaken s p.val page log).pair (PRT_SW_CR_LO p.val r.val) (PRT_SW_CR_HI p.val r.val))
      (fuel := 32) (hs := ds) hat
    refine fetchRings_inReach hmode' hon' (by rw [hring]; simpa using hfault) ?_ hnone hrest
    rw [hring, hprod, BitVec.sub_self]
    exact Nat.not_lt_zero _

theorem doorbell_outOfReach (hfault : (cring (s.part p.val) r.val).fault = false)
    (hfar : 2 ^ cmdLog s p.val r.val < (BitVec.ofNat 64 (leNat (sliceB page (8 * r.val) 8)) - (cring (s.part p.val) r.val).fetch).toNat) :
    doDoorbellRead p (.bytes page) ds (.bytes log) s = ringFault (pageTaken s p.val page log) p.val r.val := by
  obtain ⟨rest, hrest, hfetches⟩ := doorbell_fetches (ds := ds) hcore hport hup hpage hlog hstate hmode hoff
  have hheard := heard_pageTaken (page := page) hport hup hlog
  have hring := cring_pageTaken (page := page) hport hup hlog r.val
  have hcfg := hheard.window (of_decide_eq_true hport) _ (crCfg_ge p.val r.val)
  have hlogs : cmdLog (pageTaken s p.val page log) p.val r.val = cmdLog s p.val r.val := State.fld_congr hcfg 0 4
  rw [hfetches]
  exact fetchRings_outOfReach (by rw [hheard.ctl]; exact hmode) ((State.bit_congr hcfg 8).trans hon) hrest (by rw [hring]; exact hfault)
    (by rw [hring, hlogs]; exact hfar)

/-- One descriptor behind, it is read and acts. -/
theorem doorbell_one {raw : Bytes} (hds : ds = [.bytes raw]) (hraw : raw.length = 64) (hfault : (cring (s.part p.val) r.val).fault = false)
    (hprod : BitVec.ofNat 64 (leNat (sliceB page (8 * r.val) 8)) = (cring (s.part p.val) r.val).fetch + 1) :
    doDoorbellRead p (.bytes page) ds (.bytes log) s = descActs (descTaken (pageTaken s p.val page log) p.val r.val) p
      ⟨r.val, (cring (s.part p.val) r.val).fetch, raw, s.nextFetch⟩ := by
  obtain ⟨rest, hrest, hfetches⟩ := doorbell_fetches (ds := ds) hcore hport hup hpage hlog hstate hmode hoff
  have hheard := heard_pageTaken (page := page) hport hup hlog
  have hring := cring_pageTaken (page := page) hport hup hlog r.val
  have hcfg := hheard.window (of_decide_eq_true hport) _ (crCfg_ge p.val r.val)
  have hmode' : (pageTaken s p.val page log).ctl.mode.soile = true := by rw [hheard.ctl]; exact hmode
  have hown : ((pageTaken s p.val page log).part p.val).port = (s.part p.val).port := by rw [part_pageTaken hport hup hlog]
  have hindex : leNat (sliceB page (8 * r.val) 8) = ((cring (s.part p.val) r.val).fetch + 1).toNat := by
    rw [← hprod, BitVec.toNat_ofNat, Nat.mod_eq_of_lt (leNat_sliceB_lt page _)]
  obtain ⟨more, hone⟩ := fetchRing_one (p := p) (r := r.val) (s := pageTaken s p.val page log) (fuel := 31)
    (base := (pageTaken s p.val page log).pair (PRT_SW_CR_LO p.val r.val) (PRT_SW_CR_HI p.val r.val))
    hmode' (by rw [onPcie, hown]; exact hport) (by rw [hown, hheard.up]; exact hup) hraw
  rw [hring, hheard.nextFetch, ← hindex, show 31 + 1 = 32 from rfl] at hone
  have htaken := NoFetch.descTaken (r := r.val) hrest (by rw [hown]; exact of_decide_eq_true hport)
  have hlater := htaken.kept (keepsRings_descActs _ p ⟨r.val, (cring (s.part p.val) r.val).fetch, raw, s.nextFetch⟩)
  rw [hfetches, hds]
  refine fetchRings_inReach hmode' ((State.bit_congr hcfg 8).trans hon) (by rw [hring]; exact hfault) ?_ hone hlater
  rw [hring, hprod, BitVec.add_comm, BitVec.add_sub_cancel]
  exact Nat.not_lt.mpr (Nat.one_le_two_pow (n := cmdLog (pageTaken s p.val page log) p.val r.val))

end Doorbell

end Sys2Proof.Machine

/-!
PROOFS of the host rings family: descriptors accepted, doorbells read, mirror pages written (R277–R280, R284, R287, R290, R292).
-/

namespace Sys2Proof.Machine

/-! ### A descriptor accepted (R280, R287) -/

section Accept

variable {s : State} {p : Fin 16} {f : Fetched} {h : HostRead}

/-- A descriptor that is accepted is taken out of its partition, and what runs it runs under its place in fetch order. -/
theorem accepted_badOpcode (hcmd : cmdOf (rawOp f.raw) = none) :
    runRaw (s.setPart p.val { s.part p.val with fetched := (s.part p.val).fetched.filter fun g => g.order != f.order }) p f h =
      { done (takenOut s p.val f) (rerouted s (rawReq p f h)) (rawOp f.raw) stBadOpcode with nextFetch := s.nextFetch } := by
  have hroute : rerouted (takenOut s p.val f) (rawReq p f h) = rerouted s (rawReq p f h) := rerouted_congr (fun _ _ => rfl) _
  rw [runRaw_badOpcode hcmd, refuseRaw_eq, ← hroute]
  rfl

/-- The record of reserved bits, where the descriptor is a TIME command. -/
def timeNoted (s : State) (op : Nat) (q : Req) : State :=
  if op = 0x0F01 ∨ op = 0x0F02 then timeReserved (if op = 0x0F01 then 0 else 1) q true s else s

theorem timeNoted_window (s : State) (op : Nat) (q : Req) (a : Nat) (ha : 0xF00000 ≤ a) : (timeNoted s op q).reg a = s.reg a := by
  unfold timeNoted
  split
  · exact timeReserved_window _ q true s a ha
  · rfl

theorem accepted_reserved {run : Req → State → State} (hcmd : cmdOf (rawOp f.raw) = some run) (hres : rawReserved f.raw = true) :
    runRaw (s.setPart p.val { s.part p.val with fetched := (s.part p.val).fetched.filter fun g => g.order != f.order }) p f h =
      { done (timeNoted (takenOut s p.val f) (rawOp f.raw) (rawReq p f h)) (rerouted s (rawReq p f h)) (rawOp f.raw) stReserved with
        nextFetch := s.nextFetch } := by
  have hroute : rerouted (timeNoted (takenOut s p.val f) (rawOp f.raw) (rawReq p f h)) (rawReq p f h) = rerouted s (rawReq p f h) :=
    (rerouted_congr (timeNoted_window _ _ _) _).trans (rerouted_congr (fun _ _ => rfl) _)
  rw [runRaw_reserved hcmd hres, refuseRaw_eq, ← hroute]
  rfl

theorem accepted_runs {run : Req → State → State} (hcmd : cmdOf (rawOp f.raw) = some run) (hres : rawReserved f.raw = false) :
    runRaw (s.setPart p.val { s.part p.val with fetched := (s.part p.val).fetched.filter fun g => g.order != f.order }) p f h =
      { run (rawReq p f h) (takenOut s p.val f) with nextFetch := s.nextFetch } := runRaw_runs hcmd hres

end Accept

/-! ### A descriptor read, a ring stopped -/

theorem IndicesTaken.setCring {s : State} {p : Nat} {page : Bytes} {u : Part} (h : IndicesTaken s p page u) (r : Nat) (v : CRing) :
    IndicesTaken s p page (setCring u r v) := h

theorem part_descTaken (s : State) (p r : Nat) : (descTaken s p r).part p =
    setCring (s.part p) r { cring (s.part p) r with fetch := (cring (s.part p) r).fetch + 1 } := State.part_setPart _ _ _

/-- A ring marked as stopped. -/
def ringStopped (s : State) (p r : Nat) : State := s.setPart p (setCring (s.part p) r { cring (s.part p) r with fault := true })

theorem part_ringStopped (s : State) (p r : Nat) : (ringStopped s p r).part p =
    setCring (s.part p) r { cring (s.part p) r with fault := true } := State.part_setPart _ _ _

theorem ringFault_eq (s : State) (p r : Nat) : ringFault s p r = raise (ringStopped s p r) evRingFault 2 35 p [] := rfl

/-- The page taken, as a later state of a doorbell read shows it. -/
def ShowsPage (s : State) (p : Nat) (page log : Bytes) (t : State) : Prop :=
  IndicesTaken s p page (t.part p) ∧ (t.part p).logCons = plogTaken s p log ∧ t.bit (HIF_HP_STATUS (s.part p).port) 7 = true
    ∧ SameRegsBut [HIF_HP_STATUS (s.part p).port] s t

section Shows

variable {s : State} {p : Fin 16} {page log : Bytes} (hport : onPcie s p.val = true) (hup : linkUp s (s.part p.val).port = true)
  (hlog : log.length = 8)
include hport hup hlog

theorem pageTaken_shows : ShowsPage s p.val page log (pageTaken s p.val page log) := by
  have hheard := heard_pageTaken (page := page) hport hup hlog
  refine ⟨indicesTaken_pageTaken hport hup hlog, ?_, hheard.seen, hheard.regs⟩
  rw [part_pageTaken hport hup hlog]

theorem ringStopped_shows (r : Nat) : ShowsPage s p.val page log (ringStopped (pageTaken s p.val page log) p.val r)
    ∧ cring ((ringStopped (pageTaken s p.val page log) p.val r).part p.val) r = { cring (s.part p.val) r with fault := true }
    ∧ ((ringStopped (pageTaken s p.val page log) p.val r).part p.val).fetched = (s.part p.val).fetched
    ∧ { ringStopped (pageTaken s p.val page log) p.val r with regs := s.regs, parts := s.parts } = s := by
  have hheard := (heard_pageTaken (page := page) hport hup hlog).setPart p.val
    (setCring ((pageTaken s p.val page log).part p.val) r { cring ((pageTaken s p.val page log).part p.val) r with fault := true })
  obtain ⟨hindices, hcount, -, -⟩ := pageTaken_shows (page := page) hport hup hlog
  rw [ShowsPage, part_ringStopped, cring_setCring, cring_pageTaken hport hup hlog]
  refine ⟨⟨hindices.setCring r _, hcount, hheard.seen, hheard.regs⟩, rfl, ?_, hheard.back⟩
  exact (congrArg Part.fetched (part_pageTaken (page := page) hport hup hlog) :)

theorem descTaken_shows (r : Nat) : ShowsPage s p.val page log (descTaken (pageTaken s p.val page log) p.val r)
    ∧ cring ((descTaken (pageTaken s p.val page log) p.val r).part p.val) r =
      { cring (s.part p.val) r with fetch := (cring (s.part p.val) r).fetch + 1 }
    ∧ ((descTaken (pageTaken s p.val page log) p.val r).part p.val).fetched = (s.part p.val).fetched
    ∧ { descTaken (pageTaken s p.val page log) p.val r with regs := s.regs, parts := s.parts, nextFetch := s.nextFetch } = s
    ∧ (descTaken (pageTaken s p.val page log) p.val r).nextFetch = s.nextFetch + 1 := by
  have hheard := heard_pageTaken (page := page) hport hup hlog
  have hown : ((pageTaken s p.val page log).part p.val).port = (s.part p.val).port := by rw [part_pageTaken hport hup hlog]
  have hread := hheard.answered.setPart p.val (setCring ((pageTaken s p.val page log).part p.val) r
    { cring ((pageTaken s p.val page log).part p.val) r with fetch := (cring ((pageTaken s p.val page log).part p.val) r).fetch + 1 })
  obtain ⟨hindices, hcount, -, -⟩ := pageTaken_shows (page := page) hport hup hlog
  rw [ShowsPage, part_descTaken, cring_setCring, cring_pageTaken hport hup hlog, descTaken, hown]
  refine ⟨⟨hindices.setCring r _, hcount, hread.seen, hread.regs⟩, rfl, ?_, hread.back_nextFetch _, congrArg (· + 1) hheard.nextFetch⟩
  exact (congrArg Part.fetched (part_pageTaken (page := page) hport hup hlog) :)

end Shows

end Sys2Proof.Machine

/-!
PROOFS of the host rings family: the status mirror page (R292, R517), and the obligation on descriptors, doorbells and mirror pages.
-/

namespace Sys2Proof.Machine

/-! ### The mirror page (R292) -/

theorem exec_mirrorWrite (p : Fin 16) (s : State) : exec (.mirrorWrite p) s = .next (doMirrorWrite p s) := rfl

/-- The pieces of a partition's mirror page: its body between two writes of the sequence word. -/
def mirrorPieces (s : State) (p : Nat) : List (Nat × Bytes) :=
  [(0x7FF8, leBytes 4 0), (4, mirrorBody s p), (0, leBytes 4 ((s.part p).mirSeq + 1).toNat), (0x7FF8, leBytes 4 ((s.part p).mirSeq + 1).toNat)]

/-- The write of a partition's mirror page. -/
def mirrorPut (s : State) (p : Nat) : State × AccRes := partWrite (raiseN 3) s true p 34 (mirrorBase s p) (mirrorPieces s p)

section Mirror

variable {p : Fin 16} {s : State}

theorem doMirrorWrite_off (h : ¬ (s.ctl.core = true ∧ (s.part p.val).state = .active ∧ mirrorOn s p.val = true)) : doMirrorWrite p s = s := by
  refine if_neg fun hon => h ?_
  simpa [and_assoc] using hon

variable (hon : s.ctl.core = true ∧ (s.part p.val).state = .active ∧ mirrorOn s p.val = true)
include hon

/-- An ACTIVE partition with its mirror on writes a page. -/
theorem doMirrorWrite_on : doMirrorWrite p s =
    if (mirrorPut s p.val).2 = .ok || (mirrorPut s p.val).2 = .held then
      (mirrorPut s p.val).1.setPart p.val { (mirrorPut s p.val).1.part p.val with mirSeq := (s.part p.val).mirSeq + 1 }
    else if hostGone s p.val then (mirrorPut s p.val).1 else faultPart (mirrorPut s p.val).1 p.val 7 := by
  obtain ⟨hcore, hactive, hmirror⟩ := hon
  exact if_pos (by simp [hcore, hactive, hmirror])

/-- A page written, or waiting at a gate, counts in the sequence. -/
theorem doMirrorWrite_made (hres : (mirrorPut s p.val).2 = .ok ∨ (mirrorPut s p.val).2 = .held) : doMirrorWrite p s =
    (mirrorPut s p.val).1.setPart p.val { (mirrorPut s p.val).1.part p.val with mirSeq := (s.part p.val).mirSeq + 1 } := by
  rw [doMirrorWrite_on hon]
  exact if_pos (by simpa using hres)

theorem doMirrorWrite_posted (hport : onPcie s p.val = true) (hup : linkUp s (s.part p.val).port = true) : doMirrorWrite p s =
    ({ s with outbox := s.outbox ++ (mirrorPieces s p.val).map fun w =>
        Out.hostWrite (s.part p.val).port (BitVec.ofNat 64 (mirrorBase s p.val + w.1)) w.2 } : State).setPart p.val
      { s.part p.val with mirSeq := (s.part p.val).mirSeq + 1 } := by
  have hput := partWrite_posts (rz := raiseN 3) (count := true) (slot := 34) (base := mirrorBase s p.val) (ws := mirrorPieces s p.val)
    (cpl := false) hport hup
  rw [doMirrorWrite_made hon (.inl (congrArg Prod.snd hput)), mirrorPut, hput]
  rfl

theorem doMirrorWrite_stored (hport : onPcie s p.val = false)
    (hpass : piecesPass s (engine 34 p.val) (mirrorBase s p.val) (mirrorPieces s p.val)) : doMirrorWrite p s =
    (piecesStored (engine 34 p.val) (mirrorBase s p.val) (mirrorPieces s p.val) s).setPart p.val
      { s.part p.val with mirSeq := (s.part p.val).mirSeq + 1 } := by
  have hput := partWrite_stores (rz := raiseN 3) (count := true) (cpl := false) hport hpass
  have hown : (piecesStored (engine 34 p.val) (mirrorBase s p.val) (mirrorPieces s p.val) s).part p.val = s.part p.val := by
    obtain ⟨_, _, hst⟩ := stored_piecesStored (engine 34 p.val) (mirrorBase s p.val) (mirrorPieces s p.val) s
    rw [hst]
    rfl
  rw [doMirrorWrite_made hon (.inl (congrArg Prod.snd hput)), mirrorPut, hput, hown]

theorem doMirrorWrite_lost (hport : onPcie s p.val = true) (hdown : linkUp s (s.part p.val).port = false) :
    doMirrorWrite p s = s.inc (HIF_HP_DROPPED (s.part p.val).port) := by
  have hgone : hostGone s p.val = true := by rw [hostGone, hport, hdown]; rfl
  rw [doMirrorWrite_on hon, mirrorPut, partWrite_lost hgone, hgone]
  rfl

theorem doMirrorWrite_refused (hport : onPcie s p.val = false) (hres : (mirrorPut s p.val).2 = .denied ∨ (mirrorPut s p.val).2 = .unmapped) :
    doMirrorWrite p s = faultPart (mirrorPut s p.val).1 p.val 7 := by
  have hhost : hostGone s p.val = false := by rw [hostGone, hport]; rfl
  rw [doMirrorWrite_on hon, hhost]
  rcases hres with h | h <;> rw [h] <;> rfl

end Mirror

/-! ### The obligation -/

/-- Settles O35: a head that is ready and first runs as its command under its place in fetch order; a doorbell read takes the page's indices and
then fetches the one enabled ring, which whatever an ABORT or an event brings cannot make another ring of; the mirror page goes as any record
toward the host. -/
theorem fetchAndMirror : Obligations.FetchAndMirror := by
  unfold Obligations.FetchAndMirror
  refine ⟨⟨fun p r h s hidle => ?_, fun p r h s f hcore hmode hhead => ?_⟩, ⟨fun p page ds log s => ⟨fun hidle => ?_, fun hcore hstate => ?_⟩,
    fun p page log ds s hcore hport hup hpage hlog => ?_⟩, fun p s => ?_⟩
  · rw [exec_descriptorAccept, descriptorAccept_idle hidle]
  · intro q op t back
    refine ⟨fun hready => ?_, fun hready hfirst => ?_, fun hready hfirst => ?_⟩
    · rw [exec_descriptorAccept, descriptorAccept_waits hcore hmode hhead hready]
    · rw [exec_descriptorAccept, descriptorAccept_later hcore hmode hhead hready hfirst]
    · rw [exec_descriptorAccept, descriptorAccept_runs hcore hmode hhead hready hfirst]
      exact ⟨fun hcmd => congrArg _ (accepted_badOpcode hcmd), fun run hcmd hres => congrArg _ (accepted_reserved hcmd hres),
        fun run hcmd hres => congrArg _ (accepted_runs hcmd hres)⟩
  · rw [exec_doorbellRead, doDoorbellRead_idle hidle]
  · rw [exec_doorbellRead]
    refine ⟨fun hport hlost => ?_, fun hport => ⟨fun hres => ?_, fun hres => ?_⟩⟩
    · exact congrArg _ (doDoorbellRead_unread hcore hstate (.inl (ringRead_lost hport hlost)))
    · exact congrArg _ (doDoorbellRead_unread hcore hstate (.inr (ringRead_held hport page hres)))
    · exact congrArg _ (doDoorbellRead_unread hcore hstate (.inl (ringRead_refused hport page hres)))
  · intro x logs indices
    rw [exec_doorbellRead]
    have hheard := heard_pageTaken (page := page) hport hup hlog
    have hpart := part_pageTaken (page := page) hport hup hlog
    have hshows := pageTaken_shows (page := page) hport hup hlog
    refine ⟨fun hstate => ?_, fun r hstate hmode hon hoff => ?_⟩
    · refine ⟨_, congrArg _ (doorbell_stopping hcore hport hup hpage hlog hstate), hpart, ?_⟩
      obtain ⟨hindices, -, hseen, hregs⟩ := hshows
      exact ⟨hindices, hseen, hregs, hheard.back⟩
    · intro c prod got
      refine ⟨fun hquiet => ?_, fun hfault hfar => ?_, fun raw hds hraw hfault hprod => ?_⟩
      · exact ⟨_, congrArg _ (doorbell_quiet hcore hport hup hpage hlog hstate hmode hon hoff hquiet), hshows, hpart, hheard.back⟩
      · obtain ⟨hgot, hrest⟩ := ringStopped_shows (page := page) hport hup hlog r.val
        exact ⟨_, congrArg _ ((doorbell_outOfReach hcore hport hup hpage hlog hstate hmode hon hoff hfault hfar).trans (ringFault_eq _ _ _)),
          hgot, hrest⟩
      · intro f
        obtain ⟨hgot, hring, hfetched, hback, hnext⟩ := descTaken_shows (page := page) hport hup hlog r.val
        have hacts := doorbell_one hcore hport hup hpage hlog hstate hmode hon hoff hds hraw hfault hprod
        refine ⟨_, hgot, hring, hfetched, hback, hnext, fun hop => ?_, fun hop => ?_⟩
        · rw [hacts, descActs, if_neg hop, hfetched]
        · rw [hacts, descActs, if_pos hop]
  · intro n base ws on
    refine ⟨fun hoff => ?_, fun hon hport => ⟨fun hup => ?_, fun hdown => ?_⟩, fun hon hport => ?_⟩
    · rw [exec_mirrorWrite, doMirrorWrite_off hoff]
    · exact congrArg _ (doMirrorWrite_posted hon hport hup)
    · rw [exec_mirrorWrite, doMirrorWrite_lost hon hport hdown]
    · intro x
      refine ⟨fun hpass => ?_, fun hres => ?_, fun hres => ?_⟩
      · exact congrArg _ (doMirrorWrite_stored hon hport hpass)
      · exact congrArg _ (doMirrorWrite_refused hon hport hres)
      · exact congrArg _ (doMirrorWrite_made hon (.inr hres))

end Sys2Proof.Machine

/-!
PROOFS of the redundancy family: the image of a checkpoint (R379, R382).
-/

namespace Sys2Proof.Machine

/-! ### Bytes -/

theorem leBytes_length (n v : Nat) : (leBytes n v).length = n := by
  induction n generalizing v with
  | zero => rfl
  | succ n ih => simp [leBytes, ih]

/-- A number reads back from its bytes, as far as they hold it. -/
theorem leNat_leBytes (n v : Nat) : leNat (leBytes n v) = v % 2 ^ (8 * n) := by
  induction n generalizing v with
  | zero => simp [leBytes, leNat, Nat.mod_one]
  | succ n ih =>
    have hpow : 2 ^ (8 * (n + 1)) = 256 * 2 ^ (8 * n) := by rw [Nat.mul_succ, Nat.pow_add]; ring
    rw [leBytes, leNat, ih, hpow, Nat.mod_mul, BitVec.toNat_ofNat]

/-- Bytes read past those in front of them. -/
theorem sliceB_append (xs ys : Bytes) (i n : Nat) : sliceB (xs ++ ys) (xs.length + i) n = sliceB ys i n := by
  unfold sliceB
  refine List.map_congr_left fun k _ => ?_
  rw [List.getD_append_right _ _ _ _ (by omega)]
  congr 1
  omega

/-- The first bytes read. -/
theorem sliceB_front (xs ys : Bytes) : sliceB (xs ++ ys) 0 xs.length = xs := by
  refine List.ext_getElem (sliceB_length _ _ _) fun i _ h => ?_
  simp [sliceB, List.getElem?_append_left h, List.getElem?_eq_getElem h]

/-! ### The sections of an image (R382) -/

/-- A section: its ID, its version and its length before its data. -/
def sectionBlock (id : Nat) (bs : Bytes) : Bytes :=
  leBytes 2 id ++ leBytes 2 (Config.sectionVersion id).toNat ++ leBytes 4 bs.length ++ bs

theorem imageOf_eq (c : Carried) : imageOf c = (upFrom 1 10).flatMap fun id => sectionBlock id (sectionBytes id c) := rfl

section Header

variable (id : Nat) (bs rest : Bytes)

theorem sectionBlock_length : (sectionBlock id bs).length = 8 + bs.length := by
  simp only [sectionBlock, List.length_append, leBytes_length]

theorem sectionBlock_id (h : id ≤ 10) : leNat (sliceB (sectionBlock id bs ++ rest) 0 2) = id := by
  have hfront := sliceB_front (leBytes 2 id) (leBytes 2 (Config.sectionVersion id).toNat ++ (leBytes 4 bs.length ++ (bs ++ rest)))
  rw [leBytes_length] at hfront
  simp only [sectionBlock, List.append_assoc]
  rw [hfront, leNat_leBytes]
  omega

theorem sectionBlock_version : leNat (sliceB (sectionBlock id bs ++ rest) 2 2) = (Config.sectionVersion id).toNat := by
  have hskip := sliceB_append (leBytes 2 id) (leBytes 2 (Config.sectionVersion id).toNat ++ (leBytes 4 bs.length ++ (bs ++ rest))) 0 2
  have hfront := sliceB_front (leBytes 2 (Config.sectionVersion id).toNat) (leBytes 4 bs.length ++ (bs ++ rest))
  rw [leBytes_length] at hskip hfront
  simp only [sectionBlock, List.append_assoc]
  rw [hskip, hfront, leNat_leBytes, Nat.mod_eq_of_lt (Config.sectionVersion id).isLt]

theorem sectionBlock_size (h : bs.length < 2 ^ 32) : leNat (sliceB (sectionBlock id bs ++ rest) 4 4) = bs.length := by
  have hskip := sliceB_append (leBytes 2 id ++ leBytes 2 (Config.sectionVersion id).toNat) (leBytes 4 bs.length ++ (bs ++ rest)) 0 4
  have hfront := sliceB_front (leBytes 4 bs.length) (bs ++ rest)
  rw [List.length_append, leBytes_length, leBytes_length] at hskip
  rw [leBytes_length] at hfront
  simp only [sectionBlock, List.append_assoc] at hskip ⊢
  rw [hskip, hfront, leNat_leBytes, Nat.mod_eq_of_lt h]

theorem sectionBlock_data : ((sectionBlock id bs ++ rest).drop 8).take bs.length = bs := by
  have hhead : (leBytes 2 id ++ leBytes 2 (Config.sectionVersion id).toNat ++ leBytes 4 bs.length).length = 8 := by
    simp only [List.length_append, leBytes_length]
  rw [sectionBlock, List.append_assoc _ bs rest, List.drop_left' hhead, List.take_left]

/-- A section in its place is read, and the sections after it. -/
theorem readImage_block {n last : Nat} (c : Carried) (hlast : last < id) (hid : id ≤ 10) (hlen : bs.length < 2 ^ 32) :
    readImage (n + 1) last (sectionBlock id bs ++ rest) c = readImage n id rest (sectionRead id bs c) := by
  have hwhole : (sectionBlock id bs ++ rest).length = 8 + bs.length + rest.length := by
    rw [List.length_append, sectionBlock_length]
  rw [readImage]
  simp only [sectionBlock_id id bs rest hid, sectionBlock_version, sectionBlock_size id bs rest hlen, sectionBlock_data, hwhole]
  rw [if_neg (by omega), List.drop_left' (sectionBlock_length id bs)]

end Header

/-- A section out of order, of an unknown ID, or longer than what holds it is not read. -/
theorem readImage_refuses {n last : Nat} {bs : Bytes} (c : Carried)
    (h : leNat (sliceB bs 0 2) ≤ last ∨ 10 < leNat (sliceB bs 0 2) ∨ bs.length < 8 + leNat (sliceB bs 4 4)) :
    readImage (n + 1) last bs c = none := by
  rw [readImage]
  exact if_pos (by tauto)

/-- Sections in ascending order are read one after another. -/
theorem readImage_sections (c : Carried) {n last : Nat} (d : Carried) (hlast : last + n ≤ 10)
    (hlen : ∀ id, id < 11 → (sectionBytes id c).length < 2 ^ 32) :
    readImage n last ((upFrom (last + 1) n).flatMap fun id => sectionBlock id (sectionBytes id c)) d
      = some ((upFrom (last + 1) n).foldl (fun d id => sectionState id (sectionNums id c) d) d) := by
  induction n generalizing last d with
  | zero => rfl
  | succ n ih =>
    have hcons : upFrom (last + 1) (n + 1) = (last + 1) :: upFrom (last + 1 + 1) n := by
      simp only [upFrom, List.range_succ_eq_map, List.map_cons, List.map_map, Nat.add_zero]
      congr 1
      exact List.map_congr_left fun k _ => by simp only [Function.comp_apply]; omega
    rw [hcons, List.flatMap_cons, List.foldl_cons,
      readImage_block _ _ _ _ (Nat.lt_succ_self last) (by omega) (hlen _ (by omega)), sectionRead_sectionBytes,
      ih (last := last + 1) _ (by omega)]

/-! ### What a captured state reads back as -/

namespace Ser

variable {α β : Type}

/-- A value that reads back as it was written, whatever numbers follow. -/
def ReadsBack (s : Ser α) (x : α) : Prop := ∀ l, s.get (s.put x ++ l) = (x, l)

/-- What reads back is what its numbers alone say. -/
theorem ReadsBack.get_put {s : Ser α} {x : α} (h : s.ReadsBack x) : (s.get (s.put x)).1 = x := by
  have hx := h []
  rw [List.append_nil] at hx
  rw [hx]

theorem ReadsBack.pair {s : Ser α} {t : Ser β} {x : α} {y : β} (hx : s.ReadsBack x) (hy : t.ReadsBack y) : (s.pair t).ReadsBack (x, y) := by
  intro l
  simp only [Ser.pair, List.append_assoc, hx _, hy l]

/-- Records that read back as what a checkpoint carries of them read back in its tables. -/
theorem readsBack_carryTbl [DecidableEq α] {s : Ser α} {f : α → α} (h : ∀ x, s.ReadsBack (f x)) (d : α) (t : Tbl α) :
    s.tbl.ReadsBack (carryTbl d f t) := by
  have hreads : Reads s fun y => ∃ x, f x = y := by
    rintro _ l ⟨x, rfl⟩
    exact h x l
  refine fun l => tbl_reads hreads _ l fun y hy => ?_
  obtain ⟨hy, -⟩ := List.mem_filter.mp hy
  obtain ⟨x, -, rfl⟩ := List.mem_map.mp hy
  exact ⟨x.2, rfl⟩

end Ser

section Captured

open Ser

variable (s : State) (d : Carried)

/-- What a section's tables add to a carried state. -/
def withTables (id : Nat) (c d : Carried) : Carried :=
  match id with
  | 1 => { d with parts := c.parts }
  | 4 => { d with flows := c.flows, egress := c.egress }
  | 5 => { d with ctxs := c.ctxs, follows := c.follows, encs := c.encs }
  | 6 => { d with surfs := c.surfs }
  | 7 => { d with heads := c.heads, layers := c.layers }
  | 8 => { d with touch := c.touch }
  | 9 => { d with txS := c.txS, txF := c.txF, rxF := c.rxF, rings := c.rings }
  | _ => d

/-- A section's registers and tables read back on top of the sections before it. -/
theorem sectionState_captured (id : Nat) : sectionState id (sectionNums id (captureState s)) d =
    withTables id (captureState s) { d with regs := d.regs.set id ((captureState s).regs.getD id []) } := by
  have hregs := fun l => regs_reads ((captureState s).regs.getD id []) l trivial
  unfold sectionState sectionNums
  simp only [hregs]
  generalize (captureState s).regs = regs
  match id with
  | 1 =>
    have hparts := readsBack_carryTbl part_reads {} s.parts
    exact congrArg (fun x => { d with regs := d.regs.set 1 (regs.getD 1 []), parts := x }) hparts.get_put
  | 4 =>
    have hflows := readsBack_carryTbl flow_reads {} s.flows
    have hegr := readsBack_carryTbl egr_reads {} s.egress
    exact congrArg (fun x => { d with regs := d.regs.set 4 (regs.getD 4 []), flows := x.1, egress := x.2 }) (hflows.pair hegr).get_put
  | 5 =>
    have hctxs := readsBack_carryTbl ctx_reads {} s.ctxs
    have hfollows := readsBack_carryTbl follow_reads {} s.follows
    have hencs := readsBack_carryTbl enc_reads {} s.encs
    exact congrArg (fun x => { d with regs := d.regs.set 5 (regs.getD 5 []), ctxs := x.1, follows := x.2.1, encs := x.2.2 })
      (hctxs.pair (hfollows.pair hencs)).get_put
  | 6 =>
    have hsurfs := readsBack_carryTbl surf_reads {} s.surfs
    exact congrArg (fun x => { d with regs := d.regs.set 6 (regs.getD 6 []), surfs := x }) hsurfs.get_put
  | 7 =>
    have hheads := readsBack_carryTbl head_reads {} s.heads
    have hlayers := readsBack_carryTbl layer_reads {} s.layers
    exact congrArg (fun x => { d with regs := d.regs.set 7 (regs.getD 7 []), heads := x.1, layers := x.2 }) (hheads.pair hlayers).get_put
  | 8 =>
    have htouch := readsBack_carryTbl touch_reads {} s.touch
    exact congrArg (fun x => { d with regs := d.regs.set 8 (regs.getD 8 []), touch := x }) htouch.get_put
  | 9 =>
    have htxS := readsBack_carryTbl tx_reads {} s.chain.txS
    have htxF := readsBack_carryTbl tx_reads {} s.chain.txF
    have hrxF := readsBack_carryTbl rx_reads {} s.chain.rxF
    have hrings := readsBack_carryTbl ctrl_reads none (s.parts.map fun x => (x.1, x.2.ctrlRing))
    exact congrArg (fun x => { d with regs := d.regs.set 9 (regs.getD 9 []), txS := x.1, txF := x.2.1, rxF := x.2.2.1, rings := x.2.2.2 })
      (htxS.pair (htxF.pair (hrxF.pair hrings))).get_put
  | 0 | 2 | 3 | 10 | _ + 11 => rfl

/-- The registers of the ten sections, put one after another into an empty list of sections. -/
theorem foldl_set_sections (g : Nat → List (Nat × Word)) (h : g 0 = []) :
    (upFrom 1 10).foldl (fun rs id => rs.set id (((List.range 11).map g).getD id [])) (List.replicate 11 []) = (List.range 11).map g := by
  simp [upFrom, List.range_succ, List.replicate_succ, h]

/-- All ten sections together say what was captured. -/
theorem foldl_sectionState_captured :
    (upFrom 1 10).foldl (fun d id => sectionState id (sectionNums id (captureState s)) d) {} = captureState s := by
  have hregs := foldl_set_sections
    (fun id => ((sectionRegs id).filter fun a => carriedWord s a != carriedReset a).map fun a => (a, carriedWord s a)) rfl
  simp only [sectionState_captured]
  exact congrArg (fun r => { captureState s with regs := r }) hregs

end Captured

/-! ### The obligation -/

/-- Settles O60: the sections of an image are read one after another, each back to the registers and tables it was written from. -/
theorem checkpointImage : Obligations.CheckpointImage := by
  unfold Obligations.CheckpointImage
  refine ⟨fun c => ⟨Config.sectionVersion, fun id => sectionBytes id c, imageOf_eq c⟩, fun s hlen => ?_, fun n last bs c => ?_,
    fun s l m js cs b g => rfl⟩
  · have hread := readImage_sections (captureState s) (n := 10) (last := 0) {} (Nat.le_refl 10) hlen
    rwa [foldl_sectionState_captured, ← imageOf_eq] at hread
  · exact readImage_refuses c

end Sys2Proof.Machine

/-!
PROOFS of the chain family: what sending messages changes (R350, R351) — the chain's ports, its registers and what leaves the part, and
nothing else.
-/

namespace Sys2Proof.Machine

/-- Nothing but the chain, its registers and the outputs differs. -/
structure OnlyChain (s t : State) : Prop where
  regs : ∀ a, a < 0x270000 ∨ 0x280000 ≤ a → t.reg a = s.reg a
  back : { t with regs := s.regs, chain := s.chain, outbox := s.outbox } = s

theorem OnlyChain.refl (s : State) : OnlyChain s s := ⟨fun _ _ => rfl, rfl⟩

theorem OnlyChain.trans {s t u : State} (h : OnlyChain s t) (k : OnlyChain t u) : OnlyChain s u := by
  refine ⟨fun a ha => (k.regs a ha).trans (h.regs a ha), ?_⟩
  calc { u with regs := s.regs, chain := s.chain, outbox := s.outbox }
    _ = { ({ u with regs := t.regs, chain := t.chain, outbox := t.outbox } : State) with
          regs := s.regs, chain := s.chain, outbox := s.outbox } := rfl
    _ = { t with regs := s.regs, chain := s.chain, outbox := s.outbox } := by rw [k.back]
    _ = s := h.back

theorem OnlyChain.ite {s t u : State} {c : Prop} [Decidable c] (ht : OnlyChain s t) (hu : OnlyChain s u) :
    OnlyChain s (if c then t else u) := by
  split
  · exact ht
  · exact hu

theorem OnlyChain.foldl {α : Type} {f : State → α → State} (h : ∀ s x, OnlyChain s (f s x)) (xs : List α) (s : State) :
    OnlyChain s (xs.foldl f s) := by
  induction xs generalizing s with
  | nil => exact .refl s
  | cons x xs ih => exact (h s x).trans (ih _)

/-- A change of the chain and the outputs alone. -/
theorem OnlyChain.of_regs_eq {s t : State} (hr : t.regs = s.regs)
    (hb : { t with regs := s.regs, chain := s.chain, outbox := s.outbox } = s) : OnlyChain s t :=
  ⟨fun a _ => congrArg (tget regReset · a) hr, hb⟩

theorem OnlyChain.pwr {s t : State} (h : OnlyChain s t) : t.pwr = s.pwr := (congrArg State.pwr h.back :)

theorem onlyChain_setReg {a : Nat} (s : State) (v : Word) (ha : 0x270000 ≤ a) (ha' : a < 0x280000) : OnlyChain s (s.setReg a v) :=
  ⟨fun b hb => State.reg_setReg_ne s v (by omega), rfl⟩

theorem onlyChain_setPort (s : State) (p : Nat) (v : ChnPort) : OnlyChain s (s.setPort p v) := .of_regs_eq rfl rfl

theorem onlyChain_emit (s : State) (o : Out) : OnlyChain s (s.emit o) := .of_regs_eq rfl rfl

theorem onlyChain_sendAck (s : State) (p : Nat) : OnlyChain s (sendAck s p) := (onlyChain_setPort s p _).trans (onlyChain_emit _ _)

theorem onlyChain_freeFlits (s : State) (p c n : Nat) (tell : Bool) : OnlyChain s (freeFlits s p c n tell) := by
  have hfreed := onlyChain_setPort s p { s.port p with recv := (s.port p).recv.set c ((s.port p).recv.getD c 0 + n) }
  exact .ite (.refl s) (.ite (hfreed.trans (onlyChain_sendAck _ p)) hfreed)

theorem onlyChain_markSend (s : State) (p : Nat) (way : Way) (m : Msg) (seq : BitVec 32) : OnlyChain s (markSend s p way m seq) :=
  .ite (.refl s) (.of_regs_eq rfl rfl)

theorem onlyChain_startCls (s : State) (p c : Nat) : OnlyChain s (startCls s p c) := by
  unfold startCls
  extract_lets q
  refine .ite (.refl s) ?_
  split
  · exact .refl s
  · exact .ite ((onlyChain_markSend s p _ _ _).trans (onlyChain_setPort _ p _)) (.refl s)

section Port

variable {p : Nat} (hp : p < 2)
include hp

theorem onlyChain_sendFlit (s : State) (code : BitVec 4) (bs : Bytes) (poison : Bool) : OnlyChain s (sendFlit s p code bs poison) := by
  have hcount : 0x270000 ≤ CHN_P_TX_FLITS p ∧ CHN_P_TX_FLITS p < 0x280000 := by
    unfold CHN_P_TX_FLITS
    omega
  exact ((onlyChain_setPort s p _).trans (onlyChain_setReg _ _ hcount.1 hcount.2)).trans (onlyChain_emit _ _)

theorem onlyChain_sendOne (s : State) (c : Nat) : OnlyChain s (sendOne s p c) := by
  unfold sendOne
  extract_lets q
  split
  · exact ((onlyChain_setPort s p _).trans (onlyChain_sendFlit hp _ _ _ _)).trans (.ite (onlyChain_freeFlits _ _ _ _ _) (.refl _))
  · exact .refl s

theorem onlyChain_pump (fuel : Nat) (s : State) : OnlyChain s (pump fuel s p) := by
  induction fuel generalizing s with
  | zero => exact .refl s
  | succ fuel ih =>
    unfold pump
    refine .ite (.refl s) ?_
    extract_lets started
    have hstarted : OnlyChain s started := .foldl (fun s c => onlyChain_startCls s p c) _ s
    split
    · exact hstarted.trans ((onlyChain_sendOne hp _ _).trans (ih _))
    · exact hstarted

theorem onlyChain_portSend (s : State) (way : Way) (m : Msg) : OnlyChain s (portSend s p way m) := by
  have hcount : 0x270000 ≤ CHN_P_DEADEND p ∧ CHN_P_DEADEND p < 0x280000 := by
    unfold CHN_P_DEADEND
    omega
  have hfreed := OnlyChain.ite (c := way = .held) (onlyChain_freeFlits s (1 - p) m.cls m.flits true) (.refl s)
  exact .ite (hfreed.trans (onlyChain_setReg _ _ hcount.1 hcount.2)) ((onlyChain_setPort s p _).trans (onlyChain_pump hp _ _))

end Port

theorem onlyChain_newMsg (s : State) (kind dst : Nat) (bcast : Bool) (hdr : Nat) (body : Bytes) :
    OnlyChain s (newMsg s kind dst bcast hdr body).1 := .of_regs_eq rfl rfl

theorem onlyChain_broadcast (s : State) (kind hdr : Nat) (body : Bytes) : OnlyChain s (broadcast s kind hdr body) :=
  (onlyChain_newMsg s kind 0 true hdr body).trans
    ((onlyChain_portSend (by decide) _ .own _).trans (onlyChain_portSend (by decide) _ .own _))

end Sys2Proof.Machine

/-!
PROOFS of the power family: the arbiter (R435–R440) — what a tick grants and within what budget, requests that wait too long, tokens freed,
PLLs that stop.
-/

namespace Sys2Proof.Machine

/-! ### Tokens in use (R436) -/

/-- The tokens that an item of the arbiter has. -/
def PwrItem.holds (i : PwrItem) : Nat := if i.granted then i.tokens else i.paid

/-- The tokens that items have. -/
def tokensHeld (is : List PwrItem) : Nat := (is.map PwrItem.holds).sum

theorem tokensHeld_cons (i : PwrItem) (is : List PwrItem) : tokensHeld (i :: is) = i.holds + tokensHeld is := by
  simp [tokensHeld]

theorem pwrG_eq_tokensHeld (s : State) : pwrG s = tokensHeld s.pwr.items := by
  have hacc (is : List PwrItem) (n : Nat) :
      is.foldl (fun n (x : PwrItem) => n + if x.granted then x.tokens else x.paid) n = n + tokensHeld is := by
    induction is generalizing n with
    | nil => rfl
    | cons i is ih =>
      rw [List.foldl_cons, ih, tokensHeld_cons, PwrItem.holds]
      omega
  rw [pwrG, hacc, Nat.zero_add]

/-! ### The walk of a tick (R437, R438) -/

/-- A walk gives out at most what is left of the tick, and nothing beyond the budget. -/
theorem pwrWalk_grants (b used left : Nat) (is : List PwrItem) : ∃ k, tokensHeld (pwrWalk b used left is).1 ≤ tokensHeld is + k
    ∧ k ≤ left ∧ (k = 0 ∨ used + k ≤ b) := by
  induction is generalizing used left with
  | nil => exact ⟨0, Nat.le_refl _, Nat.zero_le _, .inl rfl⟩
  | cons i is ih =>
    rw [pwrWalk]
    by_cases hgranted : i.granted = true
    · obtain ⟨k, hheld, hleft, hb⟩ := ih used left
      refine ⟨k, ?_, hleft, hb⟩
      simp only [hgranted, if_true, tokensHeld_cons]
      omega
    · have hpaid : i.holds = i.paid := if_neg hgranted
      rw [if_neg hgranted]
      dsimp only
      split
      next => exact ⟨0, Nat.le_refl _, Nat.zero_le _, .inl rfl⟩
      next hfits =>
        split
        next hlong =>
          have hpart : PwrItem.holds { i with paid := i.paid + 60 } = i.paid + 60 := if_neg hgranted
          refine ⟨60, ?_, ?_, .inr (by omega)⟩
          · rw [tokensHeld_cons, tokensHeld_cons, hpart, hpaid]
            omega
          · have hmin : Nat.min 60 (i.tokens - i.paid) = 60 := Nat.min_eq_left (by omega)
            omega
        next hshort =>
          have hmin : Nat.min 60 (i.tokens - i.paid) = i.tokens - i.paid := Nat.min_eq_right (by omega)
          obtain ⟨k, hheld, hleft, hb⟩ := ih (used + (i.tokens - i.paid)) (left - (i.tokens - i.paid))
          have hall : PwrItem.holds { i with granted := true } = i.tokens := if_pos rfl
          refine ⟨i.tokens - i.paid + k, ?_, by omega, by omega⟩
          rw [tokensHeld_cons, tokensHeld_cons, hall, hpaid]
          omega

/-! ### What a grant keeps -/

theorem pllStart_pwr (s : State) (p : Nat) : (pllStart s p).pwr.items = s.pwr.items ∧ (pllStart s p).pwr.heads = s.pwr.heads := by
  unfold pllStart
  split <;> exact ⟨rfl, rfl⟩

theorem tokensHeld_map {f : PwrItem → PwrItem} (h : ∀ i, (f i).holds = i.holds) (is : List PwrItem) :
    tokensHeld (is.map f) = tokensHeld is := by
  simp only [tokensHeld, List.map_map]
  congr 1
  exact List.map_congr_left fun i _ => h i

/-- What a grant brings leaves every item its tokens, and every reservation. -/
theorem onGrant_keeps (s : State) (id : Nat) :
    tokensHeld (onGrant s id).pwr.items = tokensHeld s.pwr.items ∧ (onGrant s id).pwr.heads = s.pwr.heads := by
  obtain ⟨hitems, hheads⟩ := pllStart_pwr s (classPll (id / 256))
  unfold onGrant
  split
  all_goals
    refine ⟨?_, hheads⟩
    refine (tokensHeld_map (fun i => ?_) _).trans (congrArg _ hitems)
    split <;> rfl

theorem foldl_onGrant_keeps (ids : List Nat) (s : State) :
    tokensHeld (ids.foldl onGrant s).pwr.items = tokensHeld s.pwr.items ∧ (ids.foldl onGrant s).pwr.heads = s.pwr.heads := by
  induction ids generalizing s with
  | nil => exact ⟨rfl, rfl⟩
  | cons id ids ih =>
    obtain ⟨hitems, hheads⟩ := onGrant_keeps s id
    obtain ⟨hitems', hheads'⟩ := ih (onGrant s id)
    exact ⟨hitems'.trans hitems, hheads'.trans hheads⟩

/-! ### The tick -/

theorem exec_arbiterTick (s : State) : exec .arbiterTick s = .next (doArbiterTick s) := rfl

theorem doArbiterTick_idle {s : State} (h : s.ctl.core = false ∨ s.pwr.halted = true) : doArbiterTick s = s := by
  refine if_pos ?_
  rcases h with h | h <;> simp [h]

/-- The tokens of a tick that reservations leave to requests. -/
def tickLeft (s : State) : Nat :=
  if (takeOwed (60 - s.pwr.spent) s.pwr.owed).2 = [] then (takeOwed (60 - s.pwr.spent) s.pwr.owed).1 else 0

/-- The walk of a tick. -/
def tickWalk (s : State) : List PwrItem × List Nat := pwrWalk (pwrB s) (pwrR s + pwrG s) (tickLeft s) s.pwr.items

theorem doArbiterTick_runs {s : State} (hc : s.ctl.core = true) (hh : s.pwr.halted = false) : doArbiterTick s =
    (tickWalk s).2.foldl onGrant { s with pwr := { s.pwr with
      items := (tickWalk s).1, owed := (takeOwed (60 - s.pwr.spent) s.pwr.owed).2, spent := 0 } } := by
  unfold doArbiterTick tickWalk tickLeft
  simp only [hc, hh, List.isEmpty_iff, Bool.not_true, Bool.or_self, Bool.false_eq_true, if_false]

/-- Reservations are taken in their order, while the tokens of the tick last. -/
theorem takeOwed_takes (left : Nat) (xs : List (Nat × Nat)) : ∃ took, xs = took ++ (takeOwed left xs).2
    ∧ (took.map (·.2)).sum + (takeOwed left xs).1 = left ∧ ∀ x ∈ (takeOwed left xs).2.head?, (takeOwed left xs).1 < x.2 := by
  induction xs generalizing left with
  | nil => exact ⟨[], rfl, Nat.zero_add _, by simp [takeOwed]⟩
  | cons x xs ih =>
    rw [takeOwed]
    split
    next hfits =>
      obtain ⟨took, hxs, hsum, hnext⟩ := ih (left - x.2)
      refine ⟨x :: took, by rw [List.cons_append, ← hxs], ?_, hnext⟩
      rw [List.map_cons, List.sum_cons]
      omega
    next hover => exact ⟨[], rfl, Nat.zero_add _, by simpa using hover⟩

theorem takeOwed_le (left : Nat) (xs : List (Nat × Nat)) : (takeOwed left xs).1 ≤ left := by
  obtain ⟨took, -, hsum, -⟩ := takeOwed_takes left xs
  omega

theorem tickLeft_le (s : State) : tickLeft s ≤ 60 := by
  have := takeOwed_le (60 - s.pwr.spent) s.pwr.owed
  unfold tickLeft
  split <;> omega

/-- Settles O31: what a walk gives out is bounded by the budget and by the tokens of the tick; what grants bring leaves the tokens. -/
theorem arbiterBudget : Obligations.ArbiterBudget := by
  intro s t h hin
  obtain rfl : doArbiterTick s = t := Host.Outcome.next.inj h
  by_cases hidle : s.ctl.core = false ∨ s.pwr.halted = true
  · rw [doArbiterTick_idle hidle]
    omega
  · obtain ⟨hc, hh⟩ : s.ctl.core = true ∧ s.pwr.halted = false := by simpa using hidle
    obtain ⟨hheld, hheads⟩ := foldl_onGrant_keeps (tickWalk s).2 { s with pwr := { s.pwr with
      items := (tickWalk s).1, owed := (takeOwed (60 - s.pwr.spent) s.pwr.owed).2, spent := 0 } }
    obtain ⟨k, hgrants, hleft, hbudget⟩ := pwrWalk_grants (pwrB s) (pwrR s + pwrG s) (tickLeft s) s.pwr.items
    have hsixty := tickLeft_le s
    have hR : pwrR (doArbiterTick s) = pwrR s := by rw [doArbiterTick_runs hc hh, pwrR, hheads]; rfl
    have hG : pwrG (doArbiterTick s) = tokensHeld (tickWalk s).1 := by rw [pwrG_eq_tokensHeld, doArbiterTick_runs hc hh, hheld]
    have hG' := pwrG_eq_tokensHeld s
    rw [← tickWalk] at hgrants
    omega

/-! ### Requests that wait, tokens freed, PLLs that stop (R435, R437, R439, R440) -/

/-- A request of a class that waits beyond its limit, not yet recorded. -/
def powerLate (s : State) (cls : Nat) (i : PwrItem) : Bool :=
  i.cls == cls && !i.granted && !i.deferred && decide (i.at_ + 1000 * s.fld PWR_DEFER_THR 0 16 < s.island)

theorem exec_powerDeferred_none {cls : Fin 6} {s : State} (h : s.pwr.items.find? (powerLate s cls.val) = none) :
    exec (.powerDeferred cls) s = .next s := by
  refine congrArg Host.Outcome.next ?_
  unfold powerLate at h
  simp only [doPowerDeferred, h]

theorem exec_powerDeferred_some {cls : Fin 6} {s : State} {i : PwrItem} (h : s.pwr.items.find? (powerLate s cls.val) = some i) :
    let u := ({ s with pwr := { s.pwr with items := s.pwr.items.map fun x => if x = i then { x with deferred := true } else x } } : State).inc
      (PWR_DEFER cls.val)
    let t := raiseKey u cls.val evPowerDeferred 0 4 31 [(cls.val, 8), (pwrB u, 11), (pwrR u, 11), (pwrG u, 11)]
    exec (.powerDeferred cls) s = .next (if quietNow s evPowerDeferred cls.val then t else evcPulse t 52) := by
  refine congrArg Host.Outcome.next ?_
  unfold powerLate at h
  simp only [doPowerDeferred, h]
  rfl

/-- An item that has ended and whose clock has stopped. -/
def tokensFree (s : State) (id : Nat) (i : PwrItem) : Bool := i.id == id && i.ended && decide (i.due ≤ s.island)

/-- The arbiter without an item, whose PLL was used until now. -/
def tokensFreed (s : State) (i : PwrItem) : State :=
  { s with pwr := { s.pwr with items := s.pwr.items.erase i, used := tset (fun _ => 0) s.pwr.used (classPll i.cls) s.island } }

theorem exec_tokenRelease (id : Nat) (s : State) :
    exec (.tokenRelease id) s = .next ((s.pwr.items.find? (tokensFree s id)).elim s (tokensFreed s)) := by
  refine congrArg Host.Outcome.next ?_
  unfold doTokenRelease tokensFree
  split <;> (next h => rw [h]; rfl)

theorem pllIdle_iff {s : State} {p : Nat} : pllIdle s p = true ↔
    pllBusy s p = false ∧ tget (fun _ => 0) s.pwr.used p + 1000000 * s.fld (CLK_PLL_CTRL p) 8 8 ≤ s.island := by
  simp only [pllIdle, Bool.and_eq_true, Bool.not_eq_true', decide_eq_true_eq]

/-- The PLLs that can be set to stop of themselves, 1–3, idle for their time. -/
def PllRests (s : State) (p : Nat) : Prop :=
  (p = 1 ∨ p = 2 ∨ p = 3) ∧ s.ctl.core = true ∧ s.bit (CLK_PLL_CTRL p) 0 = false ∧ pllBusy s p = false
    ∧ tget (fun _ => 0) s.pwr.used p + 1000000 * s.fld (CLK_PLL_CTRL p) 8 8 ≤ s.island

theorem pllRests_iff {s : State} {p : Nat} :
    ([1, 2, 3].contains p && s.ctl.core && !s.bit (CLK_PLL_CTRL p) 0 && pllIdle s p) = true ↔ PllRests s p := by
  simp only [PllRests, Bool.and_eq_true, pllIdle_iff, and_assoc, Bool.not_eq_true', List.contains_eq_mem, List.mem_cons, List.not_mem_nil,
    or_false, decide_eq_true_eq]

theorem exec_pllIdleStop (p : Fin 16) (s : State) :
    (PllRests s p.val → exec (.pllIdleStop p) s = .next (pllStop s p.val)) ∧ (¬ PllRests s p.val → exec (.pllIdleStop p) s = .next s) :=
  ⟨fun h => congrArg _ (if_pos (pllRests_iff.mpr h)), fun h => congrArg _ (if_neg fun hrests => h (pllRests_iff.mp hrests))⟩

/-- Settles O30, one clause for each of the arbiter's steps. -/
theorem powerArbiter : Obligations.PowerArbiter := by
  refine ⟨fun s => ⟨fun h => ?_, fun hc hh => ?_⟩, takeOwed_takes, fun cls s => ⟨exec_powerDeferred_none, fun i => exec_powerDeferred_some⟩,
    fun id s => ⟨fun h => ?_, fun i h => ?_⟩, exec_pllIdleStop⟩
  · rw [exec_arbiterTick, doArbiterTick_idle h]
  · exact congrArg Host.Outcome.next (doArbiterTick_runs hc hh)
  · rw [exec_tokenRelease, show s.pwr.items.find? (tokensFree s id) = none from h, Option.elim]
  · refine ⟨tokensFreed s i, ?_, rfl, rfl, rfl⟩
    rw [exec_tokenRelease, show s.pwr.items.find? (tokensFree s id) = some i from h, Option.elim]

end Sys2Proof.Machine

/-!
PROOFS of the power family: the temperature (R441) — what a sample shows, and the shutdown, whose entry into YIELD stops the engine PLLs.
-/

namespace Sys2Proof.Machine

/-! ### What the entry into YIELD leaves of the clocks -/

/-- The halt of the arbiter and the clock block's registers are those of before. -/
structure KeepsClocks (s t : State) : Prop where
  halted : t.pwr.halted = s.pwr.halted
  regs   : ∀ a, 0x30000 ≤ a → a < 0x40000 → t.reg a = s.reg a

theorem KeepsClocks.refl (s : State) : KeepsClocks s s := ⟨rfl, fun _ _ _ => rfl⟩

theorem KeepsClocks.trans {s t u : State} (h : KeepsClocks s t) (k : KeepsClocks t u) : KeepsClocks s u :=
  ⟨k.halted.trans h.halted, fun a hl hu => (k.regs a hl hu).trans (h.regs a hl hu)⟩

theorem KeepsClocks.of_eq {s t : State} (hh : t.pwr.halted = s.pwr.halted) (hr : t.regs = s.regs) : KeepsClocks s t :=
  ⟨hh, fun a _ _ => congrArg (tget regReset · a) hr⟩

theorem KeepsClocks.ite {s t u : State} {c : Prop} [Decidable c] (ht : KeepsClocks s t) (hu : KeepsClocks s u) :
    KeepsClocks s (if c then t else u) := by
  split
  · exact ht
  · exact hu

theorem KeepsClocks.foldl {α : Type} {f : State → α → State} (h : ∀ s x, KeepsClocks s (f s x)) (xs : List α) (s : State) :
    KeepsClocks s (xs.foldl f s) := by
  induction xs generalizing s with
  | nil => exact .refl s
  | cons x xs ih => exact (h s x).trans (ih _)

theorem KeepsClocks.of_onlyChain {s t : State} (h : OnlyChain s t) : KeepsClocks s t :=
  ⟨congrArg Pwr.halted h.pwr, fun a _ hu => h.regs a (.inl (by omega))⟩

theorem KeepsClocks.of_stored {s t : State} (h : Stored s t) : KeepsClocks s t := by
  obtain ⟨_, _, rfl⟩ := h
  exact .of_eq rfl rfl

section Registers

variable {a : Nat} (s : State) (ha : 0x40000 ≤ a)
include ha

theorem keepsClocks_setReg (v : Word) : KeepsClocks s (s.setReg a v) := ⟨rfl, fun b _ hu => State.reg_setReg_ne s v (by omega)⟩

theorem keepsClocks_inc : KeepsClocks s (s.inc a) := keepsClocks_setReg s ha _

theorem keepsClocks_setPair {b : Nat} (hb : 0x40000 ≤ b) (v : Nat) : KeepsClocks s (s.setPair a b v) :=
  (keepsClocks_setReg s ha _).trans (keepsClocks_setReg _ hb _)

end Registers

theorem keepsClocks_dceCount (s : State) (e st consumed produced : Nat) : KeepsClocks s (dceCount s e st consumed produced) := by
  have hinc : ∀ {off} (s : State), KeepsClocks s (s.inc ((42 + e) * 0x10000 + off)) := fun s => keepsClocks_inc s (by omega)
  have hpair : ∀ {lo hi} (s : State) v, KeepsClocks s (s.setPair ((42 + e) * 0x10000 + lo) ((42 + e) * 0x10000 + hi) v) :=
    fun s v => keepsClocks_setPair s (by omega) (by omega) v
  unfold dceCount
  extract_lets jobs failed full check read
  have hfailed : KeepsClocks s failed := (hinc s).trans (.ite (.refl _) (hinc _))
  have hcheck : KeepsClocks s check := (hfailed.trans (.ite (hinc _) (.refl _))).trans (.ite (hinc _) (.refl _))
  exact (hcheck.trans (hpair _ _)).trans (hpair _ _)

theorem keepsClocks_voidFill (s : State) (slot p a n : Nat) : KeepsClocks s (voidFill s slot p a n) := by
  have hdrawn : KeepsClocks s (s.draws n) := .of_eq rfl rfl
  exact hdrawn.trans (.of_stored (stored_storeParts _ _ _ _ _))

theorem keepsClocks_dceStop (s : State) (e : Nat) (j : Job) (src : Option Bytes) : KeepsClocks s (dceStop s e j src).1 := by
  unfold dceStop
  extract_lets q p open_ drawn voided comp fin
  have hdrawn : KeepsClocks s drawn := .of_eq rfl rfl
  have hvoided : KeepsClocks s voided := hdrawn.trans (.ite (keepsClocks_voidFill _ _ _ _ _) (.refl _))
  have hfin : ∀ consumed produced crc check, KeepsClocks s (fin consumed produced crc check).1 := fun _ _ _ _ =>
    hvoided.trans (keepsClocks_dceCount _ _ _ _ _)
  split
  · exact hfin _ _ _ _
  · extract_lets had out out'
    split
    · exact hfin _ _ _ _
    · exact hfin _ _ _ _

theorem keepsClocks_crcPost (s : State) (u : Nat) (q : Req) (rst value bytes : Nat) : KeepsClocks s (crcPost s u q rst value bytes) := by
  have hreg : ∀ {off} (s : State) v, KeepsClocks s (s.setReg ((44 + u) * 0x10000 + off) v) := fun s v => keepsClocks_setReg s (by omega) v
  exact ((hreg s _).trans (hreg _ _)).trans (((hreg _ _).trans (hreg _ _)).trans (hreg _ _))

theorem keepsClocks_cutJob (s : State) (j : Job) : KeepsClocks s (cutJob s j) := by
  unfold cutJob
  extract_lets put
  have hput : ∀ x, KeepsClocks x.1 (put x) := fun x => .of_eq rfl rfl
  split
  · exact (keepsClocks_dceStop s _ j _).trans (hput _)
  · extract_lets posted
    have hdrawn : KeepsClocks s s.draw := .of_eq rfl rfl
    exact (hdrawn.trans (keepsClocks_crcPost _ _ _ _ _ _)).trans (hput (_, _))
  · exact .refl s

theorem keepsClocks_yieldJobs (cut : Bool) (s : State) : KeepsClocks s (yieldJobs cut s) := by
  unfold yieldJobs
  extract_lets u on aborts stays chain rdn v
  have hu : KeepsClocks s u := .ite (.foldl keepsClocks_cutJob _ s) (.refl s)
  clear_value u
  exact hu.trans (.of_eq rfl rfl)

theorem keepsClocks_pinsOff (s : State) (p : Nat) : KeepsClocks s (pinsOff s p) := by
  have hoff : KeepsClocks s (s.setTch p { s.tch p with slots := [], scanning := false, driven := false }) := .of_eq rfl rfl
  exact .ite (hoff.trans (.of_eq rfl rfl)) hoff

/-! ### The entry into YIELD at a shutdown -/

/-- The PLLs that a thermal shutdown stops (R441): those of the engines and the desk, and of the quads. -/
def thermalPlls : List Nat := [1, 2, 3, 8, 9, 10, 11, 12, 13, 14, 15]

/-- The clocks stand still: the arbiter halted, the PLLs stopped. -/
def ClocksStand (t : State) : Prop := t.pwr.halted = true ∧ ∀ p ∈ thermalPlls, t.bit (CLK_PLL_STATUS p) 0 = false

theorem ClocksStand.keeps {s t : State} (h : ClocksStand s) (k : KeepsClocks s t) : ClocksStand t := by
  have hblock : ∀ p ∈ thermalPlls, 0x30000 ≤ CLK_PLL_STATUS p ∧ CLK_PLL_STATUS p < 0x40000 := by decide
  obtain ⟨hhalted, hstopped⟩ := h
  refine ⟨k.halted.trans hhalted, fun p hp => ?_⟩
  exact (State.bit_congr (k.regs _ (hblock p hp).1 (hblock p hp).2) 0).trans (hstopped p hp)

theorem foldl_pllStop_reg (ps : List Nat) (s : State) (a : Nat) :
    (ps.foldl pllStop s).reg a = if a ∈ ps.map CLK_PLL_STATUS then 0 else s.reg a := by
  induction ps generalizing s with
  | nil => simp
  | cons p ps ih =>
    rw [List.foldl_cons, ih, List.map_cons]
    by_cases hp : a = CLK_PLL_STATUS p
    · subst hp
      simp [pllStop, State.reg_setReg_same]
    · simp only [pllStop, State.reg_setReg_ne s 0 hp, List.mem_cons, hp, false_or]

theorem foldl_pllStop_pwr (ps : List Nat) (s : State) : (ps.foldl pllStop s).pwr = s.pwr := by
  induction ps generalizing s with
  | nil => rfl
  | cons p ps ih => exact ih _

theorem thermalHalt_stands (s : State) : ClocksStand (thermalHalt s) := by
  refine ⟨congrArg Pwr.halted (foldl_pllStop_pwr thermalPlls _), fun p hp => ?_⟩
  have hzero : (thermalHalt s).reg (CLK_PLL_STATUS p) = 0 :=
    (foldl_pllStop_reg thermalPlls _ _).trans (if_pos (List.mem_map_of_mem hp))
  unfold State.bit
  rw [hzero]
  rfl

/-- At a thermal shutdown the entry into YIELD leaves the clocks standing. -/
theorem enterYield_stands (s : State) (cls part det : Nat) : ClocksStand (enterYield s evThermalShutdown cls part det) := by
  unfold enterYield
  extract_lets noted captured left ctl yielding stopped held cleared
  have hstopped : ClocksStand stopped := by
    have hdark : ∀ t : State, KeepsClocks t (allDark t) := fun _ => .of_eq rfl rfl
    have hnorm : ∀ t : State, KeepsClocks t t.norm := fun _ => .of_eq rfl rfl
    have hpins : ∀ t : State, KeepsClocks t (t.each 2 pinsOff) := fun t => .foldl keepsClocks_pinsOff _ t
    exact (thermalHalt_stands yielding).keeps ((hdark _).trans ((keepsClocks_yieldJobs _ _).trans ((hnorm _).trans (hpins _))))
  have hcleared : ClocksStand cleared := hstopped.keeps (keepsClocks_setReg _ (by decide) _)
  exact hcleared.keeps (.of_onlyChain (onlyChain_broadcast _ _ _ _))

/-- An event of no partition, marked for YIELD in a mode that yields, with nothing waiting. -/
theorem raise_yields {s : State} {ev cls part : Nat} (slot : Nat) (det : List (Nat × Nat)) (hcore : s.ctl.core = true) (hpart : 16 ≤ part)
    (hcls : 1 ≤ cls) (hmarked : marked s ev = true) (hmode : s.ctl.mode.yields = true) (hlatent : s.ctl.latent = none)
    (htarget : s.ctl.target = none) : ∃ u, raise s ev cls slot part det = enterYield u ev cls part (packDet det) := by
  unfold raise raiseN recordEv
  extract_lets y r logged noted
  have hy : y = true := by simp [y, hmarked, hmode, hlatent, hcls]
  have hnoted : noted = logged := if_neg (by omega)
  have hwaits : noted.ctl.target = none := by rw [hnoted, (keepsPower_logGlobal s r).ctl, htarget]
  refine ⟨noted, ?_⟩
  simp [hcore, hy, hwaits]

theorem exec_thermalShutdown (s : State) : exec .thermalShutdown s = .next (doThermalShutdown s) := rfl

theorem doThermalShutdown_waits {s : State} (h : s.ctl.core = false ∨ ∀ x ∈ s.pwr.hotNs, s.island < x + 1000000) : doThermalShutdown s = s := by
  unfold doThermalShutdown
  split
  · rfl
  next x hx =>
    refine if_pos ?_
    rcases h with hc | hhot
    · simp [hc]
    · simp [hhot x hx]

theorem doThermalShutdown_shuts {s : State} {x : Nat} (hc : s.ctl.core = true) (hx : s.pwr.hotNs = some x) (hms : x + 1000000 ≤ s.island) :
    doThermalShutdown s = raise { s with pwr := { s.pwr with hotNs := none } } evThermalShutdown 3 4 31 [] := by
  unfold doThermalShutdown
  rw [hx]
  exact if_neg (by simp [hc, hms])

/-! ### A sample -/

theorem signed_toNat {w : Nat} (hw : 0 < w) (x : BitVec w) : signed w x.toNat = x.toInt := by
  have hx := x.isLt
  have hpow : 2 ^ w = 2 * 2 ^ (w - 1) := by rw [← Nat.pow_succ']; congr; omega
  unfold signed
  rw [BitVec.toInt_eq_toNat_cond, Nat.mod_eq_of_lt hx]
  simp only [hpow]
  split <;> split <;> omega

theorem exec_thermalSample (tj : BitVec 11) (s : State) : exec (.thermalSample tj) s = .next (doThermalSample tj s) := rfl

/-- A sample with the trip it may bring. -/
def tripped (s : State) (tj : BitVec 11) : State :=
  if decide (560 ≤ tj.toInt) && !s.pwr.trip then { s with pwr := { s.pwr with trip := true } }.emit .thermtrip else s

theorem tripped_ctl (s : State) (tj : BitVec 11) : (tripped s tj).ctl = s.ctl := by
  unfold tripped
  split <;> rfl

/-- Since when the temperature is at or above 135 °C. -/
def hotSince (s : State) (tj : BitVec 11) : Option Nat :=
  if 540 ≤ tj.toInt then (match s.pwr.hotNs with | some x => some x | none => some s.island) else none

theorem hotSince_eq (s : State) (tj : BitVec 11) : hotSince s tj = if 540 ≤ tj.toInt then some (s.pwr.hotNs.getD s.island) else none := by
  unfold hotSince
  cases s.pwr.hotNs <;> rfl

/-- A sample shown, with the maximum it may raise. -/
def sampleMax (s : State) (tj : BitVec 11) : State :=
  let t := s.setFld PWR_THERM 0 11 tj.toNat
  if signed 11 (t.fld PWR_TMAX 0 11) < tj.toInt then t.setFld PWR_TMAX 0 11 tj.toNat else t

/-- A sample shown, with the time at or above 135 °C. -/
def sampleShown (s : State) (tj : BitVec 11) : State :=
  { sampleMax s tj with pwr := { (sampleMax s tj).pwr with hotNs := hotSince (sampleMax s tj) tj } }

theorem doThermalSample_eq (tj : BitVec 11) (s : State) : doThermalSample tj s = if s.ctl.mode = .off then s
    else if !(tripped s tj).ctl.core then tripped s tj else thermWarn (sampleShown (tripped s tj) tj) := rfl

theorem doThermalSample_off {s : State} (tj : BitVec 11) (h : s.ctl.mode = .off) : doThermalSample tj s = s := if_pos h

theorem doThermalSample_core_off {s : State} (tj : BitVec 11) (hm : s.ctl.mode ≠ .off) (hc : s.ctl.core = false) :
    doThermalSample tj s = tripped s tj := by
  rw [doThermalSample_eq, if_neg hm, tripped_ctl, hc, Bool.not_false, if_pos rfl]

theorem doThermalSample_core_on {s : State} (tj : BitVec 11) (hm : s.ctl.mode ≠ .off) (hc : s.ctl.core = true) :
    doThermalSample tj s = thermWarn (sampleShown (tripped s tj) tj) := by
  rw [doThermalSample_eq, if_neg hm, tripped_ctl, hc, Bool.not_true, if_neg Bool.false_ne_true]

/-- What a sample shows: itself, and the maximum; other fields and registers stay. -/
theorem sampleMax_shows (s : State) (tj : BitVec 11) : let t := sampleMax s tj
    t.fld PWR_THERM 0 11 = tj.toNat ∧ t.fld PWR_THERM 16 8 = s.fld PWR_THERM 16 8 ∧ t.bit PWR_THERM 24 = s.bit PWR_THERM 24
      ∧ tj.toInt ≤ signed 11 (t.fld PWR_TMAX 0 11) ∧ (tj.toInt ≤ signed 11 (s.fld PWR_TMAX 0 11) → t.reg PWR_TMAX = s.reg PWR_TMAX)
      ∧ OnlyRegs [PWR_THERM, PWR_TMAX] s t := by
  intro t
  have hshown : (s.setFld PWR_THERM 0 11 tj.toNat).fld PWR_THERM 0 11 = tj.toNat :=
    (State.fld_setFld_same s _ _ (by decide)).trans (Nat.mod_eq_of_lt tj.isLt)
  have hwarn : (s.setFld PWR_THERM 0 11 tj.toNat).fld PWR_THERM 16 8 = s.fld PWR_THERM 16 8 :=
    State.fld_setFld_beside s _ _ (by decide) (by decide)
  have hlevel : (s.setFld PWR_THERM 0 11 tj.toNat).bit PWR_THERM 24 = s.bit PWR_THERM 24 :=
    State.bit_setFld_outside s _ _ (by decide) (by decide)
  have hmax : (s.setFld PWR_THERM 0 11 tj.toNat).reg PWR_TMAX = s.reg PWR_TMAX := State.reg_setReg_ne s _ (by decide)
  have honly : OnlyRegs [PWR_THERM, PWR_TMAX] s (s.setFld PWR_THERM 0 11 tj.toNat) := onlyRegs_setFld s _ _ _ (by decide)
  unfold t sampleMax
  generalize s.setFld PWR_THERM 0 11 tj.toNat = u at *
  have hfld : u.fld PWR_TMAX 0 11 = s.fld PWR_TMAX 0 11 := State.fld_congr hmax 0 11
  dsimp only
  rw [hfld]
  split
  next hover =>
    have htherm : (u.setFld PWR_TMAX 0 11 tj.toNat).reg PWR_THERM = u.reg PWR_THERM := State.reg_setReg_ne u _ (by decide)
    have hself : (u.setFld PWR_TMAX 0 11 tj.toNat).fld PWR_TMAX 0 11 = tj.toNat :=
      (State.fld_setFld_same u _ _ (by decide)).trans (Nat.mod_eq_of_lt tj.isLt)
    refine ⟨(State.fld_congr htherm 0 11).trans hshown, (State.fld_congr htherm 16 8).trans hwarn,
      (State.bit_congr htherm 24).trans hlevel, ?_, fun hle => absurd hover (not_lt_of_ge hle), honly.trans (onlyRegs_setFld u _ _ _ (by decide))⟩
    exact le_of_eq ((signed_toNat (by decide) tj).symm.trans (congrArg (signed 11) hself.symm))
  next hunder =>
    refine ⟨hshown, hwarn, hlevel, ?_, fun _ => hmax, honly⟩
    rw [hfld]
    exact le_of_not_gt hunder

/-- The warning follows the sample, and its rise is an event. -/
theorem thermWarn_eq {s : State} {tj : BitVec 11} (h : s.fld PWR_THERM 0 11 = tj.toNat) :
    let warn := decide (4 * (s.fld PWR_THERM 16 8 : Int) ≤ tj.toInt)
    let u := evcInput (s.setBit PWR_THERM 24 warn) 53 warn
    thermWarn s = if warn && !s.bit PWR_THERM 24 then raise u evThermalWarn 1 4 31 [] else u := by
  unfold thermWarn
  rw [h, signed_toNat (by decide)]

/-- The event controller, told of the warning, leaves what the sample shows. -/
theorem warned_shows {s u : State} {tj : BitVec 11} (warn : Bool) (h : s.fld PWR_THERM 0 11 = tj.toNat)
    (hu : EvcOnly (s.setBit PWR_THERM 24 warn) u) :
    u.fld PWR_THERM 0 11 = tj.toNat ∧ u.bit PWR_THERM 24 = warn ∧ u.reg PWR_TMAX = s.reg PWR_TMAX
      ∧ SameRegsBut (PWR_THERM :: EVC_MERGED :: evcRegs) s u ∧ u.pwr.hotNs = s.pwr.hotNs ∧ u.pwr.trip = s.pwr.trip
      ∧ u.outbox = s.outbox ∧ u.mem = s.mem := by
  have htherm : u.reg PWR_THERM = (s.setBit PWR_THERM 24 warn).reg PWR_THERM := hu.regs _ (by decide)
  have hhot : u.pwr.hotNs = (s.setBit PWR_THERM 24 warn).pwr.hotNs := (congrArg (fun t => t.pwr.hotNs) hu.back :)
  have htrip : u.pwr.trip = (s.setBit PWR_THERM 24 warn).pwr.trip := (congrArg (fun t => t.pwr.trip) hu.back :)
  have hout : u.outbox = (s.setBit PWR_THERM 24 warn).outbox := (congrArg State.outbox hu.back :)
  have hmem : u.mem = (s.setBit PWR_THERM 24 warn).mem := (congrArg State.mem hu.back :)
  rw [hhot, htrip, hout, hmem, State.setBit_pwr, State.setBit_outbox, State.setBit_mem]
  refine ⟨?_, ?_, ?_, ?_, rfl, rfl, rfl, rfl⟩
  · exact (State.fld_congr htherm 0 11).trans ((State.fld_setFld_beside s _ _ (by decide) (by decide)).trans h)
  · exact (State.bit_congr htherm 24).trans (State.bit_setBit_same s _ warn (by decide))
  · exact (hu.regs PWR_TMAX (by decide)).trans (State.reg_setReg_ne s _ (by decide))
  · exact (sameRegsBut_setReg s _ (by decide) : SameRegsBut [PWR_THERM] s _).trans_sub hu.regs (by decide) (by decide)

theorem tripped_shows (s : State) (tj : BitVec 11) : (tripped s tj).regs = s.regs ∧ (tripped s tj).mem = s.mem
    ∧ (tripped s tj).island = s.island ∧ (tripped s tj).pwr.hotNs = s.pwr.hotNs
    ∧ (tripped s tj).pwr.trip = (s.pwr.trip || decide (560 ≤ tj.toInt))
    ∧ (tripped s tj).outbox = s.outbox ++ (if 560 ≤ tj.toInt ∧ s.pwr.trip = false then [.thermtrip] else []) := by
  unfold tripped
  by_cases hhot : 560 ≤ tj.toInt <;> cases htrip : s.pwr.trip <;> simp [hhot, htrip, State.emit]

/-- Settles O32: a sample shows what it is, with the trip, the maximum and the warning; at a shutdown the entry into YIELD stops the
PLLs. -/
theorem thermal : Obligations.Thermal := by
  refine ⟨fun tj s => ⟨fun hm => ?_, fun hm hc => ?_, fun hm hc => ?_⟩, fun s => ⟨fun h => ?_, fun x hc hx hms => ⟨?_, ?_⟩⟩⟩
  · rw [exec_thermalSample, doThermalSample_off tj hm]
  · rw [exec_thermalSample, doThermalSample_core_off tj hm hc]
    refine ⟨fun hhot htrip => ?_, fun h => ?_⟩
    · exact congrArg _ (if_pos (by simp [hhot, htrip]))
    · refine congrArg _ (if_neg ?_)
      rcases h with hcold | htrip
      · simp [not_le_of_gt hcold]
      · simp [htrip]
  · intro warn
    rw [exec_thermalSample, doThermalSample_core_on tj hm hc]
    obtain ⟨hregs, hmem, hisland, hhot, htrip, hout⟩ := tripped_shows s tj
    obtain ⟨hshown, hlimit, hlevel, hmax, hkept, honly⟩ := sampleMax_shows (tripped s tj) tj
    have hsame : ∀ a, (tripped s tj).reg a = s.reg a := fun a => congrArg (tget regReset · a) hregs
    have hfields : (sampleMax (tripped s tj) tj).pwr = (tripped s tj).pwr ∧ (sampleMax (tripped s tj) tj).island = s.island
        ∧ (sampleMax (tripped s tj) tj).outbox = (tripped s tj).outbox ∧ (sampleMax (tripped s tj) tj).mem = s.mem :=
      ⟨(congrArg State.pwr honly.back :), ((congrArg State.island honly.back :) : _ = _).trans hisland,
        (congrArg State.outbox honly.back :), ((congrArg State.mem honly.back :) : _ = _).trans hmem⟩
    obtain ⟨hpwr, hisland', hout', hmem'⟩ := hfields
    have hwarn : decide (4 * ((sampleShown (tripped s tj) tj).fld PWR_THERM 16 8 : Int) ≤ tj.toInt) = warn := by
      change decide (4 * ((sampleMax (tripped s tj) tj).fld PWR_THERM 16 8 : Int) ≤ tj.toInt) = warn
      rw [hlimit, State.fld_congr (hsame PWR_THERM) 16 8]
    have hrise : (sampleShown (tripped s tj) tj).bit PWR_THERM 24 = s.bit PWR_THERM 24 :=
      hlevel.trans (State.bit_congr (hsame PWR_THERM) 24)
    have heq := thermWarn_eq (s := sampleShown (tripped s tj) tj) hshown
    rw [hwarn, hrise] at heq
    obtain ⟨hfld, hbit, htmax, hbut, hhotNs, htrips, houtbox, hmems⟩ :=
      warned_shows warn (s := sampleShown (tripped s tj) tj) hshown (evcOnly_evcInput _ 53 warn)
    refine ⟨_, congrArg Host.Outcome.next heq, hfld, hbit, ?_, fun hle => ?_, ?_, ?_, ?_, ?_, hmems.trans hmem'⟩
    · exact le_of_le_of_eq hmax (congrArg (signed 11) (State.fld_congr htmax 0 11).symm)
    · exact htmax.trans ((hkept (by rwa [State.fld_congr (hsame PWR_TMAX) 0 11])).trans (hsame PWR_TMAX))
    · rw [hhotNs]
      change hotSince (sampleMax (tripped s tj) tj) tj = _
      rw [hotSince_eq, hpwr, hhot, hisland']
    · exact htrips.trans ((congrArg Pwr.trip hpwr).trans htrip)
    · exact houtbox.trans (hout'.trans hout)
    · intro a ha
      refine (hbut a (by simp_all)).trans ((honly.regs a (by simp_all)).trans (hsame a))
  · rw [exec_thermalShutdown, doThermalShutdown_waits h]
  · rw [exec_thermalShutdown, doThermalShutdown_shuts hc hx hms]
  · intro hmarked hmode hlatent htarget
    obtain ⟨u, hu⟩ := raise_yields (s := { s with pwr := { s.pwr with hotNs := none } }) (cls := 3) (part := 31) 4 [] hc (by decide)
      (by decide) hmarked hmode hlatent htarget
    obtain ⟨hhalted, hstopped⟩ := enterYield_stands u 3 31 (packDet [])
    rw [hu]
    exact ⟨enterYield_mode _ _ _ _ _, hhalted, hstopped⟩

end Sys2Proof.Machine

/-!
PROOFS of the power family: OFF is left by the rise of PORST_N alone (R442, R443, R451). With no domain powered nothing is accepted, no
register and no memory answers, no message arrives and no work waits: what a command may still change is what an initiator reads back,
the sense of a hot-plug pin and of CORE_PG, and, at PORST_N low, everything once more.
-/

namespace Sys2Proof.Machine

/-! ### What is not part of OFF -/

/-- Outputs and what the last access answered are not part of OFF. -/
theorem OffState.answered {s : State} (h : OffState s) (out : List Out) (bus : Bus) : OffState { s with outbox := out, bus := bus } :=
  ⟨h.mode, h.core, h.ring, h.jobs, h.parts, h.ctxs, h.encs, h.ipp, h.dce, h.crcu, h.records, h.commits, h.fuseOps, h.items, h.adj, h.heads,
    h.noRise⟩

/-- The queue without its first command. -/
theorem OffState.next {s : State} {c : Instr} {cs : List Instr} (h : OffState s) (hp : s.pending = c :: cs) : OffState { s with pending := cs } :=
  ⟨h.mode, h.core, h.ring, h.jobs, h.parts, h.ctxs, h.encs, h.ipp, h.dce, h.crcu, h.records, h.commits, h.fuseOps, h.items, h.adj, h.heads,
    fun x hx => h.noRise x (hp ▸ List.mem_cons_of_mem c hx)⟩

theorem OffState.idle {s : State} (h : OffState s) : OffState (idleEdge (autoPrime s)) := by
  have hmode : s.ctl.mode = .off := h.mode
  have hauto : autoPrime s = s := if_neg (by simp [hmode])
  have hcore : s.ctl.core = false := h.core
  rw [hauto, idleEdge, hcore]
  exact ⟨h.mode, h.core, h.ring, h.jobs, h.parts, h.ctxs, h.encs, h.ipp, h.dce, h.crcu, h.records, h.commits, h.fuseOps, h.items, h.adj,
    h.heads, h.noRise⟩

/-- A head with nothing to write back, not enabled. -/
def HeadOff (h : Head) : Prop := h.wbDue = none ∧ h.wbCur = none ∧ h.enabled = false

/-- Every head after PORST_N low is one at reset but for its hot-plug pin. -/
theorem headOff_porstNLow (hs : Tbl Head) (n : Nat) :
    HeadOff (tget (fun _ => {}) (tnorm (fun _ => {}) (hs.map fun x => (x.1, { hpd := x.2.hpd }))) n) := by
  refine tget_of_forall (P := HeadOff) (fun _ => ⟨rfl, rfl, rfl⟩) (fun x hx => ?_) n
  obtain ⟨y, -, rfl⟩ := List.mem_map.mp (List.mem_of_mem_filter hx)
  exact ⟨rfl, rfl, rfl⟩

/-- PORST_N low is OFF, where no rise waits. -/
theorem porstNLow_off {s : State} (h : ∀ x, Instr.porstNRise x ∉ s.pending) : OffState (doPorstNLow s) :=
  ⟨rfl, rfl, rfl, rfl, rfl, rfl, rfl, rfl, rfl, rfl, rfl, rfl, rfl, rfl, rfl, headOff_porstNLow s.heads, h⟩

/-- Settles O59: nothing waits in the queue at reset. -/
theorem resetToOff : Obligations.ResetToOff := ⟨doPorstNLow State.reset, rfl, porstNLow_off (by simp [State.reset])⟩

/-! ### What OFF keeps out -/

section Off

variable {s : State} (h : OffState s)
include h

theorem OffState.unpowered (n : Nat) : s.powered n = false := by
  have hmode : s.ctl.mode = .off := h.mode
  unfold State.powered
  rw [h.core, h.ring, hmode]
  split
  · rfl
  · split <;> rfl

theorem OffState.regDec (a : Access) (t : AccType) (addr : Nat) : Machine.regDec s a t addr = .ignored :=
  regDec_of_unpowered a t (h.unpowered _)

/-- Only accesses of level P3 are carried, which draw no mode of a core. -/
theorem OffState.modeSeen_of_carries {a : Access} {addr : Nat} (hcarries : (modeSeen s a).carries a addr = true) : modeSeen s a = s := by
  obtain ⟨desks, free, hseen⟩ := modeSeen_eq s a
  have hcore : (modeSeen s a).ctl.core = false := by rw [hseen]; exact h.core
  have hlevel : (a.level == .p3) = true := by simpa [State.carries, hcore] using hcarries
  exact Machine.modeSeen_of_carries (addr := addr) (by simp [State.carries, h.core, hlevel])

/-- A register write has no effect. -/
theorem OffState.regAccess (a : Access) (addr : Nat) (v : Word) (f : State → State) : Machine.regAccess s a addr v f = s := by
  unfold Machine.regAccess
  refine ite_eq_right_iff.mpr fun hcarries => ?_
  unfold regEnter
  rw [h.modeSeen_of_carries hcarries, h.regDec]

theorem OffState.soile (q : Req) (op mask : Nat) (ok : Bool) (run : State → Nat → State) : Machine.soile s q op mask ok run = s :=
  if_pos (by simp [h.core])

theorem OffState.chainUp (p : Nat) : Machine.chainUp s p = false := by simp [Machine.chainUp, h.ring]

/-- No message is delivered. -/
theorem OffState.deliver (p : Nat) (m : Msg) : Machine.deliver s p m = (s, false) := by
  have harrive : arrive s p m = (s, false) := if_pos (by simp [h.chainUp])
  unfold Machine.deliver
  rw [harrive]
  rfl

theorem OffState.job (id : Nat) : s.job id = none := by
  unfold State.job
  rw [h.jobs]
  rfl

theorem OffState.part (p : Nat) : s.part p = {} := by
  unfold State.part
  rw [h.parts]
  rfl

theorem OffState.ctx (c : Nat) : s.ctx c = {} := by
  unfold State.ctx
  rw [h.ctxs]
  rfl

theorem OffState.enc (e : Nat) : s.enc e = {} := by
  unfold State.enc
  rw [h.encs]
  rfl

theorem OffState.ippW (i : Nat) : s.ippW i = none := congrArg (tget (fun _ => none) · i) h.ipp

theorem OffState.dceW (e : Nat) : s.dceW e = none := congrArg (tget (fun _ => none) · e) h.dce

theorem OffState.crcW (u : Nat) : s.crcW u = none := congrArg (tget (fun _ => none) · u) h.crcu

theorem OffState.timeReserved (op : Nat) (q : Req) (bad : Bool) : Machine.timeReserved op q bad s = s := if_neg (by simp [h.core])

theorem OffState.evcInput (i : Nat) (level : Bool) : Machine.evcInput s i level = s := if_pos (by simp [h.core])

/-- A message for the redundancy block does not arrive either. -/
theorem OffState.isRdn (origin : Nat) (m : Msg) (op : Nat) : Machine.isRdn s origin m op = false := by simp [Machine.isRdn, h.ring]

theorem OffState.swapNext : Machine.swapNext s = false := by simp [Machine.swapNext, h.core]

theorem OffState.evcRuns : Machine.evcRuns s = false := by simp [Machine.evcRuns, h.core]

theorem OffState.bandRuns (n b : Nat) : Machine.bandRuns s n b = false := by simp [Machine.bandRuns, h.core]

theorem OffState.quadOn (n : Nat) : Machine.quadOn s n = false := h.unpowered _

theorem OffState.mgtOn : Machine.mgtOn s = false := by simp [Machine.mgtOn, h.mode]

theorem OffState.memPowered (addr : Nat) : Machine.memPowered s addr = false := by
  unfold Machine.memPowered
  split
  · exact h.ring
  · exact h.core

/-- What an initiator of level P3, the only one there is, reads back changes nothing of OFF. -/
theorem OffState.answers (bs : Bytes) (e : Option Exc) : OffState (s.answer bs e) := h.answered s.outbox _

theorem OffState.returnsData (a : Access) (bs : Bytes) (e : Option Exc) : OffState (returnData s a bs e) := by
  unfold returnData
  split
  · exact h.answered _ _
  · exact h.answers bs e

theorem OffState.memPut (a : Access) (addr : Nat) (bs : Bytes) : OffState (Machine.memPut s a addr bs) := by
  have hdark : Machine.memPut s a addr bs = s.answer [] := if_pos (by simp [h.memPowered])
  rw [hdark]
  exact h.answers _ _

theorem OffState.memGet (a : Access) (t : AccType) (addr n : Nat) : OffState (Machine.memGet s a t addr n) := by
  have hdark : Machine.memGet s a t addr n = returnData s a (List.replicate n 0) := if_pos (by simp [h.memPowered])
  rw [hdark]
  exact h.returnsData _ _ _

theorem OffState.wrongSize (a : Access) (t : AccType) (addr n : Nat) : OffState (Machine.wrongSize s a t addr n) := by
  unfold Machine.wrongSize
  rw [h.regDec]
  refine iteInduction (fun _ => h.answers _ _) fun _ => ?_
  refine iteInduction (fun _ => h) fun _ => h.returnsData _ _ _

theorem OffState.regFetch (a : Access) (t : AccType) (addr k n : Nat) : OffState (Machine.regFetch s a t addr k n) := by
  unfold Machine.regFetch
  rw [h.regDec]
  exact h.returnsData _ _ _

theorem OffState.regPut (a : Access) (addr : Nat) (v : Word) : Machine.regPut s a addr v = s := h.regAccess a addr v _

theorem OffState.regsAccess (a : Access) (t : AccType) (addr n : Nat) (bs : Bytes) : OffState (Machine.regsAccess s a t addr n bs) := by
  unfold Machine.regsAccess
  rw [h.regPut]
  refine iteInduction (fun _ => h.regFetch _ _ _ _ _) fun _ => ?_
  refine iteInduction (fun _ => iteInduction (fun _ => h) fun _ => h.wrongSize _ _ _ _) fun _ => ?_
  exact iteInduction (fun _ => h.regFetch _ _ _ _ _) fun _ => h.wrongSize _ _ _ _

theorem OffState.plainAccess (a : Access) (t : AccType) (n len : Nat) (data : Bytes) : OffState (Machine.plainAccess s a t n len data) := by
  unfold Machine.plainAccess
  split
  · refine OffState.answers ?_ _ _
    exact iteInduction (fun _ => h.wrongSize _ _ _ _) fun _ => h
  · refine iteInduction (fun _ => h.regsAccess _ _ _ _ _) fun _ => ?_
    exact iteInduction (fun _ => h.memPut _ _ _) fun _ => h.memGet _ _ _ _

/-! ### The commands that change something in OFF -/

theorem OffState.corePgFall : OffState (doCorePgFall s) := by
  have hoff : OffState { s with ctl := { s.ctl with corePg := false } } :=
    ⟨h.mode, h.core, h.ring, h.jobs, h.parts, h.ctxs, h.encs, h.ipp, h.dce, h.crcu, h.records, h.commits, h.fuseOps, h.items, h.adj,
      h.heads, h.noRise⟩
  have hmode : s.ctl.mode = .off := h.mode
  unfold doCorePgFall
  refine iteInduction (fun _ => h) fun _ => ?_
  rw [if_pos (by simp [hmode])]
  exact hoff

theorem OffState.setHpd (n : Nat) (level : Bool) : OffState (s.setHead n { s.head n with hpd := level }) := by
  refine ⟨h.mode, h.core, h.ring, h.jobs, h.parts, h.ctxs, h.encs, h.ipp, h.dce, h.crcu, h.records, h.commits, h.fuseOps, h.items, h.adj,
    fun k => ?_, h.noRise⟩
  by_cases hk : k = n
  · subst hk
    rw [State.head_setHead]
    exact h.heads k
  · rw [State.head_setHead_ne s _ hk]
    exact h.heads k

theorem OffState.hpdTransition (head : Fin 16) (level : Bool) : OffState (doHpdTransition head level s) := by
  unfold doHpdTransition
  refine iteInduction (fun _ => h) fun _ => ?_
  dsimp only
  rw [if_pos (by simp [h.core])]
  exact h.setHpd _ _

/-- A register write of an initiator may read back something; it changes no register. -/
theorem OffState.registerWrite (a : Access) (addr : BitVec 40) (be : BitVec 4) (v : Word) : OffState (doRegisterWrite a addr be v s) := by
  have hseen : (modeSeen s a).carries a addr.toNat = true → modeSeen s a = s := h.modeSeen_of_carries
  unfold doRegisterWrite
  dsimp only
  refine iteInduction (fun _ => h) fun hcarries => ?_
  rw [hseen (by simpa using hcarries), h.regPut]
  refine iteInduction (fun _ => iteInduction (fun _ => h) fun _ => h.memPut _ _ _) fun _ => ?_
  exact iteInduction (fun _ => h.wrongSize _ _ _ _) fun _ => h

/-- Only accesses of level P3 that are plain ones are made at all. -/
theorem OffState.memoryAccess (a : Access) (bar2 : Bool) (k : CoreOp) (t : AccType) (addr : BitVec 40) (len : Nat) (data : Bytes) :
    OffState (doInitiatorMemoryAccess a bar2 k t addr len data s) := by
  unfold doInitiatorMemoryAccess
  dsimp only
  refine iteInduction (fun _ => h) fun hmade => ?_
  obtain ⟨hcan, hplain⟩ : canAccess (modeDrawn s a) a bar2 addr.toNat = true ∧ k = .plain := by simpa [h.core] using hmade
  subst hplain
  have hlevel : a.level = .p3 := by
    obtain ⟨desks, free, hdrawn⟩ := modeDrawn_eq s a
    rw [hdrawn] at hcan
    simpa [canAccess, h.core] using hcan
  have hdrawn : modeDrawn s a = s := by simp [modeDrawn, modeSeen, hlevel]
  rw [hdrawn]
  exact iteInduction (fun hlow => absurd hlow (by simp [hlevel])) fun _ => h.plainAccess _ _ _ _ _

/-! ### Every command in OFF -/

/-- No command but the rise of PORST_N leaves OFF: most find nothing that is powered or waits and change nothing. -/
theorem OffState.exec (c : Instr) (hrise : ∀ x, c ≠ .porstNRise x) : ∃ t, Machine.exec c s = .next t ∧ OffState t := by
  cases c with
  | partCreate | partGrant | partQuota | partStop | partDestroy | flowAdd | flowCfg | flowStop | flowDel | flowSend | flowEgress
  | streamOpen | streamParams | streamClose | decBind | decUnbind | decFlush | ippFollow | ippUnfollow | encOpen | encPic
  | encRefresh | encClose | surfCreate | surfRelease | surfUpload | layerCreate | layerUpdate | layerDestroy | sealGroup | sealCmd
  | fenceSignal | fenceWait | headSet | headEnable | headWb | headLink | headAux | tchCfg | tchMap | tchBaseline | tchRebase | tchRaw
  | tchSelftest | tchRing | dceComp | dceDecomp | crcRun | timeRead | timePtpTx | chnTxStream | chnRxStream
  | chnTxSurf | chnRxSurf | chnSend | chnRxring | rdnCkpt | rdnShadow | rdnSwap | rdnTakeover | abort => exact ⟨s, congrArg Host.Outcome.next (if_pos (by simp [h.core])), h⟩
  | tbSnapGo | tbAdjAdj | tbAdjStep | vrdCommit | tgCtrlWrite | tgRephase | prtMgrWrite | prtSwStart | prtSwStop | gateHold | gateApply
  | gateLock | evcSetpend | evcClrpend | evcClaim | evcEoi | dskRunWrite | chnEnum | chnTrain | chnDown | chnSlip
  | chnVaultWrite | chnLogicalWrite | rdnCmdTakeover | rdnCmdShadow | rdnCmdKeep | rdnCmdCkpt | hwkClear | modeRequest | aoHoldSet
  | aoTrainInvalidate | mboxIn7Write | mboxOut7Write | dbgTokenSubmit | dbgFuseSubmit | qd15UseWrite | qdTestWrite | laneSlip
  | injectSingle | injectBurst => exact ⟨s, congrArg Host.Outcome.next (h.regAccess _ _ _ _), h⟩
  | linkTrainingDone | dceStart | primeSequenceComplete | genlockEdge | tsyncEdge | hpdDisconnect | irqHpd | ethFrameRx | auRelease
  | sweeperVisit | decodeStart | ippStart | encPictureStart | tgFrameBoundary | commitPoint | fenceReadReturn | fenceDeadline
  | sealInstantS | sealInstantD | sealInstantC | bandEvaluation | bandLate | vrdWatchdog | sinkCrcRead | jobCompletion | backlogWrite
  | touchSlot | touchScanEnd | touchSyncLost | touchStuck | arbiterTick | tchPump | ethLinkChange | doorbellRead | descriptorAccept
  | checkpoint =>
    exact ⟨s, congrArg Host.Outcome.next (if_pos (by simp [h.core])), h⟩
  | enumTimeout | wordLock | laneDeskew | readyBitReceived | helloSend | helloTimeout =>
    exact ⟨s, congrArg Host.Outcome.next (if_pos (by simp [h.ring])), h⟩
  | enumRx | messageForward | cutRx | pdlyReqSend | pdlyRespRx | flitCheckFail | ackCreditRx =>
    exact ⟨s, congrArg Host.Outcome.next (if_pos (by simp [h.chainUp])), h⟩
  | nakRx | nakResend | replayTimeout | pdlyReqRx | ackDue => exact ⟨s, congrArg Host.Outcome.next (if_neg (by simp [h.chainUp])), h⟩
  | timeRx | readyRx | commitRx | helloRx | yieldRx | ctrlRx | streamRx | surfaceRx | ckptRx =>
    refine ⟨s, congrArg Host.Outcome.next ?_, h⟩
    simp [doTimeRx, doReadyRx, doCommitRx, doHelloRx, doYieldRx, doCtrlRx, doStreamRx, doSurfaceRx, doCkptRx, h.deliver, h.chainUp]
  | ringTakeover | ringShadow | ringKeep | swapPrep | swapAck | swapGo | swapArmed | swapCancel =>
    exact ⟨s, congrArg Host.Outcome.next (if_pos (by simp [h.isRdn])), h⟩
  | swapInstantD | swapInstantC => exact ⟨s, congrArg Host.Outcome.next (if_pos (by simp [h.swapNext])), h⟩
  | wfiSleep => exact ⟨s, congrArg Host.Outcome.next (if_pos (by simp [h.evcRuns])), h⟩
  | wakeLatch => exact ⟨s, congrArg Host.Outcome.next (if_neg (by simp [h.evcRuns])), h⟩
  | hostLinkDown | srTimeout | mirrorWrite | pllIdleStop | hostLinkUp | swapDue =>
    exact ⟨s, congrArg Host.Outcome.next (if_neg (by simp [h.core])), h⟩
  | timeSend | vaultZeroed => exact ⟨s, congrArg Host.Outcome.next (if_neg (by simp [h.ring])), h⟩
  | lockLost => exact ⟨s, congrArg Host.Outcome.next (if_pos (by simp [h.ring])), h⟩
  | mgtSetPointer | mgtModeRequest => exact ⟨s, congrArg Host.Outcome.next (if_pos (by simp [h.mgtOn])), h⟩
  | mgtReadWord | mgtReadMode | mgtUnsupportedTransaction => exact ⟨s, congrArg Host.Outcome.next (if_neg (by simp [h.mgtOn])), h⟩
  | mgtWriteWords => exact ⟨s, congrArg Host.Outcome.next (by simp [doMgtWriteWords, doMgtUnsupportedTransaction, mgtWrite, h.mgtOn]), h⟩
  | wakeNEdge | shadowApply | corePgRise | thermalSample => exact ⟨s, congrArg Host.Outcome.next (if_pos (by simp [h.mode])), h⟩
  | gateIsoLate | witnessBandCompare | bandCrcCompare => exact ⟨s, congrArg Host.Outcome.next (if_pos (by simp [h.bandRuns])), h⟩
  | prbsCheckerLock | prbsLockLost | adaptationConverged => exact ⟨s, congrArg Host.Outcome.next (if_pos (by simp [h.quadOn])), h⟩
  | loopRecentre => exact ⟨s, congrArg Host.Outcome.next (if_neg (by simp [h.quadOn])), h⟩
  | registerWrite a addr be v => exact ⟨_, rfl, h.registerWrite a addr be v⟩
  | porstNLow => exact ⟨_, rfl, porstNLow_off h.noRise⟩
  | corePgFall => exact ⟨_, rfl, h.corePgFall⟩
  | hpdTransition head level => exact ⟨_, rfl, h.hpdTransition head level⟩
  | trstNLow => exact ⟨_, rfl, h.answered _ s.bus⟩
  | initiatorMemoryAccess a f addr len data => exact ⟨_, rfl, h.memoryAccess _ _ _ _ _ _ _⟩
  | ippRun => exact ⟨s, congrArg Host.Outcome.next (ite_eq_left_iff.mpr fun _ => if_pos (by simp [h.core])), h⟩
  | timeAdj | timeStep =>
    exact ⟨s, congrArg Host.Outcome.next (by simp only [doTimeAdj, doTimeStep, soileNow, h.timeReserved, h.soile]), h⟩
  | gateStagingWrite =>
    refine ⟨s, congrArg Host.Outcome.next ?_, h⟩
    unfold doGateStagingWrite
    split
    · exact h.regAccess _ _ _ _
    · rfl
  | fenceWaitPoll => exact ⟨s, congrArg Host.Outcome.next (by rw [doFenceWaitPoll, h.part]; rfl), h⟩
  | auxReply head =>
    refine ⟨s, congrArg Host.Outcome.next ?_, h⟩
    cases hj : (s.head head.val).auxJobs.head?.bind s.job with
    | none => simp only [doAuxReply, hj]
    | some j => simp [doAuxReply, hj, h.core]
  | egressPacket e =>
    refine ⟨s, congrArg Host.Outcome.next ?_, h⟩
    cases hframe : (s.egr e.val).frame with
    | none => simp only [doEgressPacket, hframe]
    | some b => simp [doEgressPacket, hframe, h.core]
  | evcSourceInput => exact ⟨s, congrArg Host.Outcome.next (ite_eq_right_iff.mpr fun _ => h.evcInput _ _), h⟩
  | machineTimerExpiry =>
    exact ⟨s, congrArg Host.Outcome.next (ite_eq_right_iff.mpr fun _ => if_neg (by simp [h.evcRuns])), h⟩
  | primeTimeout => exact ⟨s, congrArg Host.Outcome.next (by simp [doPrimeTimeout, autoPrime, h.mode]), h⟩
  | thermalShutdown => exact ⟨s, congrArg Host.Outcome.next (doThermalShutdown_waits (.inl h.core)), h⟩
  | dceItemComplete => exact ⟨s, congrArg Host.Outcome.next (by simp only [doDceItemComplete, h.dceW]), h⟩
  | crcJobEnd => exact ⟨s, congrArg Host.Outcome.next (by simp only [doCrcJobEnd, h.crcW, Option.bind_none]), h⟩
  | adjustmentEffect => exact ⟨s, congrArg Host.Outcome.next (by simp only [doAdjustmentEffect, h.adj]), h⟩
  | commitDecided => exact ⟨s, congrArg Host.Outcome.next (by simp only [doCommitDecided, h.commits]), h⟩
  | tileRecordApply => exact ⟨s, congrArg Host.Outcome.next (by simp only [doTileRecordApply, h.records]), h⟩
  | decodeComplete => exact ⟨s, congrArg Host.Outcome.next (by simp only [doDecodeComplete, h.ctxs, List.find?_nil]), h⟩
  | pictureOutput => exact ⟨s, congrArg Host.Outcome.next (by rw [doPictureOutput, h.ctx]; rfl), h⟩
  | ippComplete => exact ⟨s, congrArg Host.Outcome.next (by simp only [doIppComplete, h.ippW]), h⟩
  | encPictureComplete => exact ⟨s, congrArg Host.Outcome.next (by simp only [doEncPictureComplete, h.enc]), h⟩
  | wbReadback head => exact ⟨s, congrArg Host.Outcome.next (by simp only [doWbReadback, (h.heads head.val).2.1]), h⟩
  | writebackComplete head => exact ⟨s, congrArg Host.Outcome.next (by simp only [doWritebackComplete, (h.heads head.val).1]), h⟩
  | powerDeferred => exact ⟨s, congrArg Host.Outcome.next (by simp only [doPowerDeferred, h.items, List.find?_nil]), h⟩
  | tokenRelease => exact ⟨s, congrArg Host.Outcome.next (by simp only [doTokenRelease, h.items, List.find?_nil]), h⟩
  | uploadTileRowDone => exact ⟨s, congrArg Host.Outcome.next (by simp only [doUploadTileRowDone, h.job]), h⟩
  | fuseProgramDone => exact ⟨s, congrArg Host.Outcome.next (by simp only [doFuseProgramDone, h.fuseOps]), h⟩
  | porstNRise x => exact absurd rfl (hrise x)

end Off

/-- Settles O58: a step with no command waiting is an idle edge, another is one of a command that is no rise of PORST_N. -/
theorem offStaysOff : Obligations.OffStaysOff := by
  intro s t hoff hstep
  cases hp : s.pending with
  | nil =>
    obtain rfl := Host.Outcome.next.inj ((step_of_pending_nil hp).symm.trans hstep)
    exact hoff.idle
  | cons c cs =>
    have hrise : ∀ x, c ≠ .porstNRise x := fun x hx => hoff.noRise x (hp ▸ hx ▸ List.mem_cons_self)
    obtain ⟨u, hu, hoffu⟩ := (hoff.next hp).exec c hrise
    obtain rfl := Host.Outcome.next.inj (hu.symm.trans ((step_of_pending_cons hp).symm.trans hstep))
    exact hoffu

end Sys2Proof.Machine

/-!
PROOFS of the access gates family: regions at reset (R296, R305, Table 11.8), and what a gate passes with every region OFF.
-/

namespace Sys2Proof.Machine

/-! ### The registers of a memory gate's regions at reset -/

/-- What a register of a memory gate's regions holds at reset, by the rows of the map. -/
def regionReset (off : Nat) : Word :=
  match findRow rowsMG off with
  | some r => BitVec.ofNat 32 r.reset
  | none => 0

theorem rowAt_region {m off : Nat} (hm : m < 8) (hl : 0x100 ≤ off) (hu : off < 0x800) :
    rowAt (0x241000 + 0x800 * m + off) = findRow rowsMG off := by
  have hblock : 0x241000 + 0x800 * m + off < 0x460000 := by omega
  have hslot : (0x241000 + 0x800 * m + off) / 0x10000 = 36 := by omega
  have hoff : (0x241000 + 0x800 * m + off) % 0x10000 = 0x1000 + 0x800 * m + off := by omega
  have hin : (0x1000 + 0x800 * m + off - 0x1000) % 0x800 = off := by omega
  unfold rowAt
  rw [if_pos hblock, hslot, hoff]
  dsimp only
  rw [hin, if_pos ⟨rfl, by omega, by omega, hl⟩]

theorem regReset_region {m off : Nat} (hm : m < 8) (hl : 0x100 ≤ off) (hu : off < 0x800) :
    regReset (0x241000 + 0x800 * m + off) = regionReset off := by
  have hslot : (0x241000 + 0x800 * m + off) / 0x10000 = 36 := by omega
  have hoff : (0x241000 + 0x800 * m + off) % 0x10000 = 0x1000 + 0x800 * m + off := by omega
  unfold regReset
  rw [rowAt_region hm hl hu, hslot, hoff, if_neg (by omega), if_neg (by unfold GATE_PS_CTRL; omega), if_neg (by omega), if_neg (by omega)]
  rfl

/-- Every region at reset: CTRL reads quiet = 1, the other six registers 0. -/
theorem regionReset_rows : ∀ r < 32, regionReset (0x10C + 0x10 * r) = 4
    ∧ ∀ k ∈ [0x100, 0x104, 0x108, 0x400, 0x404, 0x408], regionReset (k + 0x10 * r) = 0 := by decide +kernel

theorem reset_reg (a : Nat) : State.reset.reg a = regReset a := rfl

theorem reset_region {m r k : Nat} (hm : m < 8) (hr : r < 32) (hk : 0x100 ≤ k) (hk' : k < 0x600) :
    State.reset.reg (0x241000 + k + 0x800 * m + 0x10 * r) = regionReset (k + 0x10 * r) := by
  rw [reset_reg, ← regReset_region hm (by omega) (by omega)]
  congr 1
  omega

/-! ### A gate with every region OFF -/

section RegionsOff

variable {s : State} {m : Nat}

/-- Every region of a memory gate is OFF. -/
def RegionsOff (s : State) (m : Nat) : Prop := ∀ r, r < 32 → ctrlState (s.reg (MG_CTRL m r)) = 0

theorem mgHeld_off (h : RegionsOff s m) (off : Nat) : mgHeld s m off = false := by
  unfold mgHeld
  rw [List.any_eq_false]
  intro r hr
  simp [h r (List.mem_range.mp hr)]

theorem mgDecider_off (h : RegionsOff s m) (off : Nat) : mgDecider s m off = none := by
  unfold mgDecider
  rw [List.find?_eq_none]
  intro r hr
  simp [h r (List.mem_range.mp (List.mem_reverse.mp hr))]

/-- The deny of a lock counts regions that are not OFF. -/
theorem lockedBy_off (h : RegionsOff s m) (off : Nat) : ((List.range 32).find? fun r =>
    ctrlState (s.reg (MG_CTRL m r)) != 0 && s.bit (MG_CTRL m r) 3 && inSpan (spanOf (s.reg (MG_BASE_ACT m r))) off) = none := by
  rw [List.find?_eq_none]
  intro r hr
  simp [h r (List.mem_range.mp hr)]

theorem mgCheck_off (h : RegionsOff s m) (off level part : Nat) (t : AccType) :
    mgCheck s m off level part t = if level = 3 && t != .x then .pass else .refuse (2 ^ 23) := by
  unfold mgCheck
  rw [mgHeld_off h, if_neg Bool.false_ne_true, mgDecider_off h]
  dsimp only
  rw [lockedBy_off h, ite_self]

theorem Level.code_eq_three {l : Level} : l.code = 3 ↔ l = .p3 := by cases l <;> decide

theorem memDec_off (a : Access) (t : AccType) {addr off : Nat} (hplace : place s addr = .gated m off) (h : RegionsOff s m) :
    (memDec s a t addr).1 = .ok ↔ a.level = .p3 ∧ t ≠ .x := by
  unfold memDec
  rw [hplace]
  dsimp only
  rw [mgCheck_off h]
  by_cases hpass : a.level = .p3 ∧ t ≠ .x
  · simp [hpass, Level.code]
  · have hrefuse : (decide (a.level.code = 3) && t != .x) = false := by
      rw [← Level.code_eq_three] at hpass
      simpa using hpass
    simp [hrefuse, hpass]

end RegionsOff

/-- Settles O40: the map's rows give the registers at reset; with every region OFF no region decides, and the default does. -/
theorem regionsAtReset : Obligations.RegionsAtReset := by
  refine ⟨fun m r hm hr => ?_, fun s a t addr m off hplace hoff => memDec_off a t hplace hoff⟩
  obtain ⟨hctrl, hzero⟩ := regionReset_rows r hr
  refine ⟨(reset_region hm hr (by decide) (by decide)).trans hctrl, fun f hf => ?_⟩
  have hk := fun k hk hl hu => (reset_region (k := k) hm hr hl hu).trans (hzero k hk)
  simp only [List.mem_cons, List.not_mem_nil, or_false] at hf
  rcases hf with rfl | rfl | rfl | rfl | rfl | rfl
  · exact hk 0x100 (by decide) (by decide) (by decide)
  · exact hk 0x104 (by decide) (by decide) (by decide)
  · exact hk 0x108 (by decide) (by decide) (by decide)
  · exact hk 0x400 (by decide) (by decide) (by decide)
  · exact hk 0x404 (by decide) (by decide) (by decide)
  · exact hk 0x408 (by decide) (by decide) (by decide)

end Sys2Proof.Machine

/-!
PROOFS of the compression and check values family: the parameter sets of Table 15.6 (R417, R420).
-/

namespace Sys2Proof.Machine

/-- Settles O18: each parameter set is evaluated over the nine bytes; CRC-32C, CRC-32 and CRC-64 are the reference with their sets. -/
theorem crcCheckValues : Obligations.CrcCheckValues :=
  ⟨by decide +kernel, by decide +kernel, by decide +kernel, by decide +kernel, by decide +kernel, by decide +kernel,
    fun _ _ => rfl, fun _ => rfl, fun _ _ => rfl⟩

end Sys2Proof.Machine

/-!
PROOFS of the modes family: requests of a mode (R443, R444, Table 16.6), by AO_MODE_REQ or by the management bus.
-/

namespace Sys2Proof.Machine

/-! ### How a request is decided -/

/-- Before anything else a request opens its result. -/
theorem requestMode_eq (code : Nat) (s : State) : requestMode code s =
    if requestResult s (modeOf code) ≠ 0 then modeDecided (s.resultOpen AO_MODE_STATUS) (requestResult s (modeOf code)) code
    else if s.ctl.mode = .keep then beginPrime (s.resultOpen AO_MODE_STATUS) 0 0 true
    else if modeOf code = .keep then modeDecided (enterKeep (s.resultOpen AO_MODE_STATUS) 0) 0 code
    else modeDecided (setMode (s.resultOpen AO_MODE_STATUS) (modeOf code) 0) 0 code := rfl

section Request

variable {s : State} {m : Mode}

theorem requestResult_waits (h : s.ctl.target.isSome = true) : requestResult s m = 2 := if_pos h

theorem requestResult_decides (h : s.ctl.target = none) : requestResult s m = if !requestable s.ctl.mode m then 1
    else if s.ctl.mode = .prime && m != .keep then (if s.ctl.bootBad then 3 else if s.ctl.primeOk then 0 else 1) else 0 :=
  if_neg (by simp [h])

theorem requestResult_illegal (h : s.ctl.target = none) (hillegal : requestable s.ctl.mode m = false) : requestResult s m = 1 := by
  rw [requestResult_decides h, hillegal]
  rfl

/-- A legal request that is not one out of PRIME to another mode than KEEP succeeds. -/
theorem requestResult_legal (h : s.ctl.target = none) (hlegal : requestable s.ctl.mode m = true) (hout : s.ctl.mode ≠ .prime ∨ m = .keep) :
    requestResult s m = 0 := by
  have hprime : (decide (s.ctl.mode = .prime) && m != .keep) = false := by
    rcases hout with hmode | rfl
    · simp [hmode]
    · simp
  rw [requestResult_decides h, hlegal, hprime]
  rfl

/-- Out of PRIME the boot and the sequence count. -/
theorem requestResult_prime (h : s.ctl.target = none) (hlegal : requestable s.ctl.mode m = true) (hmode : s.ctl.mode = .prime)
    (hkeep : m ≠ .keep) : requestResult s m = if s.ctl.bootBad then 3 else if s.ctl.primeOk then 0 else 1 := by
  have hprime : (decide (s.ctl.mode = .prime) && m != .keep) = true := by simp [hmode, hkeep]
  rw [requestResult_decides h, hlegal, hprime]
  rfl

end Request

/-- A request refused changes its record alone. -/
theorem requestMode_refused {s : State} {code r : Nat} (h : requestResult s (modeOf code) = r) (hr : r ≠ 0) :
    requestMode code s = modeDecided (s.resultOpen AO_MODE_STATUS) r code := by
  rw [requestMode_eq, h, if_pos hr]

theorem requestMode_granted {s : State} {code : Nat} (h : requestResult s (modeOf code) = 0) : requestMode code s =
    if s.ctl.mode = .keep then beginPrime (s.resultOpen AO_MODE_STATUS) 0 0 true
    else if modeOf code = .keep then modeDecided (enterKeep (s.resultOpen AO_MODE_STATUS) 0) 0 code
    else modeDecided (setMode (s.resultOpen AO_MODE_STATUS) (modeOf code) 0) 0 code := by
  rw [requestMode_eq, h, if_neg (not_not_intro rfl)]

/-- No mode but KEEP can be left for PRIME by way of its sequence; KEEP itself cannot be asked for in KEEP. -/
theorem not_keep_of_requestable {m : Mode} (h : requestable m .keep = true) : m ≠ .keep := by
  rintro rfl
  exact absurd h (by decide)

/-! ### The two ways in -/

theorem exec_modeRequest {a : Access} (v : Word) {s : State} (h : Reaches s a .w AO_MODE_REQ) :
    exec (.modeRequest a v) s = .next (modeReqWrite v s) := congrArg Host.Outcome.next (regAccess_go h)

/-- The word that the management bus writes to AO_MODE_REQ for a code. -/
def mgtRequest (code : BitVec 8) : Word := BitVec.ofNat 32 (code.toNat % 8 + 2 ^ 31)

theorem mgtRequest_fields (code : BitVec 8) : bitOf (mgtRequest code).toNat 31 = true ∧ bitsOf (mgtRequest code).toNat 0 3 = code.toNat % 8 := by
  have hlt : code.toNat % 8 + 2 ^ 31 < 2 ^ 32 := by omega
  have hword : (mgtRequest code).toNat = code.toNat % 8 + 2 ^ 31 := (BitVec.toNat_ofNat _ _).trans (Nat.mod_eq_of_lt hlt)
  rw [hword]
  simp only [bitOf, bitsOf, beq_iff_eq]
  omega

theorem modeReqWrite_mgtRequest (code : BitVec 8) (s : State) : modeReqWrite (mgtRequest code) s = requestMode (code.toNat % 8) s := by
  obtain ⟨hgo, hcode⟩ := mgtRequest_fields code
  rw [← hcode]
  exact if_pos hgo

theorem doMgtModeRequest_eq (code : BitVec 8) (pec : Bool) (s : State) : doMgtModeRequest code pec s =
    mgtWrite s pec fun s => regAccess s mgtAccess AO_MODE_REQ (mgtRequest code) (modeReqWrite (mgtRequest code)) := rfl

theorem exec_mgtModeRequest_eq (code : BitVec 8) (pec : Bool) (s : State) :
    exec (.mgtModeRequest code pec) s = .next (doMgtModeRequest code pec s) := rfl

section Bus

variable {s : State} {pec : Bool} {f : State → State}

theorem mgtWrite_off (h : mgtOn s = false) : mgtWrite s pec f = s := if_pos (by simp [h])

/-- A wrong PEC where one is required is counted and answered with NACK. -/
theorem mgtWrite_bad (h : mgtOn s = true) (hcfg : s.bit MGT_CFG 0 = true) (hpec : pec = false) :
    mgtWrite s pec f = (s.add MGT_ERR 16 16 1).emit .mgtNack :=
  (if_neg (by simp [h])).trans (if_pos (by simp [hcfg, hpec]))

theorem mgtWrite_good (h : mgtOn s = true) (hpec : s.bit MGT_CFG 0 = false ∨ pec = true) : mgtWrite s pec f = f s := by
  have hgood : (s.bit MGT_CFG 0 && !pec) = false := by
    rcases hpec with hcfg | hpec
    · rw [hcfg, Bool.false_and]
    · rw [hpec, Bool.not_true, Bool.and_false]
  exact (if_neg (by simp [h])).trans (if_neg (by simp [hgood]))

end Bus

/-- The management bus carries a request as a write of AO_MODE_REQ. -/
theorem exec_mgtModeRequest {code : BitVec 8} {pec : Bool} {s : State} (h : mgtOn s = true) (hpec : s.bit MGT_CFG 0 = false ∨ pec = true)
    (hr : Reaches s mgtAccess .w AO_MODE_REQ) : exec (.mgtModeRequest code pec) s = .next (requestMode (code.toNat % 8) s) := by
  rw [exec_mgtModeRequest_eq, doMgtModeRequest_eq, mgtWrite_good h hpec, regAccess_go hr, modeReqWrite_mgtRequest]

/-- Settles O25: the result of a request is its first reason to refuse, in the order of Table 16.6; one without any acts at once. -/
theorem modeRequests : Obligations.ModeRequests := by
  refine ⟨fun a v s hr => ?_, fun code pec s => ⟨fun hoff => ?_, fun hon hcfg hpec => ?_, fun hon hpec hr => exec_mgtModeRequest hon hpec hr⟩,
    fun s code _ => ⟨fun htarget => ?_, fun hnone hillegal => ?_, fun hnone hlegal => ⟨fun hkeep => ?_, fun hmode => ?_,
      fun hmode hprime hkeep => ?_, fun hmode hkeep => ⟨fun hbad => ?_, fun hbad hok => ?_, fun hbad hok => ?_⟩⟩⟩⟩
  · rw [exec_modeRequest v hr]
    exact ⟨fun hgo => congrArg _ (if_pos hgo), fun hgo => congrArg _ (if_neg (by simp [hgo]))⟩
  · rw [exec_mgtModeRequest_eq, doMgtModeRequest_eq, mgtWrite_off hoff]
  · rw [exec_mgtModeRequest_eq, doMgtModeRequest_eq, mgtWrite_bad hon hcfg hpec]
  · exact requestMode_refused (requestResult_waits htarget) (by decide)
  · exact requestMode_refused (requestResult_illegal hnone hillegal) (by decide)
  · have hmode : s.ctl.mode ≠ .keep := not_keep_of_requestable (hkeep ▸ hlegal)
    rw [requestMode_granted (requestResult_legal hnone hlegal (.inr hkeep)), if_neg hmode, if_pos hkeep]
  · rw [requestMode_granted (requestResult_legal hnone hlegal (.inl (by simp [hmode]))), if_pos hmode]
  · rw [requestMode_granted (requestResult_legal hnone hlegal (.inl hprime)), if_neg hmode, if_neg hkeep]
  · exact requestMode_refused ((requestResult_prime hnone hlegal hmode hkeep).trans (if_pos hbad)) (by decide)
  · refine requestMode_refused ((requestResult_prime hnone hlegal hmode hkeep).trans ?_) (by decide)
    rw [hbad, hok]
    rfl
  · have hgranted : requestResult s (modeOf code) = 0 := by
      rw [requestResult_prime hnone hlegal hmode hkeep, hbad, hok]
      rfl
    rw [requestMode_granted hgranted, if_neg (by simp [hmode]), if_neg hkeep]

end Sys2Proof.Machine

/-!
PROOFS of the management family: the management bus and the mailbox words (R431, R432).
-/

namespace Sys2Proof.Machine

/-! ### Words of the bus -/

theorem exec_mgtSetPointer (p : BitVec 40) (pec : Bool) (s : State) : exec (.mgtSetPointer p pec) s =
    .next (mgtWrite s pec fun s => s.setPair MGT_PTR_LO MGT_PTR_HI (p.toNat / 4 * 4)) := rfl

/-- The pointer takes a word's address; nothing else changes. -/
theorem pointerSet_shows (p : BitVec 40) (s : State) : let t := s.setPair MGT_PTR_LO MGT_PTR_HI (p.toNat / 4 * 4)
    t.pair MGT_PTR_LO MGT_PTR_HI = p.toNat / 4 * 4 ∧ SameRegsBut [MGT_PTR_LO, MGT_PTR_HI] s t ∧ { t with regs := s.regs } = s := by
  have hp := p.isLt
  have honly : OnlyRegs [MGT_PTR_LO, MGT_PTR_HI] s (s.setPair MGT_PTR_LO MGT_PTR_HI (p.toNat / 4 * 4)) :=
    onlyRegs_setPair s _ (by decide) (by decide)
  have hpair := State.pair_setPair s (lo := MGT_PTR_LO) (hi := MGT_PTR_HI) (v := p.toNat / 4 * 4) (by decide) (by omega)
  exact ⟨hpair, honly.regs, honly.back⟩

/-- The words of a write, one after the other from the pointer on. -/
def wordsPut (ws : List (BitVec 32)) (s : State) : State :=
  ws.foldl (fun t v => mgtAdvance (wordPut t mgtAccess (t.pair MGT_PTR_LO MGT_PTR_HI) v)) s

theorem exec_mgtWriteWords (ws : List (BitVec 32)) (pec : Bool) (s : State) : exec (.mgtWriteWords ws pec) s =
    .next (if ws.length = 0 ∨ 8 < ws.length then doMgtUnsupportedTransaction s else mgtWrite s pec (wordsPut ws)) := rfl

/-- A write of one to eight words is one that the port supports. -/
theorem exec_mgtWriteWords_supported {ws : List (BitVec 32)} (pec : Bool) (s : State) (hl : 1 ≤ ws.length) (hu : ws.length ≤ 8) :
    exec (.mgtWriteWords ws pec) s = .next (mgtWrite s pec (wordsPut ws)) := by
  rw [exec_mgtWriteWords, if_neg (by omega)]

theorem doMgtUnsupported_on {s : State} (h : mgtOn s = true) : doMgtUnsupportedTransaction s = (s.add MGT_ERR 0 16 1).emit .mgtNack := if_pos h

theorem doMgtUnsupported_off {s : State} (h : mgtOn s = false) : doMgtUnsupportedTransaction s = s := if_neg (by simp [h])

/-! ### What is read -/

theorem exec_mgtReadWord (s : State) : exec .mgtReadWord s =
    .next (if mgtOn s then mgtAdvance (wordGet s mgtAccess (s.pair MGT_PTR_LO MGT_PTR_HI)) else s) := rfl

theorem exec_mgtReadMode (s : State) : exec .mgtReadMode s =
    .next (if mgtOn s then s.emit (.mgtData (mgtReply s 0x21 [] [BitVec.ofNat 8 (aoMode s).toNat])) else s) := rfl

theorem exec_mgtUnsupported (s : State) : exec .mgtUnsupportedTransaction s = .next (doMgtUnsupportedTransaction s) := rfl

/-- The mode byte: AO_MODE's low byte, the cause being above it. -/
theorem aoMode_byte (s : State) : BitVec.ofNat 8 (aoMode s).toNat = BitVec.ofNat 8 (s.ctl.mode.code + s.ctl.prev.code * 8) := by
  refine BitVec.eq_of_toNat_eq ?_
  simp only [aoMode, BitVec.toNat_ofNat]
  omega

theorem mgtReply_plain {s : State} (h : s.bit MGT_CFG 0 = false) (cmd : Byte) (count bs : Bytes) : mgtReply s cmd count bs = bs :=
  if_neg (by simp [h])

theorem mgtReply_pec {s : State} (h : s.bit MGT_CFG 0 = true) (cmd : Byte) (count bs : Bytes) : ∃ pec, mgtReply s cmd count bs = bs ++ [pec] :=
  ⟨_, if_pos h⟩

/-! ### The mailbox words that ring -/

theorem exec_mboxIn7Write {a : Access} (v : Word) {s : State} (h : Reaches s a .w (MGT_MBOX_IN 7)) :
    exec (.mboxIn7Write a v) s = .next (mboxIn 7 a v s) := congrArg Host.Outcome.next (regAccess_go h)

theorem exec_mboxOut7Write {a : Access} (v : Word) {s : State} (h : Reaches s a .w (MGT_MBOX_OUT 7)) :
    exec (.mboxOut7Write a v) s = .next ((s.setReg (MGT_MBOX_OUT 7) v).wrapInc MGT_MBOX_SEQ 16 16) := congrArg Host.Outcome.next (regAccess_go h)

theorem mboxIn_seven {a : Access} (v : Word) (s : State) (h : a.level = .p3) :
    mboxIn 7 a v s = evcPulse ((s.setReg (MGT_MBOX_IN 7) v).wrapInc MGT_MBOX_SEQ 0 16) 54 := by
  unfold mboxIn
  rw [if_neg (by simp [h]), if_pos rfl]

theorem mboxIn_ignored {a : Access} (i : Nat) (v : Word) (s : State) (h : a.level ≠ .p3) : mboxIn i a v s = s := if_pos (by simp [h])

/-- Settles O28, one clause for each of the port's transactions and for the mailbox words. -/
theorem managementPort : Obligations.ManagementPort := by
  refine ⟨fun p pec ws s hon => ⟨fun hpec => ⟨?_, fun hl hu => ?_⟩, fun hcfg hpec => ⟨?_, fun hl hu => ?_⟩, fun hlen => ?_⟩,
    fun s hon => ⟨?_, ?_, fun cmd count bs => ⟨fun h => mgtReply_plain h cmd count bs, fun h => mgtReply_pec h cmd count bs⟩, ?_⟩,
    fun p pec ws s hoff => ⟨?_, ?_, ?_, ?_, ?_⟩, fun a v s hr => ⟨fun hlevel => ?_, fun hlevel => ?_⟩, fun a v s hr => exec_mboxOut7Write v hr⟩
  · exact ⟨_, by rw [exec_mgtSetPointer, mgtWrite_good hon hpec], pointerSet_shows p s⟩
  · rw [exec_mgtWriteWords_supported pec s hl hu, mgtWrite_good hon hpec]
    rfl
  · rw [exec_mgtSetPointer, mgtWrite_bad hon hcfg hpec]
  · rw [exec_mgtWriteWords_supported pec s hl hu, mgtWrite_bad hon hcfg hpec]
  · rw [exec_mgtWriteWords, if_pos hlen, doMgtUnsupported_on hon]
  · rw [exec_mgtReadWord, if_pos hon]
  · rw [exec_mgtReadMode, if_pos hon, aoMode_byte]
  · rw [exec_mgtUnsupported, doMgtUnsupported_on hon]
  · rw [exec_mgtSetPointer, mgtWrite_off hoff]
  · rw [exec_mgtWriteWords, mgtWrite_off hoff, doMgtUnsupported_off hoff, ite_self]
  · rw [exec_mgtReadWord, if_neg (by simp [hoff])]
  · rw [exec_mgtReadMode, if_neg (by simp [hoff])]
  · rw [exec_mgtUnsupported, doMgtUnsupported_off hoff]
  · rw [exec_mboxIn7Write v hr, mboxIn_seven v s hlevel]
  · rw [exec_mboxIn7Write v hr, mboxIn_ignored 7 v s hlevel]

end Sys2Proof.Machine

/-!
PROOFS of the management family: unlock tokens and fuse commands (R448, R457).
-/

namespace Sys2Proof.Machine

/-! ### Tokens (R448) -/

theorem exec_dbgTokenSubmit {a : Access} (v : Word) (ok : Bool) {s : State} (h : Reaches s a .w DBG_CTRL) :
    exec (.dbgTokenSubmit a v ok) s = .next (tokenSubmit v ok s) := congrArg Host.Outcome.next (regAccess_go h)

theorem tokenSubmit_idle {v : Word} (ok : Bool) (s : State) (h : bitOf v.toNat 0 = false) : tokenSubmit v ok s = s := if_pos (by simp [h])

/-- A token that verifies, under a key that is programmed and not revoked. -/
theorem tokenSubmit_unlocks {v : Word} {s : State} (h : bitOf v.toNat 0 = true) (hkeys : goodKeys s ≠ 0) :
    tokenSubmit v true s = { s with fuses := { s.fuses with unlocked := true } }.setFld DBG_STATUS 4 2 1 :=
  (if_neg (by simp [h])).trans (if_pos (by simpa using hkeys))

theorem tokenSubmit_fails {v : Word} {ok : Bool} {s : State} (h : bitOf v.toNat 0 = true) (hbad : ok = false ∨ goodKeys s = 0) :
    tokenSubmit v ok s = raise (s.setFld DBG_STATUS 4 2 2) evDebugUnlockFail 1 69 31 [] := by
  have hfail : (ok && goodKeys s != 0) = false := by
    rcases hbad with rfl | hkeys
    · rfl
    · simp [hkeys]
  exact (if_neg (by simp [h])).trans (if_neg (ne_true_of_eq_false hfail))

/-! ### Fuse commands (R457) -/

theorem exec_dbgFuseSubmit {a : Access} (v : Word) (ok : Bool) {s : State} (h : Reaches s a .w DBG_FUSE_CTRL) :
    exec (.dbgFuseSubmit a v ok) s = .next (fuseSubmit v ok s) := congrArg Host.Outcome.next (regAccess_go h)

theorem fuseSubmit_idle {v : Word} (ok : Bool) (s : State) (h : bitOf v.toNat 0 = false) : fuseSubmit v ok s = s := if_pos (by simp [h])

/-- A command taken: the nonce is fresh, the record open. -/
def fuseTaken (s : State) : State := newNonce (s.resultOpen DBG_FUSE_STATUS)

/-- A command that passes every rule waits for its programming. -/
def fuseQueued (s : State) : State :=
  let c := fuseCmd s
  let op := leNat (sliceB c 6 1)
  let slot := leNat (sliceB c 7 1)
  let sv := leNat (sliceB c 80 2)
  { fuseTaken s with fuseOps := s.fuseOps ++ [(op, slot, sv, BitVec.ofNat 384 (leNat (sliceB c 32 48)))] }.emit
    (.fuse (BitVec.ofNat 8 op) (BitVec.ofNat 16 (if op = 3 then sv else slot)))

theorem fuseSubmit_decides {v : Word} (ok : Bool) (s : State) (h : bitOf v.toNat 0 = true) : fuseSubmit v ok s =
    if fuseResult s ok ≠ 0 then (fuseTaken s).resultDone DBG_FUSE_STATUS (fuseResult s ok + leNat (sliceB (fuseCmd s) 6 1) % 8 * 8)
    else fuseQueued s := if_neg (by simp [h])

/-- A result is one of the five refusals, or none. -/
theorem fuseResult_le (s : State) (ok : Bool) : fuseResult s ok ≤ 5 := by
  unfold fuseResult
  dsimp only
  split
  · decide
  split
  · decide
  split
  · decide
  split
  · decide
  split
  · decide
  · decide

theorem fuseResult_not_prime {s : State} (ok : Bool) (h : s.ctl.mode ≠ .prime) : fuseResult s ok = 5 := if_pos (by simp [h])

theorem fuseResult_unverified (s : State) : fuseResult s false ≠ 0 := by
  unfold fuseResult
  dsimp only
  split
  · decide
  split
  · decide
  split
  · decide
  · simp

/-- What a command that is taken shows: the fresh nonce, and its record, posted when it is refused. -/
theorem fuseSubmit_shows {v : Word} (ok : Bool) (s : State) (h : bitOf v.toNat 0 = true) : let t := fuseSubmit v ok s
    t.fuses = s.fuses ∧ t.nonce = Config.freshNonce s.free
      ∧ (fuseResult s ok ≠ 0 → t.fuseOps = s.fuseOps ∧ t.bit DBG_FUSE_STATUS 0 = true ∧ t.fld DBG_FUSE_STATUS 1 3 = fuseResult s ok)
      ∧ (fuseResult s ok = 0 → t.fuseOps.length = s.fuseOps.length + 1 ∧ t.bit DBG_FUSE_STATUS 0 = false) := by
  have hle := fuseResult_le s ok
  rw [fuseSubmit_decides ok s h]
  by_cases hr : fuseResult s ok = 0
  · rw [if_neg (not_not_intro hr)]
    refine ⟨rfl, rfl, fun hne => absurd hr hne, fun _ => ⟨?_, (State.resultOpen_shows s DBG_FUSE_STATUS).1⟩⟩
    simp [fuseQueued]
  · rw [if_pos hr]
    obtain ⟨hvalid, hfld⟩ :=
      State.resultDone_shows (fuseTaken s) DBG_FUSE_STATUS (fuseResult s ok + leNat (sliceB (fuseCmd s) 6 1) % 8 * 8)
    refine ⟨rfl, rfl, fun _ => ⟨rfl, hvalid, hfld.trans ?_⟩, fun hzero => absurd hzero hr⟩
    omega

theorem exec_fuseProgramDone (r : BitVec 64) (s : State) : exec (.fuseProgramDone r) s = .next (doFuseProgramDone r s) := rfl

theorem doFuseProgramDone_idle {r : BitVec 64} {s : State} (h : s.fuseOps = [] ∨ s.ctl.core = false) : doFuseProgramDone r s = s := by
  unfold doFuseProgramDone
  split
  · rfl
  next hops => exact if_pos (by simpa [hops] using h)

theorem doFuseProgramDone_ends (r : BitVec 64) {s : State} {op slot sv : Nat} {hash : BitVec 384} {rest : List (Nat × Nat × Nat × BitVec 384)}
    (hcore : s.ctl.core = true) (hops : s.fuseOps = (op, slot, sv, hash) :: rest) :
    let got := fuseRead (fuseWanted s.fuses op slot sv hash) r
    doFuseProgramDone r s = { s with fuses := got, fuseOps := rest }.resultDone DBG_FUSE_STATUS
      ((if got = fuseWanted s.fuses op slot sv hash then 0 else 6) + op * 8) := by
  unfold doFuseProgramDone
  rw [hops]
  exact if_neg (by simp [hcore])

/-- Settles O29: a token by its check, a fuse command by the first rule it breaks, the programming by what is read back. -/
theorem debugAndFuses : Obligations.DebugAndFuses := by
  refine ⟨fun a v ok s hr => ?_, fun a v ok s hr => ?_, fun r s => ⟨fun h => ?_, fun op slot sv hash rest hcore hops => ?_⟩⟩
  · rw [exec_dbgTokenSubmit v ok hr]
    refine ⟨fun hgo => ?_, fun hgo hok hkeys => ?_, fun hgo hbad => ?_⟩
    · rw [tokenSubmit_idle ok s hgo]
    · rw [hok, tokenSubmit_unlocks hgo hkeys]
    · rw [tokenSubmit_fails hgo hbad]
  · rw [exec_dbgFuseSubmit v ok hr]
    refine ⟨fun hgo => ?_, fun hgo => ⟨_, rfl, fuseSubmit_shows ok s hgo⟩, fuseResult_not_prime ok, fun hok => hok ▸ fuseResult_unverified s⟩
    rw [fuseSubmit_idle ok s hgo]
  · rw [exec_fuseProgramDone, doFuseProgramDone_idle h]
  · rw [exec_fuseProgramDone, doFuseProgramDone_ends r hcore hops]

end Sys2Proof.Machine

/-!
PROOFS of the modes family: how the PRIME sequence ends (R443, R445, R447, R449, R450). Its steps raise events, and while the sequence
runs none of them enters YIELD: the mode that is asked for, the state of the boot and the fuses stay to the end.
-/

namespace Sys2Proof.Machine

/-! ### What the steps of the boot keep -/

/-- While a mode is asked for, the request, the boot's failure and the fuses stay. -/
def KeepsBoot (s t : State) : Prop :=
  s.ctl.target.isSome = true → t.ctl.target = s.ctl.target ∧ t.ctl.bootBad = s.ctl.bootBad ∧ t.fuses = s.fuses

theorem KeepsBoot.refl (s : State) : KeepsBoot s s := fun _ => ⟨rfl, rfl, rfl⟩

theorem KeepsBoot.trans {s t u : State} (h : KeepsBoot s t) (k : KeepsBoot t u) : KeepsBoot s u := by
  intro hs
  obtain ⟨htarget, hbad, hfuses⟩ := h hs
  obtain ⟨htarget', hbad', hfuses'⟩ := k (htarget ▸ hs)
  exact ⟨htarget'.trans htarget, hbad'.trans hbad, hfuses'.trans hfuses⟩

theorem KeepsBoot.of_eq {s t : State} (ht : t.ctl.target = s.ctl.target) (hb : t.ctl.bootBad = s.ctl.bootBad) (hf : t.fuses = s.fuses) :
    KeepsBoot s t := fun _ => ⟨ht, hb, hf⟩

theorem KeepsBoot.of_ctl {s t : State} (hc : t.ctl = s.ctl) (hf : t.fuses = s.fuses) : KeepsBoot s t :=
  .of_eq (congrArg Ctl.target hc) (congrArg Ctl.bootBad hc) hf

theorem KeepsBoot.ite {s t u : State} {c : Prop} [Decidable c] (ht : KeepsBoot s t) (hu : KeepsBoot s u) :
    KeepsBoot s (if c then t else u) := by
  split
  · exact ht
  · exact hu

theorem KeepsBoot.foldl {α : Type} {f : State → α → State} (h : ∀ s x, KeepsBoot s (f s x)) (xs : List α) (s : State) :
    KeepsBoot s (xs.foldl f s) := by
  induction xs generalizing s with
  | nil => exact .refl s
  | cons x xs ih => exact (h s x).trans (ih _)

theorem keepsBoot_setReg (s : State) (a : Nat) (v : Word) : KeepsBoot s (s.setReg a v) := .of_ctl rfl rfl

theorem keepsBoot_setFld (s : State) (a lo n v : Nat) : KeepsBoot s (s.setFld a lo n v) := keepsBoot_setReg s _ _

theorem KeepsBoot.of_evcOnly {s t : State} (h : EvcOnly s t) : KeepsBoot s t :=
  .of_ctl (congrArg State.ctl h.back :) (congrArg State.fuses h.back :)

/-- An event of no partition waits while a mode is asked for. -/
theorem keepsBoot_raise (s : State) (ev cls slot : Nat) {part : Nat} (det : List (Nat × Nat)) (hpart : 16 ≤ part) :
    KeepsBoot s (raise s ev cls slot part det) := by
  intro hs
  unfold raise raiseN recordEv
  extract_lets y r logged noted
  have hlogged := keepsPower_logGlobal s r
  have hnoted : noted = logged := if_neg (by omega)
  have hwaits : noted.ctl.target.isSome = true := by rw [hnoted, hlogged.ctl, hs]
  have hkept : noted.ctl = s.ctl ∧ noted.fuses = s.fuses := by rw [hnoted]; exact ⟨hlogged.ctl, hlogged.fuses⟩
  clear_value noted
  obtain ⟨hctl, hfuses⟩ := hkept
  have hput : KeepsBoot s noted := .of_ctl hctl hfuses
  refine KeepsBoot.ite (.refl s) (.ite hput ?_) hs
  rw [if_pos hwaits]
  exact hput.trans (.of_eq rfl rfl rfl)

/-! ### The steps -/

theorem keepsBoot_bootZero (s : State) : KeepsBoot s (bootZero s) := .ite (.of_ctl rfl rfl) (.refl s)

theorem keepsBoot_bootChannel (b : Boot) (s : State) (c : Nat) : KeepsBoot s (bootChannel b s c) := by
  unfold bootChannel
  split
  · exact keepsBoot_setReg s _ _
  next ch =>
    extract_lets size warm sized
    have hsized : KeepsBoot s sized := keepsBoot_setReg s _ _
    clear_value sized
    refine hsized.trans (.ite (.refl _) (.ite ?_ (keepsBoot_raise _ _ _ _ _ (by decide))))
    exact .of_eq rfl rfl rfl

theorem keepsBoot_gateDecided (s : State) (k res : Nat) : KeepsBoot s (gateDecided s k res) :=
  (keepsBoot_setFld s _ _ _ _).trans (keepsBoot_setFld _ _ _ _ _)

theorem keepsBoot_plainWrite (s : State) (a : Nat) (v : Word) : KeepsBoot s (plainWrite s a v) := by
  obtain ⟨-, h⟩ | ⟨r, -, h⟩ := plainWrite_cases s a v
  · rw [h]
    exact .refl s
  · rw [h]
    exact keepsBoot_setReg s _ _

theorem keepsBoot_gateStage (k a : Nat) (v : Word) (s : State) : KeepsBoot s (gateStage k a v s) := by
  unfold gateStage
  extract_lets was put drain
  have hput : KeepsBoot s put := keepsBoot_plainWrite s a v
  exact .ite (keepsBoot_gateDecided s k 5) (.ite (hput.trans (.of_ctl rfl rfl)) hput)

theorem keepsBoot_holdEntry (s : State) (k : Nat) : KeepsBoot s (holdEntry s k) := by
  refine .ite (keepsBoot_gateDecided s k 0) (.trans ?_ (keepsBoot_gateDecided _ k 0))
  exact .of_ctl rfl rfl

theorem keepsBoot_activate (s : State) (k : Nat) : KeepsBoot s (activate s k) := by
  unfold activate
  exact .ite (keepsBoot_setReg s _ _) (((keepsBoot_setReg s _ _).trans (keepsBoot_setReg _ _ _)).trans (keepsBoot_setReg _ _ _))

/-- An apply that the boot asks for, where nothing follows. -/
theorem keepsBoot_entryApply (s : State) (k : Nat) (resv : Bool) : KeepsBoot s (entryApply id s k resv) := by
  unfold entryApply
  split
  · refine (keepsBoot_activate s k).trans (.trans ?_ (keepsBoot_gateDecided _ k 0))
    exact .of_ctl rfl rfl
  · exact keepsBoot_gateDecided s k _

theorem keepsBoot_lockEntry (s : State) (k : Nat) : KeepsBoot s (lockEntry s k) :=
  .ite ((keepsBoot_setFld s _ _ _ _).trans (keepsBoot_gateDecided _ k 0)) (keepsBoot_gateDecided s k 6)

theorem keepsBoot_gateRequest {f : State → State} (hf : ∀ s, KeepsBoot s (f s)) (s : State) (k : Nat) (asked : Bool) :
    KeepsBoot s (gateRequest s k asked f) := .ite (.refl s) (.ite (keepsBoot_gateDecided s k 5) (hf s))

theorem keepsBoot_entryCtrl (k : Nat) (v : Word) (s : State) : KeepsBoot s (entryCtrl id k v s) := by
  unfold entryCtrl
  extract_lets b set held applied
  have hset : KeepsBoot s set := .ite (.refl s) (keepsBoot_setFld s _ _ _ _)
  have hheld : KeepsBoot s held := hset.trans (keepsBoot_gateRequest (fun s => keepsBoot_holdEntry s k) _ k _)
  have happlied : KeepsBoot s applied := hheld.trans (keepsBoot_gateRequest (fun s => keepsBoot_entryApply s k _) _ k _)
  exact .ite (keepsBoot_gateDecided s k 5) (happlied.trans (keepsBoot_gateRequest (fun s => keepsBoot_lockEntry s k) _ k _))

theorem keepsBoot_setEntry (k : Nat) (words : List Word) (on : Bool) (s : State) : KeepsBoot s (setEntry k words on s) := by
  unfold setEntry
  extract_lets ctrl staged held
  have hstaged : KeepsBoot s staged := .foldl (fun s (x : Nat × Word) => keepsBoot_gateStage k x.1 x.2 s) _ s
  have hheld : KeepsBoot s held := hstaged.trans (keepsBoot_entryCtrl k _ _)
  clear_value held
  refine (hheld.trans ?_).trans (keepsBoot_entryCtrl k _ _)
  exact .ite (.of_ctl rfl rfl) (.refl _)

theorem keepsBoot_bootGate (s : State) (x : GateEntry × List (BitVec 32) × Bool) : KeepsBoot s (bootGate s x) := by
  unfold bootGate
  extract_lets k n on set
  have hset : KeepsBoot s set := keepsBoot_setEntry k _ on s
  exact .ite (hset.trans (keepsBoot_entryCtrl k _ _)) hset

theorem keepsBoot_deskStart (s : State) (k : Nat) : KeepsBoot s (deskStart s k) := by
  have hfresh : KeepsBoot s (deskFresh s k) := .of_ctl rfl rfl
  exact (hfresh.trans (keepsBoot_setFld _ _ _ _ _)).trans (.of_evcOnly (evcOnly_evcSettle _))

theorem keepsBoot_bootCore (b : Boot) (s : State) (k : Nat) : KeepsBoot s (bootCore b s k) := by
  unfold bootCore
  split
  · exact .refl s
  · have hvec : ∀ (s : State) lo hi v, KeepsBoot s (s.setPair lo hi v) := fun s _ _ _ => (keepsBoot_setReg s _ _).trans (keepsBoot_setReg _ _ _)
    exact .ite (.refl s) ((((keepsBoot_setReg s _ _).trans (hvec _ _ _ _)).trans (keepsBoot_setFld _ _ _ _ _)).trans (keepsBoot_deskStart _ k))

theorem keepsBoot_bootReady (s : State) : KeepsBoot s (bootReady s) := .of_eq rfl rfl rfl

/-! ### The end of the sequence -/

/-- The channels trained, or recorded as failing. -/
def bootTrained (b : Boot) (s : State) : State := (List.range 6).foldl (bootChannel b) (bootZero s)

theorem keepsBoot_bootTrained (b : Boot) (s : State) : KeepsBoot s (bootTrained b s) :=
  (keepsBoot_bootZero s).trans (.foldl (keepsBoot_bootChannel b) _ _)

theorem bootImage_congr (b : Boot) {s t : State} (h : t.fuses = s.fuses) : bootImage b t = bootImage b s := by
  unfold bootImage imageOk fieldSigned goodKeys
  rw [h]

/-- The boot without an image. -/
def bootFailed (b : Boot) (s : State) : State :=
  raise { bootTrained b s with ctl := { (bootTrained b s).ctl with bootBad := true } } evBootFail 2 1 31 []

/-- The boot from an image: the gates set, the cores started. -/
def bootLoaded (b : Boot) (s : State) : State :=
  let t := if bothImages b (bootTrained b s) then bootTrained b s else raise (bootTrained b s) evBootFallback 1 1 31 []
  (List.range 4).foldl (bootCore b) (bootReady (b.gates.foldl bootGate t))

theorem keepsBoot_bootLoaded (b : Boot) (s : State) : KeepsBoot s (bootLoaded b s) := by
  have htrained := keepsBoot_bootTrained b s
  unfold bootLoaded
  generalize bootTrained b s = trained at htrained
  extract_lets t
  have ht : KeepsBoot s t := htrained.trans (.ite (.refl _) (keepsBoot_raise _ _ _ _ _ (by decide)))
  clear_value t
  have hgates : KeepsBoot s (b.gates.foldl bootGate t) := ht.trans (.foldl keepsBoot_bootGate _ _)
  exact hgates.trans ((keepsBoot_bootReady _).trans (.foldl (keepsBoot_bootCore b) _ _))

section Sequence

variable {b : Boot} {s : State} (hs : s.ctl.target.isSome = true)
include hs

theorem bootSteps_failed (h : bootImage b s = none) : bootSteps b s = bootReady (bootFailed b s) := by
  obtain ⟨-, -, hfuses⟩ := keepsBoot_bootTrained b s hs
  have himage : bootImage b (bootTrained b s) = none := (bootImage_congr b hfuses).trans h
  unfold bootSteps
  rw [← bootTrained]
  dsimp only
  rw [himage]
  rfl

theorem bootSteps_loaded (h : (bootImage b s).isSome = true) : bootSteps b s = bootLoaded b s := by
  obtain ⟨-, -, hfuses⟩ := keepsBoot_bootTrained b s hs
  obtain ⟨i, hi⟩ := Option.isSome_iff_exists.mp h
  have himage : bootImage b (bootTrained b s) = some i := (bootImage_congr b hfuses).trans hi
  unfold bootSteps
  rw [← bootTrained]
  dsimp only
  rw [himage]
  rfl

theorem bootFailed_bad : (bootReady (bootFailed b s)).ctl.bootBad = true := by
  obtain ⟨htarget, -, -⟩ := keepsBoot_bootTrained b s hs
  have hraised := keepsBoot_raise { bootTrained b s with ctl := { (bootTrained b s).ctl with bootBad := true } } evBootFail 2 1
    (part := 31) [] (by decide)
  exact (hraised (htarget.symm ▸ hs)).2.1

end Sequence

/-- At its end the sequence asks for no mode any more; the boot decides whether the part is ready. -/
theorem bootDone_ctl (s : State) :
    (bootDone s).ctl = { s.ctl with target := none, primeOk := !s.ctl.bootBad } := by
  unfold bootDone
  extract_lets byReq done
  split <;> rfl

theorem exec_primeSequenceComplete (b : Boot) (s : State) : exec (.primeSequenceComplete b) s = .next (doPrimeSequenceComplete b s) := rfl

theorem doPrimeSequenceComplete_idle (b : Boot) {s : State} (h : s.ctl.core = false ∨ s.ctl.mode ≠ .prime ∨ s.ctl.target = none) :
    doPrimeSequenceComplete b s = s := by
  refine if_pos ?_
  rcases h with h | h | h <;> simp [h]

theorem doPrimeSequenceComplete_ends (b : Boot) {s : State} (hc : s.ctl.core = true) (hm : s.ctl.mode = .prime)
    (ht : s.ctl.target.isSome = true) : let u := bootDone (bootSteps b s)
    doPrimeSequenceComplete b s = takeDeferred (takeLatent (holdOpened
      (if u.rdn.trigger ≠ 0 ∧ u.ctl.bootBad = false then restoreEnd b.ckptEcc u else u))) := by
  have hguard : (!s.ctl.core || s.ctl.mode != .prime || s.ctl.target.isNone) = false := by
    obtain ⟨t, ht⟩ := Option.isSome_iff_exists.mp ht
    simp [hc, hm, ht]
  refine (if_neg (ne_true_of_eq_false hguard)).trans ?_
  dsimp only
  generalize bootDone (bootSteps b s) = u
  congr 3
  exact if_congr (by simp) rfl rfl

/-! ### The sequence that times out -/

theorem exec_primeTimeout (lim : BitVec 8) (s : State) : exec (.primeTimeout lim) s = .next (doPrimeTimeout lim s) := rfl

theorem doPrimeTimeout_idle (lim : BitVec 8) {s : State} (hm : s.ctl.mode = .prime) (ht : s.ctl.target = none) : doPrimeTimeout lim s = s := by
  have hauto : autoPrime s = s := autoPrime_of_ne_keep (by simp [hm])
  unfold doPrimeTimeout
  rw [hauto]
  dsimp only
  rw [hm, ht]

theorem doPrimeTimeout_ends (lim : BitVec 8) {s : State} {t : Nat × Bool} (hm : s.ctl.mode = .prime) (ht : s.ctl.target = some t) :
    doPrimeTimeout lim s = takeLatent (raise (modeCut t.2
      { s with ctl := { s.ctl with target := none, late := !s.ctl.core }, rdn := { s.rdn with trigger := 0, deferred := false } })
      evPrimeTimeout 3 1 31 []) := by
  have hauto : autoPrime s = s := autoPrime_of_ne_keep (by simp [hm])
  unfold doPrimeTimeout
  rw [hauto]
  dsimp only
  rw [hm, ht]

/-- Settles O27: no step of the boot ends the sequence before its end, so that its failure alone decides it. -/
theorem primeSequence : Obligations.PrimeSequence := by
  refine ⟨fun b s => ⟨fun h => ?_, fun hc hm ht => ?_⟩, fun lim s => ⟨fun hm ht => ?_, fun t hm ht => ?_⟩⟩
  · rw [exec_primeSequenceComplete, doPrimeSequenceComplete_idle b h]
  · intro c u
    have hu : u.ctl = { (bootSteps b s).ctl with target := none, primeOk := !(bootSteps b s).ctl.bootBad } := bootDone_ctl _
    refine ⟨?_, congrArg Ctl.target hu, fun hnone => ?_, fun hsome hgood => ?_⟩
    · rw [exec_primeSequenceComplete, doPrimeSequenceComplete_ends b hc hm ht]
    · have hsteps := bootSteps_failed ht hnone
      have hbad := bootFailed_bad (b := b) ht
      rw [← hsteps] at hbad
      refine ⟨(congrArg Ctl.bootBad hu).trans hbad, (congrArg Ctl.primeOk hu).trans ?_, hsteps⟩
      exact congrArg not hbad
    · obtain ⟨-, hbad, -⟩ := keepsBoot_bootLoaded b s ht
      rw [← bootSteps_loaded ht hsome, hgood] at hbad
      exact ⟨(congrArg Ctl.bootBad hu).trans hbad, (congrArg Ctl.primeOk hu).trans (congrArg not hbad)⟩
  · rw [exec_primeTimeout, doPrimeTimeout_idle lim hm ht]
  · rw [exec_primeTimeout, doPrimeTimeout_ends lim hm ht]

end Sys2Proof.Machine

/-!
PROOFS of the redundancy family: the ring between RDN blocks (R393–R396).
-/

namespace Sys2Proof.Machine

/-! ### Requests and replies (R395) -/

theorem exec_ringRequest {o : Fin 8} {m : Msg} {op : Nat} {c : Instr} (s : State)
    (h : op = 1 ∧ c = .ringTakeover o m ∨ op = 2 ∧ c = .ringShadow o m ∨ op = 3 ∧ c = .ringKeep o m) :
    exec c s = .next (ringRequest s o.val m op) := by
  rcases h with ⟨rfl, rfl⟩ | ⟨rfl, rfl⟩ | ⟨rfl, rfl⟩ <;> rfl

/-- What waits for the reply of a unit to an operation. -/
def awaited (s : State) (op o : Nat) : Option (Nat × Nat × Nat) := s.rdn.waiting.find? fun w => decide (w.2.1 = op ∧ w.2.2 = o)

theorem find_awaited (s : State) (op o : Nat) : (s.rdn.waiting.find? fun w => w.2.1 == op && w.2.2 == o) = awaited s op o := by
  unfold awaited
  congr 1
  funext w
  rw [Bool.decide_and]
  rfl

section Request

variable {s : State} {o op : Nat} {m : Msg}

theorem ringRequest_other (h : isRdn s o m op = false) : ringRequest s o m op = s := if_pos (by simp [h])

theorem ringRequest_reply (h : isRdn s o m op = true) {w : Nat × Nat × Nat} (hw : awaited s op o = some w) : ringRequest s o m op =
    finish { s with rdn := { s.rdn with waiting := s.rdn.waiting.erase w } } w.1 (rdnStatus (rdnRes m)) := by
  unfold ringRequest
  rw [if_neg (by simp [h]), find_awaited, hw]

theorem ringRequest_asked (h : isRdn s o m op = true) (hw : awaited s op o = none) : ringRequest s o m op =
    if !s.bit RDN_ROLE (16 + o) then s
    else if requestCode s op = 0 then beginRequest (sendRdn s o op (requestCode s op) 0 0) op 2
    else rdnDecided (sendRdn s o op (requestCode s op) 0 0) op (requestCode s op) := by
  unfold ringRequest
  rw [if_neg (by simp [h]), find_awaited, hw]

end Request

/-! ### The messages of a swap (R393, R394) -/

/-- The swap in hand replaced by another. -/
def swapPut (s : State) (w : Swap) : State := { s with rdn := { s.rdn with swap := w } }

section Swap

variable (o : Fin 8) (m : Msg) (s : State)

theorem exec_swapPrep : exec (.swapPrep o m) s = .next
    (if isRdn s o.val m 4 = true ∧ o.val = rdnPartner s ∧ s.ctl.mode = .shadow ∧ rdnRole s = 2 then
      sendRdn (swapPut s (if prepResult s (rdnGen m) = 0 then { asPart := true, bNs := rdnB m, gen := rdnGen m } else {})) o.val 5
        (prepResult s (rdnGen m)) (rdnGen m) (rdnB m)
    else s) := by
  refine congrArg Host.Outcome.next ((ite_not _ _ _).symm.trans (if_congr ?_ rfl rfl)).symm
  simp [imp_iff_not_or, or_assoc]

theorem exec_swapAck : exec (.swapAck o m) s = .next
    (if isRdn s o.val m 5 = true ∧ o.val = rdnPartner s ∧ s.rdn.swap.job ≠ none ∧ s.rdn.swap.prep = true then
      (if rdnRes m = 0 then swapPut s { s.rdn.swap with acked := true } else swapEnd s stSwapRefused)
    else s) := by
  refine congrArg Host.Outcome.next ((ite_not _ _ _).symm.trans (if_congr ?_ rfl rfl)).symm
  simp [imp_iff_not_or, or_assoc]

theorem exec_swapGo : exec (.swapGo o m) s = .next
    (if isRdn s o.val m 6 = true ∧ o.val = rdnPartner s ∧ s.rdn.swap.asPart = true ∧ s.rdn.swap.pastC = false ∧ swapNext s = true then
      sendRdn (swapPut s { s.rdn.swap with armed := true }) o.val 7 0 s.rdn.swap.gen s.rdn.swap.bNs
    else s) := by
  refine congrArg Host.Outcome.next ((ite_not _ _ _).symm.trans (if_congr ?_ rfl rfl)).symm
  simp [imp_iff_not_or, or_assoc]

theorem exec_swapArmed : exec (.swapArmed o m) s = .next
    (if isRdn s o.val m 7 = true ∧ o.val = rdnPartner s ∧ s.rdn.swap.job ≠ none ∧ s.rdn.swap.acked = true then
      swapPut s { s.rdn.swap with armedRx := true }
    else s) := by
  refine congrArg Host.Outcome.next ((ite_not _ _ _).symm.trans (if_congr ?_ rfl rfl)).symm
  simp [imp_iff_not_or, or_assoc]

theorem exec_swapCancel : exec (.swapCancel o m) s = .next
    (if isRdn s o.val m 8 = true ∧ o.val = rdnPartner s ∧ s.rdn.swap.asPart = true ∧ s.ctl.mode ≠ .handover then swapPut s {} else s) := by
  refine congrArg Host.Outcome.next ((ite_not _ _ _).symm.trans (if_congr ?_ rfl rfl)).symm
  simp [imp_iff_not_or, or_assoc]

/-- A partner is ready where the generation is the one applied, swap_tg locked, and no head that is on or starting lacks its link. -/
theorem prepResult_ok (gen : BitVec 32) : prepResult s gen = 0 ↔ s.rdn.gen = gen ∧ s.fld (TG_STATUS (swapTg s)) 0 3 = 3
    ∧ ∀ x ∈ s.heads, (x.2.enabled = true ∨ x.2.start ≠ []) → x.2.rate ≠ 0 → x.2.trained = true := by
  have hany : (s.heads.any fun x => (x.2.enabled || !x.2.start.isEmpty) && x.2.rate != 0 && !x.2.trained) = false ↔
      ∀ x ∈ s.heads, (x.2.enabled = true ∨ x.2.start ≠ []) → x.2.rate ≠ 0 → x.2.trained = true := by
    rw [List.any_eq_false]
    refine forall₂_congr fun x _ => ?_
    simp
  rw [← hany]
  unfold prepResult
  split
  next hgen => simp [bne_iff_ne.mp hgen]
  next hgen =>
    have hgen : s.rdn.gen = gen := by simpa using hgen
    split
    next htg => simp [htg]
    next htg =>
      have htg : s.fld (TG_STATUS (swapTg s)) 0 3 = 3 := not_not.mp htg
      refine ⟨fun h => ⟨hgen, htg, ?_⟩, fun ⟨_, _, hheads⟩ => if_neg (ne_true_of_eq_false hheads)⟩
      by_contra hheads
      exact absurd h (by rw [if_pos (eq_true_of_ne_false hheads)]; decide)

theorem exec_swapInstantD : exec .swapInstantD s = .next (if swapNext s = true ∧ s.rdn.swap.job ≠ none then
    (if s.rdn.swap.acked = true then sendRdn s (rdnPartner s) 6 0 s.rdn.swap.gen s.rdn.swap.bNs else swapEnd s stSwapRefused) else s) := by
  refine congrArg Host.Outcome.next ((ite_not _ _ _).symm.trans (if_congr ?_ rfl rfl)).symm
  simp [imp_iff_not_or, or_comm]

theorem exec_swapInstantC : exec .swapInstantC s = .next (if swapNext s = false then s
    else if s.rdn.swap.asPart = true then swapPut s { s.rdn.swap with pastC := true }
    else if s.rdn.swap.job = none ∨ s.rdn.swap.armed = true then s
    else if s.rdn.swap.armedRx = true then swapPut s { s.rdn.swap with armed := true }
    else swapEnd (sendRdn s (rdnPartner s) 8 0 s.rdn.swap.gen s.rdn.swap.bNs) stSwapCancelled) := by
  refine congrArg Host.Outcome.next (if_congr (by simp) rfl (if_congr Iff.rfl rfl (if_congr (by simp) rfl rfl)))

theorem swapNext_iff : swapNext s = true ↔ s.ctl.core = true ∧ isSwapB s (nextBoundary s (swapTg s)) = true := Bool.and_eq_true _ _ ▸ Iff.rfl

theorem swapEnd_none {s : State} (st : Nat) (h : s.rdn.swap.job = none) : swapEnd s st = s := by
  unfold swapEnd
  rw [h]

theorem swapEnd_some {s : State} {id : Nat} (st : Nat) (h : s.rdn.swap.job = some id) : swapEnd s st =
    finish (({ s with rdn := { s.rdn with swap := {}, asked := none } } : State).resultDone RDN_STATUS (5 + 9 * 8)) id st := by
  unfold swapEnd
  rw [h]
  rfl

theorem exec_swapDue : exec .swapDue s = .next
    (if s.ctl.core = true ∧ s.rdn.dueSaid = false ∧ (s.reg RDN_SWAP_PERIOD).toNat < swapAge s then
      raise { s with rdn := { s.rdn with dueSaid := true } } evSwapDue 0 40 31 [] else s) :=
  congrArg Host.Outcome.next (if_congr (by simp [and_assoc]) rfl rfl)

end Swap

/-- Settles O54: a request by who asks and what waits; a message of a swap by the guard of its side; the instants and the record of an
overdue swap by theirs. -/
theorem rdnRings : Obligations.RdnRings := by
  refine ⟨fun o m s op c hc => ?_, fun o m s => ?_, fun s => ⟨exec_swapInstantD s, exec_swapInstantC s, swapNext_iff s⟩,
    fun s st => ⟨swapEnd_none st, fun id => swapEnd_some st⟩, exec_swapDue⟩
  · rw [exec_ringRequest s hc]
    refine ⟨fun h => ?_, fun h w hw => ?_, fun h hw hrole => ?_, fun h hw hrole => ?_⟩
    · rw [ringRequest_other h]
    · rw [ringRequest_reply h hw]
    · rw [ringRequest_asked h hw, if_pos (by simp [hrole])]
    · rw [ringRequest_asked h hw, if_neg (by simp [hrole])]
  · intro from_ w put prep r ack go armed cancel
    refine ⟨fun h => ?_, prepResult_ok s (rdnGen m), fun h => ?_, fun h => ?_, fun h => ?_, fun h => ?_, fun h => ?_, fun h => ?_, fun h => ?_,
      fun h => ?_, fun h => ?_⟩
    · exact (exec_swapPrep o m s).trans (congrArg Host.Outcome.next (if_pos (and_assoc.mp h)))
    · exact (exec_swapAck o m s).trans (congrArg Host.Outcome.next (if_pos (and_assoc.mp h)))
    · exact (exec_swapGo o m s).trans (congrArg Host.Outcome.next (if_pos (and_assoc.mp h)))
    · exact (exec_swapArmed o m s).trans (congrArg Host.Outcome.next (if_pos (and_assoc.mp h)))
    · exact (exec_swapCancel o m s).trans (congrArg Host.Outcome.next (if_pos (and_assoc.mp h)))
    · exact (exec_swapPrep o m s).trans (congrArg Host.Outcome.next (if_neg fun hp => h (and_assoc.mpr hp)))
    · exact (exec_swapAck o m s).trans (congrArg Host.Outcome.next (if_neg fun hp => h (and_assoc.mpr hp)))
    · exact (exec_swapGo o m s).trans (congrArg Host.Outcome.next (if_neg fun hp => h (and_assoc.mpr hp)))
    · exact (exec_swapArmed o m s).trans (congrArg Host.Outcome.next (if_neg fun hp => h (and_assoc.mpr hp)))
    · exact (exec_swapCancel o m s).trans (congrArg Host.Outcome.next (if_neg fun hp => h (and_assoc.mpr hp)))

end Sys2Proof.Machine

/-!
PROOFS of the redundancy family: checkpoints, takeovers, SHADOW and the vault as this unit asks for them (R378–R400).
-/

namespace Sys2Proof.Machine

/-! ### Requests at this unit (R388, R390, R399) -/

theorem exec_rdnCmd {a : Access} {v : Word} {s : State} {c : Instr} (h : Reaches s a .w RDN_CMD)
    (hc : c = .rdnCmdTakeover a v ∨ c = .rdnCmdShadow a v ∨ c = .rdnCmdKeep a v ∨ c = .rdnCmdCkpt a v) :
    exec c s = .next (rdnCmd v s) := by
  rcases hc with rfl | rfl | rfl | rfl <;> exact congrArg Host.Outcome.next (regAccess_go h)

/-- Whether the mode allows a request for takeover (1), SHADOW (2) or KEEP (3). -/
def modeAllows (s : State) (op : Nat) : Prop :=
  s.ctl.target = none ∧ (op = 1 ∧ (s.ctl.mode = .keep ∨ s.ctl.mode = .shadow) ∨ op = 2 ∧ s.ctl.mode = .keep ∨ op = 3 ∧ s.ctl.mode = .shadow)

section Codes

variable {s : State} {op : Nat}

theorem requestCode_noStandby (h : rdnRole s ≠ 2) : requestCode s op = 10 := if_pos h

variable (h1 : 1 ≤ op) (h3 : op ≤ 3) (h : rdnRole s = 2)
include h1 h3 h

theorem requestCode_wrongMode (hm : ¬ modeAllows s op) : requestCode s op = 9 := by
  unfold modeAllows at hm
  rcases (by omega : op = 1 ∨ op = 2 ∨ op = 3) with rfl | rfl | rfl <;>
    cases htarget : s.ctl.target <;> simp_all [requestCode]

theorem requestCode_allowed (hm : modeAllows s op) : requestCode s op = if op = 1 ∧ holderAlive s = true then 8 else 0 := by
  obtain ⟨htarget, hm⟩ := hm
  rcases hm with ⟨rfl, hm⟩ | ⟨rfl, hm⟩ | ⟨rfl, hm⟩
  · rcases hm with hm | hm <;> simp [requestCode, h, htarget, hm]
  · simp [requestCode, h, htarget, hm]
  · simp [requestCode, h, htarget, hm]

end Codes

/-! ### The RDN commands (R378, R388, R390, R393) -/

/-- A request that its checks refuse is decided in RDN_STATUS as well, but to one that is no manager (R399). -/
theorem guardRdn_refused {s : State} {q : Req} {op ring st : Nat} {checks : List (Bool × Nat)} {go : State → State}
    (h : firstFail checks = some st) (hst : st ≠ stNotManager) :
    guardRdn (accepted s q op) s.nextJob ring checks go = done (s.resultDone RDN_STATUS (ring + rdnCode st * 8)) q op st := by
  unfold guardRdn
  rw [h]
  dsimp only
  rw [if_neg hst]
  exact finish_accepted (s.resultDone RDN_STATUS (ring + rdnCode st * 8)) q op st 0

theorem guardRdn_notManager {s : State} {q : Req} {op ring : Nat} {checks : List (Bool × Nat)} {go : State → State}
    (h : firstFail checks = some stNotManager) :
    guardRdn (accepted s q op) s.nextJob ring checks go = done s q op stNotManager := by
  unfold guardRdn
  rw [h]
  dsimp only
  rw [if_pos rfl]
  exact finish_accepted s q op stNotManager 0

theorem guardRdn_pass {s : State} {id ring : Nat} {checks : List (Bool × Nat)} {go : State → State} (h : firstFail checks = none) :
    guardRdn s id ring checks go = go s := by
  unfold guardRdn; rw [h]

theorem guardJob_refused {s : State} {q : Req} {op st : Nat} {checks : List (Bool × Nat)} {go : State → State} (h : firstFail checks = some st) :
    guardJob (accepted s q op) s.nextJob checks go = done s q op st := by
  unfold guardJob
  rw [h]
  exact finish_accepted s q op st 0

section Checks

variable {P : Prop} [Decidable P] {st : Nat} {rest : List (Bool × Nat)}

theorem firstFail_at (h : P) : firstFail ((decide P, st) :: rest) = some st := if_pos (decide_eq_true h)

theorem firstFail_past (h : ¬ P) : firstFail ((decide P, st) :: rest) = firstFail rest := if_neg (by simpa using h)

end Checks

section Ckpt

variable {s : State} {q : Req}

theorem doRdnCkpt_admitted (h : Admitted s q 0) : doRdnCkpt q s =
    guardRdn (accepted s q 0x1101) s.nextJob 4 [(!isManager s q, stNotManager), (!ckptOn s, stNotPaired)] fun s' =>
      { rdnDecided (ckptDue s') 4 0 with rdn := { (rdnDecided (ckptDue s') 4 0).rdn with jobs := (rdnDecided (ckptDue s') 4 0).rdn.jobs ++ [s.nextJob] } } :=
  soile_admitted h

theorem exec_rdnCkpt_refused (h : Admitted s q 0) (hm : isManager s q = false) : exec (.rdnCkpt q) s = .next (done s q 0x1101 stNotManager) :=
  congrArg Host.Outcome.next ((doRdnCkpt_admitted h).trans (guardRdn_notManager (by simp [firstFail, hm])))

theorem exec_rdnCkpt_notPaired (h : Admitted s q 0) (hm : isManager s q = true) (hon : ckptOn s = false) :
    exec (.rdnCkpt q) s = .next (done (s.resultDone RDN_STATUS (4 + 10 * 8)) q 0x1101 stNotPaired) :=
  congrArg Host.Outcome.next ((doRdnCkpt_admitted h).trans (guardRdn_refused (st := stNotPaired) (by simp [firstFail, hm, hon]) (by decide)))

end Ckpt

section Remote

variable {s : State} {q : Req}

theorem doRdnShadow_admitted (h : Admitted s q (bodyMask [(16, 0, 8), (17, 0, 1)])) : doRdnShadow q s =
    guardJob (accepted s q 0x1102) s.nextJob [(!isManager s q, stNotManager), (decide (7 < q.u8 16), stBadRange),
      ((standbyOf s (q.u8 16)).isNone || notStandby s (q.u8 16) ((standbyOf s (q.u8 16)).getD 0), stNotPaired)] fun s' =>
      remoteRequest s' s.nextJob (if q.bit 17 0 then 2 else 3) ((standbyOf s (q.u8 16)).getD 0) :=
  soile_admitted h

theorem doRdnTakeover_admitted (h : Admitted s q (bodyMask [(16, 0, 16)])) : doRdnTakeover q s =
    guardJob (accepted s q 0x1104) s.nextJob [(!isManager s q, stNotManager), (decide (7 < q.u8 16) || decide (7 < q.u8 17), stBadRange),
      (notStandby s (q.u8 16) (q.u8 17), stNotPaired)] fun s' => remoteRequest s' s.nextJob 1 (q.u8 17) :=
  soile_admitted h

end Remote

section Remote

variable (u : State) (id op : Nat)

theorem remoteRequest_here : remoteRequest u id op u.physAddr =
    if requestCode u op = 0 then beginRequest (finish u id stComplete) op 3
    else finish (rdnDecided u op (requestCode u op)) id (rdnStatus (requestCode u op)) := if_pos rfl

variable {u a}

theorem remoteRequest_silent (ha : a ≠ u.physAddr) (h : (u.peer a).heard = none) : remoteRequest u id op a = finish u id stNoUnit := by
  unfold remoteRequest
  rw [if_neg ha]
  exact if_pos (by rw [h]; rfl)

theorem remoteRequest_heard (ha : a ≠ u.physAddr) (h : (u.peer a).heard ≠ none) : remoteRequest u id op a =
    sendRdn { u with rdn := { u.rdn with waiting := u.rdn.waiting ++ [(id, op, a)] } } a op 0 0 0 := by
  unfold remoteRequest
  rw [if_neg ha]
  exact if_neg (by simpa using h)

end Remote

/-! ### A planned swap -/

/-- RDN_SWAP is no command that a pending swap holds off, and is executed in RUN alone (R288, R393). -/
theorem doRdnSwap_enters {s : State} {q : Req} (hcore : s.ctl.core = true) (hres : q.reservedSet (bodyMask [(16, 0, 64)]) = false)
    (hring : badCring s q = false) (run : State → Nat → State) (hsoile : s.ctl.mode.soile = true) :
    soile s q 0x1103 (bodyMask [(16, 0, 64)]) (decide (s.ctl.mode = .run)) run =
      if s.ctl.mode = .run then run (accepted s q 0x1103) s.nextJob else done s q 0x1103 stModeDenied := by
  have hckpt : changesCkpt 0x1103 = false := by decide
  have hacc : accept s q 0x1103 = (accepted s q 0x1103, s.nextJob) := rfl
  unfold soile
  rw [rerouted_ok hring, hacc]
  by_cases hrun : s.ctl.mode = .run
  · simp [hcore, hres, hring, hrun, hckpt, Mode.soile]
  · simp [hcore, hres, hring, hrun, hsoile]

/-- The checks of RDN_SWAP in the order of Table 14.8 (R393). -/
def swapChecks (s : State) (q : Req) : List (Bool × Nat) :=
  let r := s.peer (rdnPartner s)
  [(!isManager s q, stNotManager), (rdnRole s != 1, stNotPaired),
    (r.heard.isSome && (r.mode != Mode.shadow.code || r.logical != s.logicalId), stPartnerState), (swapBusy s, stSwapBusy),
    (s.rdn.swap.job.isSome, stSwapPending), (!tgMakes s (swapTg s) || tgNominal (s.tg (swapTg s)) == 0, stSwapRefused),
    (r.heard.isNone, stNoUnit)]

theorem swapChecks_eq (s : State) (q : Req) : swapChecks s q =
    let r := s.peer (s.fld RDN_ROLE 4 3)
    [(decide (isManager s q = false), stNotManager), (decide (s.fld RDN_ROLE 0 2 ≠ 1), stNotPaired),
      (decide (r.heard ≠ none ∧ (r.mode ≠ 3 ∨ r.logical ≠ s.logicalId)), stPartnerState), (decide (swapBusy s = true), stSwapBusy),
      (decide (s.rdn.swap.job ≠ none), stSwapPending),
      (decide (tgMakes s (swapTg s) = false ∨ tgNominal (s.tg (swapTg s)) = 0), stSwapRefused), (decide (r.heard = none), stNoUnit)] := by
  have hshadow : Mode.shadow.code = 3 := rfl
  have hsome {α : Type} (o : Option α) [Decidable (o = none)] : o.isSome = !decide (o = none) := by cases o <;> simp
  have hnone {α : Type} (o : Option α) [Decidable (o = none)] : o.isNone = decide (o = none) := by cases o <;> simp
  have hne (a b : Nat) : (a != b) = !decide (a = b) := rfl
  have heq (a b : Nat) : (a == b) = decide (a = b) := rfl
  simp [swapChecks, hshadow, rdnRole, rdnPartner, hsome, hnone, hne, heq]

theorem doRdnSwap_admitted {s : State} {q : Req} (hcore : s.ctl.core = true) (hsoile : s.ctl.mode.soile = true)
    (hres : q.reservedSet (bodyMask [(16, 0, 64)]) = false) (hring : badCring s q = false) : doRdnSwap q s =
      if s.ctl.mode = .run then guardRdn (accepted s q 0x1103) s.nextJob 5 (swapChecks s q) fun s' =>
        ckptDue { s' with rdn := { s'.rdn with swap := { job := some s.nextJob, bNs := swapB s' (q.u64 16), gen := s'.rdn.gen + 1 } } }
      else done s q 0x1103 stModeDenied :=
  doRdnSwap_enters hcore hres hring _ hsoile

theorem le_ceilDiv_mul (n : Nat) {p : Nat} (hp : p ≠ 0) : n ≤ ceilDiv n p * p := by
  have hdiv := Nat.div_add_mod (n + p - 1) p
  have hmod := Nat.mod_lt (n + p - 1) (Nat.pos_of_ne_zero hp)
  unfold ceilDiv
  rw [Nat.mul_comm]
  omega

theorem ceilDiv_pred_mul_lt {n p : Nat} (h : ceilDiv n p ≠ 0) : (ceilDiv n p - 1) * p < n := by
  have hle := Nat.div_mul_le_self (n + p - 1) p
  have hp : 0 < p := Nat.pos_of_ne_zero fun h0 => h (by simp [ceilDiv, h0])
  have hk : p ≤ (n + p - 1) / p * p := Nat.le_mul_of_pos_left p (Nat.pos_of_ne_zero h)
  unfold ceilDiv
  rw [Nat.sub_mul, Nat.one_mul]
  omega

/-! ### Checkpoints (R378) -/

theorem ckptOn_iff (s : State) : ckptOn s = true ↔ s.fld RDN_ROLE 0 2 = 1 ∧ (s.bit RDN_ROLE 3 = true ∨ s.rdn.swap.job ≠ none) := by
  simp [ckptOn, rdnRole, Option.isSome_iff_ne_none]

theorem ckptEvent_iff (s : State) : ckptEvent s = true ↔
    s.rdn.due = true ∨ ∀ t, s.rdn.taken = some t → t + 1000000 * s.fld RDN_CKPT_PERIOD 0 16 ≤ s.island := by
  unfold ckptEvent
  cases s.rdn.taken <;> simp

theorem doCheckpoint_cases (s : State) : doCheckpoint s =
    if s.ctl.core = true ∧ s.ctl.mode.soile = true ∧ ckptOn s = true ∧ ckptEvent s = true ∧ s.rdn.image = none
        ∧ ¬ ∃ t, s.rdn.taken = some t ∧ s.island < t + 100000000 then
      { s with ckptWait := true, rdn := { s.rdn with
        gen := s.rdn.gen + 1, taken := some s.island, due := false, image := some (s.rdn.gen + 1, s.now, imageOf (captureState s))
        ckptJobs := s.rdn.jobs, jobs := [] } }
    else s := by
  refine ((ite_not _ _ _).symm.trans (if_congr ?_ rfl rfl)).symm
  cases s.rdn.taken <;> simp [imp_iff_not_or, or_assoc, or_comm, or_left_comm, Option.ne_none_iff_isSome]

/-! ### Applying checkpoints in SHADOW (R383, R391) -/

theorem atBoundary_iff (s : State) (g : Nat) :
    atBoundary s g = true ↔ tgMakes s g = true ∧ (s.tg g).first = false ∧ (s.tg g).boundary = s.now := by
  simp [atBoundary, and_assoc]

/-- The slots that may be applied: the valid ones newer than the state. -/
def newerSlots (s : State) : List Nat := (slotOrder s).filter fun i => decide (0 < (slotGen s i - s.rdn.gen).toInt)

theorem exec_shadowApply (s : State) : exec .shadowApply s = .next
    (if s.ctl.mode = .shadow ∧ rdnRole s = 2 ∧ tgMakes s (swapTg s) = true ∧ (s.tg (swapTg s)).first = false
        ∧ (s.tg (swapTg s)).boundary = s.now then applyNewer (newerSlots s) s else s) := by
  refine congrArg Host.Outcome.next ((ite_not _ _ _).symm.trans (if_congr ?_ rfl rfl)).symm
  rw [← atBoundary_iff]
  simp [imp_iff_not_or, or_assoc]

/-- What the ECC of the vault finds in a slot (log 163). -/
def slotEcc (s : State) : Ecc := match Config.vaultEcc s.free with | 0 => .ok | 1 => .corrected | _ => .bad

theorem slotEcc_eq (s : State) : slotEcc s =
    if Config.vaultEcc s.free = 0 then Ecc.ok else if Config.vaultEcc s.free = 1 then .corrected else .bad := by
  unfold slotEcc
  rcases Config.vaultEcc s.free with _ | _ | n <;> rfl

theorem applyNewer_cons (i : Nat) (rest : List Nat) (s : State) : applyNewer (i :: rest) s =
    match checkSlot s.draw i (slotEcc s) with
    | (w, .inl c) =>
      ckptShown (relinkAll (holdOpened (applyCarried (captureState w) c w))) (slotGen s i) (s.loadN (slotBase i + 4) 4)
    | (w, .inr _) => applyNewer rest w := by
  have unfolded : applyNewer (i :: rest) s = match (checkSlot s.draw i (slotEcc s)).2 with
      | .inr _ => applyNewer rest (checkSlot s.draw i (slotEcc s)).1
      | .inl c => ckptShown (relinkAll (holdOpened (applyCarried (captureState (checkSlot s.draw i (slotEcc s)).1) c
          (checkSlot s.draw i (slotEcc s)).1))) (slotGen s i) (s.loadN (slotBase i + 4) 4) := rfl
  rw [unfolded]
  obtain ⟨w, c | cause⟩ := checkSlot s.draw i (slotEcc s) <;> rfl

/-- The causes for which a slot is not applied; one that its ECC gives up on is one of them (R383). -/
theorem checkSlot_refuses {s u : State} {i cause : Nat} {e : Ecc} (h : checkSlot s i e = (u, .inr cause)) :
    (cause = 2 ∨ cause = 3 ∨ cause = 4 ∨ cause = 5) ∧ (e = .bad → cause = 2 ∧ u = s.add HWK_ECC 16 16 1) := by
  unfold checkSlot at h
  extract_lets b s' clen r image t at h
  clear_value r image t
  by_cases he : e = .bad
  · rw [if_pos he] at h
    obtain ⟨hu, hcause⟩ := Prod.mk.inj h
    have hcause := (Sum.inr.inj hcause).symm
    exact ⟨.inl hcause, fun _ => ⟨hcause, hu.symm.trans (by subst he; rfl)⟩⟩
  · clear_value s'
    refine ⟨?_, fun h => absurd h he⟩
    rw [if_neg he] at h
    split at h
    · cases h; simp
    split at h
    · cases h; simp
    split at h
    · cases h; simp
    split at h
    · cases h; simp
    split at h <;> cases h
    simp

/-! ### The vault (R380, R400) -/

theorem exec_hwkClear {a : Access} {v : Word} {s : State} (h : Reaches s a .w HWK_CLEAR) :
    exec (.hwkClear a v) s = .next (hwkClear a v s) := congrArg Host.Outcome.next (regAccess_go h)

theorem tget_filter_key {α : Type} (d : Nat → α) (P : Nat → Bool) (t : Tbl α) (k : Nat) :
    tget d (t.filter fun x => P x.1) k = if P k then tget d t k else d k := by
  induction t with
  | nil => simp [tget]
  | cons x t ih =>
    obtain ⟨j, u⟩ := x
    by_cases hj : P j = true
    · rw [List.filter_cons_of_pos (by exact hj), tget, tget, ih]
      by_cases hk : j = k
      · subst hk; simp [hj]
      · simp [hk]
    · rw [List.filter_cons_of_neg (by exact hj), tget, ih]
      by_cases hk : j = k
      · subst hk; simp [hj]
      · simp [hk]

theorem zeroVault_load8 (s : State) (x : Nat) : (zeroVault s).load8 x = if inVault x then 0 else s.load8 x := by
  refine (tget_filter_key memUnlisted (fun x => !inVault x) s.mem x).trans ?_
  cases inVault x <;> rfl

theorem inVault_iff (x : Nat) : inVault x = true ↔ 0x3000000 ≤ x ∧ x < 0x3800000 :=
  (Bool.and_eq_true_iff ..).trans (and_congr decide_eq_true_iff decide_eq_true_iff)

/-! ### What the obligation says of RDN_SWAP and of the commands to a standby -/

/-- RDN_SHADOW asks the standby of the ID that the descriptor names (R390). -/
theorem rdnShadow_asks {s : State} {q : Req} (h : Admitted s q (bodyMask [(16, 0, 8), (17, 0, 1)])) :
    if isManager s q = false then exec (.rdnShadow q) s = .next (done s q 0x1102 stNotManager)
    else if 7 < q.u8 16 then exec (.rdnShadow q) s = .next (done s q 0x1102 stBadRange)
    else match standbyOf s (q.u8 16) with
      | none => exec (.rdnShadow q) s = .next (done s q 0x1102 stNotPaired)
      | some a => if notStandby s (q.u8 16) a = true then exec (.rdnShadow q) s = .next (done s q 0x1102 stNotPaired)
        else exec (.rdnShadow q) s = .next (remoteRequest (accepted s q 0x1102) s.nextJob (if q.bit 17 0 = true then 2 else 3) a) := by
  have no {st : Nat} (hf) : exec (.rdnShadow q) s = .next (done s q 0x1102 st) :=
    congrArg Host.Outcome.next ((doRdnShadow_admitted h).trans (guardJob_refused hf))
  by_cases hm : isManager s q = false
  · rw [if_pos hm]
    exact no (by simp [firstFail, hm])
  rw [if_neg hm]
  by_cases hl : 7 < q.u8 16
  · rw [if_pos hl]
    exact no (by simp [firstFail, hm, hl])
  rw [if_neg hl]
  cases ha : standbyOf s (q.u8 16) with
  | none => exact no (by simp [firstFail, hm, hl, ha])
  | some a =>
    dsimp only
    by_cases hn : notStandby s (q.u8 16) a = true
    · rw [if_pos hn]
      exact no (by simp [firstFail, hm, hl, ha, hn])
    · rw [if_neg hn]
      refine congrArg Host.Outcome.next ((doRdnShadow_admitted h).trans ?_)
      rw [ha, guardJob_pass (s := accepted s q 0x1102) (by simp [firstFail, hm, hl, hn])]
      rfl

theorem rdnTakeover_asks {s : State} {q : Req} (h : Admitted s q (bodyMask [(16, 0, 16)])) :
    if isManager s q = false then exec (.rdnTakeover q) s = .next (done s q 0x1104 stNotManager)
    else if 7 < q.u8 16 ∨ 7 < q.u8 17 then exec (.rdnTakeover q) s = .next (done s q 0x1104 stBadRange)
    else if notStandby s (q.u8 16) (q.u8 17) = true then exec (.rdnTakeover q) s = .next (done s q 0x1104 stNotPaired)
    else exec (.rdnTakeover q) s = .next (remoteRequest (accepted s q 0x1104) s.nextJob 1 (q.u8 17)) := by
  have no {st : Nat} (hf) : exec (.rdnTakeover q) s = .next (done s q 0x1104 st) :=
    congrArg Host.Outcome.next ((doRdnTakeover_admitted h).trans (guardJob_refused hf))
  split_ifs with hm hl hn
  · exact no (by simp [firstFail, hm])
  · exact no (by simp [firstFail, hm, hl])
  · exact no (by simp [firstFail, hm, hl, hn])
  · exact congrArg Host.Outcome.next ((doRdnTakeover_admitted h).trans (guardJob_pass (by simp [firstFail, hm, hl, hn])))

/-- RDN_SWAP in RUN: the first check that fails, or the swap takes its boundary (R393). -/
theorem rdnSwap_asks {s : State} {q : Req} (hcore : s.ctl.core = true) (hsoile : s.ctl.mode.soile = true)
    (hres : q.reservedSet (bodyMask [(16, 0, 64)]) = false) (hring : badCring s q = false) :
    let r := s.peer (s.fld RDN_ROLE 4 3)
    let off := fun (st : Nat) => exec (.rdnSwap q) s = .next (done s q 0x1103 st)
    let no := fun (st : Nat) => exec (.rdnSwap q) s =
      .next (done (s.resultDone RDN_STATUS (5 + (if st = stNotPaired then 10 else 9) * 8)) q 0x1103 st)
    if s.ctl.mode ≠ .run then off stModeDenied else if isManager s q = false then off stNotManager
    else if s.fld RDN_ROLE 0 2 ≠ 1 then no stNotPaired
    else if r.heard ≠ none ∧ (r.mode ≠ 3 ∨ r.logical ≠ s.logicalId) then no stPartnerState
    else if swapBusy s = true then no stSwapBusy else if s.rdn.swap.job ≠ none then no stSwapPending
    else if tgMakes s (swapTg s) = false ∨ tgNominal (s.tg (swapTg s)) = 0 then no stSwapRefused else if r.heard = none then no stNoUnit
    else let u := accepted s q 0x1103
      exec (.rdnSwap q) s = .next { u with rdn := { u.rdn with
        due := true, swap := { job := some s.nextJob, bNs := swapB s (q.u64 16), gen := s.rdn.gen + 1 } } } := by
  intro r off no
  have hgo := doRdnSwap_admitted hcore hsoile hres hring
  by_cases hrun : s.ctl.mode = .run
  swap
  · rw [if_pos hrun]
    exact congrArg Host.Outcome.next (hgo.trans (if_neg hrun))
  rw [if_pos hrun] at hgo
  have refused {st : Nat} (hf : firstFail (swapChecks s q) = some st) (hst : st ≠ stNotManager) (halive : st ≠ stPartnerAlive) : no st := by
    refine congrArg Host.Outcome.next ((hgo.trans (guardRdn_refused hf hst)).trans ?_)
    rw [rdnCode, if_neg halive]
  rw [if_neg (not_not.mpr hrun)]
  rw [swapChecks_eq] at refused hgo
  have hr : s.peer (s.fld RDN_ROLE 4 3) = r := rfl
  rw [hr] at refused hgo
  dsimp only at refused hgo
  clear_value r
  split_ifs with hm h1 h2 h3 h4 h5 h6
  · exact congrArg Host.Outcome.next (hgo.trans (guardRdn_notManager (by rw [firstFail_at hm])))
  · exact refused (by rw [firstFail_past hm, firstFail_at h1]) (by decide) (by decide)
  · exact refused (by rw [firstFail_past hm, firstFail_past h1, firstFail_at h2]) (by decide) (by decide)
  · exact refused (by rw [firstFail_past hm, firstFail_past h1, firstFail_past h2, firstFail_at h3]) (by decide) (by decide)
  · exact refused (by rw [firstFail_past hm, firstFail_past h1, firstFail_past h2, firstFail_past h3, firstFail_at h4]) (by decide) (by decide)
  · exact refused (by rw [firstFail_past hm, firstFail_past h1, firstFail_past h2, firstFail_past h3, firstFail_past h4, firstFail_at h5]) (by decide) (by decide)
  · exact refused (by rw [firstFail_past hm, firstFail_past h1, firstFail_past h2, firstFail_past h3, firstFail_past h4, firstFail_past h5, firstFail_at h6]) (by decide) (by decide)
  · exact congrArg Host.Outcome.next (hgo.trans (guardRdn_pass (by rw [firstFail_past hm, firstFail_past h1, firstFail_past h2, firstFail_past h3, firstFail_past h4, firstFail_past h5, firstFail_past h6]; rfl)))

theorem swapB_first {s : State} (nb : Nat) (hp : tgNominal (s.tg (swapTg s)) ≠ 0) :
    let t := s.tg (swapTg s)
    let p := tgNominal t
    let ahead := fun (x : Nat) => timeDiff (BitVec.ofNat 64 x) (BitVec.ofNat 64 t.boundary)
    let from_ := max (max (ahead (s.now + 3 * p)) (ahead nb)) 0
    ∃ k : Nat, swapB s nb = t.boundary + k * p ∧ from_ ≤ ((k * p : Nat) : Int) ∧ (k = 0 ∨ (((k - 1) * p : Nat) : Int) < from_) := by
  intro t p ahead from_
  have hfrom : from_ = (max (ahead (s.now + 3 * p)).toNat (ahead nb).toNat : Nat) := by omega
  refine ⟨ceilDiv (max (ahead (s.now + 3 * p)).toNat (ahead nb).toNat) p, rfl, ?_, ?_⟩
  · rw [hfrom]
    exact Int.ofNat_le.mpr (le_ceilDiv_mul _ hp)
  · rw [hfrom]
    exact (em _).imp_right fun hk => Int.ofNat_lt.mpr (ceilDiv_pred_mul_lt hk)

/-- Clearing the vault leaves all but its bytes and the note that it is being zeroed (R400). -/
theorem hwkClear_zeroes {a : Access} {v : Word} {s : State} (h : Reaches s a .w HWK_CLEAR) (hv : bitOf v.toNat 0 = true)
    (hoff : s.bit CHN_VAULT 0 = false) : exec (.hwkClear a v) s = .next (zeroVault s) := by
  rw [exec_hwkClear h, hwkClear, if_neg (by simp [hv]), if_neg (by simp [hoff])]

/-! ### The obligation -/

/-- Settles O53: every command by the order of its checks; a checkpoint and SHADOW_APPLY by what lets them act. -/
theorem rdnCommands : Obligations.RdnCommands := by
  unfold Obligations.RdnCommands
  refine ⟨fun a v s c h hc => exec_rdnCmd h hc, fun s op h1 h3 => ?_, fun u op why => ?_, fun q s h => ?_,
    fun q s h => rdnShadow_asks h, fun q s h => rdnTakeover_asks h, fun u id op a => ?_,
    fun q s hcore hsoile hres hring => rdnSwap_asks hcore hsoile hres hring, fun s nb hp => swapB_first nb hp,
    fun s => ?_, fun s => ?_, fun s i cause e u h => checkSlot_refuses h, fun a v s h => ?_, fun s => rfl⟩
  case refine_1 =>
    exact ⟨fun h => requestCode_noStandby h, fun h hm => requestCode_wrongMode h1 h3 h hm, fun h hm => requestCode_allowed h1 h3 h hm⟩
  case refine_2 => exact ⟨rfl, fun h => by subst h; rfl, fun h => by subst h; rfl, rfl⟩
  case refine_3 =>
    refine ⟨exec_rdnCkpt_refused h, exec_rdnCkpt_notPaired h, fun hm hon => ?_⟩
    exact congrArg Host.Outcome.next ((doRdnCkpt_admitted h).trans (guardRdn_pass (by simp [firstFail, hm, hon])))
  case refine_4 =>
    exact ⟨fun ha => by subst ha; exact remoteRequest_here u id op, remoteRequest_silent id op, remoteRequest_heard id op⟩
  case refine_5 =>
    exact ⟨fun h => congrArg Host.Outcome.next ((doCheckpoint_cases s).trans (if_pos h)),
      fun h => congrArg Host.Outcome.next ((doCheckpoint_cases s).trans (if_neg h)), ckptOn_iff s, ckptEvent_iff s⟩
  case refine_6 =>
    refine ⟨fun h => ?_, fun h => (exec_shadowApply s).trans (congrArg Host.Outcome.next (if_pos h)), fun u i rest hgen hlen => ?_, rfl⟩
    · by_cases hdue : s.ctl.mode = .shadow ∧ s.fld RDN_ROLE 0 2 = 2 ∧ tgMakes s (swapTg s) = true ∧ (s.tg (swapTg s)).first = false
          ∧ (s.tg (swapTg s)).boundary = s.now
      · have hnone : newerSlots s = [] := h.resolve_left (not_not.mpr hdue)
        rw [exec_shadowApply, hnone]
        exact congrArg Host.Outcome.next (ite_self s)
      · exact (exec_shadowApply s).trans (congrArg Host.Outcome.next (if_neg hdue))
    · rw [applyNewer_cons, slotEcc_eq, hgen, hlen]
      rfl
  case refine_7 =>
    refine ⟨fun hv => ?_, fun hv hon => ?_, fun hv hoff => ⟨zeroVault s, hwkClear_zeroes h hv hoff, rfl, fun x hlo hhi => ?_, fun x hx => ?_, rfl, rfl⟩⟩
    · rw [exec_hwkClear h, hwkClear, if_pos (by simp [hv])]
    · rw [exec_hwkClear h, hwkClear, if_neg (by simp [hv]), if_pos hon]
    · rw [zeroVault_load8, if_pos ((inVault_iff x).mpr ⟨hlo, hhi⟩)]
    · rw [zeroVault_load8, if_neg fun hin => ?_]
      obtain ⟨hlo, hhi⟩ := (inVault_iff x).mp hin
      omega

end Sys2Proof.Machine

/-!
PROOFS of the access gates family: the entries' control words, hold, apply and lock, and the staging registers (R307–R310, R315, R518).
-/

namespace Sys2Proof.Machine

/-! ### Fields side by side -/

theorem State.fld_add (s : State) (a lo n m : Nat) : s.fld a lo (n + m) = s.fld a lo n + 2 ^ n * s.fld a (lo + n) m := by
  unfold State.fld bitsOf
  rw [Nat.pow_add, Nat.mod_mul, Nat.div_div_eq_div_mul, ← Nat.pow_add]

theorem State.bit_eq_fld (s : State) (a i : Nat) : s.bit a i = (s.fld a i 1 == 1) := rfl

/-! ### The control word of an entry -/

section Decided

variable {s : State} {k r : Nat}

theorem gateDecided_result (hr : r < 8) : (gateDecided s k r).fld (gateCtrlAddr k) 5 4 = 1 + 2 * r := by
  unfold gateDecided State.wrapInc
  rw [State.fld_setFld_beside _ _ _ (by omega) (by omega), State.fld_setFld_same _ _ _ (by omega)]
  omega

theorem gateDecided_count : (gateDecided s k r).fld (gateCtrlAddr k) 16 16 = (s.fld (gateCtrlAddr k) 16 16 + 1) % 2 ^ 16 := by
  unfold gateDecided State.wrapInc
  rw [State.fld_setFld_same _ _ _ (by omega), State.fld_setFld_beside _ _ _ (by omega) (by omega)]

/-- A decision leaves the fields below its record. -/
theorem gateDecided_low {lo n : Nat} (h : lo + n ≤ 5) :
    (gateDecided s k r).fld (gateCtrlAddr k) lo n = s.fld (gateCtrlAddr k) lo n := by
  unfold gateDecided State.wrapInc
  rw [State.fld_setFld_beside _ _ _ (by omega) (by omega), State.fld_setFld_beside _ _ _ (by omega) (by omega)]

/-- The on bit and the record read together. -/
theorem gateDecided_onRecord (hr : r < 8) :
    (gateDecided s k r).fld (gateCtrlAddr k) 4 5 = s.fld (gateCtrlAddr k) 4 1 + 2 * (1 + 2 * r) := by
  rw [State.fld_add _ _ 4 1 4, gateDecided_low (by omega), gateDecided_result hr]
  omega

theorem gateDecided_others : SameRegsBut [gateCtrlAddr k] s (gateDecided s k r) :=
  .trans (State.setFld_sameRegsBut _ _ _ _ _) (State.setFld_sameRegsBut _ _ _ _ _)

theorem gateDecided_back (l : Tbl Word) : { gateDecided s k r with regs := l } = { s with regs := l } := rfl

theorem inHold_eq_fld (s : State) (k : Nat) : inHold s k = (s.fld (gateCtrlAddr k) 0 2 == 2) := rfl

end Decided

/-! ### The addresses of an entry -/

theorem gateKey_slot (n : Fin 70) : gateKey (.slot n) < 70 := n.isLt

theorem gateKey_region_eq (m : Fin 8) (j : Fin 32) : gateKey (.region m j) = 70 + 32 * m.val + j.val := rfl

theorem gateKey_region (m : Fin 8) (j : Fin 32) : 70 ≤ gateKey (.region m j) := by
  rw [gateKey_region_eq]; omega

theorem regionOfKey (m : Fin 8) (j : Fin 32) : (gateKey (.region m j) - 70) / 32 = m.val ∧ (gateKey (.region m j) - 70) % 32 = j.val := by
  have hj := j.isLt
  rw [gateKey_region_eq]
  omega

theorem gateCtrlAddr_slot (n : Fin 70) : gateCtrlAddr (gateKey (.slot n)) = GATE_PS_CTRL n.val := if_pos (gateKey_slot n)

theorem gateCtrlAddr_region (m : Fin 8) (j : Fin 32) : gateCtrlAddr (gateKey (.region m j)) = MG_CTRL m.val j.val := by
  unfold gateCtrlAddr
  rw [if_neg (Nat.not_lt.mpr (gateKey_region m j)), (regionOfKey m j).1, (regionOfKey m j).2]

/-! ### Hold (R308) -/

section Hold

variable {s : State} {k : Nat}

/-- The state of an entry put in HOLD, before the request is decided. -/
def heldEntry (s : State) (k : Nat) : State :=
  (({ s with drains := tset (fun _ => 0) s.drains k (s.island + Config.drainNs s.free) } : State).setFld (gateCtrlAddr k) 0 2 2).draw

theorem holdEntry_again (h : inHold s k = true) : holdEntry s k = gateDecided s k 0 := if_pos h

theorem holdEntry_new (h : inHold s k = false) : holdEntry s k = gateDecided (heldEntry s k) k 0 := if_neg (ne_true_of_eq_false h)

theorem heldEntry_fld {lo n : Nat} (h : 2 ≤ lo) : (heldEntry s k).fld (gateCtrlAddr k) lo n = s.fld (gateCtrlAddr k) lo n :=
  State.fld_setFld_beside ({ s with drains := tset (fun _ => 0) s.drains k (s.island + Config.drainNs s.free) } : State) _ _ (by omega) (by omega)

theorem heldEntry_state : (heldEntry s k).fld (gateCtrlAddr k) 0 2 = 2 :=
  State.fld_setFld_same ({ s with drains := tset (fun _ => 0) s.drains k (s.island + Config.drainNs s.free) } : State) _ _ (by omega)

theorem heldEntry_others : SameRegsBut [gateCtrlAddr k] s (heldEntry s k) :=
  State.setFld_sameRegsBut ({ s with drains := tset (fun _ => 0) s.drains k (s.island + Config.drainNs s.free) } : State) _ _ _ _

theorem heldEntry_drains : tget (fun _ => 0) (heldEntry s k).drains k = s.island + Config.drainNs s.free := tget_tset_same _ _ _ _

theorem holdEntry_holds (h : inHold s k = false) :
    let c := gateCtrlAddr k
    let t := holdEntry s k
    inHold t k = true ∧ t.fld c 4 5 = s.fld c 4 1 + 2 ∧ t.fld c 16 16 = (s.fld c 16 16 + 1) % 2 ^ 16 ∧ s.island ≤ tget (fun _ => 0) t.drains k
      ∧ SameRegsBut [c] s t ∧ { t with regs := s.regs, drains := s.drains, free := s.free } = s := by
  intro c t
  have ht : t = gateDecided (heldEntry s k) k 0 := holdEntry_new h
  rw [ht]
  refine ⟨?_, ?_, ?_, ?_, heldEntry_others.trans gateDecided_others, rfl⟩
  · rw [inHold_eq_fld, gateDecided_low (by omega), heldEntry_state]; rfl
  · rw [gateDecided_onRecord (by omega), heldEntry_fld (by omega)]
  · rw [gateDecided_count, heldEntry_fld (by omega)]
  · exact (Nat.le_add_right _ _).trans (Nat.le_of_eq heldEntry_drains.symm)

end Hold

/-! ### Lock (R315) -/

section Lock

variable {s : State} {k : Nat}

theorem lockEntry_on (h : ctrlState (s.reg (gateCtrlAddr k)) = 1) :
    lockEntry s k = gateDecided (s.setBit (gateCtrlAddr k) 3 true) k 0 := if_pos h

theorem setLock_beside {c lo n : Nat} (h : lo + n ≤ 3 ∨ 4 ≤ lo) : (s.setBit c 3 true).fld c lo n = s.fld c lo n :=
  State.fld_setFld_beside s c _ (by omega) (by omega)

theorem setLock_others (c : Nat) : SameRegsBut [c] s (s.setBit c 3 true) := State.setFld_sameRegsBut s c 3 1 _

theorem setLock_back (c : Nat) (l : Tbl Word) : { s.setBit c 3 true with regs := l } = { s with regs := l } := rfl

theorem lockEntry_locks (h : ctrlState (s.reg (gateCtrlAddr k)) = 1) :
    let c := gateCtrlAddr k
    let t := lockEntry s k
    gateLocked t k = true ∧ t.fld c 0 3 = s.fld c 0 3 ∧ t.fld c 4 5 = s.fld c 4 1 + 2 ∧ t.fld c 16 16 = (s.fld c 16 16 + 1) % 2 ^ 16
      ∧ SameRegsBut [c] s t ∧ { t with regs := s.regs } = s := by
  intro c t
  have ht : t = gateDecided (s.setBit c 3 true) k 0 := lockEntry_on h
  rw [ht]
  refine ⟨?_, ?_, ?_, ?_, (setLock_others c).trans gateDecided_others, (gateDecided_back s.regs).trans (setLock_back c s.regs)⟩
  · rw [gateLocked, State.bit_eq_fld, gateDecided_low (by omega), ← State.bit_eq_fld, State.bit_setBit_same s c true (by omega)]
    exact Bool.or_true _
  · rw [gateDecided_low (by omega), setLock_beside (by omega)]
  · rw [gateDecided_onRecord (by omega), setLock_beside (by omega)]
  · rw [gateDecided_count, setLock_beside (by omega)]

end Lock

/-! ### Apply (R308, R310, Table 11.4) -/

section Result

variable {s : State} {k : Nat} {resv : Bool}

theorem applyResult_notHeld (h : inHold s k = false) : applyResult s k resv = 1 := if_pos (by simp [h])

theorem applyResult_draining (h : inHold s k = true) (hq : gateQuiet s k = false) : applyResult s k resv = 2 := by
  rw [applyResult, if_neg (by simp [h]), if_pos (by simp [hq])]

theorem applyResult_slot (n : Fin 70) (h : inHold s (gateKey (.slot n)) = true) (hq : gateQuiet s (gateKey (.slot n)) = true) :
    applyResult s (gateKey (.slot n)) resv = if resv then 3 else if ceilingBad n.val (s.reg (GATE_PS_ATTR n.val)) then 4 else 0 := by
  have hk := gateKey_slot n
  simp only [applyResult, h, hq, hk, Nat.not_le.mpr hk, decide_true, decide_false, Bool.false_and, Bool.true_and, Bool.or_false, Bool.not_true,
    Bool.false_eq_true, if_false]
  rfl

theorem applyResult_region (m : Fin 8) (j : Fin 32) (h : inHold s (gateKey (.region m j)) = true)
    (hq : gateQuiet s (gateKey (.region m j)) = true) :
    applyResult s (gateKey (.region m j)) resv = if resv || shapeBad m.val (s.reg (MG_BASE m.val j.val)) then 3 else 0 := by
  have hk := gateKey_region m j
  simp only [applyResult, h, hq, hk, Nat.not_lt.mpr hk, decide_true, decide_false, Bool.false_and, Bool.true_and, Bool.not_true,
    Bool.false_eq_true, if_false, regionOfKey m j]

theorem entryApply_refused {opened : State → State} (h : applyResult s k resv ≠ 0) :
    entryApply opened s k resv = gateDecided s k (applyResult s k resv) := by
  unfold entryApply
  split
  · exact absurd ‹_› h
  · rfl

/-- The state of an entry that left HOLD by a good apply, decided. -/
def appliedEntry (s : State) (k : Nat) : State :=
  gateDecided { (activate s k).setFld (gateCtrlAddr k) 0 2 ((activate s k).fld (gateCtrlAddr k) 4 1) with
    drains := tset (fun _ => 0) s.drains k 0 } k 0

theorem activate_drains (s : State) (k : Nat) : (activate s k).drains = s.drains := by
  unfold activate; split <;> rfl

theorem entryApply_applied {opened : State → State} (h : applyResult s k resv = 0) :
    entryApply opened s k resv = opened (appliedEntry s k) := by
  unfold entryApply appliedEntry
  rw [h, ← activate_drains s k]
  rfl

theorem activate_back (s : State) (k : Nat) : { activate s k with regs := s.regs } = s := by
  unfold activate; split <;> rfl

/-- What an apply does to the control word, where the staged values are taken up elsewhere. -/
theorem appliedEntry_decides (hctrl : (activate s k).reg (gateCtrlAddr k) = s.reg (gateCtrlAddr k)) :
    let c := gateCtrlAddr k
    let t := appliedEntry s k
    t.fld c 0 2 = s.fld c 4 1 ∧ t.fld c 5 4 = 1 ∧ t.fld c 16 16 = (s.fld c 16 16 + 1) % 2 ^ 16 := by
  intro c t
  have hon : (activate s k).fld c 4 1 = s.fld c 4 1 := State.fld_congr hctrl 4 1
  have hgen : (activate s k).fld c 16 16 = s.fld c 16 16 := State.fld_congr hctrl 16 16
  refine ⟨?_, gateDecided_result (by omega), ?_⟩
  · refine (gateDecided_low (by omega)).trans ((State.fld_setFld_same (activate s k) c _ (by omega)).trans ?_)
    rw [hon]
    exact Nat.mod_eq_of_lt (Nat.lt_of_lt_of_le (Nat.mod_lt _ (by omega)) (by omega))
  · refine gateDecided_count.trans (congrArg (fun x => (x + 1) % 2 ^ 16) (Eq.trans ?_ hgen))
    exact State.fld_setFld_beside (activate s k) c _ (by omega) (by omega)

theorem appliedEntry_others : SameRegsBut [gateCtrlAddr k] (activate s k) (appliedEntry s k) :=
  .trans (State.setFld_sameRegsBut (activate s k) _ _ _ _) gateDecided_others

theorem appliedEntry_back : { appliedEntry s k with regs := s.regs, drains := s.drains } = s :=
  congrArg (fun t : State => { t with drains := s.drains }) (activate_back s k)

end Result

section Slot

variable (s : State) (n : Fin 70)

theorem activate_slot : activate s (gateKey (.slot n)) = s.setReg (GATE_PS_ATTR_ACT n.val) (s.reg (GATE_PS_ATTR n.val)) := if_pos (gateKey_slot n)

theorem slot_ctrl_ne : GATE_PS_CTRL n.val ≠ GATE_PS_ATTR_ACT n.val := by
  unfold GATE_PS_CTRL GATE_PS_ATTR_ACT; omega

end Slot

section Region

variable (s : State) (m : Fin 8) (j : Fin 32)

theorem activate_region : activate s (gateKey (.region m j)) =
    ((s.setReg (MG_BASE_ACT m.val j.val) (s.reg (MG_BASE m.val j.val))).setReg (MG_ATTR_ACT m.val j.val) (s.reg (MG_ATTR m.val j.val))).setReg
      (MG_PART_ACT m.val j.val) (s.reg (MG_PART m.val j.val)) := by
  unfold activate
  rw [if_neg (Nat.not_lt.mpr (gateKey_region m j)), (regionOfKey m j).1, (regionOfKey m j).2]

/-- The registers of one region are apart. -/
theorem region_regs_ne : MG_CTRL m.val j.val ≠ MG_BASE_ACT m.val j.val ∧ MG_CTRL m.val j.val ≠ MG_ATTR_ACT m.val j.val
    ∧ MG_CTRL m.val j.val ≠ MG_PART_ACT m.val j.val ∧ MG_BASE_ACT m.val j.val ≠ MG_ATTR_ACT m.val j.val
    ∧ MG_BASE_ACT m.val j.val ≠ MG_PART_ACT m.val j.val ∧ MG_ATTR_ACT m.val j.val ≠ MG_PART_ACT m.val j.val := by
  have hj := j.isLt
  unfold MG_CTRL MG_BASE_ACT MG_ATTR_ACT MG_PART_ACT
  omega

theorem region_stage_ne : MG_CTRL m.val j.val ≠ MG_BASE m.val j.val ∧ MG_CTRL m.val j.val ≠ MG_ATTR m.val j.val
    ∧ MG_CTRL m.val j.val ≠ MG_PART m.val j.val := by
  have hj := j.isLt
  unfold MG_CTRL MG_BASE MG_ATTR MG_PART
  omega

end Region

/-- What a slot's good apply brings. -/
theorem appliedEntry_slot (s : State) (n : Fin 70) :
    let t := appliedEntry s (gateKey (.slot n))
    t.reg (GATE_PS_ATTR_ACT n.val) = s.reg (GATE_PS_ATTR n.val)
      ∧ SameRegsBut [gateCtrlAddr (gateKey (.slot n)), GATE_PS_ATTR_ACT n.val] s t := by
  intro t
  have hact : SameRegsBut [GATE_PS_ATTR_ACT n.val] s (activate s (gateKey (.slot n))) := by
    rw [activate_slot]; exact sameRegsBut_setReg s _ (by simp)
  refine ⟨(appliedEntry_others (s := s) _ ?_).trans ?_, hact.trans_sub appliedEntry_others (by simp) (by simp)⟩
  · rw [gateCtrlAddr_slot, List.mem_singleton]
    exact (slot_ctrl_ne n).symm
  · rw [activate_slot, State.reg_setReg_same]

/-- What a region's good apply brings. -/
theorem appliedEntry_region (s : State) (m : Fin 8) (j : Fin 32) :
    let t := appliedEntry s (gateKey (.region m j))
    t.reg (MG_BASE_ACT m.val j.val) = s.reg (MG_BASE m.val j.val) ∧ t.reg (MG_ATTR_ACT m.val j.val) = s.reg (MG_ATTR m.val j.val)
      ∧ t.reg (MG_PART_ACT m.val j.val) = s.reg (MG_PART m.val j.val)
      ∧ SameRegsBut [gateCtrlAddr (gateKey (.region m j)), MG_BASE_ACT m.val j.val, MG_ATTR_ACT m.val j.val, MG_PART_ACT m.val j.val] s t := by
  intro t
  obtain ⟨hcb, hca, hcp, hba, hbp, hap⟩ := region_regs_ne m j
  have hctrl := gateCtrlAddr_region m j
  have hkept {a : Nat} (ha : MG_CTRL m.val j.val ≠ a) : t.reg a = (activate s (gateKey (.region m j))).reg a :=
    appliedEntry_others a (by rw [hctrl, List.mem_singleton]; exact ha.symm)
  have hact : SameRegsBut [MG_BASE_ACT m.val j.val, MG_ATTR_ACT m.val j.val, MG_PART_ACT m.val j.val] s (activate s (gateKey (.region m j))) := by
    rw [activate_region]
    exact ((sameRegsBut_setReg s _ (by simp)).trans (sameRegsBut_setReg _ _ (by simp))).trans (sameRegsBut_setReg _ _ (by simp))
  refine ⟨(hkept hcb).trans ?_, (hkept hca).trans ?_, (hkept hcp).trans ?_, hact.trans_sub appliedEntry_others (by simp) (by simp)⟩
  · rw [activate_region, State.reg_setReg_ne _ _ hbp, State.reg_setReg_ne _ _ hba, State.reg_setReg_same]
  · rw [activate_region, State.reg_setReg_ne _ _ hap, State.reg_setReg_same]
  · rw [activate_region, State.reg_setReg_same]

theorem activate_keepsCtrl (s : State) (e : GateEntry) :
    (activate s (gateKey e)).reg (gateCtrlAddr (gateKey e)) = s.reg (gateCtrlAddr (gateKey e)) := by
  cases e with
  | slot n => rw [activate_slot, gateCtrlAddr_slot, State.reg_setReg_ne _ _ (slot_ctrl_ne n)]
  | region m j =>
    obtain ⟨hcb, hca, hcp, -⟩ := region_regs_ne m j
    rw [activate_region, gateCtrlAddr_region, State.reg_setReg_ne _ _ hcp, State.reg_setReg_ne _ _ hca, State.reg_setReg_ne _ _ hcb]

/-! ### What an entry that leaves HOLD lets go (R309) -/

theorem releaseHeld_none {s : State} (h : s.heldAcc = []) : releaseHeld s = s := by
  unfold releaseHeld
  rw [h]
  exact congrArg (fun l => { s with heldAcc := l }) h.symm

theorem fireSignals_none {s : State} (h : ∀ j ∈ s.jobs, j.opcode ≠ 0x0A01) : fireSignals s = s := by
  have hnone : (s.jobs.filter fun j => j.opcode.toNat == 0x0A01) = [] :=
    List.filter_eq_nil_iff.mpr fun j hj => by
      simpa [← BitVec.toNat_inj] using h j hj
  unfold fireSignals
  rw [hnone]
  rfl

theorem holdOpened_quiet {s : State} (hheld : s.heldAcc = []) (hjobs : ∀ j ∈ s.jobs, j.opcode ≠ 0x0A01) : holdOpened s = nextTransfers s := by
  unfold holdOpened
  rw [releaseHeld_none hheld, fireSignals_none hjobs]

/-! ### A write of CTRL (R308, R315, R518) -/

/-- A request of a CTRL write on the state that the one before it left. -/
def gateAsks (v : Word) (k i : Nat) (f : State → State) (s : State) : State :=
  if bitOf v.toNat i = false then s else if gateLocked s k = true then gateDecided s k 5 else f s

theorem gateRequest_eq_asks (s : State) (k i : Nat) (v : Word) (f : State → State) :
    gateRequest s k (bitOf v.toNat i) f = gateAsks v k i f s := by
  unfold gateRequest gateAsks
  cases bitOf v.toNat i <;> rfl

theorem noRequest_iff (v : Word) : (!(bitOf v.toNat 9 || bitOf v.toNat 10 || bitOf v.toNat 11)) = true ↔ bitsOf v.toNat 9 3 = 0 := by
  unfold bitOf bitsOf
  simp
  omega

theorem ctrlWrite_asks (k : Nat) (v : Word) (s : State) : ctrlWrite k v s =
    if gateLocked s k = true ∧ bitsOf v.toNat 9 3 = 0 then gateDecided s k 5
    else gateAsks v k 11 (lockEntry · k) (gateAsks v k 10 (entryApply holdOpened · k (bitsOf v.toNat 12 4 != 0)) (gateAsks v k 9 (holdEntry · k)
      (if gateLocked s k = true then s else s.setBit (gateCtrlAddr k) 4 (bitOf v.toNat 4)))) := by
  unfold ctrlWrite entryCtrl
  simp only [gateRequest_eq_asks]
  refine if_congr ?_ rfl rfl
  rw [Bool.and_eq_true, noRequest_iff]

theorem exec_ctrlWrite {a : Access} {e : GateEntry} {v : Word} {s : State} (h : Reaches s a .w (gateCtrlAddr (gateKey e))) :
    exec (.gateHold a e v) s = .next (ctrlWrite (gateKey e) v s) ∧ exec (.gateApply a e v) s = .next (ctrlWrite (gateKey e) v s)
      ∧ exec (.gateLock a e v) s = .next (ctrlWrite (gateKey e) v s) :=
  ⟨congrArg Host.Outcome.next (regAccess_go h), congrArg Host.Outcome.next (regAccess_go h), congrArg Host.Outcome.next (regAccess_go h)⟩

/-! ### Staging writes (R307, R310, R315) -/

/-- Which staging register of an entry an address is. -/
theorem stageAddr_cases {e : GateEntry} {i : Fin 3} {addr : Nat} (h : stageAddr e i.val = some addr) :
    (∃ n, e = .slot n ∧ i.val = 0 ∧ addr = GATE_PS_ATTR n.val) ∨
    (∃ m j, e = .region m j ∧ (i.val = 0 ∧ addr = MG_BASE m.val j.val ∨ i.val = 1 ∧ addr = MG_ATTR m.val j.val ∨ i.val = 2 ∧ addr = MG_PART m.val j.val)) := by
  cases e with
  | slot n =>
    have h : (if i.val = 0 then some (GATE_PS_ATTR n.val) else none) = some addr := h
    by_cases hi : i.val = 0
    · rw [if_pos hi] at h
      exact .inl ⟨n, rfl, hi, (Option.some.inj h).symm⟩
    · rw [if_neg hi] at h
      cases h
  | region m j =>
    refine .inr ⟨m, j, rfl, ?_⟩
    obtain rfl | rfl | rfl : i = 0 ∨ i = 1 ∨ i = 2 := by omega
    · exact .inl ⟨rfl, (Option.some.inj h).symm⟩
    · exact .inr (.inl ⟨rfl, (Option.some.inj h).symm⟩)
    · exact .inr (.inr ⟨rfl, (Option.some.inj h).symm⟩)

section Stage

variable {e : GateEntry} {i : Fin 3} {addr : Nat} (h : stageAddr e i.val = some addr)
include h

theorem stageAddr_ne_ctrl : gateCtrlAddr (gateKey e) ≠ addr := by
  obtain ⟨n, rfl, -, rfl⟩ | ⟨m, j, rfl, hreg⟩ := stageAddr_cases h
  · rw [gateCtrlAddr_slot]
    unfold GATE_PS_CTRL GATE_PS_ATTR
    omega
  · obtain ⟨hb, ha, hp⟩ := region_stage_ne m j
    rw [gateCtrlAddr_region]
    obtain ⟨-, rfl⟩ | ⟨-, rfl⟩ | ⟨-, rfl⟩ := hreg
    · exact hb
    · exact ha
    · exact hp

/-- The base is the staging register whose address ends in 0. -/
theorem stageAddr_base (hk : 70 ≤ gateKey e) : addr % 0x10 = 0 ↔ i.val = 0 := by
  obtain ⟨n, rfl, -, -⟩ | ⟨m, j, rfl, hreg⟩ := stageAddr_cases h
  · exact absurd hk (Nat.not_le.mpr (gateKey_slot n))
  · unfold MG_BASE MG_ATTR MG_PART at hreg
    omega

end Stage

theorem plainWrite_others (s : State) (addr : Nat) (v : Word) : SameRegsBut [addr] s (plainWrite s addr v) := by
  obtain ⟨-, hw⟩ | ⟨r, -, hw⟩ := plainWrite_cases s addr v
  · rw [hw]; exact fun _ _ => rfl
  · rw [hw]; exact sameRegsBut_setReg s _ (by simp)

theorem plainWrite_back (s : State) (addr : Nat) (v : Word) : { plainWrite s addr v with regs := s.regs } = s := by
  obtain ⟨-, hw⟩ | ⟨r, -, hw⟩ := plainWrite_cases s addr v <;> rw [hw]
  rfl

section Stage

variable {s : State} {k addr : Nat} {v : Word}

/-- A staging write that moves a region's base in HOLD, of an entry that is not locked. -/
abbrev movesBase (s : State) (k addr : Nat) (v : Word) : Prop :=
  70 ≤ k ∧ addr % 0x10 = 0 ∧ inHold s k = true ∧ (plainWrite s addr v).reg addr ≠ s.reg addr

theorem gateStage_locked (h : gateLocked s k = true) : gateStage k addr v s = gateDecided s k 5 := if_pos h

/-- What must drain after a new base in HOLD. -/
def newDrain (s : State) (k : Nat) : Nat := Nat.max (tget (fun _ => 0) s.drains k) (s.island + Config.drainNs s.free)

theorem gateStage_open (h : gateLocked s k = false) (hctrl : gateCtrlAddr k ≠ addr) :
    gateStage k addr v s = if movesBase s k addr v then
      { plainWrite s addr v with drains := tset (fun _ => 0) s.drains k (newDrain s k), free := s.free + 1 } else plainWrite s addr v := by
  have hback := plainWrite_back s addr v
  have hdrains : (plainWrite s addr v).drains = s.drains := (congrArg State.drains hback :)
  have hisland : (plainWrite s addr v).island = s.island := (congrArg State.island hback :)
  have hfree : (plainWrite s addr v).free = s.free := (congrArg State.free hback :)
  have hhold : inHold (plainWrite s addr v) k = inHold s k :=
    congrArg (fun w => ctrlState w == 2) (plainWrite_others s addr v _ (by simpa using hctrl))
  rw [gateStage, if_neg (ne_true_of_eq_false h)]
  refine if_congr ?_ ?_ rfl
  · simp [movesBase, hhold, and_assoc]
  · simp only [hdrains, hisland, hfree, State.draw, newDrain]

end Stage

theorem doGateStagingWrite_of {a : Access} {e : GateEntry} {i : Fin 3} {v : Word} {s : State} {addr : Nat} (h : stageAddr e i.val = some addr)
    (hr : Reaches s a .w addr) : exec (.gateStagingWrite a e i v) s = .next (gateStage (gateKey e) addr v s) := by
  refine congrArg Host.Outcome.next (Eq.trans ?_ (regAccess_go (v := v) hr))
  unfold doGateStagingWrite
  rw [h]

/-- A staging write of an open entry: its register, and what must drain where a region's base moves in HOLD. -/
theorem gateStage_writes {e : GateEntry} {i : Fin 3} {v : Word} {s : State} {addr : Nat} (h : stageAddr e i.val = some addr)
    (hopen : gateLocked s (gateKey e) = false) :
    let t := gateStage (gateKey e) addr v s
    t.reg addr = (plainWrite s addr v).reg addr ∧ SameRegsBut [addr] s t ∧ { t with regs := s.regs, drains := s.drains, free := s.free } = s
      ∧ ((inHold s (gateKey e) = false ∨ i.val ≠ 0 ∨ gateKey e < 70 ∨ t.reg addr = s.reg addr) → t.drains = s.drains ∧ t.free = s.free)
      ∧ ((inHold s (gateKey e) = true ∧ i.val = 0 ∧ 70 ≤ gateKey e ∧ t.reg addr ≠ s.reg addr) → s.island ≤ tget (fun _ => 0) t.drains (gateKey e)
        ∧ tget (fun _ => 0) s.drains (gateKey e) ≤ tget (fun _ => 0) t.drains (gateKey e)) := by
  intro t
  have hback := plainWrite_back s addr v
  have ht : t = _ := gateStage_open (v := v) hopen (stageAddr_ne_ctrl h)
  by_cases hmoves : movesBase s (gateKey e) addr v
  · obtain ⟨hk, hbase, hhold, hnew⟩ := id hmoves
    rw [if_pos hmoves] at ht
    rw [ht]
    refine ⟨rfl, plainWrite_others s addr v, congrArg (fun u : State => { u with drains := s.drains, free := s.free }) hback, fun hno => ?_, fun _ => ?_⟩
    · rw [(stageAddr_base h hk)] at hbase
      rcases hno with hno | hno | hno | hno
      · exact absurd (hhold.symm.trans hno) (by decide)
      · exact absurd hbase hno
      · omega
      · exact absurd hno hnew
    · refine ⟨?_, ?_⟩ <;> rw [tget_tset_same, newDrain]
      · exact (Nat.le_add_right _ _).trans (Nat.le_max_right _ _)
      · exact Nat.le_max_left _ _
  · rw [if_neg hmoves] at ht
    rw [ht]
    refine ⟨rfl, plainWrite_others s addr v, congrArg (fun u : State => { u with drains := s.drains, free := s.free }) hback,
      fun _ => ⟨(congrArg State.drains hback :), (congrArg State.free hback :)⟩, fun ⟨hhold, hbase, hk, hnew⟩ => ?_⟩
    exact absurd ⟨hk, (stageAddr_base h hk).mpr hbase, hhold, hnew⟩ hmoves

/-! ### The obligation -/

/-- What Table 11.4 makes of an apply request, and what a good one brings. -/
theorem entryApply_decides (e : GateEntry) (s : State) (resv : Bool) :
    let k := gateKey e
    let c := gateCtrlAddr k
    let r := applyResult s k resv
    (r ≠ 0 → entryApply holdOpened s k resv = gateDecided s k r)
    ∧ (r = 0 → ∃ t, entryApply holdOpened s k resv = holdOpened t ∧ t.fld c 0 2 = s.fld c 4 1 ∧ t.fld c 5 4 = 1
      ∧ t.fld c 16 16 = (s.fld c 16 16 + 1) % 2 ^ 16
      ∧ (match e with
        | .slot n => t.reg (GATE_PS_ATTR_ACT n.val) = s.reg (GATE_PS_ATTR n.val) ∧ SameRegsBut [c, GATE_PS_ATTR_ACT n.val] s t
        | .region m j => t.reg (MG_BASE_ACT m.val j.val) = s.reg (MG_BASE m.val j.val) ∧ t.reg (MG_ATTR_ACT m.val j.val) = s.reg (MG_ATTR m.val j.val)
            ∧ t.reg (MG_PART_ACT m.val j.val) = s.reg (MG_PART m.val j.val)
            ∧ SameRegsBut [c, MG_BASE_ACT m.val j.val, MG_ATTR_ACT m.val j.val, MG_PART_ACT m.val j.val] s t)
      ∧ { t with regs := s.regs, drains := s.drains } = s) := by
  intro k c r
  refine ⟨fun hr => entryApply_refused hr, fun hr => ⟨appliedEntry s k, entryApply_applied hr, ?_⟩⟩
  obtain ⟨hstate, hresult, hcount⟩ := appliedEntry_decides (activate_keepsCtrl s e)
  refine ⟨hstate, hresult, hcount, ?_, appliedEntry_back⟩
  cases e with
  | slot n => exact appliedEntry_slot s n
  | region m j => exact appliedEntry_region s m j

/-- Settles O37: each request by the state its entry is in, and a staging write by whether its entry is locked. -/
theorem gates : Obligations.Gates := by
  unfold Obligations.Gates
  refine ⟨fun a e v s h => ?_, fun e s => ⟨fun r hr => ?_, holdEntry_again, holdEntry_holds, fun resv => ?_, holdOpened_quiet, lockEntry_locks,
    fun hoff => if_neg hoff⟩, fun a e i v s => ⟨fun hnone => ?_, fun addr haddr hr => ⟨fun hlock => ?_, fun hopen => ?_⟩⟩⟩
  case refine_1 =>
    rw [(exec_ctrlWrite h).1, (exec_ctrlWrite h).2.1, (exec_ctrlWrite h).2.2, ctrlWrite_asks]
    exact ⟨rfl, rfl, rfl⟩
  case refine_2 => exact ⟨gateDecided_result hr, gateDecided_count, gateDecided_low (by omega), gateDecided_others, gateDecided_back s.regs⟩
  case refine_3 =>
    obtain ⟨hrefused, happlied⟩ := entryApply_decides e s resv
    refine ⟨applyResult_notHeld, applyResult_draining, fun h hq => ?_, hrefused, happlied⟩
    cases e with
    | slot n => exact applyResult_slot n h hq
    | region m j => exact applyResult_region m j h hq
  case refine_4 =>
    refine congrArg Host.Outcome.next ?_
    unfold doGateStagingWrite
    rw [hnone]
  case refine_5 => rw [doGateStagingWrite_of haddr hr, gateStage_locked hlock]
  case refine_6 => exact ⟨_, doGateStagingWrite_of haddr hr, gateStage_writes haddr hopen⟩

end Sys2Proof.Machine

/-!
PROOFS of the desk family: what an arbitration of the event concentrator changes (R325, R331–R338).
-/

namespace Sys2Proof.Machine

/-! ### What depends on a core's stack and sleep alone -/

/-- Two cores between which an arbitration cannot tell: the same stack, asleep and halted alike. -/
def SameTake (d e : Desk) : Prop := e.stack = d.stack ∧ e.asleep = d.asleep ∧ e.halted = d.halted

theorem SameTake.refl (d : Desk) : SameTake d d := ⟨rfl, rfl, rfl⟩

section Offers

variable {s t : State}

/-- The same offers: the same sources and registers, and cores that take alike. -/
structure SameOffers (s t : State) : Prop where
  srcs  : t.srcs = s.srcs
  regs  : ∀ a, (0x251000 ≤ a ∨ ∃ k, a = EVC_CORE_THRESH k) → t.reg a = s.reg a
  desks : ∀ k, SameTake (s.desk k) (t.desk k)

theorem SameOffers.cfg (h : SameOffers s t) (i : Nat) : t.reg (EVC_SRC_CFG i) = s.reg (EVC_SRC_CFG i) :=
  h.regs _ (.inl (by unfold EVC_SRC_CFG; omega))

theorem SameOffers.srcPrio (h : SameOffers s t) (i : Nat) : srcPrio t i = srcPrio s i := State.fld_congr (h.cfg i) 0 5

theorem SameOffers.src (h : SameOffers s t) (i : Nat) : t.src i = s.src i := congrArg (tget _ · i) h.srcs

theorem SameOffers.coreReset (h : SameOffers s t) (k : Nat) : coreReset t k = coreReset s k :=
  congrArg (!·) (State.bit_congr (h.regs DSK_CTRL (.inl (by decide))) k)

theorem SameOffers.coreRunning (h : SameOffers s t) (k : Nat) : coreRunning t k = coreRunning s k := by
  unfold Sys2Proof.Machine.coreRunning
  rw [(h.desks k).1]

theorem SameOffers.canTake (h : SameOffers s t) (k p : Nat) : canTake t k p = canTake s k p := by
  have hthresh : t.fld (EVC_CORE_THRESH k) 0 5 = s.fld (EVC_CORE_THRESH k) 0 5 :=
    State.fld_congr (h.regs _ (.inr ⟨k, rfl⟩)) 0 5
  unfold Sys2Proof.Machine.canTake
  rw [h.coreReset, h.coreRunning, hthresh, (h.desks k).1]

theorem SameOffers.lpTarget (h : SameOffers s t) (i : Nat) : lpTarget t i = lpTarget s i := by
  have hmask : srcMask t i = srcMask s i := State.fld_congr (h.cfg i) 8 4
  have hasleep : ∀ k, (t.desk k).asleep = (s.desk k).asleep := fun k => (h.desks k).2.1
  have hhalted : ∀ k, (t.desk k).halted = (s.desk k).halted := fun k => (h.desks k).2.2
  unfold Sys2Proof.Machine.lpTarget
  simp only [hmask, h.coreReset, h.coreRunning, h.canTake, h.srcPrio, hasleep, hhalted]

theorem SameOffers.offered (h : SameOffers s t) (k i : Nat) : offered t k i = offered s k i := by
  have hmask : srcMask t i = srcMask s i := State.fld_congr (h.cfg i) 8 4
  have hlowest : srcLowest t i = srcLowest s i := State.bit_congr (h.cfg i) 6
  unfold Sys2Proof.Machine.offered
  simp only [h.src, h.srcPrio, h.lpTarget, h.canTake, hmask, hlowest]

theorem SameOffers.offeredTo (h : SameOffers s t) (k : Nat) : offeredTo t k = offeredTo s k := by
  unfold Sys2Proof.Machine.offeredTo
  rw [h.srcs, show Sys2Proof.Machine.offered t k = Sys2Proof.Machine.offered s k from funext (h.offered k)]

theorem SameOffers.claimOf (h : SameOffers s t) (k : Nat) : claimOf t k = claimOf s k := by
  unfold Sys2Proof.Machine.claimOf
  rw [h.offeredTo]
  simp only [h.srcPrio]

end Offers

/-! ### An arbitration core by core (R334, R335, R338) -/

/-- mip of core `k` with a given line (R324, R331). -/
def mipWith (s : State) (k : Nat) (line : Bool) : Nat :=
  Bool.nat (s.bit (DSK_CORE_MSIP k) 0) * 2 ^ 3 + Bool.nat (timerDue s k) * 2 ^ 7
    + (if s.bit (DSK_CORE_CFG k) 1 then Bool.nat line * 2 ^ 9 else Bool.nat line * 2 ^ 11)

theorem mip_eq (s : State) (k : Nat) : mip s k = mipWith s k (s.desk k).line := rfl

/-- Whether something is offered to core `k`. -/
def hasOffer (s : State) (k : Nat) : Bool := !(offeredTo s k).isEmpty

/-- Core `k` with its line, its record of signalling and its wake latch. -/
def signalledDesk (s : State) (k : Nat) : Desk :=
  { s.desk k with line := hasOffer s k, signalled := (s.desk k).signalled || hasOffer s k, wake := (s.desk k).wake || (hasOffer s k && (s.desk k).asleep) }

/-- Whether core `k`, with the line that it gets, leaves its WFI. -/
def leavesWfi (s : State) (k : Nat) : Bool :=
  (s.desk k).wfi && !(s.desk k).asleep && decide (mipWith s k (hasOffer s k) &&& (s.desk k).mie ≠ 0)

/-- Core `k` after an arbitration. -/
def arbitratedDesk (s : State) (k : Nat) : Desk :=
  if leavesWfi s k then { signalledDesk s k with wfi := false, wake := false } else signalledDesk s k

/-- What an arbitration leaves of a core: all but its line, its record of signalling, its wake latch and its WFI. -/
def SameCore (d e : Desk) : Prop := e = { d with line := e.line, signalled := e.signalled, wake := e.wake, wfi := e.wfi }

theorem SameCore.refl (d : Desk) : SameCore d d := rfl

theorem SameCore.trans {d e f : Desk} (h : SameCore d e) (k : SameCore e f) : SameCore d f := by
  unfold SameCore at h k ⊢
  rw [k, h]

theorem SameCore.sameTake {d e : Desk} (h : SameCore d e) : SameTake d e :=
  ⟨(congrArg Desk.stack h :), (congrArg Desk.asleep h :), (congrArg Desk.halted h :)⟩

theorem sameCore_arbitratedDesk (s : State) (k : Nat) : SameCore (s.desk k) (arbitratedDesk s k) := by
  unfold arbitratedDesk
  split <;> rfl

theorem arbitratedDesk_line (s : State) (k : Nat) : (arbitratedDesk s k).line = hasOffer s k := by
  unfold arbitratedDesk
  split <;> rfl

theorem arbitratedDesk_signalled (s : State) (k : Nat) : (arbitratedDesk s k).signalled = ((s.desk k).signalled || hasOffer s k) := by
  unfold arbitratedDesk
  split <;> rfl

/-- One core's part of an arbitration. -/
def arbitrateCore (s : State) (k : Nat) : State := wfiResume (s.setDesk k (signalledDesk s k)) k

theorem arbitrate_eq (s : State) : arbitrate s = s.each 4 arbitrateCore := rfl

theorem arbitrateCore_step (s : State) (k : Nat) : arbitrateCore s k =
    if leavesWfi s k then (s.setDesk k (signalledDesk s k)).setDesk k { signalledDesk s k with wfi := false, wake := false }
    else s.setDesk k (signalledDesk s k) := by
  have hdesk : (s.setDesk k (signalledDesk s k)).desk k = signalledDesk s k := State.desk_setDesk s k _
  have hmip : mip (s.setDesk k (signalledDesk s k)) k = mipWith s k (hasOffer s k) := by
    rw [mip_eq, hdesk]; rfl
  unfold arbitrateCore wfiResume wfiOver
  rw [hdesk, hmip]
  rfl

theorem arbitrateCore_eq (s : State) (k : Nat) : ∃ ds, arbitrateCore s k = { s with desks := ds }
    ∧ (arbitrateCore s k).desk k = arbitratedDesk s k ∧ ∀ j, j ≠ k → (arbitrateCore s k).desk j = s.desk j := by
  rw [arbitrateCore_step]
  unfold arbitratedDesk
  by_cases h : leavesWfi s k = true
  · rw [if_pos h, if_pos h]
    exact ⟨_, rfl, State.desk_setDesk _ _ _, fun j hj => (State.desk_setDesk_ne _ _ hj).trans (State.desk_setDesk_ne s _ hj)⟩
  · rw [if_neg h, if_neg h]
    exact ⟨_, rfl, State.desk_setDesk _ _ _, fun j hj => State.desk_setDesk_ne s _ hj⟩

/-- Where only cores differ and take alike, the offers, mip with a line and so the arbitration of a core with the same state are the same. -/
theorem sameOffers_of_desks {s t : State} (h : { t with desks := s.desks } = s) (hd : ∀ k, SameTake (s.desk k) (t.desk k)) : SameOffers s t := by
  have hregs : t.regs = s.regs := (congrArg State.regs h :)
  exact ⟨(congrArg State.srcs h :), fun a _ => congrArg (tget regReset · a) hregs, hd⟩

theorem mipWith_of_desks {s t : State} (h : { t with desks := s.desks } = s) (k : Nat) (line : Bool) : mipWith t k line = mipWith s k line :=
  (congrArg (fun u => mipWith u k line) h :)

theorem arbitratedDesk_of_desks {s t : State} {k : Nat} (h : { t with desks := s.desks } = s) (hd : ∀ j, SameTake (s.desk j) (t.desk j))
    (hk : t.desk k = s.desk k) : arbitratedDesk t k = arbitratedDesk s k := by
  have hoffer : hasOffer t k = hasOffer s k := congrArg (fun l => !List.isEmpty l) ((sameOffers_of_desks h hd).offeredTo k)
  unfold arbitratedDesk leavesWfi signalledDesk
  rw [hk, hoffer, mipWith_of_desks h]

theorem each_arbitrateCore (s : State) (n : Nat) : { s.each n arbitrateCore with desks := s.desks } = s
    ∧ ∀ j, (s.each n arbitrateCore).desk j = if j < n then arbitratedDesk s j else s.desk j := by
  induction n with
  | zero => exact ⟨rfl, fun j => rfl⟩
  | succ n ih =>
    have hsucc : s.each (n + 1) arbitrateCore = arbitrateCore (s.each n arbitrateCore) n := by
      simp [State.each, List.range_succ]
    rw [hsucc]
    generalize s.each n arbitrateCore = t at ih ⊢
    obtain ⟨hback, hdesks⟩ := ih
    have htake (j : Nat) : SameTake (s.desk j) (t.desk j) := by
      rw [hdesks j]
      split
      · exact (sameCore_arbitratedDesk s j).sameTake
      · exact .refl _
    have hn : t.desk n = s.desk n := (hdesks n).trans (if_neg (Nat.lt_irrefl n))
    obtain ⟨ds, heq, hnew, hold⟩ := arbitrateCore_eq t n
    refine ⟨by rw [heq]; exact hback, fun j => ?_⟩
    by_cases hj : j = n
    · subst hj
      rw [hnew, arbitratedDesk_of_desks hback htake hn, if_pos (Nat.lt_succ_self j)]
    · rw [hold j hj, hdesks j]
      exact if_congr (by omega) rfl rfl

theorem arbitrate_back (s : State) : { arbitrate s with desks := s.desks } = s := (each_arbitrateCore s 4).1

theorem arbitrate_desk (s : State) (k : Nat) : (arbitrate s).desk k = if k < 4 then arbitratedDesk s k else s.desk k := (each_arbitrateCore s 4).2 k

/-! ### What follows an arbitration (R325, R326) -/

/-- Nothing but the desk cores, the arbiter's standing still and the desk PLL differs. -/
structure CoresOnly (s t : State) : Prop where
  regs : SameRegsBut evcRegs s t
  back : { evcBack s t with regs := s.regs } = s

theorem CoresOnly.refl (s : State) : CoresOnly s s := ⟨fun _ _ => rfl, rfl⟩

theorem CoresOnly.trans {s t u : State} (h : CoresOnly s t) (k : CoresOnly t u) : CoresOnly s u := by
  refine ⟨h.regs.trans k.regs, ?_⟩
  calc { evcBack s u with regs := s.regs }
    _ = { evcBack s { evcBack t u with regs := t.regs } with regs := s.regs } := rfl
    _ = { evcBack s t with regs := s.regs } := by rw [k.back]
    _ = s := h.back

theorem CoresOnly.srcs {s t : State} (h : CoresOnly s t) : t.srcs = s.srcs := (congrArg State.srcs h.back :)

theorem CoresOnly.src {s t : State} (h : CoresOnly s t) (i : Nat) : t.src i = s.src i := congrArg (tget _ · i) h.srcs

theorem coresOnly_setDesk (s : State) (k : Nat) (d : Desk) : CoresOnly s (s.setDesk k d) :=
  ⟨fun _ _ => rfl, by dsimp only [evcBack, State.setDesk]⟩

theorem coresOnly_arbitrate (s : State) : CoresOnly s (arbitrate s) := by
  have hback := arbitrate_back s
  generalize arbitrate s = t at hback ⊢
  have hregs : t.regs = s.regs := (congrArg State.regs hback :)
  exact ⟨fun a _ => congrArg (tget regReset · a) hregs, (congrArg (fun u : State => { evcBack s u with regs := s.regs }) hback :)⟩

/-- The PLL of the desk cores, and whether the arbiter stands still, are all that follows. -/
theorem coresOnly_of_evcOnly {s t : State} (h : EvcOnly s t) (hsrcs : t.srcs = s.srcs) (hmerged : t.reg EVC_MERGED = s.reg EVC_MERGED) :
    CoresOnly s t := by
  refine ⟨fun a ha => ?_, ?_⟩
  · by_cases hm : a = EVC_MERGED
    · rw [hm, hmerged]
    · exact h.regs a (by simp [hm, ha])
  · have hback := congrArg (fun u : State => { u with srcs := t.srcs }) h.back
    exact (show { evcBack s t with regs := s.regs } = { s with srcs := t.srcs } from hback).trans (by rw [hsrcs])

theorem pllStart_keeps (s : State) : { pllStart s 3 with regs := s.regs, pwr := s.pwr } = s := by
  unfold pllStart
  split <;> rfl

theorem State.reg_inc_ne (s : State) {a b : Nat} (h : b ≠ a) : (s.inc a).reg b = s.reg b := State.reg_setReg_ne s _ h

theorem pllStart_merged (s : State) : (pllStart s 3).reg EVC_MERGED = s.reg EVC_MERGED := by
  have h1 : EVC_MERGED ≠ CLK_PLL_STATUS 3 := by decide
  have h2 : EVC_MERGED ≠ CLK_PLL_STAT 3 := by decide
  have hset : ((s.setReg (CLK_PLL_STATUS 3) 1).inc (CLK_PLL_STAT 3)).reg EVC_MERGED = s.reg EVC_MERGED :=
    (State.reg_inc_ne _ h2).trans (State.reg_setReg_ne s _ h1)
  generalize EVC_MERGED = a at hset ⊢
  unfold pllStart
  split
  · rfl
  · exact hset

theorem coresOnly_pllStart (s : State) : CoresOnly s (pllStart s 3) :=
  coresOnly_of_evcOnly (evcOnly_pllStart s) (congrArg State.srcs (pllStart_keeps s) :) (pllStart_merged s)

theorem coresOnly_pllUsed (s : State) : CoresOnly s (s.pllUsed 3) := coresOnly_of_evcOnly (evcOnly_pllUsed s 3) rfl rfl

/-- What settles after an arbitration that left the state `t`. -/
def settled (stop : Bool) (t : State) : State :=
  if stop then
    let u := (pllStart t 3).pllUsed 3
    if evcGated t then u else { u with evcStop := false, pwr := { u.pwr with evcUp := u.island + 4000 } }
  else if evcGated t then { t.pllUsed 3 with evcStop := true }
  else t

theorem evcSettle_runs {s : State} (h : evcRuns s = true) : evcSettle s = settled s.evcStop (arbitrate s) := by
  unfold evcSettle settled
  rw [if_neg (by simp [h])]

theorem evcSettle_still {s : State} (h : evcRuns s = false) : evcSettle s = s := if_pos (by simp [h])

theorem coresOnly_settled (stop : Bool) (t : State) : CoresOnly t (settled stop t) := by
  have hp := (coresOnly_pllStart t).trans (coresOnly_pllUsed _)
  unfold settled
  split
  · dsimp only
    split
    · exact hp
    · exact hp.trans (coresOnly_of_evcOnly (evcOnly_restarted _ _) rfl rfl)
  · split
    · exact (coresOnly_pllUsed t).trans (coresOnly_of_evcOnly (evcOnly_stopped _) rfl rfl)
    · exact .refl t

theorem settled_desks (stop : Bool) (t : State) : (settled stop t).desks = t.desks := by
  have hp : (pllStart t 3).desks = t.desks := (congrArg State.desks (pllStart_keeps t) :)
  unfold settled
  split
  · dsimp only
    split <;> exact hp
  · split <;> rfl

theorem settled_evcStop (stop : Bool) (t : State) (h : t.evcStop = stop) : (settled stop t).evcStop = evcGated t := by
  have hp : (pllStart t 3).evcStop = t.evcStop := (congrArg State.evcStop (pllStart_keeps t) :)
  unfold settled
  subst h
  cases hstop : t.evcStop <;> cases hg : evcGated t
  · exact hstop
  · rfl
  · rfl
  · exact hp.trans hstop

theorem coresOnly_evcSettle (s : State) : CoresOnly s (evcSettle s) := by
  cases h : evcRuns s
  · rw [evcSettle_still h]; exact .refl s
  · rw [evcSettle_runs h]
    exact (coresOnly_arbitrate s).trans (coresOnly_settled _ _)

/-- With the arbiter going on, no register changes. -/
theorem evcSettle_regs {s : State} (h : s.evcStop = false) : (evcSettle s).regs = s.regs := by
  cases hr : evcRuns s
  · rw [evcSettle_still hr]
  · have harb : (arbitrate s).regs = s.regs := (congrArg State.regs (arbitrate_back s) :)
    rw [evcSettle_runs hr, h]
    generalize arbitrate s = t at harb ⊢
    unfold settled
    rw [if_neg (by decide)]
    split <;> exact harb

theorem evcSettle_desk {s : State} (h : evcRuns s = true) (k : Nat) :
    (evcSettle s).desk k = if k < 4 then arbitratedDesk s k else s.desk k := by
  rw [evcSettle_runs h, ← arbitrate_desk]
  exact congrArg (tget _ · k) (settled_desks _ _)

theorem evcSettle_evcStop {s : State} (h : evcRuns s = true) : (evcSettle s).evcStop = evcGated (arbitrate s) := by
  have hstop : (arbitrate s).evcStop = s.evcStop := (congrArg State.evcStop (arbitrate_back s) :)
  rw [evcSettle_runs h, settled_evcStop s.evcStop (arbitrate s) hstop]

theorem sameCore_evcSettle (s : State) (k : Nat) : SameCore (s.desk k) ((evcSettle s).desk k) := by
  cases h : evcRuns s
  · rw [evcSettle_still h]; exact .refl _
  · rw [evcSettle_desk h]
    split
    · exact sameCore_arbitratedDesk s k
    · exact .refl _

theorem evcSettle_src (s : State) (i : Nat) : (evcSettle s).src i = s.src i := (coresOnly_evcSettle s).src i

theorem evcSettle_reg (s : State) {a : Nat} (h : a ∉ evcRegs) : (evcSettle s).reg a = s.reg a := (coresOnly_evcSettle s).regs a h

end Sys2Proof.Machine

/-!
PROOFS of the desk family: requests to the event concentrator and its hardware inputs (R328–R330, R338).
-/

namespace Sys2Proof.Machine

/-! ### What a source takes -/

theorem src_setSrc_cases (s : State) (i : Nat) (e : Src) : (s.setSrc i e).src i = e ∧ ∀ j, j ≠ i → (s.setSrc i e).src j = s.src j :=
  ⟨State.src_setSrc s i e, fun _ hj => State.src_setSrc_ne s e hj⟩

/-- Whether a level input makes its source pending. -/
def samples (s : State) (i : Nat) : Bool := srcLevel s i && decide (1 ≤ srcPrio s i) && (s.src i).input && !(s.src i).serv

theorem sampleLevel_eq (s : State) (i : Nat) : sampleLevel s i =
    if samples s i = true ∧ (s.src i).pending = false then s.setSrc i { s.src i with pending := true } else s := by
  have hprio : decide (0 < srcPrio s i) = decide (1 ≤ srcPrio s i) := rfl
  refine if_congr ?_ rfl rfl
  rw [hprio]
  simp only [samples, Bool.and_eq_true, Bool.not_eq_true']
  tauto

theorem sampleLevel_src (s : State) (i : Nat) :
    (sampleLevel s i).src i = { s.src i with pending := (s.src i).pending || samples s i } ∧ ∀ j, j ≠ i → (sampleLevel s i).src j = s.src j := by
  rw [sampleLevel_eq]
  split
  next h =>
    obtain ⟨hs, hp⟩ := h
    refine ⟨(State.src_setSrc _ _ _).trans ?_, fun j hj => State.src_setSrc_ne s _ hj⟩
    rw [hs, Bool.or_true]
  next h =>
    refine ⟨?_, fun j _ => rfl⟩
    have hs : ((s.src i).pending || samples s i) = (s.src i).pending := by
      cases hp : (s.src i).pending
      · simpa [hp] using h
      · rfl
    rw [hs]

theorem sampleLevel_regs (s : State) (i : Nat) : (sampleLevel s i).regs = s.regs := by
  rw [sampleLevel_eq]; split <;> rfl

/-! ### EVC_SETPEND and EVC_CLRPEND (R330) -/

theorem evcNamed_none {s : State} {v : Word} (h : bitsOf v.toNat 0 10 = 0 ∨ 512 ≤ bitsOf v.toNat 0 10 ∨ srcPrio s (bitsOf v.toNat 0 10) = 0) :
    evcNamed s v = none := by
  refine if_neg ?_
  simp only [srcId, Bool.and_eq_true, decide_eq_true_eq]
  omega

theorem evcNamed_some {s : State} {v : Word} (h1 : 1 ≤ bitsOf v.toNat 0 10) (h2 : bitsOf v.toNat 0 10 ≤ 511)
    (hp : 1 ≤ srcPrio s (bitsOf v.toNat 0 10)) : evcNamed s v = some (bitsOf v.toNat 0 10) := by
  refine if_pos ?_
  simp only [srcId, Bool.and_eq_true, decide_eq_true_eq]
  omega

section Pend

variable {a : Access} {v : Word} {s : State}

theorem exec_evcSetpend (h : Reaches s a .w EVC_SETPEND) : exec (.evcSetpend a v) s = .next (setpendWrite v s) :=
  congrArg Host.Outcome.next (regAccess_go h)

theorem exec_evcClrpend (h : Reaches s a .w EVC_CLRPEND) : exec (.evcClrpend a v) s = .next (clrpendWrite v s) :=
  congrArg Host.Outcome.next (regAccess_go h)

theorem setpendWrite_still (hr : evcRuns s = false) : setpendWrite v s = s := if_pos (by simp [hr])

theorem clrpendWrite_still (hr : evcRuns s = false) : clrpendWrite v s = s := if_pos (by simp [hr])

theorem setpendWrite_none (hr : evcRuns s = true) (h : evcNamed s v = none) : setpendWrite v s = evcSettle s := by
  rw [setpendWrite, if_neg (by simp [hr]), h]

theorem setpendWrite_some {i : Nat} (hr : evcRuns s = true) (h : evcNamed s v = some i) : setpendWrite v s = evcSettle (setPend s i true) := by
  rw [setpendWrite, if_neg (by simp [hr]), h]

theorem clrpendWrite_none (hr : evcRuns s = true) (h : evcNamed s v = none) : clrpendWrite v s = evcSettle s := by
  rw [clrpendWrite, if_neg (by simp [hr]), h]

theorem clrpendWrite_some {i : Nat} (hr : evcRuns s = true) (h : evcNamed s v = some i) :
    clrpendWrite v s = evcSettle (sampleLevel (s.setSrc i { s.src i with pending := false }) i) := by
  rw [clrpendWrite, if_neg (by simp [hr]), h]

end Pend

theorem setPend_again {s : State} {i : Nat} (h : (s.src i).pending = true) :
    setPend s i true = if evcDeaf s then s else s.inc EVC_MERGED := by
  rw [setPend, if_pos h]
  cases evcDeaf s <;> rfl

theorem setPend_new {s : State} {i : Nat} (merge : Bool) (h : (s.src i).pending = false) :
    setPend s i merge = s.setSrc i { s.src i with pending := true } := if_neg (by simp [h])

/-- A source cleared, and pending again where its level holds (R329). -/
theorem cleared_settles (s : State) (i : Nat) (hp : 1 ≤ srcPrio s i) :
    let t := evcSettle (sampleLevel (s.setSrc i { s.src i with pending := false }) i)
    t.src i = { s.src i with pending := srcLevel s i && (s.src i).input && !(s.src i).serv } ∧ (∀ j, j ≠ i → t.src j = s.src j)
      ∧ SameRegsBut evcRegs s t ∧ { evcBack s t with regs := s.regs, srcs := s.srcs } = s := by
  intro t
  obtain ⟨hcleared, hothers⟩ := src_setSrc_cases s i { s.src i with pending := false }
  have honly : EvcOnly s t := (evcOnly_setSrc s i _).trans ((evcOnly_sampleLevel _ i).trans (evcOnly_evcSettle _))
  have hregs : (sampleLevel (s.setSrc i { s.src i with pending := false }) i).regs = s.regs := sampleLevel_regs _ i
  obtain ⟨hsampled, hkept⟩ := sampleLevel_src (s.setSrc i { s.src i with pending := false }) i
  have hlevel : samples (s.setSrc i { s.src i with pending := false }) i = (srcLevel s i && (s.src i).input && !(s.src i).serv) := by
    unfold samples
    rw [hcleared]
    have hprio : decide (1 ≤ srcPrio (s.setSrc i { s.src i with pending := false }) i) = true := decide_eq_true hp
    rw [hprio, Bool.and_true]
    rfl
  refine ⟨?_, fun j hj => ?_, fun a ha => ?_, honly.back⟩
  · rw [evcSettle_src, hsampled, hlevel, hcleared, Bool.false_or]
  · rw [evcSettle_src, hkept j hj, hothers j hj]
  · rw [evcSettle_reg _ ha]
    exact congrArg (tget regReset · a) hregs

/-! ### Hardware inputs (R328, R329, R338) -/

section Input

variable {s : State} {i : Nat} {level : Bool}

/-- Whether an input that takes a level makes its source pending, as its mode says (R329). -/
def inputSets (s : State) (i : Nat) (level : Bool) : Bool :=
  decide (1 ≤ srcPrio s i) && (if srcLevel s i then level && !(s.src i).serv else level && !(s.src i).input)

theorem evcInput_none (h : i = 0 ∨ 512 ≤ i ∨ s.ctl.core = false) : evcInput s i level = s := by
  refine if_pos ?_
  rcases h with rfl | h | h
  · rfl
  · simp [srcId, Nat.not_lt.mpr h]
  · simp [h]

/-- The state in which the source's input has taken the level. -/
def inputTaken (s : State) (i : Nat) (level : Bool) : State := s.setSrc i { s.src i with input := level }

variable (h1 : 1 ≤ i) (h2 : i ≤ 511) (hc : s.ctl.core = true)
include h1 h2 hc

theorem evcInput_named : evcInput s i level =
    if srcPrio s i = 0 || !evcRuns s then inputTaken s i level
    else if srcLevel s i then evcSettle (sampleLevel (inputTaken s i level) i)
    else if level && !(s.src i).input then evcSettle (setPend (inputTaken s i level) i true)
    else inputTaken s i level := by
  refine if_neg ?_
  have hid : srcId i = true := by simp only [srcId, Bool.and_eq_true, decide_eq_true_eq]; omega
  simp [hid, hc]

theorem evcInput_still (hh : s.pwr.halted = true) : evcInput s i level = inputTaken s i level := by
  rw [evcInput_named h1 h2 hc, if_pos]
  simp [evcRuns, hh]

end Input

section Input

variable {s : State} {i : Nat} {level : Bool}

theorem inputTaken_src (j : Nat) (hj : j ≠ i) : (inputTaken s i level).src j = s.src j := State.src_setSrc_ne s _ hj

theorem inputTaken_own : (inputTaken s i level).src i = { s.src i with input := level } := State.src_setSrc s i _

/-- What an input brings: the level, pending where its mode says so, and a count where an edge finds it pending. -/
def InputBrings (s t : State) (i : Nat) (level sets : Bool) : Prop :=
  t.src i = { s.src i with input := level, pending := (s.src i).pending || sets }
  ∧ t.reg EVC_MERGED = (if sets = true ∧ srcLevel s i = false ∧ (s.src i).pending = true ∧ evcDeaf s = false then (s.inc EVC_MERGED).reg EVC_MERGED
      else s.reg EVC_MERGED)
  ∧ (∀ j, j ≠ i → t.src j = s.src j)

theorem inputTaken_brings : InputBrings s (inputTaken s i level) i level false := by
  refine ⟨?_, (if_neg fun h => by simp at h).symm, inputTaken_src⟩
  rw [inputTaken_own, Bool.or_false]

theorem level_brings (hlevel : srcLevel s i = true) :
    InputBrings s (evcSettle (sampleLevel (inputTaken s i level) i)) i level (samples (inputTaken s i level) i) := by
  obtain ⟨hsampled, hkept⟩ := sampleLevel_src (inputTaken s i level) i
  refine ⟨?_, ?_, fun j hj => ?_⟩
  · rw [evcSettle_src, hsampled, inputTaken_own]
  · rw [if_neg fun h => by simp [hlevel] at h, evcSettle_reg _ (by decide)]
    exact congrArg (tget regReset · _) (sampleLevel_regs _ i)
  · rw [evcSettle_src, hkept j hj, inputTaken_src j hj]

theorem edge_brings (hlevel : srcLevel s i = false) : InputBrings s (evcSettle (setPend (inputTaken s i level) i true)) i level true := by
  have hown := inputTaken_own (s := s) (i := i) (level := level)
  cases hp : (s.src i).pending
  · have hp' : ((inputTaken s i level).src i).pending = false := by rw [hown]; exact hp
    rw [setPend_new true hp']
    refine ⟨?_, ?_, fun j hj => ?_⟩
    · rw [evcSettle_src, State.src_setSrc, hown, hp]; rfl
    · rw [if_neg fun h => by simp [hp] at h]
      exact evcSettle_reg _ (by decide)
    · rw [evcSettle_src, State.src_setSrc_ne _ _ hj, inputTaken_src j hj]
  · have hp' : ((inputTaken s i level).src i).pending = true := by rw [hown]; exact hp
    have hdeaf : evcDeaf (inputTaken s i level) = evcDeaf s := rfl
    rw [setPend_again hp', hdeaf]
    refine ⟨?_, ?_, fun j hj => ?_⟩
    · rw [evcSettle_src, hp, Bool.true_or]
      have hsrc : (if evcDeaf s = true then inputTaken s i level else (inputTaken s i level).inc EVC_MERGED).src i = (inputTaken s i level).src i := by
        split <;> rfl
      rw [hsrc, hown, ← hp]
    · rw [evcSettle_reg _ (by decide)]
      cases evcDeaf s
      · exact Eq.trans (b := (s.inc EVC_MERGED).reg EVC_MERGED) rfl (if_pos ⟨rfl, hlevel, hp, rfl⟩).symm
      · exact Eq.trans (b := s.reg EVC_MERGED) rfl (if_neg fun h => by simp at h).symm
    · rw [evcSettle_src]
      refine Eq.trans ?_ (inputTaken_src (level := level) j hj)
      split <;> rfl

end Input

theorem evcInput_brings {s : State} {i : Nat} (level : Bool) (h1 : 1 ≤ i) (h2 : i ≤ 511) (hc : s.ctl.core = true) (hh : s.pwr.halted = false) :
    InputBrings s (evcInput s i level) i level (inputSets s i level) := by
  have hr : evcRuns s = true := by simp [evcRuns, hc, hh]
  rw [evcInput_named h1 h2 hc, hr]
  by_cases hp : srcPrio s i = 0
  · have hsets : inputSets s i level = false := by simp [inputSets, hp]
    rw [if_pos (by simp [hp]), hsets]
    exact inputTaken_brings
  rw [if_neg (by simp [hp])]
  have hp1 : decide (1 ≤ srcPrio s i) = true := decide_eq_true (Nat.one_le_iff_ne_zero.mpr hp)
  cases hlevel : srcLevel s i
  · rw [if_neg (by decide)]
    have hsets : inputSets s i level = (level && !(s.src i).input) := by simp [inputSets, hp1, hlevel]
    rw [hsets]
    cases hrise : level && !(s.src i).input
    · exact inputTaken_brings
    · exact edge_brings hlevel
  · have hsets : inputSets s i level = samples (inputTaken s i level) i := by
      unfold samples
      rw [inputTaken_own]
      have hprio : srcPrio (inputTaken s i level) i = srcPrio s i := rfl
      have hmode : srcLevel (inputTaken s i level) i = srcLevel s i := rfl
      rw [hprio, hmode, hlevel, hp1]
      simp [inputSets, hp1, hlevel]
    rw [if_pos rfl, hsets]
    exact level_brings hlevel

/-! ### The obligation -/

/-- Settles O42: each write by the source that it names, each input by its source's mode; all else is one arbitration's. -/
theorem evcRequests : Obligations.EvcRequests := by
  unfold Obligations.EvcRequests
  refine ⟨fun s => ⟨(coresOnly_evcSettle s).back, (coresOnly_evcSettle s).regs, evcSettle_regs, evcSettle_still⟩,
    fun a v s hr => ⟨fun h => ?_, fun h => ?_⟩, fun a v s h hr => ⟨fun hno => ?_, fun h1 h2 hp => ⟨fun hnew => ?_, fun hagain => ?_⟩⟩,
    fun a v s h hr => ⟨fun hno => ?_, fun h1 h2 hp => ?_⟩, fun id level s => ⟨fun hno => ?_, fun h1 h2 hc => ⟨fun hh => ?_, fun hh => ?_⟩⟩⟩
  case refine_1 => rw [exec_evcSetpend h, setpendWrite_still hr]
  case refine_2 => rw [exec_evcClrpend h, clrpendWrite_still hr]
  case refine_3 => rw [exec_evcSetpend h, setpendWrite_none hr (evcNamed_none hno)]
  case refine_4 => rw [exec_evcSetpend h, setpendWrite_some hr (evcNamed_some h1 h2 hp), setPend_new true hnew]
  case refine_5 => rw [exec_evcSetpend h, setpendWrite_some hr (evcNamed_some h1 h2 hp), setPend_again hagain]
  case refine_6 => rw [exec_evcClrpend h, clrpendWrite_none hr (evcNamed_none hno)]
  case refine_7 =>
    refine ⟨_, exec_evcClrpend h, ?_⟩
    rw [clrpendWrite_some hr (evcNamed_some h1 h2 hp)]
    exact cleared_settles s _ hp
  case refine_8 =>
    refine congrArg Host.Outcome.next ?_
    unfold doEvcSourceInput
    split
    · exact evcInput_none (hno.imp_right (Or.imp_left (by omega)))
    · rfl
  case refine_9 => exact congrArg Host.Outcome.next ((if_pos h2).trans (evcInput_still h1 (by omega) hc hh))
  case refine_10 =>
    obtain ⟨hown, hmerged, hothers⟩ := evcInput_brings level h1 (by omega) hc hh
    have honly := evcOnly_evcInput s id.val level
    exact ⟨_, congrArg Host.Outcome.next (if_pos h2), hown, hmerged, hothers, honly.regs, honly.back⟩

end Sys2Proof.Machine

/-!
PROOFS of the desk family: claims and ends-of-interrupt (R331, R335, R336).
-/

namespace Sys2Proof.Machine

/-! ### The source that a claim takes (R335) -/

/-- The best of a list in ascending order: the first of those that weigh most. -/
theorem foldl_firstMax (p : Nat → Nat) : ∀ (rest : List Nat) (i : Nat), (i :: rest).Pairwise (· < ·) →
    let b := rest.foldl (fun b j => if p b < p j then j else b) i
    b ∈ i :: rest ∧ ∀ j ∈ i :: rest, p j < p b ∨ p j = p b ∧ b ≤ j
  | [], i, _ => ⟨by simp, fun j hj => .inr (by simp_all)⟩
  | x :: xs, i, h => by
    obtain ⟨hi, hx⟩ := List.pairwise_cons.mp h
    obtain ⟨hxs, hrest⟩ := List.pairwise_cons.mp hx
    have hix : i < x := hi x (by simp)
    obtain ⟨n, hn, hcase⟩ : ∃ n, (if p i < p x then x else i) = n ∧ (p i < p x ∧ n = x ∨ p x ≤ p i ∧ n = i) := by
      refine ⟨_, rfl, ?_⟩
      split <;> omega
    have hnext : (n :: xs).Pairwise (· < ·) := by
      refine List.pairwise_cons.mpr ⟨fun j hj => ?_, hrest⟩
      have := hxs j hj
      omega
    obtain ⟨hmem, hbest⟩ := foldl_firstMax p xs n hnext
    simp only [List.foldl_cons, hn]
    generalize xs.foldl (fun b j => if p b < p j then j else b) n = b at hmem hbest ⊢
    have hfirst := hbest n (by simp)
    refine ⟨?_, fun j hj => ?_⟩
    · rcases List.mem_cons.mp hmem with rfl | hb
      · rcases hcase with ⟨-, rfl⟩ | ⟨-, rfl⟩ <;> simp
      · simp [hb]
    · rcases List.mem_cons.mp hj with rfl | hj
      · rcases hcase with ⟨hlt, rfl⟩ | ⟨hle, rfl⟩ <;> omega
      rcases List.mem_cons.mp hj with rfl | hj
      · rcases hcase with ⟨hlt, rfl⟩ | ⟨hle, rfl⟩ <;> omega
      · exact hbest j (List.mem_cons_of_mem n hj)

theorem twfFrom_pairwise {α : Type} [DecidableEq α] (d : Nat → α) : ∀ (t : Tbl α) (lo : Option Nat), twfFrom d lo t = true →
    (t.map (·.1)).Pairwise (· < ·) ∧ ∀ l, lo = some l → ∀ k ∈ t.map (·.1), l < k
  | [], _, _ => ⟨.nil, fun _ _ k hk => by simp at hk⟩
  | (j, u) :: t, lo, h => by
    simp only [twfFrom, Bool.and_eq_true] at h
    obtain ⟨⟨hlo, -⟩, ht⟩ := h
    obtain ⟨hsorted, habove⟩ := twfFrom_pairwise d t (some j) ht
    refine ⟨List.pairwise_cons.mpr ⟨habove j rfl, hsorted⟩, fun l hl k hk => ?_⟩
    subst hl
    have hlj : l < j := by simpa using hlo
    rcases List.mem_cons.mp hk with rfl | hk
    · exact hlj
    · exact hlj.trans (habove j rfl k hk)

theorem tget_of_not_mem {α : Type} (d : Nat → α) (k : Nat) : ∀ t : Tbl α, k ∉ t.map (·.1) → tget d t k = d k
  | [], _ => rfl
  | (j, u) :: t, h => by
    simp only [List.map_cons, List.mem_cons, not_or] at h
    rw [tget_cons, if_neg (Ne.symm h.1), tget_of_not_mem d k t h.2]

/-- What is offered is a source of the table: any other is not pending. -/
theorem mem_offeredTo (s : State) (k j : Nat) : j ∈ offeredTo s k ↔ offered s k j = true := by
  unfold offeredTo
  rw [List.mem_filter]
  refine ⟨fun h => h.2, fun h => ⟨?_, h⟩⟩
  by_contra hmem
  have hsrc : s.src j = {} := tget_of_not_mem _ j s.srcs hmem
  simp [offered, hsrc] at h

theorem claimOf_none (s : State) (k : Nat) : claimOf s k = none ↔ ∀ j, offered s k j = false := by
  have hempty : claimOf s k = none ↔ offeredTo s k = [] := by
    unfold claimOf
    cases offeredTo s k <;> simp
  rw [hempty, List.eq_nil_iff_forall_not_mem]
  exact forall_congr' fun j => (not_congr (mem_offeredTo s k j)).trans Bool.eq_false_iff.symm

theorem claimOf_some {s : State} {k i : Nat} (hw : twf (fun _ => ({} : Src)) s.srcs = true) (h : claimOf s k = some i) :
    offered s k i = true ∧ ∀ j, offered s k j = true → srcPrio s j < srcPrio s i ∨ srcPrio s j = srcPrio s i ∧ i ≤ j := by
  have hsorted : (offeredTo s k).Pairwise (· < ·) := (twfFrom_pairwise _ s.srcs none hw).1.filter _
  have hall : ∀ j, offered s k j = true → j ∈ offeredTo s k := fun j hj => (mem_offeredTo s k j).mpr hj
  have hsome : ∀ j ∈ offeredTo s k, offered s k j = true := fun j hj => (mem_offeredTo s k j).mp hj
  unfold claimOf at h
  cases hl : offeredTo s k with
  | nil => rw [hl] at h; cases h
  | cons x rest =>
    rw [hl] at h hsorted hall hsome
    obtain ⟨hmem, hbest⟩ := foldl_firstMax (srcPrio s) rest x hsorted
    have hi := Option.some.inj h
    rw [hi] at hmem hbest
    exact ⟨hsome i hmem, fun j hj => hbest j (hall j hj)⟩

theorem hasOffer_of_claimOf_none {s : State} {k : Nat} (h : claimOf s k = none) : hasOffer s k = false := by
  unfold hasOffer
  unfold claimOf at h
  cases hl : offeredTo s k with
  | nil => rfl
  | cons x rest => rw [hl] at h; cases h

/-! ### Settling changes no offer (R334) -/

theorem sameOffers_evcSettle (s : State) : SameOffers s (evcSettle s) :=
  ⟨(coresOnly_evcSettle s).srcs, fun a ha => evcSettle_reg s (by
    have hlow : 0x250000 ≤ a := by
      rcases ha with ha | ⟨k, rfl⟩
      · omega
      · unfold EVC_CORE_THRESH; omega
    unfold evcRegs CLK_PLL_STATUS CLK_PLL_STAT
    simp only [List.mem_cons, List.not_mem_nil, or_false]
    omega), fun k => (sameCore_evcSettle s k).sameTake⟩

theorem evcSettle_claimOf (s : State) (k : Nat) : claimOf (evcSettle s) k = claimOf s k := (sameOffers_evcSettle s).claimOf k

theorem evcSettle_srcPrio (s : State) (i : Nat) : srcPrio (evcSettle s) i = srcPrio s i := (sameOffers_evcSettle s).srcPrio i

theorem evcSettle_stack (s : State) (k : Nat) : ((evcSettle s).desk k).stack = (s.desk k).stack := (sameCore_evcSettle s k).sameTake.1

theorem CoresOnly.evcRuns {s t : State} (h : CoresOnly s t) : evcRuns t = evcRuns s := (congrArg Sys2Proof.Machine.evcRuns h.back :)

theorem evcSettle_evcRuns (s : State) : evcRuns (evcSettle s) = evcRuns s :=
  (coresOnly_evcSettle s).evcRuns

/-! ### The record of a claim (R335) -/

theorem State.resultDone_word (s : State) (a bits : Nat) :
    ((s.resultDone a bits).reg a).toNat = 1 + bits % 2 ^ 15 * 2 + (s.fld a 16 16 + 1) % 2 ^ 16 * 2 ^ 16 := by
  unfold State.resultDone
  rw [State.reg_setReg_same, BitVec.toNat_ofNat, Nat.mod_eq_of_lt (by omega)]

/-- What a claim's record shows: the ID, its priority, and that it is valid. -/
theorem claimed_shows (s : State) (a : Nat) {i p : Nat} (hi : i < 1024) (hp : p < 32) :
    (s.resultDone a (i + p * 2 ^ 10)).bit a 0 = true ∧ (s.resultDone a (i + p * 2 ^ 10)).fld a 1 10 = i
      ∧ (s.resultDone a (i + p * 2 ^ 10)).fld a 11 5 = p
      ∧ (s.resultDone a (i + p * 2 ^ 10)).fld a 16 16 = (s.fld a 16 16 + 1) % 2 ^ 16 := by
  have hword := State.resultDone_word s a (i + p * 2 ^ 10)
  unfold State.bit bitOf
  unfold State.fld bitsOf at hword ⊢
  rw [hword, beq_iff_eq]
  omega

theorem srcPrio_lt (s : State) (i : Nat) : srcPrio s i < 32 := Nat.mod_lt _ (by decide)

/-! ### What claims and ends-of-interrupt change besides registers -/

/-- Nothing but registers, the sources, the cores, the arbiter's standing still and the desk PLL differs. -/
def BackOnly (s t : State) : Prop := { evcBack s t with regs := s.regs, srcs := s.srcs } = s

theorem BackOnly.trans {s t u : State} (h : BackOnly s t) (k : BackOnly t u) : BackOnly s u := by
  unfold BackOnly at h k ⊢
  calc { evcBack s u with regs := s.regs, srcs := s.srcs }
    _ = { evcBack s { evcBack t u with regs := t.regs, srcs := t.srcs } with regs := s.regs, srcs := s.srcs } := rfl
    _ = { evcBack s t with regs := s.regs, srcs := s.srcs } := by rw [k]
    _ = s := h

theorem EvcOnly.backOnly {s t : State} (h : EvcOnly s t) : BackOnly s t := h.back

theorem backOnly_setReg (s : State) (a : Nat) (v : Word) : BackOnly s (s.setReg a v) := by
  unfold BackOnly; dsimp only [evcBack, State.setReg]

theorem backOnly_resultDone (s : State) (a bits : Nat) : BackOnly s (s.resultDone a bits) := backOnly_setReg s a _

theorem evcSettle_others {l : List Nat} (hl : evcRegs ⊆ l) (s : State) : SameRegsBut l s (evcSettle s) :=
  fun _ ha => evcSettle_reg s fun hin => ha (hl hin)

theorem claimed_not_evcRegs (k : Nat) : EVC_CORE_CLAIMED k ∉ evcRegs := by
  unfold EVC_CORE_CLAIMED evcRegs CLK_PLL_STATUS CLK_PLL_STAT
  simp only [List.mem_cons, List.not_mem_nil, or_false]
  omega

/-! ### Claims (R335) -/

section Claim

variable {a : Access} {k : Fin 4} {v : Word} {s : State}

theorem exec_evcClaim (h : Reaches s a .w (EVC_CORE_CLAIM k.val)) : exec (.evcClaim a k v) s = .next (claimWrite k.val s) :=
  congrArg Host.Outcome.next (regAccess_go h)

theorem claimWrite_still (k : Nat) (hr : evcRuns s = false) : claimWrite k s = s := if_pos (by simp [hr])

/-- The state in which core `k` has source `i` in service. -/
def claimedBy (u : State) (k i : Nat) : State :=
  (u.setSrc i { u.src i with pending := false, serv := true, core := k }).setDesk k
    { u.desk k with stack := (i, srcPrio u i) :: (u.desk k).stack, signalled := false }

theorem claimWrite_some {k i : Nat} (hr : evcRuns s = true) (hc : claimOf s k = some i) : claimWrite k s =
    evcSettle ((claimedBy (evcSettle s) k i).resultDone (EVC_CORE_CLAIMED k) (i + srcPrio (evcSettle s) i * 2 ^ 10)) := by
  rw [← evcSettle_claimOf] at hc
  rw [claimWrite, if_neg (by simp [hr])]
  generalize evcSettle s = u at hc ⊢
  dsimp only
  rw [hc]
  rfl

/-- The state in which a claim of core `k` found nothing. -/
def claimedNone (u : State) (k : Nat) : State :=
  (if (u.desk k).signalled then u.inc EVC_SPURIOUS else u).setDesk k { u.desk k with signalled := false }

theorem claimWrite_none {k : Nat} (hr : evcRuns s = true) (hc : claimOf s k = none) : claimWrite k s =
    evcSettle ((claimedNone (evcSettle s) k).resultDone (EVC_CORE_CLAIMED k) (if ((evcSettle s).desk k).signalled then 1023 else 0)) := by
  rw [← evcSettle_claimOf] at hc
  rw [claimWrite, if_neg (by simp [hr])]
  generalize evcSettle s = u at hc ⊢
  dsimp only
  rw [hc]
  rfl

theorem claimedBy_claims (u : State) (k i : Nat) :
    (claimedBy u k i).src i = { u.src i with pending := false, serv := true, core := k } ∧ (∀ j, j ≠ i → (claimedBy u k i).src j = u.src j)
      ∧ ((claimedBy u k i).desk k).stack = (i, srcPrio u i) :: (u.desk k).stack ∧ (claimedBy u k i).regs = u.regs ∧ BackOnly u (claimedBy u k i) := by
  have hsrc (j : Nat) : (claimedBy u k i).src j = (u.setSrc i { u.src i with pending := false, serv := true, core := k }).src j := rfl
  refine ⟨(hsrc i).trans (State.src_setSrc u i _), fun j hj => (hsrc j).trans (State.src_setSrc_ne u _ hj), ?_, rfl, ?_⟩
  · exact congrArg Desk.stack (State.desk_setDesk (u.setSrc i { u.src i with pending := false, serv := true, core := k }) k _)
  · exact (evcOnly_setSrc u i _).backOnly.trans (evcOnly_setDesk _ k _).backOnly

/-- A claim with something offered (R335). -/
theorem claim_takes {k i : Nat} (hr : evcRuns s = true) (hc : claimOf s k = some i) (hi : i < 1024) :
    let t := claimWrite k s
    t.src i = { s.src i with pending := false, serv := true, core := k } ∧ (∀ j, j ≠ i → t.src j = s.src j)
      ∧ (t.desk k).stack = (i, srcPrio s i) :: (s.desk k).stack
      ∧ t.bit (EVC_CORE_CLAIMED k) 0 = true ∧ t.fld (EVC_CORE_CLAIMED k) 1 10 = i ∧ t.fld (EVC_CORE_CLAIMED k) 11 5 = srcPrio s i
      ∧ t.fld (EVC_CORE_CLAIMED k) 16 16 = (s.fld (EVC_CORE_CLAIMED k) 16 16 + 1) % 2 ^ 16
      ∧ SameRegsBut (EVC_CORE_CLAIMED k :: evcRegs) s t ∧ BackOnly s t := by
  intro t
  have ht : t = _ := claimWrite_some hr hc
  have hreg : (evcSettle s).reg (EVC_CORE_CLAIMED k) = s.reg (EVC_CORE_CLAIMED k) := evcSettle_reg s (claimed_not_evcRegs k)
  have hsrc := evcSettle_src s
  have hprio := evcSettle_srcPrio s i
  have hstack := evcSettle_stack s k
  have hregs := evcSettle_others (List.subset_cons_self (EVC_CORE_CLAIMED k) evcRegs) s
  have hback := (evcOnly_evcSettle s).backOnly
  generalize evcSettle s = u at ht hreg hsrc hprio hstack hregs hback
  obtain ⟨hown, hothers, htop, hsame, hclaim⟩ := claimedBy_claims u k i
  obtain ⟨hvalid, hid, hshown, hcount⟩ := claimed_shows (claimedBy u k i) (EVC_CORE_CLAIMED k) hi (srcPrio_lt u i)
  have hrec : SameRegsBut (EVC_CORE_CLAIMED k :: evcRegs) u ((claimedBy u k i).resultDone (EVC_CORE_CLAIMED k) (i + srcPrio u i * 2 ^ 10)) :=
    fun a ha => State.reg_setReg_ne (claimedBy u k i) _ fun e => ha (by simp [e])
  have hrecBack := hback.trans (hclaim.trans (backOnly_resultDone (claimedBy u k i) (EVC_CORE_CLAIMED k) (i + srcPrio u i * 2 ^ 10)))
  have hfinal : t.reg (EVC_CORE_CLAIMED k) = _ := (congrArg (State.reg · _) ht).trans (evcSettle_reg _ (claimed_not_evcRegs k))
  refine ⟨?_, fun j hj => ?_, ?_, ?_, ?_, ?_, ?_, ?_, ?_⟩
  · rw [ht, evcSettle_src]
    exact hown.trans (by rw [hsrc])
  · rw [ht, evcSettle_src]
    exact (hothers j hj).trans (hsrc j)
  · rw [ht, evcSettle_stack]
    exact htop.trans (by rw [hprio, hstack])
  · exact (State.bit_congr hfinal 0).trans hvalid
  · exact (State.fld_congr hfinal 1 10).trans hid
  · exact (State.fld_congr hfinal 11 5).trans (hshown.trans hprio)
  · refine (State.fld_congr hfinal 16 16).trans (hcount.trans ?_)
    exact congrArg (fun x => (x + 1) % 2 ^ 16) (State.fld_congr hreg 16 16)
  · rw [ht]
    exact (hregs.trans hrec).trans (evcSettle_others (List.subset_cons_self _ _) _)
  · rw [ht]
    exact hrecBack.trans (evcOnly_evcSettle _).backOnly

theorem claimed_ne (k : Nat) {a : Nat} (ha : 0x251000 ≤ a ∨ ∃ j, a = EVC_CORE_THRESH j) (hk : k < 4) :
    a ≠ EVC_CORE_CLAIMED k ∧ a ≠ EVC_SPURIOUS := by
  unfold EVC_CORE_CLAIMED EVC_SPURIOUS
  rcases ha with ha | ⟨j, rfl⟩
  · omega
  · unfold EVC_CORE_THRESH; omega

theorem claimedNone_desk (u : State) (k j : Nat) : (claimedNone u k).desk j = if j = k then { u.desk k with signalled := false } else u.desk j := by
  unfold claimedNone
  by_cases hj : j = k
  · subst hj
    exact (State.desk_setDesk _ _ _).trans (if_pos rfl).symm
  · rw [State.desk_setDesk_ne _ _ hj, if_neg hj]
    split <;> rfl

theorem claimedNone_srcs (u : State) (k : Nat) : (claimedNone u k).srcs = u.srcs := by
  unfold claimedNone
  split <;> rfl

theorem claimedNone_reg (u : State) (k : Nat) {a : Nat} (ha : a ≠ EVC_SPURIOUS) : (claimedNone u k).reg a = u.reg a := by
  unfold claimedNone
  split
  · exact State.reg_setReg_ne u _ ha
  · rfl

theorem claimedNone_spurious (u : State) (k : Nat) :
    (claimedNone u k).reg EVC_SPURIOUS = if (u.desk k).signalled then (u.inc EVC_SPURIOUS).reg EVC_SPURIOUS else u.reg EVC_SPURIOUS := by
  unfold claimedNone
  split <;> rfl

theorem claimedNone_evcRuns (u : State) (k : Nat) : evcRuns (claimedNone u k) = evcRuns u := by
  unfold claimedNone
  split <;> rfl

/-- A claim with nothing offered: spurious where the line had been signalled (R335). -/
theorem claim_spurious {k : Nat} (hk : k < 4) (hr : evcRuns s = true) (hc : claimOf s k = none) :
    let t := claimWrite k s
    t.srcs = s.srcs ∧ (t.desk k).stack = (s.desk k).stack ∧ (t.desk k).signalled = false ∧ t.bit (EVC_CORE_CLAIMED k) 0 = true
      ∧ t.fld (EVC_CORE_CLAIMED k) 1 10 = (if (s.desk k).signalled then 1023 else 0)
      ∧ t.reg EVC_SPURIOUS = (if (s.desk k).signalled then (s.inc EVC_SPURIOUS).reg EVC_SPURIOUS else s.reg EVC_SPURIOUS)
      ∧ SameRegsBut (EVC_CORE_CLAIMED k :: EVC_SPURIOUS :: evcRegs) s t := by
  intro t
  have ht : t = _ := claimWrite_none hr hc
  have hsigned : ((evcSettle s).desk k).signalled = (s.desk k).signalled := by
    rw [evcSettle_desk hr, if_pos hk, arbitratedDesk_signalled, hasOffer_of_claimOf_none hc, Bool.or_false]
  have hnone : claimOf (evcSettle s) k = none := (evcSettle_claimOf s k).trans hc
  have hspur : (evcSettle s).reg EVC_SPURIOUS = s.reg EVC_SPURIOUS := evcSettle_reg s (by decide)
  have hsrcs := (coresOnly_evcSettle s).srcs
  have hstack := evcSettle_stack s k
  have hruns := (evcSettle_evcRuns s).trans hr
  have hsub : evcRegs ⊆ EVC_CORE_CLAIMED k :: EVC_SPURIOUS :: evcRegs := fun a ha => List.mem_cons_of_mem _ (List.mem_cons_of_mem _ ha)
  have hregs := evcSettle_others hsub s
  generalize evcSettle s = u at ht hsigned hnone hspur hsrcs hstack hruns hregs
  rw [hsigned] at ht
  have hbits : (if (s.desk k).signalled = true then 1023 else 0) < 1024 := by split <;> omega
  generalize hn : (if (s.desk k).signalled = true then 1023 else 0) = n at ht hbits ⊢
  obtain ⟨hvalid, hid, -, -⟩ := claimed_shows (claimedNone u k) (EVC_CORE_CLAIMED k) hbits (p := 0) (by omega)
  have hzero : n + 0 * 2 ^ 10 = n := by omega
  rw [hzero] at hvalid hid
  have hreg {a : Nat} (ha : a ≠ EVC_CORE_CLAIMED k) :
      ((claimedNone u k).resultDone (EVC_CORE_CLAIMED k) n).reg a = (claimedNone u k).reg a := State.reg_setReg_ne _ _ ha
  have hdesk (j : Nat) : ((claimedNone u k).resultDone (EVC_CORE_CLAIMED k) n).desk j = (claimedNone u k).desk j := rfl
  have hwsrcs : ((claimedNone u k).resultDone (EVC_CORE_CLAIMED k) n).srcs = u.srcs := claimedNone_srcs u k
  have hwruns : evcRuns ((claimedNone u k).resultDone (EVC_CORE_CLAIMED k) n) = true := (claimedNone_evcRuns u k).trans hruns
  generalize (claimedNone u k).resultDone (EVC_CORE_CLAIMED k) n = w at ht hvalid hid hreg hdesk hwsrcs hwruns
  have hsame : SameOffers u w := by
    refine ⟨hwsrcs, fun a ha => ?_, fun j => ?_⟩
    · obtain ⟨hclaimed, hspurious⟩ := claimed_ne k ha hk
      rw [hreg hclaimed, claimedNone_reg u k hspurious]
    · rw [hdesk, claimedNone_desk]
      split
      next h => rw [h]; exact ⟨rfl, rfl, rfl⟩
      next => exact .refl _
  have hoffer : hasOffer w k = false := hasOffer_of_claimOf_none ((hsame.claimOf k).trans hnone)
  have hfinal : t.reg (EVC_CORE_CLAIMED k) = w.reg (EVC_CORE_CLAIMED k) := (congrArg (State.reg · _) ht).trans (evcSettle_reg _ (claimed_not_evcRegs k))
  refine ⟨?_, ?_, ?_, (State.bit_congr hfinal 0).trans hvalid, (State.fld_congr hfinal 1 10).trans hid, ?_, ?_⟩
  · rw [ht, (coresOnly_evcSettle w).srcs, hwsrcs, hsrcs]
  · rw [ht, evcSettle_stack, hdesk, claimedNone_desk, if_pos rfl]
    exact hstack
  · rw [ht, evcSettle_desk hwruns, if_pos hk, arbitratedDesk_signalled, hoffer, hdesk, claimedNone_desk, if_pos rfl]
    rfl
  · have hne : EVC_SPURIOUS ≠ EVC_CORE_CLAIMED k := by unfold EVC_SPURIOUS EVC_CORE_CLAIMED; omega
    rw [ht, evcSettle_reg _ (by decide), hreg hne, claimedNone_spurious, hsigned, State.reg_inc_same, State.reg_inc_same, hspur]
  · have hwregs : SameRegsBut (EVC_CORE_CLAIMED k :: EVC_SPURIOUS :: evcRegs) u w := fun a ha => by
      simp only [List.mem_cons, not_or] at ha
      rw [hreg ha.1, claimedNone_reg u k ha.2.1]
    rw [ht]
    exact (hregs.trans hwregs).trans (evcSettle_others hsub w)

end Claim

/-! ### Ends-of-interrupt (R336) -/

section Eoi

variable {a : Access} {k : Fin 4} {v : Word} {s : State}

theorem exec_evcEoi (h : Reaches s a .w (EVC_CORE_EOI k.val)) : exec (.evcEoi a k v) s = .next (eoiWrite k.val v s) :=
  congrArg Host.Outcome.next (regAccess_go h)

theorem eoiWrite_still (k : Nat) (hr : evcRuns s = false) : eoiWrite k v s = s := if_pos (by simp [hr])

theorem eoiWrite_none (k : Nat) (hr : evcRuns s = true) (h : bitsOf v.toNat 0 10 = 0 ∨ bitsOf v.toNat 0 10 = 1023) :
    eoiWrite k v s = evcSettle s := by
  unfold eoiWrite
  dsimp only
  rw [if_neg (by simp [hr]), if_pos h]

theorem eoiWrite_top {k : Nat} {e : Nat × Nat} {rest : List (Nat × Nat)} (hr : evcRuns s = true) (h0 : bitsOf v.toNat 0 10 ≠ 0)
    (h1 : bitsOf v.toNat 0 10 ≠ 1023) (hs : (s.desk k).stack = e :: rest) (he : e.1 = bitsOf v.toNat 0 10) :
    eoiWrite k v s = evcSettle (srcComplete (s.setDesk k { s.desk k with stack := rest }) (bitsOf v.toNat 0 10)) := by
  unfold eoiWrite
  dsimp only
  rw [if_neg (by simp [hr]), if_neg (by simp [h0, h1]), hs]
  exact if_pos he

theorem eoiWrite_mismatch {k : Nat} (hr : evcRuns s = true) (h0 : bitsOf v.toNat 0 10 ≠ 0) (h1 : bitsOf v.toNat 0 10 ≠ 1023)
    (hs : ((s.desk k).stack.map (·.1)).head? ≠ some (bitsOf v.toNat 0 10)) : eoiWrite k v s =
      raiseKey (evcSettle ((s.setDesk k { s.desk k with eoiErr := true }).inc EVC_EOI_ERR)) k evEoiMismatch 0 37 31 [] := by
  unfold eoiWrite
  dsimp only
  rw [if_neg (by simp [hr]), if_neg (by simp [h0, h1])]
  cases hstack : (s.desk k).stack with
  | nil => rfl
  | cons e rest => exact if_neg fun he => hs (by rw [hstack]; simp [he])

end Eoi

/-- A source completed: no longer in service, and pending where its level holds (R329, R336). -/
theorem srcComplete_src (s : State) (i : Nat) : (srcComplete s i).src i = { s.src i with serv := false, core := 0, pending :=
      (s.src i).pending || (srcLevel s i && decide (1 ≤ srcPrio s i) && (s.src i).input) }
    ∧ ∀ j, j ≠ i → (srcComplete s i).src j = s.src j := by
  obtain ⟨hown, hothers⟩ := src_setSrc_cases s i { s.src i with serv := false, core := 0 }
  obtain ⟨hsampled, hkept⟩ := sampleLevel_src (s.setSrc i { s.src i with serv := false, core := 0 }) i
  have hlevel : samples (s.setSrc i { s.src i with serv := false, core := 0 }) i =
      (srcLevel s i && decide (1 ≤ srcPrio s i) && (s.src i).input) := by
    unfold samples
    rw [hown]
    exact Bool.and_true _
  exact ⟨hsampled.trans (by rw [hlevel, hown]), fun j hj => (hkept j hj).trans (hothers j hj)⟩

theorem evcOnly_srcComplete (s : State) (i : Nat) : EvcOnly s (srcComplete s i) := (evcOnly_setSrc s i _).trans (evcOnly_sampleLevel _ i)

theorem srcComplete_regs (s : State) (i : Nat) : (srcComplete s i).regs = s.regs := sampleLevel_regs _ i

theorem srcComplete_desks (s : State) (i : Nat) : (srcComplete s i).desks = s.desks := by
  unfold srcComplete
  rw [sampleLevel_eq]
  split <;> rfl

/-- Taking a source off its core's stack and completing it. -/
theorem eoi_completes (s : State) (k i : Nat) (rest : List (Nat × Nat)) :
    let t := evcSettle (srcComplete (s.setDesk k { s.desk k with stack := rest }) i)
    (t.desk k).stack = rest ∧ (t.src i).serv = false
      ∧ (t.src i).pending = ((s.src i).pending || (srcLevel s i && decide (1 ≤ srcPrio s i) && (s.src i).input))
      ∧ (∀ j, j ≠ i → t.src j = s.src j) ∧ SameRegsBut evcRegs s t ∧ BackOnly s t := by
  intro t
  have hback : BackOnly s t :=
    ((evcOnly_setDesk s k _).trans ((evcOnly_srcComplete _ i).trans (evcOnly_evcSettle _))).backOnly
  obtain ⟨hown, hothers⟩ := srcComplete_src (s.setDesk k { s.desk k with stack := rest }) i
  have hdesks := srcComplete_desks (s.setDesk k { s.desk k with stack := rest }) i
  have hregs := srcComplete_regs (s.setDesk k { s.desk k with stack := rest }) i
  refine ⟨?_, ?_, ?_, fun j hj => ?_, fun a ha => ?_, hback⟩
  · rw [evcSettle_stack]
    have hdesk := congrArg (tget (fun _ => ({} : Desk)) · k) hdesks
    exact congrArg Desk.stack (hdesk.trans (State.desk_setDesk s k _))
  · rw [evcSettle_src, hown]
  · rw [evcSettle_src, hown]
    rfl
  · rw [evcSettle_src, hothers j hj]
    rfl
  · rw [evcSettle_reg _ ha]
    exact congrArg (tget regReset · a) hregs

/-! ### The obligation -/

/-- Settles O43: the offers are the same before and after an arbitration, so a claim takes what was offered. -/
theorem evcService : Obligations.EvcService := by
  unfold Obligations.EvcService
  refine ⟨fun s k i => claimOf_some, claimOf_none, fun a k v s hr => ⟨fun h => ?_, fun h => ?_⟩,
    fun a k v s h hr => ⟨fun i hc hi => ⟨_, exec_evcClaim h, claim_takes hr hc hi⟩, fun hc => ⟨_, exec_evcClaim h, claim_spurious k.isLt hr hc⟩⟩,
    fun a k v s h hr => ⟨fun hno => ?_, fun h0 h1 => ⟨fun e rest hs he => ⟨_, exec_evcEoi h, ?_⟩, fun hs => ?_⟩⟩⟩
  case refine_1 => rw [exec_evcClaim h, claimWrite_still k.val hr]
  case refine_2 => rw [exec_evcEoi h, eoiWrite_still k.val hr]
  case refine_3 => rw [exec_evcEoi h, eoiWrite_none k.val hr hno]
  case refine_4 =>
    rw [eoiWrite_top hr h0 h1 hs he]
    exact eoi_completes s k.val _ rest
  case refine_5 => rw [exec_evcEoi h, eoiWrite_mismatch hr h0 h1 hs]

end Sys2Proof.Machine

/-!
PROOFS of the desk family: a core's reset and the sources that it held in service (R337).
-/

namespace Sys2Proof.Machine

/-- Core 0 runs with an ID on its stack that names no source: the word that would be that source's configuration is DSK_CTRL itself.
Its bits read as LEVEL, by bit 5, and as priority 1, by the run bit of core 0. -/
def misnamedStack : State :=
  { State.reset with
    ctl := { State.reset.ctl with core := true }
    regs := [(DSK_CTRL, 0x21)]
    srcs := [(15360, { serv := true, input := true })]
    desks := [(0, { stack := [(15360, 1)] })] }

/-- A write at level P3 by an initiator that carries it anywhere. -/
def p3Access : Access := ⟨0x60, 0, .p3⟩

theorem misnamedStack_reaches : Reaches misnamedStack p3Access .w DSK_CTRL := by decide +kernel

/-- The write that stops core 0 also takes the priority away before the source is completed, so nothing becomes pending. -/
theorem misnamedStack_completes : ((deskRun 0 misnamedStack).src 15360).pending = false := by decide +kernel

/-- Refutes O45: the statement ranges over stacks with an ID above 511, whose configuration word may be the register that the write
changes; core 0 is reset by a write that clears its run bit, and with it the priority of such a source, which the statement reads from
before the write. -/
theorem not_deskReset : ¬ Obligations.DeskReset := by
  unfold Obligations.DeskReset
  intro h
  have hruns : evcRuns misnamedStack = true := by decide +kernel
  obtain ⟨⟨t, hexec, hfalls, -⟩, -⟩ := h p3Access 0 misnamedStack misnamedStack_reaches hruns
  obtain ⟨-, hsrc⟩ := hfalls 0 (by decide +kernel)
  have hpending : (t.src 15360).pending = true :=
    (congrArg Src.pending (hsrc (15360, 1) (by decide +kernel))).trans (by decide +kernel)
  have ht : t = deskRun 0 misnamedStack :=
    (Host.Outcome.next.inj (hexec.symm.trans (congrArg Host.Outcome.next (regAccess_go misnamedStack_reaches))))
  rw [ht, misnamedStack_completes] at hpending
  exact absurd hpending (by decide)

end Sys2Proof.Machine

/-!
PROOFS of the desk family: start, reset, sleep, wake and the machine timer of a core (R323–R325, R338).
-/

namespace Sys2Proof.Machine

/-! ### A core's WFI and mip over an arbitration -/

theorem arbitratedDesk_wfi (s : State) (k : Nat) : (arbitratedDesk s k).wfi = ((s.desk k).wfi && !leavesWfi s k) := by
  unfold arbitratedDesk
  cases h : leavesWfi s k
  · exact (Bool.and_true _).symm
  · exact (Bool.and_false _).symm

theorem arbitratedDesk_wake {s : State} {k : Nat} (h : leavesWfi s k = true) : (arbitratedDesk s k).wake = false := by
  unfold arbitratedDesk
  rw [if_pos h]

/-- No arbitration puts a core into WFI. -/
theorem evcSettle_wfi {s : State} {k : Nat} (h : (s.desk k).wfi = false) : ((evcSettle s).desk k).wfi = false := by
  cases hr : evcRuns s
  · rw [evcSettle_still hr]; exact h
  · rw [evcSettle_desk hr]
    split
    · rw [arbitratedDesk_wfi, h]; rfl
    · exact h

theorem evcSettle_now (s : State) : (evcSettle s).now = s.now := (congrArg State.now (coresOnly_evcSettle s).back :)

theorem timerDue_congr {s t : State} {k : Nat} (hnow : t.now = s.now) (hlo : t.reg (DSK_CORE_MTIMECMP_LO k) = s.reg (DSK_CORE_MTIMECMP_LO k))
    (hhi : t.reg (DSK_CORE_MTIMECMP_HI k) = s.reg (DSK_CORE_MTIMECMP_HI k)) : timerDue t k = timerDue s k := by
  unfold timerDue mtime State.pair
  rw [hnow, hlo, hhi]

theorem desk_regs_not_evcRegs {a : Nat} (h : 0x260000 ≤ a) : a ∉ evcRegs := by
  unfold evcRegs CLK_PLL_STATUS CLK_PLL_STAT
  simp only [List.mem_cons, List.not_mem_nil, or_false]
  omega

theorem evcSettle_timerDue (s : State) (k : Nat) : timerDue (evcSettle s) k = timerDue s k :=
  timerDue_congr (evcSettle_now s) (evcSettle_reg s (desk_regs_not_evcRegs (by unfold DSK_CORE_MTIMECMP_LO; omega)))
    (evcSettle_reg s (desk_regs_not_evcRegs (by unfold DSK_CORE_MTIMECMP_HI; omega)))

theorem evcSettle_mipWith (s : State) (k : Nat) (line : Bool) : mipWith (evcSettle s) k line = mipWith s k line := by
  have hmsip : (evcSettle s).bit (DSK_CORE_MSIP k) 0 = s.bit (DSK_CORE_MSIP k) 0 :=
    State.bit_congr (evcSettle_reg s (desk_regs_not_evcRegs (by unfold DSK_CORE_MSIP; omega))) 0
  have hcfg : (evcSettle s).bit (DSK_CORE_CFG k) 1 = s.bit (DSK_CORE_CFG k) 1 :=
    State.bit_congr (evcSettle_reg s (desk_regs_not_evcRegs (by unfold DSK_CORE_CFG; omega))) 1
  unfold mipWith
  rw [hmsip, hcfg, evcSettle_timerDue]

/-- mip after an arbitration: with the line that it gives. -/
theorem evcSettle_mip {s : State} {k : Nat} (hr : evcRuns s = true) (hk : k < 4) : mip (evcSettle s) k = mipWith s k (hasOffer s k) := by
  rw [mip_eq, evcSettle_desk hr, if_pos hk, arbitratedDesk_line, evcSettle_mipWith]

theorem evcGated_iff (s : State) : evcGated s = true ↔ s.bit DSK_CTRL 8 = true ∧ (∀ j, j < 4 → (s.desk j).asleep = true ∧ (s.desk j).wake = false)
    ∧ ∀ x ∈ s.srcs, ¬ (x.2.input = true ∧ srcLevel s x.1 = true ∧ 0 < srcPrio s x.1) := by
  have hcores : (allAsleep s = true ∧ (([0, 1, 2, 3] : List Nat).any fun k => (s.desk k).wake) = false) ↔
      ∀ j, j < 4 → (s.desk j).asleep = true ∧ (s.desk j).wake = false := by
    simp only [allAsleep, List.all_cons, List.all_nil, List.any_cons, List.any_nil, Bool.and_true, Bool.or_false, Bool.and_eq_true, Bool.or_eq_false_iff]
    refine ⟨fun h j hj => ?_, fun h => ?_⟩
    · obtain ⟨⟨h0, h1, h2, h3⟩, g0, g1, g2, g3⟩ := h
      obtain rfl | rfl | rfl | rfl : j = 0 ∨ j = 1 ∨ j = 2 ∨ j = 3 := by omega
      · exact ⟨h0, g0⟩
      · exact ⟨h1, g1⟩
      · exact ⟨h2, g2⟩
      · exact ⟨h3, g3⟩
    · exact ⟨⟨(h 0 (by omega)).1, (h 1 (by omega)).1, (h 2 (by omega)).1, (h 3 (by omega)).1⟩,
        (h 0 (by omega)).2, (h 1 (by omega)).2, (h 2 (by omega)).2, (h 3 (by omega)).2⟩
  unfold evcGated
  rw [Bool.and_eq_true, Bool.and_eq_true, Bool.and_eq_true, Bool.not_eq_true', and_assoc, and_assoc, ← and_assoc (a := allAsleep s = true), hcores]
  simp only [Bool.not_eq_true', List.any_eq_false, Bool.and_eq_true, decide_eq_true_eq, and_assoc]

/-- Whether the arbiter stands still after an arbitration. -/
theorem evcSettle_stops {s : State} (hr : evcRuns s = true) : (evcSettle s).evcStop = true ↔ s.bit DSK_CTRL 8 = true
    ∧ (∀ j, j < 4 → ((evcSettle s).desk j).asleep = true ∧ ((evcSettle s).desk j).wake = false)
    ∧ ∀ x ∈ s.srcs, ¬ (x.2.input = true ∧ srcLevel s x.1 = true ∧ 0 < srcPrio s x.1) := by
  have hdesk (j : Nat) : (arbitrate s).desk j = (evcSettle s).desk j := by rw [arbitrate_desk, evcSettle_desk hr]
  have hback := arbitrate_back s
  rw [evcSettle_evcStop hr, evcGated_iff]
  generalize arbitrate s = u at hdesk hback ⊢
  have hsrcs : u.srcs = s.srcs := (congrArg State.srcs hback :)
  have hlevel (i : Nat) : srcLevel u i = srcLevel s i := (congrArg (srcLevel · i) hback :)
  have hprio (i : Nat) : srcPrio u i = srcPrio s i := (congrArg (srcPrio · i) hback :)
  have hregs : u.regs = s.regs := (congrArg State.regs hback :)
  have hbit : u.bit DSK_CTRL 8 = s.bit DSK_CTRL 8 := State.bit_congr (congrArg (tget regReset · DSK_CTRL) hregs) 8
  rw [hsrcs, hbit]
  simp only [hdesk, hlevel, hprio]

/-! ### WFI (R325) -/

/-- Core `k` in the state of its last WFI: what its mie enabled then (log 18). -/
def drawnMie (s : State) (k : Nat) : State := (s.setDesk k { s.desk k with mie := Config.mieBits s.free }).draw

theorem drawnMie_desk (s : State) (k : Nat) : (drawnMie s k).desk k = { s.desk k with mie := Config.mieBits s.free } := State.desk_setDesk s k _

theorem drawnMie_desk_ne (s : State) {j k : Nat} (h : j ≠ k) : (drawnMie s k).desk j = s.desk j := State.desk_setDesk_ne s _ h

theorem drawnMie_mip (s : State) (k : Nat) : mip (drawnMie s k) k = mip s k := by
  rw [mip_eq, mip_eq, drawnMie_desk]
  rfl

/-- The state in which core `k` waits in its WFI. -/
def waitingCore (s : State) (k : Nat) : State :=
  (drawnMie s k).setDesk k { (drawnMie s k).desk k with wfi := true, asleep := (drawnMie s k).bit (DSK_CORE_CFG k) 0 }

theorem waitingCore_desk (s : State) (k : Nat) : (waitingCore s k).desk k =
    { s.desk k with mie := Config.mieBits s.free, wfi := true, asleep := s.bit (DSK_CORE_CFG k) 0 } :=
  (State.desk_setDesk (drawnMie s k) k _).trans (by rw [drawnMie_desk]; rfl)

theorem waitingCore_desk_ne (s : State) {j k : Nat} (h : j ≠ k) : (waitingCore s k).desk j = s.desk j :=
  (State.desk_setDesk_ne (drawnMie s k) _ h).trans (drawnMie_desk_ne s h)

theorem exec_wfiSleep (k : Fin 4) (s : State) : exec (.wfiSleep k) s = .next
    (if evcRuns s = true ∧ s.bit DSK_CTRL k.val = true ∧ (s.desk k.val).halted = false ∧ (s.desk k.val).wfi = false then
      (if mip s k.val &&& Config.mieBits s.free ≠ 0 then drawnMie s k.val else evcSettle (waitingCore s k.val))
    else s) := by
  refine congrArg Host.Outcome.next ((ite_not _ _ _).symm.trans (if_congr ?_ rfl ?_)).symm
  · simp [imp_iff_not_or, or_assoc, coreReset]
  · refine if_congr ?_ rfl rfl
    have hover : wfiOver (drawnMie s k.val) k.val = decide (mip s k.val &&& Config.mieBits s.free ≠ 0) := by
      rw [wfiOver, drawnMie_mip, drawnMie_desk]
    exact (decide_eq_true_iff.symm.trans (by rw [← hover]; rfl))

theorem sameCore_of_wfi {d e : Desk} (b : Bool) (h : SameCore { d with wfi := b } e) : SameCore d e := h

/-- A core that waits in its WFI, after the arbitration that follows. -/
theorem wfiSleep_waits {k : Nat} {s : State} (hk : k < 4) (hr : evcRuns s = true) :
    let t := evcSettle (waitingCore s k)
    let m := Config.mieBits s.free
    (∀ j, SameCore (if j = k then { s.desk k with mie := m, asleep := s.bit (DSK_CORE_CFG k) 0 } else s.desk j) (t.desk j))
    ∧ ((t.desk k).wfi = true ↔ s.bit (DSK_CORE_CFG k) 0 = true ∨ mip t k &&& m = 0)
    ∧ (t.evcStop = true ↔ s.bit DSK_CTRL 8 = true ∧ (∀ j, j < 4 → (t.desk j).asleep = true ∧ (t.desk j).wake = false)
      ∧ ∀ x ∈ s.srcs, ¬ (x.2.input = true ∧ srcLevel s x.1 = true ∧ 0 < srcPrio s x.1))
    ∧ SameRegsBut evcRegs s t ∧ { evcBack s t with regs := s.regs } = s.draw := by
  intro t m
  have hw : evcRuns (waitingCore s k) = true := hr
  have hdesk := waitingCore_desk s k
  have hset := coresOnly_evcSettle (waitingCore s k)
  refine ⟨fun j => ?_, ?_, evcSettle_stops hw, fun a ha => evcSettle_reg _ ha, ?_⟩
  · have hsame := sameCore_evcSettle (waitingCore s k) j
    by_cases hj : j = k
    · subst hj
      rw [hdesk] at hsame
      rw [if_pos rfl]
      exact sameCore_of_wfi true hsame
    · rw [waitingCore_desk_ne s hj] at hsame
      rwa [if_neg hj]
  · have hwfi : (t.desk k).wfi = !leavesWfi (waitingCore s k) k := by
      rw [evcSettle_desk hw, if_pos hk, arbitratedDesk_wfi, hdesk]
      exact Bool.true_and _
    rw [hwfi, evcSettle_mip hw hk, leavesWfi, hdesk]
    cases s.bit (DSK_CORE_CFG k) 0 <;> simp [m]
  · exact (congrArg (fun u : State => { u with desks := s.desks }) hset.back :)

/-! ### Waking (R325, R338) -/

/-- The state in which the clock of core `k` runs again. -/
def wakingCore (s : State) (k : Nat) : State := s.setDesk k { s.desk k with asleep := false }

theorem wakingCore_desk (s : State) (k : Nat) : (wakingCore s k).desk k = { s.desk k with asleep := false } := State.desk_setDesk s k _

/-- A core whose clock runs again, after the arbitration that follows. -/
theorem deskWake_wakes {k : Nat} {s : State} (hk : k < 4) (hr : evcRuns s = true) :
    let t := deskWake s k
    let d := s.desk k
    (∀ j, SameCore (if j = k then { d with asleep := false } else s.desk j) (t.desk j)) ∧ t.evcStop = false
    ∧ (d.wfi = true → ((t.desk k).wfi = false ↔ mip t k &&& d.mie ≠ 0) ∧ ((t.desk k).wfi = false → (t.desk k).wake = false))
    ∧ SameRegsBut evcRegs s t ∧ { evcBack s t with regs := s.regs } = s := by
  intro t d
  have ht : t = evcSettle (wakingCore s k) := rfl
  have hw : evcRuns (wakingCore s k) = true := hr
  have hdesk := wakingCore_desk s k
  have honly := (coresOnly_setDesk s k { s.desk k with asleep := false }).trans (coresOnly_evcSettle (wakingCore s k))
  have hcore (j : Nat) : SameCore (if j = k then { d with asleep := false } else s.desk j) (t.desk j) := by
    have hsame := sameCore_evcSettle (wakingCore s k) j
    by_cases hj : j = k
    · subst hj
      rw [if_pos rfl]
      rwa [hdesk] at hsame
    · rw [if_neg hj]
      rwa [show (wakingCore s k).desk j = s.desk j from State.desk_setDesk_ne s _ hj] at hsame
  refine ⟨hcore, ?_, fun hwfi => ?_, honly.regs, honly.back⟩
  · refine Bool.eq_false_iff.mpr fun hstop => ?_
    have hasleep := (((evcSettle_stops hw).mp hstop).2.1 k hk).1
    have hawake := (hcore k).sameTake.2.1
    rw [if_pos rfl] at hawake
    exact absurd (show true = false from hasleep.symm.trans hawake) (by decide)
  · have hleaves : leavesWfi (wakingCore s k) k = decide (mip t k &&& d.mie ≠ 0) := by
      rw [ht, evcSettle_mip hw hk, leavesWfi, hdesk, hwfi]
      rfl
    have hdeskT : t.desk k = arbitratedDesk (wakingCore s k) k := (evcSettle_desk hw k).trans (if_pos hk)
    have hwfiT : (t.desk k).wfi = !leavesWfi (wakingCore s k) k := by
      rw [hdeskT, arbitratedDesk_wfi, hdesk, hwfi]
      exact Bool.true_and _
    refine ⟨?_, fun hno => ?_⟩
    · rw [hwfiT, hleaves]
      simp
    · rw [hdeskT]
      exact arbitratedDesk_wake (by simpa [hno] using hwfiT.symm)

theorem exec_wakeLatch (k : Fin 4) (s : State) : exec (.wakeLatch k) s = .next
    (if evcRuns s = true ∧ (s.desk k.val).asleep = true ∧ (s.desk k.val).wake = true then deskWake s k.val else s) :=
  congrArg Host.Outcome.next (if_congr (by simp [and_assoc]) rfl rfl)

theorem exec_machineTimerExpiry (k : Fin 4) (s : State) : exec (.machineTimerExpiry k) s = .next
    (if evcRuns s = true ∧ (s.desk k.val).wfi = true ∧ timerDue s k.val = true ∧ mip s k.val &&& (s.desk k.val).mie ≠ 0 then deskWake s k.val
    else s) := by
  refine congrArg Host.Outcome.next ?_
  unfold doMachineTimerExpiry deskPending wfiOver
  cases timerDue s k.val
  · simp
  · simp only [if_true]
    exact if_congr (by simp [and_assoc]) rfl rfl

theorem timerDue_iff (s : State) (k : Nat) : timerDue s k = true ↔
    0 ≤ (BitVec.ofNat 64 (s.now / 1000) - BitVec.ofNat 64 (s.pair (DSK_CORE_MTIMECMP_LO k) (DSK_CORE_MTIMECMP_HI k))).toInt :=
  decide_eq_true_iff

theorem mipWith_timer (s : State) (k : Nat) (line : Bool) : bitOf (mipWith s k line) 7 = timerDue s k := by
  unfold mipWith
  generalize s.bit (DSK_CORE_MSIP k) 0 = b
  generalize s.bit (DSK_CORE_CFG k) 1 = c
  cases timerDue s k <;> cases b <;> cases c <;> cases line <;> rfl

end Sys2Proof.Machine

/-!
PROOFS of the desk family: a write of DSK_CTRL, the atomics and fences of a core, and the obligation on desk cores (R320–R325, R338).
-/

namespace Sys2Proof.Machine

/-! ### The run bits as written (R323) -/

theorem writeWord_bit (old v : Word) (rwb : Nat) (i : Nat) (hi : i < 32) (hrw : rwb.testBit i = true) :
    bitOf (writeWord old v rwb 0).toNat i = bitOf v.toNat i := by
  have hall : ~~~(v &&& BitVec.ofNat 32 0) = BitVec.allOnes 32 := by
    rw [show v &&& BitVec.ofNat 32 0 = 0 from BitVec.and_zero]; rfl
  have hbit : (BitVec.ofNat 32 rwb).getLsbD i = true := by rw [BitVec.getLsbD_ofNat, hrw, decide_eq_true hi]; rfl
  rw [bitOf_eq_testBit, bitOf_eq_testBit, BitVec.testBit_toNat, BitVec.testBit_toNat, writeWord, hall, BitVec.and_allOnes,
    BitVec.getLsbD_or, BitVec.getLsbD_and, BitVec.getLsbD_and, BitVec.getLsbD_not, hbit]
  simp

theorem dskCtrl_row : (rowAt DSK_CTRL).map (fun r => (r.rw, r.w1c)) = some (0x10F, 0) := by decide +kernel

theorem dskCtrl_runBit (s : State) (v : Word) {k : Nat} (hk : k < 4) : (plainWrite s DSK_CTRL v).bit DSK_CTRL k = bitOf v.toNat k := by
  obtain ⟨r, hr, hrow⟩ := Option.map_eq_some_iff.mp dskCtrl_row
  obtain ⟨hrw, hw1c⟩ := Prod.mk.inj hrow
  have hbits : writeBits s DSK_CTRL r = 0x10F := by
    unfold writeBits DSK_CTRL
    exact hrw
  unfold plainWrite
  rw [hr]
  dsimp only
  rw [hbits, hw1c]
  unfold State.bit
  rw [State.reg_setReg_same]
  refine writeWord_bit _ _ _ _ (by omega) ?_
  obtain rfl | rfl | rfl | rfl : k = 0 ∨ k = 1 ∨ k = 2 ∨ k = 3 := by omega
  all_goals decide

/-! ### One core's start, reset or neither -/

/-- What the run bits make of core `k`: started, reset or left. -/
def runStep (old v : Word) (s : State) (k : Nat) : State :=
  if bitOf v.toNat k && !bitOf old.toNat k then deskStart s k
  else if bitOf old.toNat k && !bitOf v.toNat k then deskReset s k
  else s

theorem deskRun_runs {v : Word} {s : State} (hr : evcRuns s = true) :
    deskRun v s = evcSettle ((plainWrite s DSK_CTRL v).each 4 (runStep (s.reg DSK_CTRL) v)) := if_neg (by simp [hr])

theorem deskRun_still {v : Word} {s : State} (hr : evcRuns s = false) : deskRun v s = s := if_pos (by simp [hr])

/-- A core taken from reset anew, but for what the concentrator keeps of it. -/
def freshDesk (d : Desk) : Desk := { eoiErr := d.eoiErr }

theorem deskFresh_desk (s : State) (k : Nat) : SameCore (freshDesk (s.desk k)) ((deskFresh s k).desk k) ∧ ((deskFresh s k).desk k).wfi = false := by
  have h : (deskFresh s k).desk k = _ := State.desk_setDesk s k { signalled := (s.desk k).signalled, eoiErr := (s.desk k).eoiErr }
  rw [h]
  exact ⟨rfl, rfl⟩

theorem deskFresh_desk_ne (s : State) {j k : Nat} (h : j ≠ k) : (deskFresh s k).desk j = s.desk j := State.desk_setDesk_ne s _ h

/-- Completing what was on a stack touches no core and no register. -/
theorem foldl_srcComplete (es : List (Nat × Nat)) (s : State) : (es.foldl (fun s e => srcComplete s e.1) s).desks = s.desks
    ∧ (es.foldl (fun s e => srcComplete s e.1) s).regs = s.regs ∧ BackOnly s (es.foldl (fun s e => srcComplete s e.1) s) := by
  induction es generalizing s with
  | nil => exact ⟨rfl, rfl, rfl⟩
  | cons e es ih =>
    obtain ⟨hdesks, hregs, hback⟩ := ih (srcComplete s e.1)
    exact ⟨hdesks.trans (srcComplete_desks s e.1), hregs.trans (srcComplete_regs s e.1), (evcOnly_srcComplete s e.1).backOnly.trans hback⟩

/-- What the step of core `k` leaves of another core and its state word, and of all else. -/
structure StepKeeps (s t : State) (k : Nat) : Prop where
  desks : ∀ j, j ≠ k → SameCore (s.desk j) (t.desk j) ∧ ((s.desk j).wfi = false → (t.desk j).wfi = false)
  regs  : SameRegsBut (DSK_CORE_STATUS k :: evcRegs) s t
  back  : BackOnly s t

theorem stepKeeps_settle {s u : State} {k : Nat} (hdesks : ∀ j, j ≠ k → u.desk j = s.desk j)
    (hregs : SameRegsBut (DSK_CORE_STATUS k :: evcRegs) s u) (hback : BackOnly s u) : StepKeeps s (evcSettle u) k where
  desks j hj := by
    have hsame := sameCore_evcSettle u j
    rw [hdesks j hj] at hsame
    exact ⟨hsame, fun h => evcSettle_wfi (by rw [hdesks j hj]; exact h)⟩
  regs := hregs.trans (evcSettle_others (List.subset_cons_self _ _) u)
  back := hback.trans (evcOnly_evcSettle u).backOnly

theorem status_not_evcRegs (k : Nat) : DSK_CORE_STATUS k ∉ evcRegs := desk_regs_not_evcRegs (by unfold DSK_CORE_STATUS; omega)

section Step

variable (s : State) (k : Nat)

theorem backOnly_deskFresh : BackOnly s (deskFresh s k) := (evcOnly_setDesk s k _).backOnly

/-- A core that starts: anew, its start counted. -/
theorem deskStart_starts : StepKeeps s (deskStart s k) k ∧ SameCore (freshDesk (s.desk k)) ((deskStart s k).desk k)
    ∧ ((deskStart s k).desk k).wfi = false ∧ (deskStart s k).reg (DSK_CORE_STATUS k) = (s.wrapInc (DSK_CORE_STATUS k) 16 16).reg (DSK_CORE_STATUS k) := by
  obtain ⟨hfresh, hwfi⟩ := deskFresh_desk s k
  have hsame := sameCore_evcSettle ((deskFresh s k).wrapInc (DSK_CORE_STATUS k) 16 16) k
  refine ⟨stepKeeps_settle (fun j hj => deskFresh_desk_ne s hj) ?_ ?_, hfresh.trans hsame, evcSettle_wfi hwfi, evcSettle_reg _ (status_not_evcRegs k)⟩
  · exact fun a ha => State.reg_setReg_ne (deskFresh s k) _ fun e => ha (by simp [e])
  · exact (backOnly_deskFresh s k).trans (backOnly_setReg (deskFresh s k) _ _)

/-- A core that is reset: anew, its state word as it was. -/
theorem deskReset_resets : StepKeeps s (deskReset s k) k ∧ SameCore (freshDesk (s.desk k)) ((deskReset s k).desk k)
    ∧ ((deskReset s k).desk k).wfi = false ∧ (deskReset s k).reg (DSK_CORE_STATUS k) = s.reg (DSK_CORE_STATUS k) := by
  obtain ⟨hdesks, hregs, hback⟩ := foldl_srcComplete (s.desk k).stack s
  unfold deskReset
  dsimp only
  generalize (s.desk k).stack.foldl (fun s e => srcComplete s e.1) s = u at hdesks hregs hback ⊢
  have hdesk (j : Nat) : u.desk j = s.desk j := congrArg (tget _ · j) hdesks
  obtain ⟨hfresh, hwfi⟩ := deskFresh_desk u k
  rw [hdesk k] at hfresh
  have hreg (a : Nat) : (deskFresh u k).reg a = s.reg a := congrArg (tget regReset · a) hregs
  refine ⟨stepKeeps_settle (fun j hj => (deskFresh_desk_ne u hj).trans (hdesk j)) (fun a _ => hreg a) (hback.trans (backOnly_deskFresh u k)),
    hfresh.trans (sameCore_evcSettle _ k), evcSettle_wfi hwfi, (evcSettle_reg _ (status_not_evcRegs k)).trans (hreg _)⟩

end Step

section Run

variable (old v : Word)

/-- Whether the write takes core `k` from reset or into it. -/
def runMoves (k : Nat) : Bool := bitOf v.toNat k != bitOf old.toNat k

/-- What a write of the run bits makes of core `k` and of its state word. -/
def ranDesk (k : Nat) (d : Desk) : Desk := if runMoves old v k then freshDesk d else d

def ranStatus (s : State) (k : Nat) : Word :=
  if bitOf v.toNat k && !bitOf old.toNat k then (s.wrapInc (DSK_CORE_STATUS k) 16 16).reg (DSK_CORE_STATUS k) else s.reg (DSK_CORE_STATUS k)

theorem runStep_runs (s : State) (k : Nat) : StepKeeps s (runStep old v s k) k
    ∧ SameCore (ranDesk old v k (s.desk k)) ((runStep old v s k).desk k)
    ∧ ((runMoves old v k = true ∨ (s.desk k).wfi = false) → ((runStep old v s k).desk k).wfi = false)
    ∧ (runStep old v s k).reg (DSK_CORE_STATUS k) = ranStatus old v s k := by
  unfold runStep ranDesk ranStatus runMoves
  cases bitOf v.toNat k <;> cases bitOf old.toNat k
  · exact ⟨⟨fun j _ => ⟨.refl _, id⟩, fun _ _ => rfl, rfl⟩, .refl _, fun h => h.resolve_left (by decide), rfl⟩
  · obtain ⟨hkeeps, hfresh, hwfi, hreg⟩ := deskReset_resets s k
    exact ⟨hkeeps, hfresh, fun _ => hwfi, hreg⟩
  · obtain ⟨hkeeps, hfresh, hwfi, hreg⟩ := deskStart_starts s k
    exact ⟨hkeeps, hfresh, fun _ => hwfi, hreg⟩
  · exact ⟨⟨fun j _ => ⟨.refl _, id⟩, fun _ _ => rfl, rfl⟩, .refl _, fun h => h.resolve_left (by decide), rfl⟩

theorem status_ne {j k : Nat} (h : j ≠ k) : DSK_CORE_STATUS j ≠ DSK_CORE_STATUS k := by
  unfold DSK_CORE_STATUS; omega

/-- The cores below `n` have taken their steps, the others none. -/
structure RanTo (n : Nat) (s t : State) : Prop where
  desks  : ∀ k, SameCore (if k < n then ranDesk old v k (s.desk k) else s.desk k) (t.desk k)
  wfi    : ∀ k, (k < n ∧ runMoves old v k = true ∨ (s.desk k).wfi = false) → (t.desk k).wfi = false
  status : ∀ k, t.reg (DSK_CORE_STATUS k) = if k < n then ranStatus old v s k else s.reg (DSK_CORE_STATUS k)
  regs   : ∀ a, (∀ k, k < n → a ≠ DSK_CORE_STATUS k) → a ∉ evcRegs → t.reg a = s.reg a
  back   : BackOnly s t

theorem ranTo_each (s : State) (n : Nat) : RanTo old v n s (s.each n (runStep old v)) := by
  induction n with
  | zero => exact ⟨fun k => .refl _, fun k h => h.resolve_left (by simp), fun k => rfl, fun a _ _ => rfl, rfl⟩
  | succ n ih =>
    have hsucc : s.each (n + 1) (runStep old v) = runStep old v (s.each n (runStep old v)) n := by
      simp [State.each, List.range_succ]
    rw [hsucc]
    generalize s.each n (runStep old v) = t at ih ⊢
    obtain ⟨hkeeps, hdesk, hwfi, hstatus⟩ := runStep_runs old v t n
    have hn : SameCore (s.desk n) (t.desk n) := by
      have := ih.desks n
      rwa [if_neg (Nat.lt_irrefl n)] at this
    refine ⟨fun k => ?_, fun k hk => ?_, fun k => ?_, fun a ha hevc => ?_, ih.back.trans hkeeps.back⟩
    · by_cases hk : k = n
      · subst hk
        rw [if_pos (Nat.lt_succ_self k)]
        refine SameCore.trans ?_ hdesk
        unfold ranDesk
        split
        · have heoi : (t.desk k).eoiErr = (s.desk k).eoiErr := (congrArg Desk.eoiErr hn :)
          have hfresh : freshDesk (t.desk k) = freshDesk (s.desk k) := congrArg (fun b => ({ eoiErr := b } : Desk)) heoi
          rw [hfresh]
          exact .refl _
        · exact hn
      · have hbelow : (if k < n + 1 then ranDesk old v k (s.desk k) else s.desk k) = if k < n then ranDesk old v k (s.desk k) else s.desk k :=
          if_congr (by omega) rfl rfl
        rw [hbelow]
        exact (ih.desks k).trans (hkeeps.desks k hk).1
    · by_cases hkn : k = n
      · subst hkn
        exact hwfi (hk.imp (·.2) fun h => ih.wfi k (.inr h))
      · exact (hkeeps.desks k hkn).2 (ih.wfi k (hk.imp_left fun h => ⟨by omega, h.2⟩))
    · by_cases hk : k = n
      · subst hk
        rw [if_pos (Nat.lt_succ_self k), hstatus]
        have hreg : t.reg (DSK_CORE_STATUS k) = s.reg (DSK_CORE_STATUS k) := by
          rw [ih.status k, if_neg (Nat.lt_irrefl k)]
        unfold ranStatus State.wrapInc State.setFld State.fld
        rw [State.reg_setReg_same, State.reg_setReg_same, hreg]
      · rw [hkeeps.regs _ (by simp [status_ne hk, status_not_evcRegs k]), ih.status k]
        exact if_congr (by omega) rfl rfl
    · rw [hkeeps.regs a (by simp [ha n (Nat.lt_succ_self n), hevc]), ih.regs a (fun k hk => ha k (by omega)) hevc]

end Run

end Sys2Proof.Machine

/-!
PROOFS of the desk family: the atomics and fences of a core (R320–R322), and the obligation on desk cores.
-/

namespace Sys2Proof.Machine

/-! ### What the atomics and fences of a core do (R321, R322) -/

theorem noteParts_denied {s : State} {a : Access} {t : AccType} {n len g x : Nat} (h : memDec s a t n = (.denied, g, x)) :
    noteParts (raiseN 3) a t s [(n, len)] = violation s g a t n x := by
  unfold noteParts violation
  rw [List.foldl_cons, List.foldl_nil]
  dsimp only
  rw [h]

section Atomic

variable {s : State} {h : HeldAcc}

theorem coreAtomic_outside (ht : targetOf s h.addr ≠ 6) : coreAtomic s h = s.answer [] (some .storeFault) := if_pos (by simpa using ht)

theorem coreAtomic_waits (ht : targetOf s h.addr = 6) (hw : partWaits s h (h.addr, h.len) = true) : coreAtomic s h = waitAt s h :=
  (if_neg (by simp [ht])).trans (if_pos hw)

variable (ht : targetOf s h.addr = 6) (hw : partWaits s h (h.addr, h.len) = false)
include ht hw

theorem coreAtomic_amo {op : AmoOp} {aq rl : Bool} (hc : h.core = .amo op aq rl) : coreAtomic s h =
    if (memDec s h.acc .r h.addr).1 != .ok then (noteParts (raiseN 3) h.acc .r s [(h.addr, h.len)]).answer [] (some .storeFault)
    else if (memDec s h.acc .w h.addr).1 != .ok then (noteParts (raiseN 3) h.acc .w s [(h.addr, h.len)]).answer [] (some .storeFault)
    else ((snoop h.acc h.addr h.len s).storeN h.addr h.len (amoValue op h.len (leNat (s.load h.addr h.len)) (leNat h.data))).answer
      (s.load h.addr h.len) := by
  unfold coreAtomic
  dsimp only
  rw [if_neg (by simp [ht]), if_neg (by simp [hw]), hc]

theorem coreAtomic_lr {aq rl : Bool} (hc : h.core = .lr aq rl) : coreAtomic s h =
    if (memDec s h.acc .r h.addr).1 != .ok then (noteParts (raiseN 3) h.acc .r s [(h.addr, h.len)]).answer [] (some .loadFault)
    else (s.setDesk (h.acc.src.toNat - 8) { s.desk (h.acc.src.toNat - 8) with resv := some (h.addr, h.len) }).answer (s.load h.addr h.len) := by
  unfold coreAtomic
  dsimp only
  rw [if_neg (by simp [ht]), if_neg (by simp [hw]), hc]

/-- The state in which core `k` holds no reservation, after a draw. -/
def unreserved (s : State) (k : Nat) : State := (s.setDesk k { s.desk k with resv := none }).draw

theorem coreAtomic_sc {aq rl : Bool} (hc : h.core = .sc aq rl) : coreAtomic s h =
    if (memDec s h.acc .w h.addr).1 != .ok then (noteParts (raiseN 3) h.acc .w s [(h.addr, h.len)]).answer [] (some .storeFault)
    else if (s.desk (h.acc.src.toNat - 8)).resv == some (h.addr, h.len) && Config.scSucceeds s.free then
      ((snoop h.acc h.addr h.len (unreserved s (h.acc.src.toNat - 8))).store h.addr h.data).answer (leBytes h.len 0)
    else (unreserved s (h.acc.src.toNat - 8)).answer (leBytes h.len 1) := by
  unfold coreAtomic unreserved
  dsimp only
  rw [if_neg (by simp [ht]), if_neg (by simp [hw]), hc]

end Atomic

section Exec

variable {a : Access} {c : CoreOp} {t : AccType} {addr : BitVec 40} {len : Nat} {data : Bytes} {s : State}

theorem exec_coreOp_cannot (h : canAccess (modeDrawn s a) a false addr.toNat = false) :
    exec (.initiatorMemoryAccess a ⟨false, c, t⟩ addr len data) s = .next s := congrArg Host.Outcome.next (if_pos (by simp [h]))

variable (hcore : s.ctl.core = true) (hdesk : fromDesk a = true) (hcan : canAccess (modeDrawn s a) a false addr.toNat = true)
include hcore hdesk hcan

theorem exec_coreFence {pred succ : BitVec 4} (hc : c = .fence pred succ) : exec (.initiatorMemoryAccess a ⟨false, c, t⟩ addr len data) s =
    .next (coreFence (modeDrawn s a) { acc := a, typ := t, addr := addr.toNat, len := 0, core := c }) := by
  subst hc
  exact congrArg Host.Outcome.next (if_neg (by simp [hcan, hcore, hdesk]))

theorem exec_coreAtomic (hplain : c ≠ .plain) (hfence : ∀ pred succ, c ≠ .fence pred succ) :
    exec (.initiatorMemoryAccess a ⟨false, c, t⟩ addr len data) s =
      .next (coreAtomic (modeDrawn s a) { acc := a, typ := t, addr := addr.toNat, len := len, data := sliceB data 0 len, core := c }) := by
  refine congrArg Host.Outcome.next ((if_neg (by simp [hcan, hcore, hdesk])).trans ?_)
  cases c with
  | plain => exact absurd rfl hplain
  | fence pred succ => exact absurd rfl (hfence pred succ)
  | amo op aq rl => rfl
  | lr aq rl => rfl
  | sc aq rl => rfl

end Exec

theorem modeDrawn_load (s : State) (a : Access) (n len : Nat) : (modeDrawn s a).load n len = s.load n len := by
  obtain ⟨d, f, h⟩ := modeDrawn_eq s a
  rw [h]
  rfl

/-! ### Stores by others end a reservation (R322) -/

/-- What a store of other bytes leaves of a core's reservation. -/
def snooped (a : Access) (n len k : Nat) (d : Desk) : Desk :=
  match d.resv with
  | some r => if a.src.toNat ≠ 8 + k ∧ r.1 < n + len ∧ n < r.1 + r.2 then { d with resv := none } else d
  | none => d

/-- One core's part of a store. -/
def snoopCore (a : Access) (n len : Nat) (s : State) (k : Nat) : State :=
  match (s.desk k).resv with
  | some r => if a.src.toNat ≠ 8 + k ∧ r.1 < n + len ∧ n < r.1 + r.2 then s.setDesk k { s.desk k with resv := none } else s
  | none => s

theorem snoop_eq (a : Access) (n len : Nat) (s : State) : snoop a n len s = s.each 4 (snoopCore a n len) := rfl

theorem snoopCore_snoops (a : Access) (n len : Nat) (s : State) (k : Nat) : { snoopCore a n len s k with desks := s.desks } = s
    ∧ (snoopCore a n len s k).desk k = snooped a n len k (s.desk k) ∧ ∀ j, j ≠ k → (snoopCore a n len s k).desk j = s.desk j := by
  unfold snoopCore snooped
  cases hresv : (s.desk k).resv with
  | none => exact ⟨rfl, rfl, fun _ _ => rfl⟩
  | some r =>
    dsimp only
    split
    · exact ⟨rfl, State.desk_setDesk s k _, fun j hj => State.desk_setDesk_ne s _ hj⟩
    · exact ⟨rfl, rfl, fun _ _ => rfl⟩

theorem snoop_each (a : Access) (n len : Nat) (s : State) (m : Nat) : { s.each m (snoopCore a n len) with desks := s.desks } = s
    ∧ ∀ j, (s.each m (snoopCore a n len)).desk j = if j < m then snooped a n len j (s.desk j) else s.desk j := by
  induction m with
  | zero => exact ⟨rfl, fun j => rfl⟩
  | succ m ih =>
    have hsucc : s.each (m + 1) (snoopCore a n len) = snoopCore a n len (s.each m (snoopCore a n len)) m := by
      simp [State.each, List.range_succ]
    rw [hsucc]
    generalize s.each m (snoopCore a n len) = t at ih ⊢
    obtain ⟨hback, hdesks⟩ := ih
    obtain ⟨hkept, hown, hothers⟩ := snoopCore_snoops a n len t m
    refine ⟨(congrArg (fun u : State => { u with desks := s.desks }) hkept).trans hback, fun j => ?_⟩
    by_cases hj : j = m
    · subst hj
      rw [hown, hdesks j, if_neg (Nat.lt_irrefl j), if_pos (Nat.lt_succ_self j)]
    · rw [hothers j hj, hdesks j]
      exact if_congr (by omega) rfl rfl

/-! ### The clauses of a write of DSK_CTRL -/

theorem exec_dskRunWrite {a : Access} {v : Word} {s : State} (h : Reaches s a .w DSK_CTRL) : exec (.dskRunWrite a v) s = .next (deskRun v s) :=
  congrArg Host.Outcome.next (regAccess_go h)

/-- What a write of the run bits leaves, core by core. -/
theorem deskRun_core {v : Word} {s : State} (hr : evcRuns s = true) {k : Nat} (hk : k < 4) :
    SameCore (ranDesk (s.reg DSK_CTRL) v k (s.desk k)) ((deskRun v s).desk k)
    ∧ ((runMoves (s.reg DSK_CTRL) v k = true ∨ (s.desk k).wfi = false) → ((deskRun v s).desk k).wfi = false)
    ∧ (deskRun v s).reg (DSK_CORE_STATUS k) = ranStatus (s.reg DSK_CTRL) v s k := by
  have hran := ranTo_each (s.reg DSK_CTRL) v (plainWrite s DSK_CTRL v) 4
  have hdesk : (plainWrite s DSK_CTRL v).desk k = s.desk k := (congrArg (State.desk · k) (plainWrite_back s DSK_CTRL v) :)
  have hreg : (plainWrite s DSK_CTRL v).reg (DSK_CORE_STATUS k) = s.reg (DSK_CORE_STATUS k) :=
    plainWrite_others s DSK_CTRL v _ (by unfold DSK_CORE_STATUS DSK_CTRL; simp only [List.mem_singleton]; omega)
  have hstatus : ranStatus (s.reg DSK_CTRL) v (plainWrite s DSK_CTRL v) k = ranStatus (s.reg DSK_CTRL) v s k := by
    unfold ranStatus State.wrapInc State.setFld State.fld
    rw [State.reg_setReg_same, State.reg_setReg_same, hreg]
  rw [deskRun_runs hr]
  have hcore := hran.desks k
  have hwfi := hran.wfi k
  have hword := hran.status k
  generalize (plainWrite s DSK_CTRL v).each 4 (runStep (s.reg DSK_CTRL) v) = t at hcore hwfi hword ⊢
  rw [if_pos hk, hdesk] at hcore
  rw [if_pos hk, hstatus] at hword
  rw [hdesk] at hwfi
  exact ⟨hcore.trans (sameCore_evcSettle t k), fun h => evcSettle_wfi (hwfi (h.imp_left fun h => ⟨hk, h⟩)),
    (evcSettle_reg t (status_not_evcRegs k)).trans hword⟩

/-- What a write of the run bits leaves of all else. -/
theorem deskRun_others {v : Word} {s : State} (hr : evcRuns s = true) : (deskRun v s).reg DSK_CTRL = (plainWrite s DSK_CTRL v).reg DSK_CTRL
    ∧ SameRegsBut (DSK_CTRL :: evcRegs ++ (List.range 4).map DSK_CORE_STATUS) s (deskRun v s) ∧ BackOnly s (deskRun v s) := by
  have hran := ranTo_each (s.reg DSK_CTRL) v (plainWrite s DSK_CTRL v) 4
  have hplain := plainWrite_others s DSK_CTRL v
  have hback : BackOnly s (plainWrite s DSK_CTRL v) :=
    (congrArg (fun u : State => { evcBack s u with regs := s.regs, srcs := s.srcs }) (plainWrite_back s DSK_CTRL v) :)
  rw [deskRun_runs hr]
  generalize (plainWrite s DSK_CTRL v).each 4 (runStep (s.reg DSK_CTRL) v) = t at hran ⊢
  refine ⟨?_, fun a ha => ?_, hback.trans (hran.back.trans (evcOnly_evcSettle t).backOnly)⟩
  · rw [evcSettle_reg t (by decide), hran.regs DSK_CTRL (fun k _ => by unfold DSK_CTRL DSK_CORE_STATUS; omega) (by decide)]
  · simp only [List.cons_append, List.mem_cons, List.mem_append, List.mem_map, List.mem_range, not_or, not_exists, not_and] at ha
    obtain ⟨hctrl, hevc, hstatus⟩ := ha
    rw [evcSettle_reg t hevc, hran.regs a (fun k hk => Ne.symm (hstatus k hk)) hevc, hplain a (by simpa using hctrl)]

theorem coreReset_deskRun {v : Word} {s : State} (hr : evcRuns s = true) {k : Nat} (hk : k < 4) :
    coreReset (deskRun v s) k = !bitOf v.toNat k :=
  congrArg (!·) ((State.bit_congr (deskRun_others hr).1 k).trans (dskCtrl_runBit s v hk))

/-- A core whose run bit rises, falls or stays (R323). -/
theorem deskRun_bits {v : Word} {s : State} (hr : evcRuns s = true) {k : Nat} (hk : k < 4) :
    let t := deskRun v s
    (bitOf v.toNat k = true → s.bit DSK_CTRL k = false → SameCore (freshDesk (s.desk k)) (t.desk k) ∧ (t.desk k).wfi = false ∧ coreReset t k = false
      ∧ t.fld (DSK_CORE_STATUS k) 16 16 = (s.fld (DSK_CORE_STATUS k) 16 16 + 1) % 2 ^ 16 ∧ t.fld (DSK_CORE_STATUS k) 0 16 = s.fld (DSK_CORE_STATUS k) 0 16)
    ∧ (bitOf v.toNat k = false → s.bit DSK_CTRL k = true → SameCore (freshDesk (s.desk k)) (t.desk k) ∧ (t.desk k).wfi = false ∧ coreReset t k = true
      ∧ t.reg (DSK_CORE_STATUS k) = s.reg (DSK_CORE_STATUS k))
    ∧ (bitOf v.toNat k = s.bit DSK_CTRL k → SameCore (s.desk k) (t.desk k) ∧ t.reg (DSK_CORE_STATUS k) = s.reg (DSK_CORE_STATUS k)) := by
  intro t
  obtain ⟨hcore, hwfi, hword⟩ := deskRun_core (v := v) hr hk
  have hreset := coreReset_deskRun (v := v) hr hk
  have hbit : s.bit DSK_CTRL k = bitOf (s.reg DSK_CTRL).toNat k := rfl
  rw [hbit]
  unfold ranDesk runMoves at hcore
  unfold runMoves at hwfi
  unfold ranStatus at hword
  generalize bitOf v.toNat k = now at hcore hwfi hword hreset ⊢
  generalize bitOf (s.reg DSK_CTRL).toNat k = was at hcore hwfi hword ⊢
  cases now <;> cases was
  · exact ⟨fun h => absurd h (by decide), fun _ h => absurd h (by decide), fun _ => ⟨hcore, hword⟩⟩
  · exact ⟨fun h => absurd h (by decide), fun _ _ => ⟨hcore, hwfi (.inl rfl), hreset, hword⟩, fun h => absurd h (by decide)⟩
  · refine ⟨fun _ _ => ⟨hcore, hwfi (.inl rfl), hreset, ?_, ?_⟩, fun h => absurd h (by decide), fun h => absurd h (by decide)⟩
    · exact (State.fld_congr hword 16 16).trans (State.fld_setFld_same s _ _ (by omega))
    · exact (State.fld_congr hword 0 16).trans (State.fld_setFld_beside s _ _ (by omega) (by omega))
  · exact ⟨fun _ h => absurd h (by decide), fun h => absurd h (by decide), fun _ => ⟨hcore, hword⟩⟩

/-! ### The clauses of the atomics and fences -/

/-- An AMO, LR or SC in desk SRAM that no gate holds. -/
theorem atomic_done {a : Access} {c : CoreOp} {t : AccType} {n len : Nat} {data : Bytes} {s : State} (ht : targetOf s n = 6)
    (hw : partWaits s { acc := a, typ := t, addr := n, len := len, data := sliceB data 0 len, core := c } (n, len) = false) :
    let h : HeldAcc := { acc := a, typ := t, addr := n, len := len, data := sliceB data 0 len, core := c }
    let k := a.src.toNat - 8
    (∀ op aq rl, c = .amo op aq rl →
      (∀ g x, memDec s a .r n = (.denied, g, x) → coreAtomic s h = (violation s g a .r n x).answer [] (some .storeFault))
      ∧ ((memDec s a .r n).1 = .ok → ∀ g x, memDec s a .w n = (.denied, g, x) → coreAtomic s h = (violation s g a .w n x).answer [] (some .storeFault))
      ∧ ((memDec s a .r n).1 = .ok → (memDec s a .w n).1 = .ok → coreAtomic s h =
        ((snoop a n len s).storeN n len (amoValue op len (leNat (s.load n len)) (leNat (sliceB data 0 len)))).answer (s.load n len)))
    ∧ (∀ aq rl, c = .lr aq rl →
      (∀ g x, memDec s a .r n = (.denied, g, x) → coreAtomic s h = (violation s g a .r n x).answer [] (some .loadFault))
      ∧ ((memDec s a .r n).1 = .ok → coreAtomic s h = (s.setDesk k { s.desk k with resv := some (n, len) }).answer (s.load n len)))
    ∧ (∀ aq rl, c = .sc aq rl →
      (∀ g x, memDec s a .w n = (.denied, g, x) → coreAtomic s h = (violation s g a .w n x).answer [] (some .storeFault))
      ∧ ((memDec s a .w n).1 = .ok →
        ((s.desk k).resv ≠ some (n, len) → coreAtomic s h = (unreserved s k).answer (leBytes len 1))
        ∧ ((s.desk k).resv = some (n, len) → coreAtomic s h = if Config.scSucceeds s.free then
          ((snoop a n len (unreserved s k)).store n (sliceB data 0 len)).answer (leBytes len 0) else (unreserved s k).answer (leBytes len 1)))) := by
  intro h k
  refine ⟨fun op aq rl hc => ?_, fun aq rl hc => ?_, fun aq rl hc => ?_⟩
  · rw [coreAtomic_amo (h := h) ht hw hc]
    refine ⟨fun g x hd => ?_, fun hr g x hd => ?_, fun hr hwr => ?_⟩
    · rw [if_pos (by rw [hd]; rfl), noteParts_denied hd]
    · rw [if_neg (by rw [hr]; decide), if_pos (by rw [hd]; rfl), noteParts_denied hd]
    · rw [if_neg (by rw [hr]; decide), if_neg (by rw [hwr]; decide)]
  · rw [coreAtomic_lr (h := h) ht hw hc]
    refine ⟨fun g x hd => ?_, fun hr => ?_⟩
    · rw [if_pos (by rw [hd]; rfl), noteParts_denied hd]
    · rw [if_neg (by rw [hr]; decide)]
  · rw [coreAtomic_sc (h := h) ht hw hc]
    refine ⟨fun g x hd => ?_, fun hwr => ⟨fun hno => ?_, fun hyes => ?_⟩⟩
    · rw [if_pos (by rw [hd]; rfl), noteParts_denied hd]
    · rw [if_neg (by rw [hwr]; decide), if_neg (by simp [h, k, hno])]
    · rw [if_neg (by rw [hwr]; decide)]
      refine if_congr ?_ rfl rfl
      rw [hyes]
      simp [h]

/-! ### The obligation -/

/-- Settles O44: a write of the run bits core by core, sleep and wake by the arbitration that follows, the atomics by their gates. -/
theorem deskCores : Obligations.DeskCores := by
  unfold Obligations.DeskCores
  refine ⟨fun a v s h hr => ?_, fun a v s h hr => ?_, fun k s => ⟨fun hsleep => ?_, fun hno => ?_, ⟨fun hr hasleep hwake => ?_, fun hno => ?_,
    fun hr hwfi hdue hmip => ?_, fun hno => ?_, timerDue_iff s k.val, mipWith_timer s k.val _⟩⟩,
    fun a c t addr len data s hcore hdesk hplain => ⟨exec_coreOp_cannot, fun hcan => ⟨fun pred succ hc => ?_, fun hfence => ?_⟩⟩,
    fun a n len s k hk => ⟨?_, (snoop_each a n len s 4).1⟩⟩
  case refine_1 => rw [exec_dskRunWrite h, deskRun_still hr]
  case refine_2 =>
    obtain ⟨hctrl, hregs, hback⟩ := deskRun_others (v := v) hr
    exact ⟨_, exec_dskRunWrite h, hctrl, hregs, hback, fun k hk => deskRun_bits hr hk⟩
  case refine_3 =>
    rw [exec_wfiSleep, if_pos hsleep]
    by_cases hmip : mip s k.val &&& Config.mieBits s.free = 0
    · exact ⟨_, congrArg Host.Outcome.next (if_neg (not_not.mpr hmip)), fun h => absurd hmip h, fun _ => wfiSleep_waits k.isLt hsleep.1⟩
    · exact ⟨_, congrArg Host.Outcome.next (if_pos hmip), fun _ => rfl, fun h => absurd h hmip⟩
  case refine_4 => exact (exec_wfiSleep k s).trans (congrArg Host.Outcome.next (if_neg hno))
  case refine_5 => exact ⟨_, (exec_wakeLatch k s).trans (congrArg Host.Outcome.next (if_pos ⟨hr, hasleep, hwake⟩)), deskWake_wakes k.isLt hr⟩
  case refine_6 =>
    refine (exec_wakeLatch k s).trans (congrArg Host.Outcome.next (if_neg fun ⟨hr, hasleep, hwake⟩ => ?_))
    rcases hno with hno | hno | hno
    · exact hno hr
    · exact absurd (hasleep.symm.trans hno) (by decide)
    · exact absurd (hwake.symm.trans hno) (by decide)
  case refine_7 =>
    have hwoken := deskWake_wakes k.isLt hr
    refine ⟨_, (exec_machineTimerExpiry k s).trans (congrArg Host.Outcome.next (if_pos ⟨hr, hwfi, hdue, hmip⟩)), hwoken, fun hmie => ?_⟩
    obtain ⟨-, -, hleaves, -⟩ := hwoken
    refine (hleaves hwfi).1.mpr fun hzero => ?_
    have htimer : bitOf (mip (deskWake s k.val) k.val) 7 = true :=
      (mipWith_timer _ _ _).trans ((evcSettle_timerDue (wakingCore s k.val) k.val).trans hdue)
    rw [bitOf_eq_testBit] at htimer hmie
    have hbit := congrArg (Nat.testBit · 7) hzero
    simp [Nat.testBit_and, htimer, hmie] at hbit
  case refine_8 =>
    refine (exec_machineTimerExpiry k s).trans (congrArg Host.Outcome.next (if_neg fun ⟨hr, hwfi, hdue, hmip⟩ => ?_))
    rcases hno with hno | hno | hno | hno
    · exact hno hr
    · exact absurd (hwfi.symm.trans hno) (by decide)
    · exact absurd (hdue.symm.trans hno) (by decide)
    · exact hmip hno
  case refine_9 => subst hc; exact exec_coreFence hcore hdesk hcan rfl
  case refine_10 =>
    rw [exec_coreAtomic hcore hdesk hcan hplain hfence, ← modeDrawn_load s a]
    refine ⟨fun ht => congrArg Host.Outcome.next (coreAtomic_outside ht), fun ht hw => congrArg Host.Outcome.next (coreAtomic_waits ht hw),
      fun ht hw => ?_⟩
    obtain ⟨hamo, hlr, hsc⟩ := atomic_done ht hw
    refine ⟨fun op aq rl hc => ?_, fun aq rl hc => ?_, fun aq rl hc => ?_⟩
    · obtain ⟨hread, hwrite, hdone⟩ := hamo op aq rl hc
      exact ⟨fun g x hd => congrArg _ (hread g x hd), fun hr g x hd => congrArg _ (hwrite hr g x hd), fun hr hwr => congrArg _ (hdone hr hwr)⟩
    · obtain ⟨hread, hdone⟩ := hlr aq rl hc
      exact ⟨fun g x hd => congrArg _ (hread g x hd), fun hr => congrArg _ (hdone hr)⟩
    · obtain ⟨hwrite, hdone⟩ := hsc aq rl hc
      exact ⟨fun g x hd => congrArg _ (hwrite g x hd), fun hwr => ⟨fun hno => congrArg _ ((hdone hwr).1 hno), fun hyes => congrArg _ ((hdone hwr).2 hyes)⟩⟩
  case refine_11 =>
    rw [snoop_eq, (snoop_each a n len s 4).2 k, if_pos hk]
    rfl

end Sys2Proof.Machine

/-!
PROOFS of the compression family: CRC_RUN from acceptance to its result (R415–R419).
-/

namespace Sys2Proof.Machine

/-! ### Acceptance (R417) -/

/-- Whether a CRC_RUN's parameters are out of their ranges. -/
def crcBad (q : Req) : Bool :=
  (decide (7 < q.u8 16) && q.u8 16 != 255) || decide (q.u8 18 < 8) || decide (64 < q.u8 18) || decide (2 ^ q.u8 18 ≤ q.u64 32)
    || decide (2 ^ q.u8 18 ≤ q.u64 40) || decide (2 ^ q.u8 18 ≤ q.u64 48)

section Accept

variable {q : Req} {s : State} (h : Admitted s q (maskCrc q))
include h

theorem exec_crcRun_bad (hbad : crcBad q = true) : exec (.crcRun q) s = .next (done s q 0x0E01 stBadRange) := by
  have hfail : firstFail [(crcBad q, stBadRange)] = some stBadRange := if_pos hbad
  refine congrArg Host.Outcome.next ((soile_admitted h).trans ?_)
  refine Eq.trans ?_ (finish_accepted s q 0x0E01 stBadRange 0)
  unfold guardJob
  dsimp only
  exact congrArg (fun o => match o with | some st => finish (accepted s q 0x0E01) s.nextJob st | none => crcAssign (accepted s q 0x0E01)) hfail

theorem exec_crcRun_good (hgood : crcBad q = false) : exec (.crcRun q) s = .next (crcAssign (accepted s q 0x0E01)) :=
  congrArg Host.Outcome.next ((soile_admitted h).trans (guardJob_pass (if_neg (ne_true_of_eq_false hgood))))

end Accept

/-- A value with a bit at or above the width is none of that width. -/
theorem le_of_bitOf {w v i : Nat} (hi : w ≤ i) (hb : bitOf v i = true) : 2 ^ w ≤ v :=
  (Nat.pow_le_pow_right (by omega) hi).trans (Nat.ge_two_pow_of_testBit (by rwa [bitOf_eq_testBit] at hb))

theorem crcBad_of_range {q : Req} (h : q.u8 18 < 8 ∨ 64 < q.u8 18 ∨
    ∃ i, q.u8 18 ≤ i ∧ (bitOf (q.u64 32) i = true ∨ bitOf (q.u64 40) i = true ∨ bitOf (q.u64 48) i = true)) : crcBad q = true := by
  simp only [crcBad, Bool.or_eq_true, decide_eq_true_eq]
  rcases h with h | h | ⟨i, hi, h | h | h⟩
  · simp [h]
  · simp [h]
  · simp [le_of_bitOf hi h]
  · simp [le_of_bitOf hi h]
  · simp [le_of_bitOf hi h]

theorem crcBad_not {q : Req} (hu : q.u8 16 ≤ 7 ∨ q.u8 16 = 255) (h8 : 8 ≤ q.u8 18) (h64 : q.u8 18 ≤ 64) (h1 : q.u64 32 < 2 ^ q.u8 18)
    (h2 : q.u64 40 < 2 ^ q.u8 18) (h3 : q.u64 48 < 2 ^ q.u8 18) : crcBad q = false := by
  have hunit : (decide (7 < q.u8 16) && q.u8 16 != 255) = false := by
    rcases hu with hu | hu
    · simp [Nat.not_lt.mpr hu]
    · simp [hu]
  simp only [crcBad, hunit, Bool.false_or, Bool.or_eq_false_iff, decide_eq_false_iff_not]
  omega

section Assign

variable {q : Req} {s : State}

/-- With no other job waiting, the units are given out to the one just accepted. -/
theorem crcAssign_accepted (h : ∀ j ∈ s.jobs, j.op = 0x0E01 → j.running = true ∨ j.yielded = true) : crcAssign (accepted s q 0x0E01) =
    match crcUnitFor s (jobOf s q 0x0E01) with
    | none => accepted s q 0x0E01
    | some u => pwrRequest (((accepted s q 0x0E01).setCrcW u (some s.nextJob)).modJob s.nextJob fun j => { j with running := true }) (pwrCrc u) 2 := by
  have hold : (s.jobs.filter fun j => j.op == 0x0E01 && !j.running && !j.yielded) = [] := by
    refine List.filter_eq_nil_iff.mpr fun j hj hwaits => ?_
    simp only [Bool.and_eq_true, Bool.not_eq_true', beq_iff_eq] at hwaits
    obtain ⟨⟨hop, hrun⟩, hyield⟩ := hwaits
    rcases h j hj hop with hr | hy
    · exact absurd (hrun.symm.trans hr) (by decide)
    · exact absurd (hyield.symm.trans hy) (by decide)
  have hjobs : ((accepted s q 0x0E01).jobs.filter fun j => j.op == 0x0E01 && !j.running && !j.yielded) = [jobOf s q 0x0E01] := by
    unfold accepted
    dsimp only
    rw [List.filter_append, hold]
    rfl
  unfold crcAssign
  rw [hjobs]
  rfl

end Assign

/-! ### The end of a job (R415, R418, R419) -/

section JobEnd

variable {u : Fin 8} {h : HostRead} {s : State} {id : Nat} {j : Job}

/-- The unit free again, and given to the next job. -/
def crcFree (u : Nat) (t : State) : State := crcAssign (pwrEnd (t.setCrcW u none) (pwrCrc u))

/-- What the job reads. -/
def crcRead (s : State) (u : Nat) (q : Req) (h : HostRead) : State × Nat × Bytes :=
  jobSourceRead s (44 + u) q.part.val (crcSrcHost q) (crcSrc q) (q.u32 20) h

/-- Whether the job's reading waits at a gate. -/
def crcWaits (s : State) (u : Nat) (q : Req) : Bool :=
  isInternal s q.part.val (crcSrcHost q) && rangeHeld s (44 + u) q.part.val .r (crcSrc q) (q.u32 20)

theorem exec_crcJobEnd (hu : s.crcW u.val = some id) (hj : s.job id = some j) : exec (.crcJobEnd u h) s = .next
    (if !pwrReady s (pwrCrc u.val) then s
    else if j.stops then crcFree u.val (crcRecord s.draw u.val j stAborted 1 0 (crcStop s j.req))
    else if crcWaits s u.val j.req then s
    else let r := crcRead s u.val j.req h
      if r.2.1 != stComplete then crcFree u.val (crcRecord (r.1.draws 2) u.val j r.2.1 2 (Config.unstated r.1.free % 2 ^ j.req.u8 18)
        (if r.2.1 = stHostDma then Config.unstated (r.1.free + 1) % (j.req.u32 20 + 1) else r.2.2.length))
      else crcFree u.val (crcRecord r.1 u.val j stComplete 0 (crcValue j.req r.2.2) (j.req.u32 20))) := by
  have hjob : (s.crcW u.val).bind s.job = some j := by rw [hu]; exact hj
  refine congrArg Host.Outcome.next ?_
  unfold doCrcJobEnd
  dsimp only
  rw [hjob]
  rfl

/-- A read over PCIe that is answered. -/
theorem jobSourceRead_pcie {slot p a n : Nat} {bs : Bytes} (hp : onPcie s p = true) (hup : linkUp s (s.part p).port = true) :
    jobSourceRead s slot p true a n (.bytes bs) = (s.setBit (HIF_HP_STATUS (s.part p).port) 7 true, stComplete, sliceB bs 0 n) := by
  unfold jobSourceRead pcieRead
  rw [if_pos (by simp [hp]), if_pos hup]

end JobEnd

/-! ### The obligation -/

/-- Settles O17: acceptance by the parameters' ranges, the end by the job's state, its gate and what it read. -/
theorem crcJobs : Obligations.CrcJobs := by
  unfold Obligations.CrcJobs
  refine ⟨fun q s h _ hbad => exec_crcRun_bad h (crcBad_of_range hbad), fun q s h hu h8 h64 h1 h2 h3 hothers => ?_, fun u h s id j hu hj => ?_⟩
  · have hexec := exec_crcRun_good h (crcBad_not hu h8 h64 h1 h2 h3)
    rw [crcAssign_accepted hothers] at hexec
    exact ⟨fun v hv => by rw [hexec, hv], fun hnone => by rw [hexec, hnone]⟩
  · have hexec := exec_crcJobEnd (h := h) hu hj
    refine ⟨fun hno => hexec.trans (congrArg _ (if_pos (by simp [hno]))), fun hready => ?_⟩
    rw [if_neg (by simp [hready])] at hexec
    refine ⟨fun hstop => hexec.trans (congrArg _ (if_pos hstop)), fun hstop hwaits => ?_, fun hstop hwaits => ?_, fun bs hstop hb hhost hp hup => ?_⟩
    · exact hexec.trans (congrArg _ ((if_neg (ne_true_of_eq_false hstop)).trans (if_pos hwaits)))
    · have hwaits : crcWaits s u.val j.req = false := hwaits
      rw [if_neg (ne_true_of_eq_false hstop), if_neg (ne_true_of_eq_false hwaits)] at hexec
      exact ⟨fun hok => hexec.trans (congrArg _ (if_neg (by simpa [crcRead] using hok))),
        fun hfail => hexec.trans (congrArg _ (if_pos (by simpa [crcRead] using hfail)))⟩
    · have hwaits : crcWaits s u.val j.req = false := by simp [crcWaits, isInternal, hhost, hp]
      have hread : crcRead s u.val j.req h = _ := (congrArg₂ (jobSourceRead s _ _ · _ _ ·) hhost hb).trans (jobSourceRead_pcie hp hup)
      rw [if_neg (ne_true_of_eq_false hstop), if_neg (ne_true_of_eq_false hwaits)] at hexec
      dsimp only at hexec
      rw [hread, if_neg (by simp)] at hexec
      exact hexec

end Sys2Proof.Machine

/-!
PROOFS of the compression family: DCE commands from acceptance to their completion (R406–R414).
-/

namespace Sys2Proof.Machine

/-! ### Acceptance (R406, R407) -/

theorem firstFail_none {checks : List (Bool × Nat)} (h : ∀ x ∈ checks, x.1 = false) : firstFail checks = none := by
  induction checks with
  | nil => rfl
  | cons x rest ih =>
    obtain ⟨b, st⟩ := x
    have hb : b = false := h (b, st) (by simp)
    rw [firstFail, hb]
    exact ih fun y hy => h y (List.mem_cons_of_mem _ hy)

section Accept

variable {q : Req} {s : State}

theorem exec_dceComp (h : Admitted s q (maskDce false q)) : exec (.dceComp q) s =
    .next (guardJob (accepted s q 0x0D01) s.nextJob (dceChecks s q false) fun t => t) := congrArg Host.Outcome.next (soile_admitted h)

theorem exec_dceDecomp (h : Admitted s q (maskDce true q)) : exec (.dceDecomp q) s =
    .next (guardJob (accepted s q 0x0D02) s.nextJob (dceChecks s q true) fun t => t) := congrArg Host.Outcome.next (soile_admitted h)

end Accept

/-! ### An engine takes its next item (R408, R434) -/

/-- An engine with its tokens and its item. -/
def dceTakes (s : State) (e : Nat) (w : DceWork) : State :=
  match w with
  | .checkpoint => { s.setDceW e (some w) with ckptWait := false }
  | .band b => { s.setDceW e (some w) with bands := s.bands.erase b }
  | .job id => (s.setDceW e (some w)).modJob id fun j => { j with running := true }

section Start

variable {e : Fin 2} {s : State} (hcore : s.ctl.core = true) (hmode : s.ctl.mode ≠ .yield) (hfree : s.dceW e.val = none)
include hcore hmode hfree

theorem exec_dceStart : exec (.dceStart e) s = .next (match dceNext s e.val with
    | none => if pwrHas s (pwrDce e.val) then pwrEnd s (pwrDce e.val) else s
    | some w => if !pwrReady s (pwrDce e.val) then pwrRequest s (pwrDce e.val) 8 else dceTakes s e.val w) := by
  refine congrArg Host.Outcome.next ((if_neg (by simp [hcore, hmode, hfree])).trans ?_)
  cases dceNext s e.val with
  | none => rfl
  | some w => cases w <;> rfl

theorem exec_dceStart_takes {w : DceWork} (hw : dceNext s e.val = some w) (hr : pwrReady s (pwrDce e.val) = true) :
    exec (.dceStart e) s = .next (dceTakes s e.val w) := by
  rw [exec_dceStart hcore hmode hfree, hw]
  exact congrArg Host.Outcome.next (if_neg (by simp [hr]))

end Start

/-! ### The end of an item (R409–R414) -/

/-- The engine free, its tokens following, transfers that waited going on. -/
def dceFree (e : Nat) (t : State) : State := nextTransfers (pwrEnd (t.setDceW e none) (pwrDce e))

section End

variable {e : Fin 2} {h : HostRead} {s : State}

theorem exec_dceItemComplete_checkpoint (hw : s.dceW e.val = some .checkpoint) :
    exec (.dceItemComplete e h) s = .next (dceFree e.val (ckptCompressed s e.val)) := by
  refine congrArg Host.Outcome.next ?_
  unfold doDceItemComplete
  dsimp only
  rw [hw]
  rfl

theorem exec_dceItemComplete_band {b : BandItem} (hw : s.dceW e.val = some (.band b)) : exec (.dceItemComplete e h) s = .next
    (if bandBehind s b || (!b.rx && bandHeld s (s.txSurf b.slot).part b.target b.band) then s else dceFree e.val (bandEnd s e.val b)) := by
  refine congrArg Host.Outcome.next ?_
  unfold doDceItemComplete
  dsimp only
  rw [hw]
  rfl

theorem exec_dceItemComplete_job {id : Nat} {j : Job} (hw : s.dceW e.val = some (.job id)) (hj : s.job id = some j) :
    exec (.dceItemComplete e h) s = .next
      (if !j.stops && dceHeld s e.val j h then s else dceFree e.val (dceJobEnd s e.val j h)) := by
  refine congrArg Host.Outcome.next ?_
  unfold doDceItemComplete
  dsimp only
  rw [hw]
  dsimp only
  rw [hj]
  rfl

end End

/-- A job is found under its own ID. -/
theorem State.job_id {s : State} {id : Nat} {j : Job} (h : s.job id = some j) : j.id = id := by
  have hmem : j ∈ s.jobs.filter fun x => x.id == id := List.mem_of_getLast? h
  simpa using (List.mem_filter.mp hmem).2

/-! ### A job from and to host memory (R409–R411) -/

/-- No stream ends with the mark of a read that waits. -/
theorem unpack_st_ne_waits (fmt : Nat) (verify : Option Nat) (bs : Bytes) (cap : Nat) : (unpack fmt verify bs cap).st ≠ stWaits := by
  have hstatus (r : InfSt) : r.status ≠ stWaits := by cases r <;> decide
  have hcheck {P : Prop} [Decidable P] : (if P then stComplete else stCheckFail) ≠ stWaits := by split <;> decide
  have htrunc : stTruncated ≠ stWaits := by decide
  have hformat : stFormatError ≠ stWaits := by decide
  have hcomplete : stComplete ≠ stWaits := by decide
  unfold unpack
  split
  · exact htrunc
  · exact hformat
  · dsimp only
    split
    · exact hstatus _
    split
    · split
      · exact hcomplete
      · exact hcheck
    split
    all_goals
      split
      · exact htrunc
      · exact hcheck

section Host

variable {s : State} {e : Nat} {j : Job} {bs : Bytes}

/-- A job of a partition bound to a port with its link up, from host memory to host memory. -/
structure HostJob (s : State) (j : Job) : Prop where
  src : dceSrcHost j.req = true
  dst : dceDstHost j.req = true
  pcie : onPcie s j.req.part.val = true
  link : linkUp s (s.part j.req.part.val).port = true

theorem HostJob.outer (hh : HostJob s j) : isInternal s j.req.part.val (dceSrcHost j.req) = false ∧ isInternal s j.req.part.val (dceDstHost j.req) = false := by
  simp [isInternal, hh.src, hh.dst, hh.pcie]

theorem dceSource_host (hh : HostJob s j) : dceSource s e j (.bytes bs) = (sliceB bs 0 (dceLen j.req), stComplete, []) := by
  unfold dceSource
  dsimp only
  rw [if_neg (ne_true_of_eq_false hh.outer.1), if_pos hh.link]

/-- The port's record of a read of host memory (R310). -/
def hostReadDone (s : State) (j : Job) : State := s.setBit (HIF_HP_STATUS (s.part j.req.part.val).port) 7 true

theorem dceReadOn_host (hh : HostJob s j) (o : DceOut) : dceReadOn s e j (.bytes bs) o = hostReadDone s j := by
  unfold dceReadOn pcieRead
  dsimp only
  rw [if_neg (ne_true_of_eq_false hh.outer.1), if_pos hh.link]
  rfl

theorem linkUp_hostReadDone (j : Job) (n : Nat) : linkUp ((hostReadDone s j).draws n) (s.part j.req.part.val).port = linkUp s (s.part j.req.part.val).port :=
  State.bit_setFld_outside s (HIF_HP_STATUS (s.part j.req.part.val).port) 1 (by omega) (.inl (by omega))

/-- The state in which a job's output is written to its host. -/
def hostWritten (s : State) (j : Job) (out : Bytes) : State :=
  ((hostReadDone s j).draws (4 + out.length)).emit (.hostWrite (s.part j.req.part.val).port (BitVec.ofNat 64 (dceDst j.req)) out)

/-- A job that reads and writes host memory is held at no gate, unless its stream waits. -/
theorem dceHeld_host (hh : HostJob s j) {o : DceOut} (ho : dceRun s j stComplete (sliceB bs 0 (dceLen j.req)) = o) (hst : o.st ≠ stWaits) :
    dceHeld s e j (.bytes bs) = false := by
  unfold dceHeld
  dsimp only
  rw [dceSource_host hh, ho, hh.outer.2, Bool.false_and, Bool.or_false]
  exact beq_false_of_ne hst

/-- The end of a job from and to host memory whose output fits. -/
theorem dceJobEnd_host (hh : HostJob s j) (hstop : j.stops = false) {o : DceOut}
    (ho : dceRun s j stComplete (sliceB bs 0 (dceLen j.req)) = o) (hst : o.st ≠ stOutFull) : dceJobEnd s e j (.bytes bs) =
      finish (dceCount (hostWritten s j o.out) e o.st o.consumed o.out.length) j.id o.st (dceBody o.consumed o.out.length o.crc o.check) := by
  have hlink := (linkUp_hostReadDone (s := s) j (4 + o.out.length)).trans hh.link
  unfold dceJobEnd
  dsimp only
  rw [if_neg (ne_true_of_eq_false hstop), dceSource_host hh, ho, dceReadOn_host hh, hh.outer.2]
  dsimp only
  have hpart : ((hostReadDone s j).draws (4 + o.out.length)).part j.req.part.val = s.part j.req.part.val := rfl
  rw [if_neg hst, if_neg (by decide), hpart, if_pos hlink]
  rfl

end Host

/-- What a compression makes of its input, where that fits. -/
theorem dceRun_comp {s : State} {j : Job} {bs : Bytes} (hop : j.opcode = 0x0D01)
    (hfits : (pack (dceFmt j.req) (j.req.u8 18) bs).length ≤ dceCap j.req) : dceRun s j stComplete bs =
      ⟨stComplete, bs.length, pack (dceFmt j.req) (j.req.u8 18) bs, crc32 bs, adler32 bs⟩ := by
  have hcomp : (j.op == 0x0D01) = true := by rw [Job.op, hop]; rfl
  unfold dceRun
  dsimp only
  rw [if_neg (by decide), if_pos hcomp, if_neg fun h => absurd h.1 (Nat.not_lt.mpr hfits), if_neg (by decide)]

/-- What a decompression makes of its stream. -/
theorem dceRun_decomp {s : State} {j : Job} {bs : Bytes} (hop : j.opcode = 0x0D02) : dceRun s j stComplete bs =
    let u := unpack (dceFmt j.req) (if dceVerify j.req then some (j.req.u32 52) else none) bs (dceCap j.req)
    ⟨u.st, u.consumed, u.out, crc32 u.out, if dceVerify j.req then j.req.u32 52 else if u.st = stComplete ∨ u.st = stCheckFail then u.carried else 0⟩ := by
  have hcomp : ¬ (j.op == 0x0D01) = true := by rw [Job.op, hop]; decide
  unfold dceRun
  dsimp only
  rw [if_neg (by decide), if_neg hcomp]
  rfl

/-! ### A job that stops (R412) -/

theorem dceJobEnd_stops {s : State} {e : Nat} {j : Job} {h : HostRead} (hstop : j.stops = true) : dceJobEnd s e j h =
    finish (dceStop (dceSeen s e j.req h).1 e j (dceSeen s e j.req h).2).1 j.id stAborted
      (dceStop (dceSeen s e j.req h).1 e j (dceSeen s e j.req h).2).2 := if_pos hstop

/-- A stopped compression reports the check values of the bytes that it got to. -/
theorem dceStop_comp (s : State) (e : Nat) {j : Job} (bs : Bytes) (hop : j.opcode = 0x0D01) :
    ∃ n m, n ≤ bs.length ∧ m ≤ dceCap j.req ∧ (dceStop s e j (some bs)).2 = dceBody n m (crc32 (bs.take n)) (adler32 (bs.take n)) := by
  have hcomp : (j.opcode.toNat == 0x0D01) = true := by rw [hop]; rfl
  have hn : Config.unstated (s.free + 0) % (bs.length + 1) ≤ bs.length := Nat.lt_succ_iff.mp (Nat.mod_lt _ (Nat.succ_pos _))
  refine ⟨Config.unstated (s.free + 0) % (bs.length + 1), Config.unstated (s.free + 1) % (dceCap j.req + 1), hn,
    Nat.lt_succ_iff.mp (Nat.mod_lt _ (Nat.succ_pos _)), ?_⟩
  unfold dceStop
  dsimp only
  rw [if_pos hcomp, List.length_take, Nat.min_eq_left hn]

/-- A stopped decompression reports the check value of the output that it got to. -/
theorem dceStop_decomp (s : State) (e : Nat) {j : Job} (bs : Bytes) (hop : j.opcode = 0x0D02) : ∃ n m, n ≤ bs.length ∧
    let out := (unpack (dceFmt j.req) none (bs.take n) (dceCap j.req)).out.take m
    (dceStop s e j (some bs)).2 = dceBody n out.length (crc32 out) (if dceVerify j.req then j.req.u32 52 else 0) := by
  have hcomp : ¬ (j.opcode.toNat == 0x0D01) = true := by rw [hop]; decide
  have hn : Config.unstated (s.free + 0) % (bs.length + 1) ≤ bs.length := Nat.lt_succ_iff.mp (Nat.mod_lt _ (Nat.succ_pos _))
  refine ⟨Config.unstated (s.free + 0) % (bs.length + 1), Config.unstated (s.free + 1) %
    ((unpack (dceFmt j.req) none (bs.take (Config.unstated (s.free + 0) % (bs.length + 1))) (dceCap j.req)).out.length + 1), hn, ?_⟩
  unfold dceStop
  dsimp only
  rw [if_neg hcomp]
  rw [List.length_take (i := Config.unstated (s.free + 0) % (bs.length + 1)) (l := bs), Nat.min_eq_left hn]
  rfl

/-! ### The obligation -/

/-- Settles O16: acceptance by the checks, a start by the next item and its tokens, an end by the item and, for a job, by what it reads. -/
theorem dceCommands : Obligations.DceCommands := by
  unfold Obligations.DceCommands
  refine ⟨fun q s h => ⟨fun hok => ?_, fun st hf => ?_⟩, fun q s h => ⟨fun hok => ?_, fun st hf => ?_⟩,
    fun e s hcore hmode hfree => ⟨fun hnone => ?_, fun w hw hr => ?_, fun id hw hr => exec_dceStart_takes hcore hmode hfree hw hr,
      fun b hw hr => exec_dceStart_takes hcore hmode hfree hw hr, fun hw hr => exec_dceStart_takes hcore hmode hfree hw hr⟩,
    fun e h s => ⟨exec_dceItemComplete_checkpoint, fun b hw => ⟨fun hbehind hheld => ?_, fun hbehind => ?_⟩, fun id j hw hj hstop => ?_,
      fun id j hw hj hstop => ⟨?_, fun bs hbs hop => ?_, fun bs hbs hop => ?_⟩⟩⟩
  case refine_1 => rw [exec_dceComp h, guardJob_pass (firstFail_none hok)]
  case refine_2 => rw [exec_dceComp h, guardJob_refused hf]
  case refine_3 => rw [exec_dceDecomp h, guardJob_pass (firstFail_none hok)]
  case refine_4 => rw [exec_dceDecomp h, guardJob_refused hf]
  case refine_5 => rw [exec_dceStart hcore hmode hfree, hnone]
  case refine_6 =>
    rw [exec_dceStart hcore hmode hfree, hw]
    exact congrArg Host.Outcome.next (if_pos (by simp [hr]))
  case refine_7 =>
    have hgoes : (bandBehind s b || (!b.rx && bandHeld s (s.txSurf b.slot).part b.target b.band)) = false := by
      rcases hheld with hrx | hheld
      · simp [hbehind, hrx]
      · simp [hbehind, hheld]
    exact (exec_dceItemComplete_band hw).trans (congrArg _ (if_neg (ne_true_of_eq_false hgoes)))
  case refine_8 => exact (exec_dceItemComplete_band hw).trans (congrArg _ (if_pos (by simp [hbehind])))
  case refine_9 =>
    have hexec := exec_dceItemComplete_job (h := h) hw hj
    have hid := State.job_id hj
    rw [hstop, Bool.not_false, Bool.true_and] at hexec
    refine ⟨fun hheld => hexec.trans (congrArg _ (if_pos hheld)), fun hheld => hexec.trans (congrArg _ (if_neg (ne_true_of_eq_false hheld))),
      fun bs hb hop hhost hfits => ?_, fun bs hb hop hhost hst => ?_⟩ <;> subst hb
    · obtain ⟨hsrc, hdst, hpcie, hlink⟩ := hhost
      have ho := dceRun_comp (s := s) hop hfits
      rw [hexec, dceHeld_host ⟨hsrc, hdst, hpcie, hlink⟩ ho (by simp [stComplete, stWaits]), if_neg (by decide),
        dceJobEnd_host ⟨hsrc, hdst, hpcie, hlink⟩ hstop ho (by simp [stComplete, stOutFull]), hid]
      rfl
    · obtain ⟨hsrc, hdst, hpcie, hlink⟩ := hhost
      have ho := dceRun_decomp (s := s) (bs := sliceB bs 0 (dceLen j.req)) hop
      rw [hexec, dceHeld_host ⟨hsrc, hdst, hpcie, hlink⟩ ho (unpack_st_ne_waits _ _ _ _), if_neg (by decide),
        dceJobEnd_host ⟨hsrc, hdst, hpcie, hlink⟩ hstop ho hst, hid]
      rfl
  case refine_10 =>
    rw [exec_dceItemComplete_job hw hj, if_neg (by simp [hstop]), dceJobEnd_stops hstop]
    rfl
  case refine_11 =>
    rw [hbs]
    exact dceStop_comp _ _ bs hop
  case refine_12 =>
    rw [hbs]
    exact dceStop_decomp _ _ bs hop

end Sys2Proof.Machine

/-!
PROOFS of the chain family: the chain commands of partitions (R364–R367, R372, R373).
-/

namespace Sys2Proof.Machine

/-! ### A command decided by its checks -/

section Checks

variable {b : Bool} {st : Nat} {rest : List (Bool × Nat)}

theorem firstFail_true (h : b = true) : firstFail ((b, st) :: rest) = some st := if_pos h

theorem firstFail_false (h : b = false) : firstFail ((b, st) :: rest) = firstFail rest := if_neg (ne_true_of_eq_false h)

end Checks

/-- A command's completion: the first check that fails in the state as it was, else COMPLETE in the state that it leaves. -/
def checkedDone (s t : State) (q : Req) (op : Nat) (checks : List (Bool × Nat)) : State :=
  match firstFail checks with
  | some st => done s q op st
  | none => done t q op stComplete

section CheckedDone

variable {s t : State} {q : Req} {op mask st : Nat} {checks : List (Bool × Nat)} {run : State → State × Nat × BitVec 128}

theorem checkedDone_refused (h : firstFail checks = some st) : checkedDone s t q op checks = done s q op st := by rw [checkedDone, h]

theorem checkedDone_passed (h : firstFail checks = none) : checkedDone s t q op checks = done t q op stComplete := by rw [checkedDone, h]

/-- A command that only decides its checks before it acts. -/
theorem soileNow_answers (h : Admitted s q mask) (hn : t.nextJob = s.nextJob)
    (hrun : run (accepted s q op) = match firstFail checks with
      | some st => (accepted s q op, st, 0)
      | none => (accepted t q op, stComplete, 0)) : soileNow s q op mask true run = checkedDone s t q op checks := by
  cases hc : firstFail checks with
  | some st =>
    rw [hc] at hrun
    exact (soileNow_completes h hrun rfl).trans (checkedDone_refused hc).symm
  | none =>
    rw [hc] at hrun
    exact (soileNow_completes h hrun hn).trans (checkedDone_passed hc).symm

end CheckedDone

variable {q : Req} {s : State}

/-! ### CHN_TX_STREAM (R364) -/

/-- The slot that a CHN_TX_STREAM leaves. -/
def txStreamSlot (q : Req) (t : TxSlot) : TxSlot :=
  if q.bit 17 0 then { enabled := true, part := q.part.val, alt := q.bit 17 1, source := q.u8 18, dst := q.u8 19, target := q.u8 20, nMsgs := t.nMsgs, nPassed := t.nPassed }
  else { nMsgs := t.nMsgs, nPassed := t.nPassed }

def txStreamBad (q : Req) : Bool :=
  decide (31 < q.u8 16) || (q.bit 17 0 && (decide (7 < q.u8 19) || (q.bit 17 1 && decide (31 < q.u8 18))))

def txStreamChecks (q : Req) (s : State) : List (Bool × Nat) :=
  let t := s.txStream (q.u8 16)
  [(txStreamBad q, stBadRange),
    ((slotTaken (q.bit 17 0) t.enabled t.part q.part.val).1
      || (q.bit 17 0 && !(if q.bit 17 1 then ownsSess s q.part.val (q.u8 18) else ownsCtx s q.part.val (q.u8 18))), stNotOwner),
    ((slotTaken (q.bit 17 0) t.enabled t.part q.part.val).2, stSlotBusy), (q.bit 17 0 && (unitOf s (q.u8 19)).isNone, stNoUnit),
    (q.bit 17 0 && noPort s, stNoLink)]

theorem exec_chnTxStream (h : Admitted s q (bodyMask [(16, 0, 8), (17, 0, 2), (18, 0, 24)])) : exec (.chnTxStream q) s =
    .next (checkedDone s (s.setTxStream (q.u8 16) (txStreamSlot q (s.txStream (q.u8 16)))) q 0x1001 (txStreamChecks q s)) :=
  congrArg Host.Outcome.next (soileNow_answers h rfl rfl)

/-! ### CHN_RX_STREAM (R365) -/

/-- The context that a CHN_RX_STREAM leaves. -/
def rxStreamCtx (q : Req) (c : Ctx) : Ctx :=
  { c with rx := if q.bit 17 0 then some (q.u8 18, q.u8 19, q.u40 24, q.u32 32) else none, rxPart := if q.bit 17 0 then q.part.val else 0
           rxDisc := false, rxBuf := none }

def rxStreamBad (q : Req) (c : Ctx) : Bool :=
  q.bit 17 0 && (decide (7 < q.u8 18) || decide (31 < q.u8 19) || q.u40 24 % 4096 != 0 || q.u32 32 % 4096 != 0 || q.u32 32 == 0
    || decide (2 ^ 40 < q.u40 24 + q.u32 32) || c.state == .closed)

def rxStreamChecks (q : Req) (s : State) : List (Bool × Nat) :=
  [(rxStreamBad q (s.ctx (q.u8 16)), stBadRange), (!ownsCtx s q.part.val (q.u8 16), stNotOwner),
    (q.bit 17 0 && ((s.ctx (q.u8 16)).rx.isSome || s.flows.any fun f => f.2.ctx == some (q.u8 16)), stCtxBusy)]

theorem exec_chnRxStream (h : Admitted s q (bodyMask [(16, 0, 8), (17, 0, 1), (18, 0, 16), (24, 0, 40), (32, 0, 32)])) : exec (.chnRxStream q) s =
    .next (checkedDone s (s.setCtx (q.u8 16) (rxStreamCtx q (s.ctx (q.u8 16)))) q 0x1002 (rxStreamChecks q s)) :=
  congrArg Host.Outcome.next (soileNow_answers h rfl rfl)

/-! ### CHN_TX_SURF (R366) -/

/-- The slot that a CHN_TX_SURF leaves. -/
def txSurfSlot (q : Req) (t : TxSlot) : TxSlot :=
  if q.bit 17 0 then { enabled := true, part := q.part.val, alt := q.bit 17 1, source := q.u16 22, dst := q.u8 19, target := q.u8 20
                       level := if q.bit 17 2 then q.u8 18 else 0, nMsgs := t.nMsgs, nPassed := t.nPassed }
  else { nMsgs := t.nMsgs, nPassed := t.nPassed }

/-- A slot that is disabled gives up its bands that wait. -/
def bandsLeft (q : Req) (s : State) : State :=
  if q.bit 17 0 then s else { s with bands := s.bands.filter fun b => b.rx || b.slot != q.u8 16 }

def txSurfBad (q : Req) : Bool :=
  decide (15 < q.u8 16) || (q.bit 17 0 && ((q.bit 17 2 && (q.u8 18 == 0 || decide (9 < q.u8 18))) || decide (7 < q.u8 19) || decide (15 < q.u8 20)
    || decide ((if q.bit 17 1 then 127 else 4095) < q.u16 22)))

def txSurfChecks (q : Req) (s : State) : List (Bool × Nat) :=
  let t := s.txSurf (q.u8 16)
  [(txSurfBad q, stBadRange),
    ((slotTaken (q.bit 17 0) t.enabled t.part q.part.val).1
      || (q.bit 17 0 && !(if q.bit 17 1 then ownsFollow s q.part.val (q.u16 22) else ownsSurf s q.part.val (q.u16 22))), stNotOwner),
    (q.bit 17 0 && !q.bit 17 1 && !(s.surf (q.u16 22)).reg, stNotTracked),
    ((slotTaken (q.bit 17 0) t.enabled t.part q.part.val).2, stSlotBusy), (q.bit 17 0 && (unitOf s (q.u8 19)).isNone, stNoUnit),
    (q.bit 17 0 && noPort s, stNoLink)]

theorem chnTxSurf_accepted : chnTxSurf q (accepted s q 0x1003) = match firstFail (txSurfChecks q s) with
    | some st => (accepted s q 0x1003, st, 0)
    | none => (accepted ((bandsLeft q s).setTxSurf (q.u8 16) (txSurfSlot q (s.txSurf (q.u8 16)))) q 0x1003, stComplete, 0) := by
  unfold bandsLeft txSurfSlot
  cases hen : q.bit 17 0 with
  | true => unfold chnTxSurf txSurfChecks txSurfBad; rw [hen]; rfl
  | false => unfold chnTxSurf txSurfChecks txSurfBad; rw [hen]; rfl

theorem exec_chnTxSurf (h : Admitted s q (bodyMask [(16, 0, 8), (17, 0, 3), (18, 0, 24), (22, 0, 16)])) : exec (.chnTxSurf q) s =
    .next (checkedDone s ((bandsLeft q s).setTxSurf (q.u8 16) (txSurfSlot q (s.txSurf (q.u8 16)))) q 0x1003 (txSurfChecks q s)) :=
  congrArg Host.Outcome.next (soileNow_answers h (by unfold bandsLeft; split <;> rfl) chnTxSurf_accepted)

/-! ### CHN_RX_SURF (R367) -/

/-- The slot that a CHN_RX_SURF leaves. -/
def rxSurfSlot (q : Req) (r : RxSlot) : RxSlot :=
  if q.bit 17 0 then { enabled := true, part := q.part.val, m := q.u8 18, origin := q.u8 19, slot := q.u8 20, first := q.u16 22
                       fenceOn := q.bit 17 1, fenceHost := q.bit 17 2, fenceAt := BitVec.ofNat 64 (q.u64 24), nMsgs := r.nMsgs }
  else { nMsgs := r.nMsgs }

def rxSurfBad (q : Req) : Bool :=
  decide (15 < q.u8 16) || (q.bit 17 0 && (decide (q.u8 18 < 2) || decide (4 < q.u8 18) || decide (7 < q.u8 19) || decide (15 < q.u8 20)
    || decide (4096 < q.u16 22 + q.u8 18) || (q.bit 17 1 && q.u64 24 % 8 != 0)))

def rxSurfChecks (q : Req) (s : State) : List (Bool × Nat) :=
  let r := s.rxSurf (q.u8 16)
  let ts := upFrom (q.u16 22) (q.u8 18)
  [(rxSurfBad q, stBadRange),
    ((slotTaken (q.bit 17 0) r.enabled r.part q.part.val).1 || (q.bit 17 0 && !ts.all (ownsSurf s q.part.val)), stNotOwner),
    (q.bit 17 0 && !ts.all fun n => (s.surf n).reg, stNotTracked), ((slotTaken (q.bit 17 0) r.enabled r.part q.part.val).2, stSlotBusy)]

theorem exec_chnRxSurf (h : Admitted s q (bodyMask [(16, 0, 8), (17, 0, 3), (18, 0, 24), (22, 0, 80)])) : exec (.chnRxSurf q) s =
    .next (checkedDone s (s.setRxSurf (q.u8 16) (rxSurfSlot q (s.rxSurf (q.u8 16)))) q 0x1004 (rxSurfChecks q s)) :=
  congrArg Host.Outcome.next (soileNow_answers h rfl rfl)

/-! ### CHN_RXRING (R372) -/

def rxringBad (q : Req) : Bool :=
  q.bit 16 0 && (decide (q.u8 17 < 4) || decide (10 < q.u8 17) || q.u64 24 % 4096 != 0)

/-- The partition that a CHN_RXRING leaves. -/
def rxringPart (q : Req) (p : Part) : Part :=
  { p with ctrlRing := if q.bit 16 0 then some (q.bit 16 1, q.u8 17, BitVec.ofNat 64 (q.u64 24), 0) else none }

theorem exec_chnRxring (h : Admitted s q (bodyMask [(16, 0, 2), (17, 0, 8), (24, 0, 64)])) : exec (.chnRxring q) s =
    .next (checkedDone s (s.setPart q.part.val (rxringPart q (s.part q.part.val))) q 0x1006 [(rxringBad q, stBadRange)]) := by
  refine congrArg Host.Outcome.next (soileNow_answers h rfl ?_)
  unfold chnRxring
  change (if rxringBad q then _ else _) = _
  cases hbad : rxringBad q with
  | true => rfl
  | false => rfl

/-! ### CHN_SEND (R372) -/

def sendBad (q : Req) : Bool :=
  (decide (7 < q.u8 16) && q.u8 16 != 255) || decide (15 < q.u8 17) || q.u16 18 == 0 || decide (256 < q.u16 18)

def sendLost (q : Req) (s : State) : Bool := q.u8 16 != 255 && (unitOf s (q.u8 16)).isNone

/-- The reading of a CHN_SEND's bytes, as the job that it becomes. -/
def sendRead (q : Req) (s : State) : State × Nat × Bytes :=
  hostRead (accepted s q 0x1005) q.part.val (q.u64 24) (q.u16 18) q.host

def sendHdr (q : Req) : Nat := hput 8 1 (q.u8 17) + hput 9 1 q.part.val + hput 10 2 (q.u16 18)

/-- The state in which a CHN_SEND waits for the acknowledgement of the ports `os` (R372). -/
def sendNoted (q : Req) (s : State) (os : List Nat) : State :=
  let t := (sendRead q s).1
  { t with chain := { t.chain with sends := t.chain.sends ++ os.map fun o => (s.nextJob, o, t.chain.seqs.getD 0 0, none) } }

/-- What a CHN_SEND comes to that passes its checks: by the reading of its bytes, and for the state `t` in which they go out. -/
def sendAfterRead (q : Req) (s t : State) : State :=
  if (sendRead q s).2.1 = stWaits then s
  else if (sendRead q s).2.1 ≠ stComplete then finish (sendRead q s).1 s.nextJob (sendRead q s).2.1 else t

/-- A CHN_SEND's message on its way. -/
def sendGone (q : Req) (t : State) (unit : Option Nat) (bs : Bytes) : State :=
  if q.u8 16 = 255 then broadcast t 7 (sendHdr q) bs else sendTo t (unit.getD 0) 7 (sendHdr q) bs

section Send

variable (h : Admitted s q (bodyMask [(16, 0, 32), (24, 0, 64)]))
include h

theorem exec_chnSend_bad (hbad : sendBad q = true) : exec (.chnSend q) s = .next (done s q 0x1005 stBadRange) := by
  refine congrArg Host.Outcome.next ((soile_admitted h).trans ?_)
  change guardJob (if !sendBad q && _ then _ else _) s.nextJob ((sendBad q, stBadRange) :: _) _ = _
  rw [hbad]
  exact guardJob_refused rfl

theorem exec_chnSend_lost (hbad : sendBad q = false) (hlost : sendLost q s = true) :
    exec (.chnSend q) s = .next (done (s.inc CHN_NODEST) q 0x1005 stNoUnit) := by
  refine congrArg Host.Outcome.next ((soile_admitted h).trans ?_)
  change guardJob (if !sendBad q && sendLost q s then _ else _) s.nextJob ((sendBad q, stBadRange) :: (sendLost q s, stNoUnit) :: _) _ = _
  rw [hbad, hlost]
  exact guardJob_refused (s := s.inc CHN_NODEST) rfl

theorem exec_chnSend_noPort (hbad : sendBad q = false) (hlost : sendLost q s = false) (hport : noPort s = true) :
    exec (.chnSend q) s = .next (done s q 0x1005 stNoLink) := by
  refine congrArg Host.Outcome.next ((soile_admitted h).trans ?_)
  change guardJob (if !sendBad q && sendLost q s then _ else _) s.nextJob [(sendBad q, stBadRange), (sendLost q s, stNoUnit), (noPort s, stNoLink)] _ = _
  rw [hbad, hlost, hport]
  exact guardJob_refused rfl

theorem exec_chnSend_sends (hbad : sendBad q = false) (hlost : sendLost q s = false) (hport : noPort s = false) : exec (.chnSend q) s =
    let way := sendPorts s (if q.u8 16 = 255 then none else unitOf s (q.u8 16))
    let t := sendGone q (sendNoted q s way) (unitOf s (q.u8 16)) (sendRead q s).2.2
    .next (sendAfterRead q s (if way.isEmpty then finish t s.nextJob lostSend else t)) := by
  refine congrArg Host.Outcome.next ((soile_admitted h).trans ?_)
  change guardJob (if !sendBad q && sendLost q s then _ else _) s.nextJob [(sendBad q, stBadRange), (sendLost q s, stNoUnit), (noPort s, stNoLink)] _ = _
  rw [hbad, hlost, hport]
  refine (guardJob_pass rfl).trans ?_
  dsimp only
  unfold sendAfterRead
  change (if (sendRead q s).2.1 = stWaits then s else if ((sendRead q s).2.1 != stComplete) = true then finish (sendRead q s).1 s.nextJob (sendRead q s).2.1 else _) = _
  simp only [bne_iff_ne]
  rfl

end Send


/-! ### What the checks say -/

section Says

theorem txStreamBad_iff (hen : q.bit 17 0 = true) :
    txStreamBad q = false ↔ q.u8 16 ≤ 31 ∧ q.u8 19 ≤ 7 ∧ (q.bit 17 1 = true → q.u8 18 ≤ 31) := by
  simp [txStreamBad, hen]

theorem rxStreamBad_iff (hen : q.bit 17 0 = true) (c : Ctx) : rxStreamBad q c = false ↔
    q.u8 18 ≤ 7 ∧ q.u8 19 ≤ 31 ∧ q.u40 24 % 4096 = 0 ∧ q.u32 32 % 4096 = 0 ∧ q.u32 32 ≠ 0 ∧ q.u40 24 + q.u32 32 ≤ 2 ^ 40 ∧ c.state ≠ .closed := by
  simp [rxStreamBad, hen, and_assoc]

theorem txSurfBad_iff (hen : q.bit 17 0 = true) : txSurfBad q = false ↔ q.u8 16 ≤ 15 ∧ q.u8 19 ≤ 7 ∧ q.u8 20 ≤ 15
    ∧ (q.bit 17 2 = true → 1 ≤ q.u8 18 ∧ q.u8 18 ≤ 9) ∧ q.u16 22 ≤ (if q.bit 17 1 then 127 else 4095) := by
  simp only [txSurfBad, hen, Bool.true_and, Bool.or_eq_false_iff, Bool.and_eq_false_imp, decide_eq_false_iff_not, not_lt, beq_eq_false_iff_ne, Nat.one_le_iff_ne_zero]
  tauto

theorem rxSurfBad_iff (hen : q.bit 17 0 = true) : rxSurfBad q = false ↔ q.u8 16 ≤ 15 ∧ 2 ≤ q.u8 18 ∧ q.u8 18 ≤ 4 ∧ q.u8 19 ≤ 7 ∧ q.u8 20 ≤ 15
    ∧ q.u16 22 + q.u8 18 ≤ 4096 ∧ (q.bit 17 1 = true → q.u64 24 % 8 = 0) := by
  simp [rxSurfBad, hen, and_assoc, Nat.succ_le_iff]

theorem sendBad_iff : sendBad q = false ↔ (q.u8 16 ≤ 7 ∨ q.u8 16 = 255) ∧ q.u8 17 ≤ 15 ∧ q.u16 18 ≠ 0 ∧ q.u16 18 ≤ 256 := by
  simp only [sendBad, Bool.or_eq_false_iff, Bool.and_eq_false_imp, decide_eq_true_eq, decide_eq_false_iff_not, not_lt, beq_eq_false_iff_ne, bne_eq_false_iff_eq, and_assoc]
  refine and_congr ?_ Iff.rfl
  omega

theorem rxringBad_iff (hen : q.bit 16 0 = true) : rxringBad q = false ↔ 4 ≤ q.u8 17 ∧ q.u8 17 ≤ 10 ∧ q.u64 24 % 4096 = 0 := by
  simp [rxringBad, hen, and_assoc]

theorem noPort_iff : noPort s = false ↔ (s.port 0).state = .up ∨ (s.port 1).state = .up := by
  simp only [noPort, Bool.and_eq_false_iff, bne_eq_false_iff_eq]

/-- The surfaces of a target, each with what is asked of it (R367). -/
theorem all_upFrom {f : Nat → Bool} {a n : Nat} : (upFrom a n).all f = true ↔ ∀ m, a ≤ m → m < a + n → f m = true := by
  simp only [upFrom, ← List.range'_eq_map_range, List.all_eq_true, List.mem_range'_1, and_imp]

/-- An enabled context is taken by its own stream or by a flow (R365). -/
theorem ctxBusy_iff (i : Nat) : ((s.ctx i).rx.isSome || s.flows.any fun f => f.2.ctx == some i) = true
    ↔ (s.ctx i).rx.isSome = true ∨ ∃ f ∈ s.flows, f.2.ctx = some i := by
  simp only [Bool.or_eq_true, List.any_eq_true, beq_iff_eq]

end Says

/-! ### The checks of an enabling and of a disabling command -/

section OnOff

variable (s)

theorem txStreamChecks_on (hen : q.bit 17 0 = true) : txStreamChecks q s = [(txStreamBad q, stBadRange),
    (!(if q.bit 17 1 then ownsSess s q.part.val (q.u8 18) else ownsCtx s q.part.val (q.u8 18)), stNotOwner),
    ((s.txStream (q.u8 16)).enabled, stSlotBusy), ((unitOf s (q.u8 19)).isNone, stNoUnit), (noPort s, stNoLink)] := by
  simp [txStreamChecks, slotTaken, hen]

theorem txStreamChecks_off (hen : q.bit 17 0 = false) : firstFail (txStreamChecks q s) = firstFail [(decide (31 < q.u8 16), stBadRange),
    ((s.txStream (q.u8 16)).enabled && (s.txStream (q.u8 16)).part != q.part.val, stNotOwner)] := by
  simp [txStreamChecks, txStreamBad, slotTaken, firstFail, hen]

theorem txSurfChecks_on (hen : q.bit 17 0 = true) : txSurfChecks q s = [(txSurfBad q, stBadRange),
    (!(if q.bit 17 1 then ownsFollow s q.part.val (q.u16 22) else ownsSurf s q.part.val (q.u16 22)), stNotOwner),
    (!q.bit 17 1 && !(s.surf (q.u16 22)).reg, stNotTracked), ((s.txSurf (q.u8 16)).enabled, stSlotBusy),
    ((unitOf s (q.u8 19)).isNone, stNoUnit), (noPort s, stNoLink)] := by
  simp [txSurfChecks, slotTaken, hen]

theorem txSurfChecks_off (hen : q.bit 17 0 = false) : firstFail (txSurfChecks q s) = firstFail [(decide (15 < q.u8 16), stBadRange),
    ((s.txSurf (q.u8 16)).enabled && (s.txSurf (q.u8 16)).part != q.part.val, stNotOwner)] := by
  simp [txSurfChecks, txSurfBad, slotTaken, firstFail, hen]

theorem rxSurfChecks_on (hen : q.bit 17 0 = true) : rxSurfChecks q s = [(rxSurfBad q, stBadRange),
    (!(upFrom (q.u16 22) (q.u8 18)).all (ownsSurf s q.part.val), stNotOwner),
    (!(upFrom (q.u16 22) (q.u8 18)).all (fun n => (s.surf n).reg), stNotTracked), ((s.rxSurf (q.u8 16)).enabled, stSlotBusy)] := by
  simp [rxSurfChecks, slotTaken, hen]

theorem rxSurfChecks_off (hen : q.bit 17 0 = false) : firstFail (rxSurfChecks q s) = firstFail [(decide (15 < q.u8 16), stBadRange),
    ((s.rxSurf (q.u8 16)).enabled && (s.rxSurf (q.u8 16)).part != q.part.val, stNotOwner)] := by
  simp [rxSurfChecks, rxSurfBad, slotTaken, firstFail, hen]

end OnOff

/-- A slot is switched off within its range by its owner, or by any partition while it is off (R364, R366, R367). -/
theorem checkedDone_slotOff {t : State} {op i lim o p : Nat} {on : Bool} {checks : List (Bool × Nat)}
    (hc : firstFail checks = firstFail [(decide (lim < i), stBadRange), (on && o != p, stNotOwner)]) :
    checkedDone s t q op checks = if lim < i then done s q op stBadRange
      else if on = true ∧ o ≠ p then done s q op stNotOwner else done t q op stComplete := by
  have hown : (on && o != p) = true ↔ on = true ∧ o ≠ p := by rw [Bool.and_eq_true, bne_iff_ne]
  by_cases hi : lim < i
  · rw [if_pos hi]
    exact checkedDone_refused (hc.trans (firstFail_at hi))
  · rw [firstFail_past hi] at hc
    rw [if_neg hi]
    by_cases ho : on = true ∧ o ≠ p
    · rw [if_pos ho]
      exact checkedDone_refused (hc.trans (firstFail_true (hown.mpr ho)))
    · rw [if_neg ho]
      exact checkedDone_passed (hc.trans (firstFail_false (Bool.not_eq_true _ ▸ mt hown.mp ho)))

/-! ### The obligation, command by command -/

section Clauses

theorem chnTxStream_enables (h : Admitted s q (bodyMask [(16, 0, 8), (17, 0, 2), (18, 0, 24)])) (hen : q.bit 17 0 = true) :
    let t := s.txStream (q.u8 16)
    let good := q.u8 16 ≤ 31 ∧ q.u8 19 ≤ 7 ∧ (q.bit 17 1 = true → q.u8 18 ≤ 31)
    let owns := if q.bit 17 1 then ownsSess s q.part.val (q.u8 18) else ownsCtx s q.part.val (q.u8 18)
    (¬ good → exec (.chnTxStream q) s = .next (done s q 0x1001 stBadRange))
    ∧ (good → owns = false → exec (.chnTxStream q) s = .next (done s q 0x1001 stNotOwner))
    ∧ (good → owns = true → t.enabled = true → exec (.chnTxStream q) s = .next (done s q 0x1001 stSlotBusy))
    ∧ (good → owns = true → t.enabled = false → unitOf s (q.u8 19) = none → exec (.chnTxStream q) s = .next (done s q 0x1001 stNoUnit))
    ∧ (good → owns = true → t.enabled = false → (unitOf s (q.u8 19)).isSome = true →
      exec (.chnTxStream q) s = .next (if (s.port 0).state = .up ∨ (s.port 1).state = .up then
        done (s.setTxStream (q.u8 16) { enabled := true, part := q.part.val, alt := q.bit 17 1, source := q.u8 18, dst := q.u8 19
                                        target := q.u8 20, nMsgs := t.nMsgs, nPassed := t.nPassed }) q 0x1001 stComplete
        else done s q 0x1001 stNoLink)) := by
  dsimp only
  rw [← txStreamBad_iff hen, Bool.not_eq_false, exec_chnTxStream h, txStreamChecks_on s hen, show txStreamSlot q _ = _ from if_pos hen]
  refine ⟨fun hb => ?_, fun hb ho => ?_, fun hb ho ht => ?_, fun hb ho ht hu => ?_, fun hb ho ht hu => ?_⟩
  · rw [checkedDone_refused (firstFail_true hb)]
  · rw [checkedDone_refused (st := stNotOwner) (by simp [firstFail, hb, ho])]
  · rw [checkedDone_refused (st := stSlotBusy) (by simp [firstFail, hb, ho, ht])]
  · rw [checkedDone_refused (st := stNoUnit) (by simp [firstFail, hb, ho, ht, hu])]
  · have hunit : (unitOf s (q.u8 19)).isNone = false := by rw [← Option.not_isSome, hu]; rfl
    by_cases hp : (s.port 0).state = .up ∨ (s.port 1).state = .up
    · rw [if_pos hp, checkedDone_passed (by simp [firstFail, hb, ho, ht, hunit, noPort_iff.mpr hp])]
    · have hno := Bool.not_eq_false _ ▸ mt noPort_iff.mp hp
      rw [if_neg hp, checkedDone_refused (st := stNoLink) (by simp [firstFail, hb, ho, ht, hunit, hno])]

theorem chnTxStream_disables (h : Admitted s q (bodyMask [(16, 0, 8), (17, 0, 2), (18, 0, 24)])) (hen : q.bit 17 0 = false) :
    let t := s.txStream (q.u8 16)
    exec (.chnTxStream q) s = .next (if 31 < q.u8 16 then done s q 0x1001 stBadRange
      else if t.enabled = true ∧ t.part ≠ q.part.val then done s q 0x1001 stNotOwner
      else done (s.setTxStream (q.u8 16) { nMsgs := t.nMsgs, nPassed := t.nPassed }) q 0x1001 stComplete) := by
  rw [exec_chnTxStream h, show txStreamSlot q _ = _ from if_neg (ne_true_of_eq_false hen)]
  exact congrArg Host.Outcome.next (checkedDone_slotOff (txStreamChecks_off s hen))

theorem chnRxStream_enables (h : Admitted s q (bodyMask [(16, 0, 8), (17, 0, 1), (18, 0, 16), (24, 0, 40), (32, 0, 32)])) (hen : q.bit 17 0 = true) :
    let i := q.u8 16
    let c := s.ctx i
    let good := q.u8 18 ≤ 7 ∧ q.u8 19 ≤ 31 ∧ q.u40 24 % 4096 = 0 ∧ q.u32 32 % 4096 = 0 ∧ q.u32 32 ≠ 0 ∧ q.u40 24 + q.u32 32 ≤ 2 ^ 40 ∧ c.state ≠ .closed
    let busy := c.rx.isSome = true ∨ ∃ f ∈ s.flows, f.2.ctx = some i
    (¬ good → exec (.chnRxStream q) s = .next (done s q 0x1002 stBadRange))
    ∧ (good → ownsCtx s q.part.val i = false → exec (.chnRxStream q) s = .next (done s q 0x1002 stNotOwner))
    ∧ (good → ownsCtx s q.part.val i = true → busy → exec (.chnRxStream q) s = .next (done s q 0x1002 stCtxBusy))
    ∧ (good → ownsCtx s q.part.val i = true → ¬ busy →
      exec (.chnRxStream q) s = .next (done (s.setCtx i { c with rx := some (q.u8 18, q.u8 19, q.u40 24, q.u32 32), rxPart := q.part.val
                                                                 rxDisc := false, rxBuf := none }) q 0x1002 stComplete)) := by
  dsimp only
  rw [← rxStreamBad_iff hen, Bool.not_eq_false, ← ctxBusy_iff, Bool.not_eq_true, exec_chnRxStream h, rxStreamChecks, rxStreamCtx, hen, Bool.true_and]
  refine ⟨fun hb => ?_, fun hb ho => ?_, fun hb ho hbusy => ?_, fun hb ho hbusy => ?_⟩
  · rw [checkedDone_refused (firstFail_true hb)]
  · rw [checkedDone_refused (st := stNotOwner) ((firstFail_false hb).trans (firstFail_true (by rw [ho]; rfl)))]
  · rw [checkedDone_refused (st := stCtxBusy) ((firstFail_false hb).trans ((firstFail_false (by rw [ho]; rfl)).trans (firstFail_true hbusy)))]
  · rw [checkedDone_passed ((firstFail_false hb).trans ((firstFail_false (by rw [ho]; rfl)).trans (firstFail_false hbusy)))]
    rfl

theorem chnRxStream_disables (h : Admitted s q (bodyMask [(16, 0, 8), (17, 0, 1), (18, 0, 16), (24, 0, 40), (32, 0, 32)])) (hen : q.bit 17 0 = false) :
    exec (.chnRxStream q) s = .next (if ownsCtx s q.part.val (q.u8 16) then
        done (s.setCtx (q.u8 16) { s.ctx (q.u8 16) with rx := none, rxPart := 0, rxDisc := false, rxBuf := none }) q 0x1002 stComplete
      else done s q 0x1002 stNotOwner) := by
  rw [exec_chnRxStream h, rxStreamChecks, rxStreamCtx, rxStreamBad, hen]
  cases ho : ownsCtx s q.part.val (q.u8 16) with
  | true => rfl
  | false => rfl

theorem chnTxSurf_enables (h : Admitted s q (bodyMask [(16, 0, 8), (17, 0, 3), (18, 0, 24), (22, 0, 16)])) (hen : q.bit 17 0 = true) :
    let t := s.txSurf (q.u8 16)
    let good := q.u8 16 ≤ 15 ∧ q.u8 19 ≤ 7 ∧ q.u8 20 ≤ 15 ∧ (q.bit 17 2 = true → 1 ≤ q.u8 18 ∧ q.u8 18 ≤ 9) ∧ q.u16 22 ≤ (if q.bit 17 1 then 127 else 4095)
    let owns := if q.bit 17 1 then ownsFollow s q.part.val (q.u16 22) else ownsSurf s q.part.val (q.u16 22)
    (¬ good → exec (.chnTxSurf q) s = .next (done s q 0x1003 stBadRange))
    ∧ (good → owns = false → exec (.chnTxSurf q) s = .next (done s q 0x1003 stNotOwner))
    ∧ (good → owns = true → q.bit 17 1 = false → (s.surf (q.u16 22)).reg = false → exec (.chnTxSurf q) s = .next (done s q 0x1003 stNotTracked))
    ∧ (good → owns = true → (q.bit 17 1 = true ∨ (s.surf (q.u16 22)).reg = true) →
      exec (.chnTxSurf q) s = .next (if t.enabled then done s q 0x1003 stSlotBusy
        else if unitOf s (q.u8 19) = none then done s q 0x1003 stNoUnit
        else if (s.port 0).state = .up ∨ (s.port 1).state = .up then
          done (s.setTxSurf (q.u8 16) { enabled := true, part := q.part.val, alt := q.bit 17 1, source := q.u16 22, dst := q.u8 19, target := q.u8 20
                                        level := if q.bit 17 2 then q.u8 18 else 0, nMsgs := t.nMsgs, nPassed := t.nPassed }) q 0x1003 stComplete
        else done s q 0x1003 stNoLink)) := by
  dsimp only
  rw [← txSurfBad_iff hen, Bool.not_eq_false, exec_chnTxSurf h, txSurfChecks_on s hen, show txSurfSlot q _ = _ from if_pos hen,
    show bandsLeft q s = s from if_pos hen]
  generalize (if q.bit 17 1 = true then ownsFollow s q.part.val (q.u16 22) else ownsSurf s q.part.val (q.u16 22)) = owns
  refine ⟨fun hb => ?_, fun hb ho => ?_, fun hb ho hf hr => ?_, fun hb ho hr => ?_⟩
  · rw [checkedDone_refused (firstFail_true hb)]
  · rw [checkedDone_refused (st := stNotOwner) (by rw [hb, ho]; rfl)]
  · rw [checkedDone_refused (st := stNotTracked) (by rw [hb, ho, hf, hr]; rfl)]
  · have htracked : (!q.bit 17 1 && !(s.surf (q.u16 22)).reg) = false := by
      rcases hr with hr | hr
      · rw [hr]; rfl
      · rw [hr, Bool.not_true, Bool.and_false]
    rw [hb, ho, htracked]
    cases (s.txSurf (q.u8 16)).enabled with
    | true => rw [checkedDone_refused (st := stSlotBusy) rfl, if_pos rfl]
    | false =>
      rw [if_neg (by decide : ¬ false = true)]
      cases unitOf s (q.u8 19) with
      | none => rw [checkedDone_refused (st := stNoUnit) rfl, if_pos rfl]
      | some a =>
        rw [if_neg (by simp : ¬ some a = none)]
        by_cases hp : (s.port 0).state = .up ∨ (s.port 1).state = .up
        · rw [if_pos hp, noPort_iff.mpr hp, checkedDone_passed rfl]
        · have hno := Bool.not_eq_false _ ▸ mt noPort_iff.mp hp
          rw [if_neg hp, hno, checkedDone_refused (st := stNoLink) rfl]

theorem chnTxSurf_disables (h : Admitted s q (bodyMask [(16, 0, 8), (17, 0, 3), (18, 0, 24), (22, 0, 16)])) (hen : q.bit 17 0 = false) :
    let i := q.u8 16
    let t := s.txSurf i
    exec (.chnTxSurf q) s = .next (if 15 < i then done s q 0x1003 stBadRange
      else if t.enabled = true ∧ t.part ≠ q.part.val then done s q 0x1003 stNotOwner
      else done ({ s with bands := s.bands.filter fun b => b.rx || b.slot != i }.setTxSurf i { nMsgs := t.nMsgs, nPassed := t.nPassed }) q 0x1003 stComplete) := by
  rw [exec_chnTxSurf h, show txSurfSlot q _ = _ from if_neg (ne_true_of_eq_false hen), show bandsLeft q s = _ from if_neg (ne_true_of_eq_false hen)]
  exact congrArg Host.Outcome.next (checkedDone_slotOff (txSurfChecks_off s hen))

theorem chnRxSurf_enables (h : Admitted s q (bodyMask [(16, 0, 8), (17, 0, 3), (18, 0, 24), (22, 0, 80)])) (hen : q.bit 17 0 = true) :
    let r := s.rxSurf (q.u8 16)
    let all := fun (f : Nat → Bool) => ∀ n, q.u16 22 ≤ n → n < q.u16 22 + q.u8 18 → f n = true
    let good := q.u8 16 ≤ 15 ∧ 2 ≤ q.u8 18 ∧ q.u8 18 ≤ 4 ∧ q.u8 19 ≤ 7 ∧ q.u8 20 ≤ 15 ∧ q.u16 22 + q.u8 18 ≤ 4096 ∧ (q.bit 17 1 = true → q.u64 24 % 8 = 0)
    (¬ good → exec (.chnRxSurf q) s = .next (done s q 0x1004 stBadRange))
    ∧ (good → ¬ all (ownsSurf s q.part.val) → exec (.chnRxSurf q) s = .next (done s q 0x1004 stNotOwner))
    ∧ (good → all (ownsSurf s q.part.val) → ¬ all (fun n => (s.surf n).reg) → exec (.chnRxSurf q) s = .next (done s q 0x1004 stNotTracked))
    ∧ (good → all (ownsSurf s q.part.val) → all (fun n => (s.surf n).reg) → exec (.chnRxSurf q) s = .next (if r.enabled then done s q 0x1004 stSlotBusy
        else done (s.setRxSurf (q.u8 16) { enabled := true, part := q.part.val, m := q.u8 18, origin := q.u8 19, slot := q.u8 20, first := q.u16 22
                                           fenceOn := q.bit 17 1, fenceHost := q.bit 17 2, fenceAt := BitVec.ofNat 64 (q.u64 24), nMsgs := r.nMsgs }) q 0x1004 stComplete)) := by
  dsimp only
  rw [← rxSurfBad_iff hen, Bool.not_eq_false, ← all_upFrom, ← all_upFrom (f := fun n => (s.surf n).reg), Bool.not_eq_true, Bool.not_eq_true,
    exec_chnRxSurf h, rxSurfChecks_on s hen, show rxSurfSlot q _ = _ from if_pos hen]
  refine ⟨fun hb => ?_, fun hb ho => ?_, fun hb ho hr => ?_, fun hb ho hr => ?_⟩
  · rw [checkedDone_refused (firstFail_true hb)]
  · rw [checkedDone_refused (st := stNotOwner) (by rw [hb, ho]; rfl)]
  · rw [checkedDone_refused (st := stNotTracked) (by rw [hb, ho, hr]; rfl)]
  · cases ht : (s.rxSurf (q.u8 16)).enabled with
    | true => rw [checkedDone_refused (st := stSlotBusy) (by rw [hb, ho, hr]; rfl), if_pos rfl]
    | false => rw [checkedDone_passed (by rw [hb, ho, hr]; rfl), if_neg (by decide)]

theorem chnRxSurf_disables (h : Admitted s q (bodyMask [(16, 0, 8), (17, 0, 3), (18, 0, 24), (22, 0, 80)])) (hen : q.bit 17 0 = false) :
    let r := s.rxSurf (q.u8 16)
    exec (.chnRxSurf q) s = .next (if 15 < q.u8 16 then done s q 0x1004 stBadRange
      else if r.enabled = true ∧ r.part ≠ q.part.val then done s q 0x1004 stNotOwner
      else done (s.setRxSurf (q.u8 16) { nMsgs := r.nMsgs }) q 0x1004 stComplete) := by
  rw [exec_chnRxSurf h, show rxSurfSlot q _ = _ from if_neg (ne_true_of_eq_false hen)]
  exact congrArg Host.Outcome.next (checkedDone_slotOff (rxSurfChecks_off s hen))

/-- What a CHN_SEND comes to that reaches the reading of its bytes (R309, R372). -/
theorem chnSend_reads (h : Admitted s q (bodyMask [(16, 0, 32), (24, 0, 64)])) (hb : sendBad q = false) (hlost : sendLost q s = false)
    (hp : (s.port 0).state = .up ∨ (s.port 1).state = .up) {os : List Nat} {t : State}
    (hway : sendPorts s (if q.u8 16 = 255 then none else unitOf s (q.u8 16)) = os)
    (ht : (if os.isEmpty then finish (sendGone q (sendNoted q s os) (unitOf s (q.u8 16)) (sendRead q s).2.2) s.nextJob lostSend
      else sendGone q (sendNoted q s os) (unitOf s (q.u8 16)) (sendRead q s).2.2) = t) :
    exec (.chnSend q) s = .next (sendAfterRead q s t) := by
  rw [exec_chnSend_sends h hb hlost (noPort_iff.mpr hp), hway, ← ht]

theorem chnSend_broadcasts (h : Admitted s q (bodyMask [(16, 0, 32), (24, 0, 64)])) (hb : sendBad q = false) (hall : q.u8 16 = 255) :
    let os := ([0, 1] : List Nat).filter fun o => (s.port o).state == .up
    (os = [] → exec (.chnSend q) s = .next (done s q 0x1005 stNoLink))
    ∧ (os ≠ [] → exec (.chnSend q) s = .next (sendAfterRead q s (broadcast (sendNoted q s os) 7 (sendHdr q) (sendRead q s).2.2))) := by
  have hlost : sendLost q s = false := by rw [sendLost, hall]; rfl
  have hup : noPort s = false ↔ ([0, 1] : List Nat).filter (fun o => (s.port o).state == .up) ≠ [] := by
    rw [noPort_iff, Ne, List.filter_eq_nil_iff]
    simp [not_and_or, -not_and]
  refine ⟨fun hos => exec_chnSend_noPort h hb hlost (Bool.not_eq_false _ ▸ mt hup.mp (not_not_intro hos)), fun hos => ?_⟩
  refine chnSend_reads h hb hlost (noPort_iff.mp (hup.mpr hos)) (os := [0, 1].filter fun o => (s.port o).state == .up) (by rw [if_pos hall]; rfl) ?_
  rw [if_neg (mt List.isEmpty_iff.mp hos), sendGone, if_pos hall]

theorem chnSend_unicasts (h : Admitted s q (bodyMask [(16, 0, 32), (24, 0, 64)])) (hb : sendBad q = false) (hone : q.u8 16 ≠ 255) {a : Nat}
    (hunit : unitOf s (q.u8 16) = some a) :
    let o := if s.bit CHN_ROUTE a then 0 else 1
    ((s.port 0).state ≠ .up → (s.port 1).state ≠ .up → exec (.chnSend q) s = .next (done s q 0x1005 stNoLink))
    ∧ ((s.port o).state ≠ .up → (s.port (1 - o)).state = .up → exec (.chnSend q) s =
      .next (sendAfterRead q s (finish (sendTo (sendNoted q s []) a 7 (sendHdr q) (sendRead q s).2.2) s.nextJob lostSend)))
    ∧ ((s.port o).state = .up → exec (.chnSend q) s = .next (sendAfterRead q s (sendTo (sendNoted q s [o]) a 7 (sendHdr q) (sendRead q s).2.2))) := by
  intro o
  have hlost : sendLost q s = false := by rw [sendLost, hunit]; exact Bool.and_false _
  have hway (b : Bool) (hup : ((s.port o).state == .up) = b) :
      sendPorts s (if q.u8 16 = 255 then none else unitOf s (q.u8 16)) = if b then [o] else [] := by
    rw [if_neg hone, hunit]
    change [o].filter (fun p => (s.port p).state == .up) = _
    rw [List.filter_singleton, hup, Bool.cond_eq_ite]
  have hgone (os : List Nat) : sendGone q (sendNoted q s os) (unitOf s (q.u8 16)) (sendRead q s).2.2 =
      sendTo (sendNoted q s os) a 7 (sendHdr q) (sendRead q s).2.2 := by
    rw [sendGone, if_neg hone, hunit]
    rfl
  have hsome {x : Nat} (hx : x = 0 ∨ x = 1) (hup : (s.port x).state = .up) : (s.port 0).state = .up ∨ (s.port 1).state = .up := by
    rcases hx with rfl | rfl
    · exact .inl hup
    · exact .inr hup
  have ho : o = 0 ∨ o = 1 := by
    cases hr : s.bit CHN_ROUTE a with
    | true => exact .inl (if_pos hr)
    | false => exact .inr (if_neg (ne_true_of_eq_false hr))
  refine ⟨fun h0 h1 => exec_chnSend_noPort h hb hlost ?_, fun hdown hup => ?_, fun hup => ?_⟩
  · exact Bool.not_eq_false _ ▸ mt noPort_iff.mp (not_or.mpr ⟨h0, h1⟩)
  · refine chnSend_reads h hb hlost (hsome (by omega) hup) (hway false (beq_false_of_ne hdown)) ?_
    exact congrArg (finish · s.nextJob lostSend) (hgone [])
  · exact chnSend_reads h hb hlost (hsome ho hup) (hway true (beq_iff_eq.mpr hup)) (hgone [o])

theorem chnRxring_sets (h : Admitted s q (bodyMask [(16, 0, 2), (17, 0, 8), (24, 0, 64)])) :
    let good := 4 ≤ q.u8 17 ∧ q.u8 17 ≤ 10 ∧ q.u64 24 % 4096 = 0
    (q.bit 16 0 = true → good → exec (.chnRxring q) s = .next (done (s.setPart q.part.val
      { s.part q.part.val with ctrlRing := some (q.bit 16 1, q.u8 17, BitVec.ofNat 64 (q.u64 24), 0) }) q 0x1006 stComplete))
    ∧ (q.bit 16 0 = true → ¬ good → exec (.chnRxring q) s = .next (done s q 0x1006 stBadRange))
    ∧ (q.bit 16 0 = false → exec (.chnRxring q) s = .next (done (s.setPart q.part.val { s.part q.part.val with ctrlRing := none }) q 0x1006 stComplete)) := by
  rw [exec_chnRxring h]
  refine ⟨fun hen hgood => ?_, fun hen hbad => ?_, fun hen => ?_⟩
  · rw [checkedDone_passed (firstFail_false ((rxringBad_iff hen).mpr hgood)), rxringPart, hen]
    rfl
  · rw [checkedDone_refused (firstFail_true (Bool.not_eq_false _ ▸ mt (rxringBad_iff hen).mp hbad))]
  · rw [checkedDone_passed (firstFail_false (by rw [rxringBad, hen]; rfl)), rxringPart, hen]
    rfl

end Clauses

/-- Settles O52: each command by its checks, in the order of its table. -/
theorem chainCommands : Obligations.ChainCommands := by
  unfold Obligations.ChainCommands
  refine ⟨fun q s h => ⟨chnTxStream_enables h, chnTxStream_disables h⟩, fun q s h => ⟨chnRxStream_enables h, chnRxStream_disables h⟩,
    fun q s h => ⟨chnTxSurf_enables h, chnTxSurf_disables h⟩, fun q s h => ⟨chnRxSurf_enables h, chnRxSurf_disables h⟩, fun q s h => ?_,
    fun q s h => chnRxring_sets h⟩
  have hbad := sendBad_iff (q := q)
  refine ⟨fun hb => exec_chnSend_bad h (Bool.not_eq_false _ ▸ mt hbad.mp hb), fun hb hall => chnSend_broadcasts h (hbad.mpr hb) hall,
    fun hb hone => ⟨fun hno => exec_chnSend_lost h (hbad.mpr hb) ?_, fun a ha => chnSend_unicasts h (hbad.mpr hb) hone ha⟩⟩
  rw [sendLost, hno, Option.isNone_none, Bool.and_true]
  exact bne_iff_ne.mpr hone
end Sys2Proof.Machine

/-!
PROOFS of the chain family: a chain port from DOWN to UP and back (R347, R348, R351, R470, R471).
-/

namespace Sys2Proof.Machine

/-! ### The chain's ports -/

theorem OnlyRegs.chain {l : List Nat} {s t : State} (h : OnlyRegs l s t) : t.chain = s.chain := (congrArg State.chain h.back :)

theorem OnlyRegs.port {l : List Nat} {s t : State} (h : OnlyRegs l s t) (p : Nat) : t.port p = s.port p := by
  rw [State.port, h.chain, State.port]

theorem onlyRegs_plainWrite (s : State) (a : Nat) (v : Word) : OnlyRegs [a] s (plainWrite s a v) := ⟨plainWrite_others s a v, plainWrite_back s a v⟩

/-! ### Training (R347, R348) -/

/-- The checker states of the first `n` lanes of a quad cleared. -/
def lanesCleared (s : State) (q n : Nat) : State := s.each n fun s l => s.setFld (QD_LANE_STATE q l) 4 3 0

theorem lanesCleared_succ (s : State) (q n : Nat) : lanesCleared s q (n + 1) = (lanesCleared s q n).setFld (QD_LANE_STATE q n) 4 3 0 := by
  unfold lanesCleared State.each
  rw [List.range_succ, List.foldl_append]
  rfl

theorem laneState_inj {q l k : Nat} (h : QD_LANE_STATE q l = QD_LANE_STATE q k) : l = k := by
  unfold QD_LANE_STATE at h
  omega

theorem lanesCleared_fld (s : State) (q n : Nat) : ∀ l, l < n → (lanesCleared s q n).fld (QD_LANE_STATE q l) 4 3 = 0 := by
  induction n with
  | zero => exact fun l h => absurd h (Nat.not_lt_zero l)
  | succ n ih =>
    intro l h
    rw [lanesCleared_succ]
    rcases Nat.lt_succ_iff_lt_or_eq.mp h with h | rfl
    · have hne : QD_LANE_STATE q l ≠ QD_LANE_STATE q n := mt laneState_inj h.ne
      rw [State.fld_congr (State.setFld_sameRegsBut _ _ 4 3 0 _ (by simpa using hne)) 4 3, ih l h]
    · exact State.fld_setFld_same _ _ _ (by decide)

theorem onlyRegs_lanesCleared (s : State) (q n : Nat) : OnlyRegs ((List.range n).map (QD_LANE_STATE q)) s (lanesCleared s q n) := by
  induction n with
  | zero => exact ⟨fun _ _ => rfl, rfl⟩
  | succ n ih =>
    rw [lanesCleared_succ]
    refine (ih.mono fun a ha => ?_).trans (onlyRegs_setFld _ 4 3 0 ?_) <;> rw [List.range_succ, List.map_append]
    · exact List.mem_append_left _ ha
    · exact List.mem_append_right _ (by simp)

theorem wireBlocks_congr {s t : State} {p : Nat} (h : ∀ l, t.reg (QD_LANE_CTRL (5 + p) l) = s.reg (QD_LANE_CTRL (5 + p) l))
    (bs : List (BitVec 2 × Bytes)) : wireBlocks t p bs = wireBlocks s p bs := by
  unfold wireBlocks
  congr 1
  funext l b
  rw [State.bit_congr (h l)]

theorem trainingOut_congr {s t : State} {p : Nat} (h : ∀ l, t.reg (QD_LANE_CTRL (5 + p) l) = s.reg (QD_LANE_CTRL (5 + p) l))
    (ready : Bool) : trainingOut t p ready = trainingOut s p ready := by
  unfold trainingOut
  simp only [wireBlocks_congr h]

section Ctrl

/-- A port put in TRAIN, sending training blocks. -/
def trainSent (s : State) (p : Nat) : State :=
  (s.setPort p { s.port p with state := .train, cause := 0, locked := 0, skew := 0 }).emit (trainingOut s p false)

variable {s : State} {p : Nat} {v : Word}

theorem chnCtrl_ends (hdown : bitOf v.toNat 3 = true) : chnCtrl s p v =
    if (s.port p).state = .down then plainWrite s (CHN_P_CTRL p) v else portDown (plainWrite s (CHN_P_CTRL p) v) p 3 := by
  rw [← (onlyRegs_plainWrite s (CHN_P_CTRL p) v).port p]
  exact if_pos hdown

theorem chnCtrl_trains (hdown : bitOf v.toNat 3 = false) (htrain : bitOf v.toNat 2 = true) (hstate : (s.port p).state = .down) :
    chnCtrl s p v = trainSent (lanesCleared (plainWrite s (CHN_P_CTRL p) v) (5 + p) 4) p := by
  rw [← (onlyRegs_plainWrite s (CHN_P_CTRL p) v).port p] at hstate
  exact (if_neg (ne_true_of_eq_false hdown)).trans (if_pos (by simp [htrain, hstate]))

theorem chnCtrl_stays (hdown : bitOf v.toNat 3 = false) (h : bitOf v.toNat 2 = false ∨ (s.port p).state ≠ .down) :
    chnCtrl s p v = plainWrite s (CHN_P_CTRL p) v := by
  rw [← (onlyRegs_plainWrite s (CHN_P_CTRL p) v).port p] at h
  refine (if_neg (ne_true_of_eq_false hdown)).trans (if_neg ?_)
  rcases h with h | h <;> simp [h]

theorem trainSent_reg (u : State) (p a : Nat) : (trainSent u p).reg a = u.reg a := rfl

section Trains

variable {u : State} {p : Fin 2} (h : OnlyRegs (CHN_P_CTRL p.val :: (List.range 4).map (QD_LANE_STATE (5 + p.val))) s u)
include h

theorem trainSent_port : (trainSent u p.val).port p.val = { s.port p.val with state := .train, cause := 0, locked := 0, skew := 0 } := by
  rw [← h.port p.val]
  exact State.port_setPort u p.val _

theorem trainSent_ports (o : Nat) (ho : o ≠ p.val) : (trainSent u p.val).port o = s.port o := by
  rw [← h.port o]
  exact State.port_setPort_ne u _ ho

/-- The training blocks are the same before the write: they turn on the lanes' inversion alone (R466). -/
theorem trainSent_outbox : (trainSent u p.val).outbox = s.outbox ++ [trainingOut s p.val false] := by
  have houtbox : u.outbox = s.outbox := (congrArg State.outbox h.back :)
  have hwire (l : Nat) : u.reg (QD_LANE_CTRL (5 + p.val) l) = s.reg (QD_LANE_CTRL (5 + p.val) l) := by
    refine h.regs _ ?_
    simp only [List.mem_cons, List.mem_map, not_or, not_exists, not_and]
    unfold CHN_P_CTRL QD_LANE_CTRL QD_LANE_STATE
    exact ⟨by omega, fun k _ => by omega⟩
  rw [← trainingOut_congr hwire, ← houtbox]
  rfl

theorem trainSent_back : { trainSent u p.val with regs := s.regs, chain := s.chain, outbox := s.outbox } = s :=
  (congrArg (fun x : State => { x with chain := s.chain, outbox := s.outbox }) h.back :)

end Trains

/-- The lanes of a port cleared after the write of its control. -/
theorem onlyRegs_trainWrite (s : State) (p : Nat) (v : Word) : OnlyRegs (CHN_P_CTRL p :: (List.range 4).map (QD_LANE_STATE (5 + p))) s
    (lanesCleared (plainWrite s (CHN_P_CTRL p) v) (5 + p) 4) :=
  ((onlyRegs_plainWrite s (CHN_P_CTRL p) v).mono (by simp)).trans
    ((onlyRegs_lanesCleared _ (5 + p) 4).mono (List.subset_cons_self _ _))

theorem lanesCleared_ctrl (s : State) (p : Fin 2) : (lanesCleared s (5 + p.val) 4).reg (CHN_P_CTRL p.val) = s.reg (CHN_P_CTRL p.val) := by
  refine (onlyRegs_lanesCleared s (5 + p.val) 4).regs _ ?_
  simp only [List.mem_map, not_exists, not_and]
  unfold CHN_P_CTRL QD_LANE_STATE
  exact fun k _ => by omega

end Ctrl

/-! ### A port that goes DOWN (R351) -/

theorem sends_freeFlits (s : State) (p c n : Nat) (tell : Bool) : (freeFlits s p c n tell).chain.sends = s.chain.sends := by
  unfold freeFlits
  dsimp only
  split
  · rfl
  split
  · rfl
  · rfl

theorem sends_foldl {α : Type} {f : State → α → State} (h : ∀ s x, (f s x).chain.sends = s.chain.sends) (xs : List α) (s : State) :
    (xs.foldl f s).chain.sends = s.chain.sends := by
  induction xs generalizing s with
  | nil => rfl
  | cons x xs ih => exact (ih _).trans (h s x)

theorem sends_dropHeld (s : State) (p : Nat) (q : ChnPort) : (dropHeld s p q).chain.sends = s.chain.sends :=
  (sends_foldl (fun s _ => sends_freeFlits s _ _ _ _) _ _).trans (sends_foldl (fun s _ => sends_freeFlits s _ _ _ _) _ s)

theorem sends_cutClass (s : State) (p c : Nat) : (cutClass s p c).chain.sends = s.chain.sends := by
  unfold cutClass
  dsimp only
  split
  · rfl
  · exact sends_foldl (fun s _ => sends_freeFlits s _ _ _ _) _ _

/-- A port that is DOWN, what waited at it counted. -/
def portClosed (s : State) (p c : Nat) : State :=
  (s.port p).queue.foldl (fun s _ => s.inc (CHN_P_DEADEND p))
    (s.setPort p { state := .down, cause := c, delay := (s.port p).delay, delayAt := (s.port p).delayAt })

/-- What held the buffers of a port that went DOWN gives them back, and what went through is cut. -/
def throughCut (s : State) (p : Nat) (q : ChnPort) : State := [0, 1, 2, 3].foldl (fun s c => cutClass s p c) (dropHeld s p q)

theorem sends_portClosed (s : State) (p c : Nat) : (portClosed s p c).chain.sends = s.chain.sends :=
  sends_foldl (f := fun s _ => s.inc (CHN_P_DEADEND p)) (fun _ _ => rfl) _ _

theorem sends_throughCut (s : State) (p : Nat) (q : ChnPort) : (throughCut s p q).chain.sends = s.chain.sends := by
  rw [throughCut, sends_foldl fun s c => sends_cutClass s p c, sends_dropHeld]

/-- The CHN_SENDs of a port that will not be acknowledged ended. -/
def sendsEnded (w : State) (p : Nat) (sends : List (Nat × Nat × BitVec 16 × Option (BitVec 32))) : State :=
  endSends { w with chain := { w.chain with sends := sends.filter fun x => !(x.2.1 == p) } } ((sends.filter fun x => x.2.1 == p).map (·.1)) lostSend

/-- The end of a port that was UP recorded, and transfers that waited going on. -/
def linkDownRaised (s : State) (p c : Nat) : State :=
  nextTransfers (evcPulse (raiseKey s p evChnLinkDown 1 39 31 [(p, 4), (c, 8)]) 56)

theorem portDown_eq (s : State) (p c : Nat) : portDown s p c = if !((s.port p).state == .up) then portClosed s p c
    else linkDownRaised (sendsEnded (throughCut (portClosed s p c) p (s.port p)) p (throughCut (portClosed s p c) p (s.port p)).chain.sends) p c := by
  unfold portDown
  refine if_congr Iff.rfl rfl ?_
  unfold linkDownRaised sendsEnded throughCut portClosed
  rfl

theorem portDown_notUp {s : State} {p : Nat} (h : (s.port p).state ≠ .up) (c : Nat) : portDown s p c = portClosed s p c :=
  (portDown_eq s p c).trans (if_pos (by simp [h]))

theorem portDown_up {s : State} {p : Nat} (h : (s.port p).state = .up) (c : Nat) :
    portDown s p c = linkDownRaised (sendsEnded (throughCut (portClosed s p c) p (s.port p)) p s.chain.sends) p c := by
  rw [portDown_eq, if_neg (by simp [h]), sends_throughCut, sends_portClosed]

/-! ### The obligation -/

/-- Settles O46: each step of a port by its state. -/
theorem chainLinks : Obligations.ChainLinks := by
  unfold Obligations.ChainLinks
  refine ⟨fun a p v s hreach => ?_, fun s p c _ => ⟨fun h => portDown_notUp h c, fun h => ?_⟩, fun p l s => ?_,
    fun p skew side s => ?_, fun p s => ?_, fun p l s => ?_, fun a p v s hreach => ?_⟩
  case refine_1 =>
    have hexec {t : State} (ht : chnCtrl s p.val v = t) : exec (.chnTrain a p v) s = .next t ∧ exec (.chnDown a p v) s = .next t :=
      ⟨congrArg Host.Outcome.next ((regAccess_go hreach).trans ht), congrArg Host.Outcome.next ((regAccess_go hreach).trans ht)⟩
    have honly := onlyRegs_trainWrite s p.val v
    exact ⟨fun hdown htrain hstate => ⟨_, hexec (chnCtrl_trains hdown htrain hstate), trainSent_port honly,
        fun l hl => (State.fld_congr (trainSent_reg _ p.val _) 4 3).trans (lanesCleared_fld _ _ 4 l hl), trainSent_ports honly,
        (trainSent_reg _ p.val _).trans (lanesCleared_ctrl _ p), trainSent_outbox honly, fun a ha => (trainSent_reg _ p.val a).trans (honly.regs a ha),
        trainSent_back honly⟩,
      fun hdown h => hexec (chnCtrl_stays hdown h), fun hdown => hexec (chnCtrl_ends hdown)⟩
  case refine_2 =>
    dsimp only
    rw [portDown_up h, linkDownRaised, sendsEnded, throughCut, portClosed]
  case refine_3 =>
    refine ⟨fun h => ?_, fun h => ?_⟩
    · obtain ⟨hring, hnd, hnu, hrate, hsig⟩ := h
      refine congrArg Host.Outcome.next ((if_neg (by simp [hring, hnd, hnu, hrate, hsig])).trans ?_)
      simp only [Bool.and_eq_true, decide_eq_true_eq, beq_iff_eq]
    · exact congrArg Host.Outcome.next (if_pos (by simpa [imp_iff_not_or, or_assoc] using h))
  case refine_4 =>
    refine ⟨fun h => ?_, fun h => ?_⟩
    · obtain ⟨hring, hstate, hlocked⟩ := h
      exact congrArg Host.Outcome.next (if_neg (by simp [hring, hstate, hlocked]))
    · exact congrArg Host.Outcome.next (if_pos (by simpa [imp_iff_not_or, or_assoc] using h))
  case refine_5 =>
    refine ⟨fun h => ?_, fun h => ?_⟩
    · obtain ⟨hring, hstate, hlocked⟩ := h
      exact congrArg Host.Outcome.next (if_neg (by simp [hring, hstate, hlocked]))
    · exact congrArg Host.Outcome.next (if_pos (by simpa [imp_iff_not_or, or_assoc] using h))
  case refine_6 =>
    refine ⟨fun hring hup => ?_, fun hring hnu hnd => ?_, fun h => ?_⟩
    · exact congrArg Host.Outcome.next ((if_neg (by simp [hring, hup])).trans (if_pos hup))
    · exact congrArg Host.Outcome.next ((if_neg (by simp [hring, hnd])).trans (if_neg hnu))
    · exact congrArg Host.Outcome.next (if_pos (by simpa using h))
  case refine_7 =>
    refine ⟨_, congrArg Host.Outcome.next (regAccess_go hreach), ?_, State.fld_setFld_beside s _ _ (by decide) (.inl (by decide)),
      State.setFld_sameRegsBut s _ 16 7 _, rfl⟩
    refine (State.fld_setFld_same s _ _ (by decide)).trans (Nat.mod_eq_of_lt ?_)
    split <;> omega

end Sys2Proof.Machine

/-!
PROOFS of the chain family: replay, acknowledgement and credit (R346, R349–R351, R372).
-/

namespace Sys2Proof.Machine

/-! ### At a port that is UP -/

section Up

variable {p : Fin 2} {s : State} (hup : chainUp s p.val = true)
include hup

theorem exec_flitCheckFail (x : BadFlit) : exec (.flitCheckFail p x) s = .next (match x with
    | .control => s.inc (CHN_P_CRC_ERR p.val)
    | .failed on => poisonOn (if ((s.inc (CHN_P_CRC_ERR p.val)).port p.val).nakWait then s.inc (CHN_P_CRC_ERR p.val)
        else sendNak (s.inc (CHN_P_CRC_ERR p.val)) p.val) p.val on
    | .poisoned c on => poisonOn (takeFlit c.val true p.val (s.inc (CHN_P_POISON p.val))) p.val on) :=
  congrArg Host.Outcome.next (if_neg (by simp [hup]))

theorem exec_nakResend_due : exec (.nakResend p) s = .next
    (if (s.port p.val).nakWait = true ∧ (s.port p.val).nakAt + 1000 ≤ s.island then sendNak s p.val else s) :=
  congrArg Host.Outcome.next (if_congr (by simp [hup]) rfl rfl)

theorem exec_nakRx_up (n : BitVec 32) : exec (.nakRx p n) s = .next (replay s p.val ((s.port p.val).outst.dropWhile fun f => f.1 != n)) :=
  congrArg Host.Outcome.next (if_pos hup)

theorem exec_replayTimeout_due : exec (.replayTimeout p) s = .next
    (if (s.port p.val).ackAt + 4000 ≤ s.island then replay s p.val (s.port p.val).outst else s) :=
  congrArg Host.Outcome.next (if_congr (by simp [hup]) rfl rfl)

theorem exec_ackDue_due : exec (.ackDue p) s = .next
    (if (s.port p.val).rxSeq ≠ (s.port p.val).acked ∧ (s.port p.val).sentAt + 200 ≤ s.island then sendAck s p.val else s) :=
  congrArg Host.Outcome.next (if_congr (by simp [hup]) rfl rfl)

end Up

/-- A flit that is taken frees its buffer, and each 16th is acknowledged (R349, R350). -/
theorem takeFlit_eq (s : State) (p c : Nat) (free : Bool) : takeFlit c free p s =
    let q := s.port p
    let u := (s.setPort p { q with rxSeq := q.rxSeq + 1, recv := if free then q.recv.set c (q.recv.getD c 0 + 1) else q.recv, nakWait := false }).inc (CHN_P_RX_FLITS p)
    if 16 ≤ (q.rxSeq + 1 - q.acked).toNat then sendAck u p else u := by
  unfold takeFlit
  dsimp only
  rw [show ∀ v : ChnPort, ((s.setPort p v).inc (CHN_P_RX_FLITS p)).port p = v from fun v => State.port_setPort s p v]

/-! ### Replay (R349, R351) -/

theorem flitOut_congr {s t : State} {p : Nat} (h : ∀ l, t.reg (QD_LANE_CTRL (5 + p) l) = s.reg (QD_LANE_CTRL (5 + p) l))
    (seq : BitVec 32) (code : BitVec 4) (full : Bytes) : flitOut t p seq code full = flitOut s p seq code full := by
  rw [flitOut, wireBlocks_congr h, flitOut]

/-- Outputs that each turn on the state alone which emitting leaves. -/
theorem foldl_emitFrom {α : Type} (f : State → α → Out) (hf : ∀ (t : State) o x, f (t.emit o) x = f t x) (xs : List α) (s : State) :
    xs.foldl (fun t x => t.emit (f t x)) s = { s with outbox := s.outbox ++ xs.map (f s) } := by
  induction xs generalizing s with
  | nil => rw [List.map_nil, List.append_nil]; rfl
  | cons x xs ih =>
    rw [List.foldl_cons, ih, List.map_cons, show f (s.emit (f s x)) = f s from funext (hf s _)]
    simp only [State.emit, List.append_assoc, List.singleton_append]

theorem foldl_flits (p : Nat) (fs : List (BitVec 32 × BitVec 4 × Bytes)) (s : State) :
    fs.foldl (fun t f => t.emit (flitOut t p f.1 f.2.1 f.2.2)) s = { s with outbox := s.outbox ++ fs.map fun f => flitOut s p f.1 f.2.1 f.2.2 } :=
  foldl_emitFrom (fun t f => flitOut t p f.1 f.2.1 f.2.2) (fun _ _ _ => rfl) fs s

section Replay

variable {s : State} {p : Nat} {fs : List (BitVec 32 × BitVec 4 × Bytes)}

theorem replay_nine (hfs : fs ≠ []) (h : 8 ≤ (s.port p).tries) : replay s p fs = portDown s p 2 :=
  (if_neg (mt List.isEmpty_iff.mp hfs)).trans (if_pos h)

/-- A replay sends the outstanding flits again as they were: the counter of replays is no lane's control. -/
theorem replay_again (hfs : fs ≠ []) (h : (s.port p).tries < 8) : replay s p fs =
    { (s.setPort p { s.port p with tries := (s.port p).tries + 1, ackAt := s.island }).inc (CHN_P_REPLAY p) with
      outbox := s.outbox ++ fs.map fun f => flitOut s p f.1 f.2.1 f.2.2 } := by
  have hwire (v : ChnPort) (l : Nat) : ((s.setPort p v).inc (CHN_P_REPLAY p)).reg (QD_LANE_CTRL (5 + p) l) = s.reg (QD_LANE_CTRL (5 + p) l) := by
    refine State.reg_inc_ne (s.setPort p v) ?_
    unfold CHN_P_REPLAY QD_LANE_CTRL
    omega
  refine (if_neg (mt List.isEmpty_iff.mp hfs)).trans ((if_neg (Nat.not_le.mpr h)).trans ?_)
  have hsame (v : ChnPort) : fs.map (fun f => flitOut ((s.setPort p v).inc (CHN_P_REPLAY p)) p f.1 f.2.1 f.2.2) =
      fs.map fun f => flitOut s p f.1 f.2.1 f.2.2 := List.map_congr_left fun f _ => flitOut_congr (hwire v) f.1 f.2.1 f.2.2
  refine (foldl_flits p fs _).trans ?_
  rw [hsame]
  rfl

end Replay

/-! ### Acknowledgement (R349, R372) -/

theorem finish_chain (s : State) (id st : Nat) (body : BitVec 128) : (finish s id st body).chain = s.chain := by
  obtain ⟨_, _, h⟩ := finish_changes s id st body
  rw [h]

theorem endSends_chain (s : State) (old : List Nat) (st : Nat) : (endSends s old st).chain = s.chain := by
  unfold endSends
  generalize old.eraseDups = ids
  induction ids generalizing s with
  | nil => rfl
  | cons id ids ih =>
    rw [List.foldl_cons, ih]
    split
    · rfl
    · exact finish_chain s id st 0

section Ack

variable (s : State) (p : Nat) (n : BitVec 32)

/-- A CHN_SEND whose last flit an acknowledgement covers. -/
def ackCovers (p : Nat) (n : BitVec 32) (x : Nat × Nat × BitVec 16 × Option (BitVec 32)) : Bool :=
  x.2.1 == p && match x.2.2.2 with
    | some l => !seqGe l n
    | none => false

theorem ackCovers_eq (p : Nat) (n : BitVec 32) : ackCovers p n = fun x => x.2.1 == p && x.2.2.2.any fun l => !seqGe l n := by
  funext ⟨id, port, seq, last⟩
  cases last <;> rfl

/-- The flits that an acknowledgement leaves outstanding. -/
def ackRest (s : State) (p : Nat) (n : BitVec 32) : List (BitVec 32 × BitVec 4 × Bytes) := (s.port p).outst.filter fun f => seqGe f.1 n

/-- An acknowledgement that frees flits. -/
def ackMoved (s : State) (p : Nat) (n : BitVec 32) : State :=
  let u := s.setPort p { s.port p with outst := ackRest s p n, tries := 0, ackAt := s.island }
  endSends { u with chain := { u.chain with sends := s.chain.sends.filter fun x => !ackCovers p n x } } ((s.chain.sends.filter (ackCovers p n)).map (·.1)) stComplete

theorem ackTo_eq : ackTo s p n = if !seqGe (s.port p).txSeq n || decide ((ackRest s p n).length = (s.port p).outst.length) then s else ackMoved s p n := by
  unfold ackTo ackMoved ackCovers ackRest
  rfl

variable {s p n}

theorem ackTo_moves (h : seqGe (s.port p).txSeq n = true ∧ (ackRest s p n).length < (s.port p).outst.length) : ackTo s p n = ackMoved s p n := by
  rw [ackTo_eq, if_neg (by simp [h.1, h.2.ne])]

theorem ackTo_stays (h : ¬ (seqGe (s.port p).txSeq n = true ∧ (ackRest s p n).length < (s.port p).outst.length)) : ackTo s p n = s := by
  have hle : (ackRest s p n).length ≤ (s.port p).outst.length := List.length_filter_le _ _
  rw [ackTo_eq, if_pos]
  simp only [Bool.or_eq_true, Bool.not_eq_true', decide_eq_true_eq]
  by_cases hge : seqGe (s.port p).txSeq n = true
  · exact .inr (Nat.le_antisymm hle (Nat.not_lt.mp fun hlt => h ⟨hge, hlt⟩))
  · exact .inl (Bool.not_eq_true _ ▸ hge)

theorem ackTo_txF : (ackTo s p n).chain.txF = s.chain.txF := by
  by_cases h : seqGe (s.port p).txSeq n = true ∧ (ackRest s p n).length < (s.port p).outst.length
  · rw [ackTo_moves h, ackMoved, endSends_chain]
    rfl
  · rw [ackTo_stays h]

end Ack

/-! ### A port with nothing to send (R352) -/

section Idle

variable {s : State} {p : Nat} (hc : (s.port p).cur = [])
include hc

theorem nextClass_idle : nextClass s p = none := by
  unfold nextClass
  simp only [hc]
  rfl

variable (hq : (s.port p).queue = [])
include hq

theorem startCls_idle (c : Nat) : startCls s p c = s := by
  unfold startCls nextOf
  simp only [hq, hc]
  rfl

theorem pump_idle (fuel : Nat) : pump fuel s p = s := by
  cases fuel with
  | zero => rfl
  | succ fuel =>
    unfold pump
    simp only [List.foldl_cons, List.foldl_nil, startCls_idle hc hq, nextClass_idle hc, ite_self]

end Idle

theorem nextTransfers_none {s : State} (h : s.chain.txF = []) : nextTransfers s = s := by
  unfold nextTransfers
  rw [h]
  rfl

/-! ### The obligation -/

/-- Settles O47: each command at a port that is UP by its equation, and the replay, the poisoned flit and the acknowledgement by theirs. -/
theorem chainReplay : Obligations.ChainReplay := by
  unfold Obligations.ChainReplay
  refine ⟨fun p s hup => ⟨exec_flitCheckFail hup .control, fun on => exec_flitCheckFail hup (.failed on), exec_nakResend_due hup, fun c on => ?_,
      exec_nakRx_up hup, exec_replayTimeout_due hup, exec_ackDue_due hup⟩,
    fun p x n cr c s hdown => ?_, fun s p fs => ⟨fun h => ?_, replay_nine, replay_again⟩, fun s p code bs => ⟨rfl, fun hstate hroom => ?_, fun h => ?_⟩,
    fun s p k v hk => ?_, fun s p n => ⟨ackTo_stays, fun h => ?_⟩, fun p n cr s hup => ⟨?_, fun hq hc htx => ?_⟩, fun p c s hup => ?_⟩
  case refine_1 => exact (exec_flitCheckFail hup (.poisoned c on)).trans (congrArg (fun t => Host.Outcome.next (poisonOn t p.val on)) (takeFlit_eq _ _ _ true))
  case refine_2 =>
    have hoff {t : State} : (if !chainUp s p.val then s else t) = s := if_pos (by simp [hdown])
    have hnot {b : Bool} : ¬ (chainUp s p.val && b) = true := by simp [hdown]
    have hnot' {b c : Bool} : ¬ (chainUp s p.val && b && c) = true := by simp [hdown]
    exact ⟨congrArg Host.Outcome.next hoff, congrArg Host.Outcome.next (if_neg hnot'), congrArg Host.Outcome.next (if_neg (ne_true_of_eq_false hdown)),
      congrArg Host.Outcome.next (if_neg hnot), congrArg Host.Outcome.next (if_neg hnot'), congrArg Host.Outcome.next hoff, congrArg Host.Outcome.next hoff⟩
  case refine_3 => rw [h]; rfl
  case refine_4 => exact if_pos ⟨hstate, hroom⟩
  case refine_5 =>
    refine if_neg fun hboth => ?_
    rcases h with h | h
    · exact h hboth.1
    · exact Nat.not_lt.mpr h hboth.2
  case refine_6 =>
    unfold lctrl lctrlOut lctrlCode
    rw [if_neg hk]
    rfl
  case refine_7 =>
    rw [ackTo_moves h, ackMoved, ackCovers_eq]
    rfl
  case refine_8 => exact congrArg Host.Outcome.next (if_neg (by simp [hup]))
  case refine_9 =>
    refine congrArg Host.Outcome.next ((if_neg (by simp [hup])).trans ?_)
    have hidle (v : ChnPort) (hv : v.queue = []) (hv' : v.cur = []) : nextTransfers (pump 129 ((ackTo s p.val n).setPort p.val v) p.val) = (ackTo s p.val n).setPort p.val v := by
      rw [pump_idle (by rw [State.port_setPort, hv']) (by rw [State.port_setPort, hv])]
      exact nextTransfers_none (ackTo_txF.trans htx)
    exact hidle _ hq hc
  case refine_10 => exact congrArg Host.Outcome.next (if_neg (by simp [hup]))

end Sys2Proof.Machine

/-!
PROOFS of the chain family: the way of a message (R349, R350, R356, R358–R361, R76).
-/

namespace Sys2Proof.Machine

/-! ### Taking flits (R349, R350) -/

/-- What taking flits on port `p` leaves: all registers but the port's count, the power state, the delays of the links. -/
structure FlitsTaken (p : Nat) (s t : State) : Prop where
  regs : SameRegsBut [CHN_P_RX_FLITS p] s t
  ctl : t.ctl = s.ctl
  delay : ∀ o, (t.port o).delay = (s.port o).delay

theorem FlitsTaken.trans {p : Nat} {s t u : State} (h : FlitsTaken p s t) (k : FlitsTaken p t u) : FlitsTaken p s u :=
  ⟨h.regs.trans k.regs, k.ctl.trans h.ctl, fun o => (k.delay o).trans (h.delay o)⟩

theorem delay_setPort {s : State} {p : Nat} {v : ChnPort} (h : v.delay = (s.port p).delay) (o : Nat) : ((s.setPort p v).port o).delay = (s.port o).delay := by
  by_cases ho : o = p
  · rw [ho, State.port_setPort, h]
  · rw [State.port_setPort_ne s v ho]

theorem flitsTaken_setPort {s : State} {p : Nat} {v : ChnPort} (h : v.delay = (s.port p).delay) : FlitsTaken p s (s.setPort p v) :=
  ⟨fun _ _ => rfl, rfl, delay_setPort h⟩

theorem flitsTaken_sendAck (s : State) (p : Nat) : FlitsTaken p s (sendAck s p) :=
  ⟨fun _ _ => rfl, rfl, delay_setPort (v := { s.port p with acked := (s.port p).rxSeq, sentAt := s.island }) rfl⟩

theorem flitsTaken_takeFlit (s : State) (p c : Nat) (free : Bool) : FlitsTaken p s (takeFlit c free p s) := by
  have hu (v : ChnPort) (hv : v.delay = (s.port p).delay) : FlitsTaken p s ((s.setPort p v).inc (CHN_P_RX_FLITS p)) :=
    (flitsTaken_setPort hv).trans ⟨sameRegsBut_setReg _ _ (List.mem_singleton_self _), rfl, fun _ => rfl⟩
  rw [takeFlit_eq]
  dsimp only
  split
  · refine FlitsTaken.trans (hu _ ?_) (flitsTaken_sendAck _ p)
    rfl
  · refine hu _ ?_
    rfl

theorem flitsTaken_account (s : State) (p : Nat) (m : Msg) (free : Bool) : FlitsTaken p s (account s p m free) := by
  unfold account State.each
  generalize List.range m.flits = xs
  induction xs generalizing s with
  | nil => exact ⟨fun _ _ => rfl, rfl, fun _ => rfl⟩
  | cons x xs ih => exact (flitsTaken_takeFlit s p m.cls free).trans (ih _)

section Account

variable (s : State) (p : Nat) (m : Msg) (free : Bool)

theorem addr_account : (account s p m free).reg CHN_ADDR = s.reg CHN_ADDR := by
  refine (flitsTaken_account s p m free).regs _ ?_
  rw [List.mem_singleton]
  unfold CHN_ADDR CHN_P_RX_FLITS
  omega

theorem physAddr_account : (account s p m free).physAddr = s.physAddr := State.fld_congr (addr_account s p m free) 0 3

end Account

section Latency

variable (s : State) (p : Fin 2) (m : Msg) (free : Bool)

/-- The latencies of the ports are the same while a message arrives. -/
theorem txLat_account (o : Nat) : txLat (account s p.val m free) o = txLat s o := by
  have h := flitsTaken_account s p.val m free
  have hne {a : Nat} (ha : a ≠ CHN_P_RX_FLITS p.val) : (account s p.val m free).reg a = s.reg a := h.regs a (by rwa [List.mem_singleton])
  unfold txLat
  rw [h.ctl, hne (by unfold TB_PORT_TXLAT CHN_P_RX_FLITS; omega), State.fld_congr (hne (by unfold CHN_P_CTRL CHN_P_RX_FLITS; omega)) 0 2]

theorem rxLat_account (o : Nat) : rxLat (account s p.val m free) o = rxLat s o := by
  have h := flitsTaken_account s p.val m free
  have hne {a : Nat} (ha : a ≠ CHN_P_RX_FLITS p.val) : (account s p.val m free).reg a = s.reg a := h.regs a (by rwa [List.mem_singleton])
  unfold rxLat
  rw [h.ctl, hne (by unfold TB_PORT_RXLAT CHN_P_RX_FLITS; omega), State.fld_congr (hne (by unfold CHN_P_CTRL CHN_P_RX_FLITS; omega)) 0 2]

end Latency

/-! ### Arrival and delivery (R356, R358–R360) -/

section Arrive

variable {s : State} {p : Nat} {m : Msg}

/-- Whether a message is one of this unit's own. -/
def ownMsg (s : State) (m : Msg) : Bool := m.origin.toNat == s.physAddr && s.bit CHN_ADDR 3

theorem arrive_up (hup : chainUp s p = true) : arrive s p m =
    let u := account s p m
    if ownMsg s m then (u.inc CHN_RET, false)
    else if m.bcast then if m.kind = 2 then (u, true) else if isLater u m then (noteLast u m, true) else (u, false)
    else if m.epoch.toNat != s.fld CHN_ADDR 4 4 then (u.inc CHN_STALE, false)
    else (u, s.bit CHN_ADDR 3 && m.dst.toNat == s.physAddr) := by
  have haddr := addr_account s p m true
  unfold arrive ownMsg
  dsimp only
  rw [if_neg (by simp [hup]), physAddr_account s p m true, State.bit_congr haddr 3, State.fld_congr haddr 4 4]
  rfl

/-- A message that has arrived is given on, but for one of a reserved type. -/
theorem deliver_given {w : State} (h : arrive s p m = (w, true)) :
    deliver s p m = if 1 ≤ m.kind.toNat ∧ m.kind.toNat ≤ 10 then (w, true) else (w.inc CHN_NODEST, false) := by
  have hkind : reservedKind m = true ↔ ¬ (1 ≤ m.kind.toNat ∧ m.kind.toNat ≤ 10) := by
    have hzero : m.kind = 0 ↔ m.kind.toNat = 0 := BitVec.toNat_inj.symm
    simp only [reservedKind, Bool.or_eq_true, beq_iff_eq, decide_eq_true_eq, hzero]
    omega
  unfold deliver
  dsimp only
  rw [h]
  by_cases hk : 1 ≤ m.kind.toNat ∧ m.kind.toNat ≤ 10
  · rw [if_pos hk, if_neg (by simpa [hkind] using hk)]
  · rw [if_neg hk, if_pos (by simpa [hkind] using hk)]

theorem deliver_kept {w : State} (h : arrive s p m = (w, false)) : deliver s p m = (w, false) := by
  unfold deliver
  dsimp only
  rw [h]
  exact if_neg (by simp)

end Arrive

/-! ### Forwarding (R352, R353, R356, R358, R361) -/

section Forward

variable {p : Fin 2} {m : Msg} {d : BitVec 64} {s : State}

/-- A message that is not for this unit alone, nor an enumeration. -/
abbrev GoesOn (s : State) (p : Fin 2) (m : Msg) : Prop :=
  chainUp s p.val = true ∧ m.kind ≠ 1 ∧ (m.bcast = true ∨ m.dst.toNat ≠ s.physAddr ∨ s.bit CHN_ADDR 3 = false)

/-- A message that is taken before it goes on; a broadcast was taken where it was delivered. -/
def takenFirst (s : State) (p : Fin 2) (m : Msg) (free : Bool) : State := if m.bcast = true then s else account s p.val m free

/-- A message with one more hop, and TIME with what its way through this unit and by the link took. -/
def forwarded (s : State) (p : Fin 2) (m : Msg) (d : BitVec 64) : Msg :=
  let n : Msg := { m with hops := m.hops + 1 }
  if m.kind = 2 then
    setH n 18 8 (unsigned 64 (signed 64 (n.hN 18 8) + (d.toNat : Int) + ((txLat s (1 - p.val) + rxLat s p.val : Nat) : Int) * 256 + (s.port p.val).delay * 256))
  else n

theorem forwarded_taken (free : Bool) : forwarded (takenFirst s p m free) p m d = forwarded s p m d := by
  unfold takenFirst
  split
  · rfl
  · unfold forwarded
    rw [txLat_account, rxLat_account, (flitsTaken_account s p.val m free).delay]

theorem forwarded_bcast : (forwarded s p m d).bcast = m.bcast := by
  unfold forwarded
  dsimp only
  split
  · rfl
  · rfl

/-- Whether a message's epoch is another than this unit's (R356). -/
def staleMsg (s : State) (m : Msg) : Bool := !m.bcast && m.epoch.toNat != s.fld CHN_ADDR 4 4

theorem exec_messageForward (h : GoesOn s p m) : exec (.messageForward p m d) s = .next
    (if ownMsg s m || decide (m.hops.toNat + 1 ≥ 7) then (takenFirst s p m (ownMsg s m || decide (m.hops.toNat + 1 ≥ 7) || staleMsg s m)).inc CHN_RET
    else if staleMsg s m then (takenFirst s p m true).inc CHN_STALE
    else portSend (takenFirst s p m false) (1 - p.val) (if m.bcast then .passed else .held) (forwarded s p m d)) := by
  obtain ⟨hup, hkind, hto⟩ := h
  refine congrArg Host.Outcome.next ((if_neg ?_).trans ?_)
  · rcases hto with h | h | h <;> simpa [hup, h] using hkind
  · change (if ownMsg s m || decide (m.hops.toNat + 1 ≥ 7) then (takenFirst s p m (ownMsg s m || decide (m.hops.toNat + 1 ≥ 7) || staleMsg s m)).inc CHN_RET
      else if staleMsg s m then (takenFirst s p m (ownMsg s m || decide (m.hops.toNat + 1 ≥ 7) || staleMsg s m)).inc CHN_STALE
      else portSend (takenFirst s p m (ownMsg s m || decide (m.hops.toNat + 1 ≥ 7) || staleMsg s m)) (1 - p.val)
        (if (forwarded (takenFirst s p m (ownMsg s m || decide (m.hops.toNat + 1 ≥ 7) || staleMsg s m)) p m d).bcast then .passed else .held)
        (forwarded (takenFirst s p m (ownMsg s m || decide (m.hops.toNat + 1 ≥ 7) || staleMsg s m)) p m d)) = _
    rw [forwarded_taken, forwarded_bcast]
    generalize (ownMsg s m || decide (m.hops.toNat + 1 ≥ 7)) = ret
    cases ret with
    | true => rfl
    | false =>
      cases staleMsg s m with
      | true => rfl
      | false => rfl

end Forward

/-! ### The obligation -/

/-- Settles O48: a message's arrival by whose it is, and its way on. -/
theorem chainDelivery : Obligations.ChainDelivery := by
  unfold Obligations.ChainDelivery
  refine ⟨fun s p m => ⟨fun hdown => ?_, fun hup => ?_⟩, fun s p m free => ⟨rfl, rfl⟩, fun s p c free => takeFlit_eq s p c free, fun p m d s => ?_⟩
  case refine_1 => exact deliver_kept (if_pos (by simp [hdown]))
  case refine_2 =>
    have harrive := arrive_up (m := m) hup
    refine ⟨fun hown => ?_, fun hown hb => ⟨fun hk => ?_, fun hk hlater => ?_, fun hk hlater => ?_⟩, fun hown hb => ⟨fun he => ?_, fun he => ⟨fun hm => ?_, fun hm => ?_⟩⟩⟩
    · exact deliver_kept (harrive.trans (if_pos hown))
    all_goals replace harrive := harrive.trans (if_neg (ne_true_of_eq_false hown))
    · refine (deliver_given (harrive.trans ((if_pos hb).trans (if_pos hk)))).trans (if_pos ?_)
      rw [hk]
      decide
    · exact deliver_given (harrive.trans ((if_pos hb).trans ((if_neg hk).trans (if_pos hlater))))
    · exact deliver_kept (harrive.trans ((if_pos hb).trans ((if_neg hk).trans (if_neg (ne_true_of_eq_false hlater)))))
    all_goals replace harrive := harrive.trans (if_neg (ne_true_of_eq_false hb))
    · exact deliver_kept (harrive.trans (if_pos (by simpa using he)))
    all_goals replace harrive := harrive.trans (if_neg (by simpa using he))
    · refine deliver_given (harrive.trans (congrArg _ ?_))
      simpa using hm
    · refine deliver_kept (harrive.trans (congrArg _ ?_))
      simpa using hm
  case refine_3 =>
    refine ⟨fun h => ?_, fun h hret => ?_, fun h hown hhops hb he => ?_, fun h hown hhops he => ⟨fun hk => ?_, fun hk => ?_⟩⟩
    · refine congrArg Host.Outcome.next (if_pos ?_)
      by_cases hup : chainUp s p.val = true
      · by_cases hk : m.kind = 1
        · simp [hk]
        · have hto : ¬ (m.bcast = true ∨ m.dst.toNat ≠ s.physAddr ∨ s.bit CHN_ADDR 3 = false) := fun h' => h ⟨hup, hk, h'⟩
          obtain ⟨hb, hd, hbit⟩ : m.bcast = false ∧ m.dst.toNat = s.physAddr ∧ s.bit CHN_ADDR 3 = true := by simpa using hto
          simp [hb, hd, hbit]
      · simp [hup]
    · have hr : (ownMsg s m || decide (m.hops.toNat + 1 ≥ 7)) = true := by
        rcases hret with hret | hret
        · rw [ownMsg, hret, Bool.true_or]
        · rw [decide_eq_true (by omega), Bool.or_true]
      rw [exec_messageForward h, hr]
      rfl
    all_goals
      have hr : (ownMsg s m || decide (m.hops.toNat + 1 ≥ 7)) = false := by rw [ownMsg, hown, Bool.false_or, decide_eq_false (by omega)]
      rw [exec_messageForward h, hr]
    · have hst : staleMsg s m = true := by simpa [staleMsg, hb] using he
      rw [hst]
      rfl
    all_goals
      have hst : staleMsg s m = false := by rcases he with he | he <;> simp [staleMsg, he]
      rw [hst, forwarded]
    · rw [if_neg hk]
      rfl
    · rw [if_pos hk]
      rfl

end Sys2Proof.Machine

/-!
PROOFS of the chain family: what sending a message leaves of the chain (R351–R353) — the ports, the CHN_SENDs, the sequences and the ports'
counters differ, and nothing else of it; and what an event leaves of an enumeration (R354, R386).
-/

namespace Sys2Proof.Machine

/-! ### Sending -/

/-- Nothing but the ports and their counters, the CHN_SENDs, the sequence numbers and the outputs differs. -/
structure SendsOnly (s t : State) : Prop where
  regs : ∀ a, a < 0x270100 → t.reg a = s.reg a
  back : { t with regs := s.regs, outbox := s.outbox
                  chain := { t.chain with ports := s.chain.ports, sends := s.chain.sends, seqs := s.chain.seqs } } = s

theorem SendsOnly.refl (s : State) : SendsOnly s s := ⟨fun _ _ => rfl, rfl⟩

theorem SendsOnly.trans {s t u : State} (h : SendsOnly s t) (k : SendsOnly t u) : SendsOnly s u := by
  refine ⟨fun a ha => (k.regs a ha).trans (h.regs a ha), ?_⟩
  calc { u with regs := s.regs, outbox := s.outbox, chain := { u.chain with ports := s.chain.ports, sends := s.chain.sends, seqs := s.chain.seqs } }
    _ = { ({ u with regs := t.regs, outbox := t.outbox
                    chain := { u.chain with ports := t.chain.ports, sends := t.chain.sends, seqs := t.chain.seqs } } : State) with
          regs := s.regs, outbox := s.outbox
          chain := { u.chain with ports := s.chain.ports, sends := s.chain.sends, seqs := s.chain.seqs } } := rfl
    _ = { t with regs := s.regs, outbox := s.outbox, chain := { t.chain with ports := s.chain.ports, sends := s.chain.sends, seqs := s.chain.seqs } } :=
        congrArg (fun x : State => { x with
          regs := s.regs, outbox := s.outbox
          chain := { x.chain with ports := s.chain.ports, sends := s.chain.sends, seqs := s.chain.seqs } }) k.back
    _ = s := h.back

theorem SendsOnly.ite {s t u : State} {c : Prop} [Decidable c] (ht : SendsOnly s t) (hu : SendsOnly s u) : SendsOnly s (if c then t else u) := by
  split
  · exact ht
  · exact hu

theorem SendsOnly.foldl {α : Type} {f : State → α → State} (h : ∀ s x, SendsOnly s (f s x)) (xs : List α) (s : State) :
    SendsOnly s (xs.foldl f s) := by
  induction xs generalizing s with
  | nil => exact .refl s
  | cons x xs ih => exact (h s x).trans (ih _)

theorem SendsOnly.peers {s t : State} (h : SendsOnly s t) : t.chain.peers = s.chain.peers := (congrArg (fun x : State => x.chain.peers) h.back :)

theorem sendsOnly_inc (s : State) {a : Nat} (ha : 0x270100 ≤ a) : SendsOnly s (s.inc a) :=
  ⟨fun b hb => State.reg_inc_ne s (by omega), rfl⟩

theorem sendsOnly_setPort (s : State) (p : Nat) (v : ChnPort) : SendsOnly s (s.setPort p v) := ⟨fun _ _ => rfl, rfl⟩

theorem sendsOnly_emit (s : State) (o : Out) : SendsOnly s (s.emit o) := ⟨fun _ _ => rfl, rfl⟩

theorem sendsOnly_freeFlits (s : State) (p c n : Nat) (tell : Bool) : SendsOnly s (freeFlits s p c n tell) := by
  have hack (t : State) : SendsOnly t (sendAck t p) := (sendsOnly_setPort t p _).trans (sendsOnly_emit _ _)
  have hfreed := sendsOnly_setPort s p { s.port p with recv := (s.port p).recv.set c ((s.port p).recv.getD c 0 + n) }
  exact .ite (.refl s) (.ite (hfreed.trans (hack _)) hfreed)

theorem sendsOnly_sendFlit (s : State) (p : Nat) (code : BitVec 4) (bs : Bytes) (poison : Bool) : SendsOnly s (sendFlit s p code bs poison) := by
  have hcount : 0x270100 ≤ CHN_P_TX_FLITS p := by
    unfold CHN_P_TX_FLITS
    omega
  exact ((sendsOnly_setPort s p _).trans (sendsOnly_inc _ hcount)).trans (sendsOnly_emit _ _)

theorem sendsOnly_startCls (s : State) (p c : Nat) : SendsOnly s (startCls s p c) := by
  have hmark (way : Way) (m : Msg) (seq : BitVec 32) : SendsOnly s (markSend s p way m seq) := .ite (.refl s) ⟨fun _ _ => rfl, rfl⟩
  unfold startCls
  extract_lets q
  refine .ite (.refl s) ?_
  split
  · exact .refl s
  · exact .ite ((hmark _ _ _).trans (sendsOnly_setPort _ p _)) (.refl s)

theorem sendsOnly_sendOne (s : State) (p c : Nat) : SendsOnly s (sendOne s p c) := by
  unfold sendOne
  extract_lets q
  split
  · exact ((sendsOnly_setPort s p _).trans (sendsOnly_sendFlit _ p _ _ _)).trans (.ite (sendsOnly_freeFlits _ _ _ _ _) (.refl _))
  · exact .refl s

theorem sendsOnly_pump (fuel : Nat) (s : State) (p : Nat) : SendsOnly s (pump fuel s p) := by
  induction fuel generalizing s with
  | zero => exact .refl s
  | succ fuel ih =>
    unfold pump
    refine .ite (.refl s) ?_
    extract_lets started
    have hstarted : SendsOnly s started := .foldl (fun s c => sendsOnly_startCls s p c) _ s
    split
    · exact hstarted.trans ((sendsOnly_sendOne _ p _).trans (ih _))
    · exact hstarted

theorem sendsOnly_portSend (s : State) (p : Nat) (way : Way) (m : Msg) : SendsOnly s (portSend s p way m) := by
  have hcount : 0x270100 ≤ CHN_P_DEADEND p := by
    unfold CHN_P_DEADEND
    omega
  have hfreed := SendsOnly.ite (c := way = .held) (sendsOnly_freeFlits s (1 - p) m.cls m.flits true) (.refl s)
  exact .ite (hfreed.trans (sendsOnly_inc _ hcount)) ((sendsOnly_setPort s p _).trans (sendsOnly_pump _ _ p))

theorem sendsOnly_broadcast (s : State) (kind hdr : Nat) (body : Bytes) : SendsOnly s (broadcast s kind hdr body) := by
  have hnew : SendsOnly s (newMsg s kind 0 true hdr body).1 := ⟨fun _ _ => rfl, rfl⟩
  exact hnew.trans ((sendsOnly_portSend _ 0 .own _).trans (sendsOnly_portSend _ 1 .own _))

/-! ### What an enumeration goes by (R354, R355) -/

/-- The enumeration in progress, its result and the unit's address stay. -/
structure KeepsEnum (s t : State) : Prop where
  on : t.chain.enumOn = s.chain.enumOn
  west : t.chain.west = s.chain.west
  started : t.chain.enumAt = s.chain.enumAt
  regs : ∀ a, 0x270000 ≤ a → a ≤ 0x270008 → t.reg a = s.reg a

theorem KeepsEnum.refl (s : State) : KeepsEnum s s := ⟨rfl, rfl, rfl, fun _ _ _ => rfl⟩

theorem KeepsEnum.trans {s t u : State} (h : KeepsEnum s t) (k : KeepsEnum t u) : KeepsEnum s u :=
  ⟨k.on.trans h.on, k.west.trans h.west, k.started.trans h.started, fun a ha ha' => (k.regs a ha ha').trans (h.regs a ha ha')⟩

theorem KeepsEnum.of_chain {s t : State} (hc : t.chain = s.chain) (hr : ∀ a, 0x270000 ≤ a → a ≤ 0x270008 → t.reg a = s.reg a) : KeepsEnum s t :=
  ⟨congrArg Chain.enumOn hc, congrArg Chain.west hc, congrArg Chain.enumAt hc, hr⟩

theorem KeepsEnum.ite {s t u : State} {c : Prop} [Decidable c] (ht : KeepsEnum s t) (hu : KeepsEnum s u) : KeepsEnum s (if c then t else u) := by
  split
  · exact ht
  · exact hu

theorem KeepsEnum.foldl {α : Type} {f : State → α → State} (h : ∀ s x, KeepsEnum s (f s x)) (xs : List α) (s : State) :
    KeepsEnum s (xs.foldl f s) := by
  induction xs generalizing s with
  | nil => exact .refl s
  | cons x xs ih => exact (h s x).trans (ih _)

theorem KeepsEnum.each {f : State → Nat → State} (h : ∀ s k, KeepsEnum s (f s k)) (n : Nat) (s : State) : KeepsEnum s (s.each n f) := .foldl h _ s

theorem KeepsEnum.of_sendsOnly {s t : State} (h : SendsOnly s t) : KeepsEnum s t := by
  obtain ⟨hregs, hback⟩ := h
  exact ⟨(congrArg (fun x : State => x.chain.enumOn) hback :), (congrArg (fun x : State => x.chain.west) hback :),
    (congrArg (fun x : State => x.chain.enumAt) hback :), fun a _ ha => hregs a (by omega)⟩

theorem keepsEnum_setReg (s : State) {a : Nat} (v : Word) (ha : a < 0x270000 ∨ 0x270008 < a) : KeepsEnum s (s.setReg a v) :=
  .of_chain rfl fun b hb hb' => State.reg_setReg_ne s v (by omega)

theorem keepsEnum_setFld (s : State) {a : Nat} (lo n v : Nat) (ha : a < 0x270000 ∨ 0x270008 < a) : KeepsEnum s (s.setFld a lo n v) := keepsEnum_setReg s _ ha

theorem keepsEnum_setPair (s : State) {lo hi : Nat} (v : Nat) (hlo : lo < 0x270000 ∨ 0x270008 < lo) (hhi : hi < 0x270000 ∨ 0x270008 < hi) :
    KeepsEnum s (s.setPair lo hi v) := (keepsEnum_setReg s _ hlo).trans (keepsEnum_setReg _ _ hhi)

theorem KeepsEnum.of_evcOnly {s t : State} (h : EvcOnly s t) : KeepsEnum s t := by
  have hlist : ∀ b ∈ EVC_MERGED :: evcRegs, b < 0x270000 ∨ 0x270008 < b := by decide
  refine .of_chain (congrArg State.chain h.back :) fun a ha ha' => h.regs a fun hin => ?_
  have hout := hlist a hin
  omega

/-! ### The entry into YIELD leaves it (R386) -/

theorem keepsEnum_settleBits (s : State) (n l : Nat) : KeepsEnum s (settleBits s n l) := by
  have hbits : KeepsEnum s (s.setPair (QD_LANE_BITS_LO n l) (QD_LANE_BITS_HI n l) (laneBits s n l)) :=
    keepsEnum_setPair s _ (by unfold QD_LANE_BITS_LO; omega) (by unfold QD_LANE_BITS_HI; omega)
  unfold settleBits
  generalize s.setPair (QD_LANE_BITS_LO n l) (QD_LANE_BITS_HI n l) (laneBits s n l) = u at hbits
  exact hbits.trans (.of_chain rfl fun _ _ _ => rfl)

theorem keepsEnum_leaveTest (s : State) : KeepsEnum s (leaveTest s) := by
  have hcfg (n : Nat) : 0x270008 < QD_CFG n := by unfold QD_CFG; omega
  have hrate (n : Nat) : 0x270008 < QD_TEST_RATE n := by unfold QD_TEST_RATE; omega
  have hctrl (n l : Nat) : 0x270008 < QD_LANE_CTRL n l := by unfold QD_LANE_CTRL; omega
  have hprbs (n l : Nat) : 0x270008 < QD_LANE_PRBS n l := by unfold QD_LANE_PRBS; omega
  have hloop (n l : Nat) : 0x270008 < QD_LANE_LOOP n l := by unfold QD_LANE_LOOP; omega
  have hstat (n l : Nat) : 0x270008 < QD_LANE_PRBS_STAT n l := by unfold QD_LANE_PRBS_STAT; omega
  unfold leaveTest
  extract_lets cleared
  have hcleared : KeepsEnum s cleared := by
    refine .each (fun s n => ?_) 16 s
    refine .trans (.each (fun s l => keepsEnum_settleBits s n l) 4 s) ?_
    refine .trans ((keepsEnum_setFld _ 3 1 _ (.inr (hcfg n))).trans (keepsEnum_setReg _ _ (.inr (hrate n)))) (.each (fun s l => ?_) 4 _)
    exact .trans ((keepsEnum_setFld s 2 4 0 (.inr (hctrl n l))).trans (keepsEnum_setReg _ _ (.inr (hprbs n l))))
      ((keepsEnum_setReg _ 0 (.inr (hloop n l))).trans (keepsEnum_setFld _ 0 1 _ (.inr (hstat n l))))
  clear_value cleared
  exact .ite (.refl s) (hcleared.trans (.of_chain rfl fun _ _ _ => rfl))

theorem keepsEnum_pinsOff (s : State) (p : Nat) : KeepsEnum s (pinsOff s p) :=
  .ite (.of_chain rfl fun _ _ _ => rfl) (.of_chain rfl fun _ _ _ => rfl)

theorem keepsEnum_yieldJobs (s : State) : KeepsEnum s (yieldJobs false s) := ⟨rfl, rfl, rfl, fun _ _ _ => rfl⟩

theorem keepsEnum_enterYield (s : State) {ev : Nat} (cls part det : Nat) (hev : ev ≠ 0x82) : KeepsEnum s (enterYield s ev cls part det) := by
  unfold enterYield
  extract_lets noted captured left ctl yielding stopped held cleared
  have hnoted : KeepsEnum s noted := keepsEnum_setReg s _ (by decide)
  have hcaptured : KeepsEnum s captured :=
    hnoted.trans ((keepsEnum_setPair _ _ (by decide) (by decide)).trans (keepsEnum_setPair _ _ (by decide) (by decide)))
  have hleft : KeepsEnum s left := hcaptured.trans (.ite (keepsEnum_setFld _ 0 1 _ (by decide)) (keepsEnum_leaveTest _))
  have hyielding : KeepsEnum s yielding := hleft.trans (.of_chain rfl fun _ _ _ => rfl)
  have hstopped : KeepsEnum s stopped := by
    unfold stopped
    rw [if_neg hev, beq_false_of_ne hev]
    refine hyielding.trans (.trans ?_ (.each keepsEnum_pinsOff 2 _))
    have hdark : KeepsEnum yielding (allDark yielding) := .of_chain rfl fun _ _ _ => rfl
    exact (hdark.trans (keepsEnum_yieldJobs _)).trans (.of_chain rfl fun _ _ _ => rfl)
  have hcleared : KeepsEnum s cleared := hstopped.trans (keepsEnum_setFld _ 3 1 _ (by decide))
  exact hcleared.trans (.of_sendsOnly (sendsOnly_broadcast _ _ _ _))

/-! ### Events of the chain -/

theorem keepsEnum_logGlobal (s : State) (r : LogRec) : KeepsEnum s (logGlobal s r) := by
  have hadded (t : State) : KeepsEnum s { s with glog := t.glog } := .of_chain rfl fun _ _ _ => rfl
  unfold logGlobal
  extract_lets n u
  have hu : KeepsEnum s u := .of_chain rfl fun _ _ _ => rfl
  refine .ite (.refl s) (.ite ?_ ?_)
  · exact hu.trans ((keepsEnum_setReg _ _ (by decide)).trans (.of_evcOnly (evcOnly_evcPulse _ 46)))
  · refine keepsEnum_setFld s _ _ _ ?_
    split
    · decide
    · decide

/-- An event of no partition, but for the shutdown, leaves an enumeration as it is. -/
theorem keepsEnum_raiseN (n : Nat) (s : State) {ev part : Nat} (cls slot det supp : Nat) (hev : ev ≠ 0x82) (hpart : 16 ≤ part) :
    KeepsEnum s (raiseN n s ev cls slot part det supp) := by
  cases n with
  | zero => exact .refl s
  | succ n =>
    unfold raiseN recordEv
    extract_lets y r logged noted
    have hnoted : KeepsEnum s noted := by
      rw [show noted = logged from if_neg (by omega)]
      exact keepsEnum_logGlobal s r
    exact .ite (.refl s) (.ite hnoted (.ite (hnoted.trans (.of_chain rfl fun _ _ _ => rfl)) (hnoted.trans (keepsEnum_enterYield _ _ _ _ hev))))

theorem keepsEnum_raise (s : State) {ev part : Nat} (cls slot : Nat) (det : List (Nat × Nat)) (hev : ev ≠ 0x82) (hpart : 16 ≤ part) :
    KeepsEnum s (raise s ev cls slot part det) := keepsEnum_raiseN 3 s cls slot _ 0 hev hpart

theorem keepsEnum_raiseKey (s : State) (key : Nat) {ev part : Nat} (cls slot : Nat) (det : List (Nat × Nat)) (hev : ev ≠ 0x82) (hpart : 16 ≤ part) :
    KeepsEnum s (raiseKey s key ev cls slot part det) := by
  have hquiet (q : List Quiet) : KeepsEnum s { s with quiets := q } := .of_chain rfl fun _ _ _ => rfl
  unfold raiseKey limited
  split
  · exact .ite (hquiet _) ((hquiet _).trans (keepsEnum_raiseN 3 _ cls slot _ _ hev hpart))
  · exact (hquiet _).trans (keepsEnum_raiseN 3 _ cls slot _ _ hev hpart)

/-! ### The map (R357) -/

/-- One logical ID's turn in the map. -/
def mapStep (s : State) (id : Nat) : State :=
  let hs := holdersOf s id
  let s := match hs.1 ++ hs.2 with
    | a :: _ => s.setFld CHN_MAP (4 * id) 4 (a + 8)
    | [] => s.setFld CHN_MAP (4 * id) 4 0
  let was := bitOf s.chain.conflict.toNat id
  match hs.1 with
  | a :: b :: _ =>
    if was then s
    else
      let s := { s with chain := { s.chain with conflict := s.chain.conflict ||| BitVec.ofNat 8 (2 ^ id) } }
      let s := raiseKey s id evLogicalConflict 2 39 31 [(id, 3), (a, 3), (b, 3)]
      if s.rdn.took && s.holder && s.logicalId == id then raise { s with rdn := { s.rdn with took := false } } evSwapSplit 2 40 31 [] else s
  | _ => { s with chain := { s.chain with conflict := s.chain.conflict &&& ~~~ BitVec.ofNat 8 (2 ^ id) } }

theorem mapUpdate_eq (s : State) : mapUpdate s = s.each 8 mapStep := rfl

theorem keepsEnum_mapStep (s : State) (id : Nat) : KeepsEnum s (mapStep s id) := by
  unfold mapStep
  extract_lets hs shown was
  have hshown : KeepsEnum s shown := by
    unfold shown
    split
    · exact keepsEnum_setFld s _ _ _ (by decide)
    · exact keepsEnum_setFld s _ _ _ (by decide)
  clear_value shown
  have hsame (c : BitVec 8) : KeepsEnum shown { shown with chain := { shown.chain with conflict := c } } := ⟨rfl, rfl, rfl, fun _ _ _ => rfl⟩
  split
  next a b rest =>
    extract_lets told rdn
    have htold : KeepsEnum s told :=
      (hshown.trans (hsame _)).trans (keepsEnum_raiseKey _ id (ev := evLogicalConflict) (part := 31) 2 39 _ (by decide) (by decide))
    clear_value told
    refine .ite hshown (.ite (htold.trans (.trans ?_ (keepsEnum_raise _ (ev := evSwapSplit) (part := 31) _ _ _ (by decide) (by decide)))) htold)
    exact .of_chain rfl fun _ _ _ => rfl
  · exact hshown.trans (hsame _)

theorem keepsEnum_mapUpdate (s : State) : KeepsEnum s (mapUpdate s) := by
  rw [mapUpdate_eq]
  exact .each keepsEnum_mapStep 8 s

end Sys2Proof.Machine

/-!
PROOFS of the chain family: logical IDs, HELLO, enumeration and the vault register (R354–R358, R369, R377, R380).
-/

namespace Sys2Proof.Machine

/-! ### The map of a unit that knows no other (R357) -/

/-- What CHN_MAP shows of an ID that no other unit holds. -/
def mapOwn (s : State) (id : Nat) : Nat := if s.bit CHN_ADDR 3 && s.holder && s.logicalId == id then s.physAddr + 8 else 0

/-- The map's turn of an ID without other units: its field shows this unit or none, and no conflict is left. -/
def mapAlone (s : State) (id : Nat) : State :=
  let u := s.setFld CHN_MAP (4 * id) 4 (mapOwn s id)
  { u with chain := { u.chain with conflict := u.chain.conflict &&& ~~~ BitVec.ofNat 8 (2 ^ id) } }

theorem mapStep_alone {s : State} (h : s.chain.peers = []) (id : Nat) : mapStep s id = mapAlone s id := by
  unfold mapStep mapAlone mapOwn holdersOf
  rw [h]
  cases s.bit CHN_ADDR 3 && s.holder && s.logicalId == id with
  | true => rfl
  | false => rfl

/-- The map's turns of the first `n` IDs. -/
structure MapAlone (n : Nat) (s t : State) : Prop where
  peers : t.chain.peers = []
  shows : ∀ j, j < n → t.fld CHN_MAP (4 * j) 4 = mapOwn s j
  regs : SameRegsBut [CHN_MAP] s t
  back : { t with regs := s.regs, chain := s.chain } = s

theorem mapOwn_congr {s t : State} (h : SameRegsBut [CHN_MAP] s t) (id : Nat) : mapOwn t id = mapOwn s id := by
  have haddr : t.reg CHN_ADDR = s.reg CHN_ADDR := h _ (by decide)
  have hlogical : t.reg CHN_LOGICAL = s.reg CHN_LOGICAL := h _ (by decide)
  unfold mapOwn State.holder State.logicalId State.physAddr
  rw [State.bit_congr haddr, State.bit_congr hlogical, State.fld_congr hlogical, State.fld_congr haddr]

theorem mapOwn_lt (s : State) (id : Nat) : mapOwn s id < 2 ^ 4 := by
  have haddr : s.physAddr < 8 := Nat.mod_lt _ (by decide)
  unfold mapOwn
  split <;> omega

theorem mapAlone_turns {s : State} (h : s.chain.peers = []) (n : Nat) (hn : n ≤ 8) : MapAlone n s (s.each n mapStep) := by
  induction n with
  | zero => exact ⟨h, fun j hj => absurd hj (Nat.not_lt_zero j), fun _ _ => rfl, rfl⟩
  | succ n ih =>
    obtain ⟨hpeers, hshows, hregs, hback⟩ := ih (by omega)
    have hturn : s.each (n + 1) mapStep = mapAlone (s.each n mapStep) n := by
      rw [← mapStep_alone hpeers]
      unfold State.each
      rw [List.range_succ, List.foldl_append]
      rfl
    rw [hturn]
    generalize s.each n mapStep = t at hpeers hshows hregs hback
    refine ⟨hpeers, fun j hj => ?_, fun a ha => ?_, ?_⟩
    · change (t.setFld CHN_MAP (4 * n) 4 (mapOwn t n)).fld CHN_MAP (4 * j) 4 = mapOwn s j
      rcases Nat.lt_succ_iff_lt_or_eq.mp hj with hj | rfl
      · rw [State.fld_setFld_beside t _ _ (by omega) (.inl (by omega)), hshows j hj]
      · rw [State.fld_setFld_same t _ _ (by omega), mapOwn_congr hregs, Nat.mod_eq_of_lt (mapOwn_lt s j)]
    · exact (State.setFld_sameRegsBut t _ _ _ _ a ha).trans (hregs a ha)
    · exact hback

theorem mapUpdate_alone {s : State} (h : s.chain.peers = []) : MapAlone 8 s (mapUpdate s) := by
  rw [mapUpdate_eq]
  exact mapAlone_turns h 8 (by decide)

/-! ### Logical IDs (R357, R377) -/

theorem chnLogical_row : (rowAt CHN_LOGICAL).map (fun r => (r.rw, r.w1c)) = some (0xF, 0) := by decide +kernel

theorem chnLogical_bit (s : State) (v : Word) {k : Nat} (hk : k < 4) : (plainWrite s CHN_LOGICAL v).bit CHN_LOGICAL k = bitOf v.toNat k := by
  obtain ⟨r, hr, hrow⟩ := Option.map_eq_some_iff.mp chnLogical_row
  obtain ⟨hrw, hw1c⟩ := Prod.mk.inj hrow
  have hbits : writeBits s CHN_LOGICAL r = 0xF := by
    unfold writeBits CHN_LOGICAL
    exact hrw
  unfold plainWrite
  rw [hr]
  dsimp only
  rw [hbits, hw1c]
  unfold State.bit
  rw [State.reg_setReg_same]
  exact writeWord_bit _ v 0xF k (by omega) (by interval_cases k <;> decide)

theorem chnLogical_id (s : State) (v : Word) : (plainWrite s CHN_LOGICAL v).logicalId = bitsOf v.toNat 0 3 := by
  refine Nat.eq_of_testBit_eq fun i => ?_
  unfold State.logicalId State.fld
  rw [testBit_bitsOf, testBit_bitsOf]
  by_cases hi : i < 3
  · have hbit := chnLogical_bit s v (k := i) (by omega)
    unfold State.bit at hbit
    rw [bitOf_eq_testBit, bitOf_eq_testBit] at hbit
    simp [hi, hbit]
  · simp [hi]

section Logical

variable {s : State} {a : Access} {v : Word} (hreach : Reaches s a .w CHN_LOGICAL)
include hreach

/-- An ID that another unit is known to hold. -/
abbrev idTaken (s : State) (v : Word) : Prop :=
  bitOf v.toNat 3 = true ∧ s.bit CHN_MAP (4 * bitsOf v.toNat 0 3 + 3) = true
    ∧ (s.bit CHN_ADDR 3 = false ∨ s.fld CHN_MAP (4 * bitsOf v.toNat 0 3) 3 ≠ s.physAddr)

theorem exec_chnLogicalWrite_refused (h : idTaken s v) : exec (.chnLogicalWrite a v) s = .next (accessEv s evAccessState a CHN_LOGICAL) :=
  congrArg Host.Outcome.next ((regAccess_go hreach).trans (if_pos (by simpa [heldElsewhere] using h)))

theorem exec_chnLogicalWrite_takes (h : ¬ idTaken s v) : exec (.chnLogicalWrite a v) s = .next (mapUpdate (plainWrite s CHN_LOGICAL v)) :=
  congrArg Host.Outcome.next ((regAccess_go hreach).trans (if_neg (by simpa [heldElsewhere] using h)))

end Logical

/-- A unit that knows no other shows itself in the map as the one holder. -/
theorem logicalTaken_shows (s : State) (v : Word) (hset : bitOf v.toNat 3 = true) (haddr : s.bit CHN_ADDR 3 = true) (hpeers : s.chain.peers = []) :
    let t := mapUpdate (plainWrite s CHN_LOGICAL v)
    t.logicalId = bitsOf v.toNat 0 3 ∧ t.holder = true ∧ t.fld CHN_MAP (4 * bitsOf v.toNat 0 3) 4 = s.physAddr + 8
      ∧ (∀ j, j < 8 → j ≠ bitsOf v.toNat 0 3 → t.fld CHN_MAP (4 * j) 4 = 0) ∧ SameRegsBut [CHN_LOGICAL, CHN_MAP] s t
      ∧ { t with regs := s.regs, chain := s.chain } = s := by
  have hwrite := onlyRegs_plainWrite s CHN_LOGICAL v
  have hid := chnLogical_id s v
  have hholder := chnLogical_bit s v (k := 3) (by decide)
  generalize plainWrite s CHN_LOGICAL v = u at hwrite hid hholder ⊢
  obtain ⟨-, hshows, hregs, hback⟩ := mapUpdate_alone (s := u) (by rw [hwrite.chain, hpeers])
  generalize mapUpdate u = t at hshows hregs hback ⊢
  have hlt : bitsOf v.toNat 0 3 < 8 := Nat.mod_lt _ (by decide)
  have hreg : u.reg CHN_ADDR = s.reg CHN_ADDR := hwrite.regs _ (by decide)
  have hlogical : t.reg CHN_LOGICAL = u.reg CHN_LOGICAL := hregs _ (by decide)
  have hown (j : Nat) : mapOwn u j = if bitsOf v.toNat 0 3 = j then s.physAddr + 8 else 0 := by
    unfold mapOwn State.holder State.physAddr
    rw [State.bit_congr hreg, haddr, hholder, hset, hid, State.fld_congr hreg]
    simp
  refine ⟨(State.fld_congr hlogical 0 3).trans hid, (State.bit_congr hlogical 3).trans (hholder.trans hset), ?_, fun j hj hne => ?_, fun b hb => ?_, ?_⟩
  · rw [hshows _ hlt, hown, if_pos rfl]
  · rw [hshows j hj, hown, if_neg hne.symm]
  · rw [List.mem_cons, not_or] at hb
    exact (hregs b hb.2).trans (hwrite.regs b (by simpa using hb.1))
  · exact (congrArg (fun x : State => { x with regs := s.regs, chain := s.chain }) hback :).trans
      (congrArg (fun x : State => { x with chain := s.chain }) hwrite.back :)

/-! ### HELLO (R357, R369) -/

theorem isFresh_iff (s : State) (r : Peer) : isFresh s r = false ↔ ∀ t ∈ r.heard, t + 1000000 * s.fld CHN_HELLO_TO 0 10 ≤ s.island := by
  unfold isFresh
  cases r.heard <;> simp

theorem exec_helloSend (s : State) : exec .helloSend s = .next
    (if s.ctl.ring = true ∧ s.bit CHN_ADDR 3 = true ∧ ∀ t ∈ s.chain.helloAt, t + 1000000 ≤ s.island then
      let u := broadcast s 5 (hput 8 1 s.logicalId + hput 9 1 (Bool.nat s.holder) + hput 10 1 s.ctl.mode.code + hput 12 4 s.chain.hello.toNat) []
      { u with chain := { u.chain with hello := u.chain.hello + 1, helloAt := some u.island } }
    else s) := by
  refine congrArg Host.Outcome.next ((ite_not _ _ _).symm.trans (if_congr ?_ rfl rfl)).symm
  rw [← dueAgain_iff (s := s) (last := s.chain.helloAt) (period := 1000000)]
  simp [imp_iff_not_or, or_assoc]

/-- A HELLO of another unit tells by its port the way to it (R358, log 40). -/
def helloPorted (u : State) (p : Fin 2) (o : Nat) : State :=
  u.setPeer o { u.peer o with ports := (u.peer o).ports ||| BitVec.ofNat 2 (2 ^ p.val) }

/-- A HELLO noted, and a silent unit resumed (R357, R369). -/
def helloNoted (u : State) (p : Fin 2) (m : Msg) : State :=
  let o := m.origin.toNat
  let w := helloPorted u p o
  let x := w.setPeer o { w.peer o with logical := m.h8 8 % 8, holder := bitOf (m.h8 9) 0, mode := m.h8 10 % 8, heard := some u.island, epoch := m.epoch.toNat }
  mapUpdate (if u.bit CHN_HELLO_LOST o = true ∧ (u.peer o).heard = none then raiseKey x o evHelloResumed 0 39 31 [(o, 3)] else x)

section Hello

variable {p : Fin 2} {m : Msg} {s u : State} {here : Bool} (hdeliver : deliver s p.val m = (u, here))
include hdeliver

theorem exec_helloRx : exec (.helloRx p m) s = .next
    (if m.kind != 5 || !chainUp u p.val || (decide (m.origin.toNat = u.physAddr) && u.bit CHN_ADDR 3) then u
    else if !here then helloPorted u p m.origin.toNat
    else if (helloNoted u p m).chain.toRoute && decide ((helloNoted u p m).chain.enumAt + 5000000 ≤ (helloNoted u p m).island) && !(helloNoted u p m).chain.enumOn
      then loadRoute (helloNoted u p m) else helloNoted u p m) := by
  have hback : (u.bit CHN_HELLO_LOST m.origin.toNat && ((helloPorted u p m.origin.toNat).peer m.origin.toNat).heard.isNone) = true
      ↔ u.bit CHN_HELLO_LOST m.origin.toNat = true ∧ (u.peer m.origin.toNat).heard = none := by
    rw [helloPorted, State.peer_setPeer]
    simp
  refine congrArg Host.Outcome.next ?_
  unfold doHelloRx
  dsimp only
  rw [hdeliver]
  refine if_congr Iff.rfl rfl (if_congr Iff.rfl rfl ?_)
  have hnoted : helloNoted u p m = mapUpdate (if u.bit CHN_HELLO_LOST m.origin.toNat && ((helloPorted u p m.origin.toNat).peer m.origin.toNat).heard.isNone then
      raiseKey _ m.origin.toNat evHelloResumed 0 39 31 [(m.origin.toNat, 3)] else _) := congrArg mapUpdate (if_congr hback.symm rfl rfl)
  rw [hnoted]
  rfl

end Hello

theorem exec_helloTimeout (o : Fin 8) (s : State) : exec (.helloTimeout o) s = .next
    (if s.ctl.ring = true ∧ s.bit CHN_HELLO_WATCH o.val = true ∧ s.bit CHN_HELLO_LOST o.val = false
        ∧ ∀ t ∈ (s.peer o.val).heard, t + 1000000 * s.fld CHN_HELLO_TO 0 10 ≤ s.island then
      evcInput (raiseKey ((s.setBit CHN_HELLO_LOST o.val true).setPeer o.val { s.peer o.val with heard := none })
        o.val evHelloTimeout 1 39 31 [(o.val, 3), ((s.peer o.val).logical, 3)]) 55 true
    else s) := by
  refine congrArg Host.Outcome.next ((ite_not _ _ _).symm.trans (if_congr ?_ rfl rfl)).symm
  rw [← isFresh_iff s (s.peer o.val)]
  simp [imp_iff_not_or, or_assoc]

/-! ### Enumeration (R354, R355) -/

theorem takeAddr_shows (s : State) (k e : Nat) : let t := takeAddr s k e
    t.reg CHN_ADDR = BitVec.ofNat 32 (k + 8 + 16 * e) ∧ t.chain.toRoute = true ∧ t.chain.enumAt = s.island ∧ SameRegsBut [CHN_ADDR] s t
      ∧ { t with regs := s.regs, chain := s.chain } = s :=
  ⟨State.reg_setReg_same s CHN_ADDR _, rfl, rfl, sameRegsBut_setReg s _ (List.mem_singleton_self _), rfl⟩

/-- The unit at the start of its enumeration: address 0, a new epoch, no result (R354). -/
def enumBegun (s : State) : State :=
  let u := takeAddr s 0 ((s.fld CHN_ADDR 4 4 + 1) % 16)
  let v := (u.setReg CHN_ENUM_STATUS (BitVec.ofNat 32 (u.fld CHN_ENUM_STATUS 16 16 * 2 ^ 16))).resultOpen CHN_ENUM_STATUS
  { v with chain := { v.chain with enumOn := true, west := false, eastN := 0 } }

theorem enumBegun_addr (s : State) : (enumBegun s).reg CHN_ADDR = BitVec.ofNat 32 (8 + 16 * ((s.fld CHN_ADDR 4 4 + 1) % 16)) := by
  have hstatus : CHN_ADDR ≠ CHN_ENUM_STATUS := by decide
  unfold enumBegun
  dsimp only
  change (((takeAddr s 0 ((s.fld CHN_ADDR 4 4 + 1) % 16)).setReg CHN_ENUM_STATUS _).setReg CHN_ENUM_STATUS _).reg CHN_ADDR = _
  rw [State.reg_setReg_ne _ _ hstatus, State.reg_setReg_ne _ _ hstatus, (takeAddr_shows s 0 _).1, Nat.zero_add]

/-- A count in the upper half of a word, and nothing below it. -/
theorem upperHalf_shows {n : Nat} (h : n < 2 ^ 16) : bitsOf (BitVec.ofNat 32 (n * 2 ^ 16)).toNat 0 16 = 0
    ∧ bitsOf (BitVec.ofNat 32 (n * 2 ^ 16)).toNat 16 16 = n ∧ putBits (BitVec.ofNat 32 (n * 2 ^ 16)) 0 1 0 = BitVec.ofNat 32 (n * 2 ^ 16) := by
  have hw : (BitVec.ofNat 32 (n * 2 ^ 16)).toNat = n * 2 ^ 16 := by
    rw [BitVec.toNat_ofNat]
    omega
  unfold putBits bitsOf
  rw [hw]
  refine ⟨by omega, by omega, congrArg (BitVec.ofNat 32) ?_⟩
  omega

theorem enumBegun_status (s : State) : (enumBegun s).reg CHN_ENUM_STATUS = BitVec.ofNat 32 (s.fld CHN_ENUM_STATUS 16 16 * 2 ^ 16) := by
  have hlt : s.fld CHN_ENUM_STATUS 16 16 < 2 ^ 16 := Nat.mod_lt _ (by decide)
  have hfld : (takeAddr s 0 ((s.fld CHN_ADDR 4 4 + 1) % 16)).fld CHN_ENUM_STATUS 16 16 = s.fld CHN_ENUM_STATUS 16 16 :=
    State.fld_congr ((takeAddr_shows s 0 _).2.2.2.1 _ (by decide)) 16 16
  unfold enumBegun
  dsimp only
  rw [hfld]
  refine (State.reg_setReg_same _ CHN_ENUM_STATUS _).trans ?_
  rw [State.reg_setReg_same]
  exact (upperHalf_shows hlt).2.2

theorem keepsEnum_sendEnum {s : State} (h : s.chain.enumAt = s.island) (p a : Nat) (west : Bool) (low : Nat) : KeepsEnum s (sendEnum s p a west low) := by
  refine KeepsEnum.trans ?_ (.of_sendsOnly (sendsOnly_portSend _ p .own _))
  exact ⟨rfl, rfl, h.symm, fun _ _ _ => rfl⟩

theorem peers_sendEnum (s : State) (p a : Nat) (west : Bool) (low : Nat) : (sendEnum s p a west low).chain.peers = s.chain.peers :=
  (sendsOnly_portSend _ p .own _).peers

/-- Sending an ENUM changes the chain and what leaves the part. -/
theorem onlyChain_sendEnum (s : State) {p : Nat} (hp : p < 2) (a : Nat) (west : Bool) (low : Nat) : OnlyChain s (sendEnum s p a west low) := by
  refine OnlyChain.trans ?_ (onlyChain_portSend hp _ .own _)
  exact .of_regs_eq rfl rfl

section Enum

variable {s : State} {a : Access} {v : Word} (hreach : Reaches s a .w CHN_CMD)
include hreach

theorem exec_chnEnum : exec (.chnEnum a v) s = .next (if bitOf v.toNat 0 = false then s
    else if bitOf s.straps.toNat 3 = false then accessEv s evAccessState a CHN_CMD
    else mapUpdate (sendEnum (enumBegun s) 1 1 false 0)) := by
  refine congrArg Host.Outcome.next ((regAccess_go hreach).trans ?_)
  exact if_congr (by simp) rfl (if_congr (by simp) rfl rfl)

end Enum

/-- An enumeration under way (R354). -/
theorem enumSent_shows (s : State) : let t := mapUpdate (sendEnum (enumBegun s) 1 1 false 0)
    t.chain.enumOn = true ∧ t.chain.west = false ∧ t.chain.enumAt = s.island
      ∧ t.reg CHN_ADDR = BitVec.ofNat 32 (8 + 16 * ((s.fld CHN_ADDR 4 4 + 1) % 16)) ∧ t.fld CHN_ENUM_STATUS 0 16 = 0
      ∧ t.fld CHN_ENUM_STATUS 16 16 = s.fld CHN_ENUM_STATUS 16 16 := by
  intro t
  have hlt : s.fld CHN_ENUM_STATUS 16 16 < 2 ^ 16 := Nat.mod_lt _ (by decide)
  obtain ⟨hon, hwest, hat, hregs⟩ : KeepsEnum (enumBegun s) t :=
    (keepsEnum_sendEnum (s := enumBegun s) rfl 1 1 false 0).trans (keepsEnum_mapUpdate _)
  have hstatus := (hregs CHN_ENUM_STATUS (by decide) (by decide)).trans (enumBegun_status s)
  have hhalves := upperHalf_shows hlt
  refine ⟨hon, hwest, hat, (hregs CHN_ADDR (by decide) (by decide)).trans (enumBegun_addr s), ?_, ?_⟩
  · rw [State.fld, hstatus, hhalves.1]
  · rw [State.fld, hstatus, hhalves.2.1]

theorem enumBegun_keeps (s : State) : (enumBegun s).mem = s.mem ∧ (enumBegun s).jobs = s.jobs ∧ (enumBegun s).cpls = s.cpls := by
  simp [enumBegun, takeAddr]

theorem OnlyChain.work {s t : State} (h : OnlyChain s t) : t.mem = s.mem ∧ t.jobs = s.jobs ∧ t.cpls = s.cpls :=
  ⟨(congrArg State.mem h.back :), (congrArg State.jobs h.back :), (congrArg State.cpls h.back :)⟩

theorem MapAlone.work {n : Nat} {s t : State} (h : MapAlone n s t) : t.mem = s.mem ∧ t.jobs = s.jobs ∧ t.cpls = s.cpls :=
  ⟨(congrArg State.mem h.back :), (congrArg State.jobs h.back :), (congrArg State.cpls h.back :)⟩

/-- With no other unit known, an enumeration touches no memory and no job. -/
theorem enumSent_alone {s : State} (h : s.chain.peers = []) : let t := mapUpdate (sendEnum (enumBegun s) 1 1 false 0)
    t.mem = s.mem ∧ t.jobs = s.jobs ∧ t.cpls = s.cpls := by
  have hpeers : (enumBegun s).chain.peers = [] := by
    change tnorm (fun _ => ({} : Peer)) (s.chain.peers.map _) = []
    rw [h]
    rfl
  obtain ⟨hmem, hjobs, hcpls⟩ := (onlyChain_sendEnum (enumBegun s) (p := 1) (by decide) 1 false 0).work
  obtain ⟨hmem', hjobs', hcpls'⟩ := (mapUpdate_alone ((peers_sendEnum (enumBegun s) 1 1 false 0).trans hpeers)).work
  obtain ⟨hmem₀, hjobs₀, hcpls₀⟩ := enumBegun_keeps s
  dsimp only
  rw [hmem', hjobs', hcpls', hmem, hjobs, hcpls, hmem₀, hjobs₀, hcpls₀]
  exact ⟨rfl, rfl, rfl⟩

/-! ### ENUM messages and their time-out (R354, R355) -/

section EnumRx

variable {p : Fin 2} {m : Msg} {s : State}

theorem sendsOnly_account (s : State) (p : Nat) (m : Msg) (free : Bool) : SendsOnly s (account s p m free) := by
  have hcount : 0x270100 ≤ CHN_P_RX_FLITS p := by
    unfold CHN_P_RX_FLITS
    omega
  have hack (t : State) : SendsOnly t (sendAck t p) := (sendsOnly_setPort t p _).trans (sendsOnly_emit _ _)
  unfold account State.each
  refine SendsOnly.foldl (fun s _ => ?_) _ s
  rw [takeFlit_eq]
  have hcounted (v : ChnPort) : SendsOnly s ((s.setPort p v).inc (CHN_P_RX_FLITS p)) := (sendsOnly_setPort s p v).trans (sendsOnly_inc _ hcount)
  exact .ite ((hcounted _).trans (hack _)) (hcounted _)

theorem enumState_account (s : State) (p : Nat) (m : Msg) (free : Bool) : (account s p m free).chain.enumOn = s.chain.enumOn
    ∧ (account s p m free).chain.west = s.chain.west ∧ (account s p m free).straps = s.straps := by
  obtain ⟨-, hback⟩ := sendsOnly_account s p m free
  exact ⟨(congrArg (fun x : State => x.chain.enumOn) hback :), (congrArg (fun x : State => x.chain.west) hback :), (congrArg State.straps hback :)⟩

/-- An ENUM that has come round to the unit that sent it. -/
abbrev enumBack (s : State) (m : Msg) : Prop := bitOf s.straps.toNat 3 = true ∧ m.epoch.toNat = s.fld CHN_ADDR 4 4 ∧ m.origin = 0

/-- What an ENUM brings that arrives, by its direction and the port. -/
def enumTaken (s : State) (p : Fin 2) (m : Msg) : State :=
  let u := account s p.val m
  let k := m.h8 8
  let west := bitOf (m.h8 9) 0
  if enumBack s m then
    if west = false ∧ p.val = 0 ∧ s.chain.enumOn = true ∧ s.chain.west = false then enumDone u false (decide (8 < k)) k (k - 1) (closedRoute 0 (Nat.max k 1)) else u
  else if west = false ∧ p.val = 0 then
    let v := if k < 8 then mapUpdate (takeAddr u k m.epoch.toNat) else enumRefused u k
    if (v.port 1).state = .up then enumOn v p.val m (k + 1) else v
  else if west = true ∧ p.val = 1 then
    if m.h8 10 ≤ k then
      let v := mapUpdate (takeAddr u k m.epoch.toNat)
      if (v.port 0).state = .up then enumOn v p.val m (k - 1) else v
    else enumRefused u k
  else u

theorem exec_enumRx (hup : chainUp s p.val = true) (hk : m.kind = 1) : exec (.enumRx p m) s = .next (enumTaken s p m) := by
  obtain ⟨hon, hwest, hstraps⟩ := enumState_account s p.val m true
  have haddr := addr_account s p.val m true
  refine congrArg Host.Outcome.next ((if_neg (by simp [hup, hk])).trans ?_)
  have hback : (bitOf (account s p.val m).straps.toNat 3 && m.epoch.toNat == (account s p.val m).fld CHN_ADDR 4 4 && decide (m.origin = 0)) = true
      ↔ enumBack s m := by
    rw [hstraps, State.fld_congr haddr]
    simp [and_assoc]
  refine if_congr hback (if_congr ?_ rfl rfl) (if_congr ?_ rfl (if_congr ?_ rfl rfl))
  · rw [hon, hwest]
    simp only [Bool.and_eq_true, Bool.not_eq_true', decide_eq_true_eq, and_assoc]
  · simp only [Bool.and_eq_true, Bool.not_eq_true', decide_eq_true_eq]
  · simp only [Bool.and_eq_true, decide_eq_true_eq]

end EnumRx

theorem exec_enumTimeout (s : State) : exec .enumTimeout s = .next
    (if s.ctl.ring = true ∧ s.chain.enumOn = true ∧ s.chain.enumAt + 2000000 ≤ s.island then
      if s.chain.west = false then
        sendEnum { s with chain := { s.chain with west := true, eastN := (heardSince s).foldl Nat.max 0 } } 0 7 true ((heardSince s).foldl Nat.max 0 + 1)
      else enumDone s true false (1 + s.chain.eastN + ((heardSince s).filter fun a => decide (s.chain.eastN < a)).length) s.chain.eastN
        (((heardSince s).filter fun a => decide (s.chain.eastN < a)).foldl (fun v a => v + 2 ^ a) 0)
    else s) := by
  refine congrArg Host.Outcome.next ((ite_not _ _ _).symm.trans (if_congr ?_ rfl (if_congr (by simp) rfl rfl))).symm
  simp only [Bool.or_eq_true, Bool.not_eq_true', decide_eq_true_eq, not_and_or, Bool.not_eq_true, Nat.not_le, or_assoc]

/-! ### The vault register (R380) -/

theorem exec_chnVaultWrite {a : Access} {v : Word} {s : State} (hreach : Reaches s a .w CHN_VAULT) : exec (.chnVaultWrite a v) s = .next
    (if bitOf ((plainWrite s CHN_VAULT v).reg CHN_VAULT).toNat 0 = true ∧ (plainWrite s CHN_VAULT v).reg CHN_VAULT ≠ s.reg CHN_VAULT then
      zeroVault (plainWrite s CHN_VAULT v) else plainWrite s CHN_VAULT v) := by
  refine congrArg Host.Outcome.next ((regAccess_go hreach).trans (if_congr ?_ rfl rfl))
  generalize (plainWrite s CHN_VAULT v).reg CHN_VAULT = new
  generalize s.reg CHN_VAULT = was
  simp only [Bool.and_eq_true, Bool.or_eq_true, Bool.not_eq_true', bne_iff_ne, and_congr_right_iff, or_iff_right_iff_imp]
  intro hon hoff h
  rw [h, hoff] at hon
  exact Bool.false_ne_true hon

/-! ### The obligation -/

/-- Settles O50: each of the ring's commands and messages by its equation. -/
theorem chainUnits : Obligations.ChainUnits := by
  unfold Obligations.ChainUnits
  refine ⟨fun a v s hreach => ⟨exec_chnLogicalWrite_refused hreach, exec_chnLogicalWrite_takes hreach, fun hfree hset haddr hpeers =>
      ⟨_, exec_chnLogicalWrite_takes hreach hfree, logicalTaken_shows s v hset haddr hpeers⟩⟩,
    fun s => ⟨fun h => ?_, fun h => ?_⟩, fun p m s u here hdeliver => ?_, fun o s => ⟨fun h => ?_, fun h => ?_⟩, fun a v s hreach => ?_,
    fun p m s => ⟨fun h => ?_, fun hup hk => ?_⟩, takeAddr_shows, fun s k => rfl, fun s => ?_, fun a v s hreach => ?_⟩
  case refine_1 => exact (exec_helloSend s).trans (congrArg _ (if_pos h))
  case refine_2 => exact (exec_helloSend s).trans (congrArg _ (if_neg h))
  case refine_3 =>
    have hexec := exec_helloRx (m := m) hdeliver
    have hguard : (m.kind != 5 || !chainUp u p.val || (decide (m.origin.toNat = u.physAddr) && u.bit CHN_ADDR 3)) = true
        ↔ ¬ (m.kind = 5 ∧ chainUp u p.val = true ∧ (m.origin.toNat ≠ u.physAddr ∨ u.bit CHN_ADDR 3 = false)) := by
      simp only [Bool.or_eq_true, Bool.and_eq_true, bne_iff_ne, Bool.not_eq_true', decide_eq_true_eq, not_and_or, not_or, not_not, ne_eq,
        Bool.not_eq_true, Bool.not_eq_false, or_assoc]
    refine ⟨fun h => ?_, fun h hoff => ?_, fun h hon => ?_⟩
    · exact hexec.trans (congrArg _ (if_pos (hguard.mpr h)))
    all_goals replace hexec := hexec.trans (congrArg _ (if_neg fun hg => hguard.mp hg h))
    · exact hexec.trans (congrArg _ (if_pos (by simp [hoff])))
    · refine hexec.trans (congrArg _ ((if_neg (by simp [hon])).trans (if_congr ?_ rfl rfl)))
      simp only [Bool.and_eq_true, decide_eq_true_eq, Bool.not_eq_true', and_assoc]
      rfl
  case refine_4 => exact (exec_helloTimeout o s).trans (congrArg _ (if_pos h))
  case refine_5 => exact (exec_helloTimeout o s).trans (congrArg _ (if_neg h))
  case refine_6 =>
    refine ⟨fun hbit => ?_, fun hbit hstrap => ?_, fun hbit hstrap => ?_⟩
    · exact (exec_chnEnum hreach).trans (congrArg _ (if_pos hbit))
    · exact (exec_chnEnum hreach).trans (congrArg _ ((if_neg (by simp [hbit])).trans (if_pos hstrap)))
    · obtain ⟨hon, hwest, hat, haddr, hlow, hcount⟩ := enumSent_shows s
      exact ⟨_, (exec_chnEnum hreach).trans (congrArg _ ((if_neg (by simp [hbit])).trans (if_neg (by simp [hstrap])))), hon, hwest, hat, haddr,
        hlow, hcount, enumSent_alone⟩
  case refine_7 => exact congrArg Host.Outcome.next (if_pos (by simpa using h))
  case refine_8 =>
    have hexec := exec_enumRx hup hk
    unfold enumTaken at hexec
    refine ⟨fun hback hwest hp hon hw => ?_, fun hback hnot => ?_, fun hback hwest hp => ?_, fun hback hwest hp => ?_, fun hback hdir => ?_⟩
    · refine hexec.trans (congrArg _ ((if_pos hback).trans ((if_pos ⟨hwest, congrArg Fin.val hp, hon, hw⟩).trans ?_)))
      unfold enumDone
      rw [show Bool.nat false = 0 from rfl, Nat.zero_add]
    · refine hexec.trans (congrArg _ ((if_pos hback).trans (if_neg fun ⟨hwest, hp, hon, hw⟩ => ?_)))
      rcases hnot with h | h | h | h
      · exact Bool.false_ne_true (hwest.symm.trans h)
      · exact absurd (hp.symm.trans (congrArg Fin.val h)) (by decide)
      · exact Bool.false_ne_true (h.symm.trans hon)
      · exact Bool.false_ne_true (hw.symm.trans h)
    all_goals replace hexec := hexec.trans (congrArg _ (if_neg hback))
    · subst hp
      exact hexec.trans (congrArg _ (if_pos ⟨hwest, rfl⟩))
    · subst hp
      exact hexec.trans (congrArg _ ((if_neg fun h => absurd h.2 (by decide)).trans (if_pos ⟨hwest, rfl⟩)))
    · refine hexec.trans (congrArg _ ((if_neg fun h => ?_).trans (if_neg fun h => ?_)))
      · exact Bool.false_ne_true (h.1.symm.trans (hdir.mpr (Fin.ext h.2)))
      · exact absurd (h.2.symm.trans (congrArg Fin.val (hdir.mp h.1))) (by decide)
  case refine_9 =>
    refine ⟨fun h hwest => ?_, fun h hwest => ?_, fun h => ?_⟩
    · exact (exec_enumTimeout s).trans (congrArg _ ((if_pos h).trans (if_pos hwest)))
    · exact (exec_enumTimeout s).trans (congrArg _ ((if_pos h).trans (if_neg (by simp [hwest]))))
    · exact (exec_enumTimeout s).trans (congrArg _ (if_neg h))
  case refine_10 =>
    have hmem : (plainWrite s CHN_VAULT v).mem = s.mem := (congrArg State.mem (plainWrite_back s CHN_VAULT v) :)
    have hrdn : (plainWrite s CHN_VAULT v).rdn = s.rdn := (congrArg State.rdn (plainWrite_back s CHN_VAULT v) :)
    rw [exec_chnVaultWrite hreach, zeroVault, hmem, hrdn]

end Sys2Proof.Machine

/-!
PROOFS of the lanes family: quads, lanes and their checkers (R459, R461, R464, R469–R475).
-/

namespace Sys2Proof.Machine

/-! ### A field written where it may be -/

/-- A field of a register that takes its value only where it may. -/
def setIf (ok : Bool) (s : State) (a lo n v : Nat) : State := if ok then s.setFld a lo n v else s

section SetIf

variable (ok : Bool) (s : State) (a v : Nat) {lo n : Nat}

theorem onlyRegs_setIf : OnlyRegs [a] s (setIf ok s a lo n v) := by
  unfold setIf
  split
  · exact onlyRegs_setFld s lo n v (List.mem_singleton_self a)
  · exact ⟨fun _ _ => rfl, rfl⟩

theorem setIf_same (h : lo + n ≤ 32) : (setIf ok s a lo n v).fld a lo n = if ok then v % 2 ^ n else s.fld a lo n := by
  unfold setIf
  split
  · exact State.fld_setFld_same s a v h
  · rfl

theorem setIf_beside {lo' n' : Nat} (h : lo + n ≤ 32) (hb : lo' + n' ≤ lo ∨ lo + n ≤ lo') :
    (setIf ok s a lo n v).fld a lo' n' = s.fld a lo' n' := by
  unfold setIf
  split
  · exact State.fld_setFld_beside s a v h hb
  · rfl

end SetIf

/-! ### QDn_CFG (R459, R461, R471) -/

section Cfg

variable (s : State) (n : Nat) (v : Word)

/-- A use that QD15 may not take (R459). -/
def cfgUseBad : Bool :=
  n == 15 && bitsOf v.toNat 0 3 != quadUse s n && (!([1, 3, 4] : List Nat).contains (bitsOf v.toNat 0 3) || qd15Held s)

/-- A test that is asked for outside TEST (R471). -/
def cfgTestBad : Bool := bitOf v.toNat 3 && s.ctl.mode != .test

/-- Another clock on a host quad whose link is up (R461). -/
def cfgClkBad : Bool := decide (n < 4) && bitOf v.toNat 4 != s.bit (QD_CFG n) 4 && linkUp s n

/-- QDn_CFG with the fields that may take their values. -/
def cfgWritten : State :=
  setIf (decide (n < 4) && !cfgClkBad s n v)
    (setIf (!cfgTestBad s v) (setIf (decide (n = 15) && !cfgUseBad s n v) s (QD_CFG n) 0 3 (bitsOf v.toNat 0 3)) (QD_CFG n) 3 1 (Bool.nat (bitOf v.toNat 3)))
    (QD_CFG n) 4 1 (Bool.nat (bitOf v.toNat 4))

/-- What follows a quad's test: checkers given back stop, protocols taken out lose their signal. -/
def cfgFollows (w : State) : State :=
  if quadTest s n = true ∧ quadTest w n = false then w.each 4 fun u l => unlockLane u n l
  else if quadTest s n = false ∧ quadTest w n = true then w.each 4 fun u l => laneLost u n l else w

theorem onlyRegs_cfgWritten : OnlyRegs [QD_CFG n] s (cfgWritten s n v) :=
  ((onlyRegs_setIf _ s _ _).trans (onlyRegs_setIf _ _ _ _)).trans (onlyRegs_setIf _ _ _ _)

theorem cfgWritten_rest : (cfgWritten s n v).fld (QD_CFG n) 5 27 = s.fld (QD_CFG n) 5 27 := by
  unfold cfgWritten
  rw [setIf_beside _ _ _ _ (by decide) (by decide), setIf_beside _ _ _ _ (by decide) (by decide), setIf_beside _ _ _ _ (by decide) (by decide)]

theorem cfgWritten_use : quadUse (cfgWritten s n v) n = if decide (n = 15) && !cfgUseBad s n v then bitsOf v.toNat 0 3 else quadUse s n := by
  have hlt : bitsOf v.toNat 0 3 % 2 ^ 3 = bitsOf v.toNat 0 3 := Nat.mod_mod _ _
  unfold cfgWritten quadUse
  rw [setIf_beside _ _ _ _ (by decide) (by decide), setIf_beside _ _ _ _ (by decide) (by decide), setIf_same _ _ _ _ (by decide), hlt]

/-- A one-bit field written with a Boolean. -/
theorem bitField_eq {b : Bool} {x y : Nat} (ok : Bool) (h : x = if ok then Bool.nat b % 2 ^ 1 else y) : (x == 1) = if ok then b else y == 1 := by
  rw [h]
  cases ok with
  | true => cases b <;> rfl
  | false => rfl

theorem cfgWritten_test : quadTest (cfgWritten s n v) n = if !cfgTestBad s v then bitOf v.toNat 3 else quadTest s n := by
  unfold quadTest
  rw [State.bit_eq_fld, State.bit_eq_fld]
  refine bitField_eq _ ?_
  unfold cfgWritten
  rw [setIf_beside _ _ _ _ (by decide) (by decide), setIf_same _ _ _ _ (by decide), setIf_beside _ s _ _ (by decide) (by decide)]

theorem cfgWritten_clk : (cfgWritten s n v).bit (QD_CFG n) 4 = if decide (n < 4) && !cfgClkBad s n v then bitOf v.toNat 4 else s.bit (QD_CFG n) 4 := by
  rw [State.bit_eq_fld, State.bit_eq_fld]
  refine bitField_eq _ ?_
  unfold cfgWritten
  rw [setIf_same _ _ _ _ (by decide), setIf_beside _ _ _ _ (by decide) (by decide), setIf_beside _ s _ _ (by decide) (by decide)]

theorem qdCfgWrite_eq (a : Access) : qdCfgWrite a n v s =
    if cfgUseBad s n v || cfgTestBad s v || cfgClkBad s n v then accessEv (cfgFollows s n (cfgWritten s n v)) evAccessState a (QD_CFG n)
    else cfgFollows s n (cfgWritten s n v) := by
  have hnot (b : Bool) (u : State) (lo x : Nat) : (if b then u else u.setFld (QD_CFG n) lo 1 x) = setIf (!b) u (QD_CFG n) lo 1 x := by cases b <;> rfl
  have hfollows (w : State) : (let u := if quadTest s n && !quadTest w n then w.each 4 fun u l => unlockLane u n l else w
      if !quadTest s n && quadTest u n then u.each 4 fun u l => laneLost u n l else u) = cfgFollows s n w := by
    unfold cfgFollows
    cases quadTest s n with
    | true => cases quadTest w n <;> rfl
    | false =>
      cases h : quadTest w n with
      | true => exact if_pos (by simp [h])
      | false => exact if_neg (by simp [h])
  unfold qdCfgWrite cfgWritten
  rw [← hnot, ← hfollows]
  rfl

/-- The uses that QD15 may not take, as R459 says them. -/
theorem cfgUseBad_iff : cfgUseBad s n v = true ↔ n = 15 ∧ bitsOf v.toNat 0 3 ≠ quadUse s 15
    ∧ (¬ (bitsOf v.toNat 0 3 = 1 ∨ bitsOf v.toNat 0 3 = 3 ∨ bitsOf v.toNat 0 3 = 4) ∨ s.fld ETH_CFG 4 3 ≠ 0 ∨ ∃ x ∈ s.heads, x.2.tx ≠ .dark ∧ x.2.src ≠ 0) := by
  have hheld : qd15Held s = true ↔ s.fld ETH_CFG 4 3 ≠ 0 ∨ ∃ x ∈ s.heads, x.2.tx ≠ .dark ∧ x.2.src ≠ 0 := by
    simp only [qd15Held, Bool.or_eq_true, bne_iff_ne, List.any_eq_true, Bool.and_eq_true]
  have huse : (!([1, 3, 4] : List Nat).contains (bitsOf v.toNat 0 3)) = true
      ↔ ¬ (bitsOf v.toNat 0 3 = 1 ∨ bitsOf v.toNat 0 3 = 3 ∨ bitsOf v.toNat 0 3 = 4) := by
    simp only [Bool.not_eq_true', ← Bool.not_eq_true, List.contains_iff_mem, List.mem_cons, List.not_mem_nil, or_false]
  unfold cfgUseBad
  rw [Bool.and_eq_true, Bool.and_eq_true, Bool.or_eq_true, hheld, huse, beq_iff_eq, bne_iff_ne, and_assoc]
  exact and_congr_right fun h => by rw [h]

theorem cfgTestBad_iff : cfgTestBad s v = true ↔ bitOf v.toNat 3 = true ∧ s.ctl.mode ≠ .test := by
  rw [cfgTestBad, Bool.and_eq_true, bne_iff_ne]

theorem cfgClkBad_iff : cfgClkBad s n v = true ↔ n < 4 ∧ bitOf v.toNat 4 ≠ s.bit (QD_CFG n) 4 ∧ linkUp s n = true := by
  rw [cfgClkBad, Bool.and_eq_true, Bool.and_eq_true, decide_eq_true_eq, bne_iff_ne, and_assoc]

end Cfg

/-! ### The checkers (R472, R473) -/

theorem laneBits_lt (s : State) (n l : Nat) : laneBits s n l < 2 ^ 64 := by
  unfold laneBits capAt
  split <;> omega

/-- A checker that has stopped: unlocked, its bits counted, the time of its lock gone. -/
structure CheckerEnds (n l : Nat) (s t : State) : Prop where
  unlocked : t.bit (QD_LANE_PRBS_STAT n l) 0 = false
  time : tget (fun _ => 0) t.lockAt (4 * n + l) = 0
  times : ∀ k, k ≠ 4 * n + l → tget (fun _ => 0) t.lockAt k = tget (fun _ => 0) s.lockAt k
  bits : t.pair (QD_LANE_BITS_LO n l) (QD_LANE_BITS_HI n l) = laneBits s n l
  regs : SameRegsBut [QD_LANE_PRBS_STAT n l, QD_LANE_BITS_LO n l, QD_LANE_BITS_HI n l] s t
  back : { t with regs := s.regs, lockAt := s.lockAt } = s

/-- The registers of a checker that stops. -/
def checkerStopped (s : State) (n l : Nat) : State :=
  (s.setPair (QD_LANE_BITS_LO n l) (QD_LANE_BITS_HI n l) (laneBits s n l)).setBit (QD_LANE_PRBS_STAT n l) 0 false

/-- The time at which the settled bits leave a checker. -/
def settledAt (s : State) (n l : Nat) : Nat := if tget (fun _ => 0) s.lockAt (laneNo n l) = 0 then 0 else s.island + 1

theorem unlockLane_eq (s : State) (n l : Nat) : unlockLane s n l = { checkerStopped s n l with
    lockAt := tset (fun _ => 0) (tset (fun _ => 0) s.lockAt (laneNo n l) (settledAt s n l)) (laneNo n l) 0 } := rfl

theorem onlyRegs_checkerStopped (s : State) (n l : Nat) :
    OnlyRegs [QD_LANE_PRBS_STAT n l, QD_LANE_BITS_LO n l, QD_LANE_BITS_HI n l] s (checkerStopped s n l) :=
  (onlyRegs_setPair s _ (by simp) (by simp)).trans (onlyRegs_setBit _ 0 false (by simp))

theorem checkerStopped_pair (s : State) (n l : Nat) :
    (checkerStopped s n l).pair (QD_LANE_BITS_LO n l) (QD_LANE_BITS_HI n l) = laneBits s n l := by
  have hlo : QD_LANE_BITS_LO n l ≠ QD_LANE_PRBS_STAT n l := by unfold QD_LANE_BITS_LO QD_LANE_PRBS_STAT; omega
  have hhi : QD_LANE_BITS_HI n l ≠ QD_LANE_PRBS_STAT n l := by unfold QD_LANE_BITS_HI QD_LANE_PRBS_STAT; omega
  have hpair : QD_LANE_BITS_LO n l ≠ QD_LANE_BITS_HI n l := by unfold QD_LANE_BITS_LO QD_LANE_BITS_HI; omega
  exact (State.pair_congr (State.reg_setReg_ne _ _ hlo) (State.reg_setReg_ne _ _ hhi)).trans (State.pair_setPair s hpair (laneBits_lt s n l))

/-- Another lane's time of lock, after this lane's is written. -/
theorem lockTime_beside {n l k : Nat} (hk : k ≠ 4 * n + l) (table : Tbl Nat) (x : Nat) :
    tget (fun _ => 0) (tset (fun _ => 0) table (laneNo n l) x) k = tget (fun _ => 0) table k :=
  tget_tset_ne _ _ _ _ _ hk

theorem checkerEnds_unlockLane (s : State) (n l : Nat) : CheckerEnds n l s (unlockLane s n l) := by
  have honly := onlyRegs_checkerStopped s n l
  have hpair := checkerStopped_pair s n l
  have hbit : (checkerStopped s n l).bit (QD_LANE_PRBS_STAT n l) 0 = false := State.bit_setBit_same _ _ _ (by decide)
  rw [unlockLane_eq]
  generalize checkerStopped s n l = u at honly hpair hbit ⊢
  have htime (table : Tbl Nat) : tget (fun _ => 0) (tset (fun _ => 0) table (laneNo n l) 0) (4 * n + l) = 0 := tget_tset_same _ _ _ _
  refine ⟨hbit, htime _, fun k hk => ?_, hpair, fun a ha => honly.regs a ha, ?_⟩
  · exact (lockTime_beside hk (tset (fun _ => 0) s.lockAt (laneNo n l) (settledAt s n l)) 0).trans (lockTime_beside hk s.lockAt (settledAt s n l))
  · exact (congrArg (fun x : State => { x with lockAt := s.lockAt }) honly.back :)

section Checker

variable {n : Fin 16} {l : Fin 4} {s : State}

/-- A pattern runs whose code is one of the five (Table 17.4). -/
theorem patternOn_iff (c : Nat) : patternOn c = true ↔ 1 ≤ c ∧ c ≤ 5 := by
  rw [patternOn, Bool.and_eq_true, decide_eq_true_eq, decide_eq_true_eq]

/-- A checker locked. -/
def checkerLocked (s : State) (n l : Nat) : State :=
  { s.setBit (QD_LANE_PRBS_STAT n l) 0 true with lockAt := tset (fun _ => 0) s.lockAt (laneNo n l) (s.island + 1) }

theorem exec_prbsCheckerLock : exec (.prbsCheckerLock n l) s = .next
    (if quadOn s n.val = true ∧ quadTest s n.val = true ∧ 1 ≤ s.fld (QD_LANE_PRBS n.val l.val) 4 3
      ∧ s.fld (QD_LANE_PRBS n.val l.val) 4 3 ≤ 5 ∧ s.bit (QD_LANE_PRBS_STAT n.val l.val) 0 = false
    then checkerLocked s n.val l.val else s) := by
  refine congrArg Host.Outcome.next ((ite_not _ _ _).symm.trans (if_congr ?_ rfl rfl)).symm
  have hpattern := patternOn_iff (s.fld (QD_LANE_PRBS n.val l.val) 4 3)
  rw [← and_assoc (a := 1 ≤ _), ← hpattern]
  simp only [Bool.or_eq_true, Bool.not_eq_true', not_and_or, Bool.not_eq_true, Bool.not_eq_false, or_assoc]

theorem exec_prbsLockLost : exec (.prbsLockLost n l) s = .next
    (if quadOn s n.val = true ∧ s.bit (QD_LANE_PRBS_STAT n.val l.val) 0 = true
    then (unlockLane s n.val l.val).setBit (QD_LANE_PRBS_STAT n.val l.val) 1 true else s) := by
  refine congrArg Host.Outcome.next ((ite_not _ _ _).symm.trans (if_congr ?_ rfl rfl)).symm
  simp only [Bool.or_eq_true, Bool.not_eq_true', not_and_or, Bool.not_eq_true]

theorem checkerLocked_shows (s : State) (n l : Nat) : let t := checkerLocked s n l
    t.bit (QD_LANE_PRBS_STAT n l) 0 = true ∧ tget (fun _ => 0) t.lockAt (4 * n + l) = s.island + 1
      ∧ (∀ k, k ≠ 4 * n + l → tget (fun _ => 0) t.lockAt k = tget (fun _ => 0) s.lockAt k)
      ∧ SameRegsBut [QD_LANE_PRBS_STAT n l] s t ∧ { t with regs := s.regs, lockAt := s.lockAt } = s := by
  have hbit := State.bit_setBit_same (i := 0) s (QD_LANE_PRBS_STAT n l) true (by decide)
  have honly := onlyRegs_setBit s 0 true (List.mem_singleton_self (QD_LANE_PRBS_STAT n l))
  unfold checkerLocked
  generalize s.setBit (QD_LANE_PRBS_STAT n l) 0 true = u at hbit honly ⊢
  have htime : tget (fun _ => 0) (tset (fun _ => 0) s.lockAt (laneNo n l) (s.island + 1)) (4 * n + l) = s.island + 1 := tget_tset_same _ _ _ _
  exact ⟨hbit, htime, fun k hk => lockTime_beside hk s.lockAt (s.island + 1), fun a ha => honly.regs a ha,
    (congrArg (fun x : State => { x with lockAt := s.lockAt }) honly.back :)⟩

/-- A checker that lost its lock, the loss noted. -/
theorem lockLost_shows (s : State) (n l : Nat) : let t := (unlockLane s n l).setBit (QD_LANE_PRBS_STAT n l) 1 true
    t.bit (QD_LANE_PRBS_STAT n l) 1 = true ∧ CheckerEnds n l s t := by
  obtain ⟨hunlocked, htime, htimes, hbits, hregs, hback⟩ := checkerEnds_unlockLane s n l
  generalize unlockLane s n l = u at hunlocked htime htimes hbits hregs hback ⊢
  have hlo : QD_LANE_BITS_LO n l ≠ QD_LANE_PRBS_STAT n l := by unfold QD_LANE_BITS_LO QD_LANE_PRBS_STAT; omega
  have hhi : QD_LANE_BITS_HI n l ≠ QD_LANE_PRBS_STAT n l := by unfold QD_LANE_BITS_HI QD_LANE_PRBS_STAT; omega
  refine ⟨State.bit_setBit_same u _ true (by decide), ⟨?_, htime, htimes, ?_, ?_, hback⟩⟩
  · exact (State.bit_setFld_outside u _ _ (by decide) (.inl (by decide))).trans hunlocked
  · exact (State.pair_congr (State.reg_setReg_ne _ _ hlo) (State.reg_setReg_ne _ _ hhi)).trans hbits
  · exact hregs.trans (sameRegsBut_setReg _ _ (List.mem_cons_self ..))

end Checker

/-! ### Slips, patterns, adaptation (R469–R475) -/

section Lane

variable {n : Fin 16} {l : Fin 4} {s : State} {a : Access} {v : Word}

theorem slipLane_shows (s : State) (n l : Nat) : let r := QD_LANE_STATE n l
    let t := slipLane s n l
    t.fld r 16 7 = (s.fld r 16 7 + 1) % (if quadTest s n = true then 64 else 66) ∧ t.fld r 0 16 = s.fld r 0 16 ∧ t.fld r 23 9 = s.fld r 23 9
      ∧ SameRegsBut [r] s t ∧ { t with regs := s.regs } = s := by
  intro r t
  refine ⟨(State.fld_setFld_same s _ _ (by decide)).trans (Nat.mod_eq_of_lt ?_), State.fld_setFld_beside s _ _ (by decide) (.inl (by decide)),
    State.fld_setFld_beside s _ _ (by decide) (.inr (by decide)), State.setFld_sameRegsBut s _ 16 7 _, rfl⟩
  split <;> omega

theorem exec_laneSlip (hreach : Reaches s a .w (QD_LANE_SLIP n.val l.val)) : exec (.laneSlip a n l v) s = .next
    (if bitOf v.toNat 0 = true ∧ (quadTest s n.val = true ∨ quadUse s n.val = 2) then slipLane s n.val l.val else s) := by
  refine congrArg Host.Outcome.next ((regAccess_go hreach).trans (if_congr ?_ rfl rfl))
  simp only [Bool.and_eq_true, Bool.or_eq_true, beq_iff_eq]

/-- The state in which a lane's pattern word is written: a checker whose pattern changes has stopped (R473). -/
def prbsWritten (s : State) (n l : Nat) (v : Word) : State :=
  plainWrite (if bitsOf v.toNat 4 3 ≠ s.fld (QD_LANE_PRBS n l) 4 3 ∧ s.bit (QD_LANE_PRBS_STAT n l) 0 = true then unlockLane s n l else s)
    (QD_LANE_PRBS n l) v

/-- `k` bits inverted on a lane: owed to the wire, and counted where the lane hears itself and its checker is locked (R472). -/
def injected (s : State) (n l k : Nat) : State :=
  let y := { s with lanesQd := tset (fun _ => 0) s.lanesQd (4 * n + l) (tget (fun _ => 0) s.lanesQd (4 * n + l) + k) }
  if y.fld (QD_LANE_LOOP n l) 0 2 = 1 ∧ y.bit (QD_LANE_PRBS_STAT n l) 0 = true then y.add (QD_LANE_ERR n l) 0 32 k else y

theorem inject_eq (s : State) (n l k : Nat) : inject s n l k = injected s n l k :=
  if_congr (by rw [Bool.and_eq_true, decide_eq_true_eq]; rfl) rfl rfl

theorem prbsWrite_eq (a : Access) (n l : Nat) (v : Word) (s : State) : prbsWrite a n l v s =
    let w := prbsWritten s n l v
    let one := if bitOf v.toNat 8 then injected w n l 1 else w
    if bitsOf v.toNat 16 6 = 0 then accessEv s evAccessRange a (QD_LANE_PRBS n l)
    else if quadTest w n = false ∨ w.fld (QD_LANE_PRBS n l) 0 3 = 0 ∨ 5 < w.fld (QD_LANE_PRBS n l) 0 3 then w
    else if bitOf v.toNat 9 then injected one n l (bitsOf v.toNat 16 6) else one := by
  have hwritten : prbsWritten s n l v = plainWrite (if decide (bitsOf v.toNat 4 3 ≠ s.fld (QD_LANE_PRBS n l) 4 3) && s.bit (QD_LANE_PRBS_STAT n l) 0
      then unlockLane s n l else s) (QD_LANE_PRBS n l) v := by
    unfold prbsWritten
    congr 1
    exact if_congr (by rw [Bool.and_eq_true, decide_eq_true_eq]) rfl rfl
  simp only [← inject_eq, hwritten]
  refine if_congr Iff.rfl rfl (if_congr ?_ rfl rfl)
  rw [Bool.or_eq_true, Bool.not_eq_true', Bool.not_eq_true', ← Bool.not_eq_true (patternOn _), patternOn_iff]
  refine or_congr Iff.rfl ?_
  generalize State.fld _ (QD_LANE_PRBS n l) 0 3 = c
  omega

/-- A receiver that has converged: its equaliser words, and the lane seen (R469). -/
def laneAdapted (s : State) (n l : Nat) (ctle : BitVec 4) (dfe : BitVec 64) : State :=
  ((s.setReg (QD_LANE_RXEQ n l) (BitVec.ofNat 32 ctle.toNat)).setPair (QD_LANE_DFE_LO n l) (QD_LANE_DFE_HI n l) dfe.toNat).setFld (QD_LANE_STATE n l) 4 3 7

theorem laneAdapted_shows (s : State) (n l : Nat) (ctle : BitVec 4) (dfe : BitVec 64) : let t := laneAdapted s n l ctle dfe
    t.reg (QD_LANE_RXEQ n l) = BitVec.ofNat 32 ctle.toNat ∧ t.pair (QD_LANE_DFE_LO n l) (QD_LANE_DFE_HI n l) = dfe.toNat
      ∧ t.fld (QD_LANE_STATE n l) 4 3 = 7
      ∧ SameRegsBut [QD_LANE_RXEQ n l, QD_LANE_DFE_LO n l, QD_LANE_DFE_HI n l, QD_LANE_STATE n l] s t ∧ { t with regs := s.regs } = s := by
  have heq : QD_LANE_RXEQ n l ≠ QD_LANE_DFE_LO n l ∧ QD_LANE_RXEQ n l ≠ QD_LANE_DFE_HI n l ∧ QD_LANE_RXEQ n l ≠ QD_LANE_STATE n l := by
    unfold QD_LANE_RXEQ QD_LANE_DFE_LO QD_LANE_DFE_HI QD_LANE_STATE
    omega
  have hdfe : QD_LANE_DFE_LO n l ≠ QD_LANE_DFE_HI n l ∧ QD_LANE_DFE_LO n l ≠ QD_LANE_STATE n l ∧ QD_LANE_DFE_HI n l ≠ QD_LANE_STATE n l := by
    unfold QD_LANE_DFE_LO QD_LANE_DFE_HI QD_LANE_STATE
    omega
  have honly : OnlyRegs [QD_LANE_RXEQ n l, QD_LANE_DFE_LO n l, QD_LANE_DFE_HI n l, QD_LANE_STATE n l] s (laneAdapted s n l ctle dfe) :=
    ((onlyRegs_setReg s _ (by simp)).trans (onlyRegs_setPair _ _ (by simp) (by simp))).trans (onlyRegs_setFld _ 4 3 7 (by simp))
  refine ⟨?_, ?_, State.fld_setFld_same _ _ _ (by decide), honly.regs, honly.back⟩
  · refine (State.reg_setReg_ne _ _ heq.2.2).trans ((State.reg_setReg_ne _ _ heq.2.1).trans ((State.reg_setReg_ne _ _ heq.1).trans ?_))
    exact State.reg_setReg_same s _ _
  · refine (State.pair_congr (State.reg_setReg_ne _ _ hdfe.2.1) (State.reg_setReg_ne _ _ hdfe.2.2)).trans ?_
    exact State.pair_setPair _ hdfe.1 dfe.isLt

theorem exec_adaptationConverged (ctle : BitVec 4) (dfe : BitVec 64) : exec (.adaptationConverged n l ctle dfe) s = .next
    (if quadOn s n.val = true ∧ laneState s n.val l.val false = 0 ∧ s.bit (QD_LANE_CTRL n.val l.val) 7 = false
    then laneAdapted s n.val l.val ctle dfe else s) := by
  refine congrArg Host.Outcome.next ((ite_not _ _ _).symm.trans (if_congr ?_ rfl rfl)).symm
  simp only [Bool.or_eq_true, Bool.not_eq_true', decide_eq_true_eq, not_and_or, Bool.not_eq_true, Bool.not_eq_false, ne_eq, or_assoc]

end Lane

/-! ### A protocol without its signal (R464, R471) -/

theorem laneLost_host {s : State} {n : Nat} (h : quadUse s n = 0) (l : Nat) :
    laneLost s n l = if l < s.fld (HIF_HP_STATUS n) 4 3 then hostDown s n else s := by
  unfold laneLost
  rw [h]
  exact if_congr decide_eq_true_iff rfl rfl

theorem laneLost_chain {s : State} {n : Nat} (h : quadUse s n = 2) (l : Nat) : laneLost s n l = lockLost s (n - 5) l := by
  unfold laneLost
  exact h ▸ rfl

theorem laneLost_none {s : State} {n : Nat} (h : 3 ≤ quadUse s n) (l : Nat) : laneLost s n l = s := by
  obtain ⟨k, hk⟩ := Nat.exists_eq_add_of_le' h
  unfold laneLost
  exact hk ▸ rfl

theorem laneLost_eth {s : State} {n : Nat} (h : quadUse s n = 1) (l : Nat) : laneLost s n l =
    let b := if n = 4 then 0 else 4
    s.each 4 fun u i => if portExists u (b + i) = true ∧ l ∈ ethLanes u (b + i) then ethDown u (b + i) else u := by
  unfold laneLost
  rw [h]
  refine congrArg (s.each 4) (funext fun u => funext fun i => ?_)
  exact if_congr (by rw [Bool.and_eq_true, List.contains_iff_mem]) rfl rfl

/-! ### The obligation -/

/-- Both ways to write a quad's QDn_CFG are one write. -/
theorem exec_qdCfg {a : Access} {n : Fin 16} {v : Word} {s : State} {c : Instr}
    (hc : c = .qdTestWrite a n v ∨ n.val = 15 ∧ c = .qd15UseWrite a v) (hreach : Reaches s a .w (QD_CFG n.val)) :
    exec c s = .next (qdCfgWrite a n.val v s) := by
  obtain rfl | ⟨hn, rfl⟩ := hc
  · exact congrArg Host.Outcome.next (regAccess_go hreach)
  · rw [hn] at hreach ⊢
    exact congrArg Host.Outcome.next (regAccess_go hreach)

theorem exec_inject {a : Access} {n : Fin 16} {l : Fin 4} {v : Word} {s : State} {c : Instr}
    (hc : c = .injectSingle a n l v ∨ c = .injectBurst a n l v) (hreach : Reaches s a .w (QD_LANE_PRBS n.val l.val)) :
    exec c s = .next (prbsWrite a n.val l.val v s) := by
  obtain rfl | rfl := hc <;> exact congrArg Host.Outcome.next (regAccess_go hreach)

/-- Settles O55: each write and report by its equation. -/
theorem laneCommands : Obligations.LaneCommands := by
  unfold Obligations.LaneCommands
  refine ⟨fun a n v s c hc hreach => ?config, fun s n l => ⟨fun h => laneLost_host h l, fun h => laneLost_eth h l,
      fun h => laneLost_chain h l, fun h => laneLost_none h l⟩,
    fun a n l v s hreach => ⟨fun h => ?noSlip, fun h => ⟨_, ?slip, slipLane_shows s n.val l.val⟩⟩,
    fun a n l v s c hc hreach => ?inject, fun n l s => ?checker,
    fun n l s ctle dfe => ⟨fun h => ⟨_, ?adapts, laneAdapted_shows s n.val l.val ctle dfe⟩, fun h => ?stays, ?recentre⟩⟩
  case config =>
    have hexec := (exec_qdCfg hc hreach).trans (congrArg Host.Outcome.next (qdCfgWrite_eq s n.val v a))
    have honly := onlyRegs_cfgWritten s n.val v
    intro r use useBad testBad clkBad
    have huse : cfgUseBad s n.val v = true ↔ useBad := cfgUseBad_iff s n.val v
    have htest : cfgTestBad s v = true ↔ testBad := cfgTestBad_iff s v
    have hclk : cfgClkBad s n.val v = true ↔ clkBad := cfgClkBad_iff s n.val v
    have hbad : (cfgUseBad s n.val v || cfgTestBad s v || cfgClkBad s n.val v) = true ↔ useBad ∨ testBad ∨ clkBad := by
      rw [Bool.or_eq_true, Bool.or_eq_true, or_assoc, huse, htest, hclk]
    refine ⟨cfgWritten s n.val v, honly.regs, honly.back, cfgWritten_rest s n.val v, fun hn h => ?_, fun h => ?_, fun h => ?_, fun h => ?_,
      fun hn h => ?_, fun h => ?_, fun h => ?_, fun h => ?_⟩
    · exact (cfgWritten_use s n.val v).trans (if_pos (by rw [decide_eq_true hn, Bool.eq_false_iff.2 (mt huse.1 h)]; rfl))
    · exact (cfgWritten_use s n.val v).trans (if_neg (by simpa [← huse, imp_iff_not_or] using h))
    · exact (cfgWritten_test s n.val v).trans (if_neg (by rw [htest.2 h]; decide))
    · exact (cfgWritten_test s n.val v).trans (if_pos (by rw [Bool.eq_false_iff.2 (mt htest.1 h)]; rfl))
    · exact (cfgWritten_clk s n.val v).trans (if_pos (by rw [decide_eq_true hn, Bool.eq_false_iff.2 (mt hclk.1 h)]; rfl))
    · exact (cfgWritten_clk s n.val v).trans (if_neg (by simpa [← hclk, imp_iff_not_or] using h))
    · exact hexec.trans (congrArg _ (if_pos (hbad.2 h)))
    · exact hexec.trans (congrArg _ (if_neg (mt hbad.1 h)))
  case noSlip => exact (exec_laneSlip hreach).trans (congrArg _ (if_neg h))
  case slip => exact (exec_laneSlip hreach).trans (congrArg _ (if_pos h))
  case inject =>
    have hexec := (exec_inject hc hreach).trans (congrArg Host.Outcome.next (prbsWrite_eq a n.val l.val v s))
    refine ⟨fun h => hexec.trans (congrArg _ (if_pos h)), fun h htest hlo hhi => ?_, fun h hoff => ?_⟩
    · refine hexec.trans (congrArg _ ((if_neg h).trans (if_neg ?_)))
      rintro (hoff | hnone | hover)
      · exact Bool.false_ne_true (hoff.symm.trans htest)
      · exact absurd (hlo.trans_eq hnone) (by decide)
      · exact absurd (hover.trans_le hhi) (lt_irrefl 5)
    · exact hexec.trans (congrArg _ ((if_neg h).trans (if_pos hoff)))
  case checker =>
    intro st ends locks loses
    have hends {t : State} (h : CheckerEnds n.val l.val s t) : ends t := ⟨h.unlocked, h.time, h.times, h.bits, h.regs, h.back⟩
    obtain ⟨hlost, hlostEnds⟩ := lockLost_shows s n.val l.val
    exact ⟨hends (checkerEnds_unlockLane s n.val l.val),
      fun h => ⟨_, exec_prbsCheckerLock.trans (congrArg _ (if_pos h)), checkerLocked_shows s n.val l.val⟩,
      fun h => ⟨_, exec_prbsLockLost.trans (congrArg _ (if_pos h)), hlost, hends hlostEnds⟩,
      fun h => exec_prbsCheckerLock.trans (congrArg _ (if_neg h)), fun h => exec_prbsLockLost.trans (congrArg _ (if_neg h))⟩
  case adapts => exact (exec_adaptationConverged ctle dfe).trans (congrArg _ (if_pos h))
  case stays => exact (exec_adaptationConverged ctle dfe).trans (congrArg _ (if_neg h))
  case recentre => exact congrArg Host.Outcome.next (if_congr (by simp [and_assoc]) rfl rfl)

end Sys2Proof.Machine
